-- ==== Sys2Proof/Word.lean ====
section
/-! DEFINITION. The word types of the block: register words, bytes, and the plainest arithmetic on them. -/
namespace Sys2Proof

/-- A 32-bit register word (R11). -/
abbrev Word := BitVec 32

/-- One byte of host memory, DRAM, a frame or a record. -/
abbrev Byte := BitVec 8

/-- A 10-bit symbol of a serial lane as its receiver decodes it: a data byte, or, with bit 8 set, a control symbol (R208). -/
abbrev Symbol := BitVec 9

/-- The byte that holds a number reduced modulo 256. -/
abbrev byteOf (n : Nat) : Byte := BitVec.ofNat 8 n

end Sys2Proof
end

