-- ==== Sys2Proof/Syntax.lean ====
section
/-! DEFINITION. The commands of the block: one constructor for each row of the table of operations and events, with
what the outside world (or the end of an inner operation) supplies as its operands. -/
namespace Sys2Proof

/-- A descriptor as the device takes it: its submission ring and its 64 bytes (R443). -/
structure Desc where
  ring : Fin 32
  bytes : List Byte
  deriving DecidableEq, Repr

/-- What a host read that fails was for: the descriptor at a ring's CONS, or a job by its acceptance number. -/
inductive Reader where
  | fetch (ring : Fin 32)
  | job (aseq : Word)
  deriving DecidableEq, Repr

/-- A non-posted request to host memory: its requester and its address (R434). -/
structure HostRead where
  reader : Reader
  addr : BitVec 64
  deriving DecidableEq, Repr

/-- Where a tile job meets a poisoned byte (R102, R145): a record of its section by its stream offset, a coarse job by
ream and tile column, a halo row by side and block row. -/
inductive PoisonAt where
  | record (off : BitVec 48)
  | coarse (ream : Word) (col : Fin 16)
  | halo (side : Fin 2) (row : Word)
  deriving DecidableEq, Repr

/-- How a vat's render came out: as the rules give it, otherwise (a faulty vat or calender: its bytes in watermark order,
or its block values), or ended by a poisoned byte. -/
inductive Render where
  | right
  | wrong (bytes : List Byte)
  | poison (at' : PoisonAt)
  deriving DecidableEq, Repr

/-- What goes otherwise than right in one driver frame of a line (R187, R189): a self-check flag of couch A or B, the two
frames differing, a poisoned felt-buffer byte consumed, and corrections in the staging buffers of couch A and B. -/
structure FrameFault where
  driver : Fin 1024
  flagA : Bool
  flagB : Bool
  differ : Bool
  poison : Bool
  correctedA : Bool
  correctedB : Bool
  deriving DecidableEq, Repr

/-- What a lane receiver has seen since its lane's last command (R237, R244): its symbol errors, the qualifying transitions
of each of its windows, oldest first, and the code that its equaliser has adapted to in those that qualify. -/
structure RxSeen where
  errors : Word
  windows : List (BitVec 12)
  ctle : BitVec 4
  deriving DecidableEq, Repr

/-- A host's write of a 64-bit register: whole, or of one of its halves (R433). -/
structure HalfWrite where
  half : Option (Fin 2)
  value : BitVec 64
  deriving DecidableEq, Repr

/-- What the alignment of a receiver has found: the lane's polarity, and what the receiver has seen. -/
structure Alignment where
  inverted : Bool
  seen : RxSeen
  deriving DecidableEq, Repr

/-- What an EQ check has found (R249): what the receiver has seen, and the tune bursts that the transmitter has sent. -/
structure EqCheck where
  seen : RxSeen
  bursts : Word
  deriving DecidableEq, Repr

/-- A chain that falls silent, and the drivers of it that have restarted (R232). -/
structure SilentChain where
  chain : Fin 128
  restarted : List (Fin 8)
  deriving DecidableEq, Repr

/-- Why a receiver loses alignment (R248): its input is in electrical idle, or what it has seen; and the drivers of a head
lane's chain that have restarted. -/
structure LaneLoss where
  idle : Bool
  seen : RxSeen
  restarted : List (Fin 8)
  deriving DecidableEq, Repr

/-- A tune burst (R245): its transmit lane, and what the receiver at the same port has seen. -/
structure TuneBurst where
  lane : Fin 268
  seen : RxSeen
  deriving DecidableEq, Repr

/-- A lane of a port that loses alignment (R379). -/
structure TideLaneLoss where
  lane : Fin 2
  idle : Bool
  seen : RxSeen
  deriving DecidableEq, Repr

/-- A scan job that ends (R426): its acceptance number, and the first byte that host memory gave poisoned. -/
structure ScanEnd where
  aseq : Word
  poison : Option (BitVec 40)
  deriving DecidableEq, Repr

/-- A lockstep fault (R510): its address, and whether the cores have consumed poison (R417). -/
structure Lockstep where
  addr : BitVec 64
  poison : Bool
  deriving DecidableEq, Repr

/-- What training finds on a lane of a tide-link port (R247 to R249, R367): what its receiver has seen, the polarity, the eye
margins, and how many presets its own transmitter has tried in vain. -/
structure LaneTrain where
  seen : RxSeen
  inverted : Bool
  eyeH : BitVec 6
  eyeV : Byte
  tries : Fin 8
  deriving DecidableEq, Repr

/-- What a training state of a tide-link port has found (R367): on its two lanes, and the skew between them. -/
structure PortTrain where
  lane0 : LaneTrain
  lane1 : LaneTrain
  skew : Byte
  deriving DecidableEq, Repr

/-- A message that arrives on a tide link (R371): its port, its SEQ, and whether the copy of one lane failed its CRC. -/
structure LinkMsg where
  port : Fin 3
  seq : Byte
  oneLane : Bool
  deriving DecidableEq, Repr

/-- What a CTRL message says (R371): the strips do not agree on a field; FLOOD; arming at t_a with the strip's T_S; the
master's state; the end of the strip; the fixed latency L_F, which the devices share (R370). -/
inductive CascadeCtrl where
  | unpaired (field : Byte) (device : BitVec 2)
  | flood (ta te : BitVec 64) (resuming : Bool)
  | arming (ta : BitVec 64) (tS : BitVec 48)
  | state (q : Fin 8)
  | over
  | latency (clocks : Byte)
  deriving DecidableEq, Repr

/-- What every PTP message that a port receives carries (R462 to R464): the port; its VLAN tag; its domain and majorSdoId;
whether it passes the checks of IEEE 1588-2019 for its type, and has security extensions; its sequenceId, correctionField
(2^-16 ns) and sourcePortIdentity; and the quarter of a nanosecond, within the tide clock, at which its message timestamp
point arrives. -/
structure PtpMsg where
  port : Fin 2
  tag : Option (BitVec 12)
  domain : Byte
  sdo : BitVec 4
  valid : Bool
  secured : Bool
  seq : BitVec 16
  corr : BitVec 64
  source : BitVec 80
  phase : Fin 10
  deriving DecidableEq, Repr

/-- A PTP time stamp in a message: seconds and nanoseconds. -/
structure PtpStamp where
  sec : BitVec 48
  ns : Word
  deriving DecidableEq, Repr

/-- What an Announce message says of its grandmaster (R462). -/
structure PtpAnnounce where
  priority1 : Byte
  clockClass : Byte
  accuracy : Byte
  variance : BitVec 16
  priority2 : Byte
  grandmaster : BitVec 64
  steps : BitVec 16
  interval : BitVec 8
  deriving DecidableEq, Repr

/-- The commands: one constructor for each row of the table of operations and events, those with
operands first (the compiler takes no more than 244 of these). -/
inductive Instr where
  /-- R437: The host writes a submission ring's doorbell with a new PROD, which makes the descriptors up to it available for taking. -/
  | sqDoorbell (r : Fin 32) (v : Word)
  /-- R440: The host writes an event ring's consumer doorbell, which advances CONS and re-arms the ring's interrupt. -/
  | eqDoorbell (e : Fin 8) (v : Word)
  /-- R447: A LAYOUT descriptor is taken and supplies the next bytes of a stream to the headbox. -/
  | layout (d : Desc)
  /-- R447: A STREAM_RELEASE descriptor frees a stream handle and its working buffer, or is refused. -/
  | streamRelease (d : Desc)
  /-- R448: A STRIP descriptor posts a strip, after the profile, deckle, store and reserve checks. -/
  | strip (d : Desc)
  /-- R449: A STOP descriptor asks for a seam stop or a planned break of the open strip. -/
  | stopStrip (d : Desc)
  /-- R449: A RESUME descriptor meets host-resume for an interrupted or held strip, optionally with a corrected source. -/
  | resume (d : Desc)
  /-- R324: An END descriptor ends an interrupted strip, or withdraws a posted one, breaking first if the strip is exposing. -/
  | endStrip (d : Desc)
  /-- R449: A LEDGER_RELEASE descriptor frees an ended strip's ledger record. -/
  | ledgerRelease (d : Desc)
  /-- R450: A STAGE_MOVE descriptor commands the profile to a target position. -/
  | stageMove (d : Desc)
  /-- R450: A STAGE_TABLE descriptor starts a table move of the scan stage after the checks of R273. -/
  | stageTable (d : Desc)
  /-- R451: An AUX descriptor posts a single-phase auxiliary-axis job. -/
  | aux (d : Desc)
  /-- R357: A RECOAT descriptor posts a phase list of up to 8 auxiliary phases for a layer. -/
  | recoat (d : Desc)
  /-- R452: An HCR_MEASURE descriptor queues an element measurement run as a head-care job. -/
  | hcrMeasure (d : Desc)
  /-- R337: An HCR_ALIGN descriptor turns a printed-pattern error table into new alignment results, or rejects the job. -/
  | hcrAlign (d : Desc)
  /-- R339: An HCR_PROPOSE descriptor hands a DEFECT or ALIGN result to the breakwater as a proposal. -/
  | hcrPropose (d : Desc)
  /-- R164: A SEG_COMPRESS descriptor starts a host job that compresses segments. -/
  | segCompress (d : Desc)
  /-- R164: A SEG_DECOMPRESS descriptor starts a host job that decodes one stored segment. -/
  | segDecompress (d : Desc)
  /-- R164: An INFLATE descriptor starts a host raw-DEFLATE decode job. -/
  | inflate (d : Desc)
  /-- R166: A CONTINUE descriptor resumes a paused host decompress job from its context slot. -/
  | continueJob (d : Desc)
  /-- R426: A CHECK_SCAN descriptor starts a CRC scan over memory on a check-value unit. -/
  | checkScan (d : Desc)
  /-- R443: A NOP descriptor completes at once. -/
  | nop (d : Desc)
  /-- R440: The device writes a queued event record to an enabled event ring that has room. -/
  | eventRecordWrite (e : Fin 8)
  /-- R442: An armed event ring sends its MSI-X vector when its count, time or urgency condition is met. -/
  | eqInterrupt (e : Fin 8)
  /-- R442: Unmasking a vector sends a message withheld by the mask. -/
  | msixUnmask (v : Fin 64)
  /-- R457: A write of KEY 0xA5 to HST_ABORT aborts all host work. -/
  | hstAbort (v : Word)
  /-- R458: A write of KEY 0x5A to HST_RESET starts a warm reset. -/
  | hstReset (v : Word)
  /-- R434: A host read meets its completion timeout and is retried, or after the third timeout takes its requester's failure path. -/
  | hostReadTimeout (r : HostRead)
  /-- R434: A completion with UR or CA status takes the requester's failure path without retry. -/
  | hostReadError (r : HostRead) (status : BitVec 3)
  /-- R435: The PCIe link returns, and the held records are delivered. -/
  | pcieLinkUp (speed : Fin 6) (width : Fin 17)
  /-- R436: A write to a submission ring base sets both indices to 0, or clears EN and raises 0x100C if the ring is enabled. -/
  | hstSqBaseWrite (r : Fin 32) (v : HalfWrite)
  /-- R436: A write to a submission ring configuration enables the ring and clears its ERROR, or clears EN if the ring is enabled. -/
  | hstSqCfgWrite (r : Fin 32) (v : Word)
  /-- R436: A write to an event ring base sets its indices to 0 and PHASE to 1, or clears EN if the ring is enabled. -/
  | hstEqBaseWrite (e : Fin 8) (v : HalfWrite)
  /-- R436: A write to an event ring configuration enables the ring and arms it, or clears EN if the ring is enabled. -/
  | hstEqCfgWrite (e : Fin 8) (v : Word)
  /-- R432: A write to HST_CTRL.EN starts or stops descriptor taking. -/
  | hstCtrlWrite (v : Word)
  /-- R13: A write to a register with no behaviour of its own acts by its access type. -/
  | registerWrite (off : BitVec 25) (wide : Bool) (v : BitVec 64)
  /-- R526: A write of 0 to a counter clears COUNT and SAT. -/
  | counterClear (off : BitVec 25) (wide : Bool) (v : BitVec 64)
  /-- R61: The headbox parses the STREAM record that identifies the format and version. -/
  | streamRecord (h : Fin 16) (rec : List Byte)
  /-- R62: The headbox parses a STRIP record that opens a strip. -/
  | stripRecord (h : Fin 16) (rec : List Byte)
  /-- R63: The headbox parses a strip's DOSE_TABLE record. -/
  | doseTable (h : Fin 16) (rec : List Byte)
  /-- R74: The headbox parses a STRIP_END record that closes a strip. -/
  | stripEnd (h : Fin 16) (rec : List Byte)
  /-- R65: The headbox parses a CELL_BEGIN record that opens a cell definition. -/
  | cellBegin (h : Fin 16) (rec : List Byte)
  /-- R65: The headbox parses a CELL_END record that closes a cell definition. -/
  | cellEnd (h : Fin 16) (rec : List Byte)
  /-- R66: The headbox parses and checks a RECT primitive. -/
  | rect (h : Fin 16) (rec : List Byte)
  /-- R66: The headbox parses and checks a TRAP primitive. -/
  | trap (h : Fin 16) (rec : List Byte)
  /-- R66: The headbox parses and checks a DISC primitive. -/
  | disc (h : Fin 16) (rec : List Byte)
  /-- R67: The headbox parses a PATCH record and inflates its DEFLATE data once. -/
  | patch (h : Fin 16) (rec : List Byte)
  /-- R68: The headbox parses a REF placement of one cell instance. -/
  | ref (h : Fin 16) (rec : List Byte)
  /-- R68: The headbox parses an AREF placement of an array of cell instances. -/
  | aref (h : Fin 16) (rec : List Byte)
  /-- R70: The headbox parses a REAM_MARK that closes a section and carries its tile watermarks. -/
  | reamMark (h : Fin 16) (rec : List Byte)
  /-- R71: The headbox parses a MARGIN record of neighbouring-strip density. -/
  | margin (h : Fin 16) (rec : List Byte)
  /-- R72: The headbox parses a SEAM record that declares a seam point. -/
  | seam (h : Fin 16) (rec : List Byte)
  /-- R54: The headbox passes over a PAD record. -/
  | pad (h : Fin 16) (rec : List Byte)
  /-- R130: The calender finishes a rendered tile, and its final doses go to the watermark check. -/
  | tileCorrected (v : Fin 16) (out : Render)
  /-- R102: A re-read of a poisoned record completes, which repairs the copy or treats the ream as malformed. -/
  | layoutRereadDone (slot : Fin 16) (ream : Word) (ok : Bool)
  /-- R120: A COARSE render completes, and the block sets of the pair or triple are compared and stored. -/
  | coarseJobDone (v : Fin 16) (out : Render)
  /-- R118: A tile job exceeds HBX_JOB_LIMIT.CYCLES and is aborted. -/
  | jobWatchdog (v : Fin 16) (cycles : Word)
  /-- R123: A LEDGER re-render is not accepted 256 lines before its due tick, and the store takes the break path. -/
  | rerenderLate (slot : Fin 16) (ream : Word) (tile : Fin 16)
  /-- R126: A write to HBX_VAT_ROLE_REQ requests vat roles, applied at once in OFF, NEAP or SLACK. -/
  | vatRoleReqWrite (v : Word)
  /-- R135: A write to a calender profile register applies at once, or is refused with 0x0304 while the profile is in use. -/
  | calProfileWrite (off : BitVec 25) (wide : Bool) (v : BitVec 64)
  /-- R145: A ream's FINE jobs have waited 1 ms for halo blocks, and 0x0305 is raised. -/
  | haloWaitTimeout (slot : Fin 16) (ream : Word)
  /-- R156: The store has written an accepted tile's compressed segments to DRAM and updated the ledger. -/
  | tileStoreDone (poisoned : Bool)
  /-- R158: A renderable ream has waited 1 ms for store room, and 0x0403 is raised. -/
  | stoRoomWait (slot : Fin 16) (ream : Word)
  /-- R161: A feed reader finishes decoding a chunk, checks its CRCs and releases it to the couches. -/
  | chunkDecoded (reader : Fin 512) (faults : List (Fin 16 × Fin 7))
  /-- R162: A chunk not released by t0 − FILL_MARGIN is released with its lost part at zero dose, and a SEGMENT mark is recorded. -/
  | fillDeadline (reader : Fin 512) (late : List (Fin 16))
  /-- R172: A write to the store-area or ledger configuration applies, or is refused with 0x0402 while strips or codec jobs exist. -/
  | stoConfigWrite (off : BitVec 25) (wide : Bool) (v : BitVec 64)
  /-- R165: A host codec job finishes, pauses or fails, and its completion is written. -/
  | codecJobEnd (aseq : Word) (poison : Option Word)
  /-- R266: The tick generator emits the next strip-local tick and commits the head time of tick t + 2. -/
  | tickEmit (faults : List FrameFault)
  /-- R194: A chain has sent zero frames on ZERO_LIMIT consecutive lines, which raises 0x0504 and breaks. -/
  | zeroRun (n : Fin 128)
  /-- R189: A couch's power domain fails, and the couch becomes LOST, with a switch-over if it was ACTIVE. -/
  | couchDomainFail (n : Fin 2)
  /-- R196: At the half of the test lines, the comparator switches every chain over and measures the gaps. -/
  | swapTestSwitch (gaps : List (BitVec 16))
  /-- R196: A write of REQUEST to CCH_SWAP_CTRL asks for a swap test at the next SLACK. -/
  | swapRequest (v : Word)
  /-- R201: A write to CCH_ROLE_REQ sets couches OFF or on, applied at once or at the next SLACK. -/
  | cchRoleReqWrite (v : Word)
  /-- R202: A write to CCH_RES_BASE applies, or is refused with 0x0510 while a strip is posted or open. -/
  | cchResBaseWrite (off : BitVec 25) (wide : Bool) (v : BitVec 64)
  /-- R228: A driver's STATUS frame returns, and its outcome records, temperatures and measurements are processed. -/
  | statusFrame (a : Fin 1024) (seen : RxSeen) (frame : List Symbol)
  /-- R229: No STATUS from a driver for 1 ms while the chain is READY counts as LIMIT. -/
  | driverStatusStale (a : Fin 1024)
  /-- R228: A line's primary record has not arrived within ECHO_LINES, and RECORD_READ is sent. -/
  | echoMissing (a : Fin 1024)
  /-- R215: A REPLY, or a returned CTRL_ALL frame, arrives and completes a control operation. -/
  | ctrlReply (a : Fin 1024) (seen : RxSeen) (frame : List Symbol)
  /-- R231: A CTRL frame's REPLY has not returned in 20 µs, and it is retried, or fails after three retries. -/
  | ctrlReplyTimeout (a : Fin 1024)
  /-- R215: The CTRL_ALL opcode 0x01 sets ring positions. -/
  | discover (n : Fin 128) (heard : Bool)
  /-- R215: The opcode 0x02 reads a driver's model, serial and forwarding latency. -/
  | ident (a : Fin 1024) (result : Option (Fin 5))
  /-- R215: The opcode 0x03 loads the dwell factors of a driver's beams. -/
  | setFactors (a : Fin 1024) (result : Option (Fin 5))
  /-- R215: The opcode 0x04 loads a driver's slot and dose curve. -/
  | setCurve (a : Fin 1024) (result : Option (Fin 5))
  /-- R221: The opcode 0x05 loads a driver's head time. -/
  | timeLoad (a : Fin 1024) (result : Option (Fin 5))
  /-- R215: The opcode 0x06 returns a driver's head time. -/
  | timeRead (a : Fin 1024) (result : Option (Fin 5))
  /-- R330: The opcode 0x07 starts element measurements in a driver. -/
  | measure (a : Fin 1024) (result : Option (Fin 5))
  /-- R215: The opcode 0x08 returns a driver's last outcome records. -/
  | recordRead (a : Fin 1024) (result : Option (Fin 5))
  /-- R215: The opcode 0x09 arms or disarms a driver. -/
  | arm (a : Fin 1024) (result : Option (Fin 5))
  /-- R243: The opcode 0x0A sets a driver's transmit pre-emphasis. -/
  | txEq (a : Fin 1024) (result : Option (Fin 5))
  /-- R225: Every POLL_US while no line is sent, POLL frames go to every driver of a READY chain. -/
  | pollSend (n : Fin 128)
  /-- R226: Training of a chain starts from DOWN with a re-adapt burst. -/
  | chainTrainStart (n : Fin 128)
  /-- R225: 1,024 IDLE are received without error, and the chain moves to EQ. -/
  | chainAlignDone (n : Fin 128) (found : Alignment)
  /-- R225: A training state's time limit passes, and the chain goes to FAILED. -/
  | chainTrainTimeout (n : Fin 128)
  /-- R249: The 2 ms driver adaptation wait ends, and the device receiver adapts. -/
  | eqAdaptWaitEnd (n : Fin 128)
  /-- R249: A 2^24-symbol check ends, and EQ passes or moves to the next preset. -/
  | eqTryEnd (n : Fin 128) (found : EqCheck) (eyeH : BitVec 6) (eyeV : Byte)
  /-- R250: A chain with pending positions retrains from EQ once READY. -/
  | eqDeferredRetrain (n : Fin 128)
  /-- R221: A SYNC marker returns at HL_RX, and the round trip is latched. -/
  | syncMarkerReturn (n : Fin 128) (rt : BitVec 16) (latches : List (BitVec 54))
  /-- R232: LOSS_LINES lines return no valid STATUS, and the chain is lost. -/
  | chainStatusLoss (c : SilentChain)
  /-- R226: A write of RETRAIN_REQ asks for retraining of every chain at the next SLACK. -/
  | hlkRetrainReq (v : Word)
  /-- R248: A receiver loses symbol alignment, and the chain or link is lost. -/
  | laneAlignLost (l : Fin 268) (loss : LaneLoss)
  /-- R241: A lane PLL loses lock, and every lane it feeds goes down. -/
  | lanePllUnlock (pll : Fin 2)
  /-- R241: A receiver phase buffer overflows or underflows, and the lane goes down. -/
  | lanePhaseSlip (l : Fin 268) (under : Bool)
  /-- R245: A transmit lane idle for TUNE_US sends a tune burst. -/
  | tuneBurst (b : TuneBurst)
  /-- R254: A write of START to LNS_LOOP_CTRL starts a test loop, or is refused with 0x0706. -/
  | lnsLoopStart (v : Word)
  /-- R254: A test loop's length is reached, and its result is written. -/
  | lnsLoopEnd (locked : Bool) (errors : BitVec 48)
  /-- R239: A write to LNS_REF_CTRL.SSC requests a spread, applied at the next common DOWN. -/
  | lnsSscWrite (v : Word)
  /-- R238: A write to OUT_EN enables or disables reference pairs, and is ignored for clearing while chains are trained. -/
  | lnsOutEnWrite (v : Word)
  /-- R246: A write to EIDLE holds a lane in electrical idle only when its chain is DOWN or FAILED. -/
  | lnsEidleWrite (l : Fin 268) (v : Word)
  /-- R252: A deferred strobe setting applies at the end of a measurement on the lane. -/
  | strobeApply (l : Fin 268)
  /-- R259: Every PERIOD tide clocks, a POS_TRIG edge is driven on a serial port. -/
  | posTrigger (port : Fin 2)
  /-- R260: A position frame arrives, is checked and enters the estimator. -/
  | positionFrame (port : Fin 2) (frame : List Byte)
  /-- R260: No frame is complete by DEADLINE after a trigger, and the sample is missed. -/
  | posFrameLate (port : Fin 2)
  /-- R261: A filtered quadrature edge is counted, or an illegal transition loses the position. -/
  | quadEdge (q : Fin 2) (a b : Bool)
  /-- R261: While ARM is set, QUAD_Z high loads the count and sets REF. -/
  | quadIndex (q : Fin 2)
  /-- R261: A write of ARM to TID_QREF arms the index load. -/
  | tidQrefArm (v : HalfWrite)
  /-- R274: Every 1 µs, the profile planner advances and updates the stop lead. -/
  | plannerStep (pos vel acc slow : BitVec 64)
  /-- R275: A write to VMAX, AMAX or JMAX applies at the next step, or is deferred during a ramp. -/
  | tidLimitWrite (off : BitVec 25) (wide : Bool) (v : BitVec 64)
  /-- R284: A write to TID_GOV_CAP replans every interval not yet begun. -/
  | tidGovCapWrite (v : Word)
  /-- R287: A write to a protected tide register applies, or is refused with 0x0810. -/
  | tidConfigWrite (off : BitVec 25) (wide : Bool) (v : BitVec 64)
  /-- R291: SNS_TRIG rises TRIG_LEAD tide clocks before a capture. -/
  | snsTrigger (c : Fin 4)
  /-- R291: A sensor frame arrives at a sensor port. -/
  | sensorFrame (k : Fin 4) (frame : List Byte)
  /-- R290: A loop channel captures, computes its output and sends the deflection frame. -/
  | loopCapture (c : Fin 4)
  /-- R298: A write of SWAP requests a bank swap at the next capture. -/
  | loopSwapRequest (c : Fin 4) (v : Word)
  /-- R299: A write of LOOP_MODE.REQ requests a mode. -/
  | loopModeWrite (c : Fin 4) (v : Word)
  /-- R298: A write to a coefficient bank applies to the shadow bank, or is refused with 0x0906 for the active bank. -/
  | loopBankWrite (off : BitVec 25) (wide : Bool) (v : BitVec 64)
  /-- R299: A write to LOOP_OPEN in OPEN sets slewing toward the new target. -/
  | loopOpenWrite (c : Fin 4) (v : Word)
  /-- R302: A write to a period, phase, source or origin applies in SAFE, or is refused with 0x0909. -/
  | loopConfigWrite (off : BitVec 25) (wide : Bool) (v : BitVec 64)
  /-- R340: A strobe-calibration counting window of 2.62 ms ends. -/
  | strobeCalWindow (counts : List Word)
  /-- R335: A write of MEAS_REQ asks for a measurement run of all drivers at the next SLACK. -/
  | measReq (v : Word)
  /-- R335: A write of CAL_REQ asks for a strobe calibration at the next SLACK. -/
  | calReq (v : Word)
  /-- R347: Every 40 tide clocks, the step generator emits a step toward the commanded position. -/
  | stepGenerate (n : Fin 3)
  /-- R350: Every 10 µs, the axis planner replans and checks the encoder deviation. -/
  | auxPlannerStep (n : Fin 3) (pos vel acc : BitVec 64)
  /-- R352: A filtered encoder edge is counted. -/
  | encEdge (n : Fin 3) (a b : Bool)
  /-- R355: ENC_Z high after release takes the home reference. -/
  | encIndex (n : Fin 3)
  /-- R353: SETTLE_MS after a move ends, the deviation is checked against END_WIN. -/
  | auxSettleCheck (n : Fin 3)
  /-- R354: A filtered limit switch changes state, which faults motion toward it or drives homing. -/
  | limitSwitch (n : Fin 3) (hi level : Bool)
  /-- R357: An auxiliary phase starts once its axes are IDLE and the locks permit. -/
  | auxPhaseStart (aseq : Word)
  /-- R357: An auxiliary phase's motion ends, and the job goes on or completes. -/
  | auxPhaseEnd (n : Fin 3)
  /-- R357: A DWELL phase's COUNT ms pass. -/
  | auxDwellEnd (aseq : Word)
  /-- R360: A write of AUX_CTRL.STOP stops the axis, and the job ends STOPPED. -/
  | auxStopCmd (n : Fin 3)
  /-- R360: A write of AUX_CTRL.CLEAR takes a faulted axis to IDLE. -/
  | auxClear (n : Fin 3)
  /-- R358: A write of RETRY to AUX_HOLD reruns a held job. -/
  | auxHoldRetry (r : Fin 32)
  /-- R358: A write of SKIP to AUX_HOLD completes a held job and releases its ring. -/
  | auxHoldSkip (r : Fin 32)
  /-- R360: A write to an axis set-up register applies, or is refused with 0x0C0E. -/
  | auxCfgWrite (off : BitVec 25) (wide : Bool) (v : BitVec 64)
  /-- R356: A write to an axis motion limit applies, is deferred, or is refused. -/
  | auxLimitWrite (off : BitVec 25) (wide : Bool) (v : BitVec 64)
  /-- R367: Training of a tide-link port starts. -/
  | cscPortTrainStart (p : Fin 3)
  /-- R367: A tide-link training state is done, and the port moves on. -/
  | cscTrainStepDone (p : Fin 3) (found : PortTrain) (device : BitVec 2) (devices : BitVec 3) (spread : Bool)
  /-- R367: A tide-link training state's limit passes, and the port fails. -/
  | cscTrainTimeout (p : Fin 3)
  /-- R368: A slave's answer to a latency marker returns. -/
  | latencyMarker (p : Fin 3) (dm am as ds : BitVec 64)
  /-- R375: A slave receives a TICK message and emits the same tick at L_F. -/
  | tickMessage (m : LinkMsg) (index : BitVec 48) (t h : BitVec 64) (p : Word) (state : Fin 8) (faults : List FrameFault)
  /-- R375: A slave receives a SAMPLE message for its loops. -/
  | sampleMessage (m : LinkMsg) (head : BitVec 64) (count : BitVec 40) (setpoint : BitVec 64)
  /-- R476: A slave takes a TIME message as a clock sample. -/
  | timeMessage (m : LinkMsg) (head : BitVec 64) (stamp : PtpStamp) (epoch : BitVec 16)
  /-- R376: A slave receives a planned rate. -/
  | planMessage (m : LinkMsg) (r : Word) (rate : BitVec 24) (cause : Byte)
  /-- R377: A device receives a STOP and takes the stop at the common break tick. -/
  | stopMessage (m : LinkMsg) (cause : Byte) (kind : Fin 4) (tB : BitVec 64) (origin : BitVec 2)
  /-- R378: A slave receives a strip control message. -/
  | ctrlMessage (m : LinkMsg) (c : CascadeCtrl)
  /-- R374: The master receives a slave's lead and conditions. -/
  | statusMessage (m : LinkMsg) (lead : Word) (wait : BitVec 15) (temp : BitVec 16) (span : List (BitVec 64)) (pairing : List Word)
  /-- R376: The master receives a slave's permitted rate and replans. -/
  | rateMessage (m : LinkMsg) (r : Word) (rate : BitVec 24) (cause : Byte)
  /-- R373: A device receives a row of halo coarse values. -/
  | haloMessage (m : LinkMsg) (device : BitVec 2) (stripId row : Word) (side : Fin 2) (values : List Byte)
  /-- R371: An ACK message acknowledges a message. -/
  | ackMessage (m : LinkMsg) (typ seq : Byte)
  /-- R369: A slave sets its head time from TIME_SET. -/
  | timeSetMessage (h : BitVec 64) (w : BitVec 16)
  /-- R371: An unacknowledged message is resent after 10 µs, or the port fails after 3 resends. -/
  | messageResend (p : Fin 3)
  /-- R379: A tide-link lane loses alignment, and the port continues on one lane or goes down. -/
  | tlLaneLost (p : Fin 3) (loss : TideLaneLoss)
  /-- R380: A write to CSC_CFG or CSC_SKEW applies in SLACK, or is refused with 0x0D0C. -/
  | cscConfigWrite (off : BitVec 25) (v : Word)
  /-- R389: A request reaches a DRAM channel from a port. -/
  | dramRequest (port : Fin 8) (addr : BitVec 64) (write : Bool) (data : List Byte) (poison : Bool) (deadline : BitVec 64)
  /-- R393: A free command slot picks the next request or refresh. -/
  | dramPick (ch : Fin 6) (sub : Fin 2) (ready : List Nat)
  /-- R391: A request older than 8T is counted, and 0x0E0B is raised. -/
  | requestAged (n : Nat)
  /-- R395: tREFI passes, and a refresh is issued or owed. -/
  | refreshDue (ch : Fin 6)
  /-- R396: Owed refreshes are issued in one burst. -/
  | refreshBurst (ch : Fin 6)
  /-- R397: Each POLL_US, the devices' temperatures are read and hot channels updated. -/
  | memThermPoll (ch : Fin 6) (hot : Bool) (device : Byte)
  /-- R399: A training step instance ends, passed or failed. -/
  | dramTrainInstanceEnd (ch : Fin 6) (rank : Fin 2) (config : Option (Byte × Word)) (passed : Bool) (lane : Byte) (mask0 mask1 : BitVec 40) (lanes : List Word)
  /-- R403: A write of RETRAIN requests retraining. -/
  | memRetrainWrite (v : Word)
  /-- R401: A write to MEM_CFG.RATE during training restarts training at the new rate. -/
  | memRateWrite (v : Word)
  /-- R406: A write of MODE 0 issues owed refreshes and turns native. -/
  | memRefModeWrite (v : Word)
  /-- R409: A burst read returns and is decoded. -/
  | dramReadReturn (addr : BitVec 64) (errors : List (Fin 80 × Byte)) (consumer : Option Byte)
  /-- R420: A queued burst is rewritten clean or poisoned. -/
  | repairWrite (ch : Fin 6)
  /-- R421: The scrubber reads its next burst and acts by owner. -/
  | scrubStep (errors : List (Fin 80 × Byte))
  /-- R412: An erasure sweep ends, and the device is marked erased. -/
  | erasureSweepEnd (ch : Fin 6) (rank sub : Fin 2)
  /-- R411: A write of GO requests an erasure sweep. -/
  | intEraseReqGo (v : Word)
  /-- R416: The patrol reads SRAM and rewrites corrected bytes. -/
  | sramPatrol (test : Bool) (unit : Byte) (off : Word) (raw : BitVec 13)
  /-- R427: A write to INT_CHK_VAL applies, or is refused with 0x0F0D. -/
  | intChkValWrite (off : BitVec 25) (wide : Bool) (v : BitVec 64)
  /-- R426: A scan job ends with its result. -/
  | checkScanEnd (e : ScanEnd)
  /-- R464: A Sync message is received and timestamped. -/
  | ptpSync (m : PtpMsg) (twoStep : Bool) (origin : PtpStamp)
  /-- R462: A Follow_Up message is received. -/
  | ptpFollowUp (m : PtpMsg) (origin : PtpStamp)
  /-- R468: A Delay_Resp completes an exchange and gives an offset sample. -/
  | ptpDelayResp (m : PtpMsg) (requester : BitVec 80) (receipt : PtpStamp)
  /-- R464: A Pdelay_Req is received and answered. -/
  | ptpPdelayReq (m : PtpMsg) (turn : Word)
  /-- R464: A Pdelay_Resp is received. -/
  | ptpPdelayResp (m : PtpMsg) (requester : BitVec 80) (twoStep : Bool) (receipt : PtpStamp)
  /-- R464: A Pdelay_Resp_Follow_Up is received. -/
  | ptpPdelayRespFollowUp (m : PtpMsg) (requester : BitVec 80) (origin : PtpStamp)
  /-- R462: An Announce message is received for the master selection. -/
  | ptpAnnounce (m : PtpMsg) (a : PtpAnnounce)
  /-- R464: A Delay_Req or Pdelay_Req is sent at its interval. -/
  | ptpDelayReqSend (p : Fin 2) (phase : Fin 10)
  /-- R472: The Announce receipt timeout passes, and the port leaves SLAVE. -/
  | announceTimeout (p : Fin 2)
  /-- R477: A telemetry datagram is sent. -/
  | telemetrySend (p : Fin 2)
  /-- R480: An Ethernet port's link goes up or down. -/
  | ethLinkChange (p : Fin 2) (up : Bool)
  /-- R470: A write to TIM_CTRL sets EN, PATH or PRIMARY. -/
  | timCtrlWrite (v : Word)
  /-- R478: A write to a port's registers applies, or is refused with 0x110E. -/
  | timPortCfgWrite (off : BitVec 25) (wide : Bool) (v : BitVec 64)
  /-- R483: The image is copied and then checked. -/
  | proposalLoaded (readOk : Bool)
  /-- R485: The guard-port STATUS command returns the proposal state. -/
  | grdStatus (frame : List Byte)
  /-- R485: The guard-port READ command returns image bytes. -/
  | grdRead (frame : List Byte)
  /-- R487: The guard-port CONFIRM command commits the proposal, or refuses it. -/
  | grdConfirm (frame : List Byte)
  /-- R487: The guard-port REJECT command refuses the proposal. -/
  | grdReject (frame : List Byte)
  /-- R493: A fuse burn ends and is read back. -/
  | svnBurnDone (value : Fin 65)
  /-- R492: A flash image is read and verified, and firmware starts or the device stays off. -/
  | bootImageVerify (read0 read1 : Bool) (image0 image1 : List Byte)
  /-- R504: A core, CTL, tide or DRAM PLL loses lock. -/
  | pllUnlock (pll : Fin 9)
  /-- R512: Every 1 ms, the die temperature is read. -/
  | dieTempRead (temp : BitVec 16)
  /-- R510: The control cores' outputs differ, and a warm reset follows. -/
  | lockstepFault (f : Lockstep)
  /-- R497: A domain comes up and its units accept work. -/
  | domainPowerUp (d : Fin 16)
  /-- R500: A domain's supply is not in tolerance within 100 µs. -/
  | domainPowerFault (d : Fin 16)
  /-- R499: A quad idle for IDLE_US enters neap. -/
  | quadNeapEnter (q : Fin 4)
  /-- R521: A write to OBS_CTRL enables a destination, starting with SYNC. -/
  | obsCtrlWrite (v : Word)
  /-- R525: A write of EN to OBS_TRIG arms the trigger and clears the freeze. -/
  | obsTrigWrite (off : BitVec 25) (wide : Bool) (v : BitVec 64)
  /-- R530: A write to the ring set-up applies, or is refused with 0x1405. -/
  | obsConfigWrite (off : BitVec 25) (wide : Bool) (v : BitVec 64)
  /-- R241: A head or tide lane PLL locks or relocks, fixing H0 for the head PLL and allowing its chains or links to retrain. -/
  | lanePllLock (pll : Fin 2)
  /-- R513: The 25 MHz reference appears during bring-up step 1, OTP is read and checked, and step 1 completes or fails with 0x0002. -/
  | referencePresent (otpOk : Bool)
  /-- R249: In EQ, the 1 ms adaptation of the device's own HL_RX receiver ends and the 2^24-symbol check begins. -/
  | receiverAdaptEnd (n : Fin 128) (seen : RxSeen)
  /-- R457: When every affected job has completed, ABORTING clears and 0x1008 is raised. -/
  | abortComplete
  /-- R508: Once the profile is at rest, the warm reset resets the units, retrains links and enters SLACK. -/
  | warmResetUnits
  /-- R435: The PCIe link goes down; the device stops taking descriptors and holds its records. -/
  | pcieLinkDown
  /-- R14: An assertion of PERST_N is a cold reset. -/
  | perstNAssert
  /-- R432: PERST_N is deasserted, and configuration requests are answered with retry status until configuration space is ready. -/
  | perstNDeassert
  /-- R432: Configuration space becomes ready, and BAR 0 accesses are accepted. -/
  | configSpaceReady
  /-- R461: The function enters D3hot and acts as for HST_ABORT. -/
  | d3hotEntry
  /-- R108: The headbox issues a ready tile job to a vat, in its order of precedence. -/
  | tileJobIssue
  /-- R196: A swap test starts in SLACK, on fixed-clock ticks, with the head blanked. -/
  | swapTestStart
  /-- R197: The swap test ends and passes, exchanging roles, or fails, making a couch LOST. -/
  | swapTestEnd
  /-- R222: Every RECHECK seconds in SLACK, the drivers' head time is rechecked. -/
  | headTimeRecheck
  /-- R279: The stage is at rest at the approach point, and the sequencer arms and starts the run. -/
  | approachReached
  /-- R280: Every PERIOD tide clocks, a set-point frame is sent to the stage controller. -/
  | setpointFrame
  /-- R307: The oldest posted strip meets every FLOOD condition and enters FLOOD, latching its set-up. -/
  | floodEnter
  /-- R313: At the end of line t's pulses, the sequencer enters BREAK for a prompt stop. -/
  | promptBreakEnter
  /-- R309: The profile reaches REST in EBB, the sequencer enters SLACK, and a complete strip completes. -/
  | ebbToSlack
  /-- R314: The profile reaches REST in BREAK, and the sequencer enters SLACK with the strip open. -/
  | breakToSlack
  /-- R320: An interrupted strip meets every resume condition and starts its resume through FLOOD. -/
  | resumeStart
  /-- R325: After DELAY ms idle in SLACK, the sequencer enters NEAP and powers domains down. -/
  | neapEnter
  /-- R325: A post, test, job or resumable strip wakes the device from NEAP. -/
  | neapWake
  /-- R502: Every domain is up after a wake, and the sequencer enters SLACK. -/
  | neapWakeDone
  /-- R335: At entry to SLACK and each second in SLACK, head care starts the first item that is due. -/
  | hcrSchedule
  /-- R333: A measurement run ends, the defect result is written, and the hold is judged. -/
  | hcrMeasRunEnd
  /-- R331: TIMEOUT_MS passes from the first MEASURE, and incomplete drivers are marked. -/
  | hcrMeasTimeout
  /-- R375: No TICK arrives within P + 1 µs, and the slave stops. -/
  | tickGapTimeout
  /-- R402: DRAM initialisation ends, and READY is set. -/
  | dramInitDone
  /-- R403: A requested retraining starts once its conditions hold. -/
  | dramRetrainStart
  /-- R424: The test operation 1 writes raw symbols to a burst. -/
  | testRawDramWrite
  /-- R424: The test operation 2 reads raw symbols and the decode outcome. -/
  | testRawDramRead
  /-- R424: The test operation 3 computes check symbols. -/
  | testEncode
  /-- R424: The test operation 4 writes raw bits to an SRAM byte. -/
  | testRawSramWrite
  /-- R424: The test operation 5 reads raw bits and the decode outcome. -/
  | testRawSramRead
  /-- R471: CONFIRM_S seconds of a suspect delay end, and the new delay is accepted or discarded. -/
  | delayConfirmEnd
  /-- R474: A holdover exceeds HOLD_MAX_S. -/
  | holdLong
  /-- R473: An armed step is made in SLACK or NEAP. -/
  | armedStep
  /-- R468: A held acquisition step is made at entry to SLACK. -/
  | acquisitionStepHeld
  /-- R475: Every 1 ms, head time and the local clock are latched together. -/
  | timeMapLatch
  /-- R473: A write of STEP_ARM permits a pending step. -/
  | timStepArm
  /-- R465: A read of TIM_NOW latches TIM_NOW_HI. -/
  | timNowRead
  /-- R475: A 64-bit read of TIM_MAP_HEAD freezes the other map registers. -/
  | timMapHeadRead
  /-- R483: A write of SUBMIT starts a proposal, or is refused as busy. -/
  | bwtSubmit
  /-- R483: A write of WITHDRAW refuses the current proposal. -/
  | bwtWithdraw
  /-- R483: A head-care proposal waits until IDLE and is then handed over. -/
  | bwtHandover
  /-- R487: 100 ms in PENDING pass without a CONFIRM, and the proposal is refused. -/
  | proposalExpired
  /-- R489: EXPOSE_PERMIT falls, which blanks the head and stops or abandons exposure. -/
  | permitDeassert
  /-- R489: EXPOSE_PERMIT has been high for 1 ms. -/
  | permitRestored
  /-- R513: PWR_OK rises and bring-up starts. -/
  | pwrOkRise
  /-- R506: PWR_OK falls, which is a cold reset with cause SUPPLY. -/
  | pwrOkFall
  /-- R535: VDD_CORE or VDD_AON falls below 0.700 V. -/
  | brownOut
  /-- R513: Steps 4 to 6 have ended, and the sequencer enters SLACK. -/
  | bringupDone
  /-- R504: The reference is absent for 4 µs. -/
  | refLost
  /-- R511: The cause clears, and a cold reset starts. -/
  | protectiveResetEnd
  /-- R510: 100 ms pass without a watchdog restart, and a warm reset follows. -/
  | watchdogExpire
  /-- R521: A SYNC packet is emitted each 2^20 tide clocks. -/
  | traceSync
  /-- R520: Every 1 µs, DRAM trace packets are emitted. -/
  | traceDramSample
  /-- R525: POST_KIB are accepted after the trigger, and the ring freezes. -/
  | ringFreeze
  /-- R528: A write of GO latches every counter. -/
  | snapshotGo
  /-- R528: The snapshot entries are written, and DONE is set. -/
  | snapshotDone
  /-- R529: The boundary-scan BYPASS instruction. -/
  | bypass
  /-- R529: The boundary-scan IDCODE instruction. -/
  | idcode
  /-- R529: The boundary-scan SAMPLE/PRELOAD instruction. -/
  | samplePreload
  /-- R529: EXTEST holds the units in cold reset when strapped. -/
  | extest
  /-- R529: CLAMP holds the units in cold reset when strapped. -/
  | clamp
  /-- R529: HIGHZ holds the units in cold reset when strapped. -/
  | highz
  /-- R529: Leaving a reset-holding instruction starts a cold reset. -/
  | testLogicReset
  /-- R461: The function returns from D3hot to D0, and the event records held since D3hot entry are delivered. -/
  | d0Entry
  /-- R513: A bring-up step reaches its time limit, for example 500 ms for head-link or cascade training, and the chains or ports still training become FAILED. -/
  | bringupStepLimit
  /-- R511: During a protective reset, 2 s pass without the profile reaching REST, and the device powers down every domain except AON. -/
  | protectiveStopLimit
  deriving DecidableEq, Repr

end Sys2Proof
end

