-- ==== Sys2Proof/Config.lean ====
section
/-! DEFINITION. What an implementation fixes, and the free values: constants without a body, so that nothing can
be proved about the value they take (assumption log entry 2). -/
namespace Sys2Proof

/-- A free value: the result of the n-th draw, for a value that the spec leaves open. State.free counts the draws. -/
opaque Config.freeValue : Nat → BitVec 64

/-- R239, R240: the phase of the head PLL's modulation at tide time 0, in 1/51,200,000 of its period, which the spec leaves
open. -/
opaque Config.spreadPhase : Nat

/-- The number by which the payload of an event (its code first) names one of several conditions or directions that its
table does not number; the second argument says which of them is meant (log entry 21). -/
opaque Config.eventCode : Nat → Nat → Nat

/-- R529: the manufacturer field of IDCODE, which the spec leaves to a BSDL file. -/
opaque Config.jtagManufacturer : BitVec 11

end Sys2Proof
end

