-- ==== Sys2Proof/Machine/Cells.lean ====
section
/-! DEFINITION. Sparse storage in one canonical form: a list of (address, value) pairs with strictly rising
addresses and no entry equal to what an unlisted address reads as; and the arithmetic helpers of the spec's
conventions (R9, R17). -/
namespace Sys2Proof.Machine

/-- What an address of a sparse store reads as; `d` gives what an unlisted address reads as. -/
def cellGet {n : Nat} (d : Nat → BitVec n) : List (Nat × BitVec n) → Nat → BitVec n
  | [], a => d a
  | (k, v) :: r, a => if k = a then v else cellGet d r a

/-- A key entered into a sparse store at its place. -/
def cellInsert {n : Nat} : List (Nat × BitVec n) → Nat → BitVec n → List (Nat × BitVec n)
  | [], a, v => [(a, v)]
  | (k, w) :: r, a, v =>
    if k = a then (a, v) :: r
    else if a < k then (a, v) :: (k, w) :: r
    else (k, w) :: cellInsert r a v

/-- A write to a sparse store, which keeps the canonical form. -/
def cellSet {n : Nat} (d : Nat → BitVec n) (l : List (Nat × BitVec n)) (a : Nat) (v : BitVec n) : List (Nat × BitVec n) :=
  if v = d a then l.filter (fun p => decide (p.1 ≠ a)) else cellInsert l a v

/-- The canonical form of a sparse store. -/
def cellWf {n : Nat} (d : Nat → BitVec n) : List (Nat × BitVec n) → Bool
  | [] => true
  | (k, v) :: r => decide (v ≠ d k) && r.all (fun p => decide (k < p.1)) && cellWf d r

/-- What a byte of host memory or DRAM that nothing has written reads as: 0 (DESIGN CHOICE, log entry 3). -/
def memDefault (_ : Nat) : BitVec 8 := 0

/-- Memory: (address, byte) pairs in the canonical form. -/
abbrev Memory := List (Nat × BitVec 8)

/-- One byte of memory. -/
def Memory.read (m : Memory) (a : Nat) : BitVec 8 := cellGet memDefault m a

/-- A write of one byte of memory. -/
def Memory.write (m : Memory) (a : Nat) (v : BitVec 8) : Memory := cellSet memDefault m a v

/-- The canonical form of memory. -/
def Memory.wf (m : Memory) : Bool := cellWf memDefault m

/-- A write of consecutive bytes of memory, the first at the lowest address. -/
def Memory.writeBytes (m : Memory) (a : Nat) : List (BitVec 8) → Memory
  | [] => m
  | b :: bs => Memory.writeBytes (m.write a b) (a + 1) bs

/-- A read of consecutive bytes of memory. -/
def Memory.readBytes (m : Memory) (a : Nat) : Nat → List (BitVec 8)
  | 0 => []
  | n + 1 => m.read a :: Memory.readBytes m (a + 1) n

/-- The little-endian bytes of a number, in a given width. -/
def leBytes : Nat → Nat → List (BitVec 8)
  | 0, _ => []
  | n + 1, v => byteOf v :: leBytes n (v / 256)

/-- The number that little-endian bytes spell. -/
def leNat : List (BitVec 8) → Nat
  | [] => 0
  | b :: bs => b.toNat + 256 * leNat bs

/-- The little-endian field of w bytes at an offset of a descriptor or a record; missing bytes read 0. -/
def fieldAt (l : List Byte) (off w : Nat) : Nat := leNat ((l.drop off).take w)

/-- The number that most-significant-first bytes spell. -/
def beNat (l : List (BitVec 8)) : Nat := leNat l.reverse

/-- Payload fields, packed little-endian without padding (R456): pairs of width in bytes and value. -/
def packFields : List (Nat × Nat) → List (BitVec 8)
  | [] => []
  | (w, v) :: r => leBytes w v ++ packFields r

/-- R17: floor division and remainder of integers, the remainder from 0 to d - 1. -/
def idiv (a d : Int) : Int := Int.fdiv a d

/-- R17: round-half-up(a, d). -/
def roundHalfUp (a d : Int) : Int := Int.fdiv (2 * a + d) (2 * d)

/-- R17: clamp(v, lo, hi). -/
def clampInt (v lo hi : Int) : Int := if v < lo then lo else if hi < v then hi else v

/-- R9: the signed difference of two wrapping indices of width n. -/
def signedDiff (n : Nat) (a b : Nat) : Int :=
  Int.emod ((a : Int) - b + 2 ^ (n - 1)) (2 ^ n) - 2 ^ (n - 1)

/-- R9: a is later than b. -/
def laterThan (n a b : Nat) : Bool := decide (0 < signedDiff n a b)

/-- The signed value of an n-bit two's complement field. -/
def sext (n v : Nat) : Int := if v % 2 ^ n < 2 ^ (n - 1) then ((v % 2 ^ n : Nat) : Int) else (v % 2 ^ n : Nat) - 2 ^ n

/-- The n-bit field that holds an integer modulo 2^n. -/
def wrapInt (n : Nat) (v : Int) : Nat := (Int.emod v (2 ^ n)).toNat

/-- The element of a list at an index, replaced. -/
def listSet {α : Type} : List α → Nat → α → List α
  | [], _, _ => []
  | _ :: r, 0, v => v :: r
  | x :: r, n + 1, v => x :: listSet r n v

/-- The element of a list at an index, changed by a function. -/
def listModify {α : Type} : List α → Nat → (α → α) → List α
  | [], _, _ => []
  | x :: r, 0, f => f x :: r
  | x :: r, n + 1, f => x :: listModify r n f

/-- Is a number in a list. -/
def natMem (n : Nat) (l : List Nat) : Bool := l.any (fun x => decide (x = n))

/-- Bit i of a number. -/
def bitAt (v i : Nat) : Bool := decide (v / 2 ^ i % 2 = 1)

/-- Bits hi down to lo of a number. -/
def bitsOf (v hi lo : Nat) : Nat := v / 2 ^ lo % 2 ^ (hi - lo + 1)

/-- A number with bit i set or cleared. -/
def setBit (v i : Nat) (b : Bool) : Nat :=
  if bitAt v i then (if b then v else v - 2 ^ i) else (if b then v + 2 ^ i else v)

/-- The number of set bits among the low n bits. -/
def popCount : Nat → Nat → Nat
  | 0, _ => 0
  | n + 1, v => v % 2 + popCount n (v / 2)

/-- 1 for true and 0 for false, as a register field holds a flag. -/
def flag (b : Bool) : Nat := if b then 1 else 0

end Sys2Proof.Machine
end

