-- ==== Sys2Proof/Machine/Descriptor.lean ====
section
/-! DEFINITION. Reading a descriptor's bytes (R443). -/
namespace Sys2Proof

open Sys2Proof.Machine

/-- A descriptor field. -/
def Desc.field (d : Desc) (off w : Nat) : Nat := fieldAt d.bytes off w

/-- A descriptor's bytes from an offset are all 0, as reserved fields must be. -/
def Desc.zero (d : Desc) (off n : Nat) : Bool := decide (d.field off n = 0)

/-- The header checks of R443: (offset, holds). -/
def Desc.headerChecks (d : Desc) : List (Nat × Bool) :=
  [(1, decide (d.field 1 1 < 4)), (2, d.zero 2 1), (3, d.zero 3 1), (8, decide (d.field 8 8 % 64 = 0))]

/-- FENCE (R443). -/
def Desc.fence (d : Desc) : Bool := bitAt (d.field 1 1) 0

end Sys2Proof
end

