-- ==== Sys2Proof/Machine/Reg.lean ====
section
/-! DEFINITION. Names of the register fields of BAR 0: for each field of the spec's register tables, the offset of the
word that holds its least bit (a function of the register's indices), the least bit in that word, and the width. -/
namespace Sys2Proof.Machine

/-- A register field: BAR 0 offset of its word, least bit in that word, width. A field of more than 32 - lo bits
goes on in the next word. -/
structure Field where
  off : Nat
  lo : Nat
  width : Nat
  deriving DecidableEq, Repr

/-- `HLK_ROW_PITCH.PITCH` (R47): ROW_PITCH in lines, within the limits of R35. 0 means the geometry is unset. -/
abbrev Reg.HLK_ROW_PITCH_PITCH : Field := ⟨0x00808000, 0, 16⟩
/-- `HLK_BAND_PITCH.PITCH` (R47): BAND_PITCH in lines, within the limits of R35. 0 means the geometry is unset. -/
abbrev Reg.HLK_BAND_PITCH_PITCH : Field := ⟨0x00808004, 0, 18⟩
/-- `HLK_GEOM_GEN.LATCHED` (R47): Value of COMMITTED that was latched by the current strip, or by the last strip if none is open -/
abbrev Reg.HLK_GEOM_GEN_LATCHED : Field := ⟨0x00808008, 16, 16⟩
/-- `HLK_GEOM_GEN.COMMITTED` (R47): Increments by 1, wrapping, on each accepted commit that changes ROW_PITCH, BAND_PITCH, any align(b, c) or any head-map entry. Compare by signed differ -/
abbrev Reg.HLK_GEOM_GEN_COMMITTED : Field := ⟨0x00808008, 0, 16⟩
/-- `HLK_MAP.MODEL` (R47): Driver model code expected at ring discovery. 0x0000 accepts any model. "Head link protocol" defines how a driver reports its model code. -/
abbrev Reg.HLK_MAP_MODEL (n : Nat) : Field := ⟨0x00809000 + n * 0x4, 16, 16⟩
/-- `HLK_MAP.BEAM_REV` (R47): 0: k = 256·h + e. 1: k = 256·h + 255 − e. -/
abbrev Reg.HLK_MAP_BEAM_REV (n : Nat) : Field := ⟨0x00809000 + n * 0x4, 11, 1⟩
/-- `HLK_MAP.HALF` (R47): Half h -/
abbrev Reg.HLK_MAP_HALF (n : Nat) : Field := ⟨0x00809000 + n * 0x4, 10, 1⟩
/-- `HLK_MAP.BAND` (R47): Band b -/
abbrev Reg.HLK_MAP_BAND (n : Nat) : Field := ⟨0x00809000 + n * 0x4, 8, 2⟩
/-- `HLK_MAP.CLASS` (R47): Class c -/
abbrev Reg.HLK_MAP_CLASS (n : Nat) : Field := ⟨0x00809000 + n * 0x4, 0, 7⟩
/-- `HBX_CTRL.RR_MARGIN` (R125): Margin of R123 in reams, 1–255. A write of 0 leaves the field unchanged. -/
abbrev Reg.HBX_CTRL_RR_MARGIN : Field := ⟨0x00200000, 16, 8⟩
/-- `HBX_CTRL.MAX_JOBS` (R125): Jobs in flight, 1–256. A write outside this range leaves the field unchanged. A lower value takes effect as jobs complete. -/
abbrev Reg.HBX_CTRL_MAX_JOBS : Field := ⟨0x00200000, 0, 9⟩
/-- `HBX_AHEAD.MAX_REAMS` (R125): Reams ahead of the frontier's ream that may be rendered. 0: limited only by the store. -/
abbrev Reg.HBX_AHEAD_MAX_REAMS : Field := ⟨0x00200004, 0, 32⟩
/-- `HBX_VAT_ROLE.ROLES` (R125): Role of vat n, coded as in R110 -/
abbrev Reg.HBX_VAT_ROLE_ROLES : Field := ⟨0x00200010, 0, 32⟩
/-- `HBX_VAT_ROLE_REQ.ROLES` (R125): Role to apply to vat n, coded as in R110. Applied as R126 states. -/
abbrev Reg.HBX_VAT_ROLE_REQ_ROLES : Field := ⟨0x00200014, 0, 32⟩
/-- `HBX_VAT_CFG.SPARE_TEST_EVERY` (R125): Accepted FINE jobs per spare test; 0 disables -/
abbrev Reg.HBX_VAT_CFG_SPARE_TEST_EVERY : Field := ⟨0x00200018, 16, 16⟩
/-- `HBX_VAT_CFG.MIN_ACTIVE` (R125): Active-vat count below which 0x0204 is raised, 0–16; a write above 16 leaves the field unchanged -/
abbrev Reg.HBX_VAT_CFG_MIN_ACTIVE : Field := ⟨0x00200018, 0, 5⟩
/-- `HBX_JOB_LIMIT.CYCLES` (R125): Core cycles after which a job is aborted (R118), at least 0x0002_0000. A lower write leaves the field unchanged. -/
abbrev Reg.HBX_JOB_LIMIT_CYCLES : Field := ⟨0x0020001C, 0, 32⟩
/-- `HBX_WM_POLICY.TRUST_TWO` (R125): 0: HALT. 1: TRUST_TWO. Applied as R117 states. -/
abbrev Reg.HBX_WM_POLICY_TRUST_TWO : Field := ⟨0x00200020, 0, 1⟩
/-- `HBX_STATUS.IN_FLIGHT` (R125): Jobs in flight -/
abbrev Reg.HBX_STATUS_IN_FLIGHT : Field := ⟨0x00200024, 16, 9⟩
/-- `HBX_STATUS.SPARES` (R125): Spare vats -/
abbrev Reg.HBX_STATUS_SPARES : Field := ⟨0x00200024, 8, 5⟩
/-- `HBX_STATUS.ACTIVE` (R125): Active vats -/
abbrev Reg.HBX_STATUS_ACTIVE : Field := ⟨0x00200024, 0, 5⟩
/-- `HBX_LEAD.LINES` (R125): Lead of R124; 0xFFFF_FFFF when accepted through the strip's end -/
abbrev Reg.HBX_LEAD_LINES : Field := ⟨0x00200028, 0, 32⟩
/-- `HBX_CNT.SAT` (R125): Sticky saturation (R10) -/
abbrev Reg.HBX_CNT_SAT (n : Nat) : Field := ⟨0x00200100 + n * 0x8 + 4, 31, 1⟩
/-- `HBX_CNT.COUNT` (R125): Count as given for index i; written 0 to clear -/
abbrev Reg.HBX_CNT_COUNT (n : Nat) : Field := ⟨0x00200100 + n * 0x8, 0, 48⟩
/-- `VAT_STATUS.QUEUE` (R127): Jobs queued, 0–16 -/
abbrev Reg.VAT_STATUS_QUEUE (n : Nat) : Field := ⟨0x00300000 + n * 0x10000, 16, 5⟩
/-- `VAT_STATUS.STATE` (R127): 0 idle, 1 fine render, 2 coarse render, 3 neap -/
abbrev Reg.VAT_STATUS_STATE (n : Nat) : Field := ⟨0x00300000 + n * 0x10000, 2, 2⟩
/-- `VAT_STATUS.ROLE` (R127): Copy of ROLE_n of `HBX_VAT_ROLE` -/
abbrev Reg.VAT_STATUS_ROLE (n : Nat) : Field := ⟨0x00300000 + n * 0x10000, 0, 2⟩
/-- `VAT_CNT.SAT` (R127): Sticky saturation (R10) -/
abbrev Reg.VAT_CNT_SAT (n : Nat) (i : Nat) : Field := ⟨0x00300100 + n * 0x10000 + i * 0x8 + 4, 31, 1⟩
/-- `VAT_CNT.COUNT` (R127): 0 jobs completed; 1 cycles spent rendering; 2 watermark mismatches; 3 watchdog aborts; 4 spare tests run -/
abbrev Reg.VAT_CNT_COUNT (n : Nat) (i : Nat) : Field := ⟨0x00300100 + n * 0x10000 + i * 0x8, 0, 48⟩
/-- `CAL_STATUS.WRITE_REFUSED` (R143): A profile write was refused under R135 -/
abbrev Reg.CAL_STATUS_WRITE_REFUSED : Field := ⟨0x00400000, 16, 1⟩
/-- `CAL_STATUS.IN_USE` (R143): Bit n set while profile n is in use (R135) -/
abbrev Reg.CAL_STATUS_IN_USE : Field := ⟨0x00400000, 0, 8⟩
/-- `CAL_CNT.SAT` (R143): Sticky saturation (R10) -/
abbrev Reg.CAL_CNT_SAT (n : Nat) : Field := ⟨0x00400100 + n * 0x8 + 4, 31, 1⟩
/-- `CAL_CNT.COUNT` (R143): 0 tiles corrected; 1 pixels limited to 60; 2 margin bytes above 240; 3 margin records without effect (R138); 4 halo blocks received; 5 reams held for  -/
abbrev Reg.CAL_CNT_COUNT (n : Nat) : Field := ⟨0x00400100 + n * 0x8, 0, 48⟩
/-- `CAL_PR_SRAD.RS2` (R143): Radius of the third short-range box -/
abbrev Reg.CAL_PR_SRAD_RS2 (n : Nat) : Field := ⟨0x00401000 + n * 0x1000, 12, 6⟩
/-- `CAL_PR_SRAD.RS1` (R143): Radius of the second short-range box -/
abbrev Reg.CAL_PR_SRAD_RS1 (n : Nat) : Field := ⟨0x00401000 + n * 0x1000, 6, 6⟩
/-- `CAL_PR_SRAD.RS0` (R143): Radius of the first short-range box -/
abbrev Reg.CAL_PR_SRAD_RS0 (n : Nat) : Field := ⟨0x00401000 + n * 0x1000, 0, 6⟩
/-- `CAL_PR_CRAD.RL1` (R143): Second long-range box radius, blocks -/
abbrev Reg.CAL_PR_CRAD_RL1 (n : Nat) : Field := ⟨0x00401004 + n * 0x1000, 20, 10⟩
/-- `CAL_PR_CRAD.RL0` (R143): First long-range box radius, blocks -/
abbrev Reg.CAL_PR_CRAD_RL0 (n : Nat) : Field := ⟨0x00401004 + n * 0x1000, 10, 10⟩
/-- `CAL_PR_CRAD.RM1` (R143): Second mid-range box radius, blocks -/
abbrev Reg.CAL_PR_CRAD_RM1 (n : Nat) : Field := ⟨0x00401004 + n * 0x1000, 5, 5⟩
/-- `CAL_PR_CRAD.RM0` (R143): First mid-range box radius, blocks -/
abbrev Reg.CAL_PR_CRAD_RM0 (n : Nat) : Field := ⟨0x00401004 + n * 0x1000, 0, 5⟩
/-- `CAL_PR_KSM.KM` (R143): Weight of Dm in e -/
abbrev Reg.CAL_PR_KSM_KM (n : Nat) : Field := ⟨0x00401008 + n * 0x1000, 16, 16⟩
/-- `CAL_PR_KSM.KS` (R143): Weight of Ds in e -/
abbrev Reg.CAL_PR_KSM_KS (n : Nat) : Field := ⟨0x00401008 + n * 0x1000, 0, 16⟩
/-- `CAL_PR_KLD.DSH` (R143): Deckle zone 64·2^DSH columns, one table step per 2^DSH columns -/
abbrev Reg.CAL_PR_KLD_DSH (n : Nat) : Field := ⟨0x0040100C + n * 0x1000, 16, 3⟩
/-- `CAL_PR_KLD.KL` (R143): Weight of Dl in e -/
abbrev Reg.CAL_PR_KLD_KL (n : Nat) : Field := ⟨0x0040100C + n * 0x1000, 0, 16⟩
/-- `CAL_PR_DT.T3` (R143): Deckle weight in 1/128 -/
abbrev Reg.CAL_PR_DT_T3 (n : Nat) (i : Nat) : Field := ⟨0x00401040 + n * 0x1000 + i * 0x4, 24, 8⟩
/-- `CAL_PR_DT.T2` (R143): Deckle weight in 1/128 -/
abbrev Reg.CAL_PR_DT_T2 (n : Nat) (i : Nat) : Field := ⟨0x00401040 + n * 0x1000 + i * 0x4, 16, 8⟩
/-- `CAL_PR_DT.T1` (R143): Deckle weight in 1/128 -/
abbrev Reg.CAL_PR_DT_T1 (n : Nat) (i : Nat) : Field := ⟨0x00401040 + n * 0x1000 + i * 0x4, 8, 8⟩
/-- `CAL_PR_DT.T0` (R143): Deckle weight in 1/128 -/
abbrev Reg.CAL_PR_DT_T0 (n : Nat) (i : Nat) : Field := ⟨0x00401040 + n * 0x1000 + i * 0x4, 0, 8⟩
/-- `CAL_PR_MT.MT1` (R143): Multiplier, 16,384 = 1.0. Reserved (RO, 0) for i = 128. -/
abbrev Reg.CAL_PR_MT_MT1 (n : Nat) (i : Nat) : Field := ⟨0x00401100 + n * 0x1000 + i * 0x4, 16, 16⟩
/-- `CAL_PR_MT.MT0` (R143): Multiplier, 16,384 = 1.0 -/
abbrev Reg.CAL_PR_MT_MT0 (n : Nat) (i : Nat) : Field := ⟨0x00401100 + n * 0x1000 + i * 0x4, 0, 16⟩
/-- `CAL_PR_DIGEST.DIGEST` (R143): CRC-32C of R133 over the profile's current contents -/
abbrev Reg.CAL_PR_DIGEST_DIGEST (n : Nat) : Field := ⟨0x00401400 + n * 0x1000, 0, 32⟩
/-- `STO_CTRL.HOST_ENG_MAX` (R172): Host codec jobs that may hold a compressor at once, 0–8. A write above 8 leaves the field unchanged. -/
abbrev Reg.STO_CTRL_HOST_ENG_MAX : Field := ⟨0x00500000, 16, 4⟩
/-- `STO_CTRL.FILL_MARGIN` (R172): Ticks of R161, 3–16. A write outside this range leaves the field unchanged. -/
abbrev Reg.STO_CTRL_FILL_MARGIN : Field := ⟨0x00500000, 8, 5⟩
/-- `STO_AREA_BASE.BASE` (R172): DRAM address of block 0, 4 KiB aligned -/
abbrev Reg.STO_AREA_BASE_BASE : Field := ⟨0x00500008, 12, 27⟩
/-- `STO_AREA_BLOCKS.BLOCKS` (R172): Store blocks of 4 KiB; 0 means no area -/
abbrev Reg.STO_AREA_BLOCKS_BLOCKS : Field := ⟨0x00500010, 0, 27⟩
/-- `STO_LEDGER_BASE.BASE` (R172): DRAM address of copy 0, 128 KiB aligned -/
abbrev Reg.STO_LEDGER_BASE_BASE : Field := ⟨0x00500018, 17, 22⟩
/-- `STO_LEDGER_CFG.SLOTS` (R172): Ream slots per copy -/
abbrev Reg.STO_LEDGER_CFG_SLOTS : Field := ⟨0x00500020, 0, 16⟩
/-- `STO_STATUS.CONFIG_OK` (R172): The configuration meets R172 -/
abbrev Reg.STO_STATUS_CONFIG_OK : Field := ⟨0x00500024, 31, 1⟩
/-- `STO_STATUS.WRITE_REFUSED` (R172): A configuration write was refused -/
abbrev Reg.STO_STATUS_WRITE_REFUSED : Field := ⟨0x00500024, 30, 1⟩
/-- `STO_STATUS.OPEN_STRIPS` (R172): Strip records held, 0–16 -/
abbrev Reg.STO_STATUS_OPEN_STRIPS : Field := ⟨0x00500024, 16, 5⟩
/-- `STO_STATUS.LIVE_REAMS` (R172): Ream slots not FREE -/
abbrev Reg.STO_STATUS_LIVE_REAMS : Field := ⟨0x00500024, 0, 16⟩
/-- `STO_FREE.BLOCKS` (R172): Free blocks, not counting open reservations -/
abbrev Reg.STO_FREE_BLOCKS : Field := ⟨0x00500028, 0, 27⟩
/-- `STO_CNT.SAT` (R172): Sticky saturation (R10) -/
abbrev Reg.STO_CNT_SAT (n : Nat) : Field := ⟨0x00500100 + n * 0x8 + 4, 31, 1⟩
/-- `STO_CNT.COUNT` (R172): Count as given for index i; written 0 to clear -/
abbrev Reg.STO_CNT_COUNT (n : Nat) : Field := ⟨0x00500100 + n * 0x8, 0, 48⟩
/-- `CCH_CTRL.REQUIRE_STANDBY` (R202): 1: no FLOOD without a STANDBY couch (R201) -/
abbrev Reg.CCH_CTRL_REQUIRE_STANDBY : Field := ⟨0x00600000, 0, 1⟩
/-- `CCH_DWELL.GUARD` (R202): Guard per line in 1/64 head clock (0.1 ns), 0–65,535 -/
abbrev Reg.CCH_DWELL_GUARD : Field := ⟨0x00600004, 16, 16⟩
/-- `CCH_DWELL.SLOT` (R202): Slot in 1/64 head clock, 1–65,535; a proposal of 0 is refused with 0x050D -/
abbrev Reg.CCH_DWELL_SLOT : Field := ⟨0x00600004, 0, 16⟩
/-- `CCH_RES_BASE.BASE` (R202): DRAM address of slot 0's entry, 2 KiB aligned -/
abbrev Reg.CCH_RES_BASE_BASE : Field := ⟨0x00600008, 11, 28⟩
/-- `CCH_SWAP_CTRL.REQUEST` (R202): Run a swap test at the next SLACK; reads 1 until that test ends -/
abbrev Reg.CCH_SWAP_CTRL_REQUEST : Field := ⟨0x00600010, 31, 1⟩
/-- `CCH_SWAP_CTRL.INTERVAL` (R202): Minutes between scheduled tests; 0: on request only -/
abbrev Reg.CCH_SWAP_CTRL_INTERVAL : Field := ⟨0x00600010, 0, 16⟩
/-- `CCH_SWAP_LINES.LINES` (R202): Lines per test, 256–65,535; a write below 256 leaves the field unchanged -/
abbrev Reg.CCH_SWAP_LINES_LINES : Field := ⟨0x00600014, 0, 16⟩
/-- `CCH_ROLE_REQ.B_OFF` (R202): 1: couch B OFF, applied by R201 -/
abbrev Reg.CCH_ROLE_REQ_B_OFF : Field := ⟨0x00600018, 1, 1⟩
/-- `CCH_ROLE_REQ.A_OFF` (R202): 1: couch A OFF, applied by R201 -/
abbrev Reg.CCH_ROLE_REQ_A_OFF : Field := ⟨0x00600018, 0, 1⟩
/-- `CCX_STATUS.SINCE_TEST` (R202): Minutes since this couch's path last passed a swap test, saturating at 0xFFFE; 0xFFFF: never since cold reset -/
abbrev Reg.CCX_STATUS_SINCE_TEST (n : Nat) : Field := ⟨0x00600040 + n * 0x100000, 16, 16⟩
/-- `CCX_STATUS.LOST_CAUSE` (R202): 0 none, 1 self-check flag, 2 domain failure, 3 swap test, 4 path fault (R192), 5 both flagged, 6 returning from OFF (R201) -/
abbrev Reg.CCX_STATUS_LOST_CAUSE (n : Nat) : Field := ⟨0x00600040 + n * 0x100000, 4, 4⟩
/-- `CCX_STATUS.ROLE` (R202): 0 ACTIVE, 1 STANDBY, 2 LOST, 3 OFF -/
abbrev Reg.CCX_STATUS_ROLE (n : Nat) : Field := ⟨0x00600040 + n * 0x100000, 0, 2⟩
/-- `CCH_CURVE.T1` (R202): Entry of curve n = i div 8, m = i mod 8, in 1/64 slot -/
abbrev Reg.CCH_CURVE_T1 (n : Nat) : Field := ⟨0x00600100 + n * 0x4, 16, 16⟩
/-- `CCH_CURVE.T0` (R202): As above -/
abbrev Reg.CCH_CURVE_T0 (n : Nat) : Field := ⟨0x00600100 + n * 0x4, 0, 16⟩
/-- `CCX_CNT.SAT` (R202): Sticky saturation (R10) -/
abbrev Reg.CCX_CNT_SAT (n : Nat) (i : Nat) : Field := ⟨0x00600200 + n * 0x100000 + i * 0x8 + 4, 31, 1⟩
/-- `CCX_CNT.COUNT` (R202): 0 staging-buffer corrections; 1 self-check flags; 2 lines computed; 3 entries to LOST -/
abbrev Reg.CCX_CNT_COUNT (n : Nat) (i : Nat) : Field := ⟨0x00600200 + n * 0x100000 + i * 0x8, 0, 48⟩
/-- `CCH_MASK.LIVE` (R202): Bit i is beam index 32·w + i, where beam (b, c, k) has index 512·(128·b + c) + k. 1: may fire. -/
abbrev Reg.CCH_MASK_LIVE (n : Nat) : Field := ⟨0x00610000 + n * 0x4, 0, 32⟩
/-- `HLK_ARB_CTRL.CONFIRM_LINES` (R203): Lines of R192, 1–15; a write of 0 leaves the field unchanged -/
abbrev Reg.HLK_ARB_CTRL_CONFIRM_LINES : Field := ⟨0x0080A000, 16, 4⟩
/-- `HLK_ARB_CTRL.ZERO_LIMIT` (R203): Lines of R194, 1–255; a write of 0 leaves the field unchanged -/
abbrev Reg.HLK_ARB_CTRL_ZERO_LIMIT : Field := ⟨0x0080A000, 0, 8⟩
/-- `HLK_ARB_STATUS.GAP_PEAK` (R203): Greatest switch-over gap measured on any chain since cold reset, core cycles -/
abbrev Reg.HLK_ARB_STATUS_GAP_PEAK : Field := ⟨0x0080A004, 16, 16⟩
/-- `HLK_ARB_STATUS.STANDBY_OK` (R203): A couch is STANDBY -/
abbrev Reg.HLK_ARB_STATUS_STANDBY_OK : Field := ⟨0x0080A004, 2, 1⟩
/-- `HLK_ARB_STATUS.ACTIVE` (R203): 0 couch A, 1 couch B, 3 none; 2 is not used -/
abbrev Reg.HLK_ARB_STATUS_ACTIVE : Field := ⟨0x0080A004, 0, 2⟩
/-- `HLK_ARB_CNT.SAT` (R203): Sticky saturation (R10) -/
abbrev Reg.HLK_ARB_CNT_SAT (n : Nat) : Field := ⟨0x0080A100 + n * 0x8 + 4, 31, 1⟩
/-- `HLK_ARB_CNT.COUNT` (R203): 0 frame mismatches; 1 switch-overs; 2 zero frames sent; 3 swap tests run; 4 breaks under R194 -/
abbrev Reg.HLK_ARB_CNT_COUNT (n : Nat) : Field := ⟨0x0080A100 + n * 0x8, 0, 48⟩
/-- `HLK_CTRL.RETRAIN_REQ` (R233): Retrain every chain at the next SLACK; reads 1 until done -/
abbrev Reg.HLK_CTRL_RETRAIN_REQ : Field := ⟨0x00800000, 31, 1⟩
/-- `HLK_CTRL.POLL_US` (R233): POLL period of R225 in µs, 10–255; a write below 10 leaves the field unchanged -/
abbrev Reg.HLK_CTRL_POLL_US : Field := ⟨0x00800000, 16, 8⟩
/-- `HLK_CTRL.ECHO_LINES` (R233): Lines of R228, 3–15; a write below 3 leaves the field unchanged -/
abbrev Reg.HLK_CTRL_ECHO_LINES : Field := ⟨0x00800000, 8, 4⟩
/-- `HLK_CTRL.LOSS_LINES` (R233): Lines of R232, 2–15; a write below 2 leaves the field unchanged -/
abbrev Reg.HLK_CTRL_LOSS_LINES : Field := ⟨0x00800000, 4, 4⟩
/-- `HLK_CTRL.AUTO_RETRAIN` (R233): Retrain non-READY chains in SLACK (R226) -/
abbrev Reg.HLK_CTRL_AUTO_RETRAIN : Field := ⟨0x00800000, 0, 1⟩
/-- `HLK_STATUS.CHAINS_READY` (R233): Chains in READY, 0–128 -/
abbrev Reg.HLK_STATUS_CHAINS_READY : Field := ⟨0x00800004, 16, 8⟩
/-- `HLK_STATUS.BLANK` (R233): HEAD_BLANK_N driven low -/
abbrev Reg.HLK_STATUS_BLANK : Field := ⟨0x00800004, 1, 1⟩
/-- `HLK_STATUS.ALL_READY` (R233): All 128 chains READY -/
abbrev Reg.HLK_STATUS_ALL_READY : Field := ⟨0x00800004, 0, 1⟩
/-- `HLK_LINK_LIMIT.HZ` (R233): Limit of R220 in Hz; 0 until all chains are READY -/
abbrev Reg.HLK_LINK_LIMIT_HZ : Field := ⟨0x00800008, 0, 32⟩
/-- `HLK_TEMP.LIMIT` (R233): s16, 1/16 °C (80.0 °C) -/
abbrev Reg.HLK_TEMP_LIMIT : Field := ⟨0x00800010, 16, 16⟩
/-- `HLK_TEMP.WARN` (R233): s16, 1/16 °C (70.0 °C); must be below LIMIT, and a write that is not below it leaves the field unchanged -/
abbrev Reg.HLK_TEMP_WARN : Field := ⟨0x00800010, 0, 16⟩
/-- `HLK_TIME_CTRL.RECHECK` (R233): Seconds between rechecks of R222; 0 disables -/
abbrev Reg.HLK_TIME_CTRL_RECHECK : Field := ⟨0x00800014, 24, 8⟩
/-- `HLK_TIME_CTRL.TOL` (R233): Tolerance in 0.1 ns, 5–65,535; a write below 5 leaves the field unchanged -/
abbrev Reg.HLK_TIME_CTRL_TOL : Field := ⟨0x00800014, 0, 16⟩
/-- `HLK_CHAIN_STATE.RT` (R233): Round trip of R221 in 0.1 ns -/
abbrev Reg.HLK_CHAIN_STATE_RT (n : Nat) : Field := ⟨0x00801000 + n * 0x4, 16, 16⟩
/-- `HLK_CHAIN_STATE.CAUSE` (R233): Failure cause of R225, 0 none -/
abbrev Reg.HLK_CHAIN_STATE_CAUSE (n : Nat) : Field := ⟨0x00801000 + n * 0x4, 8, 4⟩
/-- `HLK_CHAIN_STATE.COUNT` (R233): Drivers discovered -/
abbrev Reg.HLK_CHAIN_STATE_COUNT (n : Nat) : Field := ⟨0x00801000 + n * 0x4, 4, 4⟩
/-- `HLK_CHAIN_STATE.STATE` (R233): Code of R225; 8 FAILED -/
abbrev Reg.HLK_CHAIN_STATE_STATE (n : Nat) : Field := ⟨0x00801000 + n * 0x4, 0, 4⟩
/-- `HLK_DRV_LAT.FWD` (R233): FWD_LAT from IDENT, 0.1 ns -/
abbrev Reg.HLK_DRV_LAT_FWD (n : Nat) : Field := ⟨0x00804000 + n * 0x8, 16, 16⟩
/-- `HLK_DRV_LAT.D` (R233): D(p) of R221, 0.1 ns -/
abbrev Reg.HLK_DRV_LAT_D (n : Nat) : Field := ⟨0x00804000 + n * 0x8, 0, 16⟩
/-- `HLK_DRV_INFO.MODEL` (R233): MODEL from IDENT -/
abbrev Reg.HLK_DRV_INFO_MODEL (n : Nat) : Field := ⟨0x00804004 + n * 0x8, 16, 16⟩
/-- `HLK_DRV_INFO.TEMP` (R233): Hottest present sensor in the last STATUS, s16 in 1/16 °C -/
abbrev Reg.HLK_DRV_INFO_TEMP (n : Nat) : Field := ⟨0x00804004 + n * 0x8, 0, 16⟩
/-- `HLK_SKEW.SKEW` (R233): s16, 0.1 ns, added to D(p); part of the head map -/
abbrev Reg.HLK_SKEW_SKEW (n : Nat) : Field := ⟨0x0080B000 + n * 0x4, 0, 16⟩
/-- `HLK_CNT.SAT` (R233): Sticky saturation (R10) -/
abbrev Reg.HLK_CNT_SAT (n : Nat) (i : Nat) : Field := ⟨0x0080C000 + n * 0x40 + i * 0x8 + 4, 31, 1⟩
/-- `HLK_CNT.COUNT` (R233): 0 symbol errors at HL_RX; 1 returning frames failing CRC; 2 drivers' CNT_CRC increments; 3 LATE; 4 NO_TICK and OVERRUN; 5 DRIVER marks of cause 8; 6 c -/
abbrev Reg.HLK_CNT_COUNT (n : Nat) (i : Nat) : Field := ⟨0x0080C000 + n * 0x40 + i * 0x8, 0, 48⟩
/-- `LNS_REF_CTRL.SSC_APPLIED` (R255): Spread in force, 0.05 % steps (R239) -/
abbrev Reg.LNS_REF_CTRL_SSC_APPLIED : Field := ⟨0x00900000, 16, 4⟩
/-- `LNS_REF_CTRL.SSC` (R255): Spread to apply, 0–10 (R239) -/
abbrev Reg.LNS_REF_CTRL_SSC : Field := ⟨0x00900000, 8, 4⟩
/-- `LNS_REF_CTRL.OUT_EN` (R255): Bit i enables HL_REFCLK_P/N[i] (R238) -/
abbrev Reg.LNS_REF_CTRL_OUT_EN : Field := ⟨0x00900000, 0, 4⟩
/-- `LNS_ADAPT.TUNE_US` (R255): Tune-burst period of R245 in µs, 16–255; a write below 16 leaves the field unchanged -/
abbrev Reg.LNS_ADAPT_TUNE_US : Field := ⟨0x00900004, 16, 8⟩
/-- `LNS_ADAPT.TD_MIN` (R255): Qualifying threshold of R244 for the device's receivers, in 1/256; 16–192; a write outside this range leaves the field unchanged -/
abbrev Reg.LNS_ADAPT_TD_MIN : Field := ⟨0x00900004, 0, 8⟩
/-- `LNS_EQ_MIN.EYE_H` (R255): Least horizontal eye opening, 1/64 UI -/
abbrev Reg.LNS_EQ_MIN_EYE_H : Field := ⟨0x00900008, 16, 6⟩
/-- `LNS_EQ_MIN.EYE_V` (R255): Least vertical eye opening, mV -/
abbrev Reg.LNS_EQ_MIN_EYE_V : Field := ⟨0x00900008, 0, 8⟩
/-- `LNS_STATUS.TIDE_LOCK` (R255): Tide PLL locked -/
abbrev Reg.LNS_STATUS_TIDE_LOCK : Field := ⟨0x0090000C, 1, 1⟩
/-- `LNS_STATUS.HEAD_LOCK` (R255): Head PLL locked -/
abbrev Reg.LNS_STATUS_HEAD_LOCK : Field := ⟨0x0090000C, 0, 1⟩
/-- `LNS_LOOP_CTRL.START` (R255): Start the loop; reads 1 while it runs -/
abbrev Reg.LNS_LOOP_CTRL_START : Field := ⟨0x00900010, 31, 1⟩
/-- `LNS_LOOP_CTRL.LANE` (R255): Transmit lane index L of R236: 0–127 for HL_TX[0–127], 256–261 for TL_TX[0–5]. A START with any other value has no effect and raises 0x0706 -/
abbrev Reg.LNS_LOOP_CTRL_LANE : Field := ⟨0x00900010, 16, 9⟩
/-- `LNS_LOOP_CTRL.LEN` (R255): Length 2^(20 + LEN) data symbols -/
abbrev Reg.LNS_LOOP_CTRL_LEN : Field := ⟨0x00900010, 8, 4⟩
/-- `LNS_LOOP_CTRL.MODE` (R255): 0 none; 1–4 as R253; 5–7 refused as 0x0706 -/
abbrev Reg.LNS_LOOP_CTRL_MODE : Field := ⟨0x00900010, 0, 3⟩
/-- `LNS_LOOP_RES.DONE` (R255): The last loop has ended; cleared by START -/
abbrev Reg.LNS_LOOP_RES_DONE : Field := ⟨0x00900018 + 4, 31, 1⟩
/-- `LNS_LOOP_RES.LOCKED` (R255): The checker locked -/
abbrev Reg.LNS_LOOP_RES_LOCKED : Field := ⟨0x00900018 + 4, 30, 1⟩
/-- `LNS_LOOP_RES.ERRORS` (R255): Byte errors after lock -/
abbrev Reg.LNS_LOOP_RES_ERRORS : Field := ⟨0x00900018, 0, 48⟩
/-- `LNS_LANE_CTRL.EIDLE` (R255): Transmit lanes: hold in electrical idle (R246) -/
abbrev Reg.LNS_LANE_CTRL_EIDLE (n : Nat) : Field := ⟨0x00901000 + n * 0x10, 11, 1⟩
/-- `LNS_LANE_CTRL.RX_INV` (R255): Receive lanes: inversion applied when RX_INV_AUTO is 0 -/
abbrev Reg.LNS_LANE_CTRL_RX_INV (n : Nat) : Field := ⟨0x00901000 + n * 0x10, 10, 1⟩
/-- `LNS_LANE_CTRL.RX_INV_AUTO` (R255): Receive lanes: detect inversion in ALIGN -/
abbrev Reg.LNS_LANE_CTRL_RX_INV_AUTO (n : Nat) : Field := ⟨0x00901000 + n * 0x10, 9, 1⟩
/-- `LNS_LANE_CTRL.TX_INV` (R255): Transmit lanes: invert output -/
abbrev Reg.LNS_LANE_CTRL_TX_INV (n : Nat) : Field := ⟨0x00901000 + n * 0x10, 8, 1⟩
/-- `LNS_LANE_CTRL.PRESET` (R255): Transmit lanes: first preset of R249 -/
abbrev Reg.LNS_LANE_CTRL_PRESET (n : Nat) : Field := ⟨0x00901000 + n * 0x10, 0, 3⟩
/-- `LNS_LANE_TX.PRESET` (R255): Preset in force -/
abbrev Reg.LNS_LANE_TX_PRESET (n : Nat) : Field := ⟨0x00901004 + n * 0x10, 24, 3⟩
/-- `LNS_LANE_TX.PRE` (R255): s8 -/
abbrev Reg.LNS_LANE_TX_PRE (n : Nat) : Field := ⟨0x00901004 + n * 0x10, 16, 8⟩
/-- `LNS_LANE_TX.MAIN` (R255): u8 -/
abbrev Reg.LNS_LANE_TX_MAIN (n : Nat) : Field := ⟨0x00901004 + n * 0x10, 8, 8⟩
/-- `LNS_LANE_TX.POST` (R255): s8 -/
abbrev Reg.LNS_LANE_TX_POST (n : Nat) : Field := ⟨0x00901004 + n * 0x10, 0, 8⟩
/-- `LNS_LANE_RX.ALIGNED` (R255): Symbol alignment held -/
abbrev Reg.LNS_LANE_RX_ALIGNED (n : Nat) : Field := ⟨0x00901008 + n * 0x10, 31, 1⟩
/-- `LNS_LANE_RX.INVERTED` (R255): Inversion in force -/
abbrev Reg.LNS_LANE_RX_INVERTED (n : Nat) : Field := ⟨0x00901008 + n * 0x10, 30, 1⟩
/-- `LNS_LANE_RX.FROZEN` (R255): Adaptation frozen in the last window (R244) -/
abbrev Reg.LNS_LANE_RX_FROZEN (n : Nat) : Field := ⟨0x00901008 + n * 0x10, 29, 1⟩
/-- `LNS_LANE_RX.EIDLE` (R255): Input in electrical idle -/
abbrev Reg.LNS_LANE_RX_EIDLE (n : Nat) : Field := ⟨0x00901008 + n * 0x10, 28, 1⟩
/-- `LNS_LANE_RX.EYE_H` (R255): Horizontal eye opening, 1/64 UI -/
abbrev Reg.LNS_LANE_RX_EYE_H (n : Nat) : Field := ⟨0x00901008 + n * 0x10, 16, 6⟩
/-- `LNS_LANE_RX.CTLE` (R255): CTLE code in force -/
abbrev Reg.LNS_LANE_RX_CTLE (n : Nat) : Field := ⟨0x00901008 + n * 0x10, 8, 4⟩
/-- `LNS_LANE_RX.EYE_V` (R255): Vertical eye opening, mV -/
abbrev Reg.LNS_LANE_RX_EYE_V (n : Nat) : Field := ⟨0x00901008 + n * 0x10, 0, 8⟩
/-- `LNS_HOP_EQ.PRE` (R255): s8, sent by TX_EQ to driver a (R249) -/
abbrev Reg.LNS_HOP_EQ_PRE (n : Nat) : Field := ⟨0x00904000 + n * 0x4, 16, 8⟩
/-- `LNS_HOP_EQ.MAIN` (R255): u8 -/
abbrev Reg.LNS_HOP_EQ_MAIN (n : Nat) : Field := ⟨0x00904000 + n * 0x4, 8, 8⟩
/-- `LNS_HOP_EQ.POST` (R255): s8; a write that fails R242 leaves the register unchanged -/
abbrev Reg.LNS_HOP_EQ_POST (n : Nat) : Field := ⟨0x00904000 + n * 0x4, 0, 8⟩
/-- `LNS_STROBE.CAL_TEMP` (R255): Die temperature at the last calibration, whole °C -/
abbrev Reg.LNS_STROBE_CAL_TEMP (n : Nat) : Field := ⟨0x00906000 + n * 0x4, 24, 8⟩
/-- `LNS_STROBE.BAD` (R255): Bit i set: chain i excluded by head care -/
abbrev Reg.LNS_STROBE_BAD (n : Nat) : Field := ⟨0x00906000 + n * 0x4, 20, 4⟩
/-- `LNS_STROBE.CHAIN` (R255): Delay chain in use -/
abbrev Reg.LNS_STROBE_CHAIN (n : Nat) : Field := ⟨0x00906000 + n * 0x4, 16, 2⟩
/-- `LNS_STROBE.TAP` (R255): Tap in use, about 25 ps each -/
abbrev Reg.LNS_STROBE_TAP (n : Nat) : Field := ⟨0x00906000 + n * 0x4, 0, 6⟩
/-- `LNS_CNT.SAT` (R255): Sticky saturation (R10) -/
abbrev Reg.LNS_CNT_SAT (n : Nat) (i : Nat) : Field := ⟨0x00908000 + n * 0x20 + i * 0x8 + 4, 31, 1⟩
/-- `LNS_CNT.COUNT` (R255): 0 alignment losses; 1 frozen windows; 2 tune bursts sent; 3 re-adapt bursts sent -/
abbrev Reg.LNS_CNT_COUNT (n : Nat) (i : Nat) : Field := ⟨0x00908000 + n * 0x20 + i * 0x8, 0, 48⟩
/-- `TID_POS_CFG.PERIOD` (R287): Serial trigger period, tide clocks, 16–65,535; a write below 16 leaves the field unchanged -/
abbrev Reg.TID_POS_CFG_PERIOD : Field := ⟨0x00A00000, 16, 16⟩
/-- `TID_POS_CFG.MON_EN` (R287): Monitor source in use (R262) -/
abbrev Reg.TID_POS_CFG_MON_EN : Field := ⟨0x00A00000, 15, 1⟩
/-- `TID_POS_CFG.MON_SRC` (R287): Monitor source, coded as SRC -/
abbrev Reg.TID_POS_CFG_MON_SRC : Field := ⟨0x00A00000, 12, 2⟩
/-- `TID_POS_CFG.FILT` (R287): Quadrature filter of R261 -/
abbrev Reg.TID_POS_CFG_FILT : Field := ⟨0x00A00000, 10, 2⟩
/-- `TID_POS_CFG.SWASH_NEG` (R287): 1: swash travel decreases the count (R263) -/
abbrev Reg.TID_POS_CFG_SWASH_NEG : Field := ⟨0x00A00000, 9, 1⟩
/-- `TID_POS_CFG.SRC` (R287): Source in service -/
abbrev Reg.TID_POS_CFG_SRC : Field := ⟨0x00A00000, 0, 2⟩
/-- `TID_POS_CFG2.DEADLINE` (R287): Frame deadline in units of 4 tide clocks (10 ns), 4–255, which is 40 ns to 2.55 µs; a write below 4 leaves the field unchanged -/
abbrev Reg.TID_POS_CFG2_DEADLINE : Field := ⟨0x00A00004, 24, 8⟩
/-- `TID_POS_CFG2.MISS_LIMIT` (R287): Consecutive missed samples that lose the position, 1–255 -/
abbrev Reg.TID_POS_CFG2_MISS_LIMIT : Field := ⟨0x00A00004, 16, 8⟩
/-- `TID_POS_CFG2.JITTER` (R287): Jitter window of R267, counts -/
abbrev Reg.TID_POS_CFG2_JITTER : Field := ⟨0x00A00004, 8, 8⟩
/-- `TID_POS_CFG2.TRIG_DLY` (R287): Trigger-to-latch delay, tide clocks -/
abbrev Reg.TID_POS_CFG2_TRIG_DLY : Field := ⟨0x00A00004, 0, 8⟩
/-- `TID_VWIN.VWIN` (R287): Window of R265, tide clocks, 400–65,535; a write below 400 leaves the field unchanged -/
abbrev Reg.TID_VWIN_VWIN : Field := ⟨0x00A00008, 0, 16⟩
/-- `TID_MON.FC_TOL` (R287): Fixed-clock tolerance of R271, counts -/
abbrev Reg.TID_MON_FC_TOL : Field := ⟨0x00A0000C, 16, 16⟩
/-- `TID_MON.MON_TOL` (R287): Monitor tolerance of R262, counts -/
abbrev Reg.TID_MON_MON_TOL : Field := ⟨0x00A0000C, 0, 16⟩
/-- `TID_LINE_PITCH.INT` (R287): Integer counts per line; latched at FLOOD (R263) -/
abbrev Reg.TID_LINE_PITCH_INT : Field := ⟨0x00A00010 + 4, 0, 32⟩
/-- `TID_LINE_PITCH.FRAC` (R287): Fraction, 1/2^32 count -/
abbrev Reg.TID_LINE_PITCH_FRAC : Field := ⟨0x00A00010, 0, 32⟩
/-- `TID_QREF.ARM` (R287): Load at the next index (R261); reads 1 until loaded -/
abbrev Reg.TID_QREF_ARM : Field := ⟨0x00A00018 + 4, 31, 1⟩
/-- `TID_QREF.LOAD` (R287): Count loaded at the index -/
abbrev Reg.TID_QREF_LOAD : Field := ⟨0x00A00018, 0, 40⟩
/-- `TID_POS.VALID` (R287): The last sample was valid -/
abbrev Reg.TID_POS_VALID : Field := ⟨0x00A00020 + 4, 31, 1⟩
/-- `TID_POS.REF` (R287): Position referenced; 1 for a serial source -/
abbrev Reg.TID_POS_REF : Field := ⟨0x00A00020 + 4, 30, 1⟩
/-- `TID_POS.COUNT` (R287): Count of the last valid sample -/
abbrev Reg.TID_POS_COUNT : Field := ⟨0x00A00020, 0, 40⟩
/-- `TID_TICK.STATE` (R287): Tick generator state, coded as in the state table -/
abbrev Reg.TID_TICK_STATE : Field := ⟨0x00A00028 + 4, 29, 3⟩
/-- `TID_TICK.INDEX` (R287): Index of the last emitted tick -/
abbrev Reg.TID_TICK_INDEX : Field := ⟨0x00A00028, 0, 48⟩
/-- `TID_TIME.TIME` (R287): Tide time (R258) -/
abbrev Reg.TID_TIME_TIME : Field := ⟨0x00A00030, 0, 64⟩
/-- `TID_FIXED.DIV` (R287): Tide clocks per fixed tick, 200–400,000; a write outside this range leaves the field unchanged -/
abbrev Reg.TID_FIXED_DIV : Field := ⟨0x00A00038, 0, 19⟩
/-- `TID_PRED.TOL` (R287): Tolerance of R268, 0.1 ns, 10–65,535 -/
abbrev Reg.TID_PRED_TOL : Field := ⟨0x00A0003C, 0, 16⟩
/-- `TID_PRED_PEAK.PEAK` (R287): Greatest crossing error of R268 since the last entry to FLOOD, 0.1 ns -/
abbrev Reg.TID_PRED_PEAK_PEAK : Field := ⟨0x00A00040, 0, 32⟩
/-- `TID_SP_CFG.EN` (R287): Send set-points -/
abbrev Reg.TID_SP_CFG_EN : Field := ⟨0x00A00044, 31, 1⟩
/-- `TID_SP_CFG.AHEAD` (R287): Tide clocks of R280 -/
abbrev Reg.TID_SP_CFG_AHEAD : Field := ⟨0x00A00044, 16, 15⟩
/-- `TID_SP_CFG.PERIOD` (R287): Frame period, tide clocks, 4,000–65,535 -/
abbrev Reg.TID_SP_CFG_PERIOD : Field := ⟨0x00A00044, 0, 16⟩
/-- `TID_PRF_VMAX.VMAX` (R287): Counts/s; 0 permits no motion -/
abbrev Reg.TID_PRF_VMAX_VMAX : Field := ⟨0x00A00048, 0, 32⟩
/-- `TID_PRF_AMAX.LIMIT` (R287): Counts/s² for AMAX, counts/s³ for JMAX; applied under R275 -/
abbrev Reg.TID_PRF_AMAX_LIMIT : Field := ⟨0x00A00050, 0, 48⟩
/-- `TID_PRF_JMAX.LIMIT` (R287): Counts/s² for AMAX, counts/s³ for JMAX; applied under R275 -/
abbrev Reg.TID_PRF_JMAX_LIMIT : Field := ⟨0x00A00058, 0, 48⟩
/-- `TID_PRF_PMIN.POS` (R287): s40 count (R278) -/
abbrev Reg.TID_PRF_PMIN_POS : Field := ⟨0x00A00060, 0, 40⟩
/-- `TID_PRF_PMAX.POS` (R287): s40 count (R278) -/
abbrev Reg.TID_PRF_PMAX_POS : Field := ⟨0x00A00068, 0, 40⟩
/-- `TID_PRF_CTRL.FOLLOW` (R287): Following tolerance of R277, counts; 0 disables -/
abbrev Reg.TID_PRF_CTRL_FOLLOW : Field := ⟨0x00A00070, 16, 16⟩
/-- `TID_PRF_CTRL.FOLLOW_DLY` (R287): Set-point delay of R277, µs -/
abbrev Reg.TID_PRF_CTRL_FOLLOW_DLY : Field := ⟨0x00A00070, 8, 8⟩
/-- `TID_PRF_CTRL.BLEND` (R287): 0 polynomial, 1 sinusoidal -/
abbrev Reg.TID_PRF_CTRL_BLEND : Field := ⟨0x00A00070, 0, 1⟩
/-- `TID_PRF_STATUS.REVERSE` (R287): A reverse approach is queued (R276) -/
abbrev Reg.TID_PRF_STATUS_REVERSE : Field := ⟨0x00A00074, 5, 1⟩
/-- `TID_PRF_STATUS.DEFERRED` (R287): A limit change is deferred (R275) -/
abbrev Reg.TID_PRF_STATUS_DEFERRED : Field := ⟨0x00A00074, 4, 1⟩
/-- `TID_PRF_STATUS.STATE` (R287): 0 REST, 1 MOVE, 2 STOP, 3 TABLE -/
abbrev Reg.TID_PRF_STATUS_STATE : Field := ⟨0x00A00074, 0, 2⟩
/-- `TID_STOP.MARGIN` (R287): Lines added in R286 -/
abbrev Reg.TID_STOP_MARGIN : Field := ⟨0x00A00078, 0, 16⟩
/-- `TID_STOP_LEAD.LINES` (R287): Stop lead of R286 -/
abbrev Reg.TID_STOP_LEAD_LINES : Field := ⟨0x00A0007C, 0, 32⟩
/-- `TID_GOV_CAP.HZ` (R287): Hz, 1,000–2,000,000; a write outside this range leaves the field unchanged -/
abbrev Reg.TID_GOV_CAP_HZ : Field := ⟨0x00A00080, 0, 21⟩
/-- `TID_GOV_MIN.HZ` (R287): Hz, 1,000–2,000,000; a write outside this range leaves the field unchanged -/
abbrev Reg.TID_GOV_MIN_HZ : Field := ⟨0x00A00084, 0, 21⟩
/-- `TID_GOV_TEMP.PCT` (R287): Factor of R284 in 1/256, 1–255; a write of 0 leaves the field unchanged -/
abbrev Reg.TID_GOV_TEMP_PCT : Field := ⟨0x00A00088, 0, 8⟩
/-- `TID_GOV_NOW.CAUSE` (R287): 0 device ceiling, 1 breakwater, 2 DRAM, 3 reserve, 4 link, 5 temperature, 6 host cap, 7 encoder, 8 velocity, 9 cascade -/
abbrev Reg.TID_GOV_NOW_CAUSE : Field := ⟨0x00A0008C, 28, 4⟩
/-- `TID_GOV_NOW.HZ` (R287): Planned rate of the interval in force; 0 outside a strip -/
abbrev Reg.TID_GOV_NOW_HZ : Field := ⟨0x00A0008C, 0, 21⟩
/-- `TID_CNT.SAT` (R287): Sticky saturation (R10) -/
abbrev Reg.TID_CNT_SAT (n : Nat) : Field := ⟨0x00A00100 + n * 0x8 + 4, 31, 1⟩
/-- `TID_CNT.COUNT` (R287): 0 valid samples; 1 missed samples; 2 WARN samples; 3 ticks emitted; 4 crossings beyond TOL; 5 deferred limit changes; 6 intervals planned; 7 temperatu -/
abbrev Reg.TID_CNT_COUNT (n : Nat) : Field := ⟨0x00A00100 + n * 0x8, 0, 48⟩
/-- `LOOP_PERIOD.PERIOD` (R302): Tide clocks, 400–400,000; a write outside this range leaves the field unchanged -/
abbrev Reg.LOOP_PERIOD_PERIOD (n : Nat) : Field := ⟨0x00B00000 + n * 0x1000, 0, 19⟩
/-- `LOOP_PHASE.OUT_PHASE` (R302): Output instant within the period, tide clocks (R290) -/
abbrev Reg.LOOP_PHASE_OUT_PHASE (n : Nat) : Field := ⟨0x00B00004 + n * 0x1000, 0, 19⟩
/-- `LOOP_SRC.TRIG_LEAD` (R302): Tide clocks of R291, 16–255; a write below 16 leaves the field unchanged -/
abbrev Reg.LOOP_SRC_TRIG_LEAD (n : Nat) : Field := ⟨0x00B00008 + n * 0x1000, 24, 8⟩
/-- `LOOP_SRC.MISS_LIMIT` (R302): R292, 1–255; a write of 0 leaves the field unchanged -/
abbrev Reg.LOOP_SRC_MISS_LIMIT (n : Nat) : Field := ⟨0x00B00008 + n * 0x1000, 16, 8⟩
/-- `LOOP_SRC.REQ_CLOSED` (R302): R301 -/
abbrev Reg.LOOP_SRC_REQ_CLOSED (n : Nat) : Field := ⟨0x00B00008 + n * 0x1000, 8, 1⟩
/-- `LOOP_SRC.REF_SRC` (R302): 1: add the feedforward of R295 -/
abbrev Reg.LOOP_SRC_REF_SRC (n : Nat) : Field := ⟨0x00B00008 + n * 0x1000, 4, 1⟩
/-- `LOOP_SRC.FB_SRC` (R302): Feedback of R293 -/
abbrev Reg.LOOP_SRC_FB_SRC (n : Nat) : Field := ⟨0x00B00008 + n * 0x1000, 0, 3⟩
/-- `LOOP_YORG.ORG` (R302): Count subtracted in R293 -/
abbrev Reg.LOOP_YORG_ORG (n : Nat) : Field := ⟨0x00B00010 + n * 0x1000, 0, 40⟩
/-- `LOOP_REF.TARGET` (R302): TARGET s24; STEP u24, LSB per sample (R295) -/
abbrev Reg.LOOP_REF_TARGET (n : Nat) : Field := ⟨0x00B00018 + n * 0x1000, 0, 24⟩
/-- `LOOP_REF_STEP.STEP` (R302): TARGET s24; STEP u24, LSB per sample (R295) -/
abbrev Reg.LOOP_REF_STEP_STEP (n : Nat) : Field := ⟨0x00B0001C + n * 0x1000, 0, 24⟩
/-- `LOOP_KFF.KFF` (R302): s32, 2^−16 LSB per count -/
abbrev Reg.LOOP_KFF_KFF (n : Nat) : Field := ⟨0x00B00020 + n * 0x1000, 0, 32⟩
/-- `LOOP_MODE.STATE` (R302): Mode in force, coded as REQ -/
abbrev Reg.LOOP_MODE_STATE (n : Nat) : Field := ⟨0x00B00024 + n * 0x1000, 16, 2⟩
/-- `LOOP_MODE.SWAP` (R302): Swap banks at the next capture (R298); reads 1 until done -/
abbrev Reg.LOOP_MODE_SWAP (n : Nat) : Field := ⟨0x00B00024 + n * 0x1000, 8, 1⟩
/-- `LOOP_MODE.ACTIVE_BANK` (R302): Bank in use -/
abbrev Reg.LOOP_MODE_ACTIVE_BANK (n : Nat) : Field := ⟨0x00B00024 + n * 0x1000, 4, 1⟩
/-- `LOOP_MODE.REQ` (R302): 0 SAFE, 1 OPEN, 2 CLOSED; 3 leaves the field unchanged -/
abbrev Reg.LOOP_MODE_REQ (n : Nat) : Field := ⟨0x00B00024 + n * 0x1000, 0, 2⟩
/-- `LOOP_SAFE.VALUE` (R302): SAFE and OPEN: s24 output. SLEW: u24, LSB per sample, 0 off -/
abbrev Reg.LOOP_SAFE_VALUE (n : Nat) : Field := ⟨0x00B00028 + n * 0x1000, 0, 24⟩
/-- `LOOP_OPEN.VALUE` (R302): SAFE and OPEN: s24 output. SLEW: u24, LSB per sample, 0 off -/
abbrev Reg.LOOP_OPEN_VALUE (n : Nat) : Field := ⟨0x00B0002C + n * 0x1000, 0, 24⟩
/-- `LOOP_SLEW.VALUE` (R302): SAFE and OPEN: s24 output. SLEW: u24, LSB per sample, 0 off -/
abbrev Reg.LOOP_SLEW_VALUE (n : Nat) : Field := ⟨0x00B00030 + n * 0x1000, 0, 24⟩
/-- `LOOP_SUP.WIN` (R302): Excursion window, feedback LSB -/
abbrev Reg.LOOP_SUP_WIN (n : Nat) : Field := ⟨0x00B00034 + n * 0x1000, 16, 16⟩
/-- `LOOP_SUP.N` (R302): Consecutive excursions to fault; 0 disables -/
abbrev Reg.LOOP_SUP_N (n : Nat) : Field := ⟨0x00B00034 + n * 0x1000, 8, 8⟩
/-- `LOOP_SUP.BREAK_EN` (R302): Break on fault (R300) -/
abbrev Reg.LOOP_SUP_BREAK_EN (n : Nat) : Field := ⟨0x00B00034 + n * 0x1000, 1, 1⟩
/-- `LOOP_SUP.ACT` (R302): 1: enter SAFE on fault -/
abbrev Reg.LOOP_SUP_ACT (n : Nat) : Field := ⟨0x00B00034 + n * 0x1000, 0, 1⟩
/-- `LOOP_SUP_ALPHA.ALPHA` (R302): 1/65,536 per sample -/
abbrev Reg.LOOP_SUP_ALPHA_ALPHA (n : Nat) : Field := ⟨0x00B00038 + n * 0x1000, 0, 16⟩
/-- `LOOP_STATUS.SAT` (R302): Last output saturated -/
abbrev Reg.LOOP_STATUS_SAT (n : Nat) : Field := ⟨0x00B0003C + n * 0x1000, 31, 1⟩
/-- `LOOP_STATUS.SLEWING` (R302): Slew limit engaged -/
abbrev Reg.LOOP_STATUS_SLEWING (n : Nat) : Field := ⟨0x00B0003C + n * 0x1000, 30, 1⟩
/-- `LOOP_STATUS.SUP_FAIL` (R302): R300 -/
abbrev Reg.LOOP_STATUS_SUP_FAIL (n : Nat) : Field := ⟨0x00B0003C + n * 0x1000, 29, 1⟩
/-- `LOOP_STATUS.SENSOR_OK` (R302): Last sample not missed -/
abbrev Reg.LOOP_STATUS_SENSOR_OK (n : Nat) : Field := ⟨0x00B0003C + n * 0x1000, 28, 1⟩
/-- `LOOP_STATUS.OUT` (R302): Last output, s24 -/
abbrev Reg.LOOP_STATUS_OUT (n : Nat) : Field := ⟨0x00B0003C + n * 0x1000, 0, 24⟩
/-- `LOOP_BK_COEF.C` (R302): s32, 2^−28; k = 0–3 B0–B3, 4–6 A1–A3, 7 KI. A write to the active bank has no effect (R298). -/
abbrev Reg.LOOP_BK_COEF_C (n : Nat) (i : Nat) (j : Nat) : Field := ⟨0x00B00100 + n * 0x1000 + i * 0x40 + j * 0x4, 0, 32⟩
/-- `LOOP_BK_LIM.ORDER` (R302): 0 2p2z, 1 3p3z -/
abbrev Reg.LOOP_BK_LIM_ORDER (n : Nat) (i : Nat) : Field := ⟨0x00B00120 + n * 0x1000 + i * 0x40 + 4, 24, 1⟩
/-- `LOOP_BK_LIM.HI` (R302): s24 -/
abbrev Reg.LOOP_BK_LIM_HI (n : Nat) (i : Nat) : Field := ⟨0x00B00120 + n * 0x1000 + i * 0x40, 24, 24⟩
/-- `LOOP_BK_LIM.LO` (R302): s24 -/
abbrev Reg.LOOP_BK_LIM_LO (n : Nat) (i : Nat) : Field := ⟨0x00B00120 + n * 0x1000 + i * 0x40, 0, 24⟩
/-- `LOOP_CNT.SAT` (R302): Sticky saturation (R10) -/
abbrev Reg.LOOP_CNT_SAT (n : Nat) (i : Nat) : Field := ⟨0x00B00080 + n * 0x1000 + i * 0x8 + 4, 31, 1⟩
/-- `LOOP_CNT.COUNT` (R302): 0 samples; 1 missed samples; 2 saturated outputs; 3 excursions -/
abbrev Reg.LOOP_CNT_COUNT (n : Nat) (i : Nat) : Field := ⟨0x00B00080 + n * 0x1000 + i * 0x8, 0, 48⟩
/-- `EXP_CTRL.NEAP_EN` (R326): Enter NEAP under R325 -/
abbrev Reg.EXP_CTRL_NEAP_EN : Field := ⟨0x00C00000, 16, 1⟩
/-- `EXP_CTRL.REPAIR_PASSES` (R326): Repair passes of R321, 1–15; a write of 0 leaves the field unchanged -/
abbrev Reg.EXP_CTRL_REPAIR_PASSES : Field := ⟨0x00C00000, 8, 4⟩
/-- `EXP_CTRL.AUTO_RESUME` (R326): Resume causes marked "Auto" without a host descriptor -/
abbrev Reg.EXP_CTRL_AUTO_RESUME : Field := ⟨0x00C00000, 0, 1⟩
/-- `EXP_STATE.SLOT` (R326): Strip record of the open strip, 0–15; 0x1F none -/
abbrev Reg.EXP_STATE_SLOT : Field := ⟨0x00C00004, 16, 5⟩
/-- `EXP_STATE.OPEN` (R326): A strip is open -/
abbrev Reg.EXP_STATE_OPEN : Field := ⟨0x00C00004, 7, 1⟩
/-- `EXP_STATE.LOW_LEAD` (R326): Lead low (R310) -/
abbrev Reg.EXP_STATE_LOW_LEAD : Field := ⟨0x00C00004, 6, 1⟩
/-- `EXP_STATE.STOP_PLANNED` (R326): A stop is planned (R312) -/
abbrev Reg.EXP_STATE_STOP_PLANNED : Field := ⟨0x00C00004, 5, 1⟩
/-- `EXP_STATE.DIR` (R326): 0 swash, 1 backwash -/
abbrev Reg.EXP_STATE_DIR : Field := ⟨0x00C00004, 4, 1⟩
/-- `EXP_STATE.STATE` (R326): State, coded as in R305 -/
abbrev Reg.EXP_STATE_STATE : Field := ⟨0x00C00004, 0, 3⟩
/-- `EXP_PLAN.CAUSE` (R326): CAUSE of R315; bit 7 seam stop -/
abbrev Reg.EXP_PLAN_CAUSE : Field := ⟨0x00C00008 + 4, 24, 8⟩
/-- `EXP_PLAN.TICK` (R326): Tick index of the planned t_B or t_s; all ones when none is planned -/
abbrev Reg.EXP_PLAN_TICK : Field := ⟨0x00C00008, 0, 48⟩
/-- `EXP_BREAK.CAUSE` (R326): CAUSE of the last stop -/
abbrev Reg.EXP_BREAK_CAUSE : Field := ⟨0x00C00010 + 4, 24, 8⟩
/-- `EXP_BREAK.KIND` (R326): 0 none, 1 hardware, 2 prompt, 3 planned -/
abbrev Reg.EXP_BREAK_KIND : Field := ⟨0x00C00010 + 4, 22, 2⟩
/-- `EXP_BREAK.TICK` (R326): Tick index T_S + t_B -/
abbrev Reg.EXP_BREAK_TICK : Field := ⟨0x00C00010, 0, 48⟩
/-- `EXP_RESUME.PASSES` (R326): Passes of the current or last resume -/
abbrev Reg.EXP_RESUME_PASSES : Field := ⟨0x00C00018 + 4, 24, 8⟩
/-- `EXP_RESUME.TICK` (R326): Tick index of t_a -/
abbrev Reg.EXP_RESUME_TICK : Field := ⟨0x00C00018, 0, 48⟩
/-- `EXP_WAIT.WAIT` (R326): Bit set while the condition is unmet: 0 order or auxiliary job; 1 chains or drivers; 2 couch; 3 loops; 4 permit or enable; 5 head temperature; 6 vats; -/
abbrev Reg.EXP_WAIT_WAIT : Field := ⟨0x00C00020, 0, 15⟩
/-- `EXP_NEAP.DELAY` (R326): Milliseconds of R325 -/
abbrev Reg.EXP_NEAP_DELAY : Field := ⟨0x00C00024, 0, 16⟩
/-- `EXP_CNT.SAT` (R326): Sticky saturation (R10) -/
abbrev Reg.EXP_CNT_SAT (n : Nat) : Field := ⟨0x00C00100 + n * 0x8 + 4, 31, 1⟩
/-- `EXP_CNT.COUNT` (R326): 0 strips complete; 1 stops other than seam stops; 2 seam stops; 3 resumes; 4 marks repaired; 5 cut lines; 6 FLOODs abandoned; 7 ticks fired in EXPOSE  -/
abbrev Reg.EXP_CNT_COUNT (n : Nat) : Field := ⟨0x00C00100 + n * 0x8, 0, 48⟩
/-- `HCR_CTRL.MEAS_REQ` (R342): Measure all drivers at the next SLACK; reads 1 until that run ends -/
abbrev Reg.HCR_CTRL_MEAS_REQ : Field := ⟨0x00D00000, 31, 1⟩
/-- `HCR_CTRL.CAL_REQ` (R342): Calibrate strobes at the next SLACK; reads 1 until done -/
abbrev Reg.HCR_CTRL_CAL_REQ : Field := ⟨0x00D00000, 30, 1⟩
/-- `HCR_CTRL.MEAS_INTERVAL` (R342): Minutes of R335; 0: on request only -/
abbrev Reg.HCR_CTRL_MEAS_INTERVAL : Field := ⟨0x00D00000, 0, 16⟩
/-- `HCR_CAL_CTRL.CAL_DELTA` (R342): 1/16 °C (3.0 °C), 8–255; a write below 8 leaves the field unchanged -/
abbrev Reg.HCR_CAL_CTRL_CAL_DELTA : Field := ⟨0x00D00004, 0, 8⟩
/-- `HCR_STATUS.HOLD` (R342): Exposure held (R334) -/
abbrev Reg.HCR_STATUS_HOLD : Field := ⟨0x00D00008, 31, 1⟩
/-- `HCR_STATUS.STUCK` (R342): R334 -/
abbrev Reg.HCR_STATUS_STUCK : Field := ⟨0x00D00008, 30, 1⟩
/-- `HCR_STATUS.UNMEASURED` (R342): R334 -/
abbrev Reg.HCR_STATUS_UNMEASURED : Field := ⟨0x00D00008, 29, 1⟩
/-- `HCR_STATUS.NEW_DEAD` (R342): R334 -/
abbrev Reg.HCR_STATUS_NEW_DEAD : Field := ⟨0x00D00008, 28, 1⟩
/-- `HCR_STATUS.LATCHED_DEAD` (R342): R334 -/
abbrev Reg.HCR_STATUS_LATCHED_DEAD : Field := ⟨0x00D00008, 27, 1⟩
/-- `HCR_STATUS.RUN` (R342): 0 none, 1 measurement, 2 strobe calibration, 3 alignment, 4 proposal -/
abbrev Reg.HCR_STATUS_RUN : Field := ⟨0x00D00008, 24, 3⟩
/-- `HCR_GEN.ALIGN_GEN` (R342): Accepted ALIGN commits, wrapping (R339) -/
abbrev Reg.HCR_GEN_ALIGN_GEN : Field := ⟨0x00D0000C, 16, 16⟩
/-- `HCR_GEN.RES_GEN` (R342): Results written, wrapping (R333, R338) -/
abbrev Reg.HCR_GEN_RES_GEN : Field := ⟨0x00D0000C, 0, 16⟩
/-- `HCR_DEAD_N.COUNT` (R342): Beams DEAD, or STUCK, in `HCR_DEFECT_RES` -/
abbrev Reg.HCR_DEAD_N_COUNT : Field := ⟨0x00D00010, 0, 19⟩
/-- `HCR_STUCK_N.COUNT` (R342): Beams DEAD, or STUCK, in `HCR_DEFECT_RES` -/
abbrev Reg.HCR_STUCK_N_COUNT : Field := ⟨0x00D00014, 0, 19⟩
/-- `HCR_RMIN.LIMIT` (R342): Ω for RMIN and RMAX, pA for LMAX (R332) -/
abbrev Reg.HCR_RMIN_LIMIT : Field := ⟨0x00D00018, 0, 32⟩
/-- `HCR_RMAX.LIMIT` (R342): Ω for RMIN and RMAX, pA for LMAX (R332) -/
abbrev Reg.HCR_RMAX_LIMIT : Field := ⟨0x00D0001C, 0, 32⟩
/-- `HCR_LMAX.LIMIT` (R342): Ω for RMIN and RMAX, pA for LMAX (R332) -/
abbrev Reg.HCR_LMAX_LIMIT : Field := ⟨0x00D00020, 0, 32⟩
/-- `HCR_POLICY.LEAK_STUCK` (R342): 1: a leaky element is STUCK; 0: DEAD -/
abbrev Reg.HCR_POLICY_LEAK_STUCK : Field := ⟨0x00D00024, 2, 1⟩
/-- `HCR_POLICY.SHORT_STUCK` (R342): As above, for a short -/
abbrev Reg.HCR_POLICY_SHORT_STUCK : Field := ⟨0x00D00024, 1, 1⟩
/-- `HCR_POLICY.OPEN_STUCK` (R342): As above, for an open -/
abbrev Reg.HCR_POLICY_OPEN_STUCK : Field := ⟨0x00D00024, 0, 1⟩
/-- `HCR_MEAS_CTRL.LEAK_MV` (R342): Leakage test voltage sent in MEASURE, mV -/
abbrev Reg.HCR_MEAS_CTRL_LEAK_MV : Field := ⟨0x00D00028, 16, 16⟩
/-- `HCR_MEAS_CTRL.TIMEOUT_MS` (R342): Run limit of R331, 6–255 ms; a write below 6 leaves the field unchanged -/
abbrev Reg.HCR_MEAS_CTRL_TIMEOUT_MS : Field := ⟨0x00D00028, 0, 8⟩
/-- `HCR_ALIGN_LIM.MAX_STEP` (R342): Greatest \ -/
abbrev Reg.HCR_ALIGN_LIM_MAX_STEP : Field := ⟨0x00D0002C, 16, 16⟩
/-- `HCR_ALIGN_LIM.MAX_LINES` (R342): Greatest \ -/
abbrev Reg.HCR_ALIGN_LIM_MAX_LINES : Field := ⟨0x00D0002C, 0, 16⟩
/-- `HCR_CURVE_SEL.CURVE_3` (R342): Curve of band 3, 0–7 (R182) -/
abbrev Reg.HCR_CURVE_SEL_CURVE_3 : Field := ⟨0x00D00030, 12, 3⟩
/-- `HCR_CURVE_SEL.CURVE_2` (R342): Curve of band 2 -/
abbrev Reg.HCR_CURVE_SEL_CURVE_2 : Field := ⟨0x00D00030, 8, 3⟩
/-- `HCR_CURVE_SEL.CURVE_1` (R342): Curve of band 1 -/
abbrev Reg.HCR_CURVE_SEL_CURVE_1 : Field := ⟨0x00D00030, 4, 3⟩
/-- `HCR_CURVE_SEL.CURVE_0` (R342): Curve of band 0 -/
abbrev Reg.HCR_CURVE_SEL_CURVE_0 : Field := ⟨0x00D00030, 0, 3⟩
/-- `HCR_CURVE_SEL_RES.CURVE_3` (R342): Curve of band 3, 0–7 (R182) -/
abbrev Reg.HCR_CURVE_SEL_RES_CURVE_3 : Field := ⟨0x00D00034, 12, 3⟩
/-- `HCR_CURVE_SEL_RES.CURVE_2` (R342): Curve of band 2 -/
abbrev Reg.HCR_CURVE_SEL_RES_CURVE_2 : Field := ⟨0x00D00034, 8, 3⟩
/-- `HCR_CURVE_SEL_RES.CURVE_1` (R342): Curve of band 1 -/
abbrev Reg.HCR_CURVE_SEL_RES_CURVE_1 : Field := ⟨0x00D00034, 4, 3⟩
/-- `HCR_CURVE_SEL_RES.CURVE_0` (R342): Curve of band 0 -/
abbrev Reg.HCR_CURVE_SEL_RES_CURVE_0 : Field := ⟨0x00D00034, 0, 3⟩
/-- `HCR_STROBE_TGT.PS` (R342): Target latency in ps; 0: set at the next calibration (R340) -/
abbrev Reg.HCR_STROBE_TGT_PS : Field := ⟨0x00D00038, 0, 16⟩
/-- `HCR_STROBE_LIM.STEP_MAX` (R342): Greatest tap step, ps -/
abbrev Reg.HCR_STROBE_LIM_STEP_MAX : Field := ⟨0x00D0003C, 24, 8⟩
/-- `HCR_STROBE_LIM.STEP_MIN` (R342): Least tap step, ps -/
abbrev Reg.HCR_STROBE_LIM_STEP_MIN : Field := ⟨0x00D0003C, 16, 8⟩
/-- `HCR_STROBE_LIM.SPREAD` (R342): Greatest departure from the lane median, % -/
abbrev Reg.HCR_STROBE_LIM_SPREAD : Field := ⟨0x00D0003C, 0, 8⟩
/-- `HCR_CAL_TEMP.TEMP` (R342): s16, 1/16 °C; 0x8000: never calibrated, which makes a calibration due -/
abbrev Reg.HCR_CAL_TEMP_TEMP : Field := ⟨0x00D00040, 0, 16⟩
/-- `HCR_CNT.SAT` (R342): Sticky saturation (R10) -/
abbrev Reg.HCR_CNT_SAT (n : Nat) : Field := ⟨0x00D00100 + n * 0x8 + 4, 31, 1⟩
/-- `HCR_CNT.COUNT` (R342): 0 runs complete; 1 drivers incomplete; 2 MEASURE restarts; 3 strobe calibrations; 4 lanes kept; 5 alignment jobs rejected -/
abbrev Reg.HCR_CNT_COUNT (n : Nat) : Field := ⟨0x00D00100 + n * 0x8, 0, 48⟩
/-- `HCR_ALIGN.RESID` (R342): s8, residual of R337, 1/64 line -/
abbrev Reg.HCR_ALIGN_RESID (n : Nat) : Field := ⟨0x00D01000 + n * 0x4, 24, 8⟩
/-- `HCR_ALIGN.TRIM` (R342): s8, trim(b, c), −16 to 15 -/
abbrev Reg.HCR_ALIGN_TRIM (n : Nat) : Field := ⟨0x00D01000 + n * 0x4, 16, 8⟩
/-- `HCR_ALIGN.ALIGN` (R342): s16, align(b, c), lines -/
abbrev Reg.HCR_ALIGN_ALIGN (n : Nat) : Field := ⟨0x00D01000 + n * 0x4, 0, 16⟩
/-- `HCR_ALIGN_RES.RESID` (R342): s8, residual of R337, 1/64 line -/
abbrev Reg.HCR_ALIGN_RES_RESID (n : Nat) : Field := ⟨0x00D02000 + n * 0x4, 24, 8⟩
/-- `HCR_ALIGN_RES.TRIM` (R342): s8, trim(b, c), −16 to 15 -/
abbrev Reg.HCR_ALIGN_RES_TRIM (n : Nat) : Field := ⟨0x00D02000 + n * 0x4, 16, 8⟩
/-- `HCR_ALIGN_RES.ALIGN` (R342): s16, align(b, c), lines -/
abbrev Reg.HCR_ALIGN_RES_ALIGN (n : Nat) : Field := ⟨0x00D02000 + n * 0x4, 0, 16⟩
/-- `HCR_DRV_SERIAL.SERIAL` (R342): IDENT serial at the driver's last complete measurement -/
abbrev Reg.HCR_DRV_SERIAL_SERIAL (n : Nat) : Field := ⟨0x00D04000 + n * 0x4, 0, 32⟩
/-- `HCR_DEFECT.STATES` (R342): Beam index 16·w + i, numbered as in `CCH_MASK`. 0 GOOD, 1 DEAD, 2 STUCK, 3 UNKNOWN. The committed map holds only 0 and 1, and a proposal carrying 2 or -/
abbrev Reg.HCR_DEFECT_STATES (n : Nat) : Field := ⟨0x00D10000 + n * 0x4, 0, 32⟩
/-- `HCR_DEFECT_RES.STATES` (R342): Beam index 16·w + i, numbered as in `CCH_MASK`. 0 GOOD, 1 DEAD, 2 STUCK, 3 UNKNOWN. The committed map holds only 0 and 1, and a proposal carrying 2 or -/
abbrev Reg.HCR_DEFECT_RES_STATES (n : Nat) : Field := ⟨0x00D20000 + n * 0x4, 0, 32⟩
/-- `AUX_CFG.STEP_HI` (R360): Tide clocks high, 40–255; a write below 40 leaves the field unchanged -/
abbrev Reg.AUX_CFG_STEP_HI (n : Nat) : Field := ⟨0x00E00000 + n * 0x1000, 24, 8⟩
/-- `AUX_CFG.STEP_LO` (R360): Tide clocks low, 40–255; as above -/
abbrev Reg.AUX_CFG_STEP_LO (n : Nat) : Field := ⟨0x00E00000 + n * 0x1000, 16, 8⟩
/-- `AUX_CFG.DIR_SETUP` (R360): Tide clocks of R346, 40–255; as above -/
abbrev Reg.AUX_CFG_DIR_SETUP (n : Nat) : Field := ⟨0x00E00000 + n * 0x1000, 8, 8⟩
/-- `AUX_CFG.DIR_INV` (R360): R345 -/
abbrev Reg.AUX_CFG_DIR_INV (n : Nat) : Field := ⟨0x00E00000 + n * 0x1000, 7, 1⟩
/-- `AUX_CFG.EXPOSE_LOCK` (R360): R359 -/
abbrev Reg.AUX_CFG_EXPOSE_LOCK (n : Nat) : Field := ⟨0x00E00000 + n * 0x1000, 6, 1⟩
/-- `AUX_CFG.ENC_EN` (R360): Encoder comparison (R352) -/
abbrev Reg.AUX_CFG_ENC_EN (n : Nat) : Field := ⟨0x00E00000 + n * 0x1000, 5, 1⟩
/-- `AUX_CFG.ENC_INV` (R360): Reverse encoder count -/
abbrev Reg.AUX_CFG_ENC_INV (n : Nat) : Field := ⟨0x00E00000 + n * 0x1000, 4, 1⟩
/-- `AUX_CFG.LO_POL` (R360): Active level of LIM_LO[n] -/
abbrev Reg.AUX_CFG_LO_POL (n : Nat) : Field := ⟨0x00E00000 + n * 0x1000, 3, 1⟩
/-- `AUX_CFG.HI_POL` (R360): Active level of LIM_HI[n] -/
abbrev Reg.AUX_CFG_HI_POL (n : Nat) : Field := ⟨0x00E00000 + n * 0x1000, 2, 1⟩
/-- `AUX_CFG.BLEND` (R360): 0 polynomial, 1 sinusoidal -/
abbrev Reg.AUX_CFG_BLEND (n : Nat) : Field := ⟨0x00E00000 + n * 0x1000, 1, 1⟩
/-- `AUX_CFG.EN` (R360): Axis enabled -/
abbrev Reg.AUX_CFG_EN (n : Nat) : Field := ⟨0x00E00000 + n * 0x1000, 0, 1⟩
/-- `AUX_VMAX.LIMIT` (R360): Microsteps/s, /s² or /s³; 0 permits no motion; applied under R356 -/
abbrev Reg.AUX_VMAX_LIMIT (n : Nat) : Field := ⟨0x00E00004 + n * 0x1000, 0, 32⟩
/-- `AUX_AMAX.LIMIT` (R360): Microsteps/s, /s² or /s³; 0 permits no motion; applied under R356 -/
abbrev Reg.AUX_AMAX_LIMIT (n : Nat) : Field := ⟨0x00E00008 + n * 0x1000, 0, 32⟩
/-- `AUX_JMAX.LIMIT` (R360): Microsteps/s, /s² or /s³; 0 permits no motion; applied under R356 -/
abbrev Reg.AUX_JMAX_LIMIT (n : Nat) : Field := ⟨0x00E0000C + n * 0x1000, 0, 32⟩
/-- `AUX_PMIN.POS` (R360): s48 microsteps (R351) -/
abbrev Reg.AUX_PMIN_POS (n : Nat) : Field := ⟨0x00E00010 + n * 0x1000, 0, 48⟩
/-- `AUX_PMAX.POS` (R360): s48 microsteps (R351) -/
abbrev Reg.AUX_PMAX_POS (n : Nat) : Field := ⟨0x00E00018 + n * 0x1000, 0, 48⟩
/-- `AUX_POS.REF` (R360): Axis referenced -/
abbrev Reg.AUX_POS_REF (n : Nat) : Field := ⟨0x00E00020 + n * 0x1000 + 4, 31, 1⟩
/-- `AUX_POS.COUNT` (R360): S, s48 microsteps -/
abbrev Reg.AUX_POS_COUNT (n : Nat) : Field := ⟨0x00E00020 + n * 0x1000, 0, 48⟩
/-- `AUX_ENC.DEV` (R360): s16 deviation of R352, saturating -/
abbrev Reg.AUX_ENC_DEV (n : Nat) : Field := ⟨0x00E00028 + n * 0x1000 + 4, 0, 16⟩
/-- `AUX_ENC.COUNT` (R360): Encoder count E, wrapping (R9) -/
abbrev Reg.AUX_ENC_COUNT (n : Nat) : Field := ⟨0x00E00028 + n * 0x1000, 0, 32⟩
/-- `AUX_ENC_RATIO.RATIO` (R360): Encoder counts per microstep, u16.16; a write of 0 leaves the field unchanged -/
abbrev Reg.AUX_ENC_RATIO_RATIO (n : Nat) : Field := ⟨0x00E00030 + n * 0x1000, 0, 32⟩
/-- `AUX_DEV.TIME` (R360): µs of R353, 10–65,535; a write below 10 leaves the field unchanged -/
abbrev Reg.AUX_DEV_TIME (n : Nat) : Field := ⟨0x00E00034 + n * 0x1000, 16, 16⟩
/-- `AUX_DEV.WIN` (R360): Microsteps -/
abbrev Reg.AUX_DEV_WIN (n : Nat) : Field := ⟨0x00E00034 + n * 0x1000, 0, 16⟩
/-- `AUX_SETTLE.END_WIN` (R360): Microsteps -/
abbrev Reg.AUX_SETTLE_END_WIN (n : Nat) : Field := ⟨0x00E00038 + n * 0x1000, 16, 16⟩
/-- `AUX_SETTLE.SETTLE_MS` (R360): ms -/
abbrev Reg.AUX_SETTLE_SETTLE_MS (n : Nat) : Field := ⟨0x00E00038 + n * 0x1000, 0, 16⟩
/-- `AUX_HOME.DIR` (R360): 0 toward LIM_LO, 1 toward LIM_HI -/
abbrev Reg.AUX_HOME_DIR (n : Nat) : Field := ⟨0x00E00040 + n * 0x1000 + 4, 31, 1⟩
/-- `AUX_HOME.USE_INDEX` (R360): Reference at ENC_Z after release -/
abbrev Reg.AUX_HOME_USE_INDEX (n : Nat) : Field := ⟨0x00E00040 + n * 0x1000 + 4, 30, 1⟩
/-- `AUX_HOME.POS` (R360): s48 count taken at the reference -/
abbrev Reg.AUX_HOME_POS (n : Nat) : Field := ⟨0x00E00040 + n * 0x1000, 0, 48⟩
/-- `AUX_HOME_V.V` (R360): Microsteps/s -/
abbrev Reg.AUX_HOME_V_V (n : Nat) : Field := ⟨0x00E00048 + n * 0x1000, 0, 32⟩
/-- `AUX_FILT.LIM_FILT` (R360): µs, 1–255; a write of 0 leaves the field unchanged -/
abbrev Reg.AUX_FILT_LIM_FILT (n : Nat) : Field := ⟨0x00E0004C + n * 0x1000, 8, 8⟩
/-- `AUX_FILT.ENC_FILT` (R360): As `TID_POS_CFG.FILT` -/
abbrev Reg.AUX_FILT_ENC_FILT (n : Nat) : Field := ⟨0x00E0004C + n * 0x1000, 0, 2⟩
/-- `AUX_STATUS.FAULT_CAUSE` (R360): 0 none, 1 STALL, 2 LOST_STEPS, 3 LIMIT -/
abbrev Reg.AUX_STATUS_FAULT_CAUSE (n : Nat) : Field := ⟨0x00E00050 + n * 0x1000, 24, 4⟩
/-- `AUX_STATUS.STATE` (R360): State code -/
abbrev Reg.AUX_STATUS_STATE (n : Nat) : Field := ⟨0x00E00050 + n * 0x1000, 16, 3⟩
/-- `AUX_STATUS.LIM_HI` (R360): Filtered LIM_HI active -/
abbrev Reg.AUX_STATUS_LIM_HI (n : Nat) : Field := ⟨0x00E00050 + n * 0x1000, 3, 1⟩
/-- `AUX_STATUS.LIM_LO` (R360): Filtered LIM_LO active -/
abbrev Reg.AUX_STATUS_LIM_LO (n : Nat) : Field := ⟨0x00E00050 + n * 0x1000, 2, 1⟩
/-- `AUX_STATUS.DEFERRED` (R360): A limit change is deferred (R356) -/
abbrev Reg.AUX_STATUS_DEFERRED (n : Nat) : Field := ⟨0x00E00050 + n * 0x1000, 0, 1⟩
/-- `AUX_CTRL.CLEAR` (R360): From FAULT: sets Δ := Ê − S and enters IDLE; no effect otherwise -/
abbrev Reg.AUX_CTRL_CLEAR (n : Nat) : Field := ⟨0x00E00054 + n * 0x1000, 31, 1⟩
/-- `AUX_CTRL.STOP` (R360): From MOVE, TABLE or HOME: enter STOP; the job ends STOPPED and holds its ring (R358) -/
abbrev Reg.AUX_CTRL_STOP (n : Nat) : Field := ⟨0x00E00054 + n * 0x1000, 30, 1⟩
/-- `AUX_CNT.SAT` (R360): Sticky saturation (R10) -/
abbrev Reg.AUX_CNT_SAT (n : Nat) (i : Nat) : Field := ⟨0x00E00100 + n * 0x1000 + i * 0x8 + 4, 31, 1⟩
/-- `AUX_CNT.COUNT` (R360): 0 steps emitted; 1 phases completed; 2 faults; 3 limit changes deferred -/
abbrev Reg.AUX_CNT_COUNT (n : Nat) (i : Nat) : Field := ⟨0x00E00100 + n * 0x1000 + i * 0x8, 0, 48⟩
/-- `AUX_HOLD.ACTION` (R360): 1 RETRY, 2 SKIP (R358); 0 and 3 have no effect -/
abbrev Reg.AUX_HOLD_ACTION : Field := ⟨0x00E0F000, 30, 2⟩
/-- `AUX_HOLD.RING` (R360): Submission ring to release -/
abbrev Reg.AUX_HOLD_RING : Field := ⟨0x00E0F000, 0, 5⟩
/-- `AUX_HOLD_STATUS.HELD` (R360): Bit r set while ring r is held -/
abbrev Reg.AUX_HOLD_STATUS_HELD : Field := ⟨0x00E0F004, 0, 32⟩
/-- `CSC_CFG.DEVICES` (R380): Devices in the cascade, 1–4; other values leave the field unchanged -/
abbrev Reg.CSC_CFG_DEVICES : Field := ⟨0x00F00000, 8, 3⟩
/-- `CSC_CFG.PORT_EN` (R380): Master: bit p enables port p. Slave: ignored; port 0 is used -/
abbrev Reg.CSC_CFG_PORT_EN : Field := ⟨0x00F00000, 4, 3⟩
/-- `CSC_CFG.DEVICE` (R380): This device's position, 0–3 -/
abbrev Reg.CSC_CFG_DEVICE : Field := ⟨0x00F00000, 0, 2⟩
/-- `CSC_STATUS.SLAVE` (R380): CSC_SLAVE as read at AON power-up (R363) -/
abbrev Reg.CSC_STATUS_SLAVE : Field := ⟨0x00F00004, 31, 1⟩
/-- `CSC_STATUS.CONFIG_OK` (R380): R366 holds -/
abbrev Reg.CSC_STATUS_CONFIG_OK : Field := ⟨0x00F00004, 30, 1⟩
/-- `CSC_STATUS.LFIX` (R380): L_F in tide clocks (R370); 0 with no READY port -/
abbrev Reg.CSC_STATUS_LFIX : Field := ⟨0x00F00004, 8, 8⟩
/-- `CSC_STATUS.READY` (R380): Bit p: port p READY -/
abbrev Reg.CSC_STATUS_READY : Field := ⟨0x00F00004, 0, 3⟩
/-- `CSC_LAT.TOL` (R380): Tolerance of R369 in 0.1 ns, 5–65,535; a write below 5 leaves the field unchanged -/
abbrev Reg.CSC_LAT_TOL : Field := ⟨0x00F00008, 0, 16⟩
/-- `CSC_PORT.ONEWAY` (R380): W_p of R368, 0.1 ns -/
abbrev Reg.CSC_PORT_ONEWAY (n : Nat) : Field := ⟨0x00F00010 + n * 0x4, 16, 16⟩
/-- `CSC_PORT.LANES` (R380): Bit i: lane i aligned -/
abbrev Reg.CSC_PORT_LANES (n : Nat) : Field := ⟨0x00F00010 + n * 0x4, 8, 2⟩
/-- `CSC_PORT.CAUSE` (R380): Failure cause of R367; 0 none -/
abbrev Reg.CSC_PORT_CAUSE (n : Nat) : Field := ⟨0x00F00010 + n * 0x4, 4, 4⟩
/-- `CSC_PORT.STATE` (R380): Code of R367; 7 FAILED -/
abbrev Reg.CSC_PORT_STATE (n : Nat) : Field := ⟨0x00F00010 + n * 0x4, 0, 4⟩
/-- `CSC_SKEW.SKEW` (R380): s16, 0.1 ns, added to W_p (R368) -/
abbrev Reg.CSC_SKEW_SKEW (n : Nat) : Field := ⟨0x00F00020 + n * 0x4, 0, 16⟩
/-- `CSC_CNT.SAT` (R380): Sticky saturation (R10) -/
abbrev Reg.CSC_CNT_SAT (n : Nat) : Field := ⟨0x00F00100 + n * 0x8 + 4, 31, 1⟩
/-- `CSC_CNT.COUNT` (R380): 0 messages with CRC failure on one lane; 1 resends; 2 halo messages sent; 3 halo messages received; 4 stops relayed; 5 link losses -/
abbrev Reg.CSC_CNT_COUNT (n : Nat) : Field := ⟨0x00F00100 + n * 0x8, 0, 48⟩
/-- `MEM_CFG.REG` (R404): 1: registered modules; 0: devices on the board -/
abbrev Reg.MEM_CFG_REG : Field := ⟨0x01000000, 9, 1⟩
/-- `MEM_CFG.RANKS` (R404): 0 one rank, 1 two ranks -/
abbrev Reg.MEM_CFG_RANKS : Field := ⟨0x01000000, 8, 1⟩
/-- `MEM_CFG.DENSITY` (R404): 0 16 Gb, 1 24 Gb, 2 32 Gb; 3 fails INIT (0x0E09) -/
abbrev Reg.MEM_CFG_DENSITY : Field := ⟨0x01000000, 4, 2⟩
/-- `MEM_CFG.RATE` (R404): 0 4,800, 1 5,600, 2 6,400 MT/s; a write of 3 leaves the field unchanged. Applied at the next training (R401, R403) -/
abbrev Reg.MEM_CFG_RATE : Field := ⟨0x01000000, 0, 2⟩
/-- `MEM_ILV.GRAIN` (R404): log2 of G, 8–16 (256 B to 64 KiB); other writes leave the field unchanged. Applied at the next training -/
abbrev Reg.MEM_ILV_GRAIN : Field := ⟨0x01000004, 0, 4⟩
/-- `MEM_CTRL.RETRAIN` (R404): Retrain and initialise under R403; reads 1 until READY returns -/
abbrev Reg.MEM_CTRL_RETRAIN : Field := ⟨0x01000008, 31, 1⟩
/-- `MEM_STATUS.READY` (R404): Trained and initialised -/
abbrev Reg.MEM_STATUS_READY : Field := ⟨0x0100000C, 31, 1⟩
/-- `MEM_STATUS.TRAINING` (R404): Training or initialisation in progress -/
abbrev Reg.MEM_STATUS_TRAINING : Field := ⟨0x0100000C, 30, 1⟩
/-- `MEM_STATUS.RATE` (R404): Rate in force, coded as `MEM_CFG.RATE`; valid while READY is 1 -/
abbrev Reg.MEM_STATUS_RATE : Field := ⟨0x0100000C, 28, 2⟩
/-- `MEM_STATUS.STEP` (R404): Step of R399 in progress; 0 none -/
abbrev Reg.MEM_STATUS_STEP : Field := ⟨0x0100000C, 16, 8⟩
/-- `MEM_STATUS.HOT` (R404): Bit ch: channel hot (R397) -/
abbrev Reg.MEM_STATUS_HOT : Field := ⟨0x0100000C, 8, 6⟩
/-- `MEM_STATUS.FAILED` (R404): Bit ch: channel failed training (R400) -/
abbrev Reg.MEM_STATUS_FAILED : Field := ⟨0x0100000C, 0, 6⟩
/-- `MEM_SIZE.BYTES` (R404): `MEM_SIZE` of R386; 0 until READY -/
abbrev Reg.MEM_SIZE_BYTES : Field := ⟨0x01000010, 0, 39⟩
/-- `MEM_REF.POSTPONE_MAX` (R404): Limit of R396, 1–8; a write of 0 or above 8 leaves the field unchanged -/
abbrev Reg.MEM_REF_POSTPONE_MAX : Field := ⟨0x01000018, 4, 4⟩
/-- `MEM_REF.MODE` (R404): 0 native (R395), 1 compatibility (R396) -/
abbrev Reg.MEM_REF_MODE : Field := ⟨0x01000018, 0, 1⟩
/-- `MEM_THERM.POLL_US` (R404): µs between polls of R397, 16–65,535; a write below 16 leaves the field unchanged -/
abbrev Reg.MEM_THERM_POLL_US : Field := ⟨0x0100001C, 0, 16⟩
/-- `MEM_SCHED.WR_HI` (R404): Drain entry of R394, 8–64 -/
abbrev Reg.MEM_SCHED_WR_HI : Field := ⟨0x01000020, 16, 8⟩
/-- `MEM_SCHED.WR_LO` (R404): Drain exit, 0 to WR_HI − 8; a write that breaks either range leaves both fields unchanged -/
abbrev Reg.MEM_SCHED_WR_LO : Field := ⟨0x01000020, 8, 8⟩
/-- `MEM_SCHED.ROW_HIT_MAX` (R404): R393, 1–255; a write of 0 leaves the field unchanged -/
abbrev Reg.MEM_SCHED_ROW_HIT_MAX : Field := ⟨0x01000020, 0, 8⟩
/-- `MEM_PORT_TGT.NS` (R404): Target T of R391 in ns, 100–1,000,000. For k = 0 the field reads 0 and writes have no effect -/
abbrev Reg.MEM_PORT_TGT_NS (n : Nat) : Field := ⟨0x01000040 + n * 0x4, 0, 20⟩
/-- `MEM_TRN_STATE.ATTEMPT` (R404): Attempt of the current instance, 1–3 -/
abbrev Reg.MEM_TRN_STATE_ATTEMPT (n : Nat) : Field := ⟨0x01000100 + n * 0x4, 24, 8⟩
/-- `MEM_TRN_STATE.STEP` (R404): Step of R399 -/
abbrev Reg.MEM_TRN_STATE_STEP (n : Nat) : Field := ⟨0x01000100 + n * 0x4, 16, 8⟩
/-- `MEM_TRN_STATE.RANK` (R404): Rank of the instance -/
abbrev Reg.MEM_TRN_STATE_RANK (n : Nat) : Field := ⟨0x01000100 + n * 0x4, 8, 1⟩
/-- `MEM_TRN_STATE.RESULT` (R404): 0 running, 1 passed, 2 failed, 3 discarded (R401) -/
abbrev Reg.MEM_TRN_STATE_RESULT (n : Nat) : Field := ⟨0x01000100 + n * 0x4, 0, 8⟩
/-- `MEM_TRN_MASK.LANES` (R404): Bit l: lane l erred in the last comparison; lanes 32–39 carry check symbols -/
abbrev Reg.MEM_TRN_MASK_LANES (n : Nat) (i : Nat) : Field := ⟨0x01000200 + n * 0x10 + i * 0x8, 0, 40⟩
/-- `MEM_LANE.WR_DLY` (R404): Write delay, 1/64 UI -/
abbrev Reg.MEM_LANE_WR_DLY (n : Nat) (i : Nat) (j : Nat) : Field := ⟨0x01001000 + n * 0x200 + i * 0x100 + j * 0x4, 24, 8⟩
/-- `MEM_LANE.RD_DLY` (R404): Read delay, 1/64 UI -/
abbrev Reg.MEM_LANE_RD_DLY (n : Nat) (i : Nat) (j : Nat) : Field := ⟨0x01001000 + n * 0x200 + i * 0x100 + j * 0x4, 16, 8⟩
/-- `MEM_LANE.VREF_DQ` (R404): Device VrefDQ code -/
abbrev Reg.MEM_LANE_VREF_DQ (n : Nat) (i : Nat) (j : Nat) : Field := ⟨0x01001000 + n * 0x200 + i * 0x100 + j * 0x4, 8, 8⟩
/-- `MEM_LANE.RD_VREF` (R404): Controller receiver reference code -/
abbrev Reg.MEM_LANE_RD_VREF (n : Nat) (i : Nat) (j : Nat) : Field := ⟨0x01001000 + n * 0x200 + i * 0x100 + j * 0x4, 0, 8⟩
/-- `MEM_CNT.SAT` (R404): Sticky saturation (R10) -/
abbrev Reg.MEM_CNT_SAT (n : Nat) (i : Nat) : Field := ⟨0x01002000 + n * 0x40 + i * 0x8 + 4, 31, 1⟩
/-- `MEM_CNT.COUNT` (R404): 0 reads; 1 writes; 2 activates; 3 refreshes; 4 refreshes issued under R398; 5 feed reads completed after their deadline; 6 requests older than 8T (R39 -/
abbrev Reg.MEM_CNT_COUNT (n : Nat) (i : Nat) : Field := ⟨0x01002000 + n * 0x40 + i * 0x8, 0, 48⟩
/-- `INT_CTRL.SCRUB_EN` (R428): Run the scrubber (R421) -/
abbrev Reg.INT_CTRL_SCRUB_EN : Field := ⟨0x01100000, 31, 1⟩
/-- `INT_CTRL.AUTO_ERASE` (R428): Start sweeps under R411 -/
abbrev Reg.INT_CTRL_AUTO_ERASE : Field := ⟨0x01100000, 30, 1⟩
/-- `INT_CTRL.SPATROL_S` (R428): SRAM patrol period in s, 1–255; a write of 0 leaves the field unchanged -/
abbrev Reg.INT_CTRL_SPATROL_S : Field := ⟨0x01100000, 16, 8⟩
/-- `INT_CTRL.ERASE_THRESH` (R428): Count of R411, 2–65,535; a lower write leaves the field unchanged -/
abbrev Reg.INT_CTRL_ERASE_THRESH : Field := ⟨0x01100000, 0, 16⟩
/-- `INT_SCRUB.PASSES` (R428): Passes completed since READY, wrapping -/
abbrev Reg.INT_SCRUB_PASSES : Field := ⟨0x01100004, 8, 24⟩
/-- `INT_SCRUB.PERIOD_H` (R428): Hours per pass, 1–255; a write of 0 leaves the field unchanged -/
abbrev Reg.INT_SCRUB_PERIOD_H : Field := ⟨0x01100004, 0, 8⟩
/-- `INT_SCRUB_POS.ADDR` (R428): Address of the next burst to scrub -/
abbrev Reg.INT_SCRUB_POS_ADDR : Field := ⟨0x01100008, 0, 39⟩
/-- `INT_ERASE_REQ.GO` (R428): Start a sweep (R411); reads 1 until it ends -/
abbrev Reg.INT_ERASE_REQ_GO : Field := ⟨0x01100010, 31, 1⟩
/-- `INT_ERASE_REQ.CH` (R428): Channel, 0–5 -/
abbrev Reg.INT_ERASE_REQ_CH : Field := ⟨0x01100010, 5, 3⟩
/-- `INT_ERASE_REQ.SUB` (R428): Sub-channel -/
abbrev Reg.INT_ERASE_REQ_SUB : Field := ⟨0x01100010, 4, 1⟩
/-- `INT_ERASE_REQ.RANK` (R428): Rank -/
abbrev Reg.INT_ERASE_REQ_RANK : Field := ⟨0x01100010, 3, 1⟩
/-- `INT_ERASE_REQ.DEV` (R428): Device, 0–4 -/
abbrev Reg.INT_ERASE_REQ_DEV : Field := ⟨0x01100010, 0, 3⟩
/-- `INT_ERASE.STATES` (R428): [3]: erased. [2:0]: device, or 7 while a sweep runs and bit 3 is 0. 0x0: normal -/
abbrev Reg.INT_ERASE_STATES (n : Nat) : Field := ⟨0x01100040 + n * 0x4, 0, 16⟩
/-- `INT_POISON_SIG.SIG` (R428): Bytes S[4w] to S[4w + 3] of R410 -/
abbrev Reg.INT_POISON_SIG_SIG (n : Nat) : Field := ⟨0x01100060 + n * 0x4, 0, 32⟩
/-- `INT_OWNER_BASE.BASE` (R428): Range start, 64-byte aligned -/
abbrev Reg.INT_OWNER_BASE_BASE (n : Nat) : Field := ⟨0x01100100 + n * 0x10, 6, 33⟩
/-- `INT_OWNER_SIZE.SIZE` (R428): Range length in bursts -/
abbrev Reg.INT_OWNER_SIZE_SIZE (n : Nat) : Field := ⟨0x01100108 + n * 0x10, 6, 33⟩
/-- `INT_OWNER_SIZE.TAG` (R428): 0 unused; 4 LAYOUT; 5 HOST -/
abbrev Reg.INT_OWNER_SIZE_TAG (n : Nat) : Field := ⟨0x01100108 + n * 0x10 + 4, 28, 4⟩
/-- `INT_TEST_CTRL.GO` (R428): Run OP; reads 1 until done -/
abbrev Reg.INT_TEST_CTRL_GO : Field := ⟨0x01100300, 31, 1⟩
/-- `INT_TEST_CTRL.RESULT` (R428): 0 CLEAN, 1 CORRECTED, 2 POISONED, 3 UNCORRECTABLE, 4 erased-mode read -/
abbrev Reg.INT_TEST_CTRL_RESULT : Field := ⟨0x01100300, 8, 3⟩
/-- `INT_TEST_CTRL.OP` (R428): Operation of R424; 0, 6 and 7 have no effect -/
abbrev Reg.INT_TEST_CTRL_OP : Field := ⟨0x01100300, 0, 3⟩
/-- `INT_TEST_ADDR.ADDR` (R428): DRAM burst address -/
abbrev Reg.INT_TEST_ADDR_ADDR : Field := ⟨0x01100308, 6, 33⟩
/-- `INT_TEST_SRAM.OFF` (R428): Byte within the SRAM test block -/
abbrev Reg.INT_TEST_SRAM_OFF : Field := ⟨0x01100310, 16, 12⟩
/-- `INT_TEST_SRAM.RAW` (R428): The 13 bits of R414 -/
abbrev Reg.INT_TEST_SRAM_RAW : Field := ⟨0x01100310, 0, 13⟩
/-- `INT_TEST_DATA.SYM` (R428): Bytes 4k to 4k + 3, little-endian; bytes 64–79 are check symbols -/
abbrev Reg.INT_TEST_DATA_SYM (n : Nat) : Field := ⟨0x01100340 + n * 0x4, 0, 32⟩
/-- `INT_CHK_VAL.RAW` (R428): Raw value of R425, in the low 32, 32, 64 or 16 bits; the other bits read 0. Written under R427 -/
abbrev Reg.INT_CHK_VAL_RAW (n : Nat) : Field := ⟨0x01100400 + n * 0x8, 0, 64⟩
/-- `INT_CNT.SAT` (R428): Sticky saturation (R10) -/
abbrev Reg.INT_CNT_SAT (n : Nat) (i : Nat) : Field := ⟨0x01101000 + n * 0x40 + i * 0x8 + 4, 31, 1⟩
/-- `INT_CNT.COUNT` (R428): 0 CORRECTED bursts; 1 symbols corrected; 2 UNCORRECTABLE first detections; 3 poisoned bursts consumed; 4 repairs not queued; 5 erased-mode reads -/
abbrev Reg.INT_CNT_COUNT (n : Nat) (i : Nat) : Field := ⟨0x01101000 + n * 0x40 + i * 0x8, 0, 48⟩
/-- `INT_SCNT.SAT` (R428): Sticky saturation (R10) -/
abbrev Reg.INT_SCNT_SAT (n : Nat) : Field := ⟨0x01102000 + n * 0x8 + 4, 31, 1⟩
/-- `INT_SCNT.COUNT` (R428): 0 bytes corrected; 1 uncorrectable bytes read; 2 poisoned bytes read; 3 bytes rewritten by the patrol -/
abbrev Reg.INT_SCNT_COUNT (n : Nat) : Field := ⟨0x01102000 + n * 0x8, 0, 48⟩
/-- `HST_CTRL.EN` (R459): Take descriptors from enabled rings (R432) -/
abbrev Reg.HST_CTRL_EN : Field := ⟨0x00100000, 0, 1⟩
/-- `HST_STATUS.READY` (R459): Firmware running (R432) -/
abbrev Reg.HST_STATUS_READY : Field := ⟨0x00100004, 31, 1⟩
/-- `HST_STATUS.ABORTING` (R459): R457 -/
abbrev Reg.HST_STATUS_ABORTING : Field := ⟨0x00100004, 30, 1⟩
/-- `HST_STATUS.LINK_UP` (R459): Data link up -/
abbrev Reg.HST_STATUS_LINK_UP : Field := ⟨0x00100004, 29, 1⟩
/-- `HST_STATUS.SPEED` (R459): Negotiated generation, 1–5 -/
abbrev Reg.HST_STATUS_SPEED : Field := ⟨0x00100004, 20, 4⟩
/-- `HST_STATUS.WIDTH` (R459): Negotiated lanes: 1, 2, 4, 8 or 16 -/
abbrev Reg.HST_STATUS_WIDTH : Field := ⟨0x00100004, 15, 5⟩
/-- `HST_STATUS.JOBS` (R459): Jobs in flight, 0–1,024 -/
abbrev Reg.HST_STATUS_JOBS : Field := ⟨0x00100004, 0, 11⟩
/-- `HST_ABORT.KEY` (R459): 0xA5: abort (R457) -/
abbrev Reg.HST_ABORT_KEY : Field := ⟨0x00100008, 0, 8⟩
/-- `HST_RESET.KEY` (R459): 0x5A: warm reset (R458) -/
abbrev Reg.HST_RESET_KEY : Field := ⟨0x0010000C, 0, 8⟩
/-- `HST_SQ_BASE.BASE` (R459): Host address, 4 KiB aligned (R436) -/
abbrev Reg.HST_SQ_BASE_BASE (n : Nat) : Field := ⟨0x00101000 + n * 0x20, 12, 52⟩
/-- `HST_SQ_CFG.EN` (R459): Ring enabled; cleared by a ring error -/
abbrev Reg.HST_SQ_CFG_EN (n : Nat) : Field := ⟨0x00101008 + n * 0x20, 31, 1⟩
/-- `HST_SQ_CFG.SIZE` (R459): log2 of entries, 4–16; other writes leave the field unchanged -/
abbrev Reg.HST_SQ_CFG_SIZE (n : Nat) : Field := ⟨0x00101008 + n * 0x20, 16, 5⟩
/-- `HST_SQ_CFG.EQ` (R459): Event ring of its completions -/
abbrev Reg.HST_SQ_CFG_EQ (n : Nat) : Field := ⟨0x00101008 + n * 0x20, 0, 3⟩
/-- `HST_SQ_IDX.PROD` (R459): Last doorbell value accepted -/
abbrev Reg.HST_SQ_IDX_PROD (n : Nat) : Field := ⟨0x0010100C + n * 0x20, 16, 16⟩
/-- `HST_SQ_IDX.CONS` (R459): Next descriptor to take -/
abbrev Reg.HST_SQ_IDX_CONS (n : Nat) : Field := ⟨0x0010100C + n * 0x20, 0, 16⟩
/-- `HST_SQ_SHADOW.ADDR` (R459): Host address for CONS, 4-byte aligned; 0: none -/
abbrev Reg.HST_SQ_SHADOW_ADDR (n : Nat) : Field := ⟨0x00101010 + n * 0x20, 2, 62⟩
/-- `HST_SQ_STATUS.ERROR` (R459): Code of R438; 0 none. Cleared when EN is written 1 -/
abbrev Reg.HST_SQ_STATUS_ERROR (n : Nat) : Field := ⟨0x00101018 + n * 0x20, 24, 8⟩
/-- `HST_SQ_STATUS.WAIT` (R459): Code of R438; 0 none -/
abbrev Reg.HST_SQ_STATUS_WAIT (n : Nat) : Field := ⟨0x00101018 + n * 0x20, 8, 8⟩
/-- `HST_EQ_BASE.BASE` (R459): Host address, 4 KiB aligned -/
abbrev Reg.HST_EQ_BASE_BASE (n : Nat) : Field := ⟨0x00102000 + n * 0x20, 12, 52⟩
/-- `HST_EQ_CFG.EN` (R459): Ring enabled -/
abbrev Reg.HST_EQ_CFG_EN (n : Nat) : Field := ⟨0x00102008 + n * 0x20, 31, 1⟩
/-- `HST_EQ_CFG.SIZE` (R459): log2 of entries, 4–16; other writes leave the field unchanged -/
abbrev Reg.HST_EQ_CFG_SIZE (n : Nat) : Field := ⟨0x00102008 + n * 0x20, 16, 5⟩
/-- `HST_EQ_CFG.VEC` (R459): MSI-X vector, 0–63 -/
abbrev Reg.HST_EQ_CFG_VEC (n : Nat) : Field := ⟨0x00102008 + n * 0x20, 8, 6⟩
/-- `HST_EQ_MOD.URGENT` (R459): Severity code at or above which R442 sends at once; 5–7: never -/
abbrev Reg.HST_EQ_MOD_URGENT (n : Nat) : Field := ⟨0x0010200C + n * 0x20, 28, 3⟩
/-- `HST_EQ_MOD.COUNT` (R459): Records, 1–255; a write of 0 leaves the field unchanged -/
abbrev Reg.HST_EQ_MOD_COUNT (n : Nat) : Field := ⟨0x0010200C + n * 0x20, 8, 8⟩
/-- `HST_EQ_MOD.TIME_US` (R459): µs; 0: send at the first record -/
abbrev Reg.HST_EQ_MOD_TIME_US (n : Nat) : Field := ⟨0x0010200C + n * 0x20, 0, 8⟩
/-- `HST_EQ_IDX.PROD` (R459): Next record to write -/
abbrev Reg.HST_EQ_IDX_PROD (n : Nat) : Field := ⟨0x00102010 + n * 0x20, 16, 16⟩
/-- `HST_EQ_IDX.CONS` (R459): Last doorbell value accepted -/
abbrev Reg.HST_EQ_IDX_CONS (n : Nat) : Field := ⟨0x00102010 + n * 0x20, 0, 16⟩
/-- `HST_EQ_STATUS.PHASE` (R459): PHASE of the next record (R440) -/
abbrev Reg.HST_EQ_STATUS_PHASE (n : Nat) : Field := ⟨0x00102014 + n * 0x20, 31, 1⟩
/-- `HST_EQ_STATUS.QUEUED` (R459): Records held on chip, 0–1,024 -/
abbrev Reg.HST_EQ_STATUS_QUEUED (n : Nat) : Field := ⟨0x00102014 + n * 0x20, 0, 11⟩
/-- `HST_EV_ROUTE.MIN_SEV` (R459): Least severity queued for subsystem ss (R441) -/
abbrev Reg.HST_EV_ROUTE_MIN_SEV (n : Nat) : Field := ⟨0x00103000 + n * 0x4, 4, 3⟩
/-- `HST_EV_ROUTE.RING` (R459): Event ring -/
abbrev Reg.HST_EV_ROUTE_RING (n : Nat) : Field := ⟨0x00103000 + n * 0x4, 0, 3⟩
/-- `HST_CNT.SAT` (R459): Sticky saturation (R10) -/
abbrev Reg.HST_CNT_SAT (n : Nat) : Field := ⟨0x00104000 + n * 0x8 + 4, 31, 1⟩
/-- `HST_CNT.COUNT` (R459): 0 descriptors taken; 1 jobs completed other than OK; 2 completion timeouts; 3 retries; 4 events below MIN_SEV; 5 events dropped; 6 interrupts sent; 7  -/
abbrev Reg.HST_CNT_COUNT (n : Nat) : Field := ⟨0x00104000 + n * 0x8, 0, 48⟩
/-- A vector's message address in the MSI-X table (R431, log entry 6). -/
abbrev Reg.MSIX_ADDR_ADDR (n : Nat) : Field := ⟨0x00110000 + n * 0x10, 2, 62⟩
/-- A vector's message data in the MSI-X table (R431, log entry 6). -/
abbrev Reg.MSIX_DATA_DATA (n : Nat) : Field := ⟨0x00110008 + n * 0x10, 0, 32⟩
/-- A vector's mask in the MSI-X table (R431, R442, log entry 6). -/
abbrev Reg.MSIX_CTRL_MASK (n : Nat) : Field := ⟨0x0011000C + n * 0x10, 0, 1⟩
/-- The pending bits of the MSI-X vectors (R431, R442, log entry 6). -/
abbrev Reg.MSIX_PBA_PENDING : Field := ⟨0x00111000, 0, 64⟩
/-- `TIM_CTRL.STEP_ARM` (R478): Permit the step of R473; reads 1 until it is made or cleared -/
abbrev Reg.TIM_CTRL_STEP_ARM : Field := ⟨0x01200000, 31, 1⟩
/-- `TIM_CTRL.PATH` (R478): 0 both ports, 1 port 0 only, 2 port 1 only; 3 leaves the field unchanged -/
abbrev Reg.TIM_CTRL_PATH : Field := ⟨0x01200000, 4, 2⟩
/-- `TIM_CTRL.PRIMARY` (R478): Preferred primary port (R468) -/
abbrev Reg.TIM_CTRL_PRIMARY : Field := ⟨0x01200000, 3, 1⟩
/-- `TIM_CTRL.EN` (R478): Run PTP (R462, R472) -/
abbrev Reg.TIM_CTRL_EN : Field := ⟨0x01200000, 0, 1⟩
/-- `TIM_STATUS.EPOCH` (R478): Epoch in force (R467) -/
abbrev Reg.TIM_STATUS_EPOCH : Field := ⟨0x01200004, 16, 16⟩
/-- `TIM_STATUS.STEP_PENDING` (R478): R473 -/
abbrev Reg.TIM_STATUS_STEP_PENDING : Field := ⟨0x01200004, 15, 1⟩
/-- `TIM_STATUS.HOLD_CAUSE` (R478): 0 none, 1 no master, 2 asymmetry, 3 delay suspect, 4 jump, 5 cascade link -/
abbrev Reg.TIM_STATUS_HOLD_CAUSE : Field := ⟨0x01200004, 8, 3⟩
/-- `TIM_STATUS.STATE` (R478): R466 -/
abbrev Reg.TIM_STATUS_STATE : Field := ⟨0x01200004, 0, 3⟩
/-- `TIM_NOW.SEC` (R478): Seconds bits [33:0]. A read latches `TIM_NOW_HI` -/
abbrev Reg.TIM_NOW_SEC : Field := ⟨0x01200008, 30, 34⟩
/-- `TIM_NOW.NS` (R478): Nanoseconds -/
abbrev Reg.TIM_NOW_NS : Field := ⟨0x01200008, 0, 30⟩
/-- `TIM_NOW_HI.EPOCH` (R478): Epoch at the latch -/
abbrev Reg.TIM_NOW_HI_EPOCH : Field := ⟨0x01200010, 16, 16⟩
/-- `TIM_NOW_HI.SEC_HI` (R478): Seconds bits [47:34] at the latch -/
abbrev Reg.TIM_NOW_HI_SEC_HI : Field := ⟨0x01200010, 0, 14⟩
/-- `TIM_INC.NS` (R478): Whole nanoseconds per tide clock -/
abbrev Reg.TIM_INC_NS : Field := ⟨0x01200018 + 4, 0, 4⟩
/-- `TIM_INC.FRAC` (R478): Fraction, 2^−32 ns -/
abbrev Reg.TIM_INC_FRAC : Field := ⟨0x01200018, 0, 32⟩
/-- `TIM_LIM0.ASYM_NS` (R478): R470, ns -/
abbrev Reg.TIM_LIM0_ASYM_NS : Field := ⟨0x01200020, 16, 16⟩
/-- `TIM_LIM0.DELAY_STEP_NS` (R478): R471, ns -/
abbrev Reg.TIM_LIM0_DELAY_STEP_NS : Field := ⟨0x01200020, 0, 16⟩
/-- `TIM_LIM1.CONFIRM_S` (R478): R470, R471, seconds, 1–65,535; a write of 0 leaves the field unchanged -/
abbrev Reg.TIM_LIM1_CONFIRM_S : Field := ⟨0x01200024, 16, 16⟩
/-- `TIM_LIM1.HOLD_MAX_S` (R478): R474, seconds -/
abbrev Reg.TIM_LIM1_HOLD_MAX_S : Field := ⟨0x01200024, 0, 16⟩
/-- `TIM_LIM2.STEP_NS` (R478): R473, ns, at least 100; a lower write leaves the field unchanged -/
abbrev Reg.TIM_LIM2_STEP_NS : Field := ⟨0x01200028, 0, 32⟩
/-- `TIM_LIM3.MAX_PPB` (R478): R465, 1–500,000; other writes leave the field unchanged -/
abbrev Reg.TIM_LIM3_MAX_PPB : Field := ⟨0x0120002C, 0, 24⟩
/-- `TIM_MAP_HEAD.H` (R478): Head time of the latch, 0.1 ns (R475) -/
abbrev Reg.TIM_MAP_HEAD_H : Field := ⟨0x01200030, 0, 64⟩
/-- `TIM_MAP_PTP.SEC` (R478): Seconds bits [33:0] at the same tide clock -/
abbrev Reg.TIM_MAP_PTP_SEC : Field := ⟨0x01200038, 30, 34⟩
/-- `TIM_MAP_PTP.NS` (R478): Nanoseconds -/
abbrev Reg.TIM_MAP_PTP_NS : Field := ⟨0x01200038, 0, 30⟩
/-- `TIM_MAP_AUX.EPOCH` (R478): Epoch -/
abbrev Reg.TIM_MAP_AUX_EPOCH : Field := ⟨0x01200040, 16, 16⟩
/-- `TIM_MAP_AUX.SEC_HI` (R478): Seconds bits [47:34]; bits [15:14] reserved -/
abbrev Reg.TIM_MAP_AUX_SEC_HI : Field := ⟨0x01200040, 0, 14⟩
/-- `TIM_CLOCK_ID.ID` (R478): clockIdentity, sent most significant byte first; writable while EN is 0 -/
abbrev Reg.TIM_CLOCK_ID_ID : Field := ⟨0x01200048, 0, 64⟩
/-- `TIM_PORT_CFG.EN` (R478): Port enabled -/
abbrev Reg.TIM_PORT_CFG_EN (n : Nat) : Field := ⟨0x01200100 + n * 0x100, 31, 1⟩
/-- `TIM_PORT_CFG.SPEED_25` (R478): 1 25GBASE-R, 0 10GBASE-R -/
abbrev Reg.TIM_PORT_CFG_SPEED_25 (n : Nat) : Field := ⟨0x01200100 + n * 0x100, 30, 1⟩
/-- `TIM_PORT_CFG.TRANSPORT` (R478): 0 Ethernet, 1 UDP/IPv4, 2 UDP/IPv6; 3 leaves the field unchanged -/
abbrev Reg.TIM_PORT_CFG_TRANSPORT (n : Nat) : Field := ⟨0x01200100 + n * 0x100, 28, 2⟩
/-- `TIM_PORT_CFG.P2P` (R478): 0 end-to-end, 1 peer-to-peer -/
abbrev Reg.TIM_PORT_CFG_P2P (n : Nat) : Field := ⟨0x01200100 + n * 0x100, 27, 1⟩
/-- `TIM_PORT_CFG.ONE_STEP` (R478): Own Pdelay_Resp one-step -/
abbrev Reg.TIM_PORT_CFG_ONE_STEP (n : Nat) : Field := ⟨0x01200100 + n * 0x100, 26, 1⟩
/-- `TIM_PORT_CFG.TLM_EN` (R478): R477 -/
abbrev Reg.TIM_PORT_CFG_TLM_EN (n : Nat) : Field := ⟨0x01200100 + n * 0x100, 25, 1⟩
/-- `TIM_PORT_CFG.DOMAIN` (R478): domainNumber -/
abbrev Reg.TIM_PORT_CFG_DOMAIN (n : Nat) : Field := ⟨0x01200100 + n * 0x100, 16, 8⟩
/-- `TIM_PORT_CFG.VLAN_EN` (R478): Tag sent and required -/
abbrev Reg.TIM_PORT_CFG_VLAN_EN (n : Nat) : Field := ⟨0x01200100 + n * 0x100, 12, 1⟩
/-- `TIM_PORT_CFG.VID` (R478): VLAN identifier -/
abbrev Reg.TIM_PORT_CFG_VID (n : Nat) : Field := ⟨0x01200100 + n * 0x100, 0, 12⟩
/-- `TIM_PORT_MAC.MAC` (R478): Source MAC; bits [63:48] reserved -/
abbrev Reg.TIM_PORT_MAC_MAC (n : Nat) : Field := ⟨0x01200108 + n * 0x100, 0, 48⟩
/-- `TIM_PORT_IP4.ADDR` (R478): Source IPv4 address -/
abbrev Reg.TIM_PORT_IP4_ADDR (n : Nat) : Field := ⟨0x01200110 + n * 0x100, 0, 32⟩
/-- `TIM_PORT_IP6.ADDR` (R478): Source IPv6 address, word k = bits [32k + 31:32k] -/
abbrev Reg.TIM_PORT_IP6_ADDR (n : Nat) (i : Nat) : Field := ⟨0x01200120 + n * 0x100 + i * 0x4, 0, 32⟩
/-- `TIM_PORT_LAT.RX` (R478): Receive latency beyond the balls, 1/16 ns -/
abbrev Reg.TIM_PORT_LAT_RX (n : Nat) : Field := ⟨0x01200130 + n * 0x100, 16, 16⟩
/-- `TIM_PORT_LAT.TX` (R478): Transmit latency beyond the balls, 1/16 ns -/
abbrev Reg.TIM_PORT_LAT_TX (n : Nat) : Field := ⟨0x01200130 + n * 0x100, 0, 16⟩
/-- `TIM_PORT_STATUS.LINK` (R478): Link up -/
abbrev Reg.TIM_PORT_STATUS_LINK (n : Nat) : Field := ⟨0x01200134 + n * 0x100, 31, 1⟩
/-- `TIM_PORT_STATUS.STATE` (R478): portState of IEEE 1588-2019: 1 INITIALIZING, 2 FAULTY, 3 DISABLED, 4 LISTENING, 7 UNCALIBRATED, 9 SLAVE; bits [30:4] reserved -/
abbrev Reg.TIM_PORT_STATUS_STATE (n : Nat) : Field := ⟨0x01200134 + n * 0x100, 0, 4⟩
/-- `TIM_PORT_GM.ID` (R478): grandmasterIdentity followed -/
abbrev Reg.TIM_PORT_GM_ID (n : Nat) : Field := ⟨0x01200138 + n * 0x100, 0, 64⟩
/-- `TIM_PORT_MEAS.OFFSET` (R478): Filtered offset, s32 ns, saturating -/
abbrev Reg.TIM_PORT_MEAS_OFFSET (n : Nat) : Field := ⟨0x01200140 + n * 0x100 + 4, 0, 32⟩
/-- `TIM_PORT_MEAS.DELAY` (R478): Filtered meanPathDelay, 1/16 ns -/
abbrev Reg.TIM_PORT_MEAS_DELAY (n : Nat) : Field := ⟨0x01200140 + n * 0x100, 0, 32⟩
/-- `TIM_TLM_DST.UDP` (R478): Destination UDP port -/
abbrev Reg.TIM_TLM_DST_UDP (n : Nat) : Field := ⟨0x01200148 + n * 0x100 + 4, 16, 16⟩
/-- `TIM_TLM_DST.MAC` (R478): Destination MAC -/
abbrev Reg.TIM_TLM_DST_MAC (n : Nat) : Field := ⟨0x01200148 + n * 0x100, 0, 48⟩
/-- `TIM_TLM_IP.ADDR` (R478): Destination address; IPv4 in k = 0 only -/
abbrev Reg.TIM_TLM_IP_ADDR (n : Nat) (i : Nat) : Field := ⟨0x01200150 + n * 0x100 + i * 0x4, 0, 32⟩
/-- `TIM_CNT.SAT` (R478): Sticky saturation (R10) -/
abbrev Reg.TIM_CNT_SAT (n : Nat) : Field := ⟨0x01200400 + n * 0x8 + 4, 31, 1⟩
/-- `TIM_CNT.COUNT` (R478): 0 Sync received; 1 Follow_Up received; 2 delay exchanges completed; 3 messages ignored (R463); 4 steps; 5 holdover entries; 6 telemetry datagrams sent -/
abbrev Reg.TIM_CNT_COUNT (n : Nat) : Field := ⟨0x01200400 + n * 0x8, 0, 48⟩
/-- `BWT_ENABLE.EN` (R494): Exposure enable (R490) -/
abbrev Reg.BWT_ENABLE_EN : Field := ⟨0x01300000, 0, 1⟩
/-- `BWT_DOSE_WIN.MAX_ON` (R494): Greatest on-time, 1/64 head clock (0.1 ns) (R484) -/
abbrev Reg.BWT_DOSE_WIN_MAX_ON : Field := ⟨0x01300004, 0, 24⟩
/-- `BWT_INT_LO.LIMIT` (R494): s24, loop channel 3 output units (R296) -/
abbrev Reg.BWT_INT_LO_LIMIT : Field := ⟨0x01300008, 0, 24⟩
/-- `BWT_INT_HI.LIMIT` (R494): s24, loop channel 3 output units (R296) -/
abbrev Reg.BWT_INT_HI_LIMIT : Field := ⟨0x0130000C, 0, 24⟩
/-- `BWT_MAX_RATE.HZ` (R494): 1,000–2,000,000 Hz (R29, R282) -/
abbrev Reg.BWT_MAX_RATE_HZ : Field := ⟨0x01300010, 0, 21⟩
/-- `BWT_SVN_REQ.OTP` (R494): Anti-rollback value in force, 0–64 -/
abbrev Reg.BWT_SVN_REQ_OTP : Field := ⟨0x01300014, 8, 7⟩
/-- `BWT_SVN_REQ.REQ` (R494): Value to burn (R493) -/
abbrev Reg.BWT_SVN_REQ_REQ : Field := ⟨0x01300014, 0, 7⟩
/-- `BWT_PROP_ADDR.ADDR` (R494): Host address of the image, 8-byte aligned -/
abbrev Reg.BWT_PROP_ADDR_ADDR : Field := ⟨0x01300020, 3, 61⟩
/-- `BWT_PROP_CTRL.SUBMIT` (R494): Start a proposal (R483) -/
abbrev Reg.BWT_PROP_CTRL_SUBMIT : Field := ⟨0x01300028, 31, 1⟩
/-- `BWT_PROP_CTRL.WITHDRAW` (R494): In LOADING, CHECKING or PENDING: refuse the proposal, subcode 6 -/
abbrev Reg.BWT_PROP_CTRL_WITHDRAW : Field := ⟨0x01300028, 30, 1⟩
/-- `BWT_PROP_STATUS.RESULT` (R494): Subcode of the last refusal, 0 after a commit -/
abbrev Reg.BWT_PROP_STATUS_RESULT : Field := ⟨0x0130002C, 24, 8⟩
/-- `BWT_PROP_STATUS.STATE` (R494): State of R483 -/
abbrev Reg.BWT_PROP_STATUS_STATE : Field := ⟨0x0130002C, 16, 4⟩
/-- `BWT_PROP_STATUS.CLASSES` (R494): Classes in the current or last proposal, as in STATUS -/
abbrev Reg.BWT_PROP_STATUS_CLASSES : Field := ⟨0x0130002C, 0, 16⟩
/-- `BWT_SEQ.COMMITTED` (R494): SEQ and digest of the last commit -/
abbrev Reg.BWT_SEQ_COMMITTED : Field := ⟨0x01300030, 0, 32⟩
/-- `BWT_LAST_DIGEST.DIGEST` (R494): SEQ and digest of the last commit -/
abbrev Reg.BWT_LAST_DIGEST_DIGEST : Field := ⟨0x01300034, 0, 32⟩
/-- `BWT_BOOT.SVN` (R494): SVN of the running image -/
abbrev Reg.BWT_BOOT_SVN : Field := ⟨0x01300038, 16, 8⟩
/-- `BWT_BOOT.FAIL1` (R494): Slot 1: 0 none or not tried, 1 magic, 2 length, 3 key hash, 4 signature, 5 SVN below OTP, 6 flash read -/
abbrev Reg.BWT_BOOT_FAIL1 : Field := ⟨0x01300038, 12, 4⟩
/-- `BWT_BOOT.FAIL0` (R494): Slot 0, coded as FAIL1 -/
abbrev Reg.BWT_BOOT_FAIL0 : Field := ⟨0x01300038, 8, 4⟩
/-- `BWT_BOOT.SLOT` (R494): Slot booted -/
abbrev Reg.BWT_BOOT_SLOT : Field := ⟨0x01300038, 0, 1⟩
/-- `BWT_CNT.SAT` (R494): Sticky saturation (R10) -/
abbrev Reg.BWT_CNT_SAT (n : Nat) : Field := ⟨0x01300100 + n * 0x8 + 4, 31, 1⟩
/-- `BWT_CNT.COUNT` (R494): 0 commits; 1 guard frames ignored; 2 proposals refused; 3 permit deassertions -/
abbrev Reg.BWT_CNT_COUNT (n : Nat) : Field := ⟨0x01300100 + n * 0x8, 0, 48⟩
/-- `PWR_DOMAIN_STATUS.FAULT` (R515): Bit d: domain d failed to power up (R500); cleared at its next successful power-up -/
abbrev Reg.PWR_DOMAIN_STATUS_FAULT : Field := ⟨0x01400000, 16, 16⟩
/-- `PWR_DOMAIN_STATUS.ON` (R515): Bit d: domain d powered, numbered as in R497 -/
abbrev Reg.PWR_DOMAIN_STATUS_ON : Field := ⟨0x01400000, 0, 16⟩
/-- `PWR_QUAD_CTRL.NEAP_EN` (R515): Quads enter neap under R499 -/
abbrev Reg.PWR_QUAD_CTRL_NEAP_EN : Field := ⟨0x01400004, 31, 1⟩
/-- `PWR_QUAD_CTRL.IDLE_US` (R515): Idle time of R499, µs, 10–1,000,000; a write outside this range leaves the field unchanged -/
abbrev Reg.PWR_QUAD_CTRL_IDLE_US : Field := ⟨0x01400004, 0, 20⟩
/-- `PWR_CLK_STATUS.ETH` (R515): Ethernet PLL locked -/
abbrev Reg.PWR_CLK_STATUS_ETH : Field := ⟨0x01400008, 8, 1⟩
/-- `PWR_CLK_STATUS.PCIE` (R515): PCIe PLL locked -/
abbrev Reg.PWR_CLK_STATUS_PCIE : Field := ⟨0x01400008, 7, 1⟩
/-- `PWR_CLK_STATUS.DRAM1` (R515): MEM1 PLL locked -/
abbrev Reg.PWR_CLK_STATUS_DRAM1 : Field := ⟨0x01400008, 6, 1⟩
/-- `PWR_CLK_STATUS.DRAM0` (R515): MEM0 PLL locked -/
abbrev Reg.PWR_CLK_STATUS_DRAM0 : Field := ⟨0x01400008, 5, 1⟩
/-- `PWR_CLK_STATUS.TIDE_LANE` (R515): Tide lane PLL locked -/
abbrev Reg.PWR_CLK_STATUS_TIDE_LANE : Field := ⟨0x01400008, 4, 1⟩
/-- `PWR_CLK_STATUS.HEAD_LANE` (R515): Head lane PLL locked -/
abbrev Reg.PWR_CLK_STATUS_HEAD_LANE : Field := ⟨0x01400008, 3, 1⟩
/-- `PWR_CLK_STATUS.TIDE` (R515): Tide clock PLL locked -/
abbrev Reg.PWR_CLK_STATUS_TIDE : Field := ⟨0x01400008, 2, 1⟩
/-- `PWR_CLK_STATUS.CORE_CTL` (R515): Core and CTL PLLs locked -/
abbrev Reg.PWR_CLK_STATUS_CORE_CTL : Field := ⟨0x01400008, 1, 1⟩
/-- `PWR_CLK_STATUS.REF` (R515): Reference present (R504) -/
abbrev Reg.PWR_CLK_STATUS_REF : Field := ⟨0x01400008, 0, 1⟩
/-- `PWR_BRINGUP.DONE` (R515): Step 8 reached (R513) -/
abbrev Reg.PWR_BRINGUP_DONE : Field := ⟨0x0140000C, 31, 1⟩
/-- `PWR_BRINGUP.STEP` (R515): Step in progress, 1–8 -/
abbrev Reg.PWR_BRINGUP_STEP : Field := ⟨0x0140000C, 24, 4⟩
/-- `PWR_BRINGUP.FAIL_STEP` (R515): First failed step; 0 none -/
abbrev Reg.PWR_BRINGUP_FAIL_STEP : Field := ⟨0x0140000C, 16, 4⟩
/-- `PWR_BRINGUP.FAIL_CODE` (R515): Event code of that failure, or 0x0001 reference absent, 0x0002 OTP invalid, 0x0003 no image accepted (`BWT_BOOT`) -/
abbrev Reg.PWR_BRINGUP_FAIL_CODE : Field := ⟨0x0140000C, 0, 16⟩
/-- `PWR_RESET_CAUSE.SUPPLY` (R515): PWR_OK fell (R506) -/
abbrev Reg.PWR_RESET_CAUSE_SUPPLY : Field := ⟨0x01400010, 7, 1⟩
/-- `PWR_RESET_CAUSE.CLOCK` (R515): Protective reset for the reference or a PLL (R504) -/
abbrev Reg.PWR_RESET_CAUSE_CLOCK : Field := ⟨0x01400010, 6, 1⟩
/-- `PWR_RESET_CAUSE.THERMAL` (R515): Thermal trip (R512) -/
abbrev Reg.PWR_RESET_CAUSE_THERMAL : Field := ⟨0x01400010, 5, 1⟩
/-- `PWR_RESET_CAUSE.WATCHDOG` (R515): R510 -/
abbrev Reg.PWR_RESET_CAUSE_WATCHDOG : Field := ⟨0x01400010, 4, 1⟩
/-- `PWR_RESET_CAUSE.LOCKSTEP` (R515): R510 -/
abbrev Reg.PWR_RESET_CAUSE_LOCKSTEP : Field := ⟨0x01400010, 3, 1⟩
/-- `PWR_RESET_CAUSE.HOST` (R515): HST_RESET -/
abbrev Reg.PWR_RESET_CAUSE_HOST : Field := ⟨0x01400010, 2, 1⟩
/-- `PWR_RESET_CAUSE.PERST` (R515): PERST_N -/
abbrev Reg.PWR_RESET_CAUSE_PERST : Field := ⟨0x01400010, 1, 1⟩
/-- `PWR_RESET_CAUSE.POWER` (R515): Power-on reset -/
abbrev Reg.PWR_RESET_CAUSE_POWER : Field := ⟨0x01400010, 0, 1⟩
/-- `PWR_DIE_TEMP.PEAK` (R515): s16, 1/16 °C, greatest reading since power-on; 0x8000 none -/
abbrev Reg.PWR_DIE_TEMP_PEAK : Field := ⟨0x01400014, 16, 16⟩
/-- `PWR_DIE_TEMP.TEMP` (R515): s16, 1/16 °C, last reading (R512) -/
abbrev Reg.PWR_DIE_TEMP_TEMP : Field := ⟨0x01400014, 0, 16⟩
/-- `PWR_TEMP_WARN.TRIP` (R515): s16, 1/16 °C (115.0 °C) -/
abbrev Reg.PWR_TEMP_WARN_TRIP : Field := ⟨0x01400018, 16, 16⟩
/-- `PWR_TEMP_WARN.WARN` (R515): s16, 1/16 °C (105.0 °C); a write above 0x0720 (114.0 °C) leaves the field unchanged -/
abbrev Reg.PWR_TEMP_WARN_WARN : Field := ⟨0x01400018, 0, 16⟩
/-- `PWR_CNT.SAT` (R515): Sticky saturation (R10) -/
abbrev Reg.PWR_CNT_SAT (n : Nat) : Field := ⟨0x01400100 + n * 0x8 + 4, 31, 1⟩
/-- `PWR_CNT.COUNT` (R515): 0 quad wakes; 1 quad neaps; 2 NEAP entries; 3 warm resets; 4 lockstep faults; 5 watchdog expiries; 6 temperature warnings -/
abbrev Reg.PWR_CNT_COUNT (n : Nat) : Field := ⟨0x01400100 + n * 0x8, 0, 48⟩
/-- `OBS_CTRL.RING_EN` (R530): Trace ring enabled (R524) -/
abbrev Reg.OBS_CTRL_RING_EN : Field := ⟨0x01500000, 1, 1⟩
/-- `OBS_CTRL.PORT_EN` (R530): Trace port enabled (R523) -/
abbrev Reg.OBS_CTRL_PORT_EN : Field := ⟨0x01500000, 0, 1⟩
/-- `OBS_SRC_PORT.MASK` (R530): Bit s: source s of R520 present. A change takes effect at the next packet boundary -/
abbrev Reg.OBS_SRC_PORT_MASK : Field := ⟨0x01500004, 3, 12⟩
/-- `OBS_SRC_PORT.FIXED` (R530): Sources 0–2, always present -/
abbrev Reg.OBS_SRC_PORT_FIXED : Field := ⟨0x01500004, 0, 3⟩
/-- `OBS_SRC_RING.MASK` (R530): Bit s: source s of R520 present. A change takes effect at the next packet boundary -/
abbrev Reg.OBS_SRC_RING_MASK : Field := ⟨0x01500008, 3, 12⟩
/-- `OBS_SRC_RING.FIXED` (R530): Sources 0–2, always present -/
abbrev Reg.OBS_SRC_RING_FIXED : Field := ⟨0x01500008, 0, 3⟩
/-- `OBS_FILT.FEED_SLACK` (R530): FEED packets only for slack ≤ this value; lost parts always -/
abbrev Reg.OBS_FILT_FEED_SLACK : Field := ⟨0x0150000C, 0, 16⟩
/-- `OBS_RING_BASE.BASE` (R530): Host address, 4 KiB aligned -/
abbrev Reg.OBS_RING_BASE_BASE : Field := ⟨0x01500010, 12, 52⟩
/-- `OBS_RING_CFG.MODE` (R530): 0 STREAM, 1 WRAP (R524) -/
abbrev Reg.OBS_RING_CFG_MODE : Field := ⟨0x01500018, 31, 1⟩
/-- `OBS_RING_CFG.SIZE` (R530): log2 of bytes, 16–30; other writes leave the field unchanged -/
abbrev Reg.OBS_RING_CFG_SIZE : Field := ⟨0x01500018, 16, 5⟩
/-- `OBS_RING_CFG.MAX_MBS` (R530): MB/s, 1–2,000; other writes leave the field unchanged -/
abbrev Reg.OBS_RING_CFG_MAX_MBS : Field := ⟨0x01500018, 0, 11⟩
/-- `OBS_RING_WR.OFF` (R530): Byte offset in the ring. RD is written by the host; a value ≥ ring size leaves it unchanged -/
abbrev Reg.OBS_RING_WR_OFF : Field := ⟨0x0150001C, 0, 32⟩
/-- `OBS_RING_RD.OFF` (R530): Byte offset in the ring. RD is written by the host; a value ≥ ring size leaves it unchanged -/
abbrev Reg.OBS_RING_RD_OFF : Field := ⟨0x01500020, 0, 32⟩
/-- `OBS_RING_SHADOW.ADDR` (R530): Host address for OBS_RING_WR, 4-byte aligned; 0: none -/
abbrev Reg.OBS_RING_SHADOW_ADDR : Field := ⟨0x01500028, 2, 62⟩
/-- `OBS_TRIG.EN` (R530): Armed (R525); cleared by the trigger -/
abbrev Reg.OBS_TRIG_EN : Field := ⟨0x01500030 + 4, 31, 1⟩
/-- `OBS_TRIG.POST_KIB` (R530): KiB accepted after the trigger -/
abbrev Reg.OBS_TRIG_POST_KIB : Field := ⟨0x01500030 + 4, 0, 16⟩
/-- `OBS_TRIG.CODE` (R530): Event code that triggers -/
abbrev Reg.OBS_TRIG_CODE : Field := ⟨0x01500030, 0, 16⟩
/-- `OBS_STATUS.RING_FROZEN` (R530): R525 -/
abbrev Reg.OBS_STATUS_RING_FROZEN : Field := ⟨0x01500038, 2, 1⟩
/-- `OBS_STATUS.TRIGGERED` (R530): R525 -/
abbrev Reg.OBS_STATUS_TRIGGERED : Field := ⟨0x01500038, 1, 1⟩
/-- `OBS_STATUS.SNAP_BUSY` (R530): A snapshot is in progress -/
abbrev Reg.OBS_STATUS_SNAP_BUSY : Field := ⟨0x01500038, 0, 1⟩
/-- `OBS_SNAP_ADDR.ADDR` (R530): Host address, 64-byte aligned (R528) -/
abbrev Reg.OBS_SNAP_ADDR_ADDR : Field := ⟨0x01500040, 6, 58⟩
/-- `OBS_SNAP_CTRL.GO` (R530): Take a snapshot (R528); reads 1 until DONE -/
abbrev Reg.OBS_SNAP_CTRL_GO : Field := ⟨0x01500048, 31, 1⟩
/-- `OBS_SNAP_CTRL.DONE` (R530): Last snapshot written; cleared by GO -/
abbrev Reg.OBS_SNAP_CTRL_DONE : Field := ⟨0x01500048, 30, 1⟩
/-- `OBS_CNT.SAT` (R530): Sticky saturation (R10) -/
abbrev Reg.OBS_CNT_SAT (n : Nat) : Field := ⟨0x01500100 + n * 0x8 + 4, 31, 1⟩
/-- `OBS_CNT.COUNT` (R530): 0 packets to the port; 1 packets to the ring; 2 packets dropped at the port; 3 packets dropped at the ring; 4 snapshots; 5 EVT_CNT_SAT events raised -/
abbrev Reg.OBS_CNT_COUNT (n : Nat) : Field := ⟨0x01500100 + n * 0x8, 0, 48⟩

end Sys2Proof.Machine
end

