-- ==== Sys2Proof/Machine/RegTable.lean ====
section
/-! DEFINITION. The register table of BAR 0 (R11 to R14), one row for each register table of the spec's chapters:
its offset, its strides, and for each field its bits, its access type, its cold reset value, its warm value and the
range outside which a write leaves the field unchanged. -/
namespace Sys2Proof.Machine

/-- Access types of R13. -/
inductive Access where
  | rw | ro | wo | w1c | w1s | sat | bw
  deriving DecidableEq, Repr

/-- What warm reset does to a field (R14): it takes the cold value, it is kept, or it takes a value of its own. -/
inductive Warm where
  | cold | kept | val (n : Nat)
  deriving DecidableEq, Repr

/-- The cold reset value of a field; the named ones vary with the register's index, as its table says. -/
inductive Cold where
  | const (n : Nat) | mapHalf | mapBand | mapClass | vatRole | curveHi | curveLo | couchRole | index | auxLock
  | portTarget | poisonSig
  deriving DecidableEq, Repr

/-- One field of a register table: least bit, width, access, cold value, warm value, range of accepted writes. -/
structure FieldRow where
  lo : Nat
  width : Nat
  access : Access
  cold : Cold
  warm : Warm
  range : Option (Nat × Nat)
  deriving DecidableEq, Repr

/-- One register table: name, BAR 0 offset of the first of its registers, (count, stride) of each index, outermost
first, whether it is 64 bits wide, and its fields. Reserved bits have no row (R12). -/
structure RegRow where
  name : String
  base : Nat
  dims : List (Nat × Nat)
  wide : Bool
  fields : List FieldRow
  deriving DecidableEq, Repr

/-- Register rows of the blocks at 0x0010_0000. -/
def regRows001 : List RegRow := [
  ⟨"HST_CTRL", 0x00100000, [], false, [⟨0, 1, .rw, (.const 0), (.val 0), none⟩]⟩,
  ⟨"HST_STATUS", 0x00100004, [], false, [⟨31, 1, .ro, (.const 0), .cold, none⟩,
    ⟨30, 1, .ro, (.const 0), .cold, none⟩,
    ⟨29, 1, .ro, (.const 0), .cold, none⟩,
    ⟨20, 4, .ro, (.const 0), .cold, none⟩,
    ⟨15, 5, .ro, (.const 0), .cold, none⟩,
    ⟨0, 11, .ro, (.const 0), .cold, none⟩]⟩,
  ⟨"HST_ABORT", 0x00100008, [], false, [⟨0, 8, .wo, (.const 0), .cold, none⟩]⟩,
  ⟨"HST_RESET", 0x0010000C, [], false, [⟨0, 8, .wo, (.const 0), .cold, none⟩]⟩,
  ⟨"HST_SQ_BASE", 0x00101000, [(32, 0x20)], true, [⟨12, 52, .rw, (.const 0), .kept, none⟩]⟩,
  ⟨"HST_SQ_CFG", 0x00101008, [(32, 0x20)], false, [⟨31, 1, .rw, (.const 0), (.val 0), none⟩,
    ⟨16, 5, .rw, (.const 4), .kept, (some (4, 16))⟩,
    ⟨0, 3, .rw, (.const 0), .kept, none⟩]⟩,
  ⟨"HST_SQ_IDX", 0x0010100C, [(32, 0x20)], false, [⟨16, 16, .ro, (.const 0), .cold, none⟩,
    ⟨0, 16, .ro, (.const 0), .cold, none⟩]⟩,
  ⟨"HST_SQ_SHADOW", 0x00101010, [(32, 0x20)], true, [⟨2, 62, .rw, (.const 0), .kept, none⟩]⟩,
  ⟨"HST_SQ_STATUS", 0x00101018, [(32, 0x20)], false, [⟨24, 8, .ro, (.const 0), .cold, none⟩,
    ⟨8, 8, .ro, (.const 0), .cold, none⟩]⟩,
  ⟨"HST_EQ_BASE", 0x00102000, [(8, 0x20)], true, [⟨12, 52, .rw, (.const 0), .kept, none⟩]⟩,
  ⟨"HST_EQ_CFG", 0x00102008, [(8, 0x20)], false, [⟨31, 1, .rw, (.const 0), (.val 0), none⟩,
    ⟨16, 5, .rw, (.const 4), .kept, (some (4, 16))⟩,
    ⟨8, 6, .rw, (.const 0), .kept, none⟩]⟩,
  ⟨"HST_EQ_MOD", 0x0010200C, [(8, 0x20)], false, [⟨28, 3, .rw, (.const 2), .kept, none⟩,
    ⟨8, 8, .rw, (.const 16), .kept, (some (1, 255))⟩,
    ⟨0, 8, .rw, (.const 20), .kept, none⟩]⟩,
  ⟨"HST_EQ_IDX", 0x00102010, [(8, 0x20)], false, [⟨16, 16, .ro, (.const 0), .cold, none⟩,
    ⟨0, 16, .ro, (.const 0), .cold, none⟩]⟩,
  ⟨"HST_EQ_STATUS", 0x00102014, [(8, 0x20)], false, [⟨31, 1, .ro, (.const 1), .cold, none⟩,
    ⟨0, 11, .ro, (.const 0), .cold, none⟩]⟩,
  ⟨"HST_EV_ROUTE", 0x00103004, [(20, 0x4)], false, [⟨4, 3, .rw, (.const 0), .kept, none⟩,
    ⟨0, 3, .rw, (.const 0), .kept, none⟩]⟩,
  ⟨"HST_CNT", 0x00104000, [(8, 0x8)], true, [⟨63, 1, .sat, (.const 0), .cold, none⟩,
    ⟨0, 48, .sat, (.const 0), .cold, none⟩]⟩,
  -- R431, R442: the MSI-X table and PBA, whose layout is that of the PCI specification (log entry 6)
  ⟨"MSIX_ADDR", 0x00110000, [(64, 0x10)], true, [⟨2, 62, .rw, (.const 0), .kept, none⟩]⟩,
  ⟨"MSIX_DATA", 0x00110008, [(64, 0x10)], false, [⟨0, 32, .rw, (.const 0), .kept, none⟩]⟩,
  ⟨"MSIX_CTRL", 0x0011000C, [(64, 0x10)], false, [⟨0, 1, .rw, (.const 1), .kept, none⟩]⟩,
  ⟨"MSIX_PBA", 0x00111000, [], true, [⟨0, 64, .ro, (.const 0), .kept, none⟩]⟩]

/-- Register rows of the blocks at 0x0020_0000. -/
def regRows002 : List RegRow := [
  ⟨"HBX_CTRL", 0x00200000, [], false, [⟨16, 8, .rw, (.const 16), .cold, (some (1, 255))⟩,
    ⟨0, 9, .rw, (.const 256), .cold, (some (1, 256))⟩]⟩,
  ⟨"HBX_AHEAD", 0x00200004, [], false, [⟨0, 32, .rw, (.const 0), .cold, none⟩]⟩,
  ⟨"HBX_VAT_ROLE", 0x00200010, [], false, [⟨0, 32, .ro, (.const 0x40004000), .kept, none⟩]⟩,
  ⟨"HBX_VAT_ROLE_REQ", 0x00200014, [], false, [⟨0, 32, .rw, (.const 0x40004000), .kept, none⟩]⟩,
  ⟨"HBX_VAT_CFG", 0x00200018, [], false, [⟨16, 16, .rw, (.const 256), .cold, none⟩,
    ⟨0, 5, .rw, (.const 11), .cold, (some (0, 16))⟩]⟩,
  ⟨"HBX_JOB_LIMIT", 0x0020001C, [], false, [⟨0, 32, .rw, (.const 0x400000), .cold, (some (131072, 4294967295))⟩]⟩,
  ⟨"HBX_WM_POLICY", 0x00200020, [], false, [⟨0, 1, .bw, (.const 0), .kept, none⟩]⟩,
  ⟨"HBX_STATUS", 0x00200024, [], false, [⟨16, 9, .ro, (.const 0), .cold, none⟩,
    ⟨8, 5, .ro, (.const 2), .cold, none⟩,
    ⟨0, 5, .ro, (.const 14), .cold, none⟩]⟩,
  ⟨"HBX_LEAD", 0x00200028, [], false, [⟨0, 32, .ro, (.const 0), .cold, none⟩]⟩,
  ⟨"HBX_CNT", 0x00200100, [(8, 0x8)], true, [⟨63, 1, .sat, (.const 0), .cold, none⟩,
    ⟨0, 48, .sat, (.const 0), .cold, none⟩]⟩]

/-- Register rows of the blocks at 0x0030_0000. -/
def regRows003 : List RegRow := [
  ⟨"VAT_STATUS", 0x00300000, [(16, 0x10000)], false, [⟨16, 5, .ro, (.const 0), .cold, none⟩,
    ⟨2, 2, .ro, (.const 0), .cold, none⟩,
    ⟨0, 2, .ro, .vatRole, .cold, none⟩]⟩,
  ⟨"VAT_CNT", 0x00300100, [(16, 0x10000), (5, 0x8)], true, [⟨63, 1, .sat, (.const 0), .cold, none⟩,
    ⟨0, 48, .sat, (.const 0), .cold, none⟩]⟩]

/-- Register rows of the blocks at 0x0040_0000. -/
def regRows004 : List RegRow := [
  ⟨"CAL_STATUS", 0x00400000, [], false, [⟨16, 1, .w1c, (.const 0), .cold, none⟩,
    ⟨0, 8, .ro, (.const 0), .cold, none⟩]⟩,
  ⟨"CAL_CNT", 0x00400100, [(6, 0x8)], true, [⟨63, 1, .sat, (.const 0), .cold, none⟩,
    ⟨0, 48, .sat, (.const 0), .cold, none⟩]⟩,
  ⟨"CAL_PR_SRAD", 0x00401000, [(8, 0x1000)], false, [⟨12, 6, .rw, (.const 0), .kept, none⟩,
    ⟨6, 6, .rw, (.const 0), .kept, none⟩,
    ⟨0, 6, .rw, (.const 0), .kept, none⟩]⟩,
  ⟨"CAL_PR_CRAD", 0x00401004, [(8, 0x1000)], false, [⟨20, 10, .rw, (.const 0), .kept, none⟩,
    ⟨10, 10, .rw, (.const 0), .kept, none⟩,
    ⟨5, 5, .rw, (.const 0), .kept, none⟩,
    ⟨0, 5, .rw, (.const 0), .kept, none⟩]⟩,
  ⟨"CAL_PR_KSM", 0x00401008, [(8, 0x1000)], false, [⟨16, 16, .rw, (.const 0), .kept, none⟩,
    ⟨0, 16, .rw, (.const 0), .kept, none⟩]⟩,
  ⟨"CAL_PR_KLD", 0x0040100C, [(8, 0x1000)], false, [⟨16, 3, .rw, (.const 0), .kept, none⟩,
    ⟨0, 16, .rw, (.const 0), .kept, none⟩]⟩,
  ⟨"CAL_PR_DT", 0x00401040, [(8, 0x1000), (16, 0x4)], false, [⟨24, 8, .rw, (.const 128), .kept, none⟩,
    ⟨16, 8, .rw, (.const 128), .kept, none⟩,
    ⟨8, 8, .rw, (.const 128), .kept, none⟩,
    ⟨0, 8, .rw, (.const 128), .kept, none⟩]⟩,
  ⟨"CAL_PR_MT", 0x00401100, [(8, 0x1000), (128, 0x4)], false, [⟨16, 16, .rw, (.const 0x4000), .kept, none⟩,
    ⟨0, 16, .rw, (.const 0x4000), .kept, none⟩]⟩,
  ⟨"CAL_PR_MT", 0x00401300, [(8, 0x1000)], false, [⟨0, 16, .rw, (.const 0x4000), .kept, none⟩]⟩,
  ⟨"CAL_PR_DIGEST", 0x00401400, [(8, 0x1000)], false, [⟨0, 32, .ro, (.const 0), .cold, none⟩]⟩]

/-- Register rows of the blocks at 0x0050_0000. -/
def regRows005 : List RegRow := [
  ⟨"STO_CTRL", 0x00500000, [], false, [⟨16, 4, .rw, (.const 8), .cold, (some (0, 8))⟩,
    ⟨8, 5, .rw, (.const 4), .cold, (some (3, 16))⟩]⟩,
  ⟨"STO_AREA_BASE", 0x00500008, [], true, [⟨12, 27, .rw, (.const 0), .kept, none⟩]⟩,
  ⟨"STO_AREA_BLOCKS", 0x00500010, [], false, [⟨0, 27, .rw, (.const 0), .kept, none⟩]⟩,
  ⟨"STO_LEDGER_BASE", 0x00500018, [], true, [⟨17, 22, .rw, (.const 0), .kept, none⟩]⟩,
  ⟨"STO_LEDGER_CFG", 0x00500020, [], false, [⟨0, 16, .rw, (.const 0), .kept, none⟩]⟩,
  ⟨"STO_STATUS", 0x00500024, [], false, [⟨31, 1, .ro, (.const 0), .cold, none⟩,
    ⟨30, 1, .w1c, (.const 0), .cold, none⟩,
    ⟨16, 5, .ro, (.const 0), .cold, none⟩,
    ⟨0, 16, .ro, (.const 0), .cold, none⟩]⟩,
  ⟨"STO_FREE", 0x00500028, [], false, [⟨0, 27, .ro, (.const 0), .cold, none⟩]⟩,
  ⟨"STO_CNT", 0x00500100, [(10, 0x8)], true, [⟨63, 1, .sat, (.const 0), .cold, none⟩,
    ⟨0, 48, .sat, (.const 0), .cold, none⟩]⟩]

/-- Register rows of the blocks at 0x0060_0000. -/
def regRows006 : List RegRow := [
  ⟨"CCH_CTRL", 0x00600000, [], false, [⟨0, 1, .rw, (.const 0), .kept, none⟩]⟩,
  ⟨"CCH_DWELL", 0x00600004, [], false, [⟨16, 16, .bw, (.const 640), .kept, none⟩,
    ⟨0, 16, .bw, (.const 256), .kept, none⟩]⟩,
  ⟨"CCH_RES_BASE", 0x00600008, [], true, [⟨11, 28, .rw, (.const 0), .kept, none⟩]⟩,
  ⟨"CCH_SWAP_CTRL", 0x00600010, [], false, [⟨31, 1, .w1s, (.const 0), .cold, none⟩,
    ⟨0, 16, .rw, (.const 60), .kept, none⟩]⟩,
  ⟨"CCH_SWAP_LINES", 0x00600014, [], false, [⟨0, 16, .rw, (.const 4096), .kept, (some (256, 65535))⟩]⟩,
  ⟨"CCH_ROLE_REQ", 0x00600018, [], false, [⟨1, 1, .rw, (.const 0), .kept, none⟩,
    ⟨0, 1, .rw, (.const 0), .kept, none⟩]⟩,
  ⟨"CCX_STATUS", 0x00600040, [(2, 0x100000)], false, [⟨16, 16, .ro, (.const 0xffff), .cold, none⟩,
    ⟨4, 4, .ro, (.const 0), .cold, none⟩,
    ⟨0, 2, .ro, .couchRole, .cold, none⟩]⟩,
  ⟨"CCH_CURVE", 0x00600100, [(64, 0x4)], false, [⟨16, 16, .bw, .curveHi, .kept, none⟩,
    ⟨0, 16, .bw, .curveLo, .kept, none⟩]⟩,
  ⟨"CCX_CNT", 0x00600200, [(2, 0x100000), (4, 0x8)], true, [⟨63, 1, .sat, (.const 0), .cold, none⟩,
    ⟨0, 48, .sat, (.const 0), .cold, none⟩]⟩,
  ⟨"CCH_MASK", 0x00610000, [(8192, 0x4)], false, [⟨0, 32, .bw, (.const 0xffffffff), .kept, none⟩]⟩]

/-- Register rows of the blocks at 0x0080_0000. -/
def regRows008 : List RegRow := [
  ⟨"HLK_CTRL", 0x00800000, [], false, [⟨31, 1, .w1s, (.const 0), .cold, none⟩,
    ⟨16, 8, .rw, (.const 50), .cold, (some (10, 255))⟩,
    ⟨8, 4, .rw, (.const 4), .cold, (some (3, 15))⟩,
    ⟨4, 4, .rw, (.const 8), .cold, (some (2, 15))⟩,
    ⟨0, 1, .rw, (.const 1), .cold, none⟩]⟩,
  ⟨"HLK_STATUS", 0x00800004, [], false, [⟨16, 8, .ro, (.const 0), .cold, none⟩,
    ⟨1, 1, .ro, (.const 1), .cold, none⟩,
    ⟨0, 1, .ro, (.const 0), .cold, none⟩]⟩,
  ⟨"HLK_LINK_LIMIT", 0x00800008, [], false, [⟨0, 32, .ro, (.const 0), .cold, none⟩]⟩,
  ⟨"HLK_TEMP", 0x00800010, [], false, [⟨16, 16, .rw, (.const 1280), .kept, none⟩,
    ⟨0, 16, .rw, (.const 1120), .kept, none⟩]⟩,
  ⟨"HLK_TIME_CTRL", 0x00800014, [], false, [⟨24, 8, .rw, (.const 10), .cold, none⟩,
    ⟨0, 16, .rw, (.const 20), .cold, (some (5, 65535))⟩]⟩,
  ⟨"HLK_CHAIN_STATE", 0x00801000, [(128, 0x4)], false, [⟨16, 16, .ro, (.const 0), .cold, none⟩,
    ⟨8, 4, .ro, (.const 0), .cold, none⟩,
    ⟨4, 4, .ro, (.const 0), .cold, none⟩,
    ⟨0, 4, .ro, (.const 0), .cold, none⟩]⟩,
  ⟨"HLK_DRV_LAT", 0x00804000, [(1024, 0x8)], false, [⟨16, 16, .ro, (.const 0), .cold, none⟩,
    ⟨0, 16, .ro, (.const 0), .cold, none⟩]⟩,
  ⟨"HLK_DRV_INFO", 0x00804004, [(1024, 0x8)], false, [⟨16, 16, .ro, (.const 0), .cold, none⟩,
    ⟨0, 16, .ro, (.const 0x8000), .cold, none⟩]⟩,
  ⟨"HLK_ROW_PITCH", 0x00808000, [], false, [⟨0, 16, .bw, (.const 0), .kept, none⟩]⟩,
  ⟨"HLK_BAND_PITCH", 0x00808004, [], false, [⟨0, 18, .bw, (.const 0), .kept, none⟩]⟩,
  ⟨"HLK_GEOM_GEN", 0x00808008, [], false, [⟨16, 16, .ro, (.const 0), .kept, none⟩,
    ⟨0, 16, .ro, (.const 0), .kept, none⟩]⟩,
  ⟨"HLK_MAP", 0x00809000, [(1024, 0x4)], false, [⟨16, 16, .bw, (.const 0), .kept, none⟩,
    ⟨11, 1, .bw, (.const 0), .kept, none⟩,
    ⟨10, 1, .bw, .mapHalf, .kept, none⟩,
    ⟨8, 2, .bw, .mapBand, .kept, none⟩,
    ⟨0, 7, .bw, .mapClass, .kept, none⟩]⟩,
  ⟨"HLK_ARB_CTRL", 0x0080A000, [], false, [⟨16, 4, .rw, (.const 4), .cold, (some (1, 15))⟩,
    ⟨0, 8, .rw, (.const 16), .cold, (some (1, 255))⟩]⟩,
  ⟨"HLK_ARB_STATUS", 0x0080A004, [], false, [⟨16, 16, .ro, (.const 0), .kept, none⟩,
    ⟨2, 1, .ro, (.const 0), .cold, none⟩,
    ⟨0, 2, .ro, (.const 3), .cold, none⟩]⟩,
  ⟨"HLK_ARB_CNT", 0x0080A100, [(5, 0x8)], true, [⟨63, 1, .sat, (.const 0), .cold, none⟩,
    ⟨0, 48, .sat, (.const 0), .cold, none⟩]⟩,
  ⟨"HLK_SKEW", 0x0080B000, [(1024, 0x4)], false, [⟨0, 16, .bw, (.const 0), .kept, none⟩]⟩,
  ⟨"HLK_CNT", 0x0080C000, [(128, 0x40), (8, 0x8)], true, [⟨63, 1, .sat, (.const 0), .cold, none⟩,
    ⟨0, 48, .sat, (.const 0), .cold, none⟩]⟩]

/-- Register rows of the blocks at 0x0090_0000. -/
def regRows009 : List RegRow := [
  ⟨"LNS_REF_CTRL", 0x00900000, [], false, [⟨16, 4, .ro, (.const 0), .cold, none⟩,
    ⟨8, 4, .rw, (.const 0), .kept, none⟩,
    ⟨0, 4, .rw, (.const 15), .kept, none⟩]⟩,
  ⟨"LNS_ADAPT", 0x00900004, [], false, [⟨16, 8, .rw, (.const 64), .cold, (some (16, 255))⟩,
    ⟨0, 8, .rw, (.const 64), .cold, (some (16, 192))⟩]⟩,
  ⟨"LNS_EQ_MIN", 0x00900008, [], false, [⟨16, 6, .rw, (.const 19), .cold, none⟩,
    ⟨0, 8, .rw, (.const 30), .cold, none⟩]⟩,
  ⟨"LNS_STATUS", 0x0090000C, [], false, [⟨1, 1, .ro, (.const 0), .cold, none⟩,
    ⟨0, 1, .ro, (.const 0), .cold, none⟩]⟩,
  ⟨"LNS_LOOP_CTRL", 0x00900010, [], false, [⟨31, 1, .w1s, (.const 0), .cold, none⟩,
    ⟨16, 9, .rw, (.const 0), .cold, none⟩,
    ⟨8, 4, .rw, (.const 4), .cold, none⟩,
    ⟨0, 3, .rw, (.const 0), .cold, none⟩]⟩,
  ⟨"LNS_LOOP_RES", 0x00900018, [], true, [⟨63, 1, .ro, (.const 0), .cold, none⟩,
    ⟨62, 1, .ro, (.const 0), .cold, none⟩,
    ⟨0, 48, .ro, (.const 0), .cold, none⟩]⟩,
  ⟨"LNS_LANE_CTRL", 0x00901000, [(268, 0x10)], false, [⟨11, 1, .rw, (.const 0), .cold, none⟩,
    ⟨10, 1, .rw, (.const 0), .kept, none⟩,
    ⟨9, 1, .rw, (.const 1), .kept, none⟩,
    ⟨8, 1, .rw, (.const 0), .kept, none⟩,
    ⟨0, 3, .rw, (.const 3), .kept, none⟩]⟩,
  ⟨"LNS_LANE_TX", 0x00901004, [(268, 0x10)], false, [⟨24, 3, .ro, (.const 3), .cold, none⟩,
    ⟨16, 8, .ro, (.const 252), .cold, none⟩,
    ⟨8, 8, .ro, (.const 51), .cold, none⟩,
    ⟨0, 8, .ro, (.const 248), .cold, none⟩]⟩,
  ⟨"LNS_LANE_RX", 0x00901008, [(268, 0x10)], false, [⟨31, 1, .ro, (.const 0), .cold, none⟩,
    ⟨30, 1, .ro, (.const 0), .cold, none⟩,
    ⟨29, 1, .ro, (.const 0), .cold, none⟩,
    ⟨28, 1, .ro, (.const 1), .cold, none⟩,
    ⟨16, 6, .ro, (.const 0), .cold, none⟩,
    ⟨8, 4, .ro, (.const 0), .cold, none⟩,
    ⟨0, 8, .ro, (.const 0), .cold, none⟩]⟩,
  ⟨"LNS_HOP_EQ", 0x00904000, [(1024, 0x4)], false, [⟨16, 8, .rw, (.const 252), .kept, none⟩,
    ⟨8, 8, .rw, (.const 51), .kept, none⟩,
    ⟨0, 8, .rw, (.const 248), .kept, none⟩]⟩,
  ⟨"LNS_STROBE", 0x00906000, [(268, 0x4)], false, [⟨24, 8, .ro, (.const 0), .cold, none⟩,
    ⟨20, 4, .ro, (.const 0), .cold, none⟩,
    ⟨16, 2, .ro, (.const 0), .cold, none⟩,
    ⟨0, 6, .ro, (.const 32), .cold, none⟩]⟩,
  ⟨"LNS_CNT", 0x00908000, [(268, 0x20), (4, 0x8)], true, [⟨63, 1, .sat, (.const 0), .cold, none⟩,
    ⟨0, 48, .sat, (.const 0), .cold, none⟩]⟩]

/-- Register rows of the blocks at 0x00A0_0000 (part 1). -/
def regRows00A_1 : List RegRow := [
  ⟨"TID_POS_CFG", 0x00A00000, [], false, [⟨16, 16, .rw, (.const 40), .kept, (some (16, 65535))⟩,
    ⟨15, 1, .rw, (.const 0), .kept, none⟩,
    ⟨12, 2, .rw, (.const 1), .kept, none⟩,
    ⟨10, 2, .rw, (.const 1), .kept, none⟩,
    ⟨9, 1, .rw, (.const 0), .kept, none⟩,
    ⟨0, 2, .rw, (.const 0), .kept, none⟩]⟩,
  ⟨"TID_POS_CFG2", 0x00A00004, [], false, [⟨24, 8, .rw, (.const 8), .kept, (some (4, 255))⟩,
    ⟨16, 8, .rw, (.const 4), .kept, none⟩,
    ⟨8, 8, .rw, (.const 2), .kept, none⟩,
    ⟨0, 8, .rw, (.const 0), .kept, none⟩]⟩,
  ⟨"TID_VWIN", 0x00A00008, [], false, [⟨0, 16, .rw, (.const 4000), .kept, (some (400, 65535))⟩]⟩,
  ⟨"TID_MON", 0x00A0000C, [], false, [⟨16, 16, .rw, (.const 64), .kept, none⟩,
    ⟨0, 16, .rw, (.const 64), .kept, none⟩]⟩,
  ⟨"TID_LINE_PITCH", 0x00A00010, [], true, [⟨32, 32, .rw, (.const 0), .kept, none⟩,
    ⟨0, 32, .rw, (.const 0), .kept, none⟩]⟩,
  ⟨"TID_QREF", 0x00A00018, [], true, [⟨63, 1, .w1s, (.const 0), .cold, none⟩,
    ⟨0, 40, .rw, (.const 0), .kept, none⟩]⟩,
  ⟨"TID_POS", 0x00A00020, [], true, [⟨63, 1, .ro, (.const 0), .cold, none⟩,
    ⟨62, 1, .ro, (.const 0), .cold, none⟩,
    ⟨0, 40, .ro, (.const 0), .cold, none⟩]⟩,
  ⟨"TID_TICK", 0x00A00028, [], true, [⟨61, 3, .ro, (.const 0), .cold, none⟩,
    ⟨0, 48, .ro, (.const 0), .cold, none⟩]⟩,
  ⟨"TID_TIME", 0x00A00030, [], true, [⟨0, 64, .ro, (.const 0), .cold, none⟩]⟩,
  ⟨"TID_FIXED", 0x00A00038, [], false, [⟨0, 19, .rw, (.const 200), .kept, (some (200, 400000))⟩]⟩,
  ⟨"TID_PRED", 0x00A0003C, [], false, [⟨0, 16, .rw, (.const 200), .kept, none⟩]⟩,
  ⟨"TID_PRED_PEAK", 0x00A00040, [], false, [⟨0, 32, .ro, (.const 0), .cold, none⟩]⟩,
  ⟨"TID_SP_CFG", 0x00A00044, [], false, [⟨31, 1, .rw, (.const 0), .kept, none⟩,
    ⟨16, 15, .rw, (.const 0), .kept, none⟩,
    ⟨0, 16, .rw, (.const 4000), .kept, none⟩]⟩,
  ⟨"TID_PRF_VMAX", 0x00A00048, [], false, [⟨0, 32, .rw, (.const 0), .kept, none⟩]⟩,
  ⟨"TID_PRF_AMAX", 0x00A00050, [], true, [⟨0, 48, .rw, (.const 0), .kept, none⟩]⟩,
  ⟨"TID_PRF_JMAX", 0x00A00058, [], true, [⟨0, 48, .rw, (.const 0), .kept, none⟩]⟩,
  ⟨"TID_PRF_PMIN", 0x00A00060, [], true, [⟨0, 40, .rw, (.const 0), .kept, none⟩]⟩,
  ⟨"TID_PRF_PMAX", 0x00A00068, [], true, [⟨0, 40, .rw, (.const 0), .kept, none⟩]⟩,
  ⟨"TID_PRF_CTRL", 0x00A00070, [], false, [⟨16, 16, .rw, (.const 0), .kept, none⟩,
    ⟨8, 8, .rw, (.const 0), .kept, none⟩,
    ⟨0, 1, .rw, (.const 0), .kept, none⟩]⟩,
  ⟨"TID_PRF_STATUS", 0x00A00074, [], false, [⟨5, 1, .ro, (.const 0), .cold, none⟩,
    ⟨4, 1, .ro, (.const 0), .cold, none⟩,
    ⟨0, 2, .ro, (.const 0), .cold, none⟩]⟩]

/-- Register rows of the blocks at 0x00A0_0000 (part 2). -/
def regRows00A_2 : List RegRow := [
  ⟨"TID_STOP", 0x00A00078, [], false, [⟨0, 16, .rw, (.const 4096), .kept, none⟩]⟩,
  ⟨"TID_STOP_LEAD", 0x00A0007C, [], false, [⟨0, 32, .ro, (.const 4096), .cold, none⟩]⟩,
  ⟨"TID_GOV_CAP", 0x00A00080, [], false, [⟨0, 21, .rw, (.const 0x1e8480), .kept, (some (1000, 2000000))⟩]⟩,
  ⟨"TID_GOV_MIN", 0x00A00084, [], false, [⟨0, 21, .rw, (.const 1000), .kept, (some (1000, 2000000))⟩]⟩,
  ⟨"TID_GOV_TEMP", 0x00A00088, [], false, [⟨0, 8, .rw, (.const 230), .kept, (some (1, 255))⟩]⟩,
  ⟨"TID_GOV_NOW", 0x00A0008C, [], false, [⟨28, 4, .ro, (.const 0), .cold, none⟩,
    ⟨0, 21, .ro, (.const 0), .cold, none⟩]⟩,
  ⟨"TID_CNT", 0x00A00100, [(8, 0x8)], true, [⟨63, 1, .sat, (.const 0), .cold, none⟩,
    ⟨0, 48, .sat, (.const 0), .cold, none⟩]⟩]

/-- Register rows of the blocks at 0x00A0_0000. -/
def regRows00A : List RegRow := regRows00A_1 ++ regRows00A_2

/-- Register rows of the blocks at 0x00B0_0000. -/
def regRows00B : List RegRow := [
  ⟨"LOOP_PERIOD", 0x00B00000, [(4, 0x1000)], false, [⟨0, 19, .rw, (.const 400), .kept, (some (400, 400000))⟩]⟩,
  ⟨"LOOP_PHASE", 0x00B00004, [(4, 0x1000)], false, [⟨0, 19, .rw, (.const 48), .kept, none⟩]⟩,
  ⟨"LOOP_SRC", 0x00B00008, [(4, 0x1000)], false, [⟨24, 8, .rw, (.const 40), .kept, (some (16, 255))⟩,
    ⟨16, 8, .rw, (.const 3), .kept, (some (1, 255))⟩,
    ⟨8, 1, .rw, (.const 0), .kept, none⟩,
    ⟨4, 1, .rw, (.const 0), .kept, none⟩,
    ⟨0, 3, .rw, .index, .kept, none⟩]⟩,
  ⟨"LOOP_YORG", 0x00B00010, [(4, 0x1000)], true, [⟨0, 40, .rw, (.const 0), .kept, none⟩]⟩,
  ⟨"LOOP_REF", 0x00B00018, [(4, 0x1000)], false, [⟨0, 24, .rw, (.const 0), .kept, none⟩]⟩,
  ⟨"LOOP_REF_STEP", 0x00B0001C, [(4, 0x1000)], false, [⟨0, 24, .rw, (.const 0), .kept, none⟩]⟩,
  ⟨"LOOP_KFF", 0x00B00020, [(4, 0x1000)], false, [⟨0, 32, .rw, (.const 0), .kept, none⟩]⟩,
  ⟨"LOOP_MODE", 0x00B00024, [(4, 0x1000)], false, [⟨16, 2, .ro, (.const 0), .cold, none⟩,
    ⟨8, 1, .w1s, (.const 0), .cold, none⟩,
    ⟨4, 1, .ro, (.const 0), .cold, none⟩,
    ⟨0, 2, .rw, (.const 0), (.val 0), (some (0, 2))⟩]⟩,
  ⟨"LOOP_SAFE", 0x00B00028, [(4, 0x1000)], false, [⟨0, 24, .rw, (.const 0), .kept, none⟩]⟩,
  ⟨"LOOP_OPEN", 0x00B0002C, [(4, 0x1000)], false, [⟨0, 24, .rw, (.const 0), .kept, none⟩]⟩,
  ⟨"LOOP_SLEW", 0x00B00030, [(4, 0x1000)], false, [⟨0, 24, .rw, (.const 0), .kept, none⟩]⟩,
  ⟨"LOOP_SUP", 0x00B00034, [(4, 0x1000)], false, [⟨16, 16, .rw, (.const 0), .kept, none⟩,
    ⟨8, 8, .rw, (.const 0), .kept, none⟩,
    ⟨1, 1, .rw, (.const 0), .kept, none⟩,
    ⟨0, 1, .rw, (.const 1), .kept, none⟩]⟩,
  ⟨"LOOP_SUP_ALPHA", 0x00B00038, [(4, 0x1000)], false, [⟨0, 16, .rw, (.const 0), .kept, none⟩]⟩,
  ⟨"LOOP_STATUS", 0x00B0003C, [(4, 0x1000)], false, [⟨31, 1, .ro, (.const 0), .cold, none⟩,
    ⟨30, 1, .ro, (.const 0), .cold, none⟩,
    ⟨29, 1, .ro, (.const 0), .cold, none⟩,
    ⟨28, 1, .ro, (.const 0), .cold, none⟩,
    ⟨0, 24, .ro, (.const 0), .cold, none⟩]⟩,
  ⟨"LOOP_CNT", 0x00B00080, [(4, 0x1000), (4, 0x8)], true, [⟨63, 1, .sat, (.const 0), .cold, none⟩,
    ⟨0, 48, .sat, (.const 0), .cold, none⟩]⟩,
  ⟨"LOOP_BK_COEF", 0x00B00100, [(4, 0x1000), (2, 0x40), (8, 0x4)], false, [⟨0, 32, .rw, (.const 0), .kept, none⟩]⟩,
  ⟨"LOOP_BK_LIM", 0x00B00120, [(4, 0x1000), (2, 0x40)], true, [⟨56, 1, .rw, (.const 0), .kept, none⟩,
    ⟨24, 24, .rw, (.const 0), .kept, none⟩,
    ⟨0, 24, .rw, (.const 0), .kept, none⟩]⟩]

/-- Register rows of the blocks at 0x00C0_0000. -/
def regRows00C : List RegRow := [
  ⟨"EXP_CTRL", 0x00C00000, [], false, [⟨16, 1, .rw, (.const 1), .kept, none⟩,
    ⟨8, 4, .rw, (.const 3), .kept, (some (1, 15))⟩,
    ⟨0, 1, .rw, (.const 1), .kept, none⟩]⟩,
  ⟨"EXP_STATE", 0x00C00004, [], false, [⟨16, 5, .ro, (.const 31), .cold, none⟩,
    ⟨7, 1, .ro, (.const 0), .cold, none⟩,
    ⟨6, 1, .ro, (.const 0), .cold, none⟩,
    ⟨5, 1, .ro, (.const 0), .cold, none⟩,
    ⟨4, 1, .ro, (.const 0), .cold, none⟩,
    ⟨0, 3, .ro, (.const 0), .cold, none⟩]⟩,
  ⟨"EXP_PLAN", 0x00C00008, [], true, [⟨56, 8, .ro, (.const 0), .cold, none⟩,
    ⟨0, 48, .ro, (.const 0xffffffffffff), .cold, none⟩]⟩,
  ⟨"EXP_BREAK", 0x00C00010, [], true, [⟨56, 8, .ro, (.const 0), .kept, none⟩,
    ⟨54, 2, .ro, (.const 0), .kept, none⟩,
    ⟨0, 48, .ro, (.const 0), .kept, none⟩]⟩,
  ⟨"EXP_RESUME", 0x00C00018, [], true, [⟨56, 8, .ro, (.const 0), .cold, none⟩,
    ⟨0, 48, .ro, (.const 0), .cold, none⟩]⟩,
  ⟨"EXP_WAIT", 0x00C00020, [], false, [⟨0, 15, .ro, (.const 0), .cold, none⟩]⟩,
  ⟨"EXP_NEAP", 0x00C00024, [], false, [⟨0, 16, .rw, (.const 1000), .kept, none⟩]⟩,
  ⟨"EXP_CNT", 0x00C00100, [(8, 0x8)], true, [⟨63, 1, .sat, (.const 0), .cold, none⟩,
    ⟨0, 48, .sat, (.const 0), .cold, none⟩]⟩]

/-- Register rows of the blocks at 0x00D0_0000 (part 1). -/
def regRows00D_1 : List RegRow := [
  ⟨"HCR_CTRL", 0x00D00000, [], false, [⟨31, 1, .w1s, (.const 0), .kept, none⟩,
    ⟨30, 1, .w1s, (.const 0), .kept, none⟩,
    ⟨0, 16, .rw, (.const 60), .kept, none⟩]⟩,
  ⟨"HCR_CAL_CTRL", 0x00D00004, [], false, [⟨0, 8, .rw, (.const 48), .kept, (some (8, 255))⟩]⟩,
  ⟨"HCR_STATUS", 0x00D00008, [], false, [⟨31, 1, .ro, (.const 1), .kept, none⟩,
    ⟨30, 1, .ro, (.const 0), .kept, none⟩,
    ⟨29, 1, .ro, (.const 1), .kept, none⟩,
    ⟨28, 1, .ro, (.const 0), .kept, none⟩,
    ⟨27, 1, .ro, (.const 0), .kept, none⟩,
    ⟨24, 3, .ro, (.const 0), .kept, none⟩]⟩,
  ⟨"HCR_GEN", 0x00D0000C, [], false, [⟨16, 16, .ro, (.const 0), .kept, none⟩,
    ⟨0, 16, .ro, (.const 0), .kept, none⟩]⟩,
  ⟨"HCR_DEAD_N", 0x00D00010, [], false, [⟨0, 19, .ro, (.const 0), .kept, none⟩]⟩,
  ⟨"HCR_STUCK_N", 0x00D00014, [], false, [⟨0, 19, .ro, (.const 0), .kept, none⟩]⟩,
  ⟨"HCR_RMIN", 0x00D00018, [], false, [⟨0, 32, .bw, (.const 0), .kept, none⟩]⟩,
  ⟨"HCR_RMAX", 0x00D0001C, [], false, [⟨0, 32, .bw, (.const 0xfffffffe), .kept, none⟩]⟩,
  ⟨"HCR_LMAX", 0x00D00020, [], false, [⟨0, 32, .bw, (.const 0xfffffffe), .kept, none⟩]⟩,
  ⟨"HCR_POLICY", 0x00D00024, [], false, [⟨2, 1, .bw, (.const 1), .kept, none⟩,
    ⟨1, 1, .bw, (.const 1), .kept, none⟩,
    ⟨0, 1, .bw, (.const 1), .kept, none⟩]⟩,
  ⟨"HCR_MEAS_CTRL", 0x00D00028, [], false, [⟨16, 16, .rw, (.const 1000), .kept, none⟩,
    ⟨0, 8, .rw, (.const 20), .kept, (some (6, 255))⟩]⟩,
  ⟨"HCR_ALIGN_LIM", 0x00D0002C, [], false, [⟨16, 16, .rw, (.const 256), .kept, none⟩,
    ⟨0, 16, .rw, (.const 64), .kept, none⟩]⟩,
  ⟨"HCR_CURVE_SEL", 0x00D00030, [], false, [⟨12, 3, .bw, (.const 0), .kept, none⟩,
    ⟨8, 3, .bw, (.const 0), .kept, none⟩,
    ⟨4, 3, .bw, (.const 0), .kept, none⟩,
    ⟨0, 3, .bw, (.const 0), .kept, none⟩]⟩,
  ⟨"HCR_CURVE_SEL_RES", 0x00D00034, [], false, [⟨12, 3, .ro, (.const 0), .kept, none⟩,
    ⟨8, 3, .ro, (.const 0), .kept, none⟩,
    ⟨4, 3, .ro, (.const 0), .kept, none⟩,
    ⟨0, 3, .ro, (.const 0), .kept, none⟩]⟩,
  ⟨"HCR_STROBE_TGT", 0x00D00038, [], false, [⟨0, 16, .rw, (.const 0), .kept, none⟩]⟩,
  ⟨"HCR_STROBE_LIM", 0x00D0003C, [], false, [⟨24, 8, .rw, (.const 34), .kept, none⟩,
    ⟨16, 8, .rw, (.const 18), .kept, none⟩,
    ⟨0, 8, .rw, (.const 10), .kept, none⟩]⟩,
  ⟨"HCR_CAL_TEMP", 0x00D00040, [], false, [⟨0, 16, .ro, (.const 0x8000), .kept, none⟩]⟩,
  ⟨"HCR_CNT", 0x00D00100, [(6, 0x8)], true, [⟨63, 1, .sat, (.const 0), .kept, none⟩,
    ⟨0, 48, .sat, (.const 0), .kept, none⟩]⟩,
  ⟨"HCR_ALIGN", 0x00D01000, [(512, 0x4)], false, [⟨24, 8, .ro, (.const 0), .kept, none⟩,
    ⟨16, 8, .bw, (.const 0), .kept, none⟩,
    ⟨0, 16, .bw, (.const 0), .kept, none⟩]⟩,
  ⟨"HCR_ALIGN_RES", 0x00D02000, [(512, 0x4)], false, [⟨24, 8, .ro, (.const 0), .kept, none⟩,
    ⟨16, 8, .ro, (.const 0), .kept, none⟩,
    ⟨0, 16, .ro, (.const 0), .kept, none⟩]⟩]

/-- Register rows of the blocks at 0x00D0_0000 (part 2). -/
def regRows00D_2 : List RegRow := [
  ⟨"HCR_DRV_SERIAL", 0x00D04000, [(1024, 0x4)], false, [⟨0, 32, .ro, (.const 0), .kept, none⟩]⟩,
  ⟨"HCR_DEFECT", 0x00D10000, [(16384, 0x4)], false, [⟨0, 32, .bw, (.const 0), .kept, none⟩]⟩,
  ⟨"HCR_DEFECT_RES", 0x00D20000, [(16384, 0x4)], false, [⟨0, 32, .ro, (.const 0xffffffff), .kept, none⟩]⟩]

/-- Register rows of the blocks at 0x00D0_0000. -/
def regRows00D : List RegRow := regRows00D_1 ++ regRows00D_2

/-- Register rows of the blocks at 0x00E0_0000. -/
def regRows00E : List RegRow := [
  ⟨"AUX_CFG", 0x00E00000, [(3, 0x1000)], false, [⟨24, 8, .rw, (.const 80), .kept, (some (40, 255))⟩,
    ⟨16, 8, .rw, (.const 80), .kept, (some (40, 255))⟩,
    ⟨8, 8, .rw, (.const 200), .kept, (some (40, 255))⟩,
    ⟨7, 1, .rw, (.const 0), .kept, none⟩,
    ⟨6, 1, .rw, .auxLock, .kept, none⟩,
    ⟨5, 1, .rw, (.const 0), .kept, none⟩,
    ⟨4, 1, .rw, (.const 0), .kept, none⟩,
    ⟨3, 1, .rw, (.const 0), .kept, none⟩,
    ⟨2, 1, .rw, (.const 0), .kept, none⟩,
    ⟨1, 1, .rw, (.const 0), .kept, none⟩,
    ⟨0, 1, .rw, (.const 0), .kept, none⟩]⟩,
  ⟨"AUX_VMAX", 0x00E00004, [(3, 0x1000)], false, [⟨0, 32, .rw, (.const 0), .kept, none⟩]⟩,
  ⟨"AUX_AMAX", 0x00E00008, [(3, 0x1000)], false, [⟨0, 32, .rw, (.const 0), .kept, none⟩]⟩,
  ⟨"AUX_JMAX", 0x00E0000C, [(3, 0x1000)], false, [⟨0, 32, .rw, (.const 0), .kept, none⟩]⟩,
  ⟨"AUX_PMIN", 0x00E00010, [(3, 0x1000)], true, [⟨0, 48, .rw, (.const 0), .kept, none⟩]⟩,
  ⟨"AUX_PMAX", 0x00E00018, [(3, 0x1000)], true, [⟨0, 48, .rw, (.const 0), .kept, none⟩]⟩,
  ⟨"AUX_POS", 0x00E00020, [(3, 0x1000)], true, [⟨63, 1, .ro, (.const 0), .cold, none⟩,
    ⟨0, 48, .ro, (.const 0), .cold, none⟩]⟩,
  ⟨"AUX_ENC", 0x00E00028, [(3, 0x1000)], true, [⟨32, 16, .ro, (.const 0), .cold, none⟩,
    ⟨0, 32, .ro, (.const 0), .cold, none⟩]⟩,
  ⟨"AUX_ENC_RATIO", 0x00E00030, [(3, 0x1000)], false, [⟨0, 32, .rw, (.const 0x10000), .kept, (some (1, 4294967295))⟩]⟩,
  ⟨"AUX_DEV", 0x00E00034, [(3, 0x1000)], false, [⟨16, 16, .rw, (.const 1000), .kept, (some (10, 65535))⟩,
    ⟨0, 16, .rw, (.const 16), .kept, none⟩]⟩,
  ⟨"AUX_SETTLE", 0x00E00038, [(3, 0x1000)], false, [⟨16, 16, .rw, (.const 4), .kept, none⟩,
    ⟨0, 16, .rw, (.const 20), .kept, none⟩]⟩,
  ⟨"AUX_HOME", 0x00E00040, [(3, 0x1000)], true, [⟨63, 1, .rw, (.const 0), .kept, none⟩,
    ⟨62, 1, .rw, (.const 0), .kept, none⟩,
    ⟨0, 48, .rw, (.const 0), .kept, none⟩]⟩,
  ⟨"AUX_HOME_V", 0x00E00048, [(3, 0x1000)], false, [⟨0, 32, .rw, (.const 1600), .kept, none⟩]⟩,
  ⟨"AUX_FILT", 0x00E0004C, [(3, 0x1000)], false, [⟨8, 8, .rw, (.const 100), .kept, (some (1, 255))⟩,
    ⟨0, 2, .rw, (.const 1), .kept, none⟩]⟩,
  ⟨"AUX_STATUS", 0x00E00050, [(3, 0x1000)], false, [⟨24, 4, .ro, (.const 0), .cold, none⟩,
    ⟨16, 3, .ro, (.const 0), .cold, none⟩,
    ⟨3, 1, .ro, (.const 0), .cold, none⟩,
    ⟨2, 1, .ro, (.const 0), .cold, none⟩,
    ⟨0, 1, .ro, (.const 0), .cold, none⟩]⟩,
  ⟨"AUX_CTRL", 0x00E00054, [(3, 0x1000)], false, [⟨31, 1, .w1s, (.const 0), .cold, none⟩,
    ⟨30, 1, .w1s, (.const 0), .cold, none⟩]⟩,
  ⟨"AUX_CNT", 0x00E00100, [(3, 0x1000), (4, 0x8)], true, [⟨63, 1, .sat, (.const 0), .cold, none⟩,
    ⟨0, 48, .sat, (.const 0), .cold, none⟩]⟩,
  ⟨"AUX_HOLD", 0x00E0F000, [], false, [⟨30, 2, .wo, (.const 0), .cold, none⟩,
    ⟨0, 5, .wo, (.const 0), .cold, none⟩]⟩,
  ⟨"AUX_HOLD_STATUS", 0x00E0F004, [], false, [⟨0, 32, .ro, (.const 0), .cold, none⟩]⟩]

/-- Register rows of the blocks at 0x00F0_0000. -/
def regRows00F : List RegRow := [
  ⟨"CSC_CFG", 0x00F00000, [], false, [⟨8, 3, .rw, (.const 1), .kept, (some (1, 4))⟩,
    ⟨4, 3, .rw, (.const 0), .kept, none⟩,
    ⟨0, 2, .rw, (.const 0), .kept, none⟩]⟩,
  ⟨"CSC_STATUS", 0x00F00004, [], false, [⟨31, 1, .ro, (.const 0), .cold, none⟩,
    ⟨30, 1, .ro, (.const 0), .cold, none⟩,
    ⟨8, 8, .ro, (.const 0), .cold, none⟩,
    ⟨0, 3, .ro, (.const 0), .cold, none⟩]⟩,
  ⟨"CSC_LAT", 0x00F00008, [], false, [⟨0, 16, .rw, (.const 20), .kept, (some (5, 65535))⟩]⟩,
  ⟨"CSC_PORT", 0x00F00010, [(3, 0x4)], false, [⟨16, 16, .ro, (.const 0), .cold, none⟩,
    ⟨8, 2, .ro, (.const 0), .cold, none⟩,
    ⟨4, 4, .ro, (.const 0), .cold, none⟩,
    ⟨0, 4, .ro, (.const 0), .cold, none⟩]⟩,
  ⟨"CSC_SKEW", 0x00F00020, [(3, 0x4)], false, [⟨0, 16, .rw, (.const 0), .kept, none⟩]⟩,
  ⟨"CSC_CNT", 0x00F00100, [(6, 0x8)], true, [⟨63, 1, .sat, (.const 0), .cold, none⟩,
    ⟨0, 48, .sat, (.const 0), .cold, none⟩]⟩]

/-- Register rows of the blocks at 0x0100_0000. -/
def regRows010 : List RegRow := [
  ⟨"MEM_CFG", 0x01000000, [], false, [⟨9, 1, .rw, (.const 1), .kept, none⟩,
    ⟨8, 1, .rw, (.const 0), .kept, none⟩,
    ⟨4, 2, .rw, (.const 0), .kept, none⟩,
    ⟨0, 2, .rw, (.const 2), .kept, (some (0, 2))⟩]⟩,
  ⟨"MEM_ILV", 0x01000004, [], false, [⟨0, 4, .rw, (.const 12), .kept, (some (8, 16))⟩]⟩,
  ⟨"MEM_CTRL", 0x01000008, [], false, [⟨31, 1, .w1s, (.const 0), .cold, none⟩]⟩,
  ⟨"MEM_STATUS", 0x0100000C, [], false, [⟨31, 1, .ro, (.const 0), .cold, none⟩,
    ⟨30, 1, .ro, (.const 0), .cold, none⟩,
    ⟨28, 2, .ro, (.const 0), .cold, none⟩,
    ⟨16, 8, .ro, (.const 0), .cold, none⟩,
    ⟨8, 6, .ro, (.const 0), .cold, none⟩,
    ⟨0, 6, .ro, (.const 0), .cold, none⟩]⟩,
  ⟨"MEM_SIZE", 0x01000010, [], true, [⟨0, 39, .ro, (.const 0), .cold, none⟩]⟩,
  ⟨"MEM_REF", 0x01000018, [], false, [⟨4, 4, .rw, (.const 8), .kept, (some (1, 8))⟩,
    ⟨0, 1, .rw, (.const 0), .kept, none⟩]⟩,
  ⟨"MEM_THERM", 0x0100001C, [], false, [⟨0, 16, .rw, (.const 250), .kept, (some (16, 65535))⟩]⟩,
  ⟨"MEM_SCHED", 0x01000020, [], false, [⟨16, 8, .rw, (.const 48), .kept, none⟩,
    ⟨8, 8, .rw, (.const 16), .kept, none⟩,
    ⟨0, 8, .rw, (.const 8), .kept, (some (1, 255))⟩]⟩,
  ⟨"MEM_PORT_TGT", 0x01000040, [(8, 0x4)], false, [⟨0, 20, .rw, .portTarget, .kept, none⟩]⟩,
  ⟨"MEM_TRN_STATE", 0x01000100, [(6, 0x4)], false, [⟨24, 8, .ro, (.const 0), .cold, none⟩,
    ⟨16, 8, .ro, (.const 0), .cold, none⟩,
    ⟨8, 1, .ro, (.const 0), .cold, none⟩,
    ⟨0, 8, .ro, (.const 0), .cold, none⟩]⟩,
  ⟨"MEM_TRN_MASK", 0x01000200, [(6, 0x10), (2, 0x8)], true, [⟨0, 40, .ro, (.const 0), .cold, none⟩]⟩,
  ⟨"MEM_LANE", 0x01001000, [(6, 0x200), (2, 0x100), (40, 0x4)], false, [⟨24, 8, .ro, (.const 0), .cold, none⟩,
    ⟨16, 8, .ro, (.const 0), .cold, none⟩,
    ⟨8, 8, .ro, (.const 0), .cold, none⟩,
    ⟨0, 8, .ro, (.const 0), .cold, none⟩]⟩,
  ⟨"MEM_CNT", 0x01002000, [(6, 0x40), (7, 0x8)], true, [⟨63, 1, .sat, (.const 0), .cold, none⟩,
    ⟨0, 48, .sat, (.const 0), .cold, none⟩]⟩]

/-- Register rows of the blocks at 0x0110_0000. -/
def regRows011 : List RegRow := [
  ⟨"INT_CTRL", 0x01100000, [], false, [⟨31, 1, .rw, (.const 1), .kept, none⟩,
    ⟨30, 1, .rw, (.const 1), .kept, none⟩,
    ⟨16, 8, .rw, (.const 10), .kept, (some (1, 255))⟩,
    ⟨0, 16, .rw, (.const 16), .kept, (some (2, 65535))⟩]⟩,
  ⟨"INT_SCRUB", 0x01100004, [], false, [⟨8, 24, .ro, (.const 0), .cold, none⟩,
    ⟨0, 8, .rw, (.const 24), .kept, (some (1, 255))⟩]⟩,
  ⟨"INT_SCRUB_POS", 0x01100008, [], true, [⟨0, 39, .ro, (.const 0), .cold, none⟩]⟩,
  ⟨"INT_ERASE_REQ", 0x01100010, [], false, [⟨31, 1, .w1s, (.const 0), .cold, none⟩,
    ⟨5, 3, .rw, (.const 0), .kept, none⟩,
    ⟨4, 1, .rw, (.const 0), .kept, none⟩,
    ⟨3, 1, .rw, (.const 0), .kept, none⟩,
    ⟨0, 3, .rw, (.const 0), .kept, none⟩]⟩,
  ⟨"INT_ERASE", 0x01100040, [(6, 0x4)], false, [⟨0, 16, .ro, (.const 0), .cold, none⟩]⟩,
  ⟨"INT_POISON_SIG", 0x01100060, [(4, 0x4)], false, [⟨0, 32, .ro, .poisonSig, .cold, none⟩]⟩,
  ⟨"INT_OWNER_BASE", 0x01100100, [(16, 0x10)], true, [⟨6, 33, .rw, (.const 0), .kept, none⟩]⟩,
  ⟨"INT_OWNER_SIZE", 0x01100108, [(16, 0x10)], true, [⟨6, 33, .rw, (.const 0), .kept, none⟩,
    ⟨60, 4, .rw, (.const 0), .kept, none⟩]⟩,
  ⟨"INT_TEST_CTRL", 0x01100300, [], false, [⟨31, 1, .w1s, (.const 0), .cold, none⟩,
    ⟨8, 3, .ro, (.const 0), .cold, none⟩,
    ⟨0, 3, .rw, (.const 0), .kept, none⟩]⟩,
  ⟨"INT_TEST_ADDR", 0x01100308, [], true, [⟨6, 33, .rw, (.const 0), .kept, none⟩]⟩,
  ⟨"INT_TEST_SRAM", 0x01100310, [], false, [⟨16, 12, .rw, (.const 0), .kept, none⟩,
    ⟨0, 13, .rw, (.const 0), .kept, none⟩]⟩,
  ⟨"INT_TEST_DATA", 0x01100340, [(20, 0x4)], false, [⟨0, 32, .rw, (.const 0), .kept, none⟩]⟩,
  ⟨"INT_CHK_VAL", 0x01100400, [(4, 0x8)], true, [⟨0, 64, .rw, (.const 0), .kept, none⟩]⟩,
  ⟨"INT_CNT", 0x01101000, [(6, 0x40), (6, 0x8)], true, [⟨63, 1, .sat, (.const 0), .cold, none⟩,
    ⟨0, 48, .sat, (.const 0), .cold, none⟩]⟩,
  ⟨"INT_SCNT", 0x01102000, [(4, 0x8)], true, [⟨63, 1, .sat, (.const 0), .cold, none⟩,
    ⟨0, 48, .sat, (.const 0), .cold, none⟩]⟩]

/-- Register rows of the blocks at 0x0120_0000 (part 1). -/
def regRows012_1 : List RegRow := [
  ⟨"TIM_CTRL", 0x01200000, [], false, [⟨31, 1, .w1s, (.const 0), .cold, none⟩,
    ⟨4, 2, .rw, (.const 0), .kept, (some (0, 2))⟩,
    ⟨3, 1, .rw, (.const 0), .kept, none⟩,
    ⟨0, 1, .rw, (.const 0), .kept, none⟩]⟩,
  ⟨"TIM_STATUS", 0x01200004, [], false, [⟨16, 16, .ro, (.const 0), .kept, none⟩,
    ⟨15, 1, .ro, (.const 0), .cold, none⟩,
    ⟨8, 3, .ro, (.const 0), .cold, none⟩,
    ⟨0, 3, .ro, (.const 0), .kept, none⟩]⟩,
  ⟨"TIM_NOW", 0x01200008, [], true, [⟨30, 34, .ro, (.const 0), .cold, none⟩,
    ⟨0, 30, .ro, (.const 0), .cold, none⟩]⟩,
  ⟨"TIM_NOW_HI", 0x01200010, [], false, [⟨16, 16, .ro, (.const 0), .cold, none⟩,
    ⟨0, 14, .ro, (.const 0), .cold, none⟩]⟩,
  ⟨"TIM_INC", 0x01200018, [], true, [⟨32, 4, .ro, (.const 2), .kept, none⟩,
    ⟨0, 32, .ro, (.const 0x80000000), .kept, none⟩]⟩,
  ⟨"TIM_LIM0", 0x01200020, [], false, [⟨16, 16, .rw, (.const 200), .kept, none⟩,
    ⟨0, 16, .rw, (.const 100), .kept, none⟩]⟩,
  ⟨"TIM_LIM1", 0x01200024, [], false, [⟨16, 16, .rw, (.const 16), .kept, (some (1, 65535))⟩,
    ⟨0, 16, .rw, (.const 3600), .kept, none⟩]⟩,
  ⟨"TIM_LIM2", 0x01200028, [], false, [⟨0, 32, .rw, (.const 0x2710), .kept, (some (100, 4294967295))⟩]⟩,
  ⟨"TIM_LIM3", 0x0120002C, [], false, [⟨0, 24, .rw, (.const 0x186a0), .kept, (some (1, 500000))⟩]⟩,
  ⟨"TIM_MAP_HEAD", 0x01200030, [], true, [⟨0, 64, .ro, (.const 0), .cold, none⟩]⟩,
  ⟨"TIM_MAP_PTP", 0x01200038, [], true, [⟨30, 34, .ro, (.const 0), .cold, none⟩,
    ⟨0, 30, .ro, (.const 0), .cold, none⟩]⟩,
  ⟨"TIM_MAP_AUX", 0x01200040, [], false, [⟨16, 16, .ro, (.const 0), .cold, none⟩,
    ⟨0, 14, .ro, (.const 0), .cold, none⟩]⟩,
  ⟨"TIM_CLOCK_ID", 0x01200048, [], true, [⟨0, 64, .rw, (.const 0), .kept, none⟩]⟩,
  ⟨"TIM_PORT_CFG", 0x01200100, [(2, 0x100)], false, [⟨31, 1, .rw, (.const 0), .kept, none⟩,
    ⟨30, 1, .rw, (.const 1), .kept, none⟩,
    ⟨28, 2, .rw, (.const 0), .kept, (some (0, 2))⟩,
    ⟨27, 1, .rw, (.const 0), .kept, none⟩,
    ⟨26, 1, .rw, (.const 0), .kept, none⟩,
    ⟨25, 1, .rw, (.const 0), .kept, none⟩,
    ⟨16, 8, .rw, (.const 0), .kept, none⟩,
    ⟨12, 1, .rw, (.const 0), .kept, none⟩,
    ⟨0, 12, .rw, (.const 0), .kept, none⟩]⟩,
  ⟨"TIM_PORT_MAC", 0x01200108, [(2, 0x100)], true, [⟨0, 48, .rw, (.const 0), .kept, none⟩]⟩,
  ⟨"TIM_PORT_IP4", 0x01200110, [(2, 0x100)], false, [⟨0, 32, .rw, (.const 0), .kept, none⟩]⟩,
  ⟨"TIM_PORT_IP6", 0x01200120, [(2, 0x100), (4, 0x4)], false, [⟨0, 32, .rw, (.const 0), .kept, none⟩]⟩,
  ⟨"TIM_PORT_LAT", 0x01200130, [(2, 0x100)], false, [⟨16, 16, .rw, (.const 0), .kept, none⟩,
    ⟨0, 16, .rw, (.const 0), .kept, none⟩]⟩,
  ⟨"TIM_PORT_STATUS", 0x01200134, [(2, 0x100)], false, [⟨31, 1, .ro, (.const 0), .cold, none⟩,
    ⟨0, 4, .ro, (.const 3), .cold, none⟩]⟩,
  ⟨"TIM_PORT_GM", 0x01200138, [(2, 0x100)], true, [⟨0, 64, .ro, (.const 0), .cold, none⟩]⟩]

/-- Register rows of the blocks at 0x0120_0000 (part 2). -/
def regRows012_2 : List RegRow := [
  ⟨"TIM_PORT_MEAS", 0x01200140, [(2, 0x100)], true, [⟨32, 32, .ro, (.const 0), .cold, none⟩,
    ⟨0, 32, .ro, (.const 0), .cold, none⟩]⟩,
  ⟨"TIM_TLM_DST", 0x01200148, [(2, 0x100)], true, [⟨48, 16, .rw, (.const 0), .kept, none⟩,
    ⟨0, 48, .rw, (.const 0), .kept, none⟩]⟩,
  ⟨"TIM_TLM_IP", 0x01200150, [(2, 0x100), (4, 0x4)], false, [⟨0, 32, .rw, (.const 0), .kept, none⟩]⟩,
  ⟨"TIM_CNT", 0x01200400, [(8, 0x8)], true, [⟨63, 1, .sat, (.const 0), .cold, none⟩,
    ⟨0, 48, .sat, (.const 0), .cold, none⟩]⟩]

/-- Register rows of the blocks at 0x0120_0000. -/
def regRows012 : List RegRow := regRows012_1 ++ regRows012_2

/-- Register rows of the blocks at 0x0130_0000. -/
def regRows013 : List RegRow := [
  ⟨"BWT_ENABLE", 0x01300000, [], false, [⟨0, 1, .bw, (.const 0), .kept, none⟩]⟩,
  ⟨"BWT_DOSE_WIN", 0x01300004, [], false, [⟨0, 24, .bw, (.const 0x2d00), .kept, none⟩]⟩,
  ⟨"BWT_INT_LO", 0x01300008, [], false, [⟨0, 24, .bw, (.const 0), .kept, none⟩]⟩,
  ⟨"BWT_INT_HI", 0x0130000C, [], false, [⟨0, 24, .bw, (.const 0), .kept, none⟩]⟩,
  ⟨"BWT_MAX_RATE", 0x01300010, [], false, [⟨0, 21, .bw, (.const 0x1e8480), .kept, none⟩]⟩,
  ⟨"BWT_SVN_REQ", 0x01300014, [], false, [⟨8, 7, .ro, (.const 0), .kept, none⟩,
    ⟨0, 7, .bw, (.const 0), .kept, none⟩]⟩,
  ⟨"BWT_PROP_ADDR", 0x01300020, [], true, [⟨3, 61, .rw, (.const 0), .kept, none⟩]⟩,
  ⟨"BWT_PROP_CTRL", 0x01300028, [], false, [⟨31, 1, .w1s, (.const 0), .kept, none⟩,
    ⟨30, 1, .w1s, (.const 0), .kept, none⟩]⟩,
  ⟨"BWT_PROP_STATUS", 0x0130002C, [], false, [⟨24, 8, .ro, (.const 0), .kept, none⟩,
    ⟨16, 4, .ro, (.const 0), .kept, none⟩,
    ⟨0, 16, .ro, (.const 0), .kept, none⟩]⟩,
  ⟨"BWT_SEQ", 0x01300030, [], false, [⟨0, 32, .ro, (.const 0), .kept, none⟩]⟩,
  ⟨"BWT_LAST_DIGEST", 0x01300034, [], false, [⟨0, 32, .ro, (.const 0), .kept, none⟩]⟩,
  ⟨"BWT_BOOT", 0x01300038, [], false, [⟨16, 8, .ro, (.const 0), .kept, none⟩,
    ⟨12, 4, .ro, (.const 0), .kept, none⟩,
    ⟨8, 4, .ro, (.const 0), .kept, none⟩,
    ⟨0, 1, .ro, (.const 0), .kept, none⟩]⟩,
  ⟨"BWT_CNT", 0x01300100, [(4, 0x8)], true, [⟨63, 1, .sat, (.const 0), .kept, none⟩,
    ⟨0, 48, .sat, (.const 0), .kept, none⟩]⟩]

/-- Register rows of the blocks at 0x0140_0000. -/
def regRows014 : List RegRow := [
  ⟨"PWR_DOMAIN_STATUS", 0x01400000, [], false, [⟨16, 16, .ro, (.const 0), .cold, none⟩,
    ⟨0, 16, .ro, (.const 1), .cold, none⟩]⟩,
  ⟨"PWR_QUAD_CTRL", 0x01400004, [], false, [⟨31, 1, .rw, (.const 1), .kept, none⟩,
    ⟨0, 20, .rw, (.const 1000), .kept, (some (10, 1000000))⟩]⟩,
  ⟨"PWR_CLK_STATUS", 0x01400008, [], false, [⟨8, 1, .ro, (.const 0), .cold, none⟩,
    ⟨7, 1, .ro, (.const 0), .cold, none⟩,
    ⟨6, 1, .ro, (.const 0), .cold, none⟩,
    ⟨5, 1, .ro, (.const 0), .cold, none⟩,
    ⟨4, 1, .ro, (.const 0), .cold, none⟩,
    ⟨3, 1, .ro, (.const 0), .cold, none⟩,
    ⟨2, 1, .ro, (.const 0), .cold, none⟩,
    ⟨1, 1, .ro, (.const 0), .cold, none⟩,
    ⟨0, 1, .ro, (.const 0), .cold, none⟩]⟩,
  ⟨"PWR_BRINGUP", 0x0140000C, [], false, [⟨31, 1, .ro, (.const 0), .cold, none⟩,
    ⟨24, 4, .ro, (.const 0), .cold, none⟩,
    ⟨16, 4, .ro, (.const 0), .cold, none⟩,
    ⟨0, 16, .ro, (.const 0), .cold, none⟩]⟩,
  ⟨"PWR_RESET_CAUSE", 0x01400010, [], false, [⟨7, 1, .w1c, (.const 0), .cold, none⟩,
    ⟨6, 1, .w1c, (.const 0), .cold, none⟩,
    ⟨5, 1, .w1c, (.const 0), .cold, none⟩,
    ⟨4, 1, .w1c, (.const 0), .cold, none⟩,
    ⟨3, 1, .w1c, (.const 0), .cold, none⟩,
    ⟨2, 1, .w1c, (.const 0), .cold, none⟩,
    ⟨1, 1, .w1c, (.const 0), .cold, none⟩,
    ⟨0, 1, .w1c, (.const 1), .cold, none⟩]⟩,
  ⟨"PWR_DIE_TEMP", 0x01400014, [], false, [⟨16, 16, .ro, (.const 0x8000), .cold, none⟩,
    ⟨0, 16, .ro, (.const 0x8000), .cold, none⟩]⟩,
  ⟨"PWR_TEMP_WARN", 0x01400018, [], false, [⟨16, 16, .ro, (.const 1840), .cold, none⟩,
    ⟨0, 16, .rw, (.const 1680), .kept, none⟩]⟩,
  ⟨"PWR_CNT", 0x01400100, [(7, 0x8)], true, [⟨63, 1, .sat, (.const 0), .cold, none⟩,
    ⟨0, 48, .sat, (.const 0), .cold, none⟩]⟩]

/-- Register rows of the blocks at 0x0150_0000. -/
def regRows015 : List RegRow := [
  ⟨"OBS_CTRL", 0x01500000, [], false, [⟨1, 1, .rw, (.const 0), .kept, none⟩,
    ⟨0, 1, .rw, (.const 0), .kept, none⟩]⟩,
  ⟨"OBS_SRC_PORT", 0x01500004, [], false, [⟨3, 12, .rw, (.const 1), .kept, none⟩,
    ⟨0, 3, .ro, (.const 7), .kept, none⟩]⟩,
  ⟨"OBS_SRC_RING", 0x01500008, [], false, [⟨3, 12, .rw, (.const 1), .kept, none⟩,
    ⟨0, 3, .ro, (.const 7), .kept, none⟩]⟩,
  ⟨"OBS_FILT", 0x0150000C, [], false, [⟨0, 16, .rw, (.const 0xffff), .kept, none⟩]⟩,
  ⟨"OBS_RING_BASE", 0x01500010, [], true, [⟨12, 52, .rw, (.const 0), .kept, none⟩]⟩,
  ⟨"OBS_RING_CFG", 0x01500018, [], false, [⟨31, 1, .rw, (.const 0), .kept, none⟩,
    ⟨16, 5, .rw, (.const 16), .kept, (some (16, 30))⟩,
    ⟨0, 11, .rw, (.const 1000), .kept, (some (1, 2000))⟩]⟩,
  ⟨"OBS_RING_WR", 0x0150001C, [], false, [⟨0, 32, .ro, (.const 0), .cold, none⟩]⟩,
  ⟨"OBS_RING_RD", 0x01500020, [], false, [⟨0, 32, .rw, (.const 0), .kept, none⟩]⟩,
  ⟨"OBS_RING_SHADOW", 0x01500028, [], true, [⟨2, 62, .rw, (.const 0), .kept, none⟩]⟩,
  ⟨"OBS_TRIG", 0x01500030, [], true, [⟨63, 1, .rw, (.const 0), .kept, none⟩,
    ⟨32, 16, .rw, (.const 0), .kept, none⟩,
    ⟨0, 16, .rw, (.const 0), .kept, none⟩]⟩,
  ⟨"OBS_STATUS", 0x01500038, [], false, [⟨2, 1, .ro, (.const 0), .cold, none⟩,
    ⟨1, 1, .ro, (.const 0), .cold, none⟩,
    ⟨0, 1, .ro, (.const 0), .cold, none⟩]⟩,
  ⟨"OBS_SNAP_ADDR", 0x01500040, [], true, [⟨6, 58, .rw, (.const 0), .kept, none⟩]⟩,
  ⟨"OBS_SNAP_CTRL", 0x01500048, [], false, [⟨31, 1, .w1s, (.const 0), .cold, none⟩,
    ⟨30, 1, .ro, (.const 0), .cold, none⟩]⟩,
  ⟨"OBS_CNT", 0x01500100, [(6, 0x8)], true, [⟨63, 1, .sat, (.const 0), .cold, none⟩,
    ⟨0, 48, .sat, (.const 0), .cold, none⟩]⟩]

/-- The rows of the MiB of BAR 0 that an offset lies in. -/
def regRowsOf (mib : Nat) : List RegRow :=
  match mib with
  | 0x01 => regRows001
  | 0x02 => regRows002
  | 0x03 => regRows003
  | 0x04 => regRows004
  | 0x05 => regRows005
  | 0x06 => regRows006
  | 0x08 => regRows008
  | 0x09 => regRows009
  | 0x0A => regRows00A
  | 0x0B => regRows00B
  | 0x0C => regRows00C
  | 0x0D => regRows00D
  | 0x0E => regRows00E
  | 0x0F => regRows00F
  | 0x10 => regRows010
  | 0x11 => regRows011
  | 0x12 => regRows012
  | 0x13 => regRows013
  | 0x14 => regRows014
  | 0x15 => regRows015
  | 0x07 => regRows006
  | _ => []

/-- Index values of an offset distance under a list of (count, stride), and the rest below the last stride. -/
def splitIndex : List (Nat × Nat) → Nat → Option (List Nat × Nat)
  | [], d => some ([], d)
  | (c, st) :: r, d =>
    if d / st < c then
      match splitIndex r (d % st) with
      | some (is, rest) => some (d / st :: is, rest)
      | none => none
    else none

/-- The indices and the word (0 low, 1 high) at which an offset meets a register row. -/
def RegRow.matchOffset (r : RegRow) (off : Nat) : Option (List Nat × Nat) :=
  if off < r.base then none else
    match splitIndex r.dims (off - r.base) with
    | some (is, 0) => some (is, 0)
    | some (is, 4) => if r.wide then some (is, 1) else none
    | _ => none

/-- The first row of a list that an offset lies in. -/
def findRowIn (off : Nat) : List RegRow → Option (RegRow × List Nat × Nat)
  | [] => none
  | r :: rs =>
    match r.matchOffset off with
    | some (is, h) => some (r, is, h)
    | none => findRowIn off rs

/-- The register row of a BAR 0 offset, its indices and which of its words it is. -/
def findRow (off : Nat) : Option (RegRow × List Nat × Nat) :=
  findRowIn off (regRowsOf (off / 0x100000))

/-- The cold reset value of a field of the register with the given indices. -/
def Cold.value (c : Cold) (is : List Nat) : Nat :=
  let i := is.headD 0
  match c with
  | .const n => n
  | .mapHalf => i % 8 % 2
  | .mapBand => i % 8 / 2
  | .mapClass => i / 8
  | .vatRole => if i = 7 ∨ i = 15 then 1 else 0
  | .curveHi => 64 * (2 * (i % 8) + 1)
  | .curveLo => 64 * (2 * (i % 8))
  | .couchRole => 3
  | .index => i
  | .auxLock => if i < 2 then 1 else 0
  | .portTarget => [0, 2000, 4000, 2000, 8000, 1000, 20000, 100000].getD i 0
  | .poisonSig => [0x5A3C96E1, 0xC3A50F78, 0x2D4BE187, 0x96F03C5A].getD i 0

/-- The 64-bit reset value of the register with the given indices. -/
def RegRow.resetValue (r : RegRow) (is : List Nat) : Nat :=
  r.fields.foldl (fun a f => a + f.cold.value is * 2 ^ f.lo) 0

/-- What a register word reads as before anything has changed it: the Reset column of its table (R14), and 0 where
no register lies (R12). -/
def resetWord (off : Nat) : BitVec 32 :=
  match findRow off with
  | some (r, is, h) => BitVec.ofNat 32 (r.resetValue is / 2 ^ (32 * h))
  | none => 0

end Sys2Proof.Machine
end

