-- ==== Sys2Proof/Machine/State.lean ====
section
/-! DEFINITION. The state of the block as plain data, its faults and refusals, and the state after a power-on reset.
Registers of BAR 0 have one home, State.regs; everything that the spec gives the device beside its registers stands
in the structures of the units below. -/
namespace Sys2Proof.Machine

/-- Why the block stops. The block has no fault: every failure the spec describes is an event and a next state. -/
inductive Fault where
  /-- Raised by nothing: kept so that the outcome type has a fault side. Safe: no command stops with it. -/
  | none
  deriving DecidableEq, Repr

/-- Why a command is refused. -/
inductive Refusal where
  /-- The command has no meaning yet; the dispatch raises it under the command's mnemonic. Safe: nothing is claimed. -/
  | notModelled (mnemonic : String)
  deriving DecidableEq, Repr

/-- The register file: words of BAR 0 by offset, in canonical form over their reset values. -/
abbrev RegFile := List (Nat × BitVec 32)

/-! ### Host interface (chapter 19) -/

/-- A job in flight (R439): from the taking of its descriptor to its completion. -/
structure Job where
  aseq : Nat
  ring : Nat
  eq : Nat
  opcode : Nat
  tag : Nat
  compAddr : Nat
  quiet : Bool
  deriving DecidableEq, Repr

/-- An event (R455) as it waits on chip: code, severity code, time, tick, epoch and payload bytes. -/
structure Event where
  code : Nat
  sev : Nat
  time : Nat
  tick : Nat
  epoch : Nat
  payload : List (BitVec 8)
  completion : Bool
  deriving DecidableEq, Repr

/-- The on-chip side of an event ring (R441, R442): queued events, and the moderation of its interrupt. -/
structure EventRing where
  queue : List Event
  armed : Bool
  written : Nat
  firstAt : Option Nat
  urgent : Bool
  lost : Bool
  deriving DecidableEq, Repr

/-- Host interface state that no register holds. -/
structure HostState where
  jobs : List Job
  nextAseq : Nat
  events : List EventRing
  msixPba : Nat
  msixSent : List Nat
  d3hot : Bool
  perstLow : Bool
  configReady : Bool
  heldWrites : List (Nat × List (BitVec 8))
  retries : List (HostRead × Nat)
  abortJobs : List Nat
  abortCount : Nat
  domainOffAt : Option Nat
  deriving DecidableEq, Repr

/-! ### Pattern streams (chapters 3 and 5) -/

/-- A primitive or reference of a section or a cell body (R66 to R68), coordinates in grains. -/
inductive Shape where
  | rect (cls : Nat) (x0 x1 y0 y1 : Int)
  | trap (cls : Nat) (xl0 xr0 xl1 xr1 y0 y1 : Int)
  | disc (cls : Nat) (xc yc : Int) (rad : Nat)
  | patch (zeroSkip : Bool) (x y : Int) (w h sx sy : Nat) (elems : List Nat)
  | ref (orient cell : Nat) (x y : Int)
  | aref (orient cell : Nat) (x y : Int) (nx ny : Nat) (dx dy : Int)
  deriving DecidableEq, Repr

/-- A cell definition (R56, R57, R65). -/
structure Cell where
  num : Nat
  bx0 : Int
  bx1 : Int
  by0 : Int
  by1 : Int
  depth : Nat
  shapes : List Shape
  bytes : Nat
  deriving DecidableEq, Repr

/-- A MARGIN record as parsed (R71). -/
structure Margin where
  side : Nat
  ream : Nat
  wb : Nat
  data : List Nat
  deriving DecidableEq, Repr

/-- A parsed section: its offset from STRIP, its records with their stream offsets, and its mark (R70). -/
structure Section where
  off : Nat
  /-- The offset of its REAM_MARK from STRIP, once parsed. -/
  markOff : Nat
  shapes : List (Nat × Shape)
  margins : List Margin
  marked : Bool
  wm : List Nat
  poisoned : Option Nat
  ream : Nat := 0
  /-- The section comes from a corrected source (R80), which lies in DRAM or in host memory. -/
  corrected : Option Bool := none
  deriving DecidableEq, Repr

/-- A strip of a stream as parsed so far (R62 to R74). -/
structure StripRec where
  id : Nat
  lines : Nat
  bytes : Nat
  off : Nat
  v2 : Bool
  table : List Nat
  sections : List Section
  /-- Declared seams: record offset, first line, count. -/
  seams : List (Nat × Nat × Nat)
  checked : List (Nat × Bool)
  ended : Bool
  /-- The fault that stopped the strip (R80): the ream, or none for the whole strip, and the event's code. -/
  fault : Option (Option Nat × Nat)
  /-- MARGIN records without effect (R138, R144). -/
  idle : Nat := 0
  deriving DecidableEq, Repr

/-- Where the parser of a stream stands (R55). -/
inductive Ctx where
  | start
  | stream
  | cell (num : Nat) (bx0 bx1 by0 by1 : Int) (records depth off : Nat) (shapes : List Shape)
  | header (tabled : Bool)
  | sect (r : Nat)
  | tail
  | skip
  /-- In the walk of a backwash strip (R59): STRIP_END, the mark of ream r, or the padding of the tail comes next. -/
  | tailBack
  | markBack (r : Nat)
  | padBack
  deriving DecidableEq, Repr

/-- The walk of a backwash strip from its end (R59): the stream offsets at which its section 0 begins, and at which the
mark of the section in hand stands. -/
structure BackWalk where
  start : Nat
  stop : Nat
  deriving DecidableEq, Repr

/-- A LAYOUT job on a stream: its acceptance number and the stream offset at which its bytes end. -/
structure LayoutJob where
  aseq : Nat
  upTo : Nat
  /-- The stream offset of its first byte, and that byte's address where its source is host memory. -/
  start : Nat := 0
  src : Option Nat := none
  deriving DecidableEq, Repr

/-- A stream handle (R447). -/
structure Stream where
  isOpen : Bool
  v2 : Bool
  received : Nat
  parsed : Nat
  last : Bool
  ctx : Ctx
  cells : List Cell
  strips : List StripRec
  failed : Option Nat
  jobs : List LayoutJob
  work : Nat
  workLen : Nat
  workUsed : Nat
  /-- The layout jobs' sources (R102): the stream offset at which each one's bytes end, and whether they lie in DRAM. -/
  sources : List (Nat × Bool) := []
  back : Option BackWalk := none
  /-- The DRAM ranges that layout jobs have named (R422): first address, length. -/
  ranges : List (Nat × Nat) := []
  deriving DecidableEq, Repr

/-! ### Strips, render and store (chapters 5 to 7, 13) -/

/-- A break mark of the ledger (R168). -/
structure Mark where
  tick : Nat
  kind : Nat
  cause : Nat
  who : Nat
  tile : Nat
  state : Nat
  count : Nat
  deriving DecidableEq, Repr

/-- The ledger record of a strip (R168) with the times of its life. -/
structure StripLedger where
  stripId : Nat
  lines : Nat
  tS : Nat
  dir : Nat
  state : Nat
  geomGen : Nat
  marks : List Mark
  finalBreak : Option Nat
  released : Nat
  deriving DecidableEq, Repr

/-- A seam of a strip: declared lines and what has become of it (R73). -/
structure Seam where
  off : Nat
  first : Nat
  count : Nat
  confirmed : Bool
  dropped : Bool
  deriving DecidableEq, Repr

/-- A coarse job that has not been agreed: its ream and tile column, the renders so far as (vat, block values). -/
structure CoarseJob where
  ream : Nat
  col : Nat
  renders : List (Nat × List Nat)
  disputed : Bool
  deriving DecidableEq, Repr

/-- A posted or open strip (R305, R306, R448). Its latched set-up is the register file as it stood at FLOOD (R49,
R177, R200, R263). -/
structure Strip where
  slot : Nat
  stripId : Nat
  handle : Nat
  aseq : Nat
  ring : Nat
  backwash : Bool
  fixedClock : Bool
  lastOfLayer : Bool
  deckle : Nat
  profile : Nat
  layer : Nat
  pS : Int
  isOpen : Bool
  latched : Option RegFile
  hostHold : Bool
  /-- Coarse maps agreed (R121): (ream, tile column, 4,096 block values). -/
  coarse : List (Nat × Nat × List Nat)
  coarseJobs : List CoarseJob
  /-- Halo rows received (R137): (side, block row, values from the shared edge). -/
  halo : List (Nat × Nat × List Nat)
  /-- For each accepted tile, the lines on which all its doses are 0 (R73): (ream, tile, lines within the ream). -/
  zeroLines : List (Nat × Nat × List Nat)
  seams : List Seam
  /-- Reams whose ledger slot has been released (R171). -/
  releasedReams : List Nat
  /-- Reams disputed or malformed, which end exposure before them (R311): (ream, cause). -/
  barriers : List (Int × Nat)
  limited : Nat
  rendered : Bool
  ticksFired : Nat
  /-- The greatest strip-local tick emitted for the strip (R284). -/
  reached : Option Int := none
  bursts : Nat
  ledgerLost : Bool
  /-- A mark was needed after the last entry of the record had been used (R169). -/
  marksFull : Bool := false
  /-- Done ticks of R317, one for each driver, strip-local; empty while the strip has had no stop. -/
  doneTicks : List Int
  /-- A stop whose done ticks R317 has still to settle: kind and t_B. -/
  unsettled : List (Nat × Int)
  /-- Ticks and drivers of CUT records not yet counted (R322). -/
  cuts : List (Nat × Nat)
  passes : Nat
  /-- RESUME jobs that wait for the strip (R449). -/
  resumeJobs : List Nat
  /-- Coarse pairs rendered again for a poisoned byte (R145): ream, tile column, the ream whose job met it; halo rows
  requested again: side, row. -/
  coarseRepairs : List (Nat × Nat × Nat) := []
  haloAsked : List (Nat × Nat) := []
  /-- The sub-code of the last refusal of a resume that was reported, 0 for none (R318). -/
  refused : Nat := 0
  /-- The beam whose liveness a commit has changed from the latched one since the strip's exposure was interrupted (R200,
  R319). -/
  dead : Option Nat := none
  deriving DecidableEq, Repr

/-- Kinds of tile job (R105). -/
inductive JobKind where
  | fine | recheck | ledger | coarse | spareTest
  deriving DecidableEq, Repr

/-- A tile job in flight (R106): its vat, and value A of the mismatch it rechecks (R115). -/
structure TileJob where
  kind : JobKind
  slot : Nat
  ream : Nat
  col : Nat
  vat : Nat
  valueA : Option (Option Nat)
  vatA : Nat
  due : Option Nat
  expect : Nat
  deriving DecidableEq, Repr

/-- A job waiting to be issued: RECHECK, LEDGER, third coarse render or spare test. -/
structure WantedJob where
  kind : JobKind
  slot : Nat
  ream : Nat
  col : Nat
  notVat : Nat
  valueA : Option (Option Nat)
  due : Option Nat
  expect : Nat
  deriving DecidableEq, Repr

/-- Headbox state that no register holds. -/
structure HeadboxState where
  streams : List Stream
  strips : List Strip
  jobs : List TileJob
  wanted : List WantedJob
  accepted : Nat
  nextSpare : Nat
  roleReq : Bool
  wakingQuads : List Nat
  /-- Vats that complete their queued jobs before they take a requested role (R126): vat, role. -/
  leaving : List (Nat × Nat) := []
  deriving DecidableEq, Repr

/-- A tile of a ream record (R170). -/
structure TileRec where
  status : Nat
  vat : Nat
  renders : Nat
  bursts : Nat
  deriving DecidableEq, Repr

/-- A segment directory entry (R170). -/
structure SegEntry where
  off : Nat
  bytes : Nat
  form : Nat
  crc : List Nat
  deriving DecidableEq, Repr


/-- A ream slot of the ledger (R170), with the store blocks of its groups and what is left of its reservation. -/
structure ReamSlot where
  /-- The ledger's slot number, which places its reserve-table entry (R184). -/
  index : Nat
  stripSlot : Nat
  ream : Nat
  state : Nat
  dir : Nat
  /-- Band states (R170): 0 not begun, 1 firing, 2 done. Open marks by band follow from the marks. -/
  bands : List Nat
  tiles : List TileRec
  groups : List (List Nat)
  /-- The next free byte of each class group. -/
  ends : List Nat
  segs : List (Nat × SegEntry)
  reserved : Nat
  /-- Blocks taken from those held back for LEDGER re-renders (R158). -/
  extra : Nat
  /-- The reserve demand D_r (R184), once the ream is STORED. -/
  demand : Nat
  deriving DecidableEq, Repr

/-- An accepted tile on its way into the store: its final doses row by row, and whether a byte of it is poisoned. -/
structure HeldTile where
  slot : Nat
  ream : Nat
  col : Nat
  vat : Nat
  trusted : Bool
  isLedger : Bool
  doses : List Nat
  poisoned : Bool
  deriving DecidableEq, Repr

/-- One filled half of a reader's felt buffer (R160): the chunk and its doses, 32 lines of 512 columns. -/
structure FeltHalf where
  reader : Nat
  slot : Nat
  ream : Nat
  chunk : Nat
  doses : List Nat
  lostTiles : List Nat
  deriving DecidableEq, Repr

/-- A part of a chunk that has failed once (R162); `lost`: its second decode has failed as well. -/
structure RetryPart where
  reader : Nat
  slot : Nat
  ream : Nat
  chunk : Nat
  col : Nat
  lost : Bool := false
  deriving DecidableEq, Repr

/-- What a segment decoder has still to yield of the token in hand (R160). -/
inductive Pending where
  | nothing
  | run (value left : Nat)
  | copy (dist left : Nat)
  | lits (left : Nat)
  deriving DecidableEq, Repr

/-- The context of a segment decoder at a chunk's start (R160): bit offset, coding position, the values it can copy from
with the latest first (at most 256, R153), and the token in hand. -/
structure FeedCtx where
  bit : Nat
  pos : Nat
  hist : List Nat
  pending : Pending
  deriving DecidableEq, Repr

/-- A reader in the middle of a segment (R160, R174): the copy that it reads, the chunk that comes next, and the context
saved at that chunk's start, or the subcode of the error that keeps the decoder from it. -/
structure ReaderCtx where
  reader : Nat
  slot : Nat
  ream : Nat
  col : Nat
  chunk : Nat
  entry : SegEntry
  ctx : FeedCtx
  failed : Option Nat
  deriving DecidableEq, Repr

/-- A request to render a lost tile again (R123, R163). -/
structure LostTile where
  slot : Nat
  ream : Nat
  col : Nat
  due : Option Nat
  accepted : Bool
  deriving DecidableEq, Repr

/-- A host codec job (R164 to R166) that is queued, running or paused in a context slot. -/
structure CodecJob where
  aseq : Nat
  /-- The opcode of the job that a CONTINUE continues, and that of its present descriptor's bytes. -/
  opcode : Nat
  desc : List (BitVec 8)
  /-- Input bytes given so far, over the job and its continuations. -/
  input : List (BitVec 8)
  /-- Output bytes written and input bytes consumed so far. -/
  outDone : Nat
  inDone : Nat
  raw : Bool
  expect : Nat
  context : Option Nat
  paused : Bool
  /-- A compress job holds a compressor (R165). -/
  engine : Bool := false
  /-- A paused job's host job, for the completion that an abort gives it (R166, R174). -/
  job : Option Job := none
  /-- The offset in the input of its first byte that DRAM holds poisoned, and that byte's burst (R166, R417). -/
  flawed : Option (Nat × Nat) := none
  deriving DecidableEq, Repr

/-- Store, feed and ledger state that no register holds. -/
structure StoreState where
  ledger : List StripLedger
  slots : List ReamSlot
  held : List HeldTile
  felt : List FeltHalf
  retries : List RetryPart
  lost : List LostTile
  codec : List CodecJob
  ledgerPoison : List (Nat × Nat)
  readers : List ReaderCtx := []
  deriving DecidableEq, Repr

/-! ### Time and observation (chapters 20 and 23): what the shared operations need -/

/-- The local clock (R465): seconds, nanoseconds and the fraction of a nanosecond in 2^-32. -/
structure Clock where
  sec : Nat
  ns : Nat
  frac : Nat
  deriving DecidableEq, Repr

/-- One destination of trace packets (R519, R522): next SEQ, packets dropped since the last accepted one, and since the
last 0x1402. -/
structure TraceDest where
  seq : Nat
  lost : Nat
  dropped : Nat
  /-- What its buffer of 256 KiB holds, in 1/400 byte, at a tide time (R522). -/
  fill : Nat := 0
  since : Nat := 0
  /-- The packets that its buffer took last, as they stand on its lines (R523). -/
  out : List Byte := []
  deriving DecidableEq, Repr

/-- Instructions of the boundary-scan port (R529). -/
inductive ScanInstr where
  | idcode | bypass | samplePreload | extest | clamp | highz
  deriving DecidableEq, Repr

/-- Observation state that no register holds: the two destinations, the bytes left after a trigger, a snapshot in
progress (its latched values and tide time), and the boundary-scan port. -/
structure ObsState where
  port : TraceDest
  ring : TraceDest
  postLeft : Nat
  snapshot : List (Nat × Bool × Nat)
  snapTime : Nat
  lostRaisedAt : List (Option Nat)
  bscanEnable : Bool
  scan : ScanInstr
  /-- The bits that the instruction's test data register puts on OBS_TDO (R529). -/
  dataReg : BitVec 32
  heldInReset : Bool
  /-- The counters of this unit and of the telemetry whose saturation has been raised (R10): their offsets. -/
  satSeen : List Nat := []
  deriving DecidableEq, Repr

/-! ### Exposure sequencer (chapter 13) -/

/-- A stop that has been decided and whose BREAK has not been entered (R313): its tick, cause and kind. -/
structure PendingStop where
  tick : Int
  cause : Nat
  kind : Nat
  /-- The DEVICE that detected it, for a stop of another device. -/
  origin : Nat := 0
  deriving DecidableEq, Repr

/-- What an abandoned FLOOD leaves of its strip, once SLACK is reached (R308). -/
inductive AfterFlood where
  | retry | failed (cause : Nat) | hold | endIt | aborted
  deriving DecidableEq, Repr

/-- Sequencer state that no register holds. -/
structure SeqState where
  /-- The resume tick t_a and the tick t_e of the run (R308, R320). -/
  ta : Int := 0
  te : Int := 0
  resuming : Bool := false
  repairOnly : Bool := false
  /-- The last strip-local tick of an open mark, at which a repair-only pass ends (R320). -/
  repairEnd : Int := 0
  /-- Store breaks with a due tick (R167, R311): slot, ream, tile, strip-local due tick. -/
  dueBreaks : List (Nat × Nat × Nat × Int) := []
  /-- A planned break that the host asked for at a tick (R315), and a pending seam-mode STOP. -/
  hostBreak : Option Int := none
  seamStop : Bool := false
  prompt : Option PendingStop := none
  /-- A stop of another device of the cascade, at its common tick (R377). -/
  relayed : Option PendingStop := none
  afterFlood : Option AfterFlood := none
  /-- HEAD_BLANK_N is still released in BREAK, until the pulses of line t_B - 1 end (R313). -/
  blankLag : Bool := false
  /-- STOP and END jobs that wait: acceptance numbers. -/
  stopJobs : List Nat := []
  endJobs : List Nat := []
  waitRaised : Option Nat := none
  lowRaised : Bool := false
  idleSince : Option Nat := none
  waking : Bool := false
  /-- The sequencer has asked for a test: swap, measurement, calibration (EXP_WAIT bit 8). -/
  quiet : Bool := false
  /-- A cause of the stop is marked Auto (R315), and AUTO_RESUME decides whether it needs the host. -/
  autoStop : Bool := false
  deriving DecidableEq, Repr

/-! ### Tide unit (chapter 11) -/

/-- A quadrature input (R261): accepted levels and count. -/
structure Quad where
  a : Bool := false
  b : Bool := false
  count : Nat := 0
  deriving DecidableEq, Repr

/-- A planned interval (R281 to R283): its strip record, its number, the permitted and the planned rate, the code of the
governing limit. -/
structure IntervalPlan where
  slot : Nat
  r : Int
  rate : Nat
  cause : Nat
  /-- The interval was planned at a higher rate before (R283, R284). -/
  lowered : Bool := false
  deriving DecidableEq, Repr

/-- A job of the scan stage that waits (R450): a target, or the entries of a table (duration, end velocity, end position). -/
structure MoveJob where
  aseq : Nat
  target : Int
  table : Option (List (Nat × Int × Int))
  deriving DecidableEq, Repr

/-- A set-point of the profile (R272): the tide time for which it holds, position, velocity and acceleration in the units of
TideState. -/
structure SetPoint where
  at' : Nat
  pos : Int
  vel : Int
  acc : Int
  deriving DecidableEq, Repr

/-- Tide-unit state that no register holds. Set-points: positions in counts times 2^16, velocities in counts per
microsecond times 2^16, accelerations in counts per microsecond squared times 2^24. -/
structure TideState where
  /-- The last trigger edge of each serial port. -/
  lastEdge : List (Option Nat) := [none, none]
  /-- Valid samples of the source in service, newest first: count and tide time. -/
  samples : List (Nat × Int) := []
  missRun : Nat := 0
  missRaised : Bool := false
  /-- The counts of the source in service and of the monitor at the entry to FLOOD (R262); none while a serial monitor has
  given no count yet. -/
  svcRef : Nat := 0
  monRef : Option Nat := none
  /-- Outstanding trigger edges of each serial port, oldest first. -/
  edges : List (List Nat) := [[], []]
  quads : List Quad := [{}, {}]
  armedAt : Option Int := none
  /-- The last strip-local tick emitted since the generator was armed. -/
  emitted : Option Int := none
  /-- T_last of R270. -/
  tLast : Nat := 0
  tS : Nat := 0
  latch : Option Int := none
  /-- Ticks whose instants are committed and whose crossing has not passed: tick, head time, crossing in 1/64 clock. -/
  committed : List (Int × Int × Int) := []
  tauA : Int := 0
  testDiv : Nat := 0
  pos : Int := 0
  vel : Int := 0
  acc : Int := 0
  target : Option Int := none
  reverse : Option Int := none
  job : Option Nat := none
  /-- Segments left of a table move: duration, end velocity, end position; with the start state and start time. -/
  table : List (Nat × Int × Int) := []
  segPos : Int := 0
  segVel : Int := 0
  segStart : Nat := 0
  /-- Deferred limit changes: register offset and value. -/
  deferred : List (Nat × Nat) := []
  /-- The set-points of the last 256 planner steps, newest first: the ends of their segments (R272, R277). -/
  setpoints : List SetPoint := []
  /-- The tide time of the last planner step (R274). -/
  stepAt : Option Nat := none
  /-- The profile has been placed at the measured position (R274). -/
  placed : Bool := false
  plans : List IntervalPlan := []
  tempLimit : Option Nat := none
  /-- The strip-local tick at which the planned velocity first falls below the floor of R310. -/
  slowTick : Option Int := none
  spSeq : Nat := 0
  spFrame : List (BitVec 8) := []
  /-- The last set-point frame was sent at this tide time, and the last TEST tick. -/
  spAt : Option Nat := none
  testAt : Option Nat := none
  /-- The commanded velocity and acceleration at the instant of the latest valid sample (R265). -/
  velAt : Int := 0
  accAt : Int := 0
  /-- STAGE_MOVE and STAGE_TABLE jobs that wait, and the job whose reverse MOVE is queued. -/
  heldJobs : List MoveJob := []
  reverseJob : Option Nat := none
  /-- The latest valid sample of each serial port: its count and the tide time at which it came (R293). -/
  portSamples : List (Option (Nat × Nat)) := [none, none]
  deriving DecidableEq, Repr

/-! ### Couches and comparator (chapter 8) -/

/-- A swap test (R196 to R198): the couch whose framers send the first half and the one that sends the second, the lines
of the test and the lines sent, the failures as (couch, chain, step), the greatest gap, and the couches that the test
restores. -/
structure SwapTest where
  first : Nat := 0
  second : Nat := 0
  lines : Nat := 0
  line : Nat := 0
  switched : Bool := false
  failures : List (Nat × Nat × Nat) := []
  gap : Nat := 0
  restoring : List Nat := []
  deriving DecidableEq, Repr

/-- Couch and comparator state that no register holds. -/
structure CouchState where
  test : Option SwapTest := none
  /-- A switch-over of the run has moved the chains to a new path, and the tick index of each chain's first frame on it
  (R190, R192). -/
  moved : Bool := false
  chainFrom : List (Option Nat) := List.replicate 128 none
  /-- The sole couch in service whose domain failed: the frames of the next line are missing (R189, R205). -/
  gone : Option Nat := none
  /-- R192 has declared the new path faulty, or its watch is over. -/
  pathJudged : Bool := false
  /-- Consecutive lines with a zero frame, for each chain (R194). -/
  zeroRun : List Nat := List.replicate 128 0
  /-- What is left of a switch-over's backlog on the chains, in 0.1 ns (R190, R31). -/
  backlog : Nat := 0
  /-- A role request waits for its moment (R201), and the couches the host has set OFF, one bit each. -/
  roleReq : Bool := false
  hostOff : Nat := 0
  noCouchRaised : Bool := false
  /-- Tide time at which each couch's path last passed a test. -/
  passedAt : List (Option Nat) := [none, none]
  /-- A swap test of the interval, or the first one, is due (R196, R514). -/
  scheduled : Bool := false
  /-- LOST couches are to be restored in this SLACK (R198). -/
  restoreDue : Bool := false
  /-- The roles that NEAP turned off, which the couches take again at the wake, and the couches, one bit each, that the host
  has brought back from OFF meanwhile (R201). -/
  neapRoles : List Nat := []
  neapBack : Nat := 0
  deriving DecidableEq, Repr

/-! ### Head link and drivers (chapter 9) -/

/-- A control frame (R215, R231): opcode, CSEQ, argument bytes from offset 4, retries, and the head time at which it was
sent. -/
structure CtrlOp where
  opcode : Nat
  cseq : Nat
  args : List (BitVec 8)
  retries : Nat := 0
  sentAt : Nat := 0
  deriving DecidableEq, Repr

/-- What the device knows a driver to hold, from its replies (R227): the factors, the slot and the curve, and ARM. -/
structure DriverConf where
  factors : List Nat := []
  slotT : Nat := 0
  curve : List Nat := []
  armed : Bool := false
  deriving DecidableEq, Repr

/-- A blanker driver at an address: its own state as R206 to R218 give it, then what the device keeps of it. The driver's
queues of outcome and measurement records lie outside the device; their contents come with STATUS and REPLY frames. -/
structure Driver where
  positioned : Bool := false
  /-- 0 POSITIONED, 1 TIMED, 2 CONFIGURED, 3 ARMED (R213). -/
  dstate : Nat := 0
  /-- What TIME_LOAD has added to its count, in 0.1 ns, and its last 8 latches (R221). -/
  added : Int := 0
  latches : List Nat := []
  factors : List Nat := []
  slotT : Nat := 0
  curve : List Nat := []
  gotFactors : Bool := false
  gotCurve : Bool := false
  /-- PRE, MAIN, POST in force; preset 3 from its reset (R243). -/
  taps : List Int := [-4, 51, -8]
  /-- The taps of a TX_EQ that it takes once its REPLY has left (R243). -/
  nextTaps : Option (List Int) := none
  /-- CSEQ of the last CTRL it executed, and the RESULT of its reply to the outstanding one (R215). -/
  lastCseq : Option Nat := none
  answer : Option Nat := none
  /-- The device's side: next CSEQ, the outstanding control frame, the frames waiting. -/
  cseq : Nat := 0
  sent : Option CtrlOp := none
  waiting : List CtrlOp := []
  /-- The last frame sent to it (R209, R210). -/
  out : List Symbol := []
  /-- What it is known to hold, and the strip's job for which it could not be configured (R227). -/
  conf : DriverConf := {}
  stuck : Option Nat := none
  /-- The next RSEQ expected, and the one expected before the last TIME_LOAD (R214, R228). -/
  rseq : Nat := 0
  oldRseq : Option Nat := none
  /-- CNT_CRC, CNT_LATE and CNT_NOTICK as last reported (R213). -/
  counters : Option (Nat × Nat × Nat) := none
  aboveWarn : Bool := false
  rearmed : Bool := true
  limited : Bool := false
  serial : Nat := 0
  statusAt : Nat := 0
  deriving DecidableEq, Repr

/-- A line sent to a driver whose primary record has not come back (R228): driver, tick index, CRC sent; whether every
code is 0, whether it is on the new path, whether it repairs a mark, the kind of line (0 service, 1 swap test, 2
measurement), and whether it is a zero frame of R189 or R186. -/
structure OpenLine where
  driver : Nat
  tick : Nat
  crc : Nat
  zero : Bool
  newPath : Bool
  repair : Bool
  kind : Nat
  blank : Bool := false
  deriving DecidableEq, Repr

/-- The training and link state of a chain that no register holds (R221, R225, R232, R249). -/
structure Chain where
  enteredAt : Nat := 0
  /-- Round trips latched in the present SYNC measurement, H_tx of its last marker, and failed measurements. -/
  rts : List Nat := []
  hTx : Nat := 0
  timeTries : Nat := 0
  discoverTries : Nat := 0
  /-- The first preset of EQ, presets tried beyond it, and the step: 0 TX_EQ, 1 driver wait, 2 receiver, 3 check. -/
  eqFirst : Nat := 3
  eqTry : Nat := 0
  eqStep : Nat := 0
  /-- Ring positions pending from TX_EQ (R249), and the second EQ of R250. -/
  deferred : List Nat := []
  again : Bool := false
  /-- Lines in a row without a valid STATUS. -/
  silent : Nat := 0
  lastConfirmed : Nat := 2 ^ 48 - 1
  recheck : Bool := false
  reload : Bool := false
  requested : Bool := false
  polledAt : Nat := 0
  /-- POLL rounds since the last line (R228), and whether the present line's slot has carried a control frame (R209). -/
  polls : Nat := 0
  slotUsed : Bool := false
  /-- The last TICK, SYNC and TRAIN sent (R208). -/
  tick : List Symbol := []
  sync : List Symbol := []
  train : List Symbol := []
  /-- The chain was READY when the present run fired, and left READY since (R226). -/
  lostInRun : Bool := false
  deriving DecidableEq, Repr

/-- Head-link state that no register holds. -/
structure LinkState where
  drivers : List Driver := List.replicate 1024 {}
  chains : List Chain := List.replicate 128 {}
  lines : List OpenLine := []
  /-- Outcomes of the present run of the open strip: driver, tick index, OUTCOME; 16 for a diverged FIRED, 17 for a FIRED
  or CUT line of zero codes (R317). -/
  outcomes : List (Nat × Nat × Nat) := []
  /-- Repair lines confirmed since the strip's last stop (R321). -/
  repaired : List (Nat × Nat) := []
  /-- Lines unknown after RECORD_READ (R228). -/
  unresolved : List (Nat × Nat) := []
  recheckAt : Nat := 0
  /-- The last tick index sent (R216). -/
  lastTick : Nat := 0
  deriving DecidableEq, Repr

/-! ### Serial lanes (chapter 10) -/

/-- Lane state that no register holds: the tide time of the last qualifying window of each transmit lane, the deferred
strobe settings (lane, chain, tap), and the running loop's lane and mode. -/
structure LaneState where
  qualAt : List Nat := List.replicate 268 0
  strobes : List (Nat × Nat × Nat) := []
  loop : Option (Nat × Nat) := none
  deriving DecidableEq, Repr

/-! ### Head care (chapter 14) -/

/-- A covered driver of a measurement run (R331): the records received as (element, kind, value), restarts, the last MSEQ,
FLAGS bit 3 as last seen, and 0 measuring, 1 complete, 2 incomplete. -/
structure MeasDriver where
  addr : Nat
  got : List (Nat × Nat × Nat) := []
  restarts : Nat := 0
  mseq : Option Nat := none
  busy : Bool := false
  result : Nat := 0
  deriving DecidableEq, Repr

/-- A measurement run: its drivers, its job, the result buffer, PROPOSE, the tide time of the first MEASURE, and whether it
covers all drivers. -/
structure MeasRun where
  drivers : List MeasDriver
  job : Option Nat
  buffer : Nat
  propose : Bool
  startedAt : Option Nat
  full : Bool
  deriving DecidableEq, Repr

/-- A strobe calibration (R340): the windows taken so far, each with its lanes' counts, and the lanes it covers. -/
structure StrobeCal where
  lanes : List Nat
  windows : List (List Nat)
  /-- The choice of each lane for the confirming window: (lane, chain, tap), chain 4 where none serves. -/
  chosen : List (Nat × Nat × Nat)
  reasons : List (Nat × Nat)
  deriving DecidableEq, Repr

/-- A head-care job that waits (R335, R452): its opcode, its buffer or table, the drivers it covers, PROPOSE, and the kind
and RES_GEN that a proposal job names. -/
structure HcrJob where
  aseq : Nat
  opcode : Nat
  addr : Nat := 0
  first : Nat := 0
  count : Nat := 0
  propose : Bool := false
  kind : Nat := 0
  gen : Nat := 0
  deriving DecidableEq, Repr

/-- Head-care state that no register holds. -/
structure HcrState where
  run : Option MeasRun := none
  cal : Option StrobeCal := none
  /-- Head-care jobs waiting, in posting order. -/
  jobs : List HcrJob := []
  /-- Drivers whose serial at their last training differs from the one measured. -/
  unmeasured : List Nat := []
  lastFull : Option Nat := none
  /-- Items whose deferral has been raised (R335). -/
  deferred : List Nat := []
  /-- A proposal waiting to be handed to the breakwater (R339, R483): kind 1 DEFECT, 2 ALIGN, its job. -/
  handover : List (Nat × Option Nat) := []
  deriving DecidableEq, Repr

/-! ### Cascade (chapter 16) -/

/-- A message of a tide link (R371): its type, its sequence number, its payload fields in the order R371 lists them. -/
structure CscMsg where
  typ : Nat
  seq : Nat
  fields : List Int
  resends : Nat
  deriving DecidableEq, Repr

/-- One tide-link port: sequence numbers by type, messages not acknowledged, the latest message of each type sent, and
what the device at its other end has reported. -/
structure CscPort where
  nextSeq : List Nat := List.replicate 12 0
  lastSeq : List (Option Nat) := List.replicate 12 none
  unacked : List CscMsg := []
  sent : List CscMsg := []
  markers : List Int := []
  checks : List Int := []
  peerDevice : Nat := 0
  peerDevices : Nat := 0
  peerLead : Option Nat := none
  peerWait : Nat := 0
  peerPairing : List Int := []
  peerTemp : Int := 0
  rates : List (Int × Nat × Nat) := []
  peerTa : Option Int := none
  peerTe : Option Int := none
  /-- Tide time at entry to its training state (R367). -/
  enteredAt : Nat := 0
  deriving DecidableEq, Repr

/-- Cascade state that no register holds. -/
structure CscState where
  ports : List CscPort := List.replicate 3 {}
  lastIndex : Option Nat := none
  lastPeriod : Nat := 0
  sample : Option (Int × Int × Int) := none
  planRates : List (Int × Nat × Nat) := []
  haloSent : List (Nat × Nat × Nat) := []
  /-- Halo rows that wait for a port to their DEVICE: the device and the payload (R371, R373). -/
  haloWaits : List (Nat × List Int) := []
  /-- Tide time at which the last TICK message came (R375). -/
  tickAt : Nat := 0
  deriving DecidableEq, Repr

/-! ### Tracking loops (chapter 12) -/

/-- A loop channel beside its registers (R292 to R300): the ramped reference rr, the following error ε, the integrator I,
the filter outputs and the errors of the last three samples, the supervisor's model m, the runs of excursions and of missed
samples, the last valid y; the edge that awaits its sensor frame, the frame with the tide time of its completion, the tide
time of the last capture, and the deflection frame last sent. -/
structure LoopChan where
  rr : Int := 0
  eps : Int := 0
  integ : Int := 0
  filt : List Int := [0, 0, 0]
  errs : List Int := [0, 0, 0]
  model : Int := 0
  excursions : Nat := 0
  misses : Nat := 0
  lastY : Int := 0
  edge : Option Nat := none
  frame : Option (Nat × List (BitVec 8)) := none
  capturedAt : Nat := 0
  sent : List (BitVec 8) := []
  deriving DecidableEq, Repr

/-! ### Auxiliary axes (chapter 15) -/

/-- A phase of an auxiliary job (R357): its fields, and 0 waiting, 1 running, 2 completed; the tide time at which a DWELL
ends. -/
structure AuxPhase where
  axis : Nat
  kind : Nat
  withPrev : Bool
  count : Nat
  value : Int
  st : Nat := 0
  ends : Nat := 0
  deriving DecidableEq, Repr

/-- An auxiliary job: its phase list (address, COUNT and space for a RECOAT; none for an AUX), its phases, its failure status
and cause once it holds its ring (R358), and whether RETRY has been written. -/
structure AuxJob where
  aseq : Nat
  ring : Nat
  source : Option (Nat × Nat × Bool)
  layer : Nat
  phases : List AuxPhase
  held : Option (Nat × Nat) := none
  retry : Bool := false
  lockRaised : Bool := false
  deriving DecidableEq, Repr

/-- An axis beside its registers: x in 2^-16 microstep, its velocity and acceleration in 2^-8 microstep per s and s²; the
target of a MOVE; DIR, and the tide times of its last change and of the last step; the encoder's levels, Δ, and the planner
steps in a row beyond WIN with Ê and the step count at their start; when IDLE was entered after a motion; the stage of HOME
(0 toward the switch, 1 stopping, 2 away, 3 released, 4 referenced) and its steps; the table left, with its segment's start;
deferred limits; the job and the phase that run. -/
structure AuxAxis where
  x : Int := 0
  v : Int := 0
  a : Int := 0
  target : Int := 0
  dir : Bool := true
  dirAt : Nat := 0
  stepAt : Option Nat := none
  encA : Bool := false
  encB : Bool := false
  delta : Int := 0
  devRun : Nat := 0
  devFrom : Int := 0
  devSteps : Nat := 0
  idleAt : Option Nat := none
  homeStage : Nat := 0
  homeSteps : Nat := 0
  table : List (Nat × Int × Int) := []
  segPos : Int := 0
  segVel : Int := 0
  segStart : Nat := 0
  deferred : List (Nat × Nat) := []
  job : Option (Nat × Nat) := none
  deriving DecidableEq, Repr

/-- Auxiliary-axis state that no register holds. -/
structure AuxState where
  axes : List AuxAxis := List.replicate 3 {}
  jobs : List AuxJob := []
  deriving DecidableEq, Repr

/-! ### DRAM and integrity (chapters 17 and 18) -/

/-- A request of a DRAM channel (R389 to R392): its port, burst address, first byte within the burst, the bytes of a write
(none: a read), whether they are poisoned, its arrival, the deadline of a feed read. -/
structure MemReq where
  port : Nat
  burst : Nat
  first : Nat
  data : Option (List (BitVec 8))
  poison : Bool
  at' : Nat
  deadline : Nat
  /-- It has been counted as older than 8T (R391). -/
  aged : Bool := false
  deriving DecidableEq, Repr

/-- A sub-channel (R392 to R394): the open rows by bank index, with the hits in a row since their activate; the rotating
pointer; whether it drains. -/
structure SubChannel where
  rows : List (Nat × Nat × Nat) := []
  pointer : Nat := 0
  drain : Bool := false
  deriving DecidableEq, Repr

/-- A channel (R395 to R398): refreshes owed, the tide time of the next refresh, polls in a row that reported no hot device,
whether its training runs (0), has passed (1) or failed (2), and the completions of the present microsecond (R520). -/
structure MemChannel where
  owed : Nat := 0
  nextRef : Nat := 0
  /-- Tide time from which it takes commands again after a refresh (R395). -/
  busyUntil : Nat := 0
  cool : Nat := 0
  trained : Nat := 0
  refreshed : Bool := false
  feedReads : Nat := 0
  otherReads : Nat := 0
  writes : Nat := 0
  deriving DecidableEq, Repr

/-- A scan job (R426, R454). -/
structure ScanJob where
  aseq : Nat
  unit : Nat
  dram : Bool
  start : Nat
  len : Nat
  load : Bool
  save : Bool
  deriving DecidableEq, Repr

/-- DRAM and integrity state that no register holds. -/
structure MemState where
  /-- The set-up in force since the last training: RANKS, DENSITY, GRAIN. -/
  ranks : Nat := 0
  density : Nat := 0
  grain : Nat := 12
  channels : List MemChannel := List.replicate 6 {}
  subs : List SubChannel := List.replicate 12 {}
  /-- Requests that the channels hold, in order of arrival; reads on their way; requests that wait at their ports. -/
  queue : List MemReq := []
  flight : List MemReq := []
  waiting : List MemReq := []
  /-- When 0x0E0B was last raised, for each port. -/
  lateAt : List (Option Nat) := List.replicate 8 none
  /-- A change of MEM_CFG.RATE held during training (R401). -/
  heldRate : Option Nat := none
  /-- RETRAIN has been written, and its training has not started (R403). -/
  retrainAsked : Bool := false
  /-- Training has passed, and initialisation runs (R402). -/
  initialising : Bool := false
  /-- Bursts whose stored word is not the code word of their bytes in State.dram: the difference of its 80 symbols. -/
  flaws : List (Nat × List (BitVec 8)) := []
  /-- Bursts whose loss has been raised, and the repair queues (R420). -/
  lossRaised : List Nat := []
  repairs : List Nat := []
  /-- R411: bursts corrected on one device in this pass: (8 × sub-channel-rank + device, count). -/
  devCounts : List (Nat × Nat) := []
  /-- Sweeps that run: sub-channel-rank, device, and whether INT_ERASE_REQ asked for it. -/
  sweeps : List (Nat × Nat × Bool) := []
  /-- R413: a poisoned write found its list full since the last training. -/
  listOverrun : Bool := false
  /-- Poison lists: (sub-channel-rank, burst). -/
  poisonList : List (Nat × Nat) := []
  /-- R429: for each channel, the corrections of the second that runs and the tide time at which it began. -/
  corrected : List (Nat × Nat) := List.replicate 6 (0, 0)
  scrubCorrected : Nat := 0
  scrubLost : Nat := 0
  /-- The SRAM test block, 13 bits a byte. -/
  sram : List (Nat × BitVec 13) := []
  sramCorrected : Nat × Nat := (0, 0)
  /-- SRAM bytes whose loss has been raised: unit and offset, 2^32 more in the test block. -/
  sramRaised : List (Nat × Nat) := []
  scans : List ScanJob := []
  deriving DecidableEq, Repr

/-! ### Network time (chapter 20) -/

/-- A foreign master of a port (R462): its sourcePortIdentity, what its Announce messages rank it by, its grandmaster, the
steps removed, its Announce interval (log2 of seconds), and the tide times of its last two Announce messages. -/
structure ForeignMaster where
  source : Nat
  rank : List Nat
  gm : Nat
  steps : Nat
  interval : Int
  seen : List Nat
  deriving DecidableEq, Repr

/-- A PTP port (R462 to R468), or the cascade path of a slave (R476). Times are in 2^-32 ns. -/
structure TimePort where
  /-- portState as the port has it (R478). -/
  state : Nat := 3
  foreign : List ForeignMaster := []
  master : Option Nat := none
  /-- A two-step Sync that waits for its Follow_Up: sequenceId, receive timestamp, epoch, correction. -/
  held : Option (Nat × Int × Nat × Int) := none
  /-- The last whole Sync: origin and receive timestamps, corrections, epoch. -/
  sync : Option (Int × Int × Int × Nat) := none
  reqSeq : Nat := 0
  /-- The request under way: sequenceId, transmit timestamp, epoch; and its Pdelay_Resp: receipt and receive timestamps,
  correction. -/
  req : Option (Nat × Int × Nat) := none
  resp : Option (Int × Int × Int) := none
  /-- The last 9 samples, oldest first: offsetFromMaster and meanPathDelay (R468). -/
  offsets : List Int := []
  delays : List Int := []
  /-- The last answer to a Pdelay_Req (R464): requester, sequenceId, receive timestamp, turnaround (one step) or transmit
  timestamp (two steps). -/
  answer : Option (Nat × Nat × Int × Int) := none
  /-- Telemetry (R477): records that wait, the tide time of the first, the next sequence number, the last datagram. -/
  records : List (List (BitVec 8)) := []
  recordsAt : Nat := 0
  datagramSeq : Nat := 0
  datagram : List (BitVec 8) := []
  deriving DecidableEq, Repr

/-- Network time state that no register holds. -/
structure TimeState where
  /-- Ports 0 and 1, then the cascade path of a slave. -/
  ports : List TimePort := List.replicate 3 {}
  /-- The causes of the present holdover that stand; the tide time of its entry; whether 0x110C has been raised. -/
  causes : List Nat := []
  holdSince : Nat := 0
  longRaised : Bool := false
  /-- R470: updates in a row beyond ASYM_NS; since when the two offsets agree; the two grandmasters differ. -/
  asymRun : Nat := 0
  agreeSince : Option Nat := none
  mismatch : Bool := false
  /-- The primary port's grandmaster as last seen (R474). -/
  gm : Option Nat := none
  /-- R471: the port whose delay is suspect, since when, and its samples: offset and delay. -/
  confirm : Option (Nat × Nat × List (Int × Int)) := none
  /-- R475: the tide time from which the next map may be latched. -/
  mapAt : Nat := 0
  /-- R475: the values of TIM_MAP_PTP and TIM_MAP_AUX that a read of TIM_MAP_HEAD has frozen. -/
  mapHeld : Option (BitVec 64 × BitVec 32) := none
  deriving DecidableEq, Repr

/-! ### Breakwater (chapter 21) -/

/-- Breakwater and boot state that no register holds. -/
structure BwtState where
  /-- EXPOSE_PERMIT as the device takes it: high for 1 ms (R489). -/
  permit : Bool := false
  /-- The tide time at which EXPOSE_PERMIT last fell (R489). -/
  permitFellAt : Option Nat := none
  /-- The image of the proposal, once it has been copied or built; whether head care built it; the tide time of entry to
  PENDING (R483, R487). -/
  image : List (BitVec 8) := []
  fromHead : Bool := false
  pendingAt : Nat := 0
  /-- The guard port's last response (R485), and the tide time of the last 0x1206. -/
  response : List (BitVec 8) := []
  frameRaisedAt : Option Nat := none
  /-- A fuse burn in progress: the value to reach (R493). -/
  burning : Option Nat := none
  deriving DecidableEq, Repr

/-! ### Power, clocks and reset (chapter 22) -/

/-- A warm reset in progress (R508): its bit of PWR_RESET_CAUSE, the slot and FINAL_BREAK of the strip it ended, the address
of a lockstep fault, and whether the units have been reset. -/
structure WarmReset where
  bit : Nat
  slot : Nat := 0xFF
  finalBreak : Nat := 2 ^ 48 - 1
  address : Nat := 0
  unitsDone : Bool := false
  /-- It began before bring-up had reached step 8 (R513); the cores consumed poison (R417, R510); the severity of the 0x1204 to
  raise once the firmware runs, where EXPOSE_PERMIT has fallen meanwhile (R517). -/
  early : Bool := false
  poison : Bool := false
  permitFell : Option Nat := none
  deriving DecidableEq, Repr

/-- Power and reset state that no register holds. Times are counts of State.aon. -/
structure PwrState where
  /-- PWR_OK is high, and since when (R506, R513). -/
  ok : Bool := false
  okAt : Nat := 0
  /-- Step 1 of bring-up is done; when step 2 began; when the firmware began to run steps 4 to 6. -/
  step1 : Bool := false
  bootAt : Nat := 0
  runAt : Nat := 0
  /-- Domains whose power-up has been requested and not ended, one bit each (R497). -/
  requested : Nat := 0
  /-- A protective reset is in progress, which holds HEAD_BLANK_N low (R511): the tide time at which the wait for REST ends,
  and whether every domain but AON is down. -/
  protective : Bool := false
  thermal : Bool := false
  stopBy : Nat := 0
  aonOnly : Bool := false
  /-- Events to raise after the following bring-up: code and payload. -/
  later : List (Nat × List (Nat × Nat)) := []
  warm : Option WarmReset := none
  /-- The key hash fused in OTP (R492). -/
  keyHash : Nat := 0
  /-- When a domain last came up (R536). -/
  upAt : Nat := 0
  /-- When each render quad last had a job queued or running (R499). -/
  busyAt : List Nat := [0, 0, 0, 0]
  /-- The last die temperature was at or above TRIP; 0x1308 has been raised since it was 2 degrees below WARN (R512). -/
  hot : Bool := false
  warned : Bool := false
  deriving DecidableEq, Repr

/-- The state of the block. -/
structure State where
  /-- Commands waiting, first in, first out. -/
  pending : List Instr
  /-- The registers of BAR 0. -/
  regs : RegFile
  /-- Host memory as the device has written it and reads it. -/
  hostMem : Memory
  /-- The DRAM. -/
  dram : Memory
  /-- Host interface (chapter 19). -/
  host : HostState
  /-- Headbox: streams, posted and open strips, tile jobs (chapters 3, 5, 6, 13). -/
  box : HeadboxState
  /-- Store, feed and ledger (chapter 7). -/
  store : StoreState
  /-- Time since the power-up of the AON domain, in units of 2.5 ns; it passes also while no tide clock runs. -/
  aon : Nat
  /-- Tide time (R258), the value of TID_TIME, 64 bits wrapping. -/
  tide : Nat
  /-- The offset H0 of head time from tide time (R258), fixed at the head PLL's lock. -/
  headTime0 : Nat
  /-- The local clock (R465). -/
  clock : Clock
  /-- Observation (chapter 23). -/
  obs : ObsState
  /-- Exposure sequencer (chapter 13). -/
  seq : SeqState
  /-- Tide unit (chapter 11). -/
  tid : TideState
  /-- Couches and comparator (chapter 8). -/
  couch : CouchState
  /-- Head link and blanker drivers (chapter 9). -/
  link : LinkState
  /-- Serial lanes (chapter 10). -/
  lanes : LaneState
  /-- Head care (chapter 14). -/
  hcr : HcrState
  /-- Cascade (chapter 16). -/
  csc : CscState
  /-- Tracking loops (chapter 12): channels 0 to 3. -/
  loops : List LoopChan
  /-- Auxiliary axes (chapter 15). -/
  aux : AuxState
  /-- DRAM and integrity (chapters 17 and 18). -/
  mem : MemState
  /-- Network time (chapter 20). -/
  time : TimeState
  /-- Breakwater and firmware trust (chapter 21). -/
  bwt : BwtState
  /-- Power, clocks and reset (chapter 22). -/
  pwr : PwrState
  /-- The model's own counter of free values drawn (no state of the spec). -/
  free : Nat
  deriving DecidableEq, Repr

/-- An event ring at reset. -/
def EventRing.reset : EventRing where
  queue := []
  armed := false
  written := 0
  firstAt := none
  urgent := false
  lost := false

/-- The host interface at reset: PERST_N asserted until bring-up. -/
def HostState.reset : HostState where
  jobs := []
  nextAseq := 0
  events := List.replicate 8 EventRing.reset
  msixPba := 0
  msixSent := []
  d3hot := false
  perstLow := true
  configReady := false
  heldWrites := []
  retries := []
  abortJobs := []
  abortCount := 0
  domainOffAt := none

/-- A stream handle that is not open. -/
def Stream.closed : Stream where
  isOpen := false
  v2 := false
  received := 0
  parsed := 0
  last := false
  ctx := .start
  cells := []
  strips := []
  failed := none
  jobs := []
  work := 0
  workLen := 0
  workUsed := 0

/-- The headbox at reset. -/
def HeadboxState.reset : HeadboxState where
  streams := List.replicate 16 Stream.closed
  strips := []
  jobs := []
  wanted := []
  accepted := 0
  nextSpare := 0
  roleReq := false
  wakingQuads := []

/-- A free strip record. -/
def StripLedger.free : StripLedger where
  stripId := 0
  lines := 0
  tS := 0
  dir := 0
  state := 0
  geomGen := 0
  marks := []
  finalBreak := none
  released := 0

/-- The store at reset. -/
def StoreState.reset : StoreState where
  ledger := List.replicate 16 StripLedger.free
  slots := []
  held := []
  felt := []
  retries := []
  lost := []
  codec := []
  ledgerPoison := []

/-- Observation at reset: JTAG reset selects IDCODE, the strap is low (log entry 14). -/
def ObsState.reset : ObsState where
  port := { seq := 0, lost := 0, dropped := 0 }
  ring := { seq := 0, lost := 0, dropped := 0 }
  postLeft := 0
  snapshot := []
  snapTime := 0
  lostRaisedAt := [none, none]
  bscanEnable := false
  scan := .idcode
  dataReg := 0
  heldInReset := false

/-- The machine right after a power-on (cold) reset: every register at its Reset value, memory with nothing listed,
every unit idle, PWR_OK not yet risen (R14, R513). -/
def State.reset : State where
  pending := []
  regs := []
  hostMem := []
  dram := []
  host := HostState.reset
  box := HeadboxState.reset
  store := StoreState.reset
  aon := 0
  tide := 0
  headTime0 := 0
  clock := ⟨0, 0, 0⟩
  obs := ObsState.reset
  seq := {}
  tid := {}
  couch := {}
  link := {}
  lanes := {}
  hcr := {}
  csc := {}
  loops := List.replicate 4 {}
  aux := {}
  mem := {}
  time := {}
  bwt := {}
  pwr := {}
  free := 0

end Sys2Proof.Machine
end

