-- ==== Sys2Proof/Machine/Ops.lean ====
section
/-! DEFINITION. The shared operations: register fields, counters, events, trace packets, jobs and descriptors. -/
namespace Sys2Proof.Machine

/-! ### Registers -/

/-- A register word in a register file. -/
def rfWord (rf : RegFile) (off : Nat) : BitVec 32 := cellGet resetWord rf off

/-- A write of a register word in a register file. -/
def rfSetWord (rf : RegFile) (off : Nat) (v : BitVec 32) : RegFile := cellSet resetWord rf off v

/-- A mask of w ones. -/
def onesMask (w : Nat) : BitVec 64 := BitVec.ofNat 64 (2 ^ w - 1)

/-- Bits lo + w - 1 down to lo of a 64-bit value. -/
def bvField (v : BitVec 64) (lo w : Nat) : Nat := ((v >>> lo) &&& onesMask w).toNat

/-- A 64-bit value with bits lo + w - 1 down to lo replaced. -/
def bvPut (v : BitVec 64) (lo w x : Nat) : BitVec 64 :=
  (v &&& ~~~(onesMask w <<< lo)) ||| ((BitVec.ofNat 64 x &&& onesMask w) <<< lo)

/-- The two words from an offset, as one 64-bit value (R11). -/
def rfPair (rf : RegFile) (off : Nat) : BitVec 64 := rfWord rf (off + 4) ++ rfWord rf off

/-- A field goes on in the next word. -/
def Field.spans (f : Field) : Bool := decide (32 < f.lo + f.width)

/-- A field of a register file. -/
def rfGet (rf : RegFile) (f : Field) : Nat :=
  if f.spans then bvField (rfPair rf f.off) f.lo f.width
  else bvField ((rfWord rf f.off).setWidth 64) f.lo f.width

/-- A register file with a field replaced. -/
def rfPut (rf : RegFile) (f : Field) (x : Nat) : RegFile :=
  if f.spans then
    let v := bvPut (rfPair rf f.off) f.lo f.width x
    rfSetWord (rfSetWord rf f.off (v.setWidth 32)) (f.off + 4) ((v >>> 32).setWidth 32)
  else rfSetWord rf f.off ((bvPut ((rfWord rf f.off).setWidth 64) f.lo f.width x).setWidth 32)

/-- A register field of the machine. -/
def State.get (s : State) (f : Field) : Nat := rfGet s.regs f

/-- A register field of the machine as a flag. -/
def State.on (s : State) (f : Field) : Bool := decide (s.get f ≠ 0)

/-- The machine with a register field replaced. -/
def State.put (s : State) (f : Field) (x : Nat) : State := { s with regs := rfPut s.regs f x }

/-- The machine with a list of register fields replaced, in order. -/
def State.puts (s : State) (l : List (Field × Nat)) : State := l.foldl (fun s p => s.put p.1 p.2) s

/-- A register field, sign-extended. -/
def State.getS (s : State) (f : Field) : Int := sext f.width (s.get f)

/-- A draw of a free value (log entry 2). -/
def State.draw (s : State) : BitVec 64 × State := (Config.freeValue s.free, { s with free := s.free + 1 })

/-- The power domain that a register's offset lies in (R18, R433, R497; the shared registers of the head link and of
the DRAM subsystem follow log entry 16). -/
def domainOf (off : Nat) : Nat :=
  let blk := off / 0x10000
  if blk < 0x10 then 1
  else if blk < 0x20 then 14
  else if blk < 0x30 then 6
  else if blk < 0x40 then 2 + (blk - 0x30) / 4
  else if blk < 0x50 then 6
  else if blk < 0x60 then 7
  else if blk < 0x80 then
    (let o := off % 0x100000
     if (0x40 ≤ o ∧ o < 0x44) ∨ (0x200 ≤ o ∧ o < 0x220) then (if blk < 0x70 then 8 else 9) else 1)
  else if blk < 0x90 then
    (let o := off % 0x10000
     if 0x1000 ≤ o ∧ o < 0x1200 then (if (o - 0x1000) / 4 < 64 then 10 else 11)
     else if 0x4000 ≤ o ∧ o < 0x6000 then (if (o - 0x4000) / 8 < 512 then 10 else 11)
     else if 0xC000 ≤ o ∧ o < 0xE000 then (if (o - 0xC000) / 64 < 64 then 10 else 11)
     else 10)
  else if blk < 0xA0 then
    (let o := off % 0x10000
     if o < 0x1000 then 15
     else if 0x4000 ≤ o ∧ o < 0x5000 then (if (o - 0x4000) / 4 < 512 then 10 else 11)
     else
       let l := if o < 0x4000 then (o - 0x1000) / 16 else if o < 0x8000 then (o - 0x6000) / 4 else (o - 0x8000) / 32
       if 256 ≤ l then 15 else if l % 128 < 64 then 10 else 11)
  else if blk < 0xC0 then 15
  else if blk < 0xE0 then 1
  else if blk < 0x100 then 15
  else if blk < 0x120 then
    (let o := off % 0x10000
     -- the channels of MEM_TRN_STATE, MEM_LANE and MEM_CNT, and those of INT_STATUS and INT_CNT; all else is shared
     let ch :=
       if blk < 0x110 then
         (if 0x100 ≤ o ∧ o < 0x118 then (o - 0x100) / 4
          else if 0x200 ≤ o ∧ o < 0x260 then (o - 0x200) / 16
          else if 0x1000 ≤ o ∧ o < 0x1C00 then (o - 0x1000) / 512
          else if 0x2000 ≤ o ∧ o < 0x2180 then (o - 0x2000) / 64 else 0)
       else if 0x40 ≤ o ∧ o < 0x58 then (o - 0x40) / 4
       else if 0x1000 ≤ o ∧ o < 0x1180 then (o - 0x1000) / 64 else 0
     if ch < 3 then 12 else 13)
  else if blk < 0x130 then 14
  else if blk < 0x150 then 0
  else if blk < 0x160 then 1
  else 14

/-- A power domain is up. -/
def State.domainOn (s : State) (d : Nat) : Bool := bitAt (s.get Reg.PWR_DOMAIN_STATUS_ON) d

/-! ### Counters -/

/-- R10: one more on the counter at an offset; whether it has just reached all ones. -/
def rfCount (rf : RegFile) (off : Nat) : RegFile × Bool :=
  let c := rfGet rf ⟨off, 0, 48⟩
  if c = 2 ^ 48 - 1 then (rf, false)
  else
    let rf := rfPut rf ⟨off, 0, 48⟩ (c + 1)
    if c + 1 = 2 ^ 48 - 1 then (rfPut rf ⟨off + 4, 31, 1⟩ 1, true) else (rf, false)

/-- Offsets of the counters (R10): each is a 64-bit register. -/
def cntHst (i : Nat) : Nat := 0x00104000 + 8 * i
def cntHbx (i : Nat) : Nat := 0x00200100 + 8 * i
def cntVat (n i : Nat) : Nat := 0x00300100 + 0x10000 * n + 8 * i
def cntCal (i : Nat) : Nat := 0x00400100 + 8 * i
def cntSto (i : Nat) : Nat := 0x00500100 + 8 * i
def cntCouch (n i : Nat) : Nat := 0x00600200 + 0x100000 * n + 8 * i
def cntArb (i : Nat) : Nat := 0x0080A100 + 8 * i
def cntHlk (n i : Nat) : Nat := 0x0080C000 + 64 * n + 8 * i
def cntLns (l i : Nat) : Nat := 0x00908000 + 32 * l + 8 * i
def cntTid (i : Nat) : Nat := 0x00A00100 + 8 * i
def cntLoop (ch k : Nat) : Nat := 0x00B00080 + 0x1000 * ch + 8 * k
def cntExp (i : Nat) : Nat := 0x00C00100 + 8 * i
def cntHcr (i : Nat) : Nat := 0x00D00100 + 8 * i
def cntAux (n i : Nat) : Nat := 0x00E00100 + 0x1000 * n + 8 * i
def cntCsc (i : Nat) : Nat := 0x00F00100 + 8 * i
def cntMem (ch i : Nat) : Nat := 0x01002000 + 64 * ch + 8 * i
def cntInt (ch i : Nat) : Nat := 0x01101000 + 64 * ch + 8 * i
def cntSram (i : Nat) : Nat := 0x01102000 + 8 * i
def cntTim (i : Nat) : Nat := 0x01200400 + 8 * i
def cntBwt (i : Nat) : Nat := 0x01300100 + 8 * i
def cntPwr (i : Nat) : Nat := 0x01400100 + 8 * i
def cntObs (i : Nat) : Nat := 0x01500100 + 8 * i

/-! ### Trace packets (R518 to R525) -/

/-- R239: a period of the modulation, 1/31.5 kHz, in 1/63 of 1/64 tide clock. -/
def spreadPeriod : Int := 51200000

/-- R239: the integral of the triangular sweep (0 to 1 and back over a period) from phase 0 to a phase in 1/51,200,000 period;
in 1/(2·51,200,000²) period. -/
def sweepIntegral (n : Int) : Int :=
  let p := spreadPeriod
  let r := Int.emod n p
  idiv n p * (p * p) + (if 2 * r < p then 2 * r * r else 4 * r * p - 2 * r * r - p * p)

/-- R258, R239, R240: the head time of a tide time in 1/64 tide clock: 25 units of 0.1 ns to a tide clock from H0, less what
the modulation of the head PLL, a triangular down-spread of 0.05·SSC % at 31.5 kHz, has held back since tide time 0; rounded
once. -/
def State.headOf (s : State) (tau64 : Int) : Int :=
  let ssc : Int := s.get Reg.LNS_REF_CTRL_SSC_APPLIED
  let at0 : Int := Config.spreadPhase
  let held := sweepIntegral (63 * tau64 + at0) - sweepIntegral at0
  let d := 2 * spreadPeriod * spreadPeriod
  (if ssc = 0 then roundHalfUp (25 * tau64) 64
   else roundHalfUp (25 * tau64 * 63 * d - 640000 * ssc * held) (64 * 63 * d)) + s.headTime0

/-- Head time at present, as a 64-bit value. -/
def State.headTime (s : State) : Nat := wrapInt 64 (s.headOf (64 * s.tide))

/-- R9: how far one head time lies ahead of another, 64 bits wrapping. -/
def headDiff (a b : Int) : Int := signedDiff 64 (wrapInt 64 a) (wrapInt 64 b)

/-- The PTP time of event records (R455): seconds modulo 2^34 above the nanoseconds. -/
def State.ptpTime (s : State) : Nat := s.clock.sec % 2 ^ 34 * 2 ^ 30 + s.clock.ns

/-- R519, R520: a packet of a source: header and payload, filled with 0 to 16, 32 or 48 bytes. -/
def tracePacket (src seq tide : Nat) (payload : List Byte) : List Byte :=
  let n := 8 + payload.length
  let size := if n ≤ 16 then 0 else if n ≤ 32 then 1 else 2
  let b := leBytes 1 src ++ leBytes 1 size ++ leBytes 2 seq ++ leBytes 4 tide ++ payload
  b ++ List.replicate (16 * (size + 1) - b.length) 0

/-- Bytes written to host memory at an address. -/
def State.writeHost (s : State) (a : Nat) (l : List Byte) : State := { s with hostMem := s.hostMem.writeBytes a l }

/-- R524: bytes into the trace ring at an offset, wrapping at its end. -/
def ringBytes (m : Memory) (base size : Nat) : Nat → List Byte → Memory
  | _, [] => m
  | off, b :: bs => ringBytes (m.write (base + off % size) b) base size (off + 1) bs

/-- R524: the free room of the trace ring in STREAM mode, without reaching RD. -/
def ringRoom (size wr rd : Nat) : Nat := (rd + size - wr - 1) % size

/-- R522: a packet of a source as a destination is offered it: a LOST before it where packets were dropped; and its SEQ. -/
def TraceDest.offered (d : TraceDest) (src tide : Nat) (payload : List Byte) : List Byte × Nat :=
  let seq := if d.lost = 0 then d.seq else (d.seq + 1) % 65536
  ((if d.lost = 0 then [] else tracePacket 2 d.seq tide (leBytes 4 d.lost)) ++ tracePacket src seq tide payload, seq)

/-- R522: what a destination's buffer holds at a tide time, in 1/400 byte, with the bytes sent since at a rate in MB/s. -/
def TraceDest.left (d : TraceDest) (rate now : Nat) : Nat := d.fill - rate * (now - d.since)

/-- R522: the buffer of 256 KiB has room for more bytes. -/
def TraceDest.hasRoom (d : TraceDest) (rate now : Nat) (bytes : List Byte) : Bool :=
  decide (d.left rate now + 400 * bytes.length ≤ 400 * 262144)

/-- R522: a destination takes packets, the last of them with a SEQ. -/
def TraceDest.takes (d : TraceDest) (rate now : Nat) (bytes : List Byte) (seq : Nat) : TraceDest :=
  { seq := (seq + 1) % 65536, lost := 0, dropped := d.dropped, fill := d.left rate now + 400 * bytes.length, since := now,
    out := bytes }

/-- R522: a destination drops a packet. -/
def TraceDest.drops (d : TraceDest) : TraceDest :=
  { d with seq := (d.seq + 1) % 65536, lost := d.lost + 1, dropped := d.dropped + 1 }

/-- R522: packets counted on a counter: two where a LOST goes before. A counter's saturation is reported at the next tide clock
(log entry 17). -/
def countPackets (rf : RegFile) (off lost : Nat) : RegFile :=
  let rf := (rfCount rf off).1
  if lost = 0 then rf else (rfCount rf off).1

/-- One packet to the trace port (R522, R523): its buffer takes it, or drops it; it leaves at 1,000 MB/s. -/
def State.packetToPort (s : State) (src : Nat) (payload : List Byte) : State :=
  let d := s.obs.port
  let p := d.offered src s.tide payload
  if d.hasRoom 1000 s.tide p.1 then
    { s with regs := countPackets s.regs (cntObs 0) d.lost, obs := { s.obs with port := d.takes 1000 s.tide p.1 p.2 } }
  else { s with regs := (rfCount s.regs (cntObs 2)).1, obs := { s.obs with port := d.drops } }

/-- R524: bytes of packets go into the trace ring at OBS_RING_WR, which the shadow shows; two packets where a LOST goes
before. `seq` is the SEQ of the last of them. -/
def State.ringAccept (s : State) (bytes : List Byte) (seq : Nat) : State :=
  let size := 2 ^ s.get Reg.OBS_RING_CFG_SIZE
  let wr := s.get Reg.OBS_RING_WR_OFF
  let wr' := (wr + bytes.length) % size
  let sh := 4 * s.get Reg.OBS_RING_SHADOW_ADDR
  let rate := s.get Reg.OBS_RING_CFG_MAX_MBS
  let mem := ringBytes s.hostMem (4096 * s.get Reg.OBS_RING_BASE_BASE) size wr bytes
  { s with
    hostMem := if sh = 0 then mem else mem.writeBytes sh (leBytes 4 wr'),
    regs := countPackets (rfPut s.regs Reg.OBS_RING_WR_OFF wr') (cntObs 1) s.obs.ring.lost,
    obs := { s.obs with ring := s.obs.ring.takes rate s.tide bytes seq, postLeft := s.obs.postLeft - bytes.length } }

/-- R522: a packet that finds no room in the ring is dropped and counted. -/
def State.ringDrop (s : State) : State :=
  { s with regs := (rfCount s.regs (cntObs 3)).1, obs := { s.obs with ring := s.obs.ring.drops } }

/-- One packet to the trace ring (R522, R524, R525): written, after a LOST where packets were dropped, or dropped: in STREAM
mode without room in the ring, in its buffer at MAX_MBS, or without a link. -/
def State.packetToRing (s : State) (src : Nat) (payload : List Byte) : State :=
  let d := s.obs.ring
  let p := d.offered src s.tide payload
  let room := ringRoom (2 ^ s.get Reg.OBS_RING_CFG_SIZE) (s.get Reg.OBS_RING_WR_OFF) (s.get Reg.OBS_RING_RD_OFF)
  let fits := (s.on Reg.OBS_RING_CFG_MODE || decide (p.1.length ≤ room)) &&
    d.hasRoom (s.get Reg.OBS_RING_CFG_MAX_MBS) s.tide p.1
  if s.on Reg.OBS_STATUS_RING_FROZEN ∨ (s.on Reg.OBS_STATUS_TRIGGERED ∧ s.obs.postLeft = 0) then s
  else if s.on Reg.HST_STATUS_LINK_UP && !s.host.d3hot && fits then s.ringAccept p.1 p.2
  else s.ringDrop

/-- A source is present at a destination whose mask has been read (R520). -/
def sourcePresent (mask src : Nat) : Bool := decide (src < 3) || bitAt mask (src - 3)

/-- R520: a packet of a source to every enabled destination that has it. -/
def State.trace (s : State) (src : Nat) (payload : List Byte) : State :=
  let s := if s.on Reg.OBS_CTRL_PORT_EN && sourcePresent (s.get Reg.OBS_SRC_PORT_MASK) src then
      s.packetToPort src payload else s
  if s.on Reg.OBS_CTRL_RING_EN && sourcePresent (s.get Reg.OBS_SRC_RING_MASK) src then s.packetToRing src payload else s

/-! ### Events (R15, R16, R441, R455, R456) -/

/-- The events of severity INFO (R16 and the event tables of the chapters). -/
def infoEvents : List Nat := [
    0x0118, 0x0202, 0x0306, 0x0417, 0x0507, 0x0509, 0x0601, 0x060E, 0x06E3, 0x0702, 0x0704, 0x0705, 0x0709,
    0x080A, 0x0904, 0x0905, 0x0A01, 0x0A02, 0x0A05, 0x0A08, 0x0A0A, 0x0A0E, 0x0A0F, 0x0A10, 0x0B01, 0x0B06,
    0x0B08, 0x0B0B, 0x0C01, 0x0C07, 0x0C09, 0x0C0A, 0x0D01, 0x0D06, 0x0E01, 0x0E06, 0x0F04, 0x0F0B, 0x1001,
    0x1008, 0x100A, 0x1101, 0x1104, 0x1107, 0x1109, 0x1201, 0x1202, 0x1205, 0x1207, 0x1301, 0x130A, 0x1403,
    0x1404]

/-- The events of severity NOTE (R16 and the event tables of the chapters). -/
def noteEvents : List Nat := [
    0x0110, 0x0152, 0x0201, 0x0203, 0x0304, 0x0305, 0x0402, 0x0403, 0x0404, 0x0410, 0x0414, 0x0416, 0x050F,
    0x0608, 0x0609, 0x060C, 0x0706, 0x0801, 0x0809, 0x080E, 0x0810, 0x0901, 0x0906, 0x0908, 0x0909, 0x0A03,
    0x0A04, 0x0A07, 0x0A0C, 0x0A0D, 0x0B05, 0x0B09, 0x0B0A, 0x0C08, 0x0C0D, 0x0C0E, 0x0D03, 0x0D0C, 0x0E03,
    0x0E05, 0x0E07, 0x0E0B, 0x0F01, 0x0F05, 0x0F09, 0x0F0D, 0x0F0E, 0x1004, 0x100B, 0x100C, 0x1103, 0x1105,
    0x1106, 0x110A, 0x110B, 0x110C, 0x110D, 0x110E, 0x1206, 0x1209, 0x1308, 0x1401, 0x1402, 0x1405]

/-- The events of severity HALT (R16 and the event tables of the chapters). -/
def haltEvents : List Nat := [
    0x0112, 0x0114, 0x0115, 0x0117, 0x0412, 0x0413, 0x0504, 0x0505, 0x0506, 0x0604, 0x0606, 0x0607, 0x060A,
    0x0802, 0x0803, 0x0804, 0x0805, 0x0806, 0x0807, 0x0808, 0x080D, 0x0902, 0x0903, 0x0A06, 0x0D04, 0x0D07,
    0x1204]

/-- The events of severity FATAL (R16 and the event tables of the chapters). -/
def fatalEvents : List Nat := [
    0x0205, 0x0415, 0x050A, 0x050E, 0x060D, 0x06E2, 0x0707, 0x0B03, 0x0E02, 0x0E09, 0x0F08, 0x1303, 0x1304,
    0x1309]

/-- The severity code of an event (R455): 0 INFO, 1 NOTE, 2 FAULT, 3 HALT, 4 FATAL. Where a table gives two
severities, the caller states it. -/
def eventSev (code : Nat) : Nat :=
  if natMem code infoEvents then 0 else if natMem code noteEvents then 1 else if natMem code haltEvents then 3
  else if natMem code fatalEvents then 4 else 2

/-- R455: how many records of an event ring an event takes: one, and one for each 31 further payload bytes. -/
def Event.records (e : Event) : Nat := 1 + (e.payload.length - 12 + 30) / 31

/-- R455: the 32 bytes of an event's first record. -/
def Event.first (e : Event) (phase lost : Bool) : List Byte :=
  leBytes 2 e.code ++ leBytes 1 e.sev ++
  leBytes 1 (128 * flag phase + 64 * flag lost + (e.records - 1)) ++
  leBytes 8 e.time ++ leBytes 6 e.tick ++ leBytes 2 e.epoch ++
  (e.payload ++ List.replicate 12 0).take 12

/-- R455: continuation record k (from 0) of an event; phase given for that record. -/
def Event.continuation (e : Event) (k : Nat) (phase : Bool) : List Byte :=
  let p := ((e.payload.drop (12 + 31 * k)) ++ List.replicate 31 0).take 31
  p.take 3 ++ leBytes 1 (128 * flag phase + 32 + (e.records - 2 - k)) ++ p.drop 3

/-- The records that an on-chip queue holds. -/
def EventRing.queued (q : EventRing) : Nat := q.queue.foldl (fun a e => a + e.records) 0

/-- The queue without its oldest INFO or NOTE event that is no completion; none where it holds none (R441). -/
def dropOldest : List Event → Option (List Event)
  | [] => none
  | e :: r => if e.sev < 2 ∧ e.completion = false then some r else (dropOldest r).map (e :: ·)

/-- R441: an event joins an on-chip queue that `reserved` completion slots are kept in; whether it was queued, and whether
an event was dropped. -/
def EventRing.push (q : EventRing) (reserved : Nat) (e : Event) : EventRing × Bool × Bool :=
  if e.completion ∨ q.queued + reserved + e.records ≤ 1024 then ({ q with queue := q.queue ++ [e] }, true, false)
  else if e.sev < 2 then ({ q with lost := true }, false, true)
  else
    match dropOldest q.queue with
    | some r => ({ q with queue := r ++ [e], lost := true }, true, true)
    | none =>
      if e.sev = 4 then ({ q with queue := q.queue ++ [e] }, true, false) else ({ q with lost := true }, false, true)

/-- R439: completion slots reserved on an event ring. -/
def State.reservations (s : State) (eq : Nat) : Nat := (s.host.jobs.filter fun j => decide (j.eq = eq)).length

/-- An event of the present moment. -/
def State.eventNow (s : State) (code sev : Nat) (payload : List Byte) (completion : Bool) : Event where
  code := code
  sev := sev
  time := s.ptpTime
  tick := s.get Reg.TID_TICK_INDEX
  epoch := s.get Reg.TIM_STATUS_EPOCH
  payload := payload
  completion := completion

/-- R477: one record to the telemetry of a port; dropped and counted where the link is down or 256 wait (its counter's
saturation is reported at the next tide clock, log entry 17). -/
def State.telemetry (s : State) (p : Nat) (record : List Byte) : State :=
  let t := s.time.ports.getD p {}
  if s.on (Reg.TIM_PORT_STATUS_LINK p) ∧ t.records.length < 256 then
    let since := if t.records.isEmpty then s.tide else t.recordsAt
    let t' : TimePort := { t with records := t.records ++ [record], recordsAt := since }
    { s with time := { s.time with ports := listSet s.time.ports p t' } }
  else { s with regs := (rfCount s.regs (cntTim 7)).1 }

/-- R477: a port sends telemetry. -/
def State.telemetryOn (s : State) (p : Nat) : Bool :=
  s.on (Reg.TIM_PORT_CFG_EN p) && s.on (Reg.TIM_PORT_CFG_TLM_EN p) &&
    (decide (s.get (Reg.TIM_PORT_CFG_TRANSPORT p) = 1) || decide (s.get (Reg.TIM_PORT_CFG_TRANSPORT p) = 2))

/-- R477: copies of a queued event's records, continuations included, to the ports that send telemetry. -/
def State.telemetryCopy (s : State) (e : Event) : State :=
  let records := e.first false false :: (List.range (e.records - 1)).map fun k => e.continuation k false
  ((List.range 2).filter fun p => s.telemetryOn p).foldl
    (fun (s : State) p => records.foldl (fun (s : State) r => s.telemetry p r) s) s

/-- The machine with the event rings' on-chip side replaced. -/
def State.withEvents (s : State) (l : List EventRing) : State := { s with host := { s.host with events := l } }

/-- An event into the queue of an event ring; whether an event was dropped (R441, R477). -/
def State.enqueue (s : State) (ring : Nat) (e : Event) : State × Bool :=
  let p := (s.host.events.getD ring EventRing.reset).push (s.reservations ring) e
  let s := s.withEvents (listSet s.host.events ring p.1)
  (if p.2.1 then s.telemetryCopy e else s, p.2.2)

/-- R10, R527: one more on a counter; a saturation raises 0x1401 by way of `again`, and is counted itself. -/
def State.countWith (again : State → Nat → Nat → List Byte → State) (s : State) (off : Nat) : State :=
  let p := rfCount s.regs off
  let q := rfCount p.1 (cntObs 5)
  if p.2 then
    let t := again { s with regs := q.1 } 0x1401 1 (leBytes 4 off)
    if q.2 then again t 0x1401 1 (leBytes 4 (cntObs 5)) else t
  else { s with regs := p.1 }

/-- R520: an event's records to the trace. -/
def State.traceEvent (s : State) (e : Event) : State :=
  (List.range (e.records - 1)).foldl (fun (s : State) k => s.trace 3 (e.continuation k false)) (s.trace 3 (e.first false false))

/-- R441: an event is traced, and routed by its subsystem: queued, or counted where it lies below MIN_SEV or one was
dropped. -/
def State.raiseWith (again : State → Nat → Nat → List Byte → State) (s : State) (code sev : Nat) (payload : List Byte) :
    State :=
  let ss := code / 256
  let e := s.eventNow code sev payload false
  let s := s.traceEvent e
  if sev < s.get (Reg.HST_EV_ROUTE_MIN_SEV ss) ∧ sev ≠ 4 then s.countWith again (cntHst 4)
  else
    let p := s.enqueue (s.get (Reg.HST_EV_ROUTE_RING ss)) e
    if p.2 then p.1.countWith again (cntHst 5) else p.1

/-- R441, R527: an event; each counter that it saturates raises 0x1401. The fuel bounds that chain: a counter saturates
once until it is cleared. -/
def State.raiseFuel : Nat → State → Nat → Nat → List Byte → State
  | 0 => fun s _ _ _ => s
  | n + 1 => fun s code sev payload => s.raiseWith (State.raiseFuel n) code sev payload

/-- R525: the trigger event triggers the trace ring. -/
def State.obsTrigger (s : State) (code : Nat) : State :=
  let obs := { s.obs with postLeft := 1024 * s.get Reg.OBS_TRIG_POST_KIB }
  if s.on Reg.OBS_TRIG_EN ∧ s.get Reg.OBS_TRIG_CODE = code then
    State.raiseFuel 4 ({ s with obs := obs }.puts [(Reg.OBS_TRIG_EN, 0), (Reg.OBS_STATUS_TRIGGERED, 1)]) 0x1403 0
      (leBytes 2 code ++ leBytes 4 (s.get Reg.OBS_RING_WR_OFF))
  else s

/-- The device raises an event at a stated severity, with payload fields (width in bytes, value) as R456 packs them. -/
def State.raiseSev (s : State) (code sev : Nat) (payload : List (Nat × Nat)) : State :=
  (State.raiseFuel 4 s code sev (packFields payload)).obsTrigger code

/-- The device raises an event at the severity of its table. -/
def State.raise (s : State) (code : Nat) (payload : List (Nat × Nat)) : State :=
  s.raiseSev code (eventSev code) payload

/-- R10, R527: one more on a counter of the machine. -/
def State.count (s : State) (off : Nat) : State :=
  let p := rfCount s.regs off
  let s := { s with regs := p.1 }
  if p.2 then
    let q := rfCount s.regs (cntObs 5)
    ({ s with regs := q.1 }).raise 0x1401 [(4, off)]
  else s

/-- n more on a counter of the machine, without passing all ones (R10). -/
def State.countBy (s : State) (off n : Nat) : State :=
  let c := s.get ⟨off, 0, 48⟩
  if n = 0 then s
  else if c + n < 2 ^ 48 - 1 then s.put ⟨off, 0, 48⟩ (c + n)
  else if c = 2 ^ 48 - 1 then s
  else (s.put ⟨off, 0, 48⟩ (2 ^ 48 - 2)).count off

/-! ### Register writes by access type (R12, R13, R433) -/

/-- R13: what a write of `v` (the 64-bit register value) leaves in one field of a register whose value is `old`. -/
def FieldRow.written (f : FieldRow) (old v : BitVec 64) : BitVec 64 :=
  let n := bvField v f.lo f.width
  let o := bvField old f.lo f.width
  match f.access with
  | .rw =>
    match f.range with
    | some (lo, hi) => if lo ≤ n ∧ n ≤ hi then bvPut old f.lo f.width n else old
    | none => bvPut old f.lo f.width n
  | .w1c => bvPut old f.lo f.width ((BitVec.ofNat 64 o &&& ~~~(BitVec.ofNat 64 n)).toNat)
  | .w1s => bvPut old f.lo f.width ((BitVec.ofNat 64 o ||| BitVec.ofNat 64 n).toNat)
  | .ro => old
  | .wo => old
  | .sat => old
  | .bw => old

/-- R13: a register after a write, field by field. -/
def RegRow.written (r : RegRow) (old v : BitVec 64) : BitVec 64 :=
  r.fields.foldl (fun a f => f.written a v) old

/-- The offset at which the common value of a CCH_ register is held (R202), for either couch's block. -/
def canonOffset (off : Nat) : Nat :=
  if 0x00700000 ≤ off ∧ off < 0x00800000 ∧ domainOf off = 1 then off - 0x100000 else off

/-- R433: an access to a register of a domain that is down is counted, and raises 0x100B at most once per second. -/
def State.domainOffAccess (s : State) (off : Nat) : State :=
  let s := s.count (cntHst 7)
  let again := match s.host.domainOffAt with
    | some t => decide (400000000 ≤ s.aon - t)
    | none => true
  if again then
    ({ s with host := { s.host with domainOffAt := some s.aon } }).raise 0x100B [(4, off)]
  else s

/-- R12, R13, R433: a 32-bit write of a register acts by its access type. -/
def State.writeWord (s : State) (off : Nat) (v : BitVec 32) : State :=
  let o := canonOffset off
  match findRow o with
  | none => s
  | some (r, _, h) =>
    if ¬ s.domainOn (domainOf off) then s.domainOffAccess off
    else
      let lowOff := o - 4 * h
      let old := if r.wide then rfPair s.regs lowOff else (rfWord s.regs o).setWidth 64
      let keep := if h = 0 then rfWord s.regs (lowOff + 4) else rfWord s.regs lowOff
      let w : BitVec 64 := if r.wide then (if h = 0 then keep ++ v else v ++ keep) else v.setWidth 64
      -- the half that is not written keeps what a write of its own value leaves: W1C and W1S bits are given 0
      let touched := r.fields.filter fun f => decide (f.lo < 32 * (h + 1) ∧ 32 * h < f.lo + f.width)
      let new := touched.foldl (fun a f => f.written a w) old
      if r.wide then
        { s with regs := rfSetWord (rfSetWord s.regs lowOff (new.setWidth 32)) (lowOff + 4) ((new >>> 32).setWidth 32) }
      else { s with regs := rfSetWord s.regs o (new.setWidth 32) }

/-- R11, R433: an aligned 64-bit write: at once on a 64-bit register, otherwise its two words, low first. -/
def State.writePair (s : State) (off : Nat) (v : BitVec 64) : State :=
  let o := canonOffset off
  match findRow o with
  | some (r, _, 0) =>
    if r.wide then
      if ¬ s.domainOn (domainOf off) then s.domainOffAccess off
      else
        let new := r.written (rfPair s.regs o) v
        { s with regs := rfSetWord (rfSetWord s.regs o (new.setWidth 32)) (o + 4) ((new >>> 32).setWidth 32) }
    else (s.writeWord off (v.setWidth 32)).writeWord (off + 4) ((v >>> 32).setWidth 32)
  | _ => (s.writeWord off (v.setWidth 32)).writeWord (off + 4) ((v >>> 32).setWidth 32)

/-- R11: the offset of the half of a 64-bit register that a write reaches first. -/
def halfOffset : Option (Fin 2) → Nat
  | none => 0
  | some h => 4 * h

/-! ### Jobs and completions (R439, R444, R445) -/

/-- Bytes to host memory for the host to see: at once, or held while the link is down or the function is in D3hot. -/
def State.hostWrite (s : State) (a : Nat) (l : List Byte) : State :=
  if s.on Reg.HST_STATUS_LINK_UP ∧ s.host.d3hot = false then s.writeHost a l
  else { s with host := { s.host with heldWrites := s.host.heldWrites ++ [(a, l)] } }

/-- R460: the severity of a completion event, by status. -/
def completionSev (status : Nat) : Nat :=
  if status = 0 ∨ status = 8 ∨ status = 12 then 0 else if status = 11 then 1 else 2

/-- R444: the 64 bytes of a completion record. -/
def completionRecord (s : State) (j : Job) (status cause : Nat) (detail : List Byte) : List Byte :=
  leBytes 4 j.tag ++ leBytes 1 j.opcode ++ leBytes 1 status ++ leBytes 1 j.ring ++ leBytes 1 1 ++ leBytes 4 j.aseq ++
  leBytes 2 (if status = 0 then 0 else cause) ++ leBytes 2 (s.get Reg.TIM_STATUS_EPOCH) ++ leBytes 8 s.ptpTime ++
  (detail ++ List.replicate 40 0).take 40

/-- The job in flight with an acceptance number. -/
def State.findJob (s : State) (aseq : Nat) : Option Job := s.host.jobs.find? fun j => decide (j.aseq = aseq)

/-- R172: a completion of a host codec job is counted, whatever its status, and an OVERFLOW once more. -/
def State.countCodec (s : State) (opcode status : Nat) : State :=
  if 0x30 ≤ opcode ∧ opcode ≤ 0x33 then
    let s := s.count (cntSto 7)
    if status = 6 then s.count (cntSto 8) else s
  else s

/-- R444: a completion of a job: its record is written, its event queued unless QUIET applies, and its slots are free. -/
def State.completeJob (s : State) (j : Job) (status cause : Nat) (detail : List Byte) : State :=
  let s := if j.compAddr = 0 then s else s.hostWrite j.compAddr (completionRecord s j status cause detail)
  let s := { s with host := { s.host with jobs := s.host.jobs.filter fun k => decide (k.aseq ≠ j.aseq) } }
  let s := (if status = 0 then s else s.count (cntHst 1)).countCodec j.opcode status
  if j.quiet ∧ status = 0 then s
  else
    let payload := packFields [(4, j.tag), (1, j.opcode), (1, status), (1, j.ring), (2, if status = 0 then 0 else cause)]
    let e := s.eventNow 0x1001 (completionSev status) payload true
    let s := s.trace 3 (e.first false false)
    ((s.enqueue j.eq e).1).obsTrigger 0x1001

/-- R444: the job in flight with an acceptance number completes. -/
def State.complete (s : State) (aseq status cause : Nat) (detail : List Byte) : State :=
  match s.findJob aseq with
  | none => s
  | some j => s.completeJob j status cause detail

/-! ### Descriptors (R437, R438, R443) -/

/-- Why a ring does not take the descriptor at its CONS now: a WAIT code of R438, 0 where it takes it, 255 where no
descriptor is there to take (R432, R435, R437). -/
def State.takeWait (s : State) (d : Desc) (dram : Bool) : Nat :=
  let r := d.ring.val
  let eq := s.get (Reg.HST_SQ_CFG_EQ r)
  if ¬ (s.on Reg.HST_STATUS_READY ∧ s.on Reg.HST_CTRL_EN ∧ s.on (Reg.HST_SQ_CFG_EN r) ∧ s.on Reg.HST_STATUS_LINK_UP ∧
      s.host.d3hot = false ∧ s.get (Reg.HST_SQ_IDX_PROD r) ≠ s.get (Reg.HST_SQ_IDX_CONS r)) then 255
  else if s.on Reg.HST_STATUS_ABORTING then 5
  else if bitAt (s.get Reg.AUX_HOLD_STATUS_HELD) r then 3
  else if d.fence ∧ s.host.jobs.any (fun j => decide (j.ring = r)) then 6
  else if 1024 ≤ s.host.jobs.length ∨ 512 ≤ s.reservations eq then 4
  else if dram ∧ ¬ s.on Reg.MEM_STATUS_READY then 2
  else 0

/-- The job that a taken descriptor becomes. -/
def State.jobOf (s : State) (d : Desc) : Job where
  aseq := s.host.nextAseq
  ring := d.ring.val
  eq := s.get (Reg.HST_SQ_CFG_EQ d.ring.val)
  opcode := d.field 0 1
  tag := d.field 4 4
  compAddr := d.field 8 8
  quiet := bitAt (d.field 1 1) 1

/-- R437: CONS of a submission ring changes, and its shadow with it. -/
def State.setCons (s : State) (r cons : Nat) : State :=
  let sh := 4 * s.get (Reg.HST_SQ_SHADOW_ADDR r)
  let same := decide (s.get (Reg.HST_SQ_IDX_CONS r) = cons)
  let s := s.put (Reg.HST_SQ_IDX_CONS r) cons
  if sh = 0 ∨ same = true then s else s.hostWrite sh (leBytes 4 cons)

/-- R437: the descriptor at CONS is taken: the next ASEQ, CONS past it, the shadow written, the job in flight. -/
def State.takeJob (s : State) (d : Desc) : State :=
  let r := d.ring.val
  let j := s.jobOf d
  let cons := (s.get (Reg.HST_SQ_IDX_CONS r) + 1) % 65536
  let s := (s.put (Reg.HST_SQ_STATUS_WAIT r) 0).setCons r cons
  let s := { s with host := { s.host with nextAseq := (j.aseq + 1) % 2 ^ 32, jobs := s.host.jobs ++ [j] } }
  s.count (cntHst 0)

/-- R443: the least offset of a failing check. -/
def firstFailing : List (Nat × Bool) → Option Nat
  | [] => none
  | (o, ok) :: r =>
    if ok then firstFailing r
    else match firstFailing r with
      | none => some o
      | some p => some (min o p)

/-- R437, R438, R443: a descriptor comes to the front of its ring. It waits with a WAIT code, or is taken; a bad one
completes BAD_DESC with 0x1002, a good one goes on as job `k`. `recordsFull` is WAIT 1 of a STRIP (R168). -/
def State.withDesc (s : State) (d : Desc) (dram recordsFull : Bool) (checks : List (Nat × Bool))
    (k : State → Job → State) : State :=
  match s.takeWait d dram with
  | 255 => s
  | 0 =>
    match firstFailing (d.headerChecks ++ checks) with
    | some off =>
      let idx := s.get (Reg.HST_SQ_IDX_CONS d.ring.val)
      let j := s.jobOf d
      ((s.takeJob d).raise 0x1002 [(1, d.ring.val), (2, idx), (1, off)]).complete j.aseq 3 0x1002 []
    | none =>
      if recordsFull then
        if s.get (Reg.HST_SQ_STATUS_WAIT d.ring.val) = 1 then s
        else (s.put (Reg.HST_SQ_STATUS_WAIT d.ring.val) 1).raise 0x0416
            [(1, 0xFF), (4, 0xFFFFFFFF), (1, 0xFF), (4, 0xFFFFFFFF), (4, 0xFFFFFFFF)]
      else k (s.takeJob d) (s.jobOf d)
  | w => s.put (Reg.HST_SQ_STATUS_WAIT d.ring.val) w

/-- R446: a DRAM range lies within MEM_SIZE. -/
def State.dramRangeOk (s : State) (a n : Nat) : Bool := decide (a + n ≤ s.get Reg.MEM_SIZE_BYTES)

end Sys2Proof.Machine
end

