-- ==== Sys2Proof/Machine/Domains.lean ====
section
/-! DEFINITION. Power domains and resets of the register file (R14, R433, R497, R498). -/
namespace Sys2Proof.Machine

/-- What a warm reset, or the power-up of a field's domain, leaves in a field (R14, R498). -/
def FieldRow.afterWarm (f : FieldRow) (is : List Nat) (old : BitVec 64) : BitVec 64 :=
  match f.warm with
  | .cold => bvPut old f.lo f.width (f.cold.value is)
  | .kept => old
  | .val n => bvPut old f.lo f.width n

/-- R498: counters restart from 0 at their domain's power-up; they are kept by nothing else than their Warm column. -/
def FieldRow.afterPowerUp (f : FieldRow) (is : List Nat) (old : BitVec 64) : BitVec 64 :=
  match f.access with
  | .sat => bvPut old f.lo f.width 0
  | .bw => old
  | _ => match f.warm with
    | .kept => old
    | _ => bvPut old f.lo f.width (f.cold.value is)

/-- A register word with each of its fields changed by a rule. -/
def reword (rule : FieldRow → List Nat → BitVec 64 → BitVec 64) (off : Nat) (v : BitVec 32) : BitVec 32 :=
  match findRow off with
  | none => v
  | some (r, is, h) =>
    let lowHalf := decide (h = 0)
    let w : BitVec 64 := if lowHalf then v.setWidth 64 else v.setWidth 64 <<< 32
    let fs := r.fields.filter fun f => decide (f.lo < 32 * (h + 1) ∧ 32 * h < f.lo + f.width)
    let new := fs.foldl (fun a f => rule f is a) w
    if lowHalf then new.setWidth 32 else (new >>> 32).setWidth 32

/-- A register file with the words that `pick` chooses changed by a rule. Words that are not listed stand at their Reset
value, which each rule keeps. -/
def rewordAll (rule : FieldRow → List Nat → BitVec 64 → BitVec 64) (pick : Nat → Bool) (rf : RegFile) : RegFile :=
  rf.foldl (fun a p => if pick p.1 then rfSetWord a p.1 (reword rule p.1 p.2) else a) rf

/-- The machine with the register words that `pick` chooses changed by a rule. -/
def State.rewordRegs (s : State) (rule : FieldRow → List Nat → BitVec 64 → BitVec 64) (pick : Nat → Bool) : State :=
  { s with regs := rewordAll rule pick s.regs }

/-- The machine with a power domain shown up or down, and its fault bit (R497, R500). -/
def State.showDomain (s : State) (d : Nat) (on fault : Bool) : State :=
  s.puts [(Reg.PWR_DOMAIN_STATUS_ON, setBit (s.get Reg.PWR_DOMAIN_STATUS_ON) d on),
    (Reg.PWR_DOMAIN_STATUS_FAULT, setBit (s.get Reg.PWR_DOMAIN_STATUS_FAULT) d fault)]

/-- R498: a domain is powered up: its registers take their Reset values, but for what R498 keeps. -/
def State.powerUp (s : State) (d : Nat) : State :=
  if s.domainOn d then s.showDomain d true false
  else
    (s.rewordRegs FieldRow.afterPowerUp fun o => decide (domainOf o = d)).showDomain d true false

/-- R497: a domain is powered down. -/
def State.powerDown (s : State) (d : Nat) : State := s.showDomain d false (bitAt (s.get Reg.PWR_DOMAIN_STATUS_FAULT) d)

/-- Power-up requests for a list of domains (R497); those that are up need none. -/
def State.requestDomains (s : State) (l : List Nat) : State :=
  let mask := (l.filter fun d => !s.domainOn d).foldl (fun (m : Nat) d => setBit m d true) s.pwr.requested
  { s with pwr := { s.pwr with requested := mask } }

/-- R500: a domain has failed. -/
def State.powerFault (s : State) (d : Nat) : State := s.showDomain d false true

/-- R511: every domain but AON is powered down, and their PLLs with them (R503). -/
def State.aonAlone (s : State) : State :=
  let s := ((List.range 15).foldl (fun (s : State) d => s.powerDown (d + 1)) s).put ⟨0x01400008, 1, 8⟩ 0
  { s with pwr := { s.pwr with aonOnly := true, requested := 0 } }

end Sys2Proof.Machine
end

