-- ==== Sys2Proof/Machine/Crc.lean ====
section
/-! DEFINITION. Cyclic redundancy checks of the spec: CRC-32C with the parameters of R114, CRC-32, and the short CRCs
of the serial frames, over byte lists. -/
namespace Sys2Proof.Machine

/-- One bit of a reflected CRC of width n. -/
def crcBit {n : Nat} (poly : BitVec n) (c : BitVec n) (bit : Bool) : BitVec n :=
  if (c.getLsbD 0 ^^ bit) then (c >>> 1) ^^^ poly else c >>> 1

/-- The low k bits of a byte, least bit first, into a reflected CRC. -/
def crcBits {n : Nat} (poly : BitVec n) : Nat → BitVec n → Byte → BitVec n
  | 0, c, _ => c
  | k + 1, c, b => crcBits poly k (crcBit poly c (b.getLsbD 0)) (b >>> 1)

/-- A reflected CRC over bytes, without the final XOR. -/
def crcReflected {n : Nat} (poly : BitVec n) : BitVec n → List Byte → BitVec n
  | c, [] => c
  | c, b :: bs => crcReflected poly (crcBits poly 8 c b) bs

/-- CRC-32C (R114): reflected polynomial 0x82F6_3B78, initial value and final XOR all ones. -/
def crc32c (l : List Byte) : BitVec 32 := crcReflected 0x82F63B78#32 0xFFFFFFFF#32 l ^^^ 0xFFFFFFFF#32

/-- CRC-32 of IEEE 802.3: reflected polynomial 0xEDB8_8320, initial value and final XOR all ones. -/
def crc32 (l : List Byte) : BitVec 32 := crcReflected 0xEDB88320#32 0xFFFFFFFF#32 l ^^^ 0xFFFFFFFF#32

/-- One bit of a non-reflected CRC of width n, most significant bit first. -/
def crcMsbBit {n : Nat} (poly : BitVec n) (c : BitVec n) (bit : Bool) : BitVec n :=
  if (c.msb ^^ bit) then (c <<< 1) ^^^ poly else c <<< 1

/-- A non-reflected CRC over bits, in the order given. -/
def crcMsb {n : Nat} (poly : BitVec n) : BitVec n → List Bool → BitVec n
  | c, [] => c
  | c, b :: bs => crcMsb poly (crcMsbBit poly c b) bs

/-- The low n bits of a number, most significant first. -/
def bitsMsb : Nat → Nat → List Bool
  | 0, _ => []
  | n + 1, v => decide (v / 2 ^ n % 2 = 1) :: bitsMsb n v

/-- The bits of bytes, least significant bit of each byte first. -/
def bitsLsb : List Byte → List Bool
  | [] => []
  | b :: bs => (List.range 8).map b.getLsbD ++ bitsLsb bs

end Sys2Proof.Machine
end

