-- ==== Sys2Proof/Machine/Frames.lean ====
section
/-! DEFINITION. The ordered sets and the frames of the head link, as symbols (R208 to R213, R216). -/
namespace Sys2Proof.Machine

/-- A data symbol. -/
def dataSym (b : Byte) : Symbol := b.setWidth 9

/-- A control symbol K x.y, by its byte. -/
def ctrlSym (b : Nat) : Symbol := BitVec.ofNat 9 (256 + b)

/-- R208: K27.7. -/
def sofSym : Symbol := ctrlSym 0xFB

/-- R208: K29.7. -/
def eofSym : Symbol := ctrlSym 0xFD

/-- R208: an ordered set of a control symbol and the three bytes of V. -/
def orderedSet (k v : Nat) : List Symbol := ctrlSym k :: (leBytes 3 v).map dataSym

/-- R208, R216: the TICK of a line, for its tick index and its head time: TAG and BASE. -/
def tickSet (index : Nat) (h : Int) : List Symbol := orderedSet 0x3C (index % 4 + 4 * wrapInt 22 (idiv h 64))

/-- R208, R221: SYNC with its SEQ. -/
def syncSet (seq : Nat) : List Symbol := orderedSet 0x7C seq

/-- R208, R225: TRAIN with the code of a chain state. -/
def trainSet (code : Nat) : List Symbol := orderedSet 0x1C code

/-- R210, R211: bytes 1 to 132 of a frame: FTYPE, POS, TAG and ARG, and the payload. -/
def headFrame (ftype pos tag arg : Nat) (payload : List Byte) : List Byte :=
  leBytes 1 (32 * ftype + 4 * pos + tag) ++ leBytes 3 arg ++ (List.range 128).map fun i => payload.getD i 0

/-- R210: the 138 symbols of a frame: SOF, header and payload, CRC, EOF. -/
def wire (body : List Byte) : List Symbol :=
  sofSym :: (body ++ leBytes 4 (crc32 body).toNat).map dataSym ++ [eofSym]

/-- R210, R230: header and payload of a frame that is received whole, with its CRC right. -/
def unwire (frame : List Symbol) : Option (List Byte) :=
  let bytes := ((frame.drop 1).take 136).map fun x => x.setWidth 8
  let body := bytes.take 132
  if frame = wire body then some body else none

/-- R211: FTYPE of a frame. -/
def frameType (body : List Byte) : Nat := fieldAt body 0 1 / 32

/-- R211: POS of a frame. -/
def framePos (body : List Byte) : Nat := fieldAt body 0 1 / 4 % 8

end Sys2Proof.Machine
end

