-- ==== Sys2Proof/Machine/Geometry.lean ====
section
/-! DEFINITION. Beam geometry, live patterns and the dose split over a register file: the committed one, or the one a
strip latched at FLOOD (R32 to R49, R177 to R185). -/
namespace Sys2Proof.Machine

/-! ### Rows and delays (R32 to R41) -/

/-- align(b, c) of a row index 128·b + c. -/
def alignOf (rf : RegFile) (row : Nat) : Int := sext 16 (rfGet rf (Reg.HCR_ALIGN_ALIGN row))

/-- trim(b, c) of a row index. -/
def trimOf (rf : RegFile) (row : Nat) : Int := sext 8 (rfGet rf (Reg.HCR_ALIGN_TRIM row))

/-- R8, R35: the delay of a row from the pitches and its line correction. -/
def rowDelay (rowPitch bandPitch row : Nat) (al : Int) : Int :=
  (row / 128 * bandPitch : Nat) + (row % 128 * rowPitch : Nat) + al

/-- The delay of a row of a register file. -/
def delayOf (rf : RegFile) (row : Nat) : Int :=
  rowDelay (rfGet rf Reg.HLK_ROW_PITCH_PITCH) (rfGet rf Reg.HLK_BAND_PITCH_PITCH) row (alignOf rf row)

/-- R36: the array extent E. -/
def extentOf (rf : RegFile) : Nat := 4 * rfGet rf Reg.HLK_BAND_PITCH_PITCH

/-- The least and the greatest delay over the 512 rows. -/
def delayBounds (rf : RegFile) : Int × Int :=
  (List.range 512).foldl (fun p row => let d := delayOf rf row; (min p.1 d, max p.2 d)) (delayOf rf 0, delayOf rf 0)

/-- R35: the first failing row, 0xFFFF for a pitch limit; none where the geometry holds. -/
def geometryFault (rf : RegFile) : Option Nat :=
  let rp := rfGet rf Reg.HLK_ROW_PITCH_PITCH
  let bp := rfGet rf Reg.HLK_BAND_PITCH_PITCH
  if rp < 1 ∨ bp < 128 ∨ bp ≤ 127 * rp then some 0xFFFF
  else (List.range 512).find? fun row =>
    let v := (row % 128 * rp : Nat) + alignOf rf row
    decide (v < 0 ∨ (bp : Int) ≤ v)

/-- R45, R47: the triple index 2·row + half of a driver address. -/
def tripleOf (rf : RegFile) (a : Nat) : Nat :=
  256 * rfGet rf (Reg.HLK_MAP_BAND a) + 2 * rfGet rf (Reg.HLK_MAP_CLASS a) + rfGet rf (Reg.HLK_MAP_HALF a)

/-- The row index of a driver address. -/
def rowOfDriver (rf : RegFile) (a : Nat) : Nat := tripleOf rf a / 2

/-- R47: the first triple that is assigned twice or not at all. -/
def mapFault (rf : RegFile) : Option Nat :=
  let l := (List.range 1024).map (tripleOf rf)
  (List.range 1024).find? fun t => decide ((l.filter fun x => decide (x = t)).length ≠ 1)

/-- R46: the beam column of beam index e of a driver. -/
def beamColumn (rf : RegFile) (a e : Nat) : Nat :=
  256 * rfGet rf (Reg.HLK_MAP_HALF a) + (if rfGet rf (Reg.HLK_MAP_BEAM_REV a) = 0 then e else 255 - e)

/-- R38, R39: the line that a row fires at a strip-local tick, unclipped. -/
def rawLine (rf : RegFile) (backwash : Bool) (n : Nat) (row : Nat) (t : Int) : Int :=
  if backwash then n - 1 - t + ((extentOf rf : Int) - 1 - delayOf rf row) else t - delayOf rf row

/-- R40: the line within the strip that a row fires at a tick. -/
def firedLine (rf : RegFile) (backwash : Bool) (n : Nat) (row : Nat) (t : Int) : Option Nat :=
  let l := rawLine rf backwash n row t
  if 0 ≤ l ∧ l < n then some l.toNat else none

/-- R38, R39: the tick at which a row fires a line. -/
def tickOfLine (rf : RegFile) (backwash : Bool) (n : Nat) (row : Nat) (l : Int) : Int :=
  if backwash then n - 1 - l + ((extentOf rf : Int) - 1 - delayOf rf row) else l + delayOf rf row

/-- Reams of a strip of n lines. -/
def reamsOf (n : Nat) : Nat := (n + 255) / 256

/-- R311: the first tick at which any row fires a line of ream r. -/
def firstTickOfReam (rf : RegFile) (backwash : Bool) (n : Nat) (r : Int) : Int :=
  if backwash then (n : Int) + extentOf rf - 2 - (delayBounds rf).2 - min (256 * r + 255) (n - 1)
  else 256 * r + (delayBounds rf).1

/-- The first tick after which every row has fired its last line of ream r (R171). -/
def lastTickOfReam (rf : RegFile) (backwash : Bool) (n : Nat) (r : Int) : Int :=
  if backwash then (n : Int) - 1 - 256 * r + (extentOf rf - 1 - (delayBounds rf).1)
  else min (256 * r + 255) ((n : Int) - 1) + (delayBounds rf).2

/-! ### Live patterns, factors and the split (R177 to R185) -/

/-- R177: the beam with an index 512·row + k is live. -/
def beamLive (rf : RegFile) (i : Nat) : Bool :=
  bitAt (rfGet rf (Reg.CCH_MASK_LIVE (i / 32))) (i % 32) &&
    decide (rfGet rf ⟨0x00D10000 + 4 * (i / 16), 2 * (i % 16), 2⟩ = 0)

/-- The index of beam (b, c, k) for column x and band b. -/
def columnBeam (b x : Nat) : Nat := 512 * (128 * b + x % 128) + x / 128

/-- R177: the live pattern m(x). -/
def livePattern (rf : RegFile) (x : Nat) : Nat :=
  (List.range 4).foldl (fun m b => m + (if beamLive rf (columnBeam b x) then 2 ^ b else 0)) 0

/-- R178: the first column with fewer than two live beams. -/
def uncovered (rf : RegFile) : Option Nat := (List.range 65536).find? fun x => decide (popCount 4 (livePattern rf x) < 2)

/-- R179: the unboosted bands, and the boosted band with its factor, of a live pattern. -/
def patternOf (m : Nat) : List Nat × Option (Nat × Nat) :=
  let live := (List.range 4).filter (bitAt m)
  let z := ((List.range 4).filter fun b => !bitAt m b).headD 4
  if live.length = 4 then (live, none)
  else if live.length < 2 then ([], none)
  else
    let w := (([(z + 1) % 4, (z + 2) % 4, (z + 3) % 4].filter (bitAt m)).headD 0)
    (live.filter fun b => decide (b ≠ w), some (w, 5 - live.length))

/-- R179: the factor of a band under a live pattern; 0 for a dead band. -/
def factorOf (m b : Nat) : Nat :=
  let p := patternOf m
  match p.2 with
  | some (w, g) => if w = b then g else flag (natMem b p.1)
  | none => flag (natMem b p.1)

/-- R180: the band dose of band b for final dose d at column x and line l. -/
def splitDose (m d x l b : Nat) : Nat :=
  let p := patternOf m
  let u := p.1.length
  let boosted := match p.2 with
    | some (_, g) => if 15 * u < d then (d - 15 * u + g - 1) / g else 0
    | none => 0
  let rest := match p.2 with
    | some (_, g) => d - g * boosted
    | none => d
  match p.1.findIdx? (fun x => decide (x = b)) with
  | some i => if u = 0 then 0 else
      let phi := (x + l) % u
      rest / u + flag (decide ((i + u - phi) % u < rest % u))
  | none => match p.2 with
    | some (w, _) => if w = b then boosted else 0
    | none => 0

/-- Entry q of dose curve n in 1/64 slot (R182). -/
def curveEntry (rf : RegFile) (n q : Nat) : Nat :=
  let i := 8 * n + q / 2
  if q % 2 = 0 then rfGet rf (Reg.CCH_CURVE_T0 i) else rfGet rf (Reg.CCH_CURVE_T1 i)

/-- The curve of a band (R182). -/
def bandCurve (rf : RegFile) (b : Nat) : Nat := rfGet rf ⟨0x00D00030, 4 * b, 3⟩

/-- R182, R218: the on-time of a code in 0.1 ns, as the driver rounds it. -/
def onTime (rf : RegFile) (b g q : Nat) : Nat :=
  (roundHalfUp ((g * curveEntry rf (bandCurve rf b) q * rfGet rf Reg.CCH_DWELL_SLOT : Nat) : Int) 64).toNat

/-- R183: the first curve and entry that fails. -/
def curveFault (rf : RegFile) : Option (Nat × Nat) :=
  (List.range 128).findSome? fun i =>
    let n := i / 16
    let q := i % 16
    let v := curveEntry rf n q
    let bad := if q = 0 then decide (v ≠ 0) else decide (96 * q < v) || decide (v < curveEntry rf n (q - 1))
    if bad then some (n, q) else none

/-- R184: the code of the greatest demand of a band for a greatest dose. -/
def demandCode (m dmax b : Nat) : Nat :=
  let p := patternOf m
  let u := p.1.length
  if natMem b p.1 then (min dmax (15 * u) + u - 1) / u
  else match p.2 with
    | some (w, g) => if w = b then (dmax - 15 * u + g - 1) / g else 0
    | none => 0

/-- R184: the demand of one segment: its greatest g·T[Q] over its columns and live bands. -/
def segmentDemand (rf : RegFile) (c j dmax : Nat) : Nat :=
  (List.range 32).foldl (fun acc i =>
    let x := 128 * (32 * j + i) + c
    let m := livePattern rf x
    (List.range 4).foldl (fun acc b =>
      if bitAt m b then
        let q := demandCode m dmax b
        max acc (factorOf m b * curveEntry rf (bandCurve rf b) q)
      else acc) acc) 0

/-- R184: the window W of a reserve demand, in 0.1 ns. -/
def windowOf (rf : RegFile) (d : Nat) : Nat :=
  (d * rfGet rf Reg.CCH_DWELL_SLOT + 63) / 64 + rfGet rf Reg.CCH_DWELL_GUARD

/-- R179, R215: the 256 factors of the driver at an address under latched or committed masks. -/
def driverFactors (rf : RegFile) (a : Nat) : List Nat :=
  let row := rowOfDriver rf a
  (List.range 256).map fun e =>
    let x := 128 * beamColumn rf a e + row % 128
    factorOf (livePattern rf x) (row / 128)

/-- R182, R215: the slot and the curve of the driver at an address. -/
def driverCurve (rf : RegFile) (a : Nat) : List Nat :=
  let n := bandCurve rf (rowOfDriver rf a / 128)
  (List.range 16).map (curveEntry rf n)

end Sys2Proof.Machine
end

