-- ==== Sys2Proof/Machine/Ledger.lean ====
section
/-! DEFINITION. Strips, their ledger records and ream slots, the lead, and lost tiles (R101, R123, R124, R156 to R174). -/
namespace Sys2Proof.Machine

/-! ### Strips -/

/-- The posted or open strip of a strip record. -/
def State.stripAt (s : State) (slot : Nat) : Option Strip := s.box.strips.find? fun st => decide (st.slot = slot)

/-- The open strip (R305, R306). -/
def State.openStrip (s : State) : Option Strip := s.box.strips.find? fun st => st.isOpen

/-- The machine with the strip of a record changed. -/
def State.modStrip (s : State) (slot : Nat) (f : Strip → Strip) : State :=
  { s with box := { s.box with strips := s.box.strips.map fun st => if st.slot = slot then f st else st } }

/-- The set-up a strip runs on: latched at FLOOD, committed before it (R49, R177, R200, R263). -/
def State.setup (s : State) (st : Strip) : RegFile := st.latched.getD s.regs

/-- A stream handle. -/
def State.stream (s : State) (h : Nat) : Stream := s.box.streams.getD h Stream.closed

/-- The machine with a stream handle changed. -/
def State.modStream (s : State) (h : Nat) (f : Stream → Stream) : State :=
  { s with box := { s.box with streams := listModify s.box.streams h f } }

/-- R448: the STRIP record a strip names: the first of the stream with its STRIP_ID. -/
def State.recordOf (s : State) (st : Strip) : Option StripRec :=
  (s.stream st.handle).strips.find? fun r => decide (r.id = st.stripId)

/-- N of a strip; 0 while its record has not been parsed. -/
def State.linesOf (s : State) (st : Strip) : Nat :=
  match s.recordOf st with
  | some r => r.lines
  | none => 0

/-- The ledger record of a slot. -/
def State.ledgerAt (s : State) (slot : Nat) : StripLedger := s.store.ledger.getD slot StripLedger.free

/-- The machine with a ledger record changed. -/
def State.modLedger (s : State) (slot : Nat) (f : StripLedger → StripLedger) : State :=
  { s with store := { s.store with ledger := listModify s.store.ledger slot f } }

/-- A mark that is not repaired; only DRIVER and SEGMENT marks can be open (R314). -/
def Mark.isOpen (m : Mark) : Bool := decide (m.state = 0 ∧ m.kind ≠ 1)

/-- The OPEN count of a strip record (R168). -/
def State.openMarks (s : State) (slot : Nat) : Nat := ((s.ledgerAt slot).marks.filter Mark.isOpen).length

/-- The strip-local tick of a tick index (R9, R37). -/
def localTick (tS index : Nat) : Int := signedDiff 48 index tS

/-- The tick index of a strip-local tick (R37, R270). -/
def tickIndex (tS : Nat) (t : Int) : Nat := wrapInt 48 (tS + t)

/-- The strip-local tick the generator emitted last; 0 before the first (R124). -/
def State.tickNow (s : State) : Int := s.tid.emitted.getD 0

/-! ### Configuration (R172, R202) -/

/-- STO_AREA_BASE as an address. -/
def State.areaBase (s : State) : Nat := 4096 * s.get Reg.STO_AREA_BASE_BASE

/-- STO_LEDGER_BASE as an address. -/
def State.ledgerBase (s : State) : Nat := 131072 * s.get Reg.STO_LEDGER_BASE_BASE

/-- Z: the bytes of one copy of the ledger. -/
def State.ledgerBytes (s : State) : Nat := 16777216 + 131072 * s.get Reg.STO_LEDGER_CFG_SLOTS

/-- R172: the store area and both ledger copies, as (first address, length). -/
def State.storeRegions (s : State) : List (Nat × Nat) :=
  [(s.areaBase, 4096 * s.get Reg.STO_AREA_BLOCKS_BLOCKS), (s.ledgerBase, 2 * s.ledgerBytes)]

/-- Two regions overlap. -/
def overlap (a b : Nat × Nat) : Bool := decide (a.1 < b.1 + b.2 ∧ b.1 < a.1 + a.2)

/-- R172: the store configuration is valid. -/
def State.storeValid (s : State) : Bool :=
  let rg := s.storeRegions
  decide (4096 ≤ s.get Reg.STO_AREA_BLOCKS_BLOCKS ∧ 2 ≤ s.get Reg.STO_LEDGER_CFG_SLOTS) &&
    rg.all (fun p => s.dramRangeOk p.1 p.2) && !overlap (rg.getD 0 (0, 0)) (rg.getD 1 (0, 0))

/-- R172: STO_STATUS.CONFIG_OK as it follows from the configuration and the installed DRAM. -/
def State.showConfig (s : State) : State := s.put Reg.STO_STATUS_CONFIG_OK (flag s.storeValid)

/-- R202: the reserve table, as (first address, length). -/
def State.reserveRegion (s : State) : Nat × Nat :=
  (2048 * s.get Reg.CCH_RES_BASE_BASE, 2048 * s.get Reg.STO_LEDGER_CFG_SLOTS)

/-- R202: the reserve table lies within installed DRAM and clear of the store area and the ledger. -/
def State.reserveValid (s : State) : Bool :=
  let t := s.reserveRegion
  s.dramRangeOk t.1 t.2 && s.storeRegions.all fun p => !overlap t p

/-! ### Ream slots -/

/-- The slot of a ream. -/
def State.reamAt (s : State) (slot r : Nat) : Option ReamSlot :=
  s.store.slots.find? fun m => decide (m.stripSlot = slot ∧ m.ream = r)

/-- The machine with the slot of a ream changed. -/
def State.modReam (s : State) (slot r : Nat) (f : ReamSlot → ReamSlot) : State :=
  { s with store := { s.store with slots := s.store.slots.map fun m =>
      if m.stripSlot = slot ∧ m.ream = r then f m else m } }

/-- A tile that is not there: PENDING. -/
def TileRec.pending : TileRec := ⟨0, 0xFF, 0, 0⟩

/-- The ledger's record of a tile. -/
def State.tileAt (s : State) (slot r j : Nat) : TileRec :=
  match s.reamAt slot r with
  | some m => m.tiles.getD j TileRec.pending
  | none => TileRec.pending

/-- The machine with a tile's record changed. -/
def State.modTile (s : State) (slot r j : Nat) (f : TileRec → TileRec) : State :=
  s.modReam slot r fun m => { m with tiles := listModify m.tiles j f }

/-- R124: a status that counts as accepted: ACCEPTED, TRUSTED or LOST. -/
def acceptedStatus (n : Nat) : Bool := decide (n = 1 ∨ n = 2 ∨ n = 3)

/-- R124, R310: every tile of a ream counts as accepted; so does a ream whose slot has been released. -/
def State.reamAccepted (s : State) (st : Strip) (r : Nat) : Bool :=
  natMem r st.releasedReams ||
    match s.reamAt st.slot r with
    | some m => m.tiles.all fun t => acceptedStatus t.status
    | none => false

/-- R171: every tile of a ream is ACCEPTED or TRUSTED. -/
def ReamSlot.stored (m : ReamSlot) : Bool := m.tiles.all fun t => decide (t.status = 1 ∨ t.status = 2)

/-- R305, R308: a strip that has fired nothing and had no stop is fresh; any other is interrupted once it is in SLACK. -/
def Strip.fresh (st : Strip) : Bool := decide (st.ticksFired = 0) && st.unsettled.isEmpty && st.doneTicks.isEmpty

/-- R157, R170: BURSTS of a ream. -/
def ReamSlot.bursts (m : ReamSlot) : Nat := m.tiles.foldl (fun a t => a + t.bursts) 0

/-- The store blocks that ream slots hold. -/
def State.heldBlocks (s : State) : List Nat := s.store.slots.flatMap fun m => m.groups.flatten

/-- R158: open reservations of blocks. -/
def State.reservedBlocks (s : State) : Nat := s.store.slots.foldl (fun a m => a + m.reserved) 0

/-- R158: blocks left of the 1,024 held back for LEDGER re-renders. -/
def State.heldBack (s : State) : Nat := 1024 - s.store.slots.foldl (fun a m => a + m.extra) 0

/-- Free blocks of the store area (STO_FREE): those that no class group holds. "Not counting open reservations" is read as
not deducting them (DESIGN CHOICE, log entry 55). -/
def State.freeBlocks (s : State) : Nat := s.get Reg.STO_AREA_BLOCKS_BLOCKS - s.heldBlocks.length

/-- R158: the store has room for a ream. -/
def State.storeRoom (s : State) : Bool :=
  decide (3072 + 1024 + s.reservedBlocks ≤ s.freeBlocks) &&
    decide (s.store.slots.length < s.get Reg.STO_LEDGER_CFG_SLOTS)

/-- The occupancy fields of STO_STATUS and STO_FREE as they follow from the slots and records. -/
def State.showStore (s : State) : State :=
  s.puts [(Reg.STO_STATUS_LIVE_REAMS, s.store.slots.length), (Reg.STO_FREE_BLOCKS, s.freeBlocks),
    (Reg.STO_STATUS_OPEN_STRIPS, (s.store.ledger.filter fun r => decide (r.state ≠ 0)).length)]

/-! ### Events of the store (R173): strip u8, ream u32, tile u8, class and band u32 -/

/-- The common payload fields of a store event. -/
def stoFields (slot : Nat) (ream tile cls band : Option Nat) : List (Nat × Nat) :=
  [(1, slot), (4, ream.getD 0xFFFFFFFF), (1, tile.getD 0xFF), (4, cls.getD 0xFFFFFFFF), (4, band.getD 0xFFFFFFFF)]

/-! ### Marks -/

/-- The ream and the band that a DRIVER or SEGMENT mark names. -/
def State.markReam (s : State) (st : Strip) (m : Mark) : Option (Nat × Nat) :=
  let rf := s.setup st
  let row := if m.kind = 2 then rowOfDriver rf m.who else m.who
  let t := localTick (s.ledgerAt st.slot).tS m.tick
  match firedLine rf st.backwash (s.linesOf st) row t with
  | some l => some (l / 256, row / 128)
  | none => none

/-- R168, R170: open marks that name a ream. -/
def State.reamMarks (s : State) (st : Strip) (r : Nat) : List Mark :=
  (s.ledgerAt st.slot).marks.filter fun m => m.isOpen && decide ((s.markReam st m).map (·.1) = some r)

/-- R169: a mark among those of a record, in order of their ticks. -/
def insertMark (m : Mark) : List Mark → List Mark
  | [] => [m]
  | x :: r => if signedDiff 48 m.tick x.tick < 0 then m :: x :: r else x :: insertMark m r

/-- R169: a mark is recorded; false where the 65,532 entries are used. -/
def State.recordMark (s : State) (slot : Nat) (m : Mark) : State × Bool :=
  if 65532 ≤ (s.ledgerAt slot).marks.length then (s, false)
  else (s.modLedger slot fun r => { r with marks := insertMark m r.marks }, true)

/-- R169: no entry is left for a mark: 0x0413, once for a strip. -/
def State.marksUsed (s : State) (slot : Nat) : State :=
  if (s.stripAt slot).any (·.marksFull) then s
  else (s.modStrip slot fun st => { st with marksFull := true }).raise 0x0413 (stoFields slot none none none none)

/-- R169: the tick of the break at which exposure of a strip with no entry left ends. -/
def State.setFinalBreak (s : State) (slot index : Nat) : State :=
  if (s.stripAt slot).any (·.marksFull) then s.modLedger slot fun l => { l with finalBreak := some (l.finalBreak.getD index) }
  else s

/-! ### Lead (R124) -/

/-- The number of consecutive accepted reams from r in firing order, and whether they reach the strip's end. -/
def State.acceptedRun (s : State) (st : Strip) (last : Nat) (down : Bool) : Nat → Nat → Nat × Bool
  | 0, _ => (0, true)
  | fuel + 1, r =>
    if s.reamAccepted st r then
      if r = (if down then 0 else last) then (1, true)
      else
        let p := s.acceptedRun st last down fuel (if down then r - 1 else r + 1)
        (p.1 + 1, p.2)
    else (0, false)

/-- R124: the frontier F of a strip at a tick. -/
def State.frontier (s : State) (st : Strip) (t : Int) : Int :=
  let rf := s.setup st
  let d := delayBounds rf
  if st.backwash then (s.linesOf st : Int) - 1 - t + extentOf rf - 1 - d.2 else t - d.1

/-- R124: the accepted run from the frontier: whether it reaches the strip's end, and the line that follows it. -/
def State.runFrom (s : State) (st : Strip) (t : Int) : Bool × Int :=
  let n := s.linesOf st
  let f := s.frontier st t
  if n = 0 then (false, f)
  else
    let last := reamsOf n - 1
    if st.backwash then
      if f < 0 then (true, -1)
      else
        let r := min (f / 256).toNat last
        let p := s.acceptedRun st last true (last + 1) r
        (p.2, 256 * ((r : Int) + 1 - p.1) - 1)
    else
      if (n : Int) ≤ f then (true, n)
      else
        let r := if f < 0 then 0 else (f / 256).toNat
        let p := s.acceptedRun st last false (last + 1) r
        (p.2, 256 * ((r : Int) + p.1))

/-- R124: the lead at a tick; none where the run reaches the strip's end. -/
def State.leadAt (s : State) (st : Strip) (t : Int) : Option Nat :=
  let p := s.runFrom st t
  let f := s.frontier st t
  if p.1 then none
  else if st.backwash then some (if p.2 < f then f - (p.2 + 1) else 0).toNat
  else some (if f < p.2 then p.2 - 1 - f else 0).toNat

/-- R374: a lead taken with the leads that READY slaves report; none stands for a run to the strip's end. -/
def leastLead : Option Nat → Option Nat → Option Nat
  | none, b => b
  | a, none => a
  | some a, some b => some (min a b)

/-- Ports of a master that are READY. -/
def State.readyPorts (s : State) : List Nat :=
  if s.on Reg.CSC_STATUS_SLAVE then [] else (List.range 3).filter fun p => bitAt (s.get Reg.CSC_STATUS_READY) p

/-- The device is in a cascade of more than one. -/
def State.inCascade (s : State) : Bool := decide (1 < s.get Reg.CSC_CFG_DEVICES)

/-- The lead that R307, R310 and R319 compare: in a cascade, the master's is the least of all devices (R374). -/
def State.cascadeLead (s : State) (st : Strip) (t : Int) : Option Nat :=
  s.readyPorts.foldl (fun a p => leastLead a (s.csc.ports.getD p {}).peerLead) (s.leadAt st t)

/-- HBX_LEAD follows the open strip, or else the oldest posted one. -/
def State.showLead (s : State) : State :=
  match s.openStrip.orElse (fun _ => s.box.strips.head?) with
  | some st => s.put Reg.HBX_LEAD_LINES ((s.leadAt st (if st.isOpen then s.tickNow else 0)).getD 0xFFFFFFFF)
  | none => s.put Reg.HBX_LEAD_LINES 0

/-! ### Lost tiles (R123, R159, R162, R163, R167) -/

/-- R167: the break path of a tile with a due tick: 0x0412, and a stop before the due tick. -/
def State.storeBreak (s : State) (slot r j : Nat) (due : Int) : State :=
  let s := s.raise 0x0412 (stoFields slot (some r) (some j) none none)
  { s with seq := { s.seq with dueBreaks := s.seq.dueBreaks ++ [(slot, r, j, due)] } }

/-- R159: why the store declines a LEDGER request: 1 reserve short, 2 group list full. Blocks and list entries that accepted
requests will need but have not taken yet are not deducted (DESIGN CHOICE, log entry 52). -/
def State.ledgerDecline (s : State) (slot r : Nat) : Option Nat :=
  if s.heldBack < 256 ∨ s.freeBlocks < 256 then some 1
  else match s.reamAt slot r with
    | none => some 2
    | some m =>
      if (List.range 128).all fun c => decide ((m.ends.getD c 0 + 6144 + 4095) / 4096 ≤ 32) then none else some 2

/-- R123, R159, R163, R167: a LEDGER request of the store to the headbox. -/
def State.requestLedger (s : State) (slot r j : Nat) (due : Option Int) (again : Bool) : State :=
  let s := s.count (cntSto 6)
  let record (s : State) (ok : Bool) : State :=
    { s with store := { s.store with lost :=
        (s.store.lost.filter fun l => decide (¬ (l.slot = slot ∧ l.ream = r ∧ l.col = j))) ++
          [⟨slot, r, j, due.map Int.toNat, ok⟩] } }
  match s.ledgerDecline slot r with
  | some sub =>
    let s := if again then s else
      s.raise 0x0405 (stoFields slot (some r) (some j) none none ++ [(1, sub)])
    match due with
    | some d => (record s false).storeBreak slot r j d
    | none => record s false
  | none =>
    let late := match due with
      | some d => decide (d < s.tickNow + 256 * s.get Reg.HBX_CTRL_RR_MARGIN)
      | none => false
    if late then
      let d := due.getD 0
      let s := s.raise 0x0116 [(1, slot), (4, r), (1, j), (1, 0xFF), (6, wrapInt 48 d)]
      (record s false).storeBreak slot r j d
    else
      let s := record s true
      { s with box := { s.box with wanted := s.box.wanted ++
          [⟨.ledger, slot, r, j, 0xFF, none, due.map Int.toNat, 0⟩] } }

/-- R163: the declined requests without a due tick are made again. -/
def State.retryLost (s : State) : State :=
  (s.store.lost.filter fun l => !l.accepted && l.due.isNone).foldl
    (fun s l => s.requestLedger l.slot l.ream l.col none true) s

/-- R162: the first tick at which a band that has not begun ream r fires a line of it; none where all have begun. -/
def State.nextBandTick (s : State) (st : Strip) (r : Nat) : Option Int :=
  match s.reamAt st.slot r with
  | none => none
  | some m =>
    let rf := s.setup st
    let n := s.linesOf st
    let edge : Int := if st.backwash then min (256 * (r : Int) + 255) (n - 1) else 256 * r
    let ticks := (List.range 512).filterMap fun row =>
      if m.bands.getD (row / 128) 0 = 0 then some (tickOfLine rf st.backwash n row edge) else none
    match ticks with
    | [] => none
    | t :: l => some (l.foldl min t)

/-- R162, R174: a tile is LOST: one LEDGER request while none is in flight for it. -/
def State.loseTile (s : State) (st : Strip) (r j : Nat) : State :=
  let s := s.modTile st.slot r j fun t => { t with status := 3 }
  if s.store.lost.any fun l => decide (l.slot = st.slot ∧ l.ream = r ∧ l.col = j) && l.accepted then s
  else s.requestLedger st.slot r j (s.nextBandTick st r) false

/-! ### Release of reams and strips (R171, R324) -/

/-- R171: a ream's slot becomes FREE and is released, and its blocks return to the pool. -/
def State.releaseReam (s : State) (slot r : Nat) : State :=
  match s.reamAt slot r with
  | none => s
  | some m =>
    let left := s.store.slots.filter fun m => decide (¬ (m.stripSlot = slot ∧ m.ream = r))
    let s := { s with store := { s.store with slots := left } }
    let s := (s.modLedger slot fun l => { l with released := l.released + 1 }).modStrip slot fun st =>
      { st with releasedReams := r :: st.releasedReams, bursts := st.bursts + m.bursts }
    ((s.count (cntSto 9)).showStore).retryLost

/-- R171: a HELD ream whose last open mark has been repaired is FREE. -/
def State.releaseRepaired (s : State) (st : Strip) : State :=
  (s.store.slots.filter fun m => decide (m.stripSlot = st.slot ∧ m.state = 4)).foldl
    (fun s m => if (s.reamMarks st m.ream).isEmpty then s.releaseReam st.slot m.ream else s) s

/-- The driver that serves a triple under a head map. -/
def driverOfTriple (rf : RegFile) (t : Nat) : Nat := ((List.range 1024).find? fun a => decide (tripleOf rf a = t)).getD 0

/-- R321: the lines that a mark names, as (driver, tick index). -/
def State.markLines (s : State) (st : Strip) (m : Mark) : List (Nat × Nat) :=
  if m.kind = 2 then [(m.who, m.tick)]
  else
    let rf := s.setup st
    let tS := (s.ledgerAt st.slot).tS
    let a := driverOfTriple rf (2 * m.who + m.tile / 8)
    ((List.range 32).filter fun i =>
      (firedLine rf st.backwash (s.linesOf st) m.who (localTick tS m.tick + Int.ofNat i)).isSome).map fun i =>
        (a, (m.tick + i) % 2 ^ 48)

end Sys2Proof.Machine
end

