-- ==== Sys2Proof/Machine/LedgerImage.lean ====
section
/-! DEFINITION. The ledger as it stands in DRAM: the bytes of its two copies (R167, R168, R170), and DRAM as a reader of it
finds it. The ledger's home in the model is StoreState; what a record or slot that is free, and entries that are not in use,
hold in DRAM beside their STATE is what DRAM holds there otherwise (log entry 53). -/
namespace Sys2Proof.Machine

/-- R168: a break mark's 16 bytes. -/
def Mark.bytes (m : Mark) : List Byte :=
  leBytes 6 m.tick ++ leBytes 1 m.kind ++ leBytes 1 m.cause ++ leBytes 2 m.who ++ leBytes 1 m.tile ++ leBytes 1 m.state ++
    leBytes 2 m.count ++ leBytes 2 0

/-- R168: a strip record's header; `opened` is its count of marks not yet repaired. -/
def StripLedger.header (l : StripLedger) (opened : Nat) : List Byte :=
  leBytes 4 l.stripId ++ leBytes 4 l.lines ++ leBytes 8 l.tS ++ leBytes 1 l.dir ++ leBytes 1 l.state ++ leBytes 2 l.geomGen ++
    leBytes 2 l.marks.length ++ leBytes 2 opened ++ leBytes 8 (l.finalBreak.getD (2 ^ 48 - 1)) ++ leBytes 4 l.released ++
    List.replicate 28 0

/-- R168: byte o of strip record i; of a free record only STATE. -/
def State.recordByte (s : State) (i o : Nat) : Option Byte :=
  let l := s.ledgerAt i
  if l.state = 0 then (if o = 17 then some 0 else none)
  else if o < 64 then (l.header (s.openMarks i))[o]?
  else (l.marks[(o - 64) / 16]?).bind fun m => m.bytes[(o - 64) % 16]?

/-- R170: the open marks that name a ream and a band. -/
def State.bandMarks (s : State) (m : ReamSlot) (b : Nat) : Nat :=
  match s.stripAt m.stripSlot with
  | none => 0
  | some st => ((s.reamMarks st m.ream).filter fun k => decide ((s.markReam st k).map (·.2) = some b)).length

/-- R170: a ream record's 256 bytes. -/
def State.reamRecord (s : State) (m : ReamSlot) : List Byte :=
  leBytes 4 (s.ledgerAt m.stripSlot).stripId ++ leBytes 4 m.ream ++ leBytes 1 m.state ++ leBytes 1 m.dir ++
    leBytes 1 m.stripSlot ++ leBytes 1 0 ++ leBytes 4 m.bursts ++
    ((List.range 4).flatMap fun b => leBytes 1 (m.bands.getD b 0) ++ leBytes 1 0 ++ leBytes 2 (s.bandMarks m b)) ++
    (m.tiles.flatMap fun t => leBytes 1 t.status ++ leBytes 1 t.vat ++ leBytes 1 t.renders ++ leBytes 1 0 ++ leBytes 4 t.bursts) ++
    List.replicate 96 0

/-- R170: a segment directory entry's 48 bytes. -/
def SegEntry.entryBytes (e : SegEntry) : List Byte :=
  leBytes 4 e.off ++ leBytes 2 e.bytes ++ leBytes 1 e.form ++ leBytes 1 0 ++
    ((List.range 8).flatMap fun q => leBytes 4 (e.crc.getD q 0)) ++ List.replicate 8 0

/-- R170: byte o of the slot with an index: its ream record, its group table, its segment directory; of a free slot only
STATE, of a segment that is not stored only FORM. -/
def State.slotByte (s : State) (index o : Nat) : Option Byte :=
  match s.store.slots.find? fun m => decide (m.index = index) with
  | none => if o = 8 then some 0 else none
  | some m =>
    if o < 256 then (s.reamRecord m)[o]?
    else if o < 16640 then
      (leBytes 4 ((m.groups.getD ((o - 256) / 128) []).getD ((o - 256) % 128 / 4) 0xFFFFFFFF))[(o - 256) % 4]?
    else
      let k := (o - 16640) % 48
      match m.segs.find? fun p => decide (p.1 = (o - 16640) / 48) with
      | some p => p.2.entryBytes[k]?
      | none => if k = 6 ∧ (o - 16640) / 48 < 2048 then some 0xFF else none

/-- The strip record that an address of the ledger belongs to, and its copy (R168, R170). -/
def State.ledgerPlace (s : State) (a : Nat) : Option Nat × Nat :=
  let off := a - s.ledgerBase
  let o := off % s.ledgerBytes
  let slot := if o < 16777216 then some (o / 1048576)
    else (s.store.slots.find? fun m => decide (m.index = (o - 16777216) / 131072)).map (·.stripSlot)
  (slot, off / s.ledgerBytes)

/-- A range of DRAM meets the ledger. -/
def State.inLedger (s : State) (a n : Nat) : Bool := s.storeValid && overlap (a, n) (s.ledgerBase, 2 * s.ledgerBytes)

/-- R167, R168, R170: the byte of the ledger at an address, in either copy. -/
def State.ledgerByte (s : State) (a : Nat) : Option Byte :=
  if s.inLedger a 1 then
    let o := (a - s.ledgerBase) % s.ledgerBytes
    if o < 16777216 then s.recordByte (o / 1048576) (o % 1048576)
    else s.slotByte ((o - 16777216) / 131072) ((o - 16777216) % 131072)
  else none

/-- Bytes of DRAM as a reader finds them. -/
def State.dramBytes (s : State) (a n : Nat) : List Byte :=
  if s.inLedger a n then (List.range n).map fun i => (s.ledgerByte (a + i)).getD (s.dram.read (a + i))
  else s.dram.readBytes a n

end Sys2Proof.Machine
end

