-- ==== Sys2Proof/Machine/ReedSolomon.lean ====
section
/-! DEFINITION. The codes of stored data: the Reed-Solomon code of DRAM bursts (R407 to R410, R413) and the SEC-DED code
of SRAM bytes (R414, R415). Symbols are numbers below 256. -/
namespace Sys2Proof.Machine

/-! ### GF(2^8) (R407) -/

/-- Multiplication by α = 2, modulo x^8 + x^4 + x^3 + x^2 + 1. -/
def gfDouble (a : Nat) : Nat := if a < 128 then 2 * a else (2 * a) ^^^ 0x11D

/-- Product of the low n bits of b with a. -/
def gfMulBits : Nat → Nat → Nat → Nat
  | 0, _, _ => 0
  | n + 1, a, b => (if b % 2 = 1 then a else 0) ^^^ gfMulBits n (gfDouble a) (b / 2)

/-- The product of two field elements. -/
def gfMul (a b : Nat) : Nat := gfMulBits 8 a b

/-- A power of a field element. -/
def gfPow (a : Nat) : Nat → Nat
  | 0 => 1
  | n + 1 => gfMul a (gfPow a n)

/-- The inverse of a field element: its power 254. -/
def gfInv (a : Nat) : Nat := gfPow a 254

/-- A power of α. -/
def alpha (n : Nat) : Nat := gfPow 2 (n % 255)

/-- The value of a polynomial, lowest coefficient first. -/
def polyAt (x : Nat) : List Nat → Nat
  | [] => 0
  | c :: r => c ^^^ gfMul x (polyAt x r)

/-- The sum of two polynomials. -/
def polyAdd : List Nat → List Nat → List Nat
  | [], q => q
  | p, [] => p
  | a :: p, b :: q => (a ^^^ b) :: polyAdd p q

/-- A polynomial times a constant. -/
def polyScale (c : Nat) (p : List Nat) : List Nat := p.map (gfMul c)

/-- The product of two polynomials. -/
def polyMul : List Nat → List Nat → List Nat
  | [], _ => []
  | a :: p, q => polyAdd (polyScale a q) (0 :: polyMul p q)

/-- The formal derivative: the odd coefficients, one degree lower. -/
def polyOdd : List Nat → List Nat
  | _ :: b :: r => b :: 0 :: polyOdd r
  | _ => []

/-! ### Code words (R407) -/

/-- g(x) without its leading coefficient, highest coefficient first. -/
def generator : List Nat :=
  ((((List.range 16).foldl (fun p i => polyMul [alpha i, 1] p) [1]).take 16).reverse)

/-- Division of the data times x^16 by g(x): the remainder, highest coefficient first. -/
def rsRemainder (g : List Nat) : List Nat → List Nat → List Nat
  | r, [] => r
  | r, d :: ds =>
    let fb := d ^^^ r.headD 0
    rsRemainder g (polyAdd ((r.drop 1) ++ [0]) (polyScale fb g)) ds

/-- The 16 check symbols of 64 data symbols. -/
def checkSymbols (data : List Nat) : List Nat := rsRemainder generator (List.replicate 16 0) data

/-- The code word of 64 data symbols. -/
def codeWord (data : List Nat) : List Nat := data ++ checkSymbols data

/-- The 16 syndromes of a word; its symbol i is the coefficient of x^(79 - i). -/
def syndromes (w : List Nat) : List Nat := (List.range 16).map fun j => polyAt (alpha j) w.reverse

/-! ### Decoding (R409) -/

/-- The state of the Berlekamp-Massey iteration: Λ, B, L, the shift and the last discrepancy. -/
structure BmState where
  lam : List Nat
  prev : List Nat
  len : Nat
  shift : Nat
  last : Nat
  deriving DecidableEq, Repr

/-- The discrepancy of Λ at syndrome n. -/
def bmDiscrepancy (syn lam : List Nat) (n len : Nat) : Nat :=
  (List.range (len + 1)).foldl (fun a i => a ^^^ gfMul (lam.getD i 0) (syn.getD (n - i) 0)) 0

/-- One step of the Berlekamp-Massey iteration. -/
def bmStep (syn : List Nat) (s : BmState) (n : Nat) : BmState :=
  let d := bmDiscrepancy syn s.lam n s.len
  if d = 0 then { s with shift := s.shift + 1 }
  else
    let lam := polyAdd s.lam (polyScale (gfMul d (gfInv s.last)) (List.replicate s.shift 0 ++ s.prev))
    if 2 * s.len ≤ n then ⟨lam, s.lam, n + 1 - s.len, 1, d⟩ else { s with lam := lam, shift := s.shift + 1 }

/-- The locator polynomial of a word's errors, and their number. -/
def locator (syn : List Nat) : List Nat × Nat :=
  let s := (List.range 16).foldl (bmStep syn) ⟨[1], [1], 0, 1, 1⟩
  (s.lam, s.len)

/-- The value of the error at a position, from a locator polynomial and the syndromes (b = 0). -/
def errorValue (syn lam : List Nat) (i : Nat) : Nat :=
  let x := alpha (79 - i)
  let xi := alpha (255 - (79 - i))
  let omega := (polyMul syn lam).take 16
  gfMul x (gfMul (polyAt xi omega) (gfInv (polyAt xi (polyOdd lam))))

/-- A word with errors taken out at some positions. -/
def fixAt (syn lam : List Nat) (positions : List Nat) (w : List Nat) : List Nat :=
  positions.foldl (fun a i => listModify a i (fun v => v ^^^ errorValue syn lam i)) w

/-- The code word within t symbols of a word, with the positions that differ; none where there is none. -/
def nearest (t : Nat) (w : List Nat) : Option (List Nat × List Nat) :=
  let syn := syndromes w
  if syn.all fun v => decide (v = 0) then some (w, [])
  else
    let l := locator syn
    let positions := (List.range 80).filter fun i => decide (polyAt (alpha (255 - (79 - i))) l.1 = 0)
    if t < l.2 ∨ positions.length ≠ l.2 then none
    else
      let fixed := fixAt syn l.1 positions w
      if (syndromes fixed).all fun v => decide (v = 0) then some (fixed, positions) else none

/-- Outcomes of R409, coded as INT_TEST_CTRL.RESULT. -/
inductive BurstOutcome where
  | clean
  | corrected (positions : List Nat)
  | poisoned
  | uncorrectable
  deriving DecidableEq, Repr

/-- A word with the signature of R410 on its check symbols. -/
def withSignature (sig : List Nat) (w : List Nat) : List Nat := polyAdd w (List.replicate 64 0 ++ sig)

/-- R409: a word's outcome in normal mode, and the data returned. -/
def decodeBurst (sig : List Nat) (w : List Nat) : BurstOutcome × List Nat :=
  match nearest 8 w with
  | some (_, []) => (.clean, w.take 64)
  | some (c, p) => (.corrected p, c.take 64)
  | none => match nearest 4 (withSignature sig w) with
    | some (c, _) => (.poisoned, c.take 64)
    | none => (.uncorrectable, w.take 64)

/-- R408: the symbols on a device. -/
def deviceSymbols (g : Nat) : List Nat :=
  if g = 4 then (List.range 16).map (64 + ·) else (List.range 16).map fun k => g + 4 * k

/-- R408: the device of a symbol. -/
def symbolDevice (i : Nat) : Nat := if i < 64 then i % 4 else 4

/-- R413: the data of a word with a device's symbols as erasures. -/
def decodeErased (dev : Nat) (w : List Nat) : List Nat :=
  let positions := deviceSymbols dev
  let w := positions.foldl (fun a i => listSet a i 0) w
  let lam := positions.foldl (fun p i => polyMul [1, alpha (79 - i)] p) [1]
  (fixAt (syndromes w) lam positions w).take 64

/-! ### SRAM bytes (R414, R415) -/

/-- The Hamming positions of the stored bits 0 to 11: d0 to d7, then c1, c2, c4, c8. -/
def hammingPosition (i : Nat) : Nat := [3, 5, 6, 7, 9, 10, 11, 12, 1, 2, 4, 8].getD i 0

/-- The XOR of the positions of the set bits among the low n stored bits. -/
def hammingSum : Nat → Nat → Nat
  | 0, _ => 0
  | n + 1, v => hammingSum n v ^^^ (if bitAt v n then hammingPosition n else 0)

/-- R414: the 13 stored bits of a byte. -/
def sramEncode (d : Nat) : Nat :=
  let c := hammingSum 8 d
  let v := d + 256 * c
  v + 4096 * (popCount 12 v % 2)

/-- R414: a poisoned byte: c1 and c2 inverted. -/
def sramPoison (d : Nat) : Nat := sramEncode d ^^^ 0x300

/-- The stored bit at a Hamming position. -/
def hammingBit (p : Nat) : Nat := ((List.range 12).find? fun i => decide (hammingPosition i = p)).getD 12

/-- R415: a stored byte's outcome, 0 clean, 1 corrected, 2 poisoned, 3 uncorrectable, and its corrected 13 bits. -/
def sramDecode (v : Nat) : Nat × Nat :=
  let s := hammingSum 12 v
  let e := popCount 13 v % 2
  if e = 0 then (if s = 0 then (0, v) else if s = 3 then (2, v) else (3, v))
  else if s = 0 then (1, v ^^^ 4096)
  else if s ≤ 12 then (1, v ^^^ 2 ^ hammingBit s)
  else (3, v)

end Sys2Proof.Machine
end

