-- ==== Sys2Proof/Machine/Bursts.lean ====
section
/-! DEFINITION. DRAM bursts as they are stored: addresses (R386, R387), flawed words, poison lists, and what a write leaves
(R408 to R413, R417 to R419). -/
namespace Sys2Proof.Machine

/-! ### Addresses (R386, R387) -/

/-- R386: the channel of a burst, and its channel-local address. -/
def State.memLocal (s : State) (burst : Nat) : Nat × Nat :=
  let g := 2 ^ s.mem.grain
  let q := 64 * burst / g
  (q % 6, q / 6 * g + 64 * burst % g)

/-- R387: sub-channel, burst within the row, bank index 8·(4·rank + bank) + bank group (R392), row. -/
def State.memPlace (s : State) (burst : Nat) : Nat × Nat × Nat × Nat :=
  let la := (s.memLocal burst).2
  let rank := if s.mem.ranks = 1 then la / 2 ^ 18 % 2 else 0
  (la / 64 % 2, la / 128 % 64, 8 * (4 * rank + la / 2 ^ 16 % 4) + la / 2 ^ 13 % 8, la / 2 ^ (18 + s.mem.ranks))

/-- The sub-channel of a burst among all twelve. -/
def State.memSub (s : State) (burst : Nat) : Nat := 2 * (s.memLocal burst).1 + (s.memPlace burst).1

/-- The sub-channel-rank of a burst: 4·channel + 2·rank + sub (R428). -/
def State.memSlice (s : State) (burst : Nat) : Nat :=
  4 * (s.memLocal burst).1 + 2 * ((s.memPlace burst).2.2.1 / 32) + (s.memPlace burst).1

/-- Bytes of DRAM that are installed (R386). -/
def State.memBytes (s : State) : Nat := s.get Reg.MEM_SIZE_BYTES

/-! ### Erasure (R411 to R413) -/

/-- INT_ERASE of a sub-channel-rank. -/
def State.eraseState (s : State) (slice : Nat) : Nat :=
  s.get (Reg.INT_ERASE_STATES (slice / 4)) / 16 ^ (slice % 4) % 16

/-- INT_ERASE of a sub-channel-rank, replaced. -/
def State.setErase (s : State) (slice v : Nat) : State :=
  let f := Reg.INT_ERASE_STATES (slice / 4)
  s.put f (s.get f - s.eraseState slice * 16 ^ (slice % 4) + v * 16 ^ (slice % 4))

/-- The erased device of a sub-channel-rank. -/
def State.erasedDevice (s : State) (slice : Nat) : Option Nat :=
  if 8 ≤ s.eraseState slice then some (s.eraseState slice - 8) else none

/-- A burst is in the poison list of its sub-channel-rank. -/
def State.listed (s : State) (burst : Nat) : Bool :=
  s.mem.poisonList.any fun p => decide (p.2 = burst ∧ p.1 = s.memSlice burst)

/-! ### Stored words -/

/-- R410: the poison signature. -/
def State.signature (s : State) : List Nat :=
  (List.range 4).flatMap fun w => (leBytes 4 (s.get (Reg.INT_POISON_SIG_SIG w))).map (·.toNat)

/-- The flaw of a burst: the difference between its stored word and the code word of its bytes. -/
def State.flawOf (s : State) (burst : Nat) : List Nat :=
  match s.mem.flaws.find? fun p => decide (p.1 = burst) with
  | some p => p.2.map (·.toNat)
  | none => []

/-- The bytes of a burst. -/
def State.burstBytes (s : State) (burst : Nat) : List Nat := (s.dramBytes (64 * burst) 64).map (·.toNat)

/-- The 80 symbols stored for a burst. -/
def State.storedWord (s : State) (burst : Nat) : List Nat := polyAdd (codeWord (s.burstBytes burst)) (s.flawOf burst)

/-- A burst's flaw, replaced; none where its symbols are all 0. -/
def State.setFlaw (s : State) (burst : Nat) (flaw : List Nat) : State :=
  let rest := s.mem.flaws.filter fun p => decide (p.1 ≠ burst)
  let flaws := if flaw.all fun v => decide (v = 0) then rest else rest ++ [(burst, flaw.map byteOf)]
  { s with mem := { s.mem with flaws := flaws } }

/-- R409, R413: how a burst decodes: its outcome, with POISONED of an erased-mode read by its list, and its data. -/
def State.decodeStored (s : State) (burst : Nat) (word : List Nat) : BurstOutcome × List Nat :=
  match s.erasedDevice (s.memSlice burst) with
  | some dev => (if s.listed burst then .poisoned else .clean, decodeErased dev word)
  | none => decodeBurst s.signature word

/-- A burst stored as a word of 80 symbols: its bytes are what the decoder returns. -/
def State.storeWord (s : State) (burst : Nat) (word : List Nat) : State :=
  let data := (s.decodeStored burst word).2
  let s := { s with dram := s.dram.writeBytes (64 * burst) (data.map byteOf) }
  s.setFlaw burst (polyAdd word (codeWord (s.burstBytes burst)))

/-- The outcome of a burst as it is stored. A burst without a flaw is clean, but for the list of an erased device. -/
def State.outcomeOf (s : State) (burst : Nat) : BurstOutcome :=
  if s.mem.flaws.all (fun p => decide (p.1 ≠ burst)) then (if s.listed burst then .poisoned else .clean)
  else (s.decodeStored burst (s.storedWord burst)).1

/-- POISONED or UNCORRECTABLE: data that is marked poisoned. -/
def BurstOutcome.bad : BurstOutcome → Bool
  | .poisoned => true
  | .uncorrectable => true
  | _ => false

/-! ### Owners (R422) and poison consumed (R417) -/

/-- An address lies in a region. -/
def inRegion (a : Nat) (r : Nat × Nat) : Bool := decide (r.1 ≤ a ∧ a < r.1 + r.2)

/-- R422: the owner of a DRAM address: 0 NONE, 1 STORE, 2 LEDGER, 3 RESERVE, 4 LAYOUT, 5 HOST. -/
def State.ownerOf (s : State) (a : Nat) : Nat :=
  let rg := s.storeRegions
  if s.storeValid ∧ inRegion a (rg.getD 0 (0, 0)) then 1
  else if s.storeValid ∧ inRegion a (rg.getD 1 (0, 0)) then 2
  else if s.storeValid ∧ s.reserveValid ∧ inRegion a s.reserveRegion then 3
  else if s.box.streams.any fun m => m.isOpen && m.ranges.any (inRegion a) then 4
  else
    let entry := (List.range 16).find? fun i =>
      decide (s.get (Reg.INT_OWNER_SIZE_TAG i) ≠ 0) &&
        inRegion a (64 * s.get (Reg.INT_OWNER_BASE_BASE i), 64 * s.get (Reg.INT_OWNER_SIZE_SIZE i))
    match entry with
    | some i => s.get (Reg.INT_OWNER_SIZE_TAG i)
    | none => 0

/-- R429: the common payload: address and owner of a burst. -/
def State.burstFields (s : State) (burst : Nat) : List (Nat × Nat) := [(8, 64 * burst), (4, s.ownerOf (64 * burst))]

/-- R417: a unit consumes a poisoned burst: counted, and 0x0F03. -/
def State.consumePoison (s : State) (burst unit : Nat) : State :=
  (s.count (cntInt (s.memLocal burst).1 3)).raise 0x0F03 (s.burstFields burst ++ [(1, unit)])

/-- R429: the common payload where no address applies. -/
def noAddress : List (Nat × Nat) := [(8, 2 ^ 64 - 1), (4, 0xFFFFFFFF)]

/-- R417: the units that R417's table names, by its rows, where the device numbers them not (log entry 21). -/
def consumer (row : Nat) : Nat := Config.eventCode 0x0F03 row

/-- R417: a unit, by its row of R417's table, consumes flagged data whose DRAM address does not apply. -/
def State.consumeFlagged (s : State) (row : Nat) : State := s.raise 0x0F03 (noAddress ++ [(1, consumer row)])

/-! ### Writes (R413, R418, R419) -/

/-- R413: a poisoned write to a sub-channel-rank whose device is erased, or a sweep's find: listed, unless the list is full. -/
def State.listPoison (s : State) (burst : Nat) : State × Bool :=
  let slice := s.memSlice burst
  if s.listed burst then (s, true)
  else if 4096 ≤ (s.mem.poisonList.filter fun p => decide (p.1 = slice)).length then (s, false)
  else ({ s with mem := { s.mem with poisonList := s.mem.poisonList ++ [(slice, burst)] } }, true)

/-- A burst leaves its poison list. -/
def State.unlist (s : State) (burst : Nat) : State :=
  { s with mem := { s.mem with poisonList := s.mem.poisonList.filter fun p => decide (p.2 ≠ burst) } }

/-- R410, R413, R418: a burst is written whole with its present bytes, clean or poisoned. -/
def State.rewrite (s : State) (burst : Nat) (poison : Bool) : State :=
  let s := { s with mem := { s.mem with lossRaised := s.mem.lossRaised.filter fun b => decide (b ≠ burst) } }
  if (s.erasedDevice (s.memSlice burst)).isSome then
    let s := s.setFlaw burst []
    if poison then
      let p := s.listPoison burst
      if p.2 then p.1
      else ({ p.1 with mem := { p.1.mem with listOverrun := true } }).raise 0x0F08 (s.burstFields burst ++ [(8, 64 * burst)])
    else s.unlist burst
  else (s.setFlaw burst (if poison then List.replicate 64 0 ++ s.signature else [])).unlist burst

/-- R418, R419: a write of bytes within a burst: whole, it is clean unless the bytes are poisoned; partial, it also keeps the
poison of what it merges into. -/
def State.writeBurst (s : State) (burst first : Nat) (data : List Byte) (poison : Bool) : State :=
  let poison := poison || (decide (data.length < 64) && (s.outcomeOf burst).bad)
  ({ s with dram := s.dram.writeBytes (64 * burst + first) data }).rewrite burst poison

/-- R418, R419: what a write of n bytes from an address leaves of the flaws and list entries of its bursts. -/
def State.settle (s : State) (a n : Nat) : State :=
  if n = 0 then s
  else
    let touched := ((s.mem.flaws.map (·.1)) ++ s.mem.poisonList.map (·.2)).filter fun b =>
      decide (a / 64 ≤ b ∧ b ≤ (a + n - 1) / 64)
    touched.foldl (fun (s : State) b =>
      if a ≤ 64 * b ∧ 64 * b + 64 ≤ a + n then s.rewrite b false else s.rewrite b (s.outcomeOf b).bad) s

/-- R417: the first burst of a range whose data is marked poisoned. -/
def State.poisonIn (s : State) (a n : Nat) : Option Nat :=
  let bad := (((s.mem.flaws.map (·.1)) ++ s.mem.poisonList.map (·.2)).filter fun b =>
    decide (a / 64 ≤ b ∧ 64 * b < a + n)).filter fun b => (s.outcomeOf b).bad
  match bad with
  | [] => none
  | b :: r => some (r.foldl min b)

end Sys2Proof.Machine
end

