-- ==== Sys2Proof/Machine/Vats.lean ====
section
/-! DEFINITION. Vat roles: retirement, promotion, the host's role request (R110, R111, R119, R126). -/
namespace Sys2Proof.Machine

/-- R110: the role of a vat: 0 active, 1 spare, 2 retired, 3 disabled. -/
def State.vatRole (s : State) (v : Nat) : Nat := s.get ⟨0x00200010, 2 * v, 2⟩

/-- R500: the domain of a vat's quad has failed, and its vats count as neither active nor spare. -/
def State.quadFailed (s : State) (v : Nat) : Bool := bitAt (s.get Reg.PWR_DOMAIN_STATUS_FAULT) (2 + v / 4)

/-- The vats of a role, in ascending order; those of a failed quad count for none. -/
def State.vatsOf (s : State) (role : Nat) : List Nat :=
  (List.range 16).filter fun v => decide (s.vatRole v = role) && !s.quadFailed v

/-- The views of the roles: each vat's ROLE, and the counts of HBX_STATUS. -/
def State.showVats (s : State) : State :=
  let s := (List.range 16).foldl (fun s v => s.put (Reg.VAT_STATUS_ROLE v) (s.vatRole v)) s
  s.puts [(Reg.HBX_STATUS_ACTIVE, (s.vatsOf 0).length), (Reg.HBX_STATUS_SPARES, (s.vatsOf 1).length)]

/-- The machine with a vat's role changed. -/
def State.setRole (s : State) (v role : Nat) : State := (s.put ⟨0x00200010, 2 * v, 2⟩ role).showVats

/-- R119: the pool's events after a change: 0x0204 when the active count falls below MIN_ACTIVE, 0x0205 when no vat is
active or spare. `slot` is the strip named, `before` the active count before the change. -/
def State.poolEvents (s : State) (slot before spares : Nat) : State :=
  let a := (s.vatsOf 0).length
  let min := s.get Reg.HBX_VAT_CFG_MIN_ACTIVE
  let s := if a < min ∧ min ≤ before then
      s.raise 0x0204 [(1, slot), (4, 0xFFFFFFFF), (1, 0xFF), (1, 0xFF), (4, a)] else s
  if a = 0 ∧ s.vatsOf 1 = [] ∧ 0 < before + spares then
    s.raise 0x0205 [(1, slot), (4, 0xFFFFFFFF), (1, 0xFF), (1, 0xFF)]
  else s

/-- R119: a vat is retired, with its event; the lowest-numbered spare takes an active vat's place where `promote`. -/
def State.retireVat (s : State) (v : Nat) (code : Nat) (payload : List (Nat × Nat)) (slot ream tile : Nat) : State :=
  let before := (s.vatsOf 0).length
  let spares := (s.vatsOf 1).length
  let wasActive := decide (s.vatRole v = 0)
  if 2 ≤ s.vatRole v then s
  else
    let s := (s.setRole v 2).raise code payload
    let s := if wasActive then
        match (s.vatsOf 1).head? with
        | some w => (s.setRole w 0).raise 0x0202 [(1, slot), (4, ream), (1, tile), (1, w)]
        | none => s
      else s
    s.poolEvents slot before spares

/-- Jobs queued on a vat. -/
def State.vatQueue (s : State) (v : Nat) : List TileJob := s.box.jobs.filter fun j => decide (j.vat = v)

/-- The views of the job queues: IN_FLIGHT, and each vat's QUEUE and STATE. -/
def State.showJobs (s : State) : State :=
  let s := s.put Reg.HBX_STATUS_IN_FLIGHT s.box.jobs.length
  (List.range 16).foldl (fun s v =>
    let q := s.vatQueue v
    let state := if ¬ s.domainOn (2 + v / 4) then 3 else match q.head? with
      | none => 0
      | some j => if j.kind = .coarse then 2 else 1
    s.puts [(Reg.VAT_STATUS_QUEUE v, q.length), (Reg.VAT_STATUS_STATE v, state)]) s

/-- R126: vats that have completed their queued jobs take the roles that they wait for. -/
def State.settleVats (s : State) : State :=
  let free := s.box.leaving.filter fun p => (s.vatQueue p.1).isEmpty
  if free.isEmpty then s
  else
    let before := (s.vatsOf 0).length
    let spares := (s.vatsOf 1).length
    let s := { s with box := { s.box with leaving := s.box.leaving.filter fun p => !(s.vatQueue p.1).isEmpty } }
    let s := free.foldl (fun s p => s.put ⟨0x00200010, 2 * p.1, 2⟩ p.2) s
    (s.showVats).poolEvents 0xFF before spares

/-- Tile jobs leave their vats: the queues show it, and a vat that waits for its role may take it. -/
def State.dropJobs (s : State) (gone : TileJob → Bool) : State :=
  (({ s with box := { s.box with jobs := s.box.jobs.filter fun j => !gone j } } : State).showJobs).settleVats

/-- R126: the request of HBX_VAT_ROLE_REQ is applied, except one that would leave no active vat while a strip is open. A
vat with queued jobs that leaves the active or spare role completes them first, and takes no new ones. -/
def State.applyVatRoles (s : State) : State :=
  if ¬ s.box.roleReq then s
  else
    let want (v : Nat) : Nat := s.get ⟨0x00200014, 2 * v, 2⟩
    let none0 := (List.range 16).all fun v => decide (want v ≠ 0)
    if none0 ∧ s.openStrip.isSome then s
    else
      let waits (v : Nat) : Bool := !(s.vatQueue v).isEmpty && decide (s.vatRole v < 2 ∧ 2 ≤ want v)
      let before := (s.vatsOf 0).length
      let spares := (s.vatsOf 1).length
      let leaving := ((List.range 16).filter waits).map fun v => (v, want v)
      let now := (List.range 16).filter fun v => !waits v
      let s := now.foldl (fun s v => s.put ⟨0x00200010, 2 * v, 2⟩ (want v)) s
      let s := { s with box := { s.box with roleReq := false, leaving := leaving } }
      (s.showVats).poolEvents 0xFF before spares

end Sys2Proof.Machine
end

