-- ==== Sys2Proof/Machine/Stops.lean ====
section
/-! DEFINITION. The sequencer's shared operations: HEAD_BLANK_N, stops and breaks, an abandoned FLOOD, the end of a
strip, and the messages of the cascade that carry them (R224, R305 to R324, R371, R377). -/
namespace Sys2Proof.Machine

/-! ### HEAD_BLANK_N (R224) -/

/-- A warm or a protective reset is in progress: the sequencer takes no further step of its own (R508, R511), while the
hardware units of R26 go on until the units are reset. -/
def State.resetting (s : State) : Bool := s.pwr.warm.isSome || s.pwr.protective

/-- R224, R313, R508, R511: HEAD_BLANK_N is driven low. -/
def State.blanked (s : State) : Bool :=
  let q := s.get Reg.EXP_STATE_STATE
  !(decide (q = 3 ∨ q = 4 ∨ q = 5 ∨ q = 7) || (decide (q = 6) && s.seq.blankLag)) || !s.bwt.permit ||
    !s.on Reg.HLK_STATUS_ALL_READY || !s.on Reg.BWT_ENABLE_EN || s.couch.test.isSome || s.resetting

/-- HEAD_BLANK_N as it follows from the state. -/
def State.reblank (s : State) : State := s.put Reg.HLK_STATUS_BLANK (flag s.blanked)

/-- The sequencer enters a state (R305). -/
def State.enter (s : State) (q : Nat) : State := (s.put Reg.EXP_STATE_STATE q).reblank

/-- The sequencer fires: EXPOSE or RESUME. -/
def State.firing (s : State) : Bool := decide (s.get Reg.EXP_STATE_STATE = 4 ∨ s.get Reg.EXP_STATE_STATE = 7)

/-! ### Messages of the cascade (R371) -/

/-- The types that are acknowledged (R371). -/
def ackedType (typ : Nat) : Bool := natMem typ [4, 5, 6, 8, 9]

/-- The machine with a tide-link port changed. -/
def State.modPort (s : State) (p : Nat) (f : CscPort → CscPort) : State :=
  { s with csc := { s.csc with ports := listModify s.csc.ports p f } }

/-- R371: a message is sent on a port: the next SEQ of its type, kept until its ACK where it is an acknowledged one. -/
def State.send (s : State) (p typ : Nat) (fields : List Int) : State :=
  s.modPort p fun c =>
    let m : CscMsg := ⟨typ, c.nextSeq.getD typ 0, fields, 0⟩
    { c with
      nextSeq := listSet c.nextSeq typ ((m.seq + 1) % 256),
      unacked := if ackedType typ then c.unacked ++ [m] else c.unacked,
      sent := (c.sent.filter fun x => decide (x.typ ≠ typ)) ++ [m] }

/-- A message from a master to every slave, or from a slave to its master. -/
def State.sendAll (s : State) (typ : Nat) (fields : List Int) : State :=
  ((List.range 3).filter fun p => bitAt (s.get Reg.CSC_STATUS_READY) p).foldl (fun s p => s.send p typ fields) s

/-- R371: a CTRL message of the master to its slaves. -/
def State.tellSlaves (s : State) (fields : List Int) : State :=
  if s.inCascade ∧ ¬ s.on Reg.CSC_STATUS_SLAVE then s.sendAll 6 fields else s

/-! ### Events of the sequencer (R327) -/

/-- The common payload of R327: strip and tick index. -/
def State.expFields (s : State) (slot : Nat) : List (Nat × Nat) := [(1, slot), (6, s.get Reg.TID_TICK_INDEX)]

/-- A strip-local tick as a payload field of 6 bytes. -/
def tickField (t : Int) : Nat × Nat := (6, wrapInt 48 t)

/-! ### Stops (R313 to R316) -/

/-- R315: the causes whose resume needs the host. -/
def hostCause (cause : Nat) : Bool := natMem (cause % 128) [3, 5, 6, 7, 10, 11, 12, 15]

/-- R315: host resume required. -/
def State.holdForHost (s : State) (slot : Nat) : State :=
  (s.modStrip slot fun st => { st with hostHold := true }).put ⟨0x00C00020, 14, 1⟩ 1

/-- R274: the profile enters STOP at its present limits. -/
def State.stopProfile (s : State) : State :=
  let q := s.get Reg.TID_PRF_STATUS_STATE
  if q = 1 ∨ q = 3 then
    { (s.put Reg.TID_PRF_STATUS_STATE 2) with tid := { s.tid with target := none, table := [] } }
  else s

/-- R377: t_B, cause and kind of a stop go to the other devices; `origin` is the DEVICE that detected it. -/
def State.sendStop (s : State) (cause kind : Nat) (tB : Int) (origin : Nat) : State :=
  if s.inCascade then s.sendAll 5 [cause, kind, tB, s.headTime, origin] else s

/-- R313, R314: entry to BREAK for a stop. `hold`: the tide unit forced it, and its generator is in HOLD. -/
def State.enterBreak (s : State) (cause kind : Nat) (tB : Int) (hold : Bool) (more : List (Nat × Nat)) : State :=
  match s.openStrip with
  | none => s
  | some st =>
    let index := tickIndex (s.ledgerAt st.slot).tS tB
    let m : Mark := ⟨index, 1, cause, 0xFFFF, 0xFF, 1, 0⟩
    let p := s.recordMark st.slot m
    let s := (if p.2 then p.1 else p.1.marksUsed st.slot).setFinalBreak st.slot index
    let s := s.puts [(Reg.EXP_BREAK_CAUSE, cause), (Reg.EXP_BREAK_KIND, kind), (Reg.EXP_BREAK_TICK, index),
      (Reg.EXP_PLAN_CAUSE, 0), (Reg.EXP_PLAN_TICK, 2 ^ 48 - 1), (Reg.EXP_STATE_STOP_PLANNED, 0),
      (Reg.EXP_STATE_LOW_LEAD, 0), (Reg.TID_TICK_STATE, if hold then 4 else 0), (Reg.TID_GOV_NOW_HZ, 0)]
    let s := s.modStrip st.slot fun x => { x with unsettled := [(kind, tB)] }
    let s := { s with seq := { s.seq with
      prompt := none, relayed := none, hostBreak := none, seamStop := false, lowRaised := false,
      blankLag := decide (kind = 3),
      autoStop := s.seq.autoStop || !(hostCause cause || decide (cause = 14)) } }
    let s := if hostCause cause then s.holdForHost st.slot else s
    let s := (s.stopProfile).enter 6
    let s := s.count (cntExp (if 128 ≤ cause then 2 else 1))
    s.raise 0x0A06 (s.expFields st.slot ++ [(1, cause), (1, kind), tickField tB] ++ more)

/-- R9, R313, R508: the first tick whose committed instant lies at least a margin (0.1 ns) after now; where no committed
instant does, the tick after the last committed one. -/
def State.firstTickFrom (s : State) (margin : Int) : Int :=
  match s.tid.committed.filter fun p => decide (margin ≤ headDiff p.2.1 s.headTime) with
  | p :: r => r.foldl (fun a q => min a q.1) p.1
  | [] => s.tid.committed.foldl (fun a q => max a (q.1 + 1)) (s.tickNow + 1)

/-- R269, R313, R377: the break tick of a hardware stop: 200 ns from now, in a cascade and 2·L_F. -/
def State.hardwareTick (s : State) : Int :=
  s.firstTickFrom (2000 + (if s.inCascade then 50 * s.get Reg.CSC_STATUS_LFIX else 0))

/-- R308: FLOOD is abandoned for a condition (an EXP_WAIT bit, 65,536 above a CAUSE, 131,072 above an event's code); `after` says what becomes of the strip when SLACK is reached. -/
def State.abandonFlood (s : State) (cond : Nat) (after : AfterFlood) : State :=
  match s.openStrip with
  | none => s
  | some st =>
    if s.get Reg.EXP_STATE_STATE ≠ 3 then s
    else
      let s := { s with
        seq := { s.seq with afterFlood := some after },
        tid := { s.tid with armedAt := none, committed := [] } }
      let s := ((s.put Reg.TID_TICK_STATE 0).stopProfile).enter 5
      let s := s.tellSlaves [3, 5]
      let s := s.count (cntExp 6)
      s.raise 0x0A0D (s.expFields st.slot ++ [(4, Config.eventCode 0x0A0D cond)])

/-- R315, R316: a cause whose stop is a hardware stop. In FLOOD it abandons FLOOD; elsewhere it appends no mark. -/
def State.hardwareStop (s : State) (cause : Nat) (hold : Bool) : State :=
  match s.openStrip with
  | none => if hold then s.put Reg.TID_TICK_STATE 4 else s
  | some st =>
    if s.firing then
      let tB := s.hardwareTick
      let s := match s.seq.prompt with
        | some p => if p.tick ≤ tB then s.enterBreak p.cause p.kind p.tick hold [] else s.enterBreak cause 1 tB hold []
        | none => s.enterBreak cause 1 tB hold []
      s.sendStop (s.get Reg.EXP_BREAK_CAUSE) (s.get Reg.EXP_BREAK_KIND) tB (s.get Reg.CSC_CFG_DEVICE)
    else if s.get Reg.EXP_STATE_STATE = 3 then s.abandonFlood (65536 + cause) .retry
    else if hostCause cause then s.holdForHost st.slot
    else s

/-- R313, R316: a cause whose stop is a prompt stop: t_B is the next tick; BREAK follows at the end of the pulses. -/
def State.promptStop (s : State) (cause : Nat) : State :=
  match s.openStrip with
  | none => s
  | some st =>
    if s.firing then
      let tB := s.tickNow + 1
      let keep := match s.seq.prompt with
        | some p => decide (p.tick < tB ∨ (p.tick = tB ∧ p.cause ≤ cause))
        | none => false
      if keep then (if hostCause cause then s.holdForHost st.slot else s)
      else
        ({ s with seq := { s.seq with prompt := some ⟨tB, cause, 2, 0⟩ } }).sendStop cause 2 tB (s.get Reg.CSC_CFG_DEVICE)
    else if s.get Reg.EXP_STATE_STATE = 3 then s.abandonFlood (65536 + cause) .retry
    else if hostCause cause then s.holdForHost st.slot
    else s

/-- R168, R169: a mark of the open strip. Where no entry is left it is not recorded: 0x0413, and a prompt stop with CAUSE 14,
whose break is the final one; with exposure already ended, the final break is the one taken (log entry 56). The lines that
it names are to be fired again, whatever has been repaired before (R321). -/
def State.addMark (s : State) (slot : Nat) (m : Mark) : State :=
  let lines := match s.stripAt slot with
    | some st => s.markLines st m
    | none => []
  let s := { s with link := { s.link with repaired := s.link.repaired.filter fun q => lines.all fun l => decide (l ≠ q) } }
  let p := s.recordMark slot m
  if p.2 then p.1
  else
    let s := p.1.marksUsed slot
    if s.firing then s.promptStop 14 else s.setFinalBreak slot (s.get Reg.EXP_BREAK_TICK)

/-- R193: a DRIVER mark at a tick index. -/
def State.driverMark (s : State) (slot a tick cause : Nat) : State :=
  s.addMark slot ⟨tick, 2, cause, a, 0xFF, 0, 1⟩

/-! ### Planned stops (R310 to R312) -/

/-- R312: the stop range of a seam. -/
def State.seamRange (s : State) (st : Strip) (q : Seam) : Int × Int :=
  let rf := s.setup st
  let d := delayBounds rf
  if st.backwash then
    let e : Int := (s.linesOf st : Int) + extentOf rf - 1
    (e - d.1 - q.first - q.count, e - d.2 - q.first)
  else ((q.first : Int) + d.2, (q.first : Int) + q.count + d.1)

/-- R312: the stop tick of each confirmed seam at a present tick: the least of its range at least Σ ahead. -/
def State.seamTicks (s : State) (st : Strip) (t : Int) : List Int :=
  (st.seams.filter fun q => q.confirmed && !q.dropped).filterMap fun q =>
    let r := s.seamRange st q
    let ts := max r.1 (t + s.get Reg.TID_STOP_LEAD_LINES)
    if ts ≤ r.2 then some ts else none

/-- R310, R311: the pending limits of exposure: tick and cause. -/
def State.stopLimits (s : State) (st : Strip) : List (Int × Nat) :=
  let rf := s.setup st
  let n := s.linesOf st
  let low := if s.on Reg.EXP_STATE_LOW_LEAD then
      let p := s.runFrom st s.tickNow
      let d := delayBounds rf
      let run := if st.backwash then (n : Int) + extentOf rf - 2 - d.2 - p.2 else p.2 + d.1
      (run, 1) :: (match s.tid.slowTick with
        | some t => [(t, 1)]
        | none => [])
    else []
  let bars := st.barriers.map fun b => (firstTickOfReam rf st.backwash n b.1, b.2)
  let dues := (s.seq.dueBreaks.filter fun d => decide (d.1 = st.slot)).map fun d => (d.2.2.2, 13)
  low ++ bars ++ dues

/-- The least of a list of ticks with causes, the lower cause on equal ticks. -/
def leastStop : List (Int × Nat) → Option (Int × Nat)
  | [] => none
  | p :: r => match leastStop r with
    | none => some p
    | some q => if q.1 < p.1 ∨ (q.1 = p.1 ∧ q.2 < p.2) then some q else some p

/-- The planned stop shown in EXP_PLAN: strip-local tick and CAUSE with its seam bit. -/
def State.plannedStop (s : State) (st : Strip) : Option (Int × Nat) :=
  if s.on Reg.EXP_STATE_STOP_PLANNED then
    some (localTick (s.ledgerAt st.slot).tS (s.get Reg.EXP_PLAN_TICK), s.get Reg.EXP_PLAN_CAUSE)
  else none

/-- R312: the stop that the present causes ask for at tick t. A seam stop once chosen keeps its tick while it lies at or
before the limit, unless a later seam qualifies; a limit within reach no more is met at the planned tick, or at t + 3. -/
def State.chooseStop (s : State) (st : Strip) (t : Int) : Option (Int × Nat) :=
  let old := s.plannedStop st
  let seams := s.seamTicks st t
  let limited := match leastStop (s.stopLimits st) with
    | none => none
    | some (tl, cause) =>
      let kept := match old with
        | some (x, c) => if 128 ≤ c ∧ x ≤ tl then [x] else []
        | none => []
      match (seams.filter fun x => decide (x ≤ tl ∧ kept.all (fun k => decide (k + 1 < x)))) ++ kept with
      | x :: r => some (r.foldl max x, 128 + cause)
      | [] => if tl ≤ t + 2 then
          (match old with
           | some (x, c) => some (x, if 128 ≤ c then cause else c)
           | none => some (t + 3, cause))
        else some (tl, cause)
  let seam := if s.seq.seamStop then
      match old with
      | some (x, 143) => some (x, 143)
      | _ => match seams with
        | x :: r => some (r.foldl min x, 143)
        | [] => none
    else none
  let host := s.seq.hostBreak.map fun x => (x, 15)
  let other := s.seq.relayed.map fun p => (p.tick, 16)
  leastStop (limited.toList ++ seam.toList ++ host.toList ++ other.toList)

/-- R310: a lead that is no longer than the stop lead. -/
def leadLow (lead : Option Nat) (sigma : Nat) : Bool :=
  match lead with
  | some l => decide (l ≤ sigma)
  | none => false

/-- R310: the lead against the stop lead at an emitted tick. -/
def State.watchLead (s : State) (st : Strip) (t : Int) : State :=
  let lead := s.cascadeLead st t
  let sigma := s.get Reg.TID_STOP_LEAD_LINES
  let low := leadLow lead sigma
  let s := s.put Reg.EXP_STATE_LOW_LEAD (flag low)
  if low ∧ ¬ s.seq.lowRaised then
    ({ s with seq := { s.seq with lowRaised := true } }).raise 0x0A03
      (s.expFields st.slot ++ [(4, lead.getD 0xFFFFFFFF), (4, sigma)])
  else if low then s
  else { s with seq := { s.seq with lowRaised := false } }

/-- R312: the plan is evaluated at a tick, shown in EXP_PLAN, and raised or cancelled. -/
def State.planStop (s : State) (st : Strip) (t : Int) : State :=
  let old := s.plannedStop st
  match s.chooseStop st t with
  | none =>
    match old with
    | none => s
    | some (x, _) =>
      (s.puts [(Reg.EXP_STATE_STOP_PLANNED, 0), (Reg.EXP_PLAN_CAUSE, 0), (Reg.EXP_PLAN_TICK, 2 ^ 48 - 1)]).raise 0x0A05
        (s.expFields st.slot ++ [tickField x])
  | some (x, c) =>
    let s := s.puts [(Reg.EXP_STATE_STOP_PLANNED, 1), (Reg.EXP_PLAN_CAUSE, c),
      (Reg.EXP_PLAN_TICK, tickIndex (s.ledgerAt st.slot).tS x)]
    if old.map (·.1) = some x then s
    else s.raise 0x0A04 (s.expFields st.slot ++ [tickField x, (4, Config.eventCode 0x0A04 (c / 128)), (1, c % 128)])

/-- R313: a planned stop is carried out at the emission of its tick minus 2. -/
def State.carryOut (s : State) (st : Strip) (t : Int) : State :=
  match s.plannedStop st with
  | none => s
  | some (x, c) =>
    if x ≤ t + 2 then
      match s.seq.relayed with
      | some p => if p.tick = x ∧ c = 16 then s.enterBreak 16 p.kind x false [(1, p.cause), (1, p.origin)] else s.enterBreak c 3 x false []
      | none => (s.enterBreak c 3 x false []).sendStop c 3 x (s.get Reg.CSC_CFG_DEVICE)
    else s

/-- A barrier before a ream (R117, R285, R311): kept with its cause, until what raised it is gone. -/
def State.addBarrier (s : State) (slot : Nat) (r : Int) (cause : Nat) : State :=
  s.modStrip slot fun st =>
    if st.barriers.any fun b => decide (b = (r, cause)) then st else { st with barriers := st.barriers ++ [(r, cause)] }

/-! ### The exposure hold (R334) -/

/-- The words of a defect map, numbered, that hold any beam in a state. -/
def defectBeams (rf : RegFile) (base st : Nat) : List Nat :=
  (List.range 16384).flatMap fun w =>
    let v := rfGet rf ⟨base + 4 * w, 0, 32⟩
    (List.range 16).filterMap fun i => if v / 4 ^ i % 4 = st then some (16 * w + i) else none

/-- Whether a defect map holds any beam in a state. -/
def defectAny (rf : RegFile) (base st : Nat) : Bool :=
  (List.range 16384).any fun w =>
    let v := rfGet rf ⟨base + 4 * w, 0, 32⟩
    (List.range 16).any fun i => decide (v / 4 ^ i % 4 = st)

/-- The state of a beam in a defect map. -/
def defectOf (rf : RegFile) (base i : Nat) : Nat := rfGet rf ⟨base + 4 * (i / 16), 2 * (i % 16), 2⟩

/-- Offsets of the committed defect map and of the result (R342). -/
def defectBase : Nat := 0x00D10000
def defectResBase : Nat := 0x00D20000

/-- 0x0B04 for a condition that has come to stand: the beams, the HCR_STATUS bit of the condition. -/
def State.deadEvent (s : State) (beams : List Nat) (old : Bool) (bit : Nat) : State :=
  match beams with
  | [] => s
  | b :: _ => if old then s else s.raise 0x0B04 [(4, beams.length), (4, b), (4, Config.eventCode 0x0B04 bit)]

/-- R334: the hold is evaluated anew. -/
def State.judgeHold (s : State) : State :=
  let dead := defectBeams s.regs defectResBase 1
  let new := dead.filter fun i => decide (defectOf s.regs defectBase i = 0)
  let latched := match s.openStrip.bind (·.latched) with
    | some rf => dead.filter fun i => beamLive rf i
    | none => []
  let stuck := decide (s.get Reg.HCR_STUCK_N_COUNT ≠ 0)
  let unmeasured := !s.hcr.unmeasured.isEmpty || defectAny s.regs defectResBase 3
  let oldNew := s.on Reg.HCR_STATUS_NEW_DEAD
  let oldLatched := s.on Reg.HCR_STATUS_LATCHED_DEAD
  let s := s.puts [(Reg.HCR_STATUS_STUCK, flag stuck), (Reg.HCR_STATUS_UNMEASURED, flag unmeasured),
    (Reg.HCR_STATUS_NEW_DEAD, flag !new.isEmpty), (Reg.HCR_STATUS_LATCHED_DEAD, flag !latched.isEmpty),
    (Reg.HCR_STATUS_HOLD, flag (stuck || unmeasured || !new.isEmpty || !latched.isEmpty))]
  (s.deadEvent new oldNew 28).deadEvent latched oldLatched 27

/-! ### The end of a strip (R309, R324, R334, R449) -/

/-- DETAIL of a STRIP job (R448). -/
def State.stripDetail (s : State) (st : Strip) : List Byte :=
  leBytes 2 st.slot ++ leBytes 2 (s.openMarks st.slot) ++ leBytes 4 0 ++ leBytes 8 st.ticksFired

/-- R135: CAL_STATUS.IN_USE follows the strips posted and open. -/
def State.showProfiles (s : State) : State :=
  s.put Reg.CAL_STATUS_IN_USE (((List.range 8).filter fun n =>
    s.box.strips.any fun st => decide (st.profile = n)).foldl (fun a n => a + 2 ^ n) 0)

/-- R144: a strip's summary. -/
def State.stripSummary (s : State) (st : Strip) : State :=
  s.raise 0x0306 [(1, st.slot), (4, st.profile), (4, st.limited), (4, ((s.recordOf st).map (·.idle)).getD 0)]

/-- What the units hold of a strip is dropped: tile jobs, requests, held tiles, chunks, plans, slots, breaks. -/
def State.forgetStrip (s : State) (slot : Nat) : State :=
  let s := { s with
    box := { s.box with
      strips := s.box.strips.filter fun st => decide (st.slot ≠ slot),
      wanted := s.box.wanted.filter fun j => decide (j.slot ≠ slot) },
    store := { s.store with
      slots := s.store.slots.filter fun m => decide (m.stripSlot ≠ slot),
      held := s.store.held.filter fun m => decide (m.slot ≠ slot),
      felt := s.store.felt.filter fun m => decide (m.slot ≠ slot),
      retries := s.store.retries.filter fun m => decide (m.slot ≠ slot),
      readers := s.store.readers.filter fun m => decide (m.slot ≠ slot),
      lost := s.store.lost.filter fun m => decide (m.slot ≠ slot) },
    tid := { s.tid with plans := s.tid.plans.filter fun p => decide (p.slot ≠ slot) },
    seq := { s.seq with dueBreaks := s.seq.dueBreaks.filter fun d => decide (d.1 ≠ slot) },
    csc := { s.csc with haloSent := s.csc.haloSent.filter fun h => decide (h.1 ≠ slot) } }
  (((s.dropJobs fun j => decide (j.slot = slot)).showStore).showProfiles).showLead

/-- Jobs of a list complete, with one status, cause and DETAIL. -/
def State.completeAll (s : State) (l : List Nat) (status cause : Nat) (detail : List Byte) : State :=
  l.foldl (fun s a => s.complete a status cause detail) s

/-- The sections of a stream's strip are freed when the strip ends and no other posted strip names it (R102). -/
def State.freeSections (s : State) (st : Strip) : State :=
  if s.box.strips.any fun x => decide (x.handle = st.handle ∧ x.stripId = st.stripId ∧ x.slot ≠ st.slot) then s
  else s.modStream st.handle fun m =>
    { m with strips := m.strips.map fun r => if r.id = st.stripId then { r with sections := [] } else r,
             workUsed := m.workUsed - ((m.strips.find? fun r => decide (r.id = st.stripId)).map (·.bytes)).getD 0 }

/-- No strip is open: the sequencer's own fields of the strip. -/
def State.noOpenStrip (s : State) : State :=
  let s := s.puts [(Reg.EXP_STATE_OPEN, 0), (Reg.EXP_STATE_SLOT, 0x1F), (Reg.EXP_STATE_LOW_LEAD, 0),
    (Reg.EXP_STATE_STOP_PLANNED, 0), (Reg.EXP_STATE_DIR, 0), (Reg.EXP_PLAN_CAUSE, 0), (Reg.EXP_PLAN_TICK, 2 ^ 48 - 1),
    (Reg.EXP_WAIT_WAIT, 0)]
  { s with seq := { s.seq with autoStop := false, stopJobs := [], endJobs := [], seamStop := false,
                               hostBreak := none, resuming := false, repairOnly := false, waitRaised := none,
                               relayed := none, prompt := none } }

/-- R168, R173, R324: an open strip ends: its record shows 3, its slots and blocks are released, its job completes. The
STOP jobs still pending complete OK with DETAIL 1 where the strip completed (R449). -/
def State.endOpenStrip (s : State) (st : Strip) (status : Nat) : State :=
  let bursts := (s.store.slots.filter fun m => decide (m.stripSlot = st.slot)).foldl (fun a m => a + m.bursts) st.bursts
  let reams := reamsOf (s.linesOf st)
  let opened := s.openMarks st.slot
  let detail := s.stripDetail st
  let s := (s.modLedger st.slot fun l =>
    { l with state := 3,
             released := l.released + (s.store.slots.filter fun m => decide (m.stripSlot = st.slot)).length })
  let s := s.countBy (cntSto 9) (s.store.slots.filter fun m => decide (m.stripSlot = st.slot)).length
  let s := s.raise 0x0417 (stoFields st.slot none none none none ++ [(4, reams), (4, opened), (4, bursts)])
  let s := s.stripSummary st
  let s := s.completeAll s.seq.stopJobs 0 0 (leBytes 1 1)
  let s := s.completeAll st.resumeJobs 12 0x0A0E []
  let s := s.complete st.aseq status (if status = 0 then 0 else 0x0A0E) detail
  let s := ((s.freeSections st).forgetStrip st.slot).noOpenStrip
  let s := if st.lastOfLayer then s.raise 0x0A0F (s.expFields st.slot ++ [(4, st.layer)]) else s
  ((s.retryLost).applyVatRoles).judgeHold

/-- R324: the host's end of an interrupted strip, in SLACK or NEAP. -/
def State.endInterrupted (s : State) (st : Strip) : State :=
  let last := s.get Reg.EXP_BREAK_TICK
  let marks := s.openMarks st.slot
  let ends := s.seq.endJobs
  let s := s.raise 0x0A0E (s.expFields st.slot ++ [(4, marks), (6, last)])
  ((s.endOpenStrip st 12).completeAll ends 0 0 []).tellSlaves [4]

/-- A posted strip that is not open leaves its queue: its job completes (R80, R449, R457). R168 says of a record only that it
is taken at the post and released after the strip ends: this strip has ended, so its record shows 3 until the host releases
it (DEDUCED, log entry 57). -/
def State.dropPosted (s : State) (st : Strip) (status cause : Nat) : State :=
  let detail := leBytes 2 st.slot ++ leBytes 2 0 ++ leBytes 4 0 ++ leBytes 8 0
  let s := s.stripSummary st
  let s := s.completeAll st.resumeJobs 12 cause []
  let s := s.complete st.aseq status cause detail
  let s := (s.modLedger st.slot fun l => { l with state := 3 }).raise 0x0417
    (stoFields st.slot none none none none ++ [(4, reamsOf (s.linesOf st)), (4, 0), (4, 0)])
  (((s.freeSections st).forgetStrip st.slot).showStore).retryLost

/-- R80, R308, R449: a fault of a strip's own content, or a halt, by the state the strip is in; a RESUME that waits is
REFUSED with the cause: `r` is the first ream that must
not be fired, `halt` distinguishes a halt of R117 or R120, after which a fresh strip waits for a RESUME. -/
def State.contentStop (s : State) (st : Strip) (r : Int) (cause code : Nat) (halt : Bool) : State :=
  let s := (s.modStrip st.slot fun x => { x with resumeJobs := [] }).completeAll st.resumeJobs 2 code []
  let q := s.get Reg.EXP_STATE_STATE
  if st.isOpen then
    if q = 3 then
      let fresh := st.fresh
      let s := if halt ∨ ¬ fresh then s.addBarrier st.slot r cause else s
      s.abandonFlood (2 * 65536 + code) (if halt then .hold else if fresh then .failed code else .hold)
    else if q = 4 ∨ q = 7 then s.addBarrier st.slot r cause
    else (s.addBarrier st.slot r cause).holdForHost st.slot
  else if halt then
    (s.addBarrier st.slot r cause).modStrip st.slot fun x => { x with hostHold := true }
  else s.dropPosted st 1 code

end Sys2Proof.Machine
end

