-- ==== Sys2Proof/Machine/Governor.lean ====
section
/-! DEFINITION. The rate governor and the stop lead (R281 to R286), and the reserve demand of a ream (R184, R185). -/
namespace Sys2Proof.Machine

/-! ### Exact roots -/

/-- The floor of the square root of n, by bits from the top: fuel bounds the bits. -/
def sqrtBits (n : Nat) : Nat → Nat → Nat
  | 0, r => r
  | k + 1, r => let c := r + 2 ^ k
    sqrtBits n k (if c * c ≤ n then c else r)

/-- The floor of a square root. -/
def isqrt (n : Nat) : Nat := sqrtBits n (n.log2 / 2 + 1) 0

/-- The least integer whose square times q is at least p. -/
def ceilSqrt (p q : Nat) : Nat :=
  if q = 0 then 0 else let r := isqrt (p / q)
    if p ≤ r * r * q then r else r + 1

/-! ### Reserve demand (R184) -/

/-- R184: the first address of a ream slot's reserve-table entries. -/
def State.reserveAt (s : State) (m : ReamSlot) : Nat := s.reserveRegion.1 + 2048 * m.index

/-- R184: the bursts of a ream slot's reserve-table entries that read poisoned. -/
def State.reserveBad (s : State) (m : ReamSlot) : List Nat :=
  ((List.range 32).map fun i => s.reserveAt m / 64 + i).filter fun b => (s.outcomeOf b).bad

/-- R184: the reserve demand of a stored ream under a set-up; an entry that reads poisoned counts as 60. -/
def State.reamDemand (s : State) (rf : RegFile) (m : ReamSlot) : Nat :=
  let bad := s.reserveBad m
  (List.range 2048).foldl (fun d i =>
    let a := s.reserveAt m + i
    max d (segmentDemand rf (i / 16) (i % 16) (if natMem (a / 64) bad then 60 else (s.dram.read a).toNat))) 0

/-- R184, R417: a ream's demand is computed; each poisoned burst that this reads is consumed by the couch in service. -/
def State.setDemand (s : State) (rf : RegFile) (slot r : Nat) : State :=
  match s.reamAt slot r with
  | none => s
  | some m =>
    let d := s.reamDemand rf m
    (s.reserveBad m).foldl (fun (s : State) b => s.consumePoison b (consumer 7)) (s.modReam slot r fun m => { m with demand := d })

/-! ### Intervals (R281) -/

/-- R281: the interval in which a strip-local tick lies. -/
def intervalAt (rf : RegFile) (backwash : Bool) (n : Nat) (t : Int) : Int :=
  let d := delayBounds rf
  if backwash then min ((reamsOf n : Int) - 1) (idiv ((n : Int) - 1 - t + (extentOf rf - 1 - d.2)) 256)
  else max 0 (idiv (t - d.1) 256)

/-- R281: the intervals of a strip in firing order. -/
def intervalsOf (rf : RegFile) (backwash : Bool) (n : Nat) : List Int :=
  let last := intervalAt rf backwash n ((n : Int) + extentOf rf - 2)
  if backwash then
    let hi : Int := (reamsOf n : Int) - 1
    (List.range (hi - last + 1).toNat).map fun i => hi - Int.ofNat i
  else (List.range (last + 1).toNat).map Int.ofNat

/-- R281: the reams of an interval's window. -/
def windowReams (rf : RegFile) (backwash : Bool) (n : Nat) (r : Int) : List Nat :=
  let d := delayBounds rf
  let span := d.2 - d.1
  let top : Int := (reamsOf n : Int) - 1
  let lo := if backwash then max 0 r else max 0 (idiv (256 * r - span) 256)
  let hi := if backwash then min top (idiv (256 * r + 255 + span) 256) else min top r
  (List.range (hi - lo + 1).toNat).map fun i => lo.toNat + i

/-- R281, R283: a ream of a window is STORED, or has been fired and released. -/
def State.windowStored (s : State) (st : Strip) (r : Nat) : Bool :=
  natMem r st.releasedReams || ((s.reamAt st.slot r).map fun m => decide (2 ≤ m.state)).getD false

/-- R263: counts per line of a set-up, times 2^32. -/
def pitch32 (rf : RegFile) : Nat := rfGet rf Reg.TID_LINE_PITCH_INT * 2 ^ 32 + rfGet rf Reg.TID_LINE_PITCH_FRAC

/-- A quotient, 0 for a divisor of 0. -/
def divOr0 (a b : Nat) : Nat := if b = 0 then 0 else a / b

/-- R282: the limits that make the permitted rate: rate in Hz and the code of TID_GOV_NOW. -/
def State.permittedLimits (s : State) (st : Strip) (r : Int) : List (Nat × Nat) :=
  let rf := s.setup st
  let win := (windowReams rf st.backwash (s.linesOf st) r).filterMap (s.reamAt st.slot)
  let b := win.foldl (fun a m => max a m.bursts) 0
  let w := win.foldl (fun a m => max a (windowOf rf m.demand)) 0
  [(2000000, 0), (s.get Reg.BWT_MAX_RATE_HZ, 1)] ++
    (if b = 0 then [] else [(900000 * 196608 / b, 2)]) ++
    (if w = 0 then [] else [(10 ^ 10 / w, 3)]) ++
    (if s.get Reg.HLK_LINK_LIMIT_HZ = 0 then [] else [(s.get Reg.HLK_LINK_LIMIT_HZ, 4)]) ++
    (match s.tid.tempLimit with
     | some f => [(f, 5)]
     | none => [])

/-- R282: the further limits of the planned rate. -/
def State.plannedLimits (s : State) (st : Strip) (r : Int) : List (Nat × Nat) :=
  let rf := s.setup st
  let p := pitch32 rf
  [(s.get Reg.TID_GOV_CAP_HZ, 6),
   (if rfGet rf Reg.TID_POS_CFG_SRC < 2 then divOr0 (10 ^ 8) (rfGet rf Reg.TID_POS_CFG_PERIOD)
      else divOr0 (50000000 * 2 ^ 32) p, 7),
   (divOr0 (s.get Reg.TID_PRF_VMAX_VMAX * 2 ^ 32) p, 8)] ++
  s.readyPorts.filterMap fun q =>
    ((s.csc.ports.getD q {}).rates.find? fun x => decide (x.1 = r)).map fun x => (x.2.1, 9)

/-- The least of a list of limits; when limits tie, the lowest code governs. -/
def leastLimit : List (Nat × Nat) → Nat × Nat
  | [] => (2000000, 0)
  | [p] => p
  | p :: r => let q := leastLimit r
    if q.1 < p.1 ∨ (q.1 = p.1 ∧ q.2 < p.2) then q else p

/-- R271: the rate of a fixed-clock strip. -/
def State.fixedRate (s : State) (st : Strip) : Nat := divOr0 400000000 (rfGet (s.setup st) Reg.TID_FIXED_DIV)

/-- R281 to R283: the planned rate of an interval and its governing limit. -/
def State.rateFor (s : State) (st : Strip) (r : Int) : Nat × Nat :=
  if st.fixedClock then (s.fixedRate st, 0)
  else leastLimit (s.permittedLimits st r ++ s.plannedLimits st r)

/-- R271, R285: an interval cannot be planned. -/
def State.unplannable (s : State) (st : Strip) (r : Int) (rate : Nat) : Bool :=
  decide (rate < 1000 ∨ rate < s.get Reg.TID_GOV_MIN_HZ) ||
    (st.fixedClock && decide ((leastLimit (s.permittedLimits st r)).1 < rate))

/-- The common payload of R288: tide time, tick index, strip. -/
def State.tideFields (s : State) (slot : Nat) : List (Nat × Nat) :=
  [(8, s.tide), (6, s.get Reg.TID_TICK_INDEX), (1, slot)]

/-- An interval's number as a u32 payload field. -/
def intervalField (r : Int) : Nat × Nat := (4, wrapInt 32 r)

/-- R283, R285, R376: interval r of a strip is planned or replanned. -/
def State.planInterval (s : State) (slot : Nat) (r : Int) : State :=
  match s.stripAt slot with
  | none => s
  | some st =>
    let (rate, cause) := s.rateFor st r
    let others := s.tid.plans.filter fun p => decide (¬ (p.slot = slot ∧ p.r = r))
    let old := s.tid.plans.find? fun p => decide (p.slot = slot ∧ p.r = r)
    let lowered := old.any fun p => p.lowered || decide (rate < p.rate)
    let plan : IntervalPlan := ⟨slot, r, rate, cause, lowered⟩
    let s : State := { s with tid := { s.tid with plans := others ++ [plan] } }
    let s := s.count (cntTid 6)
    let s := s.trace 11 (leBytes 4 (wrapInt 32 r) ++ leBytes 3 rate ++ leBytes 1 cause)
    let s := if ¬ s.inCascade then s
      else if s.on Reg.CSC_STATUS_SLAVE then
        let near := [r - 1, r, r + 1].map fun q => (leastLimit (s.permittedLimits st q))
        s.sendAll 8 [r, (leastLimit near).1, (leastLimit near).2]
      else s.sendAll 4 [r, rate, cause]
    let s := s.modStrip slot fun x => { x with barriers := x.barriers.filter fun b => decide (b ≠ (r, 2)) }
    if s.unplannable st r rate then
      (s.raise 0x080D (s.tideFields slot ++ [intervalField r, (4, rate), (1, cause)])).addBarrier slot r 2
    else s

/-- R283: every interval whose window is now stored, and that has no plan, is planned. -/
def State.planStored (s : State) (slot : Nat) : State :=
  match s.stripAt slot with
  | none => s
  | some st =>
    let rf := s.setup st
    let n := s.linesOf st
    if n = 0 then s
    else (intervalsOf rf st.backwash n).foldl (fun s r =>
      if s.tid.plans.any fun p => decide (p.slot = slot ∧ p.r = r) then s
      else if (windowReams rf st.backwash n r).all (s.windowStored st) then s.planInterval slot r
      else s) s

/-- The interval in force: the tick generator runs for the open strip and has emitted a tick (R282). -/
def State.intervalInForce (s : State) : Option (Nat × Int) :=
  match s.openStrip with
  | some st => if s.get Reg.TID_TICK_STATE = 3 then
      some (st.slot, intervalAt (s.setup st) st.backwash (s.linesOf st) s.tickNow) else none
  | none => none

/-- R281: the first tick of an interval (of the first one: of its first line). -/
def intervalStart (rf : RegFile) (backwash : Bool) (n : Nat) (r : Int) : Int :=
  let d := delayBounds rf
  if backwash then (n : Int) - 1 - (256 * r + 255) + (extentOf rf - 1 - d.2) else 256 * r + d.1

/-- R283: an interval lies within the stop lead of the running strip, so that its plan changes only downward. -/
def State.withinLead (s : State) (p : IntervalPlan) : Bool :=
  match s.openStrip with
  | some st => decide (p.slot = st.slot ∧ s.get Reg.TID_TICK_STATE = 3 ∧
      intervalStart (s.setup st) st.backwash (s.linesOf st) p.r ≤ s.tickNow + s.get Reg.TID_STOP_LEAD_LINES)
  | none => false

/-- R283: what a plan may become: anything, or, within the stop lead, only a lower rate. -/
def State.mayReplan (s : State) (p : IntervalPlan) : Bool :=
  !s.withinLead p || ((s.stripAt p.slot).map fun st => decide ((s.rateFor st p.r).1 < p.rate)).getD false

/-- R284: an interval of a strip has begun: in the run in force by the present tick, else by the last tick that the strip has
had. -/
def State.begun284 (s : State) (slot : Nat) (r : Int) : Bool :=
  match s.stripAt slot with
  | none => false
  | some st =>
    let last := match s.intervalInForce with
      | some (x, q) => if x = slot then some q else none
      | none => st.reached.map fun t => intervalAt (s.setup st) st.backwash (s.linesOf st) t
    match last with
    | some q => if st.backwash then decide (q ≤ r) else decide (r ≤ q)
    | none => false

/-- R284: every planned interval not yet begun is planned again. -/
def State.replan (s : State) : State :=
  (s.tid.plans.filter fun p => !s.begun284 p.slot p.r && s.mayReplan p).foldl (fun s p => s.planInterval p.slot p.r) s

/-- The plan of an interval. -/
def State.planOf (s : State) (slot : Nat) (r : Int) : Option IntervalPlan :=
  s.tid.plans.find? fun p => decide (p.slot = slot ∧ p.r = r)

/-- The interval that a run from strip-local tick t begins in. -/
def State.firstInterval (s : State) (st : Strip) (t : Int) : Int :=
  intervalAt (s.setup st) st.backwash (s.linesOf st) t

/-! ### The stop lead (R286) -/

/-- π to 40 places, as a rational over 10^40 (log entry 19). -/
def piScaled : Nat := 31415926535897932384626433832795028841972

/-- R286: the travel in lines, rounded up, of a stop from velocity v (counts/s, times 2^32) at zero acceleration, under
AMAX, JMAX, BLEND and a pitch (counts times 2^32); none where a limit or the pitch is 0. -/
def stopTravel (v amax jmax pitch : Nat) (blend : Bool) : Option Nat :=
  if amax = 0 ∨ jmax = 0 ∨ pitch = 0 then none
  else
    let one := 2 ^ 32
    -- lines = v/2·(v/A + k·A/J)/pitch with k = 1, or π/2 for the sinusoidal blend, over the denominator kd
    let kn := if blend then piScaled else 1
    let kd := if blend then 2 * 10 ^ 40 else 1
    if kn * amax * amax * one ≤ v * kd * jmax then
      -- v = V/2^32, pitch = P/2^32: V·(V·kd·J + kn·A²·2^32) / (2·2^32·A·J·kd·P)
      let num := v * (v * kd * jmax + kn * amax * amax * one)
      let den := 2 * one * amax * jmax * kd * pitch
      some ((num + den - 1) / den)
    else
      -- lines² = v²·(c·v/J)/pitch², with c = 1, or π/2
      some (ceilSqrt (v * v * v * kn) (one * jmax * kd * pitch * pitch))

/-! Stops from a state in a ramp, in fixed point with 96 fraction bits: counts, microseconds and their quotients (log entry
19). -/

/-- Fixed-point product, quotient and root. -/
def fxMul (a b : Int) : Int := idiv (a * b) (2 ^ 96)
def fxDiv (a b : Int) : Int := if b = 0 then 0 else idiv (a * 2 ^ 96) b
def fxSqrt (a : Int) : Int := isqrt (a.toNat * 2 ^ 96)

/-- The limits of a slowdown, in fixed point: A in counts/µs², J in counts/µs³; the duration of a ramp for each unit of
acceleration change over J, and the share of the squared duration that the ramp's shape gives its travel. -/
structure Limits where
  a : Int
  j : Int
  c : Int
  g : Int
  deriving DecidableEq, Repr

/-- R274: the limits in force, with the ramps of a BLEND: linear, or half a cosine lasting π·|Δa|/(2·J). -/
def limitsOf (amax jmax : Nat) (blend : Bool) : Limits :=
  let pi := idiv (piScaled * 2 ^ 96) (10 ^ 40)
  ⟨idiv (amax * 2 ^ 96) (10 ^ 12), idiv (jmax * 2 ^ 96) (10 ^ 18), if blend then pi / 2 else 2 ^ 96,
    if blend then fxDiv (2 ^ 96) (fxMul pi pi) else 2 ^ 96 / 12⟩

/-- A ramp of acceleration from a1 to a2 at velocity v: its travel, its duration, and the velocity at its end. -/
def Limits.ramp (l : Limits) (v a1 a2 : Int) : Int × Int × Int :=
  let t := fxDiv (fxMul l.c (a2 - a1).natAbs) l.j
  let t2 := fxMul t t
  (fxMul v t + fxMul (a1 + a2) t2 / 4 + fxMul (fxMul (a1 - a2) l.g) t2, t, v + fxMul (a1 + a2) t / 2)

/-- R274, R286: the travel and the duration of the slowdown by v, to acceleration 0, from an acceleration in the direction of
motion: a ramp down to the greatest deceleration that it needs or may use, a stretch at that, and a ramp back. -/
def Limits.slowdown (l : Limits) (v acc : Int) : Int × Int :=
  if l.a ≤ 0 ∨ l.j ≤ 0 then (0, 0)
  else
    let peak := min l.a (fxSqrt (fxDiv (fxMul v l.j) l.c + fxMul acc acc / 2))
    if acc ≤ -peak ∧ peak < l.a then
      let r := l.ramp v acc 0
      (max 0 r.1, r.2.1)
    else
      let down := l.ramp v acc (-peak)
      let back := l.ramp 0 (-peak) 0
      -- the velocity that the last ramp takes
      let rest := -back.2.2
      let hold := max 0 (fxDiv (down.2.2 - rest) peak)
      let last := l.ramp rest (-peak) 0
      (down.1 + fxMul (down.2.2 + rest) hold / 2 + last.1, down.2.1 + hold + last.2.1)

/-- The limits in force of the scan stage. -/
def State.stageLimits (s : State) : Limits :=
  limitsOf (s.get Reg.TID_PRF_AMAX_LIMIT) (s.get Reg.TID_PRF_JMAX_LIMIT) (s.on Reg.TID_PRF_CTRL_BLEND)

/-- The direction of a motion: its velocity's sign, or its acceleration's at velocity 0. -/
def motionSign (vel acc : Int) : Int := if vel < 0 ∨ (vel = 0 ∧ acc < 0) then -1 else 1

/-- R275, R278, R286: the travel of the stop from a velocity (2^-16 counts/µs) and an acceleration (2^-24 counts/µs²), in 2^-16
counts, without its sign. -/
def Limits.stop (l : Limits) (vel acc : Int) : Int :=
  let d := motionSign vel acc
  idiv (l.slowdown (d * vel * 2 ^ 80) (d * acc * 2 ^ 72)).1 (2 ^ 80)

/-- R278: the position at which that stop ends. -/
def Limits.stopPoint (l : Limits) (pos vel acc : Int) : Int := pos + motionSign vel acc * l.stop vel acc

/-- R286: the stop lead at a velocity (counts/s times 2^32), under the limits in force. -/
def State.stopLeadAt (s : State) (rf : RegFile) (v : Nat) : Option Nat :=
  (stopTravel v (s.get Reg.TID_PRF_AMAX_LIMIT) (s.get Reg.TID_PRF_JMAX_LIMIT) (pitch32 rf)
    (s.on Reg.TID_PRF_CTRL_BLEND)).map fun d => d + s.get Reg.TID_STOP_MARGIN

/-- R286: the stop lead at a planned rate in Hz. -/
def State.stopLeadOfRate (s : State) (rf : RegFile) (rate : Nat) : Option Nat := s.stopLeadAt rf (rate * pitch32 rf)

/-- R286: before FLOOD, TID_STOP_LEAD shows the stop lead at the planned rate of the strip's first interval. -/
def State.showStopLead (s : State) : State :=
  if 3 ≤ s.get Reg.EXP_STATE_STATE then s
  else match s.openStrip.orElse (fun _ => s.box.strips.head?) with
    | none => s
    | some st => match s.planOf st.slot (s.firstInterval st 0) with
      | none => s
      | some p => match s.stopLeadOfRate (s.setup st) p.rate with
        | some l => s.put Reg.TID_STOP_LEAD_LINES l
        | none => s

end Sys2Proof.Machine
end

