-- ==== Sys2Proof/Machine/Host.lean ====
section
/-! DEFINITION. Host interface commands (R431 to R446, R459, R461): doorbells, event rings, interrupts, host reads,
the link, the ring set-up registers, register writes by access type, counter clears and NOP. -/
namespace Sys2Proof.Machine

/-- The outcome of a command that completes: a next state. -/
abbrev Out := Host.Outcome State Fault Refusal

/-- R438: a ring error clears EN, shows its code and raises 0x1003; the ring waits for nothing. -/
def State.ringError (s : State) (r code : Nat) : State :=
  (s.puts [(Reg.HST_SQ_CFG_EN r, 0), (Reg.HST_SQ_STATUS_ERROR r, code), (Reg.HST_SQ_STATUS_WAIT r, 0)]).raise 0x1003 [(1, r), (4, code)]

/-- R436, R437: a submission doorbell with a new PROD. -/
def execSqDoorbell (r : Fin 32) (v : Word) (s : State) : Out :=
  if ¬ s.domainOn 14 then .next (s.domainOffAccess (0x01800000 + 0x1000 * r)) else
  let prod := v.toNat % 65536
  let pend := (prod + 65536 - s.get (Reg.HST_SQ_IDX_CONS r)) % 65536
  if 2 ^ s.get (Reg.HST_SQ_CFG_SIZE r) < pend then .next (s.ringError r 1)
  else .next (s.put (Reg.HST_SQ_IDX_PROD r) prod)

/-- An event ring becomes armed (R442). -/
def EventRing.arm (q : EventRing) : EventRing := { q with armed := true, written := 0, firstAt := none, urgent := false }

/-- The machine with the on-chip side of an event ring changed. -/
def State.modEq (s : State) (e : Nat) (f : EventRing → EventRing) : State :=
  { s with host := { s.host with events := listModify s.host.events e f } }

/-- The on-chip side of an event ring. -/
def State.eqRing (s : State) (e : Nat) : EventRing := s.host.events.getD e EventRing.reset

/-- R440, R442: a consumer doorbell advances CONS and arms the ring, unless it would pass PROD. -/
def execEqDoorbell (e : Fin 8) (v : Word) (s : State) : Out :=
  if ¬ s.domainOn 14 then .next (s.domainOffAccess (0x01820000 + 0x1000 * e)) else
  let cons := v.toNat % 65536
  let old := s.get (Reg.HST_EQ_IDX_CONS e)
  let pend := (s.get (Reg.HST_EQ_IDX_PROD e) + 65536 - old) % 65536
  if pend < (cons + 65536 - old) % 65536 then .next (s.raise 0x1004 [(1, e), (2, cons)])
  else .next ((s.put (Reg.HST_EQ_IDX_CONS e) cons).modEq e EventRing.arm)

/-- R440: one 32-byte record to an event ring at PROD; PHASE inverts each time PROD passes a multiple of 2^SIZE. -/
def State.writeRecord (s : State) (e : Nat) (bytes : Bool → List Byte) : State :=
  let prod := s.get (Reg.HST_EQ_IDX_PROD e)
  let size := 2 ^ s.get (Reg.HST_EQ_CFG_SIZE e)
  let phase := s.on (Reg.HST_EQ_STATUS_PHASE e)
  let s := s.writeHost (4096 * s.get (Reg.HST_EQ_BASE_BASE e) + 32 * (prod % size)) (bytes phase)
  let s := s.put (Reg.HST_EQ_IDX_PROD e) ((prod + 1) % 65536)
  if (prod + 1) % size = 0 then s.put (Reg.HST_EQ_STATUS_PHASE e) (flag (!phase)) else s

/-- R440: an event ring may be written: enabled, the link up, D0, and room for the records of the event. -/
def State.eqWritable (s : State) (e n : Nat) : Bool :=
  let pend := (s.get (Reg.HST_EQ_IDX_PROD e) + 65536 - s.get (Reg.HST_EQ_IDX_CONS e)) % 65536
  s.on (Reg.HST_EQ_CFG_EN e) && s.on Reg.HST_STATUS_LINK_UP && !s.host.d3hot &&
    decide (pend + n ≤ 2 ^ s.get (Reg.HST_EQ_CFG_SIZE e))

/-- R440, R455: the oldest queued event of a ring is written, with its continuation records. -/
def execEventRecordWrite (e : Fin 8) (s : State) : Out :=
  match (s.eqRing e).queue with
  | [] => .next s
  | ev :: rest =>
    if s.eqWritable e ev.records then
      let lost := (s.eqRing e).lost
      let s := s.writeRecord e (fun ph => ev.first ph lost)
      let s := (List.range (ev.records - 1)).foldl (fun s k => s.writeRecord e (fun ph => ev.continuation k ph)) s
      .next (s.modEq e fun q =>
        { q with queue := rest, lost := false, written := q.written + ev.records,
                 firstAt := some (q.firstAt.getD s.aon),
                 urgent := q.urgent || decide (s.get (Reg.HST_EQ_MOD_URGENT e) ≤ ev.sev) })
    else .next s

/-- R442: an MSI-X message: sent, or withheld with its PBA bit while the vector is masked. -/
def State.sendMsix (s : State) (v : Nat) : State :=
  if s.on (Reg.MSIX_CTRL_MASK v) then { s with host := { s.host with msixPba := setBit s.host.msixPba v true } }
  else ({ s with host := { s.host with msixSent := s.host.msixSent ++ [v] } }).count (cntHst 6)

/-- R435, R442, R461: the interrupt condition of an armed ring that holds pending records; no message is sent while the link is
down or in D3hot. -/
def State.eqDue (s : State) (e : Nat) : Bool :=
  let q := s.eqRing e
  q.armed && s.on Reg.HST_STATUS_LINK_UP && !s.host.d3hot && decide (s.get (Reg.HST_EQ_IDX_PROD e) ≠ s.get (Reg.HST_EQ_IDX_CONS e)) &&
    (decide (s.get (Reg.HST_EQ_MOD_COUNT e) ≤ q.written) || q.urgent ||
      match q.firstAt with
      | some t => decide (t + 400 * s.get (Reg.HST_EQ_MOD_TIME_US e) ≤ s.aon)
      | none => false)

/-- R442: an armed event ring whose condition is met sends its vector and is disarmed. -/
def execEqInterrupt (e : Fin 8) (s : State) : Out :=
  if s.eqDue e then
    .next ((s.sendMsix (s.get (Reg.HST_EQ_CFG_VEC e))).modEq e fun q => { q with armed := false })
  else .next s

/-- R442: a vector is unmasked; a message withheld by the mask is sent. -/
def execMsixUnmask (v : Fin 64) (s : State) : Out :=
  if ¬ s.domainOn 14 then .next (s.domainOffAccess (0x0011000C + 16 * v)) else
  let held := bitAt s.host.msixPba v
  let s := ({ s with host := { s.host with msixPba := setBit s.host.msixPba v false } }).put (Reg.MSIX_CTRL_MASK v) 0
  .next (if held then s.sendMsix v else s)

/-- The opcode of a host read's requester, all ones for a descriptor fetch (R456). -/
def State.readerOpcode (s : State) : Reader → Nat
  | .fetch _ => 0xFF
  | .job a => match s.findJob a.toNat with
    | some j => j.opcode
    | none => 0xFF

/-- A job has host memory to read: a LAYOUT job, a codec job, a check scan, a table that has not started, or an alignment. -/
def State.readsHost (s : State) (a : Nat) : Bool :=
  (s.box.streams.any fun m => m.jobs.any fun j => decide (j.aseq = a) && j.src.isSome) ||
    (s.store.codec.any fun c => decide (c.aseq = a) && !c.paused) ||
    (s.mem.scans.any fun j => decide (j.aseq = a) && !j.dram) ||
    (s.tid.heldJobs.any fun j => decide (j.aseq = a) && j.table.isSome) ||
    (s.hcr.jobs.any fun j => decide (j.aseq = a ∧ j.opcode = 0x29)) ||
    (s.aux.jobs.any fun j => decide (j.aseq = a) && j.source.any (fun q => !q.2.2) && j.held.isNone &&
      j.phases.all fun p => decide (p.st = 0))

/-- A job's traces in the units that read for it, but for its bytes of a stream. -/
def State.forgetJob (s : State) (aseq : Nat) : State :=
  { s with
    store := { s.store with codec := s.store.codec.filter fun j => decide (j.aseq ≠ aseq) },
    mem := { s.mem with scans := s.mem.scans.filter fun j => decide (j.aseq ≠ aseq) },
    tid := { s.tid with heldJobs := s.tid.heldJobs.filter fun j => decide (j.aseq ≠ aseq) },
    hcr := { s.hcr with jobs := s.hcr.jobs.filter fun j => decide (j.aseq ≠ aseq) },
    aux := { s.aux with jobs := s.aux.jobs.filter fun j => decide (j.aseq ≠ aseq) } }

/-- R434: a stream whose layout job's read at an address fails: the bytes received before that address stand, and the jobs
that were to follow are no longer its. -/
def Stream.cutAt (m : Stream) (j : LayoutJob) (addr : Nat) : Stream :=
  let n := max m.parsed (min j.upTo (j.start + (addr - j.src.getD addr)))
  { m with
    received := n, last := false, sources := (m.sources.filter fun q => decide (q.1 < n)) ++ [(n, false)],
    jobs := m.jobs.takeWhile fun q => decide (q.aseq ≠ j.aseq) }

/-- R434, R447: a layout job's read fails: the job ends FAILED; those taken after it for the stream have another STREAM_OFF than
the bytes received, and are REFUSED. -/
def State.layoutFails (s : State) (h : Nat) (m : Stream) (j : LayoutJob) (addr code : Nat) : State :=
  let m' := m.cutAt j addr
  let later := (m.jobs.dropWhile fun q => decide (q.aseq ≠ j.aseq)).drop 1
  let s := { s with box := { s.box with streams := listSet s.box.streams h m' } }
  later.foldl (fun (s : State) q => s.complete q.aseq 2 0 (leBytes 8 m'.received))
    (s.complete j.aseq 1 code (leBytes 8 m'.received))

/-- R434: the failure path of a host read. -/
def State.readFailed (s : State) (r : HostRead) (code : Nat) : State :=
  match r.reader with
  | .fetch ring => s.ringError ring 2
  | .job a =>
    let at' := ((List.range 16).zip s.box.streams).findSome? fun p =>
      (p.2.jobs.find? fun j => decide (j.aseq = a.toNat)).map fun j => (p.1, p.2, j)
    match at' with
    | some (h, m, j) => s.layoutFails h m j r.addr.toNat code
    | none => (s.forgetJob a.toNat).complete a.toNat 1 code []

/-- The requester of a host read is there: its ring waits for a fetch, or its job is in flight and reads host memory. -/
def State.readerLive (s : State) : Reader → Bool
  | .fetch r => s.on (Reg.HST_SQ_CFG_EN r) && decide (s.get (Reg.HST_SQ_IDX_PROD r) ≠ s.get (Reg.HST_SQ_IDX_CONS r))
  | .job a => (s.findJob a.toNat).isSome && s.readsHost a.toNat

/-- How many timeouts a host read has met. -/
def State.readTries (s : State) (r : HostRead) : Nat :=
  match s.host.retries.find? fun p => decide (p.1 = r) with
  | some p => p.2
  | none => 0

/-- R434: a completion timeout: two retries, then 0x1005 and the failure path. At most 256 reads are in flight (R6, R431), so
that no more of them can have met a timeout. -/
def execHostReadTimeout (r : HostRead) (s : State) : Out :=
  if ¬ s.readerLive r.reader then .next s
  else if 256 ≤ s.host.retries.length ∧ s.host.retries.all (fun p => decide (p.1 ≠ r)) then .next s
  else
    let n := s.readTries r
    let rest := s.host.retries.filter fun p => decide (p.1 ≠ r)
    let s := s.count (cntHst 2)
    if n < 2 then
      .next (({ s with host := { s.host with retries := (r, n + 1) :: rest } }).count (cntHst 3))
    else
      let s := { s with host := { s.host with retries := rest } }
      let s := s.raise 0x1005 [(1, s.readerOpcode r.reader), (8, r.addr.toNat)]
      .next (s.readFailed r 0x1005)

/-- R434: a completion with UR or CA status: 0x1006 and the failure path, without retry. R438: a descriptor fetched with
EP set (status 0, the completion itself being successful) is ring error 3; a job's data comes poisoned, which takes effect
where the command that uses it names the poisoned byte. -/
def execHostReadError (r : HostRead) (status : BitVec 3) (s : State) : Out :=
  if ¬ s.readerLive r.reader then .next s
  else if status = 0#3 then
    match r.reader with
    | .fetch ring => .next (s.ringError ring 3)
    | .job _ => .next s
  else
    let s := { s with host := { s.host with retries := s.host.retries.filter fun p => decide (p.1 ≠ r) } }
    let s := s.raise 0x1006 [(1, s.readerOpcode r.reader), (8, r.addr.toNat), (1, status.toNat)]
    .next (s.readFailed r 0x1006)

/-- R435: the PCIe link goes down. -/
def execPcieLinkDown (s : State) : Out :=
  if s.on Reg.HST_STATUS_LINK_UP then
    .next ((s.puts [(Reg.HST_STATUS_LINK_UP, 0), (Reg.HST_STATUS_SPEED, 0), (Reg.HST_STATUS_WIDTH, 0)]).raise 0x1009 [])
  else .next s

/-- The records held for the host are written (R435, R461). -/
def State.flushHeld (s : State) : State :=
  let l := s.host.heldWrites
  l.foldl (fun s p => s.writeHost p.1 p.2) { s with host := { s.host with heldWrites := [] } }

/-- R435: the PCIe link returns, and the held records are delivered. -/
def execPcieLinkUp (speed : Fin 6) (width : Fin 17) (s : State) : Out :=
  if s.on Reg.HST_STATUS_LINK_UP then .next s
  else
    let s := s.puts [(Reg.HST_STATUS_LINK_UP, 1), (Reg.HST_STATUS_SPEED, speed), (Reg.HST_STATUS_WIDTH, width)]
    let s := if s.host.d3hot then s else s.flushHeld
    .next (s.raise 0x100A [(4, speed), (4, width)])

/-- R436, 0x100C: a BASE or CFG write of an enabled ring clears EN only. -/
def State.ringBusy (s : State) (en : Field) (ring off : Nat) : State :=
  (s.put en 0).raise 0x100C [(1, ring), (4, off)]

/-- R11, R433: a 64-bit register is written whole, or one 32-bit half of it. -/
def State.writeHalf (s : State) (off : Nat) (half : Option (Fin 2)) (v : BitVec 64) : State :=
  match half with
  | none => s.writePair off v
  | some h => s.writeWord (off + 4 * h) (v.setWidth 32)

/-- R436: a submission ring's BASE, or half of it. -/
def execHstSqBaseWrite (r : Fin 32) (v : HalfWrite) (s : State) : Out :=
  let off := 0x00101000 + 32 * r + halfOffset v.half
  if ¬ s.domainOn 14 then .next (s.domainOffAccess off) else
  if s.on (Reg.HST_SQ_CFG_EN r) then .next ((s.ringBusy (Reg.HST_SQ_CFG_EN r) r off).put (Reg.HST_SQ_STATUS_WAIT r) 0)
  else .next (((s.writeHalf (0x00101000 + 32 * r) v.half v.value).put (Reg.HST_SQ_IDX_PROD r) 0).setCons r 0)

/-- R436, R438: a submission ring's CFG; enabling clears its ERROR. -/
def execHstSqCfgWrite (r : Fin 32) (v : Word) (s : State) : Out :=
  if ¬ s.domainOn 14 then .next (s.domainOffAccess (0x00101008 + 32 * r)) else
  if s.on (Reg.HST_SQ_CFG_EN r) then
    .next ((s.ringBusy (Reg.HST_SQ_CFG_EN r) r (0x00101008 + 32 * r)).put (Reg.HST_SQ_STATUS_WAIT r) 0)
  else
    let s := s.writeWord (0x00101008 + 32 * r) v
    .next (if s.on (Reg.HST_SQ_CFG_EN r) then s.put (Reg.HST_SQ_STATUS_ERROR r) 0 else s)

/-- R436: an event ring's BASE, or half of it. -/
def execHstEqBaseWrite (e : Fin 8) (v : HalfWrite) (s : State) : Out :=
  let off := 0x00102000 + 32 * e + halfOffset v.half
  if ¬ s.domainOn 14 then .next (s.domainOffAccess off) else
  if s.on (Reg.HST_EQ_CFG_EN e) then .next (s.ringBusy (Reg.HST_EQ_CFG_EN e) e off)
  else
    .next ((s.writeHalf (0x00102000 + 32 * e) v.half v.value).puts
      [(Reg.HST_EQ_IDX_PROD e, 0), (Reg.HST_EQ_IDX_CONS e, 0), (Reg.HST_EQ_STATUS_PHASE e, 1)])

/-- R436, R442: an event ring's CFG; enabling arms the ring. -/
def execHstEqCfgWrite (e : Fin 8) (v : Word) (s : State) : Out :=
  if ¬ s.domainOn 14 then .next (s.domainOffAccess (0x00102008 + 32 * e)) else
  if s.on (Reg.HST_EQ_CFG_EN e) then .next (s.ringBusy (Reg.HST_EQ_CFG_EN e) e (0x00102008 + 32 * e))
  else
    let s := s.writeWord (0x00102008 + 32 * e) v
    .next (if s.on (Reg.HST_EQ_CFG_EN e) then s.modEq e EventRing.arm else s)

/-- R432: HST_CTRL.EN. -/
def execHstCtrlWrite (v : Word) (s : State) : Out := .next (s.writeWord 0x00100000 v)

/-- The first offsets of the registers whose writes are rows of their own; REGISTER_WRITE leaves them (log entry 5). -/
def ownBehaviour : List Nat := [
  0x00100000, 0x00100008, 0x0010000C, 0x00101000, 0x00101008, 0x00102000, 0x00102008, 0x00200014,
  0x00401000, 0x00401004, 0x00401008, 0x0040100C, 0x00401040, 0x00401100, 0x00401300, 0x00401400,
  0x00500008, 0x00500010, 0x00500018, 0x00500020, 0x00600008, 0x00600010, 0x00600018,
  0x00800000, 0x00900000, 0x00900010, 0x00901000,
  0x00A00000, 0x00A00004, 0x00A00008, 0x00A0000C, 0x00A00018, 0x00A00038, 0x00A00044,
  0x00A00048, 0x00A00050, 0x00A00058, 0x00A00060, 0x00A00068, 0x00A00080,
  0x00B00000, 0x00B00004, 0x00B00008, 0x00B00010, 0x00B00024, 0x00B0002C, 0x00B00100, 0x00B00120,
  0x00D00000, 0x00E00000, 0x00E00004, 0x00E00008, 0x00E0000C, 0x00E00010, 0x00E00018, 0x00E00030, 0x00E00040,
  0x00E00048, 0x00E0004C, 0x00E00054, 0x00E0F000, 0x00F00000, 0x00F00020,
  0x01000000, 0x01000008, 0x01000018, 0x01100010, 0x01100400,
  0x01200000, 0x01200100, 0x01200108, 0x01200110, 0x01200120, 0x01200130, 0x01200148, 0x01200150,
  0x01300028, 0x01500000, 0x01500010, 0x01500018, 0x01500028, 0x01500030, 0x01500048]

/-- The limits that tie one field of a write to another or to a signed bound (the field tables of R233, R255, R404,
R428, R494, R515 and R530): whether the register at an offset may hold what the write leaves. -/
def State.writeHolds (s : State) (base : Nat) (idx : List Nat) : Bool :=
  let i := idx.headD 0
  match base with
  | 0x00800010 => decide (s.getS Reg.HLK_TEMP_WARN < s.getS Reg.HLK_TEMP_LIMIT)
  | 0x00904000 =>
    let p := s.getS (Reg.LNS_HOP_EQ_PRE i)
    let m : Int := s.get (Reg.LNS_HOP_EQ_MAIN i)
    let q := s.getS (Reg.LNS_HOP_EQ_POST i)
    decide (-15 ≤ p ∧ p ≤ 0 ∧ -31 ≤ q ∧ q ≤ 0 ∧ 24 ≤ m ∧ m ≤ 63 ∧ m - p - q ≤ 63)
  | 0x01000020 =>
    let hi := s.get Reg.MEM_SCHED_WR_HI
    decide (8 ≤ hi ∧ hi ≤ 64 ∧ s.get Reg.MEM_SCHED_WR_LO + 8 ≤ hi)
  | 0x01000040 => decide (i ≠ 0)
  | 0x01100108 =>
    let t := s.get (Reg.INT_OWNER_SIZE_TAG i)
    decide (t = 0 ∨ t = 4 ∨ t = 5)
  | 0x01200048 => !s.on Reg.TIM_CTRL_EN
  | 0x01400018 => decide (s.getS Reg.PWR_TEMP_WARN_WARN ≤ 0x0720)
  | 0x01500020 => decide (s.get Reg.OBS_RING_RD_OFF < 2 ^ s.get Reg.OBS_RING_CFG_SIZE)
  | _ => true

/-- The fields that such a limit takes back: all of the register, the two of MEM_SCHED, the tag of INT_OWNER. -/
def State.takeBack (s t : State) (base : Nat) (idx : List Nat) (off : Nat) : State :=
  let i := idx.headD 0
  match base with
  | 0x00800010 => t.put Reg.HLK_TEMP_WARN (s.get Reg.HLK_TEMP_WARN)
  | 0x01000020 => t.puts [(Reg.MEM_SCHED_WR_HI, s.get Reg.MEM_SCHED_WR_HI), (Reg.MEM_SCHED_WR_LO, s.get Reg.MEM_SCHED_WR_LO)]
  | 0x01100108 => t.put (Reg.INT_OWNER_SIZE_TAG i) (s.get (Reg.INT_OWNER_SIZE_TAG i))
  | _ => { t with regs := rfSetWord t.regs off (rfWord s.regs off) }

/-- A write of a register that has a row of its own by its value (log entry 5): one that starts a test operation (R424), one
that leaves an MSI-X vector unmasked (R442). -/
def ownWrite (base : Nat) (v : BitVec 32) : Bool :=
  (decide (base = 0x01100300) && bitAt v.toNat 31 && decide (1 ≤ v.toNat % 8 ∧ v.toNat % 8 ≤ 5)) ||
    (decide (base = 0x0011000C) && !bitAt v.toNat 0)

/-- R424: INT_TEST_CTRL's OP 0, 6 and 7 have no effect: GO does not stay. -/
def idleTest (base : Nat) (v : BitVec 32) : BitVec 32 := if base = 0x01100300 then v &&& 0x7FFFFFFF else v

/-- R12, R13, R202, R433: a write of a register with no behaviour of its own. -/
def State.plainWrite (s : State) (off : Nat) (v : BitVec 32) : State :=
  match findRow (canonOffset off) with
  | none => s
  | some (r, idx, _) =>
    if natMem r.base ownBehaviour ∨ r.fields.any (fun f => decide (f.access = .sat)) ∨ ownWrite r.base v = true then s
    else
      let t := s.writeWord off (idleTest r.base v)
      if t.writeHolds r.base idx then t else s.takeBack t r.base idx (canonOffset off)

/-- R11, R433: an aligned 64-bit write: at once on a 64-bit register, otherwise its two words, low first. -/
def State.plainPair (s : State) (off : Nat) (v : BitVec 64) : State :=
  let both := (s.plainWrite off (v.setWidth 32)).plainWrite (off + 4) ((v >>> 32).setWidth 32)
  match findRow (canonOffset off) with
  | none => both
  | some (r, idx, _) =>
    if r.wide then
      if natMem r.base ownBehaviour ∨ r.fields.any (fun f => decide (f.access = .sat)) then s
      else
        let t := s.writePair off v
        let o := canonOffset off
        if t.writeHolds r.base idx then t else s.takeBack (s.takeBack t r.base idx o) r.base idx (o + 4)
    else both

/-- R11 to R13, R433: REGISTER_WRITE, 32 bits or 64 bits wide, naturally aligned; any other access has no effect. -/
def execRegisterWrite (off : BitVec 25) (wide : Bool) (v : BitVec 64) (s : State) : Out :=
  let o := off.toNat
  if wide then
    if o % 8 ≠ 0 then .next s
    else .next (s.plainPair o v)
  else if o % 4 ≠ 0 then .next s
  else .next (s.plainWrite o (v.setWidth 32))

/-- R526: a counter is cleared by a 64-bit write of 0, or by a 32-bit write of 0 to its low word. -/
def execCounterClear (off : BitVec 25) (wide : Bool) (v : BitVec 64) (s : State) : Out :=
  let o := off.toNat
  match findRow o with
  | some (r, _, 0) =>
    if r.fields.any (fun f => decide (f.access = .sat)) then
      if ¬ s.domainOn (domainOf o) then .next (s.domainOffAccess o)
      else if (wide ∧ v = 0) ∨ (¬ wide ∧ v.setWidth 32 = 0#32) then
        .next { s with regs := rfSetWord (rfSetWord s.regs o 0) (o + 4) 0 }
      else .next s
    else .next s
  | _ => .next s

/-- Checks that every byte of a reserved range is 0 (R443). -/
def descReserved (d : Desc) (off n : Nat) : List (Nat × Bool) :=
  (List.range n).map fun i => (off + i, decide (d.field (off + i) 1 = 0))

/-- The opcodes of R443. -/
def opcodes : List Nat :=
  [0x01, 0x02, 0x10, 0x11, 0x12, 0x13, 0x14, 0x18, 0x19, 0x20, 0x21, 0x28, 0x29, 0x2A, 0x30, 0x31, 0x32, 0x33, 0x38, 0x3F]

/-- R443: a NOP completes at once; a descriptor with a reserved opcode completes BAD_DESC. -/
def execNop (d : Desc) (s : State) : Out :=
  let op := d.field 0 1
  if op = 0x3F ∨ natMem op opcodes = false then
    .next (s.withDesc d false false ((0, decide (op = 0x3F)) :: descReserved d 16 48) fun s j => s.complete j.aseq 0 0 [])
  else .next s

/-! ### What jobs read and write (R446) -/

/-- Bytes of host memory or DRAM. -/
def State.readSpace (s : State) (dram : Bool) (a n : Nat) : List Byte :=
  if dram then s.dramBytes a n else s.hostMem.readBytes a n

/-- Bytes to host memory or DRAM. -/
def State.writeSpace (s : State) (dram : Bool) (a : Nat) (l : List Byte) : State :=
  if dram then (let t := s.settle a l.length
    { t with dram := t.dram.writeBytes a l }) else s.writeHost a l

/-- R446: the first DRAM range of a list (in DRAM, address, length) that leaves MEM_SIZE. -/
def State.rangeFault (s : State) (l : List (Bool × Nat × Nat)) : Option Nat :=
  (l.find? fun p => p.1 && !s.dramRangeOk p.2.1 p.2.2).map (·.2.1)

/-- R446: a job whose DRAM range leaves MEM_SIZE completes RANGE with 0x0E0A. -/
def State.failRange (s : State) (aseq port addr : Nat) : State :=
  (s.raise 0x0E0A [(1, 0xFF), (1, port), (8, addr)]).complete aseq 9 0x0E0A []

end Sys2Proof.Machine
end

