-- ==== Sys2Proof/Machine/Couches.lean ====
section
/-! DEFINITION. The roles of the couches: loss, switch-over, restoration (R188 to R195, R201). -/
namespace Sys2Proof.Machine

/-- The common payload of R204: strip, tick, chain and driver address, all ones where they do not apply. -/
def cchFields (slot tick : Nat) (chain drv : Option Nat) : List (Nat × Nat) :=
  [(1, slot), (6, tick), (1, chain.getD 0xFF), (2, drv.getD 0xFFFF)]

/-- The slot of the open strip, 0xFF where none is open. -/
def State.openSlot (s : State) : Nat := (s.openStrip.map (·.slot)).getD 0xFF

/-- The common payload of R204 at the present moment, of no chain and no driver. -/
def State.cchNow (s : State) : List (Nat × Nat) := cchFields s.openSlot (s.get Reg.TID_TICK_INDEX) none none

/-- R188: the role of couch n: 0 ACTIVE, 1 STANDBY, 2 LOST, 3 OFF. -/
def State.couchRole (s : State) (n : Nat) : Nat := s.get (Reg.CCX_STATUS_ROLE n)

/-- The couch with a role, if any. -/
def State.couchWith (s : State) (role : Nat) : Option Nat := [0, 1].find? fun n => decide (s.couchRole n = role)

/-- HLK_ARB_STATUS follows the roles. -/
def State.showArb (s : State) : State :=
  s.puts [(Reg.HLK_ARB_STATUS_ACTIVE, (s.couchWith 0).getD 3), (Reg.HLK_ARB_STATUS_STANDBY_OK, flag (s.couchWith 1).isSome)]

/-- A couch takes a role. -/
def State.setCouch (s : State) (n role : Nat) : State := (s.put (Reg.CCX_STATUS_ROLE n) role).showArb

/-- R195: 0x050E once, at the moment the second couch becomes LOST; in NEAP, at the wake. -/
def State.noCouch (s : State) : State :=
  if ¬ s.couch.neapRoles.isEmpty then s
  else if s.couchRole 0 = 2 ∧ s.couchRole 1 = 2 then
    if s.couch.noCouchRaised then s
    else ({ s with couch := { s.couch with noCouchRaised := true } }).raise 0x050E s.cchNow
  else { s with couch := { s.couch with noCouchRaised := false } }

/-- A couch becomes LOST for a cause of CCA_STATUS. -/
def State.loseCouch (s : State) (n cause : Nat) : State :=
  if 2 ≤ s.couchRole n then s
  else (((s.put (Reg.CCX_STATUS_LOST_CAUSE n) cause).setCouch n 2).count (cntCouch n 3)).noCouch

/-- R189: the STANDBY couch becomes LOST, with 0x0502. -/
def State.loseStandby (s : State) (n cause : Nat) : State :=
  (s.raise 0x0502 (s.cchNow ++ [(1, n), (1, cause)])).loseCouch n cause

/-- R190: a measured gap of a switch-over, at most 480 core cycles (a free value). -/
def State.drawGap (s : State) : Nat × State :=
  let p := s.draw
  (p.1.toNat % 481, p.2)

/-- GAP_PEAK takes a gap. -/
def State.peakGap (s : State) (g : Nat) : State :=
  s.put Reg.HLK_ARB_STATUS_GAP_PEAK (max g (s.get Reg.HLK_ARB_STATUS_GAP_PEAK))

/-- R189 to R191: a switch-over: the ACTIVE couch becomes LOST, the STANDBY couch ACTIVE; the gap, 5/6 ns to the core cycle,
is the backlog of the chains. -/
def State.switchOver (s : State) (cause : Nat) : State :=
  match s.couchWith 0, s.couchWith 1 with
  | some a, some b =>
    let s := s.raise 0x0501 (s.cchNow ++ [(1, a), (1, cause)])
    let s := ((s.loseCouch a cause).setCouch b 0).count (cntArb 1)
    let (g, s) := s.drawGap
    let s := s.peakGap g
    { s with couch := { s.couch with
      moved := true, chainFrom := List.replicate 128 none, pathJudged := false, backlog := (10 * g * 5 + 5) / 6 } }
  | _, _ => s

/-- R195: the only couch in service is at fault: 0x0505 and a prompt stop with CAUSE 8. -/
def State.soleFault (s : State) (n : Nat) : State :=
  (s.raise 0x0505 (s.cchNow ++ [(1, n)])).promptStop 8

/-- R189, R205: a couch is no longer there (LOST_CAUSE as given). The frames of a sole couch go missing from the next line on,
and are treated as flagged there. -/
def State.couchGone (s : State) (n cause : Nat) : State :=
  match s.couchRole n with
  | 0 =>
    (match s.couchWith 1 with
     | some _ => s.switchOver cause
     | none =>
       let s := s.loseCouch n cause
       if s.firing then { s with couch := { s.couch with gone := some n } } else s)
  | 1 => s.loseStandby n cause
  | _ => s

/-- R189, R195: the first missing frame of a sole couch that is gone. -/
def State.missSole (s : State) : State :=
  match s.couch.gone with
  | some n => ({ s with couch := { s.couch with gone := none } }).soleFault n
  | none => s

/-- R190, R192: the first frame of a chain on the new path. -/
def State.onNewPath (s : State) (chain index : Nat) : State :=
  if s.couch.moved ∧ (s.couch.chainFrom.getD chain none).isNone then
    { s with couch := { s.couch with chainFrom := listSet s.couch.chainFrom chain (some index) } }
  else s

/-- R189, R500: a couch's domain has failed: the couch is LOST with LOST_CAUSE 2. In NEAP it is its role to come that is lost,
and a STANDBY couch takes the ACTIVE one's; in bring-up it enters service LOST. -/
def State.couchDomainLost (s : State) (n : Nat) : State :=
  let lost (s : State) : State :=
    ((s.raise 0x0502 (s.cchNow ++ [(1, n), (1, 2)])).put (Reg.CCX_STATUS_LOST_CAUSE n) 2).count (cntCouch n 3)
  match s.get Reg.EXP_STATE_STATE with
  | 0 => ((lost s).setCouch n 2).noCouch
  | 1 =>
    let role := s.couch.neapRoles.getD n 3
    if 2 ≤ role then s
    else
      let roles := listSet s.couch.neapRoles n 2
      let roles := if role = 0 ∧ roles.getD (1 - n) 3 = 1 then listSet roles (1 - n) 0 else roles
      lost { s with couch := { s.couch with neapRoles := roles } }
  | _ => s.couchGone n 2

end Sys2Proof.Machine
end

