-- ==== Sys2Proof/Machine/Measure.lean ====
section
/-! DEFINITION. Head care's measurement runs and what falls due of head care (R329 to R331, R335). -/
namespace Sys2Proof.Machine

/-! ### The link's records of drivers and chains -/

/-- A driver, by address. -/
def State.driver (s : State) (a : Nat) : Driver := s.link.drivers.getD a {}

/-- The machine with a driver changed. -/
def State.modDriver (s : State) (a : Nat) (f : Driver → Driver) : State :=
  { s with link := { s.link with drivers := listModify s.link.drivers a f } }

/-- A chain, by number. -/
def State.chain (s : State) (n : Nat) : Chain := s.link.chains.getD n {}

/-- The machine with a chain changed. -/
def State.modChain (s : State) (n : Nat) (f : Chain → Chain) : State :=
  { s with link := { s.link with chains := listModify s.link.chains n f } }

/-- R225: the training state of a chain: 0 DOWN, 1 ALIGN, 2 EQ, 3 DISCOVER, 4 IDENT, 5 TIME, 6 CONFIG, 7 READY, 8 FAILED. -/
def State.chainState (s : State) (n : Nat) : Nat := s.get (Reg.HLK_CHAIN_STATE_STATE n)

/-- R215, R231: a control frame joins the queue of its driver under the next CSEQ. -/
def State.queueCtrl (s : State) (a opcode : Nat) (args : List Byte) : State :=
  s.modDriver a fun d =>
    { d with cseq := (d.cseq + 1) % 256, waiting := d.waiting ++ [{ opcode := opcode, cseq := d.cseq, args := args }] }

/-- A control frame of an opcode is waiting or outstanding for a driver. -/
def Driver.owes (d : Driver) (opcode : Nat) : Bool :=
  d.waiting.any (fun o => decide (o.opcode = opcode)) || d.sent.any (fun o => decide (o.opcode = opcode))

/-- Nothing is waiting or outstanding for a driver. -/
def Driver.quiet (d : Driver) : Bool := d.waiting.isEmpty && d.sent.isNone

/-! ### Measurement runs (R331) -/

/-- The machine with a covered driver of the run changed. -/
def State.modMeas (s : State) (a : Nat) (f : MeasDriver → MeasDriver) : State :=
  match s.hcr.run with
  | none => s
  | some r =>
    let l := r.drivers.map fun (m : MeasDriver) => if m.addr = a then f m else m
    { s with hcr := { s.hcr with run := some { r with drivers := l } } }

/-- A covered driver of the run that is still being measured. -/
def State.measuring (s : State) (a : Nat) : Option MeasDriver :=
  match s.hcr.run with
  | none => none
  | some r => r.drivers.find? fun m => decide (m.addr = a ∧ m.result = 0)

/-- A covered driver is incomplete. -/
def State.measFail (s : State) (a : Nat) : State :=
  s.modMeas a fun m => if m.result = 0 then { m with result := 2 } else m

/-- R329, R331: the arguments of MEASURE from an element on. -/
def State.measureArgs (s : State) (first : Nat) : List Byte :=
  leBytes 1 3 ++ leBytes 1 0 ++ leBytes 2 first ++ leBytes 2 (256 - first) ++ leBytes 2 0 ++
  leBytes 4 (s.get Reg.HCR_MEAS_CTRL_LEAK_MV)

/-- The VALUE of an element and kind that a driver has returned. -/
def MeasDriver.value (m : MeasDriver) (e kind : Nat) : Option Nat :=
  (m.got.find? fun g => decide (g.1 = e ∧ g.2.1 = kind)).map (·.2.2)

/-- An element has both kinds. -/
def MeasDriver.has (m : MeasDriver) (e : Nat) : Bool := (m.value e 1).isSome && (m.value e 2).isSome

/-- The first element not yet received; 256 where none is missing. -/
def MeasDriver.firstMissing (m : MeasDriver) : Nat := ((List.range 256).find? fun e => !m.has e).getD 256

/-- R331: a MEASURE goes to a covered driver. -/
def State.sendMeasure (s : State) (m : MeasDriver) : State := s.queueCtrl m.addr 7 (s.measureArgs m.firstMissing)

/-- R331: a restart of a driver's measurement, of which each driver has 3. -/
def State.measRestart (s : State) (m : MeasDriver) : State :=
  if 3 ≤ m.restarts then s.measFail m.addr
  else
    let s := s.modMeas m.addr fun x => { x with restarts := x.restarts + 1, mseq := none, busy := false }
    (s.count (cntHcr 2)).sendMeasure m

/-- R330: measurement record k of a STATUS payload: element, kind, value. -/
def mrecOf (pay : List Byte) (k : Nat) : Nat × Nat × Nat :=
  (fieldAt pay (48 + 8 * k) 2, fieldAt pay (50 + 8 * k) 2, fieldAt pay (52 + 8 * k) 4)

/-- R330, R331: a STATUS payload of a covered driver. -/
def State.measStatus (s : State) (a : Nat) (pay : List Byte) : State :=
  match s.measuring a with
  | none => s
  | some m =>
    let mseq := fieldAt pay 44 1
    let n := min 10 (fieldAt pay 45 1)
    let busy := bitAt (fieldAt pay 40 2) 3
    if n = 0 then s.modMeas a fun x => { x with busy := busy }
    else if m.mseq.any fun q => decide (mseq ≠ (q + 1) % 256) then s.measRestart m
    else
      let recs := (List.range n).map (mrecOf pay)
      let good := recs.filter fun r => decide (r.1 < 256 ∧ (r.2.1 = 1 ∨ r.2.1 = 2))
      let failed := recs.any fun r => decide (r.2.1 = 0x8001 ∨ r.2.1 = 0x8002)
      let got := (m.got.filter fun g => good.all fun r => decide (¬ (g.1 = r.1 ∧ g.2.1 = r.2.1))) ++ good
      let full := (List.range 256).all fun e => ({ m with got := got } : MeasDriver).has e
      s.modMeas a fun x =>
        { x with got := got, mseq := some mseq, busy := busy, result := if failed then 2 else if full then 1 else 0 }

/-- R331: a STATUS that fails its CRC while FLAGS bit 3 was last seen set restarts the measurement. -/
def State.measLostStatus (s : State) (a : Nat) : State :=
  match s.measuring a with
  | some m => if m.busy then s.measRestart m else s
  | none => s

/-- R331: a chain leaves READY, and its drivers are incomplete. -/
def State.measChainLost (s : State) (n : Nat) : State :=
  (List.range 8).foldl (fun s p => s.measFail (8 * n + p)) s

/-! ### What falls due (R335) -/

/-- R335: a strobe calibration is due. -/
def State.calDue (s : State) : Bool :=
  let last := s.getS Reg.HCR_CAL_TEMP_TEMP
  s.on Reg.HCR_CTRL_CAL_REQ || decide (last = -32768) ||
    decide ((s.get Reg.HCR_CAL_CTRL_CAL_DELTA : Int) < ((s.getS Reg.PWR_DIE_TEMP_TEMP - last).natAbs : Int))

/-- R335: a measurement of all drivers is due. -/
def State.measDue (s : State) : Bool :=
  let minutes := s.get Reg.HCR_CTRL_MEAS_INTERVAL
  s.on Reg.HCR_CTRL_MEAS_REQ || (decide (minutes ≠ 0) && decide (s.hcr.lastFull.getD 0 + 24000000000 * minutes ≤ s.tide))

/-- R335: the first item that is due: 1 calibration, 2 drivers unmeasured by serial, 3 all drivers, 4 a job. -/
def State.itemDue (s : State) : Option Nat :=
  if s.calDue then some 1
  else if ¬ s.hcr.unmeasured.isEmpty then some 2
  else if s.measDue then some 3
  else if ¬ s.hcr.jobs.isEmpty then some 4
  else none

end Sys2Proof.Machine
end

