-- ==== Sys2Proof/Machine/Link.lean ====
section
/-! DEFINITION. Head link: training, control frames, head time, outcomes, temperatures (R206 to R235, R249, R250). -/
namespace Sys2Proof.Machine

/-- The common payload of R234: chain, driver address and tick, all ones where they do not apply. -/
def hlkFields (n : Nat) (a tick : Option Nat) : List (Nat × Nat) :=
  [(1, n), (2, a.getD 0xFFFF), (6, tick.getD (2 ^ 48 - 1))]

/-! ### Chain states (R225, R226, R232) -/

/-- HLK_STATUS and HEAD_BLANK_N follow the chains. -/
def State.showChains (s : State) : State :=
  let n := ((List.range 128).filter fun i => decide (s.chainState i = 7)).length
  (s.puts [(Reg.HLK_STATUS_CHAINS_READY, n), (Reg.HLK_STATUS_ALL_READY, flag (decide (n = 128)))]).reblank

/-- A chain that leaves READY: its measurements, what it was in the run (R226, R331). -/
def State.leaveReady (s : State) (n : Nat) : State :=
  let open' := s.openStrip.isSome
  (s.measChainLost n).modChain n fun c => { c with lostInRun := c.lostInRun || open', recheck := false, reload := false }

/-- The control frames of a chain's drivers are dropped. -/
def State.dropCtrl (s : State) (n : Nat) : State :=
  (List.range 8).foldl (fun s p => s.modDriver (8 * n + p) fun d => { d with sent := none, waiting := [], answer := none }) s

/-- R246: a receive lane's input enters electrical idle: alignment is lost. -/
def State.inputIdle (s : State) (l : Nat) : State :=
  let s := if s.on (Reg.LNS_LANE_RX_ALIGNED l) then s.count (cntLns l 0) else s
  s.puts [(Reg.LNS_LANE_RX_ALIGNED l, 0), (Reg.LNS_LANE_RX_EIDLE l, 1)]

/-- A chain enters a training state. In DOWN its transmit lane is in electrical idle, and so is the ring behind it (R206, R246;
DEDUCED, log entry 60). -/
def State.chainTo (s : State) (n q : Nat) : State :=
  let old := s.chainState n
  let now := s.tide
  let train := if 1 ≤ q ∧ q ≤ 6 then trainSet q else []
  let s := (s.put (Reg.HLK_CHAIN_STATE_STATE n) q).modChain n fun c => { c with enteredAt := now, train := train }
  let s := if old = 7 ∧ q ≠ 7 then s.leaveReady n else s
  let s := if q = 0 ∨ q = 8 ∨ old = 7 then s.dropCtrl n else s
  let s := if q = 0 then s.inputIdle (128 + n) else s
  s.showChains

/-- HLK_CTRL.RETRAIN_REQ reads 1 until every requested chain has trained or failed. -/
def State.retrainDone (s : State) : State :=
  if s.link.chains.any (·.requested) then s else s.put Reg.HLK_CTRL_RETRAIN_REQ 0

/-- R225: a chain fails in its present state. -/
def State.trainFail (s : State) (n cause : Nat) : State :=
  let q := s.chainState n
  let s := (s.put (Reg.HLK_CHAIN_STATE_CAUSE n) cause).chainTo n 8
  let s := s.modChain n fun c => { c with requested := false }
  (s.retrainDone).raise 0x0602 (hlkFields n none none ++ [(1, q), (1, cause)])

/-- R232: a chain is lost: DOWN, CAUSE 8, 0x0604, and exposure ends at a break. -/
def State.chainLost (s : State) (n : Nat) : State :=
  let q := s.chainState n
  if q < 2 ∨ q = 8 then s
  else
    let last := (s.chain n).lastConfirmed
    let s := (((s.count (cntHlk n 7)).put (Reg.HLK_CHAIN_STATE_CAUSE n) 8).chainTo n 0).raise 0x0604
      (hlkFields n none none ++ [(6, last)])
    if q = 7 then s.hardwareStop 9 false else s

/-! ### The link budget (R220) -/

/-- R220: the greatest rate that one ring position allows, with D in 0.1 ns, the least trim that counts, and further
delay in 0.01 ns. -/
def positionLimit (p d : Nat) (t : Int) (extra : Nat) : Nat :=
  let k := (128 - t).toNat
  let tail := 5353 * (8 - p) + 40000 + 10 * d + 1600 + extra
  min 2000000 (min (divOr0 (k * 10 ^ 11) (64 * (13800 + tail))) (divOr0 ((k - 16) * 10 ^ 11) (64 * (500 + tail))))

/-- R220: the limit of a chain for a direction. -/
def State.chainLimit (s : State) (rf : RegFile) (backwash : Bool) (n : Nat) : Nat :=
  let t := (List.range 8).foldl (fun acc p =>
    let v := trimOf rf (rowOfDriver rf (8 * n + p))
    max acc (if backwash then v else -v)) (0 : Int)
  let extra := if s.on Reg.CSC_STATUS_SLAVE then 250 * s.get Reg.CSC_STATUS_LFIX else 0
  (List.range 8).foldl (fun acc p =>
    min acc (positionLimit p (s.get (Reg.HLK_DRV_LAT_D (8 * n + p))) t extra)) 2000000

/-- R220: the least limit of all chains, once every chain is READY; 0x060E when it changes, and a new plan of every
interval not yet begun when it becomes known or falls. -/
def State.linkLimit (s : State) : State :=
  if ¬ s.on Reg.HLK_STATUS_ALL_READY then s
  else
    let st := s.openStrip.orElse (fun _ => s.box.strips.head?)
    let rf := (st.map s.setup).getD s.regs
    let back := (st.map (·.backwash)).getD false
    let new := (List.range 128).foldl (fun acc n => min acc (s.chainLimit rf back n)) 2000000
    let old := s.get Reg.HLK_LINK_LIMIT_HZ
    if new = old then s
    else
      let s := (s.put Reg.HLK_LINK_LIMIT_HZ new).raise 0x060E (hlkFields 0xFF none none ++ [(4, new)])
      if old = 0 ∨ new < old then s.replan else s

/-! ### Control frames (R215, R231) -/

/-- R215: the arguments of SET_FACTORS for a driver. -/
def factorArgs (rf : RegFile) (a : Nat) : List Byte :=
  let f := driverFactors rf a
  (List.range 64).map fun i =>
    byteOf ((List.range 4).foldl (fun acc j => acc + f.getD (4 * i + j) 0 * 4 ^ j) 0)

/-- R215: the arguments of SET_CURVE for a driver. -/
def curveArgs (rf : RegFile) (a : Nat) : List Byte :=
  leBytes 2 (rfGet rf Reg.CCH_DWELL_SLOT) ++ leBytes 2 0 ++ (driverCurve rf a).flatMap (leBytes 2)

/-- R215: the factors that SET_FACTORS carries. -/
def argFactors (args : List Byte) : List Nat := (List.range 256).map fun e => fieldAt args (e / 4) 1 / 4 ^ (e % 4) % 4

/-- R215: the curve that SET_CURVE carries. -/
def argCurve (args : List Byte) : List Nat := (List.range 16).map fun i => fieldAt args (4 + 2 * i) 2

/-- R227: what the device knows of a driver after it has answered a control frame with OK. -/
def DriverConf.after (c : DriverConf) (o : CtrlOp) : DriverConf :=
  match o.opcode with
  | 3 => { c with factors := argFactors o.args }
  | 4 => { c with slotT := fieldAt o.args 0 2, curve := argCurve o.args }
  | 9 => { c with armed := decide (fieldAt o.args 0 1 = 1) }
  | _ => c

/-- R227: a driver is known to hold the factors, the slot and the curve of a set-up, and to be ARMED. -/
def State.driverHolds (s : State) (rf : RegFile) (a : Nat) : Bool :=
  let c := (s.driver a).conf
  c.armed && decide (c.factors = driverFactors rf a ∧ c.slotT = rfGet rf Reg.CCH_DWELL_SLOT ∧ c.curve = driverCurve rf a)

/-- R225, R227: SET_FACTORS, SET_CURVE and ARM to a driver. -/
def State.configDriver (s : State) (rf : RegFile) (a : Nat) : State :=
  ((s.queueCtrl a 3 (factorArgs rf a)).queueCtrl a 4 (curveArgs rf a)).queueCtrl a 9 (leBytes 1 1)

/-- R227: a driver is to be configured for a strip: its chain is READY and not being rechecked (R235), and it has not already
failed to be configured for the strip. -/
def State.configurable (s : State) (rf : RegFile) (aseq a : Nat) : Bool :=
  decide (s.chainState (a / 8) = 7) && !(s.chain (a / 8)).recheck && (s.driver a).quiet && !s.driverHolds rf a &&
    decide ((s.driver a).stuck ≠ some aseq)

/-- R227: the drivers whose held values differ from a strip's set-up are configured. -/
def State.configDrivers (s : State) (rf : RegFile) (aseq : Nat) : State :=
  (List.range 1024).foldl (fun s a => if s.configurable rf aseq a then s.configDriver rf a else s) s

/-- R242: taps that a transmitter may take. -/
def tapsOk (l : List Int) : Bool :=
  let p := l.getD 0 0
  let m := l.getD 1 0
  let q := l.getD 2 0
  decide (-15 ≤ p ∧ p ≤ 0 ∧ -31 ≤ q ∧ q ≤ 0 ∧ 24 ≤ m ∧ m ≤ 63 ∧ m - p - q ≤ 63)

/-- R215: a driver once both factors and curve have been received. -/
def Driver.configuredBy (d : Driver) : Driver :=
  if d.dstate = 1 ∧ d.gotFactors ∧ d.gotCurve then { d with dstate := 2 } else d

/-- R215, R218, R221, R243: what a driver does with a CTRL frame that it executes. -/
def Driver.execute (d : Driver) (o : CtrlOp) : Driver :=
  match o.opcode with
  | 3 => ({ d with gotFactors := true, factors := argFactors o.args } : Driver).configuredBy
  | 4 => ({ d with gotCurve := true, slotT := fieldAt o.args 0 2, curve := argCurve o.args } : Driver).configuredBy
  | 5 => { d with added := d.added + ((fieldAt o.args 4 8 : Int) - (d.latches.getLast?).getD 0), dstate := max d.dstate 1 }
  | 9 =>
    if fieldAt o.args 0 1 = 1 then (if d.dstate = 2 then { d with dstate := 3 } else d)
    else if fieldAt o.args 0 1 = 0 then (if d.dstate = 3 then { d with dstate := 2 } else d)
    else d
  | 10 => { d with nextTaps := some [sext 8 (fieldAt o.args 0 1), (fieldAt o.args 1 1 : Int), sext 8 (fieldAt o.args 2 1)] }
  | _ => d

/-- R242, R243: the RESULT of a driver's reply: of a TX_EQ that it received intact, by its taps. -/
def CtrlOp.resultOf (o : CtrlOp) (r : Nat) : Nat :=
  if o.opcode = 10 ∧ r ≠ 4 then
    if tapsOk [sext 8 (fieldAt o.args 0 1), (fieldAt o.args 1 1 : Int), sext 8 (fieldAt o.args 2 1)] then 0 else 2
  else r

/-- R215, R230: a CTRL frame reaches a driver: without a position it forwards it; the CSEQ of the last frame it executed is
answered again; one that it executes has RESULT 0, any other has no effect. -/
def Driver.hear (d : Driver) (o : CtrlOp) (r : Nat) : Driver :=
  let r := o.resultOf r
  if ¬ d.positioned then d
  else if r = 4 then { d with answer := some 4 }
  else if d.lastCseq = some o.cseq then { d with answer := some 0 }
  else if r = 0 then { d.execute o with lastCseq := some o.cseq, answer := some 0 }
  else { d with answer := some r }

/-- R243: a driver's REPLY has left: new taps apply. -/
def Driver.replied (d : Driver) : Driver := { d with taps := d.nextTaps.getD d.taps, nextTaps := none, answer := none }

/-- R215, R235: a driver's power is lost and restored: it restarts without position. -/
def Driver.restart (d : Driver) : Driver :=
  { d with
    positioned := false, dstate := 0, added := 0, latches := [], factors := [], slotT := 0, curve := [], gotFactors := false,
    gotCurve := false, taps := [-4, 51, -8], nextTaps := none, lastCseq := none, answer := none }

/-- Drivers of a chain, by ring position, whose power was lost and restored. -/
def State.restartDrivers (s : State) (n : Nat) (l : List (Fin 8)) : State :=
  l.foldl (fun (s : State) p => s.modDriver (8 * n + p.val) Driver.restart) s

/-- R31: a switch-over backlog remains, and control frames are held. -/
def State.heldBack31 (s : State) : Bool := decide (0 < s.couch.backlog)

/-- R209: the line slot of a chain is free for a control frame: no line is being sent, or the present one has carried none. -/
def State.slotFree (s : State) (n : Nat) : Bool := !natMem (s.get Reg.TID_TICK_STATE) [1, 3] || !(s.chain n).slotUsed

/-- R209 to R211, R215: the frame of a control operation on its way to a driver. -/
def ctrlFrame (a : Nat) (o : CtrlOp) : List Symbol :=
  wire (headFrame (if o.opcode = 1 then 3 else 2) (a % 8) 0 0 (leBytes 1 o.opcode ++ leBytes 1 o.cseq ++ leBytes 2 0 ++ o.args))

/-- R209, R215, R231: the device sends the control frame at the front of a driver's queue; `result` is the RESULT of the driver
that it reaches, none where it reaches no driver. -/
def State.sendCtrl (s : State) (a opcode : Nat) (result : Option Nat) : State :=
  let d := s.driver a
  let q := s.chainState (a / 8)
  match d.waiting, d.sent with
  | o :: rest, none =>
    if o.opcode = opcode ∧ 2 ≤ q ∧ q ≤ 7 ∧ ¬ s.heldBack31 ∧ s.slotFree (a / 8) then
      let o := { o with sentAt := s.headTime }
      (s.modChain (a / 8) fun c => { c with slotUsed := true }).modDriver a fun d =>
        let d := { d with sent := some o, waiting := rest, out := ctrlFrame a o, answer := none }
        match result with
        | some r => d.hear o r
        | none => d
    else s
  | _, _ => s

/-- R215, R225: DISCOVER is sent round a chain; every driver that it reaches takes its position and forgets its state. -/
def execDiscover (n : Fin 128) (heard : Bool) (s : State) : Out :=
  let a := 8 * n.val
  let s' := s.sendCtrl a 1 none
  if heard ∧ (s'.driver a).sent.any (fun o => decide (o.opcode = 1)) ∧ (s.driver a).sent.isNone then
    .next ((List.range 8).foldl (fun s p => s.modDriver (a + p) fun d =>
      { d with positioned := true, dstate := 0, added := 0, factors := [], slotT := 0, curve := [],
               gotFactors := false, gotCurve := false }) s')
  else .next s'

/-- The number of a RESULT. -/
def resultNat (r : Option (Fin 5)) : Option Nat := r.map fun x => x.val

/-- R215: IDENT. -/
def execIdent (a : Fin 1024) (result : Option (Fin 5)) (s : State) : Out := .next (s.sendCtrl a 2 (resultNat result))

/-- R215: SET_FACTORS. -/
def execSetFactors (a : Fin 1024) (result : Option (Fin 5)) (s : State) : Out := .next (s.sendCtrl a 3 (resultNat result))

/-- R215: SET_CURVE. -/
def execSetCurve (a : Fin 1024) (result : Option (Fin 5)) (s : State) : Out := .next (s.sendCtrl a 4 (resultNat result))

/-- R221: TIME_LOAD. -/
def execTimeLoad (a : Fin 1024) (result : Option (Fin 5)) (s : State) : Out := .next (s.sendCtrl a 5 (resultNat result))

/-- R215: TIME_READ. -/
def execTimeRead (a : Fin 1024) (result : Option (Fin 5)) (s : State) : Out := .next (s.sendCtrl a 6 (resultNat result))

/-- R330: MEASURE; the first of a run starts its time limit (R331). -/
def execMeasure (a : Fin 1024) (result : Option (Fin 5)) (s : State) : Out :=
  let s' := s.sendCtrl a 7 (resultNat result)
  match s'.hcr.run with
  | some r =>
    if (s'.driver a).sent.any (fun o => decide (o.opcode = 7)) ∧ r.startedAt.isNone then
      .next { s' with hcr := { s'.hcr with run := some { r with startedAt := some s'.tide } } }
    else .next s'
  | none => .next s'

/-- R215: RECORD_READ. -/
def execRecordRead (a : Fin 1024) (result : Option (Fin 5)) (s : State) : Out := .next (s.sendCtrl a 8 (resultNat result))

/-- R215: ARM. -/
def execArm (a : Fin 1024) (result : Option (Fin 5)) (s : State) : Out := .next (s.sendCtrl a 9 (resultNat result))

/-- R243, R249: TX_EQ, from ring position 7 down to 0. -/
def execTxEq (a : Fin 1024) (result : Option (Fin 5)) (s : State) : Out :=
  let later := (List.range (7 - a.val % 8)).any fun (i : Nat) => (s.driver (a.val + 1 + i)).waiting.any fun o => decide (o.opcode = 10)
  if later then .next s else .next (s.sendCtrl a 10 (resultNat result))

/-! ### Head time (R221, R222) -/

/-- R221, steps 4 to 6: D(p) of every driver of a chain from the round trips; TIME_LOAD and TIME_READ follow. -/
def State.applyTime (s : State) (n : Nat) : State :=
  let c := s.chain n
  let sum : Nat := c.rts.foldl (fun x y => x + y) 0
  let fwd (p : Nat) : Nat := s.get (Reg.HLK_DRV_LAT_FWD (8 * n + p))
  let total := (List.range 8).foldl (fun acc p => acc + fwd p) 0
  let s0 := s.put (Reg.HLK_CHAIN_STATE_RT n) (roundHalfUp (sum : Int) 8).toNat
  (List.range 8).foldl (fun s p =>
    let a := 8 * n + p
    let before := (List.range p).foldl (fun acc i => acc + fwd i) 0
    let d : Int := (before : Int) + roundHalfUp (((p : Int) + 1) * ((sum : Int) - 8 * total)) 72 + s.getS (Reg.HLK_SKEW_SKEW a)
    let s := s.put (Reg.HLK_DRV_LAT_D a) (wrapInt 16 d)
    let args := leBytes 1 7 ++ leBytes 3 0 ++ leBytes 8 (wrapInt 64 ((c.hTx : Int) + d))
    (s.queueCtrl a 5 args).queueCtrl a 6 []) s0

/-- R221: a SYNC marker returns: the round trip, and each driver's latch of it. -/
def execSyncMarkerReturn (n : Fin 128) (rt : BitVec 16) (latches : List (BitVec 54)) (s : State) : Out :=
  let c := s.chain n
  let q := s.chainState n
  if ¬ (q = 5 ∨ (q = 7 ∧ c.recheck)) ∨ 8 ≤ c.rts.length then .next s
  else
    let s := (List.range 8).foldl (fun s p => s.modDriver (8 * n.val + p) fun d =>
      { d with latches := (d.latches ++ [((latches.getD p 0#54).toNat)]).drop (d.latches.length - 7) }) s
    let rts := c.rts ++ [rt.toNat]
    let h := s.headTime
    let s := s.modChain n fun c =>
      { c with rts := rts, hTx := (h + 2 ^ 64 - rt.toNat) % 2 ^ 64, sync := syncSet c.rts.length }
    if rts.length < 8 then .next s
    else if rts.foldl max 0 - rts.foldl min (rts.headD 0) ≤ 10 then
      if q = 5 then .next (s.applyTime n)
      else .next ((List.range 8).foldl (fun s p => s.queueCtrl (8 * n.val + p) 6 []) s)
    else
      let s := s.modChain n fun c => { c with rts := [], timeTries := c.timeTries + 1 }
      if c.timeTries + 1 < 3 then .next s
      else if q = 5 then .next (s.trainFail n 5)
      else .next (s.modChain n fun c => { c with recheck := false })

/-- R222: every RECHECK seconds in SLACK, head time is rechecked on each chain. -/
def execHeadTimeRecheck (s : State) : Out :=
  let period := 400000000 * s.get Reg.HLK_TIME_CTRL_RECHECK
  if s.get Reg.EXP_STATE_STATE = 2 ∧ period ≠ 0 ∧ s.link.recheckAt + period ≤ s.tide then
    let s := { s with link := { s.link with recheckAt := s.tide } }
    .next ((List.range 128).foldl (fun s n =>
      if s.chainState n = 7 ∧ ¬ (s.chain n).recheck then
        s.modChain n fun c => { c with recheck := true, rts := [], timeTries := 0 }
      else s) s)
  else .next s

/-! ### Receivers (R237, R244, R247) -/

/-- R244: a window of 256 symbols with so many qualifying transitions qualifies. -/
def State.qualifies (s : State) (w : BitVec 12) : Bool := decide (10 * s.get Reg.LNS_ADAPT_TD_MIN ≤ w.toNat)

/-- R237, R244, R255: what a receiver has seen: symbol errors on a head lane, frozen windows, and the equaliser's code after a
window that qualifies. -/
def State.sees (s : State) (l : Nat) (x : RxSeen) : State :=
  let frozen := (x.windows.filter fun w => !s.qualifies w).length
  let code := if x.windows.any s.qualifies then x.ctle.toNat else s.get (Reg.LNS_LANE_RX_CTLE l)
  let last := match x.windows.getLast? with
    | some w => flag (!s.qualifies w)
    | none => s.get (Reg.LNS_LANE_RX_FROZEN l)
  let s := (s.puts [(Reg.LNS_LANE_RX_CTLE l, code), (Reg.LNS_LANE_RX_FROZEN l, last)]).countBy (cntLns l 1) frozen
  if 128 ≤ l ∧ l < 256 then s.countBy (cntHlk (l - 128) 0) x.errors.toNat else s

/-- R247: a receiver may declare alignment: its input was not in electrical idle, or it has received 4.0 µs of qualifying
windows, 10,312.5 symbols. -/
def State.adapted (s : State) (l : Nat) (x : RxSeen) : Bool :=
  !s.on (Reg.LNS_LANE_RX_EIDLE l) || decide (10313 ≤ 256 * (x.windows.filter s.qualifies).length)

/-! ### Training (R225, R226, R249, R250) -/

/-- R242: the device's presets. -/
def presets : List (Nat × Int × Nat × Int) :=
  [(0, 0, 63, 0), (1, 0, 55, -8), (2, 0, 51, -12), (3, -4, 51, -8), (4, -4, 47, -12), (5, -6, 41, -16), (6, -8, 43, -12),
   (7, -8, 35, -20)]

/-- R242, R255: a preset in force on a transmit lane. -/
def State.usePreset (s : State) (lane k : Nat) : State :=
  match presets.find? fun p => decide (p.1 = k) with
  | some (_, pre, main, post) =>
    s.puts [(Reg.LNS_LANE_TX_PRESET lane, k), (Reg.LNS_LANE_TX_PRE lane, wrapInt 8 pre), (Reg.LNS_LANE_TX_MAIN lane, main),
      (Reg.LNS_LANE_TX_POST lane, wrapInt 8 post)]
  | none => s

/-- R249: the order in which presets are tried. -/
def presetOrder : List Nat := [3, 4, 2, 5, 1, 6, 0, 7]

/-- R249, step 5: the preset of try k, from the first one on, round the order. -/
def presetTry (first k : Nat) : Nat :=
  let i := (presetOrder.findIdx? fun x => decide (x = first)).getD 0
  presetOrder.getD ((i + k) % 8) 0

/-- R249, steps 1 and 2: EQ begins on a chain. -/
def State.startEq (s : State) (n : Nat) (again : Bool) : State :=
  let first := s.get (Reg.LNS_LANE_CTRL_PRESET n)
  let s := (s.chainTo n 2).usePreset n first
  let s := s.modChain n fun c =>
    { c with eqFirst := first, eqTry := 0, eqStep := 0, again := again, deferred := if again then c.deferred else [] }
  (List.range 8).foldl (fun s p =>
    let a := 8 * n + p
    s.queueCtrl a 10 (leBytes 1 (s.get (Reg.LNS_HOP_EQ_PRE a)) ++ leBytes 1 (s.get (Reg.LNS_HOP_EQ_MAIN a)) ++
      leBytes 1 (s.get (Reg.LNS_HOP_EQ_POST a)))) s

/-- R239: the written spread is applied while every chain is DOWN. -/
def State.applySsc (s : State) : State :=
  if (List.range 128).all fun n => decide (s.chainState n = 0) then
    let t := s.put Reg.LNS_REF_CTRL_SSC_APPLIED (s.get Reg.LNS_REF_CTRL_SSC)
    let now : Int := 64 * s.tide
    { t with headTime0 := wrapInt 64 (t.headTime0 + s.headOf now - t.headOf now) }
  else s

/-- R226: why a chain may begin to train now. -/
def State.mayTrain (s : State) (n : Nat) : Bool :=
  let q := s.get Reg.EXP_STATE_STATE
  let c := s.chain n
  c.requested || (decide (q = 2) && s.on Reg.HLK_CTRL_AUTO_RETRAIN) || decide (q = 0) ||
    (c.lostInRun && decide (q = 2 ∨ q = 6))

/-- R225, R226, R246: a chain that is DOWN or FAILED can be trained now. -/
def State.canTrain (s : State) (n : Nat) : Bool :=
  s.mayTrain n && s.domainOn (10 + n / 64) && s.on Reg.LNS_STATUS_HEAD_LOCK && !s.on (Reg.LNS_LANE_CTRL_EIDLE n) &&
    !s.lanes.loop.any fun l => decide (l.1 = n)

/-- R245, R247: a lane transmits a qualifying window now. -/
def State.qualSent (s : State) (l : Nat) : State :=
  { s with lanes := { s.lanes with qualAt := listSet s.lanes.qualAt l s.tide } }

/-- R225, R226, R247: training of a chain starts from DOWN, or from FAILED, with a re-adapt burst. -/
def execChainTrainStart (n : Fin 128) (s : State) : Out :=
  let q := s.chainState n
  if (q = 0 ∨ q = 8) ∧ s.canTrain n then
    let s := (s.applySsc).qualSent n
    let s := (s.put (Reg.HLK_CHAIN_STATE_CAUSE n) 0).count (cntLns n 3)
    let s := s.modChain n fun c => { c with discoverTries := 0, timeTries := 0, rts := [], deferred := [], again := false }
    .next (s.chainTo n 1)
  else .next s

/-- R225, R247, R248: 1,024 IDLE received without error: the receiver is aligned, where its input has come out of electrical
idle only after 4.0 µs of qualifying windows, and EQ begins. -/
def execChainAlignDone (n : Fin 128) (found : Alignment) (s : State) : Out :=
  let l := 128 + n.val
  if s.chainState n ≠ 1 ∨ ¬ s.adapted l found.seen then .next s
  else
    let s := s.sees l found.seen
    let inv := if s.on (Reg.LNS_LANE_CTRL_RX_INV_AUTO l) then found.inverted else s.on (Reg.LNS_LANE_CTRL_RX_INV l)
    let s := s.puts [(Reg.LNS_LANE_RX_ALIGNED l, 1), (Reg.LNS_LANE_RX_EIDLE l, 0), (Reg.LNS_LANE_RX_INVERTED l, flag inv)]
    .next (s.startEq n false)

/-- R249: EQ fails, with 0x0703 and cause 2. -/
def State.eqFail (s : State) (n : Nat) : State :=
  let l := 128 + n
  (s.raise 0x0703 [(2, n), (4, s.get (Reg.LNS_LANE_RX_EYE_H l)), (4, s.get (Reg.LNS_LANE_RX_EYE_V l))]).trainFail n 2

/-- R225: the time limit of a training state passes: 10 ms of ALIGN, 50 ms of EQ. -/
def execChainTrainTimeout (n : Fin 128) (s : State) : Out :=
  let q := s.chainState n
  let since := s.tide - (s.chain n).enteredAt
  if q = 1 ∧ 4000000 ≤ since then .next (s.trainFail n 1)
  else if q = 2 ∧ 20000000 ≤ since then .next (s.eqFail n)
  else .next s

/-- R249, step 3: the drivers' 2 ms end. -/
def execEqAdaptWaitEnd (n : Fin 128) (s : State) : Out :=
  if s.chainState n = 2 ∧ (s.chain n).eqStep = 1 then .next (s.modChain n fun c => { c with eqStep := 2 }) else .next s

/-- R249, step 3: the 1 ms of the device's own receiver end, and the check of 2^24 symbols begins. -/
def execReceiverAdaptEnd (n : Fin 128) (seen : RxSeen) (s : State) : Out :=
  if s.chainState n = 2 ∧ (s.chain n).eqStep = 2 then
    .next ((s.sees (128 + n) seen).modChain n fun c => { c with eqStep := 3 })
  else .next s

/-- R225: DISCOVER with COUNT 0 is to be sent round a chain. -/
def State.startDiscover (s : State) (n : Nat) : State := (s.chainTo n 3).queueCtrl (8 * n) 1 (leBytes 1 0)

/-- R249, steps 1, 4 and 5: a check of 2^24 symbols ends with its symbol errors and the eye margins; `bursts` counts the tune
bursts that the try has sent. -/
def execEqTryEnd (n : Fin 128) (found : EqCheck) (eyeH : BitVec 6) (eyeV : Byte) (s : State) : Out :=
  let c := s.chain n
  let l := 128 + n.val
  if s.chainState n ≠ 2 ∨ c.eqStep ≠ 3 then .next s
  else
    let s := ((s.sees l found.seen).countBy (cntLns n 2) found.bursts.toNat).puts
      [(Reg.LNS_LANE_RX_EYE_H l, eyeH.toNat), (Reg.LNS_LANE_RX_EYE_V l, eyeV.toNat)]
    if found.seen.errors.toNat = 0 ∧ s.get Reg.LNS_EQ_MIN_EYE_H ≤ eyeH.toNat ∧ s.get Reg.LNS_EQ_MIN_EYE_V ≤ eyeV.toNat then
      .next (s.startDiscover n)
    else if c.eqTry = 7 then .next (s.eqFail n)
    else
      let k := presetTry c.eqFirst (c.eqTry + 1)
      let s := (s.usePreset n k).modChain n fun c => { c with eqTry := c.eqTry + 1, eqStep := 1 }
      .next (s.raise 0x0702 [(2, n.val), (4, k), (4, eyeH.toNat), (4, eyeV.toNat)])

/-- R250: a READY chain with pending positions is trained once more from EQ. -/
def execEqDeferredRetrain (n : Fin 128) (s : State) : Out :=
  let c := s.chain n
  if s.chainState n = 7 ∧ c.deferred ≠ [] ∧ ¬ c.again ∧ s.get Reg.EXP_STATE_STATE < 3 then
    let mask := c.deferred.foldl (fun m p => setBit m p true) 0
    let s := s.modChain n fun c => { c with discoverTries := 0, timeTries := 0, rts := [] }
    .next ((s.raise 0x0704 [(2, n.val), (4, mask)]).startEq n true)
  else .next s

/-- R225: a chain enters READY. -/
def State.enterReady (s : State) (n : Nat) : State :=
  let now := s.tide
  let s := (s.chainTo n 7).modChain n fun c => { c with requested := false, lostInRun := false, silent := 0, polledAt := now, polls := 0 }
  let s := (List.range 8).foldl (fun s p => s.modDriver (8 * n + p) fun d => { d with statusAt := now }) s
  let s := s.raise 0x0601 (hlkFields n none none ++ [(4, s.get (Reg.HLK_CHAIN_STATE_RT n))])
  (s.retrainDone).linkLimit

/-- The drivers of a chain have no control frame waiting or outstanding. -/
def State.chainQuiet (s : State) (n : Nat) : Bool := (List.range 8).all fun p => (s.driver (8 * n + p)).quiet

/-- R222, R225: a chain whose control frames have all been answered goes on; a recheck that has found drift reloads the chain
before it ends. -/
def State.advance (s : State) (n : Nat) : State :=
  if ¬ s.chainQuiet n then s
  else
    let c := s.chain n
    match s.chainState n with
    | 2 => if c.eqStep = 0 then s.modChain n fun c => { c with eqStep := 1 } else s
    | 4 => (s.judgeHold).chainTo n 5
    | 5 =>
      if c.rts.length = 8 then
        (List.range 8).foldl (fun s p => s.configDriver s.regs (8 * n + p)) (s.chainTo n 6)
      else s
    | 6 => s.enterReady n
    | 7 =>
      if c.recheck ∧ c.rts.length = 8 then
        if c.reload then (s.modChain n fun c => { c with reload := false }).applyTime n
        else s.modChain n fun c => { c with recheck := false }
      else s
    | _ => s

/-! ### Outcomes (R192, R228, R321) -/

/-- R321: the marks whose every line has its FIRED record become repaired; 0x0A0A when none is open. -/
def State.settleRepairs (s : State) (st : Strip) : State :=
  let done (m : Mark) : Bool := m.isOpen && (s.markLines st m).all fun p => s.link.repaired.any fun q => decide (q = p)
  let n := ((s.ledgerAt st.slot).marks.filter done).length
  if n = 0 then s
  else
    let s := s.modLedger st.slot fun l =>
      { l with marks := l.marks.map fun (m : Mark) => if done m then { m with state := 1 } else m }
    let s := s.countBy (cntExp 4) n
    let s := s.releaseRepaired st
    if s.openMarks st.slot = 0 then
      s.raise 0x0A0A (s.expFields st.slot ++
        [(4, ((s.ledgerAt st.slot).marks.filter fun m => decide (m.state = 1 ∧ m.kind ≠ 1)).length)])
    else s

/-- R520: the ECHO packet of a record. -/
def State.traceEcho (s : State) (a tag outcome echo : Nat) : State :=
  s.trace 8 (leBytes 2 a ++ leBytes 1 outcome ++ leBytes 1 tag ++ leBytes 4 echo)

/-- R192: an echo fails on the new path within CONFIRM_LINES of its chain's first frame there. -/
def State.pathEcho (s : State) (l : OpenLine) : State :=
  let n := l.driver / 8
  match s.couch.chainFrom.getD n none with
  | some from' =>
    let k := (l.tick + 2 ^ 48 - from') % 2 ^ 48
    if l.newPath ∧ ¬ s.couch.pathJudged ∧ k < s.get Reg.HLK_ARB_CTRL_CONFIRM_LINES then
      let s := { s with couch := { s.couch with pathJudged := true } }
      let s := s.raise 0x0506 (cchFields s.openSlot l.tick (some n) (some l.driver) ++ [(1, n), (4, k + 1)])
      let s := match s.couchWith 0 with
        | some c => s.loseCouch c 4
        | none => s
      s.promptStop 8
    else s
  | none => s

/-- R197: a frame of a swap test is not confirmed: couch, chain and step. -/
def State.testFails (s : State) (couch chain step : Nat) : State :=
  match s.couch.test with
  | none => s
  | some t => { s with couch := { s.couch with test := some { t with failures := t.failures ++ [(couch, chain, step)] } } }

/-- R197: the outcome of a test line. -/
def State.testEcho (s : State) (l : OpenLine) (ok : Bool) : State :=
  if ok then s
  else match s.couch.test with
    | none => s
    | some t => s.testFails (if l.newPath then t.second else t.first) (l.driver / 8) (if l.newPath then 4 else 2)

/-- R228: what an outcome other than FIRED, BLANKED or CUT does for a service line. -/
def State.echoMark (s : State) (l : OpenLine) (outcome : Nat) : State :=
  let n := l.driver / 8
  let s := s.pathEcho l
  let s := if l.repair then s
    else match s.openStrip with
      | some st =>
        let s := s.driverMark st.slot l.driver l.tick (if l.newPath then 7 else 8)
        if l.newPath then s else s.count (cntHlk n 5)
      | none => s
  s.raise 0x0605 (hlkFields n (some l.driver) (some l.tick) ++ [(4, outcome)])

/-- The machine with an outcome of the run noted (R317). -/
def State.noteOutcome (s : State) (a tick outcome : Nat) : State :=
  { s with link := { s.link with outcomes := s.link.outcomes ++ [(a, tick, outcome)] } }

/-- R234: a line is the last one confirmed on its chain. -/
def State.confirmed (s : State) (l : OpenLine) : State :=
  s.modChain (l.driver / 8) fun c => { c with lastConfirmed := l.tick }

/-- R228, R321: a primary record of a service line. -/
def State.serviceEcho (s : State) (l : OpenLine) (tag outcome echo : Nat) : State :=
  let n := l.driver / 8
  if outcome = 1 ∧ echo = l.crc then
    let s := (s.confirmed l).noteOutcome l.driver l.tick (if l.zero then 17 else 1)
    match s.openStrip with
    | some st =>
      if l.repair ∧ ¬ l.blank then
        ({ s with link := { s.link with repaired := s.link.repaired ++ [(l.driver, l.tick)] } }).settleRepairs st
      else s
    | none => s
  else
    let s := s.traceEcho l.driver tag outcome echo
    if outcome = 1 then
      let s := (s.noteOutcome l.driver l.tick 16).pathEcho l
      (s.raise 0x0606 (hlkFields n (some l.driver) (some l.tick) ++ [(4, l.crc), (4, echo)])).promptStop 10
    else if outcome = 2 then s.noteOutcome l.driver l.tick 2
    else (s.noteOutcome l.driver l.tick outcome).echoMark l outcome

/-- R228, R322: a CUT record, which follows the FIRED record of its line. -/
def State.cutRecord (s : State) (a tag echo : Nat) : State :=
  let s := s.traceEcho a tag 3 echo
  match (s.link.outcomes.filter fun o => decide (o.1 = a ∧ o.2.1 % 4 = tag ∧ o.2.2 ≠ 3)).getLast? with
  | none => s
  | some (_, tick, _) =>
    let s := s.noteOutcome a tick 3
    let s := match s.openStrip with
      | some st => s.modStrip st.slot fun x => { x with cuts := x.cuts ++ [(a, tick)] }
      | none => s
    s.raise 0x0608 (hlkFields (a / 8) (some a) (some tick))

/-- R228: one outcome record of a driver. A primary record belongs to the oldest open line of its TAG. -/
def State.outcomeRecord (s : State) (a tag outcome echo : Nat) : State :=
  if outcome = 0 ∨ 9 < outcome then s
  else if outcome = 3 then s.cutRecord a tag echo
  else match s.link.lines.find? fun l => decide (l.driver = a ∧ l.tick % 4 = tag) with
    | none => s
    | some l =>
      let left := s.link.lines.filter fun x => decide (¬ (x.driver = a ∧ x.tick = l.tick))
      let s := { s with link := { s.link with lines := left } }
      match l.kind with
      | 0 => s.serviceEcho l tag outcome echo
      | 1 =>
        let ok := decide (outcome = 2 ∧ echo = l.crc)
        let s := if ok then s.confirmed l else s
        (s.traceEcho a tag outcome echo).testEcho l ok
      | _ => s.traceEcho a tag outcome echo

/-- R228: an open line's record is overdue: ECHO_LINES further lines have gone, or, at the end of a strip or a break, POLL rounds
in their place. -/
def State.lineDue (s : State) (l : OpenLine) : Bool :=
  decide ((s.get Reg.HLK_CTRL_ECHO_LINES : Int) ≤ signedDiff 48 s.link.lastTick l.tick + (s.chain (l.driver / 8)).polls)

/-- R228: lines of a driver that are still unknown after RECORD_READ. -/
def State.unknownLines (s : State) (a : Nat) : State :=
  let due (l : OpenLine) : Bool := decide (l.driver = a) && s.lineDue l
  match s.link.lines.filter due with
  | [] => s
  | l :: more =>
    let all := l :: more
    let s := { s with link := { s.link with lines := s.link.lines.filter fun x => !due x } }
    let s := all.foldl (fun s x => match x.kind with
      | 0 => ({ s with link := { s.link with unresolved := s.link.unresolved ++ [(a, x.tick)] } }).pathEcho x
      | 1 => s.testEcho x false
      | _ => s) s
    let n := (all.filter fun x => decide (x.kind = 0)).length
    if n = 0 then s
    else (s.raise 0x0607 (hlkFields (a / 8) (some a) (some l.tick) ++ [(4, n)])).promptStop 10

/-- R214: a record's fields at an offset of a payload: TAG, OUTCOME, RSEQ, ECHO. -/
def recordAt (pay : List Byte) (off : Nat) : Nat × Nat × Nat × Nat :=
  (fieldAt pay off 1, fieldAt pay (off + 1) 1, fieldAt pay (off + 2) 2, fieldAt pay (off + 4) 4)

/-- RSEQ r continues from the one expected, within the 16 that RECORD_READ can show. -/
def rseqFresh (expected r : Nat) : Bool := decide ((r + 65536 - expected) % 65536 < 16)

/-- R228: a record in its turn: it is taken, and the next RSEQ is expected. -/
def State.takeOutcome (s : State) (a : Nat) (r : Nat × Nat × Nat × Nat) : State :=
  let d := s.driver a
  let next := (r.2.2.1 + 1) % 65536
  if d.oldRseq.any (fun q => rseqFresh q r.2.2.1) then
    (s.modDriver a fun d => { d with oldRseq := some next }).outcomeRecord a r.1 r.2.1 r.2.2.2
  else if rseqFresh d.rseq r.2.2.1 then
    (s.modDriver a fun d => { d with rseq := next, oldRseq := none }).outcomeRecord a r.1 r.2.1 r.2.2.2
  else s

/-- R228: the records of a STATUS; a gap in RSEQ asks for RECORD_READ. -/
def State.statusRecords (s : State) (a : Nat) : List (Nat × Nat × Nat × Nat) → State
  | [] => s
  | r :: rest =>
    if r.2.1 = 0 then State.statusRecords s a rest
    else
      let d := s.driver a
      if d.rseq = r.2.2.1 ∨ d.oldRseq = some r.2.2.1 then State.statusRecords (s.takeOutcome a r) a rest
      else if d.owes 8 then s
      else s.queueCtrl a 8 []

/-! ### Temperatures (R229, R284) -/

/-- R284: the planned rate of a strip's first interval not yet begun; 2.000 MHz while it has no plan. -/
def State.nextRate (s : State) (st : Strip) : Nat :=
  let rf := s.setup st
  match (intervalsOf rf st.backwash (s.linesOf st)).find? fun r => !s.begun284 st.slot r with
  | some r => ((s.planOf st.slot r).map (·.rate)).getD 2000000
  | none => 2000000

/-- The planned rate that R284 takes the temperature limit from. -/
def State.derateFrom (s : State) : Nat :=
  match s.intervalInForce with
  | some (slot, r) => ((s.planOf slot r).map (·.rate)).getD 2000000
  | none => match s.openStrip.orElse (fun _ => s.box.strips.head?) with
    | some st => s.nextRate st
    | none => 2000000

/-- R284: the temperature limit is set, and every interval not yet begun is planned again. -/
def State.derate (s : State) : State :=
  let f := s.derateFrom * s.get Reg.TID_GOV_TEMP_PCT / 256
  let s := ({ s with tid := { s.tid with tempLimit := some f } }).count (cntTid 7)
  (s.raise 0x080E (s.tideFields s.openSlot ++ [(4, f)])).replan

/-- R229: the hottest present sensor of a STATUS payload: sensor and value. -/
def hottest (pay : List Byte) : Option (Nat × Int) :=
  (List.range 4).foldl (fun acc i =>
    let v := fieldAt pay (24 + 2 * i) 2
    if v = 0x8000 then acc
    else match acc with
      | some (j, w) => if w < sext 16 v then some (i, sext 16 v) else some (j, w)
      | none => some (i, sext 16 v)) none

/-- R307: every driver's hottest sensor lies below WARN. -/
def State.allCool (s : State) : Bool := s.link.drivers.all fun d => !d.aboveWarn

/-- R284: the temperature limit is lifted in SLACK or NEAP with every driver below WARN. -/
def State.liftTemp (s : State) : State :=
  let q := s.get Reg.EXP_STATE_STATE
  if s.tid.tempLimit.isSome ∧ (q = 1 ∨ q = 2) ∧ s.allCool then { s with tid := { s.tid with tempLimit := none } } else s

/-- R229, R284: a driver's hottest sensor against WARN and LIMIT; `raw` is the value as the events carry it. -/
def State.temperature (s : State) (a sensor raw : Nat) (atLimit : Bool) (v : Int) : State :=
  let d := s.driver a
  let warn := s.getS Reg.HLK_TEMP_WARN
  let fields := hlkFields (a / 8) (some a) none ++ [(1, sensor), (2, raw)]
  let hot := atLimit || decide (warn ≤ v)
  let excess := atLimit || decide (s.getS Reg.HLK_TEMP_LIMIT ≤ v)
  let s := s.modDriver a fun d =>
    { d with aboveWarn := hot, limited := excess,
             rearmed := if hot then false else d.rearmed || decide (v ≤ warn - 16) }
  let s := if hot ∧ ¬ d.aboveWarn then s.raise 0x0609 fields else s
  let s := if hot ∧ ¬ d.aboveWarn ∧ d.rearmed then s.derate else s
  let s := if excess ∧ ¬ d.limited then (s.raise 0x060A fields).promptStop 4 else s
  s.liftTemp

/-! ### STATUS, REPLY and their absence -/

/-- R233: the increments of a driver's wrapping counters. -/
def State.driverCounters (s : State) (a : Nat) (pay : List Byte) : State :=
  let n := a / 8
  let new := (fieldAt pay 32 2, fieldAt pay 36 2, fieldAt pay 38 2)
  let s' := s.modDriver a fun d => { d with counters := some new }
  match (s.driver a).counters with
  | none => s'
  | some (c, l, t) =>
    ((s'.countBy (cntHlk n 2) ((new.1 + 65536 - c) % 65536)).countBy (cntHlk n 3) ((new.2.1 + 65536 - l) % 65536)).countBy
      (cntHlk n 4) ((new.2.2 + 65536 - t) % 65536)

/-- R213, R228 to R233: the payload of a driver's STATUS. -/
def State.takeStatus (s : State) (a : Nat) (pay : List Byte) : State :=
  let now := s.tide
  let s := (s.modChain (a / 8) fun c => { c with silent := 0 }).modDriver a fun d => { d with statusAt := now }
  let s := s.driverCounters a pay
  let s := s.statusRecords a [recordAt pay 4, recordAt pay 12]
  let s := match hottest pay with
    | some (i, v) => (s.put (Reg.HLK_DRV_INFO_TEMP a) (wrapInt 16 v)).temperature a i (wrapInt 16 v) false v
    | none => s.put (Reg.HLK_DRV_INFO_TEMP a) 0x8000
  s.measStatus a pay

/-- R213, R228 to R233: a frame returns in the place of a driver's STATUS, with what its receiver has seen. One that is not
whole, or whose CRC is wrong, counts; only a STATUS of the driver's position is read. -/
def execStatusFrame (a : Fin 1024) (seen : RxSeen) (frame : List Symbol) (s : State) : Out :=
  let n := a.val / 8
  if s.chainState n ≠ 7 then .next s
  else
    let s := s.sees (128 + n) seen
    match unwire frame with
    | none => .next ((s.count (cntHlk n 1)).measLostStatus a)
    | some body => .next (if frameType body = 4 ∧ framePos body = a.val % 8 then s.takeStatus a (body.drop 4) else s)

/-- R229: no STATUS of a driver for 1 ms while its chain is READY counts as LIMIT. -/
def execDriverStatusStale (a : Fin 1024) (s : State) : Out :=
  if s.chainState (a.val / 8) = 7 ∧ (s.driver a).statusAt + 400000 ≤ s.tide then
    .next (s.temperature a 0xFF 0x8000 true 0)
  else .next s

/-- R228: a line's primary record has not arrived within ECHO_LINES, and RECORD_READ is sent. -/
def execEchoMissing (a : Fin 1024) (s : State) : Out :=
  if s.chainState (a.val / 8) = 7 ∧ ¬ (s.driver a).owes 8 ∧
      s.link.lines.any (fun l => decide (l.driver = a.val) && s.lineDue l) then .next (s.queueCtrl a 8 [])
  else .next s

/-- R227: a driver could not be configured for the strip that waits: what was still to be sent to it is dropped, and the strip
is held. -/
def State.unconfigurable (s : State) (a : Nat) : State :=
  match s.openStrip.orElse fun _ => s.box.strips.head? with
  | some st => s.modDriver a fun d => { d with stuck := some st.aseq, waiting := [] }
  | none => s

/-- R225, R231: a control frame has failed after its retries, or was refused; `result` is the last RESULT. -/
def State.ctrlFailed (s : State) (a : Nat) (o : CtrlOp) (result : Nat) : State :=
  let n := a / 8
  let s := s.raise 0x060B (hlkFields n (some a) none ++ [(1, o.opcode), (4, result)])
  match s.chainState n with
  | 3 => s.trainFail n 3
  | 4 => s.trainFail n 4
  | 5 => s.trainFail n 6
  | 6 => s.trainFail n 7
  | 7 =>
    if o.opcode = 8 then s.unknownLines a
    else if o.opcode = 7 then s.measFail a
    else (if natMem o.opcode [3, 4, 9] then s.unconfigurable a else s).advance n
  | _ => s.advance n

/-- R231, R249: a control frame is sent again under its CSEQ, up to 3 retries. -/
def State.ctrlRetry (s : State) (a : Nat) (o : CtrlOp) (result : Nat) : State :=
  let n := a / 8
  let s := s.modDriver a fun d => { d with sent := none }.replied
  if o.opcode = 1 then
    let tries := (s.chain n).discoverTries + 1
    let s := s.modChain n fun c => { c with discoverTries := tries }
    if 3 ≤ tries then s.trainFail n 3 else s.modDriver a fun d => { d with waiting := o :: d.waiting }
  else if o.opcode = 10 ∧ ¬ (s.driver a).positioned then
    (s.modChain n fun c => { c with deferred := c.deferred ++ [a % 8] }).advance n
  else if o.retries < 3 then
    (s.modDriver a fun d => { d with waiting := { o with retries := o.retries + 1 } :: d.waiting }).count (cntHlk n 6)
  else s.ctrlFailed a o result

/-- R231: a REPLY has not returned within 20 µs (a DISCOVER within 1 ms, R225). -/
def execCtrlReplyTimeout (a : Fin 1024) (s : State) : Out :=
  match (s.driver a).sent with
  | none => .next s
  | some o => .next (s.ctrlRetry a o 0xFFFFFFFF)

/-- R225: a DISCOVER returns with a COUNT. -/
def State.discovered (s : State) (n count : Nat) : State :=
  let s := (List.range 8).foldl (fun s p => s.modDriver (8 * n + p) fun d => { d with conf := {}, stuck := none }) s
  let s := s.put (Reg.HLK_CHAIN_STATE_COUNT n) (min 15 count)
  if count = 8 then (List.range 8).foldl (fun s p => s.queueCtrl (8 * n + p) 2 []) (s.chainTo n 4)
  else s.trainFail n 3

/-- R50, R225, R334: an IDENT reply: latency, model against the head map in force, serial. -/
def State.identified (s : State) (a : Nat) (pay : List Byte) : State :=
  let n := a / 8
  let model := fieldAt pay 4 2
  let serial := fieldAt pay 8 4
  let rf := (s.openStrip.map s.setup).getD s.regs
  let expected := rfGet rf (Reg.HLK_MAP_MODEL a)
  let measured := s.get (Reg.HCR_DRV_SERIAL_SERIAL a)
  let s := s.puts [(Reg.HLK_DRV_INFO_MODEL a, model), (Reg.HLK_DRV_LAT_FWD a, fieldAt pay 12 2)]
  let s := s.modDriver a fun d => { d with serial := serial }
  let known := natMem a s.hcr.unmeasured
  let s := if serial ≠ measured then
      if known then s
      else ({ s with hcr := { s.hcr with unmeasured := s.hcr.unmeasured ++ [a] } }).raise 0x0B05 [(2, a), (4, measured), (4, serial)]
    else { s with hcr := { s.hcr with unmeasured := s.hcr.unmeasured.filter fun x => decide (x ≠ a) } }
  if expected ≠ 0 ∧ expected ≠ model then
    (s.raise 0x0603 (hlkFields n (some a) none ++ [(4, expected), (4, model)])).trainFail n 4
  else s.advance n

/-- R221, R222: a TIME_READ reply: the driver's head time, a count of 48 bits and a fraction of 6, against the device's at the
frame's SOF plus D(p). -/
def State.timeRead (s : State) (a : Nat) (o : CtrlOp) (pay : List Byte) : State :=
  let n := a / 8
  let err := signedDiff 54 (fieldAt pay 4 8) (o.sentAt + s.get (Reg.HLK_DRV_LAT_D a))
  if err.natAbs ≤ s.get Reg.HLK_TIME_CTRL_TOL then s.advance n
  else if s.chainState n = 5 then s.trainFail n 6
  else
    let s := s.raise 0x060C (hlkFields n (some a) none ++ [(4, wrapInt 32 err)])
    (s.modChain n fun c => { c with reload := true }).advance n

/-- R228: a RECORD_READ reply: its records, oldest first; what it leaves unknown is unresolved. -/
def State.recordsRead (s : State) (a : Nat) (pay : List Byte) : State :=
  let k := min 14 (fieldAt pay 4 1)
  let s := (List.range k).foldl (fun s i => s.takeOutcome a (recordAt pay (8 + 8 * i))) s
  let s := s.modDriver a fun d => { d with oldRseq := none }
  s.unknownLines a

/-- R215: a returning frame answers an outstanding control frame: its FTYPE and POS, OPCODE and CSEQ, and, but for DISCOVER, the
RESULT that the driver gives it. -/
def Driver.answers (d : Driver) (a : Nat) (o : CtrlOp) (body : List Byte) : Bool :=
  decide (frameType body = (if o.opcode = 1 then 3 else 6) ∧ framePos body = a % 8 ∧ fieldAt body 4 1 = o.opcode ∧
    fieldAt body 5 1 = o.cseq ∧ (o.opcode = 1 ∨ d.answer = some (fieldAt body 6 1)))

/-- R215, R225 to R231: the answer to the outstanding control frame of a driver. -/
def State.takeReply (s : State) (a : Nat) (o : CtrlOp) (pay : List Byte) : State :=
  let n := a / 8
  let result := fieldAt pay 2 1
  let done := s.modDriver a fun d => { d with sent := none }.replied
  if o.opcode = 1 then done.discovered n (fieldAt pay 4 1)
  else if result = 3 ∨ result = 4 then s.ctrlRetry a o result
  else if result ≠ 0 then done.ctrlFailed a o result
  else
    let done := done.modDriver a fun d => { d with conf := d.conf.after o }
    match o.opcode with
    | 2 => done.identified a pay
    | 5 => (done.modDriver a fun d => { d with oldRseq := some (d.oldRseq.getD d.rseq), rseq := 0 }).advance n
    | 6 => done.timeRead a o pay
    | 8 => done.recordsRead a pay
    | _ => done.advance n

/-- R215, R231: a frame returns in the place of the REPLY, or of the CTRL_ALL frame, of the driver's outstanding control frame. -/
def execCtrlReply (a : Fin 1024) (seen : RxSeen) (frame : List Symbol) (s : State) : Out :=
  let n := a.val / 8
  match (s.driver a).sent with
  | none => .next s
  | some o =>
    let s := s.sees (128 + n) seen
    match unwire frame with
    | none => .next ((s.count (cntHlk n 1)).ctrlRetry a o 0xFFFFFFFF)
    | some body => .next (if (s.driver a).answers a o body then s.takeReply a o (body.drop 4) else s)

/-! ### Polls, loss and requests -/

/-- R209 to R211, R225: a POLL to every driver of a chain. -/
def State.poll (s : State) (n : Nat) : State :=
  let now := s.tide
  let s := s.modChain n fun c => { c with polledAt := now, polls := c.polls + 1 }
  (List.range 8).foldl (fun s p => s.modDriver (8 * n + p) fun d => { d with out := wire (headFrame 1 p 0 0 []) }) s

/-- R225: every POLL_US while no line is sent, POLL goes to every driver of a READY chain. -/
def execPollSend (n : Fin 128) (s : State) : Out :=
  let q := s.get Reg.TID_TICK_STATE
  if s.chainState n = 7 ∧ q ≠ 1 ∧ q ≠ 3 ∧ (s.chain n).polledAt + 400 * s.get Reg.HLK_CTRL_POLL_US ≤ s.tide then
    .next (s.poll n)
  else .next s

/-- R232, R235: LOSS_LINES consecutive lines return no valid STATUS, and the chain is lost; `restarted` names the drivers whose
power was lost and restored. -/
def execChainStatusLoss (c : SilentChain) (s : State) : Out :=
  if s.chainState c.chain = 7 ∧ s.get Reg.HLK_CTRL_LOSS_LINES ≤ (s.chain c.chain).silent then
    .next ((s.restartDrivers c.chain c.restarted).chainLost c.chain)
  else .next s

/-- R226, R239: every chain goes DOWN together to be retrained. -/
def State.retrainAll (s : State) : State :=
  let s := (List.range 128).foldl (fun s n => (s.chainTo n 0).modChain n fun c => { c with requested := true }) s
  s.applySsc

/-- R226: a write of RETRAIN_REQ, acted on at once in SLACK and at the next SLACK otherwise. -/
def execHlkRetrainReq (v : Word) (s : State) : Out :=
  if ¬ s.domainOn 10 then .next (s.domainOffAccess 0x00800000) else
  let s := s.writeWord 0x00800000 v
  if s.on Reg.HLK_CTRL_RETRAIN_REQ ∧ s.get Reg.EXP_STATE_STATE = 2 ∧ ¬ s.link.chains.any (·.requested) then .next s.retrainAll
  else .next s

end Sys2Proof.Machine
end

