-- ==== Sys2Proof/Machine/CouchTest.lean ====
section
/-! DEFINITION. Couch commands: zero runs, domain failure, swap tests, role requests, the reserve table's base (R189 to
R202). -/
namespace Sys2Proof.Machine

/-- R198, R498: a couch's domain is powered down and restarted; its role and LOST_CAUSE stand. -/
def State.restartCouch (s : State) (n : Nat) : State :=
  let role := s.couchRole n
  let cause := s.get (Reg.CCX_STATUS_LOST_CAUSE n)
  (((s.powerDown (8 + n)).powerUp (8 + n)).put (Reg.CCX_STATUS_LOST_CAUSE n) cause).setCouch n role

/-- R194: a chain has sent zero frames on ZERO_LIMIT consecutive lines. -/
def execZeroRun (n : Fin 128) (s : State) : Out :=
  if s.firing ∧ s.get Reg.HLK_ARB_CTRL_ZERO_LIMIT ≤ s.couch.zeroRun.getD n 0 then
    let s := { s with couch := { s.couch with zeroRun := listSet s.couch.zeroRun n 0 } }
    let s := (s.count (cntArb 4)).raise 0x0504
      (cchFields s.openSlot (s.get Reg.TID_TICK_INDEX) (some n.val) none ++ [(1, n.val)])
    .next (s.promptStop 8)
  else .next s

/-- R189, R500: a couch's power domain fails. -/
def execCouchDomainFail (n : Fin 2) (s : State) : Out :=
  .next ((s.powerFault (8 + n.val)).couchDomainLost n)

/-! ### Swap tests (R196 to R199) -/

/-- R196: the tide clocks between the ticks of a test: the lower of 2.000 MHz and the breakwater's maximum line rate. -/
def State.testPeriod (s : State) : Nat :=
  let r := min 2000000 (s.get Reg.BWT_MAX_RATE_HZ)
  if r = 0 then 400000000 else (400000000 + r - 1) / r

/-- R196, R514: at an entry to SLACK: a test is due that has never passed, or that the interval since the last one asks
for. -/
def State.scheduleSwap (s : State) : State :=
  let minutes := s.get Reg.CCH_SWAP_CTRL_INTERVAL
  let last := s.couch.passedAt.foldl (fun (m : Nat) (p : Option Nat) => max m (p.getD 0)) 0
  let due := s.couch.passedAt.any (·.isNone) || (decide (minutes ≠ 0) && decide (last + 24000000000 * minutes ≤ s.tide))
  { s with couch := { s.couch with scheduled := s.couch.scheduled || due } }

/-- R196, R514: a test of both couches in service is due. -/
def State.swapDue (s : State) : Bool := s.on Reg.CCH_SWAP_CTRL_REQUEST || s.couch.scheduled

/-- R198: the LOST couches that the host has not set OFF. -/
def State.lostCouches (s : State) : List Nat :=
  [0, 1].filter fun n => decide (s.couchRole n = 2) && !bitAt s.couch.hostOff n

/-- R198, R500: those of them that can be tested: their domains have not failed. -/
def State.testableCouches (s : State) : List Nat :=
  s.lostCouches.filter fun n => !bitAt (s.get Reg.PWR_DOMAIN_STATUS_FAULT) (8 + n)

/-- R198: at an entry to SLACK, the domain of each LOST couch that the host has not set OFF is powered down and restarted. -/
def State.restartLost (s : State) : State :=
  let l := s.lostCouches
  let s := l.foldl (fun (s : State) n => s.powerDown (8 + n)) s
  ({ s with couch := { s.couch with restoreDue := !l.isEmpty } }).requestDomains (l.map fun n => 8 + n)

/-- R196, R198: the test that is due, if any. -/
def State.testToRun (s : State) : Option SwapTest :=
  let lines := s.get Reg.CCH_SWAP_LINES_LINES
  match (if s.couch.restoreDue then s.testableCouches else []) with
  | [] => match s.couchWith 0, s.couchWith 1 with
    | some a, some b => if s.swapDue then some { first := a, second := b, lines := lines } else none
    | _, _ => none
  | [c] =>
    let o := 1 - c
    let f := if s.couchRole o < 2 then o else c
    some { first := f, second := c, lines := lines, restoring := [c] }
  | _ => some { first := 0, second := 1, lines := lines, restoring := [0, 1] }

/-- R196, R198, R335: a swap test starts in SLACK with the stage at rest. -/
def execSwapTestStart (s : State) : Out :=
  match s.testToRun with
  | none => .next s
  | some t =>
    if s.get Reg.EXP_STATE_STATE = 2 ∧ s.get Reg.TID_PRF_STATUS_STATE = 0 ∧ s.get Reg.TID_TICK_STATE = 0 ∧
        s.on Reg.HLK_STATUS_ALL_READY ∧ s.couch.test.isNone ∧ s.hcr.run.isNone ∧ s.hcr.cal.isNone ∧ s.lanes.loop.isNone ∧
        t.restoring.all (fun n => s.domainOn (8 + n)) then
      let s := { s with couch := { s.couch with test := some t, restoreDue := false, scheduled := false },
                        tid := { s.tid with testDiv := s.testPeriod } }
      .next (((s.put Reg.TID_TICK_STATE 1).count (cntArb 3)).reblank)
    else .next s

/-- R196, step 3: at the half of the lines every chain is switched over, and its gap is measured. -/
def execSwapTestSwitch (gaps : List (BitVec 16)) (s : State) : Out :=
  match s.couch.test with
  | none => .next s
  | some t =>
    if t.switched ∨ t.line * 2 < t.lines then .next s
    else
      let g := gaps.foldl (fun m x => max m x.toNat) 0
      let bad := (List.range 128).filter fun n => decide (480 < (gaps.getD n 0#16).toNat)
      let t := { t with switched := true, gap := g, failures := t.failures ++ bad.map fun n => (t.second, n, 3) }
      .next (({ s with couch := { s.couch with test := some t } }).peakGap g)

/-- R197: a couch failed the test. -/
def SwapTest.failed (t : SwapTest) (n : Nat) : Bool := t.failures.any fun f => decide (f.1 = n)

/-- R197: 0x0508 for a couch's first failure. -/
def State.swapFail (s : State) (t : SwapTest) (n : Nat) : State :=
  match t.failures.find? fun f => decide (f.1 = n) with
  | some f => s.raise 0x0508 (cchFields 0xFF (s.get Reg.TID_TICK_INDEX) (some f.2.1) none ++ [(1, n), (1, f.2.1), (1, f.2.2)])
  | none => s

/-- A couch's path has passed a test. -/
def State.passTest (s : State) (n : Nat) : State :=
  let now := s.tide
  ({ s with couch := { s.couch with passedAt := listSet s.couch.passedAt n (some now) } }).put
    (Reg.CCX_STATUS_SINCE_TEST n) 0

/-- R197, R198: what the test makes of a couch that failed it. -/
def State.failCouch (s : State) (t : SwapTest) (n : Nat) : State :=
  if t.failed n then (s.swapFail t n).loseCouch n 3 else s

/-- R198: a restored couch that passed. -/
def State.restoreCouch (s : State) (t : SwapTest) (n : Nat) : State :=
  if t.failed n then s
  else
    let s := ((s.put (Reg.CCX_STATUS_LOST_CAUSE n) 0).setCouch n (if (s.couchWith 0).isSome then 1 else 0)).noCouch
    (s.passTest n).raise 0x0509 (s.cchNow ++ [(1, n)])

/-- R198: the end of a test that restores couches: those that passed return to service, those that failed are LOST, and a
STANDBY couch becomes ACTIVE where none is left. -/
def State.endRestore (s : State) (t : SwapTest) : State :=
  let s := t.restoring.foldl (fun (s : State) n => s.restoreCouch t n) s
  let s := s.failCouch t t.first
  let s := if t.second = t.first then s else s.failCouch t t.second
  match s.couchWith 0, s.couchWith 1 with
  | none, some n => s.setCouch n 0
  | _, _ => s

/-- R197: the end of a test of two couches in service. -/
def State.endService (s : State) (t : SwapTest) : State :=
  if t.failures.isEmpty then
    let s := (((s.setCouch t.first 1).setCouch t.second 0).passTest t.first).passTest t.second
    s.raise 0x0507 (s.cchNow ++ [(1, t.second), (4, t.gap)])
  else
    let s := (s.failCouch t t.first).failCouch t t.second
    if t.failed t.first ∧ ¬ t.failed t.second then (s.setCouch t.second 0).passTest t.second else s

/-- R197, R198: a test that has failed needs no further step: no other couch's half has still to be tested. -/
def SwapTest.failsEarly (t : SwapTest) : Bool :=
  !t.failures.isEmpty && decide (t.restoring.length ≤ 1) && (!t.failed t.first || decide (t.first = t.second))

/-- R197, R198: a swap test ends: all its lines are sent and answered, or the couch under test has failed while the ACTIVE
couch's path needs no further step. -/
def execSwapTestEnd (s : State) : Out :=
  match s.couch.test with
  | none => .next s
  | some t =>
    let answered := s.link.lines.all fun l => decide (l.kind ≠ 1)
    if t.failsEarly ∨ (t.lines ≤ t.line ∧ t.switched ∧ answered) then
      let s := { s with couch := { s.couch with test := none },
                        link := { s.link with lines := s.link.lines.filter fun l => decide (l.kind ≠ 1) } }
      let s := s.puts [(Reg.TID_TICK_STATE, 0), (Reg.CCH_SWAP_CTRL_REQUEST, 0)]
      .next (if t.restoring.isEmpty then s.endService t else s.endRestore t).reblank
    else .next s

/-- R196: a write of CCH_SWAP_CTRL: REQUEST asks for a test at the next SLACK. -/
def execSwapRequest (v : Word) (s : State) : Out := .next (s.writeWord 0x00600010 v)

/-! ### Role requests and the reserve table (R201, R202) -/

/-- R201: a couch set OFF, or brought back, in NEAP: its role at the wake. -/
def State.neapCouch (s : State) (n : Nat) (off : Bool) : State :=
  let roles := s.couch.neapRoles
  let new := listSet roles n (if off then 3 else 2)
  let new := if off ∧ roles.getD n 3 = 0 ∧ roles.getD (1 - n) 3 = 1 then listSet new (1 - n) 0 else new
  let s := { s with couch := { s.couch with neapRoles := new, neapBack := setBit s.couch.neapBack n (!off) } }
  if ¬ s.seq.waking then s
  else if off then
    ({ s with pwr := { s.pwr with requested := setBit s.pwr.requested (8 + n) false } }).powerDown (8 + n)
  else s.requestDomains [8 + n]

/-- R201: a couch brought back from OFF is LOST with LOST_CAUSE 6. -/
def State.backFromOff (s : State) (n : Nat) : State :=
  ((((s.put (Reg.CCX_STATUS_LOST_CAUSE n) 6).setCouch n 2).count (cntCouch n 3)))

/-- R188: a STANDBY couch takes the ACTIVE one's place. -/
def State.standbyActs (s : State) : State :=
  match s.couchWith 1 with
  | some o => s.setCouch o 0
  | none => s

/-- R201: a couch is set OFF: its domain is powered down, and a STANDBY couch takes the place of an ACTIVE one. -/
def State.couchOff (s : State) (n : Nat) : State :=
  let active := decide (s.couchRole n = 0)
  let s := (s.setCouch n 3).powerDown (8 + n)
  if active then s.standbyActs else s

/-- R201: a couch set OFF is brought back. -/
def State.couchOn (s : State) (n : Nat) : State :=
  let s := { s with couch := { s.couch with restoreDue := true } }
  (s.requestDomains [8 + n]).backFromOff n

/-- R201: what CCH_ROLE_REQ asks for is applied to one couch. -/
def State.applyCouchRole (s : State) (n : Nat) : State :=
  let off := bitAt (s.get Reg.CCH_ROLE_REQ_A_OFF + 2 * s.get Reg.CCH_ROLE_REQ_B_OFF) n
  if off = bitAt s.couch.hostOff n then s
  else
    let s := { s with couch := { s.couch with hostOff := setBit s.couch.hostOff n off } }
    if s.get Reg.EXP_STATE_STATE = 1 then s.neapCouch n off
    else (if off then s.couchOff n else s.couchOn n).noCouch

/-- R201: the role request takes effect. -/
def State.applyCouchRoles (s : State) : State :=
  if s.couch.roleReq then
    ({ s with couch := { s.couch with roleReq := false } }.applyCouchRole 0).applyCouchRole 1
  else s

/-- R201: a write to CCH_ROLE_REQ takes effect at once in OFF, NEAP and SLACK with no strip open. -/
def execCchRoleReqWrite (v : Word) (s : State) : Out :=
  let s := s.writeWord 0x00600018 v
  let s := { s with couch := { s.couch with roleReq := true } }
  if s.get Reg.EXP_STATE_STATE < 3 ∧ s.openStrip.isNone then .next s.applyCouchRoles else .next s

/-- R202: CCH_RES_BASE is writable only while no strip is posted or open. -/
def execCchResBaseWrite (off : BitVec 25) (wide : Bool) (v : BitVec 64) (s : State) : Out :=
  let o := off.toNat
  let p := canonOffset o
  if p / 8 * 8 ≠ 0x00600008 ∨ o % 4 ≠ 0 ∨ (wide ∧ o % 8 ≠ 0) then .next s
  else if ¬ s.box.strips.isEmpty then .next (s.raise 0x0510 (s.cchNow ++ [(4, o)]))
  else if wide then .next (s.writePair o v)
  else .next (s.writeWord o (v.setWidth 32))

end Sys2Proof.Machine
end

