-- ==== Sys2Proof/Machine/Raster.lean ====
section
/-! DEFINITION. Rasterisation (R75, R83 to R99, R103, R104): extents, coverage of samples, pixel doses and coarse blocks. -/
namespace Sys2Proof.Machine

/-- A composite transform (R87): matrix and offset. -/
structure Frame where
  a : Int
  b : Int
  c : Int
  d : Int
  ox : Int
  oy : Int
  deriving DecidableEq, Repr

/-- The identity transform. -/
def Frame.unit : Frame := ⟨1, 0, 0, 1, 0, 0⟩

/-- The orientation matrix of R86, as (a, b, c, d). -/
def orientMatrix (o : Nat) : Int × Int × Int × Int :=
  match o with
  | 0 => (1, 0, 0, 1)
  | 1 => (0, -1, 1, 0)
  | 2 => (-1, 0, 0, -1)
  | 3 => (0, 1, -1, 0)
  | 4 => (1, 0, 0, -1)
  | 5 => (0, 1, 1, 0)
  | 6 => (-1, 0, 0, 1)
  | _ => (0, -1, -1, 0)

/-- R87: a point of the primitive's own frame in the strip frame. -/
def Frame.point (f : Frame) (p q : Int) : Int × Int := (f.a * p + f.b * q + f.ox, f.c * p + f.d * q + f.oy)

/-- R87: the transform inside one more reference with orientation o placed at (x, y). -/
def Frame.enter (f : Frame) (o : Nat) (x y : Int) : Frame :=
  let (ma, mb, mc, md) := orientMatrix o
  { a := f.a * ma + f.b * mc, b := f.a * mb + f.b * md, c := f.c * ma + f.d * mc, d := f.c * mb + f.d * md,
    ox := f.ox + f.a * x + f.b * y, oy := f.oy + f.c * x + f.d * y }

/-- R89: one edge of a trapezoid accepts a sample. -/
def edgeAccepts (p q : Int × Int) (sx sy : Int) : Bool :=
  let dx := q.1 - p.1
  let dy := q.2 - p.2
  if dx = 0 ∧ dy = 0 then true
  else
    let e := dx * (sy - p.2) - dy * (sx - p.1)
    decide (0 < e ∨ (e = 0 ∧ (dy < 0 ∨ (dy = 0 ∧ 0 < dx))))

/-- R88: coverage by a rectangle. -/
def coversRect (f : Frame) (x0 x1 y0 y1 : Int) (sx sy : Int) : Bool :=
  let p := f.point x0 y0
  let q := f.point x1 y1
  decide (min p.1 q.1 ≤ sx ∧ sx < max p.1 q.1 ∧ min p.2 q.2 ≤ sy ∧ sy < max p.2 q.2)

/-- R89: coverage by a trapezoid. -/
def coversTrap (f : Frame) (xl0 xr0 xl1 xr1 y0 y1 : Int) (sx sy : Int) : Bool :=
  let v := [f.point xl0 y0, f.point xr0 y0, f.point xr1 y1, f.point xl1 y1]
  let v := if f.a * f.d - f.b * f.c = -1 then v.reverse else v
  (List.range 4).all fun e => edgeAccepts (v.getD e (0, 0)) (v.getD ((e + 1) % 4) (0, 0)) sx sy

/-- R91: coverage by a disc. -/
def coversDisc (f : Frame) (xc yc : Int) (rad : Nat) (sx sy : Int) : Bool :=
  let c := f.point xc yc
  let dx := sx - c.1
  let dy := sy - c.2
  let r : Int := rad * rad
  let s := dx * dx + dy * dy
  decide (s < r ∨ (s = r ∧ (dx < 0 ∨ (dx = 0 ∧ dy < 0))))

/-- R92: the class that a patch gives a sample, if it covers it. -/
def coversPatch (f : Frame) (zeroSkip : Bool) (x y : Int) (w h sx sy : Nat) (elems : List Nat) (px py : Int) :
    Option Nat :=
  let u := f.a * (px - f.ox) + f.c * (py - f.oy) - x
  let v := f.b * (px - f.ox) + f.d * (py - f.oy) - y
  if 0 ≤ u ∧ u < (w * sx : Nat) ∧ 0 ≤ v ∧ v < (h * sy : Nat) then
    let e := elems.getD ((v.toNat / sy) * w + u.toNat / sx) 0
    if zeroSkip ∧ e = 0 then none else some e
  else none

/-- The cell of a given number in a library. -/
def findCell (cells : List Cell) (num : Nat) : Option Cell := cells.find? (fun c => c.num = num)

/-- The classes of every primitive instance of a list of shapes that covers a sample; fuel bounds the depth (R57). -/
def coverClasses (cells : List Cell) : Nat → Frame → List Shape → Int → Int → List Nat
  | 0, _, _, _, _ => []
  | n + 1, f, shapes, sx, sy =>
    shapes.flatMap fun sh =>
      match sh with
      | .rect cls x0 x1 y0 y1 => if coversRect f x0 x1 y0 y1 sx sy then [cls] else []
      | .trap cls a b c d y0 y1 => if coversTrap f a b c d y0 y1 sx sy then [cls] else []
      | .disc cls xc yc rad => if coversDisc f xc yc rad sx sy then [cls] else []
      | .patch z x y w h ex ey el => (coversPatch f z x y w h ex ey el sx sy).toList
      | .ref o num x y =>
        match findCell cells num with
        | some c => coverClasses cells n (f.enter o x y) c.shapes sx sy
        | none => []
      | .aref o num x y nx ny dx dy =>
        match findCell cells num with
        | some c =>
          (List.range nx).flatMap fun (i : Nat) => (List.range ny).flatMap fun (j : Nat) =>
            coverClasses cells n (f.enter o (x + i * dx) (y + j * dy)) c.shapes sx sy
        | none => []

/-- R93: the class of a sample from the classes that cover it. -/
def sampleClass (l : List Nat) : Nat := if natMem 0 l then 0 else l.foldl max 0

/-- What a vat renders from: the cells of the stream, the shapes of the section and the dose table. -/
structure RenderSource where
  cells : List Cell
  shapes : List Shape
  table : List Nat
  deriving DecidableEq, Repr

/-- R94: the dose of a sample. -/
def RenderSource.sampleDose (w : RenderSource) (sx sy : Int) : Nat :=
  w.table.getD (sampleClass (coverClasses w.cells 9 Frame.unit w.shapes sx sy)) 0

/-- R85, R95: the pre-correction dose of pixel (x, l). -/
def RenderSource.preDose (w : RenderSource) (x l : Int) : Nat :=
  let sum := (List.range 16).foldl (fun (a v : Nat) => (List.range 16).foldl (fun (a u : Nat) =>
    a + w.sampleDose (256 * x + 16 * u + 8) (256 * l + 16 * v + 8)) a) 0
  (sum + 128) / 256

/-- R99: the coarse value B of block (bx, by). -/
def RenderSource.coarseBlock (w : RenderSource) (bx by' : Int) : Nat :=
  let sum := (List.range 16).foldl (fun (a j : Nat) => (List.range 16).foldl (fun (a i : Nat) =>
    a + w.sampleDose (256 * (16 * bx + i) + 128) (256 * (16 * by' + j) + 128)) a) 0
  (sum + 32) / 64

/-- R105: the 4,096 block values of the COARSE job of ream r, tile column j: 16 block rows of 256 blocks. -/
def RenderSource.coarseSet (w : RenderSource) (r j : Nat) : List Nat :=
  (List.range 16).flatMap fun q => (List.range 256).map fun i => w.coarseBlock (256 * j + i : Nat) (16 * r + q : Nat)

/-- R75: the box of a cell's corners after the orientation o: (bx0, bx1, by0, by1). -/
def orientBox (o : Nat) (c : Cell) : Int × Int × Int × Int :=
  let f := Frame.unit.enter o 0 0
  let p := f.point c.bx0 c.by0
  let q := f.point c.bx1 c.by1
  (min p.1 q.1, max p.1 q.1, min p.2 q.2, max p.2 q.2)

/-- R75: the extent (xlo, xhi, ylo, yhi) of a shape; none where it names a cell that is not defined. -/
def Shape.extent (cells : List Cell) : Shape → Option (Int × Int × Int × Int)
  | .rect _ x0 x1 y0 y1 => some (x0, x1, y0, y1)
  | .trap _ xl0 xr0 xl1 xr1 y0 y1 => some (min xl0 xl1, max xr0 xr1, y0, y1)
  | .disc _ xc yc r => some (xc - r, xc + r, yc - r, yc + r)
  | .patch _ x y w h sx sy _ => some (x, x + (w * sx : Nat), y, y + (h * sy : Nat))
  | .ref o num x y =>
    (findCell cells num).map fun c =>
      let (b0, b1, c0, c1) := orientBox o c
      (x + b0, x + b1, y + c0, y + c1)
  | .aref o num x y nx ny dx dy =>
    (findCell cells num).map fun c =>
      let (b0, b1, c0, c1) := orientBox o c
      let ex : Int := ((nx : Int) - 1) * dx
      let ey : Int := ((ny : Int) - 1) * dy
      (x + b0 + min 0 ex, x + b1 + max 0 ex, y + c0 + min 0 ey, y + c1 + max 0 ey)

/-- R103: an extent of ream r meets the render window of tile j. -/
def meetsWindow (e : Int × Int × Int × Int) (r j : Nat) : Bool :=
  let (xlo, xhi, ylo, yhi) := e
  let wxlo : Int := 256 * (4096 * (j : Int) - 64)
  let wxhi : Int := 256 * (4096 * (j : Int) + 4160) - 1
  let wylo : Int := 256 * (256 * (r : Int) - 64)
  let wyhi : Int := 256 * (256 * (r : Int) + 320) - 1
  decide (xlo ≤ wxhi ∧ wxlo ≤ xhi ∧ ylo ≤ wyhi ∧ wylo ≤ yhi)

/-- R104: the instances i0 to i1 of an array axis that can meet a window; none where the range is empty. Oriented
cell bounds b0 and b1, placement p, step d, count n, window wlo to whi. -/
def arrayClip (b0 b1 p d : Int) (n : Nat) (wlo whi : Int) : Option (Int × Int) :=
  let last : Int := (n : Int) - 1
  let ceilDiv (a k : Int) : Int := -(Int.fdiv (-a) k)
  let (i0, i1) : Int × Int :=
    if d = 0 then (if wlo ≤ p + b1 ∧ p + b0 ≤ whi then (0, last) else (1, 0))
    else if 0 < d then (max 0 (ceilDiv (wlo - p - b1) d), min last (Int.fdiv (whi - p - b0) d))
    else (max 0 (ceilDiv (whi - p - b0) d), min last (Int.fdiv (wlo - p - b1) d))
  if i0 ≤ i1 then some (i0, i1) else none

/-- R103, R104: a section record enters the work list of tile j of ream r, an array with its clipped ranges. -/
def workEntry (cells : List Cell) (r j : Nat) (sh : Shape) : Option Shape :=
  match sh.extent cells with
  | none => none
  | some e =>
    if meetsWindow e r j then
      match sh with
      | .aref o num x y nx ny dx dy =>
        match findCell cells num with
        | none => none
        | some c =>
          let (b0, b1, c0, c1) := orientBox o c
          match arrayClip b0 b1 x dx nx (256 * (4096 * (j : Int) - 64)) (256 * (4096 * (j : Int) + 4160) - 1),
                arrayClip c0 c1 y dy ny (256 * (256 * (r : Int) - 64)) (256 * (256 * (r : Int) + 320) - 1) with
          | some (i0, i1), some (j0, j1) =>
            some (.aref o num (x + i0 * dx) (y + j0 * dy) (i1 - i0 + 1).toNat (j1 - j0 + 1).toNat dx dy)
          | _, _ => none
      | _ => some sh
    else none

/-- R103: the work list of tile j of ream r. -/
def workList (cells : List Cell) (r j : Nat) (shapes : List Shape) : List Shape :=
  shapes.filterMap (workEntry cells r j)

end Sys2Proof.Machine
end

