-- ==== Sys2Proof/Machine/Cost.lean ====
section
/-! DEFINITION. The render cost of a tile job in core cycles (R112). -/
namespace Sys2Proof.Machine

/-- R87, R75: the extent of a primitive under a transform: (xlo, xhi, ylo, yhi). -/
def Frame.extent (f : Frame) (e : Int × Int × Int × Int) : Int × Int × Int × Int :=
  let p := f.point e.1 e.2.2.1
  let q := f.point e.2.1 e.2.2.2
  (min p.1 q.1, max p.1 q.1, min p.2 q.2, max p.2 q.2)

/-- What the expansion of a list of shapes gives: the extents of its primitive instances with their weights (a DISC
counts as 2), and the cell-body records read. -/
structure Expansion where
  extents : List ((Int × Int × Int × Int) × Nat)
  reads : Nat
  deriving DecidableEq, Repr

/-- Two expansions in sequence. -/
def Expansion.join (a b : Expansion) : Expansion := ⟨a.extents ++ b.extents, a.reads + b.reads⟩

/-- R112: the instances of a list of shapes after all hierarchy expansion; fuel bounds the depth (R57). -/
def expandShapes (cells : List Cell) : Nat → Frame → List Shape → Expansion
  | 0, _, _ => ⟨[], 0⟩
  | n + 1, f, shapes =>
    let body (o num : Nat) (x y : Int) : Expansion :=
      match findCell cells num with
      | some c => (⟨[], c.shapes.length⟩ : Expansion).join (expandShapes cells n (f.enter o x y) c.shapes)
      | none => ⟨[], 0⟩
    shapes.foldl (fun a sh => a.join (match sh with
      | .ref o num x y => body o num x y
      | .aref o num x y nx ny dx dy =>
        (List.range nx).foldl (fun a (i : Nat) => (List.range ny).foldl (fun a (j : Nat) =>
          a.join (body o num (x + i * dx) (y + j * dy))) a) ⟨[], 0⟩
      | .disc .. => ⟨((sh.extent cells).map fun e => (f.extent e, 2)).toList, 0⟩
      | _ => ⟨((sh.extent cells).map fun e => (f.extent e, 1)).toList, 0⟩)) ⟨[], 0⟩

/-- The weight of the instances whose extent meets a grain box. -/
def Expansion.meeting (w : Expansion) (x0 x1 y0 y1 : Int) : Nat :=
  (w.extents.filter fun p => decide (p.1.1 ≤ x1 ∧ x0 ≤ p.1.2.1 ∧ p.1.2.2.1 ≤ y1 ∧ y0 ≤ p.1.2.2.2)).foldl
    (fun a p => a + p.2) 0

/-- The cycles of a group that n instances meet. -/
def groupCycles (n : Nat) : Nat := max 1 ((n + 3) / 4)

/-- R112: the cycles of a fine render of tile j of ream r. -/
def fineCycles (cells : List Cell) (r j : Nat) (shapes : List Shape) : Nat :=
  let list := workList cells r j shapes
  let w := expandShapes cells 9 Frame.unit list
  let raster := (List.range 384).foldl (fun a (v : Nat) => (List.range 264).foldl (fun a (g : Nat) =>
    let x0 : Int := 256 * (4096 * (j : Int) - 64 + 16 * g)
    let y0 : Int := 256 * (256 * (r : Int) - 64 + v)
    a + groupCycles (w.meeting x0 (x0 + 4095) y0 (y0 + 255))) a) 0
  max raster (2 * (list.length + w.reads) + w.extents.length)

/-- R112: the cycles of a coarse render of tile column j of ream r: 256 groups of 16 blocks of one block row. -/
def coarseCycles (cells : List Cell) (r j : Nat) (shapes : List Shape) : Nat :=
  let list := workList cells r j shapes
  let w := expandShapes cells 9 Frame.unit list
  let raster := (List.range 16).foldl (fun a (v : Nat) => (List.range 16).foldl (fun a (g : Nat) =>
    let x0 : Int := 4096 * (256 * (j : Int) + 16 * g)
    let y0 : Int := 4096 * (16 * (r : Int) + v)
    a + groupCycles (w.meeting x0 (x0 + 65535) y0 (y0 + 4095))) a) 0
  max raster (2 * (list.length + w.reads) + w.extents.length)

end Sys2Proof.Machine
end

