-- ==== Sys2Proof/Machine/CalenderMath.lean ====
section
/-! DEFINITION. The arithmetic of the calender (R136, R137, R139 to R141) and the watermark of a tile (R114). -/
namespace Sys2Proof.Machine

/-- A calender profile as its registers hold it (R132, R134). -/
structure Profile where
  rs : List Nat
  rm : List Nat
  rl : List Nat
  ks : Nat
  km : Nat
  kl : Nat
  dsh : Nat
  t : List Nat
  mt : List Nat
  deriving DecidableEq, Repr

/-- The sum of f over n consecutive integers from lo. -/
def sumFrom (f : Int → Int) : Int → Nat → Int
  | _, 0 => 0
  | lo, n + 1 => f lo + sumFrom f (lo + 1) n

/-- The square box mean of radius r at (x, y), rounded half up (R136, R139). -/
def boxMean (r : Nat) (f : Int → Int → Int) (x y : Int) : Int :=
  roundHalfUp (sumFrom (fun i => sumFrom (fun j => f i j) (y - r) (2 * r + 1)) (x - r) (2 * r + 1))
    ((2 * r + 1) * (2 * r + 1) : Nat)

/-- R136: the short-range density, from the pre-correction doses p of the render window. -/
def Profile.shortDensity (w : Profile) (p : Int → Int → Int) : Int → Int → Int :=
  boxMean (w.rs.getD 2 0) (boxMean (w.rs.getD 1 0) (boxMean (w.rs.getD 0 0) (fun x l => 16 * p x l)))

/-- R139: one term of the coarse plane c with radii r0 and r1, at pixel (x, l). -/
def coarseTerm (r0 r1 : Nat) (c : Int → Int → Int) (x l : Int) : Int :=
  let g := boxMean r1 (boxMean r0 (fun i j => 4 * c i j))
  let ux := 2 * x - 15
  let bx0 := Int.fdiv ux 32
  let fx := Int.fmod ux 32
  let uy := 2 * l - 15
  let by0 := Int.fdiv uy 32
  let fy := Int.fmod uy 32
  let h0 := (32 - fx) * g bx0 by0 + fx * g (bx0 + 1) by0
  let h1 := (32 - fx) * g bx0 (by0 + 1) + fx * g (bx0 + 1) (by0 + 1)
  roundHalfUp ((32 - fy) * h0 + fy * h1) 1024

/-- R141: the multiplier of a correction sum e. -/
def Profile.multiplier (w : Profile) (e : Nat) : Int :=
  let i := e / 65536
  let f : Int := (e % 65536 : Nat)
  let m0 : Int := (w.mt.getD i 0 : Nat)
  let m1 : Int := (w.mt.getD (i + 1) 0 : Nat)
  m0 + roundHalfUp ((m1 - m0) * f) 65536

/-- R141: the deckle weight of column x under the sides selected (bit 0 side 0, bit 1 side 1). -/
def Profile.deckleWeight (w : Profile) (sides x : Nat) : Nat :=
  let zone := 64 * 2 ^ w.dsh
  if bitAt sides 1 ∧ 65535 - x < zone then w.t.getD ((65535 - x) / 2 ^ w.dsh) 0
  else if bitAt sides 0 ∧ x < zone then w.t.getD (x / 2 ^ w.dsh) 0
  else 128

/-- R141: the dose before the limit of 60, from the dose p, the three densities and the deckle weight. -/
def Profile.rawDose (w : Profile) (p : Nat) (ds dm dl : Int) (weight : Nat) : Int :=
  let e := (min ((w.ks : Int) * ds + w.km * dm + w.kl * dl) 16777215).toNat
  roundHalfUp (p * w.multiplier e * weight) 2097152

/-- Everything the calender reads for a tile: what to render, the profile, the coarse plane, the sides, N. -/
structure TileSource where
  src : RenderSource
  profile : Profile
  plane : List (Int × Int × Nat)
  sides : Nat
  lines : Nat
  deriving DecidableEq, Repr

/-- The coarse plane (R137) as a function of the block; unlisted blocks are 0. -/
def TileSource.block (t : TileSource) (bx by' : Int) : Int :=
  match t.plane.find? (fun e => e.1 = bx ∧ e.2.1 = by') with
  | some e => (e.2.2 : Nat)
  | none => 0

/-- R141: the dose of pixel (x, l) before the limit of 60. -/
def TileSource.rawDose (t : TileSource) (x l : Nat) : Int :=
  let p := t.src.preDose x l
  let ds := t.profile.shortDensity (fun i j => (t.src.preDose i j : Nat)) x l
  let dm := if t.profile.km = 0 then 0 else coarseTerm (t.profile.rm.getD 0 0) (t.profile.rm.getD 1 0) t.block x l
  let dl := if t.profile.kl = 0 then 0 else coarseTerm (t.profile.rl.getD 0 0) (t.profile.rl.getD 1 0) t.block x l
  t.profile.rawDose p ds dm dl (t.profile.deckleWeight t.sides x)

/-- R130, R141: the final dose of pixel (x, l). -/
def TileSource.finalDose (t : TileSource) (x l : Nat) : Nat :=
  if t.lines ≤ l then 0 else (min 60 (t.rawDose x l)).toNat

/-- R114: the final doses of tile (r, j), in watermark order. -/
def TileSource.tileDoses (t : TileSource) (r j : Nat) : List Nat :=
  (List.range 256).flatMap fun v => (List.range 4096).map fun u => t.finalDose (4096 * j + u) (256 * r + v)

/-- R141: how many pixels of tile (r, j) were limited to 60, before the lines at or beyond N are set to 0 (R130). -/
def TileSource.limited (t : TileSource) (r j : Nat) : Nat :=
  (List.range 256).foldl (fun a v => a + ((List.range 4096).filter fun u =>
    decide (60 < t.rawDose (4096 * j + u) (256 * r + v))).length) 0

/-- R114: the watermark value of a tile's final doses. -/
def tileCrc (doses : List Nat) : Nat := (crc32c (doses.map byteOf)).toNat

/-- R73: the lines of a tile (0 to 255) on which every final dose is 0. -/
def zeroLinesOf (doses : List Nat) : List Nat :=
  (List.range 256).filter fun v => ((doses.drop (4096 * v)).take 4096).all fun d => decide (d = 0)

end Sys2Proof.Machine
end

