-- ==== Sys2Proof/Machine/SegCodec.lean ====
section
/-! DEFINITION. The segment codec (R146 to R155): segments, raw form, chunk CRCs, tokens, decoder and encoder. -/
namespace Sys2Proof.Machine

/-- Decoder errors, with the subcodes of R166. -/
inductive DecodeError where
  | illegalCode | distance | overrun | truncation
  deriving DecidableEq, Repr

/-- The CPS and feed subcode of a decoder error (R166). -/
def DecodeError.subcode : DecodeError → Nat
  | .illegalCode => 1
  | .distance => 2
  | .overrun => 3
  | .truncation => 4

/-- The job status of a decoder error (R445). -/
def DecodeError.status (e : DecodeError) : Nat := 12 + e.subcode

/-- R146, R147: segment (c, of its tile) in coding order, from the tile's final doses row by row. -/
def segmentOf (doses : List Nat) (c : Nat) (backwash : Bool) : List Nat :=
  (List.range 256).flatMap fun v =>
    let line := if backwash then 255 - v else v
    (List.range 32).map fun k => doses.getD (4096 * line + 128 * k + c) 0

/-- R148: the raw form of a segment. -/
def packRaw : List Nat → List Byte
  | a :: b :: c :: d :: r => leBytes 3 (a + 64 * b + 4096 * c + 262144 * d) ++ packRaw r
  | _ => []

/-- R148: the doses of a raw form. -/
def unpackRaw : List Byte → List Nat
  | x :: y :: z :: r =>
    let v := leNat [x, y, z]
    [v % 64, v / 64 % 64, v / 4096 % 64, v / 262144 % 64] ++ unpackRaw r
  | _ => []

/-- R149: the CRC of chunk q of a segment in coding order. -/
def chunkCrc (seg : List Nat) (q : Nat) : Nat := (crc32c (((seg.drop (1024 * q)).take 1024).map byteOf)).toNat

/-- R149: the raw CRC of a segment, its eight chunk CRCs. -/
def segmentCrcs (seg : List Nat) : List Nat := (List.range 8).map (chunkCrc seg)

/-- A field of w bits, bit 0 first (R150). -/
def readField : Nat → List Bool → Option (Nat × List Bool)
  | 0, bs => some (0, bs)
  | _ + 1, [] => none
  | w + 1, b :: bs =>
    match readField w bs with
    | some (v, r) => some ((if b then 1 else 0) + 2 * v, r)
    | none => none

/-- The number of ones before the first zero of a prefix code of at most n bits, and the rest. -/
def readUnary : Nat → List Bool → Option (Nat × List Bool)
  | 0, bs => some (0, bs)
  | _ + 1, [] => none
  | _ + 1, false :: bs => some (0, bs)
  | n + 1, true :: bs =>
    match readUnary n bs with
    | some (v, r) => some (v + 1, r)
    | none => none

/-- Outcome of reading a code: a value with the rest of the bits, or an error. -/
inductive Read where
  | ok (v : Nat) (rest : List Bool)
  | err (e : DecodeError)
  deriving DecidableEq, Repr

/-- A field, or TRUNCATION where a bit is missing. -/
def readOr (base w : Nat) (bs : List Bool) : Read :=
  match readField w bs with
  | some (v, r) => .ok (base + v) r
  | none => .err .truncation

/-- R152: a length. -/
def readLength (bs : List Bool) : Read :=
  match readUnary 5 bs with
  | none => .err .truncation
  | some (0, r) => readOr 1 2 r
  | some (1, r) => readOr 5 3 r
  | some (2, r) => readOr 13 5 r
  | some (3, r) => readOr 45 7 r
  | some (4, r) => readOr 173 13 r
  | some (_, _) => .err .illegalCode

/-- R152: a distance. -/
def readDistance (bs : List Bool) : Read :=
  match readUnary 2 bs with
  | none => .err .truncation
  | some (0, r) => readOr 1 4 r
  | some (1, r) => readOr 17 5 r
  | some (_, r) => readOr 49 8 r

/-- L copies at distance d, appended to reversed output. -/
def copyBack (d : Nat) : Nat → List Nat → List Nat
  | 0, out => out
  | n + 1, out => copyBack d n (out.getD (d - 1) 0 :: out)

/-- What a decoder gives: the positions yielded, and the error that ended it, if any. -/
structure Decoded where
  out : List Nat
  err : Option DecodeError
  deriving DecidableEq, Repr

/-- A decoder at work (R153, R160): the values yielded, the latest first; the coding position; the token in hand; the bits
still to read; the error that ended it. -/
structure Decoding where
  out : List Nat
  pos : Nat
  pending : Pending
  bits : List Bool
  err : Option DecodeError
  deriving DecidableEq, Repr

/-- A decoder ends with an error. -/
def Decoding.fail (d : Decoding) (e : DecodeError) : Decoding := { d with err := some e }

/-- R153, R160: n values of a LIT token. The decoder pauses at `target`, unless that is the segment's end. -/
def Decoding.lits (target : Nat) : Nat → Decoding → Decoding
  | 0, d => { d with pending := .nothing }
  | n + 1, d =>
    if target ≤ d.pos ∧ target < 8192 then { d with pending := .lits (n + 1) }
    else match readField 6 d.bits with
      | none => d.fail .truncation
      | some (v, r) =>
        if 60 < v then d.fail .illegalCode
        else if 8192 ≤ d.pos then d.fail .overrun
        else Decoding.lits target n { d with out := v :: d.out, pos := d.pos + 1, bits := r }

/-- R153, R160: what the token in hand yields up to a position. -/
def Decoding.spend (d : Decoding) (target : Nat) : Decoding :=
  let room := target - d.pos
  match d.pending with
  | .nothing => d
  | .run v n =>
    let k := min n room
    { d with out := List.replicate k v ++ d.out, pos := d.pos + k, pending := if k = n then .nothing else .run v (n - k) }
  | .copy x n =>
    let k := min n room
    { d with out := copyBack x k d.out, pos := d.pos + k, pending := if k = n then .nothing else .copy x (n - k) }
  | .lits n => d.lits target n

/-- R153: a copy of length n at a distance is taken in hand. -/
def Decoding.takeCopy (d : Decoding) (dist n : Nat) (bits : List Bool) : Decoding :=
  if d.pos < dist ∨ 256 < dist then d.fail .distance
  else if 8192 < d.pos + n then d.fail .overrun
  else { d with pending := .copy dist n, bits := bits }

/-- R151 to R153: the next token: its code, V, L and D, in the order of reading. -/
def Decoding.token (d : Decoding) : Decoding :=
  match readUnary 4 d.bits with
  | none => d.fail .truncation
  | some (0, r) =>
    match readLength r with
    | .err e => d.fail e
    | .ok n r => d.takeCopy 32 n r
  | some (1, r) =>
    match readField 6 r with
    | none => d.fail .truncation
    | some (v, r) =>
      if 60 < v then d.fail .illegalCode
      else match readLength r with
        | .err e => d.fail e
        | .ok n r => if 8192 < d.pos + n then d.fail .overrun else { d with pending := .run v n, bits := r }
  | some (2, r) =>
    match readLength r with
    | .err e => d.fail e
    | .ok n r => { d with pending := .lits n, bits := r }
  | some (3, r) =>
    match readLength r with
    | .err e => d.fail e
    | .ok n r =>
      match readDistance r with
      | .err e => d.fail e
      | .ok x r => d.takeCopy x n r
  | some (_, _) => d.fail .illegalCode

/-- R153, R160: the decoder runs up to a position; at most one token for each unit of fuel. -/
def Decoding.run (target : Nat) : Nat → Decoding → Decoding
  | 0, d => d
  | fuel + 1, d =>
    let d := d.spend target
    if d.err.isSome ∨ target ≤ d.pos then d
    else
      let d := d.token
      if d.err.isSome then d else Decoding.run target fuel d

/-- The positions of a raw form up to the first value above 60 (R153). -/
def checkRaw : List Nat → List Nat → Decoded
  | out, [] => ⟨out.reverse, none⟩
  | out, v :: r => if 60 < v then ⟨out.reverse, some .illegalCode⟩ else checkRaw (v :: out) r

/-- R148, R153: the decode of a stored segment in its form. -/
def decodeSegment (raw : Bool) (stored : List Byte) : Decoded :=
  if raw then
    let d := checkRaw [] ((unpackRaw stored).take 8192)
    if d.err = none ∧ d.out.length < 8192 then ⟨d.out, some .truncation⟩ else d
  else
    let d := Decoding.run 8192 8193 ⟨[], 0, .nothing, bitsLsb stored, none⟩
    ⟨d.out.reverse, d.err⟩

/-- The context of a decoder at a segment's start (R160). -/
def FeedCtx.start : FeedCtx := ⟨0, 0, [], .nothing⟩

/-- R160: chunk q of a stored segment, decoded from the context at its start: the doses and the error of R153, if any, and
the context at the chunk's end, none where the decoder does not reach it. -/
def decodeChunk (raw : Bool) (stored : List Byte) (q : Nat) (c : FeedCtx) : Decoded × Option FeedCtx :=
  if raw then
    let d := checkRaw [] ((unpackRaw ((stored.drop (768 * q)).take 768)).take 1024)
    (if d.err = none ∧ d.out.length < 1024 then ⟨d.out, some .truncation⟩ else d,
      some ⟨6144 * (q + 1), 1024 * (q + 1), [], .nothing⟩)
  else
    let all := bitsLsb stored
    let d := Decoding.run (1024 * (q + 1)) 1025 ⟨c.hist, c.pos, c.pending, all.drop c.bit, none⟩
    (⟨(d.out.take (d.pos - c.pos)).reverse, d.err⟩,
      if d.err = none ∧ d.pos = 1024 * (q + 1) then some ⟨all.length - d.bits.length, d.pos, d.out.take 256, d.pending⟩
      else none)

/-- A field of w bits, bit 0 first. -/
def fieldBits (w v : Nat) : List Bool := (List.range w).map (bitAt v)

/-- R152: the code of a length. -/
def lengthBits (n : Nat) : List Bool :=
  if n ≤ 4 then false :: fieldBits 2 (n - 1)
  else if n ≤ 12 then true :: false :: fieldBits 3 (n - 5)
  else if n ≤ 44 then true :: true :: false :: fieldBits 5 (n - 13)
  else if n ≤ 172 then true :: true :: true :: false :: fieldBits 7 (n - 45)
  else true :: true :: true :: true :: false :: fieldBits 13 (n - 173)

/-- R152: the code of a distance. -/
def distanceBits (d : Nat) : List Bool :=
  if d ≤ 16 then false :: fieldBits 4 (d - 1)
  else if d ≤ 48 then true :: false :: fieldBits 5 (d - 17)
  else true :: true :: fieldBits 8 (d - 49)

/-- R154: the copy length at distance d: past the output reversed, ahead the positions still to code. Copies may
overlap their output, so the past grows as positions match. -/
def copyLength (d : Nat) : List Nat → List Nat → Nat
  | _, [] => 0
  | past, v :: r => if past.length < d then 0 else if past.getD (d - 1) 0 = v then copyLength d (v :: past) r + 1 else 0

/-- R154: the count of equal values from here. -/
def runLength : List Nat → Nat
  | [] => 0
  | [_] => 1
  | v :: w :: r => if v = w then runLength (w :: r) + 1 else 1

/-- R154: the bits of the literals collected (in reverse). -/
def litBits (lits : List Nat) : List Bool :=
  if lits = [] then []
  else [true, true, false] ++ lengthBits lits.length ++ lits.reverse.flatMap (fieldBits 6)

/-- R154: the best token here: its length and its bits; ABOVE before RUN before smaller distances. -/
def bestToken (past ahead : List Nat) : Nat × List Bool :=
  let la := copyLength 32 past ahead
  let lr := runLength ahead
  let start := if lr ≤ la then (la, false :: lengthBits la) else (lr, [true, false] ++ fieldBits 6 (ahead.headD 0) ++ lengthBits lr)
  [2, 3, 4, 64, 96, 128].foldl (fun best d =>
    let n := copyLength d past ahead
    if best.1 < n then (n, [true, true, true, false] ++ lengthBits n ++ distanceBits d) else best) start

/-- R154: the compressor; past and literals reversed. -/
def encodeTokens : Nat → List Nat → List Nat → List Nat → List Bool
  | 0, _, lits, _ => litBits lits
  | fuel + 1, past, lits, ahead =>
    match ahead with
    | [] => litBits lits
    | v :: r =>
      let (n, bits) := bestToken past ahead
      if 3 ≤ n then
        litBits lits ++ bits ++ encodeTokens fuel ((ahead.take n).reverse ++ past) [] (ahead.drop n)
      else encodeTokens fuel (v :: past) (v :: lits) r

/-- The bytes of a bit stream, the last one filled with 0 (R150). -/
def packBits : Nat → List Bool → List Byte
  | 0, _ => []
  | n + 1, bs => if bs = [] then [] else
      byteOf ((bs.take 8).foldr (fun b a => (if b then 1 else 0) + 2 * a) 0) :: packBits n (bs.drop 8)

/-- R155: the stored form of a segment: whether it is raw, and its bytes. -/
def storeForm (seg : List Nat) : Bool × List Byte :=
  let coded := packBits 8000 (encodeTokens 8193 [] [] seg)
  if 6080 < coded.length then (true, packRaw seg) else (false, coded)

/-- R157: the bursts that a number of stored bytes takes. -/
def burstsOf (n : Nat) : Nat := (n + 63) / 64

end Sys2Proof.Machine
end

