-- ==== Sys2Proof/Machine/Inflate.lean ====
section
/-! DEFINITION. Raw DEFLATE (RFC 1951) as the decompressors accept it (R67, R166). -/
namespace Sys2Proof.Machine

/-- A Huffman code: (length, code with its first bit most significant, symbol). -/
abbrev HuffCode := List (Nat × Nat × Nat)

/-- RFC 1951 3.2.2: the canonical codes of a list of code lengths, by rising length and symbol. -/
def buildCode (lens : List Nat) : HuffCode :=
  let step (acc : HuffCode × Nat) (n : Nat) : HuffCode × Nat :=
    let syms := (List.range lens.length).filter fun i => decide (lens.getD i 0 = n)
    let start := 2 * acc.2
    (acc.1 ++ (List.range syms.length).map (fun k => (n, start + k, syms.getD k 0)), start + syms.length)
  ((List.range 15).foldl (fun acc n => step acc (n + 1)) ([], 0)).1

/-- The Kraft sum of code lengths in units of 2^-15. -/
def kraft (lens : List Nat) : Nat := lens.foldl (fun a n => if n = 0 then a else a + 2 ^ (15 - n)) 0

/-- R166: code lengths are neither over-subscribed nor incomplete; `single` allows one code alone. -/
def lensOk (single : Bool) (lens : List Nat) : Bool :=
  decide (kraft lens = 2 ^ 15) || (single && decide ((lens.filter (fun n => decide (0 < n))).length ≤ 1))

/-- One symbol of a Huffman code; at most 15 bits. -/
def readSymbol (code : HuffCode) : Nat → Nat → Nat → List Bool → Read
  | 0, _, _, _ => .err .illegalCode
  | _ + 1, _, _, [] => .err .truncation
  | fuel + 1, n, v, b :: bs =>
    let v := 2 * v + (if b then 1 else 0)
    match code.find? (fun e => e.1 = n + 1 ∧ e.2.1 = v) with
    | some e => .ok e.2.2 bs
    | none => readSymbol code fuel (n + 1) v bs

/-- RFC 1951 3.2.6: the fixed literal/length code lengths. -/
def fixedLit : List Nat :=
  List.replicate 144 8 ++ List.replicate 112 9 ++ List.replicate 24 7 ++ List.replicate 8 8

/-- RFC 1951 3.2.5: base and extra bits of a length symbol. -/
def lengthBase (sym : Nat) : Nat × Nat :=
  [(3, 0), (4, 0), (5, 0), (6, 0), (7, 0), (8, 0), (9, 0), (10, 0), (11, 1), (13, 1), (15, 1), (17, 1), (19, 2),
   (23, 2), (27, 2), (31, 2), (35, 3), (43, 3), (51, 3), (59, 3), (67, 4), (83, 4), (99, 4), (115, 4), (131, 5),
   (163, 5), (195, 5), (227, 5), (258, 0)].getD (sym - 257) (0, 0)

/-- RFC 1951 3.2.5: base and extra bits of a distance symbol. -/
def distBase (sym : Nat) : Nat × Nat :=
  if sym < 4 then (sym + 1, 0)
  else (2 ^ (sym / 2 - 1) * (2 + sym % 2) + 1, sym / 2 - 1)

/-- State of an inflation: output reversed, bits left, error. -/
structure Inflating where
  out : List Nat
  rest : List Bool
  err : Option DecodeError
  deriving DecidableEq, Repr

/-- The symbols of a Huffman block; `limit` is the expected length (0: none). -/
def inflateBlock (limit : Nat) (lit dist : HuffCode) : Nat → List Nat → List Bool → Inflating
  | 0, out, bs => ⟨out, bs, some .truncation⟩
  | fuel + 1, out, bs =>
    match readSymbol lit 15 0 0 bs with
    | .err e => ⟨out, bs, some e⟩
    | .ok sym r =>
      if sym < 256 then
        if limit ≠ 0 ∧ limit ≤ out.length then ⟨out, r, some .overrun⟩
        else inflateBlock limit lit dist fuel (sym :: out) r
      else if sym = 256 then ⟨out, r, none⟩
      else if 285 < sym then ⟨out, r, some .illegalCode⟩
      else
        match readOr (lengthBase sym).1 (lengthBase sym).2 r with
        | .err e => ⟨out, r, some e⟩
        | .ok n r =>
          match readSymbol dist 15 0 0 r with
          | .err e => ⟨out, r, some e⟩
          | .ok ds r =>
            if 29 < ds then ⟨out, r, some .illegalCode⟩
            else
              match readOr (distBase ds).1 (distBase ds).2 r with
              | .err e => ⟨out, r, some e⟩
              | .ok d r =>
                if out.length < d ∨ 32768 < d then ⟨out, r, some .distance⟩
                else if limit ≠ 0 ∧ limit < out.length + n then
                  ⟨copyBack d (limit - out.length) out, r, some .overrun⟩
                else inflateBlock limit lit dist fuel (copyBack d n out) r

/-- RFC 1951 3.2.7: the code lengths of a dynamic block, n of them, in reverse. -/
def readLens (code : HuffCode) : Nat → Nat → List Nat → List Bool → List Nat × Option DecodeError × List Bool
  | 0, _, acc, bs => (acc, none, bs)
  | fuel + 1, n, acc, bs =>
    if n ≤ acc.length then (acc, (if n < acc.length then some .illegalCode else none), bs)
    else
      match readSymbol code 15 0 0 bs with
      | .err e => (acc, some e, bs)
      | .ok sym r =>
        if sym < 16 then readLens code fuel n (sym :: acc) r
        else if sym = 16 ∧ acc = [] then (acc, some .illegalCode, r)
        else
          let p := if sym = 16 then (3, 2) else if sym = 17 then (3, 3) else (11, 7)
          match readOr p.1 p.2 r with
          | .err e => (acc, some e, r)
          | .ok k r => readLens code fuel n (List.replicate k (if sym = 16 then acc.headD 0 else 0) ++ acc) r

/-- The three-bit code lengths of the code length code. -/
def readClens : Nat → List Bool → Option (List Nat × List Bool)
  | 0, bs => some ([], bs)
  | n + 1, bs =>
    match readField 3 bs with
    | none => none
    | some (v, r) =>
      match readClens n r with
      | none => none
      | some (l, r) => some (v :: l, r)

/-- The code lengths in symbol order, from their order in the stream. -/
def clenOrder (l : List Nat) : List Nat :=
  (List.range 19).map fun sym =>
    let pos := ([16, 17, 18, 0, 8, 7, 9, 6, 10, 5, 11, 4, 12, 3, 13, 2, 14, 1, 15].idxOf sym)
    l.getD pos 0

/-- A dynamic block, after its BTYPE. -/
def inflateDynamic (limit fuel : Nat) (out : List Nat) (bs : List Bool) : Inflating :=
  match readField 5 bs with
  | none => ⟨out, bs, some .truncation⟩
  | some (hl, r) =>
    match readField 5 r with
    | none => ⟨out, r, some .truncation⟩
    | some (hd, r) =>
      match readField 4 r with
      | none => ⟨out, r, some .truncation⟩
      | some (hc, r) =>
        match readClens (hc + 4) r with
        | none => ⟨out, r, some .truncation⟩
        | some (cl, r) =>
          if ¬ lensOk false (clenOrder cl) ∨ 286 < hl + 257 then ⟨out, r, some .illegalCode⟩
          else
            match readLens (buildCode (clenOrder cl)) 400 (hl + 257 + hd + 1) [] r with
            | (_, some e, r) => ⟨out, r, some e⟩
            | (acc, none, r) =>
              let lens := acc.reverse
              let ll := lens.take (hl + 257)
              let dl := lens.drop (hl + 257)
              if lensOk false ll ∧ lensOk true dl then inflateBlock limit (buildCode ll) (buildCode dl) fuel out r
              else ⟨out, r, some .illegalCode⟩

/-- A stored block, after its BTYPE; `align` is the number of bits to the next byte boundary. -/
def inflateStored (limit align : Nat) (out : List Nat) (bs : List Bool) : Inflating :=
  let bs := bs.drop align
  match readField 16 bs with
  | none => ⟨out, bs, some .truncation⟩
  | some (n, r) =>
    match readField 16 r with
    | none => ⟨out, r, some .truncation⟩
    | some (c, r) =>
      if n + c ≠ 65535 then ⟨out, r, some .illegalCode⟩
      else
        let room := if limit = 0 then n else min n (limit - out.length)
        let have' := min room (r.length / 8)
        let bytes := (List.range have').map fun i => ((readField 8 (r.drop (8 * i))).getD (0, [])).1
        let o := bytes.reverse ++ out
        if have' < room then ⟨o, [], some .truncation⟩
        else if room < n then ⟨o, r.drop (8 * room), some .overrun⟩
        else ⟨o, r.drop (8 * n), none⟩

/-- The blocks of a DEFLATE stream of `total` bits. -/
def inflateBlocks (limit total : Nat) : Nat → List Nat → List Bool → Inflating
  | 0, out, bs => ⟨out, bs, some .truncation⟩
  | fuel + 1, out, bs =>
    match bs with
    | fin :: a :: b :: r =>
      let used := total - r.length
      let res :=
        match a, b with
        | false, false => inflateStored limit ((8 - used % 8) % 8) out r
        | true, false => inflateBlock limit (buildCode fixedLit) (buildCode (List.replicate 32 5)) (total + 1) out r
        | false, true => inflateDynamic limit (total + 1) out r
        | true, true => ⟨out, r, some .illegalCode⟩
      match res.err with
      | some _ => res
      | none => if fin then res else inflateBlocks limit total fuel res.out res.rest
    | _ => ⟨out, bs, some .truncation⟩

/-- What an inflation gives: bytes in order, the error that ended it, and the whole input bytes used. -/
structure Inflated where
  out : List Nat
  err : Option DecodeError
  used : Nat
  deriving DecidableEq, Repr

/-- The inflation of raw DEFLATE data; `limit` is the expected length, 0 for none. -/
def inflate (limit : Nat) (data : List Byte) : Inflated :=
  let bits := bitsLsb data
  let r := inflateBlocks limit bits.length (bits.length + 1) [] bits
  ⟨r.out.reverse, r.err, (bits.length - r.rest.length + 7) / 8⟩

end Sys2Proof.Machine
end

