-- ==== Sys2Proof/Machine/Stream.lean ====
section
/-! DEFINITION. The parser of the Cynas Pattern Stream (R51 to R81, R553): one record against the place the parser of
its stream has reached. -/
namespace Sys2Proof.Machine

/-- A malformed record: its event's code, and the subcode of 0x014E. -/
structure CpsFault where
  code : Nat
  sub : Nat
  deriving DecidableEq, Repr

/-- Where a malformed record strikes (R79, R80). -/
inductive Struck where
  | stream
  | strip (id : Nat) (ream : Option Nat)
  deriving DecidableEq, Repr

/-- What the parser makes of a record: the stream, and the fault it met. -/
structure Parsed where
  stream : Stream
  fault : Option (Struck × CpsFault)
  deriving DecidableEq, Repr

/-- The record types of R53. -/
def cpsTypes : List Nat := [0, 1, 2, 3, 4, 8, 9, 0x10, 0x11, 0x12, 0x13, 0x18, 0x19, 0x20, 0x21, 0x22]

/-- R53, R81: a TYPE exists in the stream's version. -/
def typeKnown (v2 : Bool) (typ : Nat) : Bool := natMem typ cpsTypes && !(v2 && natMem typ [0x12, 0x21, 0x22])

/-- R53, R67, R71, R81: LEN is the type's. -/
def lenOk (v2 : Bool) (typ len : Nat) (rec : List Byte) : Bool :=
  match typ with
  | 0x00 => decide (1 ≤ len)
  | 0x01 => decide (len = 2)
  | 0x02 => decide (len = 3)
  | 0x03 => decide (len = 33)
  | 0x04 => decide (len = if v2 then 1 else 2)
  | 0x08 => decide (len = 3)
  | 0x09 => decide (len = 2)
  | 0x10 => decide (len = 4)
  | 0x11 => decide (len = 5)
  | 0x12 => decide (len = 3)
  | 0x13 => decide (4 ≤ len ∧ len = 4 + (fieldAt rec 28 4 + 7) / 8)
  | 0x18 => decide (len = 3)
  | 0x19 => decide (len = 5)
  | 0x20 => decide (len = if v2 then 6 else 10)
  | 0x21 => decide (2 ≤ len ∧ len = 2 + 2 * fieldAt rec 6 2)
  | 0x22 => decide (len = 2)
  | _ => decide (1 ≤ len)

/-- A range of reserved bytes is 0 (R54). -/
def bytesZero (rec : List Byte) (off n : Nat) : Bool := ((rec.drop off).take n).all fun b => decide (b = 0#8)

/-- R54, R81: the reserved fields and padding of a record are 0. -/
def reservedOk (v2 : Bool) (typ : Nat) (rec : List Byte) : Bool :=
  match typ with
  | 0x01 => bytesZero rec 10 6
  | 0x02 => bytesZero rec 6 2 && (!v2 || bytesZero rec 4 2)
  | 0x03 => bytesZero rec 4 4
  | 0x09 => bytesZero rec 12 4
  | 0x10 => bytesZero rec 5 3
  | 0x11 => bytesZero rec 5 3
  | 0x12 => bytesZero rec 5 3
  | 0x13 => bytesZero rec 5 3 && decide (fieldAt rec 4 1 < 4) && !(v2 && bitAt (fieldAt rec 4 1) 0) &&
      bytesZero rec (32 + fieldAt rec 28 4) 8
  | 0x18 => bytesZero rec 5 3
  | 0x19 => bytesZero rec 5 3 && bytesZero rec 36 4
  | 0x20 => !v2 || bytesZero rec 40 8
  | 0x21 => bytesZero rec 5 1 && bytesZero rec 12 4
  | 0x22 => bytesZero rec 4 4
  | _ => true

/-- A signed 32-bit field. -/
def s32At (rec : List Byte) (off : Nat) : Int := sext 32 (fieldAt rec off 4)

/-- A signed 64-bit field. -/
def s64At (rec : List Byte) (off : Nat) : Int := sext 64 (fieldAt rec off 8)

/-- R67: the elements of a patch, or its fault. -/
def patchElems (w h : Nat) (deflate : Bool) (data : List Byte) : Except CpsFault (List Nat) :=
  if deflate then
    let r := inflate (w * h) data
    match r.err with
    | some e => .error ⟨0x014E, e.subcode⟩
    | none =>
      if r.out.length < w * h then .error ⟨0x014E, 5⟩
      else if r.used < data.length then .error ⟨0x014E, 6⟩
      else .ok r.out
  else .ok (data.map (·.toNat))

/-- R66 to R68: a primitive or a reference, or the condition it breaks. -/
def shapeOf (cells : List Cell) (typ : Nat) (rec : List Byte) : Except CpsFault Shape :=
  let geo : Except CpsFault Shape := .error ⟨0x0148, 0⟩
  let cls := fieldAt rec 4 1
  match typ with
  | 0x10 =>
    let x0 := s32At rec 8
    let x1 := s32At rec 12
    let y0 := s64At rec 16
    let y1 := s64At rec 24
    if x0 < x1 ∧ y0 < y1 then .ok (.rect cls x0 x1 y0 y1) else geo
  | 0x11 =>
    let xl0 := s32At rec 8
    let xr0 := s32At rec 12
    let xl1 := s32At rec 16
    let xr1 := s32At rec 20
    let y0 := s64At rec 24
    let y1 := s64At rec 32
    if y0 < y1 ∧ xl0 ≤ xr0 ∧ xl1 ≤ xr1 ∧ (xl0 < xr0 ∨ xl1 < xr1) then .ok (.trap cls xl0 xr0 xl1 xr1 y0 y1) else geo
  | 0x12 =>
    let r := fieldAt rec 12 4
    if 1 ≤ r ∧ r ≤ 8388607 then .ok (.disc cls (s32At rec 8) (s64At rec 16) r) else geo
  | 0x13 =>
    let w := fieldAt rec 12 2
    let h := fieldAt rec 14 2
    let sx := fieldAt rec 24 2
    let sy := fieldAt rec 26 2
    let n := fieldAt rec 28 4
    let fl := fieldAt rec 4 1
    if 1 ≤ w ∧ w ≤ 4096 ∧ 1 ≤ h ∧ h ≤ 4096 ∧ w * h ≤ 1048576 ∧ 1 ≤ sx ∧ 1 ≤ sy ∧
        (if bitAt fl 0 then 1 ≤ n ∧ n ≤ 2097152 else n = w * h) then
      match patchElems w h (bitAt fl 0) ((rec.drop 32).take n) with
      | .ok e => .ok (.patch (bitAt fl 1) (s32At rec 8) (s64At rec 16) w h sx sy e)
      | .error f => .error f
    else geo
  | 0x18 =>
    let num := fieldAt rec 8 4
    if 8 ≤ cls then geo
    else if (findCell cells num).isNone then .error ⟨0x014A, 0⟩
    else .ok (.ref cls num (s32At rec 12) (s64At rec 16))
  | _ =>
    let num := fieldAt rec 8 4
    let nx := fieldAt rec 24 2
    let ny := fieldAt rec 26 2
    if 8 ≤ cls ∨ nx = 0 ∨ ny = 0 then geo
    else if (findCell cells num).isNone then .error ⟨0x014A, 0⟩
    else .ok (.aref cls num (s32At rec 12) (s64At rec 16) nx ny (s32At rec 28) (s32At rec 32))

/-- The Y fields of a shape, which R76 bounds. -/
def Shape.ys : Shape → List Int
  | .rect _ _ _ y0 y1 => [y0, y1]
  | .trap _ _ _ _ _ y0 y1 => [y0, y1]
  | .disc _ _ yc _ => [yc]
  | .patch _ _ y _ _ _ _ _ => [y]
  | .ref _ _ _ y => [y]
  | .aref _ _ _ y _ _ _ _ => [y]

/-- R76: the fields and the extent lie within 2^31 in X and within the bound in Y. -/
def Shape.inRange (cells : List Cell) (bound : Int) (sh : Shape) : Bool :=
  sh.ys.all (fun y => decide (-bound ≤ y ∧ y ≤ bound - 1)) &&
    match sh.extent cells with
    | none => false
    | some (xlo, xhi, ylo, yhi) =>
      decide (-2147483648 ≤ xlo ∧ xhi ≤ 2147483647 ∧ -bound ≤ ylo ∧ yhi ≤ bound - 1)

/-- The classes a shape names of itself (R64). -/
def Shape.classes : Shape → List Nat
  | .rect c _ _ _ _ => [c]
  | .trap c _ _ _ _ _ _ => [c]
  | .disc c _ _ _ => [c]
  | .patch zs _ _ _ _ _ _ e => if zs then e.filter fun v => decide (v ≠ 0) else e
  | .ref .. => []
  | .aref .. => []

/-- The cell that a reference names. -/
def Shape.cellNum : Shape → Option Nat
  | .ref _ n _ _ => some n
  | .aref _ n _ _ _ _ _ _ => some n
  | .rect .. => none
  | .trap .. => none
  | .disc .. => none
  | .patch .. => none

/-- R64: every class of a cell and of the cells below it is defined by a table; the fuel is the depth of R57. -/
def cellClassesOk (cells : List Cell) (table : List Nat) : Nat → Nat → Bool
  | 0, _ => true
  | fuel + 1, num =>
    match findCell cells num with
    | none => false
    | some c => c.shapes.all fun sh =>
        sh.classes.all (fun v => decide (table.getD v 0xFF ≠ 0xFF)) &&
          match sh.cellNum with
          | some n => cellClassesOk cells table fuel n
          | none => true

/-- R64: a shape's classes are defined by a strip's table. -/
def shapeClassesOk (cells : List Cell) (table : List Nat) (sh : Shape) : Bool :=
  sh.classes.all (fun v => decide (table.getD v 0xFF ≠ 0xFF)) &&
    match sh.cellNum with
    | some n => cellClassesOk cells table 8 n
    | none => true

/-- The depth that a reference to a shape gives its cell (R57). -/
def Shape.depth (cells : List Cell) (sh : Shape) : Nat :=
  match sh.cellNum with
  | none => 1
  | some n => ((findCell cells n).map fun c => c.depth + 1).getD 1

/-! ### The parser's steps -/

/-- The strip in progress: the last of the stream. -/
def Stream.current (m : Stream) : Option StripRec := m.strips.getLast?

/-- The stream with its strip in progress changed. -/
def Stream.modCurrent (m : Stream) (f : StripRec → StripRec) : Stream :=
  match m.strips.getLast? with
  | some r => { m with strips := m.strips.dropLast ++ [f r] }
  | none => m

/-- Sections of a strip (R55). -/
def StripRec.reams (r : StripRec) : Nat := (r.lines + 255) / 256

/-- An empty section. -/
def Section.new (off : Nat) (ream : Nat := 0) : Section :=
  { off := off, markOff := 0, shapes := [], margins := [], marked := false, wm := [], poisoned := none, ream := ream }

/-- The section of a ream, if parsed so far. -/
def StripRec.section (x : StripRec) (r : Nat) : Option Section := x.sections.find? fun q => decide (q.ream = r)

/-- The machine's way to change the section in hand, the last one. -/
def StripRec.modLast (x : StripRec) (f : Section → Section) : StripRec :=
  { x with sections := x.sections.dropLast ++ (x.sections.getLast?).toList.map f }

/-- How far a stream is parsed in stream order: the walk of a backwash strip counts once it has ended. -/
def Stream.passed (m : Stream) : Nat :=
  match m.back with
  | some w => w.start
  | none => m.parsed

/-- R102: the layout byte at an offset comes from DRAM. -/
def Stream.sourceDram (m : Stream) (off : Nat) : Bool :=
  ((m.sources.find? fun p => decide (off < p.1)).map (·.2)).getD false

/-- The parser passes a record of n bytes. -/
def Stream.pass (m : Stream) (n : Nat) : Stream := { m with parsed := m.parsed + n }

/-- A stream-level fault: the library is discarded (R79). -/
def Stream.fail (m : Stream) (f : CpsFault) : Parsed :=
  ⟨{ m with failed := some f.code, cells := [], ctx := .skip }, some (.stream, f)⟩

/-- R80, R553: a fault of the strip in progress, in a ream or of the whole, met at a record of a type. The rest of the
strip is passed over to its STRIP_END; a faulty or misplaced STRIP_END is that end itself; a walk from the end of the strip
goes on after it, or, where its STRIP_END does not stand at BYTES - 16, passes over the strip in stream order. -/
def Stream.strikeStrip (m : Stream) (n typ : Nat) (ream : Option Nat) (f : CpsFault) : Parsed :=
  let id := ((m.current).map (·.id)).getD 0
  let stop := ((m.current).map fun r => r.off + r.bytes).getD m.parsed
  let m' := m.modCurrent fun r => { r with fault := some (ream, f.code) }
  let m' := match m.back with
    | none => { m'.pass n with ctx := if typ = 4 then .stream else .skip }
    | some w =>
      if m.ctx = .tailBack ∧ typ ≠ 4 then { m' with ctx := .skip, parsed := w.start, back := none }
      else { m' with ctx := .stream, parsed := stop, back := none }
  ⟨m', some (.strip id ream, f)⟩

/-- The ream in which a fault of the strip in progress counts (R80). -/
def Stream.faultReam (m : Stream) : Option Nat :=
  let last := ((m.current).map (·.reams)).getD 1 - 1
  match m.ctx with
  | .sect r => some r
  | .tail => some last
  | .tailBack => some last
  | .padBack => some last
  | .markBack r => some r
  | _ => none

/-- A fault where the parser stands: of the stream, of the strip header, of the section, of the tail. -/
def Stream.strike (m : Stream) (n typ : Nat) (f : CpsFault) : Parsed :=
  match m.ctx with
  | .start => m.fail f
  | .stream => m.fail f
  | .cell .. => m.fail f
  | .skip => m.fail f
  | .header _ => m.strikeStrip n typ none f
  | .sect _ => m.strikeStrip n typ m.faultReam f
  | .tail => m.strikeStrip n typ m.faultReam f
  | .tailBack => m.strikeStrip n typ m.faultReam f
  | .markBack _ => m.strikeStrip n typ m.faultReam f
  | .padBack => m.strikeStrip n typ m.faultReam f

/-- A fault-free step. -/
def Stream.ok (m : Stream) (n : Nat) : Parsed := ⟨m.pass n, none⟩

/-- R62, R553: the fields of a STRIP record hold. -/
def stripFieldsOk (v2 : Bool) (device devices : Nat) (rec : List Byte) : Bool :=
  let lines := fieldAt rec 12 4
  let bytes := fieldAt rec 16 8
  decide (lines ≠ 0 ∧ bytes % 8 = 0 ∧ (if v2 then 344 else 384) ≤ bytes ∧ bytes ≤ 2 ^ 40) &&
    (v2 || decide (fieldAt rec 4 1 = device ∧ fieldAt rec 5 1 = devices))

/-- A record of a strip's header, a section or a tail crosses STRIP.BYTES (0x0143); in the walk of a backwash strip, a
record of a section crosses its mark, or one of the tail STRIP_END. -/
def Stream.crosses (m : Stream) (n : Nat) : Bool :=
  match m.ctx, m.current with
  | .header _, some r => decide (r.off + r.bytes < m.parsed + n)
  | .sect _, some r => decide (((m.back.map (·.stop)).getD (r.off + r.bytes)) < m.parsed + n)
  | .tail, some r => decide (r.off + r.bytes < m.parsed + n)
  | .padBack, some r => decide (r.off + r.bytes < m.parsed + n + 16)
  | _, _ => false

/-- R55: a record type may stand where the parser is. -/
def Ctx.permits (c : Ctx) (typ : Nat) : Bool :=
  let body := natMem typ [0x10, 0x11, 0x12, 0x13, 0x18, 0x19]
  match c with
  | .start => decide (typ = 1)
  | .stream => natMem typ [0, 2, 8]
  | .cell .. => body || natMem typ [0, 9]
  | .header tabled => decide (typ = 0 ∨ (typ = 3 ∧ tabled = false))
  | .sect _ => body || natMem typ [0, 0x20, 0x21, 0x22]
  | .tail => natMem typ [0, 4]
  | .skip => true
  | .tailBack => decide (typ = 4)
  | .markBack _ => decide (typ = 0x20)
  | .padBack => decide (typ = 0)

/-- The library limits of R56: bytes of definitions so far. -/
def Stream.libraryBytes (m : Stream) : Nat := m.cells.foldl (fun a c => a + c.bytes) 0

/-- The watermarks of a REAM_MARK (R70, R81). -/
def markWords (v2 : Bool) (rec : List Byte) : List Nat :=
  if v2 then (List.range 8).map fun j => fieldAt rec (8 + 4 * j) 4 else (List.range 16).map fun j => fieldAt rec (16 + 4 * j) 4

/-- The section in hand closes with its mark, in stream order: section r + 1 or the tail follows. -/
def Stream.closeSection (m : Stream) (n r : Nat) (rec : List Byte) (strip : StripRec) : Parsed :=
  let last := decide (r + 1 = strip.reams)
  let next := m.parsed + n - strip.off
  let m := m.modCurrent fun x =>
    let x := x.modLast fun q => { q with markOff := m.parsed - strip.off, marked := true, wm := markWords m.v2 rec }
    { x with sections := x.sections ++ (if last then [] else [Section.new next (r + 1)]) }
  { m with ctx := if last then .tail else .sect (r + 1) }.ok n

/-- A REAM_MARK's checks and effect in section r (R59, R70). In the walk of a backwash strip a mark within the section's
bytes stands where R59 puts none. -/
def Stream.mark (m : Stream) (n r : Nat) (rec : List Byte) (strip : StripRec) : Parsed :=
  let secOff := ((strip.sections.getLast?).map (·.off)).getD 0
  if m.back.isSome ∨ fieldAt rec 4 4 ≠ r ∨ (m.v2 = false ∧ fieldAt rec 8 8 ≠ secOff) then m.strike n 0x20 ⟨0x014F, 0⟩
  else m.closeSection n r rec strip

/-- R59: REAM_MARK r, met in the walk of a backwash strip, gives the place of its section: not before the first byte after
the DOSE_TABLE and, above ream 0, the mark of the ream before; ream 0's section begins there. The tail's padding is
checked after the mark of the last ream. -/
def Stream.markBack (m : Stream) (n r : Nat) (rec : List Byte) (strip : StripRec) (w : BackWalk) : Parsed :=
  let sec := fieldAt rec 8 8
  let first := w.start - strip.off
  let here := m.parsed - strip.off
  if fieldAt rec 4 4 ≠ r ∨ sec % 8 ≠ 0 ∨ here < sec ∨ (r = 0 ∧ sec ≠ first) ∨ (0 < r ∧ sec < first + 80) then
    m.strike n 0x20 ⟨0x014F, 0⟩
  else
    let q : Section := { Section.new sec r with markOff := here, wm := markWords false rec }
    let m' := m.modCurrent fun x => { x with sections := x.sections ++ [q] }
    let m' := { m' with back := some { w with stop := m.parsed } }
    if r + 1 = strip.reams then { m' with ctx := .padBack }.ok n
    else { m' with ctx := .sect r, parsed := strip.off + sec }.ok 0

/-- R59: the walk of a backwash strip goes on: from the tail to the last section, from the end of a section's records to the
mark of the ream before, from section 0 to the first byte after the strip. -/
def Stream.walkOn (m : Stream) : Stream :=
  match m.back, m.current with
  | some w, some strip =>
    let sec := ((strip.sections.getLast?).map (·.off)).getD 0
    let m := if m.ctx = .padBack ∧ m.parsed + 16 = strip.off + strip.bytes then
        { m with ctx := .sect (strip.reams - 1), parsed := strip.off + sec } else m
    match m.ctx with
    | .sect r =>
      if m.parsed ≠ w.stop then m
      else
        let m := m.modCurrent fun x => x.modLast fun q => { q with marked := true }
        if r = 0 then { m with ctx := .stream, parsed := strip.off + strip.bytes, back := none }
        else { m with ctx := .markBack (r - 1), parsed := strip.off + sec - 80 }
    | _ => m
  | _, _ => m

/-- R59, R101: the header of a backwash strip has been parsed, and the walk from its end begins. -/
def Stream.turnBack (m : Stream) : Stream :=
  match m.current with
  | some strip =>
    { (m.modCurrent fun x => { x with sections := [] }) with
      back := some ⟨m.parsed, 0⟩, ctx := .tailBack, parsed := strip.off + strip.bytes - 16 }
  | none => m

/-- A MARGIN's checks and effect (R71). -/
def Stream.margin (m : Stream) (n : Nat) (rec : List Byte) (strip : StripRec) : Parsed :=
  let wb := fieldAt rec 6 2
  let side := fieldAt rec 4 1
  let ream := fieldAt rec 8 4
  if wb = 0 ∨ 1024 < wb ∨ 2 ≤ side then m.strike n 0x21 ⟨0x0148, 0⟩
  else if strip.reams ≤ ream then m.strike n 0x21 ⟨0x0149, 0⟩
  else
    let mg : Margin := ⟨side, ream, wb, ((rec.drop 16).take (16 * wb)).map (·.toNat)⟩
    (m.modCurrent fun x => x.modLast fun q =>
      { q with margins := (q.margins.filter fun o => decide (¬ (o.side = side ∧ o.ream = ream))) ++ [mg] }).ok n

/-- A shape in a section (R58, R64, R66 to R68, R76). -/
def Stream.shape (m : Stream) (n typ : Nat) (rec : List Byte) (strip : StripRec) : Parsed :=
  match shapeOf m.cells typ rec with
  | .error f => m.strike n typ f
  | .ok sh =>
    if ¬ sh.inRange m.cells (2 ^ 40) then m.strike n typ ⟨0x0149, 0⟩
    else if ¬ shapeClassesOk m.cells strip.table sh then m.strike n typ ⟨0x0147, 0⟩
    else
      (m.modCurrent fun x =>
        { (x.modLast fun q => { q with shapes := q.shapes ++ [(m.parsed, sh)] }) with
          checked := match sh.cellNum with
            | some c => if x.checked.any fun p => decide (p.1 = c) then x.checked else x.checked ++ [(c, true)]
            | none => x.checked }).ok n

/-- The seams of a strip in stream order, one more among them. -/
def seamInsert (q : Nat × Nat × Nat) : List (Nat × Nat × Nat) → List (Nat × Nat × Nat)
  | [] => [q]
  | x :: r => if q.1 < x.1 then q :: x :: r else x :: seamInsert q r

/-- A record of a section (R55, R70 to R72). R72 names no event for a SEAM whose FIRST lies in another ream than its
section's: the model takes such a record as it stands (DESIGN CHOICE, log entry 35), and R73 judges it. -/
def Stream.sectionRec (m : Stream) (n typ r : Nat) (rec : List Byte) (strip : StripRec) : Parsed :=
  match typ with
  | 0x00 => m.ok n
  | 0x20 => m.mark n r rec strip
  | 0x21 => m.margin n rec strip
  | 0x22 => (m.modCurrent fun x =>
      { x with seams := seamInsert (m.parsed, fieldAt rec 8 4, fieldAt rec 12 4) x.seams }).ok n
  | _ => m.shape n typ rec strip

/-- A record of a cell's body (R56, R57, R65, R76). -/
def Stream.cellRec (m : Stream) (n typ : Nat) (rec : List Byte) : Parsed :=
  match m.ctx with
  | .cell num bx0 bx1 by0 by1 records depth off shapes =>
    if 2 ^ 32 < m.libraryBytes + (m.parsed + n - off) then m.fail ⟨0x014D, 0⟩
    else match typ with
    | 0x00 => m.ok n
    | 0x09 =>
      if fieldAt rec 4 4 ≠ num ∨ fieldAt rec 8 4 ≠ records then m.fail ⟨0x014A, 0⟩
      else
        let c : Cell := ⟨num, bx0, bx1, by0, by1, depth, shapes, m.parsed + n - off⟩
        { m with ctx := .stream, cells := m.cells ++ [c] }.ok n
    | _ =>
      match shapeOf m.cells typ rec with
      | .error f => m.fail f
      | .ok sh =>
        match sh.extent m.cells with
        | none => m.fail ⟨0x014A, 0⟩
        | some (xlo, xhi, ylo, yhi) =>
          let d := max depth (sh.depth m.cells)
          if ¬ sh.inRange m.cells (2 ^ 31) then m.fail ⟨0x0149, 0⟩
          else if ¬ (bx0 ≤ xlo ∧ xhi ≤ bx1 ∧ by0 ≤ ylo ∧ yhi ≤ by1) then m.fail ⟨0x014B, 0⟩
          else if 8 < d then m.fail ⟨0x014C, 0⟩
          else { m with ctx := .cell num bx0 bx1 by0 by1 (records + 1) d off (shapes ++ [sh]) }.ok n
  | _ => m.ok n

/-- The strip that a STRIP record opens. A record of one word carries no STRIP_ID: its strip has a number that no
descriptor can name. -/
def stripOf (m : Stream) (rec : List Byte) : StripRec where
  id := if rec.length < 16 then 2 ^ 32 else fieldAt rec 8 4
  lines := fieldAt rec 12 4
  bytes := fieldAt rec 16 8
  off := m.parsed
  v2 := m.v2
  table := []
  sections := []
  seams := []
  checked := []
  ended := false
  fault := none

/-- A STRIP record (R62, R553); a fault in it stops that strip alone (R80). -/
def Stream.stripRec (m : Stream) (n len device devices : Nat) (rec : List Byte) : Parsed :=
  let m' := { m with strips := m.strips ++ [stripOf m rec], ctx := .header false }
  if len ≠ 3 then m'.strikeStrip n 2 none ⟨0x0143, 0⟩
  else if ¬ reservedOk m.v2 2 rec then m'.strikeStrip n 2 none ⟨0x0145, 0⟩
  else if stripFieldsOk m.v2 device devices rec then m'.ok n
  else m'.strikeStrip n 2 none ⟨0x0150, 0⟩

/-- A DOSE_TABLE record (R63), which begins section 0. -/
def Stream.doseTable (m : Stream) (n : Nat) (rec : List Byte) (strip : StripRec) : Parsed :=
  let t := ((rec.drop 8).take 256).map (·.toNat)
  if t.headD 1 ≠ 0 ∨ t.any (fun d => decide (61 ≤ d ∧ d ≤ 254)) then m.strike n 3 ⟨0x0146, 0⟩
  else { (m.modCurrent fun x =>
      { x with table := t, sections := [Section.new (m.parsed + n - strip.off)] }) with ctx := .sect 0 }.ok n

/-- A STRIP_END record in the tail (R59, R74, R80). -/
def Stream.stripEnd (m : Stream) (n : Nat) (rec : List Byte) (strip : StripRec) : Parsed :=
  let lastMark := ((strip.sections.getLast?).map (·.markOff)).getD 0
  let marks := (strip.sections.filter (·.marked)).length
  let bad := if m.v2 then decide (fieldAt rec 4 4 ≠ strip.reams ∨ marks ≠ strip.reams)
    else decide (fieldAt rec 4 4 ≠ strip.reams ∨ marks ≠ strip.reams ∨ fieldAt rec 8 8 ≠ lastMark)
  if bad then m.strike n 4 ⟨0x014F, 0⟩
  else if m.parsed + n ≠ strip.off + strip.bytes then m.strike n 4 ⟨0x0150, 0⟩
  else { (m.modCurrent fun x => { x with ended := true }) with ctx := .stream }.ok n

/-- R59, R74, R80: STRIP_END, met first in the walk of a backwash strip, gives the place of the last mark: after the
DOSE_TABLE and before STRIP_END. -/
def Stream.tailBack (m : Stream) (rec : List Byte) (strip : StripRec) (w : BackWalk) : Parsed :=
  let mark := strip.off + fieldAt rec 8 8
  if fieldAt rec 4 4 ≠ strip.reams ∨ mark % 8 ≠ 0 ∨ mark < w.start ∨ m.parsed < mark + 80 then m.strike 0 4 ⟨0x014F, 0⟩
  else
    { (m.modCurrent fun x => { x with ended := true }) with ctx := .markBack (strip.reams - 1), parsed := mark }.ok 0

/-- A record that R55 permits where it stands. -/
def Stream.dispatch (m : Stream) (n typ device devices : Nat) (rec : List Byte) : Parsed :=
  match m.ctx with
  | .start =>
    let maj := fieldAt rec 8 1
    if fieldAt rec 4 4 ≠ 0x534E5943 then m.fail ⟨0x0140, 0⟩
    else if (maj ≠ 2 ∧ maj ≠ 3) ∨ fieldAt rec 9 1 ≠ 0 then m.fail ⟨0x0141, 0⟩
    else { m with v2 := decide (maj = 2), ctx := .stream }.ok n
  | .stream =>
    match typ with
    | 0x02 => m.stripRec n (fieldAt rec 1 3) device devices rec
    | 0x08 =>
      let num := fieldAt rec 4 4
      if num = 0 ∨ 1048575 < num ∨ (findCell m.cells num).isSome then m.fail ⟨0x014A, 0⟩
      else if s32At rec 12 < s32At rec 8 ∨ s32At rec 20 < s32At rec 16 then m.fail ⟨0x014B, 0⟩
      else if 1048575 ≤ m.cells.length ∨ 2 ^ 32 < m.libraryBytes + n then m.fail ⟨0x014D, 0⟩
      else { m with ctx := .cell num (s32At rec 8) (s32At rec 12) (s32At rec 16) (s32At rec 20) 0 1 m.parsed [] }.ok n
    | _ => m.ok n
  | .cell .. => m.cellRec n typ rec
  | .header _ =>
    match typ, m.current with
    | 0x03, some strip => m.doseTable n rec strip
    | _, _ => m.ok n
  | .sect r =>
    match m.current with
    | some strip => m.sectionRec n typ r rec strip
    | none => m.ok n
  | .tail =>
    match typ, m.current with
    | 0x04, some strip => m.stripEnd n rec strip
    | _, _ => m.ok n
  | .tailBack =>
    match m.back, m.current with
    | some w, some strip => m.tailBack rec strip w
    | _, _ => m.ok n
  | .markBack r =>
    match m.back, m.current with
    | some w, some strip => m.markBack n r rec strip w
    | _, _ => m.ok n
  | .padBack => m.ok n
  | .skip => m.ok n

/-- R553: a record met while a failed strip is passed over. -/
def Stream.passOver (m : Stream) (n typ len : Nat) : Parsed :=
  if ¬ natMem typ cpsTypes then m.fail ⟨0x0142, 0⟩
  else if len = 0 then m.fail ⟨0x0143, 0⟩
  else if natMem typ [1, 2, 8, 9] then m.fail ⟨0x0144, 0⟩
  else if typ = 4 then { m with ctx := .stream }.ok n
  else m.ok n

/-- The checks of a record, in the model's order (log entry 18), and then its own. -/
def Stream.check (m : Stream) (n typ len device devices : Nat) (rec : List Byte) : Parsed :=
  if ¬ typeKnown m.v2 typ then m.strike n typ ⟨0x0142, 0⟩
  else if len = 0 then
    -- a record of length 0 cannot be passed over (R553), so the fault is the stream's too
    (match m.strike n typ ⟨0x0143, 0⟩ with
     | ⟨x, f⟩ => ⟨{ x with failed := some 0x0143, cells := [], ctx := .skip }, f⟩)
  else if ¬ m.ctx.permits typ then m.strike n typ ⟨0x0144, 0⟩
  else if m.ctx = .stream ∧ typ = 2 then m.dispatch n typ device devices rec
  else if ¬ lenOk m.v2 typ len rec ∨ m.crosses n then m.strike n typ ⟨0x0143, 0⟩
  else if ¬ reservedOk m.v2 typ rec then m.strike n typ ⟨0x0145, 0⟩
  else m.dispatch n typ device devices rec

/-- One record at the parser's place, checked completely before any part of it is used: its type, length, context,
reserved bytes, and then its own fields. -/
def Stream.record (m : Stream) (device devices : Nat) (rec : List Byte) : Parsed :=
  let typ := fieldAt rec 0 1
  let len := fieldAt rec 1 3
  let n := 8 * max len 1
  match m.ctx with
  | .skip => m.passOver n typ len
  | .start => if typ ≠ 1 then m.fail ⟨0x0140, 0⟩
    else if ¬ lenOk false typ len rec then m.fail ⟨0x0143, 0⟩
    else if ¬ reservedOk false typ rec then m.fail ⟨0x0145, 0⟩
    else m.dispatch n typ device devices rec
  -- R59, R80: BYTES - 16 holds no STRIP_END, or the place of a mark holds no REAM_MARK
  | .tailBack => if typ ≠ 4 then m.strike n typ ⟨0x0150, 0⟩
    else if len ≠ 2 then m.strike n typ ⟨0x0143, 0⟩
    else m.dispatch n typ device devices rec
  | .markBack _ => if typ ≠ 0x20 then m.strike n typ ⟨0x014F, 0⟩
    else if len ≠ 10 then m.strike n typ ⟨0x0143, 0⟩
    else
      let p := m.dispatch n typ device devices rec
      ⟨p.stream.walkOn, p.fault⟩
  | _ =>
    let p := m.check n typ len device devices rec
    ⟨p.stream.walkOn, p.fault⟩

/-- R77, R80, R553: the declared length of the stream ends inside a record, or inside a strip or a cell; a strip that is
passed over is truncated itself, once. -/
def Stream.truncated (m : Stream) : Parsed :=
  let atEnd (x : Stream) : Stream := { x with ctx := .stream, parsed := max x.parsed m.received }
  match m.ctx with
  | .skip =>
    if m.failed.isSome then ⟨m, none⟩
    else match m.current with
      | some r =>
        if (r.fault.map (·.2)) = some 0x0153 then ⟨atEnd m, none⟩
        else ⟨atEnd m, some (.strip r.id (r.fault.bind (·.1)), ⟨0x0153, 0⟩)⟩
      | none => ⟨atEnd m, none⟩
  | _ => match m.strike 0 0xFFFF ⟨0x0153, 0⟩ with
    | ⟨x, f⟩ => ⟨if x.failed.isSome then x else atEnd x, f⟩

/-- What the parse of a corrected strip came to: the stream, and its fault with the failing record's offset and TYPE. -/
structure Walked where
  stream : Stream
  fault : Option (Struck × CpsFault × Nat × Nat)
  deriving DecidableEq, Repr

/-- The section in hand of a walk runs up to the present place. -/
def Stream.stopHere (m : Stream) : Stream := { m with back := m.back.map fun w => ⟨w.start, m.parsed⟩ }

/-- R80: an accepted ream of a corrected source is passed over: its records by their LEN in stream order, its mark taken as
it stands; in the walk of a backwash strip its mark gives the place of the ream before. -/
def Stream.passAccepted (m : Stream) (n typ r : Nat) (rec : List Byte) (strip : StripRec) : Stream :=
  match m.back with
  | none => if typ = 0x20 then (m.closeSection n r rec strip).stream else m.pass n
  | some w =>
    let x := m.modCurrent fun x => { x with sections := x.sections ++ [Section.new (fieldAt rec 8 8) r] }
    ({ x with ctx := .sect r, parsed := w.stop } : Stream).walkOn

/-- R80, R449: the records of a corrected strip, one after the other, in the order of its direction, but for the reams that
`accepted` names, until the strip has ended or a fault is met. -/
def Stream.walkStrip (device devices : Nat) (accepted : Nat → Bool) (backwash : Bool) (buf : List Byte) :
    Nat → Stream → Walked
  | 0, m => ⟨m, none⟩
  | fuel + 1, m =>
    let rest := buf.drop m.parsed
    let typ := fieldAt rest 0 1
    let n := 8 * max (fieldAt rest 1 3) 1
    let told (p : Parsed) (t : Nat) : Walked := ⟨p.stream, p.fault.map fun f => (f.1, f.2, m.parsed, t)⟩
    if rest.length < 8 ∨ (m.back.isNone ∧ rest.length < n) then told m.truncated (if rest.length < 8 then 0xFFFF else typ)
    else
      let skipped := match m.ctx, m.current with
        | .sect r, some strip => if accepted r ∧ m.back.isNone ∧ 0 < fieldAt rest 1 3 then
            some (m.passAccepted n typ r (rest.take n) strip) else none
        | .markBack r, some strip => if accepted r then
            some (m.stopHere.passAccepted n typ r (rest.take n) strip)
            else none
        | _, _ => none
      match skipped with
      | some x => if x.ctx = Ctx.stream then ⟨x, none⟩ else Stream.walkStrip device devices accepted backwash buf fuel x
      | none =>
        let p := m.record device devices (rest.take n)
        match p.fault with
        | some _ => told p typ
        | none =>
          let turned := decide (typ = 3 ∧ p.stream.ctx = Ctx.sect 0) && backwash
          let x := if turned then p.stream.turnBack else p.stream
          if x.ctx = Ctx.stream then ⟨x, none⟩ else Stream.walkStrip device devices accepted backwash buf fuel x

end Sys2Proof.Machine
end

