-- ==== Sys2Proof/Machine/Layout.lean ====
section
/-! DEFINITION. Streams in the machine: LAYOUT and STREAM_RELEASE, the record commands, faults against the strip's
state, and seams (R54 to R82, R101, R102, R447). -/
namespace Sys2Proof.Machine

/-! ### Seams (R73) -/

/-- R73: what an accepted tile says of a seam: none while it does not overlap, otherwise whether all its doses on the
seam's lines are 0. -/
def seamTileZero (q : Seam) (z : Nat × Nat × List Nat) : Option Bool :=
  let lines := (List.range 256).filter fun i =>
    decide (q.first ≤ 256 * z.1 + i ∧ 256 * z.1 + i < q.first + q.count)
  if lines.isEmpty then none else some (lines.all fun i => natMem i z.2.2)

/-- R73: the tiles that a seam needs, as (ream, tile). -/
def seamTiles (q : Seam) : List (Nat × Nat) :=
  if q.count = 0 then []
  else
    let r0 := q.first / 256
    let r1 := (q.first + q.count - 1) / 256
    (List.range (r1 + 1 - r0)).flatMap fun i => (List.range 16).map fun j => (r0 + i, j)

/-- R73: the seams of a strip against N, the latched extent, the order of declaration and the accepted tiles: each
seam's new flags. `prev` is the last line of the seam declared before it. -/
def judgeSeamList (n : Nat) (extent : Option Nat) (zero : List (Nat × Nat × List Nat)) : Option Nat → List Seam → List Seam
  | _, [] => []
  | prev, q :: r =>
    let badOrder := match prev with
      | some p => decide (q.first ≤ p)
      | none => false
    let badExtent := match extent with
      | some e => decide (q.count < e)
      | none => false
    let drop := decide (n < q.first + q.count) || badOrder || badExtent ||
      zero.any fun z => decide (seamTileZero q z = some false)
    let all := (seamTiles q).all fun t => zero.any fun z => decide (z.1 = t.1 ∧ z.2.1 = t.2)
    let q' := { q with dropped := q.dropped || drop,
                       confirmed := (q.confirmed || (all && extent.isSome)) && !(q.dropped || drop) }
    q' :: judgeSeamList n extent zero (some (q.first + q.count - 1)) r

/-- The payload of a CPS event (R77): record offset, TYPE, STRIP_ID, ream. -/
def cpsFields (off typ : Nat) (id ream : Option Nat) : List (Nat × Nat) :=
  [(6, off), (2, typ), (4, min (id.getD 0xFFFFFFFF) 0xFFFFFFFF), (4, ream.getD 0xFFFFFFFF)]

/-- R77: the payload of a CPS event; 0x014E carries its subcode. -/
def CpsFault.payload (f : CpsFault) (off typ : Nat) (id ream : Option Nat) : List (Nat × Nat) :=
  cpsFields off typ id ream ++ (if f.code = 0x014E then [(1, f.sub)] else [])

/-- R73: the seams of a strip are judged again; each newly dropped one raises 0x0152. -/
def State.judgeSeams (s : State) (slot : Nat) : State :=
  match s.stripAt slot with
  | none => s
  | some st =>
    match s.recordOf st with
    | none => s
    | some rec =>
      let declared := rec.seams.map fun q =>
        match st.seams.find? fun x => decide (x.off = q.1) with
        | some x => x
        | none => (⟨q.1, q.2.1, q.2.2, false, false⟩ : Seam)
      let extent := st.latched.map extentOf
      let new := judgeSeamList rec.lines extent st.zeroLines none declared
      let fresh := new.filter fun q => q.dropped && !(st.seams.any fun x => decide (x.off = q.off) && x.dropped)
      let s := s.modStrip slot fun x => { x with seams := new }
      fresh.foldl (fun s q => s.raise 0x0152 (cpsFields q.off 0x22 (some st.stripId) (some (q.first / 256)))) s

/-! ### Faults (R79, R80) -/

/-- R447: DETAIL of a LAYOUT job: the bytes received. -/
def Stream.detail (m : Stream) : List Byte := leBytes 8 m.received

/-- R79: a stream-level fault: its layout jobs fail, and the posted strips that name it and are not open. -/
def State.streamFailed (s : State) (h off typ : Nat) (f : CpsFault) : State :=
  let m := s.stream h
  let s := s.raiseSev f.code 2 (f.payload off typ none none)
  let jobs := m.jobs
  let s := s.modStream h fun x => { x with jobs := [] }
  let s := s.completeAll (jobs.map (·.aseq)) 1 f.code m.detail
  (s.box.strips.filter fun st => decide (st.handle = h) && !st.isOpen).foldl (fun s st => s.dropPosted st 1 f.code) s

/-- R80: the first ream in firing order that a fault keeps from being fired: its own, or of the whole strip the first. -/
def State.faultFrom (s : State) (st : Strip) (ream : Option Nat) : Int :=
  match ream with
  | some r => r
  | none => if st.backwash then reamsOf (s.linesOf st) - 1 else 0

/-- R80: a strip whose fault raises its event with severity HALT: one that has left SLACK, but for a fresh one in FLOOD. -/
def State.faultHalts (s : State) (st : Strip) : Bool := st.isOpen && !(decide (s.get Reg.EXP_STATE_STATE = 3) && st.fresh)

/-- R80: a fault of a strip, by the state of each strip that names it; FAULT where none is open. -/
def State.stripFailed (s : State) (h off typ id : Nat) (ream : Option Nat) (f : CpsFault) : State :=
  let named := s.box.strips.filter fun st => decide (st.handle = h ∧ st.stripId = id)
  let s := s.raiseSev f.code (if named.any s.faultHalts then 3 else 2) (f.payload off typ (some id) ream)
  named.foldl (fun s st => s.contentStop st (s.faultFrom st ream) 12 f.code false) s

/-- R80, R82: what a posted strip makes of its record once it is parsed: LINES in the ledger; the fault that stopped it;
0x0151 for a version 2 strip outside its conditions. -/
def State.meetRecord (s : State) (slot : Nat) : State :=
  match s.stripAt slot with
  | none => s
  | some st =>
    match s.recordOf st with
    | none => s
    | some rec =>
      let s := s.modLedger slot fun l => { l with lines := rec.lines }
      if rec.v2 ∧ ¬ st.isOpen ∧
          (st.backwash ∨ st.profile ≠ 0 ∨ st.deckle ≠ 0 ∨ s.inCascade) then
        (s.raiseSev 0x0151 2 (cpsFields rec.off 2 (some rec.id) none)).dropPosted st 1 0x0151
      else match rec.fault with
        | some (_, code) => if st.isOpen then s else s.dropPosted st 1 code
        | none => s

/-- R447: the LAYOUT jobs whose bytes have all been parsed complete. -/
def State.completeLayouts (s : State) (h upTo : Nat) : State :=
  let m := s.stream h
  let done := m.jobs.filter fun j => decide (j.upTo ≤ upTo)
  let s := s.modStream h fun x => { x with jobs := x.jobs.filter fun j => decide (upTo < j.upTo) }
  s.completeAll (done.map (·.aseq)) 0 0 m.detail

/-- R142: a side of the device strip faces another device of the cascade. -/
def State.sideFaces (s : State) (side : Nat) : Bool :=
  if side = 0 then decide (0 < s.get Reg.CSC_CFG_DEVICE)
  else decide (s.get Reg.CSC_CFG_DEVICE + 1 < s.get Reg.CSC_CFG_DEVICES)

/-- R58, R103: the records of a closed section that meet no window of its ream. -/
def droppedRecords (cells : List Cell) (q : Section) : Nat :=
  (q.shapes.filter fun p => match p.2.extent cells with
    | none => true
    | some e => (List.range 16).all fun j => !meetsWindow e q.ream j).length

/-- A MARGIN record without effect (R138): of another ream than its section's, or of a side that faces a device. -/
def State.marginIdle (s : State) (q : Section) (g : Margin) : Bool := decide (g.ream ≠ q.ream) || s.sideFaces g.side

/-- R58, R103, R138: what the counters make of a fault-free record: dropped records of the sections that it closes, margin
bytes above 240, a margin record without effect. `old` is the stream before it. -/
def State.countRecord (s : State) (h typ : Nat) (old : Stream) : State :=
  let m := s.stream h
  match m.current with
  | none => s
  | some rec =>
    let was (r : Nat) : Bool := ((old.current.bind fun x => x.section r).map (·.marked)).getD false
    let closed := rec.sections.filter fun q => q.marked && !was q.ream
    let s := closed.foldl (fun s q => s.countBy (cntHbx 4) (droppedRecords m.cells q)) s
    if typ = 0x21 then
      match (rec.sections.getLast?).bind fun q => (q.margins.getLast?).map fun g => (q, g) with
      | some (q, g) =>
        let s := s.countBy (cntCal 2) (g.data.filter fun b => decide (240 < b)).length
        if s.marginIdle q g then
          (s.count (cntCal 3)).modStream h fun x => x.modCurrent fun r => { r with idle := r.idle + 1 }
        else s
      | none => s
    else s

/-- What the machine makes of a parsed record. -/
def State.applyParsed (s : State) (h off typ : Nat) (p : Parsed) : State :=
  let old := s.stream h
  let s := s.modStream h fun _ => p.stream
  let s := match p.fault with
    | none => s.countRecord h typ old
    | some (.stream, f) => s.streamFailed h off typ f
    | some (.strip id ream, f) =>
      let s := s.stripFailed h off typ id ream f
      if p.stream.failed.isSome then s.streamFailed h off typ f else s
  let s := if typ = 2 then
      (s.box.strips.filter fun st => decide (st.handle = h)).foldl (fun s st => s.meetRecord st.slot) s
    else if typ = 0x22 then
      (s.box.strips.filter fun st => decide (st.handle = h)).foldl (fun s st => s.judgeSeams st.slot) s
    else s
  if p.stream.failed.isSome then s else s.completeLayouts h p.stream.passed

/-- R77: the stream's declared length has ended and its bytes are parsed: a strip or a cell in progress is truncated. -/
def State.checkEnd (s : State) (h : Nat) : State :=
  let m := s.stream h
  if m.isOpen ∧ m.last ∧ m.parsed = m.received ∧ m.failed.isNone ∧ m.ctx ≠ .stream then
    s.applyParsed h m.parsed 0xFFFF m.truncated
  else s

/-- R447: a record finds the working buffer full; true where a posted or open strip of the stream can free space. -/
def State.bufferCanDrain (s : State) (h : Nat) : Bool :=
  s.box.strips.any fun st => decide (st.handle = h) && ((s.recordOf st).map fun r => !r.sections.isEmpty).getD false

/-- R447: no space can be freed: the layout jobs in flight fail with 0x100D. -/
def State.bufferFull (s : State) (h : Nat) : State :=
  let m := s.stream h
  let s := s.raise 0x100D [(4, h), (8, m.workLen)]
  let jobs := m.jobs
  (s.modStream h fun x => { x with jobs := [] }).completeAll (jobs.map (·.aseq)) 1 0x100D m.detail

/-- The types that a record command may carry: its own, and for RECT any that no command has. -/
def recordFits (want typ : Nat) : Bool := decide (typ = want) || (decide (want = 0x10) && !natMem typ cpsTypes)

/-- R59, R101: the strip in progress of a stream is one that a posted or open strip runs in backwash. -/
def State.backStrip (s : State) (h : Nat) : Bool :=
  match (s.stream h).current with
  | none => false
  | some r => !r.v2 && s.box.strips.any fun st =>
      decide (st.handle = h ∧ st.stripId = r.id) && st.backwash && decide ((s.recordOf st).map (·.off) = some r.off)

/-- R101: the header of a backwash strip waits until the strip's bytes have been supplied up to BYTES. -/
def State.headerWaits (s : State) (h : Nat) : Bool :=
  let m := s.stream h
  match m.ctx, m.current with
  | .header _, some r => s.backStrip h && decide (m.received < r.off + r.bytes)
  | _, _ => false

/-- The headbox parses a record whose bytes are there (R51 to R82). A direction that is posted only after the header has
been parsed leaves the strip to the parse in stream order (DESIGN CHOICE, log entry 36). -/
def State.parseRecord (s : State) (h n typ : Nat) (rec : List Byte) : State :=
  let m := s.stream h
  let p := m.record (s.get Reg.CSC_CFG_DEVICE) (s.get Reg.CSC_CFG_DEVICES) rec
  let x := if typ = 3 ∧ p.fault.isNone ∧ p.stream.ctx = Ctx.sect 0 ∧ s.backStrip h then p.stream.turnBack else p.stream
  (s.applyParsed h m.parsed typ ⟨{ x with workUsed := m.workUsed + n }, p.fault⟩).checkEnd h

/-- The headbox meets the next record of a stream (R51 to R82, R101), in the order in which it parses: in stream order, and
within a backwash strip in that of R59. All its bytes must have been supplied; a record that the declared length ends
within is truncated, as is a backwash strip that it ends within, whose records are then passed over; one whose bytes have not
all arrived waits. -/
def State.takeRecord (s : State) (h want : Nat) (rec : List Byte) : State :=
  let m := s.stream h
  let typ := fieldAt rec 0 1
  let n := 8 * max (fieldAt rec 1 3) 1
  if ¬ m.isOpen ∨ m.failed.isSome ∨ rec.length ≠ n ∨ ¬ recordFits want typ then s
  else if s.headerWaits h then
    if m.last then s.applyParsed h m.parsed typ (m.strike 0 typ ⟨0x0153, 0⟩) else s.completeLayouts h m.received
  else if m.back.isNone ∧ m.received < m.parsed + n then
    if m.last then
      if m.parsed < m.received then s.applyParsed h m.parsed typ m.truncated else s
    else s.completeLayouts h m.received
  else if m.workLen < m.workUsed + n then
    if s.bufferCanDrain h then s else s.bufferFull h
  else s.parseRecord h n typ rec

/-- R61: the STREAM record. -/
def execStreamRecord (h : Fin 16) (rec : List Byte) (s : State) : Out := .next (s.takeRecord h 0x01 rec)
/-- R62: a STRIP record. -/
def execStripRecord (h : Fin 16) (rec : List Byte) (s : State) : Out := .next (s.takeRecord h 0x02 rec)
/-- R63: a DOSE_TABLE record. -/
def execDoseTable (h : Fin 16) (rec : List Byte) (s : State) : Out := .next (s.takeRecord h 0x03 rec)
/-- R74: a STRIP_END record. -/
def execStripEnd (h : Fin 16) (rec : List Byte) (s : State) : Out := .next (s.takeRecord h 0x04 rec)
/-- R65: a CELL_BEGIN record. -/
def execCellBegin (h : Fin 16) (rec : List Byte) (s : State) : Out := .next (s.takeRecord h 0x08 rec)
/-- R65: a CELL_END record. -/
def execCellEnd (h : Fin 16) (rec : List Byte) (s : State) : Out := .next (s.takeRecord h 0x09 rec)
/-- R66: a RECT record; and a record whose TYPE is reserved (R77, 0x0142). -/
def execRect (h : Fin 16) (rec : List Byte) (s : State) : Out := .next (s.takeRecord h 0x10 rec)
/-- R66: a TRAP record. -/
def execTrap (h : Fin 16) (rec : List Byte) (s : State) : Out := .next (s.takeRecord h 0x11 rec)
/-- R66: a DISC record. -/
def execDisc (h : Fin 16) (rec : List Byte) (s : State) : Out := .next (s.takeRecord h 0x12 rec)
/-- R67: a PATCH record. -/
def execPatch (h : Fin 16) (rec : List Byte) (s : State) : Out := .next (s.takeRecord h 0x13 rec)
/-- R68: a REF record. -/
def execRef (h : Fin 16) (rec : List Byte) (s : State) : Out := .next (s.takeRecord h 0x18 rec)
/-- R68: an AREF record. -/
def execAref (h : Fin 16) (rec : List Byte) (s : State) : Out := .next (s.takeRecord h 0x19 rec)
/-- R70: a REAM_MARK record. -/
def execReamMark (h : Fin 16) (rec : List Byte) (s : State) : Out := .next (s.takeRecord h 0x20 rec)
/-- R71: a MARGIN record. -/
def execMargin (h : Fin 16) (rec : List Byte) (s : State) : Out := .next (s.takeRecord h 0x21 rec)
/-- R72: a SEAM record. -/
def execSeam (h : Fin 16) (rec : List Byte) (s : State) : Out := .next (s.takeRecord h 0x22 rec)
/-- R54: a PAD record. -/
def execPad (h : Fin 16) (rec : List Byte) (s : State) : Out := .next (s.takeRecord h 0x00 rec)

/-! ### LAYOUT and STREAM_RELEASE (R447) -/

/-- The body checks of a LAYOUT descriptor. -/
def layoutChecks (d : Desc) : List (Nat × Bool) :=
  let len := d.field 32 4
  let first := bitAt (d.field 37 1) 0
  [(16, decide (d.field 16 8 % 8 = 0)), (32, decide (8 ≤ len ∧ len ≤ 2 ^ 31 ∧ len % 8 = 0)),
   (36, decide (d.field 36 1 < 16)), (37, decide (d.field 37 1 < 8)), (38, d.zero 38 1), (39, d.zero 39 1),
   (24, decide (¬ first ∨ d.field 24 8 = 0)),
   (40, if first then decide (d.field 40 8 % 4096 = 0) else d.zero 40 8),
   (48, if first then decide (2 ^ 24 ≤ d.field 48 8) else d.zero 48 8)] ++ descReserved d 56 8

/-- R447: a LAYOUT job that has been taken. -/
def State.layoutJob (s : State) (d : Desc) (j : Job) : State :=
  let h := d.field 36 1
  let fl := d.field 37 1
  let m := s.stream h
  let len := d.field 32 4
  let first := bitAt fl 0
  let inDram := bitAt fl 2
  if first ∧ m.isOpen ∨ ¬ first ∧ (¬ m.isOpen ∨ d.field 24 8 ≠ m.received ∨ m.last) then
    if ¬ first ∧ m.isOpen ∧ m.failed.isSome then s.complete j.aseq 1 (m.failed.getD 0) m.detail
    else s.complete j.aseq 2 0 m.detail
  else if ¬ first ∧ m.failed.isSome then s.complete j.aseq 1 (m.failed.getD 0) m.detail
  else if inDram ∧ ¬ s.dramRangeOk (d.field 16 8) len then s.failRange j.aseq 1 (d.field 16 8)
  else if first ∧ ¬ s.dramRangeOk (d.field 40 8) (d.field 48 8) then s.failRange j.aseq 1 (d.field 40 8)
  else
    let s := if first then s.modStream h fun _ =>
        { Stream.closed with
          isOpen := true, work := d.field 40 8, workLen := d.field 48 8,
          ranges := [(d.field 40 8, d.field 48 8)] }
      else s
    let s := s.modStream h fun x =>
      { x with received := x.received + len, last := bitAt fl 1, sources := x.sources ++ [(x.received + len, inDram)],
               ranges := if inDram then x.ranges ++ [(d.field 16 8, len)] else x.ranges,
               jobs := x.jobs ++ [⟨j.aseq, x.received + len, x.received, if inDram then none else some (d.field 16 8)⟩] }
    s.checkEnd h

/-- R447: a LAYOUT descriptor. -/
def execLayout (d : Desc) (s : State) : Out :=
  if d.field 0 1 ≠ 0x01 then .next s
  else .next (s.withDesc d (bitAt (d.field 37 1) 0 || bitAt (d.field 37 1) 2) false (layoutChecks d) fun s j => s.layoutJob d j)

/-- R447: a STREAM_RELEASE descriptor. -/
def execStreamRelease (d : Desc) (s : State) : Out :=
  if d.field 0 1 ≠ 0x02 then .next s
  else .next (s.withDesc d false false ((16, decide (d.field 16 1 < 16)) :: descReserved d 17 47) fun s j =>
    let h := d.field 16 1
    let m := s.stream h
    if ¬ m.isOpen ∨ ¬ m.jobs.isEmpty ∨ s.box.strips.any (fun st => decide (st.handle = h)) then s.complete j.aseq 2 0 []
    else (s.modStream h fun _ => Stream.closed).complete j.aseq 0 0 [])

end Sys2Proof.Machine
end

