-- ==== Sys2Proof/Machine/Render.lean ====
section
/-! DEFINITION. Headbox scheduling, the vats and the calender (R101 to R145). -/
namespace Sys2Proof.Machine

/-! ### What a tile is rendered from -/

/-- The section of a ream of a strip, if parsed so far. -/
def State.sectionOf (s : State) (st : Strip) (r : Nat) : Option Section :=
  (s.recordOf st).bind fun rec => rec.section r

/-- R80: a fault of a strip's record leaves ream r to be rendered: it lies after r in firing order. -/
def State.beforeFault (s : State) (st : Strip) (r : Nat) : Bool :=
  match (s.recordOf st).bind (·.fault) with
  | none => true
  | some (none, _) => false
  | some (some f, _) => if st.backwash then decide (f < r) else decide (r < f)

/-- R59, R80, R101: ream r is renderable: its REAM_MARK has been parsed without fault, no poisoned record waits for its
re-read, no fault lies at it or before it in firing order, and a backwash strip has been supplied to its STRIP_END. -/
def State.renderable (s : State) (st : Strip) (r : Nat) : Bool :=
  match s.recordOf st, s.sectionOf st r with
  | some rec, some q => q.marked && q.poisoned.isNone && s.beforeFault st r && (!st.backwash || rec.ended)
  | _, _ => false

/-- R132: profile n as its registers hold it. -/
def calProfile (rf : RegFile) (n : Nat) : Profile where
  rs := [rfGet rf (Reg.CAL_PR_SRAD_RS0 n), rfGet rf (Reg.CAL_PR_SRAD_RS1 n), rfGet rf (Reg.CAL_PR_SRAD_RS2 n)]
  rm := [rfGet rf (Reg.CAL_PR_CRAD_RM0 n), rfGet rf (Reg.CAL_PR_CRAD_RM1 n)]
  rl := [rfGet rf (Reg.CAL_PR_CRAD_RL0 n), rfGet rf (Reg.CAL_PR_CRAD_RL1 n)]
  ks := rfGet rf (Reg.CAL_PR_KSM_KS n)
  km := rfGet rf (Reg.CAL_PR_KSM_KM n)
  kl := rfGet rf (Reg.CAL_PR_KLD_KL n)
  dsh := rfGet rf (Reg.CAL_PR_KLD_DSH n)
  t := (List.range 16).flatMap fun i => [rfGet rf (Reg.CAL_PR_DT_T0 n i), rfGet rf (Reg.CAL_PR_DT_T1 n i),
    rfGet rf (Reg.CAL_PR_DT_T2 n i), rfGet rf (Reg.CAL_PR_DT_T3 n i)]
  mt := ((List.range 128).flatMap fun i => [rfGet rf (Reg.CAL_PR_MT_MT0 n i), rfGet rf (Reg.CAL_PR_MT_MT1 n i)]) ++
    [rfGet rf (Reg.CAL_PR_MT_MT0 n 128)]

/-- R133: the digest of profile n. -/
def calDigest (rf : RegFile) (n : Nat) : Nat :=
  (crc32c ((List.range 193).flatMap fun k => leBytes 4 (rfWord rf (0x00401000 + 0x1000 * n + 4 * k)).toNat)).toNat

/-- R140: the reach of a profile; none where both weights are 0. -/
def Profile.reach (w : Profile) : Option Nat :=
  if w.km = 0 ∧ w.kl = 0 then none
  else some (max (if w.km = 0 then 0 else w.rm.getD 0 0 + w.rm.getD 1 0)
    (if w.kl = 0 then 0 else w.rl.getD 0 0 + w.rl.getD 1 0))

/-- R140: the reams whose block rows the calender reads for ream r, and the reach; none where it reads no block. -/
def State.coarseSpan (s : State) (st : Strip) (r : Nat) : Option (List Nat × Nat) :=
  (calProfile s.regs st.profile).reach.map fun reach =>
    let lo := (16 * r - 1 - reach) / 16
    let hi := min ((16 * r + 16 + reach) / 16) (reamsOf (s.linesOf st) - 1)
    (((List.range (hi + 1 - lo)).map (lo + ·)), reach)

/-- The values of a strip's coarse map for a ream and tile column. -/
def Strip.coarseAt (st : Strip) (r j : Nat) : Option (List Nat) :=
  (st.coarse.find? fun c => decide (c.1 = r ∧ c.2.1 = j)).map (·.2.2)

/-- The sides that face another device of the cascade. -/
def State.facingSides (s : State) : List Nat := [0, 1].filter s.sideFaces

/-- R140: the halo rows of a strip that a ream needs and that have not arrived: (side, row). -/
def State.haloMissing (s : State) (st : Strip) (r : Nat) : List (Nat × Nat) :=
  match s.coarseSpan st r with
  | none => []
  | some (_, reach) =>
    let last := (s.linesOf st - 1) / 16
    let lo := 16 * r - 1 - reach
    let hi := min (16 * r + 16 + reach) last
    s.facingSides.flatMap fun side => ((List.range (hi + 1 - lo)).map fun i => (side, lo + i)).filter fun p =>
      !(st.halo.any fun h => decide (h.1 = p.1 ∧ h.2.1 = p.2))

/-- R107, R140: the coarse blocks and sections that ream r needs, beside the halo, are there. -/
def State.coarseReady (s : State) (st : Strip) (r : Nat) : Bool :=
  match s.coarseSpan st r with
  | none => true
  | some (reams, _) => reams.all fun q =>
      (((s.sectionOf st q).map (·.marked)).getD false) && (List.range 16).all fun j => (st.coarseAt q j).isSome

/-- R137: the coarse plane of a strip, as (bx, by, C); unlisted blocks are 0. -/
def State.coarsePlane (s : State) (st : Strip) : List (Int × Int × Nat) :=
  let last : Int := ((s.linesOf st - 1) / 16 : Nat)
  let inner := st.coarse.flatMap fun c =>
    (c.2.2.zipIdx).map fun v => (((256 * c.2.1 + v.2 % 256 : Nat) : Int), ((16 * c.1 + v.2 / 256 : Nat) : Int), v.1)
  let place (side i : Nat) : Int := if side = 0 then -1 - (i : Int) else 4096 + (i : Int)
  let halo := st.halo.flatMap fun h => (h.2.2.zipIdx).map fun v => (place h.1 v.2, (h.2.1 : Int), v.1)
  let margins := match s.recordOf st with
    | none => []
    | some rec => rec.sections.flatMap fun q =>
        (q.margins.filter fun g => decide (g.ream = q.ream) && !s.sideFaces g.side).flatMap fun g =>
          (g.data.zipIdx).map fun v =>
            (place g.side (v.2 % max g.wb 1), ((16 * q.ream + v.2 / max g.wb 1 : Nat) : Int), min v.1 240)
  (inner ++ halo ++ margins).filter fun p => decide (p.2.1 ≤ last)

/-- R58, R82: what the vats render for tile j of ream r; tiles 8 to 15 of a version 2 strip have empty work lists. -/
def State.renderSource (s : State) (st : Strip) (r j : Nat) : RenderSource where
  cells := (s.stream st.handle).cells
  shapes := match s.recordOf st with
    | some rec => if rec.v2 ∧ 8 ≤ j then [] else ((rec.section r).map fun q => q.shapes.map (·.2)).getD []
    | none => []
  table := ((s.recordOf st).map (·.table)).getD []

/-- R131: everything a final dose of tile j of ream r depends on. -/
def State.tileSource (s : State) (st : Strip) (r j : Nat) : TileSource where
  src := s.renderSource st r j
  profile := calProfile s.regs st.profile
  plane := s.coarsePlane st
  sides := st.deckle
  lines := s.linesOf st

/-- R82, R115: the watermark of tile j of ream r. -/
def State.watermark (s : State) (st : Strip) (r j : Nat) : Nat :=
  match s.recordOf st, s.sectionOf st r with
  | some rec, some q => if rec.v2 ∧ 8 ≤ j then tileCrc (List.replicate 1048576 0) else q.wm.getD j 0
  | _, _ => 0

/-! ### Vats and queues -/

/-- R108: the free vat with the shortest queue, the lowest-numbered among equals. -/
def State.shortest (s : State) : List Nat → Option Nat
  | [] => none
  | v :: r => match s.shortest r with
    | none => some v
    | some w => if (s.vatQueue w).length < (s.vatQueue v).length then some w else some v

/-- Where a job can go: a vat, a quad that must be woken first, or nowhere now. -/
inductive Place where
  | vat (v : Nat)
  | wake (q : Nat)
  | nowhere
  deriving DecidableEq, Repr

/-- R108, R499: the place of a job among the vats that may take it. -/
def State.placeAmong (s : State) (l : List Nat) : Place :=
  let l := l.filter fun v => s.box.leaving.all fun p => decide (p.1 ≠ v)
  let awake := l.filter fun v => s.domainOn (2 + v / 4)
  match s.shortest (awake.filter fun v => decide ((s.vatQueue v).length < 16)) with
  | some v => .vat v
  | none => match l.filter fun v => !s.domainOn (2 + v / 4) with
    | v :: _ => .wake (v / 4)
    | [] => .nowhere

/-- R108, R115: where a job of a kind goes. `not` lists vats it may not run on; for a spare test `target` is its spare. -/
def State.placeJob (s : State) (kind : JobKind) (banned : List Nat) (target : Nat) : Place :=
  let ok (l : List Nat) := l.filter fun v => !natMem v banned
  match kind with
  | .recheck => if (ok (s.vatsOf 1)).isEmpty then s.placeAmong (ok (s.vatsOf 0)) else s.placeAmong (ok (s.vatsOf 1))
  | .spareTest => if natMem target (s.vatsOf 1) then s.placeAmong [target] else .nowhere
  | _ => s.placeAmong (ok (s.vatsOf 0))

/-! ### Candidates (R106 to R109) -/

/-- A job that could be issued. -/
structure Ready where
  job : TileJob
  banned : List Nat
  /-- It is a waiting request of the list, by position. -/
  wanted : Option WantedJob
  deriving DecidableEq, Repr

/-- Every ream of a strip counts as accepted. -/
def State.allAccepted (s : State) (st : Strip) : Bool :=
  let n := reamsOf (s.linesOf st)
  decide (0 < n) && (List.range n).all (s.reamAccepted st)

/-- A job of a strip has been issued. -/
def State.begun (s : State) (st : Strip) : Bool :=
  !st.coarse.isEmpty || !st.coarseJobs.isEmpty || !st.releasedReams.isEmpty ||
    s.store.slots.any (fun m => decide (m.stripSlot = st.slot)) || s.box.jobs.any (fun j => decide (j.slot = st.slot))

/-- R109: the strips whose jobs may be issued: a strip's first job waits until every ream of the strips before it on its
ring has been accepted. -/
def State.renderStrips (s : State) : List Strip :=
  let rec go : List Strip → List Nat → List Strip
    | [], _ => []
    | st :: r, busy =>
      let busy' := if s.allAccepted st then busy else st.ring :: busy
      if natMem st.ring busy ∧ s.begun st = false then go r busy' else st :: go r busy'
  go s.box.strips []

/-- The reams of a strip in firing order. -/
def State.firingOrder (s : State) (st : Strip) : List Nat :=
  let l := List.range (reamsOf (s.linesOf st))
  if st.backwash then l.reverse else l

/-- R107: ream r lies within MAX_REAMS reams of the frontier's ream. -/
def State.inAhead (s : State) (st : Strip) (r : Nat) : Bool :=
  let max := s.get Reg.HBX_AHEAD_MAX_REAMS
  let f : Int := idiv (s.frontier st (if st.isOpen then s.tickNow else 0)) 256
  decide (max = 0) || (if st.backwash then decide (f - max ≤ r) else decide ((r : Int) ≤ f + max))

/-- A tile waits for its first render: PENDING, with no job and no request. -/
def State.wantsFine (s : State) (st : Strip) (r j : Nat) : Bool :=
  decide ((s.tileAt st.slot r j).status = 0) && !(natMem r st.releasedReams) &&
    !(s.box.jobs.any fun k => decide (k.slot = st.slot ∧ k.ream = r ∧ k.col = j ∧ (k.kind = .fine ∨ k.kind = .recheck))) &&
    !(s.box.wanted.any fun k => decide (k.slot = st.slot ∧ k.ream = r ∧ k.col = j ∧ k.kind = .recheck))

/-- R107: ream r's FINE jobs can be issued, but for the halo and the store's room. -/
def State.fineOpen (s : State) (st : Strip) (r : Nat) : Bool :=
  s.renderable st r && s.inAhead st r && s.coarseReady st r

/-- R107, R158: the store has a slot and room for the ream, or has reserved it already. -/
def State.roomFor (s : State) (st : Strip) (r : Nat) : Bool := (s.reamAt st.slot r).isSome || s.storeRoom

/-- A job of a kind for a tile. -/
def TileJob.of (kind : JobKind) (slot r j : Nat) : TileJob := ⟨kind, slot, r, j, 0xFF, none, 0xFF, none, 0⟩

/-- R108: the FINE jobs of a strip that are ready. -/
def State.fineReady (s : State) (st : Strip) : List Ready :=
  ((s.firingOrder st).filter fun r => s.fineOpen st r && (s.haloMissing st r).isEmpty && s.roomFor st r).flatMap fun r =>
    ((List.range 16).filter (s.wantsFine st r)).map fun j => ⟨TileJob.of .fine st.slot r j, [], none⟩

/-- R120: the COARSE renders that ream r still needs: two of each tile column, a third where two differ. -/
def State.coarseWanted (s : State) (st : Strip) (r : Nat) : List Ready :=
  if ¬ s.renderable st r then []
  else (List.range 16).filterMap fun j =>
    if (st.coarseAt r j).isSome then none
    else
      let done := (st.coarseJobs.find? fun c => decide (c.ream = r ∧ c.col = j))
      let running := (s.box.jobs.filter fun k => decide (k.kind = .coarse ∧ k.slot = st.slot ∧ k.ream = r ∧ k.col = j)).map (·.vat)
      let used := ((done.map fun c => c.renders.map (·.1)).getD []) ++ running
      let need := if ((done.map fun c => c.renders.length).getD 0) = 2 then 3 else 2
      if ((done.map (·.disputed)).getD false) ∨ need ≤ used.length then none
      else some ⟨TileJob.of .coarse st.slot r j, used, none⟩

/-- R108: the coarse jobs needed by the strip's next FINE job. -/
def State.coarseFirst (s : State) (st : Strip) : List Ready :=
  match (s.firingOrder st).find? fun r => s.renderable st r && s.inAhead st r &&
      (List.range 16).any fun j => s.wantsFine st r j with
  | none => []
  | some r => match s.coarseSpan st r with
    | none => []
    | some (reams, _) => reams.flatMap (s.coarseWanted st)

/-- R145: the coarse, margin and halo data that the calender reads for ream r are stored. -/
def State.planeReady (s : State) (st : Strip) (r : Nat) : Bool := s.coarseReady st r && (s.haloMissing st r).isEmpty

/-- The requests of a kind whose section can be read, and whose calender data are there. -/
def State.wantedReady (s : State) (kind : JobKind) : List Ready :=
  (s.box.wanted.filter fun w => decide (w.kind = kind) &&
      (((s.stripAt w.slot).map fun st => s.renderable st w.ream && s.planeReady st w.ream).getD false)).map fun w =>
    ⟨{ kind := w.kind, slot := w.slot, ream := w.ream, col := w.col, vat := 0xFF, valueA := w.valueA, vatA := w.notVat,
       due := w.due, expect := w.expect }, [w.notVat], some w⟩

/-- R108: a request joins those in order of their due ticks; one without a due tick comes last (R163). -/
def dueInsert (w : Ready) : List Ready → List Ready
  | [] => [w]
  | x :: r =>
    match w.job.due, x.job.due with
    | some a, some b => if a < b then w :: x :: r else x :: dueInsert w r
    | some _, none => w :: x :: r
    | none, _ => x :: dueInsert w r

/-- R108: the jobs ready to issue, in their order of precedence. -/
def State.readyJobs (s : State) : List Ready :=
  let strips := s.renderStrips
  s.wantedReady .recheck ++
    (s.wantedReady .ledger).foldl (fun l w => dueInsert w l) [] ++
    strips.flatMap s.coarseFirst ++
    strips.flatMap s.fineReady ++
    (strips.flatMap fun st => (s.firingOrder st).flatMap (s.coarseWanted st)) ++
    s.wantedReady .spareTest

/-- R108, R499: the first job that has a vat, with the quads to wake for the jobs before it. -/
def State.chooseJob (s : State) : List Ready → List Nat × Option (Ready × Nat)
  | [] => ([], none)
  | w :: r => match s.placeJob w.job.kind w.banned w.job.vatA with
    | .vat v => ([], some (w, v))
    | .wake q => let p := s.chooseJob r
      (q :: p.1, p.2)
    | .nowhere => s.chooseJob r

/-- R499: the headbox wakes quads in neap. -/
def State.wakeQuads (s : State) (l : List Nat) : State :=
  { s with box := { s.box with wakingQuads := s.box.wakingQuads ++ (l.eraseDups.filter fun q => !natMem q s.box.wakingQuads) } }

/-- The lowest slot number of the ledger that no ream holds. -/
def State.freeSlot (s : State) : Nat :=
  ((List.range (s.store.slots.length + 1)).find? fun i => s.store.slots.all fun m => decide (m.index ≠ i)).getD 0

/-- A ream record at its first FINE issue (R158, R171). -/
def ReamSlot.fresh (index : Nat) (st : Strip) (r : Nat) : ReamSlot where
  index := index
  stripSlot := st.slot
  ream := r
  state := 1
  dir := flag st.backwash
  bands := [0, 0, 0, 0]
  tiles := List.replicate 16 TileRec.pending
  groups := List.replicate 128 []
  ends := List.replicate 128 0
  segs := []
  reserved := 3072
  extra := 0
  demand := 0

/-- R106, R108: a job is issued to a vat. -/
def State.issue (s : State) (w : Ready) (v : Nat) : State :=
  let s := { s with box := { s.box with
    jobs := s.box.jobs ++ [{ w.job with vat := v }],
    wanted := match w.wanted with
      | some x => s.box.wanted.erase x
      | none => s.box.wanted } }
  let s := if w.job.kind = .recheck then s.count (cntHbx 2) else s
  let s := if w.job.kind = .fine ∧ (s.reamAt w.job.slot w.job.ream).isNone then
      match s.stripAt w.job.slot with
      | some st =>
        ({ s with store := { s.store with slots := s.store.slots ++ [ReamSlot.fresh s.freeSlot st w.job.ream] } }).showStore
      | none => s
    else s
  s.showJobs

/-- R122: a spare test whose vat is not an awake and free spare is skipped and counted. -/
def State.skipTests (s : State) : State :=
  let lost (w : WantedJob) : Bool := decide (w.kind = .spareTest) &&
    !(natMem w.notVat (s.vatsOf 1) && s.domainOn (2 + w.notVat / 4) && decide ((s.vatQueue w.notVat).length < 16))
  let n := (s.box.wanted.filter lost).length
  { s with box := { s.box with wanted := s.box.wanted.filter fun w => !lost w } }.countBy (cntHbx 7) n

/-- R20, R106 to R109: the headbox issues a ready tile job to a vat, in its order of precedence. -/
def execTileJobIssue (s : State) : Out :=
  if min (s.get Reg.HBX_CTRL_MAX_JOBS) 256 ≤ s.box.jobs.length then .next s
  else
    let s := s.skipTests
    let p := s.chooseJob s.readyJobs
    let s := s.wakeQuads p.1
    match p.2 with
    | none => .next s
    | some (w, v) => .next (s.issue w v)

/-! ### Results (R113 to R122, R130) -/

/-- The code of a job kind in trace packets and events (R520). -/
def JobKind.code : JobKind → Nat
  | .fine => 0
  | .recheck => 1
  | .ledger => 2
  | .coarse => 3
  | .spareTest => 4

/-- The oldest job of a vat leaves its queue. -/
def State.takeVatJob (s : State) (v : Nat) : Option (TileJob × State) :=
  match s.vatQueue v with
  | [] => none
  | j :: _ => some (j, (({ s with box := { s.box with jobs := s.box.jobs.erase j } }).showJobs).settleVats)

/-- R113, R127: a vat's counters at a job's end, and the job's trace packet (source 5). R127 does not say whether a job
that the watchdog aborts or that ends POISON is a job completed: it counts (DESIGN CHOICE, log entry 38). -/
def State.jobDone (s : State) (j : TileJob) (cycles outcome crc : Nat) : State :=
  let s := (s.count (cntVat j.vat 0)).countBy (cntVat j.vat 1) cycles
  s.trace 5 (leBytes 1 j.kind.code ++ leBytes 1 j.vat ++ leBytes 1 j.col ++ leBytes 1 outcome ++ leBytes 4 j.ream ++
    leBytes 4 cycles ++ leBytes 4 crc ++ leBytes 1 j.slot)

/-- R112, R113: the cycles a vat reports: the cost of R112 and at most 2,048 more (a free value, log entry 2). -/
def State.drawCycles (s : State) (cost : Nat) : Nat × State :=
  let p := s.draw
  (cost + p.1.toNat % 2049, p.2)

/-- The common payload of R128: strip, ream, tile, vat. -/
def TileJob.fields (j : TileJob) : List (Nat × Nat) := [(1, j.slot), (4, j.ream), (1, j.col), (1, j.vat)]

/-- R122: after every SPARE_TEST_EVERY accepted FINE jobs, a spare test of the last one, on the next spare in rotation; the
test is skipped where that spare is not awake and free, now or when the headbox comes to issue it. -/
def State.spareTestAfter (s : State) (j : TileJob) (w : Nat) : State :=
  let every := s.get Reg.HBX_VAT_CFG_SPARE_TEST_EVERY
  let n := s.box.accepted + 1
  let s := { s with box := { s.box with accepted := n } }
  if every = 0 ∨ n % every ≠ 0 then s
  else
    let spares := s.vatsOf 1
    match (spares.find? fun v => decide (s.box.nextSpare ≤ v)).orElse fun _ => spares.head? with
    | some v =>
      ({ s with box := { s.box with
        nextSpare := v + 1,
        wanted := s.box.wanted ++ [⟨.spareTest, j.slot, j.ream, j.col, v, none, none, w⟩] } } : State).skipTests
    | none => s.count (cntHbx 7)

/-- R128: every ream of a strip is accepted: 0x0118, once. -/
def State.checkRendered (s : State) (slot : Nat) : State :=
  match s.stripAt slot with
  | none => s
  | some st =>
    if ¬ st.rendered ∧ s.allAccepted st then
      (s.modStrip slot fun x => { x with rendered := true }).raise 0x0118 [(1, slot), (4, 0xFFFFFFFF), (1, 0xFF), (1, 0xFF)]
    else s

/-- R21, R73, R114, R123: a tile's doses are accepted, and go to the store. -/
def State.acceptTile (s : State) (j : TileJob) (doses : List Nat) (trusted : Bool) (w : Nat) : State :=
  let again := decide ((s.tileAt j.slot j.ream j.col).status = 3)
  let held : HeldTile := ⟨j.slot, j.ream, j.col, j.vat, trusted, again, doses, false⟩
  let s := s.modTile j.slot j.ream j.col fun t => { t with status := if trusted then 2 else 1, vat := j.vat }
  let s := { s with
    store := { s.store with
      held := s.store.held ++ [held],
      lost := s.store.lost.filter fun l => decide (¬ (l.slot = j.slot ∧ l.ream = j.ream ∧ l.col = j.col)) },
    seq := { s.seq with dueBreaks :=
      s.seq.dueBreaks.filter fun d => decide (¬ (d.1 = j.slot ∧ d.2.1 = j.ream ∧ d.2.2.1 = j.col)) } }
  let s := s.modStrip j.slot fun st => { st with zeroLines :=
    (st.zeroLines.filter fun z => decide (¬ (z.1 = j.ream ∧ z.2.1 = j.col))) ++ [(j.ream, j.col, zeroLinesOf doses)] }
  let s := (s.count (cntHbx 0)).judgeSeams j.slot
  let s := if j.kind = .fine then s.spareTestAfter j w else s
  (s.checkRendered j.slot).showLead

/-- A request for a re-render of a mismatched or aborted job (R115, R118). -/
def State.wantRecheck (s : State) (j : TileJob) (a : Option Nat) : State :=
  { s with box := { s.box with wanted := s.box.wanted ++ [⟨.recheck, j.slot, j.ream, j.col, j.vat, some a, j.due, 0⟩] } }

/-- The common payload of R128 for a RECHECK's outcome: strip, ream, tile, the vats of A and of B. -/
def TileJob.pairFields (j : TileJob) : List (Nat × Nat) := [(1, j.slot), (4, j.ream), (1, j.col), (1, j.vatA), (1, j.vat)]

/-- R116, R117: a dispute or no agreement: the tile is DISPUTED and the strip halts before its ream. -/
def State.disputeTile (s : State) (j : TileJob) (code : Nat) (more : List (Nat × Nat)) : State :=
  let s := s.modTile j.slot j.ream j.col fun t => { t with status := 4 }
  let s := (s.showLead).raise code (j.pairFields ++ more)
  match s.stripAt j.slot with
  | some st => s.contentStop st j.ream 11 code true
  | none => s

/-- R115, R116, R118, R122: the outcome of a fine render with value b (none where it was aborted). R118 has an aborted
first render count as a value A that matches nothing: it has no CRC, and the model raises no 0x0110 and counts no mismatch
for it (DESIGN CHOICE, log entry 37). -/
def State.judgeFine (s : State) (j : TileJob) (w : Nat) (b : Option Nat) (doses : List Nat) : State :=
  let want := if j.kind = .spareTest then j.expect else w
  let s := if b.isSome ∧ b ≠ some want then s.count (cntVat j.vat 2) else s
  match j.kind with
  | .recheck =>
    let a := j.valueA.getD none
    if b = some w then
      let s := s.acceptTile j doses false w
      s.retireVat j.vatA 0x0201 [(1, j.slot), (4, j.ream), (1, j.col), (1, j.vatA), (1, j.kind.code)] j.slot j.ream j.col
    else if b.isSome ∧ b = a then
      let s := s.count (cntHbx 3)
      if s.on Reg.HBX_WM_POLICY_TRUST_TWO then
        (s.raise 0x0113 (j.pairFields ++ [(4, a.getD 0), (4, w)])).acceptTile j doses true w
      else s.disputeTile j 0x0112 [(4, a.getD 0), (4, w)]
    else
      s.disputeTile j 0x0114 [(4, a.getD 0xFFFFFFFF), (4, b.getD 0xFFFFFFFF), (4, w)]
  | .spareTest =>
    let s := (s.count (cntHbx 6)).count (cntVat j.vat 4)
    if b = some want then s
    else s.retireVat j.vat 0x0203 (j.fields ++ [(4, b.getD 0xFFFFFFFF)]) j.slot j.ream j.col
  | _ =>
    if b = some w then s.acceptTile j doses false w
    else match b with
      | some x =>
        let s := if j.kind = .fine then s.count (cntHbx 1) else s
        (s.raise 0x0110 (j.fields ++ [(4, x)])).wantRecheck j b
      | none => s.wantRecheck j none

/-- R102, R145: a job that has met a poisoned byte is set up again: its tile keeps its request. -/
def State.jobAgain (s : State) (j : TileJob) : State :=
  if j.kind = .fine ∨ j.kind = .coarse ∨ j.kind = .spareTest then s
  else { s with box := { s.box with wanted := s.box.wanted ++
    [⟨j.kind, j.slot, j.ream, j.col, j.vatA, j.valueA, j.due, j.expect⟩] } }

/-- The section of a ream of a strip, changed. -/
def State.modSection (s : State) (st : Strip) (r : Nat) (f : Section → Section) : State :=
  s.modStream st.handle fun m => { m with strips := m.strips.map fun rec =>
    if rec.id = st.stripId then
      { rec with sections := rec.sections.map fun q => if q.ream = r then f q else q }
    else rec }

/-- The CPS events that a record of a section or of a cell can raise (R77). -/
def recordFaults : List Nat := [0x0142, 0x0143, 0x0144, 0x0145, 0x0147, 0x0148, 0x0149, 0x014A, 0x014B, 0x014C, 0x014E, 0x014F]

/-- R80, R102, R145: a ream is treated as malformed on re-read: no tile of it or of a later ream in firing order is rendered
any more; a CPS event, and 0x0115. R80 does not say which CPS event a byte that cannot be read raises, nor its TYPE: its code
is a free value among those of a record, and its TYPE does not apply (log entry 2). -/
def State.malformed (s : State) (st : Strip) (r : Nat) (off : Option Nat) : State :=
  let (x, s) := s.draw
  let code := recordFaults.getD (x.toNat % 12) 0x0142
  let s := s.modSection st r fun q => { q with poisoned := none }
  let s := s.modStream st.handle fun m => { m with strips := m.strips.map fun rec =>
    if rec.id = st.stripId ∧ (s.beforeFault st r) = true then { rec with fault := some (some r, code) } else rec }
  let at' := off.getD 0xFFFFFFFFFFFF
  let s := s.raiseSev code 3 (({ code := code, sub := 0xFF } : CpsFault).payload at' 0xFFFF (some st.stripId) (some r))
  (s.raise 0x0115 [(1, st.slot), (4, r), (1, 0xFF), (1, 0xFF), (6, at')]).contentStop st r 12 code false

/-- R371: the port toward the device beyond a side; a slave has one port, to its master. -/
def State.portToward (s : State) (side : Nat) : Option Nat :=
  if s.on Reg.CSC_STATUS_SLAVE then (if bitAt (s.get Reg.CSC_STATUS_READY) 0 then some 0 else none)
  else
    let d := if side = 0 then s.get Reg.CSC_CFG_DEVICE - 1 else s.get Reg.CSC_CFG_DEVICE + 1
    s.readyPorts.find? fun p => decide ((s.csc.ports.getD p {}).peerDevice = d)

/-- R102, R145: a job ends POISON: a layout record is read again from its source where that lies in host memory, a coarse
pair is rendered again, a halo row is requested again from the device beyond its side, where its port is READY. -/
def State.poisoned (s : State) (j : TileJob) (p : PoisonAt) : State :=
  match s.stripAt j.slot with
  | none => s
  | some st =>
    let s := s.consumeFlagged (match p with
      | .record _ => 1
      | _ => 2)
    match p with
    | .record off =>
      let inDram := (((s.sectionOf st j.ream).bind (·.corrected)).getD ((s.stream st.handle).sourceDram off.toNat))
      if inDram then s.malformed st j.ream (some off.toNat)
      else (s.modSection st j.ream fun q => { q with poisoned := some off.toNat }).jobAgain j
    | .coarse r c =>
      (s.modStrip j.slot fun x => { x with
        coarse := x.coarse.filter fun e => decide (¬ (e.1 = r.toNat ∧ e.2.1 = c.toNat)),
        coarseJobs := x.coarseJobs.filter fun e => decide (¬ (e.ream = r.toNat ∧ e.col = c.toNat)),
        coarseRepairs := x.coarseRepairs ++ [(r.toNat, c.toNat, j.ream)] }).jobAgain j
    | .halo side row =>
      let s := s.modStrip j.slot fun x => { x with
        halo := x.halo.filter fun e => decide (¬ (e.1 = side.toNat ∧ e.2.1 = row.toNat)) }
      match s.portToward side.toNat with
      | none => s.malformed st j.ream none
      | some _ => (s.modStrip j.slot fun x => { x with haloAsked := x.haloAsked ++ [(side.toNat, row.toNat)] }).jobAgain j

/-- R118: a tile job that has run for more than HBX_JOB_LIMIT.CYCLES. -/
def State.overLimit (s : State) (cycles : Nat) : Bool := decide (s.get Reg.HBX_JOB_LIMIT_CYCLES < cycles)

/-! ### Coarse maps (R120, R121) -/

/-- R373: the tile columns that hold the 1,024 block columns nearest a side. -/
def edgeCols (side : Nat) : List Nat := if side = 0 then [0, 1, 2, 3] else [12, 13, 14, 15]

/-- R373: value i of a block row of a ream, counted from a side. -/
def Strip.edgeValue (st : Strip) (side r row i : Nat) : Nat :=
  let bx := if side = 0 then i else 4095 - i
  ((st.coarseAt r (bx / 256)).getD []).getD (256 * row + bx % 256) 0

/-- R373: the block rows of a ream whose edge columns are all stored are sent to the device beyond each side. -/
def State.sendHalo (s : State) (slot r : Nat) : State :=
  match s.stripAt slot with
  | none => s
  | some st =>
    let last := (s.linesOf st - 1) / 16
    s.facingSides.foldl (fun s side =>
      if (edgeCols side).all (fun j => (st.coarseAt r j).isSome) ∧
          ¬ s.csc.haloSent.any (fun h => decide (h = (slot, side, r))) then
        match s.portToward side with
        | none => s
        | some p =>
          let rows := (List.range 16).filter fun q => decide (16 * r + q ≤ last)
          let s := rows.foldl (fun s q =>
            (s.send p 9 (([st.stripId, 16 * r + q, side] ++ (List.range 1024).map (st.edgeValue side r q)).map
              Int.ofNat)).count (cntCsc 2)) s
          { s with csc := { s.csc with haloSent := s.csc.haloSent ++ [(slot, side, r)] } }
      else s) s

/-- R142, R373: what has been agreed and not sent, because no port led to its device, is sent. -/
def State.sendHalos (s : State) : State :=
  s.box.strips.foldl (fun s st =>
    ((st.coarse.map (·.1)).eraseDups).foldl (fun s r => s.sendHalo st.slot r) s) s

/-- R120: a coarse set is stored. -/
def State.storeCoarse (s : State) (slot r j : Nat) (vals : List Nat) : State :=
  let s := s.modStrip slot fun st => { st with
    coarseRepairs := st.coarseRepairs.filter fun c => decide (¬ (c.1 = r ∧ c.2.1 = j)),
    coarse := st.coarse ++ [(r, j, vals)],
    coarseJobs := st.coarseJobs.filter fun c => decide (¬ (c.ream = r ∧ c.col = j)) }
  s.sendHalo slot r

/-- R120, R140: the first ream in firing order whose tiles read a block of ream r; none where no ream reads any. -/
def State.firstReader (s : State) (st : Strip) (r : Nat) : Option Nat :=
  (calProfile s.regs st.profile).reach.map fun reach =>
    if st.backwash then min ((16 * r + 16 + reach) / 16) (reamsOf (s.linesOf st) - 1)
    else (16 * r + 15 - 16 - reach) / 16

/-- R120: two sets agree; a set of an aborted render is empty and agrees with none. -/
def setsAgree (a b : List Nat) : Bool := decide (a ≠ [] ∧ a = b)

/-- R120: the comparison of two or three coarse renders of a job. -/
def State.judgeCoarse (s : State) (slot r j : Nat) (renders : List (Nat × List Nat)) : State :=
  let keep (s : State) (disputed : Bool) : State := s.modStrip slot fun st => { st with
    coarseJobs := (st.coarseJobs.filter fun c => decide (¬ (c.ream = r ∧ c.col = j))) ++ [⟨r, j, renders, disputed⟩] }
  match renders with
  | [(_, a), (_, b)] =>
    if setsAgree a b then s.storeCoarse slot r j a else keep (s.count (cntHbx 5)) false
  | [(u, a), (v, b), (w, c)] =>
    let lose (s : State) (x : Nat) : State :=
      s.retireVat x 0x0201 [(1, slot), (4, r), (1, j), (1, x), (1, 3)] slot r j
    if setsAgree a c then lose (s.storeCoarse slot r j a) v
    else if setsAgree b c then lose (s.storeCoarse slot r j b) u
    else if setsAgree a b then lose (s.storeCoarse slot r j a) w
    else
      let s := keep s true
      let fields := [(1, slot), (4, r), (1, j), (1, u), (1, v), (1, w)]
      match s.stripAt slot with
      | none => s
      | some st =>
        let s := (st.coarseRepairs.filter fun c => decide (c.1 = r ∧ c.2.1 = j)).foldl (fun s c => s.malformed st c.2.2 none) s
        match s.firstReader st r with
        | some q => (s.raise 0x0117 fields).contentStop st q 11 0x0117 true
        | none => s.raiseSev 0x0117 2 fields
  | _ => keep s false

/-- R120: a coarse render ends with its block values. -/
def State.coarseResult (s : State) (j : TileJob) (vals : List Nat) : State :=
  match s.stripAt j.slot with
  | none => s
  | some st =>
    let before := ((st.coarseJobs.find? fun c => decide (c.ream = j.ream ∧ c.col = j.col)).map (·.renders)).getD []
    s.judgeCoarse j.slot j.ream j.col (before ++ [(j.vat, vals)])

/-- R118: a tile job is aborted after its cycles, with 0x0206: its render counts as one that matches nothing. -/
def State.abortRender (s : State) (j : TileJob) (st : Strip) (cycles : Nat) : State :=
  let s := s.count (cntVat j.vat 3)
  let s := (s.jobDone j cycles 2 (if j.kind = .coarse then 0 else 0xFFFFFFFF)).raise 0x0206 (j.fields ++ [(4, cycles)])
  if j.kind = .coarse then s.coarseResult j [] else s.judgeFine j (s.watermark st j.ream j.col) none []

/-- R130: a tile of a vat's oldest job has passed the calender with its doses, of which `lim` pixels were limited to 60; a
SPARE_TEST counts for no strip (R122). -/
def State.correctTile (s : State) (j : TileJob) (w cycles lim : Nat) (doses : List Nat) : State :=
  let crc := tileCrc doses
  let s := (s.count (cntCal 0)).countBy (cntCal 1) lim
  let s := if j.kind = .spareTest then s else
    (s.modStrip j.slot fun x => { x with limited := x.limited + lim }).modTile j.slot j.ream j.col fun x =>
      { x with renders := min 255 (x.renders + 1) }
  (s.jobDone j cycles (if crc = w then 0 else 1) crc).judgeFine j w (some crc) doses

/-- R118, R130, R114 to R116, R122: the calender finishes the oldest job of a vat, unless it has run past its limit. -/
def execTileCorrected (v : Fin 16) (out : Render) (s : State) : Out :=
  match s.takeVatJob v with
  | none => .next s
  | some (j, t) =>
    if j.kind = .coarse then .next s
    else match t.stripAt j.slot with
      | none => .next t
      | some st =>
        let src := t.tileSource st j.ream j.col
        let w := t.watermark st j.ream j.col
        let (cycles, t) := t.drawCycles (fineCycles src.src.cells j.ream j.col src.src.shapes)
        if t.overLimit cycles then .next (t.abortRender j st cycles)
        else match out with
        | .poison p => .next ((t.jobDone j cycles 3 0xFFFFFFFF).poisoned j p)
        | .right => .next (t.correctTile j w cycles (src.limited j.ream j.col) (src.tileDoses j.ream j.col))
        | .wrong bytes =>
          let (x, t) := t.draw
          .next (t.correctTile j w cycles (x.toNat % 1048577) (bytes.map (·.toNat)))

/-- R118, R120: a COARSE render completes on a vat, unless it has run past its limit. -/
def execCoarseJobDone (v : Fin 16) (out : Render) (s : State) : Out :=
  match s.takeVatJob v with
  | none => .next s
  | some (j, t) =>
    if j.kind ≠ .coarse then .next s
    else match t.stripAt j.slot with
      | none => .next t
      | some st =>
        let src := t.renderSource st j.ream j.col
        let (cycles, t) := t.drawCycles (coarseCycles src.cells j.ream j.col src.shapes)
        if t.overLimit cycles then .next (t.abortRender j st cycles)
        else match out with
        | .poison p => .next ((t.jobDone j cycles 3 0).poisoned j p)
        | .right => .next ((t.jobDone j cycles 0 0).coarseResult j (src.coarseSet j.ream j.col))
        | .wrong bytes => .next ((t.jobDone j cycles 0 0).coarseResult j (bytes.map (·.toNat)))

/-! ### The other happenings of the headbox -/

/-- R118: a tile job exceeds HBX_JOB_LIMIT.CYCLES and is aborted. -/
def execJobWatchdog (v : Fin 16) (cycles : Word) (s : State) : Out :=
  match s.takeVatJob v with
  | none => .next s
  | some (j, t) =>
    if ¬ s.overLimit cycles.toNat then .next s
    else match t.stripAt j.slot with
      | none => .next t
      | some st => .next (t.abortRender j st cycles.toNat)

/-- R102: a re-read of a poisoned record completes: the copy is repaired, or the ream is malformed on re-read. -/
def execLayoutRereadDone (slot : Fin 16) (ream : Word) (ok : Bool) (s : State) : Out :=
  match s.stripAt slot with
  | none => .next s
  | some st => match s.sectionOf st ream.toNat with
    | none => .next s
    | some q => match q.poisoned with
      | none => .next s
      | some off =>
        if ok then .next (s.modSection st ream.toNat fun q => { q with poisoned := none })
        else .next (s.malformed st ream.toNat (some off))

/-- R123, R167: a LEDGER re-render has not been accepted 256 lines before its due tick: the store's break path. -/
def execRerenderLate (slot : Fin 16) (ream : Word) (tile : Fin 16) (s : State) : Out :=
  match s.store.lost.find? fun l => decide (l.slot = slot.val ∧ l.ream = ream.toNat ∧ l.col = tile.val) with
  | some l => match l.due with
    | some d =>
      let taken := s.seq.dueBreaks.any fun b => decide (b.1 = (slot : Nat) ∧ b.2.1 = ream.toNat ∧ b.2.2.1 = (tile : Nat))
      if (d : Int) ≤ s.tickNow + 256 ∧ taken = false then
        .next ((s.raise 0x0116 [(1, slot), (4, ream.toNat), (1, tile), (1, 0xFF), (6, d)]).storeBreak slot ream.toNat tile d)
      else .next s
    | none => .next s
  | none => .next s

/-- R126: a write to HBX_VAT_ROLE_REQ: applied at once in OFF, NEAP and SLACK. -/
def execVatRoleReqWrite (v : Word) (s : State) : Out :=
  if ¬ s.domainOn 6 then .next (s.domainOffAccess 0x00200014) else
  let s := s.writeWord 0x00200014 v
  let s := { s with box := { s.box with roleReq := true } }
  if s.get Reg.EXP_STATE_STATE < 3 then .next s.applyVatRoles else .next s

/-- R135, R144: a write of one word of a profile in use: refused, with the strip that names it. Where several do, 0x0304
names the one posted first (DESIGN CHOICE, log entry 47). -/
def State.refuseProfile (s : State) (st : Strip) (n o : Nat) : State :=
  if (findRow o).isNone then s
  else (s.put Reg.CAL_STATUS_WRITE_REFUSED 1).raise 0x0304 [(1, st.slot), (4, n), (4, o)]

/-- R135, R433: a write to a register of a calender profile; a 64-bit write is one of two registers, low first. -/
def execCalProfileWrite (off : BitVec 25) (wide : Bool) (v : BitVec 64) (s : State) : Out :=
  let o := off.toNat
  let n := (o - 0x00401000) / 0x1000
  if o < 0x00402000 ∨ 0x00409000 ≤ o ∨ (findRow o).isNone ∨ o % 4 ≠ 0 ∨ (wide ∧ o % 8 ≠ 0) then .next s
  else if ¬ s.domainOn 6 then .next (s.domainOffAccess o)
  else match s.box.strips.find? fun st => decide (st.profile = n) with
    | some st =>
      let s := s.refuseProfile st n o
      .next (if wide then s.refuseProfile st n (o + 4) else s)
    | none => .next (if wide then s.writePair o v else s.writeWord o (v.setWidth 32))

/-- R145: the FINE jobs of a ream have waited 1 ms for halo blocks alone. -/
def execHaloWaitTimeout (slot : Fin 16) (ream : Word) (s : State) : Out :=
  match s.stripAt slot with
  | none => .next s
  | some st =>
    let r := ream.toNat
    match s.haloMissing st r with
    | [] => .next s
    | (side, _) :: _ =>
      if s.fineOpen st r ∧ s.roomFor st r ∧ (List.range 16).any (s.wantsFine st r) then
        let d := if side = 0 then s.get Reg.CSC_CFG_DEVICE - 1 else s.get Reg.CSC_CFG_DEVICE + 1
        .next ((s.count (cntCal 5)).raise 0x0305 [(1, slot), (4, st.profile), (4, r), (1, d)])
      else .next s

end Sys2Proof.Machine
end

