-- ==== Sys2Proof/Machine/Store.lean ====
section
/-! DEFINITION. Tile store, feed and ledger (R156 to R174). -/
namespace Sys2Proof.Machine

/-! ### The ledger's two copies (R167) -/

/-- R167: the ledger is lost for a strip: 0x0415, a prompt stop with CAUSE 14, and no resume. -/
def State.loseLedger (s : State) (slot : Nat) : State :=
  let s := (s.modStrip slot fun st => { st with ledgerLost := true }).raise 0x0415 (stoFields slot none none none none)
  if (s.stripAt slot).any (·.isOpen) then s.promptStop 14 else s

/-- R167: a copy of a strip's ledger is rewritten from the other: its poisoned bursts are written whole. -/
def State.rewriteCopy (s : State) (slot copy : Nat) : State :=
  let bad := ((s.mem.flaws.map (·.1)) ++ s.mem.poisonList.map (·.2)).filter fun b =>
    s.inLedger (64 * b) 64 && decide (s.ledgerPlace (64 * b) = (some slot, copy)) && (s.outcomeOf b).bad
  bad.foldl (fun (s : State) b => s.rewrite b false) s

/-- R167: a read of a strip's ledger: a poisoned copy 0 is rewritten from copy 1; with both poisoned it is lost. Bit 0 and
bit 1 of a ledgerPoison entry stand for the copies. -/
def State.readLedger (s : State) (slot : Nat) : State :=
  match s.store.ledgerPoison.find? fun p => decide (p.1 = slot) with
  | none => s
  | some (_, bits) =>
    if ¬ bitAt bits 0 then s
    else if bitAt bits 1 then
      if (s.stripAt slot).any (·.ledgerLost) then s else (s.consumeFlagged 5).loseLedger slot
    else
      let left : List (Nat × Nat) := s.store.ledgerPoison.filter fun p => decide (p.1 ≠ slot)
      ((({ s with store := { s.store with ledgerPoison := left } }).consumeFlagged 5).rewriteCopy slot 0).raise 0x0414
        (stoFields slot none none none none)

/-! ### Compressors (R31, R165) -/

/-- R165: compressors for the compress jobs that hold none, oldest first. -/
def lend : Nat → List CodecJob → List CodecJob
  | 0, l => l
  | _, [] => []
  | n + 1, c :: r =>
    if c.opcode = 0x30 ∧ c.engine = false then { c with engine := true } :: lend n r else c :: lend (n + 1) r

/-- R31, R165: compressors are lent to host jobs while no tile waits for the store, to at most HOST_ENG_MAX of them. -/
def State.grantEngines (s : State) : State :=
  if s.store.held.isEmpty then
    let free := s.get Reg.STO_CTRL_HOST_ENG_MAX - (s.store.codec.filter (·.engine)).length
    { s with store := { s.store with codec := lend free s.store.codec } }
  else s

/-! ### Writing a tile (R155 to R159, R170, R171) -/

/-- R156: free blocks of the store area for a chain: of those that are free, the lowest (DESIGN CHOICE, log entry 51). -/
def State.lowestFree (s : State) (n : Nat) : List Nat :=
  let held := s.heldBlocks
  ((List.range (held.length + n)).filter fun b => !natMem b held).take n

/-- R156: bytes into a class group's chain of blocks. -/
def groupWrite (base : Nat) (blocks : List Nat) (m : Memory) (off : Nat) : List Byte → Memory
  | [] => m
  | b :: r => groupWrite base blocks (m.write (base + 4096 * blocks.getD (off / 4096) 0 + off % 4096) b) (off + 1) r

/-- R156: bytes of a class group's chain of blocks. -/
def groupRead (base : Nat) (blocks : List Nat) (m : Memory) (off : Nat) : Nat → List Byte
  | 0 => []
  | n + 1 => m.read (base + 4096 * blocks.getD (off / 4096) 0 + off % 4096) :: groupRead base blocks m (off + 1) n

/-- R418, R419: the bursts of a class group's chain that a write of n bytes from an offset covers: a segment starts and is
padded to whole bursts (R155, R156), and each is written whole. -/
def State.groupSettle (s : State) (base : Nat) (blocks : List Nat) (off n : Nat) : State :=
  (List.range ((n + 63) / 64)).foldl (fun (s : State) i =>
    let o := off + 64 * i
    s.settle (base + 4096 * blocks.getD (o / 4096) 0 + o % 4096) 64) s

/-- R184: a segment's demand is written to its entry of the reserve table. -/
def State.writeDemand (s : State) (a d : Nat) : State :=
  let s := s.settle a 1
  { s with dram := s.dram.write a (byteOf d) }

/-- R155, R156, R170, R184: one segment is appended to its class group. -/
def State.storeSegment (s : State) (h : HeldTile) (backwash : Bool) (c : Nat) : State :=
  match s.reamAt h.slot h.ream with
  | none => s
  | some m =>
    let seg := segmentOf h.doses c backwash
    let (raw, bytes) := storeForm seg
    let off := (m.ends.getD c 0 + 63) / 64 * 64
    let have' := m.groups.getD c []
    let need := (off + bytes.length + 4095) / 4096 - have'.length
    let new := s.lowestFree need
    let blocks := have' ++ new
    let entry : SegEntry := ⟨off, bytes.length, flag raw, segmentCrcs seg⟩
    let i := 16 * c + h.col
    let s := s.groupSettle s.areaBase blocks off bytes.length
    let s := { s with dram := groupWrite s.areaBase blocks s.dram off bytes }
    let s := s.writeDemand (s.reserveAt m + i) (seg.foldl max 0)
    let s := s.modReam h.slot h.ream fun m => { m with
      groups := listSet m.groups c blocks,
      ends := listSet m.ends c (off + bytes.length),
      segs := (m.segs.filter fun p => decide (p.1 ≠ i)) ++ [(i, entry)],
      reserved := if h.isLedger then m.reserved else m.reserved - need,
      extra := if h.isLedger then m.extra + need else m.extra }
    (s.count (cntSto (flag raw))).countBy (cntSto 2) (burstsOf bytes.length)

/-- R157: the bursts of a tile's current copies. -/
def ReamSlot.tileBursts (m : ReamSlot) (j : Nat) : Nat :=
  (m.segs.filter fun p => decide (p.1 % 16 = j)).foldl (fun a p => a + burstsOf p.2.bytes) 0

/-- R30, R158, R171, R184, R283: a ream whose 16 tiles are stored becomes STORED: the unused part of its reservation
returns, its reserve demand is computed, and the intervals whose windows it completes are planned. -/
def State.checkStored (s : State) (slot r : Nat) : State :=
  match s.stripAt slot, s.reamAt slot r with
  | some st, some m =>
    let waiting := s.store.held.any fun h => decide (h.slot = slot ∧ h.ream = r)
    if m.state = 1 ∧ m.stored ∧ ¬ waiting then
      let s := (s.modReam slot r fun m => { m with state := 2, reserved := 0 }).setDemand (s.setup st) slot r
      ((s.showStore).planStored slot).showStopLead
    else s
  | _, _ => s

/-- R156: the store has written the oldest accepted tile, or has met a poisoned byte of it (R173). -/
def execTileStoreDone (poisoned : Bool) (s : State) : Out :=
  match s.store.held with
  | [] => .next s
  | h :: rest =>
    let s := ({ s with store := { s.store with held := rest } }).readLedger h.slot
    if poisoned ∨ h.poisoned then
      let s := (((s.modTile h.slot h.ream h.col fun t => { t with status := 0 }).showLead).consumeFlagged 3).raise 0x0404
        (stoFields h.slot (some h.ream) (some h.col) none none)
      .next s.grantEngines
    else match s.stripAt h.slot with
      | none => .next s.grantEngines
      | some st =>
        let s := (List.range 128).foldl (fun s c => s.storeSegment h st.backwash c) s
        let s := s.modReam h.slot h.ream fun m =>
          { m with tiles := listModify m.tiles h.col fun t => { t with bursts := m.tileBursts h.col } }
        .next ((s.showStore).checkStored h.slot h.ream).grantEngines

/-- R158: a renderable ream has waited 1 ms for store room. -/
def execStoRoomWait (slot : Fin 16) (ream : Word) (s : State) : Out :=
  match s.stripAt slot with
  | none => .next s
  | some st =>
    let r := ream.toNat
    if s.fineOpen st r ∧ (List.range 16).any (s.wantsFine st r) ∧ ¬ s.roomFor st r then
      .next (s.raise 0x0403 (stoFields slot (some r) none none none ++
        [(4, s.freeBlocks), (4, s.get Reg.STO_LEDGER_CFG_SLOTS - s.store.slots.length)]))
    else .next s

/-! ### The feed (R160 to R163) -/

/-- A chunk of a row: ream and chunk number in coding order. -/
structure ChunkAt where
  ream : Nat
  chunk : Nat
  deriving DecidableEq, Repr

/-- R146, R160: the line of position i (0 to 31) of a chunk. -/
def ChunkAt.line (c : ChunkAt) (backwash : Bool) (i : Nat) : Nat :=
  if backwash then 256 * c.ream + 255 - (32 * c.chunk + i) else 256 * c.ream + 32 * c.chunk + i

/-- The chunk that holds a line. -/
def chunkOfLine (backwash : Bool) (l : Nat) : ChunkAt :=
  if backwash then ⟨l / 256, (255 - l % 256) / 32⟩ else ⟨l / 256, l % 256 / 32⟩

/-- The chunk after one in firing order; none beyond the strip. -/
def ChunkAt.after (c : ChunkAt) (backwash : Bool) (reams : Nat) : Option ChunkAt :=
  if c.chunk < 7 then some ⟨c.ream, c.chunk + 1⟩
  else if backwash then (if c.ream = 0 then none else some ⟨c.ream - 1, 0⟩)
  else if c.ream + 1 < reams then some ⟨c.ream + 1, 0⟩ else none

/-- The chunk that a reader fills next for a strip's run: after its last filled half, or that of the first line its row
fires from t_a on. -/
def State.nextChunk (s : State) (st : Strip) (reader : Nat) : Option ChunkAt :=
  let n := s.linesOf st
  match (s.store.felt.filter fun h => decide (h.reader = reader ∧ h.slot = st.slot)).getLast? with
  | some h => (⟨h.ream, h.chunk⟩ : ChunkAt).after st.backwash (reamsOf n)
  | none =>
    let l := rawLine (s.setup st) st.backwash n reader s.seq.ta
    if n = 0 then none
    else if st.backwash then (if l < 0 then none else some (chunkOfLine true (min l ((n : Int) - 1)).toNat))
    else if (n : Int) ≤ l then none else some (chunkOfLine false (max l 0).toNat)

/-- R161: the tick at which a row fires the first line of a chunk within the strip. -/
def State.chunkTick (s : State) (st : Strip) (reader : Nat) (c : ChunkAt) : Int :=
  let n := s.linesOf st
  tickOfLine (s.setup st) st.backwash n reader (min (c.line st.backwash 0 : Int) ((n : Int) - 1))

/-- R161, R520: the slack of a chunk at the present tick. -/
def State.chunkSlack (s : State) (st : Strip) (reader : Nat) (c : ChunkAt) : Nat :=
  min 65535 (s.chunkTick st reader c - s.get Reg.STO_CTRL_FILL_MARGIN - s.tickNow).toNat

/-- R520: the FEED packet, where OBS_FILT lets it pass; a lost part always does. -/
def State.traceFeed (s : State) (reader : Nat) (c : ChunkAt) (status slack : Nat) : State :=
  if status = 2 ∨ slack ≤ s.get Reg.OBS_FILT_FEED_SLACK then
    s.trace 6 (leBytes 2 reader ++ leBytes 1 c.chunk ++ leBytes 1 status ++ leBytes 2 slack ++ leBytes 2 (c.ream % 65536))
  else s

/-- The stored bytes of a copy of a segment of a reader's class. -/
def State.segmentBytes (s : State) (m : ReamSlot) (reader : Nat) (e : SegEntry) : List Byte :=
  groupRead s.areaBase (m.groups.getD (reader % 128) []) s.dram e.off e.bytes

/-- R162, R417: the first byte at or after one of a copy of a segment that reads poisoned, with its burst. -/
def State.poisonAfter (s : State) (m : ReamSlot) (reader : Nat) (e : SegEntry) (first : Nat) : Option (Nat × Nat) :=
  ((List.range (burstsOf e.bytes)).filterMap fun i =>
    let o := e.off + 64 * i
    let b := (s.areaBase + 4096 * (m.groups.getD (reader % 128) []).getD (o / 4096) 0 + o % 4096) / 64
    if first < 64 * i + 64 ∧ (s.outcomeOf b).bad then some (max first (64 * i), b) else none).head?

/-- R160: a reader goes on to its segment's next chunk. Past a chunk that the decoder cannot get through it stays with the
error (log entry 54). -/
def ReaderCtx.after (r : ReaderCtx) (bytes : List Byte) : ReaderCtx :=
  match r.failed with
  | some _ => { r with chunk := r.chunk + 1 }
  | none => match decodeChunk (decide (r.entry.form = 1)) bytes r.chunk r.ctx with
    | (_, some c) => { r with chunk := r.chunk + 1, ctx := c }
    | (d, none) => { r with chunk := r.chunk + 1, failed := some ((d.err.map (·.subcode)).getD 4) }

/-- R160, R174: where a reader stands before chunk q of its segment of tile j: in the copy it has begun, or in the current
copy, which it decodes from its start. -/
def State.readerAt (s : State) (m : ReamSlot) (reader j q : Nat) : Option ReaderCtx :=
  let held := s.store.readers.find? fun r =>
    decide (r.reader = reader ∧ r.slot = m.stripSlot ∧ r.ream = m.ream ∧ r.col = j ∧ r.chunk = q)
  match held with
  | some r => some r
  | none => (m.segs.find? fun p => decide (p.1 = 16 * (reader % 128) + j)).map fun p =>
      (List.range q).foldl (fun r _ => r.after (s.segmentBytes m reader p.2))
        ⟨reader, m.stripSlot, m.ream, j, 0, p.2, FeedCtx.start, none⟩

/-- What a decode of a part of a chunk gives: its doses, or a failure's subcode, with the burst whose poison it is. -/
inductive PartRead where
  | good (doses : List Nat)
  | bad (subcode : Nat) (burst : Option Nat)
  deriving DecidableEq, Repr

/-- R149, R153, R160, R162: the part of tile j in chunk q of a stored ream, decoded from the reader's context. A segment that
is not stored is one of no bytes. -/
def State.decodePart (s : State) (m : ReamSlot) (reader j q : Nat) : PartRead :=
  match s.readerAt m reader j q with
  | none => .bad 4 none
  | some r => match r.failed with
    | some e => .bad e none
    | none =>
      let raw := decide (r.entry.form = 1)
      let bytes := s.segmentBytes m reader r.entry
      let cut := s.poisonAfter m reader r.entry (if raw then 768 * q else r.ctx.bit / 8)
      let read := match cut with
        | some (k, _) => bytes.take k
        | none => bytes
      let d := (decodeChunk raw read q r.ctx).1
      match d.err, cut with
      | some .truncation, some (_, b) => .bad 6 (some b)
      | some e, _ => .bad e.subcode none
      | none, _ => if (crc32c (d.out.map byteOf)).toNat = r.entry.crc.getD q 0 then .good d.out else .bad 5 none

/-- R21: a tile's stored copy may be read: it is accepted, or a part of it has been lost. -/
def TileRec.readable (t : TileRec) : Bool := acceptedStatus t.status

/-- R162: a part of a chunk is lost: SEGMENT mark, LOST tile, LEDGER request, 0x0411. -/
def State.losePart (s : State) (slot reader j : Nat) (c : ChunkAt) (late : Bool) (subcode : Nat) : State :=
  match s.stripAt slot with
  | none => s
  | some st =>
    let t := tickIndex (s.ledgerAt slot).tS (s.chunkTick st reader c)
    let s := (s.count (cntSto 5)).readLedger slot
    let s := s.addMark slot ⟨t, 3, if late then 2 else 1, reader, j, 0, 32⟩
    let s := s.loseTile st c.ream j
    let s := s.raise 0x0411 (stoFields slot (some c.ream) (some j) (some (reader % 128)) (some (reader / 128)) ++ [(1, subcode)])
    s.traceFeed reader c 2 0

/-- R160: the doses of a released chunk: 32 lines of 512 beam columns; lost parts are 0. -/
def chunkDoses (parts : List (Nat × List Nat)) : List Nat :=
  (List.range 32).flatMap fun i => (List.range 512).map fun k =>
    match parts.find? fun p => decide (p.1 = k / 32) with
    | some p => p.2.getD (32 * i + k % 32) 0
    | none => 0

/-- R160: the contexts that a reader saves at a chunk's end, none at the segments' end. -/
def State.contextsAfter (s : State) (slot reader : Nat) (c : ChunkAt) : List ReaderCtx :=
  match s.reamAt slot c.ream with
  | none => []
  | some m =>
    if c.chunk = 7 then []
    else (List.range 16).filterMap fun j =>
      (s.readerAt m reader j c.chunk).map fun r => r.after (s.segmentBytes m reader r.entry)

/-- R161: a chunk is released to the couches. -/
def State.releaseChunk (s : State) (st : Strip) (reader : Nat) (c : ChunkAt) (parts : List (Nat × List Nat))
    (lost : List Nat) (retried : Bool) : State :=
  let keep := s.store.retries.filter fun p => decide (¬ (p.reader = reader ∧ p.slot = st.slot))
  let half : FeltHalf := ⟨reader, st.slot, c.ream, c.chunk, chunkDoses parts, lost⟩
  let others := s.store.readers.filter fun r => decide (¬ (r.reader = reader ∧ r.slot = st.slot))
  let s := { s with store := { s.store with
    felt := s.store.felt ++ [half], retries := keep, readers := others ++ s.contextsAfter st.slot reader c } }
  let s := s.count (cntSto 3)
  if lost.isEmpty then s.traceFeed reader c (flag retried) (s.chunkSlack st reader c) else s

/-- The tiles of a reader's present chunk that wait for their second decode, or have failed it (R162). -/
def State.retriedTiles (s : State) (slot reader : Nat) (lost : Bool) : List Nat :=
  (s.store.retries.filter fun p => decide (p.reader = reader ∧ p.slot = slot ∧ p.lost = lost)).map (·.col)

/-- R162: the first failure of a part: 0x0410, and a second decode to come. -/
def State.retryPart (s : State) (slot reader j : Nat) (c : ChunkAt) (subcode : Nat) : State :=
  let part : RetryPart := { reader := reader, slot := slot, ream := c.ream, chunk := c.chunk, col := j }
  let s := { s with store := { s.store with retries := s.store.retries ++ [part] } }
  (s.count (cntSto 4)).raise 0x0410
    (stoFields slot (some c.ream) (some j) (some (reader % 128)) (some (reader / 128)) ++ [(1, subcode)])

/-- R162: the second failure of a part: it is lost, while the chunk may still wait for others. -/
def State.partFailsAgain (s : State) (slot reader j : Nat) (c : ChunkAt) (subcode : Nat) : State :=
  let retries := s.store.retries.map fun p =>
    if p.reader = reader ∧ p.slot = slot ∧ p.col = j then { p with lost := true } else p
  ({ s with store := { s.store with retries := retries } }).losePart slot reader j c false subcode

/-- R162: a part's decode, with the parts that the hardware fails. -/
def State.readPart (s : State) (m : ReamSlot) (reader q : Nat) (faults : List (Fin 16 × Fin 7)) (j : Nat) : PartRead :=
  match faults.find? fun p => decide (p.1.val = j ∧ 0 < p.2.val) with
  | some p => .bad p.2.val none
  | none => s.decodePart m reader j q

/-- R160 to R162: a reader decodes its next chunk, or its failed parts again; the chunk is released once no part waits for a
second decode. -/
def State.fillChunk (s : State) (st : Strip) (m : ReamSlot) (reader : Nat) (c : ChunkAt) (faults : List (Fin 16 × Fin 7)) :
    State :=
  let again := s.retriedTiles st.slot reader false
  let gone := s.retriedTiles st.slot reader true
  let reads := ((List.range 16).filter fun j => !natMem j gone).map fun j => (j, s.readPart m reader c.chunk faults j)
  let good := reads.filterMap fun p => match p.2 with
    | .good l => some (p.1, l)
    | .bad _ _ => none
  let bad := reads.filterMap fun p => match p.2 with
    | .good _ => none
    | .bad e b => some (p.1, e, b)
  let first := bad.filter fun p => !natMem p.1 again
  let second := bad.filter fun p => natMem p.1 again
  let s := (bad.filterMap (·.2.2)).eraseDups.foldl (fun (s : State) b => s.consumePoison b (consumer 4)) s
  let s := if bad.any (fun p => decide (p.2 = (6, none))) then s.consumeFlagged 4 else s
  let s := second.foldl (fun (s : State) p => s.partFailsAgain st.slot reader p.1 c p.2.1) s
  let s := first.foldl (fun (s : State) p => s.retryPart st.slot reader p.1 c p.2.1) s
  if first.isEmpty then s.releaseChunk st reader c good (gone ++ second.map (·.1)) (!again.isEmpty || !gone.isEmpty) else s

/-- R160 to R162: a feed reader finishes decoding a chunk, or decodes its failed parts again. `faults` lists the parts
that the hardware fails, with their subcodes (1 to 4 a decompressor error, 5 a CRC mismatch, 6 poison). A reader waits for
tiles that are to be rendered again (R21, R173). -/
def execChunkDecoded (reader : Fin 512) (faults : List (Fin 16 × Fin 7)) (s : State) : Out :=
  match s.openStrip with
  | none => .next s
  | some st =>
    let filled := (s.store.felt.filter fun h => decide (h.reader = reader.val ∧ h.slot = st.slot)).length
    match s.nextChunk st reader with
    | none => .next s
    | some c => match s.reamAt st.slot c.ream with
      | none => .next s
      | some m =>
        if 2 ≤ filled ∨ m.state < 2 ∨ m.tiles.any (fun t => !t.readable) then .next s
        else .next (s.fillChunk st m reader c faults)

/-- R162: the parts of a chunk that can be released: good ones of tiles that may be read, neither late nor failed before. -/
def State.timelyParts (s : State) (st : Strip) (reader : Nat) (c : ChunkAt) (late : List (Fin 16)) : List (Nat × List Nat) :=
  let failed := s.retriedTiles st.slot reader false ++ s.retriedTiles st.slot reader true ++ late.map Fin.val
  match s.reamAt st.slot c.ream with
  | none => []
  | some m => (List.range 16).filterMap fun j =>
      if natMem j failed ∨ (m.tiles.getD j TileRec.pending).readable = false ∨ m.state < 2 then none
      else match s.decodePart m reader j c.chunk with
        | .good l => some (j, l)
        | .bad _ _ => none

/-- R162: a chunk has not been released at t0 - FILL_MARGIN: it is released with its lost parts at zero dose. `late` lists
the parts not decoded by then, beside those that have failed, or that cannot be read. -/
def execFillDeadline (reader : Fin 512) (late : List (Fin 16)) (s : State) : Out :=
  match s.openStrip with
  | none => .next s
  | some st =>
    match s.nextChunk st reader with
    | none => .next s
    | some c =>
      let parts := s.timelyParts st reader c late
      let gone := s.retriedTiles st.slot reader true
      let lost := (List.range 16).filter fun j => parts.all (fun p => decide (p.1 ≠ j)) && !natMem j gone
      if s.get Reg.TID_TICK_STATE = 3 ∧ s.chunkTick st reader c - s.get Reg.STO_CTRL_FILL_MARGIN ≤ s.tickNow ∧
          (lost ≠ [] ∨ gone ≠ []) then
        let s := lost.foldl (fun (s : State) j => s.losePart st.slot reader j c true 7) s
        .next (s.releaseChunk st reader c parts (lost ++ gone) false)
      else .next s

/-! ### Configuration (R172) -/

/-- R172: a write to the store-area or ledger configuration. -/
def execStoConfigWrite (off : BitVec 25) (wide : Bool) (v : BitVec 64) (s : State) : Out :=
  let o := off.toNat
  if ¬ natMem (o / 8 * 8) [0x00500008, 0x00500010, 0x00500018, 0x00500020] ∨ o % 4 ≠ 0 ∨ o = 0x00500024 ∨
      (wide ∧ o % 8 ≠ 0) then .next s
  else if ¬ s.domainOn 7 then .next (s.domainOffAccess o)
  else if ¬ s.box.strips.isEmpty ∨ ¬ s.store.codec.isEmpty then
    .next ((s.put Reg.STO_STATUS_WRITE_REFUSED 1).raise 0x0402 (stoFields 0xFF none none none none ++ [(4, o)]))
  else
    let s := if wide then s.writePair o v else s.writeWord o (v.setWidth 32)
    .next s.showConfig.showStore

end Sys2Proof.Machine
end

