-- ==== Sys2Proof/Machine/Line.lean ====
section
/-! DEFINITION. One line of the couches, the comparator and the head link: doses, frames, arbitration and sending (R175 to
R195, R209 to R217, R318, R331). -/
namespace Sys2Proof.Machine

/-! ### Resume gates (R318) -/

/-- R318: driver a has an open DRIVER mark at a strip-local tick. -/
def State.driverRepair (s : State) (st : Strip) (a : Nat) (t : Int) : Bool :=
  let l := s.ledgerAt st.slot
  l.marks.any fun m => m.isOpen && decide (m.kind = 2 ∧ m.who = a ∧ m.tick = tickIndex l.tS t)

/-- R318: a reader has an open SEGMENT mark for a tile with one of its 32 lines at a strip-local tick. -/
def State.segmentRepair (s : State) (st : Strip) (row tile : Nat) (t : Int) : Bool :=
  let l := s.ledgerAt st.slot
  l.marks.any fun m => m.isOpen && decide (m.kind = 3 ∧ m.who = row ∧ m.tile = tile ∧
    (tickIndex l.tS t + 2 ^ 48 - m.tick) % 2 ^ 48 < 32)

/-- R317, R318: the continuation is open for a driver at a tick; always, in a strip that has had no stop. -/
def pastDone (st : Strip) (a : Nat) (t : Int) : Bool :=
  match st.doneTicks[a]? with
  | some g => decide (g ≤ t)
  | none => true

/-! ### Frames (R176, R180, R210, R211, R217) -/

/-- R161, R176: the final doses, for 512 beam columns, of the line that a row reads from its released chunk. -/
def State.lineDoses (s : State) (st : Strip) (row l : Nat) : List Nat :=
  let c := chunkOfLine st.backwash l
  let i := (if st.backwash then 255 - l % 256 else l % 256) % 32
  match s.store.felt.find? fun h => decide (h.reader = row ∧ h.slot = st.slot ∧ h.ream = c.ream ∧ h.chunk = c.chunk) with
  | some h => (h.doses.drop (512 * i)).take 512
  | none => []

/-- The codes of a driver's frame, by beam index e, from the doses of its row's line: R180's split where the beam's gate is
open. -/
def codesOf (rf : RegFile) (a l : Nat) (doses : List Nat) (gate : Nat → Bool) : List Nat :=
  let row := rowOfDriver rf a
  (List.range 256).map fun e =>
    let k := beamColumn rf a e
    let x := 128 * k + row % 128
    if gate k then splitDose (livePattern rf x) (doses.getD k 0) x l (row / 128) else 0

/-- A frame of zero codes. -/
def zeroCodes : List Nat := List.replicate 256 0

/-- R176, R318: the codes of driver a's frame for strip-local tick t. -/
def State.serviceCodes (s : State) (st : Strip) (a : Nat) (t : Int) : List Nat :=
  let rf := s.setup st
  let row := rowOfDriver rf a
  match firedLine rf st.backwash (s.linesOf st) row t with
  | none => zeroCodes
  | some l =>
    let whole := pastDone st a t || s.driverRepair st a t
    codesOf rf a l (s.lineDoses st row l) fun k => whole || s.segmentRepair st row (k / 32) t

/-- R196: the codes of driver a's frame for line l of a swap test. -/
def State.swapCodes (s : State) (a l : Nat) : List Nat :=
  let row := rowOfDriver s.regs a
  codesOf s.regs a l ((List.range 512).map fun k => (128 * k + row % 128 + 7 * l) % 61) fun _ => true

/-- R186: the greatest on-time of a frame in 0.1 ns; a beam of factor 0 or of code 0 is not pulsed (R218). -/
def longestPulse (rf : RegFile) (a : Nat) (codes : List Nat) : Nat :=
  let row := rowOfDriver rf a
  (List.range 256).foldl (fun m e =>
    let q := codes.getD e 0
    if q = 0 then m
    else
      let g := factorOf (livePattern rf (128 * beamColumn rf a e + row % 128)) (row / 128)
      max m (onTime rf (row / 128) g q)) 0

/-- R217: OFFSET of a driver's DOSE frame, for the head time and the predicted period of its line. -/
def frameOffset (rf : RegFile) (backwash : Bool) (a : Nat) (h : Int) (p : Nat) : Int :=
  Int.emod h 64 + roundHalfUp ((if backwash then -1 else 1) * trimOf rf (rowOfDriver rf a) * min p 10000000) 64

/-- R210 to R212: header and payload of a DOSE frame: TAG, ring position, OFFSET, and the codes in pairs. -/
def doseFrame (tag pos : Nat) (offset : Int) (codes : List Nat) : List Byte :=
  headFrame 0 pos tag (wrapInt 24 offset) ((List.range 128).map fun i =>
    BitVec.ofNat 8 (codes.getD (2 * i) 0 + 16 * codes.getD (2 * i + 1) 0))

/-! ### Arbitration (R187 to R195) -/

/-- The flag of couch n in a frame fault. -/
def couchFlag (f : FrameFault) (n : Nat) : Bool := if n = 0 then f.flagA else f.flagB

/-- A couch computes frames: it is in service, or a swap test runs on it (R188, R196, R198). -/
def State.computes (s : State) (n : Nat) : Bool :=
  decide (s.couchRole n < 2) || s.couch.test.any fun t => decide (t.first = n ∨ t.second = n)

/-- R187, R203: what a frame's checks count: corrections, self-check flags, and frame mismatches with two couches at work. -/
def State.countFault (s : State) (f : FrameFault) : State :=
  let a := s.computes 0
  let b := s.computes 1
  let s := if f.correctedA && a then s.count (cntCouch 0 0) else s
  let s := if f.correctedB && b then s.count (cntCouch 1 0) else s
  let s := if f.flagA && a then s.count (cntCouch 0 1) else s
  let s := if f.flagB && b then s.count (cntCouch 1 1) else s
  if f.differ && a && b then s.count (cntArb 0) else s

/-- R205, R417: a couch consumes a poisoned felt-buffer byte, which has no address in DRAM. -/
def State.feltPoison (s : State) : State := s.consumeFlagged 6

/-- R189, R195: the comparator's act on a service frame with a fault: the CAUSE of a zero frame, 0 where a frame is sent as
computed. -/
def State.arbitrate (s : State) (f : FrameFault) : State × Nat :=
  match s.couchWith 0, s.couchWith 1 with
  | some a, some b =>
    if f.poison then (s.feltPoison, 5)
    else if couchFlag f a ∧ couchFlag f b then (((s.soleFault a).loseCouch a 5).loseCouch b 5, 2)
    else if couchFlag f a then (s.switchOver 1, 0)
    else if couchFlag f b then (s.loseStandby b 1, 0)
    else if f.differ then (s, 1)
    else (s, 0)
  | some a, none =>
    if f.poison then (s.feltPoison, 5)
    else if couchFlag f a then ((s.soleFault a).loseCouch a 1, 3)
    else (s, 0)
  | none, _ => (s, 3)

/-- R193, R203: a zero frame: counted, and 0x0503. -/
def State.countZero (s : State) (slot index a cause : Nat) : State :=
  (s.count (cntArb 2)).raise 0x0503 (cchFields slot index (some (a / 8)) (some a) ++ [(1, cause)])

/-- R193: a zero frame of a service line: counted, 0x0503, and a DRIVER mark. -/
def State.zeroFrame (s : State) (st : Strip) (a index cause : Nat) : State :=
  (s.countZero st.slot index a cause).driverMark st.slot a index cause

/-- R186: a driver's window does not fit the period of its line: 0x050B. -/
def State.reserveShort (s : State) (slot index a need p : Nat) : State :=
  s.raise 0x050B (cchFields slot index (some (a / 8)) (some a) ++ [(4, need), (4, p)])

/-! ### Sending (R175, R190, R209) -/

/-- What a line has shown so far: mismatches, zero frames, and the chains with a zero frame. -/
structure LineTally where
  mismatches : Nat
  zeros : Nat
  chains : List Nat
  deriving DecidableEq, Repr

/-- R209: a driver's line is sent, where its chain is READY. -/
def State.sendFrame (s : State) (l : OpenLine) (frame : List Byte) : State :=
  if s.chainState (l.driver / 8) = 7 then
    { s with link := { s.link with lines := s.link.lines ++ [l] } }.modDriver l.driver fun d => { d with out := wire frame }
  else s

/-- R209: the drivers in the order of their frames: ring position 7 first, 0 last, every chain at once. -/
def frameOrder : List Nat := (List.range 1024).map fun i => 8 * (i % 128) + (7 - i / 128)

/-- R186, R189, R193, R209: one driver's frame of a service line. -/
def State.serviceFrame (s : State) (slot : Nat) (t : Int) (h : Int) (p : Nat) (faults : List FrameFault)
    (acc : LineTally) (a : Nat) : State × LineTally :=
  match s.stripAt slot with
  | none => (s, acc)
  | some st =>
    let rf := s.setup st
    let index := tickIndex (s.ledgerAt slot).tS t
    let codes := s.serviceCodes st a t
    let need := longestPulse rf a codes + rfGet rf Reg.CCH_DWELL_GUARD
    let tooLong := decide (p < need)
    let both := (s.couchWith 0).isSome && (s.couchWith 1).isSome
    let fault := faults.find? fun f => decide (f.driver.val = a)
    let s := (if tooLong then s.reserveShort slot index a need p else s).missSole
    let (s, cause) := match fault with
      | some f => (s.countFault f).arbitrate f
      | none => (s, if (s.couchWith 0).isSome then 0 else 3)
    let cause := if tooLong then 6 else cause
    let repair := !pastDone st a t &&
      (s.driverRepair st a t || (List.range 16).any fun j => s.segmentRepair st (rowOfDriver rf a) j t)
    let s := if cause = 0 then s else s.zeroFrame st a index cause
    let out := if cause = 0 then codes else zeroCodes
    let frame := doseFrame (index % 4) (a % 8) (frameOffset rf st.backwash a h p) out
    let s := s.onNewPath (a / 8) index
    let line : OpenLine :=
      { driver := a, tick := index, crc := (crc32 frame).toNat, zero := out.all (fun q => decide (q = 0)),
        newPath := s.couch.moved, repair := repair, kind := 0, blank := !decide (cause = 0) }
    let differ := both && (fault.map (·.differ)).getD false
    (s.sendFrame line frame,
      { mismatches := acc.mismatches + flag differ,
        zeros := acc.zeros + flag (!decide (cause = 0)),
        chains := if cause = 0 then acc.chains else (a / 8) :: acc.chains })

/-- R194: the runs of lines with a zero frame, chain by chain. -/
def State.zeroRuns (s : State) (chains : List Nat) : State :=
  let runs := (List.range 128).map fun n => if natMem n chains then s.couch.zeroRun.getD n 0 + 1 else 0
  { s with couch := { s.couch with zeroRun := runs } }

/-- R31, R190: what a line's slack leaves of a switch-over's backlog: the period less 1,108 lane bytes, 429.8 ns. -/
def State.recover (s : State) (p : Nat) : State :=
  { s with couch := { s.couch with backlog := s.couch.backlog - (p - 4298) } }

/-- R209, R216, R232, R245: a line goes out on each READY chain: its TICK, a new slot, one more line without a STATUS, and
qualifying windows. -/
def State.chainsSent (s : State) (index : Nat) (h : Int) : State :=
  (List.range 128).foldl (fun (s : State) n =>
    if s.chainState n = 7 then
      (s.modChain n fun c =>
        { c with silent := c.silent + 1, polls := 0, slotUsed := false, tick := tickSet index h }).qualSent n
    else s) s

/-- R203: a line computed by each couch at work. -/
def State.countLines (s : State) : State :=
  [0, 1].foldl (fun (s : State) n => if s.computes n then s.count (cntCouch n 2) else s) s

/-- R520: the COUCH packet of a line. -/
def State.traceCouch (s : State) (acc : LineTally) (moved : Bool) (gap : Nat) : State :=
  s.trace 7 (leBytes 2 acc.mismatches ++ leBytes 2 acc.zeros ++ leBytes 1 (s.get Reg.HLK_ARB_STATUS_ACTIVE) ++
    leBytes 1 (s.get Reg.HLK_ARB_STATUS_STANDBY_OK + 2 * flag moved) ++ leBytes 2 gap)

/-- R216: the last tick index sent. -/
def State.latchTick (s : State) (index : Nat) : State :=
  { s with link := { s.link with lastTick := index } }

/-- R175, R209: the 1,024 DOSE frames of strip-local tick t, driver by driver, and their tally. -/
def State.serviceFrames (s : State) (slot : Nat) (t : Int) (h : Int) (p : Nat) (faults : List FrameFault) : State × LineTally :=
  frameOrder.foldl (fun (x : State × LineTally) a => x.1.serviceFrame slot t h p faults x.2 a) (s, ⟨0, 0, []⟩)

/-- R190, R191, R520: the end of a line's emission: the runs of zero frames, the COUCH packet, the backlog, the TICK. `before`
tells whether an earlier line was on the new path of a switch-over. -/
def State.lineSent (s : State) (acc : LineTally) (before : Bool) (p index : Nat) (h : Int) : State :=
  let moved := !before && s.couch.chainFrom.any (·.isSome)
  let gap := if moved then (6 * s.couch.backlog) / 50 else 0
  ((((s.zeroRuns acc.chains).traceCouch acc moved gap).recover p).latchTick index).chainsSent index h

/-- R175, R209: the TICK and the 1,024 DOSE frames of strip-local tick t, at its head time and predicted period. -/
def State.sendLine (s : State) (slot : Nat) (t : Int) (h : Int) (p : Nat) (faults : List FrameFault) : State :=
  let r := s.countLines.serviceFrames slot t h p faults
  r.1.lineSent r.2 (s.couch.chainFrom.any (·.isSome)) p (tickIndex (s.ledgerAt slot).tS t) h

/-- R189, R196: the CAUSE of a zero frame among the frames of a swap test, 0 where the frame is sent as computed. -/
def SwapTest.zeroCause (t : SwapTest) (fa fb differ : Bool) : Nat :=
  if t.first = t.second then (if fa then 3 else 0)
  else if fa && fb then 2
  else if differ && !fa && !fb then 1
  else 0

/-- R186, R196: one driver's frame of a swap test's line, compared and arbitrated as in service, without a change of roles;
each flag or difference is a failure of step 1, as is a frame that the couch's failed domain leaves out (R189). -/
def State.swapFrame (s : State) (t : SwapTest) (index : Nat) (h : Int) (p : Nat) (faults : List FrameFault) (a : Nat) :
    State :=
  let fault := faults.find? fun f => decide (f.driver.val = a)
  let flagged (n : Nat) : Bool := (fault.map fun x => couchFlag x n).getD false || !s.domainOn (8 + n)
  let fa := flagged t.first
  let fb := flagged t.second
  let differ := (fault.map (·.differ)).getD false && decide (t.first ≠ t.second)
  let s := match fault with
    | some f => s.countFault f
    | none => s
  let s := if fa then s.testFails t.first (a / 8) 1 else s
  let s := if fb && decide (t.first ≠ t.second) then s.testFails t.second (a / 8) 1 else s
  let s := if differ && !fa && !fb then s.testFails t.second (a / 8) 1 else s
  let codes := s.swapCodes a t.line
  let need := longestPulse s.regs a codes + s.get Reg.CCH_DWELL_GUARD
  let s := if p < need then s.reserveShort 0xFF index a need p else s
  let cause := if p < need then 6 else t.zeroCause fa fb differ
  let s := if cause = 0 then s else s.countZero 0xFF index a cause
  let codes := if cause = 0 then codes else zeroCodes
  let frame := doseFrame (index % 4) (a % 8) (frameOffset s.regs false a h p) codes
  let zero := codes.all fun q => decide (q = 0)
  s.sendFrame ⟨a, index, (crc32 frame).toNat, zero, t.switched, false, 1, !decide (cause = 0)⟩ frame

/-- R196: one line of the swap test in progress. -/
def State.swapLine (s : State) (index : Nat) (h : Int) (p : Nat) (faults : List FrameFault) : State :=
  match s.couch.test with
  | none => s
  | some t =>
    if t.lines ≤ t.line ∨ (t.lines ≤ 2 * t.line ∧ ¬ t.switched) then s
    else
      let s := frameOrder.foldl (fun (s : State) a => s.swapFrame t index h p faults a) s.countLines
      let s := match s.couch.test with
        | some t' => { s with couch := { s.couch with test := some { t' with line := t.line + 1 } } }
        | none => s
      (s.latchTick index).chainsSent index h

/-- R331: one line of a measurement run: a frame of zero codes to every covered driver. -/
def State.measureLine (s : State) (index : Nat) (h : Int) (p : Nat) : State :=
  match s.hcr.run with
  | none => s
  | some r =>
    let s := r.drivers.foldl (fun (s : State) m =>
      let frame := doseFrame (index % 4) (m.addr % 8) (frameOffset s.regs false m.addr h p) zeroCodes
      s.sendFrame ⟨m.addr, index, (crc32 frame).toNat, true, false, false, 2, false⟩ frame) s
    (s.latchTick index).chainsSent index h

/-- R196, R331: one line of the test that runs. -/
def State.testLine (s : State) (index : Nat) (h : Int) (p : Nat) (faults : List FrameFault) : State :=
  if s.couch.test.isSome then s.swapLine index h p faults else s.measureLine index h p

end Sys2Proof.Machine
end

