-- ==== Sys2Proof/Machine/Strips.lean ====
section
/-! DEFINITION. The strip descriptors: STRIP, STOP, RESUME, END and LEDGER_RELEASE (R132, R142, R172, R202, R306, R324,
R448, R449). -/
namespace Sys2Proof.Machine

/-! ### STRIP (R448) -/

/-- R132: the register of profile n that holds the first field beyond its limit, in page order. -/
def profileFault (rf : RegFile) (n : Nat) : Option Nat :=
  let base := 0x00401000 + 0x1000 * n
  let w := calProfile rf n
  let s := fun i => w.rs.getD i 0
  let m := fun i => w.rm.getD i 0
  let l := fun i => w.rl.getD i 0
  if 32 < s 0 ∨ 32 < s 1 ∨ 32 < s 2 ∨ 64 < s 0 + s 1 + s 2 then some base
  else if 31 < m 0 ∨ 31 < m 1 ∨ 31 < m 0 + m 1 ∨ 1023 < l 0 ∨ 1023 < l 1 ∨ 1023 < l 0 + l 1 then some (base + 4)
  else if 6 < w.dsh then some (base + 0xC)
  else ((List.range 64).find? fun i => decide (128 < w.t.getD i 0)).map fun i => base + 0x40 + 4 * (i / 4)

/-- R142: the first selected deckle side that faces another device. -/
def State.deckleFault (s : State) (deckle : Nat) : Option Nat :=
  [0, 1].find? fun side => bitAt deckle side && s.sideFaces side

/-- R48, R132, R142, R172, R202, R384: the failing check of a post: the event and its payload. -/
def State.postFault (s : State) (d : Desc) : Option (Nat × List (Nat × Nat)) :=
  let fl := d.field 21 1
  let n := fl / 32
  match profileFault s.regs n with
  | some off => some (0x0302, [(1, 0xFF), (4, n), (4, off)])
  | none =>
    if calDigest s.regs n ≠ d.field 24 4 then some (0x0301, [(1, 0xFF), (4, n), (4, calDigest s.regs n), (4, d.field 24 4)])
    else match s.deckleFault (bitsOf fl 4 3) with
      | some side => some (0x0303, [(1, 0xFF), (4, n), (4, side)])
      | none =>
        if ¬ s.storeValid then some (0x0401, stoFields 0xFF none none none none)
        else if ¬ s.reserveValid then some (0x0510, [(1, 0xFF), (6, s.get Reg.TID_TICK_INDEX), (1, 0xFF), (2, 0xFFFF), (4, 0xFF)])
        else if s.get Reg.HLK_ROW_PITCH_PITCH = 0 ∨ s.get Reg.HLK_BAND_PITCH_PITCH = 0 then some (0x06E2, [])
        else if s.get Reg.MEM_STATUS_RATE ≠ 2 then some (0x0E08, [(1, 0xFF), (4, s.get Reg.MEM_STATUS_RATE)])
        else none

/-- R82: the parsed version 2 record that a STRIP descriptor names outside the conditions of version 2. -/
def State.restrictedV2 (s : State) (d : Desc) : Option StripRec :=
  let fl := d.field 21 1
  ((s.stream (d.field 20 1)).strips.find? fun r => decide (r.id = d.field 16 4)).filter fun r =>
    r.v2 && decide (fl / 32 ≠ 0 ∨ bitsOf fl 4 3 ≠ 0 ∨ bitAt fl 0 ∨ s.inCascade)

/-- A strip at its post (R448). -/
def Strip.posted (d : Desc) (j : Job) (slot : Nat) : Strip :=
  let fl := d.field 21 1
  { slot := slot, stripId := d.field 16 4, handle := d.field 20 1, aseq := j.aseq, ring := j.ring,
    backwash := bitAt fl 0, fixedClock := bitAt fl 1, lastOfLayer := bitAt fl 2, deckle := bitsOf fl 4 3,
    profile := fl / 32, layer := d.field 28 4, pS := sext 40 (d.field 32 5), isOpen := false, latched := none,
    hostHold := false, coarse := [], coarseJobs := [], halo := [], zeroLines := [], seams := [], releasedReams := [],
    barriers := [], limited := 0, rendered := false, ticksFired := 0, bursts := 0, ledgerLost := false,
    doneTicks := [], unsettled := [], cuts := [], passes := 0, resumeJobs := [] }

/-- R168: a free strip record: of several, the lowest (DESIGN CHOICE, log entry 39). -/
def State.freeRecord (s : State) : Option Nat := (List.range 16).find? fun i => decide ((s.ledgerAt i).state = 0)

/-- R168, R306: a strip is posted under a record. -/
def State.postStrip (s : State) (st : Strip) : State :=
  let s := s.modLedger st.slot fun _ =>
    { StripLedger.free with stripId := st.stripId, dir := flag st.backwash, state := 1 }
  let s := { s with box := { s.box with strips := s.box.strips ++ [st] } }
  let s := ((s.showProfiles).showStore).meetRecord st.slot
  ((s.judgeSeams st.slot).showLead).showStopLead

/-- R79, R82, R448: a STRIP descriptor that has been taken. -/
def State.stripJob (s : State) (d : Desc) (j : Job) : State :=
  let detail := leBytes 2 0xFF
  match (s.stream (d.field 20 1)).failed, s.restrictedV2 d with
  | some code, _ => s.complete j.aseq 1 code detail
  | none, some r => (s.raiseSev 0x0151 2 (cpsFields r.off 2 (some r.id) none)).complete j.aseq 1 0x0151 detail
  | none, none =>
    match s.postFault d with
    | some (code, payload) => (s.raise code payload).complete j.aseq 1 code detail
    | none => match s.freeRecord with
      | some slot => s.postStrip (Strip.posted d j slot)
      | none => s

/-- The checks of a STRIP body. -/
def stripChecks (d : Desc) : List (Nat × Bool) :=
  (20, decide (d.field 20 1 < 16)) :: descReserved d 22 2 ++ descReserved d 37 3 ++ descReserved d 40 24

/-- R448: a STRIP descriptor. -/
def execStrip (d : Desc) (s : State) : Out :=
  if d.field 0 1 ≠ 0x10 then .next s
  else .next (s.withDesc d false s.freeRecord.isNone (stripChecks d) fun s j => s.stripJob d j)

/-! ### STOP (R308, R315, R449) -/

/-- R449: a STOP on the open strip, by the sequencer's state. -/
def State.stopOpen (s : State) (st : Strip) (mode : Nat) (aseq : Nat) : State :=
  let q := s.get Reg.EXP_STATE_STATE
  if q = 1 ∨ q = 2 then s.complete aseq 0 0 (leBytes 1 2)
  else
    let s := { s with seq := { s.seq with stopJobs := s.seq.stopJobs ++ [aseq] } }
    if q = 3 then s.abandonFlood (65536 + 15) .hold
    else if q = 4 ∨ q = 7 then
      let s := if mode = 0 then { s with seq := { s.seq with seamStop := true } }
        else { s with seq := { s.seq with hostBreak := some (s.seq.hostBreak.getD (s.tickNow + 3)) } }
      s.planStop st s.tickNow
    else s.holdForHost st.slot

/-- R449: a STOP descriptor. -/
def execStopStrip (d : Desc) (s : State) : Out :=
  if d.field 0 1 ≠ 0x11 then .next s
  else .next (s.withDesc d false false ((20, decide (d.field 20 1 < 2)) :: descReserved d 21 43) fun s j =>
    match s.openStrip with
    | some st => if st.stripId = d.field 16 4 then s.stopOpen st (d.field 20 1) j.aseq else s.complete j.aseq 2 0 []
    | none => s.complete j.aseq 2 0 [])

/-! ### RESUME (R80, R117, R449) -/

/-- R80: a ream of a corrected source that is not parsed again: accepted, with its section still good. -/
def State.keepsSection (s : State) (st : Strip) (r : Nat) : Bool :=
  s.reamAccepted st r && (((s.recordOf st).bind fun x => x.section r).map (·.marked)).getD false

/-- R80, R449: the parse of a corrected source's bytes against the stream's library, from the first ream not yet accepted;
none where it does not match the strip. -/
def State.correctedRecord (s : State) (st : Strip) (bytes : List Byte) : Option Walked :=
  let m := s.stream st.handle
  let blank : Stream := { Stream.closed with
    isOpen := true, v2 := m.v2, received := bytes.length, last := true, ctx := .stream, cells := m.cells }
  let p := blank.walkStrip (s.get Reg.CSC_CFG_DEVICE) (s.get Reg.CSC_CFG_DEVICES) (s.keepsSection st) st.backwash bytes
    bytes.length
  match p.stream.strips with
  | [r] =>
    if fieldAt bytes 0 1 = 2 ∧ r.id = st.stripId ∧ r.lines = s.linesOf st ∧ (r.ended ∨ p.fault.isSome) then some p else none
  | _ => none

/-- R80: a strip's record with the sections of the reams not yet accepted taken from a corrected source, in DRAM or not. -/
def State.mergeRecord (s : State) (st : Strip) (new : StripRec) (inDram : Bool) : State :=
  s.modStream st.handle fun m => { m with strips := m.strips.map fun r =>
    if r.id = st.stripId then
      { new with off := r.off, idle := r.idle + new.idle, sections := new.sections.map fun q =>
          let q := { q with corrected := some inDram }
          if s.keepsSection st q.ream then (r.section q.ream).getD q else q }
    else r }

/-- R117: taking a RESUME: every unaccepted tile is rendered anew as a FINE job, and every coarse job without agreement as
a pair; what they had in flight or waiting is discarded. The causes of halts are gone, and with a corrected source those of
the layout. -/
def State.renderAnew (s : State) (slot : Nat) (newSource : Bool) : State :=
  let unaccepted (r j : Nat) : Bool := !acceptedStatus (s.tileAt slot r j).status
  let again (kind : JobKind) (k r j : Nat) : Bool := decide (k = slot) &&
    (decide (kind = JobKind.coarse) || (decide (kind = JobKind.fine ∨ kind = JobKind.recheck) && unaccepted r j))
  let slots := s.store.slots.map fun (m : ReamSlot) =>
    if m.stripSlot = slot then
      { m with tiles := m.tiles.map fun (t : TileRec) => if t.status = 4 then { t with status := 0 } else t }
    else m
  let wanted := s.box.wanted.filter fun (w : WantedJob) => !again w.kind w.slot w.ream w.col
  let s := { s with store := { s.store with slots := slots }, box := { s.box with wanted := wanted } }
  let s := s.dropJobs fun j => again j.kind j.slot j.ream j.col
  s.modStrip slot fun st => { st with
    hostHold := false, passes := 0, coarseJobs := [],
    barriers := st.barriers.filter fun b => decide (b.2 ≠ 11 ∧ (b.2 ≠ 12 ∨ newSource = false)) }

/-- R449: the strip that a RESUME names: the open one, or a posted one that waits with EXP_WAIT bit 14. -/
def State.resumeTarget (s : State) (id : Nat) : Option Strip :=
  match s.openStrip.filter fun st => decide (st.stripId = id) with
  | some st => some st
  | none => s.box.strips.find? fun st => decide (st.stripId = id) && !st.isOpen && st.hostHold

/-- R449: a corrected source is accepted for this strip now. -/
def State.sourceAllowed (s : State) (st : Strip) : Bool :=
  if st.isOpen then decide (s.get Reg.EXP_STATE_STATE = 1 ∨ s.get Reg.EXP_STATE_STATE = 2) else !st.barriers.isEmpty

/-- R449: a RESUME that is taken for a strip. -/
def State.takeResume (s : State) (st : Strip) (newSource : Bool) (aseq : Nat) : State :=
  let s := s.renderAnew st.slot newSource
  let s := s.modStrip st.slot fun x => { x with resumeJobs := x.resumeJobs ++ [aseq] }
  let s := { s with seq := { s.seq with autoStop := if st.isOpen then false else s.seq.autoStop } }
  (s.put ⟨0x00C00020, 14, 1⟩ 0).showLead

/-- R449: a RESUME descriptor that has been taken. -/
def State.resumeJob (s : State) (d : Desc) (j : Job) : State :=
  let fl := d.field 20 1
  match s.resumeTarget (d.field 16 4) with
  | none => s.complete j.aseq 2 0 []
  | some st =>
    if ¬ bitAt fl 0 then s.takeResume st false j.aseq
    else
      let n := d.field 32 4
      if bitAt fl 1 ∧ ¬ s.dramRangeOk (d.field 24 8) n then s.failRange j.aseq 1 (d.field 24 8)
      else if ¬ s.sourceAllowed st then s.complete j.aseq 2 0x0150 []
      else match s.correctedRecord st (s.readSpace (bitAt fl 1) (d.field 24 8) n) with
        | none => s.complete j.aseq 2 0x0150 []
        | some p => match p.fault, p.stream.strips with
          | some (struck, f, off, typ), _ =>
            let ream := match struck with
              | .strip _ r => r
              | .stream => none
            (s.raiseSev f.code 3 (f.payload off typ (some st.stripId) ream)).complete j.aseq 2 f.code []
          | none, r :: _ =>
            let s := s.mergeRecord st r (bitAt fl 1)
            ((s.takeResume st true j.aseq).judgeSeams st.slot)
          | none, [] => s.complete j.aseq 2 0x0150 []

/-- The checks of a RESUME body: SRC and LEN are 0 without NEW_SOURCE. -/
def resumeChecks (d : Desc) : List (Nat × Bool) :=
  let new := bitAt (d.field 20 1) 0
  [(20, decide (d.field 20 1 < 4))] ++ descReserved d 21 3 ++ descReserved d 36 28 ++
    (if new then [(24, decide (d.field 24 8 % 8 = 0)), (32, decide (0 < d.field 32 4 ∧ d.field 32 4 % 8 = 0))]
     else descReserved d 24 12)

/-- R449: a RESUME descriptor. -/
def execResume (d : Desc) (s : State) : Out :=
  if d.field 0 1 ≠ 0x12 then .next s
  else .next (s.withDesc d (bitAt (d.field 20 1) 1) false (resumeChecks d) fun s j => s.resumeJob d j)

/-! ### END and LEDGER_RELEASE (R324, R449) -/

/-- R324, R378: an END of the open strip, by the sequencer's state. -/
def State.endOpen (s : State) (st : Strip) (aseq : Nat) : State :=
  let q := s.get Reg.EXP_STATE_STATE
  let s := { s with seq := { s.seq with endJobs := s.seq.endJobs ++ [aseq] } }
  if q = 1 ∨ q = 2 then s.endInterrupted st
  else if q = 3 then s.abandonFlood (65536 + 15) .endIt
  else if q = 4 ∨ q = 7 then
    ({ s with seq := { s.seq with hostBreak := some (s.seq.hostBreak.getD (s.tickNow + 3)) } }).planStop st s.tickNow
  else s

/-- R324, R449: an END descriptor. -/
def execEndStrip (d : Desc) (s : State) : Out :=
  if d.field 0 1 ≠ 0x13 then .next s
  else .next (s.withDesc d false false (descReserved d 20 44) fun s j =>
    let id := d.field 16 4
    match s.openStrip.filter fun st => decide (st.stripId = id) with
    | some st => s.endOpen st j.aseq
    | none => match s.box.strips.find? fun st => decide (st.stripId = id) && !st.isOpen with
      | some st => (s.dropPosted st 12 0).complete j.aseq 0 0 []
      | none => s.complete j.aseq 2 0 [])

/-- R168, R449: a LEDGER_RELEASE descriptor. -/
def execLedgerRelease (d : Desc) (s : State) : Out :=
  if d.field 0 1 ≠ 0x14 then .next s
  else .next (s.withDesc d false false ((20, decide (d.field 20 1 < 16)) :: descReserved d 21 43) fun s j =>
    let slot := d.field 20 1
    let l := s.ledgerAt slot
    if l.stripId = d.field 16 4 ∧ l.state = 3 then
      let s := s.modLedger slot fun _ => StripLedger.free
      let s := { s with store := { s.store with ledgerPoison := s.store.ledgerPoison.filter fun p => decide (p.1 ≠ slot) } }
      (s.showStore).complete j.aseq 0 0 []
    else s.complete j.aseq 2 0 [])

end Sys2Proof.Machine
end

