-- ==== Sys2Proof/Machine/Estimate.lean ====
section
/-! DEFINITION. The estimator of travel and its crossing times (R44, R263 to R268), and the checks of a segment table
(R272, R273), in exact arithmetic. -/
namespace Sys2Proof.Machine

/-- The sign of a + s·√q, for q not negative. -/
def rootSign (a s q : Int) : Int :=
  if 0 ≤ a ∧ 0 ≤ s then (if a = 0 ∧ (s = 0 ∨ q = 0) then 0 else 1)
  else if a ≤ 0 ∧ s ≤ 0 then (if a = 0 ∧ (s = 0 ∨ q = 0) then 0 else -1)
  else if 0 < a then (a * a - s * s * q).sign
  else (s * s * q - a * a).sign

/-! ### The estimator (R265) -/

/-- The estimate of travel: s_k in counts, τ_k in tide clocks, v as vn/vd in 2^-32 counts per tide clock, and the
commanded acceleration in 2^-24 counts per µs², which is 1/625 of 2^-32 counts per tide clock². -/
structure Estimator where
  sk : Int
  tk : Int
  vn : Int
  vd : Int
  acc : Int
  deriving DecidableEq, Repr

/-- R44, R265: the line count of the estimate at a tide time in tide clocks, for a pitch in 2^-32 counts. -/
def Estimator.lineCount (e : Estimator) (pitch : Nat) (tau : Int) : Int :=
  let dt := tau - e.tk
  if pitch = 0 then 0
  else idiv (1250 * e.vd * (e.sk * 2 ^ 32) + 1250 * e.vn * dt + e.vd * e.acc * dt * dt) (1250 * e.vd * pitch)

/-- R265: the crossing time of line u in 1/64 tide clock, rounded up; none where the line has none. -/
def Estimator.crossing (e : Estimator) (pitch : Nat) (u : Int) : Option Int :=
  let ds := u * pitch - e.sk * 2 ^ 32
  let q := 625 * e.vn * e.vn + 2 * e.acc * ds * e.vd * e.vd
  if e.vn ≤ 0 ∨ q < 0 then none
  else
    let c := 3200 * ds * e.vd
    let reached (n : Int) : Bool := decide (0 ≤ rootSign (25 * e.vn * n - c) n q)
    let n := idiv (c * 2 ^ 32) (25 * e.vn * 2 ^ 32 + isqrt (q.toNat * 2 ^ 64))
    let n := if reached (n - 1) then n - 1 else if reached n then n else n + 1
    some (64 * e.tk + n)

/-- R263: σ of a strip's direction under a position configuration. -/
def travelSign (rf : RegFile) (backwash : Bool) : Int :=
  if backwash = decide (rfGet rf Reg.TID_POS_CFG_SWASH_NEG = 1) then 1 else -1

/-- R263: travel of a count. -/
def travelOf (rf : RegFile) (backwash : Bool) (pS : Int) (count : Nat) : Int :=
  travelSign rf backwash * signedDiff 40 count (wrapInt 40 pS)

/-- R265: the older sample of the velocity window: the latest one at least VWIN before the newest, or the oldest held. -/
def windowSample (vwin : Nat) (tk : Int) : List (Nat × Int) → Option (Nat × Int)
  | [] => none
  | [p] => some p
  | p :: r => if (vwin : Int) ≤ tk - p.2 then some p else windowSample vwin tk r

/-- R265: the samples that the estimator still needs: up to the first one at least VWIN before the newest. -/
def keepSamples (vwin : Nat) (tk : Int) : List (Nat × Int) → List (Nat × Int)
  | [] => []
  | p :: r => if (vwin : Int) ≤ tk - p.2 then [p] else p :: keepSamples vwin tk r

/-- R265: the estimator of a strip from the samples held; none while none is held. -/
def State.estimator (s : State) (st : Strip) : Option Estimator :=
  let rf := s.setup st
  match s.tid.samples with
  | [] => none
  | p :: r =>
    let sg := travelSign rf st.backwash
    let sk := travelOf rf st.backwash st.pS p.1
    let a := sg * s.tid.accAt
    match windowSample (rfGet rf Reg.TID_VWIN_VWIN) p.2 r with
    | none => some ⟨sk, p.2, sg * s.tid.velAt * 4096, 25, a⟩
    | some q =>
      let w := p.2 - q.2
      if w ≤ 0 then some ⟨sk, p.2, sg * s.tid.velAt * 4096, 25, a⟩
      else some ⟨sk, p.2, (sk - travelOf rf st.backwash st.pS q.1) * 2 ^ 32 * 1250 + a * w * w, 1250 * w, a⟩

/-! ### Segment tables (R272, R273): cubics of x = t/D from 0 to 1, in 1/400 of 2^-16 count -/

/-- A segment: duration, start position, start velocity, and the coefficients of x² and x³. -/
structure Segment where
  dur : Int
  p0 : Int
  v0 : Int
  n2 : Int
  n3 : Int
  deriving DecidableEq, Repr

/-- R272: the cubic from a start position and velocity to an end; positions in 2^-16 counts, velocities in 2^-16 counts
per µs, the duration in tide clocks. -/
def segmentFrom (p0 v0 : Int) (dur : Nat) (v1 p1 : Int) : Segment :=
  let d := 400 * (p1 - p0)
  let t : Int := dur
  ⟨t, 400 * p0, v0, 3 * d - (2 * v0 + v1) * t, (v0 + v1) * t - 2 * d⟩

/-- Position (2^-16 counts), velocity (2^-16 counts per µs) and acceleration (2^-24 counts per µs²) of a segment t tide
clocks after its start. -/
def Segment.at (g : Segment) (t : Int) : Int × Int × Int :=
  let d := g.dur
  (idiv (g.p0 * d * d * d + g.v0 * t * d * d * d + g.n2 * t * t * d + g.n3 * t * t * t) (400 * d * d * d),
   idiv (g.v0 * d * d * d + 2 * g.n2 * t * d + 3 * g.n3 * t * t) (d * d * d),
   idiv (102400 * (2 * g.n2 * d + 6 * g.n3 * t)) (d * d * d))

/-- R273: the greatest velocity magnitude within the segment is at most VMAX (counts per second). -/
def Segment.velocityOk (g : Segment) (v1 : Int) (vmax : Nat) : Bool :=
  let lim : Int := vmax * 65536
  let k := 3 * g.n3 * g.dur
  -- the vertex of the velocity lies within the segment
  let inside := decide (g.n3 ≠ 0 ∧ 0 < (-g.n2) * g.n3.sign ∧ (-g.n2) * g.n3.sign < 3 * g.n3.natAbs)
  decide ((g.v0.natAbs : Int) * 10 ^ 6 ≤ lim ∧ (v1.natAbs : Int) * 10 ^ 6 ≤ lim) &&
    (!inside || decide (((g.v0 * k - g.n2 * g.n2).natAbs : Int) * 10 ^ 6 ≤ lim * k.natAbs))

/-- Twice the accelerations at both ends, in 1/D² of 1/400 of 2^-16 count per tide clock². -/
def Segment.accStart (g : Segment) : Int := 2 * g.n2
def Segment.accEnd (g : Segment) : Int := 2 * g.n2 + 6 * g.n3

/-- R273: the acceleration at both ends is at most AMAX (counts per second²) in magnitude. -/
def Segment.accelOk (g : Segment) (amax : Nat) : Bool :=
  let lim : Int := amax * 65536 * (g.dur * g.dur)
  decide ((g.accStart.natAbs : Int) * (4 * 10 ^ 14) ≤ lim ∧ (g.accEnd.natAbs : Int) * (4 * 10 ^ 14) ≤ lim)

/-- R273: the constant jerk is at most JMAX (counts per second³) in magnitude. -/
def Segment.jerkOk (g : Segment) (jmax : Nat) : Bool :=
  decide (((6 * g.n3).natAbs : Int) * (16 * 10 ^ 22) ≤ jmax * 65536 * (g.dur * g.dur * g.dur))

/-- R273: the acceleration step at a joint is at most JMAX times 400 tide clocks. -/
def jointOk (a b : Segment) (jmax : Nat) : Bool :=
  let da := a.dur * a.dur
  let db := b.dur * b.dur
  decide (((a.accEnd * db - b.accStart * da).natAbs : Int) * (16 * 10 ^ 22) ≤ jmax * 65536 * 400 * (da * db))

/-- Whether a position (1/400 of 2^-16 count) is at most a limit, at both ends and at each turning point of a segment;
`up` false: at least the limit. -/
def Segment.bounded (g : Segment) (limit : Int) (up : Bool) : Bool :=
  let sg : Int := if up then 1 else -1
  let p0 := sg * g.p0
  let b := sg * g.v0 * g.dur
  let n2 := sg * g.n2
  let n3 := sg * g.n3
  let l := sg * limit
  let ends := decide (p0 ≤ l ∧ p0 + b + n2 + n3 ≤ l)
  if n3 = 0 then
    -- the vertex of the parabola lies within the segment and is a maximum
    ends && (!decide (n2 < 0 ∧ 0 < b ∧ b < -2 * n2) || decide (b * b ≤ 4 * (-n2) * (l - p0)))
  else
    let q := n2 * n2 - 3 * n3 * b
    if q ≤ 0 then ends
    else
      let e := 27 * n3 * n3 * (p0 - l) - 3 * n2 * n3 * b + 2 * q * n2
      ends && [1, -1].all fun (k : Int) =>
        !(decide (0 < rootSign (-n2) k q * n3.sign) && decide (rootSign (-n2 - 3 * n3) k q * n3.sign < 0)) ||
          decide (rootSign e (-2 * k * q) q ≤ 0)

/-- R273: a table's first failing entry and check: 1 velocity, 2 acceleration, 3 jerk, 4 joint, 5 position, 6 last VEL,
7 a duration below 400 (R272). Entries: duration, end velocity, end position. -/
def tableFault (vmax amax jmax : Nat) (pmin pmax : Int) : Nat → Int → Int → Option Segment →
    List (Nat × Int × Int) → Option (Nat × Nat)
  | _, _, _, _, [] => none
  | i, p0, v0, prev, (dur, v1, p1) :: rest =>
    if dur < 400 then some (i, 7)
    else
      let g := segmentFrom p0 v0 dur v1 p1
      if ¬ g.velocityOk v1 vmax then some (i, 1)
      else if ¬ g.accelOk amax then some (i, 2)
      else if ¬ g.jerkOk jmax then some (i, 3)
      else if prev.any fun a => !jointOk a g jmax then some (i, 4)
      else if ¬ (g.bounded (400 * 65536 * pmax) true && g.bounded (400 * 65536 * pmin) false) then some (i, 5)
      else if rest.isEmpty ∧ v1 ≠ 0 then some (i, 6)
      else tableFault vmax amax jmax pmin pmax (i + 1) p1 v1 (some g) rest

/-- R272: a segment entry of 16 bytes: duration, end velocity, end position (its count modulo 2^40). -/
def segmentEntry (t : List Byte) (i : Nat) : Nat × Int × Int :=
  (fieldAt t (16 * i) 4, sext 32 (fieldAt t (16 * i + 4) 4), sext 56 (fieldAt t (16 * i + 8) 8))

end Sys2Proof.Machine
end

