-- ==== Sys2Proof/Machine/Conditions.lean ====
section
/-! DEFINITION. The conditions for FLOOD and for a resume, the approach point, and what a cascade's devices tell each other
of a strip (R264, R279, R307, R319, R366, R374). -/
namespace Sys2Proof.Machine

/-! ### The approach (R279) -/

/-- R279: the approach point of a run that begins at t_a, as a count: as far behind line t_a - 2 as the stage needs to reach
the first interval's planned velocity, and to run on for 2·VWIN tide clocks. None while the interval has no plan. -/
def State.approachPoint (s : State) (st : Strip) (ta : Int) : Option Int :=
  let rf := s.setup st
  let p := pitch32 rf
  match s.planOf st.slot (s.firstInterval st ta) with
  | none => none
  | some q =>
    (stopTravel (q.rate * p) (s.get Reg.TID_PRF_AMAX_LIMIT) (s.get Reg.TID_PRF_JMAX_LIMIT) p
      (s.on Reg.TID_PRF_CTRL_BLEND)).map fun d =>
        let run := (2 * q.rate * rfGet rf Reg.TID_VWIN_VWIN + 399999999) / 400000000
        st.pS + travelSign rf st.backwash * idiv ((ta - 3 - (d + run : Nat)) * p) (2 ^ 32)

/-! ### Tide conditions (R264) -/

/-- R264, R374: the first of a strip's tide conditions that holds, numbered as R264 lists them; on a slave 7 a link that is not
READY, 8 TID_SP_CFG.EN at 1, 9 MON_EN at 1. -/
def State.tideFault (s : State) (st : Strip) (ta : Int) : Option Nat :=
  let rf := s.setup st
  if s.on Reg.CSC_STATUS_SLAVE then
    if ¬ bitAt (s.get Reg.CSC_STATUS_READY) 0 then some 7
    else if s.on Reg.TID_SP_CFG_EN then some 8
    else if rfGet rf Reg.TID_POS_CFG_MON_EN = 1 then some 9
    else none
  else if rfGet rf Reg.TID_LINE_PITCH_INT = 0 then some 1
  else if ¬ s.on Reg.TID_POS_REF then some 2
  else if s.get Reg.TID_POS_CFG2_MISS_LIMIT ≤ s.tid.missRun then some 3
  else if ¬ s.on Reg.TID_SP_CFG_EN then some 4
  else if s.get Reg.TID_PRF_VMAX_VMAX = 0 ∨ s.get Reg.TID_PRF_AMAX_LIMIT = 0 ∨ s.get Reg.TID_PRF_JMAX_LIMIT = 0 then some 5
  else match s.approachPoint st ta with
    | some a =>
      if s.getS Reg.TID_PRF_PMIN_POS ≤ a ∧ a ≤ s.getS Reg.TID_PRF_PMAX_POS then none else some 6
    | none => none

/-! ### EXP_WAIT (R307, R319) -/

/-- Least bit 32 ASEQ order (R9): job a was accepted before job b. -/
def acceptedBefore (a b : Nat) : Bool := laterThan 32 b a

/-- R359: a locked auxiliary axis is in MOVE, TABLE, HOME or STOP. -/
def State.lockedMoving (s : State) : Bool :=
  (List.range 3).any fun n => s.on (Reg.AUX_CFG_EXPOSE_LOCK n) && natMem (s.get (Reg.AUX_STATUS_STATE n)) [2, 3, 4, 5]

/-- R306, R359: an auxiliary-axis job of the strip's ring, accepted before it, has not completed; or a locked axis moves. -/
def State.auxAhead (s : State) (st : Strip) : Bool :=
  s.lockedMoving || s.host.jobs.any fun j => decide (j.ring = st.ring ∧ (j.opcode = 0x20 ∨ j.opcode = 0x21)) && acceptedBefore j.aseq st.aseq

/-- R225, R227, R250, R256, R366: both lane PLLs in lock, every chain READY, not being rechecked and with no second EQ to
come, every driver ARMED with the set-up's values, and every cascade port of the device READY. -/
def State.linkReady (s : State) (st : Strip) : Bool :=
  s.on Reg.LNS_STATUS_HEAD_LOCK && s.on Reg.LNS_STATUS_TIDE_LOCK && s.on Reg.HLK_STATUS_ALL_READY &&
    s.link.chains.all (fun c => !c.recheck && (c.deferred.isEmpty || c.again)) &&
    (List.range 1024).all (s.driverHolds (s.setup st)) &&
    (if s.on Reg.CSC_STATUS_SLAVE then bitAt (s.get Reg.CSC_STATUS_READY) 0
     else decide (popCount 3 (s.get Reg.CSC_STATUS_READY) + 1 = s.get Reg.CSC_CFG_DEVICES))

/-- R301: every loop channel with REQ_CLOSED is CLOSED, with SUP_FAIL clear. -/
def State.loopsClosed (s : State) : Bool :=
  (List.range 4).all fun n => !s.on (Reg.LOOP_SRC_REQ_CLOSED n) ||
    (decide (s.get (Reg.LOOP_MODE_STATE n) = 2) && !s.on (Reg.LOOP_STATUS_SUP_FAIL n))

/-- R196, R254, R331, R340: a test runs, or a swap test is due. -/
def State.testing (s : State) : Bool :=
  s.couch.test.isSome || s.hcr.run.isSome || s.hcr.cal.isSome || s.lanes.loop.isSome || s.testToRun.isSome

/-- R334, R413: exposure is enabled: the permit, the enable, no hold of head care, and no poison that a list could not take. -/
def State.exposureOk (s : State) : Bool :=
  s.bwt.permit && s.on Reg.BWT_ENABLE_EN && !s.on Reg.HCR_STATUS_HOLD && !s.mem.listOverrun

/-- R307, R319: the lead is greater than the stop lead at the planned rate of the first interval: bits 9 and 10. -/
def State.leadBits (s : State) (st : Strip) (ta : Int) : Nat :=
  match s.planOf st.slot (s.firstInterval st ta) with
  | none => 2 ^ 10
  | some p =>
    match s.cascadeLead st ta, s.stopLeadOfRate (s.setup st) p.rate with
    | some l, some sigma => if l ≤ sigma then 2 ^ 9 else 0
    | _, _ => 0

/-- R307: the waiting conditions that FLOOD and a resume share, as EXP_WAIT bits. -/
def State.waitBits (s : State) (st : Strip) (ta : Int) : Nat :=
  flag (s.auxAhead st) + 2 * flag (!s.linkReady st) +
  4 * flag ((s.couchWith 0).isNone || (s.on Reg.CCH_CTRL_REQUIRE_STANDBY && (s.couchWith 1).isNone)) +
  8 * flag (!s.loopsClosed) + 16 * flag (!s.exposureOk) + 32 * flag (!s.allCool) +
  64 * flag ((s.vatsOf 0).isEmpty && (s.vatsOf 1).isEmpty) + 256 * flag s.testing + s.leadBits st ta +
  2048 * flag (decide (s.get Reg.EXP_STATE_STATE = 1)) +
  16384 * flag (st.hostHold || (s.seq.autoStop && st.isOpen && !s.on Reg.EXP_CTRL_AUTO_RESUME))

/-! ### Cascade strips (R366, R374) -/

/-- R374: what the devices of a cascade compare of their strips: STRIP_ID, LINES, direction, both pitches, dmin and dmax. -/
def State.pairing (s : State) : List Int :=
  match s.openStrip.orElse (fun _ => s.box.strips.head?) with
  | none => []
  | some st =>
    let rf := s.setup st
    let d := delayBounds rf
    [st.stripId, s.linesOf st, flag st.backwash, rfGet rf Reg.HLK_ROW_PITCH_PITCH, rfGet rf Reg.HLK_BAND_PITCH_PITCH, d.1, d.2]

/-- R374: the first field on which a slave's pairing differs from the master's, counted from 1. -/
def pairingFault (mine peer : List Int) : Option Nat :=
  match (List.range 5).find? fun i => decide (mine.getD i 0 ≠ peer.getD i 0) with
  | some i => some (i + 1)
  | none =>
    if 255 < (mine.getD 5 0 - peer.getD 5 0).natAbs then some 6
    else if 255 < (mine.getD 6 0 - peer.getD 6 0).natAbs then some 7
    else none

/-- R366, R374: why a cascade strip fails: port, field, device. -/
def State.cascadeFault (s : State) : Option (Nat × Nat × Nat) :=
  if ¬ s.inCascade then none
  else if ¬ s.on Reg.CSC_STATUS_SLAVE ∧ ¬ s.on Reg.CSC_STATUS_CONFIG_OK then some (0xFF, 0, s.get Reg.CSC_CFG_DEVICES)
  else s.readyPorts.findSome? fun p =>
    let c := s.csc.ports.getD p {}
    if c.peerPairing.isEmpty then none
    else (pairingFault s.pairing c.peerPairing).map fun f => (p, f, c.peerDevice)

/-- R374, R307: EXP_WAIT bits that the slaves report, and bit 0 while one has no strip posted. -/
def State.peerBits (s : State) : Nat :=
  s.readyPorts.foldl (fun b p =>
    let c := s.csc.ports.getD p {}
    b ||| c.peerWait ||| flag c.peerPairing.isEmpty) 0

/-- R371: a slave's STATUS: lead (-1 where the run reaches the end), EXP_WAIT, hottest driver temperature, its t_a and t_e of
an interrupted strip, and its pairing. -/
def State.sendStatus (s : State) (bits : Nat) (span : List Int) : State :=
  if ¬ s.on Reg.CSC_STATUS_SLAVE then s
  else
    let lead : Int := match s.openStrip.orElse (fun _ => s.box.strips.head?) with
      | some st => match s.leadAt st s.tickNow with
        | some l => l
        | none => -1
      | none => 0
    let temp := (List.range 1024).foldl (fun (m : Int) a =>
      let v := s.getS (Reg.HLK_DRV_INFO_TEMP a)
      max m v) (-32768)
    s.send 0 7 ([lead, (bits : Int), temp, span.getD 0 0, span.getD 1 0] ++ s.pairing)

/-! ### Watching FLOOD (R308) -/

/-- R308: in FLOOD a condition of R307 that fails, or a lead at the stop lead, abandons FLOOD; the condition's number is its
EXP_WAIT bit. -/
def State.watchFlood (s : State) : State :=
  match s.openStrip with
  | none => s
  | some st =>
    if s.get Reg.EXP_STATE_STATE ≠ 3 then s
    else
      let bits := (s.waitBits st s.seq.ta - 256 * flag s.testing) ||| s.peerBits ||| (if (s.tideFault st s.seq.ta).isSome then 128 else 0)
      match (List.range 15).find? (bitAt bits) with
      | some i => s.abandonFlood i .retry
      | none => s

end Sys2Proof.Machine
end

