-- ==== Sys2Proof/Machine/Tide.lean ====
section
/-! DEFINITION. Tide unit: position inputs, the profile and its set-points, limits and the governor's registers (R258 to
R289), and the scan stage's descriptors (R450). -/
namespace Sys2Proof.Machine

/-! ### Sources and samples (R259 to R262) -/

/-- R263: the configuration that position inputs run on: the open strip's latched one, otherwise the committed one. -/
def State.tideSetup (s : State) : RegFile :=
  match s.openStrip with
  | some st => s.setup st
  | none => s.regs

/-- The source in service. -/
def State.source (s : State) : Nat := rfGet s.tideSetup Reg.TID_POS_CFG_SRC

/-- R262: the monitor source, where one is in use. -/
def State.monitorSource (s : State) : Option Nat :=
  if rfGet s.tideSetup Reg.TID_POS_CFG_MON_EN = 1 then some (rfGet s.tideSetup Reg.TID_POS_CFG_MON_SRC) else none

/-- R293: a loop channel names a serial port as its feedback. -/
def State.loopNames (s : State) (port : Nat) : Bool :=
  decide (port < 2) && (List.range 4).any fun c => decide (s.get (Reg.LOOP_SRC_FB_SRC c) = 4 + port)

/-- A source is in service, in use as monitor, or a loop's feedback. -/
def State.sourceUsed (s : State) (n : Nat) : Bool :=
  decide (s.source = n ∨ s.monitorSource = some n) || s.loopNames n

/-- The severity of an event marked HALT in RUN (R288). -/
def State.haltInRun (s : State) : Nat := if s.get Reg.TID_TICK_STATE = 3 then 3 else 2

/-- R269: from RUN, the tick generator enters HOLD, and the sequencer breaks in hardware. -/
def State.tideHold (s : State) : State :=
  if s.get Reg.TID_TICK_STATE = 3 then s.hardwareStop 5 true else s

/-- The tide payload of the present strip (R288). -/
def State.tideNow (s : State) : List (Nat × Nat) := s.tideFields s.openSlot

/-- R520: a POS packet of a sample of the source in service. -/
def State.tracePos (s : State) (count : Nat) (valid warn : Bool) (miss : Nat) : State :=
  s.trace 9 (leBytes 5 count ++ leBytes 1 (flag valid + 2 * flag warn + 4 * miss + 32 * s.source))

/-- R260: a missed sample of the source in service, with its reason. -/
def State.sampleMissed (s : State) (reason : Nat) : State :=
  let first := s.on Reg.TID_POS_VALID
  let last := s.get Reg.TID_POS_COUNT
  let run := s.tid.missRun + 1
  let s := (s.tracePos last false false reason).count (cntTid 1)
  let s := { s with tid := { s.tid with missRun := run } }.put Reg.TID_POS_VALID 0
  let s := if first then s.raise 0x0801 (s.tideNow ++ [(1, reason)]) else s
  if run = rfGet s.tideSetup Reg.TID_POS_CFG2_MISS_LIMIT then
    (s.raiseSev 0x0802 s.haltInRun (s.tideNow ++ [(4, last)])).tideHold
  else s

/-- R262: the present count of the monitor: a quadrature input's own count, or the latest one of a serial port. -/
def State.monitorCount (s : State) (rf : RegFile) : Option Nat :=
  let n := rfGet rf Reg.TID_POS_CFG_MON_SRC
  if rfGet rf Reg.TID_POS_CFG_MON_EN = 0 then none
  else if n < 2 then (s.tid.portSamples.getD n none).map (·.1)
  else some (s.tid.quads.getD (n - 2) {}).count

/-- R262: the changes of both sources since the entry to FLOOD, compared in RUN. A serial monitor that had given no count then
is compared from its first one on. -/
def State.checkMonitor (s : State) (count : Nat) : State :=
  match s.monitorCount s.tideSetup, s.tid.monRef with
  | some m, some m0 =>
    let a := signedDiff 40 count s.tid.svcRef
    let b := signedDiff 40 m m0
    if s.get Reg.TID_TICK_STATE = 3 ∧ s.get Reg.TID_MON_MON_TOL < (a - b).natAbs then
      (s.raise 0x0804 (s.tideNow ++ [(4, wrapInt 32 a), (4, wrapInt 32 b)])).tideHold
    else s
  | some m, none => { s with tid := { s.tid with svcRef := count, monRef := some m } }
  | none, _ => s

/-- R267: the high-water latch, and a reversal beyond JITTER in RUN. -/
def State.checkLatch (s : State) (st : Strip) (travel : Int) : State :=
  let q := s.get Reg.TID_TICK_STATE
  if q = 2 ∨ q = 3 then
    let high := max travel (s.tid.latch.getD travel)
    if q = 3 ∧ (rfGet (s.setup st) Reg.TID_POS_CFG2_JITTER : Int) < high - travel then
      (s.raise 0x0805 (s.tideNow ++ [(4, wrapInt 32 high), (4, wrapInt 32 travel)])).tideHold
    else { s with tid := { s.tid with latch := some high } }
  else s

/-- R267: the line count may not advance by 2 or more in one tide clock, as when a sample corrects the estimate. -/
def State.checkJump (s : State) (st : Strip) (old : Option Estimator) : State :=
  match old, s.estimator st with
  | some a, some b =>
    let p := pitch32 (s.setup st)
    let adv := b.lineCount p s.tide - a.lineCount p (s.tide - 1)
    if s.get Reg.TID_TICK_STATE = 3 ∧ 2 ≤ adv then
      (s.raise 0x0806 (s.tideNow ++ [(4, wrapInt 32 adv)])).tideHold
    else s
  | _, _ => s

/-- R268: a prediction fault: the committed and the recomputed instant, all ones where there is none. -/
def State.predictionFault (s : State) (sub : Nat) (committed : Int) (again : Option Int) : State :=
  (s.raise 0x0807 (s.tideNow ++ [(1, sub), (8, wrapInt 64 committed),
    (8, wrapInt 64 (again.getD (2 ^ 64 - 1)))])).tideHold

/-- R268: the committed lines whose instants have not passed are computed again; a period beyond 400,000 tide clocks. -/
def State.checkCommitted (s : State) (st : Strip) : State :=
  match s.estimator st with
  | none => s
  | some e =>
    if st.fixedClock ∨ s.get Reg.TID_TICK_STATE ≠ 3 then s
    else
      let p := pitch32 (s.setup st)
      let tol : Int := s.get Reg.TID_PRED_TOL
      (s.tid.committed.filter fun c => decide (0 < headDiff c.2.1 s.headTime)).foldl (fun (s : State) c =>
        if s.get Reg.TID_TICK_STATE ≠ 3 then s
        else match e.crossing p c.1 with
          | none => s.predictionFault 2 c.2.1 none
          | some x =>
            let h := s.headOf x
            if tol < ((headDiff h c.2.1).natAbs : Int) then s.predictionFault 1 c.2.1 (some h)
            else match e.crossing p (c.1 - 1) with
              | some y => if 400000 * 64 < x - y then s.predictionFault 2 c.2.1 (some h) else s
              | none => s) s

/-- R268: at each line's crossing between two samples, the difference from its committed instant. -/
def State.measureCrossings (s : State) (st : Strip) (s0 : Int) (t0 : Int) (s1 : Int) (t1 : Int) : State :=
  let p : Int := pitch32 (s.setup st)
  s.tid.committed.foldl (fun (s : State) c =>
    let target := c.1 * p
    if s0 * 2 ^ 32 < target ∧ target ≤ s1 * 2 ^ 32 then
      let x := 64 * t0 + idiv (64 * (target - s0 * 2 ^ 32) * (t1 - t0)) ((s1 - s0) * 2 ^ 32)
      let diff := (headDiff (s.headOf x) c.2.1).natAbs
      let s := { s with tid := { s.tid with committed := s.tid.committed.filter fun d => decide (d.1 ≠ c.1) } }
      let s := if s.get Reg.TID_PRED_PEAK_PEAK < diff then s.put Reg.TID_PRED_PEAK_PEAK (min diff (2 ^ 32 - 1)) else s
      if s.get Reg.TID_PRED_TOL < diff then s.count (cntTid 4) else s
    else s) s

/-- R271: in fixed-clock RUN, a sample's travel against the fractional tick number at its instant. -/
def State.checkFixed (s : State) (st : Strip) (travel tk : Int) : State :=
  let rf := s.setup st
  let div : Int := rfGet rf Reg.TID_FIXED_DIV
  let p : Int := pitch32 rf
  if st.fixedClock ∧ s.get Reg.TID_TICK_STATE = 3 then
    let dev := travel * 2 ^ 32 * 64 * div - ((s.seq.ta - 2) * 64 * div + 64 * tk - s.tid.tauA) * p
    if (s.get Reg.TID_MON_FC_TOL : Int) * 2 ^ 32 * 64 * div < dev.natAbs then
      s.predictionFault 3 (s.headOf (s.tid.tauA + (s.tickNow - s.seq.ta + 2) * div * 64)) none
    else s
  else s

/-- R272: the set-point at a tide time, of a list of segment ends, newest first: between two ends, on the cubic that joins
them; from the newest on, that one; none before the oldest. -/
def setPointIn : List SetPoint → Int → Option (Int × Int × Int)
  | [], _ => none
  | q :: r, tau =>
    if (q.at' : Int) ≤ tau then some (q.pos, q.vel, q.acc)
    else match r with
      | [] => none
      | p :: _ =>
        if (p.at' : Int) ≤ tau ∧ p.at' < q.at' then
          some ((segmentFrom p.pos p.vel (q.at' - p.at') q.vel q.pos).at (tau - p.at'))
        else setPointIn r tau

/-- R272: position, velocity and acceleration of the set-point at a tide time; the end of the segment in force where no
segment holds it. -/
def State.setPointAt (s : State) (tau : Int) : Int × Int × Int :=
  (setPointIn s.tid.setpoints tau).getD (s.tid.pos, s.tid.vel, s.tid.acc)

/-- R277: a sample against the set-point of FOLLOW_DLY µs earlier. -/
def State.checkFollow (s : State) (count : Nat) (tk : Int) : State :=
  let tol := s.get Reg.TID_PRF_CTRL_FOLLOW
  if tol = 0 then s
  else match setPointIn s.tid.setpoints (tk - 400 * s.get Reg.TID_PRF_CTRL_FOLLOW_DLY) with
    | none => s
    | some p =>
      let diff := signedDiff 40 count (wrapInt 40 (roundHalfUp p.1 65536))
      if tol < diff.natAbs then
        ((s.raiseSev 0x0808 s.haltInRun (s.tideNow ++ [(4, wrapInt 32 diff)])).stopProfile).tideHold
      else s

/-- R274: after TIDE power-up the profile is at REST at the measured position: that of the first valid sample. -/
def State.placeProfile (s : State) (count : Nat) : State :=
  if s.tid.placed then s
  else
    let pos := if s.get Reg.TID_PRF_STATUS_STATE = 0 then sext 40 count * 65536 else s.tid.pos
    { s with tid := { s.tid with placed := true, pos := pos } }

/-- R260, R265: a valid sample of the source in service: a count and the tide time of its instant. -/
def State.sampleValid (s : State) (count : Nat) (tk : Int) (warn : Bool) : State :=
  let s := (s.tracePos count true warn 0).count (cntTid 0)
  let s := if warn then s.count (cntTid 2) else s
  let s := s.puts [(Reg.TID_POS_VALID, 1), (Reg.TID_POS_COUNT, count)]
  let s := (if s.source < 2 then s.put Reg.TID_POS_REF 1 else s).placeProfile count
  let before := s.tid.samples
  let old := s.openStrip.bind fun st => s.estimator st
  let vwin := rfGet s.tideSetup Reg.TID_VWIN_VWIN
  let commanded := (s.setPointAt tk).2
  let s := { s with tid := { s.tid with
    missRun := 0, samples := (count, tk) :: keepSamples vwin tk before, velAt := commanded.1, accAt := commanded.2 } }
  let s := if s.inCascade ∧ ¬ s.on Reg.CSC_STATUS_SLAVE then
      s.sendAll 2 [s.headOf (64 * tk), (count : Int), idiv (s.setPointAt tk).1 65536] else s
  match s.openStrip with
  | none => s.checkFollow count tk
  | some st =>
    let travel := travelOf (s.setup st) st.backwash st.pS count
    let s := s.checkMonitor count
    let s := s.checkLatch st travel
    let s := s.checkJump st old
    let s := s.checkCommitted st
    let s := match before.head? with
      | some p => s.measureCrossings st (travelOf (s.setup st) st.backwash st.pS p.1) p.2 travel tk
      | none => s
    (s.checkFixed st travel tk).checkFollow count tk

/-- A reading of a source: of the one in service, a valid sample. -/
def State.reading (s : State) (n count : Nat) (tk : Int) (warn : Bool) : State :=
  if s.source = n then s.sampleValid count tk warn else s

/-! ### Serial ports (R259, R260) -/

/-- R259: an edge is driven on a port's POS_TRIG, every PERIOD tide clocks. -/
def execPosTrigger (port : Fin 2) (s : State) : Out :=
  let period := rfGet s.tideSetup Reg.TID_POS_CFG_PERIOD
  let due : Bool := match s.tid.lastEdge.getD port none with
    | some t => decide (t + period ≤ s.tide)
    | none => true
  if s.sourceUsed port ∧ due then
    .next { s with tid := { s.tid with
      lastEdge := listSet s.tid.lastEdge port (some s.tide),
      edges := listModify s.tid.edges port (· ++ [s.tide]) } }
  else .next s

/-- The oldest trigger edge of a port without its frame. -/
def State.edgeOf (s : State) (port : Nat) : Option Nat := (s.tid.edges.getD port []).head?

/-- R259: the last tide time at which an edge's frame may be complete. -/
def State.frameLimit (s : State) (edge : Nat) : Nat := edge + 4 * rfGet s.tideSetup Reg.TID_POS_CFG2_DEADLINE

/-- R259: the CRC-8 of a position frame. -/
def posCrc (l : List Byte) : Nat := (crcMsb 0x07#8 0#8 (l.flatMap fun b => bitsMsb 8 b.toNat)).toNat

/-- R260: why a frame is missed: 1 SYNC, 2 CRC, 3 late, 4 ERR, 5 reserved bits; 0 where it is valid. -/
def frameMiss (frame : List Byte) (late : Bool) : Nat :=
  let stat := fieldAt frame 1 1
  if fieldAt frame 0 1 ≠ 0xB1 then 1
  else if posCrc ((frame.drop 1).take 6) ≠ fieldAt frame 7 1 then 2
  else if late then 3
  else if bitAt stat 7 then 4
  else if stat % 64 ≠ 0 then 5
  else 0

/-- R259, R260: a frame comes for the oldest edge of a port. -/
def execPositionFrame (port : Fin 2) (frame : List Byte) (s : State) : Out :=
  match s.edgeOf port with
  | none => .next s
  | some e =>
    let s := { s with tid := { s.tid with edges := listModify s.tid.edges port (fun l => l.drop 1) } }
    match frameMiss frame (decide (s.frameLimit e < s.tide)) with
    | 0 =>
      let tk : Int := e + rfGet s.tideSetup Reg.TID_POS_CFG2_TRIG_DLY
      let s := { s with tid := { s.tid with
        portSamples := listSet s.tid.portSamples port (some (fieldAt frame 2 5, s.tide)) } }
      .next (s.reading port (fieldAt frame 2 5) tk (bitAt (fieldAt frame 1 1) 6))
    | code => .next (if s.source = port.val then s.sampleMissed code else s)

/-- R260: an edge's frame is not complete by DEADLINE. -/
def execPosFrameLate (port : Fin 2) (s : State) : Out :=
  match s.edgeOf port with
  | none => .next s
  | some e =>
    if s.frameLimit e < s.tide then
      let s := { s with tid := { s.tid with edges := listModify s.tid.edges port (fun l => l.drop 1) } }
      .next (if s.source = port.val then s.sampleMissed 3 else s)
    else .next s

/-! ### Quadrature inputs (R261) -/

/-- R261: the step of a count between two level pairs: up when A leads B; none for an illegal transition. -/
def quadStep (a b a' b' : Bool) : Option Int :=
  if a = a' ∧ b = b' then some 0
  else if a ≠ a' ∧ b ≠ b' then none
  else if a ≠ a' then some (if a' ≠ b then 1 else -1)
  else some (if a = b' then 1 else -1)

/-- The instant of a count on a quadrature input (R261). -/
def State.quadInstant (s : State) : Int := (s.tide : Int) - (rfGet s.tideSetup Reg.TID_POS_CFG_FILT + 1)

/-- R261: levels are accepted on a quadrature input. -/
def execQuadEdge (q : Fin 2) (a b : Bool) (s : State) : Out :=
  let old := s.tid.quads.getD q {}
  match quadStep old.a old.b a b with
  | some d =>
    let n := wrapInt 40 (old.count + d)
    let s := { s with tid := { s.tid with quads := listSet s.tid.quads q { a := a, b := b, count := n } } }
    if d = 0 ∨ ¬ s.sourceUsed (2 + q) then .next s else .next (s.reading (2 + q) n s.quadInstant false)
  | none =>
    let s := { s with tid := { s.tid with quads := listSet s.tid.quads q { old with a := a, b := b } } }
    if s.source = 2 + q.val then
      let s := s.raiseSev 0x0803 s.haltInRun (s.tideNow ++ [(4, old.count)])
      .next ((s.puts [(Reg.TID_POS_REF, 0), (Reg.TID_POS_VALID, 0)]).tideHold)
    else .next s

/-- R261: while ARM is 1, the first count with QUAD_Z high loads the count, clears ARM and sets REF. -/
def execQuadIndex (q : Fin 2) (s : State) : Out :=
  if s.on Reg.TID_QREF_ARM ∧ s.sourceUsed (2 + q) then
    let n := s.get Reg.TID_QREF_LOAD
    let s := s.put Reg.TID_QREF_ARM 0
    let s := if s.source = 2 + q.val then s.put Reg.TID_POS_REF 1 else s
    let s := { s with tid := { s.tid with quads := listModify s.tid.quads q fun (x : Quad) => { x with count := n } } }
    .next (s.reading (2 + q) n s.quadInstant false)
  else .next s

/-- R261: a write of TID_QREF: LOAD, and ARM where it is written 1. -/
def execTidQrefArm (v : HalfWrite) (s : State) : Out := .next (s.writeHalf 0x00A00018 v.half v.value)

/-! ### Stage jobs (R272 to R276, R450) -/

/-- R278: a count lies within PMIN to PMAX. -/
def State.targetOk (s : State) (target : Int) : Bool :=
  decide (s.getS Reg.TID_PRF_PMIN_POS ≤ target ∧ target ≤ s.getS Reg.TID_PRF_PMAX_POS)

/-- R276: a target lies behind the moving stage. -/
def State.targetBehind (s : State) (target : Int) : Bool :=
  decide ((0 < s.tid.vel ∧ target * 65536 < s.tid.pos) ∨ (s.tid.vel < 0 ∧ s.tid.pos < target * 65536))

/-- R276: a target is refused. -/
def State.refuseTarget (s : State) (aseq : Nat) (target : Int) : State :=
  (s.raise 0x080B (s.tideNow ++ [(4, wrapInt 32 target)])).complete aseq 2 0x080B []

/-- R276: the profile stops, and a reverse MOVE to a target is queued. -/
def State.reverseTo (s : State) (aseq : Nat) (target : Int) : State :=
  let s := (s.stopProfile).put Reg.TID_PRF_STATUS_REVERSE 1
  { s with tid := { s.tid with reverse := some target, reverseJob := some aseq } }

/-- R274: the profile moves to a target for a job. -/
def State.moveTo (s : State) (aseq : Option Nat) (target : Int) : State :=
  let s := s.put Reg.TID_PRF_STATUS_STATE 1
  { s with tid := { s.tid with target := some target, job := aseq } }

/-- R276, R450: a STAGE_MOVE starts in SLACK; a move under way gives way to it (log entry 40). -/
def State.startMove (s : State) (m : MoveJob) : State :=
  if ¬ s.targetOk m.target then s.refuseTarget m.aseq m.target
  else if s.targetBehind m.target then s.reverseTo m.aseq m.target
  else
    let s := match s.tid.job with
      | some a => s.complete a 11 0 []
      | none => s
    s.moveTo (some m.aseq) m.target

/-- R273: a table move starts, or is refused whole. -/
def State.startTable (s : State) (m : MoveJob) (entries : List (Nat × Int × Int)) : State :=
  match tableFault (s.get Reg.TID_PRF_VMAX_VMAX) (s.get Reg.TID_PRF_AMAX_LIMIT) (s.get Reg.TID_PRF_JMAX_LIMIT)
      (s.getS Reg.TID_PRF_PMIN_POS) (s.getS Reg.TID_PRF_PMAX_POS) 0 s.tid.pos s.tid.vel none entries with
  | some (i, check) => (s.raise 0x080C (s.tideNow ++ [(4, i), (4, Config.eventCode 0x080C check)])).complete m.aseq 2 0x080C []
  | none =>
    let s := s.put Reg.TID_PRF_STATUS_STATE 3
    { s with tid := { s.tid with
      table := entries, job := some m.aseq, segPos := s.tid.pos, segVel := s.tid.vel, segStart := s.tide } }

/-- R273, R450: the oldest waiting stage job starts where its conditions hold: SLACK; at REST for a table; not in STOP or
TABLE for a move. -/
def State.startHeld (s : State) : State :=
  match s.tid.heldJobs with
  | [] => s
  | m :: r =>
    let prf := s.get Reg.TID_PRF_STATUS_STATE
    let ready := decide (s.get Reg.EXP_STATE_STATE = 2) && match m.table with
      | some _ => decide (prf = 0)
      | none => decide (prf < 2)
    if ready then
      let s := { s with tid := { s.tid with heldJobs := r } }
      match m.table with
      | some l => s.startTable m l
      | none => s.startMove m
    else s

/-- R276, R450: a taken STAGE_MOVE: held for SLACK, but for a target behind the stage while a strip runs. -/
def State.stageMove (s : State) (aseq : Nat) (target : Int) : State :=
  let q := s.get Reg.EXP_STATE_STATE
  if natMem q [3, 4, 5, 7] ∧ s.targetBehind target then
    if ¬ s.targetOk target then s.refuseTarget aseq target
    else
      let s := if q = 3 then s.abandonFlood (65536 + 7) .retry else if q = 5 then s else s.hardwareStop 7 false
      s.reverseTo aseq target
  else ({ s with tid := { s.tid with heldJobs := s.tid.heldJobs ++ [(⟨aseq, target, none⟩ : MoveJob)] } }).startHeld

/-- R450: a STAGE_MOVE descriptor. -/
def execStageMove (d : Desc) (s : State) : Out :=
  if d.field 0 1 ≠ 0x18 then .next s
  else .next (s.withDesc d false false (descReserved d 21 43) fun s j => s.stageMove j.aseq (sext 40 (d.field 16 5)))

/-- R272, R450: the entries of a taken STAGE_TABLE. -/
def tableEntries (bytes : List Byte) (n : Nat) : List (Nat × Int × Int) := (List.range n).map (segmentEntry bytes)

/-- R450: a STAGE_TABLE descriptor; its table comes from host memory or DRAM. -/
def execStageTable (d : Desc) (s : State) : Out :=
  let n := d.field 24 4
  let dram := bitAt (d.field 28 1) 0
  if d.field 0 1 ≠ 0x19 then .next s
  else .next (s.withDesc d dram false
    ([(24, decide (1 ≤ n ∧ n ≤ 65536)),
      (28, decide (d.field 28 1 < 2))] ++ descReserved d 29 35) fun s j =>
      match s.rangeFault [(dram, d.field 16 8, 16 * n)] with
      | some a => s.failRange j.aseq 4 a
      | none =>
        let bytes := s.readSpace dram (d.field 16 8) (16 * n)
        let m : MoveJob := ⟨j.aseq, 0, some (tableEntries bytes n)⟩
        ({ s with tid := { s.tid with heldJobs := s.tid.heldJobs ++ [m] } }).startHeld)

/-! ### The planner (R272, R274 to R278, R286) -/

/-- R283: the rate envelope at a position while a strip runs: counts per second times 2^32 at most, and whether the rate was
lowered since it was first planned; none outside a strip. -/
def State.envelopeAt (s : State) (pos : Int) : Option (Nat × Bool) :=
  match s.openStrip with
  | none => none
  | some st =>
    if natMem (s.get Reg.EXP_STATE_STATE) [3, 4, 7] then
      let rf := s.setup st
      let p := pitch32 rf
      let travel := travelSign rf st.backwash * (idiv pos 65536 - st.pS)
      let line := if p = 0 then 0 else idiv (travel * 2 ^ 32) p
      let r := intervalAt rf st.backwash (s.linesOf st) (max s.seq.ta line)
      some (match s.planOf st.slot r with
        | some q => (q.rate * p, q.lowered)
        | none => (0, false))
    else none

/-- R283: the travel that the stage has left before it may enter an interval, and the velocity at which it may enter: of every
interval ahead of a position in the run, up to the first without a plan, where it must be at rest. Positions in 2^-16 counts,
velocities in counts per second times 2^32. An interval whose rate was lowered is not listed: the stage enters it at the rate
that it has (R284). -/
def State.limitsAhead (s : State) (pos : Int) : List (Int × Nat) :=
  match s.openStrip with
  | none => []
  | some st =>
    if natMem (s.get Reg.EXP_STATE_STATE) [3, 4, 7] = false then []
    else
      let rf := s.setup st
      let p := pitch32 rf
      let n := s.linesOf st
      let travel := travelSign rf st.backwash * (pos - st.pS * 65536)
      let l := (intervalsOf rf st.backwash n).map fun r => (idiv (intervalStart rf st.backwash n r * p) 65536 - travel, s.planOf st.slot r)
      let ahead := l.filter fun x => decide (0 < x.1)
      let planned := ahead.takeWhile fun x => x.2.isSome
      let ends := (ahead.drop planned.length).take 1
      (planned.filter fun x => !(x.2.any (·.lowered))).map (fun x => (x.1, (x.2.map (·.rate)).getD 0 * p)) ++
        ends.map fun x => (x.1, 0)

/-- R283: every slowdown that the envelope requires ahead still fits, from a position, velocity and acceleration. -/
def State.slowsInTime (s : State) (pos vel acc : Int) : Bool :=
  let l := s.stageLimits
  let d := motionSign vel acc
  let v := d * vel
  (s.limitsAhead pos).all fun x =>
    -- the velocity of the limit in 2^-16 counts/µs, and the slowdown to it
    let w : Int := x.2 / (10 ^ 6 * 65536)
    decide (v ≤ w) ||
      (let q := l.slowdown ((v - w) * 2 ^ 80) (d * acc * 2 ^ 72)
       decide (idiv q.1 (2 ^ 80) + idiv (w * q.2) (2 ^ 96) ≤ x.1 + 65536))

/-- R274, R275, R278, R283: a planner step may lead from the present set-point to a new one, 1 µs later: under JMAX, AMAX and
VMAX and the envelope at its position, with the stop from it within PMIN to PMAX and every slowdown ahead in time. Above VMAX or
the envelope, which a lowered limit alone can cause, it slows: its deceleration grows or lasts. In STOP there is no envelope. -/
def State.stepAllowed (s : State) (pos vel acc : Int) : Bool :=
  let j : Int := s.get Reg.TID_PRF_JMAX_LIMIT
  let a : Int := s.get Reg.TID_PRF_AMAX_LIMIT
  let amag : Int := max acc.natAbs s.tid.acc.natAbs
  let vmag : Int := max vel.natAbs s.tid.vel.natAbs
  let d := motionSign vel acc
  let slowing := decide (d * acc < d * s.tid.acc ∨ d * acc < 0)
  let stopping := decide (s.get Reg.TID_PRF_STATUS_STATE = 2)
  let env := stopping || match s.envelopeAt pos with
    | some (e, lowered) => decide ((vel.natAbs : Int) * 10 ^ 6 * 65536 ≤ e) || (lowered && slowing)
    | none => true
  let reach := s.stageLimits.stopPoint pos vel acc
  decide ((((acc - s.tid.acc).natAbs : Int) - 1) * 10 ^ 18 ≤ j * 2 ^ 24 ∧
    (acc.natAbs : Int) * 10 ^ 12 ≤ max a ((s.tid.acc.natAbs : Int) * 10 ^ 12 / 2 ^ 24) * 2 ^ 24 ∧
    ((vel - s.tid.vel).natAbs : Int) * 256 ≤ amag + 256 ∧
    ((pos - s.tid.pos).natAbs : Int) ≤ vmag + amag / 256 + 1 ∧
    s.getS Reg.TID_PRF_PMIN_POS * 65536 ≤ pos ∧ pos ≤ s.getS Reg.TID_PRF_PMAX_POS * 65536 ∧
    (stopping ∨ ((s.getS Reg.TID_PRF_PMIN_POS - 1) * 65536 ≤ reach ∧ reach ≤ (s.getS Reg.TID_PRF_PMAX_POS + 1) * 65536))) &&
  (slowing || stopping || decide ((vel.natAbs : Int) * 10 ^ 6 ≤ s.get Reg.TID_PRF_VMAX_VMAX * 65536)) && env &&
  (stopping || s.slowsInTime pos vel acc)

/-- A set-point becomes the end of the segment of 400 tide clocks that starts now, and joins those that R277 compares with, of
the last 256 steps. -/
def State.setPoint (s : State) (pos vel acc : Int) : State :=
  let now := s.tide
  let first : List SetPoint := if s.tid.setpoints.isEmpty then [⟨now, s.tid.pos, s.tid.vel, s.tid.acc⟩] else s.tid.setpoints
  { s with tid := { s.tid with pos := pos, vel := vel, acc := acc, stepAt := some now,
                               setpoints := ((⟨now + 400, pos, vel, acc⟩ : SetPoint) :: first).take 256 } }

/-- R275: once the commanded acceleration is 0, the deferred limit changes apply. -/
def State.applyDeferred (s : State) : State :=
  if s.tid.acc = 0 then
    let l := s.tid.deferred
    l.foldl (fun (s : State) d => (s.put ⟨d.1, 0, 48⟩ d.2).raise 0x080A (s.tideNow ++ [(4, d.1)]))
      (({ s with tid := { s.tid with deferred := [] } }).put Reg.TID_PRF_STATUS_DEFERRED 0)
  else s

/-- R286: the stop lead at a planner step: of the planned rate before FLOOD, of the present velocity and acceleration from then
on. -/
def State.updateStopLead (s : State) : State :=
  if s.get Reg.EXP_STATE_STATE < 3 then s.showStopLead
  else match s.openStrip with
    | none => s
    | some st =>
      let p := pitch32 (s.setup st)
      if s.tid.acc = 0 then
        match s.stopLeadAt (s.setup st) (s.tid.vel.natAbs * 10 ^ 6 * 65536) with
        | some l => s.put Reg.TID_STOP_LEAD_LINES l
        | none => s
      else if p = 0 then s
      else
        let d := (s.stageLimits.stop s.tid.vel s.tid.acc).toNat * 65536
        s.put Reg.TID_STOP_LEAD_LINES ((d + p - 1) / p + s.get Reg.TID_STOP_MARGIN)

/-- R274, R511: the motion is over: REST, its job complete with a status; or, out of STOP, the queued reverse MOVE. -/
def State.endMotion (s : State) (status : Nat) : State :=
  let s := match s.tid.job with
    | some a => s.complete a status 0 []
    | none => s
  let s := { s with tid := { s.tid with job := none, target := none, table := [] } }
  match s.tid.reverse with
  | some t =>
    let a := s.tid.reverseJob
    let s := ({ s with tid := { s.tid with reverse := none, reverseJob := none } }).put Reg.TID_PRF_STATUS_REVERSE 0
    s.moveTo a t
  | none =>
    let s := s.put Reg.TID_PRF_STATUS_STATE 0
    if s.pwr.protective then s.aonAlone else s

/-- R274: whether the set-point is at the end of its motion: at rest, and at the target in MOVE outside EBB. -/
def State.motionOver (s : State) : Bool :=
  decide (s.tid.vel = 0 ∧ s.tid.acc = 0) &&
    (decide (s.get Reg.TID_PRF_STATUS_STATE = 2) || match s.tid.target with
      | some t => decide (s.tid.pos = t * 65536)
      | none => decide (s.get Reg.EXP_STATE_STATE = 5))

/-- R272: the table's segment in force at the present tide time; the entries left, and whether the last one has ended. -/
def tableAdvance (now : Nat) : List (Nat × Int × Int) → Int → Int → Nat → List (Nat × Int × Int) × Int × Int × Nat
  | [], p, v, t => ([], p, v, t)
  | e :: r, p, v, t => if t + e.1 ≤ now then tableAdvance now r e.2.2 e.2.1 (t + e.1) else (e :: r, p, v, t)

/-- R272: the set-point of a table at a tide time: entries, start position, velocity and time of the first. -/
def tableAt (l : List (Nat × Int × Int)) (p v : Int) (t now : Nat) : Int × Int × Int :=
  match tableAdvance now l p v t with
  | ([], p, _, _) => (p, 0, 0)
  | (e :: _, p, v, t) => (segmentFrom p v e.1 e.2.1 e.2.2).at ((now : Int) - t)

/-- R272: a planner step of a table move: the set-point of the step's end; the move ends once its last entry has. -/
def State.tableStep (s : State) : State :=
  match tableAdvance s.tide s.tid.table s.tid.segPos s.tid.segVel s.tid.segStart with
  | ([], p, _, _) => (s.setPoint p 0 0).endMotion 0
  | (e :: r, p, v, t) =>
    let s := { s with tid := { s.tid with table := e :: r, segPos := p, segVel := v, segStart := t } }
    let x := tableAt (e :: r) p v t (s.tide + 400)
    s.setPoint x.1 x.2.1 x.2.2

/-- R274: 400 tide clocks have passed since the last planner step. -/
def State.stepDue (s : State) : Bool :=
  match s.tid.stepAt with
  | some t => decide (t + 400 ≤ s.tide)
  | none => true

/-- R274, R286: a planner step, every 400 tide clocks. In MOVE and STOP the segment that starts now ends at the planner's
set-point, as the operands give it (position, velocity and acceleration, and the strip-local tick at which the planned velocity
first falls below the floor of R310, all ones for none), unless the motion is over; in TABLE it follows the table. -/
def execPlannerStep (pos vel acc slow : BitVec 64) (s : State) : Out :=
  let q := s.get Reg.TID_PRF_STATUS_STATE
  if ¬ s.stepDue then .next s
  else
    let s' :=
      if q = 0 then s.setPoint s.tid.pos 0 0
      else if q = 3 then s.tableStep
      else if s.motionOver then (s.setPoint s.tid.pos 0 0).endMotion (if q = 2 then 11 else 0)
      else if s.stepAllowed pos.toInt vel.toInt acc.toInt then
        let s := s.setPoint pos.toInt vel.toInt acc.toInt
        { s with tid := { s.tid with slowTick := if slow = BitVec.allOnes 64 then none else some slow.toInt } }
      else s
    .next ((((s'.applyDeferred).updateStopLead).watchFlood).startHeld)

/-- R270, R279, R308: the stage is at rest at the approach point: the generator is armed at t_a, and the run starts. -/
def execApproachReached (s : State) : Out :=
  match s.openStrip with
  | none => .next s
  | some st =>
    if s.get Reg.EXP_STATE_STATE = 3 ∧ s.get Reg.TID_PRF_STATUS_STATE = 0 ∧ s.get Reg.TID_TICK_STATE = 0 ∧
        ¬ s.on Reg.CSC_STATUS_SLAVE then
      let tS := (s.tid.tLast + 3) % 2 ^ 48
      let s := if s.seq.resuming then s else s.modLedger st.slot fun l => { l with tS := tS }
      let s := { s with tid := { s.tid with
        armedAt := some s.seq.ta, emitted := none, latch := none, committed := [], target := none, job := none } }
      let s := s.puts [(Reg.TID_TICK_STATE, 2), (Reg.TID_PRF_STATUS_STATE, 1)]
      .next (s.tellSlaves [2, s.seq.ta, (s.ledgerAt st.slot).tS])
    else .next s

/-! ### Set-point frames (R280) -/

/-- R280: the CRC-16 of a set-point frame. -/
def setpointCrc (l : List Byte) : Nat := (crcMsb 0x1021#16 0xFFFF#16 (l.flatMap fun b => bitsMsb 8 b.toNat)).toNat

/-- R280: FLAGS of a set-point frame. -/
def State.setpointFlags (s : State) : Nat :=
  let q := s.get Reg.TID_PRF_STATUS_STATE
  flag (natMem (s.get Reg.EXP_STATE_STATE) [3, 4, 5, 7]) + 2 * flag (decide (q = 2)) + 4 * flag (decide (q = 0)) +
    8 * flag (decide (q = 3))

/-- R280: POS, VEL and ACC of a set-point as the bytes of a frame. -/
def setPointBytes (x : Int × Int × Int) : List Byte :=
  leBytes 6 (wrapInt 48 (idiv x.1 256)) ++ leBytes 3 (wrapInt 24 (idiv x.2.1 256)) ++ leBytes 4 (wrapInt 32 x.2.2)

/-- R280: POS, VEL and ACC of a set-point frame. They apply AHEAD tide clocks from now: at REST, in a table, and within the
segment in force they are the set-point's; beyond that segment they are free values, since the planner's next steps come with
its commands. -/
def State.setpointValues (s : State) : List Byte × State :=
  let tau := s.tide + s.get Reg.TID_SP_CFG_AHEAD
  let q := s.get Reg.TID_PRF_STATUS_STATE
  let known := s.tid.setpoints.head?.any fun x => decide (tau ≤ x.at')
  if q = 0 then (setPointBytes (s.tid.pos, 0, 0), s)
  else if q = 3 then (setPointBytes (tableAt s.tid.table s.tid.segPos s.tid.segVel s.tid.segStart tau), s)
  else if s.get Reg.TID_SP_CFG_AHEAD = 0 ∨ known then (setPointBytes (s.setPointAt tau), s)
  else
    let (p, s) := s.draw
    let (q, s) := s.draw
    (leBytes 8 p.toNat ++ leBytes 5 (q.toNat % 2 ^ 40), s)

/-- R280: a set-point frame's bytes. -/
def State.setpointFrame (s : State) (values : List Byte) : List Byte :=
  let body := leBytes 1 s.tid.spSeq ++ leBytes 1 s.setpointFlags ++ values ++ leBytes 1 0
  leBytes 2 0xEB90 ++ body ++ leBytes 2 (setpointCrc body)

/-- R280: with EN set, a set-point frame goes out every PERIOD tide clocks. -/
def execSetpointFrame (s : State) : Out :=
  let due : Bool := match s.tid.spAt with
    | some t => decide (t + s.get Reg.TID_SP_CFG_PERIOD ≤ s.tide)
    | none => true
  if s.on Reg.TID_SP_CFG_EN ∧ due then
    let (values, s) := s.setpointValues
    .next { s with tid := { s.tid with
      spFrame := s.setpointFrame values, spSeq := (s.tid.spSeq + 1) % 256, spAt := some s.tide } }
  else .next s

/-! ### Registers (R275, R284, R287) -/

/-- A write as the host makes it: 64 bits or 32. -/
def State.writeAny (s : State) (off : Nat) (wide : Bool) (v : BitVec 64) : State :=
  if wide then s.writePair off v else s.writeWord off (v.setWidth 32)

/-- An access is aligned to its width (R433). -/
def alignedAccess (off : Nat) (wide : Bool) : Bool := decide (off % 4 = 0) && (!wide || decide (off % 8 = 0))

/-- R275: a deferred change of a limit gives way to one that applies. -/
def State.undefer (s : State) (base : Nat) : State :=
  let l := s.tid.deferred.filter fun (d : Nat × Nat) => decide (d.1 ≠ base)
  ({ s with tid := { s.tid with deferred := l } }).put Reg.TID_PRF_STATUS_DEFERRED (flag (!l.isEmpty))

/-- R275: a write of VMAX, AMAX or JMAX. In a ramp of acceleration a change of AMAX or JMAX is deferred where the stop point
under the new limits lies beyond the present one; a stop that is no longer makes no slowdown of the plan longer either, so
that the envelope is met. Every other change applies. -/
def execTidLimitWrite (off : BitVec 25) (wide : Bool) (v : BitVec 64) (s : State) : Out :=
  let o := off.toNat
  if ¬ alignedAccess o wide ∨ ¬ natMem (o / 8 * 8) [0x00A00048, 0x00A00050, 0x00A00058] then .next s
  else
    let t := s.writeAny o wide v
    let base := o / 8 * 8
    if base = 0x00A00048 then .next (if t.get Reg.TID_PRF_VMAX_VMAX = s.get Reg.TID_PRF_VMAX_VMAX then t else t.replan)
    else
      let f : Field := ⟨base, 0, 48⟩
      let farther := decide (s.stageLimits.stop s.tid.vel s.tid.acc < t.stageLimits.stop s.tid.vel s.tid.acc)
      if s.tid.acc ≠ 0 ∧ (farther ∨ t.get f = 0) ∧ t.get f ≠ s.get f then
        let s := (s.put Reg.TID_PRF_STATUS_DEFERRED 1).count (cntTid 5)
        let s := { s with tid := { s.tid with
          deferred := (s.tid.deferred.filter fun (d : Nat × Nat) => decide (d.1 ≠ base)) ++ [(base, t.get f)] } }
        .next (s.raise 0x0809 (s.tideNow ++ [(4, base)]))
      else .next (t.undefer base)

/-- R284: a write of TID_GOV_CAP replans every interval not yet begun. -/
def execTidGovCapWrite (v : Word) (s : State) : Out :=
  let t := s.writeWord 0x00A00080 v
  .next (if t.get Reg.TID_GOV_CAP_HZ = s.get Reg.TID_GOV_CAP_HZ then t else t.replan)

/-- R287: the protected registers of the tide unit. -/
def tideProtected (off : Nat) : Bool :=
  natMem (off / 4 * 4) [0x00A00000, 0x00A00004, 0x00A00008, 0x00A0000C, 0x00A00038, 0x00A00044, 0x00A00060, 0x00A00064,
    0x00A00068, 0x00A0006C]

/-- A change of the source in service: the samples and edges of the other one are dropped, and REF follows (R261, R264). -/
def State.sourceChanged (s : State) : State :=
  let s := { s with tid := { s.tid with samples := [], missRun := 0, edges := [[], []], lastEdge := [none, none] } }
  s.puts [(Reg.TID_POS_VALID, 0), (Reg.TID_POS_REF, flag (decide (s.source < 2)))]

/-- R287: a 32-bit write of a tide register, or a 64-bit one of PMIN or PMAX: a protected one applies with the generator OFF or in
TEST and the profile at REST, and is refused otherwise. -/
def State.tideConfig (s : State) (o : Nat) (wide : Bool) (v : BitVec 64) : State :=
  if ¬ tideProtected o then (if o = 0x00A0003C then s.writeWord o (v.setWidth 32) else s)
  else if s.get Reg.TID_TICK_STATE < 2 ∧ s.get Reg.TID_PRF_STATUS_STATE = 0 then
    let t := s.writeAny o wide v
    if t.source = s.source then t else t.sourceChanged
  else s.raise 0x0810 (s.tideNow ++ [(4, o)])

/-- R287, R433: a write of a protected register; a 64-bit one of two 32-bit registers, one of them protected, acts as two. -/
def execTidConfigWrite (off : BitVec 25) (wide : Bool) (v : BitVec 64) (s : State) : Out :=
  let o := off.toNat
  if ¬ alignedAccess o wide ∨ ¬ (tideProtected o ∨ (wide ∧ tideProtected (o + 4))) then .next s
  else if wide ∧ o < 0x00A00060 then
    .next ((s.tideConfig o false v).tideConfig (o + 4) false (v >>> 32))
  else .next (s.tideConfig o wide v)

end Sys2Proof.Machine
end

