-- ==== Sys2Proof/Machine/Expose.lean ====
section
/-! DEFINITION. The exposure sequencer: emission of ticks, entry to FLOOD, exposure and its end, breaks, resume and neap
(R266, R270, R271, R305 to R325). -/
namespace Sys2Proof.Machine

/-! ### Run and its ticks (R308 to R313, R171) -/

/-- The last tick of a strip's run, N + E - 1 (R37, R309). -/
def State.lastTick (s : State) (st : Strip) : Int := (s.linesOf st : Int) + extentOf (s.setup st) - 1

/-- R322: the cut lines of the strip's last hardware stop are reported at entry to RESUME. -/
def State.reportCuts (s : State) (st : Strip) : State :=
  match st.cuts with
  | [] => s
  | l =>
    let s := (s.modStrip st.slot fun x => { x with cuts := [] }).countBy (cntExp 5) l.length
    s.raise 0x0A0C (s.expFields st.slot ++ [(4, l.length)])

/-- R308, R320: at the emission of lead tick t_a - 2, the sequencer enters EXPOSE, or RESUME for a resume. -/
def State.beginRun (s : State) (st : Strip) : State :=
  let s := { s with
    link := { s.link with outcomes := [] },
    couch := { s.couch with
      moved := false, chainFrom := List.replicate 128 none, gone := none, pathJudged := false, backlog := 0,
      zeroRun := List.replicate 128 0 },
    seq := { s.seq with lowRaised := false } }
  if s.seq.resuming then
    let s := (s.enter 7).count (cntExp 3)
    let s := s.puts [(Reg.EXP_RESUME_PASSES, st.passes), (Reg.EXP_RESUME_TICK, tickIndex (s.ledgerAt st.slot).tS s.seq.ta)]
    let s := s.raise 0x0A08 (s.expFields st.slot ++ [tickField s.seq.ta, tickField s.seq.te])
    let s := (s.modStrip st.slot fun x => { x with resumeJobs := [] }).completeAll st.resumeJobs 0 0 []
    s.reportCuts st
  else s.enter 4

/-- The band state of a ream at a tick (R170): firing from the first line of the band's rows, done after the last. -/
def bandAt (rf : RegFile) (backwash : Bool) (n r b : Nat) (old : Nat) (t : Int) : Nat :=
  let lo : Int := 256 * r
  let hi : Int := min (256 * (r : Int) + 255) ((n : Int) - 1)
  let rows := (List.range 128).map fun c => 128 * b + c
  let first := if backwash then hi else lo
  let last := if backwash then lo else hi
  if rows.all fun row => decide (tickOfLine rf backwash n row last < t) then 2
  else if rows.any fun row => decide (tickOfLine rf backwash n row first ≤ t) then max old 1
  else old

/-- R171: a ream's slot at a fired tick: FIRING from its first line, FREE or HELD on the tick after its last. -/
def State.fireReam (s : State) (st : Strip) (t : Int) (m : ReamSlot) : State :=
  let rf := s.setup st
  let n := s.linesOf st
  if m.stripSlot ≠ st.slot ∨ m.state < 2 ∨ 3 < m.state ∨ t < firstTickOfReam rf st.backwash n m.ream then s
  else
    let s := s.modReam st.slot m.ream fun x =>
      { x with state := 3, bands := (List.range 4).map fun b => bandAt rf st.backwash n m.ream b (x.bands.getD b 0) t }
    if t ≤ lastTickOfReam rf st.backwash n m.ream then s
    else if (s.reamMarks st m.ream).isEmpty then s.releaseReam st.slot m.ream
    else s.modReam st.slot m.ream fun x => { x with state := 4 }

/-- R160, R161: a half of a reader's felt buffer whose lines have all been staged gives way, but for its reader's last. -/
def State.dropFelt (s : State) (st : Strip) (t : Int) : State :=
  let rf := s.setup st
  let n := s.linesOf st
  let past (h : FeltHalf) : Bool :=
    let c : ChunkAt := ⟨h.ream, h.chunk⟩
    decide (tickOfLine rf st.backwash n h.reader (c.line st.backwash 31) ≤ t + 2)
  let lasts (h : FeltHalf) (later : List FeltHalf) : Bool := later.all fun x => decide (x.reader ≠ h.reader)
  let rec keep : List FeltHalf → List FeltHalf
    | [] => []
    | h :: later => if past h && !lasts h later then keep later else h :: keep later
  { s with store := { s.store with felt := keep s.store.felt } }

/-- A fired tick of the run: counted, with the reams it fires. -/
def State.fireTick (s : State) (st : Strip) (t : Int) : State :=
  let s := if s.firing ∧ s.seq.ta ≤ t ∧ t < s.lastTick st then
      (s.count (cntExp 7)).modStrip st.slot fun x => { x with ticksFired := x.ticksFired + 1 }
    else s
  let s := s.store.slots.foldl (fun s m => s.fireReam st t m) s
  s.dropFelt st t

/-- R309, R320: the sequencer enters EBB, and the generator goes to OFF. -/
def State.enterEbb (s : State) : State :=
  let s := { s with seq := { s.seq with seamStop := false, hostBreak := none, relayed := none, prompt := none },
                    tid := { s.tid with armedAt := none, target := none } }
  let s := s.puts [(Reg.TID_TICK_STATE, 0), (Reg.EXP_STATE_STOP_PLANNED, 0), (Reg.EXP_STATE_LOW_LEAD, 0),
    (Reg.EXP_PLAN_CAUSE, 0), (Reg.EXP_PLAN_TICK, 2 ^ 48 - 1), (Reg.TID_GOV_NOW_HZ, 0)]
  s.enter 5

/-- R310 to R313: the lead watch and the planned stop at an emitted tick; a plan whose tick minus 2 has come is carried
out. The master of a cascade watches the least lead of all devices (R374). -/
def State.watchTick (s : State) (st : Strip) (t : Int) : State :=
  let due := match s.plannedStop st with
    | some (x, _) => decide (x ≤ t + 2)
    | none => false
  if due then s.carryOut st t
  else
    let s := if s.on Reg.CSC_STATUS_SLAVE then s else s.watchLead st t
    let s := s.planStop st t
    s.carryOut st t

/-- R282: TID_GOV_NOW shows the planned rate of the interval in force and its cause. -/
def State.showRate (s : State) (st : Strip) (t : Int) : State :=
  let r := intervalAt (s.setup st) st.backwash (s.linesOf st) t
  match (if s.on Reg.CSC_STATUS_SLAVE then
      (s.csc.planRates.find? fun p => decide (p.1 = r)).map fun p => (p.2.1, p.2.2)
    else (s.planOf st.slot r).map fun p => (p.rate, p.cause)) with
  | some p => s.puts [(Reg.TID_GOV_NOW_HZ, p.1), (Reg.TID_GOV_NOW_CAUSE, p.2)]
  | none => s

/-- R26, R508, R511: a tick while a reset waits for REST: lines before FINAL_BREAK are fired, and the sequencer plans nothing
(log entry 50). -/
def State.coastTick (s : State) (st : Strip) (t : Int) : State :=
  match (s.ledgerAt st.slot).finalBreak with
  | some b => if s.firing ∧ t < localTick (s.ledgerAt st.slot).tS b then s.fireTick st t else s
  | none => s

/-- What the sequencer does at the emission of strip-local tick t (R308, R309, R312, R320). -/
def State.sequenceTick (s : State) (st : Strip) (t : Int) : State :=
  if s.resetting then s.coastTick st t else
  let s := if s.get Reg.EXP_STATE_STATE = 3 ∧ t = s.seq.ta - 2 then
      let s := s.watchFlood
      if s.get Reg.EXP_STATE_STATE = 3 then s.beginRun st else s
    else s
  if ¬ s.firing then s
  else
    let s := if s.get Reg.EXP_STATE_STATE = 7 ∧ ¬ s.seq.repairOnly ∧ s.seq.te ≤ t + 2 then s.enter 4 else s
    let s := (s.fireTick st t).showLead
    if s.lastTick st ≤ t ∨ (s.seq.repairOnly ∧ s.seq.repairEnd ≤ t) then s.enterEbb
    else (s.showRate st t).watchTick st t

/-- R266, R270: tick t of the open strip is emitted: its index, its packet, the commitment of tick t + 2 at a head time and
a crossing, and the line of t + 2 with its period. -/
def State.emitTick (s : State) (st : Strip) (t : Int) (h : Int) (x : Int) (p : Nat) (faults : List FrameFault) : State :=
  let index := tickIndex (s.ledgerAt st.slot).tS t
  let s := s.put Reg.TID_TICK_INDEX index
  let s := s.modStrip st.slot fun x => { x with reached := some (max t (x.reached.getD t)) }
  let s := { s with tid := { s.tid with
    emitted := some t, tLast := if laterThan 48 index s.tid.tLast then index else s.tid.tLast,
    committed := s.tid.committed ++ [(t + 2, h, x)] } }
  let s := s.count (cntTid 3)
  let s := s.trace 4 (leBytes 6 index ++ leBytes 1 (s.get Reg.TID_TICK_STATE) ++ leBytes 1 (s.get Reg.EXP_STATE_STATE))
  let s := s.sequenceTick st t
  if s.firing ∧ t + 2 ≤ s.lastTick st then s.sendLine st.slot (t + 2) h p faults else s

/-- The crossing of strip-local tick u in 1/64 tide clock: of the estimate (R265), or of the fixed clock (R271). -/
def State.crossingOf (s : State) (st : Strip) (u : Int) : Option Int :=
  if st.fixedClock then
    some (s.tid.tauA + (u - s.seq.ta + 2) * (64 * (rfGet (s.setup st) Reg.TID_FIXED_DIV : Nat)))
  else (s.estimator st).bind fun e => e.crossing (pitch32 (s.setup st)) u

/-- R266: the next tick has come: the estimate's line count has reached it, or its fixed-clock instant has. -/
def State.tickDue (s : State) (st : Strip) (t : Int) : Bool :=
  if st.fixedClock ∧ s.tid.emitted.isSome then
    match s.crossingOf st t with
    | some x => decide (x ≤ 64 * (s.tide : Int))
    | none => false
  else match s.estimator st with
    | some e => decide (t ≤ e.lineCount (pitch32 (s.setup st)) s.tide)
    | none => false

/-- R270: from ARMED to RUN at the first lead tick; a fixed clock starts at its crossing (R271). -/
def State.startTicks (s : State) (st : Strip) : State :=
  let s := s.put Reg.TID_TICK_STATE 3
  match (s.estimator st).bind fun e => e.crossing (pitch32 (s.setup st)) (s.seq.ta - 2) with
  | some x => { s with tid := { s.tid with tauA := x } }
  | none => s

/-- R371: the TICK message of an emission. -/
def State.tellTick (s : State) (st : Strip) (t h : Int) (p : Nat) : State :=
  if s.inCascade then
    s.sendAll 1 [tickIndex (s.ledgerAt st.slot).tS t, t, h, p, s.get Reg.TID_TICK_STATE]
  else s

/-- R266, R268, R270: the next tick of the open strip, where it has come. -/
def State.runTick (s : State) (st : Strip) (faults : List FrameFault) : State :=
  let armed := decide (s.get Reg.TID_TICK_STATE = 2)
  let t := if armed then s.seq.ta - 2 else s.tickNow + 1
  let stopped := s.seq.prompt.any fun q => decide (q.tick ≤ t)
  if stopped ∨ ¬ s.tickDue st t then s
  else
    let s := if armed then s.startTicks st else s
    match s.crossingOf st (t + 1), s.crossingOf st (t + 2) with
    | some y, some x =>
      let h := s.headOf x
      let before := match s.tid.committed.find? fun c => decide (c.1 = t + 1) with
        | some c => c.2
        | none => (s.headOf y, y)
      if 400000 * 64 < x - before.2 then s.predictionFault 2 h none
      else
        let p := (h - before.1).toNat
        (s.tellTick st t h p).emitTick st t h x p faults
    | _, _ => s.predictionFault 2 0 none

/-- R270, R271, R331: a TEST tick: the next index, and the line two ticks on. -/
def State.emitTest (s : State) (faults : List FrameFault) : State :=
  let due : Bool := match s.tid.testAt with
    | some t => decide (t + s.tid.testDiv ≤ s.tide)
    | none => true
  if ¬ due then s
  else
    let index := (s.tid.tLast + 1) % 2 ^ 48
    let s := { s with tid := { s.tid with tLast := index, testAt := some s.tide } }
    let s := (s.put Reg.TID_TICK_INDEX index).count (cntTid 3)
    let s := s.trace 4 (leBytes 6 index ++ leBytes 1 1 ++ leBytes 1 (s.get Reg.EXP_STATE_STATE))
    s.testLine ((index + 2) % 2 ^ 48) (s.headOf (64 * (s.tide + 2 * s.tid.testDiv : Nat))) (25 * s.tid.testDiv) faults

/-- R266, R270: the tick generator emits the next tick. `faults` lists what goes otherwise than right in the frames of the
line that it sends. -/
def execTickEmit (faults : List FrameFault) (s : State) : Out :=
  match s.get Reg.TID_TICK_STATE with
  | 1 => .next (s.emitTest faults)
  | 2 | 3 =>
    (match s.openStrip with
     | some st => if s.on Reg.CSC_STATUS_SLAVE then .next s else .next (s.runTick st faults)
     | none => .next s)
  | _ => .next s

/-! ### Waiting (R307, R319) -/

/-- R307: the unmet conditions are shown, and raised when they change. -/
def State.showWait (s : State) (slot bits : Nat) : State :=
  let s := s.put Reg.EXP_WAIT_WAIT bits
  if bits = 0 ∨ s.seq.waitRaised = some bits then s
  else ({ s with seq := { s.seq with waitRaised := some bits } }).raise 0x0A07 (s.expFields slot ++ [(4, bits)])

/-- R201, R225, R227, R301: what a newly unmet condition brings with it; `old` is the set as it was. -/
def State.waitActs (s : State) (st : Strip) (old bits : Nat) : State :=
  let new (i : Nat) : Bool := bitAt bits i && !bitAt old i
  let stuck := (List.range 128).find? fun n => natMem (s.chainState n) [0, 8] && !s.canTrain n
  let slack := decide (s.get Reg.EXP_STATE_STATE = 2)
  let s := if bitAt bits 1 ∧ slack then s.configDrivers (s.setup st) st.aseq else s
  let s := match stuck with
    | some n => if new 1 ∧ slack then s.raise 0x060D (hlkFields n none none) else s
    | none => s
  let s := if new 2 ∧ s.on Reg.CCH_CTRL_REQUIRE_STANDBY then s.raise 0x050F s.cchNow else s
  let open' := (List.range 4).find? fun n => s.on (Reg.LOOP_SRC_REQ_CLOSED n) &&
    !(decide (s.get (Reg.LOOP_MODE_STATE n) = 2) && !s.on (Reg.LOOP_STATUS_SUP_FAIL n))
  match open' with
  | some n => if new 3 then s.raise 0x0908 [(1, n), (8, s.tide)] else s
  | none => s

/-- A strip waits in SLACK with a set of unmet conditions. -/
def State.waits (s : State) (st : Strip) (bits : Nat) : State :=
  (s.waitActs st (s.seq.waitRaised.getD 0) bits).showWait st.slot bits

/-! ### FLOOD (R307, R308) -/

/-- R49, R177, R200, R263: a fresh strip latches its set-up on entry to FLOOD. -/
def State.latchSetup (s : State) (st : Strip) : State :=
  let rf := s.regs
  let gen := s.get Reg.HLK_GEOM_GEN_COMMITTED
  let old := s.get Reg.HLK_GEOM_GEN_LATCHED
  let s := s.modStrip st.slot fun x => { x with latched := some rf, isOpen := true }
  let s := (s.put Reg.HLK_GEOM_GEN_LATCHED gen).modLedger st.slot fun l =>
    { l with state := 2, geomGen := gen, lines := s.linesOf st }
  let s := { s with link := { s.link with repaired := [], unresolved := [] } }
  if gen = old then s else s.raise 0x06E3 [(2, gen)]

/-- R184: the reserve demand of every stored ream of a strip under its set-up; the plans that hold it are made again. -/
def State.demandAgain (s : State) (slot : Nat) : State :=
  match s.stripAt slot with
  | none => s
  | some st =>
    let t := (s.store.slots.filter fun m => decide (m.stripSlot = slot ∧ 2 ≤ m.state)).foldl
      (fun (t : State) m => t.setDemand (s.setup st) slot m.ream) s
    if t.store.slots = s.store.slots then t else t.replan

/-- R308: entry to FLOOD for a run from t_a, for a fresh strip or an interrupted one; the stage goes to the approach
point. -/
def State.enterFlood (s : State) (slot : Nat) (ta te : Int) (resuming : Bool) : State :=
  match s.stripAt slot with
  | none => s
  | some st =>
    let s := if resuming then s else s.latchSetup st
    let felt := s.store.felt.filter fun (h : FeltHalf) => decide (h.slot ≠ slot)
    let s := { s with
      store := { s.store with felt := felt, readers := s.store.readers.filter fun (r : ReaderCtx) => decide (r.slot ≠ slot) },
      seq := { s.seq with
        ta := ta, te := te, resuming := resuming, afterFlood := none, waitRaised := none,
        prompt := none, relayed := none },
      tid := { s.tid with
        svcRef := s.get Reg.TID_POS_COUNT, monRef := s.monitorCount (s.setup ((s.stripAt slot).getD st)),
        emitted := none, slowTick := none } }
    let s := ((s.demandAgain slot).linkLimit).judgeSeams slot
    let s := s.puts [(Reg.EXP_STATE_OPEN, 1), (Reg.EXP_STATE_SLOT, slot), (Reg.EXP_STATE_DIR, flag st.backwash),
      (Reg.EXP_WAIT_WAIT, 0), (Reg.TID_PRED_PEAK_PEAK, 0)]
    let s := match s.approachPoint ((s.stripAt slot).getD st) ta with
      | some a => if s.on Reg.CSC_STATUS_SLAVE then s else s.moveTo none a
      | none => s
    let s := if resuming then s
      else (s.modStrip slot fun x => { x with resumeJobs := [] }).completeAll st.resumeJobs 0 0 []
    let s := (s.enter 3).raise 0x0A01 (s.expFields slot ++ [tickField ta])
    s.tellSlaves [1, ta, te, (flag resuming : Nat)]

/-- R307: why a posted strip fails without leaving SLACK: the event and its payload. -/
def State.floodFault (s : State) (st : Strip) : Option (Nat × List (Nat × Nat)) :=
  if (geometryFault s.regs).isSome then some (0x06E2, [])
  else match s.cascadeFault with
    | some (port, field, device) => some (0x0D05, [(1, port), (4, Config.eventCode 0x0D05 field), (1, device)])
    | none => (s.tideFault st 0).map fun c => (0x080F, s.tideFields st.slot ++ [(4, Config.eventCode 0x080F c)])

/-- R178, R307: a posted strip is refused for a column without two live beams; it stays posted. -/
def State.refuseColumn (s : State) (st : Strip) (x : Nat) : State :=
  if st.refused = 5 then s
  else
    (s.modStrip st.slot fun q => { q with refused := 5 }).raise 0x050A
      (cchFields st.slot (s.get Reg.TID_TICK_INDEX) none none ++ [(4, x)])

/-- R307: the oldest posted strip meets the conditions for FLOOD, waits, or fails. -/
def State.floodEnter (s : State) : State :=
  let q := s.get Reg.EXP_STATE_STATE
  match s.box.strips.find? fun st => !st.isOpen with
  | none => s
  | some st =>
    if ¬ (q = 1 ∨ q = 2) then s
    else if s.openStrip.isSome then s.showWait st.slot (s.get Reg.EXP_WAIT_WAIT ||| 1)
    else match s.floodFault st with
      | some (code, payload) =>
        let s := match s.cascadeFault with
          | some (_, field, device) => s.tellSlaves [0, field, device]
          | none => s
        (s.raise code payload).dropPosted st 1 code
      | none => match uncovered s.regs with
        | some x => s.refuseColumn st x
        | none =>
          let bits := s.waitBits st 0
          let s := s.sendStatus bits []
          let all := bits ||| s.peerBits
          if all ≠ 0 then s.waits st all
          else if s.on Reg.CSC_STATUS_SLAVE then s.showWait st.slot 0
          else s.enterFlood st.slot 0 0 false

/-- R307: FLOOD_ENTER. -/
def execFloodEnter (s : State) : Out := .next (if s.resetting then s else s.floodEnter)

/-! ### SLACK (R126, R201, R226, R500) -/

/-- R500: the failed render, couch and head-link domains are retried. -/
def State.retryDomains (s : State) : State :=
  let failed := s.get Reg.PWR_DOMAIN_STATUS_FAULT
  s.requestDomains ([2, 3, 4, 5, 8, 9, 10, 11].filter fun d => bitAt failed d)

/-- Entry to SLACK, from EBB, BREAK, NEAP or bring-up. -/
def State.slackEntry (s : State) : State :=
  let s := if s.get Reg.TID_TICK_STATE = 4 then s.put Reg.TID_TICK_STATE 0 else s
  let s := { s with seq := { s.seq with
    blankLag := false, waking := false, waitRaised := none, idleSince := none } }
  let s := s.enter 2
  let s := ((s.retryDomains).applyVatRoles).applyCouchRoles
  let s := (s.scheduleSwap).restartLost
  let s := if s.on Reg.HLK_CTRL_RETRAIN_REQ then s.retrainAll else s
  (((s.liftTemp).startHeld).showStopLead).showLead

/-- R308: what becomes of the strip of an abandoned FLOOD. -/
def State.afterAbandoned (s : State) (st : Strip) (after : AfterFlood) : State :=
  let stops := s.seq.stopJobs
  let ends := s.seq.endJobs
  let fresh := st.fresh
  let s := { s with seq := { s.seq with stopJobs := [], endJobs := [], afterFlood := none } }
  let s := s.completeAll stops 0 0 (leBytes 1 0)
  let s := if fresh then
      let s := (s.modStrip st.slot fun x => { x with isOpen := false, latched := none }).modLedger st.slot fun l =>
        { l with state := 1 }
      s.noOpenStrip
    else s
  match after with
  | .retry => s.completeAll ends 0 0 []
  | .hold => (s.holdForHost st.slot).completeAll ends 0 0 []
  | .failed code =>
    if fresh then
      (((s.stripAt st.slot).map fun x => s.dropPosted x 1 code).getD s).modLedger st.slot (fun _ => StripLedger.free) |>.showStore
    else s
  | .aborted => if fresh then ((s.stripAt st.slot).map fun x => s.dropPosted x 4 0x1008).getD s else s.holdForHost st.slot
  | .endIt =>
    if fresh then (((s.stripAt st.slot).map fun x => s.dropPosted x 12 0).getD s).completeAll ends 0 0 []
    else ({ s with seq := { s.seq with endJobs := ends } }).endInterrupted st

/-- R309, R321: a pass ends at tick N + E - 1 or at the last open mark: the strip is complete, or its marks wait for a
repair pass. -/
def State.passEnds (s : State) (st : Strip) : State :=
  let stops := s.seq.stopJobs
  let ends := s.seq.endJobs
  if s.openMarks st.slot = 0 then
    let s := (s.count (cntExp 0)).raise 0x0A02 (s.expFields st.slot ++ [(4, st.ticksFired)])
    (s.endOpenStrip st 0).completeAll ends 0 0 []
  else
    let past := s.lastTick st + 1
    let s := s.modStrip st.slot fun x => { x with doneTicks := List.replicate 1024 past, unsettled := [], refused := 0 }
    let s := { s with seq := { s.seq with stopJobs := [] } }
    let s := s.completeAll stops 0 0 (leBytes 1 0)
    let s := if s.get Reg.EXP_CTRL_REPAIR_PASSES ≤ st.passes then
        let s := s.raise 0x0A0B (s.expFields st.slot ++ [(4, s.openMarks st.slot)])
        (s.holdForHost st.slot).modStrip st.slot fun x => { x with passes := 0 }
      else s
    if ends.isEmpty then s else s.endInterrupted st

/-- R309: the profile is at REST in EBB: SLACK, and what EBB leaves of the strip. -/
def execEbbToSlack (s : State) : Out :=
  if s.resetting ∨ s.get Reg.EXP_STATE_STATE ≠ 5 ∨ s.get Reg.TID_PRF_STATUS_STATE ≠ 0 then .next s
  else
    let s := s.slackEntry
    match s.openStrip with
    | none => .next s
    | some st => match s.seq.afterFlood with
      | some after => .next (s.afterAbandoned st after)
      | none => .next (s.passEnds st)

/-- R313: at the end of line t's pulses: BREAK for a prompt stop; for a planned stop HEAD_BLANK_N falls. -/
def execPromptBreakEnter (s : State) : Out :=
  if s.resetting then .next s
  else if s.firing then
    match s.seq.prompt with
    | some p =>
      let more := match s.seq.relayed with
        | some q => if p.cause = 16 then [(1, q.cause), (1, q.origin)] else []
        | none => []
      .next (s.enterBreak p.cause p.kind p.tick false more)
    | none => .next s
  else if s.seq.blankLag then .next ({ s with seq := { s.seq with blankLag := false } }.reblank)
  else .next s

/-- R314: the profile is at REST in BREAK: SLACK with the strip open. -/
def execBreakToSlack (s : State) : Out :=
  if s.resetting ∨ s.get Reg.EXP_STATE_STATE ≠ 6 ∨ s.get Reg.TID_PRF_STATUS_STATE ≠ 0 then .next s
  else
    let s := s.slackEntry
    match s.openStrip with
    | none => .next s
    | some st =>
      let stops := s.seq.stopJobs
      let s := (s.modStrip st.slot fun x => { x with passes := 0, refused := 0 }).completeAll stops 0 0 (leBytes 1 0)
      let s := { s with seq := { s.seq with stopJobs := [] } }
      .next (if s.seq.endJobs.isEmpty then s else s.endInterrupted st)

/-! ### Done ticks (R317, R323) -/

/-- R317: the done tick of a driver after a stop, from its outcomes as (strip-local tick, code). -/
def doneTick (outs : List (Int × Nat)) (kind : Nat) (tB : Int) : Int :=
  if kind = 1 then
    (List.range outs.length).foldl (fun (g : Int) _ => if outs.any fun o => decide (o.1 = g - 1 ∧ o.2 = 2) then g - 1 else g) tB
  else tB

/-- R317: a driver whose records forbid a resume. -/
def doneFault (outs : List (Int × Nat)) (kind : Nat) (tB ta : Int) : Bool :=
  let fired (c : Nat) : Bool := natMem c [1, 3, 16, 17]
  outs.any (fun o => decide (tB ≤ o.1) && fired o.2 && !(decide (o.2 = 17) && decide (kind = 3))) ||
    outs.any fun o => fired o.2 && decide (o.2 ≠ 3 ∧ o.1 < tB ∧ ta - 2 ≤ o.1) &&
      outs.any fun q => decide (q.2 = 2 ∧ q.1 < o.1 ∧ ta - 2 ≤ q.1)

/-- The outcomes of a driver in the last run, by strip-local tick. -/
def State.outcomesOf (s : State) (st : Strip) (a : Nat) : List (Int × Nat) :=
  let tS := (s.ledgerAt st.slot).tS
  (s.link.outcomes.filter fun o => decide (o.1 = a)).map fun o => (localTick tS o.2.1, o.2.2)

/-- R323: the done ticks after the stop that is not settled: a driver whose old done tick lies at or after t_B keeps it. -/
def State.doneAfter (s : State) (st : Strip) : List Int :=
  match st.unsettled with
  | [] => st.doneTicks
  | (kind, tB) :: _ => (List.range 1024).map fun a =>
    match st.doneTicks[a]? with
    | some g => if tB ≤ g then g else max g (doneTick (s.outcomesOf st a) kind tB)
    | none => doneTick (s.outcomesOf st a) kind tB

/-- R317: the first driver whose records forbid a resume. -/
def State.doneFaulty (s : State) (st : Strip) : Option Nat :=
  match st.unsettled with
  | [] => none
  | (kind, tB) :: _ => (List.range 1024).find? fun a => doneFault (s.outcomesOf st a) kind tB s.seq.ta

/-! ### Resume (R319, R320) -/

/-- The last strip-local tick of an open mark. -/
def State.markEnd (s : State) (st : Strip) (m : Mark) : Int :=
  let t := localTick (s.ledgerAt st.slot).tS m.tick
  if m.kind = 3 then
    (List.range 32).foldl (fun (e : Int) i =>
      if (firedLine (s.setup st) st.backwash (s.linesOf st) m.who (t + Int.ofNat i)).isSome then t + Int.ofNat i else e) t
  else t

/-- R320: t_a, t_e and the last tick of an open mark. -/
def State.resumeSpan (s : State) (st : Strip) (done : List Int) : Int × Int × Int :=
  let marks := (s.ledgerAt st.slot).marks.filter Mark.isOpen
  let starts := done ++ marks.map fun m => localTick (s.ledgerAt st.slot).tS m.tick
  let ends := marks.map (s.markEnd st)
  let last := match ends with
    | [] => 0
    | e :: l => l.foldl max e
  let ta := match starts with
    | [] => 0
    | t :: l => l.foldl min t
  let te := (done ++ ends.map (· + 1)).foldl max ta
  (ta, te, last)

/-- R378: t_a and t_e with those that READY slaves report. -/
def State.spanOfAll (s : State) (p : Int × Int × Int) : Int × Int × Int :=
  s.readyPorts.foldl (fun (p : Int × Int × Int) i =>
    let c := s.csc.ports.getD i {}
    (min p.1 (c.peerTa.getD p.1), max p.2.1 (c.peerTe.getD p.2.1), p.2.2)) p

/-- R319: a resume is refused: the subcode, and the driver or beam where it applies. In a cascade the master refuses also
when a device no longer holds the strip (R382), with subcode 2. -/
def State.resumeRefusal (s : State) (st : Strip) : Option (Nat × Nat) :=
  if (s.ledgerAt st.slot).finalBreak.isSome ∨ st.ledgerLost then some (2, 0xFFFF)
  else if s.inCascade ∧ ¬ s.on Reg.CSC_STATUS_SLAVE ∧ s.cascadeFault.isSome then some (2, 0xFFFF)
  else match st.dead with
    | some i => some (3, i)
    | none => match s.link.unresolved with
      | u :: _ => some (4, u.1)
      | [] => none

/-- R319: records of lines of the last run are still open, or RECORD_READ is, or a chain that was lost has not retrained. -/
def State.recordsOpen (s : State) : Bool :=
  s.link.lines.any (fun l => decide (l.kind = 0)) || s.link.drivers.any (fun d => d.owes 8) ||
    (List.range 128).any fun n => (s.chain n).lostInRun && decide (s.chainState n ≠ 7 ∧ s.chainState n ≠ 8)

/-- R163, R319: a tile named by an open SEGMENT mark is not accepted again. -/
def State.segmentTiles (s : State) (st : Strip) : Bool :=
  (s.ledgerAt st.slot).marks.any fun m => m.isOpen && decide (m.kind = 3) &&
    (match s.markReam st m with
     | some p => !natMem (s.tileAt st.slot p.1 m.tile).status [1, 2]
     | none => false)

/-- R319: the waiting conditions of a resume from t_a. -/
def State.resumeBits (s : State) (st : Strip) (ta : Int) : Nat :=
  s.waitBits st ta ||| (128 * flag (s.tideFault st ta).isSome + 4096 * flag (s.segmentTiles st) + 8192 * flag s.recordsOpen)

/-- R319: a refused resume: 0x0A09 once for each subcode, and the RESUME jobs are REFUSED. -/
def State.refuseResume (s : State) (st : Strip) (sub who : Nat) : State :=
  if st.refused = sub then s
  else
    let s := if sub = 3 then
        s.raise 0x050C (cchFields st.slot (s.get Reg.TID_TICK_INDEX) none none ++ [(4, who)]) else s
    let s := s.raise 0x0A09 (s.expFields st.slot ++ [(1, sub), (if sub = 3 then 4 else 2, who)])
    let s := s.modStrip st.slot fun x => { x with refused := sub, resumeJobs := [] }
    s.completeAll st.resumeJobs 2 0x0A09 []

/-- R317, R320, R378: a resume from t_a to t_e passes through FLOOD. -/
def State.beginResume (s : State) (st : Strip) (ta te : Int) : State :=
  let done := s.doneAfter st
  let last := (s.resumeSpan st done).2.2
  let s := s.modStrip st.slot fun x => { x with doneTicks := done, unsettled := [], passes := x.passes + 1 }
  let s := { s with seq := { s.seq with
    repairOnly := decide (s.lastTick st < te), repairEnd := last, autoStop := false } }
  s.enterFlood st.slot ta te true

/-- R319, R320: an interrupted strip's resume starts, waits, or is refused. -/
def State.resumeStart (s : State) (st : Strip) : State :=
  match s.resumeRefusal st with
  | some (sub, who) => (s.sendStatus (2 ^ 14) []).refuseResume st sub who
  | none =>
    let wait := s.recordsOpen
    match (if wait then none else s.doneFaulty st) with
    | some a => (s.sendStatus (2 ^ 14) []).refuseResume st 1 a
    | none =>
      let done := s.doneAfter st
      let own := s.resumeSpan st done
      let span := s.spanOfAll own
      let bits := s.resumeBits st span.1
      let s := s.sendStatus bits [own.1, own.2.1]
      let bits := bits ||| s.peerBits
      let s := if bitAt bits 7 ∧ ¬ bitAt (s.seq.waitRaised.getD 0) 7 then
          s.raiseSev 0x080F 1 (s.tideFields st.slot ++ [(4, Config.eventCode 0x080F ((s.tideFault st span.1).getD 0))]) else s
      if bits ≠ 0 then s.waits st bits
      else if s.on Reg.CSC_STATUS_SLAVE then s.showWait st.slot 0
      else s.beginResume st span.1 span.2.1

/-- R319, R320: RESUME_START. -/
def execResumeStart (s : State) : Out :=
  match s.openStrip with
  | none => .next s
  | some st =>
    if ¬ s.resetting ∧ (s.get Reg.EXP_STATE_STATE = 1 ∨ s.get Reg.EXP_STATE_STATE = 2) then .next (s.resumeStart st) else .next s

/-! ### NEAP (R325, R502) -/

/-- R325: opcodes of host jobs that need the CAL or FEED domain. -/
def neapJobs : List Nat := [0x01, 0x28, 0x30, 0x31, 0x32, 0x33]

/-- R325: a host job that needs the CAL or FEED domain is queued or running. -/
def State.needsDomains (s : State) : Bool := s.host.jobs.any fun j => natMem j.opcode neapJobs

/-- R325: a test is running or requested. -/
def State.testWanted (s : State) : Bool :=
  s.testing || s.on Reg.CCH_SWAP_CTRL_REQUEST || s.on Reg.HCR_CTRL_MEAS_REQ || s.on Reg.HCR_CTRL_CAL_REQ ||
    !s.hcr.jobs.isEmpty

/-- R319, R325: an open strip meets every condition of its resume but NEAP. -/
def State.resumable (s : State) (st : Strip) : Bool :=
  (s.resumeRefusal st).isNone &&
    decide (s.resumeBits st (s.resumeSpan st (s.doneAfter st)).1 ||| 2048 = 2048) && (s.doneFaulty st).isNone

/-- R325: what keeps the device out of NEAP, or wakes it. -/
def State.stirred (s : State) : Bool :=
  s.box.strips.any (fun st => !st.isOpen) || s.testWanted || s.needsDomains ||
    (match s.openStrip with
     | some st => s.resumable st
     | none => false)

/-- R325, R344: the conditions under which the delay to NEAP runs. -/
def State.neapQuiet (s : State) : Bool :=
  decide (s.get Reg.EXP_STATE_STATE = 2) && s.on Reg.EXP_CTRL_NEAP_EN && s.box.jobs.isEmpty && !s.stirred && s.itemDue.isNone

/-- R502: the domains that NEAP powers down, in order. -/
def neapDomains : List Nat := [10, 11, 8, 9, 2, 3, 4, 5, 6, 7]

/-- R325: the couches' roles are kept for the wake. -/
def State.keepRoles (s : State) (roles : List Nat) : State :=
  { s with couch := { s.couch with neapRoles := roles, neapBack := 0 }, seq := { s.seq with waking := false, idleSince := none } }

/-- R325, R502: SLACK to NEAP: every chain DOWN, the couches' roles kept, the domains down. -/
def State.enterNeap (s : State) : State :=
  let roles := [0, 1].map s.couchRole
  let s := (List.range 128).foldl (fun (s : State) n => s.chainTo n 0) s
  let s := (s.enter 1).keepRoles roles
  let s := [0, 1].foldl (fun (s : State) n => s.setCouch n 3) s
  let s := neapDomains.foldl (fun (s : State) d => s.powerDown d) s
  (s.count (cntPwr 2)).raise 0x0A10 (s.expFields s.openSlot ++ [(4, Config.eventCode 0x0A10 0)])

/-- R325: NEAP_ENTER, after EXP_NEAP.DELAY milliseconds of quiet. -/
def execNeapEnter (s : State) : Out :=
  match s.seq.idleSince with
  | some t => if ¬ s.resetting ∧ s.neapQuiet ∧ t + 400000 * s.get Reg.EXP_NEAP_DELAY ≤ s.tide then .next s.enterNeap else .next s
  | none => .next s

/-- R325, R502: NEAP_WAKE: the domains that NEAP took down are requested; a couch that was OFF stays down. -/
def execNeapWake (s : State) : Out :=
  if ¬ s.resetting ∧ s.get Reg.EXP_STATE_STATE = 1 ∧ ¬ s.seq.waking ∧ s.stirred then
    let l := neapDomains.filter fun d => !(decide (d = 8 ∨ d = 9) && decide (s.couch.neapRoles.getD (d - 8) 3 = 3))
    let s := s.requestDomains l
    .next { s with seq := { s.seq with waking := true } }
  else .next s

/-- R201, R502: every domain is up: the couches take their roles again, and the sequencer enters SLACK. -/
def execNeapWakeDone (s : State) : Out :=
  if ¬ s.resetting ∧ s.get Reg.EXP_STATE_STATE = 1 ∧ s.seq.waking ∧ s.pwr.requested = 0 then
    let roles := s.couch.neapRoles
    let back := s.couch.neapBack
    let s := [0, 1].foldl (fun (s : State) n =>
      if bitAt back n then s.backFromOff n else s.setCouch n (roles.getD n 3)) s
    let s := ({ s with couch := { s.couch with neapRoles := [], neapBack := 0 } }.noCouch).slackEntry
    .next (s.raise 0x0A10 (s.expFields s.openSlot ++ [(4, Config.eventCode 0x0A10 1)]))
  else .next s

end Sys2Proof.Machine
end

