-- ==== Sys2Proof/Machine/TimeBase.lean ====
section
/-! DEFINITION. The local clock and its states (R465 to R474): clock arithmetic, medians, steps, holdover. Times are
integers in 2^-32 ns. -/
namespace Sys2Proof.Machine

/-- One nanosecond. -/
def oneNs : Int := 2 ^ 32

/-- R465: the time that a clock shows. -/
def Clock.units (c : Clock) : Int := ((c.sec : Int) * 1000000000 + c.ns) * oneNs + c.frac

/-- R465: the clock that shows a time, its seconds modulo 2^48. -/
def clockOf (t : Int) : Clock where
  sec := wrapInt 48 (idiv t (1000000000 * oneNs))
  ns := (idiv t oneNs % 1000000000).toNat
  frac := (t % oneNs).toNat

/-- A port's PTP state. -/
def State.timePort (s : State) (p : Nat) : TimePort := s.time.ports.getD p {}

/-- The machine with a port's PTP state changed. -/
def State.modTime (s : State) (p : Nat) (f : TimePort → TimePort) : State :=
  { s with time := { s.time with ports := listModify s.time.ports p f } }

/-- R479: an event of the time unit, which carries the epoch in force. -/
def State.timeEvent (s : State) (code : Nat) (fields : List (Nat × Nat)) : State :=
  s.raise code ((4, s.get Reg.TIM_STATUS_EPOCH) :: fields)

/-- A time in nanoseconds, rounded half up (log entry 41). -/
def inNs (t : Int) : Int := roundHalfUp t oneNs

/-- A number put into a sorted list. -/
def sortInto (x : Int) : List Int → List Int
  | [] => [x]
  | y :: l => if x ≤ y then x :: y :: l else y :: sortInto x l

/-- A list sorted. -/
def sorted (l : List Int) : List Int := l.foldl (fun a x => sortInto x a) []

/-- R468: the filtered value of a port: the fifth of its last 9 samples in order of value; none before it has 9. -/
def filtered (l : List Int) : Option Int := if l.length = 9 then (sorted l)[4]? else none

/-- R471: the middle value of a list, the lower of the two where their number is even. -/
def middle (l : List Int) : Option Int := (sorted l)[(l.length - 1) / 2]?

/-- R9, R467: how far one time lies ahead of another of its epoch, the seconds wrapping at 48 bits. -/
def timeDiff (a b : Int) : Int :=
  let m : Int := 2 ^ 48 * 1000000000 * oneNs
  let r := Int.emod (a - b) m
  if 2 * r < m then r else r - m

/-- R468: a sample joins the last 9. -/
def lastNine (l : List Int) (x : Int) : List Int := (l ++ [x]).drop ((l.length + 1) - 9)

/-- R465: the nominal increment, 2.5 ns. -/
def nominalInc : Nat := 0x280000000

/-- R465: TIM_INC as one number. -/
def State.inc (s : State) : Nat := s.get Reg.TIM_INC_NS * 2 ^ 32 + s.get Reg.TIM_INC_FRAC

/-- R465: TIM_INC takes a value. -/
def State.setInc (s : State) (n : Nat) : State :=
  s.puts [(Reg.TIM_INC_NS, n / 2 ^ 32), (Reg.TIM_INC_FRAC, n % 2 ^ 32)]

/-- R469: the servo changes TIM_INC: by a free amount that reduces the offset and stays within MAX_PPB of nominal. -/
def State.servo (s : State) (offset : Int) : State :=
  let span := nominalInc * s.get Reg.TIM_LIM3_MAX_PPB / 1000000000
  let lo := nominalInc - span
  let hi := nominalInc + span
  let old := if s.inc < lo then lo else if hi < s.inc then hi else s.inc
  let d := s.draw
  let x := d.1.toNat
  let new := if 0 < offset then old - x % (old - lo + 1) else if offset < 0 then old + x % (hi - old + 1)
    else lo + x % (hi - lo + 1)
  d.2.setInc new

/-- R466, R474: the state that a corrected clock is in: LOCKED, or FOLLOW on a slave. -/
def State.correctedState (s : State) : Nat := if s.on Reg.CSC_STATUS_SLAVE then 4 else 2

/-- R468: a port serves: in SLAVE and allowed by PATH. -/
def State.serves (s : State) (p : Nat) : Bool :=
  decide ((s.timePort p).state = 9) &&
    (decide (s.get Reg.TIM_CTRL_PATH = 0) || decide (s.get Reg.TIM_CTRL_PATH = p + 1))

/-- R468, R476: the primary port; on a slave, the cascade path. -/
def State.primaryPort (s : State) : Option Nat :=
  let p := s.get Reg.TIM_CTRL_PRIMARY
  if s.on Reg.CSC_STATUS_SLAVE then some 2
  else if s.serves p then some p
  else if s.serves (1 - p) then some (1 - p)
  else none

/-- R468: the filtered offset of the primary port. -/
def State.primaryOffset (s : State) : Option Int :=
  match s.primaryPort with
  | some p => filtered (s.timePort p).offsets
  | none => none

/-- R467: a step of the clock by a time, to an epoch. Samples of the epoch that ends are not compared with later ones: the
filters restart (log entry 42). -/
def State.stepClock (s : State) (by' : Int) (epoch : Nat) : State :=
  let ports := s.time.ports.map fun (t : TimePort) => { t with offsets := [], delays := [] }
  let s := { s with
    clock := clockOf (s.clock.units + by'),
    time := { s.time with ports := ports, confirm := none, asymRun := 0, agreeSince := none } }
  (s.put Reg.TIM_STATUS_EPOCH epoch).count (cntTim 4)

/-- The epoch after the present one (R467). -/
def State.nextEpoch (s : State) : Nat := (s.get Reg.TIM_STATUS_EPOCH + 1) % 65536

/-- R474: HOLDOVER with a cause: entered from LOCKED or FOLLOW, or one more cause that must clear. -/
def State.holdover (s : State) (cause : Nat) : State :=
  let q := s.get Reg.TIM_STATUS_STATE
  let now := s.tide
  if q = 2 ∨ q = 4 then
    let s := { s with time := { s.time with causes := [cause], holdSince := now, longRaised := false, agreeSince := none } }
    let s := (s.puts [(Reg.TIM_STATUS_STATE, 3), (Reg.TIM_STATUS_HOLD_CAUSE, cause)]).count (cntTim 5)
    s.timeEvent 0x1103 [(1, cause)]
  else if q = 3 ∧ ¬ natMem cause s.time.causes then
    { s with time := { s.time with causes := s.time.causes ++ [cause] } }
  else s

/-- R473: the master's time has jumped: the step is pending. -/
def State.stepPending (s : State) (offset : Int) : State :=
  if s.on Reg.TIM_STATUS_STEP_PENDING then s
  else ((s.holdover 4).put Reg.TIM_STATUS_STEP_PENDING 1).timeEvent 0x1108 [(8, wrapInt 64 (inNs offset))]

/-- R473, R474: an offset lies within STEP_NS. -/
def State.withinStep (s : State) (offset : Int) : Bool :=
  decide ((offset.natAbs : Int) ≤ s.get Reg.TIM_LIM2_STEP_NS * oneNs)

/-- R473, R474: HOLDOVER ends once no cause stands and the offset lies within STEP_NS; a larger one waits as a step. -/
def State.leaveHoldover (s : State) : State :=
  if s.get Reg.TIM_STATUS_STATE ≠ 3 ∨ ¬ s.time.causes.isEmpty then s
  else
    match s.primaryOffset with
    | none => s
    | some o =>
      if s.withinStep o then
        let seconds := (s.tide - s.time.holdSince) / 400000000
        let s := s.puts [(Reg.TIM_STATUS_STATE, s.correctedState), (Reg.TIM_STATUS_HOLD_CAUSE, 0)]
        s.timeEvent 0x1104 [(4, seconds), (4, wrapInt 32 (inNs o))]
      else if s.on Reg.CSC_STATUS_SLAVE then s
      else s.stepPending o

/-- R474: a cause of the holdover clears. -/
def State.causeClears (s : State) (cause : Nat) : State :=
  if natMem cause s.time.causes then
    let rest := s.time.causes.filter fun c => decide (c ≠ cause)
    ({ s with time := { s.time with causes := rest } }).leaveHoldover
  else s

/-- R466: a clock that has no master and was never locked: FREE at the nominal rate. -/
def State.freeClock (s : State) : State := (s.put Reg.TIM_STATUS_STATE 0).setInc nominalInc

/-- R476: the slave's link is lost: HOLDOVER with cause 5, or FREE before acquisition. -/
def State.timeLinkLost (s : State) : State :=
  if s.get Reg.TIM_STATUS_STATE = 1 then
    (s.modTime 2 fun t => { t with offsets := [], delays := [] }).freeClock
  else s.holdover 5

end Sys2Proof.Machine
end

