-- ==== Sys2Proof/Machine/Cascade.lean ====
section
/-! DEFINITION. The cascade of up to four devices: training of tide links, their messages, and what stops, resumes and
failures do across devices (R363 to R382). -/
namespace Sys2Proof.Machine

/-- A tide-link port. -/
def State.port (s : State) (p : Nat) : CscPort := s.csc.ports.getD p {}

/-- R367: the training state of a port. -/
def State.portState (s : State) (p : Nat) : Nat := s.get (Reg.CSC_PORT_STATE p)

/-- The device is a slave (R363). -/
def State.isSlave (s : State) : Bool := s.on Reg.CSC_STATUS_SLAVE

/-! ### Configuration and latency (R366, R370) -/

/-- R366: the configuration is valid. -/
def State.configValid (s : State) : Bool :=
  let ready := (List.range 3).filter fun p => bitAt (s.get Reg.CSC_STATUS_READY) p
  let n := s.get Reg.CSC_CFG_DEVICES
  let devices := s.get Reg.CSC_CFG_DEVICE :: ready.map fun p => (s.port p).peerDevice
  decide (n = ready.length + 1) && ready.all (fun p => decide ((s.port p).peerDevices = n)) && decide devices.Nodup

/-- R370: L_F for the one-way delays of the READY ports, in 0.1 ns; 0 with no READY port. -/
def fixedLatency : List Nat → Nat
  | [] => 0
  | w :: l => 8 * ((l.foldl max w + 400 + 199) / 200)

/-- R366, R370: CSC_STATUS follows the ports; L_F is 0 with no READY port. -/
def State.showPorts (s : State) : State :=
  let ready := (List.range 3).filter fun p => decide (s.portState p = 6)
  let s := s.put Reg.CSC_STATUS_READY (ready.foldl (fun a p => a + 2 ^ p) 0)
  let s := if ready.isEmpty then s.put Reg.CSC_STATUS_LFIX 0 else s
  s.put Reg.CSC_STATUS_CONFIG_OK (flag (!s.isSlave && s.configValid))

/-- R370: a port has become READY: the master computes L_F anew, and tells its slaves, which use it for their limits and stops
(R376, R377; DEDUCED, log entry 62). -/
def State.newLatency (s : State) : State :=
  if s.isSlave then s
  else
    let ready := (List.range 3).filter fun p => decide (s.portState p = 6)
    let s := s.put Reg.CSC_STATUS_LFIX (fixedLatency (ready.map fun p => s.get (Reg.CSC_PORT_ONEWAY p)))
    s.tellSlaves [5, s.get Reg.CSC_STATUS_LFIX]

/-- A port enters a training state; a slave's clock loses its master with the link (R476). -/
def State.portTo (s : State) (p q : Nat) : State :=
  let now := s.tide
  let s := if s.isSlave ∧ p = 0 ∧ s.portState 0 = 6 ∧ q ≠ 6 then s.timeLinkLost else s
  ((s.put (Reg.CSC_PORT_STATE p) q).modPort p fun c => { c with enteredAt := now }).showPorts

/-- Both receive lanes of a port, aligned or not (R236); with neither, the port transmits nothing, and they are in electrical
idle. -/
def State.portLanes (s : State) (p lanes : Nat) : State :=
  let l := 262 + 2 * p
  let idle (i : Nat) : Nat := if lanes = 0 then 1 else if bitAt lanes i then 0 else s.get (Reg.LNS_LANE_RX_EIDLE (l + i))
  s.puts [(Reg.CSC_PORT_LANES p, lanes), (Reg.LNS_LANE_RX_ALIGNED l, lanes % 2), (Reg.LNS_LANE_RX_ALIGNED (l + 1), lanes / 2 % 2),
    (Reg.LNS_LANE_RX_EIDLE l, idle 0), (Reg.LNS_LANE_RX_EIDLE (l + 1), idle 1)]

/-! ### Training (R367 to R369) -/

/-- R367: a port fails with a cause. -/
def State.portFails (s : State) (p cause : Nat) : State :=
  let q := s.portState p
  let s := (s.put (Reg.CSC_PORT_CAUSE p) cause).portTo p 7
  (s.portLanes p 0).raise 0x0D02 [(1, p), (1, q), (1, cause)]

/-- A port of this device is in use (R364, R366). -/
def State.portEnabled (s : State) (p : Nat) : Bool :=
  if s.isSlave then decide (p = 0) else bitAt (s.get Reg.CSC_CFG_PORT_EN) p

/-- R367: training of a port starts, in bring-up or in SLACK. -/
def execCscPortTrainStart (p : Fin 3) (s : State) : Out :=
  let q := s.portState p
  let x := s.get Reg.EXP_STATE_STATE
  let looped := s.lanes.loop.any fun l => decide ((l.1 - 256) / 2 = p.val ∧ 256 ≤ l.1)
  if (q = 0 ∨ q = 7) ∧ (x = 0 ∨ x = 2) ∧ s.portEnabled p ∧ s.on Reg.LNS_STATUS_TIDE_LOCK ∧ s.domainOn 15 ∧ ¬ looped then
    let s := ((s.put (Reg.CSC_PORT_CAUSE p) 0).count (cntLns (256 + 2 * p) 3)).count (cntLns (257 + 2 * p) 3)
    let s := (s.qualSent (256 + 2 * p)).qualSent (257 + 2 * p)
    let s := s.modPort p fun _ => {}
    .next (s.portTo p 1)
  else .next s

/-- R368: the one-way delay of a port's 8 markers, each (a_m - d_m) - (d_s - a_s), in 0.1 ns with its skew. -/
def onewayOf (markers : List Int) (skew : Int) : Int := roundHalfUp (markers.foldl (· + ·) 0) 16 + skew

/-- R368: the markers of a port differ by more than 1.0 ns one way. -/
def markerSpread (markers : List Int) : Bool :=
  match markers with
  | [] => false
  | m :: l => decide (20 < l.foldl max m - l.foldl min m)

/-- R368, R369: LATENCY ends: the one-way delay is judged and shown, and TIME begins with TIME_SET. -/
def State.endLatency (s : State) (p : Nat) : State :=
  let l := (s.port p).markers
  let w := onewayOf l (s.getS (Reg.CSC_SKEW_SKEW p))
  if l.length < 8 then s
  else if markerSpread l ∨ 3600 < w then s.portFails p 4
  else
    let s := (s.put (Reg.CSC_PORT_ONEWAY p) (wrapInt 16 w)).portTo p 5
    s.send p 11 [s.headTime, w]

/-- R373: the halo rows that waited for a port to the device at its other end are sent. -/
def State.sendWaiting (s : State) (p : Nat) : State :=
  let d := (s.port p).peerDevice
  let go := s.csc.haloWaits.filter fun h => decide (h.1 = d)
  let s := { s with csc := { s.csc with haloWaits := s.csc.haloWaits.filter fun (h : Nat × List Int) => decide (h.1 ≠ d) } }
  go.foldl (fun (s : State) h => (s.send p 9 h.2).count (cntCsc 2)) s

/-- R369, R370: TIME ends: the slave's answers lie within the tolerance, and the port is READY. -/
def State.endTime (s : State) (p device devices : Nat) (spread : Bool) : State :=
  let l := (s.port p).checks
  let tol : Int := s.get Reg.CSC_LAT_TOL
  if ¬ s.isSlave ∧ l.length < 4 then s
  else if l.any (fun x => decide (tol < (x.natAbs : Int))) ∨ spread ∨ s.get Reg.LNS_REF_CTRL_SSC_APPLIED ≠ 0 then
    s.portFails p 5
  else
    let s := ((s.modPort p fun c => { c with peerDevice := device, peerDevices := devices }).portTo p 6).newLatency
    let s := s.raise 0x0D01 [(1, p), (4, s.get (Reg.CSC_PORT_ONEWAY p)), (4, s.get Reg.CSC_STATUS_LFIX)]
    ((s.sendHalos).sendWaiting p).linkLimit

/-- R249, R367: the check of EQ passes on a lane. -/
def State.eyeOk (s : State) (x : LaneTrain) : Bool :=
  decide (x.seen.errors.toNat = 0 ∧ s.get Reg.LNS_EQ_MIN_EYE_H ≤ x.eyeH.toNat ∧ s.get Reg.LNS_EQ_MIN_EYE_V ≤ x.eyeV.toNat)

/-- R248: the receiver of a tide lane is aligned, with its polarity. -/
def State.tideAligned (s : State) (l : Nat) (x : LaneTrain) : State :=
  let inv := if s.on (Reg.LNS_LANE_CTRL_RX_INV_AUTO l) then x.inverted else s.on (Reg.LNS_LANE_CTRL_RX_INV l)
  (s.sees l x.seen).put (Reg.LNS_LANE_RX_INVERTED l) (flag inv)

/-- R249, R367: EQ of a tide lane has ended: the receiver's eye, and the preset that the partner's receiver has passed. -/
def State.tideEqualised (s : State) (rx tx : Nat) (x : LaneTrain) : State :=
  let s := (s.sees rx x.seen).puts [(Reg.LNS_LANE_RX_EYE_H rx, x.eyeH.toNat), (Reg.LNS_LANE_RX_EYE_V rx, x.eyeV.toNat)]
  s.usePreset tx (presetTry (s.get (Reg.LNS_LANE_CTRL_PRESET tx)) x.tries.val)

/-- R247, R248, R249, R367: a training state is done. The operands serve the states that need them: what both lanes have found,
for ALIGN and EQ; the skew of DESKEW in symbols; and the other device's DEVICE, DEVICES and spread in TIME. -/
def execCscTrainStepDone (p : Fin 3) (found : PortTrain) (device : BitVec 2) (devices : BitVec 3) (spread : Bool)
    (s : State) : Out :=
  let rx := 262 + 2 * p.val
  let tx := 256 + 2 * p.val
  match s.portState p with
  | 1 =>
    .next (if s.adapted rx found.lane0.seen ∧ s.adapted (rx + 1) found.lane1.seen then
      (((((s.tideAligned rx found.lane0).tideAligned (rx + 1) found.lane1).portLanes p 3).usePreset tx (s.get (Reg.LNS_LANE_CTRL_PRESET tx))).usePreset
        (tx + 1) (s.get (Reg.LNS_LANE_CTRL_PRESET (tx + 1)))).portTo p 2 else s)
  | 2 =>
    .next (if s.eyeOk found.lane0 ∧ s.eyeOk found.lane1 then
      ((s.tideEqualised rx tx found.lane0).tideEqualised (rx + 1) (tx + 1) found.lane1).portTo p 3 else s)
  | 3 => .next (if 8 < found.skew.toNat then s.portFails p 3 else s.portTo p 4)
  | 4 => .next (if s.isSlave then s else s.endLatency p)
  | 5 => .next (s.endTime p device.toNat devices.toNat spread)
  | _ => .next s

/-- R367: the limit of ALIGN (10 ms) or EQ (50 ms) passes. -/
def execCscTrainTimeout (p : Fin 3) (s : State) : Out :=
  let since := s.tide - (s.port p).enteredAt
  if s.portState p = 1 ∧ 4000000 ≤ since then .next (s.portFails p 1)
  else if s.portState p = 2 ∧ 20000000 ≤ since then .next (s.portFails p 2)
  else .next s

/-- R368, R369: a slave's answer to a marker, with the four latches d_m, a_m, a_s and d_s; in TIME, d_s is the slave's head
time as it answers, checked against the master's at arrival less W_p. -/
def execLatencyMarker (p : Fin 3) (dm am as ds : BitVec 64) (s : State) : Out :=
  let x : Int := signedDiff 64 am.toNat dm.toNat - signedDiff 64 ds.toNat as.toNat
  if s.isSlave then .next s
  else if s.portState p = 4 ∧ (s.port p).markers.length < 8 then
    .next (s.modPort p fun c => { c with markers := c.markers ++ [x] })
  else if s.portState p = 5 ∧ (s.port p).checks.length < 4 then
    let w : Int := s.get (Reg.CSC_PORT_ONEWAY p)
    let err : Int := signedDiff 64 ds.toNat am.toNat + w
    .next (s.modPort p fun c => { c with checks := c.checks ++ [err] })
  else .next s

/-- R369: the slave sets its head time to H + W_p. -/
def execTimeSetMessage (h : BitVec 64) (w : BitVec 16) (s : State) : Out :=
  if s.isSlave ∧ (s.portState 0 = 4 ∨ s.portState 0 = 5) then
    let s := { s with headTime0 := wrapInt 64 ((s.headTime0 : Int) + h.toNat + w.toNat - s.headTime) }
    .next (s.portTo 0 5)
  else .next s

/-! ### Loss of a link (R371, R379) -/

/-- R379: both lanes of a READY port are lost, or its resends are spent: the port goes to DOWN. Its halo rows without an ACK wait
for the port (R373). -/
def State.portLost (s : State) (p cause : Nat) : State :=
  let q := s.get Reg.EXP_STATE_STATE
  let running := s.openStrip.isSome && natMem q [3, 4, 5, 6, 7]
  let s := (s.put (Reg.CSC_PORT_CAUSE p) cause).portTo p 0
  let halos := (s.port p).unacked.filterMap fun m => if m.typ = 9 then some ((s.port p).peerDevice, m.fields) else none
  let s := { s with csc := { s.csc with haloWaits := s.csc.haloWaits ++ halos } }
  let s := ((s.portLanes p 0).modPort p fun c => { c with unacked := [] }).count (cntCsc 5)
  let s := s.raiseSev 0x0D04 (if running then 3 else 2) [(1, p), (6, s.get Reg.TID_TICK_INDEX)]
  if s.firing then s.hardwareStop 16 false
  else if q = 3 then s.abandonFlood (65536 + 16) .retry
  else s

/-- R379: a lane of a port loses alignment. -/
def State.tideLaneLost (s : State) (p lane : Nat) : State :=
  let lanes := setBit (s.get (Reg.CSC_PORT_LANES p)) lane false
  if s.get (Reg.CSC_PORT_LANES p) = lanes then s
  else
    let s := s.portLanes p lanes
    if s.portState p ≠ 6 then s
    else if lanes = 0 then s.portLost p 6
    else s.raise 0x0D03 [(1, p), (2, 262 + 2 * p + lane)]

/-- R248, R256: a receive lane loses alignment: by electrical idle, or for a cause of 0x0701 (log entry 21); a head lane loses its
chain (R232), a tide lane acts as R379 says. -/
def State.loseLane (s : State) (l : Nat) (cause : Option Nat) : State :=
  let s := match cause with
    | some k => s.raise 0x0701 [(2, l), (1, Config.eventCode 0x0701 k)]
    | none => s.put (Reg.LNS_LANE_RX_EIDLE l) 1
  let s := (s.count (cntLns l 0)).put (Reg.LNS_LANE_RX_ALIGNED l) 0
  if l < 256 then s.chainLost (l - 128) else s.tideLaneLost ((l - 262) / 2) ((l - 262) % 2)

/-- R246, R248: a receiver that is aligned sees electrical idle, or 8 symbol errors within 64 symbols. -/
def State.alignLost (s : State) (l : Nat) (idle : Bool) (seen : RxSeen) : State :=
  if s.on (Reg.LNS_LANE_RX_ALIGNED l) ∧ (idle ∨ 8 ≤ seen.errors.toNat) then
    (s.sees l seen).loseLane l (if idle then none else some 0)
  else s

/-- R379: TL_LANE_LOST. -/
def execTlLaneLost (p : Fin 3) (loss : TideLaneLoss) (s : State) : Out :=
  .next (s.alignLost (262 + 2 * p + loss.lane) loss.idle loss.seen)

/-- R371: an acknowledged message whose ACK has not come within 10 µs is sent again; after 3 resends the port fails. -/
def execMessageResend (p : Fin 3) (s : State) : Out :=
  match (s.port p).unacked with
  | [] => .next s
  | m :: r =>
    if s.portState p ≠ 6 then .next s
    else if 3 ≤ m.resends then .next (s.portLost p 6)
    else .next ((s.modPort p fun c => { c with unacked := { m with resends := m.resends + 1 } :: r }).count (cntCsc 1))

/-! ### Receipt (R371) -/

/-- R371: a message of a type arrives on a READY port: the state after its receipt, and whether it is to be acted on. An
acknowledged type is answered with ACK, and a repeated SEQ is not acted on twice. -/
def State.receive (s : State) (m : LinkMsg) (typ : Nat) : State × Bool :=
  let p := m.port.val
  if s.portState p ≠ 6 then (s, false)
  else
    let s := if m.oneLane then s.count (cntCsc 0) else s
    if ¬ ackedType typ then (s, true)
    else
      let s := s.send p 10 [typ, m.seq.toNat]
      if (s.port p).lastSeq.getD typ none = some m.seq.toNat then (s, false)
      else (s.modPort p fun c => { c with lastSeq := listSet c.lastSeq typ (some m.seq.toNat) }, true)

/-- What a message does once it is received. -/
def State.onMessage (s : State) (m : LinkMsg) (typ : Nat) (act : State → State) : State :=
  let r := s.receive m typ
  if r.2 then act r.1 else r.1

/-- R371: an ACK ends the resending of the message it names. -/
def execAckMessage (m : LinkMsg) (typ seq : Byte) (s : State) : Out :=
  .next (s.onMessage m 10 fun s => s.modPort m.port fun c =>
    { c with unacked := c.unacked.filter fun x => decide (¬ (x.typ = typ.toNat ∧ x.seq = seq.toNat)) })

/-! ### Ticks, samples and plans on a slave (R375, R376) -/

/-- The EXP_WAIT bits that a slave reports while a strip runs. -/
def State.reportBits (s : State) : Nat :=
  match s.openStrip with
  | some st => if s.get Reg.EXP_STATE_STATE = 3 then s.waitBits st s.seq.ta else s.get Reg.EXP_WAIT_WAIT
  | none => s.get Reg.EXP_WAIT_WAIT

/-- R375: a gap in the ticks: 0x0D07, and a hardware stop with CAUSE 16. -/
def State.tickGap (s : State) (expected received : Nat) : State :=
  (s.raise 0x0D07 [(1, 0), (6, expected), (6, received)]).hardwareStop 16 false

/-- R375: the slave emits the master's tick at L_F. -/
def State.slaveTick (s : State) (index : Nat) (t h : Int) (p state : Nat) (faults : List FrameFault) : State :=
  let q := s.get Reg.TID_TICK_STATE
  let expected := ((s.csc.lastIndex.getD 0) + 1) % 2 ^ 48
  let gap := decide (q = 3) && s.csc.lastIndex.isSome && decide (index ≠ expected)
  let now := s.tide
  let s := { s with csc := { s.csc with lastIndex := some index, lastPeriod := p, tickAt := now } }
  match s.openStrip with
  | none => s
  | some st =>
    if ¬ (q = 2 ∨ q = 3) ∨ s.seq.prompt.any (fun x => decide (x.tick ≤ t)) then s
    else if gap then s.tickGap expected index
    else
      let s := s.put Reg.TID_TICK_STATE state
      let s := s.emitTick st t h 0 p faults
      s.sendStatus s.reportBits []

/-- R375: TICK_MESSAGE. -/
def execTickMessage (m : LinkMsg) (index : BitVec 48) (t h : BitVec 64) (p : Word) (state : Fin 8)
    (faults : List FrameFault) (s : State) : Out :=
  .next (s.onMessage m 1 fun s =>
    if s.isSlave then s.slaveTick index.toNat t.toInt h.toNat p.toNat state faults else s)

/-- R375: no TICK within P + 1 µs of the last. -/
def execTickGapTimeout (s : State) : Out :=
  match s.csc.lastIndex with
  | none => .next s
  | some i =>
    if s.isSlave ∧ s.get Reg.TID_TICK_STATE = 3 ∧ s.csc.tickAt + (s.csc.lastPeriod + 24) / 25 + 400 ≤ s.tide then
      .next (s.tickGap ((i + 1) % 2 ^ 48) (2 ^ 48 - 1))
    else .next s

/-- R375: SAMPLE_MESSAGE: a sample of the master for the loops: head time, stage count, set-point position. -/
def execSampleMessage (m : LinkMsg) (head : BitVec 64) (count : BitVec 40) (setpoint : BitVec 64) (s : State) : Out :=
  .next (s.onMessage m 2 fun s =>
    if s.isSlave then { s with csc := { s.csc with sample := some (head.toNat, count.toNat, setpoint.toInt) } } else s)

/-- R376: PLAN_MESSAGE: the planned rate of an interval. -/
def execPlanMessage (m : LinkMsg) (r : Word) (rate : BitVec 24) (cause : Byte) (s : State) : Out :=
  .next (s.onMessage m 4 fun s =>
    if s.isSlave then
      let others := s.csc.planRates.filter fun (p : Int × Nat × Nat) => decide (p.1 ≠ r.toInt)
      { s with csc := { s.csc with planRates := others ++ [(r.toInt, rate.toNat, cause.toNat)] } }
    else s)

/-- R376: RATE_MESSAGE: a slave's permitted rate; the intervals not yet begun are planned again, and a new temperature limit
is reported. -/
def execRateMessage (m : LinkMsg) (r : Word) (rate : BitVec 24) (cause : Byte) (s : State) : Out :=
  .next (s.onMessage m 8 fun s =>
    let p := m.port.val
    let was := (s.port p).rates.any fun x => decide (x.2.2 = 5 ∧ x.2.1 ≤ rate.toNat)
    let s := s.modPort p fun c =>
      { c with rates := (c.rates.filter fun (x : Int × Nat × Nat) => decide (x.1 ≠ r.toInt)) ++ [(r.toInt, rate.toNat, cause.toNat)] }
    let s := if cause.toNat = 5 ∧ ¬ was then s.raise 0x080E (s.tideFields s.openSlot ++ [(4, rate.toNat)]) else s
    s.replan)

/-! ### Stops (R377) -/

/-- R377: the least t_B governs a stop already taken: its mark and EXP_BREAK take the earlier tick. -/
def State.lowerBreak (s : State) (st : Strip) (kind : Nat) (tB : Int) : State :=
  match st.unsettled with
  | (k, old) :: _ =>
    if tB < old then
      let tS := (s.ledgerAt st.slot).tS
      let was := tickIndex tS old
      let index := tickIndex tS tB
      let s := s.modStrip st.slot fun x => { x with unsettled := [(if kind = 1 then 1 else k, tB)] }
      let s := s.modLedger st.slot fun l =>
        { l with marks := l.marks.map fun (m : Mark) => if m.kind = 1 ∧ m.tick = was then { m with tick := index } else m }
      s.put Reg.EXP_BREAK_TICK index
    else s
  | [] => s

/-- R377: another device's stop is taken at its t_B, of the same kind. -/
def State.takeStop (s : State) (st : Strip) (cause kind : Nat) (tB : Int) (origin : Nat) : State :=
  let q := s.get Reg.EXP_STATE_STATE
  let s := if q = 6 then s.lowerBreak st kind tB
    else if q = 3 then s.abandonFlood (65536 + 16) .retry
    else if ¬ s.firing then s
    else
      let first := match s.seq.prompt with
        | some p => decide (p.tick ≤ tB)
        | none => false
      if kind = 1 then
        match s.seq.prompt with
        | some p => if p.tick ≤ tB then s.enterBreak p.cause p.kind p.tick false []
          else s.enterBreak 16 1 tB false [(1, cause), (1, origin)]
        | none => s.enterBreak 16 1 tB false [(1, cause), (1, origin)]
      else if kind = 2 then
        if first then s
        else { s with seq := { s.seq with prompt := some ⟨tB, 16, 2, origin⟩, relayed := some ⟨tB, cause, 2, origin⟩ } }
      else ({ s with seq := { s.seq with relayed := some ⟨tB, cause, 3, origin⟩ } }).planStop st s.tickNow
  if hostCause cause then s.holdForHost st.slot else s

/-- R377: STOP_MESSAGE. The master relays the stop to every slave. -/
def execStopMessage (m : LinkMsg) (cause : Byte) (kind : Fin 4) (tB : BitVec 64) (origin : BitVec 2) (s : State) : Out :=
  .next (s.onMessage m 5 fun s =>
    let own := decide (origin.toNat = s.get Reg.CSC_CFG_DEVICE)
    let s := if own then s else
      s.raise 0x0D06 [(1, m.port.val), (1, origin.toNat), (1, cause.toNat), tickField tB.toInt]
    let s := if s.isSlave then s else
      (s.count (cntCsc 4)).sendAll 5 [cause.toNat, kind.val, tB.toInt, s.headTime, origin.toNat]
    match s.openStrip with
    | some st => if own then s.lowerBreak st kind tB.toInt else s.takeStop st cause.toNat kind tB.toInt origin.toNat
    | none => s)

/-! ### Control of a strip (R374, R378) -/

/-- R374, R378: CTRL_MESSAGE. -/
def execCtrlMessage (m : LinkMsg) (c : CascadeCtrl) (s : State) : Out :=
  .next (s.onMessage m 6 fun s =>
    if ¬ s.isSlave then s
    else match c with
      | .unpaired field device =>
        (match s.box.strips.find? fun st => !st.isOpen with
         | some st => (s.raise 0x0D05 [(1, 0), (4, Config.eventCode 0x0D05 field.toNat), (1, device.toNat)]).dropPosted st 1 0x0D05
         | none => s)
      | .flood ta te resuming =>
        (match s.openStrip, resuming with
         | some st, true => s.beginResume st ta.toInt te.toInt
         | none, false =>
           (match s.box.strips.head? with
            | some st => s.enterFlood st.slot ta.toInt te.toInt false
            | none => s)
         | _, _ => s)
      | .arming ta tS =>
        (match s.openStrip with
         | some st =>
           let s := s.modLedger st.slot fun l => { l with tS := tS.toNat }
           let s := { s with
             tid := { s.tid with armedAt := some ta.toInt, emitted := none, committed := [] },
             csc := { s.csc with lastIndex := none } }
           s.put Reg.TID_TICK_STATE 2
         | none => s)
      | .state q => if q = 5 ∧ s.get Reg.EXP_STATE_STATE = 3 then s.abandonFlood (65536 + 16) .retry else s
      | .over =>
        (match s.openStrip with
         | some st =>
           if s.get Reg.EXP_STATE_STATE = 1 ∨ s.get Reg.EXP_STATE_STATE = 2 then s.endInterrupted st
           -- not yet in SLACK: it ends there, for no job of this device (an ASEQ beyond 32 bits)
           else { s with seq := { s.seq with endJobs := s.seq.endJobs ++ [2 ^ 32] } }
         | none => s)
      | .latency l => (s.put Reg.CSC_STATUS_LFIX l.toNat).linkLimit)

/-- R374: STATUS_MESSAGE: a slave's lead (all ones for a run to the strip's end), conditions, hottest driver temperature,
resume span and pairing. -/
def execStatusMessage (m : LinkMsg) (lead : Word) (wait : BitVec 15) (temp : BitVec 16) (span : List (BitVec 64))
    (pairing : List Word) (s : State) : Out :=
  .next (s.onMessage m 7 fun s =>
    if s.isSlave then s
    else
      let s := s.modPort m.port fun c => { c with
        peerLead := if lead = BitVec.allOnes 32 then none else some lead.toNat
        peerWait := wait.toNat
        peerTemp := temp.toInt
        peerTa := (span[0]?).map BitVec.toInt
        peerTe := (span[1]?).map BitVec.toInt
        peerPairing := pairing.map BitVec.toInt }
      s.watchFlood)

/-- R142, R373: a halo row is stored for the strip that it names. The spec does not say what a receiver does with one that
names no strip posted on it: it is discarded (DESIGN CHOICE, log entry 49). -/
def State.storeHalo (s : State) (id row side : Nat) (values : List Nat) : State :=
  match s.box.strips.find? fun st => decide (st.stripId = id) with
  | none => s
  | some st =>
    if st.halo.any fun h => decide (h.1 = side ∧ h.2.1 = row) then s
    else (s.modStrip st.slot fun x => { x with
        halo := x.halo ++ [(side, row, values)],
        haloAsked := x.haloAsked.filter fun h => decide (h ≠ (side, row)) }).countBy (cntCal 4) values.length

/-- R371, R373: HALO_MESSAGE: from the side of the device at the port, or from beyond it; the master relays what is for
another device. `device` is the sending DEVICE. -/
def execHaloMessage (m : LinkMsg) (device : BitVec 2) (stripId row : Word) (side : Fin 2) (values : List Byte)
    (s : State) : Out :=
  .next (s.onMessage m 9 fun s =>
    let s := s.count (cntCsc 3)
    let own : Int := s.get Reg.CSC_CFG_DEVICE
    let target : Int := device.toNat + (if side = 0 then -1 else 1)
    let vals := values.map BitVec.toNat
    let fields : List Int := [(stripId.toNat : Int), row.toNat, side.val] ++ vals.map Int.ofNat
    if target = own then s.storeHalo stripId.toNat row.toNat (1 - side.val) vals
    else match s.readyPorts.find? fun p => decide (((s.port p).peerDevice : Int) = target) with
      | some p =>
        (s.send p 9 fields).count (cntCsc 2)
      | none => if s.isSlave then s else { s with csc := { s.csc with haloWaits := s.csc.haloWaits ++ [(target.toNat, fields)] } })

/-! ### Registers (R380) -/

/-- R380: a write of CSC_CFG or CSC_SKEW. -/
def execCscConfigWrite (off : BitVec 25) (v : Word) (s : State) : Out :=
  let o := off.toNat
  if ¬ natMem o [0x00F00000, 0x00F00020, 0x00F00024, 0x00F00028] then .next s
  else if ¬ s.domainOn 15 then .next (s.domainOffAccess o)
  else if s.get Reg.EXP_STATE_STATE = 2 ∧ s.box.strips.isEmpty then .next (s.writeWord o v).showPorts
  else .next (s.raise 0x0D0C [(1, 0xFF), (4, o)])

end Sys2Proof.Machine
end

