-- ==== Sys2Proof/Machine/Dram.lean ====
section
/-! DEFINITION. The DRAM controller (chapter 17): requests, the pick, refresh, temperature and training (R383 to R406). The
units read and write the contents of DRAM in their own commands; the requests here are the channels' side of it. -/
namespace Sys2Proof.Machine

/-! ### Channels and sub-channels -/

/-- A channel of the controller. -/
def State.memCh (s : State) (ch : Nat) : MemChannel := s.mem.channels.getD ch {}

/-- The machine with a channel of the controller changed. -/
def State.modMemCh (s : State) (ch : Nat) (f : MemChannel → MemChannel) : State :=
  { s with mem := { s.mem with channels := listModify s.mem.channels ch f } }

/-- A sub-channel, numbered 2·channel + sub. -/
def State.subChannel (s : State) (n : Nat) : SubChannel := s.mem.subs.getD n {}

/-- The machine with a sub-channel changed. -/
def State.modSub (s : State) (n : Nat) (f : SubChannel → SubChannel) : State :=
  { s with mem := { s.mem with subs := listModify s.mem.subs n f } }

/-- R405: the channel field of an event that names none. -/
def noChannel : Nat × Nat := (1, 0xFF)

/-! ### Requests (R388 to R392) -/

/-- R391: the urgency of a request, 0 to 3: by its age against its port's target. -/
def State.urgency (s : State) (r : MemReq) : Nat :=
  let a := 10 * (s.tide - r.at')
  let t := 4 * s.get (Reg.MEM_PORT_TGT_NS r.port)
  if 2 * a < t then 0 else if a < t then 1 else if a < 2 * t then 2 else 3

/-- A feed read (R393). -/
def MemReq.feed (r : MemReq) : Bool := decide (r.port = 0) && r.data.isNone

/-- The sub-channel of a request. -/
def State.reqSub (s : State) (r : MemReq) : Nat := s.memSub r.burst

/-- R392: the place that a request needs is free: a write buffer of 64 entries a sub-channel, 256 reads in flight a
channel. -/
def State.placeFree (s : State) (r : MemReq) : Bool :=
  if r.data.isSome then
    decide ((s.mem.queue.filter fun q => q.data.isSome && decide (s.reqSub q = s.reqSub r)).length < 64)
  else
    let ch := s.reqSub r / 2
    decide (((s.mem.queue ++ s.mem.flight).filter fun q => q.data.isNone && decide (s.reqSub q / 2 = ch)).length < 256)

/-- R391, R392: waiting requests take the places that are free, feed reads first; their age counts from then. -/
def State.admitWaiting (s : State) : State :=
  let order := (s.mem.waiting.filter MemReq.feed) ++ s.mem.waiting.filter fun r => !r.feed
  let s := { s with mem := { s.mem with waiting := [] } }
  order.foldl (fun (s : State) r =>
    if s.placeFree r then { s with mem := { s.mem with queue := s.mem.queue ++ [{ r with at' := s.tide }] } }
    else { s with mem := { s.mem with waiting := s.mem.waiting ++ [r] } }) s

/-- R388 to R392: a request reaches the controller: one burst, or the part of one that a write covers. A request beyond
MEM_SIZE goes nowhere. -/
def execDramRequest (port : Fin 8) (addr : BitVec 64) (write : Bool) (data : List Byte) (poison : Bool)
    (deadline : BitVec 64) (s : State) : Out :=
  let a := addr.toNat
  let first := if write then a % 64 else 0
  let bytes := data.take (64 - first)
  let last := if write then a + data.length else a / 64 * 64 + 64
  if ¬ s.on Reg.MEM_STATUS_READY then .next s
  else if s.memBytes < last then .next (s.raise 0x0E0A [noChannel, (1, port), (8, a)])
  else
    let r : MemReq := { port := port, burst := a / 64, first := first, data := if write then some bytes else none,
                        poison := write && poison, at' := s.tide, deadline := deadline.toNat }
    .next (({ s with mem := { s.mem with waiting := s.mem.waiting ++ [r] } }).admitWaiting)

/-- R391: a request older than 8T is counted, and 0x0E0B raised once per port and second. -/
def execRequestAged (i : Nat) (s : State) : Out :=
  match s.mem.queue[i]? with
  | none => .next s
  | some r =>
    let age := 10 * (s.tide - r.at') / 4
    if r.feed ∨ r.aged ∨ age ≤ 8 * s.get (Reg.MEM_PORT_TGT_NS r.port) then .next s
    else
      let ch := s.reqSub r / 2
      let s := { s with mem := { s.mem with queue := s.mem.queue.set i { r with aged := true } } }.count (cntMem ch 6)
      let again := match s.mem.lateAt.getD r.port none with
        | some t => decide (400000000 ≤ s.tide - t)
        | none => true
      if again then
        .next (({ s with mem := { s.mem with lateAt := listSet s.mem.lateAt r.port (some s.tide) } }).raise 0x0E0B
          [(1, ch), (1, r.port), (4, age)])
      else .next s

/-! ### Refresh (R395 to R398) -/

/-- R395, R397: tREFI of a channel in tide clocks. -/
def State.refreshInterval (s : State) (ch : Nat) : Nat := if bitAt (s.get Reg.MEM_STATUS_HOT) ch then 780 else 1560

/-- R395: every bank of a channel is precharged. -/
def State.closeRows (s : State) (ch : Nat) : State :=
  (s.modSub (2 * ch) fun x => { x with rows := [] }).modSub (2 * ch + 1) fun x => { x with rows := [] }

/-- R395: tRFC in tide clocks. -/
def State.refreshClocks (s : State) : Nat := if s.mem.density = 0 then 118 else 164

/-- R395, R396: n refreshes of a channel, which takes no command meanwhile. -/
def State.refresh (s : State) (ch n : Nat) : State :=
  let free := s.tide + n * s.refreshClocks
  ((s.closeRows ch).modMemCh ch fun x => { x with refreshed := true, busyUntil := free }).countBy (cntMem ch 3) n

/-- R396: the postponement limit of a channel. -/
def State.postponeLimit (s : State) (ch : Nat) : Nat :=
  let m := s.get Reg.MEM_REF_POSTPONE_MAX
  if bitAt (s.get Reg.MEM_STATUS_HOT) ch then m / 2 else m

/-- R396, R398: every owed refresh of a channel is issued in one burst. -/
def State.refreshOwed (s : State) (ch : Nat) : State :=
  let n := (s.memCh ch).owed
  (s.modMemCh ch fun x => { x with owed := 0 }).refresh ch n

/-- R398, R406: owed refreshes are issued at once, counted and raised. -/
def State.flushOwed (s : State) (ch : Nat) : State :=
  let n := (s.memCh ch).owed
  if n = 0 then s
  else ((s.refreshOwed ch).countBy (cntMem ch 4) n).raise 0x0E07 [(1, ch), (4, n)]

/-- R395, R396: tREFI of a channel has passed: a native refresh, or one more owed, all of them at the limit. -/
def State.refreshNow (s : State) (ch : Nat) : State :=
  let s := s.modMemCh ch fun x => { x with nextRef := x.nextRef + s.refreshInterval ch }
  if s.on Reg.MEM_REF_MODE then
    let s := s.modMemCh ch fun x => { x with owed := x.owed + 1 }
    if s.postponeLimit ch ≤ (s.memCh ch).owed then s.refreshOwed ch else s
  else s.refresh ch 1

/-- R395: a refresh of a channel is due. -/
def State.refreshWaits (s : State) (ch : Nat) : Bool :=
  s.on Reg.MEM_STATUS_READY && decide ((s.memCh ch).nextRef ≤ s.tide)

/-- R395, R396: tREFI passes on a channel. -/
def execRefreshDue (ch : Fin 6) (s : State) : Out := .next (if s.refreshWaits ch then s.refreshNow ch else s)

/-- R396: no request of urgency 2 or above and no feed read is queued on a channel. -/
def State.channelIdle (s : State) (ch : Nat) : Bool :=
  s.mem.queue.all fun r => decide (s.reqSub r / 2 ≠ ch) || (!r.feed && decide (s.urgency r < 2))

/-- R396: the owed refreshes of a channel are issued in one burst. -/
def execRefreshBurst (ch : Fin 6) (s : State) : Out :=
  let n := (s.memCh ch).owed
  .next (if 0 < n ∧ (s.postponeLimit ch ≤ n ∨ s.channelIdle ch) then s.refreshOwed ch else s)

/-- R397, R398: a poll of a channel's devices: whether one reports the hot refresh rate, and the hottest device. -/
def execMemThermPoll (ch : Fin 6) (hot : Bool) (device : Byte) (s : State) : Out :=
  let was := bitAt (s.get Reg.MEM_STATUS_HOT) ch
  if ¬ s.on Reg.MEM_STATUS_READY then .next s
  else if hot then
    let s := s.modMemCh ch fun x => { x with cool := 0 }
    if was then .next s
    else
      let s := (s.put Reg.MEM_STATUS_HOT (setBit (s.get Reg.MEM_STATUS_HOT) ch true)).raise 0x0E05 [(1, ch), (4, device.toNat)]
      .next (if s.on Reg.MEM_REF_MODE then s.flushOwed ch else s)
  else if was then
    let s := s.modMemCh ch fun x => { x with cool := x.cool + 1 }
    .next (if 2 ≤ (s.memCh ch).cool then
        ((s.put Reg.MEM_STATUS_HOT (setBit (s.get Reg.MEM_STATUS_HOT) ch false)).modMemCh ch fun x => { x with cool := 0 }).raise
          0x0E06 [(1, ch)]
      else s)
  else .next s

/-- R406: a write of MEM_REF: MODE 0 issues what is owed at once, and is native from the next interval. -/
def execMemRefModeWrite (v : Word) (s : State) : Out :=
  let t := s.writeWord 0x01000018 v
  .next (if s.on Reg.MEM_REF_MODE ∧ ¬ t.on Reg.MEM_REF_MODE then
    (List.range 6).foldl (fun (s : State) ch => s.flushOwed ch) t else t)

/-! ### The pick (R389, R393, R394) -/

/-- R389: an earlier request to the same burst is still under way. -/
def State.ordered (s : State) (i : Nat) (r : MemReq) : Bool :=
  ((s.mem.queue.take i) ++ s.mem.flight).all fun q => decide (q.burst ≠ r.burst)

/-- The bank index and the row of a request (R387, R392). -/
def State.bankRow (s : State) (r : MemReq) : Nat × Nat := ((s.memPlace r.burst).2.2.1, (s.memPlace r.burst).2.2.2)

/-- The open row of a bank and its hits in a row. -/
def SubChannel.openRow (x : SubChannel) (bank : Nat) : Option (Nat × Nat) :=
  (x.rows.find? fun p => decide (p.1 = bank)).map (·.2)

/-- R394: whether a sub-channel drains: entered at WR_HI entries or a write of urgency 3, left at WR_LO without one. -/
def State.draining (s : State) (n : Nat) : Bool :=
  let w := s.mem.queue.filter fun r => r.data.isSome && decide (s.reqSub r = n)
  let urgent := w.any fun r => decide (s.urgency r = 3)
  if s.get Reg.MEM_SCHED_WR_HI ≤ w.length ∨ urgent then true
  else if w.length ≤ s.get Reg.MEM_SCHED_WR_LO then false
  else (s.subChannel n).drain

/-- R393: the candidates: feed reads of the earliest deadline; otherwise the reads, or the writes while draining, of the
highest urgency. Writes are served outside drain when no read is ready. -/
def State.candidates (s : State) (drain : Bool) (c : List MemReq) : List MemReq :=
  let reads := c.filter fun r => r.data.isNone
  let writes := c.filter fun r => r.data.isSome
  match reads.filter MemReq.feed with
  | f :: fs =>
    let d := fs.foldl (fun a r => min a r.deadline) f.deadline
    (f :: fs).filter fun r => decide (r.deadline = d)
  | [] =>
    let c := if drain ∨ reads.isEmpty then writes else reads
    let u := c.foldl (fun a r => max a (s.urgency r)) 0
    c.filter fun r => decide (s.urgency r = u)

/-- R393: candidates that hit their bank's open row, but for banks that have had their share while another row waits. -/
def State.rowHits (s : State) (n : Nat) (c : List MemReq) : List MemReq :=
  let x := s.subChannel n
  c.filter fun r =>
    let b := s.bankRow r
    match x.openRow b.1 with
    | none => false
    | some (row, hits) => decide (row = b.2) &&
      !(decide (s.get Reg.MEM_SCHED_ROW_HIT_MAX ≤ hits) && s.mem.queue.any fun q =>
        decide (s.reqSub q = n) && decide ((s.bankRow q).1 = b.1) && decide ((s.bankRow q).2 ≠ row))

/-- R393: the candidate whose bank index is the first at or after the pointer, cyclically; the oldest of that bank. -/
def State.firstBank (s : State) (banks pointer : Nat) : List MemReq → Option MemReq
  | [] => none
  | r :: rest =>
    let dist (q : MemReq) : Nat := ((s.bankRow q).1 + banks - pointer) % banks
    some (rest.foldl (fun a q => if dist q < dist a then q else a) r)

/-- A read is on its way; a write has reached its burst. -/
def State.serve (s : State) (r : MemReq) : State :=
  let queue := s.mem.queue.erase r
  let s := { s with mem := { s.mem with queue := queue } }
  let ch := s.reqSub r / 2
  match r.data with
  | none => ({ s with mem := { s.mem with flight := s.mem.flight ++ [r] } }).admitWaiting
  | some d =>
    ((((s.writeBurst r.burst r.first d r.poison).count (cntMem ch 1)).modMemCh ch fun x =>
      { x with writes := x.writes + 1 })).admitWaiting

/-- R393: a request's next command: a column command on its open row, a precharge of another row, or an activate. -/
def State.command (s : State) (n : Nat) (r : MemReq) : State :=
  let b := s.bankRow r
  let banks := 32 * (1 + s.mem.ranks)
  match (s.subChannel n).openRow b.1 with
  | some (row, hits) =>
    if row = b.2 then
      (s.modSub n fun x => { x with rows := (x.rows.filter fun p => decide (p.1 ≠ b.1)) ++ [(b.1, row, hits + 1)] }).serve r
    else s.modSub n fun x => { x with rows := x.rows.filter fun p => decide (p.1 ≠ b.1) }
  | none =>
    (s.modSub n fun x => { x with rows := x.rows ++ [(b.1, b.2, 0)], pointer := (b.1 + 1) % banks }).count (cntMem (n / 2) 2)

/-- R393: a free command slot of a sub-channel: a due refresh first, otherwise the pick among the requests (by their place in
the queue) whose next command meets the timing constraints. -/
def execDramPick (ch : Fin 6) (sub : Fin 2) (ready : List Nat) (s : State) : Out :=
  let n := 2 * ch.val + sub.val
  if ¬ s.on Reg.MEM_STATUS_READY ∨ s.tide < (s.memCh ch).busyUntil then .next s
  else if s.refreshWaits ch then .next (s.refreshNow ch)
  else
    let drain := s.draining n
    let s := s.modSub n fun x => { x with drain := drain }
    let c := ((List.range s.mem.queue.length).zip s.mem.queue).filter fun p =>
      natMem p.1 ready && decide (s.reqSub p.2 = n) && s.ordered p.1 p.2
    let c := s.candidates drain (c.map (·.2))
    let h := s.rowHits n c
    match s.firstBank (32 * (1 + s.mem.ranks)) (s.subChannel n).pointer (if h.isEmpty then c else h) with
    | none => .next s
    | some r => .next (s.command n r)

/-! ### Training (R399 to R403) -/

/-- R386, R383: installed bytes of a set-up. -/
def installedBytes (density ranks : Nat) : Nat := 6 * (1 + ranks) * (16 + 8 * density) * 2 ^ 30

/-- The steps of R399 that the channels still train: the least in progress. -/
def State.trainStep (s : State) : Nat :=
  let l := (List.range 6).filter fun ch => decide ((s.memCh ch).trained = 0)
  match l with
  | [] => 0
  | c :: r => r.foldl (fun a ch => min a (s.get (Reg.MEM_TRN_STATE_STEP ch))) (s.get (Reg.MEM_TRN_STATE_STEP c))

/-- A channel's step instance begins. -/
def State.beginInstance (s : State) (ch step rank attempt : Nat) : State :=
  (s.puts [(Reg.MEM_TRN_STATE_STEP ch, step), (Reg.MEM_TRN_STATE_RANK ch, rank), (Reg.MEM_TRN_STATE_ATTEMPT ch, attempt),
    (Reg.MEM_TRN_STATE_RESULT ch, 0)])

/-- R399: every channel starts training at step 1. -/
def State.restartTraining (s : State) : State :=
  let s := (List.range 6).foldl (fun (s : State) ch =>
    (s.modMemCh ch fun x => { x with trained := 0 }).beginInstance ch 1 0 1) s
  s.puts [(Reg.MEM_STATUS_STEP, 1), (Reg.MEM_STATUS_FAILED, 0), (Reg.MEM_STATUS_TRAINING, 1), (Reg.MEM_STATUS_READY, 0)]

/-- R399, R403, R430: a training starts: the set-up of the registers is taken, and what lay in DRAM is gone with the
scrubber's, the erasure's and the repairs' state. -/
def State.startTraining (s : State) : State :=
  let ranks := s.get Reg.MEM_CFG_RANKS
  let density := s.get Reg.MEM_CFG_DENSITY
  let grain := s.get Reg.MEM_ILV_GRAIN
  let s := { s with
    dram := [],
    mem := { s.mem with
      ranks := ranks, density := density, grain := grain, queue := [], flight := [], waiting := [], subs := List.replicate 12 {},
      heldRate := none, initialising := false, flaws := [], lossRaised := [], repairs := [], devCounts := [], sweeps := [],
      listOverrun := false, poisonList := [], scrubCorrected := 0, scrubLost := 0 } }
  let s := (List.range 6).foldl (fun (s : State) ch =>
    (s.put (Reg.INT_ERASE_STATES ch) 0).modMemCh ch fun x => { x with owed := 0, cool := 0 }) s
  (s.puts [(Reg.MEM_SIZE_BYTES, 0), (Reg.MEM_STATUS_HOT, 0), (Reg.INT_SCRUB_POS_ADDR, 0), (Reg.INT_SCRUB_PASSES, 0),
    (Reg.INT_ERASE_REQ_GO, 0)]).restartTraining

/-- R401: the instance's results are discarded; once every instance has ended, the channels restart at the held rate. -/
def State.discardInstance (s : State) (ch rate : Nat) : State :=
  let s := s.put (Reg.MEM_TRN_STATE_RESULT ch) 3
  let busy := (List.range 6).any fun c => decide ((s.memCh c).trained = 0 ∧ s.get (Reg.MEM_TRN_STATE_RESULT c) = 0)
  if busy then s
  else
    let old := s.get Reg.MEM_CFG_RATE
    let s := ({ s with mem := { s.mem with heldRate := none } }).put Reg.MEM_CFG_RATE rate
    (s.restartTraining).raise 0x0E03 [noChannel, (4, old), (4, rate)]

/-- R400, R402: the training of every channel is over: initialisation follows, unless a channel has failed. -/
def State.trainingOver (s : State) : State :=
  if (List.range 6).any fun ch => decide ((s.memCh ch).trained = 0) then s.put Reg.MEM_STATUS_STEP s.trainStep
  else
    let s := s.put Reg.MEM_STATUS_STEP 0
    if s.get Reg.MEM_STATUS_FAILED = 0 then { s with mem := { s.mem with initialising := true } }
    else s.put Reg.MEM_STATUS_TRAINING 0

/-- R400: a channel has failed. -/
def State.channelFails (s : State) (ch : Nat) (code : Nat) (payload : List (Nat × Nat)) : State :=
  let s := (s.put Reg.MEM_STATUS_FAILED (setBit (s.get Reg.MEM_STATUS_FAILED) ch true)).modMemCh ch fun x => { x with trained := 2 }
  (s.raise code ((1, ch) :: payload)).trainingOver

/-- R399: the next instance of a channel after one has passed: the next rank, the next step, or the end. -/
def State.nextInstance (s : State) (ch : Nat) : State :=
  let step := s.get (Reg.MEM_TRN_STATE_STEP ch)
  let rank := s.get (Reg.MEM_TRN_STATE_RANK ch)
  if rank < s.mem.ranks then (s.beginInstance ch step (rank + 1) 1).trainingOver
  else if step < 9 then (s.beginInstance ch (step + 1) 0 1).trainingOver
  else (s.modMemCh ch fun x => { x with trained := 1 }).trainingOver

/-- R383, R399 to R401: a step instance of a channel ends: with its comparator lanes and trained settings, passed or failed;
at INIT a configuration outside R383 (given as device and field read back, or DENSITY 3) fails the channel. -/
def execDramTrainInstanceEnd (ch : Fin 6) (rank : Fin 2) (config : Option (Byte × Word)) (passed : Bool) (lane : Byte)
    (mask0 mask1 : BitVec 40) (lanes : List Word) (s : State) : Out :=
  let step := s.get (Reg.MEM_TRN_STATE_STEP ch)
  if ¬ s.on Reg.MEM_STATUS_TRAINING ∨ (s.memCh ch).trained ≠ 0 ∨ s.get (Reg.MEM_TRN_STATE_RESULT ch) ≠ 0 ∨
      s.get (Reg.MEM_TRN_STATE_RANK ch) ≠ rank.val then .next s
  else match s.mem.heldRate with
    | some rate => .next (s.discardInstance ch rate)
    | none =>
      let s := s.puts [(Reg.MEM_TRN_MASK_LANES ch 0, mask0.toNat), (Reg.MEM_TRN_MASK_LANES ch 1, mask1.toNat)]
      let s := ((List.range 80).zip lanes).foldl (fun (s : State) p =>
        { s with regs := rfSetWord s.regs (0x01001000 + 512 * ch.val + 256 * (p.1 / 40) + 4 * (p.1 % 40)) p.2 }) s
      let bad : Option (Nat × Nat) := if step ≠ 1 then none
        else if s.mem.density = 3 then some (0xFF, 3)
        else config.map fun p => (p.1.toNat, p.2.toNat)
      match bad with
      | some (device, field) =>
        .next ((s.put (Reg.MEM_TRN_STATE_RESULT ch) 2).channelFails ch 0x0E09 [(4, device), (4, field)])
      | none =>
        if passed then .next ((s.put (Reg.MEM_TRN_STATE_RESULT ch) 1).nextInstance ch)
        else
          let s := s.put (Reg.MEM_TRN_STATE_RESULT ch) 2
          let attempt := s.get (Reg.MEM_TRN_STATE_ATTEMPT ch)
          .next (if attempt < 3 then s.beginInstance ch step rank (attempt + 1)
            else s.channelFails ch 0x0E02 [(1, step), (4, rank), (2, lane.toNat)])

/-- R402, R421: every byte is 0 with valid check symbols; READY. -/
def execDramInitDone (s : State) : Out :=
  if ¬ s.mem.initialising then .next s
  else
    let size := installedBytes s.mem.density s.mem.ranks
    let rate := s.get Reg.MEM_CFG_RATE
    let s := { s with dram := [], mem := { s.mem with initialising := false, flaws := [], poisonList := [] } }
    let first := s.tide + 1560
    let s := (List.range 6).foldl (fun (s : State) ch => s.modMemCh ch fun x => { x with nextRef := first, owed := 0, busyUntil := 0 }) s
    let s := s.puts [(Reg.MEM_SIZE_BYTES, size), (Reg.MEM_STATUS_RATE, rate), (Reg.MEM_STATUS_TRAINING, 0),
      (Reg.MEM_STATUS_READY, 1), (Reg.MEM_CTRL_RETRAIN, 0)]
    .next (s.showConfig.raise 0x0E01 [noChannel, (4, rate), (4, size)])

/-- R403: a host job in flight names DRAM. -/
def State.jobsInDram (s : State) : Bool :=
  s.host.jobs.any (fun j => decide (j.opcode = 1)) || s.store.codec.any (fun c =>
    if c.opcode = 0x30 then decide (fieldAt c.desc 60 1 ≠ 0) else decide (bitsOf (fieldAt c.desc 40 1) 2 1 ≠ 0)) ||
  !s.mem.scans.isEmpty

/-- R403: the parsed cell libraries are discarded, and the ledger's strip records and ream slots are cleared. -/
def State.dropStaged (s : State) : State :=
  let streams := s.box.streams.map fun (m : Stream) => { m with cells := [] }
  let ledger := s.store.ledger.map fun (_ : StripLedger) => StripLedger.free
  let s := { s with
    box := { s.box with streams := streams }, store := { s.store with ledger := ledger, slots := [], ledgerPoison := [] } }
  s.showStore

/-- R403: the retraining that RETRAIN requests starts once nothing uses DRAM. A write asks for one training; RETRAIN reads 1 until
READY, also after a training that fails (DESIGN CHOICE, log entry 63). -/
def execDramRetrainStart (s : State) : Out :=
  if s.mem.retrainAsked ∧ ¬ s.on Reg.MEM_STATUS_TRAINING ∧ s.get Reg.EXP_STATE_STATE = 2 ∧ s.box.strips.isEmpty ∧
      ¬ s.jobsInDram ∧ s.hcr.run.isNone ∧ s.hcr.cal.isNone then
    .next (({ s with mem := { s.mem with retrainAsked := false } }.dropStaged).startTraining)
  else .next s

/-- R403: a write of MEM_CTRL requests retraining. -/
def execMemRetrainWrite (v : Word) (s : State) : Out :=
  let asked := s.mem.retrainAsked || (s.domainOn 12 && bitAt v.toNat 31)
  .next ({ s with mem := { s.mem with retrainAsked := asked } }.writeWord 0x01000008 v)

/-- R401: a write of MEM_CFG; during training its RATE is held until the instances in progress have ended. -/
def execMemRateWrite (v : Word) (s : State) : Out :=
  let t := s.writeWord 0x01000000 v
  let old := s.get Reg.MEM_CFG_RATE
  let new := t.get Reg.MEM_CFG_RATE
  if s.on Reg.MEM_STATUS_TRAINING ∧ ¬ s.mem.initialising ∧ v.toNat % 4 ≠ 3 ∧ (new ≠ old ∨ s.mem.heldRate.isSome) then
    .next (({ t with mem := { t.mem with heldRate := some new } }).put Reg.MEM_CFG_RATE old)
  else .next t

end Sys2Proof.Machine
end

