-- ==== Sys2Proof/Machine/Integrity.lean ====
section
/-! DEFINITION. Data integrity (chapter 18): decoded reads, repairs, the scrubber and its owners, erasure, the SRAM patrol,
the checker test mode and the check-value units (R407 to R430, R454). -/
namespace Sys2Proof.Machine

/-! ### Erasure (R411, R412) -/

/-- Channel, sub-channel, rank and device of a sweep. -/
def sliceFields (slice dev : Nat) : List (Nat × Nat) := [(1, slice / 4), (4, slice % 2), (4, slice / 2 % 2), (4, dev)]

/-- R428: INT_ERASE_REQ.GO reads 1 while a sweep that the register asked for runs. -/
def State.showErase (s : State) : State := s.put Reg.INT_ERASE_REQ_GO (flag (s.mem.sweeps.any fun p => p.2.2))

/-- R411: an erasure sweep of a sub-channel-rank starts, or is refused while four are erased or sweeping. -/
def State.startSweep (s : State) (slice dev : Nat) (host : Bool) : State :=
  if s.eraseState slice ≠ 0 then s
  else if 4 ≤ ((List.range 24).filter fun n => decide (s.eraseState n ≠ 0)).length then s.raise 0x0F07 (noAddress ++ [(1, 1)])
  else
    let s := s.setErase slice 7
    ({ s with mem := { s.mem with sweeps := s.mem.sweeps ++ [(slice, dev, host)] } }).raise 0x0F05
      (noAddress ++ sliceFields slice dev)

/-- R412: a sweep leaves the list of those that run. -/
def State.dropSweep (s : State) (slice : Nat) : State :=
  ({ s with mem := { s.mem with sweeps := s.mem.sweeps.filter fun p => decide (p.1 ≠ slice) } }).showErase

/-- R412: the list overflows during a sweep: the mark is abandoned, and the list discarded. -/
def State.abandonSweep (s : State) (slice : Nat) : State :=
  let s := (s.dropSweep slice).setErase slice 0
  ({ s with mem := { s.mem with poisonList := s.mem.poisonList.filter fun p => decide (p.1 ≠ slice) } }).raise 0x0F07
    (noAddress ++ [(1, 2)])

/-- R412: a burst that a sweep or a demand read finds POISONED or UNCORRECTABLE is listed while the sweep runs. -/
def State.sweepFinds (s : State) (burst : Nat) : State :=
  let slice := s.memSlice burst
  if s.mem.sweeps.any fun p => decide (p.1 = slice) then
    let p := s.listPoison burst
    if p.2 then p.1 else s.abandonSweep slice
  else s

/-- R411: a write of INT_ERASE_REQ with GO requests a sweep. -/
def execIntEraseReqGo (v : Word) (s : State) : Out :=
  if ¬ s.domainOn 12 then .next (s.domainOffAccess 0x01100010) else
  let s := s.writeWord 0x01100010 v
  let ch := s.get Reg.INT_ERASE_REQ_CH
  let dev := s.get Reg.INT_ERASE_REQ_DEV
  let rank := s.get Reg.INT_ERASE_REQ_RANK
  let slice := 4 * ch + 2 * rank + s.get Reg.INT_ERASE_REQ_SUB
  if ¬ bitAt v.toNat 31 then .next s
  else if ¬ s.on Reg.MEM_STATUS_READY ∨ 5 < ch ∨ 4 < dev ∨ s.mem.ranks < rank then .next s.showErase
  else .next (s.startSweep slice dev true).showErase

/-! ### Reads (R409, R411, R413, R417, R420) -/

/-- R429: a correction joins those of the second that runs, which begins with the first of them. -/
def joinSecond (tide : Nat) (c : Nat × Nat) : Nat × Nat := if c.1 = 0 then (1, tide) else (c.1 + 1, c.2)

/-- R429: a burst of a channel has been corrected. -/
def State.noteCorrected (s : State) (ch : Nat) : State :=
  { s with mem := { s.mem with corrected := listModify s.mem.corrected ch (joinSecond s.tide) } }

/-- R411: a burst has been corrected on one device of its sub-channel-rank. -/
def State.countDevice (s : State) (slice dev : Nat) : State :=
  let key := 8 * slice + dev
  let n : Nat := ((s.mem.devCounts.find? fun p => decide (p.1 = key)).map (·.2)).getD 0 + 1
  let counts : List (Nat × Nat) := (s.mem.devCounts.filter fun p => decide (p.1 ≠ key)) ++ [(key, n)]
  let s := { s with mem := { s.mem with devCounts := counts } }
  if s.on Reg.INT_CTRL_AUTO_ERASE && decide (n = s.get Reg.INT_CTRL_ERASE_THRESH) then s.startSweep slice dev false else s

/-- R409, R413: a burst is read and decoded, with the symbols that its cells return otherwise than stored: its counters,
events and device counts. The finder is a port; 7 is the scrubber. -/
def State.readBurst (s : State) (burst finder : Nat) (errors : List (Fin 80 × Byte)) : State × BurstOutcome :=
  let ch := (s.memLocal burst).1
  let slice := s.memSlice burst
  let s := if errors.isEmpty then s
    else s.storeWord burst (errors.foldl (fun w e => listModify w e.1 (fun x => x ^^^ e.2.toNat)) (s.storedWord burst))
  let o := s.outcomeOf burst
  let s := if (s.erasedDevice slice).isSome then s.count (cntInt ch 5) else s
  match o with
  | .clean => (s, o)
  | .poisoned => (s.sweepFinds burst, o)
  | .corrected p =>
    let s := ((s.count (cntInt ch 0)).countBy (cntInt ch 1) p.length).noteCorrected ch
    let d := symbolDevice (p.headD 0)
    (if p.all fun i => decide (symbolDevice i = d) then s.countDevice slice d else s, o)
  | .uncorrectable =>
    let s := if natMem burst s.mem.lossRaised then s
      else
        (({ s with mem := { s.mem with lossRaised := burst :: s.mem.lossRaised } }).count (cntInt ch 2)).raise 0x0F02
          (s.burstFields burst ++ [(1, finder)])
    (s.sweepFinds burst, o)

/-- The bursts of a sub-channel-rank that carry a flaw. -/
def State.flawedIn (s : State) (slice : Nat) : List Nat :=
  (s.mem.flaws.map (·.1)).filter fun b => decide (s.memSlice b = slice)

/-- R412: a sweep has read every burst of its sub-channel-rank: the device is erased, unless the list overflows. A burst
without a flaw reads CLEAN, and needs no reading here. -/
def execErasureSweepEnd (ch : Fin 6) (rank sub : Fin 2) (s : State) : Out :=
  let slice := 4 * ch.val + 2 * rank.val + sub.val
  match s.mem.sweeps.find? fun p => decide (p.1 = slice) with
  | none => .next s
  | some (_, dev, _) =>
    let s := (s.flawedIn slice).foldl (fun (s : State) b => (s.readBurst b 7 []).1) s
    if s.mem.sweeps.all fun p => decide (p.1 ≠ slice) then .next s
    else
      let entries := (s.mem.poisonList.filter fun p => decide (p.1 = slice)).length
      let words := (s.flawedIn slice).map fun b => (b, s.storedWord b)
      let s := (s.dropSweep slice).setErase slice (8 + dev)
      let s := words.foldl (fun (s : State) p => s.storeWord p.1 p.2) s
      .next (s.raise 0x0F06 (noAddress ++ sliceFields slice dev ++ [(4, entries)]))

/-- R420: a burst joins its channel's repair queue of 64. -/
def State.queueRepair (s : State) (burst : Nat) : State :=
  let ch := (s.memLocal burst).1
  if natMem burst s.mem.repairs then s
  else if 64 ≤ (s.mem.repairs.filter fun b => decide ((s.memLocal b).1 = ch)).length then s.count (cntInt ch 4)
  else { s with mem := { s.mem with repairs := s.mem.repairs ++ [burst] } }

/-- R420: the oldest queued repair of a channel is written: clean from a corrected word, poisoned from a lost one. -/
def execRepairWrite (ch : Fin 6) (s : State) : Out :=
  match s.mem.repairs.find? fun b => decide ((s.memLocal b).1 = ch.val) with
  | none => .next s
  | some b =>
    let s := { s with mem := { s.mem with repairs := s.mem.repairs.erase b } }
    .next (s.rewrite b (s.outcomeOf b).bad)

/-- R167: a copy of a strip's ledger holds a poisoned byte. -/
def State.poisonLedger (s : State) (slot copy : Nat) : State :=
  let old := ((s.store.ledgerPoison.find? fun p => decide (p.1 = slot)).map (·.2)).getD 0
  let rest := s.store.ledgerPoison.filter fun p => decide (p.1 ≠ slot)
  { s with store := { s.store with ledgerPoison := rest ++ [(slot, setBit old copy true)] } }

/-- R409: a burst of a channel's oldest read of it returns. `consumer` is the unit that uses it for a result, which consumes
its poison (R417). -/
def execDramReadReturn (addr : BitVec 64) (errors : List (Fin 80 × Byte)) (consumer : Option Byte) (s : State) : Out :=
  let burst := addr.toNat / 64
  match s.mem.flight.find? fun r => decide (r.burst = burst) with
  | none => .next s
  | some r =>
    let ch := (s.memLocal burst).1
    let s := ({ s with mem := { s.mem with flight := s.mem.flight.erase r } }).count (cntMem ch 0)
    let s := if r.feed ∧ r.deadline < s.tide then s.count (cntMem ch 5) else s
    let feed := flag r.feed
    let s := s.modMemCh ch fun x => { x with feedReads := x.feedReads + feed, otherReads := x.otherReads + (1 - feed) }
    let p := s.readBurst burst r.port errors
    let s := match p.2 with
      | .corrected _ => p.1.queueRepair burst
      | .uncorrectable => p.1.queueRepair burst
      | _ => p.1
    let s := if p.2.bad ∧ s.ownerOf addr.toNat = 2 then
        (match s.ledgerPlace addr.toNat with
         | (some slot, copy) => s.poisonLedger slot copy
         | (none, _) => s)
      else s
    let s := match consumer with
      | some u =>
        if p.2.bad then s.consumePoison burst u.toNat else s
      | none => s
    .next s.admitWaiting

/-! ### The scrubber (R421, R423) -/

/-- R423: a lost burst of the ledger is repaired from the other copy; with both poisoned the ledger is lost. -/
def State.scrubLedger (s : State) (burst : Nat) : State :=
  match s.ledgerPlace (64 * burst) with
  | (none, _) => s
  | (some slot, copy) =>
    let s := s.poisonLedger slot copy
    let bits : Nat := ((s.store.ledgerPoison.find? fun p => decide (p.1 = slot)).map (·.2)).getD 0
    if bits = 3 then (if (s.stripAt slot).any (·.ledgerLost) then s else s.loseLedger slot)
    else
      let left : List (Nat × Nat) := s.store.ledgerPoison.filter fun p => decide (p.1 ≠ slot)
      (({ s with store := { s.store with ledgerPoison := left } }).rewrite burst false).raise 0x0414
        (stoFields slot none none none none)

/-- R423: a lost burst of the reserve table: its 64 entries are 60, and the ream's demand is computed again. -/
def State.scrubReserve (s : State) (burst : Nat) : State :=
  let index := (64 * burst - s.reserveRegion.1) / 2048
  let s := s.writeBurst burst 0 (List.replicate 64 60) false
  match s.store.slots.find? fun m => decide (m.index = index) with
  | none => s
  | some m => s.demandAgain m.stripSlot

/-- The tile of a stored burst: the ream slot whose group holds its block, and the column of the segment that covers it. -/
def State.storedTile (s : State) (burst : Nat) : Option (Nat × Nat × Nat) :=
  let o := 64 * burst - s.areaBase
  s.store.slots.findSome? fun m =>
    (List.range 128).findSome? fun c =>
      match (m.groups.getD c []).idxOf? (o / 4096) with
      | none => none
      | some k =>
        let off := 4096 * k + o % 4096
        (m.segs.find? fun p => decide (p.1 / 16 = c ∧ p.2.off ≤ off ∧ off < p.2.off + p.2.bytes)).map fun p =>
          (m.stripSlot, m.ream, p.1 % 16)

/-- R423: the scrubber's action on a lost burst, by owner. -/
def State.scrubActs (s : State) (burst : Nat) : State :=
  match s.ownerOf (64 * burst) with
  | 1 => match s.storedTile burst with
    | some (slot, r, j) => match s.stripAt slot with
      | some st => s.loseTile st r j
      | none => s
    | none => s
  | 2 => s.scrubLedger burst
  | 3 => s.scrubReserve burst
  | _ => s

/-- R421: the position moves on; a pass that ends is raised, and the next starts at address 0. -/
def State.scrubOn (s : State) : State :=
  let next := s.get Reg.INT_SCRUB_POS_ADDR + 64
  if next < s.memBytes then s.put Reg.INT_SCRUB_POS_ADDR next
  else
    let c := s.mem.scrubCorrected
    let l := s.mem.scrubLost
    let s := s.puts [(Reg.INT_SCRUB_POS_ADDR, 0), (Reg.INT_SCRUB_PASSES, (s.get Reg.INT_SCRUB_PASSES + 1) % 2 ^ 24)]
    ({ s with mem := { s.mem with scrubCorrected := 0, scrubLost := 0, devCounts := [] } }).raise 0x0F04
      (noAddress ++ [(4, c), (4, l)])

/-- R421, R423: the scrubber reads its next burst, repairs it, and acts by owner. -/
def execScrubStep (errors : List (Fin 80 × Byte)) (s : State) : Out :=
  if ¬ s.on Reg.MEM_STATUS_READY ∨ ¬ s.on Reg.INT_CTRL_SCRUB_EN then .next s
  else
    let burst := s.get Reg.INT_SCRUB_POS_ADDR / 64
    let p := s.readBurst burst 7 errors
    let s := match p.2 with
      | .clean => p.1
      | .corrected _ =>
        let t := p.1.rewrite burst false
        { t with mem := { t.mem with scrubCorrected := t.mem.scrubCorrected + 1 } }
      | .poisoned => p.1.scrubActs burst
      | .uncorrectable =>
        let t := p.1.rewrite burst true
        ({ t with mem := { t.mem with scrubLost := t.mem.scrubLost + 1 } }).scrubActs burst
    .next s.scrubOn

/-! ### SRAM (R415, R416) -/

/-- R429: a byte of SRAM has been corrected. -/
def State.noteSram (s : State) : State :=
  { s with mem := { s.mem with sramCorrected := joinSecond s.tide s.mem.sramCorrected } }

/-- R429: the second that a count of corrections belongs to has ended. -/
def secondOver (tide : Nat) (c : Nat × Nat) : Bool := decide (0 < c.1 ∧ c.2 + 400000000 ≤ tide)

/-- R429: the corrections of a second that has ended are raised, by channel and for SRAM. -/
def State.reportCorrected (s : State) : State :=
  let s := (List.range 6).foldl (fun (s : State) ch =>
    let c := s.mem.corrected.getD ch (0, 0)
    if secondOver s.tide c then
      ({ s with mem := { s.mem with corrected := listSet s.mem.corrected ch (0, 0) } }).raise 0x0F01 (noAddress ++ [(4, c.1)])
    else s) s
  let c := s.mem.sramCorrected
  if secondOver s.tide c then
    ({ s with mem := { s.mem with sramCorrected := (0, 0) } }).raise 0x0F09 (noAddress ++ [(4, c.1)])
  else s

/-- What a byte of the SRAM test block holds that nothing has written: the code of 0. -/
def sramDefault (_ : Nat) : BitVec 13 := 0

/-- R416, R429: a byte of SRAM that reads uncorrectable or poisoned raises 0x0F0A once. -/
def State.sramLost (s : State) (unit key : Nat) : State :=
  if s.mem.sramRaised.any fun p => decide (p = (unit, key)) then s
  else
    ({ s with mem := { s.mem with sramRaised := (unit, key) :: s.mem.sramRaised } }).raise 0x0F0A
      (noAddress ++ [(1, unit), (4, key % 2 ^ 32)])

/-- R415, R428: a byte of SRAM is read: what its decoding counts. -/
def State.sramRead (s : State) (unit key outcome : Nat) : State :=
  if outcome = 0 then s
  else if outcome = 1 then (s.count (cntSram 0)).noteSram
  else (s.count (cntSram (if outcome = 3 then 1 else 2))).sramLost unit key

/-- The unit that 0x0F0A names for the test block, which R429 does not number (log entry 21). -/
def testUnit : Nat := Config.eventCode 0x0F0A 0 % 256

/-- R416: the patrol reads an SRAM byte: of the test block, or a byte of a unit whose 13 stored bits are given. It rewrites a
corrected byte, and raises a lost one once. -/
def execSramPatrol (test : Bool) (unit : Byte) (off : Word) (raw : BitVec 13) (s : State) : Out :=
  let o := off.toNat
  if test ∧ 4096 ≤ o then .next s
  else
    let d := sramDecode (if test then (cellGet sramDefault s.mem.sram o).toNat else raw.toNat)
    let s := s.sramRead (if test then testUnit else unit.toNat) (if test then 2 ^ 32 + o else o) d.1
    if d.1 ≠ 1 then .next s
    else
      .next (({ s with mem := { s.mem with
        sram := if test then cellSet sramDefault s.mem.sram o (BitVec.ofNat 13 d.2) else s.mem.sram } }).count (cntSram 3))

/-! ### Checker test mode (R424) -/

/-- R424: a test operation may run: no strip is posted or open, and for DRAM READY is 1. -/
def State.testAllowed (s : State) (dram : Bool) : Bool := s.box.strips.isEmpty && (!dram || s.on Reg.MEM_STATUS_READY)

/-- R424: an operation that may not run. -/
def State.refuseTest (s : State) (op : Nat) : State :=
  (s.puts [(Reg.INT_TEST_CTRL_OP, op), (Reg.INT_TEST_CTRL_GO, 0)]).raise 0x0F0E (noAddress ++ [(4, op)])

/-- The 80 symbols of INT_TEST_DATA. -/
def State.testSymbols (s : State) : List Nat :=
  (List.range 20).flatMap fun k => (leBytes 4 (s.get (Reg.INT_TEST_DATA_SYM k))).map (·.toNat)

/-- INT_TEST_DATA from symbol 4k on, replaced by symbols. -/
def State.setSymbols (s : State) (l : List Nat) : State :=
  (List.range 20).foldl (fun (s : State) k =>
    s.put (Reg.INT_TEST_DATA_SYM k) (leNat (((l.drop (4 * k)).take 4).map byteOf))) s

/-- The burst that INT_TEST_ADDR names. -/
def State.testBurst (s : State) : Nat := s.get Reg.INT_TEST_ADDR_ADDR

/-- An operation is done. -/
def State.testDone (s : State) (op : Nat) : State := s.puts [(Reg.INT_TEST_CTRL_OP, op), (Reg.INT_TEST_CTRL_GO, 0)]

/-- R424: operation 1: 80 symbols are stored without encoding. -/
def execTestRawDramWrite (s : State) : Out :=
  if ¬ s.domainOn 12 then .next (s.domainOffAccess 0x01100300) else
  if ¬ s.testAllowed true then .next (s.refuseTest 1)
  else if s.memBytes < 64 * s.testBurst + 64 then .next ((s.testDone 1).raise 0x0E0A [noChannel, (1, 0xFF), (8, 64 * s.testBurst)])
  else .next ((s.storeWord s.testBurst s.testSymbols).testDone 1)

/-- The code of an outcome in RESULT. -/
def BurstOutcome.code : BurstOutcome → Nat
  | .clean => 0
  | .corrected _ => 1
  | .poisoned => 2
  | .uncorrectable => 3

/-- R424: operation 2: the stored symbols, and how they decode; 4 in erased mode. -/
def execTestRawDramRead (s : State) : Out :=
  if ¬ s.domainOn 12 then .next (s.domainOffAccess 0x01100300) else
  let b := s.testBurst
  if ¬ s.testAllowed true then .next (s.refuseTest 2)
  else if s.memBytes < 64 * b + 64 then
    .next (((s.testDone 2).put Reg.INT_TEST_CTRL_RESULT 2).raise 0x0E0A [noChannel, (1, 0xFF), (8, 64 * b)])
  else
    let r := if (s.erasedDevice (s.memSlice b)).isSome then 4 else (s.outcomeOf b).code
    .next (((s.setSymbols (s.storedWord b)).testDone 2).put Reg.INT_TEST_CTRL_RESULT r)

/-- R424: operation 3: the check symbols of bytes 0 to 63. -/
def execTestEncode (s : State) : Out :=
  if ¬ s.domainOn 12 then .next (s.domainOffAccess 0x01100300) else
  if ¬ s.testAllowed false then .next (s.refuseTest 3)
  else .next ((s.setSymbols (codeWord (s.testSymbols.take 64))).testDone 3)

/-- R424: operation 4: RAW into byte OFF of the test block. -/
def execTestRawSramWrite (s : State) : Out :=
  if ¬ s.domainOn 12 then .next (s.domainOffAccess 0x01100300) else
  if ¬ s.testAllowed false then .next (s.refuseTest 4)
  else
    let o := s.get Reg.INT_TEST_SRAM_OFF
    let sram := cellSet sramDefault s.mem.sram o (BitVec.ofNat 13 (s.get Reg.INT_TEST_SRAM_RAW))
    let raised := s.mem.sramRaised.filter fun p => decide (p.2 ≠ 2 ^ 32 + o)
    .next (({ s with mem := { s.mem with sram := sram, sramRaised := raised } }).testDone 4)

/-- R424: operation 5: the 13 stored bits of byte OFF into RAW, and how they decode. -/
def execTestRawSramRead (s : State) : Out :=
  if ¬ s.domainOn 12 then .next (s.domainOffAccess 0x01100300) else
  if ¬ s.testAllowed false then .next (s.refuseTest 5)
  else
    let o := s.get Reg.INT_TEST_SRAM_OFF
    let v := (cellGet sramDefault s.mem.sram o).toNat
    let d := (sramDecode v).1
    .next (((s.sramRead testUnit (2 ^ 32 + o) d).testDone 5).puts
      [(Reg.INT_TEST_SRAM_RAW, v), (Reg.INT_TEST_CTRL_RESULT, d)])

/-! ### Check-value units (R425 to R427, R454) -/

/-- R425: a unit's initial raw value. -/
def scanInitial (u : Nat) : Nat := [0xFFFFFFFF, 0xFFFFFFFF, 0, 0xFFFF].getD u 0

/-- R425: the width of a unit's raw value. -/
def scanWidth (u : Nat) : Nat := [32, 32, 64, 16].getD u 64

/-- R425: bytes into a unit's raw value. -/
def scanRaw (u raw : Nat) (l : List Byte) : Nat :=
  match u with
  | 0 => (crcReflected 0xEDB88320#32 (BitVec.ofNat 32 raw) l).toNat
  | 1 => (crcReflected 0x82F63B78#32 (BitVec.ofNat 32 raw) l).toNat
  | 2 => (crcMsb 0x42F0E1EBA9EA3693#64 (BitVec.ofNat 64 raw) (l.flatMap fun b => bitsMsb 8 b.toNat)).toNat
  | _ => (crcMsb 0x1021#16 (BitVec.ofNat 16 raw) (l.flatMap fun b => bitsMsb 8 b.toNat)).toNat

/-- R425: a unit's result from its raw value. -/
def scanResult (u raw : Nat) : Nat := if u < 2 then raw ^^^ 0xFFFFFFFF else raw

/-- R426, R454: a CHECK_SCAN descriptor: the job joins its unit's queue. -/
def execCheckScan (d : Desc) (s : State) : Out :=
  let fl := d.field 33 1
  let len := d.field 24 8
  if d.field 0 1 ≠ 0x38 then .next s
  else .next (s.withDesc d (bitAt fl 0) false
    ([(24, decide (1 ≤ len ∧ len ≤ 2 ^ 40)), (32, decide (d.field 32 1 < 4)), (33, decide (fl < 8))] ++ descReserved d 34 30)
    fun s j =>
      let job : ScanJob := ⟨j.aseq, d.field 32 1, bitAt fl 0, d.field 16 8, len, bitAt fl 1, bitAt fl 2⟩
      { s with mem := { s.mem with scans := s.mem.scans ++ [job] } })

/-- R426: the raw value that a job starts from. -/
def State.scanStart (s : State) (j : ScanJob) : Nat :=
  if j.load then s.get (Reg.INT_CHK_VAL_RAW j.unit) % 2 ^ scanWidth j.unit else scanInitial j.unit

/-- R426: a scan job ends after n bytes, with its status and, for POISON, the burst's address. -/
def State.endScan (s : State) (j : ScanJob) (status cause n burst : Nat) : State :=
  let raw := scanRaw j.unit (s.scanStart j) (s.readSpace j.dram j.start n)
  let s := if j.save then s.put (Reg.INT_CHK_VAL_RAW j.unit) raw else s
  let s := { s with mem := { s.mem with scans := s.mem.scans.filter fun x => decide (x.aseq ≠ j.aseq) } }
  let s := s.raise 0x0F0B (noAddress ++ [(1, j.unit), (4, status)])
  s.complete j.aseq status cause (leBytes 8 (scanResult j.unit raw) ++ leBytes 8 raw ++ leBytes 8 n ++ leBytes 8 burst)

/-- R426: the job in front of its unit ends: RANGE beyond MEM_SIZE, POISON at the first flagged burst, otherwise OK. Bytes of
host memory that came poisoned (R434) are named by the offset of the first of them. -/
def execCheckScanEnd (e : ScanEnd) (s : State) : Out :=
  match s.mem.scans.find? fun j => decide (j.aseq = e.aseq.toNat) with
  | none => .next s
  | some j =>
    if (s.mem.scans.find? fun x => decide (x.unit = j.unit)) ≠ some j then .next s
    else if j.dram ∧ ¬ s.dramRangeOk j.start j.len then
      .next ((s.raise 0x0E0A [noChannel, (1, 6), (8, j.start)]).endScan j 9 0x0E0A 0 0)
    else if j.dram then
      match s.poisonIn j.start j.len with
      | some b => .next ((s.consumePoison b (consumer 9)).endScan j 5 0x0F03 (64 * b - j.start) (64 * b))
      | none => .next (s.endScan j 0 0 j.len 0)
    else match e.poison.filter fun n => decide (n.toNat < j.len) with
      | some n =>
        let burst := (j.start + n.toNat) / 64 * 64
        .next ((s.consumeFlagged 9).endScan j 5 0x0F03 (burst - j.start) burst)
      | none => .next (s.endScan j 0 0 j.len 0)

/-- R427: a write of INT_CHK_VAL: while its unit has no job; bits beyond the unit's width read 0. -/
def execIntChkValWrite (off : BitVec 25) (wide : Bool) (v : BitVec 64) (s : State) : Out :=
  let o := off.toNat
  if ¬ (0x01100400 ≤ o ∧ o < 0x01100420) ∨ ¬ alignedAccess o wide then .next s
  else
    let u := (o - 0x01100400) / 8
    if ¬ s.domainOn 12 then .next (s.domainOffAccess o)
    else if s.mem.scans.any fun j => decide (j.unit = u) then .next (s.raise 0x0F0D (noAddress ++ [(1, u)]))
    else
      let t := s.writeAny o wide v
      .next (t.put (Reg.INT_CHK_VAL_RAW u) (t.get (Reg.INT_CHK_VAL_RAW u) % 2 ^ scanWidth u))

/-- R426, R457: HST_ABORT ends every scan job; the values of a running one stand at the last whole burst processed, which is a
free value (log entry 2); a queued one has processed nothing. -/
def State.abortScans (s : State) : State :=
  s.mem.scans.foldl (fun (s : State) j =>
    if (s.mem.scans.find? fun x => decide (x.unit = j.unit)) = some j then
      let (x, s) := s.draw
      let n := x.toNat % j.len
      let last := (j.start + n) / 64 * 64
      s.endScan j 4 0x1008 (last - j.start) 0
    else s.endScan j 4 0x1008 0 0) s

end Sys2Proof.Machine
end

