-- ==== Sys2Proof/Machine/Clocks.lean ====
section
/-! DEFINITION. The passing of 2.5 ns, one tide clock (R258, R465): what a step does where no command waits. -/
namespace Sys2Proof.Machine

/-- R258, R465: tide time and the PTP clock count while the TIDE domain is up; the PTP clock stands in HOSTIO. -/
def State.countClocks (s : State) : State :=
  let ptp := s.domainOn 14 && s.domainOn 15
  { s with
    aon := s.aon + 1,
    tide := if s.domainOn 15 then (s.tide + 1) % 2 ^ 64 else s.tide,
    clock := if ptp then clockOf (s.clock.units + s.inc) else s.clock }

/-- R325: since when the conditions of NEAP have held. -/
def State.watchQuiet (s : State) : State :=
  let since := if s.neapQuiet then some (s.seq.idleSince.getD s.tide) else none
  { s with seq := { s.seq with idleSince := since } }

/-- R499: the quads with a job queued or running. -/
def State.watchQuads (s : State) : State :=
  let now := s.aon
  let busy := s.box.jobs.map fun (j : TileJob) => j.vat / 4
  let at' := (List.range 4).map fun q => if natMem q busy then now else s.pwr.busyAt.getD q 0
  { s with pwr := { s.pwr with busyAt := at' } }

/-- R522: 0x1402 for a destination (0 port, 1 ring) that has dropped packets, at most once per second. -/
def State.reportLost (s : State) (dest : Nat) : State :=
  let d := if dest = 0 then s.obs.port else s.obs.ring
  let again : Bool := match s.obs.lostRaisedAt.getD dest none with
    | some t => decide (t + 400000000 ≤ s.aon)
    | none => true
  if d.dropped = 0 ∨ again = false then s
  else
    let clear : TraceDest := { d with dropped := 0 }
    let at' := listSet s.obs.lostRaisedAt dest (some s.aon)
    let s := if dest = 0 then { s with obs := { s.obs with port := clear, lostRaisedAt := at' } }
      else { s with obs := { s.obs with ring := clear, lostRaisedAt := at' } }
    s.raise 0x1402 [(4, dest), (4, d.dropped)]

/-- R10: the counters that are counted below the events: trace packets to the port and to the ring, packets dropped, and
telemetry records dropped. -/
def quietCounters : List Nat := [cntObs 0, cntObs 1, cntObs 2, cntObs 3, cntTim 7]

/-- R10, R527: one of these counters has saturated since it was cleared: 0x1401, once (log entry 17). -/
def State.reportSat (s : State) (off : Nat) : State :=
  let sat := s.on ⟨off + 4, 31, 1⟩
  let rest := s.obs.satSeen.filter fun o => decide (o ≠ off)
  if sat = natMem off s.obs.satSeen then s
  else if sat then
    (({ s with obs := { s.obs with satSeen := off :: rest } }).count (cntObs 5)).raise 0x1401 [(4, off)]
  else { s with obs := { s.obs with satSeen := rest } }

/-- R31, R190: where the generator emits no lines, the chains work a switch-over's backlog off at the lane's rate. -/
def State.drainBacklog (s : State) : State :=
  let q := s.get Reg.TID_TICK_STATE
  if q = 1 ∨ q = 3 then s else { s with couch := { s.couch with backlog := s.couch.backlog - 25 } }

/-- R371: outside RUN a slave sends STATUS each 10 µs, with the span of its own resume while its strip is interrupted. -/
def State.statusDue (s : State) : State :=
  if s.isSlave ∧ s.tide % 4000 = 0 ∧ s.get Reg.TID_TICK_STATE ≠ 3 then
    let span := match s.openStrip with
      | some st => if s.get Reg.EXP_STATE_STATE < 3 then
          let p := s.resumeSpan st (s.doneAfter st)
          [p.1, p.2.1] else []
      | none => []
    s.sendStatus s.reportBits span
  else s

/-- One tide clock of 2.5 ns passes. -/
def State.clockTick (s : State) : State :=
  quietCounters.foldl State.reportSat
    ((((((((s.countClocks).watchQuiet).watchQuads).drainBacklog).statusDue).reportCorrected).reportLost 0).reportLost 1)

end Sys2Proof.Machine
end

