-- ==== Sys2Proof/Machine/AuxAxes.lean ====
section
/-! DEFINITION. Auxiliary axes (chapter 15): steps, the planner, the encoder, limit switches, homing, jobs and the held
rings (R345 to R362, R451). -/
namespace Sys2Proof.Machine

/-! ### Axes and jobs -/

/-- An axis beside its registers. -/
def State.axis (s : State) (n : Nat) : AuxAxis := s.aux.axes.getD n {}

/-- The machine with an axis changed. -/
def State.modAxis (s : State) (n : Nat) (f : AuxAxis → AuxAxis) : State :=
  { s with aux := { s.aux with axes := listModify s.aux.axes n f } }

/-- An auxiliary job. -/
def State.auxJob (s : State) (aseq : Nat) : Option AuxJob := s.aux.jobs.find? fun j => decide (j.aseq = aseq)

/-- The machine with an auxiliary job changed. -/
def State.modAuxJob (s : State) (aseq : Nat) (f : AuxJob → AuxJob) : State :=
  { s with aux := { s.aux with jobs := s.aux.jobs.map fun j => if j.aseq = aseq then f j else j } }

/-- A phase of a job, changed. -/
def State.modPhase (s : State) (aseq i : Nat) (f : AuxPhase → AuxPhase) : State :=
  s.modAuxJob aseq fun j => { j with phases := listModify j.phases i f }

/-- `AUX_STATUS.STATE`. -/
def State.axisState (s : State) (n : Nat) : Nat := s.get (Reg.AUX_STATUS_STATE n)

/-- MOVE, TABLE or HOME. -/
def State.axisBusy (s : State) (n : Nat) : Bool := natMem (s.axisState n) [2, 3, 4]

/-- S, the step count of R347. -/
def State.axisCount (s : State) (n : Nat) : Int := s.getS (Reg.AUX_POS_COUNT n)

/-- The ring of a job, 0xFF where it is gone. -/
def State.auxRing (s : State) (aseq : Nat) : Nat := ((s.auxJob aseq).map (·.ring)).getD 0xFF

/-- R361: the common payload: axis, job and ring; all ones for what does not apply. -/
def State.auxFields (s : State) (n : Nat) (job : Option Nat) : List (Nat × Nat) :=
  [(1, n), (4, job.getD 0xFFFFFFFF), (1, match job with
    | some a => s.auxRing a
    | none => 0xFF)]

/-- The job that runs on an axis. -/
def State.axisJob (s : State) (n : Nat) : Option Nat := (s.axis n).job.map (·.1)

/-- R352: Ê, the encoder count in microsteps. -/
def State.encoder (s : State) (n : Nat) : Int :=
  roundHalfUp (s.getS (Reg.AUX_ENC_COUNT n) * 65536) (s.get (Reg.AUX_ENC_RATIO_RATIO n))

/-- R352: the deviation Ê − S − Δ. -/
def State.deviation (s : State) (n : Nat) : Int := s.encoder n - s.axisCount n - (s.axis n).delta

/-- A deviation as an event carries it, and S. -/
def State.devFields (s : State) (n : Nat) : List (Nat × Nat) :=
  [(2, wrapInt 16 (clampInt (s.deviation n) (-32768) 32767)), (4, wrapInt 32 (s.axisCount n))]

/-! ### The end of a job (R357, R358) -/

/-- R350: an axis in MOVE, TABLE or HOME enters STOP. -/
def State.axisStop (s : State) (n : Nat) : State :=
  if s.axisBusy n then
    (s.put (Reg.AUX_STATUS_STATE n) 5).modAxis n fun x => { x with table := [], devRun := 0 }
  else s

/-- The axes that run a job. -/
def State.axesOf (s : State) (aseq : Nat) : List Nat :=
  (List.range 3).filter fun n => decide (s.axisJob n = some aseq)

/-- R357: every axis of a job stops, and runs it no more. -/
def State.stopAxes (s : State) (aseq : Nat) : State :=
  (s.axesOf aseq).foldl (fun (s : State) n => (s.axisStop n).modAxis n fun x => { x with job := none }) s

/-- R357, R358: a phase of a job fails: the other axes stop, no further phase runs, and the job holds its ring with its
status and cause until RETRY or SKIP. -/
def State.auxFails (s : State) (aseq i status cause axis : Nat) : State :=
  match s.auxJob aseq with
  | none => s
  | some j =>
    let held := s.get Reg.AUX_HOLD_STATUS_HELD
    let s := (s.stopAxes aseq).modAuxJob aseq fun x =>
      { x with held := some (status, cause), retry := false,
               phases := (listModify x.phases i fun p => { p with st := 0 }).map fun p =>
                 if p.st = 1 then { p with st := 0 } else p }
    let s := s.put Reg.AUX_HOLD_STATUS_HELD (setBit held j.ring true)
    s.raise 0x0C0C (s.auxFields axis (some aseq) ++ [(4, i)])

/-- R357: a phase is refused: a job of one phase ends REFUSED, a RECOAT FAULT. -/
def State.auxRefuse (s : State) (aseq i axis code : Nat) (payload : List (Nat × Nat)) : State :=
  let status := match (s.auxJob aseq).bind (·.source) with
    | some _ => 10
    | none => 2
  (s.raise code (s.auxFields axis (some aseq) ++ payload)).auxFails aseq i status code axis

/-- R353, R354: an axis faults: no step from now on, the cause shown, REF cleared, its job a FAULT. -/
def State.axisFault (s : State) (n cause code : Nat) (payload : List (Nat × Nat)) : State :=
  let run := (s.axis n).job
  let fields := s.auxFields n (run.map (·.1))
  let x := s.axisCount n * 65536
  let s := s.puts [(Reg.AUX_STATUS_STATE n, 6), (Reg.AUX_STATUS_FAULT_CAUSE n, cause), (Reg.AUX_POS_REF n, 0)]
  let s := s.modAxis n fun a =>
    { a with x := x, v := 0, a := 0, table := [], job := none, devRun := 0, idleAt := none }
  let s := (s.count (cntAux n 2)).raise code (fields ++ payload)
  match run with
  | some (aseq, i) => s.auxFails aseq i 10 code n
  | none => s

/-- R353: STALL or LOST_STEPS, with dev and the step count. -/
def State.stepsLost (s : State) (n : Nat) (stall : Bool) : State :=
  if stall then s.axisFault n 1 0x0C04 (s.devFields n) else s.axisFault n 2 0x0C05 (s.devFields n)

/-- R361, R451: a job leaves the unit and completes; DETAIL holds the phases completed. -/
def State.auxComplete (s : State) (j : AuxJob) (status cause : Nat) : State :=
  let done := (j.phases.filter fun p => decide (p.st = 2)).length
  let s := { s with aux := { s.aux with jobs := s.aux.jobs.filter fun x => decide (x.aseq ≠ j.aseq) } }
  s.complete j.aseq status cause (leBytes 1 done)

/-- R357: a job whose phases have all completed ends OK, with the layer of a RECOAT. -/
def State.auxAdvance (s : State) (aseq : Nat) : State :=
  match s.auxJob aseq with
  | none => s
  | some j =>
    if j.phases.all fun p => decide (p.st = 2) then
      let axis := match j.source, j.phases with
        | none, p :: _ => p.axis
        | _, _ => 0xFF
      let s := s.raise 0x0C01 (s.auxFields axis (some aseq) ++ [(4, j.phases.length)])
      let s := if j.source.isSome then s.raise 0x0C0A (s.auxFields axis (some aseq) ++ [(4, j.layer)]) else s
      s.auxComplete j 0 0
    else s

/-- R357: a phase completes. -/
def State.phaseDone (s : State) (n aseq i : Nat) : State :=
  ((s.count (cntAux n 1)).modPhase aseq i fun p => { p with st := 2 }).auxAdvance aseq

/-! ### Steps (R346, R347) -/

/-- R354: a switch that stands in a direction of motion is active. -/
def State.blockedToward (s : State) (n : Nat) (up : Bool) : Bool :=
  s.on (if up then Reg.AUX_STATUS_LIM_HI n else Reg.AUX_STATUS_LIM_LO n)

/-- R346, R347: the step generator compares floor(x) with S: it changes DIR, or emits one step, once R346 permits. -/
def execStepGenerate (n : Fin 3) (s : State) : Out :=
  let l := s.axis n
  let count := s.axisCount n
  let want := idiv l.x 65536
  let q := s.axisState n
  let high := s.get (Reg.AUX_CFG_STEP_HI n)
  let since := match l.stepAt with
    | some t => s.tide - t
    | none => 2 ^ 64
  if q = 0 ∨ q = 6 ∨ want = count ∨ s.pwr.protective then .next s
  else
    let up := decide (count < want)
    if q ≠ 4 ∧ s.blockedToward n up then .next s
    else if up ≠ l.dir then
      .next (if high ≤ since then s.modAxis n fun x => { x with dir := up, dirAt := s.tide } else s)
    else if high + s.get (Reg.AUX_CFG_STEP_LO n) ≤ since ∧ l.dirAt + s.get (Reg.AUX_CFG_DIR_SETUP n) ≤ s.tide then
      let s := (s.put (Reg.AUX_POS_COUNT n) (wrapInt 48 (count + (if up then 1 else -1)))).count (cntAux n 0)
      let s := s.modAxis n fun x => { x with
        stepAt := some s.tide, devSteps := x.devSteps + 1, homeSteps := if q = 4 then x.homeSteps + 1 else 0 }
      .next (if q = 4 ∧ 2 ^ 31 < (s.axis n).homeSteps ∧ (s.axis n).homeStage < 4 then s.stepsLost n false else s)
    else .next s

/-! ### Tables (R348, R349): positions in 2^-16 microstep times 15,625, so that 2^-8 microstep per s is 4 per µs -/

/-- R348: a segment entry in the scale of the check: duration, end velocity, end position. -/
def axisEntry (t : List Byte) (i : Nat) : Nat × Int × Int :=
  (fieldAt t (16 * i) 4, 4 * sext 32 (fieldAt t (16 * i + 4) 4), 15625 * sext 64 (fieldAt t (16 * i + 8) 8))

/-- R348, R349: a table's first failing entry and check: 1 velocity, 2 acceleration, 3 jerk, 4 joint, 5 position, 6 last VEL,
7 a duration outside 4,000 to 4 × 10^9. The joint check grants JMAX times 4,000 tide clocks. -/
def axisTableFault (vmax amax jmax : Nat) (pmin pmax : Int) : Nat → Int → Int → Option Segment →
    List (Nat × Int × Int) → Option (Nat × Nat)
  | _, _, _, _, [] => none
  | i, p0, v0, prev, (dur, v1, p1) :: rest =>
    if dur < 4000 ∨ 4000000000 < dur then some (i, 7)
    else
      let g := segmentFrom p0 v0 dur v1 p1
      let k := 15625
      if ¬ g.velocityOk v1 (k * vmax) then some (i, 1)
      else if ¬ g.accelOk (k * amax) then some (i, 2)
      else if ¬ g.jerkOk (k * jmax) then some (i, 3)
      else if prev.any fun a => !jointOk a g (10 * k * jmax) then some (i, 4)
      else if ¬ (g.bounded (400 * 65536 * k * pmax) true && g.bounded (400 * 65536 * k * pmin) false) then some (i, 5)
      else if rest.isEmpty ∧ v1 ≠ 0 then some (i, 6)
      else axisTableFault vmax amax jmax pmin pmax (i + 1) p1 v1 (some g) rest

/-- R348: a planner step of a table: x, v and a from its cubic; at its end, the end position at rest. -/
def State.axisTableStep (s : State) (n : Nat) : State :=
  let l := s.axis n
  match tableAdvance s.tide l.table l.segPos l.segVel l.segStart with
  | ([], p, _, _) => s.modAxis n fun x => { x with x := idiv p 15625, v := 0, a := 0, table := [], segPos := p }
  | (e :: r, p, v, t) =>
    let y := (segmentFrom p v e.1 e.2.1 e.2.2).at (s.tide - t)
    s.modAxis n fun x =>
      { x with x := idiv y.1 15625, v := idiv y.2.1 4, a := idiv (y.2.2 * 15625) 16,
               table := e :: r, segPos := p, segVel := v, segStart := t }

/-! ### The planner (R350 to R356) -/

/-- R355: the greatest speed of a motion in microsteps per s times 8, and the direction it must have (0 for any). -/
def State.axisSpeed (s : State) (n : Nat) : Nat × Int :=
  let l := s.axis n
  let toward : Int := if s.on (Reg.AUX_HOME_DIR n) then 1 else -1
  if s.axisState n ≠ 4 then (8 * s.get (Reg.AUX_VMAX_LIMIT n), 0)
  else if l.homeStage = 0 then (8 * s.get (Reg.AUX_HOME_V_V n), toward)
  else if l.homeStage = 2 ∨ l.homeStage = 3 then (s.get (Reg.AUX_HOME_V_V n), -toward)
  else (8 * s.get (Reg.AUX_HOME_V_V n), 0)

/-- R350: the limits in force of an axis. -/
def State.axisLimits (s : State) (n : Nat) : Limits :=
  { limitsOf 0 0 (s.on (Reg.AUX_CFG_BLEND n)) with
    a := s.get (Reg.AUX_AMAX_LIMIT n) * 2 ^ 96, j := s.get (Reg.AUX_JMAX_LIMIT n) * 2 ^ 96 }

/-- R286, R350: the stop distance from a velocity and an acceleration (2^-8 microsteps/s, /s²), in 2^-16 microstep. -/
def Limits.axisStop (l : Limits) (vel acc : Int) : Int :=
  let d := motionSign vel acc
  idiv (l.slowdown (d * vel * 2 ^ 88) (d * acc * 2 ^ 88)).1 (2 ^ 80)

/-- R350, R351: a planner step of 10 µs may lead from the present commanded motion to a new one: under JMAX, AMAX and the speed
of the motion, with the stop from it within the soft limits (R278). Above that speed, which a lowered VMAX alone can cause, it
slows. -/
def State.axisStepAllowed (s : State) (n : Nat) (pos vel acc : Int) : Bool :=
  let l := s.axis n
  let j : Int := s.get (Reg.AUX_JMAX_LIMIT n)
  let a : Int := s.get (Reg.AUX_AMAX_LIMIT n)
  let amag : Int := max acc.natAbs l.a.natAbs
  let vmag : Int := max vel.natAbs l.v.natAbs
  let top := s.axisSpeed n
  let d := motionSign vel acc
  let slowing := decide (d * acc < d * l.a ∨ d * acc < 0)
  let stopping := decide (s.axisState n = 5)
  let reach := pos + d * (s.axisLimits n).axisStop vel acc
  let pmin := s.getS (Reg.AUX_PMIN_POS n)
  let pmax := s.getS (Reg.AUX_PMAX_POS n)
  decide ((((acc - l.a).natAbs : Int) - 1) * 10 ^ 5 ≤ j * 256 ∧ (acc.natAbs : Int) ≤ max (a * 256) l.a.natAbs ∧
    (((vel - l.v).natAbs : Int) - 1) * 10 ^ 5 ≤ amag ∧
    (((pos - l.x).natAbs : Int) - 1) * 10 ^ 10 ≤ vmag * 256 * 10 ^ 5 + amag * 256) &&
  (slowing || stopping || decide ((vel.natAbs : Int) * 8 ≤ top.1 * 256 ∧ 0 ≤ vel * top.2)) &&
  (!s.on (Reg.AUX_POS_REF n) ||
    decide (pmin * 65536 ≤ pos ∧ pos ≤ pmax * 65536 ∧
      (stopping ∨ ((pmin - 1) * 65536 ≤ reach ∧ reach ≤ (pmax + 1) * 65536))))

/-- R356: deferred limit changes apply once the commanded acceleration is 0, and after a table. -/
def State.axisApplyDeferred (s : State) (n : Nat) : State :=
  let l := s.axis n
  if l.deferred.isEmpty ∨ l.a ≠ 0 ∨ s.axisState n = 3 then s
  else
    l.deferred.foldl (fun (s : State) d => (s.put ⟨d.1, 0, 32⟩ d.2).raise 0x0C09 (s.auxFields n (s.axisJob n) ++ [(4, d.1)]))
      ((s.modAxis n fun x => { x with deferred := [] }).put (Reg.AUX_STATUS_DEFERRED n) 0)

/-- R352, R353: the encoder against the steps, at a planner step. -/
def State.watchDeviation (s : State) (n : Nat) : State :=
  if ¬ s.on (Reg.AUX_CFG_ENC_EN n) then s
  else
    let dev := s.deviation n
    let s := s.put (Reg.AUX_ENC_DEV n) (wrapInt 16 (clampInt dev (-32768) 32767))
    if ¬ s.axisBusy n ∨ dev.natAbs ≤ s.get (Reg.AUX_DEV_WIN n) then s.modAxis n fun x => { x with devRun := 0 }
    else
      let l := s.axis n
      let e := s.encoder n
      let s := s.modAxis n fun x =>
        if l.devRun = 0 then { x with devRun := 1, devFrom := e, devSteps := 0 } else { x with devRun := x.devRun + 1 }
      if s.get (Reg.AUX_DEV_TIME n) ≤ 10 * l.devRun then
        s.stepsLost n (decide (e = l.devFrom ∧ 4 ≤ l.devSteps))
      else s

/-- R355: the stop at the switch is over, and the axis moves away. -/
def State.homeTurn (s : State) (n : Nat) : State :=
  let l := s.axis n
  if s.axisState n = 4 ∧ l.homeStage = 1 ∧ l.v = 0 ∧ l.a = 0 then s.modAxis n fun x => { x with homeStage := 2 } else s

/-- R350: a planner step of an axis. In MOVE, HOME and STOP the commanded motion is the planner's, as the operands give it;
in TABLE it follows the table; elsewhere x is constant. -/
def execAuxPlannerStep (n : Fin 3) (pos vel acc : BitVec 64) (s : State) : Out :=
  let q := s.axisState n
  let s :=
    if q = 3 then s.axisTableStep n
    else if natMem q [2, 4, 5] then
      if s.axisStepAllowed n pos.toInt vel.toInt acc.toInt then
        s.modAxis n fun x => { x with x := pos.toInt, v := vel.toInt, a := acc.toInt }
      else s
    else s
  let s := ((s.homeTurn n).axisApplyDeferred n).watchDeviation n
  .next (if s.axisState n = 0 then s
    else s.trace 13 (leBytes 1 n ++ leBytes 1 (s.axisState n) ++ leBytes 6 (s.get (Reg.AUX_POS_COUNT n))))

/-! ### Encoder, index and switches (R352 to R355) -/

/-- R352: levels are accepted on an encoder; an illegal transition counts as lost steps. -/
def execEncEdge (n : Fin 3) (a b : Bool) (s : State) : Out :=
  let l := s.axis n
  let s := s.modAxis n fun x => { x with encA := a, encB := b }
  if ¬ s.on (Reg.AUX_CFG_ENC_EN n) then .next s
  else match quadStep l.encA l.encB a b with
    | some d =>
      let d := if s.on (Reg.AUX_CFG_ENC_INV n) then -d else d
      .next (s.put (Reg.AUX_ENC_COUNT n) (wrapInt 32 (s.get (Reg.AUX_ENC_COUNT n) + d)))
    | none => .next (if s.axisBusy n then s.stepsLost n false else s)

/-- R355: the reference is taken: S, Δ and REF; then the planner stops. -/
def State.takeReference (s : State) (n : Nat) : State :=
  let old := s.axisCount n
  let new := s.getS (Reg.AUX_HOME_POS n)
  let delta := s.encoder n - new
  let s := s.puts [(Reg.AUX_POS_COUNT n, wrapInt 48 new), (Reg.AUX_POS_REF n, 1)]
  let s := s.modAxis n fun x => { x with x := x.x + (new - old) * 65536, delta := delta, homeStage := 4 }
  s.raise 0x0C07 (s.auxFields n (s.axisJob n) ++ [(4, wrapInt 32 delta)])

/-- R355: ENC_Z is high: after the release it is the reference, where USE_INDEX asks for it. -/
def execEncIndex (n : Fin 3) (s : State) : Out :=
  .next (if s.axisState n = 4 ∧ (s.axis n).homeStage = 3 then s.takeReference n else s)

/-- R354: an axis outside HOME moves toward a switch. -/
def State.movesToward (s : State) (n : Nat) (hi : Bool) : Bool :=
  natMem (s.axisState n) [2, 3, 5] && decide (if hi then 0 < (s.axis n).v else (s.axis n).v < 0)

/-- R354, R355: a limit switch is accepted at a level. -/
def execLimitSwitch (n : Fin 3) (hi level : Bool) (s : State) : Out :=
  let pol := s.on (if hi then Reg.AUX_CFG_HI_POL n else Reg.AUX_CFG_LO_POL n)
  let active := decide (level = pol)
  let was := s.blockedToward n hi
  let s := s.put (if hi then Reg.AUX_STATUS_LIM_HI n else Reg.AUX_STATUS_LIM_LO n) (flag active)
  let l := s.axis n
  if active = was then .next s
  else if s.axisState n = 4 then
    if hi = s.on (Reg.AUX_HOME_DIR n) then
      if active then .next (if l.homeStage = 0 then s.modAxis n fun x => { x with homeStage := 1 } else s)
      else if l.homeStage = 2 then
        .next (if s.on (Reg.AUX_HOME_USE_INDEX n) then s.modAxis n fun x => { x with homeStage := 3 } else s.takeReference n)
      else .next s
    else .next (if active ∧ l.homeStage < 4 then s.axisFault n 3 0x0C06 [(4, flag hi)] else s)
  else .next (if active ∧ s.movesToward n hi then s.axisFault n 3 0x0C06 [(4, flag hi)] else s)

/-- R353: SETTLE_MS after a motion's end, the deviation is checked against END_WIN. The job is the one that ended on the
axis, while it is in flight. -/
def execAuxSettleCheck (n : Fin 3) (s : State) : Out :=
  match (s.axis n).idleAt with
  | none => .next s
  | some t =>
    if s.axisState n ≠ 1 ∨ s.tide < t + 400000 * s.get (Reg.AUX_SETTLE_SETTLE_MS n) then .next s
    else
      let bad := s.on (Reg.AUX_CFG_ENC_EN n) && decide (s.get (Reg.AUX_SETTLE_END_WIN n) < (s.deviation n).natAbs)
      .next (if bad then s.stepsLost n false else s.modAxis n fun x => { x with idleAt := none, job := none })

/-! ### Phases (R357, R359) -/

/-- The phases that run next in a job: the first one waiting, and those that WITH_PREV joins to it. -/
def nextGroup (l : List AuxPhase) : List (Nat × AuxPhase) :=
  if l.any fun p => decide (p.st = 1) then []
  else
    let w := ((List.range l.length).zip l).filter fun p => decide (p.2.st = 0)
    match w with
    | [] => []
    | p :: r => p :: r.takeWhile fun q => q.2.withPrev

/-- R351, R354: where a phase goes: the sign of its first motion. -/
def State.phaseSign (s : State) (p : AuxPhase) (entries : List (Nat × Int × Int)) : Int :=
  match p.kind with
  | 1 => p.value - s.axisCount p.axis
  | 2 => p.value
  | 4 => if s.on (Reg.AUX_HOME_DIR p.axis) then 1 else -1
  | _ => match entries with
    | [] => 0
    | e :: _ =>
      let g := segmentFrom ((s.axis p.axis).x * 15625) 0 e.1 e.2.1 e.2.2
      if g.n2 ≠ 0 then g.n2 else g.n3

/-- R346, R349, R351, R354, R355: why a phase that is about to start is refused: its event and payload. -/
def State.phaseFault (s : State) (p : AuxPhase) (entries : List (Nat × Int × Int)) : Option (Nat × List (Nat × Nat)) :=
  let n := p.axis
  let ref := s.on (Reg.AUX_POS_REF n)
  let pmin := s.getS (Reg.AUX_PMIN_POS n)
  let pmax := s.getS (Reg.AUX_PMAX_POS n)
  let vmax := s.get (Reg.AUX_VMAX_LIMIT n)
  let per := s.get (Reg.AUX_CFG_STEP_HI n) + s.get (Reg.AUX_CFG_STEP_LO n)
  let target := if p.kind = 1 then p.value else s.axisCount n + p.value
  if p.kind = 5 then none
  else if 400000000 < vmax * per then some (0x0C0B, [(4, vmax), (4, 400000000 / per)])
  else if p.kind = 4 ∧ vmax < s.get (Reg.AUX_HOME_V_V n) then
    some (0x0C0B, [(4, s.get (Reg.AUX_HOME_V_V n)), (4, 400000000 / per)])
  else if (p.kind = 1 ∨ p.kind = 3) ∧ ¬ ref then some (0x0C03, [(4, wrapInt 32 p.value)])
  else if p.kind < 3 ∧ ref ∧ ¬ (pmin ≤ target ∧ target ≤ pmax) then some (0x0C03, [(4, wrapInt 32 target)])
  else
    let bad := if p.kind = 3 then
        axisTableFault vmax (s.get (Reg.AUX_AMAX_LIMIT n)) (s.get (Reg.AUX_JMAX_LIMIT n)) pmin pmax 0
          ((s.axis n).x * 15625) 0 none entries
      else none
    match bad with
    | some (i, check) => some (0x0C02, [(4, i), (4, Config.eventCode 0x0C02 check)])
    | none =>
      let sign := s.phaseSign p entries
      if 0 < sign ∧ s.blockedToward n true then some (0x0C06, [(4, 1)])
      else if sign < 0 ∧ s.blockedToward n false then some (0x0C06, [(4, 0)])
      else none

/-- A phase starts. -/
def State.phaseGo (s : State) (aseq i : Nat) (p : AuxPhase) (entries : List (Nat × Int × Int)) : State :=
  let n := p.axis
  let count := s.axisCount n
  let s := s.modPhase aseq i fun x => { x with st := 1, ends := s.tide + 400000 * p.count }
  let state := match p.kind with
    | 3 => 3
    | 4 => 4
    | _ => 2
  if p.kind = 5 then s
  else
    let start := s.tide
    (s.put (Reg.AUX_STATUS_STATE n) state).modAxis n fun x =>
      { x with job := some (aseq, i), target := if p.kind = 1 then p.value else count + p.value,
               homeStage := 0, homeSteps := 0, devRun := 0, idleAt := none,
               table := entries, segPos := x.x * 15625, segVel := 0, segStart := start }

/-- R348: the entries of a phase's table, in host memory. -/
def State.phaseTable (s : State) (p : AuxPhase) : List (Nat × Int × Int) :=
  if p.kind = 3 then
    let bytes := s.readSpace false p.value.toNat (16 * p.count)
    (List.range p.count).map (axisEntry bytes)
  else []

/-- R357: the phases of a group start in order; the first that is refused ends the job. -/
def State.startPhases (s : State) (aseq : Nat) : List (Nat × AuxPhase) → State
  | [] => s
  | (i, p) :: r =>
    let entries := s.phaseTable p
    match s.phaseFault p entries with
    | some (code, payload) => s.auxRefuse aseq i p.axis code payload
    | none => (s.phaseGo aseq i p entries).startPhases aseq r

/-- R357: the check of a phase entry: 1 AXIS, 2 KIND, 3 FLAGS or the reserved byte, 4 COUNT, 5 VALUE. -/
def phaseCheck (e : List Byte) : Nat :=
  let kind := fieldAt e 1 1
  let count := fieldAt e 4 4
  let value := sext 64 (fieldAt e 8 8)
  if 2 < fieldAt e 0 1 then 1
  else if kind < 1 ∨ 5 < kind then 2
  else if 1 < fieldAt e 2 1 ∨ fieldAt e 3 1 ≠ 0 then 3
  else if ¬ (if kind = 3 then 1 ≤ count ∧ count ≤ 1024 else kind = 5 ∨ count = 0) then 4
  else if ¬ (if kind < 3 then -(2 ^ 47) ≤ value ∧ value < 2 ^ 47 else kind = 3 ∨ value = 0) then 5
  else 0

/-- A phase as its entry gives it; the address of a table is unsigned. -/
def phaseOf (e : List Byte) : AuxPhase where
  axis := fieldAt e 0 1
  kind := fieldAt e 1 1
  withPrev := bitAt (fieldAt e 2 1) 0
  count := fieldAt e 4 4
  value := if fieldAt e 1 1 = 3 then fieldAt e 8 8 else sext 64 (fieldAt e 8 8)

/-- R357: the first phase of a list that a check refuses; check 6 is a repeated axis within a group, whose axes so far are
given. -/
def listFault : Nat → List Nat → List (List Byte) → Option (Nat × Nat)
  | _, _, [] => none
  | i, seen, e :: r =>
    let p := phaseOf e
    let seen := if p.withPrev then seen else []
    if phaseCheck e ≠ 0 then some (i, phaseCheck e)
    else if natMem p.axis seen then some (i, 6)
    else listFault (i + 1) (p.axis :: seen) r

/-- The entries of a phase list. -/
def State.phaseEntries (s : State) (a n : Nat) (dram : Bool) : List (List Byte) :=
  (List.range n).map fun i => s.readSpace dram (a + 16 * i) 16

/-- R357: a RECOAT's list is read: refused whole, or its phases wait. -/
def State.readPhases (s : State) (aseq a n : Nat) (dram : Bool) : State :=
  let l := s.phaseEntries a n dram
  match listFault 0 [] l with
  | some (i, check) =>
    (s.raise 0x0C02 (s.auxFields 0xFF (some aseq) ++ [(4, i), (4, Config.eventCode 0x0C02 (16 + check))])).auxFails aseq i 2 0x0C02 0xFF
  | none => s.modAuxJob aseq fun j => { j with phases := l.map phaseOf }

/-- R358: RETRY has been written and every axis the job names is IDLE: the hold is released. -/
def State.releaseHold (s : State) (j : AuxJob) : State :=
  let s := (s.modAuxJob j.aseq fun x => { x with held := none, retry := false }).put Reg.AUX_HOLD_STATUS_HELD
    (setBit (s.get Reg.AUX_HOLD_STATUS_HELD) j.ring false)
  match j.phases, j.source with
  | [], some (a, n, dram) => s.readPhases j.aseq a n dram
  | _, _ => s

/-- R357: jobs of one ring run in posting order. -/
def State.auxTurn (s : State) (j : AuxJob) : Bool :=
  (s.aux.jobs.find? fun x => decide (x.ring = j.ring)).map (·.aseq) = some j.aseq

/-- R359: the sequencer is in FLOOD, EXPOSE, EBB, BREAK or RESUME. -/
def State.axesLocked (s : State) : Bool := decide (3 ≤ s.get Reg.EXP_STATE_STATE)

/-- R357, R359: the next phases of a job start, where their turn has come, the locks permit and their axes are IDLE. -/
def State.tryPhases (s : State) (aseq : Nat) : State :=
  match s.auxJob aseq with
  | none => s
  | some j =>
    if j.held.isSome ∨ ¬ s.auxTurn j then s
    else
      let g := nextGroup j.phases
      let locked := g.find? fun p => s.on (Reg.AUX_CFG_EXPOSE_LOCK p.2.axis)
      match locked with
      | some p =>
        if s.axesLocked then
          if j.lockRaised then s
          else (s.modAuxJob aseq fun x => { x with lockRaised := true }).raise 0x0C0D (s.auxFields p.2.axis (some aseq))
        else if g.all fun q => decide (q.2.kind = 5 ∨ s.axisState q.2.axis = 1) then
          (s.modAuxJob aseq fun x => { x with lockRaised := false }).startPhases aseq g
        else s
      | none =>
        if g.all fun q => decide (q.2.kind = 5 ∨ s.axisState q.2.axis = 1) then s.startPhases aseq g else s

/-- R357, R358: the next phases of a job start; a held job whose RETRY was written reruns first. -/
def execAuxPhaseStart (aseq : Word) (s : State) : Out :=
  match s.auxJob aseq.toNat with
  | none => .next s
  | some j =>
    match j.held with
    | none => .next (s.tryPhases j.aseq)
    | some _ =>
      if j.retry ∧ (j.phases.all fun p => decide (s.axisState p.axis = 1)) then
        .next ((s.releaseHold j).tryPhases j.aseq)
      else .next s

/-- R350, R355: the motion of an axis is over: STOP at rest, MOVE at rest at its target, TABLE after its last entry, HOME at
rest with its reference. -/
def State.axisAtEnd (s : State) (n : Nat) : Bool :=
  let l := s.axis n
  decide (l.v = 0 ∧ l.a = 0) && match s.axisState n with
    | 5 => true
    | 2 => decide (l.x = l.target * 65536)
    | 3 => l.table.isEmpty
    | 4 => decide (l.homeStage = 4)
    | _ => false

/-- R357: an axis enters IDLE at the end of its motion, and its job goes on or completes. -/
def execAuxPhaseEnd (n : Fin 3) (s : State) : Out :=
  if ¬ s.axisAtEnd n then .next s
  else
    let stopped := decide (s.axisState n = 5)
    let s := (s.put (Reg.AUX_STATUS_STATE n) 1).axisApplyDeferred n
    let run := (s.axis n).job
    if stopped then .next (s.modAxis n fun x => { x with job := none, idleAt := none })
    else
      let s := s.modAxis n fun x => { x with idleAt := some s.tide }
      match run with
      | some (aseq, i) => .next (s.phaseDone n aseq i)
      | none => .next s

/-- R357: the DWELLs of a job whose time has passed are over. -/
def execAuxDwellEnd (aseq : Word) (s : State) : Out :=
  match s.auxJob aseq.toNat with
  | none => .next s
  | some j =>
    .next ((((List.range j.phases.length).zip j.phases).filter fun p =>
        decide (p.2.kind = 5 ∧ p.2.st = 1 ∧ p.2.ends ≤ s.tide)).foldl
      (fun (s : State) p => s.phaseDone p.2.axis j.aseq p.1) s)

/-! ### Commands and writes (R358, R360) -/

/-- R360: AUX_CTRL.STOP: from MOVE, TABLE or HOME the axis stops; the job ends STOPPED and holds its ring. -/
def execAuxStopCmd (n : Fin 3) (s : State) : Out :=
  if ¬ s.domainOn 15 then .next (s.domainOffAccess (0x00E00054 + 0x1000 * n)) else
  if ¬ s.axisBusy n then .next s
  else match (s.axis n).job with
    | some (aseq, i) => .next (s.auxFails aseq i 11 0x0C0C n)
    | none => .next (s.axisStop n)

/-- R360: AUX_CTRL.CLEAR: from FAULT, Δ := Ê − S, and IDLE. -/
def execAuxClear (n : Fin 3) (s : State) : Out :=
  if ¬ s.domainOn 15 then .next (s.domainOffAccess (0x00E00054 + 0x1000 * n)) else
  if s.axisState n ≠ 6 then .next s
  else
    let delta := s.encoder n - s.axisCount n
    .next ((s.puts [(Reg.AUX_STATUS_STATE n, 1), (Reg.AUX_STATUS_FAULT_CAUSE n, 0)]).modAxis n fun x =>
      { x with delta := delta })

/-- The job that holds a ring. -/
def State.holder (s : State) (r : Nat) : Option AuxJob :=
  s.aux.jobs.find? fun j => j.held.isSome && decide (j.ring = r)

/-- R358: RETRY: the job runs again once every axis it names is IDLE. -/
def execAuxHoldRetry (r : Fin 32) (s : State) : Out :=
  if ¬ s.domainOn 15 then .next (s.domainOffAccess 0x00E0F000) else
  match s.holder r with
  | none => .next s
  | some j =>
    let s := s.modAuxJob j.aseq fun x => { x with retry := true }
    if j.phases.all fun p => decide (s.axisState p.axis = 1) then .next ((s.releaseHold j).tryPhases j.aseq) else .next s

/-- R358: SKIP: the job completes with its failure status, and the ring proceeds. -/
def execAuxHoldSkip (r : Fin 32) (s : State) : Out :=
  if ¬ s.domainOn 15 then .next (s.domainOffAccess 0x00E0F000) else
  match s.holder r with
  | none => .next s
  | some j =>
    let s := s.put Reg.AUX_HOLD_STATUS_HELD (setBit (s.get Reg.AUX_HOLD_STATUS_HELD) r false)
    let f := j.held.getD (0, 0)
    .next (s.auxComplete j f.1 f.2)

/-- The axis of a register of an axis page, at one of some offsets. -/
def axisOf (o : Nat) (offs : List Nat) : Option Nat :=
  if 0x00E00000 ≤ o ∧ o < 0x00E03000 ∧ natMem (o % 0x1000) offs then some ((o - 0x00E00000) / 0x1000) else none

/-- R356: a motion limit is deferred. -/
def State.axisDefer (s : State) (n off v : Nat) : State :=
  let s := (s.put (Reg.AUX_STATUS_DEFERRED n) 1).count (cntAux n 3)
  let s := s.modAxis n fun x => { x with deferred := (x.deferred.filter fun d => decide (d.1 ≠ off)) ++ [(off, v)] }
  s.raise 0x0C08 (s.auxFields n (s.axisJob n) ++ [(4, off)])

/-- R275, R356: a deferred change of a limit gives way to one that applies. -/
def State.axisUndefer (s : State) (n off : Nat) : State :=
  let l := (s.axis n).deferred.filter fun (d : Nat × Nat) => decide (d.1 ≠ off)
  (s.modAxis n fun x => { x with deferred := l }).put (Reg.AUX_STATUS_DEFERRED n) (flag (!l.isEmpty))

/-- R275, R356: a write of VMAX, AMAX or JMAX: deferred in a table, and in a ramp of acceleration where the stop point under the
new AMAX or JMAX lies beyond the present one. Every other change applies. -/
def State.axisLimit (s t : State) (n off : Nat) : State :=
  let f : Field := ⟨off, 0, 32⟩
  let l := s.axis n
  let farther := decide ((s.axisLimits n).axisStop l.v l.a < (t.axisLimits n).axisStop l.v l.a)
  if t.get f = s.get f then t.axisUndefer n off
  else if s.axisState n = 3 then s.axisDefer n off (t.get f)
  else if natMem (s.axisState n) [2, 4, 5] ∧ off % 0x1000 ≠ 4 ∧ l.a ≠ 0 ∧ (farther ∨ t.get f = 0) then s.axisDefer n off (t.get f)
  else t.axisUndefer n off

/-- R360: a write of AUX_CFG, AUX_ENC_RATIO, AUX_HOME, AUX_HOME_V or AUX_FILT: while DISABLED or IDLE. EN takes the axis
between the two; a changed polarity inverts what a switch shows. -/
def State.auxConfig (s : State) (n o : Nat) (wide : Bool) (v : BitVec 64) : State :=
  if 1 < s.axisState n then s.raise 0x0C0E (s.auxFields n (s.axisJob n) ++ [(4, o)])
  else
    let t := s.writeAny o wide v
    let lo := s.on (Reg.AUX_CFG_LO_POL n) != t.on (Reg.AUX_CFG_LO_POL n)
    let hi := s.on (Reg.AUX_CFG_HI_POL n) != t.on (Reg.AUX_CFG_HI_POL n)
    let t := t.puts [(Reg.AUX_STATUS_LIM_LO n, flag (lo != t.on (Reg.AUX_STATUS_LIM_LO n))),
      (Reg.AUX_STATUS_LIM_HI n, flag (hi != t.on (Reg.AUX_STATUS_LIM_HI n)))]
    let x := t.axisCount n * 65536
    let en := t.on (Reg.AUX_CFG_EN n)
    if decide (t.axisState n = 1) = en then t
    else (t.put (Reg.AUX_STATUS_STATE n) (flag en)).modAxis n fun l =>
      { l with x := x, v := 0, a := 0, idleAt := none, job := none }

/-- R360, R433: the upper half of a 64-bit write that begins at a configuration register: AUX_VMAX, AUX_DEV or AUX_FILT. -/
def State.auxUpper (s : State) (n o : Nat) (hi : BitVec 64) : State :=
  if o % 0x1000 = 0x04 then s.axisLimit (s.writeWord o (hi.setWidth 32)) n o
  else if o % 0x1000 = 0x34 then s.writeWord o (hi.setWidth 32)
  else s.auxConfig n o false hi

/-- R360, R433: a write at a configuration register; a 64-bit one of two 32-bit registers acts as two, whose upper one may be
AUX_VMAX, AUX_DEV or AUX_FILT. -/
def execAuxCfgWrite (off : BitVec 25) (wide : Bool) (v : BitVec 64) (s : State) : Out :=
  let o := off.toNat
  match axisOf o [0x00, 0x30, 0x40, 0x44, 0x48, 0x4C] with
  | none => .next s
  | some n =>
    if ¬ alignedAccess o wide then .next s
    else if wide ∧ o % 0x1000 ≠ 0x40 then
      .next ((s.auxConfig n o false v).auxUpper n (o + 4) (v >>> 32))
    else .next (s.auxConfig n o wide v)

/-- R356: a write of AUX_VMAX, AUX_AMAX, AUX_JMAX, AUX_PMIN or AUX_PMAX applies, is deferred, or is refused. -/
def execAuxLimitWrite (off : BitVec 25) (wide : Bool) (v : BitVec 64) (s : State) : Out :=
  let o := off.toNat
  match axisOf o [0x04, 0x08, 0x0C, 0x10, 0x14, 0x18, 0x1C] with
  | none => .next s
  | some n =>
    if ¬ alignedAccess o wide then .next s
    else if o % 0x1000 < 0x10 then
      let s1 := s.axisLimit (s.writeWord o (v.setWidth 32)) n o
      .next (if wide ∧ o % 0x1000 = 8 then s1.axisLimit (s1.writeWord (o + 4) ((v >>> 32).setWidth 32)) n (o + 4) else s1)
    else
      let t := s.writeAny o wide v
      let inside (p : Int) : Bool := decide (t.getS (Reg.AUX_PMIN_POS n) ≤ p ∧ p ≤ t.getS (Reg.AUX_PMAX_POS n))
      let ok := !s.on (Reg.AUX_POS_REF n) ||
        (inside (s.axisCount n) && (decide (s.axisState n ≠ 2) || inside (s.axis n).target))
      .next (if ok then t else s.raise 0x0C03 (s.auxFields n (s.axisJob n) ++ [(4, o)]))

/-! ### Descriptors (R451) -/

/-- An auxiliary job joins the unit. -/
def State.addAux (s : State) (j : AuxJob) : State := { s with aux := { s.aux with jobs := s.aux.jobs ++ [j] } }

/-- R357, R451: an AUX descriptor: one phase entry at offset 16. -/
def execAux (d : Desc) (s : State) : Out :=
  let e := (d.bytes.drop 16).take 16
  let check := phaseCheck e
  let at' := (List.range 6).map fun i => ([16, 17, 18, 20, 24].getD (i - 1) 16, decide (i = 0 ∨ check ≠ i))
  if d.field 0 1 ≠ 0x20 then .next s
  else .next (s.withDesc d false false (at' ++ descReserved d 32 32) fun s j =>
    (s.addAux { aseq := j.aseq, ring := j.ring, source := none, layer := 0, phases := [phaseOf e] }).tryPhases j.aseq)

/-- R357, R451: a RECOAT descriptor: the address, COUNT and space of a phase list, and a layer. -/
def execRecoat (d : Desc) (s : State) : Out :=
  let a := d.field 16 8
  let n := d.field 24 1
  let dram := bitAt (d.field 25 1) 0
  if d.field 0 1 ≠ 0x21 then .next s
  else .next (s.withDesc d dram false
    ([(24, decide (1 ≤ n ∧ n ≤ 8)), (25, decide (d.field 25 1 < 2))] ++ descReserved d 26 2 ++ descReserved d 32 32)
    fun s j =>
      match s.rangeFault [(dram, a, 16 * n)] with
      | some x => s.failRange j.aseq 4 x
      | none =>
        ((s.addAux { aseq := j.aseq, ring := j.ring, source := some (a, n, dram), layer := d.field 28 4, phases := [] }).readPhases
          j.aseq a n dram).tryPhases j.aseq)

/-! ### HST_ABORT and warm reset (R360, R362, R457) -/

/-- R362, R457: HST_ABORT: every moving axis enters STOP, the jobs end ABORTED, and no ring is held for them. -/
def State.auxAbort (s : State) : State :=
  let jobs := s.aux.jobs
  let s := jobs.foldl (fun (s : State) j => s.stopAxes j.aseq) s
  let s := (s.axisStop 0 |>.axisStop 1).axisStop 2
  let s := s.put Reg.AUX_HOLD_STATUS_HELD 0
  jobs.foldl (fun (s : State) j => s.auxComplete j 4 0x1008) s

/-- R360: a warm reset: every axis stops stepping at once, keeps S, clears REF and is IDLE if enabled. -/
def State.auxWarm (s : State) : State :=
  let s := (List.range 3).foldl (fun (s : State) n =>
    let x := s.axisCount n * 65536
    (s.puts [(Reg.AUX_POS_REF n, 0), (Reg.AUX_STATUS_STATE n, flag (s.on (Reg.AUX_CFG_EN n)))]).modAxis n fun l =>
      { l with x := x, v := 0, a := 0, table := [], job := none, devRun := 0, idleAt := none }) s
  { s with aux := { s.aux with jobs := [] } }

end Sys2Proof.Machine
end

