-- ==== Sys2Proof/Machine/Lanes.lean ====
section
/-! DEFINITION. Serial lanes: alignment, PLLs, tune bursts, test loops, reference outputs, electrical idle and strobe
settings (R236 to R257). -/
namespace Sys2Proof.Machine

/-! ### Loss of alignment (R241, R248) -/

/-- R236: a lane is a receive lane. -/
def receiveLane (l : Nat) : Bool := decide ((128 ≤ l ∧ l < 256) ∨ 262 ≤ l)

/-- R246, R248: LANE_ALIGN_LOST; `restarted` names the drivers of the chain whose power was lost and restored (R235). -/
def execLaneAlignLost (l : Fin 268) (loss : LaneLoss) (s : State) : Out :=
  if receiveLane l then
    let s := if s.on (Reg.LNS_LANE_RX_ALIGNED l) ∧ l.val < 256 then s.restartDrivers (l.val - 128) loss.restarted else s
    .next (s.alignLost l loss.idle loss.seen)
  else .next s

/-- R241: LANE_PHASE_SLIP: the phase buffer of a receive lane overflows (direction 0) or underflows (1). -/
def execLanePhaseSlip (l : Fin 268) (under : Bool) (s : State) : Out :=
  if receiveLane l ∧ s.on (Reg.LNS_LANE_RX_ALIGNED l) then
    .next ((s.raise 0x0708 [(2, l), (4, Config.eventCode 0x0708 (flag under))]).loseLane l (some 1))
  else .next s

/-- R241: a lane PLL loses lock: every lane that it feeds loses alignment; the head PLL's chains go to DOWN, the tide PLL's
ports as R379 says. -/
def State.pllLost (s : State) (tidePll : Bool) : State :=
  let s := s.put (if tidePll then Reg.LNS_STATUS_TIDE_LOCK else Reg.LNS_STATUS_HEAD_LOCK) 0
  let s := s.put (if tidePll then Reg.PWR_CLK_STATUS_TIDE_LANE else Reg.PWR_CLK_STATUS_HEAD_LANE) 0
  let s := s.raise 0x0707 [(2, 0xFFFF), (4, flag tidePll)]
  let lanes := if tidePll then (List.range 6).map (262 + ·) else (List.range 128).map (128 + ·)
  let s := lanes.foldl (fun (s : State) l => if s.on (Reg.LNS_LANE_RX_ALIGNED l) then s.loseLane l (some 2) else s) s
  if tidePll then
    (List.range 3).foldl (fun (s : State) p =>
      if s.portState p = 6 then s.portLost p 6
      else if s.portState p = 0 ∨ s.portState p = 7 then s
      else (s.portTo p 0).portLanes p 0) s
  else
    let s := (List.range 128).foldl (fun (s : State) n =>
      if s.chainState n = 0 then s else (s.chainLost n).chainTo n 0) s
    s.hardwareStop 9 false

/-- R241: LANE_PLL_UNLOCK: 0 the head PLL, 1 the tide PLL. -/
def execLanePllUnlock (pll : Fin 2) (s : State) : Out :=
  let tidePll := decide (pll.val = 1)
  if s.on (if tidePll then Reg.LNS_STATUS_TIDE_LOCK else Reg.LNS_STATUS_HEAD_LOCK) then .next (s.pllLost tidePll) else .next s

/-- R241, R258: LANE_PLL_LOCK: the head PLL's lock fixes the offset H0 of head time (a free value). -/
def execLanePllLock (pll : Fin 2) (s : State) : Out :=
  if ¬ s.domainOn 15 then .next s
  else if pll.val = 1 then .next (s.puts [(Reg.LNS_STATUS_TIDE_LOCK, 1), (Reg.PWR_CLK_STATUS_TIDE_LANE, 1)])
  else if s.on Reg.LNS_STATUS_HEAD_LOCK then .next s
  else
    let (x, s) := s.draw
    .next ({ s with headTime0 := x.toNat }.puts [(Reg.LNS_STATUS_HEAD_LOCK, 1), (Reg.PWR_CLK_STATUS_HEAD_LANE, 1)])

/-! ### Tune bursts (R245) -/

/-- The lane transmits for a READY chain or a trained port. -/
def State.laneInUse (s : State) (l : Nat) : Bool :=
  if l < 128 then decide (s.chainState l = 7)
  else decide (256 ≤ l ∧ l < 262 ∧ s.portState ((l - 256) / 2) = 6)

/-- R245: the tide time, in 1/64 clocks, at which the next TICK falls due, where lines are being sent. -/
def State.nextTickAt (s : State) : Option Int :=
  match s.get Reg.TID_TICK_STATE with
  | 1 => s.tid.testAt.map fun t => 64 * ((t + s.tid.testDiv : Nat) : Int)
  | 3 => (s.tid.committed.find? fun c => decide (c.1 = s.tickNow + 1)).map fun c => c.2.2
  | _ => none

/-- R245: a burst of 198.6 ns that begins now ends at least 200 ns before a TICK is due. -/
def State.burstFits (s : State) : Bool :=
  match s.nextTickAt with
  | some x => decide (64 * (s.tide : Int) + 10205 ≤ x)
  | none => true

/-- R236, R253: the receive partner of a transmit lane. -/
def partnerOf (l : Nat) : Nat := if l < 128 then l + 128 else l + 6

/-- R245: TUNE_BURST: TUNE_US microseconds have passed on a transmit lane since its last qualifying window; `seen` is what its
partner has seen meanwhile. -/
def execTuneBurst (b : TuneBurst) (s : State) : Out :=
  if s.laneInUse b.lane ∧ s.lanes.qualAt.getD b.lane 0 + 400 * s.get Reg.LNS_ADAPT_TUNE_US ≤ s.tide ∧ s.burstFits then
    .next (((s.sees (partnerOf b.lane) b.seen).qualSent b.lane).count (cntLns b.lane 2))
  else .next s

/-! ### Test loops (R253, R254) -/

/-- R254: a loop may start: a transmit lane, a mode of R253 that the lane has, no strip posted or open, no other loop or
swap test. -/
def State.loopAllowed (s : State) (lane mode : Nat) : Bool :=
  (decide (lane < 128) || decide (256 ≤ lane ∧ lane < 262)) && decide (1 ≤ mode ∧ mode ≤ 4) &&
    !(decide (mode = 4) && decide (lane < 128)) && s.box.strips.isEmpty && s.lanes.loop.isNone && s.couch.test.isNone

/-- R254: a write of LNS_LOOP_CTRL: START starts the loop it describes, or is refused. -/
def execLnsLoopStart (v : Word) (s : State) : Out :=
  let t := s.writeWord 0x00900010 v
  if ¬ bitAt v.toNat 31 ∨ ¬ s.domainOn 15 then .next t
  else
    let lane := t.get Reg.LNS_LOOP_CTRL_LANE
    let mode := t.get Reg.LNS_LOOP_CTRL_MODE
    if s.loopAllowed lane mode then
      let t := ({ t with lanes := { t.lanes with loop := some (lane, mode) } }).put Reg.LNS_LOOP_RES_DONE 0
      if lane < 128 then .next (t.chainTo lane 0)
      else
        let p := (lane - 256) / 2
        .next (if t.portState p = 6 then t.portLost p 6 else t.portTo p 0)
    else .next ((t.put Reg.LNS_LOOP_CTRL_START (flag s.lanes.loop.isSome)).raise 0x0706 [(2, lane)])

/-- R254: LNS_LOOP_END: the loop's length is reached, with what its checker saw. -/
def execLnsLoopEnd (locked : Bool) (errors : BitVec 48) (s : State) : Out :=
  match s.lanes.loop with
  | none => .next s
  | some (lane, mode) =>
    let s := { s with lanes := { s.lanes with loop := none } }
    let s := s.puts [(Reg.LNS_LOOP_CTRL_START, 0), (Reg.LNS_LOOP_RES_DONE, 1), (Reg.LNS_LOOP_RES_LOCKED, flag locked),
      (Reg.LNS_LOOP_RES_ERRORS, errors.toNat)]
    .next (s.raise 0x0705 [(2, lane), (1, mode), (4, flag locked), (4, errors.toNat)])

/-! ### Registers (R238, R239, R246) -/

/-- R238, R239: a write of LNS_REF_CTRL: a pair is disabled only while every chain is DOWN or FAILED; a spread above 10 leaves
the field; the spread applies when the chains next leave DOWN together. -/
def State.writeRefCtrl (s : State) (v : Word) : State :=
  if ¬ s.domainOn 15 then s.domainOffAccess 0x00900000 else
  let on := s.get Reg.LNS_REF_CTRL_OUT_EN
  let idle := (List.range 128).all fun n => natMem (s.chainState n) [0, 8]
  let new := bitsOf v.toNat 3 0
  let spread := bitsOf v.toNat 11 8
  let s := s.put Reg.LNS_REF_CTRL_OUT_EN (if idle then new else (BitVec.ofNat 4 new ||| BitVec.ofNat 4 on).toNat)
  if spread ≤ 10 then s.put Reg.LNS_REF_CTRL_SSC spread else s

/-- R239: LNS_SSC_WRITE. -/
def execLnsSscWrite (v : Word) (s : State) : Out := .next (s.writeRefCtrl v)

/-- R238: LNS_OUT_EN_WRITE. -/
def execLnsOutEnWrite (v : Word) (s : State) : Out := .next (s.writeRefCtrl v)

/-- R246: a transmit lane is in electrical idle for another reason than EIDLE: its chain is DOWN, its port untrained, or its
domain off. -/
def State.laneIdle (s : State) (l : Nat) : Bool :=
  if l < 128 then decide (s.chainState l = 0) || !s.domainOn (10 + l / 64)
  else natMem (s.portState ((l - 256) / 2)) [0, 7] || !s.domainOn 15

/-- R246, R247: a write of LNS_LANE_CTRL; EIDLE of a head lane is set only while its chain is DOWN or FAILED, and a transmit lane
that leaves electrical idle sends a re-adapt burst. -/
def execLnsEidleWrite (l : Fin 268) (v : Word) (s : State) : Out :=
  let was := s.get (Reg.LNS_LANE_CTRL_EIDLE l)
  let t := s.writeWord (0x00901000 + 16 * l) v
  let barred := decide (l.val < 256) && !natMem (s.chainState (l.val % 128)) [0, 8]
  if barred then .next (t.put (Reg.LNS_LANE_CTRL_EIDLE l) was)
  else if was = 1 ∧ ¬ t.on (Reg.LNS_LANE_CTRL_EIDLE l) ∧ ¬ receiveLane l ∧ ¬ t.laneIdle l then
    .next ((t.qualSent l).count (cntLns l 3))
  else .next t

/-! ### Strobes (R251, R252) -/

/-- R252: a measurement is in progress on a lane: a SYNC measurement of its chain, or LATENCY or TIME of its port. -/
def State.laneMeasured (s : State) (l : Nat) : Bool :=
  if l < 256 then (let n := l % 128; decide (s.chainState n = 5) || (s.chain n).recheck)
  else natMem (s.portState ((l - 256) % 6 / 2)) [4, 5]

/-- R252: STROBE_APPLY: a deferred setting applies at the end of the measurement on its lane. -/
def execStrobeApply (l : Fin 268) (s : State) : Out :=
  match s.lanes.strobes.find? fun x => decide (x.1 = l.val) with
  | none => .next s
  | some (_, chain, tap) =>
    if s.laneMeasured l then .next s
    else
      let rest := s.lanes.strobes.filter fun (x : Nat × Nat × Nat) => decide (x.1 ≠ l.val)
      let s := { s with lanes := { s.lanes with strobes := rest } }
      let s := s.puts [(Reg.LNS_STROBE_CHAIN l, chain), (Reg.LNS_STROBE_TAP l, tap)]
      .next (s.raise 0x0709 [(2, l), (4, 1)])

end Sys2Proof.Machine
end

