-- ==== Sys2Proof/Machine/HeadCare.lean ====
section
/-! DEFINITION. Head care: its schedule, measurement runs, alignment, proposals, and strobe calibration (R331 to R341,
R452). -/
namespace Sys2Proof.Machine

/-! ### Handing a proposal to the breakwater (R339, R482, R483) -/

/-- R482: a proposal image of records, each an offset and its values, under a SEQ. -/
def proposalImage (seq : Nat) (records : List (Nat × List Nat)) : List Byte :=
  let body := records.flatMap fun r => leBytes 4 r.1 ++ leBytes 4 r.2.length ++ r.2.flatMap (leBytes 4)
  leBytes 4 0x52505742 ++ leBytes 4 seq ++ leBytes 4 records.length ++ leBytes 4 (32 + body.length) ++ leBytes 16 0 ++ body

/-- R339: word w of a DEFECT proposal: the DEAD bits of the result. -/
def deadBits (v : Nat) : Nat := (List.range 16).foldl (fun a i => if v / 4 ^ i % 4 = 1 then a + 4 ^ i else a) 0

/-- R339: what a proposal of a kind carries: 1 DEFECT, 2 ALIGN. -/
def State.proposalRecords (s : State) (kind : Nat) : List (Nat × List Nat) :=
  if kind = 1 then
    [(defectBase, (List.range 16384).map fun w => deadBits (s.get ⟨defectResBase + 4 * w, 0, 32⟩))]
  else
    [(0x00D01000, (List.range 512).map fun r => s.get ⟨0x00D02000 + 4 * r, 0, 24⟩),
     (0x00D00030, [s.get ⟨0x00D00034, 0, 32⟩])]

/-- DETAIL of a head-care job (R452): RES_GEN, and a measurement's incomplete drivers. -/
def State.hcrDetail (s : State) (incomplete : Nat) : List Byte := leBytes 2 (s.get Reg.HCR_GEN_RES_GEN) ++ leBytes 2 incomplete

/-- R483: a head-care proposal is handed over while no proposal exists: the device builds its image with the next SEQ. -/
def State.tryHandover (s : State) : State :=
  match s.hcr.handover with
  | [] => s
  | (kind, job) :: later =>
    if s.get Reg.BWT_PROP_STATUS_STATE ≠ 0 then s
    else
      let image := proposalImage ((s.get Reg.BWT_SEQ_COMMITTED + 1) % 2 ^ 32) (s.proposalRecords kind)
      let s := { s with hcr := { s.hcr with handover := later }, bwt := { s.bwt with image := image, fromHead := true } }
      let s := (s.put Reg.BWT_PROP_STATUS_STATE 1).raise 0x0B0B [(1, kind), (4, s.get Reg.HCR_GEN_RES_GEN)]
      match job with
      | some a => s.complete a 0 0 (s.hcrDetail 0)
      | none => s

/-- R339, R483: a DEFECT or ALIGN proposal is handed over, or waits for IDLE behind those that wait already. -/
def State.handOver (s : State) (kind : Nat) (job : Option Nat) : State :=
  ({ s with hcr := { s.hcr with handover := s.hcr.handover ++ [(kind, job)] } }).tryHandover

/-- R339: a head-care job is refused, with its reason. -/
def State.refuseHcr (s : State) (aseq reason : Nat) : State :=
  (s.raise 0x0B0C [(4, aseq), (4, reason)]).complete aseq 2 0x0B0C (s.hcrDetail 0)

/-! ### Measurement runs (R331 to R333) -/

/-- R332: the class of an element: 0 GOOD, 1 DEAD, 2 STUCK. -/
def State.classOf (s : State) (res leak : Nat) : Nat :=
  let found (cond : Bool) (stuck : Field) : Nat := if cond then (if s.on stuck then 2 else 1) else 0
  max (max (found (decide (s.get Reg.HCR_RMAX_LIMIT < res)) Reg.HCR_POLICY_OPEN_STUCK)
    (found (decide (res < s.get Reg.HCR_RMIN_LIMIT)) Reg.HCR_POLICY_SHORT_STUCK))
    (found (decide (s.get Reg.HCR_LMAX_LIMIT < leak)) Reg.HCR_POLICY_LEAK_STUCK)

/-- R331: the head map that a run maps elements by: the latched one while a strip is open. -/
def State.runMap (s : State) : RegFile :=
  match s.openStrip with
  | some st => s.setup st
  | none => s.regs

/-- R46: the beam index of element e of driver a. -/
def beamOf (rf : RegFile) (a e : Nat) : Nat := 512 * rowOfDriver rf a + beamColumn rf a e

/-- R333: a complete driver's classes and serial are written. -/
def State.writeDriver (s : State) (rf : RegFile) (m : MeasDriver) : State :=
  let s := (List.range 256).foldl (fun (s : State) e =>
    let i := beamOf rf m.addr e
    s.put ⟨defectResBase + 4 * (i / 16), 2 * (i % 16), 2⟩ (s.classOf ((m.value e 1).getD 0) ((m.value e 2).getD 0))) s
  let serial := (s.driver m.addr).serial
  let s := s.put (Reg.HCR_DRV_SERIAL_SERIAL m.addr) serial
  { s with hcr := { s.hcr with unmeasured := s.hcr.unmeasured.filter fun x => decide (x ≠ m.addr) } }

/-- R333: the result buffer: RES and LEAK of every beam, all ones where it was not measured. -/
def resultBytes (rf : RegFile) (drivers : List MeasDriver) : List Byte :=
  let got := drivers.flatMap fun m => m.got.map fun g => (beamOf rf m.addr g.1, g.2.1, g.2.2)
  (List.range 262144).flatMap fun i =>
    let at1 (kind : Nat) : Nat := ((got.find? fun g => decide (g.1 = i ∧ g.2.1 = kind)).map (·.2.2)).getD 0xFFFFFFFF
    leBytes 4 (at1 1) ++ leBytes 4 (at1 2)

/-- R333: the DEAD and STUCK counts of the result. -/
def State.recount (s : State) : State :=
  s.puts [(Reg.HCR_DEAD_N_COUNT, (defectBeams s.regs defectResBase 1).length),
    (Reg.HCR_STUCK_N_COUNT, (defectBeams s.regs defectResBase 2).length)]

/-- RES_GEN increments by 1 (R333, R338). -/
def State.nextResult (s : State) : State :=
  s.put Reg.HCR_GEN_RES_GEN ((s.get Reg.HCR_GEN_RES_GEN + 1) % 65536)

/-- The TEST ticks of a measurement run end, and its lines that wait for records are forgotten. -/
def State.stopRun (s : State) : State :=
  let lines := s.link.lines.filter fun (l : OpenLine) => decide (l.kind ≠ 2)
  let s := { s with hcr := { s.hcr with run := none }, link := { s.link with lines := lines } }
  s.puts [(Reg.TID_TICK_STATE, 0), (Reg.HCR_STATUS_RUN, 0)]

/-- R333: the events of a run's end. -/
def State.runEvents (s : State) (bad : List MeasDriver) : State :=
  let s := s.raise 0x0B01 [(4, s.get Reg.HCR_GEN_RES_GEN), (4, s.get Reg.HCR_DEAD_N_COUNT), (4, s.get Reg.HCR_STUCK_N_COUNT)]
  let s := match bad with
    | [] => s
    | m :: _ => s.raise 0x0B02 [(4, bad.length), (2, m.addr),
        (4, (m.got.getLast?.map (·.1)).getD 0xFFFFFFFF)]
  match defectBeams s.regs defectResBase 2 with
  | [] => s
  | i :: r => s.raise 0x0B03 [(4, (i :: r).length), (4, i)]

/-- R333: the end of a run: its results, counts, buffer, events and hold, and the job that asked for it. -/
def State.endRun (s : State) (r : MeasRun) : State :=
  let rf := s.runMap
  let good := r.drivers.filter fun m => decide (m.result = 1)
  let bad := r.drivers.filter fun m => decide (m.result ≠ 1)
  let now := s.tide
  let s := good.foldl (fun (s : State) m => s.writeDriver rf m) s.stopRun
  let s := ((s.recount).nextResult).countBy (cntHcr 1) bad.length
  let s := if bad.isEmpty then s.count (cntHcr 0) else s
  let s := if r.buffer = 0 then s else s.hostWrite r.buffer (resultBytes rf r.drivers)
  let s := if r.full ∧ r.job.isNone then s.put Reg.HCR_CTRL_MEAS_REQ 0 else s
  let s := if r.full ∧ bad.isEmpty then { s with hcr := { s.hcr with lastFull := some now } } else s
  let s := (s.runEvents bad).judgeHold
  match r.job with
  | none => s
  | some a =>
    if ¬ bad.isEmpty then s.complete a 1 0x0B02 (s.hcrDetail bad.length)
    else if r.propose ∧ s.on Reg.HCR_STATUS_STUCK then s.refuseHcr a 2
    else
      let s := s.complete a 0 0 (s.hcrDetail 0)
      if r.propose then s.handOver 1 none else s

/-- R331: a measurement run starts on TEST ticks: one MEASURE to each covered driver; those of a chain that is not READY
are incomplete. -/
def State.startRun (s : State) (addrs : List Nat) (job : Option Nat) (buffer : Nat) (propose full : Bool) : State :=
  let drivers : List MeasDriver := addrs.map fun a => { addr := a, result := if s.chainState (a / 8) = 7 then 0 else 2 }
  let run : MeasRun := ⟨drivers, job, buffer, propose, none, full⟩
  let s := { s with hcr := { s.hcr with run := some run }, tid := { s.tid with testDiv := s.testPeriod } }
  let s := s.puts [(Reg.TID_TICK_STATE, 1), (Reg.HCR_STATUS_RUN, 1)]
  drivers.foldl (fun (s : State) m => if m.result = 0 then s.sendMeasure m else s) s

/-! ### Alignment (R336 to R338) -/

/-- R337: the new align, trim and residual of a row from its present total and EPS. -/
def correction (z : Int) : Int × Int × Int :=
  let a := roundHalfUp z 64
  let t := clampInt (z - 64 * a) (-16) 15
  (a, t, z - 64 * a - t)

/-- R336: EPS and VALID of row r of the table, and whether its reserved bits are 0. -/
def epsOf (t : List Byte) (r : Nat) : Int × Bool × Bool :=
  (sext 32 (fieldAt t (16 + 8 * r) 4), bitAt (fieldAt t (20 + 8 * r) 1) 0,
    decide (fieldAt t (20 + 8 * r) 1 < 2 ∧ fieldAt t (21 + 8 * r) 3 = 0))

/-- R337: the new correction of row r. A row without VALID keeps its own. -/
def State.newRow (s : State) (t : List Byte) (r : Nat) : Int × Int × Int :=
  let e := epsOf t r
  let a := alignOf s.regs r
  let m := trimOf s.regs r
  if e.2.1 then correction (64 * a + m + e.1) else (a, m, 0)

/-- R338: why a row is rejected: a subcode, 0 for none. -/
def State.rowFault (s : State) (t : List Byte) (r : Nat) : Nat :=
  let e := epsOf t r
  let a := (s.newRow t r).1
  let at0 : Int := (r % 128 * s.get Reg.HLK_ROW_PITCH_PITCH : Nat) + a
  if ¬ e.2.2 then 5
  else if e.2.1 ∧ s.get Reg.HCR_ALIGN_LIM_MAX_STEP < e.1.natAbs then 1
  else if s.get Reg.HCR_ALIGN_LIM_MAX_LINES < a.natAbs then 2
  else if at0 < 0 ∨ (s.get Reg.HLK_BAND_PITCH_PITCH : Int) ≤ at0 then 3
  else 0

/-- R338: why an alignment job is rejected: row and subcode. GEN and the header come first, then the rows in order. -/
def State.alignFault (s : State) (t : List Byte) : Option (Nat × Nat) :=
  let curvesOk := (List.range 4).all fun b => decide (fieldAt t b 1 < 8 ∨ fieldAt t b 1 = 0xFF)
  let rsvOk := (List.range 10).all fun i => decide (fieldAt t (6 + i) 1 = 0)
  if fieldAt t 4 2 ≠ s.get Reg.HCR_GEN_ALIGN_GEN then some (0xFFFF, 4)
  else if ¬ (curvesOk && rsvOk) then some (0xFFFF, 5)
  else ((List.range 512).find? fun r => decide (s.rowFault t r ≠ 0)).map fun r => (r, s.rowFault t r)

/-- R337, R338: an alignment job. -/
def State.alignJob (s : State) (j : HcrJob) : State :=
  let t := s.readSpace false j.addr 4112
  match s.alignFault t with
  | some (row, sub) =>
    ((s.count (cntHcr 5)).raise 0x0B07 [(2, row), (1, sub)]).complete j.aseq 1 0x0B07 (s.hcrDetail 0)
  | none =>
    let rows := (List.range 512).map fun r => (r, s.newRow t r)
    let worst := rows.foldl (fun m p => max m p.2.2.2.natAbs) 0
    let curves := (List.range 4).map fun b => if fieldAt t b 1 = 0xFF then bandCurve s.regs b else fieldAt t b 1
    let s := rows.foldl (fun (s : State) p =>
      s.put ⟨0x00D02000 + 4 * p.1, 0, 32⟩
        (wrapInt 16 p.2.1 + 2 ^ 16 * wrapInt 8 p.2.2.1 + 2 ^ 24 * wrapInt 8 p.2.2.2)) s
    let s := s.put ⟨0x00D00034, 0, 32⟩ (curves.zipIdx.foldl (fun a p => a + p.1 * 16 ^ p.2) 0)
    let s := s.nextResult
    let s := s.raise 0x0B06 [(4, s.get Reg.HCR_GEN_RES_GEN), (4, worst)]
    let s := s.complete j.aseq 0 0 (s.hcrDetail 0)
    if j.propose then s.handOver 2 none else s

/-- R339: a proposal job. -/
def State.proposeJob (s : State) (j : HcrJob) : State :=
  if j.gen ≠ s.get Reg.HCR_GEN_RES_GEN then s.refuseHcr j.aseq 1
  else if j.kind = 1 ∧ s.on Reg.HCR_STATUS_STUCK then s.refuseHcr j.aseq 2
  else s.handOver j.kind (some j.aseq)

/-- R335: the jobs at the front that do no measuring run at once, in posting order. -/
def State.pumpJobs : Nat → State → State
  | 0, s => s
  | n + 1, s =>
    match s.hcr.jobs with
    | [] => s
    | j :: r =>
      if j.opcode = 0x28 then s
      else
        let s := { s with hcr := { s.hcr with jobs := r } }
        State.pumpJobs n (if j.opcode = 0x29 then s.alignJob j else s.proposeJob j)

/-- A head-care job joins the queue. -/
def State.queueHcr (s : State) (j : HcrJob) : State :=
  let s := { s with hcr := { s.hcr with jobs := s.hcr.jobs ++ [j] } }
  s.pumpJobs s.hcr.jobs.length

/-- R452: an HCR_MEASURE descriptor. -/
def execHcrMeasure (d : Desc) (s : State) : Out :=
  let first := d.field 24 2
  let count := d.field 26 2
  if d.field 0 1 ≠ 0x28 then .next s
  else .next (s.withDesc d false false
    ([(16, decide (d.field 16 8 % 4096 = 0)), (24, decide (first < 1024)), (26, decide (first + count ≤ 1024)),
      (28, decide (d.field 28 1 < 2))] ++ descReserved d 29 35) fun s j =>
      s.queueHcr { aseq := j.aseq, opcode := 0x28, addr := d.field 16 8, first := first, count := count,
                   propose := bitAt (d.field 28 1) 0 })

/-- R337, R452: an HCR_ALIGN descriptor. -/
def execHcrAlign (d : Desc) (s : State) : Out :=
  if d.field 0 1 ≠ 0x29 then .next s
  else .next (s.withDesc d false false
    ([(16, decide (d.field 16 8 % 8 = 0)), (28, decide (d.field 28 1 < 2))] ++ descReserved d 24 4 ++ descReserved d 29 35)
    fun s j => s.queueHcr { aseq := j.aseq, opcode := 0x29, addr := d.field 16 8, propose := bitAt (d.field 28 1) 0 })

/-- R339, R452: an HCR_PROPOSE descriptor. -/
def execHcrPropose (d : Desc) (s : State) : Out :=
  if d.field 0 1 ≠ 0x2A then .next s
  else .next (s.withDesc d false false
    ((16, decide (d.field 16 1 = 1 ∨ d.field 16 1 = 2)) :: descReserved d 17 1 ++ descReserved d 20 44)
    fun s j => s.queueHcr { aseq := j.aseq, opcode := 0x2A, kind := d.field 16 1, gen := d.field 18 2 })

/-! ### The schedule (R335) -/

/-- R340: every lane whose power domain is up. -/
def State.lanesUp (s : State) : List Nat :=
  (List.range 268).filter fun l => s.domainOn (if 256 ≤ l then 15 else 10 + l % 128 / 64)

/-- R335: an item starts. -/
def State.startItem (s : State) (item : Nat) : State :=
  let s := { s with hcr := { s.hcr with deferred := s.hcr.deferred.filter fun x => decide (x ≠ item) } }
  match item with
  | 1 => ({ s with hcr := { s.hcr with cal := some ⟨s.lanesUp, [], [], []⟩ } }).put Reg.HCR_STATUS_RUN 2
  | 2 => s.startRun s.hcr.unmeasured none 0 false false
  | 3 => s.startRun (List.range 1024) none 0 false true
  | _ => match s.hcr.jobs with
    | [] => s
    | j :: r =>
      let s := { s with hcr := { s.hcr with jobs := r } }
      let addrs := if j.count = 0 then List.range 1024 else (List.range j.count).map (j.first + ·)
      s.startRun addrs (some j.aseq) j.addr j.propose (decide (addrs.length = 1024))

/-- R335: HCR_SCHEDULE: at entry to SLACK and each second in SLACK the first item that is due starts; outside SLACK its
deferral is raised once; bring-up has its own baseline (R513). -/
def execHcrSchedule (s : State) : Out :=
  match s.itemDue with
  | none => .next s
  | some item =>
    let q := s.get Reg.EXP_STATE_STATE
    if q = 2 ∧ s.hcr.run.isNone ∧ s.hcr.cal.isNone ∧ s.couch.test.isNone ∧ s.get Reg.TID_TICK_STATE = 0 then
      .next (s.startItem item)
    else if q ≠ 0 ∧ q ≠ 2 ∧ ¬ natMem item s.hcr.deferred then
      .next (({ s with hcr := { s.hcr with deferred := item :: s.hcr.deferred } }).raise 0x0B0A [(4, item)])
    else .next s

/-- R333: HCR_MEAS_RUN_END: every covered driver is complete or incomplete. -/
def execHcrMeasRunEnd (s : State) : Out :=
  match s.hcr.run with
  | none => .next s
  | some r =>
    if r.drivers.any fun m => decide (m.result = 0) then .next s
    else
      let s := s.endRun r
      .next (s.pumpJobs s.hcr.jobs.length)

/-- R331: HCR_MEAS_TIMEOUT: TIMEOUT_MS has passed from the first MEASURE. -/
def execHcrMeasTimeout (s : State) : Out :=
  match s.hcr.run with
  | none => .next s
  | some r => match r.startedAt with
    | none => .next s
    | some t =>
      if t + 400000 * s.get Reg.HCR_MEAS_CTRL_TIMEOUT_MS ≤ s.tide then
        .next (r.drivers.foldl (fun (s : State) m => s.measFail m.addr) s)
      else .next s

/-! ### Strobe calibration (R340, R341) -/

/-- R340: the latency of a count in ps; 0 for a count of 0. -/
def latencyOf (c : Nat) : Rat := if c = 0 then 0 else (1310720000 : Rat) / c

/-- A count of window w (0 to 7: chain w/2 at tap 0 or 63) of the lane at a place. -/
def StrobeCal.lat (c : StrobeCal) (w place : Nat) : Rat := latencyOf ((c.windows.getD w []).getD place 0)

/-- R340: lat0 and the step of chain i of a lane. -/
def StrobeCal.step (c : StrobeCal) (place i : Nat) : Rat := (c.lat (2 * i + 1) place - c.lat (2 * i) place) / 63

/-- A list of rationals in ascending order, by insertion. -/
def insertRat (x : Rat) : List Rat → List Rat
  | [] => [x]
  | y :: l => if x ≤ y then x :: y :: l else y :: insertRat x l

/-- R340: the median: the middle value, or the mean of the two middle ones. -/
def median (l : List Rat) : Rat :=
  let m := l.foldl (fun a x => insertRat x a) []
  let n := m.length
  if n % 2 = 1 then m.getD (n / 2) 0 else (m.getD (n / 2 - 1) 0 + m.getD (n / 2) 0) / 2

/-- R340: the good chains of a lane, in ascending order. -/
def State.goodChains (s : State) (c : StrobeCal) (place : Nat) : List Nat :=
  let med := median ((List.range 4).map (c.step place))
  (List.range 4).filter fun i =>
    let x := c.step place i
    let d := if med ≤ x then x - med else med - x
    decide ((s.get Reg.HCR_STROBE_LIM_STEP_MIN : Rat) ≤ x) && decide (x ≤ (s.get Reg.HCR_STROBE_LIM_STEP_MAX : Rat)) &&
      decide (d * 100 ≤ med * (s.get Reg.HCR_STROBE_LIM_SPREAD : Rat))

/-- Round half up of a rational. -/
def roundRat (x : Rat) : Int := (x + 1 / 2).floor

/-- R340: the target, set from the lanes' lowest good chains where it is 0. -/
def State.strobeTarget (s : State) (c : StrobeCal) : Nat :=
  let t := s.get Reg.HCR_STROBE_TGT_PS
  if t ≠ 0 then t
  else
    let l := (List.range c.lanes.length).filterMap fun p =>
      (s.goodChains c p).head?.map fun i => c.lat (2 * i) p + 32 * c.step p i
    if l.isEmpty then 0 else min 65535 (roundRat (median l)).toNat

/-- R340: the choice of a lane: the good chain whose tap is nearest 32, the lowest among equals; chain 4 for none. -/
def State.chooseStrobe (s : State) (c : StrobeCal) (tgt place : Nat) : Nat × Nat :=
  ((s.goodChains c place).filterMap fun i =>
    let x := c.step place i
    let tap := if x = 0 then -1 else roundRat (((tgt : Rat) - c.lat (2 * i) place) / x)
    if 0 ≤ tap ∧ tap ≤ 63 then some (i, tap.toNat) else none).foldl (fun best p =>
      let far (t : Nat) : Nat := ((t : Int) - 32).natAbs
      if best.1 = 4 ∨ far p.2 < far best.2 then p else best) (4, 0)

/-- R340: after the eighth window: the target and each lane's choice. -/
def State.chooseAll (s : State) (c : StrobeCal) : State :=
  let tgt := s.strobeTarget c
  let s := s.put Reg.HCR_STROBE_TGT_PS tgt
  let places := c.lanes.zipIdx
  let chosen := places.map fun p => (p.1, s.chooseStrobe c tgt p.2)
  let reasons := places.filterMap fun p =>
    if (s.goodChains c p.2).isEmpty then some (p.1, 1)
    else if (s.chooseStrobe c tgt p.2).1 = 4 then some (p.1, 2) else none
  { s with hcr := { s.hcr with cal := some { c with chosen := chosen, reasons := reasons } } }

/-- R341: a lane takes its new setting, at once or after the measurement on it (R252). -/
def State.setStrobe (s : State) (x : Nat × Nat × Nat) : State :=
  if s.laneMeasured x.1 then
    let rest := s.lanes.strobes.filter fun (y : Nat × Nat × Nat) => decide (y.1 ≠ x.1)
    { s with lanes := { s.lanes with strobes := rest ++ [x] } }
  else s.puts [(Reg.LNS_STROBE_CHAIN x.1, x.2.1), (Reg.LNS_STROBE_TAP x.1, x.2.2)]

/-- R341: the calibration ends with the counts of its confirming window. -/
def State.endStrobe (s : State) (c : StrobeCal) : State :=
  let tgt : Rat := s.get Reg.HCR_STROBE_TGT_PS
  let places := c.lanes.zipIdx
  let off := places.filterMap fun p =>
    let d := c.lat 8 p.2 - tgt
    let bad := decide (20 < d) || decide (d < -20)
    if bad && !c.reasons.any (fun r => decide (r.1 = p.1)) then some (p.1, 3) else none
  let kept := c.reasons ++ off
  let takes := c.chosen.filter fun x => !kept.any fun r => decide (r.1 = x.1)
  let temp := s.get Reg.PWR_DIE_TEMP_TEMP
  let s := places.foldl (fun (s : State) p =>
    let bad := (List.range 4).foldl (fun a i => if natMem i (s.goodChains c p.2) then a else a + 2 ^ i) 0
    s.puts [(Reg.LNS_STROBE_BAD p.1, bad), (Reg.LNS_STROBE_CAL_TEMP p.1, wrapInt 8 (idiv (sext 16 temp) 16))]) s
  let now := takes.filter fun x => !s.laneMeasured x.1
  let s := takes.foldl (fun (s : State) x => s.setStrobe x) s
  let s := kept.foldl (fun (s : State) r => (s.count (cntHcr 4)).raise 0x0B09 [(2, r.1), (4, r.2)]) s
  let s := { s with hcr := { s.hcr with cal := none } }
  let s := s.puts [(Reg.HCR_CAL_TEMP_TEMP, temp), (Reg.HCR_CTRL_CAL_REQ, 0), (Reg.HCR_STATUS_RUN, 0)]
  let s := s.count (cntHcr 3)
  let s := if now.isEmpty then s else s.raise 0x0709 [(2, 0xFFFF), (4, now.length)]
  s.raise 0x0B08 [(4, takes.length), (4, kept.length), (2, temp)]

/-- R340: STROBE_CAL_WINDOW: a counting window ends, with the count of each covered lane. -/
def execStrobeCalWindow (counts : List Word) (s : State) : Out :=
  match s.hcr.cal with
  | none => .next s
  | some c =>
    let c := { c with windows := c.windows ++ [counts.map BitVec.toNat] }
    let s := { s with hcr := { s.hcr with cal := some c } }
    if c.windows.length = 8 then .next (s.chooseAll c)
    else if 9 ≤ c.windows.length then .next (s.endStrobe c)
    else .next s

/-! ### Requests (R335, R342) -/

/-- R335: MEAS_REQ: a write of HCR_CTRL asks for a measurement of all drivers at the next SLACK. -/
def execMeasReq (v : Word) (s : State) : Out := .next (s.writeWord 0x00D00000 v)

/-- R335: CAL_REQ: a write of HCR_CTRL asks for a strobe calibration at the next SLACK. -/
def execCalReq (v : Word) (s : State) : Out := .next (s.writeWord 0x00D00000 v)

end Sys2Proof.Machine
end

