-- ==== Sys2Proof/Machine/Loops.lean ====
section
/-! DEFINITION. Tracking loops (chapter 12): sensor ports, samples, the compensator, bank swaps, hand-overs and the
supervisor (R290 to R304). -/
namespace Sys2Proof.Machine

/-! ### Channels -/

/-- A loop channel beside its registers. -/
def State.loopAt (s : State) (c : Nat) : LoopChan := s.loops.getD c {}

/-- The machine with a loop channel changed. -/
def State.modLoop (s : State) (c : Nat) (f : LoopChan → LoopChan) : State := { s with loops := listModify s.loops c f }

/-- R303: the payload common to the loops' events: channel and tide time. -/
def State.loopFields (s : State) (c : Nat) : List (Nat × Nat) := [(1, c), (8, s.tide)]

/-- The least and the greatest signed 24-bit value. -/
def clamp24 (x : Int) : Int := clampInt x (-(2 ^ 23)) (2 ^ 23 - 1)

/-- R296: the states' range. -/
def clamp48 (x : Int) : Int := clampInt x (-(2 ^ 47)) (2 ^ 47 - 1)

/-- R290: a tide time lies `lead` tide clocks before an output instant of a channel whose output phase lies in its period. -/
def State.loopDue (s : State) (c lead : Nat) : Bool :=
  let period := s.get (Reg.LOOP_PERIOD_PERIOD c)
  let phase := s.get (Reg.LOOP_PHASE_OUT_PHASE c)
  s.domainOn 15 && decide (phase < period) && decide ((s.tide + lead) % period = phase)

/-! ### Sensor ports (R291) -/

/-- R291: SNS_TRIG rises TRIG_LEAD tide clocks before a capture of a channel that names a sensor port. -/
def execSnsTrigger (c : Fin 4) (s : State) : Out :=
  if s.get (Reg.LOOP_SRC_FB_SRC c) < 4 ∧ s.loopDue c (48 + s.get (Reg.LOOP_SRC_TRIG_LEAD c)) then
    .next (s.modLoop c fun l => { l with edge := some s.tide, frame := none })
  else .next s

/-- The channels of a sensor port whose edge awaits its frame. -/
def State.awaiting (s : State) (k : Nat) : List (Nat × Nat) :=
  (List.range 4).filterMap fun c =>
    let l := s.loopAt c
    if s.get (Reg.LOOP_SRC_FB_SRC c) = k ∧ l.frame.isNone then l.edge.map fun t => (c, t) else none

/-- R291: a frame comes at a sensor port: it answers the oldest edge that awaits one, for each channel of that edge. -/
def execSensorFrame (k : Fin 4) (frame : List Byte) (s : State) : Out :=
  let l := s.awaiting k
  match l with
  | [] => .next s
  | p :: r =>
    let first := r.foldl (fun a q => min a q.2) p.2
    .next (l.foldl (fun (s : State) q =>
      if q.2 = first then s.modLoop q.1 fun x => { x with frame := some (s.tide, frame) } else s) s)

/-- R292: why a sensor frame is missed: 1 SYNC, 2 CRC, 3 late, 4 ERR, 5 reserved bits; 0 where it is valid. -/
def sensorMiss (frame : List Byte) (late : Bool) : Nat :=
  let stat := fieldAt frame 1 1
  if fieldAt frame 0 1 ≠ 0xB2 then 1
  else if posCrc ((frame.drop 1).take 4) ≠ fieldAt frame 5 1 then 2
  else if late then 3
  else if bitAt stat 7 then 4
  else if stat % 64 ≠ 0 then 5
  else 0

/-- R292, R293: a channel's feedback at capture: the miss reason, 0 for none, and y. -/
def State.loopFeedback (s : State) (c : Nat) : Nat × Int :=
  let l := s.loopAt c
  let src := s.get (Reg.LOOP_SRC_FB_SRC c)
  if src < 4 then
    match l.frame with
    | none => (3, 0)
    | some (t, f) => (sensorMiss f (decide (s.tide < t + 2)), sext 24 (fieldAt f 2 3))
  else if src < 6 then
    match s.tid.portSamples.getD (src - 4) none with
    | none => (6, 0)
    | some (n, t) =>
      if t ≤ l.capturedAt then (6, 0) else (0, clamp24 (signedDiff 40 n (s.get (Reg.LOOP_YORG_ORG c))))
  else (6, 0)

/-! ### Limits (R296) -/

/-- The breakwater's limits of the beam intensity. -/
def State.intensity (s : State) : Int × Int := (s.getS Reg.BWT_INT_LO_LIMIT, s.getS Reg.BWT_INT_HI_LIMIT)

/-- R299: in every mode, channel 3's output is limited to the breakwater's intensity limits as its last step. -/
def State.lastStep (s : State) (c : Nat) (u : Int) : Int :=
  if c = 3 then clampInt u s.intensity.1 s.intensity.2 else u

/-- A bank's output limits. -/
def State.bankLimits (s : State) (c b : Nat) : Int × Int :=
  (s.getS (Reg.LOOP_BK_LIM_LO c b), s.getS (Reg.LOOP_BK_LIM_HI c b))

/-- R296, R298: a bank's limits of channel 3 overlap the breakwater's; other channels have no such condition. -/
def State.overlaps (s : State) (c b : Nat) : Bool :=
  let l := s.bankLimits c b
  c ≠ 3 || decide (max l.1 s.intensity.1 ≤ min l.2 s.intensity.2)

/-- R296: the effective limits of a channel; without overlap, both are the breakwater limit nearer to the bank's range. -/
def State.effLimits (s : State) (c : Nat) : Int × Int :=
  let b := s.get (Reg.LOOP_MODE_ACTIVE_BANK c)
  let l := s.bankLimits c b
  if c ≠ 3 then l
  else if s.overlaps c b then (max l.1 s.intensity.1, min l.2 s.intensity.2)
  else if s.intensity.2 < l.1 then (s.intensity.2, s.intensity.2)
  else (s.intensity.1, s.intensity.1)

/-! ### Output -/

/-- R294: the deflection frame of a sample. -/
def deflectionFrame (safe sat slewing : Bool) (u : Int) : List Byte :=
  let body := leBytes 1 (flag safe + 2 * flag sat + 4 * flag slewing) ++ leBytes 3 (wrapInt 24 u)
  leBytes 1 0xB3 ++ body ++ leBytes 1 (posCrc body)

/-- A sample's output, with SAT and SLEWING. -/
def State.loopOut (s : State) (c : Nat) (u : Int) (sat slewing : Bool) : State :=
  s.puts [(Reg.LOOP_STATUS_OUT c, wrapInt 24 u), (Reg.LOOP_STATUS_SAT c, flag sat),
    (Reg.LOOP_STATUS_SLEWING c, flag slewing)]

/-- R299: a channel changes its mode, with its event. -/
def State.loopMode (s : State) (c mode cause : Nat) : State :=
  let old := s.get (Reg.LOOP_MODE_STATE c)
  (s.put (Reg.LOOP_MODE_STATE c) mode).raise 0x0904 (s.loopFields c ++ [(1, old), (1, mode), (1, cause)])

/-- R299: a channel enters SAFE: LOOP_SAFE at once, without slew. Cause 0 request, 1 fault, 2 reset. -/
def State.loopSafe (s : State) (c cause : Nat) : State :=
  (s.loopMode c 0 cause).loopOut c (s.lastStep c (s.getS (Reg.LOOP_SAFE_VALUE c))) false false

/-! ### Supervisor (R300) -/

/-- R300: the channel faults: a lost sensor or a supervisor fault, with the event's own payload. -/
def State.loopFault (s : State) (c code : Nat) (payload : List (Nat × Nat)) : State :=
  let q := s.get Reg.EXP_STATE_STATE
  let breaks := s.on (Reg.LOOP_SUP_BREAK_EN c)
  let taken := breaks && s.firing
  let s := (s.put (Reg.LOOP_STATUS_SUP_FAIL c) 1).modLoop c fun l => { l with excursions := 0, misses := 0 }
  let s := s.raiseSev code (if taken then 3 else 2) (s.loopFields c ++ payload)
  let s := if s.on (Reg.LOOP_SUP_ACT c) then (s.put (Reg.LOOP_MODE_REQ c) 0).loopSafe c 1 else s
  if breaks ∧ (taken ∨ q = 3) then s.hardwareStop 6 false else s

/-- R300: a sample that is not missed, in CLOSED, against the model of the commanded trajectory. -/
def State.supervise (s : State) (c : Nat) (r y : Int) : State :=
  let n := s.get (Reg.LOOP_SUP_N c)
  let l := s.loopAt c
  let m := l.model + roundHalfUp (s.get (Reg.LOOP_SUP_ALPHA_ALPHA c) * (r - l.model)) 65536
  let s := s.modLoop c fun l => { l with model := m }
  if n = 0 then s
  else if (s.get (Reg.LOOP_SUP_WIN c) : Int) < (y - m).natAbs then
    let s := (s.count (cntLoop c 3)).modLoop c fun l => { l with excursions := l.excursions + 1 }
    if n ≤ (s.loopAt c).excursions then s.loopFault c 0x0903 [(4, wrapInt 32 y), (4, wrapInt 32 m)] else s
  else s.modLoop c fun l => { l with excursions := 0 }

/-! ### Reference and compensator (R295 to R297) -/

/-- R295: ε at capture, as a signed 40-bit difference: the estimated position less the set-point position, in counts. Which
of the two neighbouring counts a fraction gives is left open: a free value says (log entry 2). R375: a slave of a cascade
takes it from the master's last SAMPLE message. -/
def State.followError (s : State) : Option (Int × State) :=
  if s.inCascade ∧ s.on Reg.CSC_STATUS_SLAVE then
    s.csc.sample.map fun p => (signedDiff 40 (wrapInt 40 p.2.1) (wrapInt 40 p.2.2), s)
  else match s.tid.samples with
  | [] => none
  | p :: r =>
    if ¬ s.on Reg.TID_POS_VALID then none
    else
      let a := s.tid.accAt
      let e : Estimator := match windowSample (rfGet s.tideSetup Reg.TID_VWIN_VWIN) p.2 r with
        | none => ⟨0, p.2, s.tid.velAt * 4096, 25, a⟩
        | some q =>
          let w := p.2 - q.2
          if w ≤ 0 then ⟨0, p.2, s.tid.velAt * 4096, 25, a⟩
          else ⟨0, p.2, signedDiff 40 p.1 q.1 * 2 ^ 32 * 1250 + a * w * w, 1250 * w, a⟩
      let dt : Int := s.tide - e.tk
      -- travel since the sample, in 2^-32 count over 1250·vd; the set-point is in 2^-16 count
      let d := 1250 * e.vd
      let n := ((p.1 : Int) * 2 ^ 32 - (s.setPointAt s.tide).1 * 2 ^ 16) * d + 1250 * e.vn * dt + e.vd * e.acc * dt * dt
      let whole := idiv n (d * 2 ^ 32)
      let (x, s) := s.draw
      let eps := if whole * (d * 2 ^ 32) = n then whole else whole + x.toNat % 2
      some (sext 40 (wrapInt 40 eps), s)

/-- R295: a channel's reference at a capture: rr steps toward TARGET, and r adds the feedforward. -/
def State.reference (s : State) (c : Nat) : State × Int :=
  let l := s.loopAt c
  let target := s.getS (Reg.LOOP_REF_TARGET c)
  let step : Int := s.get (Reg.LOOP_REF_STEP_STEP c)
  let rr := if step = 0 then target else l.rr + clampInt (target - l.rr) (-step) step
  let ff := if s.on (Reg.LOOP_SRC_REF_SRC c) then clamp24 (roundHalfUp (s.getS (Reg.LOOP_KFF_KFF c) * l.eps) 65536) else 0
  (s.modLoop c fun l => { l with rr := rr }, clamp24 (rr + ff))

/-- A coefficient of the active bank. -/
def State.coef (s : State) (c k : Nat) : Int :=
  let b := s.get (Reg.LOOP_MODE_ACTIVE_BANK c)
  if (k = 3 ∨ k = 6) ∧ ¬ s.on (Reg.LOOP_BK_LIM_ORDER c b) then 0 else s.getS (Reg.LOOP_BK_COEF_C c b k)

/-- R296: the filter's output v(n) for an error. -/
def State.filterOut (s : State) (c : Nat) (e : Int) : Int :=
  let l := s.loopAt c
  let x := s.coef c 0 * e + s.coef c 1 * l.errs.getD 0 0 + s.coef c 2 * l.errs.getD 1 0 + s.coef c 3 * l.errs.getD 2 0
  let y := s.coef c 4 * l.filt.getD 0 0 + s.coef c 5 * l.filt.getD 1 0 + s.coef c 6 * l.filt.getD 2 0
  clamp48 (roundHalfUp (2 ^ 24 * x + y) (2 ^ 28))

/-- R296: the histories shift. -/
def State.shiftLoop (s : State) (c : Nat) (e v integ : Int) : State :=
  s.modLoop c fun l => { l with integ := integ, errs := (e :: l.errs).take 3, filt := (v :: l.filt).take 3 }

/-- R299: the first sample of CLOSED: the output stays, and the integrator is preloaded; a preload that leaves 48 bits is a
free value (log entry 2). -/
def State.closeLoop (s : State) (c : Nat) (e : Int) : State :=
  let v := s.filterOut c e
  let uo := s.getS (Reg.LOOP_STATUS_OUT c)
  let i := uo * 2 ^ 24 - v
  let (x, s) := if clamp48 i = i then (i, s) else (let p := s.draw
    (sext 48 p.1.toNat, p.2))
  (s.shiftLoop c e v x).loopOut c (s.lastStep c uo) false true

/-- R296, R297: a sample of CLOSED after the first. -/
def State.compensate (s : State) (c : Nat) (e : Int) : State :=
  let l := s.loopAt c
  let uo := s.getS (Reg.LOOP_STATUS_OUT c)
  let slew : Int := s.get (Reg.LOOP_SLEW_VALUE c)
  let slewing := s.on (Reg.LOOP_STATUS_SLEWING c) && decide (slew ≠ 0)
  let lim := s.effLimits c
  let v := s.filterOut c e
  let q0 := roundHalfUp (l.integ + v) (2 ^ 24)
  let held := !s.overlaps c (s.get (Reg.LOOP_MODE_ACTIVE_BANK c))
  let sat := held || decide (q0 < lim.1 ∨ lim.2 < q0) || (slewing && decide (slew < (q0 - uo).natAbs))
  let i := if sat then l.integ else clamp48 (l.integ + roundHalfUp (s.coef c 7 * e) 16)
  let q := roundHalfUp (i + v) (2 ^ 24)
  let u := clampInt q lim.1 lim.2
  let still := slewing && decide (slew < (u - uo).natAbs)
  let u := if slewing ∧ ¬ held then clampInt u (uo - slew) (uo + slew) else u
  let u := s.lastStep c u
  let excess := held || decide (u ≠ q)
  let s := (s.shiftLoop c e v i).loopOut c u excess still
  if excess then s.count (cntLoop c 2) else s

/-- R295 to R300: a sample of CLOSED that is not missed; `entry`: the first one. -/
def State.closedSample (s : State) (c : Nat) (y : Int) (entry : Bool) : State :=
  let s := if entry then
      (s.put (Reg.LOOP_STATUS_SUP_FAIL c) 0).modLoop c fun l =>
        { l with rr := y, model := y, errs := [0, 0, 0], filt := [0, 0, 0], excursions := 0, misses := 0 }
    else s
  let (s, r) := s.reference c
  let e := clamp24 (r - y)
  let s := if entry then s.closeLoop c e else s.compensate c e
  s.supervise c r y

/-- R299: a sample of OPEN: the output moves to LOOP_OPEN, by at most SLEW while slewing. -/
def State.openSample (s : State) (c : Nat) : State :=
  let target := s.getS (Reg.LOOP_OPEN_VALUE c)
  let uo := s.getS (Reg.LOOP_STATUS_OUT c)
  let slew : Int := s.get (Reg.LOOP_SLEW_VALUE c)
  if s.on (Reg.LOOP_STATUS_SLEWING c) ∧ slew ≠ 0 then
    s.loopOut c (s.lastStep c (clampInt target (uo - slew) (uo + slew))) false (decide (slew < (target - uo).natAbs))
  else s.loopOut c (s.lastStep c target) false false

/-! ### Capture (R290, R298, R299) -/

/-- R298: a requested swap: the failing condition of the shadow bank, 1 LO > HI, 2 no overlap; the order field has no
reserved value. -/
def State.swapFault (s : State) (c b : Nat) : Nat :=
  if (s.bankLimits c b).2 < (s.bankLimits c b).1 then 1 else if s.overlaps c b then 0 else 2

/-- R298: at capture, a requested swap checks the shadow bank and exchanges the banks, or is refused. -/
def State.swapBanks (s : State) (c : Nat) : State :=
  if ¬ s.on (Reg.LOOP_MODE_SWAP c) then s
  else
    let b := 1 - s.get (Reg.LOOP_MODE_ACTIVE_BANK c)
    let s := s.put (Reg.LOOP_MODE_SWAP c) 0
    match s.swapFault c b with
    | 0 => (s.put (Reg.LOOP_MODE_ACTIVE_BANK c) b).raise 0x0905 (s.loopFields c ++ [(4, b)])
    | k => s.raise 0x0907 (s.loopFields c ++ [(4, Config.eventCode 0x0907 k)])

/-- R292: a missed sample: the output repeats, and MISS_LIMIT of them in CLOSED lose the sensor. A request for CLOSED waits
for a sample. -/
def State.loopMissed (s : State) (c miss : Nat) : State :=
  let first := s.on (Reg.LOOP_STATUS_SENSOR_OK c)
  let s := (s.put (Reg.LOOP_STATUS_SENSOR_OK c) 0).count (cntLoop c 1)
  let s := if first then s.raise 0x0901 (s.loopFields c ++ [(1, miss)]) else s
  let req := s.get (Reg.LOOP_MODE_REQ c)
  if req ≠ s.get (Reg.LOOP_MODE_STATE c) ∧ req = 0 then s.loopSafe c 0
  else if req ≠ s.get (Reg.LOOP_MODE_STATE c) ∧ req = 1 then (s.loopMode c 1 0).put (Reg.LOOP_STATUS_SLEWING c) 1
  else if s.get (Reg.LOOP_MODE_STATE c) = 2 then
    let s := s.modLoop c fun l => { l with misses := l.misses + 1 }
    if s.get (Reg.LOOP_SRC_MISS_LIMIT c) ≤ (s.loopAt c).misses then
      s.loopFault c 0x0902 [(4, wrapInt 32 (s.loopAt c).lastY)]
    else s
  else s

/-- R295: ε of a capture; without a valid position it keeps its last value. -/
def State.noteError (s : State) (c : Nat) : State :=
  match s.followError with
  | some (e, s) => s.modLoop c fun l => { l with eps := e }
  | none => s

/-- R295 to R300: a sample with a valid feedback, in the mode that a request may change. -/
def State.loopSample (s : State) (c : Nat) (y : Int) : State :=
  let s := (s.put (Reg.LOOP_STATUS_SENSOR_OK c) 1).modLoop c fun l => { l with lastY := y, misses := 0 }
  let s := s.noteError c
  let mode := s.get (Reg.LOOP_MODE_STATE c)
  let req := s.get (Reg.LOOP_MODE_REQ c)
  let change := decide (req ≠ mode)
  match req with
  | 0 => if change then s.loopSafe c 0 else s.loopOut c (s.lastStep c (s.getS (Reg.LOOP_SAFE_VALUE c))) false false
  | 1 => (if change then (s.loopMode c 1 0).put (Reg.LOOP_STATUS_SLEWING c) 1 else s).openSample c
  | _ => (if change then s.loopMode c 2 0 else s).closedSample c y change

/-- R294, R520: what each sample sends: the deflection frame, and a LOOP packet of a channel not in SAFE. -/
def State.sendSample (s : State) (c : Nat) (missed : Bool) : State :=
  let u := s.getS (Reg.LOOP_STATUS_OUT c)
  let sat := s.on (Reg.LOOP_STATUS_SAT c)
  let slewing := s.on (Reg.LOOP_STATUS_SLEWING c)
  let safe := decide (s.get (Reg.LOOP_MODE_STATE c) = 0)
  let s := s.modLoop c fun l =>
    { l with edge := none, frame := none, capturedAt := s.tide, sent := deflectionFrame safe sat slewing u }
  if safe then s
  else s.trace 10 (leBytes 1 c ++ leBytes 1 (flag sat + 2 * flag slewing + 4 * flag missed) ++
    leBytes 3 (wrapInt 24 (s.loopAt c).lastY) ++ leBytes 3 (wrapInt 24 u))

/-- R290: a channel captures. A swap comes before a change of mode (R304). -/
def execLoopCapture (c : Fin 4) (s : State) : Out :=
  if ¬ s.loopDue c 48 then .next s
  else
    let p := s.loopFeedback c
    let s := (s.count (cntLoop c 0)).swapBanks c
    let s := if p.1 = 0 then s.loopSample c p.2 else s.loopMissed c p.1
    .next ((s.sendSample c (decide (p.1 ≠ 0))).watchFlood)

/-! ### Writes (R298, R299, R301, R302) -/

/-- R301: what forbids a request for CLOSED: 3 FB_SRC, 4 OUT_PHASE; 0 where nothing does. -/
def State.closeFault (s : State) (c : Nat) : Nat :=
  if 6 ≤ s.get (Reg.LOOP_SRC_FB_SRC c) then 3
  else if s.get (Reg.LOOP_PERIOD_PERIOD c) ≤ s.get (Reg.LOOP_PHASE_OUT_PHASE c) then 4
  else 0

/-- R299, R301: a write of LOOP_MODE: REQ and SWAP by their access; a forbidden request for CLOSED leaves REQ. -/
def State.writeMode (s : State) (c : Nat) (v : Word) : State :=
  let t := s.writeWord (0x00B00024 + c * 0x1000) v
  if s.domainOn 15 ∧ v.toNat % 4 = 2 ∧ s.closeFault c ≠ 0 then
    (t.put (Reg.LOOP_MODE_REQ c) (s.get (Reg.LOOP_MODE_REQ c))).raise 0x0907 (s.loopFields c ++ [(4, Config.eventCode 0x0907 (s.closeFault c))])
  else t

/-- R298: a write of LOOP_MODE with SWAP set: the banks are swapped at the next capture. -/
def execLoopSwapRequest (c : Fin 4) (v : Word) (s : State) : Out :=
  .next (if bitAt v.toNat 8 then s.writeMode c v else s)

/-- R299: a write of LOOP_MODE.REQ requests a mode at the next capture. -/
def execLoopModeWrite (c : Fin 4) (v : Word) (s : State) : Out := .next (s.writeMode c v)

/-- The channel and bank of a coefficient or limit register; none for another offset. -/
def bankOf (o : Nat) : Option (Nat × Nat) :=
  let p := o % 0x1000
  if 0x00B00000 ≤ o ∧ o < 0x00B04000 ∧ 0x100 ≤ p ∧ p < 0x180 ∧ p % 0x40 < 0x28 then
    some ((o - 0x00B00000) / 0x1000, (p - 0x100) / 0x40)
  else none

/-- R298: a write of a coefficient bank: the shadow bank takes it; the active bank does not. -/
def execLoopBankWrite (off : BitVec 25) (wide : Bool) (v : BitVec 64) (s : State) : Out :=
  let o := off.toNat
  match bankOf o with
  | none => .next s
  | some (c, b) =>
    if ¬ alignedAccess o wide then .next s
    else if s.domainOn 15 ∧ b = s.get (Reg.LOOP_MODE_ACTIVE_BANK c) then
      .next (s.raise 0x0906 (s.loopFields c ++ [(4, o)]))
    else .next (s.writeAny o wide v)

/-- R299: a write of LOOP_OPEN; in OPEN it sets slewing. -/
def execLoopOpenWrite (c : Fin 4) (v : Word) (s : State) : Out :=
  let t := s.writeWord (0x00B0002C + c * 0x1000) v
  .next (if s.domainOn 15 ∧ s.get (Reg.LOOP_MODE_STATE c) = 1 then t.put (Reg.LOOP_STATUS_SLEWING c) 1 else t)

/-- R302: a write of LOOP_PERIOD, LOOP_PHASE, LOOP_SRC or LOOP_YORG: in SAFE only. -/
def execLoopConfigWrite (off : BitVec 25) (wide : Bool) (v : BitVec 64) (s : State) : Out :=
  let o := off.toNat
  if ¬ (0x00B00000 ≤ o ∧ o < 0x00B04000 ∧ o % 0x1000 < 0x18) ∨ ¬ alignedAccess o wide then .next s
  else
    let c := (o - 0x00B00000) / 0x1000
    if s.domainOn 15 ∧ s.get (Reg.LOOP_MODE_STATE c) ≠ 0 then .next (s.raise 0x0909 (s.loopFields c ++ [(4, o)]))
    else .next (s.writeAny o wide v)

end Sys2Proof.Machine
end

