-- ==== Sys2Proof/Machine/Breakwater.lean ====
section
/-! DEFINITION. Breakwater: the protected settings, proposals and their commit, the guard port, EXPOSE_PERMIT and the
exposure enable, the anti-rollback fuses (R481 to R493). -/
namespace Sys2Proof.Machine

/-! ### The protected settings (R481) -/

/-- R481: the class of a protected register, by the first offset of its table. -/
def protectedClass (base : Nat) : Option Nat :=
  if base = 0x01300000 then some 0
  else if natMem base [0x01300004, 0x00600004, 0x00600100] then some 1
  else if natMem base [0x01300008, 0x0130000C] then some 2
  else if base = 0x01300010 then some 3
  else if natMem base [0x00808000, 0x00808004, 0x00809000, 0x0080B000] then some 4
  else if base = 0x00610000 then some 5
  else if natMem base [defectBase, 0x00D00018, 0x00D0001C, 0x00D00020, 0x00D00024] then some 6
  else if natMem base [0x00D01000, 0x00D00030] then some 7
  else if base = 0x00200020 then some 8
  else if base = 0x01300014 then some 9
  else none

/-- The bits of a register's named fields, or of its RW-BW fields alone. -/
def fieldMask (r : RegRow) (bwOnly : Bool) : BitVec 32 :=
  r.fields.foldl (fun m f =>
    if bwOnly ∧ f.access ≠ .bw then m else m ||| (((onesMask f.width) <<< f.lo).setWidth 32)) 0

/-! ### The image (R482) -/

/-- The four-byte values of a list of bytes, n of them. -/
def wordsOf : Nat → List Byte → List Nat
  | 0, _ => []
  | n + 1, l => leNat (l.take 4) :: wordsOf n (l.drop 4)

/-- R482: the words that an image's records set, as offset and value; none where the records do not fill it exactly. -/
def imageRecords : Nat → List Byte → Option (List (Nat × Nat))
  | 0, l => if l.isEmpty then some [] else none
  | n + 1, l =>
    let off := fieldAt l 0 4
    let count := fieldAt l 4 4
    if l.length < 8 ∨ off % 4 ≠ 0 ∨ count < 1 ∨ 16384 < count ∨ l.length < 8 + 4 * count then none
    else
      let here := (wordsOf count (l.drop 8)).mapIdx fun i v => (canonOffset (off + 4 * i), v)
      (imageRecords n (l.drop (8 + 4 * count))).map (here ++ ·)

/-- R482: a word of a proposal names an RW-BW register, with its reserved bits 0. -/
def protectedWord (p : Nat × Nat) : Bool :=
  match findRow p.1 with
  | none => false
  | some (r, _, _) =>
    (protectedClass r.base).isSome && decide (BitVec.ofNat 32 p.2 &&& ~~~(fieldMask r false) = 0)

/-- R482: the words of an image in the right form, under the next SEQ. -/
def State.imageWords (s : State) (image : List Byte) : Option (List (Nat × Nat)) :=
  let n := fieldAt image 8 4
  if fieldAt image 0 4 ≠ 0x52505742 ∨ fieldAt image 4 4 ≠ (s.get Reg.BWT_SEQ_COMMITTED + 1) % 2 ^ 32 ∨
      n < 1 ∨ 65536 < n ∨ fieldAt image 12 4 ≠ image.length ∨ (image.drop 16).take 16 ≠ List.replicate 16 0 then none
  else
    match imageRecords n (image.drop 32) with
    | some l => if l.all protectedWord && decide (l.map fun p => p.1).Nodup then some l else none
    | none => none

/-- The class of a word of a proposal. -/
def wordClass (p : Nat × Nat) : Option Nat := (findRow p.1).bind fun r => protectedClass r.1.base

/-- The classes of a proposal, as CLASSES shows them. -/
def classesOf (words : List (Nat × Nat)) : Nat :=
  (List.range 10).foldl (fun m k => m + (if words.any fun p => decide (wordClass p = some k) then 2 ^ k else 0)) 0

/-- R488: a register file with a proposal's values committed. -/
def committed (rf : RegFile) (words : List (Nat × Nat)) : RegFile :=
  words.foldl (fun rf p =>
    match findRow p.1 with
    | none => rf
    | some (r, _, _) =>
      let m := fieldMask r true
      rfSetWord rf p.1 ((rfWord rf p.1 &&& ~~~m) ||| (BitVec.ofNat 32 p.2 &&& m))) rf

/-! ### Checks (R481, R484) -/

/-- A proposal names a register of a table. -/
def names (words : List (Nat × Nat)) (base : Nat) : Bool :=
  words.any fun p => ((findRow p.1).map fun r => decide (r.1.base = base)).getD false

/-- R484: the first curve whose greatest on-time leaves the dose window. -/
def windowFault (rf : RegFile) : Bool :=
  (List.range 8).any fun n =>
    let t := roundHalfUp ((3 * curveEntry rf n 15 * rfGet rf Reg.CCH_DWELL_SLOT : Nat) : Int) 64
    decide ((rfGet rf Reg.BWT_DOSE_WIN_MAX_ON : Int) < t)

/-- The event of an owning unit: its code and payload. -/
abbrev UnitEvent := Nat × List (Nat × Nat)

/-- R183, R484: the failures of a DOSE proposal. -/
def State.doseFaults (s : State) (rf : RegFile) (cls : Nat) : List (Option UnitEvent) :=
  let dose (f : List (Nat × Nat)) : Option UnitEvent := some (0x050D, s.cchNow ++ f)
  (if bitAt cls 1 ∧ rfGet rf Reg.CCH_DWELL_SLOT = 0 then [dose [(4, 0xFF), (4, 0xFFFFFFFF)]] else []) ++
  (if bitAt cls 1 then (curveFault rf).toList.map fun p => dose [(4, p.1), (4, p.2)] else []) ++
  (if windowFault rf then [none] else [])

/-- R35, R47, R48: the failures of a proposal that names pitches or alignment, or the head map. -/
def geometryFaults (rf : RegFile) (words : List (Nat × Nat)) : List (Option UnitEvent) :=
  let geometry := names words 0x00808000 || names words 0x00808004 || names words 0x00D01000
  (if geometry then (geometryFault rf).toList.map fun row => some (0x06E0, [(2, row)]) else []) ++
  (if names words 0x00809000 then (mapFault rf).toList.map fun triple => some (0x06E1, [(2, triple)]) else [])

/-- R481, R484: the conditions that the values a proposal would leave fail, each with the event of the owning unit where it
has one. -/
def State.proposalFaults (s : State) (words : List (Nat × Nat)) : List (Option UnitEvent) :=
  let rf := committed s.regs words
  let cls := classesOf words
  let req := rfGet rf Reg.BWT_SVN_REQ_REQ
  let rate := rfGet rf Reg.BWT_MAX_RATE_HZ
  let fails (b : Bool) : List (Option UnitEvent) := if b then [none] else []
  s.doseFaults rf cls ++
  fails (bitAt cls 2 && decide (sext 24 (rfGet rf Reg.BWT_INT_HI_LIMIT) < sext 24 (rfGet rf Reg.BWT_INT_LO_LIMIT))) ++
  fails (bitAt cls 3 && decide (rate < 1000 ∨ 2000000 < rate)) ++
  geometryFaults rf words ++
  fails (words.any fun p => decide (defectBase ≤ p.1 ∧ p.1 < defectBase + 0x10000) &&
    (List.range 16).any fun i => decide (1 < p.2 / 4 ^ i % 4)) ++
  fails (bitAt cls 6 && s.on Reg.HCR_STATUS_STUCK) ++
  fails (bitAt cls 9 && decide (req ≤ s.get Reg.BWT_SVN_REQ_OTP ∨ s.get Reg.BWT_BOOT_SVN < req ∨ 64 < req))

/-! ### Proposals (R483) -/

/-- The state of the proposal. -/
def State.proposal (s : State) : Nat := s.get Reg.BWT_PROP_STATUS_STATE

/-- SEQ of the proposal, all ones before its image is there (R456). -/
def State.proposalSeq (s : State) : Nat := if s.bwt.image.isEmpty then 0xFFFFFFFF else fieldAt s.bwt.image 4 4

/-- Digest of the proposal's image (R482). -/
def State.proposalDigest (s : State) : Nat := if s.bwt.image.isEmpty then 0 else (crc32 s.bwt.image).toNat

/-- R483: a refusal of the current proposal; a head-care handover that waited is made. -/
def State.refuseProposal (s : State) (subcode : Nat) : State :=
  let s := s.puts [(Reg.BWT_PROP_STATUS_STATE, 0), (Reg.BWT_PROP_STATUS_RESULT, subcode)]
  ((s.count (cntBwt 2)).raise 0x1203 [(4, s.proposalSeq), (1, subcode)]).tryHandover

/-- R483, BWT_SUBMIT. -/
def execBwtSubmit (s : State) : Out :=
  if s.proposal = 0 then
    .next ({ s with bwt := { s.bwt with image := [], fromHead := false } }.put Reg.BWT_PROP_STATUS_STATE 1)
  else .next (s.raise 0x1203 [(4, s.proposalSeq), (1, 8)])

/-- R483, BWT_WITHDRAW. -/
def execBwtWithdraw (s : State) : Out :=
  .next (if natMem s.proposal [1, 2, 3] then s.refuseProposal 6 else s)

/-- R483, BWT_HANDOVER. -/
def execBwtHandover (s : State) : Out := .next s.tryHandover

/-- R482, R484: CHECKING: PENDING, or a refusal. -/
def State.checkProposal (s : State) : State :=
  let s := s.put Reg.BWT_PROP_STATUS_STATE 2
  match s.imageWords s.bwt.image with
  | none => s.refuseProposal 9
  | some words =>
    let s := s.put Reg.BWT_PROP_STATUS_CLASSES (classesOf words)
    match s.proposalFaults words with
    | e :: l =>
      ((e :: l).foldl (fun (s : State) e => match e with
        | some (code, fields) => s.raise code fields
        | none => s) s).refuseProposal 1
    | [] =>
      let now := s.aon
      let s := { s.put Reg.BWT_PROP_STATUS_STATE 3 with bwt := { s.bwt with pendingAt := now } }
      s.raise 0x1201 [(4, s.proposalSeq), (4, s.proposalDigest), (4, classesOf words)]

/-- R483, PROPOSAL_LOADED: the image is copied, from host memory or as head care built it, and checked. `readOk` is false
where the read failed under R434. -/
def execProposalLoaded (readOk : Bool) (s : State) : Out :=
  if s.proposal ≠ 1 then .next s
  else if s.bwt.fromHead then .next s.checkProposal
  else if ¬ readOk then .next (s.refuseProposal 9)
  else
    let a := 8 * s.get Reg.BWT_PROP_ADDR_ADDR
    let n := leNat (s.hostMem.readBytes (a + 12) 4)
    let bytes := if 32 ≤ n ∧ n ≤ 1048576 then n else 32
    .next ({ s with bwt := { s.bwt with image := s.hostMem.readBytes a bytes } }.checkProposal)

/-! ### Commit (R488) -/

/-- R316, R489, R490: the exposure is no longer permitted: the head is blanked, a run is stopped, FLOOD is abandoned, and an
open strip whose exposure has ended waits for the host. -/
def State.permitPath (s : State) : State := (s.reblank).hardwareStop 3 false

/-- R488: the generations of R47 and R339 advance where a commit changes what they count. -/
def State.advanceGens (s : State) (old : RegFile) (words : List (Nat × Nat)) : State :=
  let changed := words.any fun p =>
    let b := ((findRow p.1).map fun r => r.1.base).getD 0
    let x := rfWord old p.1 ^^^ rfWord s.regs p.1
    (natMem b [0x00808000, 0x00808004, 0x00809000] && decide (x ≠ 0)) || (decide (b = 0x00D01000) && decide (x &&& 0xFFFF#32 ≠ 0))
  let s := if changed then s.put Reg.HLK_GEOM_GEN_COMMITTED ((s.get Reg.HLK_GEOM_GEN_COMMITTED + 1) % 65536) else s
  if bitAt (classesOf words) 7 then s.put Reg.HCR_GEN_ALIGN_GEN ((s.get Reg.HCR_GEN_ALIGN_GEN + 1) % 65536) else s

/-- R296: a commit has left no overlap of channel 3's limits in CLOSED. -/
def State.intensityLost (s old : State) : Bool :=
  let b := s.get (Reg.LOOP_MODE_ACTIVE_BANK 3)
  old.overlaps 3 b && !s.overlaps 3 b

/-- R488: the values and the commit record of a commit. -/
def State.storeWords (s : State) (words : List (Nat × Nat)) : State :=
  { s with regs := committed s.regs words }.puts
    [(Reg.BWT_SEQ_COMMITTED, s.proposalSeq), (Reg.BWT_LAST_DIGEST_DIGEST, s.proposalDigest),
     (Reg.BWT_PROP_STATUS_STATE, 0), (Reg.BWT_PROP_STATUS_RESULT, 0)]

/-- R284, R488: a lowered maximum rate replans. -/
def State.rateTakesEffect (s was : State) : State :=
  if s.get Reg.BWT_MAX_RATE_HZ < was.get Reg.BWT_MAX_RATE_HZ then s.replan else s

/-- R296, R304: new intensity limits that channel 3's bank no longer overlaps. -/
def State.intensityTakesEffect (s was : State) : State :=
  if s.intensityLost was then s.raise 0x0907 (s.loopFields 3 ++ [(4, Config.eventCode 0x0907 2)]) else s

/-- R493: a ROLLBACK commit starts the burn. -/
def State.burnStarts (s : State) (cls : Nat) : State :=
  let n := s.get Reg.BWT_SVN_REQ_REQ
  if bitAt cls 9 then { s with bwt := { s.bwt with burning := some n } } else s

/-- R490: a commit that clears the exposure enable acts as a deassertion of EXPOSE_PERMIT. -/
def State.enableTakesEffect (s was : State) : State :=
  if was.on Reg.BWT_ENABLE_EN ∧ ¬ s.on Reg.BWT_ENABLE_EN then s.permitPath else s.reblank

/-- R200, R319: the first beam whose liveness words of masks or of the defect map change from that latched by a strip; `was`
is the set-up before them. -/
def State.beamChanged (s was : State) (st : Strip) (words : List (Nat × Nat)) : Option Nat :=
  match st.latched with
  | none => none
  | some rf =>
    if words.any fun w => decide ((0x00610000 ≤ canonOffset w.1 ∧ canonOffset w.1 < 0x00618000) ∨ (0x00D10000 ≤ w.1 ∧ w.1 < 0x00D20000)) then
      (List.range 262144).find? fun i => decide (beamLive rf i = beamLive was.regs i) && decide (beamLive rf i ≠ beamLive s.regs i)
    else none

/-- R200: a commit while the open strip's exposure is interrupted makes it non-resumable where it changes a latched beam. -/
def State.strandStrip (s was : State) (words : List (Nat × Nat)) : State :=
  match s.openStrip with
  | none => s
  | some st =>
    if natMem (s.get Reg.EXP_STATE_STATE) [1, 2, 6] then
      match s.beamChanged was st words with
      | some i => s.modStrip st.slot fun x => { x with dead := x.dead.orElse fun _ => some i }
      | none => s
    else s

/-- R488: the commit of the proposal's words, and how each class takes effect. -/
def State.commitWords (s : State) (words : List (Nat × Nat)) : State :=
  let cls := classesOf words
  let t := (((s.storeWords words).strandStrip s words).advanceGens s.regs words).count (cntBwt 0)
  let t := (t.raise 0x1202 [(4, t.proposalSeq), (4, cls)]).judgeHold
  let t := (((t.rateTakesEffect s).intensityTakesEffect s).burnStarts cls).enableTakesEffect s
  t.tryHandover

/-! ### The guard port (R485 to R487) -/

/-- The bytes of a guard frame by opcode: opcode, arguments and CRC-16. -/
def guardLength (opcode : Nat) : Nat :=
  if opcode = 0x0B then 3 else if opcode = 0x0C then 9 else if opcode = 0x0D then 11 else if opcode = 0x0E then 7 else 0

/-- R485: a frame that the guard port takes: whole, with a known opcode, its CRC right and its arguments in range. -/
def guardGood (frame : List Byte) : Bool :=
  let op := fieldAt frame 0 1
  let n := guardLength op
  let len := fieldAt frame 5 2
  decide (n ≠ 0 ∧ frame.length = n ∧ setpointCrc (frame.take (n - 2)) = fieldAt frame (n - 2) 2) &&
    (decide (op ≠ 0x0C) || decide (1 ≤ len ∧ len ≤ 256))

/-- R485: a frame without effect: counted, no response, 0x1206 at most once per second. -/
def State.badGuardFrame (s : State) (frame : List Byte) : State :=
  let s := { s with bwt := { s.bwt with response := [] } }.count (cntBwt 1)
  let again := match s.bwt.frameRaisedAt with
    | some t => decide (400000000 ≤ s.aon - t)
    | none => true
  let op := if frame.isEmpty then 0xFF else fieldAt frame 0 1
  let now := s.aon
  if again then
    { s with bwt := { s.bwt with frameRaisedAt := some now } }.raise 0x1206 [(1, op), (4, s.get ⟨cntBwt 1, 0, 48⟩)]
  else s

/-- R485: a response with its CRC-16. -/
def State.respond (s : State) (body : List Byte) : State :=
  { s with bwt := { s.bwt with response := body ++ leBytes 2 (setpointCrc body) } }

/-- R485: a frame of one of the commands acts; a bad frame has no effect; another command's frame is not this one. No unit
acts while boundary scan holds them in reset (R529). -/
def State.onGuard (s : State) (frame : List Byte) (opcode : Nat) (act : State → State) : State :=
  if s.obs.heldInReset then s
  else if ¬ guardGood frame then s.badGuardFrame frame
  else if fieldAt frame 0 1 = opcode then act { s with bwt := { s.bwt with response := [] } }
  else s

/-- R485: GRD_IRQ_N, low while the state is PENDING. -/
def State.grdIrqN (s : State) : Bool := decide (s.proposal ≠ 3)

/-- R487: 100 ms in tide clocks. -/
def pendingLimit : Nat := 40000000

/-- R485: the time left in PENDING, in µs. -/
def State.remainUs (s : State) : Nat :=
  if s.proposal = 3 then (s.bwt.pendingAt + pendingLimit - s.aon) / 400 else 0

/-- R485, GRD_STATUS. -/
def execGrdStatus (frame : List Byte) (s : State) : Out :=
  .next (s.onGuard frame 0x0B fun s =>
    let permit := flag s.bwt.permit + 2 * flag (s.on Reg.BWT_ENABLE_EN) + 4 * flag (s.on Reg.HLK_STATUS_BLANK)
    s.respond (packFields [(1, s.proposal), (1, s.get Reg.BWT_PROP_STATUS_RESULT), (2, s.get Reg.BWT_PROP_STATUS_CLASSES),
      (4, fieldAt s.bwt.image 4 4), (4, s.proposalDigest), (4, s.bwt.image.length), (4, s.remainUs), (1, permit), (1, 0),
      (2, 0)]))

/-- R485, R487, GRD_READ: bytes of the PENDING image, 0 beyond its end. -/
def execGrdRead (frame : List Byte) (s : State) : Out :=
  .next (s.onGuard frame 0x0C fun s =>
    let off := fieldAt frame 1 4
    let n := fieldAt frame 5 2
    if s.proposal = 3 then s.respond (((s.bwt.image.drop off) ++ List.replicate n 0).take n) else s)

/-- R487, GRD_CONFIRM. -/
def execGrdConfirm (frame : List Byte) (s : State) : Out :=
  .next (s.onGuard frame 0x0D fun s =>
    if s.proposal ≠ 3 ∨ s.bwt.pendingAt + pendingLimit ≤ s.aon then s
    else if fieldAt frame 1 4 ≠ s.proposalSeq then s.refuseProposal 2
    else if fieldAt frame 5 4 ≠ s.proposalDigest then s.refuseProposal 3
    else
      match s.imageWords s.bwt.image with
      | some words => (s.put Reg.BWT_PROP_STATUS_STATE 4).commitWords words
      | none => s)

/-- R487, GRD_REJECT naming the SEQ. -/
def execGrdReject (frame : List Byte) (s : State) : Out :=
  .next (s.onGuard frame 0x0E fun s =>
    if s.proposal = 3 ∧ fieldAt frame 1 4 = s.proposalSeq ∧ s.aon < s.bwt.pendingAt + pendingLimit then s.refuseProposal 5
    else s)

/-- R487, PROPOSAL_EXPIRED. -/
def execProposalExpired (s : State) : Out :=
  .next (if s.proposal = 3 ∧ s.bwt.pendingAt + pendingLimit ≤ s.aon then s.refuseProposal 4 else s)

/-! ### Fuses and EXPOSE_PERMIT (R489, R493) -/

/-- R493, SVN_BURN_DONE: the value read back is the value in force; burnt fuses never revert. -/
def execSvnBurnDone (value : Fin 65) (s : State) : Out :=
  match s.bwt.burning with
  | none => .next s
  | some n =>
    if value.val < s.get Reg.BWT_SVN_REQ_OTP then .next s
    else
      let s := { s with bwt := { s.bwt with burning := none } }.put Reg.BWT_SVN_REQ_OTP value
      .next (if value.val = n then s.raise 0x1207 [(4, n)] else s.raise 0x1208 [(4, value)])

/-- R489, PERMIT_DEASSERT. During a warm reset nothing further happens, and 0x1204 waits until the firmware runs (R517). -/
def execPermitDeassert (s : State) : Out :=
  let q := s.get Reg.EXP_STATE_STATE
  let running := s.openStrip.isSome && decide (3 ≤ q ∧ q ≤ 7)
  let now := s.aon
  let s := { s with bwt := { s.bwt with permit := false, permitFellAt := some now } }.count (cntBwt 3)
  let sev := if running then 3 else 1
  match s.pwr.warm with
  | some w =>
    if w.unitsDone then .next ((s.reblank.raiseSev 0x1204 sev []).permitPath)
    else .next { s.reblank with pwr := { s.pwr with warm := some { w with permitFell := some (w.permitFell.getD sev) } } }
  | none => .next ((s.reblank.raiseSev 0x1204 sev []).permitPath)

/-- R489, PERMIT_RESTORED: 1 ms high without interruption. It releases no line by itself. -/
def execPermitRestored (s : State) : Out :=
  let early := match s.bwt.permitFellAt with
    | some t => decide (s.aon < t + 400000)
    | none => false
  if s.bwt.permit || early then .next s
  else .next ({ s with bwt := { s.bwt with permit := true } }.raise 0x1205 [])

end Sys2Proof.Machine
end

