-- ==== Sys2Proof/Machine/NetTime.lean ====
section
/-! DEFINITION. Network time: the PTP ports, the checks that decide when the clock may step, the cascade's clock, the
head-time map and telemetry (R462 to R480). -/
namespace Sys2Proof.Machine

/-! ### Ports (R462, R466, R472) -/

/-- R462, R476: PTP runs on a port: enabled, the link up, HOSTIO powered, and the device no cascade slave. -/
def State.ptpRuns (s : State) (p : Nat) : Bool :=
  s.on Reg.TIM_CTRL_EN && s.on (Reg.TIM_PORT_CFG_EN p) && s.on (Reg.TIM_PORT_STATUS_LINK p) && s.domainOn 14 && !s.isSlave

/-- R478: a port's registers show its state, its grandmaster and its filtered values. A filtered delay that the field cannot
hold shows a free value. -/
def State.showTimePort (s : State) (p : Nat) : State :=
  let t := s.timePort p
  let gm := match t.foreign.find? fun f => decide (t.master = some f.source) with
    | some f => f.gm
    | none => 0
  let s := s.puts [(Reg.TIM_PORT_STATUS_STATE p, t.state), (Reg.TIM_PORT_GM_ID p, gm)]
  match filtered t.offsets, filtered t.delays with
  | some o, some d =>
    let sat := clampInt (inNs o) (-(2 ^ 31)) (2 ^ 31 - 1)
    let x := roundHalfUp (16 * d) oneNs
    let s := s.put (Reg.TIM_PORT_MEAS_OFFSET p) (wrapInt 32 sat)
    if 0 ≤ x ∧ x < 2 ^ 32 then s.put (Reg.TIM_PORT_MEAS_DELAY p) x.toNat
    else
      let f := s.draw
      f.2.put (Reg.TIM_PORT_MEAS_DELAY p) (f.1.toNat % 2 ^ 32)
  | _, _ => s

/-- The grandmaster that a port follows. -/
def State.grandmaster (s : State) (p : Nat) : Option Nat :=
  let t := s.timePort p
  (t.foreign.find? fun f => decide (t.master = some f.source)).map (·.gm)

/-- R470: both ports serve. -/
def State.bothServe (s : State) : Bool := decide (s.get Reg.TIM_CTRL_PATH = 0) && s.serves 0 && s.serves 1

/-- R470: both ports serve and follow one grandmaster. -/
def State.twoPaths (s : State) : Bool := s.bothServe && decide (s.grandmaster 0 = s.grandmaster 1)

/-- R470, R474: 0x110B where the two grandmasters begin to differ, and 0x110A where the primary port's changes. -/
def State.watchMasters (s : State) : State :=
  let differ := s.bothServe && decide (s.grandmaster 0 ≠ s.grandmaster 1)
  let was := s.time.mismatch
  let s := { s with time := { s.time with mismatch := differ } }
  let s := if differ ∧ ¬ was then
      s.timeEvent 0x110B [(4, (s.grandmaster 0).getD 0), (4, (s.grandmaster 1).getD 0)] else s
  match s.primaryPort with
  | none => s
  | some p =>
    match s.grandmaster p with
    | none => s
    | some g =>
      let old := s.time.gm
      let s := { s with time := { s.time with gm := some g } }
      if old.any fun x => decide (x ≠ g) then s.timeEvent 0x110A [(1, p), (4, g)] else s

/-- R466, R472: the clock's state follows the ports: FREE to ACQUIRE, and the loss or return of the master. -/
def State.followPorts (s : State) : State :=
  let q := s.get Reg.TIM_STATUS_STATE
  let some' := s.on Reg.TIM_CTRL_EN && (s.serves 0 || s.serves 1)
  if s.isSlave then s
  else
    let s := s.watchMasters
    if some' then (if q = 0 then s.put Reg.TIM_STATUS_STATE 1 else s.causeClears 1)
    else if q = 1 then s.freeClock
    else if q = 2 ∨ q = 3 then s.holdover 1
    else s

/-- A port enters a PTP state. -/
def State.portBecomes (s : State) (p q : Nat) : State := (s.modTime p fun t => { t with state := q }).showTimePort p

/-- R462, R478: a port's state follows its enables and its link: DISABLED, FAULTY without a link, LISTENING once it runs. -/
def State.refreshPort (s : State) (p : Nat) : State :=
  let t := s.timePort p
  let enabled := s.on Reg.TIM_CTRL_EN && s.on (Reg.TIM_PORT_CFG_EN p) && !s.isSlave
  let q := if ¬ enabled then 3 else if ¬ s.on (Reg.TIM_PORT_STATUS_LINK p) then 2 else if t.state = 3 ∨ t.state = 2 then 4
    else t.state
  if q = t.state then s
  else
    let s := s.modTime p fun t => { t with foreign := [], master := none, held := none, sync := none, req := none, resp := none }
    s.portBecomes p q

/-- The ports follow a change of enables, and the clock follows the ports. -/
def State.refreshPorts (s : State) : State := ((s.refreshPort 0).refreshPort 1).followPorts

/-! ### Samples (R468 to R473) -/

/-- R468: the acquisition step, unless the sequencer holds it. -/
def State.acquire (s : State) : State :=
  let x := s.get Reg.EXP_STATE_STATE
  match s.primaryOffset with
  | none => s
  | some o =>
    if s.get Reg.TIM_STATUS_STATE ≠ 1 ∨ (3 ≤ x ∧ x ≤ 7) then s
    else
      let s := (s.stepClock (-o) s.nextEpoch).put Reg.TIM_STATUS_STATE s.correctedState
      s.timeEvent 0x1101 [(8, wrapInt 64 (inNs (-o)))]

/-- R473: the armed step. -/
def State.armedStepNow (s : State) : State :=
  let x := s.get Reg.EXP_STATE_STATE
  match s.primaryOffset with
  | none => s
  | some o =>
    if s.on Reg.TIM_STATUS_STEP_PENDING ∧ s.on Reg.TIM_CTRL_STEP_ARM ∧ (x = 1 ∨ x = 2) then
      let old := s.get Reg.TIM_STATUS_EPOCH
      let s := s.stepClock (-o) s.nextEpoch
      let s := s.puts [(Reg.TIM_STATUS_STEP_PENDING, 0), (Reg.TIM_CTRL_STEP_ARM, 0), (Reg.TIM_STATUS_STATE, 2),
        (Reg.TIM_STATUS_HOLD_CAUSE, 0)]
      let s := { s with time := { s.time with causes := [] } }
      (s.timeEvent 0x1109 [(4, old), (8, wrapInt 64 (inNs (-o)))]).followPorts
    else s

/-- R470: the check of the two paths at an update of the primary port. -/
def State.checkPaths (s : State) : State :=
  match filtered (s.timePort 0).offsets, filtered (s.timePort 1).offsets with
  | some a, some b =>
    if ¬ s.twoPaths then { s with time := { s.time with asymRun := 0, agreeSince := none } }
    else
      let d : Int := (a - b).natAbs
      let limit : Int := s.get Reg.TIM_LIM0_ASYM_NS
      let now := s.tide
      let run := if limit * oneNs < d then s.time.asymRun + 1 else 0
      let since := if 2 * d ≤ limit * oneNs then some (s.time.agreeSince.getD now) else none
      let s := { s with time := { s.time with asymRun := run, agreeSince := since } }
      if 8 ≤ run ∧ ¬ natMem 2 s.time.causes then
        (s.holdover 2).timeEvent 0x1105 [(4, wrapInt 32 (inNs a)), (4, wrapInt 32 (inNs b))]
      else
        match since with
        | some t => if t + 400000000 * s.get Reg.TIM_LIM1_CONFIRM_S ≤ now then s.causeClears 2 else s
        | none => s
  | _, _ => { s with time := { s.time with asymRun := 0, agreeSince := none } }

/-- R473: the jump of the master ends before the step is made. -/
def State.jumpEnds (s : State) : State :=
  (s.puts [(Reg.TIM_STATUS_STEP_PENDING, 0), (Reg.TIM_CTRL_STEP_ARM, 0)]).causeClears 4

/-- R468 to R474: an update of the primary port's filtered values. -/
def State.primaryUpdate (s : State) : State :=
  match s.primaryOffset with
  | none => s
  | some o =>
    if s.get Reg.TIM_STATUS_STATE = 1 then s.acquire
    else
      let s := if s.isSlave then s else s.checkPaths
      let q := s.get Reg.TIM_STATUS_STATE
      if q = 2 then (if s.withinStep o then s.servo o else s.stepPending o)
      else if q = 4 then s.servo o
      else if q = 3 then
        (if ¬ natMem 4 s.time.causes then s.leaveHoldover
         else if s.withinStep o then s.jumpEnds
         else s.stepPending o)
      else s

/-- R471: a delay in 1/16 ns, as events show it (log entry 41). -/
def delayField (d : Int) : Nat × Nat := (4, wrapInt 32 (roundHalfUp (16 * d) oneNs))

/-- R471: a sample of the one path that serves makes its delay suspect. -/
def State.suspect (s : State) (p : Nat) (delay : Int) : Bool :=
  let q := s.get Reg.TIM_STATUS_STATE
  match filtered (s.timePort p).delays with
  | none => false
  | some d =>
    (decide (q = 2) || decide (q = 3)) && !s.isSlave && !s.twoPaths && decide (s.primaryPort = some p) &&
      decide ((s.get Reg.TIM_LIM0_DELAY_STEP_NS : Int) * oneNs < ((delay - d).natAbs : Int))

/-- R468, R471, R520: an offset sample of a port. -/
def State.offsetSample (s : State) (p : Nat) (offset delay : Int) : State :=
  let now := s.tide
  let shown := wrapInt 32 (clampInt (inNs offset) (-(2 ^ 31)) (2 ^ 31 - 1))
  let name := if p < 2 then p else 0xFF
  let s := s.trace 14 (packFields [(1, name), (1, (s.timePort p).state), (2, 0), (4, shown)])
  let collecting := match s.time.confirm with
    | some c => decide (c.1 = p)
    | none => false
  if collecting then
    let c := s.time.confirm.map fun (c : Nat × Nat × List (Int × Int)) => (c.1, c.2.1, c.2.2 ++ [(offset, delay)])
    { s with time := { s.time with confirm := c } }
  else if s.time.confirm.isNone ∧ s.suspect p delay then
    let old := (filtered (s.timePort p).delays).getD 0
    let s := { s with time := { s.time with confirm := some (p, now, [(offset, delay)]) } }
    (s.holdover 3).timeEvent 0x1106 [delayField old, delayField delay]
  else
    let s := s.modTime p fun t => { t with offsets := lastNine t.offsets offset, delays := lastNine t.delays delay }
    let s := if p < 2 then s.showTimePort p else s
    if s.primaryPort = some p then s.primaryUpdate else s

/-- R471: CONFIRM_S seconds of a suspect delay end. -/
def execDelayConfirmEnd (s : State) : Out :=
  match s.time.confirm with
  | none => .next s
  | some (p, since, samples) =>
    if s.tide < since + 400000000 * s.get Reg.TIM_LIM1_CONFIRM_S then .next s
    else
      let s := { s with time := { s.time with confirm := none } }
      let accepted := match middle (samples.map fun (x : Int × Int) => x.2), filtered (s.timePort p).delays with
        | some m, some d =>
          if (s.get Reg.TIM_LIM0_DELAY_STEP_NS : Int) * oneNs < ((m - d).natAbs : Int) then some m else none
        | _, _ => none
      let s := match accepted with
        | none => s
        | some m =>
          let keep := samples.drop (samples.length - 9)
          let s := s.modTime p fun t => { t with offsets := keep.map fun (x : Int × Int) => x.1, delays := keep.map fun (x : Int × Int) => x.2 }
          (s.showTimePort p).timeEvent 0x1107 [delayField m]
      .next (s.causeClears 3)

/-- R474: 0x110C, once for a holdover longer than HOLD_MAX_S. -/
def execHoldLong (s : State) : Out :=
  let age := s.tide - s.time.holdSince
  if s.get Reg.TIM_STATUS_STATE = 3 ∧ ¬ s.time.longRaised ∧ 400000000 * s.get Reg.TIM_LIM1_HOLD_MAX_S < age then
    let s := { s with time := { s.time with longRaised := true } }
    .next (s.timeEvent 0x110C [(4, age / 400000000)])
  else .next s

/-- R473: an armed step is made in SLACK or NEAP. -/
def execArmedStep (s : State) : Out := .next s.armedStepNow

/-- R468: a held acquisition step is made at entry to SLACK. -/
def execAcquisitionStepHeld (s : State) : Out := .next s.acquire

/-! ### Messages (R462 to R464, R468) -/

/-- R464: the receive timestamp of an arrival within this tide clock: the local clock less TIM_PORT_LAT.RX, to 0.25 ns. -/
def State.rxStamp (s : State) (p phase : Nat) : Int :=
  let t := s.clock.units + (phase : Int) * 2 ^ 30 - (s.get (Reg.TIM_PORT_LAT_RX p) : Int) * 2 ^ 28
  idiv t (2 ^ 30) * 2 ^ 30

/-- R464: the transmit timestamp of a departure within this tide clock: the local clock plus TIM_PORT_LAT.TX, to 0.25 ns. -/
def State.txStamp (s : State) (p phase : Nat) : Int :=
  let t := s.clock.units + (phase : Int) * 2 ^ 30 + (s.get (Reg.TIM_PORT_LAT_TX p) : Int) * 2 ^ 28
  idiv t (2 ^ 30) * 2 ^ 30

/-- A time stamp of a message. -/
def stampTime (t : PtpStamp) : Int := ((t.sec.toNat : Int) * 1000000000 + t.ns.toNat) * oneNs

/-- A correctionField, 2^-16 ns. -/
def correctionOf (m : PtpMsg) : Int := m.corr.toInt * 2 ^ 16

/-- R462: the tag of a message suits its port: the configured VID where it has one, and one where VLAN_EN asks for it. -/
def State.tagFits (s : State) (m : PtpMsg) : Bool :=
  match m.tag with
  | some v => decide (v.toNat = s.get (Reg.TIM_PORT_CFG_VID m.port))
  | none => !s.on (Reg.TIM_PORT_CFG_VLAN_EN m.port)

/-- R463: what a port does with a message: ignores and counts it, or acts on it. -/
def State.onPtp (s : State) (m : PtpMsg) (act : State → State) : State :=
  let p := m.port.val
  if ¬ s.ptpRuns p ∨ ¬ s.tagFits m then s
  else if m.domain.toNat ≠ s.get (Reg.TIM_PORT_CFG_DOMAIN p) ∨ m.sdo ≠ 0 ∨ ¬ m.valid ∨ m.secured then s.count (cntTim 3)
  else act s

/-- The port identity of this device's port (R462). -/
def State.portIdentity (s : State) (p : Nat) : Nat := s.get Reg.TIM_CLOCK_ID_ID * 65536 + p + 1

/-- The message comes from the port's master. -/
def State.fromMaster (s : State) (m : PtpMsg) : Bool := decide ((s.timePort m.port).master = some m.source.toNat)

/-- R466: a whole Sync of the master: the port that was UNCALIBRATED is SLAVE (log entry 43). -/
def State.wholeSync (s : State) (p : Nat) (origin receipt corr : Int) (epoch : Nat) : State :=
  let s := s.modTime p fun t => { t with held := none, sync := some (origin, receipt, corr, epoch) }
  if (s.timePort p).state = 7 then (s.portBecomes p 9).followPorts else s

/-- R464, PTP_SYNC. -/
def execPtpSync (m : PtpMsg) (twoStep : Bool) (origin : PtpStamp) (s : State) : Out :=
  .next (s.onPtp m fun s =>
    let p := m.port.val
    let s := s.count (cntTim 0)
    let at' := s.rxStamp p m.phase
    let epoch := s.get Reg.TIM_STATUS_EPOCH
    if ¬ s.fromMaster m then s
    else if twoStep then s.modTime p fun t => { t with held := some (m.seq.toNat, at', epoch, correctionOf m) }
    else s.wholeSync p (stampTime origin) at' (correctionOf m) epoch)

/-- R462, PTP_FOLLOW_UP: matched by sequenceId. -/
def execPtpFollowUp (m : PtpMsg) (origin : PtpStamp) (s : State) : Out :=
  .next (s.onPtp m fun s =>
    let p := m.port.val
    let s := s.count (cntTim 1)
    match (s.timePort p).held with
    | some (seq, at', epoch, corr) =>
      if s.fromMaster m ∧ seq = m.seq.toNat then s.wholeSync p (stampTime origin) at' (corr + correctionOf m) epoch else s
    | none => s)

/-- R468: an exchange of a port completes with the round trip less its corrections: counted, and in SLAVE an offset sample,
where its timestamps are of the present epoch (R467). -/
def State.exchange (s : State) (p : Nat) (delay : Int) (epoch : Nat) : State :=
  let s := s.count (cntTim 2)
  match (s.timePort p).sync with
  | some (t1, t2, corr, e) =>
    let now := s.get Reg.TIM_STATUS_EPOCH
    if (s.timePort p).state = 9 ∧ e = now ∧ epoch = now then s.offsetSample p (timeDiff t2 t1 - delay - corr) delay else s
  | none => s

/-- R468, PTP_DELAY_RESP: a completed end-to-end exchange. -/
def execPtpDelayResp (m : PtpMsg) (requester : BitVec 80) (receipt : PtpStamp) (s : State) : Out :=
  .next (s.onPtp m fun s =>
    let p := m.port.val
    let t := s.timePort p
    match t.req, t.sync with
    | some (seq, t3, epoch), some (t1, t2, corr, _) =>
      if s.on (Reg.TIM_PORT_CFG_P2P p) ∨ ¬ s.fromMaster m ∨ requester.toNat ≠ s.portIdentity p ∨ seq ≠ m.seq.toNat then s
      else
        let s := s.modTime p fun t => { t with req := none }
        s.exchange p (idiv (timeDiff t2 t3 + timeDiff (stampTime receipt) t1 - corr - correctionOf m) 2) epoch
    | _, _ => s)

/-- R464, PTP_PDELAY_REQ: received and answered, `turn` quarter nanoseconds later at the balls. -/
def execPtpPdelayReq (m : PtpMsg) (turn : Word) (s : State) : Out :=
  .next (s.onPtp m fun s =>
    let p := m.port.val
    let t2 := s.rxStamp p m.phase
    let t3 := s.txStamp p m.phase + (turn.toNat : Int) * 2 ^ 30
    let last := if s.on (Reg.TIM_PORT_CFG_ONE_STEP p) then t3 - t2 else t3
    if s.on (Reg.TIM_PORT_CFG_P2P p) then
      s.modTime p fun t => { t with answer := some (m.source.toNat, m.seq.toNat, t2, last) }
    else s)

/-- R464, PTP_PDELAY_RESP: a two-step response to this port's request. -/
def execPtpPdelayResp (m : PtpMsg) (requester : BitVec 80) (twoStep : Bool) (receipt : PtpStamp) (s : State) : Out :=
  .next (s.onPtp m fun s =>
    let p := m.port.val
    let t4 := s.rxStamp p m.phase
    match (s.timePort p).req with
    | some (seq, _, _) =>
      if ¬ s.on (Reg.TIM_PORT_CFG_P2P p) ∨ ¬ twoStep ∨ requester.toNat ≠ s.portIdentity p ∨ seq ≠ m.seq.toNat then s
      else s.modTime p fun t => { t with resp := some (stampTime receipt, t4, correctionOf m) }
    | none => s)

/-- R464, R468, PTP_PDELAY_RESP_FOLLOW_UP: a completed peer-to-peer exchange. -/
def execPtpPdelayRespFollowUp (m : PtpMsg) (requester : BitVec 80) (origin : PtpStamp) (s : State) : Out :=
  .next (s.onPtp m fun s =>
    let p := m.port.val
    let t := s.timePort p
    match t.req, t.resp with
    | some (seq, t1, epoch), some (t2, t4, corr) =>
      if requester.toNat ≠ s.portIdentity p ∨ seq ≠ m.seq.toNat then s
      else
        let s := s.modTime p fun t => { t with req := none, resp := none }
        s.exchange p (idiv (timeDiff t2 (stampTime origin) + timeDiff t4 t1 - corr - correctionOf m) 2) epoch
    | _, _ => s)

/-! ### Master selection (R462, R472) -/

/-- A list of numbers is lower than another, the first difference deciding. -/
def lowerRank : List Nat → List Nat → Bool
  | x :: xs, y :: ys => decide (x < y) || (decide (x = y) && lowerRank xs ys)
  | _, _ => false

/-- The order in which foreign masters are ranked (clause 9 of IEEE 1588-2019, log entry 44). -/
def ForeignMaster.order (f : ForeignMaster) : List Nat := f.rank ++ [f.gm, f.steps, f.source]

/-- 2^n seconds in tide clocks. -/
def logInterval (n : Int) : Nat := if 0 ≤ n then 400000000 * 2 ^ n.toNat else 400000000 / 2 ^ n.natAbs

/-- A foreign master is qualified: two Announce messages within four of its intervals, and fewer than 255 steps removed. -/
def ForeignMaster.qualified (f : ForeignMaster) (now : Nat) : Bool :=
  match f.seen with
  | [_, t] => decide (now ≤ t + 4 * logInterval f.interval) && decide (f.steps < 255)
  | _ => false

/-- The best of a port's qualified foreign masters. -/
def bestMaster (now : Nat) (l : List ForeignMaster) : Option ForeignMaster :=
  (l.filter fun f => f.qualified now).foldl (fun (b : Option ForeignMaster) f =>
    match b with
    | none => some f
    | some g => if lowerRank f.order g.order then some f else b) none

/-- R462: a port follows the best of its foreign masters. A port already in SLAVE stays there on a new master (R480). -/
def State.selectMaster (s : State) (p : Nat) : State :=
  let t := s.timePort p
  match bestMaster s.tide t.foreign with
  | none => s
  | some f =>
    if t.master = some f.source then s.showTimePort p
    else
      let s := s.modTime p fun t =>
        { t with master := some f.source, held := none, sync := none, req := none, resp := none }
      if t.state = 9 then s.showTimePort p else s.portBecomes p 7

/-- R462, PTP_ANNOUNCE. -/
def execPtpAnnounce (m : PtpMsg) (a : PtpAnnounce) (s : State) : Out :=
  .next (s.onPtp m fun s =>
    let p := m.port.val
    let now := s.tide
    let seen := match (s.timePort p).foreign.find? fun f => decide (f.source = m.source.toNat) with
      | some f => f.seen.take 1
      | none => []
    let f : ForeignMaster :=
      { source := m.source.toNat,
        rank := [a.priority1.toNat, a.clockClass.toNat, a.accuracy.toNat, a.variance.toNat, a.priority2.toNat],
        gm := a.grandmaster.toNat, steps := a.steps.toNat, interval := a.interval.toInt, seen := now :: seen }
    let s := s.modTime p fun t =>
      { t with foreign := (t.foreign.filter fun g => decide (g.source ≠ f.source)) ++ [f] }
    (s.selectMaster p).followPorts)

/-- R472, ANNOUNCE_TIMEOUT: the port leaves SLAVE. -/
def execAnnounceTimeout (p : Fin 2) (s : State) : Out :=
  let t := s.timePort p
  if t.state = 9 ∨ t.state = 7 then
    let s := s.modTime p fun t =>
      { t with foreign := t.foreign.filter fun f => decide (t.master ≠ some f.source),
               master := none, held := none, sync := none, req := none, resp := none }
    .next ((s.portBecomes p 4).followPorts)
  else .next s

/-- R464, PTP_DELAY_REQ_SEND: a Delay_Req, or a Pdelay_Req, leaves with the next sequenceId. -/
def execPtpDelayReqSend (p : Fin 2) (phase : Fin 10) (s : State) : Out :=
  let t := s.timePort p
  let at' := s.txStamp p phase
  let epoch := s.get Reg.TIM_STATUS_EPOCH
  if s.ptpRuns p ∧ (s.on (Reg.TIM_PORT_CFG_P2P p) ∨ t.state = 7 ∨ t.state = 9) then
    .next (s.modTime p fun t =>
      { t with reqSeq := (t.reqSeq + 1) % 65536, req := some (t.reqSeq, at', epoch), resp := none })
  else .next s

/-! ### Cascade (R476) -/

/-- R476: the slave's clock at a head time, by its present increment. -/
def State.clockAt (s : State) (head : Nat) : Int :=
  s.clock.units - idiv (signedDiff 64 s.headTime head * s.inc) 25

/-- R476: the slave takes the master's time at a head time as a sample of zero delay, or its epoch by a step. -/
def State.cascadeSample (s : State) (head : Nat) (master : Int) (epoch : Nat) : State :=
  let q := s.get Reg.TIM_STATUS_STATE
  let offset := timeDiff (s.clockAt head) master
  let s := if q = 0 then s.put Reg.TIM_STATUS_STATE 1 else s
  let s := s.causeClears 5
  let old := s.get Reg.TIM_STATUS_EPOCH
  if (q = 3 ∨ q = 4) ∧ old ≠ epoch then
    let s := s.stepClock (-offset) epoch
    s.timeEvent 0x1109 [(4, old), (8, wrapInt 64 (inNs (-offset)))]
  else s.offsetSample 2 offset 0

/-- R476, TIME_MESSAGE. -/
def execTimeMessage (m : LinkMsg) (head : BitVec 64) (stamp : PtpStamp) (epoch : BitVec 16) (s : State) : Out :=
  .next (s.onMessage m 3 fun s =>
    if s.isSlave then s.cascadeSample head.toNat (stampTime stamp) epoch.toNat else s)

/-! ### The map and telemetry (R475, R477) -/

/-- R475: every 400,000 tide clocks head time and the local clock are latched together; a master sends them to its slaves
(R371). -/
def execTimeMapLatch (s : State) : Out :=
  if s.tide < s.time.mapAt then .next s
  else
    let c := s.clock
    let e := s.get Reg.TIM_STATUS_EPOCH
    let s := { s with time := { s.time with mapAt := (s.tide / 400000 + 1) * 400000 } }
    let s := s.puts [(Reg.TIM_MAP_HEAD_H, s.headTime), (Reg.TIM_MAP_PTP_SEC, c.sec % 2 ^ 34), (Reg.TIM_MAP_PTP_NS, c.ns),
      (Reg.TIM_MAP_AUX_EPOCH, e), (Reg.TIM_MAP_AUX_SEC_HI, c.sec / 2 ^ 34)]
    .next (if s.isSlave then s else s.sendAll 3 [s.headTime, c.sec, c.ns, e])

/-- R475: a 64-bit read of TIM_MAP_HEAD freezes the other two. -/
def execTimMapHeadRead (s : State) : Out :=
  if ¬ s.domainOn 14 then .next (s.domainOffAccess 0x01200030) else
  let held := (rfPair s.regs Reg.TIM_MAP_PTP_SEC.off, rfWord s.regs Reg.TIM_MAP_AUX_EPOCH.off)
  .next { s with time := { s.time with mapHeld := some held } }

/-- R465: a read of TIM_NOW gives the local clock and latches TIM_NOW_HI. -/
def execTimNowRead (s : State) : Out :=
  if ¬ s.domainOn 14 then .next (s.domainOffAccess 0x01200008) else
  let c := s.clock
  .next (s.puts [(Reg.TIM_NOW_SEC, c.sec % 2 ^ 34), (Reg.TIM_NOW_NS, c.ns),
    (Reg.TIM_NOW_HI_EPOCH, s.get Reg.TIM_STATUS_EPOCH), (Reg.TIM_NOW_HI_SEC_HI, c.sec / 2 ^ 34)])

/-- R477: a datagram of up to 32 records is sent, once 32 wait or 1 ms after the first. -/
def execTelemetrySend (p : Fin 2) (s : State) : Out :=
  let t := s.timePort p
  let n := min 32 t.records.length
  let due := decide (32 ≤ t.records.length) || decide (t.recordsAt + 400000 ≤ s.tide)
  let now := s.tide
  if t.records.isEmpty ∨ ¬ due ∨ ¬ s.on (Reg.TIM_PORT_STATUS_LINK p) ∨ ¬ s.telemetryOn p then .next s
  else
    let bytes := leBytes 2 t.datagramSeq ++ leBytes 2 n ++ (t.records.take n).flatten
    let s := s.modTime p fun t =>
      { t with records := t.records.drop n, recordsAt := now, datagramSeq := (t.datagramSeq + 1) % 65536, datagram := bytes }
    .next (s.count (cntTim 6))

/-! ### Links and registers (R462, R470, R473, R478, R480) -/

/-- R480, ETH_LINK_CHANGE. -/
def execEthLinkChange (p : Fin 2) (up : Bool) (s : State) : Out :=
  if s.on (Reg.TIM_PORT_STATUS_LINK p) = up then .next s
  else
    let s := s.put (Reg.TIM_PORT_STATUS_LINK p) (flag up)
    .next ((s.timeEvent 0x110D [(1, p), (4, flag up)]).refreshPorts)

/-- R473: STEP_ARM is set where a step is pending; in SLACK and NEAP the step is made at once. -/
def State.stepArm (s : State) : State :=
  if s.on Reg.TIM_STATUS_STEP_PENDING then (s.put Reg.TIM_CTRL_STEP_ARM 1).armedStepNow else s

/-- R473, TIM_STEP_ARM. -/
def execTimStepArm (s : State) : Out := .next (if s.domainOn 14 then s.stepArm else s.domainOffAccess 0x01200000)

/-- R462, R468, R470, R472: a write of TIM_CTRL. -/
def execTimCtrlWrite (v : Word) (s : State) : Out :=
  let x := v.toNat
  let path := bitsOf x 5 4
  if ¬ s.domainOn 14 then .next (s.domainOffAccess 0x01200000)
  else
    let s := if path = 3 then s else s.put Reg.TIM_CTRL_PATH path
    let s := s.put Reg.TIM_CTRL_PRIMARY (bitsOf x 3 3)
    let s := if ¬ bitAt x 0 then s.put Reg.TIM_CTRL_EN 0
      else if s.get Reg.TIM_CLOCK_ID_ID = 0 then s else s.put Reg.TIM_CTRL_EN 1
    let s := s.refreshPorts
    let s := if path = 1 ∨ path = 2 then s.causeClears 2 else s
    .next (if bitAt x 31 then s.stepArm else s)

/-- R478: a write of an enabled port's TIM_PORT_CFG: EN alone follows it; other changes are refused with 0x110E. -/
def State.enabledPortCfg (s : State) (p : Nat) (v : Word) : State :=
  let off := 0x01200100 + p * 0x100
  let would := (s.writeWord off v).put (Reg.TIM_PORT_CFG_EN p) 1
  let refused := decide (rfWord would.regs off ≠ rfWord s.regs off)
  let s := s.put (Reg.TIM_PORT_CFG_EN p) (bitsOf v.toNat 31 31)
  if refused then s.timeEvent 0x110E [(4, off)] else s

/-- R433, R478: a refused write of a port's page raises 0x110E for each register that it covers. -/
def State.refusePortWrite (s : State) (o : Nat) (wide : Bool) : State :=
  let one (s : State) (o : Nat) : State := if (findRow o).isSome then s.timeEvent 0x110E [(4, o)] else s
  match findRow o with
  | some (r, _, _) => if wide ∧ ¬ r.wide then one (one s o) (o + 4) else one s o
  | none => if wide then one s (o + 4) else s

/-- R478: a write to a port's page. -/
def execTimPortCfgWrite (off : BitVec 25) (wide : Bool) (v : BitVec 64) (s : State) : Out :=
  let o := off.toNat
  let p := (o - 0x01200100) / 0x100
  if o < 0x01200100 ∨ 0x01200300 ≤ o ∨ ¬ alignedAccess o wide then .next s
  else if ¬ s.domainOn 14 then .next (s.domainOffAccess o)
  else if o % 0x100 = 0 then
    if s.on (Reg.TIM_PORT_CFG_EN p) then .next ((s.enabledPortCfg p (v.setWidth 32)).refreshPorts)
    else .next ((s.writeAny o wide v).refreshPorts)
  else if s.on (Reg.TIM_PORT_CFG_EN p) then .next (s.refusePortWrite o wide)
  else .next (s.writeAny o wide v)

/-- R480: after a warm reset the clock and its servo run on: the ports' registers show them again (log entry 45). -/
def State.timeWarm (s : State) : State := (s.showTimePort 0).showTimePort 1

end Sys2Proof.Machine
end

