-- ==== Sys2Proof/Machine/Abort.lean ====
section
/-! DEFINITION. The abort of all host work, and D3hot (R457, R461). -/
namespace Sys2Proof.Machine

/-- A job ends ABORTED. -/
def State.abortJob (s : State) (aseq : Nat) : State := s.complete aseq 4 0x1008 []

/-- A list of jobs ends ABORTED. -/
def State.abortAll (s : State) (l : List Nat) : State := l.foldl (fun (s : State) a => s.abortJob a) s

/-- R316, R457: the open strip: a prompt stop with CAUSE 15, or FLOOD is abandoned; one that is interrupted waits for the host. -/
def State.abortOpenStrip (s : State) : State :=
  match s.openStrip with
  | none => s
  | some st =>
    if s.firing then s.promptStop 15
    else if s.get Reg.EXP_STATE_STATE = 3 then
      let waits := if st.fresh then [st.aseq] else []
      { s with host := { s.host with abortJobs := waits } }.abandonFlood (65536 + 15) .aborted
    else s.holdForHost st.slot

/-- R457: pending STOP, RESUME and END jobs. -/
def State.abortRequests (s : State) : State :=
  let l := s.seq.stopJobs ++ s.seq.endJobs ++ s.box.strips.flatMap fun (st : Strip) => st.resumeJobs
  let strips := s.box.strips.map fun (st : Strip) => { st with resumeJobs := [] }
  let s := { s with
    seq := { s.seq with stopJobs := [], endJobs := [], seamStop := false, hostBreak := none },
    box := { s.box with strips := strips } }
  s.abortAll l

/-- R457: posted strips that are not open. -/
def State.abortPosted (s : State) : State :=
  (s.box.strips.filter fun st => !st.isOpen).foldl (fun (s : State) st => s.dropPosted st 4 0x1008) s

/-- R174: the tile that the store is writing is discarded: a first render is PENDING again, and a copy of a lost tile is asked
for again. -/
def State.abortWriting (s : State) : State :=
  match s.store.held with
  | [] => s
  | h :: rest =>
    let s := { s with store := { s.store with held := rest } }
    let s := match h.isLedger, s.stripAt h.slot with
      | true, some st => s.loseTile st h.ream h.col
      | _, _ => s.modTile h.slot h.ream h.col fun t => { t with status := 0 }
    (s.showLead).grantEngines

/-- R129, R457: tile jobs are discarded; what the ledger needs is asked for anew. -/
def State.abortTiles (s : State) : State :=
  let again := (s.box.jobs.filter fun j => decide (j.kind = .ledger ∨ j.kind = .spareTest)).map fun (j : TileJob) =>
    ({ kind := j.kind, slot := j.slot, ream := j.ream, col := j.col, notVat := j.vatA, valueA := j.valueA, due := j.due,
       expect := j.expect } : WantedJob)
  ({ s with box := { s.box with jobs := [], wanted := s.box.wanted ++ again } }.showJobs).abortWriting

/-- R447, R457: LAYOUT jobs: bytes received stand. -/
def State.abortLayouts (s : State) : State :=
  let l := s.box.streams.flatMap fun (m : Stream) => m.jobs.map fun (j : LayoutJob) => j.aseq
  let streams := s.box.streams.map fun (m : Stream) => { m with jobs := [] }
  { s with box := { s.box with streams := streams } }.abortAll l

/-- R289, R457: stage moves and tables: STOP, jobs ABORTED. -/
def State.abortStage (s : State) : State :=
  let l := s.tid.job.toList ++ s.tid.reverseJob.toList ++ s.tid.heldJobs.map fun (m : MoveJob) => m.aseq
  let moving := s.tid.job.isSome
  let s := { s with tid := { s.tid with job := none, heldJobs := [] } }
  let s := if s.tid.reverseJob.isSome then { s with tid := { s.tid with reverse := none, reverseJob := none } } else s
  (if moving then s.stopProfile else s).abortAll l

/-- R344, R457: head-care runs end without result, and their jobs with 0x0B0C reason 3. -/
def State.abortHeadCare (s : State) : State :=
  let run := match s.hcr.run with
    | some r => r.job.toList
    | none => []
  let proposed := s.hcr.handover.filterMap fun (h : Nat × Option Nat) => h.2
  let l := run ++ proposed ++ s.hcr.jobs.map fun (j : HcrJob) => j.aseq
  let s := if s.hcr.run.isSome then s.stopRun else s
  let handover := s.hcr.handover.filter fun (h : Nat × Option Nat) => h.2.isNone
  let s := if s.hcr.cal.isSome then s.put Reg.HCR_STATUS_RUN 0 else s
  let s := { s with hcr := { s.hcr with cal := none, jobs := [], handover := handover } }
  l.foldl (fun (s : State) a => (s.raise 0x0B0C [(4, a), (4, 3)]).complete a 4 0x0B0C (s.hcrDetail 0)) s

/-- R166, R174, R457: codec jobs, PAUSED ones included, end ABORTED, and their slots are free. -/
def State.abortCodec (s : State) : State :=
  let l := s.store.codec
  l.foldl (fun (s : State) c => match c.job with
    | some j => s.completeJob j 4 0x1008 []
    | none => s.abortJob c.aseq) { s with store := { s.store with codec := [] } }

/-- R457: the work of every unit. -/
def State.abortUnits (s : State) : State :=
  let s := (((s.abortOpenStrip).abortRequests).abortPosted).abortTiles
  let s := (((s.abortLayouts).abortStage).auxAbort).abortHeadCare
  (s.abortCodec).abortScans

/-- R457: every affected job has completed: ABORTING clears, 0x1008. -/
def State.endAbort (s : State) : State :=
  if s.host.abortJobs.any fun a => (s.findJob a).isSome then s
  else
    let n := s.host.abortCount
    let s := { s with host := { s.host with abortJobs := [], abortCount := 0 } }
    (s.put Reg.HST_STATUS_ABORTING 0).raise 0x1008 [(4, n)]

/-- R457: the abort of all host work. -/
def State.abortWork (s : State) : State :=
  if s.on Reg.HST_STATUS_ABORTING then s
  else
    let before := s.host.jobs.length + (s.store.codec.filter fun c => c.job.isSome).length
    let s := ({ s with host := { s.host with abortJobs := [] } }.put Reg.HST_STATUS_ABORTING 1).abortUnits
    let n := before - s.host.jobs.length + s.host.abortJobs.length
    { s with host := { s.host with abortCount := n } }

/-- R457, HST_ABORT. -/
def execHstAbort (v : Word) (s : State) : Out :=
  if ¬ s.domainOn 14 then .next (s.domainOffAccess 0x00100008)
  else .next (if v.toNat % 256 = 0xA5 then s.abortWork else s)

/-- R457, ABORT_COMPLETE. -/
def execAbortComplete (s : State) : Out := .next (if s.on Reg.HST_STATUS_ABORTING then s.endAbort else s)

/-- R461, D3HOT_ENTRY: with a strip posted or open, as HST_ABORT; records are held until D0. -/
def execD3hotEntry (s : State) : Out :=
  if s.host.d3hot then .next s
  else
    let s := { s with host := { s.host with d3hot := true } }
    .next (if s.box.strips.isEmpty then s else s.abortWork)

/-- R461, D0_ENTRY: the records held are delivered. -/
def execD0Entry (s : State) : Out :=
  if ¬ s.host.d3hot then .next s
  else
    let s := { s with host := { s.host with d3hot := false } }
    .next (if s.on Reg.HST_STATUS_LINK_UP then s.flushHeld else s)

end Sys2Proof.Machine
end

