-- ==== Sys2Proof/Machine/Codec.lean ====
section
/-! DEFINITION. Host codec jobs (R164 to R166, R453). -/
namespace Sys2Proof.Machine

/-- A codec job is queued, and a compressor lent where one is free for it. -/
def State.queueCodec (s : State) (c : CodecJob) : State :=
  ({ s with store := { s.store with codec := s.store.codec ++ [c] } }).grantEngines

/-- R417: the first poisoned byte of a DRAM range, counted from its start, with its burst. -/
def State.flawIn (s : State) (dram : Bool) (a n : Nat) : Option (Nat × Nat) :=
  if dram then (s.poisonIn a n).map fun b => (64 * b - a, b) else none

/-- R453: bytes of the size table before the chunk CRCs. -/
def sizeTableBytes (count : Nat) : Nat := 64 * ((4 * count + 63) / 64)

/-- The checks of a SEG_COMPRESS body. -/
def compressChecks (d : Desc) : List (Nat × Bool) :=
  [(40, decide (d.field 40 8 % 64 = 0)), (56, decide (1 ≤ d.field 56 4 ∧ d.field 56 4 ≤ 65536)),
   (60, decide (d.field 60 1 < 16))] ++ descReserved d 61 3

/-- R164, R453: a SEG_COMPRESS descriptor. -/
def execSegCompress (d : Desc) (s : State) : Out :=
  if d.field 0 1 ≠ 0x30 then .next s
  else .next (s.withDesc d (decide (d.field 60 1 ≠ 0)) false (compressChecks d) fun s j =>
    let n := d.field 56 4
    let sp := d.field 60 1
    let ranges := [(bitAt sp 0, d.field 16 8, 8192 * n), (bitAt sp 1, d.field 24 8, d.field 48 4),
      (bitAt sp 2 && decide (d.field 32 8 ≠ 0), d.field 32 8, d.field 52 4),
      (bitAt sp 3, d.field 40 8, sizeTableBytes n + 32 * n)]
    match s.rangeFault ranges with
    | some a => s.failRange j.aseq 4 a
    | none => s.queueCodec { aseq := j.aseq, opcode := 0x30, desc := d.bytes, input := [], outDone := 0, inDone := 0,
                             raw := false, expect := 0, context := none, paused := false })

/-- The checks of a SEG_DECOMPRESS, INFLATE or CONTINUE body. -/
def decompressChecks (d : Desc) (op : Nat) : List (Nat × Bool) :=
  let fl := d.field 40 1
  [(32, decide (op ≠ 0x31 ∨ (1 ≤ d.field 32 4 ∧ d.field 32 4 ≤ 6144))),
   (40, decide (fl < 64 ∧ (op = 0x33 ∨ fl < 16) ∧ (op = 0x31 ∨ bitAt fl 0 = false))),
   (41, decide (if op = 0x33 then d.field 41 1 < 64 else d.field 41 1 = 0))] ++ descReserved d 42 6 ++
    (if op = 0x32 then [] else descReserved d 48 8) ++ descReserved d 56 8

/-- R446: the input and output regions of a decompress descriptor. -/
def decompressRanges (b : List Byte) (newIn newOut : Bool) : List (Bool × Nat × Nat) :=
  let fl := fieldAt b 40 1
  [(bitAt fl 1 && newIn, fieldAt b 16 8, fieldAt b 32 4), (bitAt fl 2 && newOut, fieldAt b 24 8, fieldAt b 36 4)]

/-- R164, R453: SEG_DECOMPRESS and INFLATE start a host decompress job. -/
def State.startDecompress (s : State) (d : Desc) (op : Nat) (j : Job) : State :=
  match s.rangeFault (decompressRanges d.bytes true true) with
  | some a => s.failRange j.aseq 4 a
  | none =>
    let fl := d.field 40 1
    let input := s.readSpace (bitAt fl 1) (d.field 16 8) (d.field 32 4)
    s.queueCodec { aseq := j.aseq, opcode := op, desc := d.bytes, input := input, outDone := 0, inDone := 0, raw := bitAt fl 0,
                   expect := if op = 0x32 then d.field 48 8 else 0, context := none, paused := false,
                   flawed := s.flawIn (bitAt fl 1) (d.field 16 8) (d.field 32 4) }

/-- R164: a SEG_DECOMPRESS descriptor. -/
def execSegDecompress (d : Desc) (s : State) : Out :=
  if d.field 0 1 ≠ 0x31 then .next s
  else .next (s.withDesc d (decide (bitsOf (d.field 40 1) 2 1 ≠ 0)) false (decompressChecks d 0x31) fun s j =>
    s.startDecompress d 0x31 j)

/-- R164: an INFLATE descriptor. -/
def execInflate (d : Desc) (s : State) : Out :=
  if d.field 0 1 ≠ 0x32 then .next s
  else .next (s.withDesc d (decide (bitsOf (d.field 40 1) 2 1 ≠ 0)) false (decompressChecks d 0x32) fun s j =>
    s.startDecompress d 0x32 j)

/-- The paused job of a context slot. -/
def State.pausedAt (s : State) (slot : Nat) : Option CodecJob :=
  s.store.codec.find? fun c => c.paused && decide (c.context = some slot)

/-- R166, R453: a CONTINUE descriptor resumes the paused job of its slot; a free slot is BAD_DESC. -/
def execContinueJob (d : Desc) (s : State) : Out :=
  if d.field 0 1 ≠ 0x33 then .next s
  else
    let fl := d.field 40 1
    let checks := decompressChecks d 0x33 ++ [(41, (s.pausedAt (d.field 41 1)).isSome)]
    .next (s.withDesc d (decide (bitsOf fl 2 1 ≠ 0)) false checks fun s j =>
      match s.pausedAt (d.field 41 1) with
      | none => s
      | some c => match s.rangeFault (decompressRanges d.bytes (bitAt fl 4) (bitAt fl 5)) with
        | some a => s.failRange j.aseq 4 a
        | none =>
          let more := if bitAt fl 4 then s.readSpace (bitAt fl 1) (d.field 16 8) (d.field 32 4) else []
          let flaw := (s.flawIn (bitAt fl 1 && bitAt fl 4) (d.field 16 8) (d.field 32 4)).map fun p => (c.input.length + p.1, p.2)
          let c' := { c with aseq := j.aseq, desc := d.bytes, input := c.input ++ more, paused := false, context := none,
                             job := none, flawed := c.flawed.orElse fun _ => flaw }
          { s with store := { s.store with codec := s.store.codec.map fun x => if x = c then c' else x } })

/-! ### The end of a codec job -/

/-- A codec job ends: it leaves the units, its completion is written, and its engine goes to the next. -/
def State.endCodec (s : State) (c : CodecJob) (status : Nat) (detail : List Byte) : State :=
  let s := { s with store := { s.store with codec := s.store.codec.filter fun x => decide (x.aseq ≠ c.aseq) } }
  (s.complete c.aseq status (if status = 5 then 0x0F03 else 0) detail).grantEngines

/-- R166, R417: a codec job ends POISON on a flagged byte, of a burst of DRAM or one that a command names. -/
def State.endPoison (s : State) (c : CodecJob) (burst : Option Nat) (detail : List Byte) : State :=
  match burst with
  | some b => (s.consumePoison b (consumer 8)).endCodec c 5 detail
  | none => (s.consumeFlagged 8).endCodec c 5 detail

/-- The first of a poisoned byte that a command names and one that DRAM holds, with the latter's burst. -/
def firstPoison (named : Option Nat) (held : Option (Nat × Nat)) : Option (Nat × Option Nat) :=
  match named, held with
  | none, h => h.map fun p => (p.1, some p.2)
  | some n, none => some (n, none)
  | some n, some p => if n < p.1 then some (n, none) else some (p.1, some p.2)

/-- What a compress job produces: the stored forms with their offsets, the size table, the CRCs, and its first bad byte. -/
structure Compressed where
  pieces : List (Nat × List Byte)
  sizes : List Nat
  crcs : List Nat
  raws : Nat
  used : Nat
  bad : Bool
  deriving DecidableEq, Repr

/-- R155, R164: the segments of a compress job. Each stored form starts at an offset in the output stream that is a multiple of
8: what is 8-byte aligned is read as the offset, not the address (DESIGN CHOICE, log entry 58). -/
def compressAll : List Byte → Nat → Compressed → Compressed
  | _, 0, a => a
  | data, n + 1, a =>
    let seg := (data.take 8192).map (·.toNat)
    if a.bad ∨ seg.any (fun v => decide (60 < v)) then { a with bad := true }
    else
      let (raw, bytes) := storeForm seg
      let off := (a.used + 7) / 8 * 8
      compressAll (data.drop 8192) n
        { a with pieces := a.pieces ++ [(off, bytes)], sizes := a.sizes ++ [flag raw * 2 ^ 31 + bytes.length],
                 crcs := a.crcs ++ segmentCrcs seg, raws := a.raws + flag raw, used := off + bytes.length }

/-- R165: bytes of the output stream into the output region and then the chained one; those beyond both are dropped. -/
def State.writeChained (s : State) (sp out outLen chain chainLen : Nat) (p : Nat × List Byte) : State :=
  let a := p.2.take (outLen - p.1)
  let rest := p.2.drop a.length
  let s := s.writeSpace (bitAt sp 1) (out + p.1) a
  s.writeSpace (bitAt sp 2) (chain + (p.1 + a.length - outLen)) (rest.take (chainLen - (p.1 + a.length - outLen)))

/-- R165: the end of a compress job; `poison` is the first poisoned input byte. -/
def State.endCompress (s : State) (c : CodecJob) (poison : Option Nat) : State :=
  let f := fieldAt c.desc
  let count := f 56 4
  let sp := f 60 1
  let chainLen := if f 32 8 = 0 then 0 else f 52 4
  let flaw := firstPoison poison (s.flawIn (bitAt sp 0) (f 16 8) (8192 * count))
  let whole := match flaw with
    | some p => min count (p.1 / 8192)
    | none => count
  let data := s.readSpace (bitAt sp 0) (f 16 8) (8192 * count)
  let r := compressAll data whole ⟨[], [], [], 0, 0, false⟩
  let excess := decide (f 48 4 + chainLen < r.used)
  let s := r.pieces.foldl (fun s p => s.writeChained sp (f 24 8) (f 48 4) (f 32 8) chainLen p) s
  let detail := leBytes 8 (min r.used (f 48 4)) ++ leBytes 8 (min (r.used - f 48 4) chainLen) ++ leBytes 4 r.raws
  if excess then s.endCodec c 6 detail
  else if r.bad then s.endCodec c 7 detail
  else if flaw.isSome then s.endPoison c (flaw.bind (·.2)) detail
  else
    let s := s.writeSpace (bitAt sp 3) (f 40 8) (r.sizes.flatMap (leBytes 4))
    let s := s.writeSpace (bitAt sp 3) (f 40 8 + sizeTableBytes count) (r.crcs.flatMap (leBytes 4))
    s.endCodec c 0 detail

/-- The output of a decompress job over a given input, with the error that ends it. -/
def CodecJob.decode (c : CodecJob) (input : List Byte) : List Nat × Option DecodeError :=
  if c.opcode = 0x32 then
    let r := inflate c.expect input
    (r.out, r.err)
  else
    let r := decodeSegment c.raw input
    (r.out, r.err)

/-- The least count of input bytes from which a job has n output bytes, or all of them. -/
def CodecJob.usedFor (c : CodecJob) (n : Nat) : Nat :=
  if n = 0 then 0
  else ((List.range (c.input.length + 1)).find? fun k => decide (n ≤ (c.decode (c.input.take k)).1.length)).getD c.input.length

/-- The input bytes that a job whose stream has ended has consumed. -/
def CodecJob.usedAll (c : CodecJob) : Nat :=
  if c.opcode = 0x32 then (inflate c.expect c.input).used else c.usedFor 8192

/-- R166: a free context slot: of several, the lowest (DESIGN CHOICE, log entry 59). -/
def State.freeContext (s : State) : Option Nat :=
  (List.range 64).find? fun k => s.store.codec.all fun c => decide (c.context ≠ some k)

/-- The eight chunk CRCs of the chunks completed, 0 for the others (R166). -/
def doneCrcs (out : List Nat) : List Nat :=
  (List.range 8).map fun q => if 1024 * (q + 1) ≤ out.length then chunkCrc out q else 0

/-- R453: DETAIL of a decompress job: the descriptor's opcode decides its form. -/
def CodecJob.detail (c : CodecJob) (all : List Nat) (outBytes inBytes slot : Nat) : List Byte :=
  if fieldAt c.desc 0 1 = 0x31 then (doneCrcs all).flatMap (leBytes 4) ++ leBytes 2 outBytes ++ leBytes 1 slot
  else leBytes 8 outBytes ++ leBytes 8 inBytes ++ leBytes 1 slot

/-- R166: the end, the pause or the failure of a decompress job; `poison` is the first poisoned byte of its input. -/
def State.endDecompress (s : State) (c : CodecJob) (poison : Option Nat) : State :=
  let fl := fieldAt c.desc 40 1
  let flaw := firstPoison poison c.flawed
  let input := match flaw with
    | some p => c.input.take p.1
    | none => c.input
  let (all, err) := c.decode input
  let room := if fieldAt c.desc 0 1 = 0x33 ∧ ¬ bitAt fl 5 then 0 else fieldAt c.desc 36 4
  let rest := all.drop c.outDone
  let out := rest.take room
  let s := s.writeSpace (bitAt fl 2) (fieldAt c.desc 24 8) (out.map byteOf)
  let total := c.outDone + out.length
  let full := decide (room < rest.length)
  let starved := decide (err = some .truncation)
  let status :=
    if full then 8
    else if starved ∧ flaw.isSome then 5
    else if starved ∧ bitAt fl 3 then 8
    else match err with
      | some e => e.status
      | none => 0
  let used := if full then c.usedFor total else if starved then input.length else c.usedAll
  let inBytes := used - c.inDone
  if status = 8 then
    match c.context.orElse fun _ => s.freeContext with
    | some k =>
      let c' := { c with outDone := total, inDone := used, context := some k, paused := true, job := s.findJob c.aseq }
      let jobs := s.store.codec.map fun (x : CodecJob) => if x.aseq = c.aseq then c' else x
      let s := { s with store := { s.store with codec := jobs } }
      s.complete c.aseq 8 0 (c.detail (all.take total) out.length inBytes k)
    | none => s.endCodec c 6 (c.detail (all.take total) out.length inBytes 0)
  else if status = 5 then s.endPoison c (flaw.bind (·.2)) (c.detail (all.take total) out.length inBytes 0)
  else s.endCodec c status (c.detail (all.take total) out.length inBytes 0)

/-- R165, R166: a host codec job finishes, pauses or fails; a compress job needs a compressor (R31). -/
def execCodecJobEnd (aseq : Word) (poison : Option Word) (s : State) : Out :=
  let s := s.grantEngines
  match s.store.codec.find? fun c => decide (c.aseq = aseq.toNat) && !c.paused with
  | none => .next s
  | some c =>
    let p := poison.map (·.toNat)
    if c.opcode ≠ 0x30 then .next (s.endDecompress c p)
    else if c.engine then .next (s.endCompress c p)
    else .next s

end Sys2Proof.Machine
end

