-- ==== Sys2Proof/Machine/Trust.lean ====
section
/-! DEFINITION. Firmware trust (R491, R492): SHA-384, ECDSA on the curve P-384, and the check of an image of the boot flash. The
algorithms are those that R491 names: SHA-384 of FIPS 180-4 and ECDSA of FIPS 186-5. Numbers are naturals below their modulus;
`settled` has each intermediate value evaluated once. -/
namespace Sys2Proof.Machine

/-- A function of a number, at its value: nothing but the argument itself, evaluated before it is used. -/
def settled {α : Type} (n : Nat) (f : Nat → α) : α :=
  match n with
  | 0 => f 0
  | m + 1 => f (m + 1)

theorem settled_eq {α : Type} (n : Nat) (f : Nat → α) : settled n f = f n := by cases n <;> rfl

/-! ### SHA-384 -/

/-- SHA-512 family: round constants 0 to 19. -/
def shaK0 : List Nat :=
  [0x428A2F98D728AE22, 0x7137449123EF65CD, 0xB5C0FBCFEC4D3B2F, 0xE9B5DBA58189DBBC, 0x3956C25BF348B538,
   0x59F111F1B605D019, 0x923F82A4AF194F9B, 0xAB1C5ED5DA6D8118, 0xD807AA98A3030242, 0x12835B0145706FBE,
   0x243185BE4EE4B28C, 0x550C7DC3D5FFB4E2, 0x72BE5D74F27B896F, 0x80DEB1FE3B1696B1, 0x9BDC06A725C71235,
   0xC19BF174CF692694, 0xE49B69C19EF14AD2, 0xEFBE4786384F25E3, 0x0FC19DC68B8CD5B5, 0x240CA1CC77AC9C65]

/-- SHA-512 family: round constants 20 to 39. -/
def shaK1 : List Nat :=
  [0x2DE92C6F592B0275, 0x4A7484AA6EA6E483, 0x5CB0A9DCBD41FBD4, 0x76F988DA831153B5, 0x983E5152EE66DFAB,
   0xA831C66D2DB43210, 0xB00327C898FB213F, 0xBF597FC7BEEF0EE4, 0xC6E00BF33DA88FC2, 0xD5A79147930AA725,
   0x06CA6351E003826F, 0x142929670A0E6E70, 0x27B70A8546D22FFC, 0x2E1B21385C26C926, 0x4D2C6DFC5AC42AED,
   0x53380D139D95B3DF, 0x650A73548BAF63DE, 0x766A0ABB3C77B2A8, 0x81C2C92E47EDAEE6, 0x92722C851482353B]

/-- SHA-512 family: round constants 40 to 59. -/
def shaK2 : List Nat :=
  [0xA2BFE8A14CF10364, 0xA81A664BBC423001, 0xC24B8B70D0F89791, 0xC76C51A30654BE30, 0xD192E819D6EF5218,
   0xD69906245565A910, 0xF40E35855771202A, 0x106AA07032BBD1B8, 0x19A4C116B8D2D0C8, 0x1E376C085141AB53,
   0x2748774CDF8EEB99, 0x34B0BCB5E19B48A8, 0x391C0CB3C5C95A63, 0x4ED8AA4AE3418ACB, 0x5B9CCA4F7763E373,
   0x682E6FF3D6B2B8A3, 0x748F82EE5DEFB2FC, 0x78A5636F43172F60, 0x84C87814A1F0AB72, 0x8CC702081A6439EC]

/-- SHA-512 family: round constants 60 to 79. -/
def shaK3 : List Nat :=
  [0x90BEFFFA23631E28, 0xA4506CEBDE82BDE9, 0xBEF9A3F7B2C67915, 0xC67178F2E372532B, 0xCA273ECEEA26619C,
   0xD186B8C721C0C207, 0xEADA7DD6CDE0EB1E, 0xF57D4F7FEE6ED178, 0x06F067AA72176FBA, 0x0A637DC5A2C898A6,
   0x113F9804BEF90DAE, 0x1B710B35131C471B, 0x28DB77F523047D84, 0x32CAAB7B40C72493, 0x3C9EBE0A15C9BEBC,
   0x431D67C49C100D4C, 0x4CC5D4BECB3E42B6, 0x597F299CFC657E2A, 0x5FCB6FAB3AD6FAEC, 0x6C44198C4A475817]

/-- A 64-bit word rotated right. -/
def rotr64 (x n : Nat) : Nat := (x >>> n) ||| ((x <<< (64 - n)) % 2 ^ 64)

/-- The exclusive or of two rotations and a third term. -/
def mix (a b c : Nat) : Nat := (a ^^^ b) ^^^ c

/-- The message schedule: n more words before the words so far, the newest first. -/
def schedule : Nat → List Nat → List Nat
  | 0, l => l
  | n + 1, l =>
    let x := l.getD 14 0
    let y := l.getD 1 0
    let s0 := mix (rotr64 x 1) (rotr64 x 8) (x >>> 7)
    let s1 := mix (rotr64 y 19) (rotr64 y 61) (y >>> 6)
    settled ((s1 + l.getD 6 0 + s0 + l.getD 15 0) % 2 ^ 64) fun w => schedule n (w :: l)

/-- The eight working words of a hash. -/
structure ShaWords where
  a : Nat
  b : Nat
  c : Nat
  d : Nat
  e : Nat
  f : Nat
  g : Nat
  h : Nat
  deriving DecidableEq, Repr

/-- The rounds, over (constant, word) pairs. -/
def shaRounds : List (Nat × Nat) → ShaWords → ShaWords
  | [], x => x
  | p :: l, x =>
    let s1 := mix (rotr64 x.e 14) (rotr64 x.e 18) (rotr64 x.e 41)
    let ch := (x.e &&& x.f) ^^^ ((2 ^ 64 - 1 - x.e) &&& x.g)
    let s0 := mix (rotr64 x.a 28) (rotr64 x.a 34) (rotr64 x.a 39)
    let maj := mix (x.a &&& x.b) (x.a &&& x.c) (x.b &&& x.c)
    settled (x.h + s1 + ch + p.1 + p.2) fun t =>
      settled ((x.d + t) % 2 ^ 64) fun e =>
        settled ((t + s0 + maj) % 2 ^ 64) fun a => shaRounds l ⟨a, x.a, x.b, x.c, e, x.e, x.f, x.g⟩

/-- Big-endian 64-bit words, n of them. -/
def beWords : Nat → List Byte → List Nat
  | 0, _ => []
  | n + 1, l => settled (beNat (l.take 8)) fun w => w :: beWords n (l.drop 8)

/-- One block of 128 bytes. -/
def shaBlock (x : ShaWords) (block : List Byte) : ShaWords :=
  let w := (schedule 64 (beWords 16 block).reverse).reverse
  let y := shaRounds ((shaK0 ++ shaK1 ++ shaK2 ++ shaK3).zip w) x
  let sum (p q : Nat) : Nat := (p + q) % 2 ^ 64
  settled (sum x.a y.a) fun a => settled (sum x.b y.b) fun b => settled (sum x.c y.c) fun c => settled (sum x.d y.d) fun d =>
    settled (sum x.e y.e) fun e => settled (sum x.f y.f) fun f => settled (sum x.g y.g) fun g => settled (sum x.h y.h) fun h =>
      ⟨a, b, c, d, e, f, g, h⟩

/-- The blocks of a padded message, n of them. -/
def shaBlocks : Nat → List Byte → ShaWords → ShaWords
  | 0, _, x => x
  | n + 1, l, x => shaBlocks n (l.drop 128) (shaBlock x (l.take 128))

/-- A message padded to a multiple of 128 bytes: 0x80, zeros, and its length in bits in 16 bytes. -/
def shaPadded (l : List Byte) : List Byte :=
  let zeros := (239 - l.length % 128) % 128
  l ++ 0x80#8 :: (List.replicate zeros 0 ++ (leBytes 16 (8 * l.length)).reverse)

/-- The initial words of SHA-384. -/
def shaStart : ShaWords where
  a := 0xCBBB9D5DC1059ED8
  b := 0x629A292A367CD507
  c := 0x9159015A3070DD17
  d := 0x152FECD8F70E5939
  e := 0x67332667FFC00B31
  f := 0x8EB44A8768581511
  g := 0xDB0C2E0D64F98FA7
  h := 0x47B5481DBEFA4FA4

/-- SHA-384 of a message, as one big-endian number of 384 bits. -/
def sha384 (l : List Byte) : Nat :=
  let m := shaPadded l
  let x := shaBlocks (m.length / 128) m shaStart
  ((((x.a * 2 ^ 64 + x.b) * 2 ^ 64 + x.c) * 2 ^ 64 + x.d) * 2 ^ 64 + x.e) * 2 ^ 64 + x.f

/-! ### The curve P-384: y² = x³ - 3x + b modulo p -/

/-- The prime of the field. -/
def p384 : Nat := 2 ^ 384 - 2 ^ 128 - 2 ^ 96 + 2 ^ 32 - 1

/-- The order of the base point. -/
def order384 : Nat :=
  0xffffffffffffffffffffffffffffffffffffffffffffffffc7634d81f4372ddf581a0db248b0a77aecec196accc52973

/-- The coefficient b. -/
def coeffB384 : Nat :=
  0xb3312fa7e23ee7e4988e056be3f82d19181d9c6efe8141120314088f5013875ac656398d8a2ed19d2a85c8edd3ec2aef

/-- A point in Jacobian coordinates: (x/z², y/z³), and z = 0 the point at infinity. -/
structure CurvePoint where
  x : Nat
  y : Nat
  z : Nat
  deriving DecidableEq, Repr

/-- The base point. -/
def base384 : CurvePoint where
  x := 0xaa87ca22be8b05378eb1c71ef320ad746e1d3b628ba79b9859f741e082542a385502f25dbf55296c3a545e3872760ab7
  y := 0x3617de4a96262c6f5d9e98bf9292dc29f8f41dbd289a147ce9da3113b5f0b8c00a60b1ce1d7e819d7a431d7c90ea0e5f
  z := 1

/-- The point at infinity. -/
def CurvePoint.infinity : CurvePoint := ⟨1, 1, 0⟩

/-- Products and differences in the field. -/
def fieldMul (a b : Nat) : Nat := a * b % p384

/-- A difference in the field, of numbers below p. -/
def fieldSub (a b : Nat) : Nat := (a + p384 - b) % p384

/-- A point of settled coordinates. -/
def CurvePoint.mk' (x y z : Nat) : CurvePoint :=
  settled x fun x => settled y fun y => settled z fun z => ⟨x, y, z⟩

/-- Twice a point. -/
def CurvePoint.double (q : CurvePoint) : CurvePoint :=
  settled (fieldMul q.z q.z) fun zz =>
    settled (fieldMul q.y q.y) fun yy =>
      settled (fieldMul q.x yy) fun b =>
        settled (3 * fieldMul (fieldSub q.x zz) (q.x + zz) % p384) fun m =>
          settled (fieldSub (fieldMul m m) (8 * b % p384)) fun x =>
            .mk' x (fieldSub (fieldMul m (fieldSub (4 * b % p384) x)) (8 * fieldMul yy yy % p384))
              (2 * fieldMul q.y q.z % p384)

/-- The sum of two points. -/
def CurvePoint.add (q r : CurvePoint) : CurvePoint :=
  if q.z = 0 then r
  else if r.z = 0 then q
  else
    settled (fieldMul q.z q.z) fun z1 =>
      settled (fieldMul r.z r.z) fun z2 =>
        settled (fieldMul q.x z2) fun u1 =>
          settled (fieldSub (fieldMul r.x z1) u1) fun h =>
            settled (fieldMul q.y (fieldMul r.z z2)) fun s1 =>
              settled (fieldSub (fieldMul r.y (fieldMul q.z z1)) s1) fun d =>
                if h = 0 then (if d = 0 then q.double else .infinity)
                else
                  settled (fieldMul h h) fun hh =>
                    settled (fieldMul h hh) fun hhh =>
                      settled (fieldMul u1 hh) fun v =>
                        settled (fieldSub (fieldSub (fieldMul d d) hhh) (2 * v % p384)) fun x =>
                          .mk' x (fieldSub (fieldMul d (fieldSub v x)) (fieldMul s1 hhh)) (fieldMul h (fieldMul q.z r.z))

/-- The multiple of a point by the low n bits of a number. -/
def CurvePoint.times (q : CurvePoint) : Nat → Nat → CurvePoint
  | 0, _ => .infinity
  | n + 1, k =>
    let h := (q.times n (k / 2)).double
    if k % 2 = 1 then h.add q else h

/-- A power modulo m, by the low n bits of the exponent. -/
def powMod (m a : Nat) : Nat → Nat → Nat
  | 0, _ => 1
  | n + 1, k =>
    settled (powMod m a n (k / 2)) fun h => if k % 2 = 1 then h * h % m * a % m else h * h % m

/-- ECDSA on P-384: a signature (r, s) of a hash by the key at (x, y) verifies. -/
def ecdsaVerifies (x y r s hash : Nat) : Bool :=
  let n := order384
  let onCurve := decide (x < p384 ∧ y < p384 ∧
    fieldMul y y = (fieldMul x (fieldMul x x) + 3 * (p384 - x) + coeffB384) % p384)
  onCurve && decide (1 ≤ r ∧ r < n ∧ 1 ≤ s ∧ s < n) &&
    settled (powMod n s 384 (n - 2)) fun w =>
      settled (hash * w % n) fun u =>
        settled (r * w % n) fun v =>
          let q := (base384.times 384 u).add ((CurvePoint.mk x y 1).times 384 v)
          decide (q.z ≠ 0) &&
            settled (powMod p384 q.z 384 (p384 - 2)) fun zi =>
              decide (fieldMul q.x (fieldMul zi zi) % n = r)

/-! ### Images of the boot flash (R491, R492) -/

/-- R491: the header of an image, as the bytes of its slot give it. -/
def imageMagic (l : List Byte) : Nat := leNat (l.take 4)

/-- R491: VERSION. -/
def imageVersion (l : List Byte) : Nat := leNat ((l.drop 4).take 4)

/-- R491: SVN. -/
def imageSvn (l : List Byte) : Nat := leNat ((l.drop 8).take 1)

/-- R491: LENGTH, the bytes of the body. -/
def imageLength (l : List Byte) : Nat := leNat ((l.drop 12).take 4)

/-- R491: the uncompressed public key, 97 bytes. -/
def imageKey (l : List Byte) : List Byte := (l.drop 16).take 97

/-- R491: the body, after the signature. -/
def imageBody (l : List Byte) : List Byte := (l.drop 209).take (imageLength l)

/-- R491: the signature of an image verifies with its own key: over the header up to the signature, followed by the body. -/
def imageSigned (l : List Byte) : Bool :=
  let key := imageKey l
  decide (key.head? = some 4#8) &&
    ecdsaVerifies (beNat ((key.drop 1).take 48)) (beNat ((key.drop 49).take 48)) (beNat ((l.drop 113).take 48))
      (beNat ((l.drop 161).take 48)) (sha384 (l.take 113 ++ imageBody l))

/-- R491, R492: why the image of a slot is not accepted, as BWT_BOOT codes it; 0 where it is. The bytes are none where the
flash could not be read; bytes that are not there could not be read either. -/
def imageFault (keyHash otp : Nat) (slot : Option (List Byte)) : Nat :=
  match slot with
  | none => 6
  | some l =>
    if l.length < 209 then 6
    else if imageMagic l ≠ 0x57544651 then 1
    else if 16 * 2 ^ 20 - 512 < imageLength l then 2
    else if l.length < 209 + imageLength l then 6
    else if sha384 (imageKey l) ≠ keyHash then 3
    else if ¬ imageSigned l then 4
    else if imageSvn l < otp then 5
    else 0

/-- What the boot flash has given of a slot: its bytes, or none where the read has failed. -/
def readSlot (ok : Bool) (image : List Byte) : Option (List Byte) := if ok then some image else none

/-- R492: the SVN that decides which slot is tried first; 0 of a slot that could not be read (log entry 64). -/
def slotSvn (slot : Option (List Byte)) : Nat := imageSvn (slot.getD [])

end Sys2Proof.Machine
end

