-- ==== Sys2Proof/Machine/Power.lean ====
section
/-! DEFINITION. Power domains, resets and bring-up (chapter 22, R432, R458, R492, R535). -/
namespace Sys2Proof.Machine

/-! ### Domains (R497 to R500) -/

/-- R497: what a domain needs. -/
def needsOf (d : Nat) : List Nat :=
  match d with
  | 0 => []
  | 1 | 14 | 15 => [0]
  | 2 | 3 | 4 | 5 => [6]
  | 6 | 7 => [1, 12, 13]
  | 8 | 9 => [7, 15]
  | 10 | 11 => [1, 15]
  | _ => [1]

/-- The quad of a domain is in neap and the headbox wakes it (R499). -/
def State.quadWakes (s : State) (d : Nat) : Bool := decide (2 ≤ d ∧ d ≤ 5) && natMem (d - 2) s.box.wakingQuads

/-- The power-up of a domain is awaited (R497, R499). -/
def State.awaited (s : State) (d : Nat) : Bool := bitAt s.pwr.requested d || s.quadWakes d

/-- The power-up of a domain has ended. -/
def State.endRequest (s : State) (d : Nat) : State :=
  { s with
    pwr := { s.pwr with requested := setBit s.pwr.requested d false },
    box := { s.box with wakingQuads := s.box.wakingQuads.filter fun q => decide (q + 2 ≠ d) } }

/-- R503: the PLLs of a domain lock with its power-up; R258: the tide clock counts from it. -/
def State.lockPlls (s : State) (d : Nat) : State :=
  match d with
  | 1 => s.put Reg.PWR_CLK_STATUS_CORE_CTL 1
  | 12 => s.put Reg.PWR_CLK_STATUS_DRAM0 1
  | 13 => s.put Reg.PWR_CLK_STATUS_DRAM1 1
  | 14 => s.puts [(Reg.PWR_CLK_STATUS_PCIE, 1), (Reg.PWR_CLK_STATUS_ETH, 1)]
  | 15 => { s with tide := 0 }.put Reg.PWR_CLK_STATUS_TIDE 1
  | _ => s

/-- R197, R498: a domain's units accept work. -/
def State.domainUp (s : State) (d : Nat) : State :=
  let wakes := s.quadWakes d
  let fresh := !s.domainOn d
  let now := s.aon
  let s := s.endRequest d
  let s := if d = 8 ∨ d = 9 then s.restartCouch (d - 8) else s.powerUp d
  let s := if fresh then s.lockPlls d else s
  let s := if fresh ∧ (d = 12 ∨ d = 13) ∧ s.domainOn 12 ∧ s.domainOn 13 then s.startTraining else s
  if 2 ≤ d ∧ d ≤ 5 then
    let s := { s with pwr := { s.pwr with busyAt := listSet s.pwr.busyAt (d - 2) now } }
    ((if wakes then s.count (cntPwr 0) else s).showVats).showJobs
  else s

/-- A domain has come up at the present time. -/
def State.domainRises (s : State) (d : Nat) : State :=
  let t := s.domainUp d
  { t with pwr := { t.pwr with upAt := s.aon } }

/-- R502: the place of a domain in the order in which NEAP powers the domains down. -/
def neapPlace (d : Nat) : Nat :=
  if d = 10 ∨ d = 11 then 0 else if d = 8 ∨ d = 9 then 1 else if 2 ≤ d ∧ d ≤ 5 then 2 else if d = 6 then 3 else 4

/-- R502: on a wake the domains come up in the reverse order. -/
def State.wakeTurn (s : State) (d : Nat) : Bool :=
  !s.seq.waking || neapDomains.all fun e => decide (neapPlace e ≤ neapPlace d) || !bitAt s.pwr.requested e

/-- R536: a quad's wake starts no less than 10 µs after another domain's power-up. -/
def State.quadTurn (s : State) (d : Nat) : Bool := !decide (2 ≤ d ∧ d ≤ 5) || decide (s.pwr.upAt + 4000 ≤ s.aon)

/-- R497, R502, R536: DOMAIN_POWER_UP, once every domain that it needs is up. -/
def execDomainPowerUp (d : Fin 16) (s : State) : Out :=
  .next (if s.awaited d ∧ (needsOf d).all s.domainOn ∧ s.wakeTurn d ∧ s.quadTurn d then s.domainRises d else s)

/-! ### Protective reset (R504, R511, R512) -/

/-- The bits of PWR_RESET_CAUSE, and one of them set. -/
def causeBits : Field := ⟨0x01400010, 0, 8⟩

/-- R515: a reset's cause is recorded. -/
def State.setCause (s : State) (bit : Nat) : State := s.put causeBits (setBit (s.get causeBits) bit true)

/-- The stage stops, and what waits for it is dropped. -/
def State.haltStage (s : State) : State :=
  { s.stopProfile with tid := { s.stopProfile.tid with reverse := none, reverseJob := none, job := none, heldJobs := [] } }

/-- R511: the protective reset, with the bit of its cause, the event after the following bring-up, and whether the tide
clock still runs. -/
def State.protect (s : State) (bit : Option Nat) (code : Nat) (payload : List (Nat × Nat)) (tideRuns : Bool) : State :=
  let s := match bit with
    | some b => s.setCause b
    | none => s
  let first := !s.pwr.protective
  let s := { s with pwr := { s.pwr with
    protective := true, thermal := s.pwr.thermal || decide (bit = some 5), later := s.pwr.later ++ [(code, payload)] } }
  let runs := tideRuns && s.domainOn 15
  if s.pwr.aonOnly then s
  else if ¬ runs then (s.reblank).aonAlone
  else if first then
    let now := s.tide
    let s := { s with pwr := { s.pwr with stopBy := now + 800000000, warm := none } }
    let s := (s.haltStage).reblank
    if s.get Reg.TID_PRF_STATUS_STATE = 0 then s.aonAlone else s
  else s

/-- R504: REF_LOST: every clock stops with the reference. -/
def execRefLost (s : State) : Out :=
  .next (if s.on Reg.PWR_CLK_STATUS_REF then (s.put Reg.PWR_CLK_STATUS_REF 0).protect (some 6) 0x1303 [] false else s)

/-- The bit of a PLL in PWR_CLK_STATUS (R504, R515). -/
def pllBit (pll : Nat) : Field := ⟨0x01400008, pll, 1⟩

/-- R504: PLL_UNLOCK of the core and CTL, tide or a DRAM PLL. -/
def execPllUnlock (pll : Fin 9) (s : State) : Out :=
  .next (if natMem pll.val [1, 2, 5, 6] ∧ s.on (pllBit pll) then
    (s.put (pllBit pll) 0).protect (some 6) 0x1304 [(4, pll)] (decide (pll.val ≠ 2)) else s)

/-- R500: a domain's supply is not in tolerance within 100 µs of its power-up request. -/
def State.domainFails (s : State) (d : Nat) : State :=
  let before := (s.vatsOf 0).length
  let spares := (s.vatsOf 1).length
  let s := (s.endRequest d).powerFault d
  if 2 ≤ d ∧ d ≤ 5 then
    let s := (((s.showVats).showJobs).raise 0x1305 [(4, d)])
    s.poolEvents 0xFF before spares
  else if d = 8 ∨ d = 9 then (s.raise 0x1305 [(4, d)]).couchDomainLost (d - 8)
  else if d = 10 ∨ d = 11 then
    let s := ((List.range 64).map (fun i => 64 * (d - 10) + i)).foldl (fun (s : State) n => s.chainTo n 0) s
    s.raise 0x1305 [(4, d)]
  else s.protect none 0x1305 [(4, d)] true

/-- R500: DOMAIN_POWER_FAULT. -/
def execDomainPowerFault (d : Fin 16) (s : State) : Out := .next (if s.awaited d then s.domainFails d else s)

/-- R499: the quad is awake, and none of its vats has had a job for IDLE_US. -/
def State.quadIdle (s : State) (q : Nat) : Bool :=
  s.on Reg.PWR_QUAD_CTRL_NEAP_EN && s.domainOn (2 + q) && s.box.jobs.all (fun j => decide (j.vat / 4 ≠ q)) &&
    decide (s.pwr.busyAt.getD q 0 + 400 * s.get Reg.PWR_QUAD_CTRL_IDLE_US ≤ s.aon)

/-- R499: QUAD_NEAP_ENTER. -/
def execQuadNeapEnter (q : Fin 4) (s : State) : Out :=
  .next (if s.quadIdle q then ((s.powerDown (2 + q)).showJobs).count (cntPwr 1) else s)

/-! ### Cold reset (R14, R506, R513) -/

/-- What a driver holds is its own, and outlasts the device's resets. -/
def Driver.own (d : Driver) : Driver :=
  { positioned := d.positioned, dstate := d.dstate, added := d.added, latches := d.latches, factors := d.factors,
    slotT := d.slotT, curve := d.curve, gotFactors := d.gotFactors, gotCurve := d.gotCurve, taps := d.taps,
    nextTaps := d.nextTaps, lastCseq := d.lastCseq, serial := d.serial }

/-- The registers that a cold reset leaves (R493, R515, the strap of R363, the reference). -/
def coldKeeps : List Field :=
  [causeBits, Reg.PWR_DIE_TEMP_PEAK, Reg.BWT_SVN_REQ_OTP, Reg.CSC_STATUS_SLAVE, Reg.PWR_CLK_STATUS_REF]

/-- R14: the machine as reset leaves it, but for what a cold reset does not reach. What lies outside the device, its pins and fuses, the
always-on oscillator's time and the events that R511 keeps for the following bring-up stand, as does a protective reset whose
cause has not cleared. -/
def State.coldState (s : State) : State :=
  let r := State.reset
  let drivers := s.link.drivers.map fun (d : Driver) => d.own
  { r with
    pending := s.pending, hostMem := s.hostMem, aon := s.aon, free := s.free,
    host := { r.host with perstLow := s.host.perstLow },
    link := { r.link with drivers := drivers },
    obs := { r.obs with
      bscanEnable := s.obs.bscanEnable, scan := s.obs.scan, dataReg := s.obs.dataReg, heldInReset := s.obs.heldInReset },
    bwt := { r.bwt with permit := s.bwt.permit, permitFellAt := s.bwt.permitFellAt },
    pwr := { r.pwr with ok := s.pwr.ok, okAt := s.pwr.okAt, step1 := s.pwr.step1, later := s.pwr.later,
                        protective := s.pwr.protective, thermal := s.pwr.thermal, aonOnly := s.pwr.protective, keyHash := s.pwr.keyHash } }

/-- R14: a cold reset. -/
def State.coldReset (s : State) : State := s.coldState.puts (coldKeeps.map fun f => (f, s.get f))

/-- R513: step 2 starts once step 1 is done and PERST_N is high; HOSTIO is powered at the end of step 1. R511: not before the
cause of a protective reset has cleared. -/
def State.startBoot (s : State) : State :=
  if s.pwr.ok && s.pwr.step1 && !s.host.perstLow && !s.obs.heldInReset && !s.pwr.protective then
    let now := s.aon
    ({ s with pwr := { s.pwr with bootAt := now } }.requestDomains [1, 14]).put Reg.PWR_BRINGUP_STEP 2
  else s

/-- R14, R515: PERST_N_ASSERT: a cold reset with cause PERST. -/
def execPerstNAssert (s : State) : Out :=
  .next (if s.host.perstLow then s
    else { s with host := { s.host with perstLow := true } }.setCause 1 |>.coldReset)

/-- R432: PERST_N_DEASSERT. -/
def execPerstNDeassert (s : State) : Out :=
  .next (if s.host.perstLow then ({ s with host := { s.host with perstLow := false } }).startBoot else s)

/-- R432: CONFIG_SPACE_READY. -/
def execConfigSpaceReady (s : State) : Out :=
  .next (if s.domainOn 14 ∧ ¬ s.host.perstLow then { s with host := { s.host with configReady := true } } else s)

/-- R513: PWR_OK_RISE: step 1 starts; the absence of the reference shows as FAIL_CODE 0x0001. -/
def execPwrOkRise (s : State) : Out :=
  if s.pwr.ok then .next s
  else
    let now := s.aon
    let s := { s with pwr := { s.pwr with ok := true, okAt := now } }.put Reg.PWR_BRINGUP_STEP 1
    .next (if s.on Reg.PWR_CLK_STATUS_REF then s
      else s.puts [(Reg.PWR_BRINGUP_FAIL_STEP, 1), (Reg.PWR_BRINGUP_FAIL_CODE, 1)])

/-- R513: REFERENCE_PRESENT: in step 1 the reference appears, and OTP is read and checked. -/
def execReferencePresent (otpOk : Bool) (s : State) : Out :=
  if s.pwr.ok ∧ ¬ s.pwr.step1 ∧ s.get Reg.PWR_BRINGUP_STEP = 1 ∧ s.get Reg.PWR_BRINGUP_FAIL_CODE ≠ 2 then
    let s := s.puts [(Reg.PWR_CLK_STATUS_REF, 1), (Reg.PWR_BRINGUP_FAIL_STEP, 0), (Reg.PWR_BRINGUP_FAIL_CODE, 0)]
    if otpOk then .next ({ s with pwr := { s.pwr with step1 := true } }.startBoot)
    else .next (s.puts [(Reg.PWR_BRINGUP_FAIL_STEP, 1), (Reg.PWR_BRINGUP_FAIL_CODE, 2)])
  else .next s

/-- R506: PWR_OK falls, or a brown-out acts as its fall: a cold reset with cause SUPPLY. -/
def State.supplyLost (s : State) : State :=
  if s.pwr.ok then ({ s with pwr := { s.pwr with ok := false, step1 := false } }.setCause 7).coldReset else s

/-- R506: PWR_OK_FALL. -/
def execPwrOkFall (s : State) : Out := .next s.supplyLost

/-- R535: BROWN_OUT. -/
def execBrownOut (s : State) : Out := .next s.supplyLost

/-- R511: the die is below `PWR_TEMP_WARN.WARN` - 8 °C by its last reading. -/
def State.cool (s : State) : Bool :=
  decide (s.get Reg.PWR_DIE_TEMP_TEMP ≠ 0x8000 ∧ s.getS Reg.PWR_DIE_TEMP_TEMP < s.getS Reg.PWR_TEMP_WARN_WARN - 128)

/-- R511: PROTECTIVE_RESET_END: the cause has cleared, and a cold reset starts. -/
def execProtectiveResetEnd (s : State) : Out :=
  if s.pwr.protective && s.pwr.aonOnly && (!s.pwr.thermal || s.cool) then
    let s := (s.put Reg.PWR_CLK_STATUS_REF 1).coldReset
    .next { s with pwr := { s.pwr with protective := false, thermal := false, aonOnly := false } }.startBoot
  else .next s

/-- R511: PROTECTIVE_STOP_LIMIT: 2 s have passed without REST. -/
def execProtectiveStopLimit (s : State) : Out :=
  .next (if s.pwr.protective ∧ ¬ s.pwr.aonOnly ∧ s.pwr.stopBy ≤ s.tide then s.aonAlone else s)

/-- R512: what the next reading is judged against. -/
def State.noteTemp (s : State) (hot warned : Bool) : State := { s with pwr := { s.pwr with hot := hot, warned := warned } }

/-- R512: DIE_TEMP_READ, every 1 ms. -/
def execDieTempRead (temp : BitVec 16) (s : State) : Out :=
  let t := temp.toInt
  let peak := max t (s.getS Reg.PWR_DIE_TEMP_PEAK)
  let s := s.puts [(Reg.PWR_DIE_TEMP_TEMP, temp.toNat), (Reg.PWR_DIE_TEMP_PEAK, wrapInt 16 peak)]
  let warn := s.getS Reg.PWR_TEMP_WARN_WARN
  let trips := decide (s.getS Reg.PWR_TEMP_WARN_TRIP ≤ t)
  let held := trips && s.pwr.hot
  let warned := s.pwr.warned
  let s := s.noteTemp trips (if warn ≤ t then true else if t ≤ warn - 32 then false else warned)
  let s := if warn ≤ t ∧ ¬ warned then (s.raise 0x1308 [(2, temp.toNat)]).count (cntPwr 6) else s
  .next (if held ∧ ¬ s.pwr.thermal then s.protect (some 5) 0x1309 [(2, wrapInt 16 peak)] true else s)

/-! ### Boot (R492) -/

/-- R513: a step fails: PWR_BRINGUP shows the first failure, and from step 4 on the device raises 0x1302. -/
def State.stepFails (s : State) (step code : Nat) : State :=
  let s := if s.get Reg.PWR_BRINGUP_FAIL_STEP = 0 then
      s.puts [(Reg.PWR_BRINGUP_FAIL_STEP, step), (Reg.PWR_BRINGUP_FAIL_CODE, code)] else s
  if 4 ≤ step then s.raise 0x1302 [(1, step), (4, code)] else s

/-- R513: the domains that steps 4 and 5 power up. -/
def bringupDomains : List Nat := [12, 13, 15, 10, 11, 7, 8, 9, 6]

/-- R492, R513: firmware runs from an image: steps 4, 5 and 6 start. -/
def State.firmwareRuns (s : State) (slot svn : Nat) : State :=
  let now := s.aon
  let s := s.puts [(Reg.BWT_BOOT_SLOT, slot), (Reg.BWT_BOOT_SVN, svn), (Reg.HST_STATUS_READY, 1), (Reg.PWR_BRINGUP_STEP, 4)]
  ({ s with pwr := { s.pwr with runAt := now } }).requestDomains bringupDomains

/-- R492: no image is accepted: CTL is powered down, and the device stays in OFF. -/
def State.noImage (s : State) : State := (s.aonAlone).stepFails 2 3

/-- R492, R494: the reason field of a slot in BWT_BOOT. -/
def failField (slot : Nat) : Field := if slot = 0 then Reg.BWT_BOOT_FAIL0 else Reg.BWT_BOOT_FAIL1

/-- R491, R492: BOOT_IMAGE_VERIFY, with the bytes of each slot of the boot flash, none where it could not be read: the slot with
the higher SVN first, then the other. -/
def execBootImageVerify (read0 read1 : Bool) (image0 image1 : List Byte) (s : State) : Out :=
  if s.get Reg.PWR_BRINGUP_STEP ≠ 2 ∨ s.domainOn 1 = false ∨ s.on Reg.HST_STATUS_READY then .next s
  else
    let slot0 := readSlot read0 image0
    let slot1 := readSlot read1 image1
    let image (k : Nat) : Option (List Byte) := if k = 0 then slot0 else slot1
    let fault (k : Nat) : Nat := imageFault s.pwr.keyHash (s.get Reg.BWT_SVN_REQ_OTP) (image k)
    let first := if slotSvn slot0 < slotSvn slot1 then 1 else 0
    if fault first = 0 then .next (s.firmwareRuns first (slotSvn (image first)))
    else
      let s := s.put (failField first) (fault first)
      let other := 1 - first
      if fault other = 0 then
        .next ((s.firmwareRuns other (slotSvn (image other))).raise 0x1209 [(4, other), (4, fault first)])
      else .next (s.put (failField other) (fault other)).noImage

/-! ### The end of bring-up (R508, R513) -/

/-- A chain's training has ended: READY, FAILED, or DOWN with its domain failed (R500). -/
def State.chainEnded (s : State) (n : Nat) : Bool :=
  let q := s.chainState n
  decide (q = 7 ∨ q = 8) || (decide (q = 0) && !s.domainOn (10 + n / 64))

/-- A port's training has ended, or the port is not in use. -/
def State.portEnded (s : State) (p : Nat) : Bool := !s.portEnabled p || decide (s.portState p = 6 ∨ s.portState p = 7)

/-- R508, R513: step 4 is part of this bring-up: not after a warm reset, but for one that came before step 8. -/
def State.bringsDram (s : State) : Bool := s.pwr.warm.all fun w => w.early

/-- R513: steps 4 to 6 have ended. -/
def State.stepsEnded (s : State) : Bool :=
  (!s.bringsDram || s.on Reg.MEM_STATUS_READY ||
    (s.on Reg.MEM_STATUS_FAILED && !s.on Reg.MEM_STATUS_TRAINING)) &&
  (List.range 128).all s.chainEnded && (List.range 3).all s.portEnded

/-- The steps of 4 to 6 that have failed, with the code of each one's event. -/
def State.failedSteps (s : State) : List (Nat × Nat) :=
  (if s.bringsDram ∧ ¬ s.on Reg.MEM_STATUS_READY then [(4, 0x0E02)] else []) ++
  (if (List.range 128).any (fun n => decide (s.chainState n ≠ 7)) then [(5, 0x0602)] else []) ++
  (if (List.range 3).any (fun p => s.portEnabled p && decide (s.portState p = 7)) then [(6, 0x0D02)] else [])

/-- R513, step 8: couch A ACTIVE, couch B STANDBY; a couch whose domain has failed stays LOST. -/
def State.firstRoles (s : State) : State :=
  let lostA := decide (s.couchRole 0 = 2)
  let s := if lostA then s else s.setCouch 0 0
  if s.couchRole 1 = 2 then s else s.setCouch 1 (if lostA then 0 else 1)

/-- The sequencer enters SLACK from OFF, and DONE is set. -/
def State.doneInSlack (s : State) : State := (s.slackEntry).puts [(Reg.PWR_BRINGUP_DONE, 1), (Reg.PWR_BRINGUP_STEP, 8)]

/-- R511, R513: the end of bring-up: 0x1301, then the events of the protective resets before it. -/
def State.endBringup (s : State) (failed : Nat) : State :=
  let later := s.pwr.later
  let ms := (s.aon - s.pwr.okAt) / 400000
  let s := ((({ s with pwr := { s.pwr with later := [] } }.firstRoles).doneInSlack).judgeHold).raise 0x1301
    [(4, ms), (4, failed)]
  later.foldl (fun (s : State) (e : Nat × List (Nat × Nat)) => s.raise e.1 e.2) s

/-- R508: the end of a warm reset; one that came before step 8 of bring-up ends that bring-up too. -/
def State.endWarm (s : State) (w : WarmReset) (failed : Nat) : State :=
  let s := { s with pwr := { s.pwr with warm := none } }
  (if w.early then s.endBringup failed else s.doneInSlack).raise 0x130A
    [(1, Config.eventCode 0x130A w.bit), (1, w.slot), (6, w.finalBreak)]

/-- R508, R513: BRINGUP_DONE. -/
def execBringupDone (s : State) : Out :=
  let running := decide (s.get Reg.PWR_BRINGUP_STEP = 4 ∨ s.get Reg.PWR_BRINGUP_STEP = 5) && s.on Reg.HST_STATUS_READY
  if running && decide (s.get Reg.EXP_STATE_STATE = 0 ∧ s.pwr.requested = 0) && !s.pwr.protective && s.stepsEnded then
    let failed := s.failedSteps
    let s := failed.foldl (fun (s : State) (p : Nat × Nat) => s.stepFails p.1 p.2) s
    match s.pwr.warm with
    | some w => .next (s.endWarm w failed.length)
    | none => .next (s.endBringup failed.length)
  else .next s

/-- R513: the cause of a chain's failure at the limit of step 5, by the state it is in (R225). -/
def chainLimitCause (q : Nat) : Nat := if q ≤ 1 then 1 else if q ≤ 4 then q else q + 1

/-- R513: 500 ms of steps 5 and 6 have passed: chains and ports still in training fail. -/
def State.trainingLimit (s : State) : State :=
  let s := (List.range 128).foldl (fun (s : State) n =>
    if s.chainEnded n then s else s.trainFail n (chainLimitCause (s.chainState n))) s
  (List.range 3).foldl (fun (s : State) p =>
    let q := s.portState p
    if s.portEnabled p ∧ 1 ≤ q ∧ q ≤ 5 then s.portFails p q else s) s

/-- R513: BRINGUP_STEP_LIMIT: 1 s of step 2, or 500 ms of steps 5 and 6. -/
def execBringupStepLimit (s : State) : Out :=
  let step := s.get Reg.PWR_BRINGUP_STEP
  if step = 2 ∧ s.pwr.bootAt + 400000000 ≤ s.aon ∧ ¬ s.pwr.aonOnly then .next s.noImage
  else if (step = 4 ∨ step = 5) ∧ s.pwr.runAt + 200000000 ≤ s.aon then .next s.trainingLimit
  else .next s

/-! ### Warm reset (R508, R509, R510) -/

/-- R508: the strip between FLOOD and RESUME, and the first tick whose committed instant lies at least 200 ns from now. -/
def State.finalBreak (s : State) : Option (Strip × Nat) :=
  match s.openStrip with
  | none => none
  | some st =>
    let q := s.get Reg.EXP_STATE_STATE
    if q < 3 then none
    else
      some (st, tickIndex (s.ledgerAt st.slot).tS (s.firstTickFrom 2000))

/-- R508, step 1, with the bit of the cause, the cores' address and whether they consumed poison (R510). -/
def State.startWarm (s : State) (bit addr : Nat) (poison : Bool) : State :=
  if ¬ s.on Reg.HST_STATUS_READY ∨ s.pwr.warm.isSome ∨ s.pwr.protective then s
  else
    let slot := s.openSlot
    let found := s.finalBreak
    let s := match found with
      | some (st, index) => s.modLedger st.slot fun l => { l with finalBreak := some index }
      | none => s
    let index := match found with
      | some p => p.2
      | none => 2 ^ 48 - 1
    let early := !s.on Reg.PWR_BRINGUP_DONE
    let w : WarmReset :=
      { bit := bit, slot := slot, finalBreak := index, address := addr, early := early, poison := poison }
    ({ s.setCause bit with pwr := { s.pwr with warm := some w } }.haltStage).reblank

/-- R458: HST_RESET. -/
def execHstReset (v : Word) (s : State) : Out :=
  if ¬ s.domainOn 14 then .next (s.domainOffAccess 0x0010000C)
  else .next (if v.toNat % 256 = 0x5A then s.startWarm 2 0 false else s)

/-- R510: WATCHDOG_EXPIRE. -/
def execWatchdogExpire (s : State) : Out := .next (s.startWarm 4 0 false)

/-- R417, R510: LOCKSTEP_FAULT, with the core's address: the outputs differ, or the cores consume a poisoned byte. -/
def execLockstepFault (f : Lockstep) (s : State) : Out := .next (s.startWarm 3 f.addr.toNat f.poison)

/-- R458: the host side: jobs, queued records and held writes are discarded without completion. -/
def State.warmHost (s : State) : State :=
  { s with host := { s.host with
    jobs := [], events := List.replicate 8 EventRing.reset, heldWrites := [], retries := [], abortJobs := [], abortCount := 0 } }

/-- R509: every strip ends, its slots and blocks released, with no mark appended. -/
def State.warmStrips (s : State) : State :=
  let strips := s.box.strips
  let n (slot : Nat) : Nat := (s.store.slots.filter fun (m : ReamSlot) => decide (m.stripSlot = slot)).length
  let s := strips.foldl (fun (s : State) (st : Strip) => s.modLedger st.slot fun (l : StripLedger) =>
    { l with state := 3, released := l.released + n st.slot }) s
  let s := strips.foldl (fun (s : State) (st : Strip) => s.forgetStrip st.slot) s
  { s with
    box := { s.box with streams := List.replicate 16 Stream.closed, jobs := [], wanted := [], wakingQuads := [] },
    store := { StoreState.reset with ledger := s.store.ledger, ledgerPoison := s.store.ledgerPoison } }

/-- R509: head link, lanes, couches and head care. -/
def State.warmHead (s : State) : State :=
  let was := s
  let drivers := s.link.drivers.map fun (d : Driver) => d.own
  let roles := if s.couch.neapRoles.isEmpty then [0, 1].map s.couchRole else s.couch.neapRoles
  let couch : CouchState := { hostOff := s.couch.hostOff, passedAt := s.couch.passedAt, noCouchRaised := s.couch.noCouchRaised }
  let hcr : HcrState := { unmeasured := s.hcr.unmeasured, lastFull := s.hcr.lastFull }
  let s := { s with link := { drivers := drivers }, lanes := {}, couch := couch, hcr := hcr }
  let back := was.couch.neapBack
  [0, 1].foldl (fun (s : State) n => if bitAt back n then s.backFromOff n else s.setCouch n (roles.getD n 3)) s

/-- R509: the tide unit: its inputs, their estimates and its position stand. -/
def State.warmTide (s : State) : State :=
  let t := s.tid
  { s with tid := { ({} : TideState) with
    lastEdge := t.lastEdge, samples := t.samples, missRun := t.missRun, missRaised := t.missRaised,
    svcRef := t.svcRef, monRef := t.monRef, edges := t.edges, quads := t.quads, tLast := t.tLast, pos := t.pos,
    placed := t.placed, stepAt := t.stepAt, spSeq := t.spSeq, spFrame := t.spFrame, spAt := t.spAt,
    portSamples := t.portSamples } }

/-- R528: an entry of the host buffer. -/
def snapEntry (e : Nat × Bool × Nat) : List Byte :=
  leBytes 4 e.1 ++ leBytes 1 (flag e.2.1) ++ leBytes 3 0 ++ leBytes 8 e.2.2

/-- R532: a warm reset ends a snapshot: a free number of its entries have been written, and no end entry. -/
def State.cutSnapshot (s : State) : State :=
  if s.on Reg.OBS_STATUS_SNAP_BUSY ∧ s.on Reg.HST_STATUS_LINK_UP ∧ ¬ s.host.d3hot then
    let (x, s) := s.draw
    s.writeHost (64 * s.get Reg.OBS_SNAP_ADDR_ADDR) ((s.obs.snapshot.take (x.toNat % 2385)).flatMap snapEntry)
  else s

/-- R509: the sequencer, the cascade, the held scans and the snapshot restart. -/
def State.warmRest (s : State) : State :=
  let s := s.cutSnapshot
  { s with seq := {}, csc := {}, mem := { s.mem with scans := [] }, obs := { s.obs with snapshot := [] } }

/-- R509: the units' state that no register holds. -/
def State.warmState (s : State) : State :=
  let s := if s.isSlave ∧ s.portState 0 = 6 then s.timeLinkLost else s
  ((((s.warmHost).warmStrips).warmHead).warmTide).warmRest

/-- Whether a warm reset leaves a register word as it stands: what the units that R508 and R509 leave alone show, or what
lies outside the device. -/
def warmKeeps (off : Nat) : Bool :=
  natMem off [0x00100004, 0x00600040, 0x00700040, 0x0080A004, 0x00900000, 0x0090000C, 0x00F00004, 0x0100000C, 0x01000010,
    0x01000014, 0x01100004, 0x01100008, 0x0110000C, 0x01100010, 0x01200134, 0x01200234, 0x01400000, 0x01400008, 0x01400010,
    0x01400014, 0x0150001C, 0x01500038] ||
  decide ((0x01000100 ≤ off ∧ off < 0x01000300) ∨ (0x01001000 ≤ off ∧ off < 0x01002000) ∨
    (0x01100040 ≤ off ∧ off < 0x01100070) ∨ (0x01300000 ≤ off ∧ off < 0x01310000) ∨
    (0x00E00020 ≤ off ∧ off < 0x00E03000 ∧ (off % 0x1000 = 0x20 ∨ off % 0x1000 = 0x24 ∨ off % 0x1000 = 0x28 ∨
      off % 0x1000 = 0x2C ∨ off % 0x1000 = 0x50)))

/-- R14, R509: the registers take their warm values. -/
def State.warmRegs (s : State) : State :=
  (s.rewordRegs FieldRow.afterWarm (fun o => !warmKeeps o)).puts ([(Reg.HST_STATUS_ABORTING, 0), (Reg.HST_STATUS_JOBS, 0), (Reg.OBS_STATUS_SNAP_BUSY, 0), (Reg.PWR_BRINGUP_STEP, 5)] ++
    (List.range 3).flatMap fun n => [(Reg.AUX_STATUS_FAULT_CAUSE n, 0), (Reg.AUX_STATUS_DEFERRED n, 0)])

/-- R509: what the registers show of the state after the reset. -/
def State.warmShow (s : State) : State :=
  let s := (((s.showVats).showJobs).showStore).showProfiles
  (((((s.noOpenStrip).showChains).showPorts).auxWarm).timeWarm).showConfig

/-- R509, R516: loops to SAFE, a pending proposal refused, the fault's event, and the counter of the reset. -/
def State.warmEvents (s : State) (w : WarmReset) : State :=
  let s := [0, 1, 2, 3].foldl (fun (s : State) c => (s.put (Reg.LOOP_MODE_REQ c) 0).loopSafe c 2) s
  let s := if natMem s.proposal [1, 2, 3] then s.refuseProposal 7 else s
  let s := s.count (cntPwr 3)
  let s := match w.bit with
    | 3 => (s.count (cntPwr 4)).raise 0x1306 [(8, w.address)]
    | 4 => (s.count (cntPwr 5)).raise 0x1307 []
    | _ => s
  let s := if w.poison then s.consumeFlagged 10 else s
  match w.permitFell with
  | some sev => s.raiseSev 0x1204 sev []
  | none => s

/-- R508, step 3: bring-up steps 5 and 6 run again; a couch that the host has set OFF stays down. -/
def State.warmSteps (s : State) (w : WarmReset) : State :=
  let now := s.aon
  let left := setBit (setBit s.pwr.requested 8 false) 9 false
  let s := { s with pwr := { s.pwr with warm := some { w with unitsDone := true }, runAt := now, requested := left } }
  s.requestDomains ([15, 10, 11, 7, 8, 9, 6].filter fun d =>
    !(decide (d = 8 ∨ d = 9) && decide (s.couchRole (d - 8) = 3)))

/-- R508, step 2: WARM_RESET_UNITS, with the profile at REST. -/
def execWarmResetUnits (s : State) : Out :=
  match s.pwr.warm with
  | none => .next s
  | some w =>
    if w.unitsDone ∨ s.get Reg.TID_PRF_STATUS_STATE ≠ 0 then .next s
    else .next (((((s.warmState).warmRegs).warmShow).warmEvents w).warmSteps w)

end Sys2Proof.Machine
end

