-- ==== Sys2Proof/Machine/Observe.lean ====
section
/-! DEFINITION. Observation: trace, counter snapshots, boundary scan (chapter 23). -/
namespace Sys2Proof.Machine

/-! ### Trace (R519 to R525) -/

/-- R520, R521: the payload of a SYNC packet. -/
def State.syncPayload (s : State) : List Byte :=
  leBytes 4 (s.tide / 2 ^ 32) ++ leBytes 2 (s.get Reg.TIM_STATUS_EPOCH) ++ leBytes 2 0 ++ leBytes 8 s.headTime ++
    leBytes 8 s.ptpTime

/-- R521: TRACE_SYNC, as tide time passes a multiple of 2^20. -/
def execTraceSync (s : State) : Out :=
  .next (if s.tide % 2 ^ 20 = 0 ∧ s.domainOn 1 then s.trace 1 s.syncPayload else s)

/-- R520: TRACE_DRAM_SAMPLE: what each channel has completed in the microsecond. -/
def execTraceDramSample (s : State) : Out :=
  if s.domainOn 1 = false then .next s
  else
    let hot := s.get Reg.MEM_STATUS_HOT
    let cap (n : Nat) : Nat := min n 65535
    let packet (ch : Nat) (c : MemChannel) : List Byte :=
      leBytes 1 ch ++ leBytes 1 (flag (bitAt hot ch) + 2 * flag c.refreshed) ++ leBytes 2 (cap c.feedReads) ++
        leBytes 2 (cap c.otherReads) ++ leBytes 2 (cap c.writes)
    let s := (List.range 6).foldl (fun (s : State) ch => s.trace 12 (packet ch (s.mem.channels.getD ch {}))) s
    let channels := s.mem.channels.map fun (c : MemChannel) =>
      { c with refreshed := false, feedReads := 0, otherReads := 0, writes := 0 }
    .next { s with mem := { s.mem with channels := channels } }

/-- R525: RING_FREEZE: the bytes after the trigger have been accepted. -/
def execRingFreeze (s : State) : Out :=
  .next (if s.on Reg.OBS_STATUS_TRIGGERED ∧ s.obs.postLeft = 0 ∧ ¬ s.on Reg.OBS_STATUS_RING_FROZEN then
    s.put Reg.OBS_STATUS_RING_FROZEN 1 else s)

/-- R521, R524: OBS_CTRL_WRITE: a destination that is newly enabled starts with a SYNC. -/
def execObsCtrlWrite (v : Word) (s : State) : Out :=
  let t := s.writeWord 0x01500000 v
  let port := t.on Reg.OBS_CTRL_PORT_EN && !s.on Reg.OBS_CTRL_PORT_EN
  let ring := t.on Reg.OBS_CTRL_RING_EN && !s.on Reg.OBS_CTRL_RING_EN
  let t := if port then t.packetToPort 1 t.syncPayload else t
  if ring then
    let t := t.puts [(Reg.OBS_RING_WR_OFF, 0), (Reg.OBS_RING_RD_OFF, 0)]
    let t := { t with obs := { t.obs with ring := { t.obs.ring with lost := 0 } } }
    .next (t.packetToRing 1 t.syncPayload)
  else .next t

/-- R525: OBS_TRIG_WRITE: EN written 1 arms the trigger, and resumes acceptance. -/
def execObsTrigWrite (off : BitVec 25) (wide : Bool) (v : BitVec 64) (s : State) : Out :=
  let o := off.toNat
  if ¬ alignedAccess o wide ∨ (o ≠ 0x01500030 ∧ o ≠ 0x01500034) then .next s
  else
    let en := if wide then bitAt v.toNat 63 else decide (o = 0x01500034) && bitAt v.toNat 31
    let t := s.writeAny o wide v
    .next (if en ∧ s.domainOn 1 then t.puts [(Reg.OBS_STATUS_TRIGGERED, 0), (Reg.OBS_STATUS_RING_FROZEN, 0)] else t)

/-- R530: OBS_CONFIG_WRITE: the ring's set-up is writable only while the ring is disabled. -/
def execObsConfigWrite (off : BitVec 25) (wide : Bool) (v : BitVec 64) (s : State) : Out :=
  let o := off.toNat
  if ¬ alignedAccess o wide ∨
      ¬ natMem o [0x01500010, 0x01500014, 0x01500018, 0x01500028, 0x0150002C] then .next s
  else if s.on Reg.OBS_CTRL_RING_EN then .next (s.raise 0x1405 [(4, o)])
  else .next (s.writeAny o wide v)

/-! ### Snapshots (R528) -/

/-- The counter catalogue (R526, R528): the offsets of its 2,384 registers, in order. -/
def catalogue : List Nat :=
  (List.range 8).map cntHst ++ (List.range 8).map cntHbx ++
  ((List.range 16).flatMap fun n => (List.range 5).map (cntVat n)) ++ (List.range 6).map cntCal ++
  (List.range 10).map cntSto ++ ([0, 1].flatMap fun n => (List.range 4).map (cntCouch n)) ++ (List.range 5).map cntArb ++
  ((List.range 128).flatMap fun n => (List.range 8).map (cntHlk n)) ++
  ((List.range 268).flatMap fun l => (List.range 4).map (cntLns l)) ++ (List.range 8).map cntTid ++
  ((List.range 4).flatMap fun c => (List.range 4).map (cntLoop c)) ++ (List.range 8).map cntExp ++
  (List.range 6).map cntHcr ++ ((List.range 3).flatMap fun n => (List.range 4).map (cntAux n)) ++
  (List.range 6).map cntCsc ++ ((List.range 6).flatMap fun c => (List.range 7).map (cntMem c)) ++
  ((List.range 6).flatMap fun c => (List.range 6).map (cntInt c)) ++ (List.range 4).map cntSram ++
  (List.range 8).map cntTim ++ (List.range 4).map cntBwt ++ (List.range 7).map cntPwr ++ (List.range 6).map cntObs

/-- A counter as a snapshot latches it: offset, whether its domain is down, value. -/
def State.latchCounter (s : State) (off : Nat) : Nat × Bool × Nat :=
  if s.domainOn (domainOf off) then (off, false, (rfPair s.regs off).toNat) else (off, true, 0)

/-- R528: SNAPSHOT_GO: every counter is latched. -/
def execSnapshotGo (s : State) : Out :=
  if ¬ s.domainOn 1 then .next (s.domainOffAccess 0x01500048)
  else if s.on Reg.OBS_STATUS_SNAP_BUSY then .next s
  else
    let now := s.tide
    let l := catalogue.map s.latchCounter
    .next ({ s with obs := { s.obs with snapshot := l, snapTime := now } }.puts
      [(Reg.OBS_STATUS_SNAP_BUSY, 1), (Reg.OBS_SNAP_CTRL_GO, 1), (Reg.OBS_SNAP_CTRL_DONE, 0)])

/-- R528: SNAPSHOT_DONE: the entries and the end entry have been written. -/
def execSnapshotDone (s : State) : Out :=
  if ¬ s.on Reg.OBS_STATUS_SNAP_BUSY ∨ ¬ s.on Reg.HST_STATUS_LINK_UP ∨ s.host.d3hot then .next s
  else
    let entries := s.obs.snapshot ++ [(0xFFFFFFFF, false, s.obs.snapTime)]
    let t := s.obs.snapTime
    let s := s.writeHost (64 * s.get Reg.OBS_SNAP_ADDR_ADDR) (entries.flatMap snapEntry)
    let s := { s with obs := { s.obs with snapshot := [] } }.puts
      [(Reg.OBS_STATUS_SNAP_BUSY, 0), (Reg.OBS_SNAP_CTRL_GO, 0), (Reg.OBS_SNAP_CTRL_DONE, 1)]
    .next ((s.count (cntObs 4)).raise 0x1404 [(8, t)])

/-! ### Boundary scan (R529) -/

/-- R529: IDCODE: version 0x1, part number 0x2600, the manufacturer, and 1. -/
def idcodeWord : BitVec 32 := 0x1#4 ++ 0x2600#16 ++ Config.jtagManufacturer ++ 1#1

/-- R529: an instruction that does not hold the units is loaded; one that held them is left. -/
def State.scanPlain (s : State) (i : ScanInstr) (out : BitVec 32) : State :=
  let held := s.obs.heldInReset
  let s := { s with obs := { s.obs with scan := i, dataReg := out, heldInReset := false } }
  if held then s.startBoot else s

/-- R529: an instruction that drives pins: every unit is held in cold reset, if the strap is high; else it acts as BYPASS. -/
def State.scanDrive (s : State) (i : ScanInstr) (out : BitVec 32) : State :=
  if s.obs.bscanEnable then
    { s with obs := { s.obs with scan := i, dataReg := out, heldInReset := true } }.coldReset
  else s.scanPlain .bypass 0

/-- R529: BYPASS. -/
def execBypass (s : State) : Out := .next (s.scanPlain .bypass 0)

/-- R529: IDCODE. -/
def execIdcode (s : State) : Out := .next (s.scanPlain .idcode idcodeWord)

/-- R529: SAMPLE/PRELOAD: the boundary register holds what the pins carry, which the model leaves free. -/
def execSamplePreload (s : State) : Out :=
  let (x, s) := s.draw
  .next (s.scanPlain .samplePreload (x.setWidth 32))

/-- R529: EXTEST. -/
def execExtest (s : State) : Out :=
  let (x, s) := s.draw
  .next (s.scanDrive .extest (x.setWidth 32))

/-- R529: CLAMP. -/
def execClamp (s : State) : Out := .next (s.scanDrive .clamp 0)

/-- R529: HIGHZ. -/
def execHighz (s : State) : Out := .next (s.scanDrive .highz 0)

/-- R529: TEST_LOGIC_RESET: leaving an instruction that held the units starts a cold reset with cause PERST. -/
def execTestLogicReset (s : State) : Out :=
  let held := s.obs.heldInReset
  let s := { s with obs := { s.obs with scan := .idcode, dataReg := idcodeWord, heldInReset := false } }
  .next (if held then ((s.setCause 1).coldReset).startBoot else s)

end Sys2Proof.Machine
end

