-- ==== Sys2Proof/Machine/Dispatch.lean ====
section
/-! DEFINITION. The effect of a command on everything but the queue: one arm for each command. -/
namespace Sys2Proof.Machine

/-- The effect of a command on the machine. -/
def exec (i : Instr) (s : State) : Host.Outcome State Fault Refusal :=
  match i with
  | .sqDoorbell r v => Sys2Proof.Machine.execSqDoorbell r v s
  | .eqDoorbell e v => Sys2Proof.Machine.execEqDoorbell e v s
  | .layout d => Sys2Proof.Machine.execLayout d s
  | .streamRelease d => Sys2Proof.Machine.execStreamRelease d s
  | .strip d => Sys2Proof.Machine.execStrip d s
  | .stopStrip d => Sys2Proof.Machine.execStopStrip d s
  | .resume d => Sys2Proof.Machine.execResume d s
  | .endStrip d => Sys2Proof.Machine.execEndStrip d s
  | .ledgerRelease d => Sys2Proof.Machine.execLedgerRelease d s
  | .stageMove d => Sys2Proof.Machine.execStageMove d s
  | .stageTable d => Sys2Proof.Machine.execStageTable d s
  | .aux d => Sys2Proof.Machine.execAux d s
  | .recoat d => Sys2Proof.Machine.execRecoat d s
  | .hcrMeasure d => Sys2Proof.Machine.execHcrMeasure d s
  | .hcrAlign d => Sys2Proof.Machine.execHcrAlign d s
  | .hcrPropose d => Sys2Proof.Machine.execHcrPropose d s
  | .segCompress d => Sys2Proof.Machine.execSegCompress d s
  | .segDecompress d => Sys2Proof.Machine.execSegDecompress d s
  | .inflate d => Sys2Proof.Machine.execInflate d s
  | .continueJob d => Sys2Proof.Machine.execContinueJob d s
  | .checkScan d => Sys2Proof.Machine.execCheckScan d s
  | .nop d => Sys2Proof.Machine.execNop d s
  | .eventRecordWrite e => Sys2Proof.Machine.execEventRecordWrite e s
  | .eqInterrupt e => Sys2Proof.Machine.execEqInterrupt e s
  | .msixUnmask v => Sys2Proof.Machine.execMsixUnmask v s
  | .hstAbort v => Sys2Proof.Machine.execHstAbort v s
  | .abortComplete => Sys2Proof.Machine.execAbortComplete s
  | .hstReset v => Sys2Proof.Machine.execHstReset v s
  | .warmResetUnits => Sys2Proof.Machine.execWarmResetUnits s
  | .hostReadTimeout r => Sys2Proof.Machine.execHostReadTimeout r s
  | .hostReadError r status => Sys2Proof.Machine.execHostReadError r status s
  | .pcieLinkDown => Sys2Proof.Machine.execPcieLinkDown s
  | .pcieLinkUp speed width => Sys2Proof.Machine.execPcieLinkUp speed width s
  | .perstNAssert => Sys2Proof.Machine.execPerstNAssert s
  | .perstNDeassert => Sys2Proof.Machine.execPerstNDeassert s
  | .configSpaceReady => Sys2Proof.Machine.execConfigSpaceReady s
  | .d3hotEntry => Sys2Proof.Machine.execD3hotEntry s
  | .hstSqBaseWrite r v => Sys2Proof.Machine.execHstSqBaseWrite r v s
  | .hstSqCfgWrite r v => Sys2Proof.Machine.execHstSqCfgWrite r v s
  | .hstEqBaseWrite e v => Sys2Proof.Machine.execHstEqBaseWrite e v s
  | .hstEqCfgWrite e v => Sys2Proof.Machine.execHstEqCfgWrite e v s
  | .hstCtrlWrite v => Sys2Proof.Machine.execHstCtrlWrite v s
  | .registerWrite off wide v => Sys2Proof.Machine.execRegisterWrite off wide v s
  | .counterClear off wide v => Sys2Proof.Machine.execCounterClear off wide v s
  | .streamRecord h rec => Sys2Proof.Machine.execStreamRecord h rec s
  | .stripRecord h rec => Sys2Proof.Machine.execStripRecord h rec s
  | .doseTable h rec => Sys2Proof.Machine.execDoseTable h rec s
  | .stripEnd h rec => Sys2Proof.Machine.execStripEnd h rec s
  | .cellBegin h rec => Sys2Proof.Machine.execCellBegin h rec s
  | .cellEnd h rec => Sys2Proof.Machine.execCellEnd h rec s
  | .rect h rec => Sys2Proof.Machine.execRect h rec s
  | .trap h rec => Sys2Proof.Machine.execTrap h rec s
  | .disc h rec => Sys2Proof.Machine.execDisc h rec s
  | .patch h rec => Sys2Proof.Machine.execPatch h rec s
  | .ref h rec => Sys2Proof.Machine.execRef h rec s
  | .aref h rec => Sys2Proof.Machine.execAref h rec s
  | .reamMark h rec => Sys2Proof.Machine.execReamMark h rec s
  | .margin h rec => Sys2Proof.Machine.execMargin h rec s
  | .seam h rec => Sys2Proof.Machine.execSeam h rec s
  | .pad h rec => Sys2Proof.Machine.execPad h rec s
  | .tileJobIssue => Sys2Proof.Machine.execTileJobIssue s
  | .tileCorrected v out => Sys2Proof.Machine.execTileCorrected v out s
  | .layoutRereadDone slot ream ok => Sys2Proof.Machine.execLayoutRereadDone slot ream ok s
  | .coarseJobDone v out => Sys2Proof.Machine.execCoarseJobDone v out s
  | .jobWatchdog v cycles => Sys2Proof.Machine.execJobWatchdog v cycles s
  | .rerenderLate slot ream tile => Sys2Proof.Machine.execRerenderLate slot ream tile s
  | .vatRoleReqWrite v => Sys2Proof.Machine.execVatRoleReqWrite v s
  | .calProfileWrite off wide v => Sys2Proof.Machine.execCalProfileWrite off wide v s
  | .haloWaitTimeout slot ream => Sys2Proof.Machine.execHaloWaitTimeout slot ream s
  | .tileStoreDone poisoned => Sys2Proof.Machine.execTileStoreDone poisoned s
  | .stoRoomWait slot ream => Sys2Proof.Machine.execStoRoomWait slot ream s
  | .chunkDecoded reader faults => Sys2Proof.Machine.execChunkDecoded reader faults s
  | .fillDeadline reader late => Sys2Proof.Machine.execFillDeadline reader late s
  | .stoConfigWrite off wide v => Sys2Proof.Machine.execStoConfigWrite off wide v s
  | .codecJobEnd aseq poison => Sys2Proof.Machine.execCodecJobEnd aseq poison s
  | .tickEmit faults => Sys2Proof.Machine.execTickEmit faults s
  | .zeroRun n => Sys2Proof.Machine.execZeroRun n s
  | .couchDomainFail n => Sys2Proof.Machine.execCouchDomainFail n s
  | .swapTestStart => Sys2Proof.Machine.execSwapTestStart s
  | .swapTestSwitch gaps => Sys2Proof.Machine.execSwapTestSwitch gaps s
  | .swapTestEnd => Sys2Proof.Machine.execSwapTestEnd s
  | .swapRequest v => Sys2Proof.Machine.execSwapRequest v s
  | .cchRoleReqWrite v => Sys2Proof.Machine.execCchRoleReqWrite v s
  | .cchResBaseWrite off wide v => Sys2Proof.Machine.execCchResBaseWrite off wide v s
  | .statusFrame a seen frame => Sys2Proof.Machine.execStatusFrame a seen frame s
  | .driverStatusStale a => Sys2Proof.Machine.execDriverStatusStale a s
  | .echoMissing a => Sys2Proof.Machine.execEchoMissing a s
  | .ctrlReply a seen frame => Sys2Proof.Machine.execCtrlReply a seen frame s
  | .ctrlReplyTimeout a => Sys2Proof.Machine.execCtrlReplyTimeout a s
  | .discover n heard => Sys2Proof.Machine.execDiscover n heard s
  | .ident a result => Sys2Proof.Machine.execIdent a result s
  | .setFactors a result => Sys2Proof.Machine.execSetFactors a result s
  | .setCurve a result => Sys2Proof.Machine.execSetCurve a result s
  | .timeLoad a result => Sys2Proof.Machine.execTimeLoad a result s
  | .timeRead a result => Sys2Proof.Machine.execTimeRead a result s
  | .measure a result => Sys2Proof.Machine.execMeasure a result s
  | .recordRead a result => Sys2Proof.Machine.execRecordRead a result s
  | .arm a result => Sys2Proof.Machine.execArm a result s
  | .txEq a result => Sys2Proof.Machine.execTxEq a result s
  | .pollSend n => Sys2Proof.Machine.execPollSend n s
  | .chainTrainStart n => Sys2Proof.Machine.execChainTrainStart n s
  | .chainAlignDone n found => Sys2Proof.Machine.execChainAlignDone n found s
  | .chainTrainTimeout n => Sys2Proof.Machine.execChainTrainTimeout n s
  | .eqAdaptWaitEnd n => Sys2Proof.Machine.execEqAdaptWaitEnd n s
  | .eqTryEnd n found eyeH eyeV => Sys2Proof.Machine.execEqTryEnd n found eyeH eyeV s
  | .eqDeferredRetrain n => Sys2Proof.Machine.execEqDeferredRetrain n s
  | .syncMarkerReturn n rt latches => Sys2Proof.Machine.execSyncMarkerReturn n rt latches s
  | .headTimeRecheck => Sys2Proof.Machine.execHeadTimeRecheck s
  | .chainStatusLoss c => Sys2Proof.Machine.execChainStatusLoss c s
  | .hlkRetrainReq v => Sys2Proof.Machine.execHlkRetrainReq v s
  | .laneAlignLost l loss => Sys2Proof.Machine.execLaneAlignLost l loss s
  | .lanePllUnlock pll => Sys2Proof.Machine.execLanePllUnlock pll s
  | .lanePhaseSlip l under => Sys2Proof.Machine.execLanePhaseSlip l under s
  | .tuneBurst b => Sys2Proof.Machine.execTuneBurst b s
  | .lnsLoopStart v => Sys2Proof.Machine.execLnsLoopStart v s
  | .lnsLoopEnd locked errors => Sys2Proof.Machine.execLnsLoopEnd locked errors s
  | .lnsSscWrite v => Sys2Proof.Machine.execLnsSscWrite v s
  | .lnsOutEnWrite v => Sys2Proof.Machine.execLnsOutEnWrite v s
  | .lnsEidleWrite l v => Sys2Proof.Machine.execLnsEidleWrite l v s
  | .strobeApply l => Sys2Proof.Machine.execStrobeApply l s
  | .posTrigger port => Sys2Proof.Machine.execPosTrigger port s
  | .positionFrame port frame => Sys2Proof.Machine.execPositionFrame port frame s
  | .posFrameLate port => Sys2Proof.Machine.execPosFrameLate port s
  | .quadEdge q a b => Sys2Proof.Machine.execQuadEdge q a b s
  | .quadIndex q => Sys2Proof.Machine.execQuadIndex q s
  | .tidQrefArm v => Sys2Proof.Machine.execTidQrefArm v s
  | .plannerStep pos vel acc slow => Sys2Proof.Machine.execPlannerStep pos vel acc slow s
  | .approachReached => Sys2Proof.Machine.execApproachReached s
  | .setpointFrame => Sys2Proof.Machine.execSetpointFrame s
  | .tidLimitWrite off wide v => Sys2Proof.Machine.execTidLimitWrite off wide v s
  | .tidGovCapWrite v => Sys2Proof.Machine.execTidGovCapWrite v s
  | .tidConfigWrite off wide v => Sys2Proof.Machine.execTidConfigWrite off wide v s
  | .snsTrigger c => Sys2Proof.Machine.execSnsTrigger c s
  | .sensorFrame k frame => Sys2Proof.Machine.execSensorFrame k frame s
  | .loopCapture c => Sys2Proof.Machine.execLoopCapture c s
  | .loopSwapRequest c v => Sys2Proof.Machine.execLoopSwapRequest c v s
  | .loopModeWrite c v => Sys2Proof.Machine.execLoopModeWrite c v s
  | .loopBankWrite off wide v => Sys2Proof.Machine.execLoopBankWrite off wide v s
  | .loopOpenWrite c v => Sys2Proof.Machine.execLoopOpenWrite c v s
  | .loopConfigWrite off wide v => Sys2Proof.Machine.execLoopConfigWrite off wide v s
  | .floodEnter => Sys2Proof.Machine.execFloodEnter s
  | .promptBreakEnter => Sys2Proof.Machine.execPromptBreakEnter s
  | .ebbToSlack => Sys2Proof.Machine.execEbbToSlack s
  | .breakToSlack => Sys2Proof.Machine.execBreakToSlack s
  | .resumeStart => Sys2Proof.Machine.execResumeStart s
  | .neapEnter => Sys2Proof.Machine.execNeapEnter s
  | .neapWake => Sys2Proof.Machine.execNeapWake s
  | .neapWakeDone => Sys2Proof.Machine.execNeapWakeDone s
  | .hcrSchedule => Sys2Proof.Machine.execHcrSchedule s
  | .hcrMeasRunEnd => Sys2Proof.Machine.execHcrMeasRunEnd s
  | .hcrMeasTimeout => Sys2Proof.Machine.execHcrMeasTimeout s
  | .strobeCalWindow counts => Sys2Proof.Machine.execStrobeCalWindow counts s
  | .measReq v => Sys2Proof.Machine.execMeasReq v s
  | .calReq v => Sys2Proof.Machine.execCalReq v s
  | .stepGenerate n => Sys2Proof.Machine.execStepGenerate n s
  | .auxPlannerStep n pos vel acc => Sys2Proof.Machine.execAuxPlannerStep n pos vel acc s
  | .encEdge n a b => Sys2Proof.Machine.execEncEdge n a b s
  | .encIndex n => Sys2Proof.Machine.execEncIndex n s
  | .auxSettleCheck n => Sys2Proof.Machine.execAuxSettleCheck n s
  | .limitSwitch n hi level => Sys2Proof.Machine.execLimitSwitch n hi level s
  | .auxPhaseStart aseq => Sys2Proof.Machine.execAuxPhaseStart aseq s
  | .auxPhaseEnd n => Sys2Proof.Machine.execAuxPhaseEnd n s
  | .auxDwellEnd aseq => Sys2Proof.Machine.execAuxDwellEnd aseq s
  | .auxStopCmd n => Sys2Proof.Machine.execAuxStopCmd n s
  | .auxClear n => Sys2Proof.Machine.execAuxClear n s
  | .auxHoldRetry r => Sys2Proof.Machine.execAuxHoldRetry r s
  | .auxHoldSkip r => Sys2Proof.Machine.execAuxHoldSkip r s
  | .auxCfgWrite off wide v => Sys2Proof.Machine.execAuxCfgWrite off wide v s
  | .auxLimitWrite off wide v => Sys2Proof.Machine.execAuxLimitWrite off wide v s
  | .cscPortTrainStart p => Sys2Proof.Machine.execCscPortTrainStart p s
  | .cscTrainStepDone p found device devices spread => Sys2Proof.Machine.execCscTrainStepDone p found device devices spread s
  | .cscTrainTimeout p => Sys2Proof.Machine.execCscTrainTimeout p s
  | .latencyMarker p dm am as ds => Sys2Proof.Machine.execLatencyMarker p dm am as ds s
  | .tickMessage m index t h p state faults => Sys2Proof.Machine.execTickMessage m index t h p state faults s
  | .sampleMessage m head count setpoint => Sys2Proof.Machine.execSampleMessage m head count setpoint s
  | .timeMessage m head stamp epoch => Sys2Proof.Machine.execTimeMessage m head stamp epoch s
  | .planMessage m r rate cause => Sys2Proof.Machine.execPlanMessage m r rate cause s
  | .stopMessage m cause kind tB origin => Sys2Proof.Machine.execStopMessage m cause kind tB origin s
  | .ctrlMessage m c => Sys2Proof.Machine.execCtrlMessage m c s
  | .statusMessage m lead wait temp span pairing => Sys2Proof.Machine.execStatusMessage m lead wait temp span pairing s
  | .rateMessage m r rate cause => Sys2Proof.Machine.execRateMessage m r rate cause s
  | .haloMessage m device stripId row side values => Sys2Proof.Machine.execHaloMessage m device stripId row side values s
  | .ackMessage m typ seq => Sys2Proof.Machine.execAckMessage m typ seq s
  | .timeSetMessage h w => Sys2Proof.Machine.execTimeSetMessage h w s
  | .messageResend p => Sys2Proof.Machine.execMessageResend p s
  | .tickGapTimeout => Sys2Proof.Machine.execTickGapTimeout s
  | .tlLaneLost p loss => Sys2Proof.Machine.execTlLaneLost p loss s
  | .cscConfigWrite off v => Sys2Proof.Machine.execCscConfigWrite off v s
  | .dramRequest port addr write data poison deadline => Sys2Proof.Machine.execDramRequest port addr write data poison deadline s
  | .dramPick ch sub ready => Sys2Proof.Machine.execDramPick ch sub ready s
  | .requestAged n => Sys2Proof.Machine.execRequestAged n s
  | .refreshDue ch => Sys2Proof.Machine.execRefreshDue ch s
  | .refreshBurst ch => Sys2Proof.Machine.execRefreshBurst ch s
  | .memThermPoll ch hot device => Sys2Proof.Machine.execMemThermPoll ch hot device s
  | .dramTrainInstanceEnd ch rank config passed lane mask0 mask1 lanes => Sys2Proof.Machine.execDramTrainInstanceEnd ch rank config passed lane mask0 mask1 lanes s
  | .dramInitDone => Sys2Proof.Machine.execDramInitDone s
  | .dramRetrainStart => Sys2Proof.Machine.execDramRetrainStart s
  | .memRetrainWrite v => Sys2Proof.Machine.execMemRetrainWrite v s
  | .memRateWrite v => Sys2Proof.Machine.execMemRateWrite v s
  | .memRefModeWrite v => Sys2Proof.Machine.execMemRefModeWrite v s
  | .dramReadReturn addr errors consumer => Sys2Proof.Machine.execDramReadReturn addr errors consumer s
  | .repairWrite ch => Sys2Proof.Machine.execRepairWrite ch s
  | .scrubStep errors => Sys2Proof.Machine.execScrubStep errors s
  | .erasureSweepEnd ch rank sub => Sys2Proof.Machine.execErasureSweepEnd ch rank sub s
  | .intEraseReqGo v => Sys2Proof.Machine.execIntEraseReqGo v s
  | .sramPatrol test unit off raw => Sys2Proof.Machine.execSramPatrol test unit off raw s
  | .testRawDramWrite => Sys2Proof.Machine.execTestRawDramWrite s
  | .testRawDramRead => Sys2Proof.Machine.execTestRawDramRead s
  | .testEncode => Sys2Proof.Machine.execTestEncode s
  | .testRawSramWrite => Sys2Proof.Machine.execTestRawSramWrite s
  | .testRawSramRead => Sys2Proof.Machine.execTestRawSramRead s
  | .intChkValWrite off wide v => Sys2Proof.Machine.execIntChkValWrite off wide v s
  | .checkScanEnd e => Sys2Proof.Machine.execCheckScanEnd e s
  | .ptpSync m twoStep origin => Sys2Proof.Machine.execPtpSync m twoStep origin s
  | .ptpFollowUp m origin => Sys2Proof.Machine.execPtpFollowUp m origin s
  | .ptpDelayResp m requester receipt => Sys2Proof.Machine.execPtpDelayResp m requester receipt s
  | .ptpPdelayReq m turn => Sys2Proof.Machine.execPtpPdelayReq m turn s
  | .ptpPdelayResp m requester twoStep receipt => Sys2Proof.Machine.execPtpPdelayResp m requester twoStep receipt s
  | .ptpPdelayRespFollowUp m requester origin => Sys2Proof.Machine.execPtpPdelayRespFollowUp m requester origin s
  | .ptpAnnounce m a => Sys2Proof.Machine.execPtpAnnounce m a s
  | .ptpDelayReqSend p phase => Sys2Proof.Machine.execPtpDelayReqSend p phase s
  | .announceTimeout p => Sys2Proof.Machine.execAnnounceTimeout p s
  | .delayConfirmEnd => Sys2Proof.Machine.execDelayConfirmEnd s
  | .holdLong => Sys2Proof.Machine.execHoldLong s
  | .armedStep => Sys2Proof.Machine.execArmedStep s
  | .acquisitionStepHeld => Sys2Proof.Machine.execAcquisitionStepHeld s
  | .timeMapLatch => Sys2Proof.Machine.execTimeMapLatch s
  | .telemetrySend p => Sys2Proof.Machine.execTelemetrySend p s
  | .ethLinkChange p up => Sys2Proof.Machine.execEthLinkChange p up s
  | .timStepArm => Sys2Proof.Machine.execTimStepArm s
  | .timCtrlWrite v => Sys2Proof.Machine.execTimCtrlWrite v s
  | .timNowRead => Sys2Proof.Machine.execTimNowRead s
  | .timMapHeadRead => Sys2Proof.Machine.execTimMapHeadRead s
  | .timPortCfgWrite off wide v => Sys2Proof.Machine.execTimPortCfgWrite off wide v s
  | .bwtSubmit => Sys2Proof.Machine.execBwtSubmit s
  | .bwtWithdraw => Sys2Proof.Machine.execBwtWithdraw s
  | .bwtHandover => Sys2Proof.Machine.execBwtHandover s
  | .proposalLoaded readOk => Sys2Proof.Machine.execProposalLoaded readOk s
  | .grdStatus frame => Sys2Proof.Machine.execGrdStatus frame s
  | .grdRead frame => Sys2Proof.Machine.execGrdRead frame s
  | .grdConfirm frame => Sys2Proof.Machine.execGrdConfirm frame s
  | .grdReject frame => Sys2Proof.Machine.execGrdReject frame s
  | .proposalExpired => Sys2Proof.Machine.execProposalExpired s
  | .svnBurnDone value => Sys2Proof.Machine.execSvnBurnDone value s
  | .permitDeassert => Sys2Proof.Machine.execPermitDeassert s
  | .permitRestored => Sys2Proof.Machine.execPermitRestored s
  | .pwrOkRise => Sys2Proof.Machine.execPwrOkRise s
  | .pwrOkFall => Sys2Proof.Machine.execPwrOkFall s
  | .brownOut => Sys2Proof.Machine.execBrownOut s
  | .bootImageVerify read0 read1 image0 image1 => Sys2Proof.Machine.execBootImageVerify read0 read1 image0 image1 s
  | .bringupDone => Sys2Proof.Machine.execBringupDone s
  | .refLost => Sys2Proof.Machine.execRefLost s
  | .pllUnlock pll => Sys2Proof.Machine.execPllUnlock pll s
  | .protectiveResetEnd => Sys2Proof.Machine.execProtectiveResetEnd s
  | .dieTempRead temp => Sys2Proof.Machine.execDieTempRead temp s
  | .watchdogExpire => Sys2Proof.Machine.execWatchdogExpire s
  | .lockstepFault f => Sys2Proof.Machine.execLockstepFault f s
  | .domainPowerUp d => Sys2Proof.Machine.execDomainPowerUp d s
  | .domainPowerFault d => Sys2Proof.Machine.execDomainPowerFault d s
  | .quadNeapEnter q => Sys2Proof.Machine.execQuadNeapEnter q s
  | .traceSync => Sys2Proof.Machine.execTraceSync s
  | .traceDramSample => Sys2Proof.Machine.execTraceDramSample s
  | .ringFreeze => Sys2Proof.Machine.execRingFreeze s
  | .obsCtrlWrite v => Sys2Proof.Machine.execObsCtrlWrite v s
  | .obsTrigWrite off wide v => Sys2Proof.Machine.execObsTrigWrite off wide v s
  | .obsConfigWrite off wide v => Sys2Proof.Machine.execObsConfigWrite off wide v s
  | .snapshotGo => Sys2Proof.Machine.execSnapshotGo s
  | .snapshotDone => Sys2Proof.Machine.execSnapshotDone s
  | .bypass => Sys2Proof.Machine.execBypass s
  | .idcode => Sys2Proof.Machine.execIdcode s
  | .samplePreload => Sys2Proof.Machine.execSamplePreload s
  | .extest => Sys2Proof.Machine.execExtest s
  | .clamp => Sys2Proof.Machine.execClamp s
  | .highz => Sys2Proof.Machine.execHighz s
  | .testLogicReset => Sys2Proof.Machine.execTestLogicReset s
  | .d0Entry => Sys2Proof.Machine.execD0Entry s
  | .lanePllLock pll => Sys2Proof.Machine.execLanePllLock pll s
  | .referencePresent otpOk => Sys2Proof.Machine.execReferencePresent otpOk s
  | .bringupStepLimit => Sys2Proof.Machine.execBringupStepLimit s
  | .receiverAdaptEnd n seen => Sys2Proof.Machine.execReceiverAdaptEnd n seen s
  | .protectiveStopLimit => Sys2Proof.Machine.execProtectiveStopLimit s

end Sys2Proof.Machine
end

