-- ==== Sys2Proof/Machine/Views.lean ====
section
/-! DEFINITION. What a read of a register gives (R12, R433, R498): the register file, and the fields that show what
another part of State holds. -/
namespace Sys2Proof.Machine

/-- R202: minutes since couch n's path last passed a swap test, saturating; 0xFFFF for never. -/
def State.sinceTest (s : State) (n : Nat) : Nat :=
  match s.couch.passedAt.getD n none with
  | some t => min 0xFFFE ((s.tide - t) / 24000000000)
  | none => 0xFFFF

/-- The fields that show what another part of State holds (R143, R202, R287, R459, R475, R478). -/
def State.views (s : State) : List (Field × Nat) :=
  [(Reg.HST_STATUS_JOBS, s.host.jobs.length), (Reg.TID_TIME_TIME, s.tide), (Reg.TIM_NOW_SEC, s.clock.sec % 2 ^ 34),
    (Reg.TIM_NOW_NS, s.clock.ns), (Reg.MSIX_PBA_PENDING, s.host.msixPba)] ++
  (List.range 8).map (fun e => (Reg.HST_EQ_STATUS_QUEUED e, (s.eqRing e).queued)) ++
  (List.range 8).map (fun n => (Reg.CAL_PR_DIGEST_DIGEST n, calDigest s.regs n)) ++
  [0, 1].map (fun n => (Reg.CCX_STATUS_SINCE_TEST n, s.sinceTest n)) ++
  (match s.time.mapHeld with
   | some (p, a) => [(⟨Reg.TIM_MAP_PTP_SEC.off, 0, 64⟩, p.toNat), (⟨Reg.TIM_MAP_AUX_EPOCH.off, 0, 32⟩, a.toNat)]
   | none => [])

/-- R12, R433, R498: a 32-bit read of a register: 0 while its domain is down, and in reserved and write-only bits. -/
def State.readWord (s : State) (off : Nat) : BitVec 32 :=
  if s.domainOn (domainOf off) then rfWord (s.puts s.views).regs (canonOffset off) else 0

/-- R11: a 64-bit read: the word at the offset and the one above it. -/
def State.readPair (s : State) (off : Nat) : BitVec 64 := s.readWord (off + 4) ++ s.readWord off

end Sys2Proof.Machine
end

