-- ==== Sys2Proof/Safety.lean ====
section
/-! DEFINITION. What counts as a sound state of the block, in the terms that claims use. -/
namespace Sys2Proof.Machine

/-- The sparse stores are in canonical form: registers, host memory, DRAM. -/
def State.canonical (s : State) : Bool := cellWf resetWord s.regs && s.hostMem.wf && s.dram.wf

/-- The expose permission of R224: the head is not blanked. -/
def State.exposing (s : State) : Bool := decide (s.get Reg.HLK_STATUS_BLANK = 0)

/-! ### What a command does -/

/-- The command c runs at s: it answers a next state, of which P holds. -/
def Acts (c : Instr) (s : State) (P : State → Prop) : Prop := ∃ t, exec c s = .next t ∧ P t

/-- R13, in the words of its table: what a write of `new` leaves in a field that holds `old`. -/
def FieldRow.rule (f : FieldRow) (old new : Nat) : Nat :=
  match f.access with
  | .rw =>
    match f.range with
    | some (lo, hi) => if lo ≤ new ∧ new ≤ hi then new else old
    | none => new
  | .w1c => old ^^^ (old &&& new)
  | .w1s => old ||| new
  | _ => old

/-- R11, R13, R433: in t, every field of the register that an access at o meets reads as a write of v leaves it. -/
def Wrote (o : Nat) (wide : Bool) (v : BitVec 64) (s t : State) : Prop :=
  ∀ h, h ≤ flag wide → ∀ r idx k, findRow (o + 4 * h) = some (r, idx, k) →
    (r.wide = false → ∀ f ∈ r.fields, t.get ⟨o + 4 * h, f.lo, f.width⟩ =
      f.rule (s.get ⟨o + 4 * h, f.lo, f.width⟩) (bvField (v >>> (32 * h)) f.lo f.width)) ∧
    (r.wide = true → wide = true → h = 0 → ∀ f ∈ r.fields, t.get ⟨o, f.lo, f.width⟩ =
      f.rule (s.get ⟨o, f.lo, f.width⟩) (bvField v f.lo f.width))

/-- R436: where in host memory the next record of an event ring goes. -/
def State.recordAt (s : State) (e : Nat) : Nat :=
  4096 * s.get (Reg.HST_EQ_BASE_BASE e) + 32 * (s.get (Reg.HST_EQ_IDX_PROD e) % 2 ^ s.get (Reg.HST_EQ_CFG_SIZE e))

/-- R53, R54, R447: a whole record of a type and length is there for stream h: its bytes have been supplied, more follow
where the stream ends with them, and the working buffer has room. -/
def State.recordReady (s : State) (h typ len : Nat) (rec : List Byte) : Bool :=
  let m := s.stream h
  m.isOpen && m.failed.isNone && decide (rec.length = 8 * len ∧ fieldAt rec 0 1 = typ ∧ fieldAt rec 1 3 = len ∧
    m.parsed + 8 * len ≤ m.received ∧ (m.last = true → m.parsed + 8 * len < m.received) ∧
    m.workUsed + 8 * len ≤ m.workLen) && reservedOk m.v2 typ rec && !m.crosses (8 * len) && m.back.isNone && !s.headerWaits h

/-- R59, R101: the same in the walk of a backwash strip, all of whose bytes have been supplied. -/
def State.walkReady (s : State) (h typ len : Nat) (rec : List Byte) (w : BackWalk) : Bool :=
  let m := s.stream h
  m.isOpen && m.failed.isNone && decide (rec.length = 8 * len ∧ fieldAt rec 0 1 = typ ∧ fieldAt rec 1 3 = len ∧
    m.workUsed + 8 * len ≤ m.workLen ∧ m.back = some w)

/-- The last section of the strip in progress of a stream. -/
def Stream.lastSection (m : Stream) : Option Section := m.current.bind fun r => r.sections.getLast?

/-- R438, code 2: the job of a descriptor reads or writes DRAM, by its opcode and the space of its data. -/
def usesDram (d : Desc) : Bool :=
  match d.field 0 1 with
  | 0x01 => bitAt (d.field 37 1) 0 || bitAt (d.field 37 1) 2
  | 0x12 => bitAt (d.field 20 1) 1
  | 0x19 => bitAt (d.field 28 1) 0
  | 0x21 => bitAt (d.field 25 1) 0
  | 0x30 => decide (d.field 60 1 ≠ 0)
  | 0x31 | 0x32 | 0x33 => decide (bitsOf (d.field 40 1) 2 1 ≠ 0)
  | 0x38 => bitAt (d.field 33 1) 0
  | _ => false

/-- R437, R443: the descriptor at the front of its ring has an opcode, is well formed in header and body, and is taken now;
the next acceptance number is not in use. -/
def State.takes (s : State) (d : Desc) (op : Nat) (checks : List (Nat × Bool)) : Bool :=
  decide (s.takeWait d (usesDram d) = 0 ∧ d.field 0 1 = op) && (firstFailing (d.headerChecks ++ checks)).isNone &&
    (s.findJob s.host.nextAseq).isNone

/-- R437: t differs from s by a descriptor's taking: CONS has passed it, and the next acceptance number follows. -/
abbrev TakenBy (d : Desc) (s t : State) : Prop :=
  t.get (Reg.HST_SQ_IDX_CONS d.ring) = (s.get (Reg.HST_SQ_IDX_CONS d.ring) + 1) % 65536 ∧
    t.host.nextAseq = (s.host.nextAseq + 1) % 2 ^ 32

/-- The job of a descriptor has completed with a status (R444): it is not in flight, and the other jobs are. -/
abbrev DoneAtOnce (d : Desc) (status : Nat) (s t : State) : Prop :=
  TakenBy d s t ∧ t.host.jobs = s.host.jobs ∧
    (d.field 8 8 ≠ 0 → s.get Reg.OBS_CTRL_RING_EN = 0 → (t.hostMem.read (d.field 8 8 + 5)).toNat = status)

/-- R451: the job of an AUX descriptor that is taken now. -/
def State.auxOf (s : State) (d : Desc) : AuxJob :=
  { aseq := s.host.nextAseq, ring := d.ring, source := none, layer := 0, phases := [phaseOf ((d.bytes.drop 16).take 16)] }

/-- R451: the job of a RECOAT descriptor that is taken now, with the phases that its list holds. -/
def State.recoatOf (s : State) (d : Desc) : AuxJob :=
  { aseq := s.host.nextAseq, ring := d.ring, source := some (d.field 16 8, d.field 24 1, bitAt (d.field 25 1) 0),
    layer := d.field 28 4, phases := (s.phaseEntries (d.field 16 8) (d.field 24 1) (bitAt (d.field 25 1) 0)).map phaseOf }

/-- R357, R359: a lock holds the next phases of a list. -/
def State.groupLocked (s : State) (l : List AuxPhase) : Bool :=
  s.axesLocked && (nextGroup l).any fun q => s.on (Reg.AUX_CFG_EXPOSE_LOCK q.2.axis)

/-- R357: an axis of the next phases of a list is not IDLE. -/
def State.groupWaits (s : State) (l : List AuxPhase) : Bool :=
  (nextGroup l).any fun q => decide (q.2.kind ≠ 5 ∧ s.axisState q.2.axis ≠ 1)

/-- R357, R359: the next phases of a list may start: on distinct axes, each IDLE, with no lock and none refused. -/
def State.groupReady (s : State) (l : List AuxPhase) : Bool :=
  decide (((nextGroup l).map fun q => q.2.axis).Nodup) && !s.groupLocked l && !s.groupWaits l &&
    (nextGroup l).all fun q => decide (q.2.axis < s.aux.axes.length) && (s.phaseFault q.2 (s.phaseTable q.2)).isNone

/-- R350, R357: in t the next phases of a list at s run as those of a job: each on its axis, in MOVE, TABLE or HOME toward its
target, or as a DWELL. -/
def State.started (s t : State) (aseq : Nat) (l : List AuxPhase) : Bool :=
  (nextGroup l).all fun q =>
    (t.auxJob aseq).any (fun x => decide ((x.phases[q.1]?).map (·.st) = some 1)) &&
      (decide (q.2.kind = 5) ||
        (decide (t.axisState q.2.axis = (if q.2.kind = 3 then 3 else if q.2.kind = 4 then 4 else 2)) &&
          decide ((t.axis q.2.axis).job = some (aseq, q.1)) &&
          (decide (3 ≤ q.2.kind) ||
            decide ((t.axis q.2.axis).target = if q.2.kind = 1 then q.2.value else s.axisCount q.2.axis + q.2.value))))

/-- R112, R118: a tile job of a strip does not run past its limit, whatever its cycles beyond the cost. -/
def State.inTime (s : State) (st : Strip) (j : TileJob) : Bool :=
  let src := s.renderSource st j.ream j.col
  let cost := if j.kind = .coarse then coarseCycles src.cells j.ream j.col src.shapes
    else fineCycles src.cells j.ream j.col src.shapes
  decide (cost + 2048 ≤ s.get Reg.HBX_JOB_LIMIT_CYCLES)

/-- A codec job but for the compressor that it may hold. -/
def NoEngine (c : CodecJob) : CodecJob := { c with engine := false }

/-- A codec job but for the poison of its input. -/
def NoFlaw (c : CodecJob) : CodecJob := { c with flawed := none }

/-- The doses that a decode of a part gives; none where it fails. -/
def PartRead.doses : PartRead → Option (List Nat)
  | .good l => some l
  | .bad _ _ => none

/-- R162: the parts of a reader's next chunk that fail, by their tiles, with the parts that the hardware fails. -/
def State.failingParts (s : State) (m : ReamSlot) (reader q : Nat) (faults : List (Fin 16 × Fin 7)) : List Nat :=
  (List.range 16).filter fun j => (s.readPart m reader q faults j).doses.isNone

/-- The commands that a descriptor may be, each with its opcode (R443). -/
def descCommands (d : Desc) : List (Nat × Instr) :=
  [(0x01, .layout d), (0x02, .streamRelease d), (0x10, .strip d), (0x11, .stopStrip d), (0x12, .resume d), (0x13, .endStrip d),
    (0x14, .ledgerRelease d), (0x18, .stageMove d), (0x19, .stageTable d), (0x20, .aux d), (0x21, .recoat d),
    (0x28, .hcrMeasure d), (0x29, .hcrAlign d), (0x2A, .hcrPropose d), (0x30, .segCompress d), (0x31, .segDecompress d),
    (0x32, .inflate d), (0x33, .continueJob d), (0x38, .checkScan d), (0x3F, .nop d)]

/-! ### What a command leaves unchanged, part by part -/

/-- The parts of the state but the queue of commands. -/
inductive Part where
  | regs
  | hostMem
  | dram
  | host
  | box
  | store
  | aon
  | tide
  | headTime0
  | clock
  | obs
  | seq
  | tid
  | couch
  | link
  | lanes
  | hcr
  | csc
  | loops
  | aux
  | mem
  | time
  | bwt
  | pwr
  | free
  deriving DecidableEq, Repr

/-- A part is in a list. -/
def Part.isIn (p : Part) : List Part → Bool
  | [] => false
  | q :: r => if p = q then true else p.isIn r

/-- s with the parts in P taken from t. -/
def State.mix (P : List Part) (s t : State) : State where
  pending := s.pending
  regs := if Part.isIn .regs P = true then t.regs else s.regs
  hostMem := if Part.isIn .hostMem P = true then t.hostMem else s.hostMem
  dram := if Part.isIn .dram P = true then t.dram else s.dram
  host := if Part.isIn .host P = true then t.host else s.host
  box := if Part.isIn .box P = true then t.box else s.box
  store := if Part.isIn .store P = true then t.store else s.store
  aon := if Part.isIn .aon P = true then t.aon else s.aon
  tide := if Part.isIn .tide P = true then t.tide else s.tide
  headTime0 := if Part.isIn .headTime0 P = true then t.headTime0 else s.headTime0
  clock := if Part.isIn .clock P = true then t.clock else s.clock
  obs := if Part.isIn .obs P = true then t.obs else s.obs
  seq := if Part.isIn .seq P = true then t.seq else s.seq
  tid := if Part.isIn .tid P = true then t.tid else s.tid
  couch := if Part.isIn .couch P = true then t.couch else s.couch
  link := if Part.isIn .link P = true then t.link else s.link
  lanes := if Part.isIn .lanes P = true then t.lanes else s.lanes
  hcr := if Part.isIn .hcr P = true then t.hcr else s.hcr
  csc := if Part.isIn .csc P = true then t.csc else s.csc
  loops := if Part.isIn .loops P = true then t.loops else s.loops
  aux := if Part.isIn .aux P = true then t.aux else s.aux
  mem := if Part.isIn .mem P = true then t.mem else s.mem
  time := if Part.isIn .time P = true then t.time else s.time
  bwt := if Part.isIn .bwt P = true then t.bwt else s.bwt
  pwr := if Part.isIn .pwr P = true then t.pwr else s.pwr
  free := if Part.isIn .free P = true then t.free else s.free

/-- t is s in the queue of commands and in every part that is not in P. -/
def SameBut (P : List Part) (s t : State) : Prop := t = State.mix P s t

/-- What reporting may change: counters, the trace, the queues of events, telemetry. -/
abbrev reports : List Part := [.regs, .hostMem, .host, .obs, .time]


/-! ### Accesses to a domain that is down -/

/-- R433: the power domain and the offset of the register that a command accesses, for the commands that are accesses of one
register. -/
def accessOf : Instr → Option (Nat × Nat)
  | .sqDoorbell r _ => some (14, 0x01800000 + 0x1000 * r)
  | .eqDoorbell e _ => some (14, 0x01820000 + 0x1000 * e)
  | .hstAbort _ => some (14, 0x00100008)
  | .hstReset _ => some (14, 0x0010000C)
  | .hstSqBaseWrite r v => some (14, 0x00101000 + 32 * r + halfOffset v.half)
  | .hstSqCfgWrite r _ => some (14, 0x00101008 + 32 * r)
  | .hstEqBaseWrite e v => some (14, 0x00102000 + 32 * e + halfOffset v.half)
  | .hstEqCfgWrite e _ => some (14, 0x00102008 + 32 * e)
  | .msixUnmask v => some (14, 0x0011000C + 16 * v)
  | .timNowRead => some (14, 0x01200008)
  | .timMapHeadRead => some (14, 0x01200030)
  | .timStepArm => some (14, 0x01200000)
  | .timCtrlWrite _ => some (14, 0x01200000)
  | .vatRoleReqWrite _ => some (6, 0x00200014)
  | .hlkRetrainReq _ => some (10, 0x00800000)
  | .intEraseReqGo _ => some (12, 0x01100010)
  | .testRawDramWrite | .testRawDramRead | .testEncode | .testRawSramWrite | .testRawSramRead => some (12, 0x01100300)
  | .auxStopCmd n | .auxClear n => some (15, 0x00E00054 + 0x1000 * n)
  | .auxHoldRetry _ | .auxHoldSkip _ => some (15, 0x00E0F000)
  | .snapshotGo => some (1, 0x01500048)
  | _ => none


/-! ### The parts that a command may change -/

/-- The parts of the state that a command may change, whatever its operands. -/
def touches (c : Instr) : List Part :=
  match c with
  | .sqDoorbell .. | .eqDoorbell .. | .nop .. | .eqInterrupt .. | .msixUnmask .. | .abortComplete | .pcieLinkDown
  | .pcieLinkUp .. | .hstSqBaseWrite .. | .hstSqCfgWrite .. | .hstEqBaseWrite .. | .hstEqCfgWrite ..
  | .hstCtrlWrite .. | .registerWrite .. | .counterClear .. | .calProfileWrite .. | .haloWaitTimeout ..
  | .stoRoomWait .. | .stoConfigWrite .. | .swapRequest .. | .cchResBaseWrite .. | .lnsSscWrite ..
  | .lnsOutEnWrite .. | .tidQrefArm .. | .loopSwapRequest .. | .loopModeWrite .. | .loopBankWrite ..
  | .loopOpenWrite .. | .loopConfigWrite .. | .measReq .. | .calReq .. | .cscConfigWrite .. | .testRawDramRead
  | .testEncode | .intChkValWrite .. | .ptpPdelayReq .. | .ptpPdelayResp .. | .holdLong | .telemetrySend ..
  | .timNowRead | .timMapHeadRead | .quadNeapEnter .. | .traceSync | .obsCtrlWrite .. | .obsTrigWrite ..
  | .obsConfigWrite .. | .snapshotGo | .snapshotDone =>
    reports
  | .layout .. | .strip .. | .endStrip .. | .stageMove .. | .streamRecord .. | .stripRecord .. | .doseTable ..
  | .stripEnd .. | .cellBegin .. | .cellEnd .. | .rect .. | .trap .. | .disc .. | .patch .. | .ref .. | .aref ..
  | .reamMark .. | .margin .. | .seam .. | .pad .. | .positionFrame .. | .posFrameLate .. | .quadEdge ..
  | .quadIndex .. | .stopMessage .. | .messageResend .. | .tickGapTimeout =>
    .box :: .store :: .seq :: .tid :: .csc :: reports
  | .streamRelease .. | .vatRoleReqWrite .. =>
    .box :: reports
  | .stopStrip .. =>
    .box :: .seq :: .tid :: .csc :: reports
  | .resume .. =>
    .box :: .store :: .seq :: reports
  | .ledgerRelease .. | .segCompress .. | .segDecompress .. | .inflate .. | .continueJob .. =>
    .store :: reports
  | .stageTable .. | .tidConfigWrite .. =>
    .tid :: reports
  | .aux .. | .recoat .. | .stepGenerate .. | .auxPlannerStep .. | .encEdge .. | .encIndex .. | .auxSettleCheck ..
  | .limitSwitch .. | .auxPhaseStart .. | .auxPhaseEnd .. | .auxDwellEnd .. | .auxStopCmd .. | .auxClear ..
  | .auxHoldRetry .. | .auxHoldSkip .. | .auxCfgWrite .. | .auxLimitWrite .. =>
    .aux :: reports
  | .hcrMeasure .. | .hcrAlign .. | .hcrPropose .. | .hcrMeasRunEnd =>
    .link :: .hcr :: .bwt :: reports
  | .checkScan .. | .dramRequest .. | .requestAged .. | .refreshDue .. | .refreshBurst .. | .memThermPoll ..
  | .dramTrainInstanceEnd .. | .memRetrainWrite .. | .memRateWrite .. | .memRefModeWrite .. | .repairWrite ..
  | .intEraseReqGo .. | .sramPatrol .. | .testRawSramWrite | .testRawSramRead | .checkScanEnd .. | .traceDramSample =>
    .mem :: reports
  | .eventRecordWrite .. =>
    [.regs, .hostMem, .host]
  | .hstAbort .. | .d3hotEntry =>
    .box :: .store :: .seq :: .tid :: .link :: .hcr :: .csc :: .aux :: .mem :: .free :: reports
  | .hstReset .. =>
    .store :: .tid :: .pwr :: reports
  | .warmResetUnits =>
    .box :: .store :: .seq :: .tid :: .couch :: .link :: .lanes :: .hcr :: .csc :: .aux :: .mem :: .bwt ::
      .pwr :: .free :: reports
  | .hostReadTimeout .. | .hostReadError .. =>
    .box :: .store :: .tid :: .hcr :: .aux :: .mem :: reports
  | .perstNAssert | .pwrOkFall | .brownOut | .protectiveResetEnd | .clamp | .highz | .testLogicReset =>
    [.regs, .dram, .host, .box, .store, .tide, .headTime0, .clock, .obs, .seq, .tid, .couch, .link, .lanes,
      .hcr, .csc, .loops, .aux, .mem, .time, .bwt, .pwr]
  | .perstNDeassert =>
    [.regs, .host, .pwr]
  | .configSpaceReady =>
    [.host]
  | .tileJobIssue =>
    .box :: .store :: reports
  | .tileCorrected .. | .layoutRereadDone .. | .coarseJobDone .. | .jobWatchdog .. =>
    .box :: .store :: .seq :: .tid :: .csc :: .free :: reports
  | .rerenderLate .. =>
    .seq :: reports
  | .tileStoreDone .. | .scrubStep .. =>
    .dram :: .box :: .store :: .seq :: .tid :: .csc :: .mem :: reports
  | .chunkDecoded .. | .fillDeadline .. =>
    .box :: .store :: .seq :: .tid :: .link :: .csc :: .mem :: reports
  | .codecJobEnd .. | .dramReadReturn .. =>
    .dram :: .store :: .mem :: reports
  | .tickEmit .. | .tickMessage .. =>
    .box :: .store :: .seq :: .tid :: .couch :: .link :: .lanes :: .csc :: .free :: reports
  | .zeroRun .. =>
    .box :: .seq :: .tid :: .couch :: .csc :: reports
  | .couchDomainFail .. =>
    .couch :: .free :: reports
  | .swapTestStart =>
    .tid :: .couch :: reports
  | .swapTestSwitch .. =>
    [.regs, .couch]
  | .swapTestEnd =>
    .couch :: .link :: reports
  | .cchRoleReqWrite .. =>
    .couch :: .pwr :: reports
  | .statusFrame .. | .ctrlReply .. =>
    .box :: .store :: .seq :: .tid :: .couch :: .link :: .hcr :: .csc :: reports
  | .driverStatusStale .. =>
    .box :: .seq :: .tid :: .link :: .csc :: reports
  | .echoMissing .. | .discover .. | .ident .. | .setFactors .. | .setCurve .. | .timeLoad .. | .timeRead ..
  | .recordRead .. | .arm .. | .txEq .. | .pollSend .. | .eqAdaptWaitEnd .. | .headTimeRecheck =>
    [.link]
  | .ctrlReplyTimeout .. =>
    .box :: .seq :: .tid :: .couch :: .link :: .hcr :: .csc :: reports
  | .measure .. =>
    [.link, .hcr]
  | .chainTrainStart .. =>
    .headTime0 :: .link :: .lanes :: .hcr :: reports
  | .chainAlignDone .. | .chainTrainTimeout .. | .eqTryEnd .. | .eqDeferredRetrain .. | .syncMarkerReturn .. =>
    .link :: .hcr :: reports
  | .chainStatusLoss .. | .laneAlignLost .. | .lanePllUnlock .. | .lanePhaseSlip .. | .tlLaneLost .. =>
    .box :: .store :: .seq :: .tid :: .link :: .hcr :: .csc :: reports
  | .hlkRetrainReq .. =>
    .headTime0 :: .link :: .hcr :: reports
  | .tuneBurst .. | .lnsLoopEnd .. | .lnsEidleWrite .. | .strobeApply .. =>
    .lanes :: reports
  | .lnsLoopStart .. =>
    .box :: .store :: .seq :: .tid :: .link :: .lanes :: .hcr :: .csc :: reports
  | .posTrigger .. =>
    [.tid]
  | .plannerStep .. =>
    .seq :: .tid :: .csc :: .pwr :: reports
  | .approachReached =>
    [.regs, .store, .tid, .csc]
  | .setpointFrame =>
    [.tid, .free]
  | .tidLimitWrite .. | .tidGovCapWrite .. | .cscTrainStepDone .. | .rateMessage .. =>
    .box :: .tid :: .csc :: reports
  | .snsTrigger .. | .sensorFrame .. =>
    [.loops]
  | .loopCapture .. =>
    .box :: .store :: .seq :: .tid :: .csc :: .loops :: .free :: reports
  | .floodEnter | .resumeStart | .ctrlMessage .. =>
    .box :: .store :: .seq :: .tid :: .link :: .csc :: reports
  | .promptBreakEnter =>
    .box :: .store :: .seq :: .tid :: reports
  | .ebbToSlack | .breakToSlack =>
    .box :: .store :: .headTime0 :: .seq :: .tid :: .couch :: .link :: .hcr :: .csc :: .pwr :: reports
  | .neapEnter =>
    .seq :: .couch :: .link :: .hcr :: reports
  | .neapWake =>
    [.seq, .pwr]
  | .neapWakeDone | .bringupDone =>
    .box :: .headTime0 :: .seq :: .tid :: .couch :: .link :: .hcr :: .pwr :: reports
  | .hcrSchedule =>
    .tid :: .link :: .hcr :: reports
  | .hcrMeasTimeout =>
    [.hcr]
  | .strobeCalWindow .. =>
    .lanes :: .hcr :: reports
  | .cscPortTrainStart .. =>
    .lanes :: .csc :: reports
  | .cscTrainTimeout .. | .sampleMessage .. | .planMessage .. | .ackMessage .. =>
    .csc :: reports
  | .latencyMarker .. =>
    [.csc]
  | .timeMessage .. =>
    .clock :: .csc :: .free :: reports
  | .statusMessage .. =>
    .seq :: .tid :: .csc :: reports
  | .haloMessage .. =>
    .box :: .csc :: reports
  | .timeSetMessage .. =>
    .headTime0 :: .csc :: reports
  | .dramPick .. | .dramInitDone | .erasureSweepEnd .. | .testRawDramWrite =>
    .dram :: .mem :: reports
  | .dramRetrainStart =>
    [.regs, .dram, .box, .store, .mem]
  | .ptpSync .. | .ptpFollowUp .. | .ptpAnnounce .. | .announceTimeout .. | .delayConfirmEnd | .ethLinkChange ..
  | .timPortCfgWrite .. =>
    .free :: reports
  | .ptpDelayResp .. | .ptpPdelayRespFollowUp .. | .timCtrlWrite .. =>
    .clock :: .free :: reports
  | .ptpDelayReqSend .. =>
    [.time]
  | .armedStep | .acquisitionStepHeld | .timStepArm =>
    .clock :: reports
  | .timeMapLatch =>
    [.regs, .csc, .time]
  | .bwtSubmit | .grdStatus .. | .grdRead .. | .svnBurnDone .. | .permitRestored =>
    .bwt :: reports
  | .bwtWithdraw | .bwtHandover | .proposalLoaded .. | .grdReject .. | .proposalExpired =>
    .hcr :: .bwt :: reports
  | .grdConfirm .. =>
    .box :: .store :: .seq :: .tid :: .hcr :: .csc :: .bwt :: reports
  | .permitDeassert =>
    .box :: .store :: .seq :: .tid :: .csc :: .bwt :: .pwr :: reports
  | .pwrOkRise | .referencePresent .. | .protectiveStopLimit =>
    [.regs, .pwr]
  | .bootImageVerify .. =>
    .pwr :: reports
  | .refLost | .pllUnlock .. =>
    [.regs, .tid, .pwr]
  | .dieTempRead .. =>
    .tid :: .pwr :: reports
  | .watchdogExpire | .lockstepFault .. =>
    [.regs, .store, .tid, .pwr]
  | .domainPowerUp .. =>
    .dram :: .box :: .tide :: .mem :: .pwr :: reports
  | .domainPowerFault .. =>
    .box :: .tid :: .couch :: .link :: .hcr :: .pwr :: .free :: reports
  | .ringFreeze =>
    [.regs]
  | .bypass | .idcode =>
    [.regs, .obs, .pwr]
  | .samplePreload =>
    [.regs, .obs, .pwr, .free]
  | .extest =>
    [.regs, .dram, .host, .box, .store, .tide, .headTime0, .clock, .obs, .seq, .tid, .couch, .link, .lanes,
      .hcr, .csc, .loops, .aux, .mem, .time, .bwt, .pwr, .free]
  | .d0Entry =>
    [.hostMem, .host]
  | .lanePllLock .. =>
    [.regs, .headTime0, .free]
  | .bringupStepLimit =>
    .link :: .hcr :: .csc :: .pwr :: reports
  | .receiverAdaptEnd .. =>
    .link :: reports

/-! ### What a command leaves unchanged, register by register -/

/-- A field lies in its one or two words, at an aligned offset. -/
def Field.Sound (f : Field) : Prop := f.off % 4 = 0 ∧ f.lo + f.width ≤ 64

/-- The first bit of a field, counted from the base of BAR 0. -/
def Field.base (f : Field) : Nat := 8 * f.off + f.lo

/-- Two fields share no bit. -/
def Field.Apart (f g : Field) : Prop :=
  f.Sound ∧ g.Sound ∧ (f.base + f.width ≤ g.base ∨ g.base + g.width ≤ f.base)

/-- A field that reporting never changes: it lies outside HST_CNT, OBS_RING_WR, OBS_TRIG.EN, OBS_STATUS.TRIGGERED, OBS_CNT
and TIM_CNT[7]. -/
def Field.Quiet (g : Field) : Prop :=
  g.Sound ∧ (g.base + g.width ≤ 8 * 0x00104000 ∨ 8 * 0x00104040 ≤ g.base) ∧
    (g.base + g.width ≤ 8 * 0x01200438 ∨ 8 * 0x01200440 ≤ g.base) ∧
    (g.base + g.width ≤ 8 * 0x0150001C ∨ 8 * 0x01500020 ≤ g.base) ∧
    (g.base + g.width ≤ 8 * 0x01500034 + 31 ∨ 8 * 0x01500038 ≤ g.base) ∧
    (g.base + g.width ≤ 8 * 0x01500038 + 1 ∨ 8 * 0x01500038 + 2 ≤ g.base) ∧
    (g.base + g.width ≤ 8 * 0x01500100 ∨ 8 * 0x01500130 ≤ g.base)

/-- Every register field that shares no bit with one of l reads as before, but for what reporting may change. -/
def RegsBut (l : List Field) (s t : State) : Prop :=
  ∀ g : Field, g.Quiet → (∀ f ∈ l, f.Apart g) → t.get g = s.get g

/-- t is s but for the register fields in l and what reporting may change; host memory changes by the trace ring alone. -/
structure Reported (l : List Field) (s t : State) : Prop where
  parts : SameBut reports s t
  host : t.host = { s.host with events := t.host.events }
  regs : RegsBut l s t
  mem : s.get Reg.OBS_CTRL_RING_EN = 0 → t.hostMem = s.hostMem

end Sys2Proof.Machine
end

