-- ==== Sys2Proof/Certificates/Slice0/Obligations.lean ====
section
/-! DEFINITION. The statements for the provers. -/
open Sys2Proof Sys2Proof.Machine

/-- A submission doorbell (R437) sets PROD while at most 2^SIZE entries are pending, and is ring error 1 beyond (R438); a consumer doorbell (R440, R442) sets CONS and arms the ring, and has no effect but an event beyond PROD. -/
def Obligations.doorbells_move_the_ring_indices : Prop :=
  ∀ s : State,
    (∀ (r : Fin 32) (v : Word), (v.toNat % 65536 + 65536 - s.get (Reg.HST_SQ_IDX_CONS r)) % 65536 ≤ 2 ^ s.get (Reg.HST_SQ_CFG_SIZE r) → s.domainOn 14 = true → 
     Acts (.sqDoorbell r v) s fun t => t.get (Reg.HST_SQ_IDX_PROD r) = v.toNat % 65536 ∧ SameBut [.regs] s t ∧ RegsBut [Reg.HST_SQ_IDX_PROD r] s t) ∧
    (∀ (r : Fin 32) (v : Word), 2 ^ s.get (Reg.HST_SQ_CFG_SIZE r) < (v.toNat % 65536 + 65536 - s.get (Reg.HST_SQ_IDX_CONS r)) % 65536 → s.domainOn 14 = true → 
     Acts (.sqDoorbell r v) s fun t => t.get (Reg.HST_SQ_CFG_EN r) = 0 ∧ t.get (Reg.HST_SQ_STATUS_ERROR r) = 1 ∧ t.get (Reg.HST_SQ_STATUS_WAIT r) = 0 ∧ Reported [Reg.HST_SQ_CFG_EN r, Reg.HST_SQ_STATUS_ERROR r, Reg.HST_SQ_STATUS_WAIT r] s t) ∧
    (∀ (e : Fin 8) (v : Word), (v.toNat % 65536 + 65536 - s.get (Reg.HST_EQ_IDX_CONS e)) % 65536 ≤ (s.get (Reg.HST_EQ_IDX_PROD e) + 65536 - s.get (Reg.HST_EQ_IDX_CONS e)) % 65536 → e.val < s.host.events.length → s.domainOn 14 = true → 
     Acts (.eqDoorbell e v) s fun t => t.get (Reg.HST_EQ_IDX_CONS e) = v.toNat % 65536 ∧ (t.eqRing e).armed = true ∧ (t.eqRing e).queue = (s.eqRing e).queue ∧ (∀ k : Fin 8, k ≠ e → t.eqRing k = s.eqRing k) ∧ SameBut [.regs, .host] s t ∧ RegsBut [Reg.HST_EQ_IDX_CONS e] s t) ∧
    (∀ (e : Fin 8) (v : Word), (s.get (Reg.HST_EQ_IDX_PROD e) + 65536 - s.get (Reg.HST_EQ_IDX_CONS e)) % 65536 < (v.toNat % 65536 + 65536 - s.get (Reg.HST_EQ_IDX_CONS e)) % 65536 → s.domainOn 14 = true → 
     Acts (.eqDoorbell e v) s fun t => t.get (Reg.HST_EQ_IDX_CONS e) = s.get (Reg.HST_EQ_IDX_CONS e) ∧ Reported [] s t)

/-- The oldest queued event is written as one 32-byte record with the ring's PHASE where the ring is enabled and has room (R440), and every other byte of host memory stays; an armed ring whose condition holds sends its vector or sets its PBA bit, and an unmasked vector sends what was withheld (R442). The statement covers an event of one record; an event with continuation records goes the same way, one record after the other. -/
def Obligations.event_records_and_vectors : Prop :=
  ∀ s : State,
    (∀ (e : Fin 8) (ev : Event) (rest : List Event), e.val < s.host.events.length → (s.eqRing e).queue = ev :: rest → s.get (Reg.HST_EQ_CFG_EN e) = 1 ∧ s.get Reg.HST_STATUS_LINK_UP = 1 ∧ s.host.d3hot = false → ev.payload.length ≤ 12 → (s.get (Reg.HST_EQ_IDX_PROD e) + 65536 - s.get (Reg.HST_EQ_IDX_CONS e)) % 65536 < 2 ^ s.get (Reg.HST_EQ_CFG_SIZE e) → 
     Acts (.eventRecordWrite e) s fun t => (t.eqRing e).queue = rest ∧ (t.eqRing e).lost = false ∧ t.get (Reg.HST_EQ_IDX_PROD e) = (s.get (Reg.HST_EQ_IDX_PROD e) + 1) % 65536 ∧ t.hostMem.readBytes (s.recordAt e) 32 = ev.first (s.on (Reg.HST_EQ_STATUS_PHASE e)) (s.eqRing e).lost ∧ (∀ a, a < s.recordAt e ∨ s.recordAt e + 32 ≤ a → t.hostMem.read a = s.hostMem.read a) ∧ SameBut [.regs, .hostMem, .host] s t ∧ RegsBut [Reg.HST_EQ_IDX_PROD e, Reg.HST_EQ_STATUS_PHASE e] s t) ∧
    (∀ (e : Fin 8), e.val < s.host.events.length → s.eqDue e = true → s.get (Reg.MSIX_CTRL_MASK (s.get (Reg.HST_EQ_CFG_VEC e))) = 0 → 
     Acts (.eqInterrupt e) s fun t => (t.eqRing e).armed = false ∧ t.host.msixSent = s.host.msixSent ++ [s.get (Reg.HST_EQ_CFG_VEC e)] ∧ t.host.msixPba = s.host.msixPba ∧ SameBut reports s t ∧ RegsBut [] s t) ∧
    (∀ (e : Fin 8), e.val < s.host.events.length → s.eqDue e = true → s.get (Reg.MSIX_CTRL_MASK (s.get (Reg.HST_EQ_CFG_VEC e))) = 1 → 
     Acts (.eqInterrupt e) s fun t => (t.eqRing e).armed = false ∧ bitAt t.host.msixPba (s.get (Reg.HST_EQ_CFG_VEC e)) = true ∧ t.host.msixSent = s.host.msixSent ∧ SameBut [.host] s t) ∧
    (∀ (v : Fin 64), bitAt s.host.msixPba v = true → s.domainOn 14 = true → 
     Acts (.msixUnmask v) s fun t => t.get (Reg.MSIX_CTRL_MASK v) = 0 ∧ bitAt t.host.msixPba v = false ∧ t.host.msixSent = s.host.msixSent ++ [v.val] ∧ SameBut reports s t ∧ RegsBut [Reg.MSIX_CTRL_MASK v] s t) ∧
    (∀ (v : Fin 64), bitAt s.host.msixPba v = false → s.domainOn 14 = true → 
     Acts (.msixUnmask v) s fun t => t.get (Reg.MSIX_CTRL_MASK v) = 0 ∧ t.host.msixSent = s.host.msixSent ∧ SameBut [.regs, .host] s t ∧ RegsBut [Reg.MSIX_CTRL_MASK v] s t)

/-- R434: two retries, then the failure path of the requester: ring error 2 for a descriptor fetch, whose CONS stays, and the end of the job for a job, alone where it is no LAYOUT job; a descriptor fetched with EP set is ring error 3 (R438). R435: the link down and up, with the held records delivered at its return. -/
def Obligations.host_reads_and_link : Prop :=
  ∀ s : State,
    (∀ (r : HostRead), s.readerLive r.reader = true → s.readTries r < 2 → 
     Acts (.hostReadTimeout r) s fun t => t.readTries r = s.readTries r + 1 ∧ t.host.jobs = s.host.jobs ∧ SameBut reports s t ∧ RegsBut [] s t) ∧
    (∀ (q : Fin 32) (a : BitVec 64), s.readerLive (.fetch q) = true → 2 ≤ s.readTries ⟨.fetch q, a⟩ → 
     Acts (.hostReadTimeout ⟨.fetch q, a⟩) s fun t => t.get (Reg.HST_SQ_CFG_EN q) = 0 ∧ t.get (Reg.HST_SQ_STATUS_ERROR q) = 2 ∧ t.get (Reg.HST_SQ_IDX_CONS q) = s.get (Reg.HST_SQ_IDX_CONS q) ∧ SameBut reports s t) ∧
    (∀ (j : Word) (a : BitVec 64), s.readerLive (.job j) = true → 2 ≤ s.readTries ⟨.job j, a⟩ → 
     Acts (.hostReadTimeout ⟨.job j, a⟩) s fun t => t.findJob j.toNat = none) ∧
    (∀ (j : Word) (a : BitVec 64), s.readerLive (.job j) = true → 2 ≤ s.readTries ⟨.job j, a⟩ → s.box.streams.all (fun m => m.jobs.all fun l => decide (l.aseq ≠ j.toNat)) = true → 
     Acts (.hostReadTimeout ⟨.job j, a⟩) s fun t => (∀ k, k ≠ j.toNat → t.findJob k = s.findJob k) ∧ t.box = s.box) ∧
    (∀ (q : Fin 32) (a : BitVec 64) (st : BitVec 3), s.readerLive (.fetch q) = true → 
     Acts (.hostReadError ⟨.fetch q, a⟩ st) s fun t => t.get (Reg.HST_SQ_CFG_EN q) = 0 ∧ t.get (Reg.HST_SQ_STATUS_ERROR q) = (if st = 0#3 then 3 else 2) ∧ t.get (Reg.HST_SQ_IDX_CONS q) = s.get (Reg.HST_SQ_IDX_CONS q) ∧ SameBut reports s t ∧ RegsBut [Reg.HST_SQ_CFG_EN q, Reg.HST_SQ_STATUS_ERROR q, Reg.HST_SQ_STATUS_WAIT q] s t) ∧
    (s.get Reg.HST_STATUS_LINK_UP = 1 → 
     Acts .pcieLinkDown s fun t => t.get Reg.HST_STATUS_LINK_UP = 0 ∧ t.get Reg.HST_STATUS_SPEED = 0 ∧ t.get Reg.HST_STATUS_WIDTH = 0 ∧ Reported [Reg.HST_STATUS_LINK_UP, Reg.HST_STATUS_SPEED, Reg.HST_STATUS_WIDTH] s t) ∧
    (∀ (speed : Fin 6) (width : Fin 17), s.get Reg.HST_STATUS_LINK_UP = 0 → s.host.d3hot = false → 
     Acts (.pcieLinkUp speed width) s fun t => t.get Reg.HST_STATUS_LINK_UP = 1 ∧ t.get Reg.HST_STATUS_SPEED = speed.val ∧ t.get Reg.HST_STATUS_WIDTH = width.val ∧ t.host.heldWrites = [] ∧ SameBut reports s t ∧ RegsBut [Reg.HST_STATUS_LINK_UP, Reg.HST_STATUS_SPEED, Reg.HST_STATUS_WIDTH] s t)

/-- R436: writing BASE, or either half of it (R433), while EN is 0 sets both indices to 0, and PHASE of an event ring to 1; CFG sets EN, EQ and SIZE within its range, clears ERROR (R438) and arms an event ring (R442); a write to an enabled ring has no effect apart from clearing EN, and raises 0x100C. R432: HST_CTRL.EN. -/
def Obligations.ring_set_up_writes : Prop :=
  ∀ s : State,
    (∀ (r : Fin 32) (v : BitVec 64), s.get (Reg.HST_SQ_CFG_EN r) = 0 → s.domainOn 14 = true → 
     Acts (.hstSqBaseWrite r ⟨none, v⟩) s fun t => t.get (Reg.HST_SQ_BASE_BASE r) = v.toNat / 4096 ∧ t.get (Reg.HST_SQ_IDX_PROD r) = 0 ∧ t.get (Reg.HST_SQ_IDX_CONS r) = 0 ∧ SameBut [.regs, .hostMem, .host] s t) ∧
    (∀ (r : Fin 32) (h : Fin 2) (v : BitVec 64), s.get (Reg.HST_SQ_CFG_EN r) = 0 → s.domainOn 14 = true → 
     Acts (.hstSqBaseWrite r ⟨some h, v⟩) s fun t => t.get (Reg.HST_SQ_BASE_BASE r) = (if h = 0 then s.get (Reg.HST_SQ_BASE_BASE r) / 2 ^ 20 * 2 ^ 20 + v.toNat / 4096 % 2 ^ 20 else v.toNat % 2 ^ 32 * 2 ^ 20 + s.get (Reg.HST_SQ_BASE_BASE r) % 2 ^ 20) ∧ t.get (Reg.HST_SQ_IDX_PROD r) = 0 ∧ t.get (Reg.HST_SQ_IDX_CONS r) = 0 ∧ SameBut [.regs, .hostMem, .host] s t) ∧
    (∀ (r : Fin 32) (half : Option (Fin 2)) (v : BitVec 64), s.get (Reg.HST_SQ_CFG_EN r) = 1 → s.domainOn 14 = true → 
     Acts (.hstSqBaseWrite r ⟨half, v⟩) s fun t => t.get (Reg.HST_SQ_CFG_EN r) = 0 ∧ t.get (Reg.HST_SQ_STATUS_WAIT r) = 0 ∧ Reported [Reg.HST_SQ_CFG_EN r, Reg.HST_SQ_STATUS_WAIT r] s t) ∧
    (∀ (r : Fin 32) (v : Word), s.get (Reg.HST_SQ_CFG_EN r) = 0 → v.getLsbD 31 = true → s.domainOn 14 = true → 
     Acts (.hstSqCfgWrite r v) s fun t => t.get (Reg.HST_SQ_CFG_EN r) = 1 ∧ t.get (Reg.HST_SQ_CFG_EQ r) = v.toNat % 8 ∧ t.get (Reg.HST_SQ_CFG_SIZE r) = (if 4 ≤ v.toNat / 65536 % 32 ∧ v.toNat / 65536 % 32 ≤ 16 then v.toNat / 65536 % 32 else s.get (Reg.HST_SQ_CFG_SIZE r)) ∧ t.get (Reg.HST_SQ_STATUS_ERROR r) = 0 ∧ t.get (Reg.HST_SQ_IDX_CONS r) = s.get (Reg.HST_SQ_IDX_CONS r) ∧ SameBut [.regs] s t) ∧
    (∀ (r : Fin 32) (v : Word), s.get (Reg.HST_SQ_CFG_EN r) = 1 → s.domainOn 14 = true → 
     Acts (.hstSqCfgWrite r v) s fun t => t.get (Reg.HST_SQ_CFG_EN r) = 0 ∧ t.get (Reg.HST_SQ_STATUS_WAIT r) = 0 ∧ Reported [Reg.HST_SQ_CFG_EN r, Reg.HST_SQ_STATUS_WAIT r] s t) ∧
    (∀ (e : Fin 8) (v : BitVec 64), s.get (Reg.HST_EQ_CFG_EN e) = 0 → s.domainOn 14 = true → 
     Acts (.hstEqBaseWrite e ⟨none, v⟩) s fun t => t.get (Reg.HST_EQ_BASE_BASE e) = v.toNat / 4096 ∧ t.get (Reg.HST_EQ_IDX_PROD e) = 0 ∧ t.get (Reg.HST_EQ_IDX_CONS e) = 0 ∧ t.get (Reg.HST_EQ_STATUS_PHASE e) = 1 ∧ SameBut [.regs] s t) ∧
    (∀ (e : Fin 8) (h : Fin 2) (v : BitVec 64), s.get (Reg.HST_EQ_CFG_EN e) = 0 → s.domainOn 14 = true → 
     Acts (.hstEqBaseWrite e ⟨some h, v⟩) s fun t => t.get (Reg.HST_EQ_BASE_BASE e) = (if h = 0 then s.get (Reg.HST_EQ_BASE_BASE e) / 2 ^ 20 * 2 ^ 20 + v.toNat / 4096 % 2 ^ 20 else v.toNat % 2 ^ 32 * 2 ^ 20 + s.get (Reg.HST_EQ_BASE_BASE e) % 2 ^ 20) ∧ t.get (Reg.HST_EQ_IDX_PROD e) = 0 ∧ t.get (Reg.HST_EQ_IDX_CONS e) = 0 ∧ t.get (Reg.HST_EQ_STATUS_PHASE e) = 1 ∧ SameBut [.regs] s t) ∧
    (∀ (e : Fin 8) (half : Option (Fin 2)) (v : BitVec 64), s.get (Reg.HST_EQ_CFG_EN e) = 1 → s.domainOn 14 = true → 
     Acts (.hstEqBaseWrite e ⟨half, v⟩) s fun t => t.get (Reg.HST_EQ_CFG_EN e) = 0 ∧ Reported [Reg.HST_EQ_CFG_EN e] s t) ∧
    (∀ (e : Fin 8) (v : Word), s.get (Reg.HST_EQ_CFG_EN e) = 0 → v.getLsbD 31 = true → s.domainOn 14 = true → e.val < s.host.events.length → 
     Acts (.hstEqCfgWrite e v) s fun t => t.get (Reg.HST_EQ_CFG_EN e) = 1 ∧ (t.eqRing e).armed = true ∧ (t.eqRing e).queue = (s.eqRing e).queue ∧ SameBut [.regs, .host] s t) ∧
    (∀ (e : Fin 8) (v : Word), s.get (Reg.HST_EQ_CFG_EN e) = 1 → s.domainOn 14 = true → 
     Acts (.hstEqCfgWrite e v) s fun t => t.get (Reg.HST_EQ_CFG_EN e) = 0 ∧ Reported [Reg.HST_EQ_CFG_EN e] s t) ∧
    (∀ (v : Word), s.domainOn 14 = true → 
     Acts (.hstCtrlWrite v) s fun t => t.get Reg.HST_CTRL_EN = v.toNat % 2 ∧ SameBut [.regs] s t ∧ RegsBut [⟨0x00100000, 0, 32⟩] s t)

/-- R13 for every register of the tables that has no behaviour of its own and is 32 bits wide: an RW field takes the written value where its range admits it, W1C and W1S clear and set bits, and RO, WO, RW-BW fields keep theirs; reserved bits keep theirs (R12); a misaligned access and one that meets no register have no effect (R433, R12). R526: a write of 0 to a counter clears COUNT and SAT, and any other write to it has no effect. -/
def Obligations.register_write_by_access_type : Prop :=
  ∀ s : State,
    (∀ (off : BitVec 25) (v : BitVec 64) (r : RegRow) (idx : List Nat), findRow off.toNat = some (r, idx, 0) → r.wide = false → off.toNat % 4 = 0 → canonOffset off.toNat = off.toNat → s.domainOn (domainOf off.toNat) = true → natMem r.base ownBehaviour = false → r.fields.any (fun f => decide (f.access = .sat)) = false → (s.writeWord off.toNat (v.setWidth 32)).writeHolds r.base idx = true → 
     Acts (.registerWrite off false v) s fun t => (∀ f ∈ r.fields, t.get ⟨off.toNat, f.lo, f.width⟩ = f.rule (s.get ⟨off.toNat, f.lo, f.width⟩) (bvField v f.lo f.width)) ∧ (∀ i < 32, (∀ f ∈ r.fields, i < f.lo ∨ f.lo + f.width ≤ i) → (rfWord t.regs off.toNat).getLsbD i = (rfWord s.regs off.toNat).getLsbD i) ∧ (∀ o, o ≠ off.toNat → rfWord t.regs o = rfWord s.regs o) ∧ SameBut [.regs] s t) ∧
    (∀ (off : BitVec 25) (v : BitVec 64) (r : RegRow) (idx : List Nat), findRow off.toNat = some (r, idx, 0) → r.wide = false → off.toNat % 4 = 0 → canonOffset off.toNat = off.toNat → natMem r.base [0x00800010, 0x01000020, 0x01100108] = false → s.domainOn (domainOf off.toNat) = true → (s.writeWord off.toNat (v.setWidth 32)).writeHolds r.base idx = false → 
     Acts (.registerWrite off false v) s fun t => (∀ o, rfWord t.regs o = rfWord s.regs o) ∧ SameBut [.regs] s t) ∧
    (∀ (off : BitVec 25) (wide : Bool) (v : BitVec 64), off.toNat % (if wide then 8 else 4) ≠ 0 → 
     Acts (.registerWrite off wide v) s fun t => t = s) ∧
    (∀ (off : BitVec 25) (v : BitVec 64), findRow (canonOffset off.toNat) = none → 
     Acts (.registerWrite off false v) s fun t => t = s) ∧
    (∀ (off : BitVec 25) (wide : Bool) (v : BitVec 64) (r : RegRow) (idx : List Nat), findRow off.toNat = some (r, idx, 0) → r.fields.any (fun f => decide (f.access = .sat)) = true → s.domainOn (domainOf off.toNat) = true → (if wide then v else v &&& 0xFFFFFFFF) = 0 → 
     Acts (.counterClear off wide v) s fun t => t.get ⟨off.toNat, 0, 48⟩ = 0 ∧ t.get ⟨off.toNat + 4, 31, 1⟩ = 0 ∧ (∀ o, o ≠ off.toNat → o ≠ off.toNat + 4 → rfWord t.regs o = rfWord s.regs o) ∧ SameBut [.regs] s t) ∧
    (∀ (off : BitVec 25) (wide : Bool) (v : BitVec 64), (if wide then v else v &&& 0xFFFFFFFF) ≠ 0 → s.domainOn (domainOf off.toNat) = true → 
     Acts (.counterClear off wide v) s fun t => t = s)

/-- R14, R506, R511: PERST_N, the loss of supply and the end of a protective reset start a cold reset: every register reads its Reset value, except the recorded causes, the peak die temperature, the one-time-programmed SVN, the strap of the cascade and the reference, which outlast it (DESIGN CHOICE where R14 names no exception, log entry 46); jobs, strips and DRAM contents are gone; the queue of commands and host memory, which lie outside the device, stand. -/
def Obligations.cold_reset_returns_reset_values : Prop :=
  ∀ s : State,
    (s.host.perstLow = false → 
     Acts .perstNAssert s fun t => (∀ g : Field, g.Sound → (∀ f ∈ coldKeeps, f.Apart g) → t.get g = State.reset.get g) ∧ t.get ⟨0x01400010, 1, 1⟩ = 1 ∧ t.host.perstLow = true ∧ t.pending = s.pending ∧ t.hostMem = s.hostMem ∧ t.host.jobs = [] ∧ t.box.strips = [] ∧ t.store.codec = [] ∧ t.dram = [] ∧ t.tide = 0) ∧
    (s.pwr.ok = true → 
     Acts .pwrOkFall s fun t => (∀ g : Field, g.Sound → (∀ f ∈ coldKeeps, f.Apart g) → t.get g = State.reset.get g) ∧ t.get ⟨0x01400010, 7, 1⟩ = 1 ∧ t.pwr.ok = false ∧ t.pending = s.pending ∧ t.hostMem = s.hostMem ∧ t.host.jobs = [] ∧ t.box.strips = [] ∧ t.store.codec = [] ∧ t.dram = [] ∧ t.tide = 0) ∧
    (s.pwr.ok = true → 
     Acts .brownOut s fun t => (∀ g : Field, g.Sound → (∀ f ∈ coldKeeps, f.Apart g) → t.get g = State.reset.get g) ∧ t.get ⟨0x01400010, 7, 1⟩ = 1 ∧ t.pwr.ok = false ∧ t.pending = s.pending ∧ t.hostMem = s.hostMem ∧ t.host.jobs = [] ∧ t.box.strips = [] ∧ t.store.codec = [] ∧ t.dram = [] ∧ t.tide = 0) ∧
    (s.pwr.protective = true → s.pwr.aonOnly = true → s.pwr.thermal = false → 
     Acts .protectiveResetEnd s fun t => (∀ g : Field, g.Sound → (∀ f ∈ Reg.PWR_BRINGUP_STEP :: coldKeeps, f.Apart g) → t.get g = State.reset.get g) ∧ t.get Reg.PWR_CLK_STATUS_REF = 1 ∧ t.pwr.protective = false ∧ t.pending = s.pending ∧ t.hostMem = s.hostMem ∧ t.host.jobs = [] ∧ t.box.strips = [] ∧ t.store.codec = [] ∧ t.dram = [] ∧ t.tide = 0)

/-- R508, step 1, for HST_RESET with its KEY, the watchdog and a lockstep fault: HEAD_BLANK_N low, the profile to STOP, the cause recorded; a reset before READY or during another has no effect. Step 2: with the profile at REST the units are reset, and DRAM contents and tide time stand (R509). -/
def Obligations.warm_reset_starts_and_resets_units : Prop :=
  ∀ s : State,
    (∀ (v : Word), v.toNat % 256 = 0x5A → s.domainOn 14 = true → s.get Reg.HST_STATUS_READY = 1 → s.pwr.warm = none → s.pwr.protective = false → 
     Acts (.hstReset v) s fun t => (∃ w, t.pwr.warm = some w ∧ w.bit = 2 ∧ w.unitsDone = false) ∧ t.get ⟨0x01400010, 2, 1⟩ = 1 ∧ t.exposing = false ∧ t.tid.job = none ∧ t.tid.heldJobs = [] ∧ t.get Reg.TID_PRF_STATUS_STATE = (if s.get Reg.TID_PRF_STATUS_STATE = 1 ∨ s.get Reg.TID_PRF_STATUS_STATE = 3 then 2 else s.get Reg.TID_PRF_STATUS_STATE) ∧ SameBut [.regs, .store, .tid, .pwr] s t) ∧
    (s.get Reg.HST_STATUS_READY = 1 → s.pwr.warm = none → s.pwr.protective = false → 
     Acts .watchdogExpire s fun t => (∃ w, t.pwr.warm = some w ∧ w.bit = 4 ∧ w.unitsDone = false) ∧ t.get ⟨0x01400010, 4, 1⟩ = 1 ∧ t.exposing = false ∧ t.tid.job = none ∧ t.tid.heldJobs = [] ∧ t.get Reg.TID_PRF_STATUS_STATE = (if s.get Reg.TID_PRF_STATUS_STATE = 1 ∨ s.get Reg.TID_PRF_STATUS_STATE = 3 then 2 else s.get Reg.TID_PRF_STATUS_STATE) ∧ SameBut [.regs, .store, .tid, .pwr] s t) ∧
    (∀ (addr : BitVec 64) (poison : Bool), s.get Reg.HST_STATUS_READY = 1 → s.pwr.warm = none → s.pwr.protective = false → 
     Acts (.lockstepFault ⟨addr, poison⟩) s fun t => (∃ w, t.pwr.warm = some w ∧ w.bit = 3 ∧ w.unitsDone = false) ∧ t.get ⟨0x01400010, 3, 1⟩ = 1 ∧ t.exposing = false ∧ t.tid.job = none ∧ t.tid.heldJobs = [] ∧ t.get Reg.TID_PRF_STATUS_STATE = (if s.get Reg.TID_PRF_STATUS_STATE = 1 ∨ s.get Reg.TID_PRF_STATUS_STATE = 3 then 2 else s.get Reg.TID_PRF_STATUS_STATE) ∧ SameBut [.regs, .store, .tid, .pwr] s t) ∧
    (∀ (w : WarmReset), s.pwr.warm = some w → w.unitsDone = false → s.get Reg.TID_PRF_STATUS_STATE = 0 → 
     Acts .warmResetUnits s fun t => t.pwr.warm = some { w with unitsDone := true } ∧ t.mem.scans = [] ∧ t.obs.snapshot = [] ∧ t.dram = s.dram ∧ t.tide = s.tide ∧ t.pending = s.pending) ∧
    (∀ (v : Word), v.toNat % 256 ≠ 0x5A → s.domainOn 14 = true → 
     Acts (.hstReset v) s fun t => t = s)

/-- The steps of R513: step 1 from PWR_OK to the reference and OTP, step 2 once PERST_N is high, the choice of the boot image by SVN with the other as fallback (R492), each image checked as R491 says, and step 8, in SLACK, once steps 4 to 6 have ended. A failed step 2 powers the device down to AON with FAIL_CODE 3; ports still training at the limit of step 6 fail. -/
def Obligations.power_ok_and_bring_up_steps : Prop :=
  ∀ s : State,
    (s.pwr.ok = false → s.get Reg.PWR_CLK_STATUS_REF = 0 → 
     Acts .pwrOkRise s fun t => t.pwr.ok = true ∧ t.pwr.okAt = s.aon ∧ t.get Reg.PWR_BRINGUP_STEP = 1 ∧ t.get Reg.PWR_BRINGUP_FAIL_STEP = 1 ∧ t.get Reg.PWR_BRINGUP_FAIL_CODE = 1 ∧ SameBut [.regs, .pwr] s t ∧ RegsBut [Reg.PWR_BRINGUP_STEP, Reg.PWR_BRINGUP_FAIL_STEP, Reg.PWR_BRINGUP_FAIL_CODE] s t) ∧
    (s.pwr.ok = true → s.pwr.step1 = false → s.get Reg.PWR_BRINGUP_STEP = 1 → s.get Reg.PWR_BRINGUP_FAIL_CODE ≠ 2 → 
     Acts (.referencePresent true) s fun t => t.pwr.step1 = true ∧ t.get Reg.PWR_CLK_STATUS_REF = 1 ∧ t.get Reg.PWR_BRINGUP_FAIL_CODE = 0 ∧ SameBut [.regs, .pwr] s t ∧ RegsBut [Reg.PWR_CLK_STATUS_REF, Reg.PWR_BRINGUP_STEP, Reg.PWR_BRINGUP_FAIL_STEP, Reg.PWR_BRINGUP_FAIL_CODE] s t) ∧
    (s.pwr.ok = true → s.pwr.step1 = false → s.get Reg.PWR_BRINGUP_STEP = 1 → s.get Reg.PWR_BRINGUP_FAIL_CODE ≠ 2 → 
     Acts (.referencePresent false) s fun t => t.pwr = s.pwr ∧ t.get Reg.PWR_CLK_STATUS_REF = 1 ∧ t.get Reg.PWR_BRINGUP_FAIL_STEP = 1 ∧ t.get Reg.PWR_BRINGUP_FAIL_CODE = 2 ∧ SameBut [.regs] s t) ∧
    (s.host.perstLow = true → s.pwr.ok = true → s.pwr.step1 = true → s.obs.heldInReset = false → s.pwr.protective = false → 
     Acts .perstNDeassert s fun t => t.host.perstLow = false ∧ t.get Reg.PWR_BRINGUP_STEP = 2 ∧ t.pwr.bootAt = s.aon ∧ (∀ d, d = 1 ∨ d = 14 → s.domainOn d = false → bitAt t.pwr.requested d = true) ∧ SameBut [.regs, .host, .pwr] s t ∧ RegsBut [Reg.PWR_BRINGUP_STEP] s t) ∧
    (s.domainOn 14 = true → s.host.perstLow = false → 
     Acts .configSpaceReady s fun t => t.host.configReady = true ∧ SameBut [.host] s t) ∧
    (∀ (read0 read1 : Bool) (image0 image1 : List Byte) (slot0 slot1 : Option (List Byte)), readSlot read0 image0 = slot0 → readSlot read1 image1 = slot1 → s.get Reg.PWR_BRINGUP_STEP = 2 → s.domainOn 1 = true → s.get Reg.HST_STATUS_READY = 0 → slotSvn slot1 ≤ slotSvn slot0 → imageFault s.pwr.keyHash (s.get Reg.BWT_SVN_REQ_OTP) slot0 = 0 → 
     Acts (.bootImageVerify read0 read1 image0 image1) s fun t => t.get Reg.BWT_BOOT_SLOT = 0 ∧ t.get Reg.BWT_BOOT_SVN = slotSvn slot0 ∧ t.get Reg.HST_STATUS_READY = 1 ∧ t.get Reg.PWR_BRINGUP_STEP = 4 ∧ t.pwr.runAt = s.aon ∧ SameBut [.regs, .pwr] s t) ∧
    (∀ (read0 read1 : Bool) (image0 image1 : List Byte) (slot0 slot1 : Option (List Byte)), readSlot read0 image0 = slot0 → readSlot read1 image1 = slot1 → s.get Reg.PWR_BRINGUP_STEP = 2 → s.domainOn 1 = true → s.get Reg.HST_STATUS_READY = 0 → slotSvn slot0 < slotSvn slot1 → imageFault s.pwr.keyHash (s.get Reg.BWT_SVN_REQ_OTP) slot1 = 0 → 
     Acts (.bootImageVerify read0 read1 image0 image1) s fun t => t.get Reg.BWT_BOOT_SLOT = 1 ∧ t.get Reg.BWT_BOOT_SVN = slotSvn slot1 ∧ t.get Reg.HST_STATUS_READY = 1 ∧ t.get Reg.PWR_BRINGUP_STEP = 4 ∧ t.pwr.runAt = s.aon ∧ SameBut [.regs, .pwr] s t) ∧
    (∀ (read0 read1 : Bool) (image0 image1 : List Byte) (slot0 slot1 : Option (List Byte)), readSlot read0 image0 = slot0 → readSlot read1 image1 = slot1 → s.get Reg.PWR_BRINGUP_STEP = 2 → s.domainOn 1 = true → s.get Reg.HST_STATUS_READY = 0 → slotSvn slot0 < slotSvn slot1 → imageFault s.pwr.keyHash (s.get Reg.BWT_SVN_REQ_OTP) slot1 ≠ 0 → imageFault s.pwr.keyHash (s.get Reg.BWT_SVN_REQ_OTP) slot0 = 0 → 
     Acts (.bootImageVerify read0 read1 image0 image1) s fun t => t.get Reg.BWT_BOOT_SLOT = 0 ∧ t.get Reg.BWT_BOOT_SVN = slotSvn slot0 ∧ t.get Reg.BWT_BOOT_FAIL1 = imageFault s.pwr.keyHash (s.get Reg.BWT_SVN_REQ_OTP) slot1 ∧ t.get Reg.HST_STATUS_READY = 1 ∧ t.get Reg.PWR_BRINGUP_STEP = 4) ∧
    (∀ (read0 read1 : Bool) (image0 image1 : List Byte) (slot0 slot1 : Option (List Byte)), readSlot read0 image0 = slot0 → readSlot read1 image1 = slot1 → s.get Reg.PWR_BRINGUP_STEP = 2 → s.domainOn 1 = true → s.get Reg.HST_STATUS_READY = 0 → s.get Reg.PWR_BRINGUP_FAIL_STEP = 0 → imageFault s.pwr.keyHash (s.get Reg.BWT_SVN_REQ_OTP) slot0 ≠ 0 ∧ imageFault s.pwr.keyHash (s.get Reg.BWT_SVN_REQ_OTP) slot1 ≠ 0 → 
     Acts (.bootImageVerify read0 read1 image0 image1) s fun t => t.get Reg.BWT_BOOT_FAIL0 = imageFault s.pwr.keyHash (s.get Reg.BWT_SVN_REQ_OTP) slot0 ∧ t.get Reg.BWT_BOOT_FAIL1 = imageFault s.pwr.keyHash (s.get Reg.BWT_SVN_REQ_OTP) slot1 ∧ t.get Reg.HST_STATUS_READY = 0 ∧ t.get Reg.PWR_BRINGUP_FAIL_STEP = 2 ∧ t.get Reg.PWR_BRINGUP_FAIL_CODE = 3 ∧ t.pwr.aonOnly = true ∧ (∀ d, 1 ≤ d → d ≤ 15 → t.domainOn d = false)) ∧
    (s.get Reg.PWR_BRINGUP_STEP = 4 ∨ s.get Reg.PWR_BRINGUP_STEP = 5 → s.get Reg.HST_STATUS_READY = 1 → s.get Reg.EXP_STATE_STATE = 0 → s.pwr.requested = 0 → s.pwr.protective = false → s.stepsEnded = true → 
     Acts .bringupDone s fun t => t.get Reg.PWR_BRINGUP_DONE = 1 ∧ t.get Reg.PWR_BRINGUP_STEP = 8 ∧ t.pwr.warm = none) ∧
    (s.get Reg.PWR_BRINGUP_STEP = 2 → s.pwr.bootAt + 400000000 ≤ s.aon → s.pwr.aonOnly = false → s.get Reg.PWR_BRINGUP_FAIL_STEP = 0 → 
     Acts .bringupStepLimit s fun t => t.get Reg.PWR_BRINGUP_FAIL_STEP = 2 ∧ t.get Reg.PWR_BRINGUP_FAIL_CODE = 3 ∧ t.pwr.aonOnly = true ∧ (∀ d, 1 ≤ d → d ≤ 15 → t.domainOn d = false)) ∧
    (∀ (p : Fin 3), s.get Reg.PWR_BRINGUP_STEP = 4 → s.pwr.runAt + 200000000 ≤ s.aon → s.portEnabled p = true → 1 ≤ s.portState p ∧ s.portState p ≤ 5 → 
     Acts .bringupStepLimit s fun t => t.portState p = 7 ∧ t.get (Reg.CSC_PORT_CAUSE p) = s.portState p)

/-- R504, R511, R512: the cause is recorded, the head blanked, and where no clock runs every domain but AON goes down; the event follows the next bring-up. R497, R500: an awaited domain comes up once the domains that it needs are up, and clears its FAULT; a failed quad or head-link domain stays down with its FAULT bit, any other takes the protective reset. R499: an idle quad enters neap. -/
def Obligations.protective_reset_and_domains : Prop :=
  ∀ s : State,
    (s.get Reg.PWR_CLK_STATUS_REF = 1 → s.pwr.aonOnly = false → 
     Acts .refLost s fun t => t.get Reg.PWR_CLK_STATUS_REF = 0 ∧ t.get ⟨0x01400010, 6, 1⟩ = 1 ∧ t.pwr.protective = true ∧ t.pwr.aonOnly = true ∧ t.pwr.later = s.pwr.later ++ [(0x1303, [])] ∧ t.exposing = false ∧ (∀ d, 1 ≤ d → d ≤ 15 → t.domainOn d = false) ∧ SameBut [.regs, .pwr] s t) ∧
    (∀ (pll : Fin 9), pll.val = 1 ∨ pll.val = 2 ∨ pll.val = 5 ∨ pll.val = 6 → s.get (pllBit pll) = 1 → s.pwr.aonOnly = false → 
     Acts (.pllUnlock pll) s fun t => t.get (pllBit pll) = 0 ∧ t.get ⟨0x01400010, 6, 1⟩ = 1 ∧ t.pwr.protective = true ∧ (t.exposing = false ∨ s.pwr.protective = true) ∧ t.pwr.later = s.pwr.later ++ [(0x1304, [(4, pll.val)])] ∧ SameBut [.regs, .tid, .pwr] s t) ∧
    (∀ (temp : BitVec 16), temp.toInt < s.getS Reg.PWR_TEMP_WARN_TRIP → 
     Acts (.dieTempRead temp) s fun t => t.get Reg.PWR_DIE_TEMP_TEMP = temp.toNat ∧ t.getS Reg.PWR_DIE_TEMP_PEAK = max temp.toInt (s.getS Reg.PWR_DIE_TEMP_PEAK) ∧ t.pwr.hot = false ∧ t.pwr.protective = s.pwr.protective ∧ RegsBut [Reg.PWR_DIE_TEMP_TEMP, Reg.PWR_DIE_TEMP_PEAK, ⟨cntPwr 6, 0, 64⟩] s t) ∧
    (∀ (temp : BitVec 16), s.getS Reg.PWR_TEMP_WARN_TRIP ≤ temp.toInt → s.pwr.hot = true → s.pwr.thermal = false → 
     Acts (.dieTempRead temp) s fun t => t.get Reg.PWR_DIE_TEMP_TEMP = temp.toNat ∧ t.pwr.protective = true ∧ t.pwr.thermal = true ∧ t.get ⟨0x01400010, 5, 1⟩ = 1) ∧
    (s.pwr.protective = true → s.pwr.aonOnly = false → s.pwr.stopBy ≤ s.tide → 
     Acts .protectiveStopLimit s fun t => t.pwr.aonOnly = true ∧ (∀ d, 1 ≤ d → d ≤ 15 → t.domainOn d = false) ∧ SameBut [.regs, .pwr] s t ∧ RegsBut [Reg.PWR_DOMAIN_STATUS_ON, Reg.PWR_DOMAIN_STATUS_FAULT, ⟨0x01400008, 1, 8⟩] s t) ∧
    (∀ (d : Fin 16), s.awaited d = true → (needsOf d).all s.domainOn = true → s.wakeTurn d = true → s.quadTurn d = true → 
     Acts (.domainPowerUp d) s fun t => t.domainOn d = true ∧ bitAt (t.get Reg.PWR_DOMAIN_STATUS_FAULT) d = false ∧ bitAt t.pwr.requested d = false) ∧
    (∀ (d : Fin 16), s.awaited d = true → 2 ≤ d.val ∧ d.val ≤ 5 → 
     Acts (.domainPowerFault d) s fun t => t.domainOn d = false ∧ bitAt (t.get Reg.PWR_DOMAIN_STATUS_FAULT) d = true ∧ bitAt t.pwr.requested d = false) ∧
    (∀ (d : Fin 16), s.awaited d = true → d.val < 2 ∨ d.val = 6 ∨ d.val = 7 ∨ 12 ≤ d.val → 
     Acts (.domainPowerFault d) s fun t => t.pwr.protective = true ∧ t.pwr.later = s.pwr.later ++ [(0x1305, [(4, d.val)])]) ∧
    (∀ (d : Fin 16), s.awaited d = true → d.val = 10 ∨ d.val = 11 → 
     Acts (.domainPowerFault d) s fun t => t.domainOn d = false ∧ bitAt (t.get Reg.PWR_DOMAIN_STATUS_FAULT) d = true ∧ (∀ k, k < 64 → t.chainState (64 * (d - 10) + k) = 0)) ∧
    (∀ (q : Fin 4), s.quadIdle q = true → 
     Acts (.quadNeapEnter q) s fun t => t.domainOn (2 + q) = false ∧ t.box = s.box ∧ SameBut reports s t)

/-- Each record, complete and in its place (R55), takes the parser of its stream to the next context, past its own bytes (after the DOSE_TABLE of a backwash strip to the strip's last record, R59, R101), and leaves the contexts, strips and libraries of the other streams as they were. -/
def Obligations.records_outside_sections : Prop :=
  ∀ s : State,
    (∀ (h : Fin 16) (rc : List Byte), s.recordReady h 1 2 rc = true → (s.stream h).ctx = .start → fieldAt rc 4 4 = 0x534E5943 → fieldAt rc 8 1 = 2 ∨ fieldAt rc 8 1 = 3 → fieldAt rc 9 1 = 0 → 
     Acts (.streamRecord h rc) s fun t => (t.stream h).ctx = .stream ∧ (t.stream h).v2 = decide (fieldAt rc 8 1 = 2) ∧ (t.stream h).parsed = (s.stream h).parsed + 8 * 2 ∧ (∀ k : Fin 16, k ≠ h → (t.stream k).ctx = (s.stream k).ctx ∧ (t.stream k).strips = (s.stream k).strips ∧ (t.stream k).cells = (s.stream k).cells) ∧ SameBut [.regs, .hostMem, .host, .obs, .time, .box, .store, .seq, .tid, .csc] s t) ∧
    (∀ (h : Fin 16) (rc : List Byte), s.recordReady h 2 3 rc = true → (s.stream h).ctx = .stream → s.box.strips = [] → stripFieldsOk (s.stream h).v2 (s.get Reg.CSC_CFG_DEVICE) (s.get Reg.CSC_CFG_DEVICES) rc = true → 
     Acts (.stripRecord h rc) s fun t => (t.stream h).ctx = .header false ∧ (t.stream h).strips = (s.stream h).strips ++ [⟨fieldAt rc 8 4, fieldAt rc 12 4, fieldAt rc 16 8, (s.stream h).parsed, (s.stream h).v2, [], [], [], [], false, none, 0⟩] ∧ (t.stream h).parsed = (s.stream h).parsed + 8 * 3 ∧ (∀ k : Fin 16, k ≠ h → (t.stream k).ctx = (s.stream k).ctx ∧ (t.stream k).strips = (s.stream k).strips ∧ (t.stream k).cells = (s.stream k).cells)) ∧
    (∀ (h : Fin 16) (rc : List Byte) (r : StripRec), s.recordReady h 3 33 rc = true → s.backStrip h = false → (s.stream h).ctx = .header false → (s.stream h).current = some r → fieldAt rc 8 1 = 0 → (∀ d ∈ ((rc.drop 8).take 256), d.toNat ≤ 60 ∨ d.toNat = 255) → 
     Acts (.doseTable h rc) s fun t => (t.stream h).ctx = .sect 0 ∧ ((t.stream h).current).map (·.table) = some (((rc.drop 8).take 256).map (·.toNat)) ∧ (t.stream h).parsed = (s.stream h).parsed + 8 * 33 ∧ (∀ k : Fin 16, k ≠ h → (t.stream k).ctx = (s.stream k).ctx ∧ (t.stream k).strips = (s.stream k).strips ∧ (t.stream k).cells = (s.stream k).cells)) ∧
    (∀ (h : Fin 16) (rc : List Byte) (r : StripRec), s.recordReady h 3 33 rc = true → s.backStrip h = true → (s.stream h).ctx = .header false → (s.stream h).current = some r → fieldAt rc 8 1 = 0 → (∀ d ∈ ((rc.drop 8).take 256), d.toNat ≤ 60 ∨ d.toNat = 255) → 
     Acts (.doseTable h rc) s fun t => (t.stream h).ctx = .tailBack ∧ (t.stream h).parsed = r.off + r.bytes - 16 ∧ ((t.stream h).current).map (·.table) = some (((rc.drop 8).take 256).map (·.toNat)) ∧ (t.stream h).back = some ⟨(s.stream h).parsed + 264, 0⟩ ∧ (∀ k : Fin 16, k ≠ h → (t.stream k).ctx = (s.stream k).ctx ∧ (t.stream k).strips = (s.stream k).strips ∧ (t.stream k).cells = (s.stream k).cells)) ∧
    (∀ (h : Fin 16) (rc : List Byte), s.recordReady h 8 3 rc = true → (s.stream h).ctx = .stream → 1 ≤ fieldAt rc 4 4 ∧ fieldAt rc 4 4 ≤ 1048575 → findCell (s.stream h).cells (fieldAt rc 4 4) = none → s32At rc 8 ≤ s32At rc 12 ∧ s32At rc 16 ≤ s32At rc 20 → (s.stream h).cells.length < 1048575 ∧ (s.stream h).libraryBytes + 24 ≤ 2 ^ 32 → 
     Acts (.cellBegin h rc) s fun t => (t.stream h).ctx = .cell (fieldAt rc 4 4) (s32At rc 8) (s32At rc 12) (s32At rc 16) (s32At rc 20) 0 1 (s.stream h).parsed [] ∧ (t.stream h).parsed = (s.stream h).parsed + 8 * 3 ∧ (∀ k : Fin 16, k ≠ h → (t.stream k).ctx = (s.stream k).ctx ∧ (t.stream k).strips = (s.stream k).strips ∧ (t.stream k).cells = (s.stream k).cells)) ∧
    (∀ (h : Fin 16) (rc : List Byte) (num records depth off : Nat) (bx0 bx1 by0 by1 : Int) (shapes : List Shape), s.recordReady h 9 2 rc = true → (s.stream h).ctx = .cell num bx0 bx1 by0 by1 records depth off shapes → fieldAt rc 4 4 = num ∧ fieldAt rc 8 4 = records → (s.stream h).libraryBytes + ((s.stream h).parsed + 16 - off) ≤ 2 ^ 32 → 
     Acts (.cellEnd h rc) s fun t => (t.stream h).ctx = .stream ∧ (t.stream h).cells = (s.stream h).cells ++ [⟨num, bx0, bx1, by0, by1, depth, shapes, (s.stream h).parsed + 16 - off⟩] ∧ (t.stream h).parsed = (s.stream h).parsed + 8 * 2 ∧ (∀ k : Fin 16, k ≠ h → (t.stream k).ctx = (s.stream k).ctx ∧ (t.stream k).strips = (s.stream k).strips ∧ (t.stream k).cells = (s.stream k).cells)) ∧
    (∀ (h : Fin 16) (rc : List Byte) (len : Nat), 1 ≤ len ∧ len < 2 ^ 24 → s.recordReady h 0 len rc = true → (s.stream h).ctx = .stream → 
     Acts (.pad h rc) s fun t => (t.stream h).ctx = (s.stream h).ctx ∧ (t.stream h).strips = (s.stream h).strips ∧ (t.stream h).cells = (s.stream h).cells ∧ (t.stream h).parsed = (s.stream h).parsed + 8 * len ∧ (∀ k : Fin 16, k ≠ h → (t.stream k).ctx = (s.stream k).ctx ∧ (t.stream k).strips = (s.stream k).strips ∧ (t.stream k).cells = (s.stream k).cells))

/-- RECT, TRAP, DISC, PATCH, REF and AREF of a section: where the fields hold (R66 to R68), the extent is in range (R76) and every class is defined (R64), the shape is the last of the section, at the offset of its record, and the parser stays in the section. -/
def Obligations.primitives_join_their_section : Prop :=
  ∀ s : State,
    (∀ (h : Fin 16) (rc : List Byte) (k : Nat) (r : StripRec) (q : Section), s.recordReady h 16 4 rc = true → (s.stream h).ctx = .sect k → (s.stream h).current = some r → r.sections.getLast? = some q → s32At rc 8 < s32At rc 12 ∧ s64At rc 16 < s64At rc 24 → Shape.inRange (s.stream h).cells (2 ^ 40) (.rect (fieldAt rc 4 1) (s32At rc 8) (s32At rc 12) (s64At rc 16) (s64At rc 24)) = true → shapeClassesOk (s.stream h).cells r.table (.rect (fieldAt rc 4 1) (s32At rc 8) (s32At rc 12) (s64At rc 16) (s64At rc 24)) = true → 
     Acts (.rect h rc) s fun t => ((t.stream h).lastSection).map (·.shapes) = some (q.shapes ++ [((s.stream h).parsed, .rect (fieldAt rc 4 1) (s32At rc 8) (s32At rc 12) (s64At rc 16) (s64At rc 24))]) ∧ (t.stream h).ctx = .sect k ∧ (t.stream h).parsed = (s.stream h).parsed + 8 * 4 ∧ (∀ k : Fin 16, k ≠ h → (t.stream k).ctx = (s.stream k).ctx ∧ (t.stream k).strips = (s.stream k).strips ∧ (t.stream k).cells = (s.stream k).cells)) ∧
    (∀ (h : Fin 16) (rc : List Byte) (k : Nat) (r : StripRec) (q : Section), s.recordReady h 17 5 rc = true → (s.stream h).ctx = .sect k → (s.stream h).current = some r → r.sections.getLast? = some q → s64At rc 24 < s64At rc 32 → s32At rc 8 ≤ s32At rc 12 ∧ s32At rc 16 ≤ s32At rc 20 → s32At rc 8 < s32At rc 12 ∨ s32At rc 16 < s32At rc 20 → Shape.inRange (s.stream h).cells (2 ^ 40) (.trap (fieldAt rc 4 1) (s32At rc 8) (s32At rc 12) (s32At rc 16) (s32At rc 20) (s64At rc 24) (s64At rc 32)) = true → shapeClassesOk (s.stream h).cells r.table (.trap (fieldAt rc 4 1) (s32At rc 8) (s32At rc 12) (s32At rc 16) (s32At rc 20) (s64At rc 24) (s64At rc 32)) = true → 
     Acts (.trap h rc) s fun t => ((t.stream h).lastSection).map (·.shapes) = some (q.shapes ++ [((s.stream h).parsed, .trap (fieldAt rc 4 1) (s32At rc 8) (s32At rc 12) (s32At rc 16) (s32At rc 20) (s64At rc 24) (s64At rc 32))]) ∧ (t.stream h).ctx = .sect k ∧ (t.stream h).parsed = (s.stream h).parsed + 8 * 5 ∧ (∀ k : Fin 16, k ≠ h → (t.stream k).ctx = (s.stream k).ctx ∧ (t.stream k).strips = (s.stream k).strips ∧ (t.stream k).cells = (s.stream k).cells)) ∧
    (∀ (h : Fin 16) (rc : List Byte) (k : Nat) (r : StripRec) (q : Section), s.recordReady h 18 3 rc = true → (s.stream h).ctx = .sect k → (s.stream h).current = some r → r.sections.getLast? = some q → (s.stream h).v2 = false → 1 ≤ fieldAt rc 12 4 ∧ fieldAt rc 12 4 ≤ 8388607 → Shape.inRange (s.stream h).cells (2 ^ 40) (.disc (fieldAt rc 4 1) (s32At rc 8) (s64At rc 16) (fieldAt rc 12 4)) = true → shapeClassesOk (s.stream h).cells r.table (.disc (fieldAt rc 4 1) (s32At rc 8) (s64At rc 16) (fieldAt rc 12 4)) = true → 
     Acts (.disc h rc) s fun t => ((t.stream h).lastSection).map (·.shapes) = some (q.shapes ++ [((s.stream h).parsed, .disc (fieldAt rc 4 1) (s32At rc 8) (s64At rc 16) (fieldAt rc 12 4))]) ∧ (t.stream h).ctx = .sect k ∧ (t.stream h).parsed = (s.stream h).parsed + 8 * 3 ∧ (∀ k : Fin 16, k ≠ h → (t.stream k).ctx = (s.stream k).ctx ∧ (t.stream k).strips = (s.stream k).strips ∧ (t.stream k).cells = (s.stream k).cells)) ∧
    (∀ (h : Fin 16) (rc : List Byte) (k : Nat) (r : StripRec) (q : Section) (sh : Shape), s.recordReady h 19 (4 + (fieldAt rc 28 4 + 7) / 8) rc = true → (s.stream h).ctx = .sect k → (s.stream h).current = some r → r.sections.getLast? = some q → (shapeOf (s.stream h).cells 0x13 rc).toOption = some sh → sh.inRange (s.stream h).cells (2 ^ 40) = true → shapeClassesOk (s.stream h).cells r.table sh = true → 
     Acts (.patch h rc) s fun t => ((t.stream h).lastSection).map (·.shapes) = some (q.shapes ++ [((s.stream h).parsed, sh)]) ∧ (t.stream h).ctx = .sect k ∧ (t.stream h).parsed = (s.stream h).parsed + 8 * (4 + (fieldAt rc 28 4 + 7) / 8) ∧ (∀ k : Fin 16, k ≠ h → (t.stream k).ctx = (s.stream k).ctx ∧ (t.stream k).strips = (s.stream k).strips ∧ (t.stream k).cells = (s.stream k).cells)) ∧
    (∀ (h : Fin 16) (rc : List Byte) (k : Nat) (r : StripRec) (q : Section) (sh : Shape), s.recordReady h 24 3 rc = true → (s.stream h).ctx = .sect k → (s.stream h).current = some r → r.sections.getLast? = some q → (shapeOf (s.stream h).cells 0x18 rc).toOption = some sh → sh.inRange (s.stream h).cells (2 ^ 40) = true → shapeClassesOk (s.stream h).cells r.table sh = true → 
     Acts (.ref h rc) s fun t => ((t.stream h).lastSection).map (·.shapes) = some (q.shapes ++ [((s.stream h).parsed, sh)]) ∧ (t.stream h).ctx = .sect k ∧ (t.stream h).parsed = (s.stream h).parsed + 8 * 3 ∧ (∀ k : Fin 16, k ≠ h → (t.stream k).ctx = (s.stream k).ctx ∧ (t.stream k).strips = (s.stream k).strips ∧ (t.stream k).cells = (s.stream k).cells)) ∧
    (∀ (h : Fin 16) (rc : List Byte) (k : Nat) (r : StripRec) (q : Section) (sh : Shape), s.recordReady h 25 5 rc = true → (s.stream h).ctx = .sect k → (s.stream h).current = some r → r.sections.getLast? = some q → (shapeOf (s.stream h).cells 0x19 rc).toOption = some sh → sh.inRange (s.stream h).cells (2 ^ 40) = true → shapeClassesOk (s.stream h).cells r.table sh = true → 
     Acts (.aref h rc) s fun t => ((t.stream h).lastSection).map (·.shapes) = some (q.shapes ++ [((s.stream h).parsed, sh)]) ∧ (t.stream h).ctx = .sect k ∧ (t.stream h).parsed = (s.stream h).parsed + 8 * 5 ∧ (∀ k : Fin 16, k ≠ h → (t.stream k).ctx = (s.stream k).ctx ∧ (t.stream k).strips = (s.stream k).strips ∧ (t.stream k).cells = (s.stream k).cells))

/-- R70, R59: a REAM_MARK of the section in progress closes it and opens the next, or the tail after the last ream; a MARGIN (R71) stands last in its section's list, in place of an earlier one of the same side and ream; a SEAM (R72) is declared at its offset; a STRIP_END that agrees with the sections and BYTES ends the strip (R74). In a backwash strip, which is parsed from its end (R59, R101), STRIP_END gives the place of the last mark, and a mark the place of its section. -/
def Obligations.section_marks_margins_seams_end : Prop :=
  ∀ s : State,
    (∀ (h : Fin 16) (rc : List Byte) (k : Nat) (r : StripRec) (q : Section), s.recordReady h 0x20 (if (s.stream h).v2 then 6 else 10) rc = true → (s.stream h).ctx = .sect k → (s.stream h).current = some r → r.sections.getLast? = some q → fieldAt rc 4 4 = k → ((s.stream h).v2 = false → fieldAt rc 8 8 = q.off) → 
     Acts (.reamMark h rc) s fun t => (t.stream h).ctx = (if k + 1 = r.reams then .tail else .sect (k + 1)) ∧ ((t.stream h).current).map (fun x => (x.sections.filter (·.marked)).length) = some ((r.sections.dropLast.filter (·.marked)).length + 1) ∧ (t.stream h).parsed = (s.stream h).parsed + 8 * (if (s.stream h).v2 then 6 else 10) ∧ (∀ k : Fin 16, k ≠ h → (t.stream k).ctx = (s.stream k).ctx ∧ (t.stream k).strips = (s.stream k).strips ∧ (t.stream k).cells = (s.stream k).cells)) ∧
    (∀ (h : Fin 16) (rc : List Byte) (k : Nat) (r : StripRec) (q : Section), s.recordReady h 0x21 (2 + 2 * fieldAt rc 6 2) rc = true → (s.stream h).v2 = false → (s.stream h).ctx = .sect k → (s.stream h).current = some r → r.sections.getLast? = some q → 1 ≤ fieldAt rc 6 2 ∧ fieldAt rc 6 2 ≤ 1024 → fieldAt rc 4 1 < 2 → fieldAt rc 8 4 < r.reams → 
     Acts (.margin h rc) s fun t => ((t.stream h).lastSection).bind (fun x => x.margins.getLast?) = some ⟨fieldAt rc 4 1, fieldAt rc 8 4, fieldAt rc 6 2, ((rc.drop 16).take (16 * fieldAt rc 6 2)).map (·.toNat)⟩ ∧ (t.stream h).ctx = .sect k ∧ (t.stream h).parsed = (s.stream h).parsed + 8 * (2 + 2 * fieldAt rc 6 2) ∧ (∀ k : Fin 16, k ≠ h → (t.stream k).ctx = (s.stream k).ctx ∧ (t.stream k).strips = (s.stream k).strips ∧ (t.stream k).cells = (s.stream k).cells)) ∧
    (∀ (h : Fin 16) (rc : List Byte) (k : Nat) (r : StripRec), s.recordReady h 0x22 2 rc = true → (s.stream h).v2 = false → (s.stream h).ctx = .sect k → (s.stream h).current = some r → 
     Acts (.seam h rc) s fun t => ((t.stream h).current).map (·.seams) = some (seamInsert ((s.stream h).parsed, fieldAt rc 8 4, fieldAt rc 12 4) r.seams) ∧ (t.stream h).ctx = .sect k ∧ (t.stream h).parsed = (s.stream h).parsed + 8 * 2 ∧ (∀ k : Fin 16, k ≠ h → (t.stream k).ctx = (s.stream k).ctx ∧ (t.stream k).strips = (s.stream k).strips ∧ (t.stream k).cells = (s.stream k).cells)) ∧
    (∀ (h : Fin 16) (rc : List Byte) (r : StripRec), s.recordReady h 4 (if (s.stream h).v2 then 1 else 2) rc = true → (s.stream h).ctx = .tail → (s.stream h).current = some r → fieldAt rc 4 4 = r.reams → (r.sections.filter (·.marked)).length = r.reams → ((s.stream h).v2 = false → fieldAt rc 8 8 = ((r.sections.getLast?).map (·.markOff)).getD 0) → (s.stream h).parsed + (if (s.stream h).v2 then 8 else 16) = r.off + r.bytes → 
     Acts (.stripEnd h rc) s fun t => (t.stream h).ctx = .stream ∧ ((t.stream h).current).map (·.ended) = some true ∧ (t.stream h).cells = (s.stream h).cells ∧ (∀ k : Fin 16, k ≠ h → (t.stream k).ctx = (s.stream k).ctx ∧ (t.stream k).strips = (s.stream k).strips ∧ (t.stream k).cells = (s.stream k).cells)) ∧
    (∀ (h : Fin 16) (rc : List Byte) (r : StripRec) (w : BackWalk), s.walkReady h 4 2 rc w = true → (s.stream h).ctx = .tailBack → (s.stream h).current = some r → fieldAt rc 4 4 = r.reams → (r.off + fieldAt rc 8 8) % 8 = 0 → w.start ≤ r.off + fieldAt rc 8 8 → r.off + fieldAt rc 8 8 + 80 ≤ (s.stream h).parsed → 
     Acts (.stripEnd h rc) s fun t => (t.stream h).ctx = .markBack (r.reams - 1) ∧ (t.stream h).parsed = r.off + fieldAt rc 8 8 ∧ ((t.stream h).current).map (·.ended) = some true ∧ (∀ k : Fin 16, k ≠ h → (t.stream k).ctx = (s.stream k).ctx ∧ (t.stream k).strips = (s.stream k).strips ∧ (t.stream k).cells = (s.stream k).cells)) ∧
    (∀ (h : Fin 16) (rc : List Byte) (k : Nat) (r : StripRec) (w : BackWalk), s.walkReady h 0x20 10 rc w = true → (s.stream h).ctx = .markBack k → (s.stream h).current = some r → r.sections.all (fun q => decide (k < q.ream)) = true → k + 1 < r.reams ∧ fieldAt rc 4 4 = k → fieldAt rc 8 8 % 8 = 0 → r.off + fieldAt rc 8 8 < (s.stream h).parsed → (k = 0 → r.off + fieldAt rc 8 8 = w.start) → (0 < k → w.start + 80 ≤ r.off + fieldAt rc 8 8) → r.off ≤ w.start → 
     Acts (.reamMark h rc) s fun t => (t.stream h).ctx = .sect k ∧ (t.stream h).parsed = r.off + fieldAt rc 8 8 ∧ ((t.stream h).lastSection).map (fun q => (q.ream, q.off, q.markOff)) = some (k, fieldAt rc 8 8, (s.stream h).parsed - r.off) ∧ (t.stream h).back = some ⟨w.start, (s.stream h).parsed⟩ ∧ (∀ k : Fin 16, k ≠ h → (t.stream k).ctx = (s.stream k).ctx ∧ (t.stream k).strips = (s.stream k).strips ∧ (t.stream k).cells = (s.stream k).cells))

/-- R443: such a descriptor is not started; it is taken (R437) and completes BAD_DESC: the job is not in flight, its completion record shows STATUS 3 (R445), and no unit is touched: only registers, host memory, the queues of events and the reports change. The statement covers every opcode. -/
def Obligations.malformed_descriptors_complete_bad_desc : Prop :=
  ∀ s : State,
    (∀ (c : Instr) (op : Nat) (d : Desc), (op, c) ∈ descCommands d → d.field 0 1 = op → d.field 2 1 ≠ 0 → s.takeWait d (usesDram d) = 0 → s.findJob s.host.nextAseq = none → d.field 8 8 < 2 ^ 64 - 64 → 
     Acts c s fun t => DoneAtOnce d 3 s t ∧ SameBut reports s t)

/-- R438, codes 2 to 6: the ring shows the reason and nothing else changes; where the ring is disabled, holds no descriptor, or the device takes none, nothing changes at all. -/
def Obligations.waiting_descriptors_show_why : Prop :=
  ∀ s : State,
    (∀ (c : Instr) (op : Nat) (d : Desc) (w : Nat), (op, c) ∈ descCommands d → d.field 0 1 = op → s.takeWait d (usesDram d) = w → 0 < w ∧ w < 7 → 
     Acts c s fun t => t.get (Reg.HST_SQ_STATUS_WAIT d.ring) = w ∧ SameBut [.regs] s t ∧ RegsBut [Reg.HST_SQ_STATUS_WAIT d.ring] s t) ∧
    (∀ (c : Instr) (op : Nat) (d : Desc), (op, c) ∈ descCommands d → d.field 0 1 = op → s.takeWait d (usesDram d) = 255 → 
     Acts c s fun t => t = s)

/-- R447: a first LAYOUT opens a closed handle with its working buffer, a later one that continues at the bytes received adds to them; both stay in flight until their bytes are parsed. STREAM_RELEASE closes an idle handle, LEDGER_RELEASE (R449) frees an ended record, NOP (R443) does nothing; these complete at once with STATUS 0. -/
def Obligations.stream_and_ledger_jobs : Prop :=
  ∀ s : State,
    (∀ (d : Desc), s.takes d 1 (layoutChecks d) = true → bitAt (d.field 37 1) 0 = true → (s.stream (d.field 36 1)).isOpen = false → d.field 36 1 < s.box.streams.length → s.dramRangeOk (d.field 40 8) (d.field 48 8) = true → (bitAt (d.field 37 1) 2 = true → s.dramRangeOk (d.field 16 8) (d.field 32 4) = true) → 
     Acts (.layout d) s fun t => (t.stream (d.field 36 1)).isOpen = true ∧ (t.stream (d.field 36 1)).received = d.field 32 4 ∧ (t.stream (d.field 36 1)).parsed = 0 ∧ (t.stream (d.field 36 1)).workLen = d.field 48 8 ∧ (t.stream (d.field 36 1)).last = bitAt (d.field 37 1) 1 ∧ (t.findJob s.host.nextAseq).isSome ∧ TakenBy d s t ∧ (∀ k, k ≠ d.field 36 1 → t.stream k = s.stream k)) ∧
    (∀ (d : Desc), s.takes d 1 (layoutChecks d) = true → bitAt (d.field 37 1) 0 = false → (bitAt (d.field 37 1) 2 = true → s.dramRangeOk (d.field 16 8) (d.field 32 4) = true) → (s.stream (d.field 36 1)).isOpen = true → (s.stream (d.field 36 1)).failed = none → (s.stream (d.field 36 1)).last = false → d.field 24 8 = (s.stream (d.field 36 1)).received → (s.stream (d.field 36 1)).parsed ≤ (s.stream (d.field 36 1)).received → 
     Acts (.layout d) s fun t => (t.stream (d.field 36 1)).received = (s.stream (d.field 36 1)).received + d.field 32 4 ∧ (t.stream (d.field 36 1)).parsed = (s.stream (d.field 36 1)).parsed ∧ (t.stream (d.field 36 1)).last = bitAt (d.field 37 1) 1 ∧ (t.findJob s.host.nextAseq).isSome ∧ TakenBy d s t) ∧
    (∀ (d : Desc), s.takes d 2 ((16, decide (d.field 16 1 < 16)) :: descReserved d 17 47) = true → (s.stream (d.field 16 1)).isOpen = true → (s.stream (d.field 16 1)).jobs = [] → s.box.strips.all (fun st => decide (st.handle ≠ d.field 16 1)) = true → d.field 8 8 < 2 ^ 64 - 64 → 
     Acts (.streamRelease d) s fun t => (t.stream (d.field 16 1)) = Stream.closed ∧ DoneAtOnce d 0 s t ∧ (∀ k, k ≠ d.field 16 1 → t.stream k = s.stream k)) ∧
    (∀ (d : Desc), s.takes d 0x14 ((20, decide (d.field 20 1 < 16)) :: descReserved d 21 43) = true → (s.ledgerAt (d.field 20 1)).state = 3 → (s.ledgerAt (d.field 20 1)).stripId = d.field 16 4 → d.field 20 1 < s.store.ledger.length → d.field 8 8 < 2 ^ 64 - 64 → 
     Acts (.ledgerRelease d) s fun t => t.ledgerAt (d.field 20 1) = StripLedger.free ∧ DoneAtOnce d 0 s t ∧ (∀ k, k ≠ d.field 20 1 → t.ledgerAt k = s.ledgerAt k)) ∧
    (∀ (d : Desc), s.takes d 0x3F ((0, true) :: descReserved d 16 48) = true → d.field 8 8 < 2 ^ 64 - 64 → 
     Acts (.nop d) s fun t => DoneAtOnce d 0 s t ∧ SameBut reports s t)

/-- R448: after its checks a STRIP is posted under the lowest free record, and stays in flight. R449: STOP and END of a strip that is not there complete REFUSED; STOP in SLACK completes at once, in exposure it asks for a seam stop or a planned break, after it it holds the strip for the host; RESUME ends that hold; END withdraws a posted strip, and breaks an exposing one first (R324). -/
def Obligations.strip_jobs_post_stop_resume_end : Prop :=
  ∀ s : State,
    (∀ (d : Desc) (slot : Nat), s.takes d 0x10 (stripChecks d) = true → (s.stream (d.field 20 1)).failed = none → s.postFault d = none → s.freeRecord = some slot → slot < s.store.ledger.length → ((s.stream (d.field 20 1)).strips.all fun r => decide (r.id ≠ d.field 16 4)) = true → 
     Acts (.strip d) s fun t => t.box.strips = s.box.strips ++ [Strip.posted d (s.jobOf d) slot] ∧ (t.ledgerAt slot).state = 1 ∧ (t.ledgerAt slot).stripId = d.field 16 4 ∧ (t.findJob s.host.nextAseq).isSome ∧ TakenBy d s t) ∧
    (∀ (d : Desc) (st : Strip), s.takes d 0x11 ((20, decide (d.field 20 1 < 2)) :: descReserved d 21 43) = true → s.openStrip = some st → st.stripId = d.field 16 4 → s.get Reg.EXP_STATE_STATE = 2 → d.field 8 8 < 2 ^ 64 - 64 → 
     Acts (.stopStrip d) s fun t => DoneAtOnce d 0 s t ∧ SameBut reports s t) ∧
    (∀ (d : Desc) (st : Strip), s.takes d 0x11 ((20, decide (d.field 20 1 < 2)) :: descReserved d 21 43) = true → s.openStrip = some st → st.stripId = d.field 16 4 → s.get Reg.EXP_STATE_STATE = 4 ∨ s.get Reg.EXP_STATE_STATE = 7 → 
     Acts (.stopStrip d) s fun t => t.seq.stopJobs = s.seq.stopJobs ++ [s.host.nextAseq] ∧ (if d.field 20 1 = 0 then t.seq.seamStop = true else t.seq.hostBreak.isSome = true) ∧ (t.findJob s.host.nextAseq).isSome ∧ TakenBy d s t) ∧
    (∀ (d : Desc) (st : Strip), s.takes d 0x11 ((20, decide (d.field 20 1 < 2)) :: descReserved d 21 43) = true → s.openStrip = some st → st.stripId = d.field 16 4 → s.get Reg.EXP_STATE_STATE = 5 ∨ s.get Reg.EXP_STATE_STATE = 6 → 
     Acts (.stopStrip d) s fun t => t.seq.stopJobs = s.seq.stopJobs ++ [s.host.nextAseq] ∧ (t.stripAt st.slot).map (·.hostHold) = some true ∧ t.get ⟨0x00C00020, 14, 1⟩ = 1 ∧ (t.findJob s.host.nextAseq).isSome ∧ TakenBy d s t) ∧
    (∀ (d : Desc), s.takes d 0x11 ((20, decide (d.field 20 1 < 2)) :: descReserved d 21 43) = true → (s.openStrip.all fun st => decide (st.stripId ≠ d.field 16 4)) = true → d.field 8 8 < 2 ^ 64 - 64 → 
     Acts (.stopStrip d) s fun t => DoneAtOnce d 2 s t ∧ SameBut reports s t) ∧
    (∀ (d : Desc) (st : Strip), s.takes d 0x12 (resumeChecks d) = true → s.resumeTarget (d.field 16 4) = some st → s.stripAt st.slot = some st → bitAt (d.field 20 1) 0 = false → 
     Acts (.resume d) s fun t => (t.stripAt st.slot).map (·.hostHold) = some false ∧ (t.stripAt st.slot).map (·.resumeJobs) = some (st.resumeJobs ++ [s.host.nextAseq]) ∧ t.get ⟨0x00C00020, 14, 1⟩ = 0 ∧ (t.findJob s.host.nextAseq).isSome ∧ TakenBy d s t) ∧
    (∀ (d : Desc), s.takes d 0x13 (descReserved d 20 44) = true → s.box.strips.all (fun st => decide (st.stripId ≠ d.field 16 4)) = true → d.field 8 8 < 2 ^ 64 - 64 → 
     Acts (.endStrip d) s fun t => DoneAtOnce d 2 s t ∧ SameBut reports s t) ∧
    (∀ (d : Desc) (st : Strip), s.takes d 0x13 (descReserved d 20 44) = true → s.openStrip = none → (s.box.strips.find? fun st => decide (st.stripId = d.field 16 4)) = some st → st.aseq ≠ s.host.nextAseq → s.host.nextAseq ∉ st.resumeJobs → 
     Acts (.endStrip d) s fun t => t.stripAt st.slot = none ∧ t.findJob s.host.nextAseq = none ∧ t.findJob st.aseq = none ∧ TakenBy d s t) ∧
    (∀ (d : Desc) (st : Strip), s.takes d 0x13 (descReserved d 20 44) = true → s.openStrip = some st → st.stripId = d.field 16 4 → s.get Reg.EXP_STATE_STATE = 4 ∨ s.get Reg.EXP_STATE_STATE = 7 → 
     Acts (.endStrip d) s fun t => t.seq.endJobs = s.seq.endJobs ++ [s.host.nextAseq] ∧ t.seq.hostBreak.isSome = true ∧ (t.findJob s.host.nextAseq).isSome ∧ TakenBy d s t)

/-- R108: the job issued is the first of those ready that has a vat. R130, R114: the doses of a FINE job are accepted and go to the store where their CRC is the watermark, and are rechecked with value A otherwise (R115), also a job that the watchdog aborts (R118, no value A). R145: a poisoned halo row is dropped and awaited again. R120: the first coarse render waits for the second; two that agree are stored. -/
def Obligations.tile_jobs_issue_and_end : Prop :=
  ∀ s : State,
    (∀ (l : List Nat) (w : Ready) (v : Nat), s.box.jobs.length < min (s.get Reg.HBX_CTRL_MAX_JOBS) 256 → s.skipTests.chooseJob s.skipTests.readyJobs = (l, some (w, v)) → 
     Acts .tileJobIssue s fun t => t.box.jobs = s.box.jobs ++ [{ w.job with vat := v }] ∧ t.box.strips = s.box.strips ∧ t.store.held = s.store.held) ∧
    (∀ (v : Fin 16) (j : TileJob) (u : State) (st : Strip), let doses : List Nat := (u.tileSource st j.ream j.col).tileDoses j.ream j.col
     s.takeVatJob v = some (j, u) → s.stripAt j.slot = some st → j.kind = .fine → u.inTime st j = true → 
     Acts (.tileCorrected v .right) s fun t => t.box.jobs = s.box.jobs.erase j ∧ (if tileCrc doses = u.watermark st j.ream j.col then ∃ again, t.store.held = s.store.held ++ [⟨j.slot, j.ream, j.col, j.vat, false, again, doses, false⟩] else t.store.held = s.store.held ∧ t.box.wanted = s.box.wanted ++ [⟨.recheck, j.slot, j.ream, j.col, j.vat, some (some (tileCrc doses)), j.due, 0⟩])) ∧
    (∀ (v : Fin 16) (j : TileJob) (u : State) (st : Strip) (bytes : List Byte), s.takeVatJob v = some (j, u) → s.stripAt j.slot = some st → j.kind = .fine → u.inTime st j = true → tileCrc (bytes.map (·.toNat)) ≠ u.watermark st j.ream j.col → 
     Acts (.tileCorrected v (.wrong bytes)) s fun t => t.box.jobs = s.box.jobs.erase j ∧ t.store.held = s.store.held ∧ t.box.wanted = s.box.wanted ++ [⟨.recheck, j.slot, j.ream, j.col, j.vat, some (some (tileCrc (bytes.map (·.toNat)))), j.due, 0⟩]) ∧
    (∀ (v : Fin 16) (j : TileJob) (u : State) (st : Strip) (side : Fin 2) (row : Word), s.takeVatJob v = some (j, u) → s.stripAt j.slot = some st → j.kind = .fine → u.inTime st j = true → (u.portToward side.val).isSome = true → 
     Acts (.tileCorrected v (.poison (.halo side row))) s fun t => t.box.jobs = s.box.jobs.erase j ∧ t.store = s.store ∧ (t.stripAt j.slot).map (·.halo) = some (st.halo.filter fun e => decide (¬ (e.1 = side.val ∧ e.2.1 = row.toNat)))) ∧
    (∀ (v : Fin 16) (j : TileJob) (u : State) (st : Strip) (out : Render), s.takeVatJob v = some (j, u) → s.stripAt j.slot = some st → j.kind = .fine → s.get Reg.HBX_JOB_LIMIT_CYCLES < fineCycles (u.renderSource st j.ream j.col).cells j.ream j.col (u.renderSource st j.ream j.col).shapes → 
     Acts (.tileCorrected v out) s fun t => t.box.jobs = s.box.jobs.erase j ∧ t.store.held = s.store.held ∧ t.box.wanted = s.box.wanted ++ [⟨.recheck, j.slot, j.ream, j.col, j.vat, some none, j.due, 0⟩]) ∧
    (∀ (v : Fin 16) (j : TileJob) (u : State) (st : Strip), s.takeVatJob v = some (j, u) → s.stripAt j.slot = some st → j.kind = .coarse → u.inTime st j = true → (st.coarseJobs.find? fun c => decide (c.ream = j.ream ∧ c.col = j.col)) = none → 
     Acts (.coarseJobDone v .right) s fun t => t.box.jobs = s.box.jobs.erase j ∧ (t.stripAt j.slot).map (·.coarseJobs) = some (st.coarseJobs ++ [⟨j.ream, j.col, [(j.vat, (u.renderSource st j.ream j.col).coarseSet j.ream j.col)], false⟩])) ∧
    (∀ (v : Fin 16) (j : TileJob) (u : State) (st : Strip) (bytes : List Byte) (a : Nat), s.takeVatJob v = some (j, u) → s.stripAt j.slot = some st → j.kind = .coarse → u.inTime st j = true → (st.coarseJobs.find? fun c => decide (c.ream = j.ream ∧ c.col = j.col)) = some ⟨j.ream, j.col, [(a, bytes.map (·.toNat))], false⟩ → bytes ≠ [] → 
     Acts (.coarseJobDone v (.wrong bytes)) s fun t => t.box.jobs = s.box.jobs.erase j ∧ (t.stripAt j.slot).map (·.coarse) = some (st.coarse ++ [(j.ream, j.col, bytes.map (·.toNat))])) ∧
    (∀ (v : Fin 16) (j : TileJob) (u : State) (st : Strip) (cycles : Word), s.takeVatJob v = some (j, u) → s.stripAt j.slot = some st → j.kind = .fine → s.get Reg.HBX_JOB_LIMIT_CYCLES < cycles.toNat → 
     Acts (.jobWatchdog v cycles) s fun t => t.box.jobs = s.box.jobs.erase j ∧ t.store = s.store ∧ t.box.wanted = s.box.wanted ++ [⟨.recheck, j.slot, j.ream, j.col, j.vat, some none, j.due, 0⟩])

/-- R102: a re-read that repairs a poisoned record lets the section render again, one that does not ends it. R123, R167: a LEDGER re-render not accepted 256 lines before its due tick takes the break path. R126: a role request takes effect at once in OFF, NEAP and SLACK, and waits otherwise. R135: a profile may be written while no strip names it, by the access type of each field; otherwise the write has no effect but 0x0304. R145: the halo wait is counted and reported. -/
def Obligations.headbox_and_calender_upkeep : Prop :=
  ∀ s : State,
    (∀ (slot : Fin 16) (ream : Word) (st : Strip) (q : Section) (off : Nat), s.stripAt slot = some st → s.sectionOf st ream.toNat = some q → q.poisoned = some off → 
     Acts (.layoutRereadDone slot ream true) s fun t => t.sectionOf st ream.toNat = some { q with poisoned := none } ∧ SameBut [.box] s t ∧ t.box.strips = s.box.strips) ∧
    (∀ (slot : Fin 16) (ream : Word) (st : Strip) (q : Section) (off : Nat), s.stripAt slot = some st → s.sectionOf st ream.toNat = some q → q.poisoned = some off → st.isOpen = false → 
     Acts (.layoutRereadDone slot ream false) s fun t => t.stripAt slot = none ∧ t.box.streams.length = s.box.streams.length) ∧
    (∀ (slot : Fin 16) (ream : Word) (tile : Fin 16) (l : LostTile) (d : Nat), (s.store.lost.find? fun l => decide (l.slot = slot.val ∧ l.ream = ream.toNat ∧ l.col = tile.val)) = some l → l.due = some d → (d : Int) ≤ s.tickNow + 256 → (s.seq.dueBreaks.any fun b => decide (b.1 = (slot : Nat) ∧ b.2.1 = ream.toNat ∧ b.2.2.1 = (tile : Nat))) = false → 
     Acts (.rerenderLate slot ream tile) s fun t => t.seq = { s.seq with dueBreaks := s.seq.dueBreaks ++ [(slot.val, ream.toNat, tile.val, (d : Int))] } ∧ t.store = s.store ∧ t.box = s.box ∧ RegsBut [] s t) ∧
    (∀ (v : Word), s.domainOn 6 = true → s.get Reg.EXP_STATE_STATE < 3 → s.box.jobs = [] → s.openStrip = none → 
     Acts (.vatRoleReqWrite v) s fun t => ((List.range 16).map t.vatRole) = ((List.range 16).map fun k => bitsOf v.toNat (2 * k + 1) (2 * k)) ∧ t.box.roleReq = false ∧ t.get ⟨0x00200014, 0, 32⟩ = v.toNat) ∧
    (∀ (v : Word), s.domainOn 6 = true → 3 ≤ s.get Reg.EXP_STATE_STATE → 
     Acts (.vatRoleReqWrite v) s fun t => ((List.range 16).map t.vatRole) = (List.range 16).map s.vatRole ∧ t.box = { s.box with roleReq := true } ∧ t.get ⟨0x00200014, 0, 32⟩ = v.toNat ∧ SameBut [.regs, .box] s t) ∧
    (∀ (off : BitVec 25) (wide : Bool) (v : BitVec 64), 0x00402000 ≤ off.toNat ∧ off.toNat < 0x00409000 ∧ off.toNat % (if wide then 8 else 4) = 0 ∧ (findRow off.toNat).isSome = true → s.domainOn 6 = true → (s.box.strips.find? fun st => decide (st.profile = (off.toNat - 0x00401000) / 0x1000)) = none → 
     Acts (.calProfileWrite off wide v) s fun t => Wrote off.toNat wide v s t ∧ SameBut [.regs] s t ∧ (∀ o, o ≠ off.toNat → o ≠ off.toNat + 4 → rfWord t.regs o = rfWord s.regs o)) ∧
    (∀ (off : BitVec 25) (wide : Bool) (v : BitVec 64) (st : Strip), 0x00402000 ≤ off.toNat ∧ off.toNat < 0x00409000 ∧ off.toNat % (if wide then 8 else 4) = 0 ∧ (findRow off.toNat).isSome = true → s.domainOn 6 = true → (s.box.strips.find? fun st => decide (st.profile = (off.toNat - 0x00401000) / 0x1000)) = some st → 
     Acts (.calProfileWrite off wide v) s fun t => t.get Reg.CAL_STATUS_WRITE_REFUSED = 1 ∧ Reported [Reg.CAL_STATUS_WRITE_REFUSED] s t) ∧
    (∀ (slot : Fin 16) (ream : Word) (st : Strip), s.stripAt slot = some st → s.haloMissing st ream.toNat ≠ [] → s.fineOpen st ream.toNat = true → s.roomFor st ream.toNat = true → (List.range 16).any (s.wantsFine st ream.toNat) = true → 
     Acts (.haloWaitTimeout slot ream) s fun t => Reported [cntCal 5 |> fun o => ⟨o, 0, 64⟩] s t)

/-- R156: the store takes the oldest held tile and writes one segment entry for each class; one with a poisoned byte (R173) is PENDING again and nothing is written. R160 to R162: a part that fails is decoded once more; once no part waits for that, the chunk fills a felt half, the parts that have failed twice at zero dose, as those missing at the fill deadline; a reader waits while a tile of the ream is not accepted (R21). R158: the wait for room is reported. R172: the store configuration may be written while no strip is posted or open and no codec job exists, and CONFIG_OK shows its validity. -/
def Obligations.store_and_feed : Prop :=
  ∀ s : State,
    (∀ (poisoned : Bool) (h : HeldTile) (rest : List HeldTile) (st : Strip) (m : ReamSlot), s.store.held = h :: rest → (poisoned || h.poisoned) = false → s.stripAt h.slot = some st → s.reamAt h.slot h.ream = some m → h.col < 16 → 
     Acts (.tileStoreDone poisoned) s fun t => t.store.held = rest ∧ ((t.reamAt h.slot h.ream).map fun m => (List.range 128).all fun c => m.segs.any fun p => decide (p.1 = 16 * c + h.col)) = some true) ∧
    (∀ (poisoned : Bool) (h : HeldTile) (rest : List HeldTile) (m : ReamSlot), s.store.held = h :: rest → (poisoned || h.poisoned) = true → s.reamAt h.slot h.ream = some m → 
     Acts (.tileStoreDone poisoned) s fun t => t.store.held = rest ∧ (t.tileAt h.slot h.ream h.col).status = 0 ∧ t.dram = s.dram) ∧
    (∀ (slot : Fin 16) (ream : Word) (st : Strip), s.stripAt slot = some st → s.fineOpen st ream.toNat = true → s.roomFor st ream.toNat = false → (List.range 16).any (s.wantsFine st ream.toNat) = true → 
     Acts (.stoRoomWait slot ream) s fun t => Reported [] s t) ∧
    (∀ (reader : Fin 512) (faults : List (Fin 16 × Fin 7)) (st : Strip) (c : ChunkAt) (m : ReamSlot), s.openStrip = some st → s.nextChunk st reader = some c → s.reamAt st.slot c.ream = some m → 2 ≤ m.state → m.tiles.all (·.readable) = true → (s.store.felt.filter fun h => decide (h.reader = reader.val ∧ h.slot = st.slot)).length < 2 → s.retriedTiles st.slot reader false = [] ∧ s.retriedTiles st.slot reader true = [] → s.failingParts m reader c.chunk faults ≠ [] → 
     Acts (.chunkDecoded reader faults) s fun t => t.store.felt = s.store.felt ∧ (t.store.retries = s.store.retries ++ (s.failingParts m reader c.chunk faults).map fun j => ({ reader := reader.val, slot := st.slot, ream := c.ream, chunk := c.chunk, col := j } : RetryPart))) ∧
    (∀ (reader : Fin 512) (faults : List (Fin 16 × Fin 7)) (st : Strip) (c : ChunkAt) (m : ReamSlot) (gone : List Nat), s.openStrip = some st → s.nextChunk st reader = some c → s.reamAt st.slot c.ream = some m → 2 ≤ m.state → m.tiles.all (·.readable) = true → (s.store.felt.filter fun h => decide (h.reader = reader.val ∧ h.slot = st.slot)).length < 2 → gone = s.retriedTiles st.slot reader true → (s.failingParts m reader c.chunk faults).all (fun j => natMem j (s.retriedTiles st.slot reader false) || natMem j gone) = true → 
     Acts (.chunkDecoded reader faults) s fun t => t.store.felt = s.store.felt ++ [⟨reader.val, st.slot, c.ream, c.chunk, chunkDoses (((List.range 16).filter fun j => !natMem j gone).filterMap fun j => (s.readPart m reader c.chunk faults j).doses.map fun l => (j, l)), gone ++ (s.failingParts m reader c.chunk faults).filter fun j => !natMem j gone⟩] ∧ (t.store.retries.filter fun p => decide (p.reader = reader.val ∧ p.slot = st.slot)) = []) ∧
    (∀ (reader : Fin 512) (late : List (Fin 16)) (st : Strip) (c : ChunkAt) (j : Nat), s.openStrip = some st → s.nextChunk st reader = some c → s.get Reg.TID_TICK_STATE = 3 → s.chunkTick st reader c - s.get Reg.STO_CTRL_FILL_MARGIN ≤ s.tickNow → j < 16 ∧ (natMem j (s.retriedTiles st.slot reader false) = true ∨ natMem j (s.retriedTiles st.slot reader true) = true ∨ (late.any fun x => decide (x.val = j)) = true) → 
     Acts (.fillDeadline reader late) s fun t => (∃ doses lost, t.store.felt = s.store.felt ++ [⟨reader.val, st.slot, c.ream, c.chunk, doses, lost⟩] ∧ j ∈ lost ∧ ∀ i < 32, ∀ k < 512, k / 32 = j → doses.getD (512 * i + k) 0 = 0)) ∧
    (∀ (off : BitVec 25) (wide : Bool) (v : BitVec 64), natMem (off.toNat / 8 * 8) [0x00500008, 0x00500010, 0x00500018, 0x00500020] = true → off.toNat % (if wide then 8 else 4) = 0 → off.toNat ≠ 0x00500024 → s.domainOn 7 = true → s.box.strips = [] ∧ s.store.codec = [] → 
     Acts (.stoConfigWrite off wide v) s fun t => Wrote off.toNat wide v s t ∧ t.get Reg.STO_STATUS_CONFIG_OK = flag t.storeValid ∧ SameBut [.regs] s t) ∧
    (∀ (off : BitVec 25) (wide : Bool) (v : BitVec 64), natMem (off.toNat / 8 * 8) [0x00500008, 0x00500010, 0x00500018, 0x00500020] = true → off.toNat % (if wide then 8 else 4) = 0 → off.toNat ≠ 0x00500024 → s.domainOn 7 = true → s.box.strips ≠ [] ∨ s.store.codec ≠ [] → 
     Acts (.stoConfigWrite off wide v) s fun t => t.get Reg.STO_STATUS_WRITE_REFUSED = 1 ∧ Reported [Reg.STO_STATUS_WRITE_REFUSED] s t)

/-- R453: the three descriptors queue a job with their input, of host memory or DRAM (R164), and CONTINUE (R166) gives a paused one more of it and frees its context slot; a DRAM region beyond MEM_SIZE ends the job RANGE (R446). R165: a decompress job that ends has its bytes written to the output region, leaves the units and completes. -/
def Obligations.codec_jobs : Prop :=
  ∀ s : State,
    (∀ (d : Desc), s.takes d 0x30 (compressChecks d) = true → (bitAt (d.field 60 1) 0 = true → s.dramRangeOk (d.field 16 8) (8192 * d.field 56 4) = true) → (bitAt (d.field 60 1) 1 = true → s.dramRangeOk (d.field 24 8) (d.field 48 4) = true) → (bitAt (d.field 60 1) 2 = true → d.field 32 8 ≠ 0 → s.dramRangeOk (d.field 32 8) (d.field 52 4) = true) → (bitAt (d.field 60 1) 3 = true → s.dramRangeOk (d.field 40 8) (sizeTableBytes (d.field 56 4) + 32 * d.field 56 4) = true) → 
     Acts (.segCompress d) s fun t => t.store.codec.map NoEngine = (s.store.codec ++ [({ aseq := s.host.nextAseq, opcode := 0x30, desc := d.bytes, input := [], outDone := 0, inDone := 0, raw := false, expect := 0, context := none, paused := false } : CodecJob)]).map NoEngine ∧ (t.findJob s.host.nextAseq).isSome ∧ TakenBy d s t ∧ SameBut [.regs, .host, .store, .hostMem, .obs, .time] s t) ∧
    (∀ (d : Desc), s.takes d 0x30 (compressChecks d) = true → bitAt (d.field 60 1) 0 = true → s.dramRangeOk (d.field 16 8) (8192 * d.field 56 4) = false → d.field 8 8 < 2 ^ 64 - 64 → 
     Acts (.segCompress d) s fun t => DoneAtOnce d 9 s t ∧ SameBut reports s t) ∧
    (∀ (d : Desc), s.takes d 0x31 (decompressChecks d 0x31) = true → (bitAt (d.field 40 1) 1 = true → s.dramRangeOk (d.field 16 8) (d.field 32 4) = true) → (bitAt (d.field 40 1) 2 = true → s.dramRangeOk (d.field 24 8) (d.field 36 4) = true) → 
     Acts (.segDecompress d) s fun t => t.store.codec.map NoEngine = (s.store.codec ++ [({ aseq := s.host.nextAseq, opcode := 0x31, desc := d.bytes, input := s.readSpace (bitAt (d.field 40 1) 1) (d.field 16 8) (d.field 32 4), outDone := 0, inDone := 0, raw := bitAt (d.field 40 1) 0, expect := 0, context := none, paused := false, flawed := s.flawIn (bitAt (d.field 40 1) 1) (d.field 16 8) (d.field 32 4) } : CodecJob)]).map NoEngine ∧ (t.findJob s.host.nextAseq).isSome ∧ TakenBy d s t ∧ SameBut [.regs, .host, .store, .hostMem, .obs, .time] s t) ∧
    (∀ (d : Desc), s.takes d 0x32 (decompressChecks d 0x32) = true → (bitAt (d.field 40 1) 1 = true → s.dramRangeOk (d.field 16 8) (d.field 32 4) = true) → (bitAt (d.field 40 1) 2 = true → s.dramRangeOk (d.field 24 8) (d.field 36 4) = true) → 
     Acts (.inflate d) s fun t => t.store.codec.map NoEngine = (s.store.codec ++ [({ aseq := s.host.nextAseq, opcode := 0x32, desc := d.bytes, input := s.readSpace (bitAt (d.field 40 1) 1) (d.field 16 8) (d.field 32 4), outDone := 0, inDone := 0, raw := bitAt (d.field 40 1) 0, expect := d.field 48 8, context := none, paused := false, flawed := s.flawIn (bitAt (d.field 40 1) 1) (d.field 16 8) (d.field 32 4) } : CodecJob)]).map NoEngine ∧ (t.findJob s.host.nextAseq).isSome ∧ TakenBy d s t ∧ SameBut [.regs, .host, .store, .hostMem, .obs, .time] s t) ∧
    (∀ (d : Desc) (c : CodecJob), s.takes d 0x33 (decompressChecks d 0x33 ++ [(41, (s.pausedAt (d.field 41 1)).isSome)]) = true → s.pausedAt (d.field 41 1) = some c → (bitAt (d.field 40 1) 1 = true → bitAt (d.field 40 1) 4 = true → s.dramRangeOk (d.field 16 8) (d.field 32 4) = true) → (bitAt (d.field 40 1) 2 = true → bitAt (d.field 40 1) 5 = true → s.dramRangeOk (d.field 24 8) (d.field 36 4) = true) → 
     Acts (.continueJob d) s fun t => t.store.codec.map NoFlaw = (s.store.codec.map fun x => if x = c then { c with aseq := s.host.nextAseq, desc := d.bytes, input := c.input ++ (if bitAt (d.field 40 1) 4 then s.readSpace (bitAt (d.field 40 1) 1) (d.field 16 8) (d.field 32 4) else []), paused := false, context := none, job := none } else x).map NoFlaw ∧ (t.findJob s.host.nextAseq).isSome ∧ TakenBy d s t ∧ SameBut [.regs, .host, .store, .hostMem, .obs, .time] s t) ∧
    (∀ (aseq : Word) (c : CodecJob), (s.store.codec.find? fun c => decide (c.aseq = aseq.toNat) && !c.paused) = some c → c.opcode = 0x31 → c.flawed = none → fieldAt c.desc 0 1 = 0x31 → c.outDone = 0 → (decodeSegment c.raw c.input).err ≠ some .truncation ∨ bitAt (fieldAt c.desc 40 1) 3 = false → (decodeSegment c.raw c.input).out.length ≤ fieldAt c.desc 36 4 → bitAt (fieldAt c.desc 40 1) 2 = false → s.get Reg.HST_STATUS_LINK_UP = 1 ∧ s.host.d3hot = false ∧ s.get Reg.OBS_CTRL_RING_EN = 0 → (∀ j, s.findJob c.aseq = some j → j.compAddr = 0) → 
     Acts (.codecJobEnd aseq none) s fun t => t.store.codec.map NoEngine = (s.store.codec.filter fun x => decide (x.aseq ≠ c.aseq)).map NoEngine ∧ t.findJob c.aseq = none ∧ t.hostMem = s.hostMem.writeBytes (fieldAt c.desc 24 8) ((decodeSegment c.raw c.input).out.map byteOf))

/-- R270: in TEST the generator emits the next tick index at its divided rate; R266: in RUN, of a device that fires, it emits the next strip-local tick when the estimate has reached it; in OFF and HOLD nothing. R194: ZERO_LIMIT consecutive lines with a zero frame on a chain ask for a prompt stop at the next tick with CAUSE 8, and the count restarts. -/
def Obligations.ticks_and_zero_runs : Prop :=
  ∀ s : State,
    (∀ (faults : List FrameFault), s.get Reg.TID_TICK_STATE = 1 → (∀ a, s.tid.testAt = some a → a + s.tid.testDiv ≤ s.tide) → s.couch.test = none ∧ s.hcr.run = none → 
     Acts (.tickEmit faults) s fun t => t.tid = { s.tid with tLast := (s.tid.tLast + 1) % 2 ^ 48, testAt := some s.tide } ∧ t.get Reg.TID_TICK_INDEX = (s.tid.tLast + 1) % 2 ^ 48 ∧ t.link = s.link ∧ t.couch = s.couch) ∧
    (∀ (faults : List FrameFault) (st : Strip) (x y h : Int), s.get Reg.TID_TICK_STATE = 3 → s.firing = true → s.openStrip = some st → s.get Reg.CSC_STATUS_SLAVE = 0 → s.seq.prompt = none → s.tickDue st (s.tickNow + 1) = true → s.crossingOf st (s.tickNow + 2) = some y ∧ s.crossingOf st (s.tickNow + 3) = some x → (s.tid.committed.find? fun c => decide (c.1 = s.tickNow + 2)) = some (s.tickNow + 2, h, y) ∧ x - y ≤ 400000 * 64 → 
     Acts (.tickEmit faults) s fun t => t.tid.emitted = some (s.tickNow + 1) ∧ t.get Reg.TID_TICK_INDEX = tickIndex (s.ledgerAt st.slot).tS (s.tickNow + 1)) ∧
    (∀ (faults : List FrameFault), s.get Reg.TID_TICK_STATE = 0 ∨ s.get Reg.TID_TICK_STATE = 4 → 
     Acts (.tickEmit faults) s fun t => t = s) ∧
    (∀ (n : Fin 128) (st : Strip), s.firing = true → s.get Reg.HLK_ARB_CTRL_ZERO_LIMIT ≤ s.couch.zeroRun.getD n 0 → s.openStrip = some st → s.seq.prompt = none → 
     Acts (.zeroRun n) s fun t => t.seq = { s.seq with prompt := some ⟨s.tickNow + 1, 8, 2, 0⟩ } ∧ t.couch = { s.couch with zeroRun := listSet s.couch.zeroRun n 0 })

/-- R189: where a couch of the pair fails, the other serves, as ACTIVE after a switch-over; the failed one is LOST with its cause; a sole couch that fails leaves the frames of its next line missing, and in NEAP the role to come is lost (R500). R196: a due test starts in SLACK with the head blanked, switches at half its lines and records each gap beyond 480 core cycles; R197: it ends by an exchange of the roles, or with the failing couch LOST. R201: roles apply in SLACK with no strip open, and wait otherwise. R202: the reserve table may be moved while no strip is posted or open. -/
def Obligations.couch_roles_and_tests : Prop :=
  ∀ s : State,
    (∀ (n : Fin 2) (b : Nat), 2 ≤ s.get Reg.EXP_STATE_STATE → s.couchRole n = 0 → s.couchWith 1 = some b → 
     Acts (.couchDomainFail n) s fun t => t.couchRole n = 2 ∧ t.couchRole b = 0 ∧ t.get (Reg.CCX_STATUS_LOST_CAUSE n) = 2 ∧ bitAt (t.get Reg.PWR_DOMAIN_STATUS_ON) (8 + n) = false ∧ bitAt (t.get Reg.PWR_DOMAIN_STATUS_FAULT) (8 + n) = true ∧ t.seq = s.seq) ∧
    (∀ (n : Fin 2), 2 ≤ s.get Reg.EXP_STATE_STATE → s.couchRole n = 1 → 
     Acts (.couchDomainFail n) s fun t => t.couchRole n = 2 ∧ t.couchRole (1 - n.val) = s.couchRole (1 - n.val) ∧ t.get (Reg.CCX_STATUS_LOST_CAUSE n) = 2 ∧ t.seq = s.seq) ∧
    (∀ (n : Fin 2), 2 ≤ s.get Reg.EXP_STATE_STATE → s.couchRole n = 0 → s.couchWith 1 = none → s.firing = true → 
     Acts (.couchDomainFail n) s fun t => t.couchRole n = 2 ∧ t.get (Reg.CCX_STATUS_LOST_CAUSE n) = 2 ∧ t.couch.gone = some n.val ∧ t.seq = s.seq) ∧
    (∀ (n : Fin 2), s.get Reg.EXP_STATE_STATE = 1 → s.couch.neapRoles.getD n 3 = 0 ∧ s.couch.neapRoles.getD (1 - n) 3 = 1 → s.couch.neapRoles.length = 2 → 
     Acts (.couchDomainFail n) s fun t => t.couch = { s.couch with neapRoles := listSet (listSet s.couch.neapRoles n 2) (1 - n) 0 } ∧ t.get (Reg.CCX_STATUS_LOST_CAUSE n) = 2 ∧ bitAt (t.get Reg.PWR_DOMAIN_STATUS_FAULT) (8 + n) = true ∧ t.seq = s.seq) ∧
    (∀ (w : SwapTest), s.testToRun = some w → w.restoring = [] → s.get Reg.EXP_STATE_STATE = 2 → s.get Reg.TID_PRF_STATUS_STATE = 0 → s.get Reg.TID_TICK_STATE = 0 → s.on Reg.HLK_STATUS_ALL_READY = true → s.couch.test = none → s.hcr.run = none ∧ s.hcr.cal = none → s.lanes.loop = none → 
     Acts .swapTestStart s fun t => t.couch = { s.couch with test := some w, restoreDue := false, scheduled := false } ∧ t.tid = { s.tid with testDiv := s.testPeriod } ∧ t.get Reg.TID_TICK_STATE = 1 ∧ t.get Reg.HLK_STATUS_BLANK = 1) ∧
    (∀ (gaps : List (BitVec 16)) (w : SwapTest), s.couch.test = some w → w.switched = false → w.lines ≤ w.line * 2 → 
     Acts (.swapTestSwitch gaps) s fun t => (t.couch.test).map (·.switched) = some true ∧ (t.couch.test).map (·.gap) = some (gaps.foldl (fun m x => max m x.toNat) 0) ∧ (t.couch.test).map (·.failures) = some (w.failures ++ ((List.range 128).filter fun n => decide (480 < (gaps.getD n 0#16).toNat)).map fun n => (w.second, n, 3)) ∧ s.get Reg.HLK_ARB_STATUS_GAP_PEAK ≤ t.get Reg.HLK_ARB_STATUS_GAP_PEAK ∧ SameBut [.regs, .couch] s t) ∧
    (∀ (w : SwapTest), s.couch.test = some w → w.restoring = [] → w.failures = [] → w.lines ≤ w.line ∧ w.switched = true → (s.link.lines.all fun l => decide (l.kind ≠ 1)) = true → w.first < 2 ∧ w.second = 1 - w.first → 
     Acts .swapTestEnd s fun t => t.couchRole w.first = 1 ∧ t.couchRole w.second = 0 ∧ t.couch.test = none ∧ t.get Reg.TID_TICK_STATE = 0 ∧ t.get Reg.CCH_SWAP_CTRL_REQUEST = 0) ∧
    (∀ (w : SwapTest), s.couch.test = some w → w.restoring = [] → w.failures ≠ [] → (w.failures.all fun f => decide (f.1 = w.second)) = true → w.first < 2 ∧ w.second = 1 - w.first → s.couchRole w.second < 2 → 
     Acts .swapTestEnd s fun t => t.couchRole w.first = s.couchRole w.first ∧ t.couchRole w.second = 2 ∧ t.get (Reg.CCX_STATUS_LOST_CAUSE w.second) = 3 ∧ t.couch.test = none) ∧
    (∀ (v : Word), s.domainOn 1 = true → 
     Acts (.swapRequest v) s fun t => Wrote 0x00600010 false (v.setWidth 64) s t ∧ SameBut [.regs] s t ∧ RegsBut [⟨0x00600010, 0, 32⟩] s t) ∧
    (∀ (v : Word), s.domainOn 1 = true → s.get Reg.EXP_STATE_STATE = 2 → s.openStrip = none → s.couch.hostOff = 0 → s.couchRole 0 = 0 ∧ s.couchRole 1 = 1 → v.getLsbD 0 = true ∧ v.getLsbD 1 = false → 
     Acts (.cchRoleReqWrite v) s fun t => t.couchRole 0 = 3 ∧ t.couchRole 1 = 0 ∧ bitAt (t.get Reg.PWR_DOMAIN_STATUS_ON) 8 = false ∧ t.couch.roleReq = false ∧ t.couch.hostOff = 1) ∧
    (∀ (v : Word), s.domainOn 1 = true → 3 ≤ s.get Reg.EXP_STATE_STATE ∨ s.openStrip.isSome = true → 
     Acts (.cchRoleReqWrite v) s fun t => Wrote 0x00600018 false (v.setWidth 64) s t ∧ t.couch = { s.couch with roleReq := true } ∧ SameBut [.regs, .couch] s t ∧ RegsBut [⟨0x00600018, 0, 32⟩] s t) ∧
    (∀ (off : BitVec 25) (wide : Bool) (v : BitVec 64), s.domainOn 1 = true → off.toNat / 8 * 8 = 0x00600008 ∧ off.toNat % (if wide then 8 else 4) = 0 → s.box.strips = [] → 
     Acts (.cchResBaseWrite off wide v) s fun t => Wrote off.toNat wide v s t ∧ SameBut [.regs] s t ∧ RegsBut [⟨0x00600008, 0, 64⟩] s t) ∧
    (∀ (off : BitVec 25) (wide : Bool) (v : BitVec 64), off.toNat / 8 * 8 = 0x00600008 ∧ off.toNat % (if wide then 8 else 4) = 0 → s.box.strips ≠ [] → 
     Acts (.cchResBaseWrite off wide v) s fun t => Reported [] s t)

/-- R231: a frame is sent when no other is outstanding to the driver, its chain trains or is READY, no switch-over backlog remains (R31) and the chain's line slot has carried none (R209); then it stands outstanding with the head time of its sending, and nothing else changes. R215: a driver with its position set that hears a frame of a new CSEQ executes it: SET_FACTORS, SET_CURVE, TIME_LOAD (R221), ARM, and TX_EQ, whose taps wait for the reply (R243), or are answered BAD_ARG where R242 does not allow them; DISCOVER gives every driver its position and clears what it held. TX_EQ goes from the last ring position down; MEASURE starts the run's time limit. -/
def Obligations.control_frames_are_sent_and_executed : Prop :=
  ∀ s : State,
    (∀ (c : Instr) (op : Nat) (result : Option (Fin 5)) (a : Fin 1024) (o : CtrlOp) (rest : List CtrlOp), (op, c) ∈ [(2, Instr.ident a result), (3, .setFactors a result), (4, .setCurve a result), (5, .timeLoad a result), (6, .timeRead a result), (8, .recordRead a result), (9, .arm a result)] → o.opcode = op → (s.driver a).waiting = o :: rest → (s.driver a).sent = none → 2 ≤ s.chainState (a.val / 8) ∧ s.chainState (a.val / 8) ≤ 7 → s.couch.backlog = 0 → s.slotFree (a.val / 8) = true → a.val < s.link.drivers.length → 
     Acts c s fun t => (t.driver a).sent = some { o with sentAt := s.headTime } ∧ (t.driver a).waiting = rest ∧ (t.driver a).out = ctrlFrame a o ∧ (∀ b, b ≠ a.val → t.driver b = s.driver b) ∧ SameBut [.link] s t) ∧
    (∀ (result : Option (Fin 5)) (a : Fin 1024) (o : CtrlOp) (rest : List CtrlOp), o.opcode = 10 → (List.range (7 - a.val % 8)).all (fun (i : Nat) => (s.driver (a.val + 1 + i)).waiting.all fun o => decide (o.opcode ≠ 10)) = true → (s.driver a).waiting = o :: rest → (s.driver a).sent = none → 2 ≤ s.chainState (a.val / 8) ∧ s.chainState (a.val / 8) ≤ 7 → s.couch.backlog = 0 → s.slotFree (a.val / 8) = true → a.val < s.link.drivers.length → 
     Acts (.txEq a result) s fun t => (t.driver a).sent = some { o with sentAt := s.headTime } ∧ (t.driver a).waiting = rest ∧ (t.driver a).out = ctrlFrame a o ∧ (∀ b, b ≠ a.val → t.driver b = s.driver b) ∧ SameBut [.link] s t) ∧
    (∀ (result : Option (Fin 5)) (a : Fin 1024) (i : Nat), i < 7 - a.val % 8 → ((s.driver (a.val + 1 + i)).waiting.any fun o => decide (o.opcode = 10)) = true → 
     Acts (.txEq a result) s fun t => t = s) ∧
    (∀ (result : Option (Fin 5)) (r : MeasRun) (a : Fin 1024) (o : CtrlOp) (rest : List CtrlOp), o.opcode = 7 → s.hcr.run = some r → r.startedAt = none → (s.driver a).waiting = o :: rest → (s.driver a).sent = none → 2 ≤ s.chainState (a.val / 8) ∧ s.chainState (a.val / 8) ≤ 7 → s.couch.backlog = 0 → s.slotFree (a.val / 8) = true → a.val < s.link.drivers.length → 
     Acts (.measure a result) s fun t => (t.driver a).sent = some { o with sentAt := s.headTime } ∧ (t.driver a).waiting = rest ∧ (t.driver a).out = ctrlFrame a o ∧ (∀ b, b ≠ a.val → t.driver b = s.driver b) ∧ t.hcr.run = some { r with startedAt := some s.tide } ∧ SameBut [.link, .hcr] s t) ∧
    (∀ (a : Fin 1024) (o : CtrlOp) (rest : List CtrlOp), o.opcode = 3 → (s.driver a).waiting = o :: rest → (s.driver a).sent = none → 2 ≤ s.chainState (a.val / 8) ∧ s.chainState (a.val / 8) ≤ 7 → s.couch.backlog = 0 → s.slotFree (a.val / 8) = true → a.val < s.link.drivers.length → (s.driver a).positioned = true → (s.driver a).lastCseq ≠ some o.cseq → 
     Acts (.setFactors a (some 0)) s fun t => (t.driver a).sent = some { o with sentAt := s.headTime } ∧ ((t.driver a).factors = (List.range 256).map fun e => fieldAt o.args (e / 4) 1 / 4 ^ (e % 4) % 4)) ∧
    (∀ (a : Fin 1024) (o : CtrlOp) (rest : List CtrlOp), o.opcode = 4 → (s.driver a).waiting = o :: rest → (s.driver a).sent = none → 2 ≤ s.chainState (a.val / 8) ∧ s.chainState (a.val / 8) ≤ 7 → s.couch.backlog = 0 → s.slotFree (a.val / 8) = true → a.val < s.link.drivers.length → (s.driver a).positioned = true → (s.driver a).lastCseq ≠ some o.cseq → 
     Acts (.setCurve a (some 0)) s fun t => (t.driver a).sent = some { o with sentAt := s.headTime } ∧ (t.driver a).slotT = fieldAt o.args 0 2 ∧ ((t.driver a).curve = (List.range 16).map fun i => fieldAt o.args (4 + 2 * i) 2)) ∧
    (∀ (a : Fin 1024) (o : CtrlOp) (rest : List CtrlOp), o.opcode = 5 → (s.driver a).waiting = o :: rest → (s.driver a).sent = none → 2 ≤ s.chainState (a.val / 8) ∧ s.chainState (a.val / 8) ≤ 7 → s.couch.backlog = 0 → s.slotFree (a.val / 8) = true → a.val < s.link.drivers.length → (s.driver a).positioned = true → (s.driver a).lastCseq ≠ some o.cseq → 
     Acts (.timeLoad a (some 0)) s fun t => (t.driver a).sent = some { o with sentAt := s.headTime } ∧ (t.driver a).added = (s.driver a).added + ((fieldAt o.args 4 8 : Int) - ((s.driver a).latches.getLast?).getD 0) ∧ (t.driver a).dstate = max (s.driver a).dstate 1) ∧
    (∀ (a : Fin 1024) (o : CtrlOp) (rest : List CtrlOp), o.opcode = 9 → (s.driver a).waiting = o :: rest → (s.driver a).sent = none → 2 ≤ s.chainState (a.val / 8) ∧ s.chainState (a.val / 8) ≤ 7 → s.couch.backlog = 0 → s.slotFree (a.val / 8) = true → a.val < s.link.drivers.length → (s.driver a).positioned = true → (s.driver a).lastCseq ≠ some o.cseq → 
     Acts (.arm a (some 0)) s fun t => (t.driver a).sent = some { o with sentAt := s.headTime } ∧ (t.driver a).dstate = (if fieldAt o.args 0 1 = 1 ∧ (s.driver a).dstate = 2 then 3 else if fieldAt o.args 0 1 = 0 ∧ (s.driver a).dstate = 3 then 2 else (s.driver a).dstate)) ∧
    (∀ (a : Fin 1024) (o : CtrlOp) (rest : List CtrlOp), o.opcode = 10 → (List.range (7 - a.val % 8)).all (fun (i : Nat) => (s.driver (a.val + 1 + i)).waiting.all fun o => decide (o.opcode ≠ 10)) = true → tapsOk [sext 8 (fieldAt o.args 0 1), (fieldAt o.args 1 1 : Int), sext 8 (fieldAt o.args 2 1)] = true → (s.driver a).waiting = o :: rest → (s.driver a).sent = none → 2 ≤ s.chainState (a.val / 8) ∧ s.chainState (a.val / 8) ≤ 7 → s.couch.backlog = 0 → s.slotFree (a.val / 8) = true → a.val < s.link.drivers.length → (s.driver a).positioned = true → (s.driver a).lastCseq ≠ some o.cseq → 
     Acts (.txEq a (some 0)) s fun t => (t.driver a).sent = some { o with sentAt := s.headTime } ∧ (t.driver a).nextTaps = some [sext 8 (fieldAt o.args 0 1), (fieldAt o.args 1 1 : Int), sext 8 (fieldAt o.args 2 1)] ∧ (t.driver a).taps = (s.driver a).taps ∧ (t.driver a).answer = some 0) ∧
    (∀ (a : Fin 1024) (o : CtrlOp) (rest : List CtrlOp), o.opcode = 10 → (List.range (7 - a.val % 8)).all (fun (i : Nat) => (s.driver (a.val + 1 + i)).waiting.all fun o => decide (o.opcode ≠ 10)) = true → tapsOk [sext 8 (fieldAt o.args 0 1), (fieldAt o.args 1 1 : Int), sext 8 (fieldAt o.args 2 1)] = false → (s.driver a).waiting = o :: rest → (s.driver a).sent = none → 2 ≤ s.chainState (a.val / 8) ∧ s.chainState (a.val / 8) ≤ 7 → s.couch.backlog = 0 → s.slotFree (a.val / 8) = true → a.val < s.link.drivers.length → (s.driver a).positioned = true → (s.driver a).lastCseq ≠ some o.cseq → 
     Acts (.txEq a (some 0)) s fun t => (t.driver a).sent = some { o with sentAt := s.headTime } ∧ (t.driver a).taps = (s.driver a).taps ∧ (t.driver a).nextTaps = (s.driver a).nextTaps ∧ (t.driver a).answer = some 2) ∧
    (∀ (n : Fin 128) (o : CtrlOp) (rest : List CtrlOp), (s.driver (8 * n.val)).waiting = o :: rest → (s.driver (8 * n.val)).sent = none → o.opcode = 1 → 2 ≤ s.chainState n ∧ s.chainState n ≤ 7 → s.couch.backlog = 0 → s.slotFree n = true → s.link.drivers.length = 1024 → 
     Acts (.discover n true) s fun t => (t.driver (8 * n.val)).sent = some { o with sentAt := s.headTime } ∧ (∀ p < 8, (t.driver (8 * n.val + p)).positioned = true ∧ (t.driver (8 * n.val + p)).dstate = 0 ∧ (t.driver (8 * n.val + p)).factors = [] ∧ (t.driver (8 * n.val + p)).added = 0) ∧ SameBut [.link] s t)

/-- R225: each state and its next; the causes of FAILED: 1 ALIGN, 2 EQ, 5 TIME. R249: a try without errors and with eyes of at least the minimum ends EQ, the eighth other one fails it; R250: deferred positions train once more. R221: eight round trips within 1 ns give RT and D(p); R222: the recheck of every READY chain; R226: RETRAIN_REQ takes every chain down together in SLACK. -/
def Obligations.chains_train : Prop :=
  ∀ s : State,
    (∀ (n : Fin 128), s.chainState n = 0 ∨ s.chainState n = 8 → s.canTrain n = true → n.val < s.link.chains.length → 
     Acts (.chainTrainStart n) s fun t => t.chainState n = 1 ∧ t.get (Reg.HLK_CHAIN_STATE_CAUSE n) = 0 ∧ (t.chain n).enteredAt = s.tide ∧ (t.chain n).train = trainSet 1 ∧ (∀ m < 128, m ≠ n.val → t.chainState m = s.chainState m)) ∧
    (∀ (n : Fin 128) (inverted : Bool) (seen : RxSeen), s.chainState n = 1 → s.adapted (128 + n) seen = true → s.link.drivers.length = 1024 → n.val < s.link.chains.length → 
     Acts (.chainAlignDone n ⟨inverted, seen⟩) s fun t => t.chainState n = 2 ∧ t.get (Reg.LNS_LANE_RX_ALIGNED (128 + n)) = 1 ∧ t.get (Reg.LNS_LANE_RX_EIDLE (128 + n)) = 0 ∧ t.get (Reg.LNS_LANE_RX_INVERTED (128 + n)) = (if s.on (Reg.LNS_LANE_CTRL_RX_INV_AUTO (128 + n)) then flag inverted else s.get (Reg.LNS_LANE_CTRL_RX_INV (128 + n))) ∧ (t.chain n).eqTry = 0 ∧ (t.chain n).eqStep = 0 ∧ (∀ p < 8, ((t.driver (8 * n.val + p)).waiting.getLast?).map (·.opcode) = some 10)) ∧
    (∀ (n : Fin 128) (inverted : Bool) (seen : RxSeen), s.chainState n = 1 → s.get (Reg.LNS_LANE_RX_EIDLE (128 + n)) = 1 → (seen.windows.filter s.qualifies).length < 41 → 
     Acts (.chainAlignDone n ⟨inverted, seen⟩) s fun t => t = s) ∧
    (∀ (n : Fin 128), s.chainState n = 1 ∧ 4000000 ≤ s.tide - (s.chain n).enteredAt → 
     Acts (.chainTrainTimeout n) s fun t => t.chainState n = 8 ∧ t.get (Reg.HLK_CHAIN_STATE_CAUSE n) = 1) ∧
    (∀ (n : Fin 128), s.chainState n = 2 ∧ 20000000 ≤ s.tide - (s.chain n).enteredAt → 
     Acts (.chainTrainTimeout n) s fun t => t.chainState n = 8 ∧ t.get (Reg.HLK_CHAIN_STATE_CAUSE n) = 2) ∧
    (∀ (n : Fin 128), s.chainState n = 2 → (s.chain n).eqStep = 1 → n.val < s.link.chains.length → 
     Acts (.eqAdaptWaitEnd n) s fun t => t.chain n = { s.chain n with eqStep := 2 } ∧ SameBut [.link] s t) ∧
    (∀ (n : Fin 128) (seen : RxSeen), s.chainState n = 2 → (s.chain n).eqStep = 2 → n.val < s.link.chains.length → 
     Acts (.receiverAdaptEnd n seen) s fun t => t.chain n = { s.chain n with eqStep := 3 } ∧ t.get (Reg.LNS_LANE_RX_CTLE (128 + n)) = (if seen.windows.any s.qualifies then seen.ctle.toNat else s.get (Reg.LNS_LANE_RX_CTLE (128 + n))) ∧ SameBut (.link :: reports) s t) ∧
    (∀ (n : Fin 128) (seen : RxSeen) (bursts : Word) (eyeH : BitVec 6) (eyeV : Byte), s.chainState n = 2 → (s.chain n).eqStep = 3 → seen.errors.toNat = 0 ∧ s.get Reg.LNS_EQ_MIN_EYE_H ≤ eyeH.toNat ∧ s.get Reg.LNS_EQ_MIN_EYE_V ≤ eyeV.toNat → s.link.drivers.length = 1024 → 
     Acts (.eqTryEnd n ⟨seen, bursts⟩ eyeH eyeV) s fun t => t.chainState n = 3 ∧ t.get (Reg.LNS_LANE_RX_EYE_H (128 + n)) = eyeH.toNat ∧ t.get (Reg.LNS_LANE_RX_EYE_V (128 + n)) = eyeV.toNat ∧ ((t.driver (8 * n.val)).waiting.getLast?).map (·.opcode) = some 1) ∧
    (∀ (n : Fin 128) (seen : RxSeen) (bursts : Word) (eyeH : BitVec 6) (eyeV : Byte), s.chainState n = 2 → (s.chain n).eqStep = 3 → seen.errors.toNat ≠ 0 → (s.chain n).eqTry < 7 → n.val < s.link.chains.length → 
     Acts (.eqTryEnd n ⟨seen, bursts⟩ eyeH eyeV) s fun t => t.chainState n = 2 ∧ (t.chain n).eqTry = (s.chain n).eqTry + 1 ∧ (t.chain n).eqStep = 1 ∧ t.get (Reg.LNS_LANE_TX_PRESET n) = presetTry (s.chain n).eqFirst ((s.chain n).eqTry + 1)) ∧
    (∀ (n : Fin 128) (seen : RxSeen) (bursts : Word) (eyeH : BitVec 6) (eyeV : Byte), s.chainState n = 2 → (s.chain n).eqStep = 3 → seen.errors.toNat ≠ 0 → (s.chain n).eqTry = 7 → 
     Acts (.eqTryEnd n ⟨seen, bursts⟩ eyeH eyeV) s fun t => t.chainState n = 8 ∧ t.get (Reg.HLK_CHAIN_STATE_CAUSE n) = 2) ∧
    (∀ (n : Fin 128), s.chainState n = 7 → (s.chain n).deferred ≠ [] → (s.chain n).again = false → s.get Reg.EXP_STATE_STATE < 3 → n.val < s.link.chains.length → 
     Acts (.eqDeferredRetrain n) s fun t => t.chainState n = 2 ∧ (t.chain n).again = true ∧ (t.chain n).deferred = (s.chain n).deferred) ∧
    (∀ (n : Fin 128) (rt : BitVec 16) (latches : List (BitVec 54)), s.chainState n = 5 ∨ (s.chainState n = 7 ∧ (s.chain n).recheck = true) → (s.chain n).rts.length < 7 → n.val < s.link.chains.length → 
     Acts (.syncMarkerReturn n rt latches) s fun t => (t.chain n).rts = (s.chain n).rts ++ [rt.toNat] ∧ SameBut [.link] s t) ∧
    (∀ (n : Fin 128) (rt : BitVec 16) (latches : List (BitVec 54)) (l : List Nat), s.chainState n = 5 → (s.chain n).rts.length = 7 → l = (s.chain n).rts ++ [rt.toNat] → l.foldl max 0 - l.foldl min (l.headD 0) ≤ 10 → n.val < s.link.chains.length → s.link.drivers.length = 1024 → 
     Acts (.syncMarkerReturn n rt latches) s fun t => t.get (Reg.HLK_CHAIN_STATE_RT n) = (roundHalfUp ((l.foldl (fun x y => x + y) 0 : Nat) : Int) 8).toNat ∧ (∀ p < 8, ((t.driver (8 * n.val + p)).waiting.getLast?).map (·.opcode) = some 6) ∧ t.chainState n = 5) ∧
    (∀ (n : Fin 128) (rt : BitVec 16) (latches : List (BitVec 54)) (l : List Nat), s.chainState n = 5 → (s.chain n).rts.length = 7 → l = (s.chain n).rts ++ [rt.toNat] → 10 < l.foldl max 0 - l.foldl min (l.headD 0) → (s.chain n).timeTries = 2 → n.val < s.link.chains.length → 
     Acts (.syncMarkerReturn n rt latches) s fun t => t.chainState n = 8 ∧ t.get (Reg.HLK_CHAIN_STATE_CAUSE n) = 5) ∧
    (s.get Reg.EXP_STATE_STATE = 2 → s.get Reg.HLK_TIME_CTRL_RECHECK ≠ 0 → s.link.recheckAt + 400000000 * s.get Reg.HLK_TIME_CTRL_RECHECK ≤ s.tide → s.link.chains.length = 128 → 
     Acts .headTimeRecheck s fun t => t.link.recheckAt = s.tide ∧ (∀ n < 128, s.chainState n = 7 → (t.chain n).recheck = true) ∧ (∀ n < 128, s.chainState n ≠ 7 → t.chain n = s.chain n) ∧ SameBut [.link] s t) ∧
    (∀ (v : Word), s.domainOn 10 = true → v.getLsbD 31 = true → s.get Reg.EXP_STATE_STATE = 2 → s.link.chains.any (·.requested) = false → s.link.chains.length = 128 → 
     Acts (.hlkRetrainReq v) s fun t => (∀ n < 128, t.chainState n = 0 ∧ (t.chain n).requested = true) ∧ t.get Reg.HLK_CTRL_RETRAIN_REQ = 1) ∧
    (∀ (v : Word), s.domainOn 10 = true → s.get Reg.EXP_STATE_STATE ≠ 2 → 
     Acts (.hlkRetrainReq v) s fun t => Wrote 0x00800000 false (v.setWidth 64) s t ∧ SameBut [.regs] s t ∧ RegsBut [⟨0x00800000, 0, 32⟩] s t)

/-- R225: a DISCOVER that counts 8 drivers goes on with IDENT to each, another count fails the chain. R215, R231: a frame that answers the outstanding one with RESULT 0 frees the driver for the next, and its new taps apply (R243); a missing one, or one whose CRC is wrong (R210), is sent again under its CSEQ, and after three retries a training chain fails with the cause of its state. R225: POLL; R232: LOSS_LINES lines without STATUS take a chain DOWN with cause 8. R213, R228, R229: a valid STATUS ends the silence, its FIRED record of the CRC sent confirms its line, and its hottest sensor is shown; without STATUS for 1 ms the driver counts as at its limit. R228: an overdue record asks for RECORD_READ. -/
def Obligations.link_service : Prop :=
  ∀ s : State,
    (∀ (a : Fin 1024) (seen : RxSeen) (frame : List Symbol) (o : CtrlOp) (body : List Byte), (s.driver a).sent = some o → unwire frame = some body → (s.driver a).answers a o body = true → o.opcode = 1 → fieldAt (body.drop 4) 4 1 = 8 → a.val % 8 = 0 → s.link.drivers.length = 1024 → 
     Acts (.ctrlReply a seen frame) s fun t => t.chainState (a.val / 8) = 4 ∧ t.get (Reg.HLK_CHAIN_STATE_COUNT (a.val / 8)) = 8 ∧ (∀ p < 8, ((t.driver (a.val + p)).waiting.getLast?).map (·.opcode) = some 2)) ∧
    (∀ (a : Fin 1024) (seen : RxSeen) (frame : List Symbol) (o : CtrlOp) (body : List Byte), (s.driver a).sent = some o → unwire frame = some body → (s.driver a).answers a o body = true → o.opcode = 1 → fieldAt (body.drop 4) 4 1 ≠ 8 → 
     Acts (.ctrlReply a seen frame) s fun t => t.chainState (a.val / 8) = 8 ∧ t.get (Reg.HLK_CHAIN_STATE_CAUSE (a.val / 8)) = 3) ∧
    (∀ (a : Fin 1024) (seen : RxSeen) (frame : List Symbol) (o : CtrlOp) (body : List Byte), (s.driver a).sent = some o → unwire frame = some body → (s.driver a).answers a o body = true → o.opcode = 3 ∨ o.opcode = 4 ∨ o.opcode = 9 ∨ o.opcode = 7 → fieldAt (body.drop 4) 2 1 = 0 → (s.driver a).waiting ≠ [] → a.val < s.link.drivers.length → 
     Acts (.ctrlReply a seen frame) s fun t => t.driver a = { (s.driver a).replied with sent := none, conf := (s.driver a).conf.after o } ∧ (∀ b, b ≠ a.val → t.driver b = s.driver b) ∧ SameBut (.link :: reports) s t) ∧
    (∀ (a : Fin 1024) (seen : RxSeen) (frame : List Symbol) (o : CtrlOp), (s.driver a).sent = some o → unwire frame = none → o.opcode ≠ 1 → o.opcode ≠ 10 → o.retries < 3 → a.val < s.link.drivers.length → 
     Acts (.ctrlReply a seen frame) s fun t => t.driver a = { (s.driver a).replied with sent := none, waiting := { o with retries := o.retries + 1 } :: (s.driver a).waiting } ∧ (∀ b, b ≠ a.val → t.driver b = s.driver b)) ∧
    (∀ (a : Fin 1024) (seen : RxSeen) (frame : List Symbol) (o : CtrlOp) (body : List Byte), (s.driver a).sent = some o → unwire frame = some body → (s.driver a).answers a o body = false → 
     Acts (.ctrlReply a seen frame) s fun t => t.link = s.link) ∧
    (∀ (a : Fin 1024) (o : CtrlOp), (s.driver a).sent = some o → o.opcode ≠ 1 → o.opcode ≠ 10 → o.retries < 3 → a.val < s.link.drivers.length → 
     Acts (.ctrlReplyTimeout a) s fun t => t.driver a = { (s.driver a).replied with sent := none, waiting := { o with retries := o.retries + 1 } :: (s.driver a).waiting } ∧ SameBut [.link, .regs, .hostMem, .host, .obs, .time] s t) ∧
    (∀ (a : Fin 1024) (o : CtrlOp), (s.driver a).sent = some o → o.opcode ≠ 1 → o.opcode ≠ 10 → 3 ≤ o.retries → 3 ≤ s.chainState (a.val / 8) ∧ s.chainState (a.val / 8) ≤ 6 → 
     Acts (.ctrlReplyTimeout a) s fun t => t.chainState (a.val / 8) = 8 ∧ t.get (Reg.HLK_CHAIN_STATE_CAUSE (a.val / 8)) = [3, 4, 6, 7].getD (s.chainState (a.val / 8) - 3) 0) ∧
    (∀ (n : Fin 128), s.chainState n = 7 → s.get Reg.TID_TICK_STATE ≠ 1 ∧ s.get Reg.TID_TICK_STATE ≠ 3 → (s.chain n).polledAt + 400 * s.get Reg.HLK_CTRL_POLL_US ≤ s.tide → n.val < s.link.chains.length → 
     Acts (.pollSend n) s fun t => t.chain n = { s.chain n with polledAt := s.tide, polls := (s.chain n).polls + 1 } ∧ (s.link.drivers.length = 1024 → ∀ p < 8, (t.driver (8 * n + p)).out = wire (headFrame 1 p 0 0 [])) ∧ SameBut [.link] s t) ∧
    (∀ (n : Fin 128) (restarted : List (Fin 8)), s.chainState n = 7 → s.get Reg.HLK_CTRL_LOSS_LINES ≤ (s.chain n).silent → 
     Acts (.chainStatusLoss ⟨n, restarted⟩) s fun t => t.chainState n = 0 ∧ t.get (Reg.HLK_CHAIN_STATE_CAUSE n) = 8) ∧
    (∀ (a : Fin 1024) (seen : RxSeen) (frame : List Symbol) (body pay : List Byte) (i : Nat) (v : Int), s.chainState (a.val / 8) = 7 → unwire frame = some body ∧ pay = body.drop 4 → frameType body = 4 ∧ framePos body = a.val % 8 → fieldAt pay 5 1 = 0 ∧ fieldAt pay 13 1 = 0 → hottest pay = some (i, v) → a.val / 8 < s.link.chains.length ∧ a.val < s.link.drivers.length → 
     Acts (.statusFrame a seen frame) s fun t => (t.chain (a.val / 8)).silent = 0 ∧ (t.driver a).statusAt = s.tide ∧ t.get (Reg.HLK_DRV_INFO_TEMP a) = wrapInt 16 v ∧ (t.driver a).aboveWarn = decide (s.getS Reg.HLK_TEMP_WARN ≤ v) ∧ t.link.lines = s.link.lines) ∧
    (∀ (a : Fin 1024) (seen : RxSeen) (frame : List Symbol) (body pay : List Byte) (l : OpenLine), s.chainState (a.val / 8) = 7 → unwire frame = some body ∧ pay = body.drop 4 → frameType body = 4 ∧ framePos body = a.val % 8 → fieldAt pay 13 1 = 0 → fieldAt pay 5 1 = 1 ∧ fieldAt pay 6 2 = (s.driver a).rseq ∧ fieldAt pay 8 4 = l.crc → (s.driver a).oldRseq = none → (s.link.lines.find? fun l => decide (l.driver = a.val ∧ l.tick % 4 = fieldAt pay 4 1)) = some l → l.kind = 0 ∧ l.repair = false → hottest pay = none → a.val < s.link.drivers.length → 
     Acts (.statusFrame a seen frame) s fun t => (t.link.lines = s.link.lines.filter fun x => decide (¬ (x.driver = a.val ∧ x.tick = l.tick))) ∧ t.link.outcomes = s.link.outcomes ++ [(l.driver, l.tick, if l.zero then 17 else 1)] ∧ (t.driver a).rseq = ((s.driver a).rseq + 1) % 65536 ∧ t.get (Reg.HLK_DRV_INFO_TEMP a) = 0x8000) ∧
    (∀ (a : Fin 1024) (seen : RxSeen) (frame : List Symbol), s.chainState (a.val / 8) = 7 → unwire frame = none → 
     Acts (.statusFrame a seen frame) s fun t => t.link = s.link) ∧
    (∀ (a : Fin 1024), s.chainState (a.val / 8) = 7 → (s.driver a).statusAt + 400000 ≤ s.tide → a.val < s.link.drivers.length → 
     Acts (.driverStatusStale a) s fun t => (t.driver a).aboveWarn = true ∧ (t.driver a).limited = true ∧ (t.driver a).rearmed = false) ∧
    (∀ (a : Fin 1024) (l : OpenLine), s.chainState (a.val / 8) = 7 → (s.driver a).owes 8 = false → l ∈ s.link.lines → l.driver = a.val → s.lineDue l = true → a.val < s.link.drivers.length → 
     Acts (.echoMissing a) s fun t => (t.driver a).waiting = (s.driver a).waiting ++ [{ opcode := 8, cseq := (s.driver a).cseq, args := [] }] ∧ t.link.lines = s.link.lines ∧ SameBut [.link] s t)

/-- R241, R246, R248: a head lane that loses alignment, by electrical idle, 8 symbol errors or a phase slip, takes its chain DOWN with cause 8, a tide lane leaves its port; a lane PLL that loses lock takes down every chain or port that it feeds, and the head is blanked. R245: a tune burst, sent where TUNE_US have passed and no TICK falls due within 200 ns of its end, restarts the time and is counted. R254: a loop starts where no strip is posted or open, and its result is shown at its end; a start that is not allowed is refused. R238, R239: no pair of the reference is disabled under a trained chain, a spread above 10 is not taken, and the spread in force stays. R246, R247: EIDLE of a head lane, of either direction, changes only while its chain is DOWN or FAILED, and a transmit lane that leaves electrical idle sends a re-adapt burst. R252: a deferred strobe setting applies when no measurement runs on its lane. That the lock of the head PLL sets the offset of head time to a free value is the model's choice (log entry 2). -/
def Obligations.serial_lanes : Prop :=
  ∀ s : State,
    (∀ (l : Fin 268) (idle : Bool) (seen : RxSeen) (restarted : List (Fin 8)), 128 ≤ l.val ∧ l.val < 256 → s.get (Reg.LNS_LANE_RX_ALIGNED l) = 1 → idle = true ∨ 8 ≤ seen.errors.toNat → 2 ≤ s.chainState (l - 128) ∧ s.chainState (l - 128) ≠ 8 → 
     Acts (.laneAlignLost l ⟨idle, seen, restarted⟩) s fun t => t.get (Reg.LNS_LANE_RX_ALIGNED l) = 0 ∧ t.chainState (l - 128) = 0 ∧ t.get (Reg.HLK_CHAIN_STATE_CAUSE (l - 128)) = 8) ∧
    (∀ (l : Fin 268) (idle : Bool) (seen : RxSeen) (restarted : List (Fin 8)), 262 ≤ l.val → s.get (Reg.LNS_LANE_RX_ALIGNED l) = 1 → idle = true ∨ 8 ≤ seen.errors.toNat → 
     Acts (.laneAlignLost l ⟨idle, seen, restarted⟩) s fun t => t.get (Reg.LNS_LANE_RX_ALIGNED l) = 0 ∧ bitAt (t.get (Reg.CSC_PORT_LANES ((l.val - 262) / 2))) (l.val % 2) = false) ∧
    (∀ (l : Fin 268) (idle : Bool) (seen : RxSeen) (restarted : List (Fin 8)), receiveLane l = false ∨ s.get (Reg.LNS_LANE_RX_ALIGNED l) = 0 → 
     Acts (.laneAlignLost l ⟨idle, seen, restarted⟩) s fun t => t = s) ∧
    (∀ (l : Fin 268) (under : Bool), 128 ≤ l.val ∧ l.val < 256 → s.get (Reg.LNS_LANE_RX_ALIGNED l) = 1 → 2 ≤ s.chainState (l - 128) ∧ s.chainState (l - 128) ≠ 8 → 
     Acts (.lanePhaseSlip l under) s fun t => t.get (Reg.LNS_LANE_RX_ALIGNED l) = 0 ∧ t.chainState (l - 128) = 0 ∧ t.get (Reg.HLK_CHAIN_STATE_CAUSE (l - 128)) = 8) ∧
    (∀ (l : Fin 268) (under : Bool), receiveLane l = false ∨ s.get (Reg.LNS_LANE_RX_ALIGNED l) = 0 → 
     Acts (.lanePhaseSlip l under) s fun t => t = s) ∧
    (∀ (pll : Fin 2), pll.val = 0 → s.get Reg.LNS_STATUS_HEAD_LOCK = 1 → s.link.chains.length = 128 → 
     Acts (.lanePllUnlock pll) s fun t => t.get Reg.LNS_STATUS_HEAD_LOCK = 0 ∧ t.get Reg.PWR_CLK_STATUS_HEAD_LANE = 0 ∧ t.get Reg.LNS_STATUS_TIDE_LOCK = s.get Reg.LNS_STATUS_TIDE_LOCK ∧ (∀ n < 128, t.chainState n = 0) ∧ t.get Reg.HLK_STATUS_BLANK = 1) ∧
    (∀ (pll : Fin 2), pll.val = 1 → s.get Reg.LNS_STATUS_TIDE_LOCK = 1 → 
     Acts (.lanePllUnlock pll) s fun t => t.get Reg.LNS_STATUS_TIDE_LOCK = 0 ∧ t.get Reg.PWR_CLK_STATUS_TIDE_LANE = 0 ∧ (∀ p < 3, t.portState p = 0 ∨ t.portState p = 7)) ∧
    (∀ (pll : Fin 2), pll.val = 0 → s.domainOn 15 = true → s.get Reg.LNS_STATUS_HEAD_LOCK = 0 → 
     Acts (.lanePllLock pll) s fun t => t.get Reg.LNS_STATUS_HEAD_LOCK = 1 ∧ t.get Reg.PWR_CLK_STATUS_HEAD_LANE = 1 ∧ t.free = s.free + 1 ∧ SameBut [.regs, .headTime0, .free] s t) ∧
    (∀ (pll : Fin 2), pll.val = 1 → s.domainOn 15 = true → 
     Acts (.lanePllLock pll) s fun t => t.get Reg.LNS_STATUS_TIDE_LOCK = 1 ∧ t.get Reg.PWR_CLK_STATUS_TIDE_LANE = 1 ∧ SameBut [.regs] s t ∧ RegsBut [Reg.LNS_STATUS_TIDE_LOCK, Reg.PWR_CLK_STATUS_TIDE_LANE] s t) ∧
    (∀ (l : Fin 268) (seen : RxSeen), s.laneInUse l = true → s.lanes.qualAt.getD l 0 + 400 * s.get Reg.LNS_ADAPT_TUNE_US ≤ s.tide → s.burstFits = true → 
     Acts (.tuneBurst ⟨l, seen⟩) s fun t => t.lanes.qualAt = listSet s.lanes.qualAt l s.tide ∧ t.get ⟨cntLns l 2, 0, 48⟩ = min (s.get ⟨cntLns l 2, 0, 48⟩ + 1) (2 ^ 48 - 1) ∧ t.lanes.loop = s.lanes.loop ∧ t.lanes.strobes = s.lanes.strobes) ∧
    (∀ (l : Fin 268) (seen : RxSeen), s.laneInUse l = false ∨ s.tide < s.lanes.qualAt.getD l 0 + 400 * s.get Reg.LNS_ADAPT_TUNE_US ∨ s.burstFits = false → 
     Acts (.tuneBurst ⟨l, seen⟩) s fun t => t = s) ∧
    (∀ (v : Word), v.getLsbD 31 = true → s.domainOn 15 = true → v.toNat / 65536 % 512 < 128 → s.loopAllowed (v.toNat / 65536 % 512) (v.toNat % 8) = true → 
     Acts (.lnsLoopStart v) s fun t => t.lanes.loop = some (v.toNat / 65536 % 512, v.toNat % 8) ∧ t.get Reg.LNS_LOOP_CTRL_START = 1 ∧ t.get Reg.LNS_LOOP_RES_DONE = 0 ∧ t.chainState (v.toNat / 65536 % 512) = 0) ∧
    (∀ (v : Word), v.getLsbD 31 = true → s.domainOn 15 = true → s.box.strips ≠ [] → s.lanes.loop = none → 
     Acts (.lnsLoopStart v) s fun t => t.get Reg.LNS_LOOP_CTRL_START = 0 ∧ t.lanes = s.lanes ∧ SameBut reports s t) ∧
    (∀ (locked : Bool) (errors : BitVec 48) (lane mode : Nat), s.lanes.loop = some (lane, mode) → 
     Acts (.lnsLoopEnd locked errors) s fun t => t.lanes = { s.lanes with loop := none } ∧ t.get Reg.LNS_LOOP_CTRL_START = 0 ∧ t.get Reg.LNS_LOOP_RES_DONE = 1 ∧ t.get Reg.LNS_LOOP_RES_LOCKED = flag locked ∧ t.get Reg.LNS_LOOP_RES_ERRORS = errors.toNat) ∧
    (∀ (c : Instr) (v : Word), c = .lnsSscWrite v ∨ c = .lnsOutEnWrite v → s.domainOn 15 = true → 
     Acts c s fun t => t.get Reg.LNS_REF_CTRL_SSC = (if v.toNat / 256 % 16 ≤ 10 then v.toNat / 256 % 16 else s.get Reg.LNS_REF_CTRL_SSC) ∧ t.get Reg.LNS_REF_CTRL_OUT_EN = (if ((List.range 128).all fun n => natMem (s.chainState n) [0, 8]) then v.toNat % 16 else (BitVec.ofNat 4 v.toNat ||| BitVec.ofNat 4 (s.get Reg.LNS_REF_CTRL_OUT_EN)).toNat) ∧ t.get Reg.LNS_REF_CTRL_SSC_APPLIED = s.get Reg.LNS_REF_CTRL_SSC_APPLIED ∧ SameBut [.regs] s t ∧ RegsBut [⟨0x00900000, 0, 32⟩] s t) ∧
    (∀ (l : Fin 268) (v : Word), s.domainOn (domainOf (0x00901000 + 16 * l.val)) = true → l.val < 256 ∧ natMem (s.chainState (l.val % 128)) [0, 8] = false → 
     Acts (.lnsEidleWrite l v) s fun t => t.get (Reg.LNS_LANE_CTRL_EIDLE l) = s.get (Reg.LNS_LANE_CTRL_EIDLE l) ∧ SameBut [.regs] s t) ∧
    (∀ (l : Fin 268) (v : Word), s.domainOn (domainOf (0x00901000 + 16 * l.val)) = true → 256 ≤ l.val ∨ natMem (s.chainState (l.val % 128)) [0, 8] = true → 
     Acts (.lnsEidleWrite l v) s fun t => Wrote (0x00901000 + 16 * l.val) false (v.setWidth 64) s t ∧ t.lanes = (if s.get (Reg.LNS_LANE_CTRL_EIDLE l) = 1 ∧ t.get (Reg.LNS_LANE_CTRL_EIDLE l) = 0 ∧ receiveLane l = false ∧ s.laneIdle l = false then { s.lanes with qualAt := listSet s.lanes.qualAt l s.tide } else s.lanes) ∧ SameBut (.lanes :: reports) s t) ∧
    (∀ (l : Fin 268) (chain tap : Nat), (s.lanes.strobes.find? fun x => decide (x.1 = l.val)) = some (l.val, chain, tap) → s.laneMeasured l = false → chain < 4 ∧ tap < 64 → 
     Acts (.strobeApply l) s fun t => t.get (Reg.LNS_STROBE_CHAIN l) = chain ∧ t.get (Reg.LNS_STROBE_TAP l) = tap ∧ t.lanes = { s.lanes with strobes := s.lanes.strobes.filter fun (x : Nat × Nat × Nat) => decide (x.1 ≠ l.val) } ∧ Reported [Reg.LNS_STROBE_CHAIN l, Reg.LNS_STROBE_TAP l] { s with lanes := t.lanes } t)

/-- R259: a trigger edge is driven every PERIOD on a port in use; R260: the frame of the oldest edge is a sample of the source in service where its SYNC, CRC, STAT and deadline hold, and a miss otherwise. R261: an accepted edge counts by one, a double change loses the position and the reference, and QUAD_Z with ARM loads the count. R265: every valid sample of the source in service heads the list that the estimator reads. -/
def Obligations.position_inputs : Prop :=
  ∀ s : State,
    (∀ (port : Fin 2), s.sourceUsed port = true → (∀ e, s.tid.lastEdge.getD port none = some e → e + rfGet s.tideSetup Reg.TID_POS_CFG_PERIOD ≤ s.tide) → 
     Acts (.posTrigger port) s fun t => t.tid = { s.tid with lastEdge := listSet s.tid.lastEdge port (some s.tide), edges := listModify s.tid.edges port (· ++ [s.tide]) } ∧ SameBut [.tid] s t) ∧
    (∀ (port : Fin 2) (e : Nat) (frame : List Byte), s.edgeOf port = some e → frameMiss frame (decide (s.frameLimit e < s.tide)) = 0 → s.source = port.val → 
     Acts (.positionFrame port frame) s fun t => t.tid.samples.head? = some (fieldAt frame 2 5, (e : Int) + rfGet s.tideSetup Reg.TID_POS_CFG2_TRIG_DLY) ∧ t.get Reg.TID_POS_COUNT = fieldAt frame 2 5 ∧ t.get Reg.TID_POS_VALID = 1 ∧ t.get Reg.TID_POS_REF = 1 ∧ t.tid.edges = listModify s.tid.edges port (fun l => l.drop 1) ∧ t.tid.missRun = 0) ∧
    (∀ (port : Fin 2) (e : Nat) (frame : List Byte), s.edgeOf port = some e → frameMiss frame (decide (s.frameLimit e < s.tide)) ≠ 0 → s.source = port.val → 
     Acts (.positionFrame port frame) s fun t => t.tid.samples = s.tid.samples ∧ t.get Reg.TID_POS_VALID = 0 ∧ t.get Reg.TID_POS_COUNT = s.get Reg.TID_POS_COUNT ∧ t.tid.missRun = s.tid.missRun + 1 ∧ t.tid.edges = listModify s.tid.edges port (fun l => l.drop 1)) ∧
    (∀ (port : Fin 2) (e : Nat) (frame : List Byte), s.edgeOf port = some e → s.source ≠ port.val → s.monitorSource ≠ some port.val → 
     Acts (.positionFrame port frame) s fun t => t.tid.samples = s.tid.samples ∧ t.tid.edges = listModify s.tid.edges port (fun l => l.drop 1) ∧ SameBut [.tid] s t) ∧
    (∀ (port : Fin 2) (e : Nat), s.edgeOf port = some e → s.frameLimit e < s.tide → s.source = port.val → 
     Acts (.posFrameLate port) s fun t => t.tid.samples = s.tid.samples ∧ t.get Reg.TID_POS_VALID = 0 ∧ t.tid.missRun = s.tid.missRun + 1 ∧ t.tid.edges = listModify s.tid.edges port (fun l => l.drop 1)) ∧
    (∀ (q : Fin 2) (a b : Bool) (x : Quad) (d : Int), x = s.tid.quads.getD q {} → quadStep x.a x.b a b = some d → d ≠ 0 → s.source = 2 + q.val → 
     Acts (.quadEdge q a b) s fun t => t.tid.quads = listSet s.tid.quads q { a := a, b := b, count := wrapInt 40 (x.count + d) } ∧ t.tid.samples.head? = some (wrapInt 40 (x.count + d), s.quadInstant) ∧ t.get Reg.TID_POS_COUNT = wrapInt 40 (x.count + d) ∧ t.get Reg.TID_POS_VALID = 1) ∧
    (∀ (q : Fin 2) (a b : Bool) (x : Quad), x = s.tid.quads.getD q {} → quadStep x.a x.b a b = none → s.source = 2 + q.val → 
     Acts (.quadEdge q a b) s fun t => t.tid.quads = listSet s.tid.quads q { x with a := a, b := b } ∧ t.get Reg.TID_POS_REF = 0 ∧ t.get Reg.TID_POS_VALID = 0) ∧
    (∀ (q : Fin 2), s.get Reg.TID_QREF_ARM = 1 → s.source = 2 + q.val → q.val < s.tid.quads.length → 
     Acts (.quadIndex q) s fun t => t.get Reg.TID_QREF_ARM = 0 ∧ t.get Reg.TID_POS_REF = 1 ∧ (t.tid.quads.getD q {}).count = s.get Reg.TID_QREF_LOAD ∧ t.tid.samples.head? = some (s.get Reg.TID_QREF_LOAD, s.quadInstant)) ∧
    (∀ (v : BitVec 64), s.domainOn 15 = true → 
     Acts (.tidQrefArm ⟨none, v⟩) s fun t => Wrote 0x00A00018 true v s t ∧ SameBut [.regs] s t ∧ RegsBut [⟨0x00A00018, 0, 64⟩] s t) ∧
    (∀ (h : Fin 2) (v : BitVec 64), s.domainOn 15 = true → 
     Acts (.tidQrefArm ⟨some h, v⟩) s fun t => t.get ⟨0x00A00018 + 4 * h.val, 0, 32⟩ = (if h.val = 0 then v.toNat % 2 ^ 32 else v.toNat % 256 + 2 ^ 31 * (v.toNat / 2 ^ 31 % 2 ||| s.get Reg.TID_QREF_ARM)) ∧ t.get ⟨0x00A0001C - 4 * h.val, 0, 32⟩ = s.get ⟨0x00A0001C - 4 * h.val, 0, 32⟩ ∧ SameBut [.regs] s t)

/-- R274: every 400 tide clocks a step ends the segment that starts then: at REST the set-point stands; in MOVE and STOP it is the planner's, within the limits, until the motion is over, which completes its job; R272: a table move follows the cubics of its segments to the end of the last. R270, R279: at the approach point the generator is armed at t_a, and a fresh strip takes T_S = T_last + 3. R280: the set-point frame of the instant AHEAD; beyond the planner's segment its set-point is a free value (log entry 2). R275: outside a ramp, or with a stop no farther, a limit applies at once; a change that moves the stop point on within a ramp is deferred. R287: the protected registers. R276, R450: a stage move or a table of valid segments, from host memory or DRAM, starts in SLACK, waits for it otherwise, a move behind the stage is reversed after a stop, and a target or a table that fails is REFUSED. That a stage move supersedes one under way is the model's choice (log entry 40). -/
def Obligations.stage_profile : Prop :=
  ∀ s : State,
    (∀ (pos vel acc slow : BitVec 64), s.stepDue = false → 
     Acts (.plannerStep pos vel acc slow) s fun t => t.tid.pos = s.tid.pos ∧ t.tid.vel = s.tid.vel ∧ t.tid.stepAt = s.tid.stepAt) ∧
    (∀ (pos vel acc slow : BitVec 64), s.stepDue = true → s.get Reg.TID_PRF_STATUS_STATE = 0 → 
     Acts (.plannerStep pos vel acc slow) s fun t => t.tid.pos = s.tid.pos ∧ t.tid.vel = 0 ∧ t.tid.acc = 0 ∧ t.tid.stepAt = some s.tide) ∧
    (∀ (pos vel acc slow : BitVec 64), s.stepDue = true → s.get Reg.TID_PRF_STATUS_STATE = 1 ∨ s.get Reg.TID_PRF_STATUS_STATE = 2 → s.motionOver = false → s.stepAllowed pos.toInt vel.toInt acc.toInt = true → 
     Acts (.plannerStep pos vel acc slow) s fun t => t.tid.pos = pos.toInt ∧ t.tid.vel = vel.toInt ∧ t.tid.acc = acc.toInt ∧ t.tid.stepAt = some s.tide ∧ t.tid.setpoints.head? = some ⟨s.tide + 400, pos.toInt, vel.toInt, acc.toInt⟩) ∧
    (∀ (pos vel acc slow : BitVec 64), s.stepDue = true → s.get Reg.TID_PRF_STATUS_STATE = 1 ∨ s.get Reg.TID_PRF_STATUS_STATE = 2 → s.motionOver = true → s.tid.reverse = none → s.tid.heldJobs = [] → s.pwr.protective = false → s.get Reg.EXP_STATE_STATE ≠ 3 → 
     Acts (.plannerStep pos vel acc slow) s fun t => t.get Reg.TID_PRF_STATUS_STATE = 0 ∧ t.tid.pos = s.tid.pos ∧ t.tid.vel = 0 ∧ t.tid.acc = 0 ∧ t.tid.job = none ∧ t.tid.target = none ∧ (∀ a, s.tid.job = some a → t.findJob a = none)) ∧
    (∀ (pos vel acc slow : BitVec 64) (e : Nat × Int × Int) (r : List (Nat × Int × Int)) (p v : Int) (b : Nat), s.stepDue = true → s.get Reg.TID_PRF_STATUS_STATE = 3 → s.get Reg.EXP_STATE_STATE ≠ 3 → tableAdvance s.tide s.tid.table s.tid.segPos s.tid.segVel s.tid.segStart = (e :: r, p, v, b) → 
     Acts (.plannerStep pos vel acc slow) s fun t => (t.tid.pos, t.tid.vel, t.tid.acc) = tableAt (e :: r) p v b (s.tide + 400) ∧ t.tid.table = e :: r ∧ t.get Reg.TID_PRF_STATUS_STATE = 3) ∧
    (∀ (pos vel acc slow : BitVec 64) (p v : Int) (b : Nat), s.stepDue = true → s.get Reg.TID_PRF_STATUS_STATE = 3 → s.get Reg.EXP_STATE_STATE ≠ 3 → tableAdvance s.tide s.tid.table s.tid.segPos s.tid.segVel s.tid.segStart = ([], p, v, b) → s.tid.reverse = none → s.tid.heldJobs = [] → s.pwr.protective = false → 
     Acts (.plannerStep pos vel acc slow) s fun t => t.get Reg.TID_PRF_STATUS_STATE = 0 ∧ t.tid.pos = p ∧ t.tid.vel = 0 ∧ t.tid.acc = 0 ∧ t.tid.job = none ∧ (∀ a, s.tid.job = some a → t.findJob a = none)) ∧
    (∀ (st : Strip), s.openStrip = some st → s.get Reg.EXP_STATE_STATE = 3 → s.get Reg.TID_PRF_STATUS_STATE = 0 → s.get Reg.TID_TICK_STATE = 0 → s.get Reg.CSC_STATUS_SLAVE = 0 → st.slot < s.store.ledger.length → 
     Acts .approachReached s fun t => t.get Reg.TID_TICK_STATE = 2 ∧ t.get Reg.TID_PRF_STATUS_STATE = 1 ∧ t.tid.armedAt = some s.seq.ta ∧ t.tid.emitted = none ∧ (t.ledgerAt st.slot).tS = (if s.seq.resuming then (s.ledgerAt st.slot).tS else (s.tid.tLast + 3) % 2 ^ 48)) ∧
    (∀ (x : Int × Int × Int), s.get Reg.TID_SP_CFG_EN = 1 → (∀ b, s.tid.spAt = some b → b + s.get Reg.TID_SP_CFG_PERIOD ≤ s.tide) → s.get Reg.TID_PRF_STATUS_STATE = 0 → x = (s.tid.pos, 0, 0) → 
     Acts .setpointFrame s fun t => t.tid = { s.tid with spFrame := s.setpointFrame (setPointBytes x), spSeq := (s.tid.spSeq + 1) % 256, spAt := some s.tide } ∧ SameBut [.tid] s t) ∧
    (∀ (x : Int × Int × Int), s.get Reg.TID_SP_CFG_EN = 1 → (∀ b, s.tid.spAt = some b → b + s.get Reg.TID_SP_CFG_PERIOD ≤ s.tide) → s.get Reg.TID_PRF_STATUS_STATE = 3 → x = tableAt s.tid.table s.tid.segPos s.tid.segVel s.tid.segStart (s.tide + s.get Reg.TID_SP_CFG_AHEAD) → 
     Acts .setpointFrame s fun t => t.tid = { s.tid with spFrame := s.setpointFrame (setPointBytes x), spSeq := (s.tid.spSeq + 1) % 256, spAt := some s.tide } ∧ SameBut [.tid] s t) ∧
    (∀ (x : Int × Int × Int) (q : SetPoint), s.get Reg.TID_SP_CFG_EN = 1 → (∀ b, s.tid.spAt = some b → b + s.get Reg.TID_SP_CFG_PERIOD ≤ s.tide) → s.get Reg.TID_PRF_STATUS_STATE = 1 ∨ s.get Reg.TID_PRF_STATUS_STATE = 2 → s.tid.setpoints.head? = some q ∧ s.tide + s.get Reg.TID_SP_CFG_AHEAD ≤ q.at' → x = s.setPointAt (s.tide + s.get Reg.TID_SP_CFG_AHEAD) → 
     Acts .setpointFrame s fun t => t.tid = { s.tid with spFrame := s.setpointFrame (setPointBytes x), spSeq := (s.tid.spSeq + 1) % 256, spAt := some s.tide } ∧ SameBut [.tid] s t) ∧
    (s.get Reg.TID_SP_CFG_EN = 1 → (∀ b, s.tid.spAt = some b → b + s.get Reg.TID_SP_CFG_PERIOD ≤ s.tide) → 
     Acts .setpointFrame s fun t => t.tid.spSeq = (s.tid.spSeq + 1) % 256 ∧ t.tid.spAt = some s.tide ∧ SameBut [.tid, .free] s t) ∧
    (s.get Reg.TID_SP_CFG_EN = 0 → 
     Acts .setpointFrame s fun t => t = s) ∧
    (∀ (off : BitVec 25) (wide : Bool) (v : BitVec 64) (f : Field), s.domainOn 15 = true → alignedAccess off.toNat wide = true → off.toNat / 8 * 8 = 0x00A00050 ∨ off.toNat / 8 * 8 = 0x00A00058 → f = ⟨off.toNat / 8 * 8, 0, 48⟩ → s.tid.acc = 0 → 
     Acts (.tidLimitWrite off wide v) s fun t => Wrote off.toNat wide v s t ∧ (t.tid.deferred.filter fun d => decide (d.1 = f.off)) = [] ∧ SameBut [.regs, .tid] s t ∧ RegsBut [f, Reg.TID_PRF_STATUS_DEFERRED] s t) ∧
    (∀ (off : BitVec 25) (wide : Bool) (v : BitVec 64), s.domainOn 15 = true → alignedAccess off.toNat wide = true → off.toNat / 8 * 8 = 0x00A00048 → 
     Acts (.tidLimitWrite off wide v) s fun t => Wrote off.toNat wide v s t ∧ t.tid.pos = s.tid.pos ∧ t.tid.vel = s.tid.vel) ∧
    (∀ (off : BitVec 25) (wide : Bool) (v : BitVec 64) (f : Field) (u : State), s.domainOn 15 = true → alignedAccess off.toNat wide = true → off.toNat / 8 * 8 = 0x00A00050 ∨ off.toNat / 8 * 8 = 0x00A00058 → f = ⟨off.toNat / 8 * 8, 0, 48⟩ → u = s.writeAny off.toNat wide v → s.tid.acc ≠ 0 → u.get f ≠ s.get f → s.stageLimits.stop s.tid.vel s.tid.acc < u.stageLimits.stop s.tid.vel s.tid.acc → 
     Acts (.tidLimitWrite off wide v) s fun t => t.get f = s.get f ∧ t.get Reg.TID_PRF_STATUS_DEFERRED = 1 ∧ t.tid = { s.tid with deferred := (s.tid.deferred.filter fun d => decide (d.1 ≠ f.off)) ++ [(f.off, u.get f)] } ∧ SameBut (.tid :: reports) s t) ∧
    (∀ (off : BitVec 25) (wide : Bool) (v : BitVec 64) (f : Field) (u : State), s.domainOn 15 = true → alignedAccess off.toNat wide = true → off.toNat / 8 * 8 = 0x00A00050 ∨ off.toNat / 8 * 8 = 0x00A00058 → f = ⟨off.toNat / 8 * 8, 0, 48⟩ → u = s.writeAny off.toNat wide v → s.tid.acc ≠ 0 → u.get f ≠ 0 → u.stageLimits.stop s.tid.vel s.tid.acc ≤ s.stageLimits.stop s.tid.vel s.tid.acc → 
     Acts (.tidLimitWrite off wide v) s fun t => Wrote off.toNat wide v s t ∧ (t.tid.deferred.filter fun d => decide (d.1 = f.off)) = [] ∧ SameBut [.regs, .tid] s t) ∧
    (∀ (v : Word), s.domainOn 15 = true → 
     Acts (.tidGovCapWrite v) s fun t => Wrote 0x00A00080 false (v.setWidth 64) s t) ∧
    (∀ (off : BitVec 25) (wide : Bool) (v : BitVec 64), s.domainOn 15 = true → alignedAccess off.toNat wide = true → tideProtected off.toNat = true ∨ (wide = true ∧ tideProtected (off.toNat + 4) = true) → s.get Reg.TID_TICK_STATE < 2 ∧ s.get Reg.TID_PRF_STATUS_STATE = 0 → (s.writeAny off.toNat wide v).source = s.source → (s.writeAny off.toNat false v).source = s.source → 
     Acts (.tidConfigWrite off wide v) s fun t => Wrote off.toNat wide v s t ∧ SameBut [.regs] s t) ∧
    (∀ (off : BitVec 25) (wide : Bool) (v : BitVec 64), s.domainOn 15 = true → alignedAccess off.toNat wide = true → wide = false → tideProtected off.toNat = true → s.get Reg.TID_TICK_STATE < 2 ∧ s.get Reg.TID_PRF_STATUS_STATE = 0 → (s.writeAny off.toNat wide v).source ≠ s.source → 
     Acts (.tidConfigWrite off wide v) s fun t => Wrote off.toNat wide v s t ∧ t.tid = { s.tid with samples := [], missRun := 0, edges := [[], []], lastEdge := [none, none] } ∧ t.get Reg.TID_POS_VALID = 0 ∧ t.get Reg.TID_POS_REF = flag (decide (t.source < 2)) ∧ SameBut [.regs, .tid] s t) ∧
    (∀ (off : BitVec 25) (wide : Bool) (v : BitVec 64), alignedAccess off.toNat wide = true → tideProtected off.toNat = true → (wide = true → off.toNat < 0x00A00060 → tideProtected (off.toNat + 4) = true) → 2 ≤ s.get Reg.TID_TICK_STATE ∨ s.get Reg.TID_PRF_STATUS_STATE ≠ 0 → 
     Acts (.tidConfigWrite off wide v) s fun t => Reported [] s t) ∧
    (∀ (d : Desc), s.takes d 0x18 (descReserved d 21 43) = true → s.get Reg.EXP_STATE_STATE = 2 → s.get Reg.TID_PRF_STATUS_STATE < 2 → s.tid.heldJobs = [] → s.targetOk (sext 40 (d.field 16 5)) = true → s.targetBehind (sext 40 (d.field 16 5)) = false → 
     Acts (.stageMove d) s fun t => t.get Reg.TID_PRF_STATUS_STATE = 1 ∧ t.tid = { s.tid with target := some (sext 40 (d.field 16 5)), job := some s.host.nextAseq } ∧ TakenBy d s t ∧ (t.findJob s.host.nextAseq).isSome ∧ (∀ a, s.tid.job = some a → a ≠ s.host.nextAseq → t.findJob a = none)) ∧
    (∀ (d : Desc), s.takes d 0x18 (descReserved d 21 43) = true → s.get Reg.EXP_STATE_STATE ≠ 2 → natMem (s.get Reg.EXP_STATE_STATE) [3, 4, 5, 7] = false ∨ s.targetBehind (sext 40 (d.field 16 5)) = false → 
     Acts (.stageMove d) s fun t => t.tid.heldJobs = s.tid.heldJobs ++ [⟨s.host.nextAseq, (sext 40 (d.field 16 5)), none⟩] ∧ TakenBy d s t ∧ (t.findJob s.host.nextAseq).isSome) ∧
    (∀ (d : Desc), s.takes d 0x18 (descReserved d 21 43) = true → natMem (s.get Reg.EXP_STATE_STATE) [3, 4, 5, 7] = true ∨ (s.get Reg.EXP_STATE_STATE = 2 ∧ s.get Reg.TID_PRF_STATUS_STATE < 2 ∧ s.tid.heldJobs = []) → s.targetOk (sext 40 (d.field 16 5)) = true → s.targetBehind (sext 40 (d.field 16 5)) = true → 
     Acts (.stageMove d) s fun t => t.get Reg.TID_PRF_STATUS_REVERSE = 1 ∧ t.tid.reverse = some (sext 40 (d.field 16 5)) ∧ t.tid.reverseJob = some s.host.nextAseq ∧ TakenBy d s t ∧ (t.findJob s.host.nextAseq).isSome) ∧
    (∀ (d : Desc), s.takes d 0x18 (descReserved d 21 43) = true → s.get Reg.EXP_STATE_STATE = 2 → s.get Reg.TID_PRF_STATUS_STATE < 2 → s.tid.heldJobs = [] → s.targetOk (sext 40 (d.field 16 5)) = false → d.field 8 8 < 2 ^ 64 - 64 → 
     Acts (.stageMove d) s fun t => DoneAtOnce d 2 s t ∧ t.tid = s.tid) ∧
    (∀ (d : Desc) (l : List (Nat × Int × Int)), s.takes d 0x19 ([(24, decide (1 ≤ d.field 24 4 ∧ d.field 24 4 ≤ 65536)), (28, decide (d.field 28 1 < 2))] ++ descReserved d 29 35) = true → (bitAt (d.field 28 1) 0 = true → s.dramRangeOk (d.field 16 8) (16 * d.field 24 4) = true) → s.get Reg.EXP_STATE_STATE = 2 → s.get Reg.TID_PRF_STATUS_STATE = 0 → s.tid.heldJobs = [] → l = tableEntries (s.readSpace (bitAt (d.field 28 1) 0) (d.field 16 8) (16 * d.field 24 4)) (d.field 24 4) → tableFault (s.get Reg.TID_PRF_VMAX_VMAX) (s.get Reg.TID_PRF_AMAX_LIMIT) (s.get Reg.TID_PRF_JMAX_LIMIT) (s.getS Reg.TID_PRF_PMIN_POS) (s.getS Reg.TID_PRF_PMAX_POS) 0 s.tid.pos s.tid.vel none l = none → 
     Acts (.stageTable d) s fun t => t.get Reg.TID_PRF_STATUS_STATE = 3 ∧ t.tid = { s.tid with table := l, job := some s.host.nextAseq, segPos := s.tid.pos, segVel := s.tid.vel, segStart := s.tide } ∧ TakenBy d s t ∧ (t.findJob s.host.nextAseq).isSome) ∧
    (∀ (d : Desc) (l : List (Nat × Int × Int)) (f : Nat × Nat), s.takes d 0x19 ([(24, decide (1 ≤ d.field 24 4 ∧ d.field 24 4 ≤ 65536)), (28, decide (d.field 28 1 < 2))] ++ descReserved d 29 35) = true → (bitAt (d.field 28 1) 0 = true → s.dramRangeOk (d.field 16 8) (16 * d.field 24 4) = true) → s.get Reg.EXP_STATE_STATE = 2 → s.get Reg.TID_PRF_STATUS_STATE = 0 → s.tid.heldJobs = [] → l = tableEntries (s.readSpace (bitAt (d.field 28 1) 0) (d.field 16 8) (16 * d.field 24 4)) (d.field 24 4) → tableFault (s.get Reg.TID_PRF_VMAX_VMAX) (s.get Reg.TID_PRF_AMAX_LIMIT) (s.get Reg.TID_PRF_JMAX_LIMIT) (s.getS Reg.TID_PRF_PMIN_POS) (s.getS Reg.TID_PRF_PMAX_POS) 0 s.tid.pos s.tid.vel none l = some f → d.field 8 8 < 2 ^ 64 - 64 → 
     Acts (.stageTable d) s fun t => DoneAtOnce d 2 s t ∧ t.tid = s.tid) ∧
    (∀ (d : Desc), s.takes d 0x19 ([(24, decide (1 ≤ d.field 24 4 ∧ d.field 24 4 ≤ 65536)), (28, decide (d.field 28 1 < 2))] ++ descReserved d 29 35) = true → (bitAt (d.field 28 1) 0 = true → s.dramRangeOk (d.field 16 8) (16 * d.field 24 4) = true) → s.get Reg.EXP_STATE_STATE ≠ 2 → 
     Acts (.stageTable d) s fun t => t.tid.heldJobs = s.tid.heldJobs ++ [⟨s.host.nextAseq, 0, some (tableEntries (s.readSpace (bitAt (d.field 28 1) 0) (d.field 16 8) (16 * d.field 24 4)) (d.field 24 4))⟩] ∧ TakenBy d s t ∧ (t.findJob s.host.nextAseq).isSome) ∧
    (∀ (d : Desc), s.takes d 0x19 ([(24, decide (1 ≤ d.field 24 4 ∧ d.field 24 4 ≤ 65536)), (28, decide (d.field 28 1 < 2))] ++ descReserved d 29 35) = true → bitAt (d.field 28 1) 0 = true → s.dramRangeOk (d.field 16 8) (16 * d.field 24 4) = false → d.field 8 8 < 2 ^ 64 - 64 → 
     Acts (.stageTable d) s fun t => DoneAtOnce d 9 s t ∧ SameBut reports s t)

/-- R290: a capture comes 48 tide clocks before the output instant; at any other time nothing happens. R291: the trigger edge and its frame. R296, R297: in CLOSED the output is the compensator's: the filter over the error and its histories, the integrator that stops where the output would saturate without it, the limits of the active bank. R299: the first sample of CLOSED keeps the output and preloads the integrator; SAFE and OPEN. R292: a missed sample holds the output and every state of the compensator. R298: a swap whose limits hold exchanges the banks. That ε of R295 is a free value between two counts is the model's choice (log entry 2); no clause rests on it. -/
def Obligations.loop_samples : Prop :=
  ∀ s : State,
    (∀ (c : Fin 4), s.get (Reg.LOOP_SRC_FB_SRC c) < 4 → s.loopDue c (48 + s.get (Reg.LOOP_SRC_TRIG_LEAD c)) = true → c.val < s.loops.length → 
     Acts (.snsTrigger c) s fun t => t.loopAt c = { s.loopAt c with edge := some s.tide, frame := none } ∧ SameBut [.loops] s t ∧ (∀ d, d ≠ c.val → t.loopAt d = s.loopAt d)) ∧
    (∀ (k : Fin 4) (frame : List Byte) (c b : Nat), s.awaiting k = [(c, b)] → c < s.loops.length → 
     Acts (.sensorFrame k frame) s fun t => t.loopAt c = { s.loopAt c with frame := some (s.tide, frame) } ∧ SameBut [.loops] s t ∧ (∀ d, d ≠ c → t.loopAt d = s.loopAt d)) ∧
    (∀ (c : Fin 4) (y e v i q0 q lo hi r : Int), s.loopDue c 48 = true → s.get (Reg.LOOP_MODE_SWAP c) = 0 → c.val < s.loops.length → s.get (Reg.LOOP_MODE_STATE c) = 2 → s.get (Reg.LOOP_MODE_REQ c) = 2 → s.loopFeedback c = (0, y) → c.val ≠ 3 → s.get (Reg.LOOP_SRC_REF_SRC c) = 0 → s.get (Reg.LOOP_SLEW_VALUE c) = 0 → s.get (Reg.LOOP_SUP_N c) = 0 → r = (if s.get (Reg.LOOP_REF_STEP_STEP c) = 0 then s.getS (Reg.LOOP_REF_TARGET c) else (s.loopAt c).rr + clampInt (s.getS (Reg.LOOP_REF_TARGET c) - (s.loopAt c).rr) (-s.get (Reg.LOOP_REF_STEP_STEP c)) (s.get (Reg.LOOP_REF_STEP_STEP c))) → e = clamp24 (clamp24 r - y) → v = s.filterOut c e → (lo, hi) = s.bankLimits c (s.get (Reg.LOOP_MODE_ACTIVE_BANK c)) → q0 = roundHalfUp ((s.loopAt c).integ + v) (2 ^ 24) → i = (if q0 < lo ∨ hi < q0 then (s.loopAt c).integ else clamp48 ((s.loopAt c).integ + roundHalfUp (s.coef c 7 * e) 16)) → q = roundHalfUp (i + v) (2 ^ 24) → 
     Acts (.loopCapture c) s fun t => t.get (Reg.LOOP_STATUS_OUT c) = wrapInt 24 (clampInt q lo hi) ∧ t.get (Reg.LOOP_STATUS_SAT c) = flag (decide (clampInt q lo hi ≠ q)) ∧ (t.loopAt c).integ = i ∧ (t.loopAt c).errs = (e :: (s.loopAt c).errs).take 3 ∧ (t.loopAt c).filt = (v :: (s.loopAt c).filt).take 3 ∧ t.get (Reg.LOOP_STATUS_SENSOR_OK c) = 1 ∧ (t.loopAt c).edge = none ∧ (t.loopAt c).frame = none ∧ (t.loopAt c).capturedAt = s.tide) ∧
    (∀ (c : Fin 4) (y e v : Int), s.loopDue c 48 = true → s.get (Reg.LOOP_MODE_SWAP c) = 0 → c.val < s.loops.length → s.get (Reg.LOOP_MODE_STATE c) ≠ 2 → s.get (Reg.LOOP_MODE_REQ c) = 2 → s.loopFeedback c = (0, y) → c.val ≠ 3 → s.get (Reg.LOOP_SRC_REF_SRC c) = 0 → s.get (Reg.LOOP_REF_STEP_STEP c) = 0 → s.get (Reg.LOOP_SUP_N c) = 0 → e = clamp24 (clamp24 (s.getS (Reg.LOOP_REF_TARGET c)) - y) → v = clamp48 (roundHalfUp (2 ^ 24 * (s.coef c 0 * e)) (2 ^ 28)) → clamp48 (s.getS (Reg.LOOP_STATUS_OUT c) * 2 ^ 24 - v) = s.getS (Reg.LOOP_STATUS_OUT c) * 2 ^ 24 - v → 
     Acts (.loopCapture c) s fun t => t.get (Reg.LOOP_STATUS_OUT c) = s.get (Reg.LOOP_STATUS_OUT c) ∧ t.get (Reg.LOOP_MODE_STATE c) = 2 ∧ t.get (Reg.LOOP_STATUS_SLEWING c) = 1 ∧ (t.loopAt c).integ = s.getS (Reg.LOOP_STATUS_OUT c) * 2 ^ 24 - v ∧ t.get (Reg.LOOP_STATUS_SUP_FAIL c) = 0 ∧ (t.loopAt c).edge = none ∧ (t.loopAt c).frame = none ∧ (t.loopAt c).capturedAt = s.tide) ∧
    (∀ (c : Fin 4) (y : Int), s.loopDue c 48 = true → s.get (Reg.LOOP_MODE_SWAP c) = 0 → c.val < s.loops.length → s.get (Reg.LOOP_MODE_REQ c) = 0 → s.loopFeedback c = (0, y) → 
     Acts (.loopCapture c) s fun t => t.get (Reg.LOOP_STATUS_OUT c) = wrapInt 24 (s.lastStep c (s.getS (Reg.LOOP_SAFE_VALUE c))) ∧ t.get (Reg.LOOP_MODE_STATE c) = 0 ∧ t.get (Reg.LOOP_STATUS_SLEWING c) = 0 ∧ (t.loopAt c).edge = none ∧ (t.loopAt c).frame = none ∧ (t.loopAt c).capturedAt = s.tide) ∧
    (∀ (c : Fin 4) (y : Int), s.loopDue c 48 = true → s.get (Reg.LOOP_MODE_SWAP c) = 0 → c.val < s.loops.length → s.get (Reg.LOOP_MODE_STATE c) = 1 → s.get (Reg.LOOP_MODE_REQ c) = 1 → s.loopFeedback c = (0, y) → s.get (Reg.LOOP_SLEW_VALUE c) = 0 ∨ s.get (Reg.LOOP_STATUS_SLEWING c) = 0 → 
     Acts (.loopCapture c) s fun t => t.get (Reg.LOOP_STATUS_OUT c) = wrapInt 24 (s.lastStep c (s.getS (Reg.LOOP_OPEN_VALUE c))) ∧ t.get (Reg.LOOP_STATUS_SLEWING c) = 0 ∧ (t.loopAt c).edge = none ∧ (t.loopAt c).frame = none ∧ (t.loopAt c).capturedAt = s.tide) ∧
    (∀ (c : Fin 4) (y : Int), s.loopDue c 48 = true → s.get (Reg.LOOP_MODE_SWAP c) = 0 → c.val < s.loops.length → s.get (Reg.LOOP_MODE_STATE c) = 1 → s.get (Reg.LOOP_MODE_REQ c) = 1 → s.loopFeedback c = (0, y) → c.val ≠ 3 → s.get (Reg.LOOP_SLEW_VALUE c) ≠ 0 ∧ s.get (Reg.LOOP_STATUS_SLEWING c) = 1 → 
     Acts (.loopCapture c) s fun t => t.get (Reg.LOOP_STATUS_OUT c) = wrapInt 24 (clampInt (s.getS (Reg.LOOP_OPEN_VALUE c)) (s.getS (Reg.LOOP_STATUS_OUT c) - s.get (Reg.LOOP_SLEW_VALUE c)) (s.getS (Reg.LOOP_STATUS_OUT c) + s.get (Reg.LOOP_SLEW_VALUE c))) ∧ (t.loopAt c).edge = none ∧ (t.loopAt c).frame = none ∧ (t.loopAt c).capturedAt = s.tide) ∧
    (∀ (c : Fin 4) (m : Nat) (y : Int), s.loopDue c 48 = true → s.get (Reg.LOOP_MODE_SWAP c) = 0 → c.val < s.loops.length → s.get (Reg.LOOP_MODE_STATE c) = 2 → s.get (Reg.LOOP_MODE_REQ c) = 2 → s.loopFeedback c = (m, y) → m ≠ 0 → (s.loopAt c).misses + 1 < s.get (Reg.LOOP_SRC_MISS_LIMIT c) → 
     Acts (.loopCapture c) s fun t => t.get (Reg.LOOP_STATUS_OUT c) = s.get (Reg.LOOP_STATUS_OUT c) ∧ t.get (Reg.LOOP_STATUS_SENSOR_OK c) = 0 ∧ (t.loopAt c).misses = (s.loopAt c).misses + 1 ∧ (t.loopAt c).integ = (s.loopAt c).integ ∧ (t.loopAt c).errs = (s.loopAt c).errs ∧ (t.loopAt c).filt = (s.loopAt c).filt ∧ (t.loopAt c).model = (s.loopAt c).model ∧ (t.loopAt c).edge = none ∧ (t.loopAt c).frame = none ∧ (t.loopAt c).capturedAt = s.tide) ∧
    (∀ (c : Fin 4) (m : Nat) (y : Int), s.loopDue c 48 = true → s.get (Reg.LOOP_MODE_SWAP c) = 1 → s.loopFeedback c = (m, y) → s.swapFault c (1 - s.get (Reg.LOOP_MODE_ACTIVE_BANK c)) = 0 → 
     Acts (.loopCapture c) s fun t => t.get (Reg.LOOP_MODE_SWAP c) = 0 ∧ t.get (Reg.LOOP_MODE_ACTIVE_BANK c) = 1 - s.get (Reg.LOOP_MODE_ACTIVE_BANK c)) ∧
    (∀ (c : Fin 4), s.loopDue c 48 = false → 
     Acts (.loopCapture c) s fun t => t = s)

/-- R299, R301: LOOP_MODE takes REQ and SWAP by their access types; a request for CLOSED with FB_SRC 6 or 7 or with OUT_PHASE not below PERIOD leaves REQ. R298: a write of the active bank has no effect and raises 0x0906. R299: LOOP_OPEN, and slewing in OPEN. R302: PERIOD, PHASE, SRC and YORG are writable in SAFE only. -/
def Obligations.loop_writes : Prop :=
  ∀ s : State,
    (∀ (d : Instr) (c : Fin 4) (v : Word), d = .loopModeWrite c v ∨ (d = .loopSwapRequest c v ∧ v.getLsbD 8 = true) → s.domainOn 15 = true → v.toNat % 4 ≠ 2 ∨ s.closeFault c = 0 → 
     Acts d s fun t => Wrote (0x00B00024 + c * 0x1000) false (v.setWidth 64) s t ∧ SameBut [.regs] s t) ∧
    (∀ (c : Fin 4) (v : Word), s.domainOn 15 = true → v.toNat % 4 = 2 → s.closeFault c ≠ 0 → 
     Acts (.loopModeWrite c v) s fun t => t.get (Reg.LOOP_MODE_REQ c) = s.get (Reg.LOOP_MODE_REQ c) ∧ t.get (Reg.LOOP_MODE_SWAP c) = (if v.getLsbD 8 then 1 else s.get (Reg.LOOP_MODE_SWAP c)) ∧ t.loops = s.loops) ∧
    (∀ (off : BitVec 25) (wide : Bool) (v : BitVec 64) (c b : Nat), bankOf off.toNat = some (c, b) → alignedAccess off.toNat wide = true → s.domainOn 15 = true → b ≠ s.get (Reg.LOOP_MODE_ACTIVE_BANK c) → 
     Acts (.loopBankWrite off wide v) s fun t => Wrote off.toNat wide v s t ∧ SameBut [.regs] s t) ∧
    (∀ (off : BitVec 25) (wide : Bool) (v : BitVec 64) (c b : Nat), bankOf off.toNat = some (c, b) → alignedAccess off.toNat wide = true → s.domainOn 15 = true → b = s.get (Reg.LOOP_MODE_ACTIVE_BANK c) → 
     Acts (.loopBankWrite off wide v) s fun t => Reported [] s t) ∧
    (∀ (c : Fin 4) (v : Word), s.domainOn 15 = true → 
     Acts (.loopOpenWrite c v) s fun t => t.get (Reg.LOOP_OPEN_VALUE c) = v.toNat % 2 ^ 24 ∧ t.get (Reg.LOOP_STATUS_SLEWING c) = (if s.get (Reg.LOOP_MODE_STATE c) = 1 then 1 else s.get (Reg.LOOP_STATUS_SLEWING c)) ∧ SameBut [.regs] s t) ∧
    (∀ (off : BitVec 25) (wide : Bool) (v : BitVec 64), 0x00B00000 ≤ off.toNat ∧ off.toNat < 0x00B04000 ∧ off.toNat % 0x1000 < 0x18 → alignedAccess off.toNat wide = true → s.domainOn 15 = true → s.get (Reg.LOOP_MODE_STATE ((off.toNat - 0x00B00000) / 0x1000)) = 0 → 
     Acts (.loopConfigWrite off wide v) s fun t => Wrote off.toNat wide v s t ∧ SameBut [.regs] s t) ∧
    (∀ (off : BitVec 25) (wide : Bool) (v : BitVec 64), 0x00B00000 ≤ off.toNat ∧ off.toNat < 0x00B04000 ∧ off.toNat % 0x1000 < 0x18 → alignedAccess off.toNat wide = true → s.domainOn 15 = true → s.get (Reg.LOOP_MODE_STATE ((off.toNat - 0x00B00000) / 0x1000)) ≠ 0 → 
     Acts (.loopConfigWrite off wide v) s fun t => Reported [] s t)

/-- While no reset is in progress (R508, R511): R307, R308: the oldest posted strip enters FLOOD from SLACK or NEAP when its conditions hold: the sequencer shows FLOOD, the strip open and its slot, and the strip holds the registers as they were (R49, R177); otherwise EXP_WAIT shows what is unmet, and nothing of the strip changes; bit 0 while another strip is open (R306); a strip whose geometry or tide conditions fail is dropped and its job completes. A strip that waits behind an open one keeps the shown bits (the model's reading; log entry 78). -/
def Obligations.flood_entry : Prop :=
  ∀ s : State,
    (∀ (st : Strip), s.box.strips.find? (fun x => !x.isOpen) = some st → s.get Reg.EXP_STATE_STATE = 1 ∨ s.get Reg.EXP_STATE_STATE = 2 → s.resetting = false → s.openStrip = none → s.floodFault st = none → uncovered s.regs = none → s.waitBits st 0 = 0 → s.inCascade = false → s.peerBits = 0 → s.on Reg.CSC_STATUS_SLAVE = false → 
     Acts .floodEnter s fun t => t.get Reg.EXP_STATE_STATE = 3 ∧ t.get Reg.EXP_STATE_OPEN = 1 ∧ t.get Reg.EXP_STATE_SLOT = st.slot % 2 ∧ t.seq.ta = 0 ∧ t.seq.resuming = false ∧ t.link.repaired = [] ∧ t.link.unresolved = [] ∧ (∀ x, t.stripAt st.slot = some x → x.isOpen = true ∧ x.latched = some s.regs)) ∧
    (∀ (st : Strip), s.box.strips.find? (fun x => !x.isOpen) = some st → s.get Reg.EXP_STATE_STATE = 1 ∨ s.get Reg.EXP_STATE_STATE = 2 → s.resetting = false → s.openStrip = none → s.floodFault st = none → uncovered s.regs = none → s.waitBits st 0 ≠ 0 → s.inCascade = false → s.peerBits = 0 → s.on Reg.CSC_STATUS_SLAVE = false → 
     Acts .floodEnter s fun t => t.get Reg.EXP_WAIT_WAIT = s.waitBits st 0 ∧ t.get Reg.EXP_STATE_STATE = s.get Reg.EXP_STATE_STATE ∧ t.box = s.box ∧ t.store = s.store) ∧
    (∀ (st : Strip), s.box.strips.find? (fun x => !x.isOpen) = some st → s.get Reg.EXP_STATE_STATE = 1 ∨ s.get Reg.EXP_STATE_STATE = 2 → s.resetting = false → s.openStrip.isSome = true → 
     Acts .floodEnter s fun t => t.get Reg.EXP_WAIT_WAIT = s.get Reg.EXP_WAIT_WAIT ||| 1 ∧ t.get Reg.EXP_STATE_STATE = s.get Reg.EXP_STATE_STATE ∧ t.box = s.box) ∧
    (∀ (st : Strip) (q : Nat × List (Nat × Nat)), s.box.strips.find? (fun x => !x.isOpen) = some st → s.get Reg.EXP_STATE_STATE = 1 ∨ s.get Reg.EXP_STATE_STATE = 2 → s.resetting = false → s.openStrip = none → s.floodFault st = some q → 
     Acts .floodEnter s fun t => t.stripAt st.slot = none ∧ t.get Reg.EXP_STATE_STATE = s.get Reg.EXP_STATE_STATE ∧ t.findJob st.aseq = none) ∧
    (s.box.strips.all (fun x => x.isOpen) = true → 
     Acts .floodEnter s fun t => t = s)

/-- While no reset is in progress (R508, R511; the sequencer takes no step of its own in one): R313: at the end of the pulses of the last line a prompt stop enters BREAK and records its cause and kind, and after a planned stop the head is blanked. R309, R314: EBB and BREAK end in SLACK when the profile is at REST: a strip without open marks completes and is no longer there, an interrupted one stays, and the STOP jobs that asked for it complete. -/
def Obligations.breaks_and_slack : Prop :=
  ∀ s : State,
    (∀ (p : PendingStop) (st : Strip), s.resetting = false → s.firing = true → s.seq.prompt = some p → s.openStrip = some st → p.cause < 256 ∧ p.kind < 4 → 
     Acts .promptBreakEnter s fun t => t.get Reg.EXP_STATE_STATE = 6 ∧ t.get Reg.EXP_BREAK_CAUSE = p.cause ∧ t.get Reg.EXP_BREAK_KIND = p.kind ∧ t.seq.prompt = none ∧ t.seq.relayed = none ∧ t.seq.blankLag = decide (p.kind = 3) ∧ t.get Reg.TID_TICK_STATE = 0 ∧ t.get Reg.EXP_STATE_STOP_PLANNED = 0) ∧
    (s.resetting = false → s.firing = false → s.seq.blankLag = true → 
     Acts .promptBreakEnter s fun t => t.seq = { s.seq with blankLag := false } ∧ t.get Reg.EXP_STATE_STATE = s.get Reg.EXP_STATE_STATE ∧ SameBut [.regs, .seq] s t) ∧
    (∀ (st : Strip), s.resetting = false → s.get Reg.EXP_STATE_STATE = 5 → s.get Reg.TID_PRF_STATUS_STATE = 0 → s.openStrip = some st → s.seq.afterFlood = none → s.openMarks st.slot = 0 → 
     Acts .ebbToSlack s fun t => t.get Reg.EXP_STATE_STATE = 2 ∧ t.get Reg.EXP_STATE_OPEN = 0 ∧ t.stripAt st.slot = none ∧ t.findJob st.aseq = none) ∧
    (s.resetting = true ∨ s.get Reg.EXP_STATE_STATE ≠ 5 ∨ s.get Reg.TID_PRF_STATUS_STATE ≠ 0 → 
     Acts .ebbToSlack s fun t => t = s) ∧
    (∀ (st : Strip), s.resetting = false → s.get Reg.EXP_STATE_STATE = 6 → s.get Reg.TID_PRF_STATUS_STATE = 0 → s.openStrip = some st → s.seq.endJobs = [] → 
     Acts .breakToSlack s fun t => t.get Reg.EXP_STATE_STATE = 2 ∧ t.seq.stopJobs = [] ∧ (∀ a ∈ s.seq.stopJobs, t.findJob a = none) ∧ (t.stripAt st.slot).isSome = true)

/-- While no reset is in progress (R508, R511): R319, R320: an interrupted strip whose conditions hold passes through FLOOD to a resume from t_a to t_e, with the set-up that it latched; a refused one keeps its state and its RESUME jobs are REFUSED. R325, R502: after EXP_NEAP.DELAY milliseconds of quiet every chain is DOWN, the couches OFF with their roles kept, and the render, head-link, couch, CAL and FEED domains down; a wake requests them, and when they are up the sequencer is in SLACK. -/
def Obligations.resume_and_neap : Prop :=
  ∀ s : State,
    (∀ (st : Strip) (ta te last : Int), s.resetting = false → s.openStrip = some st → s.get Reg.EXP_STATE_STATE = 1 ∨ s.get Reg.EXP_STATE_STATE = 2 → s.resumeRefusal st = none → s.recordsOpen = false → s.doneFaulty st = none → s.resumeSpan st (s.doneAfter st) = (ta, te, last) → s.resumeBits st ta = 0 → s.readyPorts = [] → s.inCascade = false → s.peerBits = 0 → s.on Reg.CSC_STATUS_SLAVE = false → 
     Acts .resumeStart s fun t => t.get Reg.EXP_STATE_STATE = 3 ∧ t.seq.resuming = true ∧ t.seq.ta = ta ∧ t.seq.te = te ∧ t.seq.repairOnly = decide (s.lastTick st < te) ∧ (∀ x, t.stripAt st.slot = some x → x.latched = st.latched)) ∧
    (∀ (st : Strip) (q : Nat × Nat), s.resetting = false → s.openStrip = some st → s.get Reg.EXP_STATE_STATE = 1 ∨ s.get Reg.EXP_STATE_STATE = 2 → s.resumeRefusal st = some q → st.refused ≠ q.1 → s.on Reg.CSC_STATUS_SLAVE = false → 
     Acts .resumeStart s fun t => (∀ a ∈ st.resumeJobs, t.findJob a = none) ∧ t.get Reg.EXP_STATE_STATE = s.get Reg.EXP_STATE_STATE ∧ t.seq = s.seq ∧ t.store = s.store ∧ (∀ x, t.stripAt st.slot = some x → x.refused = q.1 ∧ x.resumeJobs = [])) ∧
    (s.resetting = true ∨ (s.get Reg.EXP_STATE_STATE ≠ 1 ∧ s.get Reg.EXP_STATE_STATE ≠ 2) → 
     Acts .resumeStart s fun t => t = s) ∧
    (∀ (q : Nat), s.resetting = false → s.seq.idleSince = some q → s.neapQuiet = true → q + 400000 * s.get Reg.EXP_NEAP_DELAY ≤ s.tide → 
     Acts .neapEnter s fun t => t.get Reg.EXP_STATE_STATE = 1 ∧ t.couch.neapRoles = [s.couchRole 0, s.couchRole 1] ∧ t.couchRole 0 = 3 ∧ t.couchRole 1 = 3 ∧ (∀ n < 128, t.chainState n = 0) ∧ (∀ d ∈ neapDomains, t.domainOn d = false) ∧ (∀ d < 16, natMem d neapDomains = false → t.domainOn d = s.domainOn d)) ∧
    (s.resetting = false → s.get Reg.EXP_STATE_STATE = 1 → s.seq.waking = false → s.stirred = true → 
     Acts .neapWake s fun t => t.seq = { s.seq with waking := true } ∧ t.pwr.requested = (s.requestDomains (neapDomains.filter fun d => !(decide (d = 8 ∨ d = 9) && decide (s.couch.neapRoles.getD (d - 8) 3 = 3)))).pwr.requested ∧ SameBut [.seq, .pwr] s t) ∧
    (s.resetting = false → s.get Reg.EXP_STATE_STATE = 1 → s.seq.waking = true → s.pwr.requested = 0 → 
     Acts .neapWakeDone s fun t => t.get Reg.EXP_STATE_STATE = 2 ∧ t.couch.neapRoles = [] ∧ t.seq.waking = false)

/-- R457: HST_ABORT with 0xA5 discards queued tile, stage, head-care, codec and layout work and ends the strip requests; when the last affected job has completed ABORTING clears. R461: D3hot aborts in the same way and holds the records, which D0 delivers. -/
def Obligations.abort_and_sleep : Prop :=
  ∀ s : State,
    (∀ (v : Word), v.toNat % 256 = 0xA5 → s.domainOn 14 = true → s.get Reg.HST_STATUS_ABORTING = 0 → 
     Acts (.hstAbort v) s fun t => t.seq.stopJobs = [] ∧ t.seq.endJobs = [] ∧ t.box.jobs = [] ∧ t.tid.job = none ∧ t.tid.heldJobs = [] ∧ t.hcr.run = none ∧ t.hcr.cal = none ∧ t.hcr.jobs = [] ∧ t.store.codec = [] ∧ (∀ h, (t.stream h).jobs = [])) ∧
    (∀ (v : Word), v.toNat % 256 ≠ 0xA5 → s.domainOn 14 = true → 
     Acts (.hstAbort v) s fun t => t = s) ∧
    (s.get Reg.HST_STATUS_ABORTING = 1 → (s.host.abortJobs.any fun a => (s.findJob a).isSome) = false → 
     Acts .abortComplete s fun t => t.get Reg.HST_STATUS_ABORTING = 0 ∧ t.host.abortJobs = [] ∧ t.host.jobs = s.host.jobs ∧ SameBut reports s t ∧ RegsBut [Reg.HST_STATUS_ABORTING] s t) ∧
    (s.get Reg.HST_STATUS_ABORTING = 1 → (s.host.abortJobs.any fun a => (s.findJob a).isSome) = true → 
     Acts .abortComplete s fun t => t = s) ∧
    (s.host.d3hot = false → s.get Reg.HST_STATUS_ABORTING = 0 → 
     Acts .d3hotEntry s fun t => t.host.d3hot = true ∧ t.box.jobs = [] ∧ t.hcr.jobs = [] ∧ t.store.codec = [] ∧ t.tid.heldJobs = [] ∧ t.dram = s.dram ∧ t.tide = s.tide) ∧
    (s.host.d3hot = true → s.get Reg.HST_STATUS_LINK_UP = 1 → 
     Acts .d0Entry s fun t => t.host.d3hot = false ∧ t.host.heldWrites = [] ∧ t.host.jobs = s.host.jobs ∧ SameBut reports s t)

/-- R452, R335: a measurement job joins the queue of its ring and stays in flight. R336 to R338: an alignment job whose table passes its checks writes each row's align and trim to the result and counts RES_GEN; one that fails changes no result and completes FAILED. The committed alignment never changes. R339, R482, R483: a proposal of the current RES_GEN becomes the breakwater's proposal, or waits while one exists; another is REFUSED. Behind a measurement both kinds of job wait. That alignment and proposal jobs with no measurement ahead act at once is the model's choice (log entry 72). -/
def Obligations.head_care_jobs : Prop :=
  ∀ s : State,
    (∀ (d : Desc), s.takes d 0x28 ([(16, decide (d.field 16 8 % 4096 = 0)), (24, decide (d.field 24 2 < 1024)), (26, decide (d.field 24 2 + d.field 26 2 ≤ 1024)), (28, decide (d.field 28 1 < 2))] ++ descReserved d 29 35) = true → s.hcr.jobs.all (fun j => decide (j.opcode = 0x28)) = true → 
     Acts (.hcrMeasure d) s fun t => t.hcr.jobs = s.hcr.jobs ++ [{ aseq := s.host.nextAseq, opcode := 0x28, addr := d.field 16 8, first := d.field 24 2, count := d.field 26 2, propose := bitAt (d.field 28 1) 0 }] ∧ t.hcr.run = s.hcr.run ∧ TakenBy d s t ∧ (t.findJob s.host.nextAseq).isSome) ∧
    (∀ (d : Desc), s.takes d 0x29 ([(16, decide (d.field 16 8 % 8 = 0)), (28, decide (d.field 28 1 < 2))] ++ descReserved d 24 4 ++ descReserved d 29 35) = true → s.hcr.jobs = [] → s.alignFault (s.readSpace false (d.field 16 8) 4112) = none → d.field 28 1 = 0 ∨ s.hcr.handover = [] → d.field 8 8 < 2 ^ 64 - 64 → 
     Acts (.hcrAlign d) s fun t => (∀ r < 512, t.get ⟨0x00D02000 + 4 * r, 0, 16⟩ = wrapInt 16 (s.newRow (s.readSpace false (d.field 16 8) 4112) r).1 ∧ t.get ⟨0x00D02000 + 4 * r, 16, 8⟩ = wrapInt 8 (s.newRow (s.readSpace false (d.field 16 8) 4112) r).2.1) ∧ t.get Reg.HCR_GEN_RES_GEN = (s.get Reg.HCR_GEN_RES_GEN + 1) % 65536 ∧ (∀ r < 512, t.get ⟨0x00D01000 + 4 * r, 0, 32⟩ = s.get ⟨0x00D01000 + 4 * r, 0, 32⟩) ∧ DoneAtOnce d 0 s t) ∧
    (∀ (d : Desc) (q : Nat × Nat), s.takes d 0x29 ([(16, decide (d.field 16 8 % 8 = 0)), (28, decide (d.field 28 1 < 2))] ++ descReserved d 24 4 ++ descReserved d 29 35) = true → s.hcr.jobs = [] → s.alignFault (s.readSpace false (d.field 16 8) 4112) = some q → d.field 8 8 < 2 ^ 64 - 64 → 
     Acts (.hcrAlign d) s fun t => (∀ r < 512, t.get ⟨0x00D02000 + 4 * r, 0, 32⟩ = s.get ⟨0x00D02000 + 4 * r, 0, 32⟩) ∧ t.get Reg.HCR_GEN_RES_GEN = s.get Reg.HCR_GEN_RES_GEN ∧ DoneAtOnce d 1 s t) ∧
    (∀ (d : Desc) (j : HcrJob) (r : List HcrJob), s.takes d 0x29 ([(16, decide (d.field 16 8 % 8 = 0)), (28, decide (d.field 28 1 < 2))] ++ descReserved d 24 4 ++ descReserved d 29 35) = true → s.hcr.jobs = j :: r → j.opcode = 0x28 → 
     Acts (.hcrAlign d) s fun t => t.hcr.jobs = s.hcr.jobs ++ [{ aseq := s.host.nextAseq, opcode := 0x29, addr := d.field 16 8, propose := bitAt (d.field 28 1) 0 }] ∧ TakenBy d s t ∧ (t.findJob s.host.nextAseq).isSome) ∧
    (∀ (d : Desc) (j : HcrJob) (r : List HcrJob), s.takes d 0x2A ((16, decide (d.field 16 1 = 1 ∨ d.field 16 1 = 2)) :: descReserved d 17 1 ++ descReserved d 20 44) = true → s.hcr.jobs = j :: r → j.opcode = 0x28 → 
     Acts (.hcrPropose d) s fun t => t.hcr.jobs = s.hcr.jobs ++ [{ aseq := s.host.nextAseq, opcode := 0x2A, kind := d.field 16 1, gen := d.field 18 2 }] ∧ TakenBy d s t ∧ (t.findJob s.host.nextAseq).isSome) ∧
    (∀ (d : Desc), s.takes d 0x2A ((16, decide (d.field 16 1 = 1 ∨ d.field 16 1 = 2)) :: descReserved d 17 1 ++ descReserved d 20 44) = true → s.hcr.jobs = [] → s.hcr.handover = [] → s.get Reg.BWT_PROP_STATUS_STATE ≠ 0 → d.field 18 2 = s.get Reg.HCR_GEN_RES_GEN → d.field 16 1 = 2 ∨ s.get Reg.HCR_STATUS_STUCK = 0 → 
     Acts (.hcrPropose d) s fun t => t.hcr = { s.hcr with handover := [(d.field 16 1, some s.host.nextAseq)] } ∧ t.bwt = s.bwt ∧ TakenBy d s t ∧ (t.findJob s.host.nextAseq).isSome) ∧
    (∀ (d : Desc), s.takes d 0x2A ((16, decide (d.field 16 1 = 1 ∨ d.field 16 1 = 2)) :: descReserved d 17 1 ++ descReserved d 20 44) = true → s.hcr.jobs = [] → s.hcr.handover = [] → d.field 18 2 = s.get Reg.HCR_GEN_RES_GEN → d.field 16 1 = 2 ∨ s.get Reg.HCR_STATUS_STUCK = 0 → s.get Reg.BWT_PROP_STATUS_STATE = 0 → d.field 8 8 < 2 ^ 64 - 64 → 
     Acts (.hcrPropose d) s fun t => t.bwt.image = proposalImage ((s.get Reg.BWT_SEQ_COMMITTED + 1) % 2 ^ 32) (s.proposalRecords (d.field 16 1)) ∧ t.bwt.fromHead = true ∧ t.get Reg.BWT_PROP_STATUS_STATE = 1 ∧ t.hcr = s.hcr ∧ DoneAtOnce d 0 s t) ∧
    (∀ (d : Desc), s.takes d 0x2A ((16, decide (d.field 16 1 = 1 ∨ d.field 16 1 = 2)) :: descReserved d 17 1 ++ descReserved d 20 44) = true → s.hcr.jobs = [] → s.hcr.handover = [] → d.field 18 2 ≠ s.get Reg.HCR_GEN_RES_GEN → d.field 8 8 < 2 ^ 64 - 64 → 
     Acts (.hcrPropose d) s fun t => DoneAtOnce d 2 s t ∧ t.bwt = s.bwt ∧ t.hcr = s.hcr ∧ t.get Reg.BWT_PROP_STATUS_STATE = s.get Reg.BWT_PROP_STATUS_STATE)

/-- R335: in SLACK the first item that is due starts: a strobe calibration of every lane whose domain is up, a measurement of the drivers unmeasured by serial, of all drivers, or of the first job's; outside SLACK its deferral is noted once. R331 to R333: a run ends when no driver is left, with the class and serial of every complete driver written, RES_GEN counted, and no result of an incomplete one; after TIMEOUT_MS no driver is left. R340: eight windows are counted, the choice keeps a target that is set, and the confirming window ends the calibration. R335: MEAS_REQ and CAL_REQ. -/
def Obligations.measurement_runs : Prop :=
  ∀ s : State,
    (s.itemDue = some 1 → s.get Reg.EXP_STATE_STATE = 2 → s.hcr.run = none ∧ s.hcr.cal = none ∧ s.couch.test = none → s.get Reg.TID_TICK_STATE = 0 → 
     Acts .hcrSchedule s fun t => t.hcr.cal = some ⟨s.lanesUp, [], [], []⟩ ∧ t.get Reg.HCR_STATUS_RUN = 2 ∧ SameBut [.regs, .hcr] s t ∧ RegsBut [Reg.HCR_STATUS_RUN] s t) ∧
    (s.itemDue = some 3 → s.get Reg.EXP_STATE_STATE = 2 → s.hcr.run = none ∧ s.hcr.cal = none ∧ s.couch.test = none → s.get Reg.TID_TICK_STATE = 0 → 
     Acts .hcrSchedule s fun t => t.hcr.run.isSome = true ∧ t.hcr.run.map (fun r => r.drivers.map (·.addr)) = some (List.range 1024) ∧ t.hcr.run.map (fun r => (r.job, r.buffer, r.propose, r.full)) = some (none, 0, false, true) ∧ t.get Reg.TID_TICK_STATE = 1 ∧ t.get Reg.HCR_STATUS_RUN = 1) ∧
    (s.itemDue = some 2 → s.get Reg.EXP_STATE_STATE = 2 → s.hcr.run = none ∧ s.hcr.cal = none ∧ s.couch.test = none → s.get Reg.TID_TICK_STATE = 0 → 
     Acts .hcrSchedule s fun t => t.hcr.run.map (fun r => r.drivers.map (·.addr)) = some s.hcr.unmeasured ∧ t.hcr.run.map (fun r => (r.job, r.buffer, r.propose, r.full)) = some (none, 0, false, false) ∧ t.get Reg.TID_TICK_STATE = 1 ∧ t.get Reg.HCR_STATUS_RUN = 1) ∧
    (∀ (j : HcrJob) (r : List HcrJob), s.itemDue = some 4 → s.hcr.jobs = j :: r → s.get Reg.EXP_STATE_STATE = 2 → s.hcr.run = none ∧ s.hcr.cal = none ∧ s.couch.test = none → s.get Reg.TID_TICK_STATE = 0 → 
     Acts .hcrSchedule s fun t => t.hcr.jobs = r ∧ t.hcr.run.map (fun r => r.drivers.map (·.addr)) = some (if j.count = 0 then List.range 1024 else (List.range j.count).map (j.first + ·)) ∧ t.hcr.run.map (fun r => (r.job, r.buffer, r.propose)) = some (some j.aseq, j.addr, j.propose) ∧ t.get Reg.TID_TICK_STATE = 1 ∧ t.get Reg.HCR_STATUS_RUN = 1) ∧
    (∀ (item : Nat), s.itemDue = some item → s.get Reg.EXP_STATE_STATE ≠ 0 ∧ s.get Reg.EXP_STATE_STATE ≠ 2 → natMem item s.hcr.deferred = false → 
     Acts .hcrSchedule s fun t => t.hcr = { s.hcr with deferred := item :: s.hcr.deferred } ∧ SameBut (.hcr :: reports) s t ∧ RegsBut [] s t) ∧
    (∀ (r : MeasRun), s.hcr.run = some r → (r.drivers.any fun m => decide (m.result = 0)) = true → 
     Acts .hcrMeasRunEnd s fun t => t = s) ∧
    (∀ (r : MeasRun), s.hcr.run = some r → (r.drivers.all fun m => decide (m.result ≠ 0)) = true → s.hcr.jobs = [] → 
     Acts .hcrMeasRunEnd s fun t => t.hcr.run = none ∧ t.get Reg.HCR_GEN_RES_GEN = (s.get Reg.HCR_GEN_RES_GEN + 1) % 65536 ∧ t.get Reg.TID_TICK_STATE = 0 ∧ t.get Reg.HCR_STATUS_RUN = 0 ∧ (∀ a, r.job = some a → t.findJob a = none)) ∧
    (∀ (r : MeasRun) (m : MeasDriver), s.hcr.run = some r → r.drivers = [m] → m.result = 1 → m.addr < 1024 → s.hcr.jobs = [] → 
     Acts .hcrMeasRunEnd s fun t => t.get (Reg.HCR_DRV_SERIAL_SERIAL m.addr) = (s.driver m.addr).serial % 2 ^ 32 ∧ (∀ e < 256, t.get ⟨defectResBase + 4 * (beamOf s.runMap m.addr e / 16), 2 * (beamOf s.runMap m.addr e % 16), 2⟩ = s.classOf ((m.value e 1).getD 0) ((m.value e 2).getD 0))) ∧
    (∀ (r : MeasRun), s.hcr.run = some r → (r.drivers.all fun m => decide (m.result = 2)) = true → r.drivers ≠ [] → s.hcr.jobs = [] → 
     Acts .hcrMeasRunEnd s fun t => t.hcr.lastFull = s.hcr.lastFull ∧ (∀ a < 1024, t.get (Reg.HCR_DRV_SERIAL_SERIAL a) = s.get (Reg.HCR_DRV_SERIAL_SERIAL a)) ∧ (∀ w < 16384, t.get ⟨defectResBase + 4 * w, 0, 32⟩ = s.get ⟨defectResBase + 4 * w, 0, 32⟩)) ∧
    (∀ (r : MeasRun) (q : Nat), s.hcr.run = some r → r.startedAt = some q → q + 400000 * s.get Reg.HCR_MEAS_CTRL_TIMEOUT_MS ≤ s.tide → 
     Acts .hcrMeasTimeout s fun t => (∀ x, t.hcr.run = some x → ∀ m ∈ x.drivers, m.result ≠ 0) ∧ t.hcr.run.isSome = true ∧ SameBut [.hcr] s t) ∧
    (∀ (r : MeasRun) (q : Nat), s.hcr.run = some r → r.startedAt = some q → s.tide < q + 400000 * s.get Reg.HCR_MEAS_CTRL_TIMEOUT_MS → 
     Acts .hcrMeasTimeout s fun t => t = s) ∧
    (∀ (counts : List Word) (c : StrobeCal), s.hcr.cal = some c → c.windows.length < 7 → 
     Acts (.strobeCalWindow counts) s fun t => t.hcr.cal = some { c with windows := c.windows ++ [counts.map BitVec.toNat] } ∧ SameBut [.hcr] s t) ∧
    (∀ (counts : List Word) (c : StrobeCal), s.hcr.cal = some c → c.windows.length = 7 → 
     Acts (.strobeCalWindow counts) s fun t => t.hcr.cal.map (fun x => (x.lanes, x.windows)) = some (c.lanes, c.windows ++ [counts.map BitVec.toNat]) ∧ (s.get Reg.HCR_STROBE_TGT_PS ≠ 0 → t.get Reg.HCR_STROBE_TGT_PS = s.get Reg.HCR_STROBE_TGT_PS) ∧ SameBut [.regs, .hcr] s t ∧ RegsBut [Reg.HCR_STROBE_TGT_PS] s t) ∧
    (∀ (counts : List Word) (c : StrobeCal), s.hcr.cal = some c → 8 ≤ c.windows.length → 
     Acts (.strobeCalWindow counts) s fun t => t.hcr.cal = none ∧ t.get Reg.HCR_CAL_TEMP_TEMP = s.get Reg.PWR_DIE_TEMP_TEMP ∧ t.get Reg.HCR_STATUS_RUN = 0 ∧ t.get Reg.HCR_CTRL_CAL_REQ = 0 ∧ t.get Reg.HCR_STROBE_TGT_PS = s.get Reg.HCR_STROBE_TGT_PS) ∧
    (∀ (d : Instr) (v : Word), d = .measReq v ∨ d = .calReq v → s.domainOn 1 = true → 
     Acts d s fun t => Wrote 0x00D00000 false (v.setWidth 64) s t ∧ SameBut [.regs] s t ∧ RegsBut [⟨0x00D00000, 0, 32⟩] s t)

/-- R347: the step generator emits one step toward the commanded position once the times of R346 have passed, changes DIR first where it must, and never steps toward an active switch (R354) outside HOME, nor in DISABLED or FAULT. R350: a planner step within the limits sets the commanded motion in MOVE, HOME and STOP, the cubic of its table in TABLE; in IDLE it stands. R352, R353: the encoder counts, an illegal transition in a motion, and a deviation beyond WIN for TIME, are faults, which clear REF. R355: the index after the release is the reference. R353: the settle check. R354: a switch that becomes active in its direction of motion faults the axis. -/
def Obligations.steps_and_planner : Prop :=
  ∀ s : State,
    (∀ (n : Fin 3) (want : Int), want = idiv (s.axis n).x 65536 → want ≠ s.axisCount n → natMem (s.axisState n) [1, 2, 3, 4, 5] = true → s.pwr.protective = false → s.axisState n = 4 ∨ s.blockedToward n (decide (s.axisCount n < want)) = false → (s.axisState n = 4 → (s.axis n).homeSteps < 2 ^ 31 ∨ 4 ≤ (s.axis n).homeStage) → (s.axis n).dir = decide (s.axisCount n < want) → (∀ q, (s.axis n).stepAt = some q → q + s.get (Reg.AUX_CFG_STEP_HI n) + s.get (Reg.AUX_CFG_STEP_LO n) ≤ s.tide) → (s.axis n).dirAt + s.get (Reg.AUX_CFG_DIR_SETUP n) ≤ s.tide → n.val < s.aux.axes.length → 
     Acts (.stepGenerate n) s fun t => t.get (Reg.AUX_POS_COUNT n) = wrapInt 48 (if s.axisCount n < want then s.axisCount n + 1 else s.axisCount n - 1) ∧ (t.axis n).stepAt = some s.tide ∧ (t.axis n).x = (s.axis n).x ∧ (∀ k, k ≠ n.val → t.axis k = s.axis k) ∧ SameBut (.aux :: reports) s t ∧ RegsBut [Reg.AUX_POS_COUNT n, ⟨cntAux n 0, 0, 64⟩] s t) ∧
    (∀ (n : Fin 3) (want : Int) (q : Nat), want = idiv (s.axis n).x 65536 → want ≠ s.axisCount n → natMem (s.axisState n) [1, 2, 3, 4, 5] = true → s.pwr.protective = false → s.axisState n = 4 ∨ s.blockedToward n (decide (s.axisCount n < want)) = false → (s.axis n).dir ≠ decide (s.axisCount n < want) → (s.axis n).stepAt = some q → q + s.get (Reg.AUX_CFG_STEP_HI n) ≤ s.tide → n.val < s.aux.axes.length → 
     Acts (.stepGenerate n) s fun t => (t.axis n) = { s.axis n with dir := decide (s.axisCount n < want), dirAt := s.tide } ∧ t.get (Reg.AUX_POS_COUNT n) = s.get (Reg.AUX_POS_COUNT n) ∧ (∀ k, k ≠ n.val → t.axis k = s.axis k) ∧ SameBut [.aux] s t) ∧
    (∀ (n : Fin 3), idiv (s.axis n).x 65536 = s.axisCount n ∨ natMem (s.axisState n) [0, 6] = true ∨ s.pwr.protective = true → 
     Acts (.stepGenerate n) s fun t => t = s) ∧
    (∀ (n : Fin 3), s.axisState n ≠ 4 → s.blockedToward n (decide (s.axisCount n < idiv (s.axis n).x 65536)) = true → 
     Acts (.stepGenerate n) s fun t => t = s) ∧
    (∀ (n : Fin 3) (pos vel acc : BitVec 64), natMem (s.axisState n) [2, 4, 5] = true → s.axisStepAllowed n pos.toInt vel.toInt acc.toInt = true → (s.axis n).deferred = [] → s.get (Reg.AUX_CFG_ENC_EN n) = 0 ∨ (s.deviation n).natAbs ≤ s.get (Reg.AUX_DEV_WIN n) → n.val < s.aux.axes.length → 
     Acts (.auxPlannerStep n pos vel acc) s fun t => t.axis n = { s.axis n with x := pos.toInt, v := vel.toInt, a := acc.toInt, devRun := (if s.get (Reg.AUX_CFG_ENC_EN n) = 1 then 0 else (s.axis n).devRun), homeStage := (if s.axisState n = 4 ∧ (s.axis n).homeStage = 1 ∧ vel = 0 ∧ acc = 0 then 2 else (s.axis n).homeStage) } ∧ (∀ k, k ≠ n.val → t.axis k = s.axis k) ∧ SameBut (.aux :: reports) s t ∧ RegsBut [Reg.AUX_ENC_DEV n] s t) ∧
    (∀ (n : Fin 3) (pos vel acc : BitVec 64) (e : Nat × Int × Int) (r : List (Nat × Int × Int)) (p v : Int) (b : Nat), s.axisState n = 3 → tableAdvance s.tide (s.axis n).table (s.axis n).segPos (s.axis n).segVel (s.axis n).segStart = (e :: r, p, v, b) → (s.axis n).deferred = [] → s.get (Reg.AUX_CFG_ENC_EN n) = 0 ∨ (s.deviation n).natAbs ≤ s.get (Reg.AUX_DEV_WIN n) → n.val < s.aux.axes.length → 
     Acts (.auxPlannerStep n pos vel acc) s fun t => (t.axis n).x = idiv ((segmentFrom p v e.1 e.2.1 e.2.2).at (s.tide - b)).1 15625 ∧ (t.axis n).table = e :: r ∧ (∀ k, k ≠ n.val → t.axis k = s.axis k) ∧ SameBut (.aux :: reports) s t ∧ RegsBut [Reg.AUX_ENC_DEV n] s t) ∧
    (∀ (n : Fin 3) (pos vel acc : BitVec 64), natMem (s.axisState n) [0, 1, 6] = true → (s.axis n).deferred = [] → s.get (Reg.AUX_CFG_ENC_EN n) = 0 ∨ (s.deviation n).natAbs ≤ s.get (Reg.AUX_DEV_WIN n) → n.val < s.aux.axes.length → 
     Acts (.auxPlannerStep n pos vel acc) s fun t => t.axis n = { s.axis n with devRun := (if s.get (Reg.AUX_CFG_ENC_EN n) = 1 then 0 else (s.axis n).devRun) } ∧ (∀ k, k ≠ n.val → t.axis k = s.axis k) ∧ SameBut (.aux :: reports) s t ∧ RegsBut [Reg.AUX_ENC_DEV n] s t) ∧
    (∀ (n : Fin 3) (pos vel acc : BitVec 64), s.axisState n = 2 → s.axisStepAllowed n pos.toInt vel.toInt acc.toInt = true → (s.axis n).deferred = [] → s.get (Reg.AUX_CFG_ENC_EN n) = 1 → s.get (Reg.AUX_DEV_WIN n) < (s.deviation n).natAbs → (s.axis n).devRun ≠ 0 → s.get (Reg.AUX_DEV_TIME n) ≤ 10 * (s.axis n).devRun → n.val < s.aux.axes.length → 
     Acts (.auxPlannerStep n pos vel acc) s fun t => t.axisState n = 6 ∧ t.get (Reg.AUX_POS_REF n) = 0 ∧ t.get (Reg.AUX_STATUS_FAULT_CAUSE n) = (if s.encoder n = (s.axis n).devFrom ∧ 4 ≤ (s.axis n).devSteps then 1 else 2) ∧ (t.axis n).x = s.axisCount n * 65536 ∧ (t.axis n).v = 0 ∧ (t.axis n).a = 0) ∧
    (∀ (n : Fin 3) (a b : Bool) (d : Int), s.get (Reg.AUX_CFG_ENC_EN n) = 1 → quadStep (s.axis n).encA (s.axis n).encB a b = some d → n.val < s.aux.axes.length → 
     Acts (.encEdge n a b) s fun t => t.get (Reg.AUX_ENC_COUNT n) = wrapInt 32 (if s.get (Reg.AUX_CFG_ENC_INV n) = 0 then s.get (Reg.AUX_ENC_COUNT n) + d else s.get (Reg.AUX_ENC_COUNT n) - d) ∧ t.axis n = { s.axis n with encA := a, encB := b } ∧ (∀ k, k ≠ n.val → t.axis k = s.axis k) ∧ SameBut [.regs, .aux] s t ∧ RegsBut [Reg.AUX_ENC_COUNT n] s t) ∧
    (∀ (n : Fin 3) (a b : Bool), s.get (Reg.AUX_CFG_ENC_EN n) = 1 → quadStep (s.axis n).encA (s.axis n).encB a b = none → s.axisBusy n = true → n.val < s.aux.axes.length → 
     Acts (.encEdge n a b) s fun t => t.axisState n = 6 ∧ t.get (Reg.AUX_STATUS_FAULT_CAUSE n) = 2 ∧ t.get (Reg.AUX_POS_REF n) = 0 ∧ t.get (Reg.AUX_POS_COUNT n) = s.get (Reg.AUX_POS_COUNT n) ∧ (t.axis n).x = s.axisCount n * 65536 ∧ (t.axis n).v = 0) ∧
    (∀ (n : Fin 3), s.axisState n = 4 → (s.axis n).homeStage = 3 → n.val < s.aux.axes.length → 
     Acts (.encIndex n) s fun t => t.get (Reg.AUX_POS_COUNT n) = s.get (Reg.AUX_HOME_POS n) ∧ t.get (Reg.AUX_POS_REF n) = 1 ∧ (t.axis n).delta = s.encoder n - s.getS (Reg.AUX_HOME_POS n) ∧ (t.axis n).homeStage = 4 ∧ (∀ k, k ≠ n.val → t.axis k = s.axis k)) ∧
    (∀ (n : Fin 3), s.axisState n ≠ 4 ∨ (s.axis n).homeStage ≠ 3 → 
     Acts (.encIndex n) s fun t => t = s) ∧
    (∀ (n : Fin 3) (q : Nat), (s.axis n).idleAt = some q → s.axisState n = 1 → q + 400000 * s.get (Reg.AUX_SETTLE_SETTLE_MS n) ≤ s.tide → s.get (Reg.AUX_CFG_ENC_EN n) = 0 ∨ (s.deviation n).natAbs ≤ s.get (Reg.AUX_SETTLE_END_WIN n) → n.val < s.aux.axes.length → 
     Acts (.auxSettleCheck n) s fun t => (t.axis n).idleAt = none ∧ (t.axis n).job = none ∧ (∀ k, k ≠ n.val → t.axis k = s.axis k) ∧ SameBut [.aux] s t) ∧
    (∀ (n : Fin 3) (q : Nat), (s.axis n).idleAt = some q → s.axisState n = 1 → q + 400000 * s.get (Reg.AUX_SETTLE_SETTLE_MS n) ≤ s.tide → s.get (Reg.AUX_CFG_ENC_EN n) = 1 ∧ s.get (Reg.AUX_SETTLE_END_WIN n) < (s.deviation n).natAbs → n.val < s.aux.axes.length → 
     Acts (.auxSettleCheck n) s fun t => t.axisState n = 6 ∧ t.get (Reg.AUX_STATUS_FAULT_CAUSE n) = 2 ∧ t.get (Reg.AUX_POS_REF n) = 0) ∧
    (∀ (n : Fin 3) (hi level : Bool), natMem (s.axisState n) [0, 1, 6] = true → 
     Acts (.limitSwitch n hi level) s fun t => t.get (if hi then Reg.AUX_STATUS_LIM_HI n else Reg.AUX_STATUS_LIM_LO n) = flag (decide (level = s.on (if hi then Reg.AUX_CFG_HI_POL n else Reg.AUX_CFG_LO_POL n))) ∧ SameBut [.regs] s t ∧ RegsBut [if hi then Reg.AUX_STATUS_LIM_HI n else Reg.AUX_STATUS_LIM_LO n] s t) ∧
    (∀ (n : Fin 3) (hi level : Bool), natMem (s.axisState n) [2, 3, 5] = true → s.blockedToward n hi = false → level = s.on (if hi then Reg.AUX_CFG_HI_POL n else Reg.AUX_CFG_LO_POL n) → s.movesToward n hi = true → n.val < s.aux.axes.length → 
     Acts (.limitSwitch n hi level) s fun t => t.axisState n = 6 ∧ t.get (Reg.AUX_STATUS_FAULT_CAUSE n) = 3 ∧ t.get (Reg.AUX_POS_REF n) = 0 ∧ (t.axis n).v = 0 ∧ (t.axis n).a = 0)

/-- R451: an AUX or a RECOAT descriptor that passes its checks joins the unit: its first phases start at once where its turn has come and their axes are IDLE, wait otherwise, and wait with one event while a lock holds (R359); a phase that is refused, or a list that fails, holds the ring; a list beyond MEM_SIZE ends RANGE. R357: waiting phases start in the same way; R350, R357: at the end of the motion the axis is IDLE, and its job goes on, or completes after its last phase; a DWELL ends when its time has passed. R358, R360: STOP fails the job, which holds its ring; SKIP completes it and RETRY runs it again once its axes are IDLE; CLEAR leaves FAULT with the offset of the deviation fixed anew. R360: configuration is written while DISABLED or IDLE only, EN takes the axis between them. R356: a limit applies at once, but is deferred in TABLE and in a ramp whose stop it would make longer; PMIN and PMAX must hold the position and the target. -/
def Obligations.axis_jobs : Prop :=
  ∀ s : State,
    (∀ (d : Desc), s.takes d 0x20 (((List.range 6).map fun i => ([16, 17, 18, 20, 24].getD (i - 1) 16, decide (i = 0 ∨ phaseCheck ((d.bytes.drop 16).take 16) ≠ i))) ++ descReserved d 32 32) = true → s.auxJob s.host.nextAseq = none → s.aux.jobs.all (fun x => decide (x.ring ≠ d.ring)) = true → s.groupReady (s.auxOf d).phases = true → 
     Acts (.aux d) s fun t => s.started t s.host.nextAseq (s.auxOf d).phases = true ∧ TakenBy d s t ∧ (t.findJob s.host.nextAseq).isSome ∧ (∀ x ∈ s.aux.jobs, x ∈ t.aux.jobs)) ∧
    (∀ (d : Desc), s.takes d 0x20 (((List.range 6).map fun i => ([16, 17, 18, 20, 24].getD (i - 1) 16, decide (i = 0 ∨ phaseCheck ((d.bytes.drop 16).take 16) ≠ i))) ++ descReserved d 32 32) = true → s.auxJob s.host.nextAseq = none → s.aux.jobs.all (fun x => decide (x.ring ≠ d.ring)) = false ∨ (s.groupLocked (s.auxOf d).phases = false ∧ s.groupWaits (s.auxOf d).phases = true) → 
     Acts (.aux d) s fun t => t.aux = { s.aux with jobs := s.aux.jobs ++ [s.auxOf d] } ∧ TakenBy d s t ∧ (t.findJob s.host.nextAseq).isSome ∧ SameBut [.regs, .host, .aux, .hostMem, .obs, .time] s t) ∧
    (∀ (d : Desc), s.takes d 0x20 (((List.range 6).map fun i => ([16, 17, 18, 20, 24].getD (i - 1) 16, decide (i = 0 ∨ phaseCheck ((d.bytes.drop 16).take 16) ≠ i))) ++ descReserved d 32 32) = true → s.auxJob s.host.nextAseq = none → s.aux.jobs.all (fun x => decide (x.ring ≠ d.ring)) = true → s.groupLocked (s.auxOf d).phases = true → 
     Acts (.aux d) s fun t => t.aux = { s.aux with jobs := s.aux.jobs ++ [{ s.auxOf d with lockRaised := true }] } ∧ TakenBy d s t ∧ (t.findJob s.host.nextAseq).isSome) ∧
    (∀ (d : Desc) (p : AuxPhase) (f : Nat × List (Nat × Nat)), s.takes d 0x20 (((List.range 6).map fun i => ([16, 17, 18, 20, 24].getD (i - 1) 16, decide (i = 0 ∨ phaseCheck ((d.bytes.drop 16).take 16) ≠ i))) ++ descReserved d 32 32) = true → s.auxJob s.host.nextAseq = none → s.aux.jobs.all (fun x => decide (x.ring ≠ d.ring)) = true → (s.auxOf d).phases = [p] → s.groupLocked [p] = false ∧ s.groupWaits [p] = false → s.phaseFault p (s.phaseTable p) = some f → 
     Acts (.aux d) s fun t => (t.auxJob s.host.nextAseq).map (·.held) = some (some (2, f.1)) ∧ bitAt (t.get Reg.AUX_HOLD_STATUS_HELD) d.ring = true ∧ t.aux.axes = s.aux.axes ∧ TakenBy d s t ∧ (t.findJob s.host.nextAseq).isSome) ∧
    (∀ (d : Desc), s.takes d 0x21 ([(24, decide (1 ≤ d.field 24 1 ∧ d.field 24 1 ≤ 8)), (25, decide (d.field 25 1 < 2))] ++ descReserved d 26 2 ++ descReserved d 32 32) = true → (bitAt (d.field 25 1) 0 = true → s.dramRangeOk (d.field 16 8) (16 * d.field 24 1) = true) → listFault 0 [] (s.phaseEntries (d.field 16 8) (d.field 24 1) (bitAt (d.field 25 1) 0)) = none → s.auxJob s.host.nextAseq = none → s.aux.jobs.all (fun x => decide (x.ring ≠ d.ring)) = true → s.groupReady (s.recoatOf d).phases = true → 
     Acts (.recoat d) s fun t => s.started t s.host.nextAseq (s.recoatOf d).phases = true ∧ TakenBy d s t ∧ (t.findJob s.host.nextAseq).isSome ∧ (∀ x ∈ s.aux.jobs, x ∈ t.aux.jobs)) ∧
    (∀ (d : Desc), s.takes d 0x21 ([(24, decide (1 ≤ d.field 24 1 ∧ d.field 24 1 ≤ 8)), (25, decide (d.field 25 1 < 2))] ++ descReserved d 26 2 ++ descReserved d 32 32) = true → (bitAt (d.field 25 1) 0 = true → s.dramRangeOk (d.field 16 8) (16 * d.field 24 1) = true) → listFault 0 [] (s.phaseEntries (d.field 16 8) (d.field 24 1) (bitAt (d.field 25 1) 0)) = none → s.auxJob s.host.nextAseq = none → s.aux.jobs.all (fun x => decide (x.ring ≠ d.ring)) = false ∨ (s.groupLocked (s.recoatOf d).phases = false ∧ s.groupWaits (s.recoatOf d).phases = true) → 
     Acts (.recoat d) s fun t => t.aux = { s.aux with jobs := s.aux.jobs ++ [s.recoatOf d] } ∧ TakenBy d s t ∧ (t.findJob s.host.nextAseq).isSome ∧ SameBut [.regs, .host, .aux, .hostMem, .obs, .time] s t) ∧
    (∀ (d : Desc), s.takes d 0x21 ([(24, decide (1 ≤ d.field 24 1 ∧ d.field 24 1 ≤ 8)), (25, decide (d.field 25 1 < 2))] ++ descReserved d 26 2 ++ descReserved d 32 32) = true → (bitAt (d.field 25 1) 0 = true → s.dramRangeOk (d.field 16 8) (16 * d.field 24 1) = true) → listFault 0 [] (s.phaseEntries (d.field 16 8) (d.field 24 1) (bitAt (d.field 25 1) 0)) = none → s.auxJob s.host.nextAseq = none → s.aux.jobs.all (fun x => decide (x.ring ≠ d.ring)) = true → s.groupLocked (s.recoatOf d).phases = true → 
     Acts (.recoat d) s fun t => t.aux = { s.aux with jobs := s.aux.jobs ++ [{ s.recoatOf d with lockRaised := true }] } ∧ TakenBy d s t ∧ (t.findJob s.host.nextAseq).isSome) ∧
    (∀ (d : Desc) (f : Nat × Nat), s.takes d 0x21 ([(24, decide (1 ≤ d.field 24 1 ∧ d.field 24 1 ≤ 8)), (25, decide (d.field 25 1 < 2))] ++ descReserved d 26 2 ++ descReserved d 32 32) = true → s.auxJob s.host.nextAseq = none → (bitAt (d.field 25 1) 0 = true → s.dramRangeOk (d.field 16 8) (16 * d.field 24 1) = true) → listFault 0 [] (s.phaseEntries (d.field 16 8) (d.field 24 1) (bitAt (d.field 25 1) 0)) = some f → 
     Acts (.recoat d) s fun t => (t.auxJob s.host.nextAseq).map (fun x => (x.held, x.phases)) = some (some (2, 0x0C02), []) ∧ bitAt (t.get Reg.AUX_HOLD_STATUS_HELD) d.ring = true ∧ t.aux.axes.map (fun x => (x.x, x.v, x.a)) = s.aux.axes.map (fun x => (x.x, x.v, x.a)) ∧ TakenBy d s t ∧ (t.findJob s.host.nextAseq).isSome) ∧
    (∀ (d : Desc), s.takes d 0x21 ([(24, decide (1 ≤ d.field 24 1 ∧ d.field 24 1 ≤ 8)), (25, decide (d.field 25 1 < 2))] ++ descReserved d 26 2 ++ descReserved d 32 32) = true → bitAt (d.field 25 1) 0 = true → s.dramRangeOk (d.field 16 8) (16 * d.field 24 1) = false → d.field 8 8 < 2 ^ 64 - 64 → 
     Acts (.recoat d) s fun t => DoneAtOnce d 9 s t ∧ SameBut reports s t) ∧
    (∀ (aseq : Word) (j : AuxJob), s.auxJob aseq.toNat = some j → j.held = none → s.auxTurn j = true → s.groupReady j.phases = true → 
     Acts (.auxPhaseStart aseq) s fun t => s.started t aseq.toNat j.phases = true ∧ SameBut (.aux :: reports) s t) ∧
    (∀ (aseq : Word) (j : AuxJob), s.auxJob aseq.toNat = some j → j.held = none → s.auxTurn j = false ∨ (s.groupLocked j.phases = false ∧ s.groupWaits j.phases = true) ∨ (s.groupLocked j.phases = true ∧ j.lockRaised = true) → 
     Acts (.auxPhaseStart aseq) s fun t => t = s) ∧
    (∀ (aseq : Word) (j : AuxJob), s.auxJob aseq.toNat = some j → j.held = none → s.auxTurn j = true → s.groupLocked j.phases = true → j.lockRaised = false → 
     Acts (.auxPhaseStart aseq) s fun t => (t.auxJob aseq.toNat).map (·.lockRaised) = some true ∧ t.aux.axes = s.aux.axes ∧ SameBut (.aux :: reports) s t ∧ RegsBut [] s t) ∧
    (∀ (n : Fin 3) (a i : Nat) (j : AuxJob), s.axisAtEnd n = true → s.axisState n ≠ 5 → (s.axis n).job = some (a, i) → (s.axis n).deferred = [] → s.auxJob a = some j → ((listModify j.phases i fun p => { p with st := 2 }).all fun p => decide (p.st = 2)) = true → n.val < s.aux.axes.length → 
     Acts (.auxPhaseEnd n) s fun t => t.axisState n = 1 ∧ (t.aux.jobs = s.aux.jobs.filter fun x => decide (x.aseq ≠ a)) ∧ t.findJob a = none ∧ (t.axis n).idleAt = some s.tide ∧ (∀ k, k ≠ n.val → t.axis k = s.axis k)) ∧
    (∀ (n : Fin 3) (a i : Nat) (j : AuxJob), s.axisAtEnd n = true → s.axisState n ≠ 5 → (s.axis n).job = some (a, i) → (s.axis n).deferred = [] → s.auxJob a = some j → ((listModify j.phases i fun p => { p with st := 2 }).all fun p => decide (p.st = 2)) = false → n.val < s.aux.axes.length → 
     Acts (.auxPhaseEnd n) s fun t => t.axisState n = 1 ∧ t.auxJob a = some { j with phases := listModify j.phases i fun p => { p with st := 2 } } ∧ (t.axis n).idleAt = some s.tide ∧ (∀ k, k ≠ n.val → t.axis k = s.axis k) ∧ t.findJob a = s.findJob a) ∧
    (∀ (n : Fin 3), s.axisAtEnd n = true → s.axisState n = 5 → (s.axis n).deferred = [] → n.val < s.aux.axes.length → 
     Acts (.auxPhaseEnd n) s fun t => t.axisState n = 1 ∧ (t.axis n).job = none ∧ t.aux.jobs = s.aux.jobs ∧ (∀ k, k ≠ n.val → t.axis k = s.axis k)) ∧
    (∀ (aseq : Word) (j : AuxJob) (l : List AuxPhase), s.auxJob aseq.toNat = some j → (l = j.phases.map fun p => if p.kind = 5 ∧ p.st = 1 ∧ p.ends ≤ s.tide then { p with st := 2 } else p) → (l.all fun p => decide (p.st = 2)) = true → l ≠ j.phases → 
     Acts (.auxDwellEnd aseq) s fun t => (t.aux.jobs = s.aux.jobs.filter fun x => decide (x.aseq ≠ aseq.toNat)) ∧ t.findJob aseq.toNat = none ∧ t.aux.axes = s.aux.axes) ∧
    (∀ (aseq : Word) (j : AuxJob) (l : List AuxPhase), s.auxJob aseq.toNat = some j → (l = j.phases.map fun p => if p.kind = 5 ∧ p.st = 1 ∧ p.ends ≤ s.tide then { p with st := 2 } else p) → (l.all fun p => decide (p.st = 2)) = false → 
     Acts (.auxDwellEnd aseq) s fun t => t.auxJob aseq.toNat = some { j with phases := l } ∧ t.aux.axes = s.aux.axes ∧ SameBut (.aux :: reports) s t) ∧
    (∀ (n : Fin 3) (a i : Nat) (j : AuxJob), s.axisBusy n = true → (s.axis n).job = some (a, i) → s.auxJob a = some j → j.ring < 32 → n.val < s.aux.axes.length → s.domainOn 15 = true → 
     Acts (.auxStopCmd n) s fun t => t.axisState n = 5 ∧ (t.auxJob a).map (·.held) = some (some (11, 0x0C0C)) ∧ bitAt (t.get Reg.AUX_HOLD_STATUS_HELD) j.ring = true ∧ (t.axis n).job = none ∧ (t.axis n).x = (s.axis n).x ∧ (t.axis n).v = (s.axis n).v) ∧
    (∀ (n : Fin 3), s.axisBusy n = false → s.domainOn 15 = true → 
     Acts (.auxStopCmd n) s fun t => t = s) ∧
    (∀ (n : Fin 3), s.axisState n = 6 → n.val < s.aux.axes.length → s.domainOn 15 = true → 
     Acts (.auxClear n) s fun t => t.axisState n = 1 ∧ t.get (Reg.AUX_STATUS_FAULT_CAUSE n) = 0 ∧ t.axis n = { s.axis n with delta := s.encoder n - s.axisCount n } ∧ (∀ k, k ≠ n.val → t.axis k = s.axis k) ∧ SameBut [.regs, .aux] s t ∧ RegsBut [Reg.AUX_STATUS_STATE n, Reg.AUX_STATUS_FAULT_CAUSE n] s t) ∧
    (∀ (r : Fin 32) (j : AuxJob), s.holder r = some j → (j.phases.all fun p => decide (s.axisState p.axis = 1)) = false → s.domainOn 15 = true → 
     Acts (.auxHoldRetry r) s fun t => (t = s.modAuxJob j.aseq fun x => { x with retry := true })) ∧
    (∀ (r : Fin 32) (j : AuxJob), s.holder r = some j → s.auxJob j.aseq = some j → j.phases ≠ [] → s.auxTurn j = true → (j.phases.all fun p => decide (s.axisState p.axis = 1)) = true → s.groupReady j.phases = true → s.domainOn 15 = true → 
     Acts (.auxHoldRetry r) s fun t => s.started t j.aseq j.phases = true ∧ (t.auxJob j.aseq).map (·.held) = some none ∧ bitAt (t.get Reg.AUX_HOLD_STATUS_HELD) r = false) ∧
    (∀ (r : Fin 32) (j : AuxJob), s.holder r = some j → s.domainOn 15 = true → 
     Acts (.auxHoldSkip r) s fun t => (t.aux.jobs = s.aux.jobs.filter fun x => decide (x.aseq ≠ j.aseq)) ∧ t.findJob j.aseq = none ∧ bitAt (t.get Reg.AUX_HOLD_STATUS_HELD) r = false) ∧
    (∀ (d : Instr) (r : Fin 32), d = .auxHoldRetry r ∨ d = .auxHoldSkip r → s.holder r = none → s.domainOn 15 = true → 
     Acts d s fun t => t = s) ∧
    (∀ (off : BitVec 25) (wide : Bool) (v : BitVec 64) (n : Nat), axisOf off.toNat [0x30, 0x40, 0x44, 0x48, 0x4C] = some n → alignedAccess off.toNat wide = true → s.axisState n = flag (s.on (Reg.AUX_CFG_EN n)) → s.domainOn 15 = true → 
     Acts (.auxCfgWrite off wide v) s fun t => Wrote off.toNat wide v s t ∧ SameBut [.regs] s t) ∧
    (∀ (off : BitVec 25) (wide : Bool) (v : BitVec 64) (n : Nat), axisOf off.toNat [0] = some n → alignedAccess off.toNat wide = true → s.axisState n ≤ 1 → s.domainOn 15 = true → 
     Acts (.auxCfgWrite off wide v) s fun t => Wrote off.toNat wide v s t ∧ t.axisState n = flag (v.getLsbD 0)) ∧
    (∀ (off : BitVec 25) (wide : Bool) (v : BitVec 64) (n : Nat), axisOf off.toNat [0x30, 0x40, 0x44, 0x48, 0x4C] = some n → alignedAccess off.toNat wide = true → 1 < s.axisState n → (wide = true → off.toNat % 0x1000 ≠ 0x30) → 
     Acts (.auxCfgWrite off wide v) s fun t => Reported [] s t) ∧
    (∀ (off : BitVec 25) (wide : Bool) (v : BitVec 64) (n : Nat), axisOf off.toNat [0] = some n → wide = false → 1 < s.axisState n → 
     Acts (.auxCfgWrite off wide v) s fun t => Reported [] s t) ∧
    (∀ (off : BitVec 25) (wide : Bool) (v : BitVec 64) (n : Nat), axisOf off.toNat [0x04, 0x08, 0x0C] = some n → alignedAccess off.toNat wide = true → natMem (s.axisState n) [0, 1, 6] = true → s.domainOn 15 = true → 
     Acts (.auxLimitWrite off wide v) s fun t => Wrote off.toNat wide v s t ∧ SameBut [.regs, .aux] s t ∧ t.aux.jobs = s.aux.jobs ∧ (n < s.aux.axes.length → (t.axis n).x = (s.axis n).x ∧ (t.axis n).deferred.any (fun d => decide (d.1 = off.toNat)) = false)) ∧
    (∀ (off : BitVec 25) (wide : Bool) (v : BitVec 64) (n : Nat) (f : Field) (u : State), axisOf off.toNat [0x04, 0x08, 0x0C] = some n → alignedAccess off.toNat wide = true → wide = false → f = ⟨off.toNat, 0, 32⟩ → u = s.writeWord off.toNat (v.setWidth 32) → u.get f ≠ s.get f → s.axisState n = 3 ∨ (natMem (s.axisState n) [2, 4, 5] = true ∧ off.toNat % 0x1000 ≠ 4 ∧ (s.axis n).a ≠ 0 ∧ (s.axisLimits n).axisStop (s.axis n).v (s.axis n).a < (u.axisLimits n).axisStop (s.axis n).v (s.axis n).a) → s.domainOn 15 = true → 
     Acts (.auxLimitWrite off wide v) s fun t => t.get f = s.get f ∧ t.get (Reg.AUX_STATUS_DEFERRED n) = 1 ∧ (n < s.aux.axes.length → (t.axis n).deferred = ((s.axis n).deferred.filter fun d => decide (d.1 ≠ off.toNat)) ++ [(off.toNat, u.get f)]) ∧ SameBut (.aux :: reports) s t) ∧
    (∀ (off : BitVec 25) (wide : Bool) (v : BitVec 64) (n : Nat) (f : Field) (u : State), axisOf off.toNat [0x04, 0x08, 0x0C] = some n → alignedAccess off.toNat wide = true → wide = false → f = ⟨off.toNat, 0, 32⟩ → u = s.writeWord off.toNat (v.setWidth 32) → u.get f ≠ 0 → natMem (s.axisState n) [2, 4, 5] = true → off.toNat % 0x1000 = 4 ∨ (s.axis n).a = 0 ∨ (u.axisLimits n).axisStop (s.axis n).v (s.axis n).a ≤ (s.axisLimits n).axisStop (s.axis n).v (s.axis n).a → s.domainOn 15 = true → 
     Acts (.auxLimitWrite off wide v) s fun t => Wrote off.toNat wide v s t ∧ SameBut [.regs, .aux] s t ∧ t.aux.jobs = s.aux.jobs) ∧
    (∀ (off : BitVec 25) (wide : Bool) (v : BitVec 64) (n : Nat) (u : State), axisOf off.toNat [0x10, 0x14, 0x18, 0x1C] = some n → alignedAccess off.toNat wide = true → s.domainOn 15 = true → u = s.writeAny off.toNat wide v → s.get (Reg.AUX_POS_REF n) = 0 ∨ (u.getS (Reg.AUX_PMIN_POS n) ≤ s.axisCount n ∧ s.axisCount n ≤ u.getS (Reg.AUX_PMAX_POS n) ∧ (s.axisState n = 2 → u.getS (Reg.AUX_PMIN_POS n) ≤ (s.axis n).target ∧ (s.axis n).target ≤ u.getS (Reg.AUX_PMAX_POS n))) → 
     Acts (.auxLimitWrite off wide v) s fun t => t = u) ∧
    (∀ (off : BitVec 25) (wide : Bool) (v : BitVec 64) (n : Nat) (u : State), axisOf off.toNat [0x10, 0x14, 0x18, 0x1C] = some n → alignedAccess off.toNat wide = true → u = s.writeAny off.toNat wide v → s.get (Reg.AUX_POS_REF n) = 1 → s.axisCount n < u.getS (Reg.AUX_PMIN_POS n) ∨ u.getS (Reg.AUX_PMAX_POS n) < s.axisCount n → 
     Acts (.auxLimitWrite off wide v) s fun t => Reported [] s t)

/-- R367: training starts in bring-up or SLACK on an enabled port and passes ALIGN, once both receivers have adapted (R247), EQ, with eyes large enough (R249), DESKEW, LATENCY and TIME to READY; ALIGN and EQ have time limits; a failure shows its cause. R368: a marker gives the round trip less the slave's turn, eight of them the one-way delay. R369: TIME_SET sets the slave's head time to H + W_p. R379: the loss of one lane of a READY port leaves it READY on the other, that of both takes it DOWN, with a stop of CAUSE 16 in exposure. R371: an unacknowledged message is sent again, three times, and then the port is lost. R380, R366: the configuration is written in SLACK with no strip. -/
def Obligations.tide_link_training : Prop :=
  ∀ s : State,
    (∀ (p : Fin 3), s.portState p = 0 ∨ s.portState p = 7 → s.get Reg.EXP_STATE_STATE = 0 ∨ s.get Reg.EXP_STATE_STATE = 2 → s.portEnabled p = true → s.get Reg.LNS_STATUS_TIDE_LOCK = 1 → s.domainOn 15 = true → s.lanes.loop.any (fun l => decide ((l.1 - 256) / 2 = p.val ∧ 256 ≤ l.1)) = false → p.val < s.csc.ports.length → 
     Acts (.cscPortTrainStart p) s fun t => t.portState p = 1 ∧ t.get (Reg.CSC_PORT_CAUSE p) = 0 ∧ (t.port p).markers = [] ∧ (t.port p).unacked = [] ∧ (t.port p).enteredAt = s.tide ∧ (∀ k, k ≠ p.val → t.port k = s.port k) ∧ SameBut (.csc :: .lanes :: reports) s t) ∧
    (∀ (p : Fin 3) (lane0 lane1 : LaneTrain) (skew : Byte) (device : BitVec 2) (devices : BitVec 3) (spread : Bool), s.portState p = 1 → s.adapted (262 + 2 * p) lane0.seen = true ∧ s.adapted (263 + 2 * p) lane1.seen = true → p.val < s.csc.ports.length → 
     Acts (.cscTrainStepDone p ⟨lane0, lane1, skew⟩ device devices spread) s fun t => t.portState p = 2 ∧ t.get (Reg.CSC_PORT_LANES p) = 3 ∧ (t.port p).enteredAt = s.tide ∧ t.get (Reg.LNS_LANE_RX_ALIGNED (262 + 2 * p)) = 1 ∧ t.get (Reg.LNS_LANE_RX_ALIGNED (263 + 2 * p)) = 1 ∧ SameBut (.csc :: reports) s t) ∧
    (∀ (p : Fin 3) (lane0 lane1 : LaneTrain) (skew : Byte) (device : BitVec 2) (devices : BitVec 3) (spread : Bool), (s.portState p = 1 ∧ (s.adapted (262 + 2 * p) lane0.seen = false ∨ s.adapted (263 + 2 * p) lane1.seen = false)) ∨ (s.portState p = 2 ∧ (s.eyeOk lane0 = false ∨ s.eyeOk lane1 = false)) ∨ (s.portState p = 4 ∧ (s.isSlave = true ∨ (s.port p).markers.length < 8)) ∨ (s.portState p = 5 ∧ s.isSlave = false ∧ (s.port p).checks.length < 4) → 
     Acts (.cscTrainStepDone p ⟨lane0, lane1, skew⟩ device devices spread) s fun t => t = s) ∧
    (∀ (p : Fin 3) (lane0 lane1 : LaneTrain) (skew : Byte) (device : BitVec 2) (devices : BitVec 3) (spread : Bool), (s.portState p = 2 ∧ s.eyeOk lane0 = true ∧ s.eyeOk lane1 = true) ∨ (s.portState p = 3 ∧ skew.toNat ≤ 8) → 
     Acts (.cscTrainStepDone p ⟨lane0, lane1, skew⟩ device devices spread) s fun t => t.portState p = s.portState p + 1 ∧ SameBut (.csc :: reports) s t) ∧
    (∀ (p : Fin 3) (lane0 lane1 : LaneTrain) (skew : Byte) (device : BitVec 2) (devices : BitVec 3) (spread : Bool), s.portState p = 3 ∧ 8 < skew.toNat → 
     Acts (.cscTrainStepDone p ⟨lane0, lane1, skew⟩ device devices spread) s fun t => t.portState p = 7 ∧ t.get (Reg.CSC_PORT_CAUSE p) = 3 ∧ t.get (Reg.CSC_PORT_LANES p) = 0) ∧
    (∀ (p : Fin 3) (lane0 lane1 : LaneTrain) (skew : Byte) (device : BitVec 2) (devices : BitVec 3) (spread : Bool) (w : Int), s.portState p = 4 → s.isSlave = false → 8 ≤ (s.port p).markers.length → markerSpread (s.port p).markers = false → w = onewayOf (s.port p).markers (s.getS (Reg.CSC_SKEW_SKEW p)) → w ≤ 3600 → 
     Acts (.cscTrainStepDone p ⟨lane0, lane1, skew⟩ device devices spread) s fun t => t.portState p = 5 ∧ t.get (Reg.CSC_PORT_ONEWAY p) = wrapInt 16 w) ∧
    (∀ (p : Fin 3) (lane0 lane1 : LaneTrain) (skew : Byte) (device : BitVec 2) (devices : BitVec 3) (spread : Bool), s.portState p = 4 → s.isSlave = false → 8 ≤ (s.port p).markers.length → markerSpread (s.port p).markers = true ∨ 3600 < onewayOf (s.port p).markers (s.getS (Reg.CSC_SKEW_SKEW p)) → 
     Acts (.cscTrainStepDone p ⟨lane0, lane1, skew⟩ device devices spread) s fun t => t.portState p = 7 ∧ t.get (Reg.CSC_PORT_CAUSE p) = 4 ∧ t.get (Reg.CSC_PORT_LANES p) = 0) ∧
    (∀ (p : Fin 3) (lane0 lane1 : LaneTrain) (skew : Byte) (device : BitVec 2) (devices : BitVec 3) (spread : Bool), s.portState p = 5 → s.isSlave = true ∨ 4 ≤ (s.port p).checks.length → (s.port p).checks.all (fun x => decide (x.natAbs ≤ s.get Reg.CSC_LAT_TOL)) = true → spread = false → s.get Reg.LNS_REF_CTRL_SSC_APPLIED = 0 → p.val < s.csc.ports.length → 
     Acts (.cscTrainStepDone p ⟨lane0, lane1, skew⟩ device devices spread) s fun t => t.portState p = 6 ∧ (t.port p).peerDevice = device.toNat ∧ (t.port p).peerDevices = devices.toNat ∧ bitAt (t.get Reg.CSC_STATUS_READY) p = true) ∧
    (∀ (p : Fin 3) (lane0 lane1 : LaneTrain) (skew : Byte) (device : BitVec 2) (devices : BitVec 3) (spread : Bool), s.portState p = 5 → s.isSlave = true ∨ 4 ≤ (s.port p).checks.length → (s.port p).checks.any (fun x => decide (s.get Reg.CSC_LAT_TOL < x.natAbs)) = true ∨ spread = true ∨ s.get Reg.LNS_REF_CTRL_SSC_APPLIED ≠ 0 → 
     Acts (.cscTrainStepDone p ⟨lane0, lane1, skew⟩ device devices spread) s fun t => t.portState p = 7 ∧ t.get (Reg.CSC_PORT_CAUSE p) = 5 ∧ t.get (Reg.CSC_PORT_LANES p) = 0) ∧
    (∀ (p : Fin 3), (s.portState p = 1 ∧ s.tide < (s.port p).enteredAt + 4000000) ∨ (s.portState p = 2 ∧ s.tide < (s.port p).enteredAt + 20000000) ∨ 3 ≤ s.portState p → 
     Acts (.cscTrainTimeout p) s fun t => t = s) ∧
    (∀ (p : Fin 3), (s.portState p = 1 ∧ (s.port p).enteredAt + 4000000 ≤ s.tide) ∨ (s.portState p = 2 ∧ (s.port p).enteredAt + 20000000 ≤ s.tide) → 
     Acts (.cscTrainTimeout p) s fun t => t.portState p = 7 ∧ t.get (Reg.CSC_PORT_CAUSE p) = s.portState p) ∧
    (∀ (p : Fin 3) (dm am as ds : BitVec 64), s.isSlave = false → s.portState p = 4 → (s.port p).markers.length < 8 → p.val < s.csc.ports.length → 
     Acts (.latencyMarker p dm am as ds) s fun t => (t.port p) = { s.port p with markers := (s.port p).markers ++ [signedDiff 64 am.toNat dm.toNat - signedDiff 64 ds.toNat as.toNat] } ∧ (∀ k, k ≠ p.val → t.port k = s.port k) ∧ SameBut [.csc] s t) ∧
    (∀ (p : Fin 3) (dm am as ds : BitVec 64), s.isSlave = true → 
     Acts (.latencyMarker p dm am as ds) s fun t => t = s) ∧
    (∀ (h : BitVec 64) (w : BitVec 16), s.isSlave = true → s.portState 0 = 4 ∨ s.portState 0 = 5 → 
     Acts (.timeSetMessage h w) s fun t => t.headTime = (h.toNat + w.toNat) % 2 ^ 64 ∧ t.portState 0 = 5 ∧ t.tide = s.tide) ∧
    (∀ (p : Fin 3) (lane : Fin 2) (idle : Bool) (seen : RxSeen), s.get (Reg.LNS_LANE_RX_ALIGNED (262 + 2 * p + lane)) = 1 → idle = true ∨ 8 ≤ seen.errors.toNat → s.get (Reg.CSC_PORT_LANES p) = 3 → s.portState p = 6 → 
     Acts (.tlLaneLost p ⟨lane, idle, seen⟩) s fun t => t.get (Reg.CSC_PORT_LANES p) = (if lane = 0 then 2 else 1) ∧ t.get (Reg.LNS_LANE_RX_ALIGNED (262 + 2 * p + lane)) = 0 ∧ t.portState p = 6 ∧ SameBut reports s t) ∧
    (∀ (p : Fin 3) (lane : Fin 2) (idle : Bool) (seen : RxSeen), s.get (Reg.LNS_LANE_RX_ALIGNED (262 + 2 * p + lane)) = 1 → idle = true ∨ 8 ≤ seen.errors.toNat → s.get (Reg.CSC_PORT_LANES p) = (if lane = 0 then 1 else 2) → s.portState p = 6 → s.firing = false → s.get Reg.EXP_STATE_STATE ≠ 3 → 
     Acts (.tlLaneLost p ⟨lane, idle, seen⟩) s fun t => t.portState p = 0 ∧ t.get (Reg.CSC_PORT_LANES p) = 0 ∧ t.get (Reg.CSC_PORT_CAUSE p) = 6 ∧ bitAt (t.get Reg.CSC_STATUS_READY) p = false) ∧
    (∀ (p : Fin 3) (lane : Fin 2) (idle : Bool) (seen : RxSeen) (st : Strip), s.get (Reg.LNS_LANE_RX_ALIGNED (262 + 2 * p + lane)) = 1 → idle = true ∨ 8 ≤ seen.errors.toNat → s.get (Reg.CSC_PORT_LANES p) = (if lane = 0 then 1 else 2) → s.portState p = 6 → s.openStrip = some st → s.get Reg.EXP_STATE_STATE = 4 → s.seq.prompt = none → 
     Acts (.tlLaneLost p ⟨lane, idle, seen⟩) s fun t => t.portState p = 0 ∧ t.get Reg.EXP_STATE_STATE = 6 ∧ t.get Reg.EXP_BREAK_CAUSE = 16 ∧ t.get Reg.EXP_BREAK_KIND = 1) ∧
    (∀ (p : Fin 3) (lane : Fin 2) (idle : Bool) (seen : RxSeen), s.get (Reg.LNS_LANE_RX_ALIGNED (262 + 2 * p + lane)) = 0 ∨ (idle = false ∧ seen.errors.toNat < 8) → 
     Acts (.tlLaneLost p ⟨lane, idle, seen⟩) s fun t => t = s) ∧
    (∀ (p : Fin 3) (m : CscMsg) (r : List CscMsg), (s.port p).unacked = m :: r → s.portState p = 6 → m.resends < 3 → p.val < s.csc.ports.length → 
     Acts (.messageResend p) s fun t => (t.port p) = { s.port p with unacked := { m with resends := m.resends + 1 } :: r } ∧ SameBut (.csc :: reports) s t) ∧
    (∀ (p : Fin 3) (m : CscMsg) (r : List CscMsg), (s.port p).unacked = m :: r → s.portState p = 6 → 3 ≤ m.resends → s.firing = false → s.get Reg.EXP_STATE_STATE ≠ 3 → p.val < s.csc.ports.length → 
     Acts (.messageResend p) s fun t => t.portState p = 0 ∧ t.get (Reg.CSC_PORT_CAUSE p) = 6 ∧ (t.port p).unacked = []) ∧
    (∀ (off : BitVec 25) (v : Word), natMem off.toNat [0x00F00000, 0x00F00020, 0x00F00024, 0x00F00028] = true → s.domainOn 15 = true → s.get Reg.EXP_STATE_STATE = 2 → s.box.strips = [] → 
     Acts (.cscConfigWrite off v) s fun t => Wrote off.toNat false (v.setWidth 64) s t ∧ SameBut [.regs] s t) ∧
    (∀ (off : BitVec 25) (v : Word), natMem off.toNat [0x00F00000, 0x00F00020, 0x00F00024, 0x00F00028] = true → s.domainOn 15 = true → s.get Reg.EXP_STATE_STATE ≠ 2 → 
     Acts (.cscConfigWrite off v) s fun t => Reported [] s t)

/-- R371: an acknowledged message is answered with ACK, and acts once for its SEQ; on a port that is not READY no message acts. R375: a TICK names the next tick of the slave, a gap in them is a hardware stop with CAUSE 16, as is their absence beyond P + 1 µs. R374: CTRL arms, pairs and ends the slave's strip, STATUS tells the master of its slave. R376: PLAN and RATE. R377: a STOP of another device is taken at its t_B. R373: a halo row is kept for the strip that it names. A TICK of a running strip emits the tick that it names. That a row for a strip not posted is discarded is the model's choice (log entry 49). -/
def Obligations.tide_link_messages : Prop :=
  ∀ s : State,
    (∀ (d : Instr) (m : LinkMsg) (typ : Nat), ((typ = 4 ∧ ∃ r rate cause, d = .planMessage m r rate cause) ∨ (typ = 5 ∧ ∃ cause kind tB origin, d = .stopMessage m cause kind tB origin) ∨ (typ = 6 ∧ ∃ c, d = .ctrlMessage m c) ∨ (typ = 8 ∧ ∃ r rate cause, d = .rateMessage m r rate cause) ∨ (typ = 9 ∧ ∃ device strip row side values, d = .haloMessage m device strip row side values)) → s.portState m.port = 6 → (s.port m.port).lastSeq.getD typ none = some m.seq.toNat → m.port.val < s.csc.ports.length → 
     Acts d s fun t => t.csc = (s.send m.port 10 [typ, m.seq.toNat]).csc ∧ SameBut (.csc :: reports) s t ∧ RegsBut [⟨cntCsc 0, 0, 64⟩] s t) ∧
    (∀ (m : LinkMsg) (index : BitVec 48) (q h : BitVec 64) (p : Word) (state : Fin 8) (faults : List FrameFault), s.portState m.port = 6 → s.isSlave = true → s.openStrip = none → 
     Acts (.tickMessage m index q h p state faults) s fun t => t.csc = { s.csc with lastIndex := some index.toNat, lastPeriod := p.toNat, tickAt := s.tide } ∧ SameBut (.csc :: reports) s t) ∧
    (∀ (m : LinkMsg) (index : BitVec 48) (q h : BitVec 64) (p : Word) (state : Fin 8) (faults : List FrameFault) (st : Strip) (i : Nat), s.portState m.port = 6 → s.isSlave = true → s.openStrip = some st → s.get Reg.TID_TICK_STATE = 3 → s.seq.prompt = none → s.csc.lastIndex = some i → index.toNat ≠ (i + 1) % 2 ^ 48 → s.get Reg.EXP_STATE_STATE = 4 → 
     Acts (.tickMessage m index q h p state faults) s fun t => t.csc.lastIndex = some index.toNat ∧ t.get Reg.TID_TICK_INDEX = s.get Reg.TID_TICK_INDEX ∧ t.get Reg.EXP_STATE_STATE = 6 ∧ t.get Reg.EXP_BREAK_CAUSE = 16 ∧ t.get Reg.EXP_BREAK_KIND = 1) ∧
    (∀ (m : LinkMsg) (index : BitVec 48) (q h : BitVec 64) (p : Word) (state : Fin 8) (faults : List FrameFault) (st : Strip), s.portState m.port = 6 → s.isSlave = true → s.openStrip = some st → s.get Reg.TID_TICK_STATE = 2 ∨ s.get Reg.TID_TICK_STATE = 3 → s.seq.prompt = none → (s.get Reg.TID_TICK_STATE = 3 → s.csc.lastIndex.all (fun i => decide (index.toNat = (i + 1) % 2 ^ 48)) = true) → 
     Acts (.tickMessage m index q h p state faults) s fun t => t.csc.lastIndex = some index.toNat ∧ t.csc.lastPeriod = p.toNat ∧ t.csc.tickAt = s.tide ∧ t.get Reg.TID_TICK_INDEX = tickIndex (s.ledgerAt st.slot).tS q.toInt) ∧
    (∀ (m : LinkMsg) (head : BitVec 64) (count : BitVec 40) (setpoint : BitVec 64), s.portState m.port = 6 → s.isSlave = true → 
     Acts (.sampleMessage m head count setpoint) s fun t => t.csc = { s.csc with sample := some ((head.toNat : Int), (count.toNat : Int), setpoint.toInt) } ∧ SameBut (.csc :: reports) s t) ∧
    (∀ (m : LinkMsg) (r : Word) (rate : BitVec 24) (cause : Byte), s.portState m.port = 6 → (s.port m.port).lastSeq.getD 4 none ≠ some m.seq.toNat → s.isSlave = true → 
     Acts (.planMessage m r rate cause) s fun t => t.csc.planRates = (s.csc.planRates.filter fun x => decide (x.1 ≠ r.toInt)) ++ [(r.toInt, rate.toNat, cause.toNat)] ∧ SameBut (.csc :: reports) s t) ∧
    (∀ (m : LinkMsg) (cause : Byte) (kind : Fin 4) (tB : BitVec 64) (origin : BitVec 2), s.portState m.port = 6 → (s.port m.port).lastSeq.getD 5 none ≠ some m.seq.toNat → s.isSlave = true → s.openStrip = none → origin.toNat = s.get Reg.CSC_CFG_DEVICE → 
     Acts (.stopMessage m cause kind tB origin) s fun t => SameBut (.csc :: reports) s t) ∧
    (∀ (m : LinkMsg) (cause : Byte) (kind : Fin 4) (tB : BitVec 64) (origin : BitVec 2) (st : Strip), s.portState m.port = 6 → (s.port m.port).lastSeq.getD 5 none ≠ some m.seq.toNat → s.isSlave = true → s.openStrip = some st → s.firing = true → s.seq.prompt = none → kind = 2 → origin.toNat ≠ s.get Reg.CSC_CFG_DEVICE → hostCause cause.toNat = false → 
     Acts (.stopMessage m cause kind tB origin) s fun t => t.seq.prompt = some ⟨tB.toInt, 16, 2, origin.toNat⟩ ∧ t.seq.relayed = some ⟨tB.toInt, cause.toNat, 2, origin.toNat⟩ ∧ t.get Reg.EXP_STATE_STATE = s.get Reg.EXP_STATE_STATE) ∧
    (∀ (m : LinkMsg) (ta : BitVec 64) (tS : BitVec 48) (st : Strip), s.portState m.port = 6 → (s.port m.port).lastSeq.getD 6 none ≠ some m.seq.toNat → s.isSlave = true → s.openStrip = some st → st.slot < s.store.ledger.length → 
     Acts (.ctrlMessage m (.arming ta tS)) s fun t => t.tid.armedAt = some ta.toInt ∧ t.tid.emitted = none ∧ t.tid.committed = [] ∧ (t.ledgerAt st.slot).tS = tS.toNat ∧ t.get Reg.TID_TICK_STATE = 2 ∧ t.csc.lastIndex = none) ∧
    (∀ (m : LinkMsg) (field : Byte) (device : BitVec 2) (st : Strip), s.portState m.port = 6 → (s.port m.port).lastSeq.getD 6 none ≠ some m.seq.toNat → s.isSlave = true → (s.box.strips.find? fun st => !st.isOpen) = some st → 
     Acts (.ctrlMessage m (.unpaired field device)) s fun t => t.stripAt st.slot = none ∧ t.findJob st.aseq = none) ∧
    (∀ (m : LinkMsg) (c : CascadeCtrl), s.portState m.port = 6 → (s.port m.port).lastSeq.getD 6 none ≠ some m.seq.toNat → s.isSlave = false → 
     Acts (.ctrlMessage m c) s fun t => SameBut (.csc :: reports) s t ∧ RegsBut [⟨cntCsc 0, 0, 64⟩] s t) ∧
    (∀ (m : LinkMsg) (l : Byte), s.portState m.port = 6 → (s.port m.port).lastSeq.getD 6 none ≠ some m.seq.toNat → s.isSlave = true → s.box.strips = [] → 
     Acts (.ctrlMessage m (.latency l)) s fun t => t.get Reg.CSC_STATUS_LFIX = l.toNat ∧ t.box = s.box) ∧
    (∀ (m : LinkMsg) (ta te : BitVec 64) (st : Strip), s.portState m.port = 6 → (s.port m.port).lastSeq.getD 6 none ≠ some m.seq.toNat → s.isSlave = true → s.openStrip = none → s.box.strips.head? = some st → 
     Acts (.ctrlMessage m (.flood ta te false)) s fun t => t.get Reg.EXP_STATE_STATE = 3 ∧ t.get Reg.EXP_STATE_OPEN = 1 ∧ t.seq.ta = ta.toInt ∧ t.seq.resuming = false) ∧
    (∀ (m : LinkMsg) (st : Strip), s.portState m.port = 6 → (s.port m.port).lastSeq.getD 6 none ≠ some m.seq.toNat → s.isSlave = true → s.openStrip = some st → s.get Reg.EXP_STATE_STATE = 3 → 
     Acts (.ctrlMessage m (.state 5)) s fun t => t.get Reg.EXP_STATE_STATE = 5 ∧ t.seq.afterFlood = some .retry) ∧
    (∀ (m : LinkMsg) (st : Strip), s.portState m.port = 6 → (s.port m.port).lastSeq.getD 6 none ≠ some m.seq.toNat → s.isSlave = true → s.openStrip = some st → 3 ≤ s.get Reg.EXP_STATE_STATE → 
     Acts (.ctrlMessage m .over) s fun t => t.seq.endJobs ≠ [] ∧ t.get Reg.EXP_STATE_STATE = s.get Reg.EXP_STATE_STATE ∧ t.box = s.box) ∧
    (∀ (m : LinkMsg) (lead : Word) (wait : BitVec 15) (temp : BitVec 16) (span : List (BitVec 64)) (pairing : List Word), s.portState m.port = 6 → s.isSlave = false → s.openStrip = none → m.port.val < s.csc.ports.length → 
     Acts (.statusMessage m lead wait temp span pairing) s fun t => t.port m.port = { s.port m.port with peerLead := if lead = BitVec.allOnes 32 then none else some lead.toNat, peerWait := wait.toNat, peerTemp := temp.toInt, peerTa := (span[0]?).map BitVec.toInt, peerTe := (span[1]?).map BitVec.toInt, peerPairing := pairing.map BitVec.toInt } ∧ SameBut (.csc :: reports) s t) ∧
    (∀ (m : LinkMsg) (r : Word) (rate : BitVec 24) (cause : Byte), s.portState m.port = 6 → (s.port m.port).lastSeq.getD 8 none ≠ some m.seq.toNat → s.box.strips = [] → cause.toNat ≠ 5 → m.port.val < s.csc.ports.length → 
     Acts (.rateMessage m r rate cause) s fun t => (t.port m.port).rates = ((s.port m.port).rates.filter fun x => decide (x.1 ≠ r.toInt)) ++ [(r.toInt, rate.toNat, cause.toNat)] ∧ RegsBut [⟨cntCsc 0, 0, 64⟩] s t) ∧
    (∀ (m : LinkMsg) (device : BitVec 2) (stripId row : Word) (side : Fin 2) (values : List Byte) (st : Strip), s.portState m.port = 6 → (s.port m.port).lastSeq.getD 9 none ≠ some m.seq.toNat → ((device.toNat : Int) + (if side = 0 then -1 else 1)) = s.get Reg.CSC_CFG_DEVICE → (s.box.strips.find? fun x => decide (x.stripId = stripId.toNat)) = some st → s.stripAt st.slot = some st → st.halo.any (fun h => decide (h.1 = 1 - side.val ∧ h.2.1 = row.toNat)) = false → 
     Acts (.haloMessage m device stripId row side values) s fun t => (t.stripAt st.slot).map (·.halo) = some (st.halo ++ [(1 - side.val, row.toNat, values.map BitVec.toNat)]) ∧ RegsBut [⟨cntCsc 0, 0, 64⟩, ⟨cntCsc 3, 0, 64⟩, ⟨cntCal 4, 0, 64⟩] s t) ∧
    (∀ (m : LinkMsg) (device : BitVec 2) (stripId row : Word) (side : Fin 2) (values : List Byte), s.portState m.port = 6 → (s.port m.port).lastSeq.getD 9 none ≠ some m.seq.toNat → ((device.toNat : Int) + (if side = 0 then -1 else 1)) = s.get Reg.CSC_CFG_DEVICE → (s.box.strips.find? fun x => decide (x.stripId = stripId.toNat)) = none → 
     Acts (.haloMessage m device stripId row side values) s fun t => t.box = s.box ∧ SameBut (.csc :: reports) s t) ∧
    (∀ (m : LinkMsg) (device : BitVec 2) (stripId row : Word) (side : Fin 2) (values : List Byte) (target : Int), s.portState m.port = 6 → (s.port m.port).lastSeq.getD 9 none ≠ some m.seq.toNat → s.isSlave = false → target = (device.toNat : Int) + (if side = 0 then -1 else 1) → target ≠ s.get Reg.CSC_CFG_DEVICE → (s.readyPorts.find? fun p => decide (((s.port p).peerDevice : Int) = target)) = none → 
     Acts (.haloMessage m device stripId row side values) s fun t => t.csc.haloWaits = s.csc.haloWaits ++ [(target.toNat, [(stripId.toNat : Int), row.toNat, side.val] ++ values.map fun x => (x.toNat : Int))] ∧ SameBut (.csc :: reports) s t) ∧
    (∀ (m : LinkMsg) (typ seq : Byte), s.portState m.port = 6 → m.port.val < s.csc.ports.length → 
     Acts (.ackMessage m typ seq) s fun t => (t.port m.port) = { s.port m.port with unacked := (s.port m.port).unacked.filter fun x => decide (¬ (x.typ = typ.toNat ∧ x.seq = seq.toNat)) } ∧ SameBut (.csc :: reports) s t) ∧
    (∀ (d : Instr) (m : LinkMsg), ((∃ index q h p state faults, d = .tickMessage m index q h p state faults) ∨ (∃ head count setpoint, d = .sampleMessage m head count setpoint) ∨ (∃ head stamp epoch, d = .timeMessage m head stamp epoch) ∨ (∃ r rate cause, d = .planMessage m r rate cause) ∨ (∃ cause kind tB origin, d = .stopMessage m cause kind tB origin) ∨ (∃ c, d = .ctrlMessage m c) ∨ (∃ lead wait temp span pairing, d = .statusMessage m lead wait temp span pairing) ∨ (∃ r rate cause, d = .rateMessage m r rate cause) ∨ (∃ device strip row side values, d = .haloMessage m device strip row side values) ∨ (∃ typ seq, d = .ackMessage m typ seq)) → s.portState m.port ≠ 6 → 
     Acts d s fun t => t = s) ∧
    (∀ (i : Nat) (st : Strip), s.csc.lastIndex = some i → s.isSlave = true → s.get Reg.TID_TICK_STATE = 3 → s.csc.tickAt + (s.csc.lastPeriod + 24) / 25 + 400 ≤ s.tide → s.openStrip = some st → s.get Reg.EXP_STATE_STATE = 4 → 
     Acts .tickGapTimeout s fun t => t.get Reg.EXP_STATE_STATE = 6 ∧ t.get Reg.EXP_BREAK_CAUSE = 16 ∧ t.get Reg.EXP_BREAK_KIND = 1)

/-- R388, R392: a read or write of a burst takes its place; without a place it waits; beyond MEM_SIZE it goes nowhere. R389, R393: the pick serves the ready request, with a column command on the open row (a write then stores its bytes), an activate where no row is open, a precharge where another is; a due refresh goes first, and none is issued while a refresh lasts. R391: a request older than eight times its target is counted. R395, R396: tREFI passes: a native refresh, or one more owed; the owed ones are issued together when the channel is idle. R397, R398: a hot device halves the interval, two polls without one restore it. R406: MODE 0 issues what is owed. -/
def Obligations.dram_requests_and_refresh : Prop :=
  ∀ s : State,
    (∀ (port : Fin 8) (addr : BitVec 64) (data : List Byte) (poison : Bool) (deadline : BitVec 64), s.get Reg.MEM_STATUS_READY = 1 → addr.toNat / 64 * 64 + 64 ≤ s.memBytes → s.mem.waiting = [] → s.placeFree ⟨port, addr.toNat / 64, 0, none, false, s.tide, deadline.toNat, false⟩ = true → 
     Acts (.dramRequest port addr false data poison deadline) s fun t => t.mem = { s.mem with queue := s.mem.queue ++ [⟨port, addr.toNat / 64, 0, none, false, s.tide, deadline.toNat, false⟩] } ∧ SameBut [.mem] s t) ∧
    (∀ (port : Fin 8) (addr : BitVec 64) (data : List Byte) (poison : Bool) (deadline : BitVec 64), s.get Reg.MEM_STATUS_READY = 1 → addr.toNat % 64 + data.length ≤ 64 → addr.toNat + data.length ≤ s.memBytes → s.mem.waiting = [] → s.placeFree ⟨port, addr.toNat / 64, addr.toNat % 64, some data, poison, s.tide, deadline.toNat, false⟩ = true → 
     Acts (.dramRequest port addr true data poison deadline) s fun t => t.mem = { s.mem with queue := s.mem.queue ++ [⟨port, addr.toNat / 64, addr.toNat % 64, some data, poison, s.tide, deadline.toNat, false⟩] } ∧ SameBut [.mem] s t) ∧
    (∀ (port : Fin 8) (addr : BitVec 64) (data : List Byte) (poison : Bool) (deadline : BitVec 64), s.get Reg.MEM_STATUS_READY = 1 → s.memBytes < addr.toNat / 64 * 64 + 64 → 
     Acts (.dramRequest port addr false data poison deadline) s fun t => Reported [] s t) ∧
    (∀ (port : Fin 8) (addr : BitVec 64) (data : List Byte) (poison : Bool) (deadline : BitVec 64), s.get Reg.MEM_STATUS_READY = 1 → s.memBytes < addr.toNat + data.length → 
     Acts (.dramRequest port addr true data poison deadline) s fun t => Reported [] s t) ∧
    (∀ (port : Fin 8) (addr : BitVec 64) (write : Bool) (data : List Byte) (poison : Bool) (deadline : BitVec 64) (r : MemReq), s.get Reg.MEM_STATUS_READY = 1 → write = false → addr.toNat / 64 * 64 + 64 ≤ s.memBytes → s.mem.waiting = [] → r = ⟨port, addr.toNat / 64, 0, none, false, s.tide, deadline.toNat, false⟩ → s.placeFree r = false → 
     Acts (.dramRequest port addr write data poison deadline) s fun t => t.mem = { s.mem with waiting := [r] } ∧ SameBut [.mem] s t) ∧
    (∀ (port : Fin 8) (addr : BitVec 64) (write : Bool) (data : List Byte) (poison : Bool) (deadline : BitVec 64), s.get Reg.MEM_STATUS_READY = 0 → 
     Acts (.dramRequest port addr write data poison deadline) s fun t => t = s) ∧
    (∀ (ch : Fin 6) (sub : Fin 2) (ready : List Nat) (r : MemReq) (row hits : Nat), s.get Reg.MEM_STATUS_READY = 1 → (s.memCh ch).busyUntil ≤ s.tide → s.refreshWaits ch = false → s.mem.queue = [r] → s.mem.flight = [] ∧ s.mem.waiting = [] → ready = [0] → s.reqSub r = 2 * ch.val + sub.val → r.data = none → r.feed = true ∨ s.draining (s.reqSub r) = false → (s.subChannel (s.reqSub r)).openRow (s.bankRow r).1 = some (row, hits) → row = (s.bankRow r).2 → s.reqSub r < s.mem.subs.length → 
     Acts (.dramPick ch sub ready) s fun t => t.mem.flight = [r] ∧ t.mem.queue = [] ∧ (t.subChannel (s.reqSub r)).openRow (s.bankRow r).1 = some (row, hits + 1) ∧ SameBut [.mem] s t) ∧
    (∀ (ch : Fin 6) (sub : Fin 2) (ready : List Nat) (r : MemReq) (d : List Byte) (row hits : Nat), s.get Reg.MEM_STATUS_READY = 1 → (s.memCh ch).busyUntil ≤ s.tide → s.refreshWaits ch = false → s.mem.queue = [r] → s.mem.flight = [] ∧ s.mem.waiting = [] → ready = [0] → s.reqSub r = 2 * ch.val + sub.val → r.data = some d → r.poison = false → r.first + d.length ≤ 64 → (s.subChannel (s.reqSub r)).openRow (s.bankRow r).1 = some (row, hits) → row = (s.bankRow r).2 → s.reqSub r < s.mem.subs.length → 
     Acts (.dramPick ch sub ready) s fun t => t.mem.queue = [] ∧ t.dram.readBytes (64 * r.burst + r.first) d.length = d ∧ (∀ a, a < 64 * r.burst + r.first ∨ 64 * r.burst + r.first + d.length ≤ a → t.dram.read a = s.dram.read a)) ∧
    (∀ (ch : Fin 6) (sub : Fin 2) (ready : List Nat) (r : MemReq), s.get Reg.MEM_STATUS_READY = 1 → (s.memCh ch).busyUntil ≤ s.tide → s.refreshWaits ch = false → s.mem.queue = [r] → s.mem.flight = [] → ready = [0] → s.reqSub r = 2 * ch.val + sub.val → r.data ≠ none ∨ r.feed = true ∨ s.draining (s.reqSub r) = false → (s.subChannel (s.reqSub r)).openRow (s.bankRow r).1 = none → s.reqSub r < s.mem.subs.length → 
     Acts (.dramPick ch sub ready) s fun t => t.mem.queue = [r] ∧ t.mem.flight = [] ∧ (t.subChannel (s.reqSub r)).openRow (s.bankRow r).1 = some ((s.bankRow r).2, 0) ∧ t.dram = s.dram) ∧
    (∀ (ch : Fin 6) (sub : Fin 2) (ready : List Nat), s.get Reg.MEM_STATUS_READY = 1 → (s.memCh ch).busyUntil ≤ s.tide → s.refreshWaits ch = false → ready = [] → 
     Acts (.dramPick ch sub ready) s fun t => t.mem.queue = s.mem.queue ∧ t.mem.flight = s.mem.flight ∧ t.dram = s.dram ∧ SameBut [.mem] s t) ∧
    (∀ (ch : Fin 6) (sub : Fin 2) (ready : List Nat) (r : MemReq) (row hits : Nat), s.get Reg.MEM_STATUS_READY = 1 → (s.memCh ch).busyUntil ≤ s.tide → s.refreshWaits ch = false → s.mem.queue = [r] → s.mem.flight = [] → ready = [0] → s.reqSub r = 2 * ch.val + sub.val → r.data ≠ none ∨ r.feed = true ∨ s.draining (s.reqSub r) = false → (s.subChannel (s.reqSub r)).openRow (s.bankRow r).1 = some (row, hits) → row ≠ (s.bankRow r).2 → s.reqSub r < s.mem.subs.length → 
     Acts (.dramPick ch sub ready) s fun t => t.mem.queue = [r] ∧ t.mem.flight = [] ∧ (t.subChannel (s.reqSub r)).openRow (s.bankRow r).1 = none ∧ t.dram = s.dram ∧ SameBut [.mem] s t) ∧
    (∀ (ch : Fin 6) (sub : Fin 2) (ready : List Nat), s.get Reg.MEM_STATUS_READY = 0 ∨ s.tide < (s.memCh ch).busyUntil → 
     Acts (.dramPick ch sub ready) s fun t => t = s) ∧
    (∀ (ch : Fin 6) (sub : Fin 2) (ready : List Nat), s.get Reg.MEM_STATUS_READY = 1 → (s.memCh ch).busyUntil ≤ s.tide → s.refreshWaits ch = true → s.get Reg.MEM_REF_MODE = 0 → ch.val < s.mem.channels.length → 
     Acts (.dramPick ch sub ready) s fun t => (t.memCh ch).refreshed = true ∧ (t.memCh ch).busyUntil = s.tide + s.refreshClocks ∧ t.mem.queue = s.mem.queue ∧ t.mem.flight = s.mem.flight ∧ t.dram = s.dram ∧ SameBut (.mem :: reports) s t) ∧
    (∀ (n : Nat) (r : MemReq), s.mem.queue[n]? = some r → r.feed = true ∨ r.aged = true ∨ 10 * (s.tide - r.at') / 4 ≤ 8 * s.get (Reg.MEM_PORT_TGT_NS r.port) → 
     Acts (.requestAged n) s fun t => t = s) ∧
    (∀ (n : Nat) (r : MemReq), s.mem.queue[n]? = some r → r.feed = false → r.aged = false → 8 * s.get (Reg.MEM_PORT_TGT_NS r.port) < 10 * (s.tide - r.at') / 4 → s.mem.lateAt.getD r.port none = none → r.port < s.mem.lateAt.length → 
     Acts (.requestAged n) s fun t => t.mem = { s.mem with lateAt := listSet s.mem.lateAt r.port (some s.tide), queue := s.mem.queue.set n { r with aged := true } } ∧ SameBut (.mem :: reports) s t ∧ RegsBut [⟨cntMem (s.reqSub r / 2) 6, 0, 64⟩] s t) ∧
    (∀ (n : Nat) (r : MemReq) (at' : Nat), s.mem.queue[n]? = some r → r.feed = false → r.aged = false → 8 * s.get (Reg.MEM_PORT_TGT_NS r.port) < 10 * (s.tide - r.at') / 4 → s.mem.lateAt.getD r.port none = some at' → s.tide - at' < 400000000 → 
     Acts (.requestAged n) s fun t => t.mem = { s.mem with queue := s.mem.queue.set n { r with aged := true } } ∧ SameBut (.mem :: reports) s t ∧ RegsBut [⟨cntMem (s.reqSub r / 2) 6, 0, 64⟩] s t) ∧
    (∀ (n : Nat), s.mem.queue[n]? = none → 
     Acts (.requestAged n) s fun t => t = s) ∧
    (∀ (ch : Fin 6), s.get Reg.MEM_STATUS_READY = 1 → (s.memCh ch).nextRef ≤ s.tide → s.get Reg.MEM_REF_MODE = 0 → ch.val < s.mem.channels.length → 
     Acts (.refreshDue ch) s fun t => t.memCh ch = { s.memCh ch with nextRef := (s.memCh ch).nextRef + s.refreshInterval ch, refreshed := true, busyUntil := s.tide + s.refreshClocks } ∧ (2 * ch.val + 1 < s.mem.subs.length → (t.subChannel (2 * ch)).rows = [] ∧ (t.subChannel (2 * ch + 1)).rows = []) ∧ SameBut (.mem :: reports) s t ∧ t.mem.queue = s.mem.queue) ∧
    (∀ (ch : Fin 6), s.get Reg.MEM_STATUS_READY = 1 → (s.memCh ch).nextRef ≤ s.tide → s.get Reg.MEM_REF_MODE = 1 → (s.memCh ch).owed + 1 < s.postponeLimit ch → ch.val < s.mem.channels.length → 
     Acts (.refreshDue ch) s fun t => t.memCh ch = { s.memCh ch with nextRef := (s.memCh ch).nextRef + s.refreshInterval ch, owed := (s.memCh ch).owed + 1 } ∧ SameBut [.mem] s t ∧ t.mem.queue = s.mem.queue ∧ t.mem.subs = s.mem.subs) ∧
    (∀ (ch : Fin 6), s.get Reg.MEM_STATUS_READY = 1 → (s.memCh ch).nextRef ≤ s.tide → s.get Reg.MEM_REF_MODE = 1 → s.postponeLimit ch ≤ (s.memCh ch).owed + 1 → ch.val < s.mem.channels.length → 
     Acts (.refreshDue ch) s fun t => t.memCh ch = { s.memCh ch with nextRef := (s.memCh ch).nextRef + s.refreshInterval ch, owed := 0, refreshed := true, busyUntil := s.tide + ((s.memCh ch).owed + 1) * s.refreshClocks } ∧ SameBut (.mem :: reports) s t ∧ t.mem.queue = s.mem.queue) ∧
    (∀ (ch : Fin 6), s.refreshWaits ch = false → 
     Acts (.refreshDue ch) s fun t => t = s) ∧
    (∀ (ch : Fin 6), 0 < (s.memCh ch).owed → s.postponeLimit ch ≤ (s.memCh ch).owed ∨ s.channelIdle ch = true → ch.val < s.mem.channels.length → 
     Acts (.refreshBurst ch) s fun t => t.memCh ch = { s.memCh ch with owed := 0, refreshed := true, busyUntil := s.tide + (s.memCh ch).owed * s.refreshClocks } ∧ SameBut (.mem :: reports) s t ∧ t.mem.queue = s.mem.queue) ∧
    (∀ (ch : Fin 6), (s.memCh ch).owed = 0 ∨ ((s.memCh ch).owed < s.postponeLimit ch ∧ s.channelIdle ch = false) → 
     Acts (.refreshBurst ch) s fun t => t = s) ∧
    (∀ (ch : Fin 6) (hot : Bool) (device : Byte), s.get Reg.MEM_STATUS_READY = 1 → hot = true → bitAt (s.get Reg.MEM_STATUS_HOT) ch = false → ch.val < s.mem.channels.length → 
     Acts (.memThermPoll ch hot device) s fun t => bitAt (t.get Reg.MEM_STATUS_HOT) ch = true ∧ (∀ k : Fin 6, k ≠ ch → bitAt (t.get Reg.MEM_STATUS_HOT) k = bitAt (s.get Reg.MEM_STATUS_HOT) k) ∧ t.refreshInterval ch = 780 ∧ (t.memCh ch).cool = 0 ∧ (t.memCh ch).owed = (if s.get Reg.MEM_REF_MODE = 1 then 0 else (s.memCh ch).owed) ∧ SameBut (.mem :: reports) s t ∧ RegsBut [Reg.MEM_STATUS_HOT, ⟨cntMem ch 3, 0, 64⟩, ⟨cntMem ch 4, 0, 64⟩] s t) ∧
    (∀ (ch : Fin 6) (hot : Bool) (device : Byte), s.get Reg.MEM_STATUS_READY = 1 → bitAt (s.get Reg.MEM_STATUS_HOT) ch = true → hot = true ∨ (s.memCh ch).cool = 0 → ch.val < s.mem.channels.length → 
     Acts (.memThermPoll ch hot device) s fun t => t.memCh ch = { s.memCh ch with cool := (if hot = true then 0 else 1) } ∧ SameBut [.mem] s t) ∧
    (∀ (ch : Fin 6) (hot : Bool) (device : Byte), s.get Reg.MEM_STATUS_READY = 0 ∨ (hot = false ∧ bitAt (s.get Reg.MEM_STATUS_HOT) ch = false) → 
     Acts (.memThermPoll ch hot device) s fun t => t = s) ∧
    (∀ (ch : Fin 6) (hot : Bool) (device : Byte), s.get Reg.MEM_STATUS_READY = 1 → hot = false → bitAt (s.get Reg.MEM_STATUS_HOT) ch = true → (s.memCh ch).cool = 1 → ch.val < s.mem.channels.length → 
     Acts (.memThermPoll ch hot device) s fun t => bitAt (t.get Reg.MEM_STATUS_HOT) ch = false ∧ t.refreshInterval ch = 1560 ∧ (t.memCh ch).cool = 0 ∧ RegsBut [Reg.MEM_STATUS_HOT] s t) ∧
    (∀ (v : Word), s.domainOn 12 = true → s.get Reg.MEM_REF_MODE = 0 ∨ v.getLsbD 31 = true → 
     Acts (.memRefModeWrite v) s fun t => Wrote 0x01000018 false (v.setWidth 64) s t ∧ SameBut [.regs] s t) ∧
    (∀ (v : Word), s.domainOn 12 = true → s.get Reg.MEM_REF_MODE = 1 → v.getLsbD 31 = false → 
     Acts (.memRefModeWrite v) s fun t => t.get Reg.MEM_REF_MODE = 0 ∧ (∀ ch < 6, (t.memCh ch).owed = 0) ∧ SameBut (.mem :: reports) s t)

/-- R399, R400: an instance that passes leads to the next rank, to the next step of its channel, or to the end of its training; after the last channel's, initialisation follows unless a channel has failed; one that fails is attempted three times, and then the channel has failed, as one whose configuration is outside R383 has at once. R402: initialisation leaves every byte 0 and READY at 1. R403: a requested retraining starts when nothing uses DRAM, and discards what lay there. R401: a change of RATE during training is held, and taken once every instance has ended. That one write of RETRAIN asks for one training is the model's choice (log entry 63). -/
def Obligations.dram_training : Prop :=
  ∀ s : State,
    (∀ (ch : Fin 6) (rank : Fin 2) (config : Option (Byte × Word)) (passed : Bool) (lane : Byte) (mask0 mask1 : BitVec 40) (lanes : List Word), s.get Reg.MEM_STATUS_TRAINING = 1 → (s.memCh ch).trained = 0 → s.get (Reg.MEM_TRN_STATE_RESULT ch) = 0 → s.get (Reg.MEM_TRN_STATE_RANK ch) = rank.val → ch.val < s.mem.channels.length → s.mem.heldRate = none → (s.get (Reg.MEM_TRN_STATE_STEP ch) = 1 → config = none ∧ s.mem.density ≠ 3) → passed = true → rank.val < s.mem.ranks → 
     Acts (.dramTrainInstanceEnd ch rank config passed lane mask0 mask1 lanes) s fun t => t.get (Reg.MEM_TRN_STATE_STEP ch) = s.get (Reg.MEM_TRN_STATE_STEP ch) ∧ t.get (Reg.MEM_TRN_STATE_RANK ch) = rank.val + 1 ∧ t.get (Reg.MEM_TRN_STATE_ATTEMPT ch) = 1 ∧ t.get (Reg.MEM_TRN_STATE_RESULT ch) = 0 ∧ t.mem = s.mem ∧ t.dram = s.dram ∧ SameBut [.regs] s t) ∧
    (∀ (ch : Fin 6) (rank : Fin 2) (config : Option (Byte × Word)) (passed : Bool) (lane : Byte) (mask0 mask1 : BitVec 40) (lanes : List Word), s.get Reg.MEM_STATUS_TRAINING = 1 → (s.memCh ch).trained = 0 → s.get (Reg.MEM_TRN_STATE_RESULT ch) = 0 → s.get (Reg.MEM_TRN_STATE_RANK ch) = rank.val → ch.val < s.mem.channels.length → s.mem.heldRate = none → (s.get (Reg.MEM_TRN_STATE_STEP ch) = 1 → config = none ∧ s.mem.density ≠ 3) → passed = true → rank.val = s.mem.ranks → s.get (Reg.MEM_TRN_STATE_STEP ch) < 9 → 
     Acts (.dramTrainInstanceEnd ch rank config passed lane mask0 mask1 lanes) s fun t => t.get (Reg.MEM_TRN_STATE_STEP ch) = s.get (Reg.MEM_TRN_STATE_STEP ch) + 1 ∧ t.get (Reg.MEM_TRN_STATE_ATTEMPT ch) = 1 ∧ t.get (Reg.MEM_TRN_STATE_RESULT ch) = 0 ∧ t.get (Reg.MEM_TRN_MASK_LANES ch 0) = mask0.toNat ∧ t.get (Reg.MEM_TRN_MASK_LANES ch 1) = mask1.toNat ∧ (∀ k w, k < 80 → lanes[k]? = some w → rfWord t.regs (0x01001000 + 512 * ch.val + 256 * (k / 40) + 4 * (k % 40)) = w) ∧ t.mem = s.mem ∧ t.dram = s.dram ∧ SameBut [.regs] s t) ∧
    (∀ (ch : Fin 6) (rank : Fin 2) (config : Option (Byte × Word)) (passed : Bool) (lane : Byte) (mask0 mask1 : BitVec 40) (lanes : List Word), s.get Reg.MEM_STATUS_TRAINING = 1 → (s.memCh ch).trained = 0 → s.get (Reg.MEM_TRN_STATE_RESULT ch) = 0 → s.get (Reg.MEM_TRN_STATE_RANK ch) = rank.val → ch.val < s.mem.channels.length → s.mem.heldRate = none → (s.get (Reg.MEM_TRN_STATE_STEP ch) = 1 → config = none ∧ s.mem.density ≠ 3) → passed = true → rank.val = s.mem.ranks → s.get (Reg.MEM_TRN_STATE_STEP ch) = 9 → (List.range 6).all (fun c => decide (c = ch.val ∨ (s.memCh c).trained ≠ 0)) = true → 
     Acts (.dramTrainInstanceEnd ch rank config passed lane mask0 mask1 lanes) s fun t => (t.memCh ch).trained = 1 ∧ t.get Reg.MEM_STATUS_STEP = 0 ∧ (s.get Reg.MEM_STATUS_FAILED = 0 → t.mem.initialising = true ∧ t.get Reg.MEM_STATUS_TRAINING = 1) ∧ (s.get Reg.MEM_STATUS_FAILED ≠ 0 → t.mem.initialising = s.mem.initialising ∧ t.get Reg.MEM_STATUS_TRAINING = 0) ∧ t.dram = s.dram) ∧
    (∀ (ch : Fin 6) (rank : Fin 2) (config : Option (Byte × Word)) (passed : Bool) (lane : Byte) (mask0 mask1 : BitVec 40) (lanes : List Word), s.get Reg.MEM_STATUS_TRAINING = 1 → (s.memCh ch).trained = 0 → s.get (Reg.MEM_TRN_STATE_RESULT ch) = 0 → s.get (Reg.MEM_TRN_STATE_RANK ch) = rank.val → ch.val < s.mem.channels.length → s.mem.heldRate = none → (s.get (Reg.MEM_TRN_STATE_STEP ch) = 1 → config = none ∧ s.mem.density ≠ 3) → passed = false → s.get (Reg.MEM_TRN_STATE_ATTEMPT ch) < 3 → 
     Acts (.dramTrainInstanceEnd ch rank config passed lane mask0 mask1 lanes) s fun t => t.get (Reg.MEM_TRN_STATE_STEP ch) = s.get (Reg.MEM_TRN_STATE_STEP ch) ∧ t.get (Reg.MEM_TRN_STATE_RANK ch) = rank.val ∧ t.get (Reg.MEM_TRN_STATE_ATTEMPT ch) = s.get (Reg.MEM_TRN_STATE_ATTEMPT ch) + 1 ∧ (∀ k w, k < 80 → lanes[k]? = some w → rfWord t.regs (0x01001000 + 512 * ch.val + 256 * (k / 40) + 4 * (k % 40)) = w) ∧ t.mem = s.mem ∧ SameBut [.regs] s t) ∧
    (∀ (ch : Fin 6) (rank : Fin 2) (config : Option (Byte × Word)) (passed : Bool) (lane : Byte) (mask0 mask1 : BitVec 40) (lanes : List Word), s.get Reg.MEM_STATUS_TRAINING = 1 → (s.memCh ch).trained = 0 → s.get (Reg.MEM_TRN_STATE_RESULT ch) = 0 → s.get (Reg.MEM_TRN_STATE_RANK ch) = rank.val → ch.val < s.mem.channels.length → s.mem.heldRate = none → (s.get (Reg.MEM_TRN_STATE_STEP ch) = 1 → config = none ∧ s.mem.density ≠ 3) → passed = false → s.get (Reg.MEM_TRN_STATE_ATTEMPT ch) = 3 → 
     Acts (.dramTrainInstanceEnd ch rank config passed lane mask0 mask1 lanes) s fun t => bitAt (t.get Reg.MEM_STATUS_FAILED) ch = true ∧ t.get (Reg.MEM_TRN_STATE_RESULT ch) = 2 ∧ (t.memCh ch).trained = 2 ∧ t.dram = s.dram) ∧
    (∀ (ch : Fin 6) (rank : Fin 2) (config : Option (Byte × Word)) (passed : Bool) (lane : Byte) (mask0 mask1 : BitVec 40) (lanes : List Word), s.get Reg.MEM_STATUS_TRAINING = 1 → (s.memCh ch).trained = 0 → s.get (Reg.MEM_TRN_STATE_RESULT ch) = 0 → s.get (Reg.MEM_TRN_STATE_RANK ch) = rank.val → ch.val < s.mem.channels.length → s.mem.heldRate = none → s.get (Reg.MEM_TRN_STATE_STEP ch) = 1 → config ≠ none ∨ s.mem.density = 3 → 
     Acts (.dramTrainInstanceEnd ch rank config passed lane mask0 mask1 lanes) s fun t => bitAt (t.get Reg.MEM_STATUS_FAILED) ch = true ∧ t.get (Reg.MEM_TRN_STATE_RESULT ch) = 2 ∧ (t.memCh ch).trained = 2 ∧ t.dram = s.dram) ∧
    (∀ (ch : Fin 6) (rank : Fin 2) (config : Option (Byte × Word)) (passed : Bool) (lane : Byte) (mask0 mask1 : BitVec 40) (lanes : List Word) (rate : Nat), s.get Reg.MEM_STATUS_TRAINING = 1 → (s.memCh ch).trained = 0 → s.get (Reg.MEM_TRN_STATE_RESULT ch) = 0 → s.get (Reg.MEM_TRN_STATE_RANK ch) = rank.val → ch.val < s.mem.channels.length → s.mem.heldRate = some rate → (List.range 6).all (fun c => decide (c = ch.val ∨ (s.memCh c).trained ≠ 0 ∨ s.get (Reg.MEM_TRN_STATE_RESULT c) ≠ 0)) = true → rate < 4 → 
     Acts (.dramTrainInstanceEnd ch rank config passed lane mask0 mask1 lanes) s fun t => t.get Reg.MEM_CFG_RATE = rate ∧ t.mem.heldRate = none ∧ (∀ c < 6, (t.memCh c).trained = 0 ∧ t.get (Reg.MEM_TRN_STATE_STEP c) = 1 ∧ t.get (Reg.MEM_TRN_STATE_ATTEMPT c) = 1 ∧ t.get (Reg.MEM_TRN_STATE_RESULT c) = 0) ∧ t.dram = s.dram) ∧
    (∀ (ch : Fin 6) (rank : Fin 2) (config : Option (Byte × Word)) (passed : Bool) (lane : Byte) (mask0 mask1 : BitVec 40) (lanes : List Word), s.get Reg.MEM_STATUS_TRAINING = 0 ∨ (s.memCh ch).trained ≠ 0 ∨ s.get (Reg.MEM_TRN_STATE_RESULT ch) ≠ 0 ∨ s.get (Reg.MEM_TRN_STATE_RANK ch) ≠ rank.val → 
     Acts (.dramTrainInstanceEnd ch rank config passed lane mask0 mask1 lanes) s fun t => t = s) ∧
    (s.mem.initialising = true → 
     Acts .dramInitDone s fun t => t.get Reg.MEM_STATUS_READY = 1 ∧ t.get Reg.MEM_STATUS_TRAINING = 0 ∧ t.get Reg.MEM_CTRL_RETRAIN = 0 ∧ t.get Reg.MEM_SIZE_BYTES = installedBytes s.mem.density s.mem.ranks ∧ t.get Reg.MEM_STATUS_RATE = s.get Reg.MEM_CFG_RATE ∧ t.dram = [] ∧ t.mem.flaws = [] ∧ t.mem.poisonList = []) ∧
    (s.mem.initialising = false → 
     Acts .dramInitDone s fun t => t = s) ∧
    (s.mem.retrainAsked = true → s.get Reg.MEM_STATUS_TRAINING = 0 → s.get Reg.EXP_STATE_STATE = 2 → s.box.strips = [] → s.jobsInDram = false → s.hcr.run = none → s.hcr.cal = none → 
     Acts .dramRetrainStart s fun t => t.get Reg.MEM_STATUS_TRAINING = 1 ∧ t.get Reg.MEM_STATUS_READY = 0 ∧ t.get Reg.MEM_STATUS_STEP = 1 ∧ t.get Reg.MEM_SIZE_BYTES = 0 ∧ t.dram = [] ∧ t.mem.queue = [] ∧ t.mem.ranks = s.get Reg.MEM_CFG_RANKS ∧ t.store.slots = [] ∧ (∀ ch < 6, t.get (Reg.MEM_TRN_STATE_STEP ch) = 1)) ∧
    (s.mem.retrainAsked = false ∨ s.get Reg.MEM_STATUS_TRAINING = 1 ∨ s.get Reg.EXP_STATE_STATE ≠ 2 ∨ s.box.strips ≠ [] ∨ s.jobsInDram = true ∨ s.hcr.run ≠ none ∨ s.hcr.cal ≠ none → 
     Acts .dramRetrainStart s fun t => t = s) ∧
    (∀ (v : Word), s.domainOn 12 = true → 
     Acts (.memRetrainWrite v) s fun t => Wrote 0x01000008 false (v.setWidth 64) s t ∧ t.mem = { s.mem with retrainAsked := s.mem.retrainAsked || v.getLsbD 31 } ∧ SameBut [.regs, .mem] s t ∧ RegsBut [⟨0x01000008, 0, 32⟩] s t) ∧
    (∀ (v : Word), s.domainOn 12 = true → s.get Reg.MEM_STATUS_TRAINING = 0 → 
     Acts (.memRateWrite v) s fun t => Wrote 0x01000000 false (v.setWidth 64) s t ∧ SameBut [.regs] s t) ∧
    (∀ (v : Word), s.domainOn 12 = true → s.get Reg.MEM_STATUS_TRAINING = 1 → s.mem.initialising = false → v.toNat % 4 ≠ 3 → v.toNat % 4 ≠ s.get Reg.MEM_CFG_RATE → 
     Acts (.memRateWrite v) s fun t => t.mem = { s.mem with heldRate := some (v.toNat % 4) } ∧ t.get Reg.MEM_CFG_RATE = s.get Reg.MEM_CFG_RATE ∧ SameBut [.regs, .mem] s t)

/-- R409: a read that returns clean leaves the burst as it is; an uncorrectable one joins the repair queue of its channel (R420) and is raised once. R420: a repair writes the burst clean, or poisoned with the signature where its data is lost (R410); its bytes stay. R421: the scrubber moves on by one burst and starts anew at the end of a pass. R411, R412: an erasure request starts a sweep of its sub-channel-rank, at whose end the device is erased. R416: the patrol rewrites a corrected byte, and raises a lost one once. -/
def Obligations.decoded_reads_and_repairs : Prop :=
  ∀ s : State,
    (∀ (addr : BitVec 64) (errors : List (Fin 80 × Byte)) (consumer : Option Byte) (r : MemReq), (s.mem.flight.find? fun q => decide (q.burst = addr.toNat / 64)) = some r → errors = [] → s.outcomeOf (addr.toNat / 64) = .clean → s.mem.waiting = [] → 
     Acts (.dramReadReturn addr errors consumer) s fun t => t.mem.flight = s.mem.flight.erase r ∧ t.dram = s.dram ∧ t.mem.flaws = s.mem.flaws ∧ t.mem.repairs = s.mem.repairs ∧ t.store = s.store ∧ SameBut (.mem :: reports) s t) ∧
    (∀ (addr : BitVec 64) (errors : List (Fin 80 × Byte)) (consumer : Option Byte) (r : MemReq) (p : List Nat), (s.mem.flight.find? fun q => decide (q.burst = addr.toNat / 64)) = some r → errors = [] → s.outcomeOf (addr.toNat / 64) = .corrected p → s.mem.repairs = [] ∧ s.mem.sweeps = [] ∧ s.mem.waiting = [] → s.get Reg.INT_CTRL_AUTO_ERASE = 0 ∨ s.mem.devCounts = [] ∧ 1 < s.get Reg.INT_CTRL_ERASE_THRESH → 
     Acts (.dramReadReturn addr errors consumer) s fun t => t.mem.repairs = [addr.toNat / 64] ∧ t.mem.flight = s.mem.flight.erase r ∧ t.dram = s.dram ∧ t.mem.flaws = s.mem.flaws ∧ t.store = s.store ∧ SameBut (.mem :: reports) s t) ∧
    (∀ (addr : BitVec 64) (errors : List (Fin 80 × Byte)) (consumer : Option Byte) (r : MemReq), (s.mem.flight.find? fun q => decide (q.burst = addr.toNat / 64)) = some r → errors = [] → s.outcomeOf (addr.toNat / 64) = .uncorrectable → s.mem.repairs = [] ∧ s.mem.sweeps = [] ∧ s.mem.waiting = [] → s.ownerOf addr.toNat ≠ 2 → 
     Acts (.dramReadReturn addr errors consumer) s fun t => t.mem.repairs = [addr.toNat / 64] ∧ t.mem.flight = s.mem.flight.erase r ∧ natMem (addr.toNat / 64) t.mem.lossRaised = true ∧ t.dram = s.dram ∧ t.mem.flaws = s.mem.flaws ∧ SameBut (.mem :: reports) s t) ∧
    (∀ (addr : BitVec 64) (errors : List (Fin 80 × Byte)) (consumer : Option Byte) (r : MemReq), (s.mem.flight.find? fun q => decide (q.burst = addr.toNat / 64)) = some r → errors ≠ [] → s.erasedDevice (s.memSlice (addr.toNat / 64)) = none → s.mem.repairs = [] ∧ s.mem.sweeps = [] ∧ s.mem.waiting = [] → (s.storeWord (addr.toNat / 64) (errors.foldl (fun w e => listModify w e.1 (fun x => x ^^^ e.2.toNat)) (s.storedWord (addr.toNat / 64)))).outcomeOf (addr.toNat / 64) = .uncorrectable → s.ownerOf addr.toNat ≠ 2 → 
     Acts (.dramReadReturn addr errors consumer) s fun t => t.mem.repairs = [addr.toNat / 64] ∧ natMem (addr.toNat / 64) t.mem.lossRaised = true ∧ t.storedWord (addr.toNat / 64) = (s.storeWord (addr.toNat / 64) (errors.foldl (fun w e => listModify w e.1 (fun x => x ^^^ e.2.toNat)) (s.storedWord (addr.toNat / 64)))).storedWord (addr.toNat / 64) ∧ (∀ a, a < addr.toNat / 64 * 64 ∨ addr.toNat / 64 * 64 + 64 ≤ a → t.dram.read a = s.dram.read a)) ∧
    (∀ (addr : BitVec 64) (errors : List (Fin 80 × Byte)) (consumer : Option Byte), (s.mem.flight.find? fun q => decide (q.burst = addr.toNat / 64)) = none → 
     Acts (.dramReadReturn addr errors consumer) s fun t => t = s) ∧
    (∀ (ch : Fin 6) (b : Nat), (s.mem.repairs.find? fun b => decide ((s.memLocal b).1 = ch.val)) = some b → s.erasedDevice (s.memSlice b) = none → (s.outcomeOf b).bad = true → 
     Acts (.repairWrite ch) s fun t => t.mem.repairs = s.mem.repairs.erase b ∧ t.flawOf b = List.replicate 64 0 ++ s.signature ∧ t.dram = s.dram ∧ SameBut [.mem] s t) ∧
    (∀ (ch : Fin 6) (b : Nat), (s.mem.repairs.find? fun b => decide ((s.memLocal b).1 = ch.val)) = some b → s.erasedDevice (s.memSlice b) = none → (s.outcomeOf b).bad = false → 
     Acts (.repairWrite ch) s fun t => t.mem.repairs = s.mem.repairs.erase b ∧ t.flawOf b = [] ∧ t.dram = s.dram ∧ SameBut [.mem] s t) ∧
    (∀ (ch : Fin 6) (b : Nat), (s.mem.repairs.find? fun b => decide ((s.memLocal b).1 = ch.val)) = some b → (s.erasedDevice (s.memSlice b)).isSome = true → (s.outcomeOf b).bad = false → 
     Acts (.repairWrite ch) s fun t => t.mem.repairs = s.mem.repairs.erase b ∧ t.outcomeOf b = .clean ∧ t.dram = s.dram ∧ SameBut [.mem] s t) ∧
    (∀ (ch : Fin 6), (s.mem.repairs.find? fun b => decide ((s.memLocal b).1 = ch.val)) = none → 
     Acts (.repairWrite ch) s fun t => t = s) ∧
    (∀ (errors : List (Fin 80 × Byte)), s.get Reg.MEM_STATUS_READY = 1 → s.get Reg.INT_CTRL_SCRUB_EN = 1 → errors = [] → s.outcomeOf (s.get Reg.INT_SCRUB_POS_ADDR / 64) = .clean → s.get Reg.INT_SCRUB_POS_ADDR + 64 < s.memBytes → 
     Acts (.scrubStep errors) s fun t => t.get Reg.INT_SCRUB_POS_ADDR = s.get Reg.INT_SCRUB_POS_ADDR + 64 ∧ t.dram = s.dram ∧ t.mem = s.mem ∧ t.store = s.store) ∧
    (∀ (errors : List (Fin 80 × Byte)), s.get Reg.MEM_STATUS_READY = 1 → s.get Reg.INT_CTRL_SCRUB_EN = 1 → errors = [] → s.outcomeOf (s.get Reg.INT_SCRUB_POS_ADDR / 64) = .clean → s.memBytes ≤ s.get Reg.INT_SCRUB_POS_ADDR + 64 → 
     Acts (.scrubStep errors) s fun t => t.get Reg.INT_SCRUB_POS_ADDR = 0 ∧ t.get Reg.INT_SCRUB_PASSES = (s.get Reg.INT_SCRUB_PASSES + 1) % 2 ^ 24 ∧ t.mem = { s.mem with scrubCorrected := 0, scrubLost := 0, devCounts := [] } ∧ t.dram = s.dram) ∧
    (∀ (errors : List (Fin 80 × Byte)) (b : Nat) (p : List Nat), s.get Reg.MEM_STATUS_READY = 1 → s.get Reg.INT_CTRL_SCRUB_EN = 1 → errors = [] → b = s.get Reg.INT_SCRUB_POS_ADDR / 64 → s.outcomeOf b = .corrected p → s.erasedDevice (s.memSlice b) = none → s.get Reg.INT_CTRL_AUTO_ERASE = 0 ∨ s.mem.devCounts = [] ∧ 1 < s.get Reg.INT_CTRL_ERASE_THRESH → s.get Reg.INT_SCRUB_POS_ADDR + 64 < s.memBytes → 
     Acts (.scrubStep errors) s fun t => t.get Reg.INT_SCRUB_POS_ADDR = s.get Reg.INT_SCRUB_POS_ADDR + 64 ∧ t.flawOf b = [] ∧ t.dram = s.dram ∧ t.mem.scrubCorrected = s.mem.scrubCorrected + 1 ∧ t.store = s.store ∧ SameBut (.mem :: reports) s t) ∧
    (∀ (errors : List (Fin 80 × Byte)) (b : Nat), s.get Reg.MEM_STATUS_READY = 1 → s.get Reg.INT_CTRL_SCRUB_EN = 1 → errors = [] → b = s.get Reg.INT_SCRUB_POS_ADDR / 64 → s.outcomeOf b = .uncorrectable → s.erasedDevice (s.memSlice b) = none → s.ownerOf (64 * b) = 0 ∨ 4 ≤ s.ownerOf (64 * b) → s.mem.sweeps = [] → s.get Reg.INT_SCRUB_POS_ADDR + 64 < s.memBytes → 
     Acts (.scrubStep errors) s fun t => t.get Reg.INT_SCRUB_POS_ADDR = s.get Reg.INT_SCRUB_POS_ADDR + 64 ∧ t.flawOf b = List.replicate 64 0 ++ s.signature ∧ t.dram = s.dram ∧ t.mem.scrubLost = s.mem.scrubLost + 1 ∧ t.store = s.store ∧ SameBut (.mem :: reports) s t) ∧
    (∀ (errors : List (Fin 80 × Byte)), s.get Reg.MEM_STATUS_READY = 0 ∨ s.get Reg.INT_CTRL_SCRUB_EN = 0 → 
     Acts (.scrubStep errors) s fun t => t = s) ∧
    (∀ (v : Word) (slice : Nat), s.domainOn 12 = true → s.get Reg.MEM_STATUS_READY = 1 → v.getLsbD 31 = true → v.toNat / 32 % 8 < 6 ∧ v.toNat % 8 < 5 ∧ v.toNat / 8 % 2 ≤ s.mem.ranks → slice = 4 * (v.toNat / 32 % 8) + 2 * (v.toNat / 8 % 2) + v.toNat / 16 % 2 → s.eraseState slice = 0 → ((List.range 24).filter fun n => decide (s.eraseState n ≠ 0)).length < 4 → 
     Acts (.intEraseReqGo v) s fun t => t.eraseState slice = 7 ∧ t.mem.sweeps = s.mem.sweeps ++ [(slice, v.toNat % 8, true)] ∧ t.get Reg.INT_ERASE_REQ_GO = 1 ∧ t.dram = s.dram) ∧
    (∀ (v : Word) (slice : Nat), s.domainOn 12 = true → s.get Reg.MEM_STATUS_READY = 1 → v.getLsbD 31 = true → v.toNat / 32 % 8 < 6 ∧ v.toNat % 8 < 5 ∧ v.toNat / 8 % 2 ≤ s.mem.ranks → slice = 4 * (v.toNat / 32 % 8) + 2 * (v.toNat / 8 % 2) + v.toNat / 16 % 2 → s.eraseState slice = 0 → 4 ≤ ((List.range 24).filter fun n => decide (s.eraseState n ≠ 0)).length → 
     Acts (.intEraseReqGo v) s fun t => t.mem = s.mem ∧ t.eraseState slice = 0 ∧ SameBut reports s t) ∧
    (∀ (v : Word), s.domainOn 12 = true → v.getLsbD 31 = false → 
     Acts (.intEraseReqGo v) s fun t => Wrote 0x01100010 false (v.setWidth 64) s t ∧ SameBut [.regs] s t) ∧
    (∀ (ch : Fin 6) (rank sub : Fin 2) (slice dev : Nat) (host : Bool), slice = 4 * ch.val + 2 * rank.val + sub.val → (s.mem.sweeps.find? fun p => decide (p.1 = slice)) = some (slice, dev, host) → dev < 5 → s.mem.flaws = [] → 
     Acts (.erasureSweepEnd ch rank sub) s fun t => t.eraseState slice = 8 + dev ∧ t.erasedDevice slice = some dev ∧ t.get Reg.INT_ERASE_REQ_GO = flag ((s.mem.sweeps.filter fun p => decide (p.1 ≠ slice)).any fun p => p.2.2) ∧ (t.mem.sweeps = s.mem.sweeps.filter fun p => decide (p.1 ≠ slice)) ∧ t.dram = s.dram) ∧
    (∀ (ch : Fin 6) (rank sub : Fin 2), (s.mem.sweeps.find? fun p => decide (p.1 = 4 * ch.val + 2 * rank.val + sub.val)) = none → 
     Acts (.erasureSweepEnd ch rank sub) s fun t => t = s) ∧
    (∀ (test : Bool) (unit : Byte) (off : Word) (raw : BitVec 13), test = true → off.toNat < 4096 → (sramDecode (cellGet sramDefault s.mem.sram off.toNat).toNat).1 = 1 → 
     Acts (.sramPatrol test unit off raw) s fun t => cellGet sramDefault t.mem.sram off.toNat = BitVec.ofNat 13 (sramDecode (cellGet sramDefault s.mem.sram off.toNat).toNat).2 ∧ (∀ a, a ≠ off.toNat → cellGet sramDefault t.mem.sram a = cellGet sramDefault s.mem.sram a) ∧ SameBut (.mem :: reports) s t) ∧
    (∀ (test : Bool) (unit : Byte) (off : Word) (raw : BitVec 13), test = false → (sramDecode raw.toNat).1 ≥ 2 → (s.mem.sramRaised.any fun p => decide (p = (unit.toNat, off.toNat))) = false → 
     Acts (.sramPatrol test unit off raw) s fun t => t.mem = { s.mem with sramRaised := (unit.toNat, off.toNat) :: s.mem.sramRaised } ∧ SameBut (.mem :: reports) s t) ∧
    (∀ (test : Bool) (unit : Byte) (off : Word) (raw : BitVec 13), test = false → (sramDecode raw.toNat).1 = 1 → 
     Acts (.sramPatrol test unit off raw) s fun t => t.mem = { s.mem with sramCorrected := joinSecond s.tide s.mem.sramCorrected } ∧ SameBut (.mem :: reports) s t) ∧
    (∀ (test : Bool) (unit : Byte) (off : Word) (raw : BitVec 13), test = true → off.toNat < 4096 → 2 ≤ (sramDecode (cellGet sramDefault s.mem.sram off.toNat).toNat).1 → 
     Acts (.sramPatrol test unit off raw) s fun t => t.mem.sram = s.mem.sram ∧ (t.mem.sramRaised.any fun p => decide (p.2 = 2 ^ 32 + off.toNat)) = true ∧ SameBut (.mem :: reports) s t) ∧
    (∀ (test : Bool) (unit : Byte) (off : Word) (raw : BitVec 13), (test = false ∧ (sramDecode raw.toNat).1 = 0) ∨ (test = true ∧ (4096 ≤ off.toNat ∨ (sramDecode (cellGet sramDefault s.mem.sram off.toNat).toNat).1 = 0)) → 
     Acts (.sramPatrol test unit off raw) s fun t => t = s)

/-- R424: with no strip posted, operation 1 stores 80 symbols as they are, 2 shows the stored symbols and how they decode, 3 the code word of 64 bytes, 4 and 5 write and show the bits of a byte of the SRAM test block; otherwise they are refused. R426, R454: a scan of host memory or DRAM ends with the CRC of its bytes, up to the first poisoned burst, saved where SAVE asks for it. R427: a check value is written while its unit has no job. -/
def Obligations.checker_tests_and_scans : Prop :=
  ∀ s : State,
    (s.domainOn 12 = true → s.testAllowed true = true → 64 * s.testBurst + 64 ≤ s.memBytes → s.erasedDevice (s.memSlice s.testBurst) = none → 
     Acts .testRawDramWrite s fun t => t.storedWord s.testBurst = s.testSymbols ∧ t.get Reg.INT_TEST_CTRL_OP = 1 ∧ t.get Reg.INT_TEST_CTRL_GO = 0 ∧ (∀ a, a < 64 * s.testBurst ∨ 64 * s.testBurst + 64 ≤ a → t.dram.read a = s.dram.read a) ∧ (∀ b, b ≠ s.testBurst → t.flawOf b = s.flawOf b) ∧ SameBut [.regs, .dram, .mem] s t) ∧
    (s.domainOn 12 = true → s.testAllowed true = true → s.memBytes < 64 * s.testBurst + 64 → 
     Acts .testRawDramWrite s fun t => Reported [Reg.INT_TEST_CTRL_OP, Reg.INT_TEST_CTRL_GO] s t) ∧
    (s.domainOn 12 = true → s.testAllowed true = true → s.memBytes < 64 * s.testBurst + 64 → 
     Acts .testRawDramRead s fun t => Reported [Reg.INT_TEST_CTRL_OP, Reg.INT_TEST_CTRL_GO, Reg.INT_TEST_CTRL_RESULT] s t ∧ t.get Reg.INT_TEST_CTRL_RESULT = 2) ∧
    (s.domainOn 12 = true → s.testAllowed true = true → 64 * s.testBurst + 64 ≤ s.memBytes → (s.erasedDevice (s.memSlice s.testBurst)).isSome = true → 
     Acts .testRawDramRead s fun t => t.testSymbols = s.storedWord s.testBurst ∧ t.get Reg.INT_TEST_CTRL_RESULT = 4 ∧ SameBut [.regs] s t) ∧
    (s.domainOn 12 = true → s.testAllowed true = true → 64 * s.testBurst + 64 ≤ s.memBytes → s.erasedDevice (s.memSlice s.testBurst) = none → 
     Acts .testRawDramRead s fun t => t.testSymbols = s.storedWord s.testBurst ∧ t.get Reg.INT_TEST_CTRL_RESULT = (s.outcomeOf s.testBurst).code ∧ t.get Reg.INT_TEST_CTRL_OP = 2 ∧ t.get Reg.INT_TEST_CTRL_GO = 0 ∧ SameBut [.regs] s t) ∧
    (s.domainOn 12 = true → s.testAllowed false = true → 
     Acts .testEncode s fun t => t.testSymbols = codeWord (s.testSymbols.take 64) ∧ t.get Reg.INT_TEST_CTRL_OP = 3 ∧ t.get Reg.INT_TEST_CTRL_GO = 0 ∧ SameBut [.regs] s t) ∧
    (s.domainOn 12 = true → s.testAllowed false = true → 
     Acts .testRawSramWrite s fun t => cellGet sramDefault t.mem.sram (s.get Reg.INT_TEST_SRAM_OFF) = BitVec.ofNat 13 (s.get Reg.INT_TEST_SRAM_RAW) ∧ (∀ a, a ≠ s.get Reg.INT_TEST_SRAM_OFF → cellGet sramDefault t.mem.sram a = cellGet sramDefault s.mem.sram a) ∧ t.get Reg.INT_TEST_CTRL_OP = 4 ∧ t.get Reg.INT_TEST_CTRL_GO = 0 ∧ SameBut [.regs, .mem] s t) ∧
    (s.domainOn 12 = true → s.testAllowed false = true → 
     Acts .testRawSramRead s fun t => t.get Reg.INT_TEST_SRAM_RAW = (cellGet sramDefault s.mem.sram (s.get Reg.INT_TEST_SRAM_OFF)).toNat ∧ t.get Reg.INT_TEST_CTRL_RESULT = (sramDecode (cellGet sramDefault s.mem.sram (s.get Reg.INT_TEST_SRAM_OFF)).toNat).1 ∧ t.get Reg.INT_TEST_CTRL_OP = 5 ∧ t.get Reg.INT_TEST_CTRL_GO = 0 ∧ t.mem.sram = s.mem.sram ∧ t.mem.flaws = s.mem.flaws ∧ SameBut (.mem :: reports) s t) ∧
    (∀ (d : Instr) (op : Nat), (op, d) ∈ [(1, Instr.testRawDramWrite), (2, .testRawDramRead), (3, .testEncode), (4, .testRawSramWrite), (5, .testRawSramRead)] → s.domainOn 12 = true → s.box.strips ≠ [] → 
     Acts d s fun t => t.get Reg.INT_TEST_CTRL_OP = op ∧ t.get Reg.INT_TEST_CTRL_GO = 0 ∧ Reported [Reg.INT_TEST_CTRL_OP, Reg.INT_TEST_CTRL_GO] s t) ∧
    (∀ (d : Desc), s.takes d 0x38 ([(24, decide (1 ≤ d.field 24 8 ∧ d.field 24 8 ≤ 2 ^ 40)), (32, decide (d.field 32 1 < 4)), (33, decide (d.field 33 1 < 8))] ++ descReserved d 34 30) = true → 
     Acts (.checkScan d) s fun t => t.mem.scans = s.mem.scans ++ [⟨s.host.nextAseq, d.field 32 1, bitAt (d.field 33 1) 0, d.field 16 8, d.field 24 8, bitAt (d.field 33 1) 1, bitAt (d.field 33 1) 2⟩] ∧ TakenBy d s t ∧ (t.findJob s.host.nextAseq).isSome) ∧
    (∀ (aseq : Word) (poison : Option (BitVec 40)) (j : ScanJob), (s.mem.scans.find? fun x => decide (x.aseq = aseq.toNat)) = some j → (s.mem.scans.find? fun x => decide (x.unit = j.unit)) = some j → j.unit < 4 → j.dram = false → poison.all (fun n => decide (j.len ≤ n.toNat)) = true → 
     Acts (.checkScanEnd ⟨aseq, poison⟩) s fun t => t.mem.scans = s.mem.scans.filter (fun x => decide (x.aseq ≠ j.aseq)) ∧ t.get (Reg.INT_CHK_VAL_RAW j.unit) = (if j.save = true then scanRaw j.unit (s.scanStart j) (s.readSpace j.dram j.start j.len) else s.get (Reg.INT_CHK_VAL_RAW j.unit))) ∧
    (∀ (aseq : Word) (poison : Option (BitVec 40)) (j : ScanJob) (n : BitVec 40), (s.mem.scans.find? fun x => decide (x.aseq = aseq.toNat)) = some j → (s.mem.scans.find? fun x => decide (x.unit = j.unit)) = some j → j.unit < 4 → j.dram = false → poison = some n → n.toNat < j.len → 
     Acts (.checkScanEnd ⟨aseq, poison⟩) s fun t => t.mem.scans = s.mem.scans.filter (fun x => decide (x.aseq ≠ j.aseq)) ∧ t.get (Reg.INT_CHK_VAL_RAW j.unit) = (if j.save = true then scanRaw j.unit (s.scanStart j) (s.readSpace j.dram j.start ((j.start + n.toNat) / 64 * 64 - j.start)) else s.get (Reg.INT_CHK_VAL_RAW j.unit))) ∧
    (∀ (aseq : Word) (poison : Option (BitVec 40)) (j : ScanJob), (s.mem.scans.find? fun x => decide (x.aseq = aseq.toNat)) = some j → (s.mem.scans.find? fun x => decide (x.unit = j.unit)) = some j → j.unit < 4 → j.dram = true → s.dramRangeOk j.start j.len = true → s.poisonIn j.start j.len = none → 
     Acts (.checkScanEnd ⟨aseq, poison⟩) s fun t => t.mem.scans = s.mem.scans.filter (fun x => decide (x.aseq ≠ j.aseq)) ∧ t.get (Reg.INT_CHK_VAL_RAW j.unit) = (if j.save = true then scanRaw j.unit (s.scanStart j) (s.readSpace j.dram j.start j.len) else s.get (Reg.INT_CHK_VAL_RAW j.unit))) ∧
    (∀ (aseq : Word) (poison : Option (BitVec 40)) (j : ScanJob) (b : Nat), (s.mem.scans.find? fun x => decide (x.aseq = aseq.toNat)) = some j → (s.mem.scans.find? fun x => decide (x.unit = j.unit)) = some j → j.unit < 4 → j.dram = true → s.dramRangeOk j.start j.len = true → s.poisonIn j.start j.len = some b → 
     Acts (.checkScanEnd ⟨aseq, poison⟩) s fun t => t.mem.scans = s.mem.scans.filter (fun x => decide (x.aseq ≠ j.aseq)) ∧ t.get (Reg.INT_CHK_VAL_RAW j.unit) = (if j.save = true then scanRaw j.unit (s.scanStart j) (s.readSpace j.dram j.start (64 * b - j.start)) else s.get (Reg.INT_CHK_VAL_RAW j.unit))) ∧
    (∀ (aseq : Word) (poison : Option (BitVec 40)) (j : ScanJob), (s.mem.scans.find? fun x => decide (x.aseq = aseq.toNat)) = some j → (s.mem.scans.find? fun x => decide (x.unit = j.unit)) = some j → j.unit < 4 → j.dram = true → s.dramRangeOk j.start j.len = false → 
     Acts (.checkScanEnd ⟨aseq, poison⟩) s fun t => t.mem.scans = s.mem.scans.filter (fun x => decide (x.aseq ≠ j.aseq)) ∧ t.get (Reg.INT_CHK_VAL_RAW j.unit) = (if j.save = true then scanRaw j.unit (s.scanStart j) (s.readSpace j.dram j.start 0) else s.get (Reg.INT_CHK_VAL_RAW j.unit))) ∧
    (∀ (aseq : Word) (poison : Option (BitVec 40)), (∀ j, (s.mem.scans.find? fun x => decide (x.aseq = aseq.toNat)) = some j → (s.mem.scans.find? fun x => decide (x.unit = j.unit)) ≠ some j) → 
     Acts (.checkScanEnd ⟨aseq, poison⟩) s fun t => t = s) ∧
    (∀ (off : BitVec 25) (wide : Bool) (v : BitVec 64) (u : Nat), off.toNat = 0x01100400 + 8 * u → u < 4 → wide = true → s.domainOn 12 = true → (s.mem.scans.any fun j => decide (j.unit = u)) = false → 
     Acts (.intChkValWrite off wide v) s fun t => t.get (Reg.INT_CHK_VAL_RAW u) = v.toNat % 2 ^ scanWidth u ∧ SameBut [.regs] s t ∧ RegsBut [Reg.INT_CHK_VAL_RAW u] s t) ∧
    (∀ (off : BitVec 25) (wide : Bool) (v : BitVec 64) (u : Nat), off.toNat = 0x01100400 + 8 * u → u < 4 → wide = true → s.domainOn 12 = true → (s.mem.scans.any fun j => decide (j.unit = u)) = true → 
     Acts (.intChkValWrite off wide v) s fun t => Reported [] s t)

/-- R462, R463: a message of the port's domain from its master acts; one of another domain, another profile or a broken one is counted and has no effect. R464: a two-step Sync waits for its Follow_Up; the requests and responses of both delay mechanisms carry their time stamps. R468: an exchange gives meanPathDelay, half the round trip less its corrections, and offsetFromMaster. R462: a foreign master qualifies by its second Announce, and the port follows it. The order of foreign masters and the entry to SLAVE rest on log entries 43 and 44; no clause compares two masters. -/
def Obligations.ptp_messages : Prop :=
  ∀ s : State,
    (∀ (m : PtpMsg) (twoStep : Bool) (origin : PtpStamp), s.ptpRuns m.port = true → s.tagFits m = true → m.domain.toNat = s.get (Reg.TIM_PORT_CFG_DOMAIN m.port) → m.sdo = 0 ∧ m.valid = true ∧ m.secured = false → m.port.val < s.time.ports.length → s.fromMaster m = true → twoStep = true → 
     Acts (.ptpSync m twoStep origin) s fun t => t.timePort m.port = { s.timePort m.port with held := some (m.seq.toNat, s.rxStamp m.port m.phase, s.get Reg.TIM_STATUS_EPOCH, correctionOf m) } ∧ (∀ k, k ≠ m.port.val → t.timePort k = s.timePort k) ∧ SameBut (.time :: reports) s t) ∧
    (∀ (m : PtpMsg) (twoStep : Bool) (origin : PtpStamp), s.ptpRuns m.port = true → s.tagFits m = true → m.domain.toNat = s.get (Reg.TIM_PORT_CFG_DOMAIN m.port) → m.sdo = 0 ∧ m.valid = true ∧ m.secured = false → m.port.val < s.time.ports.length → s.fromMaster m = true → twoStep = false → (s.timePort m.port).state = 9 → 
     Acts (.ptpSync m twoStep origin) s fun t => t.timePort m.port = { s.timePort m.port with held := none, sync := some (stampTime origin, s.rxStamp m.port m.phase, correctionOf m, s.get Reg.TIM_STATUS_EPOCH) } ∧ (∀ k, k ≠ m.port.val → t.timePort k = s.timePort k) ∧ SameBut (.time :: reports) s t) ∧
    (∀ (m : PtpMsg) (twoStep : Bool) (origin : PtpStamp), s.ptpRuns m.port = true → s.tagFits m = true → m.domain.toNat = s.get (Reg.TIM_PORT_CFG_DOMAIN m.port) → m.sdo = 0 ∧ m.valid = true ∧ m.secured = false → m.port.val < s.time.ports.length → s.fromMaster m = false → 
     Acts (.ptpSync m twoStep origin) s fun t => SameBut reports s t ∧ RegsBut [⟨cntTim 0, 0, 64⟩] s t) ∧
    (∀ (m : PtpMsg) (origin : PtpStamp) (at' : Int) (epoch : Nat) (c : Int), s.ptpRuns m.port = true → s.tagFits m = true → m.domain.toNat = s.get (Reg.TIM_PORT_CFG_DOMAIN m.port) → m.sdo = 0 ∧ m.valid = true ∧ m.secured = false → m.port.val < s.time.ports.length → s.fromMaster m = true → (s.timePort m.port).held = some (m.seq.toNat, at', epoch, c) → (s.timePort m.port).state = 9 → 
     Acts (.ptpFollowUp m origin) s fun t => t.timePort m.port = { s.timePort m.port with held := none, sync := some (stampTime origin, at', c + correctionOf m, epoch) } ∧ (∀ k, k ≠ m.port.val → t.timePort k = s.timePort k) ∧ SameBut (.time :: reports) s t) ∧
    (∀ (m : PtpMsg) (d : Instr), (d = .ptpSync m false ⟨0, 0⟩ ∨ d = .ptpDelayResp m 0 ⟨0, 0⟩ ∨ d = .ptpPdelayReq m 0) → s.ptpRuns m.port = true ∧ s.tagFits m = true → m.domain.toNat ≠ s.get (Reg.TIM_PORT_CFG_DOMAIN m.port) ∨ m.sdo ≠ 0 ∨ m.valid = false ∨ m.secured = true → 
     Acts d s fun t => SameBut reports s t ∧ RegsBut [⟨cntTim 3, 0, 64⟩] s t) ∧
    (∀ (m : PtpMsg) (requester : BitVec 80) (receipt : PtpStamp) (t1 t2 t3 c d : Int) (e : Nat), s.ptpRuns m.port = true → s.tagFits m = true → m.domain.toNat = s.get (Reg.TIM_PORT_CFG_DOMAIN m.port) → m.sdo = 0 ∧ m.valid = true ∧ m.secured = false → m.port.val < s.time.ports.length → s.fromMaster m = true → (s.timePort m.port).req = some (m.seq.toNat, t3, e) ∧ (s.timePort m.port).sync = some (t1, t2, c, e) → s.get (Reg.TIM_PORT_CFG_P2P m.port) = 0 → requester.toNat = s.portIdentity m.port → e = s.get Reg.TIM_STATUS_EPOCH → (s.timePort m.port).state = 9 ∧ (s.timePort m.port).offsets.length < 8 ∧ (s.timePort m.port).delays.length < 8 → s.time.confirm = none → d = idiv ((t2 - t3) + (stampTime receipt - t1) - c - correctionOf m) 2 → 
     Acts (.ptpDelayResp m requester receipt) s fun t => (t.timePort m.port).offsets = (s.timePort m.port).offsets ++ [t2 - t1 - d - c] ∧ (t.timePort m.port).delays = (s.timePort m.port).delays ++ [d] ∧ (t.timePort m.port).req = none ∧ (∀ k, k ≠ m.port.val → t.timePort k = s.timePort k) ∧ t.clock = s.clock) ∧
    (∀ (m : PtpMsg) (turn : Word), s.ptpRuns m.port = true → s.tagFits m = true → m.domain.toNat = s.get (Reg.TIM_PORT_CFG_DOMAIN m.port) → m.sdo = 0 ∧ m.valid = true ∧ m.secured = false → m.port.val < s.time.ports.length → s.get (Reg.TIM_PORT_CFG_P2P m.port) = 1 → 
     Acts (.ptpPdelayReq m turn) s fun t => (t.timePort m.port).answer = some (m.source.toNat, m.seq.toNat, s.rxStamp m.port m.phase, if s.get (Reg.TIM_PORT_CFG_ONE_STEP m.port) = 1 then s.txStamp m.port m.phase + turn.toNat * 2 ^ 30 - s.rxStamp m.port m.phase else s.txStamp m.port m.phase + turn.toNat * 2 ^ 30) ∧ t.clock = s.clock ∧ SameBut [.time] s t) ∧
    (∀ (m : PtpMsg) (requester : BitVec 80) (twoStep : Bool) (receipt : PtpStamp) (t1 : Int) (e : Nat), s.ptpRuns m.port = true → s.tagFits m = true → m.domain.toNat = s.get (Reg.TIM_PORT_CFG_DOMAIN m.port) → m.sdo = 0 ∧ m.valid = true ∧ m.secured = false → m.port.val < s.time.ports.length → twoStep = true → s.get (Reg.TIM_PORT_CFG_P2P m.port) = 1 → requester.toNat = s.portIdentity m.port → (s.timePort m.port).req = some (m.seq.toNat, t1, e) → 
     Acts (.ptpPdelayResp m requester twoStep receipt) s fun t => t.timePort m.port = { s.timePort m.port with resp := some (stampTime receipt, s.rxStamp m.port m.phase, correctionOf m) } ∧ (∀ k, k ≠ m.port.val → t.timePort k = s.timePort k) ∧ SameBut [.time] s t) ∧
    (∀ (m : PtpMsg) (requester : BitVec 80) (origin : PtpStamp) (t1 t2 t4 c : Int) (e : Nat), s.ptpRuns m.port = true → s.tagFits m = true → m.domain.toNat = s.get (Reg.TIM_PORT_CFG_DOMAIN m.port) → m.sdo = 0 ∧ m.valid = true ∧ m.secured = false → m.port.val < s.time.ports.length → requester.toNat = s.portIdentity m.port → (s.timePort m.port).req = some (m.seq.toNat, t1, e) ∧ (s.timePort m.port).resp = some (t2, t4, c) → (s.timePort m.port).sync = none → 
     Acts (.ptpPdelayRespFollowUp m requester origin) s fun t => t.timePort m.port = { s.timePort m.port with req := none, resp := none } ∧ (∀ k, k ≠ m.port.val → t.timePort k = s.timePort k) ∧ SameBut (.time :: reports) s t) ∧
    (∀ (m : PtpMsg) (a : PtpAnnounce), s.ptpRuns m.port = true → s.tagFits m = true → m.domain.toNat = s.get (Reg.TIM_PORT_CFG_DOMAIN m.port) → m.sdo = 0 ∧ m.valid = true ∧ m.secured = false → m.port.val < s.time.ports.length → (s.timePort m.port).foreign = [] ∧ (s.timePort m.port).master = none → s.serves 0 = false ∧ s.serves 1 = false → s.get Reg.TIM_STATUS_STATE = 0 → 
     Acts (.ptpAnnounce m a) s fun t => (t.timePort m.port).master = none ∧ (t.timePort m.port).state = (s.timePort m.port).state ∧ (t.timePort m.port).foreign.map (fun f => (f.source, f.gm, f.steps, f.seen)) = [(m.source.toNat, a.grandmaster.toNat, a.steps.toNat, [s.tide])]) ∧
    (∀ (m : PtpMsg) (a : PtpAnnounce) (f : ForeignMaster) (q : Nat), s.ptpRuns m.port = true → s.tagFits m = true → m.domain.toNat = s.get (Reg.TIM_PORT_CFG_DOMAIN m.port) → m.sdo = 0 ∧ m.valid = true ∧ m.secured = false → m.port.val < s.time.ports.length → (s.timePort m.port).foreign = [f] ∧ (s.timePort m.port).master = none ∧ (s.timePort m.port).state = 4 → f.source = m.source.toNat ∧ f.seen = [q] → s.tide ≤ q + 4 * logInterval a.interval.toInt → a.steps.toNat < 255 → s.serves 0 = false ∧ s.serves 1 = false → s.get Reg.TIM_STATUS_STATE = 0 → 
     Acts (.ptpAnnounce m a) s fun t => (t.timePort m.port).master = some m.source.toNat ∧ (t.timePort m.port).state = 7 ∧ t.get (Reg.TIM_PORT_STATUS_STATE m.port) = 7 ∧ t.get (Reg.TIM_PORT_GM_ID m.port) = a.grandmaster.toNat) ∧
    (∀ (p : Fin 2) (phase : Fin 10), s.ptpRuns p = true → (s.timePort p).state = 9 → p.val < s.time.ports.length → 
     Acts (.ptpDelayReqSend p phase) s fun t => t.timePort p = { s.timePort p with reqSeq := ((s.timePort p).reqSeq + 1) % 65536, req := some ((s.timePort p).reqSeq, s.txStamp p phase, s.get Reg.TIM_STATUS_EPOCH), resp := none } ∧ SameBut [.time] s t) ∧
    (∀ (p : Fin 2), (s.timePort p).state = 9 ∨ (s.timePort p).state = 7 → p.val < s.time.ports.length → 
     Acts (.announceTimeout p) s fun t => (t.timePort p).state = 4 ∧ (t.timePort p).master = none ∧ (t.timePort p).sync = none ∧ t.clock = s.clock) ∧
    (∀ (p : Fin 2), (s.timePort p).state ≠ 9 ∧ (s.timePort p).state ≠ 7 → 
     Acts (.announceTimeout p) s fun t => t = s)

/-- R467, R468, R473: a step of the clock is made at acquisition outside exposure, or when STEP_ARM permits a pending one in SLACK or NEAP; each begins a new epoch, and shifts the clock by the filtered offset. R471, R474: a suspect delay is judged after CONFIRM_S, a long holdover is raised once. R475, R465: the map and TIM_NOW latch head time and the local clock. R477: a datagram carries up to 32 records. R473, R478, R480: STEP_ARM, TIM_CTRL, the port registers and the link. R476: a slave takes the master's time as a sample, and a new epoch by a step. -/
def Obligations.clock_steps_and_holdover : Prop :=
  ∀ s : State,
    (∀ (o : Int), s.primaryOffset = some o → s.get Reg.TIM_STATUS_STEP_PENDING = 1 ∧ s.get Reg.TIM_CTRL_STEP_ARM = 1 → s.get Reg.EXP_STATE_STATE = 1 ∨ s.get Reg.EXP_STATE_STATE = 2 → 
     Acts .armedStep s fun t => t.clock = clockOf (s.clock.units - o) ∧ t.get Reg.TIM_STATUS_EPOCH = (s.get Reg.TIM_STATUS_EPOCH + 1) % 65536 ∧ t.get Reg.TIM_STATUS_STEP_PENDING = 0 ∧ t.get Reg.TIM_CTRL_STEP_ARM = 0 ∧ t.time.causes = []) ∧
    (s.get Reg.TIM_STATUS_STEP_PENDING = 0 ∨ s.get Reg.TIM_CTRL_STEP_ARM = 0 ∨ 3 ≤ s.get Reg.EXP_STATE_STATE → 
     Acts .armedStep s fun t => t = s) ∧
    (∀ (o : Int), s.primaryOffset = some o → s.get Reg.TIM_STATUS_STATE = 1 → s.get Reg.EXP_STATE_STATE = 2 → 
     Acts .acquisitionStepHeld s fun t => t.clock = clockOf (s.clock.units - o) ∧ t.get Reg.TIM_STATUS_EPOCH = (s.get Reg.TIM_STATUS_EPOCH + 1) % 65536 ∧ t.get Reg.TIM_STATUS_STATE = (if s.isSlave then 4 else 2)) ∧
    (s.get Reg.TIM_STATUS_STATE ≠ 1 ∨ (3 ≤ s.get Reg.EXP_STATE_STATE ∧ s.get Reg.EXP_STATE_STATE ≤ 7) → 
     Acts .acquisitionStepHeld s fun t => t = s) ∧
    (∀ (p q : Nat) (l : List (Int × Int)), s.time.confirm = some (p, q, l) → s.tide < q + 400000000 * s.get Reg.TIM_LIM1_CONFIRM_S → 
     Acts .delayConfirmEnd s fun t => t = s) ∧
    (∀ (p q : Nat), s.time.confirm = some (p, q, []) → q + 400000000 * s.get Reg.TIM_LIM1_CONFIRM_S ≤ s.tide → natMem 3 s.time.causes = false → 
     Acts .delayConfirmEnd s fun t => t = { s with time := { s.time with confirm := none } }) ∧
    (s.get Reg.TIM_STATUS_STATE = 3 → s.time.longRaised = false → 400000000 * s.get Reg.TIM_LIM1_HOLD_MAX_S < s.tide - s.time.holdSince → 
     Acts .holdLong s fun t => t.time.longRaised = true ∧ t.clock = s.clock ∧ SameBut reports s t ∧ RegsBut [] s t) ∧
    (s.get Reg.TIM_STATUS_STATE ≠ 3 ∨ s.time.longRaised = true → 
     Acts .holdLong s fun t => t = s) ∧
    (s.time.mapAt ≤ s.tide → s.isSlave = true ∨ s.get Reg.CSC_STATUS_READY = 0 → 
     Acts .timeMapLatch s fun t => t.get Reg.TIM_MAP_HEAD_H = s.headTime ∧ t.get Reg.TIM_MAP_PTP_SEC = s.clock.sec % 2 ^ 34 ∧ t.get Reg.TIM_MAP_PTP_NS = s.clock.ns % 2 ^ 30 ∧ t.get Reg.TIM_MAP_AUX_EPOCH = s.get Reg.TIM_STATUS_EPOCH ∧ t.get Reg.TIM_MAP_AUX_SEC_HI = s.clock.sec / 2 ^ 34 % 2 ^ 14 ∧ t.time = { s.time with mapAt := (s.tide / 400000 + 1) * 400000 } ∧ SameBut [.regs, .time] s t) ∧
    (s.tide < s.time.mapAt → 
     Acts .timeMapLatch s fun t => t = s) ∧
    (s.domainOn 14 = true → 
     Acts .timMapHeadRead s fun t => t.time = { s.time with mapHeld := some (rfPair s.regs 0x01200038, rfWord s.regs 0x01200040) } ∧ SameBut [.time] s t) ∧
    (s.domainOn 14 = true → 
     Acts .timNowRead s fun t => t.get Reg.TIM_NOW_SEC = s.clock.sec % 2 ^ 34 ∧ t.get Reg.TIM_NOW_NS = s.clock.ns % 2 ^ 30 ∧ t.get Reg.TIM_NOW_HI_SEC_HI = s.clock.sec / 2 ^ 34 % 2 ^ 14 ∧ t.get Reg.TIM_NOW_HI_EPOCH = s.get Reg.TIM_STATUS_EPOCH ∧ SameBut [.regs] s t) ∧
    (∀ (p : Fin 2), 32 ≤ (s.timePort p).records.length → s.get (Reg.TIM_PORT_STATUS_LINK p) = 1 → s.telemetryOn p = true → p.val < s.time.ports.length → 
     Acts (.telemetrySend p) s fun t => (t.timePort p).records = (s.timePort p).records.drop 32 ∧ (t.timePort p).datagram = leBytes 2 (s.timePort p).datagramSeq ++ leBytes 2 32 ++ ((s.timePort p).records.take 32).flatten ∧ (t.timePort p).datagramSeq = ((s.timePort p).datagramSeq + 1) % 65536) ∧
    (∀ (p : Fin 2), (s.timePort p).records = [] ∨ s.telemetryOn p = false → 
     Acts (.telemetrySend p) s fun t => t = s) ∧
    (∀ (p : Fin 2) (up : Bool), s.get (Reg.TIM_PORT_STATUS_LINK p) ≠ flag up → s.get Reg.TIM_CTRL_EN = 0 → (s.timePort 0).state = 3 ∧ (s.timePort 1).state = 3 → s.get Reg.TIM_STATUS_STATE = 0 → 
     Acts (.ethLinkChange p up) s fun t => t.get (Reg.TIM_PORT_STATUS_LINK p) = flag up ∧ t.clock = s.clock ∧ (t.timePort 0).state = 3 ∧ (t.timePort 1).state = 3) ∧
    (∀ (p : Fin 2) (up : Bool), s.get (Reg.TIM_PORT_STATUS_LINK p) = flag up → 
     Acts (.ethLinkChange p up) s fun t => t = s) ∧
    (s.domainOn 14 = true → s.get Reg.TIM_STATUS_STEP_PENDING = 0 → 
     Acts .timStepArm s fun t => t = s) ∧
    (s.domainOn 14 = true → s.get Reg.TIM_STATUS_STEP_PENDING = 1 → 3 ≤ s.get Reg.EXP_STATE_STATE → 
     Acts .timStepArm s fun t => t.get Reg.TIM_CTRL_STEP_ARM = 1 ∧ t.clock = s.clock ∧ SameBut [.regs] s t ∧ RegsBut [Reg.TIM_CTRL_STEP_ARM] s t) ∧
    (∀ (v : Word), s.domainOn 14 = true → v.getLsbD 31 = false → v.toNat / 16 % 4 ≠ 3 → s.get Reg.TIM_CLOCK_ID_ID ≠ 0 ∨ v.getLsbD 0 = false → s.get (Reg.TIM_PORT_CFG_EN 0) = 0 ∧ s.get (Reg.TIM_PORT_CFG_EN 1) = 0 → (s.timePort 0).state = 3 ∧ (s.timePort 1).state = 3 → s.get Reg.TIM_STATUS_STATE = 0 → s.time.causes = [] → 
     Acts (.timCtrlWrite v) s fun t => t.get Reg.TIM_CTRL_PATH = v.toNat / 16 % 4 ∧ t.get Reg.TIM_CTRL_PRIMARY = v.toNat / 8 % 2 ∧ t.get Reg.TIM_CTRL_EN = v.toNat % 2 ∧ t.clock = s.clock) ∧
    (∀ (off : BitVec 25) (wide : Bool) (v : BitVec 64) (p : Fin 2), off.toNat = 0x01200100 + 0x100 * p → wide = false → s.domainOn 14 = true → s.get (Reg.TIM_PORT_CFG_EN p) = 0 → s.get Reg.TIM_CTRL_EN = 0 → (s.timePort 0).state = 3 ∧ (s.timePort 1).state = 3 → s.get Reg.TIM_STATUS_STATE = 0 → 
     Acts (.timPortCfgWrite off wide v) s fun t => Wrote off.toNat false v s t ∧ t.clock = s.clock) ∧
    (∀ (off : BitVec 25) (wide : Bool) (v : BitVec 64) (p : Fin 2), 0x01200100 + 0x100 * p < off.toNat ∧ off.toNat < 0x01200200 + 0x100 * p → alignedAccess off.toNat wide = true → s.domainOn 14 = true → s.get (Reg.TIM_PORT_CFG_EN p) = 1 → 
     Acts (.timPortCfgWrite off wide v) s fun t => Reported [] s t) ∧
    (∀ (m : LinkMsg) (head : BitVec 64) (stamp : PtpStamp) (epoch : BitVec 16), s.portState m.port = 6 → s.isSlave = true → s.get Reg.TIM_STATUS_STATE = 4 → epoch.toNat ≠ s.get Reg.TIM_STATUS_EPOCH → s.time.causes = [] → 
     Acts (.timeMessage m head stamp epoch) s fun t => t.clock = clockOf (s.clock.units - (s.clockAt head.toNat - stampTime stamp)) ∧ t.get Reg.TIM_STATUS_EPOCH = epoch.toNat) ∧
    (∀ (m : LinkMsg) (head : BitVec 64) (stamp : PtpStamp) (epoch : BitVec 16), s.portState m.port = 6 → s.isSlave = true → s.get Reg.TIM_STATUS_STATE = 0 → s.time.causes = [] ∧ s.time.confirm = none → (s.timePort 2).offsets.length < 8 → 2 < s.time.ports.length → 
     Acts (.timeMessage m head stamp epoch) s fun t => (t.timePort 2).offsets = (s.timePort 2).offsets ++ [s.clockAt head.toNat - stampTime stamp] ∧ t.get Reg.TIM_STATUS_STATE = 1 ∧ t.clock = s.clock)

/-- R483: SUBMIT in IDLE starts a proposal; while one exists it is refused alone (subcode 8), and the proposal keeps its state and RESULT; WITHDRAW, a failed read, a bad image (R482), a failed check (R484) and the 100 ms of R487 refuse the current one with subcodes 6, 9, 9, 1 and 4: IDLE, the subcode in RESULT, and no committed value changed; an image that passes is PENDING with its classes. A handover of head care (R339) waits for IDLE, and completes its job. -/
def Obligations.proposals_open_and_close : Prop :=
  ∀ s : State,
    (s.proposal = 0 → 
     Acts .bwtSubmit s fun t => t.proposal = 1 ∧ t.bwt = { s.bwt with image := [], fromHead := false } ∧ SameBut [.regs, .bwt] s t ∧ RegsBut [Reg.BWT_PROP_STATUS_STATE] s t) ∧
    (s.proposal ≠ 0 → 
     Acts .bwtSubmit s fun t => Reported [] s t ∧ t.proposal = s.proposal ∧ t.get Reg.BWT_PROP_STATUS_RESULT = s.get Reg.BWT_PROP_STATUS_RESULT) ∧
    (s.proposal = 1 ∨ s.proposal = 2 ∨ s.proposal = 3 → s.hcr.handover = [] → 
     Acts .bwtWithdraw s fun t => t.bwt = s.bwt ∧ t.proposal = 0 ∧ t.get Reg.BWT_PROP_STATUS_RESULT = 6 ∧ SameBut (.bwt :: reports) s t ∧ RegsBut [Reg.BWT_PROP_STATUS_STATE, Reg.BWT_PROP_STATUS_RESULT, ⟨cntBwt 2, 0, 64⟩] s t) ∧
    (∀ (kind : Nat) (l : List (Nat × Option Nat)), s.proposal = 1 ∨ s.proposal = 2 ∨ s.proposal = 3 → s.hcr.handover = (kind, none) :: l → 
     Acts .bwtWithdraw s fun t => t.proposal = 1 ∧ t.get Reg.BWT_PROP_STATUS_RESULT = 6 ∧ t.hcr = { s.hcr with handover := l } ∧ t.bwt = { s.bwt with image := proposalImage ((s.get Reg.BWT_SEQ_COMMITTED + 1) % 2 ^ 32) (s.proposalRecords kind), fromHead := true }) ∧
    (s.proposal = 0 ∨ s.proposal = 4 → 
     Acts .bwtWithdraw s fun t => t = s) ∧
    (∀ (kind : Nat) (l : List (Nat × Option Nat)), s.hcr.handover = (kind, none) :: l → s.proposal = 0 → 
     Acts .bwtHandover s fun t => t.proposal = 1 ∧ t.hcr = { s.hcr with handover := l } ∧ t.bwt = { s.bwt with image := proposalImage ((s.get Reg.BWT_SEQ_COMMITTED + 1) % 2 ^ 32) (s.proposalRecords kind), fromHead := true } ∧ RegsBut [Reg.BWT_PROP_STATUS_STATE] s t) ∧
    (∀ (kind a : Nat) (l : List (Nat × Option Nat)), s.hcr.handover = (kind, some a) :: l → s.proposal = 0 → 
     Acts .bwtHandover s fun t => t.proposal = 1 ∧ t.findJob a = none ∧ t.hcr = { s.hcr with handover := l } ∧ t.bwt = { s.bwt with image := proposalImage ((s.get Reg.BWT_SEQ_COMMITTED + 1) % 2 ^ 32) (s.proposalRecords kind), fromHead := true }) ∧
    (s.hcr.handover = [] ∨ s.proposal ≠ 0 → 
     Acts .bwtHandover s fun t => t = s) ∧
    (∀ (n : Nat) (image : List Byte) (u : State), s.proposal = 1 → s.bwt.fromHead = false → leNat (s.hostMem.readBytes (8 * s.get Reg.BWT_PROP_ADDR_ADDR + 12) 4) = n → 32 ≤ n ∧ n ≤ 1048576 → s.hostMem.readBytes (8 * s.get Reg.BWT_PROP_ADDR_ADDR) n = image → { s with bwt := { s.bwt with image := image } }.put Reg.BWT_PROP_STATUS_STATE 2 = u → u.imageWords image = none → s.hcr.handover = [] → 
     Acts (.proposalLoaded true) s fun t => t.bwt = { s.bwt with image := image } ∧ t.proposal = 0 ∧ t.get Reg.BWT_PROP_STATUS_RESULT = 9 ∧ SameBut (.bwt :: reports) s t ∧ RegsBut [Reg.BWT_PROP_STATUS_STATE, Reg.BWT_PROP_STATUS_RESULT, ⟨cntBwt 2, 0, 64⟩] s t) ∧
    (∀ (n : Nat) (image : List Byte) (u : State) (words : List (Nat × Nat)), s.proposal = 1 → s.bwt.fromHead = false → leNat (s.hostMem.readBytes (8 * s.get Reg.BWT_PROP_ADDR_ADDR + 12) 4) = n → 32 ≤ n ∧ n ≤ 1048576 → s.hostMem.readBytes (8 * s.get Reg.BWT_PROP_ADDR_ADDR) n = image → { s with bwt := { s.bwt with image := image } }.put Reg.BWT_PROP_STATUS_STATE 2 = u → u.imageWords image = some words → (u.put Reg.BWT_PROP_STATUS_CLASSES (classesOf words)).proposalFaults words = [] → 
     Acts (.proposalLoaded true) s fun t => t.proposal = 3 ∧ t.get Reg.BWT_PROP_STATUS_CLASSES = classesOf words % 65536 ∧ t.bwt = { s.bwt with image := image, pendingAt := s.aon } ∧ SameBut (.bwt :: reports) s t ∧ RegsBut [Reg.BWT_PROP_STATUS_STATE, Reg.BWT_PROP_STATUS_CLASSES] s t) ∧
    (∀ (n : Nat) (image : List Byte) (u : State) (words : List (Nat × Nat)) (e : Option UnitEvent) (l : List (Option UnitEvent)), s.proposal = 1 → s.bwt.fromHead = false → leNat (s.hostMem.readBytes (8 * s.get Reg.BWT_PROP_ADDR_ADDR + 12) 4) = n → 32 ≤ n ∧ n ≤ 1048576 → s.hostMem.readBytes (8 * s.get Reg.BWT_PROP_ADDR_ADDR) n = image → { s with bwt := { s.bwt with image := image } }.put Reg.BWT_PROP_STATUS_STATE 2 = u → u.imageWords image = some words → (u.put Reg.BWT_PROP_STATUS_CLASSES (classesOf words)).proposalFaults words = e :: l → s.hcr.handover = [] → 
     Acts (.proposalLoaded true) s fun t => t.bwt = { s.bwt with image := image } ∧ t.proposal = 0 ∧ t.get Reg.BWT_PROP_STATUS_RESULT = 1 ∧ SameBut (.bwt :: reports) s t ∧ RegsBut [Reg.BWT_PROP_STATUS_STATE, Reg.BWT_PROP_STATUS_RESULT, Reg.BWT_PROP_STATUS_CLASSES, ⟨cntBwt 2, 0, 64⟩] s t) ∧
    (∀ (readOk : Bool) (u : State) (words : List (Nat × Nat)), s.proposal = 1 → s.bwt.fromHead = true → s.put Reg.BWT_PROP_STATUS_STATE 2 = u → u.imageWords s.bwt.image = some words → (u.put Reg.BWT_PROP_STATUS_CLASSES (classesOf words)).proposalFaults words = [] → 
     Acts (.proposalLoaded readOk) s fun t => t.proposal = 3 ∧ t.get Reg.BWT_PROP_STATUS_CLASSES = classesOf words % 65536 ∧ t.bwt = { s.bwt with pendingAt := s.aon } ∧ SameBut (.bwt :: reports) s t ∧ RegsBut [Reg.BWT_PROP_STATUS_STATE, Reg.BWT_PROP_STATUS_CLASSES] s t) ∧
    (∀ (readOk : Bool) (u : State) (words : List (Nat × Nat)) (e : Option UnitEvent) (l : List (Option UnitEvent)), s.proposal = 1 → s.bwt.fromHead = true → s.put Reg.BWT_PROP_STATUS_STATE 2 = u → u.imageWords s.bwt.image = some words → (u.put Reg.BWT_PROP_STATUS_CLASSES (classesOf words)).proposalFaults words = e :: l → s.hcr.handover = [] → 
     Acts (.proposalLoaded readOk) s fun t => t.bwt = s.bwt ∧ t.proposal = 0 ∧ t.get Reg.BWT_PROP_STATUS_RESULT = 1 ∧ SameBut (.bwt :: reports) s t ∧ RegsBut [Reg.BWT_PROP_STATUS_STATE, Reg.BWT_PROP_STATUS_RESULT, Reg.BWT_PROP_STATUS_CLASSES, ⟨cntBwt 2, 0, 64⟩] s t) ∧
    (∀ (n : Nat), s.proposal = 1 → s.bwt.fromHead = false → leNat (s.hostMem.readBytes (8 * s.get Reg.BWT_PROP_ADDR_ADDR + 12) 4) = n → n < 32 ∨ 1048576 < n → s.hcr.handover = [] → 
     Acts (.proposalLoaded true) s fun t => t.bwt = { s.bwt with image := s.hostMem.readBytes (8 * s.get Reg.BWT_PROP_ADDR_ADDR) 32 } ∧ t.proposal = 0 ∧ t.get Reg.BWT_PROP_STATUS_RESULT = 9 ∧ SameBut (.bwt :: reports) s t ∧ RegsBut [Reg.BWT_PROP_STATUS_STATE, Reg.BWT_PROP_STATUS_RESULT, ⟨cntBwt 2, 0, 64⟩] s t) ∧
    (s.proposal = 1 → s.bwt.fromHead = false → s.hcr.handover = [] → 
     Acts (.proposalLoaded false) s fun t => t.bwt = s.bwt ∧ t.proposal = 0 ∧ t.get Reg.BWT_PROP_STATUS_RESULT = 9 ∧ SameBut (.bwt :: reports) s t ∧ RegsBut [Reg.BWT_PROP_STATUS_STATE, Reg.BWT_PROP_STATUS_RESULT, ⟨cntBwt 2, 0, 64⟩] s t) ∧
    (∀ (readOk : Bool), s.proposal ≠ 1 → 
     Acts (.proposalLoaded readOk) s fun t => t = s) ∧
    (s.proposal = 3 → s.bwt.pendingAt + 40000000 ≤ s.aon → s.hcr.handover = [] → 
     Acts .proposalExpired s fun t => t.bwt = s.bwt ∧ t.proposal = 0 ∧ t.get Reg.BWT_PROP_STATUS_RESULT = 4 ∧ SameBut (.bwt :: reports) s t ∧ RegsBut [Reg.BWT_PROP_STATUS_STATE, Reg.BWT_PROP_STATUS_RESULT, ⟨cntBwt 2, 0, 64⟩] s t) ∧
    (s.proposal ≠ 3 ∨ s.aon < s.bwt.pendingAt + 40000000 → 
     Acts .proposalExpired s fun t => t = s)

/-- R485: STATUS answers with the state of the proposal, READ with bytes of the PENDING image, 0 beyond its end, each with its CRC-16; a frame that is broken, unknown or out of range has no effect and no response and is counted. R487: a CONFIRM of SEQ and DIGEST within 100 ms commits; one that differs refuses with subcode 2 or 3; a REJECT of the SEQ with 5; outside PENDING none has an effect. R488: a commit writes every value of the image and records SEQ and digest; stated where it does not lower the rate of a planned run; R490: one that clears the exposure enable stops the run as EXPOSE_PERMIT does. That guard frames are ignored while boundary scan holds the units in reset is read from R529. That a READ outside PENDING has no response is the model's reading. -/
def Obligations.guard_port : Prop :=
  ∀ s : State,
    (∀ (frame : List Byte), s.obs.heldInReset = false → guardGood frame = true → fieldAt frame 0 1 = 0x0B → 
     Acts (.grdStatus frame) s fun t => t.bwt = { s.bwt with response := t.bwt.response } ∧ t.bwt.response = (let b := leBytes 1 s.proposal ++ leBytes 1 (s.get Reg.BWT_PROP_STATUS_RESULT) ++ leBytes 2 (s.get Reg.BWT_PROP_STATUS_CLASSES) ++ leBytes 4 (fieldAt s.bwt.image 4 4) ++ leBytes 4 s.proposalDigest ++ leBytes 4 s.bwt.image.length ++ leBytes 4 s.remainUs ++ leBytes 1 (flag s.bwt.permit + 2 * s.get Reg.BWT_ENABLE_EN + 4 * s.get Reg.HLK_STATUS_BLANK) ++ leBytes 3 0
     b ++ leBytes 2 (setpointCrc b)) ∧ SameBut [.bwt] s t) ∧
    (∀ (frame : List Byte), s.obs.heldInReset = false → guardGood frame = true → fieldAt frame 0 1 = 0x0C → s.proposal = 3 → 
     Acts (.grdRead frame) s fun t => t.bwt = { s.bwt with response := t.bwt.response } ∧ t.bwt.response.length = fieldAt frame 5 2 + 2 ∧ (∀ k < fieldAt frame 5 2, t.bwt.response.getD k 0 = s.bwt.image.getD (fieldAt frame 1 4 + k) 0) ∧ (t.bwt.response.drop (fieldAt frame 5 2)) = leBytes 2 (setpointCrc (t.bwt.response.take (fieldAt frame 5 2))) ∧ SameBut [.bwt] s t) ∧
    (∀ (frame : List Byte), s.obs.heldInReset = false → guardGood frame = true → fieldAt frame 0 1 = 0x0C → s.proposal ≠ 3 → 
     Acts (.grdRead frame) s fun t => t = { s with bwt := { s.bwt with response := [] } }) ∧
    (∀ (frame : List Byte), s.obs.heldInReset = false → guardGood frame = true → fieldAt frame 0 1 = 0x0D → s.proposal = 3 → s.aon < s.bwt.pendingAt + 40000000 → fieldAt frame 1 4 ≠ s.proposalSeq → s.hcr.handover = [] → 
     Acts (.grdConfirm frame) s fun t => t.bwt = { s.bwt with response := [] } ∧ t.proposal = 0 ∧ t.get Reg.BWT_PROP_STATUS_RESULT = 2 ∧ SameBut (.bwt :: reports) s t ∧ RegsBut [Reg.BWT_PROP_STATUS_STATE, Reg.BWT_PROP_STATUS_RESULT, ⟨cntBwt 2, 0, 64⟩] s t) ∧
    (∀ (frame : List Byte), s.obs.heldInReset = false → guardGood frame = true → fieldAt frame 0 1 = 0x0D → s.proposal = 3 → s.aon < s.bwt.pendingAt + 40000000 → fieldAt frame 1 4 = s.proposalSeq → fieldAt frame 5 4 ≠ s.proposalDigest → s.hcr.handover = [] → 
     Acts (.grdConfirm frame) s fun t => t.bwt = { s.bwt with response := [] } ∧ t.proposal = 0 ∧ t.get Reg.BWT_PROP_STATUS_RESULT = 3 ∧ SameBut (.bwt :: reports) s t ∧ RegsBut [Reg.BWT_PROP_STATUS_STATE, Reg.BWT_PROP_STATUS_RESULT, ⟨cntBwt 2, 0, 64⟩] s t) ∧
    (∀ (frame : List Byte) (words : List (Nat × Nat)), s.obs.heldInReset = false → guardGood frame = true → fieldAt frame 0 1 = 0x0D → s.proposal = 3 → s.aon < s.bwt.pendingAt + 40000000 → fieldAt frame 1 4 = s.proposalSeq → fieldAt frame 5 4 = s.proposalDigest → s.imageWords s.bwt.image = some words → s.get Reg.BWT_ENABLE_EN = 0 ∨ rfGet (committed s.regs words) Reg.BWT_ENABLE_EN = 1 → s.tid.plans = [] ∨ s.get Reg.BWT_MAX_RATE_HZ ≤ rfGet (committed s.regs words) Reg.BWT_MAX_RATE_HZ → s.hcr.handover = [] → 
     Acts (.grdConfirm frame) s fun t => t.proposal = 0 ∧ t.get Reg.BWT_PROP_STATUS_RESULT = 0 ∧ t.get Reg.BWT_SEQ_COMMITTED = s.proposalSeq ∧ t.get Reg.BWT_LAST_DIGEST_DIGEST = s.proposalDigest ∧ (∀ g : Field, g.Quiet → (∀ f ∈ [Reg.BWT_PROP_STATUS_STATE, Reg.BWT_PROP_STATUS_RESULT, Reg.BWT_SEQ_COMMITTED, Reg.BWT_LAST_DIGEST_DIGEST, ⟨cntBwt 0, 0, 64⟩, Reg.HLK_GEOM_GEN_COMMITTED, Reg.HCR_GEN_ALIGN_GEN, Reg.HCR_STATUS_STUCK, Reg.HCR_STATUS_UNMEASURED, Reg.HCR_STATUS_NEW_DEAD, Reg.HCR_STATUS_LATCHED_DEAD, Reg.HCR_STATUS_HOLD, Reg.HLK_STATUS_BLANK], f.Apart g) → t.get g = rfGet (committed (s.put Reg.BWT_PROP_STATUS_STATE 4).regs words) g) ∧ t.bwt.image = s.bwt.image ∧ t.bwt.response = [] ∧ t.bwt.permit = s.bwt.permit ∧ (s.openStrip = none → t.box = s.box) ∧ SameBut (.bwt :: .box :: reports) s t) ∧
    (∀ (frame : List Byte) (words : List (Nat × Nat)) (st : Strip), s.obs.heldInReset = false → guardGood frame = true → fieldAt frame 0 1 = 0x0D → s.proposal = 3 → s.aon < s.bwt.pendingAt + 40000000 → fieldAt frame 1 4 = s.proposalSeq → fieldAt frame 5 4 = s.proposalDigest → s.imageWords s.bwt.image = some words → s.get Reg.BWT_ENABLE_EN = 1 ∧ rfGet (committed s.regs words) Reg.BWT_ENABLE_EN = 0 → s.tid.plans = [] → s.hcr.handover = [] → s.firing = true → s.openStrip = some st → s.seq.prompt = none → 
     Acts (.grdConfirm frame) s fun t => t.get Reg.EXP_STATE_STATE = 6 ∧ t.get Reg.EXP_BREAK_CAUSE = 3 ∧ t.get Reg.EXP_BREAK_KIND = 1 ∧ t.exposing = false ∧ t.get Reg.BWT_ENABLE_EN = 0 ∧ t.proposal = 0 ∧ t.get Reg.BWT_PROP_STATUS_RESULT = 0) ∧
    (∀ (frame : List Byte), s.obs.heldInReset = false → guardGood frame = true → fieldAt frame 0 1 = 0x0D → s.proposal ≠ 3 ∨ s.bwt.pendingAt + 40000000 ≤ s.aon → 
     Acts (.grdConfirm frame) s fun t => t = { s with bwt := { s.bwt with response := [] } }) ∧
    (∀ (frame : List Byte), s.obs.heldInReset = false → guardGood frame = true → fieldAt frame 0 1 = 0x0E → s.proposal = 3 → s.aon < s.bwt.pendingAt + 40000000 → fieldAt frame 1 4 = s.proposalSeq → s.hcr.handover = [] → 
     Acts (.grdReject frame) s fun t => t.bwt = { s.bwt with response := [] } ∧ t.proposal = 0 ∧ t.get Reg.BWT_PROP_STATUS_RESULT = 5 ∧ SameBut (.bwt :: reports) s t ∧ RegsBut [Reg.BWT_PROP_STATUS_STATE, Reg.BWT_PROP_STATUS_RESULT, ⟨cntBwt 2, 0, 64⟩] s t) ∧
    (∀ (frame : List Byte), s.obs.heldInReset = false → guardGood frame = true → fieldAt frame 0 1 = 0x0E → s.proposal ≠ 3 ∨ fieldAt frame 1 4 ≠ s.proposalSeq ∨ s.bwt.pendingAt + 40000000 ≤ s.aon → 
     Acts (.grdReject frame) s fun t => t = { s with bwt := { s.bwt with response := [] } }) ∧
    (∀ (frame : List Byte) (d : Instr), (d = .grdStatus frame ∨ d = .grdRead frame ∨ d = .grdConfirm frame ∨ d = .grdReject frame) → s.obs.heldInReset = true → 
     Acts d s fun t => t = s) ∧
    (∀ (frame : List Byte) (d : Instr), (d = .grdStatus frame ∨ d = .grdRead frame ∨ d = .grdConfirm frame ∨ d = .grdReject frame) → s.obs.heldInReset = false → guardGood frame = false → 
     Acts d s fun t => t.bwt = { s.bwt with response := [], frameRaisedAt := t.bwt.frameRaisedAt } ∧ SameBut (.bwt :: reports) s t ∧ RegsBut [⟨cntBwt 1, 0, 64⟩] s t)

/-- R489: EXPOSE_PERMIT low blanks the head; in EXPOSE and RESUME it enters BREAK by the hardware stop with CAUSE 3, in FLOOD it abandons FLOOD, elsewhere no sequencer state changes (R316: an open strip then waits for the host); during a warm reset (R517) the head is blanked and nothing further happens; it counts as asserted again after 1 ms, and its return changes no register, the head's blanking among them. R493: the value read back after a burn is the value in force, and burnt fuses never revert. -/
def Obligations.permit_and_fuses : Prop :=
  ∀ s : State,
    (s.pwr.warm = none → s.openStrip = none → 
     Acts .permitDeassert s fun t => t.bwt = { s.bwt with permit := false, permitFellAt := some s.aon } ∧ t.exposing = false ∧ SameBut (.bwt :: reports) s t ∧ RegsBut [Reg.HLK_STATUS_BLANK, ⟨cntBwt 3, 0, 64⟩] s t) ∧
    (∀ (st : Strip), s.pwr.warm = none → s.openStrip = some st → s.firing = false → s.get Reg.EXP_STATE_STATE ≠ 3 → 
     Acts .permitDeassert s fun t => t.bwt = { s.bwt with permit := false, permitFellAt := some s.aon } ∧ t.exposing = false ∧ t.get Reg.EXP_STATE_STATE = s.get Reg.EXP_STATE_STATE ∧ SameBut (.bwt :: .box :: reports) s t) ∧
    (∀ (st : Strip), s.pwr.warm = none → s.firing = true → s.openStrip = some st → s.seq.prompt = none → 
     Acts .permitDeassert s fun t => t.get Reg.EXP_STATE_STATE = 6 ∧ t.get Reg.EXP_BREAK_CAUSE = 3 ∧ t.get Reg.EXP_BREAK_KIND = 1 ∧ t.exposing = false ∧ t.bwt.permit = false ∧ t.get Reg.TID_TICK_STATE = 0) ∧
    (∀ (st : Strip), s.pwr.warm = none → s.get Reg.EXP_STATE_STATE = 3 → s.openStrip = some st → 
     Acts .permitDeassert s fun t => t.get Reg.EXP_STATE_STATE = 5 ∧ t.exposing = false ∧ t.bwt.permit = false ∧ t.seq.afterFlood = some .retry ∧ t.tid.armedAt = none) ∧
    (∀ (w : WarmReset), s.pwr.warm = some w → w.unitsDone = false → 
     Acts .permitDeassert s fun t => t.bwt = { s.bwt with permit := false, permitFellAt := some s.aon } ∧ t.exposing = false ∧ t.pwr.warm.isSome = true ∧ SameBut (.bwt :: .pwr :: reports) s t ∧ RegsBut [Reg.HLK_STATUS_BLANK, ⟨cntBwt 3, 0, 64⟩] s t) ∧
    (s.bwt.permit = false → (∀ q, s.bwt.permitFellAt = some q → q + 400000 ≤ s.aon) → 
     Acts .permitRestored s fun t => t.bwt = { s.bwt with permit := true } ∧ SameBut (.bwt :: reports) s t ∧ RegsBut [] s t) ∧
    (s.bwt.permit = true → 
     Acts .permitRestored s fun t => t = s) ∧
    (∀ (q : Nat), s.bwt.permitFellAt = some q → s.aon < q + 400000 → 
     Acts .permitRestored s fun t => t = s) ∧
    (∀ (value : Fin 65) (n : Nat), s.bwt.burning = some n → s.get Reg.BWT_SVN_REQ_OTP ≤ value.val → 
     Acts (.svnBurnDone value) s fun t => t.bwt = { s.bwt with burning := none } ∧ t.get Reg.BWT_SVN_REQ_OTP = value.val ∧ SameBut (.bwt :: reports) s t ∧ RegsBut [Reg.BWT_SVN_REQ_OTP] s t) ∧
    (∀ (value : Fin 65), s.bwt.burning = none ∨ value.val < s.get Reg.BWT_SVN_REQ_OTP → 
     Acts (.svnBurnDone value) s fun t => t = s)

/-- R520, R521: a SYNC packet goes to every enabled destination as tide time passes a multiple of 2^20, and a DRAM packet of each channel every microsecond; R524: the ring holds the packet's bytes at OBS_RING_WR, which advances, and starts at 0 when it is enabled, with a SYNC. R525: the ring freezes when the bytes after the trigger are in, and EN written 1 clears both flags. R522: a packet that a full buffer, or in STREAM mode a full ring, cannot take is dropped and counted. R530: the ring's set-up is written only while the ring is disabled. The counters of packets are outside these clauses (log entry 17). -/
def Obligations.trace_packets_and_registers : Prop :=
  ∀ s : State,
    (s.tide % 2 ^ 20 = 0 → s.domainOn 1 = true → s.get Reg.OBS_CTRL_PORT_EN = 1 → s.get Reg.OBS_CTRL_RING_EN = 0 → s.obs.port.lost = 0 → s.obs.port.fill + 400 * 32 ≤ 400 * 262144 → 
     Acts .traceSync s fun t => t.obs = { s.obs with port := t.obs.port } ∧ t.obs.port.seq = (s.obs.port.seq + 1) % 65536 ∧ t.obs.port.lost = 0 ∧ t.obs.port.out = leBytes 1 1 ++ leBytes 1 1 ++ leBytes 2 s.obs.port.seq ++ leBytes 4 s.tide ++ leBytes 4 (s.tide / 2 ^ 32) ++ leBytes 2 (s.get Reg.TIM_STATUS_EPOCH) ++ leBytes 2 0 ++ leBytes 8 s.headTime ++ leBytes 8 s.ptpTime ∧ SameBut [.regs, .obs] s t ∧ RegsBut [] s t) ∧
    (s.tide % 2 ^ 20 = 0 → s.domainOn 1 = true → s.get Reg.OBS_CTRL_PORT_EN = 1 → s.get Reg.OBS_CTRL_RING_EN = 0 → s.obs.port.hasRoom 1000 s.tide (s.obs.port.offered 1 s.tide s.syncPayload).1 = false → 
     Acts .traceSync s fun t => t.obs = { s.obs with port := { s.obs.port with seq := (s.obs.port.seq + 1) % 65536, lost := s.obs.port.lost + 1, dropped := s.obs.port.dropped + 1 } } ∧ SameBut [.regs, .obs] s t ∧ RegsBut [⟨cntObs 2, 0, 64⟩] s t) ∧
    (s.tide % 2 ^ 20 = 0 → s.domainOn 1 = true → s.get Reg.OBS_CTRL_PORT_EN = 0 → s.get Reg.OBS_CTRL_RING_EN = 1 → s.get Reg.HST_STATUS_LINK_UP = 1 → s.get Reg.OBS_RING_CFG_MODE = 1 → s.obs.ring.lost = 0 → s.get Reg.OBS_STATUS_RING_FROZEN = 0 ∧ s.get Reg.OBS_STATUS_TRIGGERED = 0 → s.get Reg.OBS_RING_WR_OFF + 32 ≤ 2 ^ s.get Reg.OBS_RING_CFG_SIZE → s.get Reg.OBS_RING_SHADOW_ADDR = 0 → s.obs.ring.seq < 65536 → s.obs.ring.fill + 400 * 32 ≤ 400 * 262144 → s.host.d3hot = false → 
     Acts .traceSync s fun t => t.hostMem.readBytes (4096 * s.get Reg.OBS_RING_BASE_BASE + s.get Reg.OBS_RING_WR_OFF) 32 = leBytes 1 1 ++ leBytes 1 1 ++ leBytes 2 s.obs.ring.seq ++ leBytes 4 s.tide ++ leBytes 4 (s.tide / 2 ^ 32) ++ leBytes 2 (s.get Reg.TIM_STATUS_EPOCH) ++ leBytes 2 0 ++ leBytes 8 s.headTime ++ leBytes 8 s.ptpTime ∧ t.get Reg.OBS_RING_WR_OFF = (s.get Reg.OBS_RING_WR_OFF + 32) % 2 ^ s.get Reg.OBS_RING_CFG_SIZE % 2 ^ 32 ∧ t.obs.ring.seq = (s.obs.ring.seq + 1) % 65536 ∧ t.obs.ring.lost = 0 ∧ t.obs.port = s.obs.port ∧ SameBut [.regs, .hostMem, .obs] s t) ∧
    (s.tide % 2 ^ 20 = 0 → s.domainOn 1 = true → s.get Reg.OBS_CTRL_PORT_EN = 0 → s.get Reg.OBS_CTRL_RING_EN = 1 → s.get Reg.OBS_RING_CFG_MODE = 0 → s.get Reg.OBS_STATUS_RING_FROZEN = 0 ∧ s.get Reg.OBS_STATUS_TRIGGERED = 0 → ringRoom (2 ^ s.get Reg.OBS_RING_CFG_SIZE) (s.get Reg.OBS_RING_WR_OFF) (s.get Reg.OBS_RING_RD_OFF) < 32 → 
     Acts .traceSync s fun t => t.obs = { s.obs with ring := { s.obs.ring with seq := (s.obs.ring.seq + 1) % 65536, lost := s.obs.ring.lost + 1, dropped := s.obs.ring.dropped + 1 } } ∧ t.hostMem = s.hostMem ∧ SameBut [.regs, .obs] s t ∧ RegsBut [⟨cntObs 3, 0, 64⟩] s t) ∧
    (s.tide % 2 ^ 20 ≠ 0 ∨ s.domainOn 1 = false → 
     Acts .traceSync s fun t => t = s) ∧
    (s.domainOn 1 = true → s.get Reg.OBS_CTRL_PORT_EN = 1 ∧ s.get Reg.OBS_CTRL_RING_EN = 0 → bitAt (s.get Reg.OBS_SRC_PORT_MASK) 9 = true → s.obs.port.lost = 0 → s.obs.port.fill + 400 * 96 ≤ 400 * 262144 → 
     Acts .traceDramSample s fun t => t.mem = { s.mem with channels := s.mem.channels.map (fun c => { c with refreshed := false, feedReads := 0, otherReads := 0, writes := 0 }) } ∧ t.obs.port.seq = (s.obs.port.seq + 6) % 65536 ∧ SameBut [.regs, .obs, .mem] s t) ∧
    (s.get Reg.OBS_STATUS_TRIGGERED = 1 → s.obs.postLeft = 0 → s.get Reg.OBS_STATUS_RING_FROZEN = 0 → 
     Acts .ringFreeze s fun t => t.get Reg.OBS_STATUS_RING_FROZEN = 1 ∧ SameBut [.regs] s t ∧ RegsBut [Reg.OBS_STATUS_RING_FROZEN] s t) ∧
    (s.get Reg.OBS_STATUS_TRIGGERED = 0 ∨ 0 < s.obs.postLeft → 
     Acts .ringFreeze s fun t => t = s) ∧
    (∀ (v : Word), s.domainOn 1 = true → s.get Reg.OBS_CTRL_PORT_EN = 0 → v.toNat % 2 = 1 → v.toNat / 2 % 2 = 0 ∨ s.get Reg.OBS_CTRL_RING_EN = 1 → s.obs.port.lost = 0 → s.obs.port.fill + 400 * 32 ≤ 400 * 262144 → 
     Acts (.obsCtrlWrite v) s fun t => t.get Reg.OBS_CTRL_PORT_EN = 1 ∧ t.get Reg.OBS_CTRL_RING_EN = v.toNat / 2 % 2 ∧ t.obs = { s.obs with port := t.obs.port } ∧ t.obs.port.seq = (s.obs.port.seq + 1) % 65536 ∧ t.obs.port.out = leBytes 1 1 ++ leBytes 1 1 ++ leBytes 2 s.obs.port.seq ++ leBytes 4 s.tide ++ leBytes 4 (s.tide / 2 ^ 32) ++ leBytes 2 (s.get Reg.TIM_STATUS_EPOCH) ++ leBytes 2 0 ++ leBytes 8 s.headTime ++ leBytes 8 s.ptpTime ∧ SameBut [.regs, .obs] s t ∧ RegsBut [Reg.OBS_CTRL_PORT_EN, Reg.OBS_CTRL_RING_EN] s t) ∧
    (∀ (v : Word), s.domainOn 1 = true → s.get Reg.OBS_CTRL_PORT_EN = 0 ∧ s.get Reg.OBS_CTRL_RING_EN = 0 → v.toNat % 4 = 2 → s.get Reg.HST_STATUS_LINK_UP = 1 → s.get Reg.OBS_STATUS_RING_FROZEN = 0 ∧ s.get Reg.OBS_STATUS_TRIGGERED = 0 → 16 ≤ s.get Reg.OBS_RING_CFG_SIZE → s.get Reg.OBS_RING_SHADOW_ADDR = 0 → s.obs.ring.fill + 400 * 32 ≤ 400 * 262144 → s.host.d3hot = false → 
     Acts (.obsCtrlWrite v) s fun t => t.get Reg.OBS_CTRL_RING_EN = 1 ∧ t.get Reg.OBS_CTRL_PORT_EN = 0 ∧ t.get Reg.OBS_RING_WR_OFF = 32 ∧ t.get Reg.OBS_RING_RD_OFF = 0 ∧ (t.hostMem.read (4096 * s.get Reg.OBS_RING_BASE_BASE)).toNat = 1 ∧ SameBut [.regs, .hostMem, .obs] s t) ∧
    (∀ (v : Word), s.domainOn 1 = true → v.toNat % 2 = 0 ∨ s.get Reg.OBS_CTRL_PORT_EN = 1 → v.toNat / 2 % 2 = 0 ∨ s.get Reg.OBS_CTRL_RING_EN = 1 → 
     Acts (.obsCtrlWrite v) s fun t => t.get Reg.OBS_CTRL_PORT_EN = v.toNat % 2 ∧ t.get Reg.OBS_CTRL_RING_EN = v.toNat / 2 % 2 ∧ t.obs = s.obs ∧ SameBut [.regs] s t) ∧
    (∀ (off : BitVec 25) (wide : Bool) (v : BitVec 64), off.toNat = 0x01500030 ∧ wide = true → s.domainOn 1 = true → v.getLsbD 63 = true → 
     Acts (.obsTrigWrite off wide v) s fun t => Wrote 0x01500030 true v s t ∧ t.get Reg.OBS_STATUS_TRIGGERED = 0 ∧ t.get Reg.OBS_STATUS_RING_FROZEN = 0 ∧ SameBut [.regs] s t) ∧
    (∀ (off : BitVec 25) (wide : Bool) (v : BitVec 64), (off.toNat = 0x01500030 ∧ wide = false) ∨ (off.toNat = 0x01500034 ∧ wide = false ∧ v.getLsbD 31 = false) → s.domainOn 1 = true → 
     Acts (.obsTrigWrite off wide v) s fun t => Wrote off.toNat false v s t ∧ t.get Reg.OBS_STATUS_TRIGGERED = s.get Reg.OBS_STATUS_TRIGGERED ∧ t.get Reg.OBS_STATUS_RING_FROZEN = s.get Reg.OBS_STATUS_RING_FROZEN ∧ SameBut [.regs] s t) ∧
    (∀ (off : BitVec 25) (wide : Bool) (v : BitVec 64), alignedAccess off.toNat wide = true → natMem off.toNat [0x01500010, 0x01500014, 0x01500018, 0x01500028, 0x0150002C] = true → s.get Reg.OBS_CTRL_RING_EN = 1 → 
     Acts (.obsConfigWrite off wide v) s fun t => Reported [] s t) ∧
    (∀ (off : BitVec 25) (wide : Bool) (v : BitVec 64), alignedAccess off.toNat wide = true → natMem off.toNat [0x01500010, 0x01500014, 0x01500018, 0x01500028, 0x0150002C] = true → s.get Reg.OBS_CTRL_RING_EN = 0 → s.domainOn 1 = true → 
     Acts (.obsConfigWrite off wide v) s fun t => Wrote off.toNat wide v s t ∧ SameBut [.regs] s t)

/-- R528: GO latches the 2,384 counters of the catalogue and the tide time, and clears DONE; while one is in progress it has no effect; the entries and the end entry are then written at OBS_SNAP_ADDR, and DONE is set. R529: an instruction is loaded; EXTEST, CLAMP and HIGHZ hold every unit in cold reset while OBS_BSCAN_EN is high and act as BYPASS otherwise; Test-Logic-Reset leaves them by a cold reset with cause PERST. What registers outlast the cold reset is the model's choice (log entry 46); the layout of IDCODE is that of IEEE 1149.1 (log entry 48). -/
def Obligations.snapshots_and_boundary_scan : Prop :=
  ∀ s : State,
    (s.get Reg.OBS_STATUS_SNAP_BUSY = 0 → s.domainOn 1 = true → 
     Acts .snapshotGo s fun t => t.obs = { s.obs with snapshot := catalogue.map s.latchCounter, snapTime := s.tide } ∧ t.obs.snapshot.length = 2384 ∧ t.get Reg.OBS_STATUS_SNAP_BUSY = 1 ∧ t.get Reg.OBS_SNAP_CTRL_GO = 1 ∧ t.get Reg.OBS_SNAP_CTRL_DONE = 0 ∧ SameBut [.regs, .obs] s t ∧ RegsBut [Reg.OBS_STATUS_SNAP_BUSY, Reg.OBS_SNAP_CTRL_GO, Reg.OBS_SNAP_CTRL_DONE] s t) ∧
    (s.get Reg.OBS_STATUS_SNAP_BUSY = 1 → s.domainOn 1 = true → 
     Acts .snapshotGo s fun t => t = s) ∧
    (∀ (l : List (Nat × Bool × Nat)), s.get Reg.OBS_STATUS_SNAP_BUSY = 1 → s.get Reg.HST_STATUS_LINK_UP = 1 → s.host.d3hot = false → s.get Reg.OBS_CTRL_RING_EN = 0 → s.obs.snapshot ++ [(0xFFFFFFFF, false, s.obs.snapTime)] = l → 
     Acts .snapshotDone s fun t => t.hostMem = s.hostMem.writeBytes (64 * s.get Reg.OBS_SNAP_ADDR_ADDR) (l.flatMap (fun e => leBytes 4 e.1 ++ leBytes 1 (flag e.2.1) ++ leBytes 3 0 ++ leBytes 8 e.2.2)) ∧ t.get Reg.OBS_STATUS_SNAP_BUSY = 0 ∧ t.get Reg.OBS_SNAP_CTRL_GO = 0 ∧ t.get Reg.OBS_SNAP_CTRL_DONE = 1 ∧ t.obs.snapshot = [] ∧ SameBut reports s t) ∧
    (s.get Reg.OBS_STATUS_SNAP_BUSY = 0 ∨ s.get Reg.HST_STATUS_LINK_UP = 0 → 
     Acts .snapshotDone s fun t => t = s) ∧
    (s.obs.heldInReset = false → 
     Acts .bypass s fun t => t.obs = { s.obs with scan := .bypass, dataReg := 0 } ∧ SameBut [.obs] s t) ∧
    (s.obs.heldInReset = false → 
     Acts .idcode s fun t => t.obs = { s.obs with scan := .idcode, dataReg := t.obs.dataReg } ∧ t.obs.dataReg.toNat / 2 ^ 12 = 0x12600 ∧ t.obs.dataReg.toNat % 2 = 1 ∧ SameBut [.obs] s t) ∧
    (s.obs.heldInReset = false → 
     Acts .samplePreload s fun t => t.obs = { s.obs with scan := .samplePreload, dataReg := t.obs.dataReg } ∧ SameBut [.obs, .free] s t) ∧
    (∀ (d : Instr) (i : ScanInstr), (d = .extest ∧ i = .extest) ∨ (d = .clamp ∧ i = .clamp) ∨ (d = .highz ∧ i = .highz) → s.obs.bscanEnable = true → 
     Acts d s fun t => t.obs.scan = i ∧ t.obs.heldInReset = true ∧ (∀ g : Field, g.Sound → (∀ f ∈ coldKeeps, f.Apart g) → t.get g = State.reset.get g) ∧ t.exposing = false ∧ t.host.jobs = [] ∧ t.box.strips = [] ∧ t.dram = [] ∧ t.hostMem = s.hostMem ∧ t.pending = s.pending) ∧
    (∀ (d : Instr) (i : ScanInstr), (d = .extest ∧ i = .extest) ∨ (d = .clamp ∧ i = .clamp) ∨ (d = .highz ∧ i = .highz) → s.obs.bscanEnable = false → s.obs.heldInReset = false → 
     Acts d s fun t => t.obs = { s.obs with scan := .bypass, dataReg := 0 } ∧ SameBut [.obs, .free] s t) ∧
    (s.obs.heldInReset = false → 
     Acts .testLogicReset s fun t => t.obs = { s.obs with scan := .idcode, dataReg := t.obs.dataReg } ∧ SameBut [.obs] s t) ∧
    (s.obs.heldInReset = true → s.pwr.ok = true ∧ s.pwr.step1 = true ∧ s.host.perstLow = false → 
     Acts .testLogicReset s fun t => t.obs.scan = .idcode ∧ t.obs.heldInReset = false ∧ t.get ⟨0x01400010, 1, 1⟩ = 1 ∧ t.get Reg.PWR_BRINGUP_STEP = 2 ∧ t.exposing = false ∧ t.host.jobs = [] ∧ t.box.strips = [] ∧ t.dram = []) ∧
    (s.obs.heldInReset = true → s.pwr.ok = false ∨ s.host.perstLow = true → 
     Acts .testLogicReset s fun t => t.obs.scan = .idcode ∧ t.obs.heldInReset = false ∧ t.get ⟨0x01400010, 1, 1⟩ = 1 ∧ t.get Reg.PWR_BRINGUP_STEP = 0 ∧ t.exposing = false)

/-- R17: the integer operations of the pseudocode, as the model computes them: div is the floor of the quotient, mod the remainder in 0 to d − 1, a shift right the div by a power of two, clamp the nearer limit, and round-half-up the nearest integer, with exact halves toward positive infinity. -/
def Obligations.integer_operations : Prop :=
  ∀ a d v lo hi : Int, 0 < d →
    (d * idiv a d ≤ a ∧ a < d * (idiv a d + 1)) ∧
    (a % d = a - d * idiv a d ∧ 0 ≤ a % d ∧ a % d ≤ d - 1) ∧
    (∀ k : Nat, a >>> k = idiv a (2 ^ k)) ∧
    (v < lo → clampInt v lo hi = lo) ∧ (lo ≤ v → hi < v → clampInt v lo hi = hi) ∧
      (lo ≤ v → v ≤ hi → clampInt v lo hi = v) ∧
    (roundHalfUp a d = idiv (2 * a + d) (2 * d) ∧ 2 * (a - d * roundHalfUp a d) < d ∧ -d ≤ 2 * (a - d * roundHalfUp a d))

/-- R8: delay(b, c) = b·BAND_PITCH + c·ROW_PITCH + align(b, c). R38, R39: in swash a row fires line t − delay at tick t, in backwash line N − 1 − t + (E − 1 − delay), in decreasing order, E being four band pitches. R32: beam (b, c, k), index 512·(128·b + c) + k, writes pixel column 128·k + c, and no other. -/
def Obligations.rows_lines_and_columns : Prop :=
  ∀ (rf : RegFile) (b c k : Nat) (n : Nat) (t : Int), b < 4 → c < 128 → k < 512 →
    delayOf rf (128 * b + c) = (b * rfGet rf Reg.HLK_BAND_PITCH_PITCH + c * rfGet rf Reg.HLK_ROW_PITCH_PITCH : Nat) +
      sext 16 (rfGet rf (Reg.HCR_ALIGN_ALIGN (128 * b + c))) ∧
    rawLine rf false n (128 * b + c) t = t - delayOf rf (128 * b + c) ∧
    rawLine rf true n (128 * b + c) t =
      n - 1 - t + ((4 * rfGet rf Reg.HLK_BAND_PITCH_PITCH : Nat) - 1 - delayOf rf (128 * b + c)) ∧
    (rawLine rf true n (128 * b + c) (t + 1) < rawLine rf true n (128 * b + c) t) ∧
    columnBeam b (128 * k + c) = 512 * (128 * b + c) + k ∧
    (∀ x, x < 65536 → columnBeam b x = 512 * (128 * b + c) + k → x = 128 * k + c)

/-- A command waiting at the front of the queue is run, and only that one; commands act in the order in which they were sent (R433 says it of register accesses). The queue is the model's own (log entry 1). -/
def Obligations.a_step_runs_the_front_command : Prop :=
  ∀ (s : State) (c : Instr) (rest : List Instr), s.pending = c :: rest →
    step s = exec c { s with pending := rest }

/-- The model's choice (log entry 1): with no command waiting, one tide clock of 2.5 ns passes. R258: tide time counts tide clocks; R465: the PTP clock advances by TIM_INC at each. Both stand while their power domain is down. Nothing else changes but the records of quiet of R325 and R499, the backlog of the chains (R190), a slave's STATUS (R371), the corrections that a second has gathered (R429), and what reporting lost packets and full counters changes (R522, R527). -/
def Obligations.an_idle_step_is_a_tide_clock : Prop :=
  ∀ s : State, s.pending = [] → ∃ t, step s = .next t ∧
    (t.pending = [] ∧ t.aon = s.aon + 1) ∧
    (s.domainOn 15 = true → t.tide = (s.tide + 1) % 2 ^ 64) ∧ (s.domainOn 15 = false → t.tide = s.tide) ∧
    (s.domainOn 14 = true → s.domainOn 15 = true → t.clock = clockOf (s.clock.units + s.inc)) ∧
    (s.domainOn 14 = false → t.clock = s.clock) ∧
    t.couch = { s.couch with backlog := t.couch.backlog } ∧ (s.isSlave = false → t.csc = s.csc) ∧
    t.mem = { s.mem with corrected := t.mem.corrected, sramCorrected := t.mem.sramCorrected } ∧
    (∀ ch, ch < 6 → s.mem.corrected.getD ch (0, 0) = (0, 0) → t.mem.corrected.getD ch (0, 0) = (0, 0)) ∧
    SameBut (.aon :: .tide :: .clock :: .seq :: .pwr :: .couch :: .csc :: .mem :: reports) s t ∧ RegsBut [] s t

/-- The Reset columns of the register tables, for one or two registers of each block, R14: the sequencer OFF, the exposure enable clear, the limits of dose and rate at their reset values, host work and trace disabled; and the stores in canonical form, which the next statement but one keeps. Host memory outside the device is empty by the model's choice (log entry 3). -/
def Obligations.reset_state : Prop :=
  State.reset.pending = [] ∧ State.reset.canonical = true ∧ State.reset.dram = [] ∧ State.reset.tide = 0 ∧
  (∀ d < 16, State.reset.domainOn d = decide (d = 0)) ∧ State.reset.exposing = false ∧
  State.reset.get Reg.EXP_STATE_STATE = 0 ∧
  State.reset.get Reg.TID_TICK_STATE = 0 ∧
  State.reset.get Reg.BWT_ENABLE_EN = 0 ∧
  State.reset.get Reg.BWT_DOSE_WIN_MAX_ON = 11520 ∧
  State.reset.get Reg.BWT_MAX_RATE_HZ = 2000000 ∧
  State.reset.get Reg.BWT_SEQ_COMMITTED = 0 ∧
  State.reset.get Reg.BWT_PROP_STATUS_STATE = 0 ∧
  State.reset.get Reg.HST_CTRL_EN = 0 ∧
  State.reset.get Reg.HST_STATUS_READY = 0 ∧
  State.reset.get Reg.OBS_RING_CFG_SIZE = 16 ∧
  State.reset.get Reg.OBS_RING_CFG_MAX_MBS = 1000 ∧
  State.reset.get Reg.OBS_FILT_FEED_SLACK = 0xFFFF ∧
  State.reset.get Reg.OBS_SRC_PORT_MASK = 1 ∧
  State.reset.get Reg.OBS_CTRL_RING_EN = 0 ∧
  State.reset.get Reg.TIM_CTRL_EN = 0 ∧
  State.reset.get Reg.CCH_DWELL_SLOT = 256

/-- The frame of every command, part by part: what a command can change is listed once for its row, and the rest of the machine, the queue of commands and always-on time stand. Tide time moves by a command only at a cold reset or at a power-up; DRAM contents by none of the host's own posts, aborts and resets. -/
def Obligations.no_command_touches_other_parts : Prop :=
  (∀ (c : Instr) (s t : State), exec c s = .next t → SameBut (touches c) s t ∧ t.pending = s.pending ∧ t.aon = s.aon) ∧
  (∀ (c : Instr) (s t : State), exec c s = .next t → t.tide ≠ s.tide →
    c = .perstNAssert ∨ c = .pwrOkFall ∨ c = .brownOut ∨ c = .protectiveResetEnd ∨ c = .extest ∨ c = .clamp ∨ c = .highz ∨
      c = .testLogicReset ∨ ∃ d, c = .domainPowerUp d) ∧
  (∀ (c : Instr) (s t : State), exec c s = .next t → t.dram ≠ s.dram → .dram ∈ touches c ∧ c ≠ .bwtSubmit ∧
    (∀ d, c ≠ .strip d) ∧ (∀ v, c ≠ .hstAbort v) ∧ ∀ v, c ≠ .hstReset v)

/-- From any state whose sparse stores are canonical (addresses rising, no entry equal to what an unlisted address reads as), a step, of a command or of an idle tide clock, gives one whose stores are: equal contents are equal data. -/
def Obligations.every_step_keeps_canonical_form : Prop :=
  ∀ s t : State, s.canonical = true → step s = .next t → t.canonical = true

/-- R433: a register whose power domain is down takes no write; the access is counted in HST_CNT[7] and 0x100B names it, at most once per second; the command that the access would have given has no effect. For the commands that are accesses of one register, and for plain register writes. -/
def Obligations.accesses_to_a_domain_that_is_down : Prop :=
  ∀ s : State,
    (∀ (c : Instr) (d o : Nat), accessOf c = some (d, o) → s.domainOn d = false → 
     Acts c s fun t => SameBut reports s t ∧ RegsBut [] s t ∧ t.host = { s.host with events := t.host.events, domainOffAt := t.host.domainOffAt }) ∧
    (∀ (c : Instr) (d o q : Nat), accessOf c = some (d, o) → s.domainOn d = false → s.host.domainOffAt = some q → q ≤ s.aon ∧ s.aon < q + 400000000 → s.get ⟨cntHst 7, 0, 48⟩ + 1 < 2 ^ 48 - 1 → 
     Acts c s fun t => t.get ⟨cntHst 7, 0, 48⟩ = s.get ⟨cntHst 7, 0, 48⟩ + 1 ∧ SameBut [.regs] s t) ∧
    (∀ (off : BitVec 25) (v : BitVec 64) (r : RegRow) (idx : List Nat), findRow off.toNat = some (r, idx, 0) → r.wide = false → off.toNat % 4 = 0 → canonOffset off.toNat = off.toNat → s.domainOn (domainOf off.toNat) = false → natMem r.base ownBehaviour = false → natMem r.base [0x00800010, 0x00904000, 0x01000020, 0x01000040, 0x01100108, 0x01200048, 0x01400018, 0x01500020] = false → r.fields.any (fun f => decide (f.access = .sat)) = false → 
     Acts (.registerWrite off false v) s fun t => SameBut reports s t ∧ RegsBut [] s t)

/-- R441: an event routes by its subsystem: below the route's MIN_SEV it is counted in HST_CNT[4] and not queued; it joins a queue with room; a full queue drops a new INFO or NOTE event, a new event of FAULT or above takes the place of the oldest INFO or NOTE, or is dropped if there is none, and FATAL is always queued; a drop is counted in HST_CNT[5] and sets LOST. R10, R527: a counter is 48 bits wide, stays at all ones, and raises 0x1401 once with its offset as it gets there, with SAT set. With the trace trigger not armed. -/
def Obligations.events_and_counters : Prop :=
  ∀ s : State,
    (∀ (code sev ring : Nat) (payload : List (Nat × Nat)) (q : EventRing) (e : Event), ring = s.get (Reg.HST_EV_ROUTE_RING (code / 256)) ∧ ring < s.host.events.length → s.host.events.getD ring EventRing.reset = q → e = s.eventNow code sev (packFields payload) false → s.get (Reg.HST_EV_ROUTE_MIN_SEV (code / 256)) ≤ sev ∨ sev = 4 → s.get Reg.OBS_TRIG_EN = 0 → q.queued + s.reservations ring + e.records ≤ 1024 → (s.raiseSev code sev payload).host.events.getD ring EventRing.reset = { q with queue := q.queue ++ [e] } ∧ (∀ k, k ≠ ring → (s.raiseSev code sev payload).host.events.getD k EventRing.reset = s.host.events.getD k EventRing.reset)) ∧
    (∀ (code sev ring : Nat) (payload : List (Nat × Nat)) (q : EventRing) (e : Event), ring = s.get (Reg.HST_EV_ROUTE_RING (code / 256)) ∧ ring < s.host.events.length → s.host.events.getD ring EventRing.reset = q → e = s.eventNow code sev (packFields payload) false → s.get (Reg.HST_EV_ROUTE_MIN_SEV (code / 256)) ≤ sev ∨ sev = 4 → s.get Reg.OBS_TRIG_EN = 0 → 1024 < q.queued + s.reservations ring + e.records → sev < 2 ∨ (sev ≠ 4 ∧ dropOldest q.queue = none) → s.get ⟨cntHst 5, 0, 48⟩ + 1 < 2 ^ 48 - 1 → (s.raiseSev code sev payload).host.events.getD ring EventRing.reset = { q with lost := true } ∧ (s.raiseSev code sev payload).get ⟨cntHst 5, 0, 48⟩ = s.get ⟨cntHst 5, 0, 48⟩ + 1 ∧ (∀ k, k ≠ ring → (s.raiseSev code sev payload).host.events.getD k EventRing.reset = s.host.events.getD k EventRing.reset)) ∧
    (∀ (code sev ring : Nat) (payload : List (Nat × Nat)) (q : EventRing) (e : Event) (r : List Event), ring = s.get (Reg.HST_EV_ROUTE_RING (code / 256)) ∧ ring < s.host.events.length → s.host.events.getD ring EventRing.reset = q → e = s.eventNow code sev (packFields payload) false → s.get (Reg.HST_EV_ROUTE_MIN_SEV (code / 256)) ≤ sev ∨ sev = 4 → s.get Reg.OBS_TRIG_EN = 0 → 1024 < q.queued + s.reservations ring + e.records → 2 ≤ sev → dropOldest q.queue = some r → s.get ⟨cntHst 5, 0, 48⟩ + 1 < 2 ^ 48 - 1 → (s.raiseSev code sev payload).host.events.getD ring EventRing.reset = { q with queue := r ++ [e], lost := true } ∧ (∀ k, k ≠ ring → (s.raiseSev code sev payload).host.events.getD k EventRing.reset = s.host.events.getD k EventRing.reset)) ∧
    (∀ (code sev ring : Nat) (payload : List (Nat × Nat)) (q : EventRing) (e : Event), ring = s.get (Reg.HST_EV_ROUTE_RING (code / 256)) ∧ ring < s.host.events.length → s.host.events.getD ring EventRing.reset = q → e = s.eventNow code sev (packFields payload) false → s.get (Reg.HST_EV_ROUTE_MIN_SEV (code / 256)) ≤ sev ∨ sev = 4 → s.get Reg.OBS_TRIG_EN = 0 → 1024 < q.queued + s.reservations ring + e.records → sev = 4 → dropOldest q.queue = none → (s.raiseSev code sev payload).host.events.getD ring EventRing.reset = { q with queue := q.queue ++ [e] } ∧ (∀ k, k ≠ ring → (s.raiseSev code sev payload).host.events.getD k EventRing.reset = s.host.events.getD k EventRing.reset)) ∧
    (∀ (code sev : Nat) (payload : List (Nat × Nat)), sev < s.get (Reg.HST_EV_ROUTE_MIN_SEV (code / 256)) ∧ sev ≠ 4 → s.get ⟨cntHst 4, 0, 48⟩ + 1 < 2 ^ 48 - 1 → s.get Reg.OBS_TRIG_EN = 0 → (s.raiseSev code sev payload).host = s.host ∧ (s.raiseSev code sev payload).get ⟨cntHst 4, 0, 48⟩ = s.get ⟨cntHst 4, 0, 48⟩ + 1) ∧
    (∀ (off : Nat), s.get ⟨off, 0, 48⟩ = 2 ^ 48 - 1 → s.count off = s) ∧
    (∀ (off : Nat), off ∈ catalogue → s.get ⟨off, 0, 48⟩ + 1 < 2 ^ 48 - 1 → (s.count off).get ⟨off, 0, 48⟩ = s.get ⟨off, 0, 48⟩ + 1 ∧ SameBut [.regs] s (s.count off)) ∧
    (∀ (off ring : Nat) (q : EventRing), off ∈ catalogue → Field.Quiet ⟨off, 0, 64⟩ → s.get ⟨off, 0, 48⟩ = 2 ^ 48 - 2 → ring = s.get (Reg.HST_EV_ROUTE_RING 0x14) ∧ ring < s.host.events.length → s.host.events.getD ring EventRing.reset = q → s.get (Reg.HST_EV_ROUTE_MIN_SEV 0x14) ≤ 1 → s.get Reg.OBS_TRIG_EN = 0 → q.queued + s.reservations ring + 1 ≤ 1024 → s.get ⟨cntObs 5, 0, 48⟩ + 1 < 2 ^ 48 - 1 → (s.count off).get ⟨off, 0, 48⟩ = 2 ^ 48 - 1 ∧ (s.count off).get ⟨off + 4, 31, 1⟩ = 1 ∧ (s.count off).host.events.getD ring EventRing.reset = { q with queue := q.queue ++ [s.eventNow 0x1401 1 (leBytes 4 off) false] })
end

