-- ==== Sys2Proof/Laws/Cells.lean ====
section
/-! SUPPORT. Laws of the sparse stores and of memory: read after write, and the canonical form. -/
namespace Sys2Proof.Machine

set_option Elab.async false

section Cells
variable {n : Nat} {d : Nat → BitVec n}

theorem cellGet_insert (l : List (Nat × BitVec n)) (a b : Nat) (v : BitVec n) :
    cellGet d (cellInsert l a v) b = if a = b then v else cellGet d l b := by
  induction l with
  | nil => simp [cellInsert, cellGet]
  | cons p r ih =>
    obtain ⟨k, w⟩ := p
    simp only [cellInsert]
    split
    · subst_vars; simp only [cellGet]; split <;> simp_all
    · split
      · simp only [cellGet]
      · simp only [cellGet, ih]
        split
        · subst_vars; simp_all [eq_comm]
        · rfl

theorem cellGet_drop (l : List (Nat × BitVec n)) (a b : Nat) :
    cellGet d (l.filter fun p => decide (p.1 ≠ a)) b = if a = b then d b else cellGet d l b := by
  induction l with
  | nil => simp [cellGet]
  | cons p r ih =>
    obtain ⟨k, w⟩ := p
    simp only [List.filter_cons]
    split
    · simp only [cellGet, ih]
      split <;> simp_all
      intro h; simp_all
    · simp_all [cellGet]

/-- A read after a write. -/
theorem cellGet_set (l : List (Nat × BitVec n)) (a b : Nat) (v : BitVec n) :
    cellGet d (cellSet d l a v) b = if a = b then v else cellGet d l b := by
  unfold cellSet
  split
  · rw [cellGet_drop]; split <;> simp_all
  · exact cellGet_insert l a b v

@[simp] theorem cellGet_set_same (l : List (Nat × BitVec n)) (a : Nat) (v : BitVec n) :
    cellGet d (cellSet d l a v) a = v := by simp [cellGet_set]

theorem cellGet_set_other (l : List (Nat × BitVec n)) {a b : Nat} (v : BitVec n) (h : a ≠ b) :
    cellGet d (cellSet d l a v) b = cellGet d l b := by simp [cellGet_set, h]

theorem cellWf_cons (p : Nat × BitVec n) (r : List (Nat × BitVec n)) :
    cellWf d (p :: r) = true ↔ p.2 ≠ d p.1 ∧ (∀ q ∈ r, p.1 < q.1) ∧ cellWf d r = true := by
  obtain ⟨k, v⟩ := p
  simp [cellWf, and_assoc]

theorem mem_cellInsert {l : List (Nat × BitVec n)} {a : Nat} {v : BitVec n} {q : Nat × BitVec n}
    (h : q ∈ cellInsert l a v) : q.1 = a ∨ q ∈ l := by
  induction l with
  | nil => simp_all [cellInsert]
  | cons p r ih =>
    obtain ⟨k, w⟩ := p
    simp only [cellInsert] at h
    split at h
    · simp only [List.mem_cons] at h ⊢; rcases h with h | h <;> simp_all
    · split at h
      · simp only [List.mem_cons] at h ⊢; rcases h with h | h | h <;> simp_all
      · simp only [List.mem_cons] at h ⊢
        rcases h with h | h
        · exact .inr (.inl h)
        · rcases ih h with h | h <;> simp_all

theorem cellWf_insert {l : List (Nat × BitVec n)} {a : Nat} {v : BitVec n} (hv : v ≠ d a) (h : cellWf d l = true) :
    cellWf d (cellInsert l a v) = true := by
  induction l with
  | nil => simp [cellInsert, cellWf, hv]
  | cons p r ih =>
    obtain ⟨k, w⟩ := p
    obtain ⟨h1, h2, h3⟩ := (cellWf_cons _ _).1 h
    simp only [cellInsert]
    split
    · subst_vars; exact (cellWf_cons _ _).2 ⟨hv, h2, h3⟩
    · split
      · rename_i hk
        refine (cellWf_cons _ _).2 ⟨hv, ?_, h⟩
        intro q hq
        rcases List.mem_cons.1 hq with rfl | hq
        · exact hk
        · exact Nat.lt_trans hk (h2 q hq)
      · rename_i h4 h5
        refine (cellWf_cons _ _).2 ⟨h1, ?_, ih h3⟩
        intro q hq
        rcases mem_cellInsert hq with e | hq
        · simp only; omega
        · exact h2 q hq

theorem cellWf_filter {l : List (Nat × BitVec n)} (p : Nat × BitVec n → Bool) (h : cellWf d l = true) :
    cellWf d (l.filter p) = true := by
  induction l with
  | nil => simpa using h
  | cons q r ih =>
    obtain ⟨h1, h2, h3⟩ := (cellWf_cons _ _).1 h
    simp only [List.filter_cons]
    split
    · exact (cellWf_cons _ _).2 ⟨h1, fun x hx => h2 x (List.mem_filter.1 hx).1, ih h3⟩
    · exact ih h3

/-- A write keeps the canonical form. -/
theorem cellWf_set {l : List (Nat × BitVec n)} (a : Nat) (v : BitVec n) (h : cellWf d l = true) :
    cellWf d (cellSet d l a v) = true := by
  unfold cellSet
  split
  · exact cellWf_filter _ h
  · exact cellWf_insert (by assumption) h

theorem cellGet_of_lt {l : List (Nat × BitVec n)} {a : Nat} (h : ∀ q ∈ l, a < q.1) : cellGet d l a = d a := by
  induction l with
  | nil => rfl
  | cons p r ih =>
    obtain ⟨k, w⟩ := p
    have h1 : a < k := h (k, w) (by simp)
    simp only [cellGet]
    rw [if_neg (by omega)]
    exact ih fun q hq => h q (by simp [hq])

/-- Stores in canonical form that read alike are equal. -/
theorem cell_ext {l m : List (Nat × BitVec n)} (hl : cellWf d l = true) (hm : cellWf d m = true)
    (h : ∀ a, cellGet d l a = cellGet d m a) : l = m := by
  induction l generalizing m with
  | nil =>
    cases m with
    | nil => rfl
    | cons p r =>
      obtain ⟨k, w⟩ := p
      have := ((cellWf_cons _ _).1 hm).1
      have e := h k
      simp [cellGet] at e
      exact absurd e.symm this
  | cons p r ih =>
    obtain ⟨k, w⟩ := p
    obtain ⟨h1, h2, h3⟩ := (cellWf_cons _ _).1 hl
    cases m with
    | nil =>
      have e := h k
      simp [cellGet] at e
      exact absurd e h1
    | cons q t =>
      obtain ⟨k', w'⟩ := q
      obtain ⟨g1, g2, g3⟩ := (cellWf_cons _ _).1 hm
      have hk : k = k' := by
        rcases Nat.lt_trichotomy k k' with hlt | he | hgt
        · exfalso
          have e := h k
          rw [cellGet_of_lt (l := (k', w') :: t)] at e
          · simp [cellGet] at e; exact h1 e
          · intro q hq; rcases List.mem_cons.1 hq with rfl | hq
            · exact hlt
            · exact Nat.lt_trans hlt (g2 q hq)
        · exact he
        · exfalso
          have e := h k'
          rw [cellGet_of_lt (l := (k, w) :: r)] at e
          · simp [cellGet] at e; exact g1 e.symm
          · intro q hq; rcases List.mem_cons.1 hq with rfl | hq
            · exact hgt
            · exact Nat.lt_trans hgt (h2 q hq)
      subst hk
      have hw : w = w' := by have e := h k; simpa [cellGet] using e
      subst hw
      rw [ih h3 g3]
      intro a
      have e := h a
      simp only [cellGet] at e
      split at e
      · subst_vars; rw [cellGet_of_lt (fun q hq => h2 q hq), cellGet_of_lt (fun q hq => g2 q hq)]
      · exact e

end Cells

/-! ### Memory -/

theorem Memory.read_write (m : Memory) (a b : Nat) (v : BitVec 8) :
    (m.write a v).read b = if a = b then v else m.read b := cellGet_set m a b v

theorem Memory.write_wf {m : Memory} (a : Nat) (v : BitVec 8) (h : m.wf = true) : (m.write a v).wf = true :=
  cellWf_set a v h

theorem Memory.writeBytes_wf {m : Memory} (a : Nat) (l : List (BitVec 8)) (h : m.wf = true) :
    (m.writeBytes a l).wf = true := by
  induction l generalizing m a with
  | nil => exact h
  | cons b bs ih => exact ih (a + 1) (m.write_wf a b h)

/-- Bytes outside those written read as before. -/
theorem Memory.read_writeBytes_other {m : Memory} {a b : Nat} (l : List (BitVec 8)) (h : b < a ∨ a + l.length ≤ b) :
    (m.writeBytes a l).read b = m.read b := by
  induction l generalizing m a with
  | nil => rfl
  | cons x xs ih =>
    simp only [List.length_cons] at h
    simp only [Memory.writeBytes]
    rw [ih (by omega), Memory.read_write, if_neg (by omega)]

/-- A byte written reads back. -/
theorem Memory.read_writeBytes_same {m : Memory} {a i : Nat} (l : List (BitVec 8)) (h : i < l.length) :
    (m.writeBytes a l).read (a + i) = l[i] := by
  induction l generalizing m a i with
  | nil => simp at h
  | cons x xs ih =>
    simp only [Memory.writeBytes]
    cases i with
    | zero =>
      rw [Memory.read_writeBytes_other xs (by omega), Memory.read_write, if_pos (by omega)]; rfl
    | succ i =>
      have := ih (m := m.write a x) (a := a + 1) (i := i) (by simpa using h)
      rw [show a + (i + 1) = a + 1 + i by omega, this]; rfl

end Sys2Proof.Machine
end

