-- ==== Sys2Proof/Laws/Cost.lean ====
section
/-! SUPPORT. The cost of rendering a list without shapes (R112). -/
set_option Elab.async false
namespace Sys2Proof.Machine

/-- A sum of equal terms. -/
theorem foldl_add_const {α : Type} (f : α → Nat) (c : Nat) (h : ∀ x, f x = c) (l : List α) (a : Nat) :
    l.foldl (fun a x => a + f x) a = a + c * l.length := by
  induction l generalizing a with
  | nil => rfl
  | cons x l ih => rw [List.foldl_cons, ih, h, List.length_cons, Nat.mul_succ]; omega

/-- Nothing meets the expansion of nothing. -/
theorem meeting_nil (x0 x1 y0 y1 : Int) : (⟨[], 0⟩ : Expansion).meeting x0 x1 y0 y1 = 0 := rfl

/-- A tile without shapes costs one cycle for each of the 264 groups of its 384 rows. -/
theorem fineCycles_nil (cells : List Cell) (r j : Nat) : fineCycles cells r j [] = 101376 := by
  have row : ∀ (v a : Nat), (List.range 264).foldl (fun a (g : Nat) =>
      a + groupCycles ((⟨[], 0⟩ : Expansion).meeting (256 * (4096 * (j : Int) - 64 + 16 * g))
        (256 * (4096 * (j : Int) - 64 + 16 * g) + 4095) (256 * (256 * (r : Int) - 64 + v))
        (256 * (256 * (r : Int) - 64 + v) + 255))) a = a + 264 := by
    intro v a
    rw [foldl_add_const _ 1 (fun g => by rw [meeting_nil]; rfl), List.length_range]
  have all : ∀ l : List Nat, ∀ a, l.foldl (fun a _ => a + 264) a = a + 264 * l.length := fun l a =>
    foldl_add_const (fun _ => 264) 264 (fun _ => rfl) l a
  have e : expandShapes cells 9 Frame.unit (workList cells r j []) = ⟨[], 0⟩ := rfl
  unfold fineCycles
  simp only [e, row, all, List.length_range]
  rfl

end Sys2Proof.Machine
end

