-- ==== Sys2Proof/Laws/Reg.lean ====
section
/-! SUPPORT. Laws of register fields: a field reads what was put into it, and a field apart from it reads as before. -/
namespace Sys2Proof.Machine

set_option Elab.async false

/-! ### Bits of a 64-bit value -/

theorem onesMask_bit (w i : Nat) (hw : w ≤ 64) : (onesMask w).getLsbD i = decide (i < w) := by
  unfold onesMask
  rw [BitVec.getLsbD_ofNat, Nat.testBit_two_pow_sub_one]
  by_cases h : i < w
  · simp [h]; omega
  · simp [h]

theorem bvField_testBit (v : BitVec 64) (lo w i : Nat) (hw : w ≤ 64) :
    (bvField v lo w).testBit i = (decide (i < w) && v.getLsbD (lo + i)) := by
  unfold bvField
  rw [BitVec.testBit_toNat, BitVec.getLsbD_and, BitVec.getLsbD_ushiftRight, onesMask_bit _ _ hw, Bool.and_comm]

theorem bvPut_bit (v : BitVec 64) (lo w x i : Nat) (hw : lo + w ≤ 64) :
    (bvPut v lo w x).getLsbD i = if lo ≤ i ∧ i < lo + w then x.testBit (i - lo) else v.getLsbD i := by
  unfold bvPut
  rw [BitVec.getLsbD_or, BitVec.getLsbD_and, BitVec.getLsbD_not, BitVec.getLsbD_shiftLeft, BitVec.getLsbD_shiftLeft,
    BitVec.getLsbD_and, onesMask_bit _ _ (by omega), BitVec.getLsbD_ofNat]
  by_cases h64 : i < 64
  · by_cases h1 : lo ≤ i
    · by_cases h2 : i < lo + w
      · have : i - lo < w := by omega
        have : i - lo < 64 := by omega
        simp [show ¬ i < lo by omega, *]
      · simp [h64, h1, h2, show ¬ i < lo by omega, show ¬ (i - lo < w) by omega]
    · simp [h64, h1, show i < lo by omega]
  · have hv : v.getLsbD i = false := BitVec.getLsbD_of_ge _ _ (by omega)
    simp [h64, hv, show ¬ i < lo + w by omega]

/-! ### Bits of a register file -/

/-- A bit of a register file, counted from the base of BAR 0. -/
def regBit (rf : RegFile) (p : Nat) : Bool := (rfWord rf (p / 32 * 4)).getLsbD (p % 32)

theorem rfWord_set (rf : RegFile) (a b : Nat) (v : BitVec 32) :
    rfWord (rfSetWord rf a v) b = if a = b then v else rfWord rf b := cellGet_set rf a b v

theorem pair_bit (a b : BitVec 32) (j : Nat) :
    (a ++ b : BitVec 64).getLsbD j = if j < 32 then b.getLsbD j else a.getLsbD (j - 32) := by
  rw [BitVec.getLsbD_append]

theorem rfGet_testBit (rf : RegFile) (f : Field) (hf : f.Sound) (i : Nat) :
    (rfGet rf f).testBit i = (decide (i < f.width) && regBit rf (f.base + i)) := by
  obtain ⟨h4, h64⟩ := hf
  unfold rfGet
  by_cases hi : i < f.width
  · split
    · rw [bvField_testBit _ _ _ _ (by omega)]
      unfold rfPair regBit Field.base
      rw [pair_bit]
      by_cases h : f.lo + i < 32
      · rw [if_pos h, show (8 * f.off + f.lo + i) / 32 * 4 = f.off by omega, show (8 * f.off + f.lo + i) % 32 = f.lo + i by omega]
      · rw [if_neg h, show (8 * f.off + f.lo + i) / 32 * 4 = f.off + 4 by omega,
          show (8 * f.off + f.lo + i) % 32 = f.lo + i - 32 by omega]
    · rename_i hs
      simp only [Field.spans, decide_eq_true_eq] at hs
      rw [bvField_testBit _ _ _ _ (by omega)]
      unfold regBit Field.base
      rw [BitVec.getLsbD_setWidth, show (8 * f.off + f.lo + i) / 32 * 4 = f.off by omega,
        show (8 * f.off + f.lo + i) % 32 = f.lo + i by omega]
      simp [show f.lo + i < 64 by omega]
  · split <;> rw [bvField_testBit _ _ _ _ (by omega)] <;> simp [hi]

theorem regBit_put (rf : RegFile) (f : Field) (x p : Nat) (hf : f.Sound) :
    regBit (rfPut rf f x) p =
      if f.base ≤ p ∧ p < f.base + f.width then x.testBit (p - f.base) else regBit rf p := by
  obtain ⟨h4, h64⟩ := hf
  unfold rfPut
  split
  · unfold regBit Field.base
    simp only [rfWord_set]
    by_cases h1 : f.off + 4 = p / 32 * 4
    · rw [if_pos h1, BitVec.getLsbD_setWidth, BitVec.getLsbD_ushiftRight, bvPut_bit _ _ _ _ _ h64]
      have hp : p = 8 * f.off + (32 + p % 32) := by omega
      have hlt : p % 32 < 32 := by omega
      by_cases h2 : f.lo ≤ 32 + p % 32 ∧ 32 + p % 32 < f.lo + f.width
      · rw [if_pos h2, if_pos (by omega), show p - (8 * f.off + f.lo) = 32 + p % 32 - f.lo by omega]
        simp [hlt]
      · rw [if_neg h2, if_neg (by omega)]
        simp only [rfPair, pair_bit, hlt, decide_true, Bool.true_and]
        rw [if_neg (by omega), h1, show 32 + p % 32 - 32 = p % 32 by omega]
    · rw [if_neg h1]
      by_cases h3 : f.off = p / 32 * 4
      · rw [if_pos h3, BitVec.getLsbD_setWidth, bvPut_bit _ _ _ _ _ h64]
        have hp : p = 8 * f.off + p % 32 := by omega
        have hlt : p % 32 < 32 := by omega
        by_cases h2 : f.lo ≤ p % 32 ∧ p % 32 < f.lo + f.width
        · rw [if_pos h2, if_pos (by omega), show p - (8 * f.off + f.lo) = p % 32 - f.lo by omega]
          simp [hlt]
        · rw [if_neg h2, if_neg (by omega)]
          simp only [rfPair, pair_bit, hlt, decide_true, Bool.true_and, if_true, h3]
      · rw [if_neg h3, if_neg (by omega)]
  · rename_i hs
    simp only [Field.spans, decide_eq_true_eq] at hs
    unfold regBit Field.base
    simp only [rfWord_set]
    by_cases h3 : f.off = p / 32 * 4
    · rw [if_pos h3, BitVec.getLsbD_setWidth, bvPut_bit _ _ _ _ _ h64]
      have hp : p = 8 * f.off + p % 32 := by omega
      have hlt : p % 32 < 32 := by omega
      by_cases h2 : f.lo ≤ p % 32 ∧ p % 32 < f.lo + f.width
      · rw [if_pos h2, if_pos (by omega), show p - (8 * f.off + f.lo) = p % 32 - f.lo by omega]
        simp [hlt]
      · rw [if_neg h2, if_neg (by omega)]
        simp [h3, hlt, show p % 32 < 64 by omega]
    · rw [if_neg h3, if_neg (by omega)]

/-- A field reads what was put into it, cut to its width. -/
theorem rfGet_put_same (rf : RegFile) (f : Field) (x : Nat) (hf : f.Sound) : rfGet (rfPut rf f x) f = x % 2 ^ f.width := by
  apply Nat.eq_of_testBit_eq
  intro i
  rw [rfGet_testBit _ _ hf, regBit_put _ _ _ _ hf, Nat.testBit_mod_two_pow]
  by_cases h : i < f.width
  · simp [h, show f.base + i - f.base = i by omega]
  · simp [h]

/-- A field apart from the one put reads as before. -/
theorem rfGet_put_apart (rf : RegFile) {f g : Field} (x : Nat) (h : f.Apart g) : rfGet (rfPut rf f x) g = rfGet rf g := by
  obtain ⟨hf, hg, h⟩ := h
  apply Nat.eq_of_testBit_eq
  intro i
  rw [rfGet_testBit _ _ hg, rfGet_testBit _ _ hg]
  by_cases hi : i < g.width
  · rw [regBit_put _ _ _ _ hf, if_neg (by omega)]
  · simp [hi]

/-- A put keeps the canonical form of the register file. -/
theorem rfPut_wf {rf : RegFile} (f : Field) (x : Nat) (h : cellWf resetWord rf = true) :
    cellWf resetWord (rfPut rf f x) = true := by
  unfold rfPut rfSetWord
  split
  · exact cellWf_set _ _ (cellWf_set _ _ h)
  · exact cellWf_set _ _ h

theorem rfGet_lt (rf : RegFile) (f : Field) (hf : f.Sound) : rfGet rf f < 2 ^ f.width := by
  apply Nat.lt_pow_two_of_testBit
  intro i hi
  rw [rfGet_testBit _ _ hf]
  simp [show ¬ i < f.width by omega]

/-! ### Fields of the machine -/

theorem State.get_put_same (s : State) (f : Field) (x : Nat) (hf : f.Sound) (hx : x < 2 ^ f.width) : (s.put f x).get f = x := by
  unfold State.get State.put
  rw [rfGet_put_same _ _ _ hf, Nat.mod_eq_of_lt hx]

theorem State.get_put_apart (s : State) {f g : Field} (x : Nat) (h : f.Apart g) : (s.put f x).get g = s.get g :=
  rfGet_put_apart s.regs x h

theorem State.get_lt (s : State) (f : Field) (hf : f.Sound) : s.get f < 2 ^ f.width := rfGet_lt s.regs f hf

theorem State.puts_nil (s : State) : s.puts [] = s := rfl

theorem State.puts_cons (s : State) (p : Field × Nat) (l : List (Field × Nat)) : s.puts (p :: l) = (s.put p.1 p.2).puts l :=
  rfl

/-- A field apart from each of those put reads as before. -/
theorem State.get_puts_apart (s : State) {g : Field} (l : List (Field × Nat)) (h : ∀ p ∈ l, p.1.Apart g) :
    (s.puts l).get g = s.get g := by
  induction l generalizing s with
  | nil => rfl
  | cons p r ih =>
    rw [State.puts_cons, ih _ fun q hq => h q (by simp [hq]), State.get_put_apart _ _ (h p (by simp))]

/-- The registers that a list of puts leaves depend on no other part of the machine. -/
theorem State.puts_eq (s : State) (l : List (Field × Nat)) :
    s.puts l = { s with regs := l.foldl (fun rf p => rfPut rf p.1 p.2) s.regs } := by
  induction l generalizing s with
  | nil => rfl
  | cons p r ih => rw [State.puts_cons, ih]; rfl

end Sys2Proof.Machine
end

