-- ==== Sys2Proof/Laws/State.lean ====
section
/-! SUPPORT. What the small updates of State leave unchanged: a field of a register, a list of them, a draw. -/
namespace Sys2Proof.Machine

set_option Elab.async false

section Small
variable (s : State) (f : Field) (x : Nat) (l : List (Field × Nat))

@[simp] theorem State.put_pending : (s.put f x).pending = s.pending := rfl
@[simp] theorem State.puts_pending : (s.puts l).pending = s.pending := by rw [State.puts_eq]
@[simp] theorem State.draw_pending : s.draw.2.pending = s.pending := rfl
@[simp] theorem State.draw_regs : s.draw.2.regs = s.regs := rfl
@[simp] theorem State.put_hostMem : (s.put f x).hostMem = s.hostMem := rfl
@[simp] theorem State.puts_hostMem : (s.puts l).hostMem = s.hostMem := by rw [State.puts_eq]
@[simp] theorem State.draw_hostMem : s.draw.2.hostMem = s.hostMem := rfl
@[simp] theorem State.put_dram : (s.put f x).dram = s.dram := rfl
@[simp] theorem State.puts_dram : (s.puts l).dram = s.dram := by rw [State.puts_eq]
@[simp] theorem State.draw_dram : s.draw.2.dram = s.dram := rfl
@[simp] theorem State.put_host : (s.put f x).host = s.host := rfl
@[simp] theorem State.puts_host : (s.puts l).host = s.host := by rw [State.puts_eq]
@[simp] theorem State.draw_host : s.draw.2.host = s.host := rfl
@[simp] theorem State.put_box : (s.put f x).box = s.box := rfl
@[simp] theorem State.puts_box : (s.puts l).box = s.box := by rw [State.puts_eq]
@[simp] theorem State.draw_box : s.draw.2.box = s.box := rfl
@[simp] theorem State.put_store : (s.put f x).store = s.store := rfl
@[simp] theorem State.puts_store : (s.puts l).store = s.store := by rw [State.puts_eq]
@[simp] theorem State.draw_store : s.draw.2.store = s.store := rfl
@[simp] theorem State.put_aon : (s.put f x).aon = s.aon := rfl
@[simp] theorem State.puts_aon : (s.puts l).aon = s.aon := by rw [State.puts_eq]
@[simp] theorem State.draw_aon : s.draw.2.aon = s.aon := rfl
@[simp] theorem State.put_tide : (s.put f x).tide = s.tide := rfl
@[simp] theorem State.puts_tide : (s.puts l).tide = s.tide := by rw [State.puts_eq]
@[simp] theorem State.draw_tide : s.draw.2.tide = s.tide := rfl
@[simp] theorem State.put_headTime0 : (s.put f x).headTime0 = s.headTime0 := rfl
@[simp] theorem State.puts_headTime0 : (s.puts l).headTime0 = s.headTime0 := by rw [State.puts_eq]
@[simp] theorem State.draw_headTime0 : s.draw.2.headTime0 = s.headTime0 := rfl
@[simp] theorem State.put_clock : (s.put f x).clock = s.clock := rfl
@[simp] theorem State.puts_clock : (s.puts l).clock = s.clock := by rw [State.puts_eq]
@[simp] theorem State.draw_clock : s.draw.2.clock = s.clock := rfl
@[simp] theorem State.put_obs : (s.put f x).obs = s.obs := rfl
@[simp] theorem State.puts_obs : (s.puts l).obs = s.obs := by rw [State.puts_eq]
@[simp] theorem State.draw_obs : s.draw.2.obs = s.obs := rfl
@[simp] theorem State.put_seq : (s.put f x).seq = s.seq := rfl
@[simp] theorem State.puts_seq : (s.puts l).seq = s.seq := by rw [State.puts_eq]
@[simp] theorem State.draw_seq : s.draw.2.seq = s.seq := rfl
@[simp] theorem State.put_tid : (s.put f x).tid = s.tid := rfl
@[simp] theorem State.puts_tid : (s.puts l).tid = s.tid := by rw [State.puts_eq]
@[simp] theorem State.draw_tid : s.draw.2.tid = s.tid := rfl
@[simp] theorem State.put_couch : (s.put f x).couch = s.couch := rfl
@[simp] theorem State.puts_couch : (s.puts l).couch = s.couch := by rw [State.puts_eq]
@[simp] theorem State.draw_couch : s.draw.2.couch = s.couch := rfl
@[simp] theorem State.put_link : (s.put f x).link = s.link := rfl
@[simp] theorem State.puts_link : (s.puts l).link = s.link := by rw [State.puts_eq]
@[simp] theorem State.draw_link : s.draw.2.link = s.link := rfl
@[simp] theorem State.put_lanes : (s.put f x).lanes = s.lanes := rfl
@[simp] theorem State.puts_lanes : (s.puts l).lanes = s.lanes := by rw [State.puts_eq]
@[simp] theorem State.draw_lanes : s.draw.2.lanes = s.lanes := rfl
@[simp] theorem State.put_hcr : (s.put f x).hcr = s.hcr := rfl
@[simp] theorem State.puts_hcr : (s.puts l).hcr = s.hcr := by rw [State.puts_eq]
@[simp] theorem State.draw_hcr : s.draw.2.hcr = s.hcr := rfl
@[simp] theorem State.put_csc : (s.put f x).csc = s.csc := rfl
@[simp] theorem State.puts_csc : (s.puts l).csc = s.csc := by rw [State.puts_eq]
@[simp] theorem State.draw_csc : s.draw.2.csc = s.csc := rfl
@[simp] theorem State.put_loops : (s.put f x).loops = s.loops := rfl
@[simp] theorem State.puts_loops : (s.puts l).loops = s.loops := by rw [State.puts_eq]
@[simp] theorem State.draw_loops : s.draw.2.loops = s.loops := rfl
@[simp] theorem State.put_aux : (s.put f x).aux = s.aux := rfl
@[simp] theorem State.puts_aux : (s.puts l).aux = s.aux := by rw [State.puts_eq]
@[simp] theorem State.draw_aux : s.draw.2.aux = s.aux := rfl
@[simp] theorem State.put_mem : (s.put f x).mem = s.mem := rfl
@[simp] theorem State.puts_mem : (s.puts l).mem = s.mem := by rw [State.puts_eq]
@[simp] theorem State.draw_mem : s.draw.2.mem = s.mem := rfl
@[simp] theorem State.put_time : (s.put f x).time = s.time := rfl
@[simp] theorem State.puts_time : (s.puts l).time = s.time := by rw [State.puts_eq]
@[simp] theorem State.draw_time : s.draw.2.time = s.time := rfl
@[simp] theorem State.put_bwt : (s.put f x).bwt = s.bwt := rfl
@[simp] theorem State.puts_bwt : (s.puts l).bwt = s.bwt := by rw [State.puts_eq]
@[simp] theorem State.draw_bwt : s.draw.2.bwt = s.bwt := rfl
@[simp] theorem State.put_pwr : (s.put f x).pwr = s.pwr := rfl
@[simp] theorem State.puts_pwr : (s.puts l).pwr = s.pwr := by rw [State.puts_eq]
@[simp] theorem State.draw_pwr : s.draw.2.pwr = s.pwr := rfl
@[simp] theorem State.put_free : (s.put f x).free = s.free := rfl
@[simp] theorem State.puts_free : (s.puts l).free = s.free := by rw [State.puts_eq]

@[simp] theorem State.put_regs : (s.put f x).regs = rfPut s.regs f x := rfl
@[simp] theorem State.draw_free : s.draw.2.free = s.free + 1 := rfl
@[simp] theorem State.draw_get : s.draw.2.get f = s.get f := rfl

theorem State.put_canonical (h : s.canonical = true) : (s.put f x).canonical = true := by
  simp only [State.canonical, Bool.and_eq_true] at h ⊢
  exact ⟨⟨rfPut_wf f x h.1.1, h.1.2⟩, h.2⟩

theorem State.puts_canonical (h : s.canonical = true) : (s.puts l).canonical = true := by
  induction l generalizing s with
  | nil => exact h
  | cons p r ih => exact ih _ (s.put_canonical p.1 p.2 h)

theorem State.draw_canonical (h : s.canonical = true) : s.draw.2.canonical = true := h

end Small

end Sys2Proof.Machine
end

