-- ==== Sys2Proof/Laws/Noted.lean ====
section
/-! SUPPORT. What reporting does: counters, trace packets, telemetry and events change their own queues, counters and the
trace ring, and nothing else. -/
namespace Sys2Proof.Machine

set_option Elab.async false

/-- A field apart from the 64-bit counter at an offset. -/
def Field.Off (g : Field) (off : Nat) : Prop :=
  off % 4 = 0 ∧ g.Sound ∧ (g.base + g.width ≤ 8 * off ∨ 8 * off + 64 ≤ g.base)

/-- t is s but for what reporting may change. -/
structure Noted (s t : State) : Prop where
  eq : t = { s with
    regs := t.regs, hostMem := t.hostMem, host := { s.host with events := t.host.events }, obs := t.obs, time := t.time }
  quiet : ∀ g : Field, g.Quiet → t.get g = s.get g
  ring : s.get Reg.OBS_CTRL_RING_EN = 0 → t.hostMem = s.hostMem
  wf : s.canonical = true → t.canonical = true

/-- t is s but for what a packet to the trace ring may change. -/
structure Written (s t : State) : Prop where
  eq : t = { s with
    regs := t.regs, hostMem := t.hostMem, host := { s.host with events := t.host.events }, obs := t.obs, time := t.time }
  quiet : ∀ g : Field, g.Quiet → t.get g = s.get g
  wf : s.canonical = true → t.canonical = true

theorem Noted.rfl' (s : State) : Noted s s := ⟨rfl, fun _ _ => rfl, fun _ => rfl, id⟩

theorem ringEn_quiet : Field.Quiet Reg.OBS_CTRL_RING_EN := by
  refine ⟨⟨by decide, by decide⟩, ?_⟩
  decide

theorem Noted.trans {s t u : State} (h : Noted s t) (k : Noted t u) : Noted s u where
  eq := by
    have h1 := h.eq
    have k1 := k.eq
    rw [h1] at k1
    exact k1
  quiet g hg := (k.quiet g hg).trans (h.quiet g hg)
  ring e := (k.ring ((h.quiet _ ringEn_quiet).trans e)).trans (h.ring e)
  wf w := k.wf (h.wf w)

theorem Noted.thenRing {s t u : State} (h : Noted s t) (k : Written t u) (e : t.get Reg.OBS_CTRL_RING_EN ≠ 0) : Noted s u where
  eq := by
    have h1 := h.eq
    have k1 := k.eq
    rw [h1] at k1
    exact k1
  quiet g hg := (k.quiet g hg).trans (h.quiet g hg)
  ring z := absurd ((h.quiet _ ringEn_quiet).trans z) e
  wf w := k.wf (h.wf w)

theorem Noted.fold {α : Type} (f : State → α → State) (h : ∀ s a, Noted s (f s a)) (l : List α) (s : State) :
    Noted s (l.foldl f s) := by
  induction l generalizing s with
  | nil => exact Noted.rfl' s
  | cons a r ih => exact (h s a).trans (ih _)

/-! What reporting leaves unchanged, part by part. -/

section Parts
variable {s t : State} (h : Noted s t)
include h

theorem Noted.pending : t.pending = s.pending := by have e := congrArg State.pending h.eq; exact e
theorem Noted.dram : t.dram = s.dram := by have e := congrArg State.dram h.eq; exact e
theorem Noted.box : t.box = s.box := by have e := congrArg State.box h.eq; exact e
theorem Noted.store : t.store = s.store := by have e := congrArg State.store h.eq; exact e
theorem Noted.aon : t.aon = s.aon := by have e := congrArg State.aon h.eq; exact e
theorem Noted.tide : t.tide = s.tide := by have e := congrArg State.tide h.eq; exact e
theorem Noted.headTime0 : t.headTime0 = s.headTime0 := by have e := congrArg State.headTime0 h.eq; exact e
theorem Noted.clock : t.clock = s.clock := by have e := congrArg State.clock h.eq; exact e
theorem Noted.seq : t.seq = s.seq := by have e := congrArg State.seq h.eq; exact e
theorem Noted.tid : t.tid = s.tid := by have e := congrArg State.tid h.eq; exact e
theorem Noted.couch : t.couch = s.couch := by have e := congrArg State.couch h.eq; exact e
theorem Noted.link : t.link = s.link := by have e := congrArg State.link h.eq; exact e
theorem Noted.lanes : t.lanes = s.lanes := by have e := congrArg State.lanes h.eq; exact e
theorem Noted.hcr : t.hcr = s.hcr := by have e := congrArg State.hcr h.eq; exact e
theorem Noted.csc : t.csc = s.csc := by have e := congrArg State.csc h.eq; exact e
theorem Noted.loops : t.loops = s.loops := by have e := congrArg State.loops h.eq; exact e
theorem Noted.aux : t.aux = s.aux := by have e := congrArg State.aux h.eq; exact e
theorem Noted.mem : t.mem = s.mem := by have e := congrArg State.mem h.eq; exact e
theorem Noted.bwt : t.bwt = s.bwt := by have e := congrArg State.bwt h.eq; exact e
theorem Noted.pwr : t.pwr = s.pwr := by have e := congrArg State.pwr h.eq; exact e
theorem Noted.free : t.free = s.free := by have e := congrArg State.free h.eq; exact e
theorem Noted.jobs : t.host.jobs = s.host.jobs := by have e := congrArg (fun x : State => x.host.jobs) h.eq; exact e
theorem Noted.host : t.host = { s.host with events := t.host.events } := by have e := congrArg State.host h.eq; exact e

end Parts

/-! ### Counters -/

theorem rfCount_wf {rf : RegFile} (off : Nat) (h : cellWf resetWord rf = true) : cellWf resetWord (rfCount rf off).1 = true := by
  unfold rfCount
  dsimp only
  split
  · exact h
  · split <;> dsimp only
    · exact rfPut_wf _ _ (rfPut_wf _ _ h)
    · exact rfPut_wf _ _ h

theorem rfGet_count_off (rf : RegFile) {off : Nat} {g : Field} (h : g.Off off) : rfGet (rfCount rf off).1 g = rfGet rf g := by
  obtain ⟨h4, hg, h⟩ := h
  have a1 : Field.Apart ⟨off, 0, 48⟩ g := ⟨⟨h4, Nat.le_of_ble_eq_true rfl⟩, hg, by simp only [Field.base] at h ⊢; omega⟩
  have a2 : Field.Apart ⟨off + 4, 31, 1⟩ g := ⟨⟨by dsimp only; omega, Nat.le_of_ble_eq_true rfl⟩, hg, by simp only [Field.base] at h ⊢; omega⟩
  unfold rfCount
  dsimp only
  split
  · rfl
  · split
    · rw [rfGet_put_apart _ _ a2, rfGet_put_apart _ _ a1]
    · rw [rfGet_put_apart _ _ a1]

theorem Noted.count' (s : State) (off : Nat) (h : ∀ g : Field, g.Quiet → g.Off off) :
    Noted s { s with regs := (rfCount s.regs off).1 } where
  eq := rfl
  quiet g hg := rfGet_count_off s.regs (h g hg)
  ring _ := rfl
  wf w := by
    simp only [State.canonical, Bool.and_eq_true] at w ⊢
    exact ⟨⟨rfCount_wf off w.1.1, w.1.2⟩, w.2⟩

theorem Field.Quiet.obs {g : Field} (h : g.Quiet) (i : Nat) (hi : i < 6) : g.Off (cntObs i) := by
  obtain ⟨h0, h1, h2, h3, h4, h5, h6⟩ := h
  refine ⟨by unfold cntObs; omega, h0, ?_⟩
  unfold cntObs
  omega

theorem Field.Quiet.hst {g : Field} (h : g.Quiet) (i : Nat) (hi : i < 8) : g.Off (cntHst i) := by
  obtain ⟨h0, h1, h2, h3, h4, h5, h6⟩ := h
  refine ⟨by unfold cntHst; omega, h0, ?_⟩
  unfold cntHst
  omega

theorem Field.Quiet.tim7 {g : Field} (h : g.Quiet) : g.Off (cntTim 7) := by
  obtain ⟨h0, h1, h2, h3, h4, h5, h6⟩ := h
  refine ⟨by unfold cntTim; omega, h0, ?_⟩
  unfold cntTim
  omega

/-! ### Trace (R519 to R525) -/

theorem ringBytes_wf {m : Memory} (base size off : Nat) (l : List Byte) (h : m.wf = true) :
    (ringBytes m base size off l).wf = true := by
  induction l generalizing m off with
  | nil => exact h
  | cons b bs ih => exact ih _ (Memory.write_wf _ _ h)

theorem State.writeHost_canonical (s : State) (a : Nat) (l : List Byte) (h : s.canonical = true) :
    (s.writeHost a l).canonical = true := by
  simp only [State.canonical, State.writeHost, Bool.and_eq_true] at h ⊢
  exact ⟨⟨h.1.1, Memory.writeBytes_wf _ _ h.1.2⟩, h.2⟩

theorem countPackets_wf {rf : RegFile} (off n : Nat) (h : cellWf resetWord rf = true) :
    cellWf resetWord (countPackets rf off n) = true := by
  unfold countPackets
  dsimp only
  split
  · exact rfCount_wf _ h
  · exact rfCount_wf _ (rfCount_wf _ h)

theorem rfGet_countPackets_off (rf : RegFile) {off : Nat} {g : Field} (n : Nat) (h : g.Off off) :
    rfGet (countPackets rf off n) g = rfGet rf g := by
  unfold countPackets
  dsimp only
  split
  · exact rfGet_count_off _ h
  · rw [rfGet_count_off _ h, rfGet_count_off _ h]

theorem Noted.ite {s t u : State} {p : Prop} [Decidable p] (h : Noted s t) (k : Noted s u) :
    Noted s (if p then t else u) := by
  split <;> assumption

theorem packetToPort_noted (s : State) (src : Nat) (payload : List Byte) : Noted s (s.packetToPort src payload) :=
  Noted.ite
    { eq := rfl
      quiet := fun _ hg => rfGet_countPackets_off s.regs _ (hg.obs 0 (by decide))
      ring := fun _ => rfl
      wf := fun w => by
        simp only [State.canonical, Bool.and_eq_true] at w ⊢
        exact ⟨⟨countPackets_wf _ _ w.1.1, w.1.2⟩, w.2⟩ }
    { eq := rfl
      quiet := fun _ hg => rfGet_count_off s.regs (hg.obs 2 (by decide))
      ring := fun _ => rfl
      wf := fun w => by
        simp only [State.canonical, Bool.and_eq_true] at w ⊢
        exact ⟨⟨rfCount_wf _ w.1.1, w.1.2⟩, w.2⟩ }

theorem Field.Quiet.ringWr {g : Field} (h : g.Quiet) : Field.Apart Reg.OBS_RING_WR_OFF g := by
  obtain ⟨h0, h1, h2, h3, h4, h5, h6⟩ := h
  refine ⟨⟨by decide, by decide⟩, h0, ?_⟩
  simp only [Field.base] at h3 ⊢
  omega

theorem ringAccept_written (s : State) (bytes : List Byte) (seq : Nat) : Written s (s.ringAccept bytes seq) where
  eq := rfl
  quiet g hg := by
    unfold State.get State.ringAccept
    dsimp only
    rw [rfGet_countPackets_off _ _ (hg.obs 1 (by decide)), rfGet_put_apart _ _ hg.ringWr]
  wf w := by
    simp only [State.canonical, State.ringAccept, Bool.and_eq_true] at w ⊢
    refine ⟨⟨?_, ?_⟩, w.2⟩
    · exact countPackets_wf _ _ (rfPut_wf _ _ w.1.1)
    · split
      · exact ringBytes_wf _ _ _ _ w.1.2
      · exact Memory.writeBytes_wf _ _ (ringBytes_wf _ _ _ _ w.1.2)

theorem ringDrop_written (s : State) : Written s s.ringDrop where
  eq := rfl
  quiet g hg := rfGet_count_off s.regs (hg.obs 3 (by decide))
  wf w := by
    simp only [State.canonical, State.ringDrop, Bool.and_eq_true] at w ⊢
    exact ⟨⟨rfCount_wf _ w.1.1, w.1.2⟩, w.2⟩

theorem Written.ite {s t u : State} {p : Prop} [Decidable p] (h : Written s t) (k : Written s u) :
    Written s (if p then t else u) := by
  split <;> assumption

theorem packetToRing_written (s : State) (src : Nat) (payload : List Byte) : Written s (s.packetToRing src payload) :=
  Written.ite ⟨rfl, fun _ _ => rfl, id⟩ (Written.ite (ringAccept_written _ _ _) (ringDrop_written s))

theorem trace_noted (s : State) (src : Nat) (payload : List Byte) : Noted s (s.trace src payload) := by
  unfold State.trace
  dsimp only
  split
  · split
    · rename_i h
      exact (packetToPort_noted s _ _).thenRing (packetToRing_written _ _ _) (by
        simp only [State.on, Bool.and_eq_true, decide_eq_true_eq] at h; exact h.1)
    · exact packetToPort_noted s _ _
  · split
    · rename_i h
      exact (Noted.rfl' s).thenRing (packetToRing_written _ _ _) (by
        simp only [State.on, Bool.and_eq_true, decide_eq_true_eq] at h; exact h.1)
    · exact Noted.rfl' _

/-! ### Events -/

theorem telemetry_noted (s : State) (p : Nat) (r : List Byte) : Noted s (s.telemetry p r) := by
  unfold State.telemetry
  dsimp only
  split
  · exact ⟨rfl, fun _ _ => rfl, fun _ => rfl, id⟩
  · exact Noted.count' s _ fun g hg => hg.tim7

theorem telemetryCopy_noted (s : State) (e : Event) : Noted s (s.telemetryCopy e) :=
  Noted.fold _ (fun s _ => Noted.fold _ (fun s r => telemetry_noted s _ r) _ s) _ s

theorem withEvents_noted (s : State) (l : List EventRing) : Noted s (s.withEvents l) := ⟨rfl, fun _ _ => rfl, fun _ => rfl, id⟩

theorem enqueue_noted (s : State) (ring : Nat) (e : Event) : Noted s (s.enqueue ring e).1 :=
  Noted.ite ((withEvents_noted s _).trans (telemetryCopy_noted _ _)) (withEvents_noted s _)

/-- What reports by way of one function reports. -/
def Reports (f : State → Nat → Nat → List Byte → State) : Prop := ∀ s code sev payload, Noted s (f s code sev payload)

theorem countWith_noted {f : State → Nat → Nat → List Byte → State} (hf : Reports f) (s : State) (off : Nat)
    (h : ∀ g : Field, g.Quiet → g.Off off) : Noted s (s.countWith f off) := by
  have h0 := Noted.count' s off h
  have h1 : Noted s { s with regs := (rfCount (rfCount s.regs off).1 (cntObs 5)).1 } :=
    h0.trans (Noted.count' { s with regs := (rfCount s.regs off).1 } _ fun g hg => hg.obs 5 (by decide))
  exact Noted.ite (Noted.ite ((h1.trans (hf _ _ _ _)).trans (hf _ _ _ _)) (h1.trans (hf _ _ _ _))) h0

theorem traceEvent_noted (s : State) (e : Event) : Noted s (s.traceEvent e) :=
  (trace_noted _ _ _).trans (Noted.fold _ (fun _ _ => trace_noted _ _ _) _ _)

theorem raiseWith_noted {f : State → Nat → Nat → List Byte → State} (hf : Reports f) (s : State) (code sev : Nat)
    (payload : List Byte) : Noted s (s.raiseWith f code sev payload) := by
  have h0 := traceEvent_noted s (s.eventNow code sev payload false)
  exact Noted.ite (h0.trans (countWith_noted hf _ _ fun g hg => hg.hst 4 (by decide)))
    (Noted.ite ((h0.trans (enqueue_noted _ _ _)).trans (countWith_noted hf _ _ fun g hg => hg.hst 5 (by decide)))
      (h0.trans (enqueue_noted _ _ _)))

theorem raiseFuel_noted (n : Nat) : Reports (State.raiseFuel n) := by
  induction n with
  | zero => exact fun s _ _ _ => Noted.rfl' s
  | succ n ih => exact fun s code sev payload => raiseWith_noted ih s code sev payload

theorem Field.Quiet.trig {g : Field} (h : g.Quiet) :
    ∀ p ∈ [(Reg.OBS_TRIG_EN, 0), (Reg.OBS_STATUS_TRIGGERED, 1)], Field.Apart p.1 g := by
  obtain ⟨h0, h1, h2, h3, h4, h5, h6⟩ := h
  intro p hp
  simp only [List.mem_cons, List.mem_nil_iff, or_false] at hp
  rcases hp with rfl | rfl
  · refine ⟨⟨by decide, by decide⟩, h0, ?_⟩
    simp only [Field.base] at h4 ⊢
    omega
  · refine ⟨⟨by decide, by decide⟩, h0, ?_⟩
    simp only [Field.base] at h5 ⊢
    omega

theorem obsTrigger_noted (s : State) (code : Nat) : Noted s (s.obsTrigger code) := by
  have h : ∀ obs : ObsState, Noted s ({ s with obs := obs }.puts [(Reg.OBS_TRIG_EN, 0), (Reg.OBS_STATUS_TRIGGERED, 1)]) :=
    fun obs => ⟨rfl, fun g hg => State.get_puts_apart { s with obs := obs } _ hg.trig,
      fun _ => rfl, fun w => State.puts_canonical { s with obs := obs } _ w⟩
  exact Noted.ite ((h _).trans (raiseFuel_noted _ _ _ _ _)) (Noted.rfl' s)

/-- Raising an event reports it, and does nothing else. -/
theorem raiseSev_noted (s : State) (code sev : Nat) (payload : List (Nat × Nat)) : Noted s (s.raiseSev code sev payload) :=
  (raiseFuel_noted _ _ _ _ _).trans (obsTrigger_noted _ _)

theorem raise_noted (s : State) (code : Nat) (payload : List (Nat × Nat)) : Noted s (s.raise code payload) :=
  raiseSev_noted _ _ _ _

/-! ### Rewriting through a report -/

section Raise
variable (s : State) (code sev : Nat) (payload : List (Nat × Nat))

@[simp] theorem State.raise_pending : (s.raise code payload).pending = s.pending := (raise_noted s code payload).pending
@[simp] theorem State.raiseSev_pending : (s.raiseSev code sev payload).pending = s.pending := (raiseSev_noted s code sev payload).pending
@[simp] theorem State.raise_dram : (s.raise code payload).dram = s.dram := (raise_noted s code payload).dram
@[simp] theorem State.raiseSev_dram : (s.raiseSev code sev payload).dram = s.dram := (raiseSev_noted s code sev payload).dram
@[simp] theorem State.raise_box : (s.raise code payload).box = s.box := (raise_noted s code payload).box
@[simp] theorem State.raiseSev_box : (s.raiseSev code sev payload).box = s.box := (raiseSev_noted s code sev payload).box
@[simp] theorem State.raise_store : (s.raise code payload).store = s.store := (raise_noted s code payload).store
@[simp] theorem State.raiseSev_store : (s.raiseSev code sev payload).store = s.store := (raiseSev_noted s code sev payload).store
@[simp] theorem State.raise_aon : (s.raise code payload).aon = s.aon := (raise_noted s code payload).aon
@[simp] theorem State.raiseSev_aon : (s.raiseSev code sev payload).aon = s.aon := (raiseSev_noted s code sev payload).aon
@[simp] theorem State.raise_tide : (s.raise code payload).tide = s.tide := (raise_noted s code payload).tide
@[simp] theorem State.raiseSev_tide : (s.raiseSev code sev payload).tide = s.tide := (raiseSev_noted s code sev payload).tide
@[simp] theorem State.raise_headTime0 : (s.raise code payload).headTime0 = s.headTime0 := (raise_noted s code payload).headTime0
@[simp] theorem State.raiseSev_headTime0 : (s.raiseSev code sev payload).headTime0 = s.headTime0 := (raiseSev_noted s code sev payload).headTime0
@[simp] theorem State.raise_clock : (s.raise code payload).clock = s.clock := (raise_noted s code payload).clock
@[simp] theorem State.raiseSev_clock : (s.raiseSev code sev payload).clock = s.clock := (raiseSev_noted s code sev payload).clock
@[simp] theorem State.raise_seq : (s.raise code payload).seq = s.seq := (raise_noted s code payload).seq
@[simp] theorem State.raiseSev_seq : (s.raiseSev code sev payload).seq = s.seq := (raiseSev_noted s code sev payload).seq
@[simp] theorem State.raise_tid : (s.raise code payload).tid = s.tid := (raise_noted s code payload).tid
@[simp] theorem State.raiseSev_tid : (s.raiseSev code sev payload).tid = s.tid := (raiseSev_noted s code sev payload).tid
@[simp] theorem State.raise_couch : (s.raise code payload).couch = s.couch := (raise_noted s code payload).couch
@[simp] theorem State.raiseSev_couch : (s.raiseSev code sev payload).couch = s.couch := (raiseSev_noted s code sev payload).couch
@[simp] theorem State.raise_link : (s.raise code payload).link = s.link := (raise_noted s code payload).link
@[simp] theorem State.raiseSev_link : (s.raiseSev code sev payload).link = s.link := (raiseSev_noted s code sev payload).link
@[simp] theorem State.raise_lanes : (s.raise code payload).lanes = s.lanes := (raise_noted s code payload).lanes
@[simp] theorem State.raiseSev_lanes : (s.raiseSev code sev payload).lanes = s.lanes := (raiseSev_noted s code sev payload).lanes
@[simp] theorem State.raise_hcr : (s.raise code payload).hcr = s.hcr := (raise_noted s code payload).hcr
@[simp] theorem State.raiseSev_hcr : (s.raiseSev code sev payload).hcr = s.hcr := (raiseSev_noted s code sev payload).hcr
@[simp] theorem State.raise_csc : (s.raise code payload).csc = s.csc := (raise_noted s code payload).csc
@[simp] theorem State.raiseSev_csc : (s.raiseSev code sev payload).csc = s.csc := (raiseSev_noted s code sev payload).csc
@[simp] theorem State.raise_loops : (s.raise code payload).loops = s.loops := (raise_noted s code payload).loops
@[simp] theorem State.raiseSev_loops : (s.raiseSev code sev payload).loops = s.loops := (raiseSev_noted s code sev payload).loops
@[simp] theorem State.raise_aux : (s.raise code payload).aux = s.aux := (raise_noted s code payload).aux
@[simp] theorem State.raiseSev_aux : (s.raiseSev code sev payload).aux = s.aux := (raiseSev_noted s code sev payload).aux
@[simp] theorem State.raise_mem : (s.raise code payload).mem = s.mem := (raise_noted s code payload).mem
@[simp] theorem State.raiseSev_mem : (s.raiseSev code sev payload).mem = s.mem := (raiseSev_noted s code sev payload).mem
@[simp] theorem State.raise_bwt : (s.raise code payload).bwt = s.bwt := (raise_noted s code payload).bwt
@[simp] theorem State.raiseSev_bwt : (s.raiseSev code sev payload).bwt = s.bwt := (raiseSev_noted s code sev payload).bwt
@[simp] theorem State.raise_pwr : (s.raise code payload).pwr = s.pwr := (raise_noted s code payload).pwr
@[simp] theorem State.raiseSev_pwr : (s.raiseSev code sev payload).pwr = s.pwr := (raiseSev_noted s code sev payload).pwr
@[simp] theorem State.raise_free : (s.raise code payload).free = s.free := (raise_noted s code payload).free
@[simp] theorem State.raiseSev_free : (s.raiseSev code sev payload).free = s.free := (raiseSev_noted s code sev payload).free

theorem State.raise_get {g : Field} (h : g.Quiet) : (s.raise code payload).get g = s.get g := (raise_noted s code payload).quiet g h
theorem State.raiseSev_get {g : Field} (h : g.Quiet) : (s.raiseSev code sev payload).get g = s.get g :=
  (raiseSev_noted s code sev payload).quiet g h
theorem State.raise_canonical (h : s.canonical = true) : (s.raise code payload).canonical = true := (raise_noted s code payload).wf h

end Raise

/-! ### Counters of the machine -/

/-- Counting changes its counter, and reports. -/
structure Counted (off : Nat) (s t : State) : Prop where
  eq : t = { s with
    regs := t.regs, hostMem := t.hostMem, host := { s.host with events := t.host.events }, obs := t.obs, time := t.time }
  quiet : ∀ g : Field, g.Quiet → g.Off off → t.get g = s.get g
  ring : Field.Off Reg.OBS_CTRL_RING_EN off → s.get Reg.OBS_CTRL_RING_EN = 0 → t.hostMem = s.hostMem
  wf : s.canonical = true → t.canonical = true

theorem count_counted (s : State) (off : Nat) : Counted off s (s.count off) := by
  have h0 : Counted off s { s with regs := (rfCount s.regs off).1 } :=
    ⟨rfl, fun g _ ho => rfGet_count_off s.regs ho, fun _ _ => rfl, fun w => by
      simp only [State.canonical, Bool.and_eq_true] at w ⊢
      exact ⟨⟨rfCount_wf off w.1.1, w.1.2⟩, w.2⟩⟩
  have h1 := Noted.count' { s with regs := (rfCount s.regs off).1 } (cntObs 5) fun g hg => hg.obs 5 (by decide)
  unfold State.count
  dsimp only
  split
  · have h2 := h1.trans (raise_noted _ 0x1401 [(4, off)])
    exact ⟨h2.eq, fun g hq ho => (h2.quiet g hq).trans (h0.quiet g hq ho),
      fun ho e => h2.ring ((h0.quiet _ ringEn_quiet ho).trans e), fun w => h2.wf (h0.wf w)⟩
  · exact h0

section Count
variable (s : State) (off : Nat)

@[simp] theorem State.count_pending : (s.count off).pending = s.pending := by have e := congrArg State.pending (count_counted s off).eq; exact e
@[simp] theorem State.count_dram : (s.count off).dram = s.dram := by have e := congrArg State.dram (count_counted s off).eq; exact e
@[simp] theorem State.count_box : (s.count off).box = s.box := by have e := congrArg State.box (count_counted s off).eq; exact e
@[simp] theorem State.count_store : (s.count off).store = s.store := by have e := congrArg State.store (count_counted s off).eq; exact e
@[simp] theorem State.count_aon : (s.count off).aon = s.aon := by have e := congrArg State.aon (count_counted s off).eq; exact e
@[simp] theorem State.count_tide : (s.count off).tide = s.tide := by have e := congrArg State.tide (count_counted s off).eq; exact e
@[simp] theorem State.count_headTime0 : (s.count off).headTime0 = s.headTime0 := by have e := congrArg State.headTime0 (count_counted s off).eq; exact e
@[simp] theorem State.count_clock : (s.count off).clock = s.clock := by have e := congrArg State.clock (count_counted s off).eq; exact e
@[simp] theorem State.count_seq : (s.count off).seq = s.seq := by have e := congrArg State.seq (count_counted s off).eq; exact e
@[simp] theorem State.count_tid : (s.count off).tid = s.tid := by have e := congrArg State.tid (count_counted s off).eq; exact e
@[simp] theorem State.count_couch : (s.count off).couch = s.couch := by have e := congrArg State.couch (count_counted s off).eq; exact e
@[simp] theorem State.count_link : (s.count off).link = s.link := by have e := congrArg State.link (count_counted s off).eq; exact e
@[simp] theorem State.count_lanes : (s.count off).lanes = s.lanes := by have e := congrArg State.lanes (count_counted s off).eq; exact e
@[simp] theorem State.count_hcr : (s.count off).hcr = s.hcr := by have e := congrArg State.hcr (count_counted s off).eq; exact e
@[simp] theorem State.count_csc : (s.count off).csc = s.csc := by have e := congrArg State.csc (count_counted s off).eq; exact e
@[simp] theorem State.count_loops : (s.count off).loops = s.loops := by have e := congrArg State.loops (count_counted s off).eq; exact e
@[simp] theorem State.count_aux : (s.count off).aux = s.aux := by have e := congrArg State.aux (count_counted s off).eq; exact e
@[simp] theorem State.count_mem : (s.count off).mem = s.mem := by have e := congrArg State.mem (count_counted s off).eq; exact e
@[simp] theorem State.count_bwt : (s.count off).bwt = s.bwt := by have e := congrArg State.bwt (count_counted s off).eq; exact e
@[simp] theorem State.count_pwr : (s.count off).pwr = s.pwr := by have e := congrArg State.pwr (count_counted s off).eq; exact e
@[simp] theorem State.count_free : (s.count off).free = s.free := by have e := congrArg State.free (count_counted s off).eq; exact e
@[simp] theorem State.count_jobs : (s.count off).host.jobs = s.host.jobs := by
  have e := congrArg (fun x : State => x.host.jobs) (count_counted s off).eq; exact e
theorem State.count_get {g : Field} (h : g.Quiet) (ho : g.Off off) : (s.count off).get g = s.get g :=
  (count_counted s off).quiet g h ho
theorem State.count_canonical (h : s.canonical = true) : (s.count off).canonical = true := (count_counted s off).wf h

end Count

end Sys2Proof.Machine
end

