-- ==== Sys2Proof/Laws/Kept.lean ====
section
/-! SUPPORT. What an operation may change, part by part: `Kept P s t` says that t is s but for the parts of the state in P,
that the queue of commands is the same, and that the canonical form is kept. -/
namespace Sys2Proof.Machine

set_option Elab.async false

/-- Every part of a list is in another. -/
def Part.allIn : List Part → List Part → Bool
  | [], _ => true
  | p :: r, l => p.isIn l && Part.allIn r l

/-- s with one part taken from t. -/
def Part.set : Part → State → State → State
  | .regs, s, t => { s with regs := t.regs }
  | .hostMem, s, t => { s with hostMem := t.hostMem }
  | .dram, s, t => { s with dram := t.dram }
  | .host, s, t => { s with host := t.host }
  | .box, s, t => { s with box := t.box }
  | .store, s, t => { s with store := t.store }
  | .aon, s, t => { s with aon := t.aon }
  | .tide, s, t => { s with tide := t.tide }
  | .headTime0, s, t => { s with headTime0 := t.headTime0 }
  | .clock, s, t => { s with clock := t.clock }
  | .obs, s, t => { s with obs := t.obs }
  | .seq, s, t => { s with seq := t.seq }
  | .tid, s, t => { s with tid := t.tid }
  | .couch, s, t => { s with couch := t.couch }
  | .link, s, t => { s with link := t.link }
  | .lanes, s, t => { s with lanes := t.lanes }
  | .hcr, s, t => { s with hcr := t.hcr }
  | .csc, s, t => { s with csc := t.csc }
  | .loops, s, t => { s with loops := t.loops }
  | .aux, s, t => { s with aux := t.aux }
  | .mem, s, t => { s with mem := t.mem }
  | .time, s, t => { s with time := t.time }
  | .bwt, s, t => { s with bwt := t.bwt }
  | .pwr, s, t => { s with pwr := t.pwr }
  | .free, s, t => { s with free := t.free }

/-- s with the parts of a list taken from t, one by one. -/
def Part.sets : List Part → State → State → State
  | [], s, _ => s
  | p :: r, s, t => Part.sets r (p.set s t) t

/-- t is s but for the parts in P, and keeps the canonical form. -/
structure Kept (P : List Part) (s t : State) : Prop where
  eq : t = State.mix P s t
  wf : s.canonical = true → t.canonical = true

/-- Every next state of an outcome is s but for the parts in P. -/
def OutKept (P : List Part) (s : State) (o : Host.Outcome State Fault Refusal) : Prop := ∀ t, o = .next t → Kept P s t

theorem State.mix_self (P : List Part) (s : State) : s = State.mix P s s := by
  simp only [State.mix, ite_self]

theorem Part.sets_eq (Q : List Part) (s t : State) : Part.sets Q s t = State.mix Q s t := by
  induction Q generalizing s with
  | nil => rfl
  | cons p r ih =>
    rw [Part.sets, ih]
    cases p <;> simp [State.mix, Part.set, Part.isIn]

theorem Part.isIn_of_allIn {Q P : List Part} (h : Part.allIn Q P = true) {p : Part} (hp : p.isIn Q = true) :
    p.isIn P = true := by
  induction Q with
  | nil => cases hp
  | cons q r ih =>
    simp only [Part.allIn, Bool.and_eq_true] at h
    simp only [Part.isIn] at hp
    split at hp
    · subst_vars; exact h.1
    · exact ih h.2 hp

theorem Part.allIn_self (P : List Part) : Part.allIn P P = true := by
  have h : ∀ l r : List Part, Part.allIn l (r ++ l) = true := by
    intro l
    induction l with
    | nil => exact fun _ => rfl
    | cons p q ih =>
      intro r
      have e : Part.isIn p (r ++ p :: q) = true := by
        induction r with
        | nil => simp [Part.isIn]
        | cons x y ih => simp only [List.cons_append, Part.isIn]; split; rfl; exact ih
      have g := ih (r ++ [p])
      rw [List.append_assoc] at g
      simp only [Part.allIn, e, Bool.true_and]
      exact g
  exact h P []

variable {P Q : List Part} {s b t : State}

theorem Kept.refl : Kept P s s := ⟨State.mix_self P s, id⟩

theorem Kept.pending (h : Kept P s t) : t.pending = s.pending := by have e := congrArg State.pending h.eq; exact e

/-- A part outside P is as before. -/
theorem Kept.regs (h : Kept P s t) (hp : Part.isIn .regs P = false := by decide) : t.regs = s.regs := by
  have e := congrArg State.regs h.eq; simp only [State.mix, hp] at e; exact e
theorem Kept.hostMem (h : Kept P s t) (hp : Part.isIn .hostMem P = false := by decide) : t.hostMem = s.hostMem := by
  have e := congrArg State.hostMem h.eq; simp only [State.mix, hp] at e; exact e
theorem Kept.dram (h : Kept P s t) (hp : Part.isIn .dram P = false := by decide) : t.dram = s.dram := by
  have e := congrArg State.dram h.eq; simp only [State.mix, hp] at e; exact e
theorem Kept.host (h : Kept P s t) (hp : Part.isIn .host P = false := by decide) : t.host = s.host := by
  have e := congrArg State.host h.eq; simp only [State.mix, hp] at e; exact e
theorem Kept.box (h : Kept P s t) (hp : Part.isIn .box P = false := by decide) : t.box = s.box := by
  have e := congrArg State.box h.eq; simp only [State.mix, hp] at e; exact e
theorem Kept.store (h : Kept P s t) (hp : Part.isIn .store P = false := by decide) : t.store = s.store := by
  have e := congrArg State.store h.eq; simp only [State.mix, hp] at e; exact e
theorem Kept.aon (h : Kept P s t) (hp : Part.isIn .aon P = false := by decide) : t.aon = s.aon := by
  have e := congrArg State.aon h.eq; simp only [State.mix, hp] at e; exact e
theorem Kept.tide (h : Kept P s t) (hp : Part.isIn .tide P = false := by decide) : t.tide = s.tide := by
  have e := congrArg State.tide h.eq; simp only [State.mix, hp] at e; exact e
theorem Kept.headTime0 (h : Kept P s t) (hp : Part.isIn .headTime0 P = false := by decide) : t.headTime0 = s.headTime0 := by
  have e := congrArg State.headTime0 h.eq; simp only [State.mix, hp] at e; exact e
theorem Kept.clock (h : Kept P s t) (hp : Part.isIn .clock P = false := by decide) : t.clock = s.clock := by
  have e := congrArg State.clock h.eq; simp only [State.mix, hp] at e; exact e
theorem Kept.obs (h : Kept P s t) (hp : Part.isIn .obs P = false := by decide) : t.obs = s.obs := by
  have e := congrArg State.obs h.eq; simp only [State.mix, hp] at e; exact e
theorem Kept.seq (h : Kept P s t) (hp : Part.isIn .seq P = false := by decide) : t.seq = s.seq := by
  have e := congrArg State.seq h.eq; simp only [State.mix, hp] at e; exact e
theorem Kept.tid (h : Kept P s t) (hp : Part.isIn .tid P = false := by decide) : t.tid = s.tid := by
  have e := congrArg State.tid h.eq; simp only [State.mix, hp] at e; exact e
theorem Kept.couch (h : Kept P s t) (hp : Part.isIn .couch P = false := by decide) : t.couch = s.couch := by
  have e := congrArg State.couch h.eq; simp only [State.mix, hp] at e; exact e
theorem Kept.link (h : Kept P s t) (hp : Part.isIn .link P = false := by decide) : t.link = s.link := by
  have e := congrArg State.link h.eq; simp only [State.mix, hp] at e; exact e
theorem Kept.lanes (h : Kept P s t) (hp : Part.isIn .lanes P = false := by decide) : t.lanes = s.lanes := by
  have e := congrArg State.lanes h.eq; simp only [State.mix, hp] at e; exact e
theorem Kept.hcr (h : Kept P s t) (hp : Part.isIn .hcr P = false := by decide) : t.hcr = s.hcr := by
  have e := congrArg State.hcr h.eq; simp only [State.mix, hp] at e; exact e
theorem Kept.csc (h : Kept P s t) (hp : Part.isIn .csc P = false := by decide) : t.csc = s.csc := by
  have e := congrArg State.csc h.eq; simp only [State.mix, hp] at e; exact e
theorem Kept.loops (h : Kept P s t) (hp : Part.isIn .loops P = false := by decide) : t.loops = s.loops := by
  have e := congrArg State.loops h.eq; simp only [State.mix, hp] at e; exact e
theorem Kept.aux (h : Kept P s t) (hp : Part.isIn .aux P = false := by decide) : t.aux = s.aux := by
  have e := congrArg State.aux h.eq; simp only [State.mix, hp] at e; exact e
theorem Kept.mem (h : Kept P s t) (hp : Part.isIn .mem P = false := by decide) : t.mem = s.mem := by
  have e := congrArg State.mem h.eq; simp only [State.mix, hp] at e; exact e
theorem Kept.time (h : Kept P s t) (hp : Part.isIn .time P = false := by decide) : t.time = s.time := by
  have e := congrArg State.time h.eq; simp only [State.mix, hp] at e; exact e
theorem Kept.bwt (h : Kept P s t) (hp : Part.isIn .bwt P = false := by decide) : t.bwt = s.bwt := by
  have e := congrArg State.bwt h.eq; simp only [State.mix, hp] at e; exact e
theorem Kept.pwr (h : Kept P s t) (hp : Part.isIn .pwr P = false := by decide) : t.pwr = s.pwr := by
  have e := congrArg State.pwr h.eq; simp only [State.mix, hp] at e; exact e
theorem Kept.free (h : Kept P s t) (hp : Part.isIn .free P = false := by decide) : t.free = s.free := by
  have e := congrArg State.free h.eq; simp only [State.mix, hp] at e; exact e

theorem Kept.of_parts (hp : t.pending = s.pending)
    (hregs : Part.isIn .regs P = true ∨ t.regs = s.regs)
    (hhostMem : Part.isIn .hostMem P = true ∨ t.hostMem = s.hostMem)
    (hdram : Part.isIn .dram P = true ∨ t.dram = s.dram)
    (hhost : Part.isIn .host P = true ∨ t.host = s.host)
    (hbox : Part.isIn .box P = true ∨ t.box = s.box)
    (hstore : Part.isIn .store P = true ∨ t.store = s.store)
    (haon : Part.isIn .aon P = true ∨ t.aon = s.aon)
    (htide : Part.isIn .tide P = true ∨ t.tide = s.tide)
    (hheadTime0 : Part.isIn .headTime0 P = true ∨ t.headTime0 = s.headTime0)
    (hclock : Part.isIn .clock P = true ∨ t.clock = s.clock)
    (hobs : Part.isIn .obs P = true ∨ t.obs = s.obs)
    (hseq : Part.isIn .seq P = true ∨ t.seq = s.seq)
    (htid : Part.isIn .tid P = true ∨ t.tid = s.tid)
    (hcouch : Part.isIn .couch P = true ∨ t.couch = s.couch)
    (hlink : Part.isIn .link P = true ∨ t.link = s.link)
    (hlanes : Part.isIn .lanes P = true ∨ t.lanes = s.lanes)
    (hhcr : Part.isIn .hcr P = true ∨ t.hcr = s.hcr)
    (hcsc : Part.isIn .csc P = true ∨ t.csc = s.csc)
    (hloops : Part.isIn .loops P = true ∨ t.loops = s.loops)
    (haux : Part.isIn .aux P = true ∨ t.aux = s.aux)
    (hmem : Part.isIn .mem P = true ∨ t.mem = s.mem)
    (htime : Part.isIn .time P = true ∨ t.time = s.time)
    (hbwt : Part.isIn .bwt P = true ∨ t.bwt = s.bwt)
    (hpwr : Part.isIn .pwr P = true ∨ t.pwr = s.pwr)
    (hfree : Part.isIn .free P = true ∨ t.free = s.free)
    (wf : s.canonical = true → t.canonical = true) : Kept P s t := by
  refine ⟨?_, wf⟩
  cases s; cases t
  simp only [State.mix, State.mk.injEq]
  refine ⟨hp, ?_, ?_, ?_, ?_, ?_, ?_, ?_, ?_, ?_, ?_, ?_, ?_, ?_, ?_, ?_, ?_, ?_, ?_, ?_, ?_, ?_, ?_, ?_, ?_, ?_⟩
  · rcases hregs with h | h
    · rw [if_pos h]
    · split
      · rfl
      · exact h
  · rcases hhostMem with h | h
    · rw [if_pos h]
    · split
      · rfl
      · exact h
  · rcases hdram with h | h
    · rw [if_pos h]
    · split
      · rfl
      · exact h
  · rcases hhost with h | h
    · rw [if_pos h]
    · split
      · rfl
      · exact h
  · rcases hbox with h | h
    · rw [if_pos h]
    · split
      · rfl
      · exact h
  · rcases hstore with h | h
    · rw [if_pos h]
    · split
      · rfl
      · exact h
  · rcases haon with h | h
    · rw [if_pos h]
    · split
      · rfl
      · exact h
  · rcases htide with h | h
    · rw [if_pos h]
    · split
      · rfl
      · exact h
  · rcases hheadTime0 with h | h
    · rw [if_pos h]
    · split
      · rfl
      · exact h
  · rcases hclock with h | h
    · rw [if_pos h]
    · split
      · rfl
      · exact h
  · rcases hobs with h | h
    · rw [if_pos h]
    · split
      · rfl
      · exact h
  · rcases hseq with h | h
    · rw [if_pos h]
    · split
      · rfl
      · exact h
  · rcases htid with h | h
    · rw [if_pos h]
    · split
      · rfl
      · exact h
  · rcases hcouch with h | h
    · rw [if_pos h]
    · split
      · rfl
      · exact h
  · rcases hlink with h | h
    · rw [if_pos h]
    · split
      · rfl
      · exact h
  · rcases hlanes with h | h
    · rw [if_pos h]
    · split
      · rfl
      · exact h
  · rcases hhcr with h | h
    · rw [if_pos h]
    · split
      · rfl
      · exact h
  · rcases hcsc with h | h
    · rw [if_pos h]
    · split
      · rfl
      · exact h
  · rcases hloops with h | h
    · rw [if_pos h]
    · split
      · rfl
      · exact h
  · rcases haux with h | h
    · rw [if_pos h]
    · split
      · rfl
      · exact h
  · rcases hmem with h | h
    · rw [if_pos h]
    · split
      · rfl
      · exact h
  · rcases htime with h | h
    · rw [if_pos h]
    · split
      · rfl
      · exact h
  · rcases hbwt with h | h
    · rw [if_pos h]
    · split
      · rfl
      · exact h
  · rcases hpwr with h | h
    · rw [if_pos h]
    · split
      · rfl
      · exact h
  · rcases hfree with h | h
    · rw [if_pos h]
    · split
      · rfl
      · exact h

/-- A part in P or the same. -/
theorem Kept.regs_or (h : Kept P s t) : Part.isIn .regs P = true ∨ t.regs = s.regs := by
  rcases hp : Part.isIn .regs P with _ | _
  · exact .inr (h.regs hp)
  · exact .inl rfl
theorem Kept.hostMem_or (h : Kept P s t) : Part.isIn .hostMem P = true ∨ t.hostMem = s.hostMem := by
  rcases hp : Part.isIn .hostMem P with _ | _
  · exact .inr (h.hostMem hp)
  · exact .inl rfl
theorem Kept.dram_or (h : Kept P s t) : Part.isIn .dram P = true ∨ t.dram = s.dram := by
  rcases hp : Part.isIn .dram P with _ | _
  · exact .inr (h.dram hp)
  · exact .inl rfl
theorem Kept.host_or (h : Kept P s t) : Part.isIn .host P = true ∨ t.host = s.host := by
  rcases hp : Part.isIn .host P with _ | _
  · exact .inr (h.host hp)
  · exact .inl rfl
theorem Kept.box_or (h : Kept P s t) : Part.isIn .box P = true ∨ t.box = s.box := by
  rcases hp : Part.isIn .box P with _ | _
  · exact .inr (h.box hp)
  · exact .inl rfl
theorem Kept.store_or (h : Kept P s t) : Part.isIn .store P = true ∨ t.store = s.store := by
  rcases hp : Part.isIn .store P with _ | _
  · exact .inr (h.store hp)
  · exact .inl rfl
theorem Kept.aon_or (h : Kept P s t) : Part.isIn .aon P = true ∨ t.aon = s.aon := by
  rcases hp : Part.isIn .aon P with _ | _
  · exact .inr (h.aon hp)
  · exact .inl rfl
theorem Kept.tide_or (h : Kept P s t) : Part.isIn .tide P = true ∨ t.tide = s.tide := by
  rcases hp : Part.isIn .tide P with _ | _
  · exact .inr (h.tide hp)
  · exact .inl rfl
theorem Kept.headTime0_or (h : Kept P s t) : Part.isIn .headTime0 P = true ∨ t.headTime0 = s.headTime0 := by
  rcases hp : Part.isIn .headTime0 P with _ | _
  · exact .inr (h.headTime0 hp)
  · exact .inl rfl
theorem Kept.clock_or (h : Kept P s t) : Part.isIn .clock P = true ∨ t.clock = s.clock := by
  rcases hp : Part.isIn .clock P with _ | _
  · exact .inr (h.clock hp)
  · exact .inl rfl
theorem Kept.obs_or (h : Kept P s t) : Part.isIn .obs P = true ∨ t.obs = s.obs := by
  rcases hp : Part.isIn .obs P with _ | _
  · exact .inr (h.obs hp)
  · exact .inl rfl
theorem Kept.seq_or (h : Kept P s t) : Part.isIn .seq P = true ∨ t.seq = s.seq := by
  rcases hp : Part.isIn .seq P with _ | _
  · exact .inr (h.seq hp)
  · exact .inl rfl
theorem Kept.tid_or (h : Kept P s t) : Part.isIn .tid P = true ∨ t.tid = s.tid := by
  rcases hp : Part.isIn .tid P with _ | _
  · exact .inr (h.tid hp)
  · exact .inl rfl
theorem Kept.couch_or (h : Kept P s t) : Part.isIn .couch P = true ∨ t.couch = s.couch := by
  rcases hp : Part.isIn .couch P with _ | _
  · exact .inr (h.couch hp)
  · exact .inl rfl
theorem Kept.link_or (h : Kept P s t) : Part.isIn .link P = true ∨ t.link = s.link := by
  rcases hp : Part.isIn .link P with _ | _
  · exact .inr (h.link hp)
  · exact .inl rfl
theorem Kept.lanes_or (h : Kept P s t) : Part.isIn .lanes P = true ∨ t.lanes = s.lanes := by
  rcases hp : Part.isIn .lanes P with _ | _
  · exact .inr (h.lanes hp)
  · exact .inl rfl
theorem Kept.hcr_or (h : Kept P s t) : Part.isIn .hcr P = true ∨ t.hcr = s.hcr := by
  rcases hp : Part.isIn .hcr P with _ | _
  · exact .inr (h.hcr hp)
  · exact .inl rfl
theorem Kept.csc_or (h : Kept P s t) : Part.isIn .csc P = true ∨ t.csc = s.csc := by
  rcases hp : Part.isIn .csc P with _ | _
  · exact .inr (h.csc hp)
  · exact .inl rfl
theorem Kept.loops_or (h : Kept P s t) : Part.isIn .loops P = true ∨ t.loops = s.loops := by
  rcases hp : Part.isIn .loops P with _ | _
  · exact .inr (h.loops hp)
  · exact .inl rfl
theorem Kept.aux_or (h : Kept P s t) : Part.isIn .aux P = true ∨ t.aux = s.aux := by
  rcases hp : Part.isIn .aux P with _ | _
  · exact .inr (h.aux hp)
  · exact .inl rfl
theorem Kept.mem_or (h : Kept P s t) : Part.isIn .mem P = true ∨ t.mem = s.mem := by
  rcases hp : Part.isIn .mem P with _ | _
  · exact .inr (h.mem hp)
  · exact .inl rfl
theorem Kept.time_or (h : Kept P s t) : Part.isIn .time P = true ∨ t.time = s.time := by
  rcases hp : Part.isIn .time P with _ | _
  · exact .inr (h.time hp)
  · exact .inl rfl
theorem Kept.bwt_or (h : Kept P s t) : Part.isIn .bwt P = true ∨ t.bwt = s.bwt := by
  rcases hp : Part.isIn .bwt P with _ | _
  · exact .inr (h.bwt hp)
  · exact .inl rfl
theorem Kept.pwr_or (h : Kept P s t) : Part.isIn .pwr P = true ∨ t.pwr = s.pwr := by
  rcases hp : Part.isIn .pwr P with _ | _
  · exact .inr (h.pwr hp)
  · exact .inl rfl
theorem Kept.free_or (h : Kept P s t) : Part.isIn .free P = true ∨ t.free = s.free := by
  rcases hp : Part.isIn .free P with _ | _
  · exact .inr (h.free hp)
  · exact .inl rfl

theorem Kept.of (h : Kept Q b t) (k : Kept P s b) (hq : Part.allIn Q P = true := by rfl) : Kept P s t :=
  .of_parts (h.pending.trans k.pending)
    (h.regs_or.elim (fun e => .inl (Part.isIn_of_allIn hq e)) fun e => k.regs_or.imp id fun g => e.trans g)
    (h.hostMem_or.elim (fun e => .inl (Part.isIn_of_allIn hq e)) fun e => k.hostMem_or.imp id fun g => e.trans g)
    (h.dram_or.elim (fun e => .inl (Part.isIn_of_allIn hq e)) fun e => k.dram_or.imp id fun g => e.trans g)
    (h.host_or.elim (fun e => .inl (Part.isIn_of_allIn hq e)) fun e => k.host_or.imp id fun g => e.trans g)
    (h.box_or.elim (fun e => .inl (Part.isIn_of_allIn hq e)) fun e => k.box_or.imp id fun g => e.trans g)
    (h.store_or.elim (fun e => .inl (Part.isIn_of_allIn hq e)) fun e => k.store_or.imp id fun g => e.trans g)
    (h.aon_or.elim (fun e => .inl (Part.isIn_of_allIn hq e)) fun e => k.aon_or.imp id fun g => e.trans g)
    (h.tide_or.elim (fun e => .inl (Part.isIn_of_allIn hq e)) fun e => k.tide_or.imp id fun g => e.trans g)
    (h.headTime0_or.elim (fun e => .inl (Part.isIn_of_allIn hq e)) fun e => k.headTime0_or.imp id fun g => e.trans g)
    (h.clock_or.elim (fun e => .inl (Part.isIn_of_allIn hq e)) fun e => k.clock_or.imp id fun g => e.trans g)
    (h.obs_or.elim (fun e => .inl (Part.isIn_of_allIn hq e)) fun e => k.obs_or.imp id fun g => e.trans g)
    (h.seq_or.elim (fun e => .inl (Part.isIn_of_allIn hq e)) fun e => k.seq_or.imp id fun g => e.trans g)
    (h.tid_or.elim (fun e => .inl (Part.isIn_of_allIn hq e)) fun e => k.tid_or.imp id fun g => e.trans g)
    (h.couch_or.elim (fun e => .inl (Part.isIn_of_allIn hq e)) fun e => k.couch_or.imp id fun g => e.trans g)
    (h.link_or.elim (fun e => .inl (Part.isIn_of_allIn hq e)) fun e => k.link_or.imp id fun g => e.trans g)
    (h.lanes_or.elim (fun e => .inl (Part.isIn_of_allIn hq e)) fun e => k.lanes_or.imp id fun g => e.trans g)
    (h.hcr_or.elim (fun e => .inl (Part.isIn_of_allIn hq e)) fun e => k.hcr_or.imp id fun g => e.trans g)
    (h.csc_or.elim (fun e => .inl (Part.isIn_of_allIn hq e)) fun e => k.csc_or.imp id fun g => e.trans g)
    (h.loops_or.elim (fun e => .inl (Part.isIn_of_allIn hq e)) fun e => k.loops_or.imp id fun g => e.trans g)
    (h.aux_or.elim (fun e => .inl (Part.isIn_of_allIn hq e)) fun e => k.aux_or.imp id fun g => e.trans g)
    (h.mem_or.elim (fun e => .inl (Part.isIn_of_allIn hq e)) fun e => k.mem_or.imp id fun g => e.trans g)
    (h.time_or.elim (fun e => .inl (Part.isIn_of_allIn hq e)) fun e => k.time_or.imp id fun g => e.trans g)
    (h.bwt_or.elim (fun e => .inl (Part.isIn_of_allIn hq e)) fun e => k.bwt_or.imp id fun g => e.trans g)
    (h.pwr_or.elim (fun e => .inl (Part.isIn_of_allIn hq e)) fun e => k.pwr_or.imp id fun g => e.trans g)
    (h.free_or.elim (fun e => .inl (Part.isIn_of_allIn hq e)) fun e => k.free_or.imp id fun g => e.trans g)
    (fun w => h.wf (k.wf w))

/-- A structure update of the parts in Q; a store among them keeps its canonical form. -/
theorem Kept.upd (Q : List Part) (k : Kept P s b) (h0 : t = Part.sets Q b t := by rfl) (hq : Part.allIn Q P = true := by rfl)
    (w1 : Part.isIn .regs Q = false ∨ (cellWf resetWord b.regs = true → cellWf resetWord t.regs = true) := by exact .inl rfl)
    (w2 : Part.isIn .hostMem Q = false ∨ (b.hostMem.wf = true → t.hostMem.wf = true) := by exact .inl rfl)
    (w3 : Part.isIn .dram Q = false ∨ (b.dram.wf = true → t.dram.wf = true) := by exact .inl rfl) : Kept P s t := by
  have h := h0.trans (Part.sets_eq Q b t)
  refine Kept.of (Q := Q) ⟨h, ?_⟩ k hq
  simp only [State.canonical, Bool.and_eq_true]
  refine fun w => ⟨⟨?_, ?_⟩, ?_⟩
  · rcases w1 with e | e
    · rw [h]; simp only [State.mix, e]; exact w.1.1
    · exact e w.1.1
  · rcases w2 with e | e
    · rw [h]; simp only [State.mix, e]; exact w.1.2
    · exact e w.1.2
  · rcases w3 with e | e
    · rw [h]; simp only [State.mix, e]; exact w.2
    · exact e w.2

theorem Kept.ite {c : Prop} [Decidable c] (h : Kept P s b) (k : Kept P s t) : Kept P s (if c then b else t) := by
  split
  · exact h
  · exact k

theorem Kept.fold {α : Type} {f : State → α → State} {l : List α} (h : ∀ x a, Kept P s x → Kept P s (f x a)) (k : Kept P s b) :
    Kept P s (l.foldl f b) := by
  induction l generalizing b with
  | nil => exact k
  | cons a r ih => exact ih (h b a k)

theorem Kept.fold1 {α β : Type} {f : State × β → α → State × β} {l : List α} {p : State × β}
    (h : ∀ x a, Kept P s x.1 → Kept P s (f x a).1) (k : Kept P s p.1) : Kept P s (l.foldl f p).1 := by
  induction l generalizing p with
  | nil => exact k
  | cons a r ih => exact ih (h p a k)

theorem Kept.getD {o : Option State} (h : ∀ x, o = some x → Kept P s x) (k : Kept P s b) : Kept P s (o.getD b) := by
  cases o with
  | none => exact k
  | some x => exact h x rfl

theorem Kept.mapGetD {α : Type} {o : Option α} {f : α → State} (h : ∀ x, Kept P s (f x)) (k : Kept P s b) :
    Kept P s ((o.map f).getD b) := by
  cases o with
  | none => exact k
  | some x => exact h x

theorem OutKept.next (h : Kept P s t) : OutKept P s (.next t) := by
  intro u e
  cases e
  exact h

theorem OutKept.ite {c : Prop} [Decidable c] {x y : Host.Outcome State Fault Refusal} (h : OutKept P s x) (k : OutKept P s y) :
    OutKept P s (if c then x else y) := by
  split
  · exact h
  · exact k

theorem OutKept.of {o : Host.Outcome State Fault Refusal} (h : OutKept Q b o) (k : Kept P s b)
    (hq : Part.allIn Q P = true := by rfl) : OutKept P s o := fun t e => (h t e).of k hq

/-! ### The basic operations -/


theorem State.put_kept (s : State) (f : Field) (x : Nat) : Kept [.regs] s (s.put f x) :=
  ⟨rfl, State.put_canonical s f x⟩
theorem State.puts_kept (s : State) (l : List (Field × Nat)) : Kept [.regs] s (s.puts l) :=
  Kept.fold (fun x a h => (State.put_kept x a.1 a.2).of h) Kept.refl
theorem State.draw_kept (s : State) : Kept [.free] s s.draw.2 := .upd [.free] .refl
theorem State.writeHost_kept (s : State) (a : Nat) (l : List Byte) : Kept [.hostMem] s (s.writeHost a l) :=
  ⟨rfl, State.writeHost_canonical s a l⟩

theorem Noted.kept (h : Noted s t) : Kept reports s t := by
  refine ⟨?_, h.wf⟩
  have e := h.eq
  have g := h.host
  rw [e]; rfl
theorem State.raise_kept (s : State) (code : Nat) (payload : List (Nat × Nat)) : Kept reports s (s.raise code payload) :=
  (raise_noted s code payload).kept
theorem State.raiseSev_kept (s : State) (code sev : Nat) (payload : List (Nat × Nat)) :
    Kept reports s (s.raiseSev code sev payload) := (raiseSev_noted s code sev payload).kept
theorem State.count_kept (s : State) (off : Nat) : Kept reports s (s.count off) := by
  refine ⟨?_, State.count_canonical s off⟩
  rw [(count_counted s off).eq]; rfl
theorem State.trace_kept (s : State) (src : Nat) (payload : List Byte) : Kept reports s (s.trace src payload) :=
  (trace_noted s src payload).kept
theorem State.enqueue_kept (s : State) (ring : Nat) (e : Event) : Kept reports s (s.enqueue ring e).1 :=
  (enqueue_noted s ring e).kept
theorem State.obsTrigger_kept (s : State) (code : Nat) : Kept reports s (s.obsTrigger code) := (obsTrigger_noted s code).kept
theorem State.packetToPort_kept (s : State) (src : Nat) (payload : List Byte) :
    Kept reports s (s.packetToPort src payload) := (packetToPort_noted s src payload).kept

end Sys2Proof.Machine
end

