-- ==== Sys2Proof/Laws/KeptCore.lean ====
section
/-! SUPPORT. What each operation and each command may change, part by part: one lemma per definition. -/
namespace Sys2Proof.Machine

set_option Elab.async false

/-- Inclusion of part lists is transitive. -/
theorem Part.allIn_trans {A B C : List Part} (h : Part.allIn A B = true) (k : Part.allIn B C = true) : Part.allIn A C = true := by
  induction A with
  | nil => rfl
  | cons p r ih =>
    simp only [Part.allIn, Bool.and_eq_true] at h ⊢
    exact ⟨Part.isIn_of_allIn k h.1, ih h.2⟩

theorem rewordAll_wf (rule : FieldRow → List Nat → BitVec 64 → BitVec 64) (pick : Nat → Bool) {rf : RegFile}
    (h : cellWf resetWord rf = true) : cellWf resetWord (rewordAll rule pick rf) = true := by
  have g : ∀ (l : List (Nat × BitVec 32)) (a : RegFile), cellWf resetWord a = true →
      cellWf resetWord (l.foldl (fun a p => if pick p.1 then rfSetWord a p.1 (reword rule p.1 p.2) else a) a) = true := by
    intro l
    induction l with
    | nil => exact fun _ h => h
    | cons p r ih =>
      intro a h
      simp only [List.foldl_cons]
      apply ih
      split
      · exact cellWf_set _ _ h
      · exact h
  exact g rf rf h

theorem reset_wf : cellWf resetWord State.reset.regs = true ∧ State.reset.hostMem.wf = true ∧ State.reset.dram.wf = true := by
  refine ⟨?_, ?_, ?_⟩ <;> rfl

/-! ### Ops -/

theorem State.ringAccept_kept (s : State) (a1 : List Byte) (a2 : ℕ) :
    Kept [.regs, .hostMem, .obs] s (State.ringAccept s a1 a2) := by
  delta State.ringAccept
  extract_lets _ _ _ _ _ _ _
  exact (.upd [.regs, .hostMem, .obs] .refl rfl rfl (.inr fun w => by first | (dsimp only; exact (countPackets_wf _ _ (rfPut_wf _ _ w))) | exact (countPackets_wf _ _ (rfPut_wf _ _ w))) (.inr fun w => by first | (dsimp only; exact (by split; exacts [(ringBytes_wf _ _ _ _ w), (Memory.writeBytes_wf _ _ (ringBytes_wf _ _ _ _ w))])) | exact (by split; exacts [(ringBytes_wf _ _ _ _ w), (Memory.writeBytes_wf _ _ (ringBytes_wf _ _ _ _ w))])) (.inl rfl))

theorem State.ringDrop_kept (s : State) :
    Kept [.regs, .obs] s (State.ringDrop s) := by
  delta State.ringDrop
  extract_lets _
  exact (.upd [.regs, .obs] .refl rfl rfl (.inr fun w => by first | (dsimp only; exact (rfCount_wf _ w)) | exact (rfCount_wf _ w)) (.inl rfl) (.inl rfl))

theorem State.packetToRing_kept (s : State) (a1 : ℕ) (a2 : List Byte) :
    Kept [.regs, .hostMem, .obs] s (State.packetToRing s a1 a2) := by
  delta State.packetToRing
  extract_lets _ _ _ _
  exact (.ite .refl (.ite (.of (State.ringAccept_kept _ _ _) .refl) (.of (State.ringDrop_kept _) .refl)))

theorem State.telemetry_kept (s : State) (a1 : ℕ) (a2 : List Byte) :
    Kept [.regs, .time] s (State.telemetry s a1 a2) := by
  delta State.telemetry
  extract_lets _ _ _ _
  exact (.ite (.upd [.time] .refl) (.upd [.regs] .refl rfl rfl (.inr fun w => by first | (dsimp only; exact (rfCount_wf _ w)) | exact (rfCount_wf _ w)) (.inl rfl) (.inl rfl)))

theorem State.telemetryCopy_kept (s : State) (a1 : Event) :
    Kept [.regs, .time] s (State.telemetryCopy s a1) := by
  delta State.telemetryCopy
  extract_lets _
  exact (.fold (fun _ _ h3 => (.fold (fun _ _ h4 => (.of (State.telemetry_kept _ _ _) h4)) h3)) .refl)

theorem State.withEvents_kept (s : State) (a1 : List EventRing) :
    Kept [.host] s (State.withEvents s a1) := by
  delta State.withEvents
  extract_lets _
  exact (.upd [.host] .refl)

theorem State.traceEvent_kept (s : State) (a1 : Event) :
    Kept reports s (State.traceEvent s a1) := by
  delta State.traceEvent
  exact (.fold (fun _ _ h2 => (.of (State.trace_kept _ _ _) h2)) (.of (State.trace_kept _ _ _) .refl))

theorem State.countBy_kept (s : State) (a1 : ℕ) (a2 : ℕ) :
    Kept reports s (State.countBy s a1 a2) := by
  delta State.countBy
  extract_lets _
  exact (.ite .refl (.ite (.of (State.put_kept _ _ _) .refl) (.ite .refl (.of (State.count_kept _ _) (.of (State.put_kept _ _ _) .refl)))))

theorem State.domainOffAccess_kept (s : State) (a1 : ℕ) :
    Kept reports s (State.domainOffAccess s a1) := by
  delta State.domainOffAccess
  extract_lets x2 _ _
  have h5 : Kept reports s x2 := (.of (State.count_kept _ _) .refl)
  exact (.ite (.of (State.raise_kept _ _ _) (.upd [.host] h5)) h5)

theorem State.writeWord_kept (s : State) (a1 : ℕ) (a2 : BitVec 32) :
    Kept reports s (State.writeWord s a1 a2) := by
  delta State.writeWord
  extract_lets _
  split
  · exact .refl
  · extract_lets _ _ _ _ _ _
    exact (.ite (.of (State.domainOffAccess_kept _ _) .refl) (.ite (.upd [.regs] .refl rfl rfl (.inr fun w => by first | (dsimp only; exact (cellWf_set _ _ (cellWf_set _ _ w))) | exact (cellWf_set _ _ (cellWf_set _ _ w))) (.inl rfl) (.inl rfl)) (.upd [.regs] .refl rfl rfl (.inr fun w => by first | (dsimp only; exact (cellWf_set _ _ w)) | exact (cellWf_set _ _ w)) (.inl rfl) (.inl rfl))))

theorem State.writePair_kept (s : State) (a1 : ℕ) (a2 : BitVec 64) :
    Kept reports s (State.writePair s a1 a2) := by
  delta State.writePair
  extract_lets _
  split
  · extract_lets _
    exact (.ite (.ite (.of (State.domainOffAccess_kept _ _) .refl) (.upd [.regs] .refl rfl rfl (.inr fun w => by first | (dsimp only; exact (cellWf_set _ _ (cellWf_set _ _ w))) | exact (cellWf_set _ _ (cellWf_set _ _ w))) (.inl rfl) (.inl rfl))) (.of (State.writeWord_kept _ _ _) (.of (State.writeWord_kept _ _ _) .refl)))
  · exact (.of (State.writeWord_kept _ _ _) (.of (State.writeWord_kept _ _ _) .refl))

theorem State.hostWrite_kept (s : State) (a1 : ℕ) (a2 : List Byte) :
    Kept [.hostMem, .host] s (State.hostWrite s a1 a2) := by
  delta State.hostWrite
  extract_lets _
  exact (.ite (.of (State.writeHost_kept _ _ _) .refl) (.upd [.host] .refl))

theorem State.countCodec_kept (s : State) (a1 : ℕ) (a2 : ℕ) :
    Kept reports s (State.countCodec s a1 a2) := by
  delta State.countCodec
  extract_lets x3
  have h4 : Kept reports s x3 := (.of (State.count_kept _ _) .refl)
  exact (.ite (.ite (.of (State.count_kept _ _) h4) h4) .refl)

theorem State.completeJob_kept (s : State) (a1 : Job) (a2 : ℕ) (a3 : ℕ) (a4 : List Byte) :
    Kept reports s (State.completeJob s a1 a2 a3 a4) := by
  delta State.completeJob
  extract_lets x5 _ x7 x8 _ _ x11
  have h12 : Kept reports s x5 := (.ite .refl (.of (State.hostWrite_kept _ _ _) .refl))
  have h13 : Kept reports s x7 := (.upd [.host] h12)
  have h14 : Kept reports s x8 := (.of (State.countCodec_kept _ _ _) (.ite h13 (.of (State.count_kept _ _) h13)))
  have h15 : Kept reports s x11 := (.of (State.trace_kept _ _ _) h14)
  exact (.ite h14 (.of (State.obsTrigger_kept _ _) (.of (State.enqueue_kept _ _ _) h15)))

theorem State.complete_kept (s : State) (a1 : ℕ) (a2 : ℕ) (a3 : ℕ) (a4 : List Byte) :
    Kept reports s (State.complete s a1 a2 a3 a4) := by
  delta State.complete
  split
  · exact .refl
  · exact (.of (State.completeJob_kept _ _ _ _ _) .refl)

theorem State.setCons_kept (s : State) (a1 : ℕ) (a2 : ℕ) :
    Kept [.regs, .hostMem, .host] s (State.setCons s a1 a2) := by
  delta State.setCons
  extract_lets _ _ x5
  have h6 : Kept [.regs, .hostMem, .host] s x5 := (.of (State.put_kept _ _ _) .refl)
  exact (.ite h6 (.of (State.hostWrite_kept _ _ _) h6))

theorem State.takeJob_kept (s : State) (a1 : Desc) :
    Kept reports s (State.takeJob s a1) := by
  delta State.takeJob
  extract_lets _ _ _ x5 _ x7
  have h8 : Kept reports s x5 := (.of (State.setCons_kept _ _ _) (.of (State.put_kept _ _ _) .refl))
  have h9 : Kept reports s x7 := (.upd [.host] h8)
  exact (.of (State.count_kept _ _) h9)

theorem State.withDesc_kept {P : List Part} {s : State} (b : State) (d : Desc) (dram full : Bool) (checks : List (Nat × Bool))
    {k : State → Job → State} (hk : ∀ x j, Kept P s x → Kept P s (k x j)) (h : Kept P s b)
    (hq : Part.allIn reports P = true := by rfl) : Kept P s (b.withDesc d dram full checks k) := by
  delta State.withDesc
  split
  · exact h
  · split
    · exact .of (State.complete_kept _ _ _ _ _) (.of (State.raise_kept _ _ _) (.of (State.takeJob_kept _ _) h hq) hq) hq
    · refine .ite (.ite h (.of (State.raise_kept _ _ _) (.of (State.put_kept _ _ _) h ?_) hq)) (hk _ _ (.of (State.takeJob_kept _ _) h hq))
      exact Part.allIn_trans (by rfl) hq
  · exact .of (State.put_kept _ _ _) h (Part.allIn_trans (by rfl) hq)

/-! ### Ledger -/

theorem State.modStrip_kept (s : State) (a1 : ℕ) (a2 : Strip → Strip) :
    Kept [.box] s (State.modStrip s a1 a2) := by
  delta State.modStrip
  extract_lets _
  exact (.upd [.box] .refl)

theorem State.modStream_kept (s : State) (a1 : ℕ) (a2 : Stream → Stream) :
    Kept [.box] s (State.modStream s a1 a2) := by
  delta State.modStream
  extract_lets _
  exact (.upd [.box] .refl)

theorem State.modLedger_kept (s : State) (a1 : ℕ) (a2 : StripLedger → StripLedger) :
    Kept [.store] s (State.modLedger s a1 a2) := by
  delta State.modLedger
  extract_lets _
  exact (.upd [.store] .refl)

theorem State.showConfig_kept (s : State) :
    Kept [.regs] s (State.showConfig s) := by
  delta State.showConfig
  exact (.of (State.put_kept _ _ _) .refl)

theorem State.modReam_kept (s : State) (a1 : ℕ) (a2 : ℕ) (a3 : ReamSlot → ReamSlot) :
    Kept [.store] s (State.modReam s a1 a2 a3) := by
  delta State.modReam
  extract_lets _
  exact (.upd [.store] .refl)

theorem State.modTile_kept (s : State) (a1 : ℕ) (a2 : ℕ) (a3 : ℕ) (a4 : TileRec → TileRec) :
    Kept [.store] s (State.modTile s a1 a2 a3 a4) := by
  delta State.modTile
  exact (.of (State.modReam_kept _ _ _ _) .refl)

theorem State.showStore_kept (s : State) :
    Kept [.regs] s (State.showStore s) := by
  delta State.showStore
  exact (.of (State.puts_kept _ _) .refl)

theorem State.recordMark_kept (s : State) (a1 : ℕ) (a2 : Mark) :
    Kept [.store] s (State.recordMark s a1 a2).1 := by
  delta State.recordMark
  exact (by split; exacts [.refl, (.of (State.modLedger_kept _ _ _) .refl)])

theorem State.marksUsed_kept (s : State) (a1 : ℕ) :
    Kept (.box :: reports) s (State.marksUsed s a1) := by
  delta State.marksUsed
  exact (.ite .refl (.of (State.raise_kept _ _ _) (.of (State.modStrip_kept _ _ _) .refl)))

theorem State.setFinalBreak_kept (s : State) (a1 : ℕ) (a2 : ℕ) :
    Kept [.store] s (State.setFinalBreak s a1 a2) := by
  delta State.setFinalBreak
  exact (.ite (.of (State.modLedger_kept _ _ _) .refl) .refl)

theorem State.showLead_kept (s : State) :
    Kept [.regs] s (State.showLead s) := by
  delta State.showLead
  split
  · exact (.of (State.put_kept _ _ _) .refl)
  · exact (.of (State.put_kept _ _ _) .refl)

theorem State.storeBreak_kept (s : State) (a1 : ℕ) (a2 : ℕ) (a3 : ℕ) (a4 : ℤ) :
    Kept (.seq :: reports) s (State.storeBreak s a1 a2 a3 a4) := by
  delta State.storeBreak
  extract_lets x5 _
  have h7 : Kept (.seq :: reports) s x5 := (.of (State.raise_kept _ _ _) .refl)
  exact (.upd [.seq] h7)

theorem State.requestLedger_kept (s : State) (a1 : ℕ) (a2 : ℕ) (a3 : ℕ) (a4 : Option ℤ) (a5 : Bool) :
    Kept (.box :: .store :: .seq :: reports) s (State.requestLedger s a1 a2 a3 a4 a5) := by
  delta State.requestLedger
  extract_lets x6 x7 _ _ x10 x11 _
  have h13 : Kept (.box :: .store :: .seq :: reports) s x6 := (.of (State.count_kept _ _) .refl)
  have h14 : ∀ (a15 : State) (a17 : Bool) (h16 : Kept (.box :: .store :: .seq :: reports) s a15), Kept (.box :: .store :: .seq :: reports) s (x7 a15 a17) := by
    intro a15 a17 h16
    unfold x7
    extract_lets _
    exact (.upd [.store] h16)
  have h19 : Kept (.box :: .store :: .seq :: reports) s x10 := (.of (State.raise_kept _ _ _) h13)
  have h20 : Kept (.box :: .store :: .seq :: reports) s x11 := (h14 _ _ h13)
  split
  · extract_lets x21
    have h22 : Kept (.box :: .store :: .seq :: reports) s x21 := (.ite h13 (.of (State.raise_kept _ _ _) h13))
    split
    · exact (.of (State.storeBreak_kept _ _ _ _ _) (h14 _ _ h22))
    · exact (h14 _ _ h22)
  · exact (.ite (.of (State.storeBreak_kept _ _ _ _ _) (h14 _ _ h19)) (.upd [.box] h20))

theorem State.retryLost_kept (s : State) :
    Kept (.box :: .store :: .seq :: reports) s (State.retryLost s) := by
  delta State.retryLost
  exact (.fold (fun _ _ h1 => (.of (State.requestLedger_kept _ _ _ _ _ _) h1)) .refl)

theorem State.loseTile_kept (s : State) (a1 : Strip) (a2 : ℕ) (a3 : ℕ) :
    Kept (.box :: .store :: .seq :: reports) s (State.loseTile s a1 a2 a3) := by
  delta State.loseTile
  extract_lets x4
  have h5 : Kept (.box :: .store :: .seq :: reports) s x4 := (.of (State.modTile_kept _ _ _ _ _) .refl)
  exact (.ite h5 (.of (State.requestLedger_kept _ _ _ _ _ _) h5))

theorem State.releaseReam_kept (s : State) (a1 : ℕ) (a2 : ℕ) :
    Kept (.box :: .store :: .seq :: reports) s (State.releaseReam s a1 a2) := by
  delta State.releaseReam
  extract_lets _ _ x5
  have h6 : Kept (.box :: .store :: .seq :: reports) s x5 := (.upd [.store] .refl)
  split
  · exact .refl
  · extract_lets x7
    have h8 : Kept (.box :: .store :: .seq :: reports) s x7 := (.of (State.modStrip_kept _ _ _) (.of (State.modLedger_kept _ _ _) h6))
    exact (.of (State.retryLost_kept _) (.of (State.showStore_kept _) (.of (State.count_kept _ _) h8)))

theorem State.releaseRepaired_kept (s : State) (a1 : Strip) :
    Kept (.box :: .store :: .seq :: reports) s (State.releaseRepaired s a1) := by
  delta State.releaseRepaired
  exact (.fold (fun _ _ h2 => (.ite (.of (State.releaseReam_kept _ _ _) h2) h2)) .refl)

/-! ### Bursts -/

theorem State.setErase_kept (s : State) (a1 : ℕ) (a2 : ℕ) :
    Kept [.regs] s (State.setErase s a1 a2) := by
  delta State.setErase
  extract_lets _
  exact (.of (State.put_kept _ _ _) .refl)

theorem State.setFlaw_kept (s : State) (a1 : ℕ) (a2 : List ℕ) :
    Kept [.mem] s (State.setFlaw s a1 a2) := by
  delta State.setFlaw
  extract_lets _ _ _
  exact (.upd [.mem] .refl)

theorem State.storeWord_kept (s : State) (a1 : ℕ) (a2 : List ℕ) :
    Kept [.dram, .mem] s (State.storeWord s a1 a2) := by
  delta State.storeWord
  extract_lets _ x4
  have h5 : Kept [.dram, .mem] s x4 := (.upd [.dram] .refl rfl rfl (.inl rfl) (.inl rfl) (.inr fun w => by first | (dsimp only; exact (Memory.writeBytes_wf _ _ w)) | exact (Memory.writeBytes_wf _ _ w)))
  exact (.of (State.setFlaw_kept _ _ _) h5)

theorem State.consumePoison_kept (s : State) (a1 : ℕ) (a2 : ℕ) :
    Kept reports s (State.consumePoison s a1 a2) := by
  delta State.consumePoison
  exact (.of (State.raise_kept _ _ _) (.of (State.count_kept _ _) .refl))

theorem State.consumeFlagged_kept (s : State) (a1 : ℕ) :
    Kept reports s (State.consumeFlagged s a1) := by
  delta State.consumeFlagged
  exact (.of (State.raise_kept _ _ _) .refl)

theorem State.listPoison_kept (s : State) (a1 : ℕ) :
    Kept [.mem] s (State.listPoison s a1).1 := by
  delta State.listPoison
  extract_lets _ _
  exact (by split; exacts [.refl, (by split; exacts [.refl, (.upd [.mem] .refl)])])

theorem State.unlist_kept (s : State) (a1 : ℕ) :
    Kept [.mem] s (State.unlist s a1) := by
  delta State.unlist
  extract_lets _
  exact (.upd [.mem] .refl)

theorem State.rewrite_kept (s : State) (a1 : ℕ) (a2 : Bool) :
    Kept (.mem :: reports) s (State.rewrite s a1 a2) := by
  delta State.rewrite
  extract_lets _ x4 x5 _ x7 _
  have h9 : Kept (.mem :: reports) s x4 := (.upd [.mem] .refl)
  have h10 : Kept (.mem :: reports) s x5 := (.of (State.setFlaw_kept _ _ _) h9)
  have h11 : Kept (.mem :: reports) s x7 := (.of (State.listPoison_kept _ _) h10)
  exact (.ite (.ite (.ite (.of (State.listPoison_kept _ _) h10) (.of (State.raise_kept _ _ _) (.upd [.mem] h11))) (.of (State.unlist_kept _ _) h10)) (.of (State.unlist_kept _ _) (.of (State.setFlaw_kept _ _ _) h9)))

theorem State.writeBurst_kept (s : State) (a1 : ℕ) (a2 : ℕ) (a3 : List Byte) (a4 : Bool) :
    Kept (.dram :: .mem :: reports) s (State.writeBurst s a1 a2 a3 a4) := by
  delta State.writeBurst
  extract_lets _
  exact (.of (State.rewrite_kept _ _ _) (.upd [.dram] .refl rfl rfl (.inl rfl) (.inl rfl) (.inr fun w => by first | (dsimp only; exact (Memory.writeBytes_wf _ _ w)) | exact (Memory.writeBytes_wf _ _ w))))

theorem State.settle_kept (s : State) (a1 : ℕ) (a2 : ℕ) :
    Kept (.mem :: reports) s (State.settle s a1 a2) := by
  delta State.settle
  extract_lets _
  exact (.ite .refl (.fold (fun _ _ h4 => (.ite (.of (State.rewrite_kept _ _ _) h4) (.of (State.rewrite_kept _ _ _) h4))) .refl))

/-! ### Host -/

theorem State.ringError_kept (s : State) (a1 : ℕ) (a2 : ℕ) :
    Kept reports s (State.ringError s a1 a2) := by
  delta State.ringError
  exact (.of (State.raise_kept _ _ _) (.of (State.puts_kept _ _) .refl))

theorem execSqDoorbell_kept (a1 : Fin 32) (a2 : Word) (s : State) :
    OutKept reports s (execSqDoorbell a1 a2 s) := by
  delta execSqDoorbell
  extract_lets _ _
  exact (.ite (.next (.of (State.domainOffAccess_kept _ _) .refl)) (.ite (.next (.of (State.ringError_kept _ _ _) .refl)) (.next (.of (State.put_kept _ _ _) .refl))))

theorem State.modEq_kept (s : State) (a1 : ℕ) (a2 : EventRing → EventRing) :
    Kept [.host] s (State.modEq s a1 a2) := by
  delta State.modEq
  extract_lets _
  exact (.upd [.host] .refl)

theorem execEqDoorbell_kept (a1 : Fin 8) (a2 : Word) (s : State) :
    OutKept reports s (execEqDoorbell a1 a2 s) := by
  delta execEqDoorbell
  extract_lets _ _ _
  exact (.ite (.next (.of (State.domainOffAccess_kept _ _) .refl)) (.ite (.next (.of (State.raise_kept _ _ _) .refl)) (.next (.of (State.modEq_kept _ _ _) (.of (State.put_kept _ _ _) .refl)))))

theorem State.writeRecord_kept (s : State) (a1 : ℕ) (a2 : Bool → List Byte) :
    Kept [.regs, .hostMem] s (State.writeRecord s a1 a2) := by
  delta State.writeRecord
  extract_lets _ _ _ x6 x7
  have h8 : Kept [.regs, .hostMem] s x6 := (.of (State.writeHost_kept _ _ _) .refl)
  have h9 : Kept [.regs, .hostMem] s x7 := (.of (State.put_kept _ _ _) h8)
  exact (.ite (.of (State.put_kept _ _ _) h9) h9)

theorem execEventRecordWrite_kept (a1 : Fin 8) (s : State) :
    OutKept [.regs, .hostMem, .host] s (execEventRecordWrite a1 s) := by
  delta execEventRecordWrite
  extract_lets _
  split
  · exact (.next .refl)
  · extract_lets x3 x4
    have h5 : Kept [.regs, .hostMem, .host] s x3 := (.of (State.writeRecord_kept _ _ _) .refl)
    have h6 : Kept [.regs, .hostMem, .host] s x4 := (.fold (fun _ _ h7 => (.of (State.writeRecord_kept _ _ _) h7)) h5)
    exact (.ite (.next (.of (State.modEq_kept _ _ _) h6)) (.next .refl))

theorem State.sendMsix_kept (s : State) (a1 : ℕ) :
    Kept reports s (State.sendMsix s a1) := by
  delta State.sendMsix
  extract_lets _
  exact (.ite (.upd [.host] .refl) (.of (State.count_kept _ _) (.upd [.host] .refl)))

theorem execEqInterrupt_kept (a1 : Fin 8) (s : State) :
    OutKept reports s (execEqInterrupt a1 s) := by
  delta execEqInterrupt
  exact (.ite (.next (.of (State.modEq_kept _ _ _) (.of (State.sendMsix_kept _ _) .refl))) (.next .refl))

theorem execMsixUnmask_kept (a1 : Fin 64) (s : State) :
    OutKept reports s (execMsixUnmask a1 s) := by
  delta execMsixUnmask
  extract_lets _ _ x4
  have h5 : Kept reports s x4 := (.of (State.put_kept _ _ _) (.upd [.host] .refl))
  exact (.ite (.next (.of (State.domainOffAccess_kept _ _) .refl)) (.next (.ite (.of (State.sendMsix_kept _ _) h5) h5)))

theorem State.forgetJob_kept (s : State) (a1 : ℕ) :
    Kept [.store, .tid, .hcr, .aux, .mem] s (State.forgetJob s a1) := by
  delta State.forgetJob
  extract_lets _ _ _ _ _
  exact (.upd [.store, .tid, .hcr, .aux, .mem] .refl)

theorem State.layoutFails_kept (s : State) (a1 : ℕ) (a2 : Stream) (a3 : LayoutJob) (a4 : ℕ) (a5 : ℕ) :
    Kept (.box :: reports) s (State.layoutFails s a1 a2 a3 a4 a5) := by
  delta State.layoutFails
  extract_lets _ _ _ x9
  have h10 : Kept (.box :: reports) s x9 := (.upd [.box] .refl)
  exact (.fold (fun _ _ h11 => (.of (State.complete_kept _ _ _ _ _) h11)) (.of (State.complete_kept _ _ _ _ _) h10))

theorem State.readFailed_kept (s : State) (a1 : HostRead) (a2 : ℕ) :
    Kept (.box :: .store :: .tid :: .hcr :: .aux :: .mem :: reports) s (State.readFailed s a1 a2) := by
  delta State.readFailed
  split
  · exact (.of (State.ringError_kept _ _ _) .refl)
  · extract_lets x3
    clear_value x3
    split
    · exact (.of (State.layoutFails_kept _ _ _ _ _ _) .refl)
    · exact (.of (State.complete_kept _ _ _ _ _) (.of (State.forgetJob_kept _ _) .refl))

theorem execHostReadTimeout_kept (a1 : HostRead) (s : State) :
    OutKept (.box :: .store :: .tid :: .hcr :: .aux :: .mem :: reports) s (execHostReadTimeout a1 s) := by
  delta execHostReadTimeout
  extract_lets _ _ x4 _ x6 x7
  have h8 : Kept (.box :: .store :: .tid :: .hcr :: .aux :: .mem :: reports) s x4 := (.of (State.count_kept _ _) .refl)
  have h9 : Kept (.box :: .store :: .tid :: .hcr :: .aux :: .mem :: reports) s x6 := (.upd [.host] h8)
  have h10 : Kept (.box :: .store :: .tid :: .hcr :: .aux :: .mem :: reports) s x7 := (.of (State.raise_kept _ _ _) h9)
  exact (.ite (.next .refl) (.ite (.next .refl) (.ite (.next (.of (State.count_kept _ _) (.upd [.host] h8))) (.next (.of (State.readFailed_kept _ _ _) h10)))))

theorem execHostReadError_kept (a1 : HostRead) (a2 : BitVec 3) (s : State) :
    OutKept (.box :: .store :: .tid :: .hcr :: .aux :: .mem :: reports) s (execHostReadError a1 a2 s) := by
  delta execHostReadError
  extract_lets _ x4 x5
  have h6 : Kept (.box :: .store :: .tid :: .hcr :: .aux :: .mem :: reports) s x4 := (.upd [.host] .refl)
  have h7 : Kept (.box :: .store :: .tid :: .hcr :: .aux :: .mem :: reports) s x5 := (.of (State.raise_kept _ _ _) h6)
  exact (.ite (.next .refl) (.ite (by
    split
    · exact (.next (.of (State.ringError_kept _ _ _) .refl))
    · exact (.next .refl)) (.next (.of (State.readFailed_kept _ _ _) h7))))

theorem execPcieLinkDown_kept (s : State) :
    OutKept reports s (execPcieLinkDown s) := by
  delta execPcieLinkDown
  exact (.ite (.next (.of (State.raise_kept _ _ _) (.of (State.puts_kept _ _) .refl))) (.next .refl))

theorem State.flushHeld_kept (s : State) :
    Kept [.hostMem, .host] s (State.flushHeld s) := by
  delta State.flushHeld
  extract_lets _ _
  exact (.fold (fun _ _ h3 => (.of (State.writeHost_kept _ _ _) h3)) (.upd [.host] .refl))

theorem execPcieLinkUp_kept (a1 : Fin 6) (a2 : Fin 17) (s : State) :
    OutKept reports s (execPcieLinkUp a1 a2 s) := by
  delta execPcieLinkUp
  extract_lets x3 x4
  have h5 : Kept reports s x3 := (.of (State.puts_kept _ _) .refl)
  have h6 : Kept reports s x4 := (.ite h5 (.of (State.flushHeld_kept _) h5))
  exact (.ite (.next .refl) (.next (.of (State.raise_kept _ _ _) h6)))

theorem State.ringBusy_kept (s : State) (a1 : Field) (a2 : ℕ) (a3 : ℕ) :
    Kept reports s (State.ringBusy s a1 a2 a3) := by
  delta State.ringBusy
  exact (.of (State.raise_kept _ _ _) (.of (State.put_kept _ _ _) .refl))

theorem State.writeHalf_kept (s : State) (a1 : ℕ) (a2 : Option (Fin 2)) (a3 : BitVec 64) :
    Kept reports s (State.writeHalf s a1 a2 a3) := by
  delta State.writeHalf
  split
  · exact (.of (State.writePair_kept _ _ _) .refl)
  · exact (.of (State.writeWord_kept _ _ _) .refl)

theorem execHstSqBaseWrite_kept (a1 : Fin 32) (a2 : HalfWrite) (s : State) :
    OutKept reports s (execHstSqBaseWrite a1 a2 s) := by
  delta execHstSqBaseWrite
  extract_lets _
  exact (.ite (.next (.of (State.domainOffAccess_kept _ _) .refl)) (.ite (.next (.of (State.put_kept _ _ _) (.of (State.ringBusy_kept _ _ _ _) .refl))) (.next (.of (State.setCons_kept _ _ _) (.of (State.put_kept _ _ _) (.of (State.writeHalf_kept _ _ _ _) .refl))))))

theorem execHstSqCfgWrite_kept (a1 : Fin 32) (a2 : Word) (s : State) :
    OutKept reports s (execHstSqCfgWrite a1 a2 s) := by
  delta execHstSqCfgWrite
  extract_lets x3
  have h4 : Kept reports s x3 := (.of (State.writeWord_kept _ _ _) .refl)
  exact (.ite (.next (.of (State.domainOffAccess_kept _ _) .refl)) (.ite (.next (.of (State.put_kept _ _ _) (.of (State.ringBusy_kept _ _ _ _) .refl))) (.next (.ite (.of (State.put_kept _ _ _) h4) h4))))

theorem execHstEqBaseWrite_kept (a1 : Fin 8) (a2 : HalfWrite) (s : State) :
    OutKept reports s (execHstEqBaseWrite a1 a2 s) := by
  delta execHstEqBaseWrite
  extract_lets _
  exact (.ite (.next (.of (State.domainOffAccess_kept _ _) .refl)) (.ite (.next (.of (State.ringBusy_kept _ _ _ _) .refl)) (.next (.of (State.puts_kept _ _) (.of (State.writeHalf_kept _ _ _ _) .refl)))))

theorem execHstEqCfgWrite_kept (a1 : Fin 8) (a2 : Word) (s : State) :
    OutKept reports s (execHstEqCfgWrite a1 a2 s) := by
  delta execHstEqCfgWrite
  extract_lets x3
  have h4 : Kept reports s x3 := (.of (State.writeWord_kept _ _ _) .refl)
  exact (.ite (.next (.of (State.domainOffAccess_kept _ _) .refl)) (.ite (.next (.of (State.ringBusy_kept _ _ _ _) .refl)) (.next (.ite (.of (State.modEq_kept _ _ _) h4) h4))))

theorem execHstCtrlWrite_kept (a1 : Word) (s : State) :
    OutKept reports s (execHstCtrlWrite a1 s) := by
  delta execHstCtrlWrite
  exact (.next (.of (State.writeWord_kept _ _ _) .refl))

theorem State.takeBack_kept (s t : State) (base : Nat) (idx : List Nat) (off : Nat) : Kept [.regs] t (s.takeBack t base idx off) := by
  delta State.takeBack
  dsimp only
  split
  · exact State.put_kept _ _ _
  · exact State.puts_kept _ _
  · exact State.put_kept _ _ _
  · exact .upd [.regs] .refl rfl rfl (.inr fun w => by dsimp only; exact cellWf_set _ _ w)

theorem State.plainWrite_kept (s : State) (a1 : ℕ) (a2 : BitVec 32) :
    Kept reports s (State.plainWrite s a1 a2) := by
  delta State.plainWrite
  split
  · exact .refl
  · extract_lets x3
    have h4 : Kept reports s x3 := (.of (State.writeWord_kept _ _ _) .refl)
    exact (.ite .refl (.ite h4 (.of (State.takeBack_kept _ _ _ _ _) h4)))

theorem State.plainPair_kept (s : State) (a1 : ℕ) (a2 : BitVec 64) :
    Kept reports s (State.plainPair s a1 a2) := by
  delta State.plainPair
  extract_lets x3 x4 _
  have h6 : Kept reports s x3 := (.of (State.plainWrite_kept _ _ _) (.of (State.plainWrite_kept _ _ _) .refl))
  have h7 : Kept reports s x4 := (.of (State.writePair_kept _ _ _) .refl)
  split
  · exact h6
  · exact (.ite (.ite .refl (.ite h7 (.of (State.takeBack_kept _ _ _ _ _) (.of (State.takeBack_kept _ _ _ _ _) h7)))) h6)

theorem execRegisterWrite_kept (a1 : BitVec 25) (a2 : Bool) (a3 : BitVec 64) (s : State) :
    OutKept reports s (execRegisterWrite a1 a2 a3 s) := by
  delta execRegisterWrite
  extract_lets _
  exact (.ite (.ite (.next .refl) (.next (.of (State.plainPair_kept _ _ _) .refl))) (.ite (.next .refl) (.next (.of (State.plainWrite_kept _ _ _) .refl))))

theorem execCounterClear_kept (a1 : BitVec 25) (a2 : Bool) (a3 : BitVec 64) (s : State) :
    OutKept reports s (execCounterClear a1 a2 a3 s) := by
  delta execCounterClear
  extract_lets _
  split
  · exact (.ite (.ite (.next (.of (State.domainOffAccess_kept _ _) .refl)) (.ite (.next (.upd [.regs] .refl rfl rfl (.inr fun w => by first | (dsimp only; exact (cellWf_set _ _ (cellWf_set _ _ w))) | exact (cellWf_set _ _ (cellWf_set _ _ w))) (.inl rfl) (.inl rfl))) (.next .refl))) (.next .refl))
  · exact (.next .refl)

theorem execNop_kept (a1 : Desc) (s : State) :
    OutKept reports s (execNop a1 s) := by
  delta execNop
  extract_lets _
  exact (.ite (.next (State.withDesc_kept _ _ _ _ _ (fun _ _ h3 => (.of (State.complete_kept _ _ _ _ _) h3)) .refl)) (.next .refl))

theorem State.writeSpace_kept (s : State) (a1 : Bool) (a2 : ℕ) (a3 : List Byte) :
    Kept (.dram :: .mem :: reports) s (State.writeSpace s a1 a2 a3) := by
  delta State.writeSpace
  extract_lets x4
  have h5 : Kept (.dram :: .mem :: reports) s x4 := (.of (State.settle_kept _ _ _) .refl)
  exact (.ite (.upd [.dram] h5 rfl rfl (.inl rfl) (.inl rfl) (.inr fun w => by first | (dsimp only; exact (Memory.writeBytes_wf _ _ w)) | exact (Memory.writeBytes_wf _ _ w))) (.of (State.writeHost_kept _ _ _) .refl))

theorem State.failRange_kept (s : State) (a1 : ℕ) (a2 : ℕ) (a3 : ℕ) :
    Kept reports s (State.failRange s a1 a2 a3) := by
  delta State.failRange
  exact (.of (State.complete_kept _ _ _ _ _) (.of (State.raise_kept _ _ _) .refl))

/-! ### Vats -/

theorem State.showVats_kept (s : State) :
    Kept [.regs] s (State.showVats s) := by
  delta State.showVats
  extract_lets x1
  have h2 : Kept [.regs] s x1 := (.fold (fun _ _ h3 => (.of (State.put_kept _ _ _) h3)) .refl)
  exact (.of (State.puts_kept _ _) h2)

theorem State.setRole_kept (s : State) (a1 : ℕ) (a2 : ℕ) :
    Kept [.regs] s (State.setRole s a1 a2) := by
  delta State.setRole
  exact (.of (State.showVats_kept _) (.of (State.put_kept _ _ _) .refl))

theorem State.poolEvents_kept (s : State) (a1 : ℕ) (a2 : ℕ) (a3 : ℕ) :
    Kept reports s (State.poolEvents s a1 a2 a3) := by
  delta State.poolEvents
  extract_lets _ _ x6
  have h7 : Kept reports s x6 := (.ite (.of (State.raise_kept _ _ _) .refl) .refl)
  exact (.ite (.of (State.raise_kept _ _ _) h7) h7)

theorem State.retireVat_kept (s : State) (a1 : ℕ) (a2 : ℕ) (a3 : List (ℕ × ℕ)) (a4 : ℕ) (a5 : ℕ) (a6 : ℕ) :
    Kept reports s (State.retireVat s a1 a2 a3 a4 a5 a6) := by
  delta State.retireVat
  extract_lets _ _ _ x10 x11
  have h12 : Kept reports s x10 := (.of (State.raise_kept _ _ _) (.of (State.setRole_kept _ _ _) .refl))
  have h13 : Kept reports s x11 := (.ite (by
      split
      · exact (.of (State.raise_kept _ _ _) (.of (State.setRole_kept _ _ _) h12))
      · exact h12) h12)
  exact (.ite .refl (.of (State.poolEvents_kept _ _ _ _) h13))

theorem State.showJobs_kept (s : State) :
    Kept [.regs] s (State.showJobs s) := by
  delta State.showJobs
  extract_lets x1
  have h2 : Kept [.regs] s x1 := (.of (State.put_kept _ _ _) .refl)
  exact (.fold (fun _ _ h3 => (by
      extract_lets _ _
      exact (.of (State.puts_kept _ _) h3))) h2)

theorem State.settleVats_kept (s : State) :
    Kept (.box :: reports) s (State.settleVats s) := by
  delta State.settleVats
  extract_lets _ _ _ _ x5 x6
  have h7 : Kept (.box :: reports) s x5 := (.upd [.box] .refl)
  have h8 : Kept (.box :: reports) s x6 := (.fold (fun _ _ h9 => (.of (State.put_kept _ _ _) h9)) h7)
  exact (.ite .refl (.of (State.poolEvents_kept _ _ _ _) (.of (State.showVats_kept _) h8)))

theorem State.dropJobs_kept (s : State) (a1 : TileJob → Bool) :
    Kept (.box :: reports) s (State.dropJobs s a1) := by
  delta State.dropJobs
  extract_lets _
  exact (.of (State.settleVats_kept _) (.of (State.showJobs_kept _) (.upd [.box] .refl)))

theorem State.applyVatRoles_kept (s : State) :
    Kept (.box :: reports) s (State.applyVatRoles s) := by
  delta State.applyVatRoles
  extract_lets _ _ _ _ _ _ _ x8 _ x10
  have h11 : Kept (.box :: reports) s x8 := (.fold (fun _ _ h12 => (.of (State.put_kept _ _ _) h12)) .refl)
  have h13 : Kept (.box :: reports) s x10 := (.upd [.box] h11)
  exact (.ite .refl (.ite .refl (.of (State.poolEvents_kept _ _ _ _) (.of (State.showVats_kept _) h13))))

/-! ### Stops -/

theorem State.reblank_kept (s : State) :
    Kept [.regs] s (State.reblank s) := by
  delta State.reblank
  exact (.of (State.put_kept _ _ _) .refl)

theorem State.enter_kept (s : State) (a1 : ℕ) :
    Kept [.regs] s (State.enter s a1) := by
  delta State.enter
  exact (.of (State.reblank_kept _) (.of (State.put_kept _ _ _) .refl))

theorem State.modPort_kept (s : State) (a1 : ℕ) (a2 : CscPort → CscPort) :
    Kept [.csc] s (State.modPort s a1 a2) := by
  delta State.modPort
  extract_lets _
  exact (.upd [.csc] .refl)

theorem State.send_kept (s : State) (a1 : ℕ) (a2 : ℕ) (a3 : List ℤ) :
    Kept [.csc] s (State.send s a1 a2 a3) := by
  delta State.send
  exact (.of (State.modPort_kept _ _ _) .refl)

theorem State.sendAll_kept (s : State) (a1 : ℕ) (a2 : List ℤ) :
    Kept [.csc] s (State.sendAll s a1 a2) := by
  delta State.sendAll
  exact (.fold (fun _ _ h3 => (.of (State.send_kept _ _ _ _) h3)) .refl)

theorem State.tellSlaves_kept (s : State) (a1 : List ℤ) :
    Kept [.csc] s (State.tellSlaves s a1) := by
  delta State.tellSlaves
  exact (.ite (.of (State.sendAll_kept _ _ _) .refl) .refl)

theorem State.holdForHost_kept (s : State) (a1 : ℕ) :
    Kept [.regs, .box] s (State.holdForHost s a1) := by
  delta State.holdForHost
  exact (.of (State.put_kept _ _ _) (.of (State.modStrip_kept _ _ _) .refl))

theorem State.stopProfile_kept (s : State) :
    Kept [.regs, .tid] s (State.stopProfile s) := by
  delta State.stopProfile
  extract_lets _ x2 _
  have h4 : Kept [.regs, .tid] s x2 := (.of (State.put_kept _ _ _) .refl)
  exact (.ite (.upd [.tid] h4) .refl)

theorem State.sendStop_kept (s : State) (a1 : ℕ) (a2 : ℕ) (a3 : ℤ) (a4 : ℕ) :
    Kept [.csc] s (State.sendStop s a1 a2 a3 a4) := by
  delta State.sendStop
  exact (.ite (.of (State.sendAll_kept _ _ _) .refl) .refl)

theorem State.enterBreak_kept (s : State) (a1 : ℕ) (a2 : ℕ) (a3 : ℤ) (a4 : Bool) (a5 : List (ℕ × ℕ)) :
    Kept (.box :: .store :: .seq :: .tid :: reports) s (State.enterBreak s a1 a2 a3 a4 a5) := by
  delta State.enterBreak
  split
  · exact .refl
  · extract_lets _ _ _ x9 x10 x11 _ x13 x14 x15 x16
    have h17 : Kept (.box :: .store :: .seq :: .tid :: reports) s x9 := (.of (State.setFinalBreak_kept _ _ _) (.ite (.of (State.recordMark_kept _ _ _) .refl) (.of (State.marksUsed_kept _ _) (.of (State.recordMark_kept _ _ _) .refl))))
    have h18 : Kept (.box :: .store :: .seq :: .tid :: reports) s x10 := (.of (State.puts_kept _ _) h17)
    have h19 : Kept (.box :: .store :: .seq :: .tid :: reports) s x11 := (.of (State.modStrip_kept _ _ _) h18)
    have h20 : Kept (.box :: .store :: .seq :: .tid :: reports) s x13 := (.upd [.seq] h19)
    have h21 : Kept (.box :: .store :: .seq :: .tid :: reports) s x14 := (.ite (.of (State.holdForHost_kept _ _) h20) h20)
    have h22 : Kept (.box :: .store :: .seq :: .tid :: reports) s x15 := (.of (State.enter_kept _ _) (.of (State.stopProfile_kept _) h21))
    have h23 : Kept (.box :: .store :: .seq :: .tid :: reports) s x16 := (.of (State.count_kept _ _) h22)
    exact (.of (State.raise_kept _ _ _) h23)

theorem State.abandonFlood_kept (s : State) (a1 : ℕ) (a2 : AfterFlood) :
    Kept (.seq :: .tid :: .csc :: reports) s (State.abandonFlood s a1 a2) := by
  delta State.abandonFlood
  extract_lets _ _ x5 x6 x7 x8
  have h9 : Kept (.seq :: .tid :: .csc :: reports) s x5 := (.upd [.seq, .tid] .refl)
  have h10 : Kept (.seq :: .tid :: .csc :: reports) s x6 := (.of (State.enter_kept _ _) (.of (State.stopProfile_kept _) (.of (State.put_kept _ _ _) h9)))
  have h11 : Kept (.seq :: .tid :: .csc :: reports) s x7 := (.of (State.tellSlaves_kept _ _) h10)
  have h12 : Kept (.seq :: .tid :: .csc :: reports) s x8 := (.of (State.count_kept _ _) h11)
  split
  · exact .refl
  · exact (.ite .refl (.of (State.raise_kept _ _ _) h12))

theorem State.hardwareStop_kept (s : State) (a1 : ℕ) (a2 : Bool) :
    Kept (.box :: .store :: .seq :: .tid :: .csc :: reports) s (State.hardwareStop s a1 a2) := by
  delta State.hardwareStop
  extract_lets _ x4
  have h5 : Kept (.box :: .store :: .seq :: .tid :: .csc :: reports) s x4 := by
    unfold x4
    split
    · exact (.ite (.of (State.enterBreak_kept _ _ _ _ _ _) .refl) (.of (State.enterBreak_kept _ _ _ _ _ _) .refl))
    · exact (.of (State.enterBreak_kept _ _ _ _ _ _) .refl)
  split
  · exact (.ite (.of (State.put_kept _ _ _) .refl) .refl)
  · exact (.ite (.of (State.sendStop_kept _ _ _ _ _) h5) (.ite (.of (State.abandonFlood_kept _ _ _) .refl) (.ite (.of (State.holdForHost_kept _ _) .refl) .refl)))

theorem State.promptStop_kept (s : State) (a1 : ℕ) :
    Kept (.box :: .seq :: .tid :: .csc :: reports) s (State.promptStop s a1) := by
  delta State.promptStop
  extract_lets _ _ _
  split
  · exact .refl
  · exact (.ite (.ite (.ite (.of (State.holdForHost_kept _ _) .refl) .refl) (.of (State.sendStop_kept _ _ _ _ _) (.upd [.seq] .refl))) (.ite (.of (State.abandonFlood_kept _ _ _) .refl) (.ite (.of (State.holdForHost_kept _ _) .refl) .refl)))

theorem State.addMark_kept (s : State) (a1 : ℕ) (a2 : Mark) :
    Kept (.box :: .store :: .seq :: .tid :: .link :: .csc :: reports) s (State.addMark s a1 a2) := by
  delta State.addMark
  extract_lets _ _ x5 _ x7
  have h8 : Kept (.box :: .store :: .seq :: .tid :: .link :: .csc :: reports) s x5 := (.upd [.link] .refl)
  have h9 : Kept (.box :: .store :: .seq :: .tid :: .link :: .csc :: reports) s x7 := (.of (State.marksUsed_kept _ _) (.of (State.recordMark_kept _ _ _) h8))
  exact (.ite (.of (State.recordMark_kept _ _ _) h8) (.ite (.of (State.promptStop_kept _ _) h9) (.of (State.setFinalBreak_kept _ _ _) h9)))

theorem State.driverMark_kept (s : State) (a1 : ℕ) (a2 : ℕ) (a3 : ℕ) (a4 : ℕ) :
    Kept (.box :: .store :: .seq :: .tid :: .link :: .csc :: reports) s (State.driverMark s a1 a2 a3 a4) := by
  delta State.driverMark
  exact (.of (State.addMark_kept _ _ _) .refl)

theorem State.watchLead_kept (s : State) (a1 : Strip) (a2 : ℤ) :
    Kept (.seq :: reports) s (State.watchLead s a1 a2) := by
  delta State.watchLead
  extract_lets _ _ _ x6 _
  have h8 : Kept (.seq :: reports) s x6 := (.of (State.put_kept _ _ _) .refl)
  exact (.ite (.of (State.raise_kept _ _ _) (.upd [.seq] h8)) (.ite h8 (.upd [.seq] h8)))

theorem State.planStop_kept (s : State) (a1 : Strip) (a2 : ℤ) :
    Kept reports s (State.planStop s a1 a2) := by
  delta State.planStop
  extract_lets x3
  split
  · clear_value x3
    split
    · exact .refl
    · exact (.of (State.raise_kept _ _ _) (.of (State.puts_kept _ _) .refl))
  · extract_lets x4
    have h5 : Kept reports s x4 := (.of (State.puts_kept _ _) .refl)
    exact (.ite h5 (.of (State.raise_kept _ _ _) h5))

theorem State.carryOut_kept (s : State) (a1 : Strip) (a2 : ℤ) :
    Kept (.box :: .store :: .seq :: .tid :: .csc :: reports) s (State.carryOut s a1 a2) := by
  delta State.carryOut
  split
  · exact .refl
  · exact (.ite (by
      split
      · exact (.ite (.of (State.enterBreak_kept _ _ _ _ _ _) .refl) (.of (State.enterBreak_kept _ _ _ _ _ _) .refl))
      · exact (.of (State.sendStop_kept _ _ _ _ _) (.of (State.enterBreak_kept _ _ _ _ _ _) .refl))) .refl)

theorem State.addBarrier_kept (s : State) (a1 : ℕ) (a2 : ℤ) (a3 : ℕ) :
    Kept [.box] s (State.addBarrier s a1 a2 a3) := by
  delta State.addBarrier
  exact (.of (State.modStrip_kept _ _ _) .refl)

theorem State.deadEvent_kept (s : State) (a1 : List ℕ) (a2 : Bool) (a3 : ℕ) :
    Kept reports s (State.deadEvent s a1 a2 a3) := by
  delta State.deadEvent
  split
  · exact .refl
  · exact (.ite .refl (.of (State.raise_kept _ _ _) .refl))

theorem State.judgeHold_kept (s : State) :
    Kept reports s (State.judgeHold s) := by
  delta State.judgeHold
  extract_lets _ _ _ _ _ _ _ x8
  have h9 : Kept reports s x8 := (.of (State.puts_kept _ _) .refl)
  exact (.of (State.deadEvent_kept _ _ _ _) (.of (State.deadEvent_kept _ _ _ _) h9))

theorem State.showProfiles_kept (s : State) :
    Kept [.regs] s (State.showProfiles s) := by
  delta State.showProfiles
  exact (.of (State.put_kept _ _ _) .refl)

theorem State.stripSummary_kept (s : State) (a1 : Strip) :
    Kept reports s (State.stripSummary s a1) := by
  delta State.stripSummary
  exact (.of (State.raise_kept _ _ _) .refl)

theorem State.forgetStrip_kept (s : State) (a1 : ℕ) :
    Kept (.box :: .store :: .seq :: .tid :: .csc :: reports) s (State.forgetStrip s a1) := by
  delta State.forgetStrip
  extract_lets _ _ _ _ _ x7
  have h8 : Kept (.box :: .store :: .seq :: .tid :: .csc :: reports) s x7 := (.upd [.box, .store, .seq, .tid, .csc] .refl)
  exact (.of (State.showLead_kept _) (.of (State.showProfiles_kept _) (.of (State.showStore_kept _) (.of (State.dropJobs_kept _ _) h8))))

theorem State.completeAll_kept (s : State) (a1 : List ℕ) (a2 : ℕ) (a3 : ℕ) (a4 : List Byte) :
    Kept reports s (State.completeAll s a1 a2 a3 a4) := by
  delta State.completeAll
  exact (.fold (fun _ _ h5 => (.of (State.complete_kept _ _ _ _ _) h5)) .refl)

theorem State.freeSections_kept (s : State) (a1 : Strip) :
    Kept [.box] s (State.freeSections s a1) := by
  delta State.freeSections
  exact (.ite .refl (.of (State.modStream_kept _ _ _) .refl))

theorem State.noOpenStrip_kept (s : State) :
    Kept [.regs, .seq] s (State.noOpenStrip s) := by
  delta State.noOpenStrip
  extract_lets x1 _
  have h3 : Kept [.regs, .seq] s x1 := (.of (State.puts_kept _ _) .refl)
  exact (.upd [.seq] h3)

theorem State.endOpenStrip_kept (s : State) (a1 : Strip) (a2 : ℕ) :
    Kept (.box :: .store :: .seq :: .tid :: .csc :: reports) s (State.endOpenStrip s a1 a2) := by
  delta State.endOpenStrip
  extract_lets _ _ _ _ x7 x8 x9 x10 x11 x12 x13 x14 x15
  have h16 : Kept (.box :: .store :: .seq :: .tid :: .csc :: reports) s x7 := (.of (State.modLedger_kept _ _ _) .refl)
  have h17 : Kept (.box :: .store :: .seq :: .tid :: .csc :: reports) s x8 := (.of (State.countBy_kept _ _ _) h16)
  have h18 : Kept (.box :: .store :: .seq :: .tid :: .csc :: reports) s x9 := (.of (State.raise_kept _ _ _) h17)
  have h19 : Kept (.box :: .store :: .seq :: .tid :: .csc :: reports) s x10 := (.of (State.stripSummary_kept _ _) h18)
  have h20 : Kept (.box :: .store :: .seq :: .tid :: .csc :: reports) s x11 := (.of (State.completeAll_kept _ _ _ _ _) h19)
  have h21 : Kept (.box :: .store :: .seq :: .tid :: .csc :: reports) s x12 := (.of (State.completeAll_kept _ _ _ _ _) h20)
  have h22 : Kept (.box :: .store :: .seq :: .tid :: .csc :: reports) s x13 := (.of (State.complete_kept _ _ _ _ _) h21)
  have h23 : Kept (.box :: .store :: .seq :: .tid :: .csc :: reports) s x14 := (.of (State.noOpenStrip_kept _) (.of (State.forgetStrip_kept _ _) (.of (State.freeSections_kept _ _) h22)))
  have h24 : Kept (.box :: .store :: .seq :: .tid :: .csc :: reports) s x15 := (.ite (.of (State.raise_kept _ _ _) h23) h23)
  exact (.of (State.judgeHold_kept _) (.of (State.applyVatRoles_kept _) (.of (State.retryLost_kept _) h24)))

theorem State.endInterrupted_kept (s : State) (a1 : Strip) :
    Kept (.box :: .store :: .seq :: .tid :: .csc :: reports) s (State.endInterrupted s a1) := by
  delta State.endInterrupted
  extract_lets _ _ _ x5
  have h6 : Kept (.box :: .store :: .seq :: .tid :: .csc :: reports) s x5 := (.of (State.raise_kept _ _ _) .refl)
  exact (.of (State.tellSlaves_kept _ _) (.of (State.completeAll_kept _ _ _ _ _) (.of (State.endOpenStrip_kept _ _ _) h6)))

theorem State.dropPosted_kept (s : State) (a1 : Strip) (a2 : ℕ) (a3 : ℕ) :
    Kept (.box :: .store :: .seq :: .tid :: .csc :: reports) s (State.dropPosted s a1 a2 a3) := by
  delta State.dropPosted
  extract_lets _ x5 x6 x7 x8
  have h9 : Kept (.box :: .store :: .seq :: .tid :: .csc :: reports) s x5 := (.of (State.stripSummary_kept _ _) .refl)
  have h10 : Kept (.box :: .store :: .seq :: .tid :: .csc :: reports) s x6 := (.of (State.completeAll_kept _ _ _ _ _) h9)
  have h11 : Kept (.box :: .store :: .seq :: .tid :: .csc :: reports) s x7 := (.of (State.complete_kept _ _ _ _ _) h10)
  have h12 : Kept (.box :: .store :: .seq :: .tid :: .csc :: reports) s x8 := (.of (State.raise_kept _ _ _) (.of (State.modLedger_kept _ _ _) h11))
  exact (.of (State.retryLost_kept _) (.of (State.showStore_kept _) (.of (State.forgetStrip_kept _ _) (.of (State.freeSections_kept _ _) h12))))

theorem State.contentStop_kept (s : State) (a1 : Strip) (a2 : ℤ) (a3 : ℕ) (a4 : ℕ) (a5 : Bool) :
    Kept (.box :: .store :: .seq :: .tid :: .csc :: reports) s (State.contentStop s a1 a2 a3 a4 a5) := by
  delta State.contentStop
  extract_lets x6 _ _ x9
  have h10 : Kept (.box :: .store :: .seq :: .tid :: .csc :: reports) s x6 := (.of (State.completeAll_kept _ _ _ _ _) (.of (State.modStrip_kept _ _ _) .refl))
  have h11 : Kept (.box :: .store :: .seq :: .tid :: .csc :: reports) s x9 := (.ite (.of (State.addBarrier_kept _ _ _ _) h10) h10)
  exact (.ite (.ite (.of (State.abandonFlood_kept _ _ _) h11) (.ite (.of (State.addBarrier_kept _ _ _ _) h10) (.of (State.holdForHost_kept _ _) (.of (State.addBarrier_kept _ _ _ _) h10)))) (.ite (.of (State.modStrip_kept _ _ _) (.of (State.addBarrier_kept _ _ _ _) h10)) (.of (State.dropPosted_kept _ _ _ _) h10)))

/-! ### Layout -/

theorem State.judgeSeams_kept (s : State) (a1 : ℕ) :
    Kept (.box :: reports) s (State.judgeSeams s a1) := by
  delta State.judgeSeams
  split
  · exact .refl
  · extract_lets _
    split
    · exact .refl
    · extract_lets _ _ _ x6
      have h7 : Kept (.box :: reports) s x6 := (.of (State.modStrip_kept _ _ _) .refl)
      exact (.fold (fun _ _ h8 => (.of (State.raise_kept _ _ _) h8)) h7)

theorem State.streamFailed_kept (s : State) (a1 : ℕ) (a2 : ℕ) (a3 : ℕ) (a4 : CpsFault) :
    Kept (.box :: .store :: .seq :: .tid :: .csc :: reports) s (State.streamFailed s a1 a2 a3 a4) := by
  delta State.streamFailed
  extract_lets _ x6 _ x8 x9
  have h10 : Kept (.box :: .store :: .seq :: .tid :: .csc :: reports) s x6 := (.of (State.raiseSev_kept _ _ _ _) .refl)
  have h11 : Kept (.box :: .store :: .seq :: .tid :: .csc :: reports) s x8 := (.of (State.modStream_kept _ _ _) h10)
  have h12 : Kept (.box :: .store :: .seq :: .tid :: .csc :: reports) s x9 := (.of (State.completeAll_kept _ _ _ _ _) h11)
  exact (.fold (fun _ _ h13 => (.of (State.dropPosted_kept _ _ _ _) h13)) h12)

theorem State.stripFailed_kept (s : State) (a1 : ℕ) (a2 : ℕ) (a3 : ℕ) (a4 : ℕ) (a5 : Option ℕ) (a6 : CpsFault) :
    Kept (.box :: .store :: .seq :: .tid :: .csc :: reports) s (State.stripFailed s a1 a2 a3 a4 a5 a6) := by
  delta State.stripFailed
  extract_lets _ x8
  have h9 : Kept (.box :: .store :: .seq :: .tid :: .csc :: reports) s x8 := (.of (State.raiseSev_kept _ _ _ _) .refl)
  exact (.fold (fun _ _ h10 => (.of (State.contentStop_kept _ _ _ _ _ _) h10)) h9)

theorem State.meetRecord_kept (s : State) (a1 : ℕ) :
    Kept (.box :: .store :: .seq :: .tid :: .csc :: reports) s (State.meetRecord s a1) := by
  delta State.meetRecord
  split
  · exact .refl
  · split
    · exact .refl
    · extract_lets x2
      have h3 : Kept (.box :: .store :: .seq :: .tid :: .csc :: reports) s x2 := (.of (State.modLedger_kept _ _ _) .refl)
      exact (.ite (.of (State.dropPosted_kept _ _ _ _) (.of (State.raiseSev_kept _ _ _ _) h3)) (by
        split
        · exact (.ite h3 (.of (State.dropPosted_kept _ _ _ _) h3))
        · exact h3))

theorem State.completeLayouts_kept (s : State) (a1 : ℕ) (a2 : ℕ) :
    Kept (.box :: reports) s (State.completeLayouts s a1 a2) := by
  delta State.completeLayouts
  extract_lets _ _ x5
  have h6 : Kept (.box :: reports) s x5 := (.of (State.modStream_kept _ _ _) .refl)
  exact (.of (State.completeAll_kept _ _ _ _ _) h6)

theorem State.countRecord_kept (s : State) (a1 : ℕ) (a2 : ℕ) (a3 : Stream) :
    Kept (.box :: reports) s (State.countRecord s a1 a2 a3) := by
  delta State.countRecord
  extract_lets _ _
  split
  · exact .refl
  · extract_lets _ x7
    have h8 : Kept (.box :: reports) s x7 := (.fold (fun _ _ h9 => (.of (State.countBy_kept _ _ _) h9)) .refl)
    exact (.ite (by
      split
      · extract_lets x10
        have h11 : Kept (.box :: reports) s x10 := (.of (State.countBy_kept _ _ _) h8)
        exact (.ite (.of (State.modStream_kept _ _ _) (.of (State.count_kept _ _) h11)) h11)
      · exact h8) h8)

theorem State.applyParsed_kept (s : State) (a1 : ℕ) (a2 : ℕ) (a3 : ℕ) (a4 : Parsed) :
    Kept (.box :: .store :: .seq :: .tid :: .csc :: reports) s (State.applyParsed s a1 a2 a3 a4) := by
  delta State.applyParsed
  extract_lets _ x6 x7 x8
  have h9 : Kept (.box :: .store :: .seq :: .tid :: .csc :: reports) s x6 := (.of (State.modStream_kept _ _ _) .refl)
  have h10 : Kept (.box :: .store :: .seq :: .tid :: .csc :: reports) s x7 := by
    unfold x7
    split
    · exact (.of (State.countRecord_kept _ _ _ _) h9)
    · exact (.of (State.streamFailed_kept _ _ _ _ _) h9)
    · extract_lets x11
      have h12 : Kept (.box :: .store :: .seq :: .tid :: .csc :: reports) s x11 := (.of (State.stripFailed_kept _ _ _ _ _ _ _) h9)
      exact (.ite (.of (State.streamFailed_kept _ _ _ _ _) h12) h12)
  have h13 : Kept (.box :: .store :: .seq :: .tid :: .csc :: reports) s x8 := (.ite (.fold (fun _ _ h14 => (.of (State.meetRecord_kept _ _) h14)) h10) (.ite (.fold (fun _ _ h15 => (.of (State.judgeSeams_kept _ _) h15)) h10) h10))
  exact (.ite h13 (.of (State.completeLayouts_kept _ _ _) h13))

theorem State.checkEnd_kept (s : State) (a1 : ℕ) :
    Kept (.box :: .store :: .seq :: .tid :: .csc :: reports) s (State.checkEnd s a1) := by
  delta State.checkEnd
  extract_lets _
  exact (.ite (.of (State.applyParsed_kept _ _ _ _ _) .refl) .refl)

theorem State.bufferFull_kept (s : State) (a1 : ℕ) :
    Kept (.box :: reports) s (State.bufferFull s a1) := by
  delta State.bufferFull
  extract_lets _ x3 _
  have h5 : Kept (.box :: reports) s x3 := (.of (State.raise_kept _ _ _) .refl)
  exact (.of (State.completeAll_kept _ _ _ _ _) (.of (State.modStream_kept _ _ _) h5))

theorem State.parseRecord_kept (s : State) (a1 : ℕ) (a2 : ℕ) (a3 : ℕ) (a4 : List Byte) :
    Kept (.box :: .store :: .seq :: .tid :: .csc :: reports) s (State.parseRecord s a1 a2 a3 a4) := by
  delta State.parseRecord
  extract_lets _ _ _
  exact (.of (State.checkEnd_kept _ _) (.of (State.applyParsed_kept _ _ _ _ _) .refl))

theorem State.takeRecord_kept (s : State) (a1 : ℕ) (a2 : ℕ) (a3 : List Byte) :
    Kept (.box :: .store :: .seq :: .tid :: .csc :: reports) s (State.takeRecord s a1 a2 a3) := by
  delta State.takeRecord
  extract_lets _ _ _
  exact (.ite .refl (.ite (.ite (.of (State.applyParsed_kept _ _ _ _ _) .refl) (.of (State.completeLayouts_kept _ _ _) .refl)) (.ite (.ite (.ite (.of (State.applyParsed_kept _ _ _ _ _) .refl) .refl) (.of (State.completeLayouts_kept _ _ _) .refl)) (.ite (.ite .refl (.of (State.bufferFull_kept _ _) .refl)) (.of (State.parseRecord_kept _ _ _ _ _) .refl)))))

theorem execStreamRecord_kept (a1 : Fin 16) (a2 : List Byte) (s : State) :
    OutKept (.box :: .store :: .seq :: .tid :: .csc :: reports) s (execStreamRecord a1 a2 s) := by
  delta execStreamRecord
  exact (.next (.of (State.takeRecord_kept _ _ _ _) .refl))

theorem execStripRecord_kept (a1 : Fin 16) (a2 : List Byte) (s : State) :
    OutKept (.box :: .store :: .seq :: .tid :: .csc :: reports) s (execStripRecord a1 a2 s) := by
  delta execStripRecord
  exact (.next (.of (State.takeRecord_kept _ _ _ _) .refl))

theorem execDoseTable_kept (a1 : Fin 16) (a2 : List Byte) (s : State) :
    OutKept (.box :: .store :: .seq :: .tid :: .csc :: reports) s (execDoseTable a1 a2 s) := by
  delta execDoseTable
  exact (.next (.of (State.takeRecord_kept _ _ _ _) .refl))

theorem execStripEnd_kept (a1 : Fin 16) (a2 : List Byte) (s : State) :
    OutKept (.box :: .store :: .seq :: .tid :: .csc :: reports) s (execStripEnd a1 a2 s) := by
  delta execStripEnd
  exact (.next (.of (State.takeRecord_kept _ _ _ _) .refl))

theorem execCellBegin_kept (a1 : Fin 16) (a2 : List Byte) (s : State) :
    OutKept (.box :: .store :: .seq :: .tid :: .csc :: reports) s (execCellBegin a1 a2 s) := by
  delta execCellBegin
  exact (.next (.of (State.takeRecord_kept _ _ _ _) .refl))

theorem execCellEnd_kept (a1 : Fin 16) (a2 : List Byte) (s : State) :
    OutKept (.box :: .store :: .seq :: .tid :: .csc :: reports) s (execCellEnd a1 a2 s) := by
  delta execCellEnd
  exact (.next (.of (State.takeRecord_kept _ _ _ _) .refl))

theorem execRect_kept (a1 : Fin 16) (a2 : List Byte) (s : State) :
    OutKept (.box :: .store :: .seq :: .tid :: .csc :: reports) s (execRect a1 a2 s) := by
  delta execRect
  exact (.next (.of (State.takeRecord_kept _ _ _ _) .refl))

theorem execTrap_kept (a1 : Fin 16) (a2 : List Byte) (s : State) :
    OutKept (.box :: .store :: .seq :: .tid :: .csc :: reports) s (execTrap a1 a2 s) := by
  delta execTrap
  exact (.next (.of (State.takeRecord_kept _ _ _ _) .refl))

theorem execDisc_kept (a1 : Fin 16) (a2 : List Byte) (s : State) :
    OutKept (.box :: .store :: .seq :: .tid :: .csc :: reports) s (execDisc a1 a2 s) := by
  delta execDisc
  exact (.next (.of (State.takeRecord_kept _ _ _ _) .refl))

theorem execPatch_kept (a1 : Fin 16) (a2 : List Byte) (s : State) :
    OutKept (.box :: .store :: .seq :: .tid :: .csc :: reports) s (execPatch a1 a2 s) := by
  delta execPatch
  exact (.next (.of (State.takeRecord_kept _ _ _ _) .refl))

theorem execRef_kept (a1 : Fin 16) (a2 : List Byte) (s : State) :
    OutKept (.box :: .store :: .seq :: .tid :: .csc :: reports) s (execRef a1 a2 s) := by
  delta execRef
  exact (.next (.of (State.takeRecord_kept _ _ _ _) .refl))

theorem execAref_kept (a1 : Fin 16) (a2 : List Byte) (s : State) :
    OutKept (.box :: .store :: .seq :: .tid :: .csc :: reports) s (execAref a1 a2 s) := by
  delta execAref
  exact (.next (.of (State.takeRecord_kept _ _ _ _) .refl))

theorem execReamMark_kept (a1 : Fin 16) (a2 : List Byte) (s : State) :
    OutKept (.box :: .store :: .seq :: .tid :: .csc :: reports) s (execReamMark a1 a2 s) := by
  delta execReamMark
  exact (.next (.of (State.takeRecord_kept _ _ _ _) .refl))

theorem execMargin_kept (a1 : Fin 16) (a2 : List Byte) (s : State) :
    OutKept (.box :: .store :: .seq :: .tid :: .csc :: reports) s (execMargin a1 a2 s) := by
  delta execMargin
  exact (.next (.of (State.takeRecord_kept _ _ _ _) .refl))

theorem execSeam_kept (a1 : Fin 16) (a2 : List Byte) (s : State) :
    OutKept (.box :: .store :: .seq :: .tid :: .csc :: reports) s (execSeam a1 a2 s) := by
  delta execSeam
  exact (.next (.of (State.takeRecord_kept _ _ _ _) .refl))

theorem execPad_kept (a1 : Fin 16) (a2 : List Byte) (s : State) :
    OutKept (.box :: .store :: .seq :: .tid :: .csc :: reports) s (execPad a1 a2 s) := by
  delta execPad
  exact (.next (.of (State.takeRecord_kept _ _ _ _) .refl))

theorem State.layoutJob_kept (s : State) (a1 : Desc) (a2 : Job) :
    Kept (.box :: .store :: .seq :: .tid :: .csc :: reports) s (State.layoutJob s a1 a2) := by
  delta State.layoutJob
  extract_lets _ _ _ _ _ _ _ x10 x11
  have h12 : Kept (.box :: .store :: .seq :: .tid :: .csc :: reports) s x10 := (.ite (.of (State.modStream_kept _ _ _) .refl) .refl)
  have h13 : Kept (.box :: .store :: .seq :: .tid :: .csc :: reports) s x11 := (.of (State.modStream_kept _ _ _) h12)
  exact (.ite (.ite (.of (State.complete_kept _ _ _ _ _) .refl) (.of (State.complete_kept _ _ _ _ _) .refl)) (.ite (.of (State.complete_kept _ _ _ _ _) .refl) (.ite (.of (State.failRange_kept _ _ _ _) .refl) (.ite (.of (State.failRange_kept _ _ _ _) .refl) (.of (State.checkEnd_kept _ _) h13)))))

theorem execLayout_kept (a1 : Desc) (s : State) :
    OutKept (.box :: .store :: .seq :: .tid :: .csc :: reports) s (execLayout a1 s) := by
  delta execLayout
  exact (.ite (.next .refl) (.next (State.withDesc_kept _ _ _ _ _ (fun _ _ h2 => (.of (State.layoutJob_kept _ _ _) h2)) .refl)))

theorem execStreamRelease_kept (a1 : Desc) (s : State) :
    OutKept (.box :: reports) s (execStreamRelease a1 s) := by
  delta execStreamRelease
  extract_lets _
  exact (.ite (.next .refl) (.next (State.withDesc_kept _ _ _ _ _ (fun _ _ h3 => (by
      extract_lets _
      exact (.ite (.of (State.complete_kept _ _ _ _ _) h3) (.of (State.complete_kept _ _ _ _ _) (.of (State.modStream_kept _ _ _) h3))))) .refl)))

/-! ### Domains -/

theorem State.rewordRegs_kept (s : State) (a1 : FieldRow → List ℕ → BitVec 64 → BitVec 64) (a2 : ℕ → Bool) :
    Kept [.regs] s (State.rewordRegs s a1 a2) := by
  delta State.rewordRegs
  exact (.upd [.regs] .refl rfl rfl (.inr fun w => by first | (dsimp only; exact (rewordAll_wf _ _ w)) | exact (rewordAll_wf _ _ w)) (.inl rfl) (.inl rfl))

theorem State.showDomain_kept (s : State) (a1 : ℕ) (a2 : Bool) (a3 : Bool) :
    Kept [.regs] s (State.showDomain s a1 a2 a3) := by
  delta State.showDomain
  exact (.of (State.puts_kept _ _) .refl)

theorem State.powerUp_kept (s : State) (a1 : ℕ) :
    Kept [.regs] s (State.powerUp s a1) := by
  delta State.powerUp
  exact (.ite (.of (State.showDomain_kept _ _ _ _) .refl) (.of (State.showDomain_kept _ _ _ _) (.of (State.rewordRegs_kept _ _ _) .refl)))

theorem State.powerDown_kept (s : State) (a1 : ℕ) :
    Kept [.regs] s (State.powerDown s a1) := by
  delta State.powerDown
  exact (.of (State.showDomain_kept _ _ _ _) .refl)

theorem State.requestDomains_kept (s : State) (a1 : List ℕ) :
    Kept [.pwr] s (State.requestDomains s a1) := by
  delta State.requestDomains
  extract_lets _ _
  exact (.upd [.pwr] .refl)

theorem State.powerFault_kept (s : State) (a1 : ℕ) :
    Kept [.regs] s (State.powerFault s a1) := by
  delta State.powerFault
  exact (.of (State.showDomain_kept _ _ _ _) .refl)

theorem State.aonAlone_kept (s : State) :
    Kept [.regs, .pwr] s (State.aonAlone s) := by
  delta State.aonAlone
  extract_lets x1 _
  have h3 : Kept [.regs, .pwr] s x1 := (.of (State.put_kept _ _ _) (.fold (fun _ _ h4 => (.of (State.powerDown_kept _ _) h4)) .refl))
  exact (.upd [.pwr] h3)

/-! ### TimeBase -/

theorem State.modTime_kept (s : State) (a1 : ℕ) (a2 : TimePort → TimePort) :
    Kept [.time] s (State.modTime s a1 a2) := by
  delta State.modTime
  extract_lets _
  exact (.upd [.time] .refl)

theorem State.timeEvent_kept (s : State) (a1 : ℕ) (a2 : List (ℕ × ℕ)) :
    Kept reports s (State.timeEvent s a1 a2) := by
  delta State.timeEvent
  exact (.of (State.raise_kept _ _ _) .refl)

theorem State.setInc_kept (s : State) (a1 : ℕ) :
    Kept [.regs] s (State.setInc s a1) := by
  delta State.setInc
  exact (.of (State.puts_kept _ _) .refl)

theorem State.servo_kept (s : State) (a1 : ℤ) :
    Kept [.regs, .free] s (State.servo s a1) := by
  delta State.servo
  extract_lets _ _ _ _ _ _ _
  exact (.of (State.setInc_kept _ _) (.of (State.draw_kept _) .refl))

theorem State.stepClock_kept (s : State) (a1 : ℤ) (a2 : ℕ) :
    Kept (.clock :: reports) s (State.stepClock s a1 a2) := by
  delta State.stepClock
  extract_lets _ _ x5
  have h6 : Kept (.clock :: reports) s x5 := (.upd [.clock, .time] .refl)
  exact (.of (State.count_kept _ _) (.of (State.put_kept _ _ _) h6))

theorem State.holdover_kept (s : State) (a1 : ℕ) :
    Kept reports s (State.holdover s a1) := by
  delta State.holdover
  extract_lets _ _ _ x5 x6
  have h7 : Kept reports s x5 := (.upd [.time] .refl)
  have h8 : Kept reports s x6 := (.of (State.count_kept _ _) (.of (State.puts_kept _ _) h7))
  exact (.ite (.of (State.timeEvent_kept _ _ _) h8) (.ite (.upd [.time] .refl) .refl))

theorem State.stepPending_kept (s : State) (a1 : ℤ) :
    Kept reports s (State.stepPending s a1) := by
  delta State.stepPending
  exact (.ite .refl (.of (State.timeEvent_kept _ _ _) (.of (State.put_kept _ _ _) (.of (State.holdover_kept _ _) .refl))))

theorem State.leaveHoldover_kept (s : State) :
    Kept reports s (State.leaveHoldover s) := by
  delta State.leaveHoldover
  extract_lets _ x2
  have h3 : Kept reports s x2 := (.of (State.puts_kept _ _) .refl)
  exact (.ite .refl (by
    split
    · exact .refl
    · exact (.ite (.of (State.timeEvent_kept _ _ _) h3) (.ite .refl (.of (State.stepPending_kept _ _) .refl)))))

theorem State.causeClears_kept (s : State) (a1 : ℕ) :
    Kept reports s (State.causeClears s a1) := by
  delta State.causeClears
  extract_lets _ _
  exact (.ite (.of (State.leaveHoldover_kept _) (.upd [.time] .refl)) .refl)

theorem State.freeClock_kept (s : State) :
    Kept [.regs] s (State.freeClock s) := by
  delta State.freeClock
  exact (.of (State.setInc_kept _ _) (.of (State.put_kept _ _ _) .refl))

theorem State.timeLinkLost_kept (s : State) :
    Kept reports s (State.timeLinkLost s) := by
  delta State.timeLinkLost
  exact (.ite (.of (State.freeClock_kept _) (.of (State.modTime_kept _ _ _) .refl)) (.of (State.holdover_kept _ _) .refl))

end Sys2Proof.Machine
end

