-- ==== Sys2Proof/Laws/KeptFeed.lean ====
section
/-! SUPPORT. What each operation and each command may change, part by part: one lemma per definition. -/
namespace Sys2Proof.Machine

set_option Elab.async false

theorem groupWrite_wf (base : Nat) (blocks : List Nat) (off : Nat) (l : List Byte) {m : Memory} (h : m.wf = true) :
    (groupWrite base blocks m off l).wf = true := by
  induction l generalizing m off with
  | nil => exact h
  | cons b r ih => exact ih _ (Memory.write_wf _ _ h)

theorem State.showJobs_kept' (s : State) : Kept [.regs] s s.showJobs :=
  .fold (fun _ _ h => .of (State.puts_kept _ _) h) (.of (State.put_kept _ _ _) .refl)

theorem State.takeVatJob_kept {s t : State} {v : Nat} {j : TileJob} (h : s.takeVatJob v = some (j, t)) :
    Kept (.box :: reports) s t := by
  unfold State.takeVatJob at h
  split at h
  · cases h
  · simp only [Option.some.injEq, Prod.mk.injEq] at h
    rw [← h.2]
    exact .of (State.settleVats_kept _) (.of (State.showJobs_kept' _) (.upd [.box] .refl))

/-! ### Render -/

theorem State.wakeQuads_kept (s : State) (l : List Nat) : Kept [.box] s (s.wakeQuads l) := by
  delta State.wakeQuads
  generalize (s.box.wakingQuads ++ _) = l
  exact .upd [.box] .refl

theorem State.issue_kept (s : State) (a1 : Ready) (a2 : ℕ) :
    Kept (.box :: .store :: reports) s (State.issue s a1 a2) := by
  delta State.issue
  extract_lets _ _ x5 x6 _ x8
  have h9 : Kept (.box :: .store :: reports) s x5 := (.upd [.box] .refl)
  have h10 : Kept (.box :: .store :: reports) s x6 := (.ite (.of (State.count_kept _ _) h9) h9)
  have h11 : Kept (.box :: .store :: reports) s x8 := (.ite (by
      split
      · exact (.of (State.showStore_kept _) (.upd [.store] h10))
      · exact h10) h10)
  exact (.of (State.showJobs_kept _) h11)

theorem State.skipTests_kept (s : State) :
    Kept (.box :: reports) s (State.skipTests s) := by
  delta State.skipTests
  extract_lets _ _ _
  exact (.of (State.countBy_kept _ _ _) (.upd [.box] .refl))

theorem execTileJobIssue_kept (s : State) :
    OutKept (.box :: .store :: reports) s (execTileJobIssue s) := by
  delta execTileJobIssue
  extract_lets x1 _ x3
  have h4 : Kept (.box :: .store :: reports) s x1 := (.of (State.skipTests_kept _) .refl)
  have h5 : Kept (.box :: .store :: reports) s x3 := (.of (State.wakeQuads_kept _ _) h4)
  exact (.ite (.next .refl) (by
    split
    · exact (.next h5)
    · exact (.next (.of (State.issue_kept _ _ _) h5))))

theorem State.jobDone_kept (s : State) (a1 : TileJob) (a2 : ℕ) (a3 : ℕ) (a4 : ℕ) :
    Kept reports s (State.jobDone s a1 a2 a3 a4) := by
  delta State.jobDone
  extract_lets x5
  have h6 : Kept reports s x5 := (.of (State.countBy_kept _ _ _) (.of (State.count_kept _ _) .refl))
  exact (.of (State.trace_kept _ _ _) h6)

theorem State.drawCycles_kept (s : State) (a1 : ℕ) :
    Kept [.free] s (State.drawCycles s a1).2 := by
  delta State.drawCycles
  extract_lets _
  exact (.of (State.draw_kept _) .refl)

theorem State.spareTestAfter_kept (s : State) (a1 : TileJob) (a2 : ℕ) :
    Kept (.box :: reports) s (State.spareTestAfter s a1 a2) := by
  delta State.spareTestAfter
  extract_lets _ _ _ x6 _ _
  have h9 : Kept (.box :: reports) s x6 := (.upd [.box] .refl)
  exact (.ite h9 (by
    split
    · exact (.of (State.skipTests_kept _) (.upd [.box] h9))
    · exact (.of (State.count_kept _ _) h9)))

theorem State.checkRendered_kept (s : State) (a1 : ℕ) :
    Kept (.box :: reports) s (State.checkRendered s a1) := by
  delta State.checkRendered
  split
  · exact .refl
  · exact (.ite (.of (State.raise_kept _ _ _) (.of (State.modStrip_kept _ _ _) .refl)) .refl)

theorem State.acceptTile_kept (s : State) (a1 : TileJob) (a2 : List ℕ) (a3 : Bool) (a4 : ℕ) :
    Kept (.box :: .store :: .seq :: reports) s (State.acceptTile s a1 a2 a3 a4) := by
  delta State.acceptTile
  extract_lets _ _ x7 _ _ x10 x11 x12 x13
  have h14 : Kept (.box :: .store :: .seq :: reports) s x7 := (.of (State.modTile_kept _ _ _ _ _) .refl)
  have h15 : Kept (.box :: .store :: .seq :: reports) s x10 := (.upd [.store, .seq] h14)
  have h16 : Kept (.box :: .store :: .seq :: reports) s x11 := (.of (State.modStrip_kept _ _ _) h15)
  have h17 : Kept (.box :: .store :: .seq :: reports) s x12 := (.of (State.judgeSeams_kept _ _) (.of (State.count_kept _ _) h16))
  have h18 : Kept (.box :: .store :: .seq :: reports) s x13 := (.ite (.of (State.spareTestAfter_kept _ _ _) h17) h17)
  exact (.of (State.showLead_kept _) (.of (State.checkRendered_kept _ _) h18))

theorem State.wantRecheck_kept (s : State) (a1 : TileJob) (a2 : Option ℕ) :
    Kept [.box] s (State.wantRecheck s a1 a2) := by
  delta State.wantRecheck
  extract_lets _
  exact (.upd [.box] .refl)

theorem State.disputeTile_kept (s : State) (a1 : TileJob) (a2 : ℕ) (a3 : List (ℕ × ℕ)) :
    Kept (.box :: .store :: .seq :: .tid :: .csc :: reports) s (State.disputeTile s a1 a2 a3) := by
  delta State.disputeTile
  extract_lets x4 x5
  have h6 : Kept (.box :: .store :: .seq :: .tid :: .csc :: reports) s x4 := (.of (State.modTile_kept _ _ _ _ _) .refl)
  have h7 : Kept (.box :: .store :: .seq :: .tid :: .csc :: reports) s x5 := (.of (State.raise_kept _ _ _) (.of (State.showLead_kept _) h6))
  split
  · exact (.of (State.contentStop_kept _ _ _ _ _ _) h7)
  · exact h7

theorem State.judgeFine_kept (s : State) (a1 : TileJob) (a2 : ℕ) (a3 : Option ℕ) (a4 : List ℕ) :
    Kept (.box :: .store :: .seq :: .tid :: .csc :: reports) s (State.judgeFine s a1 a2 a3 a4) := by
  delta State.judgeFine
  extract_lets _ x6 _ x8 x9 x10 x11
  have h12 : Kept (.box :: .store :: .seq :: .tid :: .csc :: reports) s x6 := (.ite (.of (State.count_kept _ _) .refl) .refl)
  have h13 : Kept (.box :: .store :: .seq :: .tid :: .csc :: reports) s x8 := (.of (State.acceptTile_kept _ _ _ _ _) h12)
  have h14 : Kept (.box :: .store :: .seq :: .tid :: .csc :: reports) s x9 := (.of (State.count_kept _ _) h12)
  have h15 : Kept (.box :: .store :: .seq :: .tid :: .csc :: reports) s x10 := (.of (State.count_kept _ _) (.of (State.count_kept _ _) h12))
  have h16 : Kept (.box :: .store :: .seq :: .tid :: .csc :: reports) s x11 := (.ite (.of (State.count_kept _ _) h12) h12)
  split
  · exact (.ite (.of (State.retireVat_kept _ _ _ _ _ _ _) h13) (.ite (.ite (.of (State.acceptTile_kept _ _ _ _ _) (.of (State.raise_kept _ _ _) h14)) (.of (State.disputeTile_kept _ _ _ _) h14)) (.of (State.disputeTile_kept _ _ _ _) h12)))
  · exact (.ite h15 (.of (State.retireVat_kept _ _ _ _ _ _ _) h15))
  · exact (.ite (.of (State.acceptTile_kept _ _ _ _ _) h12) (by
      split
      · exact (.of (State.wantRecheck_kept _ _ _) (.of (State.raise_kept _ _ _) h16))
      · exact (.of (State.wantRecheck_kept _ _ _) h12)))

theorem State.jobAgain_kept (s : State) (a1 : TileJob) :
    Kept [.box] s (State.jobAgain s a1) := by
  delta State.jobAgain
  extract_lets _
  exact (.ite .refl (.upd [.box] .refl))

theorem State.modSection_kept (s : State) (a1 : Strip) (a2 : ℕ) (a3 : Section → Section) :
    Kept [.box] s (State.modSection s a1 a2 a3) := by
  delta State.modSection
  exact (.of (State.modStream_kept _ _ _) .refl)

theorem State.malformed_kept (s : State) (a1 : Strip) (a2 : ℕ) (a3 : Option ℕ) :
    Kept (.box :: .store :: .seq :: .tid :: .csc :: .free :: reports) s (State.malformed s a1 a2 a3) := by
  delta State.malformed
  extract_lets _
  split
  · rename_i a5 a6 e7
    have h8 : Kept (.box :: .store :: .seq :: .tid :: .csc :: .free :: reports) s a6 := by
      have k0 := congrArg Prod.snd e7
      rw [← show _ = a6 from k0]
      exact (.of (State.draw_kept _) .refl)
    extract_lets _ x10 x11 x12
    have h13 : Kept (.box :: .store :: .seq :: .tid :: .csc :: .free :: reports) s x10 := (.of (State.modSection_kept _ _ _ _) h8)
    have h14 : Kept (.box :: .store :: .seq :: .tid :: .csc :: .free :: reports) s x11 := (.of (State.modStream_kept _ _ _) h13)
    have h15 : Kept (.box :: .store :: .seq :: .tid :: .csc :: .free :: reports) s x12 := (.of (State.raiseSev_kept _ _ _ _) h14)
    exact (.of (State.contentStop_kept _ _ _ _ _ _) (.of (State.raise_kept _ _ _) h15))

theorem State.poisoned_kept (s : State) (a1 : TileJob) (a2 : PoisonAt) :
    Kept (.box :: .store :: .seq :: .tid :: .csc :: .free :: reports) s (State.poisoned s a1 a2) := by
  delta State.poisoned
  extract_lets x3
  have h4 : Kept (.box :: .store :: .seq :: .tid :: .csc :: .free :: reports) s x3 := (.of (State.consumeFlagged_kept _ _) .refl)
  split
  · exact .refl
  · split
    · extract_lets _
      exact (.ite (.of (State.malformed_kept _ _ _ _) h4) (.of (State.jobAgain_kept _ _) (.of (State.modSection_kept _ _ _ _) h4)))
    · exact (.of (State.jobAgain_kept _ _) (.of (State.modStrip_kept _ _ _) h4))
    · extract_lets x6
      have h7 : Kept (.box :: .store :: .seq :: .tid :: .csc :: .free :: reports) s x6 := (.of (State.modStrip_kept _ _ _) h4)
      split
      · exact (.of (State.malformed_kept _ _ _ _) h7)
      · exact (.of (State.jobAgain_kept _ _) (.of (State.modStrip_kept _ _ _) h7))

theorem State.sendHalo_kept (s : State) (a1 : ℕ) (a2 : ℕ) :
    Kept (.csc :: reports) s (State.sendHalo s a1 a2) := by
  delta State.sendHalo
  split
  · exact .refl
  · extract_lets _ _
    exact (.fold (fun _ _ h5 => (.ite (by
        split
        · exact h5
        · extract_lets x6 _
          have h8 : Kept (.csc :: reports) s x6 := (.fold (fun _ _ h9 => (.of (State.count_kept _ _) (.of (State.send_kept _ _ _ _) h9))) h5)
          exact (.upd [.csc] h8)) h5)) .refl)

theorem State.sendHalos_kept (s : State) :
    Kept (.csc :: reports) s (State.sendHalos s) := by
  delta State.sendHalos
  exact (.fold (fun _ _ h1 => (.fold (fun _ _ h2 => (.of (State.sendHalo_kept _ _ _) h2)) h1)) .refl)

theorem State.storeCoarse_kept (s : State) (a1 : ℕ) (a2 : ℕ) (a3 : ℕ) (a4 : List ℕ) :
    Kept (.box :: .csc :: reports) s (State.storeCoarse s a1 a2 a3 a4) := by
  delta State.storeCoarse
  extract_lets x5
  have h6 : Kept (.box :: .csc :: reports) s x5 := (.of (State.modStrip_kept _ _ _) .refl)
  exact (.of (State.sendHalo_kept _ _ _) h6)

theorem State.judgeCoarse_kept (s : State) (a1 : ℕ) (a2 : ℕ) (a3 : ℕ) (a4 : List (ℕ × List ℕ)) :
    Kept (.box :: .store :: .seq :: .tid :: .csc :: .free :: reports) s (State.judgeCoarse s a1 a2 a3 a4) := by
  delta State.judgeCoarse
  extract_lets x5 x6 x7
  have h8 : ∀ (a9 : State) (a11 : Bool) (h10 : Kept (.box :: .store :: .seq :: .tid :: .csc :: .free :: reports) s a9), Kept (.box :: .store :: .seq :: .tid :: .csc :: .free :: reports) s (x5 a9 a11) := by
    intro a9 a11 h10
    unfold x5
    exact (.of (State.modStrip_kept _ _ _) h10)
  have h12 : ∀ (a13 : State) (a15 : ℕ) (h14 : Kept (.box :: .store :: .seq :: .tid :: .csc :: .free :: reports) s a13), Kept (.box :: .store :: .seq :: .tid :: .csc :: .free :: reports) s (x6 a13 a15) := by
    intro a13 a15 h14
    unfold x6
    exact (.of (State.retireVat_kept _ _ _ _ _ _ _) h14)
  have h16 : Kept (.box :: .store :: .seq :: .tid :: .csc :: .free :: reports) s x7 := (h8 _ _ .refl)
  split
  · exact (.ite (.of (State.storeCoarse_kept _ _ _ _ _) .refl) (h8 _ _ (.of (State.count_kept _ _) .refl)))
  · extract_lets _
    exact (.ite (h12 _ _ (.of (State.storeCoarse_kept _ _ _ _ _) .refl)) (.ite (h12 _ _ (.of (State.storeCoarse_kept _ _ _ _ _) .refl)) (.ite (h12 _ _ (.of (State.storeCoarse_kept _ _ _ _ _) .refl)) (by
      split
      · exact h16
      · extract_lets x18
        have h19 : Kept (.box :: .store :: .seq :: .tid :: .csc :: .free :: reports) s x18 := (.fold (fun _ _ h20 => (.of (State.malformed_kept _ _ _ _) h20)) h16)
        split
        · exact (.of (State.contentStop_kept _ _ _ _ _ _) (.of (State.raise_kept _ _ _) h19))
        · exact (.of (State.raiseSev_kept _ _ _ _) h19)))))
  · exact (h8 _ _ .refl)

theorem State.coarseResult_kept (s : State) (a1 : TileJob) (a2 : List ℕ) :
    Kept (.box :: .store :: .seq :: .tid :: .csc :: .free :: reports) s (State.coarseResult s a1 a2) := by
  delta State.coarseResult
  split
  · exact .refl
  · extract_lets _
    exact (.of (State.judgeCoarse_kept _ _ _ _ _) .refl)

theorem State.abortRender_kept (s : State) (a1 : TileJob) (a2 : Strip) (a3 : ℕ) :
    Kept (.box :: .store :: .seq :: .tid :: .csc :: .free :: reports) s (State.abortRender s a1 a2 a3) := by
  delta State.abortRender
  extract_lets x4 x5
  have h6 : Kept (.box :: .store :: .seq :: .tid :: .csc :: .free :: reports) s x4 := (.of (State.count_kept _ _) .refl)
  have h7 : Kept (.box :: .store :: .seq :: .tid :: .csc :: .free :: reports) s x5 := (.of (State.raise_kept _ _ _) (.of (State.jobDone_kept _ _ _ _ _) h6))
  exact (.ite (.of (State.coarseResult_kept _ _ _) h7) (.of (State.judgeFine_kept _ _ _ _ _) h7))

theorem State.correctTile_kept (s : State) (a1 : TileJob) (a2 : ℕ) (a3 : ℕ) (a4 : ℕ) (a5 : List ℕ) :
    Kept (.box :: .store :: .seq :: .tid :: .csc :: reports) s (State.correctTile s a1 a2 a3 a4 a5) := by
  delta State.correctTile
  extract_lets _ x7 x8
  have h9 : Kept (.box :: .store :: .seq :: .tid :: .csc :: reports) s x7 := (.of (State.countBy_kept _ _ _) (.of (State.count_kept _ _) .refl))
  have h10 : Kept (.box :: .store :: .seq :: .tid :: .csc :: reports) s x8 := (.ite h9 (.of (State.modTile_kept _ _ _ _ _) (.of (State.modStrip_kept _ _ _) h9)))
  exact (.of (State.judgeFine_kept _ _ _ _ _) (.of (State.jobDone_kept _ _ _ _ _) h10))

theorem execTileCorrected_kept (a1 : Fin 16) (a2 : Render) (s : State) :
    OutKept (.box :: .store :: .seq :: .tid :: .csc :: .free :: reports) s (execTileCorrected a1 a2 s) := by
  delta execTileCorrected
  split
  · exact (.next .refl)
  · rename_i a3 a4 e5
    have h6 : Kept (.box :: .store :: .seq :: .tid :: .csc :: .free :: reports) s a4 := .of (State.takeVatJob_kept e5) .refl
    exact (.ite (.next .refl) (by
      split
      · exact (.next h6)
      · extract_lets _ _
        split
        · rename_i a9 a10 e11
          have h12 : Kept (.box :: .store :: .seq :: .tid :: .csc :: .free :: reports) s a10 := by
            have k0 := congrArg Prod.snd e11
            rw [← show _ = a10 from k0]
            exact (.of (State.drawCycles_kept _ _) h6)
          exact (.ite (.next (.of (State.abortRender_kept _ _ _ _) h12)) (by
            split
            · exact (.next (.of (State.poisoned_kept _ _ _) (.of (State.jobDone_kept _ _ _ _ _) h12)))
            · exact (.next (.of (State.correctTile_kept _ _ _ _ _ _) h12))
            · split
              · rename_i a13 a14 e15
                have h16 : Kept (.box :: .store :: .seq :: .tid :: .csc :: .free :: reports) s a14 := by
                  have k0 := congrArg Prod.snd e15
                  rw [← show _ = a14 from k0]
                  exact (.of (State.draw_kept _) h12)
                exact (.next (.of (State.correctTile_kept _ _ _ _ _ _) h16))))))

theorem execCoarseJobDone_kept (a1 : Fin 16) (a2 : Render) (s : State) :
    OutKept (.box :: .store :: .seq :: .tid :: .csc :: .free :: reports) s (execCoarseJobDone a1 a2 s) := by
  delta execCoarseJobDone
  split
  · exact (.next .refl)
  · rename_i a3 a4 e5
    have h6 : Kept (.box :: .store :: .seq :: .tid :: .csc :: .free :: reports) s a4 := .of (State.takeVatJob_kept e5) .refl
    exact (.ite (.next .refl) (by
      split
      · exact (.next h6)
      · extract_lets _
        split
        · rename_i a8 a9 e10
          have h11 : Kept (.box :: .store :: .seq :: .tid :: .csc :: .free :: reports) s a9 := by
            have k0 := congrArg Prod.snd e10
            rw [← show _ = a9 from k0]
            exact (.of (State.drawCycles_kept _ _) h6)
          exact (.ite (.next (.of (State.abortRender_kept _ _ _ _) h11)) (by
            split
            · exact (.next (.of (State.poisoned_kept _ _ _) (.of (State.jobDone_kept _ _ _ _ _) h11)))
            · exact (.next (.of (State.coarseResult_kept _ _ _) (.of (State.jobDone_kept _ _ _ _ _) h11)))
            · exact (.next (.of (State.coarseResult_kept _ _ _) (.of (State.jobDone_kept _ _ _ _ _) h11)))))))

theorem execJobWatchdog_kept (a1 : Fin 16) (a2 : Word) (s : State) :
    OutKept (.box :: .store :: .seq :: .tid :: .csc :: .free :: reports) s (execJobWatchdog a1 a2 s) := by
  delta execJobWatchdog
  split
  · exact (.next .refl)
  · rename_i a3 a4 e5
    have h6 : Kept (.box :: .store :: .seq :: .tid :: .csc :: .free :: reports) s a4 := .of (State.takeVatJob_kept e5) .refl
    exact (.ite (.next .refl) (by
      split
      · exact (.next h6)
      · exact (.next (.of (State.abortRender_kept _ _ _ _) h6))))

theorem execLayoutRereadDone_kept (a1 : Fin 16) (a2 : Word) (a3 : Bool) (s : State) :
    OutKept (.box :: .store :: .seq :: .tid :: .csc :: .free :: reports) s (execLayoutRereadDone a1 a2 a3 s) := by
  delta execLayoutRereadDone
  split
  · exact (.next .refl)
  · split
    · exact (.next .refl)
    · split
      · exact (.next .refl)
      · exact (.ite (.next (.of (State.modSection_kept _ _ _ _) .refl)) (.next (.of (State.malformed_kept _ _ _ _) .refl)))

theorem execRerenderLate_kept (a1 : Fin 16) (a2 : Word) (a3 : Fin 16) (s : State) :
    OutKept (.seq :: reports) s (execRerenderLate a1 a2 a3 s) := by
  delta execRerenderLate
  extract_lets _
  split
  · split
    · exact (.ite (.next (.of (State.storeBreak_kept _ _ _ _ _) (.of (State.raise_kept _ _ _) .refl))) (.next .refl))
    · exact (.next .refl)
  · exact (.next .refl)

theorem execVatRoleReqWrite_kept (a1 : Word) (s : State) :
    OutKept (.box :: reports) s (execVatRoleReqWrite a1 s) := by
  delta execVatRoleReqWrite
  extract_lets x2 _ x4
  have h5 : Kept (.box :: reports) s x2 := (.of (State.writeWord_kept _ _ _) .refl)
  have h6 : Kept (.box :: reports) s x4 := (.upd [.box] h5)
  exact (.ite (.next (.of (State.domainOffAccess_kept _ _) .refl)) (.ite (.next (.of (State.applyVatRoles_kept _) h6)) (.next h6)))

theorem State.refuseProfile_kept (s : State) (a1 : Strip) (a2 : ℕ) (a3 : ℕ) :
    Kept reports s (State.refuseProfile s a1 a2 a3) := by
  delta State.refuseProfile
  exact (.ite .refl (.of (State.raise_kept _ _ _) (.of (State.put_kept _ _ _) .refl)))

theorem execCalProfileWrite_kept (a1 : BitVec 25) (a2 : Bool) (a3 : BitVec 64) (s : State) :
    OutKept reports s (execCalProfileWrite a1 a2 a3 s) := by
  delta execCalProfileWrite
  extract_lets _ _
  exact (.ite (.next .refl) (.ite (.next (.of (State.domainOffAccess_kept _ _) .refl)) (by
    split
    · extract_lets x6
      have h7 : Kept reports s x6 := (.of (State.refuseProfile_kept _ _ _ _) .refl)
      exact (.next (.ite (.of (State.refuseProfile_kept _ _ _ _) h7) h7))
    · exact (.next (.ite (.of (State.writePair_kept _ _ _) .refl) (.of (State.writeWord_kept _ _ _) .refl))))))

theorem execHaloWaitTimeout_kept (a1 : Fin 16) (a2 : Word) (s : State) :
    OutKept reports s (execHaloWaitTimeout a1 a2 s) := by
  delta execHaloWaitTimeout
  extract_lets _
  split
  · exact (.next .refl)
  · split
    · exact (.next .refl)
    · extract_lets _
      exact (.ite (.next (.of (State.raise_kept _ _ _) (.of (State.count_kept _ _) .refl))) (.next .refl))

/-! ### Governor -/

theorem State.setDemand_kept (s : State) (a1 : RegFile) (a2 : ℕ) (a3 : ℕ) :
    Kept (.store :: reports) s (State.setDemand s a1 a2 a3) := by
  delta State.setDemand
  split
  · exact .refl
  · extract_lets _
    exact (.fold (fun _ _ h5 => (.of (State.consumePoison_kept _ _ _) h5)) (.of (State.modReam_kept _ _ _ _) .refl))

theorem State.planInterval_kept (s : State) (a1 : ℕ) (a2 : ℤ) :
    Kept (.box :: .tid :: .csc :: reports) s (State.planInterval s a1 a2) := by
  delta State.planInterval
  extract_lets _ _ _
  split
  · exact .refl
  · split
    · extract_lets _ _ x8 x9 x10 _ x12 x13
      have h14 : Kept (.box :: .tid :: .csc :: reports) s x8 := (.upd [.tid] .refl)
      have h15 : Kept (.box :: .tid :: .csc :: reports) s x9 := (.of (State.count_kept _ _) h14)
      have h16 : Kept (.box :: .tid :: .csc :: reports) s x10 := (.of (State.trace_kept _ _ _) h15)
      have h17 : Kept (.box :: .tid :: .csc :: reports) s x12 := (.ite h16 (.ite (.of (State.sendAll_kept _ _ _) h16) (.of (State.sendAll_kept _ _ _) h16)))
      have h18 : Kept (.box :: .tid :: .csc :: reports) s x13 := (.of (State.modStrip_kept _ _ _) h17)
      exact (.ite (.of (State.addBarrier_kept _ _ _ _) (.of (State.raise_kept _ _ _) h18)) h18)

theorem State.planStored_kept (s : State) (a1 : ℕ) :
    Kept (.box :: .tid :: .csc :: reports) s (State.planStored s a1) := by
  delta State.planStored
  split
  · exact .refl
  · extract_lets _ _
    exact (.ite .refl (.fold (fun _ _ h4 => (.ite h4 (.ite (.of (State.planInterval_kept _ _ _) h4) h4))) .refl))

theorem State.replan_kept (s : State) :
    Kept (.box :: .tid :: .csc :: reports) s (State.replan s) := by
  delta State.replan
  exact (.fold (fun _ _ h1 => (.of (State.planInterval_kept _ _ _) h1)) .refl)

theorem State.showStopLead_kept (s : State) :
    Kept [.regs] s (State.showStopLead s) := by
  delta State.showStopLead
  exact (.ite .refl (by
    split
    · exact .refl
    · split
      · exact .refl
      · split
        · exact (.of (State.put_kept _ _ _) .refl)
        · exact .refl))

/-! ### Store -/

theorem State.loseLedger_kept (s : State) (a1 : ℕ) :
    Kept (.box :: .seq :: .tid :: .csc :: reports) s (State.loseLedger s a1) := by
  delta State.loseLedger
  extract_lets x2
  have h3 : Kept (.box :: .seq :: .tid :: .csc :: reports) s x2 := (.of (State.raise_kept _ _ _) (.of (State.modStrip_kept _ _ _) .refl))
  exact (.ite (.of (State.promptStop_kept _ _) h3) h3)

theorem State.rewriteCopy_kept (s : State) (a1 : ℕ) (a2 : ℕ) :
    Kept (.mem :: reports) s (State.rewriteCopy s a1 a2) := by
  delta State.rewriteCopy
  extract_lets _
  exact (.fold (fun _ _ h4 => (.of (State.rewrite_kept _ _ _) h4)) .refl)

theorem State.readLedger_kept (s : State) (a1 : ℕ) :
    Kept (.box :: .store :: .seq :: .tid :: .csc :: .mem :: reports) s (State.readLedger s a1) := by
  delta State.readLedger
  extract_lets _ _
  split
  · exact .refl
  · exact (.ite .refl (.ite (.ite .refl (.of (State.loseLedger_kept _ _) (.of (State.consumeFlagged_kept _ _) .refl))) (.of (State.raise_kept _ _ _) (.of (State.rewriteCopy_kept _ _ _) (.of (State.consumeFlagged_kept _ _) (.upd [.store] .refl))))))

theorem State.grantEngines_kept (s : State) :
    Kept [.store] s (State.grantEngines s) := by
  delta State.grantEngines
  extract_lets _ _
  exact (.ite (.upd [.store] .refl) .refl)

theorem State.groupSettle_kept (s : State) (a1 : ℕ) (a2 : List ℕ) (a3 : ℕ) (a4 : ℕ) :
    Kept (.mem :: reports) s (State.groupSettle s a1 a2 a3 a4) := by
  delta State.groupSettle
  exact (.fold (fun _ _ h5 => (by
      extract_lets _
      exact (.of (State.settle_kept _ _ _) h5))) .refl)

theorem State.writeDemand_kept (s : State) (a1 : ℕ) (a2 : ℕ) :
    Kept (.dram :: .mem :: reports) s (State.writeDemand s a1 a2) := by
  delta State.writeDemand
  extract_lets x3
  have h4 : Kept (.dram :: .mem :: reports) s x3 := (.of (State.settle_kept _ _ _) .refl)
  exact (.upd [.dram] h4 rfl rfl (.inl rfl) (.inl rfl) (.inr fun w => by first | (dsimp only; exact (Memory.write_wf _ _ w)) | exact (Memory.write_wf _ _ w)))

theorem State.storeSegment_kept (s : State) (a1 : HeldTile) (a2 : Bool) (a3 : ℕ) :
    Kept (.dram :: .store :: .mem :: reports) s (State.storeSegment s a1 a2 a3) := by
  delta State.storeSegment
  extract_lets _ _
  split
  · exact .refl
  · extract_lets _ _
    split
    · extract_lets _ _ _ _ x12 x13 x14 x15
      have h16 : Kept (.dram :: .store :: .mem :: reports) s x12 := (.of (State.groupSettle_kept _ _ _ _ _) .refl)
      have h17 : Kept (.dram :: .store :: .mem :: reports) s x13 := (.upd [.dram] h16 rfl rfl (.inl rfl) (.inl rfl) (.inr fun w => by first | (dsimp only; exact (groupWrite_wf _ _ _ _ w)) | exact (groupWrite_wf _ _ _ _ w)))
      have h18 : Kept (.dram :: .store :: .mem :: reports) s x14 := (.of (State.writeDemand_kept _ _ _) h17)
      have h19 : Kept (.dram :: .store :: .mem :: reports) s x15 := (.of (State.modReam_kept _ _ _ _) h18)
      exact (.of (State.countBy_kept _ _ _) (.of (State.count_kept _ _) h19))

theorem State.checkStored_kept (s : State) (a1 : ℕ) (a2 : ℕ) :
    Kept (.box :: .store :: .tid :: .csc :: reports) s (State.checkStored s a1 a2) := by
  delta State.checkStored
  extract_lets _
  split
  · extract_lets x4
    have h5 : Kept (.box :: .store :: .tid :: .csc :: reports) s x4 := (.of (State.setDemand_kept _ _ _ _) (.of (State.modReam_kept _ _ _ _) .refl))
    exact (.ite (.of (State.showStopLead_kept _) (.of (State.planStored_kept _ _) (.of (State.showStore_kept _) h5))) .refl)
  · exact .refl

theorem execTileStoreDone_kept (a1 : Bool) (s : State) :
    OutKept (.dram :: .box :: .store :: .seq :: .tid :: .csc :: .mem :: reports) s (execTileStoreDone a1 s) := by
  delta execTileStoreDone
  extract_lets _
  split
  · exact (.next .refl)
  · extract_lets x3 x4
    have h5 : Kept (.dram :: .box :: .store :: .seq :: .tid :: .csc :: .mem :: reports) s x3 := (.of (State.readLedger_kept _ _) (.upd [.store] .refl))
    have h6 : Kept (.dram :: .box :: .store :: .seq :: .tid :: .csc :: .mem :: reports) s x4 := (.of (State.raise_kept _ _ _) (.of (State.consumeFlagged_kept _ _) (.of (State.showLead_kept _) (.of (State.modTile_kept _ _ _ _ _) h5))))
    exact (.ite (.next (.of (State.grantEngines_kept _) h6)) (by
      split
      · exact (.next (.of (State.grantEngines_kept _) h5))
      · extract_lets x7 x8
        have h9 : Kept (.dram :: .box :: .store :: .seq :: .tid :: .csc :: .mem :: reports) s x7 := (.fold (fun _ _ h10 => (.of (State.storeSegment_kept _ _ _ _) h10)) h5)
        have h11 : Kept (.dram :: .box :: .store :: .seq :: .tid :: .csc :: .mem :: reports) s x8 := (.of (State.modReam_kept _ _ _ _) h9)
        exact (.next (.of (State.grantEngines_kept _) (.of (State.checkStored_kept _ _ _) (.of (State.showStore_kept _) h11))))))

theorem execStoRoomWait_kept (a1 : Fin 16) (a2 : Word) (s : State) :
    OutKept reports s (execStoRoomWait a1 a2 s) := by
  delta execStoRoomWait
  extract_lets _
  split
  · exact (.next .refl)
  · exact (.ite (.next (.of (State.raise_kept _ _ _) .refl)) (.next .refl))

theorem State.traceFeed_kept (s : State) (a1 : ℕ) (a2 : ChunkAt) (a3 : ℕ) (a4 : ℕ) :
    Kept reports s (State.traceFeed s a1 a2 a3 a4) := by
  delta State.traceFeed
  exact (.ite (.of (State.trace_kept _ _ _) .refl) .refl)

theorem State.losePart_kept (s : State) (a1 : ℕ) (a2 : ℕ) (a3 : ℕ) (a4 : ChunkAt) (a5 : Bool) (a6 : ℕ) :
    Kept (.box :: .store :: .seq :: .tid :: .link :: .csc :: .mem :: reports) s (State.losePart s a1 a2 a3 a4 a5 a6) := by
  delta State.losePart
  extract_lets x7
  have h8 : Kept (.box :: .store :: .seq :: .tid :: .link :: .csc :: .mem :: reports) s x7 := (.of (State.readLedger_kept _ _) (.of (State.count_kept _ _) .refl))
  split
  · exact .refl
  · extract_lets _ x10 x11 x12
    have h13 : Kept (.box :: .store :: .seq :: .tid :: .link :: .csc :: .mem :: reports) s x10 := (.of (State.addMark_kept _ _ _) h8)
    have h14 : Kept (.box :: .store :: .seq :: .tid :: .link :: .csc :: .mem :: reports) s x11 := (.of (State.loseTile_kept _ _ _ _) h13)
    have h15 : Kept (.box :: .store :: .seq :: .tid :: .link :: .csc :: .mem :: reports) s x12 := (.of (State.raise_kept _ _ _) h14)
    exact (.of (State.traceFeed_kept _ _ _ _ _) h15)

theorem State.releaseChunk_kept (s : State) (a1 : Strip) (a2 : ℕ) (a3 : ChunkAt) (a4 : List (ℕ × List ℕ)) (a5 : List ℕ) (a6 : Bool) :
    Kept (.store :: reports) s (State.releaseChunk s a1 a2 a3 a4 a5 a6) := by
  delta State.releaseChunk
  extract_lets _ _ _ _ x11 x12
  have h13 : Kept (.store :: reports) s x11 := (.upd [.store] .refl)
  have h14 : Kept (.store :: reports) s x12 := (.of (State.count_kept _ _) h13)
  exact (.ite (.of (State.traceFeed_kept _ _ _ _ _) h14) h14)

theorem State.retryPart_kept (s : State) (a1 : ℕ) (a2 : ℕ) (a3 : ℕ) (a4 : ChunkAt) (a5 : ℕ) :
    Kept (.store :: reports) s (State.retryPart s a1 a2 a3 a4 a5) := by
  delta State.retryPart
  extract_lets _ _ x8
  have h9 : Kept (.store :: reports) s x8 := (.upd [.store] .refl)
  exact (.of (State.raise_kept _ _ _) (.of (State.count_kept _ _) h9))

theorem State.partFailsAgain_kept (s : State) (a1 : ℕ) (a2 : ℕ) (a3 : ℕ) (a4 : ChunkAt) (a5 : ℕ) :
    Kept (.box :: .store :: .seq :: .tid :: .link :: .csc :: .mem :: reports) s (State.partFailsAgain s a1 a2 a3 a4 a5) := by
  delta State.partFailsAgain
  extract_lets _ _
  exact (.of (State.losePart_kept _ _ _ _ _ _ _) (.upd [.store] .refl))

theorem State.fillChunk_kept (s : State) (a1 : Strip) (a2 : ReamSlot) (a3 : ℕ) (a4 : ChunkAt) (a5 : List (Fin 16 × Fin 7)) :
    Kept (.box :: .store :: .seq :: .tid :: .link :: .csc :: .mem :: reports) s (State.fillChunk s a1 a2 a3 a4 a5) := by
  delta State.fillChunk
  extract_lets _ _ _ _ _ _ _ x13 x14 x15 x16
  have h17 : Kept (.box :: .store :: .seq :: .tid :: .link :: .csc :: .mem :: reports) s x13 := (.fold (fun _ _ h18 => (.of (State.consumePoison_kept _ _ _) h18)) .refl)
  have h19 : Kept (.box :: .store :: .seq :: .tid :: .link :: .csc :: .mem :: reports) s x14 := (.ite (.of (State.consumeFlagged_kept _ _) h17) h17)
  have h20 : Kept (.box :: .store :: .seq :: .tid :: .link :: .csc :: .mem :: reports) s x15 := (.fold (fun _ _ h21 => (.of (State.partFailsAgain_kept _ _ _ _ _ _) h21)) h19)
  have h22 : Kept (.box :: .store :: .seq :: .tid :: .link :: .csc :: .mem :: reports) s x16 := (.fold (fun _ _ h23 => (.of (State.retryPart_kept _ _ _ _ _ _) h23)) h20)
  exact (.ite (.of (State.releaseChunk_kept _ _ _ _ _ _ _) h22) h22)

theorem execChunkDecoded_kept (a1 : Fin 512) (a2 : List (Fin 16 × Fin 7)) (s : State) :
    OutKept (.box :: .store :: .seq :: .tid :: .link :: .csc :: .mem :: reports) s (execChunkDecoded a1 a2 s) := by
  delta execChunkDecoded
  split
  · exact (.next .refl)
  · extract_lets _
    split
    · exact (.next .refl)
    · split
      · exact (.next .refl)
      · exact (.ite (.next .refl) (.next (.of (State.fillChunk_kept _ _ _ _ _ _) .refl)))

theorem execFillDeadline_kept (a1 : Fin 512) (a2 : List (Fin 16)) (s : State) :
    OutKept (.box :: .store :: .seq :: .tid :: .link :: .csc :: .mem :: reports) s (execFillDeadline a1 a2 s) := by
  delta execFillDeadline
  split
  · exact (.next .refl)
  · extract_lets _
    split
    · exact (.next .refl)
    · extract_lets _ _ x6
      have h7 : Kept (.box :: .store :: .seq :: .tid :: .link :: .csc :: .mem :: reports) s x6 := (.fold (fun _ _ h8 => (.of (State.losePart_kept _ _ _ _ _ _ _) h8)) .refl)
      exact (.ite (.next (.of (State.releaseChunk_kept _ _ _ _ _ _ _) h7)) (.next .refl))

theorem execStoConfigWrite_kept (a1 : BitVec 25) (a2 : Bool) (a3 : BitVec 64) (s : State) :
    OutKept reports s (execStoConfigWrite a1 a2 a3 s) := by
  delta execStoConfigWrite
  extract_lets _ x5
  have h6 : Kept reports s x5 := (.ite (.of (State.writePair_kept _ _ _) .refl) (.of (State.writeWord_kept _ _ _) .refl))
  exact (.ite (.next .refl) (.ite (.next (.of (State.domainOffAccess_kept _ _) .refl)) (.ite (.next (.of (State.raise_kept _ _ _) (.of (State.put_kept _ _ _) .refl))) (.next (.of (State.showStore_kept _) (.of (State.showConfig_kept _) h6))))))

/-! ### Codec -/

theorem State.queueCodec_kept (s : State) (a1 : CodecJob) :
    Kept [.store] s (State.queueCodec s a1) := by
  delta State.queueCodec
  extract_lets _
  exact (.of (State.grantEngines_kept _) (.upd [.store] .refl))

theorem execSegCompress_kept (a1 : Desc) (s : State) :
    OutKept (.store :: reports) s (execSegCompress a1 s) := by
  delta execSegCompress
  extract_lets _ _ _
  exact (.ite (.next .refl) (.next (State.withDesc_kept _ _ _ _ _ (fun _ _ h5 => (by
      split
      · exact (.of (State.failRange_kept _ _ _ _) h5)
      · exact (.of (State.queueCodec_kept _ _) h5))) .refl)))

theorem State.startDecompress_kept (s : State) (a1 : Desc) (a2 : ℕ) (a3 : Job) :
    Kept (.store :: reports) s (State.startDecompress s a1 a2 a3) := by
  delta State.startDecompress
  extract_lets _ _
  split
  · exact (.of (State.failRange_kept _ _ _ _) .refl)
  · exact (.of (State.queueCodec_kept _ _) .refl)

theorem execSegDecompress_kept (a1 : Desc) (s : State) :
    OutKept (.store :: reports) s (execSegDecompress a1 s) := by
  delta execSegDecompress
  exact (.ite (.next .refl) (.next (State.withDesc_kept _ _ _ _ _ (fun _ _ h2 => (.of (State.startDecompress_kept _ _ _ _) h2)) .refl)))

theorem execInflate_kept (a1 : Desc) (s : State) :
    OutKept (.store :: reports) s (execInflate a1 s) := by
  delta execInflate
  exact (.ite (.next .refl) (.next (State.withDesc_kept _ _ _ _ _ (fun _ _ h2 => (.of (State.startDecompress_kept _ _ _ _) h2)) .refl)))

theorem execContinueJob_kept (a1 : Desc) (s : State) :
    OutKept (.store :: reports) s (execContinueJob a1 s) := by
  delta execContinueJob
  extract_lets _ _
  exact (.ite (.next .refl) (.next (State.withDesc_kept _ _ _ _ _ (fun _ _ h4 => (by
      extract_lets _ _
      split
      · exact h4
      · extract_lets _ _
        split
        · exact (.of (State.failRange_kept _ _ _ _) h4)
        · exact (.upd [.store] h4))) .refl)))

theorem State.endCodec_kept (s : State) (a1 : CodecJob) (a2 : ℕ) (a3 : List Byte) :
    Kept (.store :: reports) s (State.endCodec s a1 a2 a3) := by
  delta State.endCodec
  extract_lets _ x5
  have h6 : Kept (.store :: reports) s x5 := (.upd [.store] .refl)
  exact (.of (State.grantEngines_kept _) (.of (State.complete_kept _ _ _ _ _) h6))

theorem State.endPoison_kept (s : State) (a1 : CodecJob) (a2 : Option ℕ) (a3 : List Byte) :
    Kept (.store :: reports) s (State.endPoison s a1 a2 a3) := by
  delta State.endPoison
  split
  · exact (.of (State.endCodec_kept _ _ _ _) (.of (State.consumePoison_kept _ _ _) .refl))
  · exact (.of (State.endCodec_kept _ _ _ _) (.of (State.consumeFlagged_kept _ _) .refl))

theorem State.writeChained_kept (s : State) (a1 : ℕ) (a2 : ℕ) (a3 : ℕ) (a4 : ℕ) (a5 : ℕ) (a6 : ℕ × List Byte) :
    Kept (.dram :: .mem :: reports) s (State.writeChained s a1 a2 a3 a4 a5 a6) := by
  delta State.writeChained
  extract_lets _ _ x9
  have h10 : Kept (.dram :: .mem :: reports) s x9 := (.of (State.writeSpace_kept _ _ _ _) .refl)
  exact (.of (State.writeSpace_kept _ _ _ _) h10)

theorem State.endCompress_kept (s : State) (a1 : CodecJob) (a2 : Option ℕ) :
    Kept (.dram :: .store :: .mem :: reports) s (State.endCompress s a1 a2) := by
  delta State.endCompress
  extract_lets _ _ _ _ _ _ _ _ _ x12 _ x14 x15
  have h16 : Kept (.dram :: .store :: .mem :: reports) s x12 := (.fold (fun _ _ h17 => (.of (State.writeChained_kept _ _ _ _ _ _ _) h17)) .refl)
  have h18 : Kept (.dram :: .store :: .mem :: reports) s x14 := (.of (State.writeSpace_kept _ _ _ _) h16)
  have h19 : Kept (.dram :: .store :: .mem :: reports) s x15 := (.of (State.writeSpace_kept _ _ _ _) h18)
  exact (.ite (.of (State.endCodec_kept _ _ _ _) h16) (.ite (.of (State.endCodec_kept _ _ _ _) h16) (.ite (.of (State.endPoison_kept _ _ _ _) h16) (.of (State.endCodec_kept _ _ _ _) h19))))

theorem State.endDecompress_kept (s : State) (a1 : CodecJob) (a2 : Option ℕ) :
    Kept (.dram :: .store :: .mem :: reports) s (State.endDecompress s a1 a2) := by
  delta State.endDecompress
  extract_lets _ _ _ _
  split
  · extract_lets _ _ x9 _ _ _ _ _ _ _
    have h17 : Kept (.dram :: .store :: .mem :: reports) s x9 := (.of (State.writeSpace_kept _ _ _ _) .refl)
    exact (.ite (by
      split
      · extract_lets _ _ x20
        have h21 : Kept (.dram :: .store :: .mem :: reports) s x20 := (.upd [.store] h17)
        exact (.of (State.complete_kept _ _ _ _ _) h21)
      · exact (.of (State.endCodec_kept _ _ _ _) h17)) (.ite (.of (State.endPoison_kept _ _ _ _) h17) (.of (State.endCodec_kept _ _ _ _) h17)))

theorem execCodecJobEnd_kept (a1 : Word) (a2 : Option Word) (s : State) :
    OutKept (.dram :: .store :: .mem :: reports) s (execCodecJobEnd a1 a2 s) := by
  delta execCodecJobEnd
  extract_lets x3 _
  have h5 : Kept (.dram :: .store :: .mem :: reports) s x3 := (.of (State.grantEngines_kept _) .refl)
  split
  · exact (.next h5)
  · exact (.ite (.next (.of (State.endDecompress_kept _ _ _) h5)) (.ite (.next (.of (State.endCompress_kept _ _ _) h5)) (.next h5)))

/-! ### Strips -/

theorem State.postStrip_kept (s : State) (a1 : Strip) :
    Kept (.box :: .store :: .seq :: .tid :: .csc :: reports) s (State.postStrip s a1) := by
  delta State.postStrip
  extract_lets _ x3 _ x5 x6
  have h7 : Kept (.box :: .store :: .seq :: .tid :: .csc :: reports) s x3 := (.of (State.modLedger_kept _ _ _) .refl)
  have h8 : Kept (.box :: .store :: .seq :: .tid :: .csc :: reports) s x5 := (.upd [.box] h7)
  have h9 : Kept (.box :: .store :: .seq :: .tid :: .csc :: reports) s x6 := (.of (State.meetRecord_kept _ _) (.of (State.showStore_kept _) (.of (State.showProfiles_kept _) h8)))
  exact (.of (State.showStopLead_kept _) (.of (State.showLead_kept _) (.of (State.judgeSeams_kept _ _) h9)))

theorem State.stripJob_kept (s : State) (a1 : Desc) (a2 : Job) :
    Kept (.box :: .store :: .seq :: .tid :: .csc :: reports) s (State.stripJob s a1 a2) := by
  delta State.stripJob
  extract_lets _
  split
  · exact (.of (State.complete_kept _ _ _ _ _) .refl)
  · exact (.of (State.complete_kept _ _ _ _ _) (.of (State.raiseSev_kept _ _ _ _) .refl))
  · split
    · exact (.of (State.complete_kept _ _ _ _ _) (.of (State.raise_kept _ _ _) .refl))
    · split
      · exact (.of (State.postStrip_kept _ _) .refl)
      · exact .refl

theorem execStrip_kept (a1 : Desc) (s : State) :
    OutKept (.box :: .store :: .seq :: .tid :: .csc :: reports) s (execStrip a1 s) := by
  delta execStrip
  exact (.ite (.next .refl) (.next (State.withDesc_kept _ _ _ _ _ (fun _ _ h2 => (.of (State.stripJob_kept _ _ _) h2)) .refl)))

theorem State.stopOpen_kept (s : State) (a1 : Strip) (a2 : ℕ) (a3 : ℕ) :
    Kept (.box :: .seq :: .tid :: .csc :: reports) s (State.stopOpen s a1 a2 a3) := by
  delta State.stopOpen
  extract_lets _ _ x6 _ x8
  have h9 : Kept (.box :: .seq :: .tid :: .csc :: reports) s x6 := (.upd [.seq] .refl)
  have h10 : Kept (.box :: .seq :: .tid :: .csc :: reports) s x8 := (.ite (.upd [.seq] h9) (.upd [.seq] h9))
  exact (.ite (.of (State.complete_kept _ _ _ _ _) .refl) (.ite (.of (State.abandonFlood_kept _ _ _) h9) (.ite (.of (State.planStop_kept _ _ _) h10) (.of (State.holdForHost_kept _ _) h9))))

theorem execStopStrip_kept (a1 : Desc) (s : State) :
    OutKept (.box :: .seq :: .tid :: .csc :: reports) s (execStopStrip a1 s) := by
  delta execStopStrip
  exact (.ite (.next .refl) (.next (State.withDesc_kept _ _ _ _ _ (fun _ _ h2 => (by
      split
      · exact (.ite (.of (State.stopOpen_kept _ _ _ _) h2) (.of (State.complete_kept _ _ _ _ _) h2))
      · exact (.of (State.complete_kept _ _ _ _ _) h2))) .refl)))

theorem State.mergeRecord_kept (s : State) (a1 : Strip) (a2 : StripRec) (a3 : Bool) :
    Kept [.box] s (State.mergeRecord s a1 a2 a3) := by
  delta State.mergeRecord
  exact (.of (State.modStream_kept _ _ _) .refl)

theorem State.renderAnew_kept (s : State) (a1 : ℕ) (a2 : Bool) :
    Kept (.box :: .store :: reports) s (State.renderAnew s a1 a2) := by
  delta State.renderAnew
  extract_lets _ _ _ _ _ _ x9 x10
  have h11 : Kept (.box :: .store :: reports) s x9 := (.upd [.box, .store] .refl)
  have h12 : Kept (.box :: .store :: reports) s x10 := (.of (State.dropJobs_kept _ _) h11)
  exact (.of (State.modStrip_kept _ _ _) h12)

theorem State.takeResume_kept (s : State) (a1 : Strip) (a2 : Bool) (a3 : ℕ) :
    Kept (.box :: .store :: .seq :: reports) s (State.takeResume s a1 a2 a3) := by
  delta State.takeResume
  extract_lets x4 x5 _ x7
  have h8 : Kept (.box :: .store :: .seq :: reports) s x4 := (.of (State.renderAnew_kept _ _ _) .refl)
  have h9 : Kept (.box :: .store :: .seq :: reports) s x5 := (.of (State.modStrip_kept _ _ _) h8)
  have h10 : Kept (.box :: .store :: .seq :: reports) s x7 := (.upd [.seq] h9)
  exact (.of (State.showLead_kept _) (.of (State.put_kept _ _ _) h10))

theorem State.resumeJob_kept (s : State) (a1 : Desc) (a2 : Job) :
    Kept (.box :: .store :: .seq :: reports) s (State.resumeJob s a1 a2) := by
  delta State.resumeJob
  extract_lets _ _
  split
  · exact (.of (State.complete_kept _ _ _ _ _) .refl)
  · exact (.ite (.of (State.takeResume_kept _ _ _ _) .refl) (.ite (.of (State.failRange_kept _ _ _ _) .refl) (.ite (.of (State.complete_kept _ _ _ _ _) .refl) (by
      split
      · exact (.of (State.complete_kept _ _ _ _ _) .refl)
      · split
        · extract_lets _
          exact (.of (State.complete_kept _ _ _ _ _) (.of (State.raiseSev_kept _ _ _ _) .refl))
        · extract_lets x6
          have h7 : Kept (.box :: .store :: .seq :: reports) s x6 := (.of (State.mergeRecord_kept _ _ _ _) .refl)
          exact (.of (State.judgeSeams_kept _ _) (.of (State.takeResume_kept _ _ _ _) h7))
        · exact (.of (State.complete_kept _ _ _ _ _) .refl)))))

theorem execResume_kept (a1 : Desc) (s : State) :
    OutKept (.box :: .store :: .seq :: reports) s (execResume a1 s) := by
  delta execResume
  exact (.ite (.next .refl) (.next (State.withDesc_kept _ _ _ _ _ (fun _ _ h2 => (.of (State.resumeJob_kept _ _ _) h2)) .refl)))

theorem State.endOpen_kept (s : State) (a1 : Strip) (a2 : ℕ) :
    Kept (.box :: .store :: .seq :: .tid :: .csc :: reports) s (State.endOpen s a1 a2) := by
  delta State.endOpen
  extract_lets _ _ x5 _
  have h7 : Kept (.box :: .store :: .seq :: .tid :: .csc :: reports) s x5 := (.upd [.seq] .refl)
  exact (.ite (.of (State.endInterrupted_kept _ _) h7) (.ite (.of (State.abandonFlood_kept _ _ _) h7) (.ite (.of (State.planStop_kept _ _ _) (.upd [.seq] h7)) h7)))

theorem execEndStrip_kept (a1 : Desc) (s : State) :
    OutKept (.box :: .store :: .seq :: .tid :: .csc :: reports) s (execEndStrip a1 s) := by
  delta execEndStrip
  extract_lets _
  exact (.ite (.next .refl) (.next (State.withDesc_kept _ _ _ _ _ (fun _ _ h3 => (by
      split
      · exact (.of (State.endOpen_kept _ _ _) h3)
      · split
        · exact (.of (State.complete_kept _ _ _ _ _) (.of (State.dropPosted_kept _ _ _ _) h3))
        · exact (.of (State.complete_kept _ _ _ _ _) h3))) .refl)))

theorem execLedgerRelease_kept (a1 : Desc) (s : State) :
    OutKept (.store :: reports) s (execLedgerRelease a1 s) := by
  delta execLedgerRelease
  extract_lets _
  exact (.ite (.next .refl) (.next (State.withDesc_kept _ _ _ _ _ (fun _ _ h3 => (by
      extract_lets _ x5 _ x7
      have h8 : Kept (.store :: reports) s x5 := (.of (State.modLedger_kept _ _ _) h3)
      have h9 : Kept (.store :: reports) s x7 := (.upd [.store] h8)
      exact (.ite (.of (State.complete_kept _ _ _ _ _) (.of (State.showStore_kept _) h9)) (.of (State.complete_kept _ _ _ _ _) h3)))) .refl)))

end Sys2Proof.Machine
end

