-- ==== Sys2Proof/Laws/KeptHead.lean ====
section
/-! SUPPORT. What each operation and each command may change, part by part: one lemma per definition. -/
namespace Sys2Proof.Machine

set_option Elab.async false

/-! ### Couches -/

theorem State.showArb_kept (s : State) :
    Kept [.regs] s (State.showArb s) := by
  delta State.showArb
  exact (.of (State.puts_kept _ _) .refl)

theorem State.setCouch_kept (s : State) (a1 : ℕ) (a2 : ℕ) :
    Kept [.regs] s (State.setCouch s a1 a2) := by
  delta State.setCouch
  exact (.of (State.showArb_kept _) (.of (State.put_kept _ _ _) .refl))

theorem State.noCouch_kept (s : State) :
    Kept (.couch :: reports) s (State.noCouch s) := by
  delta State.noCouch
  extract_lets _
  exact (.ite .refl (.ite (.ite .refl (.of (State.raise_kept _ _ _) (.upd [.couch] .refl))) (.upd [.couch] .refl)))

theorem State.loseCouch_kept (s : State) (a1 : ℕ) (a2 : ℕ) :
    Kept (.couch :: reports) s (State.loseCouch s a1 a2) := by
  delta State.loseCouch
  exact (.ite .refl (.of (State.noCouch_kept _) (.of (State.count_kept _ _) (.of (State.setCouch_kept _ _ _) (.of (State.put_kept _ _ _) .refl)))))

theorem State.loseStandby_kept (s : State) (a1 : ℕ) (a2 : ℕ) :
    Kept (.couch :: reports) s (State.loseStandby s a1 a2) := by
  delta State.loseStandby
  exact (.of (State.loseCouch_kept _ _ _) (.of (State.raise_kept _ _ _) .refl))

theorem State.drawGap_kept (s : State) :
    Kept [.free] s (State.drawGap s).2 := by
  delta State.drawGap
  extract_lets _
  exact (.of (State.draw_kept _) .refl)

theorem State.peakGap_kept (s : State) (a1 : ℕ) :
    Kept [.regs] s (State.peakGap s a1) := by
  delta State.peakGap
  exact (.of (State.put_kept _ _ _) .refl)

theorem State.switchOver_kept (s : State) (a1 : ℕ) :
    Kept (.couch :: .free :: reports) s (State.switchOver s a1) := by
  delta State.switchOver
  split
  · extract_lets x2 x3
    have h4 : Kept (.couch :: .free :: reports) s x2 := (.of (State.raise_kept _ _ _) .refl)
    have h5 : Kept (.couch :: .free :: reports) s x3 := (.of (State.count_kept _ _) (.of (State.setCouch_kept _ _ _) (.of (State.loseCouch_kept _ _ _) h4)))
    split
    · rename_i a6 a7 e8
      have h9 : Kept (.couch :: .free :: reports) s a7 := by
        have k0 := congrArg Prod.snd e8
        rw [← show _ = a7 from k0]
        exact (.of (State.drawGap_kept _) h5)
      extract_lets x10 _
      have h12 : Kept (.couch :: .free :: reports) s x10 := (.of (State.peakGap_kept _ _) h9)
      exact (.upd [.couch] h12)
  · exact .refl

theorem State.soleFault_kept (s : State) (a1 : ℕ) :
    Kept (.box :: .seq :: .tid :: .csc :: reports) s (State.soleFault s a1) := by
  delta State.soleFault
  exact (.of (State.promptStop_kept _ _) (.of (State.raise_kept _ _ _) .refl))

theorem State.couchGone_kept (s : State) (a1 : ℕ) (a2 : ℕ) :
    Kept (.couch :: .free :: reports) s (State.couchGone s a1 a2) := by
  delta State.couchGone
  extract_lets x3 _
  have h5 : Kept (.couch :: .free :: reports) s x3 := (.of (State.loseCouch_kept _ _ _) .refl)
  split
  · split
    · exact (.of (State.switchOver_kept _ _) .refl)
    · exact (.ite (.upd [.couch] h5) h5)
  · exact (.of (State.loseStandby_kept _ _ _) .refl)
  · exact .refl

theorem State.missSole_kept (s : State) :
    Kept (.box :: .seq :: .tid :: .couch :: .csc :: reports) s (State.missSole s) := by
  delta State.missSole
  extract_lets _
  split
  · exact (.of (State.soleFault_kept _ _) (.upd [.couch] .refl))
  · exact .refl

theorem State.onNewPath_kept (s : State) (a1 : ℕ) (a2 : ℕ) :
    Kept [.couch] s (State.onNewPath s a1 a2) := by
  delta State.onNewPath
  extract_lets _
  exact (.ite (.upd [.couch] .refl) .refl)

theorem State.couchDomainLost_kept (s : State) (a1 : ℕ) :
    Kept (.couch :: .free :: reports) s (State.couchDomainLost s a1) := by
  delta State.couchDomainLost
  extract_lets x2 _ _ _ _
  have h7 : ∀ (a8 : State) (h9 : Kept (.couch :: .free :: reports) s a8), Kept (.couch :: .free :: reports) s (x2 a8) := by
    intro a8 h9
    unfold x2
    exact (.of (State.count_kept _ _) (.of (State.put_kept _ _ _) (.of (State.raise_kept _ _ _) h9)))
  split
  · exact (.of (State.noCouch_kept _) (.of (State.setCouch_kept _ _ _) (h7 _ .refl)))
  · exact (.ite .refl (h7 _ (.upd [.couch] .refl)))
  · exact (.of (State.couchGone_kept _ _ _) .refl)

/-! ### Measure -/

theorem State.modDriver_kept (s : State) (a1 : ℕ) (a2 : Driver → Driver) :
    Kept [.link] s (State.modDriver s a1 a2) := by
  delta State.modDriver
  extract_lets _
  exact (.upd [.link] .refl)

theorem State.modChain_kept (s : State) (a1 : ℕ) (a2 : Chain → Chain) :
    Kept [.link] s (State.modChain s a1 a2) := by
  delta State.modChain
  extract_lets _
  exact (.upd [.link] .refl)

theorem State.queueCtrl_kept (s : State) (a1 : ℕ) (a2 : ℕ) (a3 : List Byte) :
    Kept [.link] s (State.queueCtrl s a1 a2 a3) := by
  delta State.queueCtrl
  exact (.of (State.modDriver_kept _ _ _) .refl)

theorem State.modMeas_kept (s : State) (a1 : ℕ) (a2 : MeasDriver → MeasDriver) :
    Kept [.hcr] s (State.modMeas s a1 a2) := by
  delta State.modMeas
  extract_lets _
  split
  · exact .refl
  · extract_lets _
    exact (.upd [.hcr] .refl)

theorem State.measFail_kept (s : State) (a1 : ℕ) :
    Kept [.hcr] s (State.measFail s a1) := by
  delta State.measFail
  exact (.of (State.modMeas_kept _ _ _) .refl)

theorem State.sendMeasure_kept (s : State) (a1 : MeasDriver) :
    Kept [.link] s (State.sendMeasure s a1) := by
  delta State.sendMeasure
  exact (.of (State.queueCtrl_kept _ _ _ _) .refl)

theorem State.measRestart_kept (s : State) (a1 : MeasDriver) :
    Kept (.link :: .hcr :: reports) s (State.measRestart s a1) := by
  delta State.measRestart
  extract_lets x2
  have h3 : Kept (.link :: .hcr :: reports) s x2 := (.of (State.modMeas_kept _ _ _) .refl)
  exact (.ite (.of (State.measFail_kept _ _) .refl) (.of (State.sendMeasure_kept _ _) (.of (State.count_kept _ _) h3)))

theorem State.measStatus_kept (s : State) (a1 : ℕ) (a2 : List Byte) :
    Kept (.link :: .hcr :: reports) s (State.measStatus s a1 a2) := by
  delta State.measStatus
  extract_lets _ _ _ _ _ _
  split
  · exact .refl
  · extract_lets _ _
    exact (.ite (.of (State.modMeas_kept _ _ _) .refl) (.ite (.of (State.measRestart_kept _ _) .refl) (.of (State.modMeas_kept _ _ _) .refl)))

theorem State.measLostStatus_kept (s : State) (a1 : ℕ) :
    Kept (.link :: .hcr :: reports) s (State.measLostStatus s a1) := by
  delta State.measLostStatus
  split
  · exact (.ite (.of (State.measRestart_kept _ _) .refl) .refl)
  · exact .refl

theorem State.measChainLost_kept (s : State) (a1 : ℕ) :
    Kept [.hcr] s (State.measChainLost s a1) := by
  delta State.measChainLost
  exact (.fold (fun _ _ h2 => (.of (State.measFail_kept _ _) h2)) .refl)

/-! ### Link -/

theorem State.showChains_kept (s : State) :
    Kept [.regs] s (State.showChains s) := by
  delta State.showChains
  extract_lets _
  exact (.of (State.reblank_kept _) (.of (State.puts_kept _ _) .refl))

theorem State.leaveReady_kept (s : State) (a1 : ℕ) :
    Kept [.link, .hcr] s (State.leaveReady s a1) := by
  delta State.leaveReady
  extract_lets _
  exact (.of (State.modChain_kept _ _ _) (.of (State.measChainLost_kept _ _) .refl))

theorem State.dropCtrl_kept (s : State) (a1 : ℕ) :
    Kept [.link] s (State.dropCtrl s a1) := by
  delta State.dropCtrl
  exact (.fold (fun _ _ h2 => (.of (State.modDriver_kept _ _ _) h2)) .refl)

theorem State.inputIdle_kept (s : State) (a1 : ℕ) :
    Kept reports s (State.inputIdle s a1) := by
  delta State.inputIdle
  extract_lets x2
  have h3 : Kept reports s x2 := (.ite (.of (State.count_kept _ _) .refl) .refl)
  exact (.of (State.puts_kept _ _) h3)

theorem State.chainTo_kept (s : State) (a1 : ℕ) (a2 : ℕ) :
    Kept (.link :: .hcr :: reports) s (State.chainTo s a1 a2) := by
  delta State.chainTo
  extract_lets _ _ _ x6 x7 x8 x9
  have h10 : Kept (.link :: .hcr :: reports) s x6 := (.of (State.modChain_kept _ _ _) (.of (State.put_kept _ _ _) .refl))
  have h11 : Kept (.link :: .hcr :: reports) s x7 := (.ite (.of (State.leaveReady_kept _ _) h10) h10)
  have h12 : Kept (.link :: .hcr :: reports) s x8 := (.ite (.of (State.dropCtrl_kept _ _) h11) h11)
  have h13 : Kept (.link :: .hcr :: reports) s x9 := (.ite (.of (State.inputIdle_kept _ _) h12) h12)
  exact (.of (State.showChains_kept _) h13)

theorem State.retrainDone_kept (s : State) :
    Kept [.regs] s (State.retrainDone s) := by
  delta State.retrainDone
  exact (.ite .refl (.of (State.put_kept _ _ _) .refl))

theorem State.trainFail_kept (s : State) (a1 : ℕ) (a2 : ℕ) :
    Kept (.link :: .hcr :: reports) s (State.trainFail s a1 a2) := by
  delta State.trainFail
  extract_lets _ x4 x5
  have h6 : Kept (.link :: .hcr :: reports) s x4 := (.of (State.chainTo_kept _ _ _) (.of (State.put_kept _ _ _) .refl))
  have h7 : Kept (.link :: .hcr :: reports) s x5 := (.of (State.modChain_kept _ _ _) h6)
  exact (.of (State.raise_kept _ _ _) (.of (State.retrainDone_kept _) h7))

theorem State.chainLost_kept (s : State) (a1 : ℕ) :
    Kept (.box :: .store :: .seq :: .tid :: .link :: .hcr :: .csc :: reports) s (State.chainLost s a1) := by
  delta State.chainLost
  extract_lets _ _ x4
  have h5 : Kept (.box :: .store :: .seq :: .tid :: .link :: .hcr :: .csc :: reports) s x4 := (.of (State.raise_kept _ _ _) (.of (State.chainTo_kept _ _ _) (.of (State.put_kept _ _ _) (.of (State.count_kept _ _) .refl))))
  exact (.ite .refl (.ite (.of (State.hardwareStop_kept _ _ _) h5) h5))

theorem State.linkLimit_kept (s : State) :
    Kept (.box :: .tid :: .csc :: reports) s (State.linkLimit s) := by
  delta State.linkLimit
  extract_lets _ _ _ _ _ x6
  have h7 : Kept (.box :: .tid :: .csc :: reports) s x6 := (.of (State.raise_kept _ _ _) (.of (State.put_kept _ _ _) .refl))
  exact (.ite .refl (.ite .refl (.ite (.of (State.replan_kept _) h7) h7)))

theorem State.configDriver_kept (s : State) (a1 : RegFile) (a2 : ℕ) :
    Kept [.link] s (State.configDriver s a1 a2) := by
  delta State.configDriver
  exact (.of (State.queueCtrl_kept _ _ _ _) (.of (State.queueCtrl_kept _ _ _ _) (.of (State.queueCtrl_kept _ _ _ _) .refl)))

theorem State.configDrivers_kept (s : State) (a1 : RegFile) (a2 : ℕ) :
    Kept [.link] s (State.configDrivers s a1 a2) := by
  delta State.configDrivers
  exact (.fold (fun _ _ h3 => (.ite (.of (State.configDriver_kept _ _ _) h3) h3)) .refl)

theorem State.restartDrivers_kept (s : State) (a1 : ℕ) (a2 : List (Fin 8)) :
    Kept [.link] s (State.restartDrivers s a1 a2) := by
  delta State.restartDrivers
  exact (.fold (fun _ _ h3 => (.of (State.modDriver_kept _ _ _) h3)) .refl)

theorem State.sendCtrl_kept (s : State) (a1 : ℕ) (a2 : ℕ) (a3 : Option ℕ) :
    Kept [.link] s (State.sendCtrl s a1 a2 a3) := by
  delta State.sendCtrl
  extract_lets _ _
  split
  · extract_lets _
    exact (.ite (.of (State.modDriver_kept _ _ _) (.of (State.modChain_kept _ _ _) .refl)) .refl)
  · exact .refl

theorem execDiscover_kept (a1 : Fin 128) (a2 : Bool) (s : State) :
    OutKept [.link] s (execDiscover a1 a2 s) := by
  delta execDiscover
  extract_lets _ x4
  have h5 : Kept [.link] s x4 := (.of (State.sendCtrl_kept _ _ _ _) .refl)
  exact (.ite (.next (.fold (fun _ _ h6 => (.of (State.modDriver_kept _ _ _) h6)) h5)) (.next h5))

theorem execIdent_kept (a1 : Fin 1024) (a2 : Option (Fin 5)) (s : State) :
    OutKept [.link] s (execIdent a1 a2 s) := by
  delta execIdent
  exact (.next (.of (State.sendCtrl_kept _ _ _ _) .refl))

theorem execSetFactors_kept (a1 : Fin 1024) (a2 : Option (Fin 5)) (s : State) :
    OutKept [.link] s (execSetFactors a1 a2 s) := by
  delta execSetFactors
  exact (.next (.of (State.sendCtrl_kept _ _ _ _) .refl))

theorem execSetCurve_kept (a1 : Fin 1024) (a2 : Option (Fin 5)) (s : State) :
    OutKept [.link] s (execSetCurve a1 a2 s) := by
  delta execSetCurve
  exact (.next (.of (State.sendCtrl_kept _ _ _ _) .refl))

theorem execTimeLoad_kept (a1 : Fin 1024) (a2 : Option (Fin 5)) (s : State) :
    OutKept [.link] s (execTimeLoad a1 a2 s) := by
  delta execTimeLoad
  exact (.next (.of (State.sendCtrl_kept _ _ _ _) .refl))

theorem execTimeRead_kept (a1 : Fin 1024) (a2 : Option (Fin 5)) (s : State) :
    OutKept [.link] s (execTimeRead a1 a2 s) := by
  delta execTimeRead
  exact (.next (.of (State.sendCtrl_kept _ _ _ _) .refl))

theorem execMeasure_kept (a1 : Fin 1024) (a2 : Option (Fin 5)) (s : State) :
    OutKept [.link, .hcr] s (execMeasure a1 a2 s) := by
  delta execMeasure
  extract_lets x3 _
  have h5 : Kept [.link, .hcr] s x3 := (.of (State.sendCtrl_kept _ _ _ _) .refl)
  split
  · exact (.ite (.next (.upd [.hcr] h5)) (.next h5))
  · exact (.next h5)

theorem execRecordRead_kept (a1 : Fin 1024) (a2 : Option (Fin 5)) (s : State) :
    OutKept [.link] s (execRecordRead a1 a2 s) := by
  delta execRecordRead
  exact (.next (.of (State.sendCtrl_kept _ _ _ _) .refl))

theorem execArm_kept (a1 : Fin 1024) (a2 : Option (Fin 5)) (s : State) :
    OutKept [.link] s (execArm a1 a2 s) := by
  delta execArm
  exact (.next (.of (State.sendCtrl_kept _ _ _ _) .refl))

theorem execTxEq_kept (a1 : Fin 1024) (a2 : Option (Fin 5)) (s : State) :
    OutKept [.link] s (execTxEq a1 a2 s) := by
  delta execTxEq
  extract_lets _
  exact (.ite (.next .refl) (.next (.of (State.sendCtrl_kept _ _ _ _) .refl)))

theorem State.applyTime_kept (s : State) (a1 : ℕ) :
    Kept [.regs, .link] s (State.applyTime s a1) := by
  delta State.applyTime
  extract_lets _ _ _ _ x6
  have h7 : Kept [.regs, .link] s x6 := (.of (State.put_kept _ _ _) .refl)
  exact (.fold (fun _ _ h8 => (by
      extract_lets _ _ _ x12 _
      have h14 : Kept [.regs, .link] s x12 := (.of (State.put_kept _ _ _) h8)
      exact (.of (State.queueCtrl_kept _ _ _ _) (.of (State.queueCtrl_kept _ _ _ _) h14)))) h7)

theorem execSyncMarkerReturn_kept (a1 : Fin 128) (a2 : BitVec 16) (a3 : List (BitVec 54)) (s : State) :
    OutKept (.link :: .hcr :: reports) s (execSyncMarkerReturn a1 a2 a3 s) := by
  delta execSyncMarkerReturn
  extract_lets _ _ x6 _ _ x9 x10
  have h11 : Kept (.link :: .hcr :: reports) s x6 := (.fold (fun _ _ h12 => (.of (State.modDriver_kept _ _ _) h12)) .refl)
  have h13 : Kept (.link :: .hcr :: reports) s x9 := (.of (State.modChain_kept _ _ _) h11)
  have h14 : Kept (.link :: .hcr :: reports) s x10 := (.of (State.modChain_kept _ _ _) h13)
  exact (.ite (.next .refl) (.ite (.next h13) (.ite (.ite (.next (.of (State.applyTime_kept _ _) h13)) (.next (.fold (fun _ _ h15 => (.of (State.queueCtrl_kept _ _ _ _) h15)) h13))) (.ite (.next h14) (.ite (.next (.of (State.trainFail_kept _ _ _) h14)) (.next (.of (State.modChain_kept _ _ _) h14)))))))

theorem execHeadTimeRecheck_kept (s : State) :
    OutKept [.link] s (execHeadTimeRecheck s) := by
  delta execHeadTimeRecheck
  extract_lets _ _ x3
  have h4 : Kept [.link] s x3 := (.upd [.link] .refl)
  exact (.ite (.next (.fold (fun _ _ h5 => (.ite (.of (State.modChain_kept _ _ _) h5) h5)) h4)) (.next .refl))

theorem State.sees_kept (s : State) (a1 : ℕ) (a2 : RxSeen) :
    Kept reports s (State.sees s a1 a2) := by
  delta State.sees
  extract_lets _ _ _ x6
  have h7 : Kept reports s x6 := (.of (State.countBy_kept _ _ _) (.of (State.puts_kept _ _) .refl))
  exact (.ite (.of (State.countBy_kept _ _ _) h7) h7)

theorem State.usePreset_kept (s : State) (a1 : ℕ) (a2 : ℕ) :
    Kept [.regs] s (State.usePreset s a1 a2) := by
  delta State.usePreset
  split
  · exact (.of (State.puts_kept _ _) .refl)
  · exact .refl

theorem State.startEq_kept (s : State) (a1 : ℕ) (a2 : Bool) :
    Kept (.link :: .hcr :: reports) s (State.startEq s a1 a2) := by
  delta State.startEq
  extract_lets _ x4 x5
  have h6 : Kept (.link :: .hcr :: reports) s x4 := (.of (State.usePreset_kept _ _ _) (.of (State.chainTo_kept _ _ _) .refl))
  have h7 : Kept (.link :: .hcr :: reports) s x5 := (.of (State.modChain_kept _ _ _) h6)
  exact (.fold (fun _ _ h8 => (by
      extract_lets _
      exact (.of (State.queueCtrl_kept _ _ _ _) h8))) h7)

theorem State.applySsc_kept (s : State) :
    Kept [.regs, .headTime0] s (State.applySsc s) := by
  delta State.applySsc
  extract_lets x1 _
  have h3 : Kept [.regs, .headTime0] s x1 := (.of (State.put_kept _ _ _) .refl)
  exact (.ite (.upd [.headTime0] h3) .refl)

theorem State.qualSent_kept (s : State) (a1 : ℕ) :
    Kept [.lanes] s (State.qualSent s a1) := by
  delta State.qualSent
  extract_lets _
  exact (.upd [.lanes] .refl)

theorem execChainTrainStart_kept (a1 : Fin 128) (s : State) :
    OutKept (.headTime0 :: .link :: .lanes :: .hcr :: reports) s (execChainTrainStart a1 s) := by
  delta execChainTrainStart
  extract_lets _ x3 x4 x5
  have h6 : Kept (.headTime0 :: .link :: .lanes :: .hcr :: reports) s x3 := (.of (State.qualSent_kept _ _) (.of (State.applySsc_kept _) .refl))
  have h7 : Kept (.headTime0 :: .link :: .lanes :: .hcr :: reports) s x4 := (.of (State.count_kept _ _) (.of (State.put_kept _ _ _) h6))
  have h8 : Kept (.headTime0 :: .link :: .lanes :: .hcr :: reports) s x5 := (.of (State.modChain_kept _ _ _) h7)
  exact (.ite (.next (.of (State.chainTo_kept _ _ _) h8)) (.next .refl))

theorem execChainAlignDone_kept (a1 : Fin 128) (a2 : Alignment) (s : State) :
    OutKept (.link :: .hcr :: reports) s (execChainAlignDone a1 a2 s) := by
  delta execChainAlignDone
  extract_lets _ x4 _ x6
  have h7 : Kept (.link :: .hcr :: reports) s x4 := (.of (State.sees_kept _ _ _) .refl)
  have h8 : Kept (.link :: .hcr :: reports) s x6 := (.of (State.puts_kept _ _) h7)
  exact (.ite (.next .refl) (.next (.of (State.startEq_kept _ _ _) h8)))

theorem State.eqFail_kept (s : State) (a1 : ℕ) :
    Kept (.link :: .hcr :: reports) s (State.eqFail s a1) := by
  delta State.eqFail
  extract_lets _
  exact (.of (State.trainFail_kept _ _ _) (.of (State.raise_kept _ _ _) .refl))

theorem execChainTrainTimeout_kept (a1 : Fin 128) (s : State) :
    OutKept (.link :: .hcr :: reports) s (execChainTrainTimeout a1 s) := by
  delta execChainTrainTimeout
  extract_lets _ _
  exact (.ite (.next (.of (State.trainFail_kept _ _ _) .refl)) (.ite (.next (.of (State.eqFail_kept _ _) .refl)) (.next .refl)))

theorem execEqAdaptWaitEnd_kept (a1 : Fin 128) (s : State) :
    OutKept [.link] s (execEqAdaptWaitEnd a1 s) := by
  delta execEqAdaptWaitEnd
  exact (.ite (.next (.of (State.modChain_kept _ _ _) .refl)) (.next .refl))

theorem execReceiverAdaptEnd_kept (a1 : Fin 128) (a2 : RxSeen) (s : State) :
    OutKept (.link :: reports) s (execReceiverAdaptEnd a1 a2 s) := by
  delta execReceiverAdaptEnd
  exact (.ite (.next (.of (State.modChain_kept _ _ _) (.of (State.sees_kept _ _ _) .refl))) (.next .refl))

theorem State.startDiscover_kept (s : State) (a1 : ℕ) :
    Kept (.link :: .hcr :: reports) s (State.startDiscover s a1) := by
  delta State.startDiscover
  exact (.of (State.queueCtrl_kept _ _ _ _) (.of (State.chainTo_kept _ _ _) .refl))

theorem execEqTryEnd_kept (a1 : Fin 128) (a2 : EqCheck) (a3 : BitVec 6) (a4 : Byte) (s : State) :
    OutKept (.link :: .hcr :: reports) s (execEqTryEnd a1 a2 a3 a4 s) := by
  delta execEqTryEnd
  extract_lets _ _ x7 _ x9
  have h10 : Kept (.link :: .hcr :: reports) s x7 := (.of (State.puts_kept _ _) (.of (State.countBy_kept _ _ _) (.of (State.sees_kept _ _ _) .refl)))
  have h11 : Kept (.link :: .hcr :: reports) s x9 := (.of (State.modChain_kept _ _ _) (.of (State.usePreset_kept _ _ _) h10))
  exact (.ite (.next .refl) (.ite (.next (.of (State.startDiscover_kept _ _) h10)) (.ite (.next (.of (State.eqFail_kept _ _) h10)) (.next (.of (State.raise_kept _ _ _) h11)))))

theorem execEqDeferredRetrain_kept (a1 : Fin 128) (s : State) :
    OutKept (.link :: .hcr :: reports) s (execEqDeferredRetrain a1 s) := by
  delta execEqDeferredRetrain
  extract_lets _ _ x4
  have h5 : Kept (.link :: .hcr :: reports) s x4 := (.of (State.modChain_kept _ _ _) .refl)
  exact (.ite (.next (.of (State.startEq_kept _ _ _) (.of (State.raise_kept _ _ _) h5))) (.next .refl))

theorem State.enterReady_kept (s : State) (a1 : ℕ) :
    Kept (.box :: .tid :: .link :: .hcr :: .csc :: reports) s (State.enterReady s a1) := by
  delta State.enterReady
  extract_lets _ x3 x4 x5
  have h6 : Kept (.box :: .tid :: .link :: .hcr :: .csc :: reports) s x3 := (.of (State.modChain_kept _ _ _) (.of (State.chainTo_kept _ _ _) .refl))
  have h7 : Kept (.box :: .tid :: .link :: .hcr :: .csc :: reports) s x4 := (.fold (fun _ _ h8 => (.of (State.modDriver_kept _ _ _) h8)) h6)
  have h9 : Kept (.box :: .tid :: .link :: .hcr :: .csc :: reports) s x5 := (.of (State.raise_kept _ _ _) h7)
  exact (.of (State.linkLimit_kept _) (.of (State.retrainDone_kept _) h9))

theorem State.advance_kept (s : State) (a1 : ℕ) :
    Kept (.box :: .tid :: .link :: .hcr :: .csc :: reports) s (State.advance s a1) := by
  delta State.advance
  extract_lets _
  exact (.ite .refl (by
    split
    · exact (.ite (.of (State.modChain_kept _ _ _) .refl) .refl)
    · exact (.of (State.chainTo_kept _ _ _) (.of (State.judgeHold_kept _) .refl))
    · exact (.ite (.fold (fun _ _ h3 => (.of (State.configDriver_kept _ _ _) h3)) (.of (State.chainTo_kept _ _ _) .refl)) .refl)
    · exact (.of (State.enterReady_kept _ _) .refl)
    · exact (.ite (.ite (.of (State.applyTime_kept _ _) (.of (State.modChain_kept _ _ _) .refl)) (.of (State.modChain_kept _ _ _) .refl)) .refl)
    · exact .refl))

theorem State.settleRepairs_kept (s : State) (a1 : Strip) :
    Kept (.box :: .store :: .seq :: reports) s (State.settleRepairs s a1) := by
  delta State.settleRepairs
  extract_lets _ _ x4 x5 x6
  have h7 : Kept (.box :: .store :: .seq :: reports) s x4 := (.of (State.modLedger_kept _ _ _) .refl)
  have h8 : Kept (.box :: .store :: .seq :: reports) s x5 := (.of (State.countBy_kept _ _ _) h7)
  have h9 : Kept (.box :: .store :: .seq :: reports) s x6 := (.of (State.releaseRepaired_kept _ _) h8)
  exact (.ite .refl (.ite (.of (State.raise_kept _ _ _) h9) h9))

theorem State.traceEcho_kept (s : State) (a1 : ℕ) (a2 : ℕ) (a3 : ℕ) (a4 : ℕ) :
    Kept reports s (State.traceEcho s a1 a2 a3 a4) := by
  delta State.traceEcho
  exact (.of (State.trace_kept _ _ _) .refl)

theorem State.pathEcho_kept (s : State) (a1 : OpenLine) :
    Kept (.box :: .seq :: .tid :: .couch :: .csc :: reports) s (State.pathEcho s a1) := by
  delta State.pathEcho
  extract_lets _ _ x4
  have h5 : Kept (.box :: .seq :: .tid :: .couch :: .csc :: reports) s x4 := (.upd [.couch] .refl)
  split
  · extract_lets _ x7 x8
    have h9 : Kept (.box :: .seq :: .tid :: .couch :: .csc :: reports) s x7 := (.of (State.raise_kept _ _ _) h5)
    have h10 : Kept (.box :: .seq :: .tid :: .couch :: .csc :: reports) s x8 := by
      unfold x8
      split
      · exact (.of (State.loseCouch_kept _ _ _) h9)
      · exact h9
    exact (.ite (.of (State.promptStop_kept _ _) h10) .refl)
  · exact .refl

theorem State.testFails_kept (s : State) (a1 : ℕ) (a2 : ℕ) (a3 : ℕ) :
    Kept [.couch] s (State.testFails s a1 a2 a3) := by
  delta State.testFails
  extract_lets _
  split
  · exact .refl
  · exact (.upd [.couch] .refl)

theorem State.testEcho_kept (s : State) (a1 : OpenLine) (a2 : Bool) :
    Kept [.couch] s (State.testEcho s a1 a2) := by
  delta State.testEcho
  exact (.ite .refl (by
    split
    · exact .refl
    · exact (.of (State.testFails_kept _ _ _ _) .refl)))

theorem State.echoMark_kept (s : State) (a1 : OpenLine) (a2 : ℕ) :
    Kept (.box :: .store :: .seq :: .tid :: .couch :: .link :: .csc :: reports) s (State.echoMark s a1 a2) := by
  delta State.echoMark
  extract_lets _ x4 x5
  have h6 : Kept (.box :: .store :: .seq :: .tid :: .couch :: .link :: .csc :: reports) s x4 := (.of (State.pathEcho_kept _ _) .refl)
  have h7 : Kept (.box :: .store :: .seq :: .tid :: .couch :: .link :: .csc :: reports) s x5 := (.ite h6 (by
      split
      · extract_lets x8
        have h9 : Kept (.box :: .store :: .seq :: .tid :: .couch :: .link :: .csc :: reports) s x8 := (.of (State.driverMark_kept _ _ _ _ _) h6)
        exact (.ite h9 (.of (State.count_kept _ _) h9))
      · exact h6))
  exact (.of (State.raise_kept _ _ _) h7)

theorem State.noteOutcome_kept (s : State) (a1 : ℕ) (a2 : ℕ) (a3 : ℕ) :
    Kept [.link] s (State.noteOutcome s a1 a2 a3) := by
  delta State.noteOutcome
  extract_lets _
  exact (.upd [.link] .refl)

theorem State.confirmed_kept (s : State) (a1 : OpenLine) :
    Kept [.link] s (State.confirmed s a1) := by
  delta State.confirmed
  exact (.of (State.modChain_kept _ _ _) .refl)

theorem State.serviceEcho_kept (s : State) (a1 : OpenLine) (a2 : ℕ) (a3 : ℕ) (a4 : ℕ) :
    Kept (.box :: .store :: .seq :: .tid :: .couch :: .link :: .csc :: reports) s (State.serviceEcho s a1 a2 a3 a4) := by
  delta State.serviceEcho
  extract_lets _ x6 _ x8 x9
  have h10 : Kept (.box :: .store :: .seq :: .tid :: .couch :: .link :: .csc :: reports) s x6 := (.of (State.noteOutcome_kept _ _ _ _) (.of (State.confirmed_kept _ _) .refl))
  have h11 : Kept (.box :: .store :: .seq :: .tid :: .couch :: .link :: .csc :: reports) s x8 := (.of (State.traceEcho_kept _ _ _ _ _) .refl)
  have h12 : Kept (.box :: .store :: .seq :: .tid :: .couch :: .link :: .csc :: reports) s x9 := (.of (State.pathEcho_kept _ _) (.of (State.noteOutcome_kept _ _ _ _) h11))
  exact (.ite (by
    split
    · exact (.ite (.of (State.settleRepairs_kept _ _) (.upd [.link] h10)) h10)
    · exact h10) (.ite (.of (State.promptStop_kept _ _) (.of (State.raise_kept _ _ _) h12)) (.ite (.of (State.noteOutcome_kept _ _ _ _) h11) (.of (State.echoMark_kept _ _ _) (.of (State.noteOutcome_kept _ _ _ _) h11)))))

theorem State.cutRecord_kept (s : State) (a1 : ℕ) (a2 : ℕ) (a3 : ℕ) :
    Kept (.box :: .link :: reports) s (State.cutRecord s a1 a2 a3) := by
  delta State.cutRecord
  extract_lets x4
  have h5 : Kept (.box :: .link :: reports) s x4 := (.of (State.traceEcho_kept _ _ _ _ _) .refl)
  split
  · exact h5
  · extract_lets x6 x7
    have h8 : Kept (.box :: .link :: reports) s x6 := (.of (State.noteOutcome_kept _ _ _ _) h5)
    have h9 : Kept (.box :: .link :: reports) s x7 := by
      unfold x7
      split
      · exact (.of (State.modStrip_kept _ _ _) h8)
      · exact h8
    exact (.of (State.raise_kept _ _ _) h9)

theorem State.outcomeRecord_kept (s : State) (a1 : ℕ) (a2 : ℕ) (a3 : ℕ) (a4 : ℕ) :
    Kept (.box :: .store :: .seq :: .tid :: .couch :: .link :: .csc :: reports) s (State.outcomeRecord s a1 a2 a3 a4) := by
  delta State.outcomeRecord
  extract_lets _
  exact (.ite .refl (.ite (.of (State.cutRecord_kept _ _ _ _) .refl) (by
    split
    · exact .refl
    · extract_lets _ x7 _ x9
      have h10 : Kept (.box :: .store :: .seq :: .tid :: .couch :: .link :: .csc :: reports) s x7 := (.upd [.link] .refl)
      have h11 : Kept (.box :: .store :: .seq :: .tid :: .couch :: .link :: .csc :: reports) s x9 := (.ite (.of (State.confirmed_kept _ _) h10) h10)
      split
      · exact (.of (State.serviceEcho_kept _ _ _ _ _) h10)
      · exact (.of (State.testEcho_kept _ _ _) (.of (State.traceEcho_kept _ _ _ _ _) h11))
      · exact (.of (State.traceEcho_kept _ _ _ _ _) h10))))

theorem State.unknownLines_kept (s : State) (a1 : ℕ) :
    Kept (.box :: .seq :: .tid :: .couch :: .link :: .csc :: reports) s (State.unknownLines s a1) := by
  delta State.unknownLines
  extract_lets _ _ x4
  have h5 : Kept (.box :: .seq :: .tid :: .couch :: .link :: .csc :: reports) s x4 := (.upd [.link] .refl)
  split
  · exact .refl
  · extract_lets _ x7 _
    have h9 : Kept (.box :: .seq :: .tid :: .couch :: .link :: .csc :: reports) s x7 := (.fold (fun _ _ h10 => (by
          extract_lets _
          split
          · exact (.of (State.pathEcho_kept _ _) (.upd [.link] h10))
          · exact (.of (State.testEcho_kept _ _ _) h10)
          · exact h10)) h5)
    exact (.ite h9 (.of (State.promptStop_kept _ _) (.of (State.raise_kept _ _ _) h9)))

theorem State.takeOutcome_kept (s : State) (a1 : ℕ) (a2 : ℕ × ℕ × ℕ × ℕ) :
    Kept (.box :: .store :: .seq :: .tid :: .couch :: .link :: .csc :: reports) s (State.takeOutcome s a1 a2) := by
  delta State.takeOutcome
  extract_lets _ _
  exact (.ite (.of (State.outcomeRecord_kept _ _ _ _ _) (.of (State.modDriver_kept _ _ _) .refl)) (.ite (.of (State.outcomeRecord_kept _ _ _ _ _) (.of (State.modDriver_kept _ _ _) .refl)) .refl))

theorem State.statusRecords_kept (s : State) (a : Nat) (l : List (Nat × Nat × Nat × Nat)) :
    Kept (.box :: .store :: .seq :: .tid :: .couch :: .csc :: .link :: .hcr :: reports) s (s.statusRecords a l) := by
  induction l generalizing s with
  | nil => exact .refl
  | cons r rest ih =>
    simp only [State.statusRecords]
    exact .ite (ih s) (.ite (.of (ih _) (.of (State.takeOutcome_kept _ _ _) .refl)) (.ite .refl (.of (State.queueCtrl_kept _ _ _ _) .refl)))

theorem State.derate_kept (s : State) :
    Kept (.box :: .tid :: .csc :: reports) s (State.derate s) := by
  delta State.derate
  extract_lets _ _ x3
  have h4 : Kept (.box :: .tid :: .csc :: reports) s x3 := (.of (State.count_kept _ _) (.upd [.tid] .refl))
  exact (.of (State.replan_kept _) (.of (State.raise_kept _ _ _) h4))

theorem State.liftTemp_kept (s : State) :
    Kept [.tid] s (State.liftTemp s) := by
  delta State.liftTemp
  extract_lets _ _
  exact (.ite (.upd [.tid] .refl) .refl)

theorem State.temperature_kept (s : State) (a1 : ℕ) (a2 : ℕ) (a3 : ℕ) (a4 : Bool) (a5 : ℤ) :
    Kept (.box :: .seq :: .tid :: .link :: .csc :: reports) s (State.temperature s a1 a2 a3 a4 a5) := by
  delta State.temperature
  extract_lets _ _ _ _ _ x11 x12 x13 x14
  have h15 : Kept (.box :: .seq :: .tid :: .link :: .csc :: reports) s x11 := (.of (State.modDriver_kept _ _ _) .refl)
  have h16 : Kept (.box :: .seq :: .tid :: .link :: .csc :: reports) s x12 := (.ite (.of (State.raise_kept _ _ _) h15) h15)
  have h17 : Kept (.box :: .seq :: .tid :: .link :: .csc :: reports) s x13 := (.ite (.of (State.derate_kept _) h16) h16)
  have h18 : Kept (.box :: .seq :: .tid :: .link :: .csc :: reports) s x14 := (.ite (.of (State.promptStop_kept _ _) (.of (State.raise_kept _ _ _) h17)) h17)
  exact (.of (State.liftTemp_kept _) h18)

theorem State.driverCounters_kept (s : State) (a1 : ℕ) (a2 : List Byte) :
    Kept (.link :: reports) s (State.driverCounters s a1 a2) := by
  delta State.driverCounters
  extract_lets _ _ x5
  have h6 : Kept (.link :: reports) s x5 := (.of (State.modDriver_kept _ _ _) .refl)
  split
  · exact h6
  · exact (.of (State.countBy_kept _ _ _) (.of (State.countBy_kept _ _ _) (.of (State.countBy_kept _ _ _) h6)))

theorem State.takeStatus_kept (s : State) (a1 : ℕ) (a2 : List Byte) :
    Kept (.box :: .store :: .seq :: .tid :: .couch :: .link :: .hcr :: .csc :: reports) s (State.takeStatus s a1 a2) := by
  delta State.takeStatus
  extract_lets _ x4 x5 x6 x7
  have h8 : Kept (.box :: .store :: .seq :: .tid :: .couch :: .link :: .hcr :: .csc :: reports) s x4 := (.of (State.modDriver_kept _ _ _) (.of (State.modChain_kept _ _ _) .refl))
  have h9 : Kept (.box :: .store :: .seq :: .tid :: .couch :: .link :: .hcr :: .csc :: reports) s x5 := (.of (State.driverCounters_kept _ _ _) h8)
  have h10 : Kept (.box :: .store :: .seq :: .tid :: .couch :: .link :: .hcr :: .csc :: reports) s x6 := (.of (State.statusRecords_kept _ _ _) h9)
  have h11 : Kept (.box :: .store :: .seq :: .tid :: .couch :: .link :: .hcr :: .csc :: reports) s x7 := by
    unfold x7
    split
    · exact (.of (State.temperature_kept _ _ _ _ _ _) (.of (State.put_kept _ _ _) h10))
    · exact (.of (State.put_kept _ _ _) h10)
  exact (.of (State.measStatus_kept _ _ _) h11)

theorem execStatusFrame_kept (a1 : Fin 1024) (a2 : RxSeen) (a3 : List Symbol) (s : State) :
    OutKept (.box :: .store :: .seq :: .tid :: .couch :: .link :: .hcr :: .csc :: reports) s (execStatusFrame a1 a2 a3 s) := by
  delta execStatusFrame
  extract_lets _ x5
  have h6 : Kept (.box :: .store :: .seq :: .tid :: .couch :: .link :: .hcr :: .csc :: reports) s x5 := (.of (State.sees_kept _ _ _) .refl)
  exact (.ite (.next .refl) (by
    split
    · exact (.next (.of (State.measLostStatus_kept _ _) (.of (State.count_kept _ _) h6)))
    · exact (.next (.ite (.of (State.takeStatus_kept _ _ _) h6) h6))))

theorem execDriverStatusStale_kept (a1 : Fin 1024) (s : State) :
    OutKept (.box :: .seq :: .tid :: .link :: .csc :: reports) s (execDriverStatusStale a1 s) := by
  delta execDriverStatusStale
  exact (.ite (.next (.of (State.temperature_kept _ _ _ _ _ _) .refl)) (.next .refl))

theorem execEchoMissing_kept (a1 : Fin 1024) (s : State) :
    OutKept [.link] s (execEchoMissing a1 s) := by
  delta execEchoMissing
  exact (.ite (.next (.of (State.queueCtrl_kept _ _ _ _) .refl)) (.next .refl))

theorem State.unconfigurable_kept (s : State) (a1 : ℕ) :
    Kept [.link] s (State.unconfigurable s a1) := by
  delta State.unconfigurable
  split
  · exact (.of (State.modDriver_kept _ _ _) .refl)
  · exact .refl

theorem State.ctrlFailed_kept (s : State) (a1 : ℕ) (a2 : CtrlOp) (a3 : ℕ) :
    Kept (.box :: .seq :: .tid :: .couch :: .link :: .hcr :: .csc :: reports) s (State.ctrlFailed s a1 a2 a3) := by
  delta State.ctrlFailed
  extract_lets _ x5
  have h6 : Kept (.box :: .seq :: .tid :: .couch :: .link :: .hcr :: .csc :: reports) s x5 := (.of (State.raise_kept _ _ _) .refl)
  split
  · exact (.of (State.trainFail_kept _ _ _) h6)
  · exact (.of (State.trainFail_kept _ _ _) h6)
  · exact (.of (State.trainFail_kept _ _ _) h6)
  · exact (.of (State.trainFail_kept _ _ _) h6)
  · exact (.ite (.of (State.unknownLines_kept _ _) h6) (.ite (.of (State.measFail_kept _ _) h6) (.of (State.advance_kept _ _) (.ite (.of (State.unconfigurable_kept _ _) h6) h6))))
  · exact (.of (State.advance_kept _ _) h6)

theorem State.ctrlRetry_kept (s : State) (a1 : ℕ) (a2 : CtrlOp) (a3 : ℕ) :
    Kept (.box :: .seq :: .tid :: .couch :: .link :: .hcr :: .csc :: reports) s (State.ctrlRetry s a1 a2 a3) := by
  delta State.ctrlRetry
  extract_lets _ x5 _ x7
  have h8 : Kept (.box :: .seq :: .tid :: .couch :: .link :: .hcr :: .csc :: reports) s x5 := (.of (State.modDriver_kept _ _ _) .refl)
  have h9 : Kept (.box :: .seq :: .tid :: .couch :: .link :: .hcr :: .csc :: reports) s x7 := (.of (State.modChain_kept _ _ _) h8)
  exact (.ite (.ite (.of (State.trainFail_kept _ _ _) h9) (.of (State.modDriver_kept _ _ _) h9)) (.ite (.of (State.advance_kept _ _) (.of (State.modChain_kept _ _ _) h8)) (.ite (.of (State.count_kept _ _) (.of (State.modDriver_kept _ _ _) h8)) (.of (State.ctrlFailed_kept _ _ _ _) h8))))

theorem execCtrlReplyTimeout_kept (a1 : Fin 1024) (s : State) :
    OutKept (.box :: .seq :: .tid :: .couch :: .link :: .hcr :: .csc :: reports) s (execCtrlReplyTimeout a1 s) := by
  delta execCtrlReplyTimeout
  split
  · exact (.next .refl)
  · exact (.next (.of (State.ctrlRetry_kept _ _ _ _) .refl))

theorem State.discovered_kept (s : State) (a1 : ℕ) (a2 : ℕ) :
    Kept (.link :: .hcr :: reports) s (State.discovered s a1 a2) := by
  delta State.discovered
  extract_lets x3 x4
  have h5 : Kept (.link :: .hcr :: reports) s x3 := (.fold (fun _ _ h6 => (.of (State.modDriver_kept _ _ _) h6)) .refl)
  have h7 : Kept (.link :: .hcr :: reports) s x4 := (.of (State.put_kept _ _ _) h5)
  exact (.ite (.fold (fun _ _ h8 => (.of (State.queueCtrl_kept _ _ _ _) h8)) (.of (State.chainTo_kept _ _ _) h7)) (.of (State.trainFail_kept _ _ _) h7))

theorem State.identified_kept (s : State) (a1 : ℕ) (a2 : List Byte) :
    Kept (.box :: .tid :: .link :: .hcr :: .csc :: reports) s (State.identified s a1 a2) := by
  delta State.identified
  extract_lets _ _ _ _ _ _ x9 x10 _ _ x13
  have h14 : Kept (.box :: .tid :: .link :: .hcr :: .csc :: reports) s x9 := (.of (State.puts_kept _ _) .refl)
  have h15 : Kept (.box :: .tid :: .link :: .hcr :: .csc :: reports) s x10 := (.of (State.modDriver_kept _ _ _) h14)
  have h16 : Kept (.box :: .tid :: .link :: .hcr :: .csc :: reports) s x13 := (.ite (.ite h15 (.of (State.raise_kept _ _ _) (.upd [.hcr] h15))) (.upd [.hcr] h15))
  exact (.ite (.of (State.trainFail_kept _ _ _) (.of (State.raise_kept _ _ _) h16)) (.of (State.advance_kept _ _) h16))

theorem State.timeRead_kept (s : State) (a1 : ℕ) (a2 : CtrlOp) (a3 : List Byte) :
    Kept (.box :: .tid :: .link :: .hcr :: .csc :: reports) s (State.timeRead s a1 a2 a3) := by
  delta State.timeRead
  extract_lets _ _ x6
  have h7 : Kept (.box :: .tid :: .link :: .hcr :: .csc :: reports) s x6 := (.of (State.raise_kept _ _ _) .refl)
  exact (.ite (.of (State.advance_kept _ _) .refl) (.ite (.of (State.trainFail_kept _ _ _) .refl) (.of (State.advance_kept _ _) (.of (State.modChain_kept _ _ _) h7))))

theorem State.recordsRead_kept (s : State) (a1 : ℕ) (a2 : List Byte) :
    Kept (.box :: .store :: .seq :: .tid :: .couch :: .link :: .csc :: reports) s (State.recordsRead s a1 a2) := by
  delta State.recordsRead
  extract_lets _ x4 x5
  have h6 : Kept (.box :: .store :: .seq :: .tid :: .couch :: .link :: .csc :: reports) s x4 := (.fold (fun _ _ h7 => (.of (State.takeOutcome_kept _ _ _) h7)) .refl)
  have h8 : Kept (.box :: .store :: .seq :: .tid :: .couch :: .link :: .csc :: reports) s x5 := (.of (State.modDriver_kept _ _ _) h6)
  exact (.of (State.unknownLines_kept _ _) h8)

theorem State.takeReply_kept (s : State) (a1 : ℕ) (a2 : CtrlOp) (a3 : List Byte) :
    Kept (.box :: .store :: .seq :: .tid :: .couch :: .link :: .hcr :: .csc :: reports) s (State.takeReply s a1 a2 a3) := by
  delta State.takeReply
  extract_lets _ _ x6 x7
  have h8 : Kept (.box :: .store :: .seq :: .tid :: .couch :: .link :: .hcr :: .csc :: reports) s x6 := (.of (State.modDriver_kept _ _ _) .refl)
  have h9 : Kept (.box :: .store :: .seq :: .tid :: .couch :: .link :: .hcr :: .csc :: reports) s x7 := (.of (State.modDriver_kept _ _ _) h8)
  exact (.ite (.of (State.discovered_kept _ _ _) h8) (.ite (.of (State.ctrlRetry_kept _ _ _ _) .refl) (.ite (.of (State.ctrlFailed_kept _ _ _ _) h8) (by
    split
    · exact (.of (State.identified_kept _ _ _) h9)
    · exact (.of (State.advance_kept _ _) (.of (State.modDriver_kept _ _ _) h9))
    · exact (.of (State.timeRead_kept _ _ _ _) h9)
    · exact (.of (State.recordsRead_kept _ _ _) h9)
    · exact (.of (State.advance_kept _ _) h9)))))

theorem execCtrlReply_kept (a1 : Fin 1024) (a2 : RxSeen) (a3 : List Symbol) (s : State) :
    OutKept (.box :: .store :: .seq :: .tid :: .couch :: .link :: .hcr :: .csc :: reports) s (execCtrlReply a1 a2 a3 s) := by
  delta execCtrlReply
  extract_lets _ x5
  have h6 : Kept (.box :: .store :: .seq :: .tid :: .couch :: .link :: .hcr :: .csc :: reports) s x5 := (.of (State.sees_kept _ _ _) .refl)
  split
  · exact (.next .refl)
  · split
    · exact (.next (.of (State.ctrlRetry_kept _ _ _ _) (.of (State.count_kept _ _) h6)))
    · exact (.next (.ite (.of (State.takeReply_kept _ _ _ _) h6) h6))

theorem State.poll_kept (s : State) (a1 : ℕ) :
    Kept [.link] s (State.poll s a1) := by
  delta State.poll
  extract_lets _ x3
  have h4 : Kept [.link] s x3 := (.of (State.modChain_kept _ _ _) .refl)
  exact (.fold (fun _ _ h5 => (.of (State.modDriver_kept _ _ _) h5)) h4)

theorem execPollSend_kept (a1 : Fin 128) (s : State) :
    OutKept [.link] s (execPollSend a1 s) := by
  delta execPollSend
  extract_lets _
  exact (.ite (.next (.of (State.poll_kept _ _) .refl)) (.next .refl))

theorem execChainStatusLoss_kept (a1 : SilentChain) (s : State) :
    OutKept (.box :: .store :: .seq :: .tid :: .link :: .hcr :: .csc :: reports) s (execChainStatusLoss a1 s) := by
  delta execChainStatusLoss
  exact (.ite (.next (.of (State.chainLost_kept _ _) (.of (State.restartDrivers_kept _ _ _) .refl))) (.next .refl))

theorem State.retrainAll_kept (s : State) :
    Kept (.headTime0 :: .link :: .hcr :: reports) s (State.retrainAll s) := by
  delta State.retrainAll
  extract_lets x1
  have h2 : Kept (.headTime0 :: .link :: .hcr :: reports) s x1 := (.fold (fun _ _ h3 => (.of (State.modChain_kept _ _ _) (.of (State.chainTo_kept _ _ _) h3))) .refl)
  exact (.of (State.applySsc_kept _) h2)

theorem execHlkRetrainReq_kept (a1 : Word) (s : State) :
    OutKept (.headTime0 :: .link :: .hcr :: reports) s (execHlkRetrainReq a1 s) := by
  delta execHlkRetrainReq
  extract_lets x2
  have h3 : Kept (.headTime0 :: .link :: .hcr :: reports) s x2 := (.of (State.writeWord_kept _ _ _) .refl)
  exact (.ite (.next (.of (State.domainOffAccess_kept _ _) .refl)) (.ite (.next (.of (State.retrainAll_kept _) h3)) (.next h3)))

/-! ### CouchTest -/

theorem State.restartCouch_kept (s : State) (a1 : ℕ) :
    Kept [.regs] s (State.restartCouch s a1) := by
  delta State.restartCouch
  extract_lets _ _
  exact (.of (State.setCouch_kept _ _ _) (.of (State.put_kept _ _ _) (.of (State.powerUp_kept _ _) (.of (State.powerDown_kept _ _) .refl))))

theorem execZeroRun_kept (a1 : Fin 128) (s : State) :
    OutKept (.box :: .seq :: .tid :: .couch :: .csc :: reports) s (execZeroRun a1 s) := by
  delta execZeroRun
  extract_lets _ x3 x4
  have h5 : Kept (.box :: .seq :: .tid :: .couch :: .csc :: reports) s x3 := (.upd [.couch] .refl)
  have h6 : Kept (.box :: .seq :: .tid :: .couch :: .csc :: reports) s x4 := (.of (State.raise_kept _ _ _) (.of (State.count_kept _ _) h5))
  exact (.ite (.next (.of (State.promptStop_kept _ _) h6)) (.next .refl))

theorem execCouchDomainFail_kept (a1 : Fin 2) (s : State) :
    OutKept (.couch :: .free :: reports) s (execCouchDomainFail a1 s) := by
  delta execCouchDomainFail
  exact (.next (.of (State.couchDomainLost_kept _ _) (.of (State.powerFault_kept _ _) .refl)))

theorem State.scheduleSwap_kept (s : State) :
    Kept [.couch] s (State.scheduleSwap s) := by
  delta State.scheduleSwap
  extract_lets _ _ _ _
  exact (.upd [.couch] .refl)

theorem State.restartLost_kept (s : State) :
    Kept [.regs, .couch, .pwr] s (State.restartLost s) := by
  delta State.restartLost
  extract_lets _ x2 _
  have h4 : Kept [.regs, .couch, .pwr] s x2 := (.fold (fun _ _ h5 => (.of (State.powerDown_kept _ _) h5)) .refl)
  exact (.of (State.requestDomains_kept _ _) (.upd [.couch] h4))

theorem execSwapTestStart_kept (s : State) :
    OutKept (.tid :: .couch :: reports) s (execSwapTestStart s) := by
  delta execSwapTestStart
  extract_lets _ _
  split
  · exact (.next .refl)
  · extract_lets x3
    have h4 : Kept (.tid :: .couch :: reports) s x3 := (.upd [.tid, .couch] .refl)
    exact (.ite (.next (.of (State.reblank_kept _) (.of (State.count_kept _ _) (.of (State.put_kept _ _ _) h4)))) (.next .refl))

theorem execSwapTestSwitch_kept (a1 : List (BitVec 16)) (s : State) :
    OutKept [.regs, .couch] s (execSwapTestSwitch a1 s) := by
  delta execSwapTestSwitch
  extract_lets _ _ _
  split
  · exact (.next .refl)
  · extract_lets _
    exact (.ite (.next .refl) (.next (.of (State.peakGap_kept _ _) (.upd [.couch] .refl))))

theorem State.swapFail_kept (s : State) (a1 : SwapTest) (a2 : ℕ) :
    Kept reports s (State.swapFail s a1 a2) := by
  delta State.swapFail
  split
  · exact (.of (State.raise_kept _ _ _) .refl)
  · exact .refl

theorem State.passTest_kept (s : State) (a1 : ℕ) :
    Kept [.regs, .couch] s (State.passTest s a1) := by
  delta State.passTest
  extract_lets _ _
  exact (.of (State.put_kept _ _ _) (.upd [.couch] .refl))

theorem State.failCouch_kept (s : State) (a1 : SwapTest) (a2 : ℕ) :
    Kept (.couch :: reports) s (State.failCouch s a1 a2) := by
  delta State.failCouch
  exact (.ite (.of (State.loseCouch_kept _ _ _) (.of (State.swapFail_kept _ _ _) .refl)) .refl)

theorem State.restoreCouch_kept (s : State) (a1 : SwapTest) (a2 : ℕ) :
    Kept (.couch :: reports) s (State.restoreCouch s a1 a2) := by
  delta State.restoreCouch
  extract_lets x3
  have h4 : Kept (.couch :: reports) s x3 := (.of (State.noCouch_kept _) (.of (State.setCouch_kept _ _ _) (.of (State.put_kept _ _ _) .refl)))
  exact (.ite .refl (.of (State.raise_kept _ _ _) (.of (State.passTest_kept _ _) h4)))

theorem State.endRestore_kept (s : State) (a1 : SwapTest) :
    Kept (.couch :: reports) s (State.endRestore s a1) := by
  delta State.endRestore
  extract_lets x2 x3 x4
  have h5 : Kept (.couch :: reports) s x2 := (.fold (fun _ _ h6 => (.of (State.restoreCouch_kept _ _ _) h6)) .refl)
  have h7 : Kept (.couch :: reports) s x3 := (.of (State.failCouch_kept _ _ _) h5)
  have h8 : Kept (.couch :: reports) s x4 := (.ite h7 (.of (State.failCouch_kept _ _ _) h7))
  split
  · exact (.of (State.setCouch_kept _ _ _) h8)
  · exact h8

theorem State.endService_kept (s : State) (a1 : SwapTest) :
    Kept (.couch :: reports) s (State.endService s a1) := by
  delta State.endService
  extract_lets x2 x3
  have h4 : Kept (.couch :: reports) s x2 := (.of (State.passTest_kept _ _) (.of (State.passTest_kept _ _) (.of (State.setCouch_kept _ _ _) (.of (State.setCouch_kept _ _ _) .refl))))
  have h5 : Kept (.couch :: reports) s x3 := (.of (State.failCouch_kept _ _ _) (.of (State.failCouch_kept _ _ _) .refl))
  exact (.ite (.of (State.raise_kept _ _ _) h4) (.ite (.of (State.passTest_kept _ _) (.of (State.setCouch_kept _ _ _) h5)) h5))

theorem execSwapTestEnd_kept (s : State) :
    OutKept (.couch :: .link :: reports) s (execSwapTestEnd s) := by
  delta execSwapTestEnd
  extract_lets _ _ _ x4 x5
  have h6 : Kept (.couch :: .link :: reports) s x4 := (.upd [.couch, .link] .refl)
  have h7 : Kept (.couch :: .link :: reports) s x5 := (.of (State.puts_kept _ _) h6)
  split
  · exact (.next .refl)
  · exact (.ite (.next (.of (State.reblank_kept _) (.ite (.of (State.endService_kept _ _) h7) (.of (State.endRestore_kept _ _) h7)))) (.next .refl))

theorem execSwapRequest_kept (a1 : Word) (s : State) :
    OutKept reports s (execSwapRequest a1 s) := by
  delta execSwapRequest
  exact (.next (.of (State.writeWord_kept _ _ _) .refl))

theorem State.neapCouch_kept (s : State) (a1 : ℕ) (a2 : Bool) :
    Kept [.regs, .couch, .pwr] s (State.neapCouch s a1 a2) := by
  delta State.neapCouch
  extract_lets _ _ _ _ x7 _
  have h9 : Kept [.regs, .couch, .pwr] s x7 := (.upd [.couch] .refl)
  exact (.ite h9 (.ite (.of (State.powerDown_kept _ _) (.upd [.pwr] h9)) (.of (State.requestDomains_kept _ _) h9)))

theorem State.backFromOff_kept (s : State) (a1 : ℕ) :
    Kept reports s (State.backFromOff s a1) := by
  delta State.backFromOff
  exact (.of (State.count_kept _ _) (.of (State.setCouch_kept _ _ _) (.of (State.put_kept _ _ _) .refl)))

theorem State.standbyActs_kept (s : State) :
    Kept [.regs] s (State.standbyActs s) := by
  delta State.standbyActs
  split
  · exact (.of (State.setCouch_kept _ _ _) .refl)
  · exact .refl

theorem State.couchOff_kept (s : State) (a1 : ℕ) :
    Kept [.regs] s (State.couchOff s a1) := by
  delta State.couchOff
  extract_lets _ x3
  have h4 : Kept [.regs] s x3 := (.of (State.powerDown_kept _ _) (.of (State.setCouch_kept _ _ _) .refl))
  exact (.ite (.of (State.standbyActs_kept _) h4) h4)

theorem State.couchOn_kept (s : State) (a1 : ℕ) :
    Kept (.couch :: .pwr :: reports) s (State.couchOn s a1) := by
  delta State.couchOn
  extract_lets _ x3
  have h4 : Kept (.couch :: .pwr :: reports) s x3 := (.upd [.couch] .refl)
  exact (.of (State.backFromOff_kept _ _) (.of (State.requestDomains_kept _ _) h4))

theorem State.applyCouchRole_kept (s : State) (a1 : ℕ) :
    Kept (.couch :: .pwr :: reports) s (State.applyCouchRole s a1) := by
  delta State.applyCouchRole
  extract_lets _ _ x4
  have h5 : Kept (.couch :: .pwr :: reports) s x4 := (.upd [.couch] .refl)
  exact (.ite .refl (.ite (.of (State.neapCouch_kept _ _ _) h5) (.of (State.noCouch_kept _) (.ite (.of (State.couchOff_kept _ _) h5) (.of (State.couchOn_kept _ _) h5)))))

theorem State.applyCouchRoles_kept (s : State) :
    Kept (.couch :: .pwr :: reports) s (State.applyCouchRoles s) := by
  delta State.applyCouchRoles
  extract_lets _
  exact (.ite (.of (State.applyCouchRole_kept _ _) (.of (State.applyCouchRole_kept _ _) (.upd [.couch] .refl))) .refl)

theorem execCchRoleReqWrite_kept (a1 : Word) (s : State) :
    OutKept (.couch :: .pwr :: reports) s (execCchRoleReqWrite a1 s) := by
  delta execCchRoleReqWrite
  extract_lets x2 _ x4
  have h5 : Kept (.couch :: .pwr :: reports) s x2 := (.of (State.writeWord_kept _ _ _) .refl)
  have h6 : Kept (.couch :: .pwr :: reports) s x4 := (.upd [.couch] h5)
  exact (.ite (.next (.of (State.applyCouchRoles_kept _) h6)) (.next h6))

theorem execCchResBaseWrite_kept (a1 : BitVec 25) (a2 : Bool) (a3 : BitVec 64) (s : State) :
    OutKept reports s (execCchResBaseWrite a1 a2 a3 s) := by
  delta execCchResBaseWrite
  extract_lets _ _
  exact (.ite (.next .refl) (.ite (.next (.of (State.raise_kept _ _ _) .refl)) (.ite (.next (.of (State.writePair_kept _ _ _) .refl)) (.next (.of (State.writeWord_kept _ _ _) .refl)))))

/-! ### Conditions -/

theorem State.sendStatus_kept (s : State) (a1 : ℕ) (a2 : List ℤ) :
    Kept [.csc] s (State.sendStatus s a1 a2) := by
  delta State.sendStatus
  extract_lets _ _
  exact (.ite .refl (.of (State.send_kept _ _ _ _) .refl))

theorem State.watchFlood_kept (s : State) :
    Kept (.seq :: .tid :: .csc :: reports) s (State.watchFlood s) := by
  delta State.watchFlood
  split
  · exact .refl
  · extract_lets _
    exact (.ite .refl (by
      split
      · exact (.of (State.abandonFlood_kept _ _ _) .refl)
      · exact .refl))

end Sys2Proof.Machine
end

