-- ==== Sys2Proof/Laws/KeptTide.lean ====
section
/-! SUPPORT. What each operation and each command may change, part by part: one lemma per definition. -/
namespace Sys2Proof.Machine

set_option Elab.async false

/-! ### Tide -/

theorem State.tideHold_kept (s : State) :
    Kept (.box :: .store :: .seq :: .tid :: .csc :: reports) s (State.tideHold s) := by
  delta State.tideHold
  exact (.ite (.of (State.hardwareStop_kept _ _ _) .refl) .refl)

theorem State.tracePos_kept (s : State) (a1 : ℕ) (a2 : Bool) (a3 : Bool) (a4 : ℕ) :
    Kept reports s (State.tracePos s a1 a2 a3 a4) := by
  delta State.tracePos
  exact (.of (State.trace_kept _ _ _) .refl)

theorem State.sampleMissed_kept (s : State) (a1 : ℕ) :
    Kept (.box :: .store :: .seq :: .tid :: .csc :: reports) s (State.sampleMissed s a1) := by
  delta State.sampleMissed
  extract_lets _ _ _ x5 _ x7 x8
  have h9 : Kept (.box :: .store :: .seq :: .tid :: .csc :: reports) s x5 := (.of (State.count_kept _ _) (.of (State.tracePos_kept _ _ _ _ _) .refl))
  have h10 : Kept (.box :: .store :: .seq :: .tid :: .csc :: reports) s x7 := (.of (State.put_kept _ _ _) (.upd [.tid] h9))
  have h11 : Kept (.box :: .store :: .seq :: .tid :: .csc :: reports) s x8 := (.ite (.of (State.raise_kept _ _ _) h10) h10)
  exact (.ite (.of (State.tideHold_kept _) (.of (State.raiseSev_kept _ _ _ _) h11)) h11)

theorem State.checkMonitor_kept (s : State) (a1 : ℕ) :
    Kept (.box :: .store :: .seq :: .tid :: .csc :: reports) s (State.checkMonitor s a1) := by
  delta State.checkMonitor
  extract_lets _ _
  split
  · extract_lets _
    exact (.ite (.of (State.tideHold_kept _) (.of (State.raise_kept _ _ _) .refl)) .refl)
  · exact (.upd [.tid] .refl)
  · exact .refl

theorem State.checkLatch_kept (s : State) (a1 : Strip) (a2 : ℤ) :
    Kept (.box :: .store :: .seq :: .tid :: .csc :: reports) s (State.checkLatch s a1 a2) := by
  delta State.checkLatch
  extract_lets _ _ _
  exact (.ite (.ite (.of (State.tideHold_kept _) (.of (State.raise_kept _ _ _) .refl)) (.upd [.tid] .refl)) .refl)

theorem State.checkJump_kept (s : State) (a1 : Strip) (a2 : Option Estimator) :
    Kept (.box :: .store :: .seq :: .tid :: .csc :: reports) s (State.checkJump s a1 a2) := by
  delta State.checkJump
  extract_lets _
  split
  · extract_lets _
    exact (.ite (.of (State.tideHold_kept _) (.of (State.raise_kept _ _ _) .refl)) .refl)
  · exact .refl

theorem State.predictionFault_kept (s : State) (a1 : ℕ) (a2 : ℤ) (a3 : Option ℤ) :
    Kept (.box :: .store :: .seq :: .tid :: .csc :: reports) s (State.predictionFault s a1 a2 a3) := by
  delta State.predictionFault
  exact (.of (State.tideHold_kept _) (.of (State.raise_kept _ _ _) .refl))

theorem State.checkCommitted_kept (s : State) (a1 : Strip) :
    Kept (.box :: .store :: .seq :: .tid :: .csc :: reports) s (State.checkCommitted s a1) := by
  delta State.checkCommitted
  extract_lets _ _
  split
  · exact .refl
  · exact (.ite .refl (.fold (fun _ _ h4 => (.ite h4 (by
        split
        · exact (.of (State.predictionFault_kept _ _ _ _) h4)
        · extract_lets _
          exact (.ite (.of (State.predictionFault_kept _ _ _ _) h4) (by
            split
            · exact (.ite (.of (State.predictionFault_kept _ _ _ _) h4) h4)
            · exact h4))))) .refl))

theorem State.measureCrossings_kept (s : State) (a1 : Strip) (a2 : ℤ) (a3 : ℤ) (a4 : ℤ) (a5 : ℤ) :
    Kept (.tid :: reports) s (State.measureCrossings s a1 a2 a3 a4 a5) := by
  delta State.measureCrossings
  extract_lets _
  exact (.fold (fun _ _ h7 => (by
      extract_lets _ _ _ _ x12 x13
      have h14 : Kept (.tid :: reports) s x12 := (.upd [.tid] h7)
      have h15 : Kept (.tid :: reports) s x13 := (.ite (.of (State.put_kept _ _ _) h14) h14)
      exact (.ite (.ite (.of (State.count_kept _ _) h15) h15) h7))) .refl)

theorem State.checkFixed_kept (s : State) (a1 : Strip) (a2 : ℤ) (a3 : ℤ) :
    Kept (.box :: .store :: .seq :: .tid :: .csc :: reports) s (State.checkFixed s a1 a2 a3) := by
  delta State.checkFixed
  extract_lets _ _ _ _
  exact (.ite (.ite (.of (State.predictionFault_kept _ _ _ _) .refl) .refl) .refl)

theorem State.checkFollow_kept (s : State) (a1 : ℕ) (a2 : ℤ) :
    Kept (.box :: .store :: .seq :: .tid :: .csc :: reports) s (State.checkFollow s a1 a2) := by
  delta State.checkFollow
  extract_lets _
  exact (.ite .refl (by
    split
    · exact .refl
    · extract_lets _
      exact (.ite (.of (State.tideHold_kept _) (.of (State.stopProfile_kept _) (.of (State.raiseSev_kept _ _ _ _) .refl))) .refl)))

theorem State.placeProfile_kept (s : State) (a1 : ℕ) :
    Kept [.tid] s (State.placeProfile s a1) := by
  delta State.placeProfile
  extract_lets _ _
  exact (.ite .refl (.upd [.tid] .refl))

theorem State.sampleValid_kept (s : State) (a1 : ℕ) (a2 : ℤ) (a3 : Bool) :
    Kept (.box :: .store :: .seq :: .tid :: .csc :: reports) s (State.sampleValid s a1 a2 a3) := by
  delta State.sampleValid
  extract_lets x4 x5 x6 x7 _ _ _ _ _ x13 x14 x15
  have h16 : Kept (.box :: .store :: .seq :: .tid :: .csc :: reports) s x4 := (.of (State.count_kept _ _) (.of (State.tracePos_kept _ _ _ _ _) .refl))
  have h17 : Kept (.box :: .store :: .seq :: .tid :: .csc :: reports) s x5 := (.ite (.of (State.count_kept _ _) h16) h16)
  have h18 : Kept (.box :: .store :: .seq :: .tid :: .csc :: reports) s x6 := (.of (State.puts_kept _ _) h17)
  have h19 : Kept (.box :: .store :: .seq :: .tid :: .csc :: reports) s x7 := (.of (State.placeProfile_kept _ _) (.ite (.of (State.put_kept _ _ _) h18) h18))
  have h20 : Kept (.box :: .store :: .seq :: .tid :: .csc :: reports) s x13 := (.upd [.tid] h19)
  have h21 : Kept (.box :: .store :: .seq :: .tid :: .csc :: reports) s x14 := (.ite (.of (State.sendAll_kept _ _ _) h20) h20)
  have h22 : Kept (.box :: .store :: .seq :: .tid :: .csc :: reports) s x15 := (.of (State.checkMonitor_kept _ _) h21)
  split
  · exact (.of (State.checkFollow_kept _ _ _) h21)
  · extract_lets _ x24 x25 x26 x27
    have h28 : Kept (.box :: .store :: .seq :: .tid :: .csc :: reports) s x24 := (.of (State.checkLatch_kept _ _ _) h22)
    have h29 : Kept (.box :: .store :: .seq :: .tid :: .csc :: reports) s x25 := (.of (State.checkJump_kept _ _ _) h28)
    have h30 : Kept (.box :: .store :: .seq :: .tid :: .csc :: reports) s x26 := (.of (State.checkCommitted_kept _ _) h29)
    have h31 : Kept (.box :: .store :: .seq :: .tid :: .csc :: reports) s x27 := by
      unfold x27
      split
      · exact (.of (State.measureCrossings_kept _ _ _ _ _ _) h30)
      · exact h30
    exact (.of (State.checkFollow_kept _ _ _) (.of (State.checkFixed_kept _ _ _ _) h31))

theorem State.reading_kept (s : State) (a1 : ℕ) (a2 : ℕ) (a3 : ℤ) (a4 : Bool) :
    Kept (.box :: .store :: .seq :: .tid :: .csc :: reports) s (State.reading s a1 a2 a3 a4) := by
  delta State.reading
  exact (.ite (.of (State.sampleValid_kept _ _ _ _) .refl) .refl)

theorem execPosTrigger_kept (a1 : Fin 2) (s : State) :
    OutKept [.tid] s (execPosTrigger a1 s) := by
  delta execPosTrigger
  extract_lets _ _ _
  exact (.ite (.next (.upd [.tid] .refl)) (.next .refl))

theorem execPositionFrame_kept (a1 : Fin 2) (a2 : List Byte) (s : State) :
    OutKept (.box :: .store :: .seq :: .tid :: .csc :: reports) s (execPositionFrame a1 a2 s) := by
  delta execPositionFrame
  extract_lets _ x4 _ x6
  have h7 : Kept (.box :: .store :: .seq :: .tid :: .csc :: reports) s x4 := (.upd [.tid] .refl)
  have h8 : Kept (.box :: .store :: .seq :: .tid :: .csc :: reports) s x6 := (.upd [.tid] h7)
  split
  · exact (.next .refl)
  · extract_lets _
    split
    · exact (.next (.of (State.reading_kept _ _ _ _ _) h8))
    · exact (.next (.ite (.of (State.sampleMissed_kept _ _) h7) h7))

theorem execPosFrameLate_kept (a1 : Fin 2) (s : State) :
    OutKept (.box :: .store :: .seq :: .tid :: .csc :: reports) s (execPosFrameLate a1 s) := by
  delta execPosFrameLate
  extract_lets _ x3
  have h4 : Kept (.box :: .store :: .seq :: .tid :: .csc :: reports) s x3 := (.upd [.tid] .refl)
  split
  · exact (.next .refl)
  · exact (.ite (.next (.ite (.of (State.sampleMissed_kept _ _) h4) h4)) (.next .refl))

theorem execQuadEdge_kept (a1 : Fin 2) (a2 : Bool) (a3 : Bool) (s : State) :
    OutKept (.box :: .store :: .seq :: .tid :: .csc :: reports) s (execQuadEdge a1 a2 a3 s) := by
  delta execQuadEdge
  extract_lets _ _ x6 x7
  have h8 : Kept (.box :: .store :: .seq :: .tid :: .csc :: reports) s x6 := (.upd [.tid] .refl)
  have h9 : Kept (.box :: .store :: .seq :: .tid :: .csc :: reports) s x7 := (.of (State.raiseSev_kept _ _ _ _) h8)
  split
  · extract_lets _ x11
    have h12 : Kept (.box :: .store :: .seq :: .tid :: .csc :: reports) s x11 := (.upd [.tid] .refl)
    exact (.ite (.next h12) (.next (.of (State.reading_kept _ _ _ _ _) h12)))
  · exact (.ite (.next (.of (State.tideHold_kept _) (.of (State.puts_kept _ _) h9))) (.next h8))

theorem execQuadIndex_kept (a1 : Fin 2) (s : State) :
    OutKept (.box :: .store :: .seq :: .tid :: .csc :: reports) s (execQuadIndex a1 s) := by
  delta execQuadIndex
  extract_lets _ x3 x4 _ x6
  have h7 : Kept (.box :: .store :: .seq :: .tid :: .csc :: reports) s x3 := (.of (State.put_kept _ _ _) .refl)
  have h8 : Kept (.box :: .store :: .seq :: .tid :: .csc :: reports) s x4 := (.ite (.of (State.put_kept _ _ _) h7) h7)
  have h9 : Kept (.box :: .store :: .seq :: .tid :: .csc :: reports) s x6 := (.upd [.tid] h8)
  exact (.ite (.next (.of (State.reading_kept _ _ _ _ _) h9)) (.next .refl))

theorem execTidQrefArm_kept (a1 : HalfWrite) (s : State) :
    OutKept reports s (execTidQrefArm a1 s) := by
  delta execTidQrefArm
  exact (.next (.of (State.writeHalf_kept _ _ _ _) .refl))

theorem State.refuseTarget_kept (s : State) (a1 : ℕ) (a2 : ℤ) :
    Kept reports s (State.refuseTarget s a1 a2) := by
  delta State.refuseTarget
  exact (.of (State.complete_kept _ _ _ _ _) (.of (State.raise_kept _ _ _) .refl))

theorem State.reverseTo_kept (s : State) (a1 : ℕ) (a2 : ℤ) :
    Kept [.regs, .tid] s (State.reverseTo s a1 a2) := by
  delta State.reverseTo
  extract_lets x3 _
  have h5 : Kept [.regs, .tid] s x3 := (.of (State.put_kept _ _ _) (.of (State.stopProfile_kept _) .refl))
  exact (.upd [.tid] h5)

theorem State.moveTo_kept (s : State) (a1 : Option ℕ) (a2 : ℤ) :
    Kept [.regs, .tid] s (State.moveTo s a1 a2) := by
  delta State.moveTo
  extract_lets x3 _
  have h5 : Kept [.regs, .tid] s x3 := (.of (State.put_kept _ _ _) .refl)
  exact (.upd [.tid] h5)

theorem State.startMove_kept (s : State) (a1 : MoveJob) :
    Kept (.tid :: reports) s (State.startMove s a1) := by
  delta State.startMove
  extract_lets x2
  have h3 : Kept (.tid :: reports) s x2 := by
    unfold x2
    split
    · exact (.of (State.complete_kept _ _ _ _ _) .refl)
    · exact .refl
  exact (.ite (.of (State.refuseTarget_kept _ _ _) .refl) (.ite (.of (State.reverseTo_kept _ _ _) .refl) (.of (State.moveTo_kept _ _ _) h3)))

theorem State.startTable_kept (s : State) (a1 : MoveJob) (a2 : List (ℕ × ℤ × ℤ)) :
    Kept (.tid :: reports) s (State.startTable s a1 a2) := by
  delta State.startTable
  extract_lets x3 _
  have h5 : Kept (.tid :: reports) s x3 := (.of (State.put_kept _ _ _) .refl)
  split
  · exact (.of (State.complete_kept _ _ _ _ _) (.of (State.raise_kept _ _ _) .refl))
  · exact (.upd [.tid] h5)

theorem State.startHeld_kept (s : State) :
    Kept (.tid :: reports) s (State.startHeld s) := by
  delta State.startHeld
  extract_lets _ _
  split
  · exact .refl
  · extract_lets _ x4
    have h5 : Kept (.tid :: reports) s x4 := (.upd [.tid] .refl)
    exact (.ite (by
      split
      · exact (.of (State.startTable_kept _ _ _) h5)
      · exact (.of (State.startMove_kept _ _) h5)) .refl)

theorem State.stageMove_kept (s : State) (a1 : ℕ) (a2 : ℤ) :
    Kept (.box :: .store :: .seq :: .tid :: .csc :: reports) s (State.stageMove s a1 a2) := by
  delta State.stageMove
  extract_lets _ x4 _
  have h6 : Kept (.box :: .store :: .seq :: .tid :: .csc :: reports) s x4 := (.ite (.of (State.abandonFlood_kept _ _ _) .refl) (.ite .refl (.of (State.hardwareStop_kept _ _ _) .refl)))
  exact (.ite (.ite (.of (State.refuseTarget_kept _ _ _) .refl) (.of (State.reverseTo_kept _ _ _) h6)) (.of (State.startHeld_kept _) (.upd [.tid] .refl)))

theorem execStageMove_kept (a1 : Desc) (s : State) :
    OutKept (.box :: .store :: .seq :: .tid :: .csc :: reports) s (execStageMove a1 s) := by
  delta execStageMove
  exact (.ite (.next .refl) (.next (State.withDesc_kept _ _ _ _ _ (fun _ _ h2 => (.of (State.stageMove_kept _ _ _) h2)) .refl)))

theorem execStageTable_kept (a1 : Desc) (s : State) :
    OutKept (.tid :: reports) s (execStageTable a1 s) := by
  delta execStageTable
  extract_lets _ _
  exact (.ite (.next .refl) (.next (State.withDesc_kept _ _ _ _ _ (fun _ _ h4 => (by
      extract_lets _ _ _
      split
      · exact (.of (State.failRange_kept _ _ _ _) h4)
      · exact (.of (State.startHeld_kept _) (.upd [.tid] h4)))) .refl)))

theorem State.setPoint_kept (s : State) (a1 : ℤ) (a2 : ℤ) (a3 : ℤ) :
    Kept [.tid] s (State.setPoint s a1 a2 a3) := by
  delta State.setPoint
  extract_lets _ _ _
  exact (.upd [.tid] .refl)

theorem State.applyDeferred_kept (s : State) :
    Kept (.tid :: reports) s (State.applyDeferred s) := by
  delta State.applyDeferred
  extract_lets _ _
  exact (.ite (.fold (fun _ _ h3 => (.of (State.raise_kept _ _ _) (.of (State.put_kept _ _ _) h3))) (.of (State.put_kept _ _ _) (.upd [.tid] .refl))) .refl)

theorem State.updateStopLead_kept (s : State) :
    Kept [.regs] s (State.updateStopLead s) := by
  delta State.updateStopLead
  extract_lets _
  exact (.ite (.of (State.showStopLead_kept _) .refl) (by
    split
    · exact .refl
    · extract_lets _
      exact (.ite (by
        split
        · exact (.of (State.put_kept _ _ _) .refl)
        · exact .refl) (.ite .refl (.of (State.put_kept _ _ _) .refl)))))

theorem State.endMotion_kept (s : State) (a1 : ℕ) :
    Kept (.tid :: .pwr :: reports) s (State.endMotion s a1) := by
  delta State.endMotion
  extract_lets x2 _ x4 _ _ x7 x8
  have h9 : Kept (.tid :: .pwr :: reports) s x2 := by
    unfold x2
    split
    · exact (.of (State.complete_kept _ _ _ _ _) .refl)
    · exact .refl
  have h10 : Kept (.tid :: .pwr :: reports) s x4 := (.upd [.tid] h9)
  have h11 : Kept (.tid :: .pwr :: reports) s x7 := (.of (State.put_kept _ _ _) (.upd [.tid] h10))
  have h12 : Kept (.tid :: .pwr :: reports) s x8 := (.of (State.put_kept _ _ _) h10)
  split
  · exact (.of (State.moveTo_kept _ _ _) h11)
  · exact (.ite (.of (State.aonAlone_kept _) h12) h12)

theorem State.tableStep_kept (s : State) :
    Kept (.tid :: .pwr :: reports) s (State.tableStep s) := by
  delta State.tableStep
  extract_lets _
  split
  · exact (.of (State.endMotion_kept _ _) (.of (State.setPoint_kept _ _ _ _) .refl))
  · extract_lets x2 _
    have h4 : Kept (.tid :: .pwr :: reports) s x2 := (.upd [.tid] .refl)
    exact (.of (State.setPoint_kept _ _ _ _) h4)

theorem execPlannerStep_kept (a1 : BitVec 64) (a2 : BitVec 64) (a3 : BitVec 64) (a4 : BitVec 64) (s : State) :
    OutKept (.seq :: .tid :: .csc :: .pwr :: reports) s (execPlannerStep a1 a2 a3 a4 s) := by
  delta execPlannerStep
  extract_lets _ x6 _ x8
  have h9 : Kept (.seq :: .tid :: .csc :: .pwr :: reports) s x6 := (.of (State.setPoint_kept _ _ _ _) .refl)
  have h10 : Kept (.seq :: .tid :: .csc :: .pwr :: reports) s x8 := (.ite (.of (State.setPoint_kept _ _ _ _) .refl) (.ite (.of (State.tableStep_kept _) .refl) (.ite (.of (State.endMotion_kept _ _) (.of (State.setPoint_kept _ _ _ _) .refl)) (.ite (.upd [.tid] h9) .refl))))
  exact (.ite (.next .refl) (.next (.of (State.startHeld_kept _) (.of (State.watchFlood_kept _) (.of (State.updateStopLead_kept _) (.of (State.applyDeferred_kept _) h10))))))

theorem execApproachReached_kept (s : State) :
    OutKept [.regs, .store, .tid, .csc] s (execApproachReached s) := by
  delta execApproachReached
  extract_lets _
  split
  · exact (.next .refl)
  · extract_lets x2 _ x4 x5
    have h6 : Kept [.regs, .store, .tid, .csc] s x2 := (.ite .refl (.of (State.modLedger_kept _ _ _) .refl))
    have h7 : Kept [.regs, .store, .tid, .csc] s x4 := (.upd [.tid] h6)
    have h8 : Kept [.regs, .store, .tid, .csc] s x5 := (.of (State.puts_kept _ _) h7)
    exact (.ite (.next (.of (State.tellSlaves_kept _ _) h8)) (.next .refl))

theorem State.setpointValues_kept (s : State) :
    Kept [.free] s (State.setpointValues s).2 := by
  delta State.setpointValues
  extract_lets _ _ _
  exact (by split; exacts [.refl, (by split; exacts [.refl, (by split; exacts [.refl, (by
    split
    · rename_i a4 a5 e6
      have h7 : Kept [.free] s a5 := by
        have k0 := congrArg Prod.snd e6
        rw [← show _ = a5 from k0]
        exact (.of (State.draw_kept _) .refl)
      split
      · rename_i a8 a9 e10
        have h11 : Kept [.free] s a9 := by
          have k0 := congrArg Prod.snd e10
          rw [← show _ = a9 from k0]
          exact (.of (State.draw_kept _) h7)
        exact h11)])])])

theorem execSetpointFrame_kept (s : State) :
    OutKept [.tid, .free] s (execSetpointFrame s) := by
  delta execSetpointFrame
  extract_lets _
  exact (.ite (by
    split
    · rename_i a2 a3 e4
      have h5 : Kept [.tid, .free] s a3 := by
        have k0 := congrArg Prod.snd e4
        rw [← show _ = a3 from k0]
        exact (.of (State.setpointValues_kept _) .refl)
      extract_lets _
      exact (.next (.upd [.tid] h5))) (.next .refl))

theorem State.writeAny_kept (s : State) (a1 : ℕ) (a2 : Bool) (a3 : BitVec 64) :
    Kept reports s (State.writeAny s a1 a2 a3) := by
  delta State.writeAny
  exact (.ite (.of (State.writePair_kept _ _ _) .refl) (.of (State.writeWord_kept _ _ _) .refl))

theorem State.undefer_kept (s : State) (a1 : ℕ) :
    Kept [.regs, .tid] s (State.undefer s a1) := by
  delta State.undefer
  extract_lets _ _
  exact (.of (State.put_kept _ _ _) (.upd [.tid] .refl))

theorem execTidLimitWrite_kept (a1 : BitVec 25) (a2 : Bool) (a3 : BitVec 64) (s : State) :
    OutKept (.box :: .tid :: .csc :: reports) s (execTidLimitWrite a1 a2 a3 s) := by
  delta execTidLimitWrite
  extract_lets _ x5 _ _ _ x9 _ x11
  have h12 : Kept (.box :: .tid :: .csc :: reports) s x5 := (.of (State.writeAny_kept _ _ _ _) .refl)
  have h13 : Kept (.box :: .tid :: .csc :: reports) s x9 := (.of (State.count_kept _ _) (.of (State.put_kept _ _ _) .refl))
  have h14 : Kept (.box :: .tid :: .csc :: reports) s x11 := (.upd [.tid] h13)
  exact (.ite (.next .refl) (.ite (.next (.ite h12 (.of (State.replan_kept _) h12))) (.ite (.next (.of (State.raise_kept _ _ _) h14)) (.next (.of (State.undefer_kept _ _) h12)))))

theorem execTidGovCapWrite_kept (a1 : Word) (s : State) :
    OutKept (.box :: .tid :: .csc :: reports) s (execTidGovCapWrite a1 s) := by
  delta execTidGovCapWrite
  extract_lets x2
  have h3 : Kept (.box :: .tid :: .csc :: reports) s x2 := (.of (State.writeWord_kept _ _ _) .refl)
  exact (.next (.ite h3 (.of (State.replan_kept _) h3)))

theorem State.sourceChanged_kept (s : State) :
    Kept [.regs, .tid] s (State.sourceChanged s) := by
  delta State.sourceChanged
  extract_lets _ x2
  have h3 : Kept [.regs, .tid] s x2 := (.upd [.tid] .refl)
  exact (.of (State.puts_kept _ _) h3)

theorem State.tideConfig_kept (s : State) (a1 : ℕ) (a2 : Bool) (a3 : BitVec 64) :
    Kept (.tid :: reports) s (State.tideConfig s a1 a2 a3) := by
  delta State.tideConfig
  extract_lets x4
  have h5 : Kept (.tid :: reports) s x4 := (.of (State.writeAny_kept _ _ _ _) .refl)
  exact (.ite (.ite (.of (State.writeWord_kept _ _ _) .refl) .refl) (.ite (.ite h5 (.of (State.sourceChanged_kept _) h5)) (.of (State.raise_kept _ _ _) .refl)))

theorem execTidConfigWrite_kept (a1 : BitVec 25) (a2 : Bool) (a3 : BitVec 64) (s : State) :
    OutKept (.tid :: reports) s (execTidConfigWrite a1 a2 a3 s) := by
  delta execTidConfigWrite
  extract_lets _
  exact (.ite (.next .refl) (.ite (.next (.of (State.tideConfig_kept _ _ _ _) (.of (State.tideConfig_kept _ _ _ _) .refl))) (.next (.of (State.tideConfig_kept _ _ _ _) .refl))))

/-! ### Line -/

theorem State.countFault_kept (s : State) (a1 : FrameFault) :
    Kept reports s (State.countFault s a1) := by
  delta State.countFault
  extract_lets _ _ x4 x5 x6 x7
  have h8 : Kept reports s x4 := (.ite (.of (State.count_kept _ _) .refl) .refl)
  have h9 : Kept reports s x5 := (.ite (.of (State.count_kept _ _) h8) h8)
  have h10 : Kept reports s x6 := (.ite (.of (State.count_kept _ _) h9) h9)
  have h11 : Kept reports s x7 := (.ite (.of (State.count_kept _ _) h10) h10)
  exact (.ite (.of (State.count_kept _ _) h11) h11)

theorem State.feltPoison_kept (s : State) :
    Kept reports s (State.feltPoison s) := by
  delta State.feltPoison
  exact (.of (State.consumeFlagged_kept _ _) .refl)

theorem State.arbitrate_kept (s : State) (a1 : FrameFault) :
    Kept (.box :: .seq :: .tid :: .couch :: .csc :: .free :: reports) s (State.arbitrate s a1).1 := by
  delta State.arbitrate
  split
  · exact (by split; exacts [(.of (State.feltPoison_kept _) .refl), (by split; exacts [(.of (State.loseCouch_kept _ _ _) (.of (State.loseCouch_kept _ _ _) (.of (State.soleFault_kept _ _) .refl))), (by split; exacts [(.of (State.switchOver_kept _ _) .refl), (by split; exacts [(.of (State.loseStandby_kept _ _ _) .refl), (by split; exacts [.refl, .refl])])])])])
  · exact (by split; exacts [(.of (State.feltPoison_kept _) .refl), (by split; exacts [(.of (State.loseCouch_kept _ _ _) (.of (State.soleFault_kept _ _) .refl)), .refl])])
  · exact .refl

theorem State.countZero_kept (s : State) (a1 : ℕ) (a2 : ℕ) (a3 : ℕ) (a4 : ℕ) :
    Kept reports s (State.countZero s a1 a2 a3 a4) := by
  delta State.countZero
  exact (.of (State.raise_kept _ _ _) (.of (State.count_kept _ _) .refl))

theorem State.zeroFrame_kept (s : State) (a1 : Strip) (a2 : ℕ) (a3 : ℕ) (a4 : ℕ) :
    Kept (.box :: .store :: .seq :: .tid :: .link :: .csc :: reports) s (State.zeroFrame s a1 a2 a3 a4) := by
  delta State.zeroFrame
  exact (.of (State.driverMark_kept _ _ _ _ _) (.of (State.countZero_kept _ _ _ _ _) .refl))

theorem State.reserveShort_kept (s : State) (a1 : ℕ) (a2 : ℕ) (a3 : ℕ) (a4 : ℕ) (a5 : ℕ) :
    Kept reports s (State.reserveShort s a1 a2 a3 a4 a5) := by
  delta State.reserveShort
  exact (.of (State.raise_kept _ _ _) .refl)

theorem State.sendFrame_kept (s : State) (a1 : OpenLine) (a2 : List Byte) :
    Kept [.link] s (State.sendFrame s a1 a2) := by
  delta State.sendFrame
  extract_lets _
  exact (.ite (.of (State.modDriver_kept _ _ _) (.upd [.link] .refl)) .refl)

theorem State.serviceFrame_kept (s : State) (a1 : ℕ) (a2 : ℤ) (a3 : ℤ) (a4 : ℕ) (a5 : List FrameFault) (a6 : LineTally) (a7 : ℕ) :
    Kept (.box :: .store :: .seq :: .tid :: .couch :: .link :: .csc :: .free :: reports) s (State.serviceFrame s a1 a2 a3 a4 a5 a6 a7).1 := by
  delta State.serviceFrame
  extract_lets _ _ x10 _
  split
  · exact .refl
  · extract_lets _ _ _ _ x16
    have h17 : Kept (.box :: .store :: .seq :: .tid :: .couch :: .link :: .csc :: .free :: reports) s x16 := (.of (State.missSole_kept _) (.ite (.of (State.reserveShort_kept _ _ _ _ _ _) .refl) .refl))
    split
    · rename_i a18 a19 e20
      have h21 : Kept (.box :: .store :: .seq :: .tid :: .couch :: .link :: .csc :: .free :: reports) s a18 := by
        have k0 := congrArg Prod.fst e20
        rw [← show _ = a18 from k0]
        exact (by
        clear_value x10
        split
        · exact (.of (State.arbitrate_kept _ _) (.of (State.countFault_kept _ _) h17))
        · exact h17)
      extract_lets _ _ x24 _ _ x27 _
      have h29 : Kept (.box :: .store :: .seq :: .tid :: .couch :: .link :: .csc :: .free :: reports) s x24 := (.ite h21 (.of (State.zeroFrame_kept _ _ _ _ _) h21))
      have h30 : Kept (.box :: .store :: .seq :: .tid :: .couch :: .link :: .csc :: .free :: reports) s x27 := (.of (State.onNewPath_kept _ _ _) h29)
      exact (.of (State.sendFrame_kept _ _ _) h30)

theorem State.zeroRuns_kept (s : State) (a1 : List ℕ) :
    Kept [.couch] s (State.zeroRuns s a1) := by
  delta State.zeroRuns
  extract_lets _ _
  exact (.upd [.couch] .refl)

theorem State.recover_kept (s : State) (a1 : ℕ) :
    Kept [.couch] s (State.recover s a1) := by
  delta State.recover
  extract_lets _
  exact (.upd [.couch] .refl)

theorem State.chainsSent_kept (s : State) (a1 : ℕ) (a2 : ℤ) :
    Kept [.link, .lanes] s (State.chainsSent s a1 a2) := by
  delta State.chainsSent
  exact (.fold (fun _ _ h3 => (.ite (.of (State.qualSent_kept _ _) (.of (State.modChain_kept _ _ _) h3)) h3)) .refl)

theorem State.countLines_kept (s : State) :
    Kept reports s (State.countLines s) := by
  delta State.countLines
  exact (.fold (fun _ _ h1 => (.ite (.of (State.count_kept _ _) h1) h1)) .refl)

theorem State.traceCouch_kept (s : State) (a1 : LineTally) (a2 : Bool) (a3 : ℕ) :
    Kept reports s (State.traceCouch s a1 a2 a3) := by
  delta State.traceCouch
  exact (.of (State.trace_kept _ _ _) .refl)

theorem State.latchTick_kept (s : State) (a1 : ℕ) :
    Kept [.link] s (State.latchTick s a1) := by
  delta State.latchTick
  extract_lets _
  exact (.upd [.link] .refl)

theorem State.serviceFrames_kept (s : State) (a1 : ℕ) (a2 : ℤ) (a3 : ℤ) (a4 : ℕ) (a5 : List FrameFault) :
    Kept (.box :: .store :: .seq :: .tid :: .couch :: .link :: .csc :: .free :: reports) s (State.serviceFrames s a1 a2 a3 a4 a5).1 := by
  delta State.serviceFrames
  exact (.fold1 (fun _ _ h6 => (.of (State.serviceFrame_kept _ _ _ _ _ _ _ _) h6)) .refl)

theorem State.lineSent_kept (s : State) (a1 : LineTally) (a2 : Bool) (a3 : ℕ) (a4 : ℕ) (a5 : ℤ) :
    Kept (.couch :: .link :: .lanes :: reports) s (State.lineSent s a1 a2 a3 a4 a5) := by
  delta State.lineSent
  extract_lets _ _
  exact (.of (State.chainsSent_kept _ _ _) (.of (State.latchTick_kept _ _) (.of (State.recover_kept _ _) (.of (State.traceCouch_kept _ _ _ _) (.of (State.zeroRuns_kept _ _) .refl)))))

theorem State.sendLine_kept (s : State) (slot : Nat) (t : Int) (h : Int) (p : Nat) (faults : List FrameFault) :
    Kept (.box :: .store :: .seq :: .tid :: .couch :: .link :: .lanes :: .csc :: .free :: reports) s (s.sendLine slot t h p faults) :=
  .of (State.lineSent_kept _ _ _ _ _ _) (.of (State.serviceFrames_kept _ _ _ _ _ _) (.of (State.countLines_kept _) .refl))

theorem State.swapFrame_kept (s : State) (a1 : SwapTest) (a2 : ℕ) (a3 : ℤ) (a4 : ℕ) (a5 : List FrameFault) (a6 : ℕ) :
    Kept (.couch :: .link :: reports) s (State.swapFrame s a1 a2 a3 a4 a5 a6) := by
  delta State.swapFrame
  extract_lets x7 _ _ _ _ x12 x13 x14 x15 _ _ x18 _ x20 _ _ _
  have h24 : Kept (.couch :: .link :: reports) s x12 := by
    unfold x12
    clear_value x7
    split
    · exact (.of (State.countFault_kept _ _) .refl)
    · exact .refl
  have h25 : Kept (.couch :: .link :: reports) s x13 := (.ite (.of (State.testFails_kept _ _ _ _) h24) h24)
  have h26 : Kept (.couch :: .link :: reports) s x14 := (.ite (.of (State.testFails_kept _ _ _ _) h25) h25)
  have h27 : Kept (.couch :: .link :: reports) s x15 := (.ite (.of (State.testFails_kept _ _ _ _) h26) h26)
  have h28 : Kept (.couch :: .link :: reports) s x18 := (.ite (.of (State.reserveShort_kept _ _ _ _ _ _) h27) h27)
  have h29 : Kept (.couch :: .link :: reports) s x20 := (.ite h28 (.of (State.countZero_kept _ _ _ _ _) h28))
  exact (.of (State.sendFrame_kept _ _ _) h29)

theorem State.swapLine_kept (s : State) (a1 : ℕ) (a2 : ℤ) (a3 : ℕ) (a4 : List FrameFault) :
    Kept (.couch :: .link :: .lanes :: reports) s (State.swapLine s a1 a2 a3 a4) := by
  delta State.swapLine
  split
  · exact .refl
  · extract_lets x5 _ x7
    have h8 : Kept (.couch :: .link :: .lanes :: reports) s x5 := (.fold (fun _ _ h9 => (.of (State.swapFrame_kept _ _ _ _ _ _ _) h9)) (.of (State.countLines_kept _) .refl))
    have h10 : Kept (.couch :: .link :: .lanes :: reports) s x7 := by
      unfold x7
      split
      · exact (.upd [.couch] h8)
      · exact h8
    exact (.ite .refl (.of (State.chainsSent_kept _ _ _) (.of (State.latchTick_kept _ _) h10)))

theorem State.measureLine_kept (s : State) (a1 : ℕ) (a2 : ℤ) (a3 : ℕ) :
    Kept [.link, .lanes] s (State.measureLine s a1 a2 a3) := by
  delta State.measureLine
  split
  · exact .refl
  · extract_lets x4
    have h5 : Kept [.link, .lanes] s x4 := (.fold (fun _ _ h6 => (by
          extract_lets _
          exact (.of (State.sendFrame_kept _ _ _) h6))) .refl)
    exact (.of (State.chainsSent_kept _ _ _) (.of (State.latchTick_kept _ _) h5))

theorem State.testLine_kept (s : State) (a1 : ℕ) (a2 : ℤ) (a3 : ℕ) (a4 : List FrameFault) :
    Kept (.couch :: .link :: .lanes :: reports) s (State.testLine s a1 a2 a3 a4) := by
  delta State.testLine
  exact (.ite (.of (State.swapLine_kept _ _ _ _ _) .refl) (.of (State.measureLine_kept _ _ _ _) .refl))

/-! ### Expose -/

theorem State.reportCuts_kept (s : State) (a1 : Strip) :
    Kept (.box :: reports) s (State.reportCuts s a1) := by
  delta State.reportCuts
  split
  · exact .refl
  · extract_lets x2
    have h3 : Kept (.box :: reports) s x2 := (.of (State.countBy_kept _ _ _) (.of (State.modStrip_kept _ _ _) .refl))
    exact (.of (State.raise_kept _ _ _) h3)

theorem State.beginRun_kept (s : State) (a1 : Strip) :
    Kept (.box :: .seq :: .couch :: .link :: reports) s (State.beginRun s a1) := by
  delta State.beginRun
  extract_lets _ _ _ x5 x6 x7 x8 x9
  have h10 : Kept (.box :: .seq :: .couch :: .link :: reports) s x5 := (.upd [.seq, .couch, .link] .refl)
  have h11 : Kept (.box :: .seq :: .couch :: .link :: reports) s x6 := (.of (State.count_kept _ _) (.of (State.enter_kept _ _) h10))
  have h12 : Kept (.box :: .seq :: .couch :: .link :: reports) s x7 := (.of (State.puts_kept _ _) h11)
  have h13 : Kept (.box :: .seq :: .couch :: .link :: reports) s x8 := (.of (State.raise_kept _ _ _) h12)
  have h14 : Kept (.box :: .seq :: .couch :: .link :: reports) s x9 := (.of (State.completeAll_kept _ _ _ _ _) (.of (State.modStrip_kept _ _ _) h13))
  exact (.ite (.of (State.reportCuts_kept _ _) h14) (.of (State.enter_kept _ _) h10))

theorem State.fireReam_kept (s : State) (a1 : Strip) (a2 : ℤ) (a3 : ReamSlot) :
    Kept (.box :: .store :: .seq :: reports) s (State.fireReam s a1 a2 a3) := by
  delta State.fireReam
  extract_lets _ _ x6
  have h7 : Kept (.box :: .store :: .seq :: reports) s x6 := (.of (State.modReam_kept _ _ _ _) .refl)
  exact (.ite .refl (.ite h7 (.ite (.of (State.releaseReam_kept _ _ _) h7) (.of (State.modReam_kept _ _ _ _) h7))))

theorem State.dropFelt_kept (s : State) (a1 : Strip) (a2 : ℤ) :
    Kept [.store] s (State.dropFelt s a1 a2) := by
  delta State.dropFelt
  extract_lets _ _ _ _ _
  exact (.upd [.store] .refl)

theorem State.fireTick_kept (s : State) (a1 : Strip) (a2 : ℤ) :
    Kept (.box :: .store :: .seq :: reports) s (State.fireTick s a1 a2) := by
  delta State.fireTick
  extract_lets x3 x4
  have h5 : Kept (.box :: .store :: .seq :: reports) s x3 := (.ite (.of (State.modStrip_kept _ _ _) (.of (State.count_kept _ _) .refl)) .refl)
  have h6 : Kept (.box :: .store :: .seq :: reports) s x4 := (.fold (fun _ _ h7 => (.of (State.fireReam_kept _ _ _ _) h7)) h5)
  exact (.of (State.dropFelt_kept _ _ _) h6)

theorem State.enterEbb_kept (s : State) :
    Kept [.regs, .seq, .tid] s (State.enterEbb s) := by
  delta State.enterEbb
  extract_lets _ _ x3 x4
  have h5 : Kept [.regs, .seq, .tid] s x3 := (.upd [.seq, .tid] .refl)
  have h6 : Kept [.regs, .seq, .tid] s x4 := (.of (State.puts_kept _ _) h5)
  exact (.of (State.enter_kept _ _) h6)

theorem State.watchTick_kept (s : State) (a1 : Strip) (a2 : ℤ) :
    Kept (.box :: .store :: .seq :: .tid :: .csc :: reports) s (State.watchTick s a1 a2) := by
  delta State.watchTick
  extract_lets _ x4 x5
  have h6 : Kept (.box :: .store :: .seq :: .tid :: .csc :: reports) s x4 := (.ite .refl (.of (State.watchLead_kept _ _ _) .refl))
  have h7 : Kept (.box :: .store :: .seq :: .tid :: .csc :: reports) s x5 := (.of (State.planStop_kept _ _ _) h6)
  exact (.ite (.of (State.carryOut_kept _ _ _) .refl) (.of (State.carryOut_kept _ _ _) h7))

theorem State.showRate_kept (s : State) (a1 : Strip) (a2 : ℤ) :
    Kept [.regs] s (State.showRate s a1 a2) := by
  delta State.showRate
  extract_lets _
  split
  · exact (.of (State.puts_kept _ _) .refl)
  · exact .refl

theorem State.coastTick_kept (s : State) (a1 : Strip) (a2 : ℤ) :
    Kept (.box :: .store :: .seq :: reports) s (State.coastTick s a1 a2) := by
  delta State.coastTick
  split
  · exact (.ite (.of (State.fireTick_kept _ _ _) .refl) .refl)
  · exact .refl

theorem State.sequenceTick_kept (s : State) (a1 : Strip) (a2 : ℤ) :
    Kept (.box :: .store :: .seq :: .tid :: .couch :: .link :: .csc :: reports) s (State.sequenceTick s a1 a2) := by
  delta State.sequenceTick
  extract_lets x3 x4 x5 x6
  have h7 : Kept (.box :: .store :: .seq :: .tid :: .couch :: .link :: .csc :: reports) s x3 := (.of (State.watchFlood_kept _) .refl)
  have h8 : Kept (.box :: .store :: .seq :: .tid :: .couch :: .link :: .csc :: reports) s x4 := (.ite (.ite (.of (State.beginRun_kept _ _) h7) h7) .refl)
  have h9 : Kept (.box :: .store :: .seq :: .tid :: .couch :: .link :: .csc :: reports) s x5 := (.ite (.of (State.enter_kept _ _) h8) h8)
  have h10 : Kept (.box :: .store :: .seq :: .tid :: .couch :: .link :: .csc :: reports) s x6 := (.of (State.showLead_kept _) (.of (State.fireTick_kept _ _ _) h9))
  exact (.ite (.of (State.coastTick_kept _ _ _) .refl) (.ite h8 (.ite (.of (State.enterEbb_kept _) h10) (.of (State.watchTick_kept _ _ _) (.of (State.showRate_kept _ _ _) h10)))))

theorem State.emitTick_kept (s : State) (a1 : Strip) (a2 : ℤ) (a3 : ℤ) (a4 : ℤ) (a5 : ℕ) (a6 : List FrameFault) :
    Kept (.box :: .store :: .seq :: .tid :: .couch :: .link :: .lanes :: .csc :: .free :: reports) s (State.emitTick s a1 a2 a3 a4 a5 a6) := by
  delta State.emitTick
  extract_lets _ x8 x9 _ x11 x12 x13 x14
  have h15 : Kept (.box :: .store :: .seq :: .tid :: .couch :: .link :: .lanes :: .csc :: .free :: reports) s x8 := (.of (State.put_kept _ _ _) .refl)
  have h16 : Kept (.box :: .store :: .seq :: .tid :: .couch :: .link :: .lanes :: .csc :: .free :: reports) s x9 := (.of (State.modStrip_kept _ _ _) h15)
  have h17 : Kept (.box :: .store :: .seq :: .tid :: .couch :: .link :: .lanes :: .csc :: .free :: reports) s x11 := (.upd [.tid] h16)
  have h18 : Kept (.box :: .store :: .seq :: .tid :: .couch :: .link :: .lanes :: .csc :: .free :: reports) s x12 := (.of (State.count_kept _ _) h17)
  have h19 : Kept (.box :: .store :: .seq :: .tid :: .couch :: .link :: .lanes :: .csc :: .free :: reports) s x13 := (.of (State.trace_kept _ _ _) h18)
  have h20 : Kept (.box :: .store :: .seq :: .tid :: .couch :: .link :: .lanes :: .csc :: .free :: reports) s x14 := (.of (State.sequenceTick_kept _ _ _) h19)
  exact (.ite (.of (State.sendLine_kept _ _ _ _ _ _) h20) h20)

theorem State.startTicks_kept (s : State) (a1 : Strip) :
    Kept [.regs, .tid] s (State.startTicks s a1) := by
  delta State.startTicks
  extract_lets x2 _
  have h4 : Kept [.regs, .tid] s x2 := (.of (State.put_kept _ _ _) .refl)
  split
  · exact (.upd [.tid] h4)
  · exact h4

theorem State.tellTick_kept (s : State) (a1 : Strip) (a2 : ℤ) (a3 : ℤ) (a4 : ℕ) :
    Kept [.csc] s (State.tellTick s a1 a2 a3 a4) := by
  delta State.tellTick
  exact (.ite (.of (State.sendAll_kept _ _ _) .refl) .refl)

theorem State.runTick_kept (s : State) (a1 : Strip) (a2 : List FrameFault) :
    Kept (.box :: .store :: .seq :: .tid :: .couch :: .link :: .lanes :: .csc :: .free :: reports) s (State.runTick s a1 a2) := by
  delta State.runTick
  extract_lets _ _ _ x6
  have h7 : Kept (.box :: .store :: .seq :: .tid :: .couch :: .link :: .lanes :: .csc :: .free :: reports) s x6 := (.ite (.of (State.startTicks_kept _ _) .refl) .refl)
  exact (.ite .refl (by
    split
    · extract_lets _ _ _
      exact (.ite (.of (State.predictionFault_kept _ _ _ _) h7) (.of (State.emitTick_kept _ _ _ _ _ _ _) (.of (State.tellTick_kept _ _ _ _ _) h7)))
    · exact (.of (State.predictionFault_kept _ _ _ _) h7)))

theorem State.emitTest_kept (s : State) (a1 : List FrameFault) :
    Kept (.tid :: .couch :: .link :: .lanes :: reports) s (State.emitTest s a1) := by
  delta State.emitTest
  extract_lets _ _ _ x5 x6 x7
  have h8 : Kept (.tid :: .couch :: .link :: .lanes :: reports) s x5 := (.upd [.tid] .refl)
  have h9 : Kept (.tid :: .couch :: .link :: .lanes :: reports) s x6 := (.of (State.count_kept _ _) (.of (State.put_kept _ _ _) h8))
  have h10 : Kept (.tid :: .couch :: .link :: .lanes :: reports) s x7 := (.of (State.trace_kept _ _ _) h9)
  exact (.ite .refl (.of (State.testLine_kept _ _ _ _ _) h10))

theorem execTickEmit_kept (a1 : List FrameFault) (s : State) :
    OutKept (.box :: .store :: .seq :: .tid :: .couch :: .link :: .lanes :: .csc :: .free :: reports) s (execTickEmit a1 s) := by
  delta execTickEmit
  split
  · exact (.next (.of (State.emitTest_kept _ _) .refl))
  · split
    · exact (.ite (.next .refl) (.next (.of (State.runTick_kept _ _ _) .refl)))
    · exact (.next .refl)
  · split
    · exact (.ite (.next .refl) (.next (.of (State.runTick_kept _ _ _) .refl)))
    · exact (.next .refl)
  · exact (.next .refl)

theorem State.showWait_kept (s : State) (a1 : ℕ) (a2 : ℕ) :
    Kept (.seq :: reports) s (State.showWait s a1 a2) := by
  delta State.showWait
  extract_lets x3 _
  have h5 : Kept (.seq :: reports) s x3 := (.of (State.put_kept _ _ _) .refl)
  exact (.ite h5 (.of (State.raise_kept _ _ _) (.upd [.seq] h5)))

theorem State.waitActs_kept (s : State) (a1 : Strip) (a2 : ℕ) (a3 : ℕ) :
    Kept (.link :: reports) s (State.waitActs s a1 a2 a3) := by
  delta State.waitActs
  extract_lets _ x5 _ x7 x8 x9 x10
  have h11 : Kept (.link :: reports) s x7 := (.ite (.of (State.configDrivers_kept _ _ _) .refl) .refl)
  have h12 : Kept (.link :: reports) s x8 := by
    unfold x8
    clear_value x5
    split
    · exact (.ite (.of (State.raise_kept _ _ _) h11) h11)
    · exact h11
  have h13 : Kept (.link :: reports) s x9 := (.ite (.of (State.raise_kept _ _ _) h12) h12)
  clear_value x10
  split
  · exact (.ite (.of (State.raise_kept _ _ _) h13) h13)
  · exact h13

theorem State.waits_kept (s : State) (a1 : Strip) (a2 : ℕ) :
    Kept (.seq :: .link :: reports) s (State.waits s a1 a2) := by
  delta State.waits
  exact (.of (State.showWait_kept _ _ _) (.of (State.waitActs_kept _ _ _ _) .refl))

theorem State.latchSetup_kept (s : State) (a1 : Strip) :
    Kept (.box :: .store :: .link :: reports) s (State.latchSetup s a1) := by
  delta State.latchSetup
  extract_lets _ _ _ x5 x6 _ x8
  have h9 : Kept (.box :: .store :: .link :: reports) s x5 := (.of (State.modStrip_kept _ _ _) .refl)
  have h10 : Kept (.box :: .store :: .link :: reports) s x6 := (.of (State.modLedger_kept _ _ _) (.of (State.put_kept _ _ _) h9))
  have h11 : Kept (.box :: .store :: .link :: reports) s x8 := (.upd [.link] h10)
  exact (.ite h11 (.of (State.raise_kept _ _ _) h11))

theorem State.demandAgain_kept (s : State) (a1 : ℕ) :
    Kept (.box :: .store :: .tid :: .csc :: reports) s (State.demandAgain s a1) := by
  delta State.demandAgain
  split
  · exact .refl
  · extract_lets x2
    have h3 : Kept (.box :: .store :: .tid :: .csc :: reports) s x2 := (.fold (fun _ _ h4 => (.of (State.setDemand_kept _ _ _ _) h4)) .refl)
    exact (.ite h3 (.of (State.replan_kept _) h3))

theorem State.enterFlood_kept (s : State) (a1 : ℕ) (a2 : ℤ) (a3 : ℤ) (a4 : Bool) :
    Kept (.box :: .store :: .seq :: .tid :: .link :: .csc :: reports) s (State.enterFlood s a1 a2 a3 a4) := by
  delta State.enterFlood
  split
  · exact .refl
  · extract_lets x5 _ _ _ _ x10 x11 x12 x13 x14 x15
    have h16 : Kept (.box :: .store :: .seq :: .tid :: .link :: .csc :: reports) s x5 := (.ite .refl (.of (State.latchSetup_kept _ _) .refl))
    have h17 : Kept (.box :: .store :: .seq :: .tid :: .link :: .csc :: reports) s x10 := (.upd [.store, .seq, .tid] h16)
    have h18 : Kept (.box :: .store :: .seq :: .tid :: .link :: .csc :: reports) s x11 := (.of (State.judgeSeams_kept _ _) (.of (State.linkLimit_kept _) (.of (State.demandAgain_kept _ _) h17)))
    have h19 : Kept (.box :: .store :: .seq :: .tid :: .link :: .csc :: reports) s x12 := (.of (State.puts_kept _ _) h18)
    have h20 : Kept (.box :: .store :: .seq :: .tid :: .link :: .csc :: reports) s x13 := by
      unfold x13
      split
      · exact (.ite h19 (.of (State.moveTo_kept _ _ _) h19))
      · exact h19
    have h21 : Kept (.box :: .store :: .seq :: .tid :: .link :: .csc :: reports) s x14 := (.ite h20 (.of (State.completeAll_kept _ _ _ _ _) (.of (State.modStrip_kept _ _ _) h20)))
    have h22 : Kept (.box :: .store :: .seq :: .tid :: .link :: .csc :: reports) s x15 := (.of (State.raise_kept _ _ _) (.of (State.enter_kept _ _) h21))
    exact (.of (State.tellSlaves_kept _ _) h22)

theorem State.refuseColumn_kept (s : State) (a1 : Strip) (a2 : ℕ) :
    Kept (.box :: reports) s (State.refuseColumn s a1 a2) := by
  delta State.refuseColumn
  exact (.ite .refl (.of (State.raise_kept _ _ _) (.of (State.modStrip_kept _ _ _) .refl)))

theorem State.floodEnter_kept (s : State) :
    Kept (.box :: .store :: .seq :: .tid :: .link :: .csc :: reports) s (State.floodEnter s) := by
  delta State.floodEnter
  extract_lets _ x2
  have h3 : Kept (.box :: .store :: .seq :: .tid :: .link :: .csc :: reports) s x2 := by
    unfold x2
    split
    · exact (.of (State.tellSlaves_kept _ _) .refl)
    · exact .refl
  split
  · exact .refl
  · extract_lets _ x5 _
    have h7 : Kept (.box :: .store :: .seq :: .tid :: .link :: .csc :: reports) s x5 := (.of (State.sendStatus_kept _ _ _) .refl)
    exact (.ite .refl (.ite (.of (State.showWait_kept _ _ _) .refl) (by
      split
      · exact (.of (State.dropPosted_kept _ _ _ _) (.of (State.raise_kept _ _ _) h3))
      · split
        · exact (.of (State.refuseColumn_kept _ _ _) .refl)
        · exact (.ite (.of (State.waits_kept _ _ _) h7) (.ite (.of (State.showWait_kept _ _ _) h7) (.of (State.enterFlood_kept _ _ _ _ _) h7))))))

theorem execFloodEnter_kept (s : State) :
    OutKept (.box :: .store :: .seq :: .tid :: .link :: .csc :: reports) s (execFloodEnter s) := by
  delta execFloodEnter
  exact (.next (.ite .refl (.of (State.floodEnter_kept _) .refl)))

theorem State.retryDomains_kept (s : State) :
    Kept [.pwr] s (State.retryDomains s) := by
  delta State.retryDomains
  extract_lets _
  exact (.of (State.requestDomains_kept _ _) .refl)

theorem State.slackEntry_kept (s : State) :
    Kept (.box :: .headTime0 :: .seq :: .tid :: .couch :: .link :: .hcr :: .pwr :: reports) s (State.slackEntry s) := by
  delta State.slackEntry
  extract_lets x1 _ x3 x4 x5 x6 x7
  have h8 : Kept (.box :: .headTime0 :: .seq :: .tid :: .couch :: .link :: .hcr :: .pwr :: reports) s x1 := (.ite (.of (State.put_kept _ _ _) .refl) .refl)
  have h9 : Kept (.box :: .headTime0 :: .seq :: .tid :: .couch :: .link :: .hcr :: .pwr :: reports) s x3 := (.upd [.seq] h8)
  have h10 : Kept (.box :: .headTime0 :: .seq :: .tid :: .couch :: .link :: .hcr :: .pwr :: reports) s x4 := (.of (State.enter_kept _ _) h9)
  have h11 : Kept (.box :: .headTime0 :: .seq :: .tid :: .couch :: .link :: .hcr :: .pwr :: reports) s x5 := (.of (State.applyCouchRoles_kept _) (.of (State.applyVatRoles_kept _) (.of (State.retryDomains_kept _) h10)))
  have h12 : Kept (.box :: .headTime0 :: .seq :: .tid :: .couch :: .link :: .hcr :: .pwr :: reports) s x6 := (.of (State.restartLost_kept _) (.of (State.scheduleSwap_kept _) h11))
  have h13 : Kept (.box :: .headTime0 :: .seq :: .tid :: .couch :: .link :: .hcr :: .pwr :: reports) s x7 := (.ite (.of (State.retrainAll_kept _) h12) h12)
  exact (.of (State.showLead_kept _) (.of (State.showStopLead_kept _) (.of (State.startHeld_kept _) (.of (State.liftTemp_kept _) h13))))

theorem State.afterAbandoned_kept (s : State) (a1 : Strip) (a2 : AfterFlood) :
    Kept (.box :: .store :: .seq :: .tid :: .csc :: reports) s (State.afterAbandoned s a1 a2) := by
  delta State.afterAbandoned
  extract_lets _ _ _ _ x7 x8 x9 x10 _
  have h12 : Kept (.box :: .store :: .seq :: .tid :: .csc :: reports) s x7 := (.upd [.seq] .refl)
  have h13 : Kept (.box :: .store :: .seq :: .tid :: .csc :: reports) s x8 := (.of (State.completeAll_kept _ _ _ _ _) h12)
  have h14 : Kept (.box :: .store :: .seq :: .tid :: .csc :: reports) s x9 := (.of (State.modLedger_kept _ _ _) (.of (State.modStrip_kept _ _ _) h13))
  have h15 : Kept (.box :: .store :: .seq :: .tid :: .csc :: reports) s x10 := (.ite (.of (State.noOpenStrip_kept _) h14) h13)
  split
  · exact (.of (State.completeAll_kept _ _ _ _ _) h15)
  · exact (.of (State.completeAll_kept _ _ _ _ _) (.of (State.holdForHost_kept _ _) h15))
  · exact (.ite (.of (State.showStore_kept _) (.of (State.modLedger_kept _ _ _) (.mapGetD (fun _ => (.of (State.dropPosted_kept _ _ _ _) h15)) h15))) h15)
  · exact (.ite (.mapGetD (fun _ => (.of (State.dropPosted_kept _ _ _ _) h15)) h15) (.of (State.holdForHost_kept _ _) h15))
  · exact (.ite (.of (State.completeAll_kept _ _ _ _ _) (.mapGetD (fun _ => (.of (State.dropPosted_kept _ _ _ _) h15)) h15)) (.of (State.endInterrupted_kept _ _) (.upd [.seq] h15)))

theorem State.passEnds_kept (s : State) (a1 : Strip) :
    Kept (.box :: .store :: .seq :: .tid :: .csc :: reports) s (State.passEnds s a1) := by
  delta State.passEnds
  extract_lets _ _ x4 _ x6 _ x8 x9 x10 x11
  have h12 : Kept (.box :: .store :: .seq :: .tid :: .csc :: reports) s x4 := (.of (State.raise_kept _ _ _) (.of (State.count_kept _ _) .refl))
  have h13 : Kept (.box :: .store :: .seq :: .tid :: .csc :: reports) s x6 := (.of (State.modStrip_kept _ _ _) .refl)
  have h14 : Kept (.box :: .store :: .seq :: .tid :: .csc :: reports) s x8 := (.upd [.seq] h13)
  have h15 : Kept (.box :: .store :: .seq :: .tid :: .csc :: reports) s x9 := (.of (State.completeAll_kept _ _ _ _ _) h14)
  have h16 : Kept (.box :: .store :: .seq :: .tid :: .csc :: reports) s x10 := (.of (State.raise_kept _ _ _) h15)
  have h17 : Kept (.box :: .store :: .seq :: .tid :: .csc :: reports) s x11 := (.ite (.of (State.modStrip_kept _ _ _) (.of (State.holdForHost_kept _ _) h16)) h15)
  exact (.ite (.of (State.completeAll_kept _ _ _ _ _) (.of (State.endOpenStrip_kept _ _ _) h12)) (.ite h17 (.of (State.endInterrupted_kept _ _) h17)))

theorem execEbbToSlack_kept (s : State) :
    OutKept (.box :: .store :: .headTime0 :: .seq :: .tid :: .couch :: .link :: .hcr :: .csc :: .pwr :: reports) s (execEbbToSlack s) := by
  delta execEbbToSlack
  extract_lets x1
  have h2 : Kept (.box :: .store :: .headTime0 :: .seq :: .tid :: .couch :: .link :: .hcr :: .csc :: .pwr :: reports) s x1 := (.of (State.slackEntry_kept _) .refl)
  exact (.ite (.next .refl) (by
    split
    · exact (.next h2)
    · split
      · exact (.next (.of (State.afterAbandoned_kept _ _ _) h2))
      · exact (.next (.of (State.passEnds_kept _ _) h2))))

theorem execPromptBreakEnter_kept (s : State) :
    OutKept (.box :: .store :: .seq :: .tid :: reports) s (execPromptBreakEnter s) := by
  delta execPromptBreakEnter
  extract_lets _
  exact (.ite (.next .refl) (.ite (by
    split
    · extract_lets _
      exact (.next (.of (State.enterBreak_kept _ _ _ _ _ _) .refl))
    · exact (.next .refl)) (.ite (.next (.of (State.reblank_kept _) (.upd [.seq] .refl))) (.next .refl))))

theorem execBreakToSlack_kept (s : State) :
    OutKept (.box :: .store :: .headTime0 :: .seq :: .tid :: .couch :: .link :: .hcr :: .csc :: .pwr :: reports) s (execBreakToSlack s) := by
  delta execBreakToSlack
  extract_lets x1 _
  have h3 : Kept (.box :: .store :: .headTime0 :: .seq :: .tid :: .couch :: .link :: .hcr :: .csc :: .pwr :: reports) s x1 := (.of (State.slackEntry_kept _) .refl)
  exact (.ite (.next .refl) (by
    split
    · exact (.next h3)
    · extract_lets x4 _ x6
      have h7 : Kept (.box :: .store :: .headTime0 :: .seq :: .tid :: .couch :: .link :: .hcr :: .csc :: .pwr :: reports) s x4 := (.of (State.completeAll_kept _ _ _ _ _) (.of (State.modStrip_kept _ _ _) h3))
      have h8 : Kept (.box :: .store :: .headTime0 :: .seq :: .tid :: .couch :: .link :: .hcr :: .csc :: .pwr :: reports) s x6 := (.upd [.seq] h7)
      exact (.next (.ite h8 (.of (State.endInterrupted_kept _ _) h8)))))

theorem State.refuseResume_kept (s : State) (a1 : Strip) (a2 : ℕ) (a3 : ℕ) :
    Kept (.box :: reports) s (State.refuseResume s a1 a2 a3) := by
  delta State.refuseResume
  extract_lets x4 x5 x6
  have h7 : Kept (.box :: reports) s x4 := (.ite (.of (State.raise_kept _ _ _) .refl) .refl)
  have h8 : Kept (.box :: reports) s x5 := (.of (State.raise_kept _ _ _) h7)
  have h9 : Kept (.box :: reports) s x6 := (.of (State.modStrip_kept _ _ _) h8)
  exact (.ite .refl (.of (State.completeAll_kept _ _ _ _ _) h9))

theorem State.beginResume_kept (s : State) (a1 : Strip) (a2 : ℤ) (a3 : ℤ) :
    Kept (.box :: .store :: .seq :: .tid :: .link :: .csc :: reports) s (State.beginResume s a1 a2 a3) := by
  delta State.beginResume
  extract_lets _ _ x6 _ x8
  have h9 : Kept (.box :: .store :: .seq :: .tid :: .link :: .csc :: reports) s x6 := (.of (State.modStrip_kept _ _ _) .refl)
  have h10 : Kept (.box :: .store :: .seq :: .tid :: .link :: .csc :: reports) s x8 := (.upd [.seq] h9)
  exact (.of (State.enterFlood_kept _ _ _ _ _) h10)

theorem State.resumeStart_kept (s : State) (a1 : Strip) :
    Kept (.box :: .store :: .seq :: .tid :: .link :: .csc :: reports) s (State.resumeStart s a1) := by
  delta State.resumeStart
  extract_lets _ _ _ _ _ x7 _ x9
  have h10 : Kept (.box :: .store :: .seq :: .tid :: .link :: .csc :: reports) s x7 := (.of (State.sendStatus_kept _ _ _) .refl)
  have h11 : Kept (.box :: .store :: .seq :: .tid :: .link :: .csc :: reports) s x9 := (.ite (.of (State.raiseSev_kept _ _ _ _) h10) h10)
  split
  · exact (.of (State.refuseResume_kept _ _ _ _) (.of (State.sendStatus_kept _ _ _) .refl))
  · split
    · exact (.of (State.refuseResume_kept _ _ _ _) (.of (State.sendStatus_kept _ _ _) .refl))
    · exact (.ite (.of (State.waits_kept _ _ _) h11) (.ite (.of (State.showWait_kept _ _ _) h11) (.of (State.beginResume_kept _ _ _ _) h11)))

theorem execResumeStart_kept (s : State) :
    OutKept (.box :: .store :: .seq :: .tid :: .link :: .csc :: reports) s (execResumeStart s) := by
  delta execResumeStart
  split
  · exact (.next .refl)
  · exact (.ite (.next (.of (State.resumeStart_kept _ _) .refl)) (.next .refl))

theorem State.keepRoles_kept (s : State) (a1 : List ℕ) :
    Kept [.seq, .couch] s (State.keepRoles s a1) := by
  delta State.keepRoles
  extract_lets _ _
  exact (.upd [.seq, .couch] .refl)

theorem State.enterNeap_kept (s : State) :
    Kept (.seq :: .couch :: .link :: .hcr :: reports) s (State.enterNeap s) := by
  delta State.enterNeap
  extract_lets _ x2 x3 x4 x5
  have h6 : Kept (.seq :: .couch :: .link :: .hcr :: reports) s x2 := (.fold (fun _ _ h7 => (.of (State.chainTo_kept _ _ _) h7)) .refl)
  have h8 : Kept (.seq :: .couch :: .link :: .hcr :: reports) s x3 := (.of (State.keepRoles_kept _ _) (.of (State.enter_kept _ _) h6))
  have h9 : Kept (.seq :: .couch :: .link :: .hcr :: reports) s x4 := (.fold (fun _ _ h10 => (.of (State.setCouch_kept _ _ _) h10)) h8)
  have h11 : Kept (.seq :: .couch :: .link :: .hcr :: reports) s x5 := (.fold (fun _ _ h12 => (.of (State.powerDown_kept _ _) h12)) h9)
  exact (.of (State.raise_kept _ _ _) (.of (State.count_kept _ _) h11))

theorem execNeapEnter_kept (s : State) :
    OutKept (.seq :: .couch :: .link :: .hcr :: reports) s (execNeapEnter s) := by
  delta execNeapEnter
  split
  · exact (.ite (.next (.of (State.enterNeap_kept _) .refl)) (.next .refl))
  · exact (.next .refl)

theorem execNeapWake_kept (s : State) :
    OutKept [.seq, .pwr] s (execNeapWake s) := by
  delta execNeapWake
  extract_lets _ x2 _
  have h4 : Kept [.seq, .pwr] s x2 := (.of (State.requestDomains_kept _ _) .refl)
  exact (.ite (.next (.upd [.seq] h4)) (.next .refl))

theorem execNeapWakeDone_kept (s : State) :
    OutKept (.box :: .headTime0 :: .seq :: .tid :: .couch :: .link :: .hcr :: .pwr :: reports) s (execNeapWakeDone s) := by
  delta execNeapWakeDone
  extract_lets _ _ x3 _ x5
  have h6 : Kept (.box :: .headTime0 :: .seq :: .tid :: .couch :: .link :: .hcr :: .pwr :: reports) s x3 := (.fold (fun _ _ h7 => (.ite (.of (State.backFromOff_kept _ _) h7) (.of (State.setCouch_kept _ _ _) h7))) .refl)
  have h8 : Kept (.box :: .headTime0 :: .seq :: .tid :: .couch :: .link :: .hcr :: .pwr :: reports) s x5 := (.of (State.slackEntry_kept _) (.of (State.noCouch_kept _) (.upd [.couch] h6)))
  exact (.ite (.next (.of (State.raise_kept _ _ _) h8)) (.next .refl))

end Sys2Proof.Machine
end

