-- ==== Sys2Proof/Laws/KeptUnits.lean ====
section
/-! SUPPORT. What each operation and each command may change, part by part: one lemma per definition. -/
namespace Sys2Proof.Machine

set_option Elab.async false

theorem State.followError_kept {s t : State} {x : Int} (h : s.followError = some (x, t)) : Kept [.free] s t := by
  unfold State.followError at h
  split at h
  · simp only [Option.map_eq_some_iff, Prod.mk.injEq] at h
    obtain ⟨_, _, _, h⟩ := h
    exact h ▸ .refl
  · split at h
    · cases h
    · split at h
      · cases h
      · simp only [Option.some.injEq, Prod.mk.injEq] at h
        rw [← h.2]
        exact .of (State.draw_kept _) .refl

/-! ### Cascade -/

theorem State.showPorts_kept (s : State) :
    Kept [.regs] s (State.showPorts s) := by
  delta State.showPorts
  extract_lets _ x2 x3
  have h4 : Kept [.regs] s x2 := (.of (State.put_kept _ _ _) .refl)
  have h5 : Kept [.regs] s x3 := (.ite (.of (State.put_kept _ _ _) h4) h4)
  exact (.of (State.put_kept _ _ _) h5)

theorem State.newLatency_kept (s : State) :
    Kept [.regs, .csc] s (State.newLatency s) := by
  delta State.newLatency
  extract_lets _ x2
  have h3 : Kept [.regs, .csc] s x2 := (.of (State.put_kept _ _ _) .refl)
  exact (.ite .refl (.of (State.tellSlaves_kept _ _) h3))

theorem State.portTo_kept (s : State) (a1 : ℕ) (a2 : ℕ) :
    Kept (.csc :: reports) s (State.portTo s a1 a2) := by
  delta State.portTo
  extract_lets _ x4
  have h5 : Kept (.csc :: reports) s x4 := (.ite (.of (State.timeLinkLost_kept _) .refl) .refl)
  exact (.of (State.showPorts_kept _) (.of (State.modPort_kept _ _ _) (.of (State.put_kept _ _ _) h5)))

theorem State.portLanes_kept (s : State) (a1 : ℕ) (a2 : ℕ) :
    Kept [.regs] s (State.portLanes s a1 a2) := by
  delta State.portLanes
  extract_lets _ _
  exact (.of (State.puts_kept _ _) .refl)

theorem State.portFails_kept (s : State) (a1 : ℕ) (a2 : ℕ) :
    Kept (.csc :: reports) s (State.portFails s a1 a2) := by
  delta State.portFails
  extract_lets _ x4
  have h5 : Kept (.csc :: reports) s x4 := (.of (State.portTo_kept _ _ _) (.of (State.put_kept _ _ _) .refl))
  exact (.of (State.raise_kept _ _ _) (.of (State.portLanes_kept _ _ _) h5))

theorem execCscPortTrainStart_kept (a1 : Fin 3) (s : State) :
    OutKept (.lanes :: .csc :: reports) s (execCscPortTrainStart a1 s) := by
  delta execCscPortTrainStart
  extract_lets _ _ _ x5 x6 x7
  have h8 : Kept (.lanes :: .csc :: reports) s x5 := (.of (State.count_kept _ _) (.of (State.count_kept _ _) (.of (State.put_kept _ _ _) .refl)))
  have h9 : Kept (.lanes :: .csc :: reports) s x6 := (.of (State.qualSent_kept _ _) (.of (State.qualSent_kept _ _) h8))
  have h10 : Kept (.lanes :: .csc :: reports) s x7 := (.of (State.modPort_kept _ _ _) h9)
  exact (.ite (.next (.of (State.portTo_kept _ _ _) h10)) (.next .refl))

theorem State.endLatency_kept (s : State) (a1 : ℕ) :
    Kept (.csc :: reports) s (State.endLatency s a1) := by
  delta State.endLatency
  extract_lets _ _ x4
  have h5 : Kept (.csc :: reports) s x4 := (.of (State.portTo_kept _ _ _) (.of (State.put_kept _ _ _) .refl))
  exact (.ite .refl (.ite (.of (State.portFails_kept _ _ _) .refl) (.of (State.send_kept _ _ _ _) h5)))

theorem State.sendWaiting_kept (s : State) (a1 : ℕ) :
    Kept (.csc :: reports) s (State.sendWaiting s a1) := by
  delta State.sendWaiting
  extract_lets _ _ _ x5
  have h6 : Kept (.csc :: reports) s x5 := (.upd [.csc] .refl)
  exact (.fold (fun _ _ h7 => (.of (State.count_kept _ _) (.of (State.send_kept _ _ _ _) h7))) h6)

theorem State.endTime_kept (s : State) (a1 : ℕ) (a2 : ℕ) (a3 : ℕ) (a4 : Bool) :
    Kept (.box :: .tid :: .csc :: reports) s (State.endTime s a1 a2 a3 a4) := by
  delta State.endTime
  extract_lets _ _ x7 x8
  have h9 : Kept (.box :: .tid :: .csc :: reports) s x7 := (.of (State.newLatency_kept _) (.of (State.portTo_kept _ _ _) (.of (State.modPort_kept _ _ _) .refl)))
  have h10 : Kept (.box :: .tid :: .csc :: reports) s x8 := (.of (State.raise_kept _ _ _) h9)
  exact (.ite .refl (.ite (.of (State.portFails_kept _ _ _) .refl) (.of (State.linkLimit_kept _) (.of (State.sendWaiting_kept _ _) (.of (State.sendHalos_kept _) h10)))))

theorem State.tideAligned_kept (s : State) (a1 : ℕ) (a2 : LaneTrain) :
    Kept reports s (State.tideAligned s a1 a2) := by
  delta State.tideAligned
  extract_lets _
  exact (.of (State.put_kept _ _ _) (.of (State.sees_kept _ _ _) .refl))

theorem State.tideEqualised_kept (s : State) (a1 : ℕ) (a2 : ℕ) (a3 : LaneTrain) :
    Kept reports s (State.tideEqualised s a1 a2 a3) := by
  delta State.tideEqualised
  extract_lets x4
  have h5 : Kept reports s x4 := (.of (State.puts_kept _ _) (.of (State.sees_kept _ _ _) .refl))
  exact (.of (State.usePreset_kept _ _ _) h5)

theorem execCscTrainStepDone_kept (a1 : Fin 3) (a2 : PortTrain) (a3 : BitVec 2) (a4 : BitVec 3) (a5 : Bool) (s : State) :
    OutKept (.box :: .tid :: .csc :: reports) s (execCscTrainStepDone a1 a2 a3 a4 a5 s) := by
  delta execCscTrainStepDone
  extract_lets _ _
  split
  · exact (.next (.ite (.of (State.portTo_kept _ _ _) (.of (State.usePreset_kept _ _ _) (.of (State.usePreset_kept _ _ _) (.of (State.portLanes_kept _ _ _) (.of (State.tideAligned_kept _ _ _) (.of (State.tideAligned_kept _ _ _) .refl)))))) .refl))
  · exact (.next (.ite (.of (State.portTo_kept _ _ _) (.of (State.tideEqualised_kept _ _ _ _) (.of (State.tideEqualised_kept _ _ _ _) .refl))) .refl))
  · exact (.next (.ite (.of (State.portFails_kept _ _ _) .refl) (.of (State.portTo_kept _ _ _) .refl)))
  · exact (.next (.ite .refl (.of (State.endLatency_kept _ _) .refl)))
  · exact (.next (.of (State.endTime_kept _ _ _ _ _) .refl))
  · exact (.next .refl)

theorem execCscTrainTimeout_kept (a1 : Fin 3) (s : State) :
    OutKept (.csc :: reports) s (execCscTrainTimeout a1 s) := by
  delta execCscTrainTimeout
  extract_lets _
  exact (.ite (.next (.of (State.portFails_kept _ _ _) .refl)) (.ite (.next (.of (State.portFails_kept _ _ _) .refl)) (.next .refl)))

theorem execLatencyMarker_kept (a1 : Fin 3) (a2 : BitVec 64) (a3 : BitVec 64) (a4 : BitVec 64) (a5 : BitVec 64) (s : State) :
    OutKept [.csc] s (execLatencyMarker a1 a2 a3 a4 a5 s) := by
  delta execLatencyMarker
  extract_lets _ _ _
  exact (.ite (.next .refl) (.ite (.next (.of (State.modPort_kept _ _ _) .refl)) (.ite (.next (.of (State.modPort_kept _ _ _) .refl)) (.next .refl))))

theorem execTimeSetMessage_kept (a1 : BitVec 64) (a2 : BitVec 16) (s : State) :
    OutKept (.headTime0 :: .csc :: reports) s (execTimeSetMessage a1 a2 s) := by
  delta execTimeSetMessage
  extract_lets x3
  have h4 : Kept (.headTime0 :: .csc :: reports) s x3 := (.upd [.headTime0] .refl)
  exact (.ite (.next (.of (State.portTo_kept _ _ _) h4)) (.next .refl))

theorem State.portLost_kept (s : State) (a1 : ℕ) (a2 : ℕ) :
    Kept (.box :: .store :: .seq :: .tid :: .csc :: reports) s (State.portLost s a1 a2) := by
  delta State.portLost
  extract_lets _ _ x5 _ _ x8 x9 x10
  have h11 : Kept (.box :: .store :: .seq :: .tid :: .csc :: reports) s x5 := (.of (State.portTo_kept _ _ _) (.of (State.put_kept _ _ _) .refl))
  have h12 : Kept (.box :: .store :: .seq :: .tid :: .csc :: reports) s x8 := (.upd [.csc] h11)
  have h13 : Kept (.box :: .store :: .seq :: .tid :: .csc :: reports) s x9 := (.of (State.count_kept _ _) (.of (State.modPort_kept _ _ _) (.of (State.portLanes_kept _ _ _) h12)))
  have h14 : Kept (.box :: .store :: .seq :: .tid :: .csc :: reports) s x10 := (.of (State.raiseSev_kept _ _ _ _) h13)
  exact (.ite (.of (State.hardwareStop_kept _ _ _) h14) (.ite (.of (State.abandonFlood_kept _ _ _) h14) h14))

theorem State.tideLaneLost_kept (s : State) (a1 : ℕ) (a2 : ℕ) :
    Kept (.box :: .store :: .seq :: .tid :: .csc :: reports) s (State.tideLaneLost s a1 a2) := by
  delta State.tideLaneLost
  extract_lets _ x4
  have h5 : Kept (.box :: .store :: .seq :: .tid :: .csc :: reports) s x4 := (.of (State.portLanes_kept _ _ _) .refl)
  exact (.ite .refl (.ite h5 (.ite (.of (State.portLost_kept _ _ _) h5) (.of (State.raise_kept _ _ _) h5))))

theorem State.loseLane_kept (s : State) (a1 : ℕ) (a2 : Option ℕ) :
    Kept (.box :: .store :: .seq :: .tid :: .link :: .hcr :: .csc :: reports) s (State.loseLane s a1 a2) := by
  delta State.loseLane
  extract_lets x3 x4
  have h5 : Kept (.box :: .store :: .seq :: .tid :: .link :: .hcr :: .csc :: reports) s x3 := by
    unfold x3
    split
    · exact (.of (State.raise_kept _ _ _) .refl)
    · exact (.of (State.put_kept _ _ _) .refl)
  have h6 : Kept (.box :: .store :: .seq :: .tid :: .link :: .hcr :: .csc :: reports) s x4 := (.of (State.put_kept _ _ _) (.of (State.count_kept _ _) h5))
  exact (.ite (.of (State.chainLost_kept _ _) h6) (.of (State.tideLaneLost_kept _ _ _) h6))

theorem State.alignLost_kept (s : State) (a1 : ℕ) (a2 : Bool) (a3 : RxSeen) :
    Kept (.box :: .store :: .seq :: .tid :: .link :: .hcr :: .csc :: reports) s (State.alignLost s a1 a2 a3) := by
  delta State.alignLost
  exact (.ite (.of (State.loseLane_kept _ _ _) (.of (State.sees_kept _ _ _) .refl)) .refl)

theorem execTlLaneLost_kept (a1 : Fin 3) (a2 : TideLaneLoss) (s : State) :
    OutKept (.box :: .store :: .seq :: .tid :: .link :: .hcr :: .csc :: reports) s (execTlLaneLost a1 a2 s) := by
  delta execTlLaneLost
  exact (.next (.of (State.alignLost_kept _ _ _ _) .refl))

theorem execMessageResend_kept (a1 : Fin 3) (s : State) :
    OutKept (.box :: .store :: .seq :: .tid :: .csc :: reports) s (execMessageResend a1 s) := by
  delta execMessageResend
  split
  · exact (.next .refl)
  · exact (.ite (.next .refl) (.ite (.next (.of (State.portLost_kept _ _ _) .refl)) (.next (.of (State.count_kept _ _) (.of (State.modPort_kept _ _ _) .refl)))))

theorem State.receive_kept (s : State) (a1 : LinkMsg) (a2 : ℕ) :
    Kept (.csc :: reports) s (State.receive s a1 a2).1 := by
  delta State.receive
  extract_lets _ x4 x5
  have h6 : Kept (.csc :: reports) s x4 := (.ite (.of (State.count_kept _ _) .refl) .refl)
  have h7 : Kept (.csc :: reports) s x5 := (.of (State.send_kept _ _ _ _) h6)
  exact (by split; exacts [.refl, (by split; exacts [h6, (by split; exacts [h7, (.of (State.modPort_kept _ _ _) h7)])])])

theorem State.onMessage_kept {P : List Part} {s : State} (b : State) (m : LinkMsg) (typ : Nat) {act : State → State}
    (hk : ∀ x, Kept P s x → Kept P s (act x)) (h : Kept P s b) (hq : Part.allIn (.csc :: reports) P = true := by rfl) :
    Kept P s (b.onMessage m typ act) :=
  .ite (hk _ (.of (State.receive_kept _ _ _) h hq)) (.of (State.receive_kept _ _ _) h hq)

theorem execAckMessage_kept (a1 : LinkMsg) (a2 : Byte) (a3 : Byte) (s : State) :
    OutKept (.csc :: reports) s (execAckMessage a1 a2 a3 s) := by
  delta execAckMessage
  exact (.next (State.onMessage_kept _ _ _ (fun _ h4 => (.of (State.modPort_kept _ _ _) h4)) .refl))

theorem State.tickGap_kept (s : State) (a1 : ℕ) (a2 : ℕ) :
    Kept (.box :: .store :: .seq :: .tid :: .csc :: reports) s (State.tickGap s a1 a2) := by
  delta State.tickGap
  exact (.of (State.hardwareStop_kept _ _ _) (.of (State.raise_kept _ _ _) .refl))

theorem State.slaveTick_kept (s : State) (a1 : ℕ) (a2 : ℤ) (a3 : ℤ) (a4 : ℕ) (a5 : ℕ) (a6 : List FrameFault) :
    Kept (.box :: .store :: .seq :: .tid :: .couch :: .link :: .lanes :: .csc :: .free :: reports) s (State.slaveTick s a1 a2 a3 a4 a5 a6) := by
  delta State.slaveTick
  extract_lets _ _ _ _ _ x12 x13
  have h14 : Kept (.box :: .store :: .seq :: .tid :: .couch :: .link :: .lanes :: .csc :: .free :: reports) s x12 := (.upd [.csc] .refl)
  have h15 : Kept (.box :: .store :: .seq :: .tid :: .couch :: .link :: .lanes :: .csc :: .free :: reports) s x13 := (.of (State.put_kept _ _ _) h14)
  split
  · exact h14
  · extract_lets x16
    have h17 : Kept (.box :: .store :: .seq :: .tid :: .couch :: .link :: .lanes :: .csc :: .free :: reports) s x16 := (.of (State.emitTick_kept _ _ _ _ _ _ _) h15)
    exact (.ite h14 (.ite (.of (State.tickGap_kept _ _ _) h14) (.of (State.sendStatus_kept _ _ _) h17)))

theorem execTickMessage_kept (a1 : LinkMsg) (a2 : BitVec 48) (a3 : BitVec 64) (a4 : BitVec 64) (a5 : Word) (a6 : Fin 8) (a7 : List FrameFault) (s : State) :
    OutKept (.box :: .store :: .seq :: .tid :: .couch :: .link :: .lanes :: .csc :: .free :: reports) s (execTickMessage a1 a2 a3 a4 a5 a6 a7 s) := by
  delta execTickMessage
  exact (.next (State.onMessage_kept _ _ _ (fun _ h8 => (.ite (.of (State.slaveTick_kept _ _ _ _ _ _ _) h8) h8)) .refl))

theorem execTickGapTimeout_kept (s : State) :
    OutKept (.box :: .store :: .seq :: .tid :: .csc :: reports) s (execTickGapTimeout s) := by
  delta execTickGapTimeout
  split
  · exact (.next .refl)
  · exact (.ite (.next (.of (State.tickGap_kept _ _ _) .refl)) (.next .refl))

theorem execSampleMessage_kept (a1 : LinkMsg) (a2 : BitVec 64) (a3 : BitVec 40) (a4 : BitVec 64) (s : State) :
    OutKept (.csc :: reports) s (execSampleMessage a1 a2 a3 a4 s) := by
  delta execSampleMessage
  exact (.next (State.onMessage_kept _ _ _ (fun _ h5 => (.ite (.upd [.csc] h5) h5)) .refl))

theorem execPlanMessage_kept (a1 : LinkMsg) (a2 : Word) (a3 : BitVec 24) (a4 : Byte) (s : State) :
    OutKept (.csc :: reports) s (execPlanMessage a1 a2 a3 a4 s) := by
  delta execPlanMessage
  exact (.next (State.onMessage_kept _ _ _ (fun _ h5 => (.ite (by
      extract_lets _ _
      exact (.upd [.csc] h5)) h5)) .refl))

theorem execRateMessage_kept (a1 : LinkMsg) (a2 : Word) (a3 : BitVec 24) (a4 : Byte) (s : State) :
    OutKept (.box :: .tid :: .csc :: reports) s (execRateMessage a1 a2 a3 a4 s) := by
  delta execRateMessage
  extract_lets _
  exact (.next (State.onMessage_kept _ _ _ (fun _ h6 => (by
      extract_lets _ x8 x9
      have h10 : Kept (.box :: .tid :: .csc :: reports) s x8 := (.of (State.modPort_kept _ _ _) h6)
      have h11 : Kept (.box :: .tid :: .csc :: reports) s x9 := (.ite (.of (State.raise_kept _ _ _) h10) h10)
      exact (.of (State.replan_kept _) h11))) .refl))

theorem State.lowerBreak_kept (s : State) (a1 : Strip) (a2 : ℕ) (a3 : ℤ) :
    Kept [.regs, .box, .store] s (State.lowerBreak s a1 a2 a3) := by
  delta State.lowerBreak
  extract_lets _ _
  split
  · extract_lets _ x7 x8
    have h9 : Kept [.regs, .box, .store] s x7 := (.of (State.modStrip_kept _ _ _) .refl)
    have h10 : Kept [.regs, .box, .store] s x8 := (.of (State.modLedger_kept _ _ _) h9)
    exact (.ite (.of (State.put_kept _ _ _) h10) .refl)
  · exact .refl

theorem State.takeStop_kept (s : State) (a1 : Strip) (a2 : ℕ) (a3 : ℕ) (a4 : ℤ) (a5 : ℕ) :
    Kept (.box :: .store :: .seq :: .tid :: .csc :: reports) s (State.takeStop s a1 a2 a3 a4 a5) := by
  delta State.takeStop
  extract_lets _ _ _ x9
  have h10 : Kept (.box :: .store :: .seq :: .tid :: .csc :: reports) s x9 := (.ite (.of (State.lowerBreak_kept _ _ _ _) .refl) (.ite (.of (State.abandonFlood_kept _ _ _) .refl) (.ite .refl (.ite (by
      split
      · exact (.ite (.of (State.enterBreak_kept _ _ _ _ _ _) .refl) (.of (State.enterBreak_kept _ _ _ _ _ _) .refl))
      · exact (.of (State.enterBreak_kept _ _ _ _ _ _) .refl)) (.ite (.ite .refl (.upd [.seq] .refl)) (.of (State.planStop_kept _ _ _) (.upd [.seq] .refl)))))))
  exact (.ite (.of (State.holdForHost_kept _ _) h10) h10)

theorem execStopMessage_kept (a1 : LinkMsg) (a2 : Byte) (a3 : Fin 4) (a4 : BitVec 64) (a5 : BitVec 2) (s : State) :
    OutKept (.box :: .store :: .seq :: .tid :: .csc :: reports) s (execStopMessage a1 a2 a3 a4 a5 s) := by
  delta execStopMessage
  exact (.next (State.onMessage_kept _ _ _ (fun _ h6 => (by
      extract_lets _ x8 x9
      have h10 : Kept (.box :: .store :: .seq :: .tid :: .csc :: reports) s x8 := (.ite h6 (.of (State.raise_kept _ _ _) h6))
      have h11 : Kept (.box :: .store :: .seq :: .tid :: .csc :: reports) s x9 := (.ite h10 (.of (State.sendAll_kept _ _ _) (.of (State.count_kept _ _) h10)))
      split
      · exact (.ite (.of (State.lowerBreak_kept _ _ _ _) h11) (.of (State.takeStop_kept _ _ _ _ _ _) h11))
      · exact h11)) .refl))

theorem execCtrlMessage_kept (a1 : LinkMsg) (a2 : CascadeCtrl) (s : State) :
    OutKept (.box :: .store :: .seq :: .tid :: .link :: .csc :: reports) s (execCtrlMessage a1 a2 s) := by
  delta execCtrlMessage
  exact (.next (State.onMessage_kept _ _ _ (fun _ h3 => (.ite h3 (by
      extract_lets _
      split
      · split
        · exact (.of (State.dropPosted_kept _ _ _ _) (.of (State.raise_kept _ _ _) h3))
        · exact h3
      · split
        · exact (.of (State.beginResume_kept _ _ _ _) h3)
        · split
          · exact (.of (State.enterFlood_kept _ _ _ _ _) h3)
          · exact h3
        · exact h3
      · split
        · extract_lets x5 _ _ x8
          have h9 : Kept (.box :: .store :: .seq :: .tid :: .link :: .csc :: reports) s x5 := (.of (State.modLedger_kept _ _ _) h3)
          have h10 : Kept (.box :: .store :: .seq :: .tid :: .link :: .csc :: reports) s x8 := (.upd [.tid, .csc] h9)
          exact (.of (State.put_kept _ _ _) h10)
        · exact h3
      · exact (.ite (.of (State.abandonFlood_kept _ _ _) h3) h3)
      · split
        · exact (.ite (.of (State.endInterrupted_kept _ _) h3) (.upd [.seq] h3))
        · exact h3
      · exact (.of (State.linkLimit_kept _) (.of (State.put_kept _ _ _) h3))))) .refl))

theorem execStatusMessage_kept (a1 : LinkMsg) (a2 : Word) (a3 : BitVec 15) (a4 : BitVec 16) (a5 : List (BitVec 64)) (a6 : List Word) (s : State) :
    OutKept (.seq :: .tid :: .csc :: reports) s (execStatusMessage a1 a2 a3 a4 a5 a6 s) := by
  delta execStatusMessage
  exact (.next (State.onMessage_kept _ _ _ (fun _ h7 => (.ite h7 (by
      extract_lets x8
      have h9 : Kept (.seq :: .tid :: .csc :: reports) s x8 := (.of (State.modPort_kept _ _ _) h7)
      exact (.of (State.watchFlood_kept _) h9)))) .refl))

theorem State.storeHalo_kept (s : State) (a1 : ℕ) (a2 : ℕ) (a3 : ℕ) (a4 : List ℕ) :
    Kept (.box :: reports) s (State.storeHalo s a1 a2 a3 a4) := by
  delta State.storeHalo
  split
  · exact .refl
  · exact (.ite .refl (.of (State.countBy_kept _ _ _) (.of (State.modStrip_kept _ _ _) .refl)))

theorem execHaloMessage_kept (a1 : LinkMsg) (a2 : BitVec 2) (a3 : Word) (a4 : Word) (a5 : Fin 2) (a6 : List Byte) (s : State) :
    OutKept (.box :: .csc :: reports) s (execHaloMessage a1 a2 a3 a4 a5 a6 s) := by
  delta execHaloMessage
  extract_lets _ _ _
  exact (.next (State.onMessage_kept _ _ _ (fun _ h10 => (by
      extract_lets x11 _ _
      have h14 : Kept (.box :: .csc :: reports) s x11 := (.of (State.count_kept _ _) h10)
      exact (.ite (.of (State.storeHalo_kept _ _ _ _ _) h14) (by
        split
        · exact (.of (State.count_kept _ _) (.of (State.send_kept _ _ _ _) h14))
        · exact (.ite h14 (.upd [.csc] h14)))))) .refl))

theorem execCscConfigWrite_kept (a1 : BitVec 25) (a2 : Word) (s : State) :
    OutKept reports s (execCscConfigWrite a1 a2 s) := by
  delta execCscConfigWrite
  extract_lets _
  exact (.ite (.next .refl) (.ite (.next (.of (State.domainOffAccess_kept _ _) .refl)) (.ite (.next (.of (State.showPorts_kept _) (.of (State.writeWord_kept _ _ _) .refl))) (.next (.of (State.raise_kept _ _ _) .refl)))))

/-! ### Lanes -/

theorem execLaneAlignLost_kept (a1 : Fin 268) (a2 : LaneLoss) (s : State) :
    OutKept (.box :: .store :: .seq :: .tid :: .link :: .hcr :: .csc :: reports) s (execLaneAlignLost a1 a2 s) := by
  delta execLaneAlignLost
  extract_lets x3
  have h4 : Kept (.box :: .store :: .seq :: .tid :: .link :: .hcr :: .csc :: reports) s x3 := (.ite (.of (State.restartDrivers_kept _ _ _) .refl) .refl)
  exact (.ite (.next (.of (State.alignLost_kept _ _ _ _) h4)) (.next .refl))

theorem execLanePhaseSlip_kept (a1 : Fin 268) (a2 : Bool) (s : State) :
    OutKept (.box :: .store :: .seq :: .tid :: .link :: .hcr :: .csc :: reports) s (execLanePhaseSlip a1 a2 s) := by
  delta execLanePhaseSlip
  exact (.ite (.next (.of (State.loseLane_kept _ _ _) (.of (State.raise_kept _ _ _) .refl))) (.next .refl))

theorem State.pllLost_kept (s : State) (a1 : Bool) :
    Kept (.box :: .store :: .seq :: .tid :: .link :: .hcr :: .csc :: reports) s (State.pllLost s a1) := by
  delta State.pllLost
  extract_lets x2 x3 x4 _ x6 x7
  have h8 : Kept (.box :: .store :: .seq :: .tid :: .link :: .hcr :: .csc :: reports) s x2 := (.of (State.put_kept _ _ _) .refl)
  have h9 : Kept (.box :: .store :: .seq :: .tid :: .link :: .hcr :: .csc :: reports) s x3 := (.of (State.put_kept _ _ _) h8)
  have h10 : Kept (.box :: .store :: .seq :: .tid :: .link :: .hcr :: .csc :: reports) s x4 := (.of (State.raise_kept _ _ _) h9)
  have h11 : Kept (.box :: .store :: .seq :: .tid :: .link :: .hcr :: .csc :: reports) s x6 := (.fold (fun _ _ h12 => (.ite (.of (State.loseLane_kept _ _ _) h12) h12)) h10)
  have h13 : Kept (.box :: .store :: .seq :: .tid :: .link :: .hcr :: .csc :: reports) s x7 := (.fold (fun _ _ h14 => (.ite h14 (.of (State.chainTo_kept _ _ _) (.of (State.chainLost_kept _ _) h14)))) h11)
  exact (.ite (.fold (fun _ _ h15 => (.ite (.of (State.portLost_kept _ _ _) h15) (.ite h15 (.of (State.portLanes_kept _ _ _) (.of (State.portTo_kept _ _ _) h15))))) h11) (.of (State.hardwareStop_kept _ _ _) h13))

theorem execLanePllUnlock_kept (a1 : Fin 2) (s : State) :
    OutKept (.box :: .store :: .seq :: .tid :: .link :: .hcr :: .csc :: reports) s (execLanePllUnlock a1 s) := by
  delta execLanePllUnlock
  extract_lets _
  exact (.ite (.next (.of (State.pllLost_kept _ _) .refl)) (.next .refl))

theorem execLanePllLock_kept (a1 : Fin 2) (s : State) :
    OutKept [.regs, .headTime0, .free] s (execLanePllLock a1 s) := by
  delta execLanePllLock
  exact (.ite (.next .refl) (.ite (.next (.of (State.puts_kept _ _) .refl)) (.ite (.next .refl) (by
    split
    · rename_i a2 a3 e4
      have h5 : Kept [.regs, .headTime0, .free] s a3 := by
        have k0 := congrArg Prod.snd e4
        rw [← show _ = a3 from k0]
        exact (.of (State.draw_kept _) .refl)
      exact (.next (.of (State.puts_kept _ _) (.upd [.headTime0] h5)))))))

theorem execTuneBurst_kept (a1 : TuneBurst) (s : State) :
    OutKept (.lanes :: reports) s (execTuneBurst a1 s) := by
  delta execTuneBurst
  exact (.ite (.next (.of (State.count_kept _ _) (.of (State.qualSent_kept _ _) (.of (State.sees_kept _ _ _) .refl)))) (.next .refl))

theorem execLnsLoopStart_kept (a1 : Word) (s : State) :
    OutKept (.box :: .store :: .seq :: .tid :: .link :: .lanes :: .hcr :: .csc :: reports) s (execLnsLoopStart a1 s) := by
  delta execLnsLoopStart
  extract_lets x2 _ _ _ x6 _
  have h8 : Kept (.box :: .store :: .seq :: .tid :: .link :: .lanes :: .hcr :: .csc :: reports) s x2 := (.of (State.writeWord_kept _ _ _) .refl)
  have h9 : Kept (.box :: .store :: .seq :: .tid :: .link :: .lanes :: .hcr :: .csc :: reports) s x6 := (.of (State.put_kept _ _ _) (.upd [.lanes] h8))
  exact (.ite (.next h8) (.ite (.ite (.next (.of (State.chainTo_kept _ _ _) h9)) (.next (.ite (.of (State.portLost_kept _ _ _) h9) (.of (State.portTo_kept _ _ _) h9)))) (.next (.of (State.raise_kept _ _ _) (.of (State.put_kept _ _ _) h8)))))

theorem execLnsLoopEnd_kept (a1 : Bool) (a2 : BitVec 48) (s : State) :
    OutKept (.lanes :: reports) s (execLnsLoopEnd a1 a2 s) := by
  delta execLnsLoopEnd
  extract_lets _ x4 x5
  have h6 : Kept (.lanes :: reports) s x4 := (.upd [.lanes] .refl)
  have h7 : Kept (.lanes :: reports) s x5 := (.of (State.puts_kept _ _) h6)
  split
  · exact (.next .refl)
  · exact (.next (.of (State.raise_kept _ _ _) h7))

theorem State.writeRefCtrl_kept (s : State) (a1 : Word) :
    Kept reports s (State.writeRefCtrl s a1) := by
  delta State.writeRefCtrl
  extract_lets _ _ _ _ x6
  have h7 : Kept reports s x6 := (.of (State.put_kept _ _ _) .refl)
  exact (.ite (.of (State.domainOffAccess_kept _ _) .refl) (.ite (.of (State.put_kept _ _ _) h7) h7))

theorem execLnsSscWrite_kept (a1 : Word) (s : State) :
    OutKept reports s (execLnsSscWrite a1 s) := by
  delta execLnsSscWrite
  exact (.next (.of (State.writeRefCtrl_kept _ _) .refl))

theorem execLnsOutEnWrite_kept (a1 : Word) (s : State) :
    OutKept reports s (execLnsOutEnWrite a1 s) := by
  delta execLnsOutEnWrite
  exact (.next (.of (State.writeRefCtrl_kept _ _) .refl))

theorem execLnsEidleWrite_kept (a1 : Fin 268) (a2 : Word) (s : State) :
    OutKept (.lanes :: reports) s (execLnsEidleWrite a1 a2 s) := by
  delta execLnsEidleWrite
  extract_lets _ x4 _
  have h6 : Kept (.lanes :: reports) s x4 := (.of (State.writeWord_kept _ _ _) .refl)
  exact (.ite (.next (.of (State.put_kept _ _ _) h6)) (.ite (.next (.of (State.count_kept _ _) (.of (State.qualSent_kept _ _) h6))) (.next h6)))

theorem execStrobeApply_kept (a1 : Fin 268) (s : State) :
    OutKept (.lanes :: reports) s (execStrobeApply a1 s) := by
  delta execStrobeApply
  extract_lets _ _ x4
  have h5 : Kept (.lanes :: reports) s x4 := (.upd [.lanes] .refl)
  split
  · exact (.next .refl)
  · extract_lets x6
    have h7 : Kept (.lanes :: reports) s x6 := (.of (State.puts_kept _ _) h5)
    exact (.ite (.next .refl) (.next (.of (State.raise_kept _ _ _) h7)))

/-! ### HeadCare -/

theorem State.tryHandover_kept (s : State) :
    Kept (.hcr :: .bwt :: reports) s (State.tryHandover s) := by
  delta State.tryHandover
  extract_lets _ _
  split
  · exact .refl
  · extract_lets _ x4 x5
    have h6 : Kept (.hcr :: .bwt :: reports) s x4 := (.upd [.hcr, .bwt] .refl)
    have h7 : Kept (.hcr :: .bwt :: reports) s x5 := (.of (State.raise_kept _ _ _) (.of (State.put_kept _ _ _) h6))
    exact (.ite .refl (by
      split
      · exact (.of (State.complete_kept _ _ _ _ _) h7)
      · exact h7))

theorem State.handOver_kept (s : State) (a1 : ℕ) (a2 : Option ℕ) :
    Kept (.hcr :: .bwt :: reports) s (State.handOver s a1 a2) := by
  delta State.handOver
  extract_lets _
  exact (.of (State.tryHandover_kept _) (.upd [.hcr] .refl))

theorem State.refuseHcr_kept (s : State) (a1 : ℕ) (a2 : ℕ) :
    Kept reports s (State.refuseHcr s a1 a2) := by
  delta State.refuseHcr
  exact (.of (State.complete_kept _ _ _ _ _) (.of (State.raise_kept _ _ _) .refl))

theorem State.writeDriver_kept (s : State) (a1 : RegFile) (a2 : MeasDriver) :
    Kept [.regs, .hcr] s (State.writeDriver s a1 a2) := by
  delta State.writeDriver
  extract_lets x3 _ x5 _
  have h7 : Kept [.regs, .hcr] s x3 := (.fold (fun _ _ h8 => (by
        extract_lets _
        exact (.of (State.put_kept _ _ _) h8))) .refl)
  have h10 : Kept [.regs, .hcr] s x5 := (.of (State.put_kept _ _ _) h7)
  exact (.upd [.hcr] h10)

theorem State.recount_kept (s : State) :
    Kept [.regs] s (State.recount s) := by
  delta State.recount
  exact (.of (State.puts_kept _ _) .refl)

theorem State.nextResult_kept (s : State) :
    Kept [.regs] s (State.nextResult s) := by
  delta State.nextResult
  exact (.of (State.put_kept _ _ _) .refl)

theorem State.stopRun_kept (s : State) :
    Kept [.regs, .link, .hcr] s (State.stopRun s) := by
  delta State.stopRun
  extract_lets _ _ _ x4
  have h5 : Kept [.regs, .link, .hcr] s x4 := (.upd [.link, .hcr] .refl)
  exact (.of (State.puts_kept _ _) h5)

theorem State.runEvents_kept (s : State) (a1 : List MeasDriver) :
    Kept reports s (State.runEvents s a1) := by
  delta State.runEvents
  extract_lets x2 x3
  have h4 : Kept reports s x2 := (.of (State.raise_kept _ _ _) .refl)
  have h5 : Kept reports s x3 := by
    unfold x3
    split
    · exact h4
    · exact (.of (State.raise_kept _ _ _) h4)
  split
  · exact h5
  · exact (.of (State.raise_kept _ _ _) h5)

theorem State.endRun_kept (s : State) (a1 : MeasRun) :
    Kept (.link :: .hcr :: .bwt :: reports) s (State.endRun s a1) := by
  delta State.endRun
  extract_lets _ _ _ _ x6 x7 x8 x9 x10 _ x12 x13
  have h14 : Kept (.link :: .hcr :: .bwt :: reports) s x6 := (.fold (fun _ _ h15 => (.of (State.writeDriver_kept _ _ _) h15)) (.of (State.stopRun_kept _) .refl))
  have h16 : Kept (.link :: .hcr :: .bwt :: reports) s x7 := (.of (State.countBy_kept _ _ _) (.of (State.nextResult_kept _) (.of (State.recount_kept _) h14)))
  have h17 : Kept (.link :: .hcr :: .bwt :: reports) s x8 := (.ite (.of (State.count_kept _ _) h16) h16)
  have h18 : Kept (.link :: .hcr :: .bwt :: reports) s x9 := (.ite h17 (.of (State.hostWrite_kept _ _ _) h17))
  have h19 : Kept (.link :: .hcr :: .bwt :: reports) s x10 := (.ite (.of (State.put_kept _ _ _) h18) h18)
  have h20 : Kept (.link :: .hcr :: .bwt :: reports) s x12 := (.ite (.upd [.hcr] h19) h19)
  have h21 : Kept (.link :: .hcr :: .bwt :: reports) s x13 := (.of (State.judgeHold_kept _) (.of (State.runEvents_kept _ _) h20))
  split
  · exact h21
  · extract_lets x22
    have h23 : Kept (.link :: .hcr :: .bwt :: reports) s x22 := (.of (State.complete_kept _ _ _ _ _) h21)
    exact (.ite (.of (State.complete_kept _ _ _ _ _) h21) (.ite (.of (State.refuseHcr_kept _ _ _) h21) (.ite (.of (State.handOver_kept _ _ _) h23) h23)))

theorem State.startRun_kept (s : State) (a1 : List ℕ) (a2 : Option ℕ) (a3 : ℕ) (a4 : Bool) (a5 : Bool) :
    Kept [.regs, .tid, .link, .hcr] s (State.startRun s a1 a2 a3 a4 a5) := by
  delta State.startRun
  extract_lets _ _ _ _ x10 x11
  have h12 : Kept [.regs, .tid, .link, .hcr] s x10 := (.upd [.tid, .hcr] .refl)
  have h13 : Kept [.regs, .tid, .link, .hcr] s x11 := (.of (State.puts_kept _ _) h12)
  exact (.fold (fun _ _ h14 => (.ite (.of (State.sendMeasure_kept _ _) h14) h14)) h13)

theorem State.alignJob_kept (s : State) (a1 : HcrJob) :
    Kept (.hcr :: .bwt :: reports) s (State.alignJob s a1) := by
  delta State.alignJob
  extract_lets _ _ _ _ x6 x7 x8 x9 x10
  have h11 : Kept (.hcr :: .bwt :: reports) s x6 := (.fold (fun _ _ h12 => (.of (State.put_kept _ _ _) h12)) .refl)
  have h13 : Kept (.hcr :: .bwt :: reports) s x7 := (.of (State.put_kept _ _ _) h11)
  have h14 : Kept (.hcr :: .bwt :: reports) s x8 := (.of (State.nextResult_kept _) h13)
  have h15 : Kept (.hcr :: .bwt :: reports) s x9 := (.of (State.raise_kept _ _ _) h14)
  have h16 : Kept (.hcr :: .bwt :: reports) s x10 := (.of (State.complete_kept _ _ _ _ _) h15)
  split
  · exact (.of (State.complete_kept _ _ _ _ _) (.of (State.raise_kept _ _ _) (.of (State.count_kept _ _) .refl)))
  · exact (.ite (.of (State.handOver_kept _ _ _) h16) h16)

theorem State.proposeJob_kept (s : State) (a1 : HcrJob) :
    Kept (.hcr :: .bwt :: reports) s (State.proposeJob s a1) := by
  delta State.proposeJob
  exact (.ite (.of (State.refuseHcr_kept _ _ _) .refl) (.ite (.of (State.refuseHcr_kept _ _ _) .refl) (.of (State.handOver_kept _ _ _) .refl)))

theorem State.pumpJobs_kept (n : Nat) (s : State) : Kept (.link :: .hcr :: .bwt :: reports) s (State.pumpJobs n s) := by
  induction n generalizing s with
  | zero => exact .refl
  | succ n ih =>
    simp only [State.pumpJobs]
    split
    · exact .refl
    · exact .ite .refl (.of (ih _) (.ite (.of (State.alignJob_kept _ _) (.upd [.hcr] .refl)) (.of (State.proposeJob_kept _ _) (.upd [.hcr] .refl))))

theorem State.queueHcr_kept (s : State) (a1 : HcrJob) :
    Kept (.link :: .hcr :: .bwt :: reports) s (State.queueHcr s a1) := by
  delta State.queueHcr
  extract_lets _ x3
  have h4 : Kept (.link :: .hcr :: .bwt :: reports) s x3 := (.upd [.hcr] .refl)
  exact (.of (State.pumpJobs_kept _ _) h4)

theorem execHcrMeasure_kept (a1 : Desc) (s : State) :
    OutKept (.link :: .hcr :: .bwt :: reports) s (execHcrMeasure a1 s) := by
  delta execHcrMeasure
  extract_lets _ _
  exact (.ite (.next .refl) (.next (State.withDesc_kept _ _ _ _ _ (fun _ _ h4 => (.of (State.queueHcr_kept _ _) h4)) .refl)))

theorem execHcrAlign_kept (a1 : Desc) (s : State) :
    OutKept (.link :: .hcr :: .bwt :: reports) s (execHcrAlign a1 s) := by
  delta execHcrAlign
  exact (.ite (.next .refl) (.next (State.withDesc_kept _ _ _ _ _ (fun _ _ h2 => (.of (State.queueHcr_kept _ _) h2)) .refl)))

theorem execHcrPropose_kept (a1 : Desc) (s : State) :
    OutKept (.link :: .hcr :: .bwt :: reports) s (execHcrPropose a1 s) := by
  delta execHcrPropose
  exact (.ite (.next .refl) (.next (State.withDesc_kept _ _ _ _ _ (fun _ _ h2 => (.of (State.queueHcr_kept _ _) h2)) .refl)))

theorem State.startItem_kept (s : State) (a1 : ℕ) :
    Kept [.regs, .tid, .link, .hcr] s (State.startItem s a1) := by
  delta State.startItem
  extract_lets _ x3 _
  have h5 : Kept [.regs, .tid, .link, .hcr] s x3 := (.upd [.hcr] .refl)
  split
  · exact (.of (State.put_kept _ _ _) (.upd [.hcr] h5))
  · exact (.of (State.startRun_kept _ _ _ _ _ _) h5)
  · exact (.of (State.startRun_kept _ _ _ _ _ _) h5)
  · split
    · exact h5
    · extract_lets x6 _
      have h8 : Kept [.regs, .tid, .link, .hcr] s x6 := (.upd [.hcr] h5)
      exact (.of (State.startRun_kept _ _ _ _ _ _) h8)

theorem execHcrSchedule_kept (s : State) :
    OutKept (.tid :: .link :: .hcr :: reports) s (execHcrSchedule s) := by
  delta execHcrSchedule
  extract_lets _ _
  split
  · exact (.next .refl)
  · exact (.ite (.next (.of (State.startItem_kept _ _) .refl)) (.ite (.next (.of (State.raise_kept _ _ _) (.upd [.hcr] .refl))) (.next .refl)))

theorem execHcrMeasRunEnd_kept (s : State) :
    OutKept (.link :: .hcr :: .bwt :: reports) s (execHcrMeasRunEnd s) := by
  delta execHcrMeasRunEnd
  split
  · exact (.next .refl)
  · extract_lets x1
    have h2 : Kept (.link :: .hcr :: .bwt :: reports) s x1 := (.of (State.endRun_kept _ _) .refl)
    exact (.ite (.next .refl) (.next (.of (State.pumpJobs_kept _ _) h2)))

theorem execHcrMeasTimeout_kept (s : State) :
    OutKept [.hcr] s (execHcrMeasTimeout s) := by
  delta execHcrMeasTimeout
  split
  · exact (.next .refl)
  · split
    · exact (.next .refl)
    · exact (.ite (.next (.fold (fun _ _ h1 => (.of (State.measFail_kept _ _) h1)) .refl)) (.next .refl))

theorem State.chooseAll_kept (s : State) (a1 : StrobeCal) :
    Kept [.regs, .hcr] s (State.chooseAll s a1) := by
  delta State.chooseAll
  extract_lets _ x3 _ _ _ _
  have h8 : Kept [.regs, .hcr] s x3 := (.of (State.put_kept _ _ _) .refl)
  exact (.upd [.hcr] h8)

theorem State.setStrobe_kept (s : State) (a1 : ℕ × ℕ × ℕ) :
    Kept [.regs, .lanes] s (State.setStrobe s a1) := by
  delta State.setStrobe
  extract_lets _ _
  exact (.ite (.upd [.lanes] .refl) (.of (State.puts_kept _ _) .refl))

theorem State.endStrobe_kept (s : State) (a1 : StrobeCal) :
    Kept (.lanes :: .hcr :: reports) s (State.endStrobe s a1) := by
  delta State.endStrobe
  extract_lets _ _ _ _ _ _ x8 _ x10 x11 _ x13 x14 x15 x16
  have h17 : Kept (.lanes :: .hcr :: reports) s x8 := (.fold (fun _ _ h18 => (by
        extract_lets _
        exact (.of (State.puts_kept _ _) h18))) .refl)
  have h20 : Kept (.lanes :: .hcr :: reports) s x10 := (.fold (fun _ _ h21 => (.of (State.setStrobe_kept _ _) h21)) h17)
  have h22 : Kept (.lanes :: .hcr :: reports) s x11 := (.fold (fun _ _ h23 => (.of (State.raise_kept _ _ _) (.of (State.count_kept _ _) h23))) h20)
  have h24 : Kept (.lanes :: .hcr :: reports) s x13 := (.upd [.hcr] h22)
  have h25 : Kept (.lanes :: .hcr :: reports) s x14 := (.of (State.puts_kept _ _) h24)
  have h26 : Kept (.lanes :: .hcr :: reports) s x15 := (.of (State.count_kept _ _) h25)
  have h27 : Kept (.lanes :: .hcr :: reports) s x16 := (.ite h26 (.of (State.raise_kept _ _ _) h26))
  exact (.of (State.raise_kept _ _ _) h27)

theorem execStrobeCalWindow_kept (a1 : List Word) (s : State) :
    OutKept (.lanes :: .hcr :: reports) s (execStrobeCalWindow a1 s) := by
  delta execStrobeCalWindow
  extract_lets _
  split
  · exact (.next .refl)
  · extract_lets _ x4
    have h5 : Kept (.lanes :: .hcr :: reports) s x4 := (.upd [.hcr] .refl)
    exact (.ite (.next (.of (State.chooseAll_kept _ _) h5)) (.ite (.next (.of (State.endStrobe_kept _ _) h5)) (.next h5)))

theorem execMeasReq_kept (a1 : Word) (s : State) :
    OutKept reports s (execMeasReq a1 s) := by
  delta execMeasReq
  exact (.next (.of (State.writeWord_kept _ _ _) .refl))

theorem execCalReq_kept (a1 : Word) (s : State) :
    OutKept reports s (execCalReq a1 s) := by
  delta execCalReq
  exact (.next (.of (State.writeWord_kept _ _ _) .refl))

/-! ### Loops -/

theorem State.modLoop_kept (s : State) (a1 : ℕ) (a2 : LoopChan → LoopChan) :
    Kept [.loops] s (State.modLoop s a1 a2) := by
  delta State.modLoop
  exact (.upd [.loops] .refl)

theorem execSnsTrigger_kept (a1 : Fin 4) (s : State) :
    OutKept [.loops] s (execSnsTrigger a1 s) := by
  delta execSnsTrigger
  exact (.ite (.next (.of (State.modLoop_kept _ _ _) .refl)) (.next .refl))

theorem execSensorFrame_kept (a1 : Fin 4) (a2 : List Byte) (s : State) :
    OutKept [.loops] s (execSensorFrame a1 a2 s) := by
  delta execSensorFrame
  extract_lets x3
  clear_value x3
  split
  · exact (.next .refl)
  · extract_lets _
    exact (.next (.fold (fun _ _ h5 => (.ite (.of (State.modLoop_kept _ _ _) h5) h5)) .refl))

theorem State.loopOut_kept (s : State) (a1 : ℕ) (a2 : ℤ) (a3 : Bool) (a4 : Bool) :
    Kept [.regs] s (State.loopOut s a1 a2 a3 a4) := by
  delta State.loopOut
  exact (.of (State.puts_kept _ _) .refl)

theorem State.loopMode_kept (s : State) (a1 : ℕ) (a2 : ℕ) (a3 : ℕ) :
    Kept reports s (State.loopMode s a1 a2 a3) := by
  delta State.loopMode
  extract_lets _
  exact (.of (State.raise_kept _ _ _) (.of (State.put_kept _ _ _) .refl))

theorem State.loopSafe_kept (s : State) (a1 : ℕ) (a2 : ℕ) :
    Kept reports s (State.loopSafe s a1 a2) := by
  delta State.loopSafe
  exact (.of (State.loopOut_kept _ _ _ _ _) (.of (State.loopMode_kept _ _ _ _) .refl))

theorem State.loopFault_kept (s : State) (a1 : ℕ) (a2 : ℕ) (a3 : List (ℕ × ℕ)) :
    Kept (.box :: .store :: .seq :: .tid :: .csc :: .loops :: reports) s (State.loopFault s a1 a2 a3) := by
  delta State.loopFault
  extract_lets _ _ _ x7 x8 x9
  have h10 : Kept (.box :: .store :: .seq :: .tid :: .csc :: .loops :: reports) s x7 := (.of (State.modLoop_kept _ _ _) (.of (State.put_kept _ _ _) .refl))
  have h11 : Kept (.box :: .store :: .seq :: .tid :: .csc :: .loops :: reports) s x8 := (.of (State.raiseSev_kept _ _ _ _) h10)
  have h12 : Kept (.box :: .store :: .seq :: .tid :: .csc :: .loops :: reports) s x9 := (.ite (.of (State.loopSafe_kept _ _ _) (.of (State.put_kept _ _ _) h11)) h11)
  exact (.ite (.of (State.hardwareStop_kept _ _ _) h12) h12)

theorem State.supervise_kept (s : State) (a1 : ℕ) (a2 : ℤ) (a3 : ℤ) :
    Kept (.box :: .store :: .seq :: .tid :: .csc :: .loops :: reports) s (State.supervise s a1 a2 a3) := by
  delta State.supervise
  extract_lets _ _ _ x7 x8
  have h9 : Kept (.box :: .store :: .seq :: .tid :: .csc :: .loops :: reports) s x7 := (.of (State.modLoop_kept _ _ _) .refl)
  have h10 : Kept (.box :: .store :: .seq :: .tid :: .csc :: .loops :: reports) s x8 := (.of (State.modLoop_kept _ _ _) (.of (State.count_kept _ _) h9))
  exact (.ite h9 (.ite (.ite (.of (State.loopFault_kept _ _ _ _) h10) h10) (.of (State.modLoop_kept _ _ _) h9)))

theorem State.reference_kept (s : State) (a1 : ℕ) :
    Kept [.loops] s (State.reference s a1).1 := by
  delta State.reference
  extract_lets _ _ _ _ _
  exact (.of (State.modLoop_kept _ _ _) .refl)

theorem State.shiftLoop_kept (s : State) (a1 : ℕ) (a2 : ℤ) (a3 : ℤ) (a4 : ℤ) :
    Kept [.loops] s (State.shiftLoop s a1 a2 a3 a4) := by
  delta State.shiftLoop
  exact (.of (State.modLoop_kept _ _ _) .refl)

theorem State.closeLoop_kept (s : State) (a1 : ℕ) (a2 : ℤ) :
    Kept [.regs, .loops, .free] s (State.closeLoop s a1 a2) := by
  delta State.closeLoop
  extract_lets _ _ _ _
  split
  · rename_i a7 a8 e9
    have h10 : Kept [.regs, .loops, .free] s a8 := by
      have k0 := congrArg Prod.snd e9
      rw [← show _ = a8 from k0]
      exact (by split; exacts [.refl, (.of (State.draw_kept _) .refl)])
    exact (.of (State.loopOut_kept _ _ _ _ _) (.of (State.shiftLoop_kept _ _ _ _ _) h10))

theorem State.compensate_kept (s : State) (a1 : ℕ) (a2 : ℤ) :
    Kept (.loops :: reports) s (State.compensate s a1 a2) := by
  delta State.compensate
  extract_lets _ _ _ _ _ _ _ _ _ _ _ _ _ _ _ _ x19
  have h20 : Kept (.loops :: reports) s x19 := (.of (State.loopOut_kept _ _ _ _ _) (.of (State.shiftLoop_kept _ _ _ _ _) .refl))
  exact (.ite (.of (State.count_kept _ _) h20) h20)

theorem State.closedSample_kept (s : State) (a1 : ℕ) (a2 : ℤ) (a3 : Bool) :
    Kept (.box :: .store :: .seq :: .tid :: .csc :: .loops :: .free :: reports) s (State.closedSample s a1 a2 a3) := by
  delta State.closedSample
  extract_lets x4
  have h5 : Kept (.box :: .store :: .seq :: .tid :: .csc :: .loops :: .free :: reports) s x4 := (.ite (.of (State.modLoop_kept _ _ _) (.of (State.put_kept _ _ _) .refl)) .refl)
  split
  · rename_i a6 a7 e8
    have h9 : Kept (.box :: .store :: .seq :: .tid :: .csc :: .loops :: .free :: reports) s a6 := by
      have k0 := congrArg Prod.fst e8
      rw [← show _ = a6 from k0]
      exact (.of (State.reference_kept _ _) h5)
    extract_lets _ x11
    have h12 : Kept (.box :: .store :: .seq :: .tid :: .csc :: .loops :: .free :: reports) s x11 := (.ite (.of (State.closeLoop_kept _ _ _) h9) (.of (State.compensate_kept _ _ _) h9))
    exact (.of (State.supervise_kept _ _ _ _) h12)

theorem State.openSample_kept (s : State) (a1 : ℕ) :
    Kept [.regs] s (State.openSample s a1) := by
  delta State.openSample
  extract_lets _ _ _
  exact (.ite (.of (State.loopOut_kept _ _ _ _ _) .refl) (.of (State.loopOut_kept _ _ _ _ _) .refl))

theorem State.swapBanks_kept (s : State) (a1 : ℕ) :
    Kept reports s (State.swapBanks s a1) := by
  delta State.swapBanks
  extract_lets _ x3
  have h4 : Kept reports s x3 := (.of (State.put_kept _ _ _) .refl)
  exact (.ite .refl (by
    split
    · exact (.of (State.raise_kept _ _ _) (.of (State.put_kept _ _ _) h4))
    · exact (.of (State.raise_kept _ _ _) h4)))

theorem State.loopMissed_kept (s : State) (a1 : ℕ) (a2 : ℕ) :
    Kept (.box :: .store :: .seq :: .tid :: .csc :: .loops :: reports) s (State.loopMissed s a1 a2) := by
  delta State.loopMissed
  extract_lets _ x4 x5 _ x7
  have h8 : Kept (.box :: .store :: .seq :: .tid :: .csc :: .loops :: reports) s x4 := (.of (State.count_kept _ _) (.of (State.put_kept _ _ _) .refl))
  have h9 : Kept (.box :: .store :: .seq :: .tid :: .csc :: .loops :: reports) s x5 := (.ite (.of (State.raise_kept _ _ _) h8) h8)
  have h10 : Kept (.box :: .store :: .seq :: .tid :: .csc :: .loops :: reports) s x7 := (.of (State.modLoop_kept _ _ _) h9)
  exact (.ite (.of (State.loopSafe_kept _ _ _) h9) (.ite (.of (State.put_kept _ _ _) (.of (State.loopMode_kept _ _ _ _) h9)) (.ite (.ite (.of (State.loopFault_kept _ _ _ _) h10) h10) h9)))

theorem State.noteError_kept (s : State) (a1 : ℕ) :
    Kept [.loops, .free] s (State.noteError s a1) := by
  delta State.noteError
  split
  · rename_i a2 a3 e4
    have h5 : Kept [.loops, .free] s a3 := .of (State.followError_kept e4) .refl
    exact (.of (State.modLoop_kept _ _ _) h5)
  · exact .refl

theorem State.loopSample_kept (s : State) (a1 : ℕ) (a2 : ℤ) :
    Kept (.box :: .store :: .seq :: .tid :: .csc :: .loops :: .free :: reports) s (State.loopSample s a1 a2) := by
  delta State.loopSample
  extract_lets x3 x4 _ x6 x7
  have h8 : Kept (.box :: .store :: .seq :: .tid :: .csc :: .loops :: .free :: reports) s x3 := (.of (State.modLoop_kept _ _ _) (.of (State.put_kept _ _ _) .refl))
  have h9 : Kept (.box :: .store :: .seq :: .tid :: .csc :: .loops :: .free :: reports) s x4 := (.of (State.noteError_kept _ _) h8)
  clear_value x7 x6
  split
  · exact (.ite (.of (State.loopSafe_kept _ _ _) h9) (.of (State.loopOut_kept _ _ _ _ _) h9))
  · exact (.of (State.openSample_kept _ _) (.ite (.of (State.put_kept _ _ _) (.of (State.loopMode_kept _ _ _ _) h9)) h9))
  · exact (.of (State.closedSample_kept _ _ _ _) (.ite (.of (State.loopMode_kept _ _ _ _) h9) h9))

theorem State.sendSample_kept (s : State) (a1 : ℕ) (a2 : Bool) :
    Kept (.loops :: reports) s (State.sendSample s a1 a2) := by
  delta State.sendSample
  extract_lets _ _ _ _ x7
  have h8 : Kept (.loops :: reports) s x7 := (.of (State.modLoop_kept _ _ _) .refl)
  exact (.ite h8 (.of (State.trace_kept _ _ _) h8))

theorem execLoopCapture_kept (a1 : Fin 4) (s : State) :
    OutKept (.box :: .store :: .seq :: .tid :: .csc :: .loops :: .free :: reports) s (execLoopCapture a1 s) := by
  delta execLoopCapture
  extract_lets _ x3 x4
  have h5 : Kept (.box :: .store :: .seq :: .tid :: .csc :: .loops :: .free :: reports) s x3 := (.of (State.swapBanks_kept _ _) (.of (State.count_kept _ _) .refl))
  have h6 : Kept (.box :: .store :: .seq :: .tid :: .csc :: .loops :: .free :: reports) s x4 := (.ite (.of (State.loopSample_kept _ _ _) h5) (.of (State.loopMissed_kept _ _ _) h5))
  exact (.ite (.next .refl) (.next (.of (State.watchFlood_kept _) (.of (State.sendSample_kept _ _ _) h6))))

theorem State.writeMode_kept (s : State) (a1 : ℕ) (a2 : Word) :
    Kept reports s (State.writeMode s a1 a2) := by
  delta State.writeMode
  extract_lets x3
  have h4 : Kept reports s x3 := (.of (State.writeWord_kept _ _ _) .refl)
  exact (.ite (.of (State.raise_kept _ _ _) (.of (State.put_kept _ _ _) h4)) h4)

theorem execLoopSwapRequest_kept (a1 : Fin 4) (a2 : Word) (s : State) :
    OutKept reports s (execLoopSwapRequest a1 a2 s) := by
  delta execLoopSwapRequest
  exact (.next (.ite (.of (State.writeMode_kept _ _ _) .refl) .refl))

theorem execLoopModeWrite_kept (a1 : Fin 4) (a2 : Word) (s : State) :
    OutKept reports s (execLoopModeWrite a1 a2 s) := by
  delta execLoopModeWrite
  exact (.next (.of (State.writeMode_kept _ _ _) .refl))

theorem execLoopBankWrite_kept (a1 : BitVec 25) (a2 : Bool) (a3 : BitVec 64) (s : State) :
    OutKept reports s (execLoopBankWrite a1 a2 a3 s) := by
  delta execLoopBankWrite
  extract_lets _
  split
  · exact (.next .refl)
  · exact (.ite (.next .refl) (.ite (.next (.of (State.raise_kept _ _ _) .refl)) (.next (.of (State.writeAny_kept _ _ _ _) .refl))))

theorem execLoopOpenWrite_kept (a1 : Fin 4) (a2 : Word) (s : State) :
    OutKept reports s (execLoopOpenWrite a1 a2 s) := by
  delta execLoopOpenWrite
  extract_lets x3
  have h4 : Kept reports s x3 := (.of (State.writeWord_kept _ _ _) .refl)
  exact (.next (.ite (.of (State.put_kept _ _ _) h4) h4))

theorem execLoopConfigWrite_kept (a1 : BitVec 25) (a2 : Bool) (a3 : BitVec 64) (s : State) :
    OutKept reports s (execLoopConfigWrite a1 a2 a3 s) := by
  delta execLoopConfigWrite
  extract_lets _ _
  exact (.ite (.next .refl) (.ite (.next (.of (State.raise_kept _ _ _) .refl)) (.next (.of (State.writeAny_kept _ _ _ _) .refl))))

/-! ### AuxAxes -/

theorem State.modAxis_kept (s : State) (a1 : ℕ) (a2 : AuxAxis → AuxAxis) :
    Kept [.aux] s (State.modAxis s a1 a2) := by
  delta State.modAxis
  extract_lets _
  exact (.upd [.aux] .refl)

theorem State.modAuxJob_kept (s : State) (a1 : ℕ) (a2 : AuxJob → AuxJob) :
    Kept [.aux] s (State.modAuxJob s a1 a2) := by
  delta State.modAuxJob
  extract_lets _
  exact (.upd [.aux] .refl)

theorem State.modPhase_kept (s : State) (a1 : ℕ) (a2 : ℕ) (a3 : AuxPhase → AuxPhase) :
    Kept [.aux] s (State.modPhase s a1 a2 a3) := by
  delta State.modPhase
  exact (.of (State.modAuxJob_kept _ _ _) .refl)

theorem State.axisStop_kept (s : State) (a1 : ℕ) :
    Kept [.regs, .aux] s (State.axisStop s a1) := by
  delta State.axisStop
  exact (.ite (.of (State.modAxis_kept _ _ _) (.of (State.put_kept _ _ _) .refl)) .refl)

theorem State.stopAxes_kept (s : State) (a1 : ℕ) :
    Kept [.regs, .aux] s (State.stopAxes s a1) := by
  delta State.stopAxes
  exact (.fold (fun _ _ h2 => (.of (State.modAxis_kept _ _ _) (.of (State.axisStop_kept _ _) h2))) .refl)

theorem State.auxFails_kept (s : State) (a1 : ℕ) (a2 : ℕ) (a3 : ℕ) (a4 : ℕ) (a5 : ℕ) :
    Kept (.aux :: reports) s (State.auxFails s a1 a2 a3 a4 a5) := by
  delta State.auxFails
  extract_lets _ x7
  have h8 : Kept (.aux :: reports) s x7 := (.of (State.modAuxJob_kept _ _ _) (.of (State.stopAxes_kept _ _) .refl))
  split
  · exact .refl
  · extract_lets x9
    have h10 : Kept (.aux :: reports) s x9 := (.of (State.put_kept _ _ _) h8)
    exact (.of (State.raise_kept _ _ _) h10)

theorem State.auxRefuse_kept (s : State) (a1 : ℕ) (a2 : ℕ) (a3 : ℕ) (a4 : ℕ) (a5 : List (ℕ × ℕ)) :
    Kept (.aux :: reports) s (State.auxRefuse s a1 a2 a3 a4 a5) := by
  delta State.auxRefuse
  extract_lets _
  exact (.of (State.auxFails_kept _ _ _ _ _ _) (.of (State.raise_kept _ _ _) .refl))

theorem State.axisFault_kept (s : State) (a1 : ℕ) (a2 : ℕ) (a3 : ℕ) (a4 : List (ℕ × ℕ)) :
    Kept (.aux :: reports) s (State.axisFault s a1 a2 a3 a4) := by
  delta State.axisFault
  extract_lets x5 _ _ x8 x9 x10
  have h11 : Kept (.aux :: reports) s x8 := (.of (State.puts_kept _ _) .refl)
  have h12 : Kept (.aux :: reports) s x9 := (.of (State.modAxis_kept _ _ _) h11)
  have h13 : Kept (.aux :: reports) s x10 := (.of (State.raise_kept _ _ _) (.of (State.count_kept _ _) h12))
  clear_value x5
  split
  · exact (.of (State.auxFails_kept _ _ _ _ _ _) h13)
  · exact h13

theorem State.stepsLost_kept (s : State) (a1 : ℕ) (a2 : Bool) :
    Kept (.aux :: reports) s (State.stepsLost s a1 a2) := by
  delta State.stepsLost
  exact (.ite (.of (State.axisFault_kept _ _ _ _ _) .refl) (.of (State.axisFault_kept _ _ _ _ _) .refl))

theorem State.auxComplete_kept (s : State) (a1 : AuxJob) (a2 : ℕ) (a3 : ℕ) :
    Kept (.aux :: reports) s (State.auxComplete s a1 a2 a3) := by
  delta State.auxComplete
  extract_lets _ _ x6
  have h7 : Kept (.aux :: reports) s x6 := (.upd [.aux] .refl)
  exact (.of (State.complete_kept _ _ _ _ _) h7)

theorem State.auxAdvance_kept (s : State) (a1 : ℕ) :
    Kept (.aux :: reports) s (State.auxAdvance s a1) := by
  delta State.auxAdvance
  split
  · exact .refl
  · extract_lets _ x3 x4
    have h5 : Kept (.aux :: reports) s x3 := (.of (State.raise_kept _ _ _) .refl)
    have h6 : Kept (.aux :: reports) s x4 := (.ite (.of (State.raise_kept _ _ _) h5) h5)
    exact (.ite (.of (State.auxComplete_kept _ _ _ _) h6) .refl)

theorem State.phaseDone_kept (s : State) (a1 : ℕ) (a2 : ℕ) (a3 : ℕ) :
    Kept (.aux :: reports) s (State.phaseDone s a1 a2 a3) := by
  delta State.phaseDone
  exact (.of (State.auxAdvance_kept _ _) (.of (State.modPhase_kept _ _ _ _) (.of (State.count_kept _ _) .refl)))

theorem execStepGenerate_kept (a1 : Fin 3) (s : State) :
    OutKept (.aux :: reports) s (execStepGenerate a1 s) := by
  delta execStepGenerate
  extract_lets _ _ _ _ _ _ _ x9 x10
  have h11 : Kept (.aux :: reports) s x9 := (.of (State.count_kept _ _) (.of (State.put_kept _ _ _) .refl))
  have h12 : Kept (.aux :: reports) s x10 := (.of (State.modAxis_kept _ _ _) h11)
  exact (.ite (.next .refl) (.ite (.next .refl) (.ite (.next (.ite (.of (State.modAxis_kept _ _ _) .refl) .refl)) (.ite (.next (.ite (.of (State.stepsLost_kept _ _ _) h12) h12)) (.next .refl)))))

theorem State.axisTableStep_kept (s : State) (a1 : ℕ) :
    Kept [.aux] s (State.axisTableStep s a1) := by
  delta State.axisTableStep
  extract_lets _
  split
  · exact (.of (State.modAxis_kept _ _ _) .refl)
  · extract_lets _
    exact (.of (State.modAxis_kept _ _ _) .refl)

theorem State.axisApplyDeferred_kept (s : State) (a1 : ℕ) :
    Kept (.aux :: reports) s (State.axisApplyDeferred s a1) := by
  delta State.axisApplyDeferred
  extract_lets _
  exact (.ite .refl (.fold (fun _ _ h3 => (.of (State.raise_kept _ _ _) (.of (State.put_kept _ _ _) h3))) (.of (State.put_kept _ _ _) (.of (State.modAxis_kept _ _ _) .refl))))

theorem State.watchDeviation_kept (s : State) (a1 : ℕ) :
    Kept (.aux :: reports) s (State.watchDeviation s a1) := by
  delta State.watchDeviation
  extract_lets _ x3 _ _ x6
  have h7 : Kept (.aux :: reports) s x3 := (.of (State.put_kept _ _ _) .refl)
  have h8 : Kept (.aux :: reports) s x6 := (.of (State.modAxis_kept _ _ _) h7)
  exact (.ite .refl (.ite (.of (State.modAxis_kept _ _ _) h7) (.ite (.of (State.stepsLost_kept _ _ _) h8) h8)))

theorem State.homeTurn_kept (s : State) (a1 : ℕ) :
    Kept [.aux] s (State.homeTurn s a1) := by
  delta State.homeTurn
  extract_lets _
  exact (.ite (.of (State.modAxis_kept _ _ _) .refl) .refl)

theorem execAuxPlannerStep_kept (a1 : Fin 3) (a2 : BitVec 64) (a3 : BitVec 64) (a4 : BitVec 64) (s : State) :
    OutKept (.aux :: reports) s (execAuxPlannerStep a1 a2 a3 a4 s) := by
  delta execAuxPlannerStep
  extract_lets _ x6 x7
  have h8 : Kept (.aux :: reports) s x6 := (.ite (.of (State.axisTableStep_kept _ _) .refl) (.ite (.ite (.of (State.modAxis_kept _ _ _) .refl) .refl) .refl))
  have h9 : Kept (.aux :: reports) s x7 := (.of (State.watchDeviation_kept _ _) (.of (State.axisApplyDeferred_kept _ _) (.of (State.homeTurn_kept _ _) h8)))
  exact (.next (.ite h9 (.of (State.trace_kept _ _ _) h9)))

theorem execEncEdge_kept (a1 : Fin 3) (a2 : Bool) (a3 : Bool) (s : State) :
    OutKept (.aux :: reports) s (execEncEdge a1 a2 a3 s) := by
  delta execEncEdge
  extract_lets _ x5
  have h6 : Kept (.aux :: reports) s x5 := (.of (State.modAxis_kept _ _ _) .refl)
  exact (.ite (.next h6) (by
    split
    · extract_lets _
      exact (.next (.of (State.put_kept _ _ _) h6))
    · exact (.next (.ite (.of (State.stepsLost_kept _ _ _) h6) h6))))

theorem State.takeReference_kept (s : State) (a1 : ℕ) :
    Kept (.aux :: reports) s (State.takeReference s a1) := by
  delta State.takeReference
  extract_lets _ _ _ x5 x6
  have h7 : Kept (.aux :: reports) s x5 := (.of (State.puts_kept _ _) .refl)
  have h8 : Kept (.aux :: reports) s x6 := (.of (State.modAxis_kept _ _ _) h7)
  exact (.of (State.raise_kept _ _ _) h8)

theorem execEncIndex_kept (a1 : Fin 3) (s : State) :
    OutKept (.aux :: reports) s (execEncIndex a1 s) := by
  delta execEncIndex
  exact (.next (.ite (.of (State.takeReference_kept _ _) .refl) .refl))

theorem execLimitSwitch_kept (a1 : Fin 3) (a2 : Bool) (a3 : Bool) (s : State) :
    OutKept (.aux :: reports) s (execLimitSwitch a1 a2 a3 s) := by
  delta execLimitSwitch
  extract_lets _ _ _ x7 _
  have h9 : Kept (.aux :: reports) s x7 := (.of (State.put_kept _ _ _) .refl)
  exact (.ite (.next h9) (.ite (.ite (.ite (.next (.ite (.of (State.modAxis_kept _ _ _) h9) h9)) (.ite (.next (.ite (.of (State.modAxis_kept _ _ _) h9) (.of (State.takeReference_kept _ _) h9))) (.next h9))) (.next (.ite (.of (State.axisFault_kept _ _ _ _ _) h9) h9))) (.next (.ite (.of (State.axisFault_kept _ _ _ _ _) h9) h9))))

theorem execAuxSettleCheck_kept (a1 : Fin 3) (s : State) :
    OutKept (.aux :: reports) s (execAuxSettleCheck a1 s) := by
  delta execAuxSettleCheck
  extract_lets _
  split
  · exact (.next .refl)
  · exact (.ite (.next .refl) (.next (.ite (.of (State.stepsLost_kept _ _ _) .refl) (.of (State.modAxis_kept _ _ _) .refl))))

theorem State.phaseGo_kept (s : State) (a1 : ℕ) (a2 : ℕ) (a3 : AuxPhase) (a4 : List (ℕ × ℤ × ℤ)) :
    Kept [.regs, .aux] s (State.phaseGo s a1 a2 a3 a4) := by
  delta State.phaseGo
  extract_lets _ _ x7 _ _
  have h10 : Kept [.regs, .aux] s x7 := (.of (State.modPhase_kept _ _ _ _) .refl)
  exact (.ite h10 (.of (State.modAxis_kept _ _ _) (.of (State.put_kept _ _ _) h10)))

theorem State.startPhases_kept (s : State) (aseq : Nat) (l : List (Nat × AuxPhase)) : Kept (.aux :: reports) s (s.startPhases aseq l) := by
  induction l generalizing s with
  | nil => exact .refl
  | cons p r ih =>
    simp only [State.startPhases]
    split
    · exact .of (State.auxRefuse_kept _ _ _ _ _ _) .refl
    · exact .of (ih _) (.of (State.phaseGo_kept _ _ _ _ _) .refl)

theorem State.readPhases_kept (s : State) (a1 : ℕ) (a2 : ℕ) (a3 : ℕ) (a4 : Bool) :
    Kept (.aux :: reports) s (State.readPhases s a1 a2 a3 a4) := by
  delta State.readPhases
  extract_lets _
  split
  · exact (.of (State.auxFails_kept _ _ _ _ _ _) (.of (State.raise_kept _ _ _) .refl))
  · exact (.of (State.modAuxJob_kept _ _ _) .refl)

theorem State.releaseHold_kept (s : State) (a1 : AuxJob) :
    Kept (.aux :: reports) s (State.releaseHold s a1) := by
  delta State.releaseHold
  extract_lets x2
  have h3 : Kept (.aux :: reports) s x2 := (.of (State.put_kept _ _ _) (.of (State.modAuxJob_kept _ _ _) .refl))
  split
  · exact (.of (State.readPhases_kept _ _ _ _ _) h3)
  · exact h3

theorem State.tryPhases_kept (s : State) (a1 : ℕ) :
    Kept (.aux :: reports) s (State.tryPhases s a1) := by
  delta State.tryPhases
  split
  · exact .refl
  · extract_lets _ x3
    exact (.ite .refl (by
      clear_value x3
      split
      · exact (.ite (.ite .refl (.of (State.raise_kept _ _ _) (.of (State.modAuxJob_kept _ _ _) .refl))) (.ite (.of (State.startPhases_kept _ _ _) (.of (State.modAuxJob_kept _ _ _) .refl)) .refl))
      · exact (.ite (.of (State.startPhases_kept _ _ _) .refl) .refl)))

theorem execAuxPhaseStart_kept (a1 : Word) (s : State) :
    OutKept (.aux :: reports) s (execAuxPhaseStart a1 s) := by
  delta execAuxPhaseStart
  split
  · exact (.next .refl)
  · split
    · exact (.next (.of (State.tryPhases_kept _ _) .refl))
    · exact (.ite (.next (.of (State.tryPhases_kept _ _) (.of (State.releaseHold_kept _ _) .refl))) (.next .refl))

theorem execAuxPhaseEnd_kept (a1 : Fin 3) (s : State) :
    OutKept (.aux :: reports) s (execAuxPhaseEnd a1 s) := by
  delta execAuxPhaseEnd
  extract_lets _ x3 x4 x5
  have h6 : Kept (.aux :: reports) s x3 := (.of (State.axisApplyDeferred_kept _ _) (.of (State.put_kept _ _ _) .refl))
  have h7 : Kept (.aux :: reports) s x5 := (.of (State.modAxis_kept _ _ _) h6)
  exact (.ite (.next .refl) (.ite (.next (.of (State.modAxis_kept _ _ _) h6)) (by
    clear_value x4
    split
    · exact (.next (.of (State.phaseDone_kept _ _ _ _) h7))
    · exact (.next h7))))

theorem execAuxDwellEnd_kept (a1 : Word) (s : State) :
    OutKept (.aux :: reports) s (execAuxDwellEnd a1 s) := by
  delta execAuxDwellEnd
  split
  · exact (.next .refl)
  · exact (.next (.fold (fun _ _ h2 => (.of (State.phaseDone_kept _ _ _ _) h2)) .refl))

theorem execAuxStopCmd_kept (a1 : Fin 3) (s : State) :
    OutKept (.aux :: reports) s (execAuxStopCmd a1 s) := by
  delta execAuxStopCmd
  exact (.ite (.next (.of (State.domainOffAccess_kept _ _) .refl)) (.ite (.next .refl) (by
    split
    · exact (.next (.of (State.auxFails_kept _ _ _ _ _ _) .refl))
    · exact (.next (.of (State.axisStop_kept _ _) .refl)))))

theorem execAuxClear_kept (a1 : Fin 3) (s : State) :
    OutKept (.aux :: reports) s (execAuxClear a1 s) := by
  delta execAuxClear
  extract_lets _
  exact (.ite (.next (.of (State.domainOffAccess_kept _ _) .refl)) (.ite (.next .refl) (.next (.of (State.modAxis_kept _ _ _) (.of (State.puts_kept _ _) .refl)))))

theorem execAuxHoldRetry_kept (a1 : Fin 32) (s : State) :
    OutKept (.aux :: reports) s (execAuxHoldRetry a1 s) := by
  delta execAuxHoldRetry
  exact (.ite (.next (.of (State.domainOffAccess_kept _ _) .refl)) (by
    split
    · exact (.next .refl)
    · extract_lets x2
      have h3 : Kept (.aux :: reports) s x2 := (.of (State.modAuxJob_kept _ _ _) .refl)
      exact (.ite (.next (.of (State.tryPhases_kept _ _) (.of (State.releaseHold_kept _ _) h3))) (.next h3))))

theorem execAuxHoldSkip_kept (a1 : Fin 32) (s : State) :
    OutKept (.aux :: reports) s (execAuxHoldSkip a1 s) := by
  delta execAuxHoldSkip
  extract_lets x2
  have h3 : Kept (.aux :: reports) s x2 := (.of (State.put_kept _ _ _) .refl)
  exact (.ite (.next (.of (State.domainOffAccess_kept _ _) .refl)) (by
    split
    · exact (.next .refl)
    · extract_lets _
      exact (.next (.of (State.auxComplete_kept _ _ _ _) h3))))

theorem State.axisDefer_kept (s : State) (a1 : ℕ) (a2 : ℕ) (a3 : ℕ) :
    Kept (.aux :: reports) s (State.axisDefer s a1 a2 a3) := by
  delta State.axisDefer
  extract_lets x4 x5
  have h6 : Kept (.aux :: reports) s x4 := (.of (State.count_kept _ _) (.of (State.put_kept _ _ _) .refl))
  have h7 : Kept (.aux :: reports) s x5 := (.of (State.modAxis_kept _ _ _) h6)
  exact (.of (State.raise_kept _ _ _) h7)

theorem State.axisUndefer_kept (s : State) (a1 : ℕ) (a2 : ℕ) :
    Kept [.regs, .aux] s (State.axisUndefer s a1 a2) := by
  delta State.axisUndefer
  extract_lets _
  exact (.of (State.put_kept _ _ _) (.of (State.modAxis_kept _ _ _) .refl))

theorem State.axisLimit_kept {P : List Part} {b : State} (s t : State) {n off : Nat} (h : Kept P b s) (k : Kept P b t)
    (hq : Part.allIn (.aux :: reports) P = true := by rfl) : Kept P b (s.axisLimit t n off) := by
  have hd : ∀ s, Kept P b s → ∀ v, Kept P b (s.axisDefer n off v) := fun s h v =>
    .of (State.axisDefer_kept _ _ _ _) h (Part.allIn_trans (by rfl) hq)
  have hu : ∀ n off, Kept P b (t.axisUndefer n off) := fun n off =>
    .of (State.axisUndefer_kept _ _ _) k (Part.allIn_trans (by rfl) hq)
  delta State.axisLimit
  dsimp only
  exact .ite (hu _ _) (.ite (hd _ h _) (.ite (hd _ h _) (hu _ _)))

theorem State.auxConfig_kept (s : State) (a1 : ℕ) (a2 : ℕ) (a3 : Bool) (a4 : BitVec 64) :
    Kept (.aux :: reports) s (State.auxConfig s a1 a2 a3 a4) := by
  delta State.auxConfig
  extract_lets x5 _ _ x8 _ _
  have h11 : Kept (.aux :: reports) s x5 := (.of (State.writeAny_kept _ _ _ _) .refl)
  have h12 : Kept (.aux :: reports) s x8 := (.of (State.puts_kept _ _) h11)
  exact (.ite (.of (State.raise_kept _ _ _) .refl) (.ite h12 (.of (State.modAxis_kept _ _ _) (.of (State.put_kept _ _ _) h12))))

theorem State.auxUpper_kept (s : State) (n o : Nat) (hi : BitVec 64) : Kept (.aux :: reports) s (s.auxUpper n o hi) :=
  .ite (State.axisLimit_kept _ _ .refl (.of (State.writeWord_kept _ _ _) .refl))
    (.ite (.of (State.writeWord_kept _ _ _) .refl) (.of (State.auxConfig_kept _ _ _ _ _) .refl))

theorem execAuxCfgWrite_kept (a1 : BitVec 25) (a2 : Bool) (a3 : BitVec 64) (s : State) :
    OutKept (.aux :: reports) s (execAuxCfgWrite a1 a2 a3 s) := by
  delta execAuxCfgWrite
  extract_lets _
  split
  · exact (.next .refl)
  · exact (.ite (.next .refl) (.ite (.next (.of (State.auxUpper_kept _ _ _ _) (.of (State.auxConfig_kept _ _ _ _ _) .refl))) (.next (.of (State.auxConfig_kept _ _ _ _ _) .refl))))

theorem execAuxLimitWrite_kept (off : BitVec 25) (wide : Bool) (v : BitVec 64) (s : State) :
    OutKept (.aux :: reports) s (execAuxLimitWrite off wide v s) := by
  have hw : ∀ s o w, Kept (.aux :: reports) s (State.writeWord s o w) := fun s o w => .of (State.writeWord_kept _ _ _) .refl
  delta execAuxLimitWrite
  dsimp only
  split
  · exact .next .refl
  · rename_i n _
    refine .ite (.next .refl) (.ite (.next (.ite ?_ ?_)) (.next (.ite (.of (State.writeAny_kept _ _ _ _) .refl) (.of (State.raise_kept _ _ _) .refl))))
    · have h1 := State.axisLimit_kept s _ (n := n) (off := off.toNat) .refl (hw s off.toNat (v.setWidth 32))
      exact State.axisLimit_kept _ _ h1 (.of (State.writeWord_kept _ _ _) h1)
    · exact State.axisLimit_kept _ _ .refl (hw _ _ _)

theorem State.addAux_kept (s : State) (a1 : AuxJob) :
    Kept [.aux] s (State.addAux s a1) := by
  delta State.addAux
  extract_lets _
  exact (.upd [.aux] .refl)

theorem execAux_kept (a1 : Desc) (s : State) :
    OutKept (.aux :: reports) s (execAux a1 s) := by
  delta execAux
  extract_lets _ _ _
  exact (.ite (.next .refl) (.next (State.withDesc_kept _ _ _ _ _ (fun _ _ h5 => (.of (State.tryPhases_kept _ _) (.of (State.addAux_kept _ _) h5))) .refl)))

theorem execRecoat_kept (a1 : Desc) (s : State) :
    OutKept (.aux :: reports) s (execRecoat a1 s) := by
  delta execRecoat
  extract_lets _ _ _
  exact (.ite (.next .refl) (.next (State.withDesc_kept _ _ _ _ _ (fun _ _ h5 => (by
      split
      · exact (.of (State.failRange_kept _ _ _ _) h5)
      · exact (.of (State.tryPhases_kept _ _) (.of (State.readPhases_kept _ _ _ _ _) (.of (State.addAux_kept _ _) h5))))) .refl)))

theorem State.auxAbort_kept (s : State) :
    Kept (.aux :: reports) s (State.auxAbort s) := by
  delta State.auxAbort
  extract_lets _ x2 x3 x4
  have h5 : Kept (.aux :: reports) s x2 := (.fold (fun _ _ h6 => (.of (State.stopAxes_kept _ _) h6)) .refl)
  have h7 : Kept (.aux :: reports) s x3 := (.of (State.axisStop_kept _ _) (.of (State.axisStop_kept _ _) (.of (State.axisStop_kept _ _) h5)))
  have h8 : Kept (.aux :: reports) s x4 := (.of (State.put_kept _ _ _) h7)
  exact (.fold (fun _ _ h9 => (.of (State.auxComplete_kept _ _ _ _) h9)) h8)

theorem State.auxWarm_kept (s : State) :
    Kept [.regs, .aux] s (State.auxWarm s) := by
  delta State.auxWarm
  extract_lets x1 _
  have h3 : Kept [.regs, .aux] s x1 := (.fold (fun _ _ h4 => (by
        extract_lets _
        exact (.of (State.modAxis_kept _ _ _) (.of (State.puts_kept _ _) h4)))) .refl)
  exact (.upd [.aux] h3)

end Sys2Proof.Machine
end

