-- ==== Sys2Proof/Laws/KeptService.lean ====
section
/-! SUPPORT. What each operation and each command may change, part by part: one lemma per definition. -/
namespace Sys2Proof.Machine

set_option Elab.async false

theorem committed_wf {rf : RegFile} (words : List (Nat × Nat)) (h : cellWf resetWord rf = true) :
    cellWf resetWord (committed rf words) = true := by
  induction words generalizing rf with
  | nil => exact h
  | cons p r ih =>
    simp only [committed, List.foldl_cons] at ih ⊢
    apply ih
    split
    · exact h
    · exact cellWf_set _ _ h

/-! ### Dram -/

theorem State.modMemCh_kept (s : State) (a1 : ℕ) (a2 : MemChannel → MemChannel) :
    Kept [.mem] s (State.modMemCh s a1 a2) := by
  delta State.modMemCh
  extract_lets _
  exact (.upd [.mem] .refl)

theorem State.modSub_kept (s : State) (a1 : ℕ) (a2 : SubChannel → SubChannel) :
    Kept [.mem] s (State.modSub s a1 a2) := by
  delta State.modSub
  extract_lets _
  exact (.upd [.mem] .refl)

theorem State.admitWaiting_kept (s : State) :
    Kept [.mem] s (State.admitWaiting s) := by
  delta State.admitWaiting
  extract_lets _ _ x3
  have h4 : Kept [.mem] s x3 := (.upd [.mem] .refl)
  exact (.fold (fun _ _ h5 => (.ite (.upd [.mem] h5) (.upd [.mem] h5))) h4)

theorem execDramRequest_kept (a1 : Fin 8) (a2 : BitVec 64) (a3 : Bool) (a4 : List Byte) (a5 : Bool) (a6 : BitVec 64) (s : State) :
    OutKept (.mem :: reports) s (execDramRequest a1 a2 a3 a4 a5 a6 s) := by
  delta execDramRequest
  extract_lets _ _ _ _ _ _
  exact (.ite (.next .refl) (.ite (.next (.of (State.raise_kept _ _ _) .refl)) (.next (.of (State.admitWaiting_kept _) (.upd [.mem] .refl)))))

theorem execRequestAged_kept (a1 : ℕ) (s : State) :
    OutKept (.mem :: reports) s (execRequestAged a1 s) := by
  delta execRequestAged
  extract_lets _
  split
  · exact (.next .refl)
  · extract_lets _ _ x5 _ _
    have h8 : Kept (.mem :: reports) s x5 := (.of (State.count_kept _ _) (.upd [.mem] .refl))
    exact (.ite (.next .refl) (.ite (.next (.of (State.raise_kept _ _ _) (.upd [.mem] h8))) (.next h8)))

theorem State.closeRows_kept (s : State) (a1 : ℕ) :
    Kept [.mem] s (State.closeRows s a1) := by
  delta State.closeRows
  exact (.of (State.modSub_kept _ _ _) (.of (State.modSub_kept _ _ _) .refl))

theorem State.refresh_kept (s : State) (a1 : ℕ) (a2 : ℕ) :
    Kept (.mem :: reports) s (State.refresh s a1 a2) := by
  delta State.refresh
  extract_lets _
  exact (.of (State.countBy_kept _ _ _) (.of (State.modMemCh_kept _ _ _) (.of (State.closeRows_kept _ _) .refl)))

theorem State.refreshOwed_kept (s : State) (a1 : ℕ) :
    Kept (.mem :: reports) s (State.refreshOwed s a1) := by
  delta State.refreshOwed
  extract_lets _
  exact (.of (State.refresh_kept _ _ _) (.of (State.modMemCh_kept _ _ _) .refl))

theorem State.flushOwed_kept (s : State) (a1 : ℕ) :
    Kept (.mem :: reports) s (State.flushOwed s a1) := by
  delta State.flushOwed
  extract_lets _
  exact (.ite .refl (.of (State.raise_kept _ _ _) (.of (State.countBy_kept _ _ _) (.of (State.refreshOwed_kept _ _) .refl))))

theorem State.refreshNow_kept (s : State) (a1 : ℕ) :
    Kept (.mem :: reports) s (State.refreshNow s a1) := by
  delta State.refreshNow
  extract_lets x2 x3
  have h4 : Kept (.mem :: reports) s x2 := (.of (State.modMemCh_kept _ _ _) .refl)
  have h5 : Kept (.mem :: reports) s x3 := (.of (State.modMemCh_kept _ _ _) h4)
  exact (.ite (.ite (.of (State.refreshOwed_kept _ _) h5) h5) (.of (State.refresh_kept _ _ _) h4))

theorem execRefreshDue_kept (a1 : Fin 6) (s : State) :
    OutKept (.mem :: reports) s (execRefreshDue a1 s) := by
  delta execRefreshDue
  exact (.next (.ite (.of (State.refreshNow_kept _ _) .refl) .refl))

theorem execRefreshBurst_kept (a1 : Fin 6) (s : State) :
    OutKept (.mem :: reports) s (execRefreshBurst a1 s) := by
  delta execRefreshBurst
  extract_lets _
  exact (.next (.ite (.of (State.refreshOwed_kept _ _) .refl) .refl))

theorem execMemThermPoll_kept (a1 : Fin 6) (a2 : Bool) (a3 : Byte) (s : State) :
    OutKept (.mem :: reports) s (execMemThermPoll a1 a2 a3 s) := by
  delta execMemThermPoll
  extract_lets _ x5 x6 x7
  have h8 : Kept (.mem :: reports) s x5 := (.of (State.modMemCh_kept _ _ _) .refl)
  have h9 : Kept (.mem :: reports) s x6 := (.of (State.raise_kept _ _ _) (.of (State.put_kept _ _ _) h8))
  have h10 : Kept (.mem :: reports) s x7 := (.of (State.modMemCh_kept _ _ _) .refl)
  exact (.ite (.next .refl) (.ite (.ite (.next h8) (.next (.ite (.of (State.flushOwed_kept _ _) h9) h9))) (.ite (.next (.ite (.of (State.raise_kept _ _ _) (.of (State.modMemCh_kept _ _ _) (.of (State.put_kept _ _ _) h10))) h10)) (.next .refl))))

theorem execMemRefModeWrite_kept (a1 : Word) (s : State) :
    OutKept (.mem :: reports) s (execMemRefModeWrite a1 s) := by
  delta execMemRefModeWrite
  extract_lets x2
  have h3 : Kept (.mem :: reports) s x2 := (.of (State.writeWord_kept _ _ _) .refl)
  exact (.next (.ite (.fold (fun _ _ h4 => (.of (State.flushOwed_kept _ _) h4)) h3) h3))

theorem State.serve_kept (s : State) (a1 : MemReq) :
    Kept (.dram :: .mem :: reports) s (State.serve s a1) := by
  delta State.serve
  extract_lets _ _ x4 _ _
  have h7 : Kept (.dram :: .mem :: reports) s x4 := (.upd [.mem] .refl)
  split
  · exact (.of (State.admitWaiting_kept _) (.upd [.mem] h7))
  · exact (.of (State.admitWaiting_kept _) (.of (State.modMemCh_kept _ _ _) (.of (State.count_kept _ _) (.of (State.writeBurst_kept _ _ _ _ _) h7))))

theorem State.command_kept (s : State) (a1 : ℕ) (a2 : MemReq) :
    Kept (.dram :: .mem :: reports) s (State.command s a1 a2) := by
  delta State.command
  extract_lets _ _
  split
  · exact (.ite (.of (State.serve_kept _ _) (.of (State.modSub_kept _ _ _) .refl)) (.of (State.modSub_kept _ _ _) .refl))
  · exact (.of (State.count_kept _ _) (.of (State.modSub_kept _ _ _) .refl))

theorem execDramPick_kept (a1 : Fin 6) (a2 : Fin 2) (a3 : List ℕ) (s : State) :
    OutKept (.dram :: .mem :: reports) s (execDramPick a1 a2 a3 s) := by
  delta execDramPick
  extract_lets _ _ x6 _ _ _
  have h10 : Kept (.dram :: .mem :: reports) s x6 := (.of (State.modSub_kept _ _ _) .refl)
  exact (.ite (.next .refl) (.ite (.next (.of (State.refreshNow_kept _ _) .refl)) (by
    split
    · exact (.next h10)
    · exact (.next (.of (State.command_kept _ _ _) h10)))))

theorem State.beginInstance_kept (s : State) (a1 : ℕ) (a2 : ℕ) (a3 : ℕ) (a4 : ℕ) :
    Kept [.regs] s (State.beginInstance s a1 a2 a3 a4) := by
  delta State.beginInstance
  exact (.of (State.puts_kept _ _) .refl)

theorem State.restartTraining_kept (s : State) :
    Kept [.regs, .mem] s (State.restartTraining s) := by
  delta State.restartTraining
  extract_lets x1
  have h2 : Kept [.regs, .mem] s x1 := (.fold (fun _ _ h3 => (.of (State.beginInstance_kept _ _ _ _ _) (.of (State.modMemCh_kept _ _ _) h3))) .refl)
  exact (.of (State.puts_kept _ _) h2)

theorem State.startTraining_kept (s : State) :
    Kept [.regs, .dram, .mem] s (State.startTraining s) := by
  delta State.startTraining
  extract_lets _ _ _ _ x5 x6
  have h7 : Kept [.regs, .dram, .mem] s x5 := (.upd [.dram, .mem] .refl rfl rfl (.inl rfl) (.inl rfl) (.inr fun w => by first | (dsimp only; exact rfl) | exact rfl))
  have h8 : Kept [.regs, .dram, .mem] s x6 := (.fold (fun _ _ h9 => (.of (State.modMemCh_kept _ _ _) (.of (State.put_kept _ _ _) h9))) h7)
  exact (.of (State.restartTraining_kept _) (.of (State.puts_kept _ _) h8))

theorem State.discardInstance_kept (s : State) (a1 : ℕ) (a2 : ℕ) :
    Kept (.mem :: reports) s (State.discardInstance s a1 a2) := by
  delta State.discardInstance
  extract_lets x3 _ _ _ x7
  have h8 : Kept (.mem :: reports) s x3 := (.of (State.put_kept _ _ _) .refl)
  have h9 : Kept (.mem :: reports) s x7 := (.of (State.put_kept _ _ _) (.upd [.mem] h8))
  exact (.ite h8 (.of (State.raise_kept _ _ _) (.of (State.restartTraining_kept _) h9)))

theorem State.trainingOver_kept (s : State) :
    Kept [.regs, .mem] s (State.trainingOver s) := by
  delta State.trainingOver
  extract_lets x1 _
  have h3 : Kept [.regs, .mem] s x1 := (.of (State.put_kept _ _ _) .refl)
  exact (.ite (.of (State.put_kept _ _ _) .refl) (.ite (.upd [.mem] h3) (.of (State.put_kept _ _ _) h3)))

theorem State.channelFails_kept (s : State) (a1 : ℕ) (a2 : ℕ) (a3 : List (ℕ × ℕ)) :
    Kept (.mem :: reports) s (State.channelFails s a1 a2 a3) := by
  delta State.channelFails
  extract_lets x4
  have h5 : Kept (.mem :: reports) s x4 := (.of (State.modMemCh_kept _ _ _) (.of (State.put_kept _ _ _) .refl))
  exact (.of (State.trainingOver_kept _) (.of (State.raise_kept _ _ _) h5))

theorem State.nextInstance_kept (s : State) (a1 : ℕ) :
    Kept [.regs, .mem] s (State.nextInstance s a1) := by
  delta State.nextInstance
  extract_lets _ _
  exact (.ite (.of (State.trainingOver_kept _) (.of (State.beginInstance_kept _ _ _ _ _) .refl)) (.ite (.of (State.trainingOver_kept _) (.of (State.beginInstance_kept _ _ _ _ _) .refl)) (.of (State.trainingOver_kept _) (.of (State.modMemCh_kept _ _ _) .refl))))

theorem execDramTrainInstanceEnd_kept (a1 : Fin 6) (a2 : Fin 2) (a3 : Option (Byte × Word)) (a4 : Bool) (a5 : Byte) (a6 : BitVec 40) (a7 : BitVec 40) (a8 : List Word) (s : State) :
    OutKept (.mem :: reports) s (execDramTrainInstanceEnd a1 a2 a3 a4 a5 a6 a7 a8 s) := by
  delta execDramTrainInstanceEnd
  extract_lets _ x10 x11 x12 x13 _
  have h15 : Kept (.mem :: reports) s x10 := (.of (State.puts_kept _ _) .refl)
  have h16 : Kept (.mem :: reports) s x11 := (.fold (fun _ _ h17 => (.upd [.regs] h17 rfl rfl (.inr fun w => by first | (dsimp only; exact (cellWf_set _ _ w)) | exact (cellWf_set _ _ w)) (.inl rfl) (.inl rfl))) h15)
  have h18 : Kept (.mem :: reports) s x13 := (.of (State.put_kept _ _ _) h16)
  exact (.ite (.next .refl) (by
    split
    · exact (.next (.of (State.discardInstance_kept _ _ _) .refl))
    · clear_value x12
      split
      · exact (.next (.of (State.channelFails_kept _ _ _ _) (.of (State.put_kept _ _ _) h16)))
      · exact (.ite (.next (.of (State.nextInstance_kept _ _) (.of (State.put_kept _ _ _) h16))) (.next (.ite (.of (State.beginInstance_kept _ _ _ _ _) h18) (.of (State.channelFails_kept _ _ _ _) h18))))))

theorem execDramInitDone_kept (s : State) :
    OutKept (.dram :: .mem :: reports) s (execDramInitDone s) := by
  delta execDramInitDone
  extract_lets _ _ _ x4 _ x6 x7
  have h8 : Kept (.dram :: .mem :: reports) s x4 := (.upd [.dram, .mem] .refl rfl rfl (.inl rfl) (.inl rfl) (.inr fun w => by first | (dsimp only; exact rfl) | exact rfl))
  have h9 : Kept (.dram :: .mem :: reports) s x6 := (.fold (fun _ _ h10 => (.of (State.modMemCh_kept _ _ _) h10)) h8)
  have h11 : Kept (.dram :: .mem :: reports) s x7 := (.of (State.puts_kept _ _) h9)
  exact (.ite (.next .refl) (.next (.of (State.raise_kept _ _ _) (.of (State.showConfig_kept _) h11))))

theorem State.dropStaged_kept (s : State) :
    Kept [.regs, .box, .store] s (State.dropStaged s) := by
  delta State.dropStaged
  extract_lets _ _ _ _ x5
  have h6 : Kept [.regs, .box, .store] s x5 := (.upd [.box, .store] .refl)
  exact (.of (State.showStore_kept _) h6)

theorem execDramRetrainStart_kept (s : State) :
    OutKept [.regs, .dram, .box, .store, .mem] s (execDramRetrainStart s) := by
  delta execDramRetrainStart
  extract_lets _
  exact (.ite (.next (.of (State.startTraining_kept _) (.of (State.dropStaged_kept _) (.upd [.mem] .refl)))) (.next .refl))

theorem execMemRetrainWrite_kept (a1 : Word) (s : State) :
    OutKept (.mem :: reports) s (execMemRetrainWrite a1 s) := by
  delta execMemRetrainWrite
  extract_lets _ _
  exact (.next (.of (State.writeWord_kept _ _ _) (.upd [.mem] .refl)))

theorem execMemRateWrite_kept (a1 : Word) (s : State) :
    OutKept (.mem :: reports) s (execMemRateWrite a1 s) := by
  delta execMemRateWrite
  extract_lets x2 _ _ _
  have h6 : Kept (.mem :: reports) s x2 := (.of (State.writeWord_kept _ _ _) .refl)
  exact (.ite (.next (.of (State.put_kept _ _ _) (.upd [.mem] h6))) (.next h6))

/-! ### Integrity -/

theorem State.showErase_kept (s : State) :
    Kept [.regs] s (State.showErase s) := by
  delta State.showErase
  exact (.of (State.put_kept _ _ _) .refl)

theorem State.startSweep_kept (s : State) (a1 : ℕ) (a2 : ℕ) (a3 : Bool) :
    Kept (.mem :: reports) s (State.startSweep s a1 a2 a3) := by
  delta State.startSweep
  extract_lets x4 _
  have h6 : Kept (.mem :: reports) s x4 := (.of (State.setErase_kept _ _ _) .refl)
  exact (.ite .refl (.ite (.of (State.raise_kept _ _ _) .refl) (.of (State.raise_kept _ _ _) (.upd [.mem] h6))))

theorem State.dropSweep_kept (s : State) (a1 : ℕ) :
    Kept [.regs, .mem] s (State.dropSweep s a1) := by
  delta State.dropSweep
  extract_lets _
  exact (.of (State.showErase_kept _) (.upd [.mem] .refl))

theorem State.abandonSweep_kept (s : State) (a1 : ℕ) :
    Kept (.mem :: reports) s (State.abandonSweep s a1) := by
  delta State.abandonSweep
  extract_lets x2 _
  have h4 : Kept (.mem :: reports) s x2 := (.of (State.setErase_kept _ _ _) (.of (State.dropSweep_kept _ _) .refl))
  exact (.of (State.raise_kept _ _ _) (.upd [.mem] h4))

theorem State.sweepFinds_kept (s : State) (a1 : ℕ) :
    Kept (.mem :: reports) s (State.sweepFinds s a1) := by
  delta State.sweepFinds
  extract_lets _ _
  exact (.ite (.ite (.of (State.listPoison_kept _ _) .refl) (.of (State.abandonSweep_kept _ _) .refl)) .refl)

theorem execIntEraseReqGo_kept (a1 : Word) (s : State) :
    OutKept (.mem :: reports) s (execIntEraseReqGo a1 s) := by
  delta execIntEraseReqGo
  extract_lets x2 _ _ _ _
  have h7 : Kept (.mem :: reports) s x2 := (.of (State.writeWord_kept _ _ _) .refl)
  exact (.ite (.next (.of (State.domainOffAccess_kept _ _) .refl)) (.ite (.next h7) (.ite (.next (.of (State.showErase_kept _) h7)) (.next (.of (State.showErase_kept _) (.of (State.startSweep_kept _ _ _ _) h7))))))

theorem State.noteCorrected_kept (s : State) (a1 : ℕ) :
    Kept [.mem] s (State.noteCorrected s a1) := by
  delta State.noteCorrected
  extract_lets _
  exact (.upd [.mem] .refl)

theorem State.countDevice_kept (s : State) (a1 : ℕ) (a2 : ℕ) :
    Kept (.mem :: reports) s (State.countDevice s a1 a2) := by
  delta State.countDevice
  extract_lets _ _ _ _ x7
  have h8 : Kept (.mem :: reports) s x7 := (.upd [.mem] .refl)
  exact (.ite (.of (State.startSweep_kept _ _ _ _) h8) h8)

theorem State.readBurst_kept (s : State) (a1 : ℕ) (a2 : ℕ) (a3 : List (Fin 80 × Byte)) :
    Kept (.dram :: .mem :: reports) s (State.readBurst s a1 a2 a3).1 := by
  delta State.readBurst
  extract_lets _ _ x6 x7 x8 _ x10
  have h11 : Kept (.dram :: .mem :: reports) s x6 := (.ite .refl (.of (State.storeWord_kept _ _ _) .refl))
  have h12 : Kept (.dram :: .mem :: reports) s x8 := (.ite (.of (State.count_kept _ _) h11) h11)
  have h13 : Kept (.dram :: .mem :: reports) s x10 := (.ite h12 (.of (State.raise_kept _ _ _) (.of (State.count_kept _ _) (.upd [.mem] h12))))
  clear_value x7
  split
  · exact h12
  · exact (.of (State.sweepFinds_kept _ _) h12)
  · extract_lets x14 _
    have h16 : Kept (.dram :: .mem :: reports) s x14 := (.of (State.noteCorrected_kept _ _) (.of (State.countBy_kept _ _ _) (.of (State.count_kept _ _) h12)))
    exact (.ite (.of (State.countDevice_kept _ _ _) h16) h16)
  · exact (.of (State.sweepFinds_kept _ _) h13)

theorem execErasureSweepEnd_kept (a1 : Fin 6) (a2 : Fin 2) (a3 : Fin 2) (s : State) :
    OutKept (.dram :: .mem :: reports) s (execErasureSweepEnd a1 a2 a3 s) := by
  delta execErasureSweepEnd
  extract_lets _ x5 _ _
  have h8 : Kept (.dram :: .mem :: reports) s x5 := (.fold (fun _ _ h9 => (.of (State.readBurst_kept _ _ _ _) h9)) .refl)
  split
  · exact (.next .refl)
  · extract_lets x10 x11
    have h12 : Kept (.dram :: .mem :: reports) s x10 := (.of (State.setErase_kept _ _ _) (.of (State.dropSweep_kept _ _) h8))
    have h13 : Kept (.dram :: .mem :: reports) s x11 := (.fold (fun _ _ h14 => (.of (State.storeWord_kept _ _ _) h14)) h12)
    exact (.ite (.next h8) (.next (.of (State.raise_kept _ _ _) h13)))

theorem State.queueRepair_kept (s : State) (a1 : ℕ) :
    Kept (.mem :: reports) s (State.queueRepair s a1) := by
  delta State.queueRepair
  extract_lets _ _
  exact (.ite .refl (.ite (.of (State.count_kept _ _) .refl) (.upd [.mem] .refl)))

theorem execRepairWrite_kept (a1 : Fin 6) (s : State) :
    OutKept (.mem :: reports) s (execRepairWrite a1 s) := by
  delta execRepairWrite
  extract_lets _
  split
  · exact (.next .refl)
  · extract_lets x3
    have h4 : Kept (.mem :: reports) s x3 := (.upd [.mem] .refl)
    exact (.next (.of (State.rewrite_kept _ _ _) h4))

theorem State.poisonLedger_kept (s : State) (a1 : ℕ) (a2 : ℕ) :
    Kept [.store] s (State.poisonLedger s a1 a2) := by
  delta State.poisonLedger
  extract_lets _ _ _
  exact (.upd [.store] .refl)

theorem execDramReadReturn_kept (a1 : BitVec 64) (a2 : List (Fin 80 × Byte)) (a3 : Option Byte) (s : State) :
    OutKept (.dram :: .store :: .mem :: reports) s (execDramReadReturn a1 a2 a3 s) := by
  delta execDramReadReturn
  extract_lets _ _ _
  split
  · exact (.next .refl)
  · extract_lets x7 x8 _ x10 _ x12 x13 x14
    have h15 : Kept (.dram :: .store :: .mem :: reports) s x7 := (.of (State.count_kept _ _) (.upd [.mem] .refl))
    have h16 : Kept (.dram :: .store :: .mem :: reports) s x8 := (.ite (.of (State.count_kept _ _) h15) h15)
    have h17 : Kept (.dram :: .store :: .mem :: reports) s x10 := (.of (State.modMemCh_kept _ _ _) h16)
    have h18 : Kept (.dram :: .store :: .mem :: reports) s x12 := by
      unfold x12
      split
      · exact (.of (State.queueRepair_kept _ _) (.of (State.readBurst_kept _ _ _ _) h17))
      · exact (.of (State.queueRepair_kept _ _) (.of (State.readBurst_kept _ _ _ _) h17))
      · exact (.of (State.readBurst_kept _ _ _ _) h17)
    have h19 : Kept (.dram :: .store :: .mem :: reports) s x13 := (.ite (by
        split
        · exact (.of (State.poisonLedger_kept _ _ _) h18)
        · exact h18) h18)
    have h20 : Kept (.dram :: .store :: .mem :: reports) s x14 := by
      unfold x14
      split
      · exact (.ite (.of (State.consumePoison_kept _ _ _) h19) h19)
      · exact h19
    exact (.next (.of (State.admitWaiting_kept _) h20))

theorem State.scrubLedger_kept (s : State) (a1 : ℕ) :
    Kept (.box :: .store :: .seq :: .tid :: .csc :: .mem :: reports) s (State.scrubLedger s a1) := by
  delta State.scrubLedger
  split
  · exact .refl
  · extract_lets x2 _ _ _
    have h6 : Kept (.box :: .store :: .seq :: .tid :: .csc :: .mem :: reports) s x2 := (.of (State.poisonLedger_kept _ _ _) .refl)
    exact (.ite (.ite h6 (.of (State.loseLedger_kept _ _) h6)) (.of (State.raise_kept _ _ _) (.of (State.rewrite_kept _ _ _) (.upd [.store] h6))))

theorem State.scrubReserve_kept (s : State) (a1 : ℕ) :
    Kept (.dram :: .box :: .store :: .tid :: .csc :: .mem :: reports) s (State.scrubReserve s a1) := by
  delta State.scrubReserve
  extract_lets _ x3
  have h4 : Kept (.dram :: .box :: .store :: .tid :: .csc :: .mem :: reports) s x3 := (.of (State.writeBurst_kept _ _ _ _ _) .refl)
  split
  · exact h4
  · exact (.of (State.demandAgain_kept _ _) h4)

theorem State.scrubActs_kept (s : State) (a1 : ℕ) :
    Kept (.dram :: .box :: .store :: .seq :: .tid :: .csc :: .mem :: reports) s (State.scrubActs s a1) := by
  delta State.scrubActs
  split
  · split
    · split
      · exact (.of (State.loseTile_kept _ _ _ _) .refl)
      · exact .refl
    · exact .refl
  · exact (.of (State.scrubLedger_kept _ _) .refl)
  · exact (.of (State.scrubReserve_kept _ _) .refl)
  · exact .refl

theorem State.scrubOn_kept (s : State) :
    Kept (.mem :: reports) s (State.scrubOn s) := by
  delta State.scrubOn
  extract_lets _ _ _ x4 _
  have h6 : Kept (.mem :: reports) s x4 := (.of (State.puts_kept _ _) .refl)
  exact (.ite (.of (State.put_kept _ _ _) .refl) (.of (State.raise_kept _ _ _) (.upd [.mem] h6)))

theorem execScrubStep_kept (a1 : List (Fin 80 × Byte)) (s : State) :
    OutKept (.dram :: .box :: .store :: .seq :: .tid :: .csc :: .mem :: reports) s (execScrubStep a1 s) := by
  delta execScrubStep
  extract_lets _ _ x4 _ x6 _ x8
  have h9 : Kept (.dram :: .box :: .store :: .seq :: .tid :: .csc :: .mem :: reports) s x4 := (.of (State.rewrite_kept _ _ _) (.of (State.readBurst_kept _ _ _ _) .refl))
  have h10 : Kept (.dram :: .box :: .store :: .seq :: .tid :: .csc :: .mem :: reports) s x6 := (.of (State.rewrite_kept _ _ _) (.of (State.readBurst_kept _ _ _ _) .refl))
  have h11 : Kept (.dram :: .box :: .store :: .seq :: .tid :: .csc :: .mem :: reports) s x8 := by
    unfold x8
    split
    · exact (.of (State.readBurst_kept _ _ _ _) .refl)
    · exact (.upd [.mem] h9)
    · exact (.of (State.scrubActs_kept _ _) (.of (State.readBurst_kept _ _ _ _) .refl))
    · exact (.of (State.scrubActs_kept _ _) (.upd [.mem] h10))
  exact (.ite (.next .refl) (.next (.of (State.scrubOn_kept _) h11)))

theorem State.noteSram_kept (s : State) :
    Kept [.mem] s (State.noteSram s) := by
  delta State.noteSram
  extract_lets _
  exact (.upd [.mem] .refl)

theorem State.reportCorrected_kept (s : State) :
    Kept (.mem :: reports) s (State.reportCorrected s) := by
  delta State.reportCorrected
  extract_lets x1 _ _
  have h4 : Kept (.mem :: reports) s x1 := (.fold (fun _ _ h5 => (by
        extract_lets _ _
        exact (.ite (.of (State.raise_kept _ _ _) (.upd [.mem] h5)) h5))) .refl)
  exact (.ite (.of (State.raise_kept _ _ _) (.upd [.mem] h4)) h4)

theorem State.sramLost_kept (s : State) (a1 : ℕ) (a2 : ℕ) :
    Kept (.mem :: reports) s (State.sramLost s a1 a2) := by
  delta State.sramLost
  extract_lets _
  exact (.ite .refl (.of (State.raise_kept _ _ _) (.upd [.mem] .refl)))

theorem State.sramRead_kept (s : State) (a1 : ℕ) (a2 : ℕ) (a3 : ℕ) :
    Kept (.mem :: reports) s (State.sramRead s a1 a2 a3) := by
  delta State.sramRead
  exact (.ite .refl (.ite (.of (State.noteSram_kept _) (.of (State.count_kept _ _) .refl)) (.of (State.sramLost_kept _ _ _) (.of (State.count_kept _ _) .refl))))

theorem execSramPatrol_kept (a1 : Bool) (a2 : Byte) (a3 : Word) (a4 : BitVec 13) (s : State) :
    OutKept (.mem :: reports) s (execSramPatrol a1 a2 a3 a4 s) := by
  delta execSramPatrol
  extract_lets _ _ x7 _
  have h9 : Kept (.mem :: reports) s x7 := (.of (State.sramRead_kept _ _ _ _) .refl)
  exact (.ite (.next .refl) (.ite (.next h9) (.next (.of (State.count_kept _ _) (.upd [.mem] h9)))))

theorem State.refuseTest_kept (s : State) (a1 : ℕ) :
    Kept reports s (State.refuseTest s a1) := by
  delta State.refuseTest
  exact (.of (State.raise_kept _ _ _) (.of (State.puts_kept _ _) .refl))

theorem State.setSymbols_kept (s : State) (a1 : List ℕ) :
    Kept [.regs] s (State.setSymbols s a1) := by
  delta State.setSymbols
  exact (.fold (fun _ _ h2 => (.of (State.put_kept _ _ _) h2)) .refl)

theorem State.testDone_kept (s : State) (a1 : ℕ) :
    Kept [.regs] s (State.testDone s a1) := by
  delta State.testDone
  exact (.of (State.puts_kept _ _) .refl)

theorem execTestRawDramWrite_kept (s : State) :
    OutKept (.dram :: .mem :: reports) s (execTestRawDramWrite s) := by
  delta execTestRawDramWrite
  exact (.ite (.next (.of (State.domainOffAccess_kept _ _) .refl)) (.ite (.next (.of (State.refuseTest_kept _ _) .refl)) (.ite (.next (.of (State.raise_kept _ _ _) (.of (State.testDone_kept _ _) .refl))) (.next (.of (State.testDone_kept _ _) (.of (State.storeWord_kept _ _ _) .refl))))))

theorem execTestRawDramRead_kept (s : State) :
    OutKept reports s (execTestRawDramRead s) := by
  delta execTestRawDramRead
  extract_lets _ _
  exact (.ite (.next (.of (State.domainOffAccess_kept _ _) .refl)) (.ite (.next (.of (State.refuseTest_kept _ _) .refl)) (.ite (.next (.of (State.raise_kept _ _ _) (.of (State.put_kept _ _ _) (.of (State.testDone_kept _ _) .refl)))) (.next (.of (State.put_kept _ _ _) (.of (State.testDone_kept _ _) (.of (State.setSymbols_kept _ _) .refl)))))))

theorem execTestEncode_kept (s : State) :
    OutKept reports s (execTestEncode s) := by
  delta execTestEncode
  exact (.ite (.next (.of (State.domainOffAccess_kept _ _) .refl)) (.ite (.next (.of (State.refuseTest_kept _ _) .refl)) (.next (.of (State.testDone_kept _ _) (.of (State.setSymbols_kept _ _) .refl)))))

theorem execTestRawSramWrite_kept (s : State) :
    OutKept (.mem :: reports) s (execTestRawSramWrite s) := by
  delta execTestRawSramWrite
  extract_lets _ _ _ _
  exact (.ite (.next (.of (State.domainOffAccess_kept _ _) .refl)) (.ite (.next (.of (State.refuseTest_kept _ _) .refl)) (.next (.of (State.testDone_kept _ _) (.upd [.mem] .refl)))))

theorem execTestRawSramRead_kept (s : State) :
    OutKept (.mem :: reports) s (execTestRawSramRead s) := by
  delta execTestRawSramRead
  extract_lets _ _ _
  exact (.ite (.next (.of (State.domainOffAccess_kept _ _) .refl)) (.ite (.next (.of (State.refuseTest_kept _ _) .refl)) (.next (.of (State.puts_kept _ _) (.of (State.testDone_kept _ _) (.of (State.sramRead_kept _ _ _ _) .refl))))))

theorem execCheckScan_kept (a1 : Desc) (s : State) :
    OutKept (.mem :: reports) s (execCheckScan a1 s) := by
  delta execCheckScan
  extract_lets _ _
  exact (.ite (.next .refl) (.next (State.withDesc_kept _ _ _ _ _ (fun _ _ h4 => (by
      extract_lets _ _
      exact (.upd [.mem] h4))) .refl)))

theorem State.endScan_kept (s : State) (a1 : ScanJob) (a2 : ℕ) (a3 : ℕ) (a4 : ℕ) (a5 : ℕ) :
    Kept (.mem :: reports) s (State.endScan s a1 a2 a3 a4 a5) := by
  delta State.endScan
  extract_lets _ x7 _ x9 x10
  have h11 : Kept (.mem :: reports) s x7 := (.ite (.of (State.put_kept _ _ _) .refl) .refl)
  have h12 : Kept (.mem :: reports) s x9 := (.upd [.mem] h11)
  have h13 : Kept (.mem :: reports) s x10 := (.of (State.raise_kept _ _ _) h12)
  exact (.of (State.complete_kept _ _ _ _ _) h13)

theorem execCheckScanEnd_kept (a1 : ScanEnd) (s : State) :
    OutKept (.mem :: reports) s (execCheckScanEnd a1 s) := by
  delta execCheckScanEnd
  split
  · exact (.next .refl)
  · exact (.ite (.next .refl) (.ite (.next (.of (State.endScan_kept _ _ _ _ _ _) (.of (State.raise_kept _ _ _) .refl))) (.ite (by
      split
      · exact (.next (.of (State.endScan_kept _ _ _ _ _ _) (.of (State.consumePoison_kept _ _ _) .refl)))
      · exact (.next (.of (State.endScan_kept _ _ _ _ _ _) .refl))) (by
      split
      · extract_lets _
        exact (.next (.of (State.endScan_kept _ _ _ _ _ _) (.of (State.consumeFlagged_kept _ _) .refl)))
      · exact (.next (.of (State.endScan_kept _ _ _ _ _ _) .refl))))))

theorem execIntChkValWrite_kept (a1 : BitVec 25) (a2 : Bool) (a3 : BitVec 64) (s : State) :
    OutKept reports s (execIntChkValWrite a1 a2 a3 s) := by
  delta execIntChkValWrite
  extract_lets _ _ x6
  have h7 : Kept reports s x6 := (.of (State.writeAny_kept _ _ _ _) .refl)
  exact (.ite (.next .refl) (.ite (.next (.of (State.domainOffAccess_kept _ _) .refl)) (.ite (.next (.of (State.raise_kept _ _ _) .refl)) (.next (.of (State.put_kept _ _ _) h7)))))

theorem State.abortScans_kept (s : State) :
    Kept (.mem :: .free :: reports) s (State.abortScans s) := by
  delta State.abortScans
  exact (.fold (fun _ _ h1 => (.ite (by
      split
      · rename_i a2 a3 e4
        have h5 : Kept (.mem :: .free :: reports) s a3 := by
          have k0 := congrArg Prod.snd e4
          rw [← show _ = a3 from k0]
          exact (.of (State.draw_kept _) h1)
        extract_lets _ _
        exact (.of (State.endScan_kept _ _ _ _ _ _) h5)) (.of (State.endScan_kept _ _ _ _ _ _) h1))) .refl)

/-! ### NetTime -/

theorem State.showTimePort_kept (s : State) (a1 : ℕ) :
    Kept [.regs, .free] s (State.showTimePort s a1) := by
  delta State.showTimePort
  extract_lets _ _ x4
  have h5 : Kept [.regs, .free] s x4 := (.of (State.puts_kept _ _) .refl)
  split
  · extract_lets _ _ x8 _
    have h10 : Kept [.regs, .free] s x8 := (.of (State.put_kept _ _ _) h5)
    exact (.ite (.of (State.put_kept _ _ _) h10) (.of (State.put_kept _ _ _) (.of (State.draw_kept _) h10)))
  · exact h5

theorem State.watchMasters_kept (s : State) :
    Kept reports s (State.watchMasters s) := by
  delta State.watchMasters
  extract_lets _ _ _ x4 x5 _ _
  have h8 : Kept reports s x4 := (.upd [.time] .refl)
  have h9 : Kept reports s x5 := (.ite (.of (State.timeEvent_kept _ _ _) h8) h8)
  split
  · exact h9
  · split
    · exact h9
    · extract_lets x10
      have h11 : Kept reports s x10 := (.upd [.time] h9)
      exact (.ite (.of (State.timeEvent_kept _ _ _) h11) h11)

theorem State.followPorts_kept (s : State) :
    Kept reports s (State.followPorts s) := by
  delta State.followPorts
  extract_lets _ _ x3
  have h4 : Kept reports s x3 := (.of (State.watchMasters_kept _) .refl)
  exact (.ite .refl (.ite (.ite (.of (State.put_kept _ _ _) h4) (.of (State.causeClears_kept _ _) h4)) (.ite (.of (State.freeClock_kept _) h4) (.ite (.of (State.holdover_kept _ _) h4) h4))))

theorem State.portBecomes_kept (s : State) (a1 : ℕ) (a2 : ℕ) :
    Kept [.regs, .time, .free] s (State.portBecomes s a1 a2) := by
  delta State.portBecomes
  exact (.of (State.showTimePort_kept _ _) (.of (State.modTime_kept _ _ _) .refl))

theorem State.refreshPort_kept (s : State) (a1 : ℕ) :
    Kept [.regs, .time, .free] s (State.refreshPort s a1) := by
  delta State.refreshPort
  extract_lets _ _ _ x5
  have h6 : Kept [.regs, .time, .free] s x5 := (.of (State.modTime_kept _ _ _) .refl)
  exact (.ite .refl (.of (State.portBecomes_kept _ _ _) h6))

theorem State.refreshPorts_kept (s : State) :
    Kept (.free :: reports) s (State.refreshPorts s) := by
  delta State.refreshPorts
  exact (.of (State.followPorts_kept _) (.of (State.refreshPort_kept _ _) (.of (State.refreshPort_kept _ _) .refl)))

theorem State.acquire_kept (s : State) :
    Kept (.clock :: reports) s (State.acquire s) := by
  delta State.acquire
  extract_lets _
  split
  · exact .refl
  · extract_lets x2
    have h3 : Kept (.clock :: reports) s x2 := (.of (State.put_kept _ _ _) (.of (State.stepClock_kept _ _ _) .refl))
    exact (.ite .refl (.of (State.timeEvent_kept _ _ _) h3))

theorem State.armedStepNow_kept (s : State) :
    Kept (.clock :: reports) s (State.armedStepNow s) := by
  delta State.armedStepNow
  extract_lets _ _
  split
  · exact .refl
  · extract_lets x3 x4 _ x6
    have h7 : Kept (.clock :: reports) s x3 := (.of (State.stepClock_kept _ _ _) .refl)
    have h8 : Kept (.clock :: reports) s x4 := (.of (State.puts_kept _ _) h7)
    have h9 : Kept (.clock :: reports) s x6 := (.upd [.time] h8)
    exact (.ite (.of (State.followPorts_kept _) (.of (State.timeEvent_kept _ _ _) h9)) .refl)

theorem State.checkPaths_kept (s : State) :
    Kept reports s (State.checkPaths s) := by
  delta State.checkPaths
  extract_lets _ _ _
  split
  · extract_lets _ _ x6 x7
    have h8 : Kept reports s x7 := (.upd [.time] .refl)
    exact (.ite (.upd [.time] .refl) (.ite (.of (State.timeEvent_kept _ _ _) (.of (State.holdover_kept _ _) h8)) (by
      clear_value x6
      split
      · exact (.ite (.of (State.causeClears_kept _ _) h8) h8)
      · exact h8)))
  · exact (.upd [.time] .refl)

theorem State.jumpEnds_kept (s : State) :
    Kept reports s (State.jumpEnds s) := by
  delta State.jumpEnds
  exact (.of (State.causeClears_kept _ _) (.of (State.puts_kept _ _) .refl))

theorem State.primaryUpdate_kept (s : State) :
    Kept (.clock :: .free :: reports) s (State.primaryUpdate s) := by
  delta State.primaryUpdate
  extract_lets x1 _
  have h3 : Kept (.clock :: .free :: reports) s x1 := (.ite .refl (.of (State.checkPaths_kept _) .refl))
  split
  · exact .refl
  · exact (.ite (.of (State.acquire_kept _) .refl) (.ite (.ite (.of (State.servo_kept _ _) h3) (.of (State.stepPending_kept _ _) h3)) (.ite (.of (State.servo_kept _ _) h3) (.ite (.ite (.of (State.leaveHoldover_kept _) h3) (.ite (.of (State.jumpEnds_kept _) h3) (.of (State.stepPending_kept _ _) h3))) h3))))

theorem State.offsetSample_kept (s : State) (a1 : ℕ) (a2 : ℤ) (a3 : ℤ) :
    Kept (.clock :: .free :: reports) s (State.offsetSample s a1 a2 a3) := by
  delta State.offsetSample
  extract_lets _ _ _ x7 _ _ _ _ x12 x13 x14
  have h15 : Kept (.clock :: .free :: reports) s x7 := (.of (State.trace_kept _ _ _) .refl)
  have h16 : Kept (.clock :: .free :: reports) s x12 := (.upd [.time] h15)
  have h17 : Kept (.clock :: .free :: reports) s x13 := (.of (State.modTime_kept _ _ _) h15)
  have h18 : Kept (.clock :: .free :: reports) s x14 := (.ite (.of (State.showTimePort_kept _ _) h17) h17)
  exact (.ite (.upd [.time] h15) (.ite (.of (State.timeEvent_kept _ _ _) (.of (State.holdover_kept _ _) h16)) (.ite (.of (State.primaryUpdate_kept _) h18) h18)))

theorem execDelayConfirmEnd_kept (s : State) :
    OutKept (.free :: reports) s (execDelayConfirmEnd s) := by
  delta execDelayConfirmEnd
  extract_lets _ x2
  have h3 : Kept (.free :: reports) s x2 := (.upd [.time] .refl)
  split
  · exact (.next .refl)
  · extract_lets x4 _ x6 x7
    have h8 : Kept (.free :: reports) s x6 := (.of (State.modTime_kept _ _ _) h3)
    have h9 : Kept (.free :: reports) s x7 := by
      unfold x7
      clear_value x4
      split
      · exact h3
      · exact (.of (State.timeEvent_kept _ _ _) (.of (State.showTimePort_kept _ _) h8))
    exact (.ite (.next .refl) (.next (.of (State.causeClears_kept _ _) h9)))

theorem execHoldLong_kept (s : State) :
    OutKept reports s (execHoldLong s) := by
  delta execHoldLong
  extract_lets _ _ x3
  have h4 : Kept reports s x3 := (.upd [.time] .refl)
  exact (.ite (.next (.of (State.timeEvent_kept _ _ _) h4)) (.next .refl))

theorem execArmedStep_kept (s : State) :
    OutKept (.clock :: reports) s (execArmedStep s) := by
  delta execArmedStep
  exact (.next (.of (State.armedStepNow_kept _) .refl))

theorem execAcquisitionStepHeld_kept (s : State) :
    OutKept (.clock :: reports) s (execAcquisitionStepHeld s) := by
  delta execAcquisitionStepHeld
  exact (.next (.of (State.acquire_kept _) .refl))

theorem State.onPtp_kept {P : List Part} {s : State} (b : State) (m : PtpMsg) {act : State → State}
    (hk : ∀ x, Kept P s x → Kept P s (act x)) (h : Kept P s b) (hq : Part.allIn reports P = true := by rfl) :
    Kept P s (b.onPtp m act) :=
  .ite h (.ite (.of (State.count_kept _ _) h hq) (hk _ h))

theorem State.wholeSync_kept (s : State) (a1 : ℕ) (a2 : ℤ) (a3 : ℤ) (a4 : ℤ) (a5 : ℕ) :
    Kept (.free :: reports) s (State.wholeSync s a1 a2 a3 a4 a5) := by
  delta State.wholeSync
  extract_lets x6
  have h7 : Kept (.free :: reports) s x6 := (.of (State.modTime_kept _ _ _) .refl)
  exact (.ite (.of (State.followPorts_kept _) (.of (State.portBecomes_kept _ _ _) h7)) h7)

theorem execPtpSync_kept (a1 : PtpMsg) (a2 : Bool) (a3 : PtpStamp) (s : State) :
    OutKept (.free :: reports) s (execPtpSync a1 a2 a3 s) := by
  delta execPtpSync
  extract_lets _
  exact (.next (State.onPtp_kept _ _ (fun _ h5 => (by
      extract_lets x6 _ _
      have h9 : Kept (.free :: reports) s x6 := (.of (State.count_kept _ _) h5)
      exact (.ite h9 (.ite (.of (State.modTime_kept _ _ _) h9) (.of (State.wholeSync_kept _ _ _ _ _ _) h9))))) .refl))

theorem execPtpFollowUp_kept (a1 : PtpMsg) (a2 : PtpStamp) (s : State) :
    OutKept (.free :: reports) s (execPtpFollowUp a1 a2 s) := by
  delta execPtpFollowUp
  extract_lets _
  exact (.next (State.onPtp_kept _ _ (fun _ h4 => (by
      extract_lets x5
      have h6 : Kept (.free :: reports) s x5 := (.of (State.count_kept _ _) h4)
      split
      · exact (.ite (.of (State.wholeSync_kept _ _ _ _ _ _) h6) h6)
      · exact h6)) .refl))

theorem State.exchange_kept (s : State) (a1 : ℕ) (a2 : ℤ) (a3 : ℕ) :
    Kept (.clock :: .free :: reports) s (State.exchange s a1 a2 a3) := by
  delta State.exchange
  extract_lets x4 _
  have h6 : Kept (.clock :: .free :: reports) s x4 := (.of (State.count_kept _ _) .refl)
  split
  · exact (.ite (.of (State.offsetSample_kept _ _ _ _) h6) h6)
  · exact h6

theorem execPtpDelayResp_kept (a1 : PtpMsg) (a2 : BitVec 80) (a3 : PtpStamp) (s : State) :
    OutKept (.clock :: .free :: reports) s (execPtpDelayResp a1 a2 a3 s) := by
  delta execPtpDelayResp
  extract_lets _
  exact (.next (State.onPtp_kept _ _ (fun _ h5 => (by
      extract_lets _ x7
      have h8 : Kept (.clock :: .free :: reports) s x7 := (.of (State.modTime_kept _ _ _) h5)
      split
      · exact (.ite h5 (.of (State.exchange_kept _ _ _ _) h8))
      · exact h5)) .refl))

theorem execPtpPdelayReq_kept (a1 : PtpMsg) (a2 : Word) (s : State) :
    OutKept reports s (execPtpPdelayReq a1 a2 s) := by
  delta execPtpPdelayReq
  extract_lets _
  exact (.next (State.onPtp_kept _ _ (fun _ h4 => (by
      extract_lets _ _ _
      exact (.ite (.of (State.modTime_kept _ _ _) h4) h4))) .refl))

theorem execPtpPdelayResp_kept (a1 : PtpMsg) (a2 : BitVec 80) (a3 : Bool) (a4 : PtpStamp) (s : State) :
    OutKept reports s (execPtpPdelayResp a1 a2 a3 a4 s) := by
  delta execPtpPdelayResp
  extract_lets _
  exact (.next (State.onPtp_kept _ _ (fun _ h6 => (by
      extract_lets _
      split
      · exact (.ite h6 (.of (State.modTime_kept _ _ _) h6))
      · exact h6)) .refl))

theorem execPtpPdelayRespFollowUp_kept (a1 : PtpMsg) (a2 : BitVec 80) (a3 : PtpStamp) (s : State) :
    OutKept (.clock :: .free :: reports) s (execPtpPdelayRespFollowUp a1 a2 a3 s) := by
  delta execPtpPdelayRespFollowUp
  extract_lets _
  exact (.next (State.onPtp_kept _ _ (fun _ h5 => (by
      extract_lets _ x7
      have h8 : Kept (.clock :: .free :: reports) s x7 := (.of (State.modTime_kept _ _ _) h5)
      split
      · exact (.ite h5 (.of (State.exchange_kept _ _ _ _) h8))
      · exact h5)) .refl))

theorem State.selectMaster_kept (s : State) (a1 : ℕ) :
    Kept [.regs, .time, .free] s (State.selectMaster s a1) := by
  delta State.selectMaster
  extract_lets _
  split
  · exact .refl
  · extract_lets x3
    have h4 : Kept [.regs, .time, .free] s x3 := (.of (State.modTime_kept _ _ _) .refl)
    exact (.ite (.of (State.showTimePort_kept _ _) .refl) (.ite (.of (State.showTimePort_kept _ _) h4) (.of (State.portBecomes_kept _ _ _) h4)))

theorem execPtpAnnounce_kept (a1 : PtpMsg) (a2 : PtpAnnounce) (s : State) :
    OutKept (.free :: reports) s (execPtpAnnounce a1 a2 s) := by
  delta execPtpAnnounce
  extract_lets _
  exact (.next (State.onPtp_kept _ _ (fun _ h4 => (by
      extract_lets _ _ _ x8
      have h9 : Kept (.free :: reports) s x8 := (.of (State.modTime_kept _ _ _) h4)
      exact (.of (State.followPorts_kept _) (.of (State.selectMaster_kept _ _) h9)))) .refl))

theorem execAnnounceTimeout_kept (a1 : Fin 2) (s : State) :
    OutKept (.free :: reports) s (execAnnounceTimeout a1 s) := by
  delta execAnnounceTimeout
  extract_lets _ x3
  have h4 : Kept (.free :: reports) s x3 := (.of (State.modTime_kept _ _ _) .refl)
  exact (.ite (.next (.of (State.followPorts_kept _) (.of (State.portBecomes_kept _ _ _) h4))) (.next .refl))

theorem execPtpDelayReqSend_kept (a1 : Fin 2) (a2 : Fin 10) (s : State) :
    OutKept [.time] s (execPtpDelayReqSend a1 a2 s) := by
  delta execPtpDelayReqSend
  extract_lets _ _ _
  exact (.ite (.next (.of (State.modTime_kept _ _ _) .refl)) (.next .refl))

theorem State.cascadeSample_kept (s : State) (a1 : ℕ) (a2 : ℤ) (a3 : ℕ) :
    Kept (.clock :: .free :: reports) s (State.cascadeSample s a1 a2 a3) := by
  delta State.cascadeSample
  extract_lets _ _ x6 x7 _ x9
  have h10 : Kept (.clock :: .free :: reports) s x6 := (.ite (.of (State.put_kept _ _ _) .refl) .refl)
  have h11 : Kept (.clock :: .free :: reports) s x7 := (.of (State.causeClears_kept _ _) h10)
  have h12 : Kept (.clock :: .free :: reports) s x9 := (.of (State.stepClock_kept _ _ _) h11)
  exact (.ite (.of (State.timeEvent_kept _ _ _) h12) (.of (State.offsetSample_kept _ _ _ _) h11))

theorem execTimeMessage_kept (a1 : LinkMsg) (a2 : BitVec 64) (a3 : PtpStamp) (a4 : BitVec 16) (s : State) :
    OutKept (.clock :: .csc :: .free :: reports) s (execTimeMessage a1 a2 a3 a4 s) := by
  delta execTimeMessage
  exact (.next (State.onMessage_kept _ _ _ (fun _ h5 => (.ite (.of (State.cascadeSample_kept _ _ _ _) h5) h5)) .refl))

theorem execTimeMapLatch_kept (s : State) :
    OutKept [.regs, .csc, .time] s (execTimeMapLatch s) := by
  delta execTimeMapLatch
  extract_lets _ _ _ x4 x5
  have h6 : Kept [.regs, .csc, .time] s x4 := (.upd [.time] .refl)
  have h7 : Kept [.regs, .csc, .time] s x5 := (.of (State.puts_kept _ _) h6)
  exact (.ite (.next .refl) (.next (.ite h7 (.of (State.sendAll_kept _ _ _) h7))))

theorem execTimMapHeadRead_kept (s : State) :
    OutKept reports s (execTimMapHeadRead s) := by
  delta execTimMapHeadRead
  extract_lets _ _
  exact (.ite (.next (.of (State.domainOffAccess_kept _ _) .refl)) (.next (.upd [.time] .refl)))

theorem execTimNowRead_kept (s : State) :
    OutKept reports s (execTimNowRead s) := by
  delta execTimNowRead
  extract_lets _
  exact (.ite (.next (.of (State.domainOffAccess_kept _ _) .refl)) (.next (.of (State.puts_kept _ _) .refl)))

theorem execTelemetrySend_kept (a1 : Fin 2) (s : State) :
    OutKept reports s (execTelemetrySend a1 s) := by
  delta execTelemetrySend
  extract_lets _ _ _ _ _ x7
  have h8 : Kept reports s x7 := (.of (State.modTime_kept _ _ _) .refl)
  exact (.ite (.next .refl) (.next (.of (State.count_kept _ _) h8)))

theorem execEthLinkChange_kept (a1 : Fin 2) (a2 : Bool) (s : State) :
    OutKept (.free :: reports) s (execEthLinkChange a1 a2 s) := by
  delta execEthLinkChange
  extract_lets x3
  have h4 : Kept (.free :: reports) s x3 := (.of (State.put_kept _ _ _) .refl)
  exact (.ite (.next .refl) (.next (.of (State.refreshPorts_kept _) (.of (State.timeEvent_kept _ _ _) h4))))

theorem State.stepArm_kept (s : State) :
    Kept (.clock :: reports) s (State.stepArm s) := by
  delta State.stepArm
  exact (.ite (.of (State.armedStepNow_kept _) (.of (State.put_kept _ _ _) .refl)) .refl)

theorem execTimStepArm_kept (s : State) :
    OutKept (.clock :: reports) s (execTimStepArm s) := by
  delta execTimStepArm
  exact (.next (.ite (.of (State.stepArm_kept _) .refl) (.of (State.domainOffAccess_kept _ _) .refl)))

theorem execTimCtrlWrite_kept (a1 : Word) (s : State) :
    OutKept (.clock :: .free :: reports) s (execTimCtrlWrite a1 s) := by
  delta execTimCtrlWrite
  extract_lets _ _ x4 x5 x6 x7 x8
  have h9 : Kept (.clock :: .free :: reports) s x4 := (.ite .refl (.of (State.put_kept _ _ _) .refl))
  have h10 : Kept (.clock :: .free :: reports) s x5 := (.of (State.put_kept _ _ _) h9)
  have h11 : Kept (.clock :: .free :: reports) s x6 := (.ite (.of (State.put_kept _ _ _) h10) (.ite h10 (.of (State.put_kept _ _ _) h10)))
  have h12 : Kept (.clock :: .free :: reports) s x7 := (.of (State.refreshPorts_kept _) h11)
  have h13 : Kept (.clock :: .free :: reports) s x8 := (.ite (.of (State.causeClears_kept _ _) h12) h12)
  exact (.ite (.next (.of (State.domainOffAccess_kept _ _) .refl)) (.next (.ite (.of (State.stepArm_kept _) h13) h13)))

theorem State.enabledPortCfg_kept (s : State) (a1 : ℕ) (a2 : Word) :
    Kept reports s (State.enabledPortCfg s a1 a2) := by
  delta State.enabledPortCfg
  extract_lets _ x4 _ x6
  have h7 : Kept reports s x4 := (.of (State.put_kept _ _ _) (.of (State.writeWord_kept _ _ _) .refl))
  have h8 : Kept reports s x6 := (.of (State.put_kept _ _ _) .refl)
  exact (.ite (.of (State.timeEvent_kept _ _ _) h8) h8)

theorem State.refusePortWrite_kept (s : State) (a1 : ℕ) (a2 : Bool) :
    Kept reports s (State.refusePortWrite s a1 a2) := by
  delta State.refusePortWrite
  extract_lets x3
  have h4 : ∀ (a5 : State) (a7 : ℕ) (h6 : Kept reports s a5), Kept reports s (x3 a5 a7) := by
    intro a5 a7 h6
    unfold x3
    exact (.ite (.of (State.timeEvent_kept _ _ _) h6) h6)
  split
  · exact (.ite (h4 _ _ (h4 _ _ .refl)) (h4 _ _ .refl))
  · exact (.ite (h4 _ _ .refl) .refl)

theorem execTimPortCfgWrite_kept (a1 : BitVec 25) (a2 : Bool) (a3 : BitVec 64) (s : State) :
    OutKept (.free :: reports) s (execTimPortCfgWrite a1 a2 a3 s) := by
  delta execTimPortCfgWrite
  extract_lets _ _
  exact (.ite (.next .refl) (.ite (.next (.of (State.domainOffAccess_kept _ _) .refl)) (.ite (.ite (.next (.of (State.refreshPorts_kept _) (.of (State.enabledPortCfg_kept _ _ _) .refl))) (.next (.of (State.refreshPorts_kept _) (.of (State.writeAny_kept _ _ _ _) .refl)))) (.ite (.next (.of (State.refusePortWrite_kept _ _ _) .refl)) (.next (.of (State.writeAny_kept _ _ _ _) .refl))))))

theorem State.timeWarm_kept (s : State) :
    Kept [.regs, .free] s (State.timeWarm s) := by
  delta State.timeWarm
  exact (.of (State.showTimePort_kept _ _) (.of (State.showTimePort_kept _ _) .refl))

/-! ### Breakwater -/

theorem State.refuseProposal_kept (s : State) (a1 : ℕ) :
    Kept (.hcr :: .bwt :: reports) s (State.refuseProposal s a1) := by
  delta State.refuseProposal
  extract_lets x2
  have h3 : Kept (.hcr :: .bwt :: reports) s x2 := (.of (State.puts_kept _ _) .refl)
  exact (.of (State.tryHandover_kept _) (.of (State.raise_kept _ _ _) (.of (State.count_kept _ _) h3)))

theorem execBwtSubmit_kept (s : State) :
    OutKept (.bwt :: reports) s (execBwtSubmit s) := by
  delta execBwtSubmit
  extract_lets _
  exact (.ite (.next (.of (State.put_kept _ _ _) (.upd [.bwt] .refl))) (.next (.of (State.raise_kept _ _ _) .refl)))

theorem execBwtWithdraw_kept (s : State) :
    OutKept (.hcr :: .bwt :: reports) s (execBwtWithdraw s) := by
  delta execBwtWithdraw
  exact (.next (.ite (.of (State.refuseProposal_kept _ _) .refl) .refl))

theorem execBwtHandover_kept (s : State) :
    OutKept (.hcr :: .bwt :: reports) s (execBwtHandover s) := by
  delta execBwtHandover
  exact (.next (.of (State.tryHandover_kept _) .refl))

theorem State.checkProposal_kept (s : State) :
    Kept (.hcr :: .bwt :: reports) s (State.checkProposal s) := by
  delta State.checkProposal
  extract_lets x1
  have h2 : Kept (.hcr :: .bwt :: reports) s x1 := (.of (State.put_kept _ _ _) .refl)
  split
  · exact (.of (State.refuseProposal_kept _ _) h2)
  · extract_lets x3 _ x5 _ x7
    have h8 : Kept (.hcr :: .bwt :: reports) s x3 := (.of (State.put_kept _ _ _) h2)
    have h9 : Kept (.hcr :: .bwt :: reports) s x5 := (.of (State.put_kept _ _ _) h8)
    have h10 : Kept (.hcr :: .bwt :: reports) s x7 := (.upd [.bwt] h9)
    split
    · exact (.of (State.refuseProposal_kept _ _) (.fold (fun _ _ h11 => (by
          split
          · exact (.of (State.raise_kept _ _ _) h11)
          · exact h11)) h8))
    · exact (.of (State.raise_kept _ _ _) h10)

theorem execProposalLoaded_kept (a1 : Bool) (s : State) :
    OutKept (.hcr :: .bwt :: reports) s (execProposalLoaded a1 s) := by
  delta execProposalLoaded
  extract_lets _ _ _ _
  exact (.ite (.next .refl) (.ite (.next (.of (State.checkProposal_kept _) .refl)) (.ite (.next (.of (State.refuseProposal_kept _ _) .refl)) (.next (.of (State.checkProposal_kept _) (.upd [.bwt] .refl))))))

theorem State.permitPath_kept (s : State) :
    Kept (.box :: .store :: .seq :: .tid :: .csc :: reports) s (State.permitPath s) := by
  delta State.permitPath
  exact (.of (State.hardwareStop_kept _ _ _) (.of (State.reblank_kept _) .refl))

theorem State.advanceGens_kept (s : State) (a1 : RegFile) (a2 : List (ℕ × ℕ)) :
    Kept [.regs] s (State.advanceGens s a1 a2) := by
  delta State.advanceGens
  extract_lets _ x4
  have h5 : Kept [.regs] s x4 := (.ite (.of (State.put_kept _ _ _) .refl) .refl)
  exact (.ite (.of (State.put_kept _ _ _) h5) h5)

theorem State.storeWords_kept (s : State) (a1 : List (ℕ × ℕ)) :
    Kept [.regs] s (State.storeWords s a1) := by
  delta State.storeWords
  exact (.of (State.puts_kept _ _) (.upd [.regs] .refl rfl rfl (.inr fun w => by first | (dsimp only; exact (committed_wf _ w)) | exact (committed_wf _ w)) (.inl rfl) (.inl rfl)))

theorem State.rateTakesEffect_kept (s : State) (a1 : State) :
    Kept (.box :: .tid :: .csc :: reports) s (State.rateTakesEffect s a1) := by
  delta State.rateTakesEffect
  exact (.ite (.of (State.replan_kept _) .refl) .refl)

theorem State.intensityTakesEffect_kept (s : State) (a1 : State) :
    Kept reports s (State.intensityTakesEffect s a1) := by
  delta State.intensityTakesEffect
  exact (.ite (.of (State.raise_kept _ _ _) .refl) .refl)

theorem State.burnStarts_kept (s : State) (a1 : ℕ) :
    Kept [.bwt] s (State.burnStarts s a1) := by
  delta State.burnStarts
  extract_lets _ _
  exact (.ite (.upd [.bwt] .refl) .refl)

theorem State.enableTakesEffect_kept (s : State) (a1 : State) :
    Kept (.box :: .store :: .seq :: .tid :: .csc :: reports) s (State.enableTakesEffect s a1) := by
  delta State.enableTakesEffect
  exact (.ite (.of (State.permitPath_kept _) .refl) (.of (State.reblank_kept _) .refl))

theorem State.strandStrip_kept (s : State) (a1 : State) (a2 : List (ℕ × ℕ)) :
    Kept [.box] s (State.strandStrip s a1 a2) := by
  delta State.strandStrip
  split
  · exact .refl
  · exact (.ite (by
      split
      · exact (.of (State.modStrip_kept _ _ _) .refl)
      · exact .refl) .refl)

theorem State.commitWords_kept (s : State) (a1 : List (ℕ × ℕ)) :
    Kept (.box :: .store :: .seq :: .tid :: .hcr :: .csc :: .bwt :: reports) s (State.commitWords s a1) := by
  delta State.commitWords
  extract_lets _ x3 x4 x5
  have h6 : Kept (.box :: .store :: .seq :: .tid :: .hcr :: .csc :: .bwt :: reports) s x3 := (.of (State.count_kept _ _) (.of (State.advanceGens_kept _ _ _) (.of (State.strandStrip_kept _ _ _) (.of (State.storeWords_kept _ _) .refl))))
  have h7 : Kept (.box :: .store :: .seq :: .tid :: .hcr :: .csc :: .bwt :: reports) s x4 := (.of (State.judgeHold_kept _) (.of (State.raise_kept _ _ _) h6))
  have h8 : Kept (.box :: .store :: .seq :: .tid :: .hcr :: .csc :: .bwt :: reports) s x5 := (.of (State.enableTakesEffect_kept _ _) (.of (State.burnStarts_kept _ _) (.of (State.intensityTakesEffect_kept _ _) (.of (State.rateTakesEffect_kept _ _) h7))))
  exact (.of (State.tryHandover_kept _) h8)

theorem State.badGuardFrame_kept (s : State) (a1 : List Byte) :
    Kept (.bwt :: reports) s (State.badGuardFrame s a1) := by
  delta State.badGuardFrame
  extract_lets _ x3 _ _ _ _
  have h8 : Kept (.bwt :: reports) s x3 := (.of (State.count_kept _ _) (.upd [.bwt] .refl))
  exact (.ite (.of (State.raise_kept _ _ _) (.upd [.bwt] h8)) h8)

theorem State.respond_kept (s : State) (a1 : List Byte) :
    Kept [.bwt] s (State.respond s a1) := by
  delta State.respond
  extract_lets _
  exact (.upd [.bwt] .refl)

theorem State.onGuard_kept {P : List Part} {s : State} (b : State) (frame : List Byte) (opcode : Nat) {act : State → State}
    (hk : ∀ x, Kept P s x → Kept P s (act x)) (h : Kept P s b) (hq : Part.allIn (.bwt :: reports) P = true := by rfl) :
    Kept P s (b.onGuard frame opcode act) :=
  .ite h (.ite (.of (State.badGuardFrame_kept _ _) h hq)
    (.ite (hk _ (.of (Kept.upd (P := .bwt :: reports) [.bwt] .refl) h hq)) h))

theorem execGrdStatus_kept (a1 : List Byte) (s : State) :
    OutKept (.bwt :: reports) s (execGrdStatus a1 s) := by
  delta execGrdStatus
  exact (.next (State.onGuard_kept _ _ _ (fun _ h2 => (by
      extract_lets _
      exact (.of (State.respond_kept _ _) h2))) .refl))

theorem execGrdRead_kept (a1 : List Byte) (s : State) :
    OutKept (.bwt :: reports) s (execGrdRead a1 s) := by
  delta execGrdRead
  extract_lets _ _
  exact (.next (State.onGuard_kept _ _ _ (fun _ h4 => (.ite (.of (State.respond_kept _ _) h4) h4)) .refl))

theorem execGrdConfirm_kept (a1 : List Byte) (s : State) :
    OutKept (.box :: .store :: .seq :: .tid :: .hcr :: .csc :: .bwt :: reports) s (execGrdConfirm a1 s) := by
  delta execGrdConfirm
  exact (.next (State.onGuard_kept _ _ _ (fun _ h2 => (.ite h2 (.ite (.of (State.refuseProposal_kept _ _) h2) (.ite (.of (State.refuseProposal_kept _ _) h2) (by
      split
      · exact (.of (State.commitWords_kept _ _) (.of (State.put_kept _ _ _) h2))
      · exact h2))))) .refl))

theorem execGrdReject_kept (a1 : List Byte) (s : State) :
    OutKept (.hcr :: .bwt :: reports) s (execGrdReject a1 s) := by
  delta execGrdReject
  exact (.next (State.onGuard_kept _ _ _ (fun _ h2 => (.ite (.of (State.refuseProposal_kept _ _) h2) h2)) .refl))

theorem execProposalExpired_kept (s : State) :
    OutKept (.hcr :: .bwt :: reports) s (execProposalExpired s) := by
  delta execProposalExpired
  exact (.next (.ite (.of (State.refuseProposal_kept _ _) .refl) .refl))

theorem execSvnBurnDone_kept (a1 : Fin 65) (s : State) :
    OutKept (.bwt :: reports) s (execSvnBurnDone a1 s) := by
  delta execSvnBurnDone
  extract_lets _ x3
  have h4 : Kept (.bwt :: reports) s x3 := (.of (State.put_kept _ _ _) (.upd [.bwt] .refl))
  split
  · exact (.next .refl)
  · exact (.ite (.next .refl) (.next (.ite (.of (State.raise_kept _ _ _) h4) (.of (State.raise_kept _ _ _) h4))))

theorem execPermitDeassert_kept (s : State) :
    OutKept (.box :: .store :: .seq :: .tid :: .csc :: .bwt :: .pwr :: reports) s (execPermitDeassert s) := by
  delta execPermitDeassert
  extract_lets _ _ _ _ x5 _ x7 _
  have h9 : Kept (.box :: .store :: .seq :: .tid :: .csc :: .bwt :: .pwr :: reports) s x5 := (.of (State.count_kept _ _) (.upd [.bwt] .refl))
  have h10 : Kept (.box :: .store :: .seq :: .tid :: .csc :: .bwt :: .pwr :: reports) s x7 := (.of (State.reblank_kept _) h9)
  split
  · exact (.ite (.next (.of (State.permitPath_kept _) (.of (State.raiseSev_kept _ _ _ _) (.of (State.reblank_kept _) h9)))) (.next (.upd [.pwr] h10)))
  · exact (.next (.of (State.permitPath_kept _) (.of (State.raiseSev_kept _ _ _ _) (.of (State.reblank_kept _) h9))))

theorem execPermitRestored_kept (s : State) :
    OutKept (.bwt :: reports) s (execPermitRestored s) := by
  delta execPermitRestored
  extract_lets _ _
  exact (.ite (.next .refl) (.next (.of (State.raise_kept _ _ _) (.upd [.bwt] .refl))))

end Sys2Proof.Machine
end

