-- ==== Sys2Proof/Laws/KeptMachine.lean ====
section
/-! SUPPORT. What each operation and each command may change, part by part: one lemma per definition. -/
namespace Sys2Proof.Machine

set_option Elab.async false

/-! ### Abort -/

theorem State.abortJob_kept (s : State) (a1 : ℕ) :
    Kept reports s (State.abortJob s a1) := by
  delta State.abortJob
  exact (.of (State.complete_kept _ _ _ _ _) .refl)

theorem State.abortAll_kept (s : State) (a1 : List ℕ) :
    Kept reports s (State.abortAll s a1) := by
  delta State.abortAll
  exact (.fold (fun _ _ h2 => (.of (State.abortJob_kept _ _) h2)) .refl)

theorem State.abortOpenStrip_kept (s : State) :
    Kept (.box :: .seq :: .tid :: .csc :: reports) s (State.abortOpenStrip s) := by
  delta State.abortOpenStrip
  extract_lets _
  split
  · exact .refl
  · extract_lets _
    exact (.ite (.of (State.promptStop_kept _ _) .refl) (.ite (.of (State.abandonFlood_kept _ _ _) (.upd [.host] .refl)) (.of (State.holdForHost_kept _ _) .refl)))

theorem State.abortRequests_kept (s : State) :
    Kept (.box :: .seq :: reports) s (State.abortRequests s) := by
  delta State.abortRequests
  extract_lets _ _ _ _ x5
  have h6 : Kept (.box :: .seq :: reports) s x5 := (.upd [.box, .seq] .refl)
  exact (.of (State.abortAll_kept _ _) h6)

theorem State.abortPosted_kept (s : State) :
    Kept (.box :: .store :: .seq :: .tid :: .csc :: reports) s (State.abortPosted s) := by
  delta State.abortPosted
  exact (.fold (fun _ _ h1 => (.of (State.dropPosted_kept _ _ _ _) h1)) .refl)

theorem State.abortWriting_kept (s : State) :
    Kept (.box :: .store :: .seq :: reports) s (State.abortWriting s) := by
  delta State.abortWriting
  extract_lets _
  split
  · exact .refl
  · extract_lets x2 x3
    have h4 : Kept (.box :: .store :: .seq :: reports) s x2 := (.upd [.store] .refl)
    have h5 : Kept (.box :: .store :: .seq :: reports) s x3 := by
      unfold x3
      split
      · exact (.of (State.loseTile_kept _ _ _ _) h4)
      · exact (.of (State.modTile_kept _ _ _ _ _) h4)
    exact (.of (State.grantEngines_kept _) (.of (State.showLead_kept _) h5))

theorem State.abortTiles_kept (s : State) :
    Kept (.box :: .store :: .seq :: reports) s (State.abortTiles s) := by
  delta State.abortTiles
  extract_lets _ _
  exact (.of (State.abortWriting_kept _) (.of (State.showJobs_kept _) (.upd [.box] .refl)))

theorem State.abortLayouts_kept (s : State) :
    Kept (.box :: reports) s (State.abortLayouts s) := by
  delta State.abortLayouts
  extract_lets _ _ _
  exact (.of (State.abortAll_kept _ _) (.upd [.box] .refl))

theorem State.abortStage_kept (s : State) :
    Kept (.tid :: reports) s (State.abortStage s) := by
  delta State.abortStage
  extract_lets _ _ _ x4 _ x6
  have h7 : Kept (.tid :: reports) s x4 := (.upd [.tid] .refl)
  have h8 : Kept (.tid :: reports) s x6 := (.ite (.upd [.tid] h7) h7)
  exact (.of (State.abortAll_kept _ _) (.ite (.of (State.stopProfile_kept _) h8) h8))

theorem State.abortHeadCare_kept (s : State) :
    Kept (.link :: .hcr :: reports) s (State.abortHeadCare s) := by
  delta State.abortHeadCare
  extract_lets _ _ _ x4 _ x6 _ x8
  have h9 : Kept (.link :: .hcr :: reports) s x4 := (.ite (.of (State.stopRun_kept _) .refl) .refl)
  have h10 : Kept (.link :: .hcr :: reports) s x6 := (.ite (.of (State.put_kept _ _ _) h9) h9)
  have h11 : Kept (.link :: .hcr :: reports) s x8 := (.upd [.hcr] h10)
  exact (.fold (fun _ _ h12 => (.of (State.complete_kept _ _ _ _ _) (.of (State.raise_kept _ _ _) h12))) h11)

theorem State.abortCodec_kept (s : State) :
    Kept (.store :: reports) s (State.abortCodec s) := by
  delta State.abortCodec
  extract_lets _ _
  exact (.fold (fun _ _ h3 => (by
      split
      · exact (.of (State.completeJob_kept _ _ _ _ _) h3)
      · exact (.of (State.abortJob_kept _ _) h3))) (.upd [.store] .refl))

theorem State.abortUnits_kept (s : State) :
    Kept (.box :: .store :: .seq :: .tid :: .link :: .hcr :: .csc :: .aux :: .mem :: .free :: reports) s (State.abortUnits s) := by
  delta State.abortUnits
  extract_lets x1 x2
  have h3 : Kept (.box :: .store :: .seq :: .tid :: .link :: .hcr :: .csc :: .aux :: .mem :: .free :: reports) s x1 := (.of (State.abortTiles_kept _) (.of (State.abortPosted_kept _) (.of (State.abortRequests_kept _) (.of (State.abortOpenStrip_kept _) .refl))))
  have h4 : Kept (.box :: .store :: .seq :: .tid :: .link :: .hcr :: .csc :: .aux :: .mem :: .free :: reports) s x2 := (.of (State.abortHeadCare_kept _) (.of (State.auxAbort_kept _) (.of (State.abortStage_kept _) (.of (State.abortLayouts_kept _) h3))))
  exact (.of (State.abortScans_kept _) (.of (State.abortCodec_kept _) h4))

theorem State.endAbort_kept (s : State) :
    Kept reports s (State.endAbort s) := by
  delta State.endAbort
  extract_lets _ _ x3
  have h4 : Kept reports s x3 := (.upd [.host] .refl)
  exact (.ite .refl (.of (State.raise_kept _ _ _) (.of (State.put_kept _ _ _) h4)))

theorem State.abortWork_kept (s : State) :
    Kept (.box :: .store :: .seq :: .tid :: .link :: .hcr :: .csc :: .aux :: .mem :: .free :: reports) s (State.abortWork s) := by
  delta State.abortWork
  extract_lets _ _ x3 _ _
  have h6 : Kept (.box :: .store :: .seq :: .tid :: .link :: .hcr :: .csc :: .aux :: .mem :: .free :: reports) s x3 := (.of (State.abortUnits_kept _) (.of (State.put_kept _ _ _) (.upd [.host] .refl)))
  exact (.ite .refl (.upd [.host] h6))

theorem execHstAbort_kept (a1 : Word) (s : State) :
    OutKept (.box :: .store :: .seq :: .tid :: .link :: .hcr :: .csc :: .aux :: .mem :: .free :: reports) s (execHstAbort a1 s) := by
  delta execHstAbort
  exact (.ite (.next (.of (State.domainOffAccess_kept _ _) .refl)) (.next (.ite (.of (State.abortWork_kept _) .refl) .refl)))

theorem execAbortComplete_kept (s : State) :
    OutKept reports s (execAbortComplete s) := by
  delta execAbortComplete
  exact (.next (.ite (.of (State.endAbort_kept _) .refl) .refl))

theorem execD3hotEntry_kept (s : State) :
    OutKept (.box :: .store :: .seq :: .tid :: .link :: .hcr :: .csc :: .aux :: .mem :: .free :: reports) s (execD3hotEntry s) := by
  delta execD3hotEntry
  extract_lets _ x2
  have h3 : Kept (.box :: .store :: .seq :: .tid :: .link :: .hcr :: .csc :: .aux :: .mem :: .free :: reports) s x2 := (.upd [.host] .refl)
  exact (.ite (.next .refl) (.next (.ite h3 (.of (State.abortWork_kept _) h3))))

theorem execD0Entry_kept (s : State) :
    OutKept [.hostMem, .host] s (execD0Entry s) := by
  delta execD0Entry
  extract_lets _ x2
  have h3 : Kept [.hostMem, .host] s x2 := (.upd [.host] .refl)
  exact (.ite (.next .refl) (.next (.ite (.of (State.flushHeld_kept _) h3) h3)))

/-! ### Power -/

theorem State.endRequest_kept (s : State) (a1 : ℕ) :
    Kept [.box, .pwr] s (State.endRequest s a1) := by
  delta State.endRequest
  extract_lets _ _
  exact (.upd [.box, .pwr] .refl)

theorem State.lockPlls_kept (s : State) (a1 : ℕ) :
    Kept [.regs, .tide] s (State.lockPlls s a1) := by
  delta State.lockPlls
  split
  · exact (.of (State.put_kept _ _ _) .refl)
  · exact (.of (State.put_kept _ _ _) .refl)
  · exact (.of (State.put_kept _ _ _) .refl)
  · exact (.of (State.puts_kept _ _) .refl)
  · exact (.of (State.put_kept _ _ _) (.upd [.tide] .refl))
  · exact .refl

theorem State.domainUp_kept (s : State) (a1 : ℕ) :
    Kept (.dram :: .box :: .tide :: .mem :: .pwr :: reports) s (State.domainUp s a1) := by
  delta State.domainUp
  extract_lets _ _ _ x5 x6 x7 x8 _ x10
  have h11 : Kept (.dram :: .box :: .tide :: .mem :: .pwr :: reports) s x5 := (.of (State.endRequest_kept _ _) .refl)
  have h12 : Kept (.dram :: .box :: .tide :: .mem :: .pwr :: reports) s x6 := (.ite (.of (State.restartCouch_kept _ _) h11) (.of (State.powerUp_kept _ _) h11))
  have h13 : Kept (.dram :: .box :: .tide :: .mem :: .pwr :: reports) s x7 := (.ite (.of (State.lockPlls_kept _ _) h12) h12)
  have h14 : Kept (.dram :: .box :: .tide :: .mem :: .pwr :: reports) s x8 := (.ite (.of (State.startTraining_kept _) h13) h13)
  have h15 : Kept (.dram :: .box :: .tide :: .mem :: .pwr :: reports) s x10 := (.upd [.pwr] h14)
  exact (.ite (.of (State.showJobs_kept _) (.of (State.showVats_kept _) (.ite (.of (State.count_kept _ _) h15) h15))) h14)

theorem State.domainRises_kept (s : State) (a1 : ℕ) :
    Kept (.dram :: .box :: .tide :: .mem :: .pwr :: reports) s (State.domainRises s a1) := by
  delta State.domainRises
  extract_lets x2 _
  have h4 : Kept (.dram :: .box :: .tide :: .mem :: .pwr :: reports) s x2 := (.of (State.domainUp_kept _ _) .refl)
  exact (.upd [.pwr] h4)

theorem execDomainPowerUp_kept (a1 : Fin 16) (s : State) :
    OutKept (.dram :: .box :: .tide :: .mem :: .pwr :: reports) s (execDomainPowerUp a1 s) := by
  delta execDomainPowerUp
  exact (.next (.ite (.of (State.domainRises_kept _ _) .refl) .refl))

theorem State.setCause_kept (s : State) (a1 : ℕ) :
    Kept [.regs] s (State.setCause s a1) := by
  delta State.setCause
  exact (.of (State.put_kept _ _ _) .refl)

theorem State.haltStage_kept (s : State) :
    Kept [.regs, .tid] s (State.haltStage s) := by
  delta State.haltStage
  extract_lets x1 _
  have h3 : Kept [.regs, .tid] s x1 := (.of (State.stopProfile_kept _) .refl)
  exact (.upd [.tid] h3)

theorem State.protect_kept (s : State) (a1 : Option ℕ) (a2 : ℕ) (a3 : List (ℕ × ℕ)) (a4 : Bool) :
    Kept [.regs, .tid, .pwr] s (State.protect s a1 a2 a3 a4) := by
  delta State.protect
  extract_lets x5 _ _ x8 _ _ _ x12 x13
  have h14 : Kept [.regs, .tid, .pwr] s x5 := by
    unfold x5
    split
    · exact (.of (State.setCause_kept _ _) .refl)
    · exact .refl
  have h15 : Kept [.regs, .tid, .pwr] s x8 := (.upd [.pwr] h14)
  have h16 : Kept [.regs, .tid, .pwr] s x12 := (.upd [.pwr] h15)
  have h17 : Kept [.regs, .tid, .pwr] s x13 := (.of (State.reblank_kept _) (.of (State.haltStage_kept _) h16))
  exact (.ite h15 (.ite (.of (State.aonAlone_kept _) (.of (State.reblank_kept _) h15)) (.ite (.ite (.of (State.aonAlone_kept _) h17) h17) h15)))

theorem execRefLost_kept (s : State) :
    OutKept [.regs, .tid, .pwr] s (execRefLost s) := by
  delta execRefLost
  exact (.next (.ite (.of (State.protect_kept _ _ _ _ _) (.of (State.put_kept _ _ _) .refl)) .refl))

theorem execPllUnlock_kept (a1 : Fin 9) (s : State) :
    OutKept [.regs, .tid, .pwr] s (execPllUnlock a1 s) := by
  delta execPllUnlock
  exact (.next (.ite (.of (State.protect_kept _ _ _ _ _) (.of (State.put_kept _ _ _) .refl)) .refl))

theorem State.domainFails_kept (s : State) (a1 : ℕ) :
    Kept (.box :: .tid :: .couch :: .link :: .hcr :: .pwr :: .free :: reports) s (State.domainFails s a1) := by
  delta State.domainFails
  extract_lets _ _ x4 x5 x6
  have h7 : Kept (.box :: .tid :: .couch :: .link :: .hcr :: .pwr :: .free :: reports) s x4 := (.of (State.powerFault_kept _ _) (.of (State.endRequest_kept _ _) .refl))
  have h8 : Kept (.box :: .tid :: .couch :: .link :: .hcr :: .pwr :: .free :: reports) s x5 := (.of (State.raise_kept _ _ _) (.of (State.showJobs_kept _) (.of (State.showVats_kept _) h7)))
  have h9 : Kept (.box :: .tid :: .couch :: .link :: .hcr :: .pwr :: .free :: reports) s x6 := (.fold (fun _ _ h10 => (.of (State.chainTo_kept _ _ _) h10)) h7)
  exact (.ite (.of (State.poolEvents_kept _ _ _ _) h8) (.ite (.of (State.couchDomainLost_kept _ _) (.of (State.raise_kept _ _ _) h7)) (.ite (.of (State.raise_kept _ _ _) h9) (.of (State.protect_kept _ _ _ _ _) h7))))

theorem execDomainPowerFault_kept (a1 : Fin 16) (s : State) :
    OutKept (.box :: .tid :: .couch :: .link :: .hcr :: .pwr :: .free :: reports) s (execDomainPowerFault a1 s) := by
  delta execDomainPowerFault
  exact (.next (.ite (.of (State.domainFails_kept _ _) .refl) .refl))

theorem execQuadNeapEnter_kept (a1 : Fin 4) (s : State) :
    OutKept reports s (execQuadNeapEnter a1 s) := by
  delta execQuadNeapEnter
  exact (.next (.ite (.of (State.count_kept _ _) (.of (State.showJobs_kept _) (.of (State.powerDown_kept _ _) .refl))) .refl))

theorem State.coldState_kept (s : State) :
    Kept [.regs, .dram, .host, .box, .store, .tide, .headTime0, .clock, .obs, .seq, .tid, .couch, .link, .lanes, .hcr, .csc, .loops, .aux, .mem, .time, .bwt, .pwr] s s.coldState := by
  refine ⟨rfl, fun w => ?_⟩
  simp only [State.canonical, Bool.and_eq_true] at w ⊢
  exact ⟨⟨reset_wf.1, w.1.2⟩, reset_wf.2.2⟩

theorem State.coldReset_kept (s : State) :
    Kept [.regs, .dram, .host, .box, .store, .tide, .headTime0, .clock, .obs, .seq, .tid, .couch, .link, .lanes, .hcr, .csc, .loops, .aux, .mem, .time, .bwt, .pwr] s (State.coldReset s) := by
  delta State.coldReset
  exact (.of (State.puts_kept _ _) (.of (State.coldState_kept _) .refl))

theorem State.startBoot_kept (s : State) :
    Kept [.regs, .pwr] s (State.startBoot s) := by
  delta State.startBoot
  extract_lets _ _
  exact (.ite (.of (State.put_kept _ _ _) (.of (State.requestDomains_kept _ _) (.upd [.pwr] .refl))) .refl)

theorem execPerstNAssert_kept (s : State) :
    OutKept [.regs, .dram, .host, .box, .store, .tide, .headTime0, .clock, .obs, .seq, .tid, .couch, .link, .lanes, .hcr, .csc, .loops, .aux, .mem, .time, .bwt, .pwr] s (execPerstNAssert s) := by
  delta execPerstNAssert
  extract_lets _
  exact (.next (.ite .refl (.of (State.coldReset_kept _) (.of (State.setCause_kept _ _) (.upd [.host] .refl)))))

theorem execPerstNDeassert_kept (s : State) :
    OutKept [.regs, .host, .pwr] s (execPerstNDeassert s) := by
  delta execPerstNDeassert
  extract_lets _
  exact (.next (.ite (.of (State.startBoot_kept _) (.upd [.host] .refl)) .refl))

theorem execConfigSpaceReady_kept (s : State) :
    OutKept [.host] s (execConfigSpaceReady s) := by
  delta execConfigSpaceReady
  extract_lets _
  exact (.next (.ite (.upd [.host] .refl) .refl))

theorem execPwrOkRise_kept (s : State) :
    OutKept [.regs, .pwr] s (execPwrOkRise s) := by
  delta execPwrOkRise
  extract_lets _ _ x3
  have h4 : Kept [.regs, .pwr] s x3 := (.of (State.put_kept _ _ _) (.upd [.pwr] .refl))
  exact (.ite (.next .refl) (.next (.ite h4 (.of (State.puts_kept _ _) h4))))

theorem execReferencePresent_kept (a1 : Bool) (s : State) :
    OutKept [.regs, .pwr] s (execReferencePresent a1 s) := by
  delta execReferencePresent
  extract_lets x2 _
  have h4 : Kept [.regs, .pwr] s x2 := (.of (State.puts_kept _ _) .refl)
  exact (.ite (.ite (.next (.of (State.startBoot_kept _) (.upd [.pwr] h4))) (.next (.of (State.puts_kept _ _) h4))) (.next .refl))

theorem State.supplyLost_kept (s : State) :
    Kept [.regs, .dram, .host, .box, .store, .tide, .headTime0, .clock, .obs, .seq, .tid, .couch, .link, .lanes, .hcr, .csc, .loops, .aux, .mem, .time, .bwt, .pwr] s (State.supplyLost s) := by
  delta State.supplyLost
  extract_lets _
  exact (.ite (.of (State.coldReset_kept _) (.of (State.setCause_kept _ _) (.upd [.pwr] .refl))) .refl)

theorem execPwrOkFall_kept (s : State) :
    OutKept [.regs, .dram, .host, .box, .store, .tide, .headTime0, .clock, .obs, .seq, .tid, .couch, .link, .lanes, .hcr, .csc, .loops, .aux, .mem, .time, .bwt, .pwr] s (execPwrOkFall s) := by
  delta execPwrOkFall
  exact (.next (.of (State.supplyLost_kept _) .refl))

theorem execBrownOut_kept (s : State) :
    OutKept [.regs, .dram, .host, .box, .store, .tide, .headTime0, .clock, .obs, .seq, .tid, .couch, .link, .lanes, .hcr, .csc, .loops, .aux, .mem, .time, .bwt, .pwr] s (execBrownOut s) := by
  delta execBrownOut
  exact (.next (.of (State.supplyLost_kept _) .refl))

theorem execProtectiveResetEnd_kept (s : State) :
    OutKept [.regs, .dram, .host, .box, .store, .tide, .headTime0, .clock, .obs, .seq, .tid, .couch, .link, .lanes, .hcr, .csc, .loops, .aux, .mem, .time, .bwt, .pwr] s (execProtectiveResetEnd s) := by
  delta execProtectiveResetEnd
  extract_lets x1 _
  have h3 : Kept [.regs, .dram, .host, .box, .store, .tide, .headTime0, .clock, .obs, .seq, .tid, .couch, .link, .lanes, .hcr, .csc, .loops, .aux, .mem, .time, .bwt, .pwr] s x1 := (.of (State.coldReset_kept _) (.of (State.put_kept _ _ _) .refl))
  exact (.ite (.next (.of (State.startBoot_kept _) (.upd [.pwr] h3))) (.next .refl))

theorem execProtectiveStopLimit_kept (s : State) :
    OutKept [.regs, .pwr] s (execProtectiveStopLimit s) := by
  delta execProtectiveStopLimit
  exact (.next (.ite (.of (State.aonAlone_kept _) .refl) .refl))

theorem State.noteTemp_kept (s : State) (a1 : Bool) (a2 : Bool) :
    Kept [.pwr] s (State.noteTemp s a1 a2) := by
  delta State.noteTemp
  extract_lets _
  exact (.upd [.pwr] .refl)

theorem execDieTempRead_kept (a1 : BitVec 16) (s : State) :
    OutKept (.tid :: .pwr :: reports) s (execDieTempRead a1 s) := by
  delta execDieTempRead
  extract_lets _ _ x4 _ _ _ _ x9 x10
  have h11 : Kept (.tid :: .pwr :: reports) s x4 := (.of (State.puts_kept _ _) .refl)
  have h12 : Kept (.tid :: .pwr :: reports) s x9 := (.of (State.noteTemp_kept _ _ _) h11)
  have h13 : Kept (.tid :: .pwr :: reports) s x10 := (.ite (.of (State.count_kept _ _) (.of (State.raise_kept _ _ _) h12)) h12)
  exact (.next (.ite (.of (State.protect_kept _ _ _ _ _) h13) h13))

theorem State.stepFails_kept (s : State) (a1 : ℕ) (a2 : ℕ) :
    Kept reports s (State.stepFails s a1 a2) := by
  delta State.stepFails
  extract_lets x3
  have h4 : Kept reports s x3 := (.ite (.of (State.puts_kept _ _) .refl) .refl)
  exact (.ite (.of (State.raise_kept _ _ _) h4) h4)

theorem State.firmwareRuns_kept (s : State) (a1 : ℕ) (a2 : ℕ) :
    Kept [.regs, .pwr] s (State.firmwareRuns s a1 a2) := by
  delta State.firmwareRuns
  extract_lets _ x4 _
  have h6 : Kept [.regs, .pwr] s x4 := (.of (State.puts_kept _ _) .refl)
  exact (.of (State.requestDomains_kept _ _) (.upd [.pwr] h6))

theorem State.noImage_kept (s : State) :
    Kept (.pwr :: reports) s (State.noImage s) := by
  delta State.noImage
  exact (.of (State.stepFails_kept _ _ _) (.of (State.aonAlone_kept _) .refl))

theorem execBootImageVerify_kept (a1 : Bool) (a2 : Bool) (a3 : List Byte) (a4 : List Byte) (s : State) :
    OutKept (.pwr :: reports) s (execBootImageVerify a1 a2 a3 a4 s) := by
  delta execBootImageVerify
  extract_lets _ _ _ _ _ x10 _
  have h12 : Kept (.pwr :: reports) s x10 := (.of (State.put_kept _ _ _) .refl)
  exact (.ite (.next .refl) (.ite (.next (.of (State.firmwareRuns_kept _ _ _) .refl)) (.ite (.next (.of (State.raise_kept _ _ _) (.of (State.firmwareRuns_kept _ _ _) h12))) (.next (.of (State.noImage_kept _) (.of (State.put_kept _ _ _) h12))))))

theorem State.firstRoles_kept (s : State) :
    Kept [.regs] s (State.firstRoles s) := by
  delta State.firstRoles
  extract_lets _ x2
  have h3 : Kept [.regs] s x2 := (.ite .refl (.of (State.setCouch_kept _ _ _) .refl))
  exact (.ite h3 (.of (State.setCouch_kept _ _ _) h3))

theorem State.doneInSlack_kept (s : State) :
    Kept (.box :: .headTime0 :: .seq :: .tid :: .couch :: .link :: .hcr :: .pwr :: reports) s (State.doneInSlack s) := by
  delta State.doneInSlack
  exact (.of (State.puts_kept _ _) (.of (State.slackEntry_kept _) .refl))

theorem State.endBringup_kept (s : State) (a1 : ℕ) :
    Kept (.box :: .headTime0 :: .seq :: .tid :: .couch :: .link :: .hcr :: .pwr :: reports) s (State.endBringup s a1) := by
  delta State.endBringup
  extract_lets _ _ _ x5
  have h6 : Kept (.box :: .headTime0 :: .seq :: .tid :: .couch :: .link :: .hcr :: .pwr :: reports) s x5 := (.of (State.raise_kept _ _ _) (.of (State.judgeHold_kept _) (.of (State.doneInSlack_kept _) (.of (State.firstRoles_kept _) (.upd [.pwr] .refl)))))
  exact (.fold (fun _ _ h7 => (.of (State.raise_kept _ _ _) h7)) h6)

theorem State.endWarm_kept (s : State) (a1 : WarmReset) (a2 : ℕ) :
    Kept (.box :: .headTime0 :: .seq :: .tid :: .couch :: .link :: .hcr :: .pwr :: reports) s (State.endWarm s a1 a2) := by
  delta State.endWarm
  extract_lets _ x4
  have h5 : Kept (.box :: .headTime0 :: .seq :: .tid :: .couch :: .link :: .hcr :: .pwr :: reports) s x4 := (.upd [.pwr] .refl)
  exact (.of (State.raise_kept _ _ _) (.ite (.of (State.endBringup_kept _ _) h5) (.of (State.doneInSlack_kept _) h5)))

theorem execBringupDone_kept (s : State) :
    OutKept (.box :: .headTime0 :: .seq :: .tid :: .couch :: .link :: .hcr :: .pwr :: reports) s (execBringupDone s) := by
  delta execBringupDone
  extract_lets _ _ x3
  have h4 : Kept (.box :: .headTime0 :: .seq :: .tid :: .couch :: .link :: .hcr :: .pwr :: reports) s x3 := (.fold (fun _ _ h5 => (.of (State.stepFails_kept _ _ _) h5)) .refl)
  exact (.ite (by
    split
    · exact (.next (.of (State.endWarm_kept _ _ _) h4))
    · exact (.next (.of (State.endBringup_kept _ _) h4))) (.next .refl))

theorem State.trainingLimit_kept (s : State) :
    Kept (.link :: .hcr :: .csc :: reports) s (State.trainingLimit s) := by
  delta State.trainingLimit
  extract_lets x1
  have h2 : Kept (.link :: .hcr :: .csc :: reports) s x1 := (.fold (fun _ _ h3 => (.ite h3 (.of (State.trainFail_kept _ _ _) h3))) .refl)
  exact (.fold (fun _ _ h4 => (by
      extract_lets _
      exact (.ite (.of (State.portFails_kept _ _ _) h4) h4))) h2)

theorem execBringupStepLimit_kept (s : State) :
    OutKept (.link :: .hcr :: .csc :: .pwr :: reports) s (execBringupStepLimit s) := by
  delta execBringupStepLimit
  extract_lets _
  exact (.ite (.next (.of (State.noImage_kept _) .refl)) (.ite (.next (.of (State.trainingLimit_kept _) .refl)) (.next .refl)))

theorem State.startWarm_kept (s : State) (a1 : ℕ) (a2 : ℕ) (a3 : Bool) :
    Kept [.regs, .store, .tid, .pwr] s (State.startWarm s a1 a2 a3) := by
  delta State.startWarm
  extract_lets _ x5 x6 _ _ _ x10 _
  have h12 : Kept [.regs, .store, .tid, .pwr] s x6 := by
    unfold x6
    clear_value x5
    split
    · exact (.of (State.modLedger_kept _ _ _) .refl)
    · exact .refl
  have h13 : Kept [.regs, .store, .tid, .pwr] s x10 := (.of (State.setCause_kept _ _) h12)
  exact (.ite .refl (.of (State.reblank_kept _) (.of (State.haltStage_kept _) (.upd [.pwr] h13))))

theorem execHstReset_kept (a1 : Word) (s : State) :
    OutKept (.store :: .tid :: .pwr :: reports) s (execHstReset a1 s) := by
  delta execHstReset
  exact (.ite (.next (.of (State.domainOffAccess_kept _ _) .refl)) (.next (.ite (.of (State.startWarm_kept _ _ _ _) .refl) .refl)))

theorem execWatchdogExpire_kept (s : State) :
    OutKept [.regs, .store, .tid, .pwr] s (execWatchdogExpire s) := by
  delta execWatchdogExpire
  exact (.next (.of (State.startWarm_kept _ _ _ _) .refl))

theorem execLockstepFault_kept (a1 : Lockstep) (s : State) :
    OutKept [.regs, .store, .tid, .pwr] s (execLockstepFault a1 s) := by
  delta execLockstepFault
  exact (.next (.of (State.startWarm_kept _ _ _ _) .refl))

theorem State.warmHost_kept (s : State) :
    Kept [.host] s (State.warmHost s) := by
  delta State.warmHost
  extract_lets _
  exact (.upd [.host] .refl)

theorem State.warmStrips_kept (s : State) :
    Kept (.box :: .store :: .seq :: .tid :: .csc :: reports) s (State.warmStrips s) := by
  delta State.warmStrips
  extract_lets _ _ x3 x4 _ _
  have h7 : Kept (.box :: .store :: .seq :: .tid :: .csc :: reports) s x3 := (.fold (fun _ _ h8 => (.of (State.modLedger_kept _ _ _) h8)) .refl)
  have h9 : Kept (.box :: .store :: .seq :: .tid :: .csc :: reports) s x4 := (.fold (fun _ _ h10 => (.of (State.forgetStrip_kept _ _) h10)) h7)
  exact (.upd [.box, .store] h9)

theorem State.warmHead_kept (s : State) :
    Kept (.couch :: .link :: .lanes :: .hcr :: reports) s (State.warmHead s) := by
  delta State.warmHead
  extract_lets x1 _ _ _ _ x6 _
  have h8 : Kept (.couch :: .link :: .lanes :: .hcr :: reports) s x1 := .refl
  have h9 : Kept (.couch :: .link :: .lanes :: .hcr :: reports) s x6 := (.upd [.couch, .link, .lanes, .hcr] .refl)
  exact (.fold (fun _ _ h10 => (.ite (.of (State.backFromOff_kept _ _) h10) (.of (State.setCouch_kept _ _ _) h10))) h9)

theorem State.warmTide_kept (s : State) :
    Kept [.tid] s (State.warmTide s) := by
  delta State.warmTide
  extract_lets _ _
  exact (.upd [.tid] .refl)

theorem State.cutSnapshot_kept (s : State) :
    Kept [.hostMem, .free] s (State.cutSnapshot s) := by
  delta State.cutSnapshot
  exact (.ite (by
    split
    · rename_i a1 a2 e3
      have h4 : Kept [.hostMem, .free] s a2 := by
        have k0 := congrArg Prod.snd e3
        rw [← show _ = a2 from k0]
        exact (.of (State.draw_kept _) .refl)
      exact (.of (State.writeHost_kept _ _ _) h4)) .refl)

theorem State.warmRest_kept (s : State) :
    Kept [.hostMem, .obs, .seq, .csc, .mem, .free] s (State.warmRest s) := by
  delta State.warmRest
  extract_lets x1 _ _
  have h4 : Kept [.hostMem, .obs, .seq, .csc, .mem, .free] s x1 := (.of (State.cutSnapshot_kept _) .refl)
  exact (.upd [.obs, .seq, .csc, .mem] h4)

theorem State.warmState_kept (s : State) :
    Kept (.box :: .store :: .seq :: .tid :: .couch :: .link :: .lanes :: .hcr :: .csc :: .mem :: .free :: reports) s (State.warmState s) := by
  delta State.warmState
  extract_lets x1
  have h2 : Kept (.box :: .store :: .seq :: .tid :: .couch :: .link :: .lanes :: .hcr :: .csc :: .mem :: .free :: reports) s x1 := (.ite (.of (State.timeLinkLost_kept _) .refl) .refl)
  exact (.of (State.warmRest_kept _) (.of (State.warmTide_kept _) (.of (State.warmHead_kept _) (.of (State.warmStrips_kept _) (.of (State.warmHost_kept _) h2)))))

theorem State.warmRegs_kept (s : State) :
    Kept [.regs] s (State.warmRegs s) := by
  delta State.warmRegs
  exact (.of (State.puts_kept _ _) (.of (State.rewordRegs_kept _ _ _) .refl))

theorem State.warmShow_kept (s : State) :
    Kept [.regs, .seq, .aux, .free] s (State.warmShow s) := by
  delta State.warmShow
  extract_lets x1
  have h2 : Kept [.regs, .seq, .aux, .free] s x1 := (.of (State.showProfiles_kept _) (.of (State.showStore_kept _) (.of (State.showJobs_kept _) (.of (State.showVats_kept _) .refl))))
  exact (.of (State.showConfig_kept _) (.of (State.timeWarm_kept _) (.of (State.auxWarm_kept _) (.of (State.showPorts_kept _) (.of (State.showChains_kept _) (.of (State.noOpenStrip_kept _) h2))))))

theorem State.warmEvents_kept (s : State) (a1 : WarmReset) :
    Kept (.hcr :: .bwt :: reports) s (State.warmEvents s a1) := by
  delta State.warmEvents
  extract_lets x2 x3 x4 x5 x6
  have h7 : Kept (.hcr :: .bwt :: reports) s x2 := (.fold (fun _ _ h8 => (.of (State.loopSafe_kept _ _ _) (.of (State.put_kept _ _ _) h8))) .refl)
  have h9 : Kept (.hcr :: .bwt :: reports) s x3 := (.ite (.of (State.refuseProposal_kept _ _) h7) h7)
  have h10 : Kept (.hcr :: .bwt :: reports) s x4 := (.of (State.count_kept _ _) h9)
  have h11 : Kept (.hcr :: .bwt :: reports) s x5 := by
    unfold x5
    split
    · exact (.of (State.raise_kept _ _ _) (.of (State.count_kept _ _) h10))
    · exact (.of (State.raise_kept _ _ _) (.of (State.count_kept _ _) h10))
    · exact h10
  have h12 : Kept (.hcr :: .bwt :: reports) s x6 := (.ite (.of (State.consumeFlagged_kept _ _) h11) h11)
  split
  · exact (.of (State.raiseSev_kept _ _ _ _) h12)
  · exact h12

theorem State.warmSteps_kept (s : State) (a1 : WarmReset) :
    Kept [.pwr] s (State.warmSteps s a1) := by
  delta State.warmSteps
  extract_lets _ _ _ x5
  have h6 : Kept [.pwr] s x5 := (.upd [.pwr] .refl)
  exact (.of (State.requestDomains_kept _ _) h6)

theorem execWarmResetUnits_kept (s : State) :
    OutKept (.box :: .store :: .seq :: .tid :: .couch :: .link :: .lanes :: .hcr :: .csc :: .aux :: .mem :: .bwt :: .pwr :: .free :: reports) s (execWarmResetUnits s) := by
  delta execWarmResetUnits
  split
  · exact (.next .refl)
  · exact (.ite (.next .refl) (.next (.of (State.warmSteps_kept _ _) (.of (State.warmEvents_kept _ _) (.of (State.warmShow_kept _) (.of (State.warmRegs_kept _) (.of (State.warmState_kept _) .refl)))))))

/-! ### Observe -/

theorem execTraceSync_kept (s : State) :
    OutKept reports s (execTraceSync s) := by
  delta execTraceSync
  exact (.next (.ite (.of (State.trace_kept _ _ _) .refl) .refl))

theorem execTraceDramSample_kept (s : State) :
    OutKept (.mem :: reports) s (execTraceDramSample s) := by
  delta execTraceDramSample
  extract_lets _ _ _ x4 _ _
  have h7 : Kept (.mem :: reports) s x4 := (.fold (fun _ _ h8 => (.of (State.trace_kept _ _ _) h8)) .refl)
  exact (.ite (.next .refl) (.next (.upd [.mem] h7)))

theorem execRingFreeze_kept (s : State) :
    OutKept [.regs] s (execRingFreeze s) := by
  delta execRingFreeze
  exact (.next (.ite (.of (State.put_kept _ _ _) .refl) .refl))

theorem execObsCtrlWrite_kept (a1 : Word) (s : State) :
    OutKept reports s (execObsCtrlWrite a1 s) := by
  delta execObsCtrlWrite
  extract_lets x2 _ _ x5 x6 _ _ x9
  have h10 : Kept reports s x2 := (.of (State.writeWord_kept _ _ _) .refl)
  have h11 : Kept reports s x5 := (.ite (.of (State.packetToPort_kept _ _ _) h10) h10)
  have h12 : Kept reports s x6 := (.of (State.puts_kept _ _) h11)
  have h13 : Kept reports s x9 := (.upd [.obs] h12)
  exact (.ite (.next (.of (State.packetToRing_kept _ _ _) h13)) (.next h11))

theorem execObsTrigWrite_kept (a1 : BitVec 25) (a2 : Bool) (a3 : BitVec 64) (s : State) :
    OutKept reports s (execObsTrigWrite a1 a2 a3 s) := by
  delta execObsTrigWrite
  extract_lets _ _ x6
  have h7 : Kept reports s x6 := (.of (State.writeAny_kept _ _ _ _) .refl)
  exact (.ite (.next .refl) (.next (.ite (.of (State.puts_kept _ _) h7) h7)))

theorem execObsConfigWrite_kept (a1 : BitVec 25) (a2 : Bool) (a3 : BitVec 64) (s : State) :
    OutKept reports s (execObsConfigWrite a1 a2 a3 s) := by
  delta execObsConfigWrite
  extract_lets _
  exact (.ite (.next .refl) (.ite (.next (.of (State.raise_kept _ _ _) .refl)) (.next (.of (State.writeAny_kept _ _ _ _) .refl))))

theorem execSnapshotGo_kept (s : State) :
    OutKept reports s (execSnapshotGo s) := by
  delta execSnapshotGo
  extract_lets _ _ _
  exact (.ite (.next (.of (State.domainOffAccess_kept _ _) .refl)) (.ite (.next .refl) (.next (.of (State.puts_kept _ _) (.upd [.obs] .refl)))))

theorem execSnapshotDone_kept (s : State) :
    OutKept reports s (execSnapshotDone s) := by
  delta execSnapshotDone
  extract_lets _ _ x3 _ x5
  have h6 : Kept reports s x3 := (.of (State.writeHost_kept _ _ _) .refl)
  have h7 : Kept reports s x5 := (.of (State.puts_kept _ _) (.upd [.obs] h6))
  exact (.ite (.next .refl) (.next (.of (State.raise_kept _ _ _) (.of (State.count_kept _ _) h7))))

theorem State.scanPlain_kept (s : State) (a1 : ScanInstr) (a2 : BitVec 32) :
    Kept [.regs, .obs, .pwr] s (State.scanPlain s a1 a2) := by
  delta State.scanPlain
  extract_lets _ _ x5
  have h6 : Kept [.regs, .obs, .pwr] s x5 := (.upd [.obs] .refl)
  exact (.ite (.of (State.startBoot_kept _) h6) h6)

theorem State.scanDrive_kept (s : State) (a1 : ScanInstr) (a2 : BitVec 32) :
    Kept [.regs, .dram, .host, .box, .store, .tide, .headTime0, .clock, .obs, .seq, .tid, .couch, .link, .lanes, .hcr, .csc, .loops, .aux, .mem, .time, .bwt, .pwr] s (State.scanDrive s a1 a2) := by
  delta State.scanDrive
  extract_lets _
  exact (.ite (.of (State.coldReset_kept _) (.upd [.obs] .refl)) (.of (State.scanPlain_kept _ _ _) .refl))

theorem execBypass_kept (s : State) :
    OutKept [.regs, .obs, .pwr] s (execBypass s) := by
  delta execBypass
  exact (.next (.of (State.scanPlain_kept _ _ _) .refl))

theorem execIdcode_kept (s : State) :
    OutKept [.regs, .obs, .pwr] s (execIdcode s) := by
  delta execIdcode
  exact (.next (.of (State.scanPlain_kept _ _ _) .refl))

theorem execSamplePreload_kept (s : State) :
    OutKept [.regs, .obs, .pwr, .free] s (execSamplePreload s) := by
  delta execSamplePreload
  split
  · rename_i a1 a2 e3
    have h4 : Kept [.regs, .obs, .pwr, .free] s a2 := by
      have k0 := congrArg Prod.snd e3
      rw [← show _ = a2 from k0]
      exact (.of (State.draw_kept _) .refl)
    exact (.next (.of (State.scanPlain_kept _ _ _) h4))

theorem execExtest_kept (s : State) :
    OutKept [.regs, .dram, .host, .box, .store, .tide, .headTime0, .clock, .obs, .seq, .tid, .couch, .link, .lanes, .hcr, .csc, .loops, .aux, .mem, .time, .bwt, .pwr, .free] s (execExtest s) := by
  delta execExtest
  split
  · rename_i a1 a2 e3
    have h4 : Kept [.regs, .dram, .host, .box, .store, .tide, .headTime0, .clock, .obs, .seq, .tid, .couch, .link, .lanes, .hcr, .csc, .loops, .aux, .mem, .time, .bwt, .pwr, .free] s a2 := by
      have k0 := congrArg Prod.snd e3
      rw [← show _ = a2 from k0]
      exact (.of (State.draw_kept _) .refl)
    exact (.next (.of (State.scanDrive_kept _ _ _) h4))

theorem execClamp_kept (s : State) :
    OutKept [.regs, .dram, .host, .box, .store, .tide, .headTime0, .clock, .obs, .seq, .tid, .couch, .link, .lanes, .hcr, .csc, .loops, .aux, .mem, .time, .bwt, .pwr] s (execClamp s) := by
  delta execClamp
  exact (.next (.of (State.scanDrive_kept _ _ _) .refl))

theorem execHighz_kept (s : State) :
    OutKept [.regs, .dram, .host, .box, .store, .tide, .headTime0, .clock, .obs, .seq, .tid, .couch, .link, .lanes, .hcr, .csc, .loops, .aux, .mem, .time, .bwt, .pwr] s (execHighz s) := by
  delta execHighz
  exact (.next (.of (State.scanDrive_kept _ _ _) .refl))

theorem execTestLogicReset_kept (s : State) :
    OutKept [.regs, .dram, .host, .box, .store, .tide, .headTime0, .clock, .obs, .seq, .tid, .couch, .link, .lanes, .hcr, .csc, .loops, .aux, .mem, .time, .bwt, .pwr] s (execTestLogicReset s) := by
  delta execTestLogicReset
  extract_lets _ _ x3
  have h4 : Kept [.regs, .dram, .host, .box, .store, .tide, .headTime0, .clock, .obs, .seq, .tid, .couch, .link, .lanes, .hcr, .csc, .loops, .aux, .mem, .time, .bwt, .pwr] s x3 := (.upd [.obs] .refl)
  exact (.next (.ite (.of (State.startBoot_kept _) (.of (State.coldReset_kept _) (.of (State.setCause_kept _ _) h4))) h4))

/-! ### Clocks -/

theorem State.countClocks_kept (s : State) :
    Kept [.aon, .tide, .clock] s (State.countClocks s) := by
  delta State.countClocks
  extract_lets _
  exact (.upd [.aon, .tide, .clock] .refl)

theorem State.watchQuiet_kept (s : State) :
    Kept [.seq] s (State.watchQuiet s) := by
  delta State.watchQuiet
  extract_lets _ _
  exact (.upd [.seq] .refl)

theorem State.watchQuads_kept (s : State) :
    Kept [.pwr] s (State.watchQuads s) := by
  delta State.watchQuads
  extract_lets _ _ _ _
  exact (.upd [.pwr] .refl)

theorem State.reportLost_kept (s : State) (a1 : ℕ) :
    Kept reports s (State.reportLost s a1) := by
  delta State.reportLost
  extract_lets _ _ _ _ _ x7
  have h8 : Kept reports s x7 := (.ite (.upd [.obs] .refl) (.upd [.obs] .refl))
  exact (.ite .refl (.of (State.raise_kept _ _ _) h8))

theorem State.reportSat_kept (s : State) (a1 : ℕ) :
    Kept reports s (State.reportSat s a1) := by
  delta State.reportSat
  extract_lets _ _ _
  exact (.ite .refl (.ite (.of (State.raise_kept _ _ _) (.of (State.count_kept _ _) (.upd [.obs] .refl))) (.upd [.obs] .refl)))

theorem State.drainBacklog_kept (s : State) :
    Kept [.couch] s (State.drainBacklog s) := by
  delta State.drainBacklog
  extract_lets _ _
  exact (.ite .refl (.upd [.couch] .refl))

theorem State.statusDue_kept (s : State) :
    Kept [.csc] s (State.statusDue s) := by
  delta State.statusDue
  extract_lets _
  exact (.ite (.of (State.sendStatus_kept _ _ _) .refl) .refl)

theorem State.clockTick_kept (s : State) :
    Kept (.aon :: .tide :: .clock :: .seq :: .couch :: .csc :: .mem :: .pwr :: reports) s (State.clockTick s) := by
  delta State.clockTick
  exact (.fold (fun _ _ h1 => (.of (State.reportSat_kept _ _) h1)) (.of (State.reportLost_kept _ _) (.of (State.reportLost_kept _ _) (.of (State.reportCorrected_kept _) (.of (State.statusDue_kept _) (.of (State.drainBacklog_kept _) (.of (State.watchQuads_kept _) (.of (State.watchQuiet_kept _) (.of (State.countClocks_kept _) .refl)))))))))

end Sys2Proof.Machine
end

