-- ==== Sys2Proof/Laws/Reported.lean ====
section
/-! SUPPORT. What keeps `Reported`: no change, a report, a register put, a counted register, one after the other. -/
namespace Sys2Proof.Machine

set_option Elab.async false

variable {l m : List Field} {s t u : State}

theorem SameBut.of_kept {P : List Part} (h : Kept P s t) : SameBut P s t := h.eq

theorem RegsBut.trans (h : RegsBut l s t) (k : RegsBut m t u) : RegsBut (l ++ m) s u := fun g q a =>
  (k g q fun f hf => a f (List.mem_append_right _ hf)).trans (h g q fun f hf => a f (List.mem_append_left _ hf))

theorem RegsBut.weaken (h : RegsBut l s t) (k : ∀ f ∈ l, f ∈ m) : RegsBut m s t := fun g q a =>
  h g q fun f hf => a f (k f hf)

theorem RegsBut.of_regs (h : t.regs = s.regs) : RegsBut l s t := fun g _ _ => by unfold State.get; rw [h]

theorem RegsBut.put (s : State) (f : Field) (x : Nat) : RegsBut [f] s (s.put f x) := fun _ _ a =>
  State.get_put_apart s x (a f (List.mem_singleton_self f))

theorem Noted.regsBut (h : Noted s t) : RegsBut [] s t := fun g q _ => h.quiet g q

theorem Noted.reported (h : Noted s t) : Reported [] s t := ⟨h.kept.eq, h.host, h.regsBut, h.ring⟩

theorem Reported.rfl' (s : State) : Reported [] s s := (Noted.rfl' s).reported

theorem Reported.trans (h : Reported l s t) (k : Reported m t u) (e : t.get Reg.OBS_CTRL_RING_EN = s.get Reg.OBS_CTRL_RING_EN) :
    Reported (l ++ m) s u where
  parts := by
    have h1 := h.parts
    have k1 := k.parts
    unfold SameBut at h1 k1 ⊢
    rw [h1] at k1
    exact k1
  host := by
    have h1 := h.host
    have k1 := k.host
    rw [h1] at k1
    exact k1
  regs := h.regs.trans k.regs
  mem z := (k.mem (e.trans z)).trans (h.mem z)

theorem Reported.put (s : State) (f : Field) (x : Nat) : Reported [f] s (s.put f x) :=
  ⟨rfl, rfl, RegsBut.put s f x, fun _ => rfl⟩

theorem Reported.weaken (h : Reported l s t) (k : ∀ f ∈ l, f ∈ m) : Reported m s t :=
  ⟨h.parts, h.host, h.regs.weaken k, h.mem⟩

end Sys2Proof.Machine
end

