-- ==== Sys2Proof/WellFormed.lean ====
section
/-! DEFINITION. Well-formed commands: a descriptor has 64 bytes (R443), a record is a whole number of 8-byte words and
holds at least its header (R54), and a byte buffer that a job reads is as long as its descriptor can name. -/
namespace Sys2Proof

/-- R443: a descriptor has 64 bytes. -/
def Desc.wf (d : Desc) : Bool := decide (d.bytes.length = 64)

/-- R54: a record is a whole number of 8-byte words, at least one. -/
def recordWf (rec : List Byte) : Bool := decide (rec.length % 8 = 0 ∧ 0 < rec.length)

/-- R450, R452, R357: a table or a phase list is a whole number of 8-byte words of at most 2^24 bytes. -/
def tableWf (t : List Byte) : Bool := decide (t.length % 8 = 0 ∧ t.length ≤ 16777216)

/-- A command whose operands have the shape the spec gives them; operands with types of a fixed width need no check. -/
def Instr.wf : Instr → Bool
  | .sqDoorbell _ _ => true
  | .eqDoorbell _ _ => true
  | .layout d => d.wf
  | .streamRelease d => d.wf
  | .strip d => d.wf
  | .stopStrip d => d.wf
  | .resume d => d.wf
  | .endStrip d => d.wf
  | .ledgerRelease d => d.wf
  | .stageMove d => d.wf
  | .stageTable d => d.wf
  | .aux d => d.wf
  | .recoat d => d.wf
  | .hcrMeasure d => d.wf
  | .hcrAlign d => d.wf
  | .hcrPropose d => d.wf
  | .segCompress d => d.wf
  | .segDecompress d => d.wf
  | .inflate d => d.wf
  | .continueJob d => d.wf
  | .checkScan d => d.wf
  | .nop d => d.wf
  | .eventRecordWrite _ => true
  | .eqInterrupt _ => true
  | .msixUnmask _ => true
  | .hstAbort _ => true
  | .abortComplete => true
  | .hstReset _ => true
  | .warmResetUnits => true
  | .hostReadTimeout _ => true
  | .hostReadError _ _ => true
  | .pcieLinkDown => true
  | .pcieLinkUp _ _ => true
  | .perstNAssert => true
  | .perstNDeassert => true
  | .configSpaceReady => true
  | .d3hotEntry => true
  | .hstSqBaseWrite _ _ => true
  | .hstSqCfgWrite _ _ => true
  | .hstEqBaseWrite _ _ => true
  | .hstEqCfgWrite _ _ => true
  | .hstCtrlWrite _ => true
  | .registerWrite _ _ _ => true
  | .counterClear _ _ _ => true
  | .streamRecord _ rec => recordWf rec
  | .stripRecord _ rec => recordWf rec
  | .doseTable _ rec => recordWf rec
  | .stripEnd _ rec => recordWf rec
  | .cellBegin _ rec => recordWf rec
  | .cellEnd _ rec => recordWf rec
  | .rect _ rec => recordWf rec
  | .trap _ rec => recordWf rec
  | .disc _ rec => recordWf rec
  | .patch _ rec => recordWf rec
  | .ref _ rec => recordWf rec
  | .aref _ rec => recordWf rec
  | .reamMark _ rec => recordWf rec
  | .margin _ rec => recordWf rec
  | .seam _ rec => recordWf rec
  | .pad _ rec => recordWf rec
  | .tileJobIssue => true
  | .tileCorrected _ _ => true
  | .layoutRereadDone _ _ _ => true
  | .coarseJobDone _ _ => true
  | .jobWatchdog _ _ => true
  | .rerenderLate _ _ _ => true
  | .vatRoleReqWrite _ => true
  | .calProfileWrite _ _ _ => true
  | .haloWaitTimeout _ _ => true
  | .tileStoreDone _ => true
  | .stoRoomWait _ _ => true
  | .chunkDecoded _ _ => true
  | .fillDeadline _ _ => true
  | .stoConfigWrite _ _ _ => true
  | .codecJobEnd _ _ => true
  | .tickEmit _ => true
  | .zeroRun _ => true
  | .couchDomainFail _ => true
  | .swapTestStart => true
  | .swapTestSwitch _ => true
  | .swapTestEnd => true
  | .swapRequest _ => true
  | .cchRoleReqWrite _ => true
  | .cchResBaseWrite _ _ _ => true
  | .statusFrame _ _ _ => true
  | .driverStatusStale _ => true
  | .echoMissing _ => true
  | .ctrlReply _ _ _ => true
  | .ctrlReplyTimeout _ => true
  | .discover _ _ => true
  | .ident _ _ => true
  | .setFactors _ _ => true
  | .setCurve _ _ => true
  | .timeLoad _ _ => true
  | .timeRead _ _ => true
  | .measure _ _ => true
  | .recordRead _ _ => true
  | .arm _ _ => true
  | .txEq _ _ => true
  | .pollSend _ => true
  | .chainTrainStart _ => true
  | .chainAlignDone _ _ => true
  | .chainTrainTimeout _ => true
  | .eqAdaptWaitEnd _ => true
  | .eqTryEnd _ _ _ _ => true
  | .eqDeferredRetrain _ => true
  | .syncMarkerReturn _ _ _ => true
  | .headTimeRecheck => true
  | .chainStatusLoss _ => true
  | .hlkRetrainReq _ => true
  | .laneAlignLost _ _ => true
  | .lanePllUnlock _ => true
  | .lanePhaseSlip _ _ => true
  | .tuneBurst _ => true
  | .lnsLoopStart _ => true
  | .lnsLoopEnd _ _ => true
  | .lnsSscWrite _ => true
  | .lnsOutEnWrite _ => true
  | .lnsEidleWrite _ _ => true
  | .strobeApply _ => true
  | .posTrigger _ => true
  | .positionFrame _ frame => decide (frame.length = 8)
  | .posFrameLate _ => true
  | .quadEdge _ _ _ => true
  | .quadIndex _ => true
  | .tidQrefArm _ => true
  | .plannerStep _ _ _ _ => true
  | .approachReached => true
  | .setpointFrame => true
  | .tidLimitWrite _ _ _ => true
  | .tidGovCapWrite _ => true
  | .tidConfigWrite _ _ _ => true
  | .snsTrigger _ => true
  | .sensorFrame _ frame => decide (frame.length = 6)
  | .loopCapture _ => true
  | .loopSwapRequest _ _ => true
  | .loopModeWrite _ _ => true
  | .loopBankWrite _ _ _ => true
  | .loopOpenWrite _ _ => true
  | .loopConfigWrite _ _ _ => true
  | .floodEnter => true
  | .promptBreakEnter => true
  | .ebbToSlack => true
  | .breakToSlack => true
  | .resumeStart => true
  | .neapEnter => true
  | .neapWake => true
  | .neapWakeDone => true
  | .hcrSchedule => true
  | .hcrMeasRunEnd => true
  | .hcrMeasTimeout => true
  | .strobeCalWindow _ => true
  | .measReq _ => true
  | .calReq _ => true
  | .stepGenerate _ => true
  | .auxPlannerStep _ _ _ _ => true
  | .encEdge _ _ _ => true
  | .encIndex _ => true
  | .auxSettleCheck _ => true
  | .limitSwitch _ _ _ => true
  | .auxPhaseStart _ => true
  | .auxPhaseEnd _ => true
  | .auxDwellEnd _ => true
  | .auxStopCmd _ => true
  | .auxClear _ => true
  | .auxHoldRetry _ => true
  | .auxHoldSkip _ => true
  | .auxCfgWrite _ _ _ => true
  | .auxLimitWrite _ _ _ => true
  | .cscPortTrainStart _ => true
  | .cscTrainStepDone _ _ _ _ _ => true
  | .cscTrainTimeout _ => true
  | .latencyMarker _ _ _ _ _ => true
  | .tickMessage _ _ _ _ _ _ _ => true
  | .sampleMessage _ _ _ _ => true
  | .timeMessage _ _ _ _ => true
  | .planMessage _ _ _ _ => true
  | .stopMessage _ _ _ _ _ => true
  | .ctrlMessage _ _ => true
  | .statusMessage _ _ _ _ _ _ => true
  | .rateMessage _ _ _ _ => true
  | .haloMessage _ _ _ _ _ values => decide (values.length = 1024)
  | .ackMessage _ _ _ => true
  | .timeSetMessage _ _ => true
  | .messageResend _ => true
  | .tickGapTimeout => true
  | .tlLaneLost _ _ => true
  | .cscConfigWrite _ _ => true
  | .dramRequest _ _ _ data _ _ => decide (data.length ≤ 64)
  | .dramPick _ _ _ => true
  | .requestAged _ => true
  | .refreshDue _ => true
  | .refreshBurst _ => true
  | .memThermPoll _ _ _ => true
  | .dramTrainInstanceEnd _ _ _ _ _ _ _ _ => true
  | .dramInitDone => true
  | .dramRetrainStart => true
  | .memRetrainWrite _ => true
  | .memRateWrite _ => true
  | .memRefModeWrite _ => true
  | .dramReadReturn _ _ _ => true
  | .repairWrite _ => true
  | .scrubStep _ => true
  | .erasureSweepEnd _ _ _ => true
  | .intEraseReqGo _ => true
  | .sramPatrol _ _ _ _ => true
  | .testRawDramWrite => true
  | .testRawDramRead => true
  | .testEncode => true
  | .testRawSramWrite => true
  | .testRawSramRead => true
  | .intChkValWrite _ _ _ => true
  | .checkScanEnd _ => true
  | .ptpSync _ _ _ => true
  | .ptpFollowUp _ _ => true
  | .ptpDelayResp _ _ _ => true
  | .ptpPdelayReq _ _ => true
  | .ptpPdelayResp _ _ _ _ => true
  | .ptpPdelayRespFollowUp _ _ _ => true
  | .ptpAnnounce _ _ => true
  | .ptpDelayReqSend _ _ => true
  | .announceTimeout _ => true
  | .delayConfirmEnd => true
  | .holdLong => true
  | .armedStep => true
  | .acquisitionStepHeld => true
  | .timeMapLatch => true
  | .telemetrySend _ => true
  | .ethLinkChange _ _ => true
  | .timStepArm => true
  | .timCtrlWrite _ => true
  | .timNowRead => true
  | .timMapHeadRead => true
  | .timPortCfgWrite _ _ _ => true
  | .bwtSubmit => true
  | .bwtWithdraw => true
  | .bwtHandover => true
  | .proposalLoaded _ => true
  | .grdStatus _ => true
  | .grdRead _ => true
  | .grdConfirm _ => true
  | .grdReject _ => true
  | .proposalExpired => true
  | .svnBurnDone _ => true
  | .permitDeassert => true
  | .permitRestored => true
  | .pwrOkRise => true
  | .pwrOkFall => true
  | .brownOut => true
  | .bootImageVerify _ _ image0 image1 => decide (image0.length ≤ 2 ^ 24 ∧ image1.length ≤ 2 ^ 24)
  | .bringupDone => true
  | .refLost => true
  | .pllUnlock _ => true
  | .protectiveResetEnd => true
  | .dieTempRead _ => true
  | .watchdogExpire => true
  | .lockstepFault _ => true
  | .domainPowerUp _ => true
  | .domainPowerFault _ => true
  | .quadNeapEnter _ => true
  | .traceSync => true
  | .traceDramSample => true
  | .ringFreeze => true
  | .obsCtrlWrite _ => true
  | .obsTrigWrite _ _ _ => true
  | .obsConfigWrite _ _ _ => true
  | .snapshotGo => true
  | .snapshotDone => true
  | .bypass => true
  | .idcode => true
  | .samplePreload => true
  | .extest => true
  | .clamp => true
  | .highz => true
  | .testLogicReset => true
  | .d0Entry => true
  | .lanePllLock _ => true
  | .referencePresent _ => true
  | .bringupStepLimit => true
  | .receiverAdaptEnd _ _ => true
  | .protectiveStopLimit => true

end Sys2Proof
end

