-- ==== Sys2Proof/Tests/Slice0.lean ====
section
/-! SUPPORT. The author's own tests: the well-formedness smoke, states that meet the hypotheses of the obligations, and a
few effects on small states. -/
namespace Sys2Proof.Tests
open Sys2Proof Sys2Proof.Machine

set_option Elab.async false
set_option maxRecDepth 100000
set_option linter.unusedVariables false

/-- The reset state with some register fields replaced. -/
def at' (l : List (Field × Nat)) : State := State.reset.puts l

/-- The same with every power domain up. -/
def up (l : List (Field × Nat)) : State := at' ((Reg.PWR_DOMAIN_STATUS_ON, 65535) :: l)

/-- A state of the host interface: an event record waits on ring 0, which may be written. -/
def evState : State :=
  let s := up [(Reg.HST_EQ_CFG_EN 0, 1), (Reg.HST_EQ_CFG_SIZE 0, 4), (Reg.HST_EQ_STATUS_PHASE 0, 1), (Reg.HST_EQ_BASE_BASE 0, 1),
    (Reg.HST_STATUS_LINK_UP, 1)]
  s.modEq 0 fun q => { q with queue := [⟨0x1009, 2, 0, 0, 0, [], false⟩] }

/-- Event ring 0 armed, with an urgent record written. -/
def dueState : State :=
  (up [(Reg.HST_EQ_CFG_EN 0, 1), (Reg.HST_EQ_IDX_PROD 0, 1), (Reg.HST_STATUS_LINK_UP, 1)]).modEq 0 fun q =>
    { q with armed := true, urgent := true }

/-- A head-care job reads its alignment from host memory, and has met two timeouts. -/
def readFailState : State :=
  { State.reset with
    host := { State.reset.host with jobs := [⟨7, 1, 0, 0x29, 5, 0, false⟩], retries := [(⟨.job 7, 0x1000⟩, 2)] },
    hcr := { State.reset.hcr with jobs := [{ aseq := 7, opcode := 0x29 }] } }

/-- The register row at an offset. -/
def rowAt (off : Nat) : RegRow := ((findRow off).map (·.1)).getD ⟨"", 0, [], false, []⟩

/-- Bring-up at the end of steps 4 to 6, every chain FAILED and no port in use. -/
def bootState : State :=
  { up ((List.range 128).map (fun n => (Reg.HLK_CHAIN_STATE_STATE n, 8)) ++
      [(Reg.PWR_BRINGUP_STEP, 4), (Reg.HST_STATUS_READY, 1), (Reg.MEM_STATUS_READY, 1)]) with
    pwr := { State.reset.pwr with ok := true, later := [(0x1303, [])] } }

/-- An image of SVN 3 and a body of two bytes, signed with the private key 1: the key is the base point of P-384, so that its
hash and the signature were computed outside the model, from FIPS 180-4 and FIPS 186-5. -/
def signedImage : List Byte :=
  leBytes 211
    0x201b14fdf5d3c6d3d16bc777be51850762a4037c246310d5006445aad280c1d5b960278048bd2ec8ecbd92746a44c713b7461df9552c7a9965bf8640ebe6ee8e04f9e6eb99fd107d251d634f4a659590289f0975bc545002669d9d2a37b0599d9085f0eea907c1d437a9d817e1dceb1600ac0b8f0b51331dae97c149a28bd1df4f829dc9292bf989e5d6f2c26964ade1736b70a7672385e543a6c2955bf5df20255382a5482e041f759989ba78b623b1d6e74ad20f31ec7b18e37058bbe22ca87aa0400000002000000030000000157544651

/-- CTL boots in step 2, with the hash of that key in the fuses. -/
def trustState : State :=
  { up [(Reg.PWR_BRINGUP_STEP, 2)] with
    pwr := { State.reset.pwr with
      keyHash := 0x8c4f262412b7f9ed867606705a130de5212fd048fbaf8c3842f4a240f4b45ba0c90f82194ccdda3ed89c96b0afe1d51d } }

/-- An open version 3 stream with room, of which some bytes have been supplied. -/
def openStream : Stream :=
  { Stream.closed with isOpen := true, ctx := .stream, received := 100000, parsed := 16, workLen := 16777216 }

/-- A strip of two reams whose STRIP record stands at offset 16. -/
def aStrip : StripRec := ⟨77, 512, 4096, 16, false, [], [], [], [], false, none, 0⟩

/-- The same with its table, in section 0. -/
def bodyStrip : StripRec := { aStrip with table := 0 :: List.replicate 255 60, sections := [Section.new 400] }

/-- The machine with stream handle 2 as given. -/
def withStream (m : Stream) : State := (up []).modStream 2 fun _ => m

/-- Strip 77, posted in backwash, whose STRIP record alone has been parsed, all its bytes supplied. -/
def backState : State :=
  let s := withStream { openStream with ctx := .header false, parsed := 40, strips := [aStrip] }
  { s with box := { s.box with strips :=
    [Strip.posted ⟨5, leBytes 8 0x10 ++ leBytes 8 0 ++ leBytes 4 77 ++ leBytes 1 2 ++ leBytes 1 1⟩ ⟨3, 5, 0, 0x10, 0, 0, false⟩ 2] } }

/-- Submission ring 5 enabled with one descriptor, the link up, firmware running, DRAM ready. -/
def ringState : State :=
  up [(Reg.HST_STATUS_READY, 1), (Reg.HST_CTRL_EN, 1), (Reg.HST_SQ_CFG_EN 5, 1), (Reg.HST_SQ_IDX_PROD 5, 1),
    (Reg.HST_STATUS_LINK_UP, 1), (Reg.MEM_STATUS_READY, 1), (Reg.MEM_SIZE_BYTES, 0x6000000000)]

/-- A strip in the state of an open one, under record 2. -/
def anOpenStrip : Strip :=
  { Strip.posted ⟨5, leBytes 8 0 ++ leBytes 8 0 ++ leBytes 4 77⟩ ⟨3, 5, 0, 0x10, 0, 0, false⟩ 2 with isOpen := true }

/-- A strip is open, the sequencer in state q, and a descriptor waits on ring 5. -/
def openState (q : Nat) : State :=
  { ringState.put Reg.EXP_STATE_STATE q with
    host := { ringState.host with jobs := [⟨3, 5, 0, 0x10, 0, 0, false⟩], nextAseq := 4 },
    box := { ringState.box with strips := [anOpenStrip] } }

/-- A STRIP descriptor of strip 77 on stream 3. -/
def aPost : Desc :=
  ⟨5, leBytes 8 0x10 ++ leBytes 8 0 ++ leBytes 4 77 ++ leBytes 1 3 ++ leBytes 3 0 ++ leBytes 4 (calDigest State.reset.regs 0) ++ leBytes 36 0⟩

/-- A state in which that strip may be posted: the store area, the ledger and the reserve table in place. -/
def postState : State :=
  { ringState.puts [(Reg.MEM_STATUS_RATE, 2), (Reg.STO_AREA_BLOCKS_BLOCKS, 4096), (Reg.STO_LEDGER_BASE_BASE, 1024),
      (Reg.STO_LEDGER_CFG_SLOTS, 2), (Reg.CCH_RES_BASE_BASE, 262144), (Reg.HLK_ROW_PITCH_PITCH, 1), (Reg.HLK_BAND_PITCH_PITCH, 128)] with box := { ringState.box with streams := listSet ringState.box.streams 3 openStream } }

/-- A section that has its REAM_MARK, with no shapes. -/
def markedSection : Section := { Section.new 400 with marked := true, markOff := 480, wm := List.replicate 16 1 }

/-- A strip record of two reams, complete. -/
def wholeStrip : StripRec := { bodyStrip with sections := [markedSection, { markedSection with ream := 1 }], ended := true }

/-- The posted strip of it. -/
def postedStrip : Strip := Strip.posted aPost ⟨3, 5, 0, 0x10, 0, 0, false⟩ 0

/-- The strip 77 posted under record 0, its layout parsed, the store area in place. -/
def stripState : State :=
  let s := (postState.modStream 3 fun _ => { openStream with strips := [wholeStrip] }).modLedger 0 fun l =>
    { l with state := 1, stripId := 77, lines := 512 }
  { s with box := { s.box with strips := [postedStrip] } }

/-- The same with one coarse render of tile 3 of ream 0 stored by vat 9. -/
def stripState2 : State :=
  stripState.modStrip 0 fun st => { st with coarseJobs := [⟨0, 3, [(9, [5, 6])], false⟩] }

/-- A FINE job of tile 3 of ream 0 on vat 2. -/
def fineJob : TileJob := { TileJob.of .fine 0 0 3 with vat := 2 }

/-- Coarse sets of both reams, empty. -/
def emptySets : List (Nat × Nat × List Nat) := (List.range 32).map fun i => (i / 16, i % 16, [])

/-- A ream of the strip with every tile accepted. -/
def fullReam (r : Nat) : ReamSlot :=
  { ReamSlot.fresh r postedStrip r with state := 2, tiles := List.replicate 16 { status := 1, renders := 1, vat := 0, bursts := 0 } }

/-- A spare test of tile 3 waits for vat 15; the ring of the strip has no other job ready. -/
def wantState : State :=
  let s := (stripState.modStrip 0 fun st => { st with coarse := emptySets }).setRole 15 1
  { s with
    box := { s.box with wanted := [⟨.spareTest, 0, 0, 3, 15, none, none, 0⟩] },
    store := { s.store with slots := [fullReam 0, fullReam 1] } }

/-- Ream 0 of the strip, with its slot in the ledger. -/
def aReam : ReamSlot := ReamSlot.fresh 0 postedStrip 0

/-- The same in the machine. -/
def reamState : State := { stripState with store := { stripState.store with slots := [aReam] } }

/-- A tile on its way to the store. -/
def aHeld : HeldTile := ⟨0, 0, 3, 2, false, false, List.replicate 65536 0, false⟩

/-- The state after the oldest job of vat 2 has left its queue. -/
def u0 (s : State) : State := ((s.takeVatJob 2).map (·.2)).getD s

/-- The first of two devices; the halo of its posted strip has not arrived. -/
def haloState : State :=
  (stripState.puts [(Reg.CSC_CFG_DEVICES, 2), (Reg.CAL_PR_KSM_KM 0, 1)]).modStrip 0 fun st => { st with coarse := emptySets }

/-- The strip open. -/
def feedStrip : Strip := { postedStrip with isOpen := true }

/-- Ream 0 STORED, its tiles accepted, no segment written. -/
def feedReam : ReamSlot := { aReam with state := 2, tiles := List.replicate 16 { TileRec.pending with status := 1 } }

/-- The strip open with that ream. -/
def feedState : State :=
  { reamState with
    store := { reamState.store with slots := [feedReam] },
    box := { reamState.box with strips := [feedStrip] } }

/-- A paused codec job in context slot 6. -/
def aPaused : CodecJob := ⟨2, 0x31, leBytes 64 0x31, [1, 2], 8, 2, false, 0, some 6, true, false, none, none⟩

/-- The couches in roles a and b. -/
def couches (a b : Nat) : State := (up [(Reg.CCX_STATUS_ROLE 0, a), (Reg.CCX_STATUS_ROLE 1, b)]).showArb

/-- A swap test under way in SLACK. -/
def testState (w : SwapTest) : State :=
  { (couches 0 1).puts [(Reg.EXP_STATE_STATE, 2), (Reg.TID_TICK_STATE, 1)] with couch := { (couches 0 1).couch with test := some w } }

/-- A strip on the fixed clock. -/
def fixedStrip : Strip := { anOpenStrip with fixedClock := true }

/-- That strip near the end of its run, its next tick due. -/
def runState : State :=
  let s := (openState 4).puts [(Reg.TID_TICK_STATE, 3), (Reg.TID_FIXED_DIV, 200)]
  { s with
    box := { s.box with strips := [fixedStrip] },
    tid := { s.tid with emitted := some 300000, tauA := 0, committed := [(300002, 77, (300002 - 0 + 2) * (64 * 200))] },
    tide := 100000000 }

/-- Chain n in a training state, the head link's power up. -/
def chainAt (n q : Nat) : State := up [(Reg.HLK_CHAIN_STATE_STATE n, q)]

/-- Line 9 of driver 44, whose record has not come back. -/
def aLine : OpenLine := { driver := 44, tick := 9, crc := 77, zero := false, newPath := false, repair := false, kind := 0 }

/-- A trigger edge of serial port 0 at tide time 100 waits for its frame. -/
def edgeState : State := { up [] with tide := 120, tid := { State.reset.tid with edges := [[100], []] } }

/-- A position frame of a count. -/
def posFrame (n : Nat) : List Byte :=
  let b := leBytes 1 0 ++ leBytes 5 n
  leBytes 1 0xB1 ++ b ++ leBytes 1 (posCrc b)

/-- The profile in MOVE within wide limits. -/
def movingState : State :=
  up [(Reg.TID_PRF_STATUS_STATE, 1), (Reg.TID_PRF_VMAX_VMAX, 2 ^ 31), (Reg.TID_PRF_AMAX_LIMIT, 2 ^ 40), (Reg.TID_PRF_JMAX_LIMIT, 2 ^ 40),
    (Reg.TID_PRF_PMIN_POS, 0), (Reg.TID_PRF_PMAX_POS, 1000000)]

/-- The stage speeds up in a move. -/
def rampState : State := { movingState with tid := { movingState.tid with vel := 65536000, acc := 1677721 } }

/-- A stage descriptor waits in SLACK, the profile at REST. -/
def stageState : State :=
  ringState.puts [(Reg.EXP_STATE_STATE, 2), (Reg.TID_PRF_VMAX_VMAX, 2 ^ 31), (Reg.TID_PRF_AMAX_LIMIT, 2 ^ 40),
    (Reg.TID_PRF_JMAX_LIMIT, 2 ^ 40), (Reg.TID_PRF_PMIN_POS, 0), (Reg.TID_PRF_PMAX_POS, 1000000)]

/-- The same with a table of one segment in host memory. -/
def tableState : State :=
  { stageState with hostMem := stageState.hostMem.writeBytes 0x7000 (leBytes 4 100000 ++ leBytes 4 0 ++ leBytes 8 65536) }

/-- The focus channel of the spec's tuning example at its sample 2: r - y = 1,000 at every sample. -/
def focusState : State :=
  let frame := leBytes 1 0xB2 ++ (leBytes 1 0 ++ leBytes 3 0) ++ leBytes 1 (posCrc (leBytes 1 0 ++ leBytes 3 0))
  let s := up [(Reg.LOOP_MODE_STATE 2, 2), (Reg.LOOP_MODE_REQ 2, 2), (Reg.LOOP_REF_TARGET 2, 1000), (Reg.LOOP_STATUS_OUT 2, 63),
    (Reg.LOOP_BK_COEF_C 2 0 0, 0x08000000), (Reg.LOOP_BK_COEF_C 2 0 1, 0xFC000000), (Reg.LOOP_BK_COEF_C 2 0 4, 0x08000000),
    (Reg.LOOP_BK_COEF_C 2 0 7, 0x01000000), (Reg.LOOP_BK_LIM_LO 2 0, 2 ^ 24 - 100), (Reg.LOOP_BK_LIM_HI 2 0, 100)]
  { s with tide := 400 }.modLoop 2 fun l =>
    { l with integ := -7340032000, errs := [1000, 1000, 0], filt := [500 * 2 ^ 24, 500 * 2 ^ 24, 0], frame := some (300, frame) }

/-- The register file of a device ready for FLOOD: `stripState`'s with the tide unit, the head link and the permit set up. -/
def readyRegs : RegFile :=
  [(1048576, 1#32), (1048580, 2684354560#32), (1052840, 2147745792#32), (1052844, 65536#32), (5242896, 4096#32),
    (5242904, 134217728#32), (5242912, 2#32), (6291464, 536870912#32), (6291520, 4294901760#32), (7340096, 4294901761#32),
    (8388612, 3#32), (8421376, 1#32), (8421380, 128#32), (9437196, 3#32), (10485780, 12#32), (10485796, 1073741824#32),
    (10485828, 2147487648#32), (10485832, 2147483648#32), (10485844, 256#32), (10485852, 32768#32), (10485860, 192#32),
    (10485868, 64#32), (12582916, 2031618#32), (13631496, 536870912#32), (16777228, 2684354560#32), (16777236, 96#32),
    (19922944, 1#32), (20971520, 65535#32)]

/-- The strip 77 posted, its reams accepted, its first interval planned; the drivers do not hold its factors. -/
def waitState : State :=
  { stripState with
    regs := readyRegs,
    store := { stripState.store with slots := [fullReam 0, fullReam 1] },
    tid := { stripState.tid with plans := [⟨0, 0, 1000000, 1, false⟩] },
    couch := { stripState.couch with passedAt := [some 0, some 0] },
    bwt := { stripState.bwt with permit := true } }

/-- A driver that holds the set-up of a register file. -/
def readyDriver (rf : RegFile) (a : Nat) : Driver :=
  { positioned := true, dstate := 3,
    conf := { factors := driverFactors rf a, slotT := rfGet rf Reg.CCH_DWELL_SLOT, curve := driverCurve rf a, armed := true } }

/-- The same with every driver ready: a device that may enter FLOOD. -/
def readyState : State :=
  { waitState with link := { waitState.link with drivers := (List.range 1024).map (readyDriver readyRegs) } }

/-- A register row that ends before an offset does not hold it. -/
theorem row_before (n : String) (b c st : Nat) (l : List (Nat × Nat)) (w : Bool) (fs : List FieldRow) (off : Nat)
    (hs : 0 < st) (h : b + c * st ≤ off) : (RegRow.mk n b ((c, st) :: l) w fs).matchOffset off = none := by
  have hc : ¬ ((off - b) / st < c) := by
    rw [Nat.div_lt_iff_lt_mul hs]; omega
  simp only [RegRow.matchOffset, splitIndex, hc, ite_false]
  split <;> rfl

theorem row_before_one (n : String) (b : Nat) (w : Bool) (fs : List FieldRow) (off : Nat) (h : b + 8 ≤ off) :
    (RegRow.mk n b [] w fs).matchOffset off = none := by
  simp only [RegRow.matchOffset, splitIndex]
  split
  · rfl
  · split <;> simp_all <;> omega

theorem row_couch_one (n : String) (b c st : Nat) (w : Bool) (fs : List FieldRow) (off : Nat) (h : b + 8 ≤ off)
    (hd : off < b + st) (hc : 0 < c) : (RegRow.mk n b [(c, st)] w fs).matchOffset off = none := by
  have h1 : (off - b) / st = 0 := Nat.div_eq_of_lt (by omega)
  have h2 : (off - b) % st = off - b := Nat.mod_eq_of_lt (by omega)
  simp only [RegRow.matchOffset, splitIndex, h1, h2, hc, ite_true]
  split
  · rfl
  · split <;> simp_all <;> omega

theorem row_couch_two (n : String) (b c st e q : Nat) (w : Bool) (fs : List FieldRow) (off : Nat) (hq : 0 < q)
    (h : b + e * q ≤ off) (hd : off < b + st) (hc : 0 < c) :
    (RegRow.mk n b [(c, st), (e, q)] w fs).matchOffset off = none := by
  have h1 : (off - b) / st = 0 := Nat.div_eq_of_lt (by omega)
  have h2 : (off - b) % st = off - b := Nat.mod_eq_of_lt (by omega)
  have h3 : ¬ ((off - b) / q < e) := by rw [Nat.div_lt_iff_lt_mul hq]; omega
  simp only [RegRow.matchOffset, splitIndex, h1, h2, h3, hc, ite_true, ite_false]
  split <;> rfl

theorem row_hit (n : String) (b c k : Nat) (fs : List FieldRow) (h : k < c) :
    (RegRow.mk n b [(c, 4)] false fs).matchOffset (b + k * 4) = some ([k], 0) := by
  have h1 : ¬ (b + k * 4 < b) := by omega
  have h2 : b + k * 4 - b = k * 4 := by omega
  have h3 : k * 4 / 4 = k := by omega
  have h4 : k * 4 % 4 = 0 := by omega
  simp [RegRow.matchOffset, splitIndex, h]

theorem mask_word (k : Nat) (h : k < 8192) : resetWord (0x00610000 + k * 4) = 0xFFFFFFFF#32 := by
  have hm : (0x00610000 + k * 4) / 0x100000 = 6 := by omega
  have hf : findRow (0x00610000 + k * 4) =
      some (⟨"CCH_MASK", 0x00610000, [(8192, 0x4)], false, [⟨0, 32, .bw, (.const 0xffffffff), .kept, none⟩]⟩, [k], 0) := by
    simp only [findRow, hm, regRowsOf, regRows006, findRowIn, row_hit _ _ _ k _ h]
    repeat rw [row_before_one _ _ _ _ _ (by omega)]
    rw [row_couch_one _ _ _ _ _ _ _ (by omega) (by omega) (by decide), row_before _ _ _ _ _ _ _ _ (by decide) (by omega),
      row_couch_two _ _ _ _ _ _ _ _ _ (by decide) (by omega) (by omega) (by decide)]
  simp [resetWord, hf, RegRow.resetValue, Cold.value]

theorem defect_word (k : Nat) (h : k < 16384) : resetWord (0x00D10000 + k * 4) = 0#32 := by
  have hm : (0x00D10000 + k * 4) / 0x100000 = 13 := by omega
  have hf : findRow (0x00D10000 + k * 4) =
      some (⟨"HCR_DEFECT", 0x00D10000, [(16384, 0x4)], false, [⟨0, 32, .bw, (.const 0), .kept, none⟩]⟩, [k], 0) := by
    simp only [findRow, hm, regRowsOf, regRows00D, regRows00D_1, regRows00D_2, List.cons_append, List.nil_append, findRowIn,
      row_hit _ _ _ k _ h]
    repeat rw [row_before_one _ _ _ _ _ (by omega)]
    repeat rw [row_before _ _ _ _ _ _ _ _ (by decide) (by omega)]
  simp [resetWord, hf, RegRow.resetValue, Cold.value]

/-- Every beam reads as live in that register file: no mask word is listed, and no defect word. -/
theorem ready_beams (i : Nat) (h : i < 262144) : beamLive readyRegs i = true := by
  have e1 : rfWord readyRegs (0x00610000 + i / 32 * 4) = 0xFFFFFFFF#32 := by
    rw [← mask_word (i / 32) (by omega)]
    simp only [rfWord, readyRegs, cellGet]
    repeat rw [if_neg (by omega)]
  have e2 : rfWord readyRegs (0x00D10000 + 4 * (i / 16)) = 0#32 := by
    rw [← defect_word (i / 16) (by omega), Nat.mul_comm]
    simp only [rfWord, readyRegs, cellGet]
    repeat rw [if_neg (by omega)]
  have hm : i % 32 < 32 := Nat.mod_lt _ (by decide)
  have f1 : rfGet readyRegs (Reg.CCH_MASK_LIVE (i / 32)) = 4294967295 := by
    simp [rfGet, Field.spans, e1, bvField, onesMask]
  have f2 : rfGet readyRegs ⟨0x00D10000 + 4 * (i / 16), 2 * (i % 16), 2⟩ = 0 := by
    have : ¬ (32 < 2 * (i % 16) + 2) := by omega
    simp [rfGet, Field.spans, e2, bvField, this]
  have hb : bitAt 4294967295 (i % 32) = true := by
    generalize i % 32 = j at hm; revert j; decide
  simp [beamLive, f1, f2, hb]
theorem ready_column (x : Nat) (h : x < 65536) : livePattern readyRegs x = 15 := by
  have hb (b : Nat) (hb : b < 4) : beamLive readyRegs (columnBeam b x) = true := by
    apply ready_beams; unfold columnBeam; omega
  simp [livePattern, List.range, List.range.loop, hb 0 (by omega), hb 1 (by omega), hb 2 (by omega), hb 3 (by omega)]

theorem ready_covered : uncovered readyRegs = none := by
  unfold uncovered
  rw [List.find?_eq_none]
  intro x hx
  rw [ready_column x (List.mem_range.1 hx)]
  decide

theorem ready_driver (a : Nat) (h : a < 1024) : readyState.driverHolds readyRegs a = true := by
  have hd : readyState.driver a = readyDriver readyRegs a := by
    simp [State.driver, readyState, h]
  simp [State.driverHolds, hd, readyDriver]

theorem ready_link : readyState.linkReady postedStrip = true := by
  have hs : readyState.setup postedStrip = readyRegs := rfl
  have hd : (List.range 1024).all (readyState.driverHolds readyRegs) = true := by
    rw [List.all_eq_true]; exact fun a ha => ready_driver a (List.mem_range.1 ha)
  rw [State.linkReady, hs, hd]
  decide +kernel

theorem ready_bits : readyState.waitBits postedStrip 0 = 0 := by
  rw [State.waitBits, ready_link]; decide +kernel

/-- The strip open after a planned stop at tick 100, its set-up latched. -/
def brokenStrip : Strip := { postedStrip with isOpen := true, latched := some readyRegs, unsettled := [(1, 100)] }

/-- The same in a machine. -/
def brokenIn (s : State) : State :=
  { s with box := { s.box with strips := [brokenStrip] } }.modLedger 0 fun l =>
    { l with state := 2, stripId := 77, lines := 512, marks := [⟨100, 1, 128, 0xFFFF, 0xFF, 1, 0⟩] }

theorem broken_link : (brokenIn readyState).linkReady brokenStrip = true := by
  have hs : (brokenIn readyState).setup brokenStrip = readyRegs := by simp only [State.setup, brokenStrip, Option.getD_some]
  have hl : (brokenIn readyState).link = readyState.link := rfl
  have hd : (List.range 1024).all ((brokenIn readyState).driverHolds readyRegs) = true := by
    rw [List.all_eq_true]
    intro a ha
    have h := ready_driver a (List.mem_range.1 ha)
    unfold State.driverHolds State.driver at h ⊢
    rw [hl]; exact h
  rw [State.linkReady, hs, hd]
  decide +kernel

theorem broken_bits : (brokenIn readyState).resumeBits brokenStrip 100 = 0 := by
  rw [State.resumeBits, State.waitBits, broken_link]; decide +kernel

theorem broken_refusal : (brokenIn readyState).resumeRefusal brokenStrip = none := by
  decide +kernel

/-- A submission ring with an alignment table of GEN 0 and no VALID row at 0x8000 in host memory: all zeros but the
curves, which stay. -/
def alignState : State :=
  { ringState.puts [(Reg.HLK_ROW_PITCH_PITCH, 1), (Reg.HLK_BAND_PITCH_PITCH, 128)] with
    hostMem := ringState.hostMem.writeBytes 0x8000 (leBytes 4 0xFFFFFFFF) }

theorem read_drop (m : Memory) (a n k : Nat) (h : k ≤ n) : (m.readBytes a n).drop k = m.readBytes (a + k) (n - k) := by
  induction k generalizing a n with
  | zero => simp
  | succ k ih =>
    cases n with
    | zero => omega
    | succ n =>
      rw [Memory.readBytes, List.drop_succ_cons, ih _ _ (by omega), Nat.add_sub_add_right, Nat.add_assoc, Nat.add_comm 1 k]

theorem read_take (m : Memory) (a n k : Nat) (h : k ≤ n) : (m.readBytes a n).take k = m.readBytes a k := by
  induction k generalizing a n with
  | zero => simp [Memory.readBytes]
  | succ k ih =>
    cases n with
    | zero => omega
    | succ n => rw [Memory.readBytes, List.take_succ_cons, ih _ _ (by omega), Memory.readBytes]

theorem field_read (m : Memory) (a n off w : Nat) (h : off + w ≤ n) :
    fieldAt (m.readBytes a n) off w = leNat (m.readBytes (a + off) w) := by
  rw [fieldAt, read_drop _ _ _ _ (by omega), read_take _ _ _ _ (by omega)]

theorem read_zeros (m : Memory) (a w : Nat) (h : ∀ i, a ≤ i → m.read i = 0) : leNat (m.readBytes a w) = 0 := by
  induction w generalizing a with
  | zero => rfl
  | succ w ih => rw [Memory.readBytes, leNat, ih _ (fun i hi => h i (by omega)), h a (by omega)]; rfl

/-- The bytes of the alignment table after its curves. -/
theorem align_zeros (i : Nat) (h : 0x8004 ≤ i) : alignState.hostMem.read i = 0 := by
  have e : alignState.hostMem = [(0x8000, 255), (0x8001, 255), (0x8002, 255), (0x8003, 255)] := by decide +kernel
  rw [e, Memory.read]
  simp only [cellGet]
  repeat rw [if_neg (by omega)]
  rfl

theorem align_field (off w : Nat) (h : 4 ≤ off) (k : off + w ≤ 4112) :
    fieldAt (alignState.readSpace false 0x8000 4112) off w = 0 := by
  have e : alignState.readSpace false 0x8000 4112 = alignState.hostMem.readBytes 0x8000 4112 := rfl
  rw [e, field_read _ _ _ _ _ k]
  exact read_zeros _ _ _ fun i hi => align_zeros i (by omega)

theorem unlisted (rf : RegFile) (o : Nat) (h : ∀ p ∈ rf, p.1 ≠ o) : rfWord rf o = resetWord o := by
  induction rf with
  | nil => rfl
  | cons p r ih =>
    rw [rfWord, cellGet, if_neg (h p (by simp))]
    exact ih fun q hq => h q (by simp [hq])

theorem align_words : ∀ k < 512, resetWord (0x00D01000 + k * 4) = 0#32 := by decide +kernel

theorem align_row (r : Nat) (h : r < 512) : alignState.rowFault (alignState.readSpace false 0x8000 4112) r = 0 := by
  have w : rfWord alignState.regs (0x00D01000 + r * 4) = 0#32 := by
    rw [← align_words r h]
    have k : ∀ p ∈ alignState.regs, p.1 < 0x00D01000 ∨ 0x00D02000 ≤ p.1 := by decide +kernel
    exact unlisted _ _ fun p hp => by have := k p hp; omega
  have a : alignOf alignState.regs r = 0 := by
    simp [alignOf, rfGet, Field.spans, w, bvField, sext]
  have p : alignState.get Reg.HLK_ROW_PITCH_PITCH = 1 ∧ alignState.get Reg.HLK_BAND_PITCH_PITCH = 128 := by decide +kernel
  simp only [State.rowFault, State.newRow, epsOf, align_field _ 4 (by omega : 4 ≤ 16 + 8 * r) (by omega),
    align_field _ 1 (by omega : 4 ≤ 20 + 8 * r) (by omega), align_field _ 3 (by omega : 4 ≤ 21 + 8 * r) (by omega), a, p.1, p.2]
  have hm : r % 128 < 128 := Nat.mod_lt _ (by decide)
  simp [bitAt]
  omega

theorem align_none : alignState.alignFault (alignState.readSpace false 0x8000 4112) = none := by
  have hg : fieldAt (alignState.readSpace false 0x8000 4112) 4 2 = alignState.get Reg.HCR_GEN_ALIGN_GEN := by
    rw [align_field _ _ (by omega) (by omega)]; decide +kernel
  have hc : ((List.range 4).all fun b => decide (fieldAt (alignState.readSpace false 0x8000 4112) b 1 < 8 ∨
      fieldAt (alignState.readSpace false 0x8000 4112) b 1 = 0xFF)) = true := by decide +kernel
  have hr : ((List.range 10).all fun i => decide (fieldAt (alignState.readSpace false 0x8000 4112) (6 + i) 1 = 0)) = true := by
    rw [List.all_eq_true]
    intro i hi
    rw [align_field _ _ (by omega) (by have := List.mem_range.1 hi; omega)]; rfl
  have hf : ((List.range 512).find? fun r =>
      decide (alignState.rowFault (alignState.readSpace false 0x8000 4112) r ≠ 0)) = none := by
    rw [List.find?_eq_none]
    intro r hr
    simp [align_row r (List.mem_range.1 hr)]
  simp only [State.alignFault, hg, hc, hr, hf]
  rfl

/-- A measurement run of one driver in SLACK. -/
def runOf (m : MeasDriver) : State :=
  { up [(Reg.EXP_STATE_STATE, 2), (Reg.TID_TICK_STATE, 1), (Reg.HCR_STATUS_RUN, 1)] with
    hcr := { State.reset.hcr with run := some ⟨[m], none, 0, false, some 0, false⟩ } }

/-- A strobe calibration of lane 0 with the counts of some windows. -/
def calState (l : List (List Nat)) : State :=
  { up [(Reg.EXP_STATE_STATE, 2), (Reg.HCR_STATUS_RUN, 2)] with hcr := { State.reset.hcr with cal := some ⟨[0], l, [], []⟩ } }

/-- Axis 1 in MOVE with a commanded position, DIR as given, its last step long ago. -/
def stepState (x : Int) (dir : Bool) : State :=
  { up [(Reg.AUX_STATUS_STATE 1, 2)] with tide := 400 }.modAxis 1 fun a => { a with x := x, dir := dir, stepAt := some 0 }

/-- A RECOAT list of one REL phase at 0x9000 of host memory. -/
def recoatState : State :=
  { ringState with hostMem := ringState.hostMem.writeBytes 0x9000 (leBytes 2 0x0202 ++ leBytes 6 0 ++ leBytes 8 100) }

/-- Job 5 of ring 4 with one phase, and axis 2 in a state, at rest at step 100. -/
def jobState (p : AuxPhase) (q : Nat) : State :=
  let s := { up [(Reg.AUX_STATUS_STATE 2, q), (Reg.AUX_POS_COUNT 2, 100)] with tide := 400 }
  let s := s.modAxis 2 fun a => { a with x := 6553600, target := 100 }
  { s with aux := { s.aux with jobs := [⟨5, 4, none, 0, [p], none, false, false⟩] },
           host := { s.host with jobs := [⟨5, 4, 0, 0x20, 0, 0, false⟩] } }

/-- Tide-link port p in a training state, on a master. -/
def portIn (p q : Nat) : State := up [(Reg.CSC_PORT_STATE p, q), (Reg.CSC_STATUS_READY, if q = 6 then 2 ^ p else 0)]

/-- A slave with its port READY. -/
def slaveState : State := (portIn 0 6).puts [(Reg.CSC_STATUS_SLAVE, 1), (Reg.CSC_CFG_DEVICES, 2)]

/-- DRAM ready at its full size. -/
def memState : State := up [(Reg.MEM_STATUS_READY, 1), (Reg.MEM_SIZE_BYTES, 0x6000000000)]

/-- One request waits in channel 0; sub-channel 0 has some open rows; no refresh is due. -/
def pickState (r : MemReq) (rows : List (Nat × Nat × Nat)) : State :=
  let s := ({ memState with tide := 100000, mem := { memState.mem with queue := [r] } }).modSub 0 fun x => { x with rows := rows }
  s.modMemCh 0 fun x => { x with nextRef := 200000 }

/-- Channels in training step 1, first attempt. -/
def trainState : State :=
  up ((Reg.MEM_STATUS_TRAINING, 1) :: (List.range 6).flatMap fun ch =>
    [(Reg.MEM_TRN_STATE_STEP ch, 1), (Reg.MEM_TRN_STATE_ATTEMPT ch, 1)])

/-- The same with every channel but channel 2 trained. -/
def lastTraining : State :=
  { trainState with mem := { trainState.mem with
    channels := (List.range 6).map fun (ch : Nat) => { trained := if ch = 2 then 0 else 1 } } }

/-- Burst 4 is lost: two of its symbols on different devices differ from its code word. -/
def flawState : State :=
  { memState with mem := { memState.mem with flaws := [(4, [1, 2, 3, 4, 5, 6, 7, 8, 9, 10] ++ List.replicate 70 77)] } }

/-- One check symbol of burst 4 differs from its code word. -/
def flaw1 : State := { memState with mem := { memState.mem with flaws := [(4, List.replicate 79 0 ++ [1])] } }

/-- Symbols in INT_TEST_DATA for burst 4, and raw bits for byte 9 of the SRAM test block. -/
def symState : State :=
  memState.puts ([(Reg.INT_TEST_ADDR_ADDR, 4), (Reg.INT_TEST_SRAM_OFF, 9), (Reg.INT_TEST_SRAM_RAW, 0x1234)] ++
    (List.range 20).map fun k => (Reg.INT_TEST_DATA_SYM k, 0x01020304 + k))

/-- A CRC-32C scan of the nine bytes "123456789" of host memory runs. -/
def scanState : State :=
  { memState with
    hostMem := memState.hostMem.writeBytes 0x9000 [0x31, 0x32, 0x33, 0x34, 0x35, 0x36, 0x37, 0x38, 0x39],
    host := { memState.host with jobs := [⟨7, 5, 0, 0x38, 0, 0, false⟩] },
    mem := { memState.mem with scans := [⟨7, 1, false, 0x9000, 9, false, true⟩] } }

/-- PTP port 1 runs, follows source 99, and is in a state. -/
def ptpState (q : Nat) : State :=
  (up [(Reg.TIM_CTRL_EN, 1), (Reg.TIM_PORT_CFG_EN 1, 1), (Reg.TIM_PORT_STATUS_LINK 1, 1)]).modTime 1 fun p =>
    { p with state := q, master := some 99 }

/-- The same in SLAVE with nine samples of one offset and delay 0, the clock LOCKED. -/
def lockedState (o : Int) : State :=
  ((ptpState 9).put Reg.TIM_STATUS_STATE 2).modTime 1 fun p => { p with offsets := List.replicate 9 o, delays := List.replicate 9 0 }

/-- A proposal image of some one-word records, under the first SEQ. -/
def imageOf (words : List (Nat × Nat)) : List Byte :=
  leBytes 4 0x52505742 ++ leBytes 4 1 ++ leBytes 4 words.length ++ leBytes 4 (32 + 12 * words.length) ++ leBytes 16 0 ++
    words.flatMap fun w => leBytes 4 w.1 ++ leBytes 4 1 ++ leBytes 4 w.2

/-- The host's proposal loads from 0x9000 of host memory. -/
def loadState (image : List Byte) : State :=
  let s := up [(Reg.BWT_PROP_ADDR_ADDR, 0x1200), (Reg.BWT_PROP_STATUS_STATE, 1)]
  { s with hostMem := s.hostMem.writeBytes 0x9000 image }

/-- A proposal is PENDING since always-on time 0. -/
def pendState (image : List Byte) : State :=
  let s := up [(Reg.BWT_PROP_STATUS_STATE, 3)]
  { s with aon := 400, bwt := { s.bwt with image := image } }

/-- A guard frame: opcode, arguments, CRC-16. -/
def frameOf (body : List Byte) : List Byte := body ++ leBytes 2 (setpointCrc body)

/-- The device held by a boundary-scan instruction, the supply up and step 1 done. -/
def heldState : State :=
  { State.reset with
    host := { State.reset.host with perstLow := false },
    pwr := { State.reset.pwr with ok := true, step1 := true },
    obs := { State.reset.obs with bscanEnable := true, scan := .extest, heldInReset := true } }

/-- The trace ring enabled in WRAP mode at 0x8000 of host memory, the link up. -/
def traceState (l : List (Field × Nat)) : State :=
  up ([(Reg.HST_STATUS_LINK_UP, 1), (Reg.OBS_RING_BASE_BASE, 8), (Reg.OBS_RING_CFG_MODE, 1), (Reg.OBS_RING_CFG_SIZE, 16)] ++ l)

/-! ### Well-formedness: each check refuses an ill-formed command -/

theorem test_wf_desc : (Instr.nop ⟨0, List.replicate 64 0⟩).wf = true ∧ (Instr.nop ⟨0, List.replicate 63 0⟩).wf = false := by
  decide +kernel
theorem test_wf_record : (Instr.pad 0 (List.replicate 8 0)).wf = true ∧ (Instr.pad 0 (List.replicate 9 0)).wf = false ∧
    (Instr.pad 0 []).wf = false := by decide +kernel
theorem test_wf_position_frame : (Instr.positionFrame 0 (posFrame 5)).wf = true ∧ (Instr.positionFrame 0 [1]).wf = false := by
  decide +kernel
theorem test_wf_sensor_frame : (Instr.sensorFrame 0 [0, 0, 0, 0, 0]).wf = false := by decide +kernel
theorem test_wf_halo : (Instr.haloMessage ⟨0, 0, false⟩ 0 0 0 0 [1, 2]).wf = false := by decide +kernel
theorem test_wf_dram_request : (Instr.dramRequest 0 0 true (List.replicate 65 0) false 0).wf = false := by decide +kernel

/-! ### Examples of the spec -/

/-- The example of R17. -/
theorem test_round_half_up : roundHalfUp (-5) 2 = -2 ∧ roundHalfUp 5 2 = 3 ∧ idiv (-5) 2 = -3 := by decide +kernel

/-- The example of R180: bands of the pixel (40,000, 250,000). -/
theorem test_dose_split : (List.range 4).map (splitDose 15 47 40000 250000) = [12, 12, 12, 11] ∧
    (List.range 4).map (splitDose 13 47 40000 250000) = [15, 0, 9, 14] ∧
    (List.range 4).map (splitDose 13 30 40000 250000) = [15, 0, 0, 15] := by decide +kernel

/-- The example of chapter 2: the ticks at which class 64 fires line 250,000, in swash and in backwash. -/
theorem test_row_ticks :
    let rf := (at' [(Reg.HLK_ROW_PITCH_PITCH, 96), (Reg.HLK_BAND_PITCH_PITCH, 16384)]).regs
    ([0, 1, 2, 3].map fun b => tickOfLine rf false 500000 (128 * b + 64) 250000) = [256144, 272528, 288912, 305296] ∧
    ([0, 1, 2, 3].map fun b => tickOfLine rf true 500000 (128 * b + 64) 250000) = [309390, 293006, 276622, 260238] := by
  decide +kernel

/-- The example of R337: new corrections of four rows. -/
theorem test_alignment : correction 73 = (1, 9, 0) ∧ correction (-55) = (-1, 9, 0) ∧ correction 40 = (1, -16, -8) ∧
    correction (-30) = (0, -16, -14) := by decide +kernel

/-- The example of R415: the byte 0xA5 stored, with d5 flipped, and poisoned. -/
theorem test_sram_byte : sramEncode 0xA5 = 0x03A5 ∧ sramDecode (0x03A5 ^^^ 32) = (1, 0x03A5) ∧ sramPoison 0xA5 = 0x00A5 ∧
    (sramDecode 0x00A5).1 = 2 := by decide +kernel

/-- R427: the check value of CRC-32C. -/
theorem test_crc32c : crc32c [0x31, 0x32, 0x33, 0x34, 0x35, 0x36, 0x37, 0x38, 0x39] = 0xE3069283#32 := by decide +kernel

/-- The example of R456: the payload of 0x0110. -/
theorem test_event_payload : packFields [(1, 2), (4, 3), (1, 9), (1, 4), (4, 0x8F1D226C)] =
    [0x02, 0x03, 0, 0, 0, 0x09, 0x04, 0x6C, 0x22, 0x1D, 0x8F] := by decide +kernel

/-- An outcome is a next state of which f holds. -/
def nextIs (o : Host.Outcome State Fault Refusal) (f : State → Bool) : Bool :=
  match o with
  | .next t => f t
  | _ => false

/-- Sample 2 of the tuning example of chapter 12: I = -375 and the output saturates at 100. -/
theorem test_focus_sample : nextIs (exec (.loopCapture 2) focusState) (fun t =>
    decide (t.getS (Reg.LOOP_STATUS_OUT 2) = 100 ∧ (t.loopAt 2).integ = -6291456000)) = true := by decide +kernel

/-- R487: a CONFIRM that differs in SEQ refuses the proposal with subcode 2, and commits nothing. -/
theorem test_wrong_seq : nextIs (exec (.grdConfirm (frameOf ([0x0D] ++ leBytes 4 2 ++ leBytes 4 0)))
      (pendState (imageOf [(0x01300010, 500000)]))) (fun t =>
    decide (t.get Reg.BWT_MAX_RATE_HZ = 2000000 ∧ t.get Reg.BWT_PROP_STATUS_RESULT = 2 ∧ t.proposal = 0)) = true := by
  decide +kernel

/-- The example of R484: T_2[15] = 1,200 leaves the reset dose window, and passes with MAX_ON = 14,400. -/
theorem test_dose_window : windowFault (at' [(Reg.CCH_CURVE_T1 23, 1200)]).regs = true ∧
    windowFault (at' [(Reg.CCH_CURVE_T1 23, 1200), (Reg.BWT_DOSE_WIN_MAX_ON, 14400)]).regs = false := by decide +kernel

/-- A render without shapes keeps the limit. -/
theorem in_time_nil (u : State) (st : Strip) (j : TileJob) (hk : j.kind = .fine)
    (hs : (u.renderSource st j.ream j.col).shapes = []) (hl : 103424 ≤ u.get Reg.HBX_JOB_LIMIT_CYCLES) :
    u.inTime st j = true := by
  have hc : ¬ (JobKind.fine = JobKind.coarse) := by decide
  simp only [State.inTime, hk, hs, fineCycles_nil, if_neg hc]
  exact decide_eq_true hl

/-- A limit below the cost of a render without shapes. -/
theorem over_time_nil (m : Nat) (w : RenderSource) (r j : Nat) (hs : w.shapes = []) (hl : m < 101376) :
    m < fineCycles w.cells r j w.shapes := by
  rw [hs, fineCycles_nil]; exact hl

/-- The example of chapter 9: TICK, and the DOSE header of driver 44 for line 500,001, with trim +3 in swash. -/
theorem test_dose_header :
    let rf := (at' [(Reg.HCR_ALIGN_TRIM 261, 3)]).regs
    let h : Int := 0x12345678 * 64 + 37
    tickSet 500001 h = orderedSet 0x3C 0xD159E1 ∧ frameOffset rf false 44 h 6250 = 330 ∧ (doseFrame 1 4 330 []).take 4 = [0x11, 0x4A, 0x01, 0x00] := by
  decide +kernel

/-- The example of R387: where offset 0x780 of store block 2,907,543 lies. -/
theorem test_dram_place :
    let s := { up [] with mem := { State.reset.mem with grain := 12, ranks := 1 } }
    s.memLocal (11909298048 / 64) = (3, 1984882560) ∧ s.memPlace (11909298048 / 64) = (0, 15, 55, 3785) := by decide +kernel

/-- The example of R286: the stop from 1.6 MHz takes 59,200 lines. -/
theorem test_stop_travel :
    stopTravel (640000000 * 2 ^ 32) 10000000000 1000000000000 (400 * 2 ^ 32) false = some 59200 := by decide +kernel

/-- The example of R370: three delays give a fixed latency of 72 tide clocks. -/
theorem test_fixed_latency : fixedLatency [1184, 1216, 1150] = 72 := by decide +kernel

/-- The example of R95: a disc with samples on its circle gives dose 3; two triangles cover their pixel once. -/
theorem test_pixel_doses :
    (RenderSource.mk [] [.disc 7 136 136 32] (List.replicate 7 0 ++ [60])).preDose 0 0 = 3 ∧
    (RenderSource.mk [⟨9, 0, 256, 0, 256, 1, [.trap 3 0 256 0 0 0 256], 0⟩] [.ref 0 9 0 0, .ref 2 9 256 256]
      [0, 0, 0, 40]).preDose 0 0 = 40 := by decide +kernel

/-- The example of R141: the corrected pixel, with and without deckle. -/
theorem test_corrected_dose :
    let w : Profile := ⟨[], [], [], 6000, 4000, 2000, 6, [], List.replicate 64 0 ++ [15000, 14936]⟩
    w.rawDose 60 320 423 294 52 = 22 ∧ w.rawDose 60 320 423 294 128 = 55 := by decide +kernel

/-- R489: the loss of EXPOSE_PERMIT in EXPOSE enters BREAK with CAUSE 3 and blanks the head. -/
theorem test_permit : nextIs (exec .permitDeassert (openState 4)) (fun t =>
    decide (t.get Reg.EXP_STATE_STATE = 6 ∧ t.get Reg.EXP_BREAK_CAUSE = 3) && !t.exposing) = true := by decide +kernel

/-- A step takes the front command and leaves the rest of the queue. -/
theorem test_step : nextIs (step { up [] with pending := [.hstSqCfgWrite 5 0, .bypass] }) (fun t =>
    decide (t.pending = [.bypass])) = true := by decide +kernel

/-- On an empty queue a tide clock passes. -/
theorem test_idle : nextIs (step (up [])) (fun t => decide (t.aon = 1 ∧ t.tide = 1)) = true := by decide +kernel

/-! ### States that meet the hypotheses of the obligations -/

theorem witness_doorbells_move_the_ring_indices :
    (∃ (s : State) (r : Fin 32) (v : Word), ((v.toNat % 65536 + 65536 - s.get (Reg.HST_SQ_IDX_CONS r)) % 65536 ≤ 2 ^ s.get (Reg.HST_SQ_CFG_SIZE r)) ∧ (s.domainOn 14 = true)) ∧
    (∃ (s : State) (r : Fin 32) (v : Word), (2 ^ s.get (Reg.HST_SQ_CFG_SIZE r) < (v.toNat % 65536 + 65536 - s.get (Reg.HST_SQ_IDX_CONS r)) % 65536) ∧ (s.domainOn 14 = true)) ∧
    (∃ (s : State) (e : Fin 8) (v : Word), ((v.toNat % 65536 + 65536 - s.get (Reg.HST_EQ_IDX_CONS e)) % 65536 ≤ (s.get (Reg.HST_EQ_IDX_PROD e) + 65536 - s.get (Reg.HST_EQ_IDX_CONS e)) % 65536) ∧ (e.val < s.host.events.length) ∧ (s.domainOn 14 = true)) ∧
    (∃ (s : State) (e : Fin 8) (v : Word), ((s.get (Reg.HST_EQ_IDX_PROD e) + 65536 - s.get (Reg.HST_EQ_IDX_CONS e)) % 65536 < (v.toNat % 65536 + 65536 - s.get (Reg.HST_EQ_IDX_CONS e)) % 65536) ∧ (s.domainOn 14 = true)) :=
  ⟨⟨up [], 3, 16, by decide +kernel⟩,
   ⟨up [], 3, 17, by decide +kernel⟩,
   ⟨up [(Reg.HST_EQ_IDX_PROD 2, 5)], 2, 5, by decide +kernel⟩,
   ⟨up [(Reg.HST_EQ_IDX_PROD 2, 5)], 2, 6, by decide +kernel⟩⟩

theorem witness_event_records_and_vectors :
    (∃ (s : State) (e : Fin 8) (ev : Event) (rest : List Event), (e.val < s.host.events.length) ∧ ((s.eqRing e).queue = ev :: rest) ∧ (s.get (Reg.HST_EQ_CFG_EN e) = 1 ∧ s.get Reg.HST_STATUS_LINK_UP = 1 ∧ s.host.d3hot = false) ∧ (ev.payload.length ≤ 12) ∧ ((s.get (Reg.HST_EQ_IDX_PROD e) + 65536 - s.get (Reg.HST_EQ_IDX_CONS e)) % 65536 < 2 ^ s.get (Reg.HST_EQ_CFG_SIZE e))) ∧
    (∃ (s : State) (e : Fin 8), (e.val < s.host.events.length) ∧ (s.eqDue e = true) ∧ (s.get (Reg.MSIX_CTRL_MASK (s.get (Reg.HST_EQ_CFG_VEC e))) = 0)) ∧
    (∃ (s : State) (e : Fin 8), (e.val < s.host.events.length) ∧ (s.eqDue e = true) ∧ (s.get (Reg.MSIX_CTRL_MASK (s.get (Reg.HST_EQ_CFG_VEC e))) = 1)) ∧
    (∃ (s : State) (v : Fin 64), (bitAt s.host.msixPba v = true) ∧ (s.domainOn 14 = true)) ∧
    (∃ (s : State) (v : Fin 64), (bitAt s.host.msixPba v = false) ∧ (s.domainOn 14 = true)) :=
  ⟨⟨evState, 0, ⟨0x1009, 2, 0, 0, 0, [], false⟩, [], by decide +kernel⟩,
   ⟨dueState.put (Reg.MSIX_CTRL_MASK 0) 0, 0, by decide +kernel⟩,
   ⟨dueState, 0, by decide +kernel⟩,
   ⟨{ up [] with host := { State.reset.host with msixPba := 32 } }, 5, by decide +kernel⟩,
   ⟨up [], 5, by decide +kernel⟩⟩

theorem witness_host_reads_and_link :
    (∃ (s : State) (r : HostRead), (s.readerLive r.reader = true) ∧ (s.readTries r < 2)) ∧
    (∃ (s : State) (q : Fin 32) (a : BitVec 64), (s.readerLive (.fetch q) = true) ∧ (2 ≤ s.readTries ⟨.fetch q, a⟩)) ∧
    (∃ (s : State) (j : Word) (a : BitVec 64), (s.readerLive (.job j) = true) ∧ (2 ≤ s.readTries ⟨.job j, a⟩)) ∧
    (∃ (s : State) (j : Word) (a : BitVec 64), (s.readerLive (.job j) = true) ∧ (2 ≤ s.readTries ⟨.job j, a⟩) ∧ (s.box.streams.all (fun m => m.jobs.all fun l => decide (l.aseq ≠ j.toNat)) = true)) ∧
    (∃ (s : State) (q : Fin 32) (a : BitVec 64) (st : BitVec 3), (s.readerLive (.fetch q) = true)) ∧
    (∃ (s : State), (s.get Reg.HST_STATUS_LINK_UP = 1)) ∧
    (∃ (s : State) (speed : Fin 6) (width : Fin 17), (s.get Reg.HST_STATUS_LINK_UP = 0) ∧ (s.host.d3hot = false)) :=
  ⟨⟨up [(Reg.HST_SQ_CFG_EN 4, 1), (Reg.HST_SQ_IDX_PROD 4, 1)], ⟨.fetch 4, 0x1000⟩, by decide +kernel⟩,
   ⟨{ up [(Reg.HST_SQ_CFG_EN 4, 1), (Reg.HST_SQ_IDX_PROD 4, 1)] with host := { State.reset.host with retries := [(⟨.fetch 4, 0x1000⟩, 2)] } }, 4, 0x1000, by decide +kernel⟩,
   ⟨readFailState, 7, 0x1000, by decide +kernel⟩,
   ⟨readFailState, 7, 0x1000, by decide +kernel⟩,
   ⟨up [(Reg.HST_SQ_CFG_EN 4, 1), (Reg.HST_SQ_IDX_PROD 4, 1)], 4, 0x1000, 1, by decide +kernel⟩,
   ⟨up [(Reg.HST_STATUS_LINK_UP, 1)], by decide +kernel⟩,
   ⟨up [], 5, 16, by decide +kernel⟩⟩

theorem witness_ring_set_up_writes_1 :
    (∃ (s : State) (r : Fin 32) (v : BitVec 64), (s.get (Reg.HST_SQ_CFG_EN r) = 0) ∧ (s.domainOn 14 = true)) ∧
    (∃ (s : State) (r : Fin 32) (h : Fin 2) (v : BitVec 64), (s.get (Reg.HST_SQ_CFG_EN r) = 0) ∧ (s.domainOn 14 = true)) ∧
    (∃ (s : State) (r : Fin 32) (half : Option (Fin 2)) (v : BitVec 64), (s.get (Reg.HST_SQ_CFG_EN r) = 1) ∧ (s.domainOn 14 = true)) ∧
    (∃ (s : State) (r : Fin 32) (v : Word), (s.get (Reg.HST_SQ_CFG_EN r) = 0) ∧ (v.getLsbD 31 = true) ∧ (s.domainOn 14 = true)) ∧
    (∃ (s : State) (r : Fin 32) (v : Word), (s.get (Reg.HST_SQ_CFG_EN r) = 1) ∧ (s.domainOn 14 = true)) ∧
    (∃ (s : State) (e : Fin 8) (v : BitVec 64), (s.get (Reg.HST_EQ_CFG_EN e) = 0) ∧ (s.domainOn 14 = true)) :=
  ⟨⟨up [], 31, 0xFFFFFFFFFFFFF000, by decide +kernel⟩,
   ⟨up [(Reg.HST_SQ_BASE_BASE 31, 0x1234567890)], 31, 1, 0xFFFFFFFFFFFFF000, by decide +kernel⟩,
   ⟨up [(Reg.HST_SQ_CFG_EN 0, 1)], 0, none, 0x1000, by decide +kernel⟩,
   ⟨up [], 9, 0x80100003, by decide +kernel⟩,
   ⟨up [(Reg.HST_SQ_CFG_EN 9, 1)], 9, 0x80100003, by decide +kernel⟩,
   ⟨up [], 7, 0x1000, by decide +kernel⟩⟩

theorem witness_ring_set_up_writes_2 :
    (∃ (s : State) (e : Fin 8) (h : Fin 2) (v : BitVec 64), (s.get (Reg.HST_EQ_CFG_EN e) = 0) ∧ (s.domainOn 14 = true)) ∧
    (∃ (s : State) (e : Fin 8) (half : Option (Fin 2)) (v : BitVec 64), (s.get (Reg.HST_EQ_CFG_EN e) = 1) ∧ (s.domainOn 14 = true)) ∧
    (∃ (s : State) (e : Fin 8) (v : Word), (s.get (Reg.HST_EQ_CFG_EN e) = 0) ∧ (v.getLsbD 31 = true) ∧ (s.domainOn 14 = true) ∧ (e.val < s.host.events.length)) ∧
    (∃ (s : State) (e : Fin 8) (v : Word), (s.get (Reg.HST_EQ_CFG_EN e) = 1) ∧ (s.domainOn 14 = true)) ∧
    (∃ (s : State) (v : Word), (s.domainOn 14 = true)) :=
  ⟨⟨up [(Reg.HST_EQ_BASE_BASE 7, 0x1234567890)], 7, 0, 0xFFFFFFFFFFFFF000, by decide +kernel⟩,
   ⟨up [(Reg.HST_EQ_CFG_EN 7, 1)], 7, some 1, 0x1000, by decide +kernel⟩,
   ⟨up [], 7, 0x80100003, by decide +kernel⟩,
   ⟨up [(Reg.HST_EQ_CFG_EN 7, 1)], 7, 0x80100003, by decide +kernel⟩,
   ⟨up [], 1, by decide +kernel⟩⟩

theorem witness_register_write_by_access_type :
    (∃ (s : State) (off : BitVec 25) (v : BitVec 64) (r : RegRow) (idx : List Nat), (findRow off.toNat = some (r, idx, 0)) ∧ (r.wide = false) ∧ (off.toNat % 4 = 0) ∧ (canonOffset off.toNat = off.toNat) ∧ (s.domainOn (domainOf off.toNat) = true) ∧ (natMem r.base ownBehaviour = false) ∧ (r.fields.any (fun f => decide (f.access = .sat)) = false) ∧ ((s.writeWord off.toNat (v.setWidth 32)).writeHolds r.base idx = true)) ∧
    (∃ (s : State) (off : BitVec 25) (v : BitVec 64) (r : RegRow) (idx : List Nat), (findRow off.toNat = some (r, idx, 0)) ∧ (r.wide = false) ∧ (off.toNat % 4 = 0) ∧ (canonOffset off.toNat = off.toNat) ∧ (natMem r.base [0x00800010, 0x01000020, 0x01100108] = false) ∧ (s.domainOn (domainOf off.toNat) = true) ∧ ((s.writeWord off.toNat (v.setWidth 32)).writeHolds r.base idx = false)) ∧
    (∃ (s : State) (off : BitVec 25) (wide : Bool) (v : BitVec 64), (off.toNat % (if wide then 8 else 4) ≠ 0)) ∧
    (∃ (s : State) (off : BitVec 25) (v : BitVec 64), (findRow (canonOffset off.toNat) = none)) ∧
    (∃ (s : State) (off : BitVec 25) (wide : Bool) (v : BitVec 64) (r : RegRow) (idx : List Nat), (findRow off.toNat = some (r, idx, 0)) ∧ (r.fields.any (fun f => decide (f.access = .sat)) = true) ∧ (s.domainOn (domainOf off.toNat) = true) ∧ ((if wide then v else v &&& 0xFFFFFFFF) = 0)) ∧
    (∃ (s : State) (off : BitVec 25) (wide : Bool) (v : BitVec 64), ((if wide then v else v &&& 0xFFFFFFFF) ≠ 0) ∧ (s.domainOn (domainOf off.toNat) = true)) :=
  ⟨⟨up [], 0x00103010, 5, rowAt 0x00103010, [3], by decide +kernel⟩,
   ⟨up [], 0x01000040, 5, rowAt 0x01000040, [0], by decide +kernel⟩,
   ⟨up [], 4, true, 1, by decide +kernel⟩,
   ⟨up [], 0x00100010, 1, by decide +kernel⟩,
   ⟨up [(⟨0x00104000, 0, 48⟩, 9)], 0x00104000, false, 0xFFFFFFFF00000000, rowAt 0x00104000, [0], by decide +kernel⟩,
   ⟨up [(⟨0x00104000, 0, 48⟩, 9)], 0x00104000, true, 5, by decide +kernel⟩⟩

theorem witness_cold_reset_returns_reset_values :
    (∃ (s : State), (s.host.perstLow = false)) ∧
    (∃ (s : State), (s.pwr.ok = true)) ∧
    (∃ (s : State), (s.pwr.ok = true)) ∧
    (∃ (s : State), (s.pwr.protective = true) ∧ (s.pwr.aonOnly = true) ∧ (s.pwr.thermal = false)) :=
  ⟨⟨{ up [(Reg.HST_CTRL_EN, 1)] with host := { State.reset.host with perstLow := false } }, by decide +kernel⟩,
   ⟨{ up [(Reg.HST_CTRL_EN, 1)] with pwr := { State.reset.pwr with ok := true } }, by decide +kernel⟩,
   ⟨{ up [(Reg.HST_CTRL_EN, 1)] with pwr := { State.reset.pwr with ok := true } }, by decide +kernel⟩,
   ⟨{ up [(Reg.HST_CTRL_EN, 1)] with pwr := { State.reset.pwr with ok := true, protective := true, aonOnly := true } }, by decide +kernel⟩⟩

theorem witness_warm_reset_starts_and_resets_units :
    (∃ (s : State) (v : Word), (v.toNat % 256 = 0x5A) ∧ (s.domainOn 14 = true) ∧ (s.get Reg.HST_STATUS_READY = 1) ∧ (s.pwr.warm = none) ∧ (s.pwr.protective = false)) ∧
    (∃ (s : State), (s.get Reg.HST_STATUS_READY = 1) ∧ (s.pwr.warm = none) ∧ (s.pwr.protective = false)) ∧
    (∃ (s : State) (addr : BitVec 64) (poison : Bool), (s.get Reg.HST_STATUS_READY = 1) ∧ (s.pwr.warm = none) ∧ (s.pwr.protective = false)) ∧
    (∃ (s : State) (w : WarmReset), (s.pwr.warm = some w) ∧ (w.unitsDone = false) ∧ (s.get Reg.TID_PRF_STATUS_STATE = 0)) ∧
    (∃ (s : State) (v : Word), (v.toNat % 256 ≠ 0x5A) ∧ (s.domainOn 14 = true)) :=
  ⟨⟨up [(Reg.HST_STATUS_READY, 1), (Reg.TID_PRF_STATUS_STATE, 3)], 0x5A, by decide +kernel⟩,
   ⟨up [(Reg.HST_STATUS_READY, 1), (Reg.TID_PRF_STATUS_STATE, 3)], by decide +kernel⟩,
   ⟨up [(Reg.HST_STATUS_READY, 1), (Reg.TID_PRF_STATUS_STATE, 3)], 7, true, by decide +kernel⟩,
   ⟨{ up [(Reg.HST_STATUS_READY, 1)] with pwr := { State.reset.pwr with warm := some { bit := 2 } } }, { bit := 2 }, by decide +kernel⟩,
   ⟨up [(Reg.HST_STATUS_READY, 1), (Reg.TID_PRF_STATUS_STATE, 3)], 0xA5, by decide +kernel⟩⟩

theorem witness_power_ok_and_bring_up_steps_1 :
    (∃ (s : State), (s.pwr.ok = false) ∧ (s.get Reg.PWR_CLK_STATUS_REF = 0)) ∧
    (∃ (s : State), (s.pwr.ok = true) ∧ (s.pwr.step1 = false) ∧ (s.get Reg.PWR_BRINGUP_STEP = 1) ∧ (s.get Reg.PWR_BRINGUP_FAIL_CODE ≠ 2)) ∧
    (∃ (s : State), (s.pwr.ok = true) ∧ (s.pwr.step1 = false) ∧ (s.get Reg.PWR_BRINGUP_STEP = 1) ∧ (s.get Reg.PWR_BRINGUP_FAIL_CODE ≠ 2)) ∧
    (∃ (s : State), (s.host.perstLow = true) ∧ (s.pwr.ok = true) ∧ (s.pwr.step1 = true) ∧ (s.obs.heldInReset = false) ∧ (s.pwr.protective = false)) ∧
    (∃ (s : State), (s.domainOn 14 = true) ∧ (s.host.perstLow = false)) ∧
    (∃ (s : State) (read0 read1 : Bool) (image0 image1 : List Byte) (slot0 slot1 : Option (List Byte)), (readSlot read0 image0 = slot0) ∧ (readSlot read1 image1 = slot1) ∧ (s.get Reg.PWR_BRINGUP_STEP = 2) ∧ (s.domainOn 1 = true) ∧ (s.get Reg.HST_STATUS_READY = 0) ∧ (slotSvn slot1 ≤ slotSvn slot0) ∧ (imageFault s.pwr.keyHash (s.get Reg.BWT_SVN_REQ_OTP) slot0 = 0)) :=
  ⟨⟨at' [], by decide +kernel⟩,
   ⟨{ at' [(Reg.PWR_BRINGUP_STEP, 1)] with pwr := { State.reset.pwr with ok := true } }, by decide +kernel⟩,
   ⟨{ at' [(Reg.PWR_BRINGUP_STEP, 1)] with pwr := { State.reset.pwr with ok := true } }, by decide +kernel⟩,
   ⟨{ at' [(Reg.PWR_BRINGUP_STEP, 1)] with pwr := { State.reset.pwr with ok := true, step1 := true }, host := { State.reset.host with perstLow := true } }, by decide +kernel⟩,
   ⟨{ up [] with host := { State.reset.host with perstLow := false } }, by decide +kernel⟩,
   ⟨trustState, true, false, signedImage, [], some signedImage, none, by decide +kernel⟩⟩

theorem witness_power_ok_and_bring_up_steps_2 :
    (∃ (s : State) (read0 read1 : Bool) (image0 image1 : List Byte) (slot0 slot1 : Option (List Byte)), (readSlot read0 image0 = slot0) ∧ (readSlot read1 image1 = slot1) ∧ (s.get Reg.PWR_BRINGUP_STEP = 2) ∧ (s.domainOn 1 = true) ∧ (s.get Reg.HST_STATUS_READY = 0) ∧ (slotSvn slot0 < slotSvn slot1) ∧ (imageFault s.pwr.keyHash (s.get Reg.BWT_SVN_REQ_OTP) slot1 = 0)) ∧
    (∃ (s : State) (read0 read1 : Bool) (image0 image1 : List Byte) (slot0 slot1 : Option (List Byte)), (readSlot read0 image0 = slot0) ∧ (readSlot read1 image1 = slot1) ∧ (s.get Reg.PWR_BRINGUP_STEP = 2) ∧ (s.domainOn 1 = true) ∧ (s.get Reg.HST_STATUS_READY = 0) ∧ (slotSvn slot0 < slotSvn slot1) ∧ (imageFault s.pwr.keyHash (s.get Reg.BWT_SVN_REQ_OTP) slot1 ≠ 0) ∧ (imageFault s.pwr.keyHash (s.get Reg.BWT_SVN_REQ_OTP) slot0 = 0)) ∧
    (∃ (s : State) (read0 read1 : Bool) (image0 image1 : List Byte) (slot0 slot1 : Option (List Byte)), (readSlot read0 image0 = slot0) ∧ (readSlot read1 image1 = slot1) ∧ (s.get Reg.PWR_BRINGUP_STEP = 2) ∧ (s.domainOn 1 = true) ∧ (s.get Reg.HST_STATUS_READY = 0) ∧ (s.get Reg.PWR_BRINGUP_FAIL_STEP = 0) ∧ (imageFault s.pwr.keyHash (s.get Reg.BWT_SVN_REQ_OTP) slot0 ≠ 0 ∧ imageFault s.pwr.keyHash (s.get Reg.BWT_SVN_REQ_OTP) slot1 ≠ 0)) ∧
    (∃ (s : State), (s.get Reg.PWR_BRINGUP_STEP = 4 ∨ s.get Reg.PWR_BRINGUP_STEP = 5) ∧ (s.get Reg.HST_STATUS_READY = 1) ∧ (s.get Reg.EXP_STATE_STATE = 0) ∧ (s.pwr.requested = 0) ∧ (s.pwr.protective = false) ∧ (s.stepsEnded = true)) ∧
    (∃ (s : State), (s.get Reg.PWR_BRINGUP_STEP = 2) ∧ (s.pwr.bootAt + 400000000 ≤ s.aon) ∧ (s.pwr.aonOnly = false) ∧ (s.get Reg.PWR_BRINGUP_FAIL_STEP = 0)) ∧
    (∃ (s : State) (p : Fin 3), (s.get Reg.PWR_BRINGUP_STEP = 4) ∧ (s.pwr.runAt + 200000000 ≤ s.aon) ∧ (s.portEnabled p = true) ∧ (1 ≤ s.portState p ∧ s.portState p ≤ 5)) :=
  ⟨⟨trustState, false, true, [], signedImage, none, some signedImage, by decide +kernel⟩,
   ⟨trustState, true, true, signedImage, (leBytes 209 (64 * 2 ^ 64)), some signedImage, some (leBytes 209 (64 * 2 ^ 64)), by decide +kernel⟩,
   ⟨trustState, true, true, [], (leBytes 209 0), some [], some (leBytes 209 0), by decide +kernel⟩,
   ⟨bootState, by decide +kernel⟩,
   ⟨{ up [(Reg.PWR_BRINGUP_STEP, 2)] with aon := 400000000 }, by decide +kernel⟩,
   ⟨{ at' [(Reg.PWR_BRINGUP_STEP, 4), (Reg.CSC_CFG_PORT_EN, 7), (Reg.CSC_PORT_STATE 1, 2)] with aon := 200000000 }, 1, by decide +kernel⟩⟩

theorem witness_protective_reset_and_domains_1 :
    (∃ (s : State), (s.get Reg.PWR_CLK_STATUS_REF = 1) ∧ (s.pwr.aonOnly = false)) ∧
    (∃ (s : State) (pll : Fin 9), (pll.val = 1 ∨ pll.val = 2 ∨ pll.val = 5 ∨ pll.val = 6) ∧ (s.get (pllBit pll) = 1) ∧ (s.pwr.aonOnly = false)) ∧
    (∃ (s : State) (temp : BitVec 16), (temp.toInt < s.getS Reg.PWR_TEMP_WARN_TRIP)) ∧
    (∃ (s : State) (temp : BitVec 16), (s.getS Reg.PWR_TEMP_WARN_TRIP ≤ temp.toInt) ∧ (s.pwr.hot = true) ∧ (s.pwr.thermal = false)) ∧
    (∃ (s : State), (s.pwr.protective = true) ∧ (s.pwr.aonOnly = false) ∧ (s.pwr.stopBy ≤ s.tide)) :=
  ⟨⟨up [(Reg.PWR_CLK_STATUS_REF, 1)], by decide +kernel⟩,
   ⟨up [(pllBit 5, 1)], 5, by decide +kernel⟩,
   ⟨up [], 0x0640, by decide +kernel⟩,
   ⟨{ up [] with pwr := { State.reset.pwr with hot := true } }, 0x0800, by decide +kernel⟩,
   ⟨{ up [] with pwr := { State.reset.pwr with protective := true } }, by decide +kernel⟩⟩

theorem witness_protective_reset_and_domains_2 :
    (∃ (s : State) (d : Fin 16), (s.awaited d = true) ∧ ((needsOf d).all s.domainOn = true) ∧ (s.wakeTurn d = true) ∧ (s.quadTurn d = true)) ∧
    (∃ (s : State) (d : Fin 16), (s.awaited d = true) ∧ (2 ≤ d.val ∧ d.val ≤ 5)) ∧
    (∃ (s : State) (d : Fin 16), (s.awaited d = true) ∧ (d.val < 2 ∨ d.val = 6 ∨ d.val = 7 ∨ 12 ≤ d.val)) ∧
    (∃ (s : State) (d : Fin 16), (s.awaited d = true) ∧ (d.val = 10 ∨ d.val = 11)) ∧
    (∃ (s : State) (q : Fin 4), (s.quadIdle q = true)) :=
  ⟨⟨{ at' [(Reg.PWR_DOMAIN_STATUS_ON, 0x3003), (Reg.PWR_DOMAIN_STATUS_FAULT, 64)] with pwr := { State.reset.pwr with requested := 64 } }, 6, by decide +kernel⟩,
   ⟨{ at' [] with pwr := { State.reset.pwr with requested := 8 } }, 3, by decide +kernel⟩,
   ⟨{ at' [] with pwr := { State.reset.pwr with requested := 64 } }, 6, by decide +kernel⟩,
   ⟨{ at' [] with pwr := { State.reset.pwr with requested := 2048 } }, 11, by decide +kernel⟩,
   ⟨{ up [(Reg.PWR_QUAD_CTRL_NEAP_EN, 1)] with aon := 400000000 }, 2, by decide +kernel⟩⟩

theorem witness_records_outside_sections :
    (∃ (s : State) (h : Fin 16) (rc : List Byte), (s.recordReady h 1 2 rc = true) ∧ ((s.stream h).ctx = .start) ∧ (fieldAt rc 4 4 = 0x534E5943) ∧ (fieldAt rc 8 1 = 2 ∨ fieldAt rc 8 1 = 3) ∧ (fieldAt rc 9 1 = 0)) ∧
    (∃ (s : State) (h : Fin 16) (rc : List Byte), (s.recordReady h 2 3 rc = true) ∧ ((s.stream h).ctx = .stream) ∧ (s.box.strips = []) ∧ (stripFieldsOk (s.stream h).v2 (s.get Reg.CSC_CFG_DEVICE) (s.get Reg.CSC_CFG_DEVICES) rc = true)) ∧
    (∃ (s : State) (h : Fin 16) (rc : List Byte) (r : StripRec), (s.recordReady h 3 33 rc = true) ∧ (s.backStrip h = false) ∧ ((s.stream h).ctx = .header false) ∧ ((s.stream h).current = some r) ∧ (fieldAt rc 8 1 = 0) ∧ (∀ d ∈ ((rc.drop 8).take 256), d.toNat ≤ 60 ∨ d.toNat = 255)) ∧
    (∃ (s : State) (h : Fin 16) (rc : List Byte) (r : StripRec), (s.recordReady h 3 33 rc = true) ∧ (s.backStrip h = true) ∧ ((s.stream h).ctx = .header false) ∧ ((s.stream h).current = some r) ∧ (fieldAt rc 8 1 = 0) ∧ (∀ d ∈ ((rc.drop 8).take 256), d.toNat ≤ 60 ∨ d.toNat = 255)) ∧
    (∃ (s : State) (h : Fin 16) (rc : List Byte), (s.recordReady h 8 3 rc = true) ∧ ((s.stream h).ctx = .stream) ∧ (1 ≤ fieldAt rc 4 4 ∧ fieldAt rc 4 4 ≤ 1048575) ∧ (findCell (s.stream h).cells (fieldAt rc 4 4) = none) ∧ (s32At rc 8 ≤ s32At rc 12 ∧ s32At rc 16 ≤ s32At rc 20) ∧ ((s.stream h).cells.length < 1048575 ∧ (s.stream h).libraryBytes + 24 ≤ 2 ^ 32)) ∧
    (∃ (s : State) (h : Fin 16) (rc : List Byte) (num records depth off : Nat) (bx0 bx1 by0 by1 : Int) (shapes : List Shape), (s.recordReady h 9 2 rc = true) ∧ ((s.stream h).ctx = .cell num bx0 bx1 by0 by1 records depth off shapes) ∧ (fieldAt rc 4 4 = num ∧ fieldAt rc 8 4 = records) ∧ ((s.stream h).libraryBytes + ((s.stream h).parsed + 16 - off) ≤ 2 ^ 32)) ∧
    (∃ (s : State) (h : Fin 16) (rc : List Byte) (len : Nat), (1 ≤ len ∧ len < 2 ^ 24) ∧ (s.recordReady h 0 len rc = true) ∧ ((s.stream h).ctx = .stream)) :=
  ⟨⟨withStream { openStream with ctx := .start }, 2, leBytes 1 1 ++ leBytes 3 2 ++ leBytes 4 0x534E5943 ++ leBytes 1 3 ++ leBytes 7 0, by decide +kernel⟩,
   ⟨withStream openStream, 2, leBytes 1 2 ++ leBytes 3 3 ++ leBytes 1 0 ++ leBytes 1 (State.reset.get Reg.CSC_CFG_DEVICES) ++ leBytes 2 0 ++ leBytes 4 77 ++ leBytes 4 512 ++ leBytes 8 4096, by decide +kernel⟩,
   ⟨withStream { openStream with ctx := .header false, strips := [aStrip] }, 2, leBytes 1 3 ++ leBytes 3 33 ++ leBytes 4 0 ++ leBytes 1 0 ++ List.replicate 255 60, aStrip, by decide +kernel⟩,
   ⟨backState, 2, leBytes 1 3 ++ leBytes 3 33 ++ leBytes 4 0 ++ leBytes 1 0 ++ List.replicate 255 60, aStrip, by decide +kernel⟩,
   ⟨withStream openStream, 2, leBytes 1 8 ++ leBytes 3 3 ++ leBytes 4 5 ++ leBytes 4 0 ++ leBytes 4 100 ++ leBytes 4 0 ++ leBytes 4 100, by decide +kernel⟩,
   ⟨withStream { openStream with ctx := .cell 5 0 100 0 100 0 1 16 [], parsed := 40 }, 2, leBytes 1 9 ++ leBytes 3 2 ++ leBytes 4 5 ++ leBytes 4 0 ++ leBytes 4 0, 5, 0, 1, 16, 0, 100, 0, 100, [], by decide +kernel⟩,
   ⟨withStream openStream, 2, List.replicate 8 0 |>.set 1 1, 1, by decide +kernel⟩⟩

theorem witness_primitives_join_their_section :
    (∃ (s : State) (h : Fin 16) (rc : List Byte) (k : Nat) (r : StripRec) (q : Section), (s.recordReady h 16 4 rc = true) ∧ ((s.stream h).ctx = .sect k) ∧ ((s.stream h).current = some r) ∧ (r.sections.getLast? = some q) ∧ (s32At rc 8 < s32At rc 12 ∧ s64At rc 16 < s64At rc 24) ∧ (Shape.inRange (s.stream h).cells (2 ^ 40) (.rect (fieldAt rc 4 1) (s32At rc 8) (s32At rc 12) (s64At rc 16) (s64At rc 24)) = true) ∧ (shapeClassesOk (s.stream h).cells r.table (.rect (fieldAt rc 4 1) (s32At rc 8) (s32At rc 12) (s64At rc 16) (s64At rc 24)) = true)) ∧
    (∃ (s : State) (h : Fin 16) (rc : List Byte) (k : Nat) (r : StripRec) (q : Section), (s.recordReady h 17 5 rc = true) ∧ ((s.stream h).ctx = .sect k) ∧ ((s.stream h).current = some r) ∧ (r.sections.getLast? = some q) ∧ (s64At rc 24 < s64At rc 32) ∧ (s32At rc 8 ≤ s32At rc 12 ∧ s32At rc 16 ≤ s32At rc 20) ∧ (s32At rc 8 < s32At rc 12 ∨ s32At rc 16 < s32At rc 20) ∧ (Shape.inRange (s.stream h).cells (2 ^ 40) (.trap (fieldAt rc 4 1) (s32At rc 8) (s32At rc 12) (s32At rc 16) (s32At rc 20) (s64At rc 24) (s64At rc 32)) = true) ∧ (shapeClassesOk (s.stream h).cells r.table (.trap (fieldAt rc 4 1) (s32At rc 8) (s32At rc 12) (s32At rc 16) (s32At rc 20) (s64At rc 24) (s64At rc 32)) = true)) ∧
    (∃ (s : State) (h : Fin 16) (rc : List Byte) (k : Nat) (r : StripRec) (q : Section), (s.recordReady h 18 3 rc = true) ∧ ((s.stream h).ctx = .sect k) ∧ ((s.stream h).current = some r) ∧ (r.sections.getLast? = some q) ∧ ((s.stream h).v2 = false) ∧ (1 ≤ fieldAt rc 12 4 ∧ fieldAt rc 12 4 ≤ 8388607) ∧ (Shape.inRange (s.stream h).cells (2 ^ 40) (.disc (fieldAt rc 4 1) (s32At rc 8) (s64At rc 16) (fieldAt rc 12 4)) = true) ∧ (shapeClassesOk (s.stream h).cells r.table (.disc (fieldAt rc 4 1) (s32At rc 8) (s64At rc 16) (fieldAt rc 12 4)) = true)) ∧
    (∃ (s : State) (h : Fin 16) (rc : List Byte) (k : Nat) (r : StripRec) (q : Section) (sh : Shape), (s.recordReady h 19 (4 + (fieldAt rc 28 4 + 7) / 8) rc = true) ∧ ((s.stream h).ctx = .sect k) ∧ ((s.stream h).current = some r) ∧ (r.sections.getLast? = some q) ∧ ((shapeOf (s.stream h).cells 0x13 rc).toOption = some sh) ∧ (sh.inRange (s.stream h).cells (2 ^ 40) = true) ∧ (shapeClassesOk (s.stream h).cells r.table sh = true)) ∧
    (∃ (s : State) (h : Fin 16) (rc : List Byte) (k : Nat) (r : StripRec) (q : Section) (sh : Shape), (s.recordReady h 24 3 rc = true) ∧ ((s.stream h).ctx = .sect k) ∧ ((s.stream h).current = some r) ∧ (r.sections.getLast? = some q) ∧ ((shapeOf (s.stream h).cells 0x18 rc).toOption = some sh) ∧ (sh.inRange (s.stream h).cells (2 ^ 40) = true) ∧ (shapeClassesOk (s.stream h).cells r.table sh = true)) ∧
    (∃ (s : State) (h : Fin 16) (rc : List Byte) (k : Nat) (r : StripRec) (q : Section) (sh : Shape), (s.recordReady h 25 5 rc = true) ∧ ((s.stream h).ctx = .sect k) ∧ ((s.stream h).current = some r) ∧ (r.sections.getLast? = some q) ∧ ((shapeOf (s.stream h).cells 0x19 rc).toOption = some sh) ∧ (sh.inRange (s.stream h).cells (2 ^ 40) = true) ∧ (shapeClassesOk (s.stream h).cells r.table sh = true)) :=
  ⟨⟨withStream { openStream with ctx := .sect 0, strips := [bodyStrip], cells := [⟨5, 0, 100, 0, 100, 1, [], 64⟩] }, 2, leBytes 1 0x10 ++ leBytes 3 4 ++ leBytes 1 1 ++ leBytes 3 0 ++ leBytes 4 0 ++ leBytes 4 9 ++ leBytes 8 0 ++ leBytes 8 9, 0, bodyStrip, Section.new 400, by decide +kernel⟩,
   ⟨withStream { openStream with ctx := .sect 0, strips := [bodyStrip], cells := [⟨5, 0, 100, 0, 100, 1, [], 64⟩] }, 2, leBytes 1 0x11 ++ leBytes 3 5 ++ leBytes 1 1 ++ leBytes 3 0 ++ leBytes 4 0 ++ leBytes 4 9 ++ leBytes 4 0 ++ leBytes 4 0 ++ leBytes 8 0 ++ leBytes 8 9, 0, bodyStrip, Section.new 400, by decide +kernel⟩,
   ⟨withStream { openStream with ctx := .sect 0, strips := [bodyStrip], cells := [⟨5, 0, 100, 0, 100, 1, [], 64⟩] }, 2, leBytes 1 0x12 ++ leBytes 3 3 ++ leBytes 1 1 ++ leBytes 3 0 ++ leBytes 4 100 ++ leBytes 4 9 ++ leBytes 8 100, 0, bodyStrip, Section.new 400, by decide +kernel⟩,
   ⟨withStream { openStream with ctx := .sect 0, strips := [bodyStrip], cells := [⟨5, 0, 100, 0, 100, 1, [], 64⟩] }, 2, leBytes 1 0x13 ++ leBytes 3 5 ++ leBytes 1 0 ++ leBytes 3 0 ++ leBytes 4 100 ++ leBytes 2 2 ++ leBytes 2 2 ++ leBytes 8 100 ++ leBytes 2 4 ++ leBytes 2 4 ++ leBytes 4 4 ++ leBytes 4 0x01010001 ++ leBytes 4 0, 0, bodyStrip, Section.new 400, .patch false 100 100 2 2 4 4 [1, 0, 1, 1], by decide +kernel⟩,
   ⟨withStream { openStream with ctx := .sect 0, strips := [bodyStrip], cells := [⟨5, 0, 100, 0, 100, 1, [], 64⟩] }, 2, leBytes 1 0x18 ++ leBytes 3 3 ++ leBytes 1 0 ++ leBytes 3 0 ++ leBytes 4 5 ++ leBytes 4 7 ++ leBytes 8 9, 0, bodyStrip, Section.new 400, .ref 0 5 7 9, by decide +kernel⟩,
   ⟨withStream { openStream with ctx := .sect 0, strips := [bodyStrip], cells := [⟨5, 0, 100, 0, 100, 1, [], 64⟩] }, 2, leBytes 1 0x19 ++ leBytes 3 5 ++ leBytes 1 0 ++ leBytes 3 0 ++ leBytes 4 5 ++ leBytes 4 7 ++ leBytes 8 9 ++ leBytes 2 2 ++ leBytes 2 2 ++ leBytes 4 200 ++ leBytes 4 200 ++ leBytes 4 0, 0, bodyStrip, Section.new 400, .aref 0 5 7 9 2 2 200 200, by decide +kernel⟩⟩

theorem witness_section_marks_margins_seams_end :
    (∃ (s : State) (h : Fin 16) (rc : List Byte) (k : Nat) (r : StripRec) (q : Section), (s.recordReady h 0x20 (if (s.stream h).v2 then 6 else 10) rc = true) ∧ ((s.stream h).ctx = .sect k) ∧ ((s.stream h).current = some r) ∧ (r.sections.getLast? = some q) ∧ (fieldAt rc 4 4 = k) ∧ ((s.stream h).v2 = false → fieldAt rc 8 8 = q.off)) ∧
    (∃ (s : State) (h : Fin 16) (rc : List Byte) (k : Nat) (r : StripRec) (q : Section), (s.recordReady h 0x21 (2 + 2 * fieldAt rc 6 2) rc = true) ∧ ((s.stream h).v2 = false) ∧ ((s.stream h).ctx = .sect k) ∧ ((s.stream h).current = some r) ∧ (r.sections.getLast? = some q) ∧ (1 ≤ fieldAt rc 6 2 ∧ fieldAt rc 6 2 ≤ 1024) ∧ (fieldAt rc 4 1 < 2) ∧ (fieldAt rc 8 4 < r.reams)) ∧
    (∃ (s : State) (h : Fin 16) (rc : List Byte) (k : Nat) (r : StripRec), (s.recordReady h 0x22 2 rc = true) ∧ ((s.stream h).v2 = false) ∧ ((s.stream h).ctx = .sect k) ∧ ((s.stream h).current = some r)) ∧
    (∃ (s : State) (h : Fin 16) (rc : List Byte) (r : StripRec), (s.recordReady h 4 (if (s.stream h).v2 then 1 else 2) rc = true) ∧ ((s.stream h).ctx = .tail) ∧ ((s.stream h).current = some r) ∧ (fieldAt rc 4 4 = r.reams) ∧ ((r.sections.filter (·.marked)).length = r.reams) ∧ ((s.stream h).v2 = false → fieldAt rc 8 8 = ((r.sections.getLast?).map (·.markOff)).getD 0) ∧ ((s.stream h).parsed + (if (s.stream h).v2 then 8 else 16) = r.off + r.bytes)) ∧
    (∃ (s : State) (h : Fin 16) (rc : List Byte) (r : StripRec) (w : BackWalk), (s.walkReady h 4 2 rc w = true) ∧ ((s.stream h).ctx = .tailBack) ∧ ((s.stream h).current = some r) ∧ (fieldAt rc 4 4 = r.reams) ∧ ((r.off + fieldAt rc 8 8) % 8 = 0) ∧ (w.start ≤ r.off + fieldAt rc 8 8) ∧ (r.off + fieldAt rc 8 8 + 80 ≤ (s.stream h).parsed)) ∧
    (∃ (s : State) (h : Fin 16) (rc : List Byte) (k : Nat) (r : StripRec) (w : BackWalk), (s.walkReady h 0x20 10 rc w = true) ∧ ((s.stream h).ctx = .markBack k) ∧ ((s.stream h).current = some r) ∧ (r.sections.all (fun q => decide (k < q.ream)) = true) ∧ (k + 1 < r.reams ∧ fieldAt rc 4 4 = k) ∧ (fieldAt rc 8 8 % 8 = 0) ∧ (r.off + fieldAt rc 8 8 < (s.stream h).parsed) ∧ (k = 0 → r.off + fieldAt rc 8 8 = w.start) ∧ (0 < k → w.start + 80 ≤ r.off + fieldAt rc 8 8) ∧ (r.off ≤ w.start)) :=
  ⟨⟨withStream { openStream with ctx := .sect 0, strips := [bodyStrip], cells := [⟨5, 0, 100, 0, 100, 1, [], 64⟩] }, 2, leBytes 1 0x20 ++ leBytes 3 10 ++ leBytes 4 0 ++ leBytes 8 400 ++ List.replicate 64 0, 0, bodyStrip, Section.new 400, by decide +kernel⟩,
   ⟨withStream { openStream with ctx := .sect 0, strips := [bodyStrip], cells := [⟨5, 0, 100, 0, 100, 1, [], 64⟩] }, 2, leBytes 1 0x21 ++ leBytes 3 4 ++ leBytes 1 1 ++ leBytes 1 0 ++ leBytes 2 1 ++ leBytes 4 1 ++ leBytes 4 0 ++ List.replicate 16 9, 0, bodyStrip, Section.new 400, by decide +kernel⟩,
   ⟨withStream { openStream with ctx := .sect 0, strips := [bodyStrip], cells := [⟨5, 0, 100, 0, 100, 1, [], 64⟩] }, 2, leBytes 1 0x22 ++ leBytes 3 2 ++ leBytes 4 0 ++ leBytes 4 100 ++ leBytes 4 32, 0, bodyStrip, by decide +kernel⟩,
   ⟨withStream { openStream with ctx := .tail, parsed := 2000, strips := [{ aStrip with bytes := 2000, sections := [{ Section.new 400 with marked := true, markOff := 1900 }, { Section.new 900 with marked := true, markOff := 1900 }] }] }, 2, leBytes 1 4 ++ leBytes 3 2 ++ leBytes 4 2 ++ leBytes 8 1900, { aStrip with bytes := 2000, sections := [{ Section.new 400 with marked := true, markOff := 1900 }, { Section.new 900 with marked := true, markOff := 1900 }] }, by decide +kernel⟩,
   ⟨withStream { openStream with ctx := .tailBack, parsed := 2000, back := some ⟨304, 0⟩, strips := [bodyStrip] }, 2, leBytes 1 4 ++ leBytes 3 2 ++ leBytes 4 2 ++ leBytes 8 1904, bodyStrip, ⟨304, 0⟩, by decide +kernel⟩,
   ⟨withStream { openStream with ctx := .markBack 0, parsed := 1000, back := some ⟨304, 1800⟩, strips := [{ bodyStrip with sections := [Section.new 1080 1] }] }, 2, leBytes 1 0x20 ++ leBytes 3 10 ++ leBytes 4 0 ++ leBytes 8 288 ++ List.replicate 64 0, 0, { bodyStrip with sections := [Section.new 1080 1] }, ⟨304, 1800⟩, by decide +kernel⟩⟩

theorem witness_malformed_descriptors_complete_bad_desc :
    (∃ (s : State) (c : Instr) (op : Nat) (d : Desc), ((op, c) ∈ descCommands d) ∧ (d.field 0 1 = op) ∧ (d.field 2 1 ≠ 0) ∧ (s.takeWait d (usesDram d) = 0) ∧ (s.findJob s.host.nextAseq = none) ∧ (d.field 8 8 < 2 ^ 64 - 64)) :=
  ⟨ringState, .hcrAlign ⟨5, leBytes 1 0x29 ++ leBytes 63 256⟩, 0x29, ⟨5, leBytes 1 0x29 ++ leBytes 63 256⟩, by simp [descCommands], by decide +kernel⟩

theorem witness_waiting_descriptors_show_why :
    (∃ (s : State) (c : Instr) (op : Nat) (d : Desc) (w : Nat), ((op, c) ∈ descCommands d) ∧ (d.field 0 1 = op) ∧ (s.takeWait d (usesDram d) = w) ∧ (0 < w ∧ w < 7)) ∧
    (∃ (s : State) (c : Instr) (op : Nat) (d : Desc), ((op, c) ∈ descCommands d) ∧ (d.field 0 1 = op) ∧ (s.takeWait d (usesDram d) = 255)) :=
  ⟨⟨{ ringState with regs := rfPut ringState.regs Reg.HST_STATUS_ABORTING 1 }, .nop ⟨5, leBytes 64 0x3F⟩, 0x3F, ⟨5, leBytes 64 0x3F⟩, 5, by simp [descCommands], by decide +kernel⟩,
   ⟨up [], .nop ⟨5, leBytes 64 0x3F⟩, 0x3F, ⟨5, leBytes 64 0x3F⟩, by simp [descCommands], by decide +kernel⟩⟩

theorem witness_stream_and_ledger_jobs :
    (∃ (s : State) (d : Desc), (s.takes d 1 (layoutChecks d) = true) ∧ (bitAt (d.field 37 1) 0 = true) ∧ ((s.stream (d.field 36 1)).isOpen = false) ∧ (d.field 36 1 < s.box.streams.length) ∧ (s.dramRangeOk (d.field 40 8) (d.field 48 8) = true) ∧ (bitAt (d.field 37 1) 2 = true → s.dramRangeOk (d.field 16 8) (d.field 32 4) = true)) ∧
    (∃ (s : State) (d : Desc), (s.takes d 1 (layoutChecks d) = true) ∧ (bitAt (d.field 37 1) 0 = false) ∧ (bitAt (d.field 37 1) 2 = true → s.dramRangeOk (d.field 16 8) (d.field 32 4) = true) ∧ ((s.stream (d.field 36 1)).isOpen = true) ∧ ((s.stream (d.field 36 1)).failed = none) ∧ ((s.stream (d.field 36 1)).last = false) ∧ (d.field 24 8 = (s.stream (d.field 36 1)).received) ∧ ((s.stream (d.field 36 1)).parsed ≤ (s.stream (d.field 36 1)).received)) ∧
    (∃ (s : State) (d : Desc), (s.takes d 2 ((16, decide (d.field 16 1 < 16)) :: descReserved d 17 47) = true) ∧ ((s.stream (d.field 16 1)).isOpen = true) ∧ ((s.stream (d.field 16 1)).jobs = []) ∧ (s.box.strips.all (fun st => decide (st.handle ≠ d.field 16 1)) = true) ∧ (d.field 8 8 < 2 ^ 64 - 64)) ∧
    (∃ (s : State) (d : Desc), (s.takes d 0x14 ((20, decide (d.field 20 1 < 16)) :: descReserved d 21 43) = true) ∧ ((s.ledgerAt (d.field 20 1)).state = 3) ∧ ((s.ledgerAt (d.field 20 1)).stripId = d.field 16 4) ∧ (d.field 20 1 < s.store.ledger.length) ∧ (d.field 8 8 < 2 ^ 64 - 64)) ∧
    (∃ (s : State) (d : Desc), (s.takes d 0x3F ((0, true) :: descReserved d 16 48) = true) ∧ (d.field 8 8 < 2 ^ 64 - 64)) :=
  ⟨⟨ringState, ⟨5, leBytes 16 1 ++ leBytes 8 0 ++ leBytes 8 0 ++ leBytes 4 4096 ++ leBytes 1 3 ++ leBytes 1 1 ++ leBytes 2 0 ++ leBytes 8 0 ++ leBytes 8 0x1000000 ++ leBytes 8 0⟩, by decide +kernel⟩,
   ⟨ringState.modStream 3 fun _ => { openStream with received := 16 }, ⟨5, leBytes 16 1 ++ leBytes 8 0 ++ leBytes 8 16 ++ leBytes 4 4096 ++ leBytes 1 3 ++ leBytes 1 0 ++ leBytes 2 0 ++ leBytes 24 0⟩, by decide +kernel⟩,
   ⟨ringState.modStream 3 fun _ => openStream, ⟨5, leBytes 8 2 ++ leBytes 8 0x4000 ++ leBytes 48 3⟩, by decide +kernel⟩,
   ⟨ringState.modLedger 4 fun l => { l with state := 3, stripId := 99 }, ⟨5, leBytes 8 0x14 ++ leBytes 8 0x4000 ++ leBytes 4 99 ++ leBytes 44 4⟩, by decide +kernel⟩,
   ⟨ringState, ⟨5, leBytes 8 0x3F ++ leBytes 8 0x4000 ++ leBytes 48 0⟩, by decide +kernel⟩⟩

theorem witness_strip_jobs_post_stop_resume_end_1 :
    (∃ (s : State) (d : Desc) (slot : Nat), (s.takes d 0x10 (stripChecks d) = true) ∧ ((s.stream (d.field 20 1)).failed = none) ∧ (s.postFault d = none) ∧ (s.freeRecord = some slot) ∧ (slot < s.store.ledger.length) ∧ (((s.stream (d.field 20 1)).strips.all fun r => decide (r.id ≠ d.field 16 4)) = true)) ∧
    (∃ (s : State) (d : Desc) (st : Strip), (s.takes d 0x11 ((20, decide (d.field 20 1 < 2)) :: descReserved d 21 43) = true) ∧ (s.openStrip = some st) ∧ (st.stripId = d.field 16 4) ∧ (s.get Reg.EXP_STATE_STATE = 2) ∧ (d.field 8 8 < 2 ^ 64 - 64)) ∧
    (∃ (s : State) (d : Desc) (st : Strip), (s.takes d 0x11 ((20, decide (d.field 20 1 < 2)) :: descReserved d 21 43) = true) ∧ (s.openStrip = some st) ∧ (st.stripId = d.field 16 4) ∧ (s.get Reg.EXP_STATE_STATE = 4 ∨ s.get Reg.EXP_STATE_STATE = 7)) ∧
    (∃ (s : State) (d : Desc) (st : Strip), (s.takes d 0x11 ((20, decide (d.field 20 1 < 2)) :: descReserved d 21 43) = true) ∧ (s.openStrip = some st) ∧ (st.stripId = d.field 16 4) ∧ (s.get Reg.EXP_STATE_STATE = 5 ∨ s.get Reg.EXP_STATE_STATE = 6)) ∧
    (∃ (s : State) (d : Desc), (s.takes d 0x11 ((20, decide (d.field 20 1 < 2)) :: descReserved d 21 43) = true) ∧ ((s.openStrip.all fun st => decide (st.stripId ≠ d.field 16 4)) = true) ∧ (d.field 8 8 < 2 ^ 64 - 64)) :=
  ⟨⟨postState, aPost, 0, by decide +kernel⟩,
   ⟨openState 2, ⟨5, leBytes 8 0x11 ++ leBytes 8 0x4000 ++ leBytes 4 77 ++ leBytes 44 0⟩, anOpenStrip, by decide +kernel⟩,
   ⟨openState 4, ⟨5, leBytes 8 0x11 ++ leBytes 8 0x4000 ++ leBytes 4 77 ++ leBytes 44 1⟩, anOpenStrip, by decide +kernel⟩,
   ⟨openState 6, ⟨5, leBytes 8 0x11 ++ leBytes 8 0x4000 ++ leBytes 4 77 ++ leBytes 44 1⟩, anOpenStrip, by decide +kernel⟩,
   ⟨openState 4, ⟨5, leBytes 8 0x11 ++ leBytes 8 0x4000 ++ leBytes 4 78 ++ leBytes 44 1⟩, by decide +kernel⟩⟩

theorem witness_strip_jobs_post_stop_resume_end_2 :
    (∃ (s : State) (d : Desc) (st : Strip), (s.takes d 0x12 (resumeChecks d) = true) ∧ (s.resumeTarget (d.field 16 4) = some st) ∧ (s.stripAt st.slot = some st) ∧ (bitAt (d.field 20 1) 0 = false)) ∧
    (∃ (s : State) (d : Desc), (s.takes d 0x13 (descReserved d 20 44) = true) ∧ (s.box.strips.all (fun st => decide (st.stripId ≠ d.field 16 4)) = true) ∧ (d.field 8 8 < 2 ^ 64 - 64)) ∧
    (∃ (s : State) (d : Desc) (st : Strip), (s.takes d 0x13 (descReserved d 20 44) = true) ∧ (s.openStrip = none) ∧ ((s.box.strips.find? fun st => decide (st.stripId = d.field 16 4)) = some st) ∧ (st.aseq ≠ s.host.nextAseq) ∧ (s.host.nextAseq ∉ st.resumeJobs)) ∧
    (∃ (s : State) (d : Desc) (st : Strip), (s.takes d 0x13 (descReserved d 20 44) = true) ∧ (s.openStrip = some st) ∧ (st.stripId = d.field 16 4) ∧ (s.get Reg.EXP_STATE_STATE = 4 ∨ s.get Reg.EXP_STATE_STATE = 7)) :=
  ⟨⟨openState 2, ⟨5, leBytes 8 0x12 ++ leBytes 8 0x4000 ++ leBytes 4 77 ++ leBytes 44 0⟩, anOpenStrip, by decide +kernel⟩,
   ⟨openState 2, ⟨5, leBytes 8 0x13 ++ leBytes 8 0x4000 ++ leBytes 4 78 ++ leBytes 44 0⟩, by decide +kernel⟩,
   ⟨{ openState 2 with box := { (openState 2).box with strips := [{ anOpenStrip with isOpen := false, aseq := 3 }] } }, ⟨5, leBytes 8 0x13 ++ leBytes 8 0x4000 ++ leBytes 4 77 ++ leBytes 44 0⟩, { anOpenStrip with isOpen := false, aseq := 3 }, by decide +kernel⟩,
   ⟨openState 4, ⟨5, leBytes 8 0x13 ++ leBytes 8 0x4000 ++ leBytes 4 77 ++ leBytes 44 0⟩, anOpenStrip, by decide +kernel⟩⟩

theorem witness_tile_jobs_issue_and_end_1 :
    (∃ (s : State) (l : List Nat) (w : Ready) (v : Nat), (s.box.jobs.length < min (s.get Reg.HBX_CTRL_MAX_JOBS) 256) ∧ (s.skipTests.chooseJob s.skipTests.readyJobs = (l, some (w, v)))) ∧
    (∃ (s : State) (v : Fin 16) (j : TileJob) (u : State) (st : Strip), let doses : List Nat := (u.tileSource st j.ream j.col).tileDoses j.ream j.col; (s.takeVatJob v = some (j, u)) ∧ (s.stripAt j.slot = some st) ∧ (j.kind = .fine) ∧ (u.inTime st j = true)) ∧
    (∃ (s : State) (v : Fin 16) (j : TileJob) (u : State) (st : Strip) (bytes : List Byte), (s.takeVatJob v = some (j, u)) ∧ (s.stripAt j.slot = some st) ∧ (j.kind = .fine) ∧ (u.inTime st j = true) ∧ (tileCrc (bytes.map (·.toNat)) ≠ u.watermark st j.ream j.col)) :=
  ⟨⟨wantState, [], ⟨{ fineJob with kind := .spareTest, vat := 0xFF, vatA := 15 }, [15], some ⟨.spareTest, 0, 0, 3, 15, none, none, 0⟩⟩, 15, by decide +kernel⟩,
   ⟨{ stripState with box := { stripState.box with jobs := [fineJob] } }, 2, fineJob, u0 ({ stripState with box := { stripState.box with jobs := [fineJob] } }), postedStrip, by decide +kernel, by decide +kernel, by decide +kernel, in_time_nil _ _ _ (by decide +kernel) (by decide +kernel) (by decide +kernel)⟩,
   ⟨{ stripState with box := { stripState.box with jobs := [fineJob] } }, 2, fineJob, u0 ({ stripState with box := { stripState.box with jobs := [fineJob] } }), postedStrip, [1, 2], by decide +kernel, by decide +kernel, by decide +kernel, in_time_nil _ _ _ (by decide +kernel) (by decide +kernel) (by decide +kernel), by decide +kernel⟩⟩

theorem witness_tile_jobs_issue_and_end_2 :
    (∃ (s : State) (v : Fin 16) (j : TileJob) (u : State) (st : Strip) (side : Fin 2) (row : Word), (s.takeVatJob v = some (j, u)) ∧ (s.stripAt j.slot = some st) ∧ (j.kind = .fine) ∧ (u.inTime st j = true) ∧ ((u.portToward side.val).isSome = true)) ∧
    (∃ (s : State) (v : Fin 16) (j : TileJob) (u : State) (st : Strip) (out : Render), (s.takeVatJob v = some (j, u)) ∧ (s.stripAt j.slot = some st) ∧ (j.kind = .fine) ∧ (s.get Reg.HBX_JOB_LIMIT_CYCLES < fineCycles (u.renderSource st j.ream j.col).cells j.ream j.col (u.renderSource st j.ream j.col).shapes)) ∧
    (∃ (s : State) (v : Fin 16) (j : TileJob) (u : State) (st : Strip), (s.takeVatJob v = some (j, u)) ∧ (s.stripAt j.slot = some st) ∧ (j.kind = .coarse) ∧ (u.inTime st j = true) ∧ ((st.coarseJobs.find? fun c => decide (c.ream = j.ream ∧ c.col = j.col)) = none)) :=
  ⟨⟨({ stripState with box := { stripState.box with jobs := [fineJob] } }).puts [(Reg.CSC_STATUS_SLAVE, 1), (Reg.CSC_STATUS_READY, 1)], 2, fineJob, u0 (({ stripState with box := { stripState.box with jobs := [fineJob] } }).puts [(Reg.CSC_STATUS_SLAVE, 1), (Reg.CSC_STATUS_READY, 1)]), postedStrip, 1, 7, by decide +kernel, by decide +kernel, by decide +kernel, in_time_nil _ _ _ (by decide +kernel) (by decide +kernel) (by decide +kernel), by decide +kernel⟩,
   ⟨({ stripState with box := { stripState.box with jobs := [fineJob] } }).put Reg.HBX_JOB_LIMIT_CYCLES 1, 2, fineJob, u0 (({ stripState with box := { stripState.box with jobs := [fineJob] } }).put Reg.HBX_JOB_LIMIT_CYCLES 1), postedStrip, .right, by decide +kernel, by decide +kernel, by decide +kernel, over_time_nil _ _ _ _ (by decide +kernel) (by decide +kernel)⟩,
   ⟨{ stripState with box := { stripState.box with jobs := [{ fineJob with kind := .coarse }] } }, 2, { fineJob with kind := .coarse }, u0 ({ stripState with box := { stripState.box with jobs := [{ fineJob with kind := .coarse }] } }), postedStrip, by decide +kernel⟩⟩

theorem witness_tile_jobs_issue_and_end_3 :
    (∃ (s : State) (v : Fin 16) (j : TileJob) (u : State) (st : Strip) (bytes : List Byte) (a : Nat), (s.takeVatJob v = some (j, u)) ∧ (s.stripAt j.slot = some st) ∧ (j.kind = .coarse) ∧ (u.inTime st j = true) ∧ ((st.coarseJobs.find? fun c => decide (c.ream = j.ream ∧ c.col = j.col)) = some ⟨j.ream, j.col, [(a, bytes.map (·.toNat))], false⟩) ∧ (bytes ≠ [])) ∧
    (∃ (s : State) (v : Fin 16) (j : TileJob) (u : State) (st : Strip) (cycles : Word), (s.takeVatJob v = some (j, u)) ∧ (s.stripAt j.slot = some st) ∧ (j.kind = .fine) ∧ (s.get Reg.HBX_JOB_LIMIT_CYCLES < cycles.toNat)) :=
  ⟨⟨{ stripState2 with box := { stripState2.box with jobs := [{ fineJob with kind := .coarse }] } }, 2, { fineJob with kind := .coarse }, u0 ({ stripState2 with box := { stripState2.box with jobs := [{ fineJob with kind := .coarse }] } }), { postedStrip with coarseJobs := [⟨0, 3, [(9, [5, 6])], false⟩] }, [5, 6], 9, by decide +kernel⟩,
   ⟨{ stripState with box := { stripState.box with jobs := [fineJob] } }, 2, fineJob, u0 ({ stripState with box := { stripState.box with jobs := [fineJob] } }), postedStrip, 0xFFFFFFFF, by decide +kernel⟩⟩

theorem witness_headbox_and_calender_upkeep :
    (∃ (s : State) (slot : Fin 16) (ream : Word) (st : Strip) (q : Section) (off : Nat), (s.stripAt slot = some st) ∧ (s.sectionOf st ream.toNat = some q) ∧ (q.poisoned = some off)) ∧
    (∃ (s : State) (slot : Fin 16) (ream : Word) (st : Strip) (q : Section) (off : Nat), (s.stripAt slot = some st) ∧ (s.sectionOf st ream.toNat = some q) ∧ (q.poisoned = some off) ∧ (st.isOpen = false)) ∧
    (∃ (s : State) (slot : Fin 16) (ream : Word) (tile : Fin 16) (l : LostTile) (d : Nat), ((s.store.lost.find? fun l => decide (l.slot = slot.val ∧ l.ream = ream.toNat ∧ l.col = tile.val)) = some l) ∧ (l.due = some d) ∧ ((d : Int) ≤ s.tickNow + 256) ∧ ((s.seq.dueBreaks.any fun b => decide (b.1 = (slot : Nat) ∧ b.2.1 = ream.toNat ∧ b.2.2.1 = (tile : Nat))) = false)) ∧
    (∃ (s : State) (v : Word), (s.domainOn 6 = true) ∧ (s.get Reg.EXP_STATE_STATE < 3) ∧ (s.box.jobs = []) ∧ (s.openStrip = none)) ∧
    (∃ (s : State) (v : Word), (s.domainOn 6 = true) ∧ (3 ≤ s.get Reg.EXP_STATE_STATE)) ∧
    (∃ (s : State) (off : BitVec 25) (wide : Bool) (v : BitVec 64), (0x00402000 ≤ off.toNat ∧ off.toNat < 0x00409000 ∧ off.toNat % (if wide then 8 else 4) = 0 ∧ (findRow off.toNat).isSome = true) ∧ (s.domainOn 6 = true) ∧ ((s.box.strips.find? fun st => decide (st.profile = (off.toNat - 0x00401000) / 0x1000)) = none)) ∧
    (∃ (s : State) (off : BitVec 25) (wide : Bool) (v : BitVec 64) (st : Strip), (0x00402000 ≤ off.toNat ∧ off.toNat < 0x00409000 ∧ off.toNat % (if wide then 8 else 4) = 0 ∧ (findRow off.toNat).isSome = true) ∧ (s.domainOn 6 = true) ∧ ((s.box.strips.find? fun st => decide (st.profile = (off.toNat - 0x00401000) / 0x1000)) = some st)) ∧
    (∃ (s : State) (slot : Fin 16) (ream : Word) (st : Strip), (s.stripAt slot = some st) ∧ (s.haloMissing st ream.toNat ≠ []) ∧ (s.fineOpen st ream.toNat = true) ∧ (s.roomFor st ream.toNat = true) ∧ ((List.range 16).any (s.wantsFine st ream.toNat) = true)) :=
  ⟨⟨stripState.modSection postedStrip 1 fun q => { q with poisoned := some 640 }, 0, 1, postedStrip, { markedSection with ream := 1, poisoned := some 640 }, 640, by decide +kernel⟩,
   ⟨stripState.modSection postedStrip 1 fun q => { q with poisoned := some 640 }, 0, 1, postedStrip, { markedSection with ream := 1, poisoned := some 640 }, 640, by decide +kernel⟩,
   ⟨{ stripState with store := { stripState.store with lost := [⟨0, 1, 2, some 100, false⟩] } }, 0, 1, 2, ⟨0, 1, 2, some 100, false⟩, 100, by decide +kernel⟩,
   ⟨up [], 0x50003CA9, by decide +kernel⟩,
   ⟨up [(Reg.EXP_STATE_STATE, 4)], 0x50003CA9, by decide +kernel⟩,
   ⟨up [], 0x00402000, false, 3, by decide +kernel⟩,
   ⟨{ stripState with box := { stripState.box with strips := [{ postedStrip with profile := 1 }] } }, 0x00402000, false, 3, { postedStrip with profile := 1 }, by decide +kernel⟩,
   ⟨haloState, 0, 0, { postedStrip with coarse := emptySets }, by decide +kernel⟩⟩

theorem witness_store_and_feed :
    (∃ (s : State) (poisoned : Bool) (h : HeldTile) (rest : List HeldTile) (st : Strip) (m : ReamSlot), (s.store.held = h :: rest) ∧ ((poisoned || h.poisoned) = false) ∧ (s.stripAt h.slot = some st) ∧ (s.reamAt h.slot h.ream = some m) ∧ (h.col < 16)) ∧
    (∃ (s : State) (poisoned : Bool) (h : HeldTile) (rest : List HeldTile) (m : ReamSlot), (s.store.held = h :: rest) ∧ ((poisoned || h.poisoned) = true) ∧ (s.reamAt h.slot h.ream = some m)) ∧
    (∃ (s : State) (slot : Fin 16) (ream : Word) (st : Strip), (s.stripAt slot = some st) ∧ (s.fineOpen st ream.toNat = true) ∧ (s.roomFor st ream.toNat = false) ∧ ((List.range 16).any (s.wantsFine st ream.toNat) = true)) ∧
    (∃ (s : State) (reader : Fin 512) (faults : List (Fin 16 × Fin 7)) (st : Strip) (c : ChunkAt) (m : ReamSlot), (s.openStrip = some st) ∧ (s.nextChunk st reader = some c) ∧ (s.reamAt st.slot c.ream = some m) ∧ (2 ≤ m.state) ∧ (m.tiles.all (·.readable) = true) ∧ ((s.store.felt.filter fun h => decide (h.reader = reader.val ∧ h.slot = st.slot)).length < 2) ∧ (s.retriedTiles st.slot reader false = [] ∧ s.retriedTiles st.slot reader true = []) ∧ (s.failingParts m reader c.chunk faults ≠ [])) ∧
    (∃ (s : State) (reader : Fin 512) (faults : List (Fin 16 × Fin 7)) (st : Strip) (c : ChunkAt) (m : ReamSlot) (gone : List Nat), (s.openStrip = some st) ∧ (s.nextChunk st reader = some c) ∧ (s.reamAt st.slot c.ream = some m) ∧ (2 ≤ m.state) ∧ (m.tiles.all (·.readable) = true) ∧ ((s.store.felt.filter fun h => decide (h.reader = reader.val ∧ h.slot = st.slot)).length < 2) ∧ (gone = s.retriedTiles st.slot reader true) ∧ ((s.failingParts m reader c.chunk faults).all (fun j => natMem j (s.retriedTiles st.slot reader false) || natMem j gone) = true)) ∧
    (∃ (s : State) (reader : Fin 512) (late : List (Fin 16)) (st : Strip) (c : ChunkAt) (j : Nat), (s.openStrip = some st) ∧ (s.nextChunk st reader = some c) ∧ (s.get Reg.TID_TICK_STATE = 3) ∧ (s.chunkTick st reader c - s.get Reg.STO_CTRL_FILL_MARGIN ≤ s.tickNow) ∧ (j < 16 ∧ (natMem j (s.retriedTiles st.slot reader false) = true ∨ natMem j (s.retriedTiles st.slot reader true) = true ∨ (late.any fun x => decide (x.val = j)) = true))) ∧
    (∃ (s : State) (off : BitVec 25) (wide : Bool) (v : BitVec 64), (natMem (off.toNat / 8 * 8) [0x00500008, 0x00500010, 0x00500018, 0x00500020] = true) ∧ (off.toNat % (if wide then 8 else 4) = 0) ∧ (off.toNat ≠ 0x00500024) ∧ (s.domainOn 7 = true) ∧ (s.box.strips = [] ∧ s.store.codec = [])) ∧
    (∃ (s : State) (off : BitVec 25) (wide : Bool) (v : BitVec 64), (natMem (off.toNat / 8 * 8) [0x00500008, 0x00500010, 0x00500018, 0x00500020] = true) ∧ (off.toNat % (if wide then 8 else 4) = 0) ∧ (off.toNat ≠ 0x00500024) ∧ (s.domainOn 7 = true) ∧ (s.box.strips ≠ [] ∨ s.store.codec ≠ [])) :=
  ⟨⟨{ reamState with store := { reamState.store with held := [aHeld] } }, false, aHeld, [], postedStrip, aReam, by decide +kernel⟩,
   ⟨{ reamState with store := { reamState.store with held := [aHeld] } }, true, aHeld, [], aReam, by decide +kernel⟩,
   ⟨stripState.put Reg.STO_LEDGER_CFG_SLOTS 0, 0, 0, postedStrip, by decide +kernel⟩,
   ⟨feedState, 5, [], feedStrip, ⟨0, 0⟩, feedReam, by decide +kernel⟩,
   ⟨{ feedState with store := { feedState.store with retries := (List.range 16).map fun j => ⟨5, 0, 0, 0, j, decide (j = 3)⟩ } }, 5, [], feedStrip, ⟨0, 0⟩, feedReam, [3], by decide +kernel⟩,
   ⟨{ feedState.put Reg.TID_TICK_STATE 3 with tid := { feedState.tid with emitted := some 100000 } }, 5, [2], feedStrip, ⟨0, 0⟩, 2, by decide +kernel⟩,
   ⟨up [], 0x00500010, true, 4096, by decide +kernel⟩,
   ⟨stripState, 0x00500010, false, 4096, by decide +kernel⟩⟩

theorem witness_codec_jobs :
    (∃ (s : State) (d : Desc), (s.takes d 0x30 (compressChecks d) = true) ∧ (bitAt (d.field 60 1) 0 = true → s.dramRangeOk (d.field 16 8) (8192 * d.field 56 4) = true) ∧ (bitAt (d.field 60 1) 1 = true → s.dramRangeOk (d.field 24 8) (d.field 48 4) = true) ∧ (bitAt (d.field 60 1) 2 = true → d.field 32 8 ≠ 0 → s.dramRangeOk (d.field 32 8) (d.field 52 4) = true) ∧ (bitAt (d.field 60 1) 3 = true → s.dramRangeOk (d.field 40 8) (sizeTableBytes (d.field 56 4) + 32 * d.field 56 4) = true)) ∧
    (∃ (s : State) (d : Desc), (s.takes d 0x30 (compressChecks d) = true) ∧ (bitAt (d.field 60 1) 0 = true) ∧ (s.dramRangeOk (d.field 16 8) (8192 * d.field 56 4) = false) ∧ (d.field 8 8 < 2 ^ 64 - 64)) ∧
    (∃ (s : State) (d : Desc), (s.takes d 0x31 (decompressChecks d 0x31) = true) ∧ (bitAt (d.field 40 1) 1 = true → s.dramRangeOk (d.field 16 8) (d.field 32 4) = true) ∧ (bitAt (d.field 40 1) 2 = true → s.dramRangeOk (d.field 24 8) (d.field 36 4) = true)) ∧
    (∃ (s : State) (d : Desc), (s.takes d 0x32 (decompressChecks d 0x32) = true) ∧ (bitAt (d.field 40 1) 1 = true → s.dramRangeOk (d.field 16 8) (d.field 32 4) = true) ∧ (bitAt (d.field 40 1) 2 = true → s.dramRangeOk (d.field 24 8) (d.field 36 4) = true)) ∧
    (∃ (s : State) (d : Desc) (c : CodecJob), (s.takes d 0x33 (decompressChecks d 0x33 ++ [(41, (s.pausedAt (d.field 41 1)).isSome)]) = true) ∧ (s.pausedAt (d.field 41 1) = some c) ∧ (bitAt (d.field 40 1) 1 = true → bitAt (d.field 40 1) 4 = true → s.dramRangeOk (d.field 16 8) (d.field 32 4) = true) ∧ (bitAt (d.field 40 1) 2 = true → bitAt (d.field 40 1) 5 = true → s.dramRangeOk (d.field 24 8) (d.field 36 4) = true)) ∧
    (∃ (s : State) (aseq : Word) (c : CodecJob), ((s.store.codec.find? fun c => decide (c.aseq = aseq.toNat) && !c.paused) = some c) ∧ (c.opcode = 0x31) ∧ (c.flawed = none) ∧ (fieldAt c.desc 0 1 = 0x31) ∧ (c.outDone = 0) ∧ ((decodeSegment c.raw c.input).err ≠ some .truncation ∨ bitAt (fieldAt c.desc 40 1) 3 = false) ∧ ((decodeSegment c.raw c.input).out.length ≤ fieldAt c.desc 36 4) ∧ (bitAt (fieldAt c.desc 40 1) 2 = false) ∧ (s.get Reg.HST_STATUS_LINK_UP = 1 ∧ s.host.d3hot = false ∧ s.get Reg.OBS_CTRL_RING_EN = 0) ∧ (∀ j, s.findJob c.aseq = some j → j.compAddr = 0)) :=
  ⟨⟨ringState, ⟨5, leBytes 8 0x30 ++ leBytes 8 0 ++ leBytes 40 0 ++ leBytes 4 1 ++ leBytes 4 15⟩, by decide +kernel⟩,
   ⟨ringState, ⟨5, leBytes 8 0x30 ++ leBytes 8 0x4000 ++ leBytes 8 0xFFFFFFFFFFFFFF00 ++ leBytes 32 0 ++ leBytes 4 1 ++ leBytes 4 1⟩, by decide +kernel⟩,
   ⟨ringState, ⟨5, leBytes 8 0x31 ++ leBytes 8 0 ++ leBytes 8 0x5000 ++ leBytes 8 0x6000 ++ leBytes 4 16 ++ leBytes 4 64 ++ leBytes 1 7 ++ leBytes 23 0⟩, by decide +kernel⟩,
   ⟨ringState, ⟨5, leBytes 8 0x32 ++ leBytes 8 0 ++ leBytes 8 0x5000 ++ leBytes 8 0x6000 ++ leBytes 4 16 ++ leBytes 4 64 ++ leBytes 1 14 ++ leBytes 7 0 ++ leBytes 8 99 ++ leBytes 8 0⟩, by decide +kernel⟩,
   ⟨{ ringState with store := { ringState.store with codec := [aPaused] } }, ⟨5, leBytes 8 0x33 ++ leBytes 8 0 ++ leBytes 8 0x5000 ++ leBytes 8 0x6000 ++ leBytes 4 16 ++ leBytes 4 64 ++ leBytes 1 0x36 ++ leBytes 1 6 ++ leBytes 22 0⟩, aPaused, by decide +kernel⟩,
   ⟨{ ringState with store := { ringState.store with codec := [⟨7, 0x31, leBytes 8 0x31 ++ leBytes 8 0 ++ leBytes 8 0x5000 ++ leBytes 8 0x6000 ++ leBytes 4 16 ++ leBytes 4 64 ++ leBytes 24 1, [], 0, 0, true, 0, none, false, false, none, none⟩] } }, 7, ⟨7, 0x31, leBytes 8 0x31 ++ leBytes 8 0 ++ leBytes 8 0x5000 ++ leBytes 8 0x6000 ++ leBytes 4 16 ++ leBytes 4 64 ++ leBytes 24 1, [], 0, 0, true, 0, none, false, false, none, none⟩, by decide +kernel⟩⟩

theorem witness_ticks_and_zero_runs :
    (∃ (s : State) (faults : List FrameFault), (s.get Reg.TID_TICK_STATE = 1) ∧ (∀ a, s.tid.testAt = some a → a + s.tid.testDiv ≤ s.tide) ∧ (s.couch.test = none ∧ s.hcr.run = none)) ∧
    (∃ (s : State) (faults : List FrameFault) (st : Strip) (x y h : Int), (s.get Reg.TID_TICK_STATE = 3) ∧ (s.firing = true) ∧ (s.openStrip = some st) ∧ (s.get Reg.CSC_STATUS_SLAVE = 0) ∧ (s.seq.prompt = none) ∧ (s.tickDue st (s.tickNow + 1) = true) ∧ (s.crossingOf st (s.tickNow + 2) = some y ∧ s.crossingOf st (s.tickNow + 3) = some x) ∧ ((s.tid.committed.find? fun c => decide (c.1 = s.tickNow + 2)) = some (s.tickNow + 2, h, y) ∧ x - y ≤ 400000 * 64)) ∧
    (∃ (s : State) (faults : List FrameFault), (s.get Reg.TID_TICK_STATE = 0 ∨ s.get Reg.TID_TICK_STATE = 4)) ∧
    (∃ (s : State) (n : Fin 128) (st : Strip), (s.firing = true) ∧ (s.get Reg.HLK_ARB_CTRL_ZERO_LIMIT ≤ s.couch.zeroRun.getD n 0) ∧ (s.openStrip = some st) ∧ (s.seq.prompt = none)) :=
  ⟨⟨up [(Reg.TID_TICK_STATE, 1)], [], by decide +kernel⟩,
   ⟨runState, [], fixedStrip, (300003 - 0 + 2) * (64 * 200), (300002 - 0 + 2) * (64 * 200), 77, by decide +kernel⟩,
   ⟨up [], [], by decide +kernel⟩,
   ⟨{ openState 4 with couch := { (openState 4).couch with zeroRun := List.replicate 128 200000 } }, 9, anOpenStrip, by decide +kernel⟩⟩

theorem witness_couch_roles_and_tests_1 :
    (∃ (s : State) (n : Fin 2) (b : Nat), (2 ≤ s.get Reg.EXP_STATE_STATE) ∧ (s.couchRole n = 0) ∧ (s.couchWith 1 = some b)) ∧
    (∃ (s : State) (n : Fin 2), (2 ≤ s.get Reg.EXP_STATE_STATE) ∧ (s.couchRole n = 1)) ∧
    (∃ (s : State) (n : Fin 2), (2 ≤ s.get Reg.EXP_STATE_STATE) ∧ (s.couchRole n = 0) ∧ (s.couchWith 1 = none) ∧ (s.firing = true)) ∧
    (∃ (s : State) (n : Fin 2), (s.get Reg.EXP_STATE_STATE = 1) ∧ (s.couch.neapRoles.getD n 3 = 0 ∧ s.couch.neapRoles.getD (1 - n) 3 = 1) ∧ (s.couch.neapRoles.length = 2)) ∧
    (∃ (s : State) (w : SwapTest), (s.testToRun = some w) ∧ (w.restoring = []) ∧ (s.get Reg.EXP_STATE_STATE = 2) ∧ (s.get Reg.TID_PRF_STATUS_STATE = 0) ∧ (s.get Reg.TID_TICK_STATE = 0) ∧ (s.on Reg.HLK_STATUS_ALL_READY = true) ∧ (s.couch.test = none) ∧ (s.hcr.run = none ∧ s.hcr.cal = none) ∧ (s.lanes.loop = none)) ∧
    (∃ (s : State) (gaps : List (BitVec 16)) (w : SwapTest), (s.couch.test = some w) ∧ (w.switched = false) ∧ (w.lines ≤ w.line * 2)) ∧
    (∃ (s : State) (w : SwapTest), (s.couch.test = some w) ∧ (w.restoring = []) ∧ (w.failures = []) ∧ (w.lines ≤ w.line ∧ w.switched = true) ∧ ((s.link.lines.all fun l => decide (l.kind ≠ 1)) = true) ∧ (w.first < 2 ∧ w.second = 1 - w.first)) :=
  ⟨⟨(couches 0 1).put Reg.EXP_STATE_STATE 2, 0, 1, by decide +kernel⟩,
   ⟨(couches 0 1).put Reg.EXP_STATE_STATE 2, 1, by decide +kernel⟩,
   ⟨{ openState 4 with regs := ((couches 0 3).put Reg.EXP_STATE_STATE 4).regs }, 0, by decide +kernel⟩,
   ⟨{ at' [(Reg.EXP_STATE_STATE, 1)] with couch := { State.reset.couch with neapRoles := [0, 1] } }, 0, by decide +kernel⟩,
   ⟨(couches 0 1).puts [(Reg.EXP_STATE_STATE, 2), (Reg.HLK_STATUS_ALL_READY, 1), (Reg.CCH_SWAP_CTRL_REQUEST, 1)], { first := 0, second := 1, lines := State.reset.get Reg.CCH_SWAP_LINES_LINES }, by decide +kernel⟩,
   ⟨testState { first := 0, second := 1, lines := 100, line := 60 }, [5, 900], { first := 0, second := 1, lines := 100, line := 60 }, by decide +kernel⟩,
   ⟨testState { first := 0, second := 1, lines := 100, line := 100, switched := true }, { first := 0, second := 1, lines := 100, line := 100, switched := true }, by decide +kernel⟩⟩

theorem witness_couch_roles_and_tests_2 :
    (∃ (s : State) (w : SwapTest), (s.couch.test = some w) ∧ (w.restoring = []) ∧ (w.failures ≠ []) ∧ ((w.failures.all fun f => decide (f.1 = w.second)) = true) ∧ (w.first < 2 ∧ w.second = 1 - w.first) ∧ (s.couchRole w.second < 2)) ∧
    (∃ (s : State) (v : Word), (s.domainOn 1 = true)) ∧
    (∃ (s : State) (v : Word), (s.domainOn 1 = true) ∧ (s.get Reg.EXP_STATE_STATE = 2) ∧ (s.openStrip = none) ∧ (s.couch.hostOff = 0) ∧ (s.couchRole 0 = 0 ∧ s.couchRole 1 = 1) ∧ (v.getLsbD 0 = true ∧ v.getLsbD 1 = false)) ∧
    (∃ (s : State) (v : Word), (s.domainOn 1 = true) ∧ (3 ≤ s.get Reg.EXP_STATE_STATE ∨ s.openStrip.isSome = true)) ∧
    (∃ (s : State) (off : BitVec 25) (wide : Bool) (v : BitVec 64), (s.domainOn 1 = true) ∧ (off.toNat / 8 * 8 = 0x00600008 ∧ off.toNat % (if wide then 8 else 4) = 0) ∧ (s.box.strips = [])) ∧
    (∃ (s : State) (off : BitVec 25) (wide : Bool) (v : BitVec 64), (off.toNat / 8 * 8 = 0x00600008 ∧ off.toNat % (if wide then 8 else 4) = 0) ∧ (s.box.strips ≠ [])) :=
  ⟨⟨testState { first := 0, second := 1, lines := 100, line := 60, failures := [(1, 7, 1)] }, { first := 0, second := 1, lines := 100, line := 60, failures := [(1, 7, 1)] }, by decide +kernel⟩,
   ⟨up [], 0x80000010, by decide +kernel⟩,
   ⟨(couches 0 1).put Reg.EXP_STATE_STATE 2, 1, by decide +kernel⟩,
   ⟨(couches 0 1).put Reg.EXP_STATE_STATE 4, 1, by decide +kernel⟩,
   ⟨up [], 0x00600008, true, 0x1000000, by decide +kernel⟩,
   ⟨stripState, 0x00600008, true, 0x1000000, by decide +kernel⟩⟩

theorem witness_control_frames_are_sent_and_executed_1 :
    (∃ (s : State) (c : Instr) (op : Nat) (result : Option (Fin 5)) (a : Fin 1024) (o : CtrlOp) (rest : List CtrlOp), ((op, c) ∈ [(2, Instr.ident a result), (3, .setFactors a result), (4, .setCurve a result), (5, .timeLoad a result), (6, .timeRead a result), (8, .recordRead a result), (9, .arm a result)]) ∧ (o.opcode = op) ∧ ((s.driver a).waiting = o :: rest) ∧ ((s.driver a).sent = none) ∧ (2 ≤ s.chainState (a.val / 8) ∧ s.chainState (a.val / 8) ≤ 7) ∧ (s.couch.backlog = 0) ∧ (s.slotFree (a.val / 8) = true) ∧ (a.val < s.link.drivers.length)) ∧
    (∃ (s : State) (result : Option (Fin 5)) (a : Fin 1024) (o : CtrlOp) (rest : List CtrlOp), (o.opcode = 10) ∧ ((List.range (7 - a.val % 8)).all (fun (i : Nat) => (s.driver (a.val + 1 + i)).waiting.all fun o => decide (o.opcode ≠ 10)) = true) ∧ ((s.driver a).waiting = o :: rest) ∧ ((s.driver a).sent = none) ∧ (2 ≤ s.chainState (a.val / 8) ∧ s.chainState (a.val / 8) ≤ 7) ∧ (s.couch.backlog = 0) ∧ (s.slotFree (a.val / 8) = true) ∧ (a.val < s.link.drivers.length)) ∧
    (∃ (s : State) (result : Option (Fin 5)) (a : Fin 1024) (i : Nat), (i < 7 - a.val % 8) ∧ (((s.driver (a.val + 1 + i)).waiting.any fun o => decide (o.opcode = 10)) = true)) ∧
    (∃ (s : State) (result : Option (Fin 5)) (r : MeasRun) (a : Fin 1024) (o : CtrlOp) (rest : List CtrlOp), (o.opcode = 7) ∧ (s.hcr.run = some r) ∧ (r.startedAt = none) ∧ ((s.driver a).waiting = o :: rest) ∧ ((s.driver a).sent = none) ∧ (2 ≤ s.chainState (a.val / 8) ∧ s.chainState (a.val / 8) ≤ 7) ∧ (s.couch.backlog = 0) ∧ (s.slotFree (a.val / 8) = true) ∧ (a.val < s.link.drivers.length)) ∧
    (∃ (s : State) (a : Fin 1024) (o : CtrlOp) (rest : List CtrlOp), (o.opcode = 3) ∧ ((s.driver a).waiting = o :: rest) ∧ ((s.driver a).sent = none) ∧ (2 ≤ s.chainState (a.val / 8) ∧ s.chainState (a.val / 8) ≤ 7) ∧ (s.couch.backlog = 0) ∧ (s.slotFree (a.val / 8) = true) ∧ (a.val < s.link.drivers.length) ∧ ((s.driver a).positioned = true) ∧ ((s.driver a).lastCseq ≠ some o.cseq)) ∧
    (∃ (s : State) (a : Fin 1024) (o : CtrlOp) (rest : List CtrlOp), (o.opcode = 4) ∧ ((s.driver a).waiting = o :: rest) ∧ ((s.driver a).sent = none) ∧ (2 ≤ s.chainState (a.val / 8) ∧ s.chainState (a.val / 8) ≤ 7) ∧ (s.couch.backlog = 0) ∧ (s.slotFree (a.val / 8) = true) ∧ (a.val < s.link.drivers.length) ∧ ((s.driver a).positioned = true) ∧ ((s.driver a).lastCseq ≠ some o.cseq)) :=
  ⟨⟨(chainAt (44 / 8) 6).modDriver 44 fun _ => { positioned := true, waiting := [{ opcode := 2, cseq := 9, args := [] }] }, .ident 44 none, 2, none, 44, { opcode := 2, cseq := 9, args := [] }, [], by decide +kernel⟩,
   ⟨(chainAt (44 / 8) 6).modDriver 44 fun _ => { positioned := true, waiting := [{ opcode := 10, cseq := 9, args := [] }] }, some 2, 44, { opcode := 10, cseq := 9, args := [] }, [], by decide +kernel⟩,
   ⟨(chainAt (45 / 8) 6).modDriver 45 fun _ => { waiting := [{ opcode := 10, cseq := 9, args := [] }] }, some 0, 44, 0, by decide +kernel⟩,
   ⟨{ (chainAt (44 / 8) 6).modDriver 44 fun _ => { positioned := true, waiting := [{ opcode := 7, cseq := 9, args := [] }] } with hcr := { State.reset.hcr with run := some ⟨[], none, 0, false, none, true⟩ } }, none, ⟨[], none, 0, false, none, true⟩, 44, { opcode := 7, cseq := 9, args := [] }, [], by decide +kernel⟩,
   ⟨(chainAt (44 / 8) 6).modDriver 44 fun _ => { positioned := true, waiting := [{ opcode := 3, cseq := 9, args := List.replicate 64 0x55 }] }, 44, { opcode := 3, cseq := 9, args := List.replicate 64 0x55 }, [], by decide +kernel⟩,
   ⟨(chainAt (44 / 8) 6).modDriver 44 fun _ => { positioned := true, waiting := [{ opcode := 4, cseq := 9, args := List.replicate 36 0x55 }] }, 44, { opcode := 4, cseq := 9, args := List.replicate 36 0x55 }, [], by decide +kernel⟩⟩

theorem witness_control_frames_are_sent_and_executed_2 :
    (∃ (s : State) (a : Fin 1024) (o : CtrlOp) (rest : List CtrlOp), (o.opcode = 5) ∧ ((s.driver a).waiting = o :: rest) ∧ ((s.driver a).sent = none) ∧ (2 ≤ s.chainState (a.val / 8) ∧ s.chainState (a.val / 8) ≤ 7) ∧ (s.couch.backlog = 0) ∧ (s.slotFree (a.val / 8) = true) ∧ (a.val < s.link.drivers.length) ∧ ((s.driver a).positioned = true) ∧ ((s.driver a).lastCseq ≠ some o.cseq)) ∧
    (∃ (s : State) (a : Fin 1024) (o : CtrlOp) (rest : List CtrlOp), (o.opcode = 9) ∧ ((s.driver a).waiting = o :: rest) ∧ ((s.driver a).sent = none) ∧ (2 ≤ s.chainState (a.val / 8) ∧ s.chainState (a.val / 8) ≤ 7) ∧ (s.couch.backlog = 0) ∧ (s.slotFree (a.val / 8) = true) ∧ (a.val < s.link.drivers.length) ∧ ((s.driver a).positioned = true) ∧ ((s.driver a).lastCseq ≠ some o.cseq)) ∧
    (∃ (s : State) (a : Fin 1024) (o : CtrlOp) (rest : List CtrlOp), (o.opcode = 10) ∧ ((List.range (7 - a.val % 8)).all (fun (i : Nat) => (s.driver (a.val + 1 + i)).waiting.all fun o => decide (o.opcode ≠ 10)) = true) ∧ (tapsOk [sext 8 (fieldAt o.args 0 1), (fieldAt o.args 1 1 : Int), sext 8 (fieldAt o.args 2 1)] = true) ∧ ((s.driver a).waiting = o :: rest) ∧ ((s.driver a).sent = none) ∧ (2 ≤ s.chainState (a.val / 8) ∧ s.chainState (a.val / 8) ≤ 7) ∧ (s.couch.backlog = 0) ∧ (s.slotFree (a.val / 8) = true) ∧ (a.val < s.link.drivers.length) ∧ ((s.driver a).positioned = true) ∧ ((s.driver a).lastCseq ≠ some o.cseq)) ∧
    (∃ (s : State) (a : Fin 1024) (o : CtrlOp) (rest : List CtrlOp), (o.opcode = 10) ∧ ((List.range (7 - a.val % 8)).all (fun (i : Nat) => (s.driver (a.val + 1 + i)).waiting.all fun o => decide (o.opcode ≠ 10)) = true) ∧ (tapsOk [sext 8 (fieldAt o.args 0 1), (fieldAt o.args 1 1 : Int), sext 8 (fieldAt o.args 2 1)] = false) ∧ ((s.driver a).waiting = o :: rest) ∧ ((s.driver a).sent = none) ∧ (2 ≤ s.chainState (a.val / 8) ∧ s.chainState (a.val / 8) ≤ 7) ∧ (s.couch.backlog = 0) ∧ (s.slotFree (a.val / 8) = true) ∧ (a.val < s.link.drivers.length) ∧ ((s.driver a).positioned = true) ∧ ((s.driver a).lastCseq ≠ some o.cseq)) ∧
    (∃ (s : State) (n : Fin 128) (o : CtrlOp) (rest : List CtrlOp), ((s.driver (8 * n.val)).waiting = o :: rest) ∧ ((s.driver (8 * n.val)).sent = none) ∧ (o.opcode = 1) ∧ (2 ≤ s.chainState n ∧ s.chainState n ≤ 7) ∧ (s.couch.backlog = 0) ∧ (s.slotFree n = true) ∧ (s.link.drivers.length = 1024)) :=
  ⟨⟨(chainAt (44 / 8) 6).modDriver 44 fun _ => { positioned := true, waiting := [{ opcode := 5, cseq := 9, args := List.replicate 12 0x55 }] }, 44, { opcode := 5, cseq := 9, args := List.replicate 12 0x55 }, [], by decide +kernel⟩,
   ⟨(chainAt (44 / 8) 6).modDriver 44 fun _ => { positioned := true, waiting := [{ opcode := 9, cseq := 9, args := leBytes 1 1 }], dstate := 2 }, 44, { opcode := 9, cseq := 9, args := leBytes 1 1 }, [], by decide +kernel⟩,
   ⟨(chainAt (44 / 8) 6).modDriver 44 fun _ => { positioned := true, waiting := [{ opcode := 10, cseq := 9, args := leBytes 1 0 ++ leBytes 1 51 ++ leBytes 1 0xF4 }] }, 44, { opcode := 10, cseq := 9, args := leBytes 1 0 ++ leBytes 1 51 ++ leBytes 1 0xF4 }, [], by decide +kernel⟩,
   ⟨(chainAt (44 / 8) 6).modDriver 44 fun _ => { positioned := true, waiting := [{ opcode := 10, cseq := 9, args := leBytes 1 0 ++ leBytes 1 70 ++ leBytes 1 0xF4 }] }, 44, { opcode := 10, cseq := 9, args := leBytes 1 0 ++ leBytes 1 70 ++ leBytes 1 0xF4 }, [], by decide +kernel⟩,
   ⟨(chainAt (40 / 8) 3).modDriver 40 fun _ => { waiting := [{ opcode := 1, cseq := 9, args := [] }] }, 5, { opcode := 1, cseq := 9, args := [] }, [], by decide +kernel⟩⟩

theorem witness_chains_train_1 :
    (∃ (s : State) (n : Fin 128), (s.chainState n = 0 ∨ s.chainState n = 8) ∧ (s.canTrain n = true) ∧ (n.val < s.link.chains.length)) ∧
    (∃ (s : State) (n : Fin 128) (inverted : Bool) (seen : RxSeen), (s.chainState n = 1) ∧ (s.adapted (128 + n) seen = true) ∧ (s.link.drivers.length = 1024) ∧ (n.val < s.link.chains.length)) ∧
    (∃ (s : State) (n : Fin 128) (inverted : Bool) (seen : RxSeen), (s.chainState n = 1) ∧ (s.get (Reg.LNS_LANE_RX_EIDLE (128 + n)) = 1) ∧ ((seen.windows.filter s.qualifies).length < 41)) ∧
    (∃ (s : State) (n : Fin 128), (s.chainState n = 1 ∧ 4000000 ≤ s.tide - (s.chain n).enteredAt)) ∧
    (∃ (s : State) (n : Fin 128), (s.chainState n = 2 ∧ 20000000 ≤ s.tide - (s.chain n).enteredAt)) ∧
    (∃ (s : State) (n : Fin 128), (s.chainState n = 2) ∧ ((s.chain n).eqStep = 1) ∧ (n.val < s.link.chains.length)) :=
  ⟨⟨up [(Reg.LNS_STATUS_HEAD_LOCK, 1)], 127, by decide +kernel⟩,
   ⟨chainAt 3 1, 3, true, ⟨0, List.replicate 41 0xFFF, 5⟩, by decide +kernel⟩,
   ⟨chainAt 3 1, 3, true, ⟨0, List.replicate 40 0xFFF, 5⟩, by decide +kernel⟩,
   ⟨{ chainAt 3 1 with tide := 5000000 }, 3, by decide +kernel⟩,
   ⟨{ chainAt 3 2 with tide := 50000000 }, 3, by decide +kernel⟩,
   ⟨(chainAt 3 2).modChain 3 fun c => { c with eqStep := 1 }, 3, by decide +kernel⟩⟩

theorem witness_chains_train_2 :
    (∃ (s : State) (n : Fin 128) (seen : RxSeen), (s.chainState n = 2) ∧ ((s.chain n).eqStep = 2) ∧ (n.val < s.link.chains.length)) ∧
    (∃ (s : State) (n : Fin 128) (seen : RxSeen) (bursts : Word) (eyeH : BitVec 6) (eyeV : Byte), (s.chainState n = 2) ∧ ((s.chain n).eqStep = 3) ∧ (seen.errors.toNat = 0 ∧ s.get Reg.LNS_EQ_MIN_EYE_H ≤ eyeH.toNat ∧ s.get Reg.LNS_EQ_MIN_EYE_V ≤ eyeV.toNat) ∧ (s.link.drivers.length = 1024)) ∧
    (∃ (s : State) (n : Fin 128) (seen : RxSeen) (bursts : Word) (eyeH : BitVec 6) (eyeV : Byte), (s.chainState n = 2) ∧ ((s.chain n).eqStep = 3) ∧ (seen.errors.toNat ≠ 0) ∧ ((s.chain n).eqTry < 7) ∧ (n.val < s.link.chains.length)) ∧
    (∃ (s : State) (n : Fin 128) (seen : RxSeen) (bursts : Word) (eyeH : BitVec 6) (eyeV : Byte), (s.chainState n = 2) ∧ ((s.chain n).eqStep = 3) ∧ (seen.errors.toNat ≠ 0) ∧ ((s.chain n).eqTry = 7)) ∧
    (∃ (s : State) (n : Fin 128), (s.chainState n = 7) ∧ ((s.chain n).deferred ≠ []) ∧ ((s.chain n).again = false) ∧ (s.get Reg.EXP_STATE_STATE < 3) ∧ (n.val < s.link.chains.length)) ∧
    (∃ (s : State) (n : Fin 128) (rt : BitVec 16) (latches : List (BitVec 54)), (s.chainState n = 5 ∨ (s.chainState n = 7 ∧ (s.chain n).recheck = true)) ∧ ((s.chain n).rts.length < 7) ∧ (n.val < s.link.chains.length)) :=
  ⟨⟨(chainAt 3 2).modChain 3 fun c => { c with eqStep := 2 }, 3, ⟨3, [0xFFF, 0], 9⟩, by decide +kernel⟩,
   ⟨(chainAt 3 2).modChain 3 fun c => { c with eqStep := 3 }, 3, ⟨0, [], 0⟩, 5, 63, 255, by decide +kernel⟩,
   ⟨(chainAt 3 2).modChain 3 fun c => { c with eqStep := 3 }, 3, ⟨1, [], 0⟩, 5, 63, 255, by decide +kernel⟩,
   ⟨(chainAt 3 2).modChain 3 fun c => { c with eqStep := 3, eqTry := 7 }, 3, ⟨1, [], 0⟩, 5, 63, 255, by decide +kernel⟩,
   ⟨(chainAt 3 7).modChain 3 fun c => { c with deferred := [4] }, 3, by decide +kernel⟩,
   ⟨chainAt 3 5, 3, 5000, [], by decide +kernel⟩⟩

theorem witness_chains_train_3 :
    (∃ (s : State) (n : Fin 128) (rt : BitVec 16) (latches : List (BitVec 54)) (l : List Nat), (s.chainState n = 5) ∧ ((s.chain n).rts.length = 7) ∧ (l = (s.chain n).rts ++ [rt.toNat]) ∧ (l.foldl max 0 - l.foldl min (l.headD 0) ≤ 10) ∧ (n.val < s.link.chains.length) ∧ (s.link.drivers.length = 1024)) ∧
    (∃ (s : State) (n : Fin 128) (rt : BitVec 16) (latches : List (BitVec 54)) (l : List Nat), (s.chainState n = 5) ∧ ((s.chain n).rts.length = 7) ∧ (l = (s.chain n).rts ++ [rt.toNat]) ∧ (10 < l.foldl max 0 - l.foldl min (l.headD 0)) ∧ ((s.chain n).timeTries = 2) ∧ (n.val < s.link.chains.length)) ∧
    (∃ (s : State), (s.get Reg.EXP_STATE_STATE = 2) ∧ (s.get Reg.HLK_TIME_CTRL_RECHECK ≠ 0) ∧ (s.link.recheckAt + 400000000 * s.get Reg.HLK_TIME_CTRL_RECHECK ≤ s.tide) ∧ (s.link.chains.length = 128)) ∧
    (∃ (s : State) (v : Word), (s.domainOn 10 = true) ∧ (v.getLsbD 31 = true) ∧ (s.get Reg.EXP_STATE_STATE = 2) ∧ (s.link.chains.any (·.requested) = false) ∧ (s.link.chains.length = 128)) ∧
    (∃ (s : State) (v : Word), (s.domainOn 10 = true) ∧ (s.get Reg.EXP_STATE_STATE ≠ 2)) :=
  ⟨⟨(chainAt 3 5).modChain 3 fun c => { c with rts := [5000, 5001, 5002, 5003, 5004, 5005, 5006] }, 3, 5007, [], [5000, 5001, 5002, 5003, 5004, 5005, 5006, 5007], by decide +kernel⟩,
   ⟨(chainAt 3 5).modChain 3 fun c => { c with timeTries := 2, rts := [5000, 5001, 5002, 5003, 5004, 5005, 5006] }, 3, 6007, [], [5000, 5001, 5002, 5003, 5004, 5005, 5006, 6007], by decide +kernel⟩,
   ⟨{ (chainAt 3 7).puts [(Reg.EXP_STATE_STATE, 2), (Reg.HLK_TIME_CTRL_RECHECK, 1)] with tide := 400000000 }, by decide +kernel⟩,
   ⟨(chainAt 3 7).put Reg.EXP_STATE_STATE 2, 0x80000001, by decide +kernel⟩,
   ⟨(chainAt 3 7).put Reg.EXP_STATE_STATE 4, 1, by decide +kernel⟩⟩

theorem witness_link_service_1 :
    (∃ (s : State) (a : Fin 1024) (seen : RxSeen) (frame : List Symbol) (o : CtrlOp) (body : List Byte), ((s.driver a).sent = some o) ∧ (unwire frame = some body) ∧ ((s.driver a).answers a o body = true) ∧ (o.opcode = 1) ∧ (fieldAt (body.drop 4) 4 1 = 8) ∧ (a.val % 8 = 0) ∧ (s.link.drivers.length = 1024)) ∧
    (∃ (s : State) (a : Fin 1024) (seen : RxSeen) (frame : List Symbol) (o : CtrlOp) (body : List Byte), ((s.driver a).sent = some o) ∧ (unwire frame = some body) ∧ ((s.driver a).answers a o body = true) ∧ (o.opcode = 1) ∧ (fieldAt (body.drop 4) 4 1 ≠ 8)) ∧
    (∃ (s : State) (a : Fin 1024) (seen : RxSeen) (frame : List Symbol) (o : CtrlOp) (body : List Byte), ((s.driver a).sent = some o) ∧ (unwire frame = some body) ∧ ((s.driver a).answers a o body = true) ∧ (o.opcode = 3 ∨ o.opcode = 4 ∨ o.opcode = 9 ∨ o.opcode = 7) ∧ (fieldAt (body.drop 4) 2 1 = 0) ∧ ((s.driver a).waiting ≠ []) ∧ (a.val < s.link.drivers.length)) ∧
    (∃ (s : State) (a : Fin 1024) (seen : RxSeen) (frame : List Symbol) (o : CtrlOp), ((s.driver a).sent = some o) ∧ (unwire frame = none) ∧ (o.opcode ≠ 1) ∧ (o.opcode ≠ 10) ∧ (o.retries < 3) ∧ (a.val < s.link.drivers.length)) ∧
    (∃ (s : State) (a : Fin 1024) (seen : RxSeen) (frame : List Symbol) (o : CtrlOp) (body : List Byte), ((s.driver a).sent = some o) ∧ (unwire frame = some body) ∧ ((s.driver a).answers a o body = false)) ∧
    (∃ (s : State) (a : Fin 1024) (o : CtrlOp), ((s.driver a).sent = some o) ∧ (o.opcode ≠ 1) ∧ (o.opcode ≠ 10) ∧ (o.retries < 3) ∧ (a.val < s.link.drivers.length)) ∧
    (∃ (s : State) (a : Fin 1024) (o : CtrlOp), ((s.driver a).sent = some o) ∧ (o.opcode ≠ 1) ∧ (o.opcode ≠ 10) ∧ (3 ≤ o.retries) ∧ (3 ≤ s.chainState (a.val / 8) ∧ s.chainState (a.val / 8) ≤ 6)) :=
  ⟨⟨(chainAt (40 / 8) 3).modDriver 40 fun _ => { sent := some { opcode := 1, cseq := 9, args := [] } }, 40, ⟨0, [], 0⟩, wire (headFrame 3 0 0 0 (leBytes 1 1 ++ leBytes 1 9 ++ leBytes 2 0 ++ leBytes 1 8)), { opcode := 1, cseq := 9, args := [] }, headFrame 3 0 0 0 (leBytes 1 1 ++ leBytes 1 9 ++ leBytes 2 0 ++ leBytes 1 8), by decide +kernel⟩,
   ⟨(chainAt (40 / 8) 3).modDriver 40 fun _ => { sent := some { opcode := 1, cseq := 9, args := [] } }, 40, ⟨0, [], 0⟩, wire (headFrame 3 0 0 0 (leBytes 1 1 ++ leBytes 1 9 ++ leBytes 2 0 ++ leBytes 1 7)), { opcode := 1, cseq := 9, args := [] }, headFrame 3 0 0 0 (leBytes 1 1 ++ leBytes 1 9 ++ leBytes 2 0 ++ leBytes 1 7), by decide +kernel⟩,
   ⟨(chainAt (40 / 8) 6).modDriver 40 fun _ => { sent := some { opcode := 3, cseq := 9, args := [] }, waiting := [{ opcode := 4, cseq := 9, args := [] }], answer := some 0 }, 40, ⟨0, [], 0⟩, wire (headFrame 6 0 0 0 (leBytes 1 3 ++ leBytes 1 9 ++ leBytes 2 0)), { opcode := 3, cseq := 9, args := [] }, headFrame 6 0 0 0 (leBytes 1 3 ++ leBytes 1 9 ++ leBytes 2 0), by decide +kernel⟩,
   ⟨(chainAt (40 / 8) 6).modDriver 40 fun _ => { sent := some { opcode := 3, cseq := 9, args := [] } }, 40, ⟨0, [], 0⟩, [], { opcode := 3, cseq := 9, args := [] }, by decide +kernel⟩,
   ⟨(chainAt (40 / 8) 6).modDriver 40 fun _ => { sent := some { opcode := 3, cseq := 9, args := [] }, answer := some 0 }, 40, ⟨0, [], 0⟩, wire (headFrame 6 1 0 0 (leBytes 1 3 ++ leBytes 1 9 ++ leBytes 2 0)), { opcode := 3, cseq := 9, args := [] }, headFrame 6 1 0 0 (leBytes 1 3 ++ leBytes 1 9 ++ leBytes 2 0), by decide +kernel⟩,
   ⟨(chainAt (40 / 8) 6).modDriver 40 fun _ => { sent := some { opcode := 3, cseq := 9, args := [] } }, 40, { opcode := 3, cseq := 9, args := [] }, by decide +kernel⟩,
   ⟨(chainAt (40 / 8) 5).modDriver 40 fun _ => { sent := some { opcode := 5, cseq := 9, args := [], retries := 3 } }, 40, { opcode := 5, cseq := 9, args := [], retries := 3 }, by decide +kernel⟩⟩

theorem witness_link_service_2 :
    (∃ (s : State) (n : Fin 128), (s.chainState n = 7) ∧ (s.get Reg.TID_TICK_STATE ≠ 1 ∧ s.get Reg.TID_TICK_STATE ≠ 3) ∧ ((s.chain n).polledAt + 400 * s.get Reg.HLK_CTRL_POLL_US ≤ s.tide) ∧ (n.val < s.link.chains.length)) ∧
    (∃ (s : State) (n : Fin 128) (restarted : List (Fin 8)), (s.chainState n = 7) ∧ (s.get Reg.HLK_CTRL_LOSS_LINES ≤ (s.chain n).silent)) ∧
    (∃ (s : State) (a : Fin 1024) (seen : RxSeen) (frame : List Symbol) (body pay : List Byte) (i : Nat) (v : Int), (s.chainState (a.val / 8) = 7) ∧ (unwire frame = some body ∧ pay = body.drop 4) ∧ (frameType body = 4 ∧ framePos body = a.val % 8) ∧ (fieldAt pay 5 1 = 0 ∧ fieldAt pay 13 1 = 0) ∧ (hottest pay = some (i, v)) ∧ (a.val / 8 < s.link.chains.length ∧ a.val < s.link.drivers.length)) ∧
    (∃ (s : State) (a : Fin 1024) (seen : RxSeen) (frame : List Symbol) (body pay : List Byte) (l : OpenLine), (s.chainState (a.val / 8) = 7) ∧ (unwire frame = some body ∧ pay = body.drop 4) ∧ (frameType body = 4 ∧ framePos body = a.val % 8) ∧ (fieldAt pay 13 1 = 0) ∧ (fieldAt pay 5 1 = 1 ∧ fieldAt pay 6 2 = (s.driver a).rseq ∧ fieldAt pay 8 4 = l.crc) ∧ ((s.driver a).oldRseq = none) ∧ ((s.link.lines.find? fun l => decide (l.driver = a.val ∧ l.tick % 4 = fieldAt pay 4 1)) = some l) ∧ (l.kind = 0 ∧ l.repair = false) ∧ (hottest pay = none) ∧ (a.val < s.link.drivers.length)) ∧
    (∃ (s : State) (a : Fin 1024) (seen : RxSeen) (frame : List Symbol), (s.chainState (a.val / 8) = 7) ∧ (unwire frame = none)) ∧
    (∃ (s : State) (a : Fin 1024), (s.chainState (a.val / 8) = 7) ∧ ((s.driver a).statusAt + 400000 ≤ s.tide) ∧ (a.val < s.link.drivers.length)) ∧
    (∃ (s : State) (a : Fin 1024) (l : OpenLine), (s.chainState (a.val / 8) = 7) ∧ ((s.driver a).owes 8 = false) ∧ (l ∈ s.link.lines) ∧ (l.driver = a.val) ∧ (s.lineDue l = true) ∧ (a.val < s.link.drivers.length)) :=
  ⟨⟨{ chainAt 3 7 with tide := 40000000 }, 3, by decide +kernel⟩,
   ⟨(chainAt 3 7).modChain 3 fun c => { c with silent := 100000 }, 3, [5], by decide +kernel⟩,
   ⟨(chainAt 5 7), 44, ⟨0, [], 0⟩, wire (headFrame 4 4 0 0 (List.replicate 24 0 ++ leBytes 2 500 ++ leBytes 2 0x8000 ++ leBytes 2 0x8000 ++ leBytes 2 0x8000)), headFrame 4 4 0 0 (List.replicate 24 0 ++ leBytes 2 500 ++ leBytes 2 0x8000 ++ leBytes 2 0x8000 ++ leBytes 2 0x8000), (headFrame 4 4 0 0 (List.replicate 24 0 ++ leBytes 2 500 ++ leBytes 2 0x8000 ++ leBytes 2 0x8000 ++ leBytes 2 0x8000)).drop 4, 0, 500, by decide +kernel⟩,
   ⟨{ chainAt 5 7 with link := { (chainAt 5 7).link with lines := [aLine] } }, 44, ⟨0, [], 0⟩, wire (headFrame 4 4 0 0 (List.replicate 4 0 ++ leBytes 1 1 ++ leBytes 1 1 ++ leBytes 2 0 ++ leBytes 4 77 ++ List.replicate 12 0 ++ leBytes 2 0x8000 ++ leBytes 2 0x8000 ++ leBytes 2 0x8000 ++ leBytes 2 0x8000)), headFrame 4 4 0 0 (List.replicate 4 0 ++ leBytes 1 1 ++ leBytes 1 1 ++ leBytes 2 0 ++ leBytes 4 77 ++ List.replicate 12 0 ++ leBytes 2 0x8000 ++ leBytes 2 0x8000 ++ leBytes 2 0x8000 ++ leBytes 2 0x8000), (headFrame 4 4 0 0 (List.replicate 4 0 ++ leBytes 1 1 ++ leBytes 1 1 ++ leBytes 2 0 ++ leBytes 4 77 ++ List.replicate 12 0 ++ leBytes 2 0x8000 ++ leBytes 2 0x8000 ++ leBytes 2 0x8000 ++ leBytes 2 0x8000)).drop 4, aLine, by decide +kernel⟩,
   ⟨(chainAt 5 7), 44, ⟨0, [], 0⟩, [], by decide +kernel⟩,
   ⟨{ chainAt 5 7 with tide := 400000 }, 44, by decide +kernel⟩,
   ⟨{ chainAt 5 7 with link := { (chainAt 5 7).link with lines := [aLine], lastTick := 90 } }, 44, aLine, by decide +kernel⟩⟩

theorem witness_serial_lanes_1 :
    (∃ (s : State) (l : Fin 268) (idle : Bool) (seen : RxSeen) (restarted : List (Fin 8)), (128 ≤ l.val ∧ l.val < 256) ∧ (s.get (Reg.LNS_LANE_RX_ALIGNED l) = 1) ∧ (idle = true ∨ 8 ≤ seen.errors.toNat) ∧ (2 ≤ s.chainState (l - 128) ∧ s.chainState (l - 128) ≠ 8)) ∧
    (∃ (s : State) (l : Fin 268) (idle : Bool) (seen : RxSeen) (restarted : List (Fin 8)), (262 ≤ l.val) ∧ (s.get (Reg.LNS_LANE_RX_ALIGNED l) = 1) ∧ (idle = true ∨ 8 ≤ seen.errors.toNat)) ∧
    (∃ (s : State) (l : Fin 268) (idle : Bool) (seen : RxSeen) (restarted : List (Fin 8)), (receiveLane l = false ∨ s.get (Reg.LNS_LANE_RX_ALIGNED l) = 0)) ∧
    (∃ (s : State) (l : Fin 268) (under : Bool), (128 ≤ l.val ∧ l.val < 256) ∧ (s.get (Reg.LNS_LANE_RX_ALIGNED l) = 1) ∧ (2 ≤ s.chainState (l - 128) ∧ s.chainState (l - 128) ≠ 8)) ∧
    (∃ (s : State) (l : Fin 268) (under : Bool), (receiveLane l = false ∨ s.get (Reg.LNS_LANE_RX_ALIGNED l) = 0)) ∧
    (∃ (s : State) (pll : Fin 2), (pll.val = 0) ∧ (s.get Reg.LNS_STATUS_HEAD_LOCK = 1) ∧ (s.link.chains.length = 128)) :=
  ⟨⟨chainAt 5 7 |>.put (Reg.LNS_LANE_RX_ALIGNED 133) 1, 133, false, ⟨9, [], 0⟩, [3], by decide +kernel⟩,
   ⟨up [(Reg.CSC_PORT_STATE 1, 6), (Reg.CSC_PORT_LANES 1, 3), (Reg.LNS_LANE_RX_ALIGNED 264, 1), (Reg.LNS_LANE_RX_ALIGNED 265, 1)], 265, true, ⟨0, [], 0⟩, [], by decide +kernel⟩,
   ⟨chainAt 5 7, 5, true, ⟨0, [], 0⟩, [], by decide +kernel⟩,
   ⟨chainAt 5 7 |>.put (Reg.LNS_LANE_RX_ALIGNED 133) 1, 133, true, by decide +kernel⟩,
   ⟨up [], 5, true, by decide +kernel⟩,
   ⟨chainAt 5 7 |>.put Reg.LNS_STATUS_HEAD_LOCK 1, 0, by decide +kernel⟩⟩

theorem witness_serial_lanes_2 :
    (∃ (s : State) (pll : Fin 2), (pll.val = 1) ∧ (s.get Reg.LNS_STATUS_TIDE_LOCK = 1)) ∧
    (∃ (s : State) (pll : Fin 2), (pll.val = 0) ∧ (s.domainOn 15 = true) ∧ (s.get Reg.LNS_STATUS_HEAD_LOCK = 0)) ∧
    (∃ (s : State) (pll : Fin 2), (pll.val = 1) ∧ (s.domainOn 15 = true)) ∧
    (∃ (s : State) (l : Fin 268) (seen : RxSeen), (s.laneInUse l = true) ∧ (s.lanes.qualAt.getD l 0 + 400 * s.get Reg.LNS_ADAPT_TUNE_US ≤ s.tide) ∧ (s.burstFits = true)) ∧
    (∃ (s : State) (l : Fin 268) (seen : RxSeen), (s.laneInUse l = false ∨ s.tide < s.lanes.qualAt.getD l 0 + 400 * s.get Reg.LNS_ADAPT_TUNE_US ∨ s.burstFits = false)) ∧
    (∃ (s : State) (v : Word), (v.getLsbD 31 = true) ∧ (s.domainOn 15 = true) ∧ (v.toNat / 65536 % 512 < 128) ∧ (s.loopAllowed (v.toNat / 65536 % 512) (v.toNat % 8) = true)) :=
  ⟨⟨up [(Reg.LNS_STATUS_TIDE_LOCK, 1), (Reg.CSC_PORT_STATE 1, 6)], 1, by decide +kernel⟩,
   ⟨up [], 0, by decide +kernel⟩,
   ⟨up [], 1, by decide +kernel⟩,
   ⟨{ chainAt 5 7 with tide := 400000 }, 5, ⟨0, [0xFFF], 3⟩, by decide +kernel⟩,
   ⟨chainAt 5 7, 6, ⟨0, [0xFFF], 3⟩, by decide +kernel⟩,
   ⟨up [], 0x80050001, by decide +kernel⟩⟩

theorem witness_serial_lanes_3 :
    (∃ (s : State) (v : Word), (v.getLsbD 31 = true) ∧ (s.domainOn 15 = true) ∧ (s.box.strips ≠ []) ∧ (s.lanes.loop = none)) ∧
    (∃ (s : State) (locked : Bool) (errors : BitVec 48) (lane mode : Nat), (s.lanes.loop = some (lane, mode))) ∧
    (∃ (s : State) (c : Instr) (v : Word), (c = .lnsSscWrite v ∨ c = .lnsOutEnWrite v) ∧ (s.domainOn 15 = true)) ∧
    (∃ (s : State) (l : Fin 268) (v : Word), (s.domainOn (domainOf (0x00901000 + 16 * l.val)) = true) ∧ (l.val < 256 ∧ natMem (s.chainState (l.val % 128)) [0, 8] = false)) ∧
    (∃ (s : State) (l : Fin 268) (v : Word), (s.domainOn (domainOf (0x00901000 + 16 * l.val)) = true) ∧ (256 ≤ l.val ∨ natMem (s.chainState (l.val % 128)) [0, 8] = true)) ∧
    (∃ (s : State) (l : Fin 268) (chain tap : Nat), ((s.lanes.strobes.find? fun x => decide (x.1 = l.val)) = some (l.val, chain, tap)) ∧ (s.laneMeasured l = false) ∧ (chain < 4 ∧ tap < 64)) :=
  ⟨⟨stripState, 0x80050001, by decide +kernel⟩,
   ⟨{ up [] with lanes := { loop := some (5, 1) } }, true, 0xFFFFFFFFFFFF, 5, 1, by decide +kernel⟩,
   ⟨chainAt 5 7, .lnsOutEnWrite 0x603, 0x603, by decide +kernel⟩,
   ⟨chainAt 5 7, 133, 0xFFFFFFFF, by decide +kernel⟩,
   ⟨up [], 267, 0xFFFFFFFF, by decide +kernel⟩,
   ⟨{ up [] with lanes := { strobes := [(5, 2, 33)] } }, 5, 2, 33, by decide +kernel⟩⟩

theorem witness_position_inputs_1 :
    (∃ (s : State) (port : Fin 2), (s.sourceUsed port = true) ∧ (∀ e, s.tid.lastEdge.getD port none = some e → e + rfGet s.tideSetup Reg.TID_POS_CFG_PERIOD ≤ s.tide)) ∧
    (∃ (s : State) (port : Fin 2) (e : Nat) (frame : List Byte), (s.edgeOf port = some e) ∧ (frameMiss frame (decide (s.frameLimit e < s.tide)) = 0) ∧ (s.source = port.val)) ∧
    (∃ (s : State) (port : Fin 2) (e : Nat) (frame : List Byte), (s.edgeOf port = some e) ∧ (frameMiss frame (decide (s.frameLimit e < s.tide)) ≠ 0) ∧ (s.source = port.val)) ∧
    (∃ (s : State) (port : Fin 2) (e : Nat) (frame : List Byte), (s.edgeOf port = some e) ∧ (s.source ≠ port.val) ∧ (s.monitorSource ≠ some port.val)) ∧
    (∃ (s : State) (port : Fin 2) (e : Nat), (s.edgeOf port = some e) ∧ (s.frameLimit e < s.tide) ∧ (s.source = port.val)) :=
  ⟨⟨up [], 0, by decide +kernel⟩,
   ⟨edgeState, 0, 100, posFrame 123456, by decide +kernel⟩,
   ⟨edgeState, 0, 100, (posFrame 123456).set 3 0xFF, by decide +kernel⟩,
   ⟨{ edgeState with tid := { edgeState.tid with edges := [[], [5]] } }, 1, 5, posFrame 123456, by decide +kernel⟩,
   ⟨{ edgeState with tide := 100000 }, 0, 100, by decide +kernel⟩⟩

theorem witness_position_inputs_2 :
    (∃ (s : State) (q : Fin 2) (a b : Bool) (x : Quad) (d : Int), (x = s.tid.quads.getD q {}) ∧ (quadStep x.a x.b a b = some d) ∧ (d ≠ 0) ∧ (s.source = 2 + q.val)) ∧
    (∃ (s : State) (q : Fin 2) (a b : Bool) (x : Quad), (x = s.tid.quads.getD q {}) ∧ (quadStep x.a x.b a b = none) ∧ (s.source = 2 + q.val)) ∧
    (∃ (s : State) (q : Fin 2), (s.get Reg.TID_QREF_ARM = 1) ∧ (s.source = 2 + q.val) ∧ (q.val < s.tid.quads.length)) ∧
    (∃ (s : State) (v : BitVec 64), (s.domainOn 15 = true)) ∧
    (∃ (s : State) (h : Fin 2) (v : BitVec 64), (s.domainOn 15 = true)) :=
  ⟨⟨up [(Reg.TID_POS_CFG_SRC, 2)], 0, true, false, {}, 1, by decide +kernel⟩,
   ⟨up [(Reg.TID_POS_CFG_SRC, 2)], 0, true, true, {}, by decide +kernel⟩,
   ⟨up [(Reg.TID_POS_CFG_SRC, 3), (Reg.TID_QREF_ARM, 1), (Reg.TID_QREF_LOAD, 77)], 1, by decide +kernel⟩,
   ⟨up [], 0x80000000000000FF, by decide +kernel⟩,
   ⟨up [], 1, 0x800000FF, by decide +kernel⟩⟩

theorem witness_stage_profile_1 :
    (∃ (s : State) (pos vel acc slow : BitVec 64), (s.stepDue = false)) ∧
    (∃ (s : State) (pos vel acc slow : BitVec 64), (s.stepDue = true) ∧ (s.get Reg.TID_PRF_STATUS_STATE = 0)) ∧
    (∃ (s : State) (pos vel acc slow : BitVec 64), (s.stepDue = true) ∧ (s.get Reg.TID_PRF_STATUS_STATE = 1 ∨ s.get Reg.TID_PRF_STATUS_STATE = 2) ∧ (s.motionOver = false) ∧ (s.stepAllowed pos.toInt vel.toInt acc.toInt = true)) ∧
    (∃ (s : State) (pos vel acc slow : BitVec 64), (s.stepDue = true) ∧ (s.get Reg.TID_PRF_STATUS_STATE = 1 ∨ s.get Reg.TID_PRF_STATUS_STATE = 2) ∧ (s.motionOver = true) ∧ (s.tid.reverse = none) ∧ (s.tid.heldJobs = []) ∧ (s.pwr.protective = false) ∧ (s.get Reg.EXP_STATE_STATE ≠ 3)) ∧
    (∃ (s : State) (pos vel acc slow : BitVec 64) (e : Nat × Int × Int) (r : List (Nat × Int × Int)) (p v : Int) (b : Nat), (s.stepDue = true) ∧ (s.get Reg.TID_PRF_STATUS_STATE = 3) ∧ (s.get Reg.EXP_STATE_STATE ≠ 3) ∧ (tableAdvance s.tide s.tid.table s.tid.segPos s.tid.segVel s.tid.segStart = (e :: r, p, v, b))) ∧
    (∃ (s : State) (pos vel acc slow : BitVec 64) (p v : Int) (b : Nat), (s.stepDue = true) ∧ (s.get Reg.TID_PRF_STATUS_STATE = 3) ∧ (s.get Reg.EXP_STATE_STATE ≠ 3) ∧ (tableAdvance s.tide s.tid.table s.tid.segPos s.tid.segVel s.tid.segStart = ([], p, v, b)) ∧ (s.tid.reverse = none) ∧ (s.tid.heldJobs = []) ∧ (s.pwr.protective = false)) ∧
    (∃ (s : State) (st : Strip), (s.openStrip = some st) ∧ (s.get Reg.EXP_STATE_STATE = 3) ∧ (s.get Reg.TID_PRF_STATUS_STATE = 0) ∧ (s.get Reg.TID_TICK_STATE = 0) ∧ (s.get Reg.CSC_STATUS_SLAVE = 0) ∧ (st.slot < s.store.ledger.length)) :=
  ⟨⟨{ movingState with tid := { movingState.tid with stepAt := some 0 }, tide := 399 }, 5, 5, 5, 0, by decide +kernel⟩,
   ⟨up [], 5, 5, 5, 0, by decide +kernel⟩,
   ⟨movingState, 1, 1, 1, 0xFFFFFFFFFFFFFFFF, by decide +kernel⟩,
   ⟨{ movingState with tid := { movingState.tid with target := some 0 } }, 0, 0, 0, 0xFFFFFFFFFFFFFFFF, by decide +kernel⟩,
   ⟨{ movingState.put Reg.TID_PRF_STATUS_STATE 3 with tide := 600, tid := { movingState.tid with table := [(400, 0, 65536), (800, 0, 65536)] } }, 0, 0, 0, 0, (800, 0, 65536), [], 65536, 0, 400, by decide +kernel⟩,
   ⟨{ movingState.put Reg.TID_PRF_STATUS_STATE 3 with tide := 600, tid := { movingState.tid with table := [(400, 0, 65536)] } }, 0, 0, 0, 0, 65536, 0, 400, by decide +kernel⟩,
   ⟨openState 3, anOpenStrip, by decide +kernel⟩⟩

theorem witness_stage_profile_2 :
    (∃ (s : State) (x : Int × Int × Int), (s.get Reg.TID_SP_CFG_EN = 1) ∧ (∀ b, s.tid.spAt = some b → b + s.get Reg.TID_SP_CFG_PERIOD ≤ s.tide) ∧ (s.get Reg.TID_PRF_STATUS_STATE = 0) ∧ (x = (s.tid.pos, 0, 0))) ∧
    (∃ (s : State) (x : Int × Int × Int), (s.get Reg.TID_SP_CFG_EN = 1) ∧ (∀ b, s.tid.spAt = some b → b + s.get Reg.TID_SP_CFG_PERIOD ≤ s.tide) ∧ (s.get Reg.TID_PRF_STATUS_STATE = 3) ∧ (x = tableAt s.tid.table s.tid.segPos s.tid.segVel s.tid.segStart (s.tide + s.get Reg.TID_SP_CFG_AHEAD))) ∧
    (∃ (s : State) (x : Int × Int × Int) (q : SetPoint), (s.get Reg.TID_SP_CFG_EN = 1) ∧ (∀ b, s.tid.spAt = some b → b + s.get Reg.TID_SP_CFG_PERIOD ≤ s.tide) ∧ (s.get Reg.TID_PRF_STATUS_STATE = 1 ∨ s.get Reg.TID_PRF_STATUS_STATE = 2) ∧ (s.tid.setpoints.head? = some q ∧ s.tide + s.get Reg.TID_SP_CFG_AHEAD ≤ q.at') ∧ (x = s.setPointAt (s.tide + s.get Reg.TID_SP_CFG_AHEAD))) ∧
    (∃ (s : State), (s.get Reg.TID_SP_CFG_EN = 1) ∧ (∀ b, s.tid.spAt = some b → b + s.get Reg.TID_SP_CFG_PERIOD ≤ s.tide)) ∧
    (∃ (s : State), (s.get Reg.TID_SP_CFG_EN = 0)) ∧
    (∃ (s : State) (off : BitVec 25) (wide : Bool) (v : BitVec 64) (f : Field), (s.domainOn 15 = true) ∧ (alignedAccess off.toNat wide = true) ∧ (off.toNat / 8 * 8 = 0x00A00050 ∨ off.toNat / 8 * 8 = 0x00A00058) ∧ (f = ⟨off.toNat / 8 * 8, 0, 48⟩) ∧ (s.tid.acc = 0)) ∧
    (∃ (s : State) (off : BitVec 25) (wide : Bool) (v : BitVec 64), (s.domainOn 15 = true) ∧ (alignedAccess off.toNat wide = true) ∧ (off.toNat / 8 * 8 = 0x00A00048)) :=
  ⟨⟨up [(Reg.TID_SP_CFG_EN, 1), (Reg.TID_SP_CFG_AHEAD, 900)], (0, 0, 0), by decide +kernel⟩,
   ⟨{ movingState.puts [(Reg.TID_SP_CFG_EN, 1), (Reg.TID_PRF_STATUS_STATE, 3)] with tide := 200, tid := { movingState.tid with table := [(400, 0, 65536)] } }, (32768, 98304, 0), by decide +kernel⟩,
   ⟨{ movingState.put Reg.TID_SP_CFG_EN 1 with tide := 100, tid := { movingState.tid with setpoints := [⟨400, 65536, 0, 0⟩, ⟨0, 0, 0, 0⟩] } }, (segmentFrom 0 0 400 0 65536).at 100, ⟨400, 65536, 0, 0⟩, by decide +kernel⟩,
   ⟨movingState.puts [(Reg.TID_SP_CFG_EN, 1), (Reg.TID_SP_CFG_AHEAD, 900)], by decide +kernel⟩,
   ⟨movingState, by decide +kernel⟩,
   ⟨movingState, 0x00A00058, true, 0x123456789, ⟨0x00A00058, 0, 48⟩, by decide +kernel⟩,
   ⟨movingState, 0x00A00048, true, 0x123456789, by decide +kernel⟩⟩

theorem witness_stage_profile_3 :
    (∃ (s : State) (off : BitVec 25) (wide : Bool) (v : BitVec 64) (f : Field) (u : State), (s.domainOn 15 = true) ∧ (alignedAccess off.toNat wide = true) ∧ (off.toNat / 8 * 8 = 0x00A00050 ∨ off.toNat / 8 * 8 = 0x00A00058) ∧ (f = ⟨off.toNat / 8 * 8, 0, 48⟩) ∧ (u = s.writeAny off.toNat wide v) ∧ (s.tid.acc ≠ 0) ∧ (u.get f ≠ s.get f) ∧ (s.stageLimits.stop s.tid.vel s.tid.acc < u.stageLimits.stop s.tid.vel s.tid.acc)) ∧
    (∃ (s : State) (off : BitVec 25) (wide : Bool) (v : BitVec 64) (f : Field) (u : State), (s.domainOn 15 = true) ∧ (alignedAccess off.toNat wide = true) ∧ (off.toNat / 8 * 8 = 0x00A00050 ∨ off.toNat / 8 * 8 = 0x00A00058) ∧ (f = ⟨off.toNat / 8 * 8, 0, 48⟩) ∧ (u = s.writeAny off.toNat wide v) ∧ (s.tid.acc ≠ 0) ∧ (u.get f ≠ 0) ∧ (u.stageLimits.stop s.tid.vel s.tid.acc ≤ s.stageLimits.stop s.tid.vel s.tid.acc)) ∧
    (∃ (s : State) (v : Word), (s.domainOn 15 = true)) ∧
    (∃ (s : State) (off : BitVec 25) (wide : Bool) (v : BitVec 64), (s.domainOn 15 = true) ∧ (alignedAccess off.toNat wide = true) ∧ (tideProtected off.toNat = true ∨ (wide = true ∧ tideProtected (off.toNat + 4) = true)) ∧ (s.get Reg.TID_TICK_STATE < 2 ∧ s.get Reg.TID_PRF_STATUS_STATE = 0) ∧ ((s.writeAny off.toNat wide v).source = s.source) ∧ ((s.writeAny off.toNat false v).source = s.source)) ∧
    (∃ (s : State) (off : BitVec 25) (wide : Bool) (v : BitVec 64), (s.domainOn 15 = true) ∧ (alignedAccess off.toNat wide = true) ∧ (wide = false) ∧ (tideProtected off.toNat = true) ∧ (s.get Reg.TID_TICK_STATE < 2 ∧ s.get Reg.TID_PRF_STATUS_STATE = 0) ∧ ((s.writeAny off.toNat wide v).source ≠ s.source)) ∧
    (∃ (s : State) (off : BitVec 25) (wide : Bool) (v : BitVec 64), (alignedAccess off.toNat wide = true) ∧ (tideProtected off.toNat = true) ∧ (wide = true → off.toNat < 0x00A00060 → tideProtected (off.toNat + 4) = true) ∧ (2 ≤ s.get Reg.TID_TICK_STATE ∨ s.get Reg.TID_PRF_STATUS_STATE ≠ 0)) ∧
    (∃ (s : State) (d : Desc), (s.takes d 0x18 (descReserved d 21 43) = true) ∧ (s.get Reg.EXP_STATE_STATE = 2) ∧ (s.get Reg.TID_PRF_STATUS_STATE < 2) ∧ (s.tid.heldJobs = []) ∧ (s.targetOk (sext 40 (d.field 16 5)) = true) ∧ (s.targetBehind (sext 40 (d.field 16 5)) = false)) :=
  ⟨⟨rampState, 0x00A00050, true, 1000000, ⟨0x00A00050, 0, 48⟩, rampState.writeAny 0x00A00050 true 1000000, by decide +kernel⟩,
   ⟨rampState, 0x00A00050, true, 100000000000, ⟨0x00A00050, 0, 48⟩, rampState.writeAny 0x00A00050 true 100000000000, by decide +kernel⟩,
   ⟨up [], 1500000, by decide +kernel⟩,
   ⟨up [], 0x00A00038, true, 0x1234000001F4, by decide +kernel⟩,
   ⟨up [], 0x00A00000, false, 1, by decide +kernel⟩,
   ⟨movingState, 0x00A00008, true, 77, by decide +kernel⟩,
   ⟨stageState, ⟨5, leBytes 8 0x18 ++ leBytes 8 0 ++ leBytes 5 100 ++ leBytes 43 0⟩, by decide +kernel⟩⟩

theorem witness_stage_profile_4 :
    (∃ (s : State) (d : Desc), (s.takes d 0x18 (descReserved d 21 43) = true) ∧ (s.get Reg.EXP_STATE_STATE ≠ 2) ∧ (natMem (s.get Reg.EXP_STATE_STATE) [3, 4, 5, 7] = false ∨ s.targetBehind (sext 40 (d.field 16 5)) = false)) ∧
    (∃ (s : State) (d : Desc), (s.takes d 0x18 (descReserved d 21 43) = true) ∧ (natMem (s.get Reg.EXP_STATE_STATE) [3, 4, 5, 7] = true ∨ (s.get Reg.EXP_STATE_STATE = 2 ∧ s.get Reg.TID_PRF_STATUS_STATE < 2 ∧ s.tid.heldJobs = [])) ∧ (s.targetOk (sext 40 (d.field 16 5)) = true) ∧ (s.targetBehind (sext 40 (d.field 16 5)) = true)) ∧
    (∃ (s : State) (d : Desc), (s.takes d 0x18 (descReserved d 21 43) = true) ∧ (s.get Reg.EXP_STATE_STATE = 2) ∧ (s.get Reg.TID_PRF_STATUS_STATE < 2) ∧ (s.tid.heldJobs = []) ∧ (s.targetOk (sext 40 (d.field 16 5)) = false) ∧ (d.field 8 8 < 2 ^ 64 - 64)) ∧
    (∃ (s : State) (d : Desc) (l : List (Nat × Int × Int)), (s.takes d 0x19 ([(24, decide (1 ≤ d.field 24 4 ∧ d.field 24 4 ≤ 65536)), (28, decide (d.field 28 1 < 2))] ++ descReserved d 29 35) = true) ∧ (bitAt (d.field 28 1) 0 = true → s.dramRangeOk (d.field 16 8) (16 * d.field 24 4) = true) ∧ (s.get Reg.EXP_STATE_STATE = 2) ∧ (s.get Reg.TID_PRF_STATUS_STATE = 0) ∧ (s.tid.heldJobs = []) ∧ (l = tableEntries (s.readSpace (bitAt (d.field 28 1) 0) (d.field 16 8) (16 * d.field 24 4)) (d.field 24 4)) ∧ (tableFault (s.get Reg.TID_PRF_VMAX_VMAX) (s.get Reg.TID_PRF_AMAX_LIMIT) (s.get Reg.TID_PRF_JMAX_LIMIT) (s.getS Reg.TID_PRF_PMIN_POS) (s.getS Reg.TID_PRF_PMAX_POS) 0 s.tid.pos s.tid.vel none l = none)) ∧
    (∃ (s : State) (d : Desc) (l : List (Nat × Int × Int)) (f : Nat × Nat), (s.takes d 0x19 ([(24, decide (1 ≤ d.field 24 4 ∧ d.field 24 4 ≤ 65536)), (28, decide (d.field 28 1 < 2))] ++ descReserved d 29 35) = true) ∧ (bitAt (d.field 28 1) 0 = true → s.dramRangeOk (d.field 16 8) (16 * d.field 24 4) = true) ∧ (s.get Reg.EXP_STATE_STATE = 2) ∧ (s.get Reg.TID_PRF_STATUS_STATE = 0) ∧ (s.tid.heldJobs = []) ∧ (l = tableEntries (s.readSpace (bitAt (d.field 28 1) 0) (d.field 16 8) (16 * d.field 24 4)) (d.field 24 4)) ∧ (tableFault (s.get Reg.TID_PRF_VMAX_VMAX) (s.get Reg.TID_PRF_AMAX_LIMIT) (s.get Reg.TID_PRF_JMAX_LIMIT) (s.getS Reg.TID_PRF_PMIN_POS) (s.getS Reg.TID_PRF_PMAX_POS) 0 s.tid.pos s.tid.vel none l = some f) ∧ (d.field 8 8 < 2 ^ 64 - 64)) ∧
    (∃ (s : State) (d : Desc), (s.takes d 0x19 ([(24, decide (1 ≤ d.field 24 4 ∧ d.field 24 4 ≤ 65536)), (28, decide (d.field 28 1 < 2))] ++ descReserved d 29 35) = true) ∧ (bitAt (d.field 28 1) 0 = true → s.dramRangeOk (d.field 16 8) (16 * d.field 24 4) = true) ∧ (s.get Reg.EXP_STATE_STATE ≠ 2)) ∧
    (∃ (s : State) (d : Desc), (s.takes d 0x19 ([(24, decide (1 ≤ d.field 24 4 ∧ d.field 24 4 ≤ 65536)), (28, decide (d.field 28 1 < 2))] ++ descReserved d 29 35) = true) ∧ (bitAt (d.field 28 1) 0 = true) ∧ (s.dramRangeOk (d.field 16 8) (16 * d.field 24 4) = false) ∧ (d.field 8 8 < 2 ^ 64 - 64)) :=
  ⟨⟨stageState.put Reg.EXP_STATE_STATE 4, ⟨5, leBytes 8 0x18 ++ leBytes 8 0 ++ leBytes 5 100 ++ leBytes 43 0⟩, by decide +kernel⟩,
   ⟨{ stageState.puts [(Reg.EXP_STATE_STATE, 5), (Reg.TID_PRF_STATUS_STATE, 1)] with tid := { stageState.tid with vel := 5, pos := 65536000 } }, ⟨5, leBytes 8 0x18 ++ leBytes 8 0 ++ leBytes 5 100 ++ leBytes 43 0⟩, by decide +kernel⟩,
   ⟨stageState, ⟨5, leBytes 8 0x18 ++ leBytes 8 0x4000 ++ leBytes 5 0x7FFFFFFFFF ++ leBytes 43 0⟩, by decide +kernel⟩,
   ⟨tableState, ⟨5, leBytes 8 0x19 ++ leBytes 8 0 ++ leBytes 8 0x7000 ++ leBytes 4 1 ++ leBytes 36 0⟩, [(100000, 0, 65536)], by decide +kernel⟩,
   ⟨stageState, ⟨5, leBytes 8 0x19 ++ leBytes 8 0x4000 ++ leBytes 8 0x7000 ++ leBytes 4 1 ++ leBytes 36 0⟩, [(0, 0, 0)], (0, 7), by decide +kernel⟩,
   ⟨stageState.put Reg.EXP_STATE_STATE 4, ⟨5, leBytes 8 0x19 ++ leBytes 8 0 ++ leBytes 8 0x7000 ++ leBytes 4 1 ++ leBytes 1 1 ++ leBytes 35 0⟩, by decide +kernel⟩,
   ⟨stageState, ⟨5, leBytes 8 0x19 ++ leBytes 8 0x4000 ++ leBytes 8 0xFFFFFFFFFFFFFF00 ++ leBytes 4 1 ++ leBytes 1 1 ++ leBytes 35 0⟩, by decide +kernel⟩⟩

theorem witness_loop_samples_1 :
    (∃ (s : State) (c : Fin 4), (s.get (Reg.LOOP_SRC_FB_SRC c) < 4) ∧ (s.loopDue c (48 + s.get (Reg.LOOP_SRC_TRIG_LEAD c)) = true) ∧ (c.val < s.loops.length)) ∧
    (∃ (s : State) (k : Fin 4) (frame : List Byte) (c b : Nat), (s.awaiting k = [(c, b)]) ∧ (c < s.loops.length)) ∧
    (∃ (s : State) (c : Fin 4) (y e v i q0 q lo hi r : Int), (s.loopDue c 48 = true) ∧ (s.get (Reg.LOOP_MODE_SWAP c) = 0) ∧ (c.val < s.loops.length) ∧ (s.get (Reg.LOOP_MODE_STATE c) = 2) ∧ (s.get (Reg.LOOP_MODE_REQ c) = 2) ∧ (s.loopFeedback c = (0, y)) ∧ (c.val ≠ 3) ∧ (s.get (Reg.LOOP_SRC_REF_SRC c) = 0) ∧ (s.get (Reg.LOOP_SLEW_VALUE c) = 0) ∧ (s.get (Reg.LOOP_SUP_N c) = 0) ∧ (r = (if s.get (Reg.LOOP_REF_STEP_STEP c) = 0 then s.getS (Reg.LOOP_REF_TARGET c) else (s.loopAt c).rr + clampInt (s.getS (Reg.LOOP_REF_TARGET c) - (s.loopAt c).rr) (-s.get (Reg.LOOP_REF_STEP_STEP c)) (s.get (Reg.LOOP_REF_STEP_STEP c)))) ∧ (e = clamp24 (clamp24 r - y)) ∧ (v = s.filterOut c e) ∧ ((lo, hi) = s.bankLimits c (s.get (Reg.LOOP_MODE_ACTIVE_BANK c))) ∧ (q0 = roundHalfUp ((s.loopAt c).integ + v) (2 ^ 24)) ∧ (i = (if q0 < lo ∨ hi < q0 then (s.loopAt c).integ else clamp48 ((s.loopAt c).integ + roundHalfUp (s.coef c 7 * e) 16))) ∧ (q = roundHalfUp (i + v) (2 ^ 24))) ∧
    (∃ (s : State) (c : Fin 4) (y e v : Int), (s.loopDue c 48 = true) ∧ (s.get (Reg.LOOP_MODE_SWAP c) = 0) ∧ (c.val < s.loops.length) ∧ (s.get (Reg.LOOP_MODE_STATE c) ≠ 2) ∧ (s.get (Reg.LOOP_MODE_REQ c) = 2) ∧ (s.loopFeedback c = (0, y)) ∧ (c.val ≠ 3) ∧ (s.get (Reg.LOOP_SRC_REF_SRC c) = 0) ∧ (s.get (Reg.LOOP_REF_STEP_STEP c) = 0) ∧ (s.get (Reg.LOOP_SUP_N c) = 0) ∧ (e = clamp24 (clamp24 (s.getS (Reg.LOOP_REF_TARGET c)) - y)) ∧ (v = clamp48 (roundHalfUp (2 ^ 24 * (s.coef c 0 * e)) (2 ^ 28))) ∧ (clamp48 (s.getS (Reg.LOOP_STATUS_OUT c) * 2 ^ 24 - v) = s.getS (Reg.LOOP_STATUS_OUT c) * 2 ^ 24 - v)) ∧
    (∃ (s : State) (c : Fin 4) (y : Int), (s.loopDue c 48 = true) ∧ (s.get (Reg.LOOP_MODE_SWAP c) = 0) ∧ (c.val < s.loops.length) ∧ (s.get (Reg.LOOP_MODE_REQ c) = 0) ∧ (s.loopFeedback c = (0, y))) :=
  ⟨⟨{ up [] with tide := 360 }, 2, by decide +kernel⟩,
   ⟨{ up [] with tide := 360 }.modLoop 2 fun l => { l with edge := some 300 }, 2, [1], 2, 300, by decide +kernel⟩,
   ⟨focusState, 2, 0, 1000, 500 * 2 ^ 24, -375 * 2 ^ 24, 63, 125, -100, 100, 1000, by decide +kernel⟩,
   ⟨focusState.put (Reg.LOOP_MODE_STATE 2) 1, 2, 0, 1000, 500 * 2 ^ 24, by decide +kernel⟩,
   ⟨focusState.puts [(Reg.LOOP_MODE_REQ 2, 0), (Reg.LOOP_SAFE_VALUE 2, 55)], 2, 0, by decide +kernel⟩⟩

theorem witness_loop_samples_2 :
    (∃ (s : State) (c : Fin 4) (y : Int), (s.loopDue c 48 = true) ∧ (s.get (Reg.LOOP_MODE_SWAP c) = 0) ∧ (c.val < s.loops.length) ∧ (s.get (Reg.LOOP_MODE_STATE c) = 1) ∧ (s.get (Reg.LOOP_MODE_REQ c) = 1) ∧ (s.loopFeedback c = (0, y)) ∧ (s.get (Reg.LOOP_SLEW_VALUE c) = 0 ∨ s.get (Reg.LOOP_STATUS_SLEWING c) = 0)) ∧
    (∃ (s : State) (c : Fin 4) (y : Int), (s.loopDue c 48 = true) ∧ (s.get (Reg.LOOP_MODE_SWAP c) = 0) ∧ (c.val < s.loops.length) ∧ (s.get (Reg.LOOP_MODE_STATE c) = 1) ∧ (s.get (Reg.LOOP_MODE_REQ c) = 1) ∧ (s.loopFeedback c = (0, y)) ∧ (c.val ≠ 3) ∧ (s.get (Reg.LOOP_SLEW_VALUE c) ≠ 0 ∧ s.get (Reg.LOOP_STATUS_SLEWING c) = 1)) ∧
    (∃ (s : State) (c : Fin 4) (m : Nat) (y : Int), (s.loopDue c 48 = true) ∧ (s.get (Reg.LOOP_MODE_SWAP c) = 0) ∧ (c.val < s.loops.length) ∧ (s.get (Reg.LOOP_MODE_STATE c) = 2) ∧ (s.get (Reg.LOOP_MODE_REQ c) = 2) ∧ (s.loopFeedback c = (m, y)) ∧ (m ≠ 0) ∧ ((s.loopAt c).misses + 1 < s.get (Reg.LOOP_SRC_MISS_LIMIT c))) ∧
    (∃ (s : State) (c : Fin 4) (m : Nat) (y : Int), (s.loopDue c 48 = true) ∧ (s.get (Reg.LOOP_MODE_SWAP c) = 1) ∧ (s.loopFeedback c = (m, y)) ∧ (s.swapFault c (1 - s.get (Reg.LOOP_MODE_ACTIVE_BANK c)) = 0)) ∧
    (∃ (s : State) (c : Fin 4), (s.loopDue c 48 = false)) :=
  ⟨⟨focusState.puts [(Reg.LOOP_MODE_REQ 2, 1), (Reg.LOOP_MODE_STATE 2, 1), (Reg.LOOP_OPEN_VALUE 2, 0xFFFF00)], 2, 0, by decide +kernel⟩,
   ⟨focusState.puts [(Reg.LOOP_MODE_REQ 2, 1), (Reg.LOOP_MODE_STATE 2, 1), (Reg.LOOP_OPEN_VALUE 2, 0xFFFF00), (Reg.LOOP_SLEW_VALUE 2, 9), (Reg.LOOP_STATUS_SLEWING 2, 1)], 2, 0, by decide +kernel⟩,
   ⟨focusState.modLoop 2 fun l => { l with frame := none }, 2, 3, 0, by decide +kernel⟩,
   ⟨focusState.put (Reg.LOOP_MODE_SWAP 2) 1, 2, 0, 0, by decide +kernel⟩,
   ⟨{ up [] with tide := 1 }, 2, by decide +kernel⟩⟩

theorem witness_loop_writes :
    (∃ (s : State) (d : Instr) (c : Fin 4) (v : Word), (d = .loopModeWrite c v ∨ (d = .loopSwapRequest c v ∧ v.getLsbD 8 = true)) ∧ (s.domainOn 15 = true) ∧ (v.toNat % 4 ≠ 2 ∨ s.closeFault c = 0)) ∧
    (∃ (s : State) (c : Fin 4) (v : Word), (s.domainOn 15 = true) ∧ (v.toNat % 4 = 2) ∧ (s.closeFault c ≠ 0)) ∧
    (∃ (s : State) (off : BitVec 25) (wide : Bool) (v : BitVec 64) (c b : Nat), (bankOf off.toNat = some (c, b)) ∧ (alignedAccess off.toNat wide = true) ∧ (s.domainOn 15 = true) ∧ (b ≠ s.get (Reg.LOOP_MODE_ACTIVE_BANK c))) ∧
    (∃ (s : State) (off : BitVec 25) (wide : Bool) (v : BitVec 64) (c b : Nat), (bankOf off.toNat = some (c, b)) ∧ (alignedAccess off.toNat wide = true) ∧ (s.domainOn 15 = true) ∧ (b = s.get (Reg.LOOP_MODE_ACTIVE_BANK c))) ∧
    (∃ (s : State) (c : Fin 4) (v : Word), (s.domainOn 15 = true)) ∧
    (∃ (s : State) (off : BitVec 25) (wide : Bool) (v : BitVec 64), (0x00B00000 ≤ off.toNat ∧ off.toNat < 0x00B04000 ∧ off.toNat % 0x1000 < 0x18) ∧ (alignedAccess off.toNat wide = true) ∧ (s.domainOn 15 = true) ∧ (s.get (Reg.LOOP_MODE_STATE ((off.toNat - 0x00B00000) / 0x1000)) = 0)) ∧
    (∃ (s : State) (off : BitVec 25) (wide : Bool) (v : BitVec 64), (0x00B00000 ≤ off.toNat ∧ off.toNat < 0x00B04000 ∧ off.toNat % 0x1000 < 0x18) ∧ (alignedAccess off.toNat wide = true) ∧ (s.domainOn 15 = true) ∧ (s.get (Reg.LOOP_MODE_STATE ((off.toNat - 0x00B00000) / 0x1000)) ≠ 0)) :=
  ⟨⟨up [], .loopSwapRequest 2 0x102, 2, 0x102, by decide +kernel⟩,
   ⟨up [(Reg.LOOP_SRC_FB_SRC 2, 7)], 2, 2, by decide +kernel⟩,
   ⟨up [], 0x00B02144, false, 0x123, 2, 1, by decide +kernel⟩,
   ⟨up [], 0x00B02104, false, 0x123, 2, 0, by decide +kernel⟩,
   ⟨up [(Reg.LOOP_MODE_STATE 3, 1)], 3, 0xFF123456, by decide +kernel⟩,
   ⟨up [], 0x00B03000, false, 5000, by decide +kernel⟩,
   ⟨up [(Reg.LOOP_MODE_STATE 3, 1)], 0x00B03000, false, 5000, by decide +kernel⟩⟩

theorem witness_flood_entry :
    (∃ (s : State) (st : Strip), (s.box.strips.find? (fun x => !x.isOpen) = some st) ∧ (s.get Reg.EXP_STATE_STATE = 1 ∨ s.get Reg.EXP_STATE_STATE = 2) ∧ (s.resetting = false) ∧ (s.openStrip = none) ∧ (s.floodFault st = none) ∧ (uncovered s.regs = none) ∧ (s.waitBits st 0 = 0) ∧ (s.inCascade = false) ∧ (s.peerBits = 0) ∧ (s.on Reg.CSC_STATUS_SLAVE = false)) ∧
    (∃ (s : State) (st : Strip), (s.box.strips.find? (fun x => !x.isOpen) = some st) ∧ (s.get Reg.EXP_STATE_STATE = 1 ∨ s.get Reg.EXP_STATE_STATE = 2) ∧ (s.resetting = false) ∧ (s.openStrip = none) ∧ (s.floodFault st = none) ∧ (uncovered s.regs = none) ∧ (s.waitBits st 0 ≠ 0) ∧ (s.inCascade = false) ∧ (s.peerBits = 0) ∧ (s.on Reg.CSC_STATUS_SLAVE = false)) ∧
    (∃ (s : State) (st : Strip), (s.box.strips.find? (fun x => !x.isOpen) = some st) ∧ (s.get Reg.EXP_STATE_STATE = 1 ∨ s.get Reg.EXP_STATE_STATE = 2) ∧ (s.resetting = false) ∧ (s.openStrip.isSome = true)) ∧
    (∃ (s : State) (st : Strip) (q : Nat × List (Nat × Nat)), (s.box.strips.find? (fun x => !x.isOpen) = some st) ∧ (s.get Reg.EXP_STATE_STATE = 1 ∨ s.get Reg.EXP_STATE_STATE = 2) ∧ (s.resetting = false) ∧ (s.openStrip = none) ∧ (s.floodFault st = some q)) ∧
    (∃ (s : State), (s.box.strips.all (fun x => x.isOpen) = true)) :=
  ⟨⟨readyState, postedStrip, by decide +kernel, by decide +kernel, by decide +kernel, by decide +kernel, by decide +kernel, ready_covered, ready_bits, by decide +kernel, by decide +kernel, by decide +kernel⟩,
   ⟨waitState, postedStrip, by decide +kernel, by decide +kernel, by decide +kernel, by decide +kernel, by decide +kernel, ready_covered, by decide +kernel, by decide +kernel, by decide +kernel, by decide +kernel⟩,
   ⟨{ openState 2 with box := { (openState 2).box with strips := [anOpenStrip, { anOpenStrip with slot := 1, isOpen := false }] } }, { anOpenStrip with slot := 1, isOpen := false }, by decide +kernel⟩,
   ⟨stripState.puts [(Reg.EXP_STATE_STATE, 2), (Reg.HLK_ROW_PITCH_PITCH, 0)], postedStrip, (0x06E2, []), by decide +kernel⟩,
   ⟨openState 2, by decide +kernel⟩⟩

theorem witness_breaks_and_slack :
    (∃ (s : State) (p : PendingStop) (st : Strip), (s.resetting = false) ∧ (s.firing = true) ∧ (s.seq.prompt = some p) ∧ (s.openStrip = some st) ∧ (p.cause < 256 ∧ p.kind < 4)) ∧
    (∃ (s : State), (s.resetting = false) ∧ (s.firing = false) ∧ (s.seq.blankLag = true)) ∧
    (∃ (s : State) (st : Strip), (s.resetting = false) ∧ (s.get Reg.EXP_STATE_STATE = 5) ∧ (s.get Reg.TID_PRF_STATUS_STATE = 0) ∧ (s.openStrip = some st) ∧ (s.seq.afterFlood = none) ∧ (s.openMarks st.slot = 0)) ∧
    (∃ (s : State), (s.resetting = true ∨ s.get Reg.EXP_STATE_STATE ≠ 5 ∨ s.get Reg.TID_PRF_STATUS_STATE ≠ 0)) ∧
    (∃ (s : State) (st : Strip), (s.resetting = false) ∧ (s.get Reg.EXP_STATE_STATE = 6) ∧ (s.get Reg.TID_PRF_STATUS_STATE = 0) ∧ (s.openStrip = some st) ∧ (s.seq.endJobs = [])) :=
  ⟨⟨{ openState 4 with seq := { (openState 4).seq with prompt := some ⟨200, 6, 2, 0⟩ } }, ⟨200, 6, 2, 0⟩, anOpenStrip, by decide +kernel⟩,
   ⟨{ openState 6 with seq := { (openState 6).seq with blankLag := true } }, by decide +kernel⟩,
   ⟨openState 5, anOpenStrip, by decide +kernel⟩,
   ⟨openState 4, by decide +kernel⟩,
   ⟨{ openState 6 with seq := { (openState 6).seq with stopJobs := [3] } }, anOpenStrip, by decide +kernel⟩⟩

theorem witness_resume_and_neap :
    (∃ (s : State) (st : Strip) (ta te last : Int), (s.resetting = false) ∧ (s.openStrip = some st) ∧ (s.get Reg.EXP_STATE_STATE = 1 ∨ s.get Reg.EXP_STATE_STATE = 2) ∧ (s.resumeRefusal st = none) ∧ (s.recordsOpen = false) ∧ (s.doneFaulty st = none) ∧ (s.resumeSpan st (s.doneAfter st) = (ta, te, last)) ∧ (s.resumeBits st ta = 0) ∧ (s.readyPorts = []) ∧ (s.inCascade = false) ∧ (s.peerBits = 0) ∧ (s.on Reg.CSC_STATUS_SLAVE = false)) ∧
    (∃ (s : State) (st : Strip) (q : Nat × Nat), (s.resetting = false) ∧ (s.openStrip = some st) ∧ (s.get Reg.EXP_STATE_STATE = 1 ∨ s.get Reg.EXP_STATE_STATE = 2) ∧ (s.resumeRefusal st = some q) ∧ (st.refused ≠ q.1) ∧ (s.on Reg.CSC_STATUS_SLAVE = false)) ∧
    (∃ (s : State), (s.resetting = true ∨ (s.get Reg.EXP_STATE_STATE ≠ 1 ∧ s.get Reg.EXP_STATE_STATE ≠ 2))) ∧
    (∃ (s : State) (q : Nat), (s.resetting = false) ∧ (s.seq.idleSince = some q) ∧ (s.neapQuiet = true) ∧ (q + 400000 * s.get Reg.EXP_NEAP_DELAY ≤ s.tide)) ∧
    (∃ (s : State), (s.resetting = false) ∧ (s.get Reg.EXP_STATE_STATE = 1) ∧ (s.seq.waking = false) ∧ (s.stirred = true)) ∧
    (∃ (s : State), (s.resetting = false) ∧ (s.get Reg.EXP_STATE_STATE = 1) ∧ (s.seq.waking = true) ∧ (s.pwr.requested = 0)) :=
  ⟨⟨brokenIn readyState, brokenStrip, 100, 100, 0, by decide +kernel, by decide +kernel, by decide +kernel, broken_refusal, by decide +kernel, by decide +kernel, by decide +kernel, broken_bits, by decide +kernel, by decide +kernel, by decide +kernel, by decide +kernel⟩,
   ⟨(openState 2).modStrip anOpenStrip.slot fun x => { x with ledgerLost := true, resumeJobs := [3] }, { anOpenStrip with ledgerLost := true, resumeJobs := [3] }, (2, 0xFFFF), by decide +kernel⟩,
   ⟨openState 4, by decide +kernel⟩,
   ⟨{ (couches 0 1).puts [(Reg.EXP_STATE_STATE, 2), (Reg.EXP_CTRL_NEAP_EN, 1), (Reg.EXP_NEAP_DELAY, 1), (Reg.HCR_CAL_TEMP_TEMP, 5), (Reg.PWR_DIE_TEMP_TEMP, 5)] with tide := 400005, seq := { State.reset.seq with idleSince := some 5 }, couch := { State.reset.couch with passedAt := [some 0, some 0] } }, 5, by decide +kernel⟩,
   ⟨(up [(Reg.EXP_STATE_STATE, 1), (Reg.HCR_CTRL_MEAS_REQ, 1)]), by decide +kernel⟩,
   ⟨{ couches 3 3 with seq := { State.reset.seq with waking := true }, couch := { State.reset.couch with neapRoles := [0, 1] } }.put Reg.EXP_STATE_STATE 1, by decide +kernel⟩⟩

theorem witness_abort_and_sleep :
    (∃ (s : State) (v : Word), (v.toNat % 256 = 0xA5) ∧ (s.domainOn 14 = true) ∧ (s.get Reg.HST_STATUS_ABORTING = 0)) ∧
    (∃ (s : State) (v : Word), (v.toNat % 256 ≠ 0xA5) ∧ (s.domainOn 14 = true)) ∧
    (∃ (s : State), (s.get Reg.HST_STATUS_ABORTING = 1) ∧ ((s.host.abortJobs.any fun a => (s.findJob a).isSome) = false)) ∧
    (∃ (s : State), (s.get Reg.HST_STATUS_ABORTING = 1) ∧ ((s.host.abortJobs.any fun a => (s.findJob a).isSome) = true)) ∧
    (∃ (s : State), (s.host.d3hot = false) ∧ (s.get Reg.HST_STATUS_ABORTING = 0)) ∧
    (∃ (s : State), (s.host.d3hot = true) ∧ (s.get Reg.HST_STATUS_LINK_UP = 1)) :=
  ⟨⟨{ up [] with store := { State.reset.store with codec := [aPaused] } }, 0xA5, by decide +kernel⟩,
   ⟨up [], 0x5A, by decide +kernel⟩,
   ⟨up [(Reg.HST_STATUS_ABORTING, 1)], by decide +kernel⟩,
   ⟨{ up [(Reg.HST_STATUS_ABORTING, 1)] with host := { State.reset.host with jobs := [⟨7, 1, 0, 0x28, 5, 0, false⟩], abortJobs := [7] } }, by decide +kernel⟩,
   ⟨up [], by decide +kernel⟩,
   ⟨{ up [(Reg.HST_STATUS_LINK_UP, 1)] with host := { State.reset.host with d3hot := true } }, by decide +kernel⟩⟩

theorem witness_head_care_jobs :
    (∃ (s : State) (d : Desc), (s.takes d 0x28 ([(16, decide (d.field 16 8 % 4096 = 0)), (24, decide (d.field 24 2 < 1024)), (26, decide (d.field 24 2 + d.field 26 2 ≤ 1024)), (28, decide (d.field 28 1 < 2))] ++ descReserved d 29 35) = true) ∧ (s.hcr.jobs.all (fun j => decide (j.opcode = 0x28)) = true)) ∧
    (∃ (s : State) (d : Desc), (s.takes d 0x29 ([(16, decide (d.field 16 8 % 8 = 0)), (28, decide (d.field 28 1 < 2))] ++ descReserved d 24 4 ++ descReserved d 29 35) = true) ∧ (s.hcr.jobs = []) ∧ (s.alignFault (s.readSpace false (d.field 16 8) 4112) = none) ∧ (d.field 28 1 = 0 ∨ s.hcr.handover = []) ∧ (d.field 8 8 < 2 ^ 64 - 64)) ∧
    (∃ (s : State) (d : Desc) (q : Nat × Nat), (s.takes d 0x29 ([(16, decide (d.field 16 8 % 8 = 0)), (28, decide (d.field 28 1 < 2))] ++ descReserved d 24 4 ++ descReserved d 29 35) = true) ∧ (s.hcr.jobs = []) ∧ (s.alignFault (s.readSpace false (d.field 16 8) 4112) = some q) ∧ (d.field 8 8 < 2 ^ 64 - 64)) ∧
    (∃ (s : State) (d : Desc) (j : HcrJob) (r : List HcrJob), (s.takes d 0x29 ([(16, decide (d.field 16 8 % 8 = 0)), (28, decide (d.field 28 1 < 2))] ++ descReserved d 24 4 ++ descReserved d 29 35) = true) ∧ (s.hcr.jobs = j :: r) ∧ (j.opcode = 0x28)) ∧
    (∃ (s : State) (d : Desc) (j : HcrJob) (r : List HcrJob), (s.takes d 0x2A ((16, decide (d.field 16 1 = 1 ∨ d.field 16 1 = 2)) :: descReserved d 17 1 ++ descReserved d 20 44) = true) ∧ (s.hcr.jobs = j :: r) ∧ (j.opcode = 0x28)) ∧
    (∃ (s : State) (d : Desc), (s.takes d 0x2A ((16, decide (d.field 16 1 = 1 ∨ d.field 16 1 = 2)) :: descReserved d 17 1 ++ descReserved d 20 44) = true) ∧ (s.hcr.jobs = []) ∧ (s.hcr.handover = []) ∧ (s.get Reg.BWT_PROP_STATUS_STATE ≠ 0) ∧ (d.field 18 2 = s.get Reg.HCR_GEN_RES_GEN) ∧ (d.field 16 1 = 2 ∨ s.get Reg.HCR_STATUS_STUCK = 0)) ∧
    (∃ (s : State) (d : Desc), (s.takes d 0x2A ((16, decide (d.field 16 1 = 1 ∨ d.field 16 1 = 2)) :: descReserved d 17 1 ++ descReserved d 20 44) = true) ∧ (s.hcr.jobs = []) ∧ (s.hcr.handover = []) ∧ (d.field 18 2 = s.get Reg.HCR_GEN_RES_GEN) ∧ (d.field 16 1 = 2 ∨ s.get Reg.HCR_STATUS_STUCK = 0) ∧ (s.get Reg.BWT_PROP_STATUS_STATE = 0) ∧ (d.field 8 8 < 2 ^ 64 - 64)) ∧
    (∃ (s : State) (d : Desc), (s.takes d 0x2A ((16, decide (d.field 16 1 = 1 ∨ d.field 16 1 = 2)) :: descReserved d 17 1 ++ descReserved d 20 44) = true) ∧ (s.hcr.jobs = []) ∧ (s.hcr.handover = []) ∧ (d.field 18 2 ≠ s.get Reg.HCR_GEN_RES_GEN) ∧ (d.field 8 8 < 2 ^ 64 - 64)) :=
  ⟨⟨ringState, ⟨5, leBytes 8 0x28 ++ leBytes 8 0 ++ leBytes 8 0x8000 ++ leBytes 2 8 ++ leBytes 2 16 ++ leBytes 36 1⟩, by decide +kernel⟩,
   ⟨alignState, ⟨5, leBytes 8 0x29 ++ leBytes 8 0x4000 ++ leBytes 8 0x8000 ++ leBytes 40 0⟩, by decide +kernel, by decide +kernel, by rw [show Desc.field _ 16 8 = 0x8000 from by decide +kernel]; exact align_none, by decide +kernel, by decide +kernel⟩,
   ⟨alignState.put Reg.HCR_GEN_ALIGN_GEN 1, ⟨5, leBytes 8 0x29 ++ leBytes 8 0x4000 ++ leBytes 8 0x8000 ++ leBytes 40 0⟩, (0xFFFF, 4), by decide +kernel⟩,
   ⟨{ ringState with hcr := { ringState.hcr with jobs := [{ aseq := 900, opcode := 0x28 }] } }, ⟨5, leBytes 8 0x29 ++ leBytes 8 0 ++ leBytes 8 0x8000 ++ leBytes 4 0 ++ leBytes 36 1⟩, { aseq := 900, opcode := 0x28 }, [], by decide +kernel⟩,
   ⟨{ ringState with hcr := { ringState.hcr with jobs := [{ aseq := 900, opcode := 0x28 }] } }, ⟨5, leBytes 8 0x2A ++ leBytes 8 0 ++ leBytes 48 2⟩, { aseq := 900, opcode := 0x28 }, [], by decide +kernel⟩,
   ⟨ringState.put Reg.BWT_PROP_STATUS_STATE 2, ⟨5, leBytes 8 0x2A ++ leBytes 8 0x4000 ++ leBytes 48 2⟩, by decide +kernel⟩,
   ⟨ringState, ⟨5, leBytes 8 0x2A ++ leBytes 8 0x4000 ++ leBytes 48 2⟩, by decide +kernel⟩,
   ⟨ringState, ⟨5, leBytes 8 0x2A ++ leBytes 8 0x4000 ++ leBytes 2 2 ++ leBytes 46 9⟩, by decide +kernel⟩⟩

theorem witness_measurement_runs_1 :
    (∃ (s : State), (s.itemDue = some 1) ∧ (s.get Reg.EXP_STATE_STATE = 2) ∧ (s.hcr.run = none ∧ s.hcr.cal = none ∧ s.couch.test = none) ∧ (s.get Reg.TID_TICK_STATE = 0)) ∧
    (∃ (s : State), (s.itemDue = some 3) ∧ (s.get Reg.EXP_STATE_STATE = 2) ∧ (s.hcr.run = none ∧ s.hcr.cal = none ∧ s.couch.test = none) ∧ (s.get Reg.TID_TICK_STATE = 0)) ∧
    (∃ (s : State), (s.itemDue = some 2) ∧ (s.get Reg.EXP_STATE_STATE = 2) ∧ (s.hcr.run = none ∧ s.hcr.cal = none ∧ s.couch.test = none) ∧ (s.get Reg.TID_TICK_STATE = 0)) ∧
    (∃ (s : State) (j : HcrJob) (r : List HcrJob), (s.itemDue = some 4) ∧ (s.hcr.jobs = j :: r) ∧ (s.get Reg.EXP_STATE_STATE = 2) ∧ (s.hcr.run = none ∧ s.hcr.cal = none ∧ s.couch.test = none) ∧ (s.get Reg.TID_TICK_STATE = 0)) ∧
    (∃ (s : State) (item : Nat), (s.itemDue = some item) ∧ (s.get Reg.EXP_STATE_STATE ≠ 0 ∧ s.get Reg.EXP_STATE_STATE ≠ 2) ∧ (natMem item s.hcr.deferred = false)) ∧
    (∃ (s : State) (r : MeasRun), (s.hcr.run = some r) ∧ ((r.drivers.any fun m => decide (m.result = 0)) = true)) ∧
    (∃ (s : State) (r : MeasRun), (s.hcr.run = some r) ∧ ((r.drivers.all fun m => decide (m.result ≠ 0)) = true) ∧ (s.hcr.jobs = [])) ∧
    (∃ (s : State) (r : MeasRun) (m : MeasDriver), (s.hcr.run = some r) ∧ (r.drivers = [m]) ∧ (m.result = 1) ∧ (m.addr < 1024) ∧ (s.hcr.jobs = [])) :=
  ⟨⟨up [(Reg.EXP_STATE_STATE, 2)], by decide +kernel⟩,
   ⟨up [(Reg.EXP_STATE_STATE, 2), (Reg.HCR_CAL_TEMP_TEMP, 0), (Reg.PWR_DIE_TEMP_TEMP, 16), (Reg.HCR_CTRL_MEAS_REQ, 1)], by decide +kernel⟩,
   ⟨{ up [(Reg.EXP_STATE_STATE, 2), (Reg.HCR_CAL_TEMP_TEMP, 0), (Reg.PWR_DIE_TEMP_TEMP, 16)] with hcr := { State.reset.hcr with unmeasured := [7, 9] } }, by decide +kernel⟩,
   ⟨{ up [(Reg.EXP_STATE_STATE, 2), (Reg.HCR_CAL_TEMP_TEMP, 0), (Reg.PWR_DIE_TEMP_TEMP, 16)] with hcr := { State.reset.hcr with unmeasured := [], jobs := [{ aseq := 5, opcode := 0x28, first := 8, count := 2 }] } }, { aseq := 5, opcode := 0x28, first := 8, count := 2 }, [], by decide +kernel⟩,
   ⟨up [(Reg.EXP_STATE_STATE, 4)], 1, by decide +kernel⟩,
   ⟨runOf { addr := 3 }, ⟨[{ addr := 3 }], none, 0, false, some 0, false⟩, by decide +kernel⟩,
   ⟨runOf { addr := 3, result := 2 }, ⟨[{ addr := 3, result := 2 }], none, 0, false, some 0, false⟩, by decide +kernel⟩,
   ⟨runOf { addr := 3, result := 1 }, ⟨[{ addr := 3, result := 1 }], none, 0, false, some 0, false⟩, { addr := 3, result := 1 }, by decide +kernel⟩⟩

theorem witness_measurement_runs_2 :
    (∃ (s : State) (r : MeasRun), (s.hcr.run = some r) ∧ ((r.drivers.all fun m => decide (m.result = 2)) = true) ∧ (r.drivers ≠ []) ∧ (s.hcr.jobs = [])) ∧
    (∃ (s : State) (r : MeasRun) (q : Nat), (s.hcr.run = some r) ∧ (r.startedAt = some q) ∧ (q + 400000 * s.get Reg.HCR_MEAS_CTRL_TIMEOUT_MS ≤ s.tide)) ∧
    (∃ (s : State) (r : MeasRun) (q : Nat), (s.hcr.run = some r) ∧ (r.startedAt = some q) ∧ (s.tide < q + 400000 * s.get Reg.HCR_MEAS_CTRL_TIMEOUT_MS)) ∧
    (∃ (s : State) (counts : List Word) (c : StrobeCal), (s.hcr.cal = some c) ∧ (c.windows.length < 7)) ∧
    (∃ (s : State) (counts : List Word) (c : StrobeCal), (s.hcr.cal = some c) ∧ (c.windows.length = 7)) ∧
    (∃ (s : State) (counts : List Word) (c : StrobeCal), (s.hcr.cal = some c) ∧ (8 ≤ c.windows.length)) ∧
    (∃ (s : State) (d : Instr) (v : Word), (d = .measReq v ∨ d = .calReq v) ∧ (s.domainOn 1 = true)) :=
  ⟨⟨runOf { addr := 3, result := 2 }, ⟨[{ addr := 3, result := 2 }], none, 0, false, some 0, false⟩, by decide +kernel⟩,
   ⟨{ runOf { addr := 3 } with tide := 400000000 }, ⟨[{ addr := 3 }], none, 0, false, some 0, false⟩, 0, by decide +kernel⟩,
   ⟨runOf { addr := 3 }, ⟨[{ addr := 3 }], none, 0, false, some 0, false⟩, 0, by decide +kernel⟩,
   ⟨calState [], [500000], ⟨[0], [], [], []⟩, by decide +kernel⟩,
   ⟨calState (List.replicate 7 [500000]), [500000], ⟨[0], List.replicate 7 [500000], [], []⟩, by decide +kernel⟩,
   ⟨calState (List.replicate 8 [500000]), [500000], ⟨[0], List.replicate 8 [500000], [], []⟩, by decide +kernel⟩,
   ⟨up [], .calReq 0x4000003C, 0x4000003C, by decide +kernel⟩⟩

theorem witness_steps_and_planner_1 :
    (∃ (s : State) (n : Fin 3) (want : Int), (want = idiv (s.axis n).x 65536) ∧ (want ≠ s.axisCount n) ∧ (natMem (s.axisState n) [1, 2, 3, 4, 5] = true) ∧ (s.pwr.protective = false) ∧ (s.axisState n = 4 ∨ s.blockedToward n (decide (s.axisCount n < want)) = false) ∧ (s.axisState n = 4 → (s.axis n).homeSteps < 2 ^ 31 ∨ 4 ≤ (s.axis n).homeStage) ∧ ((s.axis n).dir = decide (s.axisCount n < want)) ∧ (∀ q, (s.axis n).stepAt = some q → q + s.get (Reg.AUX_CFG_STEP_HI n) + s.get (Reg.AUX_CFG_STEP_LO n) ≤ s.tide) ∧ ((s.axis n).dirAt + s.get (Reg.AUX_CFG_DIR_SETUP n) ≤ s.tide) ∧ (n.val < s.aux.axes.length)) ∧
    (∃ (s : State) (n : Fin 3) (want : Int) (q : Nat), (want = idiv (s.axis n).x 65536) ∧ (want ≠ s.axisCount n) ∧ (natMem (s.axisState n) [1, 2, 3, 4, 5] = true) ∧ (s.pwr.protective = false) ∧ (s.axisState n = 4 ∨ s.blockedToward n (decide (s.axisCount n < want)) = false) ∧ ((s.axis n).dir ≠ decide (s.axisCount n < want)) ∧ ((s.axis n).stepAt = some q) ∧ (q + s.get (Reg.AUX_CFG_STEP_HI n) ≤ s.tide) ∧ (n.val < s.aux.axes.length)) ∧
    (∃ (s : State) (n : Fin 3), (idiv (s.axis n).x 65536 = s.axisCount n ∨ natMem (s.axisState n) [0, 6] = true ∨ s.pwr.protective = true)) ∧
    (∃ (s : State) (n : Fin 3), (s.axisState n ≠ 4) ∧ (s.blockedToward n (decide (s.axisCount n < idiv (s.axis n).x 65536)) = true)) ∧
    (∃ (s : State) (n : Fin 3) (pos vel acc : BitVec 64), (natMem (s.axisState n) [2, 4, 5] = true) ∧ (s.axisStepAllowed n pos.toInt vel.toInt acc.toInt = true) ∧ ((s.axis n).deferred = []) ∧ (s.get (Reg.AUX_CFG_ENC_EN n) = 0 ∨ (s.deviation n).natAbs ≤ s.get (Reg.AUX_DEV_WIN n)) ∧ (n.val < s.aux.axes.length)) ∧
    (∃ (s : State) (n : Fin 3) (pos vel acc : BitVec 64) (e : Nat × Int × Int) (r : List (Nat × Int × Int)) (p v : Int) (b : Nat), (s.axisState n = 3) ∧ (tableAdvance s.tide (s.axis n).table (s.axis n).segPos (s.axis n).segVel (s.axis n).segStart = (e :: r, p, v, b)) ∧ ((s.axis n).deferred = []) ∧ (s.get (Reg.AUX_CFG_ENC_EN n) = 0 ∨ (s.deviation n).natAbs ≤ s.get (Reg.AUX_DEV_WIN n)) ∧ (n.val < s.aux.axes.length)) ∧
    (∃ (s : State) (n : Fin 3) (pos vel acc : BitVec 64), (natMem (s.axisState n) [0, 1, 6] = true) ∧ ((s.axis n).deferred = []) ∧ (s.get (Reg.AUX_CFG_ENC_EN n) = 0 ∨ (s.deviation n).natAbs ≤ s.get (Reg.AUX_DEV_WIN n)) ∧ (n.val < s.aux.axes.length)) ∧
    (∃ (s : State) (n : Fin 3) (pos vel acc : BitVec 64), (s.axisState n = 2) ∧ (s.axisStepAllowed n pos.toInt vel.toInt acc.toInt = true) ∧ ((s.axis n).deferred = []) ∧ (s.get (Reg.AUX_CFG_ENC_EN n) = 1) ∧ (s.get (Reg.AUX_DEV_WIN n) < (s.deviation n).natAbs) ∧ ((s.axis n).devRun ≠ 0) ∧ (s.get (Reg.AUX_DEV_TIME n) ≤ 10 * (s.axis n).devRun) ∧ (n.val < s.aux.axes.length)) :=
  ⟨⟨stepState 65536 true, 1, 1, by decide +kernel, by decide +kernel, by decide +kernel, by decide +kernel, by decide +kernel, by decide +kernel, by decide +kernel, by intro q h; cases h; decide +kernel, by decide +kernel, by decide +kernel⟩,
   ⟨stepState (-65536) true, 1, -1, 0, by decide +kernel⟩,
   ⟨stepState 5 true, 1, by decide +kernel⟩,
   ⟨(stepState 65536 true).put (Reg.AUX_STATUS_LIM_HI 1) 1, 1, by decide +kernel⟩,
   ⟨(stepState 0 true).puts [(Reg.AUX_VMAX_LIMIT 1, 16000), (Reg.AUX_AMAX_LIMIT 1, 160000), (Reg.AUX_JMAX_LIMIT 1, 8000000)], 1, 0, 1, 1000, by decide +kernel⟩,
   ⟨{ ((stepState 0 true).puts [(Reg.AUX_VMAX_LIMIT 1, 16000), (Reg.AUX_AMAX_LIMIT 1, 160000), (Reg.AUX_JMAX_LIMIT 1, 8000000)]).put (Reg.AUX_STATUS_STATE 1) 3 with tide := 4400 }.modAxis 1 fun x => { x with table := [(8000, 0, 1024000000)], segStart := 400 }, 1, 0, 0, 0, (8000, 0, 1024000000), [], 0, 0, 400, by decide +kernel⟩,
   ⟨up [], 1, 5, 1, 1000, by decide +kernel⟩,
   ⟨(((stepState 0 true).puts [(Reg.AUX_VMAX_LIMIT 1, 16000), (Reg.AUX_AMAX_LIMIT 1, 160000), (Reg.AUX_JMAX_LIMIT 1, 8000000)]).puts [(Reg.AUX_CFG_ENC_EN 1, 1), (Reg.AUX_POS_COUNT 1, 100)]).modAxis 1 fun x => { x with devRun := 100, devSteps := 4 }, 1, 0, 1, 1000, by decide +kernel⟩⟩

theorem witness_steps_and_planner_2 :
    (∃ (s : State) (n : Fin 3) (a b : Bool) (d : Int), (s.get (Reg.AUX_CFG_ENC_EN n) = 1) ∧ (quadStep (s.axis n).encA (s.axis n).encB a b = some d) ∧ (n.val < s.aux.axes.length)) ∧
    (∃ (s : State) (n : Fin 3) (a b : Bool), (s.get (Reg.AUX_CFG_ENC_EN n) = 1) ∧ (quadStep (s.axis n).encA (s.axis n).encB a b = none) ∧ (s.axisBusy n = true) ∧ (n.val < s.aux.axes.length)) ∧
    (∃ (s : State) (n : Fin 3), (s.axisState n = 4) ∧ ((s.axis n).homeStage = 3) ∧ (n.val < s.aux.axes.length)) ∧
    (∃ (s : State) (n : Fin 3), (s.axisState n ≠ 4 ∨ (s.axis n).homeStage ≠ 3)) ∧
    (∃ (s : State) (n : Fin 3) (q : Nat), ((s.axis n).idleAt = some q) ∧ (s.axisState n = 1) ∧ (q + 400000 * s.get (Reg.AUX_SETTLE_SETTLE_MS n) ≤ s.tide) ∧ (s.get (Reg.AUX_CFG_ENC_EN n) = 0 ∨ (s.deviation n).natAbs ≤ s.get (Reg.AUX_SETTLE_END_WIN n)) ∧ (n.val < s.aux.axes.length)) ∧
    (∃ (s : State) (n : Fin 3) (q : Nat), ((s.axis n).idleAt = some q) ∧ (s.axisState n = 1) ∧ (q + 400000 * s.get (Reg.AUX_SETTLE_SETTLE_MS n) ≤ s.tide) ∧ (s.get (Reg.AUX_CFG_ENC_EN n) = 1 ∧ s.get (Reg.AUX_SETTLE_END_WIN n) < (s.deviation n).natAbs) ∧ (n.val < s.aux.axes.length)) ∧
    (∃ (s : State) (n : Fin 3) (hi level : Bool), (natMem (s.axisState n) [0, 1, 6] = true)) ∧
    (∃ (s : State) (n : Fin 3) (hi level : Bool), (natMem (s.axisState n) [2, 3, 5] = true) ∧ (s.blockedToward n hi = false) ∧ (level = s.on (if hi then Reg.AUX_CFG_HI_POL n else Reg.AUX_CFG_LO_POL n)) ∧ (s.movesToward n hi = true) ∧ (n.val < s.aux.axes.length)) :=
  ⟨⟨up [(Reg.AUX_CFG_ENC_EN 2, 1), (Reg.AUX_CFG_ENC_INV 2, 1)], 2, true, false, 1, by decide +kernel⟩,
   ⟨(stepState 0 true).put (Reg.AUX_CFG_ENC_EN 1) 1, 1, true, true, by decide +kernel⟩,
   ⟨((stepState 0 true).puts [(Reg.AUX_STATUS_STATE 1, 4), (Reg.AUX_HOME_POS 1, 2 ^ 48 - 7)]).modAxis 1 fun x => { x with homeStage := 3 }, 1, by decide +kernel⟩,
   ⟨stepState 0 true, 1, by decide +kernel⟩,
   ⟨{ (stepState 0 true).put (Reg.AUX_STATUS_STATE 1) 1 with tide := 40000000 }.modAxis 1 fun x => { x with idleAt := some 5 }, 1, 5, by decide +kernel⟩,
   ⟨{ (stepState 0 true).puts [(Reg.AUX_STATUS_STATE 1, 1), (Reg.AUX_CFG_ENC_EN 1, 1), (Reg.AUX_POS_COUNT 1, 100)] with tide := 40000000 }.modAxis 1 fun x => { x with idleAt := some 5 }, 1, 5, by decide +kernel⟩,
   ⟨up [], 0, true, false, by decide +kernel⟩,
   ⟨(stepState 0 true).modAxis 1 fun x => { x with v := 5 }, 1, true, false, by decide +kernel⟩⟩

theorem witness_axis_jobs_1 :
    (∃ (s : State) (d : Desc), (s.takes d 0x20 (((List.range 6).map fun i => ([16, 17, 18, 20, 24].getD (i - 1) 16, decide (i = 0 ∨ phaseCheck ((d.bytes.drop 16).take 16) ≠ i))) ++ descReserved d 32 32) = true) ∧ (s.auxJob s.host.nextAseq = none) ∧ (s.aux.jobs.all (fun x => decide (x.ring ≠ d.ring)) = true) ∧ (s.groupReady (s.auxOf d).phases = true)) ∧
    (∃ (s : State) (d : Desc), (s.takes d 0x20 (((List.range 6).map fun i => ([16, 17, 18, 20, 24].getD (i - 1) 16, decide (i = 0 ∨ phaseCheck ((d.bytes.drop 16).take 16) ≠ i))) ++ descReserved d 32 32) = true) ∧ (s.auxJob s.host.nextAseq = none) ∧ (s.aux.jobs.all (fun x => decide (x.ring ≠ d.ring)) = false ∨ (s.groupLocked (s.auxOf d).phases = false ∧ s.groupWaits (s.auxOf d).phases = true))) ∧
    (∃ (s : State) (d : Desc), (s.takes d 0x20 (((List.range 6).map fun i => ([16, 17, 18, 20, 24].getD (i - 1) 16, decide (i = 0 ∨ phaseCheck ((d.bytes.drop 16).take 16) ≠ i))) ++ descReserved d 32 32) = true) ∧ (s.auxJob s.host.nextAseq = none) ∧ (s.aux.jobs.all (fun x => decide (x.ring ≠ d.ring)) = true) ∧ (s.groupLocked (s.auxOf d).phases = true)) ∧
    (∃ (s : State) (d : Desc) (p : AuxPhase) (f : Nat × List (Nat × Nat)), (s.takes d 0x20 (((List.range 6).map fun i => ([16, 17, 18, 20, 24].getD (i - 1) 16, decide (i = 0 ∨ phaseCheck ((d.bytes.drop 16).take 16) ≠ i))) ++ descReserved d 32 32) = true) ∧ (s.auxJob s.host.nextAseq = none) ∧ (s.aux.jobs.all (fun x => decide (x.ring ≠ d.ring)) = true) ∧ ((s.auxOf d).phases = [p]) ∧ (s.groupLocked [p] = false ∧ s.groupWaits [p] = false) ∧ (s.phaseFault p (s.phaseTable p) = some f)) ∧
    (∃ (s : State) (d : Desc), (s.takes d 0x21 ([(24, decide (1 ≤ d.field 24 1 ∧ d.field 24 1 ≤ 8)), (25, decide (d.field 25 1 < 2))] ++ descReserved d 26 2 ++ descReserved d 32 32) = true) ∧ (bitAt (d.field 25 1) 0 = true → s.dramRangeOk (d.field 16 8) (16 * d.field 24 1) = true) ∧ (listFault 0 [] (s.phaseEntries (d.field 16 8) (d.field 24 1) (bitAt (d.field 25 1) 0)) = none) ∧ (s.auxJob s.host.nextAseq = none) ∧ (s.aux.jobs.all (fun x => decide (x.ring ≠ d.ring)) = true) ∧ (s.groupReady (s.recoatOf d).phases = true)) ∧
    (∃ (s : State) (d : Desc), (s.takes d 0x21 ([(24, decide (1 ≤ d.field 24 1 ∧ d.field 24 1 ≤ 8)), (25, decide (d.field 25 1 < 2))] ++ descReserved d 26 2 ++ descReserved d 32 32) = true) ∧ (bitAt (d.field 25 1) 0 = true → s.dramRangeOk (d.field 16 8) (16 * d.field 24 1) = true) ∧ (listFault 0 [] (s.phaseEntries (d.field 16 8) (d.field 24 1) (bitAt (d.field 25 1) 0)) = none) ∧ (s.auxJob s.host.nextAseq = none) ∧ (s.aux.jobs.all (fun x => decide (x.ring ≠ d.ring)) = false ∨ (s.groupLocked (s.recoatOf d).phases = false ∧ s.groupWaits (s.recoatOf d).phases = true))) ∧
    (∃ (s : State) (d : Desc), (s.takes d 0x21 ([(24, decide (1 ≤ d.field 24 1 ∧ d.field 24 1 ≤ 8)), (25, decide (d.field 25 1 < 2))] ++ descReserved d 26 2 ++ descReserved d 32 32) = true) ∧ (bitAt (d.field 25 1) 0 = true → s.dramRangeOk (d.field 16 8) (16 * d.field 24 1) = true) ∧ (listFault 0 [] (s.phaseEntries (d.field 16 8) (d.field 24 1) (bitAt (d.field 25 1) 0)) = none) ∧ (s.auxJob s.host.nextAseq = none) ∧ (s.aux.jobs.all (fun x => decide (x.ring ≠ d.ring)) = true) ∧ (s.groupLocked (s.recoatOf d).phases = true)) :=
  ⟨⟨(ringState).puts [(Reg.AUX_STATUS_STATE 2, 1), (Reg.AUX_VMAX_LIMIT 2, 1000)], ⟨5, leBytes 8 0x20 ++ leBytes 8 0 ++ leBytes 1 2 ++ leBytes 7 2 ++ leBytes 8 100 ++ leBytes 32 0⟩, by decide +kernel⟩,
   ⟨ringState, ⟨5, leBytes 8 0x20 ++ leBytes 8 0 ++ leBytes 1 2 ++ leBytes 7 2 ++ leBytes 8 100 ++ leBytes 32 0⟩, by decide +kernel⟩,
   ⟨((ringState).puts [(Reg.AUX_STATUS_STATE 2, 1), (Reg.AUX_VMAX_LIMIT 2, 1000)]).puts [(Reg.AUX_CFG_EXPOSE_LOCK 2, 1), (Reg.EXP_STATE_STATE, 4)], ⟨5, leBytes 8 0x20 ++ leBytes 8 0 ++ leBytes 1 2 ++ leBytes 7 2 ++ leBytes 8 100 ++ leBytes 32 0⟩, by decide +kernel⟩,
   ⟨ringState.puts [(Reg.AUX_STATUS_STATE 2, 1), (Reg.AUX_VMAX_LIMIT 2, 0xFFFFFFFF)], ⟨5, leBytes 8 0x20 ++ leBytes 8 0 ++ leBytes 1 2 ++ leBytes 7 2 ++ leBytes 8 100 ++ leBytes 32 0⟩, ⟨2, 2, false, 0, 100, 0, 0⟩, (0x0C0B, [(4, 0xFFFFFFFF), (4, 2500000)]), by decide +kernel⟩,
   ⟨(recoatState).puts [(Reg.AUX_STATUS_STATE 2, 1), (Reg.AUX_VMAX_LIMIT 2, 1000)], ⟨5, leBytes 8 0x21 ++ leBytes 8 0 ++ leBytes 8 0x9000 ++ leBytes 4 1 ++ leBytes 4 12 ++ leBytes 32 0⟩, by decide +kernel⟩,
   ⟨recoatState, ⟨5, leBytes 8 0x21 ++ leBytes 8 0 ++ leBytes 8 0x9000 ++ leBytes 4 1 ++ leBytes 4 12 ++ leBytes 32 0⟩, by decide +kernel⟩,
   ⟨((recoatState).puts [(Reg.AUX_STATUS_STATE 2, 1), (Reg.AUX_VMAX_LIMIT 2, 1000)]).puts [(Reg.AUX_CFG_EXPOSE_LOCK 2, 1), (Reg.EXP_STATE_STATE, 4)], ⟨5, leBytes 8 0x21 ++ leBytes 8 0 ++ leBytes 8 0x9000 ++ leBytes 4 1 ++ leBytes 4 12 ++ leBytes 32 0⟩, by decide +kernel⟩⟩

theorem witness_axis_jobs_2 :
    (∃ (s : State) (d : Desc) (f : Nat × Nat), (s.takes d 0x21 ([(24, decide (1 ≤ d.field 24 1 ∧ d.field 24 1 ≤ 8)), (25, decide (d.field 25 1 < 2))] ++ descReserved d 26 2 ++ descReserved d 32 32) = true) ∧ (s.auxJob s.host.nextAseq = none) ∧ (bitAt (d.field 25 1) 0 = true → s.dramRangeOk (d.field 16 8) (16 * d.field 24 1) = true) ∧ (listFault 0 [] (s.phaseEntries (d.field 16 8) (d.field 24 1) (bitAt (d.field 25 1) 0)) = some f)) ∧
    (∃ (s : State) (d : Desc), (s.takes d 0x21 ([(24, decide (1 ≤ d.field 24 1 ∧ d.field 24 1 ≤ 8)), (25, decide (d.field 25 1 < 2))] ++ descReserved d 26 2 ++ descReserved d 32 32) = true) ∧ (bitAt (d.field 25 1) 0 = true) ∧ (s.dramRangeOk (d.field 16 8) (16 * d.field 24 1) = false) ∧ (d.field 8 8 < 2 ^ 64 - 64)) ∧
    (∃ (s : State) (aseq : Word) (j : AuxJob), (s.auxJob aseq.toNat = some j) ∧ (j.held = none) ∧ (s.auxTurn j = true) ∧ (s.groupReady j.phases = true)) ∧
    (∃ (s : State) (aseq : Word) (j : AuxJob), (s.auxJob aseq.toNat = some j) ∧ (j.held = none) ∧ (s.auxTurn j = false ∨ (s.groupLocked j.phases = false ∧ s.groupWaits j.phases = true) ∨ (s.groupLocked j.phases = true ∧ j.lockRaised = true))) ∧
    (∃ (s : State) (aseq : Word) (j : AuxJob), (s.auxJob aseq.toNat = some j) ∧ (j.held = none) ∧ (s.auxTurn j = true) ∧ (s.groupLocked j.phases = true) ∧ (j.lockRaised = false)) ∧
    (∃ (s : State) (n : Fin 3) (a i : Nat) (j : AuxJob), (s.axisAtEnd n = true) ∧ (s.axisState n ≠ 5) ∧ ((s.axis n).job = some (a, i)) ∧ ((s.axis n).deferred = []) ∧ (s.auxJob a = some j) ∧ (((listModify j.phases i fun p => { p with st := 2 }).all fun p => decide (p.st = 2)) = true) ∧ (n.val < s.aux.axes.length)) ∧
    (∃ (s : State) (n : Fin 3) (a i : Nat) (j : AuxJob), (s.axisAtEnd n = true) ∧ (s.axisState n ≠ 5) ∧ ((s.axis n).job = some (a, i)) ∧ ((s.axis n).deferred = []) ∧ (s.auxJob a = some j) ∧ (((listModify j.phases i fun p => { p with st := 2 }).all fun p => decide (p.st = 2)) = false) ∧ (n.val < s.aux.axes.length)) :=
  ⟨⟨ringState, ⟨5, leBytes 8 0x21 ++ leBytes 8 0 ++ leBytes 8 0x9000 ++ leBytes 4 1 ++ leBytes 4 12 ++ leBytes 32 0⟩, (0, 2), by decide +kernel⟩,
   ⟨ringState, ⟨5, leBytes 8 0x21 ++ leBytes 8 0x4000 ++ leBytes 8 0xFFFFFFFFFFFFFF00 ++ leBytes 4 0x0101 ++ leBytes 4 12 ++ leBytes 32 0⟩, by decide +kernel⟩,
   ⟨jobState ⟨2, 2, false, 0, 100, 0, 0⟩ 1, 5, ⟨5, 4, none, 0, [⟨2, 2, false, 0, 100, 0, 0⟩], none, false, false⟩, by decide +kernel⟩,
   ⟨jobState ⟨2, 2, false, 0, 100, 0, 0⟩ 2, 5, ⟨5, 4, none, 0, [⟨2, 2, false, 0, 100, 0, 0⟩], none, false, false⟩, by decide +kernel⟩,
   ⟨(jobState ⟨1, 2, false, 0, 100, 0, 0⟩ 1).puts [(Reg.EXP_STATE_STATE, 4), (Reg.AUX_CFG_EXPOSE_LOCK 1, 1)], 5, ⟨5, 4, none, 0, [⟨1, 2, false, 0, 100, 0, 0⟩], none, false, false⟩, by decide +kernel⟩,
   ⟨(jobState ⟨2, 2, false, 0, 100, 1, 0⟩ 2).modAxis 2 fun x => { x with job := some (5, 0) }, 2, 5, 0, ⟨5, 4, none, 0, [⟨2, 2, false, 0, 100, 1, 0⟩], none, false, false⟩, by decide +kernel⟩,
   ⟨{ jobState ⟨2, 2, false, 0, 100, 1, 0⟩ 2 with aux := { (jobState ⟨2, 2, false, 0, 100, 1, 0⟩ 2).aux with jobs := [⟨5, 4, none, 0, [⟨2, 2, false, 0, 100, 1, 0⟩, ⟨2, 5, false, 9, 0, 0, 0⟩], none, false, false⟩] } }.modAxis 2 fun x => { x with job := some (5, 0) }, 2, 5, 0, ⟨5, 4, none, 0, [⟨2, 2, false, 0, 100, 1, 0⟩, ⟨2, 5, false, 9, 0, 0, 0⟩], none, false, false⟩, by decide +kernel⟩⟩

theorem witness_axis_jobs_3 :
    (∃ (s : State) (n : Fin 3), (s.axisAtEnd n = true) ∧ (s.axisState n = 5) ∧ ((s.axis n).deferred = []) ∧ (n.val < s.aux.axes.length)) ∧
    (∃ (s : State) (aseq : Word) (j : AuxJob) (l : List AuxPhase), (s.auxJob aseq.toNat = some j) ∧ (l = j.phases.map fun p => if p.kind = 5 ∧ p.st = 1 ∧ p.ends ≤ s.tide then { p with st := 2 } else p) ∧ ((l.all fun p => decide (p.st = 2)) = true) ∧ (l ≠ j.phases)) ∧
    (∃ (s : State) (aseq : Word) (j : AuxJob) (l : List AuxPhase), (s.auxJob aseq.toNat = some j) ∧ (l = j.phases.map fun p => if p.kind = 5 ∧ p.st = 1 ∧ p.ends ≤ s.tide then { p with st := 2 } else p) ∧ ((l.all fun p => decide (p.st = 2)) = false)) ∧
    (∃ (s : State) (n : Fin 3) (a i : Nat) (j : AuxJob), (s.axisBusy n = true) ∧ ((s.axis n).job = some (a, i)) ∧ (s.auxJob a = some j) ∧ (j.ring < 32) ∧ (n.val < s.aux.axes.length) ∧ (s.domainOn 15 = true)) ∧
    (∃ (s : State) (n : Fin 3), (s.axisBusy n = false) ∧ (s.domainOn 15 = true)) ∧
    (∃ (s : State) (n : Fin 3), (s.axisState n = 6) ∧ (n.val < s.aux.axes.length) ∧ (s.domainOn 15 = true)) ∧
    (∃ (s : State) (r : Fin 32) (j : AuxJob), (s.holder r = some j) ∧ ((j.phases.all fun p => decide (s.axisState p.axis = 1)) = false) ∧ (s.domainOn 15 = true)) :=
  ⟨⟨(stepState 0 true).put (Reg.AUX_STATUS_STATE 1) 5, 1, by decide +kernel⟩,
   ⟨jobState ⟨2, 5, false, 1, 0, 1, 0⟩ 1, 5, ⟨5, 4, none, 0, [⟨2, 5, false, 1, 0, 1, 0⟩], none, false, false⟩, [⟨2, 5, false, 1, 0, 2, 0⟩], by decide +kernel⟩,
   ⟨jobState ⟨2, 5, false, 1, 0, 1, 40000000000⟩ 1, 5, ⟨5, 4, none, 0, [⟨2, 5, false, 1, 0, 1, 40000000000⟩], none, false, false⟩, [⟨2, 5, false, 1, 0, 1, 40000000000⟩], by decide +kernel⟩,
   ⟨(jobState ⟨2, 2, false, 0, 100, 1, 0⟩ 2).modAxis 2 fun x => { x with job := some (5, 0) }, 2, 5, 0, ⟨5, 4, none, 0, [⟨2, 2, false, 0, 100, 1, 0⟩], none, false, false⟩, by decide +kernel⟩,
   ⟨up [], 2, by decide +kernel⟩,
   ⟨(stepState 0 true).put (Reg.AUX_STATUS_STATE 1) 6, 1, by decide +kernel⟩,
   ⟨{ jobState ⟨2, 2, false, 0, 100, 0, 0⟩ 5 with aux := { (jobState ⟨2, 2, false, 0, 100, 0, 0⟩ 5).aux with jobs := [⟨5, 4, none, 0, [⟨2, 2, false, 0, 100, 0, 0⟩], some (11, 0x0C0C), false, false⟩] } }, 4, ⟨5, 4, none, 0, [⟨2, 2, false, 0, 100, 0, 0⟩], some (11, 0x0C0C), false, false⟩, by decide +kernel⟩⟩

theorem witness_axis_jobs_4 :
    (∃ (s : State) (r : Fin 32) (j : AuxJob), (s.holder r = some j) ∧ (s.auxJob j.aseq = some j) ∧ (j.phases ≠ []) ∧ (s.auxTurn j = true) ∧ ((j.phases.all fun p => decide (s.axisState p.axis = 1)) = true) ∧ (s.groupReady j.phases = true) ∧ (s.domainOn 15 = true)) ∧
    (∃ (s : State) (r : Fin 32) (j : AuxJob), (s.holder r = some j) ∧ (s.domainOn 15 = true)) ∧
    (∃ (s : State) (d : Instr) (r : Fin 32), (d = .auxHoldRetry r ∨ d = .auxHoldSkip r) ∧ (s.holder r = none) ∧ (s.domainOn 15 = true)) ∧
    (∃ (s : State) (off : BitVec 25) (wide : Bool) (v : BitVec 64) (n : Nat), (axisOf off.toNat [0x30, 0x40, 0x44, 0x48, 0x4C] = some n) ∧ (alignedAccess off.toNat wide = true) ∧ (s.axisState n = flag (s.on (Reg.AUX_CFG_EN n))) ∧ (s.domainOn 15 = true)) ∧
    (∃ (s : State) (off : BitVec 25) (wide : Bool) (v : BitVec 64) (n : Nat), (axisOf off.toNat [0] = some n) ∧ (alignedAccess off.toNat wide = true) ∧ (s.axisState n ≤ 1) ∧ (s.domainOn 15 = true)) ∧
    (∃ (s : State) (off : BitVec 25) (wide : Bool) (v : BitVec 64) (n : Nat), (axisOf off.toNat [0x30, 0x40, 0x44, 0x48, 0x4C] = some n) ∧ (alignedAccess off.toNat wide = true) ∧ (1 < s.axisState n) ∧ (wide = true → off.toNat % 0x1000 ≠ 0x30)) ∧
    (∃ (s : State) (off : BitVec 25) (wide : Bool) (v : BitVec 64) (n : Nat), (axisOf off.toNat [0] = some n) ∧ (wide = false) ∧ (1 < s.axisState n)) :=
  ⟨⟨{ jobState ⟨2, 2, false, 0, 100, 0, 0⟩ 1 with aux := { (jobState ⟨2, 2, false, 0, 100, 0, 0⟩ 1).aux with jobs := [⟨5, 4, none, 0, [⟨2, 2, false, 0, 100, 0, 0⟩], some (11, 0x0C0C), false, false⟩] } }, 4, ⟨5, 4, none, 0, [⟨2, 2, false, 0, 100, 0, 0⟩], some (11, 0x0C0C), false, false⟩, by decide +kernel⟩,
   ⟨{ jobState ⟨2, 2, false, 0, 100, 0, 0⟩ 5 with aux := { (jobState ⟨2, 2, false, 0, 100, 0, 0⟩ 5).aux with jobs := [⟨5, 4, none, 0, [⟨2, 2, false, 0, 100, 0, 0⟩], some (11, 0x0C0C), false, false⟩] } }, 4, ⟨5, 4, none, 0, [⟨2, 2, false, 0, 100, 0, 0⟩], some (11, 0x0C0C), false, false⟩, by decide +kernel⟩,
   ⟨up [], .auxHoldSkip 4, 4, by decide +kernel⟩,
   ⟨up [], 0x00E01040, true, 0x8000000000000064, 1, by decide +kernel⟩,
   ⟨up [], 0x00E01000, true, 0x123450505050C801, 1, by decide +kernel⟩,
   ⟨stepState 0 true, 0x00E01048, true, 0, 1, by decide +kernel⟩,
   ⟨stepState 0 true, 0x00E01000, false, 0, 1, by decide +kernel⟩⟩

theorem witness_axis_jobs_5 :
    (∃ (s : State) (off : BitVec 25) (wide : Bool) (v : BitVec 64) (n : Nat), (axisOf off.toNat [0x04, 0x08, 0x0C] = some n) ∧ (alignedAccess off.toNat wide = true) ∧ (natMem (s.axisState n) [0, 1, 6] = true) ∧ (s.domainOn 15 = true)) ∧
    (∃ (s : State) (off : BitVec 25) (wide : Bool) (v : BitVec 64) (n : Nat) (f : Field) (u : State), (axisOf off.toNat [0x04, 0x08, 0x0C] = some n) ∧ (alignedAccess off.toNat wide = true) ∧ (wide = false) ∧ (f = ⟨off.toNat, 0, 32⟩) ∧ (u = s.writeWord off.toNat (v.setWidth 32)) ∧ (u.get f ≠ s.get f) ∧ (s.axisState n = 3 ∨ (natMem (s.axisState n) [2, 4, 5] = true ∧ off.toNat % 0x1000 ≠ 4 ∧ (s.axis n).a ≠ 0 ∧ (s.axisLimits n).axisStop (s.axis n).v (s.axis n).a < (u.axisLimits n).axisStop (s.axis n).v (s.axis n).a)) ∧ (s.domainOn 15 = true)) ∧
    (∃ (s : State) (off : BitVec 25) (wide : Bool) (v : BitVec 64) (n : Nat) (f : Field) (u : State), (axisOf off.toNat [0x04, 0x08, 0x0C] = some n) ∧ (alignedAccess off.toNat wide = true) ∧ (wide = false) ∧ (f = ⟨off.toNat, 0, 32⟩) ∧ (u = s.writeWord off.toNat (v.setWidth 32)) ∧ (u.get f ≠ 0) ∧ (natMem (s.axisState n) [2, 4, 5] = true) ∧ (off.toNat % 0x1000 = 4 ∨ (s.axis n).a = 0 ∨ (u.axisLimits n).axisStop (s.axis n).v (s.axis n).a ≤ (s.axisLimits n).axisStop (s.axis n).v (s.axis n).a) ∧ (s.domainOn 15 = true)) ∧
    (∃ (s : State) (off : BitVec 25) (wide : Bool) (v : BitVec 64) (n : Nat) (u : State), (axisOf off.toNat [0x10, 0x14, 0x18, 0x1C] = some n) ∧ (alignedAccess off.toNat wide = true) ∧ (s.domainOn 15 = true) ∧ (u = s.writeAny off.toNat wide v) ∧ (s.get (Reg.AUX_POS_REF n) = 0 ∨ (u.getS (Reg.AUX_PMIN_POS n) ≤ s.axisCount n ∧ s.axisCount n ≤ u.getS (Reg.AUX_PMAX_POS n) ∧ (s.axisState n = 2 → u.getS (Reg.AUX_PMIN_POS n) ≤ (s.axis n).target ∧ (s.axis n).target ≤ u.getS (Reg.AUX_PMAX_POS n))))) ∧
    (∃ (s : State) (off : BitVec 25) (wide : Bool) (v : BitVec 64) (n : Nat) (u : State), (axisOf off.toNat [0x10, 0x14, 0x18, 0x1C] = some n) ∧ (alignedAccess off.toNat wide = true) ∧ (u = s.writeAny off.toNat wide v) ∧ (s.get (Reg.AUX_POS_REF n) = 1) ∧ (s.axisCount n < u.getS (Reg.AUX_PMIN_POS n) ∨ u.getS (Reg.AUX_PMAX_POS n) < s.axisCount n)) :=
  ⟨⟨up [], 0x00E01008, true, 0x12300003E80, 1, by decide +kernel⟩,
   ⟨(stepState 0 true).put (Reg.AUX_STATUS_STATE 1) 3, 0x00E01004, false, 16000, 1, ⟨0x00E01004, 0, 32⟩, ((stepState 0 true).put (Reg.AUX_STATUS_STATE 1) 3).writeWord 0x00E01004 16000, by decide +kernel⟩,
   ⟨stepState 0 true, 0x00E01004, false, 16000, 1, ⟨0x00E01004, 0, 32⟩, (stepState 0 true).writeWord 0x00E01004 16000, by decide +kernel⟩,
   ⟨up [(Reg.AUX_POS_REF 1, 1)], 0x00E01018, true, 0x7FFFFFFFFFFF, 1, (up [(Reg.AUX_POS_REF 1, 1)]).writeAny 0x00E01018 true 0x7FFFFFFFFFFF, by decide +kernel⟩,
   ⟨up [(Reg.AUX_POS_REF 1, 1)], 0x00E01010, true, 5, 1, (up [(Reg.AUX_POS_REF 1, 1)]).writeAny 0x00E01010 true 5, by decide +kernel⟩⟩

theorem witness_tide_link_training_1 :
    (∃ (s : State) (p : Fin 3), (s.portState p = 0 ∨ s.portState p = 7) ∧ (s.get Reg.EXP_STATE_STATE = 0 ∨ s.get Reg.EXP_STATE_STATE = 2) ∧ (s.portEnabled p = true) ∧ (s.get Reg.LNS_STATUS_TIDE_LOCK = 1) ∧ (s.domainOn 15 = true) ∧ (s.lanes.loop.any (fun l => decide ((l.1 - 256) / 2 = p.val ∧ 256 ≤ l.1)) = false) ∧ (p.val < s.csc.ports.length)) ∧
    (∃ (s : State) (p : Fin 3) (lane0 lane1 : LaneTrain) (skew : Byte) (device : BitVec 2) (devices : BitVec 3) (spread : Bool), (s.portState p = 1) ∧ (s.adapted (262 + 2 * p) lane0.seen = true ∧ s.adapted (263 + 2 * p) lane1.seen = true) ∧ (p.val < s.csc.ports.length)) ∧
    (∃ (s : State) (p : Fin 3) (lane0 lane1 : LaneTrain) (skew : Byte) (device : BitVec 2) (devices : BitVec 3) (spread : Bool), ((s.portState p = 1 ∧ (s.adapted (262 + 2 * p) lane0.seen = false ∨ s.adapted (263 + 2 * p) lane1.seen = false)) ∨ (s.portState p = 2 ∧ (s.eyeOk lane0 = false ∨ s.eyeOk lane1 = false)) ∨ (s.portState p = 4 ∧ (s.isSlave = true ∨ (s.port p).markers.length < 8)) ∨ (s.portState p = 5 ∧ s.isSlave = false ∧ (s.port p).checks.length < 4))) ∧
    (∃ (s : State) (p : Fin 3) (lane0 lane1 : LaneTrain) (skew : Byte) (device : BitVec 2) (devices : BitVec 3) (spread : Bool), ((s.portState p = 2 ∧ s.eyeOk lane0 = true ∧ s.eyeOk lane1 = true) ∨ (s.portState p = 3 ∧ skew.toNat ≤ 8))) ∧
    (∃ (s : State) (p : Fin 3) (lane0 lane1 : LaneTrain) (skew : Byte) (device : BitVec 2) (devices : BitVec 3) (spread : Bool), (s.portState p = 3 ∧ 8 < skew.toNat)) ∧
    (∃ (s : State) (p : Fin 3) (lane0 lane1 : LaneTrain) (skew : Byte) (device : BitVec 2) (devices : BitVec 3) (spread : Bool) (w : Int), (s.portState p = 4) ∧ (s.isSlave = false) ∧ (8 ≤ (s.port p).markers.length) ∧ (markerSpread (s.port p).markers = false) ∧ (w = onewayOf (s.port p).markers (s.getS (Reg.CSC_SKEW_SKEW p))) ∧ (w ≤ 3600)) ∧
    (∃ (s : State) (p : Fin 3) (lane0 lane1 : LaneTrain) (skew : Byte) (device : BitVec 2) (devices : BitVec 3) (spread : Bool), (s.portState p = 4) ∧ (s.isSlave = false) ∧ (8 ≤ (s.port p).markers.length) ∧ (markerSpread (s.port p).markers = true ∨ 3600 < onewayOf (s.port p).markers (s.getS (Reg.CSC_SKEW_SKEW p)))) ∧
    (∃ (s : State) (p : Fin 3) (lane0 lane1 : LaneTrain) (skew : Byte) (device : BitVec 2) (devices : BitVec 3) (spread : Bool), (s.portState p = 5) ∧ (s.isSlave = true ∨ 4 ≤ (s.port p).checks.length) ∧ ((s.port p).checks.all (fun x => decide (x.natAbs ≤ s.get Reg.CSC_LAT_TOL)) = true) ∧ (spread = false) ∧ (s.get Reg.LNS_REF_CTRL_SSC_APPLIED = 0) ∧ (p.val < s.csc.ports.length)) :=
  ⟨⟨up [(Reg.CSC_CFG_PORT_EN, 2), (Reg.LNS_STATUS_TIDE_LOCK, 1)], 1, by decide +kernel⟩,
   ⟨portIn 1 1, 1, ⟨⟨0, List.replicate 41 0xFFF, 5⟩, false, 30, 80, 0⟩, ⟨⟨0, List.replicate 41 0xFFF, 5⟩, false, 30, 80, 0⟩, 0, 0, 0, false, by decide +kernel⟩,
   ⟨portIn 1 2, 1, ⟨⟨1, [], 5⟩, false, 0, 0, 0⟩, ⟨⟨1, [], 5⟩, false, 0, 0, 0⟩, 0, 0, 0, false, by decide +kernel⟩,
   ⟨portIn 1 3, 1, ⟨⟨0, List.replicate 41 0xFFF, 5⟩, false, 30, 80, 0⟩, ⟨⟨0, List.replicate 41 0xFFF, 5⟩, false, 30, 80, 0⟩, 8, 0, 0, false, by decide +kernel⟩,
   ⟨portIn 1 3, 1, ⟨⟨0, List.replicate 41 0xFFF, 5⟩, false, 30, 80, 0⟩, ⟨⟨0, List.replicate 41 0xFFF, 5⟩, false, 30, 80, 0⟩, 9, 0, 0, false, by decide +kernel⟩,
   ⟨(portIn 1 4).modPort 1 fun c => { c with markers := List.replicate 8 1000 }, 1, ⟨⟨0, List.replicate 41 0xFFF, 5⟩, false, 30, 80, 0⟩, ⟨⟨0, List.replicate 41 0xFFF, 5⟩, false, 30, 80, 0⟩, 9, 0, 0, false, 500, by decide +kernel⟩,
   ⟨(portIn 1 4).modPort 1 fun c => { c with markers := 1021 :: List.replicate 7 1000 }, 1, ⟨⟨0, List.replicate 41 0xFFF, 5⟩, false, 30, 80, 0⟩, ⟨⟨0, List.replicate 41 0xFFF, 5⟩, false, 30, 80, 0⟩, 9, 0, 0, false, by decide +kernel⟩,
   ⟨(portIn 1 5).modPort 1 fun c => { c with checks := List.replicate 4 0 }, 1, ⟨⟨0, List.replicate 41 0xFFF, 5⟩, false, 30, 80, 0⟩, ⟨⟨0, List.replicate 41 0xFFF, 5⟩, false, 30, 80, 0⟩, 9, 1, 2, false, by decide +kernel⟩⟩

theorem witness_tide_link_training_2 :
    (∃ (s : State) (p : Fin 3) (lane0 lane1 : LaneTrain) (skew : Byte) (device : BitVec 2) (devices : BitVec 3) (spread : Bool), (s.portState p = 5) ∧ (s.isSlave = true ∨ 4 ≤ (s.port p).checks.length) ∧ ((s.port p).checks.any (fun x => decide (s.get Reg.CSC_LAT_TOL < x.natAbs)) = true ∨ spread = true ∨ s.get Reg.LNS_REF_CTRL_SSC_APPLIED ≠ 0)) ∧
    (∃ (s : State) (p : Fin 3), ((s.portState p = 1 ∧ s.tide < (s.port p).enteredAt + 4000000) ∨ (s.portState p = 2 ∧ s.tide < (s.port p).enteredAt + 20000000) ∨ 3 ≤ s.portState p)) ∧
    (∃ (s : State) (p : Fin 3), ((s.portState p = 1 ∧ (s.port p).enteredAt + 4000000 ≤ s.tide) ∨ (s.portState p = 2 ∧ (s.port p).enteredAt + 20000000 ≤ s.tide))) ∧
    (∃ (s : State) (p : Fin 3) (dm am as ds : BitVec 64), (s.isSlave = false) ∧ (s.portState p = 4) ∧ ((s.port p).markers.length < 8) ∧ (p.val < s.csc.ports.length)) ∧
    (∃ (s : State) (p : Fin 3) (dm am as ds : BitVec 64), (s.isSlave = true)) ∧
    (∃ (s : State) (h : BitVec 64) (w : BitVec 16), (s.isSlave = true) ∧ (s.portState 0 = 4 ∨ s.portState 0 = 5)) ∧
    (∃ (s : State) (p : Fin 3) (lane : Fin 2) (idle : Bool) (seen : RxSeen), (s.get (Reg.LNS_LANE_RX_ALIGNED (262 + 2 * p + lane)) = 1) ∧ (idle = true ∨ 8 ≤ seen.errors.toNat) ∧ (s.get (Reg.CSC_PORT_LANES p) = 3) ∧ (s.portState p = 6)) ∧
    (∃ (s : State) (p : Fin 3) (lane : Fin 2) (idle : Bool) (seen : RxSeen), (s.get (Reg.LNS_LANE_RX_ALIGNED (262 + 2 * p + lane)) = 1) ∧ (idle = true ∨ 8 ≤ seen.errors.toNat) ∧ (s.get (Reg.CSC_PORT_LANES p) = (if lane = 0 then 1 else 2)) ∧ (s.portState p = 6) ∧ (s.firing = false) ∧ (s.get Reg.EXP_STATE_STATE ≠ 3)) :=
  ⟨⟨((portIn 1 5).modPort 1 fun c => { c with checks := List.replicate 4 0 }).put Reg.LNS_REF_CTRL_SSC_APPLIED 3, 1, ⟨⟨0, List.replicate 41 0xFFF, 5⟩, false, 30, 80, 0⟩, ⟨⟨0, List.replicate 41 0xFFF, 5⟩, false, 30, 80, 0⟩, 9, 1, 2, false, by decide +kernel⟩,
   ⟨portIn 1 2, 1, by decide +kernel⟩,
   ⟨{ portIn 1 2 with tide := 20000000 }, 1, by decide +kernel⟩,
   ⟨portIn 1 4, 1, 100, 1300, 7, 207, by decide +kernel⟩,
   ⟨up [(Reg.CSC_STATUS_SLAVE, 1)], 1, 100, 1300, 7, 207, by decide +kernel⟩,
   ⟨(portIn 0 4).put Reg.CSC_STATUS_SLAVE 1, 123456789, 500, by decide +kernel⟩,
   ⟨(portIn 1 6).puts [(Reg.CSC_PORT_LANES 1, 3), (Reg.LNS_LANE_RX_ALIGNED 264, 1), (Reg.LNS_LANE_RX_ALIGNED 265, 1)], 1, 0, false, ⟨8, [], 0⟩, by decide +kernel⟩,
   ⟨(portIn 1 6).puts [(Reg.CSC_PORT_LANES 1, 1), (Reg.LNS_LANE_RX_ALIGNED 264, 1)], 1, 0, false, ⟨8, [], 0⟩, by decide +kernel⟩⟩

theorem witness_tide_link_training_3 :
    (∃ (s : State) (p : Fin 3) (lane : Fin 2) (idle : Bool) (seen : RxSeen) (st : Strip), (s.get (Reg.LNS_LANE_RX_ALIGNED (262 + 2 * p + lane)) = 1) ∧ (idle = true ∨ 8 ≤ seen.errors.toNat) ∧ (s.get (Reg.CSC_PORT_LANES p) = (if lane = 0 then 1 else 2)) ∧ (s.portState p = 6) ∧ (s.openStrip = some st) ∧ (s.get Reg.EXP_STATE_STATE = 4) ∧ (s.seq.prompt = none)) ∧
    (∃ (s : State) (p : Fin 3) (lane : Fin 2) (idle : Bool) (seen : RxSeen), (s.get (Reg.LNS_LANE_RX_ALIGNED (262 + 2 * p + lane)) = 0 ∨ (idle = false ∧ seen.errors.toNat < 8))) ∧
    (∃ (s : State) (p : Fin 3) (m : CscMsg) (r : List CscMsg), ((s.port p).unacked = m :: r) ∧ (s.portState p = 6) ∧ (m.resends < 3) ∧ (p.val < s.csc.ports.length)) ∧
    (∃ (s : State) (p : Fin 3) (m : CscMsg) (r : List CscMsg), ((s.port p).unacked = m :: r) ∧ (s.portState p = 6) ∧ (3 ≤ m.resends) ∧ (s.firing = false) ∧ (s.get Reg.EXP_STATE_STATE ≠ 3) ∧ (p.val < s.csc.ports.length)) ∧
    (∃ (s : State) (off : BitVec 25) (v : Word), (natMem off.toNat [0x00F00000, 0x00F00020, 0x00F00024, 0x00F00028] = true) ∧ (s.domainOn 15 = true) ∧ (s.get Reg.EXP_STATE_STATE = 2) ∧ (s.box.strips = [])) ∧
    (∃ (s : State) (off : BitVec 25) (v : Word), (natMem off.toNat [0x00F00000, 0x00F00020, 0x00F00024, 0x00F00028] = true) ∧ (s.domainOn 15 = true) ∧ (s.get Reg.EXP_STATE_STATE ≠ 2)) :=
  ⟨⟨{ portIn 1 6 with box := { (portIn 1 6).box with strips := [anOpenStrip] } }.puts [(Reg.CSC_PORT_LANES 1, 1), (Reg.LNS_LANE_RX_ALIGNED 264, 1), (Reg.EXP_STATE_STATE, 4)], 1, 0, false, ⟨8, [], 0⟩, anOpenStrip, by decide +kernel⟩,
   ⟨(portIn 1 6).puts [(Reg.CSC_PORT_LANES 1, 1), (Reg.LNS_LANE_RX_ALIGNED 264, 1)], 1, 0, false, ⟨7, [], 0⟩, by decide +kernel⟩,
   ⟨(portIn 1 6).modPort 1 fun c => { c with unacked := [⟨5, 9, [1], 0⟩] }, 1, ⟨5, 9, [1], 0⟩, [], by decide +kernel⟩,
   ⟨(portIn 1 6).modPort 1 fun c => { c with unacked := [⟨5, 9, [1], 3⟩] }, 1, ⟨5, 9, [1], 3⟩, [], by decide +kernel⟩,
   ⟨up [(Reg.EXP_STATE_STATE, 2)], 0x00F00020, 0x00000010, by decide +kernel⟩,
   ⟨up [(Reg.EXP_STATE_STATE, 4)], 0x00F00020, 0x00000010, by decide +kernel⟩⟩

theorem witness_tide_link_messages_1 :
    (∃ (s : State) (d : Instr) (m : LinkMsg) (typ : Nat), (((typ = 4 ∧ ∃ r rate cause, d = .planMessage m r rate cause) ∨ (typ = 5 ∧ ∃ cause kind tB origin, d = .stopMessage m cause kind tB origin) ∨ (typ = 6 ∧ ∃ c, d = .ctrlMessage m c) ∨ (typ = 8 ∧ ∃ r rate cause, d = .rateMessage m r rate cause) ∨ (typ = 9 ∧ ∃ device strip row side values, d = .haloMessage m device strip row side values))) ∧ (s.portState m.port = 6) ∧ ((s.port m.port).lastSeq.getD typ none = some m.seq.toNat) ∧ (m.port.val < s.csc.ports.length)) ∧
    (∃ (s : State) (m : LinkMsg) (index : BitVec 48) (q h : BitVec 64) (p : Word) (state : Fin 8) (faults : List FrameFault), (s.portState m.port = 6) ∧ (s.isSlave = true) ∧ (s.openStrip = none)) ∧
    (∃ (s : State) (m : LinkMsg) (index : BitVec 48) (q h : BitVec 64) (p : Word) (state : Fin 8) (faults : List FrameFault) (st : Strip) (i : Nat), (s.portState m.port = 6) ∧ (s.isSlave = true) ∧ (s.openStrip = some st) ∧ (s.get Reg.TID_TICK_STATE = 3) ∧ (s.seq.prompt = none) ∧ (s.csc.lastIndex = some i) ∧ (index.toNat ≠ (i + 1) % 2 ^ 48) ∧ (s.get Reg.EXP_STATE_STATE = 4)) ∧
    (∃ (s : State) (m : LinkMsg) (index : BitVec 48) (q h : BitVec 64) (p : Word) (state : Fin 8) (faults : List FrameFault) (st : Strip), (s.portState m.port = 6) ∧ (s.isSlave = true) ∧ (s.openStrip = some st) ∧ (s.get Reg.TID_TICK_STATE = 2 ∨ s.get Reg.TID_TICK_STATE = 3) ∧ (s.seq.prompt = none) ∧ (s.get Reg.TID_TICK_STATE = 3 → s.csc.lastIndex.all (fun i => decide (index.toNat = (i + 1) % 2 ^ 48)) = true)) ∧
    (∃ (s : State) (m : LinkMsg) (head : BitVec 64) (count : BitVec 40) (setpoint : BitVec 64), (s.portState m.port = 6) ∧ (s.isSlave = true)) ∧
    (∃ (s : State) (m : LinkMsg) (r : Word) (rate : BitVec 24) (cause : Byte), (s.portState m.port = 6) ∧ ((s.port m.port).lastSeq.getD 4 none ≠ some m.seq.toNat) ∧ (s.isSlave = true)) ∧
    (∃ (s : State) (m : LinkMsg) (cause : Byte) (kind : Fin 4) (tB : BitVec 64) (origin : BitVec 2), (s.portState m.port = 6) ∧ ((s.port m.port).lastSeq.getD 5 none ≠ some m.seq.toNat) ∧ (s.isSlave = true) ∧ (s.openStrip = none) ∧ (origin.toNat = s.get Reg.CSC_CFG_DEVICE)) ∧
    (∃ (s : State) (m : LinkMsg) (cause : Byte) (kind : Fin 4) (tB : BitVec 64) (origin : BitVec 2) (st : Strip), (s.portState m.port = 6) ∧ ((s.port m.port).lastSeq.getD 5 none ≠ some m.seq.toNat) ∧ (s.isSlave = true) ∧ (s.openStrip = some st) ∧ (s.firing = true) ∧ (s.seq.prompt = none) ∧ (kind = 2) ∧ (origin.toNat ≠ s.get Reg.CSC_CFG_DEVICE) ∧ (hostCause cause.toNat = false)) :=
  ⟨⟨(portIn 1 6).modPort 1 fun c => { c with lastSeq := List.replicate 12 (some 7) }, .ctrlMessage ⟨1, 7, false⟩ .over, ⟨1, 7, false⟩, 6, .inr (.inr (.inl ⟨rfl, _, rfl⟩)), by decide +kernel⟩,
   ⟨slaveState, ⟨0, 0, false⟩, 100, 0, 5, 1000, 3, [], by decide +kernel⟩,
   ⟨{ slaveState with box := { slaveState.box with strips := [anOpenStrip] }, csc := { slaveState.csc with lastIndex := some 5 } }.puts [(Reg.TID_TICK_STATE, 3), (Reg.EXP_STATE_STATE, 4)], ⟨0, 0, false⟩, 100, 7, 5, 1000, 3, [], anOpenStrip, 5, by decide +kernel⟩,
   ⟨{ slaveState with box := { slaveState.box with strips := [anOpenStrip] }, csc := { slaveState.csc with lastIndex := some 99 } }.puts [(Reg.TID_TICK_STATE, 3), (Reg.EXP_STATE_STATE, 4)], ⟨0, 0, false⟩, 100, 7, 5, 1000, 3, [], anOpenStrip, by decide +kernel, by decide +kernel, by decide +kernel, by decide +kernel, by decide +kernel, by decide +kernel⟩,
   ⟨slaveState, ⟨0, 0, false⟩, 100, 5, 7, by decide +kernel⟩,
   ⟨slaveState, ⟨0, 3, false⟩, 0, 1000000, 2, by decide +kernel⟩,
   ⟨slaveState, ⟨0, 3, false⟩, 6, 2, 100, 0, by decide +kernel⟩,
   ⟨{ slaveState with box := { slaveState.box with strips := [anOpenStrip] } }.puts [(Reg.EXP_STATE_STATE, 4)], ⟨0, 3, false⟩, 8, 2, 100, 1, anOpenStrip, by decide +kernel⟩⟩

theorem witness_tide_link_messages_2 :
    (∃ (s : State) (m : LinkMsg) (ta : BitVec 64) (tS : BitVec 48) (st : Strip), (s.portState m.port = 6) ∧ ((s.port m.port).lastSeq.getD 6 none ≠ some m.seq.toNat) ∧ (s.isSlave = true) ∧ (s.openStrip = some st) ∧ (st.slot < s.store.ledger.length)) ∧
    (∃ (s : State) (m : LinkMsg) (field : Byte) (device : BitVec 2) (st : Strip), (s.portState m.port = 6) ∧ ((s.port m.port).lastSeq.getD 6 none ≠ some m.seq.toNat) ∧ (s.isSlave = true) ∧ ((s.box.strips.find? fun st => !st.isOpen) = some st)) ∧
    (∃ (s : State) (m : LinkMsg) (c : CascadeCtrl), (s.portState m.port = 6) ∧ ((s.port m.port).lastSeq.getD 6 none ≠ some m.seq.toNat) ∧ (s.isSlave = false)) ∧
    (∃ (s : State) (m : LinkMsg) (l : Byte), (s.portState m.port = 6) ∧ ((s.port m.port).lastSeq.getD 6 none ≠ some m.seq.toNat) ∧ (s.isSlave = true) ∧ (s.box.strips = [])) ∧
    (∃ (s : State) (m : LinkMsg) (ta te : BitVec 64) (st : Strip), (s.portState m.port = 6) ∧ ((s.port m.port).lastSeq.getD 6 none ≠ some m.seq.toNat) ∧ (s.isSlave = true) ∧ (s.openStrip = none) ∧ (s.box.strips.head? = some st)) ∧
    (∃ (s : State) (m : LinkMsg) (st : Strip), (s.portState m.port = 6) ∧ ((s.port m.port).lastSeq.getD 6 none ≠ some m.seq.toNat) ∧ (s.isSlave = true) ∧ (s.openStrip = some st) ∧ (s.get Reg.EXP_STATE_STATE = 3)) ∧
    (∃ (s : State) (m : LinkMsg) (st : Strip), (s.portState m.port = 6) ∧ ((s.port m.port).lastSeq.getD 6 none ≠ some m.seq.toNat) ∧ (s.isSlave = true) ∧ (s.openStrip = some st) ∧ (3 ≤ s.get Reg.EXP_STATE_STATE)) ∧
    (∃ (s : State) (m : LinkMsg) (lead : Word) (wait : BitVec 15) (temp : BitVec 16) (span : List (BitVec 64)) (pairing : List Word), (s.portState m.port = 6) ∧ (s.isSlave = false) ∧ (s.openStrip = none) ∧ (m.port.val < s.csc.ports.length)) :=
  ⟨⟨{ slaveState with box := { slaveState.box with strips := [anOpenStrip] } }, ⟨0, 3, false⟩, 0, 5000, anOpenStrip, by decide +kernel⟩,
   ⟨{ slaveState with box := { slaveState.box with strips := [{ anOpenStrip with isOpen := false }] } }, ⟨0, 3, false⟩, 2, 1, { anOpenStrip with isOpen := false }, by decide +kernel⟩,
   ⟨portIn 0 6, ⟨0, 3, false⟩, .over, by decide +kernel⟩,
   ⟨slaveState, ⟨0, 3, true⟩, 72, by decide +kernel⟩,
   ⟨{ slaveState with box := { slaveState.box with strips := [{ anOpenStrip with isOpen := false }] } }.put Reg.EXP_STATE_STATE 2, ⟨0, 3, false⟩, 0, 0, { anOpenStrip with isOpen := false }, by decide +kernel⟩,
   ⟨{ slaveState with box := { slaveState.box with strips := [anOpenStrip] } }.put Reg.EXP_STATE_STATE 3, ⟨0, 3, false⟩, anOpenStrip, by decide +kernel⟩,
   ⟨{ slaveState with box := { slaveState.box with strips := [anOpenStrip] } }.put Reg.EXP_STATE_STATE 6, ⟨0, 3, false⟩, anOpenStrip, by decide +kernel⟩,
   ⟨portIn 1 6, ⟨1, 3, false⟩, 7, 2, 0xFFF0, [], [5], by decide +kernel⟩⟩

theorem witness_tide_link_messages_3 :
    (∃ (s : State) (m : LinkMsg) (r : Word) (rate : BitVec 24) (cause : Byte), (s.portState m.port = 6) ∧ ((s.port m.port).lastSeq.getD 8 none ≠ some m.seq.toNat) ∧ (s.box.strips = []) ∧ (cause.toNat ≠ 5) ∧ (m.port.val < s.csc.ports.length)) ∧
    (∃ (s : State) (m : LinkMsg) (device : BitVec 2) (stripId row : Word) (side : Fin 2) (values : List Byte) (st : Strip), (s.portState m.port = 6) ∧ ((s.port m.port).lastSeq.getD 9 none ≠ some m.seq.toNat) ∧ (((device.toNat : Int) + (if side = 0 then -1 else 1)) = s.get Reg.CSC_CFG_DEVICE) ∧ ((s.box.strips.find? fun x => decide (x.stripId = stripId.toNat)) = some st) ∧ (s.stripAt st.slot = some st) ∧ (st.halo.any (fun h => decide (h.1 = 1 - side.val ∧ h.2.1 = row.toNat)) = false)) ∧
    (∃ (s : State) (m : LinkMsg) (device : BitVec 2) (stripId row : Word) (side : Fin 2) (values : List Byte), (s.portState m.port = 6) ∧ ((s.port m.port).lastSeq.getD 9 none ≠ some m.seq.toNat) ∧ (((device.toNat : Int) + (if side = 0 then -1 else 1)) = s.get Reg.CSC_CFG_DEVICE) ∧ ((s.box.strips.find? fun x => decide (x.stripId = stripId.toNat)) = none)) ∧
    (∃ (s : State) (m : LinkMsg) (device : BitVec 2) (stripId row : Word) (side : Fin 2) (values : List Byte) (target : Int), (s.portState m.port = 6) ∧ ((s.port m.port).lastSeq.getD 9 none ≠ some m.seq.toNat) ∧ (s.isSlave = false) ∧ (target = (device.toNat : Int) + (if side = 0 then -1 else 1)) ∧ (target ≠ s.get Reg.CSC_CFG_DEVICE) ∧ ((s.readyPorts.find? fun p => decide (((s.port p).peerDevice : Int) = target)) = none)) ∧
    (∃ (s : State) (m : LinkMsg) (typ seq : Byte), (s.portState m.port = 6) ∧ (m.port.val < s.csc.ports.length)) ∧
    (∃ (s : State) (d : Instr) (m : LinkMsg), (((∃ index q h p state faults, d = .tickMessage m index q h p state faults) ∨ (∃ head count setpoint, d = .sampleMessage m head count setpoint) ∨ (∃ head stamp epoch, d = .timeMessage m head stamp epoch) ∨ (∃ r rate cause, d = .planMessage m r rate cause) ∨ (∃ cause kind tB origin, d = .stopMessage m cause kind tB origin) ∨ (∃ c, d = .ctrlMessage m c) ∨ (∃ lead wait temp span pairing, d = .statusMessage m lead wait temp span pairing) ∨ (∃ r rate cause, d = .rateMessage m r rate cause) ∨ (∃ device strip row side values, d = .haloMessage m device strip row side values) ∨ (∃ typ seq, d = .ackMessage m typ seq))) ∧ (s.portState m.port ≠ 6)) ∧
    (∃ (s : State) (i : Nat) (st : Strip), (s.csc.lastIndex = some i) ∧ (s.isSlave = true) ∧ (s.get Reg.TID_TICK_STATE = 3) ∧ (s.csc.tickAt + (s.csc.lastPeriod + 24) / 25 + 400 ≤ s.tide) ∧ (s.openStrip = some st) ∧ (s.get Reg.EXP_STATE_STATE = 4)) :=
  ⟨⟨portIn 1 6, ⟨1, 3, false⟩, 0, 1000000, 2, by decide +kernel⟩,
   ⟨{ portIn 1 6 with box := { (portIn 1 6).box with strips := [anOpenStrip] } }, ⟨1, 3, false⟩, 1, 77, 3, 0, [1, 2], anOpenStrip, by decide +kernel⟩,
   ⟨portIn 1 6, ⟨1, 3, false⟩, 1, 77, 3, 0, [1, 2], by decide +kernel⟩,
   ⟨portIn 1 6, ⟨1, 3, false⟩, 1, 77, 3, 1, [1, 2], 2, by decide +kernel⟩,
   ⟨(portIn 1 6).modPort 1 fun c => { c with unacked := [⟨5, 9, [1], 0⟩] }, ⟨1, 3, false⟩, 5, 9, by decide +kernel⟩,
   ⟨portIn 1 5, .ctrlMessage ⟨1, 3, false⟩ .over, ⟨1, 3, false⟩, .inr (.inr (.inr (.inr (.inr (.inl ⟨_, rfl⟩))))), by decide +kernel⟩,
   ⟨{ slaveState with tide := 10000, box := { slaveState.box with strips := [anOpenStrip] }, csc := { slaveState.csc with lastIndex := some 5 } }.puts [(Reg.TID_TICK_STATE, 3), (Reg.EXP_STATE_STATE, 4)], 5, anOpenStrip, by decide +kernel⟩⟩

theorem witness_dram_requests_and_refresh_1 :
    (∃ (s : State) (port : Fin 8) (addr : BitVec 64) (data : List Byte) (poison : Bool) (deadline : BitVec 64), (s.get Reg.MEM_STATUS_READY = 1) ∧ (addr.toNat / 64 * 64 + 64 ≤ s.memBytes) ∧ (s.mem.waiting = []) ∧ (s.placeFree ⟨port, addr.toNat / 64, 0, none, false, s.tide, deadline.toNat, false⟩ = true)) ∧
    (∃ (s : State) (port : Fin 8) (addr : BitVec 64) (data : List Byte) (poison : Bool) (deadline : BitVec 64), (s.get Reg.MEM_STATUS_READY = 1) ∧ (addr.toNat % 64 + data.length ≤ 64) ∧ (addr.toNat + data.length ≤ s.memBytes) ∧ (s.mem.waiting = []) ∧ (s.placeFree ⟨port, addr.toNat / 64, addr.toNat % 64, some data, poison, s.tide, deadline.toNat, false⟩ = true)) ∧
    (∃ (s : State) (port : Fin 8) (addr : BitVec 64) (data : List Byte) (poison : Bool) (deadline : BitVec 64), (s.get Reg.MEM_STATUS_READY = 1) ∧ (s.memBytes < addr.toNat / 64 * 64 + 64)) ∧
    (∃ (s : State) (port : Fin 8) (addr : BitVec 64) (data : List Byte) (poison : Bool) (deadline : BitVec 64), (s.get Reg.MEM_STATUS_READY = 1) ∧ (s.memBytes < addr.toNat + data.length)) ∧
    (∃ (s : State) (port : Fin 8) (addr : BitVec 64) (write : Bool) (data : List Byte) (poison : Bool) (deadline : BitVec 64) (r : MemReq), (s.get Reg.MEM_STATUS_READY = 1) ∧ (write = false) ∧ (addr.toNat / 64 * 64 + 64 ≤ s.memBytes) ∧ (s.mem.waiting = []) ∧ (r = ⟨port, addr.toNat / 64, 0, none, false, s.tide, deadline.toNat, false⟩) ∧ (s.placeFree r = false)) ∧
    (∃ (s : State) (port : Fin 8) (addr : BitVec 64) (write : Bool) (data : List Byte) (poison : Bool) (deadline : BitVec 64), (s.get Reg.MEM_STATUS_READY = 0)) ∧
    (∃ (s : State) (ch : Fin 6) (sub : Fin 2) (ready : List Nat) (r : MemReq) (row hits : Nat), (s.get Reg.MEM_STATUS_READY = 1) ∧ ((s.memCh ch).busyUntil ≤ s.tide) ∧ (s.refreshWaits ch = false) ∧ (s.mem.queue = [r]) ∧ (s.mem.flight = [] ∧ s.mem.waiting = []) ∧ (ready = [0]) ∧ (s.reqSub r = 2 * ch.val + sub.val) ∧ (r.data = none) ∧ (r.feed = true ∨ s.draining (s.reqSub r) = false) ∧ ((s.subChannel (s.reqSub r)).openRow (s.bankRow r).1 = some (row, hits)) ∧ (row = (s.bankRow r).2) ∧ (s.reqSub r < s.mem.subs.length)) ∧
    (∃ (s : State) (ch : Fin 6) (sub : Fin 2) (ready : List Nat) (r : MemReq) (d : List Byte) (row hits : Nat), (s.get Reg.MEM_STATUS_READY = 1) ∧ ((s.memCh ch).busyUntil ≤ s.tide) ∧ (s.refreshWaits ch = false) ∧ (s.mem.queue = [r]) ∧ (s.mem.flight = [] ∧ s.mem.waiting = []) ∧ (ready = [0]) ∧ (s.reqSub r = 2 * ch.val + sub.val) ∧ (r.data = some d) ∧ (r.poison = false) ∧ (r.first + d.length ≤ 64) ∧ ((s.subChannel (s.reqSub r)).openRow (s.bankRow r).1 = some (row, hits)) ∧ (row = (s.bankRow r).2) ∧ (s.reqSub r < s.mem.subs.length)) :=
  ⟨⟨memState, 3, 0x12345, [], false, 0, by decide +kernel⟩,
   ⟨memState, 3, 0x12345, [1, 2], true, 0, by decide +kernel⟩,
   ⟨memState, 3, 0x7000000000, [], false, 0, by decide +kernel⟩,
   ⟨memState, 3, 0x5FFFFFFFFF, [1, 2], false, 0, by decide +kernel⟩,
   ⟨{ memState with mem := { memState.mem with flight := List.replicate 256 ⟨3, 4, 0, none, false, 0, 0, false⟩ } }, 3, 0x100, false, [], false, 0, ⟨3, 4, 0, none, false, 0, 0, false⟩, by decide +kernel⟩,
   ⟨up [], 3, 0, false, [], false, 0, by decide +kernel⟩,
   ⟨pickState ⟨3, 0, 0, none, false, 0, 0, false⟩ [(0, 0, 4)], 0, 0, [0], ⟨3, 0, 0, none, false, 0, 0, false⟩, 0, 4, by decide +kernel⟩,
   ⟨pickState ⟨3, 0, 5, some [7, 8], false, 0, 0, false⟩ [(0, 0, 4)], 0, 0, [0], ⟨3, 0, 5, some [7, 8], false, 0, 0, false⟩, [7, 8], 0, 4, by decide +kernel⟩⟩

theorem witness_dram_requests_and_refresh_2 :
    (∃ (s : State) (ch : Fin 6) (sub : Fin 2) (ready : List Nat) (r : MemReq), (s.get Reg.MEM_STATUS_READY = 1) ∧ ((s.memCh ch).busyUntil ≤ s.tide) ∧ (s.refreshWaits ch = false) ∧ (s.mem.queue = [r]) ∧ (s.mem.flight = []) ∧ (ready = [0]) ∧ (s.reqSub r = 2 * ch.val + sub.val) ∧ (r.data ≠ none ∨ r.feed = true ∨ s.draining (s.reqSub r) = false) ∧ ((s.subChannel (s.reqSub r)).openRow (s.bankRow r).1 = none) ∧ (s.reqSub r < s.mem.subs.length)) ∧
    (∃ (s : State) (ch : Fin 6) (sub : Fin 2) (ready : List Nat), (s.get Reg.MEM_STATUS_READY = 1) ∧ ((s.memCh ch).busyUntil ≤ s.tide) ∧ (s.refreshWaits ch = false) ∧ (ready = [])) ∧
    (∃ (s : State) (ch : Fin 6) (sub : Fin 2) (ready : List Nat) (r : MemReq) (row hits : Nat), (s.get Reg.MEM_STATUS_READY = 1) ∧ ((s.memCh ch).busyUntil ≤ s.tide) ∧ (s.refreshWaits ch = false) ∧ (s.mem.queue = [r]) ∧ (s.mem.flight = []) ∧ (ready = [0]) ∧ (s.reqSub r = 2 * ch.val + sub.val) ∧ (r.data ≠ none ∨ r.feed = true ∨ s.draining (s.reqSub r) = false) ∧ ((s.subChannel (s.reqSub r)).openRow (s.bankRow r).1 = some (row, hits)) ∧ (row ≠ (s.bankRow r).2) ∧ (s.reqSub r < s.mem.subs.length)) ∧
    (∃ (s : State) (ch : Fin 6) (sub : Fin 2) (ready : List Nat), (s.get Reg.MEM_STATUS_READY = 0 ∨ s.tide < (s.memCh ch).busyUntil)) ∧
    (∃ (s : State) (ch : Fin 6) (sub : Fin 2) (ready : List Nat), (s.get Reg.MEM_STATUS_READY = 1) ∧ ((s.memCh ch).busyUntil ≤ s.tide) ∧ (s.refreshWaits ch = true) ∧ (s.get Reg.MEM_REF_MODE = 0) ∧ (ch.val < s.mem.channels.length)) ∧
    (∃ (s : State) (n : Nat) (r : MemReq), (s.mem.queue[n]? = some r) ∧ (r.feed = true ∨ r.aged = true ∨ 10 * (s.tide - r.at') / 4 ≤ 8 * s.get (Reg.MEM_PORT_TGT_NS r.port))) ∧
    (∃ (s : State) (n : Nat) (r : MemReq), (s.mem.queue[n]? = some r) ∧ (r.feed = false) ∧ (r.aged = false) ∧ (8 * s.get (Reg.MEM_PORT_TGT_NS r.port) < 10 * (s.tide - r.at') / 4) ∧ (s.mem.lateAt.getD r.port none = none) ∧ (r.port < s.mem.lateAt.length)) ∧
    (∃ (s : State) (n : Nat) (r : MemReq) (at' : Nat), (s.mem.queue[n]? = some r) ∧ (r.feed = false) ∧ (r.aged = false) ∧ (8 * s.get (Reg.MEM_PORT_TGT_NS r.port) < 10 * (s.tide - r.at') / 4) ∧ (s.mem.lateAt.getD r.port none = some at') ∧ (s.tide - at' < 400000000)) :=
  ⟨⟨pickState ⟨3, 0, 0, none, false, 0, 0, false⟩ [], 0, 0, [0], ⟨3, 0, 0, none, false, 0, 0, false⟩, by decide +kernel⟩,
   ⟨pickState ⟨3, 0, 0, none, false, 0, 0, false⟩ [], 0, 0, [], by decide +kernel⟩,
   ⟨pickState ⟨3, 0, 0, none, false, 0, 0, false⟩ [(0, 9, 4)], 0, 0, [0], ⟨3, 0, 0, none, false, 0, 0, false⟩, 9, 4, by decide +kernel⟩,
   ⟨{ memState.modMemCh 2 fun x => { x with busyUntil := 100 } with tide := 99 }, 2, 0, [], by decide +kernel⟩,
   ⟨memState, 2, 0, [], by decide +kernel⟩,
   ⟨pickState ⟨0, 0, 0, none, false, 0, 0, false⟩ [], 0, ⟨0, 0, 0, none, false, 0, 0, false⟩, by decide +kernel⟩,
   ⟨pickState ⟨3, 0, 0, none, false, 0, 0, false⟩ [], 0, ⟨3, 0, 0, none, false, 0, 0, false⟩, by decide +kernel⟩,
   ⟨let x := pickState ⟨3, 0, 0, none, false, 0, 0, false⟩ []; { x with mem := { x.mem with lateAt := listSet x.mem.lateAt 3 (some 99999) } }, 0, ⟨3, 0, 0, none, false, 0, 0, false⟩, 99999, by decide +kernel⟩⟩

theorem witness_dram_requests_and_refresh_3 :
    (∃ (s : State) (n : Nat), (s.mem.queue[n]? = none)) ∧
    (∃ (s : State) (ch : Fin 6), (s.get Reg.MEM_STATUS_READY = 1) ∧ ((s.memCh ch).nextRef ≤ s.tide) ∧ (s.get Reg.MEM_REF_MODE = 0) ∧ (ch.val < s.mem.channels.length)) ∧
    (∃ (s : State) (ch : Fin 6), (s.get Reg.MEM_STATUS_READY = 1) ∧ ((s.memCh ch).nextRef ≤ s.tide) ∧ (s.get Reg.MEM_REF_MODE = 1) ∧ ((s.memCh ch).owed + 1 < s.postponeLimit ch) ∧ (ch.val < s.mem.channels.length)) ∧
    (∃ (s : State) (ch : Fin 6), (s.get Reg.MEM_STATUS_READY = 1) ∧ ((s.memCh ch).nextRef ≤ s.tide) ∧ (s.get Reg.MEM_REF_MODE = 1) ∧ (s.postponeLimit ch ≤ (s.memCh ch).owed + 1) ∧ (ch.val < s.mem.channels.length)) ∧
    (∃ (s : State) (ch : Fin 6), (s.refreshWaits ch = false)) ∧
    (∃ (s : State) (ch : Fin 6), (0 < (s.memCh ch).owed) ∧ (s.postponeLimit ch ≤ (s.memCh ch).owed ∨ s.channelIdle ch = true) ∧ (ch.val < s.mem.channels.length)) ∧
    (∃ (s : State) (ch : Fin 6), ((s.memCh ch).owed = 0 ∨ ((s.memCh ch).owed < s.postponeLimit ch ∧ s.channelIdle ch = false))) ∧
    (∃ (s : State) (ch : Fin 6) (hot : Bool) (device : Byte), (s.get Reg.MEM_STATUS_READY = 1) ∧ (hot = true) ∧ (bitAt (s.get Reg.MEM_STATUS_HOT) ch = false) ∧ (ch.val < s.mem.channels.length)) :=
  ⟨⟨memState, 0, by decide +kernel⟩,
   ⟨memState, 2, by decide +kernel⟩,
   ⟨memState.puts [(Reg.MEM_REF_MODE, 1), (Reg.MEM_REF_POSTPONE_MAX, 8)], 2, by decide +kernel⟩,
   ⟨(memState.puts [(Reg.MEM_REF_MODE, 1), (Reg.MEM_REF_POSTPONE_MAX, 4)]).modMemCh 2 fun x => { x with owed := 3 }, 2, by decide +kernel⟩,
   ⟨up [], 2, by decide +kernel⟩,
   ⟨memState.modMemCh 2 fun x => { x with owed := 3 }, 2, by decide +kernel⟩,
   ⟨memState, 2, by decide +kernel⟩,
   ⟨memState, 2, true, 3, by decide +kernel⟩⟩

theorem witness_dram_requests_and_refresh_4 :
    (∃ (s : State) (ch : Fin 6) (hot : Bool) (device : Byte), (s.get Reg.MEM_STATUS_READY = 1) ∧ (bitAt (s.get Reg.MEM_STATUS_HOT) ch = true) ∧ (hot = true ∨ (s.memCh ch).cool = 0) ∧ (ch.val < s.mem.channels.length)) ∧
    (∃ (s : State) (ch : Fin 6) (hot : Bool) (device : Byte), (s.get Reg.MEM_STATUS_READY = 0 ∨ (hot = false ∧ bitAt (s.get Reg.MEM_STATUS_HOT) ch = false))) ∧
    (∃ (s : State) (ch : Fin 6) (hot : Bool) (device : Byte), (s.get Reg.MEM_STATUS_READY = 1) ∧ (hot = false) ∧ (bitAt (s.get Reg.MEM_STATUS_HOT) ch = true) ∧ ((s.memCh ch).cool = 1) ∧ (ch.val < s.mem.channels.length)) ∧
    (∃ (s : State) (v : Word), (s.domainOn 12 = true) ∧ (s.get Reg.MEM_REF_MODE = 0 ∨ v.getLsbD 31 = true)) ∧
    (∃ (s : State) (v : Word), (s.domainOn 12 = true) ∧ (s.get Reg.MEM_REF_MODE = 1) ∧ (v.getLsbD 31 = false)) :=
  ⟨⟨(memState.put Reg.MEM_STATUS_HOT 4).modMemCh 2 fun x => { x with cool := 1 }, 2, true, 0, by decide +kernel⟩,
   ⟨memState, 2, false, 0, by decide +kernel⟩,
   ⟨(memState.put Reg.MEM_STATUS_HOT 4).modMemCh 2 fun x => { x with cool := 1 }, 2, false, 0, by decide +kernel⟩,
   ⟨memState, 0x80000004, by decide +kernel⟩,
   ⟨(memState.put Reg.MEM_REF_MODE 1).modMemCh 2 fun x => { x with owed := 3 }, 4, by decide +kernel⟩⟩

theorem witness_dram_training_1 :
    (∃ (s : State) (ch : Fin 6) (rank : Fin 2) (config : Option (Byte × Word)) (passed : Bool) (lane : Byte) (mask0 mask1 : BitVec 40) (lanes : List Word), (s.get Reg.MEM_STATUS_TRAINING = 1) ∧ ((s.memCh ch).trained = 0) ∧ (s.get (Reg.MEM_TRN_STATE_RESULT ch) = 0) ∧ (s.get (Reg.MEM_TRN_STATE_RANK ch) = rank.val) ∧ (ch.val < s.mem.channels.length) ∧ (s.mem.heldRate = none) ∧ (s.get (Reg.MEM_TRN_STATE_STEP ch) = 1 → config = none ∧ s.mem.density ≠ 3) ∧ (passed = true) ∧ (rank.val < s.mem.ranks)) ∧
    (∃ (s : State) (ch : Fin 6) (rank : Fin 2) (config : Option (Byte × Word)) (passed : Bool) (lane : Byte) (mask0 mask1 : BitVec 40) (lanes : List Word), (s.get Reg.MEM_STATUS_TRAINING = 1) ∧ ((s.memCh ch).trained = 0) ∧ (s.get (Reg.MEM_TRN_STATE_RESULT ch) = 0) ∧ (s.get (Reg.MEM_TRN_STATE_RANK ch) = rank.val) ∧ (ch.val < s.mem.channels.length) ∧ (s.mem.heldRate = none) ∧ (s.get (Reg.MEM_TRN_STATE_STEP ch) = 1 → config = none ∧ s.mem.density ≠ 3) ∧ (passed = true) ∧ (rank.val = s.mem.ranks) ∧ (s.get (Reg.MEM_TRN_STATE_STEP ch) < 9)) ∧
    (∃ (s : State) (ch : Fin 6) (rank : Fin 2) (config : Option (Byte × Word)) (passed : Bool) (lane : Byte) (mask0 mask1 : BitVec 40) (lanes : List Word), (s.get Reg.MEM_STATUS_TRAINING = 1) ∧ ((s.memCh ch).trained = 0) ∧ (s.get (Reg.MEM_TRN_STATE_RESULT ch) = 0) ∧ (s.get (Reg.MEM_TRN_STATE_RANK ch) = rank.val) ∧ (ch.val < s.mem.channels.length) ∧ (s.mem.heldRate = none) ∧ (s.get (Reg.MEM_TRN_STATE_STEP ch) = 1 → config = none ∧ s.mem.density ≠ 3) ∧ (passed = true) ∧ (rank.val = s.mem.ranks) ∧ (s.get (Reg.MEM_TRN_STATE_STEP ch) = 9) ∧ ((List.range 6).all (fun c => decide (c = ch.val ∨ (s.memCh c).trained ≠ 0)) = true)) ∧
    (∃ (s : State) (ch : Fin 6) (rank : Fin 2) (config : Option (Byte × Word)) (passed : Bool) (lane : Byte) (mask0 mask1 : BitVec 40) (lanes : List Word), (s.get Reg.MEM_STATUS_TRAINING = 1) ∧ ((s.memCh ch).trained = 0) ∧ (s.get (Reg.MEM_TRN_STATE_RESULT ch) = 0) ∧ (s.get (Reg.MEM_TRN_STATE_RANK ch) = rank.val) ∧ (ch.val < s.mem.channels.length) ∧ (s.mem.heldRate = none) ∧ (s.get (Reg.MEM_TRN_STATE_STEP ch) = 1 → config = none ∧ s.mem.density ≠ 3) ∧ (passed = false) ∧ (s.get (Reg.MEM_TRN_STATE_ATTEMPT ch) < 3)) ∧
    (∃ (s : State) (ch : Fin 6) (rank : Fin 2) (config : Option (Byte × Word)) (passed : Bool) (lane : Byte) (mask0 mask1 : BitVec 40) (lanes : List Word), (s.get Reg.MEM_STATUS_TRAINING = 1) ∧ ((s.memCh ch).trained = 0) ∧ (s.get (Reg.MEM_TRN_STATE_RESULT ch) = 0) ∧ (s.get (Reg.MEM_TRN_STATE_RANK ch) = rank.val) ∧ (ch.val < s.mem.channels.length) ∧ (s.mem.heldRate = none) ∧ (s.get (Reg.MEM_TRN_STATE_STEP ch) = 1 → config = none ∧ s.mem.density ≠ 3) ∧ (passed = false) ∧ (s.get (Reg.MEM_TRN_STATE_ATTEMPT ch) = 3)) ∧
    (∃ (s : State) (ch : Fin 6) (rank : Fin 2) (config : Option (Byte × Word)) (passed : Bool) (lane : Byte) (mask0 mask1 : BitVec 40) (lanes : List Word), (s.get Reg.MEM_STATUS_TRAINING = 1) ∧ ((s.memCh ch).trained = 0) ∧ (s.get (Reg.MEM_TRN_STATE_RESULT ch) = 0) ∧ (s.get (Reg.MEM_TRN_STATE_RANK ch) = rank.val) ∧ (ch.val < s.mem.channels.length) ∧ (s.mem.heldRate = none) ∧ (s.get (Reg.MEM_TRN_STATE_STEP ch) = 1) ∧ (config ≠ none ∨ s.mem.density = 3)) ∧
    (∃ (s : State) (ch : Fin 6) (rank : Fin 2) (config : Option (Byte × Word)) (passed : Bool) (lane : Byte) (mask0 mask1 : BitVec 40) (lanes : List Word) (rate : Nat), (s.get Reg.MEM_STATUS_TRAINING = 1) ∧ ((s.memCh ch).trained = 0) ∧ (s.get (Reg.MEM_TRN_STATE_RESULT ch) = 0) ∧ (s.get (Reg.MEM_TRN_STATE_RANK ch) = rank.val) ∧ (ch.val < s.mem.channels.length) ∧ (s.mem.heldRate = some rate) ∧ ((List.range 6).all (fun c => decide (c = ch.val ∨ (s.memCh c).trained ≠ 0 ∨ s.get (Reg.MEM_TRN_STATE_RESULT c) ≠ 0)) = true) ∧ (rate < 4)) ∧
    (∃ (s : State) (ch : Fin 6) (rank : Fin 2) (config : Option (Byte × Word)) (passed : Bool) (lane : Byte) (mask0 mask1 : BitVec 40) (lanes : List Word), (s.get Reg.MEM_STATUS_TRAINING = 0 ∨ (s.memCh ch).trained ≠ 0 ∨ s.get (Reg.MEM_TRN_STATE_RESULT ch) ≠ 0 ∨ s.get (Reg.MEM_TRN_STATE_RANK ch) ≠ rank.val)) :=
  ⟨⟨{ trainState with mem := { trainState.mem with ranks := 1 } }, 2, 0, none, true, 0, 5, 0, [9], by decide +kernel⟩,
   ⟨trainState, 2, 0, none, true, 0, 5, 0, [9], by decide +kernel⟩,
   ⟨(lastTraining).put (Reg.MEM_TRN_STATE_STEP 2) 9, 2, 0, none, true, 0, 5, 0, [9], by decide +kernel⟩,
   ⟨trainState, 2, 0, none, false, 0, 5, 0, [9], by decide +kernel⟩,
   ⟨trainState.put (Reg.MEM_TRN_STATE_ATTEMPT 2) 3, 2, 0, none, false, 0, 5, 0, [9], by decide +kernel⟩,
   ⟨trainState, 2, 0, some (3, 7), true, 0, 5, 0, [9], by decide +kernel⟩,
   ⟨let x := lastTraining; { x with mem := { x.mem with heldRate := some 1 } }, 2, 0, none, true, 0, 5, 0, [9], 1, by decide +kernel⟩,
   ⟨memState, 2, 0, none, true, 0, 5, 0, [9], by decide +kernel⟩⟩

theorem witness_dram_training_2 :
    (∃ (s : State), (s.mem.initialising = true)) ∧
    (∃ (s : State), (s.mem.initialising = false)) ∧
    (∃ (s : State), (s.mem.retrainAsked = true) ∧ (s.get Reg.MEM_STATUS_TRAINING = 0) ∧ (s.get Reg.EXP_STATE_STATE = 2) ∧ (s.box.strips = []) ∧ (s.jobsInDram = false) ∧ (s.hcr.run = none) ∧ (s.hcr.cal = none)) ∧
    (∃ (s : State), (s.mem.retrainAsked = false ∨ s.get Reg.MEM_STATUS_TRAINING = 1 ∨ s.get Reg.EXP_STATE_STATE ≠ 2 ∨ s.box.strips ≠ [] ∨ s.jobsInDram = true ∨ s.hcr.run ≠ none ∨ s.hcr.cal ≠ none)) ∧
    (∃ (s : State) (v : Word), (s.domainOn 12 = true)) ∧
    (∃ (s : State) (v : Word), (s.domainOn 12 = true) ∧ (s.get Reg.MEM_STATUS_TRAINING = 0)) ∧
    (∃ (s : State) (v : Word), (s.domainOn 12 = true) ∧ (s.get Reg.MEM_STATUS_TRAINING = 1) ∧ (s.mem.initialising = false) ∧ (v.toNat % 4 ≠ 3) ∧ (v.toNat % 4 ≠ s.get Reg.MEM_CFG_RATE)) :=
  ⟨⟨{ trainState with mem := { trainState.mem with initialising := true } }, by decide +kernel⟩,
   ⟨trainState, by decide +kernel⟩,
   ⟨let x := memState.puts [(Reg.MEM_CTRL_RETRAIN, 1), (Reg.EXP_STATE_STATE, 2)]; { x with mem := { x.mem with retrainAsked := true } }, by decide +kernel⟩,
   ⟨memState, by left; decide +kernel⟩,
   ⟨memState, 0x80000000, by decide +kernel⟩,
   ⟨memState, 1, by decide +kernel⟩,
   ⟨trainState, 1, by decide +kernel⟩⟩

theorem witness_decoded_reads_and_repairs_1 :
    (∃ (s : State) (addr : BitVec 64) (errors : List (Fin 80 × Byte)) (consumer : Option Byte) (r : MemReq), ((s.mem.flight.find? fun q => decide (q.burst = addr.toNat / 64)) = some r) ∧ (errors = []) ∧ (s.outcomeOf (addr.toNat / 64) = .clean) ∧ (s.mem.waiting = [])) ∧
    (∃ (s : State) (addr : BitVec 64) (errors : List (Fin 80 × Byte)) (consumer : Option Byte) (r : MemReq) (p : List Nat), ((s.mem.flight.find? fun q => decide (q.burst = addr.toNat / 64)) = some r) ∧ (errors = []) ∧ (s.outcomeOf (addr.toNat / 64) = .corrected p) ∧ (s.mem.repairs = [] ∧ s.mem.sweeps = [] ∧ s.mem.waiting = []) ∧ (s.get Reg.INT_CTRL_AUTO_ERASE = 0 ∨ s.mem.devCounts = [] ∧ 1 < s.get Reg.INT_CTRL_ERASE_THRESH)) ∧
    (∃ (s : State) (addr : BitVec 64) (errors : List (Fin 80 × Byte)) (consumer : Option Byte) (r : MemReq), ((s.mem.flight.find? fun q => decide (q.burst = addr.toNat / 64)) = some r) ∧ (errors = []) ∧ (s.outcomeOf (addr.toNat / 64) = .uncorrectable) ∧ (s.mem.repairs = [] ∧ s.mem.sweeps = [] ∧ s.mem.waiting = []) ∧ (s.ownerOf addr.toNat ≠ 2)) :=
  ⟨⟨{ memState with mem := { memState.mem with flight := [⟨3, 4, 0, none, false, 0, 0, false⟩] } }, 0x100, [], some 3, ⟨3, 4, 0, none, false, 0, 0, false⟩, by decide +kernel⟩,
   ⟨{ flaw1 with mem := { flaw1.mem with flight := [⟨3, 4, 0, none, false, 0, 0, false⟩] } }, 0x100, [], some 3, ⟨3, 4, 0, none, false, 0, 0, false⟩, [79], by decide +kernel⟩,
   ⟨{ flawState with mem := { flawState.mem with flight := [⟨3, 4, 0, none, false, 0, 0, false⟩] } }, 0x100, [], some 3, ⟨3, 4, 0, none, false, 0, 0, false⟩, by decide +kernel⟩⟩

theorem witness_decoded_reads_and_repairs_2 :
    (∃ (s : State) (addr : BitVec 64) (errors : List (Fin 80 × Byte)) (consumer : Option Byte) (r : MemReq), ((s.mem.flight.find? fun q => decide (q.burst = addr.toNat / 64)) = some r) ∧ (errors ≠ []) ∧ (s.erasedDevice (s.memSlice (addr.toNat / 64)) = none) ∧ (s.mem.repairs = [] ∧ s.mem.sweeps = [] ∧ s.mem.waiting = []) ∧ ((s.storeWord (addr.toNat / 64) (errors.foldl (fun w e => listModify w e.1 (fun x => x ^^^ e.2.toNat)) (s.storedWord (addr.toNat / 64)))).outcomeOf (addr.toNat / 64) = .uncorrectable) ∧ (s.ownerOf addr.toNat ≠ 2)) ∧
    (∃ (s : State) (addr : BitVec 64) (errors : List (Fin 80 × Byte)) (consumer : Option Byte), ((s.mem.flight.find? fun q => decide (q.burst = addr.toNat / 64)) = none)) ∧
    (∃ (s : State) (ch : Fin 6) (b : Nat), ((s.mem.repairs.find? fun b => decide ((s.memLocal b).1 = ch.val)) = some b) ∧ (s.erasedDevice (s.memSlice b) = none) ∧ ((s.outcomeOf b).bad = true)) :=
  ⟨⟨{ memState with mem := { memState.mem with flight := [⟨3, 4, 0, none, false, 0, 0, false⟩] } }, 0x100, [(0, 1), (9, 2), (20, 3), (31, 4), (42, 5), (53, 6), (64, 7), (75, 8), (79, 9), (1, 4), (2, 4)], none, ⟨3, 4, 0, none, false, 0, 0, false⟩, by decide +kernel⟩,
   ⟨memState, 0x100, [], none, by decide +kernel⟩,
   ⟨{ flawState with mem := { flawState.mem with repairs := [4] } }, 0, 4, by decide +kernel⟩⟩

theorem witness_decoded_reads_and_repairs_3 :
    (∃ (s : State) (ch : Fin 6) (b : Nat), ((s.mem.repairs.find? fun b => decide ((s.memLocal b).1 = ch.val)) = some b) ∧ (s.erasedDevice (s.memSlice b) = none) ∧ ((s.outcomeOf b).bad = false)) ∧
    (∃ (s : State) (ch : Fin 6) (b : Nat), ((s.mem.repairs.find? fun b => decide ((s.memLocal b).1 = ch.val)) = some b) ∧ ((s.erasedDevice (s.memSlice b)).isSome = true) ∧ ((s.outcomeOf b).bad = false)) ∧
    (∃ (s : State) (ch : Fin 6), ((s.mem.repairs.find? fun b => decide ((s.memLocal b).1 = ch.val)) = none)) :=
  ⟨⟨{ flawState with mem := { flawState.mem with repairs := [4], flaws := [(4, List.replicate 79 0 ++ [1])] } }, 0, 4, by decide +kernel⟩,
   ⟨{ memState.put (Reg.INT_ERASE_STATES 0) 8 with mem := { memState.mem with repairs := [4] } }, 0, 4, by decide +kernel⟩,
   ⟨memState, 0, by decide +kernel⟩⟩

theorem witness_decoded_reads_and_repairs_4 :
    (∃ (s : State) (errors : List (Fin 80 × Byte)), (s.get Reg.MEM_STATUS_READY = 1) ∧ (s.get Reg.INT_CTRL_SCRUB_EN = 1) ∧ (errors = []) ∧ (s.outcomeOf (s.get Reg.INT_SCRUB_POS_ADDR / 64) = .clean) ∧ (s.get Reg.INT_SCRUB_POS_ADDR + 64 < s.memBytes)) ∧
    (∃ (s : State) (errors : List (Fin 80 × Byte)), (s.get Reg.MEM_STATUS_READY = 1) ∧ (s.get Reg.INT_CTRL_SCRUB_EN = 1) ∧ (errors = []) ∧ (s.outcomeOf (s.get Reg.INT_SCRUB_POS_ADDR / 64) = .clean) ∧ (s.memBytes ≤ s.get Reg.INT_SCRUB_POS_ADDR + 64)) ∧
    (∃ (s : State) (errors : List (Fin 80 × Byte)) (b : Nat) (p : List Nat), (s.get Reg.MEM_STATUS_READY = 1) ∧ (s.get Reg.INT_CTRL_SCRUB_EN = 1) ∧ (errors = []) ∧ (b = s.get Reg.INT_SCRUB_POS_ADDR / 64) ∧ (s.outcomeOf b = .corrected p) ∧ (s.erasedDevice (s.memSlice b) = none) ∧ (s.get Reg.INT_CTRL_AUTO_ERASE = 0 ∨ s.mem.devCounts = [] ∧ 1 < s.get Reg.INT_CTRL_ERASE_THRESH) ∧ (s.get Reg.INT_SCRUB_POS_ADDR + 64 < s.memBytes)) :=
  ⟨⟨memState.put Reg.INT_CTRL_SCRUB_EN 1, [], by decide +kernel⟩,
   ⟨memState.puts [(Reg.INT_CTRL_SCRUB_EN, 1), (Reg.INT_SCRUB_POS_ADDR, 0x5FFFFFFFC0)], [], by decide +kernel⟩,
   ⟨flaw1.puts [(Reg.INT_CTRL_SCRUB_EN, 1), (Reg.INT_SCRUB_POS_ADDR, 256)], [], 4, [79], by decide +kernel⟩⟩

theorem witness_decoded_reads_and_repairs_5 :
    (∃ (s : State) (errors : List (Fin 80 × Byte)) (b : Nat), (s.get Reg.MEM_STATUS_READY = 1) ∧ (s.get Reg.INT_CTRL_SCRUB_EN = 1) ∧ (errors = []) ∧ (b = s.get Reg.INT_SCRUB_POS_ADDR / 64) ∧ (s.outcomeOf b = .uncorrectable) ∧ (s.erasedDevice (s.memSlice b) = none) ∧ (s.ownerOf (64 * b) = 0 ∨ 4 ≤ s.ownerOf (64 * b)) ∧ (s.mem.sweeps = []) ∧ (s.get Reg.INT_SCRUB_POS_ADDR + 64 < s.memBytes)) ∧
    (∃ (s : State) (errors : List (Fin 80 × Byte)), (s.get Reg.MEM_STATUS_READY = 0 ∨ s.get Reg.INT_CTRL_SCRUB_EN = 0)) ∧
    (∃ (s : State) (v : Word) (slice : Nat), (s.domainOn 12 = true) ∧ (s.get Reg.MEM_STATUS_READY = 1) ∧ (v.getLsbD 31 = true) ∧ (v.toNat / 32 % 8 < 6 ∧ v.toNat % 8 < 5 ∧ v.toNat / 8 % 2 ≤ s.mem.ranks) ∧ (slice = 4 * (v.toNat / 32 % 8) + 2 * (v.toNat / 8 % 2) + v.toNat / 16 % 2) ∧ (s.eraseState slice = 0) ∧ (((List.range 24).filter fun n => decide (s.eraseState n ≠ 0)).length < 4)) :=
  ⟨⟨flawState.puts [(Reg.INT_CTRL_SCRUB_EN, 1), (Reg.INT_SCRUB_POS_ADDR, 256)], [], 4, by decide +kernel⟩,
   ⟨up [], [], by decide +kernel⟩,
   ⟨memState.put Reg.INT_CTRL_SCRUB_EN 1, 0x80000042, 8, by decide +kernel⟩⟩

theorem witness_decoded_reads_and_repairs_6 :
    (∃ (s : State) (v : Word) (slice : Nat), (s.domainOn 12 = true) ∧ (s.get Reg.MEM_STATUS_READY = 1) ∧ (v.getLsbD 31 = true) ∧ (v.toNat / 32 % 8 < 6 ∧ v.toNat % 8 < 5 ∧ v.toNat / 8 % 2 ≤ s.mem.ranks) ∧ (slice = 4 * (v.toNat / 32 % 8) + 2 * (v.toNat / 8 % 2) + v.toNat / 16 % 2) ∧ (s.eraseState slice = 0) ∧ (4 ≤ ((List.range 24).filter fun n => decide (s.eraseState n ≠ 0)).length)) ∧
    (∃ (s : State) (v : Word), (s.domainOn 12 = true) ∧ (v.getLsbD 31 = false)) ∧
    (∃ (s : State) (ch : Fin 6) (rank sub : Fin 2) (slice dev : Nat) (host : Bool), (slice = 4 * ch.val + 2 * rank.val + sub.val) ∧ ((s.mem.sweeps.find? fun p => decide (p.1 = slice)) = some (slice, dev, host)) ∧ (dev < 5) ∧ (s.mem.flaws = [])) :=
  ⟨⟨memState.put (Reg.INT_ERASE_STATES 0) 0x7777, 0x80000042, 8, by decide +kernel⟩,
   ⟨memState, 0x42, by decide +kernel⟩,
   ⟨{ memState.put (Reg.INT_ERASE_STATES 2) 7 with mem := { memState.mem with sweeps := [(8, 2, true)] } }, 2, 0, 0, 8, 2, true, by decide +kernel⟩⟩

theorem witness_decoded_reads_and_repairs_7 :
    (∃ (s : State) (ch : Fin 6) (rank sub : Fin 2), ((s.mem.sweeps.find? fun p => decide (p.1 = 4 * ch.val + 2 * rank.val + sub.val)) = none)) ∧
    (∃ (s : State) (test : Bool) (unit : Byte) (off : Word) (raw : BitVec 13), (test = true) ∧ (off.toNat < 4096) ∧ ((sramDecode (cellGet sramDefault s.mem.sram off.toNat).toNat).1 = 1)) ∧
    (∃ (s : State) (test : Bool) (unit : Byte) (off : Word) (raw : BitVec 13), (test = false) ∧ ((sramDecode raw.toNat).1 ≥ 2) ∧ ((s.mem.sramRaised.any fun p => decide (p = (unit.toNat, off.toNat))) = false)) :=
  ⟨⟨memState, 2, 0, 0, by decide +kernel⟩,
   ⟨{ memState with mem := { memState.mem with sram := [(7, 1)] } }, true, 0, 7, 0, by decide +kernel⟩,
   ⟨memState, false, 4, 7, 3, by decide +kernel⟩⟩

theorem witness_decoded_reads_and_repairs_8 :
    (∃ (s : State) (test : Bool) (unit : Byte) (off : Word) (raw : BitVec 13), (test = false) ∧ ((sramDecode raw.toNat).1 = 1)) ∧
    (∃ (s : State) (test : Bool) (unit : Byte) (off : Word) (raw : BitVec 13), (test = true) ∧ (off.toNat < 4096) ∧ (2 ≤ (sramDecode (cellGet sramDefault s.mem.sram off.toNat).toNat).1)) ∧
    (∃ (s : State) (test : Bool) (unit : Byte) (off : Word) (raw : BitVec 13), ((test = false ∧ (sramDecode raw.toNat).1 = 0) ∨ (test = true ∧ (4096 ≤ off.toNat ∨ (sramDecode (cellGet sramDefault s.mem.sram off.toNat).toNat).1 = 0)))) :=
  ⟨⟨memState, false, 4, 7, 1, by decide +kernel⟩,
   ⟨{ memState with mem := { memState.mem with sram := [(7, 3)] } }, true, 0, 7, 0, by decide +kernel⟩,
   ⟨memState, false, 4, 7, 0, by decide +kernel⟩⟩

theorem witness_checker_tests_and_scans_1 :
    (∃ (s : State), (s.domainOn 12 = true) ∧ (s.testAllowed true = true) ∧ (64 * s.testBurst + 64 ≤ s.memBytes) ∧ (s.erasedDevice (s.memSlice s.testBurst) = none)) ∧
    (∃ (s : State), (s.domainOn 12 = true) ∧ (s.testAllowed true = true) ∧ (s.memBytes < 64 * s.testBurst + 64)) ∧
    (∃ (s : State), (s.domainOn 12 = true) ∧ (s.testAllowed true = true) ∧ (s.memBytes < 64 * s.testBurst + 64)) ∧
    (∃ (s : State), (s.domainOn 12 = true) ∧ (s.testAllowed true = true) ∧ (64 * s.testBurst + 64 ≤ s.memBytes) ∧ ((s.erasedDevice (s.memSlice s.testBurst)).isSome = true)) ∧
    (∃ (s : State), (s.domainOn 12 = true) ∧ (s.testAllowed true = true) ∧ (64 * s.testBurst + 64 ≤ s.memBytes) ∧ (s.erasedDevice (s.memSlice s.testBurst) = none)) ∧
    (∃ (s : State), (s.domainOn 12 = true) ∧ (s.testAllowed false = true)) :=
  ⟨⟨symState, by decide +kernel⟩,
   ⟨symState.put Reg.MEM_SIZE_BYTES 0, by decide +kernel⟩,
   ⟨symState.put Reg.MEM_SIZE_BYTES 0, by decide +kernel⟩,
   ⟨symState.put (Reg.INT_ERASE_STATES 0) 8, by decide +kernel⟩,
   ⟨{ symState with mem := { symState.mem with flaws := [(4, List.replicate 79 0 ++ [1])] } }, by decide +kernel⟩,
   ⟨symState, by decide +kernel⟩⟩

theorem witness_checker_tests_and_scans_2 :
    (∃ (s : State), (s.domainOn 12 = true) ∧ (s.testAllowed false = true)) ∧
    (∃ (s : State), (s.domainOn 12 = true) ∧ (s.testAllowed false = true)) ∧
    (∃ (s : State) (d : Instr) (op : Nat), ((op, d) ∈ [(1, Instr.testRawDramWrite), (2, .testRawDramRead), (3, .testEncode), (4, .testRawSramWrite), (5, .testRawSramRead)]) ∧ (s.domainOn 12 = true) ∧ (s.box.strips ≠ [])) ∧
    (∃ (s : State) (d : Desc), (s.takes d 0x38 ([(24, decide (1 ≤ d.field 24 8 ∧ d.field 24 8 ≤ 2 ^ 40)), (32, decide (d.field 32 1 < 4)), (33, decide (d.field 33 1 < 8))] ++ descReserved d 34 30) = true)) ∧
    (∃ (s : State) (aseq : Word) (poison : Option (BitVec 40)) (j : ScanJob), ((s.mem.scans.find? fun x => decide (x.aseq = aseq.toNat)) = some j) ∧ ((s.mem.scans.find? fun x => decide (x.unit = j.unit)) = some j) ∧ (j.unit < 4) ∧ (j.dram = false) ∧ (poison.all (fun n => decide (j.len ≤ n.toNat)) = true)) ∧
    (∃ (s : State) (aseq : Word) (poison : Option (BitVec 40)) (j : ScanJob) (n : BitVec 40), ((s.mem.scans.find? fun x => decide (x.aseq = aseq.toNat)) = some j) ∧ ((s.mem.scans.find? fun x => decide (x.unit = j.unit)) = some j) ∧ (j.unit < 4) ∧ (j.dram = false) ∧ (poison = some n) ∧ (n.toNat < j.len)) :=
  ⟨⟨symState, by decide +kernel⟩,
   ⟨{ symState with mem := { symState.mem with sram := [(9, 1)] } }, by decide +kernel⟩,
   ⟨openState 2, .testEncode, 3, by simp, by decide +kernel⟩,
   ⟨ringState, ⟨5, leBytes 8 0x38 ++ leBytes 8 0 ++ leBytes 8 0x9000 ++ leBytes 8 9 ++ leBytes 1 1 ++ leBytes 31 4⟩, by decide +kernel⟩,
   ⟨{ scanState with mem := { scanState.mem with scans := [⟨7, 1, false, 0x9000, 9, false, true⟩] } }, 7, none, ⟨7, 1, false, 0x9000, 9, false, true⟩, by decide +kernel⟩,
   ⟨{ scanState with mem := { scanState.mem with scans := [⟨7, 1, false, 0x9000, 9, false, true⟩] } }, 7, some 3, ⟨7, 1, false, 0x9000, 9, false, true⟩, 3, by decide +kernel⟩⟩

theorem witness_checker_tests_and_scans_3 :
    (∃ (s : State) (aseq : Word) (poison : Option (BitVec 40)) (j : ScanJob), ((s.mem.scans.find? fun x => decide (x.aseq = aseq.toNat)) = some j) ∧ ((s.mem.scans.find? fun x => decide (x.unit = j.unit)) = some j) ∧ (j.unit < 4) ∧ (j.dram = true) ∧ (s.dramRangeOk j.start j.len = true) ∧ (s.poisonIn j.start j.len = none)) ∧
    (∃ (s : State) (aseq : Word) (poison : Option (BitVec 40)) (j : ScanJob) (b : Nat), ((s.mem.scans.find? fun x => decide (x.aseq = aseq.toNat)) = some j) ∧ ((s.mem.scans.find? fun x => decide (x.unit = j.unit)) = some j) ∧ (j.unit < 4) ∧ (j.dram = true) ∧ (s.dramRangeOk j.start j.len = true) ∧ (s.poisonIn j.start j.len = some b)) ∧
    (∃ (s : State) (aseq : Word) (poison : Option (BitVec 40)) (j : ScanJob), ((s.mem.scans.find? fun x => decide (x.aseq = aseq.toNat)) = some j) ∧ ((s.mem.scans.find? fun x => decide (x.unit = j.unit)) = some j) ∧ (j.unit < 4) ∧ (j.dram = true) ∧ (s.dramRangeOk j.start j.len = false)) ∧
    (∃ (s : State) (aseq : Word) (poison : Option (BitVec 40)), (∀ j, (s.mem.scans.find? fun x => decide (x.aseq = aseq.toNat)) = some j → (s.mem.scans.find? fun x => decide (x.unit = j.unit)) ≠ some j)) ∧
    (∃ (s : State) (off : BitVec 25) (wide : Bool) (v : BitVec 64) (u : Nat), (off.toNat = 0x01100400 + 8 * u) ∧ (u < 4) ∧ (wide = true) ∧ (s.domainOn 12 = true) ∧ ((s.mem.scans.any fun j => decide (j.unit = u)) = false)) ∧
    (∃ (s : State) (off : BitVec 25) (wide : Bool) (v : BitVec 64) (u : Nat), (off.toNat = 0x01100400 + 8 * u) ∧ (u < 4) ∧ (wide = true) ∧ (s.domainOn 12 = true) ∧ ((s.mem.scans.any fun j => decide (j.unit = u)) = true)) :=
  ⟨⟨{ scanState with mem := { scanState.mem with scans := [⟨7, 2, true, 0x9000, 9, false, true⟩] } }, 7, none, ⟨7, 2, true, 0x9000, 9, false, true⟩, by decide +kernel⟩,
   ⟨{ { scanState with mem := flawState.mem } with mem := { { scanState with mem := flawState.mem }.mem with scans := [⟨7, 2, true, 0xC0, 90, false, true⟩] } }, 7, none, ⟨7, 2, true, 0xC0, 90, false, true⟩, 4, by decide +kernel⟩,
   ⟨{ scanState with mem := { scanState.mem with scans := [⟨7, 2, true, 0x7000000000, 90, true, true⟩] } }, 7, none, ⟨7, 2, true, 0x7000000000, 90, true, true⟩, by decide +kernel⟩,
   ⟨scanState, 8, none, by intro j h; cases h⟩,
   ⟨memState, 0x01100418, true, 0x123456789, 3, by decide +kernel⟩,
   ⟨scanState, 0x01100408, true, 0x123456789, 1, by decide +kernel⟩⟩

theorem witness_ptp_messages_1 :
    (∃ (s : State) (m : PtpMsg) (twoStep : Bool) (origin : PtpStamp), (s.ptpRuns m.port = true) ∧ (s.tagFits m = true) ∧ (m.domain.toNat = s.get (Reg.TIM_PORT_CFG_DOMAIN m.port)) ∧ (m.sdo = 0 ∧ m.valid = true ∧ m.secured = false) ∧ (m.port.val < s.time.ports.length) ∧ (s.fromMaster m = true) ∧ (twoStep = true)) ∧
    (∃ (s : State) (m : PtpMsg) (twoStep : Bool) (origin : PtpStamp), (s.ptpRuns m.port = true) ∧ (s.tagFits m = true) ∧ (m.domain.toNat = s.get (Reg.TIM_PORT_CFG_DOMAIN m.port)) ∧ (m.sdo = 0 ∧ m.valid = true ∧ m.secured = false) ∧ (m.port.val < s.time.ports.length) ∧ (s.fromMaster m = true) ∧ (twoStep = false) ∧ ((s.timePort m.port).state = 9)) ∧
    (∃ (s : State) (m : PtpMsg) (twoStep : Bool) (origin : PtpStamp), (s.ptpRuns m.port = true) ∧ (s.tagFits m = true) ∧ (m.domain.toNat = s.get (Reg.TIM_PORT_CFG_DOMAIN m.port)) ∧ (m.sdo = 0 ∧ m.valid = true ∧ m.secured = false) ∧ (m.port.val < s.time.ports.length) ∧ (s.fromMaster m = false)) ∧
    (∃ (s : State) (m : PtpMsg) (origin : PtpStamp) (at' : Int) (epoch : Nat) (c : Int), (s.ptpRuns m.port = true) ∧ (s.tagFits m = true) ∧ (m.domain.toNat = s.get (Reg.TIM_PORT_CFG_DOMAIN m.port)) ∧ (m.sdo = 0 ∧ m.valid = true ∧ m.secured = false) ∧ (m.port.val < s.time.ports.length) ∧ (s.fromMaster m = true) ∧ ((s.timePort m.port).held = some (m.seq.toNat, at', epoch, c)) ∧ ((s.timePort m.port).state = 9)) ∧
    (∃ (s : State) (m : PtpMsg) (d : Instr), ((d = .ptpSync m false ⟨0, 0⟩ ∨ d = .ptpDelayResp m 0 ⟨0, 0⟩ ∨ d = .ptpPdelayReq m 0)) ∧ (s.ptpRuns m.port = true ∧ s.tagFits m = true) ∧ (m.domain.toNat ≠ s.get (Reg.TIM_PORT_CFG_DOMAIN m.port) ∨ m.sdo ≠ 0 ∨ m.valid = false ∨ m.secured = true)) ∧
    (∃ (s : State) (m : PtpMsg) (requester : BitVec 80) (receipt : PtpStamp) (t1 t2 t3 c d : Int) (e : Nat), (s.ptpRuns m.port = true) ∧ (s.tagFits m = true) ∧ (m.domain.toNat = s.get (Reg.TIM_PORT_CFG_DOMAIN m.port)) ∧ (m.sdo = 0 ∧ m.valid = true ∧ m.secured = false) ∧ (m.port.val < s.time.ports.length) ∧ (s.fromMaster m = true) ∧ ((s.timePort m.port).req = some (m.seq.toNat, t3, e) ∧ (s.timePort m.port).sync = some (t1, t2, c, e)) ∧ (s.get (Reg.TIM_PORT_CFG_P2P m.port) = 0) ∧ (requester.toNat = s.portIdentity m.port) ∧ (e = s.get Reg.TIM_STATUS_EPOCH) ∧ ((s.timePort m.port).state = 9 ∧ (s.timePort m.port).offsets.length < 8 ∧ (s.timePort m.port).delays.length < 8) ∧ (s.time.confirm = none) ∧ (d = idiv ((t2 - t3) + (stampTime receipt - t1) - c - correctionOf m) 2)) ∧
    (∃ (s : State) (m : PtpMsg) (turn : Word), (s.ptpRuns m.port = true) ∧ (s.tagFits m = true) ∧ (m.domain.toNat = s.get (Reg.TIM_PORT_CFG_DOMAIN m.port)) ∧ (m.sdo = 0 ∧ m.valid = true ∧ m.secured = false) ∧ (m.port.val < s.time.ports.length) ∧ (s.get (Reg.TIM_PORT_CFG_P2P m.port) = 1)) :=
  ⟨⟨ptpState 9, ⟨1, none, 0, 0, true, false, 7, 0x10000, 99, 2⟩, true, ⟨5, 6⟩, by decide +kernel⟩,
   ⟨ptpState 9, ⟨1, none, 0, 0, true, false, 7, 0x10000, 99, 2⟩, false, ⟨5, 6⟩, by decide +kernel⟩,
   ⟨ptpState 9, ⟨1, none, 0, 0, true, false, 7, 0x10000, 98, 2⟩, false, ⟨5, 6⟩, by decide +kernel⟩,
   ⟨(ptpState 9).modTime 1 fun p => { p with held := some (7, 1000, 0, 5) }, ⟨1, none, 0, 0, true, false, 7, 0x10000, 99, 2⟩, ⟨5, 6⟩, 1000, 0, 5, by decide +kernel⟩,
   ⟨ptpState 9, ⟨1, none, 1, 0, true, false, 7, 0, 99, 2⟩, .ptpPdelayReq ⟨1, none, 1, 0, true, false, 7, 0, 99, 2⟩ 0, by decide +kernel⟩,
   ⟨(ptpState 9).modTime 1 fun p => { p with req := some (7, 3000, 0), sync := some (1000, 2000, 0, 0) }, ⟨1, none, 0, 0, true, false, 7, 0x10000, 99, 2⟩, 2, ⟨0, 0⟩, 1000, 2000, 3000, 0, idiv (2000 - 3000 + (0 - 1000) - 0 - 0x10000 * 65536) 2, 0, by decide +kernel⟩,
   ⟨(ptpState 9).put (Reg.TIM_PORT_CFG_P2P 1) 1, ⟨1, none, 0, 0, true, false, 7, 0x10000, 99, 2⟩, 40, by decide +kernel⟩⟩

theorem witness_ptp_messages_2 :
    (∃ (s : State) (m : PtpMsg) (requester : BitVec 80) (twoStep : Bool) (receipt : PtpStamp) (t1 : Int) (e : Nat), (s.ptpRuns m.port = true) ∧ (s.tagFits m = true) ∧ (m.domain.toNat = s.get (Reg.TIM_PORT_CFG_DOMAIN m.port)) ∧ (m.sdo = 0 ∧ m.valid = true ∧ m.secured = false) ∧ (m.port.val < s.time.ports.length) ∧ (twoStep = true) ∧ (s.get (Reg.TIM_PORT_CFG_P2P m.port) = 1) ∧ (requester.toNat = s.portIdentity m.port) ∧ ((s.timePort m.port).req = some (m.seq.toNat, t1, e))) ∧
    (∃ (s : State) (m : PtpMsg) (requester : BitVec 80) (origin : PtpStamp) (t1 t2 t4 c : Int) (e : Nat), (s.ptpRuns m.port = true) ∧ (s.tagFits m = true) ∧ (m.domain.toNat = s.get (Reg.TIM_PORT_CFG_DOMAIN m.port)) ∧ (m.sdo = 0 ∧ m.valid = true ∧ m.secured = false) ∧ (m.port.val < s.time.ports.length) ∧ (requester.toNat = s.portIdentity m.port) ∧ ((s.timePort m.port).req = some (m.seq.toNat, t1, e) ∧ (s.timePort m.port).resp = some (t2, t4, c)) ∧ ((s.timePort m.port).sync = none)) ∧
    (∃ (s : State) (m : PtpMsg) (a : PtpAnnounce), (s.ptpRuns m.port = true) ∧ (s.tagFits m = true) ∧ (m.domain.toNat = s.get (Reg.TIM_PORT_CFG_DOMAIN m.port)) ∧ (m.sdo = 0 ∧ m.valid = true ∧ m.secured = false) ∧ (m.port.val < s.time.ports.length) ∧ ((s.timePort m.port).foreign = [] ∧ (s.timePort m.port).master = none) ∧ (s.serves 0 = false ∧ s.serves 1 = false) ∧ (s.get Reg.TIM_STATUS_STATE = 0)) ∧
    (∃ (s : State) (m : PtpMsg) (a : PtpAnnounce) (f : ForeignMaster) (q : Nat), (s.ptpRuns m.port = true) ∧ (s.tagFits m = true) ∧ (m.domain.toNat = s.get (Reg.TIM_PORT_CFG_DOMAIN m.port)) ∧ (m.sdo = 0 ∧ m.valid = true ∧ m.secured = false) ∧ (m.port.val < s.time.ports.length) ∧ ((s.timePort m.port).foreign = [f] ∧ (s.timePort m.port).master = none ∧ (s.timePort m.port).state = 4) ∧ (f.source = m.source.toNat ∧ f.seen = [q]) ∧ (s.tide ≤ q + 4 * logInterval a.interval.toInt) ∧ (a.steps.toNat < 255) ∧ (s.serves 0 = false ∧ s.serves 1 = false) ∧ (s.get Reg.TIM_STATUS_STATE = 0)) ∧
    (∃ (s : State) (p : Fin 2) (phase : Fin 10), (s.ptpRuns p = true) ∧ ((s.timePort p).state = 9) ∧ (p.val < s.time.ports.length)) ∧
    (∃ (s : State) (p : Fin 2), ((s.timePort p).state = 9 ∨ (s.timePort p).state = 7) ∧ (p.val < s.time.ports.length)) ∧
    (∃ (s : State) (p : Fin 2), ((s.timePort p).state ≠ 9 ∧ (s.timePort p).state ≠ 7)) :=
  ⟨⟨((ptpState 9).put (Reg.TIM_PORT_CFG_P2P 1) 1).modTime 1 fun p => { p with req := some (7, 3000, 0) }, ⟨1, none, 0, 0, true, false, 7, 0x10000, 99, 2⟩, 2, true, ⟨0, 9⟩, 3000, 0, by decide +kernel⟩,
   ⟨((ptpState 9).put (Reg.TIM_PORT_CFG_P2P 1) 1).modTime 1 fun p => { p with req := some (7, 3000, 0), resp := some (1, 2, 3) }, ⟨1, none, 0, 0, true, false, 7, 0x10000, 99, 2⟩, 2, ⟨0, 9⟩, 3000, 1, 2, 3, 0, by decide +kernel⟩,
   ⟨(ptpState 4).modTime 1 fun p => { p with master := none }, ⟨1, none, 0, 0, true, false, 7, 0x10000, 99, 2⟩, ⟨128, 6, 0x21, 100, 128, 77, 0, 0⟩, by decide +kernel⟩,
   ⟨(ptpState 4).modTime 1 fun p => { p with master := none, foreign := [⟨99, [128, 6, 0x21, 100, 128], 77, 0, 0, [0]⟩] }, ⟨1, none, 0, 0, true, false, 7, 0x10000, 99, 2⟩, ⟨128, 6, 0x21, 100, 128, 77, 0, 0⟩, ⟨99, [128, 6, 0x21, 100, 128], 77, 0, 0, [0]⟩, 0, by decide +kernel⟩,
   ⟨ptpState 9, 1, 3, by decide +kernel⟩,
   ⟨ptpState 9, 1, by decide +kernel⟩,
   ⟨ptpState 4, 1, by decide +kernel⟩⟩

theorem witness_clock_steps_and_holdover_1 :
    (∃ (s : State) (o : Int), (s.primaryOffset = some o) ∧ (s.get Reg.TIM_STATUS_STEP_PENDING = 1 ∧ s.get Reg.TIM_CTRL_STEP_ARM = 1) ∧ (s.get Reg.EXP_STATE_STATE = 1 ∨ s.get Reg.EXP_STATE_STATE = 2)) ∧
    (∃ (s : State), (s.get Reg.TIM_STATUS_STEP_PENDING = 0 ∨ s.get Reg.TIM_CTRL_STEP_ARM = 0 ∨ 3 ≤ s.get Reg.EXP_STATE_STATE)) ∧
    (∃ (s : State) (o : Int), (s.primaryOffset = some o) ∧ (s.get Reg.TIM_STATUS_STATE = 1) ∧ (s.get Reg.EXP_STATE_STATE = 2)) ∧
    (∃ (s : State), (s.get Reg.TIM_STATUS_STATE ≠ 1 ∨ (3 ≤ s.get Reg.EXP_STATE_STATE ∧ s.get Reg.EXP_STATE_STATE ≤ 7))) ∧
    (∃ (s : State) (p q : Nat) (l : List (Int × Int)), (s.time.confirm = some (p, q, l)) ∧ (s.tide < q + 400000000 * s.get Reg.TIM_LIM1_CONFIRM_S)) ∧
    (∃ (s : State) (p q : Nat), (s.time.confirm = some (p, q, [])) ∧ (q + 400000000 * s.get Reg.TIM_LIM1_CONFIRM_S ≤ s.tide) ∧ (natMem 3 s.time.causes = false)) ∧
    (∃ (s : State), (s.get Reg.TIM_STATUS_STATE = 3) ∧ (s.time.longRaised = false) ∧ (400000000 * s.get Reg.TIM_LIM1_HOLD_MAX_S < s.tide - s.time.holdSince)) ∧
    (∃ (s : State), (s.get Reg.TIM_STATUS_STATE ≠ 3 ∨ s.time.longRaised = true)) :=
  ⟨⟨(lockedState 5).puts [(Reg.TIM_STATUS_STEP_PENDING, 1), (Reg.TIM_CTRL_STEP_ARM, 1), (Reg.EXP_STATE_STATE, 2)], 5, by decide +kernel⟩,
   ⟨(lockedState 5).put Reg.EXP_STATE_STATE 4, by decide +kernel⟩,
   ⟨(lockedState 5).puts [(Reg.TIM_STATUS_STATE, 1), (Reg.EXP_STATE_STATE, 2)], 5, by decide +kernel⟩,
   ⟨lockedState 5, by decide +kernel⟩,
   ⟨{ lockedState 5 with time := { (lockedState 5).time with confirm := some (1, 0, []) } }.put Reg.TIM_LIM1_CONFIRM_S 10, 1, 0, [], by decide +kernel⟩,
   ⟨{ lockedState 5 with tide := 40000000000, time := { (lockedState 5).time with confirm := some (1, 0, []) } }, 1, 0, by decide +kernel⟩,
   ⟨{ (lockedState 5).put Reg.TIM_STATUS_STATE 3 with tide := 40000000000000 }, by decide +kernel⟩,
   ⟨lockedState 5, by decide +kernel⟩⟩

theorem witness_clock_steps_and_holdover_2 :
    (∃ (s : State), (s.time.mapAt ≤ s.tide) ∧ (s.isSlave = true ∨ s.get Reg.CSC_STATUS_READY = 0)) ∧
    (∃ (s : State), (s.tide < s.time.mapAt)) ∧
    (∃ (s : State), (s.domainOn 14 = true)) ∧
    (∃ (s : State), (s.domainOn 14 = true)) ∧
    (∃ (s : State) (p : Fin 2), (32 ≤ (s.timePort p).records.length) ∧ (s.get (Reg.TIM_PORT_STATUS_LINK p) = 1) ∧ (s.telemetryOn p = true) ∧ (p.val < s.time.ports.length)) ∧
    (∃ (s : State) (p : Fin 2), ((s.timePort p).records = [] ∨ s.telemetryOn p = false)) ∧
    (∃ (s : State) (p : Fin 2) (up : Bool), (s.get (Reg.TIM_PORT_STATUS_LINK p) ≠ flag up) ∧ (s.get Reg.TIM_CTRL_EN = 0) ∧ ((s.timePort 0).state = 3 ∧ (s.timePort 1).state = 3) ∧ (s.get Reg.TIM_STATUS_STATE = 0)) ∧
    (∃ (s : State) (p : Fin 2) (up : Bool), (s.get (Reg.TIM_PORT_STATUS_LINK p) = flag up)) :=
  ⟨⟨{ lockedState 5 with tide := 400, clock := ⟨2 ^ 34 + 5, 7, 0⟩ }, by decide +kernel⟩,
   ⟨{ up [] with time := { State.reset.time with mapAt := 400000 } }, by decide +kernel⟩,
   ⟨lockedState 5, by decide +kernel⟩,
   ⟨{ lockedState 5 with clock := ⟨2 ^ 34 + 5, 7, 0⟩ }, by decide +kernel⟩,
   ⟨((lockedState 5).puts [(Reg.TIM_PORT_CFG_TLM_EN 1, 1), (Reg.TIM_PORT_CFG_TRANSPORT 1, 1)]).modTime 1 fun x => { x with records := List.replicate 33 [1] }, 1, by decide +kernel⟩,
   ⟨lockedState 5, 1, by decide +kernel⟩,
   ⟨up [], 0, true, by decide +kernel⟩,
   ⟨up [], 0, false, by decide +kernel⟩⟩

theorem witness_clock_steps_and_holdover_3 :
    (∃ (s : State), (s.domainOn 14 = true) ∧ (s.get Reg.TIM_STATUS_STEP_PENDING = 0)) ∧
    (∃ (s : State), (s.domainOn 14 = true) ∧ (s.get Reg.TIM_STATUS_STEP_PENDING = 1) ∧ (3 ≤ s.get Reg.EXP_STATE_STATE)) ∧
    (∃ (s : State) (v : Word), (s.domainOn 14 = true) ∧ (v.getLsbD 31 = false) ∧ (v.toNat / 16 % 4 ≠ 3) ∧ (s.get Reg.TIM_CLOCK_ID_ID ≠ 0 ∨ v.getLsbD 0 = false) ∧ (s.get (Reg.TIM_PORT_CFG_EN 0) = 0 ∧ s.get (Reg.TIM_PORT_CFG_EN 1) = 0) ∧ ((s.timePort 0).state = 3 ∧ (s.timePort 1).state = 3) ∧ (s.get Reg.TIM_STATUS_STATE = 0) ∧ (s.time.causes = [])) ∧
    (∃ (s : State) (off : BitVec 25) (wide : Bool) (v : BitVec 64) (p : Fin 2), (off.toNat = 0x01200100 + 0x100 * p) ∧ (wide = false) ∧ (s.domainOn 14 = true) ∧ (s.get (Reg.TIM_PORT_CFG_EN p) = 0) ∧ (s.get Reg.TIM_CTRL_EN = 0) ∧ ((s.timePort 0).state = 3 ∧ (s.timePort 1).state = 3) ∧ (s.get Reg.TIM_STATUS_STATE = 0)) ∧
    (∃ (s : State) (off : BitVec 25) (wide : Bool) (v : BitVec 64) (p : Fin 2), (0x01200100 + 0x100 * p < off.toNat ∧ off.toNat < 0x01200200 + 0x100 * p) ∧ (alignedAccess off.toNat wide = true) ∧ (s.domainOn 14 = true) ∧ (s.get (Reg.TIM_PORT_CFG_EN p) = 1)) ∧
    (∃ (s : State) (m : LinkMsg) (head : BitVec 64) (stamp : PtpStamp) (epoch : BitVec 16), (s.portState m.port = 6) ∧ (s.isSlave = true) ∧ (s.get Reg.TIM_STATUS_STATE = 4) ∧ (epoch.toNat ≠ s.get Reg.TIM_STATUS_EPOCH) ∧ (s.time.causes = [])) ∧
    (∃ (s : State) (m : LinkMsg) (head : BitVec 64) (stamp : PtpStamp) (epoch : BitVec 16), (s.portState m.port = 6) ∧ (s.isSlave = true) ∧ (s.get Reg.TIM_STATUS_STATE = 0) ∧ (s.time.causes = [] ∧ s.time.confirm = none) ∧ ((s.timePort 2).offsets.length < 8) ∧ (2 < s.time.ports.length)) :=
  ⟨⟨lockedState 5, by decide +kernel⟩,
   ⟨(lockedState 5).puts [(Reg.TIM_STATUS_STEP_PENDING, 1), (Reg.EXP_STATE_STATE, 4)], by decide +kernel⟩,
   ⟨up [(Reg.TIM_CLOCK_ID_ID, 5)], 0x29, by decide +kernel⟩,
   ⟨up [], 0x01200200, false, 0x88000003, 1, by decide +kernel⟩,
   ⟨lockedState 5, 0x01200208, false, 0x88000003, 1, by decide +kernel⟩,
   ⟨slaveState.put Reg.TIM_STATUS_STATE 4, ⟨0, 0, false⟩, 5, ⟨7, 8⟩, 3, by decide +kernel⟩,
   ⟨slaveState, ⟨0, 0, false⟩, 5, ⟨7, 8⟩, 0, by decide +kernel⟩⟩

theorem witness_proposals_open_and_close_1 :
    (∃ (s : State), (s.proposal = 0)) ∧
    (∃ (s : State), (s.proposal ≠ 0)) :=
  ⟨⟨up [], by decide +kernel⟩,
   ⟨up [(Reg.BWT_PROP_STATUS_STATE, 3)], by decide +kernel⟩⟩

theorem witness_proposals_open_and_close_2 :
    (∃ (s : State), (s.proposal = 1 ∨ s.proposal = 2 ∨ s.proposal = 3) ∧ (s.hcr.handover = [])) ∧
    (∃ (s : State) (kind : Nat) (l : List (Nat × Option Nat)), (s.proposal = 1 ∨ s.proposal = 2 ∨ s.proposal = 3) ∧ (s.hcr.handover = (kind, none) :: l)) :=
  ⟨⟨up [(Reg.BWT_PROP_STATUS_STATE, 3)], by decide +kernel⟩,
   ⟨{ up [(Reg.BWT_PROP_STATUS_STATE, 3)] with hcr := { State.reset.hcr with handover := [(2, none)] } }, 2, [], by decide +kernel⟩⟩

theorem witness_proposals_open_and_close_3 :
    (∃ (s : State), (s.proposal = 0 ∨ s.proposal = 4)) ∧
    (∃ (s : State) (kind : Nat) (l : List (Nat × Option Nat)), (s.hcr.handover = (kind, none) :: l) ∧ (s.proposal = 0)) :=
  ⟨⟨up [], by decide +kernel⟩,
   ⟨{ up [] with hcr := { State.reset.hcr with handover := [(2, none)] } }, 2, [], by decide +kernel⟩⟩

theorem witness_proposals_open_and_close_4 :
    (∃ (s : State) (kind a : Nat) (l : List (Nat × Option Nat)), (s.hcr.handover = (kind, some a) :: l) ∧ (s.proposal = 0)) ∧
    (∃ (s : State), (s.hcr.handover = [] ∨ s.proposal ≠ 0)) :=
  ⟨⟨{ up [] with hcr := { State.reset.hcr with handover := [(2, some 7)] } }, 2, 7, [], by decide +kernel⟩,
   ⟨up [], by decide +kernel⟩⟩

theorem witness_proposals_open_and_close_5 :
    (∃ (s : State) (n : Nat) (image : List Byte) (u : State), (s.proposal = 1) ∧ (s.bwt.fromHead = false) ∧ (leNat (s.hostMem.readBytes (8 * s.get Reg.BWT_PROP_ADDR_ADDR + 12) 4) = n) ∧ (32 ≤ n ∧ n ≤ 1048576) ∧ (s.hostMem.readBytes (8 * s.get Reg.BWT_PROP_ADDR_ADDR) n = image) ∧ ({ s with bwt := { s.bwt with image := image } }.put Reg.BWT_PROP_STATUS_STATE 2 = u) ∧ (u.imageWords image = none) ∧ (s.hcr.handover = [])) ∧
    (∃ (s : State) (n : Nat) (image : List Byte) (u : State) (words : List (Nat × Nat)), (s.proposal = 1) ∧ (s.bwt.fromHead = false) ∧ (leNat (s.hostMem.readBytes (8 * s.get Reg.BWT_PROP_ADDR_ADDR + 12) 4) = n) ∧ (32 ≤ n ∧ n ≤ 1048576) ∧ (s.hostMem.readBytes (8 * s.get Reg.BWT_PROP_ADDR_ADDR) n = image) ∧ ({ s with bwt := { s.bwt with image := image } }.put Reg.BWT_PROP_STATUS_STATE 2 = u) ∧ (u.imageWords image = some words) ∧ ((u.put Reg.BWT_PROP_STATUS_CLASSES (classesOf words)).proposalFaults words = [])) :=
  ⟨⟨loadState (imageOf [(0x01300020, 500000)]), 44, imageOf [(0x01300020, 500000)], { loadState (imageOf [(0x01300020, 500000)]) with bwt := { (loadState (imageOf [(0x01300020, 500000)])).bwt with image := imageOf [(0x01300020, 500000)] } }.put Reg.BWT_PROP_STATUS_STATE 2, by decide +kernel⟩,
   ⟨loadState (imageOf [(0x01300010, 500000)]), 44, imageOf [(0x01300010, 500000)], { loadState (imageOf [(0x01300010, 500000)]) with bwt := { (loadState (imageOf [(0x01300010, 500000)])).bwt with image := imageOf [(0x01300010, 500000)] } }.put Reg.BWT_PROP_STATUS_STATE 2, [(0x01300010, 500000)], by decide +kernel⟩⟩

theorem witness_proposals_open_and_close_6 :
    (∃ (s : State) (n : Nat) (image : List Byte) (u : State) (words : List (Nat × Nat)) (e : Option UnitEvent) (l : List (Option UnitEvent)), (s.proposal = 1) ∧ (s.bwt.fromHead = false) ∧ (leNat (s.hostMem.readBytes (8 * s.get Reg.BWT_PROP_ADDR_ADDR + 12) 4) = n) ∧ (32 ≤ n ∧ n ≤ 1048576) ∧ (s.hostMem.readBytes (8 * s.get Reg.BWT_PROP_ADDR_ADDR) n = image) ∧ ({ s with bwt := { s.bwt with image := image } }.put Reg.BWT_PROP_STATUS_STATE 2 = u) ∧ (u.imageWords image = some words) ∧ ((u.put Reg.BWT_PROP_STATUS_CLASSES (classesOf words)).proposalFaults words = e :: l) ∧ (s.hcr.handover = [])) ∧
    (∃ (s : State) (readOk : Bool) (u : State) (words : List (Nat × Nat)), (s.proposal = 1) ∧ (s.bwt.fromHead = true) ∧ (s.put Reg.BWT_PROP_STATUS_STATE 2 = u) ∧ (u.imageWords s.bwt.image = some words) ∧ ((u.put Reg.BWT_PROP_STATUS_CLASSES (classesOf words)).proposalFaults words = [])) :=
  ⟨⟨loadState (imageOf [(0x01300010, 999)]), 44, imageOf [(0x01300010, 999)], { loadState (imageOf [(0x01300010, 999)]) with bwt := { (loadState (imageOf [(0x01300010, 999)])).bwt with image := imageOf [(0x01300010, 999)] } }.put Reg.BWT_PROP_STATUS_STATE 2, [(0x01300010, 999)], none, [], by decide +kernel⟩,
   ⟨{ up [(Reg.BWT_PROP_STATUS_STATE, 1)] with bwt := { State.reset.bwt with fromHead := true, image := imageOf [(0x01300010, 500000)] } }, true, State.put ({ up [(Reg.BWT_PROP_STATUS_STATE, 1)] with bwt := { State.reset.bwt with fromHead := true, image := imageOf [(0x01300010, 500000)] } }) Reg.BWT_PROP_STATUS_STATE 2, [(0x01300010, 500000)], by decide +kernel⟩⟩

theorem witness_proposals_open_and_close_7 :
    (∃ (s : State) (readOk : Bool) (u : State) (words : List (Nat × Nat)) (e : Option UnitEvent) (l : List (Option UnitEvent)), (s.proposal = 1) ∧ (s.bwt.fromHead = true) ∧ (s.put Reg.BWT_PROP_STATUS_STATE 2 = u) ∧ (u.imageWords s.bwt.image = some words) ∧ ((u.put Reg.BWT_PROP_STATUS_CLASSES (classesOf words)).proposalFaults words = e :: l) ∧ (s.hcr.handover = [])) ∧
    (∃ (s : State) (n : Nat), (s.proposal = 1) ∧ (s.bwt.fromHead = false) ∧ (leNat (s.hostMem.readBytes (8 * s.get Reg.BWT_PROP_ADDR_ADDR + 12) 4) = n) ∧ (n < 32 ∨ 1048576 < n) ∧ (s.hcr.handover = [])) :=
  ⟨⟨{ up [(Reg.BWT_PROP_STATUS_STATE, 1)] with bwt := { State.reset.bwt with fromHead := true, image := imageOf [(0x01300010, 999)] } }, true, State.put ({ up [(Reg.BWT_PROP_STATUS_STATE, 1)] with bwt := { State.reset.bwt with fromHead := true, image := imageOf [(0x01300010, 999)] } }) Reg.BWT_PROP_STATUS_STATE 2, [(0x01300010, 999)], none, [], by decide +kernel⟩,
   ⟨loadState [], 0, by decide +kernel⟩⟩

theorem witness_proposals_open_and_close_8 :
    (∃ (s : State), (s.proposal = 1) ∧ (s.bwt.fromHead = false) ∧ (s.hcr.handover = [])) ∧
    (∃ (s : State) (readOk : Bool), (s.proposal ≠ 1)) :=
  ⟨⟨loadState [], by decide +kernel⟩,
   ⟨up [], true, by decide +kernel⟩⟩

theorem witness_proposals_open_and_close_9 :
    (∃ (s : State), (s.proposal = 3) ∧ (s.bwt.pendingAt + 40000000 ≤ s.aon) ∧ (s.hcr.handover = [])) ∧
    (∃ (s : State), (s.proposal ≠ 3 ∨ s.aon < s.bwt.pendingAt + 40000000)) :=
  ⟨⟨{ pendState [] with aon := 40000000 }, by decide +kernel⟩,
   ⟨pendState [], by decide +kernel⟩⟩

theorem witness_guard_port_1 :
    (∃ (s : State) (frame : List Byte), (s.obs.heldInReset = false) ∧ (guardGood frame = true) ∧ (fieldAt frame 0 1 = 0x0B)) ∧
    (∃ (s : State) (frame : List Byte), (s.obs.heldInReset = false) ∧ (guardGood frame = true) ∧ (fieldAt frame 0 1 = 0x0C) ∧ (s.proposal = 3)) ∧
    (∃ (s : State) (frame : List Byte), (s.obs.heldInReset = false) ∧ (guardGood frame = true) ∧ (fieldAt frame 0 1 = 0x0C) ∧ (s.proposal ≠ 3)) ∧
    (∃ (s : State) (frame : List Byte), (s.obs.heldInReset = false) ∧ (guardGood frame = true) ∧ (fieldAt frame 0 1 = 0x0D) ∧ (s.proposal = 3) ∧ (s.aon < s.bwt.pendingAt + 40000000) ∧ (fieldAt frame 1 4 ≠ s.proposalSeq) ∧ (s.hcr.handover = [])) ∧
    (∃ (s : State) (frame : List Byte), (s.obs.heldInReset = false) ∧ (guardGood frame = true) ∧ (fieldAt frame 0 1 = 0x0D) ∧ (s.proposal = 3) ∧ (s.aon < s.bwt.pendingAt + 40000000) ∧ (fieldAt frame 1 4 = s.proposalSeq) ∧ (fieldAt frame 5 4 ≠ s.proposalDigest) ∧ (s.hcr.handover = [])) ∧
    (∃ (s : State) (frame : List Byte) (words : List (Nat × Nat)), (s.obs.heldInReset = false) ∧ (guardGood frame = true) ∧ (fieldAt frame 0 1 = 0x0D) ∧ (s.proposal = 3) ∧ (s.aon < s.bwt.pendingAt + 40000000) ∧ (fieldAt frame 1 4 = s.proposalSeq) ∧ (fieldAt frame 5 4 = s.proposalDigest) ∧ (s.imageWords s.bwt.image = some words) ∧ (s.get Reg.BWT_ENABLE_EN = 0 ∨ rfGet (committed s.regs words) Reg.BWT_ENABLE_EN = 1) ∧ (s.tid.plans = [] ∨ s.get Reg.BWT_MAX_RATE_HZ ≤ rfGet (committed s.regs words) Reg.BWT_MAX_RATE_HZ) ∧ (s.hcr.handover = [])) :=
  ⟨⟨pendState (imageOf [(0x01300010, 500000)]), frameOf ([0x0B]), by decide +kernel⟩,
   ⟨pendState (imageOf [(0x01300010, 500000)]), frameOf ([0x0C] ++ leBytes 4 40 ++ leBytes 2 8), by decide +kernel⟩,
   ⟨up [], frameOf ([0x0C] ++ leBytes 4 40 ++ leBytes 2 8), by decide +kernel⟩,
   ⟨pendState (imageOf [(0x01300010, 500000)]), frameOf ([0x0D] ++ leBytes 4 2 ++ leBytes 4 0), by decide +kernel⟩,
   ⟨pendState (imageOf [(0x01300010, 500000)]), frameOf ([0x0D] ++ leBytes 4 1 ++ leBytes 4 0), by decide +kernel⟩,
   ⟨pendState (imageOf [(0x01300010, 500000)]), frameOf ([0x0D] ++ leBytes 4 1 ++ leBytes 4 (crc32 (imageOf [(0x01300010, 500000)])).toNat), [(0x01300010, 500000)], by decide +kernel⟩⟩

theorem witness_guard_port_2 :
    (∃ (s : State) (frame : List Byte) (words : List (Nat × Nat)) (st : Strip), (s.obs.heldInReset = false) ∧ (guardGood frame = true) ∧ (fieldAt frame 0 1 = 0x0D) ∧ (s.proposal = 3) ∧ (s.aon < s.bwt.pendingAt + 40000000) ∧ (fieldAt frame 1 4 = s.proposalSeq) ∧ (fieldAt frame 5 4 = s.proposalDigest) ∧ (s.imageWords s.bwt.image = some words) ∧ (s.get Reg.BWT_ENABLE_EN = 1 ∧ rfGet (committed s.regs words) Reg.BWT_ENABLE_EN = 0) ∧ (s.tid.plans = []) ∧ (s.hcr.handover = []) ∧ (s.firing = true) ∧ (s.openStrip = some st) ∧ (s.seq.prompt = none)) ∧
    (∃ (s : State) (frame : List Byte), (s.obs.heldInReset = false) ∧ (guardGood frame = true) ∧ (fieldAt frame 0 1 = 0x0D) ∧ (s.proposal ≠ 3 ∨ s.bwt.pendingAt + 40000000 ≤ s.aon)) ∧
    (∃ (s : State) (frame : List Byte), (s.obs.heldInReset = false) ∧ (guardGood frame = true) ∧ (fieldAt frame 0 1 = 0x0E) ∧ (s.proposal = 3) ∧ (s.aon < s.bwt.pendingAt + 40000000) ∧ (fieldAt frame 1 4 = s.proposalSeq) ∧ (s.hcr.handover = [])) ∧
    (∃ (s : State) (frame : List Byte), (s.obs.heldInReset = false) ∧ (guardGood frame = true) ∧ (fieldAt frame 0 1 = 0x0E) ∧ (s.proposal ≠ 3 ∨ fieldAt frame 1 4 ≠ s.proposalSeq ∨ s.bwt.pendingAt + 40000000 ≤ s.aon)) ∧
    (∃ (s : State) (frame : List Byte) (d : Instr), ((d = .grdStatus frame ∨ d = .grdRead frame ∨ d = .grdConfirm frame ∨ d = .grdReject frame)) ∧ (s.obs.heldInReset = true)) ∧
    (∃ (s : State) (frame : List Byte) (d : Instr), ((d = .grdStatus frame ∨ d = .grdRead frame ∨ d = .grdConfirm frame ∨ d = .grdReject frame)) ∧ (s.obs.heldInReset = false) ∧ (guardGood frame = false)) :=
  ⟨⟨let p := pendState (imageOf [(0x01300000, 0)]); { p.puts [(Reg.BWT_ENABLE_EN, 1), (Reg.EXP_STATE_STATE, 4)] with box := { p.box with strips := [anOpenStrip] } }, frameOf ([0x0D] ++ leBytes 4 1 ++ leBytes 4 (crc32 (imageOf [(0x01300000, 0)])).toNat), [(0x01300000, 0)], anOpenStrip, by decide +kernel⟩,
   ⟨up [], frameOf ([0x0D] ++ leBytes 4 1 ++ leBytes 4 0), by decide +kernel⟩,
   ⟨pendState (imageOf [(0x01300010, 500000)]), frameOf ([0x0E] ++ leBytes 4 1), by decide +kernel⟩,
   ⟨pendState (imageOf [(0x01300010, 500000)]), frameOf ([0x0E] ++ leBytes 4 9), by decide +kernel⟩,
   ⟨{ up [] with obs := { State.reset.obs with heldInReset := true } }, [0x0D, 1, 2], .grdConfirm [0x0D, 1, 2], by decide +kernel⟩,
   ⟨pendState (imageOf [(0x01300010, 500000)]), [0x0D, 1, 2], .grdConfirm [0x0D, 1, 2], by decide +kernel⟩⟩

theorem witness_permit_and_fuses_1 :
    (∃ (s : State), (s.pwr.warm = none) ∧ (s.openStrip = none)) ∧
    (∃ (s : State) (st : Strip), (s.pwr.warm = none) ∧ (s.openStrip = some st) ∧ (s.firing = false) ∧ (s.get Reg.EXP_STATE_STATE ≠ 3)) ∧
    (∃ (s : State) (st : Strip), (s.pwr.warm = none) ∧ (s.firing = true) ∧ (s.openStrip = some st) ∧ (s.seq.prompt = none)) ∧
    (∃ (s : State) (st : Strip), (s.pwr.warm = none) ∧ (s.get Reg.EXP_STATE_STATE = 3) ∧ (s.openStrip = some st)) ∧
    (∃ (s : State) (w : WarmReset), (s.pwr.warm = some w) ∧ (w.unitsDone = false)) :=
  ⟨⟨up [], by decide +kernel⟩,
   ⟨openState 2, anOpenStrip, by decide +kernel⟩,
   ⟨openState 4, anOpenStrip, by decide +kernel⟩,
   ⟨openState 3, anOpenStrip, by decide +kernel⟩,
   ⟨{ up [] with pwr := { State.reset.pwr with warm := some { bit := 1 } } }, { bit := 1 }, by decide +kernel⟩⟩

theorem witness_permit_and_fuses_2 :
    (∃ (s : State), (s.bwt.permit = false) ∧ (∀ q, s.bwt.permitFellAt = some q → q + 400000 ≤ s.aon)) ∧
    (∃ (s : State), (s.bwt.permit = true)) ∧
    (∃ (s : State) (q : Nat), (s.bwt.permitFellAt = some q) ∧ (s.aon < q + 400000)) ∧
    (∃ (s : State) (value : Fin 65) (n : Nat), (s.bwt.burning = some n) ∧ (s.get Reg.BWT_SVN_REQ_OTP ≤ value.val)) ∧
    (∃ (s : State) (value : Fin 65), (s.bwt.burning = none ∨ value.val < s.get Reg.BWT_SVN_REQ_OTP)) :=
  ⟨⟨up [], by decide +kernel, by intro q h; cases h⟩,
   ⟨{ up [] with bwt := { State.reset.bwt with permit := true } }, by decide +kernel⟩,
   ⟨{ up [] with bwt := { State.reset.bwt with permitFellAt := some 0 } }, 0, by decide +kernel⟩,
   ⟨{ up [] with bwt := { State.reset.bwt with burning := some 9 } }, 9, 9, by decide +kernel⟩,
   ⟨up [], 9, by decide +kernel⟩⟩

theorem witness_trace_packets_and_registers_1 :
    (∃ (s : State), (s.tide % 2 ^ 20 = 0) ∧ (s.domainOn 1 = true) ∧ (s.get Reg.OBS_CTRL_PORT_EN = 1) ∧ (s.get Reg.OBS_CTRL_RING_EN = 0) ∧ (s.obs.port.lost = 0) ∧ (s.obs.port.fill + 400 * 32 ≤ 400 * 262144)) ∧
    (∃ (s : State), (s.tide % 2 ^ 20 = 0) ∧ (s.domainOn 1 = true) ∧ (s.get Reg.OBS_CTRL_PORT_EN = 1) ∧ (s.get Reg.OBS_CTRL_RING_EN = 0) ∧ (s.obs.port.hasRoom 1000 s.tide (s.obs.port.offered 1 s.tide s.syncPayload).1 = false)) ∧
    (∃ (s : State), (s.tide % 2 ^ 20 = 0) ∧ (s.domainOn 1 = true) ∧ (s.get Reg.OBS_CTRL_PORT_EN = 0) ∧ (s.get Reg.OBS_CTRL_RING_EN = 1) ∧ (s.get Reg.HST_STATUS_LINK_UP = 1) ∧ (s.get Reg.OBS_RING_CFG_MODE = 1) ∧ (s.obs.ring.lost = 0) ∧ (s.get Reg.OBS_STATUS_RING_FROZEN = 0 ∧ s.get Reg.OBS_STATUS_TRIGGERED = 0) ∧ (s.get Reg.OBS_RING_WR_OFF + 32 ≤ 2 ^ s.get Reg.OBS_RING_CFG_SIZE) ∧ (s.get Reg.OBS_RING_SHADOW_ADDR = 0) ∧ (s.obs.ring.seq < 65536) ∧ (s.obs.ring.fill + 400 * 32 ≤ 400 * 262144) ∧ (s.host.d3hot = false)) ∧
    (∃ (s : State), (s.tide % 2 ^ 20 = 0) ∧ (s.domainOn 1 = true) ∧ (s.get Reg.OBS_CTRL_PORT_EN = 0) ∧ (s.get Reg.OBS_CTRL_RING_EN = 1) ∧ (s.get Reg.OBS_RING_CFG_MODE = 0) ∧ (s.get Reg.OBS_STATUS_RING_FROZEN = 0 ∧ s.get Reg.OBS_STATUS_TRIGGERED = 0) ∧ (ringRoom (2 ^ s.get Reg.OBS_RING_CFG_SIZE) (s.get Reg.OBS_RING_WR_OFF) (s.get Reg.OBS_RING_RD_OFF) < 32)) ∧
    (∃ (s : State), (s.tide % 2 ^ 20 ≠ 0 ∨ s.domainOn 1 = false)) ∧
    (∃ (s : State), (s.domainOn 1 = true) ∧ (s.get Reg.OBS_CTRL_PORT_EN = 1 ∧ s.get Reg.OBS_CTRL_RING_EN = 0) ∧ (bitAt (s.get Reg.OBS_SRC_PORT_MASK) 9 = true) ∧ (s.obs.port.lost = 0) ∧ (s.obs.port.fill + 400 * 96 ≤ 400 * 262144)) ∧
    (∃ (s : State), (s.get Reg.OBS_STATUS_TRIGGERED = 1) ∧ (s.obs.postLeft = 0) ∧ (s.get Reg.OBS_STATUS_RING_FROZEN = 0)) ∧
    (∃ (s : State), (s.get Reg.OBS_STATUS_TRIGGERED = 0 ∨ 0 < s.obs.postLeft)) :=
  ⟨⟨traceState [(Reg.OBS_CTRL_PORT_EN, 1)], by decide +kernel⟩,
   ⟨let x := traceState [(Reg.OBS_CTRL_PORT_EN, 1)]; { x with obs := { x.obs with port := { x.obs.port with fill := 400 * 262144 } } }, by decide +kernel⟩,
   ⟨traceState [(Reg.OBS_CTRL_RING_EN, 1), (Reg.OBS_RING_WR_OFF, 64)], by decide +kernel⟩,
   ⟨traceState [(Reg.OBS_CTRL_RING_EN, 1), (Reg.OBS_RING_CFG_MODE, 0), (Reg.OBS_RING_WR_OFF, 32), (Reg.OBS_RING_RD_OFF, 64)], by decide +kernel⟩,
   ⟨at' [], by decide +kernel⟩,
   ⟨traceState [(Reg.OBS_CTRL_PORT_EN, 1), (Reg.OBS_SRC_PORT_MASK, 512)], by decide +kernel⟩,
   ⟨traceState [(Reg.OBS_STATUS_TRIGGERED, 1)], by decide +kernel⟩,
   ⟨traceState [], by decide +kernel⟩⟩

theorem witness_trace_packets_and_registers_2 :
    (∃ (s : State) (v : Word), (s.domainOn 1 = true) ∧ (s.get Reg.OBS_CTRL_PORT_EN = 0) ∧ (v.toNat % 2 = 1) ∧ (v.toNat / 2 % 2 = 0 ∨ s.get Reg.OBS_CTRL_RING_EN = 1) ∧ (s.obs.port.lost = 0) ∧ (s.obs.port.fill + 400 * 32 ≤ 400 * 262144)) ∧
    (∃ (s : State) (v : Word), (s.domainOn 1 = true) ∧ (s.get Reg.OBS_CTRL_PORT_EN = 0 ∧ s.get Reg.OBS_CTRL_RING_EN = 0) ∧ (v.toNat % 4 = 2) ∧ (s.get Reg.HST_STATUS_LINK_UP = 1) ∧ (s.get Reg.OBS_STATUS_RING_FROZEN = 0 ∧ s.get Reg.OBS_STATUS_TRIGGERED = 0) ∧ (16 ≤ s.get Reg.OBS_RING_CFG_SIZE) ∧ (s.get Reg.OBS_RING_SHADOW_ADDR = 0) ∧ (s.obs.ring.fill + 400 * 32 ≤ 400 * 262144) ∧ (s.host.d3hot = false)) ∧
    (∃ (s : State) (v : Word), (s.domainOn 1 = true) ∧ (v.toNat % 2 = 0 ∨ s.get Reg.OBS_CTRL_PORT_EN = 1) ∧ (v.toNat / 2 % 2 = 0 ∨ s.get Reg.OBS_CTRL_RING_EN = 1)) ∧
    (∃ (s : State) (off : BitVec 25) (wide : Bool) (v : BitVec 64), (off.toNat = 0x01500030 ∧ wide = true) ∧ (s.domainOn 1 = true) ∧ (v.getLsbD 63 = true)) ∧
    (∃ (s : State) (off : BitVec 25) (wide : Bool) (v : BitVec 64), ((off.toNat = 0x01500030 ∧ wide = false) ∨ (off.toNat = 0x01500034 ∧ wide = false ∧ v.getLsbD 31 = false)) ∧ (s.domainOn 1 = true)) ∧
    (∃ (s : State) (off : BitVec 25) (wide : Bool) (v : BitVec 64), (alignedAccess off.toNat wide = true) ∧ (natMem off.toNat [0x01500010, 0x01500014, 0x01500018, 0x01500028, 0x0150002C] = true) ∧ (s.get Reg.OBS_CTRL_RING_EN = 1)) ∧
    (∃ (s : State) (off : BitVec 25) (wide : Bool) (v : BitVec 64), (alignedAccess off.toNat wide = true) ∧ (natMem off.toNat [0x01500010, 0x01500014, 0x01500018, 0x01500028, 0x0150002C] = true) ∧ (s.get Reg.OBS_CTRL_RING_EN = 0) ∧ (s.domainOn 1 = true)) :=
  ⟨⟨traceState [], 1, by decide +kernel⟩,
   ⟨traceState [(Reg.OBS_RING_WR_OFF, 96), (Reg.OBS_RING_RD_OFF, 64)], 2, by decide +kernel⟩,
   ⟨traceState [], 0, by decide +kernel⟩,
   ⟨traceState [(Reg.OBS_STATUS_TRIGGERED, 1), (Reg.OBS_STATUS_RING_FROZEN, 1)], 0x01500030, true, 0x8001000000001204, by decide +kernel⟩,
   ⟨traceState [], 0x01500034, false, 0x1204, by decide +kernel⟩,
   ⟨traceState [(Reg.OBS_CTRL_RING_EN, 1)], 0x01500010, true, 0x8000, by decide +kernel⟩,
   ⟨traceState [], 0x01500010, true, 0x8000, by decide +kernel⟩⟩

theorem witness_snapshots_and_boundary_scan_1 :
    (∃ (s : State), (s.get Reg.OBS_STATUS_SNAP_BUSY = 0) ∧ (s.domainOn 1 = true)) ∧
    (∃ (s : State), (s.get Reg.OBS_STATUS_SNAP_BUSY = 1) ∧ (s.domainOn 1 = true)) ∧
    (∃ (s : State) (l : List (Nat × Bool × Nat)), (s.get Reg.OBS_STATUS_SNAP_BUSY = 1) ∧ (s.get Reg.HST_STATUS_LINK_UP = 1) ∧ (s.host.d3hot = false) ∧ (s.get Reg.OBS_CTRL_RING_EN = 0) ∧ (s.obs.snapshot ++ [(0xFFFFFFFF, false, s.obs.snapTime)] = l)) ∧
    (∃ (s : State), (s.get Reg.OBS_STATUS_SNAP_BUSY = 0 ∨ s.get Reg.HST_STATUS_LINK_UP = 0)) ∧
    (∃ (s : State), (s.obs.heldInReset = false)) ∧
    (∃ (s : State), (s.obs.heldInReset = false)) :=
  ⟨⟨{ up [] with tide := 77 }, by decide +kernel⟩,
   ⟨{ up [(Reg.OBS_STATUS_SNAP_BUSY, 1), (Reg.HST_STATUS_LINK_UP, 1), (Reg.OBS_SNAP_ADDR_ADDR, 512)] with obs := { State.reset.obs with snapshot := [(0x00104000, false, 7)], snapTime := 99 } }, by decide +kernel⟩,
   ⟨{ up [(Reg.OBS_STATUS_SNAP_BUSY, 1), (Reg.HST_STATUS_LINK_UP, 1), (Reg.OBS_SNAP_ADDR_ADDR, 512)] with obs := { State.reset.obs with snapshot := [(0x00104000, false, 7)], snapTime := 99 } }, [(0x00104000, false, 7), (0xFFFFFFFF, false, 99)], by decide +kernel⟩,
   ⟨up [], by decide +kernel⟩,
   ⟨up [], by decide +kernel⟩,
   ⟨up [], by decide +kernel⟩⟩

theorem witness_snapshots_and_boundary_scan_2 :
    (∃ (s : State), (s.obs.heldInReset = false)) ∧
    (∃ (s : State) (d : Instr) (i : ScanInstr), ((d = .extest ∧ i = .extest) ∨ (d = .clamp ∧ i = .clamp) ∨ (d = .highz ∧ i = .highz)) ∧ (s.obs.bscanEnable = true)) ∧
    (∃ (s : State) (d : Instr) (i : ScanInstr), ((d = .extest ∧ i = .extest) ∨ (d = .clamp ∧ i = .clamp) ∨ (d = .highz ∧ i = .highz)) ∧ (s.obs.bscanEnable = false) ∧ (s.obs.heldInReset = false)) ∧
    (∃ (s : State), (s.obs.heldInReset = false)) ∧
    (∃ (s : State), (s.obs.heldInReset = true) ∧ (s.pwr.ok = true ∧ s.pwr.step1 = true ∧ s.host.perstLow = false)) ∧
    (∃ (s : State), (s.obs.heldInReset = true) ∧ (s.pwr.ok = false ∨ s.host.perstLow = true)) :=
  ⟨⟨up [], by decide +kernel⟩,
   ⟨{ up [(Reg.HST_CTRL_EN, 1)] with obs := { State.reset.obs with bscanEnable := true } }, .clamp, .clamp, by decide +kernel, by decide +kernel⟩,
   ⟨up [], .highz, .highz, by decide +kernel⟩,
   ⟨up [], by decide +kernel⟩,
   ⟨heldState, by decide +kernel⟩,
   ⟨{ heldState with host := State.reset.host }, by decide +kernel⟩⟩

theorem witness_accesses_to_a_domain_that_is_down :
    (∃ (s : State) (c : Instr) (d o : Nat), (accessOf c = some (d, o)) ∧ (s.domainOn d = false)) ∧
    (∃ (s : State) (c : Instr) (d o q : Nat), (accessOf c = some (d, o)) ∧ (s.domainOn d = false) ∧ (s.host.domainOffAt = some q) ∧ (q ≤ s.aon ∧ s.aon < q + 400000000) ∧ (s.get ⟨cntHst 7, 0, 48⟩ + 1 < 2 ^ 48 - 1)) ∧
    (∃ (s : State) (off : BitVec 25) (v : BitVec 64) (r : RegRow) (idx : List Nat), (findRow off.toNat = some (r, idx, 0)) ∧ (r.wide = false) ∧ (off.toNat % 4 = 0) ∧ (canonOffset off.toNat = off.toNat) ∧ (s.domainOn (domainOf off.toNat) = false) ∧ (natMem r.base ownBehaviour = false) ∧ (natMem r.base [0x00800010, 0x00904000, 0x01000020, 0x01000040, 0x01100108, 0x01200048, 0x01400018, 0x01500020] = false) ∧ (r.fields.any (fun f => decide (f.access = .sat)) = false)) :=
  ⟨⟨at' [], .hstAbort 0xA5, 14, 0x00100008, by decide +kernel⟩,
   ⟨{ at' [] with host := { State.reset.host with domainOffAt := some 0 } }, .snapshotGo, 1, 0x01500048, 0, by decide +kernel⟩,
   ⟨at' [], 0x00103010, 5, rowAt 0x00103010, [3], by decide +kernel⟩⟩

theorem witness_events_and_counters :
    (∃ (s : State) (code sev ring : Nat) (payload : List (Nat × Nat)) (q : EventRing) (e : Event), (ring = s.get (Reg.HST_EV_ROUTE_RING (code / 256)) ∧ ring < s.host.events.length) ∧ (s.host.events.getD ring EventRing.reset = q) ∧ (e = s.eventNow code sev (packFields payload) false) ∧ (s.get (Reg.HST_EV_ROUTE_MIN_SEV (code / 256)) ≤ sev ∨ sev = 4) ∧ (s.get Reg.OBS_TRIG_EN = 0) ∧ (q.queued + s.reservations ring + e.records ≤ 1024)) ∧
    (∃ (s : State) (code sev ring : Nat) (payload : List (Nat × Nat)) (q : EventRing) (e : Event), (ring = s.get (Reg.HST_EV_ROUTE_RING (code / 256)) ∧ ring < s.host.events.length) ∧ (s.host.events.getD ring EventRing.reset = q) ∧ (e = s.eventNow code sev (packFields payload) false) ∧ (s.get (Reg.HST_EV_ROUTE_MIN_SEV (code / 256)) ≤ sev ∨ sev = 4) ∧ (s.get Reg.OBS_TRIG_EN = 0) ∧ (1024 < q.queued + s.reservations ring + e.records) ∧ (sev < 2 ∨ (sev ≠ 4 ∧ dropOldest q.queue = none)) ∧ (s.get ⟨cntHst 5, 0, 48⟩ + 1 < 2 ^ 48 - 1)) ∧
    (∃ (s : State) (code sev ring : Nat) (payload : List (Nat × Nat)) (q : EventRing) (e : Event) (r : List Event), (ring = s.get (Reg.HST_EV_ROUTE_RING (code / 256)) ∧ ring < s.host.events.length) ∧ (s.host.events.getD ring EventRing.reset = q) ∧ (e = s.eventNow code sev (packFields payload) false) ∧ (s.get (Reg.HST_EV_ROUTE_MIN_SEV (code / 256)) ≤ sev ∨ sev = 4) ∧ (s.get Reg.OBS_TRIG_EN = 0) ∧ (1024 < q.queued + s.reservations ring + e.records) ∧ (2 ≤ sev) ∧ (dropOldest q.queue = some r) ∧ (s.get ⟨cntHst 5, 0, 48⟩ + 1 < 2 ^ 48 - 1)) ∧
    (∃ (s : State) (code sev ring : Nat) (payload : List (Nat × Nat)) (q : EventRing) (e : Event), (ring = s.get (Reg.HST_EV_ROUTE_RING (code / 256)) ∧ ring < s.host.events.length) ∧ (s.host.events.getD ring EventRing.reset = q) ∧ (e = s.eventNow code sev (packFields payload) false) ∧ (s.get (Reg.HST_EV_ROUTE_MIN_SEV (code / 256)) ≤ sev ∨ sev = 4) ∧ (s.get Reg.OBS_TRIG_EN = 0) ∧ (1024 < q.queued + s.reservations ring + e.records) ∧ (sev = 4) ∧ (dropOldest q.queue = none)) ∧
    (∃ (s : State) (code sev : Nat) (payload : List (Nat × Nat)), (sev < s.get (Reg.HST_EV_ROUTE_MIN_SEV (code / 256)) ∧ sev ≠ 4) ∧ (s.get ⟨cntHst 4, 0, 48⟩ + 1 < 2 ^ 48 - 1) ∧ (s.get Reg.OBS_TRIG_EN = 0)) ∧
    (∃ (s : State) (off : Nat), (s.get ⟨off, 0, 48⟩ = 2 ^ 48 - 1)) ∧
    (∃ (s : State) (off : Nat), (off ∈ catalogue) ∧ (s.get ⟨off, 0, 48⟩ + 1 < 2 ^ 48 - 1)) ∧
    (∃ (s : State) (off ring : Nat) (q : EventRing), (off ∈ catalogue) ∧ (Field.Quiet ⟨off, 0, 64⟩) ∧ (s.get ⟨off, 0, 48⟩ = 2 ^ 48 - 2) ∧ (ring = s.get (Reg.HST_EV_ROUTE_RING 0x14) ∧ ring < s.host.events.length) ∧ (s.host.events.getD ring EventRing.reset = q) ∧ (s.get (Reg.HST_EV_ROUTE_MIN_SEV 0x14) ≤ 1) ∧ (s.get Reg.OBS_TRIG_EN = 0) ∧ (q.queued + s.reservations ring + 1 ≤ 1024) ∧ (s.get ⟨cntObs 5, 0, 48⟩ + 1 < 2 ^ 48 - 1)) :=
  ⟨⟨{ up [] with host := { State.reset.host with events := List.replicate 8 (EventRing.reset) } }, 0x1204, 2, 0, [], EventRing.reset, (up []).eventNow 0x1204 2 (packFields []) false, by decide +kernel⟩,
   ⟨{ up [] with host := { State.reset.host with events := List.replicate 8 ({ EventRing.reset with queue := List.replicate 1024 ⟨0x1009, 1, 0, 0, 0, [], false⟩ }) } }, 0x1204, 1, 0, [], { EventRing.reset with queue := List.replicate 1024 ⟨0x1009, 1, 0, 0, 0, [], false⟩ }, (up []).eventNow 0x1204 1 (packFields []) false, by decide +kernel⟩,
   ⟨{ up [] with host := { State.reset.host with events := List.replicate 8 ({ EventRing.reset with queue := List.replicate 1024 ⟨0x1009, 1, 0, 0, 0, [], false⟩ }) } }, 0x1204, 3, 0, [], { EventRing.reset with queue := List.replicate 1024 ⟨0x1009, 1, 0, 0, 0, [], false⟩ }, (up []).eventNow 0x1204 3 (packFields []) false, List.replicate 1023 ⟨0x1009, 1, 0, 0, 0, [], false⟩, by decide +kernel⟩,
   ⟨{ up [] with host := { State.reset.host with events := List.replicate 8 ({ EventRing.reset with queue := List.replicate 1024 ⟨0x1009, 2, 0, 0, 0, [], false⟩ }) } }, 0x1204, 4, 0, [], { EventRing.reset with queue := List.replicate 1024 ⟨0x1009, 2, 0, 0, 0, [], false⟩ }, (up []).eventNow 0x1204 4 (packFields []) false, by decide +kernel⟩,
   ⟨up [(Reg.HST_EV_ROUTE_MIN_SEV 0x12, 3)], 0x1204, 1, [], by decide +kernel⟩,
   ⟨up [(⟨cntBwt 1, 0, 48⟩, 2 ^ 48 - 1)], cntBwt 1, by decide +kernel⟩,
   ⟨up [], cntBwt 1, by decide +kernel⟩,
   ⟨up [(⟨cntBwt 1, 0, 48⟩, 2 ^ 48 - 2)], cntBwt 1, 0, EventRing.reset, by decide +kernel, by unfold Field.Quiet Field.Sound Field.base; decide +kernel, by decide +kernel, by decide +kernel, by decide +kernel, by decide +kernel, by decide +kernel, by decide +kernel, by decide +kernel⟩⟩

end Sys2Proof.Tests
end

section
/-! PROOFS. Statements on the scope chapter (spec/00_scope.md): the canonical form of the stores, reset and cold
reset, integers, rows and columns, register writes, events. -/
namespace Sys2Proof.Machine

/-! ### Every command keeps the parts that it does not touch -/

/-- Each next state of a command is the state before it but for the parts listed for its row, and is canonical if that is. -/
theorem exec_kept (c : Instr) (s : State) : OutKept (touches c) s (exec c s) := by
  cases c with
  | sqDoorbell r v => exact .of (execSqDoorbell_kept r v s) .refl
  | eqDoorbell e v => exact .of (execEqDoorbell_kept e v s) .refl
  | layout d => exact .of (execLayout_kept d s) .refl
  | streamRelease d => exact .of (execStreamRelease_kept d s) .refl
  | strip d => exact .of (execStrip_kept d s) .refl
  | stopStrip d => exact .of (execStopStrip_kept d s) .refl
  | resume d => exact .of (execResume_kept d s) .refl
  | endStrip d => exact .of (execEndStrip_kept d s) .refl
  | ledgerRelease d => exact .of (execLedgerRelease_kept d s) .refl
  | stageMove d => exact .of (execStageMove_kept d s) .refl
  | stageTable d => exact .of (execStageTable_kept d s) .refl
  | aux d => exact .of (execAux_kept d s) .refl
  | recoat d => exact .of (execRecoat_kept d s) .refl
  | hcrMeasure d => exact .of (execHcrMeasure_kept d s) .refl
  | hcrAlign d => exact .of (execHcrAlign_kept d s) .refl
  | hcrPropose d => exact .of (execHcrPropose_kept d s) .refl
  | segCompress d => exact .of (execSegCompress_kept d s) .refl
  | segDecompress d => exact .of (execSegDecompress_kept d s) .refl
  | inflate d => exact .of (execInflate_kept d s) .refl
  | continueJob d => exact .of (execContinueJob_kept d s) .refl
  | checkScan d => exact .of (execCheckScan_kept d s) .refl
  | nop d => exact .of (execNop_kept d s) .refl
  | eventRecordWrite e => exact .of (execEventRecordWrite_kept e s) .refl
  | eqInterrupt e => exact .of (execEqInterrupt_kept e s) .refl
  | msixUnmask v => exact .of (execMsixUnmask_kept v s) .refl
  | hstAbort v => exact .of (execHstAbort_kept v s) .refl
  | abortComplete => exact .of (execAbortComplete_kept s) .refl
  | hstReset v => exact .of (execHstReset_kept v s) .refl
  | warmResetUnits => exact .of (execWarmResetUnits_kept s) .refl
  | hostReadTimeout r => exact .of (execHostReadTimeout_kept r s) .refl
  | hostReadError r status => exact .of (execHostReadError_kept r status s) .refl
  | pcieLinkDown => exact .of (execPcieLinkDown_kept s) .refl
  | pcieLinkUp speed width => exact .of (execPcieLinkUp_kept speed width s) .refl
  | perstNAssert => exact .of (execPerstNAssert_kept s) .refl
  | perstNDeassert => exact .of (execPerstNDeassert_kept s) .refl
  | configSpaceReady => exact .of (execConfigSpaceReady_kept s) .refl
  | d3hotEntry => exact .of (execD3hotEntry_kept s) .refl
  | hstSqBaseWrite r v => exact .of (execHstSqBaseWrite_kept r v s) .refl
  | hstSqCfgWrite r v => exact .of (execHstSqCfgWrite_kept r v s) .refl
  | hstEqBaseWrite e v => exact .of (execHstEqBaseWrite_kept e v s) .refl
  | hstEqCfgWrite e v => exact .of (execHstEqCfgWrite_kept e v s) .refl
  | hstCtrlWrite v => exact .of (execHstCtrlWrite_kept v s) .refl
  | registerWrite off wide v => exact .of (execRegisterWrite_kept off wide v s) .refl
  | counterClear off wide v => exact .of (execCounterClear_kept off wide v s) .refl
  | streamRecord h rec => exact .of (execStreamRecord_kept h rec s) .refl
  | stripRecord h rec => exact .of (execStripRecord_kept h rec s) .refl
  | doseTable h rec => exact .of (execDoseTable_kept h rec s) .refl
  | stripEnd h rec => exact .of (execStripEnd_kept h rec s) .refl
  | cellBegin h rec => exact .of (execCellBegin_kept h rec s) .refl
  | cellEnd h rec => exact .of (execCellEnd_kept h rec s) .refl
  | rect h rec => exact .of (execRect_kept h rec s) .refl
  | trap h rec => exact .of (execTrap_kept h rec s) .refl
  | disc h rec => exact .of (execDisc_kept h rec s) .refl
  | patch h rec => exact .of (execPatch_kept h rec s) .refl
  | ref h rec => exact .of (execRef_kept h rec s) .refl
  | aref h rec => exact .of (execAref_kept h rec s) .refl
  | reamMark h rec => exact .of (execReamMark_kept h rec s) .refl
  | margin h rec => exact .of (execMargin_kept h rec s) .refl
  | seam h rec => exact .of (execSeam_kept h rec s) .refl
  | pad h rec => exact .of (execPad_kept h rec s) .refl
  | tileJobIssue => exact .of (execTileJobIssue_kept s) .refl
  | tileCorrected v out => exact .of (execTileCorrected_kept v out s) .refl
  | layoutRereadDone slot ream ok => exact .of (execLayoutRereadDone_kept slot ream ok s) .refl
  | coarseJobDone v out => exact .of (execCoarseJobDone_kept v out s) .refl
  | jobWatchdog v cycles => exact .of (execJobWatchdog_kept v cycles s) .refl
  | rerenderLate slot ream tile => exact .of (execRerenderLate_kept slot ream tile s) .refl
  | vatRoleReqWrite v => exact .of (execVatRoleReqWrite_kept v s) .refl
  | calProfileWrite off wide v => exact .of (execCalProfileWrite_kept off wide v s) .refl
  | haloWaitTimeout slot ream => exact .of (execHaloWaitTimeout_kept slot ream s) .refl
  | tileStoreDone poisoned => exact .of (execTileStoreDone_kept poisoned s) .refl
  | stoRoomWait slot ream => exact .of (execStoRoomWait_kept slot ream s) .refl
  | chunkDecoded reader faults => exact .of (execChunkDecoded_kept reader faults s) .refl
  | fillDeadline reader late => exact .of (execFillDeadline_kept reader late s) .refl
  | stoConfigWrite off wide v => exact .of (execStoConfigWrite_kept off wide v s) .refl
  | codecJobEnd aseq poison => exact .of (execCodecJobEnd_kept aseq poison s) .refl
  | tickEmit faults => exact .of (execTickEmit_kept faults s) .refl
  | zeroRun n => exact .of (execZeroRun_kept n s) .refl
  | couchDomainFail n => exact .of (execCouchDomainFail_kept n s) .refl
  | swapTestStart => exact .of (execSwapTestStart_kept s) .refl
  | swapTestSwitch gaps => exact .of (execSwapTestSwitch_kept gaps s) .refl
  | swapTestEnd => exact .of (execSwapTestEnd_kept s) .refl
  | swapRequest v => exact .of (execSwapRequest_kept v s) .refl
  | cchRoleReqWrite v => exact .of (execCchRoleReqWrite_kept v s) .refl
  | cchResBaseWrite off wide v => exact .of (execCchResBaseWrite_kept off wide v s) .refl
  | statusFrame a seen frame => exact .of (execStatusFrame_kept a seen frame s) .refl
  | driverStatusStale a => exact .of (execDriverStatusStale_kept a s) .refl
  | echoMissing a => exact .of (execEchoMissing_kept a s) .refl
  | ctrlReply a seen frame => exact .of (execCtrlReply_kept a seen frame s) .refl
  | ctrlReplyTimeout a => exact .of (execCtrlReplyTimeout_kept a s) .refl
  | discover n heard => exact .of (execDiscover_kept n heard s) .refl
  | ident a result => exact .of (execIdent_kept a result s) .refl
  | setFactors a result => exact .of (execSetFactors_kept a result s) .refl
  | setCurve a result => exact .of (execSetCurve_kept a result s) .refl
  | timeLoad a result => exact .of (execTimeLoad_kept a result s) .refl
  | timeRead a result => exact .of (execTimeRead_kept a result s) .refl
  | measure a result => exact .of (execMeasure_kept a result s) .refl
  | recordRead a result => exact .of (execRecordRead_kept a result s) .refl
  | arm a result => exact .of (execArm_kept a result s) .refl
  | txEq a result => exact .of (execTxEq_kept a result s) .refl
  | pollSend n => exact .of (execPollSend_kept n s) .refl
  | chainTrainStart n => exact .of (execChainTrainStart_kept n s) .refl
  | chainAlignDone n found => exact .of (execChainAlignDone_kept n found s) .refl
  | chainTrainTimeout n => exact .of (execChainTrainTimeout_kept n s) .refl
  | eqAdaptWaitEnd n => exact .of (execEqAdaptWaitEnd_kept n s) .refl
  | eqTryEnd n found eyeH eyeV => exact .of (execEqTryEnd_kept n found eyeH eyeV s) .refl
  | eqDeferredRetrain n => exact .of (execEqDeferredRetrain_kept n s) .refl
  | syncMarkerReturn n rt latches => exact .of (execSyncMarkerReturn_kept n rt latches s) .refl
  | headTimeRecheck => exact .of (execHeadTimeRecheck_kept s) .refl
  | chainStatusLoss c => exact .of (execChainStatusLoss_kept c s) .refl
  | hlkRetrainReq v => exact .of (execHlkRetrainReq_kept v s) .refl
  | laneAlignLost l loss => exact .of (execLaneAlignLost_kept l loss s) .refl
  | lanePllUnlock pll => exact .of (execLanePllUnlock_kept pll s) .refl
  | lanePhaseSlip l under => exact .of (execLanePhaseSlip_kept l under s) .refl
  | tuneBurst b => exact .of (execTuneBurst_kept b s) .refl
  | lnsLoopStart v => exact .of (execLnsLoopStart_kept v s) .refl
  | lnsLoopEnd locked errors => exact .of (execLnsLoopEnd_kept locked errors s) .refl
  | lnsSscWrite v => exact .of (execLnsSscWrite_kept v s) .refl
  | lnsOutEnWrite v => exact .of (execLnsOutEnWrite_kept v s) .refl
  | lnsEidleWrite l v => exact .of (execLnsEidleWrite_kept l v s) .refl
  | strobeApply l => exact .of (execStrobeApply_kept l s) .refl
  | posTrigger port => exact .of (execPosTrigger_kept port s) .refl
  | positionFrame port frame => exact .of (execPositionFrame_kept port frame s) .refl
  | posFrameLate port => exact .of (execPosFrameLate_kept port s) .refl
  | quadEdge q a b => exact .of (execQuadEdge_kept q a b s) .refl
  | quadIndex q => exact .of (execQuadIndex_kept q s) .refl
  | tidQrefArm v => exact .of (execTidQrefArm_kept v s) .refl
  | plannerStep pos vel acc slow => exact .of (execPlannerStep_kept pos vel acc slow s) .refl
  | approachReached => exact .of (execApproachReached_kept s) .refl
  | setpointFrame => exact .of (execSetpointFrame_kept s) .refl
  | tidLimitWrite off wide v => exact .of (execTidLimitWrite_kept off wide v s) .refl
  | tidGovCapWrite v => exact .of (execTidGovCapWrite_kept v s) .refl
  | tidConfigWrite off wide v => exact .of (execTidConfigWrite_kept off wide v s) .refl
  | snsTrigger c => exact .of (execSnsTrigger_kept c s) .refl
  | sensorFrame k frame => exact .of (execSensorFrame_kept k frame s) .refl
  | loopCapture c => exact .of (execLoopCapture_kept c s) .refl
  | loopSwapRequest c v => exact .of (execLoopSwapRequest_kept c v s) .refl
  | loopModeWrite c v => exact .of (execLoopModeWrite_kept c v s) .refl
  | loopBankWrite off wide v => exact .of (execLoopBankWrite_kept off wide v s) .refl
  | loopOpenWrite c v => exact .of (execLoopOpenWrite_kept c v s) .refl
  | loopConfigWrite off wide v => exact .of (execLoopConfigWrite_kept off wide v s) .refl
  | floodEnter => exact .of (execFloodEnter_kept s) .refl
  | promptBreakEnter => exact .of (execPromptBreakEnter_kept s) .refl
  | ebbToSlack => exact .of (execEbbToSlack_kept s) .refl
  | breakToSlack => exact .of (execBreakToSlack_kept s) .refl
  | resumeStart => exact .of (execResumeStart_kept s) .refl
  | neapEnter => exact .of (execNeapEnter_kept s) .refl
  | neapWake => exact .of (execNeapWake_kept s) .refl
  | neapWakeDone => exact .of (execNeapWakeDone_kept s) .refl
  | hcrSchedule => exact .of (execHcrSchedule_kept s) .refl
  | hcrMeasRunEnd => exact .of (execHcrMeasRunEnd_kept s) .refl
  | hcrMeasTimeout => exact .of (execHcrMeasTimeout_kept s) .refl
  | strobeCalWindow counts => exact .of (execStrobeCalWindow_kept counts s) .refl
  | measReq v => exact .of (execMeasReq_kept v s) .refl
  | calReq v => exact .of (execCalReq_kept v s) .refl
  | stepGenerate n => exact .of (execStepGenerate_kept n s) .refl
  | auxPlannerStep n pos vel acc => exact .of (execAuxPlannerStep_kept n pos vel acc s) .refl
  | encEdge n a b => exact .of (execEncEdge_kept n a b s) .refl
  | encIndex n => exact .of (execEncIndex_kept n s) .refl
  | auxSettleCheck n => exact .of (execAuxSettleCheck_kept n s) .refl
  | limitSwitch n hi level => exact .of (execLimitSwitch_kept n hi level s) .refl
  | auxPhaseStart aseq => exact .of (execAuxPhaseStart_kept aseq s) .refl
  | auxPhaseEnd n => exact .of (execAuxPhaseEnd_kept n s) .refl
  | auxDwellEnd aseq => exact .of (execAuxDwellEnd_kept aseq s) .refl
  | auxStopCmd n => exact .of (execAuxStopCmd_kept n s) .refl
  | auxClear n => exact .of (execAuxClear_kept n s) .refl
  | auxHoldRetry r => exact .of (execAuxHoldRetry_kept r s) .refl
  | auxHoldSkip r => exact .of (execAuxHoldSkip_kept r s) .refl
  | auxCfgWrite off wide v => exact .of (execAuxCfgWrite_kept off wide v s) .refl
  | auxLimitWrite off wide v => exact .of (execAuxLimitWrite_kept off wide v s) .refl
  | cscPortTrainStart p => exact .of (execCscPortTrainStart_kept p s) .refl
  | cscTrainStepDone p found device devices spread => exact .of (execCscTrainStepDone_kept p found device devices spread s) .refl
  | cscTrainTimeout p => exact .of (execCscTrainTimeout_kept p s) .refl
  | latencyMarker p dm am as ds => exact .of (execLatencyMarker_kept p dm am as ds s) .refl
  | tickMessage m index t h p state faults => exact .of (execTickMessage_kept m index t h p state faults s) .refl
  | sampleMessage m head count setpoint => exact .of (execSampleMessage_kept m head count setpoint s) .refl
  | timeMessage m head stamp epoch => exact .of (execTimeMessage_kept m head stamp epoch s) .refl
  | planMessage m r rate cause => exact .of (execPlanMessage_kept m r rate cause s) .refl
  | stopMessage m cause kind tB origin => exact .of (execStopMessage_kept m cause kind tB origin s) .refl
  | ctrlMessage m c => exact .of (execCtrlMessage_kept m c s) .refl
  | statusMessage m lead wait temp span pairing => exact .of (execStatusMessage_kept m lead wait temp span pairing s) .refl
  | rateMessage m r rate cause => exact .of (execRateMessage_kept m r rate cause s) .refl
  | haloMessage m device stripId row side values => exact .of (execHaloMessage_kept m device stripId row side values s) .refl
  | ackMessage m typ seq => exact .of (execAckMessage_kept m typ seq s) .refl
  | timeSetMessage h w => exact .of (execTimeSetMessage_kept h w s) .refl
  | messageResend p => exact .of (execMessageResend_kept p s) .refl
  | tickGapTimeout => exact .of (execTickGapTimeout_kept s) .refl
  | tlLaneLost p loss => exact .of (execTlLaneLost_kept p loss s) .refl
  | cscConfigWrite off v => exact .of (execCscConfigWrite_kept off v s) .refl
  | dramRequest port addr write data poison deadline => exact .of (execDramRequest_kept port addr write data poison deadline s) .refl
  | dramPick ch sub ready => exact .of (execDramPick_kept ch sub ready s) .refl
  | requestAged n => exact .of (execRequestAged_kept n s) .refl
  | refreshDue ch => exact .of (execRefreshDue_kept ch s) .refl
  | refreshBurst ch => exact .of (execRefreshBurst_kept ch s) .refl
  | memThermPoll ch hot device => exact .of (execMemThermPoll_kept ch hot device s) .refl
  | dramTrainInstanceEnd ch rank config passed lane mask0 mask1 lanes =>
    exact .of (execDramTrainInstanceEnd_kept ch rank config passed lane mask0 mask1 lanes s) .refl
  | dramInitDone => exact .of (execDramInitDone_kept s) .refl
  | dramRetrainStart => exact .of (execDramRetrainStart_kept s) .refl
  | memRetrainWrite v => exact .of (execMemRetrainWrite_kept v s) .refl
  | memRateWrite v => exact .of (execMemRateWrite_kept v s) .refl
  | memRefModeWrite v => exact .of (execMemRefModeWrite_kept v s) .refl
  | dramReadReturn addr errors consumer => exact .of (execDramReadReturn_kept addr errors consumer s) .refl
  | repairWrite ch => exact .of (execRepairWrite_kept ch s) .refl
  | scrubStep errors => exact .of (execScrubStep_kept errors s) .refl
  | erasureSweepEnd ch rank sub => exact .of (execErasureSweepEnd_kept ch rank sub s) .refl
  | intEraseReqGo v => exact .of (execIntEraseReqGo_kept v s) .refl
  | sramPatrol test unit off raw => exact .of (execSramPatrol_kept test unit off raw s) .refl
  | testRawDramWrite => exact .of (execTestRawDramWrite_kept s) .refl
  | testRawDramRead => exact .of (execTestRawDramRead_kept s) .refl
  | testEncode => exact .of (execTestEncode_kept s) .refl
  | testRawSramWrite => exact .of (execTestRawSramWrite_kept s) .refl
  | testRawSramRead => exact .of (execTestRawSramRead_kept s) .refl
  | intChkValWrite off wide v => exact .of (execIntChkValWrite_kept off wide v s) .refl
  | checkScanEnd e => exact .of (execCheckScanEnd_kept e s) .refl
  | ptpSync m twoStep origin => exact .of (execPtpSync_kept m twoStep origin s) .refl
  | ptpFollowUp m origin => exact .of (execPtpFollowUp_kept m origin s) .refl
  | ptpDelayResp m requester receipt => exact .of (execPtpDelayResp_kept m requester receipt s) .refl
  | ptpPdelayReq m turn => exact .of (execPtpPdelayReq_kept m turn s) .refl
  | ptpPdelayResp m requester twoStep receipt => exact .of (execPtpPdelayResp_kept m requester twoStep receipt s) .refl
  | ptpPdelayRespFollowUp m requester origin => exact .of (execPtpPdelayRespFollowUp_kept m requester origin s) .refl
  | ptpAnnounce m a => exact .of (execPtpAnnounce_kept m a s) .refl
  | ptpDelayReqSend p phase => exact .of (execPtpDelayReqSend_kept p phase s) .refl
  | announceTimeout p => exact .of (execAnnounceTimeout_kept p s) .refl
  | delayConfirmEnd => exact .of (execDelayConfirmEnd_kept s) .refl
  | holdLong => exact .of (execHoldLong_kept s) .refl
  | armedStep => exact .of (execArmedStep_kept s) .refl
  | acquisitionStepHeld => exact .of (execAcquisitionStepHeld_kept s) .refl
  | timeMapLatch => exact .of (execTimeMapLatch_kept s) .refl
  | telemetrySend p => exact .of (execTelemetrySend_kept p s) .refl
  | ethLinkChange p up => exact .of (execEthLinkChange_kept p up s) .refl
  | timStepArm => exact .of (execTimStepArm_kept s) .refl
  | timCtrlWrite v => exact .of (execTimCtrlWrite_kept v s) .refl
  | timNowRead => exact .of (execTimNowRead_kept s) .refl
  | timMapHeadRead => exact .of (execTimMapHeadRead_kept s) .refl
  | timPortCfgWrite off wide v => exact .of (execTimPortCfgWrite_kept off wide v s) .refl
  | bwtSubmit => exact .of (execBwtSubmit_kept s) .refl
  | bwtWithdraw => exact .of (execBwtWithdraw_kept s) .refl
  | bwtHandover => exact .of (execBwtHandover_kept s) .refl
  | proposalLoaded readOk => exact .of (execProposalLoaded_kept readOk s) .refl
  | grdStatus frame => exact .of (execGrdStatus_kept frame s) .refl
  | grdRead frame => exact .of (execGrdRead_kept frame s) .refl
  | grdConfirm frame => exact .of (execGrdConfirm_kept frame s) .refl
  | grdReject frame => exact .of (execGrdReject_kept frame s) .refl
  | proposalExpired => exact .of (execProposalExpired_kept s) .refl
  | svnBurnDone value => exact .of (execSvnBurnDone_kept value s) .refl
  | permitDeassert => exact .of (execPermitDeassert_kept s) .refl
  | permitRestored => exact .of (execPermitRestored_kept s) .refl
  | pwrOkRise => exact .of (execPwrOkRise_kept s) .refl
  | pwrOkFall => exact .of (execPwrOkFall_kept s) .refl
  | brownOut => exact .of (execBrownOut_kept s) .refl
  | bootImageVerify read0 read1 image0 image1 => exact .of (execBootImageVerify_kept read0 read1 image0 image1 s) .refl
  | bringupDone => exact .of (execBringupDone_kept s) .refl
  | refLost => exact .of (execRefLost_kept s) .refl
  | pllUnlock pll => exact .of (execPllUnlock_kept pll s) .refl
  | protectiveResetEnd => exact .of (execProtectiveResetEnd_kept s) .refl
  | dieTempRead temp => exact .of (execDieTempRead_kept temp s) .refl
  | watchdogExpire => exact .of (execWatchdogExpire_kept s) .refl
  | lockstepFault f => exact .of (execLockstepFault_kept f s) .refl
  | domainPowerUp d => exact .of (execDomainPowerUp_kept d s) .refl
  | domainPowerFault d => exact .of (execDomainPowerFault_kept d s) .refl
  | quadNeapEnter q => exact .of (execQuadNeapEnter_kept q s) .refl
  | traceSync => exact .of (execTraceSync_kept s) .refl
  | traceDramSample => exact .of (execTraceDramSample_kept s) .refl
  | ringFreeze => exact .of (execRingFreeze_kept s) .refl
  | obsCtrlWrite v => exact .of (execObsCtrlWrite_kept v s) .refl
  | obsTrigWrite off wide v => exact .of (execObsTrigWrite_kept off wide v s) .refl
  | obsConfigWrite off wide v => exact .of (execObsConfigWrite_kept off wide v s) .refl
  | snapshotGo => exact .of (execSnapshotGo_kept s) .refl
  | snapshotDone => exact .of (execSnapshotDone_kept s) .refl
  | bypass => exact .of (execBypass_kept s) .refl
  | idcode => exact .of (execIdcode_kept s) .refl
  | samplePreload => exact .of (execSamplePreload_kept s) .refl
  | extest => exact .of (execExtest_kept s) .refl
  | clamp => exact .of (execClamp_kept s) .refl
  | highz => exact .of (execHighz_kept s) .refl
  | testLogicReset => exact .of (execTestLogicReset_kept s) .refl
  | d0Entry => exact .of (execD0Entry_kept s) .refl
  | lanePllLock pll => exact .of (execLanePllLock_kept pll s) .refl
  | referencePresent otpOk => exact .of (execReferencePresent_kept otpOk s) .refl
  | bringupStepLimit => exact .of (execBringupStepLimit_kept s) .refl
  | receiverAdaptEnd n seen => exact .of (execReceiverAdaptEnd_kept n seen s) .refl
  | protectiveStopLimit => exact .of (execProtectiveStopLimit_kept s) .refl

/-- Settles O58: a command by `exec_kept`, an idle tide clock by `State.clockTick_kept`. -/
theorem everyStepKeepsCanonicalForm : Obligations.every_step_keeps_canonical_form := by
  unfold Obligations.every_step_keeps_canonical_form
  intro s t canonical stepped
  unfold step at stepped
  split at stepped
  case h_1 c rest _ => exact (exec_kept c { s with pending := rest } t stepped).wf canonical
  case h_2 =>
    obtain rfl := Host.Outcome.next.inj stepped
    exact s.clockTick_kept.wf canonical

/-! ### Reset -/

theorem reset_canonical : State.reset.canonical = true := by simp [State.canonical, reset_wf]

/-- Settles O56: the stores by `reset_wf`, the registers by reading the Reset columns of the register table. -/
theorem resetState : Obligations.reset_state := ⟨rfl, reset_canonical, rfl, rfl, by decide +kernel⟩

/-! ### Integer operations (R17) -/

theorem idiv_eq_ediv (a : Int) {d : Int} (hd : 0 ≤ d) : idiv a d = a / d := Int.fdiv_eq_ediv_of_nonneg a hd

theorem idiv_bounds (a : Int) {d : Int} (hd : 0 < d) : d * idiv a d ≤ a ∧ a < d * (idiv a d + 1) := by
  rw [idiv_eq_ediv a hd.le, mul_add, mul_one]
  exact ⟨Int.mul_ediv_self_le hd.ne', Int.lt_mul_ediv_self_add hd⟩

theorem emod_eq_sub_idiv (a : Int) {d : Int} (hd : 0 < d) : a % d = a - d * idiv a d := by
  rw [idiv_eq_ediv a hd.le, Int.emod_def]

theorem shiftRight_eq_idiv (a : Int) (k : Nat) : a >>> k = idiv a (2 ^ k) := by
  rw [idiv_eq_ediv a (by positivity), Int.shiftRight_eq_div_pow]
  norm_cast

theorem roundHalfUp_bounds (a : Int) {d : Int} (hd : 0 < d) :
    2 * (a - d * roundHalfUp a d) < d ∧ -d ≤ 2 * (a - d * roundHalfUp a d) := by
  have h : 2 * d * roundHalfUp a d ≤ 2 * a + d ∧ 2 * a + d < 2 * d * (roundHalfUp a d + 1) :=
    idiv_bounds (2 * a + d) (d := 2 * d) (by omega)
  constructor <;> linarith

/-- Settles O52: division with a positive divisor is `Int.ediv`; round-half-up is the floor of (2a + d) / 2d. -/
theorem integerOperations : Obligations.integer_operations := by
  unfold Obligations.integer_operations
  intro a d v lo hi hd
  have clamp_lo : v < lo → clampInt v lo hi = lo := fun h => if_pos h
  have clamp_hi : lo ≤ v → hi < v → clampInt v lo hi = hi := fun h k => (if_neg h.not_gt).trans (if_pos k)
  have clamp_mid : lo ≤ v → v ≤ hi → clampInt v lo hi = v := fun h k => (if_neg h.not_gt).trans (if_neg k.not_gt)
  have rem_lt := Int.emod_lt_of_pos a hd
  exact ⟨idiv_bounds a hd, ⟨emod_eq_sub_idiv a hd, Int.emod_nonneg a hd.ne', by omega⟩, shiftRight_eq_idiv a,
    clamp_lo, clamp_hi, clamp_mid, rfl, roundHalfUp_bounds a hd⟩

/-! ### Rows, lines and columns (R8, R32, R38, R39) -/

theorem delayOf_row (rf : RegFile) {b c : Nat} (hc : c < 128) : delayOf rf (128 * b + c) =
    (b * rfGet rf Reg.HLK_BAND_PITCH_PITCH + c * rfGet rf Reg.HLK_ROW_PITCH_PITCH : Nat) +
      sext 16 (rfGet rf (Reg.HCR_ALIGN_ALIGN (128 * b + c))) := by
  have hb : (128 * b + c) / 128 = b := by omega
  have hr : (128 * b + c) % 128 = c := by omega
  simp only [delayOf, rowDelay, alignOf, hb, hr, Nat.cast_add]

theorem rawLine_swash (rf : RegFile) (n row : Nat) (t : Int) : rawLine rf false n row t = t - delayOf rf row := rfl

theorem rawLine_backwash (rf : RegFile) (n row : Nat) (t : Int) :
    rawLine rf true n row t = n - 1 - t + ((4 * rfGet rf Reg.HLK_BAND_PITCH_PITCH : Nat) - 1 - delayOf rf row) := rfl

theorem columnBeam_column {b c k : Nat} (hc : c < 128) : columnBeam b (128 * k + c) = 512 * (128 * b + c) + k := by
  unfold columnBeam; omega

theorem column_of_columnBeam {b c k x : Nat} (hc : c < 128) (hk : k < 512) (hx : x < 65536)
    (h : columnBeam b x = 512 * (128 * b + c) + k) : x = 128 * k + c := by
  unfold columnBeam at h; omega

/-- Settles O53. -/
theorem rowsLinesAndColumns : Obligations.rows_lines_and_columns := by
  unfold Obligations.rows_lines_and_columns
  intro rf b c k n t _ hc hk
  have falls : rawLine rf true n (128 * b + c) (t + 1) < rawLine rf true n (128 * b + c) t := by
    rw [rawLine_backwash, rawLine_backwash]; omega
  exact ⟨delayOf_row rf hc, rawLine_swash rf n _ t, rawLine_backwash rf n _ t, falls, columnBeam_column hc,
    fun _ => column_of_columnBeam hc hk⟩

/-! ### Bits and lists of register fields -/

theorem bitAt_eq_testBit (v i : Nat) : bitAt v i = v.testBit i := (Nat.testBit_eq_decide_div_mod_eq).symm

theorem testBit_setBit_true (v i : Nat) : (setBit v i true).testBit i = true := by
  unfold setBit
  rw [bitAt_eq_testBit]
  cases h : v.testBit i
  · have e : v / 2 ^ i % 2 = 0 := by
      have := Nat.mod_two_eq_zero_or_one (v / 2 ^ i)
      simp only [Nat.testBit_eq_decide_div_mod_eq, decide_eq_false_iff_not] at h
      omega
    have d : (v + 2 ^ i) / 2 ^ i = v / 2 ^ i + 1 := Nat.add_div_right _ (Nat.two_pow_pos i)
    simp only [Bool.false_eq_true, if_false, if_true, Nat.testBit_eq_decide_div_mod_eq, decide_eq_true_eq, d]
    omega
  · simpa using h

/-- One bit of a field, read as a field of its own. -/
theorem rfGet_bit (rf : RegFile) {off lo w i : Nat} (hf : Field.Sound ⟨off, lo, w⟩) (hi : i < w) :
    rfGet rf ⟨off, lo + i, 1⟩ = 1 ↔ (rfGet rf ⟨off, lo, w⟩).testBit i = true := by
  have hg : Field.Sound ⟨off, lo + i, 1⟩ := ⟨hf.1, by have := hf.2; dsimp only at this ⊢; omega⟩
  have e : (rfGet rf ⟨off, lo + i, 1⟩).testBit 0 = (rfGet rf ⟨off, lo, w⟩).testBit i := by
    rw [rfGet_testBit _ _ hg, rfGet_testBit _ _ hf]
    simp [Field.base, hi, Nat.add_assoc]
  have lt : rfGet rf ⟨off, lo + i, 1⟩ < 2 := rfGet_lt rf _ hg
  rw [← e, Nat.testBit_zero, decide_eq_true_eq]
  omega

/-- Fields that share no bits, each put once, read what was put into them. -/
theorem State.get_puts_of_mem (s : State) (v : Field → Nat) {l : List Field} (hl : l.Pairwise Field.Apart)
    {f : Field} (hf : f ∈ l) (hs : f.Sound) (hv : v f < 2 ^ f.width) : (s.puts (l.map fun f => (f, v f))).get f = v f := by
  induction l generalizing s with
  | nil => cases hf
  | cons g r ih =>
    obtain ⟨hg, hr⟩ := List.pairwise_cons.1 hl
    rw [List.map_cons, State.puts_cons]
    by_cases hm : f ∈ r
    · exact ih _ hr hm
    · obtain rfl : f = g := by simpa [hm] using hf
      have apart : ∀ p ∈ r.map (fun f => (f, v f)), p.1.Apart f := by
        intro p hp
        obtain ⟨k, hk, rfl⟩ := List.mem_map.1 hp
        obtain ⟨hf, hk, h⟩ := hg k hk
        exact ⟨hk, hf, h.symm⟩
      rw [State.get_puts_apart _ _ apart, State.get_put_same _ _ _ hs hv]

/-! ### Cold reset (R14, R506, R511) -/

theorem coldKeeps_apart : coldKeeps.Pairwise Field.Apart := by
  simp [coldKeeps, causeBits, Field.Apart, Field.Sound, Field.base]

theorem coldKeeps_sound : ∀ f ∈ coldKeeps, f.Sound := by
  simp only [coldKeeps, causeBits, Field.Sound]
  decide

theorem State.coldReset_get_kept (s : State) {f : Field} (hf : f ∈ coldKeeps) : s.coldReset.get f = s.get f :=
  State.get_puts_of_mem _ s.get coldKeeps_apart hf (coldKeeps_sound f hf) (s.get_lt f (coldKeeps_sound f hf))

theorem State.coldReset_get_apart (s : State) {g : Field} (h : ∀ f ∈ coldKeeps, f.Apart g) :
    s.coldReset.get g = State.reset.get g := by
  refine State.get_puts_apart s.coldState _ fun p hp => ?_
  obtain ⟨f, hf, rfl⟩ := List.mem_map.1 hp
  exact h f hf

/-- Units are idle and memory behind the device is empty; what lies outside the device stands. -/
theorem State.coldReset_leaves (s : State) : s.coldReset.pending = s.pending ∧ s.coldReset.hostMem = s.hostMem ∧
    s.coldReset.host.jobs = [] ∧ s.coldReset.box.strips = [] ∧ s.coldReset.store.codec = [] ∧ s.coldReset.dram = [] ∧
    s.coldReset.tide = 0 :=
  ⟨State.puts_pending .., State.puts_hostMem .., congrArg HostState.jobs (State.puts_host ..),
    congrArg HeadboxState.strips (State.puts_box ..), congrArg StoreState.codec (State.puts_store ..), State.puts_dram ..,
    State.puts_tide ..⟩

theorem State.coldReset_perstLow (s : State) : s.coldReset.host.perstLow = s.host.perstLow := by
  rw [State.coldReset, State.puts_host]; rfl

theorem State.coldReset_ok (s : State) : s.coldReset.pwr.ok = s.pwr.ok := by
  rw [State.coldReset, State.puts_pwr]; rfl

/-- R515: the cause of a cold reset reads 1 after it. -/
theorem State.coldReset_cause (s : State) {i : Nat} (hi : i < 8) : (s.setCause i).coldReset.get ⟨0x01400010, i, 1⟩ = 1 := by
  have kept : (s.setCause i).coldReset.get causeBits = (s.setCause i).get causeBits :=
    State.coldReset_get_kept _ (by simp [coldKeeps])
  have put : (s.setCause i).get causeBits = setBit (s.get causeBits) i true % 2 ^ 8 :=
    rfGet_put_same s.regs causeBits _ (coldKeeps_sound _ (by simp [coldKeeps]))
  have bit := (rfGet_bit (s.setCause i).coldReset.regs (coldKeeps_sound causeBits (by simp [coldKeeps])) hi).2
  rw [Nat.zero_add] at bit
  refine bit ?_
  show ((s.setCause i).coldReset.get causeBits).testBit i = true
  rw [kept, put, Nat.testBit_mod_two_pow, testBit_setBit_true]
  simp [hi]

theorem State.startBoot_get_apart (s : State) {g : Field} (h : Reg.PWR_BRINGUP_STEP.Apart g) : s.startBoot.get g = s.get g := by
  unfold State.startBoot
  split
  · exact State.get_put_apart _ _ h
  · rfl

theorem State.startBoot_protective (s : State) : s.startBoot.pwr.protective = s.pwr.protective := by
  unfold State.startBoot
  split <;> rfl

theorem execPerstNAssert_high {s : State} (h : s.host.perstLow = false) :
    execPerstNAssert s = .next ({ s with host := { s.host with perstLow := true } }.setCause 1).coldReset := by
  simp [execPerstNAssert, h]

theorem State.supplyLost_ok {s : State} (h : s.pwr.ok = true) :
    s.supplyLost = ({ s with pwr := { s.pwr with ok := false, step1 := false } }.setCause 7).coldReset := by
  simp [State.supplyLost, h]

/-- What PWR_OK_FALL and BROWN_OUT share. -/
theorem State.supplyLost_cold {s : State} (h : s.pwr.ok = true) :
    (∀ g : Field, g.Sound → (∀ f ∈ coldKeeps, f.Apart g) → s.supplyLost.get g = State.reset.get g) ∧
    s.supplyLost.get ⟨0x01400010, 7, 1⟩ = 1 ∧ s.supplyLost.pwr.ok = false ∧ s.supplyLost.pending = s.pending ∧
    s.supplyLost.hostMem = s.hostMem ∧ s.supplyLost.host.jobs = [] ∧ s.supplyLost.box.strips = [] ∧
    s.supplyLost.store.codec = [] ∧ s.supplyLost.dram = [] ∧ s.supplyLost.tide = 0 := by
  rw [State.supplyLost_ok h]
  exact ⟨fun _ _ => State.coldReset_get_apart _, State.coldReset_cause _ (by omega), State.coldReset_ok _,
    State.coldReset_leaves _⟩

/-- R511: the protective reset is over, its cause forgotten. -/
def State.protectionEnded (s : State) : State :=
  { s with pwr := { s.pwr with protective := false, thermal := false, aonOnly := false } }

theorem State.protectionEnded_get (s : State) (f : Field) : s.protectionEnded.get f = s.get f := rfl

theorem State.protectionEnded_kept (s : State) : Kept [.pwr] s s.protectionEnded := .upd [.pwr] .refl

theorem execProtectiveResetEnd_cleared {s : State} (hp : s.pwr.protective = true) (ha : s.pwr.aonOnly = true)
    (ht : s.pwr.thermal = false) :
    execProtectiveResetEnd s = .next (s.put Reg.PWR_CLK_STATUS_REF 1).coldReset.protectionEnded.startBoot := by
  simp only [execProtectiveResetEnd, hp, ha, ht, Bool.not_false, Bool.true_or, Bool.and_self, if_true]
  rfl

/-- Settles O6: a cold reset clears the register file and puts back the fields of `coldKeeps`, which share no bits. -/
theorem coldResetReturnsResetValues : Obligations.cold_reset_returns_reset_values := by
  unfold Obligations.cold_reset_returns_reset_values
  intro s
  refine ⟨fun h => ?perst, fun h => ?fall, fun h => ?brown, fun hp ha ht => ?protective⟩
  case perst =>
    exact ⟨_, execPerstNAssert_high h, fun _ _ => State.coldReset_get_apart _, State.coldReset_cause _ (by omega),
      State.coldReset_perstLow _, State.coldReset_leaves _⟩
  case fall => exact ⟨_, rfl, State.supplyLost_cold h⟩
  case brown => exact ⟨_, rfl, State.supplyLost_cold h⟩
  case protective =>
    refine ⟨_, execProtectiveResetEnd_cleared hp ha ht, ?_⟩
    generalize hc : (s.put Reg.PWR_CLK_STATUS_REF 1).coldReset = c
    have reg : ∀ g, Reg.PWR_BRINGUP_STEP.Apart g → c.protectionEnded.startBoot.get g = c.get g := fun g h =>
      (State.startBoot_get_apart _ h).trans (State.protectionEnded_get c g)
    have kept : Kept [.regs, .pwr] c c.protectionEnded.startBoot :=
      (State.startBoot_kept _).of (c.protectionEnded_kept.of .refl)
    obtain ⟨pending, hostMem, jobs, strips, codec, dram, tide⟩ := (s.put Reg.PWR_CLK_STATUS_REF 1).coldReset_leaves
    rw [hc] at pending hostMem jobs strips codec dram tide
    refine ⟨fun g _ h => ?_, ?_, State.startBoot_protective _, kept.pending.trans pending, kept.hostMem.trans hostMem,
      ?_, ?_, ?_, kept.dram.trans dram, kept.tide.trans tide⟩
    · rw [reg g (h _ (List.mem_cons_self ..)), ← hc]
      exact State.coldReset_get_apart _ fun f hf => h f (List.mem_cons_of_mem _ hf)
    · have ref : Reg.PWR_CLK_STATUS_REF ∈ coldKeeps := by simp [coldKeeps]
      rw [reg _ (by simp [Field.Apart, Field.Sound, Field.base]), ← hc, State.coldReset_get_kept _ ref,
        State.get_put_same _ _ 1 (coldKeeps_sound _ ref) (by decide)]
    · rw [kept.host, jobs]
    · rw [kept.box, strips]
    · rw [kept.store, codec]

/-! ### Register writes (R13) -/

theorem State.plainWrite_ownWrite (s : State) {off : Nat} {v : BitVec 32} {r : RegRow} {idx : List Nat} {h : Nat}
    (hf : findRow (canonOffset off) = some (r, idx, h)) (hv : ownWrite r.base v = true) : s.plainWrite off v = s := by
  simp [State.plainWrite, hf, hv]

theorem execRegisterWrite_word (off : BitVec 25) (v : BitVec 64) (s : State) (ha : off.toNat % 4 = 0) :
    exec (.registerWrite off false v) s = .next (s.plainWrite off.toNat (v.setWidth 32)) := by
  show execRegisterWrite off false v s = _
  simp [execRegisterWrite, ha]

/-- The row of the register table for the vector control words of the MSI-X table. -/
def msixCtrlRow : RegRow := ⟨"MSIX_CTRL", 0x0011000C, [(64, 0x10)], false, [⟨0, 1, .rw, .const 1, .kept, none⟩]⟩

theorem findRow_msixCtrl : findRow 0x0011000C = some (msixCtrlRow, [0], 0) := by decide +kernel

/-- The machine at reset, but with every power domain up. -/
def allUp : State := State.reset.put Reg.PWR_DOMAIN_STATUS_ON 0xFFFF

/-- REGISTER_WRITE leaves an unmasking write of MSIX_CTRL[0] to the row MSIX_UNMASK. -/
theorem registerWrite_unmask_stays : exec (.registerWrite 0x0011000C false 0) allUp = .next allUp := by
  have row : findRow (canonOffset 0x0011000C) = some (msixCtrlRow, [0], 0) := findRow_msixCtrl
  rw [execRegisterWrite_word _ _ _ rfl]
  exact congrArg _ (State.plainWrite_ownWrite allUp row rfl)

/-- Refutes O5: its hypotheses leave out the registers of `ownBehaviour`, but not the writes of `ownWrite`, which have a row
of their own by their value. A write of 0 to MSIX_CTRL[0], an RW field that reads 1 at reset, is one: REGISTER_WRITE leaves
the field at 1 where the rule of RW gives 0. -/
theorem not_registerWriteByAccessType : ¬ Obligations.register_write_by_access_type := by
  unfold Obligations.register_write_by_access_type
  intro h
  obtain ⟨byAccess, -⟩ := h allUp
  obtain ⟨t, acts, fields, -⟩ := byAccess 0x0011000C 0 msixCtrlRow [0] findRow_msixCtrl rfl rfl rfl
    (by decide +kernel) rfl rfl rfl
  obtain rfl : allUp = t := Host.Outcome.next.inj (registerWrite_unmask_stays.symm.trans acts)
  have masked : allUp.get (Reg.MSIX_CTRL_MASK 0) = 1 := by decide +kernel
  have cleared : allUp.get (Reg.MSIX_CTRL_MASK 0) = 0 := fields _ (List.mem_singleton_self _)
  omega

/-! ### Events (R441) -/

/-- An event code beyond the 16 bits of R455, whose route would lie where OBS_CNT[0] does. -/
def strayCode : Nat := 256 * 0x4FF440

theorem minSev_strayCode : Reg.HST_EV_ROUTE_MIN_SEV (strayCode / 256) = ⟨cntObs 0, 4, 3⟩ := by decide

/-- The machine at reset, with the trace port on and 127 packets counted: one more makes the bits of the stray route's
MIN_SEV 0 where they were 7. -/
def strayState : State := State.reset.puts [(Reg.OBS_CTRL_PORT_EN, 1), (⟨cntObs 0, 0, 48⟩, 0x7F)]

/-- Refutes O60: it takes event codes of any size. The record of `strayCode` is traced before its route is read; the packet
counts on OBS_CNT[0], where that route lies, and the event, below MIN_SEV before, joins the queue of ring 0. -/
theorem not_eventsAndCounters : ¬ Obligations.events_and_counters := by
  unfold Obligations.events_and_counters
  intro h
  obtain ⟨-, -, -, -, belowMinSev, -⟩ := h strayState
  have below : 1 < strayState.get (Reg.HST_EV_ROUTE_MIN_SEV (strayCode / 256)) := by
    rw [minSev_strayCode]; decide +kernel
  obtain ⟨same, -⟩ := belowMinSev strayCode 1 [] ⟨below, by decide⟩ (by decide +kernel) (by decide +kernel)
  have queued : ((strayState.raiseSev strayCode 1 []).host.events.getD 0 EventRing.reset).queue.length = 1 := by decide +kernel
  have empty : (strayState.host.events.getD 0 EventRing.reset).queue.length = 0 := by decide +kernel
  rw [same, empty] at queued
  cases queued

end Sys2Proof.Machine
end

section
/-! PROOFS. Statements on the architecture chapter (spec/01_architecture.md): the frame of every command. -/
namespace Sys2Proof.Machine

/-! ### From a part that changed to the list that names it -/

theorem Part.mem_of_isIn {p : Part} {P : List Part} (h : p.isIn P = true) : p ∈ P := by
  induction P with
  | nil => cases h
  | cons q r ih =>
    rw [Part.isIn] at h
    split at h
    case isTrue e => exact e ▸ List.mem_cons_self
    case isFalse => exact List.mem_cons_of_mem q (ih h)

theorem Kept.tide_isIn {P : List Part} {s t : State} (h : Kept P s t) (moved : t.tide ≠ s.tide) :
    Part.isIn .tide P = true :=
  Bool.of_not_eq_false fun absent => moved (h.tide absent)

theorem Kept.dram_isIn {P : List Part} {s t : State} (h : Kept P s t) (changed : t.dram ≠ s.dram) :
    Part.isIn .dram P = true :=
  Bool.of_not_eq_false fun absent => changed (h.dram absent)

/-! ### What the rows list -/

/-- Always-on time is counted by the idle tide clock alone, not by a command. -/
theorem touches_lacks_aon (c : Instr) : Part.isIn .aon (touches c) = false := by
  cases c <;> rfl

/-- The rows that list tide time: those that can end in a cold reset, and the power-up of a domain. -/
theorem touches_tide_cases {c : Instr} (h : Part.isIn .tide (touches c) = true) :
    c = .perstNAssert ∨ c = .pwrOkFall ∨ c = .brownOut ∨ c = .protectiveResetEnd ∨ c = .extest ∨ c = .clamp ∨ c = .highz ∨
      c = .testLogicReset ∨ ∃ d, c = .domainPowerUp d := by
  cases c with
  | perstNAssert | pwrOkFall | brownOut | protectiveResetEnd | extest | clamp | highz | testLogicReset => simp
  | domainPowerUp d => simp
  | _ => cases h

/-- Settles O57: each clause reads the list that `exec_kept` gives for the row of the command. -/
theorem noCommandTouchesOtherParts : Obligations.no_command_touches_other_parts := by
  unfold Obligations.no_command_touches_other_parts
  refine ⟨fun c s t ran => ?_, fun c s t ran moved => ?_, fun c s t ran changed => ?_⟩
  · have kept := exec_kept c s t ran
    exact ⟨kept.eq, kept.pending, kept.aon (touches_lacks_aon c)⟩
  · exact touches_tide_cases ((exec_kept c s t ran).tide_isIn moved)
  · have listed := (exec_kept c s t ran).dram_isIn changed
    refine ⟨Part.mem_of_isIn listed, ?_, fun d => ?_, fun v => ?_, fun v => ?_⟩ <;>
      · rintro rfl
        cases listed

end Sys2Proof.Machine
end

section
/-! PROOFS. Statements on the pattern stream chapter (spec/03_pattern_stream.md): the records of a stream, one by one. -/
namespace Sys2Proof.Machine

/-! ### The streams of the machine -/

theorem listModify_eq_modify {α : Type} (l : List α) (n : Nat) (f : α → α) : listModify l n f = l.modify n f := by
  induction l generalizing n with
  | nil => cases n <;> rfl
  | cons x r ih =>
    cases n with
    | zero => rfl
    | succ n => rw [listModify, ih, List.modify_succ_cons]

theorem State.stream_eq_getElem? (s : State) (k : Nat) : s.stream k = s.box.streams[k]?.getD Stream.closed :=
  List.getD_eq_getElem?_getD

@[simp] theorem State.modStream_length (s : State) (h : Nat) (f : Stream → Stream) :
    (s.modStream h f).box.streams.length = s.box.streams.length := by
  show (listModify s.box.streams h f).length = _
  rw [listModify_eq_modify, List.length_modify]

theorem State.modStream_same (s : State) {h : Nat} (f : Stream → Stream) (inside : h < s.box.streams.length) :
    (s.modStream h f).stream h = f (s.stream h) := by
  rw [State.stream_eq_getElem?, State.stream_eq_getElem?]
  show (listModify s.box.streams h f)[h]?.getD _ = _
  rw [listModify_eq_modify, List.getElem?_modify, List.getElem?_eq_getElem inside]
  simp

theorem State.modStream_other (s : State) {h k : Nat} (f : Stream → Stream) (apart : k ≠ h) :
    (s.modStream h f).stream k = s.stream k := by
  rw [State.stream_eq_getElem?, State.stream_eq_getElem?]
  show (listModify s.box.streams h f)[k]?.getD _ = _
  rw [listModify_eq_modify, List.getElem?_modify]
  simp [apart.symm]

theorem State.stream_congr {s t : State} (same : t.box = s.box) (k : Nat) : t.stream k = s.stream k := by
  rw [State.stream, State.stream, same]

/-- A handle beyond the streams reads as closed. -/
theorem State.lt_streams_of_isOpen {s : State} {h : Nat} (opened : (s.stream h).isOpen = true) :
    h < s.box.streams.length := by
  by_contra beyond
  rw [State.stream_eq_getElem?, List.getElem?_eq_none (Nat.le_of_not_lt beyond)] at opened
  cases opened

/-! ### What a fault-free record leaves in the machine

The parser answers a stream; of it the machine changes the working buffer's fill and, as layout jobs complete, the jobs.
`Advanced h x s t`: in t stream h is x but for those, and the other streams are those of s. -/

/-- From s to t, stream h has become x but for its working buffer and its layout jobs. -/
structure Advanced (h : Nat) (x : Stream) (s t : State) : Prop where
  here : ∃ used jobs, t.stream h = { x with workUsed := used, jobs := jobs }
  others : ∀ k, k ≠ h → t.stream k = s.stream k

section Advanced
variable {h : Nat} {x : Stream} {s t : State} (a : Advanced h x s t)
include a

theorem Advanced.ctx : (t.stream h).ctx = x.ctx := by obtain ⟨_, _, e⟩ := a.here; rw [e]
theorem Advanced.v2 : (t.stream h).v2 = x.v2 := by obtain ⟨_, _, e⟩ := a.here; rw [e]
theorem Advanced.parsed : (t.stream h).parsed = x.parsed := by obtain ⟨_, _, e⟩ := a.here; rw [e]
theorem Advanced.strips : (t.stream h).strips = x.strips := by obtain ⟨_, _, e⟩ := a.here; rw [e]
theorem Advanced.cells : (t.stream h).cells = x.cells := by obtain ⟨_, _, e⟩ := a.here; rw [e]
theorem Advanced.back : (t.stream h).back = x.back := by obtain ⟨_, _, e⟩ := a.here; rw [e]
theorem Advanced.current : (t.stream h).current = x.current := by rw [Stream.current, a.strips, Stream.current]
theorem Advanced.lastSection : (t.stream h).lastSection = x.lastSection := by
  rw [Stream.lastSection, a.current, Stream.lastSection]

end Advanced

/-- The frame of a record: the parsers and libraries of the other streams stand. -/
theorem Advanced.apart {h : Fin 16} {x : Stream} {s t : State} (a : Advanced h x s t) (k : Fin 16) (ne : k ≠ h) :
    (t.stream k).ctx = (s.stream k).ctx ∧ (t.stream k).strips = (s.stream k).strips ∧
      (t.stream k).cells = (s.stream k).cells := by
  rw [a.others k (Fin.val_ne_of_ne ne)]
  exact ⟨rfl, rfl, rfl⟩

theorem State.completeLayouts_stream_same (s : State) {h : Nat} (upTo : Nat) (inside : h < s.box.streams.length) :
    (s.completeLayouts h upTo).stream h =
      { s.stream h with jobs := (s.stream h).jobs.filter fun j => decide (upTo < j.upTo) } := by
  unfold State.completeLayouts
  rw [State.stream_congr (State.completeAll_kept _ _ _ _ _).box, State.modStream_same _ _ inside]

theorem State.completeLayouts_stream_other (s : State) {h k : Nat} (upTo : Nat) (apart : k ≠ h) :
    (s.completeLayouts h upTo).stream k = s.stream k := by
  unfold State.completeLayouts
  rw [State.stream_congr (State.completeAll_kept _ _ _ _ _).box, State.modStream_other _ _ apart]

/-- Counting dropped records (R58, R103) changes no stream; MARGIN records are left out (R138). -/
theorem State.countRecord_box (s : State) (h : Nat) {typ : Nat} (old : Stream) (noMargin : typ ≠ 0x21) :
    (s.countRecord h typ old).box = s.box := by
  unfold State.countRecord
  dsimp only
  split
  case h_1 => rfl
  case h_2 =>
    rw [if_neg noMargin]
    exact (Kept.fold (fun _ _ k => .of (State.countBy_kept _ _ _) k) (.refl (P := reports))).box

/-- A type of record that the parser of its stream alone takes: no MARGIN, whose effect is counted (R138), no SEAM, which
posted strips judge (R73), and no STRIP record that a posted strip could await (R80, R82). -/
structure State.ParserOnly (s : State) (typ : Nat) : Prop where
  noMargin : typ ≠ 0x21
  noSeam : typ ≠ 0x22
  unposted : typ = 2 → s.box.strips = []

theorem State.parserOnly {s : State} {typ : Nat} (others : natMem typ [0x02, 0x21, 0x22] = false) : s.ParserOnly typ := by
  constructor <;> rintro rfl <;> cases others

theorem State.applyParsed_advanced {s : State} {h off typ : Nat} {x : Stream} (inside : h < s.box.streams.length)
    (alone : s.ParserOnly typ) (sound : x.failed = none) :
    Advanced h x s (s.applyParsed h off typ ⟨x, none⟩) := by
  generalize hc : (s.modStream h fun _ => x).countRecord h typ (s.stream h) = c
  have box : c.box = (s.modStream h fun _ => x).box := hc ▸ State.countRecord_box _ h _ alone.noMargin
  have same : s.applyParsed h off typ ⟨x, none⟩ = c.completeLayouts h x.passed := by
    unfold State.applyParsed
    simp only [hc, sound, alone.noSeam, Option.isSome_none, if_false, Bool.false_eq_true]
    split
    case isTrue e =>
      have noStrips : c.box.strips = [] := by rw [box]; exact alone.unposted e
      rw [noStrips]; rfl
    case isFalse => rfl
  rw [same]
  constructor
  · have e := c.completeLayouts_stream_same (h := h) x.passed (by rw [box, State.modStream_length]; exact inside)
    rw [State.stream_congr box, State.modStream_same _ _ inside] at e
    exact ⟨x.workUsed, _, e⟩
  · intro k apart
    rw [State.completeLayouts_stream_other _ _ apart, State.stream_congr box, State.modStream_other _ _ apart]

/-- R77: a stream whose bytes go on is not truncated. -/
theorem State.checkEnd_of_more {s : State} {h : Nat}
    (more : (s.stream h).last = true → (s.stream h).parsed ≠ (s.stream h).received) : s.checkEnd h = s := by
  unfold State.checkEnd
  exact if_neg fun ⟨_, last, ended, _⟩ => more last ended

/-- The stream that a record leaves, its walk turned to the end of a backwash strip after the header (R101). -/
def State.turned (s : State) (h typ : Nat) (y : Stream) : Stream :=
  if typ = 3 ∧ y.ctx = Ctx.sect 0 ∧ s.backStrip h then y.turnBack else y

theorem State.parseRecord_advanced {s : State} {h n typ : Nat} {rc : List Byte} {y x : Stream}
    (inside : h < s.box.streams.length) (alone : s.ParserOnly typ)
    (parse : (s.stream h).record (s.get Reg.CSC_CFG_DEVICE) (s.get Reg.CSC_CFG_DEVICES) rc = ⟨y, none⟩)
    (turn : s.turned h typ y = x) (sound : x.failed = none) (more : x.last = true → x.parsed ≠ x.received) :
    Advanced h x s (s.parseRecord h n typ rc) := by
  have a := State.applyParsed_advanced (off := (s.stream h).parsed)
    (x := { x with workUsed := (s.stream h).workUsed + n }) inside alone sound
  have same : s.parseRecord h n typ rc = s.applyParsed h (s.stream h).parsed typ
      ⟨{ x with workUsed := (s.stream h).workUsed + n }, none⟩ := by
    unfold State.parseRecord
    simp only [parse, Option.isNone_none, true_and]
    rw [show (if typ = 3 ∧ y.ctx = Ctx.sect 0 ∧ s.backStrip h = true then y.turnBack else y) = x from turn]
    refine State.checkEnd_of_more ?_
    obtain ⟨_, _, e⟩ := a.here
    rw [e]
    exact more
  rw [same]
  obtain ⟨used, jobs, e⟩ := a.here
  exact ⟨⟨used, jobs, e⟩, a.others⟩

/-! ### A record that is there (R53, R54, R447) -/

/-- What `State.recordReady` says of the stream itself. -/
structure Stream.Ready (m : Stream) (typ len : Nat) (rc : List Byte) : Prop where
  isOpen : m.isOpen = true
  failed : m.failed = none
  length : rc.length = 8 * len
  typeIs : fieldAt rc 0 1 = typ
  lenIs : fieldAt rc 1 3 = len
  supplied : m.parsed + 8 * len ≤ m.received
  more : m.last = true → m.parsed + 8 * len < m.received
  room : m.workUsed + 8 * len ≤ m.workLen
  reserved : reservedOk m.v2 typ rc = true
  within : m.crosses (8 * len) = false
  inOrder : m.back = none

theorem State.ready_of_recordReady {s : State} {h typ len : Nat} {rc : List Byte}
    (ready : s.recordReady h typ len rc = true) : (s.stream h).Ready typ len rc ∧ s.headerWaits h = false := by
  simp only [State.recordReady, Bool.and_eq_true, decide_eq_true_eq, Option.isNone_iff_eq_none, Bool.not_eq_true'] at ready
  obtain ⟨⟨⟨⟨⟨⟨opened, failed⟩, bytes⟩, reserved⟩, within⟩, inOrder⟩, waits⟩ := ready
  obtain ⟨length, typeIs, lenIs, supplied, more, room⟩ := bytes
  exact ⟨⟨opened, failed, length, typeIs, lenIs, supplied, more, room, reserved, within, inOrder⟩, waits⟩

/-- A record that is there is parsed by its command. -/
theorem State.takeRecord_of_ready {s : State} {h typ len : Nat} {rc : List Byte} (pos : 1 ≤ len)
    (ready : s.recordReady h typ len rc = true) : s.takeRecord h typ rc = s.parseRecord h (8 * len) typ rc := by
  obtain ⟨r, waits⟩ := State.ready_of_recordReady ready
  have fits : recordFits typ typ = true := by simp [recordFits]
  unfold State.takeRecord
  simp only [r.typeIs, r.lenIs, Nat.max_eq_left pos, r.isOpen, r.failed, r.length, r.inOrder, fits, waits]
  simp [Nat.not_lt.2 r.supplied, Nat.not_lt.2 r.room]

theorem Stream.walkOn_of_inOrder {m : Stream} (inOrder : m.back = none) : m.walkOn = m := by
  simp [Stream.walkOn, inOrder]

/-- The contexts of R55 in which a record meets the checks of `Stream.check`. -/
def Ctx.plain : Ctx → Bool
  | .start | .skip | .tailBack | .markBack _ => false
  | .stream | .cell .. | .header _ | .sect _ | .tail | .padBack => true

theorem Stream.record_of_plain {m : Stream} (plain : m.ctx.plain = true) (device devices : Nat) (rc : List Byte) :
    m.record device devices rc =
      ⟨(m.check (8 * max (fieldAt rc 1 3) 1) (fieldAt rc 0 1) (fieldAt rc 1 3) device devices rc).stream.walkOn,
        (m.check (8 * max (fieldAt rc 1 3) 1) (fieldAt rc 0 1) (fieldAt rc 1 3) device devices rc).fault⟩ := by
  unfold Stream.record
  cases place : m.ctx with
  | start | skip | tailBack | markBack => rw [place] at plain; cases plain
  | stream | cell | header | sect | tail | padBack => rfl

/-- The type, length and place of a record hold (R53, R55), where `Stream.check` judges them. -/
structure Stream.Admits (m : Stream) (typ len : Nat) (rc : List Byte) : Prop where
  plain : m.ctx.plain = true
  known : typeKnown m.v2 typ = true
  lenHolds : lenOk m.v2 typ len rc = true
  permitted : m.ctx.permits typ = true

theorem Stream.Admits.of_ctx {m : Stream} {typ len : Nat} {rc : List Byte} {c : Ctx} (ctx : m.ctx = c)
    (plain : c.plain = true) (known : typeKnown m.v2 typ = true) (lenHolds : lenOk m.v2 typ len rc = true)
    (permitted : c.permits typ = true) : m.Admits typ len rc :=
  ⟨ctx ▸ plain, known, lenHolds, ctx ▸ permitted⟩

/-- A type that both versions have (R81). -/
theorem typeKnown_of_both {typ : Nat} (v2 : Bool) (listed : natMem typ cpsTypes = true)
    (both : natMem typ [0x12, 0x21, 0x22] = false) : typeKnown v2 typ = true := by
  simp [typeKnown, listed, both]

/-- An admitted record that is there comes to its own checks. -/
theorem Stream.Ready.record_eq {m : Stream} {typ len : Nat} {rc : List Byte} (r : m.Ready typ len rc) (pos : 1 ≤ len)
    (admits : m.Admits typ len rc) {device devices : Nat} {y : Stream}
    (own : m.dispatch (8 * len) typ device devices rc = y.ok (8 * len)) (inOrder : y.back = none) :
    m.record device devices rc = y.ok (8 * len) := by
  have checked : m.check (8 * len) typ len device devices rc = y.ok (8 * len) := by
    simp [Stream.check, admits.known, admits.lenHolds, admits.permitted, r.within, r.reserved, own, Nat.ne_of_gt pos]
  rw [Stream.record_of_plain admits.plain, r.typeIs, r.lenIs, Nat.max_eq_left pos, checked]
  show Parsed.mk (y.pass (8 * len)).walkOn none = _
  rw [Stream.walkOn_of_inOrder (m := y.pass (8 * len)) inOrder]
  rfl

/-- y stands where m does: only version, context, library and strips may differ. -/
structure Stream.Beside (m y : Stream) : Prop where
  failed : y.failed = m.failed
  parsed : y.parsed = m.parsed
  received : y.received = m.received
  last : y.last = m.last
  back : y.back = m.back

/-- A ready record in stream order passes its bytes and leaves the stream that the parse gives. -/
theorem State.takeRecord_advanced {s : State} {h typ len : Nat} {rc : List Byte} {y : Stream} (pos : 1 ≤ len)
    (ready : s.recordReady h typ len rc = true) (alone : s.ParserOnly typ)
    (forth : typ ≠ 3 ∨ s.backStrip h = false)
    (parse : (s.stream h).record (s.get Reg.CSC_CFG_DEVICE) (s.get Reg.CSC_CFG_DEVICES) rc = y.ok (8 * len))
    (beside : (s.stream h).Beside y) : Advanced h (y.pass (8 * len)) s (s.takeRecord h typ rc) := by
  obtain ⟨r, -⟩ := State.ready_of_recordReady ready
  rw [State.takeRecord_of_ready pos ready]
  refine State.parseRecord_advanced (State.lt_streams_of_isOpen r.isOpen) alone parse ?_
    (beside.failed.trans r.failed) fun last => ?_
  · exact if_neg fun ⟨table, _, back⟩ => forth.elim (· table) fun e => by rw [e] at back; cases back
  · have supplied := r.more (beside.last ▸ last)
    show y.parsed + 8 * len ≠ y.received
    rw [beside.parsed, beside.received]
    omega

/-- An admitted record in stream order, by its own rule. -/
theorem State.takeRecord_of_dispatch {s : State} {h typ len : Nat} {rc : List Byte} {y : Stream} (pos : 1 ≤ len)
    (ready : s.recordReady h typ len rc = true) (admits : (s.stream h).Admits typ len rc) (alone : s.ParserOnly typ)
    (forth : typ ≠ 3 ∨ s.backStrip h = false)
    (own : (s.stream h).dispatch (8 * len) typ (s.get Reg.CSC_CFG_DEVICE) (s.get Reg.CSC_CFG_DEVICES) rc = y.ok (8 * len))
    (beside : (s.stream h).Beside y) : Advanced h (y.pass (8 * len)) s (s.takeRecord h typ rc) := by
  obtain ⟨r, -⟩ := State.ready_of_recordReady ready
  exact State.takeRecord_advanced pos ready alone forth
    (r.record_eq pos admits own (beside.back.trans r.inOrder)) beside

/-- The strip in progress, changed. -/
theorem Stream.modCurrent_of_current {m : Stream} {r : StripRec} (current : m.current = some r) (f : StripRec → StripRec) :
    m.modCurrent f = { m with strips := m.strips.dropLast ++ [f r] } := by
  unfold Stream.current at current
  simp [Stream.modCurrent, current]

/-! ### The records outside sections (R61 to R65) -/

theorem Stream.Ready.record_streamHeader {m : Stream} {rc : List Byte} (r : m.Ready 1 2 rc) (start : m.ctx = .start)
    (magic : fieldAt rc 4 4 = 0x534E5943) (major : fieldAt rc 8 1 = 2 ∨ fieldAt rc 8 1 = 3) (minor : fieldAt rc 9 1 = 0)
    (device devices : Nat) :
    m.record device devices rc = { m with v2 := decide (fieldAt rc 8 1 = 2), ctx := .stream }.ok (8 * 2) := by
  have reserved : reservedOk false 1 rc = true := r.reserved
  have own : m.dispatch (8 * 2) 1 device devices rc =
      { m with v2 := decide (fieldAt rc 8 1 = 2), ctx := .stream }.ok (8 * 2) := by
    unfold Stream.dispatch
    simp only [start]
    rw [if_neg (by omega), if_neg (by omega)]
  unfold Stream.record
  simp only [start, r.typeIs, r.lenIs, reserved]
  exact own

theorem Stream.Ready.dispatch_strip {m : Stream} {rc : List Byte} (r : m.Ready 2 3 rc) (ctx : m.ctx = .stream)
    {device devices : Nat} (fields : stripFieldsOk m.v2 device devices rc = true) :
    m.dispatch (8 * 3) 2 device devices rc =
      { m with strips := m.strips ++ [stripOf m rc], ctx := .header false }.ok (8 * 3) := by
  unfold Stream.dispatch
  simp only [ctx]
  unfold Stream.stripRec
  simp [r.lenIs, r.reserved, fields]

theorem Stream.Ready.stripOf_eq {m : Stream} {rc : List Byte} (r : m.Ready 2 3 rc) :
    stripOf m rc =
      ⟨fieldAt rc 8 4, fieldAt rc 12 4, fieldAt rc 16 8, m.parsed, m.v2, [], [], [], [], false, none, 0⟩ := by
  have whole : ¬ rc.length < 16 := by rw [r.length]; omega
  simp [stripOf, whole]

/-- The classes of a DOSE_TABLE record (R63). -/
def doseClasses (rc : List Byte) : List Nat := ((rc.drop 8).take 256).map (·.toNat)

theorem doseClasses_headD {rc : List Byte} (long : 8 < rc.length) : (doseClasses rc).headD 1 = fieldAt rc 8 1 := by
  obtain ⟨b, l, e⟩ : ∃ b l, rc.drop 8 = b :: l := ⟨_, _, List.drop_eq_getElem_cons long⟩
  unfold doseClasses fieldAt
  rw [e]
  simp [leNat]

/-- R63: class 0 exposes nothing, and every class is a dose or is undefined. -/
theorem Stream.dispatch_doseTable {m : Stream} {n device devices : Nat} {tabled : Bool} {rc : List Byte} {r : StripRec}
    (ctx : m.ctx = .header tabled) (current : m.current = some r) (long : 8 < rc.length) (zero : fieldAt rc 8 1 = 0)
    (doses : ∀ d ∈ (rc.drop 8).take 256, d.toNat ≤ 60 ∨ d.toNat = 255) :
    m.dispatch n 3 device devices rc = { m with
      strips := m.strips.dropLast ++
        [{ r with table := doseClasses rc, sections := [Section.new (m.parsed + n - r.off)] }],
      ctx := .sect 0 }.ok n := by
  have head : ((((rc.drop 8).take 256).map (·.toNat)).headD 1) = 0 := (doseClasses_headD long).trans zero
  have inRange : (((rc.drop 8).take 256).map (·.toNat)).any (fun d => decide (61 ≤ d ∧ d ≤ 254)) = false := by
    rw [List.any_eq_false]
    intro c hc
    obtain ⟨d, hd, rfl⟩ := List.mem_map.1 hc
    have := doses d hd
    simp only [decide_eq_true_eq]
    omega
  unfold Stream.dispatch
  simp only [ctx, current]
  unfold Stream.doseTable
  simp only [head, inRange, Stream.modCurrent_of_current current]
  rfl

theorem Stream.dispatch_cellBegin {m : Stream} {device devices : Nat} {rc : List Byte} (ctx : m.ctx = .stream)
    (number : 1 ≤ fieldAt rc 4 4 ∧ fieldAt rc 4 4 ≤ 1048575) (fresh : findCell m.cells (fieldAt rc 4 4) = none)
    (box : s32At rc 8 ≤ s32At rc 12 ∧ s32At rc 16 ≤ s32At rc 20)
    (room : m.cells.length < 1048575 ∧ m.libraryBytes + 24 ≤ 2 ^ 32) :
    m.dispatch (8 * 3) 8 device devices rc = { m with
      ctx := .cell (fieldAt rc 4 4) (s32At rc 8) (s32At rc 12) (s32At rc 16) (s32At rc 20) 0 1 m.parsed [] }.ok (8 * 3) := by
  unfold Stream.dispatch
  simp only [ctx, fresh, Option.isSome_none, Bool.false_eq_true, or_false]
  rw [if_neg (by omega), if_neg (by omega), if_neg (by omega)]

theorem Stream.dispatch_cellEnd {m : Stream} {device devices num records depth off : Nat} {bx0 bx1 by0 by1 : Int}
    {shapes : List Shape} {rc : List Byte} (ctx : m.ctx = .cell num bx0 bx1 by0 by1 records depth off shapes)
    (agrees : fieldAt rc 4 4 = num ∧ fieldAt rc 8 4 = records)
    (room : m.libraryBytes + (m.parsed + 16 - off) ≤ 2 ^ 32) :
    m.dispatch (8 * 2) 9 device devices rc = { m with
      ctx := .stream,
      cells := m.cells ++ [(⟨num, bx0, bx1, by0, by1, depth, shapes, m.parsed + 16 - off⟩ : Cell)] }.ok (8 * 2) := by
  unfold Stream.dispatch
  simp only [ctx]
  unfold Stream.cellRec
  simp only [ctx]
  rw [if_neg (by omega), if_neg (by omega)]

/-! ### The header of a backwash strip (R59, R101) -/

theorem Stream.turnBack_of_current {m : Stream} {r : StripRec} (current : m.current = some r) :
    m.turnBack = { m with
      strips := m.strips.dropLast ++ [{ r with sections := [] }],
      back := some ⟨m.parsed, 0⟩, ctx := .tailBack, parsed := r.off + r.bytes - 16 } := by
  unfold Stream.turnBack
  simp only [current, Stream.modCurrent_of_current current]

/-- A header that does not wait has all bytes of its backwash strip supplied. -/
theorem State.supplied_of_headerWaits {s : State} {h : Nat} {tabled : Bool} {r : StripRec} (waits : s.headerWaits h = false)
    (ctx : (s.stream h).ctx = .header tabled) (current : (s.stream h).current = some r) (back : s.backStrip h = true) :
    r.off + r.bytes ≤ (s.stream h).received := by
  simpa [State.headerWaits, ctx, current, back] using waits

theorem Stream.Ready.within_header {m : Stream} {typ len : Nat} {tabled : Bool} {rc : List Byte} {r : StripRec}
    (ready : m.Ready typ len rc) (ctx : m.ctx = .header tabled) (current : m.current = some r) :
    m.parsed + 8 * len ≤ r.off + r.bytes := by
  simpa [Stream.crosses, ctx, current] using ready.within

/-- Settles O10: each record's own rule answers its next context, and `takeRecord_of_dispatch` carries that answer to the
machine; after the DOSE_TABLE of a backwash strip the parser turns to the strip's end, which has been supplied. -/
theorem recordsOutsideSections : Obligations.records_outside_sections := by
  unfold Obligations.records_outside_sections
  intro s
  refine ⟨?header, ?strip, ?table, ?tableBack, ?cellBegin, ?cellEnd, ?pad⟩
  case header =>
    intro h rc ready start magic major minor
    obtain ⟨r, -⟩ := State.ready_of_recordReady ready
    have a := State.takeRecord_advanced (by decide) ready (State.parserOnly rfl) (.inl (by decide))
      (r.record_streamHeader start magic major minor _ _) ⟨rfl, rfl, rfl, rfl, rfl⟩
    have kept : Kept [.regs, .hostMem, .host, .obs, .time, .box, .store, .seq, .tid, .csc] s (s.takeRecord h 1 rc) :=
      .of (s.takeRecord_kept h 1 rc) .refl
    exact ⟨_, rfl, a.ctx, a.v2, a.parsed, a.apart, kept.eq⟩
  case strip =>
    intro h rc ready ctx noStrips fields
    obtain ⟨r, -⟩ := State.ready_of_recordReady ready
    have admits : (s.stream h).Admits 2 3 rc := .of_ctx ctx rfl (typeKnown_of_both _ rfl rfl) rfl rfl
    have alone : s.ParserOnly 2 := ⟨by decide, by decide, fun _ => noStrips⟩
    have a := State.takeRecord_of_dispatch (by decide) ready admits alone (.inl (by decide))
      (r.dispatch_strip ctx fields) ⟨rfl, rfl, rfl, rfl, rfl⟩
    exact ⟨_, rfl, a.ctx, a.strips.trans (by rw [← r.stripOf_eq]; rfl), a.parsed, a.apart⟩
  case table =>
    intro h rc x ready forth ctx current zero doses
    obtain ⟨r, -⟩ := State.ready_of_recordReady ready
    have admits : (s.stream h).Admits 3 33 rc := .of_ctx ctx rfl (typeKnown_of_both _ rfl rfl) rfl rfl
    have a := State.takeRecord_of_dispatch (by decide) ready admits (State.parserOnly rfl) (.inr forth)
      (Stream.dispatch_doseTable ctx current (by rw [r.length]; decide) zero doses) ⟨rfl, rfl, rfl, rfl, rfl⟩
    refine ⟨_, rfl, a.ctx, ?_, a.parsed, a.apart⟩
    rw [a.current]
    simp [Stream.current, Stream.pass, doseClasses]
  case tableBack =>
    intro h rc x ready back ctx current zero doses
    obtain ⟨r, waits⟩ := State.ready_of_recordReady ready
    have admits : (s.stream h).Admits 3 33 rc := .of_ctx ctx rfl (typeKnown_of_both _ rfl rfl) rfl rfl
    have supplied := State.supplied_of_headerWaits waits ctx current back
    have within := r.within_header ctx current
    have a := State.parseRecord_advanced (n := 8 * 33) (State.lt_streams_of_isOpen r.isOpen) (State.parserOnly rfl)
      (r.record_eq (by decide) admits
        (Stream.dispatch_doseTable ctx current (by rw [r.length]; decide) zero doses) r.inOrder)
      ((if_pos ⟨rfl, rfl, back⟩).trans (Stream.turnBack_of_current (by simp [Stream.current, Stream.pass]; rfl)))
      r.failed (fun _ => by simp only [Stream.pass]; omega)
    rw [← State.takeRecord_of_ready (by decide) ready] at a
    refine ⟨_, rfl, a.ctx, a.parsed, ?_, a.back, a.apart⟩
    rw [a.current]
    simp [Stream.current, doseClasses]
  case cellBegin =>
    intro h rc ready ctx number fresh box room
    have admits : (s.stream h).Admits 8 3 rc := .of_ctx ctx rfl (typeKnown_of_both _ rfl rfl) rfl rfl
    have a := State.takeRecord_of_dispatch (by decide) ready admits (State.parserOnly rfl) (.inl (by decide))
      (Stream.dispatch_cellBegin ctx number fresh box room) ⟨rfl, rfl, rfl, rfl, rfl⟩
    exact ⟨_, rfl, a.ctx, a.parsed, a.apart⟩
  case cellEnd =>
    intro h rc num records depth off bx0 bx1 by0 by1 shapes ready ctx agrees room
    have admits : (s.stream h).Admits 9 2 rc := .of_ctx ctx rfl (typeKnown_of_both _ rfl rfl) rfl rfl
    have a := State.takeRecord_of_dispatch (by decide) ready admits (State.parserOnly rfl) (.inl (by decide))
      (Stream.dispatch_cellEnd ctx agrees room) ⟨rfl, rfl, rfl, rfl, rfl⟩
    exact ⟨_, rfl, a.ctx, a.cells, a.parsed, a.apart⟩
  case pad =>
    intro h rc len pos ready ctx
    have admits : (s.stream h).Admits 0 len rc :=
      .of_ctx ctx rfl (typeKnown_of_both _ rfl rfl) (decide_eq_true pos.1) rfl
    have own : ∀ device devices, (s.stream h).dispatch (8 * len) 0 device devices rc = (s.stream h).ok (8 * len) := by
      intro device devices
      unfold Stream.dispatch
      simp only [ctx]
    have a := State.takeRecord_of_dispatch pos.1 ready admits (State.parserOnly rfl) (.inl (by decide))
      (own _ _) ⟨rfl, rfl, rfl, rfl, rfl⟩
    exact ⟨_, rfl, a.ctx, a.strips, a.cells, a.parsed, a.apart⟩

/-! ### Shapes of a section (R58, R64, R66 to R68, R76) -/

/-- The types of a primitive or a reference. -/
def bodyTypes : List Nat := [0x10, 0x11, 0x12, 0x13, 0x18, 0x19]

theorem natMem_bodyTypes_cases {typ : Nat} (body : natMem typ bodyTypes = true) :
    typ = 0x10 ∨ typ = 0x11 ∨ typ = 0x12 ∨ typ = 0x13 ∨ typ = 0x18 ∨ typ = 0x19 := by
  simp only [natMem, bodyTypes, List.any_cons, List.any_nil, Bool.or_eq_true, Bool.or_false, decide_eq_true_eq] at body
  omega

theorem Stream.sectionRec_of_body {m : Stream} {typ : Nat} (body : natMem typ bodyTypes = true) (n k : Nat)
    (rc : List Byte) (r : StripRec) : m.sectionRec n typ k rc r = m.shape n typ rc r := by
  rcases natMem_bodyTypes_cases body with rfl | rfl | rfl | rfl | rfl | rfl <;> rfl

theorem Ctx.permits_sect_of_body {typ : Nat} (body : natMem typ bodyTypes = true) (k : Nat) :
    (Ctx.sect k).permits typ = true := by
  unfold bodyTypes at body
  simp [Ctx.permits, body]

theorem StripRec.modLast_getLast? {r : StripRec} {q : Section} (last : r.sections.getLast? = some q)
    (f : Section → Section) : (r.modLast f).sections.getLast? = some (f q) := by
  simp [StripRec.modLast, last]

/-- A shape that holds joins the last section of the strip in progress, at the offset of its record. -/
theorem Stream.shape_of_holds {m : Stream} {typ : Nat} {rc : List Byte} {r : StripRec} {q : Section} {sh : Shape}
    (current : m.current = some r) (last : r.sections.getLast? = some q) (fields : shapeOf m.cells typ rc = .ok sh)
    (extent : sh.inRange m.cells (2 ^ 40) = true) (classes : shapeClassesOk m.cells r.table sh = true) (n : Nat) :
    ∃ y, m.shape n typ rc r = y.ok n ∧ m.Beside y ∧ y.ctx = m.ctx ∧
      y.lastSection.map (·.shapes) = some (q.shapes ++ [(m.parsed, sh)]) := by
  unfold Stream.shape
  simp only [fields, extent, classes, not_true_eq_false, if_false, Stream.modCurrent_of_current current]
  refine ⟨_, rfl, ⟨rfl, rfl, rfl, rfl, rfl⟩, rfl, ?_⟩
  simp [Stream.lastSection, Stream.current, StripRec.modLast_getLast? last]

/-- R58: a ready shape record of a section, taken by its command. -/
theorem State.takeRecord_shape {s : State} {h : Fin 16} {typ len k : Nat} {rc : List Byte} {r : StripRec} {q : Section}
    {sh : Shape} (body : natMem typ bodyTypes = true) (pos : 1 ≤ len) (ready : s.recordReady h typ len rc = true)
    (ctx : (s.stream h).ctx = .sect k) (current : (s.stream h).current = some r) (last : r.sections.getLast? = some q)
    (known : typeKnown (s.stream h).v2 typ = true) (lenHolds : lenOk (s.stream h).v2 typ len rc = true)
    (fields : shapeOf (s.stream h).cells typ rc = .ok sh) (extent : sh.inRange (s.stream h).cells (2 ^ 40) = true)
    (classes : shapeClassesOk (s.stream h).cells r.table sh = true) {t : State} (taken : s.takeRecord h typ rc = t) :
    ((t.stream h).lastSection).map (·.shapes) = some (q.shapes ++ [((s.stream h).parsed, sh)]) ∧
      (t.stream h).ctx = .sect k ∧ (t.stream h).parsed = (s.stream h).parsed + 8 * len ∧
      (∀ k : Fin 16, k ≠ h → (t.stream k).ctx = (s.stream k).ctx ∧ (t.stream k).strips = (s.stream k).strips ∧
        (t.stream k).cells = (s.stream k).cells) := by
  obtain ⟨y, shape, beside, place, joined⟩ := Stream.shape_of_holds current last fields extent classes (8 * len)
  have own : ∀ device devices, (s.stream h).dispatch (8 * len) typ device devices rc = y.ok (8 * len) := by
    intro device devices
    unfold Stream.dispatch
    simp only [ctx, current]
    exact (Stream.sectionRec_of_body body _ _ _ _).trans shape
  have listed := natMem_bodyTypes_cases body
  have alone : s.ParserOnly typ := ⟨by omega, by omega, fun strip => by omega⟩
  have admits : (s.stream h).Admits typ len rc :=
    .of_ctx ctx rfl known lenHolds (Ctx.permits_sect_of_body body k)
  have a := State.takeRecord_of_dispatch pos ready admits alone (.inl (by omega)) (own _ _) beside
  rw [taken] at a
  exact ⟨a.lastSection ▸ joined, a.ctx.trans (place.trans ctx),
    a.parsed.trans (congrArg (· + 8 * len) beside.parsed), a.apart⟩

theorem eq_ok_of_toOption {ε α : Type} {e : Except ε α} {a : α} (some : e.toOption = .some a) : e = .ok a := by
  cases e with
  | error => cases some
  | ok b => cases some; rfl

/-- Settles O11: the fields of each record spell its shape, and `State.takeRecord_shape` joins it to the section. -/
theorem primitivesJoinTheirSection : Obligations.primitives_join_their_section := by
  unfold Obligations.primitives_join_their_section
  intro s
  refine ⟨?rect, ?trap, ?disc, ?patch, ?ref, ?aref⟩
  case rect =>
    intro h rc k r q ready ctx current last box extent classes
    exact ⟨_, rfl, State.takeRecord_shape rfl (by decide) ready ctx current last (typeKnown_of_both _ rfl rfl) rfl
      (if_pos box) extent classes rfl⟩
  case trap =>
    intro h rc k r q ready ctx current last rises ordered wide extent classes
    exact ⟨_, rfl, State.takeRecord_shape rfl (by decide) ready ctx current last (typeKnown_of_both _ rfl rfl) rfl
      (if_pos ⟨rises, ordered.1, ordered.2, wide⟩) extent classes rfl⟩
  case disc =>
    intro h rc k r q ready ctx current last v3 radius extent classes
    exact ⟨_, rfl, State.takeRecord_shape rfl (by decide) ready ctx current last (by rw [v3]; rfl) rfl
      (if_pos radius) extent classes rfl⟩
  case patch =>
    intro h rc k r q sh ready ctx current last fields extent classes
    have lenHolds : lenOk (s.stream h).v2 0x13 (4 + (fieldAt rc 28 4 + 7) / 8) rc = true :=
      decide_eq_true ⟨Nat.le_add_right .., rfl⟩
    exact ⟨_, rfl, State.takeRecord_shape rfl (by omega) ready ctx current last (typeKnown_of_both _ rfl rfl) lenHolds
      (eq_ok_of_toOption fields) extent classes rfl⟩
  case ref =>
    intro h rc k r q sh ready ctx current last fields extent classes
    exact ⟨_, rfl, State.takeRecord_shape rfl (by decide) ready ctx current last (typeKnown_of_both _ rfl rfl) rfl
      (eq_ok_of_toOption fields) extent classes rfl⟩
  case aref =>
    intro h rc k r q sh ready ctx current last fields extent classes
    exact ⟨_, rfl, State.takeRecord_shape rfl (by decide) ready ctx current last (typeKnown_of_both _ rfl rfl) rfl
      (eq_ok_of_toOption fields) extent classes rfl⟩

/-! ### The walk of a backwash strip (R59, R101) -/

/-- A strip of two reams at offset 16 of its stream. -/
def cutStrip : StripRec := ⟨77, 512, 4096, 16, false, [], [], [], [], false, none, 0⟩

/-- Its STRIP_END, which puts the last mark at offset 1,920 of the stream. -/
def cutStripEnd : List Byte := leBytes 1 4 ++ leBytes 3 2 ++ leBytes 4 2 ++ leBytes 8 1904

/-- The machine at reset, but with stream 2 in the walk of that strip: at STRIP_END while only the bytes up to the last
mark have been supplied, and those are the whole stream. -/
def cutState : State :=
  State.reset.modStream 2 fun m => { m with
    isOpen := true, received := 1920, last := true, parsed := 2000, ctx := .tailBack, strips := [cutStrip],
    workLen := 4096, back := some ⟨304, 0⟩ }

/-- STRIP_END takes the parser to the end of the supplied bytes, where R77 truncates the strip. -/
theorem cutState_truncated : ((cutState.takeRecord 2 0x04 cutStripEnd).stream 2).ctx = .stream := by decide +kernel

/-- Refutes O12: `walkReady` leaves open whether the bytes of the walk have been supplied. Where the stream's declared length
ends at the place of the last mark, the parser that STRIP_END takes there stands at the end of the stream (R77), so the strip
is truncated and passed over, where the statement has the mark of its last ream come next. -/
theorem not_sectionMarksMarginsSeamsEnd : ¬ Obligations.section_marks_margins_seams_end := by
  unfold Obligations.section_marks_margins_seams_end
  intro h
  obtain ⟨-, -, -, -, stripEndBack, -⟩ := h cutState
  obtain ⟨t, acts, ctx, -⟩ := stripEndBack 2 cutStripEnd cutStrip ⟨304, 0⟩ (by decide +kernel) (by decide +kernel)
    (by decide +kernel) (by decide) (by decide) (by decide) (by decide +kernel)
  obtain rfl : cutState.takeRecord 2 0x04 cutStripEnd = t := Host.Outcome.next.inj acts
  exact absurd (cutState_truncated.symm.trans ctx) (by decide)

end Sys2Proof.Machine
end

section
/-! PROOFS. Statements on the headbox chapter (spec/05_headbox_and_vats.md): tile jobs and the upkeep of the headbox. -/
namespace Sys2Proof.Machine

set_option Elab.async false

/-! ### What the operations of the headbox leave of its own state and of the store's -/

section Frames
variable (s : State)

@[simp] theorem State.countBy_box (off n : Nat) : (s.countBy off n).box = s.box := (s.countBy_kept off n).box
@[simp] theorem State.countBy_store (off n : Nat) : (s.countBy off n).store = s.store := (s.countBy_kept off n).store
@[simp] theorem State.jobDone_box (j : TileJob) (a b c : Nat) : (s.jobDone j a b c).box = s.box :=
  (s.jobDone_kept j a b c).box
@[simp] theorem State.jobDone_store (j : TileJob) (a b c : Nat) : (s.jobDone j a b c).store = s.store :=
  (s.jobDone_kept j a b c).store
@[simp] theorem State.consumeFlagged_box (r : Nat) : (s.consumeFlagged r).box = s.box := (s.consumeFlagged_kept r).box
@[simp] theorem State.consumeFlagged_store (r : Nat) : (s.consumeFlagged r).store = s.store :=
  (s.consumeFlagged_kept r).store
@[simp] theorem State.showJobs_box : s.showJobs.box = s.box := s.showJobs_kept.box
@[simp] theorem State.showJobs_store : s.showJobs.store = s.store := s.showJobs_kept.store
@[simp] theorem State.showStore_box : s.showStore.box = s.box := s.showStore_kept.box
@[simp] theorem State.showStore_store : s.showStore.store = s.store := s.showStore_kept.store
@[simp] theorem State.showLead_box : s.showLead.box = s.box := s.showLead_kept.box
@[simp] theorem State.showLead_store : s.showLead.store = s.store := s.showLead_kept.store
@[simp] theorem State.showVats_box : s.showVats.box = s.box := s.showVats_kept.box
@[simp] theorem State.poolEvents_box (a b c : Nat) : (s.poolEvents a b c).box = s.box := (s.poolEvents_kept a b c).box
@[simp] theorem State.sendHalo_box (a r : Nat) : (s.sendHalo a r).box = s.box := (s.sendHalo_kept a r).box
@[simp] theorem State.settleVats_store : s.settleVats.store = s.store := s.settleVats_kept.store
@[simp] theorem State.skipTests_store : s.skipTests.store = s.store := s.skipTests_kept.store
@[simp] theorem State.spareTestAfter_store (j : TileJob) (w : Nat) : (s.spareTestAfter j w).store = s.store :=
  (s.spareTestAfter_kept j w).store
@[simp] theorem State.checkRendered_store (a : Nat) : (s.checkRendered a).store = s.store := (s.checkRendered_kept a).store
@[simp] theorem State.judgeSeams_store (a : Nat) : (s.judgeSeams a).store = s.store := (s.judgeSeams_kept a).store
@[simp] theorem State.modTile_box (a r j : Nat) (f : TileRec → TileRec) : (s.modTile a r j f).box = s.box := rfl
@[simp] theorem State.modTile_held (a r j : Nat) (f : TileRec → TileRec) :
    (s.modTile a r j f).store.held = s.store.held := rfl
@[simp] theorem State.modStrip_store (a : Nat) (f : Strip → Strip) : (s.modStrip a f).store = s.store := rfl
@[simp] theorem State.modStrip_jobs (a : Nat) (f : Strip → Strip) : (s.modStrip a f).box.jobs = s.box.jobs := rfl
@[simp] theorem State.modStrip_wanted (a : Nat) (f : Strip → Strip) : (s.modStrip a f).box.wanted = s.box.wanted := rfl

/-- A skipped spare test is a waiting request, not a job. -/
theorem State.skipTests_box : ∃ l, s.skipTests.box = { s.box with wanted := l } := ⟨_, State.countBy_box _ _ _⟩

@[simp] theorem State.skipTests_jobs : s.skipTests.box.jobs = s.box.jobs := by
  obtain ⟨l, e⟩ := s.skipTests_box
  rw [e]

@[simp] theorem State.skipTests_strips : s.skipTests.box.strips = s.box.strips := by
  obtain ⟨l, e⟩ := s.skipTests_box
  rw [e]

@[simp] theorem State.spareTestAfter_jobs (j : TileJob) (w : Nat) : (s.spareTestAfter j w).box.jobs = s.box.jobs := by
  unfold State.spareTestAfter
  dsimp only
  split
  · rfl
  · split
    · rw [State.skipTests_jobs]
    · rw [State.count_box]

@[simp] theorem State.checkRendered_jobs (a : Nat) : (s.checkRendered a).box.jobs = s.box.jobs := by
  unfold State.checkRendered
  split
  · rfl
  · split
    · rw [State.raise_box]; rfl
    · rfl

theorem State.foldl_raise_box {α : Type} (l : List α) (code : Nat) (payload : α → List (Nat × Nat)) :
    (l.foldl (fun s a => s.raise code (payload a)) s).box = s.box :=
  (Kept.fold (fun _ _ k => .of (State.raise_kept _ _ _) k) (.refl (P := reports))).box

@[simp] theorem State.judgeSeams_jobs (a : Nat) : (s.judgeSeams a).box.jobs = s.box.jobs := by
  unfold State.judgeSeams
  split
  · rfl
  · split
    · rfl
    · dsimp only
      rw [State.foldl_raise_box]
      rfl

/-- Vats that take the roles they wait for leave the waiting list. -/
theorem State.settleVats_box : ∃ l, s.settleVats.box = { s.box with leaving := l } := by
  unfold State.settleVats
  dsimp only
  split
  · exact ⟨s.box.leaving, rfl⟩
  · rw [State.poolEvents_box, State.showVats_box]
    exact ⟨_, (Kept.fold (fun _ _ k => .of (State.put_kept _ _ _) k) (.refl (P := [.regs]))).box⟩

end Frames

/-! ### Strips -/

theorem State.stripAt_congr {s t : State} (same : t.box.strips = s.box.strips) (k : Nat) : t.stripAt k = s.stripAt k := by
  rw [State.stripAt, State.stripAt, same]

theorem State.slot_of_stripAt {s : State} {k : Nat} {st : Strip} (strip : s.stripAt k = some st) : st.slot = k :=
  of_decide_eq_true (List.find?_some (p := fun x : Strip => decide (x.slot = k)) strip)

theorem find?_map_of_keeps {α : Type} {p : α → Bool} {f : α → α} (keeps : ∀ x, p (f x) = p x) (l : List α) :
    (l.map f).find? p = (l.find? p).map f := by
  rw [List.find?_map, show p ∘ f = p from funext keeps]

theorem State.stripAt_modStrip (s : State) (k : Nat) {f : Strip → Strip} (slot : ∀ x, (f x).slot = x.slot) :
    (s.modStrip k f).stripAt k = (s.stripAt k).map f := by
  unfold State.stripAt State.modStrip
  dsimp only
  rw [find?_map_of_keeps]
  · cases strip : s.box.strips.find? fun st => decide (st.slot = k) with
    | none => rfl
    | some st => simp only [Option.map_some, if_pos (State.slot_of_stripAt strip)]
  · intro x
    split
    · rw [slot]
    · rfl

/-! ### Register words that a put does not reach -/

theorem rfWord_put_apart (rf : RegFile) (f : Field) (x : Nat) {o : Nat} (low : f.off ≠ o) (high : f.off + 4 ≠ o) :
    rfWord (rfPut rf f x) o = rfWord rf o := by
  unfold rfPut
  split
  · rw [rfWord_set, if_neg high, rfWord_set, if_neg low]
  · rw [rfWord_set, if_neg low]

theorem rfGet_eq_word (rf : RegFile) {f : Field} (one : f.spans = false) :
    rfGet rf f = bvField ((rfWord rf f.off).setWidth 64) f.lo f.width := by
  rw [rfGet, one]; rfl

/-- A put of a role leaves the limit of R118, whatever the vat: `HBX_VAT_ROLE` and the word after it lie before it. -/
theorem State.get_limit_putRole (s : State) (v role : Nat) :
    (s.put ⟨0x00200010, 2 * v, 2⟩ role).get Reg.HBX_JOB_LIMIT_CYCLES = s.get Reg.HBX_JOB_LIMIT_CYCLES := by
  show rfGet (rfPut _ _ _) _ = rfGet _ _
  rw [rfGet_eq_word _ rfl, rfGet_eq_word _ rfl, rfWord_put_apart _ _ _ (by simp) (by simp)]

theorem limit_quiet : Field.Quiet Reg.HBX_JOB_LIMIT_CYCLES := by
  refine ⟨⟨by decide, by decide⟩, ?_⟩
  decide

/-- A register field outside HBX_STATUS and the VAT_STATUS registers reads through the views of vats and queues. -/
structure Field.OffViews (g : Field) : Prop where
  sound : g.Sound
  status : g.base + g.width ≤ 8 * 0x00200024 ∨ 8 * 0x00200028 ≤ g.base
  vats : g.base + g.width ≤ 8 * 0x00300000 ∨ 8 * 0x00400000 ≤ g.base

theorem State.get_fold_keep {α : Type} {f : State → α → State} {g : Field} {l : List α} (s : State)
    (keep : ∀ x, ∀ a ∈ l, (f x a).get g = x.get g) : (l.foldl f s).get g = s.get g := by
  induction l generalizing s with
  | nil => rfl
  | cons a r ih =>
    rw [List.foldl_cons, ih _ fun x b hb => keep x b (List.mem_cons_of_mem _ hb), keep _ a List.mem_cons_self]

section Views
variable {g : Field} (off : g.OffViews)
include off

theorem Field.OffViews.apart_status {lo w : Nat} (small : lo + w ≤ 32) : Field.Apart ⟨0x00200024, lo, w⟩ g := by
  obtain ⟨sound, status, -⟩ := off
  refine ⟨⟨by dsimp only, by dsimp only; omega⟩, sound, ?_⟩
  simp only [Field.base] at status ⊢
  omega

theorem Field.OffViews.apart_vat {v lo w : Nat} (vat : v < 16) (small : lo + w ≤ 32) :
    Field.Apart ⟨0x00300000 + v * 0x10000, lo, w⟩ g := by
  obtain ⟨sound, -, vats⟩ := off
  refine ⟨⟨by dsimp only; omega, by dsimp only; omega⟩, sound, ?_⟩
  simp only [Field.base] at vats ⊢
  omega

theorem State.get_showVats (s : State) : s.showVats.get g = s.get g := by
  unfold State.showVats
  rw [State.get_puts_apart, State.get_fold_keep]
  · exact fun x v hv => x.get_put_apart _ (off.apart_vat (List.mem_range.1 hv) (by decide))
  · simp only [List.forall_mem_cons, List.not_mem_nil, false_implies, implies_true, and_true]
    exact ⟨off.apart_status (by decide), off.apart_status (by decide)⟩

theorem State.get_showJobs (s : State) : s.showJobs.get g = s.get g := by
  unfold State.showJobs
  dsimp only
  rw [State.get_fold_keep, State.get_put_apart _ _ (off.apart_status (by decide))]
  intro x v hv
  refine x.get_puts_apart _ ?_
  simp only [List.forall_mem_cons, List.not_mem_nil, false_implies, implies_true, and_true]
  exact ⟨off.apart_vat (List.mem_range.1 hv) (by decide), off.apart_vat (List.mem_range.1 hv) (by decide)⟩

end Views

theorem State.poolEvents_noted (s : State) (a b c : Nat) : Noted s (s.poolEvents a b c) := by
  have low := Noted.ite (p := (s.vatsOf 0).length < s.get Reg.HBX_VAT_CFG_MIN_ACTIVE ∧ s.get Reg.HBX_VAT_CFG_MIN_ACTIVE ≤ b)
    (raise_noted s 0x0204 [(1, a), (4, 0xFFFFFFFF), (1, 0xFF), (1, 0xFF), (4, (s.vatsOf 0).length)]) (.rfl' s)
  exact Noted.ite (low.trans (raise_noted _ _ _)) low

theorem limit_offViews : Field.OffViews Reg.HBX_JOB_LIMIT_CYCLES := ⟨limit_quiet.1, by decide, by decide⟩

theorem State.get_limit_settleVats (s : State) :
    s.settleVats.get Reg.HBX_JOB_LIMIT_CYCLES = s.get Reg.HBX_JOB_LIMIT_CYCLES := by
  unfold State.settleVats
  dsimp only
  split
  · rfl
  · rw [(State.poolEvents_noted _ _ _ _).quiet _ limit_quiet, State.get_showVats limit_offViews,
      State.get_fold_keep]
    · rfl
    · exact fun x p _ => x.get_limit_putRole p.1 p.2

/-! ### The oldest job of a vat (R108) -/

/-- u is s with the job j of vat v out of its queue; of the headbox, the roles that vats wait for may be taken. -/
structure JobTaken (s : State) (v : Nat) (j : TileJob) (u : State) : Prop where
  vat : j.vat = v
  box : ∃ l, u.box = { s.box with jobs := s.box.jobs.erase j, leaving := l }
  store : u.store = s.store
  limit : u.get Reg.HBX_JOB_LIMIT_CYCLES = s.get Reg.HBX_JOB_LIMIT_CYCLES

theorem State.jobTaken_of_takeVatJob {s u : State} {v : Nat} {j : TileJob} (taken : s.takeVatJob v = some (j, u)) :
    JobTaken s v j u := by
  unfold State.takeVatJob at taken
  split at taken
  case h_1 => cases taken
  case h_2 k r queue =>
    obtain ⟨rfl, rfl⟩ := Prod.mk.inj (Option.some.inj taken)
    refine ⟨?_, ?_, ?_, ?_⟩
    · have queued : k ∈ s.vatQueue v := queue ▸ List.mem_cons_self
      exact of_decide_eq_true (List.mem_filter.1 queued).2
    · obtain ⟨l, e⟩ := State.settleVats_box (State.showJobs { s with box := { s.box with jobs := s.box.jobs.erase k } })
      exact ⟨l, by rw [e, State.showJobs_box]⟩
    · rw [State.settleVats_store, State.showJobs_store]
    · rw [State.get_limit_settleVats, State.get_showJobs limit_offViews]
      rfl

section Taken
variable {s u : State} {v : Nat} {j : TileJob} (taken : JobTaken s v j u)
include taken

theorem JobTaken.jobs : u.box.jobs = s.box.jobs.erase j := by obtain ⟨l, e⟩ := taken.box; rw [e]
theorem JobTaken.strips : u.box.strips = s.box.strips := by obtain ⟨l, e⟩ := taken.box; rw [e]
theorem JobTaken.wanted : u.box.wanted = s.box.wanted := by obtain ⟨l, e⟩ := taken.box; rw [e]
theorem JobTaken.stripAt (k : Nat) : u.stripAt k = s.stripAt k := State.stripAt_congr taken.strips k

end Taken

/-! ### Issuing (R108) -/

@[simp] theorem State.wakeQuads_jobs (s : State) (l : List Nat) : (s.wakeQuads l).box.jobs = s.box.jobs := rfl
@[simp] theorem State.wakeQuads_strips (s : State) (l : List Nat) : (s.wakeQuads l).box.strips = s.box.strips := rfl
@[simp] theorem State.wakeQuads_store (s : State) (l : List Nat) : (s.wakeQuads l).store = s.store := rfl

/-- R106, R108: the job joins those in flight; R158: a first FINE issue takes a ream slot and no tile. -/
theorem State.issue_adds_job (s : State) (w : Ready) (v : Nat) :
    (s.issue w v).box.jobs = s.box.jobs ++ [{ w.job with vat := v }] ∧ (s.issue w v).box.strips = s.box.strips ∧
      (s.issue w v).store.held = s.store.held := by
  unfold State.issue
  extract_lets box job s₁ s₂ store s₃
  have counted : s₂.box = s₁.box ∧ s₂.store.held = s.store.held := by
    unfold s₂
    split
    · rw [State.count_box, State.count_store]
      exact ⟨rfl, rfl⟩
    · exact ⟨rfl, rfl⟩
  have reserved : s₃.box = s₁.box ∧ s₃.store.held = s.store.held := by
    unfold s₃
    split
    · split
      · rw [State.showStore_box, State.showStore_store]
        exact counted
      · exact counted
    · exact counted
  rw [State.showJobs_box, State.showJobs_store, reserved.1]
  exact ⟨rfl, rfl, reserved.2⟩

theorem execTileJobIssue_chosen {s : State} {l : List Nat} {w : Ready} {v : Nat}
    (room : s.box.jobs.length < min (s.get Reg.HBX_CTRL_MAX_JOBS) 256)
    (chosen : s.skipTests.chooseJob s.skipTests.readyJobs = (l, some (w, v))) :
    exec .tileJobIssue s = .next ((s.skipTests.wakeQuads l).issue w v) := by
  show execTileJobIssue s = _
  unfold execTileJobIssue
  rw [if_neg (Nat.not_le.2 room)]
  simp only [chosen]

/-! ### Accepted tiles and rechecks (R114, R115) -/

theorem State.acceptTile_jobs (s : State) (j : TileJob) (doses : List Nat) (trusted : Bool) (w : Nat) :
    (s.acceptTile j doses trusted w).box.jobs = s.box.jobs := by
  unfold State.acceptTile
  dsimp only
  rw [State.showLead_box, State.checkRendered_jobs]
  split
  · rw [State.spareTestAfter_jobs, State.judgeSeams_jobs, State.count_box]; rfl
  · rw [State.judgeSeams_jobs, State.count_box]; rfl

/-- R114: the doses join the tiles that wait for the store. -/
theorem State.acceptTile_held (s : State) (j : TileJob) (doses : List Nat) (trusted : Bool) (w : Nat) :
    ∃ again, (s.acceptTile j doses trusted w).store.held =
      s.store.held ++ [⟨j.slot, j.ream, j.col, j.vat, trusted, again, doses, false⟩] := by
  refine ⟨decide ((s.tileAt j.slot j.ream j.col).status = 3), ?_⟩
  unfold State.acceptTile
  dsimp only
  rw [State.showLead_store, State.checkRendered_store]
  split
  · rw [State.spareTestAfter_store, State.judgeSeams_store, State.count_store]; rfl
  · rw [State.judgeSeams_store, State.count_store]; rfl

section Judge
variable (s : State) {j : TileJob} (fine : j.kind = .fine)
include fine

theorem State.judgeFine_right (w : Nat) (doses : List Nat) :
    s.judgeFine j w (some w) doses = s.acceptTile j doses false w := by
  simp [State.judgeFine, fine]

theorem State.judgeFine_wrong {w x : Nat} (wrong : x ≠ w) (doses : List Nat) :
    s.judgeFine j w (some x) doses =
      (((s.count (cntVat j.vat 2)).count (cntHbx 1)).raise 0x0110 (j.fields ++ [(4, x)])).wantRecheck j (some x) := by
  simp [State.judgeFine, fine, wrong]

theorem State.judgeFine_aborted (w : Nat) (doses : List Nat) : s.judgeFine j w none doses = s.wantRecheck j none := by
  simp [State.judgeFine, fine]

end Judge

/-- From s to t, a re-render of the job j is asked for with value A (R115, R118), and nothing is accepted. -/
structure Rechecked (s t : State) (j : TileJob) (a : Option Nat) : Prop where
  jobs : t.box.jobs = s.box.jobs
  held : t.store.held = s.store.held
  wanted : t.box.wanted = s.box.wanted ++ [⟨.recheck, j.slot, j.ream, j.col, j.vat, some a, j.due, 0⟩]

theorem State.wantRecheck_rechecked {s t : State} (box : t.box = s.box) (store : t.store.held = s.store.held) (j : TileJob)
    (a : Option Nat) : Rechecked s (t.wantRecheck j a) j a :=
  ⟨by rw [← box]; rfl, store, by rw [← box]; rfl⟩

/-- What the calender notes of a fine job before its doses are judged (R113, R127, R130) is neither a job nor a request. -/
theorem State.correctTile_judged (s : State) {j : TileJob} (fine : j.kind = .fine) (w cycles lim : Nat) (doses : List Nat) :
    ∃ x : State, s.correctTile j w cycles lim doses = x.judgeFine j w (some (tileCrc doses)) doses ∧
      x.box.jobs = s.box.jobs ∧ x.box.wanted = s.box.wanted ∧ x.store.held = s.store.held := by
  refine ⟨_, rfl, ?_⟩
  rw [if_neg (by rw [fine]; decide), State.jobDone_box, State.jobDone_store, State.modTile_box, State.modTile_held,
    State.modStrip_jobs, State.modStrip_wanted, State.modStrip_store, State.countBy_box, State.countBy_store,
    State.count_box, State.count_store]
  exact ⟨rfl, rfl, rfl⟩

theorem State.correctTile_accepted (s : State) {j : TileJob} (fine : j.kind = .fine) {w : Nat} {doses : List Nat}
    (right : tileCrc doses = w) (cycles lim : Nat) :
    (s.correctTile j w cycles lim doses).box.jobs = s.box.jobs ∧
      ∃ again, (s.correctTile j w cycles lim doses).store.held =
        s.store.held ++ [⟨j.slot, j.ream, j.col, j.vat, false, again, doses, false⟩] := by
  obtain ⟨x, judged, jobs, -, held⟩ := s.correctTile_judged fine w cycles lim doses
  rw [judged, right, State.judgeFine_right x fine, State.acceptTile_jobs, ← held]
  exact ⟨jobs, State.acceptTile_held ..⟩

theorem Rechecked.of_same {s x t : State} {j : TileJob} {a : Option Nat} (r : Rechecked x t j a)
    (jobs : x.box.jobs = s.box.jobs) (wanted : x.box.wanted = s.box.wanted) (held : x.store.held = s.store.held) :
    Rechecked s t j a := ⟨r.jobs.trans jobs, r.held.trans held, by rw [r.wanted, wanted]⟩

theorem State.correctTile_rechecked (s : State) {j : TileJob} (fine : j.kind = .fine) {w : Nat} {doses : List Nat}
    (wrong : tileCrc doses ≠ w) (cycles lim : Nat) :
    Rechecked s (s.correctTile j w cycles lim doses) j (some (tileCrc doses)) := by
  obtain ⟨x, judged, jobs, wanted, held⟩ := s.correctTile_judged fine w cycles lim doses
  rw [judged, State.judgeFine_wrong x fine wrong]
  exact (State.wantRecheck_rechecked (by simp) (by simp) j _).of_same jobs wanted held

/-- R118: the render of a fine job that is aborted is rechecked without value A; nothing of the store moves. -/
theorem State.abortRender_rechecked (s : State) {j : TileJob} (fine : j.kind = .fine) (st : Strip) (cycles : Nat) :
    Rechecked s (s.abortRender j st cycles) j none ∧ (s.abortRender j st cycles).store = s.store := by
  have notCoarse : j.kind ≠ .coarse := by rw [fine]; decide
  unfold State.abortRender
  simp only [if_neg notCoarse, State.judgeFine_aborted _ fine]
  exact ⟨State.wantRecheck_rechecked (by simp) (by simp) j none,
    show State.store (State.raise ..) = _ by simp⟩

/-! ### The time a job takes (R112, R118) -/

theorem State.drawCycles_le (s : State) (cost : Nat) : (s.drawCycles cost).1 ≤ cost + 2048 := by
  show cost + _ % 2049 ≤ _
  omega

theorem State.le_drawCycles (s : State) (cost : Nat) : cost ≤ (s.drawCycles cost).1 := Nat.le_add_right ..

theorem State.overLimit_drawCycles_of_le {s : State} {cost : Nat} (time : cost + 2048 ≤ s.get Reg.HBX_JOB_LIMIT_CYCLES) :
    (s.drawCycles cost).2.overLimit (s.drawCycles cost).1 = false :=
  decide_eq_false (Nat.not_lt.2 ((s.drawCycles_le cost).trans time))

theorem State.overLimit_drawCycles_of_lt {s : State} {cost : Nat} (late : s.get Reg.HBX_JOB_LIMIT_CYCLES < cost) :
    (s.drawCycles cost).2.overLimit (s.drawCycles cost).1 = true :=
  decide_eq_true (late.trans_le (s.le_drawCycles cost))

/-- R112: what a FINE job of a strip costs. -/
def State.fineCost (s : State) (st : Strip) (j : TileJob) : Nat :=
  fineCycles (s.renderSource st j.ream j.col).cells j.ream j.col (s.renderSource st j.ream j.col).shapes

/-- R112: what a COARSE job of a strip costs. -/
def State.coarseCost (s : State) (st : Strip) (j : TileJob) : Nat :=
  coarseCycles (s.renderSource st j.ream j.col).cells j.ream j.col (s.renderSource st j.ream j.col).shapes

section InTime
variable {s : State} {st : Strip} {j : TileJob} (time : s.inTime st j = true)
include time

theorem State.fineCost_of_inTime (kind : j.kind ≠ .coarse) :
    s.fineCost st j + 2048 ≤ s.get Reg.HBX_JOB_LIMIT_CYCLES := by
  simpa [State.inTime, State.fineCost, kind] using time

theorem State.coarseCost_of_inTime (kind : j.kind = .coarse) :
    s.coarseCost st j + 2048 ≤ s.get Reg.HBX_JOB_LIMIT_CYCLES := by
  simpa [State.inTime, State.coarseCost, kind] using time

end InTime

/-! ### The end of a job on its vat -/

section Ends
variable {s u : State} {v : Fin 16} {j : TileJob} {st : Strip} (taken : s.takeVatJob v = some (j, u))
  (strip : u.stripAt j.slot = some st)
include taken strip

theorem execTileCorrected_late (kind : j.kind ≠ .coarse) (late : u.get Reg.HBX_JOB_LIMIT_CYCLES < u.fineCost st j)
    (out : Render) : ∃ cycles, exec (.tileCorrected v out) s = .next (u.draw.2.abortRender j st cycles) := by
  have past := State.overLimit_drawCycles_of_lt late
  refine ⟨(u.drawCycles (u.fineCost st j)).1, ?_⟩
  show execTileCorrected v out s = _
  simp only [execTileCorrected, taken, strip, if_neg kind]
  exact if_pos past

theorem execTileCorrected_inTime (kind : j.kind ≠ .coarse) (time : u.inTime st j = true) (out : Render) :
    ∃ cycles, exec (.tileCorrected v out) s = .next (match out with
      | .poison p => (u.draw.2.jobDone j cycles 3 0xFFFFFFFF).poisoned j p
      | .right => u.draw.2.correctTile j (u.watermark st j.ream j.col) cycles
          ((u.tileSource st j.ream j.col).limited j.ream j.col) ((u.tileSource st j.ream j.col).tileDoses j.ream j.col)
      | .wrong bytes => u.draw.2.draw.2.correctTile j (u.watermark st j.ream j.col) cycles
          (u.draw.2.draw.1.toNat % 1048577) (bytes.map (·.toNat))) := by
  have within := State.overLimit_drawCycles_of_le (State.fineCost_of_inTime time kind)
  refine ⟨(u.drawCycles (u.fineCost st j)).1, ?_⟩
  show execTileCorrected v out s = _
  simp only [execTileCorrected, taken, strip, if_neg kind]
  refine (if_neg (Bool.eq_false_iff.1 within)).trans ?_
  cases out <;> rfl

theorem execCoarseJobDone_inTime (kind : j.kind = .coarse) (time : u.inTime st j = true) (out : Render) :
    ∃ cycles, exec (.coarseJobDone v out) s = .next (match out with
      | .poison p => (u.draw.2.jobDone j cycles 3 0).poisoned j p
      | .right => (u.draw.2.jobDone j cycles 0 0).coarseResult j
          ((u.renderSource st j.ream j.col).coarseSet j.ream j.col)
      | .wrong bytes => (u.draw.2.jobDone j cycles 0 0).coarseResult j (bytes.map (·.toNat))) := by
  have within := State.overLimit_drawCycles_of_le (State.coarseCost_of_inTime time kind)
  refine ⟨(u.drawCycles (u.coarseCost st j)).1, ?_⟩
  show execCoarseJobDone v out s = _
  simp only [execCoarseJobDone, taken, strip, if_neg (not_not.2 kind)]
  refine (if_neg (Bool.eq_false_iff.1 within)).trans ?_
  cases out <;> rfl

theorem execJobWatchdog_over {cycles : Word} (late : s.get Reg.HBX_JOB_LIMIT_CYCLES < cycles.toNat) :
    exec (.jobWatchdog v cycles) s = .next (u.abortRender j st cycles.toNat) := by
  have past : ¬ ¬ s.overLimit cycles.toNat = true := not_not.2 (decide_eq_true late)
  show execJobWatchdog v cycles s = _
  simp only [execJobWatchdog, taken, strip, if_neg past]

end Ends

/-! ### Coarse results (R120) -/

section Coarse
variable {s : State} {j : TileJob} {st : Strip} (strip : s.stripAt j.slot = some st)
include strip

/-- R120: the first render of a coarse job waits for the second. -/
theorem State.coarseResult_first (vals : List Nat)
    (first : (st.coarseJobs.find? fun c => decide (c.ream = j.ream ∧ c.col = j.col)) = none) :
    (s.coarseResult j vals).box.jobs = s.box.jobs ∧ ((s.coarseResult j vals).stripAt j.slot).map (·.coarseJobs) =
      some (st.coarseJobs ++ [⟨j.ream, j.col, [(j.vat, vals)], false⟩]) := by
  have others : (st.coarseJobs.filter fun c => decide (¬ (c.ream = j.ream ∧ c.col = j.col))) = st.coarseJobs :=
    List.filter_eq_self.2 fun c hc =>
      decide_eq_true fun same => List.find?_eq_none.1 first c hc (decide_eq_true same)
  have kept : s.coarseResult j vals = s.modStrip j.slot fun x => { x with
      coarseJobs := (x.coarseJobs.filter fun c => decide (¬ (c.ream = j.ream ∧ c.col = j.col))) ++
        [⟨j.ream, j.col, [(j.vat, vals)], false⟩] } := by
    unfold State.coarseResult
    simp only [strip, first]
    rfl
  rw [kept, State.stripAt_modStrip, strip]
  · exact ⟨rfl, congrArg (fun l => some (l ++ _)) others⟩
  · exact fun _ => rfl

/-- R120: two renders that agree are stored. -/
theorem State.coarseResult_agree {a : Nat} {vals : List Nat} (there : vals ≠ [])
    (waits : (st.coarseJobs.find? fun c => decide (c.ream = j.ream ∧ c.col = j.col)) =
      some ⟨j.ream, j.col, [(a, vals)], false⟩) :
    (s.coarseResult j vals).box.jobs = s.box.jobs ∧ ((s.coarseResult j vals).stripAt j.slot).map (·.coarse) =
      some (st.coarse ++ [(j.ream, j.col, vals)]) := by
  have agree : setsAgree vals vals = true := decide_eq_true ⟨there, rfl⟩
  have stored : s.coarseResult j vals = s.storeCoarse j.slot j.ream j.col vals := by
    unfold State.coarseResult
    simp only [strip, waits]
    exact if_pos agree
  rw [stored]
  unfold State.storeCoarse
  dsimp only
  rw [State.stripAt_congr (congrArg _ (State.sendHalo_box _ _ _)), State.stripAt_modStrip, strip, State.sendHalo_box]
  · exact ⟨rfl, rfl⟩
  · exact fun _ => rfl

end Coarse

/-! ### Poisoned halo rows (R145) -/

theorem State.countBy_get (s : State) {off : Nat} {g : Field} (quiet : g.Quiet) (apart : g.Off off) (n : Nat) :
    (s.countBy off n).get g = s.get g := by
  obtain ⟨aligned, sound, outside⟩ := apart
  have put : ∀ x, (s.put ⟨off, 0, 48⟩ x).get g = s.get g := fun x =>
    s.get_put_apart x ⟨⟨aligned, Nat.le_of_ble_eq_true rfl⟩, sound, by simp only [Field.base] at outside ⊢; omega⟩
  unfold State.countBy
  dsimp only
  split
  · rfl
  · split
    · exact put _
    · split
      · rfl
      · rw [State.count_get _ _ quiet ⟨aligned, sound, outside⟩, put]

theorem Field.OffViews.cntVat {g : Field} (views : g.OffViews) {v i : Nat} (vat : v < 16) (listed : i < 5) :
    g.Off (cntVat v i) := by
  obtain ⟨sound, -, vats⟩ := views
  unfold Machine.cntVat
  exact ⟨by omega, sound, by omega⟩

theorem State.jobDone_get (s : State) {j : TileJob} {g : Field} (quiet : g.Quiet) (views : g.OffViews) (vat : j.vat < 16)
    (cycles outcome crc : Nat) : (s.jobDone j cycles outcome crc).get g = s.get g := by
  unfold State.jobDone
  dsimp only
  rw [(trace_noted _ _ _).quiet g quiet, State.countBy_get _ quiet (views.cntVat vat (by decide)),
    State.count_get _ _ quiet (views.cntVat vat (by decide))]

/-- R371: the port toward a side is a matter of three registers and the peers. -/
theorem State.portToward_congr {s t : State} (slave : t.get Reg.CSC_STATUS_SLAVE = s.get Reg.CSC_STATUS_SLAVE)
    (ready : t.get Reg.CSC_STATUS_READY = s.get Reg.CSC_STATUS_READY)
    (device : t.get Reg.CSC_CFG_DEVICE = s.get Reg.CSC_CFG_DEVICE) (csc : t.csc = s.csc) (side : Nat) :
    t.portToward side = s.portToward side := by
  have on : t.on Reg.CSC_STATUS_SLAVE = s.on Reg.CSC_STATUS_SLAVE := by rw [State.on, State.on, slave]
  have ports : t.readyPorts = s.readyPorts := by rw [State.readyPorts, State.readyPorts, on, ready]
  rw [State.portToward, State.portToward, on, ready, device, csc, ports]

theorem slave_quiet : Field.Quiet Reg.CSC_STATUS_SLAVE := ⟨⟨by decide, by decide⟩, by decide⟩
theorem ready_quiet : Field.Quiet Reg.CSC_STATUS_READY := ⟨⟨by decide, by decide⟩, by decide⟩
theorem device_quiet : Field.Quiet Reg.CSC_CFG_DEVICE := ⟨⟨by decide, by decide⟩, by decide⟩

theorem Field.Quiet.offViews {g : Field} (quiet : g.Quiet) (beyond : 8 * 0x00400000 ≤ g.base) : g.OffViews :=
  ⟨quiet.1, by omega, .inr beyond⟩

theorem State.jobDone_portToward (s : State) {j : TileJob} (vat : j.vat < 16) (cycles outcome crc side : Nat) :
    (s.jobDone j cycles outcome crc).portToward side = s.portToward side :=
  State.portToward_congr (s.jobDone_get slave_quiet (slave_quiet.offViews (by decide)) vat ..)
    (s.jobDone_get ready_quiet (ready_quiet.offViews (by decide)) vat ..)
    (s.jobDone_get device_quiet (device_quiet.offViews (by decide)) vat ..) (s.jobDone_kept j cycles outcome crc).csc side

/-- R145: with a port toward its side, a poisoned halo row is dropped and awaited again; the tile keeps its request. -/
theorem State.poisoned_halo {s : State} {j : TileJob} {st : Strip} (strip : s.stripAt j.slot = some st)
    (fine : j.kind = .fine) {side : Fin 2} (port : (s.portToward side.val).isSome = true) (row : Word) :
    (s.poisoned j (.halo side row)).box.jobs = s.box.jobs ∧ (s.poisoned j (.halo side row)).store = s.store ∧
      ((s.poisoned j (.halo side row)).stripAt j.slot).map (·.halo) =
        some (st.halo.filter fun e => decide (¬ (e.1 = side.val ∧ e.2.1 = row.toNat))) := by
  obtain ⟨p, port⟩ := Option.isSome_iff_exists.1 port
  have again : ∀ x : State, x.jobAgain j = x := fun x => if_pos (.inl fine)
  have flagged := raise_noted s 0x0F03 (noAddress ++ [(1, consumer 2)])
  have toward : (s.consumeFlagged 2).portToward side.val = some p :=
    (State.portToward_congr (flagged.quiet _ slave_quiet) (flagged.quiet _ ready_quiet) (flagged.quiet _ device_quiet)
      flagged.csc _).trans port
  have ported : ∀ f, ((s.consumeFlagged 2).modStrip j.slot f).portToward side.toNat = some p := fun _ => toward
  have asked : s.poisoned j (.halo side row) = (((s.consumeFlagged 2).modStrip j.slot fun x => { x with
        halo := x.halo.filter fun e => decide (¬ (e.1 = side.toNat ∧ e.2.1 = row.toNat)) }).modStrip j.slot fun x =>
      { x with haloAsked := x.haloAsked ++ [(side.toNat, row.toNat)] }) := by
    unfold State.poisoned
    simp only [strip, again, ported]
  rw [asked, State.stripAt_modStrip, State.stripAt_modStrip, State.stripAt_congr (congrArg _ (State.consumeFlagged_box _ _)),
    strip]
  · simp
  · exact fun _ => rfl
  · exact fun _ => rfl

theorem Rechecked.ofTaken {s u x t : State} {v : Nat} {j : TileJob} {a : Option Nat} (r : Rechecked x t j a)
    (taken : JobTaken s v j u) (box : x.box = u.box) (store : x.store = u.store) :
    t.box.jobs = s.box.jobs.erase j ∧ t.store.held = s.store.held ∧
      t.box.wanted = s.box.wanted ++ [⟨.recheck, j.slot, j.ream, j.col, j.vat, some a, j.due, 0⟩] := by
  rw [r.jobs, r.held, r.wanted, box, store, taken.jobs, taken.wanted, taken.store]
  exact ⟨rfl, rfl, rfl⟩

theorem JobKind.ne_coarse_of_fine {k : JobKind} (fine : k = .fine) : k ≠ .coarse := by rw [fine]; decide

/-- Settles O17: `JobTaken` says what the vat's queue loses, an equation per outcome what the command then does, and
`Rechecked`, `correctTile_accepted`, `poisoned_halo` and the two coarse results what that leaves. -/
theorem tileJobsIssueAndEnd : Obligations.tile_jobs_issue_and_end := by
  unfold Obligations.tile_jobs_issue_and_end
  intro s
  refine ⟨?issue, ?right, ?wrong, ?poison, ?late, ?first, ?second, ?watchdog⟩
  case issue =>
    intro l w v room chosen
    obtain ⟨jobs, strips, held⟩ := (s.skipTests.wakeQuads l).issue_adds_job w v
    refine ⟨_, execTileJobIssue_chosen room chosen, ?_, ?_, ?_⟩
    · rw [jobs, State.wakeQuads_jobs, State.skipTests_jobs]
    · rw [strips, State.wakeQuads_strips, State.skipTests_strips]
    · rw [held, State.wakeQuads_store, State.skipTests_store]
  case right =>
    intro v j u st doses took strip fine time
    have taken := State.jobTaken_of_takeVatJob took
    obtain ⟨cycles, ran⟩ := execTileCorrected_inTime took ((taken.stripAt _).trans strip)
      (JobKind.ne_coarse_of_fine fine) time .right
    refine ⟨_, ran, ?_⟩
    dsimp only
    by_cases same : tileCrc doses = u.watermark st j.ream j.col
    · rw [if_pos same, ← taken.jobs, ← taken.store]
      exact u.draw.2.correctTile_accepted fine same cycles _
    · rw [if_neg same]
      exact (u.draw.2.correctTile_rechecked fine same cycles _).ofTaken taken rfl rfl
  case wrong =>
    intro v j u st bytes took strip fine time differs
    have taken := State.jobTaken_of_takeVatJob took
    obtain ⟨cycles, ran⟩ := execTileCorrected_inTime took ((taken.stripAt _).trans strip)
      (JobKind.ne_coarse_of_fine fine) time (.wrong bytes)
    exact ⟨_, ran, (u.draw.2.draw.2.correctTile_rechecked fine differs cycles _).ofTaken taken rfl rfl⟩
  case poison =>
    intro v j u st side row took strip fine time port
    have taken := State.jobTaken_of_takeVatJob took
    obtain ⟨cycles, ran⟩ := execTileCorrected_inTime took ((taken.stripAt _).trans strip)
      (JobKind.ne_coarse_of_fine fine) time (.poison (.halo side row))
    have box := u.draw.2.jobDone_box j cycles 3 0xFFFFFFFF
    have there : (u.draw.2.jobDone j cycles 3 0xFFFFFFFF).stripAt j.slot = some st :=
      (State.stripAt_congr (congrArg HeadboxState.strips box) _).trans ((taken.stripAt _).trans strip)
    have toward : ((u.draw.2.jobDone j cycles 3 0xFFFFFFFF).portToward side.val).isSome = true := by
      rw [State.jobDone_portToward _ (taken.vat ▸ v.isLt)]
      exact port
    obtain ⟨jobs, store, halo⟩ := State.poisoned_halo there fine toward row
    refine ⟨_, ran, ?_, ?_, halo⟩
    · rw [jobs, box, ← taken.jobs, State.draw_box]
    · rw [store, State.jobDone_store, State.draw_store, taken.store]
  case late =>
    intro v j u st out took strip fine late
    have taken := State.jobTaken_of_takeVatJob took
    obtain ⟨cycles, ran⟩ := execTileCorrected_late took ((taken.stripAt _).trans strip)
      (JobKind.ne_coarse_of_fine fine) (taken.limit.trans_lt late) out
    exact ⟨_, ran, (u.draw.2.abortRender_rechecked fine st cycles).1.ofTaken taken rfl rfl⟩
  case first =>
    intro v j u st took strip coarse time none
    have taken := State.jobTaken_of_takeVatJob took
    have strip := (taken.stripAt _).trans strip
    obtain ⟨cycles, ran⟩ := execCoarseJobDone_inTime took strip coarse time .right
    have box := u.draw.2.jobDone_box j cycles 0 0
    obtain ⟨jobs, waits⟩ := State.coarseResult_first ((State.stripAt_congr (congrArg HeadboxState.strips box) _).trans strip)
      ((u.renderSource st j.ream j.col).coarseSet j.ream j.col) none
    exact ⟨_, ran, jobs.trans ((congrArg HeadboxState.jobs box).trans taken.jobs), waits⟩
  case second =>
    intro v j u st bytes a took strip coarse time waits bytesThere
    have taken := State.jobTaken_of_takeVatJob took
    have strip := (taken.stripAt _).trans strip
    obtain ⟨cycles, ran⟩ := execCoarseJobDone_inTime took strip coarse time (.wrong bytes)
    have box := u.draw.2.jobDone_box j cycles 0 0
    obtain ⟨jobs, stored⟩ := State.coarseResult_agree ((State.stripAt_congr (congrArg HeadboxState.strips box) _).trans strip)
      (mt List.map_eq_nil_iff.1 bytesThere) waits
    exact ⟨_, ran, jobs.trans ((congrArg HeadboxState.jobs box).trans taken.jobs), stored⟩
  case watchdog =>
    intro v j u st cycles took strip fine late
    have taken := State.jobTaken_of_takeVatJob took
    obtain ⟨again, store⟩ := u.abortRender_rechecked fine st cycles.toNat
    obtain ⟨jobs, -, wanted⟩ := again.ofTaken taken rfl rfl
    exact ⟨_, execJobWatchdog_over took ((taken.stripAt _).trans strip) late, jobs, store.trans taken.store, wanted⟩

end Sys2Proof.Machine
end

section
/-! PROOFS. Statements on the headbox and calender chapters (spec/05_headbox_and_vats.md, spec/06_calender.md): re-reads, late
re-renders, role requests, profile writes and the halo wait. -/
namespace Sys2Proof.Machine

set_option Elab.async false

/-! ### Sections of a stream (R102) -/

theorem State.recordOf_modSection {s : State} {st : Strip} {rec : StripRec} (found : s.recordOf st = some rec) (r : Nat)
    (f : Section → Section) : (s.modSection st r f).recordOf st =
      some { rec with sections := rec.sections.map fun q => if q.ream = r then f q else q } := by
  have inside : st.handle < s.box.streams.length := by
    by_contra beyond
    rw [State.recordOf, State.stream_eq_getElem?, List.getElem?_eq_none (Nat.le_of_not_lt beyond)] at found
    cases found
  have id : rec.id = st.stripId := of_decide_eq_true (List.find?_some (p := fun x : StripRec => decide (x.id = st.stripId)) found)
  unfold State.recordOf State.modSection
  rw [State.modStream_same _ _ inside]
  dsimp only
  rw [find?_map_of_keeps, show List.find? _ _ = some rec from found]
  · simp only [Option.map_some, if_pos id]
  · intro x
    split <;> rfl

theorem State.sectionOf_modSection {s : State} {st : Strip} {r : Nat} {q : Section} (found : s.sectionOf st r = some q)
    {f : Section → Section} (ream : ∀ q, (f q).ream = q.ream) : (s.modSection st r f).sectionOf st r = some (f q) := by
  obtain ⟨rec, record, here⟩ := Option.bind_eq_some_iff.1 found
  have place : q.ream = r := of_decide_eq_true (List.find?_some (p := fun x : Section => decide (x.ream = r)) here)
  rw [State.sectionOf, State.recordOf_modSection record, Option.bind_some, StripRec.section, find?_map_of_keeps,
    show List.find? _ _ = some q from here]
  · simp only [Option.map_some, if_pos place]
  · intro x
    split
    · rw [ream]
    · rfl

section Reread
variable {s : State} {slot : Fin 16} {ream : Word} {st : Strip} {q : Section} {off : Nat}
  (strip : s.stripAt slot = some st) (found : s.sectionOf st ream.toNat = some q) (poisoned : q.poisoned = some off)
include strip found poisoned

theorem execLayoutRereadDone_waiting (ok : Bool) : exec (.layoutRereadDone slot ream ok) s = .next
    (if ok then s.modSection st ream.toNat fun q => { q with poisoned := none }
      else s.malformed st ream.toNat (some off)) := by
  show execLayoutRereadDone slot ream ok s = _
  simp only [execLayoutRereadDone, strip, found, poisoned]
  cases ok <;> rfl

end Reread

/-! ### A posted strip that fails leaves the headbox (R80, R449) -/

/-- R163: a request of the store to the headbox is no strip and no stream. -/
theorem State.requestLedger_box (s : State) (slot r j : Nat) (due : Option Int) (again : Bool) :
    (s.requestLedger slot r j due again).box.strips = s.box.strips ∧
      (s.requestLedger slot r j due again).box.streams = s.box.streams := by
  have brk : ∀ (x : State) (d : Int), (x.storeBreak slot r j d).box = x.box := fun x d => (x.storeBreak_kept slot r j d).box
  unfold State.requestLedger
  extract_lets s₁ record late d s₂ s₃ box
  have recorded : ∀ x ok, (record x ok).box = x.box := fun _ _ => rfl
  have counted : s₁.box = s.box := State.count_box _ _
  split
  · extract_lets s₄
    have declined : s₄.box = s.box := by
      unfold s₄
      split
      · exact counted
      · exact (State.raise_box _ _ _).trans counted
    split
    · rw [brk, recorded, declined]
      exact ⟨rfl, rfl⟩
    · rw [recorded, declined]
      exact ⟨rfl, rfl⟩
  · split
    · rw [brk, recorded, State.raise_box, counted]
      exact ⟨rfl, rfl⟩
    · rw [← counted]
      exact ⟨rfl, rfl⟩

theorem State.retryLost_box (s : State) :
    s.retryLost.box.strips = s.box.strips ∧ s.retryLost.box.streams = s.box.streams := by
  unfold State.retryLost
  generalize s.store.lost.filter (fun l => !l.accepted && l.due.isNone) = requests
  induction requests generalizing s with
  | nil => exact ⟨rfl, rfl⟩
  | cons x rest ih =>
    obtain ⟨strips, streams⟩ := s.requestLedger_box x.slot x.ream x.col none true
    rw [List.foldl_cons, ← strips, ← streams]
    exact ih _

theorem State.freeSections_box (s : State) (st : Strip) :
    (s.freeSections st).box.strips = s.box.strips ∧ (s.freeSections st).box.streams.length = s.box.streams.length := by
  unfold State.freeSections
  split
  · exact ⟨rfl, rfl⟩
  · exact ⟨rfl, State.modStream_length ..⟩

theorem State.forgetStrip_box (s : State) (slot : Nat) :
    (s.forgetStrip slot).box.strips = s.box.strips.filter (fun st => decide (st.slot ≠ slot)) ∧
      (s.forgetStrip slot).box.streams = s.box.streams := by
  have profiles : ∀ x : State, x.showProfiles.box = x.box := fun x => x.showProfiles_kept.box
  have jobs : ∀ (x : State) gone, (x.dropJobs gone).box.strips = x.box.strips ∧
      (x.dropJobs gone).box.streams = x.box.streams := fun x gone => by
    obtain ⟨l, box⟩ := State.settleVats_box
      (State.showJobs { x with box := { x.box with jobs := x.box.jobs.filter fun j => !gone j } })
    rw [State.dropJobs, box, State.showJobs_box]
    exact ⟨rfl, rfl⟩
  unfold State.forgetStrip
  dsimp only
  rw [State.showLead_box, profiles, State.showStore_box]
  exact jobs _ _

theorem State.stripAt_none_of_filtered {s : State} {l : List Strip} {slot : Nat}
    (left : s.box.strips = l.filter fun st => decide (st.slot ≠ slot)) : s.stripAt slot = none := by
  rw [State.stripAt, left, List.find?_eq_none]
  intro x hx
  simpa using (List.mem_filter.1 hx).2

/-- Of t's headbox, no strip has the slot, and the streams are as many as in s. -/
structure Dropped (slot : Nat) (s t : State) : Prop where
  gone : t.stripAt slot = none
  streams : t.box.streams.length = s.box.streams.length

theorem State.dropPosted_dropped (s : State) (st : Strip) (status cause : Nat) :
    Dropped st.slot s (s.dropPosted st status cause) := by
  unfold State.dropPosted
  extract_lets detail s₁ s₂ s₃ s₄
  have same : s₄.box = s.box := by
    have ended : Kept reports s s₃ :=
      .of (State.complete_kept ..) (.of (State.completeAll_kept ..) (State.stripSummary_kept s st))
    exact (State.raise_box ..).trans ended.box
  obtain ⟨strips, streams⟩ := (((s₄.freeSections st).forgetStrip st.slot).showStore).retryLost_box
  rw [State.showStore_box] at strips streams
  obtain ⟨left, kept⟩ := (s₄.freeSections st).forgetStrip_box st.slot
  exact ⟨State.stripAt_none_of_filtered (strips.trans left),
    by rw [streams, kept, (s₄.freeSections_box st).2, same]⟩

/-- R80: a posted strip whose own content fails is dropped. -/
theorem State.contentStop_dropped (s : State) {st : Strip} (closed : st.isOpen = false) (r : Int) (cause code : Nat) :
    Dropped st.slot s (s.contentStop st r cause code false) := by
  unfold State.contentStop
  simp only [closed, Bool.false_eq_true, if_false]
  obtain ⟨gone, streams⟩ := State.dropPosted_dropped
    ((s.modStrip st.slot fun x => { x with resumeJobs := [] }).completeAll st.resumeJobs 2 code []) st 1 code
  exact ⟨gone, by rw [streams, (State.completeAll_kept ..).box]; rfl⟩

theorem State.malformed_dropped (s : State) {st : Strip} (closed : st.isOpen = false) (r : Nat) (off : Option Nat) :
    Dropped st.slot s (s.malformed st r off) := by
  unfold State.malformed
  dsimp only
  obtain ⟨gone, streams⟩ := State.contentStop_dropped _ closed _ _ _
  refine ⟨gone, streams.trans ?_⟩
  rw [State.raise_box, State.raiseSev_box, State.modStream_length]
  exact State.modStream_length ..

/-! ### A re-render that is late (R123, R167) -/

theorem execRerenderLate_due {s : State} {slot : Fin 16} {ream : Word} {tile : Fin 16} {l : LostTile} {d : Nat}
    (lost : (s.store.lost.find? fun l => decide (l.slot = slot.val ∧ l.ream = ream.toNat ∧ l.col = tile.val)) = some l)
    (due : l.due = some d) (late : (d : Int) ≤ s.tickNow + 256)
    (untaken : (s.seq.dueBreaks.any fun b => decide (b.1 = (slot : Nat) ∧ b.2.1 = ream.toNat ∧ b.2.2.1 = (tile : Nat))) =
      false) :
    exec (.rerenderLate slot ream tile) s = .next
      ((s.raise 0x0116 [(1, slot), (4, ream.toNat), (1, tile), (1, 0xFF), (6, d)]).storeBreak slot ream.toNat tile d) := by
  show execRerenderLate slot ream tile s = _
  simp only [execRerenderLate, lost, due, untaken, late, and_self, if_true]

/-- R167: the break path reports, and adds one break. -/
theorem State.storeBreak_breaks (s : State) (slot r j : Nat) (due : Int) :
    (s.storeBreak slot r j due).seq = { s.seq with dueBreaks := s.seq.dueBreaks ++ [(slot, r, j, due)] } ∧
      (s.storeBreak slot r j due).store = s.store ∧ (s.storeBreak slot r j due).box = s.box ∧
      RegsBut [] s (s.storeBreak slot r j due) := by
  have noted := raise_noted s 0x0412 (stoFields slot (some r) (some j) none none)
  refine ⟨?_, noted.store, noted.box, noted.regsBut⟩
  rw [← noted.seq]
  rfl

/-! ### Writes of registers of one word (R12, R13) -/

/-- A register of one word whose fields share no bit. -/
abbrev RegRow.Narrow (r : RegRow) : Prop :=
  r.wide = false ∧ (∀ f ∈ r.fields, 0 < f.width ∧ f.lo + f.width ≤ 32) ∧
    r.fields.Pairwise fun f g => f.lo + f.width ≤ g.lo ∨ g.lo + g.width ≤ f.lo

theorem bvField_bvPut_same (v : BitVec 64) {lo w : Nat} (x : Nat) (fits : lo + w ≤ 64) :
    bvField (bvPut v lo w x) lo w = x % 2 ^ w := by
  apply Nat.eq_of_testBit_eq
  intro i
  rw [bvField_testBit _ _ _ _ (by omega), bvPut_bit _ _ _ _ _ fits, Nat.testBit_mod_two_pow]
  by_cases h : i < w
  · simp [h]
  · simp [h]

theorem bvField_bvPut_apart (v : BitVec 64) {lo w lo' w' : Nat} (x : Nat) (fits : lo + w ≤ 64) (fits' : lo' + w' ≤ 64)
    (apart : lo + w ≤ lo' ∨ lo' + w' ≤ lo) : bvField (bvPut v lo w x) lo' w' = bvField v lo' w' := by
  apply Nat.eq_of_testBit_eq
  intro i
  rw [bvField_testBit _ _ _ _ (by omega), bvField_testBit _ _ _ _ (by omega), bvPut_bit _ _ _ _ _ fits]
  by_cases h : i < w'
  · rw [if_neg (by omega)]
  · simp [h]

theorem bvField_lt (v : BitVec 64) {lo w : Nat} (fits : w ≤ 64) : bvField v lo w < 2 ^ w := by
  apply Nat.lt_pow_two_of_testBit
  intro i hi
  rw [bvField_testBit _ _ _ _ fits]
  simp [show ¬ i < w by omega]

/-- The bits of a W1C field: those written 1 fall. -/
theorem ofNat_andNot_mod {o n w : Nat} (fits : w ≤ 64) (lt : o < 2 ^ w) :
    (BitVec.ofNat 64 o &&& ~~~ BitVec.ofNat 64 n).toNat % 2 ^ w = o ^^^ (o &&& n) := by
  apply Nat.eq_of_testBit_eq
  intro i
  rw [Nat.testBit_mod_two_pow, BitVec.testBit_toNat, BitVec.getLsbD_and, BitVec.getLsbD_not, BitVec.getLsbD_ofNat,
    BitVec.getLsbD_ofNat, Nat.testBit_xor, Nat.testBit_and]
  by_cases h : i < w
  · cases o.testBit i <;> simp [h, show i < 64 by omega]
  · have high : o.testBit i = false := Nat.testBit_lt_two_pow (lt.trans_le (Nat.pow_le_pow_right (by decide) (by omega)))
    simp [h, high]

/-- The bits of a W1S field: those written 1 rise. -/
theorem ofNat_or_mod {o n w : Nat} (fits : w ≤ 64) (lt : o < 2 ^ w) (lt' : n < 2 ^ w) :
    (BitVec.ofNat 64 o ||| BitVec.ofNat 64 n).toNat % 2 ^ w = o ||| n := by
  have wide : (2 : Nat) ^ w ≤ 2 ^ 64 := Nat.pow_le_pow_right (by decide) fits
  rw [BitVec.toNat_or, BitVec.toNat_ofNat, BitVec.toNat_ofNat, Nat.mod_eq_of_lt (lt.trans_le wide),
    Nat.mod_eq_of_lt (lt'.trans_le wide), Nat.mod_eq_of_lt (Nat.or_lt_two_pow lt lt')]

/-- R13: what a write leaves of a field is what its rule says. -/
theorem FieldRow.bvField_written (f : FieldRow) (old v : BitVec 64) (fits : f.lo + f.width ≤ 64) :
    bvField (f.written old v) f.lo f.width = f.rule (bvField old f.lo f.width) (bvField v f.lo f.width) := by
  have lt : ∀ u : BitVec 64, bvField u f.lo f.width < 2 ^ f.width := fun u => bvField_lt u (by omega)
  have put : bvField (bvPut old f.lo f.width (bvField v f.lo f.width)) f.lo f.width = bvField v f.lo f.width := by
    rw [bvField_bvPut_same _ _ fits, Nat.mod_eq_of_lt (lt v)]
  unfold FieldRow.written FieldRow.rule
  dsimp only
  cases f.access with
  | rw =>
    cases f.range with
    | none => exact put
    | some range =>
      dsimp only
      split
      · exact put
      · rfl
  | w1c => rw [bvField_bvPut_same _ _ fits, ofNat_andNot_mod (by omega) (lt old)]
  | w1s => rw [bvField_bvPut_same _ _ fits, ofNat_or_mod (by omega) (lt old) (lt v)]
  | ro | wo | sat | bw => rfl

theorem FieldRow.bvField_written_apart (f : FieldRow) (old v : BitVec 64) {lo w : Nat} (fits : f.lo + f.width ≤ 64)
    (fits' : lo + w ≤ 64) (apart : f.lo + f.width ≤ lo ∨ lo + w ≤ f.lo) :
    bvField (f.written old v) lo w = bvField old lo w := by
  unfold FieldRow.written
  dsimp only
  split
  case h_1 =>
    split
    · split
      · exact bvField_bvPut_apart _ _ fits fits' apart
      · rfl
    · exact bvField_bvPut_apart _ _ fits fits' apart
  case h_2 => exact bvField_bvPut_apart _ _ fits fits' apart
  case h_3 => exact bvField_bvPut_apart _ _ fits fits' apart
  all_goals rfl

theorem FieldRow.bvField_fold_apart {l : List FieldRow} (fits : ∀ f ∈ l, f.lo + f.width ≤ 64) {lo w : Nat}
    (fits' : lo + w ≤ 64) (apart : ∀ f ∈ l, f.lo + f.width ≤ lo ∨ lo + w ≤ f.lo) (old v : BitVec 64) :
    bvField (l.foldl (fun a f => f.written a v) old) lo w = bvField old lo w := by
  induction l generalizing old with
  | nil => rfl
  | cons f r ih =>
    rw [List.foldl_cons, ih (fun g hg => fits g (List.mem_cons_of_mem _ hg)) fun g hg => apart g (List.mem_cons_of_mem _ hg),
      FieldRow.bvField_written_apart _ _ _ (fits f List.mem_cons_self) fits' (apart f List.mem_cons_self)]

/-- R13: a register after a write, field by field. -/
theorem FieldRow.bvField_fold {l : List FieldRow} (fits : ∀ f ∈ l, f.lo + f.width ≤ 64)
    (apart : l.Pairwise fun f g => f.lo + f.width ≤ g.lo ∨ g.lo + g.width ≤ f.lo) (old v : BitVec 64)
    {f : FieldRow} (mem : f ∈ l) : bvField (l.foldl (fun a f => f.written a v) old) f.lo f.width =
      f.rule (bvField old f.lo f.width) (bvField v f.lo f.width) := by
  induction l generalizing old with
  | nil => cases mem
  | cons g r ih =>
    obtain ⟨first, later⟩ := List.pairwise_cons.1 apart
    have fits' : ∀ f ∈ r, f.lo + f.width ≤ 64 := fun f hf => fits f (List.mem_cons_of_mem _ hf)
    have fit := fits g List.mem_cons_self
    rw [List.foldl_cons]
    rcases List.mem_cons.1 mem with rfl | mem
    · rw [FieldRow.bvField_fold_apart fits' fit fun x hx => (first x hx).symm, FieldRow.bvField_written _ _ _ fit]
    · rw [ih fits' later _ mem, FieldRow.bvField_written_apart _ _ _ fit (fits' f mem) (first f mem)]

/-! ### Rows of the register table -/

theorem findRowIn_some {off : Nat} {l : List RegRow} {r : RegRow} {idx : List Nat} {k : Nat}
    (found : findRowIn off l = some (r, idx, k)) : r ∈ l ∧ r.matchOffset off = some (idx, k) := by
  induction l with
  | nil => cases found
  | cons x rest ih =>
    rw [findRowIn] at found
    split at found
    case h_1 idx' k' here =>
      obtain ⟨rfl, rfl, rfl⟩ : x = r ∧ idx' = idx ∧ k' = k := by simpa using found
      exact ⟨List.mem_cons_self, here⟩
    case h_2 =>
      obtain ⟨mem, here⟩ := ih found
      exact ⟨List.mem_cons_of_mem _ mem, here⟩

/-- A register of one word has no second word. -/
theorem RegRow.word_of_matchOffset {r : RegRow} {off : Nat} {idx : List Nat} {k : Nat} (one : r.wide = false)
    (here : r.matchOffset off = some (idx, k)) : k = 0 := by
  unfold RegRow.matchOffset at here
  split at here
  · cases here
  · split at here
    · simp_all
    · simp [one] at here
    · cases here

/-- The rows of a MiB of BAR 0. -/
theorem findRow_mem {off : Nat} {r : RegRow} {idx : List Nat} {k : Nat} (found : findRow off = some (r, idx, k)) :
    r ∈ regRowsOf (off / 0x100000) ∧ r.matchOffset off = some (idx, k) := findRowIn_some found

/-! ### A write of one word -/

/-- From s to t, the word at an offset has been written: the fields of a register there follow R13, and all else stands. -/
structure WordWritten (off : Nat) (v : BitVec 32) (s t : State) : Prop where
  same : t = { s with regs := t.regs }
  others : ∀ o, o ≠ off → rfWord t.regs o = rfWord s.regs o
  fields : ∀ r idx k, findRow off = some (r, idx, k) → ∀ f ∈ r.fields,
    t.get ⟨off, f.lo, f.width⟩ = f.rule (s.get ⟨off, f.lo, f.width⟩) (bvField (v.setWidth 64) f.lo f.width)

theorem State.get_eq_word (s : State) {off lo w : Nat} (one : lo + w ≤ 32) :
    s.get ⟨off, lo, w⟩ = bvField ((rfWord s.regs off).setWidth 64) lo w :=
  rfGet_eq_word s.regs (decide_eq_false (Nat.not_lt.2 one))

theorem WordWritten.same_trans {off off' : Nat} {v v' : BitVec 32} {s m t : State} (lo : WordWritten off v s m)
    (hi : WordWritten off' v' m t) : t = { s with regs := t.regs } := by
  have first := lo.same
  have second := hi.same
  rw [first] at second
  exact second

theorem WordWritten.get_other {off : Nat} {v : BitVec 32} {s t : State} (w : WordWritten off v s t) {o lo width : Nat}
    (one : lo + width ≤ 32) (other : o ≠ off) : t.get ⟨o, lo, width⟩ = s.get ⟨o, lo, width⟩ := by
  rw [State.get_eq_word _ one, State.get_eq_word _ one, w.others o other]

theorem bvField_setWidth (x : BitVec 64) {lo w : Nat} (one : lo + w ≤ 32) :
    bvField ((x.setWidth 32).setWidth 64) lo w = bvField x lo w := by
  apply Nat.eq_of_testBit_eq
  intro i
  rw [bvField_testBit _ _ _ _ (by omega), bvField_testBit _ _ _ _ (by omega), BitVec.getLsbD_setWidth,
    BitVec.getLsbD_setWidth]
  by_cases h : i < w
  · simp [h, show lo + i < 64 by omega, show lo + i < 32 by omega]
  · simp [h]

theorem State.writeWord_written (s : State) {off : Nat} (v : BitVec 32) (canon : canonOffset off = off)
    (narrow : ∀ r idx k, findRow off = some (r, idx, k) → r.Narrow) (up : s.domainOn (domainOf off) = true) :
    WordWritten off v s (s.writeWord off v) := by
  unfold State.writeWord
  dsimp only
  rw [canon]
  split
  case h_1 absent => exact ⟨rfl, fun _ _ => rfl, fun r idx k row => by rw [absent] at row; cases row⟩
  case h_2 r idx k row =>
    obtain ⟨one, fits, apart⟩ := narrow r idx k row
    obtain rfl := RegRow.word_of_matchOffset one (findRow_mem row).2
    have all : (r.fields.filter fun f => decide (f.lo < 32 * (0 + 1) ∧ 32 * 0 < f.lo + f.width)) = r.fields :=
      List.filter_eq_self.2 fun f hf => decide_eq_true (by have := fits f hf; omega)
    rw [if_neg (not_not.2 up), all, one]
    simp only [Bool.false_eq_true, if_false]
    refine ⟨rfl, fun o other => by rw [rfWord_set, if_neg other.symm], fun r' idx' k' row' f hf => ?_⟩
    obtain ⟨rfl, -⟩ := Prod.mk.inj (Option.some.inj (row.symm.trans row'))
    rw [State.get_eq_word _ (fits f hf).2, State.get_eq_word _ (fits f hf).2, rfWord_set, if_pos rfl,
      bvField_setWidth _ (fits f hf).2,
      FieldRow.bvField_fold (fun g hg => (fits g hg).2.trans (by decide)) apart _ _ hf]

/-! ### Calender profiles (R132, R135) -/

theorem regRows004_narrow : ∀ r ∈ regRows004, r.wide = false → r.Narrow := by decide

theorem regRows004_wide : ∀ r ∈ regRows004, r.wide = true → r.base = 0x00400100 ∧ r.dims = [(6, 8)] := by decide

/-- An offset within the calender profiles 1 to 7. -/
def inProfiles (off : Nat) : Prop := 0x00402000 ≤ off ∧ off < 0x00409000

section Profiles
variable {off : Nat} (inside : inProfiles off)
include inside

theorem narrow_of_inProfiles (r : RegRow) (idx : List Nat) (k : Nat) (row : findRow off = some (r, idx, k)) : r.Narrow := by
  obtain ⟨low, high⟩ := inside
  obtain ⟨mem, here⟩ := findRow_mem row
  rw [show off / 0x100000 = 4 by omega] at mem
  refine regRows004_narrow r mem (Bool.eq_false_iff.2 fun wide => ?_)
  obtain ⟨base, dims⟩ := regRows004_wide r mem wide
  have beyond : splitIndex r.dims (off - r.base) = none := by
    rw [dims, splitIndex, if_neg (by omega)]
  simp [RegRow.matchOffset, beyond] at here

theorem domainOf_of_inProfiles : domainOf off = 6 := by
  obtain ⟨low, high⟩ := inside
  have blk : off / 0x10000 = 0x40 := by omega
  unfold domainOf
  simp [blk]

theorem canonOffset_of_inProfiles : canonOffset off = off := by
  obtain ⟨low, high⟩ := inside
  exact if_neg (by omega)

theorem State.writeWord_profile (s : State) (up : s.domainOn 6 = true) (v : BitVec 32) :
    WordWritten off v s (s.writeWord off v) :=
  s.writeWord_written v (canonOffset_of_inProfiles inside) (narrow_of_inProfiles inside)
    (by rw [domainOf_of_inProfiles inside]; exact up)

end Profiles

theorem WordWritten.domainOn {off : Nat} {v : BitVec 32} {s t : State} (w : WordWritten off v s t) (inside : inProfiles off)
    (d : Nat) : t.domainOn d = s.domainOn d := by
  obtain ⟨low, high⟩ := inside
  have same : t.get Reg.PWR_DOMAIN_STATUS_ON = s.get Reg.PWR_DOMAIN_STATUS_ON :=
    w.get_other (by decide) (show (_ : Nat) ≠ off by omega)
  rw [State.domainOn, State.domainOn, same]

/-- R433: a 64-bit write in the profiles is two writes of one word, low first. -/
theorem State.writePair_profile (s : State) {off : Nat} (inside : inProfiles off) (v : BitVec 64) :
    s.writePair off v = (s.writeWord off (v.setWidth 32)).writeWord (off + 4) ((v >>> 32).setWidth 32) := by
  unfold State.writePair
  dsimp only
  rw [canonOffset_of_inProfiles inside]
  split
  case h_1 r idx row =>
    obtain ⟨one, -⟩ := narrow_of_inProfiles inside r idx 0 row
    exact if_neg (Bool.eq_false_iff.1 one)
  case h_2 => rfl

/-- A write of one word is what a 32-bit write leaves (R13). -/
theorem WordWritten.wrote {off : Nat} {v : BitVec 64} {s t : State} (inside : inProfiles off)
    (w : WordWritten off (v.setWidth 32) s t) : Wrote off false v s t := by
  intro h le r idx k row
  obtain rfl : h = 0 := Nat.le_zero.1 le
  obtain ⟨one, fits, -⟩ := narrow_of_inProfiles inside r idx k row
  refine ⟨fun _ f hf => ?_, fun wide => absurd wide (Bool.eq_false_iff.1 one)⟩
  rw [show off + 4 * 0 = off from rfl, w.fields r idx k row f hf, bvField_setWidth _ (fits f hf).2]
  rfl

/-- Two writes of one word each are what a 64-bit write leaves (R433). -/
theorem WordWritten.wrotePair {off : Nat} {v : BitVec 64} {s m t : State} (inside : inProfiles off)
    (inside' : inProfiles (off + 4)) (lo : WordWritten off (v.setWidth 32) s m)
    (hi : WordWritten (off + 4) ((v >>> 32).setWidth 32) m t) : Wrote off true v s t := by
  intro h le r idx k row
  have halves : h = 0 ∨ h = 1 := Nat.le_one_iff_eq_zero_or_eq_one.1 le
  rcases halves with rfl | rfl
  · obtain ⟨one, fits, -⟩ := narrow_of_inProfiles inside r idx k row
    refine ⟨fun _ f hf => ?_, fun wide => absurd wide (Bool.eq_false_iff.1 one)⟩
    rw [show off + 4 * 0 = off from rfl, hi.get_other (fits f hf).2 (by omega), lo.fields r idx k row f hf,
      bvField_setWidth _ (fits f hf).2]
    rfl
  · obtain ⟨one, fits, -⟩ := narrow_of_inProfiles inside' r idx k row
    refine ⟨fun _ f hf => ?_, fun wide => absurd wide (Bool.eq_false_iff.1 one)⟩
    rw [show off + 4 * 1 = off + 4 from rfl, hi.fields r idx k row f hf, lo.get_other (fits f hf).2 (by omega),
      bvField_setWidth _ (fits f hf).2]

/-- From s to t, a profile write has been refused: WRITE_REFUSED reads 1, and t is s but for that and a report. -/
structure RefusedWrite (s t : State) : Prop where
  flagged : t.get Reg.CAL_STATUS_WRITE_REFUSED = 1
  reported : Reported [Reg.CAL_STATUS_WRITE_REFUSED] s t
  ringEn : t.get Reg.OBS_CTRL_RING_EN = s.get Reg.OBS_CTRL_RING_EN

theorem writeRefused_quiet : Field.Quiet Reg.CAL_STATUS_WRITE_REFUSED := ⟨⟨by decide, by decide⟩, by decide⟩

theorem writeRefused_apart_ringEn : Field.Apart Reg.CAL_STATUS_WRITE_REFUSED Reg.OBS_CTRL_RING_EN :=
  ⟨writeRefused_quiet.1, ringEn_quiet.1, by decide⟩

/-- R135, R144: a refused write of one word sets WRITE_REFUSED and raises 0x0304. -/
theorem State.refuseProfile_refused (s : State) (st : Strip) (n : Nat) {o : Nat} (row : findRow o ≠ none) :
    RefusedWrite s (s.refuseProfile st n o) := by
  have noted := raise_noted (s.put Reg.CAL_STATUS_WRITE_REFUSED 1) 0x0304 [(1, st.slot), (4, n), (4, o)]
  have eq : s.refuseProfile st n o = (s.put Reg.CAL_STATUS_WRITE_REFUSED 1).raise 0x0304 [(1, st.slot), (4, n), (4, o)] :=
    if_neg (by rwa [Option.isNone_iff_eq_none])
  have ringEn := State.get_put_apart s 1 writeRefused_apart_ringEn
  rw [eq]
  exact ⟨(noted.quiet _ writeRefused_quiet).trans (s.get_put_same _ 1 writeRefused_quiet.1 (by decide)),
    (Reported.put s _ 1).trans noted.reported ringEn, (noted.quiet _ ringEn_quiet).trans ringEn⟩

theorem RefusedWrite.trans {s t u : State} (first : RefusedWrite s t) (second : RefusedWrite t u) : RefusedWrite s u :=
  ⟨second.flagged, (first.reported.trans second.reported first.ringEn).weaken (by simp), second.ringEn.trans first.ringEn⟩

/-- The second word of a refused write is refused likewise where it is one of a register. -/
theorem RefusedWrite.again {s t : State} (first : RefusedWrite s t) (st : Strip) (n o : Nat) :
    RefusedWrite s (t.refuseProfile st n o) := by
  by_cases row : findRow o = none
  · rw [show t.refuseProfile st n o = t from if_pos (by rw [row]; rfl)]
    exact first
  · exact first.trans (t.refuseProfile_refused st n row)

/-- The address of a write that lies in a calender profile, at a register, aligned to its width. -/
def profileWrite (off : BitVec 25) (wide : Bool) : Prop :=
  0x00402000 ≤ off.toNat ∧ off.toNat < 0x00409000 ∧ off.toNat % (if wide then 8 else 4) = 0 ∧
    (findRow off.toNat).isSome = true

section ProfileWrite
variable {off : BitVec 25} {wide : Bool} (address : profileWrite off wide)
include address

theorem inProfiles_of_profileWrite : inProfiles off.toNat := ⟨address.1, address.2.1⟩

theorem inProfiles_high_of_profileWrite (pair : wide = true) : inProfiles (off.toNat + 4) := by
  obtain ⟨low, high, aligned, -⟩ := address
  rw [if_pos pair] at aligned
  exact ⟨by omega, by omega⟩

theorem listed_of_profileWrite : ¬ (off.toNat < 0x00402000 ∨ 0x00409000 ≤ off.toNat ∨ (findRow off.toNat).isNone = true ∨
    off.toNat % 4 ≠ 0 ∨ (wide = true ∧ off.toNat % 8 ≠ 0)) := by
  obtain ⟨low, high, aligned, row⟩ := address
  have known : ¬ (findRow off.toNat).isNone = true := by
    rw [Option.isNone_iff_eq_none]
    exact Option.isSome_iff_ne_none.1 row
  cases wide <;> simp only [Bool.false_eq_true, if_false, if_true] at aligned <;> simp [known] <;> omega

theorem exec_calProfileWrite_free (v : BitVec 64) {s : State} (up : s.domainOn 6 = true)
    (free : (s.box.strips.find? fun st => decide (st.profile = (off.toNat - 0x00401000) / 0x1000)) = none) :
    exec (.calProfileWrite off wide v) s =
      .next (if wide then s.writePair off.toNat v else s.writeWord off.toNat (v.setWidth 32)) := by
  show execCalProfileWrite off wide v s = _
  unfold execCalProfileWrite
  simp only [if_neg (listed_of_profileWrite address), if_neg (not_not.2 up), free]

theorem exec_calProfileWrite_used (v : BitVec 64) {s : State} {st : Strip} (up : s.domainOn 6 = true)
    (used : (s.box.strips.find? fun st => decide (st.profile = (off.toNat - 0x00401000) / 0x1000)) = some st) :
    exec (.calProfileWrite off wide v) s = .next (if wide
      then (s.refuseProfile st ((off.toNat - 0x00401000) / 0x1000) off.toNat).refuseProfile st
        ((off.toNat - 0x00401000) / 0x1000) (off.toNat + 4)
      else s.refuseProfile st ((off.toNat - 0x00401000) / 0x1000) off.toNat) := by
  show execCalProfileWrite off wide v s = _
  unfold execCalProfileWrite
  simp only [if_neg (listed_of_profileWrite address), if_neg (not_not.2 up), used]

/-- R135, R433: a write of a profile that no strip names. -/
theorem calProfileWrite_wrote (v : BitVec 64) {s : State} (up : s.domainOn 6 = true)
    (free : (s.box.strips.find? fun st => decide (st.profile = (off.toNat - 0x00401000) / 0x1000)) = none) :
    ∃ t, exec (.calProfileWrite off wide v) s = .next t ∧ Wrote off.toNat wide v s t ∧ t = { s with regs := t.regs } ∧
      ∀ o, o ≠ off.toNat → o ≠ off.toNat + 4 → rfWord t.regs o = rfWord s.regs o := by
  have inside := inProfiles_of_profileWrite address
  have lo := s.writeWord_profile inside up (v.setWidth 32)
  rw [exec_calProfileWrite_free address v up free]
  cases pair : wide with
  | false => exact ⟨_, rfl, lo.wrote inside, lo.same, fun o here _ => lo.others o here⟩
  | true =>
    have inside' := inProfiles_high_of_profileWrite address pair
    have hi := State.writeWord_profile inside' _ ((lo.domainOn inside 6).trans up) ((v >>> 32).setWidth 32)
    refine ⟨_, congrArg _ (s.writePair_profile inside v), lo.wrotePair inside inside' hi, ?_, fun o here high => ?_⟩
    · exact lo.same_trans hi
    · rw [hi.others o high, lo.others o here]

/-- R135: a write of a profile in use. -/
theorem calProfileWrite_refused (v : BitVec 64) {s : State} {st : Strip} (up : s.domainOn 6 = true)
    (used : (s.box.strips.find? fun st => decide (st.profile = (off.toNat - 0x00401000) / 0x1000)) = some st) :
    ∃ t, exec (.calProfileWrite off wide v) s = .next t ∧ RefusedWrite s t := by
  have first := s.refuseProfile_refused st ((off.toNat - 0x00401000) / 0x1000) (Option.isSome_iff_ne_none.1 address.2.2.2)
  rw [exec_calProfileWrite_used address v up used]
  cases wide with
  | false => exact ⟨_, rfl, first⟩
  | true => exact ⟨_, rfl, first.again st _ _⟩

end ProfileWrite

/-! ### Role requests (R126) -/

/-- A narrower field within a field. -/
theorem State.get_part (s : State) {off lo w : Nat} (sound : Field.Sound ⟨off, lo, w⟩) {a n : Nat} (within : a + n ≤ w) :
    s.get ⟨off, lo + a, n⟩ = s.get ⟨off, lo, w⟩ / 2 ^ a % 2 ^ n := by
  have part : Field.Sound ⟨off, lo + a, n⟩ := ⟨sound.1, by have := sound.2; dsimp only at this ⊢; omega⟩
  apply Nat.eq_of_testBit_eq
  intro i
  rw [State.get, rfGet_testBit _ _ part, Nat.testBit_mod_two_pow, Nat.testBit_div_two_pow, State.get, rfGet_testBit _ _ sound]
  by_cases h : i < n
  · simp [h, Field.base, show i + a < w by omega, show 8 * off + (lo + a) + i = 8 * off + lo + (i + a) by omega]
  · simp [h]

/-- The row of the register table of the role request. -/
def roleReqRow : RegRow := ⟨"HBX_VAT_ROLE_REQ", 0x00200014, [], false, [⟨0, 32, .rw, .const 0x40004000, .kept, none⟩]⟩

theorem findRow_roleReq : findRow 0x00200014 = some (roleReqRow, [], 0) := by decide +kernel

theorem State.writeRoleReq_written (s : State) (up : s.domainOn 6 = true) (v : Word) :
    WordWritten 0x00200014 v s (s.writeWord 0x00200014 v) := by
  refine s.writeWord_written v rfl (fun r idx k row => ?_) up
  obtain ⟨rfl, -⟩ := Prod.mk.inj (Option.some.inj (findRow_roleReq.symm.trans row))
  decide

/-- The roles of the vats (R110), vat by vat. -/
def roleFields : List Field := (List.range 16).map fun v => ⟨0x00200010, 2 * v, 2⟩

theorem roleField_sound {k : Nat} (vat : k < 16) : Field.Sound ⟨0x00200010, 2 * k, 2⟩ :=
  ⟨by dsimp only, by dsimp only; omega⟩

theorem roleFields_apart : roleFields.Pairwise Field.Apart := by
  rw [roleFields, List.pairwise_map]
  refine List.pairwise_lt_range.imp_of_mem fun ha hb lt => ?_
  have ha := List.mem_range.1 ha
  have hb := List.mem_range.1 hb
  exact ⟨roleField_sound ha, roleField_sound hb, .inl (by simp only [Field.base]; omega)⟩

theorem roleField_offViews {k : Nat} (vat : k < 16) : Field.OffViews ⟨0x00200010, 2 * k, 2⟩ := by
  refine ⟨roleField_sound vat, .inl ?_, .inl ?_⟩ <;>
    · simp only [Field.base]
      omega

theorem roleField_quiet {k : Nat} (vat : k < 16) : Field.Quiet ⟨0x00200010, 2 * k, 2⟩ := by
  refine ⟨(roleField_offViews vat).sound, ?_⟩
  simp only [Field.base]
  omega

theorem roleReq_offViews : Field.OffViews Reg.HBX_VAT_ROLE_REQ_ROLES := ⟨⟨by decide, by decide⟩, by decide, by decide⟩

theorem roleReq_quiet : Field.Quiet Reg.HBX_VAT_ROLE_REQ_ROLES := ⟨roleReq_offViews.sound, by decide⟩

/-- R126: s with every vat in the role asked for it, and no request left. -/
def State.rolesTaken (s : State) : State :=
  State.showVats { s.puts (roleFields.map fun f => (f, s.get ⟨0x00200014, f.lo, 2⟩)) with
    box := { s.box with roleReq := false, leaving := [] } }

/-- R126: with no job in flight and no strip open, a request takes effect at once, with the events of R119. -/
theorem State.applyVatRoles_idle {s : State} (asked : s.box.roleReq = true) (idle : s.box.jobs = [])
    (noStrip : s.openStrip = none) : Noted s.rolesTaken s.applyVatRoles := by
  have none_waits : ∀ v, s.vatQueue v = [] := fun v => by rw [State.vatQueue, idle]; rfl
  have all : ∀ l : List Nat, (l.foldl (fun s' v => s'.put ⟨0x00200010, 2 * v, 2⟩ (s.get ⟨0x00200014, 2 * v, 2⟩)) s) =
      s.puts ((l.map fun v => (⟨0x00200010, 2 * v, 2⟩ : Field)).map fun f => (f, s.get ⟨0x00200014, f.lo, 2⟩)) := fun l => by
    rw [State.puts, List.foldl_map, List.foldl_map]
  unfold State.applyVatRoles
  simp only [asked, noStrip, none_waits, not_true_eq_false, if_false, Option.isSome_none, Bool.false_eq_true, and_false,
    List.isEmpty_nil, Bool.not_true, Bool.false_and, Bool.not_false, List.filter_false, List.filter_true, List.map_nil]
  rw [all, State.puts_box]
  exact State.poolEvents_noted _ _ _ _

theorem State.get_withBox (s : State) (b : HeadboxState) (f : Field) : State.get { s with box := b } f = s.get f := rfl

theorem State.rolesTaken_vatRole (s : State) {k : Nat} (vat : k < 16) :
    s.rolesTaken.vatRole k = s.get ⟨0x00200014, 2 * k, 2⟩ := by
  have mem : (⟨0x00200010, 2 * k, 2⟩ : Field) ∈ roleFields := List.mem_map.2 ⟨k, List.mem_range.2 vat, rfl⟩
  have sound : Field.Sound ⟨0x00200014, 2 * k, 2⟩ := ⟨by dsimp only, by dsimp only; omega⟩
  rw [State.vatRole, State.rolesTaken, State.get_showVats (roleField_offViews vat), State.get_withBox]
  exact s.get_puts_of_mem (fun f => s.get ⟨0x00200014, f.lo, 2⟩) roleFields_apart mem (roleField_sound vat) (s.get_lt _ sound)

theorem State.rolesTaken_request (s : State) :
    s.rolesTaken.get Reg.HBX_VAT_ROLE_REQ_ROLES = s.get Reg.HBX_VAT_ROLE_REQ_ROLES := by
  rw [State.rolesTaken, State.get_showVats roleReq_offViews, State.get_withBox]
  refine s.get_puts_apart _ fun p hp => ?_
  obtain ⟨f, hf, rfl⟩ := List.mem_map.1 hp
  obtain ⟨k, hk, rfl⟩ := List.mem_map.1 hf
  have vat := List.mem_range.1 hk
  exact ⟨roleField_sound vat, roleReq_offViews.sound, .inl (by simp only [Field.base]; omega)⟩

/-- s after a write of a role request. -/
def State.roleRequested (s : State) (v : Word) : State :=
  { s.writeWord 0x00200014 v with box := { (s.writeWord 0x00200014 v).box with roleReq := true } }

theorem bvField_word (v : Word) : bvField (v.setWidth 64) 0 32 = v.toNat := by
  apply Nat.eq_of_testBit_eq
  intro i
  rw [bvField_testBit _ _ _ _ (by decide), BitVec.getLsbD_setWidth, BitVec.testBit_toNat, Nat.zero_add]
  by_cases h : i < 32
  · simp [h, show i < 64 by omega]
  · simp [h, BitVec.getLsbD_of_ge v i (by omega)]

section RoleRequest
variable {s : State} (up : s.domainOn 6 = true) (v : Word)
include up

theorem State.roleRequested_get : (s.roleRequested v).get Reg.HBX_VAT_ROLE_REQ_ROLES = v.toNat :=
  ((s.writeRoleReq_written up v).fields _ _ _ findRow_roleReq _ (List.mem_singleton_self _)).trans (bvField_word v)

theorem State.roleRequested_other {o lo w : Nat} (one : lo + w ≤ 32) (other : o ≠ 0x00200014) :
    (s.roleRequested v).get ⟨o, lo, w⟩ = s.get ⟨o, lo, w⟩ := (s.writeRoleReq_written up v).get_other one other

theorem State.writeRoleReq_box : (s.writeWord 0x00200014 v).box = s.box := by
  rw [(s.writeRoleReq_written up v).same]

theorem State.roleRequested_box : (s.roleRequested v).box = { s.box with roleReq := true } := by
  rw [State.roleRequested, State.writeRoleReq_box up]

/-- R126: bits 2k + 1 to 2k of the request are the role asked for vat k. -/
theorem State.roleRequested_role {k : Nat} (vat : k < 16) :
    (s.roleRequested v).get ⟨0x00200014, 2 * k, 2⟩ = bitsOf v.toNat (2 * k + 1) (2 * k) := by
  have part := (s.roleRequested v).get_part roleReq_offViews.sound (a := 2 * k) (n := 2) (by omega)
  rw [Nat.zero_add] at part
  rw [part, State.roleRequested_get up v, bitsOf, show 2 * k + 1 - 2 * k + 1 = 2 by omega]

theorem execVatRoleReqWrite_up : exec (.vatRoleReqWrite v) s = .next
    (if s.get Reg.EXP_STATE_STATE < 3 then (s.roleRequested v).applyVatRoles else s.roleRequested v) := by
  have state : (s.roleRequested v).get Reg.EXP_STATE_STATE = s.get Reg.EXP_STATE_STATE :=
    State.roleRequested_other up v (by decide) (by decide)
  show execVatRoleReqWrite v s = _
  unfold execVatRoleReqWrite
  rw [if_neg (not_not.2 up)]
  show (if (s.roleRequested v).get Reg.EXP_STATE_STATE < 3 then _ else _) = _
  rw [state]
  split <;> rfl

end RoleRequest

/-! ### The halo wait (R145) -/

theorem Counted.reported {off : Nat} {s t : State} (c : Counted off s t) (ringEn : Field.Off Reg.OBS_CTRL_RING_EN off) :
    Reported [⟨off, 0, 64⟩] s t where
  parts := by
    rw [c.eq]
    rfl
  host := congrArg State.host c.eq
  regs g quiet apart := by
    obtain ⟨sound, sound', outside⟩ := apart _ (List.mem_singleton_self _)
    exact c.quiet g quiet ⟨sound.1, sound', by simp only [Field.base] at outside ⊢; omega⟩
  mem := c.ring ringEn

theorem ringEn_off_halo : Field.Off Reg.OBS_CTRL_RING_EN (cntCal 5) := ⟨by decide, ringEn_quiet.1, by decide⟩

theorem execHaloWaitTimeout_waiting {s : State} {slot : Fin 16} {ream : Word} {st : Strip}
    (strip : s.stripAt slot = some st) (missing : s.haloMissing st ream.toNat ≠ []) (ready : s.fineOpen st ream.toNat = true)
    (room : s.roomFor st ream.toNat = true) (wants : (List.range 16).any (s.wantsFine st ream.toNat) = true) :
    ∃ payload, exec (.haloWaitTimeout slot ream) s = .next ((s.count (cntCal 5)).raise 0x0305 payload) := by
  obtain ⟨⟨side, row⟩, rest, cons⟩ := List.exists_cons_of_ne_nil missing
  refine ⟨[(1, slot), (4, st.profile), (4, ream.toNat),
    (1, if side = 0 then s.get Reg.CSC_CFG_DEVICE - 1 else s.get Reg.CSC_CFG_DEVICE + 1)], ?_⟩
  show execHaloWaitTimeout slot ream s = _
  simp only [execHaloWaitTimeout, strip, cons, ready, room, wants, and_self, if_true]

/-- Settles O18: the section or the strip by `sectionOf_modSection` and `malformed_dropped`, the break path by its own equation,
the roles by `applyVatRoles_idle`, profile writes by `WordWritten` and `RefusedWrite`, the halo wait by `Counted.reported`. -/
theorem headboxAndCalenderUpkeep : Obligations.headbox_and_calender_upkeep := by
  unfold Obligations.headbox_and_calender_upkeep
  intro s
  refine ⟨?repaired, ?lost, ?late, ?atOnce, ?waits, ?free, ?used, ?halo⟩
  case repaired =>
    intro slot ream st q off strip found poisoned
    exact ⟨_, execLayoutRereadDone_waiting strip found poisoned true, State.sectionOf_modSection found fun _ => rfl, rfl, rfl⟩
  case lost =>
    intro slot ream st q off strip found poisoned closed
    obtain ⟨gone, streams⟩ := s.malformed_dropped closed ream.toNat (some off)
    rw [State.slot_of_stripAt strip] at gone
    exact ⟨_, execLayoutRereadDone_waiting strip found poisoned false, gone, streams⟩
  case late =>
    intro slot ream tile l d lost due late untaken
    have first := raise_noted s 0x0116 [(1, slot), (4, ream.toNat), (1, tile), (1, 0xFF), (6, d)]
    obtain ⟨seq, store, box, regs⟩ := State.storeBreak_breaks
      (s.raise 0x0116 [(1, slot), (4, ream.toNat), (1, tile), (1, 0xFF), (6, d)]) slot ream.toNat tile d
    rw [first.seq] at seq
    exact ⟨_, execRerenderLate_due lost due late untaken, seq, store.trans first.store, box.trans first.box,
      first.regsBut.trans regs⟩
  case atOnce =>
    intro v up slack idle noStrip
    have box := State.roleRequested_box up v
    have taken := State.applyVatRoles_idle (s := s.roleRequested v) (by rw [box]) (by rw [box]; exact idle)
      (by rw [State.openStrip, box]; exact noStrip)
    refine ⟨_, (execVatRoleReqWrite_up up v).trans (congrArg _ (if_pos slack)), ?_, ?_, ?_⟩
    · refine List.map_congr_left fun k hk => ?_
      have vat := List.mem_range.1 hk
      exact (taken.quiet _ (roleField_quiet vat)).trans
        ((State.rolesTaken_vatRole _ vat).trans (State.roleRequested_role up v vat))
    · rw [taken.box]
      exact congrArg HeadboxState.roleReq (State.showVats_box _)
    · exact (taken.quiet _ roleReq_quiet).trans ((State.rolesTaken_request _).trans (State.roleRequested_get up v))
  case waits =>
    intro v up exposing
    refine ⟨_, (execVatRoleReqWrite_up up v).trans (congrArg _ (if_neg (Nat.not_lt.2 exposing))), ?_,
      State.roleRequested_box up v, State.roleRequested_get up v, ?_⟩
    · refine List.map_congr_left fun k hk => ?_
      have vat := List.mem_range.1 hk
      exact State.roleRequested_other up v (by omega) (by decide)
    · rw [State.roleRequested, (s.writeRoleReq_written up v).same]
      rfl
  case free =>
    intro off wide v address up free
    obtain ⟨t, ran, wrote, same, others⟩ := calProfileWrite_wrote address v up free
    exact ⟨t, ran, wrote, same, others⟩
  case used =>
    intro off wide v st address up used
    obtain ⟨t, ran, refused⟩ := calProfileWrite_refused address v up used
    exact ⟨t, ran, refused.flagged, refused.reported⟩
  case halo =>
    intro slot ream st strip missing ready room wants
    obtain ⟨payload, ran⟩ := execHaloWaitTimeout_waiting strip missing ready room wants
    have counted := count_counted s (cntCal 5)
    exact ⟨_, ran, (counted.reported ringEn_off_halo).trans (raise_noted _ _ _).reported
      (counted.quiet _ ringEn_quiet ringEn_off_halo)⟩

end Sys2Proof.Machine
end

section
/-! PROOFS. Statements on the tile store chapter (spec/07_tile_store.md): the store's configuration and the codec descriptors. -/
namespace Sys2Proof.Machine

/-! ### A write of the store configuration (R172) -/

/-- What a write of the store configuration leaves while no strip is posted or open and no codec job exists. -/
def State.storeConfigured (s : State) (off : Nat) (wide : Bool) (v : BitVec 64) : State :=
  (if wide then s.writePair off v else s.writeWord off (v.setWidth 32)).showConfig.showStore

theorem execStoConfigWrite_free {s : State} {off : BitVec 25} {wide : Bool} (v : BitVec 64)
    (listed : natMem (off.toNat / 8 * 8) [0x00500008, 0x00500010, 0x00500018, 0x00500020] = true)
    (aligned : off.toNat % (if wide then 8 else 4) = 0) (notStatus : off.toNat ≠ 0x00500024) (up : s.domainOn 7 = true)
    (noStrip : s.box.strips = []) (noCodec : s.store.codec = []) :
    exec (.stoConfigWrite off wide v) s = .next (s.storeConfigured off.toNat wide v) := by
  have words : off.toNat % 4 = 0 ∧ (wide = true → off.toNat % 8 = 0) := by
    cases wide with
    | false => exact ⟨aligned, nofun⟩
    | true =>
      have pair : off.toNat % 8 = 0 := aligned
      exact ⟨by omega, fun _ => pair⟩
  obtain ⟨word, pair⟩ := words
  have taken : ¬ (¬ natMem (off.toNat / 8 * 8) [0x00500008, 0x00500010, 0x00500018, 0x00500020] = true ∨ off.toNat % 4 ≠ 0 ∨
      off.toNat = 0x00500024 ∨ (wide = true ∧ off.toNat % 8 ≠ 0)) := by
    rintro (unlisted | odd | status | ⟨isPair, odd⟩)
    · exact unlisted listed
    · exact odd word
    · exact notStatus status
    · exact odd (pair isPair)
  show execStoConfigWrite off wide v s = _
  unfold execStoConfigWrite
  simp only [if_neg taken, if_neg (not_not.2 up), noStrip, noCodec, List.isEmpty_nil, not_true_eq_false, or_self, if_false]
  rfl

/-- The row of the register table of STO_STATUS. -/
def stoStatusRow : RegRow :=
  ⟨"STO_STATUS", 0x00500024, [], false, [⟨31, 1, .ro, .const 0, .cold, none⟩, ⟨30, 1, .w1c, .const 0, .cold, none⟩,
    ⟨16, 5, .ro, .const 0, .cold, none⟩, ⟨0, 16, .ro, .const 0, .cold, none⟩]⟩

theorem findRow_stoStatus : findRow 0x00500024 = some (stoStatusRow, [], 0) := by decide +kernel

/-- The machine at reset, but up, with DRAM, and with a store area of 4,096 blocks at 0 and the ledger after it: its
configuration lacks only the number of ream slots. -/
def slotsToCome : State :=
  State.reset.puts [(Reg.PWR_DOMAIN_STATUS_ON, 0xFFFF), (Reg.MEM_SIZE_BYTES, 0x6000000000),
    (Reg.STO_AREA_BLOCKS_BLOCKS, 4096), (Reg.STO_LEDGER_BASE_BASE, 128)]

theorem slotsToCome_invalid : slotsToCome.get Reg.STO_STATUS_CONFIG_OK = 0 := by decide +kernel

/-- A 64-bit write of two ream slots to STO_LEDGER_CFG makes the configuration valid. -/
theorem slotsToCome_configured :
    (slotsToCome.storeConfigured 0x00500020 true 2).get Reg.STO_STATUS_CONFIG_OK = 1 := by decide +kernel

/-- Refutes O19: a 64-bit write of STO_LEDGER_CFG also covers STO_STATUS, its second word (R11). `Wrote` has the RO fields there
read as before, CONFIG_OK among them, which shows the validity of the configuration written (R172): from a configuration that
lacks only its ream slots, it rises from 0 to 1. -/
theorem not_storeAndFeed : ¬ Obligations.store_and_feed := by
  unfold Obligations.store_and_feed
  intro h
  obtain ⟨-, -, -, -, -, -, configWrite, -⟩ := h slotsToCome
  have up : slotsToCome.domainOn 7 = true := by decide +kernel
  obtain ⟨t, acts, wrote, -⟩ := configWrite 0x00500020 true 2 rfl rfl (by decide) up ⟨rfl, rfl⟩
  have ran := execStoConfigWrite_free (off := 0x00500020) (wide := true) 2 rfl rfl (by decide) up rfl rfl
  obtain rfl : slotsToCome.storeConfigured 0x00500020 true 2 = t := Host.Outcome.next.inj (ran.symm.trans acts)
  obtain ⟨fields, -⟩ := wrote 1 (by decide) stoStatusRow [] 0 findRow_stoStatus
  have kept := fields rfl _ (List.mem_cons_self ..)
  exact absurd (slotsToCome_configured.symm.trans (kept.trans slotsToCome_invalid)) (by decide)

/-! ### A descriptor is taken (R437) -/

/-- R437, R443: a descriptor that is taken, and passes its checks, goes on as its job. -/
theorem State.withDesc_of_takes {s : State} {d : Desc} {op : Nat} {checks : List (Nat × Bool)}
    (taken : s.takes d op checks = true) (k : State → Job → State) :
    s.withDesc d (usesDram d) false checks k = k (s.takeJob d) (s.jobOf d) := by
  simp only [State.takes, Bool.and_eq_true, decide_eq_true_eq, Option.isNone_iff_eq_none] at taken
  obtain ⟨⟨⟨now, -⟩, passed⟩, -⟩ := taken
  simp [State.withDesc, now, passed]

theorem State.opcode_of_takes {s : State} {d : Desc} {op : Nat} {checks : List (Nat × Bool)}
    (taken : s.takes d op checks = true) : d.field 0 1 = op := by
  simp only [State.takes, Bool.and_eq_true, decide_eq_true_eq] at taken
  exact taken.1.1.2

/-! ### SEG_DECOMPRESS (R164, R453) -/

/-- R164: the job starts, and reads its input, once its descriptor has been taken. -/
theorem execSegDecompress_of_takes {s : State} {d : Desc} (taken : s.takes d 0x31 (decompressChecks d 0x31) = true) :
    exec (.segDecompress d) s = .next ((s.takeJob d).startDecompress d 0x31 (s.jobOf d)) := by
  have op := State.opcode_of_takes taken
  have dram : usesDram d = decide (bitsOf (d.field 40 1) 2 1 ≠ 0) := by simp only [usesDram, op]
  show execSegDecompress d s = _
  rw [execSegDecompress, if_neg (not_not.2 op), ← dram, State.withDesc_of_takes taken]

/-- A SEG_DECOMPRESS descriptor for 4 bytes of host memory at 0x5000, with room for 64 bytes at 0x6000. -/
def shadowDesc : Desc :=
  ⟨5, leBytes 8 0x31 ++ leBytes 8 0 ++ leBytes 8 0x5000 ++ leBytes 8 0x6000 ++ leBytes 4 4 ++ leBytes 4 64 ++ leBytes 24 0⟩

/-- The machine at reset, but with a descriptor on submission ring 5, whose CONS the host has shadowed at 0x5000. -/
def shadowState : State :=
  State.reset.puts [(Reg.HST_STATUS_READY, 1), (Reg.HST_CTRL_EN, 1), (Reg.HST_SQ_CFG_EN 5, 1), (Reg.HST_SQ_IDX_PROD 5, 1),
    (Reg.HST_STATUS_LINK_UP, 1), (Reg.HST_SQ_SHADOW_ADDR 5, 0x5000 / 4)]

theorem shadowState_takes : shadowState.takes shadowDesc 0x31 (decompressChecks shadowDesc 0x31) = true := by decide +kernel

/-- Before the descriptor is taken its input reads 0. -/
theorem shadowState_input : shadowState.readSpace false 0x5000 4 = [0, 0, 0, 0] := by decide +kernel

/-- The job's input is the CONS that passed its descriptor. -/
theorem shadowState_read :
    ((shadowState.takeJob shadowDesc).startDecompress shadowDesc 0x31 (shadowState.jobOf shadowDesc)).store.codec.map
      CodecJob.input = [[1, 0, 0, 0]] := by decide +kernel

theorem map_input_noEngine (l : List CodecJob) : (l.map NoEngine).map CodecJob.input = l.map CodecJob.input := by
  rw [List.map_map]; rfl

/-- Refutes O20: the input of a SEG_DECOMPRESS job is stated as the bytes before its descriptor is taken. Taking it moves CONS,
which the device writes to the ring's shadow in host memory (R437); the job reads its input after that (R446). Where the input
lies at the shadow's address, it is the new CONS. -/
theorem not_codecJobs : ¬ Obligations.codec_jobs := by
  unfold Obligations.codec_jobs
  intro h
  obtain ⟨-, -, decompress, -⟩ := h shadowState
  obtain ⟨t, acts, queued, -⟩ := decompress shadowDesc shadowState_takes (by decide +kernel) (by decide +kernel)
  have ran := execSegDecompress_of_takes shadowState_takes
  obtain rfl : (shadowState.takeJob shadowDesc).startDecompress shadowDesc 0x31 (shadowState.jobOf shadowDesc) = t :=
    Host.Outcome.next.inj (ran.symm.trans acts)
  have inputs := congrArg (List.map CodecJob.input) queued
  rw [map_input_noEngine, map_input_noEngine, shadowState_read] at inputs
  have before : [[1, 0, 0, 0]] = [shadowState.readSpace false 0x5000 4] := inputs
  rw [shadowState_input] at before
  exact absurd before (by decide)

end Sys2Proof.Machine
end

section
/-! PROOFS. Statements on the couch chapter (spec/08_couch.md) and the tick generator (spec/11_tide_unit.md): what the couches'
roles leave of the registers, the ticks of TEST and RUN, and the runs of zero frames. -/
namespace Sys2Proof.Machine

set_option Elab.async false

/-! ### Fields that share no bit, by their offsets -/

/-- Two aligned fields share no bit: `Field.Apart` in numbers, to be decided. -/
abbrev Field.Clear (f g : Field) : Prop :=
  (f.off % 4 = 0 ∧ f.lo + f.width ≤ 64) ∧ (g.off % 4 = 0 ∧ g.lo + g.width ≤ 64) ∧
    (8 * f.off + f.lo + f.width ≤ 8 * g.off + g.lo ∨ 8 * g.off + g.lo + g.width ≤ 8 * f.off + f.lo)

theorem Field.Apart.of {f g : Field} (clear : f.Clear g := by decide) : f.Apart g := clear

theorem Field.Off.of {g : Field} {off : Nat} (h : off % 4 = 0 ∧ (g.off % 4 = 0 ∧ g.lo + g.width ≤ 64) ∧
    (8 * g.off + g.lo + g.width ≤ 8 * off ∨ 8 * off + 64 ≤ 8 * g.off + g.lo) := by decide) : g.Off off := h

/-- A field after HST_CNT and before OBS_STATUS, but for TIM_CNT[7], is quiet. -/
theorem Field.Quiet.of {g : Field} (h : (g.off % 4 = 0 ∧ g.lo + g.width ≤ 64) ∧
    0x00104040 ≤ g.off ∧ (8 * g.off + g.lo + g.width ≤ 8 * 0x01200438 ∨ 8 * 0x01200440 ≤ 8 * g.off + g.lo ∧
      8 * g.off + g.lo + g.width ≤ 8 * 0x0150001C) := by decide) : g.Quiet := by
  obtain ⟨sound, low, high⟩ := h
  refine ⟨sound, ?_⟩
  simp only [Field.base]
  omega

/-! ### What a change of the couches' roles leaves (R188 to R195) -/

/-- A register field that does not meet what the loss of couch n changes: its role and LOST_CAUSE, their show in
HLK_ARB_STATUS, the count of its losses, and what reporting may change. -/
structure Field.OffLoss (n : Nat) (g : Field) : Prop where
  quiet : g.Quiet := by exact .of
  role : (Reg.CCX_STATUS_ROLE n).Apart g := by exact .of
  cause : (Reg.CCX_STATUS_LOST_CAUSE n).Apart g := by exact .of
  active : Reg.HLK_ARB_STATUS_ACTIVE.Apart g := by exact .of
  standby : Reg.HLK_ARB_STATUS_STANDBY_OK.Apart g := by exact .of
  lost : g.Off (cntCouch n 3) := by exact .of

/-- A register field that does not meet what the couches' frames, roles and gaps change. -/
structure Field.OffCouches (g : Field) : Prop where
  loss : ∀ n < 2, g.OffLoss n
  peak : Reg.HLK_ARB_STATUS_GAP_PEAK.Apart g
  arb : ∀ i < 5, g.Off (cntArb i)
  couch : ∀ n < 2, ∀ i < 4, g.Off (cntCouch n i)

section Couches
variable {s : State} {g : Field} {n : Nat}

theorem State.get_setCouch (s : State) (role : Nat) (off : g.OffLoss n) : (s.setCouch n role).get g = s.get g := by
  refine (State.get_puts_apart _ _ ?_).trans (s.get_put_apart _ off.role)
  simp only [List.forall_mem_cons, List.not_mem_nil, false_implies, implies_true, and_true]
  exact ⟨off.active, off.standby⟩

theorem State.noCouch_get (s : State) (quiet : g.Quiet) : s.noCouch.get g = s.get g := by
  unfold State.noCouch
  split
  · rfl
  · split
    · split
      · rfl
      · exact State.raise_get _ _ _ quiet
    · rfl

theorem State.get_loseCouch (s : State) (cause : Nat) (off : g.OffLoss n) : (s.loseCouch n cause).get g = s.get g := by
  unfold State.loseCouch
  split
  · rfl
  · rw [State.noCouch_get _ off.quiet, State.count_get _ _ off.quiet off.lost, State.get_setCouch _ _ off,
      State.get_put_apart _ _ off.cause]

theorem State.get_loseStandby (s : State) (cause : Nat) (off : g.OffLoss n) :
    (s.loseStandby n cause).get g = s.get g :=
  (State.get_loseCouch _ _ off).trans (State.raise_get _ _ _ off.quiet)

theorem State.mem_of_couchWith {role : Nat} (found : s.couchWith role = some n) : n < 2 ∧ s.couchRole n = role := by
  have mem := List.mem_of_find?_eq_some found
  simp only [List.mem_cons, List.not_mem_nil, or_false] at mem
  exact ⟨by omega, of_decide_eq_true (List.find?_some (p := fun n => decide (s.couchRole n = role)) found)⟩

theorem State.get_withCouch (s : State) (c : CouchState) : State.get { s with couch := c } g = s.get g := rfl

theorem State.get_drawGap (s : State) : s.drawGap.2.get g = s.get g := rfl

/-- R190: the gap is a measured value; what the switch-over leaves of the roles is the loss and the other couch's turn. -/
theorem State.get_switchOver_of {a b : Nat} (cause : Nat) (active : s.couchWith 0 = some a) (standby : s.couchWith 1 = some b)
    (quiet : g.Quiet) (peak : Reg.HLK_ARB_STATUS_GAP_PEAK.Apart g) (counter : g.Off (cntArb 1)) : (s.switchOver cause).get g =
      (((s.raise 0x0501 (s.cchNow ++ [(1, a), (1, cause)])).loseCouch a cause).setCouch b 0).get g := by
  unfold State.switchOver
  simp only [active, standby]
  rw [State.get_withCouch, State.peakGap, State.get_put_apart _ _ peak, State.get_drawGap, State.count_get _ _ quiet counter]

theorem State.get_switchOver (s : State) (cause : Nat) (off : g.OffCouches) : (s.switchOver cause).get g = s.get g := by
  cases active : s.couchWith 0 with
  | none => simp only [State.switchOver, active]
  | some a =>
    cases standby : s.couchWith 1 with
    | none => simp only [State.switchOver, active, standby]
    | some b =>
      have lossA := off.loss a (State.mem_of_couchWith active).1
      have lossB := off.loss b (State.mem_of_couchWith standby).1
      rw [State.get_switchOver_of cause active standby lossA.quiet off.peak (off.arb 1 (by decide)),
        State.get_setCouch _ _ lossB, State.get_loseCouch _ _ lossA, State.raise_get _ _ _ lossA.quiet]

end Couches


/-! ### What the rest of a tick leaves of its index (R266) -/

/-- From s to t, the last emitted tick and its index in TID_TICK stand. -/
structure TickKept (s t : State) : Prop where
  emitted : t.tid.emitted = s.tid.emitted
  index : t.get Reg.TID_TICK_INDEX = s.get Reg.TID_TICK_INDEX

theorem tickIndex_quiet : Field.Quiet Reg.TID_TICK_INDEX := .of

theorem tickIndex_offCouches : Field.OffCouches Reg.TID_TICK_INDEX where
  loss n two := by interval_cases n <;> exact {}
  peak := .of
  arb i five := by interval_cases i <;> exact .of
  couch n two i four := by interval_cases n <;> interval_cases i <;> exact .of

section Combine
variable {s t u : State} {P : List Part}

theorem TickKept.refl : TickKept s s := ⟨rfl, rfl⟩

/-- One operation after another. -/
theorem TickKept.of (k : TickKept t u) (h : TickKept s t) : TickKept s u :=
  ⟨k.emitted.trans h.emitted, k.index.trans h.index⟩

/-- One operation, and then a change of other parts than the tide unit's and the registers. -/
theorem TickKept.upd (h : TickKept s t) (emitted : u.tid.emitted = t.tid.emitted := by rfl)
    (regs : u.regs = t.regs := by rfl) : TickKept s u :=
  ⟨emitted.trans h.emitted, (congrArg (rfGet · Reg.TID_TICK_INDEX) regs).trans h.index⟩

theorem TickKept.ite {c : Prop} [Decidable c] (h : TickKept s t) (k : TickKept s u) : TickKept s (if c then t else u) := by
  split
  · exact h
  · exact k

theorem TickKept.fold {α : Type} {f : State → α → State} (each : ∀ x a, TickKept x (f x a)) (l : List α) :
    TickKept s (l.foldl f s) := by
  induction l generalizing s with
  | nil => exact .refl
  | cons a r ih => exact .of ih (each s a)

/-- An operation that changes neither the registers nor the tide unit's own state. -/
theorem Kept.tick (k : Kept P s t) (regs : Part.isIn .regs P = false := by decide)
    (tid : Part.isIn .tid P = false := by decide) : TickKept s t :=
  ⟨congrArg TideState.emitted (k.tid tid), congrArg (rfGet · Reg.TID_TICK_INDEX) (k.regs regs)⟩

/-- An operation that leaves the tide unit's own state, and the index by itself. -/
theorem Kept.tickOf (k : Kept P s t) (index : t.get Reg.TID_TICK_INDEX = s.get Reg.TID_TICK_INDEX)
    (tid : Part.isIn .tid P = false := by decide) : TickKept s t :=
  ⟨congrArg TideState.emitted (k.tid tid), index⟩

theorem Noted.tick (noted : Noted s t) : TickKept s t :=
  ⟨congrArg TideState.emitted noted.tid, noted.quiet _ tickIndex_quiet⟩

end Combine

section Tick
variable (s : State)

theorem State.raise_tick (code : Nat) (payload : List (Nat × Nat)) : TickKept s (s.raise code payload) :=
  (raise_noted s code payload).tick

theorem State.trace_tick (src : Nat) (payload : List Byte) : TickKept s (s.trace src payload) :=
  (trace_noted s src payload).tick

theorem State.put_tick {f : Field} (x : Nat) (apart : f.Apart Reg.TID_TICK_INDEX := by exact .of) : TickKept s (s.put f x) :=
  ⟨rfl, s.get_put_apart x apart⟩

theorem State.puts_tick (fs : List Field) {l : List (Field × Nat)} (fields : l.map Prod.fst = fs := by rfl)
    (clear : ∀ f ∈ fs, f.Clear Reg.TID_TICK_INDEX := by decide) : TickKept s (s.puts l) :=
  ⟨congrArg TideState.emitted (s.puts_tid l), s.get_puts_apart l fun p hp =>
    .of (clear p.1 (fields ▸ List.mem_map_of_mem hp))⟩

theorem State.count_tick {off : Nat} (apart : Field.Off Reg.TID_TICK_INDEX off := by exact .of) : TickKept s (s.count off) :=
  ⟨congrArg TideState.emitted (s.count_tid off), s.count_get off tickIndex_quiet apart⟩

theorem State.modStrip_tick (slot : Nat) (f : Strip → Strip) : TickKept s (s.modStrip slot f) := (s.modStrip_kept slot f).tick

theorem State.recordMark_tick (slot : Nat) (m : Mark) : TickKept s (s.recordMark slot m).1 := (s.recordMark_kept slot m).tick

theorem State.setFinalBreak_tick (slot index : Nat) : TickKept s (s.setFinalBreak slot index) :=
  (s.setFinalBreak_kept slot index).tick

theorem State.marksUsed_tick (slot : Nat) : TickKept s (s.marksUsed slot) :=
  .ite .refl (.of (State.raise_tick _ _ _) (s.modStrip_tick slot _))

theorem State.sendStop_tick (cause kind : Nat) (tB : Int) (origin : Nat) : TickKept s (s.sendStop cause kind tB origin) :=
  (s.sendStop_kept cause kind tB origin).tick

/-! Stops (R305 to R316) -/

theorem State.enter_tick (q : Nat) : TickKept s (s.enter q) := .of (State.put_tick _ _) (s.put_tick q)

theorem State.holdForHost_tick (slot : Nat) : TickKept s (s.holdForHost slot) :=
  .of (State.put_tick _ 1) (s.modStrip_tick slot _)

theorem State.stopProfile_tick : TickKept s s.stopProfile := by
  unfold State.stopProfile
  exact .ite (.upd (s.put_tick (f := Reg.TID_PRF_STATUS_STATE) 2)) .refl

theorem State.abandonFlood_tick (cond : Nat) (after : AfterFlood) : TickKept s (s.abandonFlood cond after) := by
  unfold State.abandonFlood
  split
  · exact .refl
  · refine .ite .refl ?_
    refine .of (State.raise_tick _ _ _) (.of (State.count_tick _) (.of (State.tellSlaves_kept _ _).tick ?_))
    refine .of (State.enter_tick _ 5) (.of (State.stopProfile_tick _) (.of (State.put_tick _ 0) ?_))
    exact .upd .refl

theorem State.promptStop_tick (cause : Nat) : TickKept s (s.promptStop cause) := by
  unfold State.promptStop
  dsimp only
  split
  · exact .refl
  · refine .ite (.ite (.ite (State.holdForHost_tick _ _) .refl) ?_)
      (.ite (State.abandonFlood_tick _ _ _) (.ite (State.holdForHost_tick _ _) .refl))
    exact .of (State.sendStop_tick _ _ _ _ _) (.upd .refl)

theorem State.enterBreak_tick (cause kind : Nat) (tB : Int) (hold : Bool) (more : List (Nat × Nat)) :
    TickKept s (s.enterBreak cause kind tB hold more) := by
  unfold State.enterBreak
  split
  · exact .refl
  case h_2 st _ =>
    extract_lets index m p s₁ s₂ s₃ _ s₄ s₅ s₆ s₇
    have marked : TickKept s s₁ := .of (State.setFinalBreak_tick _ _ _)
      (.ite (s.recordMark_tick _ _) (.of (State.marksUsed_tick _ _) (s.recordMark_tick _ _)))
    have shown : TickKept s₁ s₂ :=
      s₁.puts_tick [Reg.EXP_BREAK_CAUSE,
      Reg.EXP_BREAK_KIND, Reg.EXP_BREAK_TICK, Reg.EXP_PLAN_CAUSE, Reg.EXP_PLAN_TICK, Reg.EXP_STATE_STOP_PLANNED,
      Reg.EXP_STATE_LOW_LEAD, Reg.TID_TICK_STATE, Reg.TID_GOV_NOW_HZ]
    have settled : TickKept s₂ s₄ := .upd (t := s₃) (s₂.modStrip_tick _ _)
    have held : TickKept s₄ s₅ := .ite (State.holdForHost_tick _ _) .refl
    have counted : TickKept s₆ s₇ := by
      show TickKept s₆ (s₆.count (cntExp (if 128 ≤ cause then 2 else 1)))
      split
      · exact State.count_tick _
      · exact State.count_tick _
    exact .of (State.raise_tick _ _ _) (.of counted (.of (State.enter_tick _ 6) (.of (State.stopProfile_tick _)
      (.of held (.of settled (.of shown marked))))))

/-! The couches' part (R189 to R195) -/

theorem State.soleFault_tick (n : Nat) : TickKept s (s.soleFault n) := .of (State.promptStop_tick _ 8) (s.raise_tick _ _)

theorem State.missSole_tick : TickKept s s.missSole := by
  unfold State.missSole
  split
  · exact .of (State.soleFault_tick _ _) (.upd .refl)
  · exact .refl

theorem State.loseCouch_tick {n : Nat} (two : n < 2) (cause : Nat) : TickKept s (s.loseCouch n cause) :=
  (s.loseCouch_kept n cause).tickOf (s.get_loseCouch cause (tickIndex_offCouches.loss n two))

theorem State.loseStandby_tick {n : Nat} (two : n < 2) (cause : Nat) : TickKept s (s.loseStandby n cause) :=
  (s.loseStandby_kept n cause).tickOf (s.get_loseStandby cause (tickIndex_offCouches.loss n two))

theorem State.switchOver_tick (cause : Nat) : TickKept s (s.switchOver cause) :=
  (s.switchOver_kept cause).tickOf (s.get_switchOver cause tickIndex_offCouches)

theorem State.arbitrate_tick (f : FrameFault) : TickKept s (s.arbitrate f).1 := by
  have poison : TickKept s s.feltPoison := s.raise_tick _ _
  unfold State.arbitrate
  split
  case h_1 a b active standby =>
    have a2 := (State.mem_of_couchWith active).1
    have b2 := (State.mem_of_couchWith standby).1
    split
    · exact poison
    split
    · exact .of (State.loseCouch_tick _ b2 5) (.of (State.loseCouch_tick _ a2 5) (s.soleFault_tick a))
    split
    · exact s.switchOver_tick 1
    split
    · exact s.loseStandby_tick b2 1
    split
    · exact .refl
    · exact .refl
  case h_2 a active _ =>
    split
    · exact poison
    split
    · exact .of (State.loseCouch_tick _ (State.mem_of_couchWith active).1 1) (s.soleFault_tick a)
    · exact .refl
  case h_3 => exact .refl

theorem State.countFault_tick (f : FrameFault) : TickKept s (s.countFault f) := by
  unfold State.countFault
  extract_lets a b s₁ s₂ s₃ s₄
  have once : ∀ (x : State) (c : Bool) (n i : Nat), n < 2 → i < 4 →
      TickKept x (if c then x.count (cntCouch n i) else x) :=
    fun x c n i two four => .ite (x.count_tick (tickIndex_offCouches.couch n two i four)) .refl
  have first : TickKept s s₁ := once s _ 0 0 (by decide) (by decide)
  have second : TickKept s₁ s₂ := once s₁ _ 1 0 (by decide) (by decide)
  have third : TickKept s₂ s₃ := once s₂ _ 0 1 (by decide) (by decide)
  have fourth : TickKept s₃ s₄ := once s₃ _ 1 1 (by decide) (by decide)
  exact .of (.ite (State.count_tick _) .refl) (.of fourth (.of third (.of second first)))

theorem State.countZero_tick (slot index a cause : Nat) : TickKept s (s.countZero slot index a cause) :=
  .of (State.raise_tick _ _ _) (s.count_tick)

/-! Marks (R168, R169) and the line of two ticks on (R175, R209) -/

theorem State.addMark_tick (slot : Nat) (m : Mark) : TickKept s (s.addMark slot m) := by
  unfold State.addMark
  extract_lets lines _ s₁ p s₂
  have recorded : TickKept s p.1 := .of (State.recordMark_tick s₁ slot m) (.upd .refl)
  have used : TickKept s s₂ := .of (State.marksUsed_tick _ slot) recorded
  exact .ite recorded (.ite (.of (State.promptStop_tick _ _) used) (.of (State.setFinalBreak_tick _ _ _) used))

theorem State.zeroFrame_tick (st : Strip) (a index cause : Nat) : TickKept s (s.zeroFrame st a index cause) :=
  .of (State.addMark_tick _ _ _) (s.countZero_tick _ _ _ _)

theorem State.sendFrame_tick (l : OpenLine) (frame : List Byte) : TickKept s (s.sendFrame l frame) :=
  (s.sendFrame_kept l frame).tick

theorem State.serviceFrame_tick (slot : Nat) (t h : Int) (p : Nat) (faults : List FrameFault) (acc : LineTally) (a : Nat) :
    TickKept s (s.serviceFrame slot t h p faults acc a).1 := by
  unfold State.serviceFrame
  split
  · exact .refl
  case h_2 st _ =>
    extract_lets rf index codes need tooLong both fault s₁ differ
    clear_value fault
    have missed : TickKept s s₁ := .of (State.missSole_tick _) (.ite (s.raise_tick _ _) .refl)
    split
    case _ s₂ cause outcome =>
      have judged : TickKept s₁ s₂ := by
        cases fault with
        | none =>
          obtain rfl : s₁ = s₂ := congrArg Prod.fst outcome
          exact .refl
        | some f =>
          obtain rfl : ((s₁.countFault f).arbitrate f).1 = s₂ := congrArg Prod.fst outcome
          exact .of (State.arbitrate_tick _ _) (s₁.countFault_tick _)
      refine .of (State.sendFrame_tick _ _ _) (.of (State.onNewPath_kept _ _ _).tick (.of ?_ (.of judged missed)))
      exact .ite .refl (State.zeroFrame_tick _ _ _ _ _)

theorem TickKept.foldFst {α β : Type} {f : State × β → α → State × β} (each : ∀ x a, TickKept x.1 (f x a).1) (l : List α)
    (p : State × β) : TickKept p.1 (l.foldl f p).1 := by
  induction l generalizing p with
  | nil => exact .refl
  | cons a r ih => exact .of (ih _) (each p a)

theorem State.countLines_tick : TickKept s s.countLines := by
  unfold State.countLines
  simp only [List.foldl_cons, List.foldl_nil]
  exact .of (.ite (State.count_tick _) .refl) (.ite s.count_tick .refl)

theorem State.lineSent_tick (acc : LineTally) (before : Bool) (p index : Nat) (h : Int) :
    TickKept s (s.lineSent acc before p index h) :=
  .of (State.chainsSent_kept _ _ _).tick (.of (State.latchTick_kept _ _).tick (.of (State.recover_kept _ _).tick
    (.of (State.trace_tick _ _ _) (s.zeroRuns_kept _).tick)))

theorem State.sendLine_tick (slot : Nat) (t h : Int) (p : Nat) (faults : List FrameFault) :
    TickKept s (s.sendLine slot t h p faults) :=
  .of (State.lineSent_tick _ _ _ _ _ _) (.of
    (TickKept.foldFst (fun x a => State.serviceFrame_tick x.1 slot t h p faults x.2 a) frameOrder (s.countLines, ⟨0, 0, []⟩))
    s.countLines_tick)

/-! A fired tick: the reams that it ends, and what waits for their room (R163, R171) -/

theorem State.showStore_tick : TickKept s s.showStore :=
  s.puts_tick [Reg.STO_STATUS_LIVE_REAMS, Reg.STO_FREE_BLOCKS, Reg.STO_STATUS_OPEN_STRIPS]

theorem State.storeBreak_tick (slot r j : Nat) (due : Int) : TickKept s (s.storeBreak slot r j due) :=
  (s.raise_tick 0x0412 (stoFields slot (some r) (some j) none none)).upd

theorem State.requestLedger_tick (slot r j : Nat) (due : Option Int) (again : Bool) :
    TickKept s (s.requestLedger slot r j due again) := by
  unfold State.requestLedger
  extract_lets s₁ record late d s₂ s₃ box
  have counted : TickKept s s₁ := s.count_tick
  have recorded : ∀ x ok, TickKept x (record x ok) := fun x ok => .upd .refl
  split
  · extract_lets s₄
    have declined : TickKept s s₄ := .ite counted (.of (State.raise_tick _ _ _) counted)
    split
    · exact .of (State.storeBreak_tick _ _ _ _ _) (.of (recorded _ _) declined)
    · exact .of (recorded _ _) declined
  · exact .ite (.of (State.storeBreak_tick _ _ _ _ _) (.of (recorded _ _) (.of (State.raise_tick _ _ _) counted)))
      (.upd (t := s₃) (.of (recorded _ true) counted))

theorem State.retryLost_tick : TickKept s s.retryLost := .fold (fun x _ => x.requestLedger_tick _ _ _ _ _) _

theorem State.releaseReam_tick (slot r : Nat) : TickKept s (s.releaseReam slot r) := by
  unfold State.releaseReam
  split
  · exact .refl
  · extract_lets left _ s₁ s₂
    have freed : TickKept s s₂ := .of (State.modStrip_tick _ _ _) (.of (State.modLedger_kept _ _ _).tick (.upd .refl))
    exact .of (State.retryLost_tick _) (.of (State.showStore_tick _) (.of (State.count_tick _) freed))

theorem State.fireReam_tick (st : Strip) (t : Int) (m : ReamSlot) : TickKept s (s.fireReam st t m) := by
  unfold State.fireReam
  refine .ite .refl ?_
  have banded : ∀ f, TickKept s (s.modReam st.slot m.ream f) := fun f => (s.modReam_kept _ _ f).tick
  refine .ite (banded _) (.ite (.of (State.releaseReam_tick _ _ _) (banded _)) ?_)
  exact .of (State.modReam_kept _ _ _ _).tick (banded _)

theorem State.fireTick_tick (st : Strip) (t : Int) : TickKept s (s.fireTick st t) := by
  unfold State.fireTick
  refine .of (State.dropFelt_kept _ _ _).tick (.of (.fold (fun x m => x.fireReam_tick st t m) _) ?_)
  exact .ite (.of (State.modStrip_tick _ _ _) s.count_tick) .refl

theorem State.coastTick_tick (st : Strip) (t : Int) : TickKept s (s.coastTick st t) := by
  unfold State.coastTick
  split
  · exact .ite (s.fireTick_tick st t) .refl
  · exact .refl

/-! The sequencer at a tick (R309 to R313, R320) -/

theorem State.showLead_tick : TickKept s s.showLead := by
  unfold State.showLead
  split
  · exact s.put_tick _
  · exact s.put_tick 0

theorem State.enterEbb_tick : TickKept s s.enterEbb := by
  unfold State.enterEbb
  exact .of (State.enter_tick _ 5) (.of (State.puts_tick _ [Reg.TID_TICK_STATE, Reg.EXP_STATE_STOP_PLANNED,
    Reg.EXP_STATE_LOW_LEAD, Reg.EXP_PLAN_CAUSE, Reg.EXP_PLAN_TICK, Reg.TID_GOV_NOW_HZ]) (.upd .refl))

theorem State.showRate_tick (st : Strip) (t : Int) : TickKept s (s.showRate st t) := by
  unfold State.showRate
  extract_lets r
  split
  · exact s.puts_tick [Reg.TID_GOV_NOW_HZ, Reg.TID_GOV_NOW_CAUSE]
  · exact .refl

theorem State.watchLead_tick (st : Strip) (t : Int) : TickKept s (s.watchLead st t) := by
  unfold State.watchLead
  extract_lets lead sigma low s₁
  have shown : TickKept s s₁ := s.put_tick _
  exact .ite (.of (State.raise_tick _ _ _) (.upd shown)) (.ite shown (.upd shown))

theorem State.planStop_tick (st : Strip) (t : Int) : TickKept s (s.planStop st t) := by
  have shown : ∀ a b c, TickKept s (s.puts [(Reg.EXP_STATE_STOP_PLANNED, a), (Reg.EXP_PLAN_CAUSE, b), (Reg.EXP_PLAN_TICK, c)]) :=
    fun _ _ _ => s.puts_tick [Reg.EXP_STATE_STOP_PLANNED, Reg.EXP_PLAN_CAUSE, Reg.EXP_PLAN_TICK]
  unfold State.planStop
  extract_lets old
  clear_value old
  split
  · split
    · exact .refl
    · exact .of (State.raise_tick _ _ _) (shown _ _ _)
  · exact .ite (shown _ _ _) (.of (State.raise_tick _ _ _) (shown _ _ _))

theorem State.carryOut_tick (st : Strip) (t : Int) : TickKept s (s.carryOut st t) := by
  unfold State.carryOut
  split
  · exact .refl
  · refine .ite ?_ .refl
    split
    · exact .ite (s.enterBreak_tick _ _ _ _ _) (s.enterBreak_tick _ _ _ _ _)
    · exact .of (State.sendStop_tick _ _ _ _ _) (s.enterBreak_tick _ _ _ _ _)

theorem State.watchTick_tick (st : Strip) (t : Int) : TickKept s (s.watchTick st t) := by
  unfold State.watchTick
  extract_lets due s₁ s₂
  have watched : TickKept s s₁ := .ite .refl (s.watchLead_tick st t)
  exact .ite (s.carryOut_tick st t) (.of (State.carryOut_tick _ _ _) (.of (State.planStop_tick s₁ st t) watched))

/-- R308: the sequencer begins no run at a tick of EXPOSE or RESUME. -/
theorem State.sequenceTick_tick {s : State} (fires : s.firing = true) (st : Strip) (t : Int) :
    TickKept s (s.sequenceTick st t) := by
  have begun : ¬ (s.get Reg.EXP_STATE_STATE = 3 ∧ t = s.seq.ta - 2) := by
    rintro ⟨flood, -⟩
    simp [State.firing, flood] at fires
  unfold State.sequenceTick
  refine .ite (s.coastTick_tick st t) ?_
  rw [if_neg begun]
  refine .ite .refl ?_
  extract_lets s₁ s₂
  have entered : TickKept s s₁ := .ite (s.enter_tick 4) .refl
  have fired : TickKept s s₂ := .of (State.showLead_tick _) (.of (State.fireTick_tick _ _ _) entered)
  exact .ite (.of (State.enterEbb_tick _) fired) (.of (State.watchTick_tick _ _ _) (.of (State.showRate_tick _ _ _) fired))

end Tick

/-! ### Ticks and zero runs (R194, R266, R270) -/

theorem tickIndex_lt (tS : Nat) (t : Int) : tickIndex tS t < 2 ^ 48 := by
  have low := Int.emod_nonneg ((tS : Int) + t) (by decide : (2 : Int) ^ 48 ≠ 0)
  have high := Int.emod_lt_of_pos ((tS : Int) + t) (by decide : (0 : Int) < 2 ^ 48)
  exact (Int.toNat_lt low).2 high

theorem State.firing_congr {s t : State} (state : t.get Reg.EXP_STATE_STATE = s.get Reg.EXP_STATE_STATE) :
    t.firing = s.firing := by
  rw [State.firing, State.firing, state]

theorem State.openStrip_congr {s t : State} (box : t.box = s.box) : t.openStrip = s.openStrip := by
  rw [State.openStrip, State.openStrip, box]

/-- R266: t is the last emitted tick once it is emitted, and TID_TICK shows its index, whatever the sequencer does then. -/
theorem State.emitTick_emits {s : State} (fires : s.firing = true) (st : Strip) (t h x : Int) (p : Nat)
    (faults : List FrameFault) : (s.emitTick st t h x p faults).tid.emitted = some t ∧
      (s.emitTick st t h x p faults).get Reg.TID_TICK_INDEX = tickIndex (s.ledgerAt st.slot).tS t := by
  unfold State.emitTick
  extract_lets index s₁ s₂ _ s₃ s₄ s₅ s₆
  have noted : Noted s₄ s₅ := trace_noted _ _ _
  have counted : ∀ g : Field, g.Quiet → g.Off (cntTid 3) → s₅.get g = s₁.get g := fun g quiet off =>
    (noted.quiet g quiet).trans (s₃.count_get _ quiet off)
  have firing : s₅.firing = true :=
    (State.firing_congr ((counted _ .of .of).trans (s.get_put_apart index .of))).trans fires
  have emitted : s₅.tid.emitted = some t := congrArg TideState.emitted (noted.tid.trans (s₃.count_tid _))
  have shown : s₅.get Reg.TID_TICK_INDEX = index :=
    (counted _ tickIndex_quiet .of).trans (s.get_put_same _ index tickIndex_quiet.1 (tickIndex_lt _ _))
  have rest : TickKept s₅ s₆ := State.sequenceTick_tick firing st t
  have sent : TickKept s₅
      (if s₆.firing = true ∧ t + 2 ≤ s₆.lastTick st then s₆.sendLine st.slot (t + 2) h p faults else s₆) :=
    .ite (.of (s₆.sendLine_tick _ _ _ _ _) rest) rest
  exact ⟨sent.emitted.trans emitted, sent.index.trans shown⟩

/-- R266: in RUN, the next tick is emitted where it is due and its commitment lies within 1 ms. -/
theorem State.runTick_due {s : State} {st : Strip} {x y h : Int} (faults : List FrameFault)
    (run : s.get Reg.TID_TICK_STATE = 3) (noStop : s.seq.prompt = none) (due : s.tickDue st (s.tickNow + 1) = true)
    (cross : s.crossingOf st (s.tickNow + 2) = some y ∧ s.crossingOf st (s.tickNow + 3) = some x)
    (committed : (s.tid.committed.find? fun c => decide (c.1 = s.tickNow + 2)) = some (s.tickNow + 2, h, y))
    (near : x - y ≤ 400000 * 64) :
    s.runTick st faults = (s.tellTick st (s.tickNow + 1) (s.headOf x) (s.headOf x - h).toNat).emitTick st (s.tickNow + 1)
      (s.headOf x) x (s.headOf x - h).toNat faults := by
  obtain ⟨crossY, crossX⟩ := cross
  have e2 : s.tickNow + 1 + 1 = s.tickNow + 2 := by omega
  have e3 : s.tickNow + 1 + 2 = s.tickNow + 3 := by omega
  unfold State.runTick
  simp [run, noStop, due, e2, e3, crossY, crossX, committed]
  omega

theorem execTickEmit_test {s : State} (faults : List FrameFault) (test : s.get Reg.TID_TICK_STATE = 1) :
    exec (.tickEmit faults) s = .next (s.emitTest faults) := by
  show execTickEmit faults s = _
  simp [execTickEmit, test]

theorem execTickEmit_run {s : State} {st : Strip} (faults : List FrameFault) (run : s.get Reg.TID_TICK_STATE = 3)
    (strip : s.openStrip = some st) (master : s.get Reg.CSC_STATUS_SLAVE = 0) :
    exec (.tickEmit faults) s = .next (s.runTick st faults) := by
  show execTickEmit faults s = _
  simp [execTickEmit, run, strip, State.on, master]

/-- R194: with no other stop pending, a prompt stop of the run is at the next tick. -/
theorem State.promptStop_firing {s : State} {st : Strip} (cause : Nat) (fires : s.firing = true)
    (strip : s.openStrip = some st) (noStop : s.seq.prompt = none) :
    Kept [.csc] { s with seq := { s.seq with prompt := some ⟨s.tickNow + 1, cause, 2, 0⟩ } } (s.promptStop cause) := by
  unfold State.promptStop
  simp only [strip, fires, if_true, noStop, Bool.false_eq_true, if_false]
  exact State.sendStop_kept _ _ _ _ _

/-- The tide unit's own state after a TEST tick. -/
def State.testTicked (s : State) : State :=
  { s with tid := { s.tid with tLast := (s.tid.tLast + 1) % 2 ^ 48, testAt := some s.tide } }

/-- R270: a TEST tick that is due is shown, counted and traced; with no swap test and no measurement run it sends no line. -/
theorem State.emitTest_due {s : State} (faults : List FrameFault)
    (due : ∀ a, s.tid.testAt = some a → a + s.tid.testDiv ≤ s.tide) (noTest : s.couch.test = none)
    (noRun : s.hcr.run = none) : ∃ payload, s.emitTest faults =
      ((s.testTicked.put Reg.TID_TICK_INDEX ((s.tid.tLast + 1) % 2 ^ 48)).count (cntTid 3)).trace 4 payload := by
  have noLine : ∀ (t : State) index h p, t.couch = s.couch → t.hcr = s.hcr → t.testLine index h p faults = t := by
    intro t index h p couch hcr
    simp [State.testLine, State.measureLine, couch, hcr, noTest, noRun]
  unfold State.emitTest
  extract_lets now index _ s₁ s₂ s₃
  have isDue : now = true := by
    unfold now
    split
    case h_1 a last => exact decide_eq_true (due a last)
    case h_2 => rfl
  have noted : Noted s₂ s₃ := trace_noted _ _ _
  rw [if_neg (not_not.2 isDue), noLine s₃ _ _ _ (noted.couch.trans (State.count_couch _ _))
    (noted.hcr.trans (State.count_hcr _ _))]
  exact ⟨_, rfl⟩

/-- R194: the run of zero frames of a chain, counted from 0 again. -/
def State.zeroRunEnded (s : State) (n : Nat) : State :=
  { s with couch := { s.couch with zeroRun := listSet s.couch.zeroRun n 0 } }

theorem execZeroRun_long {s : State} {n : Fin 128} (fires : s.firing = true)
    (long : s.get Reg.HLK_ARB_CTRL_ZERO_LIMIT ≤ s.couch.zeroRun.getD n 0) : ∃ payload,
      exec (.zeroRun n) s = .next ((((s.zeroRunEnded n).count (cntArb 4)).raise 0x0504 payload).promptStop 8) :=
  ⟨_, if_pos ⟨fires, long⟩⟩

/-- Settles O21: a tick's index and number stand through what else its emission does (`emitTick_emits`); the stop of a zero
run is `promptStop_firing`. -/
theorem ticksAndZeroRuns : Obligations.ticks_and_zero_runs := by
  unfold Obligations.ticks_and_zero_runs
  intro s
  refine ⟨?test, ?run, ?still, ?zeros⟩
  case test =>
    intro faults test due ⟨noTest, noRun⟩
    obtain ⟨payload, emits⟩ := State.emitTest_due faults due noTest noRun
    have noted := trace_noted
      ((s.testTicked.put Reg.TID_TICK_INDEX ((s.tid.tLast + 1) % 2 ^ 48)).count (cntTid 3)) 4 payload
    refine ⟨_, (execTickEmit_test faults test).trans (congrArg _ emits), ?_, ?_, ?_, ?_⟩
    · rw [noted.tid, State.count_tid]
      rfl
    · rw [noted.quiet _ tickIndex_quiet, State.count_get _ _ tickIndex_quiet .of,
        State.get_put_same _ _ _ tickIndex_quiet.1 (Nat.mod_lt _ (by decide))]
    · rw [noted.link, State.count_link]
      rfl
    · rw [noted.couch, State.count_couch]
      rfl
  case run =>
    intro faults st x y h run fires strip master noStop due cross ⟨committed, near⟩
    have told := s.tellTick_kept st (s.tickNow + 1) (s.headOf x) (s.headOf x - h).toNat
    have firing := (State.firing_congr (congrArg (rfGet · Reg.EXP_STATE_STATE) told.regs)).trans fires
    obtain ⟨emitted, index⟩ := State.emitTick_emits firing st (s.tickNow + 1) (s.headOf x) x (s.headOf x - h).toNat faults
    refine ⟨_, (execTickEmit_run faults run strip master).trans
      (congrArg _ (State.runTick_due faults run noStop due cross committed near)), emitted, index.trans ?_⟩
    rw [State.ledgerAt, State.ledgerAt, told.store]
  case still =>
    intro faults state
    refine ⟨s, ?_, rfl⟩
    show execTickEmit faults s = _
    rcases state with off | hold
    · simp [execTickEmit, off]
    · simp [execTickEmit, hold]
  case zeros =>
    intro n st fires long strip noStop
    obtain ⟨payload, ran⟩ := execZeroRun_long fires long
    have raised := raise_noted ((s.zeroRunEnded n).count (cntArb 4)) 0x0504 payload
    generalize ((s.zeroRunEnded n).count (cntArb 4)).raise 0x0504 payload = t at ran raised
    have seq : t.seq = s.seq := raised.seq.trans (State.count_seq _ _)
    have tid : t.tid = s.tid := raised.tid.trans (State.count_tid _ _)
    have couch : t.couch = (s.zeroRunEnded n).couch := raised.couch.trans (State.count_couch _ _)
    have firing : t.firing = true := (State.firing_congr ((raised.quiet _ .of).trans (State.count_get _ _ .of .of))).trans fires
    have isOpen := (State.openStrip_congr (raised.box.trans (State.count_box _ _))).trans strip
    have stopped := State.promptStop_firing 8 firing isOpen ((congrArg SeqState.prompt seq).trans noStop)
    refine ⟨_, ran, ?_, stopped.couch.trans couch⟩
    rw [stopped.seq, seq, State.tickNow, tid]
    rfl

end Sys2Proof.Machine
end

section
/-! PROOFS. Statements on the couch chapter (spec/08_couch.md): a couch whose domain fails, swap tests, and the writes of the
couches' registers. -/
namespace Sys2Proof.Machine

set_option Elab.async false

/-! ### Power domains shown (R497, R500) -/

theorem testBit_setBit_false (v i : Nat) : (setBit v i false).testBit i = false := by
  unfold setBit
  rw [bitAt_eq_testBit]
  cases set : v.testBit i with
  | false => simpa using set
  | true =>
    have odd : v / 2 ^ i % 2 = 1 := by
      simpa [Nat.testBit_eq_decide_div_mod_eq] using set
    have pos : 0 < v / 2 ^ i := Nat.pos_of_ne_zero fun zero => by simp [zero] at odd
    have less : 2 ^ i ≤ v := (Nat.div_pos_iff.1 pos).2
    have e : (v - 2 ^ i) / 2 ^ i = v / 2 ^ i - 1 := by simpa using Nat.sub_mul_div v (2 ^ i) 1
    simp only [if_true, Bool.false_eq_true, if_false, Nat.testBit_eq_decide_div_mod_eq, e, decide_eq_false_iff_not]
    omega

theorem bitAt_setBit (v i : Nat) (b : Bool) : bitAt (setBit v i b) i = b := by
  rw [bitAt_eq_testBit]
  cases b with
  | false => exact testBit_setBit_false v i
  | true => exact testBit_setBit_true v i

/-- A bit of a field of 16, after a put of a value with that bit set or cleared. -/
theorem State.bitAt_get_put (s : State) {f : Field} (sound : f.Sound) (v : Nat) {i : Nat} (within : i < f.width) (b : Bool) :
    bitAt ((s.put f (setBit v i b)).get f) i = b := by
  show bitAt (rfGet (rfPut s.regs f (setBit v i b)) f) i = b
  rw [rfGet_put_same _ _ _ sound, bitAt_eq_testBit, Nat.testBit_mod_two_pow, ← bitAt_eq_testBit, bitAt_setBit]
  simp [within]

section Domains
variable (s : State) {d : Nat} (on fault : Bool)

theorem State.get_showDomain {g : Field} (shownOn : Reg.PWR_DOMAIN_STATUS_ON.Apart g)
    (shownFault : Reg.PWR_DOMAIN_STATUS_FAULT.Apart g) : (s.showDomain d on fault).get g = s.get g :=
  (State.get_put_apart _ _ shownFault).trans (s.get_put_apart _ shownOn)

theorem State.showDomain_on (domain : d < 16) : bitAt ((s.showDomain d on fault).get Reg.PWR_DOMAIN_STATUS_ON) d = on := by
  have apart := State.get_put_apart (s.put Reg.PWR_DOMAIN_STATUS_ON (setBit (s.get Reg.PWR_DOMAIN_STATUS_ON) d on))
    (setBit (s.get Reg.PWR_DOMAIN_STATUS_FAULT) d fault) (f := Reg.PWR_DOMAIN_STATUS_FAULT) (g := Reg.PWR_DOMAIN_STATUS_ON) .of
  exact (congrArg (bitAt · d) apart).trans (s.bitAt_get_put ⟨by decide, by decide⟩ _ domain on)

theorem State.showDomain_fault (domain : d < 16) :
    bitAt ((s.showDomain d on fault).get Reg.PWR_DOMAIN_STATUS_FAULT) d = fault :=
  State.bitAt_get_put _ (f := Reg.PWR_DOMAIN_STATUS_FAULT) ⟨by decide, by decide⟩ _ domain fault

end Domains

/-! ### The couches' roles (R188, R189) -/

theorem couch_cases {m n : Nat} (other : m < 2) (this : n < 2) (ne : m ≠ n) : (m = 0 ∧ n = 1) ∨ (m = 1 ∧ n = 0) := by omega

theorem role_offLoss {m n : Nat} (other : m < 2) (this : n < 2) (ne : m ≠ n) : (Reg.CCX_STATUS_ROLE m).OffLoss n := by
  obtain ⟨rfl, rfl⟩ | ⟨rfl, rfl⟩ := couch_cases other this ne
  · exact {}
  · exact {}

theorem cause_offLoss {m n : Nat} (other : m < 2) (this : n < 2) (ne : m ≠ n) :
    (Reg.CCX_STATUS_LOST_CAUSE m).OffLoss n := by
  obtain ⟨rfl, rfl⟩ | ⟨rfl, rfl⟩ := couch_cases other this ne
  · exact {}
  · exact {}

/-- The fields in which couch n is seen LOST lie off the counters, the show of the roles, and each other. -/
structure LossFields (n : Nat) : Prop where
  role : (Reg.CCX_STATUS_ROLE n).Quiet := by exact .of
  cause : (Reg.CCX_STATUS_LOST_CAUSE n).Quiet := by exact .of
  roleCause : (Reg.CCX_STATUS_ROLE n).Apart (Reg.CCX_STATUS_LOST_CAUSE n) := by exact .of
  roleActive : Reg.HLK_ARB_STATUS_ACTIVE.Apart (Reg.CCX_STATUS_ROLE n) := by exact .of
  roleStandby : Reg.HLK_ARB_STATUS_STANDBY_OK.Apart (Reg.CCX_STATUS_ROLE n) := by exact .of
  causeActive : Reg.HLK_ARB_STATUS_ACTIVE.Apart (Reg.CCX_STATUS_LOST_CAUSE n) := by exact .of
  causeStandby : Reg.HLK_ARB_STATUS_STANDBY_OK.Apart (Reg.CCX_STATUS_LOST_CAUSE n) := by exact .of
  rolePeak : Reg.HLK_ARB_STATUS_GAP_PEAK.Apart (Reg.CCX_STATUS_ROLE n) := by exact .of
  causePeak : Reg.HLK_ARB_STATUS_GAP_PEAK.Apart (Reg.CCX_STATUS_LOST_CAUSE n) := by exact .of
  roleLost : (Reg.CCX_STATUS_ROLE n).Off (cntCouch n 3) := by exact .of
  causeLost : (Reg.CCX_STATUS_LOST_CAUSE n).Off (cntCouch n 3) := by exact .of
  roleSwitch : (Reg.CCX_STATUS_ROLE n).Off (cntArb 1) := by exact .of
  causeSwitch : (Reg.CCX_STATUS_LOST_CAUSE n).Off (cntArb 1) := by exact .of

theorem lossFields {n : Nat} (couch : n < 2) : LossFields n := by
  interval_cases n
  · exact {}
  · exact {}

section Roles
variable (s : State) {n : Nat} (couch : n < 2)
include couch

theorem State.setCouch_role {role : Nat} (fits : role < 4) : (s.setCouch n role).couchRole n = role := by
  have fields := lossFields couch
  refine (State.get_puts_apart _ _ ?_).trans (s.get_put_same _ role fields.role.1 fits)
  simp only [List.forall_mem_cons, List.not_mem_nil, false_implies, implies_true, and_true]
  exact ⟨fields.roleActive, fields.roleStandby⟩

theorem State.get_setCouch_cause (role : Nat) :
    (s.setCouch n role).get (Reg.CCX_STATUS_LOST_CAUSE n) = s.get (Reg.CCX_STATUS_LOST_CAUSE n) := by
  have fields := lossFields couch
  refine (State.get_puts_apart _ _ ?_).trans (s.get_put_apart _ fields.roleCause)
  simp only [List.forall_mem_cons, List.not_mem_nil, false_implies, implies_true, and_true]
  exact ⟨fields.causeActive, fields.causeStandby⟩

theorem State.setCouch_other {m : Nat} (other : m < 2) (ne : m ≠ n) (role : Nat) :
    (s.setCouch n role).couchRole m = s.couchRole m := s.get_setCouch role (role_offLoss other couch ne)

/-- R189: a couch in service that is lost is LOST with its cause. -/
theorem State.loseCouch_lost (inService : s.couchRole n < 2) {cause : Nat} (fits : cause < 16) :
    (s.loseCouch n cause).couchRole n = 2 ∧ (s.loseCouch n cause).get (Reg.CCX_STATUS_LOST_CAUSE n) = cause := by
  have fields := lossFields couch
  unfold State.loseCouch
  rw [if_neg (Nat.not_le.2 inService)]
  constructor
  · exact (State.noCouch_get _ fields.role).trans ((State.count_get _ _ fields.role fields.roleLost).trans
      (State.setCouch_role _ couch (by decide)))
  · exact (State.noCouch_get _ fields.cause).trans ((State.count_get _ _ fields.cause fields.causeLost).trans
      ((State.get_setCouch_cause _ couch 2).trans (s.get_put_same _ cause fields.cause.1 fits)))

end Roles

/-- The couch of a role, where the other has another. -/
theorem State.couchWith_of {s : State} {n role : Nat} (couch : n < 2) (has : s.couchRole n = role)
    (other : s.couchRole (1 - n) ≠ role) : s.couchWith role = some n := by
  unfold State.couchWith
  interval_cases n
  · simp [has]
  · have first : s.couchRole 0 ≠ role := other
    simp [has, first]

theorem State.couchWith_congr {s t : State} (same : ∀ n < 2, t.couchRole n = s.couchRole n) (role : Nat) :
    t.couchWith role = s.couchWith role := by
  simp only [State.couchWith, List.find?_cons, List.find?_nil, same 0 (by decide), same 1 (by decide)]

/-- R189: after a switch-over the ACTIVE couch is LOST with its cause, and the STANDBY one serves. -/
theorem State.switchOver_roles {s : State} {a b cause : Nat} (active : s.couchWith 0 = some a)
    (standby : s.couchWith 1 = some b) (fits : cause < 16) : (s.switchOver cause).couchRole a = 2 ∧
      (s.switchOver cause).couchRole b = 0 ∧ (s.switchOver cause).get (Reg.CCX_STATUS_LOST_CAUSE a) = cause := by
  obtain ⟨a2, roleA⟩ := State.mem_of_couchWith active
  obtain ⟨b2, roleB⟩ := State.mem_of_couchWith standby
  have ne : a ≠ b := by rintro rfl; omega
  have fieldsA := lossFields a2
  have fieldsB := lossFields b2
  generalize raised : s.raise 0x0501 (s.cchNow ++ [(1, a), (1, cause)]) = r
  have inService : r.couchRole a < 2 := by
    rw [← raised, State.couchRole, State.raise_get _ _ _ fieldsA.role]
    exact lt_of_eq_of_lt roleA (by decide)
  obtain ⟨lost, why⟩ := r.loseCouch_lost a2 inService fits
  refine ⟨?_, ?_, ?_⟩
  · rw [State.couchRole, State.get_switchOver_of cause active standby fieldsA.role fieldsA.rolePeak fieldsA.roleSwitch, raised]
    exact (State.setCouch_other _ b2 a2 ne 0).trans lost
  · rw [State.couchRole, State.get_switchOver_of cause active standby fieldsB.role fieldsB.rolePeak fieldsB.roleSwitch]
    exact State.setCouch_role _ b2 (by decide)
  · rw [State.get_switchOver_of cause active standby fieldsA.cause fieldsA.causePeak fieldsA.causeSwitch, raised,
      State.get_setCouch _ _ (cause_offLoss a2 b2 ne)]
    exact why

theorem State.loseStandby_lost (s : State) {n cause : Nat} (couch : n < 2) (inService : s.couchRole n < 2) (fits : cause < 16) :
    (s.loseStandby n cause).couchRole n = 2 ∧ (s.loseStandby n cause).get (Reg.CCX_STATUS_LOST_CAUSE n) = cause :=
  State.loseCouch_lost _ couch
    (lt_of_eq_of_lt (State.raise_get _ _ _ (lossFields couch).role) inService) fits

/-! ### A couch's domain fails (R189, R500) -/

section Fault
variable (s : State) (n : Fin 2)

theorem State.powerFault_get {g : Field} (shownOn : Reg.PWR_DOMAIN_STATUS_ON.Apart g)
    (shownFault : Reg.PWR_DOMAIN_STATUS_FAULT.Apart g) (d : Nat) : (s.powerFault d).get g = s.get g :=
  s.get_showDomain false true shownOn shownFault

theorem State.powerFault_on {d : Nat} (domain : d < 16) :
    bitAt ((s.powerFault d).get Reg.PWR_DOMAIN_STATUS_ON) d = false := s.showDomain_on false true domain

theorem State.powerFault_fault {d : Nat} (domain : d < 16) :
    bitAt ((s.powerFault d).get Reg.PWR_DOMAIN_STATUS_FAULT) d = true := s.showDomain_fault false true domain

theorem State.powerFault_couchRole (d : Nat) {m : Nat} (couch : m < 2) : (s.powerFault d).couchRole m = s.couchRole m := by
  interval_cases m
  · exact s.powerFault_get .of .of d
  · exact s.powerFault_get .of .of d

theorem State.couchDomainLost_later {s : State} (later : 2 ≤ s.get Reg.EXP_STATE_STATE) (n : Nat) :
    s.couchDomainLost n = s.couchGone n 2 := by
  unfold State.couchDomainLost
  extract_lets lost
  split
  · omega
  · omega
  · rfl

theorem execCouchDomainFail_later {s : State} (later : 2 ≤ s.get Reg.EXP_STATE_STATE) :
    exec (.couchDomainFail n) s = .next ((s.powerFault (8 + n)).couchGone n 2) := by
  have later' : 2 ≤ (s.powerFault (8 + n)).get Reg.EXP_STATE_STATE := later.trans_eq (s.powerFault_get .of .of _).symm
  show Host.Outcome.next ((s.powerFault (8 + n)).couchDomainLost n) = _
  rw [State.couchDomainLost_later later']

theorem pwrOn_offCouches : Reg.PWR_DOMAIN_STATUS_ON.OffCouches where
  loss n two := by interval_cases n <;> exact {}
  peak := .of
  arb i five := by interval_cases i <;> exact .of
  couch n two i four := by interval_cases n <;> interval_cases i <;> exact .of

theorem pwrFault_offCouches : Reg.PWR_DOMAIN_STATUS_FAULT.OffCouches where
  loss n two := by interval_cases n <;> exact {}
  peak := .of
  arb i five := by interval_cases i <;> exact .of
  couch n two i four := by interval_cases n <;> interval_cases i <;> exact .of

theorem state_offLoss {n : Nat} (couch : n < 2) : Reg.EXP_STATE_STATE.OffLoss n := by
  interval_cases n
  · exact {}
  · exact {}

end Fault

section Fault
variable {s : State} {n : Fin 2}

theorem State.couchGone_standby (cause : Nat) (active : s.couchRole n = 0) {b : Nat} (standby : s.couchWith 1 = some b) :
    s.couchGone n cause = s.switchOver cause := by
  simp only [State.couchGone, active, standby]

theorem State.couchGone_ofStandby (cause : Nat) (standby : s.couchRole n = 1) :
    s.couchGone n cause = s.loseStandby n cause := by
  simp only [State.couchGone, standby]

/-- R189: the frames of the next line of couch n go missing. -/
def State.frameless (s : State) (n : Nat) : State := { s with couch := { s.couch with gone := some n } }

theorem State.get_frameless (s : State) (n : Nat) (g : Field) : (s.frameless n).get g = s.get g := rfl

theorem State.frameless_seq (s : State) (n : Nat) : (s.frameless n).seq = s.seq := rfl

theorem State.couchGone_sole (cause : Nat) (active : s.couchRole n = 0) (sole : s.couchWith 1 = none)
    (fires : s.firing = true) : s.couchGone n cause = (s.loseCouch n cause).frameless n := by
  have firing : (s.loseCouch n cause).firing = true :=
    (State.firing_congr (s.get_loseCouch cause (state_offLoss n.isLt))).trans fires
  simp only [State.couchGone, active, sole, firing, if_true, State.frameless]

/-- R500: in NEAP the role to come of couch n is LOST, and the other's ACTIVE. -/
def State.neapLost (s : State) (n : Nat) : State :=
  { s with couch := { s.couch with neapRoles := listSet (listSet s.couch.neapRoles n 2) (1 - n) 0 } }

theorem State.get_neapLost (s : State) (n : Nat) (g : Field) : (s.neapLost n).get g = s.get g := rfl

theorem State.neapLost_seq (s : State) (n : Nat) : (s.neapLost n).seq = s.seq := rfl

theorem State.couchDomainLost_neap (neap : s.get Reg.EXP_STATE_STATE = 1)
    (roles : s.couch.neapRoles.getD n 3 = 0 ∧ s.couch.neapRoles.getD (1 - n) 3 = 1) (two : s.couch.neapRoles.length = 2) :
    ∃ payload, s.couchDomainLost n =
      (((s.neapLost n).raise 0x0502 payload).put (Reg.CCX_STATUS_LOST_CAUSE n) 2).count (cntCouch n 3) := by
  obtain ⟨active, standby⟩ := roles
  have still : (listSet s.couch.neapRoles n 2).getD (1 - n) 3 = 1 := by
    obtain ⟨a, b, e⟩ := List.length_eq_two.1 two
    rw [e] at standby ⊢
    fin_cases n
    · exact standby
    · exact standby
  unfold State.couchDomainLost
  simp only [neap, active, still, Nat.not_le.2 (by decide : 0 < 2), if_false, and_self, if_true]
  exact ⟨_, rfl⟩

/-- R189: with a STANDBY couch, the ACTIVE one's failure is a switch-over. -/
theorem couchDomainFail_standby {b : Nat} (later : 2 ≤ s.get Reg.EXP_STATE_STATE) (active : s.couchRole n = 0)
    (standby : s.couchWith 1 = some b) : Acts (.couchDomainFail n) s fun t => t.couchRole n = 2 ∧ t.couchRole b = 0 ∧
      t.get (Reg.CCX_STATUS_LOST_CAUSE n) = 2 ∧ bitAt (t.get Reg.PWR_DOMAIN_STATUS_ON) (8 + n) = false ∧
      bitAt (t.get Reg.PWR_DOMAIN_STATUS_FAULT) (8 + n) = true ∧ t.seq = s.seq := by
  have ran := execCouchDomainFail_later n later
  have same : ∀ m < 2, (s.powerFault (8 + n)).couchRole m = s.couchRole m := fun m => s.powerFault_couchRole _
  obtain ⟨b2, roleB⟩ := State.mem_of_couchWith standby
  have other : s.couchRole (1 - n) ≠ 0 := by
    have ne : b ≠ n := by rintro rfl; omega
    rw [show 1 - n.val = b by omega, roleB]
    decide
  have activeNow := (State.couchWith_congr same 0).trans (State.couchWith_of n.isLt active other)
  have standbyNow := (State.couchWith_congr same 1).trans standby
  obtain ⟨lost, serves, cause⟩ := State.switchOver_roles (cause := 2) activeNow standbyNow (by decide)
  have domain : 8 + n.val < 16 := by omega
  refine ⟨_, ran, ?_⟩
  rw [State.couchGone_standby 2 ((same n n.isLt).trans active) standbyNow]
  refine ⟨lost, serves, cause, ?_, ?_, ?_⟩
  · rw [State.get_switchOver _ _ pwrOn_offCouches]
    exact s.powerFault_on domain
  · rw [State.get_switchOver _ _ pwrFault_offCouches]
    exact s.powerFault_fault domain
  · exact (State.switchOver_kept _ _).seq.trans (s.powerFault_kept _).seq

/-- R189: the STANDBY couch's failure leaves the other as it is. -/
theorem couchDomainFail_ofStandby (later : 2 ≤ s.get Reg.EXP_STATE_STATE) (standby : s.couchRole n = 1) :
    Acts (.couchDomainFail n) s fun t => t.couchRole n = 2 ∧ t.couchRole (1 - n.val) = s.couchRole (1 - n.val) ∧
      t.get (Reg.CCX_STATUS_LOST_CAUSE n) = 2 ∧ t.seq = s.seq := by
  have ran := execCouchDomainFail_later n later
  have now := (s.powerFault_couchRole (8 + n) n.isLt).trans standby
  have other : 1 - n.val < 2 := by omega
  obtain ⟨lost, cause⟩ := State.loseStandby_lost _ n.isLt (lt_of_eq_of_lt now (by decide)) (by decide : 2 < 16)
  refine ⟨_, ran, ?_⟩
  rw [State.couchGone_ofStandby 2 now]
  refine ⟨lost, ?_, cause, (State.loseStandby_kept _ _ _).seq.trans (s.powerFault_kept _).seq⟩
  exact (State.get_loseStandby _ 2 (role_offLoss other n.isLt (by omega))).trans (s.powerFault_couchRole _ other)

/-- R189: the frames of a sole couch that fails go missing. -/
theorem couchDomainFail_sole (later : 2 ≤ s.get Reg.EXP_STATE_STATE) (active : s.couchRole n = 0)
    (sole : s.couchWith 1 = none) (fires : s.firing = true) : Acts (.couchDomainFail n) s fun t => t.couchRole n = 2 ∧
      t.get (Reg.CCX_STATUS_LOST_CAUSE n) = 2 ∧ t.couch.gone = some n.val ∧ t.seq = s.seq := by
  have ran := execCouchDomainFail_later n later
  have same : ∀ m < 2, (s.powerFault (8 + n)).couchRole m = s.couchRole m := fun m => s.powerFault_couchRole _
  have now := (same n n.isLt).trans active
  have firing := (State.firing_congr (s.powerFault_get .of .of (8 + n))).trans fires
  obtain ⟨lost, cause⟩ := State.loseCouch_lost _ n.isLt (lt_of_eq_of_lt now (by decide)) (by decide : 2 < 16)
  refine ⟨_, ran, ?_⟩
  rw [State.couchGone_sole 2 now ((State.couchWith_congr same 1).trans sole) firing]
  exact ⟨(State.get_frameless _ _ _).trans lost, (State.get_frameless _ _ _).trans cause, rfl,
    (State.frameless_seq _ _).trans <| (State.loseCouch_kept _ n.val 2).seq.trans (s.powerFault_kept _).seq⟩

/-- R500: the same in NEAP, for the roles to come. -/
theorem couchDomainFail_neap (neap : s.get Reg.EXP_STATE_STATE = 1)
    (roles : s.couch.neapRoles.getD n 3 = 0 ∧ s.couch.neapRoles.getD (1 - n) 3 = 1) (two : s.couch.neapRoles.length = 2) :
    Acts (.couchDomainFail n) s fun t =>
      t.couch = { s.couch with neapRoles := listSet (listSet s.couch.neapRoles n 2) (1 - n) 0 } ∧
      t.get (Reg.CCX_STATUS_LOST_CAUSE n) = 2 ∧ bitAt (t.get Reg.PWR_DOMAIN_STATUS_FAULT) (8 + n) = true ∧ t.seq = s.seq := by
  have couch : (s.powerFault (8 + n)).couch = s.couch := (s.powerFault_kept _).couch
  obtain ⟨payload, lost⟩ := State.couchDomainLost_neap (s := s.powerFault (8 + n)) (n := n)
    ((s.powerFault_get .of .of _).trans neap) (by rw [couch]; exact roles) (by rw [couch]; exact two)
  have ran : exec (.couchDomainFail n) s = .next ((s.powerFault (8 + n)).couchDomainLost n) := rfl
  have fields := lossFields n.isLt
  have off := pwrFault_offCouches.loss n n.isLt
  refine ⟨_, ran, ?_⟩
  rw [lost]
  refine ⟨?_, ?_, ?_, ?_⟩
  · rw [State.count_couch, State.put_couch, State.raise_couch, State.neapLost, couch]
  · rw [State.count_get _ _ fields.cause fields.causeLost, State.get_put_same _ _ 2 fields.cause.1]
    exact (by decide : 2 < 2 ^ 4)
  · rw [State.count_get _ _ off.quiet off.lost, State.get_put_apart _ _ off.cause, State.raise_get _ _ _ off.quiet,
      State.get_neapLost]
    exact s.powerFault_fault (by omega)
  · rw [State.count_seq, State.put_seq, State.raise_seq, State.neapLost_seq]
    exact (s.powerFault_kept _).seq

end Fault

/-! ### Swap tests (R196, R197) -/

/-- R196: s with a swap test begun. -/
def State.testBegun (s : State) (w : SwapTest) : State :=
  { s with couch := { s.couch with test := some w, restoreDue := false, scheduled := false },
           tid := { s.tid with testDiv := s.testPeriod } }

theorem execSwapTestStart_due {s : State} {w : SwapTest} (due : s.testToRun = some w) (service : w.restoring = [])
    (slack : s.get Reg.EXP_STATE_STATE = 2) (rest : s.get Reg.TID_PRF_STATUS_STATE = 0) (off : s.get Reg.TID_TICK_STATE = 0)
    (ready : s.on Reg.HLK_STATUS_ALL_READY = true) (noTest : s.couch.test = none) (noRun : s.hcr.run = none ∧ s.hcr.cal = none)
    (noLoop : s.lanes.loop = none) : exec .swapTestStart s =
      .next (((s.testBegun w).put Reg.TID_TICK_STATE 1).count (cntArb 3)).reblank := by
  show execSwapTestStart s = _
  simp only [execSwapTestStart, due, service, slack, rest, off, ready, noTest, noRun, noLoop, Option.isNone_none,
    List.all_nil, and_self, if_true]
  rfl

/-- R224: a swap test holds the head blanked. -/
theorem State.reblank_ofTest {s : State} (test : s.couch.test.isSome = true) : s.reblank.get Reg.HLK_STATUS_BLANK = 1 := by
  have blanked : s.blanked = true := by simp [State.blanked, test]
  rw [State.reblank, blanked]
  exact s.get_put_same _ 1 ⟨by decide, by decide⟩ (by decide)

theorem State.get_reblank (s : State) {g : Field} (apart : Reg.HLK_STATUS_BLANK.Apart g) : s.reblank.get g = s.get g :=
  s.get_put_apart _ apart

theorem State.reblank_couch (s : State) : s.reblank.couch = s.couch := rfl
theorem State.reblank_tid (s : State) : s.reblank.tid = s.tid := rfl

theorem foldl_max_lt {k : Nat} (l : List (BitVec k)) {m : Nat} (lt : m < 2 ^ k) :
    l.foldl (fun m x => max m x.toNat) m < 2 ^ k := by
  induction l generalizing m with
  | nil => exact lt
  | cons x r ih => exact ih (max_lt lt x.isLt)

/-- R196: the test w after its switch, with the gaps measured. -/
def SwapTest.switchedOver (w : SwapTest) (gaps : List (BitVec 16)) : SwapTest :=
  { w with
    switched := true
    gap := gaps.foldl (fun m x => max m x.toNat) 0
    failures := w.failures ++
      ((List.range 128).filter fun n => decide (480 < (gaps.getD n 0#16).toNat)).map fun n => (w.second, n, 3) }

theorem execSwapTestSwitch_half {s : State} {w : SwapTest} (gaps : List (BitVec 16)) (test : s.couch.test = some w)
    (first : w.switched = false) (half : w.lines ≤ w.line * 2) : exec (.swapTestSwitch gaps) s =
      .next (State.peakGap { s with couch := { s.couch with test := some (w.switchedOver gaps) } }
        (w.switchedOver gaps).gap) := by
  show execSwapTestSwitch gaps s = _
  simp only [execSwapTestSwitch, test, first, Bool.false_eq_true, false_or, Nat.not_lt.2 half, if_false]
  rfl

theorem State.peakGap_le (s : State) {gap : Nat} (fits : gap < 2 ^ 16) :
    s.get Reg.HLK_ARB_STATUS_GAP_PEAK ≤ (s.peakGap gap).get Reg.HLK_ARB_STATUS_GAP_PEAK := by
  have sound : Field.Sound Reg.HLK_ARB_STATUS_GAP_PEAK := ⟨by decide, by decide⟩
  rw [State.peakGap, s.get_put_same _ _ sound (max_lt fits (s.get_lt _ sound))]
  exact le_max_right _ _

/-- R197: s with its swap test over: no test line is awaited, the tick generator is OFF, and no test is asked for. -/
def State.testOver (s : State) : State :=
  State.puts { s with couch := { s.couch with test := none },
                      link := { s.link with lines := s.link.lines.filter fun l => decide (l.kind ≠ 1) } }
    [(Reg.TID_TICK_STATE, 0), (Reg.CCH_SWAP_CTRL_REQUEST, 0)]

theorem State.testOver_couch (s : State) : s.testOver.couch = { s.couch with test := none } := by
  rw [State.testOver, State.puts_couch]

theorem State.testOver_role (s : State) {n : Nat} (couch : n < 2) : s.testOver.couchRole n = s.couchRole n := by
  interval_cases n
  · exact (State.get_put_apart _ 0 .of).trans (State.get_put_apart _ 0 .of)
  · exact (State.get_put_apart _ 0 .of).trans (State.get_put_apart _ 0 .of)

theorem execSwapTestEnd_ends {s : State} {w : SwapTest} (test : s.couch.test = some w) (service : w.restoring = [])
    (ends : w.failsEarly = true ∨ (w.lines ≤ w.line ∧ w.switched = true ∧
      (s.link.lines.all fun l => decide (l.kind ≠ 1)) = true)) :
    exec .swapTestEnd s = .next (s.testOver.endService w).reblank := by
  show execSwapTestEnd s = _
  simp only [execSwapTestEnd, test, if_pos ends, service, List.isEmpty_nil, if_true]
  rfl

theorem State.get_passTest (s : State) {n : Nat} {g : Field} (apart : (Reg.CCX_STATUS_SINCE_TEST n).Apart g) :
    (s.passTest n).get g = s.get g := by
  unfold State.passTest
  rw [State.get_put_apart _ _ apart, State.get_withCouch]

theorem State.passTest_test (s : State) (n : Nat) : (s.passTest n).couch.test = s.couch.test := by
  rw [State.passTest, State.put_couch]

theorem State.setCouch_couch (s : State) (n role : Nat) : (s.setCouch n role).couch = s.couch := (s.setCouch_kept n role).couch

/-- R197: the roles exchanged at the end of a test that has passed, and the tests of both couches noted. -/
def State.rolesExchanged (s : State) (w : SwapTest) : State :=
  (((s.setCouch w.first 1).setCouch w.second 0).passTest w.first).passTest w.second

theorem State.endService_passed (s : State) {w : SwapTest} (passed : w.failures = []) :
    ∃ payload, s.endService w = (s.rolesExchanged w).raise 0x0507 payload := by
  unfold State.endService
  rw [if_pos (by rw [passed]; rfl)]
  exact ⟨_, rfl⟩

theorem role_since {m n : Nat} (couch : m < 2) (tested : n < 2) :
    (Reg.CCX_STATUS_SINCE_TEST n).Apart (Reg.CCX_STATUS_ROLE m) := by
  interval_cases m <;> interval_cases n <;> exact .of

/-- R197: what the exchange leaves, but for the roles. -/
theorem State.get_rolesExchanged (s : State) {w : SwapTest} {g : Field} (first : w.first < 2) (second : w.second < 2)
    (off : ∀ n < 2, g.OffLoss n) (since : ∀ n < 2, (Reg.CCX_STATUS_SINCE_TEST n).Apart g) :
    (s.rolesExchanged w).get g = s.get g := by
  rw [State.rolesExchanged, State.get_passTest _ (since _ second), State.get_passTest _ (since _ first),
    State.get_setCouch _ _ (off _ second), State.get_setCouch _ _ (off _ first)]

theorem State.rolesExchanged_roles (s : State) {w : SwapTest} (couches : w.first < 2 ∧ w.second = 1 - w.first) :
    (s.rolesExchanged w).couchRole w.first = 1 ∧ (s.rolesExchanged w).couchRole w.second = 0 := by
  obtain ⟨first, other⟩ := couches
  have second : w.second < 2 := by omega
  have tested : ∀ m < 2, (s.rolesExchanged w).couchRole m = ((s.setCouch w.first 1).setCouch w.second 0).couchRole m :=
    fun m couch => by
      rw [State.rolesExchanged, State.couchRole, State.get_passTest _ (role_since couch second),
        State.get_passTest _ (role_since couch first)]
      rfl
  rw [tested _ first, tested _ second, State.setCouch_other _ second first (by omega)]
  exact ⟨s.setCouch_role first (by decide), State.setCouch_role _ second (by decide)⟩

theorem State.rolesExchanged_test (s : State) (w : SwapTest) : (s.rolesExchanged w).couch.test = s.couch.test := by
  rw [State.rolesExchanged, State.passTest_test, State.passTest_test, State.setCouch_couch, State.setCouch_couch]

theorem State.noCouch_couch (s : State) : ∃ raised, s.noCouch.couch = { s.couch with noCouchRaised := raised } := by
  unfold State.noCouch
  split
  · exact ⟨s.couch.noCouchRaised, rfl⟩
  · split
    · split
      · exact ⟨s.couch.noCouchRaised, rfl⟩
      · exact ⟨true, State.raise_couch _ _ _⟩
    · exact ⟨false, rfl⟩

theorem State.noCouch_test (s : State) : s.noCouch.couch.test = s.couch.test := by
  obtain ⟨raised, after⟩ := s.noCouch_couch
  rw [after]

theorem State.loseCouch_test (s : State) (n cause : Nat) : (s.loseCouch n cause).couch.test = s.couch.test := by
  unfold State.loseCouch
  split
  · rfl
  · rw [State.noCouch_test, State.count_couch, State.setCouch_couch, State.put_couch]

/-- R197: a couch that none of the failures names has not failed. -/
theorem SwapTest.failed_other {w : SwapTest} {n : Nat} (blamed : (w.failures.all fun f => decide (f.1 = w.second)) = true)
    (ne : n ≠ w.second) : w.failed n = false :=
  List.any_eq_false.2 fun f hf => by
    simpa using fun e => ne (e.symm.trans (of_decide_eq_true (List.all_eq_true.1 blamed f hf)))

theorem SwapTest.failed_second {w : SwapTest} (blamed : (w.failures.all fun f => decide (f.1 = w.second)) = true)
    (failed : w.failures ≠ []) : w.failed w.second = true := by
  obtain ⟨f, rest, cons⟩ := List.exists_cons_of_ne_nil failed
  have mem : f ∈ w.failures := cons ▸ List.mem_cons_self
  exact List.any_eq_true.2 ⟨f, mem, List.all_eq_true.1 blamed f mem⟩

/-- R197: the end of a test that only the couch under test has failed. -/
theorem State.endService_failed (s : State) {w : SwapTest} (failed : w.failures ≠ [])
    (blamed : (w.failures.all fun f => decide (f.1 = w.second)) = true) (ne : w.first ≠ w.second) :
    s.endService w = (s.swapFail w w.second).loseCouch w.second 3 := by
  have notEmpty : w.failures.isEmpty = false := List.isEmpty_eq_false_iff.2 failed
  unfold State.endService State.failCouch
  simp only [notEmpty, SwapTest.failed_other blamed ne, SwapTest.failed_second blamed failed, Bool.false_eq_true, if_false,
    if_true, not_true_eq_false, and_false]

theorem SwapTest.failsEarly_of {w : SwapTest} (failed : w.failures ≠ []) (service : w.restoring = [])
    (firstPassed : w.failed w.first = false) : w.failsEarly = true := by
  simp [SwapTest.failsEarly, failed, service, firstPassed]

theorem State.swapFail_noted (s : State) (w : SwapTest) (n : Nat) : Noted s (s.swapFail w n) := by
  unfold State.swapFail
  split
  · exact raise_noted _ _ _
  · exact .rfl' s

theorem role_blank {n : Nat} (couch : n < 2) : Reg.HLK_STATUS_BLANK.Apart (Reg.CCX_STATUS_ROLE n) := by
  interval_cases n
  · exact .of
  · exact .of

theorem cause_blank {n : Nat} (couch : n < 2) : Reg.HLK_STATUS_BLANK.Apart (Reg.CCX_STATUS_LOST_CAUSE n) := by
  interval_cases n
  · exact .of
  · exact .of

theorem swapTestStart_begins {s : State} {w : SwapTest} (due : s.testToRun = some w) (service : w.restoring = [])
    (slack : s.get Reg.EXP_STATE_STATE = 2) (rest : s.get Reg.TID_PRF_STATUS_STATE = 0) (off : s.get Reg.TID_TICK_STATE = 0)
    (ready : s.on Reg.HLK_STATUS_ALL_READY = true) (noTest : s.couch.test = none) (noRun : s.hcr.run = none ∧ s.hcr.cal = none)
    (noLoop : s.lanes.loop = none) : Acts .swapTestStart s fun t =>
      t.couch = { s.couch with test := some w, restoreDue := false, scheduled := false } ∧
      t.tid = { s.tid with testDiv := s.testPeriod } ∧ t.get Reg.TID_TICK_STATE = 1 ∧ t.get Reg.HLK_STATUS_BLANK = 1 := by
  refine ⟨_, execSwapTestStart_due due service slack rest off ready noTest noRun noLoop, ?_, ?_, ?_, ?_⟩
  · rw [State.reblank_couch, State.count_couch, State.put_couch]
    rfl
  · rw [State.reblank_tid, State.count_tid, State.put_tid]
    rfl
  · rw [State.get_reblank _ .of, State.count_get _ _ .of .of]
    exact State.get_put_same _ _ 1 ⟨by decide, by decide⟩ (by decide)
  · refine State.reblank_ofTest ?_
    rw [State.count_couch, State.put_couch]
    rfl

theorem swapTestSwitch_switches {s : State} {w : SwapTest} (gaps : List (BitVec 16)) (test : s.couch.test = some w)
    (first : w.switched = false) (half : w.lines ≤ w.line * 2) : Acts (.swapTestSwitch gaps) s fun t =>
      t.couch.test = some (w.switchedOver gaps) ∧
      s.get Reg.HLK_ARB_STATUS_GAP_PEAK ≤ t.get Reg.HLK_ARB_STATUS_GAP_PEAK ∧ SameBut [.regs, .couch] s t := by
  have ran := execSwapTestSwitch_half gaps test first half
  refine ⟨_, ran, ?_, ?_, (execSwapTestSwitch_kept gaps s _ ran).eq⟩
  · rw [State.peakGap, State.put_couch]
  · exact State.peakGap_le _ (foldl_max_lt gaps (by decide))

/-- The fields that a swap test's end leaves as it puts them: they lie off the couches and off the head's blanking. -/
structure Field.OffTestEnd (g : Field) : Prop where
  loss : ∀ n < 2, g.OffLoss n
  since : ∀ n < 2, (Reg.CCX_STATUS_SINCE_TEST n).Apart g
  blank : Reg.HLK_STATUS_BLANK.Apart g

theorem tickState_offTestEnd : Reg.TID_TICK_STATE.OffTestEnd where
  loss n two := by interval_cases n <;> exact {}
  since n two := by interval_cases n <;> exact .of
  blank := .of

theorem request_offTestEnd : Reg.CCH_SWAP_CTRL_REQUEST.OffTestEnd where
  loss n two := by interval_cases n <;> exact {}
  since n two := by interval_cases n <;> exact .of
  blank := .of

theorem State.testOver_tickState (s : State) : s.testOver.get Reg.TID_TICK_STATE = 0 :=
  (State.get_put_apart _ 0 .of).trans (State.get_put_same _ _ 0 ⟨by decide, by decide⟩ (by decide))

theorem State.testOver_request (s : State) : s.testOver.get Reg.CCH_SWAP_CTRL_REQUEST = 0 :=
  State.get_put_same _ _ 0 ⟨by decide, by decide⟩ (by decide)

theorem swapTestEnd_exchanges {s : State} {w : SwapTest} (test : s.couch.test = some w) (service : w.restoring = [])
    (passed : w.failures = []) (lines : w.lines ≤ w.line ∧ w.switched = true)
    (answered : (s.link.lines.all fun l => decide (l.kind ≠ 1)) = true) (couches : w.first < 2 ∧ w.second = 1 - w.first) :
    Acts .swapTestEnd s fun t => t.couchRole w.first = 1 ∧ t.couchRole w.second = 0 ∧ t.couch.test = none ∧
      t.get Reg.TID_TICK_STATE = 0 ∧ t.get Reg.CCH_SWAP_CTRL_REQUEST = 0 := by
  obtain ⟨all, switched⟩ := lines
  obtain ⟨first, other⟩ := couches
  have second : w.second < 2 := by omega
  obtain ⟨payload, ends⟩ := s.testOver.endService_passed passed
  have ran := execSwapTestEnd_ends test service (.inr ⟨all, switched, answered⟩)
  rw [ends] at ran
  have noted := raise_noted (s.testOver.rolesExchanged w) 0x0507 payload
  obtain ⟨standby, active⟩ := s.testOver.rolesExchanged_roles ⟨first, other⟩
  have role : ∀ n < 2, (State.reblank ((s.testOver.rolesExchanged w).raise 0x0507 payload)).couchRole n =
      (s.testOver.rolesExchanged w).couchRole n := fun n couch =>
    (State.get_reblank _ (role_blank couch)).trans (noted.quiet _ (lossFields couch).role)
  have others : ∀ g : Field, g.OffTestEnd → (State.reblank ((s.testOver.rolesExchanged w).raise 0x0507 payload)).get g =
      s.testOver.get g := fun g off =>
    (State.get_reblank _ off.blank).trans ((noted.quiet _ (off.loss 0 (by decide)).quiet).trans
      (State.get_rolesExchanged _ first second off.loss off.since))
  refine ⟨_, ran, (role _ first).trans standby, (role _ second).trans active, ?_, ?_, ?_⟩
  · rw [State.reblank_couch, noted.couch, State.rolesExchanged_test, State.testOver_couch]
  · exact (others _ tickState_offTestEnd).trans s.testOver_tickState
  · exact (others _ request_offTestEnd).trans s.testOver_request

theorem swapTestEnd_loses {s : State} {w : SwapTest} (test : s.couch.test = some w) (service : w.restoring = [])
    (failed : w.failures ≠ []) (blamed : (w.failures.all fun f => decide (f.1 = w.second)) = true)
    (couches : w.first < 2 ∧ w.second = 1 - w.first) (inService : s.couchRole w.second < 2) :
    Acts .swapTestEnd s fun t => t.couchRole w.first = s.couchRole w.first ∧ t.couchRole w.second = 2 ∧
      t.get (Reg.CCX_STATUS_LOST_CAUSE w.second) = 3 ∧ t.couch.test = none := by
  obtain ⟨first, other⟩ := couches
  have second : w.second < 2 := by omega
  have ne : w.first ≠ w.second := by omega
  have noted := s.testOver.swapFail_noted w w.second
  have role : ∀ n < 2, (s.testOver.swapFail w w.second).couchRole n = s.couchRole n := fun n couch =>
    (noted.quiet _ (lossFields couch).role).trans (s.testOver_role couch)
  have ran := execSwapTestEnd_ends test service (.inl (SwapTest.failsEarly_of failed service (SwapTest.failed_other blamed ne)))
  rw [State.endService_failed _ failed blamed ne] at ran
  obtain ⟨lost, cause⟩ := State.loseCouch_lost _ second ((role _ second).trans_lt inService) (by decide : 3 < 16)
  refine ⟨_, ran, ?_, ?_, ?_, ?_⟩
  · have stands := State.get_loseCouch (s.testOver.swapFail w w.second) 3 (role_offLoss first second ne)
    exact (State.get_reblank _ (role_blank first)).trans (stands.trans (role _ first))
  · exact (State.get_reblank _ (role_blank second)).trans lost
  · exact (State.get_reblank _ (cause_blank second)).trans cause
  · rw [State.reblank_couch, State.loseCouch_test, noted.couch, State.testOver_couch]

/-! ### Writes of the couches' registers (R196, R201, R202) -/

/-- A field that shares no bit with w bits of whole words reads as before, where all other words do. -/
theorem rfGet_of_words {rf rf' : RegFile} {off w : Nat} {g : Field} (words : w % 32 = 0) (apart : Field.Apart ⟨off, 0, w⟩ g)
    (same : ∀ o, o + 4 ≤ off ∨ off + w / 8 ≤ o → rfWord rf' o = rfWord rf o) : rfGet rf' g = rfGet rf g := by
  obtain ⟨⟨aligned, -⟩, sound, outside⟩ := apart
  simp only [Field.base] at aligned outside
  apply Nat.eq_of_testBit_eq
  intro i
  rw [rfGet_testBit _ _ sound, rfGet_testBit _ _ sound]
  by_cases within : i < g.width
  · rw [regBit, regBit, same]
    simp only [Field.base]
    omega
  · simp [within]

theorem WordWritten.regsBut {off : Nat} {v : BitVec 32} {s t : State} (w : WordWritten off v s t) :
    RegsBut [⟨off, 0, 32⟩] s t := fun _ _ apart =>
  rfGet_of_words (by decide) (apart _ (List.mem_singleton_self _)) fun o outside => w.others o (by omega)

/-- What a write of one word leaves is R13's, at any register of one word. -/
theorem WordWritten.wroteNarrow {off : Nat} {v : BitVec 64} {s t : State}
    (narrow : ∀ r idx k, findRow off = some (r, idx, k) → r.Narrow) (w : WordWritten off (v.setWidth 32) s t) :
    Wrote off false v s t := by
  intro h le r idx k row
  obtain rfl : h = 0 := Nat.le_zero.1 le
  obtain ⟨one, fits, -⟩ := narrow r idx k row
  refine ⟨fun _ f hf => ?_, fun wide => absurd wide (Bool.eq_false_iff.1 one)⟩
  rw [show off + 4 * 0 = off from rfl, w.fields r idx k row f hf, bvField_setWidth _ (fits f hf).2]
  rfl

theorem setWidth_word (v : Word) : (v.setWidth 64).setWidth 32 = v := by
  simp

/-- The row of the register table of CCH_SWAP_CTRL. -/
def swapCtrlRow : RegRow :=
  ⟨"CCH_SWAP_CTRL", 0x00600010, [], false, [⟨31, 1, .w1s, .const 0, .cold, none⟩, ⟨0, 16, .rw, .const 60, .kept, none⟩]⟩

/-- The row of the register table of CCH_ROLE_REQ. -/
def couchReqRow : RegRow :=
  ⟨"CCH_ROLE_REQ", 0x00600018, [], false, [⟨1, 1, .rw, .const 0, .kept, none⟩, ⟨0, 1, .rw, .const 0, .kept, none⟩]⟩

theorem findRow_swapCtrl : findRow 0x00600010 = some (swapCtrlRow, [], 0) := by decide +kernel

theorem findRow_couchReq : findRow 0x00600018 = some (couchReqRow, [], 0) := by decide +kernel

theorem swapCtrl_narrow (r : RegRow) (idx : List Nat) (k : Nat) (row : findRow 0x00600010 = some (r, idx, k)) : r.Narrow := by
  obtain ⟨rfl, -⟩ := Prod.mk.inj (Option.some.inj (findRow_swapCtrl.symm.trans row))
  decide

theorem couchReq_narrow (r : RegRow) (idx : List Nat) (k : Nat) (row : findRow 0x00600018 = some (r, idx, k)) : r.Narrow := by
  obtain ⟨rfl, -⟩ := Prod.mk.inj (Option.some.inj (findRow_couchReq.symm.trans row))
  decide

/-- s after a write of a request for the couches' roles (R201). -/
def State.couchesAsked (s : State) (v : Word) : State :=
  { s.writeWord 0x00600018 v with couch := { (s.writeWord 0x00600018 v).couch with roleReq := true } }

theorem SameBut.withCouch {s m : State} (same : m = { s with regs := m.regs }) (c : CouchState) :
    SameBut [.regs, .couch] s { m with couch := c } := by
  obtain ⟨rf, rfl⟩ : ∃ rf, m = { s with regs := rf } := ⟨_, same⟩
  rfl

theorem Wrote.withCouch {o : Nat} {wide : Bool} {v : BitVec 64} {s m : State} (wrote : Wrote o wide v s m) (c : CouchState) :
    Wrote o wide v s { m with couch := c } := wrote

theorem RegsBut.withCouch {l : List Field} {s m : State} (others : RegsBut l s m) (c : CouchState) :
    RegsBut l s { m with couch := c } := others

theorem execCchRoleReqWrite_eq (s : State) (v : Word) : exec (.cchRoleReqWrite v) s =
    if (s.couchesAsked v).get Reg.EXP_STATE_STATE < 3 ∧ (s.couchesAsked v).openStrip.isNone = true
      then .next (s.couchesAsked v).applyCouchRoles else .next (s.couchesAsked v) := rfl

section Up
variable {s : State} (up : s.domainOn 1 = true) (v : Word)
include up

theorem State.writeSwapCtrl_written : WordWritten 0x00600010 v s (s.writeWord 0x00600010 v) :=
  s.writeWord_written v rfl swapCtrl_narrow up

theorem State.writeCouchReq_written : WordWritten 0x00600018 v s (s.writeWord 0x00600018 v) :=
  s.writeWord_written v rfl couchReq_narrow up

theorem swapRequest_writes : Acts (.swapRequest v) s fun t => Wrote 0x00600010 false (v.setWidth 64) s t ∧
    SameBut [.regs] s t ∧ RegsBut [⟨0x00600010, 0, 32⟩] s t := by
  have written := State.writeSwapCtrl_written up v
  exact ⟨_, rfl, WordWritten.wroteNarrow swapCtrl_narrow (by rw [setWidth_word]; exact written), written.same, written.regsBut⟩

/-! Role requests (R201) -/

theorem State.couchesAsked_other {o lo w : Nat} (one : lo + w ≤ 32) (other : o ≠ 0x00600018) :
    (s.couchesAsked v).get ⟨o, lo, w⟩ = s.get ⟨o, lo, w⟩ := (State.writeCouchReq_written up v).get_other one other

theorem State.writeCouchReq_couch : (s.writeWord 0x00600018 v).couch = s.couch := by
  rw [(State.writeCouchReq_written up v).same]

theorem State.couchesAsked_couch : (s.couchesAsked v).couch = { s.couch with roleReq := true } := by
  rw [State.couchesAsked, State.writeCouchReq_couch up]

theorem State.couchesAsked_box : (s.couchesAsked v).box = s.box := by
  show (s.writeWord 0x00600018 v).box = s.box
  rw [(State.writeCouchReq_written up v).same]

theorem State.couchesAsked_off : (s.couchesAsked v).get Reg.CCH_ROLE_REQ_A_OFF = (v.getLsbD 0).toNat ∧
    (s.couchesAsked v).get Reg.CCH_ROLE_REQ_B_OFF = (v.getLsbD 1).toNat := by
  have fields := (State.writeCouchReq_written up v).fields _ _ _ findRow_couchReq
  have bit : ∀ i < 32, bvField (v.setWidth 64) i 1 = (v.getLsbD i).toNat := by
    intro i small
    apply Nat.eq_of_testBit_eq
    intro j
    rw [bvField_testBit _ _ _ _ (by decide), BitVec.getLsbD_setWidth]
    cases j with
    | zero => cases v.getLsbD i <;> simp [show i < 64 by omega]
    | succ j => cases v.getLsbD i <;> simp [Nat.testBit_succ]
  exact ⟨(fields _ (List.mem_cons_of_mem _ List.mem_cons_self)).trans (bit 0 (by decide)),
    (fields _ List.mem_cons_self).trans (bit 1 (by decide))⟩

theorem cchRoleReqWrite_waits (exposing : 3 ≤ s.get Reg.EXP_STATE_STATE ∨ s.openStrip.isSome = true) :
    Acts (.cchRoleReqWrite v) s fun t => Wrote 0x00600018 false (v.setWidth 64) s t ∧
      t.couch = { s.couch with roleReq := true } ∧ SameBut [.regs, .couch] s t ∧ RegsBut [⟨0x00600018, 0, 32⟩] s t := by
  have written := State.writeCouchReq_written up v
  have waits : ¬ ((s.couchesAsked v).get Reg.EXP_STATE_STATE < 3 ∧ (s.couchesAsked v).openStrip.isNone = true) := by
    rw [State.couchesAsked_other up v (by decide) (by decide), State.openStrip_congr (State.couchesAsked_box up v)]
    rintro ⟨slack, noStrip⟩
    rcases exposing with exposing | isOpen
    · exact absurd slack (Nat.not_lt.2 exposing)
    · rw [Option.isNone_iff_eq_none.1 noStrip] at isOpen
      cases isOpen
  have wrote : Wrote 0x00600018 false (v.setWidth 64) s (s.writeWord 0x00600018 v) :=
    WordWritten.wroteNarrow couchReq_narrow (by rw [setWidth_word]; exact written)
  exact ⟨_, (execCchRoleReqWrite_eq s v).trans (if_neg waits), wrote.withCouch _, State.couchesAsked_couch up v,
    SameBut.withCouch written.same _, written.regsBut.withCouch _⟩

end Up

/-- R201: s with couch n noted as set OFF by the host. -/
def State.notedOff (s : State) (n : Nat) : State :=
  { s with couch := { s.couch with hostOff := setBit s.couch.hostOff n true } }

/-- R201: the couches that CCH_ROLE_REQ asks OFF, one bit each. -/
def State.offAsked (s : State) : Nat := s.get Reg.CCH_ROLE_REQ_A_OFF + 2 * s.get Reg.CCH_ROLE_REQ_B_OFF

theorem State.applyCouchRole_off {s : State} {n : Nat} (asked : bitAt s.offAsked n = true)
    (was : bitAt s.couch.hostOff n = false) (awake : s.get Reg.EXP_STATE_STATE ≠ 1) :
    s.applyCouchRole n = ((s.notedOff n).couchOff n).noCouch := by
  unfold State.applyCouchRole
  rw [← State.offAsked, asked, was, if_neg Bool.true_eq_false.mp]
  change (if (s.notedOff n).get Reg.EXP_STATE_STATE = 1 then (s.notedOff n).neapCouch n true
    else State.noCouch (if true = true then (s.notedOff n).couchOff n else (s.notedOff n).couchOn n)) = _
  have still : (s.notedOff n).get Reg.EXP_STATE_STATE ≠ 1 := awake
  rw [if_neg still, if_pos rfl]

theorem State.applyCouchRole_same {s : State} {n : Nat} (same : bitAt s.offAsked n = bitAt s.couch.hostOff n) :
    s.applyCouchRole n = s := if_pos same

theorem State.get_powerDown (s : State) {g : Field} (shownOn : Reg.PWR_DOMAIN_STATUS_ON.Apart g)
    (shownFault : Reg.PWR_DOMAIN_STATUS_FAULT.Apart g) (d : Nat) : (s.powerDown d).get g = s.get g :=
  s.get_showDomain _ _ shownOn shownFault

theorem State.powerDown_couchRole (s : State) (d : Nat) {m : Nat} (couch : m < 2) :
    (s.powerDown d).couchRole m = s.couchRole m := by
  interval_cases m
  · exact s.get_powerDown .of .of d
  · exact s.get_powerDown .of .of d

theorem State.standbyActs_of {s : State} {n : Nat} (standby : s.couchWith 1 = some n) : s.standbyActs = s.setCouch n 0 := by
  simp only [State.standbyActs, standby]

/-- R188, R201: the ACTIVE couch set OFF, the STANDBY one takes its place. -/
theorem State.couchOff_active {s : State} {n : Nat} (couch : n < 2) (active : s.couchRole n = 0)
    (standby : s.couchRole (1 - n) = 1) :
    s.couchOff n = ((s.setCouch n 3).powerDown (8 + n)).setCouch (1 - n) 0 := by
  have other : 1 - n < 2 := by omega
  have off : ((s.setCouch n 3).powerDown (8 + n)).couchRole n = 3 :=
    (State.powerDown_couchRole _ _ couch).trans (s.setCouch_role couch (by decide))
  have stands : ((s.setCouch n 3).powerDown (8 + n)).couchRole (1 - n) = 1 :=
    (State.powerDown_couchRole _ _ other).trans ((s.setCouch_other couch other (by omega) 3).trans standby)
  have serves := State.couchWith_of other stands (by rw [show 1 - (1 - n) = n by omega, off]; decide)
  unfold State.couchOff
  rw [active, if_pos (decide_eq_true rfl)]
  exact State.standbyActs_of serves

/-- A field that stands while couch 0 is set OFF. -/
structure Field.OffCouchOff (g : Field) : Prop where
  loss : ∀ n < 2, g.OffLoss n
  shownOn : Reg.PWR_DOMAIN_STATUS_ON.Apart g := by exact .of
  shownFault : Reg.PWR_DOMAIN_STATUS_FAULT.Apart g := by exact .of

theorem State.couchOff_done {s : State} {n : Nat} (couch : n < 2) (active : s.couchRole n = 0)
    (standby : s.couchRole (1 - n) = 1) : (s.couchOff n).couchRole n = 3 ∧ (s.couchOff n).couchRole (1 - n) = 0 ∧
      bitAt ((s.couchOff n).get Reg.PWR_DOMAIN_STATUS_ON) (8 + n) = false ∧
      ∀ g : Field, g.OffCouchOff → (s.couchOff n).get g = s.get g := by
  have other : 1 - n < 2 := by omega
  rw [State.couchOff_active couch active standby]
  refine ⟨?_, State.setCouch_role _ other (by decide), ?_, fun g off => ?_⟩
  · rw [State.setCouch_other _ other couch (by omega), State.powerDown_couchRole _ _ couch]
    exact s.setCouch_role couch (by decide)
  · rw [State.get_setCouch _ _ (pwrOn_offCouches.loss _ other)]
    exact State.showDomain_on _ false _ (by omega)
  · rw [State.get_setCouch _ _ (off.loss _ other), State.get_powerDown _ off.shownOn off.shownFault,
      State.get_setCouch _ _ (off.loss _ couch)]

theorem offAsked_offCouchOff : Reg.CCH_ROLE_REQ_A_OFF.OffCouchOff ∧ Reg.CCH_ROLE_REQ_B_OFF.OffCouchOff := by
  constructor
  · exact { loss := fun n two => by interval_cases n <;> exact {} }
  · exact { loss := fun n two => by interval_cases n <;> exact {} }

/-- R201: s with its role request taken. -/
def State.requestTaken (s : State) : State := { s with couch := { s.couch with roleReq := false } }

theorem State.get_requestTaken (s : State) (g : Field) : s.requestTaken.get g = s.get g := rfl

theorem State.applyCouchRoles_asked {s : State} (asked : s.couch.roleReq = true) :
    s.applyCouchRoles = (s.requestTaken.applyCouchRole 0).applyCouchRole 1 := if_pos asked

/-- R201: couch 0, ACTIVE, is set OFF, and couch 1 takes its place. -/
theorem State.applyCouchRoles_firstOff {s : State} (asked : s.couch.roleReq = true) (off : s.offAsked = 1)
    (allOn : s.couch.hostOff = 0) (awake : s.get Reg.EXP_STATE_STATE ≠ 1) :
    s.applyCouchRoles = (((s.requestTaken.notedOff 0).couchOff 0).noCouch).applyCouchRole 1 := by
  have asked0 : bitAt s.requestTaken.offAsked 0 = true := by
    rw [State.offAsked, State.get_requestTaken, State.get_requestTaken, ← State.offAsked, off]
    rfl
  have was : bitAt s.requestTaken.couch.hostOff 0 = false := by
    show bitAt s.couch.hostOff 0 = false
    rw [allOn]
    rfl
  rw [State.applyCouchRoles_asked asked, State.applyCouchRole_off asked0 was awake]

section Up
variable {s : State} (up : s.domainOn 1 = true) (v : Word)
include up

theorem cchRoleReqWrite_takes (slack : s.get Reg.EXP_STATE_STATE = 2) (noStrip : s.openStrip = none)
    (allOn : s.couch.hostOff = 0) (roles : s.couchRole 0 = 0 ∧ s.couchRole 1 = 1)
    (asked : v.getLsbD 0 = true ∧ v.getLsbD 1 = false) : Acts (.cchRoleReqWrite v) s fun t =>
      t.couchRole 0 = 3 ∧ t.couchRole 1 = 0 ∧ bitAt (t.get Reg.PWR_DOMAIN_STATUS_ON) 8 = false ∧
      t.couch.roleReq = false ∧ t.couch.hostOff = 1 := by
  obtain ⟨active, standby⟩ := roles
  obtain ⟨aOff, bOff⟩ := asked
  obtain ⟨askedA, askedB⟩ := State.couchesAsked_off up v
  have couch := State.couchesAsked_couch up v
  have state := (State.couchesAsked_other up v (by decide) (by decide)).trans slack
  have others : ∀ n < 2, (s.couchesAsked v).couchRole n = s.couchRole n := fun n two =>
    State.couchesAsked_other up v (by decide) (by omega)
  have offAsked : (s.couchesAsked v).offAsked = 1 := by
    rw [State.offAsked, askedA, askedB, aOff, bOff]
    rfl
  have takes : (s.couchesAsked v).get Reg.EXP_STATE_STATE < 3 ∧ (s.couchesAsked v).openStrip.isNone = true := by
    rw [state, State.openStrip_congr (State.couchesAsked_box up v), noStrip]
    exact ⟨by decide, rfl⟩
  have ran := (execCchRoleReqWrite_eq s v).trans (if_pos takes)
  generalize s.couchesAsked v = q at *
  have taken := State.applyCouchRoles_firstOff (congrArg CouchState.roleReq couch) offAsked
    ((congrArg CouchState.hostOff couch).trans allOn) (by rw [state]; decide)
  obtain ⟨off, serves, down, stands⟩ := State.couchOff_done (s := q.requestTaken.notedOff 0) (by decide)
    ((others 0 (by decide)).trans active) ((others 1 (by decide)).trans standby)
  have kept : ((q.requestTaken.notedOff 0).couchOff 0).couch = (q.requestTaken.notedOff 0).couch :=
    (State.couchOff_kept _ 0).couch
  generalize (q.requestTaken.notedOff 0).couchOff 0 = r at *
  obtain ⟨raised, after⟩ := r.noCouch_couch
  have hostOff : r.noCouch.couch.hostOff = 1 := by
    rw [after, kept, State.notedOff, State.requestTaken, couch, allOn]
    rfl
  have quiet : ∀ g : Field, g.OffCouchOff → r.noCouch.get g = q.get g := fun g off =>
    (r.noCouch_get (off.loss 0 (by decide)).quiet).trans (stands g off)
  have second : r.noCouch.applyCouchRole 1 = r.noCouch := State.applyCouchRole_same (by
    rw [State.offAsked, quiet _ offAsked_offCouchOff.1, quiet _ offAsked_offCouchOff.2, ← State.offAsked, offAsked, hostOff])
  rw [taken, second] at ran
  refine ⟨_, ran, (r.noCouch_get (lossFields (by decide)).role).trans off,
    (r.noCouch_get (lossFields (by decide)).role).trans serves, ?_, ?_, hostOff⟩
  · rw [r.noCouch_get .of]
    exact down
  · rw [after, kept]
    rfl

end Up

/-! ### The base of the reserve table (R202) -/

/-- The base of the reserve table. -/
def resBaseField : FieldRow := ⟨11, 28, .rw, .const 0, .kept, none⟩

/-- The row of the register table of CCH_RES_BASE. -/
def resBaseRow : RegRow := ⟨"CCH_RES_BASE", 0x00600008, [], true, [resBaseField]⟩

theorem resBaseRow_written (old v : BitVec 64) : resBaseRow.written old v = resBaseField.written old v := rfl

theorem findRow_resBase : findRow 0x00600008 = some (resBaseRow, [], 0) := by decide +kernel

theorem findRow_resBase_high : findRow 0x0060000C = some (resBaseRow, [], 1) := by decide +kernel

/-- From s to t, words of CCH_RES_BASE alone have been written. -/
structure ResBaseWritten (s t : State) : Prop where
  same : t = { s with regs := t.regs }
  others : ∀ o, o ≠ 0x00600008 → o ≠ 0x0060000C → rfWord t.regs o = rfWord s.regs o

theorem ResBaseWritten.regsBut {s t : State} (w : ResBaseWritten s t) : RegsBut [⟨0x00600008, 0, 64⟩] s t := fun _ _ apart =>
  rfGet_of_words (by decide) (apart _ (List.mem_singleton_self _)) fun o outside => w.others o (by omega) (by omega)

theorem ResBaseWritten.of_words (s : State) (lo hi : BitVec 32) :
    ResBaseWritten s { s with regs := rfSetWord (rfSetWord s.regs 0x00600008 lo) 0x0060000C hi } :=
  ⟨rfl, fun o low high => by rw [rfWord_set, if_neg high.symm, rfWord_set, if_neg low.symm]⟩

/-- A 32-bit write of either half. -/
theorem State.writeResBase_half {s : State} (up : s.domainOn 1 = true) {o : Nat} (half : o = 0x00600008 ∨ o = 0x0060000C)
    (v : BitVec 32) : ResBaseWritten s (s.writeWord o v) := by
  rcases half with rfl | rfl
  · unfold State.writeWord
    simp only [show canonOffset 0x00600008 = 0x00600008 from rfl, findRow_resBase,
      show domainOf 0x00600008 = 1 from rfl, up, not_true_eq_false, if_false]
    exact .of_words s _ _
  · unfold State.writeWord
    simp only [show canonOffset 0x0060000C = 0x0060000C from rfl, findRow_resBase_high,
      show domainOf 0x0060000C = 1 from rfl, up, not_true_eq_false, if_false]
    exact .of_words s _ _

theorem append_halves (x : BitVec 64) : (x >>> 32).setWidth 32 ++ x.setWidth 32 = x := by
  apply BitVec.eq_of_getLsbD_eq
  intro i lt
  rw [pair_bit]
  split
  · simp [*]
  · rw [BitVec.getLsbD_setWidth, BitVec.getLsbD_ushiftRight, show 32 + (i - 32) = i by omega]
    simp [show i - 32 < 32 by omega]

/-- s with both words of CCH_RES_BASE set. -/
def State.resBaseSet (s : State) (x : BitVec 64) : State :=
  { s with regs := rfSetWord (rfSetWord s.regs 0x00600008 (x.setWidth 32)) 0x0060000C ((x >>> 32).setWidth 32) }

theorem State.rfPair_resBaseSet (s : State) (x : BitVec 64) : rfPair (s.resBaseSet x).regs 0x00600008 = x := by
  rw [rfPair, State.resBaseSet, rfWord_set, if_pos rfl, rfWord_set, if_neg (by decide), rfWord_set, if_pos rfl, append_halves]

/-- A 64-bit write of the register as one. -/
theorem State.writePair_resBase {s : State} (up : s.domainOn 1 = true) (v : BitVec 64) :
    s.writePair 0x00600008 v = s.resBaseSet (resBaseRow.written (rfPair s.regs 0x00600008) v) := by
  unfold State.writePair
  simp only [show canonOffset 0x00600008 = 0x00600008 from rfl, findRow_resBase,
    show domainOf 0x00600008 = 1 from rfl, up, not_true_eq_false, if_false]
  rfl

theorem resBase_wide {o h : Nat} {r : RegRow} {idx : List Nat} {k : Nat}
    (half : o + 4 * h = 0x00600008 ∨ o + 4 * h = 0x0060000C)
    (row : findRow (o + 4 * h) = some (r, idx, k)) : r = resBaseRow := by
  rcases half with e | e
  · rw [e, findRow_resBase] at row
    exact (Prod.mk.inj (Option.some.inj row)).1.symm
  · rw [e, findRow_resBase_high] at row
    exact (Prod.mk.inj (Option.some.inj row)).1.symm

/-- R11: a 32-bit write of half of a 64-bit register is none of the register. -/
theorem wrote_resBase_half {o : Nat} (half : o = 0x00600008 ∨ o = 0x0060000C) (v : BitVec 64) (s t : State) :
    Wrote o false v s t := by
  intro h le r idx k row
  obtain rfl : h = 0 := Nat.le_zero.1 le
  obtain rfl := resBase_wide (o := o) (h := 0) half row
  exact ⟨nofun, nofun⟩

theorem State.get_resBase (s : State) : s.get ⟨0x00600008, resBaseField.lo, resBaseField.width⟩ =
    bvField (rfPair s.regs 0x00600008) resBaseField.lo resBaseField.width := rfl

theorem wrote_resBase_pair {s : State} (up : s.domainOn 1 = true) (v : BitVec 64) :
    Wrote 0x00600008 true v s (s.writePair 0x00600008 v) := by
  intro h le r idx k row
  have two : h ≤ 1 := le
  obtain rfl := resBase_wide (by omega) row
  refine ⟨nofun, fun _ _ first f hf => ?_⟩
  subst first
  obtain rfl : f = resBaseField := List.mem_singleton.1 hf
  rw [State.get_resBase, State.get_resBase, State.writePair_resBase up, State.rfPair_resBaseSet, resBaseRow_written]
  exact resBaseField.bvField_written _ v (by decide)

section Execute
variable {off : BitVec 25} {wide : Bool} (address : off.toNat / 8 * 8 = 0x00600008 ∧ off.toNat % (if wide then 8 else 4) = 0)
include address

theorem half_of_resBase : off.toNat = 0x00600008 ∨ off.toNat = 0x0060000C := by
  obtain ⟨inside, aligned⟩ := address
  have word : off.toNat % 4 = 0 := by
    cases wide with
    | false => exact aligned
    | true =>
      have pair : off.toNat % 8 = 0 := aligned
      omega
  omega

theorem execCchResBaseWrite_at (s : State) (v : BitVec 64) : exec (.cchResBaseWrite off wide v) s =
    if ¬ s.box.strips.isEmpty = true then .next (s.raise 0x0510 (s.cchNow ++ [(4, off.toNat)]))
    else if wide then .next (s.writePair off.toNat v) else .next (s.writeWord off.toNat (v.setWidth 32)) := by
  have half := half_of_resBase address
  have canon : canonOffset off.toNat = off.toNat := if_neg (by omega)
  obtain ⟨inside, aligned⟩ := address
  have pair : ¬ (wide = true ∧ off.toNat % 8 ≠ 0) := by
    rintro ⟨rfl, odd⟩
    exact odd aligned
  have listed : ¬ (off.toNat / 8 * 8 ≠ 0x00600008 ∨ off.toNat % 4 ≠ 0 ∨ (wide = true ∧ off.toNat % 8 ≠ 0)) := by
    rintro (other | odd | odd)
    · exact other inside
    · omega
    · exact pair odd
  show execCchResBaseWrite off wide v s = _
  unfold execCchResBaseWrite
  dsimp only
  rw [canon, if_neg listed]

theorem cchResBaseWrite_writes {s : State} (up : s.domainOn 1 = true) (noStrip : s.box.strips = []) (v : BitVec 64) :
    Acts (.cchResBaseWrite off wide v) s fun t => Wrote off.toNat wide v s t ∧ SameBut [.regs] s t ∧
      RegsBut [⟨0x00600008, 0, 64⟩] s t := by
  have half := half_of_resBase address
  have ran := execCchResBaseWrite_at address s v
  rw [noStrip, if_neg (by decide)] at ran
  cases wide with
  | false =>
    have written := State.writeResBase_half up half (v.setWidth 32)
    exact ⟨_, ran, wrote_resBase_half half v s _, written.same, written.regsBut⟩
  | true =>
    have aligned : off.toNat % 8 = 0 := address.2
    have first : off.toNat = 0x00600008 := by omega
    rw [if_pos rfl, first] at ran
    rw [first]
    have wrote := wrote_resBase_pair up v
    rw [State.writePair_resBase up] at ran wrote
    exact ⟨_, ran, wrote, rfl, (ResBaseWritten.of_words s _ _).regsBut⟩

theorem cchResBaseWrite_refused {s : State} (used : s.box.strips ≠ []) (v : BitVec 64) :
    Acts (.cchResBaseWrite off wide v) s fun t => Reported [] s t := by
  refine ⟨_, (execCchResBaseWrite_at address s v).trans (if_pos ?_), (raise_noted _ _ _).reported⟩
  rwa [List.isEmpty_iff]

end Execute

/-- Settles O22: the failures by what `switchOver`, `loseStandby` and `loseCouch` leave of the roles, a swap test by its three
commands, the requests and the reserve table by the words that their writes change. -/
theorem couchRolesAndTests : Obligations.couch_roles_and_tests := by
  unfold Obligations.couch_roles_and_tests
  intro s
  refine ⟨fun n b => couchDomainFail_standby, fun n => couchDomainFail_ofStandby, fun n => couchDomainFail_sole,
    fun n => couchDomainFail_neap, fun w => swapTestStart_begins, fun gaps w test first half => ?switch,
    fun w => swapTestEnd_exchanges, fun w => swapTestEnd_loses, fun v up => swapRequest_writes up v,
    fun v up => cchRoleReqWrite_takes up v, fun v up => cchRoleReqWrite_waits up v,
    fun off wide v up address noStrip => cchResBaseWrite_writes address up noStrip v,
    fun off wide v address used => cchResBaseWrite_refused address used v⟩
  case switch =>
    obtain ⟨t, ran, test, rest⟩ := swapTestSwitch_switches gaps test first half
    refine ⟨t, ran, ?_, ?_, ?_, rest⟩
    · rw [test]; rfl
    · rw [test]; rfl
    · rw [test]; rfl

end Sys2Proof.Machine
end

section
/-! PROOFS. Statements on the head link chapter (spec/09_head_link.md): control frames sent and executed, the round trips of
a chain, and the STATUS frames that are not whole. -/
namespace Sys2Proof.Machine

/-! ### The drivers and the chains of the link -/

theorem getD_listModify_same {α : Type} {l : List α} {n : Nat} (inside : n < l.length) (f : α → α) (d : α) :
    (listModify l n f).getD n d = f (l.getD n d) := by
  rw [listModify_eq_modify, List.getD_eq_getElem?_getD, List.getD_eq_getElem?_getD, List.getElem?_modify,
    List.getElem?_eq_getElem inside]
  simp

theorem getD_listModify_other {α : Type} (l : List α) {n k : Nat} (apart : k ≠ n) (f : α → α) (d : α) :
    (listModify l n f).getD k d = l.getD k d := by
  rw [listModify_eq_modify, List.getD_eq_getElem?_getD, List.getD_eq_getElem?_getD, List.getElem?_modify]
  simp [apart.symm]

theorem State.driver_congr {s t : State} (same : t.link = s.link) (a : Nat) : t.driver a = s.driver a := by
  rw [State.driver, State.driver, same]

section Link
variable (s : State) {a b n : Nat} (f : Driver → Driver) (g : Chain → Chain)

@[simp] theorem State.modDriver_length : (s.modDriver a f).link.drivers.length = s.link.drivers.length := by
  show (listModify s.link.drivers a f).length = _
  rw [listModify_eq_modify, List.length_modify]

theorem State.modDriver_same (inside : a < s.link.drivers.length) : (s.modDriver a f).driver a = f (s.driver a) :=
  getD_listModify_same inside f _

theorem State.modDriver_other (apart : b ≠ a) : (s.modDriver a f).driver b = s.driver b :=
  getD_listModify_other _ apart f _

theorem State.modChain_same (inside : n < s.link.chains.length) : (s.modChain n g).chain n = g (s.chain n) :=
  getD_listModify_same inside g _

@[simp] theorem State.modChain_driver : (s.modChain n g).driver b = s.driver b := rfl

@[simp] theorem State.modDriver_chain : (s.modDriver a f).chain n = s.chain n := rfl

end Link

section Round
variable (s : State) (base : Nat) (f : Driver → Driver)

/-- The first k drivers from a base on, each changed. -/
def State.modDrivers (k : Nat) : State := (List.range k).foldl (fun s p => s.modDriver (base + p) f) s

theorem State.modDrivers_succ (k : Nat) : s.modDrivers base f (k + 1) = (s.modDrivers base f k).modDriver (base + k) f := by
  rw [State.modDrivers, State.modDrivers, List.range_succ, List.foldl_append]
  rfl

@[simp] theorem State.modDrivers_length (k : Nat) :
    (s.modDrivers base f k).link.drivers.length = s.link.drivers.length := by
  induction k with
  | zero => rfl
  | succ k ih => rw [State.modDrivers_succ, State.modDriver_length, ih]

theorem State.modDrivers_later {k p : Nat} (later : k ≤ p) :
    (s.modDrivers base f k).driver (base + p) = s.driver (base + p) := by
  induction k with
  | zero => rfl
  | succ k ih => rw [State.modDrivers_succ, State.modDriver_other _ _ (by omega), ih (by omega)]

theorem State.modDrivers_within {k p : Nat} (within : p < k) (inside : base + p < s.link.drivers.length) :
    (s.modDrivers base f k).driver (base + p) = f (s.driver (base + p)) := by
  induction k with
  | zero => omega
  | succ k ih =>
    rw [State.modDrivers_succ]
    by_cases last : p = k
    · subst last
      rw [State.modDriver_same _ _ (by rwa [State.modDrivers_length]), State.modDrivers_later _ _ _ (Nat.le_refl p)]
    · rw [State.modDriver_other _ _ (by omega), ih (by omega)]

end Round

/-! ### What a driver does with a control frame (R215, R230) -/

/-- From d to e, the device's side of a driver stands: the outstanding frame, those that wait, and the last one sent. -/
structure Driver.Queued (d e : Driver) : Prop where
  sent : e.sent = d.sent
  waiting : e.waiting = d.waiting
  out : e.out = d.out

section Hear
variable (d : Driver) {o : CtrlOp}

theorem Driver.configuredBy_eq : ∃ q, d.configuredBy = { d with dstate := q } := by
  unfold Driver.configuredBy
  split
  · exact ⟨2, rfl⟩
  · exact ⟨d.dstate, rfl⟩

theorem Driver.execute_setFactors (op : o.opcode = 3) :
    ∃ q, d.execute o = { d with gotFactors := true, factors := argFactors o.args, dstate := q } := by
  obtain ⟨q, e⟩ := Driver.configuredBy_eq { d with gotFactors := true, factors := argFactors o.args }
  exact ⟨q, by rw [Driver.execute, op]; exact e⟩

theorem Driver.execute_setCurve (op : o.opcode = 4) : ∃ q, d.execute o =
    { d with gotCurve := true, slotT := fieldAt o.args 0 2, curve := argCurve o.args, dstate := q } := by
  obtain ⟨q, e⟩ := Driver.configuredBy_eq
    { d with gotCurve := true, slotT := fieldAt o.args 0 2, curve := argCurve o.args }
  exact ⟨q, by rw [Driver.execute, op]; exact e⟩

theorem Driver.execute_timeLoad (op : o.opcode = 5) : d.execute o =
    { d with
      added := d.added + ((fieldAt o.args 4 8 : Int) - (d.latches.getLast?).getD 0), dstate := max d.dstate 1 } := by
  rw [Driver.execute, op]
  rfl

/-- R215: ARM moves a driver between CONFIGURED and ARMED. -/
theorem Driver.execute_arm (op : o.opcode = 9) : d.execute o =
    { d with dstate :=
        if fieldAt o.args 0 1 = 1 ∧ d.dstate = 2 then 3
        else if fieldAt o.args 0 1 = 0 ∧ d.dstate = 3 then 2 else d.dstate } := by
  simp only [Driver.execute, op]
  by_cases arm : fieldAt o.args 0 1 = 1
  · by_cases configured : d.dstate = 2 <;> simp [arm, configured]
  · by_cases disarm : fieldAt o.args 0 1 = 0
    · by_cases armed : d.dstate = 3 <;> simp [disarm, armed]
    · simp [arm, disarm]

/-- R242: the taps that a TX_EQ carries: PRE, MAIN, POST. -/
def CtrlOp.taps (o : CtrlOp) : List Int :=
  [sext 8 (fieldAt o.args 0 1), (fieldAt o.args 1 1 : Int), sext 8 (fieldAt o.args 2 1)]

theorem Driver.execute_txEq (op : o.opcode = 10) : d.execute o = { d with nextTaps := some o.taps } := by
  rw [Driver.execute, op]
  rfl

/-- Of the device's side, executing a frame changes nothing. -/
theorem Driver.execute_queued (o : CtrlOp) : d.Queued (d.execute o) := by
  have configured : ∀ e : Driver, e.Queued e.configuredBy := fun e => by
    obtain ⟨q, same⟩ := e.configuredBy_eq
    rw [same]
    exact ⟨rfl, rfl, rfl⟩
  unfold Driver.execute
  split
  · obtain ⟨sent, waiting, out⟩ := configured { d with gotFactors := true, factors := argFactors o.args }
    exact ⟨sent, waiting, out⟩
  · obtain ⟨sent, waiting, out⟩ := configured
      { d with gotCurve := true, slotT := fieldAt o.args 0 2, curve := argCurve o.args }
    exact ⟨sent, waiting, out⟩
  · exact ⟨rfl, rfl, rfl⟩
  · repeat' split
    all_goals exact ⟨rfl, rfl, rfl⟩
  · exact ⟨rfl, rfl, rfl⟩
  · exact ⟨rfl, rfl, rfl⟩

theorem Driver.hear_queued (o : CtrlOp) (r : Nat) : d.Queued (d.hear o r) := by
  unfold Driver.hear
  dsimp only
  split
  · exact ⟨rfl, rfl, rfl⟩
  split
  · exact ⟨rfl, rfl, rfl⟩
  split
  · exact ⟨rfl, rfl, rfl⟩
  split
  · obtain ⟨sent, waiting, out⟩ := d.execute_queued o
    exact ⟨sent, waiting, out⟩
  · exact ⟨rfl, rfl, rfl⟩

theorem CtrlOp.resultOf_other (op : o.opcode ≠ 10) (r : Nat) : o.resultOf r = r := if_neg fun h => op h.1

/-- R242, R243: a TX_EQ that is received intact is answered by its taps. -/
theorem CtrlOp.resultOf_txEq (op : o.opcode = 10) : o.resultOf 0 = if tapsOk o.taps then 0 else 2 :=
  if_pos ⟨op, by decide⟩

variable {d} (positioned : d.positioned = true) (fresh : d.lastCseq ≠ some o.cseq)
include positioned fresh

/-- R215: a frame of a new CSEQ is executed. -/
theorem Driver.hear_fresh {r : Nat} (ok : o.resultOf r = 0) :
    d.hear o r = { d.execute o with lastCseq := some o.cseq, answer := some 0 } := by
  unfold Driver.hear
  simp [ok, positioned, fresh]

/-- R215: a frame that a driver refuses has no effect but the answer. -/
theorem Driver.hear_refused {r : Nat} (bad : o.resultOf r = 2) : d.hear o r = { d with answer := some 2 } := by
  unfold Driver.hear
  simp [bad, positioned, fresh]

end Hear

/-! ### Sending a control frame (R209, R231) -/

/-- R209, R231: the frame o, at the front of the queue of driver a before rest, may be sent. -/
structure State.Sends (s : State) (a : Nat) (o : CtrlOp) (rest : List CtrlOp) : Prop where
  waiting : (s.driver a).waiting = o :: rest
  free : (s.driver a).sent = none
  trains : 2 ≤ s.chainState (a / 8) ∧ s.chainState (a / 8) ≤ 7
  backlog : s.couch.backlog = 0
  slot : s.slotFree (a / 8) = true
  inside : a < s.link.drivers.length

/-- A frame with the head time of its sending. -/
def CtrlOp.stamped (o : CtrlOp) (now : Nat) : CtrlOp := { o with sentAt := now }

/-- Driver a while the frame o, sent at a head time, is on its way. -/
def Driver.sending (d : Driver) (a : Nat) (o : CtrlOp) (rest : List CtrlOp) (now : Nat) : Driver :=
  { d with sent := some (o.stamped now), waiting := rest, out := ctrlFrame a o, answer := none }

/-- A driver once the frame on its way has reached it, or has reached none. -/
def Driver.reachedBy (d : Driver) (o : CtrlOp) : Option Nat → Driver
  | some r => d.hear o r
  | none => d

theorem Driver.reachedBy_queued (d : Driver) (o : CtrlOp) (result : Option Nat) : d.Queued (d.reachedBy o result) := by
  cases result with
  | none => exact ⟨rfl, rfl, rfl⟩
  | some r => exact d.hear_queued o r

/-- R231: from s to t, the frame o stands outstanding to driver a, and all else but the link's own state stands. -/
structure State.Sent (s : State) (a : Nat) (o : CtrlOp) (rest : List CtrlOp) (t : State) : Prop where
  sent : (t.driver a).sent = some { o with sentAt := s.headTime }
  waiting : (t.driver a).waiting = rest
  out : (t.driver a).out = ctrlFrame a o
  others : ∀ b, b ≠ a → t.driver b = s.driver b
  same : SameBut [.link] s t

namespace State.Sends
variable {s : State} {a op : Nat} {o : CtrlOp} {rest : List CtrlOp} (sends : s.Sends a o rest)
include sends

section Send
variable (opcode : o.opcode = op) (result : Option Nat)
include opcode

theorem sendCtrl_eq : s.sendCtrl a op result =
    (s.modChain (a / 8) fun c => { c with slotUsed := true }).modDriver a fun d =>
      (d.sending a o rest s.headTime).reachedBy (o.stamped s.headTime) result := by
  obtain ⟨waiting, free, ⟨least, most⟩, backlog, slot, -⟩ := sends
  have held : s.heldBack31 = false := by rw [State.heldBack31, backlog]; rfl
  unfold State.sendCtrl
  simp only [waiting, free]
  rw [if_pos ⟨opcode, least, most, by simp [held], slot⟩]
  cases result <;> rfl

theorem sendCtrl_driver : (s.sendCtrl a op result).driver a =
    ((s.driver a).sending a o rest s.headTime).reachedBy (o.stamped s.headTime) result := by
  rw [sends.sendCtrl_eq opcode]
  exact State.modDriver_same _ _ sends.inside

theorem sendCtrl_sent : s.Sent a o rest (s.sendCtrl a op result) where
  sent := by rw [sends.sendCtrl_driver opcode, (Driver.reachedBy_queued _ _ _).sent]; rfl
  waiting := by rw [sends.sendCtrl_driver opcode, (Driver.reachedBy_queued _ _ _).waiting]; rfl
  out := by rw [sends.sendCtrl_driver opcode, (Driver.reachedBy_queued _ _ _).out]; rfl
  others b apart := by
    rw [sends.sendCtrl_eq opcode]
    exact State.modDriver_other _ _ apart
  same := (s.sendCtrl_kept a op result).eq

end Send

section Executes
variable (opcode : o.opcode = op) (positioned : (s.driver a).positioned = true)
  (fresh : (s.driver a).lastCseq ≠ some o.cseq)
include opcode positioned fresh

/-- R215: a positioned driver executes a frame of a new CSEQ that reaches it intact. -/
theorem sendCtrl_executes (ok : o.resultOf 0 = 0) : (s.sendCtrl a op (some 0)).driver a =
    { ((s.driver a).sending a o rest s.headTime).execute (o.stamped s.headTime) with
      lastCseq := some o.cseq, answer := some 0 } := by
  rw [sends.sendCtrl_driver opcode]
  exact Driver.hear_fresh (d := (s.driver a).sending a o rest s.headTime) (o := o.stamped s.headTime) positioned fresh ok

theorem sendCtrl_refused (bad : o.resultOf 0 = 2) : (s.sendCtrl a op (some 0)).driver a =
    { (s.driver a).sending a o rest s.headTime with answer := some 2 } := by
  rw [sends.sendCtrl_driver opcode]
  exact Driver.hear_refused (d := (s.driver a).sending a o rest s.headTime) (o := o.stamped s.headTime) positioned fresh bad

end Executes

end State.Sends

/-! ### The commands that send a control frame (R215) -/

theorem exec_sendCtrl {c : Instr} {op : Nat} {a : Fin 1024} {result : Option (Fin 5)}
    (mem : (op, c) ∈ [(2, Instr.ident a result), (3, .setFactors a result), (4, .setCurve a result), (5, .timeLoad a result),
      (6, .timeRead a result), (8, .recordRead a result), (9, .arm a result)]) (s : State) :
    exec c s = .next (s.sendCtrl a op (resultNat result)) := by
  simp only [List.mem_cons, Prod.mk.injEq, List.not_mem_nil, or_false] at mem
  rcases mem with ⟨rfl, rfl⟩ | ⟨rfl, rfl⟩ | ⟨rfl, rfl⟩ | ⟨rfl, rfl⟩ | ⟨rfl, rfl⟩ | ⟨rfl, rfl⟩ | ⟨rfl, rfl⟩ <;> rfl

/-- R249: no driver behind a on its chain still waits for a TX_EQ. -/
def State.lastTxEq (s : State) (a : Nat) : Bool :=
  (List.range (7 - a % 8)).all fun (i : Nat) => (s.driver (a + 1 + i)).waiting.all fun o => decide (o.opcode ≠ 10)

theorem execTxEq_last {s : State} {a : Fin 1024} (last : s.lastTxEq a = true) (result : Option (Fin 5)) :
    exec (.txEq a result) s = .next (s.sendCtrl a 10 (resultNat result)) := by
  refine if_neg fun later => ?_
  obtain ⟨i, inRange, later⟩ := List.any_eq_true.1 later
  obtain ⟨o, mem, op⟩ := List.any_eq_true.1 later
  have none := List.all_eq_true.1 (List.all_eq_true.1 last i inRange) o mem
  exact of_decide_eq_true none (of_decide_eq_true op)

/-- R249: TX_EQ goes from the last ring position down. -/
theorem execTxEq_later {s : State} {a : Fin 1024} {i : Nat} (behind : i < 7 - a.val % 8)
    (later : ((s.driver (a.val + 1 + i)).waiting.any fun o => decide (o.opcode = 10)) = true) (result : Option (Fin 5)) :
    exec (.txEq a result) s = .next s :=
  if_pos (List.any_eq_true.2 ⟨i, List.mem_range.2 behind, later⟩)

/-- R331: the first MEASURE of a run starts its time limit. -/
theorem execMeasure_first {s : State} {a : Fin 1024} {o : CtrlOp} {rest : List CtrlOp} {r : MeasRun}
    (sends : s.Sends a o rest) (opcode : o.opcode = 7) (run : s.hcr.run = some r) (first : r.startedAt = none)
    (result : Option (Fin 5)) : exec (.measure a result) s =
      .next { s.sendCtrl a 7 (resultNat result) with
        hcr := { (s.sendCtrl a 7 (resultNat result)).hcr with run := some { r with startedAt := some s.tide } } } := by
  have kept := s.sendCtrl_kept a 7 (resultNat result)
  have sent := (sends.sendCtrl_sent opcode (resultNat result)).sent
  show execMeasure a result s = _
  unfold execMeasure
  simp only [kept.hcr, run]
  rw [sent, kept.tide]
  exact if_pos ⟨decide_eq_true opcode, by rw [first]; rfl⟩

/-- R215: a driver that DISCOVER has given its position. -/
def Driver.discovered (d : Driver) : Driver :=
  { d with positioned := true, dstate := 0, added := 0, factors := [], slotT := 0, curve := [], gotFactors := false,
           gotCurve := false }

theorem execDiscover_heard {s : State} {n : Fin 128} {o : CtrlOp} {rest : List CtrlOp} (sends : s.Sends (8 * n.val) o rest)
    (opcode : o.opcode = 1) : exec (.discover n true) s =
      .next ((s.sendCtrl (8 * n.val) 1 none).modDrivers (8 * n.val) Driver.discovered 8) := by
  have sent := (sends.sendCtrl_sent opcode none).sent
  refine if_pos ⟨rfl, ?_, by rw [sends.free]; rfl⟩
  rw [sent]
  exact decide_eq_true opcode

/-- R215: the head driver of the chain holds the frame as outstanding, and all eight have their position. -/
theorem discover_positions {s : State} {n : Fin 128} {o : CtrlOp} {rest : List CtrlOp} (sends : s.Sends (8 * n.val) o rest)
    (opcode : o.opcode = 1) (drivers : s.link.drivers.length = 1024) : Acts (.discover n true) s fun t =>
      (t.driver (8 * n.val)).sent = some { o with sentAt := s.headTime } ∧
      (∀ p < 8, (t.driver (8 * n.val + p)).positioned = true ∧ (t.driver (8 * n.val + p)).dstate = 0 ∧
        (t.driver (8 * n.val + p)).factors = [] ∧ (t.driver (8 * n.val + p)).added = 0) ∧ SameBut [.link] s t := by
  have ran := execDiscover_heard sends opcode
  have length : (s.sendCtrl (8 * n.val) 1 none).link.drivers.length = 1024 := by
    rw [sends.sendCtrl_eq opcode, State.modDriver_length]
    exact drivers
  have each : ∀ p < 8, ((s.sendCtrl (8 * n.val) 1 none).modDrivers (8 * n.val) Driver.discovered 8).driver (8 * n.val + p) =
      ((s.sendCtrl (8 * n.val) 1 none).driver (8 * n.val + p)).discovered := fun p lt =>
    State.modDrivers_within _ _ _ lt (by omega)
  refine ⟨_, ran, ?_, fun p lt => ?_, (execDiscover_kept n true s _ ran).eq⟩
  · have head := each 0 (by decide)
    rw [Nat.add_zero] at head
    rw [head]
    exact (sends.sendCtrl_sent opcode none).sent
  · rw [each p lt]
    exact ⟨rfl, rfl, rfl, rfl⟩

/-- Settles O23: sending by `State.Sends.sendCtrl_sent`, what a driver then does by `State.Sends.sendCtrl_executes` and the
equation of `Driver.execute` for the opcode. -/
theorem controlFramesAreSentAndExecuted : Obligations.control_frames_are_sent_and_executed := by
  unfold Obligations.control_frames_are_sent_and_executed
  intro s
  refine ⟨?sends, ?txEqSends, ?txEqWaits, ?measure, ?setFactors, ?setCurve, ?timeLoad, ?arm, ?txEqTakes, ?txEqBad, ?discover⟩
  case sends =>
    intro c op result a o rest mem opcode waiting free trains backlog slot inside
    have sends : s.Sends a o rest := ⟨waiting, free, trains, backlog, slot, inside⟩
    obtain ⟨sent, queue, out, others, same⟩ := sends.sendCtrl_sent opcode (resultNat result)
    exact ⟨_, exec_sendCtrl mem s, sent, queue, out, others, same⟩
  case txEqSends =>
    intro result a o rest opcode last waiting free trains backlog slot inside
    have sends : s.Sends a o rest := ⟨waiting, free, trains, backlog, slot, inside⟩
    obtain ⟨sent, queue, out, others, same⟩ := sends.sendCtrl_sent opcode (resultNat result)
    exact ⟨_, execTxEq_last last result, sent, queue, out, others, same⟩
  case txEqWaits =>
    intro result a i behind later
    exact ⟨s, execTxEq_later behind later result, rfl⟩
  case measure =>
    intro result r a o rest opcode run first waiting free trains backlog slot inside
    have sends : s.Sends a o rest := ⟨waiting, free, trains, backlog, slot, inside⟩
    obtain ⟨sent, queue, out, others, -⟩ := sends.sendCtrl_sent opcode (resultNat result)
    have ran := execMeasure_first sends opcode run first result
    exact ⟨_, ran, sent, queue, out, others, rfl, (execMeasure_kept a result s _ ran).eq⟩
  case setFactors =>
    intro a o rest opcode waiting free trains backlog slot inside positioned fresh
    have sends : s.Sends a o rest := ⟨waiting, free, trains, backlog, slot, inside⟩
    have driver := sends.sendCtrl_executes opcode positioned fresh (CtrlOp.resultOf_other (by omega) 0)
    obtain ⟨q, executed⟩ := ((s.driver a).sending a o rest s.headTime).execute_setFactors (o := o.stamped s.headTime) opcode
    rw [executed] at driver
    exact ⟨_, rfl, (sends.sendCtrl_sent opcode (some 0)).sent, congrArg Driver.factors driver⟩
  case setCurve =>
    intro a o rest opcode waiting free trains backlog slot inside positioned fresh
    have sends : s.Sends a o rest := ⟨waiting, free, trains, backlog, slot, inside⟩
    have driver := sends.sendCtrl_executes opcode positioned fresh (CtrlOp.resultOf_other (by omega) 0)
    obtain ⟨q, executed⟩ := ((s.driver a).sending a o rest s.headTime).execute_setCurve (o := o.stamped s.headTime) opcode
    rw [executed] at driver
    exact ⟨_, rfl, (sends.sendCtrl_sent opcode (some 0)).sent, congrArg Driver.slotT driver, congrArg Driver.curve driver⟩
  case timeLoad =>
    intro a o rest opcode waiting free trains backlog slot inside positioned fresh
    have sends : s.Sends a o rest := ⟨waiting, free, trains, backlog, slot, inside⟩
    have driver := sends.sendCtrl_executes opcode positioned fresh (CtrlOp.resultOf_other (by omega) 0)
    rw [Driver.execute_timeLoad (o := o.stamped s.headTime) _ opcode] at driver
    exact ⟨_, rfl, (sends.sendCtrl_sent opcode (some 0)).sent, congrArg Driver.added driver, congrArg Driver.dstate driver⟩
  case arm =>
    intro a o rest opcode waiting free trains backlog slot inside positioned fresh
    have sends : s.Sends a o rest := ⟨waiting, free, trains, backlog, slot, inside⟩
    have driver := sends.sendCtrl_executes opcode positioned fresh (CtrlOp.resultOf_other (by omega) 0)
    rw [Driver.execute_arm (o := o.stamped s.headTime) _ opcode] at driver
    exact ⟨_, rfl, (sends.sendCtrl_sent opcode (some 0)).sent, congrArg Driver.dstate driver⟩
  case txEqTakes =>
    intro a o rest opcode last taps waiting free trains backlog slot inside positioned fresh
    have sends : s.Sends a o rest := ⟨waiting, free, trains, backlog, slot, inside⟩
    have driver := sends.sendCtrl_executes opcode positioned fresh ((CtrlOp.resultOf_txEq opcode).trans (if_pos taps))
    rw [Driver.execute_txEq (o := o.stamped s.headTime) _ opcode] at driver
    exact ⟨_, execTxEq_last last (some 0), (sends.sendCtrl_sent opcode (some 0)).sent, (congrArg Driver.nextTaps driver :),
      (congrArg Driver.taps driver :), congrArg Driver.answer driver⟩
  case txEqBad =>
    intro a o rest opcode last taps waiting free trains backlog slot inside positioned fresh
    have sends : s.Sends a o rest := ⟨waiting, free, trains, backlog, slot, inside⟩
    have bad : o.resultOf 0 = 2 := (CtrlOp.resultOf_txEq opcode).trans (if_neg (Bool.eq_false_iff.1 taps))
    have driver := sends.sendCtrl_refused opcode positioned fresh bad
    exact ⟨_, execTxEq_last last (some 0), (sends.sendCtrl_sent opcode (some 0)).sent, (congrArg Driver.taps driver :),
      (congrArg Driver.nextTaps driver :), congrArg Driver.answer driver⟩
  case discover =>
    intro n o rest waiting free opcode trains backlog slot drivers
    have chain : 8 * n.val / 8 = n.val := Nat.mul_div_cancel_left _ (by decide)
    have sends : s.Sends (8 * n.val) o rest :=
      ⟨waiting, free, by rwa [chain], backlog, by rwa [chain], by omega⟩
    exact discover_positions sends opcode drivers

/-! ### Round trips (R221) -/

theorem State.get_queueCtrl (s : State) (a op : Nat) (args : List Byte) (g : Field) : (s.queueCtrl a op args).get g = s.get g :=
  rfl

theorem latD_apart_rt (a : Nat) (n : Fin 128) : (Reg.HLK_DRV_LAT_D a).Apart (Reg.HLK_CHAIN_STATE_RT n) := by
  refine .of ?_
  have lt := n.isLt
  simp only [Field.Clear]
  omega

/-- R221: RT shows the rounded mean of the round trips, cut to its 16 bits. -/
theorem State.applyTime_rt (s : State) (n : Fin 128) :
    (s.applyTime n).get (Reg.HLK_CHAIN_STATE_RT n) =
      (roundHalfUp (((s.chain n).rts.foldl (fun x y => x + y) 0 : Nat) : Int) 8).toNat % 2 ^ 16 := by
  unfold State.applyTime
  have sound : (Reg.HLK_CHAIN_STATE_RT n).Sound := (latD_apart_rt 0 n).2.1
  refine (State.get_fold_keep _ fun x p _ => ?_).trans (rfGet_put_same _ _ _ sound)
  dsimp only
  rw [State.get_queueCtrl, State.get_queueCtrl, State.get_put_apart _ _ (latD_apart_rt _ _)]

/-- R221: after eight round trips within 1 ns, a chain in TIME takes its head time from them. -/
theorem execSyncMarkerReturn_measured {s : State} {n : Fin 128} {rt : BitVec 16} {l : List Nat} (time : s.chainState n = 5)
    (seven : (s.chain n).rts.length = 7) (eighth : l = (s.chain n).rts ++ [rt.toNat])
    (close : l.foldl max 0 - l.foldl min (l.headD 0) ≤ 10) (inside : n.val < s.link.chains.length)
    (latches : List (BitVec 54)) :
    ∃ u : State, exec (.syncMarkerReturn n rt latches) s = .next (u.applyTime n) ∧ (u.chain n).rts = l := by
  subst eighth
  have eight : ¬ ((s.chain n).rts ++ [rt.toNat]).length < 8 := by rw [List.length_append, seven, List.length_singleton]; decide
  have measures : ¬ (¬ (s.chainState n = 5 ∨ (s.chainState n = 7 ∧ (s.chain n).recheck = true)) ∨
      8 ≤ (s.chain n).rts.length) := by omega
  show ∃ u : State, execSyncMarkerReturn n rt latches s = _ ∧ _
  unfold execSyncMarkerReturn
  dsimp only
  rw [if_neg measures, if_neg eight, if_pos close, if_pos time]
  refine ⟨_, rfl, congrArg Chain.rts (State.modChain_same _ _ ?_)⟩
  exact inside

/-- The machine at reset, but with chain 3 in TIME, seven round trips of 65,540 units of 0.1 ns behind it. -/
def longRing : State :=
  (State.reset.put (Reg.HLK_CHAIN_STATE_STATE 3) 5).modChain 3 fun c => { c with rts := List.replicate 7 65540 }

/-- Refutes O24: it takes states with round trips of any size, where SYNC markers bring none beyond 16 bits, and RT has 16 bits.
Eight round trips within 1 ns whose mean is 65,539 units leave 3 in RT. -/
theorem not_chainsTrain : ¬ Obligations.chains_train := by
  unfold Obligations.chains_train
  intro h
  obtain ⟨-, -, -, -, -, -, -, -, -, -, -, -, measured, -⟩ := h longRing
  have time : longRing.chainState (3 : Fin 128) = 5 := by decide +kernel
  have inside : (3 : Fin 128).val < longRing.link.chains.length := by decide +kernel
  have drivers : longRing.link.drivers.length = 1024 := by decide +kernel
  have close : (List.replicate 7 65540 ++ [65535]).foldl max 0 -
      (List.replicate 7 65540 ++ [65535]).foldl min ((List.replicate 7 65540 ++ [65535]).headD 0) ≤ 10 := by decide
  obtain ⟨t, acts, shown, -⟩ := measured 3 65535 [] _ time rfl rfl close inside drivers
  obtain ⟨u, ran, trips⟩ := execSyncMarkerReturn_measured (n := 3) (rt := 65535) time rfl rfl close inside []
  obtain rfl : u.applyTime (3 : Fin 128) = t := Host.Outcome.next.inj (ran.symm.trans acts)
  have cut := u.applyTime_rt 3
  rw [trips] at cut
  exact absurd (cut.symm.trans shown) (by decide)

/-! ### A STATUS frame that is not whole (R331) -/

theorem State.modMeas_link (s : State) (a : Nat) (f : MeasDriver → MeasDriver) : (s.modMeas a f).link = s.link :=
  (s.modMeas_kept a f).link

/-- R331: a restart of a driver's measurement queues a MEASURE for it. -/
theorem State.measRestart_queues (s : State) {m : MeasDriver} (few : m.restarts < 3) (inside : m.addr < s.link.drivers.length) :
    ∃ o, ((s.measRestart m).driver m.addr).waiting = (s.driver m.addr).waiting ++ [o] := by
  have link : (((s.modMeas m.addr fun x => { x with restarts := x.restarts + 1, mseq := none, busy := false }).count
      (cntHcr 2))).link = s.link := (State.count_link _ _).trans (s.modMeas_link _ _)
  rw [State.measRestart, if_neg (by omega), State.sendMeasure, State.queueCtrl,
    State.modDriver_same _ _ (by rwa [link]), State.driver_congr link]
  exact ⟨_, rfl⟩

/-- R331: while a measurement of the driver runs, a STATUS that is not whole restarts it. -/
theorem State.measLostStatus_restarts {s : State} {a : Nat} {m : MeasDriver} (measuring : s.measuring a = some m)
    (busy : m.busy = true) : s.measLostStatus a = s.measRestart m := by
  simp only [State.measLostStatus, measuring, busy, if_true]

theorem execStatusFrame_broken {s : State} {a : Fin 1024} (ready : s.chainState (a.val / 8) = 7) (seen : RxSeen)
    {frame : List Symbol} (broken : unwire frame = none) : exec (.statusFrame a seen frame) s =
      .next (((s.sees (128 + a.val / 8) seen).count (cntHlk (a.val / 8) 1)).measLostStatus a) := by
  show execStatusFrame a seen frame s = _
  unfold execStatusFrame
  simp only [ready, broken, ne_eq, not_true_eq_false, if_false]

/-- R331: from s, a STATUS that is not whole queues a MEASURE for a driver whose measurement runs. -/
theorem statusFrame_broken_queues {s t : State} {a : Fin 1024} {m : MeasDriver} {seen : RxSeen} {frame : List Symbol}
    (ready : s.chainState (a.val / 8) = 7) (broken : unwire frame = none) (measuring : s.measuring a = some m)
    (busy : m.busy = true) (few : m.restarts < 3) (inside : m.addr < s.link.drivers.length)
    (acts : exec (.statusFrame a seen frame) s = .next t) :
    ∃ o, (t.driver m.addr).waiting = (s.driver m.addr).waiting ++ [o] := by
  have kept : Kept reports s ((s.sees (128 + a.val / 8) seen).count (cntHlk (a.val / 8) 1)) :=
    .of (State.count_kept _ _) (.of (State.sees_kept _ _ _) .refl)
  have ran := execStatusFrame_broken ready seen broken
  generalize (s.sees (128 + a.val / 8) seen).count (cntHlk (a.val / 8) 1) = u at kept ran
  have measuring' : u.measuring a = some m := by rw [State.measuring, kept.hcr]; exact measuring
  obtain ⟨o, queued⟩ := u.measRestart_queues few (by rwa [kept.link])
  obtain rfl : u.measLostStatus a = t := Host.Outcome.next.inj (ran.symm.trans acts)
  rw [State.measLostStatus_restarts measuring' busy, queued, State.driver_congr kept.link]
  exact ⟨o, rfl⟩

/-- The machine at reset, but with chain 5 READY and a measurement of its driver 44 under way. -/
def measuredState : State :=
  { State.reset.put (Reg.HLK_CHAIN_STATE_STATE 5) 7 with
    hcr := { State.reset.hcr with run := some ⟨[{ addr := 44, busy := true }], none, 0, false, some 0, false⟩ } }

/-- Refutes O25: it has a STATUS that is not whole leave the link's own state, also while its driver is being measured. There
R331 restarts the measurement, and a MEASURE joins the queue of the driver. -/
theorem not_linkService : ¬ Obligations.link_service := by
  unfold Obligations.link_service
  intro h
  obtain ⟨-, -, -, -, -, -, -, -, -, -, -, broken, -⟩ := h measuredState
  have ready : measuredState.chainState ((44 : Fin 1024).val / 8) = 7 := by decide +kernel
  have notWhole : unwire [] = none := by decide +kernel
  obtain ⟨t, acts, same⟩ := broken 44 ⟨0, [], 0⟩ [] ready notWhole
  obtain ⟨o, queued⟩ := statusFrame_broken_queues (m := { addr := 44, busy := true }) ready notWhole rfl rfl (by decide)
    (by decide +kernel) acts
  rw [State.driver_congr same] at queued
  exact absurd (congrArg List.length queued) (by simp)

end Sys2Proof.Machine
end

section
/-! PROOFS. Statements on the serial lanes chapter (spec/10_serial_lanes.md): the head PLL loses lock while nothing is trained. -/
namespace Sys2Proof.Machine

/-! ### The head PLL loses lock (R224, R241) -/

/-- R241: what the unlock of the head PLL shows and raises by itself, before the lanes and the chains that it feeds. -/
def State.headUnlocked (s : State) : State :=
  ((s.put Reg.LNS_STATUS_HEAD_LOCK 0).put Reg.PWR_CLK_STATUS_HEAD_LANE 0).raise 0x0707 [(2, 0xFFFF), (4, 0)]

theorem State.headUnlocked_openStrip (s : State) : s.headUnlocked.openStrip = s.openStrip :=
  State.openStrip_congr (State.raise_box _ _ _)

theorem State.get_headUnlocked (s : State) {g : Field} (quiet : g.Quiet) (lock : Reg.LNS_STATUS_HEAD_LOCK.Apart g)
    (clock : Reg.PWR_CLK_STATUS_HEAD_LANE.Apart g) : s.headUnlocked.get g = s.get g := by
  rw [State.headUnlocked, State.raise_get _ _ _ quiet, State.get_put_apart _ _ clock, State.get_put_apart _ _ lock]

theorem headLock_apart_aligned (l : Nat) : Reg.LNS_STATUS_HEAD_LOCK.Apart (Reg.LNS_LANE_RX_ALIGNED l) :=
  .of ⟨by decide, by dsimp only; omega, .inl (by dsimp only; omega)⟩

theorem headLane_apart_aligned {l : Nat} (head : l < 256) :
    Reg.PWR_CLK_STATUS_HEAD_LANE.Apart (Reg.LNS_LANE_RX_ALIGNED l) :=
  .of ⟨by decide, by dsimp only; omega, .inr (by dsimp only; omega)⟩

theorem headLock_apart_chainState {n : Nat} (chain : n < 128) :
    Reg.LNS_STATUS_HEAD_LOCK.Apart (Reg.HLK_CHAIN_STATE_STATE n) :=
  .of ⟨by decide, by dsimp only; omega, .inr (by dsimp only; omega)⟩

theorem headLane_apart_chainState {n : Nat} (chain : n < 128) :
    Reg.PWR_CLK_STATUS_HEAD_LANE.Apart (Reg.HLK_CHAIN_STATE_STATE n) :=
  .of ⟨by decide, by dsimp only; omega, .inr (by dsimp only; omega)⟩

theorem State.headUnlocked_aligned (s : State) {l : Nat} (head : l < 256) :
    s.headUnlocked.on (Reg.LNS_LANE_RX_ALIGNED l) = s.on (Reg.LNS_LANE_RX_ALIGNED l) := by
  rw [State.on, State.on, s.get_headUnlocked (.of (by dsimp only; omega)) (headLock_apart_aligned l)
    (headLane_apart_aligned head)]

theorem State.headUnlocked_chainState (s : State) {n : Nat} (chain : n < 128) :
    s.headUnlocked.chainState n = s.chainState n :=
  s.get_headUnlocked (.of (by dsimp only; omega)) (headLock_apart_chainState chain) (headLane_apart_chainState chain)

/-- R241: where no head lane is aligned, no chain has left DOWN and no strip is open, the unlock changes nothing more; no chain
enters a state, so that HEAD_BLANK_N is not evaluated anew. -/
theorem State.pllLost_head_idle {s : State} (dark : ∀ i < 128, s.on (Reg.LNS_LANE_RX_ALIGNED (128 + i)) = false)
    (down : ∀ n < 128, s.chainState n = 0) (closed : s.openStrip = none) : s.pllLost false = s.headUnlocked := by
  have lanes : ((List.range 128).map (128 + ·)).foldl (fun (s : State) l =>
      if s.on (Reg.LNS_LANE_RX_ALIGNED l) then s.loseLane l (some 2) else s) s.headUnlocked = s.headUnlocked := by
    refine List.foldlRecOn _ _ (motive := (· = s.headUnlocked)) rfl fun u same l listed => ?_
    obtain ⟨i, inRange, rfl⟩ := List.mem_map.1 listed
    have head := List.mem_range.1 inRange
    rw [same, s.headUnlocked_aligned (by omega), dark i head]
    exact if_neg Bool.false_ne_true
  have chains : (List.range 128).foldl (fun (s : State) n =>
      if s.chainState n = 0 then s else (s.chainLost n).chainTo n 0) s.headUnlocked = s.headUnlocked := by
    refine List.foldlRecOn _ _ (motive := (· = s.headUnlocked)) rfl fun u same n inRange => ?_
    have chain := List.mem_range.1 inRange
    rw [same, if_pos ((s.headUnlocked_chainState chain).trans (down n chain))]
  have stop : s.headUnlocked.hardwareStop 9 false = s.headUnlocked := by
    rw [State.hardwareStop, s.headUnlocked_openStrip, closed]
    rfl
  calc s.pllLost false
      = ((List.range 128).foldl (fun (s : State) n => if s.chainState n = 0 then s else (s.chainLost n).chainTo n 0)
          (((List.range 128).map (128 + ·)).foldl (fun (s : State) l =>
            if s.on (Reg.LNS_LANE_RX_ALIGNED l) then s.loseLane l (some 2) else s) s.headUnlocked)).hardwareStop 9 false := rfl
    _ = s.headUnlocked := by rw [lanes, chains, stop]

theorem execLanePllUnlock_head {s : State} (locked : s.get Reg.LNS_STATUS_HEAD_LOCK = 1) :
    exec (.lanePllUnlock 0) s = .next (s.pllLost false) := by
  have on : s.on Reg.LNS_STATUS_HEAD_LOCK = true := by rw [State.on, locked]; rfl
  show (if s.on Reg.LNS_STATUS_HEAD_LOCK then Host.Outcome.next (s.pllLost false) else .next s) = _
  rw [if_pos on]

/-- The machine at reset, but with the head PLL locked, and with HLK_STATUS showing HEAD_BLANK_N high. -/
def idleUnblanked : State := State.reset.puts [(Reg.LNS_STATUS_HEAD_LOCK, 1), (Reg.HLK_STATUS_BLANK, 0)]

theorem idleUnblanked_exposing : idleUnblanked.get Reg.HLK_STATUS_BLANK = 0 := by decide +kernel

/-- Refutes O26: it takes states that show HEAD_BLANK_N high with every chain DOWN, against R224. There the unlock of the head
PLL finds no chain to take DOWN, and BLANK, which is written where a chain changes its state, stays 0. -/
theorem not_serialLanes : ¬ Obligations.serial_lanes := by
  unfold Obligations.serial_lanes
  intro h
  obtain ⟨-, -, -, -, -, headUnlock, -⟩ := h idleUnblanked
  have locked : idleUnblanked.get Reg.LNS_STATUS_HEAD_LOCK = 1 := by decide +kernel
  have dark : ∀ i < 128, idleUnblanked.on (Reg.LNS_LANE_RX_ALIGNED (128 + i)) = false := by decide +kernel
  have down : ∀ n < 128, idleUnblanked.chainState n = 0 := by decide +kernel
  obtain ⟨t, acts, -, -, -, -, blanked⟩ := headUnlock 0 rfl locked rfl
  obtain rfl : idleUnblanked.pllLost false = t := Host.Outcome.next.inj ((execLanePllUnlock_head locked).symm.trans acts)
  rw [State.pllLost_head_idle dark down rfl, State.get_headUnlocked _ .of .of .of, idleUnblanked_exposing] at blanked
  exact absurd blanked (by decide)

end Sys2Proof.Machine
end

section
/-! PROOFS. Statements on the tide unit (spec/11_tide_unit.md): what an idle step, one tide clock, counts and leaves. -/
namespace Sys2Proof.Machine

set_option Elab.async false

/-! ### What an idle step reports (R429, R522, R527) -/

/-- t is s but for reports and the corrections that a second has gathered; no channel gathers one anew. -/
structure Gathered (s t : State) : Prop where
  kept : Kept (.mem :: reports) s t
  regs : RegsBut [] s t
  mem : t.mem = { s.mem with corrected := t.mem.corrected, sramCorrected := t.mem.sramCorrected }
  none : ∀ ch, s.mem.corrected.getD ch (0, 0) = (0, 0) → t.mem.corrected.getD ch (0, 0) = (0, 0)

theorem Gathered.refl (s : State) : Gathered s s := ⟨.refl, .of_regs rfl, rfl, fun _ => id⟩

theorem Gathered.trans {s t u : State} (h : Gathered s t) (k : Gathered t u) : Gathered s u where
  kept := k.kept.of h.kept
  regs := h.regs.trans k.regs
  mem := k.mem.trans (by rw [h.mem])
  none ch zero := k.none ch (h.none ch zero)

theorem Gathered.fold {α : Type} {f : State → α → State} (each : ∀ x a, Gathered x (f x a)) (l : List α) (s : State) :
    Gathered s (l.foldl f s) := by
  induction l generalizing s with
  | nil => exact .refl s
  | cons a r ih => exact (each s a).trans (ih _)

theorem Noted.gathered {s t : State} (noted : Noted s t) : Gathered s t where
  kept := noted.kept.of .refl
  regs := noted.regsBut
  mem := by rw [noted.mem]
  none ch zero := by rw [noted.mem, zero]

theorem Noted.withObs (s : State) (o : ObsState) : Noted s { s with obs := o } := ⟨rfl, fun _ _ => rfl, fun _ => rfl, id⟩

theorem State.reportLost_noted (s : State) (dest : Nat) : Noted s (s.reportLost dest) :=
  .ite (.rfl' s) (.trans (.ite (.withObs s _) (.withObs s _)) (raise_noted _ _ _))

theorem Counted.noted {off : Nat} {s t : State} (counted : Counted off s t) (apart : ∀ g : Field, g.Quiet → g.Off off) :
    Noted s t :=
  ⟨counted.eq, fun g quiet => counted.quiet g quiet (apart g quiet), counted.ring (apart _ ringEn_quiet), counted.wf⟩

theorem State.reportSat_noted (s : State) (off : Nat) : Noted s (s.reportSat off) :=
  have saturated := (count_counted _ (cntObs 5)).noted fun _ quiet => quiet.obs 5 (by decide)
  .ite (.rfl' s) (.ite (((Noted.withObs s _).trans saturated).trans (raise_noted _ _ _)) (.withObs s _))

theorem listSet_eq_set {α : Type} (l : List α) (n : Nat) (v : α) : listSet l n v = l.set n v := by
  induction l generalizing n with
  | nil => rfl
  | cons x r ih => cases n with
    | zero => rfl
    | succ n => rw [listSet, ih, List.set_cons_succ]

theorem getD_listSet_default {α : Type} {l : List α} {n k : Nat} {d : α} (default : l.getD k d = d) :
    (listSet l n d).getD k d = d := by
  rw [listSet_eq_set, List.getD_eq_getElem?_getD, List.getElem?_set]
  split
  · split <;> rfl
  · rwa [← List.getD_eq_getElem?_getD]

/-- s with the corrections of a channel that a second has gathered cleared. -/
def State.clearCorrected (s : State) (ch : Nat) : State :=
  { s with mem := { s.mem with corrected := listSet s.mem.corrected ch (0, 0) } }

theorem State.clearCorrected_gathered (s : State) (ch : Nat) : Gathered s (s.clearCorrected ch) :=
  ⟨.upd [.mem] .refl, .of_regs rfl, rfl, fun _ => getD_listSet_default⟩

/-- The same for the corrections of SRAM. -/
def State.clearSram (s : State) : State := { s with mem := { s.mem with sramCorrected := (0, 0) } }

theorem State.clearSram_gathered (s : State) : Gathered s s.clearSram :=
  ⟨.upd [.mem] .refl, .of_regs rfl, rfl, fun _ => id⟩

theorem Gathered.ite {s t u : State} {c : Prop} [Decidable c] (h : Gathered s t) (k : Gathered s u) :
    Gathered s (if c then t else u) := by
  split
  · exact h
  · exact k

theorem State.reportCorrected_gathered (s : State) : Gathered s s.reportCorrected := by
  unfold State.reportCorrected
  extract_lets u c
  have channels : Gathered s u := .fold (fun x ch => .ite
    ((x.clearCorrected_gathered ch).trans (raise_noted (x.clearCorrected ch) _ _).gathered) (.refl x)) (List.range 6) s
  exact .ite ((channels.trans u.clearSram_gathered).trans (raise_noted u.clearSram _ _).gathered) channels

/-! ### What an idle step counts (R190, R258, R325, R371, R465, R499) -/

/-- The clocks have counted one tide clock, and the records of quiet with them. -/
def State.counted (s : State) : State := s.countClocks.watchQuiet.watchQuads

/-- One tide clock before its reports: the backlog has been worked off, and a slave's STATUS sent. -/
def State.clocked (s : State) : State := s.counted.drainBacklog.statusDue

theorem State.clockTick_gathered (s : State) : Gathered s.clocked s.clockTick :=
  (((State.reportCorrected_gathered _).trans (State.reportLost_noted _ 0).gathered).trans
    (State.reportLost_noted _ 1).gathered).trans (.fold (fun x off => (x.reportSat_noted off).gathered) _ _)

theorem State.drainBacklog_couch (s : State) :
    s.drainBacklog.couch = { s.couch with backlog := s.drainBacklog.couch.backlog } := by
  unfold State.drainBacklog
  dsimp only
  split <;> rfl

theorem State.statusDue_of_master {s : State} (master : s.isSlave = false) : s.statusDue = s := by
  unfold State.statusDue
  exact if_neg fun due => Bool.eq_false_iff.1 master due.1

theorem State.clocked_kept (s : State) :
    Kept [.aon, .tide, .clock, .seq, .pwr, .couch, .csc] s s.clocked :=
  .of (State.statusDue_kept _) (.of (State.drainBacklog_kept _) (.of (State.watchQuads_kept _)
    (.of (State.watchQuiet_kept _) (.of s.countClocks_kept .refl))))

theorem State.clocked_couch (s : State) : s.clocked.couch = { s.couch with backlog := s.clocked.couch.backlog } := by
  have couch := (State.statusDue_kept s.counted.drainBacklog).couch
  unfold State.clocked
  rw [couch]
  exact State.drainBacklog_couch _

theorem State.clocked_csc (s : State) (master : s.isSlave = false) : s.clocked.csc = s.csc := by
  have before : s.counted.drainBacklog.isSlave = false := by
    rw [State.isSlave, State.on, State.get, (State.drainBacklog_kept _).regs]
    exact master
  unfold State.clocked
  rw [State.statusDue_of_master before, (State.drainBacklog_kept _).csc]
  rfl

/-- The clocks that a tide clock leaves are those of `countClocks`. -/
theorem State.clocked_clocks (s : State) : s.clocked.aon = s.aon + 1 ∧ s.clocked.tide = s.countClocks.tide ∧
    s.clocked.clock = s.countClocks.clock := by
  have after := State.statusDue_kept s.counted.drainBacklog
  have drained := State.drainBacklog_kept s.counted
  exact ⟨after.aon.trans drained.aon, after.tide.trans drained.tide, after.clock.trans drained.clock⟩

/-- Settles O55: `clocked` is what counts, and what follows gathers and reports. -/
theorem anIdleStepIsATideClock : Obligations.an_idle_step_is_a_tide_clock := by
  unfold Obligations.an_idle_step_is_a_tide_clock
  intro s idle
  have ran : step s = .next s.clockTick := by rw [step, idle]
  have gathered := s.clockTick_gathered
  obtain ⟨aon, tide, clock⟩ := s.clocked_clocks
  rw [← gathered.kept.aon] at aon
  rw [← gathered.kept.tide] at tide
  rw [← gathered.kept.clock] at clock
  have mem := s.clocked_kept.mem
  refine ⟨_, ran, ⟨s.clockTick_kept.pending.trans idle, aon⟩, ?tideUp, ?tideDown, ?clockUp, ?clockDown, ?couch, ?csc, ?mem,
    ?corrected, ?parts, ?regs⟩
  case tideUp => exact fun up => tide.trans (if_pos up)
  case tideDown => exact fun down => tide.trans (if_neg (Bool.eq_false_iff.1 down))
  case clockUp => exact fun network up => clock.trans (if_pos (by rw [network, up]; rfl))
  case clockDown => exact fun down => clock.trans (if_neg (by rw [down]; exact Bool.false_ne_true))
  case couch =>
    rw [gathered.kept.couch]
    exact s.clocked_couch
  case csc => exact fun master => gathered.kept.csc.trans (s.clocked_csc master)
  case mem =>
    rw [← mem]
    exact gathered.mem
  case corrected => exact fun ch _ zero => gathered.none ch (mem ▸ zero)
  case parts => exact (s.clockTick_kept.of .refl).eq
  case regs => exact (RegsBut.of_regs s.clocked_kept.regs).trans (l := []) gathered.regs

end Sys2Proof.Machine
end

section
/-! PROOFS. Statements on the tide unit (spec/11_tide_unit.md) and its descriptors (spec/19_host_interface.md): a write of one
half of TID_QREF, and a segment table that its ring's shadow meets. -/
namespace Sys2Proof.Machine

set_option Elab.async false

/-! ### A write of one half of TID_QREF (R261) -/

/-- Every power domain up, and bit 8 of the high word of TID_QREF set, which no field of the register holds. -/
def strayQref : State := allUp.put ⟨0x00A0001C, 8, 1⟩ 1

theorem strayQref_up : strayQref.domainOn 15 = true := by decide +kernel

theorem execTidQrefArm_half (s : State) (h : Fin 2) (v : BitVec 64) :
    exec (.tidQrefArm ⟨some h, v⟩) s = .next (s.writeWord (0x00A00018 + 4 * h) (v.setWidth 32)) := rfl

/-- A write of 0 to the high half changes LOAD and ARM alone. -/
theorem strayQref_written : (strayQref.writeWord (0x00A00018 + 4 * 1) 0).get ⟨0x00A0001C, 0, 32⟩ = 2 ^ 8 := by decide +kernel

theorem strayQref_disarmed : strayQref.get Reg.TID_QREF_ARM = 0 := by decide +kernel

/-- Refutes O27: its clause on a write of the high half of TID_QREF gives the whole word by LOAD and ARM. R13 gives a write by
field: a bit of the word that lies in no field stays as it was, and the statement is on every state, also on those in which
such a bit is not at its reset value 0. -/
theorem not_positionInputs : ¬ Obligations.position_inputs := by
  unfold Obligations.position_inputs
  intro holds
  obtain ⟨-, -, -, -, -, -, -, -, -, halfWrite⟩ := holds strayQref
  obtain ⟨t, acts, word, -⟩ := halfWrite 1 0 strayQref_up
  obtain rfl : strayQref.writeWord (0x00A00018 + 4 * 1) 0 = t :=
    Host.Outcome.next.inj ((execTidQrefArm_half strayQref 1 0).symm.trans acts)
  rw [strayQref_disarmed] at word
  exact absurd (strayQref_written.symm.trans word) (by decide)

/-! ### STAGE_TABLE (R272, R437, R450) -/

/-- The machine with a segment table held as a stage job, as its bytes read now. -/
def State.tableHeld (s : State) (d : Desc) (aseq : Nat) : State :=
  { s with tid := { s.tid with heldJobs := s.tid.heldJobs ++ [⟨aseq, 0, some (tableEntries
      (s.readSpace (bitAt (d.field 28 1) 0) (d.field 16 8) (16 * d.field 24 4)) (d.field 24 4))⟩] } }

/-- The checks of a STAGE_TABLE descriptor's body (R450). -/
def tableChecks (d : Desc) : List (Nat × Bool) :=
  [(24, decide (1 ≤ d.field 24 4 ∧ d.field 24 4 ≤ 65536)), (28, decide (d.field 28 1 < 2))] ++ descReserved d 29 35

/-- R450: a table in host memory is read once its descriptor has been taken. -/
theorem execStageTable_of_takes {s : State} {d : Desc} (taken : s.takes d 0x19 (tableChecks d) = true)
    (host : bitAt (d.field 28 1) 0 = false) :
    exec (.stageTable d) s = .next ((s.takeJob d).tableHeld d s.host.nextAseq).startHeld := by
  have op := State.opcode_of_takes taken
  have dram : usesDram d = bitAt (d.field 28 1) 0 := by simp only [usesDram, op]
  have range : (s.takeJob d).rangeFault [(bitAt (d.field 28 1) 0, d.field 16 8, 16 * d.field 24 4)] = none := by
    simp only [State.rangeFault, host, List.find?, Bool.false_and, Option.map_none]
  show execStageTable d s = _
  rw [execStageTable, if_neg (not_not.2 op), ← dram]
  refine congrArg _ ((State.withDesc_of_takes taken _).trans ?_)
  dsimp only
  rw [dram, range]
  rfl

/-- A STAGE_TABLE descriptor for a table of one entry in host memory at 0x5000, where the host has shadowed the CONS of its
ring (`shadowState`). -/
def shadowTable : Desc := ⟨5, leBytes 8 0x19 ++ leBytes 8 0 ++ leBytes 8 0x5000 ++ leBytes 4 1 ++ leBytes 36 0⟩

theorem shadowTable_taken : shadowState.takes shadowTable 0x19 (tableChecks shadowTable) = true := by decide +kernel

/-- Before the descriptor is taken, the entry reads 0. -/
theorem shadowTable_before : tableEntries (shadowState.readSpace false 0x5000 16) 1 = [(0, 0, 0)] := by decide +kernel

/-- Once it has been taken, the entry's duration reads as the new CONS. -/
theorem shadowTable_held :
    ((shadowState.takeJob shadowTable).tableHeld shadowTable shadowState.host.nextAseq).startHeld.tid.heldJobs =
      [⟨0, 0, some [(1, 0, 0)]⟩] := by decide +kernel

/-- Refutes O28: the table of a STAGE_TABLE job is stated as the bytes before its descriptor is taken. Taking it moves CONS,
which the device writes to the ring's shadow in host memory (R437); the table is read after that. Where the table lies at the
shadow's address, its first duration is the new CONS. -/
theorem not_stageProfile : ¬ Obligations.stage_profile := by
  unfold Obligations.stage_profile
  intro holds
  obtain ⟨-, -, -, -, -, -, -, -, -, -, -, -, -, -, -, -, -, -, -, -, -, -, -, -, -, -, waits, -⟩ := holds shadowState
  obtain ⟨t, acts, held, -⟩ := waits shadowTable shadowTable_taken (by decide +kernel) (by decide +kernel)
  obtain rfl : ((shadowState.takeJob shadowTable).tableHeld shadowTable shadowState.host.nextAseq).startHeld = t :=
    Host.Outcome.next.inj ((execStageTable_of_takes shadowTable_taken (by decide +kernel)).symm.trans acts)
  have stated : _ = [(⟨0, 0, some (tableEntries (shadowState.readSpace false 0x5000 16) 1)⟩ : MoveJob)] := held
  rw [shadowTable_held, shadowTable_before] at stated
  exact absurd stated (by decide)

end Sys2Proof.Machine
end

section
/-! PROOFS. Writes of the loops' registers (spec/12_tracking_loops.md): each goes by words of one register or takes a 64-bit
register whole, and a write that is refused reports alone. -/
namespace Sys2Proof.Machine

set_option Elab.async false

/-! ### Fields of the loops' pages (R302) -/

theorem Field.Sound.ofNumbers {off lo w : Nat} (h : off % 4 = 0 ∧ lo + w ≤ 64 := by omega) : Field.Sound ⟨off, lo, w⟩ := h

theorem Field.Apart.ofNumbers {off lo w off' lo' w' : Nat} (h : (off % 4 = 0 ∧ lo + w ≤ 64) ∧ (off' % 4 = 0 ∧ lo' + w' ≤ 64) ∧
    (8 * off + lo + w ≤ 8 * off' + lo' ∨ 8 * off' + lo' + w' ≤ 8 * off + lo) := by omega) :
    Field.Apart ⟨off, lo, w⟩ ⟨off', lo', w'⟩ := h

/-- A field of the loops' pages that is no counter, or a field of the breakwater's set-up. -/
structure Field.OfLoops (g : Field) : Prop where
  sound : g.Sound
  range : 8 * 0x00B00000 ≤ g.base ∧ g.base + g.width ≤ 8 * 0x00B04000 ∨
    8 * 0x01300000 ≤ g.base ∧ g.base + g.width ≤ 8 * 0x01400000
  counters : ∀ c < 4, ∀ k < 4, g.Off (cntLoop c k)

/-- A field of channel c's page below its counters or above them. -/
theorem Field.OfLoops.of {c off lo w : Nat} (h : c < 4 ∧ off % 4 = 0 ∧ lo + w ≤ 64 ∧ 0x00B00000 + c * 0x1000 ≤ off ∧
    (8 * off + lo + w ≤ 8 * (0x00B00080 + c * 0x1000) ∨
      0x00B000A0 + c * 0x1000 ≤ off ∧ 8 * off + lo + w ≤ 8 * (0x00B01000 + c * 0x1000)) := by omega) :
    Field.OfLoops ⟨off, lo, w⟩ where
  sound := .ofNumbers
  range := by
    simp only [Field.base]
    omega
  counters d channel k four := by
    refine ⟨?_, .ofNumbers, ?_⟩
    · unfold cntLoop
      omega
    · simp only [Field.base, cntLoop]
      omega

theorem Field.OfLoops.quiet {g : Field} (loops : g.OfLoops) : g.Quiet := by
  obtain ⟨sound, range, -⟩ := loops
  refine ⟨sound, ?_⟩
  omega

/-! ### The words at an offset -/

/-- A register of one word, or none, lies at an offset. -/
abbrev NarrowAt (off : Nat) : Prop := ∀ x ∈ findRow off, x.1.Narrow

/-- A 64-bit register whose fields share no bit lies at an offset, and its second word in the next. -/
abbrev WideAt (off : Nat) : Prop :=
  (∃ x ∈ findRow off, x.1.wide = true ∧ x.2.2 = 0 ∧ (∀ f ∈ x.1.fields, f.lo + f.width ≤ 64) ∧
    x.1.fields.Pairwise fun f g => f.lo + f.width ≤ g.lo ∨ g.lo + g.width ≤ f.lo) ∧
  ∃ x ∈ findRow (off + 4), x.1.wide = true

/-- R433: what an aligned access meets: one or two registers of one word, a 64-bit register as a whole, or a half of one. -/
inductive Meets (off : Nat) : Bool → Prop
  | word : NarrowAt off → Meets off false
  | words : NarrowAt off → NarrowAt (off + 4) → Meets off true
  | whole : WideAt off → Meets off true
  | half : (∃ x ∈ findRow off, x.1.wide = true) → Meets off false

theorem rfGet_eq_pair (rf : RegFile) {off lo w : Nat} (fits : lo + w ≤ 64) :
    rfGet rf ⟨off, lo, w⟩ = bvField (rfPair rf off) lo w := by
  by_cases one : lo + w ≤ 32
  · rw [rfGet_eq_word rf (decide_eq_false (Nat.not_lt.2 one))]
    apply Nat.eq_of_testBit_eq
    intro i
    rw [bvField_testBit _ lo w i (by omega), bvField_testBit _ lo w i (by omega), rfPair, pair_bit, BitVec.getLsbD_setWidth]
    by_cases h : i < w
    · simp [show lo + i < 64 by omega, show lo + i < 32 by omega]
    · simp [h]
  · exact if_pos (decide_eq_true (Nat.not_le.1 one))

/-- s with the two words at an offset set. -/
def State.pairSet (s : State) (off : Nat) (x : BitVec 64) : State :=
  { s with regs := rfSetWord (rfSetWord s.regs off (x.setWidth 32)) (off + 4) ((x >>> 32).setWidth 32) }

theorem State.rfPair_pairSet (s : State) (off : Nat) (x : BitVec 64) : rfPair (s.pairSet off x).regs off = x := by
  rw [rfPair, State.pairSet, rfWord_set, if_pos rfl, rfWord_set, if_neg (by omega), rfWord_set, if_pos rfl, append_halves]

/-- Two writes of one word each are what a 64-bit write of registers of one word leaves (R433). -/
theorem WordWritten.wroteNarrowPair {off : Nat} {v : BitVec 64} {s m t : State} (narrow : NarrowAt off)
    (narrow' : NarrowAt (off + 4)) (lo : WordWritten off (v.setWidth 32) s m)
    (hi : WordWritten (off + 4) ((v >>> 32).setWidth 32) m t) : Wrote off true v s t := by
  intro h le r idx k row
  rcases Nat.le_one_iff_eq_zero_or_eq_one.1 le with rfl | rfl
  · obtain ⟨one, fits, -⟩ := narrow _ row
    refine ⟨fun _ f hf => ?_, fun wide => absurd wide (Bool.eq_false_iff.1 one)⟩
    rw [show off + 4 * 0 = off from rfl, hi.get_other (fits f hf).2 (by omega), lo.fields r idx k row f hf,
      bvField_setWidth _ (fits f hf).2]
    rfl
  · obtain ⟨one, fits, -⟩ := narrow' _ row
    refine ⟨fun _ f hf => ?_, fun wide => absurd wide (Bool.eq_false_iff.1 one)⟩
    rw [show off + 4 * 1 = off + 4 from rfl, hi.fields r idx k row f hf, lo.get_other (fits f hf).2 (by omega),
      bvField_setWidth _ (fits f hf).2]

/-! ### The loops' pages (R302) -/

/-- An offset within the pages of the loops' registers. -/
def inLoops (off : Nat) : Prop := 0x00B00000 ≤ off ∧ off < 0x00B04000

section Loops
variable {s : State} {off : Nat} (inside : inLoops off) (up : s.domainOn 15 = true)
include inside

theorem canonOffset_of_inLoops : canonOffset off = off := by
  obtain ⟨low, high⟩ := inside
  exact if_neg (by omega)

theorem domainOf_of_inLoops : domainOf off = 15 := by
  obtain ⟨low, high⟩ := inside
  have blk : off / 0x10000 = 0xB0 := by omega
  unfold domainOf
  simp [blk]

theorem WordWritten.domainOn_loops {v : BitVec 32} {t : State} (w : WordWritten off v s t) (d : Nat) :
    t.domainOn d = s.domainOn d := by
  obtain ⟨low, high⟩ := inside
  have same : t.get Reg.PWR_DOMAIN_STATUS_ON = s.get Reg.PWR_DOMAIN_STATUS_ON :=
    w.get_other (by decide) (show (_ : Nat) ≠ off by omega)
  rw [State.domainOn, State.domainOn, same]

theorem State.writePair_words (s : State) (narrow : NarrowAt off) (v : BitVec 64) :
    s.writePair off v = (s.writeWord off (v.setWidth 32)).writeWord (off + 4) ((v >>> 32).setWidth 32) := by
  unfold State.writePair
  dsimp only
  rw [canonOffset_of_inLoops inside]
  split
  case h_1 r idx row => exact if_neg (Bool.eq_false_iff.1 (narrow _ row).1)
  case h_2 => rfl

include up

theorem State.writeWord_loops (narrow : NarrowAt off) (v : BitVec 32) : WordWritten off v s (s.writeWord off v) :=
  s.writeWord_written v (canonOffset_of_inLoops inside) (fun _ _ _ row => narrow _ row)
    (by rw [domainOf_of_inLoops inside]; exact up)

theorem State.writeWord_sameBut (v : BitVec 32) : SameBut [.regs] s (s.writeWord off v) := by
  unfold State.writeWord
  dsimp only
  rw [canonOffset_of_inLoops inside, domainOf_of_inLoops inside, up]
  simp only [not_true_eq_false, if_false]
  split
  · rfl
  · split <;> rfl

theorem State.writePair_whole {r : RegRow} {idx : List Nat} (row : findRow off = some (r, idx, 0)) (wide : r.wide = true)
    (v : BitVec 64) : s.writePair off v = s.pairSet off (r.written (rfPair s.regs off) v) := by
  unfold State.writePair
  dsimp only
  rw [canonOffset_of_inLoops inside, domainOf_of_inLoops inside, up, row]
  simp only [wide, not_true_eq_false, if_true, if_false]
  rfl

/-- R11, R13: a 64-bit write of a 64-bit register takes it as one. -/
theorem State.writePair_wrote (wide : WideAt off) (v : BitVec 64) :
    Wrote off true v s (s.writePair off v) ∧ SameBut [.regs] s (s.writePair off v) := by
  obtain ⟨⟨⟨r, idx, k⟩, row, isWide, rfl, fits, apart⟩, ⟨x, row', isWide'⟩⟩ := wide
  rw [State.writePair_whole inside up row isWide]
  refine ⟨fun h le r' idx' k' there => ?_, rfl⟩
  rcases Nat.le_one_iff_eq_zero_or_eq_one.1 le with rfl | rfl
  · obtain ⟨rfl, -⟩ := Prod.mk.inj (Option.some.inj (row.symm.trans there))
    refine ⟨fun one => absurd isWide (Bool.eq_false_iff.1 one), fun _ _ _ f hf => ?_⟩
    rw [State.get, State.get, rfGet_eq_pair _ (fits f hf), rfGet_eq_pair _ (fits f hf), State.rfPair_pairSet]
    exact FieldRow.bvField_fold fits apart _ v hf
  · obtain rfl : x = (r', idx', k') := Option.some.inj (row'.symm.trans there)
    exact ⟨fun one => absurd isWide' (Bool.eq_false_iff.1 one), fun _ _ second => absurd second (by decide)⟩

/-- R13, R433: a write within the loops' pages, whatever its access meets. -/
theorem State.writeAny_wrote (inside' : inLoops (off + 4)) {wide : Bool} (meets : Meets off wide) (v : BitVec 64) :
    Wrote off wide v s (s.writeAny off wide v) ∧ SameBut [.regs] s (s.writeAny off wide v) := by
  cases meets with
  | word narrow =>
    have written := State.writeWord_loops inside up narrow (v.setWidth 32)
    exact ⟨WordWritten.wroteNarrow (fun _ _ _ row => narrow _ row) written, written.same⟩
  | words narrow narrow' =>
    have lo := State.writeWord_loops inside up narrow (v.setWidth 32)
    have up' := (lo.domainOn_loops inside 15).trans up
    have hi := State.writeWord_loops inside' up' narrow' ((v >>> 32).setWidth 32)
    rw [State.writeAny, if_pos rfl, State.writePair_words inside s narrow]
    exact ⟨WordWritten.wroteNarrowPair narrow narrow' lo hi, lo.same_trans hi⟩
  | whole whole => exact State.writePair_wrote inside up whole v
  | half half =>
    obtain ⟨x, row, isWide⟩ := half
    refine ⟨fun h le r idx k there => ?_, State.writeWord_sameBut inside up _⟩
    obtain rfl : h = 0 := Nat.le_zero.1 le
    obtain rfl : x = (r, idx, k) := Option.some.inj (row.symm.trans there)
    exact ⟨fun one => absurd isWide (Bool.eq_false_iff.1 one), nofun⟩

end Loops

/-! ### The registers that the loops' writes meet (R302) -/

/-- The row of the register table of LOOP_MODE. -/
def loopModeRow : RegRow := ⟨"LOOP_MODE", 0x00B00024, [(4, 0x1000)], false, [⟨16, 2, .ro, .const 0, .cold, none⟩,
  ⟨8, 1, .w1s, .const 0, .cold, none⟩, ⟨4, 1, .ro, .const 0, .cold, none⟩, ⟨0, 2, .rw, .const 0, .val 0, some (0, 2)⟩]⟩

/-- The row of the register table of LOOP_OPEN. -/
def loopOpenRow : RegRow := ⟨"LOOP_OPEN", 0x00B0002C, [(4, 0x1000)], false, [⟨0, 24, .rw, .const 0, .kept, none⟩]⟩

theorem findRow_loopMode : ∀ c : Fin 4, findRow (0x00B00024 + c * 0x1000) = some (loopModeRow, [c.val], 0) := by decide +kernel

theorem findRow_loopOpen : ∀ c : Fin 4, findRow (0x00B0002C + c * 0x1000) = some (loopOpenRow, [c.val], 0) := by decide +kernel

theorem loopMode_narrow : ∀ c : Fin 4, NarrowAt (0x00B00024 + c * 0x1000) := by decide +kernel

theorem loopOpen_narrow : ∀ c : Fin 4, NarrowAt (0x00B0002C + c * 0x1000) := by decide +kernel

theorem loopConfig_narrow : ∀ c p : Fin 4, NarrowAt (0x00B00000 + c * 0x1000 + 4 * p) := by decide +kernel

theorem loopYorg_wide : ∀ c : Fin 4, WideAt (0x00B00010 + c * 0x1000) := by decide +kernel

theorem loopCoef_narrow : ∀ (c : Fin 4) (b : Fin 2) (k : Fin 8), NarrowAt (0x00B00100 + c * 0x1000 + b * 0x40 + k * 4) := by
  decide +kernel

theorem loopLim_wide : ∀ (c : Fin 4) (b : Fin 2), WideAt (0x00B00120 + c * 0x1000 + b * 0x40) := by decide +kernel

/-- An aligned access to a row of registers of one word that a 64-bit register follows, in words from the row's first. -/
theorem Meets.of_row {base n off : Nat} {wide : Bool} (narrow : ∀ k < n, NarrowAt (base + 4 * k)) (last : WideAt (base + 4 * n))
    (even : base % 8 = 0 ∧ n % 2 = 0) (range : base ≤ off ∧ off < base + 4 * n + 8) (aligned : alignedAccess off wide = true) :
    Meets off wide := by
  simp only [alignedAccess, Bool.and_eq_true, Bool.or_eq_true, Bool.not_eq_true', decide_eq_true_eq] at aligned
  obtain ⟨word, pair⟩ := aligned
  obtain ⟨k, rfl⟩ : ∃ k, off = base + 4 * k := ⟨(off - base) / 4, by omega⟩
  cases wide with
  | false =>
    by_cases before : k < n
    · exact .word (narrow k before)
    · obtain ⟨⟨x, row, isWide, -⟩, second⟩ := last
      obtain rfl | rfl : k = n ∨ k = n + 1 := by omega
      · exact .half ⟨x, row, isWide⟩
      · exact .half second
  | true =>
    have first : (base + 4 * k) % 8 = 0 := pair.resolve_left (by decide)
    by_cases before : k < n
    · exact .words (narrow k before) (narrow (k + 1) (by omega))
    · obtain rfl : k = n := by omega
      exact .whole last

/-- R302: what an access to LOOP_PERIOD, LOOP_PHASE, LOOP_SRC or LOOP_YORG meets. -/
theorem meets_loopConfig {off : Nat} {wide : Bool} (page : 0x00B00000 ≤ off ∧ off < 0x00B04000 ∧ off % 0x1000 < 0x18)
    (aligned : alignedAccess off wide = true) : Meets off wide := by
  have channel : (off - 0x00B00000) / 0x1000 < 4 := by omega
  refine Meets.of_row (n := 4) (fun k four => loopConfig_narrow ⟨_, channel⟩ ⟨k, four⟩) ?_ ?_ ?_ aligned
  · have wide := loopYorg_wide ⟨_, channel⟩
    rwa [show 0x00B00010 + (off - 0x00B00000) / 0x1000 * 0x1000 = _ from Nat.add_right_comm 0x00B00000 0x10 _] at wide
  · dsimp only
    omega
  · dsimp only
    omega

theorem bankOf_some {off c b : Nat} (bank : bankOf off = some (c, b)) : c < 4 ∧ b < 2 ∧
    0x00B00100 + c * 0x1000 + b * 0x40 ≤ off ∧ off < 0x00B00128 + c * 0x1000 + b * 0x40 := by
  unfold bankOf at bank
  dsimp only at bank
  split at bank
  · obtain ⟨rfl, rfl⟩ := Prod.mk.inj (Option.some.inj bank)
    omega
  · cases bank

/-- R302: what an access to a bank's coefficients and limits meets. -/
theorem meets_loopBank {off c b : Nat} {wide : Bool} (bank : bankOf off = some (c, b)) (aligned : alignedAccess off wide = true) :
    Meets off wide := by
  obtain ⟨channel, two, range⟩ := bankOf_some bank
  refine Meets.of_row (base := 0x00B00100 + c * 0x1000 + b * 0x40) (n := 8) (fun k eight => ?_) ?_ ?_ ?_ aligned
  · have narrow := loopCoef_narrow ⟨c, channel⟩ ⟨b, two⟩ ⟨k, eight⟩
    rwa [Nat.mul_comm k 4] at narrow
  · have wide := loopLim_wide ⟨c, channel⟩ ⟨b, two⟩
    rwa [show 0x00B00100 + c * 0x1000 + b * 0x40 + 4 * 8 = 0x00B00120 + c * 0x1000 + b * 0x40 by omega]
  · omega
  · omega

theorem bvField_low (v : Word) {w : Nat} (fits : w ≤ 32) : bvField (v.setWidth 64) 0 w = v.toNat % 2 ^ w := by
  apply Nat.eq_of_testBit_eq
  intro i
  rw [bvField_testBit _ _ _ _ (by omega), Nat.testBit_mod_two_pow, BitVec.testBit_toNat, BitVec.getLsbD_setWidth]
  by_cases h : i < w
  · simp [show i < 64 by omega]
  · simp [h]

/-- A W1S bit after a write of a word. -/
theorem or_bvField_bit (v : Word) {i old : Nat} (inside : i < 32) (bit : old < 2 ^ 1) :
    old ||| bvField (v.setWidth 64) i 1 = if v.getLsbD i then 1 else old := by
  have written : bvField (v.setWidth 64) i 1 = (v.getLsbD i).toNat := by
    apply Nat.eq_of_testBit_eq
    intro j
    rw [bvField_testBit _ _ _ _ (by decide), BitVec.getLsbD_setWidth, Nat.testBit_bool_toNat]
    by_cases first : j = 0
    · subst first
      simp [show i < 64 by omega]
    · simp [first]
  rw [written]
  cases v.getLsbD i with
  | false => exact Nat.or_zero old
  | true => interval_cases old <;> rfl

/-! ### LOOP_MODE and LOOP_OPEN (R299, R301) -/

section Channel
variable {s : State} (up : s.domainOn 15 = true) (c : Fin 4) (v : Word)
include up

theorem State.writeLoopMode_written : WordWritten (0x00B00024 + c * 0x1000) v s (s.writeWord (0x00B00024 + c * 0x1000) v) :=
  State.writeWord_loops ⟨by omega, by omega⟩ up (loopMode_narrow c) v

theorem State.writeLoopOpen_written : WordWritten (0x00B0002C + c * 0x1000) v s (s.writeWord (0x00B0002C + c * 0x1000) v) :=
  State.writeWord_loops ⟨by omega, by omega⟩ up (loopOpen_narrow c) v

omit up in
theorem State.writeMode_allowed (allowed : v.toNat % 4 ≠ 2 ∨ s.closeFault c = 0) :
    s.writeMode c v = s.writeWord (0x00B00024 + c * 0x1000) v := by
  refine if_neg ?_
  rintro ⟨-, closed, fault⟩
  exact allowed.elim (· closed) fault

/-- R301: a forbidden request for CLOSED leaves REQ, and SWAP follows its access type. -/
theorem loopModeWrite_refused (closed : v.toNat % 4 = 2) (fault : s.closeFault c ≠ 0) :
    Acts (.loopModeWrite c v) s fun t => t.get (Reg.LOOP_MODE_REQ c) = s.get (Reg.LOOP_MODE_REQ c) ∧
      t.get (Reg.LOOP_MODE_SWAP c) = (if v.getLsbD 8 then 1 else s.get (Reg.LOOP_MODE_SWAP c)) ∧ t.loops = s.loops := by
  have written := State.writeLoopMode_written up c v
  have refused : s.writeMode c v = _ := if_pos ⟨up, closed, fault⟩
  refine ⟨_, congrArg Host.Outcome.next refused, ?_, ?_, ?_⟩
  · rw [State.raise_get _ _ _ (Field.OfLoops.of (c := c)).quiet]
    exact State.get_put_same _ _ _ .ofNumbers (s.get_lt _ .ofNumbers)
  · rw [State.raise_get _ _ _ (Field.OfLoops.of (c := c)).quiet, State.get_put_apart _ _ .ofNumbers]
    have swap := written.fields _ _ _ (findRow_loopMode c) ⟨8, 1, .w1s, .const 0, .cold, none⟩ (by simp [loopModeRow])
    exact swap.trans (or_bvField_bit v (by decide) (s.get_lt (Reg.LOOP_MODE_SWAP c) .ofNumbers))
  · rw [State.raise_loops, State.put_loops, written.same]

/-- R299: LOOP_OPEN takes its value, and in OPEN the write sets slewing. -/
theorem loopOpenWrite_writes : Acts (.loopOpenWrite c v) s fun t => t.get (Reg.LOOP_OPEN_VALUE c) = v.toNat % 2 ^ 24 ∧
    t.get (Reg.LOOP_STATUS_SLEWING c) =
      (if s.get (Reg.LOOP_MODE_STATE c) = 1 then 1 else s.get (Reg.LOOP_STATUS_SLEWING c)) ∧ SameBut [.regs] s t := by
  have written := State.writeLoopOpen_written up c v
  have value := (written.fields _ _ _ (findRow_loopOpen c) ⟨0, 24, .rw, .const 0, .kept, none⟩
    (by simp [loopOpenRow])).trans (bvField_low v (by decide))
  have slewing : (s.writeWord (0x00B0002C + c * 0x1000) v).get (Reg.LOOP_STATUS_SLEWING c) = s.get (Reg.LOOP_STATUS_SLEWING c) :=
    written.get_other (by decide) (by omega)
  by_cases opened : s.get (Reg.LOOP_MODE_STATE c) = 1
  · refine ⟨_, congrArg Host.Outcome.next (if_pos ⟨up, opened⟩), ?_, ?_, ?_⟩
    · exact (State.get_put_apart _ 1 .ofNumbers).trans value
    · rw [if_pos opened]
      exact State.get_put_same _ _ 1 .ofNumbers (show 1 < 2 ^ 1 by decide)
    · exact written.same ▸ rfl
  · refine ⟨_, congrArg Host.Outcome.next (if_neg fun h => opened h.2), value, ?_, written.same⟩
    rw [if_neg opened]
    exact slewing

end Channel

/-! ### Writes that SAFE and the shadow bank let pass (R298, R302) -/

theorem execLoopBankWrite_at {off : BitVec 25} {wide : Bool} {c b : Nat} (bank : bankOf off.toNat = some (c, b))
    (aligned : alignedAccess off.toNat wide = true) (s : State) (v : BitVec 64) : exec (.loopBankWrite off wide v) s =
      if s.domainOn 15 ∧ b = s.get (Reg.LOOP_MODE_ACTIVE_BANK c) then
        .next (s.raise 0x0906 (s.loopFields c ++ [(4, off.toNat)]))
      else .next (s.writeAny off.toNat wide v) := by
  show execLoopBankWrite off wide v s = _
  unfold execLoopBankWrite
  simp only [bank, aligned, not_true_eq_false, if_false]

theorem execLoopConfigWrite_at {off : BitVec 25} {wide : Bool}
    (page : 0x00B00000 ≤ off.toNat ∧ off.toNat < 0x00B04000 ∧ off.toNat % 0x1000 < 0x18)
    (aligned : alignedAccess off.toNat wide = true) (s : State) (v : BitVec 64) : exec (.loopConfigWrite off wide v) s =
      if s.domainOn 15 ∧ s.get (Reg.LOOP_MODE_STATE ((off.toNat - 0x00B00000) / 0x1000)) ≠ 0 then
        .next (s.raise 0x0909 (s.loopFields ((off.toNat - 0x00B00000) / 0x1000) ++ [(4, off.toNat)]))
      else .next (s.writeAny off.toNat wide v) := by
  refine if_neg ?_
  rintro (outside | odd)
  · exact outside page
  · exact odd aligned

/-- Settles O30: a write that passes is `writeAny_wrote` or a write of one word; a write that does not is a report. -/
theorem loopWrites : Obligations.loop_writes := by
  unfold Obligations.loop_writes
  intro s
  refine ⟨?mode, ?refusedMode, ?shadow, ?active, ?opens, ?safe, ?busy⟩
  case mode =>
    intro d c v command up allowed
    have written := State.writeLoopMode_written up c v
    have wrote : Wrote (0x00B00024 + c * 0x1000) false (v.setWidth 64) s (s.writeWord (0x00B00024 + c * 0x1000) v) :=
      WordWritten.wroteNarrow (fun _ _ _ row => loopMode_narrow c _ row) (by rw [setWidth_word]; exact written)
    have passes : exec (.loopModeWrite c v) s = _ := congrArg Host.Outcome.next (State.writeMode_allowed c v allowed)
    rcases command with rfl | ⟨rfl, swap⟩
    · exact ⟨_, passes, wrote, written.same⟩
    · have asked : exec (.loopSwapRequest c v) s = exec (.loopModeWrite c v) s :=
        congrArg Host.Outcome.next (if_pos ((bitAt_eq_testBit _ 8).trans swap))
      exact ⟨_, asked.trans passes, wrote, written.same⟩
  case refusedMode => exact fun c v up closed fault => loopModeWrite_refused up c v closed fault
  case shadow =>
    intro off wide v c b bank aligned up apart
    have range := bankOf_some bank
    refine ⟨_, (execLoopBankWrite_at bank aligned s v).trans (if_neg fun h => apart h.2), ?_⟩
    exact State.writeAny_wrote ⟨by omega, by omega⟩ up ⟨by omega, by omega⟩ (meets_loopBank bank aligned) v
  case active =>
    intro off wide v c b bank aligned up same
    exact ⟨_, (execLoopBankWrite_at bank aligned s v).trans (if_pos ⟨up, same⟩), (raise_noted _ _ _).reported⟩
  case opens => exact fun c v up => loopOpenWrite_writes up c v
  case safe =>
    intro off wide v page aligned up safe
    refine ⟨_, (execLoopConfigWrite_at page aligned s v).trans (if_neg fun h => h.2 safe), ?_⟩
    exact State.writeAny_wrote ⟨by omega, by omega⟩ up ⟨by omega, by omega⟩ (meets_loopConfig page aligned) v
  case busy =>
    intro off wide v page aligned up busy
    exact ⟨_, (execLoopConfigWrite_at page aligned s v).trans (if_pos ⟨up, busy⟩), (raise_noted _ _ _).reported⟩

end Sys2Proof.Machine
end

section
/-! PROOFS. Samples of the loops (spec/12_tracking_loops.md): what a sample, and a stop that it may cause, leaves of the
registers. -/
namespace Sys2Proof.Machine

set_option Elab.async false

/-! ### Register fields that an operation leaves -/

/-- From s to t, every register field of a kind reads as before. -/
structure Spares (P : Field → Prop) (s t : State) : Prop where
  get : ∀ g, P g → t.get g = s.get g

section Spares
variable {P Q : Field → Prop} {s t u : State}

theorem Spares.refl : Spares P s s := ⟨fun _ _ => rfl⟩

/-- One operation after another. -/
theorem Spares.of (k : Spares P t u) (h : Spares P s t) : Spares P s u := ⟨fun g p => (k.get g p).trans (h.get g p)⟩

theorem Spares.ite {c : Prop} [Decidable c] (h : Spares P s t) (k : Spares P s u) : Spares P s (if c then t else u) := by
  split
  · exact h
  · exact k

theorem Spares.mono (h : Spares P s t) (less : ∀ g, Q g → P g) : Spares Q s t :=
  ⟨fun g q => h.get g (less g q)⟩

/-- One operation, and then a change of other parts than the registers. -/
theorem Spares.upd (h : Spares P s t) (regs : u.regs = t.regs := by rfl) : Spares P s u :=
  ⟨fun g p => (congrArg (rfGet · g) regs).trans (h.get g p)⟩

theorem Kept.spares {l : List Part} (k : Kept l s t) (regs : Part.isIn .regs l = false := by decide) : Spares P s t :=
  ⟨fun g _ => congrArg (rfGet · g) (k.regs regs)⟩

theorem Noted.spares (noted : Noted s t) (quiet : ∀ g, P g → g.Quiet) : Spares P s t :=
  ⟨fun g p => noted.quiet g (quiet g p)⟩

theorem State.put_spares (s : State) {f : Field} (x : Nat) (apart : ∀ g, P g → f.Apart g) : Spares P s (s.put f x) :=
  ⟨fun g p => s.get_put_apart x (apart g p)⟩

theorem State.puts_spares (s : State) (fs : List Field) {l : List (Field × Nat)} (apart : ∀ g, P g → ∀ f ∈ fs, f.Apart g)
    (fields : l.map Prod.fst = fs := by rfl) : Spares P s (s.puts l) :=
  ⟨fun g p => s.get_puts_apart l fun q hq => apart g p q.1 (fields ▸ List.mem_map_of_mem hq)⟩

end Spares

/-! ### Stops leave the loops' fields (R305 to R316) -/

/-- The register fields in which a break shows. -/
def breakFields : List Field := [Reg.EXP_BREAK_CAUSE, Reg.EXP_BREAK_KIND, Reg.EXP_BREAK_TICK, Reg.EXP_PLAN_CAUSE,
  Reg.EXP_PLAN_TICK, Reg.EXP_STATE_STOP_PLANNED, Reg.EXP_STATE_LOW_LEAD, Reg.TID_TICK_STATE, Reg.TID_GOV_NOW_HZ]

/-- The register fields that stops and an abandoned FLOOD write. -/
def stopFields : List Field := breakFields ++
  [Reg.EXP_STATE_STATE, Reg.HLK_STATUS_BLANK, ⟨0x00C00020, 14, 1⟩, Reg.TID_PRF_STATUS_STATE]

theorem stopFields_outside : ∀ f ∈ stopFields, f.Sound ∧
    (f.base + f.width ≤ 8 * 0x00B00000 ∨ 8 * 0x00B04000 ≤ f.base ∧ f.base + f.width ≤ 8 * 0x01300000) := by
  simp [stopFields, breakFields, Field.Sound, Field.base]

theorem Field.OfLoops.apartStop {f g : Field} (loops : g.OfLoops) (stop : f ∈ stopFields) : f.Apart g := by
  obtain ⟨sound, outside⟩ := stopFields_outside f stop
  obtain ⟨sound', range, -⟩ := loops
  exact ⟨sound, sound', by omega⟩

theorem Field.OfLoops.offExp {g : Field} (loops : g.OfLoops) {i : Nat} (few : i < 8) : g.Off (cntExp i) := by
  obtain ⟨sound, range, -⟩ := loops
  refine ⟨?_, sound, ?_⟩ <;>
    · unfold cntExp
      omega

section Stops
variable (s : State)

theorem State.raise_spares (code : Nat) (payload : List (Nat × Nat)) : Spares Field.OfLoops s (s.raise code payload) :=
  (raise_noted s code payload).spares fun _ => Field.OfLoops.quiet

theorem State.putStop_spares {f : Field} (x : Nat) (stop : f ∈ stopFields := by simp [stopFields, breakFields]) :
    Spares Field.OfLoops s (s.put f x) := s.put_spares x fun _ loops => loops.apartStop stop

theorem State.countExp_spares {i : Nat} (few : i < 8 := by decide) : Spares Field.OfLoops s (s.count (cntExp i)) :=
  ⟨fun _ loops => s.count_get _ loops.quiet (loops.offExp few)⟩

theorem State.enter_spares (q : Nat) : Spares Field.OfLoops s (s.enter q) := .of (State.putStop_spares _ _) (s.putStop_spares q)

theorem State.holdForHost_spares (slot : Nat) : Spares Field.OfLoops s (s.holdForHost slot) :=
  .of (State.putStop_spares _ 1) (s.modStrip_kept slot _).spares

theorem State.stopProfile_spares : Spares Field.OfLoops s s.stopProfile :=
  .ite (.upd (s.putStop_spares (f := Reg.TID_PRF_STATUS_STATE) 2)) .refl

theorem State.marksUsed_spares (slot : Nat) : Spares Field.OfLoops s (s.marksUsed slot) :=
  .ite .refl (.of (State.raise_spares _ _ _) (s.modStrip_kept slot _).spares)

theorem State.abandonFlood_spares (cond : Nat) (after : AfterFlood) : Spares Field.OfLoops s (s.abandonFlood cond after) := by
  unfold State.abandonFlood
  split
  · exact .refl
  · refine .ite .refl ?_
    refine .of (State.raise_spares _ _ _) (.of (State.countExp_spares _) (.of (State.tellSlaves_kept _ _).spares ?_))
    refine .of (State.enter_spares _ 5) (.of (State.stopProfile_spares _) (.of (State.putStop_spares _ 0) ?_))
    exact .upd .refl

theorem State.enterBreak_spares (cause kind : Nat) (tB : Int) (hold : Bool) (more : List (Nat × Nat)) :
    Spares Field.OfLoops s (s.enterBreak cause kind tB hold more) := by
  unfold State.enterBreak
  split
  · exact .refl
  case h_2 st _ =>
    extract_lets index m p s₁ s₂ s₃ _ s₄ s₅ s₆ s₇
    have recorded : Spares Field.OfLoops s p.1 := (s.recordMark_kept _ _).spares
    have marked : Spares Field.OfLoops s s₁ :=
      .of (State.setFinalBreak_kept _ _ _).spares (.ite recorded (.of (State.marksUsed_spares _ _) recorded))
    have shown : Spares Field.OfLoops s₁ s₂ := s₁.puts_spares breakFields fun _ loops _ shows =>
      loops.apartStop (List.mem_append_left _ shows)
    have settled : Spares Field.OfLoops s₂ s₄ := .upd (t := s₃) (s₂.modStrip_kept _ _).spares
    have held : Spares Field.OfLoops s₄ s₅ := .ite (State.holdForHost_spares _ _) .refl
    have counted : Spares Field.OfLoops s₆ s₇ := by
      show Spares _ s₆ (s₆.count (cntExp (if 128 ≤ cause then 2 else 1)))
      split
      · exact State.countExp_spares _
      · exact State.countExp_spares _
    exact .of (State.raise_spares _ _ _) (.of counted (.of (State.enter_spares _ 6) (.of (State.stopProfile_spares _)
      (.of held (.of settled (.of shown marked))))))

theorem State.hardwareStop_spares (cause : Nat) (hold : Bool) : Spares Field.OfLoops s (s.hardwareStop cause hold) := by
  unfold State.hardwareStop
  split
  · exact .ite (s.putStop_spares 4) .refl
  · refine .ite (.of (State.sendStop_kept _ _ _ _ _).spares ?_)
      (.ite (s.abandonFlood_spares _ _) (.ite (s.holdForHost_spares _) .refl))
    split
    · exact .ite (s.enterBreak_spares _ _ _ _ _) (s.enterBreak_spares _ _ _ _ _)
    · exact s.enterBreak_spares _ _ _ _ _

theorem State.watchFlood_spares : Spares Field.OfLoops s s.watchFlood := by
  unfold State.watchFlood
  split
  · exact .refl
  · refine .ite .refl ?_
    dsimp only
    split
    · exact s.abandonFlood_spares _ _
    · exact .refl

end Stops

/-! ### The parts of a sample -/

section Parts
variable (s : State) (c : Nat) (y : Int)

/-- R295: what rr becomes at a capture. -/
def State.nextRr : Int :=
  if s.get (Reg.LOOP_REF_STEP_STEP c) = 0 then s.getS (Reg.LOOP_REF_TARGET c)
  else (s.loopAt c).rr + clampInt (s.getS (Reg.LOOP_REF_TARGET c) - (s.loopAt c).rr)
    (-s.get (Reg.LOOP_REF_STEP_STEP c)) (s.get (Reg.LOOP_REF_STEP_STEP c))

/-- R299: the channel's own state at entry to CLOSED. -/
def State.closedEntry : State :=
  (s.put (Reg.LOOP_STATUS_SUP_FAIL c) 0).modLoop c fun l =>
    { l with rr := y, model := y, errs := [0, 0, 0], filt := [0, 0, 0], excursions := 0, misses := 0 }

theorem State.closedSample_first : s.closedSample c y true =
    (((s.closedEntry c y).reference c).1.closeLoop c (clamp24 (((s.closedEntry c y).reference c).2 - y))).supervise c
      ((s.closedEntry c y).reference c).2 y := (rfl)

theorem State.closedSample_later : s.closedSample c y false =
    ((s.reference c).1.compensate c (clamp24 ((s.reference c).2 - y))).supervise c (s.reference c).2 y := (rfl)

end Parts

/-! ### What a sample leaves of a channel's registers (R290 to R300) -/

/-- The register fields of a channel that a sample writes, but for its counters. -/
def sampleFields (c : Nat) : List Field := [Reg.LOOP_STATUS_OUT c, Reg.LOOP_STATUS_SAT c, Reg.LOOP_STATUS_SLEWING c,
  Reg.LOOP_STATUS_SENSOR_OK c, Reg.LOOP_STATUS_SUP_FAIL c, Reg.LOOP_MODE_STATE c, Reg.LOOP_MODE_REQ c]

/-- A field of the loops that a sample of channel c only reads. -/
structure Field.Setting (c : Nat) (g : Field) : Prop where
  loops : g.OfLoops
  apart : ∀ f ∈ sampleFields c, f.Apart g

section Sample
variable {c : Nat} (channel : c < 4) (s : State)

theorem Spares.setting {s t : State} (h : Spares Field.OfLoops s t) : Spares (Field.Setting c) s t :=
  h.mono fun _ => Field.Setting.loops

theorem State.putSample_spares {f : Field} (x : Nat) (sample : f ∈ sampleFields c := by simp [sampleFields]) :
    Spares (Field.Setting c) s (s.put f x) := s.put_spares x fun _ setting => setting.apart f sample

theorem State.modLoop_spares {P : Field → Prop} (f : LoopChan → LoopChan) : Spares P s (s.modLoop c f) :=
  (s.modLoop_kept c f).spares

theorem State.loopOut_spares (u : Int) (sat slewing : Bool) : Spares (Field.Setting c) s (s.loopOut c u sat slewing) :=
  s.puts_spares ((sampleFields c).take 3) fun _ setting f sample => setting.apart f (List.mem_of_mem_take sample)

theorem State.loopMode_spares (mode cause : Nat) : Spares (Field.Setting c) s (s.loopMode c mode cause) :=
  .of (State.raise_spares _ _ _).setting (s.putSample_spares mode)

theorem State.loopSafe_spares (cause : Nat) : Spares (Field.Setting c) s (s.loopSafe c cause) :=
  .of (State.loopOut_spares _ _ _ _) (s.loopMode_spares 0 cause)

theorem State.loopFault_spares (code : Nat) (payload : List (Nat × Nat)) :
    Spares (Field.Setting c) s (s.loopFault c code payload) := by
  unfold State.loopFault
  extract_lets q breaks taken s₁ s₂ s₃
  have failed : Spares (Field.Setting c) s s₁ := .of (State.modLoop_spares _ _) (s.putSample_spares 1)
  have raised : Spares (Field.Setting c) s s₂ :=
    .of ((raiseSev_noted s₁ _ _ _).spares fun _ => Field.OfLoops.quiet).setting failed
  have safe : Spares (Field.Setting c) s s₃ :=
    .ite (.of (State.loopSafe_spares _ 1) (.of (State.putSample_spares _ 0) raised)) raised
  exact .ite (.of (State.hardwareStop_spares _ 6 false).setting safe) safe

theorem State.closedEntry_spares (y : Int) : Spares (Field.Setting c) s (s.closedEntry c y) :=
  .of (State.modLoop_spares _ _) (s.putSample_spares 0)

theorem State.openSample_spares : Spares (Field.Setting c) s (s.openSample c) :=
  .ite (s.loopOut_spares _ _ _) (s.loopOut_spares _ _ _)

include channel

theorem State.countLoop_spares {k : Nat} (four : k < 4 := by decide) : Spares Field.OfLoops s (s.count (cntLoop c k)) :=
  ⟨fun _ loops => s.count_get _ loops.quiet (loops.counters c channel k four)⟩

theorem State.supervise_spares (r y : Int) : Spares (Field.Setting c) s (s.supervise c r y) := by
  unfold State.supervise
  extract_lets n l m s₁ s₂
  have moved : Spares (Field.Setting c) s s₁ := s.modLoop_spares _
  have counted : Spares (Field.Setting c) s s₂ :=
    .of (State.modLoop_spares _ _) (.of (s₁.countLoop_spares channel).setting moved)
  exact .ite moved (.ite (.ite (.of (State.loopFault_spares _ _ _) counted) counted) (.of (State.modLoop_spares _ _) moved))

theorem State.compensate_spares (e : Int) : Spares (Field.Setting c) s (s.compensate c e) := by
  unfold State.compensate
  extract_lets l uo slew slewing lim v q0 held sat i q u still u' u'' excess s₁
  have out : Spares (Field.Setting c) s s₁ := .of (State.loopOut_spares _ _ _ _) (s.modLoop_spares _)
  exact .ite (.of (s₁.countLoop_spares channel).setting out) out

omit channel in
theorem State.closeLoop_spares (e : Int) : Spares (Field.Setting c) s (s.closeLoop c e) := by
  unfold State.closeLoop
  extract_lets v uo i
  by_cases fits : clamp48 i = i
  · rw [if_pos fits]
    exact .of (State.loopOut_spares _ _ _ _) (s.modLoop_spares _)
  · rw [if_neg fits]
    exact .of (State.loopOut_spares _ _ _ _) (.of (State.modLoop_spares _ _) s.draw_kept.spares)

theorem State.closedSample_spares (y : Int) (entry : Bool) : Spares (Field.Setting c) s (s.closedSample c y entry) := by
  cases entry with
  | true =>
    rw [State.closedSample_first]
    exact .of (State.supervise_spares channel _ _ _) 
      (.of (State.closeLoop_spares _ _) (.of (State.reference_kept _ _).spares (s.closedEntry_spares y)))
  | false =>
    rw [State.closedSample_later]
    exact .of (State.supervise_spares channel _ _ _) (.of (State.compensate_spares channel _ _) (s.reference_kept c).spares)

theorem State.loopSample_spares (y : Int) : Spares (Field.Setting c) s (s.loopSample c y) := by
  unfold State.loopSample
  extract_lets s₁ s₂ mode req change
  have noted : Spares (Field.Setting c) s s₂ :=
    .of (State.noteError_kept _ _).spares (.of (State.modLoop_spares _ _) (s.putSample_spares 1))
  clear_value change req
  split
  · exact .ite (.of (State.loopSafe_spares _ 0) noted) (.of (State.loopOut_spares _ _ _ _) noted)
  · exact .of (State.openSample_spares _)
      (.ite (.of (State.putSample_spares _ 1) (.of (State.loopMode_spares _ 1 0) noted)) noted)
  · exact .of (State.closedSample_spares channel _ y change) (.ite (.of (State.loopMode_spares _ 2 0) noted) noted)

theorem State.loopMissed_spares (miss : Nat) : Spares (Field.Setting c) s (s.loopMissed c miss) := by
  unfold State.loopMissed
  extract_lets first s₁ s₂ req s₃
  have counted : Spares (Field.Setting c) s s₁ := .of (State.countLoop_spares channel _).setting (s.putSample_spares 0)
  have noted : Spares (Field.Setting c) s s₂ := .ite (.of (State.raise_spares _ _ _).setting counted) counted
  have missed : Spares (Field.Setting c) s s₃ := .of (State.modLoop_spares _ _) noted
  exact .ite (.of (State.loopSafe_spares _ 0) noted)
    (.ite (.of (State.putSample_spares _ 1) (.of (State.loopMode_spares _ 1 0) noted))
      (.ite (.ite (.of (State.loopFault_spares _ _ _) missed) missed) noted))

end Sample

/-! ### The fields of a channel (R302) -/

/-- A field of channel c's page outside its counters, LOOP_STATUS, and STATE and REQ of LOOP_MODE. -/
theorem Field.Setting.of {c off lo w : Nat} (h : c < 4 ∧ off % 4 = 0 ∧ lo + w ≤ 64 ∧ 0x00B00000 + c * 0x1000 ≤ off ∧
    (8 * off + lo + w ≤ 8 * (0x00B00080 + c * 0x1000) ∨
      0x00B000A0 + c * 0x1000 ≤ off ∧ 8 * off + lo + w ≤ 8 * (0x00B01000 + c * 0x1000)) ∧
    (8 * off + lo + w ≤ 8 * (0x00B0003C + c * 0x1000) ∨ 8 * (0x00B00040 + c * 0x1000) ≤ 8 * off + lo) ∧
    (8 * off + lo + w ≤ 8 * (0x00B00024 + c * 0x1000) ∨ 8 * (0x00B00024 + c * 0x1000) + 2 ≤ 8 * off + lo) ∧
    (8 * off + lo + w ≤ 8 * (0x00B00024 + c * 0x1000) + 16 ∨ 8 * (0x00B00024 + c * 0x1000) + 18 ≤ 8 * off + lo) := by omega) :
    Field.Setting c ⟨off, lo, w⟩ where
  loops := .of (c := c)
  apart := by
    simp only [sampleFields, List.forall_mem_cons, List.not_mem_nil, false_implies, implies_true, and_true]
    exact ⟨.ofNumbers, .ofNumbers, .ofNumbers, .ofNumbers, .ofNumbers, .ofNumbers, .ofNumbers⟩

section Settings
variable {s t : State} {c : Nat} (same : Spares (Field.Setting c) s t) (channel : c < 4)
include same channel

theorem Spares.bank : t.get (Reg.LOOP_MODE_ACTIVE_BANK c) = s.get (Reg.LOOP_MODE_ACTIVE_BANK c) := same.get _ .of

theorem State.bankLimits_congr {b : Nat} (two : b < 2) : t.bankLimits c b = s.bankLimits c b := by
  rw [State.bankLimits, State.bankLimits, State.getS, State.getS, State.getS, State.getS, same.get _ .of, same.get _ .of]

theorem State.coef_congr {k : Nat} (eight : k < 8) : t.coef c k = s.coef c k := by
  have two := s.get_lt (Reg.LOOP_MODE_ACTIVE_BANK c) .ofNumbers
  unfold State.coef State.on State.getS
  dsimp only at two ⊢
  rw [same.bank channel, same.get _ .of, same.get _ .of]

theorem State.filterOut_congr (errs : (t.loopAt c).errs = (s.loopAt c).errs) (filt : (t.loopAt c).filt = (s.loopAt c).filt)
    (e : Int) : t.filterOut c e = s.filterOut c e := by
  unfold State.filterOut
  have coef : ∀ k < 8, t.coef c k = s.coef c k := fun _ eight => State.coef_congr same channel eight
  simp only [errs, filt, coef 0 (by decide), coef 1 (by decide), coef 2 (by decide), coef 3 (by decide), coef 4 (by decide),
    coef 5 (by decide), coef 6 (by decide)]

theorem State.nextRr_congr (rr : (t.loopAt c).rr = (s.loopAt c).rr) : t.nextRr c = s.nextRr c := by
  unfold State.nextRr State.getS
  rw [rr, same.get _ .of, same.get _ .of]

end Settings

/-! ### A channel beside its registers -/

section Channels
variable (s : State) {c d : Nat} (f : LoopChan → LoopChan)

theorem State.modLoop_same (inside : c < s.loops.length) : (s.modLoop c f).loopAt c = f (s.loopAt c) :=
  getD_listModify_same inside f _

theorem State.modLoop_other (apart : d ≠ c) : (s.modLoop c f).loopAt d = s.loopAt d := getD_listModify_other _ apart f _

theorem State.modLoop_length : (s.modLoop c f).loops.length = s.loops.length := by
  show (listModify s.loops c f).length = _
  rw [listModify_eq_modify, List.length_modify]

theorem State.loopAt_congr {t : State} (same : t.loops = s.loops) (d : Nat) : t.loopAt d = s.loopAt d := by
  rw [State.loopAt, State.loopAt, same]

end Channels

/-! ### A sample's output -/

theorem wrapInt_lt (n : Nat) (v : Int) : wrapInt n v < 2 ^ n := by
  have pos : (0 : Int) < 2 ^ n := by positivity
  have lt : Int.emod v (2 ^ n) < 2 ^ n := Int.emod_lt_of_pos v pos
  have ge : 0 ≤ Int.emod v (2 ^ n) := Int.emod_nonneg v pos.ne'
  unfold wrapInt
  zify
  rw [Int.toNat_of_nonneg ge]
  exact lt

theorem flag_lt (b : Bool) : flag b < 2 ^ 1 := by cases b <;> decide

section Output
variable (s : State) (c : Nat) (u : Int) (sat slewing : Bool)

theorem State.loopOut_eq : s.loopOut c u sat slewing = ((s.put (Reg.LOOP_STATUS_OUT c) (wrapInt 24 u)).put
    (Reg.LOOP_STATUS_SAT c) (flag sat)).put (Reg.LOOP_STATUS_SLEWING c) (flag slewing) := rfl

theorem State.loopOut_out : (s.loopOut c u sat slewing).get (Reg.LOOP_STATUS_OUT c) = wrapInt 24 u := by
  rw [State.loopOut_eq, State.get_put_apart _ _ .ofNumbers, State.get_put_apart _ _ .ofNumbers]
  exact State.get_put_same _ _ _ .ofNumbers (wrapInt_lt 24 u)

theorem State.loopOut_sat : (s.loopOut c u sat slewing).get (Reg.LOOP_STATUS_SAT c) = flag sat := by
  rw [State.loopOut_eq, State.get_put_apart _ _ .ofNumbers]
  exact State.get_put_same _ _ _ .ofNumbers (flag_lt sat)

theorem State.loopOut_slewing : (s.loopOut c u sat slewing).get (Reg.LOOP_STATUS_SLEWING c) = flag slewing :=
  State.get_put_same _ _ _ .ofNumbers (flag_lt slewing)

theorem State.loopOut_loopAt (d : Nat) : (s.loopOut c u sat slewing).loopAt d = s.loopAt d := rfl

/-- Any other field reads as before. -/
theorem State.loopOut_get {g : Field} (out : (Reg.LOOP_STATUS_OUT c).Apart g) (sat' : (Reg.LOOP_STATUS_SAT c).Apart g)
    (slewing' : (Reg.LOOP_STATUS_SLEWING c).Apart g) : (s.loopOut c u sat slewing).get g = s.get g := by
  rw [State.loopOut_eq, State.get_put_apart _ _ slewing', State.get_put_apart _ _ sat', State.get_put_apart _ _ out]

end Output

end Sys2Proof.Machine
end

section
/-! PROOFS. Captures of the loops (spec/12_tracking_loops.md): the compensator, the first sample of CLOSED, SAFE and OPEN, a
missed sample and a swap of the banks. -/
namespace Sys2Proof.Machine

set_option Elab.async false

/-! ### The compensator (R296, R297, R300) -/

section Compensator
variable {s : State} {c : Nat}

/-- R300: with N = 0 a sample moves the model alone. -/
theorem State.supervise_off (off : s.get (Reg.LOOP_SUP_N c) = 0) (r y : Int) :
    ∃ m, s.supervise c r y = s.modLoop c fun l => { l with model := m } := by
  refine ⟨_, if_pos ?_⟩
  exact off

end Compensator

/-! ### A capture (R290, R298) -/

section Capture
variable {s : State} {c : Fin 4}

/-- R298: without a request no bank is swapped. -/
theorem State.swapBanks_unasked {n : Nat} (unasked : s.get (Reg.LOOP_MODE_SWAP n) = 0) : s.swapBanks n = s :=
  if_pos (by simp [State.on, unasked])

theorem execLoopCapture_due (due : s.loopDue c 48 = true) : exec (.loopCapture c) s = .next
    (((if (s.loopFeedback c).1 = 0 then ((s.count (cntLoop c 0)).swapBanks c).loopSample c (s.loopFeedback c).2
      else ((s.count (cntLoop c 0)).swapBanks c).loopMissed c (s.loopFeedback c).1).sendSample c
        (decide ((s.loopFeedback c).1 ≠ 0))).watchFlood) := if_neg (not_not.2 due)

theorem State.swapBanks_counted (unasked : s.get (Reg.LOOP_MODE_SWAP c) = 0) :
    (s.count (cntLoop c 0)).swapBanks c = s.count (cntLoop c 0) :=
  State.swapBanks_unasked (((s.countLoop_spares c.isLt).get _ (.of (c := c))).trans unasked)

end Capture

/-! ### A sample that is not missed (R292, R295) -/

/-- From s to z, channel c has taken a feedback y. -/
structure Sampled (c : Nat) (y : Int) (s z : State) : Prop where
  get : Spares (fun g => g.OfLoops ∧ (Reg.LOOP_STATUS_SENSOR_OK c).Apart g) s z
  ok : z.get (Reg.LOOP_STATUS_SENSOR_OK c) = 1
  loop : ∃ eps, z.loopAt c = { s.loopAt c with lastY := y, misses := 0, eps := eps }
  length : z.loops.length = s.loops.length

theorem Sampled.setting {c : Nat} {y : Int} {s z : State} (sampled : Sampled c y s z) : Spares (Field.Setting c) s z :=
  sampled.get.mono fun _ setting => ⟨setting.loops, setting.apart _ (by simp [sampleFields])⟩

/-- s with the feedback of a sample taken. -/
def State.sampled (s : State) (c : Nat) (y : Int) : State :=
  ((s.put (Reg.LOOP_STATUS_SENSOR_OK c) 1).modLoop c fun l => { l with lastY := y, misses := 0 }).noteError c

section Taken
variable (s : State) {c : Nat} (y : Int)

/-- R295: ε alone follows the position. -/
theorem State.noteError_loop (inside : c < s.loops.length) :
    (∃ eps, (s.noteError c).loopAt c = { s.loopAt c with eps := eps }) ∧ (s.noteError c).loops.length = s.loops.length := by
  unfold State.noteError
  split
  case h_1 eps t followed =>
    have loops := (State.followError_kept followed).loops
    refine ⟨⟨eps, ?_⟩, by rw [State.modLoop_length, loops]⟩
    rw [State.modLoop_same _ _ (by rwa [loops]), State.loopAt_congr s loops]
  case h_2 => exact ⟨⟨_, rfl⟩, rfl⟩

theorem State.sampled_taken (inside : c < s.loops.length) : Sampled c y s (s.sampled c y) := by
  obtain ⟨⟨eps, loop⟩, length⟩ := State.noteError_loop
    ((s.put (Reg.LOOP_STATUS_SENSOR_OK c) 1).modLoop c fun l => { l with lastY := y, misses := 0 })
    (by rwa [State.modLoop_length])
  have noted := State.noteError_kept
    ((s.put (Reg.LOOP_STATUS_SENSOR_OK c) 1).modLoop c fun l => { l with lastY := y, misses := 0 }) c
  refine ⟨.of noted.spares (.of (State.modLoop_spares _ _) (s.put_spares 1 fun _ kind => kind.2)), ?_, ⟨eps, ?_⟩, ?_⟩
  · exact ((noted.spares (P := fun _ => True)).get _ trivial).trans (s.get_put_same _ 1 .ofNumbers (show 1 < 2 ^ 1 by decide))
  · rw [State.sampled, loop, State.modLoop_same _ _ (show c < (s.put _ 1).loops.length from inside)]
    rfl
  · rw [State.sampled, length, State.modLoop_length]
    rfl

theorem State.loopSample_safe (req : (s.sampled c y).get (Reg.LOOP_MODE_REQ c) = 0) : s.loopSample c y =
    if (s.sampled c y).get (Reg.LOOP_MODE_STATE c) = 0
      then (s.sampled c y).loopOut c ((s.sampled c y).lastStep c ((s.sampled c y).getS (Reg.LOOP_SAFE_VALUE c))) false false
      else (s.sampled c y).loopSafe c 0 := by
  unfold State.loopSample
  extract_lets s₁ s₂ mode want change
  have wanted : want = 0 := req
  clear_value want
  subst wanted
  show (if change then _ else _) = _
  by_cases safe : mode = 0
  · exact (if_neg (by simp [change, safe])).trans (if_pos safe).symm
  · exact (if_pos (by simpa [change] using Ne.symm safe)).trans (if_neg safe).symm

theorem State.loopSample_open (req : (s.sampled c y).get (Reg.LOOP_MODE_REQ c) = 1)
    (mode : (s.sampled c y).get (Reg.LOOP_MODE_STATE c) = 1) : s.loopSample c y = (s.sampled c y).openSample c := by
  unfold State.loopSample
  extract_lets s₁ s₂ mode' want change
  have wanted : want = 1 := req
  clear_value want
  subst wanted
  show State.openSample (if change then _ else _) c = _
  rw [if_neg (by simp [change, show mode' = 1 from mode])]
  rfl

theorem State.loopSample_closed (req : (s.sampled c y).get (Reg.LOOP_MODE_REQ c) = 2) : s.loopSample c y =
    if (s.sampled c y).get (Reg.LOOP_MODE_STATE c) = 2 then (s.sampled c y).closedSample c y false
      else ((s.sampled c y).loopMode c 2 0).closedSample c y true := by
  unfold State.loopSample
  extract_lets s₁ s₂ mode want change
  have wanted : want = 2 := req
  clear_value want
  subst wanted
  show State.closedSample (if change then _ else _) c y change = _
  by_cases closed : mode = 2
  · have stays : change = false := by simp [change, closed]
    rw [stays]
    exact (if_pos closed).symm
  · have changes : change = true := by simpa [change] using Ne.symm closed
    rw [changes]
    exact (if_neg closed).symm

end Taken

/-! ### What a sample sends (R294) -/

/-- From x to t, channel c has sent what its sample at a tide time made of it, and awaits the next one. -/
structure SampleSent (c now : Nat) (x t : State) : Prop where
  get : Spares Field.OfLoops x t
  loop : ∃ bytes, t.loopAt c = { x.loopAt c with edge := none, frame := none, capturedAt := now, sent := bytes }

/-- The channel awaits its next sample. -/
theorem SampleSent.awaits {c now : Nat} {x t : State} (sent : SampleSent c now x t) :
    (t.loopAt c).edge = none ∧ (t.loopAt c).frame = none ∧ (t.loopAt c).capturedAt = now := by
  obtain ⟨bytes, loop⟩ := sent.loop
  rw [loop]
  exact ⟨rfl, rfl, rfl⟩

theorem State.sendSample_noted (x : State) (c : Nat) (missed : Bool) : ∃ bytes, Noted (x.modLoop c fun l =>
    { l with edge := none, frame := none, capturedAt := x.tide, sent := bytes }) (x.sendSample c missed) :=
  ⟨_, .ite (.rfl' _) (trace_noted _ _ _)⟩

theorem State.sendSample_spares (x : State) (c : Nat) (missed : Bool) :
    Spares Field.OfLoops x (x.sendSample c missed).watchFlood := by
  obtain ⟨bytes, noted⟩ := x.sendSample_noted c missed
  exact .of (State.watchFlood_spares _) (.of (noted.spares fun _ => Field.OfLoops.quiet) (x.modLoop_spares _))

theorem State.sendSample_sent (x : State) {c : Nat} (inside : c < x.loops.length) (missed : Bool) :
    SampleSent c x.tide x (x.sendSample c missed).watchFlood := by
  obtain ⟨bytes, noted⟩ := x.sendSample_noted c missed
  refine ⟨x.sendSample_spares c missed, ⟨bytes, ?_⟩⟩
  rw [State.loopAt_congr _ (State.watchFlood_kept _).loops, State.loopAt_congr _ noted.loops]
  exact x.modLoop_same _ inside

section Sends
variable {s : State} {c : Fin 4} {m : Nat} {y : Int} (due : s.loopDue c 48 = true) (unasked : s.get (Reg.LOOP_MODE_SWAP c) = 0)
  (feedback : s.loopFeedback c = (m, y))
include due unasked feedback

theorem loopCapture_sample {x : State} (valid : m = 0) (sample : (s.count (cntLoop c 0)).loopSample c y = x)
    (inside : c.val < x.loops.length) : ∃ t, exec (.loopCapture c) s = .next t ∧ SampleSent c s.tide x t := by
  have ran := execLoopCapture_due due
  have tide : x.tide = s.tide := by
    rw [← sample, (State.loopSample_kept _ _ _).tide, State.count_tide]
  rw [feedback, State.swapBanks_counted unasked, if_pos valid, sample] at ran
  exact ⟨_, ran, tide ▸ x.sendSample_sent inside _⟩

theorem loopCapture_miss {x : State} (miss : m ≠ 0) (sample : (s.count (cntLoop c 0)).loopMissed c m = x)
    (inside : c.val < x.loops.length) : ∃ t, exec (.loopCapture c) s = .next t ∧ SampleSent c s.tide x t := by
  have ran := execLoopCapture_due due
  have tide : x.tide = s.tide := by
    rw [← sample, (State.loopMissed_kept _ _ _).tide, State.count_tide]
  rw [feedback, State.swapBanks_counted unasked, if_neg miss, sample] at ran
  exact ⟨_, ran, tide ▸ x.sendSample_sent inside _⟩

end Sends

theorem State.sampled_counted {s : State} {c : Nat} (channel : c < 4) (inside : c < s.loops.length) (y : Int) :
    Sampled c y s ((s.count (cntLoop c 0)).sampled c y) := by
  have counted := s.countLoop_spares channel (k := 0)
  have loops := s.count_loops (cntLoop c 0)
  obtain ⟨get, ok, ⟨eps, loop⟩, length⟩ := State.sampled_taken (s.count (cntLoop c 0)) y (loops ▸ inside)
  exact ⟨.of get (counted.mono fun _ kind => kind.1), ok, ⟨eps, by rw [loop, State.loopAt_congr s loops]⟩,
    length.trans (congrArg _ loops)⟩

/-! ### SAFE and OPEN (R299) -/

/-- The breakwater's limits of the beam intensity are settings of every channel. -/
theorem intensity_setting {c off : Nat} (channel : c < 4) (limit : off = 0x01300008 ∨ off = 0x0130000C) :
    Field.Setting c ⟨off, 0, 24⟩ where
  loops :=
    { sound := .ofNumbers
      range := by
        simp only [Field.base]
        omega
      counters := fun d channel' k four => by
        refine ⟨?_, .ofNumbers, ?_⟩ <;>
          · simp only [Field.base, cntLoop]
            omega }
  apart := by
    simp only [sampleFields, List.forall_mem_cons, List.not_mem_nil, false_implies, implies_true, and_true]
    exact ⟨.ofNumbers, .ofNumbers, .ofNumbers, .ofNumbers, .ofNumbers, .ofNumbers, .ofNumbers⟩

theorem State.lastStep_congr {s t : State} {c : Nat} (same : Spares (Field.Setting c) s t) (channel : c < 4) (u : Int) :
    t.lastStep c u = s.lastStep c u := by
  unfold State.lastStep State.intensity State.getS
  rw [same.get _ (intensity_setting channel (.inl rfl)), same.get _ (intensity_setting channel (.inr rfl))]

theorem State.getS_congr {s t : State} {f : Field} (same : t.get f = s.get f) : t.getS f = s.getS f := by
  rw [State.getS, State.getS, same]

/-- A channel's mode, once changed. -/
theorem State.loopMode_state (s : State) {c mode : Nat} (channel : c < 4) (two : mode < 2 ^ 2) (cause : Nat) :
    (s.loopMode c mode cause).get (Reg.LOOP_MODE_STATE c) = mode := by
  unfold State.loopMode
  rw [State.raise_get _ _ _ (Field.OfLoops.of (c := c)).quiet]
  exact State.get_put_same _ _ _ .ofNumbers two

section Modes
variable {s : State} {c : Fin 4} {y : Int} (due : s.loopDue c 48 = true) (unasked : s.get (Reg.LOOP_MODE_SWAP c) = 0)
  (inside : c.val < s.loops.length) (feedback : s.loopFeedback c = (0, y))
include due unasked inside feedback

/-- R299: a request for SAFE gives LOOP_SAFE at once, without slew. -/
theorem loopCapture_safe (req : s.get (Reg.LOOP_MODE_REQ c) = 0) : Acts (.loopCapture c) s fun t =>
    t.get (Reg.LOOP_STATUS_OUT c) = wrapInt 24 (s.lastStep c (s.getS (Reg.LOOP_SAFE_VALUE c))) ∧
      t.get (Reg.LOOP_MODE_STATE c) = 0 ∧ t.get (Reg.LOOP_STATUS_SLEWING c) = 0 ∧
      (t.loopAt c).edge = none ∧ (t.loopAt c).frame = none ∧ (t.loopAt c).capturedAt = s.tide := by
  have sampled := State.sampled_counted c.isLt inside y
  have wanted := (sampled.get.get _ ⟨.of (c := c), .ofNumbers⟩).trans req
  have sample := State.loopSample_safe _ y wanted
  generalize (s.count (cntLoop c 0)).sampled c y = z at sampled sample
  have value : z.lastStep c (z.getS (Reg.LOOP_SAFE_VALUE c)) = s.lastStep c (s.getS (Reg.LOOP_SAFE_VALUE c)) := by
    rw [State.lastStep_congr sampled.setting c.isLt, State.getS_congr (sampled.setting.get _ .of)]
  obtain ⟨w, out, safe, loops⟩ : ∃ w : State, (s.count (cntLoop c 0)).loopSample c y =
      w.loopOut c (s.lastStep c (s.getS (Reg.LOOP_SAFE_VALUE c))) false false ∧
      w.get (Reg.LOOP_MODE_STATE c) = 0 ∧ w.loops = z.loops := by
    by_cases mode : z.get (Reg.LOOP_MODE_STATE c) = 0
    · exact ⟨z, by rw [sample, if_pos mode, value], mode, rfl⟩
    · exact ⟨z.loopMode c 0 0, by rw [sample, if_neg mode, State.loopSafe, value], z.loopMode_state c.isLt (by decide) 0,
        (z.loopMode_kept _ _ _).loops⟩
  obtain ⟨t, ran, sent⟩ := loopCapture_sample due unasked feedback rfl out
    (by rw [(State.loopOut_kept _ _ _ _ _).loops, loops, sampled.length]; exact inside)
  refine ⟨t, ran, ?_, ?_, ?_, sent.awaits⟩
  · exact (sent.get.get _ (.of (c := c))).trans (State.loopOut_out ..)
  · exact (sent.get.get _ (.of (c := c))).trans ((State.loopOut_get _ _ _ _ _ .ofNumbers .ofNumbers .ofNumbers).trans safe)
  · exact (sent.get.get _ (.of (c := c))).trans (State.loopOut_slewing ..)

section Open
variable (mode : s.get (Reg.LOOP_MODE_STATE c) = 1) (req : s.get (Reg.LOOP_MODE_REQ c) = 1)
include mode req

/-- A sample of OPEN, from the machine with its feedback taken. -/
theorem loopCapture_open {u : Int} {slewing : Bool}
    (output : ∀ z, Sampled c y s z → z.openSample c = z.loopOut c u false slewing) :
    ∃ t, exec (.loopCapture c) s = .next t ∧ t.get (Reg.LOOP_STATUS_OUT c) = wrapInt 24 u ∧
      t.get (Reg.LOOP_STATUS_SLEWING c) = flag slewing ∧
      (t.loopAt c).edge = none ∧ (t.loopAt c).frame = none ∧ (t.loopAt c).capturedAt = s.tide := by
  have sampled := State.sampled_counted c.isLt inside y
  have sample := State.loopSample_open _ y ((sampled.get.get _ ⟨.of (c := c), .ofNumbers⟩).trans req)
    ((sampled.get.get _ ⟨.of (c := c), .ofNumbers⟩).trans mode)
  obtain ⟨t, ran, sent⟩ := loopCapture_sample due unasked feedback rfl (sample.trans (output _ sampled))
    (by rw [(State.loopOut_kept _ _ _ _ _).loops, sampled.length]; exact inside)
  exact ⟨t, ran, (sent.get.get _ (.of (c := c))).trans (State.loopOut_out ..),
    (sent.get.get _ (.of (c := c))).trans (State.loopOut_slewing ..), sent.awaits⟩

/-- R299: without slewing the output is LOOP_OPEN. -/
theorem loopCapture_openAtOnce (free : s.get (Reg.LOOP_SLEW_VALUE c) = 0 ∨ s.get (Reg.LOOP_STATUS_SLEWING c) = 0) :
    Acts (.loopCapture c) s fun t =>
      t.get (Reg.LOOP_STATUS_OUT c) = wrapInt 24 (s.lastStep c (s.getS (Reg.LOOP_OPEN_VALUE c))) ∧
      t.get (Reg.LOOP_STATUS_SLEWING c) = 0 ∧
      (t.loopAt c).edge = none ∧ (t.loopAt c).frame = none ∧ (t.loopAt c).capturedAt = s.tide := by
  refine loopCapture_open due unasked inside feedback mode req (slewing := false) fun z sampled => ?_
  have slew : z.get (Reg.LOOP_SLEW_VALUE c) = s.get (Reg.LOOP_SLEW_VALUE c) := sampled.setting.get _ .of
  have slewing : z.get (Reg.LOOP_STATUS_SLEWING c) = s.get (Reg.LOOP_STATUS_SLEWING c) :=
    sampled.get.get _ ⟨.of (c := c), .ofNumbers⟩
  rw [← State.lastStep_congr sampled.setting c.isLt, ← State.getS_congr (sampled.setting.get (Reg.LOOP_OPEN_VALUE c) .of)]
  refine if_neg ?_
  rintro ⟨on, moves⟩
  rw [State.on, slewing, decide_eq_true_eq] at on
  rw [slew] at moves
  exact free.elim (fun zero => moves (by rw [zero]; rfl)) on

/-- R299: while slewing, the output moves toward LOOP_OPEN by at most SLEW. -/
theorem loopCapture_openSlewing (ne : c.val ≠ 3)
    (slews : s.get (Reg.LOOP_SLEW_VALUE c) ≠ 0 ∧ s.get (Reg.LOOP_STATUS_SLEWING c) = 1) : Acts (.loopCapture c) s fun t =>
      t.get (Reg.LOOP_STATUS_OUT c) = wrapInt 24 (clampInt (s.getS (Reg.LOOP_OPEN_VALUE c))
        (s.getS (Reg.LOOP_STATUS_OUT c) - s.get (Reg.LOOP_SLEW_VALUE c))
        (s.getS (Reg.LOOP_STATUS_OUT c) + s.get (Reg.LOOP_SLEW_VALUE c))) ∧
      (t.loopAt c).edge = none ∧ (t.loopAt c).frame = none ∧ (t.loopAt c).capturedAt = s.tide := by
  obtain ⟨moves, on⟩ := slews
  have output : ∀ z, Sampled c y s z → z.openSample c = z.loopOut c (clampInt (s.getS (Reg.LOOP_OPEN_VALUE c))
      (s.getS (Reg.LOOP_STATUS_OUT c) - s.get (Reg.LOOP_SLEW_VALUE c))
      (s.getS (Reg.LOOP_STATUS_OUT c) + s.get (Reg.LOOP_SLEW_VALUE c))) false (decide ((s.get (Reg.LOOP_SLEW_VALUE c) : Int) <
        (s.getS (Reg.LOOP_OPEN_VALUE c) - s.getS (Reg.LOOP_STATUS_OUT c)).natAbs)) := by
    intro z sampled
    have slew : z.get (Reg.LOOP_SLEW_VALUE c) = s.get (Reg.LOOP_SLEW_VALUE c) := sampled.setting.get _ .of
    have slewing : z.get (Reg.LOOP_STATUS_SLEWING c) = s.get (Reg.LOOP_STATUS_SLEWING c) :=
      sampled.get.get _ ⟨.of (c := c), .ofNumbers⟩
    have out : z.get (Reg.LOOP_STATUS_OUT c) = s.get (Reg.LOOP_STATUS_OUT c) :=
      sampled.get.get _ ⟨.of (c := c), .ofNumbers⟩
    have on' : z.on (Reg.LOOP_STATUS_SLEWING c) = true := by rw [State.on, slewing, on]; rfl
    have moves' : (z.get (Reg.LOOP_SLEW_VALUE c) : Int) ≠ 0 := by rw [slew]; exact_mod_cast moves
    rw [← State.getS_congr (sampled.setting.get (Reg.LOOP_OPEN_VALUE c) .of), ← State.getS_congr out, ← slew]
    refine (if_pos ⟨on', moves'⟩).trans ?_
    rw [State.lastStep, if_neg ne]
  obtain ⟨t, ran, out, -, awaits⟩ := loopCapture_open due unasked inside feedback mode req output
  exact ⟨t, ran, out, awaits⟩

end Open

end Modes

/-! ### CLOSED after its first sample (R295 to R297) -/

/-- R295: s with the reference of a sample stepped. -/
def State.stepped (s : State) (c : Nat) : State := s.modLoop c fun l => { l with rr := s.nextRr c }

/-- R295: the reference without feedforward. -/
theorem State.reference_plain {s : State} {c : Nat} (plain : s.get (Reg.LOOP_SRC_REF_SRC c) = 0) :
    s.reference c = (s.stepped c, clamp24 (s.nextRr c)) := by
  unfold State.reference
  simp [State.on, plain, State.stepped, State.nextRr]

/-- R296, R297: the numbers of a sample with error e: filter output v, limits, output q0 without integration, integrator i,
output q. -/
structure Compensates (s : State) (c : Nat) (e v lo hi q0 i q : Int) : Prop where
  filter : v = s.filterOut c e
  limits : (lo, hi) = s.bankLimits c (s.get (Reg.LOOP_MODE_ACTIVE_BANK c))
  first : q0 = roundHalfUp ((s.loopAt c).integ + v) (2 ^ 24)
  integral : i = if q0 < lo ∨ hi < q0 then (s.loopAt c).integ
    else clamp48 ((s.loopAt c).integ + roundHalfUp (s.coef c 7 * e) 16)
  output : q = roundHalfUp (i + v) (2 ^ 24)

theorem Compensates.congr {s t : State} {c : Nat} {e v lo hi q0 i q : Int} (numbers : Compensates s c e v lo hi q0 i q)
    (channel : c < 4) (same : Spares (Field.Setting c) s t) (integ : (t.loopAt c).integ = (s.loopAt c).integ)
    (errs : (t.loopAt c).errs = (s.loopAt c).errs) (filt : (t.loopAt c).filt = (s.loopAt c).filt) :
    Compensates t c e v lo hi q0 i q where
  filter := numbers.filter.trans (State.filterOut_congr same channel errs filt e).symm
  limits := by
    rw [same.bank channel, State.bankLimits_congr same channel (s.get_lt _ .ofNumbers)]
    exact numbers.limits
  first := integ ▸ numbers.first
  integral := by
    rw [integ, State.coef_congr same channel (by decide)]
    exact numbers.integral
  output := numbers.output

theorem State.stepped_spares {P : Field → Prop} (s : State) (c : Nat) : Spares P s (s.stepped c) := s.modLoop_spares _

theorem State.shiftLoop_spares {P : Field → Prop} (s : State) (c : Nat) (e v i : Int) : Spares P s (s.shiftLoop c e v i) :=
  s.modLoop_spares _

/-- R296: s after a sample of an error with filter output v, integrator i, and output q before the limits. -/
def State.outputOf (s : State) (c : Nat) (e v i q lo hi : Int) : State :=
  (s.shiftLoop c e v i).loopOut c (clampInt q lo hi) (decide (clampInt q lo hi ≠ q)) false

section Later
variable {s : State} {c : Nat} (channel : c < 4) (ne : c ≠ 3) (slew : s.get (Reg.LOOP_SLEW_VALUE c) = 0)
  {y e v lo hi q0 i q : Int} (numbers : Compensates s c e v lo hi q0 i q)
include ne slew numbers

/-- R296: without a slew limit the output is the compensator's within the bank's limits. -/
theorem State.compensate_unslewed : s.compensate c e =
    if clampInt q lo hi ≠ q then (s.outputOf c e v i q lo hi).count (cntLoop c 2) else s.outputOf c e v i q lo hi := by
  obtain ⟨filter, limits, first, integral, output⟩ := numbers
  have overlaps : ∀ b, s.overlaps c b = true := fun b => by simp [State.overlaps, ne]
  have effective : s.effLimits c = (lo, hi) := (if_pos ne).trans limits.symm
  subst output integral first filter
  unfold State.compensate
  simp [overlaps, effective, slew, State.lastStep, ne, State.outputOf]

include channel

theorem State.compensate_output : Spares Field.OfLoops (s.outputOf c e v i q lo hi) (s.compensate c e) ∧
    (s.compensate c e).loops = (s.shiftLoop c e v i).loops := by
  rw [State.compensate_unslewed ne slew numbers]
  split
  · exact ⟨State.countLoop_spares channel _, State.count_loops _ _⟩
  · exact ⟨.refl, rfl⟩

end Later

/-- The channel's own state after a sample of CLOSED. -/
def LoopChan.closed (l : LoopChan) (r e v i m : Int) : LoopChan :=
  { l with rr := r, integ := i, errs := (e :: l.errs).take 3, filt := (v :: l.filt).take 3, model := m }

theorem State.closedSample_output {s : State} {c : Nat} (channel : c < 4) (inside : c < s.loops.length) (ne : c ≠ 3)
    (plain : s.get (Reg.LOOP_SRC_REF_SRC c) = 0) (slew : s.get (Reg.LOOP_SLEW_VALUE c) = 0) (sup : s.get (Reg.LOOP_SUP_N c) = 0)
    {y e v lo hi q0 i q : Int} (error : e = clamp24 (clamp24 (s.nextRr c) - y)) (numbers : Compensates s c e v lo hi q0 i q) :
    Spares Field.OfLoops ((s.stepped c).outputOf c e v i q lo hi) (s.closedSample c y false) ∧
    (∃ m, (s.closedSample c y false).loopAt c = (s.loopAt c).closed (s.nextRr c) e v i m) ∧
    (s.closedSample c y false).loops.length = s.loops.length := by
  have loop : (s.stepped c).loopAt c = _ := s.modLoop_same _ inside
  have length : (s.stepped c).loops.length = s.loops.length := s.modLoop_length _
  have same : Spares (Field.Setting c) s (s.stepped c) := s.stepped_spares c
  have later : s.closedSample c y false = ((s.stepped c).compensate c e).supervise c (clamp24 (s.nextRr c)) y := by
    rw [State.closedSample_later, State.reference_plain plain, error]
  obtain ⟨regs, loops⟩ := State.compensate_output channel ne ((same.get _ .of).trans slew)
    (numbers.congr channel same (by rw [loop]) (by rw [loop]) (by rw [loop]))
  have off := (((s.stepped c).compensate_spares channel e).get _ .of).trans ((same.get (Reg.LOOP_SUP_N c) .of).trans sup)
  obtain ⟨m, moved⟩ := State.supervise_off off (clamp24 (s.nextRr c)) y
  have shifted : ((s.stepped c).compensate c e).loops.length = s.loops.length := by
    rw [loops, State.shiftLoop, State.modLoop_length, length]
  rw [later, moved]
  refine ⟨.of (State.modLoop_spares _ _) regs, ⟨m, ?_⟩, by rw [State.modLoop_length, shifted]⟩
  rw [State.modLoop_same _ _ (shifted ▸ inside), State.loopAt_congr _ loops, State.shiftLoop,
    State.modLoop_same _ _ (length ▸ inside), loop]
  rfl

/-! ### The first sample of CLOSED (R299) -/

theorem wrapInt_sext {n x : Nat} (lt : x < 2 ^ n) : wrapInt n (sext n x) = x := by
  have low : Int.emod (x : Int) (2 ^ n) = x := Int.emod_eq_of_lt (by positivity) (by exact_mod_cast lt)
  have high : Int.emod ((x : Int) - 2 ^ n) (2 ^ n) = x := (Int.sub_emod_right _ _).trans low
  unfold wrapInt sext
  rw [Nat.mod_eq_of_lt lt]
  split
  · rw [low, Int.toNat_natCast]
  · rw [high, Int.toNat_natCast]

/-- R296: the filter from cleared histories. -/
theorem State.filterOut_cleared {s : State} {c : Nat} (errs : (s.loopAt c).errs = [0, 0, 0])
    (filt : (s.loopAt c).filt = [0, 0, 0]) (e : Int) : s.filterOut c e = clamp48 (roundHalfUp (2 ^ 24 * (s.coef c 0 * e)) (2 ^ 28)) := by
  simp [State.filterOut, errs, filt]

/-- R299: a preload that 48 bits hold is taken. -/
theorem State.closeLoop_fits {s : State} {c : Nat} {e v i : Int} (ne : c ≠ 3) (filter : s.filterOut c e = v)
    (preload : i = s.getS (Reg.LOOP_STATUS_OUT c) * 2 ^ 24 - v) (fits : clamp48 i = i) :
    s.closeLoop c e = (s.shiftLoop c e v i).loopOut c (s.getS (Reg.LOOP_STATUS_OUT c)) false true := by
  subst filter preload
  unfold State.closeLoop
  dsimp only
  rw [if_pos fits, State.lastStep, if_neg ne]

section Entry
variable {s : State} {c : Nat} {y e v i : Int}

/-- R299: s at its first sample of CLOSED, with the reference stepped. -/
def State.entered (s : State) (c : Nat) (y : Int) : State := (s.closedEntry c y).stepped c

theorem State.entered_spares : Spares (Reg.LOOP_STATUS_SUP_FAIL c).Apart s (s.entered c y) :=
  .of (State.modLoop_spares _ _) (.of (State.modLoop_spares _ _) (s.put_spares 0 fun _ => id))

theorem State.entered_fail : (s.entered c y).get (Reg.LOOP_STATUS_SUP_FAIL c) = 0 :=
  ((State.modLoop_spares (P := fun _ => True) (s.closedEntry c y) _).get _ trivial).trans
    (((State.modLoop_spares (P := fun _ => True) (s.put _ 0) _).get _ trivial).trans
      (s.get_put_same _ 0 .ofNumbers (show 0 < 2 ^ 1 by decide)))

theorem State.entered_length : (s.entered c y).loops.length = s.loops.length :=
  (State.modLoop_length _ _).trans (State.modLoop_length (s.put _ 0) _)

theorem State.entered_cleared (inside : c < s.loops.length) :
    ((s.entered c y).loopAt c).errs = [0, 0, 0] ∧ ((s.entered c y).loopAt c).filt = [0, 0, 0] := by
  have entered : (s.closedEntry c y).loopAt c = _ := State.modLoop_same (s.put (Reg.LOOP_STATUS_SUP_FAIL c) 0) _ inside
  have length : (s.closedEntry c y).loops.length = s.loops.length := State.modLoop_length (s.put (Reg.LOOP_STATUS_SUP_FAIL c) 0) _
  rw [State.entered, State.stepped, State.modLoop_same _ _ (length ▸ inside), entered]
  exact ⟨rfl, rfl⟩

/-- R299: what the first sample of CLOSED leaves. -/
theorem State.closedSample_entry (channel : c < 4) (inside : c < s.loops.length) (ne : c ≠ 3)
    (plain : s.get (Reg.LOOP_SRC_REF_SRC c) = 0) (step : s.get (Reg.LOOP_REF_STEP_STEP c) = 0)
    (sup : s.get (Reg.LOOP_SUP_N c) = 0) (error : e = clamp24 (clamp24 (s.getS (Reg.LOOP_REF_TARGET c)) - y))
    (filter : v = clamp48 (roundHalfUp (2 ^ 24 * (s.coef c 0 * e)) (2 ^ 28)))
    (preload : i = s.getS (Reg.LOOP_STATUS_OUT c) * 2 ^ 24 - v) (fits : clamp48 i = i) :
    Spares Field.OfLoops (((s.entered c y).shiftLoop c e v i).loopOut c (s.getS (Reg.LOOP_STATUS_OUT c)) false true)
      (s.closedSample c y true) ∧
    ((s.closedSample c y true).loopAt c).integ = i ∧ (s.closedSample c y true).loops.length = s.loops.length := by
  have begun := s.closedEntry_spares (c := c) y
  have rr : (s.closedEntry c y).nextRr c = s.getS (Reg.LOOP_REF_TARGET c) := by
    rw [State.nextRr, begun.get _ .of, if_pos step, State.getS_congr (begun.get _ .of)]
  have out : (s.entered c y).getS (Reg.LOOP_STATUS_OUT c) = s.getS (Reg.LOOP_STATUS_OUT c) :=
    State.getS_congr (State.entered_spares.get _ .ofNumbers)
  have same : Spares (Field.Setting c) s (s.entered c y) := State.entered_spares.mono fun _ setting =>
    setting.apart _ (by simp [sampleFields])
  obtain ⟨errs, filt⟩ := State.entered_cleared (y := y) inside
  have filtered : (s.entered c y).filterOut c e = v := by
    rw [State.filterOut_cleared errs filt, State.coef_congr same channel (by decide), filter]
  have first : s.closedSample c y true =
      (((s.entered c y).shiftLoop c e v i).loopOut c (s.getS (Reg.LOOP_STATUS_OUT c)) false true).supervise c
        (clamp24 (s.getS (Reg.LOOP_REF_TARGET c))) y := by
    rw [State.closedSample_first, State.reference_plain ((begun.get _ .of).trans plain)]
    dsimp only
    rw [rr, ← error, ← State.entered, State.closeLoop_fits ne filtered (by rw [out]; exact preload) fits, out]
  have supervised : (((s.entered c y).shiftLoop c e v i).loopOut c (s.getS (Reg.LOOP_STATUS_OUT c)) false true).get
      (Reg.LOOP_SUP_N c) = 0 :=
    ((State.loopOut_spares _ _ _ _).get _ .of).trans ((same.get _ .of).trans sup)
  obtain ⟨m, moved⟩ := State.supervise_off supervised (clamp24 (s.getS (Reg.LOOP_REF_TARGET c))) y
  have shifted : ((s.entered c y).shiftLoop c e v i).loops.length = s.loops.length :=
    (State.modLoop_length _ _).trans State.entered_length
  have length : (((s.entered c y).shiftLoop c e v i).loopOut c (s.getS (Reg.LOOP_STATUS_OUT c)) false true).loops.length =
      s.loops.length := by rw [(State.loopOut_kept _ _ _ _ _).loops, shifted]
  rw [first, moved]
  refine ⟨State.modLoop_spares _ _, ?_, (State.modLoop_length _ _).trans length⟩
  rw [State.modLoop_same _ _ (length ▸ inside), State.loopOut_loopAt, State.shiftLoop,
    State.modLoop_same _ _ (by rw [State.entered_length]; exact inside)]

end Entry

/-! ### A missed sample (R292) -/

section Missed
variable {s : State} {c : Nat}

/-- What a missed sample leaves before it is judged: SENSOR_OK falls, and the miss is counted and reported. -/
structure Missed (c : Nat) (s w : State) : Prop where
  get : Spares (fun g => g.OfLoops ∧ (Reg.LOOP_STATUS_SENSOR_OK c).Apart g) s w
  lost : w.get (Reg.LOOP_STATUS_SENSOR_OK c) = 0
  loops : w.loops = s.loops

/-- R292: in CLOSED, below MISS_LIMIT, a missed sample is a report, and one more miss. -/
theorem State.loopMissed_held (channel : c < 4) (mode : s.get (Reg.LOOP_MODE_STATE c) = 2) (req : s.get (Reg.LOOP_MODE_REQ c) = 2)
    (inside : c < s.loops.length) (few : (s.loopAt c).misses + 1 < s.get (Reg.LOOP_SRC_MISS_LIMIT c)) (miss : Nat) :
    ∃ w, s.loopMissed c miss = w.modLoop c (fun l => { l with misses := l.misses + 1 }) ∧ Missed c s w := by
  unfold State.loopMissed
  extract_lets first s₁ s₂ want s₃
  have reported : Noted s₁ s₂ := .ite (raise_noted _ _ _) (.rfl' s₁)
  have counted := (s.put (Reg.LOOP_STATUS_SENSOR_OK c) 0).countLoop_spares channel (k := 1)
  have noted : Spares Field.OfLoops (s.put (Reg.LOOP_STATUS_SENSOR_OK c) 0) s₂ :=
    .of (reported.spares fun _ => Field.OfLoops.quiet) counted
  have missed : Missed c s s₂ :=
    { get := .of (noted.mono fun _ kind => kind.1) (s.put_spares 0 fun _ kind => kind.2)
      lost := (noted.get _ (.of (c := c))).trans (s.get_put_same _ 0 .ofNumbers (show 0 < 2 ^ 1 by decide))
      loops := reported.loops.trans (State.count_loops _ _) }
  have mode' : s₂.get (Reg.LOOP_MODE_STATE c) = 2 := (missed.get.get _ ⟨.of (c := c), .ofNumbers⟩).trans mode
  have want' : want = 2 := (missed.get.get _ ⟨.of (c := c), .ofNumbers⟩).trans req
  have limit : s₃.get (Reg.LOOP_SRC_MISS_LIMIT c) = s.get (Reg.LOOP_SRC_MISS_LIMIT c) :=
    ((s₂.modLoop_spares (P := Field.OfLoops) _).get _ (.of (c := c))).trans (missed.get.get _ ⟨.of (c := c), .ofNumbers⟩)
  have misses : (s₃.loopAt c).misses = (s.loopAt c).misses + 1 := by
    rw [s₂.modLoop_same _ (missed.loops ▸ inside), State.loopAt_congr _ missed.loops]
  refine ⟨s₂, ?_, missed⟩
  rw [if_neg (by rw [want', mode']; simp), if_neg (by rw [want', mode']; simp), if_pos mode', if_neg (by omega)]

end Missed

/-! ### A swap of the banks (R298) -/

section Swap
variable {s t : State} {c b : Nat}

theorem State.swapFault_congr (limits : t.bankLimits c b = s.bankLimits c b) (intensity : t.intensity = s.intensity) :
    t.swapFault c b = s.swapFault c b := by
  unfold State.swapFault State.overlaps
  rw [limits, intensity]

/-- R298: a swap whose limits hold is done. -/
theorem State.swapBanks_done (channel : c < 4) (asked : s.get (Reg.LOOP_MODE_SWAP c) = 1)
    (sound : s.swapFault c (1 - s.get (Reg.LOOP_MODE_ACTIVE_BANK c)) = 0) :
    (s.swapBanks c).get (Reg.LOOP_MODE_SWAP c) = 0 ∧
      (s.swapBanks c).get (Reg.LOOP_MODE_ACTIVE_BANK c) = 1 - s.get (Reg.LOOP_MODE_ACTIVE_BANK c) := by
  generalize shadow : 1 - s.get (Reg.LOOP_MODE_ACTIVE_BANK c) = b at sound ⊢
  have two : b < 2 := by omega
  have cleared : (s.put (Reg.LOOP_MODE_SWAP c) 0).swapFault c b = 0 := by
    refine (State.swapFault_congr ?_ ?_).trans sound
    · rw [State.bankLimits, State.bankLimits, State.getS_congr (s.get_put_apart 0 .ofNumbers),
        State.getS_congr (s.get_put_apart 0 .ofNumbers)]
    · rw [State.intensity, State.intensity, State.getS_congr (s.get_put_apart 0 .ofNumbers),
        State.getS_congr (s.get_put_apart 0 .ofNumbers)]
  have swapped : s.swapBanks c = ((s.put (Reg.LOOP_MODE_SWAP c) 0).put (Reg.LOOP_MODE_ACTIVE_BANK c) b).raise 0x0905
      ((s.put (Reg.LOOP_MODE_SWAP c) 0).loopFields c ++ [(4, b)]) := by
    unfold State.swapBanks
    rw [if_neg (by simp [State.on, asked])]
    dsimp only
    rw [shadow, cleared]
    rfl
  rw [swapped, State.raise_get _ _ _ (Field.OfLoops.of (c := c)).quiet, State.raise_get _ _ _ (Field.OfLoops.of (c := c)).quiet,
    State.get_put_apart _ b .ofNumbers]
  exact ⟨s.get_put_same _ 0 .ofNumbers (show 0 < 2 ^ 1 by decide), State.get_put_same _ _ b .ofNumbers two⟩

end Swap

/-! ### Captures (R290 to R299) -/

section Captures
variable {s : State} {c : Fin 4} {y : Int} (due : s.loopDue c 48 = true)
include due

/-- R298: at a capture the banks are exchanged, whatever the sample is. -/
theorem loopCapture_swap (asked : s.get (Reg.LOOP_MODE_SWAP c) = 1)
    (sound : s.swapFault c (1 - s.get (Reg.LOOP_MODE_ACTIVE_BANK c)) = 0) : Acts (.loopCapture c) s fun t =>
      t.get (Reg.LOOP_MODE_SWAP c) = 0 ∧ t.get (Reg.LOOP_MODE_ACTIVE_BANK c) = 1 - s.get (Reg.LOOP_MODE_ACTIVE_BANK c) := by
  have counted := (s.countLoop_spares c.isLt (k := 0)).setting (c := c)
  have bank := counted.bank c.isLt
  have intensity : (s.count (cntLoop c 0)).intensity = s.intensity := by
    rw [State.intensity, State.intensity, State.getS_congr (counted.get _ (intensity_setting c.isLt (.inl rfl))),
      State.getS_congr (counted.get _ (intensity_setting c.isLt (.inr rfl)))]
  obtain ⟨swap, active⟩ := State.swapBanks_done (s := s.count (cntLoop c 0)) c.isLt ((counted.get _ .of).trans asked)
    (by rw [bank, State.swapFault_congr (State.bankLimits_congr counted c.isLt (by omega)) intensity]; exact sound)
  rw [bank] at active
  refine ⟨_, execLoopCapture_due due, ?_⟩
  have sampled : Spares (Field.Setting c) ((s.count (cntLoop c 0)).swapBanks c)
      (if (s.loopFeedback c).1 = 0 then ((s.count (cntLoop c 0)).swapBanks c).loopSample c (s.loopFeedback c).2
        else ((s.count (cntLoop c 0)).swapBanks c).loopMissed c (s.loopFeedback c).1) :=
    .ite (State.loopSample_spares c.isLt _ _) (State.loopMissed_spares c.isLt _ _)
  have after := Spares.of (State.sendSample_spares _ c (decide ((s.loopFeedback c).1 ≠ 0))).setting sampled
  exact ⟨(after.get _ .of).trans swap, (after.get _ .of).trans active⟩

variable (unasked : s.get (Reg.LOOP_MODE_SWAP c) = 0) (inside : c.val < s.loops.length)
include unasked inside

/-- R292: a missed sample holds the output and every state of the compensator. -/
theorem loopCapture_missed {m : Nat} (mode : s.get (Reg.LOOP_MODE_STATE c) = 2) (req : s.get (Reg.LOOP_MODE_REQ c) = 2)
    (feedback : s.loopFeedback c = (m, y)) (miss : m ≠ 0)
    (few : (s.loopAt c).misses + 1 < s.get (Reg.LOOP_SRC_MISS_LIMIT c)) : Acts (.loopCapture c) s fun t =>
      t.get (Reg.LOOP_STATUS_OUT c) = s.get (Reg.LOOP_STATUS_OUT c) ∧ t.get (Reg.LOOP_STATUS_SENSOR_OK c) = 0 ∧
      (t.loopAt c).misses = (s.loopAt c).misses + 1 ∧ (t.loopAt c).integ = (s.loopAt c).integ ∧
      (t.loopAt c).errs = (s.loopAt c).errs ∧ (t.loopAt c).filt = (s.loopAt c).filt ∧
      (t.loopAt c).model = (s.loopAt c).model ∧
      (t.loopAt c).edge = none ∧ (t.loopAt c).frame = none ∧ (t.loopAt c).capturedAt = s.tide := by
  have counted := s.countLoop_spares c.isLt (k := 0)
  have same := s.count_loops (cntLoop c 0)
  obtain ⟨w, held, missed⟩ := State.loopMissed_held c.isLt ((counted.get _ (.of (c := c))).trans mode)
    ((counted.get _ (.of (c := c))).trans req) (same ▸ inside)
    (by rw [State.loopAt_congr s same, counted.get _ (.of (c := c))]; exact few) m
  have loops : w.loops = s.loops := missed.loops.trans same
  obtain ⟨t, ran, sent⟩ := loopCapture_miss due unasked feedback miss held
    (by rw [State.modLoop_length, loops]; exact inside)
  have regs := Spares.of sent.get (w.modLoop_spares _)
  obtain ⟨bytes, loop⟩ := sent.loop
  rw [State.modLoop_same _ _ (loops ▸ inside), State.loopAt_congr s loops] at loop
  refine ⟨t, ran, ?_, (regs.get _ (.of (c := c))).trans missed.lost, ?_⟩
  · exact (regs.get _ (.of (c := c))).trans ((missed.get.get _ ⟨.of (c := c), .ofNumbers⟩).trans (counted.get _ (.of (c := c))))
  · rw [loop]
    exact ⟨rfl, rfl, rfl, rfl, rfl, rfl, rfl, rfl⟩

variable (feedback : s.loopFeedback c = (0, y)) (req : s.get (Reg.LOOP_MODE_REQ c) = 2) (ne : c.val ≠ 3)
  (plain : s.get (Reg.LOOP_SRC_REF_SRC c) = 0) (sup : s.get (Reg.LOOP_SUP_N c) = 0)
include feedback req ne plain sup

/-- R296, R297: in CLOSED the output is the compensator's. -/
theorem loopCapture_closed (mode : s.get (Reg.LOOP_MODE_STATE c) = 2) (slew : s.get (Reg.LOOP_SLEW_VALUE c) = 0)
    {e v lo hi q0 i q : Int} (error : e = clamp24 (clamp24 (s.nextRr c) - y)) (numbers : Compensates s c e v lo hi q0 i q) :
    Acts (.loopCapture c) s fun t => t.get (Reg.LOOP_STATUS_OUT c) = wrapInt 24 (clampInt q lo hi) ∧
      t.get (Reg.LOOP_STATUS_SAT c) = flag (decide (clampInt q lo hi ≠ q)) ∧ (t.loopAt c).integ = i ∧
      (t.loopAt c).errs = (e :: (s.loopAt c).errs).take 3 ∧ (t.loopAt c).filt = (v :: (s.loopAt c).filt).take 3 ∧
      t.get (Reg.LOOP_STATUS_SENSOR_OK c) = 1 ∧
      (t.loopAt c).edge = none ∧ (t.loopAt c).frame = none ∧ (t.loopAt c).capturedAt = s.tide := by
  have sampled := State.sampled_counted c.isLt inside y
  have sample := (State.loopSample_closed _ y ((sampled.get.get _ ⟨.of (c := c), .ofNumbers⟩).trans req)).trans
    (if_pos ((sampled.get.get _ ⟨.of (c := c), .ofNumbers⟩).trans mode))
  generalize (s.count (cntLoop c 0)).sampled c y = z at sampled sample
  have same := sampled.setting
  obtain ⟨eps, taken⟩ := sampled.loop
  have rr : z.nextRr c = s.nextRr c := State.nextRr_congr same c.isLt (by rw [taken])
  obtain ⟨regs, ⟨m, closed⟩, length⟩ := State.closedSample_output (e := e) c.isLt (sampled.length ▸ inside) ne
    ((same.get _ .of).trans plain) ((same.get _ .of).trans slew) ((same.get _ .of).trans sup) (by rw [rr]; exact error)
    (numbers.congr c.isLt same (by rw [taken]) (by rw [taken]) (by rw [taken]))
  obtain ⟨t, ran, sent⟩ := loopCapture_sample due unasked feedback rfl sample (by rw [length, sampled.length]; exact inside)
  have shown := Spares.of sent.get regs
  obtain ⟨bytes, loop⟩ := sent.loop
  rw [closed, taken] at loop
  have ok : ((z.stepped c).shiftLoop c e v i).get (Reg.LOOP_STATUS_SENSOR_OK c) = 1 :=
    ((Spares.of (State.shiftLoop_spares _ c e v i) (z.stepped_spares (P := fun _ => True) c)).get _ trivial).trans sampled.ok
  refine ⟨t, ran, (shown.get _ (.of (c := c))).trans (State.loopOut_out ..),
    (shown.get _ (.of (c := c))).trans (State.loopOut_sat ..), ?_, ?_, ?_, ?_, sent.awaits⟩
  · rw [loop]; rfl
  · rw [loop]; rfl
  · rw [loop]; rfl
  · exact (shown.get _ (.of (c := c))).trans ((State.loopOut_get _ _ _ _ _ .ofNumbers .ofNumbers .ofNumbers).trans ok)

/-- R299: the first sample of CLOSED keeps the output and preloads the integrator. -/
theorem loopCapture_entry (mode : s.get (Reg.LOOP_MODE_STATE c) ≠ 2) (step : s.get (Reg.LOOP_REF_STEP_STEP c) = 0)
    {e v i : Int} (error : e = clamp24 (clamp24 (s.getS (Reg.LOOP_REF_TARGET c)) - y))
    (filter : v = clamp48 (roundHalfUp (2 ^ 24 * (s.coef c 0 * e)) (2 ^ 28)))
    (preload : i = s.getS (Reg.LOOP_STATUS_OUT c) * 2 ^ 24 - v) (fits : clamp48 i = i) : Acts (.loopCapture c) s fun t =>
      t.get (Reg.LOOP_STATUS_OUT c) = s.get (Reg.LOOP_STATUS_OUT c) ∧ t.get (Reg.LOOP_MODE_STATE c) = 2 ∧
      t.get (Reg.LOOP_STATUS_SLEWING c) = 1 ∧ (t.loopAt c).integ = i ∧ t.get (Reg.LOOP_STATUS_SUP_FAIL c) = 0 ∧
      (t.loopAt c).edge = none ∧ (t.loopAt c).frame = none ∧ (t.loopAt c).capturedAt = s.tide := by
  have sampled := State.sampled_counted c.isLt inside y
  have sample := (State.loopSample_closed _ y ((sampled.get.get _ ⟨.of (c := c), .ofNumbers⟩).trans req)).trans
    (if_neg ((sampled.get.get _ ⟨.of (c := c), .ofNumbers⟩).trans_ne mode))
  generalize (s.count (cntLoop c 0)).sampled c y = z at sampled sample
  have changed := z.loopMode_spares (c := c) 2 0
  have same : Spares (Field.Setting c) s (z.loopMode c 2 0) := .of changed sampled.setting
  have closed := z.loopMode_state c.isLt (by decide : 2 < 2 ^ 2) 0
  have loops := (z.loopMode_kept c 2 0).loops
  have out : (z.loopMode c 2 0).get (Reg.LOOP_STATUS_OUT c) = s.get (Reg.LOOP_STATUS_OUT c) := by
    refine Eq.trans ?_ (sampled.get.get _ ⟨.of (c := c), .ofNumbers⟩)
    rw [State.loopMode, State.raise_get _ _ _ (Field.OfLoops.of (c := c)).quiet, State.get_put_apart _ _ .ofNumbers]
  generalize z.loopMode c 2 0 = w at sample same closed loops out
  have target : w.getS (Reg.LOOP_REF_TARGET c) = s.getS (Reg.LOOP_REF_TARGET c) := State.getS_congr (same.get _ .of)
  have outS : w.getS (Reg.LOOP_STATUS_OUT c) = s.getS (Reg.LOOP_STATUS_OUT c) := State.getS_congr out
  have inside' : c.val < w.loops.length := by rw [loops, sampled.length]; exact inside
  obtain ⟨regs, integ, length⟩ := State.closedSample_entry (e := e) (v := v) (i := i) c.isLt inside' ne
    ((same.get _ .of).trans plain) ((same.get _ .of).trans step) ((same.get _ .of).trans sup) (by rw [target]; exact error)
    (by rw [State.coef_congr same c.isLt (by decide)]; exact filter) (by rw [outS]; exact preload) fits
  obtain ⟨t, ran, sent⟩ := loopCapture_sample due unasked feedback rfl sample (length ▸ inside')
  have shown := Spares.of sent.get regs
  have stays : ∀ g : Field, g.OfLoops → (Reg.LOOP_STATUS_OUT c).Apart g → (Reg.LOOP_STATUS_SAT c).Apart g →
      (Reg.LOOP_STATUS_SLEWING c).Apart g → t.get g = (w.entered c y).get g := fun g loops a b d =>
    (shown.get g loops).trans ((State.loopOut_get _ _ _ _ _ a b d).trans
      ((State.shiftLoop_spares (P := Field.OfLoops) _ c e v i).get g loops))
  refine ⟨t, ran, ?_, ?_, (shown.get _ (.of (c := c))).trans (State.loopOut_slewing ..), ?_, ?_, sent.awaits⟩
  · refine (shown.get _ (.of (c := c))).trans ((State.loopOut_out ..).trans ?_)
    rw [outS]
    exact wrapInt_sext (s.get_lt _ .ofNumbers)
  · exact (stays _ (.of (c := c)) .ofNumbers .ofNumbers .ofNumbers).trans
      ((State.entered_spares.get _ .ofNumbers).trans closed)
  · obtain ⟨bytes, loop⟩ := sent.loop
    rw [loop]
    exact integ
  · exact (stays _ (.of (c := c)) .ofNumbers .ofNumbers .ofNumbers).trans State.entered_fail

end Captures

/-! ### The sensor ports (R291) -/

theorem snsTrigger_edge {s : State} {c : Fin 4} (port : s.get (Reg.LOOP_SRC_FB_SRC c) < 4)
    (due : s.loopDue c (48 + s.get (Reg.LOOP_SRC_TRIG_LEAD c)) = true) (inside : c.val < s.loops.length) :
    Acts (.snsTrigger c) s fun t => t.loopAt c = { s.loopAt c with edge := some s.tide, frame := none } ∧
      SameBut [.loops] s t ∧ ∀ d, d ≠ c.val → t.loopAt d = s.loopAt d :=
  ⟨_, if_pos ⟨port, due⟩, s.modLoop_same _ inside, (s.modLoop_kept _ _).eq, fun _ apart => s.modLoop_other _ apart⟩

/-- R291: a frame answers the one edge that awaits it. -/
theorem execSensorFrame_single {s : State} {k : Fin 4} {c b : Nat} (single : s.awaiting k = [(c, b)]) (frame : List Byte) :
    exec (.sensorFrame k frame) s = .next (s.modLoop c fun x => { x with frame := some (s.tide, frame) }) := by
  show execSensorFrame k frame s = _
  unfold execSensorFrame
  simp [single]

/-- Settles O29: each clause is the capture of its mode; a capture that is not due leaves the machine. -/
theorem loopSamples : Obligations.loop_samples := by
  unfold Obligations.loop_samples
  intro s
  refine ⟨?trigger, ?frame, ?closed, ?entry, ?safe, ?opened, ?slewing, ?missed, ?swap, ?idle⟩
  case trigger => exact fun c port due inside => snsTrigger_edge port due inside
  case frame =>
    intro k frame c b single inside
    exact ⟨_, execSensorFrame_single single frame, s.modLoop_same _ inside, (s.modLoop_kept _ _).eq,
      fun _ apart => s.modLoop_other _ apart⟩
  case closed =>
    intro c y e v i q0 q lo hi r due unasked inside mode req feedback ne plain slew sup ref error filter limits first integral
      output
    subst ref
    exact loopCapture_closed due unasked inside feedback req ne plain sup mode slew error
      ⟨filter, limits, first, integral, output⟩
  case entry =>
    intro c y e v due unasked inside mode req feedback ne plain step sup error filter fits
    exact loopCapture_entry due unasked inside feedback req ne plain sup mode step error filter rfl fits
  case safe => exact fun c y due unasked inside req feedback => loopCapture_safe due unasked inside feedback req
  case opened =>
    exact fun c y due unasked inside mode req feedback free => loopCapture_openAtOnce due unasked inside feedback mode req free
  case slewing =>
    exact fun c y due unasked inside mode req feedback ne slews =>
      loopCapture_openSlewing due unasked inside feedback mode req ne slews
  case missed =>
    exact fun c m y due unasked inside mode req feedback miss few =>
      loopCapture_missed due unasked inside mode req feedback miss few
  case swap => exact fun c m y due asked _ sound => loopCapture_swap due asked sound
  case idle => exact fun c notDue => ⟨s, if_pos (by simp [notDue]), rfl⟩

end Sys2Proof.Machine
end

section
/-! PROOFS. Statements on the exposure sequencing chapter (spec/13_exposure_sequencing.md): the set-ups that strips hold through a
resume. -/
namespace Sys2Proof.Machine

set_option Elab.async false

/-! ### The set-ups that strips hold (R49, R319, R320) -/

/-- Each strip of the headbox by its record, with the set-up that it has latched. -/
def State.setups (s : State) : List (Nat × Option RegFile) := s.box.strips.map fun st => (st.slot, st.latched)

/-- The set-up of a record is that of its strip. -/
theorem State.latched_of_setups (s : State) (k : Nat) :
    (s.stripAt k).map (·.latched) = (s.setups.find? fun p => decide (p.1 = k)).map (·.2) := by
  rw [State.setups, List.find?_map, Option.map_map]
  rfl

/-- From s to t, every strip holds the set-up that it has latched. -/
structure Holds (s t : State) : Prop where
  setups : t.setups = s.setups

section Holding
variable {P : List Part} {s t u : State}

theorem Holds.refl : Holds s s := ⟨rfl⟩

/-- One operation after another. -/
theorem Holds.of (k : Holds t u) (h : Holds s t) : Holds s u := ⟨k.setups.trans h.setups⟩

theorem Holds.ite {c : Prop} [Decidable c] (h : Holds s t) (k : Holds s u) : Holds s (if c then t else u) := by
  split
  · exact h
  · exact k

theorem Holds.fold {α : Type} {f : State → α → State} (each : ∀ x a, Holds x (f x a)) (l : List α) : Holds s (l.foldl f s) :=
  List.foldlRecOn l f (motive := Holds s) .refl fun x held a _ => .of (each x a) held

/-- One operation, and then a change of other parts than the headbox. -/
theorem Holds.upd (h : Holds s t) (box : u.box = t.box := by rfl) : Holds s u :=
  .of ⟨by rw [State.setups, State.setups, box]⟩ h

theorem Kept.holds (k : Kept P s t) (box : Part.isIn .box P = false := by decide) : Holds s t := .upd .refl (k.box box)

/-- A change of a strip that is neither of its record nor of its set-up. -/
theorem State.modStrip_holds (s : State) (k : Nat) {f : Strip → Strip}
    (same : ∀ x, (f x).slot = x.slot ∧ (f x).latched = x.latched := by exact fun _ => ⟨rfl, rfl⟩) :
    Holds s (s.modStrip k f) := by
  refine ⟨?_⟩
  show ((s.box.strips.map fun st => if st.slot = k then f st else st).map fun st => (st.slot, st.latched)) = s.setups
  rw [List.map_map]
  refine List.map_congr_left fun st _ => ?_
  show ((if st.slot = k then f st else st).slot, (if st.slot = k then f st else st).latched) = _
  split
  · rw [(same st).1, (same st).2]
  · rfl

end Holding

section Flooding
variable (s : State)

theorem State.addBarrier_holds (slot : Nat) (r : Int) (cause : Nat) : Holds s (s.addBarrier slot r cause) :=
  s.modStrip_holds slot fun x => by
    split
    · exact ⟨rfl, rfl⟩
    · exact ⟨rfl, rfl⟩

theorem State.planInterval_holds (slot : Nat) (r : Int) : Holds s (s.planInterval slot r) := by
  unfold State.planInterval
  extract_lets others old lowered
  split
  · exact .refl
  · split
    extract_lets lowered' plan planned counted traced near told freed
    have sent : Holds s told :=
      .of (.ite .refl (.ite (State.sendAll_kept _ _ _).holds (State.sendAll_kept _ _ _).holds))
        (.of (State.trace_kept _ _ _).holds (.of (State.count_kept _ _).holds (.upd .refl)))
    have cleared : Holds s freed := .of (State.modStrip_holds _ _) sent
    exact .ite (.of (State.addBarrier_holds _ _ _ _) (.of (State.raise_kept _ _ _).holds cleared)) cleared

theorem State.replan_holds : Holds s s.replan :=
  .fold (fun x (p : IntervalPlan) => x.planInterval_holds p.slot p.r) _

theorem State.linkLimit_holds : Holds s s.linkLimit := by
  unfold State.linkLimit
  extract_lets _ _ _ new old limited
  have shown : Holds s limited := .of (State.raise_kept _ _ _).holds (State.put_kept _ _ _).holds
  exact .ite .refl (.ite .refl (.ite (.of (State.replan_holds _) shown) shown))

theorem State.judgeSeams_holds (slot : Nat) : Holds s (s.judgeSeams slot) := by
  unfold State.judgeSeams
  split
  · exact .refl
  · split
    · exact .refl
    · exact .of (.fold (fun _ _ => (State.raise_kept _ _ _).holds) _) (s.modStrip_holds slot)

theorem State.demandAgain_holds (slot : Nat) : Holds s (s.demandAgain slot) := by
  unfold State.demandAgain
  split
  · exact .refl
  · extract_lets demanded
    have held : Holds s demanded := .fold (fun x m => (x.setDemand_kept _ _ _).holds) _
    exact .ite held (.of (State.replan_holds _) held)

/-- R319, R320: a resume passes through FLOOD with the set-ups that the strips hold. -/
theorem State.enterFlood_holds (slot : Nat) (ta te : Int) : Holds s (s.enterFlood slot ta te true) := by
  unfold State.enterFlood
  split
  · exact .refl
  · extract_lets latched felt held seq tid flooded judged shown moved told entered
    have planned : Holds s judged :=
      .of (State.judgeSeams_holds _ _) (.of (State.linkLimit_holds _) (.of (State.demandAgain_holds _ _) (.upd .refl)))
    have travels : Holds shown moved := by
      unfold moved
      split
      · exact .ite .refl (State.moveTo_kept _ _ _).holds
      · exact .refl
    have begun : Holds moved entered := .of (State.raise_kept _ _ _).holds (State.enter_kept _ _).holds
    exact .of (State.tellSlaves_kept _ _).holds (.of begun (.of travels (.of (State.puts_kept _ _).holds planned)))

theorem State.beginResume_holds (st : Strip) (ta te : Int) : Holds s (s.beginResume st ta te) := by
  unfold State.beginResume
  extract_lets done last settled asked
  have same : Holds s settled := s.modStrip_holds _
  exact .of (State.enterFlood_holds _ _ _ _) (.upd same)

end Flooding

/-! ### A resume whose conditions hold (R319) -/

/-- R319, R320: a resume that is not refused and waits for nothing begins from t_a to t_e. -/
theorem execResumeStart_begins {s : State} {st : Strip} {ta te last : Int} (running : s.resetting = false)
    (isOpen : s.openStrip = some st) (slack : s.get Reg.EXP_STATE_STATE = 1 ∨ s.get Reg.EXP_STATE_STATE = 2)
    (allowed : s.resumeRefusal st = none) (closed : s.recordsOpen = false) (sound : s.doneFaulty st = none)
    (span : s.resumeSpan st (s.doneAfter st) = (ta, te, last)) (met : s.resumeBits st ta = 0) (alone : s.readyPorts = [])
    (peers : s.peerBits = 0) (master : s.on Reg.CSC_STATUS_SLAVE = false) :
    exec .resumeStart s = .next (s.beginResume st ta te) := by
  have untold : ∀ bits l, s.sendStatus bits l = s := fun bits l => if_pos (by rw [master]; exact Bool.false_ne_true)
  have own : s.spanOfAll (ta, te, last) = (ta, te, last) := by rw [State.spanOfAll, alone]; rfl
  have begins : s.resumeStart st = s.beginResume st ta te := by
    simp only [State.resumeStart, allowed, closed, sound, span, own, met, untold, peers, master, Nat.or_self,
      show bitAt 0 7 = false from rfl, Bool.false_eq_true, false_and, ne_eq, not_true_eq_false, if_false]
  show execResumeStart s = _
  simp only [execResumeStart, isOpen]
  rw [if_pos ⟨by simp [running], slack⟩, begins]

/-! ### Two strips of one record (R168) -/

/-- The registers of a device in SLACK on which a strip may resume. -/
def pausedRegs : RegFile := (State.reset.puts [(Reg.EXP_STATE_STATE, 2), (Reg.CSC_CFG_DEVICES, 1), (Reg.LNS_STATUS_HEAD_LOCK, 1),
  (Reg.LNS_STATUS_TIDE_LOCK, 1), (Reg.HLK_STATUS_ALL_READY, 1), (Reg.CCX_STATUS_ROLE 0, 0), (Reg.CCX_STATUS_ROLE 1, 3),
  (Reg.BWT_ENABLE_EN, 1), (Reg.HCR_STATUS_HOLD, 0), (Reg.TID_LINE_PITCH_INT, 12), (Reg.TID_POS_REF, 1),
  (Reg.TID_SP_CFG_EN, 1), (Reg.TID_PRF_VMAX_VMAX, 1), (Reg.TID_PRF_AMAX_LIMIT, 1), (Reg.TID_PRF_JMAX_LIMIT, 1),
  (Reg.TID_PRF_PMAX_POS, 100000)]).regs

/-- A strip under record 0, open and stopped at tick 100, with the set-up of those registers. -/
def pausedStrip : Strip :=
  { Strip.posted ⟨0, []⟩ ⟨0, 0, 0, 0x10, 0, 0, false⟩ 0 with
    isOpen := true, latched := some pausedRegs, ticksFired := 100, doneTicks := [100] }

/-- The same strip as it was posted: no set-up is latched. -/
def postedTwin : Strip := Strip.posted ⟨0, []⟩ ⟨0, 0, 0, 0x10, 0, 0, false⟩ 0

/-- A driver that holds the set-up of those registers. -/
def setDriver (a : Nat) : Driver :=
  { conf := { factors := driverFactors pausedRegs a, slotT := rfGet pausedRegs Reg.CCH_DWELL_SLOT,
              curve := driverCurve pausedRegs a, armed := true } }

/-- A device on which the open strip may resume, with another strip posted under the same record before it. -/
def twinState : State :=
  { State.reset with
    regs := pausedRegs
    box := { State.reset.box with
      streams := State.reset.box.streams.map fun m => { m with strips := [⟨0, 1, 0, 0, false, [], [], [], [], true, none, 0⟩] }
      strips := [postedTwin, pausedStrip] }
    link := { State.reset.link with drivers := (List.range 1024).map setDriver }
    tid := { State.reset.tid with plans := [⟨0, 0, 0, 0, false⟩] }
    bwt := { State.reset.bwt with permit := true } }

theorem twinState_linkReady : twinState.linkReady pausedStrip = true := by
  have holds : (List.range 1024).all (twinState.driverHolds pausedRegs) = true := by
    rw [List.all_eq_true]
    intro a listed
    have driver : twinState.driver a = setDriver a := by
      simp [State.driver, twinState, List.mem_range.1 listed]
    simp [State.driverHolds, driver, setDriver]
  rw [State.linkReady, show twinState.setup pausedStrip = pausedRegs from rfl, holds]
  decide +kernel

theorem twinState_met : twinState.resumeBits pausedStrip 100 = 0 := by
  rw [State.resumeBits, State.waitBits, twinState_linkReady]
  decide +kernel

/-- Refutes O33: it takes states in which two strips stand under one record, against R168. There the open strip resumes with
the set-up that it latched, but the first strip of its record is the posted one, which has latched none. -/
theorem not_resumeAndNeap : ¬ Obligations.resume_and_neap := by
  unfold Obligations.resume_and_neap
  intro h
  obtain ⟨resumes, -⟩ := h twinState
  have isOpen : twinState.openStrip = some pausedStrip := rfl
  have slack : twinState.get Reg.EXP_STATE_STATE = 1 ∨ twinState.get Reg.EXP_STATE_STATE = 2 := .inr (by decide +kernel)
  have allowed : twinState.resumeRefusal pausedStrip = none := by decide +kernel
  have closed : twinState.recordsOpen = false := by decide +kernel
  have span : twinState.resumeSpan pausedStrip (twinState.doneAfter pausedStrip) = (100, 100, 0) := by decide +kernel
  have alone : twinState.readyPorts = [] := by decide +kernel
  have peers : twinState.peerBits = 0 := by decide +kernel
  have master : twinState.on Reg.CSC_STATUS_SLAVE = false := by decide +kernel
  obtain ⟨t, acts, -, -, -, -, -, latched⟩ := resumes pausedStrip 100 100 0 rfl isOpen slack allowed closed rfl span
    twinState_met alone (by decide +kernel) peers master
  obtain rfl : twinState.beginResume pausedStrip 100 100 = t := Host.Outcome.next.inj
    ((execResumeStart_begins rfl isOpen slack allowed closed rfl span twinState_met alone peers master).symm.trans acts)
  have first : ((twinState.beginResume pausedStrip 100 100).stripAt 0).map (·.latched) = some none := by
    rw [State.latched_of_setups, (twinState.beginResume_holds _ _ _).setups]
    rfl
  obtain ⟨x, found, unlatched⟩ := Option.map_eq_some_iff.1 first
  have kept : x.latched = some pausedRegs := latched x found
  rw [unlatched] at kept
  cases kept

end Sys2Proof.Machine
end

section
/-! PROOFS. Statements on the exposure sequencing chapter (spec/13_exposure_sequencing.md): what reports, units and an entry to
SLACK leave of EXP_STATE, of the strips and of the jobs in flight. -/
namespace Sys2Proof.Machine

set_option Elab.async false

/-! ### Fields of EXP_STATE (R326) -/

/-- A field of the register EXP_STATE. -/
structure Field.OfExpState (g : Field) : Prop where
  word : g.off = 0x00C00004
  within : g.lo + g.width ≤ 32

theorem stateField : Field.OfExpState Reg.EXP_STATE_STATE := ⟨rfl, by decide⟩
theorem openField : Field.OfExpState Reg.EXP_STATE_OPEN := ⟨rfl, by decide⟩

/-- A field that shares no bit with EXP_STATE, in numbers. -/
abbrev Field.OffExpState (f : Field) : Prop :=
  (f.off % 4 = 0 ∧ f.lo + f.width ≤ 64) ∧ (8 * f.off + f.lo + f.width ≤ 8 * 0x00C00004 ∨ 8 * 0x00C00008 ≤ 8 * f.off + f.lo)

/-- A counter outside EXP_STATE. -/
abbrev CounterOffExpState (off : Nat) : Prop := off % 4 = 0 ∧ (off + 8 ≤ 0x00C00004 ∨ 0x00C00008 ≤ off)

section Fields
variable {g : Field} (shown : g.OfExpState)
include shown

theorem Field.OfExpState.apart {f : Field} (off : f.OffExpState) : f.Apart g := by
  obtain ⟨word, within⟩ := shown
  exact .of ⟨off.1, by omega, by omega⟩

theorem Field.OfExpState.quiet : g.Quiet := by
  obtain ⟨word, within⟩ := shown
  exact .of (by omega)

theorem Field.OfExpState.counter {off : Nat} (beyond : CounterOffExpState off) : g.Off off := by
  obtain ⟨word, within⟩ := shown
  exact .of (by omega)

theorem Field.OfExpState.offLoss {n : Nat} (couch : n < 2) : g.OffLoss n where
  quiet := shown.quiet
  role := shown.apart (by dsimp only [Field.OffExpState]; omega)
  cause := shown.apart (by dsimp only [Field.OffExpState]; omega)
  active := shown.apart (by decide)
  standby := shown.apart (by decide)
  lost := shown.counter (by unfold cntCouch; omega)

theorem Field.OfExpState.offViews : g.OffViews := shown.quiet.offViews (by
  obtain ⟨word, within⟩ := shown
  unfold Field.base
  omega)

/-- A put into the word before EXP_STATE's page leaves EXP_STATE, whatever its bits: it meets that word and the next alone. -/
theorem Field.OfExpState.get_put_word (s : State) (x : Nat) {f : Field} (before : f.off + 4 < 0x00C00004) :
    (s.put f x).get g = s.get g := by
  obtain ⟨word, within⟩ := shown
  have one : g.spans = false := by
    unfold Field.spans
    exact decide_eq_false (Nat.not_lt.2 within)
  show rfGet (rfPut _ _ _) _ = rfGet _ _
  rw [rfGet_eq_word _ one, rfGet_eq_word _ one, rfWord_put_apart _ _ _ (by omega) (by omega)]

end Fields

/-! ### Operations that leave EXP_STATE, the strips and the jobs -/

/-- From s to t, EXP_STATE reads as before, the strips stand, and no host job is added. -/
structure Rests (s t : State) : Prop where
  shown : Spares Field.OfExpState s t
  strips : t.box.strips = s.box.strips
  jobs : t.host.jobs ⊆ s.host.jobs

section Combine
variable {P : List Part} {s t u : State}

theorem Rests.refl : Rests s s := ⟨.refl, rfl, fun _ => id⟩

/-- One operation after another. -/
theorem Rests.of (k : Rests t u) (h : Rests s t) : Rests s u :=
  ⟨.of k.shown h.shown, k.strips.trans h.strips, fun _ listed => h.jobs (k.jobs listed)⟩

theorem Rests.ite {c : Prop} [Decidable c] (h : Rests s t) (k : Rests s u) : Rests s (if c then t else u) := by
  split
  · exact h
  · exact k

theorem Rests.fold {α : Type} {f : State → α → State} {l : List α} (each : ∀ x, ∀ a ∈ l, Rests x (f x a)) :
    Rests s (l.foldl f s) :=
  List.foldlRecOn l f (motive := Rests s) .refl fun x rests a listed => .of (each x a listed) rests

/-- One operation, and then a change of other things. -/
theorem Rests.upd (h : Rests s t) (regs : u.regs = t.regs := by rfl) (strips : u.box.strips = t.box.strips := by rfl)
    (jobs : u.host.jobs = t.host.jobs := by rfl) : Rests s u :=
  ⟨.upd h.shown regs, strips.trans h.strips, fun _ listed => h.jobs (jobs ▸ listed)⟩

/-- An operation on other parts than the registers, the headbox and the host interface. -/
theorem Kept.rests (k : Kept P s t) (regs : Part.isIn .regs P = false := by decide)
    (box : Part.isIn .box P = false := by decide) (host : Part.isIn .host P = false := by decide) : Rests s t :=
  .upd .refl (k.regs regs) (congrArg HeadboxState.strips (k.box box)) (congrArg HostState.jobs (k.host host))

/-- An operation on other parts than the headbox and the host interface, that leaves EXP_STATE. -/
theorem Kept.restsOf (k : Kept P s t) (shown : Spares Field.OfExpState s t)
    (box : Part.isIn .box P = false := by decide) (host : Part.isIn .host P = false := by decide) : Rests s t :=
  ⟨shown, congrArg HeadboxState.strips (k.box box), fun _ listed => congrArg HostState.jobs (k.host host) ▸ listed⟩

theorem Noted.rests (noted : Noted s t) : Rests s t :=
  ⟨noted.spares fun _ => Field.OfExpState.quiet, congrArg HeadboxState.strips noted.box, fun _ listed => noted.jobs ▸ listed⟩

end Combine

section Registers
variable (s : State)

theorem State.put_rests {f : Field} (x : Nat) (off : f.OffExpState := by decide) : Rests s (s.put f x) :=
  ⟨s.put_spares x fun _ shown => shown.apart off, rfl, fun _ => id⟩

theorem State.puts_rests {l : List (Field × Nat)} (fs : List Field) (off : ∀ f ∈ fs, f.OffExpState := by decide)
    (fields : l.map Prod.fst = fs := by rfl) : Rests s (s.puts l) :=
  (s.puts_kept l).restsOf (s.puts_spares fs (fun _ shown f listed => shown.apart (off f listed)) fields)

theorem State.raise_rests (code : Nat) (payload : List (Nat × Nat)) : Rests s (s.raise code payload) :=
  (raise_noted s code payload).rests

theorem State.count_rests {off : Nat} (beyond : CounterOffExpState off := by decide) : Rests s (s.count off) :=
  ⟨⟨fun _ shown => s.count_get off shown.quiet (shown.counter beyond)⟩, congrArg HeadboxState.strips (s.count_box off),
    fun _ listed => s.count_jobs off ▸ listed⟩

theorem State.countBy_rests {off : Nat} (n : Nat) (beyond : CounterOffExpState off := by decide) : Rests s (s.countBy off n) := by
  refine ⟨⟨fun _ shown => s.countBy_get shown.quiet (shown.counter beyond) n⟩, congrArg HeadboxState.strips (s.countBy_box off n),
    fun _ listed => ?_⟩
  have jobs : (s.countBy off n).host.jobs = s.host.jobs := by
    unfold State.countBy
    dsimp only
    split
    · rfl
    · split
      · rfl
      · split
        · rfl
        · rw [State.count_jobs]
          rfl
  exact jobs ▸ listed

theorem State.reblank_rests : Rests s s.reblank := s.put_rests _

end Registers

/-! ### Completions (R444) -/

section Completion
variable (s : State)

theorem State.hostWrite_rests (a : Nat) (l : List Byte) : Rests s (s.hostWrite a l) := .ite (.upd .refl) (.upd .refl)

/-- R444: a completed job, and every job with its number, is in flight no more. -/
theorem State.completeJob_left (j : Job) (status cause : Nat) (detail : List Byte) :
    Rests s (s.completeJob j status cause detail) ∧
      (s.completeJob j status cause detail).host.jobs ⊆ s.host.jobs.filter fun k => decide (k.aseq ≠ j.aseq) := by
  unfold State.completeJob
  extract_lets written left dropped counted payload e traced
  have wrote : Rests s written := .ite .refl (s.hostWrite_rests _ _)
  have fewer : dropped.host.jobs ⊆ s.host.jobs.filter fun k => decide (k.aseq ≠ j.aseq) := fun k listed => by
    obtain ⟨inFlight, other⟩ := List.mem_filter.1 listed
    exact List.mem_filter.2 ⟨wrote.jobs inFlight, other⟩
  have drops : Rests s dropped :=
    ⟨.upd wrote.shown, wrote.strips, fun _ listed => wrote.jobs (List.mem_of_mem_filter listed)⟩
  have counts : Rests dropped counted := by
    refine .of (.ite ?_ .refl) (.ite .refl (State.count_rests _))
    exact .ite (.of (State.count_rests _) (State.count_rests _)) (State.count_rests _)
  have reports : Rests dropped (if j.quiet ∧ status = 0 then counted else ((traced.enqueue j.eq e).1).obsTrigger 0x1001) :=
    .ite counts (.of (obsTrigger_noted _ _).rests (.of (enqueue_noted _ _ _).rests (.of (trace_noted _ _ _).rests counts)))
  exact ⟨.of reports drops, fun _ listed => fewer (reports.jobs listed)⟩

theorem State.complete_rests (a status cause : Nat) (detail : List Byte) : Rests s (s.complete a status cause detail) := by
  unfold State.complete
  split
  · exact .refl
  · exact (s.completeJob_left _ _ _ _).1

theorem State.findJob_none {a : Nat} : s.findJob a = none ↔ ∀ j ∈ s.host.jobs, j.aseq ≠ a := by
  simp [State.findJob, List.find?_eq_none]

theorem Rests.findJob_none {s t : State} (rests : Rests s t) {a : Nat} (gone : s.findJob a = none) : t.findJob a = none :=
  t.findJob_none.2 fun j listed => s.findJob_none.1 gone j (rests.jobs listed)

theorem State.complete_findJob (a status cause : Nat) (detail : List Byte) :
    (s.complete a status cause detail).findJob a = none := by
  unfold State.complete
  split
  case h_1 gone => exact gone
  case h_2 j found =>
    have number : j.aseq = a := of_decide_eq_true (List.find?_some (p := fun k : Job => decide (k.aseq = a)) found)
    refine (State.findJob_none _).2 fun k listed => ?_
    have other := (List.mem_filter.1 ((s.completeJob_left j status cause detail).2 listed)).2
    exact number ▸ of_decide_eq_true other

theorem State.completeAll_rests (l : List Nat) (status cause : Nat) (detail : List Byte) :
    Rests s (s.completeAll l status cause detail) := .fold fun x a _ => x.complete_rests a status cause detail

theorem State.completeAll_findJob (l : List Nat) (status cause : Nat) (detail : List Byte) :
    ∀ a ∈ l, (s.completeAll l status cause detail).findJob a = none := by
  induction l generalizing s with
  | nil => exact fun _ listed => absurd listed List.not_mem_nil
  | cons b r ih =>
    intro a listed
    rcases List.mem_cons.1 listed with rfl | later
    · exact ((s.complete a status cause detail).completeAll_rests r status cause detail).findJob_none
        (s.complete_findJob a status cause detail)
    · exact ih _ a later

end Completion

/-! ### The units at an entry to SLACK -/

section Units
variable (s : State)

/-- R126: the vats' roles. -/
theorem State.showVats_rests : Rests s s.showVats :=
  s.showVats_kept.restsOf ⟨fun _ shown => State.get_showVats shown.offViews s⟩

theorem State.showJobs_rests : Rests s s.showJobs :=
  s.showJobs_kept.restsOf ⟨fun _ shown => State.get_showJobs shown.offViews s⟩

theorem State.poolEvents_rests (a b c : Nat) : Rests s (s.poolEvents a b c) := (s.poolEvents_noted a b c).rests

/-- A put of a vat's role. -/
theorem State.putRole_rests (v role : Nat) : Rests s (s.put ⟨0x00200010, 2 * v, 2⟩ role) :=
  (s.put_kept _ role).restsOf ⟨fun _ shown => shown.get_put_word s role (by
    dsimp only
    decide)⟩

theorem State.applyVatRoles_rests : Rests s s.applyVatRoles := by
  unfold State.applyVatRoles
  refine .ite .refl ?_
  extract_lets want none0 waits before spares leaving now roled taken
  have roles : Rests s roled := .fold fun x v _ => x.putRole_rests v _
  exact .ite .refl (.of (State.poolEvents_rests _ _ _ _) (.of (State.showVats_rests _) (.upd roles)))

theorem State.settleVats_rests : Rests s s.settleVats := by
  unfold State.settleVats
  extract_lets free before spares box noted roled
  have roles : Rests s roled := .of (.fold fun x (p : Nat × Nat) _ => x.putRole_rests p.1 p.2) (.upd .refl)
  exact .ite .refl (.of (State.poolEvents_rests _ _ _ _) (.of (State.showVats_rests _) roles))

/-- R201: the couches' roles. -/
theorem State.setCouch_rests {n : Nat} (couch : n < 2) (role : Nat) : Rests s (s.setCouch n role) :=
  (s.setCouch_kept n role).restsOf ⟨fun _ shown => s.get_setCouch role (shown.offLoss couch)⟩

theorem State.powerDown_rests (d : Nat) : Rests s (s.powerDown d) :=
  (s.powerDown_kept d).restsOf ⟨fun _ shown => s.get_powerDown (shown.apart (by decide)) (shown.apart (by decide)) d⟩

theorem State.requestDomains_rests (l : List Nat) : Rests s (s.requestDomains l) := (s.requestDomains_kept l).rests

theorem State.noCouch_rests : Rests s s.noCouch :=
  .ite .refl (.ite (.ite .refl (.of (State.raise_rests _ _ _) (.upd .refl))) (.upd .refl))

theorem State.standbyActs_rests : Rests s s.standbyActs := by
  unfold State.standbyActs
  split
  case h_1 o standby => exact s.setCouch_rests (State.mem_of_couchWith standby).1 0
  case h_2 => exact .refl

theorem State.couchOff_rests {n : Nat} (couch : n < 2) : Rests s (s.couchOff n) := by
  have down : Rests s ((s.setCouch n 3).powerDown (8 + n)) := .of (State.powerDown_rests _ _) (s.setCouch_rests couch 3)
  exact .ite (.of (State.standbyActs_rests _) down) down

theorem State.couchOn_rests {n : Nat} (couch : n < 2) : Rests s (s.couchOn n) := by
  have cause : (Reg.CCX_STATUS_LOST_CAUSE n).OffExpState := by
    dsimp only [Field.OffExpState]
    omega
  have counter : CounterOffExpState (cntCouch n 3) := by
    unfold cntCouch
    omega
  exact .of (State.count_rests _ counter) (.of (State.setCouch_rests _ couch 2) (.of (State.put_rests _ 6 cause)
    (.of (State.requestDomains_rests _ _) (.upd .refl))))

theorem State.neapCouch_rests (n : Nat) (off : Bool) : Rests s (s.neapCouch n off) := by
  unfold State.neapCouch
  extract_lets roles asked new couch noted
  have notes : Rests s noted := .upd .refl
  exact .ite notes (.ite (.of (State.powerDown_rests _ _) (.upd notes)) (.of (State.requestDomains_rests _ _) notes))

theorem State.applyCouchRole_rests {n : Nat} (couch : n < 2) : Rests s (s.applyCouchRole n) := by
  unfold State.applyCouchRole
  extract_lets off asked noted
  have notes : Rests s noted := .upd .refl
  refine .ite .refl (.of (.ite (State.neapCouch_rests _ _ _) ?_) notes)
  exact .of (State.noCouch_rests _) (.ite (State.couchOff_rests _ couch) (State.couchOn_rests _ couch))

theorem State.applyCouchRoles_rests : Rests s s.applyCouchRoles :=
  .ite (.of (State.applyCouchRole_rests _ (by decide)) (.of (State.applyCouchRole_rests _ (by decide)) (.upd .refl))) .refl

theorem State.restartLost_rests : Rests s s.restartLost :=
  .of (State.requestDomains_rests _ _) (.upd (.fold fun x n _ => x.powerDown_rests (8 + n)))

/-- R226: the chains. -/
theorem State.inputIdle_rests {l : Nat} (lane : l < 0x1000) : Rests s (s.inputIdle l) := by
  have counter : CounterOffExpState (cntLns l 0) := by
    unfold cntLns
    omega
  have fields : ∀ f ∈ [Reg.LNS_LANE_RX_ALIGNED l, Reg.LNS_LANE_RX_EIDLE l], f.OffExpState := by
    simp only [List.forall_mem_cons, List.not_mem_nil, false_implies, implies_true, and_true, Field.OffExpState]
    omega
  exact .of (State.puts_rests _ _ fields) (.ite (s.count_rests counter) .refl)

theorem State.showChains_rests : Rests s s.showChains :=
  .of (State.reblank_rests _) (State.puts_rests _ [Reg.HLK_STATUS_CHAINS_READY, Reg.HLK_STATUS_ALL_READY])

theorem State.chainTo_rests {n : Nat} (chain : n < 128) (q : Nat) : Rests s (s.chainTo n q) := by
  have field : (Reg.HLK_CHAIN_STATE_STATE n).OffExpState := by
    dsimp only [Field.OffExpState]
    omega
  unfold State.chainTo
  extract_lets old now train entered left dropped idle
  have enters : Rests s entered := .of (State.modChain_kept _ _ _).rests (s.put_rests q field)
  have leaves : Rests s left := .ite (.of (State.leaveReady_kept _ _).rests enters) enters
  have drops : Rests s dropped := .ite (.of (State.dropCtrl_kept _ _).rests leaves) leaves
  exact .of (State.showChains_rests _) (.ite (.of (State.inputIdle_rests _ (by omega)) drops) drops)

theorem State.applySsc_rests : Rests s s.applySsc := by
  unfold State.applySsc
  exact .ite (.upd (s.put_rests _ (f := Reg.LNS_REF_CTRL_SSC_APPLIED))) .refl

theorem State.retrainAll_rests : Rests s s.retrainAll := by
  unfold State.retrainAll
  extract_lets down
  have goes : Rests s down := .fold fun x n listed =>
    .of (State.modChain_kept _ _ _).rests (x.chainTo_rests (List.mem_range.1 listed) 0)
  exact .of (State.applySsc_rests _) goes

/-- R273, R450: the stage. -/
theorem State.refuseTarget_rests (a : Nat) (target : Int) : Rests s (s.refuseTarget a target) :=
  .of (State.complete_rests _ _ _ _ _) (s.raise_rests _ _)

theorem State.stopProfile_rests : Rests s s.stopProfile :=
  .ite (.upd (s.put_rests 2 (f := Reg.TID_PRF_STATUS_STATE))) .refl

theorem State.startMove_rests (m : MoveJob) : Rests s (s.startMove m) := by
  unfold State.startMove
  extract_lets given
  have gives : Rests s given := by
    unfold given
    split
    · exact s.complete_rests _ _ _ _
    · exact .refl
  refine .ite (s.refuseTarget_rests _ _) (.ite ?_ ?_)
  · exact .upd (.of (State.put_rests _ 1 (f := Reg.TID_PRF_STATUS_REVERSE)) s.stopProfile_rests)
  · exact .upd (.of (State.put_rests _ _ (f := Reg.TID_PRF_STATUS_STATE)) gives)

theorem State.startTable_rests (m : MoveJob) (entries : List (Nat × Int × Int)) : Rests s (s.startTable m entries) := by
  unfold State.startTable
  split
  · exact .of (State.complete_rests _ _ _ _ _) (s.raise_rests _ _)
  · exact .upd (s.put_rests 3 (f := Reg.TID_PRF_STATUS_STATE))

theorem State.startHeld_rests : Rests s s.startHeld := by
  unfold State.startHeld
  split
  · exact .refl
  · extract_lets prf ready tid taken
    have takes : Rests s taken := .upd .refl
    refine .ite ?_ .refl
    split
    · exact .of (State.startTable_rests _ _ _) takes
    · exact .of (State.startMove_rests _ _) takes

theorem State.showStopLead_rests : Rests s s.showStopLead := by
  unfold State.showStopLead
  refine .ite .refl ?_
  split
  · exact .refl
  · split
    · exact .refl
    · split
      · exact s.put_rests _
      · exact .refl

theorem State.showLead_rests : Rests s s.showLead := by
  unfold State.showLead
  split
  · exact s.put_rests _
  · exact s.put_rests _

end Units

/-! ### Entry to SLACK (R305) -/

theorem State.enter_state (s : State) {q : Nat} (state : q < 8) : (s.enter q).get Reg.EXP_STATE_STATE = q :=
  ((State.reblank_rests _).shown.get _ stateField).trans (s.get_put_same Reg.EXP_STATE_STATE q ⟨by decide, by decide⟩ state)

/-- t is s after the entry to SLACK: the strips and the store stand, and of the sequencer what waits and lags is over. -/
structure Slack (s t : State) : Prop where
  state : t.get Reg.EXP_STATE_STATE = 2
  strips : t.box.strips = s.box.strips
  store : t.store = s.store
  seq : t.seq = { s.seq with blankLag := false, waking := false, waitRaised := none, idleSince := none }

theorem State.slackEntry_slack (s : State) : Slack s s.slackEntry := by
  unfold State.slackEntry
  extract_lets off seq cleared slack roles lost trained
  have offKept : Kept [.regs] s off := .ite (s.put_kept _ _) .refl
  have entered : slack.get Reg.EXP_STATE_STATE = 2 := cleared.enter_state (by decide)
  have rests : Rests slack (((trained.liftTemp).startHeld).showStopLead).showLead := by
    have taken : Rests slack roles := .of (State.applyCouchRoles_rests _) (.of (State.applyVatRoles_rests _)
      (.of (State.requestDomains_rests _ _) .refl))
    have restarted : Rests slack lost := .of (State.restartLost_rests _) (.of (State.scheduleSwap_kept _).rests taken)
    have chains : Rests slack trained := .ite (.of (State.retrainAll_rests _) restarted) restarted
    exact .of (State.showLead_rests _) (.of (State.showStopLead_rests _) (.of (State.startHeld_rests _)
      (.of (State.liftTemp_kept _).rests chains)))
  have kept : Kept (.box :: .headTime0 :: .tid :: .couch :: .link :: .hcr :: .pwr :: reports) cleared
      (((trained.liftTemp).startHeld).showStopLead).showLead := by
    have taken : Kept (.box :: .headTime0 :: .tid :: .couch :: .link :: .hcr :: .pwr :: reports) cleared roles :=
      .of (State.applyCouchRoles_kept _) (.of (State.applyVatRoles_kept _) (.of (State.retryDomains_kept _)
        (.of (State.enter_kept _ _) .refl)))
    have restarted : Kept (.box :: .headTime0 :: .tid :: .couch :: .link :: .hcr :: .pwr :: reports) cleared lost :=
      .of (State.restartLost_kept _) (.of (State.scheduleSwap_kept _) taken)
    exact .of (State.showLead_kept _) (.of (State.showStopLead_kept _) (.of (State.startHeld_kept _)
      (.of (State.liftTemp_kept _) (.ite (.of (State.retrainAll_kept _) restarted) restarted))))
  refine ⟨(rests.shown.get _ stateField).trans entered, rests.strips.trans ?_, ?_, kept.seq.trans ?_⟩
  · exact congrArg HeadboxState.strips offKept.box
  · exact kept.store.trans offKept.store
  · show { off.seq with blankLag := false, waking := false, waitRaised := none, idleSince := none } = _
    rw [offKept.seq]

theorem Slack.openStrip {s t : State} (slack : Slack s t) : t.openStrip = s.openStrip := by
  rw [State.openStrip, State.openStrip, slack.strips]

theorem Slack.openMarks {s t : State} (slack : Slack s t) (slot : Nat) : t.openMarks slot = s.openMarks slot := by
  rw [State.openMarks, State.openMarks, State.ledgerAt, State.ledgerAt, slack.store]

/-! ### The end of an open strip (R309, R324) -/

section Ends
variable (s : State)

theorem State.retryLost_rests : Rests s s.retryLost := by
  have requested : ∀ (x : State) (slot r j : Nat), Rests x (x.requestLedger slot r j none true) := fun x slot r j => by
    obtain ⟨strips, -⟩ := x.requestLedger_box slot r j none true
    suffices quiet : ∃ y : State, Rests x y ∧ (x.requestLedger slot r j none true).regs = y.regs ∧
        (x.requestLedger slot r j none true).host = y.host by
      obtain ⟨y, rests, regs, host⟩ := quiet
      exact ⟨.upd rests.shown regs, strips, host ▸ rests.jobs⟩
    refine ⟨x.count (cntSto 6), x.count_rests, ?_⟩
    unfold State.requestLedger
    extract_lets counted record late d s₂ s₃ box
    split
    · exact ⟨rfl, rfl⟩
    · exact ⟨rfl, rfl⟩
  exact .fold fun x l _ => requested x l.slot l.ream l.col

theorem State.deadEvent_rests (beams : List Nat) (old : Bool) (bit : Nat) : Rests s (s.deadEvent beams old bit) := by
  unfold State.deadEvent
  split
  · exact .refl
  · exact .ite .refl (s.raise_rests _ _)

theorem State.judgeHold_rests : Rests s s.judgeHold :=
  .of (State.deadEvent_rests _ _ _ _) (.of (State.deadEvent_rests _ _ _ _) (s.puts_rests
    [Reg.HCR_STATUS_STUCK, Reg.HCR_STATUS_UNMEASURED, Reg.HCR_STATUS_NEW_DEAD, Reg.HCR_STATUS_LATCHED_DEAD, Reg.HCR_STATUS_HOLD]))

theorem State.showStore_rests : Rests s s.showStore :=
  s.puts_rests [Reg.STO_STATUS_LIVE_REAMS, Reg.STO_FREE_BLOCKS, Reg.STO_STATUS_OPEN_STRIPS]

theorem State.dropJobs_rests (gone : TileJob → Bool) : Rests s (s.dropJobs gone) :=
  .of (State.settleVats_rests _) (.of (State.showJobs_rests _) (.upd .refl))

/-- What the units hold of a strip is dropped: EXP_STATE reads as before, and no host job is added. -/
theorem State.forgetStrip_left (slot : Nat) :
    Spares Field.OfExpState s (s.forgetStrip slot) ∧ (s.forgetStrip slot).host.jobs ⊆ s.host.jobs := by
  unfold State.forgetStrip
  extract_lets box store tid seq csc forgotten
  have rests : Rests forgotten (((forgotten.dropJobs fun j => decide (j.slot = slot)).showStore).showProfiles).showLead :=
    .of (State.showLead_rests _) (.of (State.put_rests _ _ (f := Reg.CAL_STATUS_IN_USE)) (.of (State.showStore_rests _)
      (State.dropJobs_rests _ _)))
  exact ⟨.of rests.shown (.upd .refl), rests.jobs⟩

/-- What a sequencer without a strip shows beside OPEN. -/
def idleShown : List (Field × Nat) := [(Reg.EXP_STATE_SLOT, 0x1F), (Reg.EXP_STATE_LOW_LEAD, 0), (Reg.EXP_STATE_STOP_PLANNED, 0),
  (Reg.EXP_STATE_DIR, 0), (Reg.EXP_PLAN_CAUSE, 0), (Reg.EXP_PLAN_TICK, 2 ^ 48 - 1), (Reg.EXP_WAIT_WAIT, 0)]

theorem State.get_withSeq (q : SeqState) (g : Field) : State.get { s with seq := q } g = s.get g := rfl

theorem State.get_noOpenStrip (g : Field) : s.noOpenStrip.get g = ((s.put Reg.EXP_STATE_OPEN 0).puts idleShown).get g := by
  unfold State.noOpenStrip
  dsimp only
  rw [State.get_withSeq, State.puts_cons, idleShown]

theorem idleShown_apart : ∀ p ∈ idleShown, p.1.Apart Reg.EXP_STATE_STATE ∧ p.1.Apart Reg.EXP_STATE_OPEN := by
  simp [idleShown, Field.Apart, Field.Sound, Field.base]

/-- Without a strip, the sequencer stays in its state and shows none open. -/
theorem State.noOpenStrip_shows : s.noOpenStrip.get Reg.EXP_STATE_STATE = s.get Reg.EXP_STATE_STATE ∧
    s.noOpenStrip.get Reg.EXP_STATE_OPEN = 0 := by
  constructor
  · rw [State.get_noOpenStrip, State.get_puts_apart _ _ fun p listed => (idleShown_apart p listed).1]
    exact s.get_put_apart 0 .of
  · rw [State.get_noOpenStrip, State.get_puts_apart _ _ fun p listed => (idleShown_apart p listed).2]
    exact s.get_put_same Reg.EXP_STATE_OPEN 0 ⟨by decide, by decide⟩ (by decide)

/-- R309, R324: t is s after the end of its open strip: the strip and its job are there no more. -/
structure Ended (st : Strip) (s t : State) : Prop where
  state : t.get Reg.EXP_STATE_STATE = s.get Reg.EXP_STATE_STATE
  closed : t.get Reg.EXP_STATE_OPEN = 0
  gone : t.stripAt st.slot = none
  completed : t.findJob st.aseq = none

theorem Ended.then {st : Strip} {s t u : State} (ended : Ended st s t) (rests : Rests t u) : Ended st s u where
  state := (rests.shown.get _ stateField).trans ended.state
  closed := (rests.shown.get _ openField).trans ended.closed
  gone := (State.stripAt_congr rests.strips st.slot).trans ended.gone
  completed := rests.findJob_none ended.completed

theorem State.endOpenStrip_ended (st : Strip) (status : Nat) : Ended st s (s.endOpenStrip st status) := by
  unfold State.endOpenStrip
  extract_lets bursts reams opened detail recorded counted told summed stopped refused completed closed named
  have rests : Rests s refused := by
    have tells : Rests s told := .of (State.raise_rests _ _ _) (.of (State.countBy_rests _ _) (s.modLedger_kept _ _).rests)
    exact .of (State.completeAll_rests _ _ _ _ _) (.of (State.completeAll_rests _ _ _ _ _) (.of (State.raise_rests _ _ _) tells))
  have completes : Rests s completed := .of (State.complete_rests _ _ _ _ _) rests
  have done : completed.findJob st.aseq = none := refused.complete_findJob _ _ _ _
  have freed : Rests completed (completed.freeSections st) :=
    ⟨.upd .refl (State.freeSections_kept _ _).regs, (State.freeSections_box _ st).1,
      fun _ listed => (State.freeSections_kept completed st).host ▸ listed⟩
  obtain ⟨forgets, jobs⟩ := (completed.freeSections st).forgetStrip_left st.slot
  obtain ⟨left, -⟩ := (completed.freeSections st).forgetStrip_box st.slot
  obtain ⟨stays, shut⟩ := ((completed.freeSections st).forgetStrip st.slot).noOpenStrip_shows
  have still := State.noOpenStrip_kept ((completed.freeSections st).forgetStrip st.slot)
  have ends : Ended st s closed := by
    refine ⟨stays.trans ?_, shut, State.stripAt_none_of_filtered ((congrArg HeadboxState.strips still.box).trans left), ?_⟩
    · exact (forgets.get _ stateField).trans ((freed.of completes).shown.get _ stateField)
    · refine (State.findJob_none _).2 fun j listed => ?_
      rw [still.host] at listed
      exact (State.findJob_none _).1 done j (freed.jobs (jobs listed))
  have names : Rests closed named := .ite (State.raise_rests _ _ _) .refl
  exact ends.then (.of (State.judgeHold_rests _) (.of (State.applyVatRoles_rests _) (.of (State.retryLost_rests _) names)))

end Ends

end Sys2Proof.Machine
end

section
/-! PROOFS. Statements on the exposure sequencing chapter (spec/13_exposure_sequencing.md): the entry to BREAK, and the ends of
EBB and of BREAK in SLACK. -/
namespace Sys2Proof.Machine

set_option Elab.async false

/-! ### The prompt break (R313) -/

/-- A field put once among others apart from it reads what was put. -/
theorem State.get_puts_at (s : State) (fs : List Field) {l : List (Field × Nat)} {i x : Nat} {f : Field}
    (place : l[i]? = some (f, x)) (fits : f.Sound ∧ x < 2 ^ f.width) (later : ∀ g ∈ fs.drop (i + 1), g.Clear f)
    (fields : l.map Prod.fst = fs := by rfl) : (s.puts l).get f = x := by
  induction l generalizing s i fs with
  | nil => cases place
  | cons p r ih =>
    subst fields
    rw [List.map_cons, List.drop_succ_cons] at later
    rw [State.puts_cons]
    cases i with
    | zero =>
      obtain rfl : p = (f, x) := Option.some.inj place
      rw [State.get_puts_apart _ r fun q listed => .of (later q.1 (List.mem_map_of_mem listed)),
        State.get_put_same _ _ _ fits.1 fits.2]
    | succ i => exact ih _ (r.map Prod.fst) place later rfl

/-- The fields that show a break, once it is entered, beside STATE. -/
def brokenFields : List Field :=
  [Reg.EXP_BREAK_CAUSE, Reg.EXP_BREAK_KIND, Reg.EXP_STATE_STOP_PLANNED, Reg.TID_TICK_STATE]

theorem brokenFields_sound : ∀ g ∈ brokenFields, g.Quiet ∧ ∀ i < 8, g.Off (cntExp i) := by
  have numbers : ∀ g ∈ brokenFields, (g.off % 4 = 0 ∧ g.lo + g.width ≤ 32) ∧ 0x00104040 ≤ g.off ∧ g.off ≤ 0x00C00100 ∧
      ∀ i < 8, g.off + 4 ≤ cntExp i ∨ cntExp i + 8 ≤ g.off := by
    decide
  intro g listed
  obtain ⟨sound, low, high, counters⟩ := numbers g listed
  refine ⟨.of (by omega), fun i few => .of ?_⟩
  have apart := counters i few
  unfold cntExp at apart ⊢
  omega

/-- The fields that an entry to BREAK writes after those. -/
theorem brokenFields_apart : ∀ f ∈ [(⟨0x00C00020, 14, 1⟩ : Field), Reg.TID_PRF_STATUS_STATE, Reg.EXP_STATE_STATE,
    Reg.HLK_STATUS_BLANK], ∀ g ∈ brokenFields, f.Apart g := by
  simp [brokenFields, Field.Apart, Field.Sound, Field.base]

section Breaks
variable (s : State)

theorem State.stopProfile_broken : Spares (· ∈ brokenFields) s s.stopProfile :=
  .ite (.upd (s.put_spares (f := Reg.TID_PRF_STATUS_STATE) 2 (brokenFields_apart _ (by simp)))) .refl

theorem State.holdForHost_broken (slot : Nat) : Spares (· ∈ brokenFields) s (s.holdForHost slot) :=
  .of (State.put_spares _ 1 (brokenFields_apart _ (by simp))) (s.modStrip_kept slot _).spares

theorem State.enter_broken (q : Nat) : Spares (· ∈ brokenFields) s (s.enter q) :=
  .of (State.put_spares _ _ (brokenFields_apart _ (by simp))) (s.put_spares q (brokenFields_apart _ (by simp)))

theorem State.countExp_broken {i : Nat} (few : i < 8) : Spares (· ∈ brokenFields) s (s.count (cntExp i)) :=
  ⟨fun g listed => s.count_get _ (brokenFields_sound g listed).1 ((brokenFields_sound g listed).2 i few)⟩

end Breaks

/-- t is in BREAK for a stop of a cause and a kind: no stop is pending, and no tick is emitted. -/
structure Broken (cause kind : Nat) (t : State) : Prop where
  state : t.get Reg.EXP_STATE_STATE = 6
  byCause : t.get Reg.EXP_BREAK_CAUSE = cause
  byKind : t.get Reg.EXP_BREAK_KIND = kind
  prompt : t.seq.prompt = none
  relayed : t.seq.relayed = none
  lag : t.seq.blankLag = decide (kind = 3)
  ticks : t.get Reg.TID_TICK_STATE = 0
  unplanned : t.get Reg.EXP_STATE_STOP_PLANNED = 0

theorem State.enterBreak_broken {s : State} {st : Strip} (isOpen : s.openStrip = some st) {cause kind : Nat}
    (cause8 : cause < 256) (kind2 : kind < 4) (tB : Int) (more : List (Nat × Nat)) :
    Broken cause kind (s.enterBreak cause kind tB false more) := by
  unfold State.enterBreak
  split
  case h_1 none => cases isOpen.symm.trans none
  case h_2 st _ =>
    extract_lets index m p marked shown unsettled seq settled held entered counted
    have few : (if 128 ≤ cause then 2 else 1) < 8 := by
      split
      · decide
      · decide
    have lasts (payload) : Spares (· ∈ brokenFields) shown (State.raise counted 0x0A06 payload) := by
      have settles : Spares (· ∈ brokenFields) shown settled := .upd (t := unsettled) (shown.modStrip_kept _ _).spares
      have holds : Spares (· ∈ brokenFields) shown held := .of (.ite (State.holdForHost_broken _ _) .refl) settles
      have enters : Spares (· ∈ brokenFields) shown entered := .of (State.enter_broken _ 6) (.of (State.stopProfile_broken _) holds)
      exact .of ((raise_noted _ _ _).spares fun g listed => (brokenFields_sound g listed).1)
        (.of (State.countExp_broken _ few) enters)
    have rests (payload) : Rests entered (State.raise counted 0x0A06 payload) :=
      .of (State.raise_rests _ _ _) (entered.count_rests (by
        unfold CounterOffExpState cntExp
        omega))
    have keeps (payload) : Kept (.box :: .tid :: reports) settled (State.raise counted 0x0A06 payload) :=
      .of (State.raise_kept _ _ _) (.of (State.count_kept _ _) (.of (State.enter_kept _ _) (.of (State.stopProfile_kept _)
        (.ite (.of (State.holdForHost_kept _ _) .refl) .refl))))
    constructor
    case state => exact ((rests _).shown.get _ stateField).trans (State.enter_state _ (by decide))
    case byCause =>
      exact ((lasts _).get _ (by simp [brokenFields])).trans
        (State.get_puts_at _ breakFields (i := 0) rfl ⟨⟨by decide, by decide⟩, cause8⟩ (by decide))
    case byKind =>
      exact ((lasts _).get _ (by simp [brokenFields])).trans
        (State.get_puts_at _ breakFields (i := 1) rfl ⟨⟨by decide, by decide⟩, kind2⟩ (by decide))
    case ticks =>
      exact ((lasts _).get _ (by simp [brokenFields])).trans
        (State.get_puts_at _ breakFields (i := 7) rfl ⟨⟨by decide, by decide⟩, by decide⟩ (by decide))
    case unplanned =>
      exact ((lasts _).get _ (by simp [brokenFields])).trans
        (State.get_puts_at _ breakFields (i := 5) rfl ⟨⟨by decide, by decide⟩, by decide⟩ (by decide))
    case prompt => exact congrArg SeqState.prompt (keeps _).seq
    case relayed => exact congrArg SeqState.relayed (keeps _).seq
    case lag => exact congrArg SeqState.blankLag (keeps _).seq

/-! ### The end of EBB and of BREAK (R309, R314) -/

/-- R309: a pass that leaves no open mark completes its strip. -/
theorem State.passEnds_ended {s : State} {st : Strip} (marks : s.openMarks st.slot = 0) : Ended st s (s.passEnds st) := by
  unfold State.passEnds
  extract_lets stops ends told
  rw [if_pos marks]
  have tells : Rests s told := .of (State.raise_rests _ _ _) s.count_rests
  have ended := told.endOpenStrip_ended st 0
  exact Ended.then { ended with state := ended.state.trans (tells.shown.get _ stateField) } (State.completeAll_rests _ _ _ _ _)

theorem exec_promptBreakEnter_prompt {s : State} {p : PendingStop} (up : s.resetting = false) (firing : s.firing = true)
    (prompt : s.seq.prompt = some p) :
    ∃ more, exec .promptBreakEnter s = .next (s.enterBreak p.cause p.kind p.tick false more) := by
  show ∃ more, execPromptBreakEnter s = _
  simp [execPromptBreakEnter, up, firing, prompt]

theorem exec_promptBreakEnter_planned {s : State} (up : s.resetting = false) (still : s.firing = false)
    (lag : s.seq.blankLag = true) :
    exec .promptBreakEnter s = .next ({ s with seq := { s.seq with blankLag := false } }.reblank) := by
  show execPromptBreakEnter s = _
  simp [execPromptBreakEnter, up, still, lag]

theorem exec_ebbToSlack_ended {s : State} {st : Strip} (up : s.resetting = false) (ebb : s.get Reg.EXP_STATE_STATE = 5)
    (rest : s.get Reg.TID_PRF_STATUS_STATE = 0) (isOpen : s.openStrip = some st) (flooded : s.seq.afterFlood = none) :
    exec .ebbToSlack s = .next (s.slackEntry.passEnds st) := by
  have opened := s.slackEntry_slack.openStrip.trans isOpen
  have after : s.slackEntry.seq.afterFlood = none := (congrArg SeqState.afterFlood s.slackEntry_slack.seq).trans flooded
  show execEbbToSlack s = _
  simp [execEbbToSlack, up, ebb, rest, opened, after]

/-- R314: what the end of BREAK does to the machine in SLACK: the strip may pass and resume again, the STOP jobs complete. -/
def State.stopsDone (s : State) (st : Strip) : State :=
  (s.modStrip st.slot fun x => { x with passes := 0, refused := 0 }).completeAll s.seq.stopJobs 0 0 (leBytes 1 0)

theorem State.stopsDone_seq (s : State) (st : Strip) : (s.stopsDone st).seq = s.seq :=
  (State.completeAll_kept _ _ _ _ _).seq

theorem State.stopsDone_state (s : State) (st : Strip) :
    (s.stopsDone st).get Reg.EXP_STATE_STATE = s.get Reg.EXP_STATE_STATE :=
  (State.completeAll_rests _ _ _ _ _).shown.get _ stateField

theorem State.stopsDone_stripAt {s : State} {st : Strip} (isOpen : s.openStrip = some st) :
    ((s.stopsDone st).stripAt st.slot).isSome = true := by
  unfold State.stopsDone
  rw [State.stripAt_congr (State.completeAll_rests _ _ _ _ _).strips, State.stripAt_modStrip, Option.isSome_map]
  · exact List.find?_isSome.2 ⟨st, List.mem_of_find?_eq_some isOpen, decide_eq_true rfl⟩
  · exact fun _ => rfl

theorem exec_breakToSlack_held {s : State} {st : Strip} (up : s.resetting = false) (broken : s.get Reg.EXP_STATE_STATE = 6)
    (rest : s.get Reg.TID_PRF_STATUS_STATE = 0) (isOpen : s.openStrip = some st) (noEnds : s.seq.endJobs = []) :
    exec .breakToSlack s = .next (let t := s.slackEntry.stopsDone st; { t with seq := { t.seq with stopJobs := [] } }) := by
  have opened := s.slackEntry_slack.openStrip.trans isOpen
  have ends : (s.slackEntry.stopsDone st).seq.endJobs = [] := by
    rw [State.stopsDone_seq, s.slackEntry_slack.seq]
    exact noEnds
  show execBreakToSlack s = _
  unfold execBreakToSlack
  rw [if_neg (by simp [up, broken, rest])]
  extract_lets slack
  rw [show slack.openStrip = some st from opened]
  exact congrArg Host.Outcome.next (if_pos (List.isEmpty_iff.2 ends))

/-- Settles O32: an entry to BREAK and one to SLACK show themselves in EXP_STATE, and of what follows them nothing writes its
STATE, adds a host job or, but for the end of an open strip, removes a strip. -/
theorem breaksAndSlack : Obligations.breaks_and_slack := by
  unfold Obligations.breaks_and_slack
  intro s
  refine ⟨?prompt, ?planned, ?ebb, ?stays, ?broken⟩
  case prompt =>
    intro p st up firing prompt isOpen ⟨cause8, kind2⟩
    obtain ⟨more, runs⟩ := exec_promptBreakEnter_prompt up firing prompt
    obtain ⟨state, cause, kind, stopped, relayed, lag, ticks, unplanned⟩ :=
      State.enterBreak_broken isOpen cause8 kind2 p.tick more
    exact ⟨_, runs, state, cause, kind, stopped, relayed, lag, ticks, unplanned⟩
  case planned =>
    intro up still lag
    refine ⟨_, exec_promptBreakEnter_planned up still lag, (State.reblank_kept _).seq, ?_, ?_⟩
    · exact (State.reblank_rests _).shown.get _ stateField
    · exact (Kept.of (P := [.regs, .seq]) (State.reblank_kept _) (.upd [.seq] .refl)).eq
  case ebb =>
    intro st up ebb rest isOpen flooded marks
    have slack := s.slackEntry_slack
    obtain ⟨state, closed, gone, completed⟩ := State.passEnds_ended ((slack.openMarks st.slot).trans marks)
    exact ⟨_, exec_ebbToSlack_ended up ebb rest isOpen flooded, state.trans slack.state, closed, gone, completed⟩
  case stays =>
    intro stays
    refine ⟨s, ?_, rfl⟩
    show execEbbToSlack s = _
    exact if_pos stays
  case broken =>
    intro st up broken rest isOpen noEnds
    have slack := s.slackEntry_slack
    have stops : s.slackEntry.seq.stopJobs = s.seq.stopJobs := by rw [slack.seq]
    refine ⟨_, exec_breakToSlack_held up broken rest isOpen noEnds, ?_, rfl, ?_, ?_⟩
    · exact (State.stopsDone_state _ st).trans slack.state
    · exact stops ▸ State.completeAll_findJob _ _ _ _ _
    · exact State.stopsDone_stripAt (slack.openStrip.trans isOpen)

end Sys2Proof.Machine
end

section
/-! PROOFS. Statements on the host interface (spec/19_host_interface.md) and the step of the machine: the command at the front
of the queue, the timeouts of host reads, and D3hot without a strip. -/
namespace Sys2Proof.Machine

set_option Elab.async false
/-! ### The step of a state with a command at the front (log entry 1) -/

/-- Settles O54: it is the equation of `step` for a queue that is not empty. -/
theorem aStepRunsTheFrontCommand : Obligations.a_step_runs_the_front_command := by
  unfold Obligations.a_step_runs_the_front_command
  intro s c rest pending
  rw [step, pending]

/-! ### HOST_READ_TIMEOUT with 256 reads known to have timed out (R434) -/

/-- Where 256 other reads have met a timeout, that of a further one leaves the machine. -/
theorem execHostReadTimeout_of_full {s : State} {r : HostRead} (full : 256 ≤ s.host.retries.length)
    (other : s.host.retries.all (fun p => decide (p.1 ≠ r)) = true) : exec (.hostReadTimeout r) s = .next s := by
  show execHostReadTimeout r s = _
  rw [execHostReadTimeout, if_pos (And.intro full other), ite_self]

/-- Submission ring 0 waits for a descriptor, while 256 reads of ring 1 are known to have timed out. -/
def fullRetries : State :=
  let s := State.reset.puts [(Reg.HST_SQ_CFG_EN 0, 1), (Reg.HST_SQ_IDX_PROD 0, 1)]
  { s with host := { s.host with retries := List.replicate 256 (⟨.fetch 1, 0⟩, 1) } }

/-- Refutes O3: while 256 other reads have met a timeout, the model leaves a further read's timeout out (at most 256 reads are
in flight, R6, R431), so its count of timeouts stays 0. -/
theorem not_hostReadsAndLink : ¬ Obligations.host_reads_and_link := by
  unfold Obligations.host_reads_and_link
  intro holds
  obtain ⟨timeout, -⟩ := holds fullRetries
  obtain ⟨t, acts, tries, -⟩ := timeout ⟨.fetch 0, 0⟩ (by decide +kernel) (by decide +kernel)
  obtain rfl : fullRetries = t :=
    Host.Outcome.next.inj ((execHostReadTimeout_of_full (by decide +kernel) (by decide +kernel)).symm.trans acts)
  omega

/-! ### D3HOT_ENTRY without a strip (R461) -/

/-- R461: with no strip posted or open D3hot aborts nothing (log entry 71). -/
theorem execD3hotEntry_of_no_strip {s : State} (awake : s.host.d3hot = false) (none : s.box.strips = []) :
    exec .d3hotEntry s = .next { s with host := { s.host with d3hot := true } } := by
  show execD3hotEntry s = _
  simp [execD3hotEntry, awake, none]

/-- The machine at reset with a measurement job queued and no strip. -/
def queuedMeasure : State :=
  { State.reset with hcr := { State.reset.hcr with jobs := [{ aseq := 0, opcode := 0x28 }] } }

/-- Refutes O34: the clause on D3hot asks for no strip, and without one D3hot aborts nothing (R461), so a head-care job that
waits goes on waiting. -/
theorem not_abortAndSleep : ¬ Obligations.abort_and_sleep := by
  unfold Obligations.abort_and_sleep
  intro holds
  obtain ⟨-, -, -, -, sleeps, -⟩ := holds queuedMeasure
  obtain ⟨t, acts, -, -, empty, -⟩ := sleeps rfl (by decide +kernel)
  obtain rfl : { queuedMeasure with host := { queuedMeasure.host with d3hot := true } } = t :=
    Host.Outcome.next.inj ((execD3hotEntry_of_no_strip rfl rfl).symm.trans acts)
  exact absurd empty (List.cons_ne_nil _ _)

end Sys2Proof.Machine
end

section
/-! PROOFS. Statements that fail where the host's shadow of CONS lies in what a descriptor names, or where an earlier prompt stop
is due: RECOAT (spec/15_aux_axes.md), HCR_ALIGN (spec/14_head_care.md) and the absence of ticks (spec/16_cascade.md). -/
namespace Sys2Proof.Machine

set_option Elab.async false
/-! ### TICK_GAP_TIMEOUT (R313, R375) -/

/-- R375: where no tick has come within P + 1 µs, the gap begins at the tick after the last. -/
theorem execTickGapTimeout_of_late {s : State} {i : Nat} (last : s.csc.lastIndex = some i)
    (late : s.isSlave = true ∧ s.get Reg.TID_TICK_STATE = 3 ∧ s.csc.tickAt + (s.csc.lastPeriod + 24) / 25 + 400 ≤ s.tide) :
    exec .tickGapTimeout s = .next (s.tickGap ((i + 1) % 2 ^ 48) (2 ^ 48 - 1)) := by
  show execTickGapTimeout s = _
  simp only [execTickGapTimeout, last]
  rw [if_pos late]

/-- An open strip of stream 0 under record 2. -/
def stoppingStrip : Strip := { Strip.posted ⟨5, leBytes 20 0⟩ ⟨3, 5, 0, 0x10, 0, 0, false⟩ 2 with isOpen := true }

/-- A slave in EXPOSE whose ticks have stopped, with a prompt stop of CAUSE 15 due at tick 0. -/
def stoppingSlave : State :=
  let s := State.reset.puts [(Reg.CSC_STATUS_SLAVE, 1), (Reg.TID_TICK_STATE, 3), (Reg.EXP_STATE_STATE, 4)]
  { s with tide := 10000, box := { s.box with strips := [stoppingStrip] }, csc := { s.csc with lastIndex := some 5 },
           seq := { s.seq with prompt := some ⟨0, 15, 2, 0⟩ } }

theorem stoppingSlave_cause : (stoppingSlave.tickGap ((5 + 1) % 2 ^ 48) (2 ^ 48 - 1)).get Reg.EXP_BREAK_CAUSE = 15 := by
  decide +kernel

/-- Refutes O40: where a prompt stop is due no later than the hardware stop of the missing ticks, the break is that of the prompt
stop (R313), with its CAUSE and not 16. -/
theorem not_tideLinkMessages : ¬ Obligations.tide_link_messages := by
  unfold Obligations.tide_link_messages
  intro holds
  obtain ⟨-, -, -, -, -, -, -, -, -, -, -, -, -, -, -, -, -, -, -, -, -, -, missing⟩ := holds stoppingSlave
  have late : stoppingSlave.isSlave = true ∧ stoppingSlave.get Reg.TID_TICK_STATE = 3 ∧
      stoppingSlave.csc.tickAt + (stoppingSlave.csc.lastPeriod + 24) / 25 + 400 ≤ stoppingSlave.tide := by decide +kernel
  obtain ⟨t, acts, -, cause, -⟩ :=
    missing 5 stoppingStrip rfl late.1 late.2.1 late.2.2 (by decide +kernel) (by decide +kernel)
  obtain rfl : stoppingSlave.tickGap ((5 + 1) % 2 ^ 48) (2 ^ 48 - 1) = t :=
    Host.Outcome.next.inj ((execTickGapTimeout_of_late rfl late).symm.trans acts)
  rw [stoppingSlave_cause] at cause
  exact absurd cause (by decide)

/-! ### RECOAT (R357, R437, R451) -/

/-- The checks of a RECOAT descriptor's body (R451). -/
def recoatChecks (d : Desc) : List (Nat × Bool) :=
  [(24, decide (1 ≤ d.field 24 1 ∧ d.field 24 1 ≤ 8)), (25, decide (d.field 25 1 < 2))] ++ descReserved d 26 2 ++
    descReserved d 32 32

/-- The machine with a RECOAT of a list in host memory begun, as its entries read now. -/
def State.recoated (s : State) (d : Desc) (j : Job) : State :=
  let source := some (d.field 16 8, d.field 24 1, false)
  ((s.addAux { aseq := j.aseq, ring := j.ring, source := source, layer := d.field 28 4, phases := [] }).readPhases j.aseq
    (d.field 16 8) (d.field 24 1) false).tryPhases j.aseq

/-- R357: a list in host memory is read once its descriptor has been taken. -/
theorem execRecoat_of_takes {s : State} {d : Desc} (taken : s.takes d 0x21 (recoatChecks d) = true)
    (host : bitAt (d.field 25 1) 0 = false) :
    exec (.recoat d) s = .next ((s.takeJob d).recoated d (s.jobOf d)) := by
  have op := State.opcode_of_takes taken
  have dram : usesDram d = bitAt (d.field 25 1) 0 := by simp only [usesDram, op]
  have range : (s.takeJob d).rangeFault [(bitAt (d.field 25 1) 0, d.field 16 8, 16 * d.field 24 1)] = none := by
    simp only [State.rangeFault, host, List.find?, Bool.false_and, Option.map_none]
  show execRecoat d s = _
  rw [execRecoat, if_neg (not_not.2 op), ← dram]
  refine congrArg _ ((State.withDesc_of_takes taken _).trans ?_)
  rw [dram, range, host]
  rfl

/-- A RECOAT of one phase listed at 0x5000 of host memory, on ring 5. -/
def shadowRecoat : Desc :=
  ⟨5, leBytes 8 0x21 ++ leBytes 8 0 ++ leBytes 8 0x5000 ++ leBytes 1 1 ++ leBytes 39 0⟩

/-- Ring 5 with its CONS, 0x04FF, shadowed at 0x5000 of host memory, which reads 0: no kind of a phase. -/
def shadowRecoatState : State :=
  shadowState.puts [(Reg.HST_SQ_CFG_SIZE 5, 16), (Reg.HST_SQ_IDX_PROD 5, 0x0500), (Reg.HST_SQ_IDX_CONS 5, 0x04FF)]

theorem shadowRecoat_taken : shadowRecoatState.takes shadowRecoat 0x21 (recoatChecks shadowRecoat) = true := by decide +kernel

/-- Before the descriptor is taken, the list fails. -/
theorem shadowRecoat_before :
    listFault 0 [] (shadowRecoatState.phaseEntries (shadowRecoat.field 16 8) (shadowRecoat.field 24 1)
      (bitAt (shadowRecoat.field 25 1) 0)) = some (0, 2) := by decide +kernel

/-- Once it has been taken, the new CONS, 0x0500, reads as a DWELL of axis 0, and the job is not held. -/
theorem shadowRecoat_after :
    (((shadowRecoatState.takeJob shadowRecoat).recoated shadowRecoat (shadowRecoatState.jobOf shadowRecoat)).auxJob
      shadowRecoatState.host.nextAseq).map (fun x => x.held) = some none := by decide +kernel

/-- Refutes O38: the list of a RECOAT is stated as the bytes before its descriptor is taken. Taking it moves CONS, which the
device writes to the ring's shadow in host memory (R437); the list is read after that. Where the list lies at the shadow's
address, a phase that fails its check becomes a DWELL, and the ring is not held. -/
theorem not_axisJobs : ¬ Obligations.axis_jobs := by
  unfold Obligations.axis_jobs
  intro holds
  obtain ⟨-, -, -, -, -, -, -, fails, -⟩ := holds shadowRecoatState
  obtain ⟨t, acts, held, -⟩ := fails shadowRecoat (0, 2) shadowRecoat_taken (by decide +kernel) (by decide +kernel)
    shadowRecoat_before
  obtain rfl : (shadowRecoatState.takeJob shadowRecoat).recoated shadowRecoat (shadowRecoatState.jobOf shadowRecoat) = t :=
    Host.Outcome.next.inj ((execRecoat_of_takes shadowRecoat_taken (by decide +kernel)).symm.trans acts)
  have stated := congrArg (Option.map Prod.fst) held
  rw [Option.map_map] at stated
  exact absurd (shadowRecoat_after.symm.trans stated) (by decide)

/-! ### HCR_ALIGN (R336, R338, R437) -/

/-- The checks of an HCR_ALIGN descriptor's body (R452). -/
def alignChecks (d : Desc) : List (Nat × Bool) :=
  [(16, decide (d.field 16 8 % 8 = 0)), (28, decide (d.field 28 1 < 2))] ++ descReserved d 24 4 ++ descReserved d 29 35

/-- An HCR_ALIGN descriptor as a job of head care. -/
def alignJobOf (d : Desc) (aseq : Nat) : HcrJob :=
  { aseq := aseq, opcode := 0x29, addr := d.field 16 8, propose := bitAt (d.field 28 1) 0 }

/-- R338: an alignment job reads its table once its descriptor has been taken. -/
theorem execHcrAlign_of_takes {s : State} {d : Desc} (taken : s.takes d 0x29 (alignChecks d) = true) :
    exec (.hcrAlign d) s = .next ((s.takeJob d).queueHcr (alignJobOf d s.host.nextAseq)) := by
  have op := State.opcode_of_takes taken
  have dram : usesDram d = false := by simp only [usesDram, op]
  show execHcrAlign d s = _
  rw [execHcrAlign, if_neg (not_not.2 op)]
  exact congrArg _ ((congrArg (fun b => s.withDesc d b false (alignChecks d) _) dram.symm).trans (State.withDesc_of_takes taken _))

/-- Bytes that are all 0 spell 0. -/
theorem leNat_of_zeros {l : List Byte} (zeros : ∀ b ∈ l, b = 0#8) : leNat l = 0 := by
  induction l with
  | nil => rfl
  | cons b l ih =>
    obtain ⟨rfl, rest⟩ := List.forall_mem_cons.1 zeros
    rw [leNat, ih rest]
    rfl

/-- Empty memory reads 0. -/
theorem mem_readBytes_nil {a n : Nat} {b : Byte} (there : b ∈ Memory.readBytes [] a n) : b = 0#8 := by
  induction n generalizing a with
  | zero => cases there
  | succ n ih => exact (List.mem_cons.1 there).elim id ih

/-- A field of empty memory is 0. -/
theorem fieldAt_readBytes_nil (a n off w : Nat) : fieldAt (Memory.readBytes [] a n) off w = 0 :=
  leNat_of_zeros fun _ there => mem_readBytes_nil (List.mem_of_mem_drop (List.mem_of_mem_take there))

/-- Ring 5 with its CONS shadowed at 0x8004 of host memory, which reads 0, over the GEN of a table at 0x8000. -/
def shadowAlignState : State := shadowState.puts [(Reg.HST_SQ_SHADOW_ADDR 5, 0x8004 / 4), (Reg.HLK_BAND_PITCH_PITCH, 128)]

/-- The rows of the reset machine lie within their limits as they are. -/
theorem shadowAlign_rows : ∀ r < 512, ¬ shadowAlignState.get Reg.HCR_ALIGN_LIM_MAX_LINES < (alignOf shadowAlignState.regs r).natAbs ∧
    ¬ ((r % 128 * shadowAlignState.get Reg.HLK_ROW_PITCH_PITCH : Nat) + alignOf shadowAlignState.regs r < 0 ∨
      (shadowAlignState.get Reg.HLK_BAND_PITCH_PITCH : Int) ≤
        (r % 128 * shadowAlignState.get Reg.HLK_ROW_PITCH_PITCH : Nat) + alignOf shadowAlignState.regs r) := by decide +kernel

/-- Before the descriptor is taken, the table, all 0, passes its checks: no row of it is VALID. -/
theorem shadowAlign_before : shadowAlignState.alignFault (shadowAlignState.readSpace false 0x8000 4112) = none := by
  have zero (off w : Nat) : fieldAt (shadowAlignState.readSpace false 0x8000 4112) off w = 0 :=
    fieldAt_readBytes_nil 0x8000 4112 off w
  have row (r : Nat) (h : r < 512) :
      shadowAlignState.rowFault (shadowAlignState.readSpace false 0x8000 4112) r = 0 := by
    obtain ⟨lines, span⟩ := shadowAlign_rows r h
    have keeps : (epsOf (shadowAlignState.readSpace false 0x8000 4112) r) = (0, false, true) := by
      simp only [epsOf, zero]; rfl
    simp only [State.rowFault, State.newRow, keeps]
    rw [if_neg (by decide), if_neg (by decide), if_neg (by simpa using lines), if_neg (by simpa using span)]
  have gen : shadowAlignState.get Reg.HCR_GEN_ALIGN_GEN = 0 := by decide +kernel
  have rows : ((List.range 512).find? fun r =>
      decide (shadowAlignState.rowFault (shadowAlignState.readSpace false 0x8000 4112) r ≠ 0)) = none := by
    rw [List.find?_eq_none]
    intro r there
    simp [row r (List.mem_range.1 there)]
  simp only [State.alignFault, zero, gen, rows]
  rfl

/-- An HCR_ALIGN of the table at 0x8000. -/
def shadowAlign : Desc := ⟨5, leBytes 8 0x29 ++ leBytes 8 0x4000 ++ leBytes 8 0x8000 ++ leBytes 40 0⟩

theorem shadowAlign_taken : shadowAlignState.takes shadowAlign 0x29 (alignChecks shadowAlign) = true := by decide +kernel

theorem shadowAlign_after :
    ((shadowAlignState.takeJob shadowAlign).queueHcr (alignJobOf shadowAlign shadowAlignState.host.nextAseq)).get
      Reg.HCR_GEN_RES_GEN = 0 := by decide +kernel

/-- Refutes O35: the table of an HCR_ALIGN job is stated as the bytes before its descriptor is taken. Taking it moves CONS, which
the device writes to the ring's shadow in host memory (R437); the table is read after that. Where the table's GEN lies at the
shadow's address, the job fails (R338) and counts no result. -/
theorem not_headCareJobs : ¬ Obligations.head_care_jobs := by
  unfold Obligations.head_care_jobs
  intro holds
  obtain ⟨-, passes, -⟩ := holds shadowAlignState
  have table : shadowAlign.field 16 8 = 0x8000 := by decide +kernel
  obtain ⟨t, acts, -, gen, -⟩ := passes shadowAlign shadowAlign_taken (by decide +kernel)
    (by rw [table]; exact shadowAlign_before) (by decide +kernel) (by decide +kernel)
  obtain rfl : (shadowAlignState.takeJob shadowAlign).queueHcr (alignJobOf shadowAlign shadowAlignState.host.nextAseq) = t :=
    Host.Outcome.next.inj ((execHcrAlign_of_takes shadowAlign_taken).symm.trans acts)
  rw [shadowAlign_after] at gen
  exact absurd gen (by decide +kernel)

end Sys2Proof.Machine
end

section
/-! PROOFS. Statements that fail on states whose records lie outside what the units put there: strobe calibration
(spec/14_head_care.md). -/
namespace Sys2Proof.Machine

set_option Elab.async false
/-! ### STROBE_CAL_WINDOW (R340, R341) -/

/-- R340: the window after the eighth confirms the choice, and ends the calibration. -/
theorem execStrobeCalWindow_of_chosen {s : State} {c : StrobeCal} (counts : List Word) (cal : s.hcr.cal = some c)
    (eight : c.windows.length = 8) :
    let last := { c with windows := c.windows ++ [counts.map BitVec.toNat] }
    exec (.strobeCalWindow counts) s = .next ({ s with hcr := { s.hcr with cal := some last } }.endStrobe last) := by
  show execStrobeCalWindow counts s = _
  simp only [execStrobeCalWindow, cal, List.length_append, List.length_singleton, eight]
  rfl

/-- A calibration with its eight windows counted, which chose TAP 9 for one lane, 0xFE80E: beyond the lanes, its settings would lie
where HCR_STROBE_TGT does. -/
def strayCal : StrobeCal := ⟨[], List.replicate 8 [], [(0xFE80E, 0, 9)], []⟩

/-- The machine at reset in that calibration. -/
def strayCalState : State := { State.reset with hcr := { State.reset.hcr with cal := some strayCal } }

/-- The calibration with its confirming window. -/
def strayCalLast : StrobeCal := { strayCal with windows := strayCal.windows ++ [[]] }

theorem strayCal_target :
    ({ strayCalState with hcr := { strayCalState.hcr with cal := some strayCalLast } }.endStrobe strayCalLast).get
      Reg.HCR_STROBE_TGT_PS = 9 ∧ strayCalState.get Reg.HCR_STROBE_TGT_PS = 0 := by decide +kernel

/-- Refutes O36: the end of a strobe calibration is stated for every choice in its record. One for a lane beyond the 268 there are
writes its setting over HCR_STROBE_TGT_PS, which does not keep its value. -/
theorem not_measurementRuns : ¬ Obligations.measurement_runs := by
  unfold Obligations.measurement_runs
  intro holds
  obtain ⟨-, -, -, -, -, -, -, -, -, -, -, -, -, ends, -⟩ := holds strayCalState
  obtain ⟨t, acts, -, -, -, -, target⟩ := ends [] strayCal rfl (by decide)
  obtain rfl : { strayCalState with hcr := { strayCalState.hcr with cal := some strayCalLast } }.endStrobe strayCalLast = t :=
    Host.Outcome.next.inj ((execStrobeCalWindow_of_chosen (s := strayCalState) [] rfl rfl).symm.trans acts)
  rw [strayCal_target.1, strayCal_target.2] at target
  exact absurd target (by decide)

end Sys2Proof.Machine
end

section
/-! PROOFS. Statements on strip jobs (spec/19_host_interface.md) that fail where two strips share a record (R168). -/
namespace Sys2Proof.Machine

set_option Elab.async false
/-! ### STRIP (R168, R448) -/

/-- R448: a strip is posted once its descriptor has been taken. -/
theorem execStrip_of_takes {s : State} {d : Desc} {slot : Nat} (taken : s.takes d 0x10 (stripChecks d) = true)
    (free : s.freeRecord = some slot) : exec (.strip d) s = .next ((s.takeJob d).stripJob d (s.jobOf d)) := by
  have op := State.opcode_of_takes taken
  have dram : false = usesDram d := by simp only [usesDram, op]
  show execStrip d s = _
  rw [execStrip, if_neg (not_not.2 op), free, Option.isNone_some]
  exact congrArg _ ((congrArg (fun b => s.withDesc d b false (stripChecks d) _) dram).trans (State.withDesc_of_takes taken _))

/-- R448: a STRIP whose profile, digest, deckle and areas are in order may be posted. -/
theorem State.postFault_of_valid {s : State} {d : Desc} {n : Nat} (profile : d.field 21 1 / 32 = n)
    (valid : profileFault s.regs n = none) (digest : d.field 24 4 = calDigest s.regs n)
    (deckle : s.deckleFault (bitsOf (d.field 21 1) 4 3) = none) (store : s.storeValid = true)
    (reserve : s.reserveValid = true) (row : s.get Reg.HLK_ROW_PITCH_PITCH ≠ 0)
    (band : s.get Reg.HLK_BAND_PITCH_PITCH ≠ 0) (rate : s.get Reg.MEM_STATUS_RATE = 2) : s.postFault d = none := by
  simp [State.postFault, profile, valid, digest, deckle, store, reserve, row, band, rate]

/-- R448: a STRIP that has been taken is posted, or ends and leaves the strips. -/
theorem State.stripJob_strips {s : State} {slot : Nat} (d : Desc) (j : Job) (free : s.freeRecord = some slot) :
    (s.stripJob d j).box.strips = s.box.strips ∨ s.stripJob d j = s.postStrip (Strip.posted d j slot) := by
  have ended (s : State) (a b c : Nat) (l : List Byte) : (s.complete a b c l).box = s.box := (s.complete_kept a b c l).box
  unfold State.stripJob
  split
  · exact .inl (by rw [ended])
  · exact .inl (by rw [ended, State.raiseSev_box])
  · split
    · exact .inl (by rw [ended, State.raise_box])
    · exact .inr (by rw [free])

/-- What a number's little-endian bytes spell. -/
theorem leNat_leBytes (n v : Nat) : leNat (leBytes n v) = v % 256 ^ n := by
  induction n generalizing v with
  | zero => rw [Nat.pow_zero, Nat.mod_one]; rfl
  | succ n ih =>
    have low : (byteOf v).toNat = v % 256 := BitVec.toNat_ofNat _ _
    rw [leBytes, leNat, ih, low, Nat.pow_succ', Nat.mod_mul]

/-- A STRIP of strip 77 on stream 3, for ring 5, with a digest. -/
def postWith (digest : Nat) : Desc :=
  ⟨5, leBytes 8 0x10 ++ leBytes 8 0 ++ leBytes 4 77 ++ leBytes 1 3 ++ leBytes 3 0 ++ leBytes 4 digest ++ leBytes 36 0⟩

/-- Strip 5 of stream 2, posted under record 0. -/
def sharedStrip : Strip := { Strip.posted (postWith 0) ⟨3, 5, 0, 0x10, 0, 0, false⟩ 0 with stripId := 5, handle := 2 }

/-- Its record, whose parse has met a fault. -/
def faultyRecord : StripRec := ⟨5, 256, 0, 0, false, [], [], [], [], true, some (none, 0x0102), 0⟩

/-- A machine ready for a post, with strip 5 under record 0, although that record is free. -/
def sharedRecordState : State :=
  let s := State.reset.puts [(Reg.HST_STATUS_READY, 1), (Reg.HST_CTRL_EN, 1), (Reg.HST_SQ_CFG_EN 5, 1),
    (Reg.HST_SQ_IDX_PROD 5, 1), (Reg.HST_STATUS_LINK_UP, 1), (Reg.MEM_STATUS_READY, 1), (Reg.MEM_SIZE_BYTES, 0x6000000000),
    (Reg.MEM_STATUS_RATE, 2), (Reg.STO_AREA_BLOCKS_BLOCKS, 4096), (Reg.STO_LEDGER_BASE_BASE, 1024),
    (Reg.STO_LEDGER_CFG_SLOTS, 2), (Reg.CCH_RES_BASE_BASE, 262144), (Reg.HLK_ROW_PITCH_PITCH, 1),
    (Reg.HLK_BAND_PITCH_PITCH, 128)]
  let streams := listSet s.box.streams 2 { Stream.closed with strips := [faultyRecord] }
  { s with box := { s.box with strips := [sharedStrip], streams := streams } }

/-- The STRIP with the digest that the machine's calibration has. -/
def secondPost : Desc := postWith (calDigest sharedRecordState.regs 0)

theorem secondPost_digest : secondPost.field 24 4 = calDigest sharedRecordState.regs 0 :=
  (leNat_leBytes 4 (calDigest sharedRecordState.regs 0)).trans (Nat.mod_eq_of_lt (BitVec.isLt _))

theorem sharedRecord_taken : sharedRecordState.takes secondPost 0x10 (stripChecks secondPost) = true := by decide +kernel

theorem sharedRecord_free : sharedRecordState.freeRecord = some 0 := by decide +kernel

theorem sharedRecord_valid : profileFault sharedRecordState.regs 0 = none ∧
    sharedRecordState.deckleFault (bitsOf (secondPost.field 21 1) 4 3) = none ∧ sharedRecordState.storeValid = true ∧
    sharedRecordState.reserveValid = true ∧ sharedRecordState.get Reg.HLK_ROW_PITCH_PITCH = 1 ∧
    sharedRecordState.get Reg.HLK_BAND_PITCH_PITCH = 128 ∧ sharedRecordState.get Reg.MEM_STATUS_RATE = 2 := by decide +kernel

/-- The strip may be posted. -/
theorem sharedRecord_postFault : sharedRecordState.postFault secondPost = none := by
  obtain ⟨profile, deckle, store, reserve, row, band, rate⟩ := sharedRecord_valid
  exact State.postFault_of_valid (n := 0) (by decide +kernel) profile secondPost_digest deckle store reserve
    (by rw [row]; decide) (by rw [band]; decide) rate

/-- The post drops the strips of record 0, with the fault of strip 5. -/
theorem sharedRecord_posted :
    (((sharedRecordState.takeJob secondPost).postStrip
      (Strip.posted secondPost (sharedRecordState.jobOf secondPost) 0)).box.strips.length ≤ 1) := by
  decide +kernel

theorem sharedRecord_kept : (sharedRecordState.takeJob secondPost).freeRecord = some 0 ∧
    (sharedRecordState.takeJob secondPost).box.strips.length ≤ 1 := by decide +kernel

/-- Whatever becomes of the STRIP, no more than one strip is there. -/
theorem sharedRecord_after : ((sharedRecordState.takeJob secondPost).stripJob secondPost
    (sharedRecordState.jobOf secondPost)).box.strips.length ≤ 1 := by
  obtain ⟨free, one⟩ := sharedRecord_kept
  obtain kept | posted := State.stripJob_strips secondPost (sharedRecordState.jobOf secondPost) free
  · exact (congrArg List.length kept).trans_le one
  · exact (congrArg (fun t => t.box.strips.length) posted).trans_le sharedRecord_posted

/-- Refutes O16: that a posted strip joins the others unchanged is stated without the invariant of R168, by which a free record
has no strip. Where one stands under the record that the STRIP takes, the post meets that strip's parsed record, and its fault
drops both. -/
theorem not_stripJobsPostStopResumeEnd : ¬ Obligations.strip_jobs_post_stop_resume_end := by
  unfold Obligations.strip_jobs_post_stop_resume_end
  intro holds
  obtain ⟨posts, -⟩ := holds sharedRecordState
  obtain ⟨t, acts, strips, -⟩ := posts secondPost 0 sharedRecord_taken (by decide +kernel) sharedRecord_postFault
    sharedRecord_free (by decide +kernel) (by decide +kernel)
  obtain rfl : (sharedRecordState.takeJob secondPost).stripJob secondPost (sharedRecordState.jobOf secondPost) = t :=
    Host.Outcome.next.inj ((execStrip_of_takes sharedRecord_taken sharedRecord_free).symm.trans acts)
  have count := congrArg List.length strips
  rw [List.length_append] at count
  exact absurd (count.symm.le.trans sharedRecord_after) (by decide)

end Sys2Proof.Machine
end

section
/-! PROOFS. Statements on the DRAM controller (spec/17_dram.md): the size that the end of initialisation shows. -/
namespace Sys2Proof.Machine

set_option Elab.async false
/-! ### DRAM_INIT_DONE (R383, R402) -/

/-- The machine at reset, initialising a DRAM of a density beyond those of R383. -/
def densestState : State :=
  { State.reset with mem := { State.reset.mem with initialising := true, density := 2 ^ 64 } }

/-- Refutes O42: initialisation is stated for every recorded density. MEM_SIZE shows the installed bytes within its width, which
those of a density outside R383 exceed. -/
theorem not_dramTraining : ¬ Obligations.dram_training := by
  unfold Obligations.dram_training
  intro holds
  obtain ⟨-, -, -, -, -, -, -, -, done, -⟩ := holds densestState
  obtain ⟨t, -, -, -, -, size, -⟩ := done rfl
  have shown := t.get_lt Reg.MEM_SIZE_BYTES ⟨by decide, by decide⟩
  rw [size] at shown
  exact absurd shown (by decide)

end Sys2Proof.Machine
end

section
/-! PROOFS. Statements on data integrity (spec/18_integrity.md) that fail where the poison signature is 0, or a burst's recorded
flaw is longer than its word. -/
namespace Sys2Proof.Machine

set_option Elab.async false
/-! ### REPAIR_WRITE (R410, R420) -/

/-- R420: a channel writes its oldest queued repair. -/
theorem execRepairWrite_of_queued {s : State} {ch : Fin 6} {b : Nat}
    (queued : (s.mem.repairs.find? fun b => decide ((s.memLocal b).1 = ch.val)) = some b) :
    let left := { s with mem := { s.mem with repairs := s.mem.repairs.erase b } }
    exec (.repairWrite ch) s = .next (left.rewrite b (left.outcomeOf b).bad) := by
  show execRepairWrite ch s = _
  simp only [execRepairWrite, queued]

/-- The machine at reset with a poison signature of 0, and a repair queued for burst 0, in which 13 symbols are wrong. -/
def lostBurst : State :=
  let s := State.reset.puts ((List.range 4).map fun w => (Reg.INT_POISON_SIG_SIG w, 0))
  { s with mem := { s.mem with flaws := [(0, (List.range 13).map fun i => byteOf (i + 1))], repairs := [0] } }

/-- Burst 0 of it with the repair taken from the queue. -/
def lostBurstTaken : State := { lostBurst with mem := { lostBurst.mem with repairs := [] } }

theorem lostBurst_bad : (lostBurst.outcomeOf 0).bad = true := by decide +kernel

theorem lostBurst_flaw : (lostBurstTaken.rewrite 0 (lostBurstTaken.outcomeOf 0).bad).flawOf 0 = [] := by decide +kernel

/-- Refutes O43: a burst that is rewritten as poisoned is stated to hold the poison signature as its flaw. A signature of 0, which
the registers can be written to, is no flaw, and the burst reads clean afterwards. -/
theorem not_decodedReadsAndRepairs : ¬ Obligations.decoded_reads_and_repairs := by
  unfold Obligations.decoded_reads_and_repairs
  intro holds
  obtain ⟨-, -, -, -, -, poisons, -⟩ := holds lostBurst
  have queued : (lostBurst.mem.repairs.find? fun b => decide ((lostBurst.memLocal b).1 = (0 : Fin 6).val)) = some 0 := by
    decide +kernel
  obtain ⟨t, acts, -, flaw, -⟩ := poisons 0 0 queued (by decide +kernel) lostBurst_bad
  obtain rfl : lostBurstTaken.rewrite 0 (lostBurstTaken.outcomeOf 0).bad = t :=
    Host.Outcome.next.inj ((execRepairWrite_of_queued queued).symm.trans acts)
  rw [lostBurst_flaw] at flaw
  exact absurd (congrArg List.length flaw) (by simp)

/-! ### TEST_RAW_DRAM_READ (R424) -/

/-- The 20 words of INT_TEST_DATA hold 80 symbols. -/
theorem State.testSymbols_length (s : State) : s.testSymbols.length = 80 := by
  simp [State.testSymbols, leBytes]

/-- The machine at reset with 64 bytes of DRAM, whose one burst has a recorded flaw of 81 symbols. -/
def longFlaw : State :=
  let s := State.reset.puts [(Reg.PWR_DOMAIN_STATUS_ON, 65535), (Reg.MEM_STATUS_READY, 1), (Reg.MEM_SIZE_BYTES, 64)]
  { s with mem := { s.mem with flaws := [(0, List.replicate 81 1)] } }

theorem longFlaw_word : (longFlaw.storedWord longFlaw.testBurst).length = 81 := by decide +kernel

/-- Refutes O44: the symbols that operation 2 shows are stated as those stored, for every recorded flaw. One of more symbols than a
word has gives a longer word, which INT_TEST_DATA does not hold. -/
theorem not_checkerTestsAndScans : ¬ Obligations.checker_tests_and_scans := by
  unfold Obligations.checker_tests_and_scans
  intro holds
  obtain ⟨-, -, -, -, shows, -⟩ := holds longFlaw
  obtain ⟨t, -, symbols, -⟩ := shows (by decide +kernel) (by decide +kernel) (by decide +kernel) (by decide +kernel)
  have lengths := congrArg List.length symbols
  rw [State.testSymbols_length, longFlaw_word] at lengths
  exact absurd lengths (by decide)

end Sys2Proof.Machine
end

section
/-! PROOFS. Statements on network time (spec/20_network_time.md) that fail: a time that wraps its seconds, and a clock that steps
while the time unit is disabled. -/
namespace Sys2Proof.Machine

set_option Elab.async false
/-! ### PTP_DELAY_RESP (R467, R468) -/

/-- The machine at reset with PTP running on port 0, which has a master, 0, a request, and a Sync received 2^48 seconds, the whole
range of a time stamp (R467), after its origin. -/
def wrappedSync : State :=
  let s := State.reset.puts [(Reg.TIM_CTRL_EN, 1), (Reg.TIM_PORT_CFG_EN 0, 1), (Reg.TIM_PORT_STATUS_LINK 0, 1),
    (Reg.PWR_DOMAIN_STATUS_ON, 65535)]
  s.modTime 0 fun p =>
    { p with state := 9, master := some 0, req := some (0, 0, 0), sync := some (0, 2 ^ 48 * 1000000000 * oneNs, 0, 0) }

/-- A Delay_Resp of that master. -/
def delayResp : PtpMsg :=
  { port := 0, phase := 0, domain := 0, sdo := 0, valid := true, secured := false, source := 0, seq := 0, corr := 0, tag := none }

/-- R468: a Delay_Resp of the master that answers the request completes the exchange. -/
theorem execPtpDelayResp_of_answer {s : State} {m : PtpMsg} {requester : BitVec 80} {receipt : PtpStamp}
    {t1 t2 t3 corr : Int} {epoch e : Nat} (runs : s.ptpRuns m.port = true ∧ s.tagFits m = true)
    (mine : m.domain.toNat = s.get (Reg.TIM_PORT_CFG_DOMAIN m.port) ∧ m.sdo = 0 ∧ m.valid = true ∧ m.secured = false)
    (req : (s.timePort m.port).req = some (m.seq.toNat, t3, epoch)) (sync : (s.timePort m.port).sync = some (t1, t2, corr, e))
    (endToEnd : s.on (Reg.TIM_PORT_CFG_P2P m.port) = false) (master : s.fromMaster m = true)
    (named : requester.toNat = s.portIdentity m.port) :
    exec (.ptpDelayResp m requester receipt) s = .next ((s.modTime m.port fun p => { p with req := none }).exchange m.port
      (idiv (timeDiff t2 t3 + timeDiff (stampTime receipt) t1 - corr - correctionOf m) 2) epoch) := by
  obtain ⟨domain, sdo, valid, secured⟩ := mine
  show execPtpDelayResp m requester receipt s = _
  simp [execPtpDelayResp, State.onPtp, runs, domain, sdo, valid, secured, req, sync, endToEnd, master, named]

/-- The machine once the Delay_Resp has come. -/
def wrappedExchange : State :=
  (wrappedSync.modTime 0 fun p => { p with req := none }).exchange 0
    (idiv (timeDiff (2 ^ 48 * 1000000000 * oneNs) 0 + timeDiff (stampTime ⟨0, 0⟩) 0 - 0 - correctionOf delayResp) 2) 0

theorem wrappedExchange_delays : (wrappedExchange.timePort 0).delays = [0] := by decide +kernel

/-- Refutes O45: the delay of an exchange is stated as the plain differences of its time stamps. Their seconds wrap at 48 bits
(R467), so that stamps 2^48 seconds apart differ by 0. -/
theorem not_ptpMessages : ¬ Obligations.ptp_messages := by
  unfold Obligations.ptp_messages
  intro holds
  obtain ⟨-, -, -, -, -, responds, -⟩ := holds wrappedSync
  have runs : wrappedSync.ptpRuns delayResp.port = true ∧ wrappedSync.tagFits delayResp = true := by decide +kernel
  have domain : delayResp.domain.toNat = wrappedSync.get (Reg.TIM_PORT_CFG_DOMAIN delayResp.port) := by decide +kernel
  have master : wrappedSync.fromMaster delayResp = true := by decide +kernel
  have named : (1 : BitVec 80).toNat = wrappedSync.portIdentity delayResp.port := by decide +kernel
  obtain ⟨t, acts, -, delays, -⟩ := responds delayResp 1 ⟨0, 0⟩ 0 (2 ^ 48 * 1000000000 * oneNs) 0 0 _ 0 runs.1 runs.2 domain
    (by decide) (by decide +kernel) master (by decide +kernel) (by decide +kernel) named (by decide +kernel) (by decide +kernel)
    rfl rfl
  obtain rfl : wrappedExchange = t :=
    Host.Outcome.next.inj ((execPtpDelayResp_of_answer (e := 0) runs ⟨domain, by decide⟩ (by decide +kernel) (by decide +kernel)
      (by decide +kernel) master named).symm.trans acts)
  exact absurd (wrappedExchange_delays.symm.trans delays) (by decide +kernel)

/-! ### ARMED_STEP (R466, R473) -/

/-- The machine in SLACK with an armed step pending, the time unit disabled, and port 0 still in SLAVE with nine samples. -/
def disabledStep : State :=
  let s := State.reset.puts [(Reg.TIM_STATUS_STEP_PENDING, 1), (Reg.TIM_CTRL_STEP_ARM, 1), (Reg.EXP_STATE_STATE, 2)]
  s.modTime 0 fun p => { p with state := 9, offsets := List.replicate 9 0 }

theorem disabledStep_causes : disabledStep.armedStepNow.time.causes = [1] := by decide +kernel

/-- Refutes O46: after an armed step no cause of a holdover is stated to stand. The step ends with the clock following its ports
(R466, R472); with the time unit disabled none serves, and the clock is in HOLDOVER again, with cause 1. -/
theorem not_clockStepsAndHoldover : ¬ Obligations.clock_steps_and_holdover := by
  unfold Obligations.clock_steps_and_holdover
  intro holds
  obtain ⟨steps, -⟩ := holds disabledStep
  obtain ⟨t, acts, -, -, -, -, causes⟩ := steps 0 (by decide +kernel) (by decide +kernel) (by decide +kernel)
  obtain rfl : disabledStep.armedStepNow = t := Host.Outcome.next.inj acts
  exact absurd (disabledStep_causes.symm.trans causes) (by decide)

end Sys2Proof.Machine
end

section
/-! PROOFS. Statements on register accesses to a domain that is down (spec/19_host_interface.md, R433): such an access is counted
and reported, and does nothing else. -/
namespace Sys2Proof.Machine

set_option Elab.async false
/-! ### The access itself -/

/-- A counter that stays below all ones is one more, and nothing is raised (R10). -/
theorem State.count_of_room {s : State} {off : Nat} (room : s.get ⟨off, 0, 48⟩ + 1 < 2 ^ 48 - 1) :
    s.count off = s.put ⟨off, 0, 48⟩ (s.get ⟨off, 0, 48⟩ + 1) := by
  have one : rfCount s.regs off = (rfPut s.regs ⟨off, 0, 48⟩ (s.get ⟨off, 0, 48⟩ + 1), false) := by
    unfold State.get at room ⊢
    rw [rfCount, if_neg (by omega), if_neg (by omega)]
  rw [State.count, one]
  rfl

/-- The machine with the time of the last event of an access to a domain that is down. -/
def State.accessNoted (s : State) : State := { s with host := { s.host with domainOffAt := some s.aon } }

/-- R433: an access to a domain that is down is counted, and raises its event or none. -/
theorem State.domainOffAccess_cases (s : State) (off : Nat) :
    s.domainOffAccess off = (s.count (cntHst 7)).accessNoted.raise 0x100B [(4, off)] ∨
      s.domainOffAccess off = s.count (cntHst 7) := by
  unfold State.domainOffAccess
  exact (ite_eq_or_eq _ _ _)

/-- R433: an access to a domain that is down reports, and notes when it did. -/
theorem State.domainOffAccess_reports (s : State) (off : Nat) :
    SameBut reports s (s.domainOffAccess off) ∧ RegsBut [] s (s.domainOffAccess off) ∧
      (s.domainOffAccess off).host = { s.host with
        events := (s.domainOffAccess off).host.events, domainOffAt := (s.domainOffAccess off).host.domainOffAt } := by
  have counted := (count_counted s (cntHst 7)).noted fun _ quiet => quiet.hst 7 (by decide)
  refine ⟨.of_kept (s.domainOffAccess_kept off), ?_⟩
  obtain raises | counts := s.domainOffAccess_cases off
  · have raised := raise_noted (s.count (cntHst 7)).accessNoted 0x100B [(4, off)]
    rw [raises]
    refine ⟨fun g quiet apart => (raised.regsBut g quiet apart).trans (counted.regsBut g quiet apart), ?_⟩
    rw [raised.host, State.accessNoted, counted.host]
  · rw [counts]
    exact ⟨counted.regsBut, by rw [counted.host]⟩

/-- R433: within a second of the last such event the access is counted, and raises none. -/
theorem State.domainOffAccess_counts {s : State} {q : Nat} (off : Nat) (raised : s.host.domainOffAt = some q)
    (recent : q ≤ s.aon ∧ s.aon < q + 400000000) (room : s.get ⟨cntHst 7, 0, 48⟩ + 1 < 2 ^ 48 - 1) :
    s.domainOffAccess off = s.put ⟨cntHst 7, 0, 48⟩ (s.get ⟨cntHst 7, 0, 48⟩ + 1) := by
  have again : ¬ 400000000 ≤ s.aon - q := by omega
  have silent : (s.put ⟨cntHst 7, 0, 48⟩ (s.get ⟨cntHst 7, 0, 48⟩ + 1)).host.domainOffAt = some q := raised
  simp only [State.domainOffAccess, State.count_of_room room, silent]
  exact if_neg (by simp only [decide_eq_true_eq]; exact again)

/-! ### The commands -/

/-- R433: a command that accesses a register of a domain that is down does no more than the access. -/
theorem exec_of_domain_off {s : State} {c : Instr} {d o : Nat} (access : accessOf c = some (d, o)) (down : s.domainOn d = false) :
    ∃ off, exec c s = .next (s.domainOffAccess off) := by
  have off : ¬ s.domainOn d = true := by simp [down]
  cases c with
  | timStepArm => cases access; exact ⟨_, congrArg _ (if_neg off)⟩
  | sqDoorbell | eqDoorbell | hstAbort | hstReset | hstSqBaseWrite | hstSqCfgWrite | hstEqBaseWrite | hstEqCfgWrite | msixUnmask
  | timNowRead | timMapHeadRead | timCtrlWrite | vatRoleReqWrite | hlkRetrainReq | intEraseReqGo | testRawDramWrite
  | testRawDramRead | testEncode | testRawSramWrite | testRawSramRead | auxStopCmd | auxClear | auxHoldRetry | auxHoldSkip
  | snapshotGo => cases access; exact ⟨_, if_pos off⟩
  | _ => cases access

/-! ### Plain register writes -/

/-- The registers whose writes are tied to another field, or to a bound, by a limit (`State.writeHolds`). -/
def limitedRegs : List Nat :=
  [0x00800010, 0x00904000, 0x01000020, 0x01000040, 0x01100108, 0x01200048, 0x01400018, 0x01500020]

/-- A register without such a limit may hold what any write leaves. -/
theorem State.writeHolds_of_free {base : Nat} (free : natMem base limitedRegs = false) (t : State) (idx : List Nat) :
    t.writeHolds base idx = true := by
  unfold State.writeHolds
  split
  case h_9 => rfl
  all_goals exact absurd free (by decide)

/-- R433: a write of a word of a register whose domain is down is such an access. -/
theorem State.writeWord_of_domain_off {s : State} {o : Nat} {r : RegRow} {idx : List Nat} (row : findRow (canonOffset o) = some (r, idx, 0))
    (down : s.domainOn (domainOf o) = false) (v : BitVec 32) : s.writeWord o v = s.domainOffAccess o := by
  simp only [State.writeWord, row, down]
  rfl

/-- R433: a plain write of a register whose domain is down is the access, or nothing. -/
theorem State.plainWrite_of_domain_off {s : State} {o : Nat} {r : RegRow} {idx : List Nat}
    (row : findRow (canonOffset o) = some (r, idx, 0)) (down : s.domainOn (domainOf o) = false)
    (free : natMem r.base limitedRegs = false) (v : BitVec 32) :
    s.plainWrite o v = s ∨ s.plainWrite o v = s.domainOffAccess o := by
  simp only [State.plainWrite, row, State.writeWord_of_domain_off row down, State.writeHolds_of_free free, if_true]
  exact ite_eq_or_eq _ _ _

/-- Settles O59: a command of the table, or a plain write, whose register's domain is down is an access and no more
(`exec_of_domain_off`, `State.plainWrite_of_domain_off`), which reports (`State.domainOffAccess_reports`) and counts
(`State.domainOffAccess_counts`). -/
theorem accessesToADomainThatIsDown : Obligations.accesses_to_a_domain_that_is_down := by
  unfold Obligations.accesses_to_a_domain_that_is_down
  intro s
  refine ⟨fun c d o access down => ?_, fun c d o q access down raised recent room => ?_,
    fun off v r idx row narrow aligned canon down _ free _ => ?_⟩
  · obtain ⟨a, ran⟩ := exec_of_domain_off access down
    exact ⟨_, ran, s.domainOffAccess_reports a⟩
  · obtain ⟨a, ran⟩ := exec_of_domain_off access down
    refine ⟨_, ran, ?_⟩
    rw [State.domainOffAccess_counts a raised recent room]
    exact ⟨State.get_put_same _ _ _ ⟨by decide, by decide⟩ (room.trans (by decide)), .of_kept (State.put_kept _ _ _)⟩
  · have ran : exec (.registerWrite off false v) s = .next (s.plainWrite off.toNat (v.setWidth 32)) := by
      show execRegisterWrite off false v s = _
      rw [execRegisterWrite, if_neg Bool.false_ne_true, if_neg (not_not.2 aligned)]
    refine ⟨_, ran, ?_⟩
    obtain none | access := State.plainWrite_of_domain_off (canon.symm ▸ row) down free (v.setWidth 32)
    · rw [none]
      exact ⟨.of_kept .refl, fun _ _ _ => rfl⟩
    · rw [access]
      exact ⟨(s.domainOffAccess_reports _).1, (s.domainOffAccess_reports _).2.1⟩

end Sys2Proof.Machine
end

section
/-! PROOFS. Statements on the rings of the host interface (spec/19_host_interface.md): doorbells, event records and vectors. -/
namespace Sys2Proof.Machine

set_option Elab.async false
/-! ### Fields of the host interface below its counters, and of the vector table -/

/-- A field below HST_CNT, and one of the registers between HST_CNT and OBS_RING_WR, are quiet. -/
theorem Field.Quiet.ofNumbers {off lo w : Nat} (h : (off % 4 = 0 ∧ lo + w ≤ 64) ∧ (8 * off + lo + w ≤ 8 * 0x00104000 ∨
    0x00104040 ≤ off ∧ 8 * off + lo + w ≤ 8 * 0x01200438) := by omega) : Field.Quiet ⟨off, lo, w⟩ := by
  obtain ⟨sound, range⟩ := h
  refine ⟨sound, ?_⟩
  simp only [Field.base]
  omega

/-! ### The on-chip side of the event rings -/

theorem State.eqRing_eq_getElem? (s : State) (e : Nat) : s.eqRing e = s.host.events[e]?.getD EventRing.reset := by
  rw [State.eqRing, List.getD_eq_getElem?_getD]

theorem State.modEq_same (s : State) {e : Nat} (f : EventRing → EventRing) (inside : e < s.host.events.length) :
    (s.modEq e f).eqRing e = f (s.eqRing e) := by
  simp [State.eqRing_eq_getElem?, State.modEq, listModify_eq_modify, inside]

theorem State.modEq_other (s : State) {e k : Nat} (f : EventRing → EventRing) (apart : k ≠ e) :
    (s.modEq e f).eqRing k = s.eqRing k := by
  simp [State.eqRing_eq_getElem?, State.modEq, listModify_eq_modify, apart.symm]

theorem State.modEq_disarmed (s : State) (e : Nat) : ((s.modEq e fun q => { q with armed := false }).eqRing e).armed = false := by
  by_cases inside : e < s.host.events.length
  · rw [State.modEq_same _ _ inside]
  · have none : (s.modEq e fun q => { q with armed := false }).host.events[e]? = none := by
      simpa [State.modEq, listModify_eq_modify] using inside
    rw [State.eqRing_eq_getElem?, none]
    rfl

/-! ### Doorbells (R436, R437, R440) -/

/-- R438: what a ring error leaves. -/
theorem State.ringError_shows (s : State) (r : Fin 32) {code : Nat} (byte : code < 2 ^ 8) :
    (s.ringError r code).get (Reg.HST_SQ_CFG_EN r) = 0 ∧ (s.ringError r code).get (Reg.HST_SQ_STATUS_ERROR r) = code ∧
      (s.ringError r code).get (Reg.HST_SQ_STATUS_WAIT r) = 0 ∧
      Reported [Reg.HST_SQ_CFG_EN r, Reg.HST_SQ_STATUS_ERROR r, Reg.HST_SQ_STATUS_WAIT r] s (s.ringError r code) := by
  unfold State.ringError
  refine ⟨?_, ?_, ?_, ?_⟩
  · rw [State.raise_get _ _ _ .ofNumbers]
    exact ((State.get_put_apart _ _ .ofNumbers).trans (State.get_put_apart _ _ .ofNumbers)).trans
      (State.get_put_same _ _ 0 .ofNumbers (show 0 < 2 ^ 1 by decide))
  · rw [State.raise_get _ _ _ .ofNumbers]
    exact (State.get_put_apart _ _ .ofNumbers).trans (State.get_put_same _ _ _ .ofNumbers byte)
  · rw [State.raise_get _ _ _ .ofNumbers]
    exact State.get_put_same _ _ 0 .ofNumbers (show 0 < 2 ^ 8 by decide)
  · have puts : Reported [Reg.HST_SQ_CFG_EN r, Reg.HST_SQ_STATUS_ERROR r, Reg.HST_SQ_STATUS_WAIT r] s
        (s.puts [(Reg.HST_SQ_CFG_EN r, 0), (Reg.HST_SQ_STATUS_ERROR r, code), (Reg.HST_SQ_STATUS_WAIT r, 0)]) :=
      ⟨rfl, rfl, ((RegsBut.put s _ _).trans (.put _ _ _)).trans (.put _ _ _), fun _ => rfl⟩
    exact puts.trans (raise_noted _ _ _).reported (State.get_puts_apart _ _ (by
      intro p member
      simp only [List.mem_cons, List.not_mem_nil, or_false] at member
      obtain rfl | rfl | rfl := member <;> exact .ofNumbers))

/-- Settles O1. -/
theorem doorbellsMoveTheRingIndices : Obligations.doorbells_move_the_ring_indices := by
  unfold Obligations.doorbells_move_the_ring_indices
  intro s
  have index (n : Nat) : n % 65536 < 2 ^ 16 := Nat.mod_lt _ (by decide)
  refine ⟨fun r v few up => ⟨_, (if_neg (not_not.2 up)).trans (if_neg few.not_gt), ?_, .of_kept (State.put_kept _ _ _), .put s _ _⟩,
    fun r v many up => ⟨_, (if_neg (not_not.2 up)).trans (if_pos many), s.ringError_shows r (by decide)⟩,
    fun e v few inside up => ⟨_, (if_neg (not_not.2 up)).trans (if_neg few.not_gt), ?_, ?_⟩,
    fun e v many up => ⟨_, (if_neg (not_not.2 up)).trans (if_pos many), ?_, (raise_noted _ _ _).reported⟩⟩
  · exact State.get_put_same _ _ _ .ofNumbers (index _)
  · exact State.get_put_same _ _ _ .ofNumbers (index _)
  · rw [State.modEq_same (s.put (Reg.HST_EQ_IDX_CONS e) (v.toNat % 65536)) EventRing.arm inside]
    exact ⟨rfl, rfl, fun k ne => State.modEq_other _ _ (Fin.val_ne_of_ne ne),
      .of_kept (.of (State.modEq_kept _ _ _) (.of (State.put_kept _ _ _) .refl)), RegsBut.put s _ _⟩
  · exact State.raise_get _ _ _ .ofNumbers

/-! ### Event records (R440) -/

theorem leBytes_length' (n v : Nat) : (leBytes n v).length = n := by
  induction n generalizing v with
  | zero => rfl
  | succ n ih => rw [leBytes, List.length_cons, ih]

theorem Event.first_length (ev : Event) (phase lost : Bool) : (ev.first phase lost).length = 32 := by
  simp only [Event.first, List.length_append, leBytes_length', List.length_take, List.length_replicate]
  omega

/-- The bytes written are read back. -/
theorem Memory.readBytes_writeBytes (m : Memory) (a : Nat) (l : List (BitVec 8)) : (m.writeBytes a l).readBytes a l.length = l := by
  induction l generalizing m a with
  | nil => rfl
  | cons b l ih =>
    have first : ((m.write a b).writeBytes (a + 1) l).read a = b := by
      rw [Memory.read_writeBytes_other _ (.inl (Nat.lt_succ_self a)), Memory.read_write, if_pos rfl]
    exact congr (congrArg List.cons first) (ih _ _)

/-- R440: what one record leaves in host memory and of the registers. -/
theorem State.writeRecord_writes (s : State) (e : Fin 8) (bytes : Bool → List Byte) :
    (s.writeRecord e bytes).hostMem = s.hostMem.writeBytes (s.recordAt e) (bytes (s.on (Reg.HST_EQ_STATUS_PHASE e))) ∧
      (s.writeRecord e bytes).get (Reg.HST_EQ_IDX_PROD e) = (s.get (Reg.HST_EQ_IDX_PROD e) + 1) % 65536 ∧
      RegsBut [Reg.HST_EQ_IDX_PROD e, Reg.HST_EQ_STATUS_PHASE e] s (s.writeRecord e bytes) := by
  have lt : (s.get (Reg.HST_EQ_IDX_PROD e) + 1) % 65536 < 2 ^ 16 := Nat.mod_lt _ (by decide)
  unfold State.writeRecord
  extract_lets prod size phase s₁ s₂
  have moved : RegsBut [Reg.HST_EQ_IDX_PROD e] s s₂ := RegsBut.put s _ _
  split
  · exact ⟨rfl, (State.get_put_apart _ _ .ofNumbers).trans (State.get_put_same _ _ _ .ofNumbers lt),
      moved.trans (.put _ _ _)⟩
  · exact ⟨rfl, State.get_put_same _ _ _ .ofNumbers lt, moved.weaken fun _ => List.mem_append_left [_]⟩

/-- The ring once its oldest event, of one record, has been written. -/
def EventRing.passed (q : EventRing) (rest : List Event) (ev : Event) (aon urgent : Nat) : EventRing :=
  { q with queue := rest, lost := false, written := q.written + ev.records, firstAt := some (q.firstAt.getD aon),
           urgent := q.urgent || decide (urgent ≤ ev.sev) }

/-- R440, R455: an event of one record that its ring takes. -/
theorem execEventRecordWrite_of_short {s : State} {e : Fin 8} {ev : Event} {rest : List Event}
    (queue : (s.eqRing e).queue = ev :: rest) (short : ev.payload.length ≤ 12) (takes : s.eqWritable e 1 = true) :
    let t := s.writeRecord e fun phase => ev.first phase (s.eqRing e).lost
    exec (.eventRecordWrite e) s =
      .next (t.modEq e fun q => q.passed rest ev t.aon (t.get (Reg.HST_EQ_MOD_URGENT e))) := by
  have one : ev.records = 1 := by
    unfold Event.records
    omega
  show execEventRecordWrite e s = _
  simp only [execEventRecordWrite, queue, one, takes, EventRing.passed]
  rfl

/-! ### Vectors (R442) -/

/-- The machine with a vector sent. -/
def State.vectorSent (s : State) (v : Nat) : State := { s with host := { s.host with msixSent := s.host.msixSent ++ [v] } }

theorem State.sendMsix_unmasked {s : State} {v : Nat} (unmasked : s.get (Reg.MSIX_CTRL_MASK v) = 0) :
    s.sendMsix v = (s.vectorSent v).count (cntHst 6) := by
  unfold State.sendMsix
  rw [if_neg (by simp [State.on, unmasked])]
  rfl

theorem State.sendMsix_masked {s : State} {v : Nat} (masked : s.get (Reg.MSIX_CTRL_MASK v) = 1) :
    s.sendMsix v = { s with host := { s.host with msixPba := setBit s.host.msixPba v true } } := by
  unfold State.sendMsix
  exact if_pos (by simp [State.on, masked])

/-- R442: a vector that is sent is counted, and joins those sent. -/
theorem State.sendMsix_sends {s : State} {v : Nat} (unmasked : s.get (Reg.MSIX_CTRL_MASK v) = 0) :
    (s.sendMsix v).host.msixSent = s.host.msixSent ++ [v] ∧ (s.sendMsix v).host.msixPba = s.host.msixPba ∧
      RegsBut [] s (s.sendMsix v) := by
  have counted : Noted (s.vectorSent v) (s.sendMsix v) := by
    rw [State.sendMsix_unmasked unmasked]
    exact (count_counted _ (cntHst 6)).noted fun _ quiet => quiet.hst 6 (by decide)
  rw [counted.host]
  exact ⟨rfl, rfl, counted.regsBut⟩

/-- The machine with a vector unmasked, and no longer withheld. -/
def State.unmasked (s : State) (v : Fin 64) : State :=
  ({ s with host := { s.host with msixPba := setBit s.host.msixPba v false } }).put (Reg.MSIX_CTRL_MASK v) 0

theorem State.unmasked_mask (s : State) (v : Fin 64) : (s.unmasked v).get (Reg.MSIX_CTRL_MASK v) = 0 :=
  State.get_put_same _ _ 0 .ofNumbers (show 0 < 2 ^ 1 by decide)

theorem execMsixUnmask_up {s : State} (up : s.domainOn 14 = true) (v : Fin 64) :
    exec (.msixUnmask v) s = .next (if bitAt s.host.msixPba v then (s.unmasked v).sendMsix v else s.unmasked v) :=
  if_neg (not_not.2 up)

theorem State.unmasked_kept (s : State) (v : Fin 64) : Kept [.regs, .host] s (s.unmasked v) :=
  .of (State.put_kept _ _ _) (.upd [.host] .refl)

/-- Settles O2. -/
theorem eventRecordsAndVectors : Obligations.event_records_and_vectors := by
  unfold Obligations.event_records_and_vectors
  intro s
  refine ⟨fun e ev rest inside queue on short room => ?_, fun e inside due unmasked => ?_, fun e inside due masked => ?_,
    fun v held up => ?_, fun v free up => ?_⟩
  · obtain ⟨en, link, d0⟩ := on
    have takes : s.eqWritable e 1 = true := by
      simpa [State.eqWritable, State.on, en, link, d0] using room
    refine ⟨_, execEventRecordWrite_of_short queue short takes, ?_⟩
    obtain ⟨mem, prod, regs⟩ := s.writeRecord_writes e fun phase => ev.first phase (s.eqRing e).lost
    have kept := s.writeRecord_kept e fun phase => ev.first phase (s.eqRing e).lost
    rw [State.modEq_same _ _ (by rw [kept.host]; exact inside)]
    refine ⟨rfl, rfl, prod, ?_, fun a apart => ?_, .of_kept (.of (State.modEq_kept _ _ _) (.of kept .refl)), regs⟩
    · have back := s.hostMem.readBytes_writeBytes (s.recordAt e) (ev.first (s.on (Reg.HST_EQ_STATUS_PHASE e)) (s.eqRing e).lost)
      rw [Event.first_length] at back
      exact (congrArg (fun m => Memory.readBytes m (s.recordAt e) 32) mem).trans back
    · refine (congrArg (fun m => Memory.read m a) mem).trans (Memory.read_writeBytes_other _ ?_)
      rwa [Event.first_length]
  · obtain ⟨sent, pba, regs⟩ := State.sendMsix_sends unmasked
    exact ⟨_, if_pos due, State.modEq_disarmed _ _, sent, pba,
      .of_kept (.of (State.modEq_kept _ _ _) (State.sendMsix_kept _ _)), regs⟩
  · refine ⟨_, if_pos due, State.modEq_disarmed _ _, ?_⟩
    rw [State.sendMsix_masked masked]
    exact ⟨bitAt_setBit _ _ _, rfl, .of_kept (.of (State.modEq_kept _ _ _) (.upd [.host] .refl))⟩
  · refine ⟨_, (execMsixUnmask_up up v).trans (congrArg _ (if_pos held)), ?_⟩
    obtain ⟨sent, pba, regs⟩ := State.sendMsix_sends (s.unmasked_mask v)
    refine ⟨(regs _ .ofNumbers fun _ none => absurd none List.not_mem_nil).trans (s.unmasked_mask v), ?_, sent, ?_, ?_⟩
    · rw [pba]
      exact bitAt_setBit _ _ _
    · exact .of_kept (.of (State.sendMsix_kept _ _) (.of (s.unmasked_kept v) .refl))
    · exact ((RegsBut.put s _ _).trans regs).weaken fun _ => id
  · have ran := (execMsixUnmask_up up v).trans (congrArg _ (if_neg (Bool.eq_false_iff.1 free)))
    exact ⟨_, ran, s.unmasked_mask v, rfl, .of_kept (s.unmasked_kept v), RegsBut.put s _ _⟩

end Sys2Proof.Machine
end

section
/-! PROOFS. Statements on the set-up of the host's rings (spec/19_host_interface.md, R432 to R438): BASE and CFG of a ring, enabled
and not, and HST_CTRL. -/
namespace Sys2Proof.Machine

set_option Elab.async false
/-! ### Fields of words, in numbers -/

theorem bvField_eq_div (v : BitVec 64) {lo w : Nat} (fits : w ≤ 64) : bvField v lo w = v.toNat / 2 ^ lo % 2 ^ w := by
  apply Nat.eq_of_testBit_eq
  intro i
  rw [bvField_testBit v lo w i fits, Nat.testBit_mod_two_pow, Nat.testBit_div_two_pow, BitVec.testBit_toNat, Nat.add_comm lo i]

theorem bvField_word_eq_div (v : Word) {lo w : Nat} (fits : w ≤ 64) :
    bvField (v.setWidth 64) lo w = v.toNat / 2 ^ lo % 2 ^ w := by
  rw [bvField_eq_div _ fits, BitVec.toNat_setWidth, Nat.mod_eq_of_lt (v.isLt.trans (by decide))]

theorem bvField_bit (v : Word) {i : Nat} (inside : i < 32) (set : v.getLsbD i = true) : bvField (v.setWidth 64) i 1 = 1 := by
  have lt := bvField_lt (v.setWidth 64) (lo := i) (show 1 ≤ 64 by decide)
  have bit := bvField_testBit (v.setWidth 64) i 1 0 (by decide)
  rw [BitVec.getLsbD_setWidth, Nat.add_zero, set, Nat.testBit_zero] at bit
  simp only [decide_eq_true (show 0 < 1 by decide), decide_eq_true (show i < 64 by omega), Bool.and_true,
    decide_eq_true_eq] at bit
  omega

theorem toNat_append_words (hi lo : BitVec 32) : (hi ++ lo : BitVec 64).toNat = hi.toNat * 2 ^ 32 + lo.toNat := by
  rw [BitVec.toNat_append, ← Nat.shiftLeft_add_eq_or_of_lt lo.isLt, Nat.shiftLeft_eq]

/-! ### The registers of the host block -/

/-- An offset within the host interface's registers below its counters. -/
def inHost (off : Nat) : Prop := 0x00100000 ≤ off ∧ off < 0x00104000

section Host
variable {off : Nat} (inside : inHost off)
include inside

theorem canonOffset_of_inHost : canonOffset off = off := by
  obtain ⟨low, high⟩ := inside
  exact if_neg (by omega)

theorem domainOf_of_inHost : domainOf off = 14 := by
  obtain ⟨low, high⟩ := inside
  have blk : off / 0x10000 = 0x10 := by omega
  unfold domainOf
  simp [blk]

/-- A write of a register of one word of the host interface. -/
theorem State.writeWord_host {s : State} (up : s.domainOn 14 = true) (narrow : NarrowAt off) (v : BitVec 32) :
    WordWritten off v s (s.writeWord off v) :=
  s.writeWord_written v (canonOffset_of_inHost inside) (fun _ _ _ row => narrow _ row)
    (by rw [domainOf_of_inHost inside]; exact up)

end Host

/-! ### BASE of a ring (R433, R436) -/

/-- The base of a ring. -/
def baseField : FieldRow := ⟨12, 52, .rw, .const 0, .kept, none⟩

/-- A ring's BASE lies at an offset. -/
structure BaseAt (off : Nat) : Prop where
  low : ∃ x ∈ findRow off, x.1.wide = true ∧ x.2.2 = 0 ∧ x.1.fields = [baseField]
  high : ∃ x ∈ findRow (off + 4), x.1.wide = true ∧ x.2.2 = 1 ∧ x.1.fields = [baseField]
  inside : inHost off ∧ inHost (off + 4)

/-- R433: a base after a write of its register, or of one half. -/
def newBase (half : Option (Fin 2)) (old : Nat) (v : BitVec 64) : Nat :=
  match half with
  | none => v.toNat / 4096
  | some h => if h = 0 then old / 2 ^ 20 * 2 ^ 20 + v.toNat / 4096 % 2 ^ 20 else v.toNat % 2 ^ 32 * 2 ^ 20 + old % 2 ^ 20

/-- What a write of one 64-bit value leaves of a base, in its register's 64 bits. -/
theorem baseField_written (old v : BitVec 64) : bvField (baseField.written old v) 12 52 = v.toNat / 4096 := by
  rw [show bvField (baseField.written old v) 12 52 = bvField v 12 52 from
    FieldRow.bvField_written baseField old v (by decide), bvField_eq_div _ (by decide)]
  have lt := v.isLt
  show v.toNat / 4096 % 4503599627370496 = v.toNat / 4096
  omega

/-- The base in a register's 64 bits. -/
theorem bvField_base (x : BitVec 64) : bvField x 12 52 = x.toNat / 4096 % 4503599627370496 := bvField_eq_div x (by decide)

theorem State.get_base (s : State) (off : Nat) :
    s.get ⟨off, 12, 52⟩ = ((rfWord s.regs (off + 4)).toNat * 4294967296 + (rfWord s.regs off).toNat) / 4096 := by
  have pair := toNat_append_words (rfWord s.regs (off + 4)) (rfWord s.regs off)
  have lt := (rfPair s.regs off).isLt
  rw [State.get, rfGet_eq_pair _ (by decide), bvField_base, rfPair, pair]
  rw [rfPair, pair] at lt
  omega

theorem State.get_base_pairSet (s : State) (off : Nat) (old v : BitVec 64) :
    (s.pairSet off (baseField.written old v)).get ⟨off, 12, 52⟩ = v.toNat / 4096 := by
  rw [State.get, rfGet_eq_pair _ (by decide), State.rfPair_pairSet, baseField_written]

/-- R433: what a write of a base, or of one half, leaves. -/
theorem State.writeHalf_base {s : State} {off : Nat} (base : BaseAt off) (up : s.domainOn 14 = true) (half : Option (Fin 2))
    (v : BitVec 64) :
    SameBut [.regs] s (s.writeHalf off half v) ∧
      (s.writeHalf off half v).get ⟨off, 12, 52⟩ = newBase half (s.get ⟨off, 12, 52⟩) v := by
  obtain ⟨⟨⟨r, idx, k⟩, row, isWide, rfl, fields⟩, ⟨⟨r', idx', k'⟩, row', isWide', rfl, fields'⟩, inside, inside'⟩ := base
  have row : findRow off = some (r, idx, 0) := row
  have row' : findRow (off + 4) = some (r', idx', 1) := row'
  have isWide : r.wide = true := isWide
  have isWide' : r'.wide = true := isWide'
  have fields : r.fields = [baseField] := fields
  have fields' : r'.fields = [baseField] := fields'
  have only (p : Bool) (h : p = true) : [baseField].filter (fun _ => p) = [baseField] := by rw [h]; rfl
  match half with
  | none =>
    have ran : s.writeHalf off none v = s.pairSet off (baseField.written (rfPair s.regs off) v) := by
      simp only [State.writeHalf, State.writePair, canonOffset_of_inHost inside, domainOf_of_inHost inside, up, row, isWide,
        RegRow.written, fields]
      rfl
    rw [ran]
    exact ⟨rfl, s.get_base_pairSet off _ v⟩
  | some 0 =>
    have ran : s.writeHalf off (some 0) v =
        s.pairSet off (baseField.written (rfPair s.regs off) (rfWord s.regs (off + 4) ++ v.setWidth 32)) := by
      simp only [State.writeHalf, State.writeWord, show off + 4 * (0 : Fin 2).val = off from rfl, canonOffset_of_inHost inside,
        domainOf_of_inHost inside, up, row, isWide, fields]
      rfl
    rw [ran]
    refine ⟨rfl, (s.get_base_pairSet off _ _).trans ?_⟩
    rw [toNat_append_words, s.get_base, newBase, if_pos rfl, BitVec.toNat_setWidth]
    omega
  | some 1 =>
    have ran : s.writeHalf off (some 1) v =
        s.pairSet off (baseField.written (rfPair s.regs off) (v.setWidth 32 ++ rfWord s.regs off)) := by
      simp only [State.writeHalf, State.writeWord, show off + 4 * (1 : Fin 2).val = off + 4 from rfl,
        canonOffset_of_inHost inside', domainOf_of_inHost inside', up, row', isWide', fields']
      rfl
    rw [ran]
    refine ⟨rfl, (s.get_base_pairSet off _ _).trans ?_⟩
    rw [toNat_append_words, s.get_base, newBase, if_neg (by decide), BitVec.toNat_setWidth]
    omega

theorem baseAt_submission : ∀ r : Fin 32, BaseAt (0x00101000 + 32 * r) := by
  have low : ∀ r : Fin 32, ∃ x ∈ findRow (0x00101000 + 32 * r), x.1.wide = true ∧ x.2.2 = 0 ∧ x.1.fields = [baseField] := by
    decide +kernel
  have high : ∀ r : Fin 32, ∃ x ∈ findRow (0x00101000 + 32 * r + 4), x.1.wide = true ∧ x.2.2 = 1 ∧ x.1.fields = [baseField] := by
    decide +kernel
  exact fun r => ⟨low r, high r, ⟨by omega, by omega⟩, by omega, by omega⟩

theorem baseAt_event : ∀ e : Fin 8, BaseAt (0x00102000 + 32 * e) := by
  have low : ∀ e : Fin 8, ∃ x ∈ findRow (0x00102000 + 32 * e), x.1.wide = true ∧ x.2.2 = 0 ∧ x.1.fields = [baseField] := by
    decide +kernel
  have high : ∀ e : Fin 8, ∃ x ∈ findRow (0x00102000 + 32 * e + 4), x.1.wide = true ∧ x.2.2 = 1 ∧ x.1.fields = [baseField] := by
    decide +kernel
  exact fun e => ⟨low e, high e, ⟨by omega, by omega⟩, by omega, by omega⟩

theorem State.setCons_get (s : State) (r cons : Nat) (g : Field) :
    (s.setCons r cons).get g = (s.put (Reg.HST_SQ_IDX_CONS r) cons).get g := by
  unfold State.setCons
  extract_lets shadow same s₁
  split
  · rfl
  · exact congrArg (fun rf => rfGet rf g) (State.hostWrite_kept _ _ _).regs

/-- R436: the write of a base of a disabled submission ring. -/
theorem execHstSqBaseWrite_disabled {s : State} {r : Fin 32} (disabled : s.get (Reg.HST_SQ_CFG_EN r) = 0)
    (up : s.domainOn 14 = true) (half : Option (Fin 2)) (v : BitVec 64) : Acts (.hstSqBaseWrite r ⟨half, v⟩) s fun t =>
      t.get (Reg.HST_SQ_BASE_BASE r) = newBase half (s.get (Reg.HST_SQ_BASE_BASE r)) v ∧
      t.get (Reg.HST_SQ_IDX_PROD r) = 0 ∧ t.get (Reg.HST_SQ_IDX_CONS r) = 0 ∧ SameBut [.regs, .hostMem, .host] s t := by
  obtain ⟨same, base⟩ := State.writeHalf_base (baseAt_submission r) up half v
  rw [Nat.mul_comm 32 r.val] at same base
  refine ⟨_, (if_neg (not_not.2 up)).trans (if_neg (by simp [State.on, disabled])), ?_⟩
  rw [Nat.mul_comm 32 r.val]
  refine ⟨(State.setCons_get ..).trans ?_, (State.setCons_get ..).trans ?_, (State.setCons_get ..).trans <| State.get_put_same _ _ 0 .ofNumbers (show 0 < 2 ^ 16 by decide), ?_⟩
  · exact ((State.get_put_apart _ _ .ofNumbers).trans (State.get_put_apart _ _ .ofNumbers)).trans base
  · exact (State.get_put_apart _ _ .ofNumbers).trans (State.get_put_same _ _ 0 .ofNumbers (show 0 < 2 ^ 16 by decide))
  · have kept : Kept [.regs] s (s.writeHalf (0x00101000 + r * 32) half v) := ⟨same, (State.writeHalf_kept ..).wf⟩
    exact .of_kept (.of (State.setCons_kept ..) (.of (State.put_kept ..) (.of kept .refl)))

/-- R436: the write of a base of a disabled event ring. -/
theorem execHstEqBaseWrite_disabled {s : State} {e : Fin 8} (disabled : s.get (Reg.HST_EQ_CFG_EN e) = 0)
    (up : s.domainOn 14 = true) (half : Option (Fin 2)) (v : BitVec 64) : Acts (.hstEqBaseWrite e ⟨half, v⟩) s fun t =>
      t.get (Reg.HST_EQ_BASE_BASE e) = newBase half (s.get (Reg.HST_EQ_BASE_BASE e)) v ∧
      t.get (Reg.HST_EQ_IDX_PROD e) = 0 ∧ t.get (Reg.HST_EQ_IDX_CONS e) = 0 ∧ t.get (Reg.HST_EQ_STATUS_PHASE e) = 1 ∧
      SameBut [.regs] s t := by
  obtain ⟨same, base⟩ := State.writeHalf_base (baseAt_event e) up half v
  rw [Nat.mul_comm 32 e.val] at same base
  refine ⟨_, (if_neg (not_not.2 up)).trans (if_neg (by simp [State.on, disabled])), ?_⟩
  rw [Nat.mul_comm 32 e.val]
  have index : (0 : Nat) < 2 ^ 16 := by decide
  refine ⟨?_, ?_, ?_, ?_, ?_⟩
  · exact ((State.get_put_apart _ _ .ofNumbers).trans
      ((State.get_put_apart _ _ .ofNumbers).trans (State.get_put_apart _ _ .ofNumbers))).trans base
  · exact (State.get_put_apart _ _ .ofNumbers).trans
      ((State.get_put_apart _ _ .ofNumbers).trans (State.get_put_same _ _ 0 .ofNumbers index))
  · exact (State.get_put_apart _ _ .ofNumbers).trans (State.get_put_same _ _ 0 .ofNumbers index)
  · exact State.get_put_same _ _ 1 .ofNumbers (show 1 < 2 ^ 1 by decide)
  · have kept : Kept [.regs] s (s.writeHalf (0x00102000 + e * 32) half v) := ⟨same, (State.writeHalf_kept ..).wf⟩
    exact .of_kept (.of (State.puts_kept ..) kept)

/-! ### CFG of a ring (R436, R438, R442) -/

/-- The row of the register table of a submission ring's CFG. -/
def sqCfgRow : RegRow := ⟨"HST_SQ_CFG", 0x00101008, [(32, 0x20)], false, [⟨31, 1, .rw, .const 0, .val 0, none⟩,
  ⟨16, 5, .rw, .const 4, .kept, some (4, 16)⟩, ⟨0, 3, .rw, .const 0, .kept, none⟩]⟩

/-- The row of the register table of an event ring's CFG. -/
def eqCfgRow : RegRow := ⟨"HST_EQ_CFG", 0x00102008, [(8, 0x20)], false, [⟨31, 1, .rw, .const 0, .val 0, none⟩,
  ⟨16, 5, .rw, .const 4, .kept, some (4, 16)⟩, ⟨8, 6, .rw, .const 0, .kept, none⟩]⟩

/-- The row of the register table of HST_CTRL. -/
def hstCtrlRow : RegRow := ⟨"HST_CTRL", 0x00100000, [], false, [⟨0, 1, .rw, .const 0, .val 0, none⟩]⟩

theorem findRow_sqCfg : ∀ r : Fin 32, findRow (0x00101008 + r * 32) = some (sqCfgRow, [r.val], 0) := by decide +kernel

theorem findRow_eqCfg : ∀ e : Fin 8, findRow (0x00102008 + e * 32) = some (eqCfgRow, [e.val], 0) := by decide +kernel

theorem findRow_hstCtrl : findRow 0x00100000 = some (hstCtrlRow, [], 0) := by decide +kernel

/-- A narrow row at an offset makes the offset narrow. -/
theorem narrowAt_of_row {off : Nat} {r : RegRow} {idx : List Nat} (row : findRow off = some (r, idx, 0)) (narrow : r.Narrow) :
    NarrowAt off := by
  intro x member
  obtain rfl := Option.some.inj (row.symm.trans member)
  exact narrow

theorem State.writeSqCfg_written {s : State} (up : s.domainOn 14 = true) (r : Fin 32) (v : Word) :
    WordWritten (0x00101008 + r * 32) v s (s.writeWord (0x00101008 + r * 32) v) :=
  State.writeWord_host ⟨by omega, by omega⟩ up (narrowAt_of_row (findRow_sqCfg r) (by decide)) v

theorem State.writeEqCfg_written {s : State} (up : s.domainOn 14 = true) (e : Fin 8) (v : Word) :
    WordWritten (0x00102008 + e * 32) v s (s.writeWord (0x00102008 + e * 32) v) :=
  State.writeWord_host ⟨by omega, by omega⟩ up (narrowAt_of_row (findRow_eqCfg e) (by decide)) v

theorem State.writeHstCtrl_written {s : State} (up : s.domainOn 14 = true) (v : Word) :
    WordWritten 0x00100000 v s (s.writeWord 0x00100000 v) :=
  State.writeWord_host ⟨by omega, by omega⟩ up (narrowAt_of_row findRow_hstCtrl (by decide)) v

/-- R436, R438: CFG of a disabled submission ring enables it. -/
theorem execHstSqCfgWrite_enables {s : State} {r : Fin 32} {v : Word} (disabled : s.get (Reg.HST_SQ_CFG_EN r) = 0)
    (enables : v.getLsbD 31 = true) (up : s.domainOn 14 = true) : Acts (.hstSqCfgWrite r v) s fun t =>
      t.get (Reg.HST_SQ_CFG_EN r) = 1 ∧ t.get (Reg.HST_SQ_CFG_EQ r) = v.toNat % 8 ∧
      t.get (Reg.HST_SQ_CFG_SIZE r) = (if 4 ≤ v.toNat / 65536 % 32 ∧ v.toNat / 65536 % 32 ≤ 16 then v.toNat / 65536 % 32
        else s.get (Reg.HST_SQ_CFG_SIZE r)) ∧
      t.get (Reg.HST_SQ_STATUS_ERROR r) = 0 ∧ t.get (Reg.HST_SQ_IDX_CONS r) = s.get (Reg.HST_SQ_IDX_CONS r) ∧
      SameBut [.regs] s t := by
  have written := State.writeSqCfg_written up r v
  have fields := written.fields _ _ _ (findRow_sqCfg r)
  have en : (s.writeWord (0x00101008 + r * 32) v).get (Reg.HST_SQ_CFG_EN r) = 1 :=
    (fields ⟨31, 1, .rw, .const 0, .val 0, none⟩ (by simp [sqCfgRow])).trans (bvField_bit v (by decide) enables)
  have size := fields ⟨16, 5, .rw, .const 4, .kept, some (4, 16)⟩ (by simp [sqCfgRow])
  have eq := fields ⟨0, 3, .rw, .const 0, .kept, none⟩ (by simp [sqCfgRow])
  have ran : exec (.hstSqCfgWrite r v) s =
      .next ((s.writeWord (0x00101008 + r * 32) v).put (Reg.HST_SQ_STATUS_ERROR r) 0) := by
    show execHstSqCfgWrite r v s = _
    rw [execHstSqCfgWrite, if_neg (not_not.2 up), if_neg (by simp [State.on, disabled]), Nat.mul_comm 32 r.val]
    exact congrArg _ (if_pos (by simp [State.on, en]))
  refine ⟨_, ran, (State.get_put_apart _ _ .ofNumbers).trans en, (State.get_put_apart _ _ .ofNumbers).trans ?_,
    (State.get_put_apart _ _ .ofNumbers).trans ?_, State.get_put_same _ _ 0 .ofNumbers (show 0 < 2 ^ 8 by decide),
    (State.get_put_apart _ _ .ofNumbers).trans (written.get_other (by decide) (by omega)), ?_⟩
  · exact eq.trans (bvField_low v (by decide))
  · have field : bvField (v.setWidth 64) 16 5 = v.toNat / 65536 % 32 := bvField_word_eq_div v (by decide)
    rw [← field]
    exact size
  · exact .of_kept (.of (State.put_kept ..) ⟨written.same, (State.writeWord_kept ..).wf⟩)

/-- R436, R442: CFG of a disabled event ring enables and arms it. -/
theorem execHstEqCfgWrite_enables {s : State} {e : Fin 8} {v : Word} (disabled : s.get (Reg.HST_EQ_CFG_EN e) = 0)
    (enables : v.getLsbD 31 = true) (up : s.domainOn 14 = true) (inside : e.val < s.host.events.length) :
    Acts (.hstEqCfgWrite e v) s fun t => t.get (Reg.HST_EQ_CFG_EN e) = 1 ∧ (t.eqRing e).armed = true ∧
      (t.eqRing e).queue = (s.eqRing e).queue ∧ SameBut [.regs, .host] s t := by
  have written := State.writeEqCfg_written up e v
  have en : (s.writeWord (0x00102008 + e * 32) v).get (Reg.HST_EQ_CFG_EN e) = 1 :=
    (written.fields _ _ _ (findRow_eqCfg e) ⟨31, 1, .rw, .const 0, .val 0, none⟩ (by simp [eqCfgRow])).trans
      (bvField_bit v (by decide) enables)
  have ran : exec (.hstEqCfgWrite e v) s = .next ((s.writeWord (0x00102008 + e * 32) v).modEq e EventRing.arm) := by
    show execHstEqCfgWrite e v s = _
    rw [execHstEqCfgWrite, if_neg (not_not.2 up), if_neg (by simp [State.on, disabled]), Nat.mul_comm 32 e.val]
    exact congrArg _ (if_pos (by simp [State.on, en]))
  have host : (s.writeWord (0x00102008 + e * 32) v).host = s.host := by rw [written.same]
  refine ⟨_, ran, en, ?_⟩
  rw [State.modEq_same _ _ (by rw [host]; exact inside)]
  refine ⟨rfl, ?_, ?_⟩
  · rw [State.eqRing, State.eqRing, host]
    rfl
  · have kept : Kept [.regs] s (s.writeWord (0x00102008 + e * 32) v) := ⟨written.same, (State.writeWord_kept ..).wf⟩
    exact .of_kept (.of (State.modEq_kept ..) (.of kept .refl))

/-! ### Writes of enabled rings (R436) -/

/-- R436: a write of an enabled ring clears EN, and reports. -/
theorem State.ringBusy_clears (s : State) {en : Field} (quiet : en.Quiet) (width : en.width = 1)
    (noRing : en.Apart Reg.OBS_CTRL_RING_EN) (ring off : Nat) :
    (s.ringBusy en ring off).get en = 0 ∧ Reported [en] s (s.ringBusy en ring off) := by
  refine ⟨?_, ((Reported.put s en 0).trans (raise_noted _ _ _).reported (State.get_put_apart _ _ noRing)).weaken fun _ => id⟩
  exact (State.raise_get _ _ _ quiet).trans (s.get_put_same en 0 quiet.1 (by rw [width]; decide))

/-- R436: a write of an enabled submission ring. -/
theorem State.sqBusy_clears (s : State) (r : Fin 32) (off : Nat) :
    let t := (s.ringBusy (Reg.HST_SQ_CFG_EN r) r off).put (Reg.HST_SQ_STATUS_WAIT r) 0
    t.get (Reg.HST_SQ_CFG_EN r) = 0 ∧ t.get (Reg.HST_SQ_STATUS_WAIT r) = 0 ∧
      Reported [Reg.HST_SQ_CFG_EN r, Reg.HST_SQ_STATUS_WAIT r] s t := by
  obtain ⟨en, reported⟩ := s.ringBusy_clears (en := Reg.HST_SQ_CFG_EN r) .ofNumbers rfl .ofNumbers r off
  refine ⟨(State.get_put_apart _ _ .ofNumbers).trans en, State.get_put_same _ _ 0 .ofNumbers (show 0 < 2 ^ 8 by decide),
    reported.trans (.put _ _ _) ?_⟩
  exact (State.raise_get _ _ _ ringEn_quiet).trans (State.get_put_apart _ _ .ofNumbers)

/-- Settles O4. -/
theorem ringSetUpWrites : Obligations.ring_set_up_writes := by
  unfold Obligations.ring_set_up_writes
  intro s
  have isOn {f : Field} (one : s.get f = 1) : s.on f = true := by simp [State.on, one]
  refine ⟨fun r v disabled up => execHstSqBaseWrite_disabled disabled up none v,
    fun r h v disabled up => execHstSqBaseWrite_disabled disabled up (some h) v,
    fun r half v enabled up => ⟨_, (if_neg (not_not.2 up)).trans (if_pos (isOn enabled)), s.sqBusy_clears r _⟩,
    fun r v disabled enables up => execHstSqCfgWrite_enables disabled enables up,
    fun r v enabled up => ⟨_, (if_neg (not_not.2 up)).trans (if_pos (isOn enabled)), s.sqBusy_clears r _⟩,
    fun e v disabled up => execHstEqBaseWrite_disabled disabled up none v,
    fun e h v disabled up => execHstEqBaseWrite_disabled disabled up (some h) v,
    fun e half v enabled up => ⟨_, (if_neg (not_not.2 up)).trans (if_pos (isOn enabled)),
      s.ringBusy_clears .ofNumbers rfl .ofNumbers _ _⟩,
    fun e v disabled enables up inside => execHstEqCfgWrite_enables disabled enables up inside,
    fun e v enabled up => ⟨_, (if_neg (not_not.2 up)).trans (if_pos (isOn enabled)),
      s.ringBusy_clears .ofNumbers rfl .ofNumbers _ _⟩, fun v up => ?_⟩
  have written := State.writeHstCtrl_written up v
  refine ⟨_, rfl, ?_, written.same, written.regsBut⟩
  refine (written.fields _ _ _ findRow_hstCtrl ⟨0, 1, .rw, .const 0, .val 0, none⟩ (by simp [hstCtrlRow])).trans ?_
  exact (bvField_low v (by decide)).trans rfl

end Sys2Proof.Machine
end

section
/-! PROOFS. Statements on descriptors at the front of their ring (spec/19_host_interface.md, R437, R438, R443, R444): one that waits,
and one that is taken and completes at once. -/
namespace Sys2Proof.Machine

set_option Elab.async false
/-! ### Descriptors and their commands (R443) -/

/-- R437: a descriptor's command, with the descriptor's own opcode, is a descriptor at the front of its ring. -/
theorem exec_withDesc {c : Instr} {op : Nat} {d : Desc} (command : (op, c) ∈ descCommands d) (opcode : d.field 0 1 = op)
    (s : State) : ∃ full checks k, exec c s = .next (s.withDesc d (usesDram d) full checks k) := by
  simp only [descCommands, List.mem_cons, Prod.mk.injEq, List.not_mem_nil, or_false] at command
  rcases command with ⟨rfl, rfl⟩ | ⟨rfl, rfl⟩ | ⟨rfl, rfl⟩ | ⟨rfl, rfl⟩ | ⟨rfl, rfl⟩ | ⟨rfl, rfl⟩ | ⟨rfl, rfl⟩ | ⟨rfl, rfl⟩ |
    ⟨rfl, rfl⟩ | ⟨rfl, rfl⟩ | ⟨rfl, rfl⟩ | ⟨rfl, rfl⟩ | ⟨rfl, rfl⟩ | ⟨rfl, rfl⟩ | ⟨rfl, rfl⟩ | ⟨rfl, rfl⟩ | ⟨rfl, rfl⟩ |
    ⟨rfl, rfl⟩ | ⟨rfl, rfl⟩ | ⟨rfl, rfl⟩
  pick_goal 20
  · have dram : usesDram d = false := by simp only [usesDram, opcode]
    rw [dram]
    exact ⟨_, _, _, if_pos (.inl opcode)⟩
  all_goals
    rw [usesDram, opcode]
    exact ⟨_, _, _, if_neg (not_not.2 opcode)⟩

/-- Settles O14. -/
theorem waitingDescriptorsShowWhy : Obligations.waiting_descriptors_show_why := by
  unfold Obligations.waiting_descriptors_show_why
  intro s
  refine ⟨fun c op d w command opcode waits codes => ?_, fun c op d command opcode absent => ?_⟩
  · obtain ⟨full, checks, k, ran⟩ := exec_withDesc command opcode s
    have shows : s.withDesc d (usesDram d) full checks k = s.put (Reg.HST_SQ_STATUS_WAIT d.ring) w := by
      unfold State.withDesc
      rw [waits]
      split
      case h_1 => omega
      case h_2 => omega
      case h_3 => rfl
    rw [shows] at ran
    exact ⟨_, ran, State.get_put_same _ _ _ .ofNumbers (show w < 2 ^ 8 by omega), .of_kept (State.put_kept ..), RegsBut.put s _ _⟩
  · obtain ⟨full, checks, k, ran⟩ := exec_withDesc command opcode s
    refine ⟨_, ran, ?_⟩
    unfold State.withDesc
    rw [absent]
    rfl

/-! ### A descriptor is taken (R437) -/

/-- In t a descriptor at s has been taken, and its job, the last of those in flight, has not completed. -/
structure Took (d : Desc) (s t : State) : Prop where
  cons : t.get (Reg.HST_SQ_IDX_CONS d.ring) = (s.get (Reg.HST_SQ_IDX_CONS d.ring) + 1) % 65536
  next : t.host.nextAseq = (s.host.nextAseq + 1) % 2 ^ 32
  jobs : t.host.jobs = s.host.jobs ++ [s.jobOf d]
  link : t.get Reg.HST_STATUS_LINK_UP = 1
  awake : t.host.d3hot = false
  ringEn : t.get Reg.OBS_CTRL_RING_EN = s.get Reg.OBS_CTRL_RING_EN

/-- R437: what a ring whose descriptor is taken must show. -/
theorem State.link_of_takeWait {s : State} {d : Desc} {dram : Bool} (now : s.takeWait d dram = 0) :
    s.get Reg.HST_STATUS_LINK_UP = 1 ∧ s.host.d3hot = false := by
  unfold State.takeWait at now
  extract_lets r eq at now
  split at now
  case isTrue => cases now
  case isFalse shown =>
    obtain ⟨-, -, -, link, awake, -⟩ := not_not.1 shown
    have lt : s.get Reg.HST_STATUS_LINK_UP < 2 ^ 1 := s.get_lt _ .ofNumbers
    have up : s.get Reg.HST_STATUS_LINK_UP ≠ 0 := of_decide_eq_true link
    exact ⟨by omega, awake⟩

theorem State.setCons_host (s : State) (r cons : Nat) :
    (s.setCons r cons).host = { s.host with heldWrites := (s.setCons r cons).host.heldWrites } := by
  unfold State.setCons State.hostWrite
  extract_lets shadow same s₁
  split
  · rfl
  · split <;> rfl

/-- The machine with the job of a descriptor in flight, its ring past it; not counted yet. -/
def State.inFlight (s : State) (d : Desc) : State :=
  let t := (s.put (Reg.HST_SQ_STATUS_WAIT d.ring) 0).setCons d.ring ((s.get (Reg.HST_SQ_IDX_CONS d.ring) + 1) % 65536)
  { t with host := { t.host with nextAseq := (s.host.nextAseq + 1) % 2 ^ 32, jobs := t.host.jobs ++ [s.jobOf d] } }

theorem State.inFlight_get (s : State) (d : Desc) {g : Field} (wait : (Reg.HST_SQ_STATUS_WAIT d.ring).Apart g)
    (cons : (Reg.HST_SQ_IDX_CONS d.ring).Apart g) : (s.inFlight d).get g = s.get g :=
  (State.setCons_get ..).trans ((State.get_put_apart _ _ cons).trans (State.get_put_apart _ _ wait))

theorem State.inFlight_took {s : State} {d : Desc} {dram : Bool} (now : s.takeWait d dram = 0) : Took d s (s.inFlight d) := by
  obtain ⟨link, awake⟩ := State.link_of_takeWait now
  have host := (s.put (Reg.HST_SQ_STATUS_WAIT d.ring) 0).setCons_host d.ring ((s.get (Reg.HST_SQ_IDX_CONS d.ring) + 1) % 65536)
  have ring := d.ring.isLt
  exact
    { cons := (State.setCons_get ..).trans (State.get_put_same _ _ _ .ofNumbers (Nat.mod_lt _ (by decide)))
      next := rfl
      jobs := by
        show (State.setCons _ _ _).host.jobs ++ _ = _
        rw [host]
        rfl
      link := (s.inFlight_get d .ofNumbers .ofNumbers).trans link
      awake := (congrArg HostState.d3hot host).trans awake
      ringEn := s.inFlight_get d .ofNumbers .ofNumbers }

/-- A report leaves a taken descriptor's job in flight. -/
theorem Took.noted {d : Desc} {s t u : State} (took : Took d s t) (noted : Noted t u) : Took d s u where
  cons := (noted.quiet _ .ofNumbers).trans took.cons
  next := (congrArg HostState.nextAseq noted.host).trans took.next
  jobs := noted.jobs.trans took.jobs
  link := (noted.quiet _ .ofNumbers).trans took.link
  awake := (congrArg HostState.d3hot noted.host).trans took.awake
  ringEn := (noted.quiet _ ringEn_quiet).trans took.ringEn

theorem State.takeJob_took {s : State} {d : Desc} {dram : Bool} (now : s.takeWait d dram = 0) : Took d s (s.takeJob d) :=
  (State.inFlight_took now).noted ((count_counted _ (cntHst 0)).noted fun _ quiet => quiet.hst 0 (by decide))

theorem State.takeWait_of_takes {s : State} {d : Desc} {op : Nat} {checks : List (Nat × Bool)}
    (taken : s.takes d op checks = true) : s.takeWait d (usesDram d) = 0 := by
  simp only [State.takes, Bool.and_eq_true, decide_eq_true_eq] at taken
  exact taken.1.1.1

theorem State.findJob_of_takes {s : State} {d : Desc} {op : Nat} {checks : List (Nat × Bool)}
    (taken : s.takes d op checks = true) : s.findJob s.host.nextAseq = none := by
  simp only [State.takes, Bool.and_eq_true, Option.isNone_iff_eq_none] at taken
  exact taken.2

/-- R444: the job of a taken descriptor, whose number was free, is in flight. -/
theorem Took.findJob {d : Desc} {s t : State} (took : Took d s t) (free : s.findJob s.host.nextAseq = none) :
    t.findJob s.host.nextAseq = some (s.jobOf d) := by
  rw [State.findJob, took.jobs, List.find?_append, ← State.findJob, free]
  simp [State.jobOf]

/-! ### A job that completes at once (R444) -/

/-- The counters that a completion moves beside reporting (R172). -/
def completionCounters : List Field := [⟨0x00500138, 0, 64⟩, ⟨0x00500140, 0, 64⟩]

theorem Reported.ringEn {s t : State} (reported : Reported completionCounters s t) :
    t.get Reg.OBS_CTRL_RING_EN = s.get Reg.OBS_CTRL_RING_EN := by
  refine reported.regs _ ringEn_quiet fun f listed => ?_
  simp only [completionCounters, List.mem_cons, List.not_mem_nil, or_false] at listed
  obtain rfl | rfl := listed <;> exact .of

/-- One completion operation after another. -/
theorem Reported.then {s t u : State} (first : Reported completionCounters s t) (second : Reported completionCounters t u) :
    Reported completionCounters s u :=
  (first.trans second first.ringEn).weaken fun f listed => by simpa using listed

theorem Noted.completes {s t : State} (noted : Noted s t) : Reported completionCounters s t :=
  noted.reported.weaken fun _ none => absurd none List.not_mem_nil

/-- R172: a completion is counted by its unit. -/
theorem State.countCodec_reported (s : State) (opcode status : Nat) :
    Reported completionCounters s (s.countCodec opcode status) := by
  have jobs (t : State) : Reported completionCounters t (t.count (cntSto 7)) :=
    ((count_counted t (cntSto 7)).reported .of).weaken fun f listed => by simp_all [completionCounters, cntSto]
  have overflows (t : State) : Reported completionCounters t (t.count (cntSto 8)) :=
    ((count_counted t (cntSto 8)).reported .of).weaken fun f listed => by simp_all [completionCounters, cntSto]
  unfold State.countCodec
  split
  · dsimp only
    split
    · exact (jobs s).then (overflows _)
    · exact jobs s
  · exact (Noted.rfl' s).completes

/-- The machine with a job's completion record written, and the job no longer in flight; not reported yet. -/
def State.finished (s : State) (j : Job) (status cause : Nat) (detail : List Byte) : State :=
  let t := if j.compAddr = 0 then s else s.hostWrite j.compAddr (completionRecord s j status cause detail)
  { t with host := { t.host with jobs := t.host.jobs.filter fun k => decide (k.aseq ≠ j.aseq) } }

/-- R444, R445: after the record of a completion, the completion reports. -/
theorem State.completeJob_reported (s : State) (j : Job) (status cause : Nat) (detail : List Byte) :
    Reported completionCounters (s.finished j status cause detail) (s.completeJob j status cause detail) := by
  have counts : Reported completionCounters (s.finished j status cause detail)
      ((if status = 0 then s.finished j status cause detail else (s.finished j status cause detail).count (cntHst 1)).countCodec
        j.opcode status) := by
    refine .then ?_ (State.countCodec_reported _ _ _)
    split
    · exact (Noted.rfl' _).completes
    · exact ((count_counted _ (cntHst 1)).noted fun _ quiet => quiet.hst 1 (by decide)).completes
  unfold State.completeJob
  extract_lets written left dropped counted payload e traced
  split
  · exact counts
  · exact counts.then (((trace_noted _ _ _).trans (enqueue_noted _ _ _)).trans (obsTrigger_noted _ _)).completes

/-- R445: byte 5 of a completion record is its status. -/
theorem completionRecord_status (s : State) (j : Job) (status cause : Nat) (detail : List Byte) :
    (completionRecord s j status cause detail)[5]? = some (byteOf status) := rfl

/-- R444, R445: the job of a taken descriptor completes with a status, and its record shows it. -/
theorem Took.complete {d : Desc} {s t : State} (took : Took d s t) (free : s.findJob s.host.nextAseq = none) {status : Nat}
    (byte : status < 256) (cause : Nat) (detail : List Byte) :
    DoneAtOnce d status s (t.complete s.host.nextAseq status cause detail) := by
  have ran : t.complete s.host.nextAseq status cause detail = t.completeJob (s.jobOf d) status cause detail := by
    unfold State.complete
    rw [took.findJob free]
  have reported := t.completeJob_reported (s.jobOf d) status cause detail
  have wrote (l : List Byte) : t.hostWrite (s.jobOf d).compAddr l = t.writeHost (s.jobOf d).compAddr l :=
    if_pos ⟨by simp [State.on, took.link], took.awake⟩
  have host : (t.finished (s.jobOf d) status cause detail).host =
      { t.host with jobs := t.host.jobs.filter fun k => decide (k.aseq ≠ s.host.nextAseq) } := by
    unfold State.finished
    rw [wrote]
    dsimp only
    split <;> rfl
  have regs : (t.finished (s.jobOf d) status cause detail).regs = t.regs := by
    unfold State.finished
    rw [wrote]
    dsimp only
    split <;> rfl
  have others : (s.host.jobs.filter fun k => decide (k.aseq ≠ s.host.nextAseq)) = s.host.jobs :=
    List.filter_eq_self.2 fun j listed => decide_eq_true (s.findJob_none.1 free j listed)
  rw [ran]
  refine ⟨⟨?_, ?_⟩, ?_, fun named ringOff => ?_⟩
  · refine (reported.regs _ .ofNumbers fun f listed => ?_).trans ((congrArg (fun rf => rfGet rf _) regs).trans took.cons)
    have ring := d.ring.isLt
    simp only [completionCounters, List.mem_cons, List.not_mem_nil, or_false] at listed
    obtain rfl | rfl := listed <;> exact .ofNumbers
  · rw [reported.host, host]
    exact took.next
  · rw [reported.host, host]
    show t.host.jobs.filter _ = _
    rw [took.jobs, List.filter_append, others]
    simp [State.jobOf]
  · have ringOff' : (t.finished (s.jobOf d) status cause detail).get Reg.OBS_CTRL_RING_EN = 0 :=
      (congrArg (fun rf => rfGet rf _) regs).trans (took.ringEn.trans ringOff)
    have mem : (t.finished (s.jobOf d) status cause detail).hostMem =
        t.hostMem.writeBytes (d.field 8 8) (completionRecord t (s.jobOf d) status cause detail) := by
      unfold State.finished
      rw [wrote, if_neg (show (s.jobOf d).compAddr ≠ 0 from named)]
      rfl
    obtain ⟨long, here⟩ := List.getElem?_eq_some_iff.1 (completionRecord_status t (s.jobOf d) status cause detail)
    rw [reported.mem ringOff', mem, Memory.read_writeBytes_same _ long, here]
    exact Nat.mod_eq_of_lt byte

/-! ### Malformed descriptors (R443) -/

theorem firstFailing_isSome {l : List (Nat × Bool)} {off : Nat} (fails : (off, false) ∈ l) : ∃ o, firstFailing l = some o := by
  induction l with
  | nil => cases fails
  | cons p r ih =>
    obtain ⟨o, ok⟩ := p
    cases ok with
    | true =>
      obtain ⟨q, found⟩ := ih (by simpa using fails)
      exact ⟨q, found⟩
    | false =>
      unfold firstFailing
      rw [if_neg Bool.false_ne_true]
      split
      · exact ⟨_, rfl⟩
      · exact ⟨_, rfl⟩

/-- Settles O13. -/
theorem malformedDescriptorsCompleteBadDesc : Obligations.malformed_descriptors_complete_bad_desc := by
  unfold Obligations.malformed_descriptors_complete_bad_desc
  intro s c op d command opcode reserved now free _
  obtain ⟨full, checks, k, ran⟩ := exec_withDesc command opcode s
  have header : (2, false) ∈ d.headerChecks ++ checks := by
    simp [Desc.headerChecks, Desc.zero, reserved]
  obtain ⟨off, fails⟩ := firstFailing_isSome header
  have ends : s.withDesc d (usesDram d) full checks k =
      ((s.takeJob d).raise 0x1002 [(1, d.ring), (2, s.get (Reg.HST_SQ_IDX_CONS d.ring)), (1, off)]).complete s.host.nextAseq 3 0x1002
        [] := by
    unfold State.withDesc
    rw [now, fails]
    rfl
  rw [ends] at ran
  exact ⟨_, ran, ((State.takeJob_took now).noted (raise_noted _ _ _)).complete free (by decide) _ _,
    .of_kept (.of (State.complete_kept ..) (.of (State.raise_kept ..) (State.takeJob_kept ..)))⟩

end Sys2Proof.Machine
end

section
/-! PROOFS. Statements on the jobs that open, feed and release streams and ledger records (spec/19_host_interface.md, R447, R449). -/
namespace Sys2Proof.Machine

set_option Elab.async false
/-! ### Checks of a taken descriptor (R443) -/

theorem State.check_of_takes {s : State} {d : Desc} {op : Nat} {checks : List (Nat × Bool)} (taken : s.takes d op checks = true)
    {off : Nat} {ok : Bool} (listed : (off, ok) ∈ checks) : ok = true := by
  simp only [State.takes, Bool.and_eq_true, Option.isNone_iff_eq_none] at taken
  obtain ⟨⟨-, passed⟩, -⟩ := taken
  cases ok with
  | true => rfl
  | false =>
    obtain ⟨o, fails⟩ := firstFailing_isSome (List.mem_append_right d.headerChecks listed)
    rw [fails] at passed
    cases passed

/-- A change of other things than registers and the host interface leaves a taken descriptor's job in flight. -/
theorem Took.upd {d : Desc} {s t u : State} (took : Took d s t) (regs : u.regs = t.regs := by rfl)
    (host : u.host = t.host := by rfl) : Took d s u where
  cons := (congrArg (fun rf => rfGet rf _) regs).trans took.cons
  next := (congrArg HostState.nextAseq host).trans took.next
  jobs := (congrArg HostState.jobs host).trans took.jobs
  link := (congrArg (fun rf => rfGet rf _) regs).trans took.link
  awake := (congrArg HostState.d3hot host).trans took.awake
  ringEn := (congrArg (fun rf => rfGet rf _) regs).trans took.ringEn

theorem State.showStore_get (s : State) {g : Field} (live : Reg.STO_STATUS_LIVE_REAMS.Apart g)
    (blocks : Reg.STO_FREE_BLOCKS.Apart g) (strips : Reg.STO_STATUS_OPEN_STRIPS.Apart g) : s.showStore.get g = s.get g := by
  unfold State.showStore
  refine State.get_puts_apart _ _ fun p listed => ?_
  simp only [List.mem_cons, List.not_mem_nil, or_false] at listed
  obtain rfl | rfl | rfl := listed
  · exact live
  · exact blocks
  · exact strips

theorem Took.showStore {d : Desc} {s t : State} (took : Took d s t) : Took d s t.showStore where
  cons := by
    have ring := d.ring.isLt
    exact (t.showStore_get .ofNumbers .ofNumbers .ofNumbers).trans took.cons
  next := (congrArg HostState.nextAseq t.showStore_kept.host).trans took.next
  jobs := (congrArg HostState.jobs t.showStore_kept.host).trans took.jobs
  link := (t.showStore_get .of .of .of).trans took.link
  awake := (congrArg HostState.d3hot t.showStore_kept.host).trans took.awake
  ringEn := (t.showStore_get .of .of .of).trans took.ringEn

/-! ### LAYOUT (R447) -/

/-- R447: the stream of a first LAYOUT descriptor. -/
def openedStream (d : Desc) : Stream :=
  { Stream.closed with
    isOpen := true, work := d.field 40 8, workLen := d.field 48 8, ranges := [(d.field 40 8, d.field 48 8)] }

/-- R447: a stream with the bytes of a LAYOUT descriptor added, its job a. -/
def Stream.fed (x : Stream) (d : Desc) (a : Nat) : Stream :=
  let len := d.field 32 4
  let inDram := bitAt (d.field 37 1) 2
  { x with received := x.received + len, last := bitAt (d.field 37 1) 1, sources := x.sources ++ [(x.received + len, inDram)],
           ranges := if inDram then x.ranges ++ [(d.field 16 8, len)] else x.ranges,
           jobs := x.jobs ++ [⟨a, x.received + len, x.received, if inDram then none else some (d.field 16 8)⟩] }

theorem execLayout_of_takes {s : State} {d : Desc} (taken : s.takes d 1 (layoutChecks d) = true) :
    exec (.layout d) s = .next ((s.takeJob d).layoutJob d (s.jobOf d)) := by
  have op := State.opcode_of_takes taken
  have dram : usesDram d = (bitAt (d.field 37 1) 0 || bitAt (d.field 37 1) 2) := by simp only [usesDram, op]
  show execLayout d s = _
  rw [execLayout, if_neg (not_not.2 op), ← dram, State.withDesc_of_takes taken]

/-- R447: a taken LAYOUT descriptor brings at least one word. -/
theorem State.layout_len_pos {s : State} {d : Desc} (taken : s.takes d 1 (layoutChecks d) = true) : 8 ≤ d.field 32 4 := by
  have check := State.check_of_takes taken (off := 32) (List.mem_append_left _ (List.mem_cons_of_mem _ List.mem_cons_self))
  exact (of_decide_eq_true check).1

theorem State.takeJob_stream (s : State) (d : Desc) (k : Nat) : (s.takeJob d).stream k = s.stream k :=
  State.stream_congr (s.takeJob_kept d).box k

theorem State.takeJob_memSize (s : State) (d : Desc) : (s.takeJob d).get Reg.MEM_SIZE_BYTES = s.get Reg.MEM_SIZE_BYTES := by
  have ring := d.ring.isLt
  exact (State.count_get _ _ Field.Quiet.ofNumbers .of).trans (s.inFlight_get d .ofNumbers .ofNumbers)

theorem State.takeJob_dramRangeOk (s : State) (d : Desc) (a n : Nat) :
    (s.takeJob d).dramRangeOk a n = s.dramRangeOk a n := by
  unfold State.dramRangeOk
  rw [State.takeJob_memSize]

/-- R447: a first LAYOUT opens its stream and feeds it. -/
theorem State.layoutJob_first {s : State} {d : Desc} {j : Job} (first : bitAt (d.field 37 1) 0 = true)
    (closed : (s.stream (d.field 36 1)).isOpen = false) (work : s.dramRangeOk (d.field 40 8) (d.field 48 8) = true)
    (bytes : bitAt (d.field 37 1) 2 = true → s.dramRangeOk (d.field 16 8) (d.field 32 4) = true) :
    s.layoutJob d j = ((s.modStream (d.field 36 1) fun _ => openedStream d).modStream (d.field 36 1) fun x =>
      x.fed d j.aseq).checkEnd (d.field 36 1) := by
  unfold State.layoutJob
  simp only [first, closed, work]
  rw [if_neg (by simp), if_neg (by simp), if_neg (fun ⟨dram, beyond⟩ => beyond (bytes dram)), if_neg (by simp)]
  rfl

/-- R447: a later LAYOUT that continues at the bytes received feeds its stream. -/
theorem State.layoutJob_later {s : State} {d : Desc} {j : Job} (later : bitAt (d.field 37 1) 0 = false)
    (opened : (s.stream (d.field 36 1)).isOpen = true) (sound : (s.stream (d.field 36 1)).failed = none)
    (more : (s.stream (d.field 36 1)).last = false) (continues : d.field 24 8 = (s.stream (d.field 36 1)).received)
    (bytes : bitAt (d.field 37 1) 2 = true → s.dramRangeOk (d.field 16 8) (d.field 32 4) = true) :
    s.layoutJob d j = (s.modStream (d.field 36 1) fun x => x.fed d j.aseq).checkEnd (d.field 36 1) := by
  unfold State.layoutJob
  simp only [later, opened, sound, more, continues]
  rw [if_neg (by simp), if_neg (by simp), if_neg (fun ⟨dram, beyond⟩ => beyond (bytes dram)), if_neg (by simp)]
  rfl

/-- R447: a stream fed with at least one word waits for its parser, and the job of its descriptor stays in flight. -/
theorem Took.fed {d : Desc} {s m : State} (took : Took d s m) (free : s.findJob s.host.nextAseq = none) {h : Nat}
    (inside : h < m.box.streams.length) (parsed : (m.stream h).parsed ≤ (m.stream h).received) (len : 8 ≤ d.field 32 4) :
    let t := m.modStream h fun x => x.fed d s.host.nextAseq
    t.checkEnd h = t ∧ t.stream h = (m.stream h).fed d s.host.nextAseq ∧ (t.findJob s.host.nextAseq).isSome ∧ TakenBy d s t := by
  intro t
  have here : t.stream h = (m.stream h).fed d s.host.nextAseq := State.modStream_same _ _ inside
  have took' : Took d s t := took.upd
  refine ⟨State.checkEnd_of_more fun _ => ?_, here, ?_, took'.cons, took'.next⟩
  · rw [here]
    show (m.stream h).parsed ≠ (m.stream h).received + d.field 32 4
    omega
  · rw [took'.findJob free]
    rfl

/-! ### STREAM_RELEASE, LEDGER_RELEASE and NOP -/

/-- R447: an idle handle is closed. -/
theorem execStreamRelease_of_idle {s : State} {d : Desc}
    (taken : s.takes d 2 ((16, decide (d.field 16 1 < 16)) :: descReserved d 17 47) = true)
    (opened : (s.stream (d.field 16 1)).isOpen = true) (idle : (s.stream (d.field 16 1)).jobs = [])
    (unused : s.box.strips.all (fun st => decide (st.handle ≠ d.field 16 1)) = true) :
    exec (.streamRelease d) s =
      .next (((s.takeJob d).modStream (d.field 16 1) fun _ => Stream.closed).complete s.host.nextAseq 0 0 []) := by
  have op := State.opcode_of_takes taken
  have dram : usesDram d = false := by simp only [usesDram, op]
  have strips : (s.takeJob d).box.strips = s.box.strips := congrArg HeadboxState.strips (s.takeJob_kept d).box
  have free : (s.takeJob d).box.strips.any (fun st => decide (st.handle = d.field 16 1)) = false := by
    rw [strips, List.any_eq_false]
    intro st listed
    simpa using List.all_eq_true.1 unused st listed
  show execStreamRelease d s = _
  rw [execStreamRelease, if_neg (not_not.2 op)]
  refine congrArg _ ((congrArg (fun b => s.withDesc d b false _ _) dram.symm).trans
    ((State.withDesc_of_takes taken _).trans (if_neg ?_)))
  rw [State.takeJob_stream, opened, idle, free]
  simp

/-- The machine with an ended ledger record free. -/
def State.ledgerFreed (s : State) (slot : Nat) : State :=
  let t := s.modLedger slot fun _ => StripLedger.free
  { t with store := { t.store with ledgerPoison := t.store.ledgerPoison.filter fun p => decide (p.1 ≠ slot) } }

theorem State.ledgerFreed_same (s : State) {slot : Nat} (inside : slot < s.store.ledger.length) :
    (s.ledgerFreed slot).ledgerAt slot = StripLedger.free := by
  unfold State.ledgerFreed State.modLedger State.ledgerAt
  dsimp only
  rw [listModify_eq_modify, List.getD_eq_getElem?_getD, List.getElem?_modify, List.getElem?_eq_getElem inside]
  simp

theorem State.ledgerFreed_other (s : State) {slot k : Nat} (apart : k ≠ slot) :
    (s.ledgerFreed slot).ledgerAt k = s.ledgerAt k := by
  unfold State.ledgerFreed State.modLedger State.ledgerAt
  dsimp only
  rw [listModify_eq_modify, List.getD_eq_getElem?_getD, List.getD_eq_getElem?_getD, List.getElem?_modify]
  simp [apart.symm]

/-- R449: an ended record is freed. -/
theorem execLedgerRelease_of_ended {s : State} {d : Desc}
    (taken : s.takes d 0x14 ((20, decide (d.field 20 1 < 16)) :: descReserved d 21 43) = true)
    (ended : (s.ledgerAt (d.field 20 1)).state = 3) (named : (s.ledgerAt (d.field 20 1)).stripId = d.field 16 4) :
    exec (.ledgerRelease d) s =
      .next ((((s.takeJob d).ledgerFreed (d.field 20 1)).showStore).complete s.host.nextAseq 0 0 []) := by
  have op := State.opcode_of_takes taken
  have dram : usesDram d = false := by simp only [usesDram, op]
  have record : (s.takeJob d).ledgerAt (d.field 20 1) = s.ledgerAt (d.field 20 1) := by
    rw [State.ledgerAt, (s.takeJob_kept d).store, State.ledgerAt]
  show execLedgerRelease d s = _
  rw [execLedgerRelease, if_neg (not_not.2 op)]
  refine congrArg _ ((congrArg (fun b => s.withDesc d b false _ _) dram.symm).trans
    ((State.withDesc_of_takes taken _).trans (if_pos ?_)))
  rw [record]
  exact ⟨named, ended⟩

/-- R443: a NOP completes. -/
theorem execNop_of_takes {s : State} {d : Desc} (taken : s.takes d 0x3F ((0, true) :: descReserved d 16 48) = true) :
    exec (.nop d) s = .next ((s.takeJob d).complete s.host.nextAseq 0 0 []) := by
  have op := State.opcode_of_takes taken
  have dram : usesDram d = false := by simp only [usesDram, op]
  show execNop d s = _
  simp only [execNop, op]
  exact congrArg _ ((congrArg (fun b => s.withDesc d b false _ _) dram.symm).trans (State.withDesc_of_takes taken _))

/-- Settles O15. -/
theorem streamAndLedgerJobs : Obligations.stream_and_ledger_jobs := by
  unfold Obligations.stream_and_ledger_jobs
  intro s
  refine ⟨fun d taken first closed inside work bytes => ?_, fun d taken later bytes opened sound more continues parsed => ?_,
    fun d taken opened idle unused _ => ?_, fun d taken ended named inside _ => ?_, fun d taken _ => ?_⟩
  · have inside₁ : d.field 36 1 < (s.takeJob d).box.streams.length := by rw [(s.takeJob_kept d).box]; exact inside
    have took : Took d s ((s.takeJob d).modStream (d.field 36 1) fun _ => openedStream d) :=
      (State.takeJob_took (State.takeWait_of_takes taken)).upd
    have opened := State.modStream_same (s.takeJob d) (fun _ => openedStream d) inside₁
    obtain ⟨waits, here, inFlight, taking⟩ := took.fed (State.findJob_of_takes taken) (h := d.field 36 1)
      (by rw [State.modStream_length]; exact inside₁) (by rw [opened]; exact Nat.le_refl 0) (State.layout_len_pos taken)
    have ran := (execLayout_of_takes taken).trans (congrArg _ ((State.layoutJob_first first
      (by rw [State.takeJob_stream]; exact closed) (by rw [State.takeJob_dramRangeOk]; exact work)
      (by rw [State.takeJob_dramRangeOk]; exact bytes)).trans waits))
    rw [opened] at here
    refine ⟨_, ran, ?_, ?_, ?_, ?_, ?_, inFlight, taking, fun k ne => ?_⟩
    · rw [here]; rfl
    · rw [here]; exact Nat.zero_add _
    · rw [here]; rfl
    · rw [here]; rfl
    · rw [here]; rfl
    · exact (State.modStream_other _ _ ne).trans ((State.modStream_other _ _ ne).trans (s.takeJob_stream d k))
  · have inside : d.field 36 1 < (s.takeJob d).box.streams.length := by
      rw [(s.takeJob_kept d).box]; exact State.lt_streams_of_isOpen opened
    obtain ⟨waits, here, inFlight, taking⟩ := (State.takeJob_took (State.takeWait_of_takes taken)).fed
      (State.findJob_of_takes taken) inside (by rw [State.takeJob_stream]; exact parsed) (State.layout_len_pos taken)
    have ran := (execLayout_of_takes taken).trans (congrArg _ ((State.layoutJob_later later
      (by rw [State.takeJob_stream]; exact opened) (by rw [State.takeJob_stream]; exact sound)
      (by rw [State.takeJob_stream]; exact more) (by rw [State.takeJob_stream]; exact continues)
      (by rw [State.takeJob_dramRangeOk]; exact bytes)).trans waits))
    rw [State.takeJob_stream] at here
    refine ⟨_, ran, ?_, ?_, ?_, inFlight, taking⟩
    · rw [here]; rfl
    · rw [here]; rfl
    · rw [here]; rfl
  · have ran := execStreamRelease_of_idle taken opened idle unused
    have took : Took d s ((s.takeJob d).modStream (d.field 16 1) fun _ => Stream.closed) :=
      (State.takeJob_took (State.takeWait_of_takes taken)).upd
    have inside : d.field 16 1 < (s.takeJob d).box.streams.length := by
      rw [(s.takeJob_kept d).box]
      exact State.lt_streams_of_isOpen opened
    refine ⟨_, ran, ?_, took.complete (State.findJob_of_takes taken) (by decide) _ _, fun k ne => ?_⟩
    · exact (State.stream_congr (State.complete_kept ..).box _).trans (State.modStream_same _ _ inside)
    · exact (State.stream_congr (State.complete_kept ..).box _).trans
        ((State.modStream_other _ _ ne).trans (s.takeJob_stream d k))
  · have ran := execLedgerRelease_of_ended taken ended named
    have took : Took d s ((s.takeJob d).ledgerFreed (d.field 20 1)).showStore :=
      Took.showStore (State.takeJob_took (State.takeWait_of_takes taken)).upd
    have store : (s.takeJob d).store = s.store := (s.takeJob_kept d).store
    have after (k : Nat) : ((((s.takeJob d).ledgerFreed (d.field 20 1)).showStore).complete s.host.nextAseq 0 0 []).ledgerAt k =
        ((s.takeJob d).ledgerFreed (d.field 20 1)).ledgerAt k := by
      rw [State.ledgerAt, (State.complete_kept ..).store, State.showStore_store, State.ledgerAt]
    refine ⟨_, ran, ?_, took.complete (State.findJob_of_takes taken) (by decide) _ _, fun k ne => ?_⟩
    · exact (after _).trans (State.ledgerFreed_same _ (by rw [store]; exact inside))
    · refine (after k).trans ((State.ledgerFreed_other _ ne).trans ?_)
      rw [State.ledgerAt, store, State.ledgerAt]
  · exact ⟨_, execNop_of_takes taken,
      (State.takeJob_took (State.takeWait_of_takes taken)).complete (State.findJob_of_takes taken) (by decide) _ _,
      .of_kept (.of (State.complete_kept ..) (State.takeJob_kept ..))⟩

end Sys2Proof.Machine
end

section
/-! PROOFS. Statements on EXPOSE_PERMIT and the fuses (spec/21_breakwater.md, R489, R490, R493). -/
namespace Sys2Proof.Machine

set_option Elab.async false
/-! ### The blanking of the head (R224, R489) -/

/-- R489, R490: exposure is not permitted: EXPOSE_PERMIT is low, or the exposure enable is clear. -/
def State.Forbidden (s : State) : Prop := s.bwt.permit = false ∨ s.get Reg.BWT_ENABLE_EN = 0

theorem State.Forbidden.of_same {s t : State} (forbidden : s.Forbidden) (bwt : t.bwt = s.bwt)
    (enable : t.get Reg.BWT_ENABLE_EN = s.get Reg.BWT_ENABLE_EN) : t.Forbidden := by
  rw [State.Forbidden, bwt, enable]
  exact forbidden

/-- R489, R490: without the permit, or the enable, the head is blanked. -/
theorem State.reblank_ofForbidden {s : State} (forbidden : s.Forbidden) : s.reblank.get Reg.HLK_STATUS_BLANK = 1 := by
  have blanked : s.blanked = true := by
    obtain fell | clear := forbidden
    · simp [State.blanked, fell]
    · simp [State.blanked, State.on, clear]
  rw [State.reblank, blanked]
  exact s.get_put_same _ 1 .ofNumbers (show 1 < 2 ^ 1 by decide)

theorem State.exposing_of_blank {s : State} (blank : s.get Reg.HLK_STATUS_BLANK = 1) : s.exposing = false := by
  simp [State.exposing, blank]

theorem State.enter_blank {s : State} (forbidden : s.Forbidden) (q : Nat) : (s.enter q).get Reg.HLK_STATUS_BLANK = 1 :=
  State.reblank_ofForbidden (forbidden.of_same rfl (State.get_put_apart _ _ .of))

/-! ### The fall of the permit (R489) -/

/-- The permit as it has fallen at s, counted. -/
def State.permitFell (s : State) : State :=
  ({ s with bwt := { s.bwt with permit := false, permitFellAt := some s.aon } }).count (cntBwt 3)

/-- From s to m the permit has fallen and the head is blanked; nothing else has happened. -/
structure Fell (s m : State) : Prop where
  bwt : m.bwt = { s.bwt with permit := false, permitFellAt := some s.aon }
  kept : Kept (.bwt :: reports) s m
  regs : RegsBut [Reg.HLK_STATUS_BLANK, ⟨cntBwt 3, 0, 64⟩] s m
  blank : m.get Reg.HLK_STATUS_BLANK = 1

theorem State.permitFell_kept (s : State) : Kept (.bwt :: reports) s s.permitFell :=
  .of (State.count_kept ..) (.upd [.bwt] .refl)

theorem State.permitFell_regs (s : State) : RegsBut [⟨cntBwt 3, 0, 64⟩] s s.permitFell :=
  ((count_counted { s with bwt := { s.bwt with permit := false, permitFellAt := some s.aon } } (cntBwt 3)).reported .of).regs

theorem State.permitFell_bwt (s : State) : s.permitFell.bwt = { s.bwt with permit := false, permitFellAt := some s.aon } :=
  State.count_bwt ..

theorem RegsBut.reblank (s : State) : RegsBut [Reg.HLK_STATUS_BLANK] s s.reblank := .put s _ _

/-- R489: the fall is shown. -/
theorem State.permitFell_blanked (s : State) : Fell s s.permitFell.reblank where
  bwt := s.permitFell_bwt
  kept := .of (State.reblank_kept _) s.permitFell_kept
  regs := (s.permitFell_regs.trans (RegsBut.reblank _)).weaken fun _ listed => by simpa [or_comm] using listed
  blank := State.reblank_ofForbidden (.inl <| by rw [State.permitFell_bwt])

/-- R489: the fall is told, and the head blanked again. -/
theorem State.permitFell_told (s : State) (sev : Nat) :
    Fell s ((s.permitFell.reblank.raiseSev 0x1204 sev []).reblank) where
  bwt := (State.raiseSev_bwt ..).trans s.permitFell_bwt
  kept := .of (State.reblank_kept _) (.of (State.raiseSev_kept ..) s.permitFell_blanked.kept)
  regs := ((s.permitFell_blanked.regs.trans (raiseSev_noted _ _ _ _).regsBut).trans (RegsBut.reblank _)).weaken
    fun _ listed => by simpa [or_comm, or_left_comm] using listed
  blank := State.reblank_ofForbidden (.inl <| by rw [State.raiseSev_bwt]; exact congrArg BwtState.permit s.permitFell_bwt)

/-- R489: the severity of the permit's fall: HALT where it stops a run. -/
def State.permitSev (s : State) : Nat :=
  if s.openStrip.isSome && decide (3 ≤ s.get Reg.EXP_STATE_STATE ∧ s.get Reg.EXP_STATE_STATE ≤ 7) then 3 else 1

/-- R517: the fall of the permit at s, kept by the warm reset w until the firmware runs. -/
def State.permitKept (s : State) (w : WarmReset) : State :=
  { s.permitFell.reblank with
    pwr := { s.permitFell.pwr with warm := some { w with permitFell := some (w.permitFell.getD s.permitSev) } } }

theorem execPermitDeassert_eq (s : State) : exec .permitDeassert s =
    match s.permitFell.pwr.warm with
    | some w =>
      if w.unitsDone then .next (s.permitFell.reblank.raiseSev 0x1204 s.permitSev []).permitPath else .next (s.permitKept w)
    | none => .next (s.permitFell.reblank.raiseSev 0x1204 s.permitSev []).permitPath := rfl

/-- R489: the stop that the fall of the permit asks for, while no warm reset runs. -/
theorem execPermitDeassert_stops {s : State} (noReset : s.pwr.warm = none) :
    ∃ m, Fell s m ∧ exec .permitDeassert s = .next (m.hardwareStop 3 false) := by
  have running : s.permitFell.pwr.warm = none := (congrArg PwrState.warm (State.count_pwr ..)).trans noReset
  refine ⟨_, s.permitFell_told s.permitSev, ?_⟩
  rw [execPermitDeassert_eq, running]
  rfl

/-- R489, R517: the fall of the permit while a warm reset runs and its units are not done. -/
theorem execPermitDeassert_resetting {s : State} {w : WarmReset} (reset : s.pwr.warm = some w) (runs : w.unitsDone = false) :
    exec .permitDeassert s = .next (s.permitKept w) := by
  have running : s.permitFell.pwr.warm = some w := (congrArg PwrState.warm (State.count_pwr ..)).trans reset
  rw [execPermitDeassert_eq, running]
  exact if_neg (by rw [runs]; decide)

/-- R489: in EXPOSE and RESUME the stop enters BREAK. -/
theorem State.hardwareStop_breaks {m : State} {st : Strip} (isOpen : m.openStrip = some st) (fires : m.firing = true)
    (noPrompt : m.seq.prompt = none) :
    let broken := m.enterBreak 3 1 m.hardwareTick false []
    m.hardwareStop 3 false = broken.sendStop (broken.get Reg.EXP_BREAK_CAUSE) (broken.get Reg.EXP_BREAK_KIND) m.hardwareTick
      (broken.get Reg.CSC_CFG_DEVICE) := by
  unfold State.hardwareStop
  simp only [isOpen, fires, noPrompt, if_true]

section Fell
variable {s m : State} (fell : Fell s m)
include fell

theorem Fell.permit : m.bwt.permit = false := by rw [fell.bwt]

theorem Fell.openStrip : m.openStrip = s.openStrip := State.openStrip_congr fell.kept.box

theorem Fell.state : m.get Reg.EXP_STATE_STATE = s.get Reg.EXP_STATE_STATE := by
  refine fell.regs _ .ofNumbers fun f listed => ?_
  simp only [List.mem_cons, List.not_mem_nil, or_false] at listed
  obtain rfl | rfl := listed <;> exact .of

theorem Fell.firing : m.firing = s.firing := by
  unfold State.firing
  rw [fell.state]

/-- R315: with no strip open there is nothing to stop. -/
theorem Fell.hardwareStop_idle (none : s.openStrip = none) : m.hardwareStop 3 false = m := by
  unfold State.hardwareStop
  rw [fell.openStrip, none]
  rfl

/-- R316: a strip whose exposure has ended waits for the host. -/
theorem Fell.hardwareStop_holds {st : Strip} (isOpen : s.openStrip = some st) (still : s.firing = false)
    (noFlood : s.get Reg.EXP_STATE_STATE ≠ 3) : m.hardwareStop 3 false = m.holdForHost st.slot := by
  unfold State.hardwareStop
  simp only [fell.openStrip, isOpen, fell.firing, still, fell.state, if_neg noFlood]
  rfl

/-- R489: in FLOOD the stop abandons it. -/
theorem Fell.hardwareStop_abandons {st : Strip} (isOpen : s.openStrip = some st) (flood : s.get Reg.EXP_STATE_STATE = 3) :
    m.hardwareStop 3 false = m.abandonFlood (65536 + 3) .retry := by
  have still : s.firing = false := by simp [State.firing, flood]
  unfold State.hardwareStop
  simp only [fell.openStrip, isOpen, fell.firing, still, fell.state, flood, if_true, Bool.false_eq_true, if_false]

end Fell

/-! ### What a stop without the permit leaves of the blanking (R489) -/

theorem State.count_blank {i : Nat} (s : State) (few : i < 8) :
    (s.count (cntExp i)).get Reg.HLK_STATUS_BLANK = s.get Reg.HLK_STATUS_BLANK :=
  s.count_get _ .ofNumbers (by interval_cases i <;> exact .of)

theorem enable_ofLoops : Field.OfLoops Reg.BWT_ENABLE_EN where
  sound := .ofNumbers
  range := .inr (by decide)
  counters := fun c four k few => by interval_cases c <;> interval_cases k <;> exact .of

/-- R489, R490: a break without the permit, or the enable, is blanked. -/
theorem State.enterBreak_blank {s : State} {st : Strip} (isOpen : s.openStrip = some st) (forbidden : s.Forbidden)
    (cause kind : Nat) (tB : Int) (hold : Bool) (more : List (Nat × Nat)) :
    (s.enterBreak cause kind tB hold more).get Reg.HLK_STATUS_BLANK = 1 := by
  have same := (s.enterBreak_kept cause kind tB hold more).bwt
  have enable := (s.enterBreak_spares cause kind tB hold more).get Reg.BWT_ENABLE_EN enable_ofLoops
  revert same enable
  unfold State.enterBreak
  split
  case h_1 none => cases isOpen.symm.trans none
  case h_2 st _ =>
    extract_lets index m p marked shown unsettled seq settled held entered counted
    intro same enable
    have few : (if 128 ≤ cause then 2 else 1) < 8 := by split <;> decide
    have noPermit : held.stopProfile.Forbidden := by
      rw [State.raise_bwt, State.count_bwt] at same
      rw [State.raise_get _ _ _ enable_ofLoops.quiet, State.count_get _ _ enable_ofLoops.quiet (enable_ofLoops.offExp few)] at enable
      refine forbidden.of_same same (Eq.trans ?_ enable)
      exact ((State.get_put_apart _ _ .of).trans (State.get_put_apart _ _ .of)).symm
    exact (State.raise_get _ _ _ .ofNumbers).trans ((entered.count_blank few).trans (State.enter_blank noPermit 6))

/-- R489: an abandoned FLOOD without the permit is blanked. -/
theorem State.abandonFlood_leaves {s : State} {st : Strip} (isOpen : s.openStrip = some st) (fell : s.bwt.permit = false)
    (flood : s.get Reg.EXP_STATE_STATE = 3) (cond : Nat) (after : AfterFlood) :
    let t := s.abandonFlood cond after
    t.get Reg.EXP_STATE_STATE = 5 ∧ t.get Reg.HLK_STATUS_BLANK = 1 ∧ t.seq.afterFlood = some after ∧ t.tid.armedAt = none := by
  have same := (s.abandonFlood_kept cond after).bwt
  revert same
  unfold State.abandonFlood
  split
  case h_1 none => cases isOpen.symm.trans none
  case h_2 st _ =>
    rw [if_neg (not_not.2 flood)]
    extract_lets seq tid dropped entered told counted t
    intro same
    have noPermit : (dropped.put Reg.TID_TICK_STATE 0).stopProfile.Forbidden := by
      rw [State.raise_bwt, State.count_bwt, (State.tellSlaves_kept ..).bwt] at same
      exact .inl ((congrArg BwtState.permit same).trans fell)
    have toldGet (f : Field) : told.get f = entered.get f := congrArg (fun rf => rfGet rf f) (entered.tellSlaves_kept _).regs
    have stopped : (dropped.put Reg.TID_TICK_STATE 0).stopProfile.tid.armedAt = none := by
      unfold State.stopProfile
      dsimp only
      split <;> rfl
    refine ⟨?_, ?_, ?_, ?_⟩
    · exact (State.raise_get _ _ _ .ofNumbers).trans ((State.count_get _ _ .ofNumbers .of).trans
        ((toldGet _).trans (State.enter_state _ (by decide))))
    · exact (State.raise_get _ _ _ .ofNumbers).trans ((told.count_blank (by decide)).trans
        ((toldGet _).trans (State.enter_blank noPermit 5)))
    · have kept : Kept (.tid :: .csc :: reports) dropped t :=
        .of (State.raise_kept ..) (.of (State.count_kept ..) (.of (State.tellSlaves_kept ..) (.of (State.enter_kept ..)
          (.of (State.stopProfile_kept _) (.of (State.put_kept ..) .refl)))))
      exact congrArg SeqState.afterFlood kept.seq
    · have kept : Kept (.csc :: reports) entered t :=
        .of (State.raise_kept ..) (.of (State.count_kept ..) (.of (State.tellSlaves_kept ..) .refl))
      exact (congrArg TideState.armedAt kept.tid).trans stopped

/-! ### The return of the permit, and the fuses (R489, R493) -/

/-- R489: the permit has not been high for 1 ms. -/
def State.permitEarly (s : State) : Bool :=
  match s.bwt.permitFellAt with
  | some t => decide (s.aon < t + 400000)
  | none => false

theorem State.permitEarly_of_some {s : State} {q : Nat} (fellAt : s.bwt.permitFellAt = some q) :
    s.permitEarly = decide (s.aon < q + 400000) := by
  unfold State.permitEarly
  rw [fellAt]

theorem State.permitEarly_of_long {s : State} (long : ∀ q, s.bwt.permitFellAt = some q → q + 400000 ≤ s.aon) :
    s.permitEarly = false := by
  cases fellAt : s.bwt.permitFellAt with
  | none => rw [State.permitEarly, fellAt]
  | some q => exact (State.permitEarly_of_some fellAt).trans (decide_eq_false (long q fellAt).not_gt)

theorem execPermitRestored_eq (s : State) : exec .permitRestored s =
    if s.bwt.permit || s.permitEarly then .next s
    else .next ({ s with bwt := { s.bwt with permit := true } }.raise 0x1205 []) := rfl

/-- The machine with the value of the fuses read back. -/
def State.fusesRead (s : State) (value : Fin 65) : State :=
  { s with bwt := { s.bwt with burning := none } }.put Reg.BWT_SVN_REQ_OTP value

theorem State.fusesRead_otp (s : State) (value : Fin 65) : (s.fusesRead value).get Reg.BWT_SVN_REQ_OTP = value.val :=
  State.get_put_same _ _ _ .ofNumbers (show value.val < 2 ^ 7 by omega)

theorem State.fusesRead_kept (s : State) (value : Fin 65) : Kept [.bwt, .regs] s (s.fusesRead value) :=
  .of (State.put_kept ..) (.upd [.bwt] .refl)

theorem State.fusesRead_regs (s : State) (value : Fin 65) : RegsBut [Reg.BWT_SVN_REQ_OTP] s (s.fusesRead value) :=
  RegsBut.put { s with bwt := { s.bwt with burning := none } } _ _

/-- R493: the value read back is shown, and told. -/
theorem execSvnBurnDone_lasts {s : State} {value : Fin 65} {n : Nat} (burning : s.bwt.burning = some n)
    (lasts : s.get Reg.BWT_SVN_REQ_OTP ≤ value.val) :
    ∃ code l, exec (.svnBurnDone value) s = .next ((s.fusesRead value).raise code l) := by
  show ∃ code l, execSvnBurnDone value s = _
  unfold execSvnBurnDone
  rw [burning]
  dsimp only
  rw [if_neg lasts.not_gt]
  split
  · exact ⟨_, _, rfl⟩
  · exact ⟨_, _, rfl⟩


/-- Settles O49. -/
theorem permitAndFuses : Obligations.permit_and_fuses := by
  unfold Obligations.permit_and_fuses
  intro s
  refine ⟨fun noReset none => ?_, fun st noReset isOpen still noFlood => ?_, fun st noReset fires isOpen noPrompt => ?_,
    fun st noReset flood isOpen => ?_, fun w reset runs => ?_, fun fell long => ?_, fun permit => ?_, fun q fellAt early => ?_,
    fun value n burning lasts => ?_, fun value idle => ?_⟩
  · obtain ⟨m, fell, ran⟩ := execPermitDeassert_stops noReset
    rw [fell.hardwareStop_idle none] at ran
    exact ⟨m, ran, fell.bwt, State.exposing_of_blank fell.blank, .of_kept fell.kept, fell.regs⟩
  · obtain ⟨m, fell, ran⟩ := execPermitDeassert_stops noReset
    rw [fell.hardwareStop_holds isOpen still noFlood] at ran
    have holds : Kept [.regs, .box] m (m.holdForHost st.slot) := .of (State.holdForHost_kept ..) .refl
    refine ⟨_, ran, holds.bwt.trans fell.bwt, State.exposing_of_blank ((State.get_put_apart _ _ .of).trans fell.blank),
      (State.get_put_apart _ _ .of).trans fell.state, .of_kept (.of holds (.of fell.kept .refl))⟩
  · obtain ⟨m, fell, ran⟩ := execPermitDeassert_stops noReset
    rw [State.hardwareStop_breaks (fell.openStrip.trans isOpen) (fell.firing.trans fires)
      ((congrArg SeqState.prompt fell.kept.seq).trans noPrompt)] at ran
    have broken := State.enterBreak_broken (fell.openStrip.trans isOpen) (cause := 3) (kind := 1) (by decide) (by decide)
      m.hardwareTick []
    have blank := State.enterBreak_blank (fell.openStrip.trans isOpen) (.inl fell.permit) 3 1 m.hardwareTick false []
    have sent := (m.enterBreak 3 1 m.hardwareTick false []).sendStop_kept
      ((m.enterBreak 3 1 m.hardwareTick false []).get Reg.EXP_BREAK_CAUSE)
      ((m.enterBreak 3 1 m.hardwareTick false []).get Reg.EXP_BREAK_KIND) m.hardwareTick
      ((m.enterBreak 3 1 m.hardwareTick false []).get Reg.CSC_CFG_DEVICE)
    have same (f : Field) := congrArg (fun rf => rfGet rf f) sent.regs
    refine ⟨_, ran, (same _).trans broken.state, (same _).trans broken.byCause, (same _).trans broken.byKind,
      State.exposing_of_blank ((same _).trans blank), ?_, (same _).trans broken.ticks⟩
    rw [sent.bwt, (State.enterBreak_kept ..).bwt]
    exact fell.permit
  · obtain ⟨m, fell, ran⟩ := execPermitDeassert_stops noReset
    rw [fell.hardwareStop_abandons isOpen flood] at ran
    obtain ⟨state, blank, after, armed⟩ := State.abandonFlood_leaves (fell.openStrip.trans isOpen) fell.permit
      (fell.state.trans flood) (65536 + 3) .retry
    refine ⟨_, ran, state, State.exposing_of_blank blank, ?_, after, armed⟩
    rw [(State.abandonFlood_kept ..).bwt]
    exact fell.permit
  · have ran := execPermitDeassert_resetting reset runs
    have fell := s.permitFell_blanked
    exact ⟨_, ran, fell.bwt, State.exposing_of_blank fell.blank, rfl, .of_kept (.upd [.pwr] (.of fell.kept .refl)), fell.regs⟩
  · refine ⟨_, (execPermitRestored_eq s).trans (if_neg (by simp [fell, State.permitEarly_of_long long])), State.raise_bwt ..,
      .of_kept (.of (State.raise_kept ..) (.upd [.bwt] .refl)), fun _ quiet _ => State.raise_get _ _ _ quiet⟩
  · exact ⟨s, (execPermitRestored_eq s).trans (if_pos (by simp [permit])), rfl⟩
  · exact ⟨s, (execPermitRestored_eq s).trans (if_pos (by simp [State.permitEarly_of_some fellAt, early])), rfl⟩
  · obtain ⟨code, l, ran⟩ := execSvnBurnDone_lasts burning lasts
    exact ⟨_, ran, State.raise_bwt .., (State.raise_get _ _ _ .of).trans (s.fusesRead_otp value),
      .of_kept (.of (State.raise_kept ..) (.of (s.fusesRead_kept value) .refl)),
      ((s.fusesRead_regs value).trans (raise_noted _ _ _).regsBut).weaken fun _ => id⟩
  · refine ⟨s, ?_, rfl⟩
    show execSvnBurnDone value s = _
    unfold execSvnBurnDone
    split
    · rfl
    · next n burning => exact if_pos (idle.resolve_left (by simp [burning]))

end Sys2Proof.Machine
end

section
/-! PROOFS. Statements on proposals (spec/21_breakwater.md, R481 to R487): their submission, loading, refusals and handovers. -/
namespace Sys2Proof.Machine

set_option Elab.async false
/-! ### Refusals (R483) -/

/-- The fields in which a refusal shows. -/
def refusalFields : List Field := [Reg.BWT_PROP_STATUS_STATE, Reg.BWT_PROP_STATUS_RESULT, ⟨cntBwt 2, 0, 64⟩]

/-- The machine with the current proposal refused; no handover made yet. -/
def State.refused (s : State) (subcode : Nat) : State :=
  ((s.puts [(Reg.BWT_PROP_STATUS_STATE, 0), (Reg.BWT_PROP_STATUS_RESULT, subcode)]).count (cntBwt 2)).raise 0x1203
    [(4, s.proposalSeq), (1, subcode)]

theorem State.proposalSeq_puts (s : State) (l : List (Field × Nat)) : (s.puts l).proposalSeq = s.proposalSeq := by
  unfold State.proposalSeq
  rw [State.puts_bwt]

theorem State.refuseProposal_eq (s : State) (subcode : Nat) : s.refuseProposal subcode = (s.refused subcode).tryHandover := by
  unfold State.refuseProposal State.refused
  dsimp only
  rw [State.proposalSeq_puts]

/-- A handover waits for none, or for an IDLE proposal. -/
theorem State.tryHandover_none {s : State} (none : s.hcr.handover = []) : s.tryHandover = s := by
  unfold State.tryHandover
  rw [none]

theorem State.tryHandover_busy {s : State} (busy : s.proposal ≠ 0) : s.tryHandover = s := by
  unfold State.tryHandover
  split
  · rfl
  · exact if_pos busy

/-- From s to t the current proposal has been refused with a subcode. -/
structure Refused (subcode : Nat) (s t : State) : Prop where
  state : t.proposal = 0
  result : t.get Reg.BWT_PROP_STATUS_RESULT = subcode
  kept : Kept reports s t
  regs : RegsBut refusalFields s t

theorem State.refused_refused (s : State) {subcode : Nat} (byte : subcode < 256) : Refused subcode s (s.refused subcode) := by
  unfold State.refused
  have puts : RegsBut [Reg.BWT_PROP_STATUS_STATE, Reg.BWT_PROP_STATUS_RESULT] s
      (s.puts [(Reg.BWT_PROP_STATUS_STATE, 0), (Reg.BWT_PROP_STATUS_RESULT, subcode)]) := (RegsBut.put s _ _).trans (.put _ _ _)
  refine ⟨?_, ?_, .of (State.raise_kept ..) (.of (State.count_kept ..) (.of (State.puts_kept ..) .refl)),
    ((puts.trans ((count_counted _ _).reported .of).regs).trans (raise_noted _ _ _).regsBut).weaken fun _ => id⟩
  · exact (State.raise_get _ _ _ .of).trans ((State.count_get _ _ .of .of).trans
      ((State.get_put_apart _ _ .ofNumbers).trans (State.get_put_same s _ 0 .ofNumbers (show 0 < 2 ^ 4 by decide))))
  · exact (State.raise_get _ _ _ .of).trans ((State.count_get _ _ .of .of).trans
      (State.get_put_same _ _ _ .ofNumbers byte))

/-- R483: with no handover waiting, a refusal is that alone. -/
theorem State.refuseProposal_refuses {s : State} (none : s.hcr.handover = []) {subcode : Nat} (byte : subcode < 256) :
    Refused subcode s (s.refuseProposal subcode) := by
  have refused := s.refused_refused byte
  rw [State.refuseProposal_eq, State.tryHandover_none (by rw [refused.kept.hcr]; exact none)]
  exact refused

/-! ### Handovers of head care (R339, R483) -/

/-- The image of a head-care proposal (R339, R482). -/
def State.handoverImage (s : State) (kind : Nat) : List Byte :=
  proposalImage ((s.get Reg.BWT_SEQ_COMMITTED + 1) % 2 ^ 32) (s.proposalRecords kind)

/-- The machine with a head-care proposal handed over, told; its job not yet completed. -/
def State.handed (s : State) (kind : Nat) (later : List (Nat × Option Nat)) : State :=
  let t := { s with
    hcr := { s.hcr with handover := later }, bwt := { s.bwt with image := s.handoverImage kind, fromHead := true } }
  (t.put Reg.BWT_PROP_STATUS_STATE 1).raise 0x0B0B [(1, kind), (4, t.get Reg.HCR_GEN_RES_GEN)]

theorem State.tryHandover_own {s : State} {kind : Nat} {later : List (Nat × Option Nat)}
    (waits : s.hcr.handover = (kind, none) :: later) (idle : s.proposal = 0) : s.tryHandover = s.handed kind later := by
  unfold State.tryHandover
  rw [waits]
  exact if_neg (not_not.2 idle)

theorem State.tryHandover_job {s : State} {kind a : Nat} {later : List (Nat × Option Nat)}
    (waits : s.hcr.handover = (kind, some a) :: later) (idle : s.proposal = 0) :
    s.tryHandover = (s.handed kind later).complete a 0 0 ((s.handed kind later).hcrDetail 0) := by
  unfold State.tryHandover
  rw [waits]
  exact if_neg (not_not.2 idle)

/-- From s to t a head-care proposal has been handed over. -/
structure Handed (kind : Nat) (later : List (Nat × Option Nat)) (s t : State) : Prop where
  state : t.proposal = 1
  hcr : t.hcr = { s.hcr with handover := later }
  bwt : t.bwt = { s.bwt with image := s.handoverImage kind, fromHead := true }

theorem State.handed_handed (s : State) (kind : Nat) (later : List (Nat × Option Nat)) : Handed kind later s (s.handed kind later) where
  state := (State.raise_get _ _ _ .of).trans (State.get_put_same _ _ 1 .ofNumbers (show 1 < 2 ^ 4 by decide))
  hcr := State.raise_hcr ..
  bwt := State.raise_bwt ..

theorem State.handed_regs (s : State) (kind : Nat) (later : List (Nat × Option Nat)) :
    RegsBut [Reg.BWT_PROP_STATUS_STATE] s (s.handed kind later) := by
  intro g quiet apart
  exact (State.raise_get _ _ _ quiet).trans (State.get_put_apart _ _ (apart _ List.mem_cons_self))

/-- The registers that a head-care image is built from are outside what a refusal changes. -/
theorem Refused.handoverImage {subcode : Nat} {s t : State} (refused : Refused subcode s t) (kind : Nat) :
    t.handoverImage kind = s.handoverImage kind := by
  have same {off lo w : Nat} (below : (off % 4 = 0 ∧ lo + w ≤ 32) ∧ 0x00D00000 ≤ off ∧ off < 0x01000000 ∨
      off = 0x01300030 ∧ lo = 0 ∧ w = 32) : t.get ⟨off, lo, w⟩ = s.get ⟨off, lo, w⟩ := by
    refine refused.regs _ (.of ?_) fun f listed => ?_
    · dsimp only
      omega
    · simp only [refusalFields, List.mem_cons, List.not_mem_nil, or_false] at listed
      obtain rfl | rfl | rfl := listed
      · exact .ofNumbers
      · exact .ofNumbers
      · exact .ofNumbers (by unfold cntBwt; omega)
  have records : t.proposalRecords kind = s.proposalRecords kind := by
    unfold State.proposalRecords
    have dead : ((List.range 16384).map fun w => deadBits (t.get ⟨defectResBase + 4 * w, 0, 32⟩)) =
        (List.range 16384).map fun w => deadBits (s.get ⟨defectResBase + 4 * w, 0, 32⟩) :=
      List.map_congr_left fun w listed => congrArg deadBits (same (.inl (by
        have := List.mem_range.1 listed
        unfold defectResBase
        omega)))
    have rows : ((List.range 512).map fun r => t.get ⟨0x00D02000 + 4 * r, 0, 24⟩) =
        (List.range 512).map fun r => s.get ⟨0x00D02000 + 4 * r, 0, 24⟩ :=
      List.map_congr_left fun r listed => same (.inl (by
        have := List.mem_range.1 listed
        omega))
    rw [dead, rows, same (off := 0x00D00034) (.inl (by decide))]
  unfold State.handoverImage
  rw [records, same (off := 0x01300030) (.inr (by decide))]

/-- R339, R483: a refusal with a head-care proposal waiting hands it over. -/
theorem State.refuseProposal_hands {s : State} {kind : Nat} {later : List (Nat × Option Nat)}
    (waits : s.hcr.handover = (kind, none) :: later) {subcode : Nat} (byte : subcode < 256) :
    Handed kind later s (s.refuseProposal subcode) ∧ (s.refuseProposal subcode).get Reg.BWT_PROP_STATUS_RESULT = subcode := by
  have refused := s.refused_refused byte
  rw [State.refuseProposal_eq, State.tryHandover_own (by rw [refused.kept.hcr]; exact waits) refused.state]
  have handed := (s.refused subcode).handed_handed kind later
  refine ⟨⟨handed.state, ?_, ?_⟩, ?_⟩
  · rw [handed.hcr, refused.kept.hcr]
  · rw [handed.bwt, refused.kept.bwt, refused.handoverImage kind]
  · refine ((s.refused subcode).handed_regs kind later _ .of fun f listed => ?_).trans refused.result
    obtain rfl := List.mem_singleton.1 listed
    exact .of

/-! ### The check of an image (R482, R484) -/

/-- The machine as it checks a proposal. -/
def State.checking (s : State) : State := s.put Reg.BWT_PROP_STATUS_STATE 2

/-- The machine with the classes of a proposal's words. -/
def State.classed (s : State) (words : List (Nat × Nat)) : State := s.put Reg.BWT_PROP_STATUS_CLASSES (classesOf words)

/-- The machine with the events of the conditions that a proposal fails. -/
def State.faultsTold (s : State) (faults : List (Option UnitEvent)) : State :=
  faults.foldl (fun (s : State) e => match e with
    | some (code, fields) => s.raise code fields
    | none => s) s

theorem State.faultsTold_noted (s : State) (faults : List (Option UnitEvent)) : Noted s (s.faultsTold faults) :=
  Noted.fold _ (fun x e => match e with
    | some (code, fields) => raise_noted x code fields
    | none => .rfl' x) faults s

/-- The machine with a proposal PENDING. -/
def State.madePending (s : State) : State :=
  { s.put Reg.BWT_PROP_STATUS_STATE 3 with bwt := { s.bwt with pendingAt := s.aon } }

theorem State.madePending_get (s : State) (g : Field) : s.madePending.get g = (s.put Reg.BWT_PROP_STATUS_STATE 3).get g := rfl

theorem State.madePending_bwt (s : State) : s.madePending.bwt = { s.bwt with pendingAt := s.aon } := rfl

theorem State.madePending_kept (s : State) : Kept [.bwt, .regs] s s.madePending :=
  .upd [.bwt] (.of (State.put_kept s Reg.BWT_PROP_STATUS_STATE 3) .refl)

theorem State.checking_kept (s : State) : Kept [.regs] s s.checking := State.put_kept ..

theorem State.classed_kept (s : State) (words : List (Nat × Nat)) : Kept [.regs] s (s.classed words) := State.put_kept ..

theorem State.checkProposal_none {s : State} (bad : s.checking.imageWords s.bwt.image = none) :
    s.checkProposal = s.checking.refuseProposal 9 := by
  have bad' : (s.put Reg.BWT_PROP_STATUS_STATE 2).imageWords (s.put Reg.BWT_PROP_STATUS_STATE 2).bwt.image = none := bad
  unfold State.checkProposal
  dsimp only
  rw [bad']
  rfl

theorem State.checkProposal_fails {s : State} {words : List (Nat × Nat)} {e : Option UnitEvent} {l : List (Option UnitEvent)}
    (good : s.checking.imageWords s.bwt.image = some words) (faults : (s.checking.classed words).proposalFaults words = e :: l) :
    s.checkProposal = ((s.checking.classed words).faultsTold (e :: l)).refuseProposal 1 := by
  have good' : (s.put Reg.BWT_PROP_STATUS_STATE 2).imageWords (s.put Reg.BWT_PROP_STATUS_STATE 2).bwt.image = some words := good
  have faults' : ((s.put Reg.BWT_PROP_STATUS_STATE 2).put Reg.BWT_PROP_STATUS_CLASSES (classesOf words)).proposalFaults words =
    e :: l := faults
  unfold State.checkProposal
  dsimp only
  rw [good']
  dsimp only
  rw [faults']
  rfl

theorem State.checkProposal_passes {s : State} {words : List (Nat × Nat)}
    (good : s.checking.imageWords s.bwt.image = some words) (faults : (s.checking.classed words).proposalFaults words = []) :
    ∃ l, s.checkProposal = ((s.checking.classed words).madePending).raise 0x1201 l := by
  have good' : (s.put Reg.BWT_PROP_STATUS_STATE 2).imageWords (s.put Reg.BWT_PROP_STATUS_STATE 2).bwt.image = some words := good
  have faults' : ((s.put Reg.BWT_PROP_STATUS_STATE 2).put Reg.BWT_PROP_STATUS_CLASSES (classesOf words)).proposalFaults words =
    [] := faults
  unfold State.checkProposal
  dsimp only
  rw [good']
  dsimp only
  rw [faults']
  exact ⟨_, rfl⟩

/-- R482: an image in another form is refused. -/
theorem State.checkProposal_refuses {s : State} (bad : s.checking.imageWords s.bwt.image = none) (none : s.hcr.handover = []) :
    Refused 9 s s.checkProposal := by
  have refused := State.refuseProposal_refuses (s := s.checking) none (subcode := 9) (by decide)
  rw [State.checkProposal_none bad]
  exact
    { state := refused.state
      result := refused.result
      kept := .of refused.kept (.of (State.put_kept ..) .refl)
      regs := ((RegsBut.put s _ _).trans refused.regs).weaken fun _ listed => by
        simpa [refusalFields] using listed }

/-- R484: an image that fails a check is refused. -/
theorem State.checkProposal_refusesFaults {s : State} {words : List (Nat × Nat)} {e : Option UnitEvent}
    {l : List (Option UnitEvent)} (good : s.checking.imageWords s.bwt.image = some words)
    (faults : (s.checking.classed words).proposalFaults words = e :: l) (none : s.hcr.handover = []) :
    s.checkProposal.proposal = 0 ∧ s.checkProposal.get Reg.BWT_PROP_STATUS_RESULT = 1 ∧ Kept reports s s.checkProposal ∧
      RegsBut [Reg.BWT_PROP_STATUS_STATE, Reg.BWT_PROP_STATUS_RESULT, Reg.BWT_PROP_STATUS_CLASSES, ⟨cntBwt 2, 0, 64⟩] s
        s.checkProposal := by
  have told := (s.checking.classed words).faultsTold_noted (e :: l)
  have refused := State.refuseProposal_refuses (s := (s.checking.classed words).faultsTold (e :: l))
    (by rw [told.hcr]; exact none) (subcode := 1) (by decide)
  rw [State.checkProposal_fails good faults]
  refine ⟨refused.state, refused.result, .of refused.kept (.of told.kept (.of (State.put_kept ..) (.of (State.put_kept ..) .refl))),
    ((((RegsBut.put s _ _).trans (.put _ _ _)).trans told.regsBut).trans refused.regs).weaken fun f listed => ?_⟩
  simp only [refusalFields, List.append_nil, List.cons_append, List.nil_append, List.mem_cons, List.not_mem_nil, or_false] at listed ⊢
  tauto

/-- R483, R484: an image that passes is PENDING with its classes. -/
theorem State.checkProposal_pends {s : State} {words : List (Nat × Nat)}
    (good : s.checking.imageWords s.bwt.image = some words) (faults : (s.checking.classed words).proposalFaults words = []) :
    s.checkProposal.proposal = 3 ∧ s.checkProposal.get Reg.BWT_PROP_STATUS_CLASSES = classesOf words % 65536 ∧
      s.checkProposal.bwt = { s.bwt with pendingAt := s.aon } ∧ Kept (.bwt :: reports) s s.checkProposal ∧
      RegsBut [Reg.BWT_PROP_STATUS_STATE, Reg.BWT_PROP_STATUS_CLASSES] s s.checkProposal := by
  obtain ⟨l, passes⟩ := State.checkProposal_passes good faults
  have told := raise_noted (s.checking.classed words).madePending 0x1201 l
  rw [passes]
  have marked : Kept [.bwt, .regs] s (s.checking.classed words).madePending :=
    .of (State.madePending_kept _) (.of (State.classed_kept ..) (.of s.checking_kept .refl))
  have image : (s.checking.classed words).bwt = s.bwt := (State.classed_kept ..).bwt.trans s.checking_kept.bwt
  have now : (s.checking.classed words).aon = s.aon := (State.classed_kept ..).aon.trans s.checking_kept.aon
  refine ⟨?_, ?_, ?_, .of told.kept (.of marked .refl), fun g quiet apart => ?_⟩
  · exact (told.quiet _ .of).trans ((State.madePending_get _ _).trans (State.get_put_same _ _ 3 .ofNumbers (show 3 < 2 ^ 4 by decide)))
  · exact (told.quiet _ .of).trans ((State.madePending_get _ _).trans ((State.get_put_apart _ _ .ofNumbers).trans
      (rfGet_put_same s.checking.regs Reg.BWT_PROP_STATUS_CLASSES (classesOf words) .ofNumbers)))
  · rw [told.bwt, State.madePending_bwt, image, now]
  · have state : Reg.BWT_PROP_STATUS_STATE.Apart g := apart _ (by simp)
    have classes : Reg.BWT_PROP_STATUS_CLASSES.Apart g := apart _ (by simp)
    exact (told.quiet g quiet).trans ((State.madePending_get _ g).trans ((State.get_put_apart _ _ state).trans
      ((State.get_put_apart _ _ classes).trans (State.get_put_apart _ _ state))))

/-! ### The statement (R483 to R487) -/

/-- The machine with the bytes of an image copied. -/
def State.copied (s : State) (image : List Byte) : State := { s with bwt := { s.bwt with image := image } }

/-- R483: how many bytes of the host's image are copied: as many as it says, where R482 admits that, its header otherwise. -/
def State.imageLength (s : State) : Nat :=
  let n := leNat (s.hostMem.readBytes (8 * s.get Reg.BWT_PROP_ADDR_ADDR + 12) 4)
  if 32 ≤ n ∧ n ≤ 1048576 then n else 32

/-- R483: an image of the host's is copied and checked. -/
theorem execProposalLoaded_host {s : State} (submitted : s.proposal = 1) (host : s.bwt.fromHead = false) :
    exec (.proposalLoaded true) s =
      .next (s.copied (s.hostMem.readBytes (8 * s.get Reg.BWT_PROP_ADDR_ADDR) s.imageLength)).checkProposal := by
  show execProposalLoaded true s = _
  rw [execProposalLoaded, if_neg (not_not.2 submitted), if_neg (by simp [host]), if_neg (by decide)]
  rfl

theorem execProposalLoaded_head {s : State} (submitted : s.proposal = 1) (head : s.bwt.fromHead = true) (readOk : Bool) :
    exec (.proposalLoaded readOk) s = .next s.checkProposal := by
  show execProposalLoaded readOk s = _
  rw [execProposalLoaded, if_neg (not_not.2 submitted), if_pos head]

theorem State.copied_kept (s : State) (image : List Byte) : Kept [.bwt] s (s.copied image) := .upd [.bwt] .refl

theorem RegsBut.copied {l : List Field} {s t : State} {image : List Byte} (regs : RegsBut l (s.copied image) t) : RegsBut l s t := regs

/-- R485: an image that says less than 32 bytes, or more than 2^20, is copied by its header, and is not in the form of R482. -/
theorem State.imageWords_short {s : State} {a n : Nat} (named : leNat (s.hostMem.readBytes (a + 12) 4) = n)
    (beyond : n < 32 ∨ 1048576 < n) (u : State) : u.imageWords (s.hostMem.readBytes a 32) = none := by
  have length : (s.hostMem.readBytes a 32).length = 32 := rfl
  have shown : fieldAt (s.hostMem.readBytes a 32) 12 4 = n := named
  have differs : fieldAt (s.hostMem.readBytes a 32) 12 4 ≠ (s.hostMem.readBytes a 32).length := by
    rw [shown, length]
    omega
  unfold State.imageWords
  exact if_pos (.inr (.inr (.inr (.inr (.inl differs)))))

theorem State.finished_regs (s : State) (j : Job) (status cause : Nat) (detail : List Byte) :
    (s.finished j status cause detail).regs = s.regs := by
  unfold State.finished
  dsimp only
  split
  · rfl
  · exact (State.hostWrite_kept ..).regs

/-- A completion leaves the registers of the breakwater. -/
theorem State.complete_get_state (s : State) (a status cause : Nat) (detail : List Byte) :
    (s.complete a status cause detail).proposal = s.proposal := by
  unfold State.complete
  split
  · rfl
  · refine ((s.completeJob_reported _ _ _ _).regs _ .of fun f listed => ?_).trans
      (congrArg (fun rf => rfGet rf _) (s.finished_regs _ _ _ _))
    simp only [completionCounters, List.mem_cons, List.not_mem_nil, or_false] at listed
    obtain rfl | rfl := listed <;> exact .of

/-- Settles O47. -/
theorem proposalsOpenAndClose : Obligations.proposals_open_and_close := by
  unfold Obligations.proposals_open_and_close
  intro s
  have staged {n : Nat} (stage : n = 1 ∨ n = 2 ∨ n = 3) : natMem n [1, 2, 3] = true := by
    obtain rfl | rfl | rfl := stage <;> rfl
  refine ⟨fun idle => ?_, fun busy => ?_, fun stage none => ?_, fun kind l stage waits => ?_, fun out => ?_,
    fun kind l waits idle => ?_, fun kind a l waits idle => ?_, fun rests => ?_, fun n image u submitted host named size read state bad none => ?_,
    fun n image u words submitted host named size read state good faults => ?_,
    fun n image u words e l submitted host named size read state good faults none => ?_,
    fun readOk u words submitted head state good faults => ?_, fun readOk u words e l submitted head state good faults none => ?_,
    fun n submitted host named size none => ?_, fun submitted host none => ?_, fun readOk other => ?_, fun pending late none => ?_,
    fun early => ?_⟩
  · refine ⟨_, if_pos idle, State.get_put_same _ _ 1 .ofNumbers (show 1 < 2 ^ 4 by decide), rfl,
      .of_kept (.of (State.put_kept ..) (.upd [.bwt] .refl)), RegsBut.put (s.copied []) _ _⟩
  · exact ⟨_, if_neg busy, (raise_noted _ _ _).reported, State.raise_get _ _ _ .of, State.raise_get _ _ _ .of⟩
  · have refused := State.refuseProposal_refuses none (subcode := 6) (by decide)
    exact ⟨_, congrArg Host.Outcome.next (if_pos (staged stage)), refused.kept.bwt, refused.state, refused.result,
      .of_kept (.of refused.kept .refl), refused.regs⟩
  · obtain ⟨handed, result⟩ := State.refuseProposal_hands waits (subcode := 6) (by decide)
    exact ⟨_, congrArg Host.Outcome.next (if_pos (staged stage)), handed.state, result, handed.hcr, handed.bwt⟩
  · have no : natMem s.proposal [1, 2, 3] = false := by
      obtain idle | committing := out
      · rw [idle]; rfl
      · rw [committing]; rfl
    exact ⟨_, congrArg Host.Outcome.next (if_neg (by simp [no])), rfl⟩
  · have ran : exec .bwtHandover s = .next (s.handed kind l) := congrArg Host.Outcome.next (State.tryHandover_own waits idle)
    have handed := s.handed_handed kind l
    exact ⟨_, ran, handed.state, handed.hcr, handed.bwt, s.handed_regs kind l⟩
  · have ran : exec .bwtHandover s = .next ((s.handed kind l).complete a 0 0 ((s.handed kind l).hcrDetail 0)) :=
      congrArg Host.Outcome.next (State.tryHandover_job waits idle)
    have handed := s.handed_handed kind l
    have completed := (s.handed kind l).complete_kept a 0 0 ((s.handed kind l).hcrDetail 0)
    exact ⟨_, ran, (State.complete_get_state ..).trans handed.state, State.complete_findJob ..,
      completed.hcr.trans handed.hcr, completed.bwt.trans handed.bwt⟩
  · refine ⟨s, congrArg Host.Outcome.next ?_, rfl⟩
    obtain none | busy := rests
    · exact State.tryHandover_none none
    · exact State.tryHandover_busy busy
  · subst state read
    have whole : s.imageLength = n := by rw [State.imageLength, named, if_pos size]
    have ran := execProposalLoaded_host submitted host
    rw [whole] at ran
    have refused := State.checkProposal_refuses (s := s.copied (s.hostMem.readBytes (8 * s.get Reg.BWT_PROP_ADDR_ADDR) n)) bad none
    exact ⟨_, ran, refused.kept.bwt, refused.state, refused.result, .of_kept (.of refused.kept (.of (s.copied_kept _) .refl)),
      refused.regs⟩
  · subst state read
    have whole : s.imageLength = n := by rw [State.imageLength, named, if_pos size]
    have ran := execProposalLoaded_host submitted host
    rw [whole] at ran
    obtain ⟨pending, classes, bwt, kept, regs⟩ :=
      State.checkProposal_pends (s := s.copied (s.hostMem.readBytes (8 * s.get Reg.BWT_PROP_ADDR_ADDR) n)) good faults
    exact ⟨_, ran, pending, classes, bwt, .of_kept (.of kept (.of (s.copied_kept _) .refl)), regs⟩
  · subst state read
    have whole : s.imageLength = n := by rw [State.imageLength, named, if_pos size]
    have ran := execProposalLoaded_host submitted host
    rw [whole] at ran
    obtain ⟨state, result, kept, regs⟩ :=
      State.checkProposal_refusesFaults (s := s.copied (s.hostMem.readBytes (8 * s.get Reg.BWT_PROP_ADDR_ADDR) n)) good faults none
    exact ⟨_, ran, kept.bwt, state, result, .of_kept (.of kept (.of (s.copied_kept _) .refl)), regs⟩
  · subst state
    obtain ⟨pending, classes, bwt, kept, regs⟩ := State.checkProposal_pends (s := s) good faults
    exact ⟨_, execProposalLoaded_head submitted head readOk, pending, classes, bwt, .of_kept kept, regs⟩
  · subst state
    obtain ⟨state, result, kept, regs⟩ := State.checkProposal_refusesFaults (s := s) good faults none
    exact ⟨_, execProposalLoaded_head submitted head readOk, kept.bwt, state, result, .of_kept (.of kept .refl), regs⟩
  · have header : s.imageLength = 32 := by rw [State.imageLength, named, if_neg (by omega)]
    have ran := execProposalLoaded_host submitted host
    rw [header] at ran
    have refused := State.checkProposal_refuses (s := s.copied (s.hostMem.readBytes (8 * s.get Reg.BWT_PROP_ADDR_ADDR) 32))
      (State.imageWords_short named size _) none
    exact ⟨_, ran, refused.kept.bwt, refused.state, refused.result, .of_kept (.of refused.kept (.of (s.copied_kept _) .refl)),
      refused.regs⟩
  · have refused := State.refuseProposal_refuses none (subcode := 9) (by decide)
    refine ⟨_, ?_, refused.kept.bwt, refused.state, refused.result, .of_kept (.of refused.kept .refl), refused.regs⟩
    show execProposalLoaded false s = _
    rw [execProposalLoaded, if_neg (not_not.2 submitted), if_neg (by simp [host]), if_pos (by decide)]
  · exact ⟨_, if_pos other, rfl⟩
  · have refused := State.refuseProposal_refuses none (subcode := 4) (by decide)
    exact ⟨_, congrArg Host.Outcome.next (if_pos ⟨pending, late⟩), refused.kept.bwt, refused.state, refused.result,
      .of_kept (.of refused.kept .refl), refused.regs⟩
  · refine ⟨_, congrArg Host.Outcome.next (if_neg fun ⟨pending, late⟩ => ?_), rfl⟩
    obtain other | before := early
    · exact other pending
    · exact absurd late before.not_ge

end Sys2Proof.Machine
end

section
/-! PROOFS. Statements on the guard port (spec/21_breakwater.md, R485 to R490): its frames, their answers and the commit. -/
namespace Sys2Proof.Machine

set_option Elab.async false
/-! ### Frames (R485) -/

/-- The machine with the response to the last frame gone. -/
def State.unanswered (s : State) : State := { s with bwt := { s.bwt with response := [] } }

theorem State.onGuard_held {s : State} (held : s.obs.heldInReset = true) (frame : List Byte) (opcode : Nat) (act : State → State) :
    s.onGuard frame opcode act = s := if_pos held

theorem State.onGuard_bad {s : State} (free : s.obs.heldInReset = false) {frame : List Byte} (bad : guardGood frame = false)
    (opcode : Nat) (act : State → State) : s.onGuard frame opcode act = s.badGuardFrame frame := by
  rw [State.onGuard, if_neg (by simp [free]), if_pos (by simp [bad])]

theorem State.onGuard_acts {s : State} (free : s.obs.heldInReset = false) {frame : List Byte} (good : guardGood frame = true)
    {opcode : Nat} (op : fieldAt frame 0 1 = opcode) (act : State → State) : s.onGuard frame opcode act = act s.unanswered := by
  rw [State.onGuard, if_neg (by simp [free]), if_neg (by simp [good]), if_pos op]
  rfl

/-- A frame without effect is counted, and has no response. -/
def State.frameCounted (s : State) : State := s.unanswered.count (cntBwt 1)

theorem State.badGuardFrame_cases (s : State) (frame : List Byte) :
    (∃ l, s.badGuardFrame frame =
      ({ s.frameCounted with bwt := { s.frameCounted.bwt with frameRaisedAt := some s.frameCounted.aon } }).raise 0x1206 l) ∨
      s.badGuardFrame frame = s.frameCounted := by
  unfold State.badGuardFrame
  extract_lets counted again op now raised
  split
  · exact .inl ⟨_, rfl⟩
  · exact .inr rfl

theorem State.badGuardFrame_counts (s : State) (frame : List Byte) :
    (s.badGuardFrame frame).bwt = { s.bwt with response := [], frameRaisedAt := (s.badGuardFrame frame).bwt.frameRaisedAt } ∧
      SameBut (.bwt :: reports) s (s.badGuardFrame frame) ∧ RegsBut [⟨cntBwt 1, 0, 64⟩] s (s.badGuardFrame frame) := by
  have bwt : s.frameCounted.bwt = { s.bwt with response := [] } := State.count_bwt ..
  have kept : Kept (.bwt :: reports) s s.frameCounted := .of (State.count_kept ..) (.upd [.bwt] .refl)
  have regs : RegsBut [⟨cntBwt 1, 0, 64⟩] s s.frameCounted := ((count_counted s.unanswered (cntBwt 1)).reported .of).regs
  obtain ⟨l, raises⟩ | counts := s.badGuardFrame_cases frame
  · rw [raises]
    refine ⟨?_, .of_kept (.of (State.raise_kept ..) (.upd [.bwt] kept)), fun g quiet apart => ?_⟩
    · rw [State.raise_bwt, bwt]
    · exact (State.raise_get _ _ _ quiet).trans (regs g quiet apart)
  · rw [counts]
    refine ⟨?_, .of_kept kept, regs⟩
    rw [bwt]

/-! ### Answers (R485, R487) -/

theorem flag_on (s : State) {f : Field} (sound : f.Sound) (bit : f.width = 1) : flag (s.on f) = s.get f := by
  have lt := s.get_lt f sound
  rw [bit] at lt
  unfold State.on
  obtain zero | one : s.get f = 0 ∨ s.get f = 1 := by omega
  · simp [zero, flag]
  · simp [one, flag]

/-- The bytes that answer STATUS. -/
def State.statusBytes (s : State) : List Byte :=
  leBytes 1 s.proposal ++ leBytes 1 (s.get Reg.BWT_PROP_STATUS_RESULT) ++ leBytes 2 (s.get Reg.BWT_PROP_STATUS_CLASSES) ++
    leBytes 4 (fieldAt s.bwt.image 4 4) ++ leBytes 4 s.proposalDigest ++ leBytes 4 s.bwt.image.length ++ leBytes 4 s.remainUs ++
    leBytes 1 (flag s.bwt.permit + 2 * s.get Reg.BWT_ENABLE_EN + 4 * s.get Reg.HLK_STATUS_BLANK) ++ leBytes 3 0

theorem execGrdStatus_answers {s : State} (free : s.obs.heldInReset = false) {frame : List Byte} (good : guardGood frame = true)
    (op : fieldAt frame 0 1 = 0x0B) : exec (.grdStatus frame) s = .next (s.unanswered.respond s.statusBytes) := by
  have enable := flag_on s (f := Reg.BWT_ENABLE_EN) .ofNumbers rfl
  have blank := flag_on s (f := Reg.HLK_STATUS_BLANK) .ofNumbers rfl
  show execGrdStatus frame s = _
  rw [execGrdStatus, State.onGuard_acts free good op]
  refine congrArg (fun l => Host.Outcome.next (s.unanswered.respond l)) ?_
  rw [State.statusBytes, ← enable, ← blank]
  simp only [packFields, List.append_assoc, List.append_nil]
  rfl

/-- R485: the bytes of the image that a READ asks for. -/
def State.readBytesOf (s : State) (frame : List Byte) : List Byte :=
  ((s.bwt.image.drop (fieldAt frame 1 4)) ++ List.replicate (fieldAt frame 5 2) 0).take (fieldAt frame 5 2)

theorem State.readBytesOf_length (s : State) (frame : List Byte) : (s.readBytesOf frame).length = fieldAt frame 5 2 := by
  simp [State.readBytesOf]

theorem State.readBytesOf_getD (s : State) (frame : List Byte) {k : Nat} (inside : k < fieldAt frame 5 2) :
    (s.readBytesOf frame).getD k 0 = s.bwt.image.getD (fieldAt frame 1 4 + k) 0 := by
  unfold State.readBytesOf
  rw [List.getD_eq_getElem?_getD, List.getElem?_take, if_pos inside, List.getD_eq_getElem?_getD, List.getElem?_append,
    List.getElem?_drop, List.length_drop]
  split
  · rfl
  · next beyond =>
    rw [List.getElem?_replicate, if_pos (by omega), List.getElem?_eq_none (l := s.bwt.image) (by omega)]
    rfl

theorem execGrdRead_answers {s : State} (free : s.obs.heldInReset = false) {frame : List Byte} (good : guardGood frame = true)
    (op : fieldAt frame 0 1 = 0x0C) (pending : s.proposal = 3) :
    exec (.grdRead frame) s = .next (s.unanswered.respond (s.readBytesOf frame)) := by
  show execGrdRead frame s = _
  rw [execGrdRead, State.onGuard_acts free good op]
  exact congrArg Host.Outcome.next (if_pos pending)

end Sys2Proof.Machine
end

section
/-! PROOFS. The commit of a proposal (spec/21_breakwater.md, R488, R490), and the statement on the guard port. -/
namespace Sys2Proof.Machine

set_option Elab.async false
/-! ### The committed words (R488) -/

/-- What a commit leaves of a word depends on that word alone. -/
theorem committed_word_congr {rf rf' : RegFile} {o : Nat} (same : rfWord rf' o = rfWord rf o) (words : List (Nat × Nat)) :
    rfWord (committed rf' words) o = rfWord (committed rf words) o := by
  induction words generalizing rf rf' with
  | nil => exact same
  | cons p rest ih =>
    refine ih ?_
    dsimp only
    split
    · exact same
    · rw [rfWord_set, rfWord_set]
      split
      · next here => rw [here, same]
      · exact same

/-- A commit changes the words that it names alone. -/
theorem committed_word_other (rf : RegFile) {o : Nat} {words : List (Nat × Nat)} (other : ∀ p ∈ words, p.1 ≠ o) :
    rfWord (committed rf words) o = rfWord rf o := by
  induction words generalizing rf with
  | nil => rfl
  | cons p rest ih =>
    refine (ih _ fun q listed => other q (List.mem_cons_of_mem _ listed)).trans ?_
    dsimp only
    split
    · rfl
    · rw [rfWord_set, if_neg (other p List.mem_cons_self)]

theorem committed_get_congr {rf rf' : RegFile} {f : Field} (one : f.spans = false) (same : rfWord rf' f.off = rfWord rf f.off)
    (words : List (Nat × Nat)) : rfGet (committed rf' words) f = rfGet (committed rf words) f := by
  rw [rfGet_eq_word _ one, rfGet_eq_word _ one, committed_word_congr same]

/-- R482: the words of an image are protected settings. -/
theorem State.imageWords_protected {s : State} {image : List Byte} {words : List (Nat × Nat)}
    (good : s.imageWords image = some words) : ∀ p ∈ words, protectedWord p = true := by
  unfold State.imageWords at good
  extract_lets records at good
  split at good
  · cases good
  · split at good
    · split at good
      · next all =>
        obtain rfl := Option.some.inj good
        simp only [Bool.and_eq_true, List.all_eq_true] at all
        exact all.1
      · cases good
    · cases good

/-- R481: the row of the register table of EXP_STATE, which is no protected setting. -/
theorem expState_unprotected (p : Nat × Nat) (protectd : protectedWord p = true) : p.1 ≠ 0x00C00004 := by
  have none : ∀ x ∈ findRow 0x00C00004, protectedClass x.1.base = none := by decide +kernel
  intro here
  unfold protectedWord at protectd
  rw [here] at protectd
  split at protectd
  · cases protectd
  · next r idx k row =>
    rw [none _ row] at protectd
    simp at protectd

/-! ### What a commit leaves (R488) -/

/-- The machine with a proposal being committed. -/
def State.committing (s : State) : State := s.put Reg.BWT_PROP_STATUS_STATE 4

/-- The fields that a commit writes beside the settings of its words, but for HEAD_BLANK. -/
def commitFields : List Field := [Reg.BWT_PROP_STATUS_STATE, Reg.BWT_PROP_STATUS_RESULT, Reg.BWT_SEQ_COMMITTED,
  Reg.BWT_LAST_DIGEST_DIGEST, ⟨cntBwt 0, 0, 64⟩, Reg.HLK_GEOM_GEN_COMMITTED, Reg.HCR_GEN_ALIGN_GEN, Reg.HCR_STATUS_STUCK,
  Reg.HCR_STATUS_UNMEASURED, Reg.HCR_STATUS_NEW_DEAD, Reg.HCR_STATUS_LATCHED_DEAD, Reg.HCR_STATUS_HOLD]

/-- The fields of a commit that follow its record. -/
def commitAfter : List Field := [⟨cntBwt 0, 0, 64⟩, Reg.HLK_GEOM_GEN_COMMITTED, Reg.HCR_GEN_ALIGN_GEN, Reg.HCR_STATUS_STUCK,
  Reg.HCR_STATUS_UNMEASURED, Reg.HCR_STATUS_NEW_DEAD, Reg.HCR_STATUS_LATCHED_DEAD, Reg.HCR_STATUS_HOLD]

/-- The machine with the values of a proposal's words alone. -/
def State.settled (s : State) (words : List (Nat × Nat)) : State := { s with regs := committed s.regs words }

/-- The machine once a commit has stored its words, counted, told and judged; no class has taken effect. -/
def State.recorded (s : State) (words : List (Nat × Nat)) : State :=
  let t := (((s.storeWords words).strandStrip s words).advanceGens s.regs words).count (cntBwt 0)
  (t.raise 0x1202 [(4, t.proposalSeq), (4, classesOf words)]).judgeHold

theorem State.judgeHold_regs (s : State) : RegsBut [Reg.HCR_STATUS_STUCK, Reg.HCR_STATUS_UNMEASURED, Reg.HCR_STATUS_NEW_DEAD,
    Reg.HCR_STATUS_LATCHED_DEAD, Reg.HCR_STATUS_HOLD] s s.judgeHold := by
  have dead (t : State) (beams : List Nat) (old : Bool) (bit : Nat) : Noted t (t.deadEvent beams old bit) := by
    unfold State.deadEvent
    split
    · exact .rfl' t
    · split
      · exact .rfl' t
      · exact raise_noted ..
  unfold State.judgeHold
  extract_lets deadBeams new latched stuck unmeasured oldNew oldLatched shown
  have puts : RegsBut [Reg.HCR_STATUS_STUCK, Reg.HCR_STATUS_UNMEASURED, Reg.HCR_STATUS_NEW_DEAD, Reg.HCR_STATUS_LATCHED_DEAD,
      Reg.HCR_STATUS_HOLD] s shown :=
    ((((RegsBut.put s _ _).trans (.put _ _ _)).trans (.put _ _ _)).trans (.put _ _ _)).trans (.put _ _ _)
  exact ((puts.trans (dead _ _ _ _).regsBut).trans (dead _ _ _ _).regsBut).weaken fun _ => by simp

theorem State.advanceGens_regs (s : State) (old : RegFile) (words : List (Nat × Nat)) :
    RegsBut [Reg.HLK_GEOM_GEN_COMMITTED, Reg.HCR_GEN_ALIGN_GEN] s (s.advanceGens old words) := by
  unfold State.advanceGens
  extract_lets changed first
  have geometry : RegsBut [Reg.HLK_GEOM_GEN_COMMITTED] s first := by
    unfold first
    split
    · exact RegsBut.put s _ _
    · exact .of_regs rfl
  split
  · exact geometry.trans (.put _ _ _)
  · exact geometry.weaken fun _ => List.mem_append_left [_]

theorem State.recorded_after (s : State) (words : List (Nat × Nat)) :
    RegsBut commitAfter (s.storeWords words) (s.recorded words) := by
  unfold State.recorded
  extract_lets t
  have stranded : RegsBut [] (s.storeWords words) ((s.storeWords words).strandStrip s words) :=
    .of_regs (State.strandStrip_kept ..).regs
  have counted : RegsBut [Reg.HLK_GEOM_GEN_COMMITTED, Reg.HCR_GEN_ALIGN_GEN, ⟨cntBwt 0, 0, 64⟩] (s.storeWords words) t :=
    (stranded.trans (State.advanceGens_regs _ _ _)).trans ((count_counted _ (cntBwt 0)).reported .of).regs
  exact ((counted.trans (raise_noted t 0x1202 _).regsBut).trans (State.judgeHold_regs _)).weaken fun _ listed => by
    simp only [commitAfter, List.append_nil, List.nil_append, List.cons_append, List.mem_cons, List.not_mem_nil, or_false] at listed ⊢
    tauto

theorem State.recorded_kept (s : State) (words : List (Nat × Nat)) : Kept (.box :: reports) s (s.recorded words) :=
  .of (State.judgeHold_kept _) (.of (State.raise_kept ..) (.of (State.count_kept ..) (.of (State.advanceGens_kept ..)
    (.of (State.strandStrip_kept ..) (.of (State.storeWords_kept ..) .refl)))))

/-- R200: a commit strands no strip where none is open, or the open one is not interrupted. -/
theorem State.strandStrip_stays {s was : State} (stays : s.openStrip = none ∨ natMem (s.get Reg.EXP_STATE_STATE) [1, 2, 6] = false)
    (words : List (Nat × Nat)) : s.strandStrip was words = s := by
  unfold State.strandStrip
  split
  · rfl
  · next st isOpen =>
    exact if_neg (by simp [stays.resolve_left (by rw [isOpen]; exact fun h => nomatch h)])

/-- R200: then a commit leaves the head box. -/
theorem State.recorded_box {s : State} {words : List (Nat × Nat)}
    (stays : s.openStrip = none ∨ natMem ((s.storeWords words).get Reg.EXP_STATE_STATE) [1, 2, 6] = false) :
    (s.recorded words).box = s.box := by
  have stored : (s.storeWords words).box = s.box := (State.storeWords_kept ..).box
  have kept : Kept reports (s.storeWords words) (s.recorded words) := by
    unfold State.recorded
    rw [State.strandStrip_stays (stays.imp (State.openStrip_congr stored).trans id)]
    exact .of (State.judgeHold_kept _) (.of (State.raise_kept ..) (.of (State.count_kept ..) (.of (State.advanceGens_kept ..) .refl)))
  exact kept.box.trans stored

theorem commitFields_apart {g : Field} (apart : ∀ f ∈ commitFields, f.Apart g) : ∀ f ∈ commitAfter, f.Apart g := fun f listed =>
  apart f (by
    simp only [commitAfter, commitFields, List.mem_cons, List.not_mem_nil, or_false] at listed ⊢
    tauto)

theorem State.storeWords_get (s : State) (words : List (Nat × Nat)) {g : Field} (apart : ∀ f ∈ commitFields, f.Apart g) :
    (s.storeWords words).get g = rfGet (committed s.regs words) g := by
  refine State.get_puts_apart (s.settled words) _ fun p listed => apart p.1 ?_
  simp only [List.mem_cons, List.not_mem_nil, or_false] at listed
  obtain rfl | rfl | rfl | rfl := listed <;> simp [commitFields]

/-- R488: a setting that the record of the commit does not share holds the image's value. -/
theorem State.recorded_get (s : State) (words : List (Nat × Nat)) {g : Field} (quiet : g.Quiet)
    (apart : ∀ f ∈ commitFields, f.Apart g) : (s.recorded words).get g = rfGet (committed s.regs words) g := by
  exact (s.recorded_after words g quiet (commitFields_apart apart)).trans (s.storeWords_get words apart)

theorem commitAfter_spares {g : Field} (clear : ∀ f ∈ commitAfter, f.Clear g := by decide) : ∀ f ∈ commitAfter, f.Apart g := clear

theorem commitFields_spare {g : Field} (clear : ∀ f ∈ commitFields, f.Clear g := by decide) : ∀ f ∈ commitFields, f.Apart g := clear

theorem leNat_lt (l : List Byte) : leNat l < 256 ^ l.length := by
  induction l with
  | nil => exact Nat.one_pos
  | cons b l ih =>
    have := b.isLt
    rw [leNat, List.length_cons, Nat.pow_succ]
    omega

theorem fieldAt_lt (l : List Byte) (off w : Nat) : fieldAt l off w < 256 ^ w :=
  (leNat_lt _).trans_le (Nat.pow_le_pow_right (by decide) (List.length_take_le ..))

theorem State.proposalDigest_lt (s : State) : s.proposalDigest < 2 ^ 32 := by
  unfold State.proposalDigest
  split
  · decide
  · exact (crc32 s.bwt.image).isLt

theorem State.proposalSeq_lt (s : State) : s.proposalSeq < 2 ^ 32 := by
  unfold State.proposalSeq
  split
  · decide
  · exact fieldAt_lt s.bwt.image 4 4

/-- R488: the record of a commit. -/
structure Recorded (s t : State) : Prop where
  state : t.proposal = 0
  result : t.get Reg.BWT_PROP_STATUS_RESULT = 0
  seq : t.get Reg.BWT_SEQ_COMMITTED = s.proposalSeq
  digest : t.get Reg.BWT_LAST_DIGEST_DIGEST = s.proposalDigest

theorem State.recorded_recorded (s : State) (words : List (Nat × Nat)) : Recorded s (s.recorded words) := by
  have after (f : Field) (quiet : f.Quiet) (clear : ∀ x ∈ commitAfter, x.Clear f) := s.recorded_after words f quiet clear
  refine ⟨(after Reg.BWT_PROP_STATUS_STATE .of (by decide)).trans ?_,
    (after Reg.BWT_PROP_STATUS_RESULT .of (by decide)).trans ?_,
    (after Reg.BWT_SEQ_COMMITTED .of (by decide)).trans ?_,
    (after Reg.BWT_LAST_DIGEST_DIGEST .of (by decide)).trans ?_⟩
  · exact (State.get_put_apart _ _ .ofNumbers).trans (State.get_put_same _ _ 0 .ofNumbers (show 0 < 2 ^ 4 by decide))
  · exact State.get_put_same _ _ 0 .ofNumbers (show 0 < 2 ^ 8 by decide)
  · exact (State.get_put_apart _ _ .ofNumbers).trans ((State.get_put_apart _ _ .ofNumbers).trans
      ((State.get_put_apart _ _ .ofNumbers).trans (State.get_put_same _ _ _ .ofNumbers s.proposalSeq_lt)))
  · exact (State.get_put_apart _ _ .ofNumbers).trans ((State.get_put_apart _ _ .ofNumbers).trans
      (State.get_put_same _ _ _ .ofNumbers s.proposalDigest_lt))

/-! ### The classes of a commit (R488) -/

/-- The machine once the classes of a commit but for the exposure enable have taken effect. -/
def State.effective (s : State) (words : List (Nat × Nat)) : State :=
  (((s.recorded words).rateTakesEffect s).intensityTakesEffect s).burnStarts (classesOf words)

theorem State.commitWords_eq (s : State) (words : List (Nat × Nat)) :
    s.commitWords words = ((s.effective words).enableTakesEffect s).tryHandover := rfl

/-- R284: a commit that lowers no rate of a planned run replans nothing. -/
theorem State.rateTakesEffect_stays {s was : State}
    (stays : s.tid.plans = [] ∨ was.get Reg.BWT_MAX_RATE_HZ ≤ s.get Reg.BWT_MAX_RATE_HZ) : s.rateTakesEffect was = s := by
  unfold State.rateTakesEffect
  split
  · next lowered =>
    unfold State.replan
    rw [stays.resolve_right (by omega)]
    rfl
  · rfl

/-- From s to t a commit has taken effect: nothing but the burn of its fuses, and what an event changes. -/
structure TookEffect (s t : State) : Prop where
  kept : Kept (.bwt :: reports) s t
  image : t.bwt.image = s.bwt.image
  response : t.bwt.response = s.bwt.response
  permit : t.bwt.permit = s.bwt.permit
  regs : RegsBut [] s t

theorem State.effective_tookEffect {s : State} {words : List (Nat × Nat)}
    (stays : s.tid.plans = [] ∨ s.get Reg.BWT_MAX_RATE_HZ ≤ rfGet (committed s.regs words) Reg.BWT_MAX_RATE_HZ) :
    TookEffect (s.recorded words) (s.effective words) := by
  have rate : (s.recorded words).rateTakesEffect s = s.recorded words := by
    refine State.rateTakesEffect_stays ?_
    rw [State.recorded_get _ _ .of commitFields_spare, (s.recorded_kept words).tid]
    exact stays
  have noted : Noted (s.recorded words) ((s.recorded words).intensityTakesEffect s) := by
    unfold State.intensityTakesEffect
    split
    · exact raise_noted ..
    · exact .rfl' _
  unfold State.effective
  rw [rate]
  generalize (s.recorded words).intensityTakesEffect s = t at noted
  unfold State.burnStarts
  extract_lets n
  have image : t.bwt.image = _ := congrArg BwtState.image noted.bwt
  have response : t.bwt.response = _ := congrArg BwtState.response noted.bwt
  have permit : t.bwt.permit = _ := congrArg BwtState.permit noted.bwt
  split
  · exact ⟨.upd [.bwt] (.of noted.kept .refl), image, response, permit, noted.regsBut⟩
  · exact ⟨.of noted.kept .refl, image, response, permit, noted.regsBut⟩

/-- R487: the machine as a CONFIRM has put its proposal to COMMITTING. -/
theorem State.committing_get (s : State) (words : List (Nat × Nat)) {g : Field} (one : g.spans = false)
    (apart : g.off ≠ Reg.BWT_PROP_STATUS_STATE.off) (high : g.off ≠ Reg.BWT_PROP_STATUS_STATE.off + 4) :
    rfGet (committed s.committing.regs words) g = rfGet (committed s.regs words) g :=
  committed_get_congr one (rfWord_put_apart _ _ _ apart.symm high.symm) words

/-- R305: a commit leaves the state of the sequencer. -/
theorem State.committed_state {s : State} {image : List Byte} {words : List (Nat × Nat)} (good : s.imageWords image = some words) :
    rfGet (committed s.regs words) Reg.EXP_STATE_STATE = s.get Reg.EXP_STATE_STATE := by
  have same : rfWord (committed s.regs words) Reg.EXP_STATE_STATE.off = rfWord s.regs Reg.EXP_STATE_STATE.off :=
    committed_word_other _ fun p listed => expState_unprotected p (State.imageWords_protected good p listed)
  rw [State.get, rfGet_eq_word _ rfl, rfGet_eq_word _ rfl, same]

/-! ### The exposure enable (R490) -/

theorem State.effective_get {s : State} {words : List (Nat × Nat)} (effect : TookEffect (s.recorded words) (s.effective words))
    {g : Field} (quiet : g.Quiet) (apart : ∀ f ∈ commitFields, f.Apart g) :
    (s.effective words).get g = rfGet (committed s.regs words) g :=
  (effect.regs g quiet (by simp)).trans (s.recorded_get words quiet apart)

/-- R490: a commit that does not clear the exposure enable leaves the blanking as the enable and the permit have it. -/
theorem State.enableTakesEffect_reblanks {s was : State} (lasts : was.get Reg.BWT_ENABLE_EN = 0 ∨ s.get Reg.BWT_ENABLE_EN = 1) :
    s.enableTakesEffect was = s.reblank := by
  unfold State.enableTakesEffect State.on
  refine if_neg ?_
  obtain clear | set := lasts
  · simp [clear]
  · simp [set]

/-- R490: one that clears it acts as EXPOSE_PERMIT does. -/
theorem State.enableTakesEffect_stops {s was : State} (set : was.get Reg.BWT_ENABLE_EN = 1) (clear : s.get Reg.BWT_ENABLE_EN = 0) :
    s.enableTakesEffect was = s.reblank.hardwareStop 3 false := by
  unfold State.enableTakesEffect State.on
  exact if_pos (by simp [set, clear])

theorem Recorded.of_regs {s t u : State} (recorded : Recorded s t) (kept : RegsBut [Reg.HLK_STATUS_BLANK] t u) : Recorded s u where
  state := (kept _ .of (by simpa using .of)).trans recorded.state
  result := (kept _ .of (by simpa using .of)).trans recorded.result
  seq := (kept _ .of (by simpa using .of)).trans recorded.seq
  digest := (kept _ .of (by simpa using .of)).trans recorded.digest

/-- R488: the fields that a commit writes beside the settings of its words. -/
theorem commitFields_blank {g : Field} (apart : ∀ f ∈ commitFields ++ [Reg.HLK_STATUS_BLANK], f.Apart g) :
    (∀ f ∈ commitFields, f.Apart g) ∧ Reg.HLK_STATUS_BLANK.Apart g :=
  ⟨fun f listed => apart f (List.mem_append_left _ listed), apart _ (by simp)⟩

/-! ### Confirmations (R487) -/

theorem execGrdConfirm_eq {s : State} (free : s.obs.heldInReset = false) {frame : List Byte} (good : guardGood frame = true)
    (op : fieldAt frame 0 1 = 0x0D) : exec (.grdConfirm frame) s = .next
      (if s.proposal ≠ 3 ∨ s.bwt.pendingAt + 40000000 ≤ s.aon then s.unanswered
       else if fieldAt frame 1 4 ≠ s.proposalSeq then s.unanswered.refuseProposal 2
       else if fieldAt frame 5 4 ≠ s.proposalDigest then s.unanswered.refuseProposal 3
       else
         match s.imageWords s.bwt.image with
         | some words => s.unanswered.committing.commitWords words
         | none => s.unanswered) := by
  show execGrdConfirm frame s = _
  rw [execGrdConfirm, State.onGuard_acts free good op]
  rfl

theorem execGrdReject_eq {s : State} (free : s.obs.heldInReset = false) {frame : List Byte} (good : guardGood frame = true)
    (op : fieldAt frame 0 1 = 0x0E) : exec (.grdReject frame) s = .next
      (if s.proposal = 3 ∧ fieldAt frame 1 4 = s.proposalSeq ∧ s.aon < s.bwt.pendingAt + 40000000 then s.unanswered.refuseProposal 5
       else s.unanswered) := by
  show execGrdReject frame s = _
  rw [execGrdReject, State.onGuard_acts free good op]
  rfl

/-- R487: the proposal that a CONFIRM names is committed. -/
theorem execGrdConfirm_commits {s : State} (free : s.obs.heldInReset = false) {frame : List Byte} (good : guardGood frame = true)
    (op : fieldAt frame 0 1 = 0x0D) (pending : s.proposal = 3) (early : s.aon < s.bwt.pendingAt + 40000000)
    (seq : fieldAt frame 1 4 = s.proposalSeq) (digest : fieldAt frame 5 4 = s.proposalDigest) {words : List (Nat × Nat)}
    (image : s.imageWords s.bwt.image = some words) :
    exec (.grdConfirm frame) s = .next (s.unanswered.committing.commitWords words) := by
  rw [execGrdConfirm_eq free good op, if_neg (by simp [pending, early]), if_neg (not_not.2 seq), if_neg (not_not.2 digest), image]

/-- R487: a refusal of a proposal by a guard frame. -/
theorem Refused.answered {s t : State} {subcode : Nat} (refused : Refused subcode s.unanswered t) :
    t.bwt = { s.bwt with response := [] } ∧ t.proposal = 0 ∧ t.get Reg.BWT_PROP_STATUS_RESULT = subcode ∧
      SameBut (.bwt :: reports) s t ∧ RegsBut [Reg.BWT_PROP_STATUS_STATE, Reg.BWT_PROP_STATUS_RESULT, ⟨cntBwt 2, 0, 64⟩] s t := by
  have kept : Kept (.bwt :: reports) s s.unanswered := .upd [.bwt] .refl
  exact ⟨refused.kept.bwt, refused.state, refused.result, .of_kept (.of refused.kept kept), refused.regs⟩

/-- R488: the effect of the classes but the exposure enable, on the machine that a CONFIRM has put to COMMITTING. -/
theorem State.committing_effect {s : State} {words : List (Nat × Nat)}
    (stays : s.tid.plans = [] ∨ s.get Reg.BWT_MAX_RATE_HZ ≤ rfGet (committed s.regs words) Reg.BWT_MAX_RATE_HZ) :
    TookEffect (s.committing.recorded words) (s.committing.effective words) := by
  refine State.effective_tookEffect ?_
  rw [State.committing_get s words rfl (by decide) (by decide)]
  refine stays.imp id fun low => ?_
  rw [State.committing, State.get_put_apart _ _ .of]
  exact low

/-- What a commit leaves where it does not clear the exposure enable. -/
structure Committed (words : List (Nat × Nat)) (s t : State) : Prop where
  recorded : Recorded s.committing t
  settings : ∀ g : Field, g.Quiet → (∀ f ∈ commitFields ++ [Reg.HLK_STATUS_BLANK], f.Apart g) →
    t.get g = rfGet (committed s.committing.regs words) g
  image : t.bwt.image = s.bwt.image
  response : t.bwt.response = s.bwt.response
  permit : t.bwt.permit = s.bwt.permit
  box : s.openStrip = none → t.box = s.box
  kept : Kept (.bwt :: .box :: reports) s t

theorem State.commitWords_commits {s : State} {words : List (Nat × Nat)}
    (lasts : s.get Reg.BWT_ENABLE_EN = 0 ∨ rfGet (committed s.regs words) Reg.BWT_ENABLE_EN = 1)
    (stays : s.tid.plans = [] ∨ s.get Reg.BWT_MAX_RATE_HZ ≤ rfGet (committed s.regs words) Reg.BWT_MAX_RATE_HZ)
    (none : s.hcr.handover = []) : Committed words s (s.committing.commitWords words) := by
  have effect := State.committing_effect stays
  have recordedKept := s.committing.recorded_kept words
  have committingKept : Kept [.regs] s s.committing := State.put_kept ..
  have enabled : s.committing.get Reg.BWT_ENABLE_EN = 0 ∨ (s.committing.effective words).get Reg.BWT_ENABLE_EN = 1 := by
    rw [State.effective_get effect .of commitFields_spare, State.committing_get s words rfl (by decide) (by decide),
      State.committing, State.get_put_apart _ _ .of]
    exact lasts
  have kept : Kept (.bwt :: .box :: reports) s (s.committing.effective words) :=
    .of effect.kept (.of recordedKept (.of committingKept .refl))
  have blanks : RegsBut [Reg.HLK_STATUS_BLANK] (s.committing.recorded words) (s.committing.effective words).reblank :=
    effect.regs.trans (RegsBut.reblank _)
  have idle : (s.committing.effective words).reblank.hcr.handover = [] := (congrArg HcrState.handover kept.hcr).trans none
  rw [State.commitWords_eq, State.enableTakesEffect_reblanks enabled, State.tryHandover_none idle]
  refine ⟨(s.committing.recorded_recorded words).of_regs blanks, fun g quiet apart => ?_, effect.image.trans ?_,
    effect.response.trans ?_, effect.permit.trans ?_, fun shut => effect.kept.box.trans ?_, .of (State.put_kept ..) kept⟩
  · obtain ⟨record, blank⟩ := commitFields_blank apart
    exact (blanks g quiet (by simpa using blank)).trans (State.recorded_get _ _ quiet record)
  · exact congrArg BwtState.image recordedKept.bwt
  · exact congrArg BwtState.response recordedKept.bwt
  · exact congrArg BwtState.permit recordedKept.bwt
  · exact State.recorded_box (.inl shut)

/-- R490: what a commit that clears the exposure enable leaves of a run. -/
structure CommitStopped (t : State) : Prop where
  state : t.get Reg.EXP_STATE_STATE = 6
  cause : t.get Reg.EXP_BREAK_CAUSE = 3
  kind : t.get Reg.EXP_BREAK_KIND = 1
  blank : t.exposing = false
  enable : t.get Reg.BWT_ENABLE_EN = 0
  proposal : t.proposal = 0
  result : t.get Reg.BWT_PROP_STATUS_RESULT = 0

theorem status_ofLoops : Field.OfLoops Reg.BWT_PROP_STATUS_STATE where
  sound := .ofNumbers
  range := .inr (by decide)
  counters := fun c four k few => by interval_cases c <;> interval_cases k <;> exact .of

theorem result_ofLoops : Field.OfLoops Reg.BWT_PROP_STATUS_RESULT where
  sound := .ofNumbers
  range := .inr (by decide)
  counters := fun c four k few => by interval_cases c <;> interval_cases k <;> exact .of

theorem State.commitWords_stops {s : State} {words : List (Nat × Nat)} {image : List Byte} {st : Strip}
    (good : s.imageWords image = some words) (set : s.get Reg.BWT_ENABLE_EN = 1)
    (clear : rfGet (committed s.regs words) Reg.BWT_ENABLE_EN = 0) (unplanned : s.tid.plans = []) (none : s.hcr.handover = [])
    (fires : s.firing = true) (isOpen : s.openStrip = some st) (noPrompt : s.seq.prompt = Option.none) :
    CommitStopped (s.committing.commitWords words) := by
  have effect := State.committing_effect (words := words) (.inl unplanned)
  have recordedKept := s.committing.recorded_kept words
  have kept : Kept (.bwt :: .box :: reports) s (s.committing.effective words) :=
    .of effect.kept (.of recordedKept (.of (State.put_kept ..) .refl))
  have wasSet : s.committing.get Reg.BWT_ENABLE_EN = 1 := (State.get_put_apart _ _ .of).trans set
  have nowClear : (s.committing.effective words).get Reg.BWT_ENABLE_EN = 0 := by
    rw [State.effective_get effect .of commitFields_spare, State.committing_get s words rfl (by decide) (by decide), clear]
  have still : rfGet (committed s.committing.regs words) Reg.EXP_STATE_STATE = s.get Reg.EXP_STATE_STATE :=
    (s.committing_get words rfl (by decide) (by decide)).trans (State.committed_state good)
  have stays : (s.committing.recorded words).box = s.box := by
    refine State.recorded_box (.inr ?_)
    have stored : (s.committing.storeWords words).get Reg.EXP_STATE_STATE = s.get Reg.EXP_STATE_STATE :=
      (State.storeWords_get _ _ commitFields_spare).trans still
    rw [State.firing, decide_eq_true_eq] at fires
    rw [stored]
    obtain four | seven := fires
    · rw [four]; decide
    · rw [seven]; decide
  let m := (s.committing.effective words).reblank
  have mKept : Kept (.bwt :: .box :: reports) s m := .of (State.put_kept ..) kept
  have blanks : RegsBut [Reg.HLK_STATUS_BLANK] (s.committing.recorded words) m := effect.regs.trans (RegsBut.reblank _)
  have record := (s.committing.recorded_recorded words).of_regs blanks
  have mState : m.get Reg.EXP_STATE_STATE = s.get Reg.EXP_STATE_STATE :=
    (blanks _ .ofNumbers (by simpa using .of)).trans ((State.recorded_get _ _ .ofNumbers commitFields_spare).trans still)
  have mClear : m.get Reg.BWT_ENABLE_EN = 0 := (State.get_put_apart _ _ .of).trans nowClear
  have mOpen : m.openStrip = some st := (State.openStrip_congr (effect.kept.box.trans stays)).trans isOpen
  have mFires : m.firing = true := by
    rw [State.firing, mState]
    exact fires
  have stops := State.hardwareStop_breaks mOpen mFires ((congrArg SeqState.prompt mKept.seq).trans noPrompt)
  have broken := State.enterBreak_broken mOpen (cause := 3) (kind := 1) (by decide) (by decide) m.hardwareTick []
  have blank := State.enterBreak_blank mOpen (.inr mClear) 3 1 m.hardwareTick false []
  have spares := m.enterBreak_spares 3 1 m.hardwareTick false []
  have brokenKept := m.enterBreak_kept 3 1 m.hardwareTick false []
  generalize m.enterBreak 3 1 m.hardwareTick false [] = b at stops broken blank spares brokenKept
  have sent := b.sendStop_kept (b.get Reg.EXP_BREAK_CAUSE) (b.get Reg.EXP_BREAK_KIND) m.hardwareTick (b.get Reg.CSC_CFG_DEVICE)
  have same (f : Field) := congrArg (fun rf => rfGet rf f) sent.regs
  have idle : (m.hardwareStop 3 false).hcr.handover = [] := by
    rw [stops, sent.hcr, brokenKept.hcr, mKept.hcr]
    exact none
  rw [State.commitWords_eq, State.enableTakesEffect_stops wasSet nowClear]
  show CommitStopped (m.hardwareStop 3 false).tryHandover
  rw [State.tryHandover_none idle, stops]
  exact ⟨(same _).trans broken.state, (same _).trans broken.byCause, (same _).trans broken.byKind,
    State.exposing_of_blank ((same _).trans blank), (same _).trans ((spares.get _ enable_ofLoops).trans mClear),
    (same _).trans ((spares.get _ status_ofLoops).trans record.state),
    (same _).trans ((spares.get _ result_ofLoops).trans record.result)⟩

/-! ### The statement -/

/-- Settles O48: frames by what they name (`State.onGuard`), refusals as those of O47, and a commit class by class. -/
theorem guardPort : Obligations.guard_port := by
  unfold Obligations.guard_port
  intro s
  have unansweredKept : Kept [.bwt] s s.unanswered := .upd [.bwt] .refl
  have answered (body : List Byte) : Kept [.bwt] s (s.unanswered.respond body) := .of (State.respond_kept ..) unansweredKept
  refine ⟨fun frame free good op => ?_, fun frame free good op pending => ?_, fun frame free good op other => ?_,
    fun frame free good op pending early seq none => ?_, fun frame free good op pending early seq digest none => ?_,
    fun frame words free good op pending early seq digest image lasts stays none => ?_,
    fun frame words st free good op pending early seq digest image clears unplanned none fires isOpen noPrompt => ?_,
    fun frame free good op ended => ?_, fun frame free good op pending early seq none => ?_,
    fun frame free good op ended => ?_, fun frame d guards held => ?_, fun frame d guards free bad => ?_⟩
  · exact ⟨_, execGrdStatus_answers free good op, rfl, rfl, .of_kept (answered _)⟩
  · have len := s.readBytesOf_length frame
    refine ⟨_, execGrdRead_answers free good op pending, rfl, ?_, fun k inside => ?_, ?_, .of_kept (answered _)⟩
    · exact (List.length_append ..).trans (by rw [len]; rfl)
    · exact ((congrArg (Option.getD · 0) (List.getElem?_append_left (by omega)))).trans (s.readBytesOf_getD frame inside)
    · show List.drop _ (s.readBytesOf frame ++ _) = leBytes 2 (setpointCrc (List.take _ (s.readBytesOf frame ++ _)))
      rw [List.drop_left' len, List.take_left' len]
  · refine ⟨_, ?_, rfl⟩
    show execGrdRead frame s = _
    rw [execGrdRead, State.onGuard_acts free good op]
    exact congrArg Host.Outcome.next (if_neg other)
  · have ran := execGrdConfirm_eq free good op
    rw [if_neg (by simp [pending, early]), if_pos seq] at ran
    exact ⟨_, ran, (State.refuseProposal_refuses (s := s.unanswered) (subcode := 2) none (by decide)).answered⟩
  · have ran := execGrdConfirm_eq free good op
    rw [if_neg (by simp [pending, early]), if_neg (not_not.2 seq), if_pos digest] at ran
    exact ⟨_, ran, (State.refuseProposal_refuses (s := s.unanswered) (subcode := 3) none (by decide)).answered⟩
  · have commits := State.commitWords_commits (s := s.unanswered) lasts stays none
    exact ⟨_, execGrdConfirm_commits free good op pending early seq digest image, commits.recorded.state, commits.recorded.result,
      commits.recorded.seq, commits.recorded.digest, commits.settings, commits.image, commits.response, commits.permit,
      commits.box, .of_kept (.of commits.kept (.of unansweredKept .refl))⟩
  · obtain ⟨set, clear⟩ := clears
    have stopped := State.commitWords_stops (s := s.unanswered) image set clear unplanned none fires isOpen noPrompt
    exact ⟨_, execGrdConfirm_commits free good op pending early seq digest image, stopped.state, stopped.cause, stopped.kind,
      stopped.blank, stopped.enable, stopped.proposal, stopped.result⟩
  · have ran := execGrdConfirm_eq free good op
    rw [if_pos ended] at ran
    exact ⟨_, ran, rfl⟩
  · have ran := execGrdReject_eq free good op
    rw [if_pos ⟨pending, seq, early⟩] at ran
    exact ⟨_, ran, (State.refuseProposal_refuses (s := s.unanswered) (subcode := 5) none (by decide)).answered⟩
  · have ran := execGrdReject_eq free good op
    rw [if_neg (by rintro ⟨pending, seq, early⟩; obtain h | h | h := ended <;> omega)] at ran
    exact ⟨_, ran, rfl⟩
  · refine ⟨s, ?_, rfl⟩
    obtain rfl | rfl | rfl | rfl := guards
    all_goals exact congrArg Host.Outcome.next (State.onGuard_held held ..)
  · refine ⟨s.badGuardFrame frame, ?_, s.badGuardFrame_counts frame⟩
    obtain rfl | rfl | rfl | rfl := guards
    all_goals exact congrArg Host.Outcome.next (State.onGuard_bad free bad ..)

end Sys2Proof.Machine
end

section
/-! PROOFS. Statements on boundary scan (spec/23_observation.md): a protective reset outlasts the end of a scan. -/
namespace Sys2Proof.Machine

set_option Elab.async false
/-! ### TEST_LOGIC_RESET (R511, R529) -/

/-- The machine at reset, held by boundary scan while the cause of a protective reset has not cleared. -/
def scannedProtected : State :=
  { State.reset with
    host := { State.reset.host with perstLow := false }
    obs := { State.reset.obs with heldInReset := true }
    pwr := { State.reset.pwr with ok := true, step1 := true, protective := true } }

/-- The same machine with the instruction left. -/
def scanLeft : State :=
  { scannedProtected with obs := { scannedProtected.obs with scan := .idcode, dataReg := idcodeWord, heldInReset := false } }

/-- R511: bring-up does not start while a protective reset lasts. -/
theorem State.startBoot_protected {s : State} (lasts : s.pwr.protective = true) : s.startBoot = s := by
  unfold State.startBoot
  exact if_neg (by simp [lasts])

theorem State.coldReset_protective (s : State) : s.coldReset.pwr.protective = s.pwr.protective := by
  rw [State.coldReset, State.puts_pwr]; rfl

theorem exec_testLogicReset_scannedProtected : exec .testLogicReset scannedProtected = .next (scanLeft.setCause 1).coldReset :=
  congrArg Host.Outcome.next ((if_pos rfl).trans
    (State.startBoot_protected (s := (scanLeft.setCause 1).coldReset) (State.coldReset_protective _)))

theorem State.coldReset_step (s : State) : s.coldReset.get Reg.PWR_BRINGUP_STEP = 0 := by
  refine (State.coldReset_get_apart s fun f listed => ?_).trans (by decide +kernel)
  simp only [coldKeeps, List.mem_cons, List.not_mem_nil, or_false] at listed
  obtain rfl | rfl | rfl | rfl | rfl := listed <;> exact .of

/-- Refutes O51: TEST_LOGIC_RESET is stated to start step 2 of bring-up wherever step 1 is done and PERST_N is high. While the
cause of a protective reset has not cleared no bring-up starts (R511), and the step stays 0. -/
theorem not_snapshotsAndBoundaryScan : ¬ Obligations.snapshots_and_boundary_scan := by
  unfold Obligations.snapshots_and_boundary_scan
  intro holds
  obtain ⟨-, -, -, -, -, -, -, -, -, -, leaves, -⟩ := holds scannedProtected
  obtain ⟨t, ran, -, -, -, step, -⟩ := leaves rfl ⟨rfl, rfl, rfl⟩
  obtain rfl := Host.Outcome.next.inj (exec_testLogicReset_scannedProtected.symm.trans ran)
  exact absurd ((State.coldReset_step _).symm.trans step) (by decide)

end Sys2Proof.Machine
end

section
/-! PROOFS. Power domains and the protective reset (spec/22_power_clocks_bringup.md, R497 to R512). -/
namespace Sys2Proof.Machine

set_option Elab.async false
/-! ### Bits of a number -/

theorem bitAt_add_other {v i j : Nat} (clear : bitAt v i = false) (ne : j ≠ i) : bitAt (v + 2 ^ i) j = bitAt v j := by
  rw [bitAt_eq_testBit] at clear
  rw [bitAt_eq_testBit, bitAt_eq_testBit]
  obtain below | above := Nat.lt_or_gt_of_ne ne
  · rw [Nat.add_comm, Nat.testBit_two_pow_add_gt below]
  · have low : v % 2 ^ (i + 1) < 2 ^ i := by
      rw [Nat.testBit_eq_decide_div_mod_eq, decide_eq_false_iff_not] at clear
      rw [Nat.pow_succ, Nat.mod_mul, show v / 2 ^ i % 2 = 0 by omega]
      simpa using Nat.mod_lt v (Nat.two_pow_pos i)
    have same : (v + 2 ^ i) / 2 ^ (i + 1) = v / 2 ^ (i + 1) := by
      rw [Nat.add_div_eq_of_add_mod_lt, Nat.div_eq_of_lt (Nat.pow_lt_pow_right Nat.one_lt_two (Nat.lt_succ_self i)), Nat.add_zero]
      rw [Nat.mod_eq_of_lt (Nat.pow_lt_pow_right Nat.one_lt_two (Nat.lt_succ_self i)), Nat.pow_succ]
      rw [Nat.pow_succ] at low
      omega
    obtain ⟨k, rfl⟩ := Nat.exists_eq_add_of_lt above
    have shift (n : Nat) : n.testBit (i + k + 1) = (n / 2 ^ (i + 1)).testBit k := by
      rw [Nat.testBit_div_two_pow]
      congr 1
      omega
    rw [shift, shift, same]

/-- A bit set or cleared leaves the other bits. -/
theorem bitAt_setBit_other (v : Nat) {i j : Nat} (ne : j ≠ i) (b : Bool) : bitAt (setBit v i b) j = bitAt v j := by
  unfold setBit
  cases set : bitAt v i with
  | false =>
    cases b
    · rfl
    · exact bitAt_add_other set ne
  | true =>
    cases b
    · have cleared := bitAt_setBit v i false
      unfold setBit at cleared
      rw [set] at cleared
      simp only [if_true, Bool.false_eq_true, if_false] at cleared ⊢
      have whole : v - 2 ^ i + 2 ^ i = v := by
        refine Nat.sub_add_cancel ?_
        rw [bitAt_eq_testBit] at set
        exact Nat.ge_two_pow_of_testBit set
      rw [← bitAt_add_other cleared ne, whole]
    · rfl

theorem bitAt_mod (v : Nat) {i w : Nat} (within : i < w) : bitAt (v % 2 ^ w) i = bitAt v i := by
  rw [bitAt_eq_testBit, bitAt_eq_testBit, Nat.testBit_mod_two_pow]
  simp [within]

/-! ### Domains shown up and down (R497, R500) -/

/-- The fields that show which domains are up and which have failed. -/
def domainFields : List Field := [Reg.PWR_DOMAIN_STATUS_ON, Reg.PWR_DOMAIN_STATUS_FAULT]

section Shown
variable (s : State) {d e : Nat} (on fault : Bool)

theorem State.showDomain_regs : RegsBut domainFields s (s.showDomain d on fault) := (RegsBut.put s _ _).trans (.put _ _ _)

theorem State.showDomain_domainOn (domain : d < 16) (other : e < 16) :
    (s.showDomain d on fault).domainOn e = if e = d then on else s.domainOn e := by
  split
  · next here =>
    rw [here]
    exact s.showDomain_on on fault domain
  · next ne =>
    have shown : (s.showDomain d on fault).get Reg.PWR_DOMAIN_STATUS_ON = setBit (s.get Reg.PWR_DOMAIN_STATUS_ON) d on % 2 ^ 16 :=
      (State.get_put_apart _ (f := Reg.PWR_DOMAIN_STATUS_FAULT) _ .of).trans (rfGet_put_same _ _ _ ⟨by decide, by decide⟩)
    rw [State.domainOn, shown, bitAt_mod _ other, bitAt_setBit_other _ ne]
    rfl

theorem State.powerDown_domainOn (domain : d < 16) (other : e < 16) :
    (s.powerDown d).domainOn e = if e = d then false else s.domainOn e := s.showDomain_domainOn _ _ domain other

end Shown

/-- The domains 1 to n, powered down. -/
def State.domainsDown (s : State) (n : Nat) : State := (List.range n).foldl (fun (s : State) d => s.powerDown (d + 1)) s

theorem State.domainsDown_succ (s : State) (n : Nat) : s.domainsDown (n + 1) = (s.domainsDown n).powerDown (n + 1) := by
  rw [State.domainsDown, List.range_succ, List.foldl_append]
  rfl

theorem State.domainsDown_down (s : State) {n d : Nat} (few : n < 16) (least : 1 ≤ d) (most : d ≤ n) :
    (s.domainsDown n).domainOn d = false := by
  induction n with
  | zero => omega
  | succ n ih =>
    rw [State.domainsDown_succ, State.powerDown_domainOn _ few (by omega)]
    split
    · rfl
    · exact ih (by omega) (by omega)

theorem State.domainsDown_regs (s : State) (n : Nat) : RegsBut domainFields s (s.domainsDown n) := by
  induction n with
  | zero => exact .of_regs rfl
  | succ n ih =>
    rw [State.domainsDown_succ]
    exact (ih.trans (State.showDomain_regs _ _ _)).weaken fun _ => by simp

/-- The bits of PWR_CLK_STATUS but for the reference. -/
def pllBits : Field := ⟨0x01400008, 1, 8⟩

/-- The machine with every clock but the always-on oscillator stopped. -/
def State.darkened (s : State) : State := (s.domainsDown 15).put pllBits 0

/-- The machine noted to run on AON alone. -/
def State.onAon (s : State) : State := { s with pwr := { s.pwr with aonOnly := true, requested := 0 } }

theorem State.aonAlone_eq (s : State) : s.aonAlone = s.darkened.onAon := rfl

theorem State.onAon_get (s : State) (g : Field) : s.onAon.get g = s.get g := rfl

theorem State.aonAlone_get (s : State) (g : Field) : s.aonAlone.get g = s.darkened.get g := by
  rw [State.aonAlone_eq, State.onAon_get]

theorem State.darkened_regs (s : State) : RegsBut (domainFields ++ [pllBits]) s s.darkened :=
  (s.domainsDown_regs 15).trans (RegsBut.put _ _ _)

theorem State.aonAlone_domainOn (s : State) {d : Nat} (least : 1 ≤ d) (most : d ≤ 15) : s.aonAlone.domainOn d = false := by
  rw [State.domainOn, State.aonAlone_get, State.darkened, State.get_put_apart _ _ .of]
  exact s.domainsDown_down (by decide) least most

theorem State.aonAlone_regs (s : State) : RegsBut (domainFields ++ [pllBits]) s s.aonAlone := fun g quiet apart =>
  (s.aonAlone_get g).trans (s.darkened_regs g quiet apart)

theorem State.aonAlone_pwr (s : State) : s.aonAlone.pwr = { s.pwr with aonOnly := true, requested := 0 } := by
  rw [State.aonAlone_eq]
  have kept : Kept [.regs] s s.darkened :=
    .of (State.put_kept ..) (.fold (fun _ _ kept => .of (State.powerDown_kept _ _) kept) .refl)
  rw [State.onAon, kept.pwr]

theorem pllBit_quiet {k : Nat} (few : k < 32) : Field.Quiet ⟨0x01400008, k, 1⟩ := by
  refine ⟨⟨show 0x01400008 % 4 = 0 by decide, show k + 1 ≤ 64 by omega⟩, ?_⟩
  simp only [Field.base]
  omega

/-- R503: no PLL is locked then. -/
theorem State.aonAlone_pll (s : State) {k : Nat} (pll : 1 ≤ k ∧ k ≤ 8) : s.aonAlone.get ⟨0x01400008, k, 1⟩ = 0 := by
  obtain ⟨i, rfl⟩ := Nat.exists_eq_add_of_le pll.1
  have zero : s.aonAlone.get pllBits = 0 :=
    (s.aonAlone_get _).trans (State.get_put_same _ pllBits 0 ⟨by decide, by decide⟩ (show 0 < 2 ^ 8 by decide))
  have lt : s.aonAlone.get ⟨0x01400008, 1 + i, 1⟩ < 2 := s.aonAlone.get_lt _ (pllBit_quiet (by omega)).1
  have bit := (rfGet_bit s.aonAlone.regs (off := 0x01400008) (lo := 1) (w := 8) (i := i) ⟨by decide, by decide⟩ (by omega)).1
  have not1 : s.aonAlone.get ⟨0x01400008, 1 + i, 1⟩ ≠ 1 := fun one => by
    have := bit one
    rw [show rfGet s.aonAlone.regs ⟨0x01400008, 1, 8⟩ = 0 from zero, Nat.zero_testBit] at this
    cases this
  omega

/-! ### The protective reset (R504, R511, R512) -/

/-- The fields that a protective reset changes, but for its cause. -/
def protectFields : List Field := domainFields ++ [pllBits, Reg.HLK_STATUS_BLANK, Reg.TID_PRF_STATUS_STATE]

/-- From s to t a protective reset has acted on the units; what it records stands. -/
structure Protects (s t : State) : Prop where
  protective : t.pwr.protective = s.pwr.protective
  later : t.pwr.later = s.pwr.later
  thermal : t.pwr.thermal = s.pwr.thermal
  regs : RegsBut protectFields s t
  pll : ∀ k, 1 ≤ k ∧ k ≤ 8 → s.get ⟨0x01400008, k, 1⟩ = 0 → t.get ⟨0x01400008, k, 1⟩ = 0

theorem Protects.refl {s : State} : Protects s s := ⟨rfl, rfl, rfl, .of_regs rfl, fun _ _ => id⟩

theorem Protects.trans {s t u : State} (first : Protects s t) (next : Protects t u) : Protects s u :=
  ⟨next.protective.trans first.protective, next.later.trans first.later, next.thermal.trans first.thermal,
    (first.regs.trans next.regs).weaken fun _ => by simp, fun k bit zero => next.pll k bit (first.pll k bit zero)⟩

theorem State.aonAlone_protects (s : State) : Protects s s.aonAlone := by
  have pwr := s.aonAlone_pwr
  refine ⟨by rw [pwr], by rw [pwr], by rw [pwr],
    s.aonAlone_regs.weaken fun _ listed => ?_, fun k bit _ => s.aonAlone_pll bit⟩
  simp only [protectFields, List.mem_append, List.mem_cons, List.not_mem_nil, or_false] at listed ⊢
  tauto

theorem State.reblank_protects (s : State) : Protects s s.reblank :=
  ⟨rfl, rfl, rfl, (RegsBut.reblank s).weaken fun _ => by simp +contextual [protectFields], fun k bit zero =>
    (State.get_put_apart _ _ (.ofNumbers (by omega))).trans zero⟩

/-- R511: the stage stops within two seconds. -/
def State.stopsStage (s : State) : State :=
  ({ s with pwr := { s.pwr with stopBy := s.tide + 800000000, warm := none } }).haltStage

theorem State.stopProfile_regs (s : State) : RegsBut [Reg.TID_PRF_STATUS_STATE] s s.stopProfile := by
  unfold State.stopProfile
  extract_lets q
  split
  · exact RegsBut.put s _ _
  · exact .of_regs rfl

theorem State.stopsStage_protects (s : State) : Protects s s.stopsStage := by
  have pwr : s.stopsStage.pwr = { s.pwr with stopBy := s.tide + 800000000, warm := none } := (State.haltStage_kept _).pwr
  have regs : RegsBut [Reg.TID_PRF_STATUS_STATE] s s.stopsStage := State.stopProfile_regs _
  exact ⟨by rw [pwr], by rw [pwr], by rw [pwr],
    regs.weaken fun _ => by simp +contextual [protectFields], fun k bit zero =>
      (regs _ (pllBit_quiet (by omega)) (by simpa using .ofNumbers (by omega))).trans zero⟩

/-- R515: the cause of a reset, recorded where it has a bit. -/
def State.caused (s : State) (bit : Option Nat) : State :=
  match bit with
  | some b => s.setCause b
  | none => s

/-- R511: a protective reset noted, with the event that follows the next bring-up. -/
def State.protectNoted (s : State) (bit : Option Nat) (code : Nat) (payload : List (Nat × Nat)) : State :=
  { s.caused bit with pwr := { (s.caused bit).pwr with
    protective := true, thermal := (s.caused bit).pwr.thermal || decide (bit = some 5)
    later := (s.caused bit).pwr.later ++ [(code, payload)] } }

section Protect
variable (s : State) (bit : Option Nat) (code : Nat) (payload : List (Nat × Nat)) (tideRuns : Bool)

theorem State.caused_pwr : (s.caused bit).pwr = s.pwr := by
  cases bit <;> rfl

theorem State.protectNoted_pwr : (s.protectNoted bit code payload).pwr =
    { s.pwr with protective := true, thermal := s.pwr.thermal || decide (bit = some 5), later := s.pwr.later ++ [(code, payload)] } := by
  rw [State.protectNoted, State.caused_pwr]

theorem State.protectNoted_get (g : Field) : (s.protectNoted bit code payload).get g = (s.caused bit).get g := rfl

theorem State.protectNoted_regs : RegsBut [causeBits] s (s.protectNoted bit code payload) := fun g quiet apart => by
  rw [State.protectNoted_get]
  cases bit with
  | none => rfl
  | some b => exact RegsBut.put s _ _ g quiet apart

/-- R515: the bit of the cause reads 1. -/
theorem State.protectNoted_cause {b : Nat} (few : b < 8) : (s.protectNoted (some b) code payload).get ⟨0x01400010, b, 1⟩ = 1 := by
  rw [State.protectNoted_get]
  have bits := (rfGet_bit (s.setCause b).regs (off := 0x01400010) (lo := 0) (w := 8) (i := b) ⟨by decide, by decide⟩ few).2
  rw [Nat.zero_add] at bits
  refine bits ?_
  have set := s.bitAt_get_put (f := causeBits) ⟨by decide, by decide⟩ (s.get causeBits) few true
  rw [bitAt_eq_testBit] at set
  exact set

theorem State.protect_eq : s.protect bit code payload tideRuns =
    let u := s.protectNoted bit code payload
    if u.pwr.aonOnly then u
    else if ¬ ((tideRuns && u.domainOn 15) = true) then u.reblank.aonAlone
    else if !(s.caused bit).pwr.protective then
      if (u.stopsStage.reblank).get Reg.TID_PRF_STATUS_STATE = 0 then u.stopsStage.reblank.aonAlone else u.stopsStage.reblank
    else u := rfl

/-- R511: what a protective reset leaves, whatever still runs. -/
theorem State.protect_protects : Protects (s.protectNoted bit code payload) (s.protect bit code payload tideRuns) := by
  have stops := ((s.protectNoted bit code payload).stopsStage_protects).trans (State.reblank_protects _)
  rw [State.protect_eq]
  extract_lets u
  split
  · exact .refl
  · split
    · exact (State.reblank_protects u).trans (State.aonAlone_protects _)
    · split
      · split
        · exact stops.trans (State.aonAlone_protects _)
        · exact stops
      · exact .refl

/-- R511: where no clock runs, all but AON goes down. -/
theorem State.protect_dark (lit : s.pwr.aonOnly = false) :
    s.protect bit code payload false = (s.protectNoted bit code payload).reblank.aonAlone := by
  rw [State.protect_eq]
  refine (if_neg ?_).trans (if_pos (by simp))
  rw [State.protectNoted_pwr]
  simp [lit]

theorem State.reblank_ofProtective {m : State} (protective : m.pwr.protective = true) : m.reblank.get Reg.HLK_STATUS_BLANK = 1 := by
  have blanked : m.blanked = true := by simp [State.blanked, State.resetting, protective]
  rw [State.reblank, blanked]
  exact m.get_put_same _ 1 .ofNumbers (show 1 < 2 ^ 1 by decide)

theorem State.aonAlone_blank (m : State) : m.aonAlone.get Reg.HLK_STATUS_BLANK = m.get Reg.HLK_STATUS_BLANK :=
  m.aonAlone_regs _ .ofNumbers (by
    intro f listed
    simp only [domainFields, List.mem_append, List.mem_cons, List.not_mem_nil, or_false] at listed
    obtain (rfl | rfl) | rfl := listed <;> exact .of)

/-- R511: the head is blanked by the first of them. -/
theorem State.protect_blank (lit : s.pwr.aonOnly = false) :
    (s.protect bit code payload tideRuns).exposing = false ∨ s.pwr.protective = true := by
  have noted := s.protectNoted_pwr bit code payload
  have protective : (s.protectNoted bit code payload).pwr.protective = true := by rw [noted]
  have stopped : (s.protectNoted bit code payload).stopsStage.pwr.protective = true :=
    ((s.protectNoted bit code payload).stopsStage_protects).protective.trans protective
  rw [State.protect_eq]
  extract_lets u
  rw [if_neg (by rw [noted]; simp [lit])]
  split
  · exact .inl (State.exposing_of_blank ((State.aonAlone_blank _).trans (State.reblank_ofProtective protective)))
  · split
    · split
      · exact .inl (State.exposing_of_blank ((State.aonAlone_blank _).trans (State.reblank_ofProtective stopped)))
      · exact .inl (State.exposing_of_blank (State.reblank_ofProtective stopped))
    · next again =>
      rw [State.caused_pwr] at again
      exact .inr (by simpa using again)

end Protect

end Sys2Proof.Machine
end

section
/-! PROOFS. The temperature of the die, and domains coming up and failing (spec/22_power_clocks_bringup.md, R497 to R512). -/
namespace Sys2Proof.Machine

set_option Elab.async false
/-! ### Readings of the die (R512) -/

theorem sext_toNat {n : Nat} (pos : 0 < n) (x : BitVec n) : sext n x.toNat = x.toInt := by
  have half : 2 ^ n = 2 * 2 ^ (n - 1) := by
    rw [← Nat.pow_succ', Nat.succ_eq_add_one, Nat.sub_add_cancel pos]
  rw [sext, Nat.mod_eq_of_lt x.isLt, BitVec.toInt]
  split
  · rw [if_pos (by omega)]
  · rw [if_neg (by omega)]
    simp

/-- R512: the machine with a reading shown. -/
def State.measured (s : State) (temp : BitVec 16) : State :=
  s.puts [(Reg.PWR_DIE_TEMP_TEMP, temp.toNat), (Reg.PWR_DIE_TEMP_PEAK, wrapInt 16 (max temp.toInt (s.getS Reg.PWR_DIE_TEMP_PEAK)))]

theorem State.noteTemp_get (s : State) (hot warned : Bool) (g : Field) : (s.noteTemp hot warned).get g = s.get g := rfl

section Measured
variable (s : State) (temp : BitVec 16)

theorem State.measured_temp : (s.measured temp).get Reg.PWR_DIE_TEMP_TEMP = temp.toNat :=
  (State.get_put_apart _ (f := Reg.PWR_DIE_TEMP_PEAK) _ .of).trans (State.get_put_same _ Reg.PWR_DIE_TEMP_TEMP _ ⟨by decide, by decide⟩ temp.isLt)

theorem State.measured_peak : (s.measured temp).getS Reg.PWR_DIE_TEMP_PEAK = max temp.toInt (s.getS Reg.PWR_DIE_TEMP_PEAK) := by
  have shown : (s.measured temp).get Reg.PWR_DIE_TEMP_PEAK = wrapInt 16 (max temp.toInt (s.getS Reg.PWR_DIE_TEMP_PEAK)) :=
    State.get_put_same _ Reg.PWR_DIE_TEMP_PEAK _ ⟨by decide, by decide⟩ (wrapInt_lt 16 _)
  rw [State.getS, shown]
  obtain most | most := max_choice temp.toInt (s.getS Reg.PWR_DIE_TEMP_PEAK)
  · rw [most, ← sext_toNat (by decide) temp]
    exact congrArg (sext 16) (wrapInt_sext temp.isLt)
  · rw [most]
    exact congrArg (sext 16) (wrapInt_sext (s.get_lt Reg.PWR_DIE_TEMP_PEAK ⟨by decide, by decide⟩))

theorem State.measured_regs : RegsBut [Reg.PWR_DIE_TEMP_TEMP, Reg.PWR_DIE_TEMP_PEAK] s (s.measured temp) :=
  (RegsBut.put s _ _).trans (.put _ _ _)

theorem State.measured_getS {f : Field} (quiet : f.Quiet) (apart : ∀ g ∈ [Reg.PWR_DIE_TEMP_TEMP, Reg.PWR_DIE_TEMP_PEAK], g.Apart f) :
    (s.measured temp).getS f = s.getS f := State.getS_congr (s.measured_regs temp f quiet apart)

/-- R512: a reading at or above TRIP, or at or above WARN, noted for the next. -/
def State.judged : State :=
  (s.measured temp).noteTemp (decide (s.getS Reg.PWR_TEMP_WARN_TRIP ≤ temp.toInt))
    (if s.getS Reg.PWR_TEMP_WARN_WARN ≤ temp.toInt then true
     else if temp.toInt ≤ s.getS Reg.PWR_TEMP_WARN_WARN - 32 then false else s.pwr.warned)

theorem State.judged_get (g : Field) : (s.judged temp).get g = (s.measured temp).get g := State.noteTemp_get ..

theorem State.judged_regs : RegsBut [Reg.PWR_DIE_TEMP_TEMP, Reg.PWR_DIE_TEMP_PEAK] s (s.judged temp) := fun g quiet apart =>
  (s.judged_get temp g).trans (s.measured_regs temp g quiet apart)

theorem State.judged_pwr : (s.judged temp).pwr = { s.pwr with
    hot := decide (s.getS Reg.PWR_TEMP_WARN_TRIP ≤ temp.toInt)
    warned := if s.getS Reg.PWR_TEMP_WARN_WARN ≤ temp.toInt then true
      else if temp.toInt ≤ s.getS Reg.PWR_TEMP_WARN_WARN - 32 then false else s.pwr.warned } := by
  have pwr : (s.measured temp).pwr = s.pwr := State.puts_pwr ..
  rw [State.judged, State.noteTemp, pwr]

/-- R512: a reading newly at or above WARN is told and counted. -/
def State.warned : State :=
  if s.getS Reg.PWR_TEMP_WARN_WARN ≤ temp.toInt ∧ ¬ s.pwr.warned = true then
    ((s.judged temp).raise 0x1308 [(2, temp.toNat)]).count (cntPwr 6)
  else s.judged temp

/-- What a warning leaves. -/
structure Warns (s t : State) : Prop where
  kept : Kept reports s t
  regs : RegsBut [⟨cntPwr 6, 0, 64⟩] s t

theorem State.warned_warns : Warns (s.judged temp) (s.warned temp) := by
  unfold State.warned
  split
  · exact ⟨.of (State.count_kept ..) (.of (State.raise_kept ..) .refl),
      ((raise_noted (s.judged temp) 0x1308 _).regsBut.trans ((count_counted _ (cntPwr 6)).reported .of).regs).weaken fun _ => id⟩
  · exact ⟨.refl, .of_regs rfl⟩

theorem State.warned_get {g : Field} (quiet : g.Quiet) (off : Field.Apart ⟨cntPwr 6, 0, 64⟩ g) :
    (s.warned temp).get g = (s.measured temp).get g :=
  ((s.warned_warns temp).regs g quiet (by simpa using off)).trans (s.judged_get temp g)

theorem execDieTempRead_eq : exec (.dieTempRead temp) s = .next
    (if (decide (s.getS Reg.PWR_TEMP_WARN_TRIP ≤ temp.toInt) && s.pwr.hot) = true ∧ ¬ (s.warned temp).pwr.thermal = true then
      (s.warned temp).protect (some 5) 0x1309 [(2, wrapInt 16 (max temp.toInt (s.getS Reg.PWR_DIE_TEMP_PEAK)))] true
    else s.warned temp) := by
  have warn : (s.measured temp).getS Reg.PWR_TEMP_WARN_WARN = s.getS Reg.PWR_TEMP_WARN_WARN := s.measured_getS temp .of (by
    simp only [List.mem_cons, List.not_mem_nil, or_false, forall_eq_or_imp, forall_eq]
    exact ⟨.of, .of⟩)
  have trip : (s.measured temp).getS Reg.PWR_TEMP_WARN_TRIP = s.getS Reg.PWR_TEMP_WARN_TRIP := s.measured_getS temp .of (by
    simp only [List.mem_cons, List.not_mem_nil, or_false, forall_eq_or_imp, forall_eq]
    exact ⟨.of, .of⟩)
  have pwr : (s.measured temp).pwr = s.pwr := State.puts_pwr ..
  unfold State.warned State.judged
  rw [← warn, ← trip, ← pwr]
  show execDieTempRead temp s = _
  unfold execDieTempRead State.measured
  rfl

end Measured

/-! ### What leaves the registers of power and bring-up -/

/-- A field of the power registers that is no counter. -/
structure Field.OfPower (g : Field) : Prop where
  sound : g.Sound
  low : 8 * 0x01400000 ≤ g.base
  high : g.base + g.width ≤ 8 * 0x01400100

theorem Field.OfPower.quiet {g : Field} (power : g.OfPower) : g.Quiet := by
  obtain ⟨sound, low, high⟩ := power
  exact ⟨sound, by omega⟩

theorem Field.OfPower.offPwr {g : Field} (power : g.OfPower) (i : Nat) : g.Off (cntPwr i) := by
  obtain ⟨sound, low, high⟩ := power
  refine ⟨?_, sound, ?_⟩ <;>
    · unfold cntPwr
      omega

theorem Field.OfPower.offBelow {g : Field} (power : g.OfPower) {off : Nat} (below : off % 4 = 0 ∧ off + 8 ≤ 0x01400000) : g.Off off := by
  obtain ⟨sound, low, high⟩ := power
  exact ⟨below.1, sound, by omega⟩

theorem domainFields_ofPower : ∀ g ∈ domainFields, g.OfPower := by
  intro g listed
  simp only [domainFields, List.mem_cons, List.not_mem_nil, or_false] at listed
  obtain rfl | rfl := listed
  · exact ⟨⟨by decide, by decide⟩, by decide, by decide⟩
  · exact ⟨⟨by decide, by decide⟩, by decide, by decide⟩

section Below
variable (s : State)

theorem State.putBelow_spares {off lo w : Nat} (x : Nat) (h : off % 4 = 0 ∧ lo + w ≤ 64 ∧ 8 * off + lo + w ≤ 8 * 0x01400000 := by omega) :
    Spares Field.OfPower s (s.put ⟨off, lo, w⟩ x) := s.put_spares x fun g power => by
  obtain ⟨sound, low, high⟩ := power
  exact ⟨⟨h.1, h.2.1⟩, sound, .inl (by simp only [Field.base] at low ⊢; omega)⟩

theorem State.raise_sparesPower (code : Nat) (payload : List (Nat × Nat)) : Spares Field.OfPower s (s.raise code payload) :=
  (raise_noted s code payload).spares fun _ => Field.OfPower.quiet

theorem State.countPwr_spares (i : Nat) : Spares Field.OfPower s (s.count (cntPwr i)) :=
  ⟨fun _ power => s.count_get _ power.quiet (power.offPwr i)⟩

theorem Spares.fold {P : Field → Prop} {α : Type} {f : State → α → State} {l : List α} {s t : State}
    (step : ∀ x a, a ∈ l → Spares P x (f x a)) (before : Spares P s t) : Spares P s (l.foldl f t) := by
  induction l generalizing t with
  | nil => exact before
  | cons a l ih => exact ih (fun x b listed => step x b (List.mem_cons_of_mem _ listed)) (.of (step t a List.mem_cons_self) before)

theorem State.showVats_spares : Spares Field.OfPower s s.showVats :=
  .of (State.putBelow_spares _ _) (.of (State.putBelow_spares _ _) (.fold (fun x v listed => by
    have few := List.mem_range.1 listed
    exact x.putBelow_spares _) .refl))

theorem State.showJobs_spares : Spares Field.OfPower s s.showJobs :=
  .fold (fun x v listed => by
    have few := List.mem_range.1 listed
    exact .of (State.putBelow_spares _ _) (x.putBelow_spares _)) (s.putBelow_spares _)

theorem State.restartTraining_spares : Spares Field.OfPower s s.restartTraining :=
  .of (State.putBelow_spares _ _) (.of (State.putBelow_spares _ _) (.of (State.putBelow_spares _ _)
    (.of (State.putBelow_spares _ _) (.fold (fun x ch listed => by
      have few := List.mem_range.1 listed
      exact .of (State.putBelow_spares _ _) (.of (State.putBelow_spares _ _) (.of (State.putBelow_spares _ _)
        (.of (State.putBelow_spares _ _) (.upd .refl))))) .refl))))

theorem State.startTraining_spares : Spares Field.OfPower s s.startTraining := by
  unfold State.startTraining
  extract_lets ranks density grain cleared owed
  refine .of (State.restartTraining_spares _) (.of (State.putBelow_spares _ _) (.of (State.putBelow_spares _ _)
    (.of (State.putBelow_spares _ _) (.of (State.putBelow_spares _ _) (.of (State.putBelow_spares _ _) ?_)))))
  refine .fold (fun x ch listed => ?_) (.upd .refl)
  have few := List.mem_range.1 listed
  exact .of (State.modMemCh_kept ..).spares (x.putBelow_spares _)

theorem State.setCouch_spares {n : Nat} (couch : n < 2) (role : Nat) : Spares Field.OfPower s (s.setCouch n role) :=
  .of (State.putBelow_spares _ _) (.of (State.putBelow_spares _ _) (s.putBelow_spares _))

end Below

/-! ### A domain comes up (R497, R498) -/

/-- A domain shows as up or down, and with its fault or without; it is no longer asked for. -/
structure ShowsDomain (on fault : Bool) (d : Nat) (t : State) : Prop where
  on : t.domainOn d = on
  fault : bitAt (t.get Reg.PWR_DOMAIN_STATUS_FAULT) d = fault
  requested : bitAt t.pwr.requested d = false

theorem ShowsDomain.of {on fault : Bool} {d : Nat} {t u : State} (risen : ShowsDomain on fault d t)
    (shown : Spares (· ∈ domainFields) t u) (requested : u.pwr.requested = t.pwr.requested) : ShowsDomain on fault d u where
  on := (congrArg (bitAt · d) (shown.get Reg.PWR_DOMAIN_STATUS_ON (by simp [domainFields]))).trans risen.on
  fault := (congrArg (bitAt · d) (shown.get Reg.PWR_DOMAIN_STATUS_FAULT (by simp [domainFields]))).trans risen.fault
  requested := (congrArg (bitAt · d) requested).trans risen.requested

theorem Spares.domains {s t : State} (spares : Spares Field.OfPower s t) : Spares (· ∈ domainFields) s t :=
  spares.mono domainFields_ofPower

theorem State.powerUp_domain (s : State) {d : Nat} (domain : d < 16) :
    bitAt ((s.powerUp d).get Reg.PWR_DOMAIN_STATUS_ON) d = true ∧
      bitAt ((s.powerUp d).get Reg.PWR_DOMAIN_STATUS_FAULT) d = false := by
  unfold State.powerUp
  split
  · exact ⟨State.showDomain_on _ _ _ domain, State.showDomain_fault _ _ _ domain⟩
  · exact ⟨State.showDomain_on _ _ _ domain, State.showDomain_fault _ _ _ domain⟩

theorem State.endRequest_requested (s : State) (d : Nat) : bitAt (s.endRequest d).pwr.requested d = false := bitAt_setBit ..

theorem State.powerUp_risen (s : State) {d : Nat} (domain : d < 16) : ShowsDomain true false d ((s.endRequest d).powerUp d) where
  on := (State.powerUp_domain _ domain).1
  fault := (State.powerUp_domain _ domain).2
  requested := (congrArg (fun p => bitAt (PwrState.requested p) d) (State.powerUp_kept _ d).pwr).trans (s.endRequest_requested d)

/-- R510: a couch's domain comes up anew. -/
theorem State.restartCouch_risen (s : State) {n : Nat} (couch : n < 2) : ShowsDomain true false (8 + n) ((s.endRequest (8 + n)).restartCouch n) := by
  have risen (m : State) := State.powerUp_domain (m.powerDown (8 + n)) (d := 8 + n) (by omega)
  unfold State.restartCouch
  extract_lets role cause
  refine ShowsDomain.of (t := ((s.endRequest (8 + n)).powerDown (8 + n)).powerUp (8 + n)) ⟨(risen _).1, (risen _).2, ?_⟩ ?_ ?_
  · exact (congrArg (fun p => bitAt (PwrState.requested p) (8 + n)) ((State.powerUp_kept _ _).pwr.trans (State.powerDown_kept ..).pwr)).trans
      (s.endRequest_requested _)
  · exact (Spares.of (State.setCouch_spares _ couch _) (State.putBelow_spares _ _)).domains
  · exact congrArg PwrState.requested ((State.setCouch_kept ..).pwr.trans (State.put_kept ..).pwr)

theorem State.lockPlls_spares (s : State) (d : Nat) : Spares (· ∈ domainFields) s (s.lockPlls d) := by
  have clock (m : State) {k : Nat} (few : k < 32) (x : Nat) : Spares (· ∈ domainFields) m (m.put ⟨0x01400008, k, 1⟩ x) :=
    m.put_spares x fun g listed => by
      simp only [domainFields, List.mem_cons, List.not_mem_nil, or_false] at listed
      obtain rfl | rfl := listed <;> exact .ofNumbers
  unfold State.lockPlls
  split
  · exact clock _ (by decide) 1
  · exact clock _ (by decide) 1
  · exact clock _ (by decide) 1
  · exact .of (clock _ (by decide) 1) (clock _ (by decide) 1)
  · exact .of (clock _ (by decide) 1) (.upd .refl)
  · exact .refl

/-- R499: a quad noted as not idle since now. -/
def State.quadBusy (s : State) (q now : Nat) : State := { s with pwr := { s.pwr with busyAt := listSet s.pwr.busyAt q now } }

/-- R497: a domain's registers as its power-up leaves them, and its PLLs locked. -/
def State.domainReset (s : State) (d : Nat) : State :=
  let t := if d = 8 ∨ d = 9 then (s.endRequest d).restartCouch (d - 8) else (s.endRequest d).powerUp d
  if !s.domainOn d then t.lockPlls d else t

/-- R399: DRAM trains once both its domains are up. -/
def State.domainTrains (s t : State) (d : Nat) : State :=
  if (!s.domainOn d) ∧ (d = 12 ∨ d = 13) ∧ t.domainOn 12 ∧ t.domainOn 13 then t.startTraining else t

theorem State.domainUp_eq (s : State) (d : Nat) : s.domainUp d =
    let t := s.domainTrains (s.domainReset d) d
    if 2 ≤ d ∧ d ≤ 5 then
      ((if s.quadWakes d then (t.quadBusy (d - 2) s.aon).count (cntPwr 0) else t.quadBusy (d - 2) s.aon).showVats).showJobs
    else t := rfl

theorem State.domainReset_risen (s : State) {d : Nat} (domain : d < 16) : ShowsDomain true false d (s.domainReset d) := by
  unfold State.domainReset
  extract_lets t
  have risen : ShowsDomain true false d t := by
    unfold t
    split
    · next couch =>
      obtain ⟨n, rfl⟩ := Nat.exists_eq_add_of_le (show 8 ≤ d by omega)
      rw [Nat.add_sub_cancel_left]
      exact s.restartCouch_risen (by omega)
    · exact s.powerUp_risen domain
  split
  · exact risen.of (State.lockPlls_spares _ _) (congrArg PwrState.requested (State.lockPlls_kept ..).pwr)
  · exact risen

theorem State.domainUp_risen (s : State) {d : Nat} (domain : d < 16) : ShowsDomain true false d (s.domainUp d) := by
  have reset := s.domainReset_risen domain
  have trained : ShowsDomain true false d (s.domainTrains (s.domainReset d) d) := by
    unfold State.domainTrains
    split
    · exact reset.of (State.startTraining_spares _).domains (congrArg PwrState.requested (State.startTraining_kept _).pwr)
    · exact reset
  rw [State.domainUp_eq]
  extract_lets t
  have busy : ShowsDomain true false d (t.quadBusy (d - 2) s.aon) := trained.of (.upd .refl) rfl
  split
  · have counted : ShowsDomain true false d (if s.quadWakes d then (t.quadBusy (d - 2) s.aon).count (cntPwr 0) else t.quadBusy (d - 2) s.aon) := by
      split
      · exact busy.of (State.countPwr_spares _ 0).domains (congrArg PwrState.requested (State.count_pwr ..))
      · exact busy
    exact counted.of (Spares.of (State.showJobs_spares _) (State.showVats_spares _)).domains
      (congrArg PwrState.requested ((State.showJobs_kept _).pwr.trans (State.showVats_kept _).pwr))
  · exact trained

end Sys2Proof.Machine
end

section
/-! PROOFS. Domains that fail, quads in neap, and the statement on the protective reset (spec/22_power_clocks_bringup.md, R497 to R512). -/
namespace Sys2Proof.Machine

set_option Elab.async false
/-! ### A domain fails (R500) -/

/-- The machine with the power-up of a domain ended in a failure. -/
def State.domainFailed (s : State) (d : Nat) : State := (s.endRequest d).powerFault d

theorem State.powerFault_domain (s : State) {d : Nat} (domain : d < 16) :
    bitAt ((s.powerFault d).get Reg.PWR_DOMAIN_STATUS_ON) d = false ∧
      bitAt ((s.powerFault d).get Reg.PWR_DOMAIN_STATUS_FAULT) d = true :=
  ⟨State.showDomain_on _ _ _ domain, State.showDomain_fault _ _ _ domain⟩

theorem State.domainFailed_shows (s : State) {d : Nat} (domain : d < 16) : ShowsDomain false true d (s.domainFailed d) where
  on := (State.powerFault_domain _ domain).1
  fault := (State.powerFault_domain _ domain).2
  requested := (congrArg (fun p => bitAt (PwrState.requested p) d) (State.powerFault_kept ..).pwr).trans (s.endRequest_requested d)

theorem State.domainFails_quad (s : State) {d : Nat} (quad : 2 ≤ d ∧ d ≤ 5) : s.domainFails d =
    ((((s.domainFailed d).showVats).showJobs).raise 0x1305 [(4, d)]).poolEvents 0xFF (s.vatsOf 0).length (s.vatsOf 1).length :=
  if_pos quad

theorem State.domainFails_link (s : State) {d : Nat} (link : d = 10 ∨ d = 11) : s.domainFails d =
    (((List.range 64).map (fun i => 64 * (d - 10) + i)).foldl (fun (s : State) n => s.chainTo n 0) (s.domainFailed d)).raise 0x1305
      [(4, d)] := by
  unfold State.domainFails
  rw [if_neg (by omega), if_neg (by omega), if_pos link]
  rfl

theorem State.domainFails_needed (s : State) {d : Nat} (needed : d < 2 ∨ d = 6 ∨ d = 7 ∨ 12 ≤ d) :
    s.domainFails d = (s.domainFailed d).protect none 0x1305 [(4, d)] true := by
  unfold State.domainFails
  rw [if_neg (by omega), if_neg (by omega), if_neg (by omega)]
  rfl

theorem State.poolEvents_spares (s : State) (slot before spares : Nat) : Spares Field.OfPower s (s.poolEvents slot before spares) := by
  unfold State.poolEvents
  extract_lets a min told
  have tells : Spares Field.OfPower s told := .ite (s.raise_sparesPower _ _) .refl
  exact .ite (.of (State.raise_sparesPower ..) tells) tells

theorem State.domainFails_quadShows (s : State) {d : Nat} (quad : 2 ≤ d ∧ d ≤ 5) : ShowsDomain false true d (s.domainFails d) := by
  rw [s.domainFails_quad quad]
  refine (s.domainFailed_shows (by omega)).of (Spares.of (State.poolEvents_spares ..) (.of (State.raise_sparesPower ..)
    (.of (State.showJobs_spares _) (State.showVats_spares _)))).domains ?_
  have kept : Kept reports (s.domainFailed d) _ := .of (State.poolEvents_kept _ 0xFF (s.vatsOf 0).length (s.vatsOf 1).length)
    (.of (State.raise_kept _ 0x1305 [(4, d)]) (.of (State.showJobs_kept _) (.of (State.showVats_kept _) .refl)))
  exact congrArg PwrState.requested kept.pwr

/-! ### Chains that go down with their domain (R500) -/

/-- A field that neither the lanes nor the link's status hold. -/
structure Field.OffLink (g : Field) : Prop where
  quiet : g.Quiet
  range : (8 * 0x00801000 ≤ g.base ∧ g.base + g.width ≤ 8 * 0x00900000) ∨ 8 * 0x00A00000 ≤ g.base

theorem Field.OfPower.offLink {g : Field} (power : g.OfPower) : g.OffLink :=
  ⟨power.quiet, .inr (by have := power.low; omega)⟩

theorem chainState_offLink {n : Nat} (chain : n < 128) : (Reg.HLK_CHAIN_STATE_STATE n).OffLink :=
  ⟨.ofNumbers, .inl (by simp only [Field.base]; omega)⟩

section Link
variable (s : State)

theorem State.putLink_spares {off lo w : Nat} (x : Nat) (h : off % 4 = 0 ∧ lo + w ≤ 64 ∧ (8 * off + lo + w ≤ 8 * 0x00801000 ∨
    0x00900000 ≤ off ∧ 8 * off + lo + w ≤ 8 * 0x00A00000) := by omega) : Spares Field.OffLink s (s.put ⟨off, lo, w⟩ x) :=
  s.put_spares x fun g outside => by
    obtain ⟨⟨sound, -⟩, range⟩ := outside
    exact ⟨⟨h.1, h.2.1⟩, sound, by simp only [Field.base] at range ⊢; omega⟩

theorem State.inputIdle_spares {l : Nat} (lane : l < 268) : Spares Field.OffLink s (s.inputIdle l) := by
  have counts : Spares Field.OffLink s (s.count (cntLns l 0)) := ⟨fun g outside => by
    obtain ⟨quiet, range⟩ := outside
    refine s.count_get _ quiet ⟨?_, quiet.1, ?_⟩
    · unfold cntLns
      omega
    · unfold cntLns
      omega⟩
  exact .of (State.putLink_spares _ _) (.of (State.putLink_spares _ _) (.ite counts .refl))

theorem State.showChains_spares : Spares Field.OffLink s s.showChains :=
  .of (State.putLink_spares _ _) (.of (State.putLink_spares _ _) (s.putLink_spares _))

/-- R500: what a chain's own state does not show. -/
theorem State.chainTo_leaves {n : Nat} (chain : n < 128) (q : Nat) :
    Spares Field.OffLink (s.put (Reg.HLK_CHAIN_STATE_STATE n) q) (s.chainTo n q) := by
  unfold State.chainTo
  extract_lets old now train entered left dropped idle
  have enters : Spares Field.OffLink (s.put (Reg.HLK_CHAIN_STATE_STATE n) q) entered := (State.modChain_kept _ _ _).spares
  have leaves : Spares Field.OffLink (s.put (Reg.HLK_CHAIN_STATE_STATE n) q) left :=
    .ite (.of (State.leaveReady_kept _ _).spares enters) enters
  have drops : Spares Field.OffLink (s.put (Reg.HLK_CHAIN_STATE_STATE n) q) dropped :=
    .ite (.of (State.dropCtrl_kept _ _).spares leaves) leaves
  exact .of (State.showChains_spares _) (.ite (.of (State.inputIdle_spares _ (by omega)) drops) drops)

theorem State.chainTo_state {n : Nat} (chain : n < 128) {q : Nat} (four : q < 16) : (s.chainTo n q).chainState n = q :=
  ((s.chainTo_leaves chain q).get _ (chainState_offLink chain)).trans (s.get_put_same _ q .ofNumbers (show q < 2 ^ 4 by omega))

theorem State.chainTo_other {n m : Nat} (chain : n < 128) (chain' : m < 128) (ne : m ≠ n) (q : Nat) :
    (s.chainTo n q).chainState m = s.chainState m :=
  ((s.chainTo_leaves chain q).get _ (chainState_offLink chain')).trans (s.get_put_apart _ (.ofNumbers (by omega)))

theorem State.chainTo_sparesPower {n : Nat} (chain : n < 128) (q : Nat) : Spares Field.OfPower s (s.chainTo n q) :=
  .of ((s.chainTo_leaves chain q).mono fun _ => Field.OfPower.offLink) (s.putBelow_spares q)

end Link

/-- Chains that go down one after the other are down. -/
theorem State.chainsDown_state (s : State) {l : List Nat} (chains : ∀ n ∈ l, n < 128) {m : Nat} (chain : m < 128)
    (down : m ∈ l ∨ s.chainState m = 0) : (l.foldl (fun (s : State) n => s.chainTo n 0) s).chainState m = 0 := by
  induction l generalizing s with
  | nil => exact down.resolve_left (List.not_mem_nil)
  | cons n l ih =>
    refine ih _ (fun k listed => chains k (List.mem_cons_of_mem _ listed)) ?_
    have chain' := chains n List.mem_cons_self
    by_cases here : m = n
    · rw [here]
      exact .inr (s.chainTo_state chain' (by decide))
    · obtain listed | zero := down
      · exact .inl ((List.mem_cons.1 listed).resolve_left here)
      · exact .inr ((s.chainTo_other chain' chain here 0).trans zero)

theorem State.domainFails_linkShows (s : State) {d : Nat} (link : d = 10 ∨ d = 11) :
    ShowsDomain false true d (s.domainFails d) ∧ ∀ k, k < 64 → (s.domainFails d).chainState (64 * (d - 10) + k) = 0 := by
  have chains : ∀ n ∈ (List.range 64).map (fun i => 64 * (d - 10) + i), n < 128 := by
    intro n listed
    obtain ⟨i, few, rfl⟩ := List.mem_map.1 listed
    have := List.mem_range.1 few
    omega
  rw [s.domainFails_link link]
  generalize dropped : ((List.range 64).map (fun i => 64 * (d - 10) + i)).foldl (fun (s : State) n => s.chainTo n 0)
    (s.domainFailed d) = t
  have spares : Spares Field.OfPower (s.domainFailed d) t := by
    rw [← dropped]
    exact .fold (fun x n listed => x.chainTo_sparesPower (chains n listed) 0) .refl
  have kept : Kept (.link :: .hcr :: reports) (s.domainFailed d) t := by
    rw [← dropped]
    exact .fold (fun x n kept => .of (State.chainTo_kept x n 0) kept) .refl
  refine ⟨(s.domainFailed_shows (by omega)).of (Spares.of (State.raise_sparesPower ..) spares).domains ?_, fun k few => ?_⟩
  · exact congrArg PwrState.requested ((State.raise_pwr ..).trans kept.pwr)
  · rw [State.chainState, State.raise_get _ _ _ (chainState_offLink (by omega)).quiet, ← dropped]
    exact State.chainsDown_state _ chains (by omega) (.inl (List.mem_map.2 ⟨k, List.mem_range.2 few, rfl⟩))

/-! ### What a protective reset leaves (R511) -/

theorem protectFields_apart {g : Field} (clear : ∀ f ∈ protectFields, f.Clear g := by decide) : ∀ f ∈ protectFields, f.Apart g := clear

section Protected
variable (s : State) (bit : Option Nat) (code : Nat) (payload : List (Nat × Nat)) (tideRuns : Bool)

/-- R511: a protective reset lasts, its event is kept for the following bring-up, and its cause is noted. -/
theorem State.protect_records : (s.protect bit code payload tideRuns).pwr.protective = true ∧
    (s.protect bit code payload tideRuns).pwr.later = s.pwr.later ++ [(code, payload)] ∧
    (s.protect bit code payload tideRuns).pwr.thermal = (s.pwr.thermal || decide (bit = some 5)) := by
  have protects := s.protect_protects bit code payload tideRuns
  have noted := s.protectNoted_pwr bit code payload
  exact ⟨protects.protective.trans (by rw [noted]), protects.later.trans (by rw [noted]), protects.thermal.trans (by rw [noted])⟩

theorem State.protect_cause {b : Nat} (few : b < 8) :
    (s.protect (some b) code payload tideRuns).get ⟨0x01400010, b, 1⟩ = 1 := by
  refine ((s.protect_protects (some b) code payload tideRuns).regs _ ?_ ?_).trans (s.protectNoted_cause code payload few)
  · interval_cases b <;> exact .of
  · interval_cases b <;> exact protectFields_apart

theorem State.protect_pll {k : Nat} (pll : 1 ≤ k ∧ k ≤ 8) (unlocked : s.get ⟨0x01400008, k, 1⟩ = 0) :
    (s.protect bit code payload tideRuns).get ⟨0x01400008, k, 1⟩ = 0 := by
  refine (s.protect_protects bit code payload tideRuns).pll k pll ?_
  refine (s.protectNoted_regs bit code payload _ (pllBit_quiet (by omega)) ?_).trans unlocked
  simp only [List.mem_cons, List.not_mem_nil, or_false, forall_eq]
  exact .ofNumbers

end Protected

/-- The machine with a PLL unlocked. -/
def State.unlocked (s : State) (pll : Fin 9) : State := s.put (pllBit pll) 0

/-- The machine without its reference. -/
def State.unreferenced (s : State) : State := s.put Reg.PWR_CLK_STATUS_REF 0

theorem execRefLost_protects {s : State} (ref : s.get Reg.PWR_CLK_STATUS_REF = 1) :
    exec .refLost s = .next (s.unreferenced.protect (some 6) 0x1303 [] false) := by
  show execRefLost s = _
  exact congrArg Host.Outcome.next (if_pos (by simp [State.on, ref]))

theorem execPllUnlock_protects {s : State} {pll : Fin 9} (named : pll.val = 1 ∨ pll.val = 2 ∨ pll.val = 5 ∨ pll.val = 6)
    (locked : s.get (pllBit pll) = 1) : exec (.pllUnlock pll) s =
      .next ((s.unlocked pll).protect (some 6) 0x1304 [(4, pll)] (decide (pll.val ≠ 2))) := by
  show execPllUnlock pll s = _
  refine congrArg Host.Outcome.next (if_pos ⟨?_, by simp [State.on, locked]⟩)
  simp only [natMem, List.any_cons, List.any_nil, Bool.or_false, Bool.or_eq_true, decide_eq_true_eq]
  omega

/-- Settles O9: each cause ends in `State.protect`, whose effects compose (`Protects`); a domain's registers are shown last, by
what leaves them (`Field.OfPower`). -/
theorem protectiveResetAndDomains : Obligations.protective_reset_and_domains := by
  unfold Obligations.protective_reset_and_domains
  intro s
  refine ⟨fun ref lit => ?_, fun pll named locked lit => ?_, fun temp below => ?_, fun temp above hot cold => ?_,
    fun protective lit late => ?_, fun d awaited needs turn quad => ?_, fun d awaited quad => ?_, fun d awaited needed => ?_,
    fun d awaited link => ?_, fun q idle => ?_⟩
  · obtain ⟨protective, later, -⟩ := s.unreferenced.protect_records (some 6) 0x1303 [] false
    have dark := s.unreferenced.protect_dark (some 6) 0x1303 [] lit
    have blank := State.reblank_ofProtective (m := s.unreferenced.protectNoted (some 6) 0x1303 [])
      (by rw [State.protectNoted_pwr])
    have pwr := (s.unreferenced.protectNoted (some 6) 0x1303 []).reblank.aonAlone_pwr
    refine ⟨_, execRefLost_protects ref, ?_, State.protect_cause _ _ _ _ (by decide), protective, ?_, later, ?_, fun d least most => ?_,
      ?_⟩
    · refine ((State.protect_protects ..).regs _ .of protectFields_apart).trans ((State.protectNoted_regs _ _ _ _ _ .of ?_).trans
        (s.get_put_same Reg.PWR_CLK_STATUS_REF 0 ⟨by decide, by decide⟩ (show 0 < 2 ^ 1 by decide)))
      simp only [List.mem_cons, List.not_mem_nil, or_false, forall_eq]
      exact .of
    · rw [dark, pwr]
    · rw [dark]
      exact State.exposing_of_blank ((State.aonAlone_blank _).trans blank)
    · rw [dark]
      exact State.aonAlone_domainOn _ least most
    · rw [dark]
      have kept : Kept [.regs, .pwr] s s.unreferenced := .of (State.put_kept ..) .refl
      exact .of_kept (.of (State.aonAlone_kept _) (.of (State.reblank_kept _) (.upd [.pwr] (.of (State.setCause_kept ..) kept))))
  · obtain ⟨protective, later, -⟩ := (s.unlocked pll).protect_records (some 6) 0x1304 [(4, pll)] (decide (pll.val ≠ 2))
    have bits : 1 ≤ pll.val ∧ pll.val ≤ 8 := by omega
    refine ⟨_, execPllUnlock_protects named locked, ?_, State.protect_cause _ _ _ _ (by decide), protective,
      State.protect_blank _ _ _ _ _ lit, later, .of_kept (.of (State.protect_kept ..) (.of (State.put_kept ..) .refl))⟩
    exact State.protect_pll _ _ _ _ _ bits (s.get_put_same _ 0 (pllBit_quiet (by omega)).1 (show 0 < 2 ^ 1 by decide))
  · have warns := s.warned_warns temp
    have regs : RegsBut [Reg.PWR_DIE_TEMP_TEMP, Reg.PWR_DIE_TEMP_PEAK, ⟨cntPwr 6, 0, 64⟩] s (s.warned temp) :=
      RegsBut.trans (s.judged_regs temp) warns.regs
    refine ⟨s.warned temp, ?_, (s.warned_get temp .of .of).trans (s.measured_temp temp),
      (State.getS_congr (s.warned_get temp .of .of)).trans (s.measured_peak temp), ?_, ?_, regs⟩
    · rw [execDieTempRead_eq, if_neg (by simp [below])]
    · rw [warns.kept.pwr, State.judged_pwr]
      simpa using below
    · rw [warns.kept.pwr, State.judged_pwr]
  · have warns := s.warned_warns temp
    have pwr : (s.warned temp).pwr.thermal = false := by
      rw [warns.kept.pwr, State.judged_pwr]
      exact cold
    obtain ⟨protective, -, thermal⟩ := (s.warned temp).protect_records (some 5) 0x1309
      [(2, wrapInt 16 (max temp.toInt (s.getS Reg.PWR_DIE_TEMP_PEAK)))] true
    refine ⟨_, (execDieTempRead_eq s temp).trans (congrArg Host.Outcome.next (if_pos ⟨by simp [above, hot], by simp [pwr]⟩)), ?_,
      protective, thermal.trans (by simp), State.protect_cause _ _ _ _ (by decide)⟩
    refine ((State.protect_protects ..).regs _ .of protectFields_apart).trans ((State.protectNoted_regs _ _ _ _ _ .of ?_).trans
      ((s.warned_get temp .of .of).trans (s.measured_temp temp)))
    · simp only [List.mem_cons, List.not_mem_nil, or_false, forall_eq]
      exact .of
  · refine ⟨s.aonAlone, ?_, congrArg PwrState.aonOnly s.aonAlone_pwr, fun d least most => s.aonAlone_domainOn least most,
      .of_kept s.aonAlone_kept, s.aonAlone_regs.weaken fun _ => id⟩
    show execProtectiveStopLimit s = _
    exact congrArg Host.Outcome.next (if_pos ⟨protective, by simp [lit], late⟩)
  · have risen : ShowsDomain true false d.val (s.domainRises d) := (s.domainUp_risen d.isLt).of (.upd .refl) rfl
    refine ⟨_, congrArg Host.Outcome.next (if_pos ⟨awaited, needs, turn, quad⟩), risen.on, risen.fault, risen.requested⟩
  · have shows := s.domainFails_quadShows quad
    exact ⟨_, congrArg Host.Outcome.next (if_pos awaited), shows.on, shows.fault, shows.requested⟩
  · obtain ⟨protective, later, -⟩ := (s.domainFailed d).protect_records none 0x1305 [(4, d)] true
    rw [← s.domainFails_needed needed] at protective later
    exact ⟨_, congrArg Host.Outcome.next (if_pos awaited), protective, later.trans (by rw [State.domainFailed, (State.powerFault_kept ..).pwr]; rfl)⟩
  · obtain ⟨shows, down⟩ := s.domainFails_linkShows link
    exact ⟨_, congrArg Host.Outcome.next (if_pos awaited), shows.on, shows.fault, down⟩
  · have kept : Kept reports s (((s.powerDown (2 + q.val)).showJobs).count (cntPwr 1)) :=
      .of (State.count_kept ..) (.of (State.showJobs_kept _) (.of (State.powerDown_kept ..) .refl))
    have spares : Spares (· ∈ domainFields) (s.powerDown (2 + q.val)) (((s.powerDown (2 + q.val)).showJobs).count (cntPwr 1)) :=
      (Spares.of (State.countPwr_spares _ 1) (State.showJobs_spares _)).domains
    refine ⟨_, congrArg Host.Outcome.next (if_pos idle), ?_, kept.box, .of_kept kept⟩
    refine (congrArg (bitAt · (2 + q.val)) (spares.get Reg.PWR_DOMAIN_STATUS_ON (by simp [domainFields]))).trans ?_
    exact (s.powerDown_domainOn (by omega) (by omega)).trans (if_pos rfl)

end Sys2Proof.Machine
end

section
/-! PROOFS. The ports of the tide links (spec/16_cascade.md, R366 to R379): their states, and what leaves them. -/
namespace Sys2Proof.Machine

set_option Elab.async false
/-! ### Fields of the cascade -/

/-- A field of the cascade's registers that is no counter. -/
structure Field.OfCsc (g : Field) : Prop where
  sound : g.Sound
  low : 8 * 0x00F00000 ≤ g.base
  high : g.base + g.width ≤ 8 * 0x00F00100

theorem Field.OfCsc.quiet {g : Field} (csc : g.OfCsc) : g.Quiet := by
  obtain ⟨sound, low, high⟩ := csc
  exact ⟨sound, by omega⟩

theorem Field.OfCsc.offLink {g : Field} (csc : g.OfCsc) : g.OffLink := ⟨csc.quiet, .inr (by have := csc.low; omega)⟩

theorem Field.OfCsc.ofNumbers {off lo w : Nat} (h : off % 4 = 0 ∧ lo + w ≤ 64 ∧ 0x00F00000 ≤ off ∧
    8 * off + lo + w ≤ 8 * 0x00F00100 := by omega) : Field.OfCsc ⟨off, lo, w⟩ :=
  ⟨⟨h.1, h.2.1⟩, by simp only [Field.base]; omega, by simp only [Field.base]; omega⟩

section Outside
variable (s : State)

theorem State.putOutside_spares {off lo w : Nat} (x : Nat) (h : off % 4 = 0 ∧ lo + w ≤ 64 ∧
    (8 * off + lo + w ≤ 8 * 0x00F00000 ∨ 0x00F00100 ≤ off) := by omega) : Spares Field.OfCsc s (s.put ⟨off, lo, w⟩ x) :=
  s.put_spares x fun g csc => by
    obtain ⟨sound, low, high⟩ := csc
    exact ⟨⟨h.1, h.2.1⟩, sound, by simp only [Field.base] at low high ⊢; omega⟩

theorem State.raise_sparesCsc (code : Nat) (payload : List (Nat × Nat)) : Spares Field.OfCsc s (s.raise code payload) :=
  (raise_noted s code payload).spares fun _ => Field.OfCsc.quiet

theorem State.count_sparesCsc {off : Nat} (h : off % 4 = 0 ∧ (off + 8 ≤ 0x00F00000 ∨ 0x00F00100 ≤ off)) :
    Spares Field.OfCsc s (s.count off) :=
  ⟨fun _ csc => s.count_get _ csc.quiet ⟨h.1, csc.sound, by have := csc.low; have := csc.high; omega⟩⟩

/-- R476: the clock of a slave that loses its master. -/
theorem State.timeLinkLost_spares : Spares Field.OfCsc s s.timeLinkLost := by
  unfold State.timeLinkLost
  split
  · unfold State.freeClock State.setInc
    exact .of (State.putOutside_spares _ _) (.of (State.putOutside_spares _ _) (.of (State.putOutside_spares _ _)
      (State.modTime_kept ..).spares))
  · unfold State.holdover
    extract_lets q now noted told
    split
    · refine .of (State.raise_sparesCsc _ _ _) (.of (State.count_sparesCsc _ ?_) (.of (State.putOutside_spares _ _)
        (.of (State.putOutside_spares _ _) (.upd .refl))))
      decide
    · split
      · exact .upd .refl
      · exact .refl

end Outside

/-! ### The list of ports -/

theorem State.port_eq_getElem? (s : State) (p : Nat) : s.port p = s.csc.ports[p]?.getD {} := by
  rw [State.port, List.getD_eq_getElem?_getD]

theorem State.modPort_same (s : State) {p : Nat} (f : CscPort → CscPort) (inside : p < s.csc.ports.length) :
    (s.modPort p f).port p = f (s.port p) := by
  simp [State.port_eq_getElem?, State.modPort, listModify_eq_modify, inside]

theorem State.modPort_other (s : State) {p k : Nat} (f : CscPort → CscPort) (ne : k ≠ p) : (s.modPort p f).port k = s.port k := by
  simp [State.port_eq_getElem?, State.modPort, listModify_eq_modify, ne.symm]

theorem State.port_congr {s t : State} (csc : t.csc = s.csc) (k : Nat) : t.port k = s.port k := by
  rw [State.port, State.port, csc]

/-! ### A port enters a state (R366, R367) -/

/-- The fields of CSC_STATUS that follow the ports. -/
def portStatus : Field := ⟨0x00F00004, 0, 31⟩

/-- A field of the cascade that neither the ports' states show nor port p's own. -/
structure Field.OffPort (p : Nat) (g : Field) : Prop where
  csc : g.OfCsc
  state : (Reg.CSC_PORT_STATE p).Apart g
  status : portStatus.Apart g

theorem State.putStatus_spares {P : Field → Prop} (s : State) (status : ∀ g, P g → portStatus.Apart g) {lo w : Nat} (x : Nat)
    (within : lo + w ≤ 31 := by decide) : Spares P s (s.put ⟨0x00F00004, lo, w⟩ x) :=
  s.put_spares x fun g p => by
    obtain ⟨-, sound, range⟩ := status g p
    refine ⟨⟨show 0x00F00004 % 4 = 0 by decide, show lo + w ≤ 64 by omega⟩, sound, ?_⟩
    simp only [portStatus, Field.base] at range ⊢
    omega

theorem State.showPorts_spares {P : Field → Prop} (s : State) (status : ∀ g, P g → portStatus.Apart g) : Spares P s s.showPorts := by
  unfold State.showPorts
  extract_lets ready shown fixed
  have shows : Spares P s shown := s.putStatus_spares status _
  have fixes : Spares P s fixed := .ite (.of (State.putStatus_spares _ status 0) shows) shows
  exact .of (State.putStatus_spares _ status _) fixes

/-- The ports that are READY, one bit each. -/
def State.readyMask (s : State) : Nat :=
  ((List.range 3).filter fun p => decide (s.portState p = 6)).foldl (fun a p => a + 2 ^ p) 0

theorem bitAt_readyMask (s : State) {k : Nat} (few : k < 3) : bitAt s.readyMask k = decide (s.portState k = 6) := by
  have cases (a b c : Bool) : bitAt (([0, 1, 2].filter fun p => [a, b, c].getD p false).foldl (fun x p => x + 2 ^ p) 0) k =
      [a, b, c].getD k false := by
    interval_cases k <;> revert a b c <;> decide
  have mask : s.readyMask = ([0, 1, 2].filter fun p => [decide (s.portState 0 = 6), decide (s.portState 1 = 6),
      decide (s.portState 2 = 6)].getD p false).foldl (fun x p => x + 2 ^ p) 0 := by
    refine congrArg (List.foldl (fun x p => x + 2 ^ p) 0) (List.filter_congr fun p listed => ?_)
    have few := List.mem_range.1 listed
    interval_cases p <;> rfl
  rw [mask, cases]
  interval_cases k <;> rfl

theorem readyMask_lt (s : State) : s.readyMask < 2 ^ 3 := by
  have cases (p : Nat → Bool) : (([0, 1, 2].filter p).foldl (fun x p => x + 2 ^ p) 0) < 8 := by
    cases zero : p 0 <;> cases one : p 1 <;> cases two : p 2 <;> simp [zero, one, two]
  exact cases _

theorem State.showPorts_ready (s : State) : s.showPorts.get Reg.CSC_STATUS_READY = s.readyMask := by
  unfold State.showPorts
  extract_lets ready shown fixed
  have shows : shown.get Reg.CSC_STATUS_READY = s.readyMask := s.get_put_same _ _ .ofNumbers (readyMask_lt s)
  have fixes : fixed.get Reg.CSC_STATUS_READY = s.readyMask := by
    unfold fixed
    split
    · exact (State.get_put_apart _ _ .of).trans shows
    · exact shows
  exact (State.get_put_apart _ _ .of).trans fixes

theorem State.showPorts_state (s : State) {k : Nat} (few : k < 3) : s.showPorts.portState k = s.portState k :=
  (s.showPorts_spares (P := (· = Reg.CSC_PORT_STATE k)) (by rintro _ rfl; exact .ofNumbers)).get _ rfl

/-- The machine as a port enters a state, but for what shows it. -/
def State.portEnters (s : State) (p q : Nat) : State :=
  let t := if s.isSlave ∧ p = 0 ∧ s.portState 0 = 6 ∧ q ≠ 6 then s.timeLinkLost else s
  (t.put (Reg.CSC_PORT_STATE p) q).modPort p fun c => { c with enteredAt := s.tide }

theorem State.portTo_eq (s : State) (p q : Nat) : s.portTo p q = (s.portEnters p q).showPorts := rfl

section Enters
variable (s : State) {p : Nat} (q : Nat)

theorem State.portEnters_leaves {P : Field → Prop} (csc : ∀ g, P g → g.OfCsc)
    (state : ∀ g, P g → (Reg.CSC_PORT_STATE p).Apart g) : Spares P s (s.portEnters p q) := by
  unfold State.portEnters
  extract_lets t
  have lost : Spares P s t := .ite (s.timeLinkLost_spares.mono csc) .refl
  exact .of (State.modPort_kept ..).spares (.of (t.put_spares q state) lost)

theorem State.portTo_spares : Spares (Field.OffPort p) s (s.portTo p q) :=
  .of (State.showPorts_spares _ fun _ off => off.status)
    (s.portEnters_leaves q (fun _ off => off.csc) fun _ off => off.state)

theorem State.portTo_state (port : p < 3) (four : q < 16) : (s.portTo p q).portState p = q := by
  rw [State.portTo_eq, State.showPorts_state _ port]
  exact (State.get_put_same _ _ q .ofNumbers (show q < 2 ^ 4 by omega))

theorem State.portTo_other {k : Nat} (few : k < 3) (ne : k ≠ p) : (s.portTo p q).portState k = s.portState k := by
  rw [State.portTo_eq, State.showPorts_state _ few]
  refine (s.portEnters_leaves q (P := (· = Reg.CSC_PORT_STATE k)) ?_ ?_).get _ rfl
  · rintro _ rfl
    exact .ofNumbers
  · rintro _ rfl
    exact .ofNumbers (by omega)

/-- R366: READY shows the ports in their states. -/
theorem State.portTo_ready {k : Nat} (few : k < 3) :
    bitAt ((s.portTo p q).get Reg.CSC_STATUS_READY) k = decide ((s.portTo p q).portState k = 6) := by
  rw [State.portTo_eq, State.showPorts_ready, bitAt_readyMask _ few, State.showPorts_state _ few]

theorem State.portEnters_port (k : Nat) (inside : k = p → p < s.csc.ports.length) :
    (s.portEnters p q).port k = if k = p then { s.port p with enteredAt := s.tide } else s.port k := by
  unfold State.portEnters
  extract_lets t
  have csc : t.csc = s.csc := by
    unfold t
    split
    · exact s.timeLinkLost_kept.csc
    · rfl
  split
  · next here =>
    rw [here, State.modPort_same _ _ (by rw [show (t.put (Reg.CSC_PORT_STATE p) q).csc = s.csc from csc]; exact inside here)]
    have ports : (t.put (Reg.CSC_PORT_STATE p) q).port p = s.port p := State.port_congr csc p
    rw [ports]
  · next ne =>
    rw [State.modPort_other _ _ ne]
    exact State.port_congr csc k

theorem State.portTo_port (k : Nat) (inside : k = p → p < s.csc.ports.length) :
    (s.portTo p q).port k = if k = p then { s.port p with enteredAt := s.tide } else s.port k := by
  rw [State.portTo_eq, State.port_congr (State.showPorts_kept _).csc, s.portEnters_port q k inside]

end Enters

/-! ### A port's lanes, and its failure (R236, R367) -/

/-- The idle level that a port's lanes show. -/
def State.portIdle (s : State) (p lanes i : Nat) : Nat :=
  if lanes = 0 then 1 else if bitAt lanes i then 0 else s.get (Reg.LNS_LANE_RX_EIDLE (262 + 2 * p + i))

section Lanes
variable (s : State) {p : Nat} (lanes : Nat)

theorem State.portLanes_eq : s.portLanes p lanes = ((((s.put (Reg.CSC_PORT_LANES p) lanes).put
    (Reg.LNS_LANE_RX_ALIGNED (262 + 2 * p)) (lanes % 2)).put (Reg.LNS_LANE_RX_ALIGNED (262 + 2 * p + 1)) (lanes / 2 % 2)).put
      (Reg.LNS_LANE_RX_EIDLE (262 + 2 * p)) (s.portIdle p lanes 0)).put (Reg.LNS_LANE_RX_EIDLE (262 + 2 * p + 1))
        (s.portIdle p lanes 1) := rfl

theorem State.portLanes_leaves (port : p < 3) : Spares Field.OfCsc (s.put (Reg.CSC_PORT_LANES p) lanes) (s.portLanes p lanes) :=
  .of (State.putOutside_spares _ _) (.of (State.putOutside_spares _ _) (.of (State.putOutside_spares _ _)
    (State.putOutside_spares _ _)))

theorem State.portLanes_spares (port : p < 3) {P : Field → Prop} (csc : ∀ g, P g → g.OfCsc)
    (off : ∀ g, P g → (Reg.CSC_PORT_LANES p).Apart g) : Spares P s (s.portLanes p lanes) :=
  .of ((s.portLanes_leaves lanes port).mono csc) (s.put_spares lanes off)

theorem State.portLanes_lanes (port : p < 3) (two : lanes < 4) : (s.portLanes p lanes).get (Reg.CSC_PORT_LANES p) = lanes :=
  ((s.portLanes_leaves lanes port).get _ .ofNumbers).trans (s.get_put_same _ lanes .ofNumbers (show lanes < 2 ^ 2 by omega))

theorem State.portLanes_aligned {i : Nat} (lane : i < 2) :
    (s.portLanes p lanes).get (Reg.LNS_LANE_RX_ALIGNED (262 + 2 * p + i)) = lanes / 2 ^ i % 2 := by
  rw [State.portLanes_eq, State.get_put_apart _ _ (.ofNumbers (by omega)), State.get_put_apart _ _ (.ofNumbers (by omega))]
  interval_cases i
  · rw [State.get_put_apart _ _ .ofNumbers, Nat.pow_zero, Nat.div_one]
    exact State.get_put_same _ _ _ .ofNumbers (show lanes % 2 < 2 ^ 1 by omega)
  · exact State.get_put_same _ _ _ .ofNumbers (show lanes / 2 % 2 < 2 ^ 1 by omega)

end Lanes

/-- From s to t a port has failed with a cause. -/
structure PortFailed (p cause : Nat) (s t : State) : Prop where
  state : t.portState p = 7
  shown : t.get (Reg.CSC_PORT_CAUSE p) = cause
  lanes : t.get (Reg.CSC_PORT_LANES p) = 0
  other : ∀ k, k < 3 → k ≠ p → t.portState k = s.portState k ∧ t.get (Reg.CSC_PORT_CAUSE k) = s.get (Reg.CSC_PORT_CAUSE k)
  config : ∀ g : Field, g.OfCsc → portStatus.Apart g → g.base + g.width ≤ 8 * 0x00F00010 ∨ 8 * 0x00F00020 ≤ g.base → t.get g = s.get g

theorem State.portFails_failed (s : State) {p cause : Nat} (port : p < 3) (known : cause < 16) :
    PortFailed p cause s (s.portFails p cause) := by
  let told := s.put (Reg.CSC_PORT_CAUSE p) cause
  let entered := told.portTo p 7
  have raised {g : Field} (csc : g.OfCsc) : (s.portFails p cause).get g = (entered.portLanes p 0).get g :=
    State.raise_get _ _ _ csc.quiet
  have off {g : Field} (csc : g.OfCsc) (apart : (Reg.CSC_PORT_LANES p).Apart g) :
      (s.portFails p cause).get g = entered.get g :=
    (raised csc).trans ((entered.portLanes_spares 0 port (P := (· = g)) (fun _ here => here ▸ csc)
      (fun _ here => here ▸ apart)).get _ rfl)
  have before {g : Field} (offPort : g.OffPort p) (apart : (Reg.CSC_PORT_LANES p).Apart g) :
      (s.portFails p cause).get g = told.get g :=
    (off offPort.csc apart).trans ((told.portTo_spares 7).get _ offPort)
  refine ⟨(off .ofNumbers .ofNumbers).trans (told.portTo_state 7 port (by decide)), ?_, ?_, fun k few ne => ⟨?_, ?_⟩,
    fun g csc status range => ?_⟩
  · exact (before ⟨.ofNumbers, .ofNumbers, .ofNumbers⟩ .ofNumbers).trans
      (s.get_put_same _ cause .ofNumbers (show cause < 2 ^ 4 by omega))
  · exact (raised .ofNumbers).trans (entered.portLanes_lanes 0 port (by decide))
  · exact (off .ofNumbers .ofNumbers).trans ((told.portTo_other 7 few ne).trans (s.get_put_apart _ (.ofNumbers (by omega))))
  · exact (before ⟨.ofNumbers, .ofNumbers, .ofNumbers⟩ .ofNumbers).trans (s.get_put_apart _ (.ofNumbers (by omega)))
  · have apart {lo w : Nat} (within : lo + w ≤ 32) : Field.Apart ⟨0x00F00010 + p * 0x4, lo, w⟩ g :=
      ⟨⟨show (0x00F00010 + p * 0x4) % 4 = 0 by omega, show lo + w ≤ 64 by omega⟩, csc.sound, by
        simp only [Field.base] at range ⊢; omega⟩
    exact (before ⟨csc, apart (by decide), status⟩ (apart (by decide))).trans (s.get_put_apart _ (apart (by decide)))

end Sys2Proof.Machine
end

section
/-! PROOFS. The steps of bring-up: what starts them, the choice of the boot image, and what their end leaves (R491, R492, R513). -/
namespace Sys2Proof.Machine
set_option Elab.async false

/-! ### Requests for domains, and the start of step 2 -/

theorem bitAt_setBits (l : List Nat) {m d : Nat} (set : d ∈ l ∨ bitAt m d = true) :
    bitAt (l.foldl (fun (m : Nat) d => setBit m d true) m) d = true := by
  induction l generalizing m with
  | nil => exact set.resolve_left List.not_mem_nil
  | cons e l ih =>
    refine ih ?_
    by_cases same : d = e
    · exact .inr (same ▸ bitAt_setBit ..)
    · rcases set with mem | bit
      · exact .inl ((List.mem_cons.mp mem).resolve_left same)
      · exact .inr ((bitAt_setBit_other _ same _).trans bit)

theorem State.requestDomains_requested (s : State) {l : List Nat} {d : Nat} (mem : d ∈ l) (down : s.domainOn d = false) :
    bitAt (s.requestDomains l).pwr.requested d = true :=
  bitAt_setBits _ (.inl (List.mem_filter.mpr ⟨mem, by simp [down]⟩))

/-- Step 2 has started: nothing but STEP is written, HOSTIO and the core are awaited, and the step's time runs. -/
structure BootStarts (s t : State) : Prop where
  kept : Kept [.regs, .pwr] s t
  regs : RegsBut [Reg.PWR_BRINGUP_STEP] s t
  step : t.get Reg.PWR_BRINGUP_STEP = 2
  time : t.pwr.bootAt = s.aon
  requested : ∀ d, d = 1 ∨ d = 14 → s.domainOn d = false → bitAt t.pwr.requested d = true

theorem State.startBoot_starts {s : State} (ready : (s.pwr.ok && s.pwr.step1 && !s.host.perstLow && !s.obs.heldInReset &&
    !s.pwr.protective) = true) : BootStarts s s.startBoot := by
  have started : s.startBoot = ({ s with pwr := { s.pwr with bootAt := s.aon } }.requestDomains [1, 14]).put Reg.PWR_BRINGUP_STEP 2 :=
    if_pos ready
  refine { kept := s.startBoot_kept, regs := fun g quiet apart => s.startBoot_get_apart (apart _ (by simp)), step := ?_,
           time := ?_, requested := fun d needed down => ?_ }
  · rw [started]
    exact State.get_put_same _ _ _ ⟨by decide, by decide⟩ (by decide)
  · rw [started]
    rfl
  · rw [started]
    exact State.requestDomains_requested { s with pwr := { s.pwr with bootAt := s.aon } } (by simpa using needed) down

theorem State.startBoot_step1 (s : State) : s.startBoot.pwr.step1 = s.pwr.step1 := by
  unfold State.startBoot
  split <;> rfl

/-! ### The boot image (R491, R492) -/

theorem imageFault_lt (keyHash otp : Nat) (slot : Option (List Byte)) : imageFault keyHash otp slot < 2 ^ 4 := by
  unfold imageFault
  repeat' split
  all_goals decide

theorem slotSvn_lt (slot : Option (List Byte)) : slotSvn slot < 2 ^ 8 :=
  (leNat_lt _).trans_le
    ((Nat.pow_le_pow_right (by decide) (List.length_take_le 1 _)).trans (by decide))

/-- What BOOT_IMAGE_VERIFY does where step 2 waits for it: the slot with the higher SVN first, then the other. -/
theorem execBootImageVerify_chooses {s : State} {read0 read1 : Bool} {image0 image1 : List Byte} {first other : Nat}
    {chosen spare : Option (List Byte)} (step : s.get Reg.PWR_BRINGUP_STEP = 2) (ctl : s.domainOn 1 = true)
    (waits : s.get Reg.HST_STATUS_READY = 0)
    (order : slotSvn (readSlot read0 image0) < slotSvn (readSlot read1 image1) ∧ first = 1 ∧ other = 0 ∧
        chosen = readSlot read1 image1 ∧ spare = readSlot read0 image0 ∨
      slotSvn (readSlot read1 image1) ≤ slotSvn (readSlot read0 image0) ∧ first = 0 ∧ other = 1 ∧
        chosen = readSlot read0 image0 ∧ spare = readSlot read1 image1) :
    exec (.bootImageVerify read0 read1 image0 image1) s =
      let fault (slot : Option (List Byte)) : Nat := imageFault s.pwr.keyHash (s.get Reg.BWT_SVN_REQ_OTP) slot
      if fault chosen = 0 then .next (s.firmwareRuns first (slotSvn chosen))
      else if fault spare = 0 then
        .next (((s.put (failField first) (fault chosen)).firmwareRuns other (slotSvn spare)).raise 0x1209
          [(4, other), (4, fault chosen)])
      else .next ((s.put (failField first) (fault chosen)).put (failField other) (fault spare)).noImage := by
  show execBootImageVerify read0 read1 image0 image1 s = _
  unfold execBootImageVerify
  rw [if_neg (by simp [step, ctl, State.on, waits])]
  rcases order with ⟨newer, rfl, rfl, rfl, rfl⟩ | ⟨newer, rfl, rfl, rfl, rfl⟩
  · simp [newer]
  · simp [not_lt.mpr newer]

/-- Firmware runs from an image: the fields of BWT_BOOT and the start of step 4. -/
structure Boots (slot svn : Nat) (s t : State) : Prop where
  kept : Kept [.regs, .pwr] s t
  regs : RegsBut [Reg.BWT_BOOT_SLOT, Reg.BWT_BOOT_SVN, Reg.HST_STATUS_READY, Reg.PWR_BRINGUP_STEP] s t
  slot : t.get Reg.BWT_BOOT_SLOT = slot
  svn : t.get Reg.BWT_BOOT_SVN = svn
  ready : t.get Reg.HST_STATUS_READY = 1
  step : t.get Reg.PWR_BRINGUP_STEP = 4
  time : t.pwr.runAt = s.aon

theorem State.requestDomains_get (s : State) (l : List Nat) (g : Field) : (s.requestDomains l).get g = s.get g := rfl

theorem State.withRunAt_get (s : State) (now : Nat) (g : Field) :
    ({ s with pwr := { s.pwr with runAt := now } } : State).get g = s.get g := rfl

theorem State.firmwareRuns_get (s : State) (slot svn : Nat) (g : Field) : (s.firmwareRuns slot svn).get g =
    ((((s.put Reg.BWT_BOOT_SLOT slot).put Reg.BWT_BOOT_SVN svn).put Reg.HST_STATUS_READY 1).put Reg.PWR_BRINGUP_STEP 4).get g := by
  rw [State.firmwareRuns]
  extract_lets
  rw [State.requestDomains_get, State.withRunAt_get]
  rfl

theorem State.firmwareRuns_boots (s : State) {slot svn : Nat} (two : slot < 2 ^ 1) (byte : svn < 2 ^ 8) :
    Boots slot svn s (s.firmwareRuns slot svn) where
  kept := s.firmwareRuns_kept slot svn
  regs := fun g quiet apart => by
    simp only [List.forall_mem_cons] at apart
    obtain ⟨slot, svn, ready, step, -⟩ := apart
    rw [State.firmwareRuns_get, State.get_put_apart _ _ step, State.get_put_apart _ _ ready, State.get_put_apart _ _ svn,
      State.get_put_apart _ _ slot]
  slot := by
    rw [State.firmwareRuns_get, State.get_put_apart _ _ .of, State.get_put_apart _ _ .of,
      State.get_put_apart _ _ .of, State.get_put_same _ _ _ ⟨by decide, by decide⟩ two]
  svn := by
    rw [State.firmwareRuns_get, State.get_put_apart _ _ .of, State.get_put_apart _ _ .of,
      State.get_put_same _ _ _ ⟨by decide, by decide⟩ byte]
  ready := by
    rw [State.firmwareRuns_get, State.get_put_apart _ _ .of, State.get_put_same _ _ _ ⟨by decide, by decide⟩ (by decide)]
  step := by
    rw [State.firmwareRuns_get, State.get_put_same _ _ _ ⟨by decide, by decide⟩ (by decide)]
  time := rfl

/-- The device has gone to AON alone with the failure of step 2. -/
structure NoImage (s t : State) : Prop where
  step : t.get Reg.PWR_BRINGUP_FAIL_STEP = 2
  code : t.get Reg.PWR_BRINGUP_FAIL_CODE = 3
  aonOnly : t.pwr.aonOnly = true
  dark : ∀ d, 1 ≤ d → d ≤ 15 → t.domainOn d = false
  regs : RegsBut (domainFields ++ [pllBits] ++ [Reg.PWR_BRINGUP_FAIL_STEP, Reg.PWR_BRINGUP_FAIL_CODE]) s t

theorem darkFields_apart {g : Field} (clear : ∀ f ∈ domainFields ++ [pllBits], f.Clear g := by decide) :
    ∀ f ∈ domainFields ++ [pllBits], f.Apart g := clear

theorem failFields_apart {g : Field} (clear : ∀ f ∈ [Reg.PWR_BRINGUP_FAIL_STEP, Reg.PWR_BRINGUP_FAIL_CODE], f.Clear g := by decide) :
    ∀ f ∈ [Reg.PWR_BRINGUP_FAIL_STEP, Reg.PWR_BRINGUP_FAIL_CODE], f.Apart g := clear

theorem State.noImage_dark {s : State} (first : s.get Reg.PWR_BRINGUP_FAIL_STEP = 0) : NoImage s s.noImage := by
  have kept : s.aonAlone.get Reg.PWR_BRINGUP_FAIL_STEP = 0 :=
    (s.aonAlone_regs _ .of darkFields_apart).trans first
  have fails : s.noImage = (s.aonAlone.put Reg.PWR_BRINGUP_FAIL_STEP 2).put Reg.PWR_BRINGUP_FAIL_CODE 3 := by
    rw [State.noImage, State.stepFails]
    exact (if_neg (by decide)).trans (if_pos kept)
  have regs : RegsBut [Reg.PWR_BRINGUP_FAIL_STEP, Reg.PWR_BRINGUP_FAIL_CODE] s.aonAlone s.noImage := by
    rw [fails]
    exact (RegsBut.put s.aonAlone _ _).trans (RegsBut.put _ _ _)
  refine { step := ?_, code := ?_, aonOnly := ?_, dark := fun d least most => ?_, regs := s.aonAlone_regs.trans regs }
  · rw [fails, State.get_put_apart _ _ .of, State.get_put_same _ _ _ ⟨by decide, by decide⟩ (by decide)]
  · rw [fails, State.get_put_same _ _ _ ⟨by decide, by decide⟩ (by decide)]
  · rw [fails]
    exact congrArg PwrState.aonOnly s.aonAlone_pwr
  · refine Eq.trans ?_ (s.aonAlone_domainOn least most)
    exact congrArg (bitAt · d) (regs Reg.PWR_DOMAIN_STATUS_ON .of failFields_apart)

/-! ### Step 8 (R508, R513): nothing but a warm reset's own end touches the warm reset that runs -/

section Warm
variable (s : State)

/-- R201: the domain of a couch set OFF, or brought back, while the wake runs. -/
def State.neapDomain (n : Nat) (off : Bool) : State :=
  if ¬ s.seq.waking then s
  else if off then
    ({ s with pwr := { s.pwr with requested := setBit s.pwr.requested (8 + n) false } }).powerDown (8 + n)
  else s.requestDomains [8 + n]

theorem State.neapDomain_warm (n : Nat) (off : Bool) : (s.neapDomain n off).pwr.warm = s.pwr.warm := by
  unfold State.neapDomain
  split
  · rfl
  · split
    · rw [(State.powerDown_kept ..).pwr]
    · rfl

theorem State.neapCouch_warm (n : Nat) (off : Bool) : (s.neapCouch n off).pwr.warm = s.pwr.warm := by
  unfold State.neapCouch
  extract_lets roles new new' couch t
  exact t.neapDomain_warm n off

theorem State.applyCouchRole_warm (n : Nat) : (s.applyCouchRole n).pwr.warm = s.pwr.warm := by
  unfold State.applyCouchRole
  extract_lets off couch t
  split
  · rfl
  · split
    · exact t.neapCouch_warm n off
    · rw [(State.noCouch_kept _).pwr]
      split
      · rw [(State.couchOff_kept ..).pwr]
      · rw [State.couchOn, (State.backFromOff_kept ..).pwr]
        rfl

theorem State.applyCouchRoles_warm : s.applyCouchRoles.pwr.warm = s.pwr.warm := by
  rw [State.applyCouchRoles]
  split
  · rw [State.applyCouchRole_warm, State.applyCouchRole_warm]
  · rfl

theorem State.powersDown_pwr (l : List Nat) : (l.foldl (fun (s : State) n => s.powerDown (8 + n)) s).pwr = s.pwr :=
  (Kept.fold (P := [.regs]) (fun _ _ h => .of (State.powerDown_kept _ _) h) .refl).pwr

theorem State.restartLost_warm : s.restartLost.pwr.warm = s.pwr.warm := by
  unfold State.restartLost
  extract_lets l t
  exact (show _ = t.pwr.warm from rfl).trans (congrArg PwrState.warm (s.powersDown_pwr l))

theorem State.slackEntry_warm : s.slackEntry.pwr.warm = s.pwr.warm := by
  unfold State.slackEntry
  extract_lets t q u v x y z
  have stopped : Kept (.seq :: reports) s t := .ite (.of (State.put_kept ..) .refl) .refl
  have began : Kept (.seq :: reports) s v := .of (State.enter_kept ..) (.upd [.seq] stopped)
  have retried : x.pwr.warm = s.pwr.warm := by
    rw [State.applyCouchRoles_warm, (State.applyVatRoles_kept _).pwr]
    exact (show _ = v.pwr.warm from rfl).trans (congrArg PwrState.warm began.pwr)
  have restarted : y.pwr.warm = s.pwr.warm := by
    rw [State.restartLost_warm, (State.scheduleSwap_kept _).pwr]
    exact retried
  have ended : Kept (.tid :: .headTime0 :: .link :: .hcr :: reports) y (z.liftTemp.startHeld.showStopLead.showLead) :=
    .of (State.showLead_kept _) (.of (State.showStopLead_kept _) (.of (State.startHeld_kept _) (.of (State.liftTemp_kept _)
      (.ite (.of (State.retrainAll_kept _) .refl) .refl))))
  rw [ended.pwr, restarted]

theorem State.doneInSlack_done : s.doneInSlack.get Reg.PWR_BRINGUP_DONE = 1 ∧ s.doneInSlack.get Reg.PWR_BRINGUP_STEP = 8 ∧
    s.doneInSlack.pwr.warm = s.pwr.warm := by
  have shown : s.doneInSlack = (s.slackEntry.put Reg.PWR_BRINGUP_DONE 1).put Reg.PWR_BRINGUP_STEP 8 := rfl
  refine ⟨?_, ?_, ?_⟩
  · rw [shown, State.get_put_apart _ _ .of, State.get_put_same _ _ _ ⟨by decide, by decide⟩ (by decide)]
  · rw [shown, State.get_put_same _ _ _ ⟨by decide, by decide⟩ (by decide)]
  · rw [shown]
    exact s.slackEntry_warm

end Warm

/-- Bring-up has ended. -/
structure BringupEnds (warm : Option WarmReset) (t : State) : Prop where
  done : t.get Reg.PWR_BRINGUP_DONE = 1
  step : t.get Reg.PWR_BRINGUP_STEP = 8
  warm : t.pwr.warm = warm

theorem BringupEnds.noted {warm : Option WarmReset} {t u : State} (ends : BringupEnds warm t) (noted : Noted t u) :
    BringupEnds warm u where
  done := (noted.quiet _ .of).trans ends.done
  step := (noted.quiet _ .of).trans ends.step
  warm := (congrArg PwrState.warm noted.pwr).trans ends.warm

theorem judgeHold_apart {g : Field} (clear : ∀ f ∈ [Reg.HCR_STATUS_STUCK, Reg.HCR_STATUS_UNMEASURED, Reg.HCR_STATUS_NEW_DEAD,
    Reg.HCR_STATUS_LATCHED_DEAD, Reg.HCR_STATUS_HOLD], f.Clear g := by decide) : ∀ f ∈ [Reg.HCR_STATUS_STUCK,
      Reg.HCR_STATUS_UNMEASURED, Reg.HCR_STATUS_NEW_DEAD, Reg.HCR_STATUS_LATCHED_DEAD, Reg.HCR_STATUS_HOLD], f.Apart g := clear

theorem State.raises_noted (s : State) (l : List (Nat × List (Nat × Nat))) :
    Noted s (l.foldl (fun (s : State) (e : Nat × List (Nat × Nat)) => s.raise e.1 e.2) s) :=
  Noted.fold (fun (s : State) (e : Nat × List (Nat × Nat)) => s.raise e.1 e.2) (fun s e => raise_noted s e.1 e.2) l s

/-- R511: the machine without the events that a protective reset kept for the end of bring-up. -/
def State.recordless (s : State) : State := { s with pwr := { s.pwr with later := [] } }

theorem State.endBringup_ends (s : State) (failed : Nat) : BringupEnds s.pwr.warm (s.endBringup failed) := by
  have pwr : s.recordless.firstRoles.pwr.warm = s.pwr.warm := 
    (congrArg PwrState.warm s.recordless.firstRoles_kept.pwr).trans rfl
  obtain ⟨done, step, warm⟩ := s.recordless.firstRoles.doneInSlack_done
  have judged : BringupEnds s.pwr.warm
      s.recordless.firstRoles.doneInSlack.judgeHold :=
    { done := (State.judgeHold_regs _ _ .of judgeHold_apart).trans done
      step := (State.judgeHold_regs _ _ .of judgeHold_apart).trans step
      warm := (congrArg PwrState.warm (State.judgeHold_kept _).pwr).trans (warm.trans pwr) }
  have raised := judged.noted (raise_noted _ 0x1301 [(4, (s.aon - s.pwr.okAt) / 400000), (4, failed)])
  exact raised.noted (State.raises_noted ..)

theorem State.endWarm_ends (s : State) (w : WarmReset) (failed : Nat) : BringupEnds none (s.endWarm w failed) := by
  unfold State.endWarm
  extract_lets p t
  refine BringupEnds.noted ?_ (raise_noted ..)
  split
  · exact t.endBringup_ends failed
  · obtain ⟨done, step, warm⟩ := t.doneInSlack_done
    exact ⟨done, step, warm⟩

/-- BRINGUP_DONE where steps 4 to 6 have ended. -/
theorem execBringupDone_ends {s : State} (running : s.get Reg.PWR_BRINGUP_STEP = 4 ∨ s.get Reg.PWR_BRINGUP_STEP = 5)
    (ready : s.get Reg.HST_STATUS_READY = 1) (off : s.get Reg.EXP_STATE_STATE = 0) (requested : s.pwr.requested = 0)
    (free : s.pwr.protective = false) (ended : s.stepsEnded = true) :
    Acts .bringupDone s (BringupEnds none) := by
  let failed := s.failedSteps
  let t := failed.foldl (fun (s : State) (p : Nat × Nat) => s.stepFails p.1 p.2) s
  have kept : Kept reports s t := .fold (fun _ _ h => .of (State.stepFails_kept ..) h) .refl
  have runs : exec .bringupDone s =
      match t.pwr.warm with
      | some w => .next (t.endWarm w failed.length)
      | none => .next (t.endBringup failed.length) := by
    show execBringupDone s = _
    unfold execBringupDone
    extract_lets r
    exact if_pos (by simp [r, running, State.on, ready, off, requested, free, ended])
  cases warm : t.pwr.warm with
  | some w => exact ⟨_, runs.trans (by rw [warm]), t.endWarm_ends w _⟩
  | none => exact ⟨_, runs.trans (by rw [warm]), warm ▸ t.endBringup_ends _⟩

end Sys2Proof.Machine
end

section
/-! PROOFS. The limit of the training steps, and the steps of bring-up put together (R513). -/
namespace Sys2Proof.Machine
set_option Elab.async false

/-! ### Chains that fail at the limit -/

theorem State.modChain_spares {P : Field → Prop} (s : State) (n : Nat) (f : Chain → Chain) : Spares P s (s.modChain n f) := .upd .refl

theorem State.retrainDone_sparesCsc (s : State) : Spares Field.OfCsc s s.retrainDone := .ite .refl (State.putOutside_spares _ 0)

theorem State.trainFail_sparesCsc (s : State) {n : Nat} (chain : n < 128) (cause : Nat) :
    Spares Field.OfCsc s (s.trainFail n cause) := by
  have failed : Spares Field.OfCsc s ((s.put (Reg.HLK_CHAIN_STATE_CAUSE n) cause).chainTo n 8) :=
    .of ((State.chainTo_leaves _ chain 8).mono fun _ => Field.OfCsc.offLink)
      (.of (State.putOutside_spares _ 8) (State.putOutside_spares _ cause))
  exact .of (State.raise_sparesCsc ..) (.of (State.retrainDone_sparesCsc _) (.of (State.modChain_spares ..) failed))

/-- What the limit of step 5 does with one chain, and the limit of step 6 with one port. -/
def State.chainTimesOut (s : State) (n : Nat) : State :=
  if s.chainEnded n then s else s.trainFail n (chainLimitCause (s.chainState n))

def State.portTimesOut (s : State) (p : Nat) : State :=
  if s.portEnabled p ∧ 1 ≤ s.portState p ∧ s.portState p ≤ 5 then s.portFails p (s.portState p) else s

theorem State.trainingLimit_eq (s : State) :
    s.trainingLimit = (List.range 3).foldl State.portTimesOut ((List.range 128).foldl State.chainTimesOut s) := rfl

theorem State.chainsTimeOut_spares (s : State) : Spares Field.OfCsc s ((List.range 128).foldl State.chainTimesOut s) :=
  Spares.fold (fun x _ chain => .ite .refl (x.trainFail_sparesCsc (List.mem_range.mp chain) _)) .refl

/-! ### Ports that fail at the limit -/

/-- What a port shows, and whether it is in use. -/
structure PortStays (k : Nat) (s t : State) : Prop where
  state : t.portState k = s.portState k
  cause : t.get (Reg.CSC_PORT_CAUSE k) = s.get (Reg.CSC_PORT_CAUSE k)
  enabled : t.portEnabled k = s.portEnabled k

theorem PortStays.refl {k : Nat} {s : State} : PortStays k s s := ⟨rfl, rfl, rfl⟩

theorem PortStays.trans {k : Nat} {s t u : State} (first : PortStays k s t) (next : PortStays k t u) : PortStays k s u :=
  ⟨next.state.trans first.state, next.cause.trans first.cause, next.enabled.trans first.enabled⟩

theorem State.portEnabled_congr {s t : State} (slave : t.get Reg.CSC_STATUS_SLAVE = s.get Reg.CSC_STATUS_SLAVE)
    (ports : t.get Reg.CSC_CFG_PORT_EN = s.get Reg.CSC_CFG_PORT_EN) (k : Nat) : t.portEnabled k = s.portEnabled k := by
  rw [State.portEnabled, State.portEnabled, State.isSlave, State.isSlave, State.on, State.on, slave, ports]

theorem Spares.portStays {s t : State} (spares : Spares Field.OfCsc s t) {k : Nat} (few : k < 3) : PortStays k s t where
  state := spares.get _ .ofNumbers
  cause := spares.get _ .ofNumbers
  enabled := State.portEnabled_congr (spares.get _ .ofNumbers) (spares.get _ .ofNumbers) k

theorem State.portTimesOut_stays (s : State) {p k : Nat} (port : p < 3) (few : k < 3) (ne : k ≠ p) : PortStays k s (s.portTimesOut p) := by
  unfold State.portTimesOut
  split
  next training =>
    have failed := s.portFails_failed port (cause := s.portState p) (by omega)
    obtain ⟨state, cause⟩ := failed.other k few ne
    exact ⟨state, cause, State.portEnabled_congr (failed.config _ .ofNumbers .of (by decide))
      (failed.config _ .ofNumbers .of (by decide)) k⟩
  next => exact .refl

theorem State.portsTimeOut_stays (s : State) {l : List Nat} {k : Nat} (few : k < 3) (ports : ∀ p ∈ l, p < 3 ∧ k ≠ p) :
    PortStays k s (l.foldl State.portTimesOut s) := by
  induction l generalizing s with
  | nil => exact .refl
  | cons p l ih =>
    obtain ⟨port, ne⟩ := ports p List.mem_cons_self
    exact (s.portTimesOut_stays port few ne).trans (ih _ fun p listed => ports p (List.mem_cons_of_mem _ listed))

/-- A port of the list that is in use and in training fails, with its state as the cause. -/
theorem State.portsTimeOut_fails (s : State) {l : List Nat} {k : Nat} (once : l.Nodup) (listed : k ∈ l) (ports : ∀ p ∈ l, p < 3)
    (enabled : s.portEnabled k = true) (training : 1 ≤ s.portState k ∧ s.portState k ≤ 5) :
    (l.foldl State.portTimesOut s).portState k = 7 ∧
      (l.foldl State.portTimesOut s).get (Reg.CSC_PORT_CAUSE k) = s.portState k := by
  have few := ports k listed
  induction l generalizing s with
  | nil => exact absurd listed List.not_mem_nil
  | cons p l ih =>
    obtain ⟨absent, once⟩ := List.nodup_cons.mp once
    have rest (q : Nat) (listed : q ∈ l) : q < 3 := ports q (List.mem_cons_of_mem _ listed)
    by_cases same : k = p
    · subst same
      have fails : s.portTimesOut k = s.portFails k (s.portState k) := if_pos ⟨enabled, training⟩
      have failed := s.portFails_failed few (cause := s.portState k) (by omega)
      have stays := (s.portTimesOut k).portsTimeOut_stays few (l := l)
        fun q listed => ⟨rest q listed, fun same => absent (same ▸ listed)⟩
      rw [fails] at stays
      rw [List.foldl_cons, fails]
      exact ⟨stays.state.trans failed.state, stays.cause.trans failed.shown⟩
    · have stays := s.portTimesOut_stays (ports p List.mem_cons_self) few same
      have fails := ih (s.portTimesOut p) once ((List.mem_cons.mp listed).resolve_left same) rest (stays.enabled.trans enabled)
        (stays.state.symm ▸ training)
      exact ⟨fails.1, fails.2.trans stays.state⟩

/-! ### The steps together -/

theorem stepFields_apart {g : Field} (clear : ∀ f ∈ [Reg.BWT_BOOT_SLOT, Reg.BWT_BOOT_SVN, Reg.HST_STATUS_READY,
    Reg.PWR_BRINGUP_STEP], f.Clear g := by decide) :
    ∀ f ∈ [Reg.BWT_BOOT_SLOT, Reg.BWT_BOOT_SVN, Reg.HST_STATUS_READY, Reg.PWR_BRINGUP_STEP], f.Apart g := clear

theorem noImageFields_apart {g : Field} (clear : ∀ f ∈ domainFields ++ [pllBits] ++ [Reg.PWR_BRINGUP_FAIL_STEP,
    Reg.PWR_BRINGUP_FAIL_CODE], f.Clear g := by decide) :
    ∀ f ∈ domainFields ++ [pllBits] ++ [Reg.PWR_BRINGUP_FAIL_STEP, Reg.PWR_BRINGUP_FAIL_CODE], f.Apart g := clear

/-- What the device shows after both slots have been refused. -/
structure BothRefused (fault0 fault1 : Nat) (t : State) : Prop where
  fault0 : t.get Reg.BWT_BOOT_FAIL0 = fault0
  fault1 : t.get Reg.BWT_BOOT_FAIL1 = fault1
  ready : t.get Reg.HST_STATUS_READY = 0
  step : t.get Reg.PWR_BRINGUP_FAIL_STEP = 2
  code : t.get Reg.PWR_BRINGUP_FAIL_CODE = 3
  aonOnly : t.pwr.aonOnly = true
  dark : ∀ d, 1 ≤ d → d ≤ 15 → t.domainOn d = false

theorem State.noImage_refused {s : State} {fault0 fault1 : Nat} (shown0 : s.get Reg.BWT_BOOT_FAIL0 = fault0)
    (shown1 : s.get Reg.BWT_BOOT_FAIL1 = fault1) (waits : s.get Reg.HST_STATUS_READY = 0)
    (first : s.get Reg.PWR_BRINGUP_FAIL_STEP = 0) : BothRefused fault0 fault1 s.noImage :=
  let dark := State.noImage_dark first
  { fault0 := (dark.regs _ .of noImageFields_apart).trans shown0
    fault1 := (dark.regs _ .of noImageFields_apart).trans shown1
    ready := (dark.regs _ .ofNumbers noImageFields_apart).trans waits
    step := dark.step
    code := dark.code
    aonOnly := dark.aonOnly
    dark := dark.dark }

/-- BOOT_IMAGE_VERIFY with two images that fail. -/
theorem execBootImageVerify_refuses {s : State} {read0 read1 : Bool} {image0 image1 : List Byte} {fault0 fault1 : Nat}
    (is0 : imageFault s.pwr.keyHash (s.get Reg.BWT_SVN_REQ_OTP) (readSlot read0 image0) = fault0)
    (is1 : imageFault s.pwr.keyHash (s.get Reg.BWT_SVN_REQ_OTP) (readSlot read1 image1) = fault1)
    (step : s.get Reg.PWR_BRINGUP_STEP = 2) (ctl : s.domainOn 1 = true) (waits : s.get Reg.HST_STATUS_READY = 0)
    (first : s.get Reg.PWR_BRINGUP_FAIL_STEP = 0) (bad0 : fault0 ≠ 0) (bad1 : fault1 ≠ 0) :
    Acts (.bootImageVerify read0 read1 image0 image1) s (BothRefused fault0 fault1) := by
  have four0 : fault0 < 2 ^ 4 := is0 ▸ imageFault_lt ..
  have four1 : fault1 < 2 ^ 4 := is1 ▸ imageFault_lt ..
  rcases lt_or_ge (slotSvn (readSlot read0 image0)) (slotSvn (readSlot read1 image1)) with newer | newer
  · refine ⟨((s.put (failField 1) fault1).put (failField 0) fault0).noImage,
      (execBootImageVerify_chooses step ctl waits (.inl ⟨newer, rfl, rfl, rfl, rfl⟩)).trans ?_, State.noImage_refused ?_ ?_ ?_ ?_⟩
    · subst is0 is1
      exact (if_neg bad1).trans (if_neg bad0)
    · exact State.get_put_same _ _ _ ⟨by decide, by decide⟩ four0
    · exact (State.get_put_apart _ _ .of).trans (State.get_put_same _ _ _ ⟨by decide, by decide⟩ four1)
    · exact (State.get_put_apart _ _ .of).trans ((State.get_put_apart _ _ .of).trans waits)
    · exact (State.get_put_apart _ _ .of).trans ((State.get_put_apart _ _ .of).trans first)
  · refine ⟨((s.put (failField 0) fault0).put (failField 1) fault1).noImage,
      (execBootImageVerify_chooses step ctl waits (.inr ⟨newer, rfl, rfl, rfl, rfl⟩)).trans ?_, State.noImage_refused ?_ ?_ ?_ ?_⟩
    · subst is0 is1
      exact (if_neg bad0).trans (if_neg bad1)
    · exact (State.get_put_apart _ _ .of).trans (State.get_put_same _ _ _ ⟨by decide, by decide⟩ four0)
    · exact State.get_put_same _ _ _ ⟨by decide, by decide⟩ four1
    · exact (State.get_put_apart _ _ .of).trans ((State.get_put_apart _ _ .of).trans waits)
    · exact (State.get_put_apart _ _ .of).trans ((State.get_put_apart _ _ .of).trans first)

/-! ### Steps 1 and 2 -/

/-- R513: PWR_OK is high. -/
def State.supplied (s : State) : State := { s with pwr := { s.pwr with ok := true, okAt := s.aon } }

/-- R513: the reference has appeared. -/
def State.referenced (s : State) : State :=
  ((s.put Reg.PWR_CLK_STATUS_REF 1).put Reg.PWR_BRINGUP_FAIL_STEP 0).put Reg.PWR_BRINGUP_FAIL_CODE 0

theorem State.referenced_regs (s : State) :
    RegsBut [Reg.PWR_CLK_STATUS_REF, Reg.PWR_BRINGUP_FAIL_STEP, Reg.PWR_BRINGUP_FAIL_CODE] s s.referenced :=
  RegsBut.trans (RegsBut.trans (RegsBut.put s _ _) (RegsBut.put _ _ _)) (RegsBut.put _ _ _)

theorem State.referenced_ref (s : State) : s.referenced.get Reg.PWR_CLK_STATUS_REF = 1 :=
  (State.get_put_apart _ _ .of).trans ((State.get_put_apart _ _ .of).trans
    (s.get_put_same Reg.PWR_CLK_STATUS_REF 1 ⟨by decide, by decide⟩ (by decide)))

theorem State.referenced_kept (s : State) : Kept [.regs] s s.referenced :=
  .of (State.put_kept ..) (.of (State.put_kept ..) (.of (State.put_kept ..) .refl))

/-- R513: step 1 is done, with OTP read and checked. -/
def State.stepOneDone (s : State) : State := { s with pwr := { s.pwr with step1 := true } }

theorem State.stepOneDone_get (s : State) (g : Field) : s.stepOneDone.get g = s.get g := rfl

theorem State.stepOneDone_step1 (s : State) : s.stepOneDone.pwr.step1 = true := rfl

theorem State.stepOneDone_starts {s : State} {g : Field} (apart : Reg.PWR_BRINGUP_STEP.Apart g) :
    s.stepOneDone.startBoot.get g = s.get g := (State.startBoot_get_apart _ apart).trans (s.stepOneDone_get g)

/-- REFERENCE_PRESENT in step 1. -/
theorem execReferencePresent_eq {s : State} (ok : s.pwr.ok = true) (waits : s.pwr.step1 = false)
    (step : s.get Reg.PWR_BRINGUP_STEP = 1) (code : s.get Reg.PWR_BRINGUP_FAIL_CODE ≠ 2) (good : Bool) :
    exec (.referencePresent good) s = if good = true
      then .next s.referenced.stepOneDone.startBoot
      else .next ((s.referenced.put Reg.PWR_BRINGUP_FAIL_STEP 1).put Reg.PWR_BRINGUP_FAIL_CODE 2) :=
  if_pos ⟨ok, by simp [waits], step, code⟩

/-- Settles O8: each step by the lemma of what it does (`BootStarts`, `Boots`, `NoImage`, `BringupEnds`, `portsTimeOut_fails`). -/
theorem powerOkAndBringUpSteps : Obligations.power_ok_and_bring_up_steps := by
  unfold Obligations.power_ok_and_bring_up_steps
  intro s
  refine ⟨fun off absent => ?_, fun ok waits step code => ?_, fun ok waits step code => ?_,
    fun low ok step1 free unprotected => ?_, fun up high => ?_,
    fun read0 read1 image0 image1 slot0 slot1 is0 is1 step ctl waits order good => ?_,
    fun read0 read1 image0 image1 slot0 slot1 is0 is1 step ctl waits order good => ?_,
    fun read0 read1 image0 image1 slot0 slot1 is0 is1 step ctl waits order bad good => ?_,
    fun read0 read1 image0 image1 slot0 slot1 is0 is1 step ctl waits first bad => ?_,
    fun step ready off requested free ended => ?_, fun step late lit first => ?_, fun p step late enabled training => ?_⟩
  · refine ⟨((s.supplied.put Reg.PWR_BRINGUP_STEP 1).put Reg.PWR_BRINGUP_FAIL_STEP 1).put
      Reg.PWR_BRINGUP_FAIL_CODE 1, ?_, rfl, rfl, ?_, ?_, ?_, ?_, ?_⟩
    · show execPwrOkRise s = _
      unfold execPwrOkRise
      rw [if_neg (by simp [off])]
      refine congrArg Host.Outcome.next (if_neg ?_)
      have dark := s.supplied.get_put_apart (f := Reg.PWR_BRINGUP_STEP)
        (g := Reg.PWR_CLK_STATUS_REF) 1 .of
      exact fun on => of_decide_eq_true on (dark.trans absent)
    · exact (State.get_put_apart _ _ .of).trans ((State.get_put_apart _ _ .of).trans
        (State.get_put_same _ _ _ ⟨by decide, by decide⟩ (by decide)))
    · exact (State.get_put_apart _ _ .of).trans (State.get_put_same _ _ _ ⟨by decide, by decide⟩ (by decide))
    · exact State.get_put_same _ _ _ ⟨by decide, by decide⟩ (by decide)
    · exact .of_kept (.of (State.put_kept ..) (.of (State.put_kept ..) (.of (State.put_kept ..) (.upd [.pwr] .refl))))
    · exact RegsBut.trans (RegsBut.trans (RegsBut.put s.supplied _ _) (RegsBut.put _ _ _)) (RegsBut.put _ _ _)
  · refine ⟨_, (execReferencePresent_eq ok waits step code true).trans (if_pos rfl), ?_, ?_, ?_, ?_, ?_⟩
    · rw [State.startBoot_step1, State.stepOneDone_step1]
    · exact (State.stepOneDone_starts .of).trans s.referenced_ref
    · exact (State.stepOneDone_starts .of).trans (State.get_put_same _ _ _ ⟨by decide, by decide⟩ (by decide))
    · exact .of_kept (.of (State.startBoot_kept _) (.upd [.pwr] (.of s.referenced_kept .refl)))
    · intro g quiet apart
      exact (State.stepOneDone_starts (apart _ (by simp))).trans (s.referenced_regs g quiet fun f listed =>
        apart f (by simp at listed ⊢; tauto))
  · refine ⟨_, (execReferencePresent_eq ok waits step code false).trans (if_neg (by decide)), rfl, ?_, ?_, ?_, ?_⟩
    · exact (State.get_put_apart _ _ .of).trans ((State.get_put_apart _ _ .of).trans s.referenced_ref)
    · exact (State.get_put_apart _ _ .of).trans (State.get_put_same _ _ _ ⟨by decide, by decide⟩ (by decide))
    · exact State.get_put_same _ _ _ ⟨by decide, by decide⟩ (by decide)
    · exact .of_kept (.of (State.put_kept ..) (.of (State.put_kept ..) s.referenced_kept))
  · let t : State := { s with host := { s.host with perstLow := false } }
    have starts := State.startBoot_starts (s := t) (by simp [t, ok, step1, free, unprotected])
    refine ⟨t.startBoot, congrArg Host.Outcome.next (if_pos low), congrArg HostState.perstLow (t.startBoot_kept.host),
      starts.step, starts.time, starts.requested,
      .of_kept (.of starts.kept (.upd [.host] .refl)), starts.regs⟩
  · exact ⟨_, congrArg Host.Outcome.next (if_pos ⟨up, by simp [high]⟩), rfl, .of_kept (.upd [.host] .refl)⟩
  · subst is0 is1
    have boots := s.firmwareRuns_boots (slot := 0) (by decide) (slotSvn_lt (readSlot read0 image0))
    refine ⟨_, (execBootImageVerify_chooses step ctl waits (.inr ⟨order, rfl, rfl, rfl, rfl⟩)).trans (if_pos good), boots.slot,
      boots.svn, boots.ready, boots.step, boots.time, .of_kept boots.kept⟩
  · subst is0 is1
    have boots := s.firmwareRuns_boots (slot := 1) (by decide) (slotSvn_lt (readSlot read1 image1))
    refine ⟨_, (execBootImageVerify_chooses step ctl waits (.inl ⟨order, rfl, rfl, rfl, rfl⟩)).trans (if_pos good), boots.slot,
      boots.svn, boots.ready, boots.step, boots.time, .of_kept boots.kept⟩
  · subst is0 is1
    let fault := imageFault s.pwr.keyHash (s.get Reg.BWT_SVN_REQ_OTP) (readSlot read1 image1)
    have boots := (s.put (failField 1) fault).firmwareRuns_boots (slot := 0) (by decide) (slotSvn_lt (readSlot read0 image0))
    have noted := raise_noted ((s.put (failField 1) fault).firmwareRuns 0 (slotSvn (readSlot read0 image0))) 0x1209
      [(4, 0), (4, fault)]
    refine ⟨_, (execBootImageVerify_chooses step ctl waits (.inl ⟨order, rfl, rfl, rfl, rfl⟩)).trans
      ((if_neg bad).trans (if_pos good)), (noted.quiet _ .of).trans boots.slot, (noted.quiet _ .of).trans boots.svn, ?_,
      (noted.quiet _ .ofNumbers).trans boots.ready, (noted.quiet _ .of).trans boots.step⟩
    exact (noted.quiet _ .of).trans ((boots.regs _ .of stepFields_apart).trans
      (s.get_put_same Reg.BWT_BOOT_FAIL1 fault ⟨by decide, by decide⟩ (imageFault_lt ..)))
  · subst is0 is1
    obtain ⟨t, runs, refused⟩ := execBootImageVerify_refuses rfl rfl step ctl waits first bad.1 bad.2
    exact ⟨t, runs, refused.fault0, refused.fault1, refused.ready, refused.step, refused.code, refused.aonOnly, refused.dark⟩
  · obtain ⟨t, runs, ends⟩ := execBringupDone_ends step ready off requested free ended
    exact ⟨t, runs, ends.done, ends.step, ends.warm⟩
  · have dark := State.noImage_dark first
    exact ⟨_, if_pos ⟨step, late, by simp [lit]⟩, dark.step, dark.code, dark.aonOnly, dark.dark⟩
  · have stays := s.chainsTimeOut_spares.portStays p.isLt
    obtain ⟨state, cause⟩ := ((List.range 128).foldl State.chainTimesOut s).portsTimeOut_fails (l := List.range 3) List.nodup_range
      (List.mem_range.mpr p.isLt) (fun _ => List.mem_range.mp) (stays.enabled.trans enabled) (stays.state.symm ▸ training)
    rw [← State.trainingLimit_eq] at state cause
    exact ⟨_, (if_neg (by simp [step])).trans (if_pos ⟨.inl step, late⟩), state, cause.trans stays.state⟩

end Sys2Proof.Machine
end

section
/-! PROOFS. Packets of the trace, and the port and the ring that take or drop them (R519 to R524). -/
namespace Sys2Proof.Machine
set_option Elab.async false

/-! ### Packets -/

theorem tracePacket_length (src seq tide : Nat) {payload : List Byte} (few : payload.length ≤ 40) :
    (tracePacket src seq tide payload).length = if payload.length ≤ 8 then 16 else if payload.length ≤ 24 then 32 else 48 := by
  unfold tracePacket
  simp only [List.length_append, leBytes_length', List.length_replicate]
  split_ifs <;> omega

theorem State.syncPayload_length (s : State) : s.syncPayload.length = 24 := by
  simp [State.syncPayload, leBytes_length']

/-- R519, R520: a SYNC packet with a SEQ. -/
def State.syncPacket (s : State) (seq : Nat) : List Byte :=
  leBytes 1 1 ++ leBytes 1 1 ++ leBytes 2 seq ++ leBytes 4 s.tide ++ leBytes 4 (s.tide / 2 ^ 32) ++
    leBytes 2 (s.get Reg.TIM_STATUS_EPOCH) ++ leBytes 2 0 ++ leBytes 8 s.headTime ++ leBytes 8 s.ptpTime

theorem State.syncPacket_eq (s : State) (seq : Nat) : tracePacket 1 seq s.tide s.syncPayload = s.syncPacket seq := by
  unfold tracePacket
  simp only [s.syncPayload_length]
  simp [State.syncPayload, State.syncPacket, leBytes_length']

theorem State.syncPacket_length (s : State) (seq : Nat) : (s.syncPacket seq).length = 32 := by
  simp [State.syncPacket, leBytes_length']

theorem TraceDest.offered_first {d : TraceDest} (none : d.lost = 0) (src tide : Nat) (payload : List Byte) :
    d.offered src tide payload = (tracePacket src d.seq tide payload, d.seq) := by
  simp [TraceDest.offered, none]

theorem TraceDest.hasRoom_of {d : TraceDest} {n : Nat} {bytes : List Byte} (size : bytes.length = n)
    (room : d.fill + 400 * n ≤ 400 * 262144) (rate now : Nat) : d.hasRoom rate now bytes = true := by
  have less : d.left rate now ≤ d.fill := Nat.sub_le ..
  exact decide_eq_true (by omega)

/-! ### The trace port -/

/-- The trace port has taken bytes. -/
def State.portTook (s : State) (bytes : List Byte) (seq : Nat) : State :=
  { s with regs := countPackets s.regs (cntObs 0) s.obs.port.lost,
           obs := { s.obs with port := s.obs.port.takes 1000 s.tide bytes seq } }

theorem State.portTook_kept (s : State) (bytes : List Byte) (seq : Nat) : Kept [.regs, .obs] s (s.portTook bytes seq) :=
  .upd [.regs, .obs] .refl rfl rfl (.inr fun wf => countPackets_wf _ _ wf)

theorem State.packetToPort_takes {s : State} {src n : Nat} {payload : List Byte} (none : s.obs.port.lost = 0)
    (size : (tracePacket src s.obs.port.seq s.tide payload).length = n) (room : s.obs.port.fill + 400 * n ≤ 400 * 262144) :
    s.packetToPort src payload = s.portTook (tracePacket src s.obs.port.seq s.tide payload) s.obs.port.seq := by
  unfold State.packetToPort
  extract_lets d p
  have offer : p = (tracePacket src s.obs.port.seq s.tide payload, s.obs.port.seq) := TraceDest.offered_first none ..
  rw [if_pos (by rw [offer]; exact TraceDest.hasRoom_of size room ..), offer]
  rfl

/-- The trace port has dropped a packet. -/
def State.portDropped (s : State) : State :=
  { s with regs := (rfCount s.regs (cntObs 2)).1, obs := { s.obs with port := s.obs.port.drops } }

theorem State.packetToPort_drops {s : State} {src : Nat} {payload : List Byte}
    (full : s.obs.port.hasRoom 1000 s.tide (s.obs.port.offered src s.tide payload).1 = false) :
    s.packetToPort src payload = s.portDropped := if_neg (by simp [full])

/-- Only the port is enabled: a packet of a present source goes to it. -/
theorem State.trace_port {s : State} {src : Nat} (port : s.get Reg.OBS_CTRL_PORT_EN = 1) (ring : s.get Reg.OBS_CTRL_RING_EN = 0)
    (present : sourcePresent (s.get Reg.OBS_SRC_PORT_MASK) src = true) (payload : List Byte) :
    s.trace src payload = s.packetToPort src payload := by
  have off : (s.packetToPort src payload).get Reg.OBS_CTRL_RING_EN = 0 := ((packetToPort_noted ..).quiet _ .of).trans ring
  unfold State.trace
  extract_lets t
  have taken : t = s.packetToPort src payload := if_pos (by simp [State.on, port, present])
  rw [if_neg (by simp [State.on, taken, off]), taken]

/-- Only the ring is enabled: a packet of a present source goes to it. -/
theorem State.trace_ring {s : State} {src : Nat} (port : s.get Reg.OBS_CTRL_PORT_EN = 0) (ring : s.get Reg.OBS_CTRL_RING_EN = 1)
    (present : sourcePresent (s.get Reg.OBS_SRC_RING_MASK) src = true) (payload : List Byte) :
    s.trace src payload = s.packetToRing src payload := by
  unfold State.trace
  extract_lets t
  have kept : t = s := if_neg (by simp [State.on, port])
  rw [kept, if_pos (by simp [State.on, ring, present])]

/-! ### The trace ring -/

/-- Bytes that do not pass the end of the ring lie there one after the other. -/
theorem ringBytes_eq_writeBytes (m : Memory) (base : Nat) {size off : Nat} {l : List Byte} (within : off + l.length ≤ size) :
    ringBytes m base size off l = m.writeBytes (base + off) l := by
  induction l generalizing m off with
  | nil => rfl
  | cons b l ih =>
    rw [List.length_cons] at within
    rw [ringBytes, ih _ (by omega), Nat.mod_eq_of_lt (by omega)]
    rfl

/-- The trace ring takes a SYNC packet. -/
theorem State.packetToRing_takes {s : State} (none : s.obs.ring.lost = 0) (live : s.get Reg.OBS_STATUS_RING_FROZEN = 0)
    (unfired : s.get Reg.OBS_STATUS_TRIGGERED = 0) (link : s.get Reg.HST_STATUS_LINK_UP = 1) (awake : s.host.d3hot = false)
    (fits : s.get Reg.OBS_RING_CFG_MODE = 1 ∨
      32 ≤ ringRoom (2 ^ s.get Reg.OBS_RING_CFG_SIZE) (s.get Reg.OBS_RING_WR_OFF) (s.get Reg.OBS_RING_RD_OFF))
    (room : s.obs.ring.fill + 400 * 32 ≤ 400 * 262144) :
    s.packetToRing 1 s.syncPayload = s.ringAccept (s.syncPacket s.obs.ring.seq) s.obs.ring.seq := by
  unfold State.packetToRing
  extract_lets d p r f
  have offer : p = (s.syncPacket s.obs.ring.seq, s.obs.ring.seq) :=
    (TraceDest.offered_first none ..).trans (by rw [State.syncPacket_eq])
  have size : p.1.length = 32 := by rw [offer, State.syncPacket_length]
  have fit : f = true := by
    simp only [f, Bool.and_eq_true, Bool.or_eq_true, decide_eq_true_eq]
    exact ⟨fits.imp (fun mode => by simp [State.on, mode]) fun wide => by omega, TraceDest.hasRoom_of size room ..⟩
  rw [if_neg (by simp [State.on, live, unfired]), if_pos (by simp [State.on, link, awake, fit]), offer]

theorem State.packetToRing_drops {s : State} {src : Nat} {payload : List Byte} (live : s.get Reg.OBS_STATUS_RING_FROZEN = 0)
    (unfired : s.get Reg.OBS_STATUS_TRIGGERED = 0) (stream : s.get Reg.OBS_RING_CFG_MODE = 0)
    (full : ringRoom (2 ^ s.get Reg.OBS_RING_CFG_SIZE) (s.get Reg.OBS_RING_WR_OFF) (s.get Reg.OBS_RING_RD_OFF) <
      (s.obs.ring.offered src s.tide payload).1.length) : s.packetToRing src payload = s.ringDrop := by
  unfold State.packetToRing
  extract_lets d p r f
  have unfit : f = false := by
    simp only [f, Bool.and_eq_false_iff, Bool.or_eq_false_iff, decide_eq_false_iff_not]
    exact .inl ⟨by simp [State.on, stream], not_le.mpr full⟩
  rw [if_neg (by simp [State.on, live, unfired]), if_neg (by simp [unfit])]

theorem TraceDest.offered_length (d : TraceDest) (src tide : Nat) {payload : List Byte} (size : payload.length = 24) :
    32 ≤ (d.offered src tide payload).1.length := by
  rw [TraceDest.offered, List.length_append, tracePacket_length _ _ _ (by omega), size]
  simp

/-- A SYNC packet that the ring has taken, from its offset. -/
theorem State.ringAccept_hostMem {s : State} {bytes : List Byte} (seq : Nat) (shadow : s.get Reg.OBS_RING_SHADOW_ADDR = 0)
    (within : s.get Reg.OBS_RING_WR_OFF + bytes.length ≤ 2 ^ s.get Reg.OBS_RING_CFG_SIZE) : (s.ringAccept bytes seq).hostMem =
      s.hostMem.writeBytes (4096 * s.get Reg.OBS_RING_BASE_BASE + s.get Reg.OBS_RING_WR_OFF) bytes := by
  rw [← ringBytes_eq_writeBytes _ _ within]
  exact if_pos (by simp [shadow])

theorem State.ringAccept_offset (s : State) (bytes : List Byte) (seq : Nat) : (s.ringAccept bytes seq).get Reg.OBS_RING_WR_OFF =
    (s.get Reg.OBS_RING_WR_OFF + bytes.length) % 2 ^ s.get Reg.OBS_RING_CFG_SIZE % 2 ^ 32 := by
  have off : Field.Off Reg.OBS_RING_WR_OFF (cntObs 1) := .of
  refine (rfGet_countPackets_off _ s.obs.ring.lost off).trans ?_
  exact rfGet_put_same _ _ _ ⟨by decide, by decide⟩

/-! ### DRAM packets (R520) -/

/-- R520: what a DRAM packet says of a channel. -/
def dramPayload (hot ch : Nat) (c : MemChannel) : List Byte :=
  let cap (n : Nat) : Nat := min n 65535
  leBytes 1 ch ++ leBytes 1 (flag (bitAt hot ch) + 2 * flag c.refreshed) ++ leBytes 2 (cap c.feedReads) ++
    leBytes 2 (cap c.otherReads) ++ leBytes 2 (cap c.writes)

theorem dramPayload_length (hot ch : Nat) (c : MemChannel) : (dramPayload hot ch c).length = 8 := by
  simp [dramPayload, leBytes_length']

/-- A DRAM packet of one channel. -/
def State.dramTraced (hot : Nat) (s : State) (ch : Nat) : State := s.trace 12 (dramPayload hot ch (s.mem.channels.getD ch {}))

/-- Only the trace port is enabled, with the DRAM source, and its buffer has room for n more DRAM packets. -/
structure TakesDram (n : Nat) (s : State) : Prop where
  port : s.get Reg.OBS_CTRL_PORT_EN = 1
  ring : s.get Reg.OBS_CTRL_RING_EN = 0
  source : bitAt (s.get Reg.OBS_SRC_PORT_MASK) 9 = true
  none : s.obs.port.lost = 0
  room : s.obs.port.fill + 400 * (16 * n) ≤ 400 * 262144

theorem TakesDram.traced {n hot : Nat} {s : State} (takes : TakesDram (n + 1) s) (ch : Nat) :
    TakesDram n (s.dramTraced hot ch) ∧ (s.dramTraced hot ch).obs.port.seq = (s.obs.port.seq + 1) % 65536 ∧
      Kept [.regs, .obs] s (s.dramTraced hot ch) := by
  obtain ⟨port, ring, source, none, room⟩ := takes
  let payload := dramPayload hot ch (s.mem.channels.getD ch {})
  have size : (tracePacket 12 s.obs.port.seq s.tide payload).length = 16 := by
    rw [tracePacket_length _ _ _ (by rw [dramPayload_length]; decide), dramPayload_length]
    rfl
  have sent : s.dramTraced hot ch = s.packetToPort 12 payload :=
    State.trace_port port ring (by simp [sourcePresent, source]) payload
  have noted : Noted s (s.dramTraced hot ch) := sent ▸ packetToPort_noted ..
  have enough : s.obs.port.fill + 400 * 16 ≤ 400 * 262144 :=
    (Nat.add_le_add_left (Nat.mul_le_mul_left 400 (Nat.le_mul_of_pos_right 16 n.succ_pos)) _).trans room
  have took : s.dramTraced hot ch = s.portTook (tracePacket 12 s.obs.port.seq s.tide payload) s.obs.port.seq := by
    rw [sent]
    exact State.packetToPort_takes none size enough
  refine ⟨⟨(noted.quiet _ .of).trans port, (noted.quiet _ .of).trans ring,
    (congrArg (bitAt · 9) (noted.quiet _ .of)).trans source, by rw [took]; rfl, ?_⟩, by rw [took]; rfl, ?_⟩
  · have less : s.obs.port.left 1000 s.tide ≤ s.obs.port.fill := Nat.sub_le ..
    have fill : (s.dramTraced hot ch).obs.port.fill = s.obs.port.left 1000 s.tide + 400 * 16 := by
      rw [took, ← size]
      rfl
    omega
  · rw [took]
    exact State.portTook_kept ..

theorem TakesDram.fold {hot : Nat} {l : List Nat} {s : State} (takes : TakesDram l.length s) :
    (l.foldl (State.dramTraced hot) s).obs.port.seq = (if l.length = 0 then s.obs.port.seq else (s.obs.port.seq + l.length) % 65536) ∧
      Kept [.regs, .obs] s (l.foldl (State.dramTraced hot) s) := by
  induction l generalizing s with
  | nil => exact ⟨rfl, .refl⟩
  | cons ch l ih =>
    obtain ⟨next, seq, kept⟩ := takes.traced (hot := hot) ch
    obtain ⟨last, rest⟩ := ih next
    refine ⟨last.trans ?_, .of rest kept⟩
    rw [seq, List.length_cons, if_neg (Nat.succ_ne_zero _)]
    split <;> omega

end Sys2Proof.Machine
end

section
/-! PROOFS. Writes of the registers of the trace (R521, R525, R530). -/
namespace Sys2Proof.Machine
set_option Elab.async false

/-! ### A write within a 64-bit register, and a write of one -/

section Written
variable {s : State} {off : Nat} (canon : canonOffset off = off) (up : s.domainOn (domainOf off) = true)
include canon up

/-- A half of a 64-bit register is written: its two words alone change. -/
theorem State.writeWord_half {r : RegRow} {idx : List Nat} {k : Nat} (row : findRow off = some (r, idx, k)) (wide : r.wide = true)
    (v : BitVec 32) : ∃ new, s.writeWord off v = s.pairSet (off - 4 * k) new := by
  unfold State.writeWord
  dsimp only
  rw [canon, up, row]
  simp only [wide, not_true_eq_false, if_true, if_false]
  exact ⟨_, rfl⟩

theorem State.writePair_whole64 {r : RegRow} {idx : List Nat} (row : findRow off = some (r, idx, 0)) (wide : r.wide = true)
    (v : BitVec 64) : s.writePair off v = s.pairSet off (r.written (rfPair s.regs off) v) := by
  unfold State.writePair
  dsimp only
  rw [canon, up, row]
  simp only [wide, not_true_eq_false, if_true, if_false]
  rfl

omit up in
theorem State.writePair_narrow (narrow : NarrowAt off) (v : BitVec 64) :
    s.writePair off v = (s.writeWord off (v.setWidth 32)).writeWord (off + 4) ((v >>> 32).setWidth 32) := by
  unfold State.writePair
  dsimp only
  rw [canon]
  split
  case h_1 r idx row => exact if_neg (Bool.eq_false_iff.1 (narrow _ row).1)
  case h_2 => rfl

end Written

/-- What a 64-bit write of a 64-bit register leaves (R13). -/
theorem wrote_wide_iff {off : Nat} {r : RegRow} {idx : List Nat} {k : Nat} (row : findRow off = some (r, idx, k))
    (wide : r.wide = true) (row' : ∃ x ∈ findRow (off + 4), x.1.wide = true) (v : BitVec 64) (s t : State) :
    Wrote off true v s t ↔ ∀ f ∈ r.fields, t.get ⟨off, f.lo, f.width⟩ =
      f.rule (s.get ⟨off, f.lo, f.width⟩) (bvField v f.lo f.width) := by
  constructor
  · intro wrote
    exact (wrote 0 (Nat.zero_le _) r idx k row).2 wide rfl rfl
  · intro fields h le r' idx' k' there
    rcases Nat.le_one_iff_eq_zero_or_eq_one.1 le with rfl | rfl
    · obtain ⟨rfl, -⟩ := Prod.mk.inj (Option.some.inj (row.symm.trans there))
      exact ⟨fun one => absurd wide (Bool.eq_false_iff.1 one), fun _ _ _ => fields⟩
    · obtain ⟨x, second, isWide⟩ := row'
      obtain rfl : x = (r', idx', k') := Option.some.inj (second.symm.trans there)
      exact ⟨fun one => absurd isWide (Bool.eq_false_iff.1 one), fun _ _ low => absurd low (by decide)⟩

/-- A 32-bit write of a 64-bit register leaves no register of one word written. -/
theorem wrote_half {off : Nat} (row : ∃ x ∈ findRow off, x.1.wide = true) (v : BitVec 64) (s t : State) : Wrote off false v s t := by
  intro h le r idx k there
  obtain ⟨x, here, isWide⟩ := row
  obtain rfl : h = 0 := Nat.le_zero.1 le
  obtain rfl : x = (r, idx, k) := Option.some.inj (here.symm.trans there)
  exact ⟨fun one => absurd isWide (Bool.eq_false_iff.1 one), nofun⟩

theorem State.pairSet_wrote {off : Nat} {r : RegRow} {idx : List Nat} {k : Nat} (row : findRow off = some (r, idx, k))
    (wide : r.wide = true) (row' : ∃ x ∈ findRow (off + 4), x.1.wide = true) (fits : ∀ f ∈ r.fields, f.lo + f.width ≤ 64)
    (apart : r.fields.Pairwise fun f g => f.lo + f.width ≤ g.lo ∨ g.lo + g.width ≤ f.lo) (s : State) (v : BitVec 64) :
    Wrote off true v s (s.pairSet off (r.written (rfPair s.regs off) v)) :=
  (wrote_wide_iff row wide row' v _ _).mpr fun f hf => by
    rw [State.get, State.get, rfGet_eq_pair _ (fits f hf), rfGet_eq_pair _ (fits f hf), State.rfPair_pairSet]
    exact FieldRow.bvField_fold fits apart _ v hf

theorem State.pairSet_get (s : State) {off : Nat} (x : BitVec 64) {g : Field} (apart : Field.Apart ⟨off, 0, 64⟩ g) :
    (s.pairSet off x).get g = s.get g :=
  rfGet_of_words (by decide) apart fun o outside => by
    rw [State.pairSet, rfWord_set, if_neg (by omega), rfWord_set, if_neg (by omega)]

/-! ### The block of the trace's registers -/

/-- An offset of the trace's registers. -/
def inTrace (off : Nat) : Prop := 0x01500000 ≤ off ∧ off < 0x01500100

theorem canonOffset_of_inTrace {off : Nat} (inside : inTrace off) : canonOffset off = off := by
  obtain ⟨low, high⟩ := inside
  exact if_neg (by omega)

theorem domainOf_of_inTrace {off : Nat} (inside : inTrace off) : domainOf off = 1 := by
  obtain ⟨low, high⟩ := inside
  have blk : off / 0x10000 = 0x150 := by omega
  unfold domainOf
  simp [blk]

end Sys2Proof.Machine
end

section
/-! PROOFS. The trace: its packets, its ring and the writes of its registers put together (R520 to R530). -/
namespace Sys2Proof.Machine
set_option Elab.async false

section Trace
variable {s : State} {off : Nat} (inside : inTrace off) (up : s.domainOn 1 = true)
include inside up

theorem State.writeWord_trace (narrow : NarrowAt off) (v : BitVec 32) : WordWritten off v s (s.writeWord off v) :=
  s.writeWord_written v (canonOffset_of_inTrace inside) (fun _ _ _ row => narrow _ row)
    (by rw [domainOf_of_inTrace inside]; exact up)

omit up in
theorem WordWritten.domainOn_trace {v : BitVec 32} {t : State} (w : WordWritten off v s t) (d : Nat) :
    t.domainOn d = s.domainOn d := by
  obtain ⟨low, high⟩ := inside
  have same : t.get Reg.PWR_DOMAIN_STATUS_ON = s.get Reg.PWR_DOMAIN_STATUS_ON :=
    w.get_other (by decide) (show (_ : Nat) ≠ off by omega)
  rw [State.domainOn, State.domainOn, same]

theorem State.writeWord_halfTrace {r : RegRow} {idx : List Nat} {k : Nat} (row : findRow off = some (r, idx, k))
    (wide : r.wide = true) (v : BitVec 32) : ∃ new, s.writeWord off v = s.pairSet (off - 4 * k) new :=
  State.writeWord_half (canonOffset_of_inTrace inside) (by rw [domainOf_of_inTrace inside]; exact up) row wide v

theorem State.writePair_trace (wide : WideAt off) (v : BitVec 64) :
    Wrote off true v s (s.writePair off v) ∧ ∃ new, s.writePair off v = s.pairSet off new := by
  obtain ⟨⟨⟨r, idx, k⟩, row, isWide, rfl, fits, apart⟩, second⟩ := wide
  have written := State.writePair_whole64 (s := s) (canonOffset_of_inTrace inside)
    (by rw [domainOf_of_inTrace inside]; exact up) row isWide v
  rw [written]
  exact ⟨State.pairSet_wrote row isWide second fits apart s v, _, rfl⟩

/-- R13, R433: a write of the trace's registers, whatever its access meets. -/
theorem State.writeAny_trace (inside' : inTrace (off + 4)) {wide : Bool} (meets : Meets off wide) (v : BitVec 64) :
    Wrote off wide v s (s.writeAny off wide v) ∧ SameBut [.regs] s (s.writeAny off wide v) := by
  cases meets with
  | word narrow =>
    have written := State.writeWord_trace inside up narrow (v.setWidth 32)
    exact ⟨WordWritten.wroteNarrow (fun _ _ _ row => narrow _ row) written, written.same⟩
  | words narrow narrow' =>
    have lo := State.writeWord_trace inside up narrow (v.setWidth 32)
    have up' := (lo.domainOn_trace inside 1).trans up
    have hi := State.writeWord_trace inside' up' narrow' ((v >>> 32).setWidth 32)
    rw [State.writeAny, if_pos rfl, State.writePair_narrow (canonOffset_of_inTrace inside) narrow]
    exact ⟨WordWritten.wroteNarrowPair narrow narrow' lo hi, lo.same_trans hi⟩
  | whole whole =>
    obtain ⟨wrote, new, written⟩ := State.writePair_trace inside up whole v
    exact ⟨wrote, (congrArg (SameBut [.regs] s) written).mpr rfl⟩
  | half half =>
    obtain ⟨⟨r, idx, k⟩, row, isWide⟩ := half
    obtain ⟨new, written⟩ := State.writeWord_halfTrace inside up row isWide (v.setWidth 32)
    exact ⟨wrote_half ⟨_, row, isWide⟩ _ _ _, (congrArg (SameBut [.regs] s) written).mpr rfl⟩

end Trace

/-! ### What the accesses meet -/

theorem ringBase_wide : WideAt 0x01500010 := by decide +kernel
theorem ringShadow_wide : WideAt 0x01500028 := by decide +kernel
theorem trig_wide : WideAt 0x01500030 := by decide +kernel
theorem ringCfg_narrow : NarrowAt 0x01500018 ∧ NarrowAt (0x01500018 + 4) := by decide +kernel

theorem WideAt.meets {off : Nat} (wide : WideAt off) (w : Bool) : Meets off w := by
  cases w with
  | false =>
    obtain ⟨⟨x, row, isWide, -⟩, -⟩ := wide
    exact .half ⟨x, row, isWide⟩
  | true => exact .whole wide

theorem meets_ringSetUp {off : Nat} {wide : Bool} (aligned : alignedAccess off wide = true)
    (named : natMem off [0x01500010, 0x01500014, 0x01500018, 0x01500028, 0x0150002C] = true) :
    Meets off wide ∧ inTrace off ∧ inTrace (off + 4) := by
  simp only [alignedAccess, Bool.and_eq_true, Bool.or_eq_true, Bool.not_eq_true', decide_eq_true_eq] at aligned
  have range : 0x01500010 = off ∨ 0x01500014 = off ∨ 0x01500018 = off ∨ 0x01500028 = off ∨ 0x0150002C = off := by
    simpa [natMem] using named
  refine ⟨?_, ⟨by omega, by omega⟩, ⟨by omega, by omega⟩⟩
  rcases range with rfl | rfl | rfl | rfl | rfl
  · exact ringBase_wide.meets wide
  · obtain rfl : wide = false := aligned.2.resolve_right (by decide)
    exact .half ringBase_wide.2
  · obtain ⟨low, high⟩ := ringCfg_narrow
    cases wide with
    | false => exact .word low
    | true => exact .words low high
  · exact ringShadow_wide.meets wide
  · obtain rfl : wide = false := aligned.2.resolve_right (by decide)
    exact .half ringShadow_wide.2

/-! ### OBS_CTRL -/

/-- The row of the register table of OBS_CTRL. -/
def obsCtrlRow : RegRow := ⟨"OBS_CTRL", 0x01500000, [], false, [⟨1, 1, .rw, .const 0, .kept, none⟩, ⟨0, 1, .rw, .const 0, .kept, none⟩]⟩

theorem findRow_obsCtrl : findRow 0x01500000 = some (obsCtrlRow, [], 0) := by decide +kernel

/-- R530: the state after a write of OBS_CTRL. -/
def State.obsSet (s : State) (v : Word) : State := (s.put Reg.OBS_CTRL_RING_EN (v.toNat / 2 % 2)).put Reg.OBS_CTRL_PORT_EN (v.toNat % 2)

/-- The word of OBS_CTRL after a write. -/
def obsWord (old v : Word) : BitVec 32 :=
  (bvPut (bvPut (old.setWidth 64) 1 1 (bvField (v.setWidth 64) 1 1)) 0 1 (bvField (v.setWidth 64) 0 1)).setWidth 32

theorem State.writeWord_obsCtrl {s : State} (up : s.domainOn 1 = true) (v : Word) : s.writeWord 0x01500000 v =
    { s with regs := rfSetWord s.regs 0x01500000 (obsWord (rfWord s.regs 0x01500000) v) } := by
  have canon : canonOffset 0x01500000 = 0x01500000 := canonOffset_of_inTrace ⟨by decide, by decide⟩
  have domain : domainOf 0x01500000 = 1 := domainOf_of_inTrace ⟨by decide, by decide⟩
  unfold State.writeWord
  dsimp only
  rw [canon, domain, up, findRow_obsCtrl]
  rfl

theorem obsWord_bit (old v : Word) {j : Nat} (word : j < 32) :
    (obsWord old v).getLsbD j = if j < 2 then v.getLsbD j else old.getLsbD j := by
  rw [obsWord, BitVec.getLsbD_setWidth, bvPut_bit _ _ _ _ _ (by decide), bvPut_bit _ _ _ _ _ (by decide), BitVec.getLsbD_setWidth,
    bvField_testBit _ _ _ _ (by decide), bvField_testBit _ _ _ _ (by decide), BitVec.getLsbD_setWidth, BitVec.getLsbD_setWidth]
  obtain rfl | rfl | high : j = 0 ∨ j = 1 ∨ 2 ≤ j := by omega
  · simp
  · simp
  · simp [word, show j < 64 by omega, show ¬ j < 2 by omega, show ¬ j < 1 by omega]

theorem testBit_of_div (v : Word) (k : Nat) : (v.toNat / 2 ^ k % 2).testBit 0 = v.getLsbD k := by
  rw [Nat.testBit_zero, ← BitVec.testBit_toNat, Nat.testBit_eq_decide_div_mod_eq, Nat.mod_mod]

theorem State.obsSet_bit (s : State) (v : Word) (p : Nat) : regBit (s.obsSet v).regs p =
    if 8 * 0x01500000 ≤ p ∧ p < 8 * 0x01500000 + 2 then v.getLsbD (p - 8 * 0x01500000) else regBit s.regs p := by
  have port : Reg.OBS_CTRL_PORT_EN.base = 8 * 0x01500000 ∧ Reg.OBS_CTRL_PORT_EN.width = 1 := ⟨rfl, rfl⟩
  have ring : Reg.OBS_CTRL_RING_EN.base = 8 * 0x01500000 + 1 ∧ Reg.OBS_CTRL_RING_EN.width = 1 := ⟨rfl, rfl⟩
  rw [State.obsSet, State.put, State.put, regBit_put _ _ _ _ ⟨by decide, by decide⟩, regBit_put _ _ _ _ ⟨by decide, by decide⟩,
    port.1, port.2, ring.1]
  obtain rfl | rfl | away : p = 8 * 0x01500000 ∨ p = 8 * 0x01500000 + 1 ∨ (p < 8 * 0x01500000 ∨ 8 * 0x01500000 + 2 ≤ p) := by omega
  · rw [if_pos (by omega), if_pos (by omega), Nat.sub_self, ← testBit_of_div, Nat.pow_zero, Nat.div_one]
  · rw [if_neg (by omega), if_pos (by omega), if_pos (by omega), Nat.sub_self, Nat.add_sub_cancel_left, ← testBit_of_div, Nat.pow_one]
  · rw [if_neg (by omega), if_neg (by omega), if_neg (by omega)]

/-- OBS_CTRL is written field by field. -/
theorem State.obsCtrl_get {s : State} (up : s.domainOn 1 = true) (v : Word) {g : Field} (sound : g.Sound) :
    (s.writeWord 0x01500000 v).get g = (s.obsSet v).get g := by
  have bits (p : Nat) : regBit (s.writeWord 0x01500000 v).regs p = regBit (s.obsSet v).regs p := by
    rw [State.obsSet_bit, State.writeWord_obsCtrl up, regBit, regBit, rfWord_set]
    split
    next here =>
      rw [obsWord_bit _ _ (Nat.mod_lt _ (by decide))]
      by_cases low : p % 32 < 2
      · rw [if_pos low, if_pos (by omega), show p - 8 * 0x01500000 = p % 32 by omega]
      · rw [if_neg low, if_neg (by omega), here]
    next there => rw [if_neg (by omega)]
  apply Nat.eq_of_testBit_eq
  intro i
  rw [State.get, State.get, rfGet_testBit _ _ sound, rfGet_testBit _ _ sound, bits]

/-- From s to t, OBS_CTRL has been written. -/
structure ObsWritten (v : Word) (s t : State) : Prop where
  kept : Kept [.regs] s t
  others : ∀ g : Field, (∀ f ∈ [Reg.OBS_CTRL_PORT_EN, Reg.OBS_CTRL_RING_EN], f.Apart g) → t.get g = s.get g
  port : t.get Reg.OBS_CTRL_PORT_EN = v.toNat % 2
  ring : t.get Reg.OBS_CTRL_RING_EN = v.toNat / 2 % 2

theorem State.obsCtrl_obsWritten {s : State} (up : s.domainOn 1 = true) (v : Word) : ObsWritten v s (s.writeWord 0x01500000 v) where
  kept := by
    rw [State.writeWord_obsCtrl up v]
    exact .upd [.regs] .refl rfl rfl (.inr fun wf => cellWf_set _ _ wf)
  others := fun g apart =>
    (State.obsCtrl_get up v (apart _ List.mem_cons_self).2.1).trans ((State.get_put_apart _ _ (apart _ (by simp))).trans (s.get_put_apart _ (apart _ (by simp))))
  port := (State.obsCtrl_get up v ⟨by decide, by decide⟩).trans
    (State.get_put_same _ _ _ ⟨by decide, by decide⟩ (Nat.mod_lt _ (by decide)))
  ring := (State.obsCtrl_get up v ⟨by decide, by decide⟩).trans ((State.get_put_apart _ _ .of).trans
    (State.get_put_same _ _ _ ⟨by decide, by decide⟩ (Nat.mod_lt _ (by decide))))

theorem obsCtrl_apart {g : Field} (clear : ∀ f ∈ [Reg.OBS_CTRL_PORT_EN, Reg.OBS_CTRL_RING_EN], f.Clear g := by decide) :
    ∀ f ∈ [Reg.OBS_CTRL_PORT_EN, Reg.OBS_CTRL_RING_EN], f.Apart g := clear

/-- A SYNC packet depends on the times and on two fields. -/
theorem State.syncPacket_congr {s t : State} (tide : t.tide = s.tide) (head : t.headTime0 = s.headTime0) (clock : t.clock = s.clock)
    (epoch : t.get Reg.TIM_STATUS_EPOCH = s.get Reg.TIM_STATUS_EPOCH)
    (spread : t.get Reg.LNS_REF_CTRL_SSC_APPLIED = s.get Reg.LNS_REF_CTRL_SSC_APPLIED) (seq : Nat) :
    t.syncPacket seq = s.syncPacket seq := by
  unfold State.syncPacket State.headTime State.headOf State.ptpTime
  rw [tide, head, clock, epoch, spread]

/-- What a write of OBS_CTRL does after the register is written: the port starts with a SYNC where it is newly enabled. -/
def State.portStarts (t s : State) : State :=
  if (t.on Reg.OBS_CTRL_PORT_EN && !s.on Reg.OBS_CTRL_PORT_EN) = true then t.packetToPort 1 t.syncPayload else t

/-- The ring starts at 0, with nothing dropped. -/
def State.ringStarts (t : State) : State :=
  let t := (t.put Reg.OBS_RING_WR_OFF 0).put Reg.OBS_RING_RD_OFF 0
  { t with obs := { t.obs with ring := { t.obs.ring with lost := 0 } } }

theorem execObsCtrlWrite_eq (v : Word) (s : State) : exec (.obsCtrlWrite v) s =
    let t := s.writeWord 0x01500000 v
    if (t.on Reg.OBS_CTRL_RING_EN && !s.on Reg.OBS_CTRL_RING_EN) = true then
      .next ((t.portStarts s).ringStarts.packetToRing 1 (t.portStarts s).ringStarts.syncPayload)
    else .next (t.portStarts s) := rfl

end Sys2Proof.Machine
end

section
/-! PROOFS. The trace's obligation (R520 to R530). -/
namespace Sys2Proof.Machine
set_option Elab.async false

theorem State.portTook_regs (s : State) (bytes : List Byte) (seq : Nat) : RegsBut [] s (s.portTook bytes seq) :=
  fun _ quiet _ => rfGet_countPackets_off s.regs _ (quiet.obs 0 (by decide))

theorem State.portDropped_regs (s : State) : RegsBut [⟨cntObs 2, 0, 64⟩] s s.portDropped :=
  fun _ quiet _ => rfGet_count_off s.regs (quiet.obs 2 (by decide))

theorem State.ringDrop_regs (s : State) : RegsBut [⟨cntObs 3, 0, 64⟩] s s.ringDrop :=
  fun _ quiet _ => rfGet_count_off s.regs (quiet.obs 3 (by decide))

theorem State.portDropped_kept (s : State) : Kept [.regs, .obs] s s.portDropped :=
  .upd [.regs, .obs] .refl rfl rfl (.inr fun wf => rfCount_wf _ wf)

/-- The trace port takes a SYNC packet. -/
theorem State.packetToPort_sync {s : State} (none : s.obs.port.lost = 0) (room : s.obs.port.fill + 400 * 32 ≤ 400 * 262144) :
    s.packetToPort 1 s.syncPayload = s.portTook (s.syncPacket s.obs.port.seq) s.obs.port.seq := by
  have size : (tracePacket 1 s.obs.port.seq s.tide s.syncPayload).length = 32 := by
    rw [State.syncPacket_eq, State.syncPacket_length]
  have took := State.packetToPort_takes none size room
  rwa [State.syncPacket_eq] at took

theorem execTraceSync_traces {s : State} (due : s.tide % 2 ^ 20 = 0) (up : s.domainOn 1 = true) :
    exec .traceSync s = .next (s.trace 1 s.syncPayload) := congrArg Host.Outcome.next (if_pos ⟨due, up⟩)

theorem execTraceDramSample_traces {s : State} (up : s.domainOn 1 = true) : exec .traceDramSample s =
    let t := (List.range 6).foldl (State.dramTraced (s.get Reg.MEM_STATUS_HOT)) s
    .next { t with mem := { t.mem with channels := t.mem.channels.map fun (c : MemChannel) =>
      { c with refreshed := false, feedReads := 0, otherReads := 0, writes := 0 } } } :=
  if_neg (by simp [up])

/-! ### The ring from its start -/

theorem State.ringStarts_puts (t : State) (g : Field) :
    t.ringStarts.get g = ((t.put Reg.OBS_RING_WR_OFF 0).put Reg.OBS_RING_RD_OFF 0).get g := rfl

theorem State.ringStarts_get (t : State) {g : Field} (apart : ∀ f ∈ [Reg.OBS_RING_WR_OFF, Reg.OBS_RING_RD_OFF], f.Apart g) :
    t.ringStarts.get g = t.get g := by
  rw [State.ringStarts_puts, State.get_put_apart _ _ (apart _ (by simp)), State.get_put_apart _ _ (apart _ (by simp))]

theorem ringStart_apart {g : Field} (clear : ∀ f ∈ [Reg.OBS_RING_WR_OFF, Reg.OBS_RING_RD_OFF], f.Clear g := by decide) :
    ∀ f ∈ [Reg.OBS_RING_WR_OFF, Reg.OBS_RING_RD_OFF], f.Apart g := clear

theorem State.ringStarts_write (t : State) : t.ringStarts.get Reg.OBS_RING_WR_OFF = 0 := by
  rw [State.ringStarts_puts, State.get_put_apart _ _ .of, State.get_put_same _ _ _ ⟨by decide, by decide⟩ (by decide)]

theorem State.ringStarts_read (t : State) : t.ringStarts.get Reg.OBS_RING_RD_OFF = 0 := by
  rw [State.ringStarts_puts, State.get_put_same _ _ _ ⟨by decide, by decide⟩ (by decide)]

theorem State.ringStarts_kept (t : State) : Kept [.regs, .obs] t t.ringStarts :=
  .upd [.obs] (.of (State.put_kept ..) (.of (State.put_kept ..) .refl))

theorem ringRoom_start {n : Nat} (least : 16 ≤ n) : 32 ≤ ringRoom (2 ^ n) 0 0 := by
  have big : 2 ^ 16 ≤ 2 ^ n := Nat.pow_le_pow_right (by decide) least
  rw [ringRoom, Nat.mod_eq_of_lt (by omega)]
  omega

/-! ### The trigger -/

theorem trigRow_wide : ∃ x ∈ findRow 0x01500030, x.1.wide = true ∧ x.2.2 = 0 ∧ ∀ f ∈ x.1.fields, f.lo + f.width ≤ 64 := by
  decide +kernel

theorem trigHigh_row : ∃ x ∈ findRow 0x01500034, x.1.wide = true ∧ x.2.2 = 1 := by decide +kernel

/-- R525: the trigger is armed: both flags of OBS_STATUS are cleared. -/
def State.armed (s : State) : State := (s.put Reg.OBS_STATUS_TRIGGERED 0).put Reg.OBS_STATUS_RING_FROZEN 0

theorem State.armed_triggered (s : State) : s.armed.get Reg.OBS_STATUS_TRIGGERED = 0 := by
  rw [State.armed, State.get_put_apart _ _ .of, State.get_put_same _ _ _ ⟨by decide, by decide⟩ (by decide)]

theorem State.armed_frozen (s : State) : s.armed.get Reg.OBS_STATUS_RING_FROZEN = 0 := by
  rw [State.armed, State.get_put_same _ _ _ ⟨by decide, by decide⟩ (by decide)]

theorem State.armed_get (s : State) {g : Field} (low : g.Sound ∧ g.base + g.width ≤ 8 * 0x01500038) : s.armed.get g = s.get g := by
  have apart {lo w : Nat} (within : lo + w ≤ 32) : Field.Apart ⟨0x01500038, lo, w⟩ g := by
    refine ⟨⟨show 0x01500038 % 4 = 0 by decide, show lo + w ≤ 64 by omega⟩, low.1, .inr (low.2.trans ?_)⟩
    show 8 * 0x01500038 ≤ 8 * 0x01500038 + lo
    omega
  exact (State.get_put_apart _ _ (apart (by decide))).trans (s.get_put_apart _ (apart (by decide)))

theorem State.armed_wrote {s t : State} {v : BitVec 64} (wrote : Wrote 0x01500030 true v s t) : Wrote 0x01500030 true v s t.armed := by
  obtain ⟨⟨r, idx, k⟩, row, wide, -, fits⟩ := trigRow_wide
  obtain ⟨x, second, isWide, -⟩ := trigHigh_row
  have fields := (wrote_wide_iff row wide ⟨x, second, isWide⟩ v s t).mp wrote
  refine (wrote_wide_iff row wide ⟨x, second, isWide⟩ v s t.armed).mpr fun f hf => (t.armed_get ?_).trans (fields f hf)
  have fit := fits f hf
  exact ⟨⟨show 0x01500030 % 4 = 0 by decide, fit⟩, show 8 * 0x01500030 + f.lo + f.width ≤ 8 * 0x01500038 by omega⟩

theorem State.trigPair_status (s : State) (x : BitVec 64) {g : Field} (high : g.Sound ∧ 8 * 0x01500038 ≤ g.base) :
    (s.pairSet 0x01500030 x).get g = s.get g :=
  s.pairSet_get x ⟨⟨by decide, by decide⟩, high.1, .inl (show 8 * 0x01500030 + 0 + 64 ≤ g.base by omega)⟩

/-- A 32-bit write of OBS_TRIG: its words alone change. -/
theorem State.writeWord_trig {s : State} (up : s.domainOn 1 = true) {off : Nat} (half : off = 0x01500030 ∨ off = 0x01500034)
    (v : Word) : ∃ new, s.writeWord off v = s.pairSet 0x01500030 new := by
  rcases half with rfl | rfl
  · obtain ⟨⟨r, idx, k⟩, row, wide, rfl, -⟩ := trigRow_wide
    exact State.writeWord_halfTrace ⟨by decide, by decide⟩ up row wide v
  · obtain ⟨⟨r, idx, k⟩, row, wide, rfl⟩ := trigHigh_row
    exact State.writeWord_halfTrace ⟨by decide, by decide⟩ up row wide v

/-- What a SYNC that the port takes leaves. -/
structure PortSynced (s t : State) : Prop where
  obs : t.obs = { s.obs with port := t.obs.port }
  seq : t.obs.port.seq = (s.obs.port.seq + 1) % 65536
  lost : t.obs.port.lost = 0
  out : t.obs.port.out = s.syncPacket s.obs.port.seq
  kept : Kept [.regs, .obs] s t
  regs : RegsBut [] s t

theorem State.packetToPort_synced {s : State} (none : s.obs.port.lost = 0) (room : s.obs.port.fill + 400 * 32 ≤ 400 * 262144) :
    PortSynced s (s.packetToPort 1 s.syncPayload) := by
  rw [State.packetToPort_sync none room]
  exact ⟨rfl, rfl, rfl, rfl, State.portTook_kept .., State.portTook_regs _ _ _⟩

theorem State.syncPacket_first (s : State) (seq : Nat) : ∃ l, s.syncPacket seq = 1 :: l := ⟨_, rfl⟩

theorem ringRead_quiet : Field.Quiet Reg.OBS_RING_RD_OFF := ⟨⟨by decide, by decide⟩, by decide⟩

/-- What the start of the ring leaves. -/
structure RingSynced (s t : State) : Prop where
  kept : Kept [.regs, .hostMem, .obs] s t
  ring : t.get Reg.OBS_CTRL_RING_EN = s.get Reg.OBS_CTRL_RING_EN
  port : t.get Reg.OBS_CTRL_PORT_EN = s.get Reg.OBS_CTRL_PORT_EN
  write : t.get Reg.OBS_RING_WR_OFF = 32
  read : t.get Reg.OBS_RING_RD_OFF = 0
  first : (t.hostMem.read (4096 * s.get Reg.OBS_RING_BASE_BASE)).toNat = 1

theorem State.ringStarts_synced {t : State} (live : t.get Reg.OBS_STATUS_RING_FROZEN = 0)
    (unfired : t.get Reg.OBS_STATUS_TRIGGERED = 0) (link : t.get Reg.HST_STATUS_LINK_UP = 1) (awake : t.host.d3hot = false)
    (size : 16 ≤ t.get Reg.OBS_RING_CFG_SIZE) (shadow : t.get Reg.OBS_RING_SHADOW_ADDR = 0)
    (room : t.obs.ring.fill + 400 * 32 ≤ 400 * 262144) :
    RingSynced t (t.ringStarts.packetToRing 1 t.ringStarts.syncPayload) := by
  let u := t.ringStarts
  have reads {g : Field} (off : ∀ f ∈ [Reg.OBS_RING_WR_OFF, Reg.OBS_RING_RD_OFF], f.Apart g) : u.get g = t.get g :=
    t.ringStarts_get off
  have cfg : u.get Reg.OBS_RING_CFG_SIZE = t.get Reg.OBS_RING_CFG_SIZE := reads ringStart_apart
  have write : u.get Reg.OBS_RING_WR_OFF = 0 := t.ringStarts_write
  have read : u.get Reg.OBS_RING_RD_OFF = 0 := t.ringStarts_read
  have big : 2 ^ 16 ≤ 2 ^ t.get Reg.OBS_RING_CFG_SIZE := Nat.pow_le_pow_right (by decide) size
  have bytes := u.syncPacket_length u.obs.ring.seq
  have took : u.packetToRing 1 u.syncPayload = u.ringAccept (u.syncPacket u.obs.ring.seq) u.obs.ring.seq :=
    State.packetToRing_takes rfl ((reads ringStart_apart).trans live) ((reads ringStart_apart).trans unfired)
      ((reads ringStart_apart).trans link) ((congrArg HostState.d3hot t.ringStarts_kept.host).trans awake)
      (.inr (by rw [write, read, cfg]; exact ringRoom_start size)) room
  have accepted := ringAccept_written u (u.syncPacket u.obs.ring.seq) u.obs.ring.seq
  have lies := State.ringAccept_hostMem (s := u) (bytes := u.syncPacket u.obs.ring.seq) u.obs.ring.seq
    ((reads ringStart_apart).trans shadow) (by rw [write, cfg, bytes]; omega)
  have offset := u.ringAccept_offset (u.syncPacket u.obs.ring.seq) u.obs.ring.seq
  rw [write, cfg, bytes, Nat.mod_eq_of_lt (show 0 + 32 < 2 ^ t.get Reg.OBS_RING_CFG_SIZE by omega)] at offset
  rw [took]
  refine { kept := .of (State.ringAccept_kept ..) (.of t.ringStarts_kept .refl), ring := ?_, port := ?_, write := offset, read := ?_, first := ?_ }
  · exact (accepted.quiet _ .of).trans (reads ringStart_apart)
  · exact (accepted.quiet _ .of).trans (reads ringStart_apart)
  · exact (accepted.quiet _ ringRead_quiet).trans read
  · obtain ⟨l, packet⟩ := u.syncPacket_first u.obs.ring.seq
    rw [lies, write, reads ringStart_apart, packet, Nat.add_zero]
    have same := Memory.read_writeBytes_same (m := u.hostMem) (a := 4096 * t.get Reg.OBS_RING_BASE_BASE) (i := 0) (1 :: l) (by simp)
    rw [Nat.add_zero] at same
    rw [same]
    rfl

/-- A write of OBS_CTRL that enables the port alone. -/
theorem execObsCtrlWrite_startsPort {s : State} {v : Word} (up : s.domainOn 1 = true) (port : s.get Reg.OBS_CTRL_PORT_EN = 0)
    (start : v.toNat % 2 = 1) (ring : v.toNat / 2 % 2 = 0 ∨ s.get Reg.OBS_CTRL_RING_EN = 1) :
    ∃ t, exec (.obsCtrlWrite v) s = .next (t.packetToPort 1 t.syncPayload) ∧ ObsWritten v s t := by
  have written := State.obsCtrl_obsWritten up v
  obtain ⟨t, is⟩ : ∃ t, s.writeWord 0x01500000 v = t := ⟨_, rfl⟩
  rw [is] at written
  have starts : t.portStarts s = t.packetToPort 1 t.syncPayload := if_pos (by simp [State.on, written.port, port, start])
  refine ⟨t, ?_, written⟩
  rw [execObsCtrlWrite_eq, is, ← starts]
  refine if_neg ?_
  rcases ring with clear | set
  · simp [State.on, written.ring, clear]
  · simp [State.on, set]

/-- A write of OBS_CTRL that enables the ring alone. -/
theorem execObsCtrlWrite_startsRing {s : State} {v : Word} (up : s.domainOn 1 = true) (ring : s.get Reg.OBS_CTRL_RING_EN = 0)
    (start : v.toNat % 4 = 2) :
    ∃ t, exec (.obsCtrlWrite v) s = .next (t.ringStarts.packetToRing 1 t.ringStarts.syncPayload) ∧ ObsWritten v s t := by
  have written := State.obsCtrl_obsWritten up v
  obtain ⟨t, is⟩ : ∃ t, s.writeWord 0x01500000 v = t := ⟨_, rfl⟩
  rw [is] at written
  have silent : t.portStarts s = t := if_neg (by simp [State.on, written.port, show v.toNat % 2 = 0 by omega])
  have newly : (t.on Reg.OBS_CTRL_RING_EN && !s.on Reg.OBS_CTRL_RING_EN) = true := by
    simp [State.on, written.ring, ring, show v.toNat / 2 % 2 = 1 by omega]
  refine ⟨t, ?_, written⟩
  rw [execObsCtrlWrite_eq, is]
  dsimp only
  rw [if_pos newly, silent]

/-- A write of OBS_CTRL that enables neither. -/
theorem execObsCtrlWrite_sets {s : State} {v : Word} (up : s.domainOn 1 = true)
    (port : v.toNat % 2 = 0 ∨ s.get Reg.OBS_CTRL_PORT_EN = 1) (ring : v.toNat / 2 % 2 = 0 ∨ s.get Reg.OBS_CTRL_RING_EN = 1) :
    ∃ t, exec (.obsCtrlWrite v) s = .next t ∧ ObsWritten v s t := by
  have written := State.obsCtrl_obsWritten up v
  obtain ⟨t, is⟩ : ∃ t, s.writeWord 0x01500000 v = t := ⟨_, rfl⟩
  rw [is] at written
  have silent : t.portStarts s = t := if_neg (by
    rcases port with clear | set
    · simp [State.on, written.port, clear]
    · simp [State.on, set])
  refine ⟨t, ?_, written⟩
  rw [execObsCtrlWrite_eq, is]
  dsimp only
  rw [if_neg, silent]
  rcases ring with clear | set
  · simp [State.on, written.ring, clear]
  · simp [State.on, set]

/-- A SYNC packet after a write of OBS_CTRL. -/
theorem ObsWritten.syncPacket {v : Word} {s t : State} (written : ObsWritten v s t) (seq : Nat) :
    t.syncPacket seq = s.syncPacket seq :=
  State.syncPacket_congr written.kept.tide written.kept.headTime0 written.kept.clock (written.others _ obsCtrl_apart)
    (written.others _ obsCtrl_apart) seq

/-- A write of OBS_CTRL, and the SYNC with which the port starts. -/
theorem ObsWritten.portSynced {v : Word} {s t : State} (written : ObsWritten v s t) (none : s.obs.port.lost = 0)
    (room : s.obs.port.fill + 400 * 32 ≤ 400 * 262144) : PortSynced t (t.packetToPort 1 t.syncPayload) := by
  have obs : t.obs = s.obs := written.kept.obs
  exact State.packetToPort_synced (by rw [obs, none]) (by rw [obs]; exact room)

/-- OBS_TRIG_WRITE of an aligned half, or of the whole. -/
theorem execObsTrigWrite_eq {off : BitVec 25} {wide : Bool} {v : BitVec 64} {s : State} (aligned : alignedAccess off.toNat wide = true)
    (named : off.toNat = 0x01500030 ∨ off.toNat = 0x01500034) : exec (.obsTrigWrite off wide v) s =
      .next (if (if wide then bitAt v.toNat 63 else decide (off.toNat = 0x01500034) && bitAt v.toNat 31) ∧ s.domainOn 1
        then (s.writeAny off.toNat wide v).armed else s.writeAny off.toNat wide v) :=
  if_neg (by simp only [aligned, not_true_eq_false, false_or, not_and_or, not_not]; exact named)

/-- Settles O50: packets by what their destination does with them, writes by the registers that they meet. -/
theorem tracePacketsAndRegisters : Obligations.trace_packets_and_registers := by
  unfold Obligations.trace_packets_and_registers
  intro s
  refine ⟨fun due up port ring none room => ?_, fun due up port ring full => ?_,
    fun due up port ring link mode none quiet within shadow _ room awake => ?_, fun due up port ring mode quiet full => ?_,
    fun idle => ?_, fun up ⟨port, ring⟩ source none room => ?_, fun fired last live => ?_, fun idle => ?_,
    fun v up port start ring none room => ?_, fun v up ⟨port, ring⟩ start link quiet size shadow room awake => ?_,
    fun v up port ring => ?_, fun off wide v there up arm => ?_, fun off wide v there up => ?_,
    fun off wide v aligned named ring => ?_, fun off wide v aligned named ring up => ?_⟩
  · have synced := State.packetToPort_synced none room
    exact ⟨_, (execTraceSync_traces due up).trans (congrArg Host.Outcome.next (State.trace_port port ring rfl _)), synced.obs,
      synced.seq, synced.lost, synced.out, .of_kept synced.kept, synced.regs⟩
  · refine ⟨s.portDropped, (execTraceSync_traces due up).trans (congrArg Host.Outcome.next ?_), rfl, .of_kept s.portDropped_kept,
      s.portDropped_regs⟩
    exact (State.trace_port port ring rfl _).trans (State.packetToPort_drops full)
  · have took := State.packetToRing_takes none quiet.1 quiet.2 link awake (.inl mode) room
    have size : (s.syncPacket s.obs.ring.seq).length = 32 := s.syncPacket_length _
    refine ⟨s.ringAccept (s.syncPacket s.obs.ring.seq) s.obs.ring.seq,
      (execTraceSync_traces due up).trans (congrArg Host.Outcome.next ((State.trace_ring port ring rfl _).trans took)), ?_, ?_, rfl,
      rfl, rfl, .of_kept (State.ringAccept_kept ..)⟩
    · rw [State.ringAccept_hostMem _ shadow (by rwa [size]), ← size]
      exact Memory.readBytes_writeBytes ..
    · rw [State.ringAccept_offset, size]
  · refine ⟨s.ringDrop, (execTraceSync_traces due up).trans (congrArg Host.Outcome.next ?_), rfl, rfl,
      .of_kept s.ringDrop_kept, s.ringDrop_regs⟩
    exact (State.trace_ring port ring rfl _).trans (State.packetToRing_drops quiet.1 quiet.2 mode
      (full.trans_le (TraceDest.offered_length _ _ _ s.syncPayload_length)))
  · refine ⟨s, congrArg Host.Outcome.next (if_neg ?_), rfl⟩
    rintro ⟨due, up⟩
    exact idle.elim (· due) fun down => absurd (up.symm.trans down) (by decide)
  · have takes : TakesDram (List.range 6).length s := ⟨port, ring, source, none, by rwa [List.length_range]⟩
    obtain ⟨seq, kept⟩ := takes.fold (hot := s.get Reg.MEM_STATUS_HOT)
    exact ⟨_, execTraceDramSample_traces up, by rw [← kept.mem], seq, .of_kept (.upd [.mem] (.of kept .refl))⟩
  · refine ⟨s.put Reg.OBS_STATUS_RING_FROZEN 1, congrArg Host.Outcome.next (if_pos ⟨by simp [State.on, fired], last, by
      simp [State.on, live]⟩), s.get_put_same _ _ ⟨by decide, by decide⟩ (by decide), .of_kept (State.put_kept ..), .put _ _ _⟩
  · refine ⟨s, congrArg Host.Outcome.next (if_neg ?_), rfl⟩
    rintro ⟨fired, last, -⟩
    exact idle.elim (fun off => absurd fired (by simp [State.on, off])) fun some => absurd last some.ne'
  · obtain ⟨t, runs, written⟩ := execObsCtrlWrite_startsPort up port start ring
    have obs : t.obs = s.obs := written.kept.obs
    have synced := written.portSynced none room
    generalize t.packetToPort 1 t.syncPayload = u at runs synced
    have port : u.obs = { s.obs with port := u.obs.port } := obs ▸ synced.obs
    have seq : u.obs.port.seq = (s.obs.port.seq + 1) % 65536 := by rw [synced.seq, obs]
    have out : u.obs.port.out = s.syncPacket s.obs.port.seq := by rw [synced.out, obs, written.syncPacket]
    exact ⟨u, runs, (synced.regs _ .of nofun).trans (written.port.trans start), (synced.regs _ .of nofun).trans written.ring,
      port, seq, out, .of_kept (.of synced.kept (.of written.kept .refl)),
      fun g quiet apart => (synced.regs g quiet nofun).trans (written.others g apart)⟩
  · obtain ⟨t, runs, written⟩ := execObsCtrlWrite_startsRing up ring start
    have reads {g : Field} (apart : ∀ f ∈ [Reg.OBS_CTRL_PORT_EN, Reg.OBS_CTRL_RING_EN], f.Apart g) : t.get g = s.get g :=
      written.others g apart
    have fill : t.obs.ring.fill = s.obs.ring.fill := congrArg (fun o : ObsState => o.ring.fill) written.kept.obs
    have cfg : t.get Reg.OBS_RING_CFG_SIZE = s.get Reg.OBS_RING_CFG_SIZE := reads obsCtrl_apart
    have base : t.get Reg.OBS_RING_BASE_BASE = s.get Reg.OBS_RING_BASE_BASE := reads obsCtrl_apart
    have synced := State.ringStarts_synced (t := t) ((reads obsCtrl_apart).trans quiet.1) ((reads obsCtrl_apart).trans quiet.2)
      ((reads obsCtrl_apart).trans link) ((congrArg HostState.d3hot written.kept.host).trans awake) (by rw [cfg]; exact size)
      ((reads obsCtrl_apart).trans shadow) (by rw [fill]; exact room)
    generalize t.ringStarts.packetToRing 1 t.ringStarts.syncPayload = u at runs synced
    exact ⟨u, runs, synced.ring.trans (written.ring.trans (by omega)),
      synced.port.trans (written.port.trans (by omega)), synced.write, synced.read, base ▸ synced.first,
      .of_kept (.of synced.kept (.of written.kept .refl))⟩
  · obtain ⟨t, runs, written⟩ := execObsCtrlWrite_sets up port ring
    exact ⟨t, runs, written.port, written.ring, written.kept.obs, .of_kept written.kept⟩
  · obtain ⟨there, rfl⟩ := there
    obtain ⟨wrote, new, written⟩ := State.writePair_trace ⟨by decide, by decide⟩ up trig_wide v
    have arms : bitAt v.toNat 63 = true := by rw [bitAt_eq_testBit, BitVec.testBit_toNat, arm]
    refine ⟨(s.writePair 0x01500030 v).armed, ?_, State.armed_wrote wrote, ?_, ?_, ?_⟩
    · rw [execObsTrigWrite_eq (by rw [there]; decide) (.inl there), there]
      simp only [if_true, arms, up, and_self, State.writeAny]
    · exact State.armed_triggered _
    · exact State.armed_frozen _
    · rw [written]
      rfl
  · have half : off.toNat = 0x01500030 ∨ off.toNat = 0x01500034 := there.imp And.left And.left
    have narrow : wide = false := there.elim And.right fun high => high.2.1
    subst narrow
    obtain ⟨new, written⟩ := State.writeWord_trig up half (v.setWidth 32)
    have rests : (decide (off.toNat = 0x01500034) && bitAt v.toNat 31) = false := by
      rcases there with ⟨low, -⟩ | ⟨-, -, clear⟩
      · simp [low]
      · rw [bitAt_eq_testBit, BitVec.testBit_toNat, clear, Bool.and_false]
    have status {g : Field} := s.trigPair_status new (g := g)
    have row : ∃ x ∈ findRow off.toNat, x.1.wide = true := by
      rcases half with is | is
      · rw [is]
        exact trigRow_wide.imp fun _ h => ⟨h.1, h.2.1⟩
      · rw [is]
        exact trigHigh_row.imp fun _ h => ⟨h.1, h.2.1⟩
    refine ⟨s.pairSet 0x01500030 new, ?_, wrote_half row _ _ _, status ⟨⟨by decide, by decide⟩, by decide⟩,
      status ⟨⟨by decide, by decide⟩, by decide⟩, rfl⟩
    rw [execObsTrigWrite_eq (by rcases half with is | is <;> rw [is] <;> decide) half, ← written]
    exact congrArg Host.Outcome.next (if_neg (by simp [rests]))
  · refine ⟨s.raise 0x1405 [(4, off.toNat)], ?_, (raise_noted ..).reported⟩
    show execObsConfigWrite off wide v s = _
    unfold execObsConfigWrite
    dsimp only
    rw [if_neg (by simp [aligned, named]), if_pos (by simp [State.on, ring])]
  · obtain ⟨meets, inside, inside'⟩ := meets_ringSetUp aligned named
    refine ⟨s.writeAny off.toNat wide v, ?_, State.writeAny_trace inside up inside' meets v⟩
    show execObsConfigWrite off wide v s = _
    unfold execObsConfigWrite
    dsimp only
    rw [if_neg (by simp [aligned, named]), if_neg (by simp [State.on, ring])]

end Sys2Proof.Machine
end

section
/-! PROOFS. A statement that reads a write of MEM_REF by the wrong bit (R406). -/
namespace Sys2Proof.Machine
set_option Elab.async false

/-- The machine at reset with CTL and the DRAM domain up, and refreshes that may be postponed: MEM_REF.MODE, bit 0 of the register,
at 1. -/
def postponingState : State := State.reset.puts [(Reg.PWR_DOMAIN_STATUS_ON, 2 ^ 12 + 3), (Reg.MEM_REF_MODE, 1)]

theorem postponing_holds : postponingState.domainOn 12 = true ∧ postponingState.get Reg.MEM_REF_MODE = 1 := by decide +kernel

/-- MEM_REF written with MODE 1: bit 0 is set, and bit 31, which no field of the register has, is not. -/
theorem postponing_stays : (postponingState.writeWord 0x01000018 1#32).get Reg.MEM_REF_MODE = 1 := by decide +kernel

theorem execMemRefModeWrite_stays {s : State} {v : Word} (stays : (s.writeWord 0x01000018 v).get Reg.MEM_REF_MODE = 1) :
    exec (.memRefModeWrite v) s = .next (s.writeWord 0x01000018 v) := by
  show execMemRefModeWrite v s = _
  simp [execMemRefModeWrite, State.on, stays]

/-- Refutes O41: the write that issues what is owed is told by bit 31 of the value, but MODE is bit 0 of MEM_REF: a write of 1 has bit
31 clear, and leaves MODE at 1. -/
theorem not_dramRequestsAndRefresh : ¬ Obligations.dram_requests_and_refresh := by
  unfold Obligations.dram_requests_and_refresh
  intro holds
  obtain ⟨-, -, -, -, -, -, -, -, -, -, -, -, -, -, -, -, -, -, -, -, -, -, -, -, -, -, -, -, flushes⟩ := holds postponingState
  obtain ⟨up, mode⟩ := postponing_holds
  obtain ⟨t, runs, native, -⟩ := flushes 1#32 up mode (by decide)
  obtain rfl : postponingState.writeWord 0x01000018 1#32 = t :=
    Host.Outcome.next.inj ((execMemRefModeWrite_stays postponing_stays).symm.trans runs)
  exact absurd (postponing_stays.symm.trans native) (by decide)

end Sys2Proof.Machine
end

section
/-! PROOFS. The auxiliary axes: what an axis's own registers and record keep, and what a fault leaves (R353, R354, R357). -/
namespace Sys2Proof.Machine
set_option Elab.async false

/-! ### The registers of one axis -/

/-- A field of the registers of axis n, its counters apart. -/
structure Field.OfAxis (n : Nat) (g : Field) : Prop where
  axis : n < 3
  sound : g.Sound
  low : 8 * (0x00E00000 + n * 0x1000) ≤ g.base
  high : g.base + g.width ≤ 8 * (0x00E00000 + n * 0x1000 + 0x100)

theorem Field.OfAxis.ofNumbers {n off lo w : Nat} (h : n < 3 ∧ off % 4 = 0 ∧ lo + w ≤ 64 ∧ 0x00E00000 + n * 0x1000 ≤ off ∧
    8 * off + lo + w ≤ 8 * (0x00E00000 + n * 0x1000 + 0x100) := by omega) : Field.OfAxis n ⟨off, lo, w⟩ where
  axis := h.1
  sound := ⟨h.2.1, h.2.2.1⟩
  low := by simp only [Field.base]; omega
  high := by simp only [Field.base]; omega

theorem Field.OfAxis.quiet {n : Nat} {g : Field} (axis : g.OfAxis n) : g.Quiet := by
  obtain ⟨few, sound, low, high⟩ := axis
  exact ⟨sound, by omega⟩

theorem Field.OfAxis.offCount {n m i : Nat} {g : Field} (axis : g.OfAxis n) (few : m < 3 ∧ i < 32) : g.Off (cntAux m i) := by
  obtain ⟨axis, sound, low, high⟩ := axis
  refine ⟨?_, sound, ?_⟩
  · simp only [cntAux]
    omega
  · simp only [cntAux]
    omega

section Axis
variable {s : State} {n : Nat}

theorem State.raise_sparesAxis (code : Nat) (payload : List (Nat × Nat)) : Spares (Field.OfAxis n) s (s.raise code payload) :=
  (raise_noted s code payload).spares fun _ => Field.OfAxis.quiet

theorem State.count_sparesAxis {m i : Nat} (few : m < 3 ∧ i < 32) : Spares (Field.OfAxis n) s (s.count (cntAux m i)) :=
  ⟨fun _ axis => s.count_get _ axis.quiet (axis.offCount few)⟩

/-- A field outside an axis's page is written. -/
theorem State.putOff_sparesAxis {off lo w : Nat} (x : Nat) (h : n < 3 → off % 4 = 0 ∧ lo + w ≤ 64 ∧
    (8 * off + lo + w ≤ 8 * (0x00E00000 + n * 0x1000) ∨ 0x00E00000 + n * 0x1000 + 0x100 ≤ off)) :
    Spares (Field.OfAxis n) s (s.put ⟨off, lo, w⟩ x) :=
  s.put_spares x fun g axis => by
    obtain ⟨few, sound, low, high⟩ := axis
    obtain ⟨aligned, within, outside⟩ := h few
    exact ⟨⟨aligned, within⟩, sound, by simp only [Field.base] at low high ⊢; omega⟩

/-! ### The record of one axis -/

theorem State.modAxis_same (inside : n < s.aux.axes.length) (f : AuxAxis → AuxAxis) : (s.modAxis n f).axis n = f (s.axis n) :=
  getD_listModify_same inside f _

theorem State.modAxis_other {k : Nat} (apart : k ≠ n) (f : AuxAxis → AuxAxis) : (s.modAxis n f).axis k = s.axis k :=
  getD_listModify_other _ apart f _

theorem State.axis_congr {t : State} (aux : t.aux = s.aux) (k : Nat) : t.axis k = s.axis k := by
  rw [State.axis, State.axis, aux]

theorem State.modAxis_get (f : AuxAxis → AuxAxis) (g : Field) : (s.modAxis n f).get g = s.get g := rfl

end Axis

/-- From s to t, the registers and the record of axis n stand. -/
structure AxisStands (n : Nat) (s t : State) : Prop where
  regs : Spares (Field.OfAxis n) s t
  axis : t.axis n = s.axis n

theorem AxisStands.refl {n : Nat} {s : State} : AxisStands n s s := ⟨.refl, rfl⟩

theorem AxisStands.of {n : Nat} {s t u : State} (next : AxisStands n t u) (first : AxisStands n s t) : AxisStands n s u :=
  ⟨.of next.regs first.regs, next.axis.trans first.axis⟩

theorem State.axisStop_stands {s : State} {n m : Nat} (ne : n ≠ m) : AxisStands n s (s.axisStop m) := by
  unfold State.axisStop
  split
  · refine ⟨?_, State.modAxis_other ne _⟩
    have shown : Spares (Field.OfAxis n) s (s.put (Reg.AUX_STATUS_STATE m) 5) := State.putOff_sparesAxis 5 fun _ => by omega
    exact shown.upd
  · exact .refl

/-- The axes of a job that axis n does not run stop; axis n stands. -/
theorem State.stopAxes_stands {s : State} {n aseq : Nat} (free : s.axisJob n ≠ some aseq) :
    AxisStands n s (s.stopAxes aseq) := by
  have step (l : List Nat) (s : State) (others : ∀ m ∈ l, n ≠ m) :
      AxisStands n s (l.foldl (fun (s : State) m => (s.axisStop m).modAxis m fun x => { x with job := none }) s) := by
    induction l generalizing s with
    | nil => exact .refl
    | cons m l ih =>
      have ne := others m List.mem_cons_self
      have stopped : AxisStands n s ((s.axisStop m).modAxis m fun x => { x with job := none }) :=
        AxisStands.of ⟨(Spares.refl).upd, State.modAxis_other ne _⟩ (State.axisStop_stands ne)
      exact (ih _ fun k listed => others k (List.mem_cons_of_mem _ listed)).of stopped
  refine step _ s fun m listed => ?_
  rintro rfl
  exact free (of_decide_eq_true (List.mem_filter.mp listed).2)

theorem State.auxFails_stands {s : State} {n aseq : Nat} (free : s.axisJob n ≠ some aseq) (i status cause axis : Nat) :
    AxisStands n s (s.auxFails aseq i status cause axis) := by
  unfold State.auxFails
  split
  · exact .refl
  · extract_lets held t u
    have stopped := State.stopAxes_stands free
    have held : AxisStands n s t := ⟨stopped.regs.upd, stopped.axis⟩
    have hold : Spares (Field.OfAxis n) t u := State.putOff_sparesAxis _ fun _ => by omega
    have shown : AxisStands n s u := ⟨.of hold held.regs, held.axis⟩
    exact ⟨.of (State.raise_sparesAxis ..) shown.regs, (State.axis_congr (State.raise_aux ..) n).trans shown.axis⟩

/-! ### Faults (R353, R354) -/

/-- What a fault of an axis leaves. -/
structure AxisFaulted (n cause : Nat) (s t : State) : Prop where
  state : t.axisState n = 6
  shown : t.get (Reg.AUX_STATUS_FAULT_CAUSE n) = cause
  ref : t.get (Reg.AUX_POS_REF n) = 0
  count : t.get (Reg.AUX_POS_COUNT n) = s.get (Reg.AUX_POS_COUNT n)
  x : (t.axis n).x = s.axisCount n * 65536
  v : (t.axis n).v = 0
  a : (t.axis n).a = 0

theorem AxisFaulted.of {n cause : Nat} {s t u : State} (stands : AxisStands n t u) (faulted : AxisFaulted n cause s t) (few : n < 3) :
    AxisFaulted n cause s u where
  state := (stands.regs.get _ .ofNumbers).trans faulted.state
  shown := (stands.regs.get _ .ofNumbers).trans faulted.shown
  ref := (stands.regs.get _ .ofNumbers).trans faulted.ref
  count := (stands.regs.get _ .ofNumbers).trans faulted.count
  x := (congrArg AuxAxis.x stands.axis).trans faulted.x
  v := (congrArg AuxAxis.v stands.axis).trans faulted.v
  a := (congrArg AuxAxis.a stands.axis).trans faulted.a

/-- The registers of a fault. -/
def State.faultShown (s : State) (n cause : Nat) : State :=
  ((s.put (Reg.AUX_STATUS_STATE n) 6).put (Reg.AUX_STATUS_FAULT_CAUSE n) cause).put (Reg.AUX_POS_REF n) 0

/-- The registers and the record of a fault. -/
def State.faulting (s : State) (n cause : Nat) : State :=
  (s.faultShown n cause).modAxis n fun a =>
    { a with x := s.axisCount n * 65536, v := 0, a := 0, table := [], job := none, devRun := 0, idleAt := none }

theorem State.faulting_get (s : State) (n cause : Nat) (g : Field) : (s.faulting n cause).get g =
    (((s.put (Reg.AUX_STATUS_STATE n) 6).put (Reg.AUX_STATUS_FAULT_CAUSE n) cause).put (Reg.AUX_POS_REF n) 0).get g := by
  rw [State.faulting, State.modAxis_get, State.faultShown]

theorem State.faulting_axis {s : State} {n : Nat} (cause : Nat) (inside : n < s.aux.axes.length) : (s.faulting n cause).axis n =
    { s.axis n with x := s.axisCount n * 65536, v := 0, a := 0, table := [], job := none, devRun := 0, idleAt := none } :=
  State.modAxis_same (s := s.faultShown n cause) inside _

theorem State.faulting_faulted (s : State) {n cause : Nat} (known : cause < 16) (inside : n < s.aux.axes.length) :
    AxisFaulted n cause s (s.faulting n cause) where
  state := by
    rw [State.axisState, State.faulting_get, State.get_put_apart _ _ .ofNumbers, State.get_put_apart _ _ .ofNumbers]
    exact State.get_put_same _ _ 6 .ofNumbers (show 6 < 2 ^ 3 by decide)
  shown := by
    rw [State.faulting_get, State.get_put_apart _ _ .ofNumbers]
    exact State.get_put_same _ _ cause .ofNumbers (show cause < 2 ^ 4 by omega)
  ref := by
    rw [State.faulting_get]
    exact State.get_put_same _ _ 0 .ofNumbers (show 0 < 2 ^ 1 by decide)
  count := by
    rw [State.faulting_get, State.get_put_apart _ _ .ofNumbers, State.get_put_apart _ _ .ofNumbers, State.get_put_apart _ _ .ofNumbers]
  x := by rw [State.faulting_axis cause inside]
  v := by rw [State.faulting_axis cause inside]
  a := by rw [State.faulting_axis cause inside]

theorem State.axisFault_faulted (s : State) {n cause : Nat} (few : n < 3) (known : cause < 16) (inside : n < s.aux.axes.length)
    (code : Nat) (payload : List (Nat × Nat)) : AxisFaulted n cause s (s.axisFault n cause code payload) := by
  have faulted := s.faulting_faulted known inside
  unfold State.axisFault
  extract_lets run fields x t u v
  have is : u = s.faulting n cause := rfl
  have stands : AxisStands n (s.faulting n cause) v :=
    ⟨.of (State.raise_sparesAxis ..) (State.count_sparesAxis ⟨few, by decide⟩),
      State.axis_congr ((State.raise_aux ..).trans (State.count_kept ..).aux) n⟩
  have jobless : v.axisJob n = none := by rw [State.axisJob, stands.axis, State.faulting_axis cause inside]; rfl
  have told := AxisFaulted.of stands faulted few
  cases run with
  | none => exact told
  | some job => exact AxisFaulted.of (State.auxFails_stands (by rw [jobless]; exact nofun) _ _ _ _) told few

theorem State.stepsLost_faulted (s : State) {n : Nat} (few : n < 3) (inside : n < s.aux.axes.length) (stall : Bool) :
    AxisFaulted n (if stall then 1 else 2) s (s.stepsLost n stall) := by
  cases stall with
  | true => exact s.axisFault_faulted few (by decide) inside _ _
  | false => exact s.axisFault_faulted few (by decide) inside _ _

end Sys2Proof.Machine
end

section
/-! PROOFS. Steps, the planner, the encoder and the switches of an axis (R346 to R355). -/
namespace Sys2Proof.Machine
set_option Elab.async false

theorem State.count_regsBut (s : State) (off : Nat) : RegsBut [⟨off, 0, 64⟩] s (s.count off) := fun _ quiet apart => by
  obtain ⟨⟨aligned, -⟩, sound, range⟩ := apart _ List.mem_cons_self
  exact s.count_get _ quiet ⟨aligned, sound, range.symm.imp id id⟩

/-! ### The step generator (R346, R347) -/

/-- The registers after one step toward the commanded position. -/
def State.stepCounted (s : State) (n : Nat) : State :=
  (s.put (Reg.AUX_POS_COUNT n) (wrapInt 48 (s.axisCount n +
    (if decide (s.axisCount n < idiv (s.axis n).x 65536) then 1 else -1)))).count (cntAux n 0)

/-- The record of an axis that has stepped. -/
def AuxAxis.steps (x : AuxAxis) (now state : Nat) : AuxAxis :=
  { x with stepAt := some now, devSteps := x.devSteps + 1, homeSteps := if state = 4 then x.homeSteps + 1 else 0 }

/-- An axis steps. -/
def State.axisSteps (s : State) (n : Nat) : State :=
  (s.stepCounted n).modAxis n fun x => x.steps (s.stepCounted n).tide (s.axisState n)

section Steps
variable {s : State} {n : Nat}

theorem State.stepCounted_kept (s : State) (n : Nat) : Kept reports s (s.stepCounted n) := by
  have put : Kept reports s (s.put (Reg.AUX_POS_COUNT n) (wrapInt 48 (s.axisCount n +
    (if decide (s.axisCount n < idiv (s.axis n).x 65536) then 1 else -1)))) := .of (State.put_kept ..) .refl
  exact .of (State.count_kept ..) put

theorem State.stepCounted_regs (s : State) (n : Nat) : RegsBut [Reg.AUX_POS_COUNT n, ⟨cntAux n 0, 0, 64⟩] s (s.stepCounted n) :=
  (RegsBut.put s _ _).trans (State.count_regsBut _ _)

theorem State.stepCounted_count (few : n < 3) : (s.stepCounted n).get (Reg.AUX_POS_COUNT n) =
    wrapInt 48 (if s.axisCount n < idiv (s.axis n).x 65536 then s.axisCount n + 1 else s.axisCount n - 1) := by
  have axis : Field.OfAxis n (Reg.AUX_POS_COUNT n) := .ofNumbers
  rw [State.stepCounted, (State.count_sparesAxis ⟨few, by decide⟩).get _ axis, State.get_put_same _ _ _ axis.sound (wrapInt_lt ..)]
  simp only [decide_eq_true_eq]
  split <;> rfl

theorem State.axisSteps_axis (inside : n < s.aux.axes.length) :
    (s.axisSteps n).axis n = (s.axis n).steps s.tide (s.axisState n) := by
  have kept := s.stepCounted_kept n
  rw [State.axisSteps, State.modAxis_same (by rw [kept.aux]; exact inside), State.axis_congr kept.aux, kept.tide]

/-- What the step generator does where nothing stands against a step. -/
theorem execStepGenerate_eq {n : Fin 3} (off : idiv (s.axis n).x 65536 ≠ s.axisCount n)
    (moves : natMem (s.axisState n) [1, 2, 3, 4, 5] = true) (free : s.pwr.protective = false)
    (open' : s.axisState n = 4 ∨ s.blockedToward n (decide (s.axisCount n < idiv (s.axis n).x 65536)) = false) :
    exec (.stepGenerate n) s =
      let up := decide (s.axisCount n < idiv (s.axis n).x 65536)
      let since := match (s.axis n).stepAt with
        | some t => s.tide - t
        | none => 2 ^ 64
      if up ≠ (s.axis n).dir then
        .next (if s.get (Reg.AUX_CFG_STEP_HI n) ≤ since then s.modAxis n fun x => { x with dir := up, dirAt := s.tide } else s)
      else if s.get (Reg.AUX_CFG_STEP_HI n) + s.get (Reg.AUX_CFG_STEP_LO n) ≤ since ∧
          (s.axis n).dirAt + s.get (Reg.AUX_CFG_DIR_SETUP n) ≤ s.tide then
        .next (if s.axisState n = 4 ∧ 2 ^ 31 < ((s.axisSteps n).axis n).homeSteps ∧ ((s.axisSteps n).axis n).homeStage < 4
          then (s.axisSteps n).stepsLost n false else s.axisSteps n)
      else .next s := by
  have running : s.axisState n ≠ 0 ∧ s.axisState n ≠ 6 := by
    simp only [natMem] at moves
    constructor <;> · intro is; rw [is] at moves; exact absurd moves (by decide)
  show execStepGenerate n s = _
  unfold execStepGenerate
  extract_lets l count want q high since up
  rw [if_neg (by simp only [free]; rintro (is | is | is | is) <;> [exact running.1 is; exact running.2 is; exact off is; cases is]),
    if_neg (by rintro ⟨ne, blocked⟩; exact open'.elim ne fun clear => absurd (clear.symm.trans blocked) (by decide))]
  rfl

end Steps

/-! ### The planner (R350 to R353) -/

/-- From s to t, the record of axis n alone has been set. -/
structure AxisSet (n : Nat) (x : AuxAxis) (s t : State) : Prop where
  axis : t.axis n = x
  others : ∀ k, k ≠ n → t.axis k = s.axis k
  kept : Kept [.aux] s t
  inside : n < t.aux.axes.length

theorem State.listModify_length {α : Type} (l : List α) (n : Nat) (f : α → α) : (listModify l n f).length = l.length := by
  rw [listModify_eq_modify, List.length_modify]

theorem AxisSet.refl {n : Nat} {s : State} (inside : n < s.aux.axes.length) : AxisSet n (s.axis n) s s :=
  ⟨rfl, fun _ _ => rfl, .refl, inside⟩

theorem AxisSet.mod {n : Nat} {x : AuxAxis} {s t : State} (set : AxisSet n x s t) (f : AuxAxis → AuxAxis) :
    AxisSet n (f x) s (t.modAxis n f) where
  axis := (State.modAxis_same set.inside f).trans (congrArg f set.axis)
  others := fun k ne => (State.modAxis_other ne f).trans (set.others k ne)
  kept := .of (State.modAxis_kept ..) set.kept
  inside := (State.listModify_length ..).trans_gt set.inside

theorem AxisSet.get {n : Nat} {x : AuxAxis} {s t : State} (set : AxisSet n x s t) (g : Field) : t.get g = s.get g :=
  congrArg (rfGet · g) set.kept.regs

theorem State.deviation_congr {s t : State} (regs : ∀ g, t.get g = s.get g) {n : Nat} (delta : (t.axis n).delta = (s.axis n).delta) :
    t.deviation n = s.deviation n := by
  simp only [State.deviation, State.encoder, State.axisCount, State.getS, regs, delta]

theorem State.axisApplyDeferred_none {s : State} {n : Nat} (none : (s.axis n).deferred = []) : s.axisApplyDeferred n = s :=
  if_pos (.inl (by simp [none]))

/-- The record of an axis after a planner step has looked at its encoder. -/
def AuxAxis.watched (x : AuxAxis) (enc : Nat) : AuxAxis := { x with devRun := if enc = 1 then 0 else x.devRun }

/-- From s to t, a planner step has set the record of axis n to x, and the deviation is shown. -/
structure AxisWatched (n : Nat) (x : AuxAxis) (s t : State) : Prop where
  axis : t.axis n = x
  others : ∀ k, k ≠ n → t.axis k = s.axis k
  kept : Kept (.aux :: reports) s t
  regs : RegsBut [Reg.AUX_ENC_DEV n] s t

theorem AxisWatched.noted {n : Nat} {x : AuxAxis} {s t u : State} (watched : AxisWatched n x s t) (noted : Noted t u) :
    AxisWatched n x s u where
  axis := (State.axis_congr noted.aux n).trans watched.axis
  others := fun k ne => (State.axis_congr noted.aux k).trans (watched.others k ne)
  kept := .of noted.kept watched.kept
  regs := fun g quiet apart => (noted.quiet g quiet).trans (watched.regs g quiet apart)

theorem State.watchDeviation_holds {s t : State} {n : Nat} {x : AuxAxis} (set : AxisSet n x s t)
    (delta : x.delta = (s.axis n).delta)
    (small : s.get (Reg.AUX_CFG_ENC_EN n) = 0 ∨ (s.deviation n).natAbs ≤ s.get (Reg.AUX_DEV_WIN n)) :
    AxisWatched n (x.watched (s.get (Reg.AUX_CFG_ENC_EN n))) s (t.watchDeviation n) := by
  have bit : s.get (Reg.AUX_CFG_ENC_EN n) < 2 ^ 1 := s.get_lt _ .ofNumbers
  unfold State.watchDeviation
  split
  next off =>
    have is : s.get (Reg.AUX_CFG_ENC_EN n) = 0 := by
      rw [← set.get]
      simpa [State.on] using off
    have same : x.watched (s.get (Reg.AUX_CFG_ENC_EN n)) = x := by simp [AuxAxis.watched, is]
    exact ⟨set.axis.trans same.symm, set.others, .of set.kept .refl, .of_regs (set.kept.regs)⟩
  next on =>
    have is : s.get (Reg.AUX_CFG_ENC_EN n) = 1 := by
      rw [← set.get] at bit ⊢
      have ne : t.get (Reg.AUX_CFG_ENC_EN n) ≠ 0 := by simpa [State.on] using on
      omega
    extract_lets dev u
    have same : dev = s.deviation n := State.deviation_congr set.get (set.axis ▸ delta)
    have win : u.get (Reg.AUX_DEV_WIN n) = s.get (Reg.AUX_DEV_WIN n) := (State.get_put_apart _ _ .ofNumbers).trans (set.get _)
    rw [if_pos (.inr (by rw [win, same]; exact small.resolve_left (by omega)))]
    have watched : x.watched (s.get (Reg.AUX_CFG_ENC_EN n)) = { x with devRun := 0 } := by simp [AuxAxis.watched, is]
    refine ⟨?_, fun k ne => (State.modAxis_other ne _).trans (set.others k ne), ?_, ?_⟩
    · rw [watched, State.modAxis_same (s := u) set.inside]
      exact congrArg (fun x : AuxAxis => { x with devRun := 0 }) set.axis
    · exact .of (State.modAxis_kept ..) (.of (State.put_kept ..) (.of set.kept .refl))
    · exact fun g quiet apart => (State.modAxis_get ..).trans ((t.get_put_apart _ (apart _ List.mem_cons_self)).trans (set.get g))

/-- The trace of a planner step (R520). -/
def State.axisTraced (s : State) (n : Nat) : State :=
  if s.axisState n = 0 then s else s.trace 13 (leBytes 1 n ++ leBytes 1 (s.axisState n) ++ leBytes 6 (s.get (Reg.AUX_POS_COUNT n)))

theorem State.axisTraced_noted (s : State) (n : Nat) : Noted s (s.axisTraced n) := .ite (.rfl' s) (trace_noted ..)

/-- The commanded motion after a planner step. -/
def State.planned (s : State) (n : Nat) (pos vel acc : Int) : State :=
  if s.axisState n = 3 then s.axisTableStep n
  else if natMem (s.axisState n) [2, 4, 5] then
    if s.axisStepAllowed n pos vel acc then s.modAxis n fun x => { x with x := pos, v := vel, a := acc } else s
  else s

theorem execAuxPlannerStep_eq (n : Fin 3) (pos vel acc : BitVec 64) (s : State) : exec (.auxPlannerStep n pos vel acc) s =
    .next (((((s.planned n pos.toInt vel.toInt acc.toInt).homeTurn n).axisApplyDeferred n).watchDeviation n).axisTraced n) := rfl

/-- A planner step that leaves the deviation within its window. -/
theorem execAuxPlannerStep_watched {s : State} {n : Fin 3} {pos vel acc : BitVec 64} {x : AuxAxis}
    (set : AxisSet n x s ((s.planned n pos.toInt vel.toInt acc.toInt).homeTurn n)) (none : x.deferred = [])
    (delta : x.delta = (s.axis n).delta)
    (small : s.get (Reg.AUX_CFG_ENC_EN n) = 0 ∨ (s.deviation n).natAbs ≤ s.get (Reg.AUX_DEV_WIN n)) :
    Acts (.auxPlannerStep n pos vel acc) s (AxisWatched n (x.watched (s.get (Reg.AUX_CFG_ENC_EN n))) s) := by
  refine ⟨_, execAuxPlannerStep_eq .., AxisWatched.noted ?_ (State.axisTraced_noted ..)⟩
  rw [State.axisApplyDeferred_none (set.axis ▸ none)]
  exact State.watchDeviation_holds set delta small

/-- R355: the stage of a homing motion that has come to its stop at the switch. -/
theorem AxisSet.homeTurn {n : Nat} {x : AuxAxis} {s t : State} (set : AxisSet n x s t) :
    AxisSet n { x with homeStage := if s.axisState n = 4 ∧ x.homeStage = 1 ∧ x.v = 0 ∧ x.a = 0 then 2 else x.homeStage } s
      (t.homeTurn n) := by
  unfold State.homeTurn
  have state : t.axisState n = s.axisState n := set.get _
  by_cases turns : s.axisState n = 4 ∧ x.homeStage = 1 ∧ x.v = 0 ∧ x.a = 0
  · rw [if_pos turns]
    dsimp only
    rw [set.axis, state, if_pos turns]
    exact set.mod fun x => { x with homeStage := 2 }
  · rw [if_neg turns]
    dsimp only
    rw [set.axis, state, if_neg turns]
    exact set

theorem State.axisTableStep_runs {s : State} {n : Nat} {e : Nat × Int × Int} {r : List (Nat × Int × Int)} {p v : Int} {b : Nat}
    (runs : tableAdvance s.tide (s.axis n).table (s.axis n).segPos (s.axis n).segVel (s.axis n).segStart = (e :: r, p, v, b)) :
    s.axisTableStep n = s.modAxis n fun x =>
      let y := (segmentFrom p v e.1 e.2.1 e.2.2).at (s.tide - b)
      { x with x := idiv y.1 15625, v := idiv y.2.1 4, a := idiv (y.2.2 * 15625) 16,
               table := e :: r, segPos := p, segVel := v, segStart := b } := by
  unfold State.axisTableStep
  dsimp only
  rw [runs]

/-- A planner step with a deviation that has lasted too long is a fault. -/
theorem State.watchDeviation_faults {s t : State} {n : Nat} {x : AuxAxis} (few : n < 3) (set : AxisSet n x s t)
    (delta : x.delta = (s.axis n).delta) (busy : s.axisBusy n = true) (enc : s.get (Reg.AUX_CFG_ENC_EN n) = 1)
    (large : s.get (Reg.AUX_DEV_WIN n) < (s.deviation n).natAbs) (late : s.get (Reg.AUX_DEV_TIME n) ≤ 10 * x.devRun) :
    AxisFaulted n (if s.encoder n = x.devFrom ∧ 4 ≤ x.devSteps then 1 else 2) s (t.watchDeviation n) := by
  have on : t.on (Reg.AUX_CFG_ENC_EN n) = true := by simp [State.on, set.get, enc]
  unfold State.watchDeviation
  rw [if_neg (not_not.mpr on)]
  extract_lets dev u l e w
  have shown {g : Field} (apart : (Reg.AUX_ENC_DEV n).Apart g) : u.get g = s.get g := (t.get_put_apart _ apart).trans (set.get g)
  have same : dev = s.deviation n := State.deviation_congr set.get (set.axis ▸ delta)
  have win : u.get (Reg.AUX_DEV_WIN n) = s.get (Reg.AUX_DEV_WIN n) := shown .ofNumbers
  have state : u.axisState n = s.axisState n := shown .ofNumbers
  have axis : l = x := set.axis
  have time : w.get (Reg.AUX_DEV_TIME n) = s.get (Reg.AUX_DEV_TIME n) := (State.modAxis_get ..).trans (shown .ofNumbers)
  have encoder : e = s.encoder n := by
    simp only [e, State.encoder, State.getS, shown (g := Reg.AUX_ENC_COUNT n) .ofNumbers,
      shown (g := Reg.AUX_ENC_RATIO_RATIO n) .ofNumbers]
  have count : w.get (Reg.AUX_POS_COUNT n) = s.get (Reg.AUX_POS_COUNT n) := (State.modAxis_get ..).trans (shown .ofNumbers)
  have runs : u.axisBusy n = true := (congrArg (natMem · [2, 3, 4]) state).trans busy
  have beyond : ¬ (¬ u.axisBusy n = true ∨ dev.natAbs ≤ u.get (Reg.AUX_DEV_WIN n)) := by
    rw [win, same]
    simp [runs, large]
  have lasts : w.get (Reg.AUX_DEV_TIME n) ≤ 10 * l.devRun := by rw [time, axis]; exact late
  rw [if_neg beyond, if_pos lasts]
  have inside : n < w.aux.axes.length := (State.listModify_length ..).trans_gt set.inside
  have faulted := w.stepsLost_faulted few inside (decide (e = l.devFrom ∧ 4 ≤ l.devSteps))
  simp only [axis, encoder, decide_eq_true_eq] at faulted
  rw [axis, encoder]
  exact { state := faulted.state, shown := faulted.shown, ref := faulted.ref, count := faulted.count.trans count,
          x := faulted.x.trans (by rw [State.axisCount, State.getS_congr count]; rfl), v := faulted.v, a := faulted.a }

theorem AxisFaulted.noted {n cause : Nat} {s t u : State} (faulted : AxisFaulted n cause s t) (few : n < 3) (noted : Noted t u) :
    AxisFaulted n cause s u :=
  .of ⟨noted.spares fun _ => Field.OfAxis.quiet, State.axis_congr noted.aux n⟩ faulted few

end Sys2Proof.Machine
end

section
/-! PROOFS. The obligation on steps, planner, encoder and switches (R346 to R355). -/
namespace Sys2Proof.Machine
set_option Elab.async false

/-! ### The encoder and the index (R352, R355) -/

/-- The machine with new levels on an encoder. -/
def State.encLevels (s : State) (n : Nat) (a b : Bool) : State := s.modAxis n fun x => { x with encA := a, encB := b }

theorem execEncEdge_eq (n : Fin 3) (a b : Bool) (s : State) (enc : s.get (Reg.AUX_CFG_ENC_EN n) = 1) : exec (.encEdge n a b) s =
    match quadStep (s.axis n).encA (s.axis n).encB a b with
    | some d =>
      let d := if s.on (Reg.AUX_CFG_ENC_INV n) then -d else d
      .next ((s.encLevels n a b).put (Reg.AUX_ENC_COUNT n) (wrapInt 32 (s.get (Reg.AUX_ENC_COUNT n) + d)))
    | none => .next (if s.axisBusy n then (s.encLevels n a b).stepsLost n false else s.encLevels n a b) := by
  have on : (s.encLevels n a b).on (Reg.AUX_CFG_ENC_EN n) = true := by simp [State.on, State.encLevels, State.modAxis_get, enc]
  show execEncEdge n a b s = _
  unfold execEncEdge
  exact if_neg (not_not.mpr on)

/-- The registers and the record of an axis whose reference is taken. -/
def State.referencing (s : State) (n : Nat) : State :=
  ((s.put (Reg.AUX_POS_COUNT n) (wrapInt 48 (s.getS (Reg.AUX_HOME_POS n)))).put (Reg.AUX_POS_REF n) 1).modAxis n fun x =>
    { x with x := x.x + (s.getS (Reg.AUX_HOME_POS n) - s.axisCount n) * 65536,
             delta := s.encoder n - s.getS (Reg.AUX_HOME_POS n), homeStage := 4 }

theorem State.takeReference_noted (s : State) (n : Nat) : Noted (s.referencing n) (s.takeReference n) := raise_noted ..

theorem State.referencing_get (s : State) (n : Nat) (g : Field) : (s.referencing n).get g =
    ((s.put (Reg.AUX_POS_COUNT n) (wrapInt 48 (s.getS (Reg.AUX_HOME_POS n)))).put (Reg.AUX_POS_REF n) 1).get g := by
  rw [State.referencing, State.modAxis_get]

theorem State.referencing_count (s : State) (n : Nat) :
    (s.referencing n).get (Reg.AUX_POS_COUNT n) = s.get (Reg.AUX_HOME_POS n) := by
  have home : wrapInt 48 (s.getS (Reg.AUX_HOME_POS n)) = s.get (Reg.AUX_HOME_POS n) :=
    wrapInt_sext (s.get_lt (Reg.AUX_HOME_POS n) .ofNumbers)
  rw [State.referencing_get, State.get_put_apart _ _ .ofNumbers, State.get_put_same _ _ _ .ofNumbers (wrapInt_lt ..), home]

theorem State.referencing_ref (s : State) (n : Nat) : (s.referencing n).get (Reg.AUX_POS_REF n) = 1 := by
  rw [State.referencing_get]
  exact State.get_put_same _ _ 1 .ofNumbers (show 1 < 2 ^ 1 by decide)

/-! ### The limit switches (R354) -/

/-- The field that shows a limit switch, and the one that gives its active level. -/
def limShown (n : Nat) (hi : Bool) : Field := if hi then Reg.AUX_STATUS_LIM_HI n else Reg.AUX_STATUS_LIM_LO n
def limLevel (n : Nat) (hi : Bool) : Field := if hi then Reg.AUX_CFG_HI_POL n else Reg.AUX_CFG_LO_POL n

/-- A switch is accepted at a level. -/
def State.limAccepted (s : State) (n : Nat) (hi level : Bool) : State :=
  s.put (limShown n hi) (flag (decide (level = s.on (limLevel n hi))))

theorem limShown_sound (n : Nat) (hi : Bool) : (limShown n hi).Sound := by
  cases hi <;> exact .ofNumbers

theorem limShown_state (n : Nat) (hi : Bool) : (limShown n hi).Apart (Reg.AUX_STATUS_STATE n) := by
  cases hi <;> exact .ofNumbers

theorem limShown_width (n : Nat) (hi : Bool) : (limShown n hi).width = 1 := by
  cases hi <;> rfl

theorem State.limAccepted_state (s : State) (n : Nat) (hi level : Bool) : (s.limAccepted n hi level).axisState n = s.axisState n :=
  s.get_put_apart _ (limShown_state n hi)

theorem State.limAccepted_moves (s : State) (n : Nat) (hi level : Bool) :
    (s.limAccepted n hi level).movesToward n hi = s.movesToward n hi := by
  rw [State.movesToward, State.movesToward, State.limAccepted_state]
  rfl

theorem State.limAccepted_shown (s : State) (n : Nat) (hi level : Bool) :
    (s.limAccepted n hi level).get (limShown n hi) = flag (decide (level = s.on (limLevel n hi))) := by
  refine s.get_put_same _ _ (limShown_sound n hi) ?_
  rw [limShown_width]
  cases decide (level = s.on (limLevel n hi)) <;> decide

/-- A switch outside HOME: a fault where it becomes active in the direction of motion. -/
theorem execLimitSwitch_eq {s : State} {n : Fin 3} (away : s.axisState n ≠ 4) (hi level : Bool) : exec (.limitSwitch n hi level) s =
    .next (if decide (level = s.on (limLevel n hi)) ≠ s.blockedToward n hi ∧ level = s.on (limLevel n hi) ∧
        s.movesToward n hi = true
      then (s.limAccepted n hi level).axisFault n 3 0x0C06 [(4, flag hi)] else s.limAccepted n hi level) := by
  have state := s.limAccepted_state n hi level
  have moves := s.limAccepted_moves n hi level
  show execLimitSwitch n hi level s = _
  unfold execLimitSwitch
  extract_lets pol active was t l
  have is : t = s.limAccepted n hi level := rfl
  by_cases same : active = was
  · rw [if_pos same, if_neg fun turns => turns.1 same, is]
  · have stays : ¬ t.axisState n = 4 := fun homing => away ((s.limAccepted_state n hi level).symm.trans homing)
    rw [if_neg same, if_neg stays, is, moves]
    refine congrArg Host.Outcome.next (if_congr ?_ rfl rfl)
    rw [show active = decide (level = s.on (limLevel n hi)) from rfl, decide_eq_true_eq]
    exact ⟨fun ⟨level, moves⟩ => ⟨same, level, moves⟩, And.right⟩

/-! ### The settle check (R353) -/

theorem execAuxSettleCheck_eq {s : State} {n : Fin 3} {q : Nat} (since : (s.axis n).idleAt = some q) (idle : s.axisState n = 1)
    (late : q + 400000 * s.get (Reg.AUX_SETTLE_SETTLE_MS n) ≤ s.tide) : exec (.auxSettleCheck n) s =
    .next (if s.on (Reg.AUX_CFG_ENC_EN n) && decide (s.get (Reg.AUX_SETTLE_END_WIN n) < (s.deviation n).natAbs)
      then s.stepsLost n false else s.modAxis n fun x => { x with idleAt := none, job := none }) := by
  show execAuxSettleCheck n s = _
  unfold execAuxSettleCheck
  rw [since]
  exact if_neg fun held => held.elim (fun ne => ne idle) (Nat.not_lt.mpr late)

/-! ### States in which an axis moves or rests -/

theorem natMem_iff {q : Nat} {l : List Nat} : natMem q l = true ↔ q ∈ l := by
  simp [natMem]

theorem axisState_planned {q : Nat} (moves : natMem q [2, 4, 5] = true) : q ≠ 3 ∧ q ≠ 0 := by
  constructor <;> (rintro rfl; exact absurd moves (by decide))

theorem axisState_rests {q : Nat} (rests : natMem q [0, 1, 6] = true) :
    q ≠ 3 ∧ q ≠ 4 ∧ natMem q [2, 4, 5] = false ∧ natMem q [2, 3, 5] = false := by
  have is : q = 0 ∨ q = 1 ∨ q = 6 := by simpa using natMem_iff.mp rests
  obtain rfl | rfl | rfl := is <;> decide

theorem State.planned_allowed {s : State} {n : Nat} {pos vel acc : Int} (moves : natMem (s.axisState n) [2, 4, 5] = true)
    (allowed : s.axisStepAllowed n pos vel acc = true) :
    s.planned n pos vel acc = s.modAxis n fun x => { x with x := pos, v := vel, a := acc } := by
  rw [State.planned, if_neg (axisState_planned moves).1, if_pos moves, if_pos allowed]

theorem State.planned_rests {s : State} {n : Nat} (rests : natMem (s.axisState n) [0, 1, 6] = true) (pos vel acc : Int) :
    s.planned n pos vel acc = s := by
  obtain ⟨table, -, still, -⟩ := axisState_rests rests
  rw [State.planned, if_neg table, if_neg (by rw [still]; exact Bool.false_ne_true)]

theorem bitVec_toInt_eq_zero (v : BitVec 64) : v.toInt = 0 ↔ v = 0 :=
  ⟨fun h => BitVec.eq_of_toInt_eq h, fun h => by rw [h]; rfl⟩

theorem AxisSet.of_mod {n : Nat} {s t : State} {f : AuxAxis → AuxAxis} (inside : n < s.aux.axes.length) (is : t = s.modAxis n f) :
    AxisSet n (f (s.axis n)) s t :=
  is ▸ (AxisSet.refl inside).mod f

/-- The record of an axis under its table (R348). -/
def AuxAxis.inTable (l : AuxAxis) (now : Nat) (e : Nat × Int × Int) (r : List (Nat × Int × Int)) (p v : Int) (b : Nat) : AuxAxis :=
  let y := (segmentFrom p v e.1 e.2.1 e.2.2).at (now - b)
  { l with x := idiv y.1 15625, v := idiv y.2.1 4, a := idiv (y.2.2 * 15625) 16,
           table := e :: r, segPos := p, segVel := v, segStart := b }

theorem State.axisTableStep_inTable {s : State} {n : Nat} {e : Nat × Int × Int} {r : List (Nat × Int × Int)} {p v : Int} {b : Nat}
    (runs : tableAdvance s.tide (s.axis n).table (s.axis n).segPos (s.axis n).segVel (s.axis n).segStart = (e :: r, p, v, b)) :
    s.axisTableStep n = s.modAxis n fun x => x.inTable s.tide e r p v b :=
  State.axisTableStep_runs runs

/-- R346: the time since the last step is long enough, or there was none. -/
theorem State.sinceStep {s : State} {n : Nat}
    (timed : ∀ q, (s.axis n).stepAt = some q → q + s.get (Reg.AUX_CFG_STEP_HI n) + s.get (Reg.AUX_CFG_STEP_LO n) ≤ s.tide) :
    s.get (Reg.AUX_CFG_STEP_HI n) + s.get (Reg.AUX_CFG_STEP_LO n) ≤
      (match (s.axis n).stepAt with
        | some t => s.tide - t
        | none => 2 ^ 64) := by
  have high : s.get (Reg.AUX_CFG_STEP_HI n) < 2 ^ 8 := s.get_lt _ .ofNumbers
  have low : s.get (Reg.AUX_CFG_STEP_LO n) < 2 ^ 8 := s.get_lt _ .ofNumbers
  cases last : (s.axis n).stepAt with
  | none =>
    show _ ≤ 2 ^ 64
    omega
  | some q =>
    show _ ≤ s.tide - q
    have := timed q last
    omega

/-- Settles O37: the step generator by its equation, the planner by the record that it sets (`AxisSet`, `AxisWatched`), faults by what
they leave of an axis (`AxisFaulted`). -/
theorem stepsAndPlanner : Obligations.steps_and_planner := by
  unfold Obligations.steps_and_planner
  intro s
  refine ⟨fun n want is ne moves free open' home dir timed setup inside => ?_,
    fun n want q is ne moves free open' dir last late inside => ?_, fun n idle => ?_, fun n away blocked => ?_,
    fun n pos vel acc moves allowed none small inside => ?_,
    fun n pos vel acc e r p v b table advance none small inside => ?_,
    fun n pos vel acc rests none small inside => ?_,
    fun n pos vel acc moves allowed none enc large runs late inside => ?_,
    fun n a b d enc step inside => ?_, fun n a b enc step busy inside => ?_, fun n homing release inside => ?_,
    fun n away => ?_, fun n q idle rests late small inside => ?_, fun n q idle rests late large inside => ?_,
    fun n hi level rests => ?_, fun n hi level moves clear active toward inside => ?_⟩
  · subst is
    have kept := s.stepCounted_kept n
    have axis : (s.axisSteps n).axis n = _ := State.axisSteps_axis inside
    refine ⟨s.axisSteps n, ?_, (State.modAxis_get ..).trans (State.stepCounted_count n.isLt), congrArg AuxAxis.stepAt axis,
      (congrArg AuxAxis.x axis).trans rfl, fun k ne => (State.modAxis_other ne _).trans (State.axis_congr kept.aux k),
      .of_kept (.of (State.modAxis_kept ..) (.of kept .refl)),
      fun g quiet apart => (State.modAxis_get ..).trans (s.stepCounted_regs n g quiet apart)⟩
    rw [execStepGenerate_eq ne moves free open']
    dsimp only
    rw [if_neg (not_not.mpr dir.symm), if_pos ⟨State.sinceStep timed, setup⟩]
    refine congrArg Host.Outcome.next (if_neg fun lost => ?_)
    obtain ⟨homing, many, early⟩ := lost
    rw [axis] at many early
    simp only [AuxAxis.steps, homing, if_true] at many early
    have := home homing
    omega
  · subst is
    refine ⟨s.modAxis n fun x => { x with dir := decide (s.axisCount n < idiv (s.axis n).x 65536), dirAt := s.tide }, ?_,
      State.modAxis_same inside _, State.modAxis_get _ _, fun k ne => State.modAxis_other ne _, .of_kept (State.modAxis_kept ..)⟩
    have waited : s.get (Reg.AUX_CFG_STEP_HI n) ≤ s.tide - q := by omega
    rw [execStepGenerate_eq ne moves free open']
    dsimp only
    rw [last, if_pos dir.symm]
    exact congrArg Host.Outcome.next (if_pos waited)
  · refine ⟨s, if_pos ?_, rfl⟩
    show s.axisState n = 0 ∨ s.axisState n = 6 ∨ idiv (s.axis n).x 65536 = s.axisCount n ∨ s.pwr.protective = true
    rcases idle with there | rests | held
    · exact .inr (.inr (.inl there))
    · have state : s.axisState n = 0 ∨ s.axisState n = 6 := by simpa using natMem_iff.mp rests
      exact state.imp id .inl
    · exact .inr (.inr (.inr held))
  · refine ⟨s, ?_, rfl⟩
    show execStepGenerate n s = _
    unfold execStepGenerate
    dsimp only
    rw [if_pos (show s.axisState n ≠ 4 ∧ s.blockedToward n _ = true from ⟨away, blocked⟩)]
    exact ite_self _
  · have set := (AxisSet.of_mod inside (State.planned_allowed moves allowed)).homeTurn
    obtain ⟨t, run, watched⟩ := execAuxPlannerStep_watched set none rfl small
    refine ⟨t, run, watched.axis.trans ?_, watched.others, .of_kept watched.kept, watched.regs⟩
    simp only [AuxAxis.watched, bitVec_toInt_eq_zero]
  · have set := (AxisSet.of_mod inside ((if_pos table : s.planned n pos.toInt vel.toInt acc.toInt = _).trans
      (State.axisTableStep_inTable advance))).homeTurn
    obtain ⟨t, run, watched⟩ := execAuxPlannerStep_watched set none rfl small
    exact ⟨t, run, congrArg AuxAxis.x watched.axis, congrArg AuxAxis.table watched.axis, watched.others, .of_kept watched.kept,
      watched.regs⟩
  · obtain ⟨-, away, -, -⟩ := axisState_rests rests
    have stands : AxisSet n (s.axis n) s (s.planned n pos.toInt vel.toInt acc.toInt) :=
      (State.planned_rests rests ..).symm ▸ AxisSet.refl inside
    have set := stands.homeTurn
    rw [if_neg fun homing => away homing.1] at set
    obtain ⟨t, run, watched⟩ := execAuxPlannerStep_watched set none rfl small
    exact ⟨t, run, watched.axis, watched.others, .of_kept watched.kept, watched.regs⟩
  · have set := (AxisSet.of_mod inside (State.planned_allowed (by rw [moves]; rfl) allowed)).homeTurn
    have busy : s.axisBusy n = true := by rw [State.axisBusy, moves]; rfl
    have faulted := (State.watchDeviation_faults n.isLt set rfl busy enc large late).noted n.isLt (State.axisTraced_noted _ n)
    refine ⟨_, execAuxPlannerStep_eq .., ?_⟩
    rw [State.axisApplyDeferred_none (set.axis ▸ none)]
    exact ⟨faulted.state, faulted.ref, faulted.shown, faulted.x, faulted.v, faulted.a⟩
  · have inv : s.on (Reg.AUX_CFG_ENC_INV n) = true ↔ ¬ s.get (Reg.AUX_CFG_ENC_INV n) = 0 := by simp [State.on]
    refine ⟨(s.encLevels n a b).put (Reg.AUX_ENC_COUNT n)
      (wrapInt 32 (s.get (Reg.AUX_ENC_COUNT n) + (if s.on (Reg.AUX_CFG_ENC_INV n) then -d else d))),
      (execEncEdge_eq n a b s enc).trans (by rw [step]), ?_, State.modAxis_same inside _, fun k ne => State.modAxis_other ne _,
      .of_kept (.of (State.put_kept ..) (.of (State.modAxis_kept ..) .refl)), ?_⟩
    · rw [State.get_put_same _ _ _ .ofNumbers (wrapInt_lt ..)]
      congr 1
      by_cases normal : s.get (Reg.AUX_CFG_ENC_INV n) = 0
      · rw [if_pos normal, if_neg fun on => inv.mp on normal]
      · rw [if_neg normal, if_pos (inv.mpr normal), Int.sub_eq_add_neg]
    · exact fun g quiet apart => State.get_put_apart _ _ (apart _ List.mem_cons_self)
  · have faulted := (s.encLevels n a b).stepsLost_faulted n.isLt ((State.listModify_length ..).trans_gt inside) false
    refine ⟨_, (execEncEdge_eq n a b s enc).trans (by rw [step]; exact congrArg Host.Outcome.next (if_pos busy)), faulted.state,
      faulted.shown, faulted.ref, faulted.count, faulted.x, faulted.v⟩
  · have noted := s.takeReference_noted n
    have axis := (State.axis_congr noted.aux n).trans (State.modAxis_same inside _)
    exact ⟨s.takeReference n, congrArg Host.Outcome.next (if_pos ⟨homing, release⟩),
      (noted.quiet _ (Field.OfAxis.quiet (n := n) .ofNumbers)).trans (s.referencing_count n),
      (noted.quiet _ (Field.OfAxis.quiet (n := n) .ofNumbers)).trans (s.referencing_ref n),
      congrArg AuxAxis.delta axis, congrArg AuxAxis.homeStage axis,
      fun k ne => (State.axis_congr noted.aux k).trans (State.modAxis_other ne _)⟩
  · exact ⟨s, congrArg Host.Outcome.next (if_neg fun home => away.elim (· home.1) (· home.2)), rfl⟩
  · have within : (s.on (Reg.AUX_CFG_ENC_EN n) && decide (s.get (Reg.AUX_SETTLE_END_WIN n) < (s.deviation n).natAbs)) = false := by
      rcases small with off | small
      · simp [State.on, off]
      · simp [Nat.not_lt.mpr small]
    have axis := State.modAxis_same inside fun x => { x with idleAt := Option.none, job := Option.none }
    refine ⟨_, (execAuxSettleCheck_eq idle rests late).trans (congrArg Host.Outcome.next (if_neg (by rw [within]; exact Bool.false_ne_true))),
      congrArg AuxAxis.idleAt axis, congrArg AuxAxis.job axis, fun k ne => State.modAxis_other ne _, .of_kept (State.modAxis_kept ..)⟩
  · have beyond : (s.on (Reg.AUX_CFG_ENC_EN n) && decide (s.get (Reg.AUX_SETTLE_END_WIN n) < (s.deviation n).natAbs)) = true := by
      simp [State.on, large.1, large.2]
    have faulted := s.stepsLost_faulted n.isLt inside false
    exact ⟨_, (execAuxSettleCheck_eq idle rests late).trans (congrArg Host.Outcome.next (if_pos beyond)), faulted.state, faulted.shown,
      faulted.ref⟩
  · obtain ⟨-, away, -, calm⟩ := axisState_rests rests
    have still : s.movesToward n hi = false := by rw [State.movesToward, calm, Bool.false_and]
    refine ⟨s.limAccepted n hi level, ?_, s.limAccepted_shown n hi level, .of_kept (State.put_kept ..), .put _ _ _⟩
    rw [execLimitSwitch_eq away]
    exact congrArg Host.Outcome.next (if_neg fun turns => absurd (still.symm.trans turns.2.2) (by decide))
  · have away : s.axisState n ≠ 4 := fun is => by rw [is] at moves; exact absurd moves (by decide)
    have faulted := (s.limAccepted n hi level).axisFault_faulted n.isLt (show 3 < 16 by decide) inside 0x0C06 [(4, flag hi)]
    change level = s.on (limLevel n hi) at active
    refine ⟨_, (execLimitSwitch_eq away hi level).trans (congrArg Host.Outcome.next (if_pos ⟨?_, active, toward⟩)), faulted.state,
      faulted.shown, faulted.ref, faulted.v, faulted.a⟩
    rw [clear, active, decide_eq_true rfl]
    exact Bool.noConfusion

end Sys2Proof.Machine
end

section
/-! PROOFS. Tide links: what training, messages and the loss of a link leave of the registers and of a port (R366 to R379). -/
namespace Sys2Proof.Machine
set_option Elab.async false

/-! ### Fields below the cascade's -/

/-- A field of the registers between the host's and the cascade's. -/
structure Field.BelowCsc (g : Field) : Prop where
  sound : g.Sound
  low : 8 * 0x00104040 ≤ g.base
  high : g.base + g.width ≤ 8 * 0x00F00000

theorem Field.BelowCsc.quiet {g : Field} (below : g.BelowCsc) : g.Quiet := by
  obtain ⟨sound, low, high⟩ := below
  exact ⟨sound, by omega⟩

theorem Field.BelowCsc.ofNumbers {off lo w : Nat} (h : off % 4 = 0 ∧ lo + w ≤ 64 ∧ 0x00104040 ≤ off ∧
    8 * off + lo + w ≤ 8 * 0x00F00000 := by omega) : Field.BelowCsc ⟨off, lo, w⟩ :=
  ⟨⟨h.1, h.2.1⟩, by simp only [Field.base]; omega, by simp only [Field.base]; omega⟩

section Below
variable (s : State)

/-- A field of the cascade, or above it, is written. -/
theorem State.putAbove_spares {off lo w : Nat} (x : Nat) (h : off % 4 = 0 ∧ lo + w ≤ 64 ∧ 0x00F00000 ≤ off := by omega) :
    Spares Field.BelowCsc s (s.put ⟨off, lo, w⟩ x) :=
  s.put_spares x fun g below => by
    obtain ⟨sound, low, high⟩ := below
    exact ⟨⟨h.1, h.2.1⟩, sound, by simp only [Field.base] at low high ⊢; omega⟩

theorem State.raise_sparesBelow (code : Nat) (payload : List (Nat × Nat)) : Spares Field.BelowCsc s (s.raise code payload) :=
  (raise_noted s code payload).spares fun _ => Field.BelowCsc.quiet

theorem State.countAbove_spares {off : Nat} (h : off % 4 = 0 ∧ 0x00F00000 ≤ off := by decide) : Spares Field.BelowCsc s (s.count off) :=
  ⟨fun _ below => s.count_get _ below.quiet ⟨h.1, below.sound, by have := below.high; omega⟩⟩

theorem State.timeLinkLost_sparesBelow : Spares Field.BelowCsc s s.timeLinkLost := by
  unfold State.timeLinkLost
  split
  · unfold State.freeClock State.setInc
    exact .of (State.putAbove_spares _ _) (.of (State.putAbove_spares _ _) (.of (State.putAbove_spares _ _)
      (State.modTime_kept ..).spares))
  · unfold State.holdover
    extract_lets q now noted told
    split
    · exact .of (State.raise_sparesBelow _ _ _) (.of (State.countAbove_spares _) (.of (State.putAbove_spares _ _)
        (.of (State.putAbove_spares _ _) (.upd .refl))))
    · split
      · exact .upd .refl
      · exact .refl

theorem State.showPorts_sparesBelow : Spares Field.BelowCsc s s.showPorts := by
  unfold State.showPorts
  extract_lets ready shown fixed
  have fixes : Spares Field.BelowCsc shown fixed := .ite (State.putAbove_spares _ 0) .refl
  exact .of (State.putAbove_spares _ _) (.of fixes (s.putAbove_spares _))

theorem State.portTo_sparesBelow (p q : Nat) : Spares Field.BelowCsc s (s.portTo p q) := by
  have leaves : Spares Field.BelowCsc s (if s.isSlave ∧ p = 0 ∧ s.portState 0 = 6 ∧ q ≠ 6 then s.timeLinkLost else s) :=
    .ite s.timeLinkLost_sparesBelow .refl
  exact .of (State.showPorts_sparesBelow _) (.of (State.modPort_kept ..).spares (.of (State.putAbove_spares _ q) leaves))

end Below

/-! ### Messages and plans leave a port's state and its partner (R371, R376) -/

/-- A field of the cascade apart from L_F. -/
structure Field.OfLink (g : Field) : Prop where
  csc : g.OfCsc
  fixed : Reg.CSC_STATUS_LFIX.Apart g

/-- From s to t, the ports show the same, and lead to the same devices. -/
structure LinkStands (s t : State) : Prop where
  regs : Spares Field.OfLink s t
  partner : ∀ k, (t.port k).peerDevice = (s.port k).peerDevice ∧ (t.port k).peerDevices = (s.port k).peerDevices

section Links
variable {P : List Part} {s t u : State}

theorem LinkStands.refl : LinkStands s s := ⟨.refl, fun _ => ⟨rfl, rfl⟩⟩

theorem LinkStands.of (next : LinkStands t u) (first : LinkStands s t) : LinkStands s u :=
  ⟨.of next.regs first.regs, fun k => ⟨(next.partner k).1.trans (first.partner k).1, (next.partner k).2.trans (first.partner k).2⟩⟩

theorem LinkStands.ite {c : Prop} [Decidable c] (h : LinkStands s t) (k : LinkStands s u) : LinkStands s (if c then t else u) := by
  split
  · exact h
  · exact k

theorem LinkStands.fold {α : Type} {f : State → α → State} (each : ∀ x a, LinkStands x (f x a)) (l : List α) :
    LinkStands s (l.foldl f s) :=
  List.foldlRecOn l f (motive := LinkStands s) .refl fun x stands a _ => .of (each x a) stands

/-- An operation that leaves the ports' record. -/
theorem LinkStands.spares (spares : Spares Field.OfCsc s t) (csc : t.csc.ports = s.csc.ports) : LinkStands s t :=
  ⟨spares.mono fun _ link => link.csc, fun k => by rw [State.port, State.port, csc]; exact ⟨rfl, rfl⟩⟩

/-- One operation, and then a change of other things than the registers and the ports. -/
theorem LinkStands.upd (h : LinkStands s t) (regs : u.regs = t.regs := by rfl) (ports : u.csc.ports = t.csc.ports := by rfl) :
    LinkStands s u :=
  .of (.spares (.upd .refl regs) ports) h

theorem Kept.linkStands (kept : Kept P s t) (regs : Part.isIn .regs P = false := by decide)
    (csc : Part.isIn .csc P = false := by decide) : LinkStands s t :=
  .spares (kept.spares regs) (congrArg CscState.ports (kept.csc csc))

theorem LinkStands.noted (noted : Noted s t) : LinkStands s t :=
  .spares (noted.spares fun _ => Field.OfCsc.quiet) (congrArg CscState.ports noted.kept.csc)

theorem State.modPort_linkStands (s : State) (p : Nat) {f : CscPort → CscPort}
    (same : ∀ c, (f c).peerDevice = c.peerDevice ∧ (f c).peerDevices = c.peerDevices) : LinkStands s (s.modPort p f) := by
  refine ⟨(State.modPort_kept ..).spares, fun k => ?_⟩
  rw [State.port_eq_getElem?, State.port_eq_getElem?, State.modPort, listModify_eq_modify, List.getElem?_modify]
  cases s.csc.ports[k]? with
  | none => exact ⟨rfl, rfl⟩
  | some c =>
    by_cases here : p = k
    · simpa [here] using same c
    · simp [here]

variable (s)

theorem State.send_linkStands (p typ : Nat) (fields : List Int) : LinkStands s (s.send p typ fields) :=
  s.modPort_linkStands p fun _ => ⟨rfl, rfl⟩

theorem State.sendAll_linkStands (typ : Nat) (fields : List Int) : LinkStands s (s.sendAll typ fields) :=
  .fold (fun x p => x.send_linkStands p typ fields) _

theorem State.countCsc_linkStands (i : Nat) : LinkStands s (s.count (cntCsc i)) :=
  .spares (s.count_sparesCsc (by unfold cntCsc; omega)) (congrArg CscState.ports (s.count_kept _).csc)

theorem State.newLatency_linkStands : LinkStands s s.newLatency := by
  unfold State.newLatency
  extract_lets ready shown
  have shows : LinkStands s shown := ⟨s.put_spares _ fun _ link => link.fixed, fun _ => ⟨rfl, rfl⟩⟩
  exact .ite .refl (.of (.ite (State.sendAll_linkStands _ 6 _) .refl) shows)

theorem State.planInterval_linkStands (slot : Nat) (r : Int) : LinkStands s (s.planInterval slot r) := by
  unfold State.planInterval
  extract_lets others old lowered
  split
  · exact .refl
  · split
    extract_lets lowered' plan planned counted traced near told freed
    have counts : LinkStands s counted :=
      .spares (.of (State.count_sparesCsc _ (by decide)) (.upd .refl)) (congrArg CscState.ports (State.count_kept _ _).csc)
    have sent : LinkStands s told :=
      .of (.ite .refl (.ite (State.sendAll_linkStands _ _ _) (State.sendAll_linkStands _ _ _)))
        (.of (.noted (trace_noted _ _ _)) counts)
    have cleared : LinkStands s freed := .of (State.modStrip_kept _ _ _).linkStands sent
    exact .ite (.of (State.modStrip_kept _ _ _).linkStands (.of (.noted (raise_noted _ _ _)) cleared)) cleared

theorem State.linkLimit_linkStands : LinkStands s s.linkLimit := by
  unfold State.linkLimit
  extract_lets _ _ _ new old limited
  have shown : LinkStands s limited :=
    .of (.noted (raise_noted _ _ _)) (.spares (s.putOutside_spares _) rfl)
  have replanned : LinkStands limited limited.replan :=
    .fold (fun x (p : IntervalPlan) => x.planInterval_linkStands p.slot p.r) _
  exact .ite .refl (.ite .refl (.ite (.of replanned shown) shown))

theorem State.sendHalo_linkStands (slot r : Nat) : LinkStands s (s.sendHalo slot r) := by
  unfold State.sendHalo
  split
  · exact .refl
  · refine .fold (fun x side => .ite ?_ .refl) _
    split
    · exact .refl
    · extract_lets rows sent
      have sends : LinkStands x sent := .fold (fun x q => .of (State.countCsc_linkStands _ 2) (x.send_linkStands _ 9 _)) _
      exact .upd sends

theorem State.sendHalos_linkStands : LinkStands s s.sendHalos :=
  .fold (fun _ _ => .fold (fun x r => x.sendHalo_linkStands _ r) _) _

theorem State.sendWaiting_linkStands (p : Nat) : LinkStands s (s.sendWaiting p) := by
  unfold State.sendWaiting
  extract_lets d go waits left
  have drops : LinkStands s left := .upd .refl
  exact .of (.fold (fun x h => .of (State.countCsc_linkStands _ 2) (x.send_linkStands p 9 _)) _) drops

end Links

/-! ### A stop leaves the cascade's registers (R313, R314) -/

theorem stopFields_csc : ∀ f ∈ stopFields, f.Sound ∧ f.base + f.width ≤ 8 * 0x00F00000 := by
  simp [stopFields, breakFields, Field.Sound, Field.base]

section Stops
variable (s : State)

theorem State.putStop_sparesCsc {f : Field} (x : Nat) (stop : f ∈ stopFields := by simp [stopFields, breakFields]) :
    Spares Field.OfCsc s (s.put f x) := s.put_spares x fun g csc => by
  obtain ⟨sound, within⟩ := stopFields_csc f stop
  exact ⟨sound, csc.sound, by have := csc.low; omega⟩

theorem State.enterBreak_sparesCsc (cause kind : Nat) (tB : Int) (hold : Bool) (more : List (Nat × Nat)) :
    Spares Field.OfCsc s (s.enterBreak cause kind tB hold more) := by
  unfold State.enterBreak
  split
  · exact .refl
  case h_2 st _ =>
    extract_lets index m p s₁ s₂ s₃ _ s₄ s₅ s₆ s₇
    have recorded : Spares Field.OfCsc s p.1 := (s.recordMark_kept _ _).spares
    have used : Spares Field.OfCsc p.1 (p.1.marksUsed st.slot) :=
      .ite .refl (.of (State.raise_sparesCsc _ _ _) (State.modStrip_kept _ st.slot _).spares)
    have marked : Spares Field.OfCsc s s₁ := .of (State.setFinalBreak_kept _ _ _).spares (.ite recorded (.of used recorded))
    have shown : Spares Field.OfCsc s₁ s₂ := s₁.puts_spares breakFields fun g csc f shows => by
      obtain ⟨sound, within⟩ := stopFields_csc f (List.mem_append_left _ shows)
      exact ⟨sound, csc.sound, by have := csc.low; omega⟩
    have settled : Spares Field.OfCsc s₂ s₄ := .upd (t := s₃) (s₂.modStrip_kept _ _).spares
    have held : Spares Field.OfCsc s₄ s₅ := .ite (.of (State.putStop_sparesCsc _ 1) (State.modStrip_kept _ _ _).spares) .refl
    have stops : Spares Field.OfCsc s₅ s₅.stopProfile := .ite (.upd (s₅.putStop_sparesCsc (f := Reg.TID_PRF_STATUS_STATE) 2)) .refl
    have enters : Spares Field.OfCsc s₅.stopProfile s₆ := .of (State.putStop_sparesCsc _ _) (State.putStop_sparesCsc _ 6)
    have counted : Spares Field.OfCsc s₆ s₇ := State.count_sparesCsc _ (by split <;> decide)
    exact .of (State.raise_sparesCsc _ _ _) (.of counted (.of enters (.of stops (.of held (.of settled (.of shown marked))))))

/-- R313, R377: a hardware stop of a strip in EXPOSE or RESUME, with no prompt stop pending. -/
theorem State.hardwareStop_eq {m : State} {st : Strip} (isOpen : m.openStrip = some st) (fires : m.firing = true)
    (noPrompt : m.seq.prompt = none) (cause : Nat) :
    let broken := m.enterBreak cause 1 m.hardwareTick false []
    m.hardwareStop cause false = broken.sendStop (broken.get Reg.EXP_BREAK_CAUSE) (broken.get Reg.EXP_BREAK_KIND) m.hardwareTick
      (broken.get Reg.CSC_CFG_DEVICE) := by
  unfold State.hardwareStop
  simp only [isOpen, fires, noPrompt, if_true]

end Stops

end Sys2Proof.Machine
end

section
/-! PROOFS. Tide links: the training states of a port (R367 to R369). -/
namespace Sys2Proof.Machine
set_option Elab.async false

/-! ### The lanes in training (R242, R248, R249) -/

/-- What a preset in force shows on a transmit lane. -/
def txFields (lane : Nat) : List Field :=
  [Reg.LNS_LANE_TX_PRESET lane, Reg.LNS_LANE_TX_PRE lane, Reg.LNS_LANE_TX_MAIN lane, Reg.LNS_LANE_TX_POST lane]

theorem State.usePreset_spares {P : Field → Prop} (s : State) {lane : Nat} (k : Nat)
    (apart : ∀ g, P g → ∀ f ∈ txFields lane, f.Apart g) : Spares P s (s.usePreset lane k) := by
  unfold State.usePreset
  split
  · exact s.puts_spares (txFields lane) apart
  · exact .refl

/-- A field within the word of a receiver's state, or one of the cascade's registers. -/
def Field.Received (g : Field) : Prop := (∃ l, l < 268 ∧ g = Reg.LNS_LANE_RX_ALIGNED l) ∨ g.OfCsc

theorem Field.Received.offTx {g : Field} (received : g.Received) {lane : Nat} (few : lane < 268) : ∀ f ∈ txFields lane, f.Apart g := by
  have range : ∀ f ∈ txFields lane, f.Sound ∧ 8 * (0x00901004 + lane * 0x10) ≤ f.base ∧
      f.base + f.width ≤ 8 * (0x00901004 + lane * 0x10) + 32 := by
    simp only [txFields, List.forall_mem_cons, List.not_mem_nil, false_implies, implies_true, and_true, Field.Sound, Field.base]
    omega
  intro f listed
  obtain ⟨sound, low, high⟩ := range f listed
  rcases received with ⟨l, lane, rfl⟩ | csc
  · exact ⟨sound, ⟨show (0x00901008 + l * 0x10) % 4 = 0 by omega, show 31 + 1 ≤ 64 by decide⟩, by simp only [Field.base] at low high ⊢; omega⟩
  · exact ⟨sound, csc.sound, by have := csc.low; omega⟩

/-- ALIGN ends: both receivers are aligned, and EQ begins. -/
def State.lanesAligned (s : State) (p : Nat) (lane0 lane1 : LaneTrain) : State :=
  (((s.tideAligned (262 + 2 * p) lane0).tideAligned (262 + 2 * p + 1) lane1).portLanes p 3).usePreset (256 + 2 * p)
    (s.get (Reg.LNS_LANE_CTRL_PRESET (256 + 2 * p))) |>.usePreset (256 + 2 * p + 1)
      (s.get (Reg.LNS_LANE_CTRL_PRESET (256 + 2 * p + 1)))

/-- EQ ends: the eyes and the presets that the receivers have passed. -/
def State.lanesEqualised (s : State) (p : Nat) (lane0 lane1 : LaneTrain) : State :=
  (s.tideEqualised (262 + 2 * p) (256 + 2 * p) lane0).tideEqualised (262 + 2 * p + 1) (256 + 2 * p + 1) lane1

theorem State.lanesAligned_kept (s : State) (p : Nat) (lane0 lane1 : LaneTrain) : Kept reports s (s.lanesAligned p lane0 lane1) :=
  .of (State.usePreset_kept ..) (.of (State.usePreset_kept ..) (.of (State.portLanes_kept ..) (.of (State.tideAligned_kept ..)
    (.of (State.tideAligned_kept ..) .refl))))

theorem State.lanesEqualised_kept (s : State) (p : Nat) (lane0 lane1 : LaneTrain) : Kept reports s (s.lanesEqualised p lane0 lane1) :=
  .of (State.tideEqualised_kept ..) (.of (State.tideEqualised_kept ..) .refl)

theorem State.lanesAligned_spares (s : State) {p : Nat} (port : p < 3) (lane0 lane1 : LaneTrain) :
    ∃ t : State, Spares Field.Received (t.portLanes p 3) (s.lanesAligned p lane0 lane1) :=
  ⟨_, .of (State.usePreset_spares _ _ fun _ received => received.offTx (by omega))
    (State.usePreset_spares _ _ fun _ received => received.offTx (by omega))⟩

theorem State.lanesAligned_lanes (s : State) {p : Nat} (port : p < 3) (lane0 lane1 : LaneTrain) :
    (s.lanesAligned p lane0 lane1).get (Reg.CSC_PORT_LANES p) = 3 := by
  obtain ⟨t, spares⟩ := s.lanesAligned_spares port lane0 lane1
  exact (spares.get _ (.inr .ofNumbers)).trans (t.portLanes_lanes 3 port (by decide))

theorem State.lanesAligned_aligned (s : State) {p i : Nat} (port : p < 3) (lane : i < 2) (lane0 lane1 : LaneTrain) :
    (s.lanesAligned p lane0 lane1).get (Reg.LNS_LANE_RX_ALIGNED (262 + 2 * p + i)) = 1 := by
  obtain ⟨t, spares⟩ := s.lanesAligned_spares port lane0 lane1
  refine (spares.get _ (.inl ⟨_, by omega, rfl⟩)).trans ((t.portLanes_aligned 3 lane).trans ?_)
  interval_cases i <;> rfl

/-! ### The states of training (R367) -/

section Train
variable {s : State} {p : Fin 3} {found : PortTrain} {device : BitVec 2} {devices : BitVec 3} {spread : Bool}

theorem exec_trainAlign (align : s.portState p = 1) : exec (.cscTrainStepDone p found device devices spread) s =
    .next (if s.adapted (262 + 2 * p) found.lane0.seen ∧ s.adapted (263 + 2 * p) found.lane1.seen
      then (s.lanesAligned p found.lane0 found.lane1).portTo p 2 else s) := by
  rw [show 263 + 2 * p.val = 262 + 2 * p.val + 1 by omega]
  show execCscTrainStepDone p found device devices spread s = _
  unfold execCscTrainStepDone
  dsimp only
  rw [align]
  rfl

theorem exec_trainEq (eq : s.portState p = 2) : exec (.cscTrainStepDone p found device devices spread) s =
    .next (if s.eyeOk found.lane0 ∧ s.eyeOk found.lane1 then (s.lanesEqualised p found.lane0 found.lane1).portTo p 3 else s) := by
  show execCscTrainStepDone p found device devices spread s = _
  unfold execCscTrainStepDone
  dsimp only
  rw [eq]
  rfl

theorem exec_trainDeskew (deskew : s.portState p = 3) : exec (.cscTrainStepDone p found device devices spread) s =
    .next (if 8 < found.skew.toNat then s.portFails p 3 else s.portTo p 4) := by
  show execCscTrainStepDone p found device devices spread s = _
  unfold execCscTrainStepDone
  dsimp only
  rw [deskew]
  rfl

theorem exec_trainLatency (latency : s.portState p = 4) : exec (.cscTrainStepDone p found device devices spread) s =
    .next (if s.isSlave then s else s.endLatency p) := by
  show execCscTrainStepDone p found device devices spread s = _
  unfold execCscTrainStepDone
  dsimp only
  rw [latency]
  rfl

theorem exec_trainTime (time : s.portState p = 5) : exec (.cscTrainStepDone p found device devices spread) s =
    .next (s.endTime p device.toNat devices.toNat spread) := by
  show execCscTrainStepDone p found device devices spread s = _
  unfold execCscTrainStepDone
  dsimp only
  rw [time]
  rfl

end Train

/-! ### LATENCY (R368) -/

/-- The one-way delay is shown, and TIME begins. -/
def State.latencyEnds (s : State) (p : Nat) (w : Int) : State := (s.put (Reg.CSC_PORT_ONEWAY p) (wrapInt 16 w)).portTo p 5

section Latency
variable {s : State} {p : Nat}

theorem State.endLatency_waits (few : (s.port p).markers.length < 8) : s.endLatency p = s := if_pos few

theorem State.endLatency_fails (enough : 8 ≤ (s.port p).markers.length)
    (wrong : markerSpread (s.port p).markers = true ∨ 3600 < onewayOf (s.port p).markers (s.getS (Reg.CSC_SKEW_SKEW p))) :
    s.endLatency p = s.portFails p 4 :=
  (if_neg (Nat.not_lt.mpr enough)).trans (if_pos wrong)

theorem State.endLatency_ends {w : Int} (enough : 8 ≤ (s.port p).markers.length) (close : markerSpread (s.port p).markers = false)
    (is : w = onewayOf (s.port p).markers (s.getS (Reg.CSC_SKEW_SKEW p))) (short : w ≤ 3600) :
    s.endLatency p = (s.latencyEnds p w).send p 11 [(s.latencyEnds p w).headTime, w] := by
  subst is
  refine (if_neg (Nat.not_lt.mpr enough)).trans (if_neg ?_)
  rw [close]
  exact fun wrong => wrong.elim Bool.noConfusion (Int.not_lt.mpr short)

theorem State.latencyEnds_oneway (port : p < 3) (w : Int) : (s.latencyEnds p w).get (Reg.CSC_PORT_ONEWAY p) = wrapInt 16 w :=
  ((State.portTo_spares _ 5).get _ ⟨.ofNumbers, .ofNumbers, .ofNumbers⟩).trans (s.get_put_same _ _ .ofNumbers (wrapInt_lt ..))

end Latency

/-! ### TIME (R369, R370) -/

/-- The port is READY: the state and the partner's numbers. -/
def State.portJoins (s : State) (p device devices : Nat) : State :=
  (s.modPort p fun c => { c with peerDevice := device, peerDevices := devices }).portTo p 6

/-- What follows from a port that is READY. -/
def State.joined (s : State) (p : Nat) : State :=
  let t := s.newLatency
  ((t.raise 0x0D01 [(1, p), (4, t.get (Reg.CSC_PORT_ONEWAY p)), (4, t.get Reg.CSC_STATUS_LFIX)]).sendHalos.sendWaiting p).linkLimit

theorem State.joined_stands (s : State) (p : Nat) : LinkStands s (s.joined p) :=
  .of (State.linkLimit_linkStands _) (.of (State.sendWaiting_linkStands _ p) (.of (State.sendHalos_linkStands _)
    (.of (.noted (raise_noted ..)) s.newLatency_linkStands)))

section Time
variable {s : State} {p device devices : Nat} {spread : Bool}

theorem State.endTime_waits (master : s.isSlave = false) (few : (s.port p).checks.length < 4) :
    s.endTime p device devices spread = s := if_pos ⟨by rw [master]; decide, few⟩

theorem State.endTime_fails (enough : s.isSlave = true ∨ 4 ≤ (s.port p).checks.length)
    (wrong : (s.port p).checks.any (fun x => decide (s.get Reg.CSC_LAT_TOL < x.natAbs)) = true ∨ spread = true ∨
      s.get Reg.LNS_REF_CTRL_SSC_APPLIED ≠ 0) : s.endTime p device devices spread = s.portFails p 5 := by
  have ends : ¬ (¬ s.isSlave = true ∧ (s.port p).checks.length < 4) := fun waits => enough.elim waits.1 (Nat.not_le.mpr waits.2)
  refine (if_neg ends).trans (if_pos ?_)
  simpa only [Int.ofNat_lt] using wrong

theorem State.endTime_joins (enough : s.isSlave = true ∨ 4 ≤ (s.port p).checks.length)
    (close : (s.port p).checks.all (fun x => decide (x.natAbs ≤ s.get Reg.CSC_LAT_TOL)) = true) (still : spread = false)
    (none : s.get Reg.LNS_REF_CTRL_SSC_APPLIED = 0) :
    s.endTime p device devices spread = (s.portJoins p device devices).joined p := by
  have ends : ¬ (¬ s.isSlave = true ∧ (s.port p).checks.length < 4) := fun waits => enough.elim waits.1 (Nat.not_le.mpr waits.2)
  refine (if_neg ends).trans (if_neg ?_)
  rintro (far | spreads | modulated)
  · obtain ⟨x, listed, far⟩ := List.any_eq_true.mp far
    have near := of_decide_eq_true (List.all_eq_true.mp close x listed)
    exact absurd (Int.ofNat_lt.mp (of_decide_eq_true far)) (Nat.not_lt.mpr near)
  · rw [still] at spreads
    cases spreads
  · exact modulated none

end Time

/-! ### Head time on a slave (R369) -/

theorem wrapInt_cast (n : Nat) (v : Int) : ((wrapInt n v : Nat) : Int) = v % 2 ^ n :=
  Int.toNat_of_nonneg (Int.emod_nonneg v (by positivity))

theorem wrapInt_shift (c h0 target : Int) :
    wrapInt 64 (c + (wrapInt 64 (h0 + target - wrapInt 64 (c + h0)) : Nat)) = wrapInt 64 target := by
  have same : ((wrapInt 64 (c + (wrapInt 64 (h0 + target - wrapInt 64 (c + h0)) : Nat)) : Nat) : Int) = (wrapInt 64 target : Nat) := by
    rw [wrapInt_cast, wrapInt_cast, wrapInt_cast, wrapInt_cast]
    omega
  exact Int.ofNat.inj same

/-- Head time without what it starts from. -/
def State.headRun (s : State) : Int := s.headOf (64 * s.tide) - s.headTime0

theorem State.headTime_eq (s : State) : s.headTime = wrapInt 64 (s.headRun + s.headTime0) := by
  rw [State.headTime, State.headRun, Int.sub_add_cancel]

theorem State.headRun_congr {s t : State} (tide : t.tide = s.tide)
    (ssc : t.get Reg.LNS_REF_CTRL_SSC_APPLIED = s.get Reg.LNS_REF_CTRL_SSC_APPLIED) : t.headRun = s.headRun := by
  simp only [State.headRun, State.headOf, tide, ssc, Int.add_sub_cancel]

/-- The slave's head time is set. -/
def State.headSet (s : State) (h : BitVec 64) (w : BitVec 16) : State :=
  { s with headTime0 := wrapInt 64 ((s.headTime0 : Int) + h.toNat + w.toNat - s.headTime) }

theorem State.headSet_headTime {s t : State} {h : BitVec 64} {w : BitVec 16} (start : t.headTime0 = (s.headSet h w).headTime0)
    (tide : t.tide = s.tide) (ssc : t.get Reg.LNS_REF_CTRL_SSC_APPLIED = s.get Reg.LNS_REF_CTRL_SSC_APPLIED) :
    t.headTime = (h.toNat + w.toNat) % 2 ^ 64 := by
  have sum : (s.headTime0 : Int) + h.toNat + w.toNat - s.headTime = s.headTime0 + (h.toNat + w.toNat) - s.headTime := by omega
  rw [State.headTime_eq, start, State.headRun_congr tide ssc, State.headSet, sum, s.headTime_eq, wrapInt_shift]
  have cast : ((wrapInt 64 (h.toNat + w.toNat) : Nat) : Int) = ((h.toNat + w.toNat) % 2 ^ 64 : Nat) := by
    rw [wrapInt_cast]
    omega
  exact Int.ofNat.inj cast

end Sys2Proof.Machine
end

section
/-! PROOFS. Tide links: the loss of a lane, and of a port (R371, R379). -/
namespace Sys2Proof.Machine
set_option Elab.async false

/-! ### The loss of a port (R379) -/

/-- The halo rows of a port that have no ACK wait for it. -/
def State.halosWait (s : State) (p : Nat) : State :=
  let halos := (s.port p).unacked.filterMap fun m => if m.typ = 9 then some ((s.port p).peerDevice, m.fields) else none
  { s with csc := { s.csc with haloWaits := s.csc.haloWaits ++ halos } }

/-- A port goes to DOWN. -/
def State.portDrops (s : State) (p cause : Nat) : State :=
  ((((((s.put (Reg.CSC_PORT_CAUSE p) cause).portTo p 0).halosWait p).portLanes p 0).modPort p fun c =>
    { c with unacked := [] }).count (cntCsc 5))

/-- The loss of a port is told. -/
def State.dropTold (s : State) (p cause : Nat) : State :=
  (s.portDrops p cause).raiseSev 0x0D04 (if s.openStrip.isSome && natMem (s.get Reg.EXP_STATE_STATE) [3, 4, 5, 6, 7] then 3 else 2)
    [(1, p), (6, (s.portDrops p cause).get Reg.TID_TICK_INDEX)]

theorem State.portLost_eq (s : State) (p cause : Nat) : s.portLost p cause =
    if (s.dropTold p cause).firing then (s.dropTold p cause).hardwareStop 16 false
    else if s.get Reg.EXP_STATE_STATE = 3 then (s.dropTold p cause).abandonFlood (65536 + 16) .retry
    else s.dropTold p cause := rfl

/-- From s to t, port p has gone to DOWN with a cause. -/
structure PortDropped (p cause : Nat) (s t : State) : Prop where
  state : t.portState p = 0
  shown : t.get (Reg.CSC_PORT_CAUSE p) = cause
  lanes : t.get (Reg.CSC_PORT_LANES p) = 0
  ready : bitAt (t.get Reg.CSC_STATUS_READY) p = false
  unacked : p < s.csc.ports.length → (t.port p).unacked = []
  kept : Kept (.csc :: reports) s t
  exp : Spares Field.OfExpState s t

theorem PortDropped.noted {p cause : Nat} {s t u : State} (dropped : PortDropped p cause s t) (port : p < 3) (noted : Noted t u) :
    PortDropped p cause s u := by
  have stands : Spares Field.OfCsc t u := noted.spares fun _ => Field.OfCsc.quiet
  exact {
    state := (stands.get _ .ofNumbers).trans dropped.state
    shown := (stands.get _ .ofNumbers).trans dropped.shown
    lanes := (stands.get _ .ofNumbers).trans dropped.lanes
    ready := (congrArg (bitAt · p) (stands.get _ .ofNumbers)).trans dropped.ready
    unacked := fun inside => (congrArg CscPort.unacked (State.port_congr noted.kept.csc p)).trans (dropped.unacked inside)
    kept := .of noted.kept dropped.kept
    exp := .of noted.rests.shown dropped.exp }

theorem Field.OfExpState.below {g : Field} (shown : g.OfExpState) : g.BelowCsc := by
  obtain ⟨word, within⟩ := shown
  exact ⟨⟨by omega, by omega⟩, by simp only [Field.base]; omega, by simp only [Field.base]; omega⟩

theorem State.portTo_length (s : State) (p q : Nat) : (s.portTo p q).csc.ports.length = s.csc.ports.length := by
  have lost : (if s.isSlave ∧ p = 0 ∧ s.portState 0 = 6 ∧ q ≠ 6 then s.timeLinkLost else s).csc = s.csc := by
    split
    · exact s.timeLinkLost_kept.csc
    · rfl
  rw [State.portTo_eq, (State.showPorts_kept _).csc]
  exact (State.listModify_length ..).trans (congrArg (fun c : CscState => c.ports.length) lost)

section Drops
variable (s : State) {p cause : Nat}

theorem State.putOff_exp {off lo w : Nat} (x : Nat) (h : Field.OffExpState ⟨off, lo, w⟩ := by dsimp only [Field.OffExpState]; omega) :
    Spares Field.OfExpState s (s.put ⟨off, lo, w⟩ x) := (s.put_rests x h).shown

theorem State.portLanes_exp (lanes : Nat) (port : p < 3) : Spares Field.OfExpState s (s.portLanes p lanes) := by
  rw [State.portLanes_eq]
  exact .of (State.putOff_exp _ _) (.of (State.putOff_exp _ _) (.of (State.putOff_exp _ _) (.of (State.putOff_exp _ _)
    (s.putOff_exp lanes))))

theorem State.portDrops_dropped (port : p < 3) (known : cause < 16) : PortDropped p cause s (s.portDrops p cause) := by
  let told := s.put (Reg.CSC_PORT_CAUSE p) cause
  let down := told.portTo p 0
  let waiting := down.halosWait p
  let dark := waiting.portLanes p 0
  let cleared := dark.modPort p fun c => { c with unacked := [] }
  have counted {g : Field} (csc : g.OfCsc) : (s.portDrops p cause).get g = dark.get g :=
    ((State.count_sparesCsc cleared (by decide)).get g csc).trans ((State.modPort_kept ..).spares.get g csc)
  have off {g : Field} (csc : g.OfCsc) (apart : (Reg.CSC_PORT_LANES p).Apart g) : (s.portDrops p cause).get g = down.get g :=
    (counted csc).trans ((waiting.portLanes_spares 0 port (P := (· = g)) (fun _ here => here ▸ csc)
      (fun _ here => here ▸ apart)).get _ rfl)
  have downKept : Kept (.csc :: reports) s down := .of (State.portTo_kept ..) (.of (State.put_kept ..) .refl)
  have darkCsc : dark.csc = waiting.csc := (State.portLanes_kept waiting p 0).csc
  have state : down.portState p = 0 := told.portTo_state 0 port (by decide)
  refine ⟨(off .ofNumbers .ofNumbers).trans state, ?_, (counted .ofNumbers).trans (waiting.portLanes_lanes 0 port (by decide)), ?_,
    fun inside => ?_, ?_, ?_⟩
  · refine (off .ofNumbers .ofNumbers).trans (((told.portTo_spares 0).get _ ⟨.ofNumbers, .ofNumbers, .ofNumbers⟩).trans ?_)
    exact s.get_put_same _ cause .ofNumbers (show cause < 2 ^ 4 by omega)
  · rw [off .ofNumbers .ofNumbers, State.portTo_ready _ _ port]
    exact decide_eq_false (by rw [state]; decide)
  · have long : p < dark.csc.ports.length := by
      rw [darkCsc]
      exact (told.portTo_length p 0).symm ▸ inside
    have clears := State.modPort_same dark (fun c => { c with unacked := [] }) long
    exact congrArg CscPort.unacked ((State.port_congr (State.count_kept cleared _).csc p).trans clears)
  · exact .of (State.count_kept ..) (.of (State.modPort_kept ..) (.of (State.portLanes_kept ..) (.upd [.csc] downKept)))
  · exact .of (State.count_rests _).shown (.of (State.modPort_kept ..).spares (.of (waiting.portLanes_exp 0 port)
      (.of (.upd .refl) (.of ((told.portTo_sparesBelow p 0).mono fun _ => Field.OfExpState.below) (s.putOff_exp cause)))))

end Drops

theorem State.dropTold_dropped (s : State) {p cause : Nat} (port : p < 3) (known : cause < 16) :
    PortDropped p cause s (s.dropTold p cause) :=
  (s.portDrops_dropped port known).noted port (raiseSev_noted ..)

theorem PortDropped.expState {p cause : Nat} {s t : State} (dropped : PortDropped p cause s t) :
    t.get Reg.EXP_STATE_STATE = s.get Reg.EXP_STATE_STATE := dropped.exp.get _ stateField

theorem PortDropped.firing {p cause : Nat} {s t : State} (dropped : PortDropped p cause s t) : t.firing = s.firing := by
  rw [State.firing, State.firing, dropped.expState]

/-- R379: outside exposure the loss of a port stops nothing. -/
theorem State.portLost_calm (s : State) {p cause : Nat} (port : p < 3) (known : cause < 16) (calm : s.firing = false)
    (unflooded : s.get Reg.EXP_STATE_STATE ≠ 3) : s.portLost p cause = s.dropTold p cause := by
  have same := (s.dropTold_dropped port known).firing
  rw [State.portLost_eq, same, calm]
  exact (if_neg Bool.false_ne_true).trans (if_neg unflooded)

/-- R379: in exposure the loss of a port breaks the strip, by a hardware stop with CAUSE 16. -/
theorem State.portLost_breaks {s : State} {p cause : Nat} {st : Strip} (port : p < 3) (known : cause < 16)
    (isOpen : s.openStrip = some st) (fires : s.firing = true) (noPrompt : s.seq.prompt = none) :
    (s.portLost p cause).portState p = 0 ∧ (s.portLost p cause).get Reg.EXP_STATE_STATE = 6 ∧
      (s.portLost p cause).get Reg.EXP_BREAK_CAUSE = 16 ∧ (s.portLost p cause).get Reg.EXP_BREAK_KIND = 1 := by
  have dropped := s.dropTold_dropped port known
  have still : (s.dropTold p cause).openStrip = some st := (State.openStrip_congr dropped.kept.box).trans isOpen
  have fires := dropped.firing.trans fires
  have noPrompt : (s.dropTold p cause).seq.prompt = none := (congrArg SeqState.prompt dropped.kept.seq).trans noPrompt
  have broken := State.enterBreak_broken still (show 16 < 256 by decide) (show 1 < 4 by decide) (s.dropTold p cause).hardwareTick []
  have lost : s.portLost p cause = (s.dropTold p cause).hardwareStop 16 false := by
    rw [State.portLost_eq]
    exact if_pos fires
  have sent (g : Field) : (s.portLost p cause).get g =
      ((s.dropTold p cause).enterBreak 16 1 (s.dropTold p cause).hardwareTick false []).get g := by
    rw [lost, State.hardwareStop_eq still fires noPrompt 16]
    exact (State.sendStop_kept ..).spares.get (P := fun _ => True) g trivial
  exact ⟨(sent _).trans (((State.enterBreak_sparesCsc ..).get _ .ofNumbers).trans dropped.state), (sent _).trans broken.state,
    (sent _).trans broken.byCause, (sent _).trans broken.byKind⟩

/-! ### The loss of a lane (R246, R248, R379) -/

/-- A tide lane's receiver loses its alignment, at what it has seen. -/
def State.laneDark (s : State) (l : Nat) (idle : Bool) (seen : RxSeen) : State :=
  let t := s.sees l seen
  ((if idle then t.put (Reg.LNS_LANE_RX_EIDLE l) 1 else t.raise 0x0701 [(2, l), (1, Config.eventCode 0x0701 0)]).count
    (cntLns l 0)).put (Reg.LNS_LANE_RX_ALIGNED l) 0

theorem execTlLaneLost_holds {s : State} {p : Fin 3} {lane : Fin 2} {idle : Bool} {seen : RxSeen}
    (fine : s.get (Reg.LNS_LANE_RX_ALIGNED (262 + 2 * p + lane)) = 0 ∨ (idle = false ∧ seen.errors.toNat < 8)) :
    exec (.tlLaneLost p ⟨lane, idle, seen⟩) s = .next s := by
  refine congrArg Host.Outcome.next (if_neg ?_)
  rintro ⟨aligned, idles | errors⟩ <;> rcases fine with dark | ⟨active, few⟩
  · simp [State.on, dark] at aligned
  · rw [active] at idles
    cases idles
  · simp [State.on, dark] at aligned
  · exact absurd errors (Nat.not_le.mpr few)

theorem execTlLaneLost_loses {s : State} {p : Fin 3} {lane : Fin 2} {idle : Bool} {seen : RxSeen}
    (aligned : s.get (Reg.LNS_LANE_RX_ALIGNED (262 + 2 * p + lane)) = 1) (lost : idle = true ∨ 8 ≤ seen.errors.toNat) :
    exec (.tlLaneLost p ⟨lane, idle, seen⟩) s =
      .next ((s.laneDark (262 + 2 * p + lane) idle seen).tideLaneLost p lane) := by
  have on : s.on (Reg.LNS_LANE_RX_ALIGNED (262 + 2 * p + lane)) = true := by simp [State.on, aligned]
  have port : (262 + 2 * p.val + lane.val - 262) / 2 = p.val := by omega
  have side : (262 + 2 * p.val + lane.val - 262) % 2 = lane.val := by omega
  refine congrArg Host.Outcome.next ((if_pos ⟨on, lost⟩).trans ?_)
  unfold State.loseLane
  rw [if_neg (show ¬ 262 + 2 * p.val + lane.val < 256 by omega), port, side]
  cases idle with
  | true => rfl
  | false => rfl

section Dark
variable (s : State) {l : Nat} (idle : Bool) (seen : RxSeen)

theorem State.laneDark_kept : Kept reports s (s.laneDark l idle seen) := by
  have sees : Kept reports s (s.sees l seen) := s.sees_kept l seen
  exact .of (State.put_kept ..) (.of (State.count_kept ..) (.ite (.of (State.put_kept ..) sees) (.of (State.raise_kept ..) sees)))

theorem State.sees_spares {P : Field → Prop} (tide : 256 ≤ l) (apart : ∀ g, P g → g.Quiet ∧ g.Off (cntLns l 1) ∧
    (Reg.LNS_LANE_RX_CTLE l).Apart g ∧ (Reg.LNS_LANE_RX_FROZEN l).Apart g) : Spares P s (s.sees l seen) := by
  unfold State.sees
  extract_lets frozen code last shown
  have shows : Spares P s shown := by
    have puts : Spares P s (s.puts [(Reg.LNS_LANE_RX_CTLE l, code), (Reg.LNS_LANE_RX_FROZEN l, last)]) :=
      s.puts_spares [Reg.LNS_LANE_RX_CTLE l, Reg.LNS_LANE_RX_FROZEN l] fun g holds f listed => by
        obtain ⟨-, -, code, last⟩ := apart g holds
        rcases List.mem_cons.mp listed with rfl | listed
        · exact code
        · exact List.mem_singleton.mp listed ▸ last
    exact .of ⟨fun g holds => State.countBy_get _ (apart g holds).1 (apart g holds).2.1 _⟩ puts
  rw [if_neg fun head => absurd head.2 (Nat.not_lt.mpr tide)]
  exact shows

/-- What the loss of a lane leaves: fields that are of no lane, nor of its counters. -/
theorem State.laneDark_spares {P : Field → Prop} (tide : 256 ≤ l) (lane : l < 268)
    (off : ∀ g, P g → g.Quiet ∧ 8 * 0x0090B000 ≤ g.base) : Spares P s (s.laneDark l idle seen) := by
  have apart {o lo w : Nat} (h : o % 4 = 0 ∧ lo + w ≤ 64 ∧ 8 * o + lo + w ≤ 8 * 0x0090B000) :
      ∀ g, P g → Field.Apart ⟨o, lo, w⟩ g := fun g holds => by
    obtain ⟨quiet, low⟩ := off g holds
    exact ⟨⟨h.1, h.2.1⟩, quiet.1, by simp only [Field.base] at low ⊢; omega⟩
  have counts {i : Nat} (few : i < 4) : ∀ g, P g → g.Off (cntLns l i) := fun g holds => by
    obtain ⟨quiet, low⟩ := off g holds
    exact ⟨by unfold cntLns; omega, quiet.1, .inr (by unfold cntLns; omega)⟩
  have sees : Spares P s (s.sees l seen) := s.sees_spares seen tide fun g holds =>
    ⟨(off g holds).1, counts (by decide) g holds, apart (by omega) g holds, apart (by omega) g holds⟩
  refine .of (State.put_spares _ 0 (apart (by omega))) (.of ⟨fun g holds => State.count_get _ _ (off g holds).1
    (counts (by decide) g holds)⟩ ?_)
  exact .ite (.of (State.put_spares _ 1 (apart (by omega))) sees)
    (.of ((raise_noted ..).spares fun g holds => (off g holds).1) sees)

theorem State.laneDark_csc (tide : 256 ≤ l) (lane : l < 268) : Spares Field.OfCsc s (s.laneDark l idle seen) :=
  s.laneDark_spares idle seen tide lane fun _ csc => ⟨csc.quiet, by have := csc.low; omega⟩

theorem State.laneDark_exp (tide : 256 ≤ l) (lane : l < 268) : Spares Field.OfExpState s (s.laneDark l idle seen) :=
  s.laneDark_spares idle seen tide lane fun _ shown => ⟨shown.quiet, by have := shown.word; simp only [Field.base]; omega⟩

end Dark

section LaneLost
variable {s : State} {p lane : Nat}

theorem State.portLanes_state (port : p < 3) (lanes : Nat) : (s.portLanes p lanes).portState p = s.portState p :=
  (s.portLanes_spares lanes port (P := (· = Reg.CSC_PORT_STATE p)) (fun _ here => here ▸ .ofNumbers)
    (fun _ here => here ▸ .ofNumbers)).get _ rfl

/-- R379: a port that has lost one of its lanes goes on with the other. -/
theorem State.tideLaneLost_other (port : p < 3) (side : lane < 2) (both : s.get (Reg.CSC_PORT_LANES p) = 3)
    (ready : s.portState p = 6) :
    s.tideLaneLost p lane = (s.portLanes p (2 - lane)).raise 0x0D03 [(1, p), (2, 262 + 2 * p + lane)] := by
  have left : setBit 3 lane false = 2 - lane := by interval_cases lane <;> decide
  unfold State.tideLaneLost
  extract_lets lanes t
  have is : lanes = 2 - lane := (congrArg (setBit · lane false) both).trans left
  have state : t.portState p = 6 := (State.portLanes_state port lanes).trans ready
  rw [if_neg (by rw [both, is]; omega), if_neg (not_not.mpr state), if_neg (by rw [is]; omega)]
  simp only [t, is]

/-- R379: the loss of the last lane is the port's. -/
theorem State.tideLaneLost_last (port : p < 3) (side : lane < 2) (last : s.get (Reg.CSC_PORT_LANES p) = lane + 1)
    (ready : s.portState p = 6) : s.tideLaneLost p lane = (s.portLanes p 0).portLost p 6 := by
  have left : setBit (lane + 1) lane false = 0 := by interval_cases lane <;> decide
  unfold State.tideLaneLost
  extract_lets lanes t
  have is : lanes = 0 := (congrArg (setBit · lane false) last).trans left
  have state : t.portState p = 6 := (State.portLanes_state port lanes).trans ready
  rw [if_neg (by rw [last, is]; omega), if_neg (not_not.mpr state), if_pos is]
  simp only [t, is]

/-- The last lane of a port, and the port's receivers, are dark. -/
def State.portDark (s : State) (p lane : Nat) (idle : Bool) (seen : RxSeen) : State :=
  (s.laneDark (262 + 2 * p + lane) idle seen).portLanes p 0

theorem State.portDark_kept (s : State) (p lane : Nat) (idle : Bool) (seen : RxSeen) : Kept reports s (s.portDark p lane idle seen) :=
  .of (State.portLanes_kept ..) (s.laneDark_kept idle seen)

theorem State.portDark_expState (port : p < 3) (side : lane < 2) (idle : Bool) (seen : RxSeen) :
    (s.portDark p lane idle seen).get Reg.EXP_STATE_STATE = s.get Reg.EXP_STATE_STATE :=
  ((State.portLanes_exp _ 0 port).get _ stateField).trans ((s.laneDark_exp idle seen (by omega) (by omega)).get _ stateField)

theorem State.portDark_firing (port : p < 3) (side : lane < 2) (idle : Bool) (seen : RxSeen) :
    (s.portDark p lane idle seen).firing = s.firing := by
  rw [State.firing, State.firing, State.portDark_expState port side]

end LaneLost

/-- R379: a READY port loses the last of its lanes. -/
theorem execTlLaneLost_last {s : State} {p : Fin 3} {lane : Fin 2} {idle : Bool} {seen : RxSeen}
    (aligned : s.get (Reg.LNS_LANE_RX_ALIGNED (262 + 2 * p + lane)) = 1) (lost : idle = true ∨ 8 ≤ seen.errors.toNat)
    (last : s.get (Reg.CSC_PORT_LANES p) = if lane = 0 then 1 else 2) (ready : s.portState p = 6) :
    exec (.tlLaneLost p ⟨lane, idle, seen⟩) s = .next ((s.portDark p lane idle seen).portLost p 6) := by
  have csc := s.laneDark_csc (l := 262 + 2 * p + lane) idle seen (by omega) (by omega)
  have only : s.get (Reg.CSC_PORT_LANES p) = lane.val + 1 := by
    rw [last]
    fin_cases lane <;> rfl
  exact (execTlLaneLost_loses aligned lost).trans (congrArg Host.Outcome.next (State.tideLaneLost_last p.isLt lane.isLt
    ((csc.get _ .ofNumbers).trans only) ((csc.get _ .ofNumbers).trans ready)))

end Sys2Proof.Machine
end

section
/-! PROOFS. The obligation on the training of tide links, latency and the loss of a link (R366 to R379). -/
namespace Sys2Proof.Machine
set_option Elab.async false

/-! ### Start, time limits, markers -/

/-- What the lanes of a port send, and count, as it starts to train. -/
def State.trainSent (s : State) (p : Nat) : State :=
  ((((s.put (Reg.CSC_PORT_CAUSE p) 0).count (cntLns (256 + 2 * p) 3)).count (cntLns (257 + 2 * p) 3)).qualSent
    (256 + 2 * p)).qualSent (257 + 2 * p)

/-- The record of a port that starts to train. -/
def State.trainFresh (s : State) (p : Nat) : State := (s.trainSent p).modPort p fun _ => {}

theorem execCscPortTrainStart_eq {s : State} {p : Fin 3} (rests : s.portState p = 0 ∨ s.portState p = 7)
    (when' : s.get Reg.EXP_STATE_STATE = 0 ∨ s.get Reg.EXP_STATE_STATE = 2) (enabled : s.portEnabled p = true)
    (lock : s.get Reg.LNS_STATUS_TIDE_LOCK = 1) (up : s.domainOn 15 = true)
    (unlooped : s.lanes.loop.any (fun l => decide ((l.1 - 256) / 2 = p.val ∧ 256 ≤ l.1)) = false) :
    exec (.cscPortTrainStart p) s = .next ((s.trainFresh p).portTo p 1) :=
  if_pos ⟨rests, when', enabled, by simp [State.on, lock], up, by rw [unlooped]; decide⟩

theorem State.trainSent_kept (s : State) (p : Nat) : Kept (.lanes :: reports) s (s.trainSent p) :=
  .of (State.qualSent_kept ..) (.of (State.qualSent_kept ..) (.of (State.count_kept ..) (.of (State.count_kept ..)
    (.of (State.put_kept ..) .refl))))

theorem State.trainFresh_kept (s : State) (p : Nat) : Kept (.csc :: .lanes :: reports) s (s.trainFresh p) :=
  .of (State.modPort_kept ..) (.of (s.trainSent_kept p) .refl)

theorem State.trainFresh_cause (s : State) {p : Nat} (port : p < 3) : (s.trainFresh p).get (Reg.CSC_PORT_CAUSE p) = 0 := by
  have sent : Spares Field.OfCsc (s.put (Reg.CSC_PORT_CAUSE p) 0) (s.trainFresh p) :=
    .of (State.modPort_kept ..).spares (.of (State.qualSent_kept ..).spares (.of (State.qualSent_kept ..).spares
      (.of (State.count_sparesCsc _ (by unfold cntLns; omega)) (State.count_sparesCsc _ (by unfold cntLns; omega)))))
  exact (sent.get _ .ofNumbers).trans (s.get_put_same _ 0 .ofNumbers (show 0 < 2 ^ 4 by decide))

section Fresh
variable {s : State} {p : Nat}

theorem State.trainFresh_other {k : Nat} (ne : k ≠ p) : (s.trainFresh p).port k = s.port k :=
  (State.modPort_other _ _ ne).trans (State.port_congr (s.trainSent_kept p).csc k)

theorem State.trainFresh_same (inside : p < s.csc.ports.length) :
    p < (s.trainFresh p).csc.ports.length ∧ (s.trainFresh p).port p = {} := by
  rw [← (s.trainSent_kept p).csc] at inside
  exact ⟨(State.listModify_length ..).symm ▸ inside, State.modPort_same _ _ inside⟩

end Fresh

/-- R367: the time of ALIGN or of EQ, in tide clocks. -/
theorem execCscTrainTimeout_fails {s : State} {p : Fin 3}
    (late : (s.portState p = 1 ∧ (s.port p).enteredAt + 4000000 ≤ s.tide) ∨
      (s.portState p = 2 ∧ (s.port p).enteredAt + 20000000 ≤ s.tide)) :
    exec (.cscTrainTimeout p) s = .next (s.portFails p (s.portState p)) := by
  rcases late with ⟨align, late⟩ | ⟨eq, late⟩
  · rw [align]
    exact if_pos ⟨align, by omega⟩
  · rw [eq]
    exact (if_neg fun align => absurd (eq.symm.trans align.1) (by decide)).trans (if_pos ⟨eq, by omega⟩)

theorem execCscTrainTimeout_waits {s : State} {p : Fin 3}
    (early : (s.portState p = 1 ∧ s.tide < (s.port p).enteredAt + 4000000) ∨
      (s.portState p = 2 ∧ s.tide < (s.port p).enteredAt + 20000000) ∨ 3 ≤ s.portState p) :
    exec (.cscTrainTimeout p) s = .next s := by
  refine (if_neg fun late => ?_).trans (if_neg fun late => ?_)
  · obtain ⟨align, since⟩ := late
    omega
  · obtain ⟨eq, since⟩ := late
    omega

theorem execTimeSetMessage_eq {s : State} {h : BitVec 64} {w : BitVec 16} (slave : s.isSlave = true)
    (training : s.portState 0 = 4 ∨ s.portState 0 = 5) :
    exec (.timeSetMessage h w) s = .next ((s.headSet h w).portTo 0 5) :=
  if_pos ⟨slave, training⟩

/-! ### Resends (R371) -/

theorem execMessageResend_again {s : State} {p : Fin 3} {m : CscMsg} {r : List CscMsg} (waits : (s.port p).unacked = m :: r)
    (ready : s.portState p = 6) (few : m.resends < 3) : exec (.messageResend p) s =
      .next ((s.modPort p fun c => { c with unacked := { m with resends := m.resends + 1 } :: r }).count (cntCsc 1)) := by
  show execMessageResend p s = _
  unfold execMessageResend
  rw [waits]
  exact (if_neg (not_not.mpr ready)).trans (if_neg (Nat.not_le.mpr few))

theorem execMessageResend_spent {s : State} {p : Fin 3} {m : CscMsg} {r : List CscMsg} (waits : (s.port p).unacked = m :: r)
    (ready : s.portState p = 6) (spent : 3 ≤ m.resends) : exec (.messageResend p) s = .next (s.portLost p 6) := by
  show execMessageResend p s = _
  unfold execMessageResend
  rw [waits]
  exact (if_neg (not_not.mpr ready)).trans (if_pos spent)

/-! ### Writes of the configuration (R366, R380) -/

/-- The registers of the configuration. -/
def cscConfig : List Nat := [0x00F00000, 0x00F00020, 0x00F00024, 0x00F00028]

theorem cscConfig_narrow : ∀ off ∈ cscConfig, NarrowAt off := by
  have rows : ∀ off ∈ cscConfig, ∀ x ∈ findRow off, x.1.Narrow := by decide
  exact fun off listed x row => rows off listed x row

theorem cscConfig_place : ∀ off ∈ cscConfig, canonOffset off = off ∧ domainOf off = 15 ∧ off % 4 = 0 ∧
    (off = 0x00F00000 ∨ 0x00F00020 ≤ off) := by decide

theorem State.writeWord_cscConfig {s : State} {off : Nat} (config : off ∈ cscConfig) (up : s.domainOn 15 = true) (v : BitVec 32) :
    WordWritten off v s (s.writeWord off v) := by
  obtain ⟨canon, domain, -⟩ := cscConfig_place off config
  exact s.writeWord_written v canon (fun _ _ _ row => cscConfig_narrow off config _ row) (by rw [domain]; exact up)

/-- A write of the configuration stands as the ports are shown anew. -/
theorem Wrote.showPorts {s t : State} {off : Nat} {v : BitVec 64} (config : off ∈ cscConfig) (wrote : Wrote off false v s t) :
    Wrote off false v s t.showPorts := by
  obtain ⟨-, -, aligned, place⟩ := cscConfig_place off config
  intro h le r idx k row
  obtain rfl : h = 0 := Nat.le_zero.1 le
  obtain ⟨one, fits, -⟩ := cscConfig_narrow off config _ row
  refine ⟨fun narrow f listed => ?_, fun wide => absurd wide (Bool.eq_false_iff.1 one)⟩
  have within := fits f listed
  have apart : portStatus.Apart ⟨off + 4 * 0, f.lo, f.width⟩ :=
    ⟨⟨by decide, by decide⟩, ⟨by show (off + 4 * 0) % 4 = 0; omega, by show f.lo + f.width ≤ 64; omega⟩, by
      simp only [portStatus, Field.base]; omega⟩
  exact ((t.showPorts_spares (P := portStatus.Apart) fun _ apart => apart).get _ apart).trans ((wrote 0 le r idx k row).1 narrow f listed)

/-- A change of registers, and then another one. -/
theorem SameBut.regs_trans {s t u : State} (first : t = { s with regs := t.regs }) (next : SameBut [.regs] t u) : SameBut [.regs] s u := by
  obtain ⟨rf, rfl⟩ : ∃ rf, t = { s with regs := rf } := ⟨_, first⟩
  exact next

theorem execCscConfigWrite_eq {s : State} {off : BitVec 25} (config : off.toNat ∈ cscConfig) (up : s.domainOn 15 = true) (v : Word) :
    exec (.cscConfigWrite off v) s = if s.get Reg.EXP_STATE_STATE = 2 ∧ s.box.strips.isEmpty
      then .next (s.writeWord off.toNat v).showPorts else .next (s.raise 0x0D0C [(1, 0xFF), (4, off.toNat)]) :=
  (if_neg (not_not.mpr (natMem_iff.mpr config))).trans (if_neg (not_not.mpr up))

end Sys2Proof.Machine
end

section
/-! PROOFS. The obligation on the training of tide links, latency and the loss of a link (R366 to R379), put together. -/
namespace Sys2Proof.Machine
set_option Elab.async false

/-- Settles O39: training state by state (`exec_trainAlign` to `exec_trainTime`, `PortFailed`, `State.joined_stands`), the lanes and
ports that are lost (`State.laneDark`, `PortDropped`, `State.portLost_breaks`), and the writes of the configuration. -/
theorem tideLinkTraining : Obligations.tide_link_training := by
  unfold Obligations.tide_link_training
  intro s
  refine ⟨fun p rests when' enabled lock up unlooped inside => ?_,
    fun p lane0 lane1 skew device devices spread align adapted inside => ?_,
    fun p lane0 lane1 skew device devices spread waits => ?_,
    fun p lane0 lane1 skew device devices spread passes => ?_,
    fun p lane0 lane1 skew device devices spread ⟨deskew, far⟩ => ?_,
    fun p lane0 lane1 skew device devices spread w latency master enough close is short => ?_,
    fun p lane0 lane1 skew device devices spread latency master enough wrong => ?_,
    fun p lane0 lane1 skew device devices spread time enough close still none inside => ?_,
    fun p lane0 lane1 skew device devices spread time enough wrong => ?_,
    fun p early => ⟨s, execCscTrainTimeout_waits early, rfl⟩, fun p late => ?_,
    fun p dm am as ds master latency few inside => ?_, fun p dm am as ds slave => ⟨s, if_pos slave, rfl⟩,
    fun h w slave training => ?_,
    fun p lane idle seen aligned lost both ready => ?_, fun p lane idle seen aligned lost last ready calm unflooded => ?_,
    fun p lane idle seen st aligned lost last ready isOpen exposing noPrompt => ?_,
    fun p lane idle seen fine => ⟨s, execTlLaneLost_holds fine, rfl⟩,
    fun p m r waits ready few inside => ?_, fun p m r waits ready spent calm unflooded inside => ?_,
    fun off v listed up slack unposted => ?_, fun off v listed up busy => ?_⟩
  · have fresh := s.trainFresh_kept p
    obtain ⟨long, empty⟩ := State.trainFresh_same inside
    have port (k : Nat) := (s.trainFresh p).portTo_port (p := p) 1 k fun _ => long
    have here : ((s.trainFresh p).portTo p 1).port p = { enteredAt := s.tide } := by
      rw [port p, if_pos rfl, empty, fresh.tide]
    refine ⟨_, execCscPortTrainStart_eq rests when' enabled lock up unlooped, State.portTo_state _ 1 p.isLt (by decide),
      ((State.portTo_spares _ 1).get _ ⟨.ofNumbers, .ofNumbers, .ofNumbers⟩).trans (s.trainFresh_cause p.isLt),
      congrArg CscPort.markers here, congrArg CscPort.unacked here, congrArg CscPort.enteredAt here, fun k ne => ?_,
      .of_kept (.of (State.portTo_kept ..) (.of fresh .refl))⟩
    rw [port k, if_neg ne]
    exact State.trainFresh_other ne
  · have kept := s.lanesAligned_kept p lane0 lane1
    have port := (s.lanesAligned p lane0 lane1).portTo_port (p := p) 2 p fun _ => kept.csc ▸ inside
    have second := s.lanesAligned_aligned p.isLt (i := 1) (by decide) lane0 lane1
    rw [show 262 + 2 * p.val + 1 = 263 + 2 * p.val by omega] at second
    refine ⟨_, (exec_trainAlign align).trans (congrArg Host.Outcome.next (if_pos adapted)), State.portTo_state _ 2 p.isLt (by decide),
      ((State.portTo_spares _ 2).get _ ⟨.ofNumbers, .ofNumbers, .ofNumbers⟩).trans (s.lanesAligned_lanes p.isLt lane0 lane1), ?_,
      ((State.portTo_sparesBelow _ p 2).get _ .ofNumbers).trans (s.lanesAligned_aligned p.isLt (i := 0) (by decide) lane0 lane1),
      ((State.portTo_sparesBelow _ p 2).get _ .ofNumbers).trans second,
      .of_kept (.of (State.portTo_kept ..) (.of kept .refl))⟩
    rw [port, if_pos rfl, kept.tide]
  · rcases waits with ⟨align, unadapted⟩ | ⟨eq, closed⟩ | ⟨latency, held⟩ | ⟨time, master, few⟩
    · refine ⟨s, (exec_trainAlign align).trans (congrArg Host.Outcome.next (if_neg fun adapted => ?_)), rfl⟩
      exact unadapted.elim (fun no => Bool.noConfusion (no.symm.trans adapted.1)) fun no => Bool.noConfusion (no.symm.trans adapted.2)
    · refine ⟨s, (exec_trainEq eq).trans (congrArg Host.Outcome.next (if_neg fun opened => ?_)), rfl⟩
      exact closed.elim (fun no => Bool.noConfusion (no.symm.trans opened.1)) fun no => Bool.noConfusion (no.symm.trans opened.2)
    · refine ⟨s, (exec_trainLatency latency).trans (congrArg Host.Outcome.next ?_), rfl⟩
      split
      · rfl
      · next master => exact State.endLatency_waits (held.resolve_left master)
    · exact ⟨s, (exec_trainTime time).trans (congrArg Host.Outcome.next (State.endTime_waits master few)), rfl⟩
  · rcases passes with ⟨eq, opened⟩ | ⟨deskew, near⟩
    · refine ⟨_, (exec_trainEq eq).trans (congrArg Host.Outcome.next (if_pos opened)),
        (State.portTo_state _ 3 p.isLt (by decide)).trans (by rw [eq]), .of_kept (.of (State.portTo_kept ..) ?_)⟩
      exact .of (s.lanesEqualised_kept p lane0 lane1) .refl
    · exact ⟨_, (exec_trainDeskew deskew).trans (congrArg Host.Outcome.next (if_neg (Nat.not_lt.mpr near))),
        (State.portTo_state _ 4 p.isLt (by decide)).trans (by rw [deskew]), .of_kept (State.portTo_kept ..)⟩
  · have failed := s.portFails_failed p.isLt (show 3 < 16 by decide)
    exact ⟨_, (exec_trainDeskew deskew).trans (congrArg Host.Outcome.next (if_pos far)), failed.state, failed.shown, failed.lanes⟩
  · have stands := (s.latencyEnds p w).send_linkStands p 11 [(s.latencyEnds p w).headTime, w]
    refine ⟨_, (exec_trainLatency latency).trans (congrArg Host.Outcome.next ((if_neg (by rw [master]; decide)).trans
      (State.endLatency_ends enough close is short))), ?_, ?_⟩
    · exact (stands.regs.get _ ⟨.ofNumbers, .ofNumbers⟩).trans (State.portTo_state _ 5 p.isLt (by decide))
    · exact (stands.regs.get _ ⟨.ofNumbers, .ofNumbers⟩).trans (State.latencyEnds_oneway p.isLt w)
  · have failed := s.portFails_failed p.isLt (show 4 < 16 by decide)
    exact ⟨_, (exec_trainLatency latency).trans (congrArg Host.Outcome.next ((if_neg (by rw [master]; decide)).trans
      (State.endLatency_fails enough wrong))), failed.state, failed.shown, failed.lanes⟩
  · have stands := (s.portJoins p device.toNat devices.toNat).joined_stands p
    have joins : (s.portJoins p device.toNat devices.toNat).portState p = 6 := State.portTo_state _ 6 p.isLt (by decide)
    have port := (s.modPort p fun c => { c with peerDevice := device.toNat, peerDevices := devices.toNat }).portTo_port (p := p) 6 p
      fun _ => (State.listModify_length ..).symm ▸ inside
    rw [if_pos rfl, State.modPort_same _ _ inside] at port
    obtain ⟨partner, partners⟩ := stands.partner p
    refine ⟨_, (exec_trainTime time).trans (congrArg Host.Outcome.next (State.endTime_joins enough close still none)),
      (stands.regs.get _ ⟨.ofNumbers, .ofNumbers⟩).trans joins, partner.trans (congrArg CscPort.peerDevice port),
      partners.trans (congrArg CscPort.peerDevices port), ?_⟩
    rw [stands.regs.get _ ⟨.ofNumbers, .of⟩]
    exact (State.portTo_ready _ 6 p.isLt).trans (decide_eq_true joins)
  · have failed := s.portFails_failed p.isLt (show 5 < 16 by decide)
    exact ⟨_, (exec_trainTime time).trans (congrArg Host.Outcome.next (State.endTime_fails enough wrong)), failed.state, failed.shown,
      failed.lanes⟩
  · have failed := s.portFails_failed p.isLt (show s.portState p < 16 by omega)
    exact ⟨_, execCscTrainTimeout_fails late, failed.state, failed.shown⟩
  · refine ⟨_, (if_neg (by rw [master]; decide)).trans (if_pos ⟨latency, few⟩), State.modPort_same _ _ inside,
      fun k ne => State.modPort_other _ _ ne, .of_kept (State.modPort_kept ..)⟩
  · have kept := (s.headSet h w).portTo_kept 0 5
    exact ⟨_, execTimeSetMessage_eq slave training, State.headSet_headTime kept.headTime0 kept.tide
      ((State.portTo_sparesBelow _ 0 5).get _ .ofNumbers), State.portTo_state _ 5 (by decide) (by decide), kept.tide⟩
  · have csc := s.laneDark_csc (l := 262 + 2 * p + lane) idle seen (by omega) (by omega)
    have two : 2 - lane.val < 4 := by omega
    refine ⟨_, (execTlLaneLost_loses aligned lost).trans (congrArg Host.Outcome.next (State.tideLaneLost_other p.isLt lane.isLt
      ((csc.get _ .ofNumbers).trans both) ((csc.get _ .ofNumbers).trans ready))), ?_, ?_, ?_,
      .of_kept (.of (State.raise_kept ..) (.of (State.portLanes_kept ..) (s.laneDark_kept idle seen)))⟩
    · rw [State.raise_get _ _ _ .ofNumbers, State.portLanes_lanes _ _ p.isLt two]
      fin_cases lane <;> rfl
    · rw [State.raise_get _ _ _ .ofNumbers, State.portLanes_aligned _ _ lane.isLt]
      fin_cases lane <;> rfl
    · exact (State.raise_get _ _ _ .ofNumbers).trans ((State.portLanes_state p.isLt _).trans ((csc.get _ .ofNumbers).trans ready))
  · have dropped := (s.portDark p lane idle seen).dropTold_dropped p.isLt (show 6 < 16 by decide)
    have gone := (s.portDark p lane idle seen).portLost_calm p.isLt (show 6 < 16 by decide)
      ((State.portDark_firing p.isLt lane.isLt idle seen).trans calm)
      ((State.portDark_expState p.isLt lane.isLt idle seen).trans_ne unflooded)
    exact ⟨_, (execTlLaneLost_last aligned lost last ready).trans (congrArg Host.Outcome.next gone), dropped.state, dropped.lanes,
      dropped.shown, dropped.ready⟩
  · have kept := s.portDark_kept p lane idle seen
    have fires : s.firing = true := decide_eq_true (.inl exposing)
    have breaks := State.portLost_breaks (s := s.portDark p lane idle seen) p.isLt (show 6 < 16 by decide)
      ((State.openStrip_congr kept.box).trans isOpen) ((State.portDark_firing p.isLt lane.isLt idle seen).trans fires)
      ((congrArg SeqState.prompt kept.seq).trans noPrompt)
    exact ⟨_, execTlLaneLost_last aligned lost last ready, breaks⟩
  · have kept : Kept (.csc :: reports) s ((s.modPort p fun c => { c with unacked := { m with resends := m.resends + 1 } :: r }).count
        (cntCsc 1)) := .of (State.count_kept ..) (.of (State.modPort_kept ..) .refl)
    exact ⟨_, execMessageResend_again waits ready few,
      (State.port_congr (State.count_kept ..).csc p).trans (State.modPort_same _ _ inside), .of_kept kept⟩
  · have dropped := s.dropTold_dropped p.isLt (show 6 < 16 by decide)
    exact ⟨_, (execMessageResend_spent waits ready spent).trans (congrArg Host.Outcome.next (s.portLost_calm p.isLt (by decide) calm
      unflooded)), dropped.state, dropped.shown, dropped.unacked inside⟩
  · have config := natMem_iff.mp listed
    have written := State.writeWord_cscConfig config up v
    exact ⟨_, (execCscConfigWrite_eq config up v).trans (if_pos ⟨slack, by rw [unposted]; rfl⟩), Wrote.showPorts config
      (WordWritten.wroteNarrow (fun _ _ _ row => cscConfig_narrow _ config _ row) (by rw [setWidth_word]; exact written)),
      SameBut.regs_trans written.same (.of_kept (State.showPorts_kept _))⟩
  · exact ⟨_, (execCscConfigWrite_eq (natMem_iff.mp listed) up v).trans (if_neg fun slack => busy slack.1), (raise_noted ..).reported⟩

end Sys2Proof.Machine
end
